-- ==== Sys2Proof/Word.lean ====
section
/-!
DEFINITION. The word types and the plain names every file uses: register words, the two sides of a link, the two
directions, and small bit helpers.
-/

namespace Sys2Proof

/-- A register word as software sees it (R482: every register is 32 bits wide). -/
abbrev Word := BitVec 32
abbrev Byte := BitVec 8

/-- The two sides of the device, of a lane and of a link (chapter Scope, The Lozel in the fabric). -/
inductive Side where
  | a | b
  deriving DecidableEq, Repr

def Side.idx : Side → Nat
  | .a => 0
  | .b => 1

def Side.other : Side → Side
  | .a => .b
  | .b => .a

def Side.ofIdx (n : Nat) : Side := if n = 0 then .a else .b

/-- The AB direction is received on A and sent on B; BA the other way (chapter Scope). -/
inductive Dir where
  | ab | ba
  deriving DecidableEq, Repr

def Dir.idx : Dir → Nat
  | .ab => 0
  | .ba => 1

def Dir.ofIdx (n : Nat) : Dir := if n = 0 then .ab else .ba

/-- The side a direction arrives on. -/
def Dir.inSide : Dir → Side
  | .ab => .a
  | .ba => .b

/-- The side a direction leaves on. -/
def Dir.outSide : Dir → Side
  | .ab => .b
  | .ba => .a

/-- The direction that arrives on a side. -/
def Side.dirIn : Side → Dir
  | .a => .ab
  | .b => .ba

/-- The direction that leaves on a side. -/
def Side.dirOut : Side → Dir
  | .a => .ba
  | .b => .ab

/-- The bits `hi`..`lo` of a number. -/
def bits (v hi lo : Nat) : Nat := v / 2 ^ lo % 2 ^ (hi + 1 - lo)

/-- One bit of a number. -/
def bit (v i : Nat) : Bool := v / 2 ^ i % 2 = 1

/-- A truth value as a register field holds it. -/
def b2n (b : Bool) : Nat := if b then 1 else 0

/-- The largest value of `w` bits. -/
def maxOf (w : Nat) : Nat := 2 ^ w - 1

/-- A signed field of `w` bits, in two's complement. -/
def signed (w v : Nat) : Int := if v < 2 ^ (w - 1) then v else (v : Int) - 2 ^ w

/-- A signed number as a field of `w` bits holds it. -/
def unsigned (w : Nat) (i : Int) : Nat := (i % (2 ^ w : Int)).toNat

/-! ## What travels on the lanes -/

/-- A received or sent ten-bit symbol after decoding (R50): a data symbol with its byte, a control symbol with its byte
(K28.5 is 0xBC), or a bad symbol: a code violation, or a disparity error. -/
inductive Sym where
  | d (b : Nat)
  | k (b : Nat)
  | bad (disp : Bool)
  deriving DecidableEq, Repr

/-- K27.7, the SOF of R166. -/
def symSOF : Nat := 0xFB
/-- K30.7, the BAD of R166. -/
def symBAD : Nat := 0xFE

/-- One lane's slice of an arriving flit as its RX end has decoded it (R166), and whether the lane was LOCKED for every
symbol of it (R167). -/
structure Slice where
  locked : Bool
  syms : List Sym
  deriving DecidableEq, Repr

/-- What arrives on one lane of a slice or of an ordered set: the ten-bit codes as they stand on the line, on the symbol
boundaries of the end's alignment, `a` first (R48), and the deskewed symbol time of the first of them (R87). -/
structure Heard where
  codes : List Nat := []
  time : Nat := 0
  deriving DecidableEq, Repr

/-- A flit: its 144 bytes, and its arrival class under R167: 0 good, 1 BADSYM, 2 BADIN, 3 BADPAR. -/
structure Flit where
  bytes : List Nat := []
  cls : Nat := 0
  deriving DecidableEq, Repr

/-- One lane's copy of an ordered set (R61, R87): intact with its contents, not intact, or a deskew miss. -/
inductive Copy (α : Type) where
  | intact (v : α)
  | bad
  | missed
  deriving DecidableEq, Repr

/-- The contents of an ACK set (R57): ack_seq, the XLP flags of A1 and the XOFF map. -/
structure AckSet where
  seq : Nat := 0
  flags : Nat := 0
  map : Nat := 0
  deriving DecidableEq, Repr

/-- The contents of a DRN set (R214): D0 and the value of D1-D2. -/
structure DrnSet where
  d0 : Nat := 0
  value : Nat := 0
  deriving DecidableEq, Repr

/-- The contents of a TRN set (R59, R138). `flags` is T3. -/
structure TrnSet where
  t0 : Nat := 0xB5
  t1 : Nat := 0
  kind : Nat := 1
  flags : Nat := 0
  max : Nat := 0
  cur : Nat := 0
  width : Nat := 0
  target : Nat := 0
  tag : Nat := 0
  elect : Nat := 0
  value : Nat := 0
  deriving DecidableEq, Repr

/-- What one read of a slot delivers (R270, R271): the bits that differ from the stored ones, as code word and bit of the
word, at most two in a word; the tag after correction where it is not the slot's own; and whether the descriptor showed a
double-bit error. -/
structure EccRead where
  flips : List (Nat × Nat) := []
  tag : Option Nat := none
  desc : Bool := false
  deriving DecidableEq, Repr

/-- A read without an error. -/
def EccRead.ok : EccRead := {}

/-- A lane end: the lane and the side the end receives from (R43). -/
structure LaneEnd where
  n : Nat
  sd : Side
  deriving DecidableEq, Repr

/-- What a lane end's detector sees (R71): the amplitude in mV, and for how many ns it has been there. -/
structure Sensed where
  mv : Nat
  ns : Nat
  deriving DecidableEq, Repr

/-- The entry clock end of a cluster direction (R79). -/
structure ClockEnd where
  c : Nat
  d : Dir
  deriving DecidableEq, Repr

/-- What is measured at an entry clock end (R81, R82): the amplitude in mV, the offset in ppm from the reference, and for
how long: cycles without an edge at a loss, ns out of loss at a qualification. -/
structure ClockSensed where
  mv : Nat
  ppm : Nat
  len : Nat
  deriving DecidableEq, Repr

/-- A slot of the flit buffer (R269). -/
structure SlotAt where
  die : Nat
  addr : Nat
  deriving DecidableEq, Repr

/-- The bank copy of a die that has ended (R281, R284), with what its reads delivered, by slot address; a slot not named
was read without an error. -/
structure BankReads where
  die : Nat
  reads : List (Nat × EccRead)
  deriving DecidableEq, Repr

/-- What a checker has counted since its last event (R388): bit errors and bad symbols, and at a loss of lock the errors in
its window of 1,024 bits. -/
structure BitErrs where
  errs : Nat
  bad : Nat
  wnd : Nat
  deriving DecidableEq, Repr

/-- How a bank test ends (R374, R382): its count reached, with the numbers of the failing rows found (R379) and the first
failure's place; or stopped short after some operations. -/
inductive BankTest where
  | counted (rows : List Nat) (slot bit : Nat) (desc : Bool)
  | short (ops : Nat)
  deriving DecidableEq, Repr

/-- The two measurements of each item of a calibration run, in item order (R360, R365). -/
abbrev CalMeasure := List (Int × Int)

/-- One eye as scanned (R370): whether the data point itself is open, and the open steps earlier, later, above and below
it. -/
structure EyeScan where
  isOpen : Bool := true
  earlier : Nat := 0
  later : Nat := 0
  above : Nat := 0
  below : Nat := 0
  deriving DecidableEq, Repr

/-- A ring message as received after its COM: type, address, body and CRC, symbol by symbol (R446). -/
abbrev RingMsg := List Sym

/-- The logic run of a region in POST (R377): the patterns applied and the signature they left. -/
structure PostLogic where
  region : Nat
  patterns : Nat := 65536
  sig : Nat
  deriving DecidableEq, Repr

/-- The memory run of a bank in POST (R377, R379): bank 33 × die + bank, the operations applied and the failing rows. -/
structure PostBank where
  bank : Nat
  ops : Nat := 204800
  rows : List Nat := []
  deriving DecidableEq, Repr

/-- The runs of a die's other memories in POST (R377): whether each has had its fixed count, and whether a row failed. -/
structure PostMem where
  die : Nat
  full : Bool := true
  fails : Bool := false
  deriving DecidableEq, Repr

/-- What a POST finds (R377, R378). A region, bank or die that is not named ran to its count and found nothing. -/
structure PostEnd where
  logic : List PostLogic := []
  banks : List PostBank := []
  mems : List PostMem := []
  deriving DecidableEq, Repr

/-- How a step of START ends (R472): by having done its action; the calibration step with the runs it made, as cluster,
end and measurements; POST with what it found. -/
inductive StartEnd where
  | done
  | calibrate (runs : List (Nat × Nat × CalMeasure))
  | post (r : PostEnd)
  deriving DecidableEq, Repr

/-- What the comparators see of a rail (R399-R401): its index, and the level in mV that it has stayed below, or above, for some ns. -/
structure RailAt where
  rail : Nat
  mv : Nat
  ns : Nat
  deriving DecidableEq, Repr

/-- The pads of the package as R393 groups them. -/
inductive Pad where
  | tx (n : Nat) (sd : Side)
  | rx (n : Nat) (sd : Side)
  | clockTx (c : Nat) (d : Dir)
  | clockRx (c : Nat) (d : Dir)
  | refclk
  | host (i : Nat)
  | flash (i : Nat)
  | status (i : Nat)
  | picot (i : Nat)
  | rext
  | supply (i : Nat)
  | testEn
  | tap (i : Nat)
  deriving DecidableEq, Repr

/-- The kinds of boundary cells (R393): 1149.6 drivers and test receivers, the observe-only cells of REFCLK, and those of
1149.1. -/
inductive BoundaryCell where
  | acDriver | testReceiver | observe | dc
  deriving DecidableEq, Repr

/-- What happens at an interrupt source's input (R420): a pulse, or a level taking a value. -/
inductive InputEvent where
  | pulse
  | level (v : Bool)
  deriving DecidableEq, Repr

end Sys2Proof
end

