-- ==== Sys2Proof/Syntax.lean ====
section
/-!
DEFINITION. The commands of a Lozel: one constructor for each row of spec/opcode_table.json, with the operands the command
carries (which unit, which value, what was received or measured).
-/

namespace Sys2Proof

/-- A command: something that arrives at, or happens to, the package. -/
inductive Instr where
    /-- SIGNAL_DETECT (R71). Signal detect asserts on an RX end once the amplitude has stayed above the assert level
  for 100 ns. -/
  | signalDetect (e : LaneEnd) (x : Sensed)
    /-- LOSS_OF_SIGNAL (R71). The los_time expires below the deassert level; the RX end goes UNLOCKED and raises
  source 16c+0 unless an EIE came just before. -/
  | lossOfSignal (e : LaneEnd) (x : Sensed) (also : List Nat)
    /-- SYMBOL_LOCK_ACQUIRED (R55). The comma count reaches acq_commas and the RX end enters LOCKED, starting its bad-
  symbol and balance windows. -/
  | symbolLockAcquired (e : LaneEnd) (plus : Bool)
    /-- LOCK_LOSS (R55). The bad-symbol count of a window reaches lol_bad; the RX end goes UNLOCKED, raises 16c+1 and
  counts a lock loss. -/
  | lockLoss (e : LaneEnd) (also : List Nat)
    /-- BALANCE_WINDOW_END (R53). A 1,024-symbol PAM4 window completes and the level imbalance is published. -/
  | balanceWindowEnd (n : Nat) (sd : Side) (counts : List Nat)
    /-- TERMINATION_DETECT (R72). TERM_CMD go starts far-termination detection on the selected idle TX ends, or is
  refused as a whole. -/
  | terminationDetect (c : Nat) (mask : Nat) (a : Bool) (b : Bool)
    /-- TERMINATION_DETECT_DONE (R72). A termination detection ends, reports present or absent, and classifies absent
  ends OPEN. -/
  | terminationDetectDone (c : Nat) (absent : List Nat)
    /-- TX_SHORT (R73). A sending TX end stays outside the replica window for 1 µs; it is classified, idled without
  EIE and raises 16c+12. -/
  | txShort (n : Nat) (sd : Side) (cls : Nat)
    /-- RX_OPEN (R74). Loss of signal lasts 10 ms while another RX end of the side has signal; the end is classified
  RX_OPEN. -/
  | rxOpen (n : Nat) (sd : Side)
    /-- RX_OPEN_CLEAR (R75). After 1 ms of continuous signal detect, the RX_OPEN class clears by itself. -/
  | rxOpenClear (n : Nat) (sd : Side)
    /-- CNT_SNAP (R76). A read of CNT_SNAP latches every lane-end and clock counter of the cluster and adds one to
  snap_no. -/
  | cntSnap (c : Nat)
    /-- CNT_CTL_CLEAR (R76). A write of CNT_CTL.clear zeroes every live lane-end and clock counter of the cluster. -/
  | cntCtlClear (c : Nat)
    /-- LE_CFG_WRITE (R77). A write to LE_CFG of an end that carries traffic takes effect at its next ordered-set
  boundary. -/
  | leCfgWrite (n : Nat) (v : Nat)
    /-- ACK_SET_RECEIVE (R174). An accepted ACK set becomes the pending ACK set of the other side, replacing any older
  one, and is observed by darning or proxy flow control. -/
  | ackSetReceive (k : Nat) (sd : Side) (heard : List Heard) (fail1 : Bool) (fail2 : Bool)
    /-- IDL_RECEIVE (R173). A received IDL set is consumed. -/
  | idlReceive (k : Nat) (sd : Side) (heard : List Heard)
    /-- EIE_RECEIVE (R71). A received EIE set is consumed and marks an expected idle on the side. -/
  | eieReceive (k : Nat) (sd : Side) (heard : List Heard)
    /-- SKP_RECEIVE (R91). A received SKP set is forwarded or ended, and the elastic buffer adds or deletes K28.0 to
  recentre its fill. -/
  | skpReceive (k : Nat) (sd : Side) (heard : List Heard) (fill : Nat) (interval : Nat)
    /-- EB_SLIP (R92). An elastic buffer reaches 0 or 32; the slice is bad, EB_ERR counts it and recentring starts. -/
  | ebSlip (e : LaneEnd) (full : Bool) (pos : Nat)
    /-- DESKEW_REMEASURE (R87). After four consecutive deskew misses on a lane, its skew is measured again and applied
  at the set boundary. -/
  | deskewRemeasure (n : Nat) (sd : Side) (skew : Nat)
    /-- SKP_DUE (R88). The symbol count of a TX side reaches N − 256 and a SKP set falls due. -/
  | skpDue (k : Nat) (sd : Side)
    /-- SEND_NEXT (R172). At a point between flits and ordered sets, the leaving-side scheduler starts the first due
  item: EIE, SKP, TRN, DRN, ACK, SEL, a flit or IDL. -/
  | sendNext (k : Nat) (sd : Side) (r1 : EccRead) (r2 : EccRead)
    /-- CLOCK_DUTY_INVERT (R80). An entry clock end measures a duty cycle below 50%, inverts its input, sets ckl_inv
  and raises 16c+13. -/
  | clockDutyInvert (c : Nat) (d : Dir)
    /-- CLOCK_LANE_QUALIFIED (R82). An entry clock end has been out of loss for 100 µs and becomes qualified. -/
  | clockLaneQualified (e : ClockEnd) (x : ClockSensed)
    /-- CLOCK_LANE_LOSS (R94). A qualified entry clock end goes into loss; the device raises 16c+2 or 16c+3, and a
  FORWARDED direction switches to FALLBACK or borrows. -/
  | clockLaneLoss (e : ClockEnd) (x : ClockSensed)
    /-- SWITCHOVER_COMPLETE (R94). The switchover ends when slices from the RX ends pass again in FALLBACK or
  RECOVERED. -/
  | switchoverComplete (c : Nat) (d : Dir)
    /-- PLL_UNLOCK (R97). A cluster PLL phase error persists for 32 reference cycles; the PLL is unlocked and the
  direction borrows or retrains. -/
  | pllUnlock (c : Nat) (d : Dir)
    /-- PLL_RELOCK (R97). The PLL error stays within bounds for 1,024 reference cycles and lock is reported again. -/
  | pllRelock (c : Nat) (d : Dir)
    /-- BORROW_COMPLETE (R98). A borrow ends its interruption when slices pass again. -/
  | borrowComplete (c : Nat) (d : Dir)
    /-- HOLDOVER_EXPIRY (R102). After 10 ms in holdover with no steering end and no REFCLK, the spans with TX ends in
  the direction retrain. -/
  | holdoverExpiry (c : Nat) (d : Dir)
    /-- DENSE_REQ_RESEND (R93). Every 1 µs, a dense-skip request or release is sent again until it is answered or 16
  copies have gone. -/
  | denseReqResend (c : Nat) (d : Dir)
    /-- CK_TO_FORWARDED (R104). CK_CMD op TO_FORWARDED slews the direction PLL to its entry clock and sends a dense-
  skip release. -/
  | ckToForwarded (c : Nat) (d : Dir)
    /-- CK_TO_FALLBACK (R104). CK_CMD op TO_FALLBACK sends a dense-skip request and then moves the PLL to REFCLK. -/
  | ckToFallback (c : Nat) (d : Dir)
    /-- CK_RETURN_OWN (R104). CK_CMD op RETURN_OWN moves a borrowing direction back to its own PLL at a phase-aligned
  edge. -/
  | ckReturnOwn (c : Nat) (d : Dir)
    /-- FALLBACK_WAIT_EXPIRY (R104). TO_FALLBACK has waited 20 µs without dense_rx, and the PLL moves to REFCLK. -/
  | fallbackWaitExpiry (c : Nat) (d : Dir)
    /-- CK_OP_COMPLETE (R104). A CK_CMD operation completes and busy clears. -/
  | ckOpComplete (c : Nat)
    /-- ACQ_BLOCK_END (R117). An acquisition block of 4,096 symbols ends; its update is applied and convergence is
  judged. -/
  | acqBlockEnd (n : Nat) (sd : Side) (mse : Nat) (coefs : List Int) (f1pos : Nat) (f2pos : Nat)
    /-- ACQ_TIMEOUT (R117). Acquisition reaches 2^acq_max symbols without converging; it fails, counts acq_fail and
  raises 16c+7. -/
  | acqTimeout (n : Nat) (sd : Side)
    /-- TRACK_VISIT_END (R118). A tracking visit ends and its accumulated update becomes due. -/
  | trackVisitEnd (n : Nat) (sd : Side) (mse : Nat) (steps : List Int)
    /-- TRACK_UPDATE_APPLY (R118). A tracking update is applied at the next ordered-set boundary of the end. -/
  | trackUpdateApply (n : Nat) (sd : Side)
    /-- ADAPT_REACQUIRE (R115). ADAPT_CMD op REACQUIRE queues an acquisition for the selected end. -/
  | adaptReacquire (c : Nat) (sd : Side) (pos : Nat)
    /-- ADAPT_FREEZE (R119). ADAPT_CMD op FREEZE holds the coefficients of an end in TRACK. -/
  | adaptFreeze (c : Nat) (sd : Side) (pos : Nat)
    /-- ADAPT_THAW (R119). ADAPT_CMD op THAW returns a FROZEN end to TRACK. -/
  | adaptThaw (c : Nat) (sd : Side) (pos : Nat)
    /-- DFE_SEL_WRITE (R121). A write to DFE_SEL latches the coefficients, MSE and flags of the selected end. -/
  | dfeSelWrite (c : Nat) (v : Nat)
    /-- BT_LOAD (R132). BT_CMD go starts a board-table load from flash in SERVICE or GUARD. -/
  | btLoad
    /-- BT_LOAD_DONE (R130). A board-table load ends with OK or a failure code; a passing table becomes live and
  source 294 is raised. -/
  | btLoadDone (primary : List Nat) (backup : List Nat)
    /-- FLASH_COMMAND (R133). FC_CTL go sends one host flash command of up to 64 data bytes. -/
  | flashCommand (ctl : Nat)
    /-- FLASH_COMMAND_DONE (R133). A host flash command completes and busy clears. -/
  | flashCommandDone (reads : List Nat)
    /-- CAP_RECEIVE (R141). An accepted CAP set updates the election, caps and width checks of the span. -/
  | capReceive (k : Nat) (sd : Side) (heard : List Heard) (spare : List Heard)
    /-- RATE_RECEIVE (R144). A RATE on a followed span is answered with RATE_ACK accept, not ready or refuse. -/
  | rateReceive (k : Nat) (sd : Side) (heard : List Heard)
    /-- RATE_ACK_RECEIVE (R145). A RATE_ACK with accept takes the span to SWITCH: EIE, and TX ends idle for
  switch_idle. -/
  | rateAckReceive (k : Nat) (sd : Side) (heard : List Heard)
    /-- READY_RECEIVE (R142). A READY set records the neighbour's PASS and THRU for the group. -/
  | readyReceive (k : Nat) (sd : Side) (heard : List Heard)
    /-- ECHO_REQ_RECEIVE (R140). An accepted ECHO_REQ is answered with an ECHO_RSP that carries the same tag within
  200 ns. -/
  | echoReqReceive (k : Nat) (sd : Side) (heard : List Heard) (turn : Nat)
    /-- ECHO_RSP_RECEIVE (R151). An ECHO_RSP gives a round-trip sample; after eight samples RTT is recorded and the
  span is ARMED. -/
  | echoRspReceive (k : Nat) (sd : Side) (heard : List Heard) (sample : Nat)
    /-- RETRAIN_RECEIVE (R154). An accepted RETRAIN set on a span in UP starts a retrain at the same rung. -/
  | retrainReceive (k : Nat) (sd : Side) (heard : List Heard)
    /-- DENSE_REQ_RECEIVE (R93). An accepted dense-skip request switches the TX side to the dense SKP cadence within 2
  µs. -/
  | denseReqReceive (k : Nat) (sd : Side) (heard : List Heard)
    /-- DENSE_REL_RECEIVE (R93). An accepted dense-skip release returns the TX side to the sparse cadence. -/
  | denseRelReceive (k : Nat) (sd : Side) (heard : List Heard)
    /-- CAP_SETTLE_EXPIRY (R141). The in values have been unchanged for cap_settle with adv equal to in; this is a
  collision and the group draws a new N. -/
  | capSettleExpiry (k : Nat) (sd : Side)
    /-- SWITCH_IDLE_END (R145). switch_idle ends; TX ends leave idle at the new rung with presets loaded and RX ends
  queued for acquisition. -/
  | switchIdleEnd (k : Nat) (sd : Side)
    /-- DWELL_END (R146). The quality dwell ends and the figure passes or fails, taking the span to READY or DETECT.
  -/
  | dwellEnd (k : Nat) (sd : Side) (symbols : Nat)
    /-- RUNG_MAX_EXPIRY (R146). rung_max expires from entry to ACQUIRE and the figure fails at that rung. -/
  | rungMaxExpiry (k : Nat) (sd : Side)
    /-- TRAIN_MAX_EXPIRY (R153). train_max expires before UP and the span enters DOWN with TIMEOUT or QUALITY. -/
  | trainMaxExpiry (k : Nat) (sd : Side)
    /-- RETRAIN_MAX_EXPIRY (R153). retrain_max expires during a retrain and the span enters DOWN with TIMEOUT. -/
  | retrainMaxExpiry (k : Nat) (sd : Side)
    /-- RATE_RESEND (R144). A RATE unanswered for 2 µs is sent again; after 16 sends the span goes DOWN with TIMEOUT.
  -/
  | rateResend (k : Nat) (sd : Side)
    /-- ECHO_WAIT_EXPIRY (R151). An ECHO_REQ unanswered for 10 µs is abandoned; after 32 requests with fewer than
  eight answers the span goes DOWN with ECHO. -/
  | echoWaitExpiry (k : Nat) (sd : Side)
    /-- DOWN_HOLD_END (R153). 1 ms after entry to DOWN not by command, the span returns to DETECT. -/
  | downHoldEnd (k : Nat) (sd : Side)
    /-- GO_TIME (R148). The GO fabric time is reached and blind-start spans enter ACQUIRE at their blind rung. -/
  | goTime
    /-- T_UP_BEGIN (R152). T_up begins for an armed link; four UP sets go out on every side, traffic starts and 16c+10
  is raised. -/
  | tUpBegin (k : Nat)
    /-- TRN_RETRAIN (R160). TRN_CMD op RETRAIN retrains one span of a link in UP. -/
  | trnRetrain (k : Nat) (sd : Side)
    /-- TRN_STEP (R160). TRN_CMD op STEP steps the rate group of a span to a new rung. -/
  | trnStep (k : Nat) (sd : Side) (rung : Nat)
    /-- TRN_DOWN (R160). TRN_CMD op DOWN takes the link to DOWN with fault HOST. -/
  | trnDown (k : Nat)
    /-- TRN_RESTART (R160). TRN_CMD op RESTART takes a span in DOWN back to DETECT. -/
  | trnRestart (k : Nat) (sd : Side)
    /-- FLIT_RECEIVE (R167). A flit arrives from SOF, is checked slice by slice, classified and forwarded, held,
  queued or discarded according to its link mode. -/
  | flitReceive (k : Nat) (sd : Side) (slices : List (List Nat)) (cut : Bool) (fail1 : Bool) (fail2 : Bool)
    /-- CONTROL_FLIT_RECEIVE (R250). An accepted control flit is checked and its records set trunk XOFF and far acks,
  or it is rejected. -/
  | controlFlitReceive (k : Nat) (sd : Side) (slices : List (List Nat))
    /-- FLT_SNAP (R182). A read of FLT_SNAP latches the flit-path counters of the link. -/
  | fltSnap (k : Nat)
    /-- FLT_CLR (R182). A write of FLT_CLR.clear zeroes the live flit-path counters. -/
  | fltClr (k : Nat)
    /-- DARN_TIMER_EXPIRY (R194). The darning timer of the oldest copy expires and a replay run starts, or the
  direction gives up. -/
  | darnTimerExpiry (f : Nat)
    /-- DARN_SNAP (R207). A read of DARN_SNAP latches the darning counters of the link. -/
  | darnSnap (k : Nat)
    /-- DARN_CLR (R207). A write of DARN_CLR.clear zeroes the live darning counters. -/
  | darnClr (k : Nat)
    /-- DRN_ACK_RECEIVE (R222). An accepted DRN ACK frees the held copies it covers. -/
  | drnAckReceive (k : Nat) (sd : Side) (heard : List Heard)
    /-- DRN_NAK_RECEIVE (R222). An accepted NAK frees the copies before its value and starts a replay run from it. -/
  | drnNakReceive (k : Nat) (sd : Side) (heard : List Heard)
    /-- DRN_PROBE_RECEIVE (R227). An accepted PROBE is answered with an ECHO carrying the same tag within 200 ns. -/
  | drnProbeReceive (k : Nat) (sd : Side) (heard : List Heard) (turn : Nat)
    /-- DRN_ECHO_RECEIVE (R227). An ECHO gives a probe sample, which may set RTT over. -/
  | drnEchoReceive (k : Nat) (sd : Side) (heard : List Heard) (elapsed : Nat)
    /-- SPAN_TIMER_EXPIRY (R223). The trunk span timer expires; a replay run starts, and at span_retries the span
  retrains. -/
  | spanTimerExpiry (t : Nat)
    /-- DRN_ACK_TIMER (R220). 128 ns pass since the oldest uncovered accepted flit and a DRN ACK becomes pending. -/
  | drnAckTimer (t : Nat)
    /-- PROBE_INTERVAL (R227). The probe interval elapses and a PROBE is sent with the next tag. -/
  | probeInterval (t : Nat)
    /-- PROBE_WAIT_EXPIRY (R227). A PROBE unanswered for 10 µs is abandoned. -/
  | probeWaitExpiry (t : Nat)
    /-- PROXY_ACK_TIMER (R230). 64 ns pass since the oldest uncovered custody and a proxy ACK set becomes pending. -/
  | proxyAckTimer (f : Nat)
    /-- TRUNK_ACK_REFRESH (R233). 1 µs passes with no change and a trunk ACK set carrying the XOFF map becomes
  pending. -/
  | trunkAckRefresh (k : Nat)
    /-- TRK_SNAP (R238). A read of TRK_SNAP latches the trunk counters of the link. -/
  | trkSnap (k : Nat)
    /-- TRK_CLR (R238). A write of TRK_CLR.clear zeroes the live trunk counters. -/
  | trkClr (k : Nat)
    /-- CONTROL_FLIT_DUE (R249). Pending records wait 64 ns or 1 µs and a control flit becomes due on the trunk. -/
  | controlFlitDue (t : Nat)
    /-- LL_TORN_WINDOW_END (R260). The 2 µs torn window of a logical-link entry closes. -/
  | llTornWindowEnd (l : Nat)
    /-- LL_DRAIN_END (R261). A DRAINING entry has passed 1 µs with no flit left and becomes INVALID. -/
  | llDrainEnd (l : Nat)
    /-- LL_CACHE_REFRESH (R260). A cluster or calendar cache refreshes its logical-link entries. -/
  | llCacheRefresh (cache : Nat)
    /-- LL_SNAP (R265). A read of LL_SNAP latches the counters of the selected logical link. -/
  | llSnap (p : Nat)
    /-- LL_CLR (R265). A write of LL_CLR.clear zeroes the live counters of the selected logical link. -/
  | llClr (p : Nat)
    /-- CAL_SNAP (R266). A read of CAL_SNAP latches the counters of its calendar. -/
  | calSnap (cal : Nat)
    /-- CAL_CLR (R266). A write of CAL_CLR.clear zeroes the live counters of its calendar. -/
  | calClr (cal : Nat)
    /-- QST_SEL_WRITE (R267). A write to QST_SEL latches the status of the selected queue and restarts QST_PEAK. -/
  | qstSelWrite (die : Nat) (queue : Nat)
    /-- REMIRROR (R278). A BAD mirror slot is copied from its partner to a third bank within 1 µs, or the flit stays
  single-copy. -/
  | remirror (e : SlotAt) (read : EccRead)
    /-- CE_WINDOW_END (R280). A correctable-error window closes and region counts start afresh. -/
  | ceWindowEnd (die : Nat)
    /-- BANK_SAVE_DONE (R281). A save to the standby completes; the standby takes the bank's addresses and the test
  starts. -/
  | bankSaveDone (x : BankReads)
    /-- BANK_TEST_END (R281). A bank test ends; the bank is restored, stays standby or is retired. -/
  | bankTestEnd (die : Nat) (result : BankTest)
    /-- BANK_RESTORE_DONE (R281). A restore completes; the bank takes back its addresses and source 290 is raised. -/
  | bankRestoreDone (x : BankReads)
    /-- EVACUATION_DONE (R281). An evacuating bank holds no LIVE slot and becomes STANDBY. -/
  | evacuationDone (x : BankReads)
    /-- BUF_RETIRE (R285). BUF_CMD op RETIRE saves and retires the named bank. -/
  | bufRetire (die : Nat) (bank : Nat)
    /-- BUF_RETURN (R285). BUF_CMD op RETURN tests a retired bank in place and returns it as standby on a pass. -/
  | bufReturn (die : Nat) (bank : Nat)
    /-- BUF_TEST_NOW (R285). BUF_CMD op TEST_NOW starts a slice on the named bank at once. -/
  | bufTestNow (die : Nat) (bank : Nat)
    /-- BUF_SNAP (R288). A read of BUF_SNAP latches the buffer counters of the die. -/
  | bufSnap (die : Nat)
    /-- BUF_CLR (R288). A write of BUF_CLR.clear zeroes the live buffer counters and peak. -/
  | bufClr (die : Nat)
    /-- DESC_SEL_WRITE (R288). A write to DESC_SEL latches DESC_W0–DESC_W4 of the named slot. -/
  | descSelWrite (die : Nat) (addr : Nat)
    /-- PRK_COMMIT (R291). PRK_CMD op COMMIT submits the package-scope staged configuration to the admission check. -/
  | prkCommit
    /-- PRK_CHECK (R291). PRK_CMD op CHECK evaluates the package-scope configuration without applying it. -/
  | prkCheck
    /-- PRK_REVERT (R291). PRK_CMD op REVERT copies every live bank into its staged bank. -/
  | prkRevert
    /-- LNK_COMMIT (R291). LNK[k].COMMIT go submits link k with link scope, or evaluates only with check_only. -/
  | lnkCommit (k : Nat) (checkOnly : Bool)
    /-- CHECK_END (R301). The admission check ends with a result code, and T_apply is scheduled if it was accepted. -/
  | checkEnd
    /-- T_APPLY (R301). At T_apply the live banks of both dies switch in one cycle and the changes take effect. -/
  | tApply
    /-- RECHECK_START (R304). A re-check starts for a trigger, or for a held trigger once the current check ends. -/
  | recheckStart (trigger : Nat)
    /-- BOBBIN_ACQ_LIMIT (R320). A swap acquisition has run for 3 µs and counts as ended for the switch. -/
  | bobbinAcqLimit (c : Nat) (sd : Side)
    /-- BOBBIN_SWITCH (R320). The R320 conditions hold and a side switches its link position to or from the bobbin at
  the next boundary. -/
  | bobbinSwitch (c : Nat) (sd : Side)
    /-- SWAP_ABANDON (R316). 20 µs pass without every side switched and the swap or return is abandoned. -/
  | swapAbandon (c : Nat)
    /-- OLD_TX_IDLE (R321). 10 µs after the duplicate began, the old TX end is held in electrical idle without EIE. -/
  | oldTxIdle (c : Nat)
    /-- SWP_SWAP (R326). SWP_CMD op SWAP starts a host swap of the named lane. -/
  | swpSwap (c : Nat) (pos : Nat)
    /-- SWP_RETURN (R326). SWP_CMD op RETURN moves the lane back from the bobbin. -/
  | swpReturn (c : Nat)
    /-- SWP_ENABLE (R326). SWP_CMD op ENABLE runs a bobbin test slice and makes an OUT bobbin READY on a pass. -/
  | swpEnable (c : Nat)
    /-- SWP_DISABLE (R326). SWP_CMD op DISABLE takes a READY bobbin OUT. -/
  | swpDisable (c : Nat)
    /-- SIDE_MAP_WRITE (R314). A write to SIDE_MAP invalidates a side and starts a drain, makes it valid, or makes a
  direct change that opens a torn window. -/
  | sideMapWrite (e : Nat) (v : Nat)
    /-- LANE_POS_WRITE (R314). A write to LANE_POS that changes the lanes of a valid side is a direct change that
  opens a torn window. -/
  | lanePosWrite (n : Nat) (v : Nat)
    /-- MAP_DRAIN_END (R313). The 1 µs drain epoch of an invalidated side ends. -/
  | mapDrainEnd (e : Nat)
    /-- MAP_TORN_END (R314). A map torn window closes; the span retrains on its new lanes, re-enters DETECT or goes
  DOWN. -/
  | mapTornEnd (e : Nat)
    /-- MAP_CACHE_REFRESH (R314). A cluster refreshes its cached map once within a torn window, at a boundary. -/
  | mapCacheRefresh (c : Nat) (e : Nat)
    /-- NATIVE_JUDGE_PASS (R330). REFCLK amplitude stays above 250 mV for 10 µs and REFCLK is judged good. -/
  | nativeJudgePass
    /-- COMPAT_JUDGE_END (R331). A counting run of 4,096 REFCLK edges ends and passes or fails. -/
  | compatJudgeEnd (cycles : Nat) (missed : Bool)
    /-- IFO_READY (R333). The IFO amplitude detector judges the IFO ready. -/
  | ifoReady
    /-- IFO_READY_TIMEOUT (R333). The IFO is not ready 200 µs after reset release and START fails. -/
  | ifoReadyTimeout
    /-- IFO_MEASURE_END (R334). The IFO has been measured against REFCLK over 2^16 cycles and IFO_CORR is stored. -/
  | ifoMeasureEnd (ppm : Int)
    /-- MONITOR_WINDOW_END (R335). A monitor window of 1,024 IFO cycles closes and its REFCLK count is judged. -/
  | monitorWindowEnd (count : Nat)
    /-- PLL_HOLDOVER (R336). No REFCLK edge arrives for 25.6 ns and a REFCLK-referenced PLL enters holdover. -/
  | pllHoldover (unit : Nat)
    /-- REFCLK_RETURN (R336). REFCLK edges return before a trip and PLLs in holdover track REFCLK again. -/
  | refclkReturn (unit : Nat)
    /-- PLL_IFO_LOCK (R336). A stopped PLL locks to the now-ready IFO and its clock resumes. -/
  | pllIfoLock (unit : Nat)
    /-- RETURN_HOLD_EXPIRY (R337). REFCLK has been judged good for return_hold and the PLLs on the IFO move back to
  REFCLK. -/
  | returnHoldExpiry
    /-- CLK_CFG_WRITE (R337). A CLK_CFG write sets auto_return or changes the judge for the next judgement. -/
  | clkCfgWrite (v : Nat)
    /-- IFO_LOSS (R338). The IFO loses readiness; 257 is raised and the always-on domain moves to REFCLK. -/
  | ifoLoss
    /-- CLOCK_UNUSABLE_FENCE (R338). Neither REFCLK nor the IFO is usable for 10 ms and the package is fenced. -/
  | clockUnusableFence
    /-- CORE_PLL_UNLOCK (R339). A core PLL unlocks; the die clock stops, the die is fenced and 258+d is raised. -/
  | corePllUnlock (die : Nat)
    /-- CORE_PLL_RELOCK (R339). A core PLL reports locked again. -/
  | corePllRelock (die : Nat)
    /-- PL_REQUEST (R343). PL_CMD go requests a P-level for a die, which is accepted or refused. -/
  | plRequest (die : Nat) (level : Nat)
    /-- PL_VOLTAGE_SETTLED (R342). The LDO output is settled at target and the sequencer moves on. -/
  | plVoltageSettled (die : Nat) (vout : Nat)
    /-- PL_DIVIDER_SWITCHED (R342). The core divider switches and the new level is in force. -/
  | plDividerSwitched (die : Nat)
    /-- MGMT_PLL_UNLOCK (R344). The management PLL unlocks and the domain runs from the always-on clock. -/
  | mgmtPllUnlock
    /-- SEAM_PLL_UNLOCK (R344). The seam PLL unlocks; the seam goes down and 293 is raised. -/
  | seamPllUnlock
    /-- CLK_EN_WRITE (R347). A CLK_EN write gates or ungates a page's clock, or is refused. -/
  | clkEnWrite (page : Nat) (v : Nat)
    /-- FM_START (R349). FM_CMD go starts a frequency-counter run. -/
  | fmStart
    /-- FM_RUN_END (R349). A counter run ends DONE, TIMEOUT or ABORTED. -/
  | fmRunEnd (how : Nat) (count : Nat)
    /-- WATCH_ENTER (R351). WATCH_CMD op ENTER starts WATCH entry, or is refused. -/
  | watchEnter (force : Bool)
    /-- WATCH_ENTRY_DONE (R351). WATCH entry completes and the device state becomes WATCH. -/
  | watchEntryDone
    /-- WATCH_WAKE (R353). WATCH_CMD op WAKE wakes the package from WATCH. -/
  | watchWake
    /-- WAKE_N_LOW (R353). WAKE_N is low for 1 µs in WATCH and the package wakes. -/
  | wakeNLow
    /-- WAKE_SIGDET (R353). Signal detect on an RX end of a used side wakes the package. -/
  | wakeSigdet (n : Nat) (sd : Side)
    /-- WAKE_SOURCE (R353). A non-maskable or watched source becomes pending in WATCH and wakes the package. -/
  | wakeSource (src : Nat)
    /-- WAKE_COMPLETE (R354). The wake completes and the device enters SERVICE or GUARD, with spans training under
  R149. -/
  | wakeComplete
    /-- WAKE_IFO_TIMEOUT (R354). The IFO is not ready 200 µs after the wake cause; 257 is raised and the wake goes on
  REFCLK. -/
  | wakeIfoTimeout
    /-- TEMP_SAMPLE (R362). All cluster temperature sensors are sampled every 1 ms, making ends due for calibration.
  -/
  | tempSample (temps : List Int)
    /-- CAL_RUN_START (R363). The sequencer starts the run of the end at the head of the queue. -/
  | calRunStart (c : Nat)
    /-- CAL_RUN_END (R366). A calibration run ends DONE, PARTIAL, ABORTED or REXT. -/
  | calRunEnd (c : Nat) (meas : CalMeasure)
    /-- CAL_STEP_APPLY (R365). The accepted items of a run are applied as one step at the next ordered-set boundary.
  -/
  | calStepApply (c : Nat)
    /-- REXT_FAULT (R359). The REXT current leaves 240–360 µA; runs end REXT and 16c+8 is raised. -/
  | rextFault
    /-- REXT_FAULT_CLEAR (R359). The REXT current has been back in range for 1 ms and the fault clears. -/
  | rextFaultClear
    /-- CAL_END (R373). CAL_CMD op CAL_END queues one end for calibration. -/
  | calEnd (c : Nat) (e : Nat)
    /-- CAL_ALL (R373). CAL_CMD op CAL_ALL queues every end in index order. -/
  | calAll (c : Nat)
    /-- CAL_EYE (R370). CAL_CMD op EYE starts an eye measurement on an RX end. -/
  | calEye (c : Nat) (e : Nat)
    /-- EYE_END (R370). An eye measurement ends; width and height are published, or it is ABORTED. -/
  | eyeEnd (c : Nat) (eyes : List EyeScan) (aborted : Bool)
    /-- CAL_SEL_WRITE (R373). A write to CAL_SEL latches T_cal and the corrections of the selected end. -/
  | calSelWrite (c : Nat) (e : Nat)
    /-- SLICE_INTERVAL (R381). The BIST interval elapses and each unfenced die starts a bank slice and a bobbin slice.
  -/
  | sliceInterval
    /-- BOBBIN_SLICE_END (R383). A bobbin slice ends; 16c+15 is raised and a FAIL takes the bobbin OUT. -/
  | bobbinSliceEnd (c : Nat) (bits : Nat) (errors : Nat) (noLock : Bool) (replica : Bool)
    /-- BIST_STALL (R376). A run makes no progress for 100 µs and ends INCOMPLETE with cause STALL. -/
  | bistStall (die : Nat)
    /-- BST_BOBBIN_NOW (R381). BST_CMD op BOBBIN_NOW starts a bobbin slice on a cluster at once. -/
  | bstBobbinNow (c : Nat)
    /-- BST_ABORT (R384). BST_CMD op ABORT ends every running slice with cause HOST. -/
  | bstAbort
    /-- BST_FULL (R391). BST_CMD op FULL runs POST's memory and logic BIST in TEST. -/
  | bstFull
    /-- BST_TEST_ENTER (R390). BST_CMD op TEST_ENTER with confirm 0x5A starts TEST entry. -/
  | bstTestEnter (confirm : Nat)
    /-- BST_CFG_WRITE (R381). A write of BST_CFG.interval restarts the interval count. -/
  | bstCfgWrite (v : Nat)
    /-- LB_CFG_WRITE (R386). A write of LB_CFG sets a loop on the selected lane, or is refused with a reason. -/
  | lbCfgWrite (lane : Nat) (v : Nat)
    /-- PRBS_GEN_WRITE (R387). A write of PRBS_GEN starts or stops a pattern generator on a TX end. -/
  | prbsGenWrite (lane : Nat) (v : Nat)
    /-- PRBS_CHK_WRITE (R388). A write of PRBS_CHK starts or stops a pattern checker on an RX end. -/
  | prbsChkWrite (lane : Nat) (v : Nat)
    /-- PRBS_LOCK (R388). 64 consecutive bits match the prediction and the checker locks. -/
  | prbsLock (lane : Nat) (got : List Bool)
    /-- PRBS_LOCK_LOSS (R388). A 1,024-bit window with more than 64 errors ends lock; PRBS_LOSS counts it. -/
  | prbsLockLoss (lane : Nat) (bits : Nat) (e : BitErrs)
    /-- PRBS_ERR_THRESHOLD (R389). Errors in a window exceed err_thr and source 16c+6 is raised once for the window.
  -/
  | prbsErrThreshold (lane : Nat) (bits : Nat) (e : BitErrs)
    /-- PRBS_SNAP (R395). A read of PRBS_SNAP latches the PRBS counters of the lane. -/
  | prbsSnap (lane : Nat)
    /-- PRBS_CLR (R395). A write of PRBS_CLR.clear zeroes the live PRBS counters. -/
  | prbsClr (lane : Nat)
    /-- TEST_EN_HIGH (R390). TEST_EN held high for 1 µs starts TEST entry. -/
  | testEnHigh
    /-- TEST_ENTRY_DONE (R390). The scrub of TEST entry completes and the state becomes TEST. -/
  | testEntryDone (us : Nat)
    /-- EXTEST (R392). The JTAG EXTEST instruction drives the boundary cells and enters TEST. -/
  | extest
    /-- SAMPLE_PRELOAD (R392). The JTAG SAMPLE/PRELOAD instruction samples or preloads the boundary cells. -/
  | samplePreload
    /-- IDCODE (R392). The JTAG IDCODE instruction selects the identification register. -/
  | idcode
    /-- CLAMP (R392). The JTAG CLAMP instruction holds the pins and enters TEST. -/
  | clamp
    /-- HIGHZ (R392). The JTAG HIGHZ instruction floats the pins and enters TEST. -/
  | highz
    /-- EXTEST_PULSE (R392). The 1149.6 EXTEST_PULSE instruction drives AC pulses and enters TEST. -/
  | extestPulse
    /-- EXTEST_TRAIN (R392). The 1149.6 EXTEST_TRAIN instruction drives AC trains and enters TEST. -/
  | extestTrain
    /-- SCAN_ENTRY (R392). The SCAN_ENTRY instruction enters TEST and enables the scan chains after clearing. -/
  | scanEntry
    /-- BYPASS (R392). The BYPASS instruction, or any unlisted opcode, selects the bypass register. -/
  | bypass
    /-- JTAG_TRST (R392). TRST_N resets the TAP asynchronously without leaving TEST. -/
  | jtagTrst
    /-- SUPPLY_WARN_SET (R400). A rail stays below its warn threshold for 1 µs and its warning source is asserted. -/
  | supplyWarnSet (x : RailAt)
    /-- SUPPLY_WARN_CLEAR (R400). A rail stays above warn + 10 mV for 1 µs and its warning clears. -/
  | supplyWarnClear (x : RailAt)
    /-- SUPPLY_SAMPLE (R418). Every 10 µs each rail is sampled into SUP_V. -/
  | supplySample (vals : List Nat)
    /-- BROWN_OUT_RESET (R401). A rail stays below its reset threshold for more than 100 ns and the whole package
  resets. -/
  | brownOutReset (x : RailAt)
    /-- POWER_ON_RESET (R465). The power-on reset holds the package in OFF until every rail has been good for 1 ms. -/
  | powerOnReset
    /-- PIN_RESET (R466). RESET_N low for more than 500 ns resets the package. -/
  | pinReset
    /-- RESET_RELEASE (R472). Reset is released; the straps are latched, fabric time starts and START begins. -/
  | resetRelease (straps : Nat)
    /-- START_STEP_END (R472). A START step completes and the next step begins. -/
  | startStepEnd (res : StartEnd)
    /-- RING_WAIT_END (R472). A non-head package has waited 10 ms in the RING step without DONE and goes on. -/
  | ringWaitEnd
    /-- START_COMPLETE (R476). START ends and the device enters SERVICE or GUARD, sending READY unless held. -/
  | startComplete
    /-- BOOT_RELEASE (R470). BOOT_CMD op RELEASE clears held, and READY is sent within 1 µs. -/
  | bootRelease
    /-- FENCE_CMD_FENCE (R410). FENCE_CMD op FENCE fences a region, a die or the package. -/
  | fenceCmdFence (unit : Nat)
    /-- FENCE_CMD_LIFT (R410). FENCE_CMD op LIFT lifts a fence and its PARENT fences, and triggers a re-check. -/
  | fenceCmdLift (unit : Nat)
    /-- SOFT_RESET (R478). A write of SOFT_RESET.go clears the page's counters, records and pending events. -/
  | softReset (page : Nat)
    /-- SOURCE_INPUT (R421). An interrupt source input changes or pulses and pending and count update by its sense. -/
  | sourceInput (src : Nat) (ev : InputEvent)
    /-- INT_CLAIM (R425). A read of CLAIM claims the first deliverable source of the bank, or returns NONE. -/
  | intClaim (fast : Bool) (t : Nat)
    /-- INT_COMPLETE (R426). A write to COMPLETE ends the service of the named source, or counts a stray completion.
  -/
  | intComplete (fast : Bool) (t : Nat) (src : Nat) (ring : Nat)
    /-- DOORBELL_WRITE (R434). A write of 1 to DOORBELL bit i raises source 296+i. -/
  | doorbellWrite (v : Nat)
    /-- SRC_CFG_WRITE (R435). A write to SRC_CFG changes enable, class, target or sense, or clears pending with W1C.
  -/
  | srcCfgWrite (src : Nat) (v : Nat)
    /-- RING_DELIVER_SEND (R429). A deliverable source with target ring head is sent as DELIVER, or entered at the
  head, with the effect of a claim. -/
  | ringDeliverSend (src : Nat)
    /-- DELIVER_RESEND (R453). Every 100 µs a DELIVER is sent again while its source stays active. -/
  | deliverResend (src : Nat)
    /-- SPI_WRITE (R441). An SPI WRITE frame writes one word if its CRC matches. -/
  | spiWrite (quad : Bool) (addr : Nat) (data : Nat) (crc : Nat)
    /-- SPI_READ (R441). An SPI READ frame reads one word, or returns PENDING. -/
  | spiRead (quad : Bool) (addr : Nat) (crc : Nat) (late : Bool)
    /-- SPI_WRITE_BLOCK (R440). An SPI WRITE_BLOCK frame writes up to 32 words within one page. -/
  | spiWriteBlock (quad : Bool) (addr : Nat) (data : List Nat) (crc : Nat)
    /-- SPI_READ_BLOCK (R440). An SPI READ_BLOCK frame reads up to 32 words within one page. -/
  | spiReadBlock (quad : Bool) (addr : Nat) (crc : Nat) (late : Bool)
    /-- SPI_FETCH (R442). An SPI FETCH frame returns the held result of the last PENDING access. -/
  | spiFetch (quad : Bool) (addr : Nat) (crc : Nat)
    /-- SPI_STATUS (R440). An SPI STATUS frame returns the status of the port's last counted frame. -/
  | spiStatus (quad : Bool) (addr : Nat) (crc : Nat)
    /-- SPI_BAD_OPCODE (R441). An unknown SPI opcode makes the device ignore the frame; bad_op counts it. -/
  | spiBadOpcode (op : Nat)
    /-- SMB_POINTER (R444). The SMBus POINTER command sets the register pointer. -/
  | smbPointer (ptr : Nat) (pec : Option Nat)
    /-- SMB_WRITE (R444). The SMBus WRITE command writes a word at the pointer. -/
  | smbWrite (data : Nat) (pec : Option Nat)
    /-- SMB_READ (R444). The SMBus READ command reads a word at the pointer. -/
  | smbRead (late : Bool)
    /-- SMB_FETCH (R444). The SMBus FETCH command returns the held result of the last PENDING access. -/
  | smbFetch
    /-- SMB_STATUS (R444). The SMBus STATUS command returns the status of the port's last access. -/
  | smbStatus
    /-- SMB_BUS_TIMEOUT (R443). The bus held low for 25 ms resets the SMBus protocol state. -/
  | smbBusTimeout
    /-- RING_TRAIN_RECEIVE (R447). A TRAIN message updates the hop state and its one-way delay. -/
  | ringTrainReceive (d : Nat) (msg : RingMsg)
    /-- RING_TRAIN_SEND (R447). Every 1 µs each ring output sends a TRAIN. -/
  | ringTrainSend
    /-- HOP_BROKEN (R447). An up hop receives no intact message for 10 µs, is broken, and sends BREAK. -/
  | hopBroken (d : Nat)
    /-- RING_ENUM (R449). An ENUM message sets the package's ring position, is forwarded and answered with PRESENT. -/
  | ringEnum (d : Nat) (msg : RingMsg)
    /-- RING_PRESENT (R449). A PRESENT message records a ring id's position at the head, marking duplicates. -/
  | ringPresent (d : Nat) (msg : RingMsg)
    /-- ENUM_TIMEOUT (R449). An enumeration ends 100 µs after its ENUM was sent, and DONE follows. -/
  | enumTimeout
    /-- RING_DONE (R449). A DONE message raises 295 and requeues ring-delivered sources. -/
  | ringDone (d : Nat) (msg : RingMsg)
    /-- RING_BREAK (R449). A BREAK message at the head starts an enumeration. -/
  | ringBreak (d : Nat) (msg : RingMsg)
    /-- RING_TIME (R450). A TIME message sets the package's fabric time and is forwarded. -/
  | ringTime (d : Nat) (msg : RingMsg)
    /-- RING_TIME_SEND (R450). Every 1 µs the head sends TIME on both rings. -/
  | ringTimeSend
    /-- TIME_LOSS (R450). 10 µs pass without TIME; time_ok clears and fabric time runs freely. -/
  | timeLoss
    /-- RING_GO (R451). A GO message records T_go and starts waiting spans at it. -/
  | ringGo (d : Nat) (msg : RingMsg)
    /-- GO_AUTO (R451). Under blind start, with no duplicate and READY from every package, the head sends GO. -/
  | goAuto
    /-- RING_READY (R451). A READY message records that package's readiness at the head. -/
  | ringReady (d : Nat) (msg : RingMsg)
    /-- RING_REQ (R452). A REQ message is executed as a local ring-port access and answered with RSP. -/
  | ringReq (d : Nat) (msg : RingMsg)
    /-- RING_RSP (R452). An RSP message is matched by tag and completes a remote access word. -/
  | ringRsp (d : Nat) (msg : RingMsg)
    /-- REMOTE_TIMEOUT (R452). A remote access gets no RSP within 20 µs and ends TIMEOUT. -/
  | remoteTimeout (tag : Nat)
    /-- RING_DELIVER (R453). A DELIVER message creates a ring-bank entry at the head. -/
  | ringDeliver (d : Nat) (msg : RingMsg)
    /-- RING_COMPLETE (R430). A COMPLETE message makes the named source no longer active at its package. -/
  | ringComplete (d : Nat) (msg : RingMsg)
    /-- PCT_ENUMERATE (R449). PCT_CMD op ENUMERATE makes the head enumerate the rings. -/
  | pctEnumerate
    /-- PCT_GO (R451). PCT_CMD op GO makes the head send GO whatever the conditions. -/
  | pctGo
    /-- SEL_READ_REQ (R456). A selvedge READ_REQ frame is authenticated and queued for service. -/
  | selReadReq (k : Nat) (sd : Side) (heard : List Heard)
    /-- SEL_WRITE_REQ (R456). A selvedge WRITE_REQ frame is authenticated and queued for service. -/
  | selWriteReq (k : Nat) (sd : Side) (heard : List Heard)
    /-- SEL_ATTEST_REQ (R460). A selvedge ATTEST_REQ frame is authenticated and queued for a report chunk. -/
  | selAttestReq (k : Nat) (sd : Side) (heard : List Heard)
    /-- SEL_REQUEST_SERVE (R456). The oldest queued selvedge request is served and its response is sent. -/
  | selRequestServe
    /-- KEY_LOAD (R464). KEY_CMD op LOAD loads a session key into a slot and zeroes its counters. -/
  | keyLoad (slot : Nat)
    /-- KEY_CLEAR (R464). KEY_CMD op CLEAR clears a session key slot. -/
  | keyClear (slot : Nat)
    /-- KEY_ENROLL (R461). KEY_CMD op ENROLL writes a customer public key into a fuse slot once. -/
  | keyEnroll (slot : Nat)
    /-- KEY_REVOKE (R461). KEY_CMD op REVOKE sets a slot's revoked bit once. -/
  | keyRevoke (slot : Nat)
    /-- ATT_GENERATE (R460). ATT_CMD go starts generation of an attestation report. -/
  | attGenerate
    /-- ATT_GENERATE_DONE (R458). Report generation completes and the signed report is held. -/
  | attGenerateDone
    /-- PRICKING_DIGEST_DONE (R459). The pricking digest is computed afresh within 1 ms of T_apply. -/
  | prickingDigestDone
    /-- LO_READ_LATCH (R494). A read of the LO word of a 64-bit count latches its HI word from the same cycle. -/
  | loReadLatch (addr : Nat)
    /-- REGISTER_WRITE (R491). A write to a register with no row of its own updates each field by its access code. -/
  | registerWrite (addr : Nat) (v : Nat)
    /-- COMMA_DETECT (R55). With signal detect present, an RX end in UNLOCKED or ALIGNING finds a comma at an offset.
  It enters ALIGNING, counts the comma, or drops back to UNLOCKED if the comma lies at another offset. -/
  | commaDetect (e : LaneEnd) (offset : Nat) (mirror : Bool) (plus : Bool)
    /-- ALIGNING_BAD_SYMBOL (R55). A bad symbol arrives on an RX end in ALIGNING. The end returns to UNLOCKED, zeroes
  its comma count and drops the polarity it set in this attempt. -/
  | aligningBadSymbol (n : Nat) (sd : Side)
    /-- LOL_WINDOW_END (R55). A bad-symbol window of 2^lol_win symbols on a LOCKED RX end closes, and the count starts
  afresh for the next window. -/
  | lolWindowEnd (n : Nat) (sd : Side)
    /-- SWITCHOVER_LOCK_EXPIRY (R101). 8 µs after a clock-lane loss, the PLL has not locked to REFCLK, and the
  direction borrows under R98. -/
  | switchoverLockExpiry (c : Nat) (d : Dir)
    /-- MGMT_PLL_RELOCK (R344). The management PLL relocks, the management domain returns to it from the always-on
  clock, and mgmt_lock reads 1. -/
  | mgmtPllRelock
    /-- SEAM_PLL_RELOCK (R344). The seam PLL relocks, SEAM_STAT.up sets again on both dies, and transfers stop being
  handled as failed. -/
  | seamPllRelock
    /-- CAL_CODE_STEP (R365). On an end of a TRANSPARENT link, each calibration item moves one code toward its
  accepted value every 1 µs. -/
  | calCodeStep (c : Nat)
    /-- POST_PAUSE_LIMIT (R378). Supply-warning pauses of one POST add up to more than 10 ms, POST fails, and the
  device stays in START with FAULT_N asserted. -/
  | postPauseLimit
    /-- PRBS_ERR_WINDOW_END (R389). An error window of 2^(20 + win) checked bits closes, and the count for err_thr
  restarts, so that source 16c+6 may be raised again in the next window. -/
  | prbsErrWindowEnd (lane : Nat) (bits : Nat) (e : BitErrs)
    /-- SOFT_RESET_DONE (R478). A soft reset of a page completes within 1 µs, busy clears, and the accesses to the
  page that were held are completed. -/
  | softResetDone (page : Nat)
  deriving DecidableEq, Repr

end Sys2Proof
end

