-- ==== Sys2Proof/Decode.lean ====
section
/-!
DEFINITION. Commands have no encoding: spec/opcode_table.json gives no row any bits (log 11). Frames, sets and messages that
do have a layout are read where they arrive.
-/

namespace Sys2Proof

/-- The command that a word spells by the table's bits: none, since no row has bits. -/
def decodeTableWord (_nbits _w : Nat) : Option Instr := none

end Sys2Proof
end

