-- ==== Sys2Proof/Machine/RegMap.lean ====
section
/-!
DEFINITION. The register map (chapter Register map, R482-R496): where every field of every directly addressed register
stands, its width, its access code and its reset value, as the register tables of spec/ give them. A field is named by
its byte address and its lowest bit; `R.<REGISTER>_<field>` is the handle the meanings use. Registers seen through a
window (PRESET_*, LB_CFG and PRBS_*, LLT_W0-W7, CAL_ENT and the banked calendar registers) stand at virtual pages from
0x1000 up, one page per item behind the window.
-/

namespace Sys2Proof.Machine

/-- The blocks of the page index (R484), and the virtual pages behind the windows. -/
inductive Blk where
  | glb | clk | pwr | tmp | int | intf | ints | bst | sec | hst | pct | sel | prk | map | fmc | clu | eqa | rgn | die | lnk | llt | cal | qst
  | vLb | vPre | vLlStaged | vLlLive | vCalStaged | vCalLive
  deriving DecidableEq, Repr

/-- A field of a register: byte address of the register, lowest bit, width. -/
structure Fld where
  addr : Nat
  lo : Nat
  width : Nat
  deriving DecidableEq, Repr

/-- The key a field has in the register store. -/
def Fld.key (f : Fld) : Nat := f.addr * 32 + f.lo

/-- The access codes of R490. -/
inductive Acc where
  | rw | ro | w1c | wo | sc | rs
  deriving DecidableEq, Repr

/-- One row of a register table: offset in the page, how many registers stand in the row and their stride, lowest bit,
width, access code. -/
structure FieldRow where
  off : Nat
  count : Nat
  stride : Nat
  lo : Nat
  width : Nat
  acc : Acc
  deriving DecidableEq, Repr

/-- One nonzero reset value of a register table. -/
structure ResetRow where
  off : Nat
  count : Nat
  stride : Nat
  lo : Nat
  value : Nat
  deriving DecidableEq, Repr

/-- The block a page belongs to, with its instance number (R484); pages from 0x1000 are the virtual ones. -/
def Blk.ofPage (p : Nat) : Option (Blk × Nat) :=
  if p = 0x0 then some (.glb, 0) else
  if p = 0x1 then some (.clk, 0) else
  if p = 0x2 then some (.pwr, 0) else
  if p = 0x3 then some (.tmp, 0) else
  if p = 0x4 then some (.int, 0) else
  if p = 0x5 then some (.intf, 0) else
  if p = 0x6 then some (.ints, 0) else
  if p = 0x7 then some (.bst, 0) else
  if p = 0x8 then some (.sec, 0) else
  if p = 0x9 then some (.hst, 0) else
  if p = 0xA then some (.pct, 0) else
  if p = 0xB then some (.sel, 0) else
  if p = 0xC then some (.prk, 0) else
  if p = 0xD then some (.map, 0) else
  if p = 0xE then some (.fmc, 0) else
  if 0x10 ≤ p ∧ p < 0x20 then some (.clu, p - 0x10) else
  if 0x20 ≤ p ∧ p < 0x30 then some (.eqa, p - 0x20) else
  if 0x30 ≤ p ∧ p < 0x34 then some (.rgn, p - 0x30) else
  if 0x38 ≤ p ∧ p < 0x3A then some (.die, p - 0x38) else
  if 0x40 ≤ p ∧ p < 0xC0 then some (.lnk, p - 0x40) else
  if 0xC0 ≤ p ∧ p < 0xC8 then some (.llt, p - 0xC0) else
  if 0xC8 ≤ p ∧ p < 0xD0 then some (.cal, p - 0xC8) else
  if 0xD0 ≤ p ∧ p < 0xD2 then some (.qst, p - 0xD0) else
  if 0x1000 ≤ p ∧ p < 0x2000 then some (.vLb, p - 0x1000) else
  if 0x2000 ≤ p ∧ p < 0x3000 then some (.vPre, p - 0x2000) else
  if 0x3000 ≤ p ∧ p < 0x4000 then some (.vLlStaged, p - 0x3000) else
  if 0x4000 ≤ p ∧ p < 0x5000 then some (.vLlLive, p - 0x4000) else
  if 0x5000 ≤ p ∧ p < 0x5800 then some (.vCalStaged, p - 0x5000) else
  if 0x5800 ≤ p ∧ p < 0x6000 then some (.vCalLive, p - 0x5800) else none

def resetsGLB : List ResetRow :=
  [⟨0x44, 1, 0, 0, 1⟩, ⟨0x48, 1, 0, 0, 1⟩]

def resetsCLK : List ResetRow :=
  [⟨0x40, 1, 0, 24, 100⟩, ⟨0x40, 1, 0, 8, 1⟩, ⟨0x44, 1, 0, 22, 1⟩, ⟨0x44, 1, 0, 20, 1⟩]

def resetsPWR : List ResetRow :=
  [⟨0x44, 1, 0, 0, 160⟩, ⟨0x44, 1, 0, 16, 160⟩, ⟨0x54, 1, 0, 2, 1⟩, ⟨0x54, 1, 0, 1, 1⟩,
   ⟨0x104, 4, 4, 16, 4095⟩]

def resetsINT : List ResetRow :=
  [⟨0x40, 3, 16, 0, 1023⟩, ⟨0x48, 3, 16, 0, 1023⟩]

def resetsINTF : List ResetRow :=
  [⟨0x40, 3, 16, 0, 1023⟩, ⟨0x48, 3, 16, 0, 1023⟩]

def resetsBST : List ResetRow :=
  [⟨0x40, 1, 0, 17, 1⟩, ⟨0x40, 1, 0, 16, 1⟩, ⟨0x40, 1, 0, 0, 10⟩, ⟨0x104, 1, 0, 16, 1⟩,
   ⟨0x110, 1, 0, 16, 16⟩, ⟨0x110, 1, 0, 8, 10⟩]

def resetsHST : List ResetRow :=
  [⟨0x40, 1, 0, 8, 24⟩, ⟨0x40, 1, 0, 1, 1⟩]

def resetsPCT : List ResetRow :=
  [⟨0x40, 1, 0, 0, 100⟩, ⟨0x4C, 1, 0, 0, 15⟩, ⟨0x4C, 1, 0, 4, 15⟩, ⟨0x4C, 1, 0, 8, 15⟩,
   ⟨0x4C, 1, 0, 12, 15⟩, ⟨0x4C, 1, 0, 16, 15⟩, ⟨0x4C, 1, 0, 20, 15⟩, ⟨0x4C, 1, 0, 24, 15⟩,
   ⟨0x4C, 1, 0, 28, 15⟩, ⟨0x50, 1, 0, 0, 15⟩, ⟨0x50, 1, 0, 4, 15⟩, ⟨0x50, 1, 0, 8, 15⟩,
   ⟨0x50, 1, 0, 12, 15⟩, ⟨0x50, 1, 0, 16, 15⟩, ⟨0x50, 1, 0, 20, 15⟩, ⟨0x50, 1, 0, 24, 15⟩,
   ⟨0x50, 1, 0, 28, 15⟩]

def resetsSEL : List ResetRow :=
  [⟨0x40, 1, 0, 0, 1⟩]

def resetsPRK : List ResetRow :=
  [⟨0x5C, 1, 0, 16, 3⟩, ⟨0x5C, 1, 0, 0, 3⟩]

def resetsMAP : List ResetRow :=
  [⟨0x80, 16, 16, 2, 1⟩, ⟨0x80, 16, 16, 1, 1⟩, ⟨0x80, 16, 16, 0, 1⟩]

def resetsCLU : List ResetRow :=
  [⟨0x40, 1, 0, 4, 7⟩, ⟨0x40, 1, 0, 0, 7⟩, ⟨0x44, 1, 0, 0, 10⟩, ⟨0x48, 1, 0, 16, 4⟩,
   ⟨0x48, 1, 0, 8, 8⟩, ⟨0x48, 1, 0, 0, 16⟩, ⟨0x4C, 1, 0, 5, 1⟩, ⟨0x4C, 1, 0, 4, 1⟩,
   ⟨0x80, 9, 64, 4, 1⟩, ⟨0x80, 9, 64, 0, 1⟩, ⟨0x300, 1, 0, 18, 1⟩, ⟨0x300, 1, 0, 17, 1⟩,
   ⟨0x300, 1, 0, 2, 1⟩, ⟨0x300, 1, 0, 1, 1⟩, ⟨0x30C, 1, 0, 0, 100⟩]

def resetsEQA : List ResetRow :=
  [⟨0x40, 1, 0, 24, 8⟩, ⟨0x40, 1, 0, 16, 16⟩, ⟨0x40, 1, 0, 8, 2⟩, ⟨0x40, 1, 0, 2, 1⟩,
   ⟨0x40, 1, 0, 0, 1⟩, ⟨0x44, 1, 0, 0, 1024⟩, ⟨0x60, 1, 0, 16, 252⟩, ⟨0x68, 1, 0, 16, 252⟩,
   ⟨0x60, 1, 0, 8, 48⟩, ⟨0x68, 1, 0, 8, 48⟩, ⟨0x60, 1, 0, 0, 248⟩, ⟨0x68, 1, 0, 0, 248⟩,
   ⟨0x70, 1, 0, 24, 8⟩, ⟨0x70, 1, 0, 16, 4⟩, ⟨0x70, 1, 0, 8, 8⟩, ⟨0x70, 1, 0, 0, 4⟩,
   ⟨0x100, 1, 0, 16, 1⟩, ⟨0x100, 1, 0, 8, 8⟩, ⟨0x100, 1, 0, 0, 2⟩, ⟨0x144, 1, 0, 8, 32⟩,
   ⟨0x144, 1, 0, 0, 32⟩, ⟨0x148, 1, 0, 0, 16⟩]

def resetsDIE : List ResetRow :=
  [⟨0x40, 1, 0, 20, 63⟩, ⟨0x40, 1, 0, 14, 32⟩, ⟨0x44, 1, 0, 0, 32768⟩, ⟨0x50, 1, 0, 16, 30720⟩,
   ⟨0x50, 1, 0, 12, 6⟩, ⟨0x50, 1, 0, 0, 64⟩, ⟨0x180, 1, 0, 29, 1⟩]

def resetsLNK : List ResetRow :=
  [⟨0x800, 1, 0, 28, 4⟩, ⟨0x800, 1, 0, 8, 10⟩, ⟨0x800, 1, 0, 0, 4⟩, ⟨0x804, 1, 0, 16, 150⟩,
   ⟨0x804, 1, 0, 8, 20⟩, ⟨0x804, 1, 0, 0, 50⟩, ⟨0x810, 2, 4, 8, 7⟩, ⟨0xA00, 1, 0, 16, 3⟩,
   ⟨0xA00, 1, 0, 8, 4⟩, ⟨0xA00, 1, 0, 1, 1⟩, ⟨0xA00, 1, 0, 0, 1⟩, ⟨0xB00, 1, 0, 24, 10⟩,
   ⟨0xB00, 1, 0, 16, 7⟩, ⟨0xB00, 1, 0, 8, 16⟩, ⟨0xB04, 1, 0, 16, 1024⟩, ⟨0xB08, 1, 0, 16, 64⟩,
   ⟨0xB08, 1, 0, 0, 32⟩, ⟨0xB0C, 1, 0, 0, 4294967295⟩, ⟨0x40, 1, 0, 16, 4⟩, ⟨0x40, 1, 0, 12, 7⟩,
   ⟨0x40, 1, 0, 8, 4⟩, ⟨0x40, 1, 0, 4, 7⟩, ⟨0x44, 2, 4, 24, 4⟩, ⟨0x44, 2, 4, 14, 200⟩,
   ⟨0x4C, 2, 4, 20, 64⟩, ⟨0x4C, 2, 4, 0, 1000⟩, ⟨0x64, 1, 0, 16, 7⟩, ⟨0x64, 1, 0, 8, 7⟩,
   ⟨0xA04, 1, 0, 16, 3⟩, ⟨0xA04, 1, 0, 8, 4⟩, ⟨0xA04, 1, 0, 1, 1⟩, ⟨0xA04, 1, 0, 0, 1⟩,
   ⟨0xB20, 1, 0, 24, 10⟩, ⟨0xB20, 1, 0, 16, 7⟩, ⟨0xB20, 1, 0, 8, 16⟩, ⟨0xB24, 1, 0, 16, 1024⟩,
   ⟨0xB28, 1, 0, 16, 64⟩, ⟨0xB28, 1, 0, 0, 32⟩, ⟨0xB2C, 1, 0, 0, 4294967295⟩, ⟨0x80, 1, 0, 16, 4⟩,
   ⟨0x80, 1, 0, 12, 7⟩, ⟨0x80, 1, 0, 8, 4⟩, ⟨0x80, 1, 0, 4, 7⟩, ⟨0x84, 2, 4, 24, 4⟩,
   ⟨0x84, 2, 4, 14, 200⟩, ⟨0x8C, 2, 4, 20, 64⟩, ⟨0x8C, 2, 4, 0, 1000⟩]

def resetsCAL : List ResetRow :=
  [⟨0x88, 2, 64, 16, 1024⟩, ⟨0x84, 2, 64, 24, 10⟩, ⟨0x84, 2, 64, 16, 7⟩, ⟨0x84, 2, 64, 8, 16⟩]

/-- SRC_CFG resets (R420, R435): the sense per R420, and nmi, class and en of the non-maskable sources. -/
def resetIntS (off lo : Nat) : Nat :=
  if off < 0x40 ∨ 0x540 ≤ off then 0 else
  let s := (off - 0x40) / 4
  let nmi := s = 256 ∨ s = 257 ∨ s = 276 ∨ s = 277
  if lo = 2 then (if s < 260 ∨ nmi ∨ (282 ≤ s ∧ s ≤ 285) ∨ (288 ≤ s ∧ s ≤ 303) then 1 else 0)
  else if lo = 29 ∨ lo = 4 ∨ lo = 0 then (if nmi then 1 else 0)
  else 0

/-- The value a reset row gives the field at offset `off`, lowest bit `lo`. -/
def ResetRow.at? (off lo : Nat) (r : ResetRow) : Bool :=
  r.lo = lo && r.off ≤ off && (if r.stride = 0 then off = r.off else
    (off - r.off) % r.stride = 0 && (off - r.off) / r.stride < r.count)

def lookupReset (rows : List ResetRow) (off lo : Nat) : Nat :=
  match rows.find? (ResetRow.at? off lo) with
  | some r => r.value
  | none => 0

/-- Reset values of the common header (R485, R346, R489). -/
def resetHeader (b : Blk) (off lo : Nat) : Nat :=
  if off = 8 ∧ lo = 0 then 1
  else if off = 0x1C then
    (match b with
     | .rgn => if lo ≤ 2 ∨ (8 ≤ lo ∧ lo ≤ 10) then 1 else 0
     | .die => if lo ≤ 5 then 1 else 0
     | _ => 0)
  else 0

def resetRows : Blk → List ResetRow
  | .glb => resetsGLB
  | .clk => resetsCLK
  | .pwr => resetsPWR
  | .tmp => []
  | .int => resetsINT
  | .intf => resetsINTF
  | .ints => []
  | .bst => resetsBST
  | .sec => []
  | .hst => resetsHST
  | .pct => resetsPCT
  | .sel => resetsSEL
  | .prk => resetsPRK
  | .map => resetsMAP
  | .fmc => []
  | .clu => resetsCLU
  | .eqa => resetsEQA
  | .rgn => []
  | .die => resetsDIE
  | .lnk => resetsLNK
  | .llt => []
  | .cal => resetsCAL
  | .qst => []
  | .vLb => resetsBST
  | .vPre => resetsEQA
  | .vLlStaged | .vLlLive => []
  | .vCalStaged | .vCalLive => resetsCAL

/-- The value a field holds until something else is stored (R495). -/
def resetOf (key : Nat) : Nat :=
  let lo := key % 32
  let off := (key / 32) % 4096
  match Blk.ofPage (key / 131072) with
  | none => 0
  | some (b, _) =>
    if off < 0x40 then resetHeader b off lo
    else if b = .ints then resetIntS off lo
    else lookupReset (resetRows b) off lo

def fieldsGLB0 : List FieldRow :=
  [⟨0x40, 1, 0, 16, 16, .ro⟩, ⟨0x40, 1, 0, 0, 4, .ro⟩, ⟨0x44, 1, 0, 4, 1, .ro⟩,
   ⟨0x44, 1, 0, 0, 3, .ro⟩, ⟨0x48, 1, 0, 16, 16, .ro⟩, ⟨0x48, 1, 0, 0, 2, .ro⟩,
   ⟨0x4C, 1, 0, 16, 2, .ro⟩, ⟨0x4C, 1, 0, 8, 2, .ro⟩, ⟨0x4C, 1, 0, 4, 3, .ro⟩,
   ⟨0x4C, 1, 0, 0, 3, .ro⟩, ⟨0x50, 1, 0, 28, 4, .ro⟩, ⟨0x50, 1, 0, 24, 4, .ro⟩,
   ⟨0x50, 1, 0, 16, 4, .ro⟩, ⟨0x50, 1, 0, 0, 16, .ro⟩, ⟨0x54, 1, 0, 19, 1, .ro⟩,
   ⟨0x54, 1, 0, 18, 1, .ro⟩, ⟨0x54, 1, 0, 17, 1, .sc⟩, ⟨0x54, 1, 0, 0, 2, .rw⟩,
   ⟨0x100, 1, 0, 24, 4, .ro⟩, ⟨0x100, 1, 0, 20, 4, .ro⟩, ⟨0x100, 1, 0, 16, 4, .ro⟩,
   ⟨0x100, 1, 0, 12, 4, .ro⟩, ⟨0x100, 1, 0, 8, 4, .ro⟩, ⟨0x100, 1, 0, 4, 4, .ro⟩,
   ⟨0x100, 1, 0, 0, 4, .ro⟩, ⟨0x104, 1, 0, 19, 1, .ro⟩, ⟨0x104, 1, 0, 18, 1, .ro⟩,
   ⟨0x104, 1, 0, 17, 1, .sc⟩, ⟨0x104, 1, 0, 12, 3, .ro⟩, ⟨0x104, 1, 0, 8, 3, .rw⟩,
   ⟨0x104, 1, 0, 0, 2, .rw⟩, ⟨0x108, 1, 0, 31, 1, .ro⟩, ⟨0x108, 1, 0, 24, 4, .ro⟩,
   ⟨0x108, 1, 0, 16, 1, .ro⟩, ⟨0x108, 1, 0, 0, 8, .ro⟩, ⟨0x10C, 1, 0, 0, 16, .ro⟩]

/-- The fields of a GLB page, from the register tables of its chapters (R496). -/
def fieldsGLB : List FieldRow := fieldsGLB0

def fieldsCLK0 : List FieldRow :=
  [⟨0x40, 1, 0, 24, 8, .rw⟩, ⟨0x40, 1, 0, 8, 1, .rw⟩, ⟨0x40, 1, 0, 0, 2, .rw⟩,
   ⟨0x44, 1, 0, 31, 1, .ro⟩, ⟨0x44, 1, 0, 30, 1, .ro⟩, ⟨0x44, 1, 0, 29, 1, .ro⟩,
   ⟨0x44, 1, 0, 28, 1, .ro⟩, ⟨0x44, 1, 0, 27, 1, .ro⟩, ⟨0x44, 1, 0, 26, 1, .ro⟩,
   ⟨0x44, 1, 0, 22, 2, .ro⟩, ⟨0x44, 1, 0, 20, 2, .ro⟩, ⟨0x44, 1, 0, 19, 1, .ro⟩,
   ⟨0x44, 1, 0, 18, 1, .ro⟩, ⟨0x44, 1, 0, 17, 1, .ro⟩, ⟨0x44, 1, 0, 16, 1, .ro⟩,
   ⟨0x48, 1, 0, 31, 1, .ro⟩, ⟨0x48, 1, 0, 0, 11, .ro⟩, ⟨0x4C, 1, 0, 31, 1, .ro⟩,
   ⟨0x4C, 1, 0, 0, 16, .ro⟩, ⟨0x50, 1, 0, 23, 1, .rw⟩, ⟨0x50, 1, 0, 16, 6, .rw⟩,
   ⟨0x50, 1, 0, 7, 1, .rw⟩, ⟨0x50, 1, 0, 0, 6, .rw⟩, ⟨0x54, 1, 0, 0, 24, .rw⟩,
   ⟨0x58, 1, 0, 19, 1, .ro⟩, ⟨0x58, 1, 0, 18, 1, .ro⟩, ⟨0x58, 1, 0, 17, 1, .sc⟩,
   ⟨0x58, 1, 0, 0, 2, .ro⟩, ⟨0x5C, 1, 0, 0, 32, .ro⟩, ⟨0x60, 1, 0, 24, 8, .ro⟩,
   ⟨0x60, 1, 0, 16, 8, .ro⟩, ⟨0x60, 1, 0, 8, 8, .ro⟩, ⟨0x60, 1, 0, 0, 8, .ro⟩]

/-- The fields of a CLK page, from the register tables of its chapters (R496). -/
def fieldsCLK : List FieldRow := fieldsCLK0

def fieldsPWR0 : List FieldRow :=
  [⟨0x40, 1, 0, 19, 1, .ro⟩, ⟨0x40, 1, 0, 18, 1, .ro⟩, ⟨0x40, 1, 0, 17, 1, .sc⟩,
   ⟨0x40, 1, 0, 16, 1, .rw⟩, ⟨0x40, 1, 0, 0, 2, .rw⟩, ⟨0x44, 1, 0, 28, 3, .ro⟩,
   ⟨0x44, 1, 0, 26, 2, .ro⟩, ⟨0x44, 1, 0, 24, 2, .ro⟩, ⟨0x44, 1, 0, 16, 8, .ro⟩,
   ⟨0x44, 1, 0, 12, 3, .ro⟩, ⟨0x44, 1, 0, 10, 2, .ro⟩, ⟨0x44, 1, 0, 8, 2, .ro⟩,
   ⟨0x44, 1, 0, 0, 8, .ro⟩, ⟨0x48, 1, 0, 31, 1, .ro⟩, ⟨0x48, 1, 0, 28, 3, .ro⟩,
   ⟨0x48, 1, 0, 24, 1, .ro⟩, ⟨0x48, 1, 0, 16, 2, .ro⟩, ⟨0x48, 1, 0, 0, 16, .ro⟩,
   ⟨0x4C, 1, 0, 16, 16, .ro⟩, ⟨0x4C, 1, 0, 0, 16, .ro⟩, ⟨0x50, 1, 0, 19, 1, .ro⟩,
   ⟨0x50, 1, 0, 18, 1, .ro⟩, ⟨0x50, 1, 0, 17, 1, .sc⟩, ⟨0x50, 1, 0, 12, 3, .ro⟩,
   ⟨0x50, 1, 0, 8, 1, .rw⟩, ⟨0x50, 1, 0, 0, 2, .rw⟩, ⟨0x54, 1, 0, 2, 1, .rw⟩,
   ⟨0x54, 1, 0, 1, 1, .rw⟩, ⟨0x58, 1, 0, 31, 1, .ro⟩, ⟨0x58, 1, 0, 28, 3, .ro⟩,
   ⟨0x58, 1, 0, 16, 9, .ro⟩, ⟨0x58, 1, 0, 0, 16, .ro⟩, ⟨0x80, 32, 4, 31, 1, .rw⟩,
   ⟨0x80, 32, 4, 0, 9, .rw⟩, ⟨0x100, 1, 0, 3, 1, .ro⟩, ⟨0x100, 1, 0, 2, 1, .ro⟩,
   ⟨0x100, 1, 0, 1, 1, .ro⟩, ⟨0x100, 1, 0, 0, 1, .ro⟩, ⟨0x104, 4, 4, 16, 12, .ro⟩,
   ⟨0x104, 4, 4, 0, 12, .ro⟩]

def fieldsPWR1 : List FieldRow :=
  [⟨0x114, 1, 0, 24, 8, .ro⟩, ⟨0x114, 1, 0, 16, 8, .ro⟩, ⟨0x114, 1, 0, 8, 8, .ro⟩,
   ⟨0x114, 1, 0, 0, 8, .ro⟩, ⟨0x118, 1, 0, 31, 1, .ro⟩, ⟨0x118, 1, 0, 24, 2, .ro⟩,
   ⟨0x118, 1, 0, 0, 16, .ro⟩, ⟨0x11C, 1, 0, 0, 1, .sc⟩]

/-- The fields of a PWR page, from the register tables of its chapters (R496). -/
def fieldsPWR : List FieldRow := fieldsPWR0 ++ fieldsPWR1

def fieldsTMP0 : List FieldRow :=
  [⟨0x40, 1, 0, 31, 1, .ro⟩, ⟨0x40, 1, 0, 30, 1, .ro⟩, ⟨0x40, 1, 0, 24, 4, .ro⟩,
   ⟨0x40, 1, 0, 0, 11, .ro⟩, ⟨0x44, 1, 0, 24, 4, .ro⟩, ⟨0x44, 1, 0, 0, 11, .ro⟩,
   ⟨0x48, 1, 0, 0, 1, .sc⟩]

/-- The fields of a TMP page, from the register tables of its chapters (R496). -/
def fieldsTMP : List FieldRow := fieldsTMP0

def fieldsINT0 : List FieldRow :=
  [⟨0x40, 3, 16, 16, 8, .rs⟩, ⟨0x40, 3, 16, 12, 3, .rs⟩, ⟨0x40, 3, 16, 0, 10, .rs⟩,
   ⟨0x44, 3, 16, 12, 3, .wo⟩, ⟨0x44, 3, 16, 0, 10, .wo⟩, ⟨0x48, 3, 16, 31, 1, .ro⟩,
   ⟨0x48, 3, 16, 28, 2, .ro⟩, ⟨0x48, 3, 16, 16, 12, .ro⟩, ⟨0x48, 3, 16, 12, 3, .ro⟩,
   ⟨0x48, 3, 16, 0, 10, .ro⟩, ⟨0x80, 1, 0, 16, 16, .ro⟩, ⟨0x80, 1, 0, 15, 1, .ro⟩,
   ⟨0x80, 1, 0, 12, 3, .ro⟩, ⟨0x80, 1, 0, 10, 2, .ro⟩, ⟨0x80, 1, 0, 0, 10, .ro⟩,
   ⟨0x84, 1, 0, 0, 8, .wo⟩, ⟨0x88, 1, 0, 0, 1, .rw⟩, ⟨0x8C, 1, 0, 0, 9, .ro⟩]

/-- The fields of a INT page, from the register tables of its chapters (R496). -/
def fieldsINT : List FieldRow := fieldsINT0

def fieldsINTF0 : List FieldRow :=
  [⟨0x40, 3, 16, 16, 8, .rs⟩, ⟨0x40, 3, 16, 12, 3, .rs⟩, ⟨0x40, 3, 16, 0, 10, .rs⟩,
   ⟨0x44, 3, 16, 12, 3, .wo⟩, ⟨0x44, 3, 16, 0, 10, .wo⟩, ⟨0x48, 3, 16, 31, 1, .ro⟩,
   ⟨0x48, 3, 16, 28, 2, .ro⟩, ⟨0x48, 3, 16, 16, 12, .ro⟩, ⟨0x48, 3, 16, 12, 3, .ro⟩,
   ⟨0x48, 3, 16, 0, 10, .ro⟩]

/-- The fields of a INTF page, from the register tables of its chapters (R496). -/
def fieldsINTF : List FieldRow := fieldsINTF0

def fieldsINTS0 : List FieldRow :=
  [⟨0x40, 320, 4, 31, 1, .w1c⟩, ⟨0x40, 320, 4, 30, 1, .ro⟩, ⟨0x40, 320, 4, 29, 1, .ro⟩,
   ⟨0x40, 320, 4, 28, 1, .ro⟩, ⟨0x40, 320, 4, 16, 8, .ro⟩, ⟨0x40, 320, 4, 8, 2, .rw⟩,
   ⟨0x40, 320, 4, 4, 1, .rw⟩, ⟨0x40, 320, 4, 2, 2, .rw⟩, ⟨0x40, 320, 4, 0, 1, .rw⟩,
   ⟨0x600, 10, 4, 0, 32, .ro⟩]

/-- The fields of a INTS page, from the register tables of its chapters (R496). -/
def fieldsINTS : List FieldRow := fieldsINTS0

def fieldsBST0 : List FieldRow :=
  [⟨0x40, 1, 0, 17, 1, .rw⟩, ⟨0x40, 1, 0, 16, 1, .rw⟩, ⟨0x40, 1, 0, 0, 12, .rw⟩,
   ⟨0x44, 1, 0, 24, 8, .rw⟩, ⟨0x44, 1, 0, 19, 1, .ro⟩, ⟨0x44, 1, 0, 18, 1, .ro⟩,
   ⟨0x44, 1, 0, 17, 1, .sc⟩, ⟨0x44, 1, 0, 8, 4, .rw⟩, ⟨0x44, 1, 0, 0, 3, .rw⟩,
   ⟨0x48, 1, 0, 31, 1, .ro⟩, ⟨0x48, 1, 0, 16, 12, .ro⟩, ⟨0x48, 1, 0, 3, 1, .ro⟩,
   ⟨0x48, 1, 0, 2, 1, .ro⟩, ⟨0x48, 1, 0, 1, 1, .ro⟩, ⟨0x48, 1, 0, 0, 1, .ro⟩,
   ⟨0x4C, 1, 0, 28, 4, .ro⟩, ⟨0x4C, 1, 0, 24, 4, .ro⟩, ⟨0x4C, 1, 0, 16, 2, .ro⟩,
   ⟨0x4C, 1, 0, 0, 16, .ro⟩, ⟨0x50, 4, 4, 0, 32, .ro⟩, ⟨0x60, 2, 4, 28, 4, .ro⟩,
   ⟨0x60, 2, 4, 24, 4, .ro⟩, ⟨0x60, 2, 4, 16, 6, .ro⟩, ⟨0x60, 2, 4, 0, 8, .ro⟩,
   ⟨0x68, 2, 4, 31, 1, .ro⟩, ⟨0x68, 2, 4, 30, 1, .ro⟩, ⟨0x68, 2, 4, 22, 6, .ro⟩,
   ⟨0x68, 2, 4, 12, 10, .ro⟩, ⟨0x68, 2, 4, 0, 11, .ro⟩, ⟨0x70, 2, 4, 0, 32, .ro⟩,
   ⟨0x78, 1, 0, 24, 8, .ro⟩, ⟨0x78, 1, 0, 16, 6, .ro⟩, ⟨0x78, 1, 0, 8, 6, .ro⟩,
   ⟨0x78, 1, 0, 1, 1, .ro⟩, ⟨0x78, 1, 0, 0, 1, .rw⟩, ⟨0x80, 16, 4, 28, 4, .ro⟩,
   ⟨0x80, 16, 4, 24, 4, .ro⟩, ⟨0x80, 16, 4, 16, 3, .ro⟩, ⟨0x80, 16, 4, 0, 16, .ro⟩,
   ⟨0x100, 1, 0, 0, 8, .rw⟩]

def fieldsBST1 : List FieldRow :=
  [⟨0x104, 1, 0, 31, 1, .ro⟩, ⟨0x104, 1, 0, 30, 1, .ro⟩, ⟨0x104, 1, 0, 28, 2, .ro⟩,
   ⟨0x104, 1, 0, 16, 3, .rw⟩, ⟨0x104, 1, 0, 8, 2, .rw⟩, ⟨0x104, 1, 0, 0, 1, .rw⟩,
   ⟨0x108, 1, 0, 12, 1, .rw⟩, ⟨0x108, 1, 0, 4, 1, .rw⟩, ⟨0x108, 1, 0, 0, 4, .rw⟩,
   ⟨0x10C, 1, 0, 0, 32, .rw⟩, ⟨0x110, 1, 0, 16, 16, .rw⟩, ⟨0x110, 1, 0, 12, 1, .rw⟩,
   ⟨0x110, 1, 0, 8, 4, .rw⟩, ⟨0x110, 1, 0, 4, 1, .rw⟩, ⟨0x110, 1, 0, 0, 4, .rw⟩,
   ⟨0x114, 1, 0, 31, 1, .ro⟩, ⟨0x114, 1, 0, 30, 1, .ro⟩, ⟨0x118, 1, 0, 0, 16, .rs⟩,
   ⟨0x11C, 1, 0, 0, 1, .sc⟩, ⟨0x120, 1, 0, 0, 32, .ro⟩, ⟨0x124, 1, 0, 0, 32, .ro⟩,
   ⟨0x128, 1, 0, 0, 32, .ro⟩, ⟨0x12C, 1, 0, 0, 16, .ro⟩, ⟨0x130, 1, 0, 0, 16, .ro⟩,
   ⟨0x200, 1, 0, 31, 1, .ro⟩, ⟨0x200, 1, 0, 28, 3, .ro⟩, ⟨0x200, 1, 0, 27, 1, .ro⟩,
   ⟨0x200, 1, 0, 26, 1, .ro⟩, ⟨0x200, 1, 0, 25, 1, .ro⟩, ⟨0x200, 1, 0, 0, 16, .ro⟩]

/-- The fields of a BST page, from the register tables of its chapters (R496). -/
def fieldsBST : List FieldRow := fieldsBST0 ++ fieldsBST1

def fieldsSEC0 : List FieldRow :=
  [⟨0x40, 1, 0, 19, 1, .ro⟩, ⟨0x40, 1, 0, 18, 1, .ro⟩, ⟨0x40, 1, 0, 17, 1, .sc⟩,
   ⟨0x40, 1, 0, 8, 2, .rw⟩, ⟨0x40, 1, 0, 0, 3, .rw⟩, ⟨0x44, 1, 0, 16, 4, .ro⟩,
   ⟨0x44, 1, 0, 8, 4, .ro⟩, ⟨0x44, 1, 0, 0, 4, .ro⟩, ⟨0x48, 1, 0, 19, 1, .ro⟩,
   ⟨0x48, 1, 0, 18, 1, .ro⟩, ⟨0x48, 1, 0, 17, 1, .sc⟩, ⟨0x4C, 1, 0, 31, 1, .ro⟩,
   ⟨0x4C, 1, 0, 30, 1, .ro⟩, ⟨0x80, 24, 4, 0, 32, .ro⟩, ⟨0xE0, 24, 4, 0, 32, .wo⟩,
   ⟨0x140, 8, 4, 0, 32, .rw⟩, ⟨0x160, 12, 4, 0, 32, .ro⟩, ⟨0x190, 12, 4, 0, 32, .ro⟩,
   ⟨0x1C0, 12, 4, 0, 32, .ro⟩, ⟨0x200, 76, 4, 0, 32, .ro⟩]

/-- The fields of a SEC page, from the register tables of its chapters (R496). -/
def fieldsSEC : List FieldRow := fieldsSEC0

def fieldsHST0 : List FieldRow :=
  [⟨0x40, 1, 0, 8, 5, .rw⟩, ⟨0x40, 1, 0, 1, 1, .rw⟩, ⟨0x40, 1, 0, 0, 1, .rw⟩,
   ⟨0x44, 1, 0, 29, 3, .ro⟩, ⟨0x44, 1, 0, 24, 3, .ro⟩, ⟨0x44, 1, 0, 17, 1, .ro⟩,
   ⟨0x44, 1, 0, 16, 1, .ro⟩, ⟨0x44, 1, 0, 8, 8, .ro⟩, ⟨0x44, 1, 0, 0, 8, .ro⟩,
   ⟨0x48, 1, 0, 24, 8, .ro⟩, ⟨0x48, 1, 0, 16, 8, .ro⟩, ⟨0x48, 1, 0, 8, 8, .ro⟩,
   ⟨0x48, 1, 0, 0, 8, .ro⟩, ⟨0x4C, 1, 0, 16, 16, .ro⟩, ⟨0x4C, 1, 0, 0, 16, .ro⟩]

/-- The fields of a HST page, from the register tables of its chapters (R496). -/
def fieldsHST : List FieldRow := fieldsHST0

def fieldsPCT0 : List FieldRow :=
  [⟨0x40, 1, 0, 0, 16, .rw⟩, ⟨0x44, 1, 0, 19, 1, .ro⟩, ⟨0x44, 1, 0, 18, 1, .ro⟩,
   ⟨0x44, 1, 0, 17, 1, .sc⟩, ⟨0x44, 1, 0, 0, 2, .rw⟩, ⟨0x48, 1, 0, 31, 1, .ro⟩,
   ⟨0x48, 1, 0, 30, 1, .ro⟩, ⟨0x48, 1, 0, 29, 1, .ro⟩, ⟨0x48, 1, 0, 28, 1, .ro⟩,
   ⟨0x48, 1, 0, 26, 2, .ro⟩, ⟨0x48, 1, 0, 24, 2, .ro⟩, ⟨0x48, 1, 0, 16, 8, .ro⟩,
   ⟨0x48, 1, 0, 8, 8, .ro⟩, ⟨0x48, 1, 0, 0, 8, .ro⟩, ⟨0x4C, 1, 0, 28, 4, .ro⟩,
   ⟨0x4C, 1, 0, 24, 4, .ro⟩, ⟨0x4C, 1, 0, 20, 4, .ro⟩, ⟨0x4C, 1, 0, 16, 4, .ro⟩,
   ⟨0x4C, 1, 0, 12, 4, .ro⟩, ⟨0x4C, 1, 0, 8, 4, .ro⟩, ⟨0x4C, 1, 0, 4, 4, .ro⟩,
   ⟨0x4C, 1, 0, 0, 4, .ro⟩, ⟨0x50, 1, 0, 28, 4, .ro⟩, ⟨0x50, 1, 0, 24, 4, .ro⟩,
   ⟨0x50, 1, 0, 20, 4, .ro⟩, ⟨0x50, 1, 0, 16, 4, .ro⟩, ⟨0x50, 1, 0, 12, 4, .ro⟩,
   ⟨0x50, 1, 0, 8, 4, .ro⟩, ⟨0x50, 1, 0, 4, 4, .ro⟩, ⟨0x50, 1, 0, 0, 4, .ro⟩,
   ⟨0x54, 1, 0, 16, 16, .ro⟩, ⟨0x54, 1, 0, 0, 16, .ro⟩, ⟨0x58, 1, 0, 0, 32, .ro⟩,
   ⟨0x5C, 1, 0, 0, 32, .ro⟩, ⟨0x60, 1, 0, 0, 32, .ro⟩, ⟨0x64, 1, 0, 0, 32, .ro⟩,
   ⟨0x68, 1, 0, 24, 8, .ro⟩, ⟨0x68, 1, 0, 16, 8, .ro⟩, ⟨0x68, 1, 0, 8, 8, .ro⟩,
   ⟨0x68, 1, 0, 0, 8, .ro⟩]

/-- The fields of a PCT page, from the register tables of its chapters (R496). -/
def fieldsPCT : List FieldRow := fieldsPCT0

def fieldsSEL0 : List FieldRow :=
  [⟨0x40, 1, 0, 0, 1, .rw⟩, ⟨0x44, 1, 0, 0, 3, .ro⟩, ⟨0x48, 1, 0, 16, 16, .ro⟩,
   ⟨0x48, 1, 0, 0, 16, .ro⟩, ⟨0x4C, 1, 0, 24, 8, .ro⟩, ⟨0x4C, 1, 0, 16, 8, .ro⟩,
   ⟨0x4C, 1, 0, 8, 8, .ro⟩, ⟨0x4C, 1, 0, 0, 8, .ro⟩, ⟨0x50, 1, 0, 31, 1, .ro⟩,
   ⟨0x50, 1, 0, 28, 2, .ro⟩, ⟨0x50, 1, 0, 24, 2, .ro⟩, ⟨0x50, 1, 0, 16, 1, .ro⟩,
   ⟨0x50, 1, 0, 0, 7, .ro⟩, ⟨0x60, 4, 8, 0, 32, .ro⟩, ⟨0x64, 4, 8, 0, 32, .ro⟩]

/-- The fields of a SEL page, from the register tables of its chapters (R496). -/
def fieldsSEL : List FieldRow := fieldsSEL0

def fieldsPRK0 : List FieldRow :=
  [⟨0x40, 1, 0, 19, 1, .ro⟩, ⟨0x40, 1, 0, 18, 1, .ro⟩, ⟨0x40, 1, 0, 17, 1, .sc⟩,
   ⟨0x40, 1, 0, 0, 2, .rw⟩, ⟨0x44, 1, 0, 24, 8, .ro⟩, ⟨0x44, 1, 0, 23, 1, .ro⟩,
   ⟨0x44, 1, 0, 22, 1, .ro⟩, ⟨0x44, 1, 0, 20, 2, .ro⟩, ⟨0x44, 1, 0, 16, 1, .ro⟩,
   ⟨0x44, 1, 0, 0, 5, .ro⟩, ⟨0x48, 1, 0, 28, 4, .ro⟩, ⟨0x48, 1, 0, 24, 4, .ro⟩,
   ⟨0x48, 1, 0, 0, 10, .ro⟩, ⟨0x4C, 1, 0, 0, 32, .ro⟩, ⟨0x50, 1, 0, 0, 32, .ro⟩,
   ⟨0x54, 1, 0, 0, 10, .rw⟩, ⟨0x58, 1, 0, 0, 10, .ro⟩, ⟨0x5C, 1, 0, 16, 2, .ro⟩,
   ⟨0x5C, 1, 0, 0, 2, .ro⟩, ⟨0x60, 1, 0, 0, 16, .ro⟩, ⟨0x64, 1, 0, 16, 16, .ro⟩,
   ⟨0x64, 1, 0, 0, 16, .ro⟩, ⟨0x68, 1, 0, 16, 16, .ro⟩, ⟨0x68, 1, 0, 0, 16, .ro⟩,
   ⟨0x6C, 1, 0, 0, 16, .ro⟩]

/-- The fields of a PRK page, from the register tables of its chapters (R496). -/
def fieldsPRK : List FieldRow := fieldsPRK0

def fieldsMAP0 : List FieldRow :=
  [⟨0x40, 1, 0, 1, 1, .ro⟩, ⟨0x40, 1, 0, 0, 1, .ro⟩, ⟨0x44, 1, 0, 31, 1, .ro⟩,
   ⟨0x44, 1, 0, 0, 8, .ro⟩, ⟨0x48, 1, 0, 19, 1, .ro⟩, ⟨0x48, 1, 0, 18, 1, .ro⟩,
   ⟨0x48, 1, 0, 17, 1, .sc⟩, ⟨0x48, 1, 0, 8, 4, .rw⟩, ⟨0x48, 1, 0, 4, 3, .rw⟩,
   ⟨0x48, 1, 0, 0, 2, .rw⟩, ⟨0x80, 16, 16, 2, 1, .rw⟩, ⟨0x80, 16, 16, 1, 1, .rw⟩,
   ⟨0x80, 16, 16, 0, 1, .rw⟩, ⟨0x84, 16, 16, 29, 3, .ro⟩, ⟨0x84, 16, 16, 24, 3, .ro⟩,
   ⟨0x84, 16, 16, 20, 3, .ro⟩, ⟨0x84, 16, 16, 17, 1, .ro⟩, ⟨0x84, 16, 16, 16, 1, .ro⟩,
   ⟨0x84, 16, 16, 2, 2, .ro⟩, ⟨0x84, 16, 16, 0, 2, .ro⟩, ⟨0x88, 16, 16, 0, 20, .ro⟩,
   ⟨0x8C, 16, 16, 24, 8, .ro⟩, ⟨0x8C, 16, 16, 16, 8, .ro⟩, ⟨0x8C, 16, 16, 8, 8, .ro⟩,
   ⟨0x8C, 16, 16, 0, 8, .ro⟩, ⟨0x400, 256, 4, 31, 1, .rw⟩, ⟨0x400, 256, 4, 30, 1, .rw⟩,
   ⟨0x400, 256, 4, 24, 4, .ro⟩, ⟨0x400, 256, 4, 0, 7, .rw⟩, ⟨0x800, 128, 4, 31, 1, .rw⟩,
   ⟨0x800, 128, 4, 24, 7, .rw⟩, ⟨0x800, 128, 4, 16, 4, .rw⟩, ⟨0x800, 128, 4, 15, 1, .rw⟩,
   ⟨0x800, 128, 4, 8, 7, .rw⟩, ⟨0x800, 128, 4, 0, 4, .rw⟩]

/-- The fields of a MAP page, from the register tables of its chapters (R496). -/
def fieldsMAP : List FieldRow := fieldsMAP0

def fieldsFMC0 : List FieldRow :=
  [⟨0x40, 1, 0, 16, 1, .ro⟩, ⟨0x40, 1, 0, 8, 2, .ro⟩, ⟨0x40, 1, 0, 4, 4, .ro⟩,
   ⟨0x40, 1, 0, 0, 4, .ro⟩, ⟨0x44, 1, 0, 16, 16, .ro⟩, ⟨0x44, 1, 0, 0, 16, .ro⟩,
   ⟨0x48, 1, 0, 18, 1, .ro⟩, ⟨0x48, 1, 0, 17, 1, .ro⟩, ⟨0x48, 1, 0, 16, 1, .sc⟩,
   ⟨0x4C, 1, 0, 0, 32, .ro⟩, ⟨0x50, 1, 0, 0, 32, .ro⟩, ⟨0x54, 1, 0, 26, 1, .ro⟩,
   ⟨0x54, 1, 0, 25, 1, .ro⟩, ⟨0x54, 1, 0, 24, 1, .sc⟩, ⟨0x54, 1, 0, 16, 7, .rw⟩,
   ⟨0x54, 1, 0, 15, 1, .rw⟩, ⟨0x54, 1, 0, 14, 1, .rw⟩, ⟨0x54, 1, 0, 10, 4, .rw⟩,
   ⟨0x54, 1, 0, 8, 2, .rw⟩, ⟨0x54, 1, 0, 0, 8, .rw⟩, ⟨0x58, 1, 0, 0, 24, .rw⟩,
   ⟨0x60, 16, 4, 0, 32, .rw⟩]

/-- The fields of a FMC page, from the register tables of its chapters (R496). -/
def fieldsFMC : List FieldRow := fieldsFMC0

def fieldsCLU0 : List FieldRow :=
  [⟨0x40, 1, 0, 4, 3, .ro⟩, ⟨0x40, 1, 0, 0, 3, .ro⟩, ⟨0x44, 1, 0, 8, 2, .rw⟩,
   ⟨0x44, 1, 0, 0, 8, .rw⟩, ⟨0x48, 1, 0, 16, 4, .rw⟩, ⟨0x48, 1, 0, 8, 4, .rw⟩,
   ⟨0x48, 1, 0, 0, 8, .rw⟩, ⟨0x4C, 1, 0, 9, 1, .ro⟩, ⟨0x4C, 1, 0, 8, 1, .ro⟩,
   ⟨0x4C, 1, 0, 5, 1, .rw⟩, ⟨0x4C, 1, 0, 4, 1, .rw⟩, ⟨0x4C, 1, 0, 2, 2, .rw⟩,
   ⟨0x4C, 1, 0, 0, 2, .rw⟩, ⟨0x50, 1, 0, 18, 1, .ro⟩, ⟨0x50, 1, 0, 17, 1, .ro⟩,
   ⟨0x50, 1, 0, 16, 1, .sc⟩, ⟨0x50, 1, 0, 10, 1, .rw⟩, ⟨0x50, 1, 0, 9, 1, .rw⟩,
   ⟨0x50, 1, 0, 0, 9, .rw⟩, ⟨0x54, 1, 0, 16, 16, .rs⟩, ⟨0x54, 1, 0, 0, 16, .rs⟩,
   ⟨0x58, 1, 0, 0, 1, .sc⟩, ⟨0x80, 9, 64, 6, 1, .rw⟩, ⟨0x80, 9, 64, 5, 1, .rw⟩,
   ⟨0x80, 9, 64, 4, 1, .rw⟩, ⟨0x80, 9, 64, 2, 1, .rw⟩, ⟨0x80, 9, 64, 1, 1, .rw⟩,
   ⟨0x80, 9, 64, 0, 1, .rw⟩, ⟨0x84, 9, 64, 13, 1, .ro⟩, ⟨0x84, 9, 64, 12, 1, .ro⟩,
   ⟨0x84, 9, 64, 10, 2, .ro⟩, ⟨0x84, 9, 64, 9, 1, .ro⟩, ⟨0x84, 9, 64, 8, 1, .ro⟩,
   ⟨0x84, 9, 64, 5, 1, .ro⟩, ⟨0x84, 9, 64, 4, 1, .ro⟩, ⟨0x84, 9, 64, 2, 2, .ro⟩,
   ⟨0x84, 9, 64, 1, 1, .ro⟩, ⟨0x84, 9, 64, 0, 1, .ro⟩, ⟨0x88, 9, 64, 7, 1, .ro⟩,
   ⟨0x88, 9, 64, 4, 3, .ro⟩]

def fieldsCLU1 : List FieldRow :=
  [⟨0x88, 9, 64, 3, 1, .ro⟩, ⟨0x88, 9, 64, 0, 3, .ro⟩, ⟨0x8C, 9, 64, 12, 1, .ro⟩,
   ⟨0x8C, 9, 64, 8, 4, .ro⟩, ⟨0x8C, 9, 64, 4, 1, .ro⟩, ⟨0x8C, 9, 64, 0, 4, .ro⟩,
   ⟨0x90, 9, 64, 0, 32, .ro⟩, ⟨0x94, 9, 64, 0, 32, .ro⟩, ⟨0x98, 9, 64, 0, 32, .ro⟩,
   ⟨0x9C, 9, 64, 0, 32, .ro⟩, ⟨0xA0, 9, 64, 0, 32, .ro⟩, ⟨0xA4, 9, 64, 0, 32, .ro⟩,
   ⟨0xA8, 9, 64, 31, 1, .ro⟩, ⟨0xA8, 9, 64, 18, 2, .ro⟩, ⟨0xA8, 9, 64, 16, 2, .ro⟩,
   ⟨0xA8, 9, 64, 0, 13, .ro⟩, ⟨0xAC, 9, 64, 31, 1, .ro⟩, ⟨0xAC, 9, 64, 18, 2, .ro⟩,
   ⟨0xAC, 9, 64, 16, 2, .ro⟩, ⟨0xAC, 9, 64, 0, 13, .ro⟩, ⟨0xB0, 9, 64, 16, 16, .ro⟩,
   ⟨0xB0, 9, 64, 0, 16, .ro⟩, ⟨0x300, 1, 0, 18, 1, .rw⟩, ⟨0x300, 1, 0, 17, 1, .rw⟩,
   ⟨0x300, 1, 0, 16, 1, .rw⟩, ⟨0x300, 1, 0, 2, 1, .rw⟩, ⟨0x300, 1, 0, 1, 1, .rw⟩,
   ⟨0x300, 1, 0, 0, 1, .rw⟩, ⟨0x304, 1, 0, 28, 1, .ro⟩, ⟨0x304, 1, 0, 27, 1, .ro⟩,
   ⟨0x304, 1, 0, 26, 1, .ro⟩, ⟨0x304, 1, 0, 25, 1, .ro⟩, ⟨0x304, 1, 0, 24, 1, .ro⟩,
   ⟨0x304, 1, 0, 23, 1, .ro⟩, ⟨0x304, 1, 0, 22, 1, .ro⟩, ⟨0x304, 1, 0, 21, 1, .ro⟩,
   ⟨0x304, 1, 0, 20, 1, .ro⟩, ⟨0x304, 1, 0, 18, 2, .ro⟩, ⟨0x304, 1, 0, 16, 2, .ro⟩,
   ⟨0x304, 1, 0, 12, 1, .ro⟩]

def fieldsCLU2 : List FieldRow :=
  [⟨0x304, 1, 0, 11, 1, .ro⟩, ⟨0x304, 1, 0, 10, 1, .ro⟩, ⟨0x304, 1, 0, 9, 1, .ro⟩,
   ⟨0x304, 1, 0, 8, 1, .ro⟩, ⟨0x304, 1, 0, 7, 1, .ro⟩, ⟨0x304, 1, 0, 6, 1, .ro⟩,
   ⟨0x304, 1, 0, 5, 1, .ro⟩, ⟨0x304, 1, 0, 4, 1, .ro⟩, ⟨0x304, 1, 0, 2, 2, .ro⟩,
   ⟨0x304, 1, 0, 0, 2, .ro⟩, ⟨0x308, 1, 0, 19, 1, .ro⟩, ⟨0x308, 1, 0, 18, 1, .ro⟩,
   ⟨0x308, 1, 0, 17, 1, .sc⟩, ⟨0x308, 1, 0, 16, 1, .rw⟩, ⟨0x308, 1, 0, 0, 2, .rw⟩,
   ⟨0x30C, 1, 0, 16, 2, .rw⟩, ⟨0x30C, 1, 0, 0, 8, .rw⟩, ⟨0x310, 1, 0, 16, 6, .ro⟩,
   ⟨0x310, 1, 0, 0, 6, .ro⟩, ⟨0x314, 1, 0, 16, 16, .ro⟩, ⟨0x314, 1, 0, 0, 16, .ro⟩,
   ⟨0x318, 1, 0, 16, 16, .ro⟩, ⟨0x318, 1, 0, 0, 16, .ro⟩, ⟨0x31C, 1, 0, 24, 8, .ro⟩,
   ⟨0x31C, 1, 0, 16, 8, .ro⟩, ⟨0x31C, 1, 0, 8, 8, .ro⟩, ⟨0x31C, 1, 0, 0, 8, .ro⟩,
   ⟨0x320, 1, 0, 16, 16, .ro⟩, ⟨0x320, 1, 0, 0, 16, .ro⟩, ⟨0x324, 1, 0, 16, 16, .ro⟩,
   ⟨0x324, 1, 0, 0, 16, .ro⟩, ⟨0x340, 9, 4, 23, 1, .ro⟩, ⟨0x340, 9, 4, 16, 7, .ro⟩,
   ⟨0x340, 9, 4, 7, 1, .ro⟩, ⟨0x340, 9, 4, 0, 7, .ro⟩]

/-- The fields of a CLU page, from the register tables of its chapters (R496). -/
def fieldsCLU : List FieldRow := fieldsCLU0 ++ fieldsCLU1 ++ fieldsCLU2

def fieldsEQA0 : List FieldRow :=
  [⟨0x40, 1, 0, 24, 4, .rw⟩, ⟨0x40, 1, 0, 16, 5, .rw⟩, ⟨0x40, 1, 0, 8, 4, .rw⟩,
   ⟨0x40, 1, 0, 2, 2, .rw⟩, ⟨0x40, 1, 0, 0, 1, .rw⟩, ⟨0x44, 1, 0, 0, 16, .rw⟩,
   ⟨0x48, 1, 0, 19, 1, .ro⟩, ⟨0x48, 1, 0, 18, 1, .ro⟩, ⟨0x48, 1, 0, 17, 1, .sc⟩,
   ⟨0x48, 1, 0, 16, 1, .rw⟩, ⟨0x48, 1, 0, 8, 4, .rw⟩, ⟨0x48, 1, 0, 0, 2, .rw⟩,
   ⟨0x4C, 1, 0, 8, 1, .ro⟩, ⟨0x4C, 1, 0, 6, 2, .ro⟩, ⟨0x4C, 1, 0, 5, 1, .ro⟩,
   ⟨0x4C, 1, 0, 0, 4, .ro⟩, ⟨0x50, 1, 0, 16, 2, .ro⟩, ⟨0x50, 1, 0, 14, 2, .ro⟩,
   ⟨0x50, 1, 0, 12, 2, .ro⟩, ⟨0x50, 1, 0, 10, 2, .ro⟩, ⟨0x50, 1, 0, 8, 2, .ro⟩,
   ⟨0x50, 1, 0, 6, 2, .ro⟩, ⟨0x50, 1, 0, 4, 2, .ro⟩, ⟨0x50, 1, 0, 2, 2, .ro⟩,
   ⟨0x50, 1, 0, 0, 2, .ro⟩, ⟨0x54, 1, 0, 16, 2, .ro⟩, ⟨0x54, 1, 0, 14, 2, .ro⟩,
   ⟨0x54, 1, 0, 12, 2, .ro⟩, ⟨0x54, 1, 0, 10, 2, .ro⟩, ⟨0x54, 1, 0, 8, 2, .ro⟩,
   ⟨0x54, 1, 0, 6, 2, .ro⟩, ⟨0x54, 1, 0, 4, 2, .ro⟩, ⟨0x54, 1, 0, 2, 2, .ro⟩,
   ⟨0x54, 1, 0, 0, 2, .ro⟩, ⟨0x58, 1, 0, 24, 1, .ro⟩, ⟨0x58, 1, 0, 23, 1, .ro⟩,
   ⟨0x58, 1, 0, 22, 1, .ro⟩, ⟨0x58, 1, 0, 21, 1, .ro⟩, ⟨0x58, 1, 0, 20, 1, .ro⟩,
   ⟨0x58, 1, 0, 19, 1, .ro⟩]

def fieldsEQA1 : List FieldRow :=
  [⟨0x58, 1, 0, 18, 1, .ro⟩, ⟨0x58, 1, 0, 17, 1, .ro⟩, ⟨0x58, 1, 0, 16, 1, .ro⟩,
   ⟨0x58, 1, 0, 8, 1, .ro⟩, ⟨0x58, 1, 0, 7, 1, .ro⟩, ⟨0x58, 1, 0, 6, 1, .ro⟩,
   ⟨0x58, 1, 0, 5, 1, .ro⟩, ⟨0x58, 1, 0, 4, 1, .ro⟩, ⟨0x58, 1, 0, 3, 1, .ro⟩,
   ⟨0x58, 1, 0, 2, 1, .ro⟩, ⟨0x58, 1, 0, 1, 1, .ro⟩, ⟨0x58, 1, 0, 0, 1, .ro⟩,
   ⟨0x5C, 1, 0, 8, 3, .rw⟩, ⟨0x5C, 1, 0, 0, 4, .rw⟩, ⟨0x60, 1, 0, 24, 8, .rw⟩,
   ⟨0x60, 1, 0, 16, 8, .rw⟩, ⟨0x60, 1, 0, 8, 8, .rw⟩, ⟨0x60, 1, 0, 0, 8, .rw⟩,
   ⟨0x64, 1, 0, 24, 8, .rw⟩, ⟨0x64, 1, 0, 16, 8, .rw⟩, ⟨0x68, 1, 0, 24, 8, .rw⟩,
   ⟨0x68, 1, 0, 16, 8, .rw⟩, ⟨0x68, 1, 0, 8, 8, .rw⟩, ⟨0x68, 1, 0, 0, 8, .rw⟩,
   ⟨0x6C, 1, 0, 24, 8, .rw⟩, ⟨0x6C, 1, 0, 16, 8, .rw⟩, ⟨0x70, 1, 0, 24, 5, .rw⟩,
   ⟨0x70, 1, 0, 16, 4, .rw⟩, ⟨0x70, 1, 0, 8, 5, .rw⟩, ⟨0x70, 1, 0, 0, 4, .rw⟩,
   ⟨0x74, 1, 0, 8, 1, .rw⟩, ⟨0x74, 1, 0, 0, 4, .rw⟩, ⟨0x78, 1, 0, 24, 8, .ro⟩,
   ⟨0x78, 1, 0, 16, 8, .ro⟩, ⟨0x78, 1, 0, 8, 8, .ro⟩, ⟨0x78, 1, 0, 0, 8, .ro⟩,
   ⟨0x7C, 1, 0, 24, 8, .ro⟩, ⟨0x7C, 1, 0, 16, 8, .ro⟩, ⟨0x7C, 1, 0, 8, 8, .ro⟩,
   ⟨0x7C, 1, 0, 0, 8, .ro⟩]

def fieldsEQA2 : List FieldRow :=
  [⟨0x80, 1, 0, 24, 8, .ro⟩, ⟨0x80, 1, 0, 16, 8, .ro⟩, ⟨0x80, 1, 0, 8, 8, .ro⟩,
   ⟨0x80, 1, 0, 0, 8, .ro⟩, ⟨0x84, 1, 0, 24, 6, .ro⟩, ⟨0x84, 1, 0, 16, 8, .ro⟩,
   ⟨0x84, 1, 0, 8, 6, .ro⟩, ⟨0x84, 1, 0, 0, 8, .ro⟩, ⟨0x88, 1, 0, 16, 8, .ro⟩,
   ⟨0x88, 1, 0, 8, 8, .ro⟩, ⟨0x88, 1, 0, 0, 8, .ro⟩, ⟨0x8C, 1, 0, 31, 1, .ro⟩,
   ⟨0x8C, 1, 0, 17, 3, .ro⟩, ⟨0x8C, 1, 0, 16, 1, .ro⟩, ⟨0x8C, 1, 0, 0, 16, .ro⟩,
   ⟨0x90, 1, 0, 16, 16, .ro⟩, ⟨0x90, 1, 0, 0, 16, .ro⟩, ⟨0x100, 1, 0, 16, 1, .rw⟩,
   ⟨0x100, 1, 0, 8, 6, .rw⟩, ⟨0x100, 1, 0, 0, 3, .rw⟩, ⟨0x104, 1, 0, 19, 1, .ro⟩,
   ⟨0x104, 1, 0, 18, 1, .ro⟩, ⟨0x104, 1, 0, 17, 1, .sc⟩, ⟨0x104, 1, 0, 8, 6, .rw⟩,
   ⟨0x104, 1, 0, 0, 2, .rw⟩, ⟨0x108, 1, 0, 31, 1, .ro⟩, ⟨0x108, 1, 0, 30, 1, .ro⟩,
   ⟨0x108, 1, 0, 24, 6, .ro⟩, ⟨0x108, 1, 0, 0, 6, .ro⟩, ⟨0x10C, 1, 0, 31, 1, .ro⟩,
   ⟨0x10C, 1, 0, 0, 11, .ro⟩, ⟨0x110, 1, 0, 31, 1, .ro⟩, ⟨0x110, 1, 0, 28, 3, .ro⟩,
   ⟨0x110, 1, 0, 24, 4, .ro⟩, ⟨0x110, 1, 0, 16, 6, .ro⟩, ⟨0x110, 1, 0, 0, 11, .ro⟩,
   ⟨0x114, 1, 0, 16, 16, .ro⟩, ⟨0x114, 1, 0, 0, 16, .ro⟩, ⟨0x118, 1, 0, 31, 1, .ro⟩,
   ⟨0x118, 1, 0, 30, 1, .ro⟩]

def fieldsEQA3 : List FieldRow :=
  [⟨0x118, 1, 0, 29, 1, .ro⟩, ⟨0x118, 1, 0, 28, 1, .ro⟩, ⟨0x118, 1, 0, 27, 1, .ro⟩,
   ⟨0x118, 1, 0, 26, 1, .ro⟩, ⟨0x118, 1, 0, 25, 1, .ro⟩, ⟨0x118, 1, 0, 24, 1, .ro⟩,
   ⟨0x118, 1, 0, 23, 1, .ro⟩, ⟨0x118, 1, 0, 22, 1, .ro⟩, ⟨0x118, 1, 0, 21, 1, .ro⟩,
   ⟨0x118, 1, 0, 20, 1, .ro⟩, ⟨0x118, 1, 0, 19, 1, .ro⟩, ⟨0x118, 1, 0, 18, 1, .ro⟩,
   ⟨0x118, 1, 0, 17, 1, .ro⟩, ⟨0x118, 1, 0, 16, 1, .ro⟩, ⟨0x118, 1, 0, 15, 1, .ro⟩,
   ⟨0x118, 1, 0, 14, 1, .ro⟩, ⟨0x118, 1, 0, 13, 1, .ro⟩, ⟨0x118, 1, 0, 12, 1, .ro⟩,
   ⟨0x118, 1, 0, 11, 1, .ro⟩, ⟨0x118, 1, 0, 10, 1, .ro⟩, ⟨0x118, 1, 0, 9, 1, .ro⟩,
   ⟨0x118, 1, 0, 8, 1, .ro⟩, ⟨0x118, 1, 0, 7, 1, .ro⟩, ⟨0x118, 1, 0, 6, 1, .ro⟩,
   ⟨0x118, 1, 0, 5, 1, .ro⟩, ⟨0x118, 1, 0, 4, 1, .ro⟩, ⟨0x118, 1, 0, 3, 1, .ro⟩,
   ⟨0x118, 1, 0, 2, 1, .ro⟩, ⟨0x118, 1, 0, 1, 1, .ro⟩, ⟨0x118, 1, 0, 0, 1, .ro⟩,
   ⟨0x11C, 1, 0, 5, 1, .ro⟩, ⟨0x11C, 1, 0, 4, 1, .ro⟩, ⟨0x11C, 1, 0, 3, 1, .ro⟩,
   ⟨0x11C, 1, 0, 2, 1, .ro⟩, ⟨0x11C, 1, 0, 1, 1, .ro⟩, ⟨0x11C, 1, 0, 0, 1, .ro⟩,
   ⟨0x120, 1, 0, 31, 1, .ro⟩, ⟨0x120, 1, 0, 30, 1, .ro⟩, ⟨0x120, 1, 0, 29, 1, .ro⟩,
   ⟨0x120, 1, 0, 28, 1, .ro⟩]

def fieldsEQA4 : List FieldRow :=
  [⟨0x120, 1, 0, 27, 1, .ro⟩, ⟨0x120, 1, 0, 26, 1, .ro⟩, ⟨0x120, 1, 0, 25, 1, .ro⟩,
   ⟨0x120, 1, 0, 24, 1, .ro⟩, ⟨0x120, 1, 0, 23, 1, .ro⟩, ⟨0x120, 1, 0, 22, 1, .ro⟩,
   ⟨0x120, 1, 0, 21, 1, .ro⟩, ⟨0x120, 1, 0, 20, 1, .ro⟩, ⟨0x120, 1, 0, 19, 1, .ro⟩,
   ⟨0x120, 1, 0, 18, 1, .ro⟩, ⟨0x120, 1, 0, 17, 1, .ro⟩, ⟨0x120, 1, 0, 16, 1, .ro⟩,
   ⟨0x120, 1, 0, 15, 1, .ro⟩, ⟨0x120, 1, 0, 14, 1, .ro⟩, ⟨0x120, 1, 0, 13, 1, .ro⟩,
   ⟨0x120, 1, 0, 12, 1, .ro⟩, ⟨0x120, 1, 0, 11, 1, .ro⟩, ⟨0x120, 1, 0, 10, 1, .ro⟩,
   ⟨0x120, 1, 0, 9, 1, .ro⟩, ⟨0x120, 1, 0, 8, 1, .ro⟩, ⟨0x120, 1, 0, 7, 1, .ro⟩,
   ⟨0x120, 1, 0, 6, 1, .ro⟩, ⟨0x120, 1, 0, 5, 1, .ro⟩, ⟨0x120, 1, 0, 4, 1, .ro⟩,
   ⟨0x120, 1, 0, 3, 1, .ro⟩, ⟨0x120, 1, 0, 2, 1, .ro⟩, ⟨0x120, 1, 0, 1, 1, .ro⟩,
   ⟨0x120, 1, 0, 0, 1, .ro⟩, ⟨0x124, 1, 0, 5, 1, .ro⟩, ⟨0x124, 1, 0, 4, 1, .ro⟩,
   ⟨0x124, 1, 0, 3, 1, .ro⟩, ⟨0x124, 1, 0, 2, 1, .ro⟩, ⟨0x124, 1, 0, 1, 1, .ro⟩,
   ⟨0x124, 1, 0, 0, 1, .ro⟩, ⟨0x128, 1, 0, 0, 6, .rw⟩, ⟨0x12C, 1, 0, 0, 11, .ro⟩,
   ⟨0x130, 1, 0, 24, 8, .ro⟩, ⟨0x130, 1, 0, 16, 8, .ro⟩, ⟨0x130, 1, 0, 8, 8, .ro⟩,
   ⟨0x130, 1, 0, 0, 8, .ro⟩]

def fieldsEQA5 : List FieldRow :=
  [⟨0x134, 1, 0, 24, 8, .ro⟩, ⟨0x134, 1, 0, 16, 8, .ro⟩, ⟨0x134, 1, 0, 8, 8, .ro⟩,
   ⟨0x134, 1, 0, 0, 8, .ro⟩, ⟨0x138, 1, 0, 24, 8, .ro⟩, ⟨0x138, 1, 0, 16, 8, .ro⟩,
   ⟨0x138, 1, 0, 8, 8, .ro⟩, ⟨0x138, 1, 0, 0, 8, .ro⟩, ⟨0x13C, 1, 0, 24, 8, .ro⟩,
   ⟨0x13C, 1, 0, 16, 8, .ro⟩, ⟨0x140, 1, 0, 24, 8, .ro⟩, ⟨0x140, 1, 0, 16, 8, .ro⟩,
   ⟨0x140, 1, 0, 8, 8, .ro⟩, ⟨0x140, 1, 0, 0, 7, .ro⟩, ⟨0x144, 1, 0, 8, 6, .ro⟩,
   ⟨0x144, 1, 0, 0, 6, .ro⟩, ⟨0x148, 1, 0, 0, 5, .rw⟩, ⟨0x14C, 1, 0, 30, 2, .ro⟩,
   ⟨0x14C, 1, 0, 24, 6, .ro⟩, ⟨0x14C, 1, 0, 16, 3, .ro⟩, ⟨0x150, 3, 4, 16, 16, .ro⟩,
   ⟨0x150, 3, 4, 0, 16, .ro⟩]

/-- The fields of a EQA page, from the register tables of its chapters (R496). -/
def fieldsEQA : List FieldRow := fieldsEQA0 ++ fieldsEQA1 ++ fieldsEQA2 ++ fieldsEQA3 ++ fieldsEQA4 ++ fieldsEQA5

def fieldsRGN0 : List FieldRow :=
  [⟨0x100, 1, 0, 31, 1, .ro⟩, ⟨0x100, 1, 0, 24, 2, .ro⟩, ⟨0x100, 1, 0, 16, 1, .ro⟩,
   ⟨0x100, 1, 0, 0, 10, .ro⟩, ⟨0x110, 1, 0, 31, 1, .ro⟩, ⟨0x110, 1, 0, 24, 2, .ro⟩,
   ⟨0x110, 1, 0, 0, 10, .ro⟩]

/-- The fields of a RGN page, from the register tables of its chapters (R496). -/
def fieldsRGN : List FieldRow := fieldsRGN0

def fieldsDIE0 : List FieldRow :=
  [⟨0x40, 1, 0, 20, 6, .ro⟩, ⟨0x40, 1, 0, 14, 6, .ro⟩, ⟨0x40, 1, 0, 8, 6, .ro⟩,
   ⟨0x40, 1, 0, 4, 4, .ro⟩, ⟨0x44, 1, 0, 0, 16, .ro⟩, ⟨0x48, 1, 0, 16, 16, .ro⟩,
   ⟨0x48, 1, 0, 0, 16, .ro⟩, ⟨0x4C, 1, 0, 0, 16, .ro⟩, ⟨0x50, 1, 0, 16, 16, .rw⟩,
   ⟨0x50, 1, 0, 12, 4, .rw⟩, ⟨0x50, 1, 0, 0, 12, .rw⟩, ⟨0x54, 1, 0, 19, 1, .ro⟩,
   ⟨0x54, 1, 0, 18, 1, .ro⟩, ⟨0x54, 1, 0, 17, 1, .sc⟩, ⟨0x54, 1, 0, 8, 6, .rw⟩,
   ⟨0x54, 1, 0, 0, 2, .rw⟩, ⟨0x58, 1, 0, 31, 1, .ro⟩, ⟨0x58, 1, 0, 28, 3, .ro⟩,
   ⟨0x58, 1, 0, 22, 6, .ro⟩, ⟨0x58, 1, 0, 12, 10, .ro⟩, ⟨0x58, 1, 0, 0, 8, .ro⟩,
   ⟨0x5C, 1, 0, 31, 1, .ro⟩, ⟨0x5C, 1, 0, 28, 3, .ro⟩, ⟨0x5C, 1, 0, 22, 6, .ro⟩,
   ⟨0x5C, 1, 0, 12, 10, .ro⟩, ⟨0x5C, 1, 0, 9, 1, .ro⟩, ⟨0x5C, 1, 0, 8, 1, .ro⟩,
   ⟨0x60, 1, 0, 0, 16, .rs⟩, ⟨0x64, 1, 0, 0, 1, .sc⟩, ⟨0x68, 1, 0, 16, 16, .ro⟩,
   ⟨0x68, 1, 0, 0, 16, .ro⟩, ⟨0x6C, 1, 0, 0, 32, .ro⟩, ⟨0x70, 1, 0, 16, 16, .ro⟩,
   ⟨0x70, 1, 0, 0, 16, .ro⟩, ⟨0x74, 1, 0, 16, 16, .ro⟩, ⟨0x74, 1, 0, 0, 16, .ro⟩,
   ⟨0x78, 1, 0, 16, 16, .ro⟩, ⟨0x78, 1, 0, 0, 16, .ro⟩, ⟨0x100, 33, 4, 29, 3, .ro⟩,
   ⟨0x100, 33, 4, 26, 3, .ro⟩]

def fieldsDIE1 : List FieldRow :=
  [⟨0x100, 33, 4, 25, 1, .ro⟩, ⟨0x100, 33, 4, 24, 1, .ro⟩, ⟨0x100, 33, 4, 0, 11, .ro⟩,
   ⟨0x200, 1, 0, 0, 16, .rw⟩, ⟨0x204, 5, 4, 0, 32, .ro⟩, ⟨0xE00, 1, 0, 1, 1, .w1c⟩,
   ⟨0xE00, 1, 0, 0, 1, .ro⟩, ⟨0xE04, 1, 0, 0, 32, .ro⟩, ⟨0xE08, 1, 0, 0, 32, .ro⟩,
   ⟨0xE0C, 1, 0, 0, 32, .ro⟩, ⟨0xE10, 1, 0, 0, 32, .ro⟩]

/-- The fields of a DIE page, from the register tables of its chapters (R496). -/
def fieldsDIE : List FieldRow := fieldsDIE0 ++ fieldsDIE1

def fieldsLNK0 : List FieldRow :=
  [⟨0x40, 1, 0, 28, 4, .rw⟩, ⟨0x40, 1, 0, 24, 4, .rw⟩, ⟨0x40, 1, 0, 21, 1, .rw⟩,
   ⟨0x40, 1, 0, 20, 1, .rw⟩, ⟨0x40, 1, 0, 16, 3, .rw⟩, ⟨0x40, 1, 0, 12, 3, .rw⟩,
   ⟨0x40, 1, 0, 8, 3, .rw⟩, ⟨0x40, 1, 0, 4, 3, .rw⟩, ⟨0x44, 2, 4, 24, 7, .rw⟩,
   ⟨0x44, 2, 4, 14, 10, .rw⟩, ⟨0x44, 2, 4, 0, 12, .rw⟩, ⟨0x4C, 2, 4, 20, 12, .rw⟩,
   ⟨0x4C, 2, 4, 0, 20, .rw⟩, ⟨0x54, 1, 0, 16, 16, .rw⟩, ⟨0x54, 1, 0, 0, 16, .rw⟩,
   ⟨0x58, 1, 0, 16, 16, .rw⟩, ⟨0x58, 1, 0, 0, 16, .rw⟩, ⟨0x5C, 1, 0, 16, 16, .rw⟩,
   ⟨0x5C, 1, 0, 0, 16, .rw⟩, ⟨0x60, 1, 0, 19, 1, .ro⟩, ⟨0x60, 1, 0, 18, 1, .ro⟩,
   ⟨0x60, 1, 0, 17, 1, .sc⟩, ⟨0x60, 1, 0, 0, 1, .rw⟩, ⟨0x64, 1, 0, 31, 1, .ro⟩,
   ⟨0x64, 1, 0, 30, 1, .ro⟩, ⟨0x64, 1, 0, 29, 1, .ro⟩, ⟨0x64, 1, 0, 28, 1, .ro⟩,
   ⟨0x64, 1, 0, 16, 3, .ro⟩, ⟨0x64, 1, 0, 8, 3, .ro⟩, ⟨0x68, 1, 0, 0, 20, .ro⟩,
   ⟨0x6C, 1, 0, 0, 20, .ro⟩, ⟨0x70, 1, 0, 16, 16, .ro⟩, ⟨0x70, 1, 0, 0, 16, .ro⟩,
   ⟨0x74, 1, 0, 16, 16, .ro⟩, ⟨0x74, 1, 0, 0, 16, .ro⟩, ⟨0x80, 1, 0, 28, 4, .ro⟩,
   ⟨0x80, 1, 0, 24, 4, .ro⟩, ⟨0x80, 1, 0, 21, 1, .ro⟩, ⟨0x80, 1, 0, 20, 1, .ro⟩,
   ⟨0x80, 1, 0, 16, 3, .ro⟩]

def fieldsLNK1 : List FieldRow :=
  [⟨0x80, 1, 0, 12, 3, .ro⟩, ⟨0x80, 1, 0, 8, 3, .ro⟩, ⟨0x80, 1, 0, 4, 3, .ro⟩,
   ⟨0x84, 2, 4, 24, 7, .ro⟩, ⟨0x84, 2, 4, 14, 10, .ro⟩, ⟨0x84, 2, 4, 0, 12, .ro⟩,
   ⟨0x8C, 2, 4, 20, 12, .ro⟩, ⟨0x8C, 2, 4, 0, 20, .ro⟩, ⟨0x94, 1, 0, 16, 16, .ro⟩,
   ⟨0x94, 1, 0, 0, 16, .ro⟩, ⟨0x98, 1, 0, 16, 16, .ro⟩, ⟨0x98, 1, 0, 0, 16, .ro⟩,
   ⟨0x9C, 1, 0, 16, 16, .ro⟩, ⟨0x9C, 1, 0, 0, 16, .ro⟩, ⟨0x800, 1, 0, 28, 4, .rw⟩,
   ⟨0x800, 1, 0, 16, 8, .rw⟩, ⟨0x800, 1, 0, 8, 8, .rw⟩, ⟨0x800, 1, 0, 0, 8, .rw⟩,
   ⟨0x804, 1, 0, 16, 8, .rw⟩, ⟨0x804, 1, 0, 8, 8, .rw⟩, ⟨0x804, 1, 0, 0, 8, .rw⟩,
   ⟨0x808, 1, 0, 19, 1, .ro⟩, ⟨0x808, 1, 0, 18, 1, .ro⟩, ⟨0x808, 1, 0, 17, 1, .sc⟩,
   ⟨0x808, 1, 0, 16, 1, .rw⟩, ⟨0x808, 1, 0, 8, 3, .rw⟩, ⟨0x808, 1, 0, 0, 3, .rw⟩,
   ⟨0x810, 2, 4, 28, 4, .ro⟩, ⟨0x810, 2, 4, 24, 4, .ro⟩, ⟨0x810, 2, 4, 23, 1, .ro⟩,
   ⟨0x810, 2, 4, 22, 1, .ro⟩, ⟨0x810, 2, 4, 21, 1, .ro⟩, ⟨0x810, 2, 4, 20, 1, .ro⟩,
   ⟨0x810, 2, 4, 19, 1, .ro⟩, ⟨0x810, 2, 4, 18, 1, .ro⟩, ⟨0x810, 2, 4, 17, 1, .ro⟩,
   ⟨0x810, 2, 4, 12, 5, .ro⟩, ⟨0x810, 2, 4, 8, 3, .ro⟩, ⟨0x810, 2, 4, 4, 3, .ro⟩,
   ⟨0x810, 2, 4, 0, 3, .ro⟩]

def fieldsLNK2 : List FieldRow :=
  [⟨0x818, 2, 4, 16, 16, .ro⟩, ⟨0x818, 2, 4, 0, 16, .ro⟩, ⟨0x820, 2, 4, 31, 1, .ro⟩,
   ⟨0x820, 2, 4, 30, 1, .ro⟩, ⟨0x820, 2, 4, 0, 20, .ro⟩, ⟨0x828, 1, 0, 0, 32, .ro⟩,
   ⟨0x82C, 1, 0, 0, 32, .ro⟩, ⟨0x830, 1, 0, 24, 8, .ro⟩, ⟨0x830, 1, 0, 16, 8, .ro⟩,
   ⟨0x830, 1, 0, 12, 4, .ro⟩, ⟨0x830, 1, 0, 8, 4, .ro⟩, ⟨0x830, 1, 0, 0, 8, .ro⟩,
   ⟨0x834, 1, 0, 0, 32, .ro⟩, ⟨0x900, 1, 0, 0, 16, .rs⟩, ⟨0x904, 1, 0, 0, 1, .sc⟩,
   ⟨0x908, 1, 0, 0, 32, .ro⟩, ⟨0x90C, 1, 0, 0, 32, .ro⟩, ⟨0x910, 1, 0, 0, 32, .ro⟩,
   ⟨0x914, 1, 0, 0, 32, .ro⟩, ⟨0x918, 1, 0, 0, 32, .ro⟩, ⟨0x91C, 1, 0, 0, 32, .ro⟩,
   ⟨0x920, 1, 0, 0, 32, .ro⟩, ⟨0x924, 1, 0, 0, 32, .ro⟩, ⟨0x928, 1, 0, 0, 32, .ro⟩,
   ⟨0x92C, 1, 0, 0, 32, .ro⟩, ⟨0x930, 1, 0, 0, 32, .ro⟩, ⟨0x934, 1, 0, 0, 32, .ro⟩,
   ⟨0x938, 1, 0, 16, 16, .ro⟩, ⟨0x938, 1, 0, 0, 16, .ro⟩, ⟨0x93C, 1, 0, 16, 16, .ro⟩,
   ⟨0x93C, 1, 0, 0, 16, .ro⟩, ⟨0x940, 1, 0, 16, 16, .ro⟩, ⟨0x940, 1, 0, 0, 16, .ro⟩,
   ⟨0x944, 1, 0, 16, 16, .ro⟩, ⟨0x944, 1, 0, 0, 16, .ro⟩, ⟨0xA00, 1, 0, 16, 3, .rw⟩,
   ⟨0xA00, 1, 0, 8, 8, .rw⟩, ⟨0xA00, 1, 0, 1, 1, .rw⟩, ⟨0xA00, 1, 0, 0, 1, .rw⟩,
   ⟨0xA04, 1, 0, 16, 3, .ro⟩]

def fieldsLNK3 : List FieldRow :=
  [⟨0xA04, 1, 0, 8, 8, .ro⟩, ⟨0xA04, 1, 0, 1, 1, .ro⟩, ⟨0xA04, 1, 0, 0, 1, .ro⟩,
   ⟨0xA08, 2, 4, 28, 4, .ro⟩, ⟨0xA08, 2, 4, 27, 1, .ro⟩, ⟨0xA08, 2, 4, 26, 1, .ro⟩,
   ⟨0xA08, 2, 4, 24, 2, .ro⟩, ⟨0xA08, 2, 4, 12, 12, .ro⟩, ⟨0xA08, 2, 4, 0, 12, .ro⟩,
   ⟨0xA10, 2, 4, 31, 1, .ro⟩, ⟨0xA10, 2, 4, 16, 12, .ro⟩, ⟨0xA10, 2, 4, 15, 1, .ro⟩,
   ⟨0xA10, 2, 4, 0, 12, .ro⟩, ⟨0xA18, 1, 0, 0, 16, .rs⟩, ⟨0xA1C, 1, 0, 0, 1, .sc⟩,
   ⟨0xA20, 1, 0, 0, 32, .ro⟩, ⟨0xA24, 1, 0, 0, 32, .ro⟩, ⟨0xA28, 1, 0, 0, 32, .ro⟩,
   ⟨0xA2C, 1, 0, 0, 32, .ro⟩, ⟨0xA30, 1, 0, 16, 16, .ro⟩, ⟨0xA30, 1, 0, 0, 16, .ro⟩,
   ⟨0xA34, 1, 0, 0, 32, .ro⟩, ⟨0xA38, 1, 0, 0, 32, .ro⟩, ⟨0xA3C, 1, 0, 16, 16, .ro⟩,
   ⟨0xA3C, 1, 0, 0, 16, .ro⟩, ⟨0xA40, 1, 0, 0, 32, .ro⟩, ⟨0xA44, 1, 0, 0, 32, .ro⟩,
   ⟨0xA48, 1, 0, 16, 16, .ro⟩, ⟨0xA48, 1, 0, 0, 16, .ro⟩, ⟨0xA4C, 1, 0, 16, 16, .ro⟩,
   ⟨0xA4C, 1, 0, 0, 16, .ro⟩, ⟨0xA50, 1, 0, 16, 16, .ro⟩, ⟨0xA50, 1, 0, 0, 16, .ro⟩,
   ⟨0xA54, 1, 0, 16, 16, .ro⟩, ⟨0xA54, 1, 0, 0, 16, .ro⟩, ⟨0xA58, 1, 0, 16, 16, .ro⟩,
   ⟨0xA58, 1, 0, 0, 16, .ro⟩, ⟨0xA5C, 1, 0, 16, 16, .ro⟩, ⟨0xA5C, 1, 0, 0, 16, .ro⟩,
   ⟨0xB00, 1, 0, 24, 8, .rw⟩]

def fieldsLNK4 : List FieldRow :=
  [⟨0xB00, 1, 0, 16, 4, .rw⟩, ⟨0xB00, 1, 0, 8, 8, .rw⟩, ⟨0xB00, 1, 0, 0, 1, .rw⟩,
   ⟨0xB04, 1, 0, 16, 14, .rw⟩, ⟨0xB04, 1, 0, 0, 10, .rw⟩, ⟨0xB08, 1, 0, 16, 12, .rw⟩,
   ⟨0xB08, 1, 0, 0, 12, .rw⟩, ⟨0xB0C, 1, 0, 0, 32, .rw⟩, ⟨0xB20, 1, 0, 24, 8, .ro⟩,
   ⟨0xB20, 1, 0, 16, 4, .ro⟩, ⟨0xB20, 1, 0, 8, 8, .ro⟩, ⟨0xB20, 1, 0, 0, 1, .ro⟩,
   ⟨0xB24, 1, 0, 16, 14, .ro⟩, ⟨0xB24, 1, 0, 0, 10, .ro⟩, ⟨0xB28, 1, 0, 16, 12, .ro⟩,
   ⟨0xB28, 1, 0, 0, 12, .ro⟩, ⟨0xB2C, 1, 0, 0, 32, .ro⟩, ⟨0xB34, 1, 0, 31, 1, .ro⟩,
   ⟨0xB34, 1, 0, 30, 1, .ro⟩, ⟨0xB34, 1, 0, 26, 4, .ro⟩, ⟨0xB34, 1, 0, 0, 14, .ro⟩,
   ⟨0xB38, 1, 0, 16, 16, .ro⟩, ⟨0xB38, 1, 0, 0, 16, .ro⟩, ⟨0xB3C, 1, 0, 31, 1, .ro⟩,
   ⟨0xB3C, 1, 0, 16, 12, .ro⟩, ⟨0xB3C, 1, 0, 15, 1, .ro⟩, ⟨0xB3C, 1, 0, 0, 12, .ro⟩,
   ⟨0xB40, 1, 0, 0, 32, .ro⟩, ⟨0xB44, 1, 0, 0, 32, .ro⟩, ⟨0xB48, 1, 0, 0, 32, .ro⟩,
   ⟨0xB4C, 1, 0, 0, 32, .ro⟩, ⟨0xB50, 1, 0, 31, 1, .ro⟩, ⟨0xB50, 1, 0, 0, 20, .ro⟩,
   ⟨0xB54, 1, 0, 0, 16, .rs⟩, ⟨0xB58, 1, 0, 0, 1, .sc⟩, ⟨0xB5C, 1, 0, 0, 32, .ro⟩,
   ⟨0xB60, 1, 0, 0, 32, .ro⟩, ⟨0xB64, 1, 0, 0, 32, .ro⟩, ⟨0xB68, 1, 0, 0, 32, .ro⟩,
   ⟨0xB6C, 1, 0, 0, 32, .ro⟩]

def fieldsLNK5 : List FieldRow :=
  [⟨0xB70, 1, 0, 16, 16, .ro⟩, ⟨0xB70, 1, 0, 0, 16, .ro⟩, ⟨0xB74, 1, 0, 16, 16, .ro⟩,
   ⟨0xB74, 1, 0, 0, 16, .ro⟩, ⟨0xB78, 1, 0, 16, 16, .ro⟩, ⟨0xB78, 1, 0, 0, 16, .ro⟩,
   ⟨0xB7C, 1, 0, 16, 16, .ro⟩, ⟨0xB7C, 1, 0, 0, 16, .ro⟩, ⟨0xB80, 1, 0, 0, 32, .ro⟩,
   ⟨0xB84, 1, 0, 16, 16, .ro⟩, ⟨0xB84, 1, 0, 0, 16, .ro⟩]

/-- The fields of a LNK page, from the register tables of its chapters (R496). -/
def fieldsLNK : List FieldRow := fieldsLNK0 ++ fieldsLNK1 ++ fieldsLNK2 ++ fieldsLNK3 ++ fieldsLNK4 ++ fieldsLNK5

def fieldsLLT0 : List FieldRow :=
  [⟨0x40, 1, 0, 16, 1, .rw⟩, ⟨0x40, 1, 0, 0, 7, .rw⟩, ⟨0x44, 1, 0, 30, 2, .ro⟩,
   ⟨0x44, 1, 0, 29, 1, .ro⟩, ⟨0x44, 1, 0, 24, 4, .ro⟩, ⟨0x44, 1, 0, 0, 16, .ro⟩,
   ⟨0x48, 8, 4, 0, 32, .rw⟩, ⟨0x68, 1, 0, 31, 1, .ro⟩, ⟨0x68, 1, 0, 16, 12, .ro⟩,
   ⟨0x68, 1, 0, 15, 1, .ro⟩, ⟨0x68, 1, 0, 0, 12, .ro⟩, ⟨0x6C, 1, 0, 28, 4, .ro⟩,
   ⟨0x6C, 1, 0, 27, 1, .ro⟩, ⟨0x6C, 1, 0, 0, 12, .ro⟩, ⟨0x70, 1, 0, 31, 1, .ro⟩,
   ⟨0x70, 1, 0, 16, 12, .ro⟩, ⟨0x70, 1, 0, 15, 1, .ro⟩, ⟨0x70, 1, 0, 0, 12, .ro⟩,
   ⟨0x74, 1, 0, 0, 16, .rs⟩, ⟨0x78, 1, 0, 0, 1, .sc⟩, ⟨0x7C, 1, 0, 0, 32, .ro⟩,
   ⟨0x80, 1, 0, 0, 32, .ro⟩, ⟨0x84, 1, 0, 16, 16, .ro⟩, ⟨0x84, 1, 0, 0, 16, .ro⟩,
   ⟨0x88, 1, 0, 0, 32, .ro⟩, ⟨0x8C, 1, 0, 16, 16, .ro⟩, ⟨0x8C, 1, 0, 0, 16, .ro⟩,
   ⟨0x90, 1, 0, 0, 32, .ro⟩, ⟨0x94, 1, 0, 31, 1, .ro⟩, ⟨0x94, 1, 0, 0, 10, .ro⟩]

/-- The fields of a LLT page, from the register tables of its chapters (R496). -/
def fieldsLLT : List FieldRow := fieldsLLT0

def fieldsCAL0 : List FieldRow :=
  [⟨0x40, 1, 0, 16, 1, .rw⟩, ⟨0x40, 1, 0, 8, 1, .rw⟩, ⟨0x40, 1, 0, 0, 8, .rw⟩,
   ⟨0x44, 1, 0, 0, 32, .rw⟩, ⟨0x48, 1, 0, 31, 1, .ro⟩, ⟨0x48, 1, 0, 24, 4, .ro⟩,
   ⟨0x80, 2, 64, 31, 1, .rw⟩, ⟨0x80, 2, 64, 30, 1, .rw⟩, ⟨0x80, 2, 64, 16, 8, .rw⟩,
   ⟨0x80, 2, 64, 8, 1, .rw⟩, ⟨0x80, 2, 64, 0, 7, .rw⟩, ⟨0x84, 2, 64, 24, 8, .rw⟩,
   ⟨0x84, 2, 64, 16, 4, .rw⟩, ⟨0x84, 2, 64, 8, 8, .rw⟩, ⟨0x88, 2, 64, 16, 14, .rw⟩,
   ⟨0x8C, 2, 64, 31, 1, .ro⟩, ⟨0x8C, 2, 64, 30, 1, .ro⟩, ⟨0x8C, 2, 64, 29, 1, .ro⟩,
   ⟨0x8C, 2, 64, 25, 4, .ro⟩, ⟨0x8C, 2, 64, 16, 8, .ro⟩, ⟨0x8C, 2, 64, 8, 5, .ro⟩,
   ⟨0x90, 2, 64, 16, 16, .ro⟩, ⟨0x90, 2, 64, 0, 16, .ro⟩, ⟨0x94, 2, 64, 0, 14, .ro⟩,
   ⟨0x98, 2, 64, 31, 1, .ro⟩, ⟨0x98, 2, 64, 28, 2, .ro⟩, ⟨0x98, 2, 64, 16, 8, .ro⟩,
   ⟨0x98, 2, 64, 0, 10, .ro⟩, ⟨0x9C, 2, 64, 0, 16, .rs⟩, ⟨0xA0, 2, 64, 0, 1, .sc⟩,
   ⟨0xA4, 2, 64, 0, 32, .ro⟩, ⟨0xA8, 2, 64, 16, 16, .ro⟩, ⟨0xA8, 2, 64, 0, 16, .ro⟩,
   ⟨0xAC, 2, 64, 16, 16, .ro⟩, ⟨0xAC, 2, 64, 0, 16, .ro⟩, ⟨0xB0, 2, 64, 16, 16, .ro⟩,
   ⟨0xB0, 2, 64, 0, 16, .ro⟩, ⟨0xB4, 2, 64, 0, 32, .ro⟩, ⟨0xB8, 2, 64, 16, 16, .ro⟩,
   ⟨0xB8, 2, 64, 0, 16, .ro⟩]

def fieldsCAL1 : List FieldRow :=
  [⟨0xBC, 2, 64, 24, 8, .ro⟩, ⟨0xBC, 2, 64, 16, 8, .ro⟩, ⟨0xBC, 2, 64, 0, 16, .ro⟩]

/-- The fields of a CAL page, from the register tables of its chapters (R496). -/
def fieldsCAL : List FieldRow := fieldsCAL0 ++ fieldsCAL1

def fieldsQST0 : List FieldRow :=
  [⟨0x40, 1, 0, 0, 15, .rw⟩, ⟨0x44, 1, 0, 31, 1, .ro⟩, ⟨0x44, 1, 0, 30, 1, .ro⟩,
   ⟨0x44, 1, 0, 0, 16, .ro⟩, ⟨0x48, 1, 0, 0, 16, .ro⟩, ⟨0x4C, 1, 0, 0, 18, .ro⟩,
   ⟨0x50, 1, 0, 0, 32, .ro⟩]

/-- The fields of a QST page, from the register tables of its chapters (R496). -/
def fieldsQST : List FieldRow := fieldsQST0

/-- The fields of the common header of every page (R485, R346, R478). -/
def fieldsHeader : List FieldRow :=
  [⟨8, 1, 0, 2, 1, .ro⟩, ⟨8, 1, 0, 0, 1, .rw⟩, ⟨0xC, 1, 0, 1, 1, .ro⟩, ⟨0xC, 1, 0, 0, 1, .sc⟩]

/-- EVENT_RAW, EVENT_PEND and EVENT_EN of the pages that assign bits there (R489): RGN bits 0-2 and 8-10, DIE bits
0-5. -/
def fieldsEvent : Blk → List FieldRow
  | .rgn => [0, 1, 2, 8, 9, 10].flatMap fun k => [⟨0x14, 1, 0, k, 1, .ro⟩, ⟨0x18, 1, 0, k, 1, .w1c⟩, ⟨0x1C, 1, 0, k, 1, .rw⟩]
  | .die => [0, 1, 2, 3, 4, 5].flatMap fun k => [⟨0x14, 1, 0, k, 1, .ro⟩, ⟨0x18, 1, 0, k, 1, .w1c⟩, ⟨0x1C, 1, 0, k, 1, .rw⟩]
  | _ => []

/-- Every field row of a block's pages. -/
def fieldRows : Blk → List FieldRow
  | .glb => fieldsGLB
  | .clk => fieldsCLK
  | .pwr => fieldsPWR
  | .tmp => fieldsTMP
  | .int => fieldsINT
  | .intf => fieldsINTF
  | .ints => fieldsINTS
  | .bst => fieldsBST
  | .sec => fieldsSEC
  | .hst => fieldsHST
  | .pct => fieldsPCT
  | .sel => fieldsSEL
  | .prk => fieldsPRK
  | .map => fieldsMAP
  | .fmc => fieldsFMC
  | .clu => fieldsCLU
  | .eqa => fieldsEQA
  | .rgn => fieldsRGN
  | .die => fieldsDIE
  | .lnk => fieldsLNK
  | .llt => fieldsLLT
  | .cal => fieldsCAL
  | .qst => fieldsQST
  | .vLb => fieldsBST
  | .vPre => fieldsEQA
  | .vLlStaged | .vLlLive => fieldsLLT
  | .vCalStaged | .vCalLive => fieldsCAL

/-- Does the row hold a register at this offset? -/
def FieldRow.covers (off : Nat) (r : FieldRow) : Bool :=
  r.off ≤ off && (if r.stride = 0 then off = r.off else (off - r.off) % r.stride = 0 && (off - r.off) / r.stride < r.count)

/-- The fields of the register at an offset of a block's page. -/
def regFields (b : Blk) (off : Nat) : List FieldRow :=
  if off < 0x40 then (fieldsHeader ++ fieldsEvent b).filter (FieldRow.covers off)
  else (fieldRows b).filter (FieldRow.covers off)

namespace R

/-- CLK_EN, SOFT_RESET and the event registers of a page (R485). -/
def CLK_EN_en (page : Nat) : Fld := ⟨4096 * page + 8, 0, 1⟩
def CLK_EN_refused (page : Nat) : Fld := ⟨4096 * page + 8, 2, 1⟩
def SOFT_RESET_busy (page : Nat) : Fld := ⟨4096 * page + 0xC, 1, 1⟩
def EVENT_RAW (page k : Nat) : Fld := ⟨4096 * page + 0x14, k, 1⟩
def EVENT_PEND (page k : Nat) : Fld := ⟨4096 * page + 0x18, k, 1⟩
def EVENT_EN (page k : Nat) : Fld := ⟨4096 * page + 0x1C, k, 1⟩
/-- The bank blocks of INT (page 4) and INTF (page 5), for class `cl` and target `t` (R434). -/
def BANK_serving (cl t : Nat) : Fld := ⟨0x4048 + 4096 * cl + 16 * t, 31, 1⟩
def BANK_none_why (cl t : Nat) : Fld := ⟨0x4048 + 4096 * cl + 16 * t, 28, 2⟩
def BANK_ring (cl t : Nat) : Fld := ⟨0x4048 + 4096 * cl + 16 * t, 12, 3⟩
def BANK_source (cl t : Nat) : Fld := ⟨0x4048 + 4096 * cl + 16 * t, 0, 10⟩
def RATE_STAT_rate (u d : Nat) : Fld := ⟨0x10040 + 4096 * u, 0 + 4 * d, 3⟩
def SD_CFG_sd_level (u : Nat) : Fld := ⟨0x10044 + 4096 * u, 8, 2⟩
def SD_CFG_los_time (u : Nat) : Fld := ⟨0x10044 + 4096 * u, 0, 8⟩
def LOCK_CFG_acq_commas (u : Nat) : Fld := ⟨0x10048 + 4096 * u, 16, 4⟩
def LOCK_CFG_lol_win (u : Nat) : Fld := ⟨0x10048 + 4096 * u, 8, 4⟩
def LOCK_CFG_lol_bad (u : Nat) : Fld := ⟨0x10048 + 4096 * u, 0, 8⟩
def ORDER_CFG_rev (u d : Nat) : Fld := ⟨0x1004C + 4096 * u, 8 + 1 * d, 1⟩
def ORDER_CFG_order_auto (u d : Nat) : Fld := ⟨0x1004C + 4096 * u, 4 + 1 * d, 1⟩
def ORDER_CFG_order_tx (u d : Nat) : Fld := ⟨0x1004C + 4096 * u, 0 + 2 * d, 2⟩
def TERM_CMD_refused (u : Nat) : Fld := ⟨0x10050 + 4096 * u, 18, 1⟩
def TERM_CMD_busy (u : Nat) : Fld := ⟨0x10050 + 4096 * u, 17, 1⟩
def TERM_CMD_go (u : Nat) : Fld := ⟨0x10050 + 4096 * u, 16, 1⟩
def TERM_CMD_side_b (u : Nat) : Fld := ⟨0x10050 + 4096 * u, 10, 1⟩
def TERM_CMD_side_a (u : Nat) : Fld := ⟨0x10050 + 4096 * u, 9, 1⟩
def TERM_CMD_lane_mask (u : Nat) : Fld := ⟨0x10050 + 4096 * u, 0, 9⟩
def CNT_SNAP_set_disagree (u : Nat) : Fld := ⟨0x10054 + 4096 * u, 16, 16⟩
def CNT_SNAP_snap_no (u : Nat) : Fld := ⟨0x10054 + 4096 * u, 0, 16⟩
def CNT_CTL_clear (u : Nat) : Fld := ⟨0x10058 + 4096 * u, 0, 1⟩
def LE_CFG_tx_pol (u j d : Nat) : Fld := ⟨0x10080 + 4096 * u + 64 * j, 2 + 4 * d, 1⟩
def LE_CFG_rx_pol_force (u j d : Nat) : Fld := ⟨0x10080 + 4096 * u + 64 * j, 1 + 4 * d, 1⟩
def LE_CFG_rx_pol_auto (u j d : Nat) : Fld := ⟨0x10080 + 4096 * u + 64 * j, 0 + 4 * d, 1⟩
def LE_STAT_idle (u j d : Nat) : Fld := ⟨0x10084 + 4096 * u + 64 * j, 5 + 8 * d, 1⟩
def LE_STAT_rx_inv (u j d : Nat) : Fld := ⟨0x10084 + 4096 * u + 64 * j, 4 + 8 * d, 1⟩
def LE_STAT_lock (u j d : Nat) : Fld := ⟨0x10084 + 4096 * u + 64 * j, 2 + 8 * d, 2⟩
def LE_STAT_term (u j d : Nat) : Fld := ⟨0x10084 + 4096 * u + 64 * j, 1 + 8 * d, 1⟩
def LE_STAT_sd (u j d : Nat) : Fld := ⟨0x10084 + 4096 * u + 64 * j, 0 + 8 * d, 1⟩
def LE_FAULT_rx_open (u j d : Nat) : Fld := ⟨0x10088 + 4096 * u + 64 * j, 3 + 4 * d, 1⟩
def LE_FAULT_tx_fault (u j d : Nat) : Fld := ⟨0x10088 + 4096 * u + 64 * j, 0 + 4 * d, 3⟩
def LANE_NUM_num_valid (u j d : Nat) : Fld := ⟨0x1008C + 4096 * u + 64 * j, 4 + 8 * d, 1⟩
def LANE_NUM_num (u j d : Nat) : Fld := ⟨0x1008C + 4096 * u + 64 * j, 0 + 8 * d, 4⟩
def BAL_valid (u j d : Nat) : Fld := ⟨0x100A8 + 4096 * u + 64 * j + 4 * d, 31, 1⟩
def BAL_min_level (u j d : Nat) : Fld := ⟨0x100A8 + 4096 * u + 64 * j + 4 * d, 18, 2⟩
def BAL_max_level (u j d : Nat) : Fld := ⟨0x100A8 + 4096 * u + 64 * j + 4 * d, 16, 2⟩
def BAL_imbalance (u j d : Nat) : Fld := ⟨0x100A8 + 4096 * u + 64 * j + 4 * d, 0, 13⟩
def CK_CFG_borrow_en (u d : Nat) : Fld := ⟨0x10300 + 4096 * u, 2 + 16 * d, 1⟩
def CK_CFG_standby (u d : Nat) : Fld := ⟨0x10300 + 4096 * u, 1 + 16 * d, 1⟩
def CK_CFG_fallback (u d : Nat) : Fld := ⟨0x10300 + 4096 * u, 0 + 16 * d, 1⟩
def CK_STAT_tx_dense (u d : Nat) : Fld := ⟨0x10304 + 4096 * u, 12 + 16 * d, 1⟩
def CK_STAT_dense_rx (u d : Nat) : Fld := ⟨0x10304 + 4096 * u, 11 + 16 * d, 1⟩
def CK_STAT_dense_req (u d : Nat) : Fld := ⟨0x10304 + 4096 * u, 10 + 16 * d, 1⟩
def CK_STAT_ckl_inv (u d : Nat) : Fld := ⟨0x10304 + 4096 * u, 9 + 16 * d, 1⟩
def CK_STAT_ckl_ok (u d : Nat) : Fld := ⟨0x10304 + 4096 * u, 8 + 16 * d, 1⟩
def CK_STAT_lent (u d : Nat) : Fld := ⟨0x10304 + 4096 * u, 7 + 16 * d, 1⟩
def CK_STAT_borrowed (u d : Nat) : Fld := ⟨0x10304 + 4096 * u, 6 + 16 * d, 1⟩
def CK_STAT_own_lock (u d : Nat) : Fld := ⟨0x10304 + 4096 * u, 5 + 16 * d, 1⟩
def CK_STAT_pll_lock (u d : Nat) : Fld := ⟨0x10304 + 4096 * u, 4 + 16 * d, 1⟩
def CK_STAT_ref (u d : Nat) : Fld := ⟨0x10304 + 4096 * u, 2 + 16 * d, 2⟩
def CK_STAT_mode (u d : Nat) : Fld := ⟨0x10304 + 4096 * u, 0 + 16 * d, 2⟩
def CK_CMD_refused (u : Nat) : Fld := ⟨0x10308 + 4096 * u, 19, 1⟩
def CK_CMD_busy (u : Nat) : Fld := ⟨0x10308 + 4096 * u, 18, 1⟩
def CK_CMD_go (u : Nat) : Fld := ⟨0x10308 + 4096 * u, 17, 1⟩
def CK_CMD_dir (u : Nat) : Fld := ⟨0x10308 + 4096 * u, 16, 1⟩
def CK_CMD_op (u : Nat) : Fld := ⟨0x10308 + 4096 * u, 0, 2⟩
def CK_DET_ckl_level (u : Nat) : Fld := ⟨0x1030C + 4096 * u, 16, 2⟩
def CK_DET_ppm_tol (u : Nat) : Fld := ⟨0x1030C + 4096 * u, 0, 8⟩
def EB_STAT_fill (u d : Nat) : Fld := ⟨0x10310 + 4096 * u, 0 + 16 * d, 6⟩
def SKP_del (u d : Nat) : Fld := ⟨0x10314 + 4096 * u + 4 * d, 16, 16⟩
def SKP_add (u d : Nat) : Fld := ⟨0x10314 + 4096 * u + 4 * d, 0, 16⟩
def CK_EVT_borrows (u d : Nat) : Fld := ⟨0x1031C + 4096 * u, 8 + 16 * d, 8⟩
def CK_EVT_switches (u d : Nat) : Fld := ⟨0x1031C + 4096 * u, 0 + 16 * d, 8⟩
def EB_ERR (u d : Nat) : Fld := ⟨0x10320 + 4096 * u, 0 + 16 * d, 16⟩
def DSK_MISS (u d : Nat) : Fld := ⟨0x10324 + 4096 * u, 0 + 16 * d, 16⟩
def DSKW_valid (u j d : Nat) : Fld := ⟨0x10340 + 4096 * u + 4 * j, 7 + 16 * d, 1⟩
def DSKW_skew (u j d : Nat) : Fld := ⟨0x10340 + 4096 * u + 4 * j, 0 + 16 * d, 7⟩
def ADAPT_CFG_oor_visits (u : Nat) : Fld := ⟨0x20040 + 4096 * u, 24, 4⟩
def ADAPT_CFG_acq_max (u : Nat) : Fld := ⟨0x20040 + 4096 * u, 16, 5⟩
def ADAPT_CFG_visit_len (u : Nat) : Fld := ⟨0x20040 + 4096 * u, 8, 4⟩
def ADAPT_CFG_mu (u : Nat) : Fld := ⟨0x20040 + 4096 * u, 2, 2⟩
def ADAPT_CFG_enable (u : Nat) : Fld := ⟨0x20040 + 4096 * u, 0, 1⟩
def MSE_LIMIT_mse_limit (u : Nat) : Fld := ⟨0x20044 + 4096 * u, 0, 16⟩
def ADAPT_CMD_refused (u : Nat) : Fld := ⟨0x20048 + 4096 * u, 19, 1⟩
def ADAPT_CMD_busy (u : Nat) : Fld := ⟨0x20048 + 4096 * u, 18, 1⟩
def ADAPT_CMD_go (u : Nat) : Fld := ⟨0x20048 + 4096 * u, 17, 1⟩
def ADAPT_CMD_side (u : Nat) : Fld := ⟨0x20048 + 4096 * u, 16, 1⟩
def ADAPT_CMD_pos (u : Nat) : Fld := ⟨0x20048 + 4096 * u, 8, 4⟩
def ADAPT_CMD_op (u : Nat) : Fld := ⟨0x20048 + 4096 * u, 0, 2⟩
def ADAPT_STAT_preset_fault (u : Nat) : Fld := ⟨0x2004C + 4096 * u, 8, 1⟩
def ADAPT_STAT_activity (u : Nat) : Fld := ⟨0x2004C + 4096 * u, 6, 2⟩
def ADAPT_STAT_cur_side (u : Nat) : Fld := ⟨0x2004C + 4096 * u, 5, 1⟩
def ADAPT_STAT_cur_pos (u : Nat) : Fld := ⟨0x2004C + 4096 * u, 0, 4⟩
def PRESET_SEL_rung (u : Nat) : Fld := ⟨0x2005C + 4096 * u, 8, 3⟩
def PRESET_SEL_pos (u : Nat) : Fld := ⟨0x2005C + 4096 * u, 0, 4⟩
def PRESET_TX0_pre2 (v d : Nat) : Fld := ⟨4096 * v + 0x60 + 8 * d, 24, 8⟩
def PRESET_TX0_pre1 (v d : Nat) : Fld := ⟨4096 * v + 0x60 + 8 * d, 16, 8⟩
def PRESET_TX0_main (v d : Nat) : Fld := ⟨4096 * v + 0x60 + 8 * d, 8, 8⟩
def PRESET_TX0_post1 (v d : Nat) : Fld := ⟨4096 * v + 0x60 + 8 * d, 0, 8⟩
def PRESET_TX1_post2 (v d : Nat) : Fld := ⟨4096 * v + 0x64 + 8 * d, 24, 8⟩
def PRESET_TX1_post3 (v d : Nat) : Fld := ⟨4096 * v + 0x64 + 8 * d, 16, 8⟩
def PRESET_RX_ctle (v d : Nat) : Fld := ⟨4096 * v + 0x70, 8 + 16 * d, 5⟩
def PRESET_RX_vga (v d : Nat) : Fld := ⟨4096 * v + 0x70, 0 + 16 * d, 4⟩
def DFE_SEL_side (u : Nat) : Fld := ⟨0x20074 + 4096 * u, 8, 1⟩
def DFE_SEL_pos (u : Nat) : Fld := ⟨0x20074 + 4096 * u, 0, 4⟩
def DFE_H0_tap0 (u : Nat) : Fld := ⟨0x20078 + 4096 * u, 24, 8⟩
def DFE_H1_tap0 (u : Nat) : Fld := ⟨0x2007C + 4096 * u, 24, 8⟩
def DFE_H2_tap0 (u : Nat) : Fld := ⟨0x20080 + 4096 * u, 24, 8⟩
def DFE_H0_tap1 (u : Nat) : Fld := ⟨0x20078 + 4096 * u, 16, 8⟩
def DFE_H1_tap1 (u : Nat) : Fld := ⟨0x2007C + 4096 * u, 16, 8⟩
def DFE_H2_tap1 (u : Nat) : Fld := ⟨0x20080 + 4096 * u, 16, 8⟩
def DFE_H0_tap2 (u : Nat) : Fld := ⟨0x20078 + 4096 * u, 8, 8⟩
def DFE_H1_tap2 (u : Nat) : Fld := ⟨0x2007C + 4096 * u, 8, 8⟩
def DFE_H2_tap2 (u : Nat) : Fld := ⟨0x20080 + 4096 * u, 8, 8⟩
def DFE_H0_tap3 (u : Nat) : Fld := ⟨0x20078 + 4096 * u, 0, 8⟩
def DFE_H1_tap3 (u : Nat) : Fld := ⟨0x2007C + 4096 * u, 0, 8⟩
def DFE_H2_tap3 (u : Nat) : Fld := ⟨0x20080 + 4096 * u, 0, 8⟩
def DFE_FLT_f1_pos (u : Nat) : Fld := ⟨0x20084 + 4096 * u, 24, 6⟩
def DFE_FLT_f1 (u : Nat) : Fld := ⟨0x20084 + 4096 * u, 16, 8⟩
def DFE_FLT_f2_pos (u : Nat) : Fld := ⟨0x20084 + 4096 * u, 8, 6⟩
def DFE_FLT_f2 (u : Nat) : Fld := ⟨0x20084 + 4096 * u, 0, 8⟩
def DFE_THR_t_high (u : Nat) : Fld := ⟨0x20088 + 4096 * u, 16, 8⟩
def DFE_THR_t_mid (u : Nat) : Fld := ⟨0x20088 + 4096 * u, 8, 8⟩
def DFE_THR_t_low (u : Nat) : Fld := ⟨0x20088 + 4096 * u, 0, 8⟩
def DFE_MSE_valid (u : Nat) : Fld := ⟨0x2008C + 4096 * u, 31, 1⟩
def DFE_MSE_rung (u : Nat) : Fld := ⟨0x2008C + 4096 * u, 17, 3⟩
def DFE_MSE_at_limit (u : Nat) : Fld := ⟨0x2008C + 4096 * u, 16, 1⟩
def DFE_MSE_mse (u : Nat) : Fld := ⟨0x2008C + 4096 * u, 0, 16⟩
def ADAPT_CNT_acq_fail (u : Nat) : Fld := ⟨0x20090 + 4096 * u, 16, 16⟩
def ADAPT_CNT_skipped (u : Nat) : Fld := ⟨0x20090 + 4096 * u, 0, 16⟩
def BT_STAT_loading : Fld := ⟨0xE040, 16, 1⟩
def BT_STAT_image : Fld := ⟨0xE040, 8, 2⟩
def BT_STAT_primary_result : Fld := ⟨0xE040, 4, 4⟩
def BT_STAT_result : Fld := ⟨0xE040, 0, 4⟩
def BT_DETAIL_section : Fld := ⟨0xE044, 16, 16⟩
def BT_DETAIL_index : Fld := ⟨0xE044, 0, 16⟩
def BT_CMD_refused : Fld := ⟨0xE048, 18, 1⟩
def BT_CMD_busy : Fld := ⟨0xE048, 17, 1⟩
def BT_CMD_go : Fld := ⟨0xE048, 16, 1⟩
def BT_SERIAL_serial : Fld := ⟨0xE04C, 0, 32⟩
def BT_LEN_total_len : Fld := ⟨0xE050, 0, 32⟩
def FC_CTL_refused : Fld := ⟨0xE054, 26, 1⟩
def FC_CTL_busy : Fld := ⟨0xE054, 25, 1⟩
def FC_CTL_go : Fld := ⟨0xE054, 24, 1⟩
def FC_CTL_len : Fld := ⟨0xE054, 16, 7⟩
def FC_CTL_quad : Fld := ⟨0xE054, 15, 1⟩
def FC_CTL_dir : Fld := ⟨0xE054, 14, 1⟩
def FC_CTL_dummy : Fld := ⟨0xE054, 10, 4⟩
def FC_CTL_addr_bytes : Fld := ⟨0xE054, 8, 2⟩
def FC_CTL_opcode : Fld := ⟨0xE054, 0, 8⟩
def FC_ADDR_addr : Fld := ⟨0xE058, 0, 24⟩
def FC_DATA_data (j : Nat) : Fld := ⟨0xE060 + 4 * j, 0, 32⟩
def TRN_CFG_dwell (u : Nat) : Fld := ⟨0x40800 + 4096 * u, 28, 4⟩
def TRN_CFG_q_bad (u : Nat) : Fld := ⟨0x40800 + 4096 * u, 16, 8⟩
def TRN_CFG_switch_idle (u : Nat) : Fld := ⟨0x40800 + 4096 * u, 8, 8⟩
def TRN_CFG_cap_settle (u : Nat) : Fld := ⟨0x40800 + 4096 * u, 0, 8⟩
def TRN_TMR_retrain_max (u : Nat) : Fld := ⟨0x40804 + 4096 * u, 16, 8⟩
def TRN_TMR_rung_max (u : Nat) : Fld := ⟨0x40804 + 4096 * u, 8, 8⟩
def TRN_TMR_train_max (u : Nat) : Fld := ⟨0x40804 + 4096 * u, 0, 8⟩
def TRN_CMD_refused (u : Nat) : Fld := ⟨0x40808 + 4096 * u, 19, 1⟩
def TRN_CMD_busy (u : Nat) : Fld := ⟨0x40808 + 4096 * u, 18, 1⟩
def TRN_CMD_go (u : Nat) : Fld := ⟨0x40808 + 4096 * u, 17, 1⟩
def TRN_CMD_side (u : Nat) : Fld := ⟨0x40808 + 4096 * u, 16, 1⟩
def TRN_CMD_rung (u : Nat) : Fld := ⟨0x40808 + 4096 * u, 8, 3⟩
def TRN_CMD_op (u : Nat) : Fld := ⟨0x40808 + 4096 * u, 0, 3⟩
def SPAN_STAT_state (u j : Nat) : Fld := ⟨0x40810 + 4096 * u + 4 * j, 28, 4⟩
def SPAN_STAT_fault (u j : Nat) : Fld := ⟨0x40810 + 4096 * u + 4 * j, 24, 4⟩
def SPAN_STAT_up (u j : Nat) : Fld := ⟨0x40810 + 4096 * u + 4 * j, 23, 1⟩
def SPAN_STAT_retraining (u j : Nat) : Fld := ⟨0x40810 + 4096 * u + 4 * j, 22, 1⟩
def SPAN_STAT_leader (u j : Nat) : Fld := ⟨0x40810 + 4096 * u + 4 * j, 21, 1⟩
def SPAN_STAT_nbr_peer (u j : Nat) : Fld := ⟨0x40810 + 4096 * u + 4 * j, 20, 1⟩
def SPAN_STAT_nbr_trunk (u j : Nat) : Fld := ⟨0x40810 + 4096 * u + 4 * j, 19, 1⟩
def SPAN_STAT_blind (u j : Nat) : Fld := ⟨0x40810 + 4096 * u + 4 * j, 18, 1⟩
def SPAN_STAT_nbr_blind (u j : Nat) : Fld := ⟨0x40810 + 4096 * u + 4 * j, 17, 1⟩
def SPAN_STAT_failed (u j : Nat) : Fld := ⟨0x40810 + 4096 * u + 4 * j, 12, 5⟩
def SPAN_STAT_rung (u j : Nat) : Fld := ⟨0x40810 + 4096 * u + 4 * j, 8, 3⟩
def SPAN_STAT_nbr_max (u j : Nat) : Fld := ⟨0x40810 + 4096 * u + 4 * j, 4, 3⟩
def SPAN_STAT_width (u j : Nat) : Fld := ⟨0x40810 + 4096 * u + 4 * j, 0, 3⟩
def SPAN_NBR_in_elect (u j : Nat) : Fld := ⟨0x40818 + 4096 * u + 4 * j, 16, 16⟩
def SPAN_NBR_adv_elect (u j : Nat) : Fld := ⟨0x40818 + 4096 * u + 4 * j, 0, 16⟩
def RTT_valid (u j : Nat) : Fld := ⟨0x40820 + 4096 * u + 4 * j, 31, 1⟩
def RTT_over (u j : Nat) : Fld := ⟨0x40820 + 4096 * u + 4 * j, 30, 1⟩
def RTT_rtt (u j : Nat) : Fld := ⟨0x40820 + 4096 * u + 4 * j, 0, 20⟩
def UP_TIME_LO_time (u : Nat) : Fld := ⟨0x40828 + 4096 * u, 0, 32⟩
def UP_TIME_HI_time (u : Nat) : Fld := ⟨0x4082C + 4096 * u, 0, 32⟩
def TRN_CNT_downs (u : Nat) : Fld := ⟨0x40830 + 4096 * u, 24, 8⟩
def TRN_CNT_retrains (u : Nat) : Fld := ⟨0x40830 + 4096 * u, 16, 8⟩
def TRN_CNT_fallbacks (u : Nat) : Fld := ⟨0x40830 + 4096 * u, 12, 4⟩
def TRN_CNT_collisions (u : Nat) : Fld := ⟨0x40830 + 4096 * u, 8, 4⟩
def TRN_CNT_bad_kind (u : Nat) : Fld := ⟨0x40830 + 4096 * u, 0, 8⟩
def TRN_DROP_drop (u : Nat) : Fld := ⟨0x40834 + 4096 * u, 0, 32⟩
def FLT_SNAP_snap_no (u : Nat) : Fld := ⟨0x40900 + 4096 * u, 0, 16⟩
def FLT_CLR_clear (u : Nat) : Fld := ⟨0x40904 + 4096 * u, 0, 1⟩
def GOOD_LO (u d : Nat) : Fld := ⟨0x40908 + 4096 * u + 8 * d, 0, 32⟩
def GOOD_HI (u d : Nat) : Fld := ⟨0x4090C + 4096 * u + 8 * d, 0, 32⟩
def POISON (u d : Nat) : Fld := ⟨0x40918 + 4096 * u + 4 * d, 0, 32⟩
def BADSYM (u d : Nat) : Fld := ⟨0x40920 + 4096 * u + 4 * d, 0, 32⟩
def BADIN (u d : Nat) : Fld := ⟨0x40928 + 4096 * u + 4 * d, 0, 32⟩
def BADPAR (u d : Nat) : Fld := ⟨0x40930 + 4096 * u + 4 * d, 0, 32⟩
def OVR (u d : Nat) : Fld := ⟨0x40938 + 4096 * u, 0 + 16 * d, 16⟩
def ACK_SUP (u d : Nat) : Fld := ⟨0x4093C + 4096 * u, 0 + 16 * d, 16⟩
def LLW_NZ (u d : Nat) : Fld := ⟨0x40940 + 4096 * u, 0 + 16 * d, 16⟩
def TYPEF (u d : Nat) : Fld := ⟨0x40944 + 4096 * u, 0 + 16 * d, 16⟩
def SEAM_STAT_failed (u : Nat) : Fld := ⟨0x38E00 + 4096 * u, 1, 1⟩
def SEAM_STAT_up (u : Nat) : Fld := ⟨0x38E00 + 4096 * u, 0, 1⟩
def SEAM_RETRY (u : Nat) : Fld := ⟨0x38E04 + 4096 * u, 0, 32⟩
def SEAM_FAIL (u : Nat) : Fld := ⟨0x38E08 + 4096 * u, 0, 32⟩
def SEAM_XFER_LO (u : Nat) : Fld := ⟨0x38E0C + 4096 * u, 0, 32⟩
def SEAM_XFER_HI (u : Nat) : Fld := ⟨0x38E10 + 4096 * u, 0, 32⟩
def DARN_CFG_retries (u : Nat) : Fld := ⟨0x40A00 + 4096 * u, 16, 3⟩
def DARN_CFG_guard (u : Nat) : Fld := ⟨0x40A00 + 4096 * u, 8, 8⟩
def DARN_CFG_en (u d : Nat) : Fld := ⟨0x40A00 + 4096 * u, 0 + 1 * d, 1⟩
def DARN_STAT_state (u j : Nat) : Fld := ⟨0x40A08 + 4096 * u + 4 * j, 28, 4⟩
def DARN_STAT_run (u j : Nat) : Fld := ⟨0x40A08 + 4096 * u + 4 * j, 27, 1⟩
def DARN_STAT_frozen (u j : Nat) : Fld := ⟨0x40A08 + 4096 * u + 4 * j, 26, 1⟩
def DARN_STAT_hb_cause (u j : Nat) : Fld := ⟨0x40A08 + 4096 * u + 4 * j, 24, 2⟩
def DARN_STAT_hb_end (u j : Nat) : Fld := ⟨0x40A08 + 4096 * u + 4 * j, 12, 12⟩
def DARN_STAT_held (u j : Nat) : Fld := ⟨0x40A08 + 4096 * u + 4 * j, 0, 12⟩
def DARN_SEQ_expect_valid (u j : Nat) : Fld := ⟨0x40A10 + 4096 * u + 4 * j, 31, 1⟩
def DARN_SEQ_expect_seq (u j : Nat) : Fld := ⟨0x40A10 + 4096 * u + 4 * j, 16, 12⟩
def DARN_SEQ_acked_valid (u j : Nat) : Fld := ⟨0x40A10 + 4096 * u + 4 * j, 15, 1⟩
def DARN_SEQ_acked_seq (u j : Nat) : Fld := ⟨0x40A10 + 4096 * u + 4 * j, 0, 12⟩
def DARN_SNAP_snap_no (u : Nat) : Fld := ⟨0x40A18 + 4096 * u, 0, 16⟩
def DARN_CLR_clear (u : Nat) : Fld := ⟨0x40A1C + 4096 * u, 0, 1⟩
def COPY_LO (u d : Nat) : Fld := ⟨0x40A20 + 4096 * u + 8 * d, 0, 32⟩
def COPY_HI (u d : Nat) : Fld := ⟨0x40A24 + 4096 * u + 8 * d, 0, 32⟩
def RUNS (u d : Nat) : Fld := ⟨0x40A30 + 4096 * u, 0 + 16 * d, 16⟩
def REPLAYED (u d : Nat) : Fld := ⟨0x40A34 + 4096 * u + 4 * d, 0, 32⟩
def GIVEUP (u d : Nat) : Fld := ⟨0x40A3C + 4096 * u, 0 + 16 * d, 16⟩
def DUPDISC (u d : Nat) : Fld := ⟨0x40A40 + 4096 * u + 4 * d, 0, 32⟩
def REFRESH (u d : Nat) : Fld := ⟨0x40A48 + 4096 * u, 0 + 16 * d, 16⟩
def UPGAP (u d : Nat) : Fld := ⟨0x40A4C + 4096 * u, 0 + 16 * d, 16⟩
def NOCOPY (u d : Nat) : Fld := ⟨0x40A50 + 4096 * u, 0 + 16 * d, 16⟩
def RUNDROP (u d : Nat) : Fld := ⟨0x40A54 + 4096 * u, 0 + 16 * d, 16⟩
def RESUME (u d : Nat) : Fld := ⟨0x40A58 + 4096 * u, 0 + 16 * d, 16⟩
def ACK_ODD (u d : Nat) : Fld := ⟨0x40A5C + 4096 * u, 0 + 16 * d, 16⟩
def DARN_LAST_valid (u : Nat) : Fld := ⟨0x30100 + 4096 * u, 31, 1⟩
def DARN_LAST_event (u : Nat) : Fld := ⟨0x30100 + 4096 * u, 24, 2⟩
def DARN_LAST_dir (u : Nat) : Fld := ⟨0x30100 + 4096 * u, 16, 1⟩
def DARN_LAST_index (u : Nat) : Fld := ⟨0x30100 + 4096 * u, 0, 10⟩
def TRK_CFG0_probe_int (u : Nat) : Fld := ⟨0x40B00 + 4096 * u, 24, 8⟩
def TRK_CFG0_span_retries (u : Nat) : Fld := ⟨0x40B00 + 4096 * u, 16, 4⟩
def TRK_CFG0_guard (u : Nat) : Fld := ⟨0x40B00 + 4096 * u, 8, 8⟩
def TRK_CFG0_trunk_side (u : Nat) : Fld := ⟨0x40B00 + 4096 * u, 0, 1⟩
def TRK_CFG1_window (u : Nat) : Fld := ⟨0x40B04 + 4096 * u, 16, 14⟩
def TRK_CFG1_queue_ll (u : Nat) : Fld := ⟨0x40B04 + 4096 * u, 0, 10⟩
def TRK_CFG2_hwm (u : Nat) : Fld := ⟨0x40B08 + 4096 * u, 16, 12⟩
def TRK_CFG2_lwm (u : Nat) : Fld := ⟨0x40B08 + 4096 * u, 0, 12⟩
def TRK_VCS_vc_mask (u : Nat) : Fld := ⟨0x40B0C + 4096 * u, 0, 32⟩
def TRK_STAT_run (u : Nat) : Fld := ⟨0x40B34 + 4096 * u, 31, 1⟩
def TRK_STAT_frozen (u : Nat) : Fld := ⟨0x40B34 + 4096 * u, 30, 1⟩
def TRK_STAT_consec (u : Nat) : Fld := ⟨0x40B34 + 4096 * u, 26, 4⟩
def TRK_STAT_held (u : Nat) : Fld := ⟨0x40B34 + 4096 * u, 0, 14⟩
def TRK_SEQ_next_tx (u : Nat) : Fld := ⟨0x40B38 + 4096 * u, 16, 16⟩
def TRK_SEQ_expect (u : Nat) : Fld := ⟨0x40B38 + 4096 * u, 0, 16⟩
def CUST_SEQ_proxy_valid (u : Nat) : Fld := ⟨0x40B3C + 4096 * u, 31, 1⟩
def CUST_SEQ_proxy_seq (u : Nat) : Fld := ⟨0x40B3C + 4096 * u, 16, 12⟩
def CUST_SEQ_xlp_valid (u : Nat) : Fld := ⟨0x40B3C + 4096 * u, 15, 1⟩
def CUST_SEQ_xlp_seq (u : Nat) : Fld := ⟨0x40B3C + 4096 * u, 0, 12⟩
def XOFF_TIN_map (u : Nat) : Fld := ⟨0x40B40 + 4096 * u, 0, 32⟩
def XOFF_TOUT_map (u : Nat) : Fld := ⟨0x40B44 + 4096 * u, 0, 32⟩
def XOFF_PROXY_map (u : Nat) : Fld := ⟨0x40B48 + 4096 * u, 0, 32⟩
def XOFF_EP_map (u : Nat) : Fld := ⟨0x40B4C + 4096 * u, 0, 32⟩
def TRK_PROBE_valid (u : Nat) : Fld := ⟨0x40B50 + 4096 * u, 31, 1⟩
def TRK_PROBE_sample (u : Nat) : Fld := ⟨0x40B50 + 4096 * u, 0, 20⟩
def TRK_SNAP_snap_no (u : Nat) : Fld := ⟨0x40B54 + 4096 * u, 0, 16⟩
def TRK_CLR_clear (u : Nat) : Fld := ⟨0x40B58 + 4096 * u, 0, 1⟩
def SENT_LO (u : Nat) : Fld := ⟨0x40B5C + 4096 * u, 0, 32⟩
def SENT_HI (u : Nat) : Fld := ⟨0x40B60 + 4096 * u, 0, 32⟩
def CUST_IN (u : Nat) : Fld := ⟨0x40B64 + 4096 * u, 0, 32⟩
def CUST_TR (u : Nat) : Fld := ⟨0x40B68 + 4096 * u, 0, 32⟩
def TRK_REPLAYED (u : Nat) : Fld := ⟨0x40B6C + 4096 * u, 0, 32⟩
def NAK_rx (u : Nat) : Fld := ⟨0x40B70 + 4096 * u, 16, 16⟩
def NAK_tx (u : Nat) : Fld := ⟨0x40B70 + 4096 * u, 0, 16⟩
def TMO_retrains (u : Nat) : Fld := ⟨0x40B74 + 4096 * u, 16, 16⟩
def TMO_expiries (u : Nat) : Fld := ⟨0x40B74 + 4096 * u, 0, 16⟩
def DUP_span (u : Nat) : Fld := ⟨0x40B78 + 4096 * u, 16, 16⟩
def DUP_xlp (u : Nat) : Fld := ⟨0x40B78 + 4096 * u, 0, 16⟩
def NOSLOT_nak_odd (u : Nat) : Fld := ⟨0x40B7C + 4096 * u, 16, 16⟩
def NOSLOT_noslot (u : Nat) : Fld := ⟨0x40B7C + 4096 * u, 0, 16⟩
def CUST_LOSS (u : Nat) : Fld := ⟨0x40B80 + 4096 * u, 0, 32⟩
def TRK_REFRESH_drn_bad (u : Nat) : Fld := ⟨0x40B84 + 4096 * u, 16, 16⟩
def TRK_REFRESH_proxy (u : Nat) : Fld := ⟨0x40B84 + 4096 * u, 0, 16⟩
def TRK_LAST_valid (u : Nat) : Fld := ⟨0x30110 + 4096 * u, 31, 1⟩
def TRK_LAST_event (u : Nat) : Fld := ⟨0x30110 + 4096 * u, 24, 2⟩
def TRK_LAST_index (u : Nat) : Fld := ⟨0x30110 + 4096 * u, 0, 10⟩
def LLT_SEL_bank (u : Nat) : Fld := ⟨0xC0040 + 4096 * u, 16, 1⟩
def LLT_SEL_idx (u : Nat) : Fld := ⟨0xC0040 + 4096 * u, 0, 7⟩
def LLT_STAT_state (u : Nat) : Fld := ⟨0xC0044 + 4096 * u, 30, 2⟩
def LLT_STAT_torn (u : Nat) : Fld := ⟨0xC0044 + 4096 * u, 29, 1⟩
def LLT_STAT_gen (u : Nat) : Fld := ⟨0xC0044 + 4096 * u, 24, 4⟩
def LLT_STAT_queued (u : Nat) : Fld := ⟨0xC0044 + 4096 * u, 0, 16⟩
def LLT_W_word (v j : Nat) : Fld := ⟨4096 * v + 0x48 + 4 * j, 0, 32⟩
def LL_FAR_valid1 (u : Nat) : Fld := ⟨0xC0068 + 4096 * u, 31, 1⟩
def LL_FAR_far1 (u : Nat) : Fld := ⟨0xC0068 + 4096 * u, 16, 12⟩
def LL_FAR_valid0 (u : Nat) : Fld := ⟨0xC0068 + 4096 * u, 15, 1⟩
def LL_FAR_far0 (u : Nat) : Fld := ⟨0xC0068 + 4096 * u, 0, 12⟩
def LL_DARN_state (u : Nat) : Fld := ⟨0xC006C + 4096 * u, 28, 4⟩
def LL_DARN_run (u : Nat) : Fld := ⟨0xC006C + 4096 * u, 27, 1⟩
def LL_DARN_held (u : Nat) : Fld := ⟨0xC006C + 4096 * u, 0, 12⟩
def LL_SNAP_snap_no (u : Nat) : Fld := ⟨0xC0074 + 4096 * u, 0, 16⟩
def LL_CLR_clear (u : Nat) : Fld := ⟨0xC0078 + 4096 * u, 0, 1⟩
def LL_IN0 (u : Nat) : Fld := ⟨0xC007C + 4096 * u, 0, 32⟩
def LL_IN1 (u : Nat) : Fld := ⟨0xC0080 + 4096 * u, 0, 32⟩
def LL_DROP_inval (u : Nat) : Fld := ⟨0xC0084 + 4096 * u, 16, 16⟩
def LL_DROP_torn (u : Nat) : Fld := ⟨0xC0084 + 4096 * u, 0, 16⟩
def LL_CLOSS (u : Nat) : Fld := ⟨0xC0088 + 4096 * u, 0, 32⟩
def LL_RUNS_runs (u : Nat) : Fld := ⟨0xC008C + 4096 * u, 16, 16⟩
def LL_RUNS_resume (u : Nat) : Fld := ⟨0xC008C + 4096 * u, 0, 16⟩
def LL_REPLAYED (u : Nat) : Fld := ⟨0xC0090 + 4096 * u, 0, 32⟩
def TORN_LAST_valid (u : Nat) : Fld := ⟨0xC0094 + 4096 * u, 31, 1⟩
def TORN_LAST_llid (u : Nat) : Fld := ⟨0xC0094 + 4096 * u, 0, 10⟩
def CAL_SEL_bank (u : Nat) : Fld := ⟨0xC8040 + 4096 * u, 16, 1⟩
def CAL_SEL_j (u : Nat) : Fld := ⟨0xC8040 + 4096 * u, 8, 1⟩
def CAL_SEL_ent (u : Nat) : Fld := ⟨0xC8040 + 4096 * u, 0, 8⟩
def CAL_ENT_entry (v : Nat) : Fld := ⟨4096 * v + 0x44, 0, 32⟩
def CAL_LAST_valid (u : Nat) : Fld := ⟨0xC8048 + 4096 * u, 31, 1⟩
def CAL_LAST_cal (u : Nat) : Fld := ⟨0xC8048 + 4096 * u, 24, 4⟩
def CAL_BIND_en (v : Nat) : Fld := ⟨4096 * v + 0x80, 31, 1⟩
def CAL_BIND_oversub (v : Nat) : Fld := ⟨4096 * v + 0x80, 30, 1⟩
def CAL_BIND_last (v : Nat) : Fld := ⟨4096 * v + 0x80, 16, 8⟩
def CAL_BIND_side (v : Nat) : Fld := ⟨4096 * v + 0x80, 8, 1⟩
def CAL_BIND_link (v : Nat) : Fld := ⟨4096 * v + 0x80, 0, 7⟩
def CAL_TRK1_window (v : Nat) : Fld := ⟨4096 * v + 0x88, 16, 14⟩
def CAL_STAT_walking (u j : Nat) : Fld := ⟨0xC808C + 4096 * u + 64 * j, 31, 1⟩
def CAL_STAT_run (u j : Nat) : Fld := ⟨0xC808C + 4096 * u + 64 * j, 30, 1⟩
def CAL_STAT_frozen (u j : Nat) : Fld := ⟨0xC808C + 4096 * u + 64 * j, 29, 1⟩
def CAL_STAT_consec (u j : Nat) : Fld := ⟨0xC808C + 4096 * u + 64 * j, 25, 4⟩
def CAL_STAT_ptr (u j : Nat) : Fld := ⟨0xC808C + 4096 * u + 64 * j, 16, 8⟩
def CAL_STAT_credit (u j : Nat) : Fld := ⟨0xC808C + 4096 * u + 64 * j, 8, 5⟩
def CAL_HELD_held (u j : Nat) : Fld := ⟨0xC8094 + 4096 * u + 64 * j, 0, 14⟩
def CAL_FLT_LAST_valid (u j : Nat) : Fld := ⟨0xC8098 + 4096 * u + 64 * j, 31, 1⟩
def CAL_FLT_LAST_cause (u j : Nat) : Fld := ⟨0xC8098 + 4096 * u + 64 * j, 28, 2⟩
def CAL_FLT_LAST_entry (u j : Nat) : Fld := ⟨0xC8098 + 4096 * u + 64 * j, 16, 8⟩
def CAL_FLT_LAST_llid (u j : Nat) : Fld := ⟨0xC8098 + 4096 * u + 64 * j, 0, 10⟩
def CAL_SNAP_snap_no (u j : Nat) : Fld := ⟨0xC809C + 4096 * u + 64 * j, 0, 16⟩
def CAL_CLR_clear (u j : Nat) : Fld := ⟨0xC80A0 + 4096 * u + 64 * j, 0, 1⟩
def CAL_FAULT (u j : Nat) : Fld := ⟨0xC80A4 + 4096 * u + 64 * j, 0, 32⟩
def CAL_NAK_rx (u j : Nat) : Fld := ⟨0xC80A8 + 4096 * u + 64 * j, 16, 16⟩
def CAL_NAK_tx (u j : Nat) : Fld := ⟨0xC80A8 + 4096 * u + 64 * j, 0, 16⟩
def CAL_TMO_retrains (u j : Nat) : Fld := ⟨0xC80AC + 4096 * u + 64 * j, 16, 16⟩
def CAL_TMO_expiries (u j : Nat) : Fld := ⟨0xC80AC + 4096 * u + 64 * j, 0, 16⟩
def CAL_DUP_span (u j : Nat) : Fld := ⟨0xC80B0 + 4096 * u + 64 * j, 16, 16⟩
def CAL_DUP_noslot (u j : Nat) : Fld := ⟨0xC80B0 + 4096 * u + 64 * j, 0, 16⟩
def CAL_REPLAYED (u j : Nat) : Fld := ⟨0xC80B4 + 4096 * u + 64 * j, 0, 32⟩
def CAL_CTL_rx (u j : Nat) : Fld := ⟨0xC80B8 + 4096 * u + 64 * j, 16, 16⟩
def CAL_CTL_tx (u j : Nat) : Fld := ⟨0xC80B8 + 4096 * u + 64 * j, 0, 16⟩
def CAL_MISC_drn_bad (u j : Nat) : Fld := ⟨0xC80BC + 4096 * u + 64 * j, 24, 8⟩
def CAL_MISC_rejects (u j : Nat) : Fld := ⟨0xC80BC + 4096 * u + 64 * j, 16, 8⟩
def CAL_MISC_unknown (u j : Nat) : Fld := ⟨0xC80BC + 4096 * u + 64 * j, 0, 16⟩
def QST_SEL_queue (u : Nat) : Fld := ⟨0xD0040 + 4096 * u, 0, 15⟩
def QST_STAT_xoff_in (u : Nat) : Fld := ⟨0xD0044 + 4096 * u, 31, 1⟩
def QST_STAT_xoff_up (u : Nat) : Fld := ⟨0xD0044 + 4096 * u, 30, 1⟩
def QST_STAT_depth (u : Nat) : Fld := ⟨0xD0044 + 4096 * u, 0, 16⟩
def QST_PEAK_peak (u : Nat) : Fld := ⟨0xD0048 + 4096 * u, 0, 16⟩
def QST_TOTAL_total (u : Nat) : Fld := ⟨0xD004C + 4096 * u, 0, 18⟩
def QST_ORPHAN (u : Nat) : Fld := ⟨0xD0050 + 4096 * u, 0, 32⟩
def BUF_STAT_test_bank (u : Nat) : Fld := ⟨0x38040 + 4096 * u, 20, 6⟩
def BUF_STAT_standby (u : Nat) : Fld := ⟨0x38040 + 4096 * u, 14, 6⟩
def BUF_STAT_retired (u : Nat) : Fld := ⟨0x38040 + 4096 * u, 8, 6⟩
def BUF_STAT_rot (u : Nat) : Fld := ⟨0x38040 + 4096 * u, 4, 4⟩
def BUF_USABLE_usable (u : Nat) : Fld := ⟨0x38044 + 4096 * u, 0, 16⟩
def BUF_OCC_peak (u : Nat) : Fld := ⟨0x38048 + 4096 * u, 16, 16⟩
def BUF_OCC_live (u : Nat) : Fld := ⟨0x38048 + 4096 * u, 0, 16⟩
def BUF_RSV_rsv (u : Nat) : Fld := ⟨0x3804C + 4096 * u, 0, 16⟩
def BUF_CFG_occ_hwm (u : Nat) : Fld := ⟨0x38050 + 4096 * u, 16, 16⟩
def BUF_CFG_ce_win (u : Nat) : Fld := ⟨0x38050 + 4096 * u, 12, 4⟩
def BUF_CFG_ce_thr (u : Nat) : Fld := ⟨0x38050 + 4096 * u, 0, 12⟩
def BUF_CMD_refused (u : Nat) : Fld := ⟨0x38054 + 4096 * u, 19, 1⟩
def BUF_CMD_busy (u : Nat) : Fld := ⟨0x38054 + 4096 * u, 18, 1⟩
def BUF_CMD_go (u : Nat) : Fld := ⟨0x38054 + 4096 * u, 17, 1⟩
def BUF_CMD_bank (u : Nat) : Fld := ⟨0x38054 + 4096 * u, 8, 6⟩
def BUF_CMD_op (u : Nat) : Fld := ⟨0x38054 + 4096 * u, 0, 2⟩
def ECC_CE_LAST_valid (u : Nat) : Fld := ⟨0x38058 + 4096 * u, 31, 1⟩
def ECC_CE_LAST_word (u : Nat) : Fld := ⟨0x38058 + 4096 * u, 28, 3⟩
def ECC_CE_LAST_bank (u : Nat) : Fld := ⟨0x38058 + 4096 * u, 22, 6⟩
def ECC_CE_LAST_slot (u : Nat) : Fld := ⟨0x38058 + 4096 * u, 12, 10⟩
def ECC_CE_LAST_bit (u : Nat) : Fld := ⟨0x38058 + 4096 * u, 0, 8⟩
def ECC_UE_LAST_valid (u : Nat) : Fld := ⟨0x3805C + 4096 * u, 31, 1⟩
def ECC_UE_LAST_word (u : Nat) : Fld := ⟨0x3805C + 4096 * u, 28, 3⟩
def ECC_UE_LAST_bank (u : Nat) : Fld := ⟨0x3805C + 4096 * u, 22, 6⟩
def ECC_UE_LAST_slot (u : Nat) : Fld := ⟨0x3805C + 4096 * u, 12, 10⟩
def ECC_UE_LAST_tag (u : Nat) : Fld := ⟨0x3805C + 4096 * u, 9, 1⟩
def ECC_UE_LAST_desc (u : Nat) : Fld := ⟨0x3805C + 4096 * u, 8, 1⟩
def BUF_SNAP_snap_no (u : Nat) : Fld := ⟨0x38060 + 4096 * u, 0, 16⟩
def BUF_CLR_clear (u : Nat) : Fld := ⟨0x38064 + 4096 * u, 0, 1⟩
def CE_r1 (u : Nat) : Fld := ⟨0x38068 + 4096 * u, 16, 16⟩
def CE_r0 (u : Nat) : Fld := ⟨0x38068 + 4096 * u, 0, 16⟩
def UE (u : Nat) : Fld := ⟨0x3806C + 4096 * u, 0, 32⟩
def REMIRROR_single (u : Nat) : Fld := ⟨0x38070 + 4096 * u, 16, 16⟩
def REMIRROR_done (u : Nat) : Fld := ⟨0x38070 + 4096 * u, 0, 16⟩
def MOVES_evac (u : Nat) : Fld := ⟨0x38074 + 4096 * u, 16, 16⟩
def MOVES_copies (u : Nat) : Fld := ⟨0x38074 + 4096 * u, 0, 16⟩
def LOST_darn (u : Nat) : Fld := ⟨0x38078 + 4096 * u, 16, 16⟩
def LOST_queued (u : Nat) : Fld := ⟨0x38078 + 4096 * u, 0, 16⟩
def BANK_STAT_state (u j : Nat) : Fld := ⟨0x38100 + 4096 * u + 4 * j, 29, 3⟩
def BANK_STAT_rows (u j : Nat) : Fld := ⟨0x38100 + 4096 * u + 4 * j, 26, 3⟩
def BANK_STAT_suspect (u j : Nat) : Fld := ⟨0x38100 + 4096 * u + 4 * j, 25, 1⟩
def BANK_STAT_fuse (u j : Nat) : Fld := ⟨0x38100 + 4096 * u + 4 * j, 24, 1⟩
def BANK_STAT_live (u j : Nat) : Fld := ⟨0x38100 + 4096 * u + 4 * j, 0, 11⟩
def DESC_SEL_addr (u : Nat) : Fld := ⟨0x38200 + 4096 * u, 0, 16⟩
def LNK_CFG_mode (u : Nat) : Fld := ⟨0x40040 + 4096 * u, 28, 4⟩
def LNK_CFG_shed (u : Nat) : Fld := ⟨0x40040 + 4096 * u, 24, 4⟩
def LNK_CFG_ep (u d : Nat) : Fld := ⟨0x40040 + 4096 * u, 20 + 1 * d, 1⟩
def LNK_CFG_rung (u d : Nat) : Fld := ⟨0x40040 + 4096 * u, 8 + 8 * d, 3⟩
def LNK_CFG_width (u d : Nat) : Fld := ⟨0x40040 + 4096 * u, 4 + 8 * d, 3⟩
def EP_rep (u j : Nat) : Fld := ⟨0x40044 + 4096 * u + 4 * j, 24, 7⟩
def EP_dead (u j : Nat) : Fld := ⟨0x40044 + 4096 * u + 4 * j, 14, 10⟩
def EP_headroom (u j : Nat) : Fld := ⟨0x40044 + 4096 * u + 4 * j, 0, 12⟩
def SPAN_ack_lat (u j : Nat) : Fld := ⟨0x4004C + 4096 * u + 4 * j, 20, 12⟩
def SPAN_rtt_decl (u j : Nat) : Fld := ⟨0x4004C + 4096 * u + 4 * j, 0, 20⟩
def EXT_ext (u d : Nat) : Fld := ⟨0x40054 + 4096 * u, 0 + 16 * d, 16⟩
def BUDGET (u d : Nat) : Fld := ⟨0x40058 + 4096 * u, 0 + 16 * d, 16⟩
def SRC_RATE_rate (u d : Nat) : Fld := ⟨0x4005C + 4096 * u, 0 + 16 * d, 16⟩
def COMMIT_refused (u : Nat) : Fld := ⟨0x40060 + 4096 * u, 19, 1⟩
def COMMIT_busy (u : Nat) : Fld := ⟨0x40060 + 4096 * u, 18, 1⟩
def COMMIT_go (u : Nat) : Fld := ⟨0x40060 + 4096 * u, 17, 1⟩
def COMMIT_check_only (u : Nat) : Fld := ⟨0x40060 + 4096 * u, 0, 1⟩
def LNK_PROOF_proved (u : Nat) : Fld := ⟨0x40064 + 4096 * u, 31, 1⟩
def LNK_PROOF_unproved (u : Nat) : Fld := ⟨0x40064 + 4096 * u, 30, 1⟩
def LNK_PROOF_fenced (u : Nat) : Fld := ⟨0x40064 + 4096 * u, 29, 1⟩
def LNK_PROOF_provisional (u : Nat) : Fld := ⟨0x40064 + 4096 * u, 28, 1⟩
def LNK_PROOF_rung (u d : Nat) : Fld := ⟨0x40064 + 4096 * u, 8 + 8 * d, 3⟩
def PROOF_RTT_rtt (u d : Nat) : Fld := ⟨0x40068 + 4096 * u + 4 * d, 0, 20⟩
def LNK_LAT (u d : Nat) : Fld := ⟨0x40070 + 4096 * u, 0 + 16 * d, 16⟩
def LNK_RSV_d1 (u : Nat) : Fld := ⟨0x40074 + 4096 * u, 16, 16⟩
def LNK_RSV_d0 (u : Nat) : Fld := ⟨0x40074 + 4096 * u, 0, 16⟩
def PRK_CMD_refused : Fld := ⟨0xC040, 19, 1⟩
def PRK_CMD_busy : Fld := ⟨0xC040, 18, 1⟩
def PRK_CMD_go : Fld := ⟨0xC040, 17, 1⟩
def PRK_CMD_op : Fld := ⟨0xC040, 0, 2⟩
def PRK_STAT_seq : Fld := ⟨0xC044, 24, 8⟩
def PRK_STAT_applied : Fld := ⟨0xC044, 23, 1⟩
def PRK_STAT_check_only : Fld := ⟨0xC044, 22, 1⟩
def PRK_STAT_origin : Fld := ⟨0xC044, 20, 2⟩
def PRK_STAT_wdrop : Fld := ⟨0xC044, 16, 1⟩
def PRK_STAT_result : Fld := ⟨0xC044, 0, 5⟩
def PRK_WHERE_kind : Fld := ⟨0xC048, 28, 4⟩
def PRK_WHERE_sub : Fld := ⟨0xC048, 24, 4⟩
def PRK_WHERE_index : Fld := ⟨0xC048, 0, 10⟩
def PRK_NEED_need : Fld := ⟨0xC04C, 0, 32⟩
def PRK_LIMIT_limit : Fld := ⟨0xC050, 0, 32⟩
def PRK_CAP_pcap : Fld := ⟨0xC054, 0, 10⟩
def PRK_CAP_LIVE_pcap : Fld := ⟨0xC058, 0, 10⟩
def PRK_DIE_pneed (d : Nat) : Fld := ⟨0xC05C, 0 + 16 * d, 2⟩
def PRK_PWR_est : Fld := ⟨0xC060, 0, 16⟩
def PRK_CNT_accepted : Fld := ⟨0xC064, 16, 16⟩
def PRK_CNT_refused : Fld := ⟨0xC064, 0, 16⟩
def PRK_RECHK_shed : Fld := ⟨0xC068, 16, 16⟩
def PRK_RECHK_failed : Fld := ⟨0xC068, 0, 16⟩
def PRK_TIME_us : Fld := ⟨0xC06C, 0, 16⟩
def MAP_STAT_torn : Fld := ⟨0xD040, 1, 1⟩
def MAP_STAT_drain : Fld := ⟨0xD040, 0, 1⟩
def MAP_TORN_LAST_valid : Fld := ⟨0xD044, 31, 1⟩
def MAP_TORN_LAST_entry : Fld := ⟨0xD044, 0, 8⟩
def SWP_CMD_refused : Fld := ⟨0xD048, 19, 1⟩
def SWP_CMD_busy : Fld := ⟨0xD048, 18, 1⟩
def SWP_CMD_go : Fld := ⟨0xD048, 17, 1⟩
def SWP_CMD_cluster : Fld := ⟨0xD048, 8, 4⟩
def SWP_CMD_pos : Fld := ⟨0xD048, 4, 3⟩
def SWP_CMD_op : Fld := ⟨0xD048, 0, 2⟩
def BOB_CFG_auto (j : Nat) : Fld := ⟨0xD080 + 16 * j, 2, 1⟩
def BOB_CFG_en (j d : Nat) : Fld := ⟨0xD080 + 16 * j, 0 + 1 * d, 1⟩
def BOB_STAT_state (j : Nat) : Fld := ⟨0xD084 + 16 * j, 29, 3⟩
def BOB_STAT_pos (j : Nat) : Fld := ⟨0xD084 + 16 * j, 24, 3⟩
def BOB_STAT_cause (j : Nat) : Fld := ⟨0xD084 + 16 * j, 20, 3⟩
def BOB_STAT_done (j d : Nat) : Fld := ⟨0xD084 + 16 * j, 16 + 1 * d, 1⟩
def BOB_STAT_out_why (j : Nat) : Fld := ⟨0xD084 + 16 * j, 2, 2⟩
def BOB_STAT_result (j : Nat) : Fld := ⟨0xD084 + 16 * j, 0, 2⟩
def BOB_TIME_ns (j : Nat) : Fld := ⟨0xD088 + 16 * j, 0, 20⟩
def BOB_CNT_swaps (j : Nat) : Fld := ⟨0xD08C + 16 * j, 24, 8⟩
def BOB_CNT_returns (j : Nat) : Fld := ⟨0xD08C + 16 * j, 16, 8⟩
def BOB_CNT_abandons (j : Nat) : Fld := ⟨0xD08C + 16 * j, 8, 8⟩
def BOB_CNT_preempts (j : Nat) : Fld := ⟨0xD08C + 16 * j, 0, 8⟩
def SIDE_MAP_valid (j : Nat) : Fld := ⟨0xD400 + 4 * j, 31, 1⟩
def SIDE_MAP_hint (j : Nat) : Fld := ⟨0xD400 + 4 * j, 30, 1⟩
def SIDE_MAP_gen (j : Nat) : Fld := ⟨0xD400 + 4 * j, 24, 4⟩
def SIDE_MAP_base (j : Nat) : Fld := ⟨0xD400 + 4 * j, 0, 7⟩
def LANE_POS_valid (j d : Nat) : Fld := ⟨0xD800 + 4 * j, 15 + 16 * d, 1⟩
def LANE_POS_link (j d : Nat) : Fld := ⟨0xD800 + 4 * j, 8 + 16 * d, 7⟩
def LANE_POS_pos (j d : Nat) : Fld := ⟨0xD800 + 4 * j, 0 + 16 * d, 4⟩
def CLK_CFG_return_hold : Fld := ⟨0x1040, 24, 8⟩
def CLK_CFG_auto_return : Fld := ⟨0x1040, 8, 1⟩
def CLK_CFG_judge : Fld := ⟨0x1040, 0, 2⟩
def CLK_STAT_refclk_good : Fld := ⟨0x1044, 31, 1⟩
def CLK_STAT_mon_armed : Fld := ⟨0x1044, 30, 1⟩
def CLK_STAT_ifo_ready : Fld := ⟨0x1044, 29, 1⟩
def CLK_STAT_ifo_low : Fld := ⟨0x1044, 28, 1⟩
def CLK_STAT_judge_used : Fld := ⟨0x1044, 27, 1⟩
def CLK_STAT_fuse_judge : Fld := ⟨0x1044, 26, 1⟩
def CLK_STAT_core_ref (d : Nat) : Fld := ⟨0x1044, 20 + 2 * d, 2⟩
def CLK_STAT_core_lock (d : Nat) : Fld := ⟨0x1044, 18 + 1 * d, 1⟩
def CLK_STAT_mgmt_lock : Fld := ⟨0x1044, 17, 1⟩
def CLK_STAT_seam_lock : Fld := ⟨0x1044, 16, 1⟩
def MON_LAST_valid : Fld := ⟨0x1048, 31, 1⟩
def MON_LAST_count : Fld := ⟨0x1048, 0, 11⟩
def IFO_CORR_valid : Fld := ⟨0x104C, 31, 1⟩
def IFO_CORR_ppm : Fld := ⟨0x104C, 0, 16⟩
def FM_SEL_meas_dir : Fld := ⟨0x1050, 23, 1⟩
def FM_SEL_meas_sel : Fld := ⟨0x1050, 16, 6⟩
def FM_SEL_ref_dir : Fld := ⟨0x1050, 7, 1⟩
def FM_SEL_ref_sel : Fld := ⟨0x1050, 0, 6⟩
def FM_NREF_n : Fld := ⟨0x1054, 0, 24⟩
def FM_CMD_refused : Fld := ⟨0x1058, 19, 1⟩
def FM_CMD_busy : Fld := ⟨0x1058, 18, 1⟩
def FM_CMD_go : Fld := ⟨0x1058, 17, 1⟩
def FM_CMD_status : Fld := ⟨0x1058, 0, 2⟩
def FM_COUNT : Fld := ⟨0x105C, 0, 32⟩
def CLK_CNT_trips : Fld := ⟨0x1060, 24, 8⟩
def CLK_CNT_returns : Fld := ⟨0x1060, 16, 8⟩
def CLK_CNT_judge_fail : Fld := ⟨0x1060, 8, 8⟩
def CLK_CNT_core_unlock : Fld := ⟨0x1060, 0, 8⟩
def PL_CMD_refused : Fld := ⟨0x2040, 19, 1⟩
def PL_CMD_busy : Fld := ⟨0x2040, 18, 1⟩
def PL_CMD_go : Fld := ⟨0x2040, 17, 1⟩
def PL_CMD_die : Fld := ⟨0x2040, 16, 1⟩
def PL_CMD_level : Fld := ⟨0x2040, 0, 2⟩
def PL_STAT_phase (d : Nat) : Fld := ⟨0x2044, 12 + 16 * d, 3⟩
def PL_STAT_target (d : Nat) : Fld := ⟨0x2044, 10 + 16 * d, 2⟩
def PL_STAT_level (d : Nat) : Fld := ⟨0x2044, 8 + 16 * d, 2⟩
def PL_STAT_vout (d : Nat) : Fld := ⟨0x2044, 0 + 16 * d, 8⟩
def PL_LAST_valid : Fld := ⟨0x2048, 31, 1⟩
def PL_LAST_why : Fld := ⟨0x2048, 28, 3⟩
def PL_LAST_die : Fld := ⟨0x2048, 24, 1⟩
def PL_LAST_level : Fld := ⟨0x2048, 16, 2⟩
def PL_LAST_us : Fld := ⟨0x2048, 0, 16⟩
def PL_CNT_changes : Fld := ⟨0x204C, 16, 16⟩
def PL_CNT_refusals : Fld := ⟨0x204C, 0, 16⟩
def WATCH_CMD_refused : Fld := ⟨0x2050, 19, 1⟩
def WATCH_CMD_busy : Fld := ⟨0x2050, 18, 1⟩
def WATCH_CMD_go : Fld := ⟨0x2050, 17, 1⟩
def WATCH_CMD_why : Fld := ⟨0x2050, 12, 3⟩
def WATCH_CMD_force : Fld := ⟨0x2050, 8, 1⟩
def WATCH_CMD_op : Fld := ⟨0x2050, 0, 2⟩
def WATCH_CFG_sd_en : Fld := ⟨0x2054, 2, 1⟩
def WATCH_CFG_wake_n_en : Fld := ⟨0x2054, 1, 1⟩
def WATCH_STAT_valid : Fld := ⟨0x2058, 31, 1⟩
def WATCH_STAT_cause : Fld := ⟨0x2058, 28, 3⟩
def WATCH_STAT_index : Fld := ⟨0x2058, 16, 9⟩
def WATCH_STAT_wake_us : Fld := ⟨0x2058, 0, 16⟩
def WATCH_LIST_valid (j : Nat) : Fld := ⟨0x2080 + 4 * j, 31, 1⟩
def WATCH_LIST_source (j : Nat) : Fld := ⟨0x2080 + 4 * j, 0, 9⟩
def CAL_CFG_auto (u : Nat) : Fld := ⟨0x20100 + 4096 * u, 16, 1⟩
def CAL_CFG_thresh (u : Nat) : Fld := ⟨0x20100 + 4096 * u, 8, 6⟩
def CAL_CFG_tol (u : Nat) : Fld := ⟨0x20100 + 4096 * u, 0, 3⟩
def CAL_CMD_refused (u : Nat) : Fld := ⟨0x20104 + 4096 * u, 19, 1⟩
def CAL_CMD_busy (u : Nat) : Fld := ⟨0x20104 + 4096 * u, 18, 1⟩
def CAL_CMD_go (u : Nat) : Fld := ⟨0x20104 + 4096 * u, 17, 1⟩
def CAL_CMD_end (u : Nat) : Fld := ⟨0x20104 + 4096 * u, 8, 6⟩
def CAL_CMD_op (u : Nat) : Fld := ⟨0x20104 + 4096 * u, 0, 2⟩
def CAL_STAT_running (u : Nat) : Fld := ⟨0x20108 + 4096 * u, 31, 1⟩
def CAL_STAT_rext_fault (u : Nat) : Fld := ⟨0x20108 + 4096 * u, 30, 1⟩
def CAL_STAT_run_end (u : Nat) : Fld := ⟨0x20108 + 4096 * u, 24, 6⟩
def CAL_STAT_queued (u : Nat) : Fld := ⟨0x20108 + 4096 * u, 0, 6⟩
def CAL_TEMP_valid (u : Nat) : Fld := ⟨0x2010C + 4096 * u, 31, 1⟩
def CAL_TEMP_temp (u : Nat) : Fld := ⟨0x2010C + 4096 * u, 0, 11⟩
def EQA_CAL_LAST_valid (u : Nat) : Fld := ⟨0x20110 + 4096 * u, 31, 1⟩
def CAL_LAST_result (u : Nat) : Fld := ⟨0x20110 + 4096 * u, 28, 3⟩
def CAL_LAST_cause (u : Nat) : Fld := ⟨0x20110 + 4096 * u, 24, 4⟩
def CAL_LAST_end (u : Nat) : Fld := ⟨0x20110 + 4096 * u, 16, 6⟩
def CAL_LAST_temp (u : Nat) : Fld := ⟨0x20110 + 4096 * u, 0, 11⟩
def CAL_CNT_runs (u : Nat) : Fld := ⟨0x20114 + 4096 * u, 16, 16⟩
def CAL_CNT_disagree (u : Nat) : Fld := ⟨0x20114 + 4096 * u, 0, 16⟩
def CAL_SEL_end (u : Nat) : Fld := ⟨0x20128 + 4096 * u, 0, 6⟩
def CAL_TCAL_temp (u : Nat) : Fld := ⟨0x2012C + 4096 * u, 0, 11⟩
def CORR_H0_h1 (u : Nat) : Fld := ⟨0x20130 + 4096 * u, 24, 8⟩
def CORR_H0_h2 (u : Nat) : Fld := ⟨0x20130 + 4096 * u, 16, 8⟩
def CORR_H0_h3 (u : Nat) : Fld := ⟨0x20130 + 4096 * u, 8, 8⟩
def CORR_H0_h4 (u : Nat) : Fld := ⟨0x20130 + 4096 * u, 0, 8⟩
def CORR_H1_h5 (u : Nat) : Fld := ⟨0x20134 + 4096 * u, 24, 8⟩
def CORR_H1_h6 (u : Nat) : Fld := ⟨0x20134 + 4096 * u, 16, 8⟩
def CORR_H1_h7 (u : Nat) : Fld := ⟨0x20134 + 4096 * u, 8, 8⟩
def CORR_H1_h8 (u : Nat) : Fld := ⟨0x20134 + 4096 * u, 0, 8⟩
def CORR_H2_h9 (u : Nat) : Fld := ⟨0x20138 + 4096 * u, 24, 8⟩
def CORR_H2_h10 (u : Nat) : Fld := ⟨0x20138 + 4096 * u, 16, 8⟩
def CORR_H2_h11 (u : Nat) : Fld := ⟨0x20138 + 4096 * u, 8, 8⟩
def CORR_H2_h12 (u : Nat) : Fld := ⟨0x20138 + 4096 * u, 0, 8⟩
def CORR_F_f1 (u : Nat) : Fld := ⟨0x2013C + 4096 * u, 24, 8⟩
def CORR_F_f2 (u : Nat) : Fld := ⟨0x2013C + 4096 * u, 16, 8⟩
def CORR_T_t_high (u : Nat) : Fld := ⟨0x20140 + 4096 * u, 24, 8⟩
def CORR_T_t_mid (u : Nat) : Fld := ⟨0x20140 + 4096 * u, 16, 8⟩
def CORR_T_t_low (u : Nat) : Fld := ⟨0x20140 + 4096 * u, 8, 8⟩
def CORR_T_phase (u : Nat) : Fld := ⟨0x20140 + 4096 * u, 0, 7⟩
def CORR_IMP_p (u : Nat) : Fld := ⟨0x20144 + 4096 * u, 8, 6⟩
def CORR_IMP_n (u : Nat) : Fld := ⟨0x20144 + 4096 * u, 0, 6⟩
def EYE_CFG_dwell (u : Nat) : Fld := ⟨0x20148 + 4096 * u, 0, 5⟩
def EYE_STAT_status (u : Nat) : Fld := ⟨0x2014C + 4096 * u, 30, 2⟩
def EYE_STAT_end (u : Nat) : Fld := ⟨0x2014C + 4096 * u, 24, 6⟩
def EYE_STAT_rung (u : Nat) : Fld := ⟨0x2014C + 4096 * u, 16, 3⟩
def EYE_width (u j : Nat) : Fld := ⟨0x20150 + 4096 * u + 4 * j, 16, 16⟩
def EYE_height (u j : Nat) : Fld := ⟨0x20150 + 4096 * u + 4 * j, 0, 16⟩
def BST_CFG_bob_en : Fld := ⟨0x7040, 17, 1⟩
def BST_CFG_bank_en : Fld := ⟨0x7040, 16, 1⟩
def BST_CFG_interval : Fld := ⟨0x7040, 0, 12⟩
def BST_CMD_confirm : Fld := ⟨0x7044, 24, 8⟩
def BST_CMD_refused : Fld := ⟨0x7044, 19, 1⟩
def BST_CMD_busy : Fld := ⟨0x7044, 18, 1⟩
def BST_CMD_go : Fld := ⟨0x7044, 17, 1⟩
def BST_CMD_cluster : Fld := ⟨0x7044, 8, 4⟩
def BST_CMD_op : Fld := ⟨0x7044, 0, 3⟩
def BST_STAT_test : Fld := ⟨0x7048, 31, 1⟩
def BST_STAT_next_s : Fld := ⟨0x7048, 16, 12⟩
def BST_STAT_bob_run (d : Nat) : Fld := ⟨0x7048, 2 + 1 * d, 1⟩
def BST_STAT_bank_run (d : Nat) : Fld := ⟨0x7048, 0 + 1 * d, 1⟩
def BST_POST_result : Fld := ⟨0x704C, 28, 4⟩
def BST_POST_lbist_fail : Fld := ⟨0x704C, 24, 4⟩
def BST_POST_mem_fail : Fld := ⟨0x704C, 16, 2⟩
def BST_POST_us : Fld := ⟨0x704C, 0, 16⟩
def LBIST_SIG_sig (j : Nat) : Fld := ⟨0x7050 + 4 * j, 0, 32⟩
def BANK_RES_result (j : Nat) : Fld := ⟨0x7060 + 4 * j, 28, 4⟩
def BANK_RES_cause (j : Nat) : Fld := ⟨0x7060 + 4 * j, 24, 4⟩
def BANK_RES_bank (j : Nat) : Fld := ⟨0x7060 + 4 * j, 16, 6⟩
def BANK_RES_rows (j : Nat) : Fld := ⟨0x7060 + 4 * j, 0, 8⟩
def BANK_FAIL_valid (j : Nat) : Fld := ⟨0x7068 + 4 * j, 31, 1⟩
def BANK_FAIL_desc (j : Nat) : Fld := ⟨0x7068 + 4 * j, 30, 1⟩
def BANK_FAIL_bank (j : Nat) : Fld := ⟨0x7068 + 4 * j, 22, 6⟩
def BANK_FAIL_slot (j : Nat) : Fld := ⟨0x7068 + 4 * j, 12, 10⟩
def BANK_FAIL_bit (j : Nat) : Fld := ⟨0x7068 + 4 * j, 0, 11⟩
def BANK_PAT (j : Nat) : Fld := ⟨0x7070 + 4 * j, 0, 32⟩
def BST_REPAIR_burnt : Fld := ⟨0x7078, 24, 8⟩
def BST_REPAIR_log (d : Nat) : Fld := ⟨0x7078, 8 + 8 * d, 6⟩
def BST_REPAIR_overflow : Fld := ⟨0x7078, 1, 1⟩
def BST_REPAIR_fuse_en : Fld := ⟨0x7078, 0, 1⟩
def BOB_RES_result (j : Nat) : Fld := ⟨0x7080 + 4 * j, 28, 4⟩
def BOB_RES_cause (j : Nat) : Fld := ⟨0x7080 + 4 * j, 24, 4⟩
def BOB_RES_rung (j : Nat) : Fld := ⟨0x7080 + 4 * j, 16, 3⟩
def BOB_RES_errors (j : Nat) : Fld := ⟨0x7080 + 4 * j, 0, 16⟩
def LANE_SEL_lane : Fld := ⟨0x7100, 0, 8⟩
def LB_CFG_active (v : Nat) : Fld := ⟨4096 * v + 0x104, 31, 1⟩
def LB_CFG_refused (v : Nat) : Fld := ⟨4096 * v + 0x104, 30, 1⟩
def LB_CFG_why (v : Nat) : Fld := ⟨4096 * v + 0x104, 28, 2⟩
def LB_CFG_rung (v : Nat) : Fld := ⟨4096 * v + 0x104, 16, 3⟩
def LB_CFG_loop (v : Nat) : Fld := ⟨4096 * v + 0x104, 8, 2⟩
def LB_CFG_dir (v : Nat) : Fld := ⟨4096 * v + 0x104, 0, 1⟩
def PRBS_GEN_en (v : Nat) : Fld := ⟨4096 * v + 0x108, 12, 1⟩
def PRBS_GEN_side (v : Nat) : Fld := ⟨4096 * v + 0x108, 4, 1⟩
def PRBS_GEN_pattern (v : Nat) : Fld := ⟨4096 * v + 0x108, 0, 4⟩
def PRBS_USER_bits (v : Nat) : Fld := ⟨4096 * v + 0x10C, 0, 32⟩
def PRBS_CHK_err_thr (v : Nat) : Fld := ⟨4096 * v + 0x110, 16, 16⟩
def PRBS_CHK_en (v : Nat) : Fld := ⟨4096 * v + 0x110, 12, 1⟩
def PRBS_CHK_win (v : Nat) : Fld := ⟨4096 * v + 0x110, 8, 4⟩
def PRBS_CHK_side (v : Nat) : Fld := ⟨4096 * v + 0x110, 4, 1⟩
def PRBS_CHK_pattern (v : Nat) : Fld := ⟨4096 * v + 0x110, 0, 4⟩
def PRBS_STAT_lock (v : Nat) : Fld := ⟨4096 * v + 0x114, 31, 1⟩
def PRBS_STAT_inv (v : Nat) : Fld := ⟨4096 * v + 0x114, 30, 1⟩
def PRBS_SNAP_snap_no (v : Nat) : Fld := ⟨4096 * v + 0x118, 0, 16⟩
def PRBS_CLR_clear (v : Nat) : Fld := ⟨4096 * v + 0x11C, 0, 1⟩
def PRBS_BITS_LO (v : Nat) : Fld := ⟨4096 * v + 0x120, 0, 32⟩
def PRBS_BITS_HI (v : Nat) : Fld := ⟨4096 * v + 0x124, 0, 32⟩
def PRBS_ERR (v : Nat) : Fld := ⟨4096 * v + 0x128, 0, 32⟩
def PRBS_LOSS (v : Nat) : Fld := ⟨4096 * v + 0x12C, 0, 16⟩
def LB_EB (v : Nat) : Fld := ⟨4096 * v + 0x130, 0, 16⟩
def TEST_STAT_valid : Fld := ⟨0x7200, 31, 1⟩
def TEST_STAT_cause : Fld := ⟨0x7200, 28, 3⟩
def TEST_STAT_keys : Fld := ⟨0x7200, 27, 1⟩
def TEST_STAT_scrubbed : Fld := ⟨0x7200, 26, 1⟩
def TEST_STAT_fuse_block : Fld := ⟨0x7200, 25, 1⟩
def TEST_STAT_scrub_us : Fld := ⟨0x7200, 0, 16⟩
def FENCE_STAT_pkg : Fld := ⟨0x100, 24, 4⟩
def FENCE_STAT_die (d : Nat) : Fld := ⟨0x100, 16 + 4 * d, 4⟩
def FENCE_STAT_region (d : Nat) : Fld := ⟨0x100, 0 + 4 * d, 4⟩
def FENCE_CMD_refused : Fld := ⟨0x104, 19, 1⟩
def FENCE_CMD_busy : Fld := ⟨0x104, 18, 1⟩
def FENCE_CMD_go : Fld := ⟨0x104, 17, 1⟩
def FENCE_CMD_why : Fld := ⟨0x104, 12, 3⟩
def FENCE_CMD_unit : Fld := ⟨0x104, 8, 3⟩
def FENCE_CMD_op : Fld := ⟨0x104, 0, 2⟩
def WIRE_LAST_valid : Fld := ⟨0x108, 31, 1⟩
def WIRE_LAST_kind : Fld := ⟨0x108, 24, 4⟩
def WIRE_LAST_side : Fld := ⟨0x108, 16, 1⟩
def WIRE_LAST_index : Fld := ⟨0x108, 0, 8⟩
def WIRE_CNT : Fld := ⟨0x10C, 0, 16⟩
def SUP_STAT_warn (d : Nat) : Fld := ⟨0x2100, 0 + 1 * d, 1⟩
def SUP_V_min (j : Nat) : Fld := ⟨0x2104 + 4 * j, 16, 12⟩
def SUP_V_now (j : Nat) : Fld := ⟨0x2104 + 4 * j, 0, 12⟩
def SUP_CNT_cnt (d : Nat) : Fld := ⟨0x2114, 0 + 8 * d, 8⟩
def BO_LAST_valid : Fld := ⟨0x2118, 31, 1⟩
def BO_LAST_rail : Fld := ⟨0x2118, 24, 2⟩
def BO_LAST_count : Fld := ⟨0x2118, 0, 16⟩
def SUP_CLR_clear : Fld := ⟨0x211C, 0, 1⟩
def TMP_STAT_crit : Fld := ⟨0x3040, 31, 1⟩
def TMP_STAT_shut : Fld := ⟨0x3040, 30, 1⟩
def TMP_STAT_hot : Fld := ⟨0x3040, 24, 4⟩
def TMP_STAT_max : Fld := ⟨0x3040, 0, 11⟩
def TMP_PEAK_cluster : Fld := ⟨0x3044, 24, 4⟩
def TMP_PEAK_peak : Fld := ⟨0x3044, 0, 11⟩
def TMP_CLR_clear : Fld := ⟨0x3048, 0, 1⟩
def CLAIM_count (j : Nat) : Fld := ⟨0x4040 + 16 * j, 16, 8⟩
def CLAIM_ring (j : Nat) : Fld := ⟨0x4040 + 16 * j, 12, 3⟩
def CLAIM_source (j : Nat) : Fld := ⟨0x4040 + 16 * j, 0, 10⟩
def COMPLETE_ring (j : Nat) : Fld := ⟨0x4044 + 16 * j, 12, 3⟩
def COMPLETE_source (j : Nat) : Fld := ⟨0x4044 + 16 * j, 0, 10⟩
def STATUS_serving (j : Nat) : Fld := ⟨0x4048 + 16 * j, 31, 1⟩
def STATUS_none_why (j : Nat) : Fld := ⟨0x4048 + 16 * j, 28, 2⟩
def STATUS_waiting (j : Nat) : Fld := ⟨0x4048 + 16 * j, 16, 12⟩
def STATUS_ring (j : Nat) : Fld := ⟨0x4048 + 16 * j, 12, 3⟩
def STATUS_source (j : Nat) : Fld := ⟨0x4048 + 16 * j, 0, 10⟩
def STRAY_count : Fld := ⟨0x4080, 16, 16⟩
def STRAY_class : Fld := ⟨0x4080, 15, 1⟩
def STRAY_ring : Fld := ⟨0x4080, 12, 3⟩
def STRAY_target : Fld := ⟨0x4080, 10, 2⟩
def STRAY_source : Fld := ⟨0x4080, 0, 10⟩
def DOORBELL_ring : Fld := ⟨0x4084, 0, 8⟩
def INT_CFG_ring_pin : Fld := ⟨0x4088, 0, 1⟩
def RING_OUT_active : Fld := ⟨0x408C, 0, 9⟩
def SRC_CFG_pend (j : Nat) : Fld := ⟨0x6040 + 4 * j, 31, 1⟩
def SRC_CFG_active (j : Nat) : Fld := ⟨0x6040 + 4 * j, 30, 1⟩
def SRC_CFG_nmi (j : Nat) : Fld := ⟨0x6040 + 4 * j, 29, 1⟩
def SRC_CFG_input (j : Nat) : Fld := ⟨0x6040 + 4 * j, 28, 1⟩
def SRC_CFG_count (j : Nat) : Fld := ⟨0x6040 + 4 * j, 16, 8⟩
def SRC_CFG_target (j : Nat) : Fld := ⟨0x6040 + 4 * j, 8, 2⟩
def SRC_CFG_class (j : Nat) : Fld := ⟨0x6040 + 4 * j, 4, 1⟩
def SRC_CFG_sense (j : Nat) : Fld := ⟨0x6040 + 4 * j, 2, 2⟩
def SRC_CFG_en (j : Nat) : Fld := ⟨0x6040 + 4 * j, 0, 1⟩
def PEND_SUM_pend (j : Nat) : Fld := ⟨0x6600 + 4 * j, 0, 32⟩
def HST_CFG_dummy : Fld := ⟨0x9040, 8, 5⟩
def HST_CFG_smb_inc : Fld := ⟨0x9040, 1, 1⟩
def HST_CFG_pec_req : Fld := ⟨0x9040, 0, 1⟩
def HST_STAT_ring_id : Fld := ⟨0x9044, 29, 3⟩
def HST_STAT_smb_addr : Fld := ⟨0x9044, 24, 3⟩
def HST_STAT_smb_pend : Fld := ⟨0x9044, 17, 1⟩
def HST_STAT_spi_pend : Fld := ⟨0x9044, 16, 1⟩
def HST_STAT_smb_last : Fld := ⟨0x9044, 8, 8⟩
def HST_STAT_spi_last : Fld := ⟨0x9044, 0, 8⟩
def HST_CNT_spi_crc : Fld := ⟨0x9048, 24, 8⟩
def HST_CNT_bad_op : Fld := ⟨0x9048, 16, 8⟩
def HST_CNT_smb_pec : Fld := ⟨0x9048, 8, 8⟩
def HST_CNT_smb_tmo : Fld := ⟨0x9048, 0, 8⟩
def HST_FRAMES_spi : Fld := ⟨0x904C, 16, 16⟩
def HST_FRAMES_smb : Fld := ⟨0x904C, 0, 16⟩
def PCT_CFG_go_lead : Fld := ⟨0xA040, 0, 16⟩
def PCT_CMD_refused : Fld := ⟨0xA044, 19, 1⟩
def PCT_CMD_busy : Fld := ⟨0xA044, 18, 1⟩
def PCT_CMD_go : Fld := ⟨0xA044, 17, 1⟩
def PCT_CMD_op : Fld := ⟨0xA044, 0, 2⟩
def PCT_STAT_head : Fld := ⟨0xA048, 31, 1⟩
def PCT_STAT_time_ok : Fld := ⟨0xA048, 30, 1⟩
def PCT_STAT_late : Fld := ⟨0xA048, 29, 1⟩
def PCT_STAT_enum_done : Fld := ⟨0xA048, 28, 1⟩
def PCT_STAT_cw : Fld := ⟨0xA048, 26, 2⟩
def PCT_STAT_ccw : Fld := ⟨0xA048, 24, 2⟩
def PCT_STAT_present : Fld := ⟨0xA048, 16, 8⟩
def PCT_STAT_dup : Fld := ⟨0xA048, 8, 8⟩
def PCT_STAT_ready : Fld := ⟨0xA048, 0, 8⟩
def PCT_POS_CW_pos (d : Nat) : Fld := ⟨0xA04C, 0 + 4 * d, 4⟩
def PCT_POS_CCW_pos (d : Nat) : Fld := ⟨0xA050, 0 + 4 * d, 4⟩
def PCT_HOP_ccw : Fld := ⟨0xA054, 16, 16⟩
def PCT_HOP_cw : Fld := ⟨0xA054, 0, 16⟩
def PCT_TIME_LO_time : Fld := ⟨0xA058, 0, 32⟩
def PCT_TIME_HI_time : Fld := ⟨0xA05C, 0, 32⟩
def PCT_GO_LO_t_go : Fld := ⟨0xA060, 0, 32⟩
def PCT_GO_HI_t_go : Fld := ⟨0xA064, 0, 32⟩
def PCT_CNT_crc : Fld := ⟨0xA068, 24, 8⟩
def PCT_CNT_timeout : Fld := ⟨0xA068, 16, 8⟩
def PCT_CNT_dropped : Fld := ⟨0xA068, 8, 8⟩
def PCT_CNT_enums : Fld := ⟨0xA068, 0, 8⟩
def SEL_CFG_en : Fld := ⟨0xB040, 0, 1⟩
def SEL_STAT_queued : Fld := ⟨0xB044, 0, 3⟩
def SEL_CNT_rx : Fld := ⟨0xB048, 16, 16⟩
def SEL_CNT_tx : Fld := ⟨0xB048, 0, 16⟩
def SEL_ERR_auth : Fld := ⟨0xB04C, 24, 8⟩
def SEL_ERR_malformed : Fld := ⟨0xB04C, 16, 8⟩
def SEL_ERR_busy : Fld := ⟨0xB04C, 8, 8⟩
def SEL_ERR_denied : Fld := ⟨0xB04C, 0, 8⟩
def SEL_LAST_valid : Fld := ⟨0xB050, 31, 1⟩
def SEL_LAST_cause : Fld := ⟨0xB050, 28, 2⟩
def SEL_LAST_slot : Fld := ⟨0xB050, 24, 2⟩
def SEL_LAST_side : Fld := ⟨0xB050, 16, 1⟩
def SEL_LAST_link : Fld := ⟨0xB050, 0, 7⟩
def SEL_CTR_LO_ctr (j : Nat) : Fld := ⟨0xB060 + 8 * j, 0, 32⟩
def SEL_CTR_HI_ctr (j : Nat) : Fld := ⟨0xB064 + 8 * j, 0, 32⟩
def KEY_CMD_refused : Fld := ⟨0x8040, 19, 1⟩
def KEY_CMD_busy : Fld := ⟨0x8040, 18, 1⟩
def KEY_CMD_go : Fld := ⟨0x8040, 17, 1⟩
def KEY_CMD_slot : Fld := ⟨0x8040, 8, 2⟩
def KEY_CMD_op : Fld := ⟨0x8040, 0, 3⟩
def KEY_STAT_revoked : Fld := ⟨0x8044, 16, 4⟩
def KEY_STAT_enrolled : Fld := ⟨0x8044, 8, 4⟩
def KEY_STAT_session : Fld := ⟨0x8044, 0, 4⟩
def ATT_CMD_refused : Fld := ⟨0x8048, 19, 1⟩
def ATT_CMD_busy : Fld := ⟨0x8048, 18, 1⟩
def ATT_CMD_go : Fld := ⟨0x8048, 17, 1⟩
def SEC_STAT_fuse_block : Fld := ⟨0x804C, 31, 1⟩
def SEC_STAT_att_valid : Fld := ⟨0x804C, 30, 1⟩
def ID_PUB_key (j : Nat) : Fld := ⟨0x8080 + 4 * j, 0, 32⟩
def KEY_DATA_data (j : Nat) : Fld := ⟨0x80E0 + 4 * j, 0, 32⟩
def ATT_NONCE_nonce (j : Nat) : Fld := ⟨0x8140 + 4 * j, 0, 32⟩
def DIG_SAF_digest (j : Nat) : Fld := ⟨0x8160 + 4 * j, 0, 32⟩
def DIG_BT_digest (j : Nat) : Fld := ⟨0x8190 + 4 * j, 0, 32⟩
def DIG_PRK_digest (j : Nat) : Fld := ⟨0x81C0 + 4 * j, 0, 32⟩
def ATT_REPORT_report (j : Nat) : Fld := ⟨0x8200 + 4 * j, 0, 32⟩
def PART_part : Fld := ⟨0x40, 16, 16⟩
def PART_rev : Fld := ⟨0x40, 0, 4⟩
def STATE_held : Fld := ⟨0x44, 4, 1⟩
def STATE_state : Fld := ⟨0x44, 0, 3⟩
def RST_CAUSE_pins : Fld := ⟨0x48, 16, 16⟩
def RST_CAUSE_kind : Fld := ⟨0x48, 0, 2⟩
def STRAPS_boot_eff : Fld := ⟨0x4C, 16, 2⟩
def STRAPS_boot_mode : Fld := ⟨0x4C, 8, 2⟩
def STRAPS_ring_id : Fld := ⟨0x4C, 4, 3⟩
def STRAPS_addr : Fld := ⟨0x4C, 0, 3⟩
def START_STAT_result : Fld := ⟨0x50, 28, 4⟩
def START_STAT_cause : Fld := ⟨0x50, 24, 4⟩
def START_STAT_step : Fld := ⟨0x50, 16, 4⟩
def START_STAT_us : Fld := ⟨0x50, 0, 16⟩
def BOOT_CMD_refused : Fld := ⟨0x54, 19, 1⟩
def BOOT_CMD_busy : Fld := ⟨0x54, 18, 1⟩
def BOOT_CMD_go : Fld := ⟨0x54, 17, 1⟩
def BOOT_CMD_op : Fld := ⟨0x54, 0, 2⟩
def CV (u j d : Nat) : Fld := ⟨0x10090 + 4096 * u + 64 * j + 8 * d, 0, 32⟩
def DE (u j d : Nat) : Fld := ⟨0x10094 + 4096 * u + 64 * j + 8 * d, 0, 32⟩
def SETREJ (u j d : Nat) : Fld := ⟨0x100A0 + 4096 * u + 64 * j + 4 * d, 0, 32⟩
def LOCKLOSS (u j d : Nat) : Fld := ⟨0x100B0 + 4096 * u + 64 * j, 0 + 16 * d, 16⟩
def DARN_LIVE_retries (u : Nat) : Fld := ⟨0x40A04 + 4096 * u, 16, 3⟩
def DARN_LIVE_guard (u : Nat) : Fld := ⟨0x40A04 + 4096 * u, 8, 8⟩
def DARN_LIVE_en (u d : Nat) : Fld := ⟨0x40A04 + 4096 * u, 0 + 1 * d, 1⟩
def TRK_CFG0_LIVE_probe_int (u : Nat) : Fld := ⟨0x40B20 + 4096 * u, 24, 8⟩
def CAL_TRK0_probe_int (v : Nat) : Fld := ⟨4096 * v + 0x84, 24, 8⟩
def TRK_CFG0_LIVE_span_retries (u : Nat) : Fld := ⟨0x40B20 + 4096 * u, 16, 4⟩
def CAL_TRK0_span_retries (v : Nat) : Fld := ⟨4096 * v + 0x84, 16, 4⟩
def TRK_CFG0_LIVE_guard (u : Nat) : Fld := ⟨0x40B20 + 4096 * u, 8, 8⟩
def CAL_TRK0_guard (v : Nat) : Fld := ⟨4096 * v + 0x84, 8, 8⟩
def TRK_CFG0_LIVE_trunk_side (u : Nat) : Fld := ⟨0x40B20 + 4096 * u, 0, 1⟩
def TRK_CFG1_LIVE_window (u : Nat) : Fld := ⟨0x40B24 + 4096 * u, 16, 14⟩
def TRK_CFG1_LIVE_queue_ll (u : Nat) : Fld := ⟨0x40B24 + 4096 * u, 0, 10⟩
def TRK_CFG2_LIVE_hwm (u : Nat) : Fld := ⟨0x40B28 + 4096 * u, 16, 12⟩
def TRK_CFG2_LIVE_lwm (u : Nat) : Fld := ⟨0x40B28 + 4096 * u, 0, 12⟩
def TRK_VCS_LIVE_vc_mask (u : Nat) : Fld := ⟨0x40B2C + 4096 * u, 0, 32⟩
def CAL_SEQ_next_tx (u j : Nat) : Fld := ⟨0xC8090 + 4096 * u + 64 * j, 16, 16⟩
def CAL_SEQ_expect (u j : Nat) : Fld := ⟨0xC8090 + 4096 * u + 64 * j, 0, 16⟩
def LL_CUST_proxy_valid (u : Nat) : Fld := ⟨0xC0070 + 4096 * u, 31, 1⟩
def LL_CUST_proxy_seq (u : Nat) : Fld := ⟨0xC0070 + 4096 * u, 16, 12⟩
def LL_CUST_xlp_valid (u : Nat) : Fld := ⟨0xC0070 + 4096 * u, 15, 1⟩
def LL_CUST_xlp_seq (u : Nat) : Fld := ⟨0xC0070 + 4096 * u, 0, 12⟩
def LNK_CFG_LIVE_mode (u : Nat) : Fld := ⟨0x40080 + 4096 * u, 28, 4⟩
def LNK_CFG_LIVE_shed (u : Nat) : Fld := ⟨0x40080 + 4096 * u, 24, 4⟩
def LNK_CFG_LIVE_ep (u d : Nat) : Fld := ⟨0x40080 + 4096 * u, 20 + 1 * d, 1⟩
def LNK_CFG_LIVE_rung (u d : Nat) : Fld := ⟨0x40080 + 4096 * u, 8 + 8 * d, 3⟩
def LNK_CFG_LIVE_width (u d : Nat) : Fld := ⟨0x40080 + 4096 * u, 4 + 8 * d, 3⟩
def EP_LIVE_rep (u j : Nat) : Fld := ⟨0x40084 + 4096 * u + 4 * j, 24, 7⟩
def EP_LIVE_dead (u j : Nat) : Fld := ⟨0x40084 + 4096 * u + 4 * j, 14, 10⟩
def EP_LIVE_headroom (u j : Nat) : Fld := ⟨0x40084 + 4096 * u + 4 * j, 0, 12⟩
def SPAN_LIVE_ack_lat (u j : Nat) : Fld := ⟨0x4008C + 4096 * u + 4 * j, 20, 12⟩
def SPAN_LIVE_rtt_decl (u j : Nat) : Fld := ⟨0x4008C + 4096 * u + 4 * j, 0, 20⟩
def EXT_LIVE_ext (u d : Nat) : Fld := ⟨0x40094 + 4096 * u, 0 + 16 * d, 16⟩
def BUDGET_LIVE (u d : Nat) : Fld := ⟨0x40098 + 4096 * u, 0 + 16 * d, 16⟩
def SRC_RATE_LIVE_rate (u d : Nat) : Fld := ⟨0x4009C + 4096 * u, 0 + 16 * d, 16⟩
def DESC_W_word (u j : Nat) : Fld := ⟨0x38204 + 4096 * u + 4 * j, 0, 32⟩
/-- Adaptation state of lane position `p`, side index `d` (R121). -/
def EST (u p d : Nat) : Fld := ⟨0x20050 + 4096 * u + 4 * d, 2 * p, 2⟩
def OOR (u p d : Nat) : Fld := ⟨0x20058 + 4096 * u, 16 * d + p, 1⟩
/-- Bit of calibration end `e`, 0-37, in CAL_FLT and CAL_DUE (R373). -/
def CAL_FLT (u e : Nat) : Fld := ⟨0x20118 + 4096 * u + 4 * (e / 32), e % 32, 1⟩
def CAL_DUE (u e : Nat) : Fld := ⟨0x20120 + 4096 * u + 4 * (e / 32), e % 32, 1⟩
/-- Entry `e` of the calendar behind virtual page `v` (R253). -/
def CAL_ENTRY (v e : Nat) : Fld := ⟨4096 * v + 0x400 + 4 * e, 0, 32⟩

end R

end Sys2Proof.Machine
end

