-- ==== Sys2Proof/Machine/State.lean ====
section
/-!
DEFINITION. The state of a Lozel package as plain data: every register field in one canonical store (`regs`, with the
live counters under latched registers in `cnt`), the state the chapters describe that no register holds, and the queue of
commands that wait. State.reset is the package held in power-on reset, every register at its reset value (R495).
-/

namespace Sys2Proof.Machine

open Sys2Proof

/-- A sparse table: keys strictly rising, no entry equal to the default of its key (the canonical form of
`Sys2Proof.Machine.Tbl.wf`). -/
abbrev Tbl (α : Type) := List (Nat × α)

/-! ## The flit buffer (chapter The flit buffer and descriptor table) -/

/-- A slot with its descriptor (R269, R271). `bytes` is the flit as it arrived; `sent` says that `tSent` holds the time
of a sending; `holder` is the reservation holder it is
charged to (R275), `out` the side (2 × link + side) it was queued for, `arr` a number that rises with every arrival (R246); `sending` marks the slot whose flit is on the wire and `dying` one that was freed meanwhile (R196, R224).
State codes are those of DESC_W0: 0 FREE, 1 WRITING, 2 LIVE, 3 BAD. -/
structure Slot where
  state : Nat := 0
  darn : Bool := false
  custody : Bool := false
  numbered : Bool := false
  queued : Bool := false
  mirror : Bool := false
  dir : Nat := 0
  ll : Bool := false
  cls : Nat := 0
  retry : Nat := 0
  copy : Nat := 0
  vc : Nat := 0
  owner : Nat := 0
  xlpSeq : Nat := 0
  spanSeq : Nat := 0
  tSent : Nat := 0
  sent : Bool := false
  partner : Nat := 0xFFFF
  bytes : List Nat := []
  sending : Bool := false
  dying : Bool := false
  holder : Nat := 0
  out : Nat := 0
  arr : Nat := 0
  deriving DecidableEq, Repr

/-- One die's rotation (R281): the physical bank that serves the addresses of each bank number where that is not the
bank itself (63: none), the bank that stands in, what the slice in progress is for, how it was stopped, whether its test
passed, the bank tested last (R283), the correctable reads of each region in the window, whether their event has been raised in
it and when it began (R280), and the SUSPECT banks with a second uncorrectable read that wait to be retired (R281). -/
structure DieBuf where
  serves : List (Nat × Nat) := []
  standIn : Nat := 63
  retireAfter : Bool := false
  returning : Bool := false
  byCmd : Bool := false
  stopped : Option (Nat × Nat) := none
  passed : Bool := false
  lastTested : Nat := 32
  ce0 : Nat := 0
  ce1 : Nat := 0
  fired0 : Bool := false
  fired1 : Bool := false
  ceFrom : Nat := 0
  retireDue : List Nat := []
  deriving DecidableEq, Repr

/-! ## Flows: one direction of a link or of a logical link -/

/-- A place of the transit FIFO (R175): the flit, the slot of its darning copy where one is held, and how many flits entered before it (R90). -/
structure FifoEnt where
  flit : Flit := {}
  slot : Option Nat := none
  at_ : Nat := 0
  deriving DecidableEq, Repr

/-- The state of one direction of a link, or of one direction of a logical link.
`fifo` is the transit FIFO of R175 and `entered` how many flits have entered it; `queue` the queued flits in arrival order (R246), `up` the upstream XOFF map of R234,
`xoff` the XOFF map accepted on the leaving side; `seqValid`, `seq`, `custCount`, `custOldest` the custody values of R228
and R230 (proxy_seq when the flow enters from an endpoint, xlp_seq when it arrives from a trunk); the rest is the darning
machine of R205 (0 OFF, 1 SYNC, 2 DARN, 3 HANDBACK) with its copies in seq order, its replay queue and its timer; `ending`
says that the direction is no longer darned and goes OFF when its replay queue is empty (R206). `stopped` says that an
interruption stops the TX ends, `cut` that it has stopped them or has ended a run (R203, R206), `fired` that the timer has
expired on the oldest copy as it was last sent (R194). -/
structure Flow where
  fifo : List FifoEnt := []
  entered : Nat := 0
  queue : List Nat := []
  up : Nat := 0
  xoff : Nat := 0
  seqValid : Bool := false
  seq : Nat := 0
  custCount : Nat := 0
  custOldest : Option Nat := none
  dstate : Nat := 0
  ending : Bool := false
  expect : Option Nat := none
  acked : Option Nat := none
  hbCause : Nat := 0
  hbEnd : Nat := 0
  copies : List Nat := []
  replayQ : List Nat := []
  run : Bool := false
  headCounts : Bool := false
  expired : Bool := false
  frozenAt : Option Nat := none
  delay : Nat := 0
  stopped : Bool := false
  cut : Bool := false
  fired : Bool := false
  lastMap : Nat := 0
  upSent : Nat := 0
  ackOwed : Bool := false
  deriving DecidableEq, Repr

/-- A pending control-flit record (R249): logical link, whether an XOFF change asked for it, and since when it waits. -/
structure CtlRec where
  ll : Nat := 0
  xoffKind : Bool := false
  since : Nat := 0
  deriving DecidableEq, Repr

/-- A trunk side (R210): the side of a TRUNK or FOLD + TRUNK link, or the side a calendar is bound to. `stopped`, `cut` and
`fired` are as for a flow. -/
structure TrunkSt where
  nextTx : Nat := 0
  expect : Nat := 0
  held : List Nat := []
  runQ : List Nat := []
  run : Bool := false
  pendingNak : Option Nat := none
  consec : Nat := 0
  expSince : Bool := false
  frozenAt : Option Nat := none
  delay : Nat := 0
  stopped : Bool := false
  cut : Bool := false
  fired : Bool := false
  accCount : Nat := 0
  accOldest : Option Nat := none
  drnAck : Option Nat := none
  drnNak : Option Nat := none
  nakSent : Option (Nat × Nat) := none
  drnEcho : Option (Nat × Nat) := none
  drnProbe : Option Nat := none
  probeTag : Nat := 0
  probeOut : Option (Nat × Nat) := none
  sample : Option Nat := none
  ctlDue : Bool := false
  ackSetAt : Nat := 0
  recs : List CtlRec := []
  lastAckRec : List (Nat × Nat) := []
  ptr : Nat := 0
  credit : Nat := 0
  curEnt : Option Nat := none
  idleSlot : Nat := 0
  deriving DecidableEq, Repr

/-- What a cache of the logical-link table still holds of an entry that has changed (R260): the generation and the eight
words. Caches 0-15 are the clusters', 16 + c the one of calendar c. -/
structure StaleLl where
  cache : Nat := 0
  gen : Nat := 0
  words : List Nat := []
  deriving DecidableEq, Repr

/-- A logical-link entry (R261): 0 INVALID, 1 VALID, 2 DRAINING; its generation, torn window and drain epoch, the caches
that have not refreshed, and the far acks of R250. -/
structure LlSt where
  state : Nat := 0
  gen : Nat := 0
  tornUntil : Option Nat := none
  drainFrom : Option Nat := none
  stale : List StaleLl := []
  far0 : Option Nat := none
  far1 : Option Nat := none
  deriving DecidableEq, Repr

/-! ## Link sides -/

/-- What a leaving side sends (R172). A flit carries the bytes it sends, whether it leaves poisoned, the slot it is sent
from and the flow whose transit FIFO holds its place. -/
inductive Item where
  | none
  | eie
  | skp (k28 : Nat)
  | trn (t : TrnSet)
  | drn (d : DrnSet)
  | ack (a : AckSet)
  | sel (bytes : List Nat)
  | flit (bytes : List Nat) (poison : Bool) (slot : Option Nat) (fifo : Option Nat)
  | idl
  deriving DecidableEq, Repr

/-- A received SKP set that is to be forwarded in its place (R90): its K28.0 count, the flits that had entered the transit FIFO
before it, and the arrival stamp (`Slot.arr`) that the slots allocated before it lie below. -/
structure SkpFwd where
  n : Nat := 4
  entered : Nat := 0
  arr : Nat := 0
  deriving DecidableEq, Repr

/-- The scheduler of a leaving side (R172): the item being sent, the one before it, and what is pending. `skpCount` is
the symbol count of R88, `skpFwd` the received SKP sets that are to be forwarded in their places (R90), each with its K28.0
count and what came before it; `leaving` the lanes of a side that is gone whose TX ends have yet
to send EIE (R65); `lastCap` the last CAP set sent (R319); `dense` a
dense-skip request in force (R89), `denseRun` and `sparseRun` the consecutive received SKP intervals of at most, and of
more than, 1,024 symbols (R93), `selSyms` the symbols to go until the next SEL set may start (R454). -/
structure SideSt where
  cur : Item := .none
  lanes : List (List Sym) := []
  lastAck : Bool := false
  lastDrn : Bool := false
  eieDue : Bool := false
  skpCount : Nat := 0
  trnDue : List TrnSet := []
  pendAck : Option AckSet := none
  pendSel : List (List Nat) := []
  selSyms : Nat := 0
  denseRun : Nat := 0
  sparseRun : Nat := 0
  skpFwd : List SkpFwd := []
  leaving : List Nat := []
  dense : Bool := false
  lastEie : Option Nat := none
  lastCap : Option TrnSet := none
  deriving DecidableEq, Repr

/-- The span sequencer's own state (R135-R158) beside SPAN_STAT, SPAN_NBR and RTT. `judged` says that the figure of the
current rung is known, `passes` that it passed, `passSent` that a READY with PASS has been sent (R144, R151); `ackRep` is the
target, tag and result of the RATE_ACK that is repeated, `fill` the turn of the sets of R139. The last six fields say when the
timers of R153 began: the last change of the value received, the idle of SWITCH, ACQUIRE, the training or retrain, the last
RATE and the last ECHO_REQ. -/
structure SpanSt where
  draw : Nat := 0
  collisions : Nat := 0
  capAcc : Bool := false
  passes : Bool := false
  ackRep : Option (Nat × Nat × Nat) := none
  fill : Nat := 0
  reachedReady : Bool := false
  passSent : Bool := false
  passRcvd : Bool := false
  thruRcvd : Bool := false
  judged : Bool := false
  rateTarget : Option Nat := none
  rateTag : Nat := 0
  rateSends : Nat := 0
  echoTag : Nat := 0
  echoOut : Bool := false
  samples : List Nat := []
  requests : Nat := 0
  l0Fails : Nat := 0
  blindCap : Nat := 7
  directRung : Option Nat := none
  lastUpRung : Nat := 7
  capAtBlind : Bool := false
  held : Nat := 0
  heldRung : Nat := 7
  byCmd : Bool := false
  downAt : Nat := 0
  toRung : Nat := 7
  goWait : Bool := false
  heard : Bool := false
  capFrom : Nat := 0
  idleFrom : Nat := 0
  acqFrom : Nat := 0
  trainFrom : Nat := 0
  rateAt : Nat := 0
  echoAt : Nat := 0
  deriving DecidableEq, Repr

/-- A link as a whole: whether a TRANSPARENT link runs (R41, R135), T_up once taken (R152), whether its spans have all been UP
since its configuration was accepted (R303), and the sides that the proof took for peer-facing (R295, R304). -/
structure LinkSt where
  running : Bool := false
  tUp : Option Nat := none
  everUp : Bool := false
  peerA : Bool := false
  peerB : Bool := false
  deriving DecidableEq, Repr

/-! ## Lane ends (chapters Lane ends, Equalization, Calibration) -/

/-- An RX end beside its LE_STAT fields: the running disparity of its decoder (`rd` true: positive, R49, R50), the symbol-lock
machine of R55 (comma count, offset, bad symbols of the window, whether this attempt set the polarity; `dwell`: bad symbols
of the dwell of R146), the whole T1 of the first accepted TRN copy (R69), consecutive deskew misses
(R87), the elastic buffer (R91, R92) with a slip in the slice or set that is arriving (whether at 32, and at which symbol), a
write of LE_CFG that waits for an ordered-set boundary (R77; a forced polarity, or none for auto), when its bad-symbol window began, in 1/850 ns (R55), and when
signal detect last asserted. -/
structure RxSt where
  rd : Bool := false
  dwell : Nat := 0
  t1 : Nat := 0
  slip : Option (Bool × Nat) := none
  commas : Nat := 0
  offset : Nat := 0
  polSet : Bool := false
  bad : Nat := 0
  misses : Nat := 0
  remeasure : Bool := false
  fill : Nat := 0
  recentre : Bool := false
  polPend : Option (Option Bool) := none
  polDecided : Bool := false
  balRun : Bool := false
  winFrom : Nat := 0
  sdSince : Option Nat := none
  losAt : Option Nat := none
  deriving DecidableEq, Repr

/-- A pattern generator that runs at a TX end (R387): its code, the register of its polynomial, or for USER the bit that comes
next; for pattern 6 how much of a SKP set is still to come and the symbols since the last one began; and the time it has not
yet turned into symbols, in 1/850 ns. -/
structure GenSt where
  pattern : Nat := 0
  reg : Nat := 0
  todo : Nat := 0
  since : Nat := 0
  cred : Nat := 0
  deriving DecidableEq, Repr

/-- A TX end: electrical idle (R45), the running disparity of its encoder (`rd` true: positive, R49) with the codes of the item
it sends as they stand on the line (R48), the polarity in force, the rung whose preset is in force (7: none) with that preset
(R108, R109), a squelch by a borrow (R98), a termination detection in progress, with whether
TERM_CMD ordered it (R72), and the pattern generator that feeds it (R387). -/
structure TxSt where
  idle : Bool := true
  rd : Bool := false
  out : List Nat := []
  pol : Bool := false
  polPend : Option Bool := none
  rung : Nat := 7
  taps : List Int := []
  squelch : Bool := false
  detecting : Bool := false
  byCmd : Bool := false
  gen : Option GenSt := none
  deriving DecidableEq, Repr

/-- A clock direction of a cluster beside CK_STAT: the borrow_en and standby bits in force (R104), the switchover or borrow in
progress, since when the clock-lane loss that a borrow in progress answers stops a swap's limit (R416), holdover, the steering
end, the operation of CK_CMD in progress, and the dense-skip request being repeated. -/
structure CkSt where
  borrowEn : Bool := true
  standby : Bool := true
  switchFrom : Option Nat := none
  borrowing : Bool := false
  heldFrom : Option Nat := none
  holdover : Option Nat := none
  steer : Option Nat := none
  opFrom : Option Nat := none
  opAt : Nat := 0
  denseSent : Nat := 0
  denseOpen : Nat := 0
  unlockHeld : Bool := false
  deriving DecidableEq, Repr

/-- An entry or exit clock end: loss (R81), electrical idle, fault class, termination
with a detection in progress and whether TERM_CMD ordered it, and the drive of an exit end and the CTLE setting of an entry
end (R111), and the polarity of an exit end (R80). -/
structure CkEnd where
  pol : Bool := false
  taps : List Int := []
  ctle : Nat := 0
  byCmd : Bool := false
  loss : Bool := true
  idle : Bool := true
  txFault : Nat := 0
  term : Bool := false
  detecting : Bool := false
  deriving DecidableEq, Repr

/-- The equalizer of an RX end (R112): taps h1-h12, the floating taps with their positions, the thresholds, MSE, the rung
last acquired, how many visits in a row ended at a limit; `corr` holds the calibration corrections of the end. -/
structure Coef where
  h : List Int := [0, 0, 0, 0, 0, 0, 0, 0, 0, 0, 0, 0]
  f1 : Int := 0
  f2 : Int := 0
  f1pos : Nat := 0
  f2pos : Nat := 0
  tLow : Int := -64
  tMid : Int := 0
  tHigh : Int := 64
  mse : Nat := 0
  valid : Bool := false
  rung : Nat := 0
  everAcq : Bool := false
  atLimit : Bool := false
  limitVisits : Nat := 0
  blocks : Nat := 0
  goodBlocks : Nat := 0
  ctle : Nat := 0
  vga : Nat := 0
  due : List Int := []
  acqRung : Nat := 7
  deriving DecidableEq, Repr

/-- The adaptation engine of a cluster (R115): queued ends (0-8 A_RX, 9-17 B_RX), the end being served and how,
and when its visit began (R118). -/
structure AdaptSt where
  queue : List Nat := []
  cur : Option Nat := none
  visiting : Bool := false
  visitAt : Nat := 0
  last : Nat := 17
  deriving DecidableEq, Repr

/-! ## Steering (chapter Lane steering and bobbin lanes) -/

/-- A link side's lanes while a torn window is open: the lanes in force before, when the window ends, how far the gen
has advanced in it, which clusters have refreshed, and the end of a drain epoch (R313-R315). -/
structure MapSt where
  old : Option (List Nat) := none
  tornUntil : Option Nat := none
  advance : Nat := 0
  caches : List (Nat × Nat) := []
  drainUntil : Option Nat := none
  deriving DecidableEq, Repr

/-- A bobbin lane beside BOB_STAT (R316): which sides it receives and sends in place of the lane, when the swap was
triggered and for how long its limit of 20 µs has stopped (R416), which side's end failed (2: none), the sides on which the
new RX end has accepted a CAP, on which its acquisition has been requested and has ended, and whose part has been dropped
(R327); whether the swap waits for a clock event (R101) or for a termination detection (R319); whether a test slice runs and
ENABLE ordered it, when it began and at which rung, and the idle directions whose PLL it started (R383, R394); how many CAP
sets the new TX end of each side still sends after the neighbour's CAP, since when it has sent the duplicate, and the sides
whose old TX end rests already (R319, R321); the sides whose end of lane n failed (R316); the side whose failed end makes the
swap an interruption (2: none), whether that is a TX end, and then when the neighbour switches (R325). -/
structure BobSt where
  inA : Bool := false
  inB : Bool := false
  since : Nat := 0
  held : Nat := 0
  failedSide : Nat := 2
  capAcc : List Nat := []
  asked : List Nat := []
  acqDone : List Nat := []
  dropped : List Nat := []
  waiting : Bool := false
  detect : Bool := false
  slice : Bool := false
  enabling : Bool := false
  sliceAt : Nat := 0
  sliceRung : Nat := 0
  started : List Nat := []
  capsA : Nat := 16
  capsB : Nat := 16
  dupA : Option Nat := none
  dupB : Option Nat := none
  rested : List Nat := []
  fails : List Nat := []
  intr : Nat := 2
  txFail : Bool := false
  nbrAt : Option Nat := none
  deriving DecidableEq, Repr

/-! ## Pricking -/

/-- What the pricking unit is doing (R291-R304): the submission or re-check in progress, with the measured values its start
found (R307), the outcome they give (code, kind, sub, index, NEED, LIMIT) and, for each side, what the proof would rest on:
link, side, rung, rtt, whether it faces an endpoint. -/
structure PrkSt where
  busy : Bool := false
  origin : Nat := 0
  link : Nat := 0
  checkOnly : Bool := false
  applyAt : Option Nat := none
  restarted : Bool := false
  startedAt : Nat := 0
  basis : List Nat := []
  verdict : List Nat := []
  proofs : List (List Nat) := []
  heldRecheck : Bool := false
  deriving DecidableEq, Repr
/-! ## Package-level state -/

/-- The two parts of the family (R2). -/
inductive Part where
  | lz4128 | lz4064
  deriving DecidableEq, Repr

/-- What the fuses hold (R371, R379, R457, R461): the part and revision, the 64-byte saffron image as read, the identity
public key, the customer key slots with their enrolled and revoked bits, and the rows fused, as (33 × die + bank) × 128 + row. -/
structure Fuses where
  part : Part := .lz4128
  rev : Nat := 0
  saffron : List Nat := []
  idPub : List Nat := []
  custKeys : List (Nat × List Nat) := []
  enrolled : Nat := 0
  revoked : Nat := 0
  rows : List Nat := []
  deriving DecidableEq, Repr

/-- The device states of R34 without the split of SERVICE and GUARD, which is whether a unit is fenced (R409). -/
inductive Phase where
  | off | start | run | watch | test
  deriving DecidableEq, Repr

/-- The device state: the phase; `held` (R470); a WATCH entry, a wake or a TEST entry in progress with the cause it was
started by, and when the wake began; whether the package stays in WATCH under R354; the JTAG instruction register (R392);
whether SERVICE or GUARD has been entered since START (R381); when the step of START began (R472); which load of the
boundary register its cells hold (R393); and whether a rail has been below its reset threshold since the last release (R501). -/
structure DevSt where
  phase : Phase := .off
  held : Bool := false
  watchEntry : Bool := false
  testEntry : Nat := 0
  waking : Bool := false
  wakeAt : Nat := 0
  stuck : Bool := false
  jtag : Nat := 0x02
  everRun : Bool := false
  stepAt : Nat := 0
  cells : Nat := 0
  railLow : Bool := true
  deriving DecidableEq, Repr

/-- One end of a cluster's calibration (R360-R366): T_cal with the corrections in force (RX: 14 tap offsets, 3 threshold
offsets, phase; TX: P and N), the consecutive disagreements, the cause it was queued for, and the accepted values that
wait for a boundary or are being stepped to. -/
structure CalEnd where
  tcal : Option Int := none
  corr : List Int := []
  disagree : Nat := 0
  cause : Nat := 0
  accepted : Option (List Int) := none
  deriving DecidableEq, Repr

/-- A cluster's calibration sequencer: the queue, the end being run with the reading at its start, the end whose step is
not yet applied, the ends, the eye measurement in progress (paused while a run has its sentinel), and whether the next run
has been asked for and waits for a sentinel. -/
structure CalSeq where
  queue : List Nat := []
  cur : Option Nat := none
  curTemp : Int := 0
  waitStep : Option Nat := none
  ends : List (Nat × CalEnd) := []
  eye : Option Nat := none
  asked : Bool := false
  deriving DecidableEq, Repr

/-- The board table (R122-R133): the rate caps, blind rungs and clock flags of the RATE_PLAN as 4-byte records, those of
clusters that wait for a training, and the polarity bytes of lane sides that do (R132); BOOT_OPT's boot and start in force;
the FC_CTL value of the flash command in progress; and the flash reads of the load in progress, or of the last one, each with
its opcode and whether it is a quad transfer (R129, R130). -/
structure BtSt where
  live : Bool := false
  caps : List Nat := []
  newCaps : List (Nat × List Nat) := []
  polPend : List (Nat × Nat) := []
  boot : Nat := 0
  start : Nat := 0
  fc : Nat := 0
  reads : List (Nat × Bool) := []
  deriving DecidableEq, Repr

/-- A die's P-level change in progress (R342): when it began, and the level that was in force before it. -/
structure PlSt where
  since : Nat := 0
  fromLevel : Nat := 0
  deriving DecidableEq, Repr

/-- The device clocks beside CLK_STAT: references of the management and seam PLLs (as core_ref_0), since when REFCLK has
been judged good, whether return_hold has passed since (R337), whether the always-on domain runs on REFCLK (R338), whether
REFCLK is being judged again (R131), the method of the judgement in progress (compat: true, R332), whether the native
judgement has passed in START (R472), and whether a trip waits for the last PLL to run again (R336). -/
structure ClkSt where
  mgmtRef : Nat := 1
  seamRef : Nat := 1
  goodSince : Option Nat := none
  aoRefclk : Bool := false
  holdPassed : Bool := false
  rejudge : Bool := false
  judgeNow : Bool := false
  nativeOk : Bool := false
  tripDue : Bool := false
  deriving DecidableEq, Repr

/-- A picot ring input (0 clockwise, 1 counter-clockwise): when its last intact message arrived, consecutive intact TRAINs
that name its ring, its symbol lock (R445): from when it is LOCKED, in 1/5 ns, with the bad-symbol window that last had one
and its count; whether it has been up since reset, the tag last received with its time, and the tags sent on the output of
the other ring, newest first, with their times (that output leads to the same neighbour, R447). -/
structure HopSt where
  heardAt : Nat := 0
  trains : Nat := 0
  lockAt : Nat := 128
  win : Nat := 0
  bad : Nat := 0
  everUp : Bool := false
  rxTag : Nat := 0
  rxAt : Option Nat := none
  txTags : List (Nat × Nat) := []
  deriving DecidableEq, Repr

/-- The picot rings: the hops, the enumeration the head runs (which ENUMs it sent and which have returned), and the
messages the last command put on the ring outputs (0 clockwise, 1 counter-clockwise) as the bytes after COM; `hold` is how
long in ns the fabric count is still held, `timeAt` when the last TIME was taken (R450), and `reached` the rings on which an
ENUM has come since the last DONE (R449). -/
structure RingSt where
  hop0 : HopSt := {}
  hop1 : HopSt := {}
  enumOut : List Nat := []
  enumBack : List Nat := []
  enumAt : Option Nat := none
  parts : List (Nat × Nat) := []
  hold : Nat := 0
  timeAt : Nat := 0
  inWatch : List (Nat × List Nat) := []
  nextTag : Nat := 0
  sent : List (Nat × List Nat) := []
  resend : List Nat := []
  reached : List Nat := []
  deriving DecidableEq, Repr

/-- An entry of the ring banks at the head (R430): ring id, source, class and count. -/
structure RingEntry where
  ring : Nat := 0
  src : Nat := 0
  fast : Bool := false
  count : Nat := 0
  deriving DecidableEq, Repr

/-- A remote access of a port (R442, R452): its target, the next byte address, how many words it has and what is left of
them (their values for a write; the word whose REQ is out is the first), what has come back, that REQ's tag and when it left, the first
status that is not OK, and its number among the PENDING accesses of its port. -/
structure Remote where
  target : Nat := 0
  write : Bool := false
  addr : Nat := 0
  left : List Nat := []
  got : List Nat := []
  tag : Nat := 0
  sentAt : Nat := 0
  status : Nat := 0
  serial : Nat := 0
  deriving DecidableEq, Repr

/-- A host port (0 SPI, 1 SMBus): the remote access it has outstanding; how many of its accesses have returned PENDING,
the words of the last of them and, once it is there, the status and words that FETCH returns (R442); and the status of its
last counted frame other than STATUS (R441). -/
structure PortSt where
  remote : Option Remote := none
  serial : Nat := 0
  len : Nat := 0
  result : Option (Nat × List Nat) := none
  last : Option Nat := none
  deriving DecidableEq, Repr

/-- An access to a page that is being soft-reset: it is completed afterwards (R478). Its port is 0 SPI, 1 SMBus, 2 ring,
4 a plain register access; its words; the tag and the ring of a ring access, the number of a PENDING one in `tag`. -/
structure HeldAccess where
  port : Nat := 0
  write : Bool := false
  addr : Nat := 0
  words : List Nat := []
  tag : Nat := 0
  ring : Nat := 0
  deriving DecidableEq, Repr

/-- The host ports: the two ports, the SMBus pointer, the accesses that wait for a soft reset, and the answer of the last
access: its status, its words, and the response CRC where the frame has one. -/
structure HostSt where
  spi : PortSt := {}
  smb : PortSt := {}
  ptr : Nat := 0
  heldAcc : List HeldAccess := []
  answer : List Nat := []
  deriving DecidableEq, Repr

/-- A queued selvedge request: the frame and the side it arrived on, how many words of it are done and what they read, and
whether the link has left UP since, which drops the response (R456). -/
structure SelReq where
  link : Nat := 0
  side : Nat := 0
  frame : List Nat := []
  done : Nat := 0
  got : List Nat := []
  dropped : Bool := false
  deriving DecidableEq, Repr

/-- The selvedge channel: the session keys, the response counters and the queued requests (R455, R456). -/
structure SelSt where
  keys : List (Nat × List Nat) := []
  rsp : List (Nat × Nat) := []
  queue : List SelReq := []
  deriving DecidableEq, Repr

/-- Identity and attestation (R457-R460): the report counter, the nonce of the report being made and of the last one; and
of the pricking digest, whether a new one is due since a T_apply, the PRK_STAT of that submission, and the PRK_STAT of the
submission that the digest in DIG_PRK belongs to. -/
structure SecSt where
  reports : Nat := 0
  nonce : List Nat := []
  lastNonce : Option (List Nat) := none
  digestDue : Bool := false
  applyStat : Nat := 0
  digestStat : Nat := 0
  deriving DecidableEq, Repr

/-- Self-test: the time of the next turn of R381 (or what is left of it while the timer holds), the cluster whose bobbin
each die tests and the one tested last, the repair log as (33 × die + bank) × 128 + row, when POST began, whether it pauses and for how
long it has paused, and whether a FULL run is in progress. -/
structure BistSt where
  nextAt : Option Nat := none
  leftAt : Nat := 0
  bob0 : Option Nat := none
  bob1 : Option Nat := none
  last0 : Nat := 7
  last1 : Nat := 15
  log : List Nat := []
  postFrom : Nat := 0
  pauseFrom : Option Nat := none
  paused : Nat := 0
  full : Bool := false
  deriving DecidableEq, Repr

/-- A lane's pattern checker: bits checked and errors in the window so far, and whether the window has raised its source
(R389). -/
structure PrbsSt where
  winBits : Nat := 0
  winErrs : Nat := 0
  fired : Bool := false
  deriving DecidableEq, Repr

/-- Supplies and temperature: the clusters whose last sample was above 120 °C (R402), and whether TMP_PEAK holds a sample
since it was last restarted. -/
structure SupSt where
  hot : List Nat := []
  peakSet : Bool := false
  deriving DecidableEq, Repr


/-! ## The machine -/

/-- Why a command stops the model. Every command completes where its unit is there. -/
inductive Fault where
  /-- Raised by every meaning whose command names a unit the part lacks, or an index outside its range (R2): nothing is
  there to act or to be acted on. Safe: the model stops where the device has no such event. -/
  | noSuchUnit
  deriving DecidableEq, Repr

/-- Why the model declines a command. -/
inductive Refusal where
  /-- Raised by the dispatcher alone, for a command that has no meaning yet. Safe. -/
  | notModelled (mnemonic : String)
  deriving DecidableEq, Repr

/-- Everything the spec gives the machine. -/
structure State where
  regs : Tbl Nat
  cnt : Tbl Nat
  pending : List Instr
  freeCtr : Nat
  fab : Nat
  clock : Nat
  fuse : Fuses
  dev : DevSt
  slots : Tbl Slot
  dies : Tbl DieBuf
  flows : Tbl Flow
  trunks : Tbl TrunkSt
  lls : Tbl LlSt
  sides : Tbl SideSt
  spans : Tbl SpanSt
  links : Tbl LinkSt
  rx : Tbl RxSt
  tx : Tbl TxSt
  cks : Tbl CkSt
  ckEnds : Tbl CkEnd
  coef : Tbl Coef
  adapt : Tbl AdaptSt
  cal : Tbl CalSeq
  maps : Tbl MapSt
  bobs : Tbl BobSt
  prk : PrkSt
  bt : BtSt
  plv : Tbl PlSt
  clk : ClkSt
  ring : RingSt
  entries : List RingEntry
  host : HostSt
  sel : SelSt
  sec : SecSt
  bist : BistSt
  prbs : Tbl PrbsSt
  sup : SupSt
  deriving DecidableEq, Repr

/-- The fuses of the part as shipped (R371, R379, R457, R461): no customer key enrolled and no row fused, as the spec
says; the trims, the factory record and the identity key are zero and the revision is 0 (DESIGN CHOICE: fuse contents
are the factory's; log 3), with the format byte and the CRC-32 that R371 asks for. The part is an LZ4128, the first of the two
that the spec covers (R1; DESIGN CHOICE: log 3); `Fuses.part` selects the LZ4064. -/
def shippedFuses : Fuses :=
  { saffron := 1 :: List.replicate 59 0 ++ [0xCE, 0xC1, 0x07, 0x87] }

/-- The package in power-on reset (R465, R495): state OFF, every register at its reset value, nothing pending. -/
def State.reset : State :=
  { regs := [], cnt := [], pending := [], freeCtr := 0, fab := 0, clock := 0,
    fuse := shippedFuses, dev := {}, slots := [], dies := [], flows := [], trunks := [], lls := [], sides := [],
    spans := [], links := [], rx := [], tx := [], cks := [], ckEnds := [], coef := [], adapt := [], cal := [],
    maps := [], bobs := [], prk := {}, bt := {}, plv := [], clk := {}, ring := {}, entries := [], host := {},
    sel := {}, sec := {}, bist := {}, prbs := [], sup := {} }

end Sys2Proof.Machine
end

