-- ==== Sys2Proof/Machine/Ops.lean ====
section
/-!
DEFINITION. The operations every family uses: sparse tables, reading and writing register fields, counters, interrupt
sources (R420-R422), block events (R208, R239, R289) and the presence of units (R2-R4).
-/

namespace Sys2Proof.Machine

/-! ## Sparse tables -/

/-- The value at a key; `d` where none is listed. -/
def Tbl.get {α : Type} (d : α) : Tbl α → Nat → α
  | [], _ => d
  | (k', v) :: t, k => if k' = k then v else Tbl.get d t k

/-- Store `v` at key `k`, keeping the canonical form: storing the default `d` removes the entry. -/
def Tbl.put {α : Type} [DecidableEq α] (d : α) (k : Nat) (v : α) : Tbl α → Tbl α
  | [] => if v = d then [] else [(k, v)]
  | (k', v') :: t =>
    if k < k' then (if v = d then (k', v') :: t else (k, v) :: (k', v') :: t)
    else if k = k' then (if v = d then t else (k, v) :: t)
    else (k', v') :: Tbl.put d k v t

/-- Change every value of a table, keeping the canonical form: an entry that becomes the default `d` goes. -/
def Tbl.mapVals {α : Type} [DecidableEq α] (d : α) (g : α → α) : Tbl α → Tbl α
  | [] => []
  | (k, v) :: t => if g v = d then Tbl.mapVals d g t else (k, g v) :: Tbl.mapVals d g t

/-- The canonical form: keys strictly rising above `lo`, no entry equal to its key's default. -/
def Tbl.wfFrom {α : Type} [DecidableEq α] (dflt : Nat → α) : Nat → Tbl α → Bool
  | _, [] => true
  | lo, (k, v) :: t => (lo ≤ k) && (v ≠ dflt k) && Tbl.wfFrom dflt (k + 1) t

/-- The canonical form of a table whose defaults are given by key. -/
def Tbl.wf {α : Type} [DecidableEq α] (dflt : Nat → α) (t : Tbl α) : Bool := Tbl.wfFrom dflt 0 t

/-- The keys a table lists. -/
def Tbl.keys {α : Type} (t : Tbl α) : List Nat := t.map Prod.fst

/-! ## Register fields -/

/-- The value a register field holds. -/
def State.rd (s : State) (f : Fld) : Nat := Tbl.get (resetOf f.key) s.regs f.key

/-- Store a value in a register field; the field keeps its low bits. -/
def State.wr (s : State) (f : Fld) (v : Nat) : State :=
  { s with regs := Tbl.put (resetOf f.key) f.key (v % 2 ^ f.width) s.regs }

/-- A one-bit field as a truth value. -/
def State.on (s : State) (f : Fld) : Bool := s.rd f ≠ 0

/-- Store a truth value in a one-bit field. -/
def State.wrB (s : State) (f : Fld) (b : Bool) : State := s.wr f (b2n b)

/-- Return a field to its reset value. -/
def State.unset (s : State) (f : Fld) : State :=
  { s with regs := Tbl.put (resetOf f.key) f.key (resetOf f.key) s.regs }

/-- Add one to a counter that is its register (R494: counters saturate). -/
def State.bump (s : State) (f : Fld) : State :=
  if s.rd f < maxOf f.width then s.wr f (s.rd f + 1) else s

/-- Add `n` to a saturating counter that is its register. -/
def State.bumpBy (s : State) (f : Fld) (n : Nat) : State := s.wr f (min (s.rd f + n) (maxOf f.width))

/-- Add one to a counter that wraps. -/
def State.bumpWrap (s : State) (f : Fld) : State := s.wr f (s.rd f + 1)

/-- The field rows of the register at an offset of a page. -/
def fieldsAt (page off : Nat) : List FieldRow :=
  match Blk.ofPage page with
  | some (b, _) => regFields b off
  | none => []

/-- The word that a register's stored fields make; fields that read as zero give nothing (R490). -/
def rawWord (s : State) (page off : Nat) : Nat :=
  (fieldsAt page off).foldl (fun v r =>
    match r.acc with
    | .wo | .sc => v
    | _ => v + s.rd ⟨4096 * page + off, r.lo, r.width⟩ * 2 ^ r.lo) 0

/-! ## Live counters under latched registers (R494) -/

/-- The live count under a latched counter register. -/
def State.live (s : State) (f : Fld) : Nat := Tbl.get 0 s.cnt f.key

def State.putLive (s : State) (f : Fld) (v : Nat) : State := { s with cnt := Tbl.put 0 f.key v s.cnt }

/-- Count one event on a live counter, saturating at the width of its register (R494). -/
def State.count (s : State) (f : Fld) : State :=
  if s.live f < maxOf f.width then s.putLive f (s.live f + 1) else s

/-- Count `n` events on a live counter. -/
def State.countBy (s : State) (f : Fld) (n : Nat) : State := s.putLive f (min (s.live f + n) (maxOf f.width))

/-- Count one event on a 64-bit counter whose low word is `lo` and high word `hi`; the live count is kept under `lo`. -/
def State.count64 (s : State) (lo : Fld) : State :=
  if s.live lo < maxOf 64 then s.putLive lo (s.live lo + 1) else s

/-- Latch one counter: its register takes the live count. -/
def State.latch (s : State) (f : Fld) : State := s.wr f (s.live f)

/-- Latch a 64-bit counter in its two registers. -/
def State.latch64 (s : State) (p : Fld × Fld) : State :=
  (s.wr p.1 (s.live p.1 % 2 ^ 32)).wr p.2 (s.live p.1 / 2 ^ 32)

/-- Latch every counter of a snapshot group. -/
def State.latchAll (fs : List Fld) (s : State) : State := fs.foldl State.latch s

def State.latchAll64 (ps : List (Fld × Fld)) (s : State) : State := ps.foldl State.latch64 s

/-- Zero the live counts of a group. -/
def State.zeroLive (fs : List Fld) (s : State) : State := fs.foldl (fun s f => s.putLive f 0) s

/-- Zero a list of counter registers. -/
def State.zeroRegs (fs : List Fld) (s : State) : State := fs.foldl (fun s f => s.wr f 0) s

/-! ## Units present (R2-R4) -/

def isLz4064 (s : State) : Bool := s.fuse.part = .lz4064

def lanesOf (s : State) : Nat := if isLz4064 s then 64 else 128
def clustersOf (s : State) : Nat := if isLz4064 s then 8 else 16
def diesOf (s : State) : Nat := if isLz4064 s then 1 else 2
def regionsOf (s : State) : Nat := if isLz4064 s then 2 else 4
def linksOf (s : State) : Nat := if isLz4064 s then 64 else 128
def llsOf (s : State) : Nat := if isLz4064 s then 512 else 1024
def calsOf (s : State) : Nat := if isLz4064 s then 8 else 16
/-- Lane numbers: data lanes, and the bobbin lanes from 128 (R8). -/
def lanePresent (s : State) (n : Nat) : Bool := n < lanesOf s || (128 ≤ n && n < 128 + clustersOf s)

/-- The cluster of a lane, data or bobbin (R8). -/
def laneCluster (n : Nat) : Nat := if n < 128 then n / 8 else n - 128
/-- The lane position 0-8 of a lane in its cluster; the bobbin lane stands at position 8. -/
def lanePos (n : Nat) : Nat := if n < 128 then n % 8 else 8
def laneAt (c p : Nat) : Nat := if p < 8 then 8 * c + p else 128 + c
def clusterRegion (c : Nat) : Nat := c / 4
def clusterDie (c : Nat) : Nat := c / 8

/-- Answer the next state where the command's unit is there; a command on a unit the part lacks has nothing to act on. -/
def onUnit (present : Bool) (t : State) : Host.Outcome State Fault Refusal :=
  if present then .next t else .fault .noSuchUnit

/-- `ns` have passed at `now` since a moment, where there is one. -/
def passed (since : Option Nat) (ns now : Nat) : Bool := match since with
  | some t => t + ns ≤ now
  | none => false

/-! ## Interrupt sources (R420-R422) -/

/-- Sources that exist: 269-271 and 304-319 are reserved (R420), and R4 removes more on the LZ4064. -/
def sourceExists (s : State) (src : Nat) : Bool :=
  src < 304 && !(269 ≤ src && src ≤ 271) &&
  !(isLz4064 s && ((128 ≤ src && src ≤ 255) || src = 259 || src = 267 || src = 268 || src = 274 || src = 275 ||
    src = 277 || src = 279 || src = 281 || src = 293))

def isNmi (src : Nat) : Bool := src = 256 || src = 257 || src = 276 || src = 277

/-- A gated block's sources do not become pending (R346): the cluster sources of a gated cluster, the darning events of a
gated region, the selvedge channel's and the bank slices'. -/
def sourceGated (s : State) (src : Nat) : Bool :=
  if src < 256 then s.rd (R.CLK_EN_en (0x10 + src / 16)) = 0
  else if 265 ≤ src && src ≤ 268 then s.rd (R.CLK_EN_en (0x30 + (src - 265))) = 0
  else if src = 288 then s.rd (R.CLK_EN_en 0xB) = 0
  else if src = 290 then s.rd (R.CLK_EN_en 0x7) = 0
  else false

/-- Set the pending bit of a source. -/
def State.setPend (s : State) (src : Nat) : State := s.wr (R.SRC_CFG_pend src) 1

/-- One event of a source whose sense calls for it: pending sets and the 8-bit count adds one, saturating (R421). -/
def State.srcEvent (s : State) (src : Nat) : State := (s.setPend src).bump (R.SRC_CFG_count src)

/-- A block raises a pulse source: exactly one event under every sense (R421). -/
def State.raise (s : State) (src : Nat) : State :=
  if sourceExists s src && !sourceGated s src then s.srcEvent src else s

/-- A level input takes a value: the sense of R421 decides what becomes pending and what is counted. -/
def State.setInput (s : State) (src : Nat) (v : Bool) : State :=
  if !sourceExists s src then s else
  let old := s.on (R.SRC_CFG_input src)
  let s := s.wrB (R.SRC_CFG_input src) v
  if sourceGated s src then s else
  match s.rd (R.SRC_CFG_sense src) with
  | 0 => if v && !old then s.srcEvent src else if v then s.setPend src else s
  | 1 => if v && !old then s.srcEvent src else s
  | 2 => if !v && old then s.srcEvent src else s
  | _ => if v != old then s.srcEvent src else s

/-- Under LEVEL a source whose input is 1 is pending in every cycle (R421): what a cleared pending bit becomes. -/
def State.relevel (s : State) (src : Nat) : State :=
  if s.rd (R.SRC_CFG_sense src) = 0 && s.on (R.SRC_CFG_input src) && sourceExists s src && !sourceGated s src
  then s.setPend src else s

/-! ## Board wiring faults (R396, R417) -/

/-- Record a wiring fault (R396): its kind, the side for lane and clock kinds, and the index of R417. -/
def wireFault (kind side index : Nat) (s : State) : State :=
  ((((s.wr R.WIRE_LAST_valid 1).wr R.WIRE_LAST_kind kind).wr R.WIRE_LAST_side side).wr R.WIRE_LAST_index index).bump
    R.WIRE_CNT

/-- A wiring fault with the source of its cluster. -/
def State.wired (s : State) (kind side index src : Nat) : State := (wireFault kind side index s).raise src

/-! ## Block events (R208, R239, R289) -/

/-- A block event bit is pending and enabled. -/
def eventOn (s : State) (page k : Nat) : Bool := s.on (R.EVENT_PEND page k) && s.on (R.EVENT_EN page k)

/-- The level sources that block events assert, brought up to date for die `d` and its regions. -/
def State.syncEvents (s : State) (d : Nat) : State :=
  let dp := 0x38 + d
  let r0 := 0x30 + 2 * d
  let r1 := 0x31 + 2 * d
  let s := s.setInput (265 + 2 * d) (eventOn s r0 0 || eventOn s r0 1 || eventOn s r0 2)
  let s := s.setInput (266 + 2 * d) (eventOn s r1 0 || eventOn s r1 1 || eventOn s r1 2)
  let s := s.setInput (272 + 2 * d) (eventOn s dp 1)
  let s := s.setInput (273 + 2 * d) (eventOn s dp 2)
  let s := s.setInput (278 + d) (eventOn s dp 3)
  s.setInput (280 + d) (eventOn s dp 4 || eventOn s r0 10 || eventOn s r1 10)

/-- A pulsed event of region `r`: its EVENT_PEND bit sets, and the sources follow. -/
def State.rgnEvent (s : State) (r k : Nat) : State := (s.wr (R.EVENT_PEND (0x30 + r) k) 1).syncEvents (r / 2)

/-- A pulsed event of die `d`. -/
def State.dieEvent (s : State) (d k : Nat) : State := (s.wr (R.EVENT_PEND (0x38 + d) k) 1).syncEvents d

/-! ## Free values -/

/-- Draw the next free value: the argument to give a free constant of Config, and the state after the draw. -/
def State.draw (s : State) : Nat × State := (s.freeCtr, { s with freeCtr := s.freeCtr + 1 })

end Sys2Proof.Machine
end

