-- ==== Sys2Proof/Machine/Operands.lean ====
section
/-!
DEFINITION. The lookups every family makes: link modes and their sides (R38, R184, R241), the lanes of a side (R310,
R313-R316), the clusters, regions and dies they lie in, the logical-link table (R244, R245), calendars (R252) and the rate
ladder (R46).
-/

namespace Sys2Proof.Machine

/-! ## Modes -/

/-- The mode codes of LNK_CFG.mode (R308). -/
def mNone : Nat := 0
def mTransparent : Nat := 1
def mSymbol : Nat := 2
def mDarned : Nat := 3
def mTrunk : Nat := 4
def mFold : Nat := 5
def mFoldDarned : Nat := 6
def mFoldTrunk : Nat := 7
def mBundle : Nat := 8

/-- The live mode of link `k`. -/
def modeOf (s : State) (k : Nat) : Nat := s.rd (R.LNK_CFG_LIVE_mode k)

def isTrunkMode (m : Nat) : Bool := m = 4 || m = 7
def isFoldMode (m : Nat) : Bool := m = 5 || m = 6 || m = 7
/-- Mode sets whose two sides use the same lanes (R38). -/
def isSameLanes (m : Nat) : Bool := 1 ≤ m && m ≤ 4
/-- Mode sets whose flits wait in a transit FIFO (R175). -/
def hasFifo (m : Nat) : Bool := m = 2 || m = 3 || m = 5 || m = 6

/-! ## Rates and widths -/

/-- Symbol time of a rung in units of 1/850 ns (R46). -/
def symTime (rung : Nat) : Nat :=
  match rung with
  | 0 => 2720 | 1 => 320 | 2 => 160 | 3 => 80 | _ => 40

/-- UI of a rung in units of 1/850 ns (R46). -/
def uiTime (rung : Nat) : Nat :=
  match rung with
  | 0 => 272 | 1 => 32 | 2 => 32 | 3 => 16 | _ => 8

/-- Number of lanes of a width code (R308); code 7 is an unused side. -/
def widthLanes (w : Nat) : Nat := if w ≤ 4 then 2 ^ w else 0

/-- Slice length of a width of `n` lanes, in symbols (R166). -/
def sliceLen (n : Nat) : Nat := 144 / n + 2

/-- Live width of a side, in lanes. -/
def sideWidth (s : State) (k : Nat) (sd : Side) : Nat := widthLanes (s.rd (R.LNK_CFG_LIVE_width k sd.idx))

/-- A side of a configured link that is in use: live mode other than 0, width other than 7. -/
def sideUsed (s : State) (k : Nat) (sd : Side) : Bool :=
  modeOf s k ≠ 0 && s.rd (R.LNK_CFG_LIVE_width k sd.idx) ≠ 7

/-! ## Lanes of a side -/

/-- The SIDE_MAP entry of a link side (R310). -/
def sideEntry (k : Nat) (sd : Side) : Nat := 2 * k + sd.idx

/-- The data lane that the map words give link position `q` of a side of `w` lanes (R310). -/
def mapLane (s : State) (k : Nat) (sd : Side) (q : Nat) : Option Nat :=
  let e := sideEntry k sd
  if s.on (R.SIDE_MAP_hint e) then some (s.rd (R.SIDE_MAP_base e) + q)
  else (List.range 128).find? fun n =>
    s.on (R.LANE_POS_valid n sd.idx) && s.rd (R.LANE_POS_link n sd.idx) = k && s.rd (R.LANE_POS_pos n sd.idx) = q

/-- The data lanes that the map words give a side, in position order. -/
def mapLanes (s : State) (k : Nat) (sd : Side) (w : Nat) : List Nat :=
  (List.range w).filterMap (mapLane s k sd)

def State.map (s : State) (e : Nat) : MapSt := Tbl.get {} s.maps e
def State.putMap (s : State) (e : Nat) (v : MapSt) : State := { s with maps := Tbl.put {} e v s.maps }

/-- The data lanes in force on a side, in position order: the map's, or those from before an open torn window (R314). -/
def sideLanes (s : State) (k : Nat) (sd : Side) : List Nat :=
  match (s.map (sideEntry k sd)).old with
  | some l => l
  | none => mapLanes s k sd (sideWidth s k sd)

/-- The lane of link position 0, which names the side's cluster, region and die (R153, R185). -/
def sideLane0 (s : State) (k : Nat) (sd : Side) : Nat := (sideLanes s k sd).headD 0
def sideCluster (s : State) (k : Nat) (sd : Side) : Nat := laneCluster (sideLane0 s k sd)
def sideRegion (s : State) (k : Nat) (sd : Side) : Nat := clusterRegion (sideCluster s k sd)
def sideDie (s : State) (k : Nat) (sd : Side) : Nat := clusterDie (sideCluster s k sd)

/-- The clusters that hold the lanes of a side. -/
def sideClusters (s : State) (k : Nat) (sd : Side) : List Nat := ((sideLanes s k sd).map laneCluster).eraseDups

def State.bob (s : State) (c : Nat) : BobSt := Tbl.get {} s.bobs c
def State.putBob (s : State) (c : Nat) (v : BobSt) : State := { s with bobs := Tbl.put {} c v s.bobs }

def BobSt.inOn (b : BobSt) : Side → Bool
  | .a => b.inA
  | .b => b.inB
def BobSt.setIn (b : BobSt) (sd : Side) (v : Bool) : BobSt :=
  match sd with
  | .a => { b with inA := v }
  | .b => { b with inB := v }

def BobSt.dup (b : BobSt) : Side → Option Nat
  | .a => b.dupA
  | .b => b.dupB
def BobSt.setDup (b : BobSt) (sd : Side) (v : Option Nat) : BobSt :=
  match sd with
  | .a => { b with dupA := v }
  | .b => { b with dupB := v }

/-- The data lane a cluster's bobbin stands in for or is being brought in for (R316). -/
def bobLane (s : State) (c : Nat) : Nat := 8 * c + s.rd (R.BOB_STAT_pos c)

/-- The lane whose ends serve a data lane on one side: its cluster's bobbin where that has taken its place (R310, R320). -/
def servingLane (s : State) (n : Nat) (sd : Side) : Nat :=
  let c := n / 8
  if (s.bob c).inOn sd && bobLane s c = n then 128 + c else n

/-- The lanes whose ends serve the link positions of a side. -/
def endLanes (s : State) (k : Nat) (sd : Side) : List Nat := (sideLanes s k sd).map (servingLane s · sd)

/-- The link side and link position that side `sd` of data lane `n` serves, under the map and the live widths. -/
def laneUse (s : State) (n : Nat) (sd : Side) : Option (Nat × Nat) :=
  (List.range (linksOf s)).findSome? fun k =>
    if sideUsed s k sd then
      match (sideLanes s k sd).idxOf? n with
      | some q => some (k, q)
      | none => none
    else none

/-- The link side and position that side `sd` of a lane, data or bobbin, serves now. -/
def endUse (s : State) (n : Nat) (sd : Side) : Option (Nat × Nat) :=
  if n < 128 then (if servingLane s n sd = n then laneUse s n sd else none)
  else if (s.bob (n - 128)).inOn sd then laneUse s (bobLane s (n - 128)) sd else none

/-! ## Span states -/

/-- The codes of SPAN_STAT.state (R160). -/
def spIdle : Nat := 0
def spDetect : Nat := 1
def spAcquire : Nat := 2
def spQualify : Nat := 3
def spReady : Nat := 4
def spStep : Nat := 5
def spSwitch : Nat := 6
def spMeasure : Nat := 7
def spArmed : Nat := 8
def spUp : Nat := 9
def spDown : Nat := 10

def spanState (s : State) (k : Nat) (sd : Side) : Nat := s.rd (R.SPAN_STAT_state k sd.idx)
def spanUp (s : State) (k : Nat) (sd : Side) : Bool := s.rd (R.SPAN_STAT_state k sd.idx) = spUp
def spanRetraining (s : State) (k : Nat) (sd : Side) : Bool := s.on (R.SPAN_STAT_retraining k sd.idx)
/-- The rung in force on a span: SPAN_STAT.rung, 7 in IDLE and DOWN. -/
def spanRung (s : State) (k : Nat) (sd : Side) : Nat := s.rd (R.SPAN_STAT_rung k sd.idx)
/-- A span in a training state of R153, from DETECT to ARMED. -/
def spanTraining (s : State) (k : Nat) (sd : Side) : Bool :=
  let st := spanState s k sd
  1 ≤ st && st ≤ 8

def spanKey (k : Nat) (sd : Side) : Nat := 2 * k + sd.idx
def State.span (s : State) (k : Nat) (sd : Side) : SpanSt := Tbl.get {} s.spans (spanKey k sd)
def State.putSpan (s : State) (k : Nat) (sd : Side) (v : SpanSt) : State :=
  { s with spans := Tbl.put {} (spanKey k sd) v s.spans }
def State.side (s : State) (k : Nat) (sd : Side) : SideSt := Tbl.get {} s.sides (spanKey k sd)
def State.putSide (s : State) (k : Nat) (sd : Side) (v : SideSt) : State :=
  { s with sides := Tbl.put {} (spanKey k sd) v s.sides }
def State.link (s : State) (k : Nat) : LinkSt := Tbl.get {} s.links k
def State.putLink (s : State) (k : Nat) (v : LinkSt) : State := { s with links := Tbl.put {} k v s.links }

/-- Every used side of link `k`. -/
def usedSides (s : State) (k : Nat) : List Side := [Side.a, Side.b].filter (sideUsed s k)

/-! ## Lane ends -/

def rxKey (n : Nat) (sd : Side) : Nat := 2 * n + sd.idx
def State.rxe (s : State) (n : Nat) (sd : Side) : RxSt := Tbl.get {} s.rx (rxKey n sd)
def State.putRx (s : State) (n : Nat) (sd : Side) (v : RxSt) : State := { s with rx := Tbl.put {} (rxKey n sd) v s.rx }
def State.txe (s : State) (n : Nat) (sd : Side) : TxSt := Tbl.get {} s.tx (rxKey n sd)
def State.putTx (s : State) (n : Nat) (sd : Side) (v : TxSt) : State := { s with tx := Tbl.put {} (rxKey n sd) v s.tx }

/-- LE_STAT and LE_FAULT fields of a lane end. -/
def leLock (n : Nat) (sd : Side) : Fld := R.LE_STAT_lock (laneCluster n) (lanePos n) sd.idx
def leSd (n : Nat) (sd : Side) : Fld := R.LE_STAT_sd (laneCluster n) (lanePos n) sd.idx
def leIdle (n : Nat) (sd : Side) : Fld := R.LE_STAT_idle (laneCluster n) (lanePos n) sd.idx
def leInv (n : Nat) (sd : Side) : Fld := R.LE_STAT_rx_inv (laneCluster n) (lanePos n) sd.idx
def leTerm (n : Nat) (sd : Side) : Fld := R.LE_STAT_term (laneCluster n) (lanePos n) sd.idx
def leTxFault (n : Nat) (sd : Side) : Fld := R.LE_FAULT_tx_fault (laneCluster n) (lanePos n) sd.idx
def leRxOpen (n : Nat) (sd : Side) : Fld := R.LE_FAULT_rx_open (laneCluster n) (lanePos n) sd.idx

/-- Lock states of R55. -/
def lkUnlocked : Nat := 0
def lkAligning : Nat := 1
def lkLocked : Nat := 2

def isLocked (s : State) (n : Nat) (sd : Side) : Bool := s.rd (leLock n sd) = lkLocked
/-- A fault class is set on an end of the lane's side (R73, R74). -/
def endFaulty (s : State) (n : Nat) (sd : Side) : Bool := s.rd (leTxFault n sd) ≠ 0 || s.on (leRxOpen n sd)

/-! ## Cluster directions -/

def ckKey (c : Nat) (d : Dir) : Nat := 2 * c + d.idx
def State.ck (s : State) (c : Nat) (d : Dir) : CkSt := Tbl.get {} s.cks (ckKey c d)
def State.putCk (s : State) (c : Nat) (d : Dir) (v : CkSt) : State := { s with cks := Tbl.put {} (ckKey c d) v s.cks }
/-- Clock ends: entry ends at 2c + d, exit ends at 64 + 2c + d. -/
def State.ckEntry (s : State) (c : Nat) (d : Dir) : CkEnd := Tbl.get {} s.ckEnds (ckKey c d)
def State.putCkEntry (s : State) (c : Nat) (d : Dir) (v : CkEnd) : State :=
  { s with ckEnds := Tbl.put {} (ckKey c d) v s.ckEnds }
def State.ckExit (s : State) (c : Nat) (d : Dir) : CkEnd := Tbl.get {} s.ckEnds (64 + ckKey c d)
def State.putCkExit (s : State) (c : Nat) (d : Dir) (v : CkEnd) : State :=
  { s with ckEnds := Tbl.put {} (64 + ckKey c d) v s.ckEnds }

/-- A TX end goes to electrical idle: its encoder starts anew at its next symbol (R45, R49). -/
def State.txRest (s : State) (n : Nat) (sd : Side) : State :=
  s.putTx n sd { s.txe n sd with idle := true, rd := false, out := [], squelch := false }

/-- The clock modes of R83 and the references of CK_STAT. -/
def ckOff : Nat := 0
def ckForwarded : Nat := 1
def ckFallback : Nat := 2
def ckRecovered : Nat := 3
def refEntry : Nat := 0
def refRefclk : Nat := 1
def refRecovered : Nat := 2
def refHoldover : Nat := 3

def ckMode (s : State) (c : Nat) (d : Dir) : Nat := s.rd (R.CK_STAT_mode c d.idx)
/-- Rate code of a cluster direction; 7 is idle (R47). -/
def ckRate (s : State) (c : Nat) (d : Dir) : Nat := s.rd (R.RATE_STAT_rate c d.idx)

/-- The links that have an end of a used side in a cluster direction: RX ends of its entry side, TX ends of its exit
side. -/
def spansIn (s : State) (c : Nat) (d : Dir) : List (Nat × Side) :=
  (List.range (linksOf s)).flatMap fun k =>
    [Side.a, Side.b].filterMap fun sd =>
      if sideUsed s k sd && (sideClusters s k sd).contains c && (sd = d.inSide || sd = d.outSide) then some (k, sd) else none

/-- The cluster directions that hold an end of a span: both directions of each of its clusters (R135). -/
def spanDirs (s : State) (k : Nat) (sd : Side) : List (Nat × Dir) :=
  (sideClusters s k sd).flatMap fun c => [(c, Dir.ab), (c, Dir.ba)]

/-- A direction carries a TRANSPARENT link (R103). -/
def carriesTransparent (s : State) (c : Nat) (d : Dir) : Bool :=
  (spansIn s c d).any fun p => modeOf s p.1 = mTransparent

/-! ## Calendars and logical links -/

/-- The virtual pages behind the windows of the LLT and CAL pages: staged and live banks. -/
def llStagedPage (l : Nat) : Nat := 0x3000 + l
def llLivePage (l : Nat) : Nat := 0x4000 + l
def calStagedPage (c : Nat) : Nat := 0x5000 + c
def calLivePage (c : Nat) : Nat := 0x5800 + c

/-- Word `j` of a logical-link entry in the bank at virtual page `v` (R244). -/
def llWord (s : State) (v j : Nat) : Nat := s.rd (R.LLT_W_word v j)

/-- An end of a logical link (R244, words 0 and 1): kind (0 endpoint span, 1 trunk), side, link. -/
structure LlEnd where
  trunk : Bool
  side : Side
  link : Nat
  deriving DecidableEq, Repr

def LlEnd.ofWord (w : Nat) : LlEnd := ⟨bit w 9, Side.ofIdx (bits w 8 8), bits w 6 0⟩

/-- End `e` (0 or 1) of logical link `l`, live. -/
def llEnd (s : State) (l e : Nat) : LlEnd := LlEnd.ofWord (llWord s (llLivePage l) e)
/-- A guard of R194 or R223, 1-250; 0 acts as 1, above 250 acts as 250. -/
def guardActs (g : Nat) : Nat := max 1 (min g 250)
def llDie (l : Nat) : Nat := l / 512

def State.ll (s : State) (l : Nat) : LlSt := Tbl.get {} s.lls l
def State.putLl (s : State) (l : Nat) (v : LlSt) : State := { s with lls := Tbl.put {} l v s.lls }

def llInvalid : Nat := 0
def llValid : Nat := 1
def llDraining : Nat := 2

/-- A live entry that is valid or draining (R245). -/
def llActive (s : State) (l : Nat) : Bool := (s.ll l).state ≠ llInvalid
/-- The logical links that are valid or draining. -/
def activeLls (s : State) : List Nat := (Tbl.keys s.lls).filter (llActive s)

/-- The end of logical link `l` that names a side, if one does. -/
def llEndAt (s : State) (l k : Nat) (sd : Side) : Option Nat :=
  if (llEnd s l 0).link = k && (llEnd s l 0).side = sd then some 0
  else if (llEnd s l 1).link = k && (llEnd s l 1).side = sd then some 1 else none

/-- The logical link, with its end, that names an endpoint span (R245). -/
def llOfSpan (s : State) (k : Nat) (sd : Side) : Option (Nat × Nat) :=
  (activeLls s).findSome? fun l => (llEndAt s l k sd).map fun e => (l, e)

/-- The calendar bound to a side (R252). -/
def calOf (s : State) (k : Nat) (sd : Side) : Option Nat :=
  (List.range (calsOf s)).find? fun c =>
    s.on (R.CAL_BIND_en (calLivePage c)) && s.rd (R.CAL_BIND_link (calLivePage c)) = k &&
    s.rd (R.CAL_BIND_side (calLivePage c)) = sd.idx

/-! ## Caches of the logical-link table (R260, R263) -/

/-- What a cache still holds of an entry that has changed, if it has not refreshed. -/
def staleOf (s : State) (cache l : Nat) : Option StaleLl := (s.ll l).stale.find? fun x => x.cache = cache

/-- Word `j` of an entry as a cache holds it. -/
def cacheWord (s : State) (cache l j : Nat) : Nat :=
  match staleOf s cache l with
  | some x => x.words.getD j 0
  | none => llWord s (llLivePage l) j

/-- The generation of an entry as a cache holds it. -/
def cacheGen (s : State) (cache l : Nat) : Nat :=
  match staleOf s cache l with
  | some x => x.gen
  | none => (s.ll l).gen

/-- End `e` of a logical link as a cache holds it. -/
def cacheEnd (s : State) (cache l e : Nat) : LlEnd := LlEnd.ofWord (cacheWord s cache l e)

/-- The cache at an end: the calendar's for a trunk end, the cluster's for an endpoint end (R263). -/
def endCache (s : State) (x : LlEnd) : Nat :=
  match if x.trunk then calOf s x.link x.side else none with
  | some c => 16 + c
  | none => sideCluster s x.link x.side

/-- The settings of a logical link for its direction from end `d`: the VC mask and the watermarks as the cache where its
flits arrive holds them, the darning guard and retries as the one where they leave (R260; DEDUCED, log 221). -/
def llInWord (s : State) (l d j : Nat) : Nat := cacheWord s (endCache s (llEnd s l d)) l j
def llOutWord (s : State) (l d j : Nat) : Nat := cacheWord s (endCache s (llEnd s l (1 - d))) l j
def llHwm (s : State) (l d : Nat) : Nat := max 1 (bits (llInWord s l d 3) 27 16)
def llLwm (s : State) (l d : Nat) : Nat := min (bits (llInWord s l d 3) 11 0) (llHwm s l d - 1)
def llRetries (s : State) (l d : Nat) : Nat := max 1 (bits (llOutWord s l d 6) 18 16)
def llGuard (s : State) (l d : Nat) : Nat := guardActs (bits (llOutWord s l d 6) 15 8)

/-- The trunk side of a TRUNK or FOLD + TRUNK link. -/
def trunkSide (s : State) (k : Nat) : Side := Side.ofIdx (s.rd (R.TRK_CFG0_LIVE_trunk_side k))

/-- A side that is a trunk: of a TRUNK-family link, or of a BUNDLE link with a calendar bound to it (R210, R241). -/
def isTrunkSide (s : State) (k : Nat) (sd : Side) : Bool :=
  if isTrunkMode (modeOf s k) then trunkSide s k = sd
  else if modeOf s k = mBundle then sideUsed s k sd && (calOf s k sd).isSome
  else false

/-- The key of a trunk side's state: the link for TRUNK links, 1024 + the calendar for BUNDLE links (R210). -/
def trunkKey (s : State) (k : Nat) (sd : Side) : Nat :=
  if modeOf s k = mBundle then 1024 + (calOf s k sd).getD 0 else k

def State.trunk (s : State) (t : Nat) : TrunkSt := Tbl.get {} s.trunks t
def State.putTrunk (s : State) (t : Nat) (v : TrunkSt) : State := { s with trunks := Tbl.put {} t v s.trunks }

/-- The side a trunk key stands for. -/
def trunkAt (s : State) (t : Nat) : Nat × Side :=
  if t < 1024 then (t, trunkSide s t)
  else (s.rd (R.CAL_BIND_link (calLivePage (t - 1024))), Side.ofIdx (s.rd (R.CAL_BIND_side (calLivePage (t - 1024)))))

/-- Settings of a trunk side, from TRK_CFG0 and TRK_CFG1 or CAL_TRK0 and CAL_TRK1 (R238, R252). -/
def trunkGuard (s : State) (t : Nat) : Nat :=
  guardActs (if t < 1024 then s.rd (R.TRK_CFG0_LIVE_guard t) else s.rd (R.CAL_TRK0_guard (calLivePage (t - 1024))))
def trunkRetries (s : State) (t : Nat) : Nat :=
  max 1 (if t < 1024 then s.rd (R.TRK_CFG0_LIVE_span_retries t) else s.rd (R.CAL_TRK0_span_retries (calLivePage (t - 1024))))
def trunkProbeInt (s : State) (t : Nat) : Nat :=
  if t < 1024 then s.rd (R.TRK_CFG0_LIVE_probe_int t) else s.rd (R.CAL_TRK0_probe_int (calLivePage (t - 1024)))
def trunkWindow (s : State) (t : Nat) : Nat :=
  max 1 (if t < 1024 then s.rd (R.TRK_CFG1_LIVE_window t) else s.rd (R.CAL_TRK1_window (calLivePage (t - 1024))))

/-! ## Flows -/

/-- The key of the flow of a link direction, and of a logical-link direction (0: from end 0 to end 1). -/
def linkFlow (k : Nat) (d : Dir) : Nat := 2 * k + d.idx
def llFlow (l d : Nat) : Nat := 4096 + 2 * l + d
def flowIsLl (f : Nat) : Bool := 4096 ≤ f
def flowOwner (f : Nat) : Nat := if 4096 ≤ f then (f - 4096) / 2 else f / 2
def flowDir (f : Nat) : Nat := f % 2

def State.flow (s : State) (f : Nat) : Flow := Tbl.get {} s.flows f
def State.putFlow (s : State) (f : Nat) (v : Flow) : State := { s with flows := Tbl.put {} f v s.flows }

/-- The link side a flow arrives on, and the one it leaves on. -/
def flowIn (s : State) (f : Nat) : Nat × Side :=
  if flowIsLl f then let e := llEnd s (flowOwner f) (flowDir f); (e.link, e.side)
  else (flowOwner f, (Dir.ofIdx (flowDir f)).inSide)
def flowOut (s : State) (f : Nat) : Nat × Side :=
  if flowIsLl f then let e := llEnd s (flowOwner f) (1 - flowDir f); (e.link, e.side)
  else (flowOwner f, (Dir.ofIdx (flowDir f)).outSide)

/-- The flow leaves on a trunk, or arrives from one. -/
def flowOutTrunk (s : State) (f : Nat) : Bool :=
  if flowIsLl f then (llEnd s (flowOwner f) (1 - flowDir f)).trunk
  else isTrunkSide s (flowOut s f).1 (flowOut s f).2
def flowInTrunk (s : State) (f : Nat) : Bool :=
  if flowIsLl f then (llEnd s (flowOwner f) (flowDir f)).trunk
  else isTrunkSide s (flowIn s f).1 (flowIn s f).2

def flowVcMask (s : State) (f : Nat) : Nat :=
  if flowIsLl f then llInWord s (flowOwner f) (flowDir f) 2 else s.rd (R.TRK_VCS_LIVE_vc_mask (flowOwner f))
def flowHwm (s : State) (f : Nat) : Nat :=
  if flowIsLl f then llHwm s (flowOwner f) (flowDir f) else max 1 (s.rd (R.TRK_CFG2_LIVE_hwm (flowOwner f)))
def flowLwm (s : State) (f : Nat) : Nat :=
  if flowIsLl f then llLwm s (flowOwner f) (flowDir f) else min (s.rd (R.TRK_CFG2_LIVE_lwm (flowOwner f))) (flowHwm s f - 1)
/-- Darning guard and retry limit of a flow (R194, R198, R244). -/
def flowGuard (s : State) (f : Nat) : Nat :=
  if flowIsLl f then llGuard s (flowOwner f) (flowDir f) else guardActs (s.rd (R.DARN_LIVE_guard (flowOwner f)))
def flowRetries (s : State) (f : Nat) : Nat :=
  if flowIsLl f then llRetries s (flowOwner f) (flowDir f) else max 1 (s.rd (R.DARN_LIVE_retries (flowOwner f)))

/-- Does the mode of the flow take custody (R210, R258)? -/
def flowCustodial (s : State) (f : Nat) : Bool := flowIsLl f || isTrunkMode (modeOf s (flowOwner f))

/-- Is the flow darned (R184)? Custody modes darn toward their endpoint side; DARNED and FOLD + DARNED by the enable bit;
the leaving neighbour must be an endpoint, that is, have sent PEER clear. -/
def flowDarned (s : State) (f : Nat) : Bool :=
  let o := flowOut s f
  !s.on (R.SPAN_STAT_nbr_peer o.1 o.2.idx) &&
  (if flowIsLl f then llActive s (flowOwner f) && !flowOutTrunk s f
   else if isTrunkMode (modeOf s (flowOwner f)) then !flowOutTrunk s f
   else (modeOf s (flowOwner f) = mDarned || modeOf s (flowOwner f) = mFoldDarned) &&
     s.on (R.DARN_LIVE_en (flowOwner f) (flowDir f)))

/-- The link has a darned direction of its own (R184, R185). -/
def linkDarned (s : State) (k : Nat) : Bool := flowDarned s (linkFlow k .ab) || flowDarned s (linkFlow k .ba)

/-- The region whose engine keeps a flow, and the die that holds its copies (R185, R19). -/
def flowRegion (s : State) (f : Nat) : Nat := sideRegion s (flowOut s f).1 (flowOut s f).2
def flowDie (s : State) (f : Nat) : Nat := sideDie s (flowOut s f).1 (flowOut s f).2

/-- The flows that leave on a side: the link's direction, or every active logical-link direction that names it. -/
def flowsOut (s : State) (k : Nat) (sd : Side) : List Nat :=
  if modeOf s k = mBundle then
    (activeLls s).flatMap fun l => [0, 1].filterMap fun d => if llEndAt s l k sd = some (1 - d) then some (llFlow l d) else none
  else [linkFlow k sd.dirOut]

/-- The flows that arrive on a side. -/
def flowsIn (s : State) (k : Nat) (sd : Side) : List Nat :=
  if modeOf s k = mBundle then
    (activeLls s).flatMap fun l => [0, 1].filterMap fun d => if llEndAt s l k sd = some d then some (llFlow l d) else none
  else [linkFlow k sd.dirIn]

/-- Every flow of a link: its two directions, or those of the logical links that name one of its sides. -/
def flowsOfLink (s : State) (k : Nat) : List Nat :=
  (flowsOut s k .a ++ flowsOut s k .b ++ flowsIn s k .a ++ flowsIn s k .b).eraseDups

/-! ## Fences -/

/-- A region is fenced while FENCE_STAT records a cause for it (R408). -/
def regionFenced (s : State) (r : Nat) : Bool := s.rd (R.FENCE_STAT_region r) ≠ 0
def dieFenced (s : State) (d : Nat) : Bool := s.rd (R.FENCE_STAT_die d) ≠ 0
def pkgFenced (s : State) : Bool := s.rd R.FENCE_STAT_pkg ≠ 0

/-- The regions a link touches: those of its lane sides (R36). -/
def linkRegions (s : State) (k : Nat) : List Nat :=
  ((usedSides s k).flatMap fun sd => (sideClusters s k sd).map clusterRegion).eraseDups

/-- A link stands fenced: by itself (R305), or because it touches a fenced region, or carries a logical
link of a fenced die (R36). A logical link or a calendar lies on a die and in neither of its regions, so a fence of one region
alone does not touch a link through them (DESIGN CHOICE; log 270). -/
def linkFenced (s : State) (k : Nat) : Bool :=
  s.on (R.LNK_PROOF_fenced k) || (linkRegions s k).any (regionFenced s) ||
  (modeOf s k = mBundle &&
    ((activeLls s).any fun l => dieFenced s (llDie l) && ((llEnd s l 0).link = k || (llEnd s l 1).link = k)))

end Sys2Proof.Machine
end

