-- ==== Sys2Proof/Machine/Flags.lean ====
section
/-!
DEFINITION. Status that is computed and not stored: the device state (R34, R476), fences (R408, R409), FAULT_N (R471),
which pages answer (R3, R346, R352, R409, R474), and the registers that are views of other state.
-/

namespace Sys2Proof.Machine

/-! ## Device state -/

/-- Any unit or link stands fenced (R409): the package is then in GUARD. -/
def anyFenced (s : State) : Bool :=
  pkgFenced s || (List.range 2).any (dieFenced s) || (List.range 4).any (regionFenced s) ||
  (List.range (linksOf s)).any fun k => s.on (R.LNK_PROOF_fenced k)

/-- GLB.STATE.state (R481): 0 OFF, 1 START, 2 SERVICE, 3 WATCH, 4 GUARD, 5 TEST. -/
def deviceState (s : State) : Nat :=
  match s.dev.phase with
  | .off => 0
  | .start => 1
  | .run => if anyFenced s then 4 else 2
  | .watch => 3
  | .test => 5

/-- The device is in SERVICE or GUARD. -/
def inRun (s : State) : Bool := s.dev.phase = .run

/-- SERVICE or GUARD, with no WATCH or TEST entry in progress (R343, R351, R390). -/
def inService (s : State) : Bool := inRun s && !s.dev.watchEntry && s.dev.testEntry = 0

/-- FAULT_N is driven low (R471). -/
def faultN (s : State) : Bool :=
  match s.dev.phase with
  | .off | .start => true
  | .run | .test => pkgFenced s
  | .watch => s.dev.stuck

/-- A die's core clock is stopped (R336, R339). -/
def dieStopped (s : State) (d : Nat) : Bool := !s.on (R.CLK_STAT_core_lock d) || s.rd (R.CLK_STAT_core_ref d) = 3

/-- A PLL that could not move to the IFO has stopped its output: every register and state of its domain is held (R336). -/
def coreHeld (s : State) (d : Nat) : Bool := s.rd (R.CLK_STAT_core_ref d) = 3
def mgmtHeld (s : State) : Bool := s.clk.mgmtRef = 3 && s.dev.phase ≠ .off && s.dev.phase ≠ .watch

/-- A side's link is held with the core clock of a die it lies on, or with the seam it crosses (R336). -/
def sideHeld (s : State) (k : Nat) (sd : Side) : Bool :=
  coreHeld s (sideDie s k sd) ||
  (sideUsed s k sd.other && sideDie s k sd ≠ sideDie s k sd.other && (coreHeld s (sideDie s k sd.other) || s.clk.seamRef = 3))

/-- Neither REFCLK nor the IFO is usable. -/
def noClock (s : State) : Bool := !s.on R.CLK_STAT_refclk_good && !s.on R.CLK_STAT_ifo_ready

/-- Any supply warning is set (R400). -/
def anyWarn (s : State) : Bool := (List.range 4).any fun i => s.on (R.SUP_STAT_warn i)

/-! ## Pages -/

/-- The die 1 pages, absent on the LZ4064 (R3). -/
def die1Page (p : Nat) : Bool :=
  (0x18 ≤ p && p < 0x20) || (0x28 ≤ p && p < 0x30) || p = 0x32 || p = 0x33 || p = 0x39 || (0x80 ≤ p && p < 0xC0) ||
  (0xC4 ≤ p && p < 0xC8) || (0xCC ≤ p && p < 0xD0) || p = 0xD1

/-- The page is assigned and the part has it (R3, R484). -/
def pageExists (s : State) (p : Nat) : Bool := p < 0x100 && (Blk.ofPage p).isSome && !(isLz4064 s && die1Page p)

/-- The pages that may be gated (R347). -/
def gateable (p : Nat) : Bool := (0x10 ≤ p && p < 0x34) || (0x40 ≤ p && p < 0xC0) || p = 0xB || p = 0x7

/-- The die whose core clock a page runs on, for the pages of R409. -/
def pageDie (p : Nat) : Option Nat :=
  if 0x30 ≤ p ∧ p < 0x34 then some ((p - 0x30) / 2)
  else if 0x38 ≤ p ∧ p < 0x3A then some (p - 0x38)
  else if 0xC0 ≤ p ∧ p < 0xC8 then some ((p - 0xC0) / 4)
  else if 0xC8 ≤ p ∧ p < 0xD0 then some ((p - 0xC8) / 4)
  else if 0xD0 ≤ p ∧ p < 0xD2 then some (p - 0xD0)
  else none

/-- A page's clock is gated, or its die's core clock is stopped (R346, R409). -/
def pageGated (s : State) (p : Nat) : Bool :=
  (gateable p && s.rd (R.CLK_EN_en p) = 0) ||
  match pageDie p with
  | some d => dieStopped s d
  | none => false

/-- Nothing acts on the ends of a cluster: in OFF (R501), or while their page is gated (R346). -/
def clusterStopped (s : State) (c : Nat) : Bool := s.dev.phase = .off || pageGated s (0x10 + c)

/-- The pages that answer in START (R474) and in WATCH (R352). -/
def phaseOpens (s : State) (p : Nat) : Bool :=
  match s.dev.phase with
  | .off => false
  | .start => p ≤ 7 || p = 0x9 || p = 0xA || p = 0xE
  | .watch => p = 0 || p = 2
  | .run | .test => true

/-- The page answers with its registers: present, not closed, not gated, and the management domain runs (R336). -/
def pageOpen (s : State) (p : Nat) : Bool := pageExists s p && phaseOpens s p && !pageGated s p && !mgmtHeld s

/-- A register command takes effect only in a page that answers: writes to any other page are dropped and reads have no
side effect (R346, R483). -/
def ifOpen (p : Nat) (s t : State) : State := if pageOpen s p then t else s

/-- The same for a register of a unit that the part may lack: the page of an absent unit reads as zero and drops writes
(R3, R483). -/
def ifHas (present : Bool) (p : Nat) (s t : State) : State := if present && pageOpen s p then t else s

/-- STATUS.fenced of a page (R409, R488). -/
def pageFenced (s : State) (p : Nat) : Bool :=
  match Blk.ofPage p with
  | some (.clu, c) => regionFenced s (clusterRegion c)
  | some (.eqa, c) => regionFenced s (clusterRegion c)
  | some (.rgn, r) => regionFenced s r
  | some (.die, d) => dieFenced s d
  | some (.llt, p) => dieFenced s (p / 4)
  | some (.cal, h) => dieFenced s (h / 4)
  | some (.qst, d) => dieFenced s d
  | some (.lnk, k) => linkFenced s k
  | _ => false

/-! ## Interrupt delivery -/

/-- The class and the target that SRC_CFG gives a source; target 3 acts as 0 (R435). -/
def srcFast (s : State) (src : Nat) : Bool := s.on (R.SRC_CFG_class src)
def srcTarget (s : State) (src : Nat) : Nat := let t := s.rd (R.SRC_CFG_target src); if t = 3 then 0 else t

/-- Pending, enabled and not active: what R424 asks of the source itself. -/
def srcWaits (s : State) (src : Nat) : Bool :=
  sourceExists s src && s.on (R.SRC_CFG_pend src) && s.on (R.SRC_CFG_en src) && !s.on (R.SRC_CFG_active src)

/-- The priority order of R425. -/
def srcOrder : List Nat := [256, 257, 276, 277] ++ (List.range 304).filter fun n => !isNmi n

def cls (fast : Bool) : Nat := b2n fast

/-- The first source that waits for the bank of a host target. -/
def firstWaiting (s : State) (fast : Bool) (t : Nat) : Option Nat :=
  srcOrder.find? fun n => srcWaits s n && srcFast s n = fast && srcTarget s n = t

/-- The package is the ring head (R451). -/
def isHead (s : State) : Bool := s.rd R.STRAPS_ring_id = 0

/-- Order of ring entries (R430): the non-maskable sources first in their order, then ring id, then source. -/
def entryKey (e : RingEntry) : Nat :=
  let nmi := if e.src = 256 then 0 else if e.src = 257 then 1 else if e.src = 276 then 2 else if e.src = 277 then 3 else 4
  8192 * nmi + 1024 * e.ring + e.src

def firstEntry (s : State) (fast : Bool) : Option RingEntry :=
  (s.entries.filter fun e => e.fast = fast).foldl (fun best e =>
    match best with
    | none => some e
    | some b => if entryKey e < entryKey b then some e else some b) none

/-- A bank has something to deliver (R424, R430), whether or not it is serving. -/
def bankHas (s : State) (fast : Bool) (t : Nat) : Bool :=
  if t = 2 then isHead s && (firstEntry s fast).isSome else (firstWaiting s fast t).isSome

def bankServing (s : State) (fast : Bool) (t : Nat) : Bool := s.on (R.BANK_serving (cls fast) t)

/-- A bank is deliverable. -/
def bankReady (s : State) (fast : Bool) (t : Nat) : Bool := bankHas s fast t && !bankServing s fast t

/-- STATUS.waiting of a bank (R434). -/
def bankWaiting (s : State) (fast : Bool) (t : Nat) : Nat :=
  if t = 2 then (if isHead s then (s.entries.filter fun e => e.fast = fast).length else 0)
  else (srcOrder.filter fun n => srcWaits s n && srcFast s n = fast && srcTarget s n = t).length

/-- ALERT`t`_N is driven low (R428). -/
def alertN (s : State) (t : Nat) : Bool :=
  (s.dev.phase != .off) && (s.dev.phase != .watch) &&
  (bankReady s false t || bankReady s true t ||
    (isHead s && s.rd R.INT_CFG_ring_pin = t && (bankReady s false 2 || bankReady s true 2)))

/-- RING_OUT.active (R434): sources with target 2 that are active. -/
def ringOut (s : State) : Nat :=
  ((List.range 304).filter fun n => s.on (R.SRC_CFG_active n) && srcTarget s n = 2).length

end Sys2Proof.Machine
end

