-- ==== Sys2Proof/Machine/RingOps.lean ====
section
/-!
DEFINITION. Ring messages (R446) and their routing (R448), and the CRC-8 of R440, which the rings, the SPI port and the
SMBus port share. The messages a command sends are kept in `ring.sent` until the next command that sends.
-/

namespace Sys2Proof.Machine

/-- One bit step of the CRC-8 with polynomial x^8 + x^2 + x + 1 (R440). -/
def crc8Step (c : Nat) : Nat := if 128 ≤ c then (c * 2 - 256) ^^^ 7 else c * 2

def crc8Byte (c b : Nat) : Nat :=
  crc8Step (crc8Step (crc8Step (crc8Step (crc8Step (crc8Step (crc8Step (crc8Step (c ^^^ (b % 256)))))))))

/-- The CRC-8 of R440 over a byte sequence. -/
def crc8 (bs : List Nat) : Nat := bs.foldl crc8Byte 0

/-- The `n` bytes of a number, most significant first. -/
def beBytes : Nat → Nat → List Nat
  | 0, _ => []
  | n + 1, v => (v / 256 ^ n) % 256 :: beBytes n v

/-- The number that bytes spell, most significant first. -/
def beNat (bs : List Nat) : Nat := bs.foldl (fun a b => a * 256 + b % 256) 0

/-- The 32-bit words that bytes spell, most significant byte first. -/
def beWords : Nat → List Nat → List Nat
  | 0, _ => []
  | n + 1, bs => beNat (bs.take 4) :: beWords n (bs.drop 4)

/-- The package's own ring id (R467). -/
def ownId (s : State) : Nat := s.rd R.STRAPS_ring_id

/-- Position of a ring id on a ring (0 clockwise, 1 counter-clockwise), 15 for none (R449). -/
def ringPos (s : State) (ring id : Nat) : Nat :=
  if ring = 0 then s.rd (R.PCT_POS_CW_pos id) else s.rd (R.PCT_POS_CCW_pos id)

def State.setRingPos (s : State) (ring id p : Nat) : State :=
  if ring = 0 then s.wr (R.PCT_POS_CW_pos id) p else s.wr (R.PCT_POS_CCW_pos id) p

/-- The state of a ring input in PCT_STAT: 0 ALONE, 1 UP, 2 BROKEN, 3 CROSSED. -/
def hopState (s : State) (ring : Nat) : Nat := if ring = 0 then s.rd R.PCT_STAT_cw else s.rd R.PCT_STAT_ccw

def State.hop (s : State) (ring : Nat) : HopSt := if ring = 0 then s.ring.hop0 else s.ring.hop1
def State.putHop (s : State) (ring : Nat) (h : HopSt) : State :=
  if ring = 0 then { s with ring := { s.ring with hop0 := h } } else { s with ring := { s.ring with hop1 := h } }

/-- The output hop of a ring is up when the input from the same neighbour, that of the other ring, is up (R447). -/
def outUp (s : State) (ring : Nat) : Bool := hopState s (1 - ring) = 1

/-- The ring that leads to ring id `t`: that of the lower position, clockwise when equal, none without a position
(R448); other packages use their own positions toward the head. -/
def routeTo (s : State) (t : Nat) : Option Nat :=
  let id := if isHead s then t else ownId s
  let p0 := ringPos s 0 id
  let p1 := ringPos s 1 id
  if p0 = 15 && p1 = 15 then none else if p0 ≤ p1 then some 0 else some 1

/-- A ring message as its bytes after COM: type, address, body, CRC (R446). -/
def ringBytes (type dest src : Nat) (body : List Nat) : List Nat :=
  let bs := type :: (dest % 8 * 32 + src % 8 * 4) :: body
  bs ++ [crc8 bs]

/-- No message sent yet by this command. -/
def State.freshOut (s : State) : State := { s with ring := { s.ring with sent := [] } }

/-- Put a message on a ring output. -/
def State.sendOn (s : State) (ring : Nat) (bytes : List Nat) : State :=
  { s with ring := { s.ring with sent := s.ring.sent ++ [(ring, bytes)] } }

/-- Send a message to ring id `t` along its route (R448); nothing is sent without one. -/
def State.sendTo (s : State) (t type : Nat) (body : List Nat) : State :=
  match routeTo s t with
  | some ring => s.sendOn ring (ringBytes type t (ownId s) body)
  | none => s

/-- Send a message around both rings (R446). A broadcast names the sender as destination too, so that it goes round. -/
def State.broadcast (s : State) (type : Nat) (body : List Nat) : State :=
  (s.sendOn 0 (ringBytes type (ownId s) (ownId s) body)).sendOn 1 (ringBytes type (ownId s) (ownId s) body)

/-- The part code (R7). -/
def partCode (s : State) : Nat := if isLz4064 s then 0x4064 else 0x4128

/-- READY goes to the head; the head enters its own (R446, R475). -/
def State.sendReady (s : State) : State :=
  if isHead s then s.wr R.PCT_STAT_ready (s.rd R.PCT_STAT_ready ||| 1)
  else s.sendTo 0 0x0A (beBytes 2 (partCode s))

end Sys2Proof.Machine
end

