-- ==== Sys2Proof/Machine/Interrupts.lean ====
section
/-!
DEFINITION. The interrupt controller (chapter The interrupt controller, R420-R436): inputs, claims, completions,
doorbells, source settings and delivery to the ring head.
-/

namespace Sys2Proof.Machine

open Sys2Proof

/-- A register-level command answers one word. -/
def State.answerWord (s : State) (v : Nat) : State := { s with host := { s.host with answer := [v] } }

/-- A claim takes effect at the source: pending and count clear, it is active (R425, R429). -/
def claimSource (src : Nat) (s : State) : State :=
  (((s.wr (R.SRC_CFG_pend src) 0).wr (R.SRC_CFG_count src) 0).wr (R.SRC_CFG_active src) 1).relevel src

/-- The bank of a class and target begins to serve a source. -/
def bankServe (cl t ring src : Nat) (s : State) : State :=
  (((s.wr (R.BANK_serving cl t) 1).wr (R.BANK_none_why cl t) 0).wr (R.BANK_ring cl t) ring).wr (R.BANK_source cl t) src

/-- The bank of a class and target stops serving. -/
def bankIdle (cl t : Nat) (s : State) : State :=
  ((s.wr (R.BANK_serving cl t) 0).wr (R.BANK_ring cl t) 0).wr (R.BANK_source cl t) 0x3FF

/-- The word CLAIM answers: count, ring id and source (R434). -/
def claimWord (count ring src : Nat) : Nat := count * 65536 + ring * 4096 + src

/-- A claim that returns NONE, with its reason: 1 EMPTY, 2 SERVING, 3 FAST_FIRST (R425). -/
def claimNone (cl t why : Nat) (s : State) : Nat × State := (0x3FF, s.wr (R.BANK_none_why cl t) why)

/-- claim(bank) of R425, and of R430 for the ring banks. -/
def claim (fast : Bool) (t : Nat) (s : State) : Nat × State :=
  let cl := cls fast
  if bankServing s fast t then
    (if t = 2 && !isHead s then claimNone cl t 1 s else claimNone cl t 2 s)
  else if t = 2 then
    if !isHead s then claimNone cl t 1 s else
    match firstEntry s fast with
    | none => claimNone cl t 1 s
    | some e =>
      (claimWord e.count e.ring e.src,
        bankServe cl t e.ring e.src { s with entries := s.entries.filter fun x => !(x = e) })
  else if !fast && bankReady s true t then claimNone cl t 3 s
  else match firstWaiting s fast t with
    | none => claimNone cl t 1 s
    | some src =>
      (claimWord (s.rd (R.SRC_CFG_count src)) 0 src, bankServe cl t 0 src (claimSource src s))

/-- A stray completion (R426). -/
def stray (cl t src ring : Nat) (s : State) : State :=
  (((((s.bump R.STRAY_count).wr R.STRAY_class cl).wr R.STRAY_ring ring).wr R.STRAY_target t).wr R.STRAY_source src).raise 285

/-- A source of this package stops being active (R426, R430). -/
def endService (src : Nat) (s : State) : State :=
  { s.wr (R.SRC_CFG_active src) 0 with ring := { s.ring with resend := s.ring.resend.filter fun x => x ≠ src } }

/-- The write of COMPLETE (R426, R430). -/
def complete (fast : Bool) (t src ring : Nat) (s : State) : State :=
  let cl := cls fast
  if src = 0x3FF then s
  else if bankServing s fast t && s.rd (R.BANK_source cl t) = src && (t ≠ 2 || (isHead s && s.rd (R.BANK_ring cl t) = ring)) then
    let s := bankIdle cl t s
    if t = 2 && ring ≠ 0 then s.sendTo ring 0x09 (beBytes 2 src) else endService src s
  else stray cl t src ring s

/-- Write SRC_CFG of a source (R423, R435): pend is W1C, enable and class are fixed for the non-maskable sources. -/
def writeSrcCfg (src v : Nat) (s : State) : State :=
  if !sourceExists s src then s else
  let s := if bit v 31 && !isNmi src then (s.wr (R.SRC_CFG_pend src) 0).wr (R.SRC_CFG_count src) 0 else s
  let s := s.wr (R.SRC_CFG_target src) (bits v 9 8)
  let s := s.wr (R.SRC_CFG_sense src) (bits v 3 2)
  let s := if isNmi src then s else (s.wr (R.SRC_CFG_class src) (bits v 4 4)).wr (R.SRC_CFG_en src) (bits v 0 0)
  s.relevel src

/-- Doorbells: a 1 in bit i raises source 296 + i (R434). -/
def ringDoorbells (v : Nat) (s : State) : State :=
  (List.range 8).foldl (fun s i => if bit v i then s.raise (296 + i) else s) s

/-- The head is reachable from this package: it has a position of its own on some ring, and TIME comes from the head, as it does
at every package that a ring reaches; one reached by neither keeps its positions and reaches nothing (R429, R449, R450;
DEDUCED, log 281). -/
def headReachable (s : State) : Bool := (routeTo s 0).isSome && s.on R.PCT_STAT_time_ok

/-- The body of a DELIVER: class, source and count (R446). -/
def deliverBody (fast : Bool) (src count : Nat) : List Nat := beBytes 2 ((if fast then 32768 else 0) + src) ++ [count]

/-- A source with target 2 is deliverable, at the head while its ring bank serves none (R424), and is to be sent or entered, with
no fast one before it where it is sent (R429). -/
def mayDeliver (s : State) (src : Nat) : Bool :=
  srcWaits s src && srcTarget s src = 2 &&
  (if isHead s then !bankServing s (srcFast s src) 2
   else headReachable s && (srcFast s src || (firstWaiting s true 2).isNone))

/-- Send DELIVER, or enter the source at the head, with the effect of a claim (R429). -/
def deliver (src : Nat) (s : State) : State :=
  let count := s.rd (R.SRC_CFG_count src)
  let fast := srcFast s src
  let s := { s with ring := { s.ring with resend := s.ring.resend ++ [src] } }
  if isHead s then
    claimSource src { s with entries := s.entries ++ [{ ring := 0, src := src, fast := fast, count := count }] }
  else claimSource src (s.sendTo 0 0x08 (deliverBody fast src count))

/-! ## Meanings -/

/-- The sources with a level input; every other has a pulse input (R420). -/
def levelSource (src : Nat) : Bool :=
  (260 ≤ src && src ≤ 268) || (272 ≤ src && src ≤ 275) || (278 ≤ src && src ≤ 281) || src = 286 || src = 287

/-- SOURCE_INPUT (R421): a pulse at a pulse input, a value at a level input; an input has events of its own kind alone (R420). -/
def execSourceInput (src : Nat) (ev : InputEvent) (s : State) : Host.Outcome State Fault Refusal :=
  onUnit (src < 320) (match ev with
    | .pulse => if levelSource src then s else s.raise src
    | .level v => if levelSource src then s.setInput src v else s)

/-- INT_CLAIM (R425, R430): a read of CLAIM. -/
def execIntClaim (fast : Bool) (t : Nat) (s : State) : Host.Outcome State Fault Refusal :=
  .next (if pageOpen s (4 + cls fast) && t < 3 then
    let r := claim fast t s
    r.2.answerWord r.1
  else s.answerWord 0)

/-- INT_COMPLETE (R426, R430): a write of COMPLETE. -/
def execIntComplete (fast : Bool) (t src ring : Nat) (s : State) : Host.Outcome State Fault Refusal :=
  .next (if pageOpen s (4 + cls fast) && t < 3 then complete fast t (src % 1024) (ring % 8) s.freshOut else s)

/-- DOORBELL_WRITE (R434). -/
def execDoorbellWrite (v : Nat) (s : State) : Host.Outcome State Fault Refusal :=
  .next (ifOpen 4 s (ringDoorbells v s))

/-- SRC_CFG_WRITE (R435). -/
def execSrcCfgWrite (src v : Nat) (s : State) : Host.Outcome State Fault Refusal :=
  .next (ifOpen 6 s (writeSrcCfg src v s))

/-- RING_DELIVER_SEND (R429). -/
def execRingDeliverSend (src : Nat) (s : State) : Host.Outcome State Fault Refusal :=
  .next (if mayDeliver s src && s.dev.phase != .off && s.dev.phase != .watch then deliver src s.freshOut else s)

/-- DELIVER_RESEND (R453): sent again while the source stays active because of it; a repeat carries count 0. -/
def execDeliverResend (src : Nat) (s : State) : Host.Outcome State Fault Refusal :=
  .next (if s.ring.resend.contains src && s.on (R.SRC_CFG_active src) && !isHead s && headReachable s
    then s.freshOut.sendTo 0 0x08 (deliverBody (srcFast s src) src 0) else s)

end Sys2Proof.Machine
end

