-- ==== Sys2Proof/Config.lean ====
section
/-!
DEFINITION. What the spec leaves open, as constants without a body: values the device draws or chooses, and the
cryptographic functions the spec takes from other standards. Nothing can be proved about their values.
-/

namespace Sys2Proof.Config

/-- The election value N of draw number `i`, 1-65535 (R141): only its range is known. -/
opaque electDraw : Nat → Nat

/-- Which of the free slots of a bank an allocation takes (R274 fixes the bank alone). -/
opaque slotChoice : Nat → Nat

/-- The 9 check bits stored with a code word of 151 bits, bit 8 first: some Hamming code with overall parity (R269 does not fix
its matrix). -/
opaque eccCheck : List Bool → Nat

/-- The CTLE setting that the device chooses for an entry clock end at a rung (R111). -/
opaque clockCtle : Nat → Nat

/-- A value that the spec leaves open, one for each draw. -/
opaque freeValue : Nat → Nat

/-- The signature of a region's logic test that the ROM holds (R377). -/
opaque lbistRom : Nat → Nat

/-- What a boundary cell holds after load number `i` of the boundary register: the bits come from outside (R393). -/
opaque cellValue : Nat → Pad → Bool

/-- SHA-384 as 48 bytes (R122, R372, R459). -/
opaque sha384 : List Nat → List Nat

/-- HMAC-SHA-384 of a message under a key (R455). -/
opaque hmac384 : List Nat → List Nat → List Nat

/-- ECDSA P-384 verification of (r, s) over a SHA-384 digest under a public key (R462). -/
opaque ecdsaVerify : List Nat → List Nat → List Nat → Bool

/-- The ECDSA P-384 signature r then s over a digest, by the identity key (R458). -/
opaque ecdsaSign : List Nat → List Nat

/-- The order of the P-384 base point, against which R462 checks r and s. -/
def p384Order : Nat :=
  0xFFFFFFFFFFFFFFFFFFFFFFFFFFFFFFFFFFFFFFFFFFFFFFFFC7634D81F4372DDF581A0DB248B0A77AECEC196ACCC52973

end Sys2Proof.Config
end

