-- ==== Sys2Proof/Machine/CalOps.lean ====
section
/-!
DEFINITION. The calibration sequencer of a cluster (chapter Calibration and the saffron set, R360-R369): its ends, its
queue, and how a run ends.
-/

namespace Sys2Proof.Machine

def State.calSeq (s : State) (c : Nat) : CalSeq := Tbl.get {} s.cal c

/-- Store a cluster's sequencer; CAL_STAT follows it (R373). -/
def State.putCal (s : State) (c : Nat) (v : CalSeq) : State :=
  let s := { s with cal := Tbl.put {} c v s.cal }
  let s := s.wrB (R.CAL_STAT_running c) v.cur.isSome
  let s := s.wr (R.CAL_STAT_run_end c) (v.cur.getD 0)
  s.wr (R.CAL_STAT_queued c) v.queue.length

/-- Number of correction items of an end (R360). -/
def calItems (e : Nat) : Nat := if e < 18 then 18 else 2

/-- Corrections before any run: CORR_IMP's reset value for TX ends, zero for RX ends. -/
def calCorr0 (e : Nat) : List Int := if e < 18 then List.replicate 18 0 else [32, 32]

def CalSeq.endOf (q : CalSeq) (e : Nat) : CalEnd := Tbl.get {} q.ends e
def CalSeq.putEnd (q : CalSeq) (e : Nat) (v : CalEnd) : CalSeq := { q with ends := Tbl.put {} e v q.ends }

/-- The corrections in force on an end. -/
def CalSeq.corrOf (q : CalSeq) (e : Nat) : List Int := if (q.endOf e).corr = [] then calCorr0 e else (q.endOf e).corr

/-- Lower and upper bound of an item's code (R360). -/
def calRange (e i : Nat) : Int × Int := if e < 18 then (if i = 17 then (0, 127) else (-32, 31)) else (0, 63)

def clampInt (lo hi v : Int) : Int := if v < lo then lo else if hi < v then hi else v

/-- Do two measurements agree (R365)? -/
def calAgree (tol : Nat) (m : Int × Int) : Bool := (m.1 - m.2).natAbs ≤ max 1 tol

/-- The mean of two measurements; a half is rounded toward the value in force (R365). -/
def calMean (v : Int) (m : Int × Int) : Int :=
  let sum := m.1 + m.2
  let lo := sum / 2
  if sum % 2 = 0 then lo else if v ≤ lo then lo else lo + 1

/-- The accepted value of every item of a run; an item that disagrees keeps the value in force (R365). -/
def calAccept (e tol : Nat) (corr : List Int) (meas : CalMeasure) : List Int :=
  (List.range (calItems e)).map fun i =>
    let v := corr.getD i 0
    let m := meas.getD i (v, v)
    if calAgree tol m then clampInt (calRange e i).1 (calRange e i).2 (calMean v m) else v

/-- An end as lane, and side: RX ends 0-17, TX ends 18-35; 36 and 37 are the exit clock ends (R360). -/
def calEndLane (c e : Nat) : Nat := laneAt c (e % 9)
def calEndSide (e : Nat) : Side := if e = 36 then .a else if e = 37 then .b else Side.ofIdx (e / 9 % 2)

/-- The cluster direction an end belongs to: its entry side for an RX end, its exit side for a TX or clock end. -/
def calEndDir (e : Nat) : Dir := if e < 18 then (calEndSide e).dirIn else (calEndSide e).dirOut

/-- Can the end be run now (R364)? -/
def calEligible (s : State) (c e : Nat) : Bool :=
  ckRate s c (calEndDir e) ≠ 7 &&
  !(e < 36 && e % 9 = 8 && (s.bob c).slice) &&
  !(if e < 18 then s.on (leRxOpen (calEndLane c e) (calEndSide e))
    else if e < 36 then s.rd (leTxFault (calEndLane c e) (calEndSide e)) ≠ 0
    else (s.ckExit c (calEndDir e)).txFault ≠ 0)

/-- The adaptation engine holds the sentinel of an RX end (R114). -/
def sentinelHeld (s : State) (c e : Nat) : Bool := e < 18 && (Tbl.get {} s.adapt c : AdaptSt).cur = some e

/-- The last sample of a cluster, in quarter degrees. -/
def lastTemp (s : State) (c : Nat) : Int := signed 11 (s.rd (R.CAL_TEMP_temp c))

/-- The end whose run is next: the first of the queue that is not skipped, where no run is in progress and no step waits
(R363, R364). -/
def calNext (s : State) (c : Nat) : Option Nat :=
  let q := s.calSeq c
  if q.cur.isSome || q.waitStep.isSome || s.on (R.CAL_STAT_rext_fault c) || s.rd (R.CLK_EN_en (0x20 + c)) = 0 then none
  else q.queue.find? (calEligible s c)

/-- The next run starts, unless the adaptation engine holds its sentinel; the run then waits (R361). -/
def calRunStart (c : Nat) (s : State) : State :=
  match calNext s c with
  | none => s
  | some e => if sentinelHeld s c e then s.putCal c { s.calSeq c with asked := true }
    else s.putCal c { s.calSeq c with cur := some e, curTemp := lastTemp s c, asked := false }

/-- A run that waited for its sentinel starts if it is free (R361). -/
def calResume (c : Nat) (s : State) : State := if (s.calSeq c).asked then calRunStart c s else s

/-- The end belongs to a link side that is UP: it carries traffic. -/
def endCarries (s : State) (c e : Nat) : Bool :=
  e < 36 && match endUse s (calEndLane c e) (calEndSide e) with
    | some (k, _) => spanUp s k (calEndSide e)
    | none => false

/-- The end belongs to a TRANSPARENT link. -/
def endTransparent (s : State) (c e : Nat) : Bool :=
  e < 36 && match endUse s (calEndLane c e) (calEndSide e) with
    | some (k, _) => modeOf s k = mTransparent
    | none => false

/-- An end becomes due, with a cause (0 START, 1 TEMP, 2 COMMAND, 3 RETRY); it joins the queue unless it is in it
(R363). -/
def calDue (c cause e : Nat) (s : State) : State :=
  let q := s.calSeq c
  let s := s.wr (R.CAL_DUE c e) 1
  if q.queue.contains e || q.cur = some e then s
  else s.putCal c ({ q with queue := q.queue ++ [e] }.putEnd e { q.endOf e with cause := cause })

/-- Source 16c + 9 when the queue becomes empty after a run (R367). -/
def calEmptied (c : Nat) (s : State) : State :=
  if (s.calSeq c).queue = [] then s.raise (16 * c + 9) else s

/-- The end leaves the queue. -/
def calLeave (c e : Nat) (s : State) : State :=
  let q := s.calSeq c
  calEmptied c (s.putCal c { q with queue := q.queue.filter fun x => x ≠ e })

/-- The accepted items of an end take effect as one step; an end that is no longer due leaves the queue (R365-R367). -/
def calApply (c e : Nat) (s : State) : State :=
  let q := s.calSeq c
  let en := q.endOf e
  let q := q.putEnd e { en with corr := en.accepted.getD (q.corrOf e), accepted := none }
  let s := s.putCal c { q with waitStep := none }
  if s.on (R.CAL_DUE c e) then s else calLeave c e s

/-- CAL_LAST and CAL_CNT at the end of a run (R373): 1 DONE, 2 PARTIAL, 3 ABORTED, 4 REXT. -/
def calRecord (c e result : Nat) (s : State) : State :=
  let q := s.calSeq c
  let s := (s.wr (R.EQA_CAL_LAST_valid c) 1).wr (R.CAL_LAST_result c) result
  let s := (s.wr (R.CAL_LAST_cause c) (q.endOf e).cause).wr (R.CAL_LAST_end c) e
  (s.wr (R.CAL_LAST_temp c) (unsigned 11 q.curTemp)).bump (R.CAL_CNT_runs c)

/-- The end of a run that applies nothing: the end stays due at the back of the queue (R359, R361, R369). -/
def calStop (c result : Nat) (s : State) : State :=
  let q := s.calSeq c
  match q.cur with
  | none => s
  | some e =>
    let s := calRecord c e result s
    s.putCal c { q with cur := none, queue := (q.queue.filter fun x => x ≠ e) ++ [e] }

/-- A run on end `e` ends ABORTED (R361, R369). -/
def calAbort (c e : Nat) (s : State) : State := if (s.calSeq c).cur = some e then calStop c 3 s else s

/-- Any run of the cluster ends ABORTED. -/
def calAbortAny (c : Nat) (s : State) : State := calStop c 3 s

/-- A run on an end of cluster direction `d` ends ABORTED (R369: a switchover, a borrow, a span in SWITCH). -/
def calAbortDir (c : Nat) (d : Dir) (s : State) : State :=
  match (s.calSeq c).cur with
  | some e => if calEndDir e = d then calStop c 3 s else s
  | none => s

/-- An eye measurement on an end ends ABORTED (R370). -/
def eyeAbort (c e : Nat) (s : State) : State :=
  let q := s.calSeq c
  if q.eye = some e then (s.putCal c { q with eye := none }).wr (R.EYE_STAT_status c) 3 else s

/-- An eye measurement on an end of cluster direction `d` ends ABORTED. -/
def eyeAbortDir (c : Nat) (d : Dir) (s : State) : State :=
  match (s.calSeq c).eye with
  | some e => if calEndDir e = d then eyeAbort c e s else s
  | none => s

/-- Acquisition takes the sentinel of an RX end (R361, R370). -/
def sentinelTaken (c e : Nat) (s : State) : State := eyeAbort c e (calAbort c e s)

end Sys2Proof.Machine
end

