-- ==== Sys2Proof/Machine/TestOps.lean ====
section
/-!
DEFINITION. Self-test runs and lane loops as other chapters end them (R316, R374, R375, R383, R384, R386).
-/

namespace Sys2Proof.Machine

/-- Bobbin states of BOB_STAT (R316, R328). -/
def bbReady : Nat := 0
def bbSwapping : Nat := 1
def bbIn : Nat := 2
def bbReturning : Nat := 3
def bbOut : Nat := 4

/-- The virtual page of a lane's LB_CFG to LB_EB registers. -/
def lanePage (n : Nat) : Nat := 0x1000 + n

/-- A loop, a generator or a checker is set on the lane. -/
def loopOn (s : State) (n : Nat) : Bool :=
  s.on (R.LB_CFG_active (lanePage n)) || s.on (R.PRBS_GEN_en (lanePage n)) || s.on (R.PRBS_CHK_en (lanePage n))

/-- The pads of a TX end are driven by a generator or a far-end loop; a near-end loop holds those it joins in electrical idle
(R385, R387). -/
def padDriven (s : State) (n : Nat) (sd : Side) : Bool :=
  let v := lanePage n
  let loop := if s.on (R.LB_CFG_active v) then s.rd (R.LB_CFG_loop v) else 0
  let near := (loop = 1 || loop = 2) && sd = (Dir.ofIdx (s.rd (R.LB_CFG_dir v))).outSide
  !near && ((loop = 3 && s.rd (R.LB_CFG_dir v) = sd.idx) ||
    (s.on (R.PRBS_GEN_en v) && s.rd (R.PRBS_GEN_side v) = sd.idx && s.rd (R.PRBS_GEN_pattern v) ≠ 0))

/-- The RX end takes its input from a near-end loop, its own or that of a bobbin slice (R383, R385): it ignores its pads. -/
def nearLoop (s : State) (n : Nat) (sd : Side) : Bool :=
  let v := lanePage n
  (s.on (R.LB_CFG_active v) && (s.rd (R.LB_CFG_loop v) = 1 || s.rd (R.LB_CFG_loop v) = 2) &&
    sd = (Dir.ofIdx (s.rd (R.LB_CFG_dir v))).inSide) || (128 ≤ n && (s.bob (n - 128)).slice)

/-- A checker reads the RX end: its lane's, or that of a bobbin slice (R383, R388). -/
def checked (s : State) (n : Nat) (sd : Side) : Bool :=
  (s.on (R.PRBS_CHK_en (lanePage n)) && s.rd (R.PRBS_CHK_side (lanePage n)) = sd.idx) || (128 ≤ n && (s.bob (n - 128)).slice)

/-- The pattern that a generator sends at the TX end, its lane's or that of a bobbin slice (R383, R387). -/
def genPattern (s : State) (n : Nat) (sd : Side) : Option Nat :=
  let v := lanePage n
  if 128 ≤ n && (s.bob (n - 128)).slice then some 5
  else if s.on (R.PRBS_GEN_en v) && s.rd (R.PRBS_GEN_side v) = sd.idx && s.rd (R.PRBS_GEN_pattern v) ≠ 0
  then some (s.rd (R.PRBS_GEN_pattern v)) else none

/-- The directions a loop uses: its own for a near-end loop, both for a far-end one (R385). -/
def loopDirs (loop dir : Nat) : List Dir := if loop = 0 then [] else if loop = 3 then [.ab, .ba] else [Dir.ofIdx dir]

/-- The loop, the generator or the checker of a lane runs on a cluster direction. -/
def laneTests (s : State) (n : Nat) (d : Dir) : Bool :=
  let v := lanePage n
  (s.on (R.LB_CFG_active v) && (loopDirs (s.rd (R.LB_CFG_loop v)) (s.rd (R.LB_CFG_dir v))).contains d) ||
  (s.on (R.PRBS_GEN_en v) && (Side.ofIdx (s.rd (R.PRBS_GEN_side v))).dirOut = d) ||
  (s.on (R.PRBS_CHK_en v) && (Side.ofIdx (s.rd (R.PRBS_CHK_side v))).dirIn = d)

/-- Step CALIBRATE of START runs, with the cluster PLLs at L1 (R368). -/
def calibrating (s : State) : Bool := s.dev.phase = .start && s.rd R.START_STAT_step = 3 && s.dev.testEntry = 0

/-- The rung at which an idle direction runs for a test alone: L1 in the calibration of START (R368) and for a bobbin slice
that started it (R383), LB_CFG.rung for loops, generators and checkers (R386). -/
def testRung (s : State) (c : Nat) (d : Dir) : Option Nat :=
  if calibrating s || ((s.bob c).slice && (s.bob c).started.contains d.idx) then some 1
  else (((List.range 9).map (laneAt c)).find? fun n => laneTests s n d).map fun n => s.rd (R.LB_CFG_rung (lanePage n))

/-! ## Self-test runs (R374, R375) -/

/-- Result codes of R374 and causes of R375. -/
def resPass : Nat := 1
def resRepaired : Nat := 2
def resFail : Nat := 3
def resIncomplete : Nat := 4
def resAborted : Nat := 5
def resLimit : Nat := 6
def causeRefclk : Nat := 1
def causePlevel : Nat := 2
def causeSupply : Nat := 3
def causePreempt : Nat := 4
def causeHost : Nat := 5
def causeFence : Nat := 6
def causeStall : Nat := 7

/-- The limit of R376 that does not hold for a run on die `d`, lowest cause first; 0 when all hold. -/
def limitCause (s : State) (d : Nat) : Nat :=
  if !s.on R.CLK_STAT_refclk_good then causeRefclk
  else if 2 ≤ s.rd (R.PL_STAT_level d) then causePlevel
  else if anyWarn s then causeSupply
  else 0

/-- The logged rows of a die, and the repaired or fused rows of a bank, among rows identified as (33 × die + bank) × 128 + row
(R379, R380). -/
def rowsOfDie (d : Nat) (l : List Nat) : List Nat := l.filter fun r => r / 128 / 33 = d
def rowsOfBank (d b : Nat) (l : List Nat) : List Nat := l.filter fun r => r / 128 = 33 * d + b

/-- A row that a run repairs takes a spare row and goes to the repair log of its die, 32 rows each, unless it stands there; one
that finds no place sets overflow and is not fused (R379, R380). -/
def repairRow (d b row : Nat) (s : State) : State :=
  let s := s.bump (R.BANK_STAT_rows d b)
  let r := (33 * d + b) * 128 + row
  if s.bist.log.contains r then s
  else if (rowsOfDie d s.bist.log).length < 32 then
    { (s.bump (R.BST_REPAIR_log d)).wr (R.BANK_STAT_fuse d b) 1 with bist := { s.bist with log := s.bist.log ++ [r] } }
  else s.wr R.BST_REPAIR_overflow 1

/-- The failing rows that a run found in a bank, each once (R379). -/
def rowsFound (l : List Nat) : List Nat := (l.map (· % 128)).eraseDups

end Sys2Proof.Machine
end

