-- ==== Sys2Proof/Machine/BufOps.lean ====
section
/-!
DEFINITION. The flit buffer (chapter The flit buffer and descriptor table, R268-R286): slots and their addresses,
allocation, errors of reads, bank rotation and retirement. A slot is referred to by die × 65,536 + its slot address
(R268); the lists of the engines hold the first copy of a mirrored pair, and the pair is found by `partner`.
-/

namespace Sys2Proof.Machine

/-! ## Slots -/

def refDie (r : Nat) : Nat := r / 65536
def refAddr (r : Nat) : Nat := r % 65536
def refBank (r : Nat) : Nat := r % 65536 / 1024

def State.slot (s : State) (r : Nat) : Slot := Tbl.get {} s.slots r
def State.putSlot (s : State) (r : Nat) (v : Slot) : State := { s with slots := Tbl.put {} r v s.slots }

/-- Slot states of DESC_W0 (R271). -/
def stFree : Nat := 0
def stWriting : Nat := 1
def stLive : Nat := 2
def stBad : Nat := 3

/-- The role bits of R272: at least one keeps the slot LIVE. -/
def Slot.held (x : Slot) : Bool := x.darn || x.custody || x.numbered || x.queued

/-- The other copy of a mirrored slot. -/
def State.partnerOf (s : State) (r : Nat) : Option Nat :=
  let x := s.slot r
  if x.partner = 0xFFFF then none else some (refDie r * 65536 + x.partner)

/-! ## What a slot stores (R269) -/

/-- The flit's 144 bytes as they arrived. -/
def flitBytes (x : Slot) : List Nat := (List.range 144).map fun i => x.bytes.getD i 0

/-- Bytes 0-150 of slot `r`: the flit, the tag, and the fields the descriptor repeats. -/
def slotBytes (r : Nat) (x : Slot) : List Nat :=
  flitBytes x ++ [refAddr r / 256, refAddr r % 256, x.cls * 64 + x.copy * 32 + x.vc,
    b2n x.ll * 128 + x.dir * 64 + x.owner / 256, x.owner % 256, x.xlpSeq / 256, x.xlpSeq % 256]

/-- The 1,208 bits of those bytes, bit 7 of byte 0 first. -/
def slotBits (r : Nat) (x : Slot) : List Bool := (slotBytes r x).flatMap fun b => (List.range 8).map fun i => bit b (7 - i)

/-- Code word `j` as stored: 151 data bits and 9 check bits (Config.eccCheck). -/
def codeWord (r : Nat) (x : Slot) (j : Nat) : List Bool :=
  let data := ((slotBits r x).drop (151 * j)).take 151
  data ++ (List.range 9).map fun i => bit (Config.eccCheck data) (8 - i)

/-- The 160 bytes of a slot as bits: the data of the eight code words, then their check bits. -/
def slotImage (r : Nat) (x : Slot) : List Bool :=
  slotBits r x ++ (List.range 8).flatMap fun j => (codeWord r x j).drop 151

def State.buf (s : State) (d : Nat) : DieBuf := Tbl.get {} s.dies d
def State.putBuf (s : State) (d : Nat) (v : DieBuf) : State := { s with dies := Tbl.put {} d v s.dies }

/-- The references of die `d` that are not FREE. -/
def dieRefs (s : State) (d : Nat) : List Nat := (Tbl.keys s.slots).filter fun r => refDie r = d

/-- BUF_OCC.live (R286): LIVE, WRITING and BAD slots. -/
def bufLive (s : State) (d : Nat) : Nat := (dieRefs s d).length

/-- Slots of bank number `l` that are not FREE. -/
def numberUsed (s : State) (d l : Nat) : Nat := ((dieRefs s d).filter fun r => refBank r = l).length

/-- The physical bank that serves the addresses of bank number `l`; 63 none. -/
def bankFor (s : State) (d l : Nat) : Nat :=
  match (s.buf d).serves.find? fun p => p.1 = l with
  | some p => p.2
  | none => if l < 32 then l else 63

/-- The bank number whose addresses a physical bank serves. -/
def numberOf (s : State) (d b : Nat) : Option Nat := (List.range 33).find? fun l => bankFor s d l = b

/-- LIVE slots of bank number `l`, in address order. -/
def liveSlots (s : State) (d l : Nat) : List Nat := (dieRefs s d).filter fun r => refBank r = l && (s.slot r).state = stLive

/-- LIVE slots of a physical bank (R284, R288). -/
def bankLive (s : State) (d b : Nat) : Nat :=
  match numberOf s d b with
  | some l => (liveSlots s d l).length
  | none => 0

def setServes (d l b : Nat) (s : State) : State :=
  let v := s.buf d
  s.putBuf d { v with serves := (l, b) :: v.serves.filter fun p => p.1 ≠ l }

def bankState (s : State) (d b : Nat) : Nat := s.rd (R.BANK_STAT_state d b)

/-- Bank states of BANK_STAT (R281, R288), and phases of BUF_STAT.rot. -/
def bkInService : Nat := 0
def bkStandby : Nat := 1
def bkSaving : Nat := 2
def bkTesting : Nat := 3
def bkRestoring : Nat := 4
def bkEvacuating : Nat := 5
def bkRetired : Nat := 6

def rotOf (s : State) (d : Nat) : Nat := s.rd (R.BUF_STAT_rot d)

/-- A bank test, or the save before it, or the restore after it, is in progress. -/
def bankSliceRuns (s : State) (d : Nat) : Bool := let r := rotOf s d; 1 ≤ r && r ≤ 3

/-- A slice or an evacuation is in progress (R285). -/
def rotBusy (s : State) (d : Nat) : Bool := rotOf s d ≠ 0

/-- Retired banks of a die (R284). -/
def retiredBanks (s : State) (d : Nat) : Nat := s.rd (R.BUF_STAT_retired d)

/-! ## Allocation (R274, R286) -/

/-- May slots be allocated under bank number `l` (R274)? A stand-in reads IN_SERVICE while it serves; allocation in it
stops while the bank it stands in for is RESTORING. -/
def allocatable (s : State) (d l : Nat) : Bool :=
  let b := bankFor s d l
  b ≠ 63 && bankState s d b = bkInService && !s.on (R.BANK_STAT_suspect d b) &&
  !(rotOf s d = 3 && (s.buf d).standIn = b)

def freeUnder (s : State) (d l : Nat) : Nat := 1024 - numberUsed s d l

/-- The allocatable bank number with the most free slots, the lowest on a tie, other than the banks of `excl`. -/
def allocNumber (s : State) (d : Nat) (excl : List Nat) : Option Nat :=
  (List.range 33).foldl (fun best l =>
    if !allocatable s d l || excl.contains l || freeUnder s d l = 0 then best else
    match best with
    | none => some l
    | some b => if freeUnder s d b < freeUnder s d l then some l else some b) none

/-- The free slots of a bank number. -/
def freeSlots (s : State) (d l : Nat) : List Nat :=
  (List.range 1024).filter fun i => (s.slot (d * 65536 + l * 1024 + i)).state = stFree

/-- BUF_OCC.peak and event OCC_HIGH after a slot was taken (R286). -/
def occTaken (d : Nat) (s : State) : State :=
  let live := bufLive s d
  let s := if s.rd (R.BUF_OCC_peak d) < live then s.wr (R.BUF_OCC_peak d) live else s
  if live = s.rd (R.BUF_CFG_occ_hwm d) + 1 then s.dieEvent d 4 else s

/-- Take a free slot outside the banks of `excl` and fill it; none when the die has no allocatable free slot. Which free
slot of the bank is taken is left open (Config.slotChoice). -/
def allocSlot (d : Nat) (excl : List Nat) (x : Slot) (s : State) : Option (Nat × State) :=
  match allocNumber s d excl with
  | none => none
  | some l =>
    let free := freeSlots s d l
    let (i, s) := s.draw
    let r := d * 65536 + l * 1024 + free.getD (Config.slotChoice i % free.length) 0
    some (r, occTaken d (s.putSlot r x))

/-- Take a mirrored pair, whose copies never share a bank (R274). -/
def allocPair (d : Nat) (x : Slot) (s : State) : Option (Nat × State) :=
  match allocSlot d [] x s with
  | none => none
  | some (r1, s1) =>
    match allocSlot d [refBank r1] { x with mirror := true, copy := 1, partner := refAddr r1 } s1 with
    | none => none
    | some (r2, s2) => some (r1, s2.putSlot r1 { x with mirror := true, copy := 0, partner := refAddr r2 })

/-- Slots charged to a reservation holder on a die (R275). -/
def charged (s : State) (d holder : Nat) : Nat := (s.slots.filter fun p => refDie p.1 = d && p.2.holder = holder).length

/-! ## Freeing (R272) -/

/-- Update one slot; it becomes FREE in the cycle in which its last role clears, or when its sending ends (R196). -/
def slotSet (r : Nat) (x : Slot) (s : State) : State :=
  if x.held then s.putSlot r x
  else if x.sending then s.putSlot r { x with dying := true }
  else s.putSlot r {}

/-- Update a slot and the other copy of its pair in the same way. -/
def pairSet (r : Nat) (f : Slot → Slot) (s : State) : State :=
  let p := s.partnerOf r
  let s := slotSet r (f (s.slot r)) s
  match p with
  | some q => slotSet q (f (s.slot q)) s
  | none => s

/-- The slot's sending ends: one whose roles have gone meanwhile becomes FREE. -/
def sendingEnds (r : Nat) (s : State) : State :=
  let x := s.slot r
  if x.dying then s.putSlot r {} else s.putSlot r { x with sending := false }

/-- Free a slot with its pair whatever it holds. -/
def slotFree (r : Nat) (s : State) : State :=
  pairSet r (fun x => { x with darn := false, custody := false, numbered := false, queued := false }) s

/-- Every slot of a die becomes FREE. -/
def dieFree (d : Nat) (s : State) : State := { s with slots := s.slots.filter fun p => refDie p.1 ≠ d }

/-- A custody copy is held on either die. -/
def custodyHeld (s : State) : Bool := s.slots.any fun p => p.2.custody

/-- Put slot `new` in the place of slot `old` in every list of the engines (R278, R281). -/
def relist (old new : Nat) (s : State) : State :=
  let f := fun l : List Nat => l.map fun r => if r = old then new else r
  let g := fun o : Option Nat => o.map fun r => if r = old then new else r
  { s with
    flows := s.flows.mapVals {} fun v => { v with
      queue := f v.queue, copies := f v.copies, replayQ := f v.replayQ,
      fifo := v.fifo.map fun e => { e with slot := g e.slot } }
    trunks := s.trunks.mapVals {} fun v => { v with held := f v.held, runQ := f v.runQ }
    sides := s.sides.mapVals {} fun v => { v with cur := match v.cur with
      | .flit b po r q => .flit b po (g r) q
      | x => x } }

/-! ## Errors of reads (R270, R277-R280) -/

/-- CE_THR of a region of die `d` (R280): raised once in a window, when its count is more than ce_thr. -/
def ceRegion (d odd : Nat) (s : State) : State :=
  let b := s.buf d
  let n := if odd = 0 then b.ce0 else b.ce1
  if (if odd = 0 then b.fired0 else b.fired1) || n ≤ max 1 (s.rd (R.BUF_CFG_ce_thr d)) then s
  else (s.putBuf d (if odd = 0 then { b with fired0 := true } else { b with fired1 := true })).dieEvent d (1 + odd)

/-- Both regions of a die, as after a write of ce_thr. -/
def ceJudge (d : Nat) (s : State) : State := ceRegion d 1 (ceRegion d 0 s)

/-- A correctable read by the engine of a region (R280, R288). -/
def ceRead (r region word bitNo : Nat) (s : State) : State :=
  let d := refDie r
  let s := s.count (if region % 2 = 0 then R.CE_r0 d else R.CE_r1 d)
  let s := ((s.wr (R.ECC_CE_LAST_valid d) 1).wr (R.ECC_CE_LAST_word d) word).wr (R.ECC_CE_LAST_bank d) (refBank r)
  let s := (s.wr (R.ECC_CE_LAST_slot d) (refAddr r % 1024)).wr (R.ECC_CE_LAST_bit d) bitNo
  let b := s.buf d
  ceRegion d (region % 2) (s.putBuf d (if region % 2 = 0 then { b with ce0 := b.ce0 + 1 } else { b with ce1 := b.ce1 + 1 }))

/-- The bank under test or being saved; BUF_STAT and BST_STAT follow a slice. -/
def setRot (d rot bank : Nat) (s : State) : State :=
  let s := (s.wr (R.BUF_STAT_rot d) rot).wr (R.BUF_STAT_test_bank d) bank
  s.wrB (R.BST_STAT_bank_run d) (1 ≤ rot && rot ≤ 3 && !(s.buf d).retireAfter)

/-- The die's STANDBY bank. -/
def standbyOf (s : State) (d : Nat) : Option Nat :=
  let b := s.rd (R.BUF_STAT_standby d)
  if b < 33 then some b else none

/-- The record of a bank run, of which no failure is recorded yet (R374, R375, R395). -/
def bankRecord (d bank result cause rows ops : Nat) (s : State) : State :=
  let s := ((s.wr (R.BANK_RES_result d) result).wr (R.BANK_RES_cause d) cause).wr (R.BANK_RES_bank d) bank
  ((s.wr (R.BANK_FAIL_valid d) 0).wr (R.BANK_RES_rows d) rows).wr (R.BANK_PAT d) ops

/-- A slice begins on a physical bank (R281): a STANDBY or RETIRED bank is tested in place, any other is saved first.
`retireAfter` asks for retirement without a test. -/
def sliceBegin (d bank : Nat) (retireAfter returning byCmd : Bool) (s : State) : State :=
  let s := s.putBuf d { s.buf d with retireAfter := retireAfter, returning := returning, byCmd := byCmd, stopped := none,
                                     passed := false }
  if bankState s d bank = bkStandby || bankState s d bank = bkRetired then
    let s := if bankState s d bank = bkStandby then s.wr (R.BUF_STAT_standby d) 63 else s
    setRot d 2 bank (s.wr (R.BANK_STAT_state d bank) bkTesting)
  else
    setRot d 1 bank ((s.wr (R.BANK_STAT_state d bank) bkSaving).putBuf d
      { s.buf d with standIn := (standbyOf s d).getD 63 })

/-- A test slice begins within the limits of R376; with one that does not hold it ends at once with LIMIT and source
290, and the bank stays as it is (R285). -/
def testBegin (d bank : Nat) (returning byCmd : Bool) (s : State) : State :=
  let why := limitCause s d
  if why ≠ 0 then ((bankRecord d bank resLimit why 0 0 s).raise 290).wr (R.BUF_CMD_busy d) 0
  else if bankState s d bank = bkInService && (standbyOf s d).isNone then s
  else sliceBegin d bank false returning byCmd s

/-- The bank whose turn it is (R283): the lowest SUSPECT one, else the next after the last tested, skipping RETIRED. -/
def nextBank (s : State) (d : Nat) : Option Nat :=
  match (List.range 33).find? fun b => s.on (R.BANK_STAT_suspect d b) && bankState s d b ≠ bkRetired with
  | some b => some b
  | none => ((List.range 33).map fun i => ((s.buf d).lastTested + 1 + i) % 33).find? fun b => bankState s d b ≠ bkRetired

/-- A die's turn for a bank slice (R381): skipped while one runs, or a bank is EVACUATING. -/
def bankSliceTurn (d : Nat) (s : State) : State :=
  if rotBusy s d then s else
  match nextBank s d with
  | some b => testBegin d b false false s
  | none => s

/-- A bank in service or standby that is SUSPECT gets a slice as soon as the limits of in-service test allow (R283). One in
service with a second uncorrectable read is saved and retired without a test, once the die is free for it (R281). -/
def suspectSlice (d : Nat) (s : State) : State :=
  if rotBusy s d || !inService s || s.rd (R.CLK_EN_en 7) = 0 || dieFenced s d then s else
  match (List.range 33).find? fun b =>
      (s.buf d).retireDue.contains b && s.on (R.BANK_STAT_suspect d b) && bankState s d b = bkInService && (standbyOf s d).isSome with
  | some b => sliceBegin d b true false false s
  | none =>
    if limitCause s d ≠ 0 then s else
    match (List.range 33).find? fun b =>
        s.on (R.BANK_STAT_suspect d b) && (bankState s d b = bkInService || bankState s d b = bkStandby) with
    | some b => testBegin d b false false s
    | none => s

/-- The same on every die, as when a limit comes to hold. -/
def suspectSlices (s : State) : State := (List.range (diesOf s)).foldl (fun s d => suspectSlice d s) s

/-- SUSPECT clears on a pass (R281): what a second uncorrectable read asked for is off with it. -/
def suspectClear (d b : Nat) (s : State) : State :=
  (s.putBuf d { s.buf d with retireDue := (s.buf d).retireDue.filter (· ≠ b) }).wr (R.BANK_STAT_suspect d b) 0

/-- An uncorrectable read (R277, R281, R288): the slot is BAD, its bank SUSPECT; a second one in a SUSPECT bank retires it
after a save. -/
def ueRead (r word : Nat) (tag desc : Bool) (s : State) : State :=
  let d := refDie r
  let s := (s.count (R.UE d)).wr (R.ECC_UE_LAST_valid d) 1
  let s := ((s.wr (R.ECC_UE_LAST_word d) word).wr (R.ECC_UE_LAST_bank d) (refBank r)).wr (R.ECC_UE_LAST_slot d) (refAddr r % 1024)
  let s := ((s.wrB (R.ECC_UE_LAST_tag d) tag).wrB (R.ECC_UE_LAST_desc d) desc).dieEvent d 0
  let s := s.putSlot r { s.slot r with state := stBad }
  let b := bankFor s d (refBank r)
  let again := s.on (R.BANK_STAT_suspect d b) && bankState s d b = bkInService && !(s.buf d).retireDue.contains b
  let s := if again then s.putBuf d { s.buf d with retireDue := (s.buf d).retireDue ++ [b] } else s
  suspectSlice d (s.wr (R.BANK_STAT_suspect d b) 1)

/-- Bits of code word `w` that a read found wrong. -/
def eccWrong (e : EccRead) (w : Nat) : List Nat := (e.flips.filter fun p => p.1 = w).map Prod.snd

/-- The lowest code word with a single-bit error, with the bit, and the lowest with a double-bit error (R270). -/
def eccSingle (e : EccRead) : Option (Nat × Nat) :=
  (List.range 8).findSome? fun w => match eccWrong e w with
    | [b] => some (w, b)
    | _ => none
def eccDouble (e : EccRead) : Option Nat := (List.range 8).find? fun w => decide (2 ≤ (eccWrong e w).length)

/-- The corrected tag differs from the address that was read. -/
def eccMismatch (e : EccRead) (r : Nat) : Bool := match e.tag with
  | some a => a ≠ refAddr r
  | none => false

/-- A read of one slot checks the descriptor, the eight code words and the tag, and is recorded (R270, R288); whether the slot
can be used. A read that is uncorrectable counts as that alone, and the tag bit is for a mismatch without a double-bit error
(DEDUCED; log 237). -/
def readSlot (r region : Nat) (e : EccRead) (s : State) : Bool × State :=
  if e.desc then (false, ueRead r 0 false true s)
  else match eccDouble e with
  | some w => (false, ueRead r w false false s)
  | none =>
    if eccMismatch e r then (false, ueRead r 7 true false s)
    else match eccSingle e with
    | some p => (true, ceRead r region p.1 p.2 s)
    | none => (true, s)

/-! ## Rotation (R281, R284) -/

/-- The IN_SERVICE bank with the fewest LIVE slots, the lowest on a tie (R284). -/
def evacuee (s : State) (d : Nat) : Option Nat :=
  let live := bankLive s d
  (List.range 33).foldl (fun best b =>
    if bankState s d b ≠ bkInService then best else
    match best with
    | none => some b
    | some x => if live b < live x then some b else some x) none

/-- Without a STANDBY bank the emptiest IN_SERVICE bank starts EVACUATING (R284). -/
def evacuate (d : Nat) (s : State) : State :=
  if (standbyOf s d).isSome || rotBusy s d then s else
  match evacuee s d with
  | some b => setRot d 4 b (s.wr (R.BANK_STAT_state d b) bkEvacuating)
  | none => s

/-- A physical bank is RETIRED (R284): the usable count, event RETIRED, and a new standby where none is left. -/
def retireBank (d b : Nat) (s : State) : State :=
  let s := if standbyOf s d = some b then s.wr (R.BUF_STAT_standby d) 63 else s
  let s := match numberOf s d b with
    | some l => setServes d l 63 s
    | none => s
  let s := (s.wr (R.BANK_STAT_state d b) bkRetired).bump (R.BUF_STAT_retired d)
  let s := s.wr (R.BUF_USABLE_usable d) (1024 * (32 - retiredBanks s d))
  let s := s.putBuf d { s.buf d with retireDue := (s.buf d).retireDue.filter (· ≠ b) }
  evacuate d (s.dieEvent d 3)

/-- The rotation is idle again. -/
def rotIdle (d : Nat) (s : State) : State :=
  let s := if (s.buf d).byCmd then s.wr (R.BUF_CMD_busy d) 0 else s
  setRot d 0 63 (s.putBuf d { s.buf d with standIn := 63, retireAfter := false, returning := false, byCmd := false,
                                           stopped := none, passed := false })

/-- A bank tested in place goes back to what it was before a test that did not pass. -/
def inPlaceBack (d bank : Nat) (s : State) : State :=
  if (s.buf d).returning then s.wr (R.BANK_STAT_state d bank) bkRetired
  else (s.wr (R.BANK_STAT_state d bank) bkStandby).wr (R.BUF_STAT_standby d) bank

/-- A test under way ends without a verdict (R281): back to RESTORING, or in place to where it was. `rows` were found
failing by `ops` operations. -/
def testStopped (d result cause rows ops : Nat) (s : State) : State :=
  let bank := s.rd (R.BUF_STAT_test_bank d)
  let s := bankRecord d bank result cause rows ops s
  if (s.buf d).standIn = 63 then
    let s := inPlaceBack d bank s
    suspectSlice d ((rotIdle d (s.putBuf d { s.buf d with lastTested := bank })).raise 290)
  else setRot d 3 bank (s.wr (R.BANK_STAT_state d bank) bkRestoring)

/-- A test is stopped. The operations that it had applied, and the failing rows that it had found, are not stated: free
values in their ranges (log 214). -/
def testCut (d result cause : Nat) (s : State) : State :=
  let (i, s) := s.draw
  let (j, s) := s.draw
  testStopped d result cause (Config.freeValue i % 129) (Config.freeValue j % 102401) s

/-- A bank slice is stopped with a result (R375, R384): at once in TESTING, after the save in SAVING. -/
def bankStop (d result cause : Nat) (s : State) : State :=
  if rotOf s d = 2 then testCut d result cause s
  else if rotOf s d = 1 && !(s.buf d).retireAfter && (s.buf d).stopped = none then
    s.putBuf d { s.buf d with stopped := some (result, cause) }
  else s

/-! ## Descriptors (R271, R273) -/

/-- Reference of the slot that follows `r` in a list, in the copy `r` belongs to; 0xFFFF at the tail. -/
def nextIn (s : State) (lists : List (List Nat)) (r : Nat) : Nat :=
  let isMe := fun x => x = r || s.partnerOf x = some r
  let rec go : List Nat → Option Nat
    | a :: b :: t => if isMe a then some b else go (b :: t)
    | _ => none
  match lists.findSome? go with
  | some n => if (s.slot n).copy = (s.slot r).copy then refAddr n else ((s.partnerOf n).map refAddr).getD (refAddr n)
  | none => 0xFFFF

/-- The words DESC_W0-DESC_W4 of a slot; a queue holds the flits of one VC (R246). -/
def descWords (s : State) (r : Nat) : List Nat :=
  let x := s.slot r
  if x = {} then [0, 0, 0, 0, 0] else
  let w0 := x.state * 2 ^ 29 + b2n x.darn * 2 ^ 28 + b2n x.custody * 2 ^ 27 + b2n x.numbered * 2 ^ 26 + b2n x.queued * 2 ^ 25 +
    b2n x.mirror * 2 ^ 24 + x.dir * 2 ^ 23 + b2n x.ll * 2 ^ 22 + x.cls * 2 ^ 20 + x.retry * 2 ^ 17 + x.copy * 2 ^ 16 +
    x.vc * 2 ^ 10 + x.owner
  let lists := (s.flows.map fun p => p.2.copies) ++ (s.trunks.map fun p => p.2.held)
  let queues := s.flows.flatMap fun p => [p.2.queue.filter fun q => (s.slot q).vc = x.vc, p.2.replayQ]
  [w0, x.xlpSeq * 2 ^ 20 + x.spanSeq, x.tSent % 2 ^ 32, nextIn s lists r * 65536 + nextIn s queues r, x.partner]

end Sys2Proof.Machine
end

