-- ==== Sys2Proof/Machine/Admit.lean ====
section
/-!
DEFINITION. The admission check as arithmetic over a configuration (chapter Pricking, R293-R300): rates, latencies,
reservations, loads and the ordered list of checks. Times are in units of 1/850 ns, so that every symbol time of R46 is a
whole number; rates are in units of 1/`rateUnit` flits per ns, so that every flit rate and every declared rate is one too.
-/

namespace Sys2Proof.Machine

/-- A configuration to be judged (R291): scope 0 takes every staged bank, 1 the staged bank of `link` with the live banks
of everything else, 2 the live banks. With `proof` the rungs, round trips and PEER bits are those of the proof records
(R303) and not the measured ones. -/
structure View where
  scope : Nat
  link : Nat := 0
  proof : Bool := false
  deriving DecidableEq, Repr

/-- The live configuration with the values it was proved with. -/
def provedView : View := { scope := 2, proof := true }

def View.pick (v : View) (k : Nat) (staged live : Fld) : Fld :=
  if v.scope = 0 || (v.scope = 1 && v.link = k) then staged else live

def ceilDiv (a b : Nat) : Nat := (a + b - 1) / b
/-- A rate of 1 flit per ns. -/
def rateUnit : Nat := 6141857920000000
/-- ceil(rate × time) for a time in ns. -/
def ceilFlits (rate ns : Nat) : Nat := ceilDiv (rate * ns) rateUnit
/-- Whole M flits/s, upward. -/
def mflits (rate : Nat) : Nat := ceilDiv (rate * 1000) rateUnit

def vcs (mask : Nat) : Nat := ((List.range 32).filter (bit mask)).length

/-! ## The configuration -/

def vMode (v : View) (s : State) (k : Nat) : Nat := s.rd (v.pick k (R.LNK_CFG_mode k) (R.LNK_CFG_LIVE_mode k))
def vWidthCode (v : View) (s : State) (k : Nat) (sd : Side) : Nat :=
  s.rd (v.pick k (R.LNK_CFG_width k sd.idx) (R.LNK_CFG_LIVE_width k sd.idx))
def vRungCfg (v : View) (s : State) (k : Nat) (sd : Side) : Nat :=
  s.rd (v.pick k (R.LNK_CFG_rung k sd.idx) (R.LNK_CFG_LIVE_rung k sd.idx))
def vEp (v : View) (s : State) (k : Nat) (sd : Side) : Bool :=
  s.on (v.pick k (R.LNK_CFG_ep k sd.idx) (R.LNK_CFG_LIVE_ep k sd.idx))
def vUsed (v : View) (s : State) (k : Nat) (sd : Side) : Bool := vMode v s k ≠ 0 && vWidthCode v s k sd ≠ 7
def vW (v : View) (s : State) (k : Nat) (sd : Side) : Nat := widthLanes (vWidthCode v s k sd)

/-- The links with a mode other than 0. -/
def vLinks (v : View) (s : State) : List Nat := (List.range 128).filter fun k => vMode v s k ≠ 0
/-- The used sides, links by index and side A before side B. -/
def vSides (v : View) (s : State) : List (Nat × Side) :=
  (vLinks v s).flatMap fun k => [Side.a, Side.b].filterMap fun sd => if vUsed v s k sd then some (k, sd) else none

def vLanes (v : View) (s : State) (k : Nat) (sd : Side) : List Nat := mapLanes s k sd (vW v s k sd)
def vCluster (v : View) (s : State) (k : Nat) (sd : Side) : Nat := laneCluster ((vLanes v s k sd).headD 0)
def vDie (v : View) (s : State) (k : Nat) (sd : Side) : Nat := clusterDie (vCluster v s k sd)

def vLlWord (v : View) (s : State) (l j : Nat) : Nat := llWord s (if v.scope = 0 then llStagedPage l else llLivePage l) j
def vLlValid (v : View) (s : State) (l : Nat) : Bool := bit (vLlWord v s l 0) 31
/-- Valid, or draining once the configuration applies (R242). -/
def vLlActive (v : View) (s : State) (l : Nat) : Bool := vLlValid v s l || llActive s l
def vLlEnd (v : View) (s : State) (l e : Nat) : LlEnd := LlEnd.ofWord (vLlWord v s l e)
def vLls (v : View) (s : State) : List Nat := (List.range 1024).filter (vLlActive v s)

def vCalPage (v : View) (c : Nat) : Nat := if v.scope = 0 then calStagedPage c else calLivePage c
def vCalOn (v : View) (s : State) (c : Nat) : Bool := s.on (R.CAL_BIND_en (vCalPage v c))
def vCalLink (v : View) (s : State) (c : Nat) : Nat := s.rd (R.CAL_BIND_link (vCalPage v c))
def vCalSide (v : View) (s : State) (c : Nat) : Side := Side.ofIdx (s.rd (R.CAL_BIND_side (vCalPage v c)))
def vCals (v : View) (s : State) : List Nat := (List.range 16).filter (vCalOn v s)
def vCalOf (v : View) (s : State) (k : Nat) (sd : Side) : Option Nat :=
  (vCals v s).find? fun c => vCalLink v s c = k && vCalSide v s c = sd

def vTrunkSideBit (v : View) (s : State) (k : Nat) : Side :=
  Side.ofIdx (s.rd (v.pick k (R.TRK_CFG0_trunk_side k) (R.TRK_CFG0_LIVE_trunk_side k)))
def vIsTrunk (v : View) (s : State) (k : Nat) (sd : Side) : Bool :=
  if isTrunkMode (vMode v s k) then vTrunkSideBit v s k = sd
  else vMode v s k = mBundle && (vCalOf v s k sd).isSome

/-- The rung of a side (R293). -/
def vRung (v : View) (s : State) (k : Nat) (sd : Side) : Nat :=
  if v.proof then (let r := s.rd (R.LNK_PROOF_rung k sd.idx); if r = 7 then vRungCfg v s k sd else r)
  else if spanUp s k sd then spanRung s k sd else vRungCfg v s k sd

/-- The round trip of a side as measured, or as declared (R293). -/
def vRttSpan (v : View) (s : State) (k : Nat) (sd : Side) : Nat :=
  if s.on (R.RTT_valid k sd.idx) then s.rd (R.RTT_rtt k sd.idx)
  else s.rd (v.pick k (R.SPAN_rtt_decl k sd.idx) (R.SPAN_LIVE_rtt_decl k sd.idx))

/-- The round trip of a side in ns (R293). -/
def vRtt (v : View) (s : State) (k : Nat) (sd : Side) : Nat :=
  if v.proof then s.rd (R.PROOF_RTT_rtt k sd.idx) else
  let base := vRttSpan v s k sd
  if vIsTrunk v s k sd then
    let key := if vMode v s k = mBundle then 1024 + (vCalOf v s k sd).getD 0 else k
    max base ((s.trunk key).sample.getD 0)
  else base

/-- Does a side face an endpoint (R295): the PEER bit of a span that has reached READY since its last DETECT, else the
ep bit. -/
def vFacesEp (v : View) (s : State) (k : Nat) (sd : Side) : Bool :=
  if v.proof then !(match sd with | .a => (s.link k).peerA | .b => (s.link k).peerB)
  else if (s.span k sd).reachedReady then !s.on (R.SPAN_STAT_nbr_peer k sd.idx) else vEp v s k sd

/-! ## Terms (R294) -/

def vTs (v : View) (s : State) (k : Nat) (sd : Side) : Nat := symTime (vRung v s k sd)
def vTf (v : View) (s : State) (k : Nat) (sd : Side) : Nat := sliceLen (vW v s k sd) * vTs v s k sd
def vRf (v : View) (s : State) (k : Nat) (sd : Side) : Nat := 850 * rateUnit / vTf v s k sd
def vNet (v : View) (s : State) (k : Nat) (sd : Side) : Nat := vRf v s k sd * 97 / 100
def vDeclared (r : Nat) : Nat := rateUnit * r / 1000 * 97 / 100

/-- The source rate S of a side of a link that is no bundle. -/
def vSource (v : View) (s : State) (k : Nat) (sd : Side) : Nat :=
  let r := s.rd (v.pick k (R.SRC_RATE_rate k sd.idx) (R.SRC_RATE_LIVE_rate k sd.idx))
  if r = 0 then vNet v s k sd else vDeclared r

/-- The source rate of a logical link arriving at end `e`. -/
def vLlSource (v : View) (s : State) (l e : Nat) : Nat :=
  let w := vLlWord v s l 5
  let r := if e = 0 then bits w 31 16 else bits w 15 0
  let x := vLlEnd v s l e
  if r = 0 then vNet v s x.link x.side else vDeclared r

/-- Darning reservation D toward a side with a guard (R295). -/
def darnRes (v : View) (s : State) (k : Nat) (sd : Side) (guard : Nat) : Nat :=
  ceilFlits (vRf v s k sd) (vRtt v s k sd + 16 * guard)

def vDarnGuard (v : View) (s : State) (k : Nat) : Nat := guardActs (s.rd (v.pick k (R.DARN_CFG_guard k) (R.DARN_LIVE_guard k)))
def vDarnRetries (v : View) (s : State) (k : Nat) : Nat :=
  max 1 (s.rd (v.pick k (R.DARN_CFG_retries k) (R.DARN_LIVE_retries k)))
def vLlGuard (v : View) (s : State) (l : Nat) : Nat := guardActs (bits (vLlWord v s l 6) 15 8)

/-- A direction of a DARNED or FOLD + DARNED link counts as darned (R295). -/
def vDarned (v : View) (s : State) (k : Nat) (d : Dir) : Bool :=
  (vMode v s k = mDarned || vMode v s k = mFoldDarned) &&
  s.on (v.pick k (R.DARN_CFG_en k d.idx) (R.DARN_LIVE_en k d.idx)) && vFacesEp v s k d.outSide

/-- The reservation of one direction of a DARNED or FOLD + DARNED link. -/
def vDirRes (v : View) (s : State) (k : Nat) (d : Dir) : Nat :=
  if vDarned v s k d then darnRes v s k d.outSide (vDarnGuard v s k) else 0

def vHwm (v : View) (s : State) (k : Nat) : Nat := max 1 (s.rd (v.pick k (R.TRK_CFG2_hwm k) (R.TRK_CFG2_LIVE_hwm k)))
def vVcMask (v : View) (s : State) (k : Nat) : Nat := s.rd (v.pick k (R.TRK_VCS_vc_mask k) (R.TRK_VCS_LIVE_vc_mask k))
def vHeadroom (v : View) (s : State) (k : Nat) (sd : Side) : Nat :=
  s.rd (v.pick k (R.EP_headroom k sd.idx) (R.EP_LIVE_headroom k sd.idx))

/-- Window and guard of a trunk side. -/
def vWindow (v : View) (s : State) (k : Nat) (sd : Side) : Nat :=
  max 1 (if vMode v s k = mBundle then s.rd (R.CAL_TRK1_window (vCalPage v ((vCalOf v s k sd).getD 0)))
    else s.rd (v.pick k (R.TRK_CFG1_window k) (R.TRK_CFG1_LIVE_window k)))
def vTrunkGuard (v : View) (s : State) (k : Nat) (sd : Side) : Nat :=
  guardActs (if vMode v s k = mBundle then s.rd (R.CAL_TRK0_guard (vCalPage v ((vCalOf v s k sd).getD 0)))
    else s.rd (v.pick k (R.TRK_CFG0_guard k) (R.TRK_CFG0_LIVE_guard k)))

/-- H of R236: what may still arrive after XOFF on a trunk, or the endpoint's declared headroom. -/
def vH (v : View) (s : State) (k : Nat) (sd : Side) : Nat :=
  if vIsTrunk v s k sd then ceilFlits (vRf v s k sd) (vRtt v s k sd + 64) else vHeadroom v s k sd

/-- Reservation of a TRUNK-family link: on the die of its trunk side, and on the die of its endpoint side (R236). -/
def trunkResT (v : View) (s : State) (k : Nat) : Nat :=
  let t := vTrunkSideBit v s k
  2 * (vcs (vVcMask v s k) * (vHwm v s k + vH v s k t.other) + vWindow v s k t)
def trunkResE (v : View) (s : State) (k : Nat) : Nat :=
  let t := vTrunkSideBit v s k
  2 * (vcs (vVcMask v s k) * (vHwm v s k + vH v s k t) + darnRes v s k t.other (vDarnGuard v s k))

def vLlHwm (v : View) (s : State) (l : Nat) : Nat := max 1 (bits (vLlWord v s l 3) 27 16)
/-- H of R259, for the flits of direction `d` (from end `d`). -/
def vLlH (v : View) (s : State) (l d : Nat) : Nat :=
  let x := vLlEnd v s l d
  if x.trunk then ceilFlits (vRf v s x.link x.side) (vRtt v s x.link x.side + 128) else bits (vLlWord v s l 4) 11 0
/-- The queue part and the darning part of the reservation of a logical-link direction (R259). -/
def llQueueRes (v : View) (s : State) (l d : Nat) : Nat := 2 * (vcs (vLlWord v s l 2) * (vLlHwm v s l + vLlH v s l d))
def llDarnRes (v : View) (s : State) (l d : Nat) : Nat :=
  let x := vLlEnd v s l (1 - d)
  if x.trunk then 0 else darnRes v s x.link x.side (vLlGuard v s l)
def vLlOutDie (v : View) (s : State) (l d : Nat) : Nat := let x := vLlEnd v s l (1 - d); vDie v s x.link x.side
def vLlInDie (v : View) (s : State) (l d : Nat) : Nat := let x := vLlEnd v s l d; vDie v s x.link x.side

def sumOf {α : Type} (f : α → Nat) (l : List α) : Nat := l.foldl (fun n a => n + f a) 0

/-- The reservation of a link fenced under R305 is released while the live configuration stands; so is that of a logical
link with an end on it. -/
def vReleased (v : View) (s : State) (k : Nat) : Bool := v.scope = 2 && s.on (R.LNK_PROOF_fenced k)

/-- Slots reserved for a link on a die, as LNK_RSV reports them. -/
def linkRes (v : View) (s : State) (d k : Nat) : Nat :=
  let m := vMode v s k
  if vReleased v s k then 0
  else if isTrunkMode m then
    let t := vTrunkSideBit v s k
    (if vDie v s k t = d then trunkResT v s k else 0) + (if vDie v s k t.other = d then trunkResE v s k else 0)
  else if m = mDarned || m = mFoldDarned then
    sumOf (fun dir : Dir => if vDie v s k dir.outSide = d then vDirRes v s k dir else 0) [Dir.ab, Dir.ba]
  else if m = mBundle then
    sumOf (fun sd => if vUsed v s k sd && vIsTrunk v s k sd && vDie v s k sd = d then 2 * vWindow v s k sd else 0) [Side.a, Side.b]
  else 0

/-- Slots reserved for logical link `l` on a die (R259). -/
def llRes (v : View) (s : State) (d l : Nat) : Nat :=
  if vReleased v s (vLlEnd v s l 0).link || vReleased v s (vLlEnd v s l 1).link then 0 else
  sumOf (fun dir => if vLlOutDie v s l dir = d then llQueueRes v s l dir + llDarnRes v s l dir else 0) [0, 1]

/-- The reservation of a die (R295). -/
def dieRes (v : View) (s : State) (d : Nat) : Nat := sumOf (linkRes v s d) (vLinks v s) + sumOf (llRes v s d) (vLls v s)

/-! ## Latency (R296, R297) -/

def nsT (n : Nat) : Nat := 850 * n

def crosses (v : View) (s : State) (k : Nat) : Nat := b2n (vDie v s k .a ≠ vDie v s k .b)

/-- L_wc of a direction of a link that is no bundle. -/
def linkLwc (v : View) (s : State) (k : Nat) (d : Dir) : Nat :=
  let a := d.inSide
  let l := d.outSide
  let m := vMode v s k
  if m = mTransparent then 6375 + 64 * uiTime (vRung v s k l) else
  let base := 128 * vTs v s k l + (vTf v s k a - vTf v s k l) + nsT (20 * crosses v s k)
  let fifo := 16 * vTf v s k l
  if m = mSymbol then nsT 16 + fifo + base
  else if m = mDarned then nsT 22 + fifo + base
  else if m = mFold || m = mFoldDarned then nsT 34 + fifo + base
  else nsT (if m = mTrunk then 28 else 34) + vcs (vVcMask v s k) * (vHwm v s k + vH v s k a) * vTf v s k l + base

/-- Entries 0 to last of a calendar, as words. -/
def vCalEntries (v : View) (s : State) (c : Nat) : List Nat :=
  (List.range (s.rd (R.CAL_BIND_last (vCalPage v c)) + 1)).map fun e => s.rd (R.CAL_ENTRY (vCalPage v c) e)
def entUsed (w : Nat) : Bool := bit w 31
def entWeight (w : Nat) : Nat := bits w 27 24 + 1
def entLl (w : Nat) : Nat := bits w 9 0

/-- Does a logical link name a side? -/
def vLlNames (v : View) (s : State) (l k : Nat) (sd : Side) : Bool :=
  [0, 1].any fun e => (vLlEnd v s l e).link = k && (vLlEnd v s l e).side = sd
/-- Owned by the other die than the calendar's, without a grant. -/
def vNoGrant (v : View) (s : State) (c l : Nat) : Bool := llDie l ≠ c / 8 && !bit (vLlWord v s l 0) 30

def vCalWeight (v : View) (s : State) (c : Nat) : Nat :=
  sumOf entWeight ((vCalEntries v s c).filter entUsed)
/-- F of R256: entries that judge EMPTY, FOREIGN or NOGRANT. -/
def vCalFaults (v : View) (s : State) (c : Nat) : Nat :=
  ((vCalEntries v s c).filter fun w => !entUsed w || (vLlActive v s (entLl w) &&
    (!vLlNames v s (entLl w) (vCalLink v s c) (vCalSide v s c) || vNoGrant v s c (entLl w)))).length
def vCalEntryOf (v : View) (s : State) (c l : Nat) : Option Nat := (vCalEntries v s c).find? fun w => entUsed w && entLl w = l

/-- L_wc of a direction of a logical link. -/
def llLwc (v : View) (s : State) (l d : Nat) : Nat :=
  let a := vLlEnd v s l d
  let o := vLlEnd v s l (1 - d)
  let tl := vTf v s o.link o.side
  let depth := vcs (vLlWord v s l 2) * (vLlHwm v s l + vLlH v s l d)
  let slots := match if o.trunk then vCalOf v s o.link o.side else none with
    | some c =>
      let w := match vCalEntryOf v s c l with
        | some e => entWeight e
        | none => 1
      let n := depth - 1
      ceilDiv (n + 1) w * (vCalWeight v s c - w + vCalFaults v s c) + n + 2
    | none => depth
  nsT 40 + slots * tl + 128 * vTs v s o.link o.side + (vTf v s a.link a.side - tl) +
    nsT (20 * b2n (vLlInDie v s l d ≠ vLlOutDie v s l d))

/-- Ack delay against the replay timeout of the endpoint on side `e` (R297). -/
def tAck (v : View) (s : State) (k : Nat) (e : Side) : Nat :=
  let m := vMode v s k
  if isTrunkMode m || m = mBundle then nsT (vRtt v s k e + 128) else
  let o := e.other
  let ext := 16 * s.rd (v.pick k (R.EXT_ext k o.idx) (R.EXT_LIVE_ext k o.idx))
  let ack := s.rd (v.pick k (R.SPAN_ack_lat k o.idx) (R.SPAN_LIVE_ack_lat k o.idx))
  let darn := if vDarned v s k e.dirIn then vDarnRetries v s k * (vRtt v s k o + 16 * vDarnGuard v s k) else 0
  nsT (vRtt v s k e + vRtt v s k o + ext + ack + darn) + 2 * max (linkLwc v s k .ab) (linkLwc v s k .ba)

/-- Headroom need of the endpoint on side `e` (R297). -/
def hNeed (v : View) (s : State) (k : Nat) (e : Side) : Nat :=
  let m := vMode v s k
  if isTrunkMode m || m = mBundle then ceilFlits (vRf v s k e) (vRtt v s k e + 64) else
  let o := e.other
  let ext := 16 * s.rd (v.pick k (R.EXT_ext k o.idx) (R.EXT_LIVE_ext k o.idx))
  let ack := s.rd (v.pick k (R.SPAN_ack_lat k o.idx) (R.SPAN_LIVE_ack_lat k o.idx))
  let t := nsT (vRtt v s k e + vRtt v s k o + ext + ack) + 2 * max (linkLwc v s k .ab) (linkLwc v s k .ba)
  ceilDiv (vRf v s k e * t) (850 * rateUnit)

/-! ## Load and power (R298, R299) -/

/-- One direction of a link or logical link as R298 counts it: its source rate, the dies it arrives and leaves on, and how
often it counts for writes and reads. -/
structure LoadDir where
  rate : Nat
  inDie : Nat
  outDie : Nat
  writes : Nat
  reads : Nat

def loadDirs (v : View) (s : State) : List LoadDir :=
  ((vLinks v s).flatMap fun k =>
    let m := vMode v s k
    if m = mTransparent || m = mBundle then [] else
    [Dir.ab, Dir.ba].map fun d =>
      let w := if isTrunkMode m then 2 else if vDarned v s k d then 1 else 0
      ⟨vSource v s k d.inSide, vDie v s k d.inSide, vDie v s k d.outSide, w, min w 1⟩) ++
  (vLls v s).flatMap fun l => [0, 1].map fun d => ⟨vLlSource v s l d, vLlInDie v s l d, vLlOutDie v s l d, 2, 1⟩

def flitLoad (ls : List LoadDir) (d : Nat) : Nat :=
  sumOf (fun x => if x.outDie = d then x.rate * (if x.inDie = d then 1 else 2) else 0) ls
def writeLoad (ls : List LoadDir) (d : Nat) : Nat := sumOf (fun x => if x.outDie = d then x.rate * x.writes else 0) ls
def readLoad (ls : List LoadDir) (d : Nat) : Nat := sumOf (fun x => if x.outDie = d then x.rate * x.reads else 0) ls

/-- Core clock of a P-level in 0.1 GHz; the caps of R298. -/
def levelClock (p : Nat) : Nat := if p = 0 then 16 else if p = 1 then 12 else if p = 2 then 8 else 4
def flitCap (p : Nat) : Nat := rateUnit * 12 * levelClock p / 10
def portCap (s : State) (d p : Nat) : Nat := rateUnit * 3 * (32 - retiredBanks s d) * levelClock p / 40

/-- The P-level need of a die: the lowest level whose caps the load meets (R298). -/
def pNeed (v : View) (s : State) (d : Nat) : Nat :=
  let ls := loadDirs v s
  (([3, 2, 1].find? fun p =>
    flitLoad ls d ≤ flitCap p && writeLoad ls d ≤ portCap s d p && readLoad ls d ≤ portCap s d p)).getD 0

def endPower (rung : Nat) : Nat :=
  match rung with
  | 0 => 10 | 1 => 45 | 2 => 77 | 3 => 154 | _ => 308
def corePower (p : Nat) : Nat := if p = 0 then 20000 else if p = 1 then 12200 else if p = 2 then 6600 else 2800

/-- P_est in mW (R299). Each used side has an RX and a TX end per lane; each cluster direction with an end of a used side
has an entry and an exit clock end. -/
def powerEst (v : View) (s : State) : Nat :=
  let sides := vSides v s
  let lanes := sumOf (fun p => 2 * vW v s p.1 p.2 * endPower (vRung v s p.1 p.2)) sides
  let clocks := sumOf (fun c =>
    match sides.find? fun p => ((vLanes v s p.1 p.2).map laneCluster).contains c with
    | some p => 4 * endPower (vRung v s p.1 p.2)
    | none => 0) (List.range 16)
  let bobs := sumOf (fun c => sumOf (fun sd => if (s.bob c).inOn sd then
      (match laneUse s (bobLane s c) sd with
       | some (k, _) => 2 * endPower (vRung v s k sd)
       | none => 0) else 0) [Side.a, Side.b]) (List.range 16)
  let cores := sumOf (fun d => corePower (s.rd (R.PL_STAT_level d))) (List.range (diesOf s))
  lanes + clocks + bobs + cores + 5000 + 12000

/-! ## The checks in their order (R295, R300) -/

/-- What a check reports (R300). -/
structure Verdict where
  code : Nat
  kind : Nat := 0
  sub : Nat := 0
  index : Nat := 0
  need : Nat := 0
  limit : Nat := 0
  deriving DecidableEq, Repr

def okVerdict : Verdict := { code := 1 }

def stateWord (s : State) : Nat :=
  (match s.dev.phase with
   | .off => 0 | .start => 1 | .watch => 3 | .test => 5
   | .run => if pkgFenced s || (List.range 2).any (dieFenced s) || (List.range 4).any (regionFenced s) ||
       ((List.range 128).any fun k => s.on (R.LNK_PROOF_fenced k)) then 4 else 2) + 16 * b2n s.dev.held

/-- STATE (R295, R351, R390, R470): the device runs, enters neither WATCH nor TEST and is not held where the submission applies,
and no link touches a fenced region by a lane side, or by a logical link or a calendar of a fenced die (R36; DESIGN CHOICE that
these lie on a die and in no region of it, log 270). -/
def checkState (v : View) (applies : Bool) (s : State) : Option Verdict :=
  if s.dev.phase ≠ .run || s.dev.watchEntry || s.dev.testEntry ≠ 0 || (applies && s.dev.held) then some { code := 2, need := stateWord s } else
  ((vLinks v s).find? fun k => ([Side.a, Side.b].any fun sd => vUsed v s k sd &&
      (vLanes v s k sd).any fun n => regionFenced s (clusterRegion (laneCluster n))) ||
    (vMode v s k = mBundle && ((vLls v s).any (fun l => dieFenced s (llDie l) && [0, 1].any fun e => (vLlEnd v s l e).link = k) ||
      (vCals v s).any fun c => dieFenced s (c / 8) && vCalLink v s c = k))).map
    fun k => { code := 2, kind := 2, index := k, need := stateWord s }

def vQueueLl (v : View) (s : State) (k : Nat) : Nat := s.rd (v.pick k (R.TRK_CFG1_queue_ll k) (R.TRK_CFG1_LIVE_queue_ll k))

/-- An absent object that PRK_WHERE can name: kind 2 link, 3 logical link, 4 calendar. -/
def absent (kind index : Nat) : Option Verdict := some { code := 3, kind := kind, index := index }

/-- The absent object that a link names: itself, the logical link whose queues it uses, or a lane, for which PRK_WHERE has no
kind, so that the link is reported (DESIGN CHOICE; log 267). -/
def linkAbsent (v : View) (s : State) (k : Nat) : Option Verdict :=
  if 64 ≤ k then absent 2 k
  else if isTrunkMode (vMode v s k) && 512 ≤ vQueueLl v s k then absent 3 (vQueueLl v s k)
  else if [Side.a, Side.b].any fun sd => (vLanes v s k sd).any (64 ≤ ·) then absent 2 k
  else none

/-- The absent object that a logical link names: itself, the link of an end, or the seam, for which it is reported itself. -/
def llAbsent (v : View) (s : State) (l : Nat) : Option Verdict :=
  if 512 ≤ l then absent 3 l
  else match [0, 1].find? fun e => 64 ≤ (vLlEnd v s l e).link with
    | some e => absent 2 (vLlEnd v s l e).link
    | none => if bit (vLlWord v s l 0) 30 then absent 3 l else none

/-- The absent object that a calendar names: itself, its link, or the logical link of a used entry. -/
def calAbsent (v : View) (s : State) (c : Nat) : Option Verdict :=
  if 8 ≤ c then absent 4 c
  else if 64 ≤ vCalLink v s c then absent 2 (vCalLink v s c)
  else ((vCalEntries v s c).find? fun w => entUsed w && 512 ≤ entLl w).bind fun w => absent 3 (entLl w)

/-- ABSENT (R5): the first absent object that a link, a logical link or a calendar of the configuration names (R300). -/
def checkAbsent (v : View) (s : State) : Option Verdict :=
  if !isLz4064 s then none else
  (vLinks v s).findSome? (linkAbsent v s) <|> (vLls v s).findSome? (llAbsent v s) <|> (vCals v s).findSome? (calAbsent v s)

/-- A cluster direction runs, or would train, in FORWARDED mode (R84). -/
def wouldForward (s : State) (c : Nat) (d : Dir) : Bool :=
  if ckMode s c d = ckOff then s.on (R.CK_STAT_ckl_ok c d.idx) && !s.on (R.CK_CFG_fallback c d.idx)
  else ckMode s c d = ckForwarded

/-- Two TRANSPARENT links share a cluster direction that is not in FORWARDED mode (R103). -/
def twoTransparent (v : View) (s : State) (k : Nat) : Bool :=
  vMode v s k = mTransparent && (vLinks v s).any fun k' => k' ≠ k && vMode v s k' = mTransparent &&
    ((vLanes v s k .a).map laneCluster).any fun c => ((vLanes v s k' .a).map laneCluster).contains c &&
      (!wouldForward s c .ab || !wouldForward s c .ba)

def modeBad (v : View) (s : State) (k : Nat) : Bool :=
  let m := vMode v s k
  let ea := vEp v s k .a
  let eb := vEp v s k .b
  9 ≤ m || (m ≠ mBundle && (!vUsed v s k .a || !vUsed v s k .b)) || (m = mBundle && !vUsed v s k .a && !vUsed v s k .b) ||
  ((m = mDarned || m = mFoldDarned) && !ea && !eb) ||
  (isTrunkMode m && (vEp v s k (vTrunkSideBit v s k) || !vEp v s k (vTrunkSideBit v s k).other)) ||
  twoTransparent v s k

def checkMode (v : View) (s : State) : Option Verdict :=
  ((vLinks v s).find? (modeBad v s)).map fun k => { code := 4, kind := 2, index := k, need := vMode v s k }

/-- The lanes that LANE_POS gives a side (R310). -/
def posLanes (s : State) (k : Nat) (sd : Side) : List Nat :=
  (List.range 128).filter fun n => s.on (R.LANE_POS_valid n sd.idx) && s.rd (R.LANE_POS_link n sd.idx) = k

/-- Positions 0 to w − 1 are carried once each by exactly w lanes. -/
def mapCovers (s : State) (k : Nat) (sd : Side) (w : Nat) : Bool :=
  if s.on (R.SIDE_MAP_hint (sideEntry k sd)) then
    let b := s.rd (R.SIDE_MAP_base (sideEntry k sd))
    b + w ≤ 128 && (w ≠ 16 || b % 16 = 0)
  else
    (posLanes s k sd).length = w && (List.range w).all fun q =>
      ((posLanes s k sd).filter fun n => s.rd (R.LANE_POS_pos n sd.idx) = q).length = 1

/-- All lanes in one cluster, or in the two of an x16 side (R13, R311). -/
def mapGrouped (lanes : List Nat) (w : Nat) : Bool :=
  let cs := lanes.map laneCluster
  if w = 16 then
    let c := cs.headD 0
    c % 2 = 0 && (cs.take 8).all (· = c) && (cs.drop 8).all (· = c + 1)
  else cs.all (· = cs.headD 0)

/-- A side whose lanes under R310 break R311; `w` is its width and `lanes` are its lanes. -/
def sideMapBad (s : State) (k : Nat) (sd : Side) (w : Nat) : Bool :=
  !s.on (R.SIDE_MAP_valid (sideEntry k sd)) || !mapCovers s k sd w || !mapGrouped (mapLanes s k sd w) w

/-- The width of a used side breaks R295, or its lanes break R311. -/
def lanesBad (v : View) (s : State) (k : Nat) (sd : Side) : Bool :=
  let w := vW v s k sd
  let lanes := vLanes v s k sd
  vUsed v s k sd && (5 ≤ vWidthCode v s k sd || sideMapBad s k sd w ||
  ((vSides v s).any fun p => p ≠ (k, sd) && p.2 = sd && (vLanes v s p.1 p.2).any fun n => lanes.contains n) ||
  (sd = .b && isSameLanes (vMode v s k) && lanes ≠ vLanes v s k .a))

/-- The rung of a side is none, or it is that of side B and differs from side A's where the two must run at one rate: in
the same-lane mode sets of R38, and in a cluster the sides share (R12). That a rung that differs is GEOMETRY, whose quantity
is 'widths, rungs, lane map', is DEDUCED (log 302). -/
def rungBad (v : View) (s : State) (k : Nat) (sd : Side) : Bool :=
  5 ≤ vRungCfg v s k sd || (sd = .b && vRungCfg v s k .a ≠ vRungCfg v s k .b && (isSameLanes (vMode v s k) ||
    (isFoldMode (vMode v s k) &&
      ((vLanes v s k .a).map laneCluster).any fun c => ((vLanes v s k sd).map laneCluster).contains c)))

/-- The codes of a link without a mode: its widths and rungs are judged like the others' (R308, R493). -/
def codesBad (v : View) (s : State) (k : Nat) (sd : Side) : Bool :=
  vMode v s k = 0 && (5 ≤ vRungCfg v s k sd || (5 ≤ vWidthCode v s k sd && vWidthCode v s k sd ≤ 6))

/-- GEOMETRY: the rungs of both sides of every link are judged, widths and lanes where a side is used; of a link without a mode
the codes alone. NEED is the rung code where the rung is none or the lanes are right, else the width code. -/
def checkGeometry (v : View) (s : State) : Option Verdict :=
  (((List.range 128).flatMap fun k => [(k, Side.a), (k, Side.b)]).find? fun p =>
      if vMode v s p.1 = 0 then codesBad v s p.1 p.2 else lanesBad v s p.1 p.2 || rungBad v s p.1 p.2).map
    fun p =>
    { code := 5, kind := 2, sub := p.2.idx, index := p.1,
      need := if 5 ≤ vRungCfg v s p.1 p.2 || (vMode v s p.1 ≠ 0 && !lanesBad v s p.1 p.2) then vRungCfg v s p.1 p.2 else vWidthCode v s p.1 p.2 }

/-- Mapping fields of a logical-link entry: its ends and the grant (R244). -/
def mapFields (w0 w1 : Nat) : Nat × Nat × Nat := (bits w0 30 30, bits w0 9 0, bits w1 9 0)

/-- The rule a logical link breaks, if any (R241, R242, R260). -/
def llRule (v : View) (s : State) (l : Nat) : Option Nat :=
  let x0 := vLlEnd v s l 0
  let x1 := vLlEnd v s l 1
  let bad := fun x : LlEnd => !(vUsed v s x.link x.side && vMode v s x.link = mBundle) || x.trunk ≠ vIsTrunk v s x.link x.side
  if !x0.trunk && !x1.trunk then some 241
  else if bad x0 || bad x1 then some 242
  else if (vLls v s).any (fun l' => l' ≠ l && [0, 1].any fun e => [0, 1].any fun e' =>
      !(vLlEnd v s l e).trunk && (vLlEnd v s l e).link = (vLlEnd v s l' e').link && (vLlEnd v s l e).side = (vLlEnd v s l' e').side)
    then some 242
  else if vDie v s x0.link x0.side ≠ vDie v s x1.link x1.side && !bit (vLlWord v s l 0) 30 then some 242
  else if v.scope = 0 && (s.ll l).tornUntil.isSome &&
      mapFields (llWord s (llStagedPage l) 0) (llWord s (llStagedPage l) 1) ≠
      mapFields (llWord s (llLivePage l) 0) (llWord s (llLivePage l) 1) then some 260
  else none

/-- The rule a calendar breaks, if any (R22, R242, R252). -/
def calRule (v : View) (s : State) (c : Nat) : Option Nat :=
  let k := vCalLink v s c
  let sd := vCalSide v s c
  if !(vUsed v s k sd && vMode v s k = mBundle) || vDie v s k sd ≠ c / 8 ||
    (vCals v s).any (fun c' => c' ≠ c && vCalLink v s c' = k && vCalSide v s c' = sd) then some 252
  else
    let lls := ((vCalEntries v s c).filter entUsed).map entLl
    if lls.eraseDups.length ≠ lls.length then some 242
    else if lls.any (fun l => vLlActive v s l && vNoGrant v s c l) then some 22 else none

def checkTable (v : View) (s : State) : Option Verdict :=
  (vLls v s).findSome? (fun l => (llRule v s l).map fun r => { code := 6, kind := 3, index := l, need := r })
  <|> (vCals v s).findSome? (fun c => (calRule v s c).map fun r => { code := 6, kind := 4, index := c, need := r })

def checkQueue (v : View) (s : State) : Option Verdict :=
  let trunks := (vLinks v s).filter fun k => isTrunkMode (vMode v s k)
  (trunks.find? fun k =>
    llDie (vQueueLl v s k) ≠ vDie v s k (vTrunkSideBit v s k) || vLlActive v s (vQueueLl v s k) ||
    trunks.any fun k' => k' ≠ k && vQueueLl v s k' = vQueueLl v s k).map
    fun k => { code := 7, kind := 2, index := k, need := vQueueLl v s k }

def checkSeam (v : View) (s : State) : Option Verdict :=
  let ls := loadDirs v s
  [0, 1].findSome? fun d =>
    let r := sumOf (fun x => if x.inDie = d && x.outDie ≠ d then x.rate else 0) ls
    if 4 * rateUnit < r then some { code := 8, kind := 1, sub := d, index := d, need := mflits r, limit := 4000 } else none

/-- The calendar's share check of R257: each logical link with an entry against its share, and the sum over all that leave
on the trunk side. That one without an entry has no share to be held to is DEDUCED (log 220). -/
def calRateBad (v : View) (s : State) (c : Nat) : Option Verdict :=
  let net := vNet v s (vCalLink v s c) (vCalSide v s c)
  let w := vCalWeight v s c
  let lls := (vLls v s).filter fun l => vLlNames v s l (vCalLink v s c) (vCalSide v s c)
  let ents := (vCalEntries v s c).filter fun e => entUsed e && lls.contains (entLl e)
  let src := fun l =>
    if (vLlEnd v s l 0).link = vCalLink v s c && (vLlEnd v s l 0).side = vCalSide v s c then vLlSource v s l 1 else vLlSource v s l 0
  let bad := fun need lim => some ({ code := 9, kind := 4, index := c, need := mflits need, limit := lim * 1000 / rateUnit } : Verdict)
  if s.on (R.CAL_BIND_oversub (vCalPage v c)) then none else
  match ents.find? fun e => entWeight e * net < src (entLl e) * w with
  | some e => bad (src (entLl e)) (entWeight e * net / w)
  | none => if net < sumOf src lls then bad (sumOf src lls) net else none

def checkRate (v : View) (s : State) : Option Verdict :=
  ((vLinks v s).filter fun k => isFoldMode (vMode v s k)).findSome? (fun k => [Dir.ab, Dir.ba].findSome? fun d =>
    let src := vSource v s k d.inSide
    let net := vNet v s k d.outSide
    if net < src then some { code := 9, kind := 2, sub := d.idx, index := k, need := mflits src, limit := net * 1000 / rateUnit }
    else none)
  <|> (vCals v s).findSome? (calRateBad v s)

def windowNeed (v : View) (s : State) (k : Nat) (sd : Side) : Nat :=
  ceilFlits (vRf v s k sd) (vRtt v s k sd + 16 * vTrunkGuard v s k sd)

def checkWindow (v : View) (s : State) : Option Verdict :=
  let bad := fun (p : Nat × Side) => decide (vWindow v s p.1 p.2 < windowNeed v s p.1 p.2)
  let links := (vSides v s).filter fun p => isTrunkMode (vMode v s p.1) && vIsTrunk v s p.1 p.2
  (links.find? bad).map (fun p =>
    { code := 10, kind := 2, sub := p.2.idx, index := p.1, need := windowNeed v s p.1 p.2, limit := vWindow v s p.1 p.2 })
  <|> ((vCals v s).find? fun c => bad (vCalLink v s c, vCalSide v s c)).map fun c =>
    { code := 10, kind := 4, index := c, need := windowNeed v s (vCalLink v s c) (vCalSide v s c),
      limit := vWindow v s (vCalLink v s c) (vCalSide v s c) }

def checkPlevel (v : View) (s : State) : Option Verdict :=
  let ls := loadDirs v s
  (List.range (diesOf s)).findSome? fun d =>
    let p := s.rd (R.PL_STAT_level d)
    let f := fun sub load cap => if cap < load then
      some ({ code := 11, kind := 1, sub := sub, index := d, need := mflits load, limit := cap * 1000 / rateUnit } : Verdict) else none
    f 0 (flitLoad ls d) (flitCap p) <|> f 1 (writeLoad ls d) (portCap s d p) <|> f 2 (readLoad ls d) (portCap s d p)

def checkSlots (v : View) (s : State) : Option Verdict :=
  (List.range (diesOf s)).findSome? fun d =>
    if s.rd (R.BUF_USABLE_usable d) < dieRes v s d then
      some { code := 12, kind := 1, index := d, need := dieRes v s d, limit := s.rd (R.BUF_USABLE_usable d) } else none

def vCap (v : View) (s : State) : Nat := s.rd (if v.scope = 0 then R.PRK_CAP_pcap else R.PRK_CAP_LIVE_pcap)

def checkPower (v : View) (s : State) : Option Verdict :=
  let cap := vCap v s
  if cap ≠ 0 && cap * 1000 < powerEst v s then some { code := 13, need := ceilDiv (powerEst v s) 100, limit := cap * 10 } else none

/-- The endpoint sides, in order. -/
def epSides (v : View) (s : State) : List (Nat × Side) := (vSides v s).filter fun p => vEp v s p.1 p.2

def switchIdle (s : State) (k : Nat) : Nat := max 4 (min 60 (s.rd (R.TRN_CFG_switch_idle k)))
def vDead (v : View) (s : State) (k : Nat) (sd : Side) : Nat := max 1 (s.rd (v.pick k (R.EP_dead k sd.idx) (R.EP_LIVE_dead k sd.idx)))
def vRep (v : View) (s : State) (k : Nat) (sd : Side) : Nat :=
  1000 * max 1 (min 64 (s.rd (v.pick k (R.EP_rep k sd.idx) (R.EP_LIVE_rep k sd.idx))))

def checkDead (v : View) (s : State) : Option Verdict :=
  ((epSides v s).find? fun p => vDead v s p.1 p.2 ≤ max 18 (switchIdle s p.1)).map fun p =>
    { code := 14, kind := 2, sub := p.2.idx, index := p.1, need := max 18 (switchIdle s p.1), limit := vDead v s p.1 p.2 }

def checkReplay (v : View) (s : State) : Option Verdict :=
  ((epSides v s).find? fun p => vMode v s p.1 ≠ mTransparent && nsT (vRep v s p.1 p.2) ≤ tAck v s p.1 p.2).map fun p =>
    { code := 15, kind := 2, sub := p.2.idx, index := p.1, need := ceilDiv (tAck v s p.1 p.2) 850, limit := vRep v s p.1 p.2 }

/-- The declared headroom of an endpoint: its link's, or its logical link's in a bundle (R244). -/
def declaredHeadroom (v : View) (s : State) (k : Nat) (sd : Side) : Nat :=
  if vMode v s k = mBundle then
    match (vLls v s).find? fun l => vLlNames v s l k sd with
    | some l => bits (vLlWord v s l 4) 11 0
    | none => hNeed v s k sd
  else vHeadroom v s k sd

def checkHeadroom (v : View) (s : State) : Option Verdict :=
  ((epSides v s).find? fun p => vMode v s p.1 ≠ mTransparent && declaredHeadroom v s p.1 p.2 < hNeed v s p.1 p.2).map fun p =>
    { code := 16, kind := 2, sub := p.2.idx, index := p.1, need := hNeed v s p.1 p.2, limit := declaredHeadroom v s p.1 p.2 }

def checkBudget (v : View) (s : State) : Option Verdict :=
  (vLinks v s).findSome? (fun k => if vMode v s k = mBundle then none else [Dir.ab, Dir.ba].findSome? fun d =>
    let b := s.rd (v.pick k (R.BUDGET k d.idx) (R.BUDGET_LIVE k d.idx))
    if b ≠ 0 && nsT b < linkLwc v s k d then
      some { code := 17, kind := 2, sub := d.idx, index := k, need := ceilDiv (linkLwc v s k d) 850, limit := b } else none)
  <|> (vLls v s).findSome? fun l => [0, 1].findSome? fun d =>
    let b := bits (vLlWord v s l 7) 15 0
    if b ≠ 0 && nsT b < llLwc v s l d then
      some { code := 17, kind := 3, sub := d, index := l, need := ceilDiv (llLwc v s l d) 850, limit := b } else none

/-- The admission check: the first failure in the order of R300, or OK. -/
def admission (v : View) (applies : Bool) (s : State) : Verdict :=
  (checkState v applies s <|> checkAbsent v s <|> checkMode v s <|> checkGeometry v s <|> checkTable v s <|> checkQueue v s
   <|> checkSeam v s <|> checkRate v s <|> checkWindow v s <|> checkPlevel v s <|> checkSlots v s <|> checkPower v s
   <|> checkDead v s <|> checkReplay v s <|> checkHeadroom v s <|> checkBudget v s).getD okVerdict

end Sys2Proof.Machine
end

