-- ==== Sys2Proof/Machine/EqOps.lean ====
section
/-!
DEFINITION. Equalizer operations that other chapters order (chapter Equalization and the board table, R106-R119): loading
presets, and the acquisition queue of a cluster's adaptation engine. An RX end's place in the engine is its index among
the calibration ends: A_RX 0-8, then B_RX 9-17.
-/

namespace Sys2Proof.Machine

open Sys2Proof

/-! ## Presets (R106-R110) -/

/-- The virtual page of a preset: cluster, lane position, rung. -/
def presetPage (c p rung : Nat) : Nat := 0x2000 + (c * 9 + p) * 8 + rung

/-- A TX preset as stored: pre2, pre1, main, post1, post2, post3. -/
def txPreset (s : State) (n : Nat) (sd : Side) (rung : Nat) : List Int :=
  let v := presetPage (laneCluster n) (lanePos n) rung
  let d := sd.idx
  [R.PRESET_TX0_pre2 v d, R.PRESET_TX0_pre1 v d, R.PRESET_TX0_main v d, R.PRESET_TX0_post1 v d, R.PRESET_TX1_post2 v d,
   R.PRESET_TX1_post3 v d].map fun f => signed 8 (s.rd f)

/-- The reset preset (R110). -/
def resetTaps : List Int := [0, -4, 48, -8, 0, 0]

/-- Sum of the tap magnitudes of R107. -/
def tapSum (t : List Int) : Nat := t.foldl (fun a x => a + x.natAbs) 0

/-- A TX preset as it is applied, and whether it fell back to the reset preset (R109). -/
def applyTaps (t : List Int) : List Int × Bool :=
  let t := (List.range 6).map fun i => if i = 2 then clampInt 16 63 (t.getD i 0) else clampInt (-32) 31 (t.getD i 0)
  let main := t.getD 2 0 - (tapSum t - 63 : Nat)
  if main < 16 then (resetTaps, true) else (t.take 2 ++ [main] ++ t.drop 3, false)

/-- The exit clock end of a direction drives the main tap of a preset, every other tap at zero (R111). -/
def exitDrive (c : Nat) (d : Dir) (taps : List Int) (s : State) : State :=
  s.putCkExit c d { s.ckExit c d with taps := [0, 0, taps.getD 2 0, 0, 0, 0] }

/-- A TX end loads its preset for a rung; the exit clock end of its side follows lane position 0 (R111). -/
def loadTx (n : Nat) (sd : Side) (rung : Nat) (s : State) : State :=
  let p := applyTaps (txPreset s n sd rung)
  let s := s.putTx n sd { s.txe n sd with rung := rung, taps := p.1 }
  let s := if lanePos n = 0 then exitDrive (laneCluster n) sd.dirOut p.1 s else s
  if p.2 then s.wr (R.ADAPT_STAT_preset_fault (laneCluster n)) 1 else s

def State.coefs (s : State) (n : Nat) (sd : Side) : Coef := Tbl.get {} s.coef (rxKey n sd)
def State.putCoef (s : State) (n : Nat) (sd : Side) (v : Coef) : State := { s with coef := Tbl.put {} (rxKey n sd) v s.coef }

/-- An RX end loads its CTLE and VGA settings for a rung. -/
def loadRx (n : Nat) (sd : Side) (rung : Nat) (s : State) : State :=
  let v := presetPage (laneCluster n) (lanePos n) rung
  s.putCoef n sd { s.coefs n sd with
    ctle := min 23 (s.rd (R.PRESET_RX_ctle v sd.idx)), vga := min 15 (s.rd (R.PRESET_RX_vga v sd.idx)) }

/-! ## The adaptation engine (R115-R119) -/

/-- States of EST_A and EST_B. -/
def esOff : Nat := 0
def esAcquire : Nat := 1
def esTrack : Nat := 2
def esFrozen : Nat := 3

def estOf (n : Nat) (sd : Side) : Fld := R.EST (laneCluster n) (lanePos n) sd.idx
def oorOf (n : Nat) (sd : Side) : Fld := R.OOR (laneCluster n) (lanePos n) sd.idx

/-- Index of an RX end in its cluster's engine. -/
def rxIndex (n : Nat) (sd : Side) : Nat := 9 * sd.idx + lanePos n

def State.engine (s : State) (c : Nat) : AdaptSt := Tbl.get {} s.adapt c

/-- Store a cluster's engine; ADAPT_STAT follows it. -/
def State.putEngine (s : State) (c : Nat) (v : AdaptSt) : State :=
  let s := { s with adapt := Tbl.put {} c v s.adapt }
  let e := v.cur.getD 0
  let s := s.wr (R.ADAPT_STAT_activity c) (if v.cur.isNone then 0 else if v.visiting then 1 else 2)
  (s.wr (R.ADAPT_STAT_cur_side c) (e / 9)).wr (R.ADAPT_STAT_cur_pos c) (e % 9)

/-- An end is in service for adaptation: LOCKED, or with signal detect in a TRANSPARENT link. -/
def adaptService (s : State) (n : Nat) (sd : Side) : Bool :=
  match endUse s n sd with
  | some (k, _) => if modeOf s k = mTransparent then s.on (leSd n sd) else isLocked s n sd
  | none => isLocked s n sd

/-- The engine may visit an end: in service and in TRACK, with tracking enabled (R115, R119). -/
def visitable (s : State) (c e : Nat) : Bool :=
  let n := laneAt c (e % 9)
  let sd := Side.ofIdx (e / 9)
  s.on (R.ADAPT_CFG_enable c) && s.rd (estOf n sd) = esTrack && adaptService s n sd

/-- The sentinel of an end is held by a calibration run or an eye measurement (R114). -/
def sentinelBusy (s : State) (c e : Nat) : Bool := (s.calSeq c).cur = some e || (s.calSeq c).eye = some e

/-- The queued end that is served next: the first in order (R115). -/
def queueFirst (q : List Nat) : Option Nat := (List.range 18).find? fun e => q.contains e

/-- The next end to visit after `last`; the visits passed over because the sentinel is held are counted. -/
def nextVisit (c : Nat) : Nat → Nat → State → Option Nat × State
  | 0, _, s => (none, s)
  | n + 1, e, s =>
    if !visitable s c (e % 18) then nextVisit c n (e + 1) s
    else if sentinelBusy s c (e % 18) then nextVisit c n (e + 1) (s.bump (R.ADAPT_CNT_skipped c))
    else (some (e % 18), s)

/-- The engine takes up its next work where it has none: a queued end, else a visit (R115); a
calibration run that waits for its sentinel starts before the next visit (R114, R361). -/
def engineNext (c : Nat) (s : State) : State :=
  let a := s.engine c
  if a.cur.isSome then s else
  match queueFirst a.queue with
  | some e => sentinelTaken c e (s.putEngine c { a with cur := some e, visiting := false })
  | none =>
    let s := calResume c s
    match nextVisit c 18 (a.last + 1) s with
    | (some e, s) => s.putEngine c { a with cur := some e, visiting := true, visitAt := s.clock, last := e }
    | (none, s) => s.putEngine c a

/-- The engine has nothing more to do with an end. -/
def engineDrop (c e : Nat) (s : State) : State :=
  let a := s.engine c
  let s := s.putEngine c { a with queue := a.queue.filter (· ≠ e), cur := if a.cur = some e then none else a.cur }
  engineNext c s

/-- A run on an end of a cluster direction ends ABORTED, and its sentinel is free again (R369). -/
def dirAbort (c : Nat) (d : Dir) (s : State) : State := engineNext c (calAbortDir c d s)

/-- Coefficients at the start of a cold acquisition (R112). -/
def coldCoef (x : Coef) : Coef :=
  { x with h := List.replicate 12 0, f1 := 0, f2 := 0, tLow := -64, tMid := 0, tHigh := 64 }

/-- An end with signal detect enters ACQUIRE and is queued; a visit in progress ends at once (R115, R116, R119). The first
acquisition of an end that has recorded no rung is cold (DESIGN CHOICE; log 218). -/
def acqQueue (n : Nat) (sd : Side) (s : State) : State :=
  let c := laneCluster n
  let e := rxIndex n sd
  if s.rd (estOf n sd) = esAcquire then s else
  let x := s.coefs n sd
  let x := if x.everAcq && x.acqRung = x.rung then x else coldCoef x
  let s := (s.putCoef n sd { x with blocks := 0, goodBlocks := 0, due := [] }).wr (estOf n sd) esAcquire
  let a := s.engine c
  let s := s.putEngine c { a with queue := if a.queue.contains e then a.queue else a.queue ++ [e],
                                  cur := if a.visiting then none else a.cur, visiting := false }
  engineNext c s

/-- An acquisition at a rung is requested for an end; without signal detect it waits for it (R115, R117). A request for an
end that is already queued, or is being acquired, changes nothing. -/
def acqRequest (n : Nat) (sd : Side) (rung : Nat) (s : State) : State :=
  if s.rd (estOf n sd) = esAcquire then s else
  let s := s.putCoef n sd { s.coefs n sd with acqRung := rung }
  if s.on (leSd n sd) then acqQueue n sd s else s

/-- Loss of signal takes an end that acquires to OFF and out of the queue (R119). -/
def acqRemove (n : Nat) (sd : Side) (s : State) : State :=
  engineDrop (laneCluster n) (rxIndex n sd) ((s.putCoef n sd { s.coefs n sd with acqRung := 7 }).wr (estOf n sd) esOff)

/-- The last acquisition asked of an end is over and the end is adapted. -/
def acquired (s : State) (n : Nat) (sd : Side) : Bool :=
  (s.coefs n sd).acqRung = 7 && (s.rd (estOf n sd) = esTrack || s.rd (estOf n sd) = esFrozen)

/-- An end leaves service: coefficients, positions and the recorded rung are kept (R119); an eye measurement on it ends
ABORTED (R370). -/
def adaptLeaves (n : Nat) (sd : Side) (s : State) : State :=
  let s := eyeAbort (laneCluster n) (rxIndex n sd) s
  let st := s.rd (estOf n sd)
  if st = esTrack || st = esFrozen then
    let s := (s.wr (estOf n sd) esOff).putCoef n sd { s.coefs n sd with due := [] }
    engineDrop (laneCluster n) (rxIndex n sd) s
  else s

/-- An end that comes into service is tracked (R119). -/
def adaptEnters (n : Nat) (sd : Side) (s : State) : State :=
  let s := if s.rd (estOf n sd) = esOff && s.on (R.ADAPT_CFG_enable (laneCluster n)) && (s.coefs n sd).acqRung = 7
    then s.wr (estOf n sd) esTrack else s
  engineNext (laneCluster n) s

/-- A request that still waits for signal detect is dropped with what asked for it (DEDUCED; log 219); an acquisition that is
queued or runs goes on, and ends as R119 says. -/
def acqCancel (n : Nat) (sd : Side) (s : State) : State :=
  if s.rd (estOf n sd) = esAcquire || (s.coefs n sd).acqRung = 7 then s else
  let s := s.putCoef n sd { s.coefs n sd with acqRung := 7 }
  if adaptService s n sd then adaptEnters n sd s else s

end Sys2Proof.Machine
end

