-- ==== Sys2Proof/Machine/LineCode.lean ====
section
/-!
DEFINITION. The 8b/10b line code (R47-R52): encoding with running disparity, decoding and its classification, and what a
reversed pair does to the bits. A code is ten bits with `a` the most significant (R48). The data table and the disparity
rules are those of IEEE 802.3 Clause 36, which the spec takes them from (PRESUMED; log 217); the control codes are R50's.
-/

namespace Sys2Proof.Machine

open Sys2Proof

/-! ## Sub-blocks -/

/-- The six bits `abcdei` of the values 0-31 at negative running disparity. -/
def code6 : List Nat :=
  [0b100111, 0b011101, 0b101101, 0b110001, 0b110101, 0b101001, 0b011001, 0b111000,
   0b111001, 0b100101, 0b010101, 0b110100, 0b001101, 0b101100, 0b011100, 0b010111,
   0b011011, 0b100011, 0b010011, 0b110010, 0b001011, 0b101010, 0b011010, 0b111010,
   0b110011, 0b100110, 0b010110, 0b110110, 0b001110, 0b101110, 0b011110, 0b101011]

/-- The four bits `fghj` of the values 0-7 at negative running disparity, in the primary form. -/
def code4 : List Nat := [0b1011, 0b1001, 0b0101, 0b1100, 0b1101, 0b1010, 0b0110, 0b1110]

/-- How many of the low `w` bits are ones. -/
def onesOf (w v : Nat) : Nat := ((List.range w).filter (bit v)).length

/-- The running disparity after a six-bit and after a four-bit sub-block; `true` is positive. -/
def rdAfter6 (rd : Bool) (v : Nat) : Bool :=
  if 3 < onesOf 6 v || v = 0b000111 then true else if onesOf 6 v < 3 || v = 0b111000 then false else rd
def rdAfter4 (rd : Bool) (v : Nat) : Bool :=
  if 2 < onesOf 4 v || v = 0b0011 then true else if onesOf 4 v < 2 || v = 0b1100 then false else rd

/-- The running disparity that follows from a code, whatever it was classified as. -/
def rdAfter (rd : Bool) (c : Nat) : Bool := rdAfter4 (rdAfter6 rd (c / 16 % 64)) (c % 16)

/-! ## Encoding -/

def enc6 (rd : Bool) (x : Nat) : Nat :=
  let v := code6.getD x 0
  if rd && (onesOf 6 v ≠ 3 || x = 7) then 63 - v else v

/-- The alternate form of y = 7, which keeps five equal bits from following each other. -/
def altFour (rd : Bool) (x : Nat) : Bool :=
  if rd then x = 11 || x = 13 || x = 14 else x = 17 || x = 18 || x = 20

def enc4 (rd : Bool) (x y : Nat) : Nat :=
  if y = 7 && altFour rd x then (if rd then 0b1000 else 0b0111) else
  let v := code4.getD y 0
  if rd && (onesOf 4 v ≠ 2 || y = 3) then 15 - v else v

/-- The code of a data byte. -/
def encData (rd : Bool) (b : Nat) : Nat :=
  let v := enc6 rd (b % 32)
  v * 16 + enc4 (rdAfter6 rd v) (b % 32) (b / 32 % 8)

/-- The twelve control symbols: byte, code at negative and at positive running disparity (R50). -/
def controlCodes : List (Nat × Nat × Nat) :=
  [(0x1C, 0b0011110100, 0b1100001011), (0x3C, 0b0011111001, 0b1100000110), (0x5C, 0b0011110101, 0b1100001010),
   (0x7C, 0b0011110011, 0b1100001100), (0x9C, 0b0011110010, 0b1100001101), (0xBC, 0b0011111010, 0b1100000101),
   (0xDC, 0b0011110110, 0b1100001001), (0xFC, 0b0011111000, 0b1100000111), (0xF7, 0b1110101000, 0b0001010111),
   (0xFB, 0b1101101000, 0b0010010111), (0xFD, 0b1011101000, 0b0100010111), (0xFE, 0b0111101000, 0b1000010111)]

/-- The code of a symbol. -/
def encode10 (rd : Bool) : Sym → Nat
  | .d b => encData rd b
  | .k b => match controlCodes.find? fun r => r.1 = b with
    | some (_, n, p) => if rd then p else n
    | none => 0
  | .bad _ => 0

/-- The codes of a run of symbols, and the running disparity after them. -/
def encodeAll (rd : Bool) : List Sym → List Nat × Bool
  | [] => ([], rd)
  | x :: t =>
    let c := encode10 rd x
    let r := encodeAll (rdAfter rd c) t
    (c :: r.1, r.2)

/-! ## Decoding (R50) -/

/-- The data byte that has a code at one of the two running disparities. -/
def dataOf (c : Nat) : Option Nat :=
  let v := c / 16
  match (List.range 32).find? fun x => enc6 false x = v || enc6 true x = v with
  | none => none
  | some x => ((List.range 8).map fun y => x + 32 * y).find? fun b =>
      encData false b = c || encData true b = c

/-- A received code is good, a code violation, or a disparity error; K28.6 and K28.7 are code violations. -/
def decode10 (rd : Bool) (c : Nat) : Sym :=
  match controlCodes.find? fun r => r.2.1 = c || r.2.2 = c with
  | some (b, n, p) =>
    if b = 0xDC || b = 0xFC then .bad false else if (if rd then p else n) = c then .k b else .bad true
  | none => match dataOf c with
    | some b => if encData rd b = c then .d b else .bad true
    | none => .bad false

/-- The symbols of a run of codes, and the running disparity after them. -/
def decodeAll (rd : Bool) : List Nat → List Sym × Bool
  | [] => ([], rd)
  | c :: t =>
    let r := decodeAll (rdAfter rd c) t
    (decode10 rd c :: r.1, r.2)

/-! ## Reversed pairs (R52, R54, R66) -/

/-- What a P/N reversal makes of a code: every bit at the NRZ rates; at the PAM4 rates level v becomes 3 − v, which turns
the earlier bit of each pair. -/
def mirrored (pam on : Bool) (c : Nat) : Nat := if !on then c else if pam then c ^^^ 0x2AA else c ^^^ 0x3FF

/-- A rung at which symbols travel as PAM4. -/
def isPam (rung : Nat) : Bool := 2 ≤ rung && rung ≤ 4

end Sys2Proof.Machine
end

