-- ==== Sys2Proof/Machine/Flits.lean ====
section
/-!
DEFINITION. Flits and ordered sets as they travel (chapters Lane ends and the line code, R57-R62, and The flit path and
folding, R161-R171 and R179): the header fields, the check of the slices, striping, the sets symbol by symbol, and the
seam.
-/

namespace Sys2Proof.Machine

open Sys2Proof

/-! ## Header fields (R161, R163) -/

def flitType (b : List Nat) : Nat := b.getD 0 0 / 16
def flitVc (b : List Nat) : Nat := b.getD 1 0 % 32
def flitSeq (b : List Nat) : Nat := b.getD 2 0 % 16 * 256 + b.getD 3 0
def flitWord (b : List Nat) : Nat := beNat ((b.drop 12).take 4)
/-- Span sequence number and logical-link id of a link-local word. -/
def wordSpan (w : Nat) : Nat := bits w 15 0
def wordLl (w : Nat) : Nat := bits w 25 16
/-- The flit with its link-local word stamped. -/
def stampWord (b : List Nat) (w : Nat) : List Nat := b.take 12 ++ beBytes 4 w ++ b.drop 16

/-! ## Slices (R166-R169) -/

/-- The byte of a data symbol. -/
def symByte : Sym → Option Nat
  | .d b => some b
  | _ => none

/-- The data positions of a slice of a side of `w` lanes, and the symbol in its parity position. -/
def sliceData (w : Nat) (sl : Slice) : List Sym := (sl.syms.drop 1).take (144 / w)
def sliceParity (w : Nat) (sl : Slice) : Sym := sl.syms.getD (144 / w + 1) (.bad false)
def xorBytes (bs : List Nat) : Nat := bs.foldl Nat.xor 0

/-- BADSYM of one slice: an end that was not LOCKED, a missing SOF, a symbol that is no good data symbol, or a parity
symbol that is neither data nor BAD. -/
def sliceBadSym (w : Nat) (sl : Slice) : Bool :=
  !sl.locked || sl.syms.head? ≠ some (.k symSOF) || (sliceData w sl).length ≠ 144 / w ||
  (sliceData w sl).any (fun x => (symByte x).isNone) ||
  ((symByte (sliceParity w sl)).isNone && sliceParity w sl ≠ .k symBAD)
def sliceBadIn (w : Nat) (sl : Slice) : Bool := sliceParity w sl = .k symBAD
def sliceBadPar (w : Nat) (sl : Slice) : Bool :=
  symByte (sliceParity w sl) ≠ some (xorBytes ((sliceData w sl).filterMap symByte))

/-- The arrival class of a flit (R167): 0 good, else the first of BADSYM 1, BADIN 2, BADPAR 3 that applies. -/
def arrivalClass (w : Nat) (slices : List Slice) : Nat :=
  if slices.length ≠ w || slices.any (sliceBadSym w) then 1
  else if slices.any (sliceBadIn w) then 2
  else if slices.any (sliceBadPar w) then 3 else 0

/-- The symbols that a slice gives to its flit: none without its SOF, whose lane discards up to the next SOF or COM (R168);
those before a COM, which ends the slice (R62). -/
def sliceTaken (sl : Slice) : List Sym :=
  if sl.syms.head? = some (.k symSOF) then sl.syms.takeWhile fun x => x ≠ .k 0xBC else []

/-- A flit starts: at least one LOCKED lane carries SOF (R167). -/
def flitStarts (slices : List Slice) : Bool := slices.any fun sl => sl.syms.head? = some (.k symSOF)

/-- The bytes as received, in flit order (R166); a byte whose symbol was bad or missing is 0 (R169). -/
def arrivedBytes (w : Nat) (slices : List Slice) : List Nat :=
  (List.range 144).map fun k =>
    match slices[k % w]? with
    | some sl => (symByte ((sliceTaken sl).getD (1 + k / w) (.bad false))).getD 0
    | none => 0

/-- The symbols of a flit on each lane of a side of `w` lanes (R166, R169). -/
def stripe (w : Nat) (b : List Nat) (poison : Bool) : List (List Sym) :=
  (List.range w).map fun q =>
    let data := (List.range (144 / w)).map fun j => b.getD (q + w * j) 0
    [Sym.k symSOF] ++ data.map Sym.d ++ [if poison then .k symBAD else .d (xorBytes data)]

/-! ## Ordered sets as symbols (R57-R61) -/

def symCOM : Sym := .k 0xBC

/-- Bytes of a TRN set on lane position `q` (R59, R138). -/
def trnBytes (t : TrnSet) (q : Nat) : List Nat :=
  [t.t0, q, t.kind, t.flags, t.max * 16 + t.cur, t.width * 16 + t.target, t.tag] ++ beBytes 2 t.elect ++ beBytes 4 t.value
def ackBytes (a : AckSet) : List Nat :=
  [a.seq % 256, a.flags * 16 + a.seq / 256] ++ (beBytes 4 a.map).reverse
def drnBytes (d : DrnSet) : List Nat := d.d0 :: beBytes 2 d.value

/-- A set with a parity byte. -/
def paritySet (type : Nat) (bs : List Nat) : List Sym := [symCOM, .k type] ++ bs.map Sym.d ++ [.d (xorBytes bs)]

/-- The bytes of an intact set of a type with a parity byte. -/
def parityBytes (type : Nat) (x : List Sym) : Option (List Nat) :=
  let bs := (x.drop 2).filterMap symByte
  if x.take 2 = [symCOM, .k type] && bs.length + 2 = x.length && bs ≠ [] && xorBytes bs.dropLast = bs.getLastD 0
  then some bs.dropLast else none

/-- The contents of an intact copy of each set (R57, R61): every symbol good, the length of the type, the parity right. -/
def readTrn (x : List Sym) : Option TrnSet :=
  match parityBytes 0x3C x with
  | some [t0, t1, kind, flags, mc, wt, tag, e1, e0, v3, v2, v1, v0] =>
    some { t0 := t0, t1 := t1, kind := kind, flags := flags, max := mc / 16, cur := mc % 16, width := wt / 16,
           target := wt % 16, tag := tag, elect := beNat [e1, e0], value := beNat [v3, v2, v1, v0] }
  | _ => none
def readAck (x : List Sym) : Option AckSet :=
  match parityBytes 0x5C x with
  | some [a0, a1, x0, x1, x2, x3] =>
    some { seq := a1 % 16 * 256 + a0, flags := a1 / 16, map := beNat [x3, x2, x1, x0] }
  | _ => none
def readDrn (x : List Sym) : Option DrnSet :=
  match parityBytes 0x9C x with
  | some [d0, d1, d2] => some { d0 := d0, value := beNat [d1, d2] }
  | _ => none
def readSel (x : List Sym) : Option (List Nat) :=
  match parityBytes 0xF7 x with
  | some (l :: b) => if b.length = l && 1 ≤ l && l ≤ 96 then some b else none
  | _ => none
def readIdl (x : List Sym) : Option Unit := if x = [symCOM, .k 0x7C] then some () else none
def readEie (x : List Sym) : Option Unit := if x = [symCOM, .k 0xFD, .k 0xFD, .k 0xFD] then some () else none
/-- A SKP set as received: one to seven K28.0 after COM. -/
def readSkp (x : List Sym) : Option Nat :=
  let n := x.length - 1
  if x = symCOM :: List.replicate n (.k 0x1C) && 1 ≤ n && n ≤ 7 then some n else none

def copyContents {α : Type} : Copy α → Option α
  | .intact v => some v
  | _ => none

/-- An ordered-set boundary of a TX end. -/
def txBoundary (n : Nat) (sd : Side) (s : State) : State :=
  match (s.txe n sd).polPend with
  | some v => s.putTx n sd { s.txe n sd with polPend := none, pol := v }
  | none => s

/-! ## The seam (R179, R180, R344) -/

/-- A transfer leaves die `d` across the seam; whether it got across. Both tries fail while the seam is down. -/
def seamSend (d : Nat) (fail1 fail2 : Bool) (s : State) : Bool × State :=
  let down := !s.on (R.SEAM_STAT_up d)
  let s := s.count64 (R.SEAM_XFER_LO d)
  if !(fail1 || down) then (true, s) else
  let s := s.bump (R.SEAM_RETRY d)
  if !(fail2 || down) then (true, s) else
  (false, ((s.bump (R.SEAM_FAIL d)).wr (R.SEAM_STAT_failed d) 1).raise 293)

/-- A flit of a crossing direction: a transfer that fails twice is delivered as class BADSYM. -/
def seamFlit (src dst : Nat) (fail1 fail2 : Bool) (f : Flit) (s : State) : Flit × State :=
  if src = dst then (f, s) else
  match seamSend src fail1 fail2 s with
  | (true, s) => (f, s)
  | (false, s) => ({ f with cls := 1 }, s)

end Sys2Proof.Machine
end

