-- ==== Sys2Proof/Machine/Flows.lean ====
section
/-!
DEFINITION. Flows: what is kept for one direction of a link or of a logical link. Darning (chapter Darning toward
endpoints, R184-R205), queues and proxy XOFF (R234), custody and proxy acks (R228-R232), and the pending ACK set of a side
(R174).
-/

namespace Sys2Proof.Machine

open Sys2Proof

/-- Register block of a logical link's own counters (R265). -/
def llPage (l : Nat) : Nat := llLivePage l - 0xC0

/-- Count on the per-link counter of a flow; logical links have no such counter (R185). -/
def countLink (f : Nat) (c : Nat → Nat → Fld) (s : State) : State :=
  if flowIsLl f then s else s.count (c (flowOwner f) (flowDir f))

/-- Update a flow. -/
def State.modFlow (s : State) (f : Nat) (g : Flow → Flow) : State := s.putFlow f (g (s.flow f))

/-! ## Events of a region (R208, R209, R239, R240) -/

def darnEvent (f event : Nat) (s : State) : State :=
  let r := flowRegion s f
  let s := ((s.wr (R.DARN_LAST_valid r) 1).wr (R.DARN_LAST_event r) event).wr (R.DARN_LAST_dir r) (flowDir f)
  (s.wr (R.DARN_LAST_index r) (flowOwner f)).rgnEvent r event

/-- 0 CUST_LOSS, 1 SPAN_RETRAIN, 2 NOSLOT. -/
def trunkEvent (r event index : Nat) (s : State) : State :=
  (((s.wr (R.TRK_LAST_valid r) 1).wr (R.TRK_LAST_event r) event).wr (R.TRK_LAST_index r) index).rgnEvent r (8 + event)

/-! ## The pending ACK set of a side (R174) -/

/-- An ACK set becomes pending on a side; one that it replaces is counted. -/
def postAck (k : Nat) (sd : Side) (a : AckSet) (s : State) : State :=
  let x := s.side k sd
  let s := if x.pendAck.isSome then s.count (R.ACK_SUP k sd.dirOut.idx) else s
  s.putSide k sd { x with pendAck := some a }

/-- Proxy ACK set of a flow that enters from an endpoint (R230). -/
def postProxy (f : Nat) (s : State) : State :=
  let v := s.flow f
  let i := flowIn s f
  if v.seqValid then postAck i.1 i.2 { seq := v.seq, flags := 0, map := v.up } s else s

/-- Ack refresh of proxy acks (R228, R230): nothing where a set is pending. -/
def refreshProxy (f : Nat) (s : State) : State :=
  let i := flowIn s f
  if (s.side i.1 i.2).pendAck.isSome || !(s.flow f).seqValid then s
  else postProxy f (if flowIsLl f then s else s.count (R.TRK_REFRESH_proxy (flowOwner f)))

/-- Ack refresh of darning (R201), toward the sender of the flow. -/
def refreshAck (f : Nat) (s : State) : State :=
  let v := s.flow f
  let i := flowIn s f
  match v.acked with
  | none => s
  | some a =>
    if v.dstate < 2 || (s.side i.1 i.2).pendAck.isSome || flowInTrunk s f then s
    else postAck i.1 i.2 { seq := a, flags := 0, map := v.lastMap } (countLink f R.REFRESH s)

/-! ## Reservations (R193, R236, R259, R275) -/

/-- The holder an allocation of a flow is charged to: its TRUNK-family link, or the direction itself. -/
def flowHolder (s : State) (f : Nat) : Nat :=
  if !flowIsLl f && isTrunkMode (modeOf s (flowOwner f)) then 1 + flowOwner f else 1000 + f
/-- The holder of the numbered copies of a trunk side: its TRUNK-family link, or the side of its calendar. -/
def trunkHolder (t : Nat) : Nat := if t < 1024 then 1 + t else 2000 + t

/-- Slots reserved on die `d` for a flow's holder. -/
def flowRes (s : State) (d f : Nat) : Nat :=
  if flowIsLl f then llQueueRes provedView s (flowOwner f) (flowDir f) + llDarnRes provedView s (flowOwner f) (flowDir f)
  else linkRes provedView s d (flowOwner f) |> fun n =>
    if isTrunkMode (modeOf s (flowOwner f)) then n else vDirRes provedView s (flowOwner f) (Dir.ofIdx (flowDir f))

/-- The slot that a flit of a flow fills when it is to leave on side `out`. The fields of a flit that is not good are not
used (R162). -/
def sideSlot (s : State) (f out : Nat) (fl : Flit) : Slot :=
  { state := stLive, dir := flowDir f, ll := flowIsLl f, cls := fl.cls, owner := flowOwner f, bytes := fl.bytes,
    vc := if fl.cls = 0 then flitVc fl.bytes else 0, xlpSeq := if fl.cls = 0 then flitSeq fl.bytes else 0,
    holder := flowHolder s f, out := out, arr := s.freeCtr }

/-- The side a flow leaves on, as the slots name it. -/
def outKey (s : State) (f : Nat) : Nat := let o := flowOut s f; spanKey o.1 o.2

def flowSlot (s : State) (f : Nat) (fl : Flit) : Slot := sideSlot s f (outKey s f) fl

/-- Allocate for a flow, one slot or a mirrored pair, on the die of the side it is to leave on (R19), within its holder's
reservation (R275). -/
def allocFlow (f : Nat) (pair : Bool) (x : Slot) (s : State) : Option (Nat × State) :=
  let d := sideDie s (x.out / 2) (Side.ofIdx (x.out % 2))
  let n := if pair then 2 else 1
  if flowRes s d f < charged s d x.holder + n then none
  else if pair then allocPair d x s else allocSlot d [] x s

/-! ## Queues and proxy XOFF (R234, R246) -/

/-- The slot that flits fill at their SOF is freed again at a verdict that is not good (R276). -/
def writingFreed (f : Nat) (pair : Bool) (fl : Flit) (s : State) : State :=
  match allocFlow f pair { flowSlot s f fl with state := stWriting, queued := true } s with
  | some (r, s) => slotFree r s
  | none => s

/-- The good flits of a flow that wait in its queues and have not been sent yet, those that a run has taken from their queue
included (R234). -/
def waitingOf (s : State) (f : Nat) : List Nat :=
  let q := (s.flow f).queue
  (q ++ (s.flow f).replayQ.filter fun r => !(s.slot r).sent && !q.contains r).filter fun r => (s.slot r).cls = 0

/-- The depth of the queue of a VC (R234). -/
def depthOf (s : State) (f v : Nat) : Nat := ((waitingOf s f).filter fun r => (s.slot r).vc = v).length

/-- The upstream XOFF map after an enqueue or dequeue: set above hwm, cleared at lwm or below. -/
def nextMap (s : State) (f : Nat) : Nat :=
  let old := (s.flow f).up
  (List.range 32).foldl (fun m v =>
    let n := depthOf s f v
    let on := if flowHwm s f < n then true else if n ≤ flowLwm s f then false else bit old v
    if on then m + 2 ^ v else m) 0

/-- A control-flit record becomes pending on a trunk side (R249): a newer one replaces the older and keeps its waiting
time. -/
def postRec (t l : Nat) (xoffKind : Bool) (s : State) : State :=
  let x := s.trunk t
  let recs := match x.recs.find? fun r => r.ll = l with
    | some _ => x.recs.map fun r => if r.ll = l then { r with xoffKind := r.xoffKind || xoffKind } else r
    | none => x.recs ++ [{ ll := l, xoffKind := xoffKind, since := s.fab }]
  s.putTrunk t { x with recs := recs, ctlDue := x.ctlDue || decide (8 ≤ recs.length) }

/-- The trunk ACK set of a TRUNK-family link becomes pending (R233). -/
def postTrunkAck (k : Nat) (sd : Side) (s : State) : State :=
  let s := s.putTrunk k { s.trunk k with ackSetAt := s.fab }
  postAck k sd { seq := 0, flags := 0, map := (s.flow (linkFlow k sd.dirIn)).up } s

/-- The upstream map of a flow changed: the proxy ACK set, the trunk ACK set or a record becomes pending. -/
def postUpstream (f : Nat) (s : State) : State :=
  let i := flowIn s f
  if !flowInTrunk s f then postProxy f s
  else if flowIsLl f then postRec (trunkKey s i.1 i.2) (flowOwner f) true s
  else postTrunkAck i.1 i.2 s

/-- The queue of QST_SEL keeps its peak (R267). -/
def qstPeak (f v : Nat) (s : State) : State :=
  let l := if flowIsLl f then flowOwner f else s.rd (R.TRK_CFG1_LIVE_queue_ll (flowOwner f))
  let d := llDie l
  let n := depthOf s f v
  if s.rd (R.QST_SEL_queue d) = 64 * l + 2 * v + flowDir f - 32768 * d && s.rd (R.QST_PEAK_peak d) < n
  then s.wr (R.QST_PEAK_peak d) (min n 0xFFFF) else s

/-- Compare the depths and pass a changed map on (R234). -/
def xoffUpdate (f : Nat) (s : State) : State :=
  if !flowCustodial s f then s else
  let m := nextMap s f
  if m = (s.flow f).up then s else postUpstream f (s.modFlow f fun v => { v with up := m })

def enqueue (f r : Nat) (s : State) : State :=
  xoffUpdate f (qstPeak f (s.slot r).vc (s.modFlow f fun v => { v with queue := v.queue ++ [r] }))

def dequeue (f r : Nat) (s : State) : State := xoffUpdate f (s.modFlow f fun v => { v with queue := v.queue.filter (· ≠ r) })

/-- The oldest queued flit of a flow for side `o` whose VC is not under XOFF. -/
def queueHead (s : State) (f o : Nat) : Option Nat :=
  (s.flow f).queue.find? fun r => (s.slot r).out = o && !bit (s.flow f).xoff (s.slot r).vc

/-! ## Custody loss (R232, R258) -/

def custLost (f r : Nat) (s : State) : State :=
  let s := if flowIsLl f then s.count (R.LL_CLOSS (llPage (flowOwner f))) else s.count (R.CUST_LOSS (flowOwner f))
  (trunkEvent (flowRegion s f) 0 (flowOwner f) s).raise (276 + refDie r)

/-! ## Darning: sequence arithmetic (R186-R188) -/

def ahead12 (a b : Nat) : Nat := (a + 4096 - b) % 4096
def covers12 (a q : Nat) : Bool := ahead12 a q ≤ 2047

def dOff : Nat := 0
def dSync : Nat := 1
def dDarn : Nat := 2
def dHandback : Nat := 3

/-- Class of a good flit: 0 new, 1 gap, 2 duplicate, 3 first. -/
def seqClass (expect : Option Nat) (q : Nat) : Nat :=
  match expect with
  | none => 3
  | some e => if ahead12 q e = 0 then 0 else if ahead12 q e ≤ 2048 then 1 else 2

/-- t_darn in ns (R194). -/
def tDarn (s : State) (f : Nat) : Nat := let o := flowOut s f; s.rd (R.RTT_rtt o.1 o.2.idx) + 16 * flowGuard s f

/-- Entry to HANDBACK (R192), from DARN, or from HANDBACK too at a give-up: cause 1 UPGAP, 2 NOCOPY, 3 GIVEUP. -/
def handback (f cause hbEnd : Nat) (s : State) : State :=
  let v := s.flow f
  if v.dstate = dDarn || (v.dstate = dHandback && cause = 3) then
    let s := s.putFlow f { v with dstate := dHandback, hbCause := cause, hbEnd := hbEnd % 4096 }
    if cause = 1 then countLink f R.UPGAP s else if cause = 2 then darnEvent f 1 s else s
  else s

/-- A copy is freed: its roles end, and it leaves every list of its flow (R191, R196, R229). The timer follows a new oldest
copy from that copy's own t_sent (R196). -/
def freeCopy (f r : Nat) (s : State) : State :=
  let s := pairSet r (fun x => { x with darn := false, custody := false, queued := false }) s
  s.modFlow f fun v =>
    let head := v.copies.head? = (v.copies.filter (· ≠ r)).head?
    { v with
    dstate := if v.ending && v.replayQ.filter (· ≠ r) = [] then dOff else v.dstate,
    ending := v.ending && decide (v.replayQ.filter (· ≠ r) ≠ []),
    delay := if head then v.delay else 0, fired := v.fired && head, run := v.run && v.replayQ.filter (· ≠ r) ≠ [],
    copies := v.copies.filter (· ≠ r), replayQ := v.replayQ.filter (· ≠ r), queue := v.queue.filter (· ≠ r),
    fifo := v.fifo.map fun e => if e.slot = some r then { e with slot := none } else e }

def freeCopies (f : Nat) (rs : List Nat) (s : State) : State := rs.foldl (fun s r => freeCopy f r s) s

/-! ## Darning: arrivals (R188-R195, R200) -/

/-- The copies and the entries of the replay queue, which R193 bounds. -/
def heldTogether (v : Flow) : Nat := (v.copies ++ v.replayQ.filter fun r => !v.copies.contains r).length

/-- The bound of R193 on a direction that its link darns: its darning reservation, and 2,047. -/
def darnLimit (s : State) (f : Nat) : Nat :=
  min 2047 (vDirRes provedView s (flowOwner f) (Dir.ofIdx (flowDir f)))

/-- A flit is forwarded: it joins the replay queue while that is not empty, else it takes a place of the transit FIFO. A
flit that is no copy takes a slot for as long as it waits in the queue; one that finds none within R193 is discarded
(R195). -/
def forward (f : Nat) (fl : Flit) (slot : Option Nat) (s : State) : State :=
  let v := s.flow f
  if v.replayQ = [] then s.putFlow f { v with fifo := v.fifo ++ [{ flit := fl, slot := slot, at_ := v.entered }], entered := v.entered + 1 } else
  match slot with
  | some r => (pairSet r (fun x => { x with queued := true }) s).putFlow f { v with replayQ := v.replayQ ++ [r] }
  | none =>
    match if heldTogether v < darnLimit s f then allocFlow f false { flowSlot s f fl with queued := true } s else none with
    | some (r, s) => s.modFlow f fun v => { v with replayQ := v.replayQ ++ [r] }
    | none => darnEvent f 2 (countLink f R.RUNDROP s)

/-- A new flit in DARN: a copy is held, or the direction hands back (R189, R193). -/
def darnNew (f : Nat) (fl : Flit) (s : State) : State :=
  let q := flitSeq fl.bytes
  let nocopy := fun s => handback f 2 q (forward f fl none (countLink f R.NOCOPY s))
  if darnLimit s f ≤ heldTogether (s.flow f) then nocopy s else
  match allocFlow f false { flowSlot s f fl with darn := true } s with
  | none => nocopy s
  | some (r, s) =>
    let s := if flowIsLl f then s else s.count64 (R.COPY_LO (flowOwner f) (flowDir f))
    forward f fl (some r) (s.modFlow f fun v => { v with copies := v.copies ++ [r] })

/-- A duplicate in DARN or HANDBACK (R200). -/
def darnDuplicate (f : Nat) (fl : Flit) (s : State) : State :=
  let v := s.flow f
  let q := flitSeq fl.bytes
  let copy := v.copies.find? fun r => (s.slot r).xlpSeq = q
  if (match v.acked with | some a => covers12 a q | none => false) then refreshAck f (countLink f R.DUPDISC s)
  else match copy with
    | some r => if v.replayQ.contains r then countLink f R.DUPDISC s else forward f fl (some r) s
    | none => forward f fl none s

/-- A flit of a direction with a transit FIFO (R175, R188, R190, R205). One that finds all 16 places taken is discarded
whole, before darning sees it. -/
def fifoArrive (f : Nat) (fl : Flit) (s : State) : State :=
  let v := s.flow f
  if v.replayQ = [] && 16 ≤ v.fifo.length then countLink f R.OVR s
  else if v.dstate = dOff || v.ending then forward f fl none s
  else if fl.cls ≠ 0 then
    forward f fl none (handback f 1 (v.expect.getD 0) (if v.dstate = dDarn then writingFreed f false fl s else s))
  else
    let q := flitSeq fl.bytes
    let c := seqClass v.expect q
    let s := if c = 2 then s else s.putFlow f { v with expect := some ((q + 1) % 4096) }
    if v.dstate = dSync then forward f fl none s
    else if c = 2 then darnDuplicate f fl s
    else if v.dstate = dHandback then forward f fl none s
    else if c = 0 then darnNew f fl s
    else forward f fl none (handback f 1 (v.expect.getD 0) s)

/-! ## Darning: ACK sets (R191, R192) -/

/-- An ACK set with `a` advances the direction: the covered copies are freed, and the machine moves on. -/
def darnAdvance (f a : Nat) (s : State) : State :=
  let v := s.flow f
  let s := freeCopies f (v.copies.filter fun r => covers12 a (s.slot r).xlpSeq) (s.putFlow f { v with acked := some a })
  let st := if v.dstate = dSync && v.expect.isSome then dDarn
    else if v.dstate = dHandback && covers12 a v.hbEnd then dDarn else v.dstate
  xoffUpdate f (s.modFlow f fun w => { w with dstate := st })

/-- The endpoint ack of a logical link advances: a record for the trunk its flits arrive on, at most one per 1 µs
(R249). -/
def ackRecord (f : Nat) (s : State) : State :=
  if !flowIsLl f || !flowInTrunk s f then s else
  let i := flowIn s f
  let t := trunkKey s i.1 i.2
  let l := flowOwner f
  let x := s.trunk t
  let last := (x.lastAckRec.find? fun p => p.1 = l).map Prod.snd
  if (match last with | some a => decide (s.fab < a + 1000) | none => false) then s.modFlow f fun v => { v with ackOwed := true } else
  let s := s.putTrunk t { x with lastAckRec := (l, s.fab) :: x.lastAckRec.filter fun p => p.1 ≠ l }
  (postRec t l false s).modFlow f fun v => { v with ackOwed := false }

/-- Darning observes an accepted ACK set (R191). -/
def darnObserve (f : Nat) (a : AckSet) (s : State) : State :=
  let v := s.flow f
  if v.dstate = dOff || v.ending then s else
  let s := s.putFlow f { v with lastMap := a.map }
  let odd := (match v.expect with | some e => covers12 a.seq e | none => false) ||
    (match v.acked with | some b => ahead12 a.seq b = 2048 | none => false)
  if odd then countLink f R.ACK_ODD s
  else if (match v.acked with | some b => 1 ≤ ahead12 a.seq b && ahead12 a.seq b ≤ 2047 | none => true) then
    ackRecord f (darnAdvance f a.seq s)
  else s

/-! ## Darning: the timer and replay runs (R194-R199, R203) -/

/-- The timer of a direction has expired (R194): running, not frozen, its time reached, and not expired before on the oldest
copy as it was last sent. -/
def darnDue (s : State) (f : Nat) : Bool :=
  let v := s.flow f
  (v.dstate = dDarn || v.dstate = dHandback) && v.frozenAt.isNone && !v.fired &&
  match v.copies.head?, v.acked with
  | some r, some a =>
    let x := s.slot r
    x.sent && x.xlpSeq = (a + 1) % 4096 && x.tSent + v.delay + tDarn s f ≤ s.fab
  | _, _ => false

/-- The direction gives up (R198); copies in custody are kept (R199). -/
def darnGiveUp (f : Nat) (s : State) : State :=
  let v := s.flow f
  let s := freeCopies f (v.copies.filter fun r => !(s.slot r).custody) s
  handback f 3 (v.expect.getD 0 + 4095) (darnEvent f 0 (countLink f R.GIVEUP s))

def darnExpire (f : Nat) (s : State) : State :=
  match (s.flow f).copies.head? with
  | none => s
  | some r =>
    let x := s.slot r
    if flowRetries s f ≤ x.retry && !x.custody then darnGiveUp f s
    else s.modFlow f fun v => { v with expired := true, headCounts := true, fired := true }

/-- A replay or resume run starts at a point between flits (R195, R196): every held copy, also one whose flit still waits in
the transit FIFO or in a queue, which it leaves unsent. -/
def startRun (f : Nat) (s : State) : State :=
  let v := s.flow f
  if !v.expired then s else
  let run := v.copies
  match run.head? with
  | none => s.putFlow f { v with expired := false }
  | some h =>
    let s := run.foldl (fun s r => pairSet r (fun x => { x with queued := true }) s) s
    let s := if v.headCounts then
      pairSet h (fun x => { x with retry := if x.retry < flowRetries s f then x.retry + 1 else x.retry }) s else s
    let s := s.putFlow f { v with
      expired := false, run := true, replayQ := run ++ v.replayQ.filter fun r => !run.contains r,
      queue := v.queue.filter fun r => !run.contains r,
      fifo := v.fifo.filter fun e => match e.slot with
        | some r => !run.contains r
        | none => true }
    let l := llPage (flowOwner f)
    if flowIsLl f then s.count (if v.headCounts then R.LL_RUNS_runs l else R.LL_RUNS_resume l)
    else countLink f (if v.headCounts then R.RUNS else R.RESUME) s

/-- A run ends where its copies leave the replay queue unsent: at an interruption (R206). -/
def endRun (f : Nat) (s : State) : State :=
  let v := s.flow f
  if !v.run then s else
  let inRun := v.replayQ.filter fun r => v.copies.contains r
  let s := inRun.foldl (fun s r => pairSet r (fun x => { x with queued := false }) s) s
  s.putFlow f { v with run := false, replayQ := v.replayQ.filter fun r => !v.copies.contains r }

/-- The interruption of a direction begins, or goes on (R203): a run in progress ends (R206), and the TX ends send or not. -/
def freezeFlow (f : Nat) (txStops : Bool) (s : State) : State :=
  let s := match (s.flow f).frozenAt with
    | some _ => s
    | none => (endRun f s).modFlow f fun v => { v with frozenAt := some s.fab, cut := (s.flow f).run }
  if txStops then (endRun f s).modFlow f fun v => { v with stopped := true, cut := true }
  else s.modFlow f fun v => { v with stopped := false }

/-- When the timer of a list whose first slot is `h` began to wait, in an interruption that began at `t`: a copy sent meanwhile
starts with its whole time. -/
def frozenFrom (s : State) (t : Nat) (h : Option Nat) : Nat :=
  match h with
  | some r => if (s.slot r).sent then max t (s.slot r).tSent else t
  | none => t

/-- The interruption ends: the timer resumes, and a resume run starts where the TX ends were stopped or a run was ended, and
a copy is held. -/
def thawFlow (f : Nat) (s : State) : State :=
  let v := s.flow f
  match v.frozenAt with
  | none => s
  | some t =>
    s.putFlow f { v with
      frozenAt := none, stopped := false, cut := false, delay := v.delay + (s.fab - frozenFrom s t v.copies.head?),
      expired := v.expired || (v.cut && v.copies ≠ []), headCounts := if v.expired then v.headCounts else !v.cut && v.headCounts }

/-! ## Start and end of a direction (R204, R205, R228) -/

/-- Every copy and queued flit of a flow is freed, custody counted as lost where `lost`, and the direction goes OFF (R204,
R232). -/
def dropFlow (f : Nat) (lost : Bool) (s : State) : State :=
  let v := s.flow f
  let all := (v.copies ++ v.queue ++ v.replayQ).eraseDups
  let s := all.foldl (fun s r => slotFree r (if lost && (s.slot r).custody then custLost f r s else s)) s
  s.putFlow f { hbCause := v.hbCause, hbEnd := v.hbEnd, entered := v.entered }

/-- The link enters UP from DOWN: its custody sequence values are invalid (R228). -/
def startSeq (f : Nat) (s : State) : State := s.modFlow f fun v => { v with seqValid := false, seq := 0 }

/-- The leaving side's link enters UP from DOWN, or a COMMIT makes the direction darned: SYNC, nothing known yet (R205). -/
def startDarn (f : Nat) (s : State) : State :=
  s.modFlow f fun v => { v with dstate := if flowDarned s f then dSync else dOff, ending := false, expect := none, acked := none }

/-- Both, for a direction that starts afresh. -/
def startFlow (f : Nat) (s : State) : State := startDarn f (startSeq f s)

/-- A COMMIT makes a direction not darned (R205, R206): its copies are dropped, what waits without being a copy is still
sent, and then it is OFF. -/
def undarnFlow (f : Nat) (s : State) : State :=
  let s := freeCopies f (s.flow f).copies s
  s.modFlow f fun v => { v with
    dstate := if v.replayQ = [] then dOff else v.dstate, ending := decide (v.replayQ ≠ []), expect := none, acked := none,
    run := false, expired := false }

end Sys2Proof.Machine
end

