-- ==== Sys2Proof/Machine/Trunks.lean ====
section
/-!
DEFINITION. Trunk sides (chapter Trunks, custody and proxy flow control, R212-R235): numbering, held copies, DRN sets, the
span timer, acceptance and custody; and on bundle trunks control flits (R248-R250), the logical-link caches (R260-R263) and
the calendar (R253-R255).
-/

namespace Sys2Proof.Machine

open Sys2Proof

def State.modTrunk (s : State) (t : Nat) (g : TrunkSt → TrunkSt) : State := s.putTrunk t (g (s.trunk t))

/-- Count on the counter of a trunk side: the link's, or its calendar's. -/
def countTrunk (t : Nat) (link : Nat → Fld) (cal : Nat → Nat → Fld) (s : State) : State :=
  if t < 1024 then s.count (link t) else s.count (cal ((t - 1024) / 2) ((t - 1024) % 2))

/-- Count on a calendar counter. -/
def countCal (t : Nat) (c : Nat → Nat → Fld) (s : State) : State :=
  if t < 1024 then s else s.count (c ((t - 1024) / 2) ((t - 1024) % 2))

/-! ## Sequence arithmetic (R213) -/

def ahead16 (a b : Nat) : Nat := (a + 65536 - b) % 65536
def isAhead16 (a b : Nat) : Bool := 1 ≤ ahead16 a b && ahead16 a b ≤ 32768
def covers16 (a q : Nat) : Bool := ahead16 a q ≤ 32767

/-- t_span in ns (R223). -/
def tSpan (s : State) (t : Nat) : Nat :=
  let a := trunkAt s t
  max (s.rd (R.RTT_rtt a.1 a.2.idx)) ((s.trunk t).sample.getD 0) + 16 * trunkGuard s t

def trunkRegion (s : State) (t : Nat) : Nat := let a := trunkAt s t; sideRegion s a.1 a.2
def trunkDie (s : State) (t : Nat) : Nat := let a := trunkAt s t; sideDie s a.1 a.2

/-- The index TRK_LAST gives an event of a trunk side (R240): the link, and for a bundle the logical link of the oldest held
flit (DESIGN CHOICE: the spec does not say which; log 222). -/
def trunkIndex (s : State) (t : Nat) : Nat :=
  if t < 1024 then (trunkAt s t).1 else
  match (s.trunk t).held.head? with
  | some r => (s.slot r).owner
  | none => 0

/-- Room in the window (R217), and for a pair more within the reservation of a bundle trunk's side (R275). -/
def windowRoom (s : State) (t : Nat) : Bool :=
  (s.trunk t).held.length < trunkWindow s t &&
  (t < 1024 || charged s (trunkDie s t) (trunkHolder t) + 2 ≤ 2 * trunkWindow s t)

/-! ## Sending numbered flits (R212, R216, R217, R224) -/

/-- The link-local word of a flit sent on a trunk (R212). -/
def trunkWord (replay : Bool) (l q : Nat) : Nat := (if replay then 2 ^ 31 else 0) + l * 65536 + q

/-- A slot pair takes the next number and is held. -/
def number (t r : Nat) (s : State) : State :=
  let x := s.trunk t
  let s := pairSet r (fun y => { y with numbered := true, queued := false, spanSeq := x.nextTx, holder := trunkHolder t }) s
  let s := s.putTrunk t { x with nextTx := (x.nextTx + 1) % 65536, held := x.held ++ [r] }
  if t < 1024 then s.count64 (R.SENT_LO t) else s

/-- A held number is freed: custody of the flit ends with it (R229, R231). The timer follows a new oldest copy from that
copy's own t_sent. -/
def freeNumber (t r : Nat) (s : State) : State :=
  let s := pairSet r (fun y => { y with numbered := false, custody := false, queued := false }) s
  s.modTrunk t fun x =>
    let head := x.held.head? = (x.held.filter (· ≠ r)).head?
    { x with held := x.held.filter (· ≠ r), runQ := x.runQ.filter (· ≠ r), run := x.run && x.runQ.filter (· ≠ r) ≠ [],
             delay := if head then x.delay else 0, fired := x.fired && head }

/-- The held copies that a cumulative value covers are freed; whether there were any (R222, R225). -/
def freeCovered (t a : Nat) (s : State) : Bool × State :=
  let rs := (s.trunk t).held.filter fun r => covers16 a (s.slot r).spanSeq
  let s := rs.foldl (fun s r => freeNumber t r s) s
  if rs = [] then (false, s) else (true, s.modTrunk t fun x => { x with consec := 0, expSince := false })

/-- The held copies that wait in the run of a trunk side (R271). -/
def setRun (t : Nat) (q : List Nat) (s : State) : State :=
  let s := (s.trunk t).runQ.foldl (fun s r => pairSet r (fun y => { y with queued := false }) s) s
  let s := q.foldl (fun s r => pairSet r (fun y => { y with queued := true }) s) s
  s.modTrunk t fun x => { x with runQ := q, run := q ≠ [] }

/-- A replay run from a number (R224): every held copy from it onward. -/
def trunkRun (t : Nat) (from_ : Option Nat) (s : State) : State :=
  setRun t (match from_ with
    | some n => (s.trunk t).held.filter fun r => covers16 (s.slot r).spanSeq n
    | none => (s.trunk t).held) s

/-- An accepted DRN ACK (R222). -/
def drnAck (t a : Nat) (s : State) : State :=
  match freeCovered t a s with
  | (true, s) => s
  | (false, s) => if isAhead16 a (s.trunk t).nextTx then (if t < 1024 then s.count (R.NOSLOT_nak_odd t) else s) else s

/-- A NAK takes effect (R222). One whose value is the number of a held copy starts a run even where it covers none. -/
def drnNak (t n : Nat) (s : State) : State :=
  let named := (s.trunk t).held.any fun r => (s.slot r).spanSeq = n
  match freeCovered t ((n + 65535) % 65536) s with
  | (true, s) => trunkRun t (some n) s
  | (false, s) =>
    if named then trunkRun t (some n) s
    else if isAhead16 n (s.trunk t).nextTx then (if t < 1024 then s.count (R.NOSLOT_nak_odd t) else s) else s

/-! ## The span timer and interruptions (R223-R226) -/

/-- The span timer has expired: not frozen, its time reached, and not expired before on the oldest copy as it was last
sent. -/
def spanDue (s : State) (t : Nat) : Bool :=
  let x := s.trunk t
  x.frozenAt.isNone && !x.fired && match x.held.head? with
  | some r => (s.slot r).sent && (s.slot r).tSent + x.delay + tSpan s t ≤ s.fab
  | none => false

def freezeTrunk (t : Nat) (txStops : Bool) (s : State) : State :=
  (if txStops then setRun t [] s else s).modTrunk t fun x =>
    let x := if x.frozenAt.isSome then x else { x with frozenAt := some s.fab }
    if txStops then { x with stopped := true, cut := true } else { x with stopped := false }

/-- The interruption ends: a NAK that came meanwhile takes effect, and a resume run starts where the TX ends stopped. -/
def thawTrunk (t : Nat) (s : State) : State :=
  let x := s.trunk t
  match x.frozenAt with
  | none => s
  | some a =>
    let s := s.putTrunk t { x with
      frozenAt := none, stopped := false, cut := false, delay := x.delay + (s.fab - frozenFrom s a x.held.head?), pendingNak := none }
    let s := match x.pendingNak with
      | some n => drnNak t n s
      | none => s
    if x.cut && (s.trunk t).held ≠ [] then trunkRun t none s else s

/-! ## Receiving (R219-R221) -/

/-- A DRN ACK for expect − 1 becomes pending (R220); its value is the newest when it is sent (R215). -/
def postDrnAck (t : Nat) (s : State) : State := s.modTrunk t fun x => { x with drnAck := some ((x.expect + 65535) % 65536) }

/-- The device has finished with an accepted flit at the trunk (R220). -/
def trunkAccepted (t : Nat) (s : State) : State :=
  let x := s.trunk t
  let s := s.putTrunk t { x with accCount := x.accCount + 1, accOldest := match x.accOldest with
    | some a => some a
    | none => some s.fab }
  if 64 ≤ x.accCount + 1 || x.drnAck.isSome then postDrnAck t s else s

/-- expect advances over an accepted flit. -/
def trunkExpect (t : Nat) (s : State) : State := s.modTrunk t fun x => { x with expect := (x.expect + 1) % 65536 }

/-- A NAK for expect becomes pending, unless one for it was sent less than t_span ago (R221). -/
def postNak (t : Nat) (s : State) : State :=
  let x := s.trunk t
  let recent := match x.nakSent with
    | some (n, a) => n = x.expect && s.fab < a + tSpan s t
    | none => false
  if recent then s else s.putTrunk t { x with drnNak := some x.expect }

/-! ## Custody (R228, R230) -/

/-- Custody is taken at an entry from an endpoint: proxy acks every 16 flits or 64 ns (R230). -/
def proxyCustody (f q : Nat) (s : State) : State :=
  let v := s.flow f
  let s := s.putFlow f { v with seqValid := true, seq := q, custCount := v.custCount + 1, custOldest := match v.custOldest with
    | some a => some a
    | none => some s.fab }
  let i := flowIn s f
  let s := if flowIsLl f then s else s.count (R.CUST_IN (flowOwner f))
  if 16 ≤ v.custCount + 1 || (s.side i.1 i.2).pendAck.isSome then postProxy f s else s

/-- What the XLP sequence of a flit at an entry from an endpoint says (R228): 0 custody, 1 duplicate, 2 gap. -/
def entryClass (v : Flow) (q : Nat) : Nat :=
  if v.seqValid && covers12 v.seq q then 1 else if v.seqValid && q ≠ (v.seq + 1) % 4096 then 2 else 0

/-- A darned direction may take one flit more into custody: it holds 2,047 copies at most (R187), and its custody copies
and replay queue stay within the queue and darning terms of its reservation (R193; DEDUCED, log 74), which a logical-link
direction has as a holder of its own. -/
def custodyRoom (s : State) (f : Nat) : Bool :=
  let v := s.flow f
  v.copies.length < 2047 && (flowIsLl f || 2 * (heldTogether v + 1) ≤ trunkResE provedView s (flowOwner f))

/-- A flit of a flow is held in a mirrored pair and waits for side `out` in its queue, or behind a darning run in the replay
queue (R195). -/
def hold (f out : Nat) (fl : Flit) (s : State) : Option (Nat × State) :=
  let v := s.flow f
  let darned := v.dstate ≠ dOff
  if darned && !custodyRoom s f then none else
  match allocFlow f true { sideSlot s f out fl with custody := true, queued := true, darn := darned } s with
  | none => none
  | some (r, s) =>
    let s := if darned then
        let s := s.modFlow f fun v => { v with copies := v.copies ++ [r] }
        if flowIsLl f then s else s.count64 (R.COPY_LO (flowOwner f) (flowDir f))
      else s
    some (r, if v.replayQ = [] then enqueue f r s
      else xoffUpdate f (qstPeak f (s.slot r).vc (s.modFlow f fun v => { v with replayQ := v.replayQ ++ [r] })))

/-- A flit is discarded by its XLP sequence (R228, R238). -/
def xlpDiscard (f : Nat) (s : State) : State := if flowIsLl f then s else s.count (R.DUP_xlp (flowOwner f))

/-- A flit enters from an endpoint without having started in cut-through (R218, R228). -/
def entryQueued (f out : Nat) (fl : Flit) (s : State) : State :=
  if fl.cls ≠ 0 then writingFreed f true fl s else
  let q := flitSeq fl.bytes
  match entryClass (s.flow f) q with
  | 0 =>
    match hold f out fl s with
    | some (_, s) => proxyCustody f q s
    | none => s
  | 1 => refreshProxy f (xlpDiscard f s)
  | _ => xlpDiscard f s

/-- A flit arrives from a trunk, in sequence and good, for flow `f` (R219, R228): taken into custody, discarded by its XLP
sequence, or refused for want of a slot pair. -/
def arrivalCustody (t f out : Nat) (fl : Flit) (s : State) : State :=
  let v := s.flow f
  let q := flitSeq fl.bytes
  if v.seqValid && q ≠ (v.seq + 1) % 4096 then
    let s := xlpDiscard f s
    trunkAccepted t (trunkExpect t s)
  else
    let s1 := if v.dstate = dOff then s else s.modFlow f fun v =>
      { v with expect := if seqClass v.expect q = 2 then v.expect else some ((q + 1) % 4096) }
    match hold f out fl s1 with
    | none =>
      let s := countTrunk t R.NOSLOT_noslot R.CAL_DUP_noslot s
      trunkEvent (trunkRegion s t) 2 (if flowIsLl f then flowOwner f else trunkIndex s t) s
    | some (_, s) =>
      let s := s.modFlow f fun v => { v with seqValid := true, seq := q }
      let s := if t < 1024 then s.count (R.CUST_TR t) else s
      trunkAccepted t (trunkExpect t s)

/-! ## Caches of the logical-link table (R260, R263) -/

/-- The end that names a side, as a cache holds the entry. -/
def cacheEndAt (s : State) (cache l k : Nat) (sd : Side) : Option Nat :=
  [0, 1].find? fun e => (cacheEnd s cache l e).link = k && (cacheEnd s cache l e).side = sd

/-- The logical link, and its end, that names an endpoint span in the cache of the span's cluster (R245). -/
def cacheLlOf (s : State) (k : Nat) (sd : Side) : Option (Nat × Nat) :=
  (activeLls s).findSome? fun l => (cacheEndAt s (sideCluster s k sd) l k sd).map fun e => (l, e)

/-- The generations at the two sides of a flit of `l` that arrives at end `e` differ, as they can only while its torn window is
open (R263). -/
def torn (s : State) (cache l e : Nat) : Bool :=
  (s.ll l).tornUntil.isSome && cacheGen s cache l ≠ cacheGen s (endCache s (cacheEnd s cache l (1 - e))) l

/-- A discard under R263. -/
def tornDrop (l : Nat) (s : State) : State :=
  let s := s.count (R.LL_DROP_torn (llPage l))
  ((s.wr (R.TORN_LAST_valid (l / 128)) 1).wr (R.TORN_LAST_llid (l / 128)) l).raise 283

/-- A discard in DRAINING or outside the VC mask (R244, R261). -/
def invalDrop (l : Nat) (s : State) : State := s.count (R.LL_DROP_inval (llPage l))

/-- Count an arriving good flit of a logical link at an end (R265). -/
def countIn (l e : Nat) (s : State) : State := s.count (if e = 0 then R.LL_IN0 (llPage l) else R.LL_IN1 (llPage l))

/-! ## Control flits (R248-R250) -/

/-- The record of a logical link for a trunk side, as eight bytes: ack of its endpoint end, and the XOFF map of the flits
that arrive on the side. -/
def recBytes (s : State) (k : Nat) (sd : Side) (l : Nat) : List Nat :=
  let e := (llEndAt s l k sd).getD 0
  let v := s.flow (llFlow l e)
  let ack := if (llEnd s l (1 - e)).trunk then none else v.acked
  beBytes 2 ((if ack.isSome then 32768 else 0) + l) ++ beBytes 2 (ack.getD 0) ++ beBytes 4 v.up

/-- The control flit for up to eight records (R248); the link-local word is stamped when it is sent. -/
def controlBytes (s : State) (k : Nat) (sd : Side) (ls : List Nat) : List Nat :=
  let recs := ls.flatMap (recBytes s k sd)
  let b := [0xF0] ++ List.replicate 15 0 ++ [1, ls.length] ++ List.replicate 14 0 ++ recs
  b ++ List.replicate (144 - b.length) 0

/-- Every byte that R248 shows as zero is zero, but for the link-local word. -/
def controlZeros (b : List Nat) : Bool :=
  let n := b.getD 17 0
  b.getD 0 0 % 16 = 0 && ((b.drop 1).take 11).all (· = 0) && ((b.drop 18).take 14).all (· = 0) &&
  (b.drop (32 + 8 * n)).all (· = 0) &&
  (List.range n).all fun j => bits (beNat ((b.drop (32 + 8 * j)).take 2)) 14 10 = 0 && b.getD (34 + 8 * j) 0 < 16

/-- Apply record `j` of a control flit that arrived on trunk side `t` (R250). -/
def applyRecord (t : Nat) (b : List Nat) (s : State) (j : Nat) : State :=
  let w := (b.drop (32 + 8 * j)).take 8
  let a := trunkAt s t
  let l := beNat (w.take 2) % 1024
  match if llActive s l then llEndAt s l a.1 a.2 else none with
  | none => countCal t R.CAL_MISC_unknown s
  | some e =>
    let s := s.modFlow (llFlow l (1 - e)) fun v => { v with xoff := beNat (w.drop 4) }
    if bit (beNat (w.take 2)) 15 then
      let ack := beNat ((w.drop 2).take 2) % 4096
      let x := s.ll l
      s.putLl l (if e = 0 then { x with far0 := some ack } else { x with far1 := some ack })
    else s

/-- A control flit that R219 has accepted on a bundle trunk: rejected, or its records applied in order (R250). -/
def controlFlit (t : Nat) (b : List Nat) (s : State) : State :=
  let n := b.getD 17 0
  let s := countCal t R.CAL_CTL_rx s
  let s := if b.getD 16 0 ≠ 1 || n = 0 || 8 < n || !controlZeros b then countCal t R.CAL_MISC_rejects s
    else (List.range n).foldl (applyRecord t b) s
  trunkAccepted t s

/-- Endpoint acks held back by the 1 µs limit become records (R249). -/
def owedAcks (t : Nat) (s : State) : State :=
  let a := trunkAt s t
  (flowsIn s a.1 a.2).foldl (fun s f => if (s.flow f).ackOwed then ackRecord f s else s) s

/-! ## The calendar (R253-R255) -/

def calEntry (s : State) (c e : Nat) : Nat := s.rd (R.CAL_ENTRY (calLivePage c) e)
/-- The entry as the walk sees it: a COMMIT reaches the entry at ptr at the next advance (R254). -/
def calWord (s : State) (c e : Nat) : Nat :=
  let x := s.trunk (1024 + c)
  if e = x.ptr then x.curEnt.getD (calEntry s c e) else calEntry s c e
def calLast (s : State) (c : Nat) : Nat := s.rd (R.CAL_BIND_last (calLivePage c))

/-- Of the heads of several queues, the one that arrived first (R246). -/
def oldestHead (s : State) (hs : List (Nat × Nat)) : Option (Nat × Nat) :=
  hs.find? fun p => hs.all fun q => (s.slot p.2).arr ≤ (s.slot q.2).arr

/-- The sendable head of a logical link on a side: the oldest queued flit for it whose VC is not under XOFF. -/
def llHead (s : State) (l o : Nat) : Option (Nat × Nat) :=
  oldestHead s ([0, 1].filterMap fun d => (queueHead s (llFlow l d) o).map fun r => (llFlow l d, r))

/-- A flit of a logical link is queued for a side. -/
def llQueuedFor (s : State) (l o : Nat) : Bool :=
  [0, 1].any fun d => (s.flow (llFlow l d)).queue.any fun r => (s.slot r).out = o

/-- Judgements of R253. -/
inductive Judge where
  | empty | skip | foreign | nogrant
  | send (f r : Nat)
  deriving DecidableEq, Repr

def judge (s : State) (c e : Nat) : Judge :=
  let w := calWord s c e
  let l := entLl w
  let a := trunkAt s (1024 + c)
  let o := spanKey a.1 a.2
  if !entUsed w then .empty
  else if (s.ll l).state = llInvalid then .skip
  else if (cacheEndAt s (16 + c) l a.1 a.2).isNone && !llQueuedFor s l o then .foreign
  else if llDie l ≠ c / 8 && !bit (cacheWord s (16 + c) l 0) 30 then .nogrant
  else match llHead s l o with
    | some (f, r) => if windowRoom s (1024 + c) then .send f r else .skip
    | none => .skip

def Judge.isSend : Judge → Bool
  | .send _ _ => true
  | _ => false

/-- The walk moves on; ptr wraps to 0 where it lies beyond the last entry (R254). -/
def calAdvance (c : Nat) (s : State) : State :=
  let x := s.trunk (1024 + c)
  let p := if calLast s c < x.ptr then 0 else (x.ptr + 1) % (calLast s c + 1)
  s.putTrunk (1024 + c) { x with ptr := p, credit := entWeight (calEntry s c p), curEnt := none }

/-- A calendar fault: cause 0 EMPTY, 1 FOREIGN, 2 NOGRANT (R255). The idle slot lasts one slice length. -/
def calFault (c cause : Nat) (s : State) : State :=
  let u := c / 2
  let j := c % 2
  let x := s.trunk (1024 + c)
  let a := trunkAt s (1024 + c)
  let s := ((s.count (R.CAL_FAULT u j)).wr (R.CAL_FLT_LAST_valid u j) 1).wr (R.CAL_FLT_LAST_cause u j) cause
  let s := (s.wr (R.CAL_FLT_LAST_entry u j) x.ptr).wr (R.CAL_FLT_LAST_llid u j) (entLl (calWord s c x.ptr))
  let s := ((s.wr (R.CAL_LAST_valid 0) 1).wr (R.CAL_LAST_cal 0) c).raise 284
  calAdvance c (s.putTrunk (1024 + c) { x with idleSlot := sliceLen (sideWidth s a.1 a.2) })

/-- The walk of R254 from the current entry, over at most `fuel` entries: the flit chosen, if any. -/
def calWalk (c : Nat) : Nat → State → Option (Nat × Nat) × State
  | 0, s => (none, s)
  | n + 1, s =>
    match judge s c (s.trunk (1024 + c)).ptr with
    | .empty => (none, calFault c 0 s)
    | .foreign => (none, calFault c 1 s)
    | .nogrant => (none, calFault c 2 s)
    | .skip => calWalk c n (calAdvance c s)
    | .send f r =>
      let x := s.trunk (1024 + c)
      let s := s.putTrunk (1024 + c) { x with credit := x.credit - 1 }
      (some (f, r), if x.credit ≤ 1 then calAdvance c s else s)

/-- Some entry of the calendar would judge SEND; the entry at ptr is one until the next advance (R254). -/
def calReady (s : State) (c : Nat) : Bool :=
  ((s.trunk (1024 + c)).ptr :: List.range (calLast s c + 1)).any fun e => (judge s c e).isSend

/-- choose(t) of R254. -/
def calChoose (c : Nat) (s : State) : Option (Nat × Nat) × State :=
  if calReady s c then calWalk c (calLast s c + 3) s else (none, s)

/-! ## Start and end of a trunk side -/

/-- The link enters UP from DOWN: numbering starts at 0, the walk at entry 0, and every logical link gets a record (R216,
R219, R249, R254). -/
def startTrunk (k : Nat) (sd : Side) (s : State) : State :=
  let t := trunkKey s k sd
  let old := s.trunk t
  let s := s.putTrunk t { sample := old.sample, probeTag := old.probeTag }
  if t < 1024 then postTrunkAck k sd s else
  let c := t - 1024
  let s := s.modTrunk t fun x => { x with credit := entWeight (calEntry s c 0) }
  ((activeLls s).filter fun l => (llEndAt s l k sd).isSome).foldl (fun s l => postRec t l false s) s

/-- The flow of the flit in a slot. -/
def slotFlow (x : Slot) : Nat := if x.ll then llFlow x.owner x.dir else linkFlow x.owner (Dir.ofIdx x.dir)

/-- The link enters DOWN: what the trunk holds is freed, its custody counted as lost (R232, R258), what is pending is
dropped. -/
def stopTrunk (k : Nat) (sd : Side) (s : State) : State :=
  let t := trunkKey s k sd
  let x := s.trunk t
  let s := x.held.foldl (fun s r => slotFree r (if (s.slot r).custody then custLost (slotFlow (s.slot r)) r s else s)) s
  (if t < 1024 then s.wr (R.TRK_PROBE_valid t) 0 else s).putTrunk t { probeTag := x.probeTag }

end Sys2Proof.Machine
end

