-- ==== Sys2Proof/Machine/SpanOps.lean ====
section
/-!
DEFINITION. What the span sequencers compute (chapter Taking part in training, R135-R143): rate groups, caps, election
values, THRU, and the TRN sets a side sends.
-/

namespace Sys2Proof.Machine

open Sys2Proof

/-! ## Rate groups (R135, R136) -/

/-- A used side whose span sequencer runs; that of a TRANSPARENT link stays in IDLE. -/
def hasSequencer (s : State) (k : Nat) (sd : Side) : Bool := sideUsed s k sd && modeOf s k ≠ mTransparent

def activeSpans (s : State) : List (Nat × Side) :=
  (List.range (linksOf s)).flatMap fun k => [Side.a, Side.b].filterMap fun sd => if hasSequencer s k sd then some (k, sd) else none

/-- The used sides of every link, those of TRANSPARENT links among them. -/
def liveSides (s : State) : List (Nat × Side) :=
  (List.range (linksOf s)).flatMap fun k => (usedSides s k).map fun sd => (k, sd)

/-- The clusters of a rate group, grown from those of a span: a span shares a cluster direction with every span that has
an end in one of its clusters, since it has ends in both directions of each. -/
def groupClusters (s : State) : Nat → List Nat → List Nat
  | 0, cs => cs
  | n + 1, cs =>
    let more := (liveSides s).flatMap fun p =>
      if (sideClusters s p.1 p.2).any cs.contains then
        sideClusters s p.1 p.2 ++ (if isSameLanes (modeOf s p.1) && modeOf s p.1 ≠ mTransparent then sideClusters s p.1 p.2.other else [])
      else []
    let cs' := (cs ++ more).eraseDups
    if cs'.length = cs.length then cs else groupClusters s n cs'

/-- The rate group of a span. -/
def rateGroup (s : State) (k : Nat) (sd : Side) : List (Nat × Side) :=
  let cs := groupClusters s 16 (sideClusters s k sd)
  (activeSpans s).filter fun p => p = (k, sd) || (sideClusters s p.1 p.2).any cs.contains

/-- The rung at which a running TRANSPARENT link holds the rate group of a span (R12, R41): it does not step, so the group
trains at its rung as at that of a span in UP (DEDUCED; log 225). -/
def transRung (s : State) (k : Nat) (sd : Side) : Option Nat :=
  let cs := groupClusters s 16 (sideClusters s k sd)
  ((liveSides s).find? fun p => modeOf s p.1 = mTransparent && (s.link p.1).running && (sideClusters s p.1 p.2).any cs.contains).map
    fun p => s.rd (R.LNK_CFG_LIVE_rung p.1 p.2.idx)

def othersOf (g : List (Nat × Side)) (k : Nat) (sd : Side) : List (Nat × Side) := g.filter (· ≠ (k, sd))

def minOf (l : List Nat) : Nat := l.foldl min 7

/-! ## Caps (R126, R137, R142) -/

/-- Byte `i` of the RATE_PLAN record of a cluster. Without a board table no direction is capped and the blind rung is L4
(DESIGN CHOICE: no reset value is given; log 40). -/
def planByte (s : State) (c i : Nat) : Nat := s.bt.caps.getD (4 * c + i) (if i < 2 then 0x44 else 0)

/-- The max rung and the blind rung of a cluster direction. -/
def maxRung (s : State) (c : Nat) (d : Dir) : Nat := planByte s c 0 / 16 ^ d.idx % 16
def blindRung (s : State) (c : Nat) (d : Dir) : Nat := planByte s c 1 / 16 ^ d.idx % 16

/-- A span's rung over its cluster directions: the lowest, and 7 where one of them is 7. -/
def overDirs (s : State) (k : Nat) (sd : Side) (f : Nat → Dir → Nat) : Nat :=
  let l := (spanDirs s k sd).map fun p => f p.1 p.2
  if l.any fun r => 4 < r then 7 else minOf l

def planMax (s : State) (k : Nat) (sd : Side) : Nat := overDirs s k sd (maxRung s)
/-- The blind rung of a span: the lowest of its cluster directions' (R148). -/
def spanBlind (s : State) (k : Nat) (sd : Side) : Nat := overDirs s k sd (blindRung s)

/-- One below the lowest rung marked failed; 4 where none is. -/
def failedCap (s : State) (k : Nat) (sd : Side) : Nat :=
  match (List.range 5).find? fun r => bit (s.rd (R.SPAN_STAT_failed k sd.idx)) r with
  | some r => r - 1
  | none => 4

/-- The own cap of a span; 7 where it cannot be trained (R137). -/
def ownCap (s : State) (k : Nat) (sd : Side) : Nat :=
  let m := planMax s k sd
  if m = 7 then 7 else min (min m (failedCap s k sd)) (s.span k sd).blindCap

/-- The max rung received on a span; no limit before any. -/
def nbrMax (s : State) (k : Nat) (sd : Side) : Nat :=
  if (s.span k sd).heard then s.rd (R.SPAN_STAT_nbr_max k sd.idx) else 4

/-- The own caps of a group, with the rung of a TRANSPARENT link in it. -/
def groupCap (s : State) (g : List (Nat × Side)) : Nat :=
  minOf (g.map (fun p => ownCap s p.1 p.2) ++ (g.head?.bind fun p => transRung s p.1 p.2).toList)

/-- The max rung advertised on a span, and the target rung of a group (R142). -/
def advMax (s : State) (k : Nat) (sd : Side) : Nat :=
  let g := rateGroup s k sd
  min (groupCap s g) (minOf ((othersOf g k sd).map fun p => nbrMax s p.1 p.2))
def targetRung (s : State) (g : List (Nat × Side)) : Nat := min (groupCap s g) (minOf (g.map fun p => nbrMax s p.1 p.2))

/-! ## Election (R141) -/

def inElect (s : State) (k : Nat) (sd : Side) : Nat := s.rd (R.SPAN_NBR_in_elect k sd.idx)
def advElect (s : State) (g : List (Nat × Side)) (k : Nat) (sd : Side) : Nat :=
  (othersOf g k sd).foldl (fun m p => max m (inElect s p.1 p.2)) (s.span k sd).draw

/-- The group leads a span, or follows it. -/
def leads (s : State) (k : Nat) (sd : Side) : Bool := s.on (R.SPAN_STAT_leader k sd.idx)
def follows (s : State) (k : Nat) (sd : Side) : Bool := s.rd (R.SPAN_NBR_adv_elect k sd.idx) < inElect s k sd

/-- Advertised values and leadership follow the values received and drawn. -/
def electSync (g : List (Nat × Side)) (s : State) : State :=
  g.foldl (fun s p =>
    let v := advElect s g p.1 p.2
    (s.wr (R.SPAN_NBR_adv_elect p.1 p.2.idx) v).wrB (R.SPAN_STAT_leader p.1 p.2.idx) (inElect s p.1 p.2 < v)) s

/-- A group draws a new N (R141): a value of 1-65535, which the spec leaves open. -/
def electDraw (g : List (Nat × Side)) (s : State) : State :=
  let (i, s) := s.draw
  let n := Config.electDraw i % 65535 + 1
  electSync g (g.foldl (fun s p => s.putSpan p.1 p.2 { s.span p.1 p.2 with draw := n }) s)

/-! ## THRU (R142) -/

def peerFacing (s : State) (k : Nat) (sd : Side) : Bool := s.on (R.SPAN_STAT_nbr_peer k sd.idx)

def thruHolds (s : State) (k : Nat) (sd : Side) : Bool :=
  (othersOf (rateGroup s k sd) k sd).all fun p =>
    let x := s.span p.1 p.2
    x.passSent && x.passRcvd && (!peerFacing s p.1 p.2 || x.thruRcvd)

/-! ## TRN sets (R138) -/

def trnCAP : Nat := 1
def trnRATE : Nat := 2
def trnRATEACK : Nat := 3
def trnREADY : Nat := 4
def trnUP : Nat := 5
def trnECHOREQ : Nat := 6
def trnECHORSP : Nat := 7
def trnRETRAIN : Nat := 8
def trnDENSEREQ : Nat := 9
def trnDENSEREL : Nat := 10

/-- A TRN set as the side sends it now; T1 is each lane's own. -/
def mkTrn (s : State) (k : Nat) (sd : Side) (kind : Nat) : TrnSet :=
  let x := s.span k sd
  { kind := kind
    flags := 1 + 2 * b2n (isTrunkSide s k sd) + 4 * b2n (s.on (R.SPAN_STAT_blind k sd.idx)) +
      (if kind = trnREADY then 8 * b2n (thruHolds s k sd) + 16 * b2n (x.judged && x.passes) else 0)
    max := advMax s k sd % 16
    cur := spanRung s k sd
    width := s.rd (R.LNK_CFG_LIVE_width k sd.idx)
    elect := if kind = trnCAP then s.rd (R.SPAN_NBR_adv_elect k sd.idx) else 0 }

/-- A TRN set becomes due on a side (R172). -/
def postTrn (k : Nat) (sd : Side) (t : TrnSet) (s : State) : State :=
  s.putSide k sd { s.side k sd with trnDue := (s.side k sd).trnDue ++ [t] }

/-- The sets that a side in training repeats until they are answered or replaced (R139): a RATE, a RATE_ACK, and RETRAIN,
which is answered by a CAP of a neighbour that trains (DEDUCED; log 226). -/
def trnRepeats (s : State) (k : Nat) (sd : Side) : List TrnSet :=
  let x := s.span k sd
  (if spanState s k sd = spStep && x.rateTarget.isSome && leads s k sd then
    [{ mkTrn s k sd trnRATE with target := x.rateTarget.getD 0, tag := x.rateTag }] else []) ++
  (x.ackRep.map fun a => { mkTrn s k sd trnRATEACK with target := a.1, tag := a.2.1, value := a.2.2 * 2 ^ 24 }).toList ++
  (if spanRetraining s k sd && !x.capAcc then [mkTrn s k sd trnRETRAIN] else [])

/-- What a side in training sends where nothing else is due (R139), by turns of four: CAP, what is repeated, READY once the
figure is judged, and what else is repeated. -/
def trnFill (s : State) (k : Nat) (sd : Side) : TrnSet :=
  let x := s.span k sd
  let reps := trnRepeats s k sd
  let own := mkTrn s k sd (if x.judged then trnREADY else trnCAP)
  match x.fill % 4 with
  | 0 => mkTrn s k sd trnCAP
  | 1 => reps.headD own
  | 2 => own
  | _ => (reps.drop 1).headD (reps.headD own)

/-! ## Lane order (R59, R69, R70) -/

/-- The side's receive order is reversed. -/
def rxReversed (s : State) (k : Nat) (sd : Side) : Bool := s.on (R.ORDER_CFG_rev (sideCluster s k sd) sd.idx)

/-- The side's transmit order is reversed (R70). -/
def txReversed (s : State) (k : Nat) (sd : Side) : Bool :=
  match s.rd (R.ORDER_CFG_order_tx (sideCluster s k sd) sd.idx) with
  | 1 => false
  | 2 => true
  | _ => rxReversed s k sd

end Sys2Proof.Machine
end

