-- ==== Sys2Proof/Machine/Sched.lean ====
section
/-!
DEFINITION. The scheduler of a leaving side (R172, R215, R249): what each item looks like on the lanes (R57-R61, R166), how
an item ends, and which item starts next. Also interruptions of flows and trunks (R202, R226) and what a link's traffic
loses at DOWN (R204, R232).
-/

namespace Sys2Proof.Machine

open Sys2Proof

/-! ## Items as symbols (R57-R61) -/

/-- The symbols of an ordered set on lane position `q`; none for a flit or nothing. -/
def setSyms (q : Nat) : Item → List Sym
  | .eie => [symCOM, .k 0xFD, .k 0xFD, .k 0xFD]
  | .skp n => symCOM :: List.replicate n (.k 0x1C)
  | .trn t => paritySet 0x3C (trnBytes t q)
  | .drn d => paritySet 0x9C (drnBytes d)
  | .ack a => paritySet 0x5C (ackBytes a)
  | .sel b => paritySet 0xF7 (b.length :: b)
  | .idl => [symCOM, .k 0x7C]
  | _ => []

/-- Length of an item in symbols on a side of `w` lanes. -/
def itemLen (w : Nat) : Item → Nat
  | .flit _ _ _ _ => sliceLen w
  | .none => 0
  | i => (setSyms 0 i).length

/-- The lane streams of an item, in the order of the side's lanes. -/
def itemLanes (s : State) (k : Nat) (sd : Side) (i : Item) : List (List Sym) :=
  let w := sideWidth s k sd
  let l := match i with
    | .flit b po _ _ => stripe w b po
    | i => (List.range w).map fun q => setSyms q i
  if txReversed s k sd then l.reverse else l

/-! ## Reading slots to send (R277-R280) -/

/-- Read a slot, or its mirror where it is not usable: whether the flit can be sent, and what the reads record. -/
def readPair (r region : Nat) (r1 r2 : EccRead) (s : State) : Bool × State :=
  let (ok, s) := if (s.slot r).state = stBad then (false, s) else readSlot r region r1 s
  if ok then (true, s) else
  match s.partnerOf r with
  | some q => if (s.slot q).state = stBad then (false, s) else readSlot q region r2 s
  | none => (false, s)

/-- One flit of flow `f` is lost (R279, R232): a copy counted, with its direction handed back, or a queue entry counted; a
custody flit as a custody loss besides. -/
def loseFlit (f r : Nat) (s : State) : State :=
  let x := s.slot r
  let d := refDie r
  let copy := (s.flow f).copies.contains r
  let s := if copy then s.count (R.LOST_darn d) else s.count (R.LOST_queued d)
  let s := if x.custody then custLost f r s else s
  let s := freeCopy f r s
  if copy && !x.mirror && (s.flow f).dstate = dDarn then handback f 2 x.xlpSeq s else s

/-- A flit that cannot be read is lost; after an uncorrectable descriptor the later entries of its lists, the copies, the replay
queue and the queue of its VC, are lost too, but for mirrored ones, which the parallel list reaches (R273, R279). -/
def loseFrom (f r : Nat) (desc : Bool) (s : State) : State :=
  let v := s.flow f
  let after := fun l : List Nat => (l.dropWhile fun x => x ≠ r).drop 1
  let later := if desc && !(s.slot r).mirror then
      ((after v.copies ++ after v.replayQ ++ after (v.queue.filter fun q => (s.slot q).vc = (s.slot r).vc)).eraseDups).filter fun q => !(s.slot q).mirror
    else []
  (r :: later).foldl (fun s q => loseFlit f q s) s

/-! ## An item ends -/

/-- A slot whose flit has been sent takes its t_sent (R189, R217), with its mirror. -/
def slotSent (r : Nat) (s : State) : State :=
  let stamp := fun q s => sendingEnds q (s.putSlot q { s.slot q with tSent := s.fab, sent := true })
  match s.partnerOf r with
  | some q => stamp q (stamp r s)
  | none => stamp r s

/-- Timers that waited for the copy just sent run from its new t_sent. -/
def timerRestart (r : Nat) (s : State) : State :=
  { s with
    flows := s.flows.mapVals {} fun v => if v.copies.head? = some r then { v with delay := 0, fired := false } else v
    trunks := s.trunks.mapVals {} fun v => if v.held.head? = some r then { v with delay := 0, fired := false } else v }

def isAckItem : Item → Bool
  | .ack _ => true
  | _ => false
def isDrnItem : Item → Bool
  | .drn _ => true
  | _ => false

/-- The item a side was sending is over: its slot and its transit FIFO place are done with, and the counts of R88, R254 and
R454 move on by its length. -/
def itemDone (k : Nat) (sd : Side) (s : State) : State :=
  let x := s.side k sd
  let w := sideWidth s k sd
  let n := itemLen w x.cur
  let s := match x.cur with
    | .flit _ _ slot fifo =>
      let s := match slot with
        | some r => if s.slot r = ({} : Slot) then s else timerRestart r (slotSent r s)
        | none => s
      match fifo with
      | some f => s.modFlow f fun v => { v with fifo := v.fifo.drop 1 }
      | none => s
    | .idl => if isTrunkSide s k sd then s.modTrunk (trunkKey s k sd) fun t => { t with idleSlot := t.idleSlot - n } else s
    | _ => s
  let s := if setSyms 0 x.cur = [] then s else (endLanes s k sd).foldl (fun s n => txBoundary n sd s) s
  let x := s.side k sd
  s.putSide k sd { x with cur := .none, lanes := [], lastAck := isAckItem x.cur, lastDrn := isDrnItem x.cur,
                          skpCount := x.skpCount + n, selSyms := x.selSyms - n }

/-- A TX end encodes the symbols it sends (R48, R49), and turns them where its polarity is inverted (R68). An end in
electrical idle, or squelched (R98), sends nothing. -/
def txSends (n : Nat) (sd : Side) (syms : List Sym) (s : State) : State :=
  let x := s.txe n sd
  if x.idle || x.squelch then s else
  let r := encodeAll x.rd syms
  s.putTx n sd { x with rd := r.2, out := r.1.map (mirrored (isPam (ckRate s (laneCluster n) sd.dirOut)) x.pol) }

/-- What the end of a cluster that does not serve its link position sends while a swap or a return runs, and until the old TX
end falls idle (R319, R321): CAP sets as the span's last with T1 = q until the neighbour's CAP has been accepted and for 16 more, then a copy of
what link position `q` sends. -/
def spareSends (k : Nat) (sd : Side) (ls : List (List Sym)) (s : State) (c : Nat) : State :=
  let b := s.bob c
  let n := 8 * c + s.rd (R.BOB_STAT_pos c)
  match (sideLanes s k sd).idxOf? n with
  | none => s
  | some q =>
    let st := s.rd (R.BOB_STAT_state c)
    let swapping := (st = bbSwapping || st = bbReturning) && !b.waiting && !b.detect && !b.dropped.contains sd.idx
    let spare := if b.inOn sd then n else 128 + c
    let old : Bool := (b.dup sd).isSome && !b.rested.contains sd.idx
    let stream := ls.getD q []
    if swapping && b.inOn sd = (st = bbReturning : Bool) then
      let left := match sd with | .a => b.capsA | .b => b.capsB
      if b.capAcc.contains sd.idx && left = 0 then
        let s := if (b.dup sd).isSome || b.rested.contains sd.idx then s else s.putBob c (b.setDup sd (some s.clock))
        txSends spare sd stream s
      else
        let s := txSends spare sd (setSyms q (.trn ((s.side k sd).lastCap.getD (mkTrn s k sd trnCAP)))) s
        if !b.capAcc.contains sd.idx then s else
        s.putBob c (match sd with | .a => { b with capsA := left - 1 } | .b => { b with capsB := left - 1 })
    else if swapping || old then txSends spare sd stream s
    else s

/-- A side starts an item; the spare ends of its clusters send with it. -/
def itemStart (k : Nat) (sd : Side) (i : Item) (s : State) : State :=
  let ls := itemLanes s k sd i
  let s := ((endLanes s k sd).zip ls).foldl (fun s p => txSends p.1 sd p.2 s) s
  let s := (sideClusters s k sd).foldl (fun s c => spareSends k sd ls s c) s
  let x := s.side k sd
  s.putSide k sd { x with cur := i, lanes := ls, lastCap := match i with
    | .trn t => if t.kind = trnCAP then some t else x.lastCap
    | _ => x.lastCap }

/-- A TX end sends EIE and enters electrical idle at the symbol boundary after it (R65). -/
def eieRest (sd : Side) (s : State) (n : Nat) : State :=
  let s := txSends n sd (setSyms 0 .eie) s
  s.putTx n sd { s.txe n sd with idle := true, rd := false, squelch := false }

/-! ## Item 7: the next flit -/

/-- A slot is being sent. -/
def markSending (r : Nat) (s : State) : State := s.putSlot r { s.slot r with sending := true }

/-- The clusters of a side steer it under different gens, or its gen can no longer be told (R314, R315). -/
def mapMixed (s : State) (k : Nat) (sd : Side) : Bool :=
  let e := sideEntry k sd
  let m := s.map e
  let gen := fun c => ((m.caches.find? fun p => p.1 = c).map Prod.snd).getD (s.rd (R.SIDE_MAP_gen e))
  m.tornUntil.isSome && (8 ≤ m.advance || decide (((sideClusters s k sd).map gen).eraseDups.length ≠ 1))

/-- A flit that leaves by clusters under different gens leaves poisoned (R314). -/
def mixedItem (s : State) (k : Nat) (sd : Side) : Item → Item
  | .flit b po r f => .flit b (po || mapMixed s k sd) r f
  | i => i

/-- Count a flit's first sending, on side `out`, for the direction it arrived in (R182). -/
def countForward (f out : Nat) (poison : Bool) (s : State) : State :=
  let i := flowIn s f
  let d := i.2.dirIn.idx
  if poison || mapMixed s (out / 2) (Side.ofIdx (out % 2)) then s.count (R.POISON i.1 d) else s.count64 (R.GOOD_LO i.1 d)

/-- Count a copy re-sent by a darning run. -/
def countReplayed (f : Nat) (s : State) : State :=
  if flowIsLl f then s.count (R.LL_REPLAYED (llPage (flowOwner f))) else s.count (R.REPLAYED (flowOwner f) (flowDir f))

/-- A flit of a flow leaves from a slot, with the link-local word of the side. -/
def slotItem (s : State) (r : Nat) (word : Nat) : Item :=
  let x := s.slot r
  .flit (stampWord x.bytes word) (x.cls ≠ 0) (some r) none

/-- Send the head of a flow's replay queue (R195, R196). -/
def sendReplay (f r : Nat) (r1 r2 : EccRead) (s : State) : Option Item × State :=
  match readPair r (flowRegion s f) r1 r2 s with
  | (false, s) => (none, loseFrom f r (r1.desc) s)
  | (true, s) =>
    let x := s.slot r
    let i := slotItem s r 0
    let s := if x.sent then countReplayed f s else countForward f x.out (x.cls ≠ 0) s
    let s := pairSet r (fun y => { y with queued := false }) (markSending r s)
    (some i, xoffUpdate f (s.modFlow f fun v =>
      let q := v.replayQ.filter (· ≠ r)
      { v with replayQ := q, run := v.run && q.any v.copies.contains,
               dstate := if v.ending && q = [] then dOff else v.dstate, ending := v.ending && decide (q ≠ []) }))

/-- Send the oldest queued flit of a flow that may go (R234, R246). -/
def sendQueued (f r word : Nat) (r1 r2 : EccRead) (s : State) : Option Item × State :=
  match readPair r (flowRegion s f) r1 r2 s with
  | (false, s) => (none, xoffUpdate f (loseFrom f r (r1.desc) s))
  | (true, s) =>
    let i := slotItem s r word
    let s := countForward f (s.slot r).out false (markSending r s)
    (some i, dequeue f r (pairSet r (fun y => { y with queued := false }) s))

/-- The head of a transit FIFO (R175). -/
def sendFifo (f : Nat) (e : FifoEnt) (s : State) : Item × State :=
  let po := e.flit.cls ≠ 0
  let s := match e.slot with
    | some r => markSending r s
    | none => s
  (.flit (stampWord e.flit.bytes 0) po e.slot (some f), countForward f (outKey s f) po s)

/-- The flows with a flit queued for a side. -/
def queuedFor (s : State) (o : Nat) : List Nat :=
  (s.flows.filter fun p => (p.2.queue ++ p.2.replayQ).any fun r => (s.slot r).out = o).map Prod.fst

/-- The flows an endpoint side sends from, its own first (R246). -/
def endpointFlows (s : State) (k : Nat) (sd : Side) : List Nat :=
  if modeOf s k = mBundle then (flowsOut s k sd ++ queuedFor s (spanKey k sd)).eraseDups else [linkFlow k sd.dirOut]

/-- The head of a flow's replay queue, where it may leave on side `o`: copies never wait for an XOFF (R197), a flit of a custody
flow that has not been sent yet does (R234). -/
def replayHead (s : State) (f o : Nat) : Option Nat :=
  (s.flow f).replayQ.head?.filter fun r =>
    let x := s.slot r
    x.out = o && (x.sent || !flowCustodial s f || !bit (s.flow f).xoff x.vc)

/-- What an endpoint side, or a side with a transit FIFO, may send next. -/
inductive Choice where
  | nothing
  | replay (f r : Nat)
  | queue (f r : Nat)
  | fifo (f : Nat) (e : FifoEnt)

def endpointChoice (s : State) (k : Nat) (sd : Side) : Choice :=
  let fs := (endpointFlows s k sd).filter fun f => !(s.flow f).stopped
  match fs.findSome? fun f => (replayHead s f (spanKey k sd)).map fun r => (f, r) with
  | some (f, r) => .replay f r
  | none =>
    match oldestHead s (fs.filterMap fun f => (queueHead s f (spanKey k sd)).map fun r => (f, r)) with
    | some (f, r) => .queue f r
    | none =>
      match fs.findSome? fun f => (s.flow f).fifo.head?.map fun e => (f, e) with
      | some (f, e) => .fifo f e
      | none => .nothing

/-- A numbered flit that cannot be read is lost, after an uncorrectable descriptor with the later unmirrored ones of the list
(R232, R279). -/
def loseNumbered (t r : Nat) (desc : Bool) (s : State) : State :=
  let rs := r :: (if desc && !(s.slot r).mirror then
    (((s.trunk t).held.dropWhile fun q => q ≠ r).drop 1).filter fun q => !(s.slot q).mirror else [])
  rs.foldl (fun s q => freeNumber t q (if (s.slot q).custody then custLost (slotFlow (s.slot q)) q s else s)) s

/-- The flit of a slot is lost, in whatever list it stands. -/
def loseSlot (r : Nat) (desc : Bool) (s : State) : State :=
  match s.trunks.find? fun p => p.2.held.contains r with
  | some p => loseNumbered p.1 r desc s
  | none => let f := slotFlow (s.slot r); xoffUpdate f (loseFrom f r desc s)

/-- A trunk side sends the next copy of its run (R224). -/
def sendRun (t r : Nat) (r1 r2 : EccRead) (s : State) : Option Item × State :=
  match readPair r (trunkRegion s t) r1 r2 s with
  | (false, s) => (none, loseNumbered t r r1.desc s)
  | (true, s) =>
    let x := s.slot r
    let i := slotItem s r (trunkWord true (if x.ll then x.owner else 0) x.spanSeq)
    let s := countTrunk t R.TRK_REPLAYED R.CAL_REPLAYED s
    let s := pairSet r (fun y => { y with queued := false }) (markSending r s)
    (some i, s.modTrunk t fun y => { y with runQ := y.runQ.filter (· ≠ r), run := y.runQ.length ≠ 1 })

/-- A trunk side numbers a flit and sends it (R216, R217). -/
def sendNumbered (t f r : Nat) (r1 r2 : EccRead) (s : State) : Option Item × State :=
  let word := trunkWord false (if flowIsLl f then flowOwner f else 0) (s.trunk t).nextTx
  match sendQueued f r word r1 r2 s with
  | (none, s) => (none, s)
  | (some i, s) => (some i, number t r s)

/-- A due control flit leaves: up to eight records, oldest first (R248, R249). It waits for a slot pair and for room in
the window. -/
def sendControl (t : Nat) (s : State) : Option (Item × State) :=
  let x := s.trunk t
  let a := trunkAt s t
  if !x.ctlDue || x.recs = [] || !windowRoom s t then none else
  let d := trunkDie s t
  let bytes := controlBytes s a.1 a.2 ((x.recs.take 8).map fun r => r.ll)
  match allocPair d { state := stLive, numbered := true, owner := 0, ll := true, bytes := bytes, holder := trunkHolder t,
                      out := spanKey a.1 a.2 } s with
  | none => none
  | some (r, s) =>
    let i : Item := .flit (stampWord bytes (trunkWord false 0 x.nextTx)) false (some r) none
    let s := number t r (markSending r s)
    let rest := x.recs.drop 8
    let s := s.modTrunk t fun y => { y with recs := rest, ctlDue := decide (8 ≤ rest.length) }
    some (i, countCal t R.CAL_CTL_tx s)

/-- Item 7 on a trunk side: a run, then a due control flit, then the queue or the calendar's choice (R218, R249). -/
def trunkFlit (k : Nat) (sd : Side) (r1 r2 : EccRead) (s : State) : Option Item × State :=
  let t := trunkKey s k sd
  let x := s.trunk t
  if x.stopped then (none, s) else
  match x.runQ.head? with
  | some r => sendRun t r r1 r2 s
  | none =>
    match sendControl t s with
    | some (i, s) => (some i, s)
    | none =>
      if t < 1024 then
        let f := linkFlow k sd.dirOut
        match if windowRoom s t then queueHead s f (spanKey k sd) else none with
        | some r => sendNumbered t f r r1 r2 s
        | none => (none, s)
      else if x.idleSlot ≠ 0 then (none, s)
      else match calChoose (t - 1024) s with
        | (some (f, r), s) => sendNumbered t f r r1 r2 s
        | (none, s) => (none, s)

/-- Item 7 of R172. -/
def nextFlit (k : Nat) (sd : Side) (r1 r2 : EccRead) (s : State) : Option Item × State :=
  if isTrunkSide s k sd then trunkFlit k sd r1 r2 s else
  let s := (endpointFlows s k sd).foldl (fun s f => if (s.flow f).stopped then s else startRun f s) s
  match endpointChoice s k sd with
  | .nothing => (none, s)
  | .replay f r => sendReplay f r r1 r2 s
  | .queue f r => sendQueued f r 0 r1 r2 s
  | .fifo f e => let p := sendFifo f e s; (some p.1, p.2)

/-- Item 7 has a flit ready (R172, item 5). -/
def flitReady (s : State) (k : Nat) (sd : Side) : Bool :=
  if isTrunkSide s k sd then
    let t := trunkKey s k sd
    let x := s.trunk t
    !x.stopped && (x.runQ ≠ [] || (x.ctlDue && x.recs ≠ [] && windowRoom s t) ||
      (if t < 1024 then windowRoom s t && (queueHead s (linkFlow k sd.dirOut) (spanKey k sd)).isSome
       else x.idleSlot = 0 && calReady s (t - 1024)))
  else
    (endpointFlows s k sd).any (fun f => (s.flow f).expired && !(s.flow f).stopped) ||
    match endpointChoice s k sd with
    | .nothing => false
    | _ => true

/-! ## Items 1 to 6 -/

/-- N of R88. -/
def skpN (s : State) (k : Nat) (sd : Side) : Nat := if (s.side k sd).dense then 1024 else 8192

/-- The next SKP set to be forwarded has its place: the flits that came before it have left the transit FIFO, the replay queue
and the queue (R90). One whose VC stands under XOFF has lost its place in the stream (DEDUCED, log 271). -/
def skpPlace (s : State) (k : Nat) (sd : Side) : Bool :=
  match (s.side k sd).skpFwd.head? with
  | some p =>
    let v := s.flow (linkFlow k sd.dirOut)
    v.fifo.all (fun e => decide (p.entered ≤ e.at_)) && (v.queue ++ v.replayQ).all fun r =>
      let x := s.slot r
      x.sent || decide (p.arr ≤ x.arr) || bit v.xoff x.vc
  | none => false

def skpDue (s : State) (k : Nat) (sd : Side) : Bool :=
  skpPlace s k sd || skpN s k sd - 256 ≤ (s.side k sd).skpCount

/-- The DRN set that is due on a trunk side, in the order NAK, ACK, ECHO, PROBE (R215). -/
def drnDue (s : State) (k : Nat) (sd : Side) : Option DrnSet :=
  if !isTrunkSide s k sd || (s.side k sd).lastDrn then none else
  let x := s.trunk (trunkKey s k sd)
  match x.drnNak with
  | some n => some { d0 := 64, value := n }
  | none =>
    if x.drnAck.isSome then some { d0 := 0, value := (x.expect + 65535) % 65536 } else
    match x.drnEcho with
    | some (tag, turn) => some { d0 := 192 + turn, value := tag }
    | none => x.drnProbe.map fun tag => { d0 := 128, value := tag }

/-- A DRN set starts: what it answers is no longer pending (R215, R220, R221, R227). -/
def drnStarts (t : Nat) (d : DrnSet) (s : State) : State :=
  match d.d0 / 64 with
  | 0 => s.modTrunk t fun x => { x with drnAck := none, accCount := 0, accOldest := none }
  | 1 => countTrunk t R.NAK_tx R.CAL_NAK_tx
      (s.modTrunk t fun x => { x with drnNak := none, nakSent := some (d.value, s.fab) })
  | 2 => s.modTrunk t fun x => { x with drnProbe := none, probeOut := some (d.value, s.fab) }
  | _ => s.modTrunk t fun x => { x with drnEcho := none }

/-- An ACK set starts on a side: proxy custody up to it is covered, and its map is the one sent (R230, R234). -/
def ackStarts (k : Nat) (sd : Side) (a : AckSet) (s : State) : State :=
  (flowsIn s k sd).foldl (fun s f => if flowCustodial s f then
    s.modFlow f fun v => { v with upSent := a.map, custCount := 0, custOldest := none } else s) s

/-- The states in which a side sends TRN sets (R138, R139). -/
def sendsTrn (st : Nat) : Bool := (spAcquire ≤ st && st ≤ spStep) || st = spMeasure || st = spArmed

/-- Start the next item of a side (R172). A TRANSPARENT side sends nothing of its own. -/
def chooseItem (k : Nat) (sd : Side) (r1 r2 : EccRead) (s : State) : State :=
  let x := s.side k sd
  let st := spanState s k sd
  if x.eieDue then itemStart k sd .eie (s.putSide k sd { x with eieDue := false })
  else if st = spUp || sendsTrn st then
    if skpDue s k sd then
      (if skpPlace s k sd then
        itemStart k sd (.skp ((x.skpFwd.head?.map SkpFwd.n).getD 4)) (s.putSide k sd { x with skpFwd := x.skpFwd.drop 1, skpCount := 0 })
      else itemStart k sd (.skp 4) (s.putSide k sd { x with skpCount := 0 }))
    else match x.trnDue with
    | t :: rest => itemStart k sd (.trn t) (s.putSide k sd { x with trnDue := rest })
    | [] =>
      if st ≠ spUp then
        itemStart k sd (.trn (trnFill s k sd)) (s.putSpan k sd { s.span k sd with fill := ((s.span k sd).fill + 1) % 4 }) else
      match drnDue s k sd with
      | some d => itemStart k sd (.drn d) (drnStarts (trunkKey s k sd) d s)
      | none =>
        match if x.lastAck && flitReady s k sd then none else x.pendAck with
        | some a => itemStart k sd (.ack a) (ackStarts k sd a (s.putSide k sd { x with pendAck := none }))
        | none =>
          match if x.selSyms = 0 then x.pendSel.head? else none with
          | some b =>
            itemStart k sd (.sel b) ((s.bump R.SEL_CNT_tx).putSide k sd
              { x with pendSel := x.pendSel.drop 1, selSyms := 1024 * sliceLen (sideWidth s k sd) })
          | none =>
            match nextFlit k sd r1 r2 s with
            | (some i, s) => itemStart k sd (mixedItem s k sd i) s
            | (none, s) => itemStart k sd .idl s
  else match x.trnDue with
    | t :: rest => if st = spSwitch then itemStart k sd (.trn t) (s.putSide k sd { x with trnDue := rest }) else s
    | [] => s

/-! ## Interruptions (R202, R203, R226) -/

/-- The interruption of a swap on one of the lanes of a side (R202, R325): from the trigger until the side whose end failed, or
on which the neighbour asked, has switched or has dropped out. A host swap of a healthy lane and a return interrupt nothing
(R326). -/
def swapOn (s : State) (k : Nat) (sd : Side) : Bool :=
  (sideClusters s k sd).any fun c => (s.bob c).intr < 2 && (sideLanes s k sd).contains (bobLane s c)

/-- A switchover or a borrow is in progress in a cluster direction that holds an end of the span. -/
def clockEventOn (s : State) (k : Nat) (sd : Side) : Bool :=
  (spanDirs s k sd).any fun p => let x := s.ck p.1 p.2; x.switchFrom.isSome || x.borrowing

def interrupted (s : State) (k : Nat) (sd : Side) : Bool := swapOn s k sd || clockEventOn s k sd || spanRetraining s k sd

/-- The interruption stops or squelches TX ends of the side: a retrain, the start of a borrow of the direction they send, or a
swap for a TX end that is idled by its fault class. -/
def txStops (s : State) (k : Nat) (sd : Side) : Bool :=
  spanRetraining s k sd || (endLanes s k sd).any (fun n => (s.txe n sd).squelch) ||
  (swapOn s k sd && (sideLanes s k sd).any fun n => s.rd (leTxFault n sd) ≠ 0)

/-- The flows and the trunk that leave on a side are interrupted, or resume. -/
def syncFreeze (k : Nat) (sd : Side) (s : State) : State :=
  if !sideUsed s k sd || modeOf s k = mTransparent then s else
  let on := interrupted s k sd
  let tx := txStops s k sd
  let s := (flowsOut s k sd).foldl (fun s f => if on then freezeFlow f tx s else thawFlow f s) s
  if !isTrunkSide s k sd then s
  else if on then freezeTrunk (trunkKey s k sd) tx s else thawTrunk (trunkKey s k sd) s

/-- The spans with an end in a cluster. -/
def spansOfCluster (s : State) (c : Nat) : List (Nat × Side) :=
  (activeSpans s).filter fun p => (sideClusters s p.1 p.2).contains c

def syncCluster (c : Nat) (s : State) : State := (spansOfCluster s c).foldl (fun s p => syncFreeze p.1 p.2 s) s

/-- The interruption of a swap is over at a time (R325): BOB_TIME reports it where a switch ended it. -/
def intrEnd (c : Nat) (at_ : Option Nat) (s : State) : State :=
  let b := s.bob c
  if 2 ≤ b.intr then s else
  let s := match at_ with
    | some t => s.wr (R.BOB_TIME_ns c) (min (t - b.since) (maxOf 20))
    | none => s
  syncCluster c (s.putBob c { b with intr := 2, txFail := false, nbrAt := none })

/-- The neighbour has switched in a swap for a failed TX end (R325). -/
def nbrSwitched (s : State) : State :=
  (List.range 16).foldl (fun s c =>
    match (s.bob c).nbrAt with
    | some t => if t ≤ s.clock then intrEnd c (some t) s else s
    | none => s) s

/-! ## Traffic of a link at UP and DOWN (R204, R205, R216, R232) -/

/-- The flows whose copies and queues a link loses with it: its own, or those that leave on its sides. -/
def linkFlows (s : State) (k : Nat) : List Nat :=
  if modeOf s k = mBundle then (flowsOut s k .a ++ flowsOut s k .b).eraseDups else [linkFlow k .ab, linkFlow k .ba]

/-- Everything a link holds is freed, what is pending on its sides is dropped, its directions go OFF; so are the responses
to selvedge requests that wait (R456). -/
def linkDropTraffic (k : Nat) (s : State) : State :=
  let s := { s with sel := { s.sel with queue := s.sel.queue.map fun q => if q.link = k then { q with dropped := true } else q } }
  let s := (linkFlows s k).foldl (fun s f => dropFlow f true s) s
  let s := (usedSides s k).foldl (fun s sd => if isTrunkSide s k sd then stopTrunk k sd s else s) s
  (usedSides s k).foldl (fun s sd =>
    let x := s.side k sd
    let eie : Bool := x.cur = .eie
    s.putSide k sd { x with cur := if eie then .eie else .none, lanes := if eie then x.lanes else [], pendAck := none, pendSel := [], trnDue := [], skpFwd := [], dense := false }) s

/-- A link enters UP from DOWN: its directions and trunks start. In a bundle darning starts in the directions that leave on the
link, and the custody values of every direction that uses it are invalid (R205, R228). -/
def linkStart (k : Nat) (s : State) : State :=
  let s := (linkFlows s k).foldl (fun s f => startDarn f s) s
  let s := (if modeOf s k = mBundle then flowsOfLink s k else linkFlows s k).foldl (fun s f => startSeq f s) s
  (usedSides s k).foldl (fun s sd => if isTrunkSide s k sd then startTrunk k sd s else s) s

end Sys2Proof.Machine
end

