-- ==== Sys2Proof/Machine/Patterns.lean ====
section
/-!
DEFINITION. Pattern generators and what a checker locks on (R383, R387, R388): the polynomials, the encoded pattern with its
SKP sets, the levels of the line, and what a generator sends as time passes.
-/

namespace Sys2Proof.Machine

open Sys2Proof

/-! ## Levels (R52) -/

/-- The level of a bit pair, the earlier bit most significant. -/
def grayLevel (p : Nat) : Nat :=
  match p with
  | 0 => 0 | 1 => 1 | 3 => 2 | _ => 3

/-- The levels of ten bits in the order they are sent: pairs through the Gray map at PAM4 rates, else the two outer levels. -/
def lineLevels (pam : Bool) (c : Nat) : List Nat :=
  if pam then [4, 3, 2, 1, 0].map fun i => grayLevel (c / 4 ^ i % 4)
  else (List.range 10).map fun i => if bit c (9 - i) then 3 else 0

/-- The levels of what a TX end last sent. -/
def txLevels (s : State) (n : Nat) (sd : Side) : List Nat :=
  (s.txe n sd).out.flatMap (lineLevels (isPam (ckRate s (laneCluster n) sd.dirOut)))

/-! ## Generators (R387) -/

/-- Degree and inner tap of a pattern's polynomial; patterns 5 and 6 share one. -/
def prbsTaps (pattern : Nat) : Nat × Nat :=
  match pattern with
  | 1 => (7, 6) | 2 => (9, 5) | 3 => (15, 14) | 4 => (23, 18) | _ => (31, 28)

/-- The next bit of a polynomial, from the register of the bits before it, the newest lowest. -/
def prbsBit (t : Nat × Nat) (reg : Nat) : Nat := (reg / 2 ^ (t.1 - 1) + reg / 2 ^ (t.2 - 1)) % 2

/-- A generator at its start: all ones; pattern 6 with a SKP set first, USER with bit 31. -/
def genStart (pattern : Nat) : GenSt :=
  { pattern := pattern, reg := if pattern = 7 then 31 else 2 ^ (prbsTaps pattern).1 - 1, todo := if pattern = 6 then 5 else 0 }

/-- The next bit of a generator. The bit fed back is the one sent (DESIGN CHOICE; log 277). -/
def genBit (user : Nat) (g : GenSt) : Nat × GenSt :=
  if g.pattern = 7 then (bits user g.reg g.reg, { g with reg := (g.reg + 31) % 32 })
  else
    let t := prbsTaps g.pattern
    let b := prbsBit t g.reg
    (b, { g with reg := (2 * g.reg + b) % 2 ^ t.1 })

/-- The next `n` bits, the first the most significant. -/
def genBits (user : Nat) : Nat → Nat → GenSt → Nat × GenSt
  | 0, acc, g => (acc, g)
  | n + 1, acc, g =>
    let r := genBit user g
    genBits user n (2 * acc + r.1) r.2

/-- The symbols between the starts of two SKP sets of pattern 6: the dense cadence of R88. -/
def genSkpGap : Nat := 1024 - 256

/-- The next ten bits of a generator, with the running disparity after them: raw, or an encoded symbol for pattern 6. -/
def genCode (user : Nat) (rd : Bool) (g : GenSt) : Nat × Bool × GenSt :=
  if g.pattern ≠ 6 then
    let r := genBits user 10 0 g
    (r.1, rd, r.2)
  else
    let (x, g) : Sym × GenSt :=
      if g.todo = 5 then (symCOM, { g with todo := 4, since := 1 })
      else if g.todo ≠ 0 then (.k 0x1C, { g with todo := g.todo - 1, since := g.since + 1 })
      else
        let r := genBits user 8 0 g
        (.d r.1, { r.2 with since := r.2.since + 1, todo := if genSkpGap ≤ r.2.since + 1 then 5 else 0 })
    let c := encode10 rd x
    (c, rdAfter rd c, g)

/-- The next `n` groups of ten bits. -/
def genRun (user : Nat) : Nat → Bool → GenSt → List Nat × Bool × GenSt
  | 0, rd, g => ([], rd, g)
  | n + 1, rd, g =>
    let r := genCode user rd g
    let t := genRun user n r.2.1 r.2.2
    (r.1 :: t.1, t.2)

/-- One nanosecond of the generator at a TX end, at the rate of its direction; a stopped cluster or a squelched end sends
nothing. -/
def genTick (s : State) (n : Nat) (sd : Side) : State :=
  let x := s.txe n sd
  let r := ckRate s (laneCluster n) sd.dirOut
  match x.gen with
  | none => s
  | some g =>
    if clusterStopped s (laneCluster n) || x.squelch || r = 7 then s else
    let k := (g.cred + 850) / symTime r
    let o := genRun (s.rd (R.PRBS_USER_bits (lanePage n))) k x.rd { g with cred := (g.cred + 850) % symTime r }
    s.putTx n sd { x with gen := some o.2.2, rd := o.2.1, out := if k = 0 then x.out else o.1.map (mirrored (isPam r) x.pol) }

/-- The TX ends at which a generator runs. -/
def genEnds (s : State) : List (Nat × Side) :=
  (s.tx.filter fun p => p.2.gen.isSome).map fun p => (p.1 / 2, Side.ofIdx (p.1 % 2))

/-- One nanosecond of every generator. -/
def genTicks (s : State) : State := (genEnds s).foldl (fun s p => genTick s p.1 p.2) s

/-! ## What a checker locks on (R388) -/

/-- The bits that a checker seeds with. -/
def prbsSeed (pattern : Nat) : Nat := if pattern = 7 then 0 else (prbsTaps pattern).1

/-- Which of 64 bits differ from the prediction that the bits before them make. -/
def prbsDiffs (pattern : Nat) (l : List Bool) : List Bool :=
  let t := prbsTaps pattern
  (List.range 64).map fun i => l.getD (t.1 + i) false != (l.getD i false != l.getD (t.1 - t.2 + i) false)

/-- Which of 64 bits differ from the USER pattern that begins at its bit 31 - `r`. -/
def userDiffs (user r : Nat) (l : List Bool) : List Bool :=
  (List.range 64).map fun i => l.getD i false != bit user (31 - (r + i) % 32)

/-- What the received bits lock a checker with: the bits it seeds with and 64 more, that all match or all differ. -/
def prbsLocks (pattern user : Nat) (l : List Bool) : Option Bool :=
  if pattern = 0 || l.length ≠ prbsSeed pattern + 64 then none else
  let tries := if pattern = 7 then (List.range 32).map fun r => userDiffs user r l else [prbsDiffs pattern l]
  if tries.any fun t => t.all (! ·) then some false else if tries.any fun t => t.all id then some true else none

end Sys2Proof.Machine
end

