-- ==== Sys2Proof/Machine/ClockOps.lean ====
section
/-!
DEFINITION. Cluster clock operations (chapter Forwarded clocks and fallback rate matching, R83-R84, R93-R103): the clock
mode a direction trains in, switchover, borrowing and lending, recovered clocks, and dense-skip requests.
-/

namespace Sys2Proof.Machine

open Sys2Proof

def refGood (s : State) : Bool := s.on R.CLK_STAT_refclk_good

/-- A lane side of the cluster belongs to a link side of the live configuration. -/
def clusterUsed (s : State) (c : Nat) : Bool :=
  (List.range (linksOf s)).any fun k => (usedSides s k).any fun sd => (sideClusters s k sd).contains c

/-- The borrow_en and standby bits in force: those of the last training (R104), and CK_CFG as it stands in a cluster of no link,
whose directions do not train (DEDUCED, as R132 has it for a board table; log 231). -/
def borrowOn (s : State) (c : Nat) (d : Dir) : Bool :=
  if clusterUsed s c then (s.ck c d).borrowEn else s.on (R.CK_CFG_borrow_en c d.idx)
def standbyOn (s : State) (c : Nat) (d : Dir) : Bool :=
  if clusterUsed s c then (s.ck c d).standby else s.on (R.CK_CFG_standby c d.idx)

/-! ## RX ends in service and steering (R102, R103) -/

/-- An RX end in service: LOCKED and receiving a link position of a used side; with signal detect in a TRANSPARENT link,
which decodes nothing. -/
def rxInService (s : State) (n : Nat) (sd : Side) : Bool :=
  match endUse s n sd with
  | some (k, _) => if modeOf s k = mTransparent then s.on (leSd n sd) else isLocked s n sd
  | none => false

/-- The lanes of a cluster by number. -/
def clusterLanes (c : Nat) : List Nat := (List.range 9).map (laneAt c)

/-- The steering end of a direction, as an RX key: its lowest in-service end, failing that the other direction's; with a
TRANSPARENT link in the direction, the lowest of that link. -/
def steerEnd (s : State) (c : Nat) (d : Dir) : Option Nat :=
  let ends := fun sd => ((clusterLanes c).filter fun n => rxInService s n sd)
  let transparent := (ends d.inSide).filter fun n =>
    match endUse s n d.inSide with
    | some (k, _) => modeOf s k = mTransparent
    | none => false
  match if carriesTransparent s c d then transparent.head? else (ends d.inSide).head? with
  | some n => some (rxKey n d.inSide)
  | none => ((ends d.outSide).head?).map fun n => rxKey n d.outSide

/-! ## Elastic buffers (R91) -/

/-- The direction's RX ends have elastic buffers: FALLBACK or RECOVERED, or on the way there (R94). -/
def hasEb (s : State) (c : Nat) (d : Dir) : Bool :=
  ckMode s c d = ckFallback || ckMode s c d = ckRecovered || (s.ck c d).switchFrom.isSome

/-- An RX end has an elastic buffer (R83): in RECOVERED those of the steering link have none, nor has a TRANSPARENT link, which
cannot be rate-matched (R103). -/
def endEb (s : State) (n : Nat) (sd : Side) : Bool :=
  let c := laneCluster n
  let link := fun e : Nat => (endUse s (e / 2) (Side.ofIdx (e % 2))).map Prod.fst
  let plain : Bool := match link (rxKey n sd) with
    | some k => modeOf s k = mTransparent
    | none => false
  hasEb s c sd.dirIn && !plain && !(ckMode s c sd.dirIn = ckRecovered && match (s.ck c sd.dirIn).steer with
    | some e => (link e).isSome && link e = link (rxKey n sd)
    | none => false)

/-- An RX end starts to lock anew. No loss of lock is counted. -/
def rxAgain (n : Nat) (sd : Side) (s : State) : State :=
  if s.rd (leLock n sd) = lkUnlocked then s else
  adaptLeaves n sd ((s.wr (leLock n sd) lkUnlocked).putRx n sd { s.rxe n sd with commas := 0, bad := 0, balRun := false })

/-- The RX ends of a direction start again from the stored phases (R94, R98). -/
def rxRestart (c : Nat) (d : Dir) (s : State) : State := (clusterLanes c).foldl (fun s n => rxAgain n d.inSide s) s

/-- EB_STAT reads 16 from entry of the reference lane to LOCKED, and 0 outside FALLBACK and RECOVERED (R105). -/
def ebReset (c : Nat) (d : Dir) (s : State) : State :=
  s.wr (R.EB_STAT_fill c d.idx) (if hasEb s c d then 16 else 0)

/-! ## Dense-skip requests (R89, R93) -/

/-- The spans whose neighbour is asked: those with RX ends in the direction. -/
def denseSpans (s : State) (c : Nat) (d : Dir) : List (Nat × Side) :=
  ((spansIn s c d).filter fun p => p.2 = d.inSide && modeOf s p.1 ≠ mTransparent)

def densePost (c : Nat) (d : Dir) (kind : Nat) (s : State) : State :=
  (denseSpans s c d).foldl (fun s p => if spanUp s p.1 p.2 then postTrn p.1 p.2 (mkTrn s p.1 p.2 kind) s else s) s

/-- A dense-skip request (open 1) or release (open 2) is first sent. -/
def denseAsk (c : Nat) (d : Dir) (request : Bool) (s : State) : State :=
  let s := s.putCk c d { s.ck c d with denseSent := 1, denseOpen := if request then 1 else 2 }
  let s := s.wrB (R.CK_STAT_dense_req c d.idx) request
  densePost c d (if request then trnDENSEREQ else trnDENSEREL) s

/-- A TX side changes its cadence (R89). -/
def setDense (k : Nat) (sd : Side) (on : Bool) (s : State) : State := s.putSide k sd { s.side k sd with dense := on }

/-- A span trains: requests made of its neighbour are no longer outstanding (R89, R94). -/
def denseOver (k : Nat) (sd : Side) (s : State) : State :=
  (sideClusters s k sd).foldl (fun s c =>
    let d := sd.dirIn
    let s := s.putCk c d { s.ck c d with denseOpen := 0, denseSent := 0 }
    (s.wr (R.CK_STAT_dense_req c d.idx) 0).wr (R.CK_STAT_dense_rx c d.idx) 0) s

/-! ## Lending (R98, R100) -/

/-- The spine neighbour. -/
def partner (c : Nat) : Nat := c ^^^ 1

/-- A side of width x16 whose lanes span the cluster and its partner, with RX ends in the direction. -/
def x16Side (s : State) (c : Nat) (d : Dir) : Bool :=
  (spansIn s c d).any fun p => p.2 = d.inSide && (sideClusters s p.1 p.2).contains (partner c)

/-- A direction that borrows, or would, does so in FORWARDED: from an x16 partner in FORWARDED (R98). -/
def borrowsForward (s : State) (c : Nat) (d : Dir) : Bool := x16Side s c d && ckMode s (partner c) d = ckForwarded

/-- May the direction borrow (R98)? An idle lender's standby PLL runs at the borrower's rate code. A direction with a
TRANSPARENT link, which never runs in FALLBACK, borrows only in FORWARDED (R103). -/
def mayBorrow (s : State) (c : Nat) (d : Dir) : Bool :=
  let o := partner c
  borrowOn s c d && o < clustersOf s && s.on (R.CK_STAT_own_lock o d.idx) &&
  (ckRate s o d = ckRate s c d || (ckRate s o d = 7 && ckRate s c d ≠ 7)) &&
  !s.on (R.CK_STAT_borrowed o d.idx) && !s.on (R.CK_STAT_lent o d.idx) &&
  (!carriesTransparent s c d || borrowsForward s c d)

/-- The PLL of an idle direction that runs for a test alone (R368, R383, R386): from REFCLK, or in START from the IFO. A rate that
it runs at is kept. Its mode stays OFF, and its reference reads 0 on the IFO (DESIGN CHOICE; log 275). -/
def testClock (c : Nat) (d : Dir) (rung : Nat) (s : State) : State :=
  let s := if ckRate s c d = 7 then s.wr (R.RATE_STAT_rate c d.idx) rung else s
  let on := !(s.ck c d).unlockHeld
  let s := (s.wrB (R.CK_STAT_own_lock c d.idx) on).wrB (R.CK_STAT_pll_lock c d.idx) on
  s.wr (R.CK_STAT_ref c d.idx) (if refGood s then refRefclk else if s.dev.phase = .start then 0 else refHoldover)

/-- The standby PLL of an idle direction (R98): locked while its neighbour's direction has a rate code; or it runs for a test. -/
def standbySync (c : Nat) (s : State) : State :=
  [Dir.ab, Dir.ba].foldl (fun s d =>
    if ckMode s c d ≠ ckOff || clustersOf s ≤ c then s else
    match testRung s c d with
    | some r => testClock c d r s
    | none =>
    let s := s.wr (R.RATE_STAT_rate c d.idx) 7
    let on := s.on (R.CK_STAT_lent c d.idx) ||
      (standbyOn s c d && ckRate s (partner c) d ≠ 7 && refGood s && !(s.ck c d).unlockHeld)
    let s := s.wrB (R.CK_STAT_own_lock c d.idx) on
    let s := s.wrB (R.CK_STAT_pll_lock c d.idx) on
    s.wr (R.CK_STAT_ref c d.idx) (if on then refRefclk else 0)) s

/-- The cluster PLLs stop when step CALIBRATE of START is over (R368). -/
def calClocks (s : State) : State := (List.range (clustersOf s)).foldl (fun s c => standbySync c s) s

/-- A borrow ends: the lender's lent clears. -/
def borrowEnd (c : Nat) (d : Dir) (s : State) : State :=
  if !s.on (R.CK_STAT_borrowed c d.idx) then s else
  let s := (s.wr (R.CK_STAT_borrowed c d.idx) 0).wr (R.CK_STAT_lent (partner c) d.idx) 0
  standbySync (partner c) (s.putCk c d { s.ck c d with borrowing := false, heldFrom := none })

/-- The elastic buffers of a direction's RX ends are centred. -/
def ebStart (c : Nat) (d : Dir) (s : State) : State :=
  ebReset c d ((clusterLanes c).foldl (fun s n =>
    s.putRx n d.inSide { s.rxe n d.inSide with fill := 16, recentre := false }) s)

/-- The TX ends of a direction are squelched to common mode, without EIE (R98). -/
def squelchTx (c : Nat) (d : Dir) (s : State) : State :=
  (clusterLanes c).foldl (fun s n =>
    let x := s.txe n d.outSide
    if x.idle then s else s.putTx n d.outSide { x with squelch := true }) s

/-- SYMBOL links lose the flits in flight in a direction that begins to borrow (R99). -/
def symbolLost (c : Nat) (d : Dir) (s : State) : State :=
  ((spansIn s c d).filter fun p => p.2 = d.outSide && modeOf s p.1 = mSymbol).foldl (fun s p =>
    let x := s.side p.1 p.2
    (s.modFlow (linkFlow p.1 p.2.dirOut) fun v => { v with fifo := [] }).putSide p.1 p.2 { x with cur := match x.cur with
      | .flit b po r _ => .flit b po r none
      | i => i }) s

/-- A borrow begins (R98): the multiplexer moves to the lender's PLL; FORWARDED from a FORWARDED x16 partner, FALLBACK
otherwise. -/
def borrowStart (c : Nat) (d : Dir) (s : State) : State :=
  let o := partner c
  let fwd := borrowsForward s c d
  let s := (s.wr (R.CK_STAT_borrowed c d.idx) 1).wr (R.CK_STAT_lent o d.idx) 1
  let s := (s.count (R.CK_EVT_borrows c d.idx)).wr (R.CK_STAT_pll_lock c d.idx) 1
  let s := s.wr (R.CK_STAT_mode c d.idx) (if fwd then ckForwarded else ckFallback)
  let s := dirAbort c d (s.putCk c d { s.ck c d with borrowing := true, heldFrom := (s.ck c d).switchFrom, switchFrom := none, holdover := none, steer := none })
  let s := symbolLost c d (squelchTx c d (rxRestart c d s))
  syncCluster c (ebReset c d (if fwd then s else denseAsk c d true s))

/-- The mode of a lender's direction has changed: its borrower is FORWARDED or in FALLBACK by it (R98, R102). One that carries a
TRANSPARENT link is never in FALLBACK and asks for no cadence: it follows its lender to RECOVERED (R103). CK_EVT counts none of
these moves as a switchover of the borrower (DESIGN CHOICE; log 258). -/
def lendSync (c : Nat) (d : Dir) (s : State) : State :=
  let o := partner c
  if !s.on (R.CK_STAT_lent c d.idx) || ckMode s o d = ckOff then s else
  let fwd := borrowsForward s o d
  let plain := carriesTransparent s o d
  if fwd && ckMode s o d ≠ ckForwarded then
    let s := s.wr (R.CK_STAT_mode o d.idx) ckForwarded
    if plain then s else denseAsk o d false s
  else if !fwd && ckMode s o d = ckForwarded then
    let s := ebStart o d (s.wr (R.CK_STAT_mode o d.idx) (if plain then ckRecovered else ckFallback))
    if plain then s else denseAsk o d true s
  else s

/-! ## Losing REFCLK (R102) -/

/-- The reference of a direction goes to its steering end, or it stays in holdover from `since`. -/
def steerOrHold (c : Nat) (d : Dir) (since : Nat) (s : State) : State :=
  match steerEnd s c d with
  | some e =>
    let s := (s.wr (R.CK_STAT_mode c d.idx) ckRecovered).wr (R.CK_STAT_ref c d.idx) refRecovered
    s.putCk c d { s.ck c d with steer := some e, holdover := none }
  | none => (s.wr (R.CK_STAT_ref c d.idx) refHoldover).putCk c d { s.ck c d with holdover := some since }

/-- REFCLK fails: directions in FALLBACK that do not borrow go into holdover and take a steering end, which is an
interruption of its own (R102). The others keep their reference; borrowers follow their lenders. -/
def refclkLost (s : State) : State :=
  (List.range (clustersOf s)).foldl (fun s c => standbySync c ([Dir.ab, Dir.ba].foldl (fun s d =>
    if ckMode s c d = ckFallback && !s.on (R.CK_STAT_borrowed c d.idx) && (s.ck c d).holdover.isNone &&
        (s.ck c d).switchFrom.isNone then
      let s := s.putCk c d { s.ck c d with holdover := some s.clock, switchFrom := some s.clock }
      let s := s.wr (R.CK_STAT_ref c d.idx) refHoldover
      let s := steerOrHold c d s.clock s
      let s := if (s.ck c d).holdover.isSome then s.putCk c d { s.ck c d with switchFrom := none }
        else s.count (R.CK_EVT_switches c d.idx)
      syncCluster c (dirAbort c d s)
    else s) s)) s

/-- Holdover is judged continuously (R102): REFCLK good again, or the first end of the cluster in service, a move to
RECOVERED that CK_EVT counts. A direction
with a TRANSPARENT link never takes REFCLK (R103). -/
def holdoverJudge (c : Nat) (s : State) : State :=
  [Dir.ab, Dir.ba].foldl (fun s d =>
    match (s.ck c d).holdover with
    | none => s
    | some a =>
      if refGood s && !carriesTransparent s c d then
        ((s.wr (R.CK_STAT_mode c d.idx) ckFallback).wr (R.CK_STAT_ref c d.idx) refRefclk).putCk c d
          { s.ck c d with holdover := none, steer := none }
      else
        let was := ckMode s c d
        let s := steerOrHold c d a s
        if was = ckFallback && ckMode s c d = ckRecovered then s.count (R.CK_EVT_switches c d.idx) else s) s

/-- An end of the cluster has come into service or left it: a direction that steered on an end out of service takes the
next one, or holds over. -/
def steerSync (c : Nat) (s : State) : State :=
  let s := [Dir.ab, Dir.ba].foldl (fun s d =>
    match (s.ck c d).steer with
    | none => s
    | some e => if rxInService s (e / 2) (Side.ofIdx (e % 2)) then s
      else steerOrHold c d s.clock (s.putCk c d { s.ck c d with steer := none })) s
  holdoverJudge c s

/-- REFCLK is judged good: directions leave holdover for it, standby PLLs lock (R98, R102). -/
def refclkBack (s : State) : State :=
  (List.range (clustersOf s)).foldl (fun s c => standbySync c (holdoverJudge c s)) s

/-! ## Training and idling a direction (R84, R145) -/

/-- A link side is in use by a span that is not idle, or has yet to send EIE (R65). -/
def sideBusy (s : State) (k : Nat) (sd : Side) : Bool :=
  (modeOf s k = mTransparent && (s.link k).running) || (spAcquire ≤ spanState s k sd && spanState s k sd ≤ spUp) ||
  (endLanes s k sd).any fun n => !(s.txe n sd).idle

/-- A direction is used by a span that is not idle, or by lanes that have left their side and have yet to send EIE. -/
def dirBusy (s : State) (c : Nat) : Bool :=
  ((liveSides s).any fun p => (sideClusters s p.1 p.2).contains c && sideBusy s p.1 p.2) ||
  s.sides.any fun p => p.2.leaving.any fun n => laneCluster n = c

/-- A direction without a busy span becomes idle: rate code 7, mode OFF. A lent PLL stays locked on REFCLK (R98); a borrow of
its own ends with its use (DESIGN CHOICE: R100 names two other ends; log 259). -/
def idleClocks (c : Nat) (s : State) : State :=
  if dirBusy s c then s else
  let s := [Dir.ab, Dir.ba].foldl (fun s d =>
    if ckMode s c d = ckOff then s else
    let s := borrowEnd c d s
    let s := (s.wr (R.CK_STAT_mode c d.idx) ckOff).wr (R.RATE_STAT_rate c d.idx) 7
    let x := s.ck c d
    let s := s.putCk c d { borrowEn := x.borrowEn, standby := x.standby, unlockHeld := x.unlockHeld }
    let s := ((s.wr (R.CK_STAT_dense_req c d.idx) 0).wr (R.CK_STAT_dense_rx c d.idx) 0).wr (R.EB_STAT_fill c d.idx) 0
    lendSync c d (s.putCkExit c d { s.ckExit c d with idle := true })) s
  standbySync (partner c) (standbySync c s)

/-- The clusters whose clock mode goes with that of `c`: the two of an x16 side (R13). -/
def modeMates (s : State) (c : Nat) : List Nat :=
  if (liveSides s).any fun p => (sideClusters s p.1 p.2).contains c && (sideClusters s p.1 p.2).contains (partner c)
  then [c, partner c] else [c]

/-- RX ends of the direction belong to a link (R84). -/
def rxUsed (s : State) (c : Nat) (d : Dir) : Bool := (spansIn s c d).any fun p => p.2 = d.inSide

/-- The direction of a cluster may train in FORWARDED (R84). -/
def mayForward (s : State) (d : Dir) (c : Nat) : Bool :=
  s.on (R.CK_STAT_ckl_ok c d.idx) && !s.on (R.CK_CFG_fallback c d.idx) && rxUsed s c d

/-- The direction goes FORWARDED when it trains together with `ms`: in both clusters of an x16 side (R13), and not beside a
cluster of the side that stays in another mode. -/
def trainsForward (s : State) (ms : List (Nat × Dir)) (c : Nat) (d : Dir) : Bool :=
  (modeMates s c).all fun o => mayForward s d o &&
    (o = c || ms.contains (o, d) || ckMode s o d = ckForwarded || ckMode s o d = ckOff)

/-- The mode a direction trains in (R84, R103): FORWARDED on a qualified entry clock, else FALLBACK; a direction with a
TRANSPARENT link, or without REFCLK, steers on a recovered clock. `ms` are the directions that train with it. -/
def trainMode (ms : List (Nat × Dir)) (c : Nat) (d : Dir) (s : State) : State :=
  if trainsForward s ms c d then
    (s.wr (R.CK_STAT_mode c d.idx) ckForwarded).wr (R.CK_STAT_ref c d.idx) refEntry
  else if carriesTransparent s c d then steerOrHold c d s.clock (s.wr (R.CK_STAT_mode c d.idx) ckRecovered)
  else if refGood s then (s.wr (R.CK_STAT_mode c d.idx) ckFallback).wr (R.CK_STAT_ref c d.idx) refRefclk
  else steerOrHold c d s.clock (s.wr (R.CK_STAT_mode c d.idx) ckFallback)

/-- What a new rung loads in the clock ends of a direction (R79, R111), and BAL.valid, which is 0 at the NRZ rates (R76). -/
def ckLoad (c : Nat) (d : Dir) (rung : Nat) (s : State) : State :=
  let s := s.putCkEntry c d { s.ckEntry c d with ctle := Config.clockCtle rung }
  let s := s.putCkExit c d { s.ckExit c d with idle := (s.ckExit c d).txFault ≠ 0 }
  let s := exitDrive c d (applyTaps (txPreset s (laneAt c 0) d.outSide rung)).1 s
  if isPam rung then s
  else (List.range 9).foldl (fun s j => s.wr (R.BAL_valid c j d.inSide.idx) 0) s

/-- The rung at which a lent PLL runs: its own direction's, or its borrower's where that is idle (R98). -/
def lentRung (s : State) (c : Nat) (d : Dir) : Nat := if ckRate s c d = 7 then ckRate s (partner c) d else ckRate s c d

/-- A direction retunes to a rung and enters its mode (R84, R145), with CK_CFG as it stands (R104). On its own PLL where that
can lock, else on a borrowed one (R100). Whether it was lent to a borrower whose rate it leaves. `ms` are the directions that
train with it. -/
def ckTrain (ms : List (Nat × Dir)) (c : Nat) (d : Dir) (rung : Nat) (s : State) : Bool × State :=
  let lost := s.on (R.CK_STAT_lent c d.idx) && lentRung s c d ≠ rung
  let s := borrowEnd c d s
  let s := s.wr (R.RATE_STAT_rate c d.idx) rung
  let s := s.putCk c d { borrowEn := s.on (R.CK_CFG_borrow_en c d.idx), standby := s.on (R.CK_CFG_standby c d.idx),
                         unlockHeld := (s.ck c d).unlockHeld }
  let s := (s.wr (R.CK_STAT_dense_req c d.idx) 0).wr (R.CK_STAT_dense_rx c d.idx) 0
  let s := dirAbort c d (ckLoad c d rung s)
  let s := if (s.ck c d).unlockHeld then
      (if mayBorrow s c d then borrowStart c d s else (trainMode ms c d s).wr (R.CK_STAT_pll_lock c d.idx) 0)
    else trainMode ms c d ((s.wr (R.CK_STAT_pll_lock c d.idx) 1).wr (R.CK_STAT_own_lock c d.idx) 1)
  let s := if lost then
      let o := partner c
      ((borrowEnd o d s).wr (R.CK_STAT_pll_lock o d.idx) 0).raise (16 * o + 4 + d.idx)
    else lendSync c d s
  (lost, standbySync (partner c) (ebReset c d s))

/-! ## Switchover (R94) -/

/-- A FORWARDED direction begins its switchover. -/
def switchOne (c : Nat) (d : Dir) (s : State) : State :=
  let s := (s.count (R.CK_EVT_switches c d.idx)).wr (R.CK_STAT_ref c d.idx) refHoldover
  let s := rxRestart c d (s.putCk c d { s.ck c d with switchFrom := some s.clock })
  let s := if carriesTransparent s c d then s else denseAsk c d true s
  syncCluster c (dirAbort c d s)

/-- The direction runs FORWARDED on its own PLL and is in no clock event. -/
def steadyForward (s : State) (d : Dir) (c : Nat) : Bool :=
  ckMode s c d = ckForwarded && !s.on (R.CK_STAT_borrowed c d.idx) && (s.ck c d).switchFrom.isNone

/-- A direction that has trained in another mode takes the other cluster of an x16 side out of FORWARDED (R13; DEDUCED, log
233). -/
def clockApart (c : Nat) (d : Dir) (s : State) : State :=
  if ckMode s c d = ckForwarded || ckMode s c d = ckOff then s
  else ((modeMates s c).filter fun o => o ≠ c && steadyForward s d o).foldl (fun s o => switchOne o d s) s

end Sys2Proof.Machine
end

