-- ==== Sys2Proof/Machine/BobOps.lean ====
section
/-!
DEFINITION. The bobbin machine as other chapters meet it (R316, R327): which lane it stands in for, the end of a swap or a
return, and what happens to it when a side goes down or trains.
-/

namespace Sys2Proof.Machine

open Sys2Proof

/-- Results of BOB_STAT, and out_why FAULT. -/
def swDone : Nat := 1
def swAbandoned : Nat := 2
def owFault : Nat := 3

def bobState (s : State) (c : Nat) : Nat := s.rd (R.BOB_STAT_state c)

/-- The sides of the bobbin's lane n that a live link uses, with link and position (R316). -/
def bobUsed (s : State) (c : Nat) : List (Side × Nat × Nat) :=
  [Side.a, Side.b].filterMap fun sd => (laneUse s (bobLane s c) sd).map fun u => (sd, u)

/-- The lane that a swap or a return brings in, and the one it replaces. -/
def newLane (s : State) (c : Nat) : Nat := if bobState s c = bbReturning then bobLane s c else 128 + c
def oldLane (s : State) (c : Nat) : Nat := if bobState s c = bbReturning then 128 + c else bobLane s c

/-- Side `sd` has switched in the swap or return in progress. -/
def bobSwitched (s : State) (c : Nat) (sd : Side) : Bool := (s.bob c).inOn sd != (bobState s c = bbReturning)

/-- The ends of a lane leave service on a side. -/
def laneOut (n : Nat) (sd : Side) (s : State) : State := acqCancel n sd (adaptLeaves n sd s)

/-- A side of lane n takes its link position from the bobbin, or from lane n again; a new TX end that sends begins its part of
R321 now if it has not yet, and a bobbin that stops standing in while IN rests. -/
def bobMove (c : Nat) (sd : Side) (on : Bool) (s : State) : State :=
  let n := bobLane s c
  let s := s.putBob c ((s.bob c).setIn sd on)
  let old := if on then n else 128 + c
  let new := if on then 128 + c else n
  let runs : Bool := bobState s c = (if on then bbSwapping else bbReturning)
  let s := if runs && (s.bob c).dup sd = none && !(s.bob c).rested.contains sd.idx && !(s.txe new sd).idle then
      s.putBob c ((s.bob c).setDup sd (some s.clock)) else s
  let s := if !on && bobState s c = bbIn then s.txRest (128 + c) sd else s
  let s := adaptLeaves old sd s
  steerSync c (if isLocked s new sd then adaptEnters new sd s else s)

/-- A lane's TX ends are held in electrical idle, without EIE. -/
def laneTxIdle (n : Nat) (s : State) : State :=
  [Side.a, Side.b].foldl (fun s sd => s.txRest n sd) s

/-- The bobbin's ends rest in electrical idle (R317). -/
def bobRest (c : Nat) (s : State) : State :=
  laneTxIdle (128 + c) (laneOut (128 + c) .b (laneOut (128 + c) .a s))

def bobFaulty (s : State) (c : Nat) : Bool := endFaulty s (128 + c) .a || endFaulty s (128 + c) .b

/-- What a swap has gathered is over. -/
def bobClear (c : Nat) (s : State) : State :=
  s.putBob c { s.bob c with capAcc := [], asked := [], acqDone := [], waiting := false, detect := false, failedSide := 2,
                            capsA := 16, capsB := 16, fails := [] }

/-- A swap or a return ends DONE when every used side of lane n has switched or dropped out (R316). The old TX ends go on
for a while (R321). -/
def bobFinish (c : Nat) (s : State) : State :=
  let st := bobState s c
  if st ≠ bbSwapping && st ≠ bbReturning then s
  else if (s.bob c).waiting || (s.bob c).detect then s
  else if !(bobUsed s c).all fun u => bobSwitched s c u.1 || (s.bob c).dropped.contains u.1.idx then s
  else
    let s := s.bump (if st = bbSwapping then R.BOB_CNT_swaps c else R.BOB_CNT_returns c)
    let s := (s.wr (R.BOB_STAT_state c) (if st = bbSwapping then bbIn else bbReady)).wr (R.BOB_STAT_result c) swDone
    syncCluster c ((bobClear c s).raise (16 * c + 11))

/-- While IN, the bobbin stands in on no side that is not used; with none left it rests, unless a dropped side is to take it at
its next DETECT, or goes OUT with a fault class (R316). -/
def bobRelease (c : Nat) (s : State) : State :=
  if bobState s c ≠ bbIn then s else
  let s := [Side.a, Side.b].foldl (fun s sd =>
    if (s.bob c).inOn sd && (laneUse s (bobLane s c) sd).isNone then bobMove c sd false s else s) s
  let b := s.bob c
  if b.inA || b.inB || (!bobFaulty s c && b.dropped.any fun i => (laneUse s (bobLane s c) (Side.ofIdx i)).isSome) then s
  else
    let s := s.putBob c { b with dropped := [] }
    let s := bobRest c s
    if bobFaulty s c then (s.wr (R.BOB_STAT_state c) bbOut).wr (R.BOB_STAT_out_why c) owFault
    else s.wr (R.BOB_STAT_state c) bbReady

/-- The bobbin of a cluster serves a lane of a link side, or is being brought in for one. -/
def bobOn (s : State) (c k : Nat) (sd : Side) : Bool := (sideLanes s k sd).contains (bobLane s c)

/-- A used side of lane n enters DOWN during a swap: its part is dropped (R327). In a return the side goes back to lane n. -/
def bobSideDown (k : Nat) (sd : Side) (s : State) : State :=
  (sideClusters s k sd).foldl (fun s c =>
    if !bobOn s c k sd then s else
    let s := if (s.bob c).intr = sd.idx then intrEnd c none s else s
    if bobState s c = bbSwapping && !bobSwitched s c sd && !(s.bob c).detect then
      bobFinish c (laneOut (128 + c) sd (s.putBob c { s.bob c with dropped := (s.bob c).dropped ++ [sd.idx] }))
    else if bobState s c = bbReturning && !bobSwitched s c sd then bobFinish c (bobMove c sd false s)
    else s) s

/-- The bobbin stands in from its next DETECT on a side whose part was dropped (R327). -/
def bobJoin (k : Nat) (sd : Side) (s : State) : State :=
  (sideClusters s k sd).foldl (fun s c =>
    if bobOn s c k sd && (s.bob c).dropped.contains sd.idx then
      let s := s.putBob c { s.bob c with dropped := (s.bob c).dropped.filter (· ≠ sd.idx) }
      if endFaulty s (128 + c) sd then s else bobMove c sd true s
    else s) s

end Sys2Proof.Machine
end

