-- ==== Sys2Proof/Machine/PrkOps.lean ====
section
/-!
DEFINITION. The pricking unit as other chapters use it (R292, R293, R304, R307): starting a submission or a re-check, with
the values its check takes in.
-/

namespace Sys2Proof.Machine

open Sys2Proof

/-- The configuration that a submission or a re-check judges (R291, R304). -/
def checkView (origin link : Nat) : View := { scope := origin, link := link }

/-- The values whose change between the start of a check and T_apply restarts it (R307): usable slots and P-level of each die,
then the round trip and the rung that the check uses for each side. -/
def checkBasis (v : View) (s : State) : List Nat :=
  ((List.range 2).flatMap fun d => [s.rd (R.BUF_USABLE_usable d), s.rd (R.PL_STAT_level d)]) ++
  (vSides v s).flatMap fun p => [vRttSpan v s p.1 p.2 + 1, vRung v s p.1 p.2 + 1]

/-- The same values as they stand now: 0 where none is measured, or no rung is in force. -/
def checkNow (v : View) (s : State) : List Nat :=
  ((List.range 2).flatMap fun d => [s.rd (R.BUF_USABLE_usable d), s.rd (R.PL_STAT_level d)]) ++
  (vSides v s).flatMap fun p =>
    [if s.on (R.RTT_valid p.1 p.2.idx) then vRttSpan v s p.1 p.2 + 1 else 0, if spanUp s p.1 p.2 then vRung v s p.1 p.2 + 1 else 0]

/-- A value has changed. A span that leaves UP, or a round trip that is no longer valid, is the DOWN of R307: no effect. -/
def basisChanged (old new : List Nat) : Bool :=
  old.take 4 ≠ new.take 4 || ((old.drop 4).zip (new.drop 4)).any fun p => p.2 ≠ 0 && p.1 ≠ p.2

/-- What the proof of every used side would rest on (R303): link, side, rung, rtt, and whether the side faces an
endpoint. -/
def proofOf (v : View) (s : State) : List (List Nat) :=
  (vSides v s).map fun p => [p.1, p.2.idx, vRung v s p.1 p.2, vRtt v s p.1 p.2, b2n (vFacesEp v s p.1 p.2)]

/-- The check begins, with the values of R293 as they stand (R307). -/
def checkRun (s : State) : State :=
  let p := s.prk
  let v := checkView p.origin p.link
  let r := admission v (!p.checkOnly && p.origin ≠ 2) s
  { s with prk := { p with startedAt := s.clock, basis := checkBasis v s, applyAt := none,
                           verdict := [r.code, r.kind, r.sub, r.index, r.need, r.limit], proofs := proofOf v s } }

/-- A submission or a re-check starts (R292): origin 0 package scope, 1 link scope, 2 re-check. -/
def checkBegin (origin link : Nat) (checkOnly : Bool) (s : State) : State :=
  let held := s.prk.heldRecheck
  checkRun ({ s with prk := { busy := true, origin := origin, link := link, checkOnly := checkOnly, heldRecheck := held } }.wr
    R.PRK_CMD_busy 1)

/-- A re-check is triggered (R304): it starts, or is held while a submission or a re-check runs. Outside SERVICE and GUARD it
ends with STATE; in START, where nothing is configured, there is none (DEDUCED; log 269). -/
def startRecheck (_trigger : Nat) (s : State) : State :=
  if s.dev.phase = .off || s.dev.phase = .start then s
  else if s.prk.busy then { s with prk := { s.prk with heldRecheck := true } }
  else checkBegin 2 0 false s

/-! ## The end of an operation (R292, R300, R301, R309) -/

/-- PRK_STAT, PRK_WHERE, PRK_NEED and PRK_LIMIT take the outcome `r`: code, kind, sub, index, NEED, LIMIT. What tells of the last
submission, applied and check_only, a re-check leaves (R309). -/
def prkReport (r : List Nat) (applied : Bool) (s : State) : State :=
  let s := (s.bumpWrap R.PRK_STAT_seq).wr R.PRK_STAT_origin s.prk.origin
  let s := if s.prk.origin = 2 then s
    else (s.wrB R.PRK_STAT_applied applied).wrB R.PRK_STAT_check_only s.prk.checkOnly
  let s := (((s.wr R.PRK_STAT_result (r.getD 0 0)).wr R.PRK_WHERE_kind (r.getD 1 0)).wr R.PRK_WHERE_sub (r.getD 2 0)).wr
    R.PRK_WHERE_index (r.getD 3 0)
  (s.wr R.PRK_NEED_need (r.getD 4 0)).wr R.PRK_LIMIT_limit (r.getD 5 0)

/-- The operation ends: busy clears, source 282 is raised, a re-check that was held starts. -/
def prkEnd (r : List Nat) (applied : Bool) (s : State) : State :=
  let s := prkReport r applied s
  let s := if s.prk.origin = 2 then (if r.getD 0 0 = 1 then s else s.bump R.PRK_RECHK_failed)
    else s.bump (if r.getD 0 0 = 1 then R.PRK_CNT_accepted else R.PRK_CNT_refused)
  let held := s.prk.heldRecheck
  let s := ({ s with prk := {} }.wr R.PRK_CMD_busy 0).raise 282
  if held then startRecheck 0 s else s

/-- A changed value restarts the check once; a second change ends a submission with CHANGED (R307). -/
def prkChanged (s : State) : State :=
  if s.prk.restarted && s.prk.origin ≠ 2 then prkEnd [18, 0, 0, 0, 0, 0] false s
  else checkRun { s with prk := { s.prk with restarted := true } }

/-- A measured value may have changed (R307): each change is seen as it happens, the check restarts with it or ends. -/
def prkNotice (s : State) : State :=
  if s.prk.busy && basisChanged s.prk.basis (checkNow (checkView s.prk.origin s.prk.link) s) then prkChanged s else s

end Sys2Proof.Machine
end

