-- ==== Sys2Proof/Machine/Spans.lean ====
section
/-!
DEFINITION. The span sequencers (chapter Taking part in training, R135-R159): the transitions of R153, stepping (R144-R150),
link-up (R151, R152), retraining (R154-R157) and DOWN.
-/

namespace Sys2Proof.Machine

open Sys2Proof

def State.modSpan (s : State) (k : Nat) (sd : Side) (g : SpanSt → SpanSt) : State := s.putSpan k sd (g (s.span k sd))

/-- Fault codes of SPAN_STAT. -/
def ftLanes : Nat := 1
def ftOrder : Nat := 2
def ftDeskew : Nat := 3
def ftWidth : Nat := 4
def ftTrunk : Nat := 5
def ftQuality : Nat := 6
def ftTimeout : Nat := 7
def ftElection : Nat := 8
def ftEcho : Nat := 9
def ftGroup : Nat := 10
def ftHost : Nat := 11

/-- A span's state; the up bit follows it. -/
def setSpan (k : Nat) (sd : Side) (st : Nat) (s : State) : State :=
  (s.wr (R.SPAN_STAT_state k sd.idx) st).wrB (R.SPAN_STAT_up k sd.idx) (st = spUp)

/-- Source 16c + 10 of the span's cluster (R153). -/
def trnSource (k : Nat) (sd : Side) (s : State) : State := s.raise (16 * sideCluster s k sd + 10)

/-! ## TX ends of a side -/

def sideSending (s : State) (k : Nat) (sd : Side) : Bool := (endLanes s k sd).any fun n => !(s.txe n sd).idle

/-- The TX ends of a side go to electrical idle (R45), its exit clock ends too where nothing else uses them. -/
def sideIdle (k : Nat) (sd : Side) (s : State) : State :=
  let s := (endLanes s k sd).foldl (fun s n => s.txRest n sd) s
  if spanState s k sd = spSwitch then
    (sideClusters s k sd).foldl (fun s c => s.putCkExit c sd.dirOut { s.ckExit c sd.dirOut with idle := true }) s
  else s

/-- The TX ends leave idle, exit clock ends included, but for those with a fault class (R73, R75, R145). -/
def sideWake (k : Nat) (sd : Side) (s : State) : State :=
  let s := (sideClusters s k sd).foldl (fun s c =>
    let e := s.ckExit c sd.dirOut
    if e.txFault = 0 then s.putCkExit c sd.dirOut { e with idle := false } else s) s
  (endLanes s k sd).foldl (fun s n =>
    if s.rd (leTxFault n sd) = 0 then s.putTx n sd { s.txe n sd with idle := false } else s) s

/-- An EIE set falls due on a side that sends (R65, R172). -/
def sideEie (k : Nat) (sd : Side) (s : State) : State :=
  if sideSending s k sd && (s.side k sd).cur ≠ .eie then s.putSide k sd { s.side k sd with eieDue := true } else s

/-- Lanes leave a side: those of their TX ends that send have yet to send EIE (R65). A bobbin's TX ends fall idle without
(R316). -/
def lanesLeave (k : Nat) (sd : Side) (lanes : List Nat) (s : State) : State :=
  let x := s.side k sd
  s.putSide k sd { x with leaving := x.leaving ++ lanes.filter fun n => n < 128 && !(s.txe n sd).idle && !x.leaving.contains n }

/-! ## Board-table settings that wait for a training (R125, R126, R132) -/

/-- Caps, blind rungs and clock flags of a cluster take effect. -/
def putPlan (c : Nat) (rec : List Nat) (s : State) : State :=
  let old := s.bt.caps
  let caps := (List.range 64).map fun i =>
    if i / 4 = c then rec.getD (i % 4) 0 else old.getD i (if i % 4 < 2 then 0x44 else 0)
  let f := rec.getD 2 0
  [Dir.ab, Dir.ba].foldl (fun s d =>
    let b := 4 * d.idx
    ((s.wrB (R.CK_CFG_fallback c d.idx) (bit f b)).wrB (R.CK_CFG_borrow_en c d.idx) (bit f (b + 1))).wrB
      (R.CK_CFG_standby c d.idx) (bit f (b + 2))) { s with bt := { s.bt with caps := caps } }

/-- The waiting record of a cluster takes effect when a span of it trains. -/
def applyPlan (c : Nat) (s : State) : State :=
  match s.bt.newCaps.find? fun p => p.1 = c with
  | some p => putPlan c p.2 { s with bt := { s.bt with newCaps := s.bt.newCaps.filter fun q => q.1 ≠ c } }
  | none => s

/-- The waiting records of a side's clusters take effect: its span trains. -/
def applyPlans (k : Nat) (sd : Side) (s : State) : State := (sideClusters s k sd).foldl (fun s c => applyPlan c s) s

/-- A POLARITY byte loads LE_CFG of one side of a lane. -/
def putPol (n : Nat) (sd : Side) (v : Nat) (s : State) : State :=
  let c := laneCluster n
  let j := lanePos n
  let b := 2 + 2 * sd.idx
  ((s.wrB (R.LE_CFG_tx_pol c j sd.idx) (bit v sd.idx)).wrB (R.LE_CFG_rx_pol_auto c j sd.idx) (bit v b)).wrB
    (R.LE_CFG_rx_pol_force c j sd.idx) (bit v (b + 1))

/-- The waiting polarity of a lane side. -/
def waitingPol (n : Nat) (sd : Side) (s : State) : State :=
  match s.bt.polPend.find? fun p => p.1 = rxKey n sd with
  | some p => putPol n sd p.2 { s with bt := { s.bt with polPend := s.bt.polPend.filter fun q => q.1 ≠ rxKey n sd } }
  | none => s

/-- An RX end in auto mode is to decide its polarity anew (R66, R67): it goes on with normal polarity, and where that turns its
symbols at a PAM4 rate, it searches for commas again (DEDUCED; log 227). -/
def polRestart (n : Nat) (sd : Side) (s : State) : State :=
  let s := s.putRx n sd { s.rxe n sd with polDecided := false }
  if !s.on (leInv n sd) then s else
  let s := s.wr (leInv n sd) 0
  if isPam (ckRate s (laneCluster n) sd.dirIn) then rxAgain n sd s else s

/-- The exit clock end of a side follows tx_pol of lane position 0 (R80). -/
def exitPol (n : Nat) (sd : Side) (s : State) : State :=
  let c := laneCluster n
  if lanePos n ≠ 0 then s
  else s.putCkExit c sd.dirOut { s.ckExit c sd.dirOut with pol := s.on (R.LE_CFG_tx_pol c 0 sd.idx) }

/-- An RX end decodes symbols: every one but that of a TRANSPARENT link (R68). -/
def decodes (s : State) (n : Nat) (sd : Side) : Bool :=
  match endUse s n sd with
  | some (k, _) => modeOf s k ≠ mTransparent
  | none => true

/-- An RX end decides its polarity itself: in auto mode, but not in a TRANSPARENT link (R68) or under a checker (R388). -/
def polAuto (s : State) (n : Nat) (sd : Side) : Bool :=
  s.on (R.LE_CFG_rx_pol_auto (laneCluster n) (lanePos n) sd.idx) && decodes s n sd && !checked s n sd

/-- The polarity of LE_CFG comes into force at an RX end: decided anew in auto mode (R67), else as forced. -/
def rxPolApply (n : Nat) (sd : Side) (s : State) : State :=
  if polAuto s n sd then polRestart n sd s
  else s.wrB (leInv n sd) (s.on (R.LE_CFG_rx_pol_force (laneCluster n) (lanePos n) sd.idx))

/-- The polarity an end runs with when its span trains, as LE_CFG stands. -/
def applyPol (n : Nat) (sd : Side) (s : State) : State :=
  let c := laneCluster n
  let j := lanePos n
  let s := exitPol n sd (waitingPol n sd s)
  rxPolApply n sd (s.putTx n sd { s.txe n sd with pol := s.on (R.LE_CFG_tx_pol c j sd.idx), polPend := none })

/-! ## Entering ACQUIRE (R145, R153) -/

/-- A span enters ACQUIRE at a rung: presets are loaded, TX ends send, every RX end asks for acquisition. -/
def acquireEnter (k : Nat) (sd : Side) (rung : Nat) (s : State) : State :=
  let s := (setSpan k sd spAcquire (applyPlans k sd s)).wr (R.SPAN_STAT_rung k sd.idx) rung
  let s := s.modSpan k sd fun x => { x with
    capAcc := false, passes := false, passSent := false, passRcvd := false, thruRcvd := false, judged := false, ackRep := none,
    rateTarget := none, rateSends := 0, samples := [], requests := 0, echoOut := false, goWait := false, acqFrom := s.clock }
  let s := denseOver k sd (setDense k sd false (sideWake k sd s))
  (endLanes s k sd).foldl (fun s n =>
    let s := applyPol n sd (loadRx n sd rung (loadTx n sd rung s))
    let s := s.putRx n sd { s.rxe n sd with misses := 0, remeasure := false }
    acqRequest n sd rung (s.wr (R.DSKW_valid (laneCluster n) (lanePos n) sd.idx) 0)) s

/-! ## DOWN and IDLE (R153, R204) -/

/-- What a span gives up when it leaves the training states and UP. -/
def spanClear (k : Nat) (sd : Side) (s : State) : State :=
  let s := sideEie k sd s
  let s := (endLanes s k sd).foldl (fun s n => acqCancel n sd s) s
  let s := ((s.wr (R.SPAN_STAT_retraining k sd.idx) 0).wr (R.SPAN_STAT_rung k sd.idx) 7).wr (R.SPAN_STAT_blind k sd.idx) 0
  s.modSpan k sd fun x => { x with held := 0, rateTarget := none, ackRep := none, echoOut := false, goWait := false, directRung := none }

/-- One span enters DOWN with a fault. -/
def spanDown (k : Nat) (sd : Side) (fault : Nat) (byCmd : Bool) (s : State) : State :=
  let s := (spanClear k sd s).modSpan k sd fun x => { x with byCmd := byCmd, downAt := s.fab }
  let s := ((setSpan k sd spDown s).wr (R.SPAN_STAT_fault k sd.idx) fault).bump (R.TRN_CNT_downs k)
  bobSideDown k sd (trnSource k sd s)

/-- The clusters of a link that nothing uses idle. -/
def linkClocks (k : Nat) (s : State) : State :=
  let cs := ((usedSides s k).flatMap fun sd => sideClusters s k sd).eraseDups
  cs.foldl (fun s c => idleClocks c s) s

/-- A span that enters DOWN takes every span of its link to DOWN (R153), each with the same fault; the link's traffic goes
(R204). Spans in IDLE stay there. -/
def linkDown (k fault : Nat) (byCmd : Bool) (s : State) : State :=
  let s := (usedSides s k).foldl (fun s sd =>
    if spanState s k sd = spIdle || spanState s k sd = spDown then s else spanDown k sd fault byCmd s) s
  linkClocks k ((linkDropTraffic k s).putLink k { s.link k with tUp := none })

/-- A span sequencer goes to IDLE and holds there (R302, R409); a TRANSPARENT link stops, and sends EIE like the others (R35,
R36). -/
def spanHold (k : Nat) (sd : Side) (s : State) : State :=
  let idle : Bool := (spanState s k sd = spDown || spanState s k sd = spIdle) && modeOf s k ≠ mTransparent
  let s := if idle then s else spanClear k sd s
  let s := (setSpan k sd spIdle s).wr (R.SPAN_STAT_rung k sd.idx) 7
  linkClocks k (s.putLink k { s.link k with tUp := none, running := false })

/-! ## Retraining (R154-R157) -/

/-- Calibration runs on the ends of a span's directions end ABORTED as it enters SWITCH (R369), and eye measurements, whose ends
leave service (R370; DEDUCED, log 278). -/
def spanAbort (k : Nat) (sd : Side) (s : State) : State :=
  (spanDirs s k sd).foldl (fun s p => dirAbort p.1 p.2 (eyeAbortDir p.1 p.2 s)) s

/-- One span starts a retrain: in ACQUIRE at its rung, or through SWITCH to another. A rate plan that has waited for it and
closes a direction makes it untrainable (R132, R137). -/
def retrainSpan (k : Nat) (sd : Side) (sw : Option Nat) (s : State) : State :=
  let s := applyPlans k sd s
  if planMax s k sd = 7 then linkDown k ftGroup false s else
  let rung := spanRung s k sd
  let s := (trnSource k sd (s.bump (R.TRN_CNT_retrains k))).wr (R.SPAN_STAT_retraining k sd.idx) 1
  let s := s.modSpan k sd fun x => { x with held := 0, trainFrom := s.clock, idleFrom := s.clock }
  let s := postTrn k sd (mkTrn s k sd trnRETRAIN) s
  let s := match sw with
    | none => acquireEnter k sd rung s
    | some r => spanAbort k sd (setSpan k sd spSwitch (s.modSpan k sd fun x => { x with toRung := r }))
  syncFreeze k sd s

/-- Another span of the link is retraining (R157). -/
def siblingRetrains (s : State) (k : Nat) (sd : Side) : Bool :=
  sideUsed s k sd.other && spanRetraining s k sd.other

/-- The span goes to SWITCH for a rung; sets that waited to be sent at the old one go with it. -/
def switchTo (k : Nat) (sd : Side) (rung : Nat) (s : State) : State :=
  let s := s.putSide k sd { s.side k sd with trnDue := [] }
  spanAbort k sd (setSpan k sd spSwitch (s.modSpan k sd fun x =>
    { x with toRung := rung, rateTarget := none, ackRep := none, idleFrom := s.clock }))

/-- A training span of a group that moves goes with it to the rung (R12, R136). -/
def followRung (rung k : Nat) (sd : Side) (s : State) : State :=
  let st := spanState s k sd
  if st = spSwitch then s.modSpan k sd fun x => { x with toRung := rung }
  else if spAcquire ≤ st && st ≤ spArmed && spanRung s k sd ≠ rung then sideEie k sd (switchTo k sd rung s)
  else s

/-- A retrain is triggered on a span in UP (R154, R155): through SWITCH (`sw` gives the rung) it takes every span of the
group in UP together, and those in training with them (R12). A trigger on a span whose link already has a retrain is held (R157); one of a whole group waits on the
member whose link has it. -/
def retrain (k : Nat) (sd : Side) (sw : Option Nat) (received : Bool) (s : State) : State :=
  if !spanUp s k sd then s else
  match sw with
  | none =>
    if siblingRetrains s k sd then
      let s := s.modSpan k sd fun x => { x with held := 1, heldRung := 7 }
      if received then postTrn k sd (mkTrn s k sd trnRETRAIN) s else s
    else retrainSpan k sd none s
  | some r =>
    let all := rateGroup s k sd
    let g := all.filter fun p => spanUp s p.1 p.2
    match g.find? fun p => siblingRetrains s p.1 p.2 with
    | some p => s.modSpan p.1 p.2 fun x => { x with held := 2, heldRung := r }
    | none =>
      let s := (all.filter fun p => !g.contains p).foldl (fun s p => followRung r p.1 p.2 s) s
      g.foldl (fun s p => retrainSpan p.1 p.2 (some r) s) s

/-- A clock event demands that the spans with an end in a direction retrain (R97, R100, R102). -/
def clockDemand (c : Nat) (d : Dir) (s : State) : State :=
  (spansIn s c d).foldl (fun s p =>
    if modeOf s p.1 = mTransparent then s else retrain p.1 p.2 (some (spanRung s p.1 p.2)) false s) s

/-- A direction that runs at a rung already stays as it is when a span takes it at that rung; not where a TRANSPARENT link
starts in one that runs in FALLBACK (R103). -/
def staysAt (s : State) (rung : Nat) (p : Nat × Dir) : Bool :=
  ckRate s p.1 p.2 = rung && s.on (R.CK_STAT_pll_lock p.1 p.2.idx) && ckMode s p.1 p.2 ≠ ckOff &&
  !(carriesTransparent s p.1 p.2 && ckMode s p.1 p.2 = ckFallback)

/-- The directions of a span retune to a rung, but for those that run at it already; a borrower that loses its clock by it
retrains (R100, R145). The clusters of an x16 side come to one clock mode (R13). -/
def retune (k : Nat) (sd : Side) (rung : Nat) (s : State) : State :=
  let ms := (spanDirs s k sd).filter fun p => spanRetraining s k sd || !staysAt s rung p
  let s := ms.foldl (fun s p =>
    match ckTrain ms p.1 p.2 rung s with
    | (false, s) => s
    | (true, s) => clockDemand (partner p.1) p.2 s) s
  ms.foldl (fun s p => clockApart p.1 p.2 s) s

/-- A span trains at a rung: its clocks retune and it enters ACQUIRE. -/
def trainAt (k : Nat) (sd : Side) (rung : Nat) (s : State) : State := acquireEnter k sd rung (retune k sd rung (applyPlans k sd s))

/-! ## Blind start (R26, R127, R148) -/

/-- The ring holds three or more packages (R26): the head counts the ids it enumerated; another package stands at position
2 or beyond on some ring (DEDUCED; log 206). -/
def ringOfThree (s : State) : Bool :=
  if isHead s then 3 ≤ ((List.range 8).filter fun i => bit (s.rd R.PCT_STAT_present) i).length
  else [0, 1].any fun r => 2 ≤ ringPos s r (ownId s) && ringPos s r (ownId s) ≠ 15

/-- Blind start is in force (R26, R127, R468): the boot mode BLIND, BOOT_OPT.start, or a ring of three or more. -/
def blindSystem (s : State) : Bool := s.rd R.STRAPS_boot_eff = 1 || s.bt.start = 1 || ringOfThree s

/-- The GO fabric time, once known, has been reached. -/
def goReached (s : State) : Bool :=
  let t := s.live R.PCT_GO_LO_t_go
  t ≠ 0 && t ≤ s.fab

/-! ## DETECT (R141, R147-R149, R153) -/

/-- The map entries of every used side of a link are valid (R313). -/
def mapsValid (s : State) (k : Nat) : Bool := (usedSides s k).all fun sd => s.on (R.SIDE_MAP_valid (sideEntry k sd))

/-- The span may leave IDLE or DOWN: a configured link, SERVICE or GUARD, not fenced (R153), not broken before make. -/
def mayTrain (s : State) (k : Nat) (sd : Side) : Bool :=
  hasSequencer s k sd && inRun s && !linkFenced s k && mapsValid s k

/-- Another link side in use claims one of a side's lane sides under the map words (R10, R311). -/
def mapClaimed (s : State) (k : Nat) (sd : Side) : Bool :=
  let l := mapLanes s k sd (sideWidth s k sd)
  (List.range (linksOf s)).any fun j => j ≠ k && sideUsed s j sd && s.on (R.SIDE_MAP_valid (sideEntry j sd)) &&
    (mapLanes s j sd (sideWidth s j sd)).any l.contains

/-- The map of a side in use breaks R311 (R10, R312). -/
def liveMapBad (s : State) (k : Nat) (sd : Side) : Bool :=
  sideMapBad s k sd (sideWidth s k sd) || mapClaimed s k sd ||
  (isSameLanes (modeOf s k) && mapLanes s k .a (sideWidth s k .a) ≠ mapLanes s k .b (sideWidth s k .b))

/-- A span enters DETECT: termination detection starts on its TX ends and the group draws a new N. `fresh` is false where a
figure failed at L0 within a training: failed marks, the round trip, the value received and the cap of R148 then stay.
`direct` asks for the start of R149. -/
def detectEnter (k : Nat) (sd : Side) (fresh direct : Bool) (s : State) : State :=
  let s := applyPlans k sd s
  if liveMapBad s k sd then
    if spanState s k sd = spDown then s.wr (R.SPAN_STAT_fault k sd.idx) ftLanes
    else
      let s := linkDown k ftLanes false s
      if spanState s k sd = spDown then s else spanDown k sd ftLanes false s
  else if planMax s k sd = 7 then ((spanHold k sd s).wr (R.SPAN_STAT_fault k sd.idx) ftGroup)
  else if fresh && (blindSystem s || direct) && !(direct && (s.span k sd).lastUpRung ≠ 7) && spanBlind s k sd = 7 then
    spanHold k sd s
  else
    let s := bobJoin k sd s
    let old := s.span k sd
    let blind := blindSystem s || direct
    let start := if !blind || !fresh then none
      else some (if direct && old.lastUpRung ≠ 7 then old.lastUpRung else spanBlind s k sd)
    let s := setSpan k sd spDetect s
    let s := if fresh then
        ((s.wr (R.SPAN_STAT_failed k sd.idx) 0).wr (R.RTT_valid k sd.idx) 0).wr (R.SPAN_NBR_in_elect k sd.idx) 0
      else s
    let s := s.wr (R.SPAN_STAT_rung k sd.idx) (start.getD 0)
    let s := s.wrB (R.SPAN_STAT_blind k sd.idx) start.isSome
    let s := s.putSpan k sd { directRung := start, lastUpRung := old.lastUpRung, goWait := start.isSome && !direct,
                              blindCap := if fresh then 7 else old.blindCap,
                              l0Fails := if fresh then 0 else old.l0Fails, collisions := if fresh then 0 else old.collisions,
                              trainFrom := if fresh then s.clock else old.trainFrom,
                              capFrom := if fresh then s.clock else old.capFrom }
    let s := (endLanes s k sd).foldl (fun s n => s.putTx n sd { s.txe n sd with detecting := true }) s
    let s := (sideClusters s k sd).foldl (fun s c =>
      let e := s.ckExit c sd.dirOut
      if e.idle then s.putCkExit c sd.dirOut { e with detecting := true } else s) s
    electDraw (rateGroup s k sd) s

/-- Some direction of the span would train in FALLBACK (R84) while REFCLK is not judged good (R329): one that does not run yet, or
is to train anew. -/
def refclkWaits (s : State) (k : Nat) (sd : Side) : Bool :=
  !refGood s && (spanDirs s k sd).any fun p => ckMode s p.1 p.2 = ckOff && !carriesTransparent s p.1 p.2 &&
    !(modeMates s p.1).all (mayForward s p.2)

/-- The rung at which a busy span of the rate group, or a running TRANSPARENT link, holds it (R12, R147). -/
def groupRung (s : State) (k : Nat) (sd : Side) : Option Nat :=
  match transRung s k sd with
  | some r => some r
  | none => ((othersOf (rateGroup s k sd) k sd).find? fun p =>
      spAcquire ≤ spanState s p.1 p.2 && spanState s p.1 p.2 ≤ spUp).map fun p =>
        if spanState s p.1 p.2 = spSwitch then (s.span p.1 p.2).toRung else spanRung s p.1 p.2

/-- Termination detection found the side clean: ACQUIRE at the start rung, or the wait for GO (R147-R149, R153). A group
that holds busy spans, or a running TRANSPARENT link, is joined at its rung; so the first span of a group to leave DETECT
fixes the rung of spans with other blind rungs (DESIGN CHOICE; log 228). -/
def detectGo (k : Nat) (sd : Side) (s : State) : State :=
  let x := s.span k sd
  if spanState s k sd ≠ spDetect then s
  else if (x.goWait && !goReached s) || refclkWaits s k sd then s
  else trainAt k sd ((groupRung s k sd).getD (x.directRung.getD 0)) s

/-- Detection is done on a span in DETECT, and its lanes are clean: it goes on to ACQUIRE (R153). -/
def detectCheck (k : Nat) (sd : Side) (s : State) : State :=
  let lanes := endLanes s k sd
  if spanState s k sd = spDetect && !sideSending s k sd && lanes.all (fun n => !(s.txe n sd).detecting && s.rd (leTxFault n sd) = 0) &&
      !(sideClusters s k sd).any (fun c => (s.bob c).detect && bobOn s c k sd)
  then detectGo k sd s else s

/-- The spans that wait in DETECT go on where nothing holds them any more: GO has come (R148), REFCLK is judged good, or an
entry clock end has qualified (R329). -/
def detectAll (s : State) : State := (activeSpans s).foldl (fun s p => detectCheck p.1 p.2 s) s

/-! ## Stepping (R144, R145, R150) -/

/-- A RATE goes out on a led span, which enters STEP. -/
def sendRate (target : Nat) (k : Nat) (sd : Side) (s : State) : State :=
  let x := s.span k sd
  let tag := (x.rateTag + 1) % 256
  let s := (setSpan k sd spStep s).putSpan k sd { x with
    rateTarget := some target, rateTag := tag, rateSends := 1, ackRep := none, rateAt := s.clock }
  postTrn k sd { mkTrn s k sd trnRATE with target := target, tag := tag } s

/-! ## TRANSPARENT links (R41, R84, R135) -/

/-- A span that shares a cluster direction with a TRANSPARENT link goes to its rung (R12, R136): from UP by a retrain, in a
training state through SWITCH (DEDUCED; log 225). -/
def toTransRung (rung k : Nat) (sd : Side) (s : State) : State :=
  if spanUp s k sd then (if spanRung s k sd = rung then s else retrainSpan k sd (some rung) s)
  else followRung rung k sd s

/-- A side of a TRANSPARENT link starts: its directions run at the configured rung, and so do the spans that share them; its
TX ends send, and each RX end asks for acquisition. Of two TRANSPARENT links of different rungs in one FORWARDED direction the
later to start retunes it (DESIGN CHOICE; log 256); no max rung of a rate plan holds one back (DESIGN CHOICE; log 260). -/
def transSide (k : Nat) (sd : Side) (s : State) : State :=
  let rung := s.rd (R.LNK_CFG_LIVE_rung k sd.idx)
  let s := s.putSide k sd { s.side k sd with eieDue := false }
  let s := sideWake k sd (retune k sd rung (applyPlans k sd s))
  let s := (endLanes s k sd).foldl (fun s n => acqRequest n sd rung (applyPol n sd (loadRx n sd rung (loadTx n sd rung s)))) s
  (rateGroup s k sd).foldl (fun s p => if p.1 = k then s else toTransRung rung p.1 p.2 s) s

/-- A TRANSPARENT link starts where the map of its sides is whole; else it is held, with fault LANES (R10, R312, R313; that a link
without a sequencer shows the fault in IDLE is DEDUCED, log 265). -/
def transStart (k : Nat) (s : State) : State :=
  if mapsValid s k && !(usedSides s k).any (liveMapBad s k) then
    (usedSides s k).foldl (fun s sd => transSide k sd s) (s.putLink k { s.link k with running := true })
  else (usedSides s k).foldl (fun s sd => (spanHold k sd s).wr (R.SPAN_STAT_fault k sd.idx) ftLanes) s

/-- Every span of a link trains from DETECT where it may (R149, R153). -/
def linkTrain (direct : Bool) (k : Nat) (s : State) : State :=
  if modeOf s k = mTransparent then (if inRun s && !linkFenced s k then transStart k s else s) else
  (usedSides s k).foldl (fun s sd =>
    if mayTrain s k sd && spanState s k sd = spIdle then detectEnter k sd true direct s else s) s

/-- A span in DOWN restarts once its hold is over (R153); one taken down by the host's command waits for RESTART. -/
def downRestart (k : Nat) (sd : Side) (s : State) : State :=
  let x := s.span k sd
  if spanState s k sd = spDown && !x.byCmd && x.downAt + 1000000 ≤ s.fab && mayTrain s k sd then
    detectEnter k sd true (blindSystem s) s
  else s

/-! ## Groups (R144, R151) -/

/-- Members of a group in the states from ACQUIRE to ARMED. -/
def groupTraining (s : State) (g : List (Nat × Side)) : Bool := g.all fun p =>
  spAcquire ≤ spanState s p.1 p.2 && spanState s p.1 p.2 ≤ spArmed

/-- The group does not step: a span of it is in UP, or retrains without the others (R147, R155), it shares a direction with a
TRANSPARENT link, or it trains under blind or direct start (R148, R149). -/
def groupFixed (s : State) (g : List (Nat × Side)) : Bool :=
  g.any fun p => spanUp s p.1 p.2 || (transRung s p.1 p.2).isSome || s.on (R.SPAN_STAT_blind p.1 p.2.idx)

/-- The span trains in a group whose rung another link in UP, or a TRANSPARENT link, holds (R147). -/
def groupJoined (s : State) (k : Nat) (sd : Side) : Bool :=
  (transRung s k sd).isSome || (rateGroup s k sd).any fun p => p.1 ≠ k && spanUp s p.1 p.2

/-- Both sides of the span passed at its rung. -/
def spanPassed (s : State) (p : Nat × Side) : Bool := let x := s.span p.1 p.2; x.passSent && x.passRcvd

/-- A span enters MEASURE and sends its first ECHO_REQ (R151). -/
def measureEnter (k : Nat) (sd : Side) (s : State) : State :=
  let s := (setSpan k sd spMeasure s).modSpan k sd fun x =>
    { x with samples := [], requests := 1, echoTag := 0, echoOut := true, echoAt := s.clock }
  postTrn k sd (mkTrn s k sd trnECHOREQ) s

/-- A group moves on (R144, R151): a step down as soon as the target falls, or once a step in progress is over (DESIGN CHOICE but
for a failed figure, of which R159 says so; log 263), a step up when every span has passed, MEASURE at
the target rung. A group that follows a span waits for its RATE. -/
def groupStep (k : Nat) (sd : Side) (s : State) : State :=
  let g := rateGroup s k sd
  let fixed := groupFixed s g
  let target := targetRung s g
  let rung := spanRung s k sd
  let following := g.any fun p => follows s p.1 p.2
  let led := g.filter fun p => leads s p.1 p.2
  let stepping := g.any fun p => spanState s p.1 p.2 = spStep || spanState s p.1 p.2 = spSwitch
  if !fixed && !following && led ≠ [] && target < rung && !stepping then
    (led.filter fun p => spAcquire ≤ spanState s p.1 p.2 && spanState s p.1 p.2 ≤ spArmed).foldl
      (fun s p => sendRate target p.1 p.2 s) s
  else if !fixed && !following && led ≠ [] && rung < target && g.all (fun p => spanState s p.1 p.2 = spReady && spanPassed s p) &&
      led.all (fun p => !peerFacing s p.1 p.2 || thruHolds s p.1 p.2) then
    led.foldl (fun s p => sendRate (rung + 1) p.1 p.2 s) s
  else if (rung = target || fixed) && g.all (fun p => spanUp s p.1 p.2 ||
      ((spanState s p.1 p.2 = spReady || spanState s p.1 p.2 = spMeasure || spanState s p.1 p.2 = spArmed) && spanPassed s p)) then
    (g.filter fun p => spanState s p.1 p.2 = spReady).foldl (fun s p => measureEnter p.1 p.2 s) s
  else s

/-- The marks of a blind or direct start are cleared over a group, and every span is capped at its blind rung (R137, R148). -/
def blindOver (g : List (Nat × Side)) (s : State) : State :=
  g.foldl (fun s p =>
    let s := (s.wr (R.SPAN_STAT_blind p.1 p.2.idx) 0).wr (R.SPAN_STAT_failed p.1 p.2.idx) 0
    s.modSpan p.1 p.2 fun x => { x with blindCap := min (spanBlind s p.1 p.2) 4, directRung := none, goWait := false, capAtBlind := x.capAcc }) s

/-- A group leaves blind or direct start (R148, R150): every span goes to L0 if it is not there, by RATE where a CAP was
accepted and at once where none was. -/
def leaveBlind (g : List (Nat × Side)) (s : State) : State :=
  let s := blindOver g s
  (g.filter fun p => spAcquire ≤ spanState s p.1 p.2 && spanState s p.1 p.2 ≤ spArmed && spanRung s p.1 p.2 ≠ 0).foldl (fun s p =>
    if !(s.span p.1 p.2).capAtBlind then sideEie p.1 p.2 (switchTo p.1 p.2 0 s)
    else if leads s p.1 p.2 then sendRate 0 p.1 p.2 s else s) s

/-! ## Sides exchanged (R397) -/

/-- The one side that is configured to face an endpoint, where exactly one is. -/
def soleEp (s : State) (k : Nat) : Option Side :=
  match s.on (R.LNK_CFG_LIVE_ep k 0), s.on (R.LNK_CFG_LIVE_ep k 1) with
  | true, false => some .a
  | false, true => some .b
  | _, _ => none

/-- A side swap is reported with the link. -/
def sidesSwapped (k : Nat) (s : State) : State := s.wired 7 0 k (16 * sideCluster s k .a + 13)

/-- A span enters READY. At the first entry of both spans after DETECT the PEER bits received show whether the sides are
exchanged. -/
def readyEnter (k : Nat) (sd : Side) (s : State) : State :=
  let first := !(s.span k sd).reachedReady && (s.span k sd.other).reachedReady
  let s := (setSpan k sd spReady s).modSpan k sd fun x => { x with reachedReady := true }
  match soleEp s k with
  | some e => if first && peerFacing s k e && !peerFacing s k e.other then sidesSwapped k s else s
  | none => s

/-- A trunk side whose neighbour is no trunk goes DOWN with fault TRUNK (R143); the sides are exchanged where the other
side's neighbour is one. -/
def trunkFails (k : Nat) (sd : Side) (s : State) : State :=
  let swapped := (soleEp s k).isSome && s.on (R.SPAN_STAT_nbr_trunk k sd.other.idx)
  let s := linkDown k ftTrunk false s
  if swapped then sidesSwapped k s else s

/-- The quality figure of a span has failed at its rung (R146-R148, R153). -/
def figureFails (k : Nat) (sd : Side) (s : State) : State :=
  let rung := spanRung s k sd
  let g := rateGroup s k sd
  if (s.span k sd).judged && !(s.span k sd).passes then s
  else if groupJoined s k sd then linkDown k ftGroup false s
  else if rung = 0 then
    let s := s.modSpan k sd fun x => { x with l0Fails := x.l0Fails + 1 }
    let s := (endLanes s k sd).foldl (fun s n => acqCancel n sd s) (sideEie k sd s)
    let s := if s.on (R.SPAN_STAT_blind k sd.idx) then leaveBlind g s else s
    detectEnter k sd false false s
  else
    let s := trnSource k sd (s.bump (R.TRN_CNT_fallbacks k))
    let s := s.modSpan k sd fun x => { x with judged := true, passes := false, passSent := false }
    let s := s.wr (R.SPAN_STAT_failed k sd.idx) (s.rd (R.SPAN_STAT_failed k sd.idx) ||| 2 ^ rung)
    let s := if spanState s k sd = spAcquire || spanState s k sd = spQualify then readyEnter k sd s else s
    let s := postTrn k sd (mkTrn s k sd trnREADY) s
    if s.on (R.SPAN_STAT_blind k sd.idx) then leaveBlind g s else groupStep k sd s

/-- The figure passes (R146, R153): READY with PASS falls due, and the group moves on when it has been sent. -/
def figurePasses (k : Nat) (sd : Side) (s : State) : State :=
  let s := (readyEnter k sd s).modSpan k sd fun x => { x with judged := true, passes := true }
  postTrn k sd (mkTrn s k sd trnREADY) s

/-! ## The conditions of ACQUIRE (R69, R86, R146) -/

/-- Lane order by T1 (R69): 0 not yet known, 1 normal, 2 reversed, 3 fault. -/
def laneOrder (s : State) (k : Nat) (sd : Side) : Nat :=
  let lanes := endLanes s k sd
  let w := lanes.length
  let c := sideCluster s k sd
  if !s.on (R.ORDER_CFG_order_auto c sd.idx) then 1 else
  if lanes.any fun n => !s.on (R.LANE_NUM_num_valid (laneCluster n) (lanePos n) sd.idx) then 0 else
  let t := lanes.map fun n => (s.rxe n sd).t1
  if t = List.range w then 1 else if t = (List.range w).reverse then 2 else 3

/-- An RX end of a span is ready for the dwell: LOCKED, acquired, deskewed, and without RX_OPEN (R75, R146). -/
def laneQualified (s : State) (n : Nat) (sd : Side) : Bool :=
  isLocked s n sd && acquired s n sd && s.on (R.DSKW_valid (laneCluster n) (lanePos n) sd.idx) && !s.on (leRxOpen n sd)

/-- A span in ACQUIRE whose RX ends are all ready and on which a CAP has been accepted enters QUALIFY, where its dwell starts;
a lane-order fault takes it DOWN. -/
def qualifyCheck (k : Nat) (sd : Side) (s : State) : State :=
  let lanes := endLanes s k sd
  let c := sideCluster s k sd
  if spanState s k sd ≠ spAcquire || !(s.span k sd).capAcc then s
  else if !lanes.all (fun n => laneQualified s n sd) then s
  else match laneOrder s k sd with
    | 0 => s
    | 3 => linkDown k ftOrder false (wireFault 6 sd.idx k s)
    | o =>
      let rev := o = 2
      let s := if rev then s.wired 6 sd.idx k (16 * c + 13) else s
      let s := lanes.foldl (fun s n => s.putRx n sd { s.rxe n sd with dwell := 0 }) s
      setSpan k sd spQualify (s.wrB (R.ORDER_CFG_rev c sd.idx) rev)

/-- The length of the quality dwell in symbols (R146, R153); dwell values above 6 act as 6 (R160). -/
def dwellSymbols (s : State) (k : Nat) : Nat := 2 ^ (14 + min 6 (s.rd (R.TRN_CFG_dwell k)))

/-- The dwell passes (R146): no lane of the width has counted more than q_bad bad symbols in it, and the other conditions
hold still. -/
def dwellPasses (s : State) (k : Nat) (sd : Side) : Bool :=
  (endLanes s k sd).all fun n => laneQualified s n sd && (s.rxe n sd).dwell ≤ s.rd (R.TRN_CFG_q_bad k)

/-! ## Link-up (R152, R155, R303, R304) -/

/-- The link is armed: every span has completed MEASURE, or stays in UP beside a retrain, and every peer-facing span has
received THRU. -/
def armed (s : State) (k : Nat) : Bool :=
  let l := usedSides s k
  l.any (fun sd => spanState s k sd = spArmed) &&
  l.all fun sd => spanUp s k sd || (spanState s k sd = spArmed && (!peerFacing s k sd || (s.span k sd).thruRcvd))

/-- T_up is taken when the link is armed, and cancelled when it is not (R152). -/
def armCheck (k : Nat) (s : State) : State :=
  let x := s.link k
  if !armed s k then (if x.tUp.isSome then s.putLink k { x with tUp := none } else s)
  else if x.tUp.isSome then s
  else s.putLink k { x with tUp := some ((s.fab + 1999) / 1000 * 1000) }

/-- A span starts to carry traffic: four UP sets, source 16c + 10. -/
def upEnter (k : Nat) (sd : Side) (s : State) : State :=
  let was := spanRetraining s k sd
  let up := mkTrn s k sd trnUP
  let s := ((setSpan k sd spUp s).wr (R.SPAN_STAT_retraining k sd.idx) 0).wr (R.SPAN_STAT_blind k sd.idx) 0
  let s := s.modSpan k sd fun x => { x with lastUpRung := spanRung s k sd, ackRep := none }
  let s := [1, 2, 3, 4].foldl (fun s _ => postTrn k sd up s) s
  let s := if was && isTrunkSide s k sd then s.modTrunk (trunkKey s k sd) fun t => { t with consec := 0, expSince := false } else s
  let s := if was && isTrunkSide s k sd && modeOf s k = mBundle then
      let t := trunkKey s k sd
      let s := s.modTrunk t fun x => { x with ptr := 0, credit := entWeight (calEntry s (t - 1024) 0), curEnt := none }
      ((activeLls s).filter fun l => (llEndAt s l k sd).isSome).foldl (fun s l => postRec t l false s) s
    else s
  syncFreeze k sd (trnSource k sd s)

/-- Does a span's UP call for a re-check (R304)? -/
def upRecheck (s : State) (k : Nat) (sd : Side) : Bool :=
  s.on (R.LNK_PROOF_provisional k) || spanRung s k sd ≠ s.rd (R.LNK_PROOF_rung k sd.idx) ||
  peerFacing s k sd != (match sd with | .a => (s.link k).peerA | .b => (s.link k).peerB)

/-- T_up (R152): every armed span enters UP; a link that comes from DOWN starts its traffic. Held retrains start (R157). -/
def linkUp (k : Nat) (s : State) : State :=
  let t := (s.link k).tUp.getD s.fab
  let first := (usedSides s k).all fun sd => !spanUp s k sd && !spanRetraining s k sd
  let sides := (usedSides s k).filter fun sd => spanState s k sd = spArmed
  let s := s.putLink k { s.link k with tUp := none }
  let s := (s.wr (R.UP_TIME_LO_time k) (t % 2 ^ 32)).putLive (R.UP_TIME_HI_time k) (t / 2 ^ 32)
  let s := prkNotice (sides.foldl (fun s sd => upEnter k sd s) s)
  let s := if first then linkStart k s else s
  let s := s.putLink k { s.link k with everUp := true }
  let s := sides.foldl (fun s sd => if upRecheck s k sd then startRecheck 1 s else s) s
  (usedSides s k).foldl (fun s sd =>
    let x := s.span k sd
    if x.held = 0 then s else retrain k sd (if x.held = 2 then some x.heldRung else none) false s) s

end Sys2Proof.Machine
end

