-- ==== Sys2Proof/Machine/LoopOps.lean ====
section
/-!
DEFINITION. Lane loops and bobbin slices as they start and stop (R316, R374, R375, R381-R384, R386), with the pads, the
generators and the idle directions that go with them.
-/

namespace Sys2Proof.Machine

open Sys2Proof

/-! ## Pads and generators (R385-R387) -/

/-- A link drives the TX end; none does in TEST (R391). -/
def linkDrives (s : State) (n : Nat) (sd : Side) : Bool := (endUse s n sd).isSome && s.dev.phase ≠ .test

/-- The generator of a TX end follows its setting; `t` is the state before. -/
def genSync (t : State) (n : Nat) (sd : Side) (s : State) : State :=
  if genPattern s n sd = genPattern t n sd then s else s.putTx n sd { s.txe n sd with gen := (genPattern s n sd).map genStart }

/-- A TX end leaves electrical idle for a generator or a far-end loop, unless it has a fault class: its first symbol is a COM,
with which a SKP set of pattern 6 begins (R45; for raw patterns DEDUCED, log 277). -/
def padWake (n : Nat) (sd : Side) (s : State) : State :=
  if s.rd (leTxFault n sd) ≠ 0 then s else
  let s := s.putTx n sd { s.txe n sd with idle := false }
  if genPattern s n sd = some 6 then s else txSends n sd [symCOM] s

/-- TX ends follow what drives their pads, where no link does; one that nothing drives any longer sends EIE and falls idle
(R65). `t` is the state before. -/
def padSync (t : State) (n : Nat) (s : State) : State :=
  [Side.a, Side.b].foldl (fun s sd =>
    let s := genSync t n sd s
    if linkDrives s n sd || padDriven s n sd = padDriven t n sd then s
    else if padDriven s n sd then padWake n sd s
    else if (s.txe n sd).idle then s else eieRest sd s n) s

/-- The lane's loop, generator or checker has been set or stopped: pads, and an idle direction's PLL, follow (R386). -/
def testSync (t : State) (n : Nat) (s : State) : State := padSync t n (standbySync (laneCluster n) s)

/-- A loop, generator or checker on a lane stops at once (R386). -/
def loopStop (n : Nat) (s : State) : State :=
  let v := lanePage n
  let t := (s.wr (R.LB_CFG_active v) 0).wr (R.PRBS_GEN_en v) 0
  testSync s n ((t.wr (R.PRBS_CHK_en v) 0).wr (R.PRBS_STAT_lock v) 0)

def loopStopAll (s : State) : State := ((List.range 144).filter (loopOn s)).foldl (fun s n => loopStop n s) s

/-! ## Bobbin slices (R374, R375, R381-R384) -/

/-- The cluster whose bobbin a die tests. -/
def bobSliceOf (s : State) (d : Nat) : Option Nat := if d = 0 then s.bist.bob0 else s.bist.bob1

def State.setBobSlice (s : State) (d : Nat) (v : Option Nat) : State :=
  let b := if d = 0 then { s.bist with bob0 := v } else { s.bist with bob1 := v }
  { s with bist := b }.wrB (R.BST_STAT_bob_run d) v.isSome

def setLastBobbin (d c : Nat) (s : State) : State :=
  { s with bist := if d = 0 then { s.bist with last0 := c } else { s.bist with last1 := c } }

/-- The slice of a bobbin is over: its ends and PLLs are as READY has them (R384). -/
def bobSliceOff (d c : Nat) (s : State) : State :=
  testSync s (128 + c) ((s.setBobSlice d none).putBob c { s.bob c with slice := false, enabling := false, started := [] })

/-- A bobbin slice of die `d` ends with a result (R383, R384): it is recorded, 16c + 15 is raised, and a FAIL takes the
bobbin OUT with out_why BIST; a pass of the slice that ENABLE ordered makes it READY (R316). -/
def bobSliceEnd (d result cause errors : Nat) (s : State) : State :=
  match bobSliceOf s d with
  | none => s
  | some c =>
    let s := ((s.wr (R.BOB_RES_result c) result).wr (R.BOB_RES_cause c) cause).wr (R.BOB_RES_errors c)
      (min errors 65535)
    let s := setLastBobbin d c (s.wr (R.BOB_RES_rung c) (s.bob c).sliceRung)
    let enabling := (s.bob c).enabling
    let s := (bobSliceOff d c s).raise (16 * c + 15)
    if result = resFail then (s.wr (R.BOB_STAT_state c) bbOut).wr (R.BOB_STAT_out_why c) 2
    else if enabling && result = resPass then (s.wr (R.BOB_STAT_state c) bbReady).wr (R.BOB_STAT_out_why c) 0
    else s

/-- A bobbin slice is stopped. The bit errors that it had counted are not stated: a free value (log 214). -/
def bobSliceCut (d result cause : Nat) (s : State) : State :=
  if (bobSliceOf s d).isNone then s else
  let (i, s) := s.draw
  bobSliceEnd d result cause (Config.freeValue i % 65536) s

/-- A swap needs the bobbin (R32, R384, R394): a slice ends ABORTED; one that starts in this very cycle does not start. -/
def bobPreempt (d c : Nat) (s : State) : State :=
  if !(s.bob c).slice then s
  else if (s.bob c).sliceAt = s.clock then bobSliceOff d c s
  else bobSliceCut d resAborted causePreempt (s.bump (R.BOB_CNT_preempts c))

end Sys2Proof.Machine
end

