-- ==== Sys2Proof/Machine/SteerOps.lean ====
section
/-!
DEFINITION. Bobbin swaps as other chapters cause them (chapter Lane steering and bobbin lanes, R316-R322): triggers, the
steps of a swap, its abandonment, and what lane faults and losses of lock lead to.
-/

namespace Sys2Proof.Machine

open Sys2Proof

/-- Causes of BOB_STAT. -/
def swLock : Nat := 1
def swLos : Nat := 2
def swFault : Nat := 3
def swDetect : Nat := 4
def swHost : Nat := 5
def swPeer : Nat := 6

/-! ## The steps of a swap (R319) -/

/-- The side whose new RX end asks for acquisition next: that of the failed end first, one at a time. -/
def nextAsk (s : State) (c : Nat) : Option (Side × Nat) :=
  let b := s.bob c
  let us := (bobUsed s c).filter fun u => !b.dropped.contains u.1.idx && !bobSwitched s c u.1
  let us := (us.filter fun u => u.1.idx = b.failedSide) ++ us.filter fun u => u.1.idx ≠ b.failedSide
  if us.any fun u => b.asked.contains u.1.idx && !b.acqDone.contains u.1.idx then none
  else (us.find? fun u => !b.asked.contains u.1.idx).map fun u => (u.1, u.2.1)

/-- The next new RX end asks for acquisition, warm from the old end. -/
def bobAsk (c : Nat) (s : State) : State :=
  match nextAsk s c with
  | none => s
  | some (sd, k) =>
    let s := s.putBob c { s.bob c with asked := (s.bob c).asked ++ [sd.idx] }
    acqRequest (newLane s c) sd (spanRung s k sd) s

/-- The acquisition of a new RX end has ended for the switch (R320). -/
def bobAcqEnd (c : Nat) (sd : Side) (s : State) : State :=
  let b := s.bob c
  if b.asked.contains sd.idx && !b.acqDone.contains sd.idx then
    bobAsk c (s.putBob c { b with acqDone := b.acqDone ++ [sd.idx] })
  else s

/-- The steps of R319 start on every used side whose span is not down. -/
def swapSteps (c : Nat) (s : State) : State :=
  let s := s.putBob c { s.bob c with waiting := false }
  let new := newLane s c
  let old := oldLane s c
  let s := (bobUsed s c).foldl (fun s u =>
    let sd := u.1
    let rung := spanRung s u.2.1 sd
    if rung = 7 then s.putBob c { s.bob c with dropped := (s.bob c).dropped ++ [sd.idx] } else
    let s := loadRx new sd rung (loadTx new sd rung s)
    let s := s.putTx new sd { s.txe new sd with idle := s.rd (leTxFault new sd) ≠ 0 }
    let s := s.wr (R.DSKW_valid (laneCluster new) (lanePos new) sd.idx) 0
    let x := s.coefs new sd
    s.putCoef new sd { s.coefs old sd with ctle := x.ctle, vga := x.vga, acqRung := 7, due := [], blocks := 0, goodBlocks := 0 }) s
  bobFinish c (bobAsk c s)

/-- A switchover or a borrow is in progress in a direction of the cluster (R101). -/
def clockBusy (s : State) (c : Nat) : Bool :=
  [Dir.ab, Dir.ba].any fun d => (s.ck c d).switchFrom.isSome || (s.ck c d).borrowing

/-- A swap in DETECT tests the terminations of the bobbin's TX ends (R319). -/
def swapTest (c : Nat) (s : State) : State :=
  let s := s.putBob c { s.bob c with waiting := false }
  (bobUsed s c).foldl (fun s u => s.putTx (128 + c) u.1 { s.txe (128 + c) u.1 with detecting := true }) s

def swapDetectGo (c : Nat) (s : State) : State :=
  syncCluster c (if clockBusy s c then s.putBob c { s.bob c with waiting := true } else swapTest c s)

def swapGo (c : Nat) (s : State) : State :=
  let s := if clockBusy s c then s.putBob c { s.bob c with waiting := true } else swapSteps c s
  syncCluster c s

/-- A swap or return that waited for a clock event starts when the slices pass again (R101); its limit has stopped till then. -/
def swapResume (c : Nat) (s : State) : State :=
  if (s.bob c).waiting && !clockBusy s c then
    let s := s.putBob c { s.bob c with held := s.clock - (s.bob c).since }
    syncCluster c (if (s.bob c).detect then swapTest c s else swapSteps c s)
  else s

/-- A span whose TX ends are idle in DETECT. -/
def inDetect (s : State) (u : Side × Nat × Nat) : Bool := spanState s u.2.1 u.1 = spDetect && !sideSending s u.2.1 u.1

/-- A swap of lane position `p` starts (R316), with the side whose end failed and the side that it interrupts (2: none); loops on the lane and calibration runs on the bobbin's ends stop (R369, R386). -/
def swapBegin (c p cause failedSide intr : Nat) (s : State) : State :=
  let d := clusterDie c
  let s := bobPreempt d c s
  let s := engineNext c ([8, 17, 26, 35].foldl (fun s e => calAbort c e s) (loopStop (laneAt c p) s))
  let s := (s.wr (R.BOB_STAT_pos c) p).wr (R.BOB_STAT_cause c) cause
  let s := ((s.wr (R.BOB_STAT_done c 0) 0).wr (R.BOB_STAT_done c 1) 0).wr (R.BOB_TIME_ns c) 0
  let s := bobClear c (s.wr (R.BOB_STAT_state c) bbSwapping)
  let s := s.putBob c { s.bob c with since := s.clock, held := 0, failedSide := failedSide, inA := false, inB := false, dropped := [],
                                     dupA := none, dupB := none, rested := [], nbrAt := none,
                                     fails := if failedSide < 2 then [failedSide] else [],
                                     intr := intr, txFail := failedSide < 2 && s.rd (leTxFault (laneAt c p) (Side.ofIdx failedSide)) ≠ 0 }
  let us := bobUsed s c
  let detect := match us.find? fun u => u.1.idx = failedSide with
    | some u => inDetect s u
    | none => us.all fun u => inDetect s u || spanRung s u.2.1 u.1 = 7
  if detect then swapDetectGo c (s.putBob c { s.bob c with detect := true }) else swapGo c s

/-! ## Triggers (R316, R318, R327) -/

/-- The used sides of a data lane. -/
def laneSides (s : State) (n : Nat) : List (Side × Nat × Nat) :=
  [Side.a, Side.b].filterMap fun sd => (laneUse s n sd).map fun u => (sd, u)

/-- Every used side of the lane takes part: its neighbour does, and it is not TRANSPARENT. -/
def swappable (s : State) (c n : Nat) : Bool :=
  (laneSides s n).all fun u => s.on (R.BOB_CFG_en c u.1.idx) && modeOf s u.2.1 ≠ mTransparent

/-- The link side that side `sd` of data lane `n` serves goes down with fault LANES. -/
def laneDown (n : Nat) (sd : Side) (s : State) : State :=
  match laneUse s n sd with
  | some (k, _) => linkDown k ftLanes false s
  | none => s

/-- A trigger for data lane `n`, whose loops stop (R386): `failed` is the side whose end failed, `on` the one that the swap
interrupts, where the neighbour's end failed (R202). -/
def swapTrigger (n cause : Nat) (failed on : Option Side) (s : State) : State :=
  let c := laneCluster n
  let s := loopStop n s
  if bobState s c = bbReady && swappable s c n then
    swapBegin c (lanePos n) cause ((failed.map Side.idx).getD 2) ((on.map Side.idx).getD 2) s
  else match failed with
    | some sd => laneDown n sd s
    | none => s

/-- A trigger of the causes LOCK, LOS and FAULT, which need auto. -/
def autoTrigger (n cause : Nat) (sd : Side) (s : State) : State :=
  if s.on (R.BOB_CFG_auto (laneCluster n)) then swapTrigger n cause (some sd) (some sd) s else s

/-! ## Abandonment (R316) -/

/-- The TX ends of a lane that send on the used sides of lane n send EIE and fall idle (R65). -/
def spareRest (c n : Nat) (s : State) : State :=
  (bobUsed s c).foldl (fun s u => if (s.txe n u.1).idle then s else eieRest u.1 s n) s

/-- The TX ends of a lane that fell idle during a swap or return send again, but for those with a fault class. -/
def oldWake (c n : Nat) (s : State) : State :=
  (bobUsed s c).foldl (fun s u =>
    if (s.bob c).rested.contains u.1.idx && s.rd (leTxFault n u.1) = 0 then s.putTx n u.1 { s.txe n u.1 with idle := false } else s) s

/-- The swap or return in progress is abandoned: switched sides go back, and the old TX ends go on; the sides of failed ends
go down. `why` is 0, or out_why for a bobbin that goes OUT. -/
def swapAbandonTo (c why : Nat) (s : State) : State :=
  let st := bobState s c
  if st ≠ bbSwapping && st ≠ bbReturning then s else
  let swapping : Bool := st = bbSwapping
  let fails := (s.bob c).fails
  let old := oldLane s c
  let new := newLane s c
  let s := (bobUsed s c).foldl (fun s u => if bobSwitched s c u.1 then bobMove c u.1 (!swapping) s else s) (intrEnd c none s)
  let s := spareRest c new (oldWake c old s)
  let s := s.putBob c { s.bob c with dupA := none, dupB := none, rested := [] }
  let s := (s.bump (R.BOB_CNT_abandons c)).wr (R.BOB_STAT_result c) swAbandoned
  let s := (s.putBob c { s.bob c with dropped := [] }).wr (R.BOB_STAT_state c)
    (if !swapping then bbIn else if why = 0 then bbReady else bbOut)
  let s := if swapping && why ≠ 0 then s.wr (R.BOB_STAT_out_why c) why else s
  let s := if swapping then bobRest c s else
    let n := bobLane s c
    laneTxIdle n (laneOut n .b (laneOut n .a s))
  let s := syncCluster c ((bobClear c s).raise (16 * c + 11))
  if swapping then fails.foldl (fun s i => laneDown (bobLane s c) (Side.ofIdx i) s) s else s

/-- 20 µs have passed, or the region is fenced. -/
def swapAbandon (c : Nat) (s : State) : State := swapAbandonTo c (if bobFaulty s c then owFault else 0) s

/-! ## The switch (R320, R321) -/

/-- R320 as far as the model holds it: the new RX end LOCKED, its acquisition ended, its skew measured. That one slice has
arrived identical on both ends is what the command says. -/
def maySwitch (s : State) (c : Nat) (sd : Side) : Bool :=
  let n := newLane s c
  (bobState s c = bbSwapping || bobState s c = bbReturning) && !(s.bob c).waiting && !(s.bob c).detect &&
  (bobUsed s c).any (fun u => u.1 = sd) && !bobSwitched s c sd &&
  isLocked s n sd && !endFaulty s n sd && (s.bob c).acqDone.contains sd.idx && s.on (R.DSKW_valid c (lanePos n) sd.idx)

/-- A side switches; on the side whose RX end failed that ends the interruption (R325). A span in training restarts ACQUIRE at its rung; rung_max goes on (R159). -/
def bobSwitch (c : Nat) (sd : Side) (s : State) : State :=
  let swapping : Bool := bobState s c = bbSwapping
  let s := syncCluster c (bobMove c sd swapping s)
  let s := s.wr (R.BOB_STAT_done c sd.idx) 1
  let s := if swapping && (s.bob c).intr = sd.idx && !(s.bob c).txFail then intrEnd c (some s.clock) s else s
  let s := match laneUse s (bobLane s c) sd with
    | some (k, _) =>
      if spAcquire ≤ spanState s k sd && spanState s k sd ≤ spArmed && spanState s k sd ≠ spSwitch
      then (acquireEnter k sd (spanRung s k sd) s).modSpan k sd fun x => { x with acqFrom := (s.span k sd).acqFrom } else s
    | none => s
  bobFinish c s

/-- The termination detection of a DETECT swap is over (R319). -/
def detectSwapEnd (c : Nat) (clean : Bool) (s : State) : State :=
  let us := bobUsed s c
  let s := intrEnd c none (s.putBob c { s.bob c with detect := false })
  if clean then
    bobFinish c (us.foldl (fun s u => (bobMove c u.1 true s).wr (R.BOB_STAT_done c u.1.idx) 1) s)
  else
    let failed := (s.bob c).failedSide
    let s := swapAbandonTo c owFault s
    if failed < 2 then s else us.foldl (fun s u => laneDown (bobLane s c) u.1 s) s

/-! ## Returns (R316, R322) -/

def returnBegin (c : Nat) (s : State) : State :=
  let s := loopStop (bobLane s c) ((s.wr (R.BOB_STAT_done c 0) 0).wr (R.BOB_STAT_done c 1) 0)
  let s := bobClear c (s.wr (R.BOB_STAT_state c) bbReturning)
  swapGo c (s.putBob c { s.bob c with since := s.clock, held := 0, dropped := [], dupA := none, dupB := none, rested := [] })

/-- A CAP set of the neighbour has been accepted on the new end of a side (R319). In a swap for a failed TX end of that side the
neighbour switches within 5 µs of our first CAP (R323, R325): when, the spec leaves open (a free value; log 266). -/
def capHeard (c : Nat) (sd : Side) (s : State) : State :=
  if (s.bob c).capAcc.contains sd.idx then s else
  let s := s.putBob c { s.bob c with capAcc := (s.bob c).capAcc ++ [sd.idx] }
  if (s.bob c).intr = sd.idx && (s.bob c).txFail && (s.bob c).nbrAt.isNone then
    let (i, s) := s.draw
    s.putBob c { s.bob c with nbrAt := some (s.clock + Config.freeValue i % 5001) }
  else s

/-- Link position q of a span in training is received from the other of lane n's end and the bobbin's (R322): the span starts
ACQUIRE again at its rung (R159). -/
def takeFrom (c k : Nat) (sd : Side) (bobbin : Bool) (s : State) : State :=
  let s := bobRelease c (bobMove c sd bobbin s)
  if spAcquire ≤ spanState s k sd && spanState s k sd ≠ spSwitch
  then (acquireEnter k sd (spanRung s k sd) s).modSpan k sd fun x => { x with acqFrom := (s.span k sd).acqFrom } else s

/-- A TRN set with T1 = q is accepted on the end of the cluster that does not serve side `sd` of a link: the bobbin's, or
lane n's while the bobbin stands in (R322). `cap` says that it is a CAP; a span in training listens to every kind. -/
def spareCap (c k : Nat) (sd : Side) (q : Nat) (cap : Bool) (s : State) : State :=
  match (sideLanes s k sd)[q]? with
  | none => s
  | some n =>
    if laneCluster n ≠ c || !s.on (R.BOB_CFG_en c sd.idx) then s
    else
      let st := bobState s c
      if !cap && !spanTraining s k sd then s
      else if (st = bbSwapping || st = bbReturning) && bobLane s c = n then
        (if cap then capHeard c sd s else s)
      else if st = bbReady then
        (if spanUp s k sd then swapTrigger n swPeer none (some sd) s
         else if spanTraining s k sd then swapTrigger n swDetect none none s else s)
      else if st = bbIn && spanTraining s k sd && bobLane s c = n then
        (if (s.bob c).inOn sd then (if endFaulty s n sd then s else takeFrom c k sd false s)
         else if endFaulty s (128 + c) sd then s else takeFrom c k sd true s)
      else if st = bbIn && spanUp s k sd && bobLane s c = n && (s.bob c).inOn sd && !endFaulty s n .a && !endFaulty s n .b
      then returnBegin c s
      else s

/-! ## Failing ends (R73, R74, R154, R316, R318) -/

/-- An end of lane n has failed while the bobbin is brought in (R316): its side goes down if the swap is abandoned. -/
def swapFails (c : Nat) (sd : Side) (s : State) : State :=
  if (s.bob c).fails.contains sd.idx then s else s.putBob c { s.bob c with fails := (s.bob c).fails ++ [sd.idx] }

/-- A fault class has been set on an end of side `sd` of a lane. `tx` says that it is a TX end's class. -/
def endFailed (n : Nat) (sd : Side) (tx : Bool) (s : State) : State :=
  let c := laneCluster n
  let st := bobState s c
  if 128 ≤ n then
    if st = bbSwapping && tx then swapAbandonTo c owFault s
    else if st = bbIn && (s.bob c).inOn sd then
      let s := laneDown (bobLane s c) sd s
      bobRelease c (bobMove c sd false s)
    else s
  else if st = bbReturning && bobLane s c = n && !bobSwitched s c sd then swapAbandon c s
  else if st = bbSwapping && bobLane s c = n then swapFails c sd s
  else if st = bbIn && bobLane s c = n && (s.bob c).inOn sd then s
  else if (laneUse s n sd).isSome then autoTrigger n swFault sd s
  else s

/-- An RX end in service has left LOCKED (R154, R316, R318): cause LOCK or LOS. -/
def rxLost (n : Nat) (sd : Side) (cause : Nat) (s : State) : State :=
  let c := laneCluster n
  if n < 128 && bobState s c = bbReturning && bobLane s c = n && !bobSwitched s c sd && (s.bob c).acqDone.contains sd.idx then
    swapAbandon c s
  else match endUse s n sd with
    | none => s
    | some (k, _) =>
      if !spanUp s k sd then s
      else if (endLanes s k sd).all fun m => !isLocked s m sd then retrain k sd none false s
      else if 128 ≤ n then laneDown (bobLane s c) sd s
      else if bobState s c = bbSwapping && bobLane s c = n then swapFails c sd s
      else autoTrigger n cause sd s

end Sys2Proof.Machine
end

