-- ==== Sys2Proof/Machine/LaneEnds.lean ====
section
/-!
DEFINITION. Lane ends (chapter Lane ends and the line code, R43-R77): signal detect, symbol lock, the balance figure,
termination and short detection, and the lane-end registers.
-/

namespace Sys2Proof.Machine

open Sys2Proof

/-! ## Signal (R71, R74, R75) -/

/-- An RX end does not see its pads: its cluster is stopped, or a near-end loop feeds it (R385). -/
def rxDeaf (s : State) (n : Nat) (sd : Side) : Bool := clusterStopped s (laneCluster n) || nearLoop s n sd

/-- The polarity decided in auto mode is dropped; a forced one stays (R68). -/
def polDrop (n : Nat) (sd : Side) (s : State) : State :=
  let s := s.putRx n sd { s.rxe n sd with polSet := false, polDecided := false }
  if polAuto s n sd then s.wr (leInv n sd) 0 else s

/-- An RX end goes UNLOCKED. -/
def unlock (n : Nat) (sd : Side) (s : State) : State :=
  let s := (s.wr (leLock n sd) lkUnlocked).putRx n sd { s.rxe n sd with
    commas := 0, bad := 0, balRun := false, slip := none }
  steerSync (laneCluster n) (adaptLeaves n sd s)

/-- The assert and the deassert level of sd_level, in mV peak to peak (R76). -/
def sdLevels (s : State) (c : Nat) : Nat × Nat :=
  match s.rd (R.SD_CFG_sd_level c) with
  | 1 => (90, 60)
  | 2 => (40, 25)
  | _ => (60, 35)

/-- The loss-of-signal time in ns; 0 acts as 1 step of 100 ns (R76). -/
def losTime (s : State) (c : Nat) : Nat := 100 * max 1 (s.rd (R.SD_CFG_los_time c))

/-- SIGNAL_DETECT (R71): the amplitude has stayed above `mv` mV for `ns` ns. A request for acquisition that waited for it is queued (R115); an end of a TRANSPARENT link asks for
one (R135). -/
def execSignalDetect (e : LaneEnd) (x : Sensed) (s : State) : Host.Outcome State Fault Refusal :=
  onUnit (lanePresent s e.n) (if rxDeaf s e.n e.sd || s.on (leSd e.n e.sd) || x.mv < (sdLevels s (laneCluster e.n)).1 || x.ns < 100 then s else
    let s := ((s.wr (leSd e.n e.sd) 1).wr (leIdle e.n e.sd) 0).putRx e.n e.sd { s.rxe e.n e.sd with sdSince := some s.clock, losAt := none }
    let s := match endUse s e.n e.sd with
      | some (k, _) => if modeOf s k = mTransparent then acqRequest e.n e.sd (s.rd (R.LNK_CFG_LIVE_rung k e.sd.idx)) s
        else if (s.coefs e.n e.sd).acqRung ≠ 7 then acqQueue e.n e.sd s else s
      | none => if (s.coefs e.n e.sd).acqRung ≠ 7 then acqQueue e.n e.sd s else s
    steerSync (laneCluster e.n) s)

/-- An acquisition fails by loss of signal (R119): the end is OFF, and a span in training fails its figure. -/
def acqLost (n : Nat) (sd : Side) (s : State) : State :=
  if s.rd (estOf n sd) ≠ esAcquire then s else
  let s := bobAcqEnd (laneCluster n) sd (acqRemove n sd s)
  match endUse s n sd with
  | some (k, _) => if spAcquire ≤ spanState s k sd && spanState s k sd ≤ spArmed then figureFails k sd s else s
  | none => s

/-- RX ends have left LOCKED in one cycle: each that was in service is judged when all have left, so that a span that has lost
every lane at once retrains (R154); the lower lane position comes first (R327). -/
def rxLostAll (ends : List Nat) (sd : Side) (cause : Nat) (s : State) : State :=
  ((List.range 144).filter ends.contains).foldl (fun s n => rxLost n sd cause s) s

/-- The amplitude has stayed below `mv` mV for `ns` ns, long enough for the end to lose its signal (R71). -/
def losesSignal (s : State) (sd : Side) (mv ns n : Nat) : Bool :=
  lanePresent s n && !rxDeaf s n sd && s.on (leSd n sd) && mv ≤ (sdLevels s (laneCluster n)).2 && losTime s (laneCluster n) < ns

/-- An end loses its signal (R55, R71). A loss that began within 1 µs after an intact EIE set on the side is expected. -/
def signalLost (n : Nat) (sd : Side) (ns : Nat) (s : State) : State :=
    let c := laneCluster n
    let expected := match (endUse s n sd).bind fun u => (s.side u.1 sd).lastEie with
      | some t => decide (t + ns ≤ s.clock ∧ s.clock ≤ t + 1000 + ns)
      | none => false
    let s := ((s.wr (leSd n sd) 0).wrB (leIdle n sd) expected).putRx n sd { s.rxe n sd with sdSince := none, losAt := some s.clock }
    let s := if expected then s else s.raise (16 * c + 0)
    acqLost n sd (polDrop n sd (unlock n sd s))

/-- LOSS_OF_SIGNAL (R55, R71): the amplitude has stayed below `mv` mV for `ns` ns at the end, and in the same cycle at the ends
of the lanes `also`. -/
def execLossOfSignal (e : LaneEnd) (x : Sensed) (also : List Nat) (s : State) : Host.Outcome State Fault Refusal :=
  onUnit (lanePresent s e.n) (
    let ends := (e.n :: also).eraseDups.filter (losesSignal s e.sd x.mv x.ns)
    rxLostAll (ends.filter fun m => isLocked s m e.sd) e.sd swLos (ends.foldl (fun s m => signalLost m e.sd x.ns s) s))

/-- Another RX end of the same link side has signal detect. -/
def otherSignal (s : State) (n : Nat) (sd : Side) : Bool :=
  match endUse s n sd with
  | some (k, _) => (endLanes s k sd).any fun m => m ≠ n && s.on (leSd m sd)
  | none => false

/-- RX_OPEN (R74): no signal for more than 10 ms, counted from reset release for an end that has had none. -/
def execRxOpen (n : Nat) (sd : Side) (s : State) : Host.Outcome State Fault Refusal :=
  onUnit (lanePresent s n) (if rxDeaf s n sd || s.on (leSd n sd) || s.clock ≤ (s.rxe n sd).losAt.getD 0 + 10000000 || s.on (leRxOpen n sd) || !otherSignal s n sd then s else
    endFailed n sd false ((s.wr (leRxOpen n sd) 1).wired 3 sd.idx n (16 * laneCluster n + 12)))

/-- RX_OPEN_CLEAR (R75): signal detect has lasted 1 ms; a span that waited for the end may go on. -/
def execRxOpenClear (n : Nat) (sd : Side) (s : State) : Host.Outcome State Fault Refusal :=
  onUnit (lanePresent s n) (if !clusterStopped s (laneCluster n) && s.on (leSd n sd) && passed (s.rxe n sd).sdSince 1000000 s.clock && s.on (leRxOpen n sd) then
      let s := bobRelease (laneCluster n) (s.wr (leRxOpen n sd) 0)
      match endUse s n sd with
      | some (k, _) => qualifyCheck k sd s
      | none => s
    else s)

/-! ## Symbol lock (R54, R55, R66) -/

/-- Commas needed for LOCKED; values outside 2-8 clamp. -/
def acqCommas (s : State) (c : Nat) : Nat := max 2 (min 8 (s.rd (R.LOCK_CFG_acq_commas c)))

/-- The elastic buffer of an end is centred at entry to LOCKED, and EB_STAT with that of the reference lane (R91, R105). -/
def ebCentre (n : Nat) (sd : Side) (s : State) : State :=
  let c := laneCluster n
  if !hasEb s c sd.dirIn then s else
  let s := s.putRx n sd { s.rxe n sd with fill := 16, recentre := false }
  let ref := match endUse s n sd with
    | some (k, _) => (endLanes s k sd).find? fun m => laneCluster m = c && isLocked s m sd
    | none => none
  if ref = some n then s.wr (R.EB_STAT_fill c sd.dirIn.idx) 16 else s

/-- An RX end enters LOCKED: its windows start, T1 is read anew, it comes into service. -/
def lockEnd (n : Nat) (sd : Side) (s : State) : State :=
  let c := laneCluster n
  let j := lanePos n
  let x := s.rxe n sd
  let pam := isPam (ckRate s c sd.dirIn)
  let decided := x.polDecided || (pam && polAuto s n sd)
  let s := s.putRx n sd { x with
    winFrom := 850 * s.clock, commas := 0, bad := 0, misses := 0, balRun := pam, polSet := false, polDecided := decided }
  let s := ((s.wr (leLock n sd) lkLocked).wr (R.LANE_NUM_num_valid c j sd.idx) 0).wr (R.BAL_valid c j sd.idx) 0
  let s := ebCentre n sd s
  let s := steerSync c (adaptEnters n sd s)
  match endUse s n sd with
  | some (k, _) => qualifyCheck k sd s
  | none => s

/-- The first comma of an attempt: the end aligns to it; at the PAM4 rates it sets the polarity, at the NRZ rates an end
whose polarity is not decided starts with normal polarity (R54, R66, R67). -/
def alignEnd (n : Nat) (sd : Side) (offset : Nat) (mirror : Bool) (s : State) : State :=
  let c := laneCluster n
  let x := s.rxe n sd
  let pam := isPam (ckRate s c sd.dirIn)
  let auto := polAuto s n sd && !x.polDecided
  let s := (s.wr (leLock n sd) lkAligning).putRx n sd { x with commas := 1, offset := offset, polSet := auto && pam }
  if !auto then s
  else if pam && mirror then (s.wr (leInv n sd) 1).wired 4 sd.idx n (16 * c + 13)
  else s.wr (leInv n sd) 0

/-- The end decodes a comma: `plus` says that it is K28.5 as coded at positive running disparity, which the comma ends
(R49). -/
def commaRd (n : Nat) (sd : Side) (plus : Bool) (s : State) : State := s.putRx n sd { s.rxe n sd with rd := !plus }

/-- The bad-symbol count that ends LOCKED; 0 acts as 1 (R76). -/
def lolBad (s : State) (c : Nat) : Nat := max 1 (s.rd (R.LOCK_CFG_lol_bad c))

/-- An end goes UNLOCKED by its bad symbols (R55). -/
def lockDrop (n : Nat) (sd : Side) (s : State) : State :=
  let c := laneCluster n
  unlock n sd ((s.raise (16 * c + 1)).count (R.LOCKLOSS c (lanePos n) sd.idx))

/-- Ends leave LOCKED by their bad symbols in one cycle. -/
def locksLost (ends : List Nat) (sd : Side) (s : State) : State :=
  rxLostAll ends sd swLock (ends.foldl (fun s n => lockDrop n sd s) s)

/-- One more bad symbol in LOCKED: the one that reaches lol_bad ends it (R55). -/
def oneBad (n : Nat) (sd : Side) (s : State) : State :=
  if lolBad s (laneCluster n) ≤ (s.rxe n sd).bad + 1 then locksLost [n] sd s
  else s.putRx n sd { s.rxe n sd with bad := (s.rxe n sd).bad + 1 }

/-- COMMA_DETECT (R54, R55). At the PAM4 rates the 5 offsets 0-4 are searched, each in the received and in the mirrored
stream, at the NRZ rates the 10 offsets 0-9. -/
def execCommaDetect (e : LaneEnd) (offset : Nat) (mirror : Bool) (plus : Bool) (s : State) : Host.Outcome State Fault Refusal :=
  onUnit (lanePresent s e.n) (
    let x := s.rxe e.n e.sd
    let st := s.rd (leLock e.n e.sd)
    if clusterStopped s (laneCluster e.n) || !s.on (leSd e.n e.sd) || !decodes s e.n e.sd then s
    else if (if isPam (ckRate s (laneCluster e.n) e.sd.dirIn) then 5 else 10) ≤ offset then s
    else if st = lkUnlocked then commaRd e.n e.sd plus (alignEnd e.n e.sd offset mirror s)
    else if st = lkAligning then
      (if offset ≠ x.offset then
        (let s := if x.polSet then polDrop e.n e.sd s else s
         (s.wr (leLock e.n e.sd) lkUnlocked).putRx e.n e.sd { s.rxe e.n e.sd with commas := 0 })
       else if x.commas + 1 < acqCommas s (laneCluster e.n) then
         commaRd e.n e.sd plus (s.putRx e.n e.sd { x with commas := x.commas + 1 })
       else lockEnd e.n e.sd (commaRd e.n e.sd plus s))
    else if offset ≠ x.offset then oneBad e.n e.sd s else s)

/-- SYMBOL_LOCK_ACQUIRED (R55): the comma that completes the count. -/
def execSymbolLockAcquired (e : LaneEnd) (plus : Bool) (s : State) : Host.Outcome State Fault Refusal :=
  onUnit (lanePresent s e.n) (
    if !clusterStopped s (laneCluster e.n) && s.rd (leLock e.n e.sd) = lkAligning && acqCommas s (laneCluster e.n) ≤ (s.rxe e.n e.sd).commas + 1
    then lockEnd e.n e.sd (commaRd e.n e.sd plus s) else s)

/-- ALIGNING_BAD_SYMBOL (R55). -/
def execAligningBadSymbol (n : Nat) (sd : Side) (s : State) : Host.Outcome State Fault Refusal :=
  onUnit (lanePresent s n) (if clusterStopped s (laneCluster n) || s.rd (leLock n sd) ≠ lkAligning then s else
    let s := if (s.rxe n sd).polSet then polDrop n sd s else s
    (s.wr (leLock n sd) lkUnlocked).putRx n sd { s.rxe n sd with commas := 0 })

/-- One more bad symbol completes the count of the end's window. -/
def losesLock (s : State) (sd : Side) (n : Nat) : Bool :=
  lanePresent s n && !clusterStopped s (laneCluster n) && isLocked s n sd && lolBad s (laneCluster n) ≤ (s.rxe n sd).bad + 1

/-- LOCK_LOSS (R55): the bad symbol that completes the count of the window, at the end and in the same cycle at the ends of
the lanes `also`. -/
def execLockLoss (e : LaneEnd) (also : List Nat) (s : State) : Host.Outcome State Fault Refusal :=
  onUnit (lanePresent s e.n) (locksLost ((e.n :: also).eraseDups.filter (losesLock s e.sd)) e.sd s)

/-- The length of the bad-symbol window of an RX end, in 1/850 ns (R46, R55). -/
def lolWindow (s : State) (n : Nat) (sd : Side) : Nat :=
  2 ^ max 6 (min 12 (s.rd (R.LOCK_CFG_lol_win (laneCluster n)))) * symTime (ckRate s (laneCluster n) sd.dirIn)

/-- LOL_WINDOW_END (R55): the next window begins where this one ends. -/
def execLolWindowEnd (n : Nat) (sd : Side) (s : State) : Host.Outcome State Fault Refusal :=
  onUnit (lanePresent s n) (
    if !clusterStopped s (laneCluster n) && isLocked s n sd && (s.rxe n sd).winFrom + lolWindow s n sd ≤ 850 * s.clock
    then s.putRx n sd { s.rxe n sd with bad := 0, winFrom := (s.rxe n sd).winFrom + lolWindow s n sd } else s)

/-! ## Balance (R53) -/

def minNat (l : List Nat) : Nat := l.foldl min (l.headD 0)
def maxNat (l : List Nat) : Nat := l.foldl max 0

/-- BALANCE_WINDOW_END (R53): the counts of the four levels, at a PAM4 rate. -/
def execBalanceWindowEnd (n : Nat) (sd : Side) (counts : List Nat) (s : State) : Host.Outcome State Fault Refusal :=
  onUnit (lanePresent s n) (if clusterStopped s (laneCluster n) || !isLocked s n sd || !(s.rxe n sd).balRun || !isPam (ckRate s (laneCluster n) sd.dirIn) then s else
    let c := laneCluster n
    let j := lanePos n
    let hi := maxNat counts
    let lo := minNat counts
    let s := (s.wr (R.BAL_valid c j sd.idx) 1).wr (R.BAL_imbalance c j sd.idx) (hi - lo)
    (s.wr (R.BAL_min_level c j sd.idx) (counts.idxOf lo)).wr (R.BAL_max_level c j sd.idx) (counts.idxOf hi))

/-! ## Termination and shorts (R72, R73, R75, R80, R153) -/

/-- The TX ends that TERM_CMD selects. -/
def termEnds (mask : Nat) (a b : Bool) : List (Nat × Side) :=
  (List.range 9).flatMap fun j => if !bit mask j then [] else
    (if a then [(j, Side.a)] else []) ++ (if b then [(j, Side.b)] else [])

/-- The exit clock end of a selected side is tested with the lanes, where it is in electrical idle (R80; that a side selects it
is DEDUCED, log 232). -/
def termExit (c : Nat) (sd : Side) (s : State) : State :=
  let e := s.ckExit c sd.dirOut
  if e.idle then s.putCkExit c sd.dirOut { e with detecting := true, byCmd := true } else s

/-- TERM_CMD (R72): `mask`, `a` and `b` are what the command selects. -/
def termCmd (c mask : Nat) (a b : Bool) (s : State) : State :=
  let s := ((s.wr (R.TERM_CMD_lane_mask c) mask).wrB (R.TERM_CMD_side_a c) a).wrB (R.TERM_CMD_side_b c) b
  if s.on (R.TERM_CMD_busy c) then s else
  let ends := termEnds mask a b
  if ends.any fun e => !(s.txe (laneAt c e.1) e.2).idle then s.wr (R.TERM_CMD_refused c) 1
  else
    let s := (s.wr (R.TERM_CMD_refused c) 0).wr (R.TERM_CMD_busy c) 1
    let s := ends.foldl (fun s e => let n := laneAt c e.1; s.putTx n e.2 { s.txe n e.2 with detecting := true, byCmd := true }) s
    let s := if a then termExit c .a s else s
    if b then termExit c .b s else s

def execTerminationDetect (c mask : Nat) (a b : Bool) (s : State) : Host.Outcome State Fault Refusal :=
  .next (ifHas (c < clustersOf s) (0x10 + c) s (termCmd c mask a b s))

/-- One TX end has been tested: an absent termination classifies it OPEN, a commanded detection that finds it clean clears
its class. -/
def termResult (c j : Nat) (sd : Side) (absent : Bool) (s : State) : State :=
  let n := laneAt c j
  let cmd := (s.txe n sd).byCmd
  let s := (s.putTx n sd { s.txe n sd with detecting := false, byCmd := false }).wrB (leTerm n sd) (!absent)
  if absent then (s.wr (leTxFault n sd) 4).wired 2 sd.idx n (16 * c + 12)
  else if cmd then s.wr (leTxFault n sd) 0 else s

/-- The exit clock end of a direction has been tested, as a TX end is (R80). -/
def termClock (c : Nat) (d : Dir) (absent : Bool) (s : State) : State :=
  let e := s.ckExit c d
  if !e.detecting then s else
  let s := s.putCkExit c d { e with
    detecting := false, byCmd := false, term := !absent, txFault := if absent then 4 else if e.byCmd then 0 else e.txFault }
  if absent then s.raise (16 * c + 12) else s

/-- A tested TX end that is not clean: in DETECT a swap of its lane, or DOWN; else as any fault class (R153, R318). -/
def termFaulty (c j : Nat) (sd : Side) (s : State) : State :=
  let n := laneAt c j
  if s.rd (leTxFault n sd) = 0 then s else
  match if j < 8 then endUse s n sd else none with
  | some (k, _) => if spanState s k sd = spDetect then swapTrigger n swDetect (some sd) (some sd) s else endFailed n sd true s
  | none => endFailed n sd true s

/-- The ends of a finished detection: `absent` lists them as 9 × side + position, and 18 + direction for exit clock ends. The
lower lane position comes first (R327). -/
def termDone (c : Nat) (absent : List Nat) (s : State) : State :=
  let ends := ((List.range 9).flatMap fun j => [j, 9 + j]).filter fun e => (s.txe (laneAt c (e % 9)) (Side.ofIdx (e / 9))).detecting
  let bobbin := (s.bob c).detect
  let s := ends.foldl (fun s e => termResult c (e % 9) (Side.ofIdx (e / 9)) (absent.contains e) s) s
  let s := [Dir.ab, Dir.ba].foldl (fun s d => termClock c d (absent.contains (18 + d.idx)) s) s
  let s := s.wr (R.TERM_CMD_busy c) 0
  let s := (ends.filter fun e => !(bobbin && e % 9 = 8)).foldl (fun s e => termFaulty c (e % 9) (Side.ofIdx (e / 9)) s) s
  let s := if bobbin then
      detectSwapEnd c ((ends.filter fun e => e % 9 = 8).all fun e => s.rd (leTxFault (128 + c) (Side.ofIdx (e / 9))) = 0) s
    else s
  let s := (spansOfCluster s c).foldl (fun s p => detectCheck p.1 p.2 s) s
  bobRelease c s

/-- TERMINATION_DETECT_DONE (R72). -/
def execTerminationDetectDone (c : Nat) (absent : List Nat) (s : State) : Host.Outcome State Fault Refusal :=
  onUnit (c < clustersOf s) (termDone c absent s)

/-- TX_SHORT (R73): class 1-3; `n` is a lane, or 144 + c for the exit clock end of a cluster on that side. -/
def execTxShort (n : Nat) (sd : Side) (cls : Nat) (s : State) : Host.Outcome State Fault Refusal :=
  if 144 ≤ n then
    onUnit (n - 144 < clustersOf s) (
      let c := n - 144
      let e := s.ckExit c sd.dirOut
      if e.idle || cls = 0 || 3 < cls then s else
      (s.putCkExit c sd.dirOut { e with idle := true, txFault := cls }).raise (16 * c + 12))
  else onUnit (lanePresent s n) (if (s.txe n sd).idle || cls = 0 || 3 < cls then s else
    let s := (s.wr (leTxFault n sd) cls).txRest n sd
    endFailed n sd true (s.wired 1 sd.idx n (16 * laneCluster n + 12)))

/-! ## Registers (R76, R77, R105) -/

/-- The counters of a cluster page that CNT_SNAP latches. -/
def clusterCounters (c : Nat) : List Fld :=
  ((List.range 9).flatMap fun j => [0, 1].flatMap fun d => [R.CV c j d, R.DE c j d, R.SETREJ c j d, R.LOCKLOSS c j d]) ++
  [0, 1].flatMap fun d => [R.SKP_del c d, R.SKP_add c d, R.CK_EVT_borrows c d, R.CK_EVT_switches c d, R.EB_ERR c d, R.DSK_MISS c d]

/-- CNT_SNAP (R76): answers set_disagree and the snapshot number. -/
def cntSnap (c : Nat) (s : State) : State :=
  let v := s.live (R.CNT_SNAP_set_disagree c) * 65536 + s.rd (R.CNT_SNAP_snap_no c)
  ((State.latchAll (clusterCounters c) s).bumpWrap (R.CNT_SNAP_snap_no c)).answerWord v

def execCntSnap (c : Nat) (s : State) : Host.Outcome State Fault Refusal :=
  .next (ifHas (c < clustersOf s) (0x10 + c) (s.answerWord 0) (cntSnap c s))

def cntClear (c : Nat) (s : State) : State :=
  (State.zeroLive (clusterCounters c) s).putLive (R.CNT_SNAP_set_disagree c) 0

def execCntCtlClear (c : Nat) (s : State) : Host.Outcome State Fault Refusal :=
  .next (ifHas (c < clustersOf s) (0x10 + c) s (cntClear c s))

/-- The end carries traffic at whose ordered-set boundaries a write takes effect: its span is in UP. A TRANSPARENT link's ends
see no boundary, and take a write at once (DESIGN CHOICE; log 255). -/
def carries (s : State) (n : Nat) (sd : Side) : Bool :=
  match endUse s n sd with
  | some (k, _) => spanUp s k sd
  | none => false

/-- A write of LE_CFG takes effect on one side (R68, R77). -/
def leCfgSide (n : Nat) (sd : Side) (s : State) : State :=
  let c := laneCluster n
  let j := lanePos n
  let tx := s.on (R.LE_CFG_tx_pol c j sd.idx)
  let s := exitPol n sd s
  let force := s.on (R.LE_CFG_rx_pol_force c j sd.idx)
  let forced := !polAuto s n sd
  if carries s n sd then
    let s := s.putTx n sd { s.txe n sd with polPend := some tx }
    s.putRx n sd { s.rxe n sd with polPend := if forced then some (some force) else if (s.rxe n sd).polDecided then none else some none }
  else
    let s := s.putTx n sd { s.txe n sd with pol := tx, polPend := none }
    let s := s.putRx n sd { s.rxe n sd with polPend := none, polDecided := (s.rxe n sd).polDecided && !forced }
    if forced then s.wrB (leInv n sd) force
    else if (s.rxe n sd).polDecided then s else polRestart n sd s

def leCfgWrite (n v : Nat) (s : State) : State :=
  let c := laneCluster n
  let j := lanePos n
  let s := [0, 1].foldl (fun s d =>
    ((s.wrB (R.LE_CFG_tx_pol c j d) (bit v (2 + 4 * d))).wrB (R.LE_CFG_rx_pol_force c j d) (bit v (1 + 4 * d))).wrB
      (R.LE_CFG_rx_pol_auto c j d) (bit v (4 * d))) s
  leCfgSide n .b (leCfgSide n .a s)

/-- LE_CFG_WRITE (R77). -/
def execLeCfgWrite (n v : Nat) (s : State) : Host.Outcome State Fault Refusal :=
  .next (ifHas (lanePresent s n) (0x10 + laneCluster n) s (leCfgWrite n v s))

end Sys2Proof.Machine
end

