-- ==== Sys2Proof/Machine/Equalization.lean ====
section
/-!
DEFINITION. Equalization (chapter Equalization and the board table, R106-R121): acquisition, tracking, freezing and the
registers of the adaptation engine.
-/

namespace Sys2Proof.Machine

open Sys2Proof

/-! ## Coefficients (R112) -/

/-- The limits of the 17 coefficients: h1-h12, f1, f2, t_low, t_mid, t_high. -/
def coefLimits : List (Int × Int) :=
  [(-64, 63), (-32, 31), (-32, 31), (-32, 31)] ++ List.replicate 8 (-16, 15) ++ [(-16, 15), (-16, 15), (-127, -8), (-32, 32), (8, 127)]

def coefList (x : Coef) : List Int := (List.range 12).map (x.h.getD · 0) ++ [x.f1, x.f2, x.tLow, x.tMid, x.tHigh]

def coefSet (x : Coef) (l : List Int) : Coef :=
  { x with h := l.take 12, f1 := l.getD 12 0, f2 := l.getD 13 0, tLow := l.getD 14 0, tMid := l.getD 15 0, tHigh := l.getD 16 0 }

/-- Every coefficient within its limits. -/
def coefClamp (l : List Int) : List Int := (coefLimits.zip l).map fun p => clampInt p.1.1 p.1.2 p.2

/-- A coefficient stands at a limit. A floating-tap position at 13 or 40 is no coefficient (DESIGN CHOICE; log 218). -/
def coefAtLimit (x : Coef) : Bool := (coefLimits.zip (coefList x)).any fun p => p.2 = p.1.1 || p.2 = p.1.2

/-- Coefficients moved by an update, each by at most `m` codes (R118). -/
def coefMove (m : Int) (x : Coef) (steps : List Int) : Coef :=
  let l := coefList x
  coefSet x (coefClamp ((List.range 17).map fun i => l.getD i 0 + clampInt (-m) m (steps.getD i 0)))

/-- Floating-tap positions as a search chooses them: 13-40, distinct, the lower one first (R112). -/
def coefPositions (x : Coef) (p q : Nat) : Coef :=
  let p := max 13 (min 40 p)
  let q := max 13 (min 40 q)
  if p = q then x else { x with f1pos := min p q, f2pos := max p q }

def mseLimit (s : State) (c : Nat) : Nat := s.rd (R.MSE_LIMIT_mse_limit c)

/-! ## Acquisition (R116, R117, R119) -/

/-- The span whose position an RX end receives, when it trains. -/
def trainingSpan (s : State) (n : Nat) (sd : Side) : Option Nat :=
  match endUse s n sd with
  | some (k, _) => if spAcquire ≤ spanState s k sd && spanState s k sd ≤ spArmed then some k else none
  | none => none

/-- An acquisition ends: the end is tracked, the rung recorded, and the span or the swap that asked for it goes on. -/
def acqEnd (n : Nat) (sd : Side) (ok : Bool) (s : State) : State :=
  let c := laneCluster n
  let x := s.coefs n sd
  let s := (s.putCoef n sd { x with rung := x.acqRung, acqRung := 7, everAcq := true, blocks := 0, goodBlocks := 0 }).wr (estOf n sd) esTrack
  let s := engineDrop c (rxIndex n sd) s
  let s := if ok then s else (s.bump (R.ADAPT_CNT_acq_fail c)).raise (16 * c + 7)
  let s := bobAcqEnd c sd s
  match trainingSpan s n sd with
  | some k => if ok then qualifyCheck k sd s else figureFails k sd s
  | none => s

/-- The engine is acquiring this end. -/
def acquiringNow (s : State) (n : Nat) (sd : Side) : Bool :=
  let a := s.engine (laneCluster n)
  s.rd (estOf n sd) = esAcquire && a.cur = some (rxIndex n sd) && !a.visiting

/-- The symbols after which an acquisition fails, in blocks of 4,096: 2^acq_max, which clamps to 14-20 (R117, R121). -/
def acqLimit (s : State) (c : Nat) : Nat := 2 ^ (max 14 (min 20 (s.rd (R.ADAPT_CFG_acq_max c))) - 12)

/-- ACQ_BLOCK_END (R117): the block's MSE and the 17 coefficients and positions its update leads to. The first block has no
block before it and does not count toward the four (DESIGN CHOICE; log 218). Past the limit there is no further block. -/
def execAcqBlockEnd (n : Nat) (sd : Side) (mse : Nat) (coefs : List Int) (f1pos f2pos : Nat) (s : State) :
    Host.Outcome State Fault Refusal :=
  onUnit (lanePresent s n) (if !acquiringNow s n sd then s
    else if acqLimit s (laneCluster n) ≤ (s.coefs n sd).blocks then acqEnd n sd false s else
    let x := s.coefs n sd
    let mse := min mse 0xFFFF
    let steady := 0 < x.blocks && 16 * (max mse x.mse - min mse x.mse) ≤ mse
    let good := mse ≤ mseLimit s (laneCluster n) && steady
    let y := coefSet x (coefClamp coefs)
    let y := if x.blocks < 2 then coefPositions y f1pos f2pos else y
    let y := { y with mse := mse, valid := true, blocks := x.blocks + 1, goodBlocks := if good then x.goodBlocks + 1 else 0 }
    let s := s.putCoef n sd y
    if 4 ≤ y.goodBlocks then acqEnd n sd true s else s)

/-- ACQ_TIMEOUT (R117): 2^acq_max symbols have passed. -/
def execAcqTimeout (n : Nat) (sd : Side) (s : State) : Host.Outcome State Fault Refusal :=
  onUnit (lanePresent s n) (if acquiringNow s n sd && acqLimit s (laneCluster n) ≤ (s.coefs n sd).blocks
    then acqEnd n sd false s else s)

/-! ## Tracking (R118, R120) -/

/-- Whether an end is out of range after a visit, and what that does (R120). The consecutive visits are those at whose end some
coefficient, not always the same one, stood at a limit (DESIGN CHOICE; log 274). -/
def judgeRange (n : Nat) (sd : Side) (mse : Nat) (s : State) : State :=
  let c := laneCluster n
  let x := s.coefs n sd
  let at_ := coefAtLimit x
  let visits := if at_ then x.limitVisits + 1 else 0
  let s := s.putCoef n sd { x with atLimit := at_, limitVisits := min visits 15 }
  let high := decide (mseLimit s c < mse)
  if max 1 (s.rd (R.ADAPT_CFG_oor_visits c)) ≤ visits || high then
    (if s.on (oorOf n sd) then s else (s.wr (oorOf n sd) 1).raise (16 * c + 7))
  else if !at_ then s.wr (oorOf n sd) 0 else s

/-- When the visit to an end is over, in 1/850 ns: 2^(12 + visit_len) symbols after it began (R118, R121). -/
def visitDue (s : State) (n : Nat) (sd : Side) : Nat :=
  let c := laneCluster n
  850 * (s.engine c).visitAt + 2 ^ (12 + min 4 (s.rd (R.ADAPT_CFG_visit_len c))) * symTime (ckRate s c sd.dirIn)

/-- TRACK_VISIT_END (R118): the visit's MSE and its accumulated update. Limits are judged on the values that the visit
began with, before its update is applied, also in a TRANSPARENT link, where both fall together (DESIGN CHOICE; log 218). -/
def execTrackVisitEnd (n : Nat) (sd : Side) (mse : Nat) (steps : List Int) (s : State) : Host.Outcome State Fault Refusal :=
  onUnit (lanePresent s n) (
    let c := laneCluster n
    let a := s.engine c
    if a.cur ≠ some (rxIndex n sd) || !a.visiting || s.rd (estOf n sd) ≠ esTrack || 850 * s.clock < visitDue s n sd then s else
    let mse := min mse 0xFFFF
    let s := judgeRange n sd mse s
    let x := { s.coefs n sd with mse := mse, valid := true }
    let x := if decodes s n sd then { x with due := steps } else coefMove 1 x steps
    engineNext c ((s.putCoef n sd x).putEngine c { a with cur := none, visiting := false }))

/-- TRACK_UPDATE_APPLY (R118): at the next ordered-set boundary of the end. -/
def execTrackUpdateApply (n : Nat) (sd : Side) (s : State) : Host.Outcome State Fault Refusal :=
  onUnit (lanePresent s n) (
    let x := s.coefs n sd
    if x.due = [] || s.rd (estOf n sd) ≠ esTrack then s else s.putCoef n sd { coefMove 2 x x.due with due := [] })

/-! ## ADAPT_CMD (R115, R119, R121) -/

/-- ADAPT_CMD is written. A position that does not exist is refused and nothing is stored (R493); a command refused for another
reason stores its fields (DEDUCED; log 106). -/
def adaptCmd (c op : Nat) (sd : Side) (pos : Nat) (refused : Bool) (act : Nat → State → State) (s : State) : State :=
  if 8 < pos then s.wr (R.ADAPT_CMD_refused c) 1 else
  let s := ((s.wr (R.ADAPT_CMD_op c) op).wr (R.ADAPT_CMD_side c) sd.idx).wr (R.ADAPT_CMD_pos c) pos
  if refused then s.wr (R.ADAPT_CMD_refused c) 1 else act (laneAt c pos) (s.wr (R.ADAPT_CMD_refused c) 0)

/-- ADAPT_REACQUIRE (R115). The rung it asks for is the direction's rate code, and the recorded rung where the direction is
idle (DESIGN CHOICE; log 218). -/
def execAdaptReacquire (c : Nat) (sd : Side) (pos : Nat) (s : State) : Host.Outcome State Fault Refusal :=
  .next (ifHas (c < clustersOf s) (0x20 + c) s (adaptCmd c 0 sd pos (!s.on (leSd (laneAt c pos) sd))
    (fun n s => acqRequest n sd (if ckRate s c sd.dirIn = 7 then (s.coefs n sd).rung else ckRate s c sd.dirIn) s) s))

/-- ADAPT_FREEZE (R119): a visit in progress ends, an update that waits is dropped. -/
def execAdaptFreeze (c : Nat) (sd : Side) (pos : Nat) (s : State) : Host.Outcome State Fault Refusal :=
  .next (ifHas (c < clustersOf s) (0x20 + c) s (adaptCmd c 1 sd pos (s.rd (estOf (laneAt c pos) sd) ≠ esTrack)
    (fun n s => engineDrop c (rxIndex n sd) ((s.wr (estOf n sd) esFrozen).putCoef n sd { s.coefs n sd with due := [] })) s))

/-- ADAPT_THAW (R119). -/
def execAdaptThaw (c : Nat) (sd : Side) (pos : Nat) (s : State) : Host.Outcome State Fault Refusal :=
  .next (ifHas (c < clustersOf s) (0x20 + c) s (adaptCmd c 2 sd pos (s.rd (estOf (laneAt c pos) sd) ≠ esFrozen)
    (fun n s => engineNext c (s.wr (estOf n sd) esTrack)) s))

/-- Tracking is disabled: a visit in progress ends without an update, and updates that wait are dropped, so that the
coefficients are held (R119). -/
def adaptHold (c : Nat) (s : State) : State :=
  let a := s.engine c
  let s := if a.visiting then s.putEngine c { a with cur := none, visiting := false } else s
  (clusterLanes c).foldl (fun s n => [Side.a, Side.b].foldl (fun s sd => s.putCoef n sd { s.coefs n sd with due := [] }) s) s

/-- ADAPT_CFG.enable has been written: ends in service come to be tracked, or are no longer visited (R119). -/
def adaptEnable (c : Nat) (s : State) : State :=
  if !s.on (R.ADAPT_CFG_enable c) then adaptHold c s else
  (clusterLanes c).foldl (fun s n => [Side.a, Side.b].foldl (fun s sd =>
    if adaptService s n sd then adaptEnters n sd s else s) s) s

/-- DFE_SEL is written: the coefficients of one end are latched (R121). -/
def dfeSelWrite (c v : Nat) (s : State) : State :=
  let sd := Side.ofIdx (bits v 8 8)
  let pos := bits v 3 0
  let s := (s.wr (R.DFE_SEL_side c) sd.idx).wr (R.DFE_SEL_pos c) pos
  let x : Coef := if 8 < pos then { h := [], tLow := 0, tHigh := 0 } else s.coefs (laneAt c pos) sd
  let tap := fun i => unsigned 8 (x.h.getD i 0)
  let fields := [(R.DFE_H0_tap0 c, tap 0), (R.DFE_H0_tap1 c, tap 1), (R.DFE_H0_tap2 c, tap 2), (R.DFE_H0_tap3 c, tap 3),
    (R.DFE_H1_tap0 c, tap 4), (R.DFE_H1_tap1 c, tap 5), (R.DFE_H1_tap2 c, tap 6), (R.DFE_H1_tap3 c, tap 7),
    (R.DFE_H2_tap0 c, tap 8), (R.DFE_H2_tap1 c, tap 9), (R.DFE_H2_tap2 c, tap 10), (R.DFE_H2_tap3 c, tap 11),
    (R.DFE_FLT_f1_pos c, x.f1pos), (R.DFE_FLT_f1 c, unsigned 8 x.f1), (R.DFE_FLT_f2_pos c, x.f2pos),
    (R.DFE_FLT_f2 c, unsigned 8 x.f2), (R.DFE_THR_t_high c, unsigned 8 x.tHigh), (R.DFE_THR_t_mid c, unsigned 8 x.tMid),
    (R.DFE_THR_t_low c, unsigned 8 x.tLow), (R.DFE_MSE_valid c, b2n x.valid), (R.DFE_MSE_rung c, x.rung),
    (R.DFE_MSE_at_limit c, b2n x.atLimit), (R.DFE_MSE_mse c, x.mse)]
  fields.foldl (fun s p => s.wr p.1 p.2) s

/-- DFE_SEL_WRITE (R121). -/
def execDfeSelWrite (c v : Nat) (s : State) : Host.Outcome State Fault Refusal :=
  .next (ifHas (c < clustersOf s) (0x20 + c) s (dfeSelWrite c v s))

end Sys2Proof.Machine
end

