-- ==== Sys2Proof/Machine/Units.lean ====
section
/-!
DEFINITION. What several chapters do to whole units: ending self-test runs (R374-R376, R384), fencing and lifting
(R36, R408-R410), and halting or training every link (R149, R351, R390, R409).
-/

namespace Sys2Proof.Machine

/-! ## Self-test runs (R375, R376) -/

/-- Every slice of die `d` ends (R375, R376). -/
def slicesEnd (d result cause : Nat) (s : State) : State := bobSliceCut d result cause (bankStop d result cause s)

/-- A limit of R376 fails on every die: running slices end LIMIT; a FULL run in TEST has no limits. -/
def limitFails (cause : Nat) (s : State) : State := slicesEnd 1 resLimit cause (slicesEnd 0 resLimit cause s)

/-! ## Fences (R408, R409) -/

/-- Fence cause codes of R408. -/
def fcHost : Nat := 1
def fcParent : Nat := 2
def fcCorePll : Nat := 3
def fcBanks : Nat := 4
def fcClock : Nat := 5
def fcThermal : Nat := 6

/-- Record a cause on a unit that is not fenced by a cause of its own. -/
def recordCause (f : Fld) (cause : Nat) (s : State) : State :=
  if s.rd f = 0 || s.rd f = fcParent then s.wr f cause else s

/-- A unit fenced through its die or the package carries PARENT. -/
def recordParent (f : Fld) (s : State) : State := if s.rd f = 0 then s.wr f fcParent else s

/-- A link stands fenced: it starts its EIE, frees its copies and queues as at DOWN, and its span sequencers hold in
IDLE (R409). -/
def linkHalt (k : Nat) (s : State) : State :=
  let sides := usedSides s k
  let s := linkDropTraffic k s
  sides.foldl (fun s sd => spanHold k sd s) s

/-- Halt every link that stands fenced; end the slices of fenced dies and the swaps of fenced regions (R409, R416). -/
def haltFenced (s : State) : State :=
  let s := (List.range (linksOf s)).foldl (fun s k =>
    if modeOf s k ≠ 0 && linkFenced s k then linkHalt k s else s) s
  let s := (List.range 2).foldl (fun s d => if dieFenced s d then slicesEnd d resAborted causeFence s else s) s
  (List.range (clustersOf s)).foldl (fun s c => if regionFenced s (clusterRegion c) then swapAbandon c s else s) s

/-- A fence takes effect when its cause is recorded, in SERVICE and GUARD; a cause recorded in START or WATCH waits for
their end (R409, R476). -/
def fenceTakes (s : State) : State := if inRun s then haltFenced s else s

def fenceRegion (r cause : Nat) (s : State) : State := fenceTakes (recordCause (R.FENCE_STAT_region r) cause s)

def parentDie (d : Nat) (s : State) : State :=
  recordParent (R.FENCE_STAT_region (2 * d)) (recordParent (R.FENCE_STAT_region (2 * d + 1)) s)

/-- Fencing a die fences both of its regions (R36, R408). -/
def fenceDie (d cause : Nat) (s : State) : State :=
  fenceTakes (parentDie d (recordCause (R.FENCE_STAT_die d) cause s))

/-- Fencing the package fences every die and region (R36, R408). -/
def fencePkg (cause : Nat) (s : State) : State :=
  let s := recordCause R.FENCE_STAT_pkg cause s
  let s := (List.range (diesOf s)).foldl (fun s d => parentDie d (recordParent (R.FENCE_STAT_die d) s)) s
  fenceTakes s

/-- Every link with a live mode is halted, as at WATCH and TEST entry (R351, R390). -/
def haltAll (s : State) : State :=
  (List.range (linksOf s)).foldl (fun s k => if modeOf s k ≠ 0 then linkHalt k s else s) s

/-- A TX end of a link side, or of lanes that have left one, has yet to send EIE (R351, R390). -/
def eieAwaited (s : State) : Bool :=
  (liveSides s).any (fun p => sideSending s p.1 p.2) || s.sides.any fun p => p.2.leaving ≠ []

/-- Every configured link that does not stand fenced trains from DETECT (R149). -/
def trainAll (s : State) : State := (List.range (linksOf s)).foldl (fun s k => linkTrain true k s) s

/-! ## Use by the live configuration (R347, R348) -/

def regionUsed (s : State) (r : Nat) : Bool := (List.range (linksOf s)).any fun k => (linkRegions s k).contains r

/-- Loops, generators and checkers stop on every lane of which the live configuration uses a side, be it that a bobbin stands in
for the lane (R386). -/
def loopsUsed (s : State) : State :=
  ((List.range 128).filter (loopOn s)).foldl (fun s n =>
    if (laneUse s n .a).isSome || (laneUse s n .b).isSome then loopStop n s else s) s

/-! ## Gated clocks (R346, R348) -/

/-- The pages that share a page's clock: CLU[c] and EQA[c] share one (R347). -/
def gatePair (p : Nat) : List Nat :=
  if 0x10 ≤ p ∧ p < 0x20 then [p, p + 0x10] else if 0x20 ≤ p ∧ p < 0x30 then [p - 0x10, p] else [p]

/-- The level sources of the block behind a page. -/
def pageSources (p : Nat) : List Nat := if 0x30 ≤ p ∧ p < 0x34 then [265 + (p - 0x30)] else []

/-- The clock of a page runs again: its block goes on where it stopped, and its level sources count again. -/
def ungate (p : Nat) (s : State) : State :=
  let s := (pageSources p).foldl State.relevel ((gatePair p).foldl (fun s q => s.wr (R.CLK_EN_en q) 1) s)
  if p = 7 then suspectSlices s else s

/-- The gated pages whose block the live configuration uses are ungated (R348). -/
def ungateUsed (s : State) : State :=
  let ps := ((List.range (linksOf s)).filter fun k => modeOf s k ≠ 0).map (0x40 + ·) ++
    ((List.range (clustersOf s)).filter (clusterUsed s)).map (0x10 + ·) ++
    ((List.range (regionsOf s)).filter (regionUsed s)).map (0x30 + ·)
  ps.foldl (fun s p => if s.rd (R.CLK_EN_en p) = 0 then ungate p s else s) s

end Sys2Proof.Machine
end

