-- ==== Sys2Proof/Machine/DeviceClocks.lean ====
section
/-!
DEFINITION. Device clocks and P-levels (chapter Device clocks, P-levels and the clove watch, R329-R349, R355, R356).
-/

namespace Sys2Proof.Machine

open Sys2Proof

/-! ## The PLLs of R336 -/

/-- The PLLs that take REFCLK: 0 and 1 the core PLLs, 2 the management PLL, 3 the seam PLL. -/
def pllUnits (s : State) : List Nat := if isLz4064 s then [0, 2] else [0, 1, 2, 3]

/-- The reference of a PLL: 0 REFCLK, 1 IFO, 2 holdover, 3 stopped. -/
def pllRef (s : State) (u : Nat) : Nat :=
  if u < 2 then s.rd (R.CLK_STAT_core_ref u) else if u = 2 then s.clk.mgmtRef else s.clk.seamRef

def State.setPllRef (s : State) (u v : Nat) : State :=
  if u < 2 then s.wr (R.CLK_STAT_core_ref u) v
  else if u = 2 then { s with clk := { s.clk with mgmtRef := v } }
  else { s with clk := { s.clk with seamRef := v } }

def pllLockFld (u : Nat) : Fld :=
  if u < 2 then R.CLK_STAT_core_lock u else if u = 2 then R.CLK_STAT_mgmt_lock else R.CLK_STAT_seam_lock

/-- The seam is up on both dies while its PLL is locked (R344). -/
def seamUp (b : Bool) (s : State) : State :=
  if isLz4064 s then s else (s.wrB (R.SEAM_STAT_up 0) b).wrB (R.SEAM_STAT_up 1) b

/-- A PLL locks to a reference for the first time since reset or WATCH; its clock runs. -/
def pllLock (u ref : Nat) (s : State) : State :=
  let s := (s.setPllRef u ref).wr (pllLockFld u) 1
  if u = 3 then seamUp true s else s

/-- Apply an operation to every PLL whose reference is one of `from`. -/
def pllsWith (refs : List Nat) (f : Nat → State → State) (s : State) : State :=
  (pllUnits s).foldl (fun s u => if refs.contains (pllRef s u) then f u s else s) s

/-- In START and at wake, the PLLs that have not locked yet lock to a clock that becomes usable (R354, R472). -/
def pllsStart (ref : Nat) (s : State) : State :=
  (pllUnits s).foldl (fun s u => if s.on (pllLockFld u) then s else pllLock u ref s) s

/-- A PLL moves to REFCLK and the return is counted (R336-R338). Its lock is as it was: one that is unlocked reports its relock
by R339 and R344. -/
def pllReturn (u : Nat) (s : State) : State := (s.setPllRef u 0).bump R.CLK_CNT_returns

/-! ## REFCLK -/

/-- The judge that CLK_CFG selects is the compatibility judge (R332). -/
def judgeCompat (s : State) : Bool :=
  let j := s.rd R.CLK_CFG_judge
  if j = 1 then false else if j = 2 then true else bit (s.fuse.saffron.getD 14 0) 0

/-- A judgement starts: by the judge in force at this moment (R332). -/
def judgeStart (s : State) : State := { s with clk := { s.clk with judgeNow := judgeCompat s } }

/-- The monitor is armed while the IFO is ready in FULL and REFCLK is judged good (R335). -/
def armMonitor (s : State) : State :=
  let now := s.on R.CLK_STAT_ifo_ready && !s.on R.CLK_STAT_ifo_low && s.on R.CLK_STAT_refclk_good
  if now && !s.on R.CLK_STAT_mon_armed then (s.wr R.CLK_STAT_mon_armed 1).wr R.MON_LAST_valid 0
  else if now then s else s.wr R.CLK_STAT_mon_armed 0

/-- The PLLs start a first time in START and at wake. -/
def clocksStarting (s : State) : Bool := s.dev.phase = .start || s.dev.waking

/-- REFCLK is judged good (R329): the monitor arms, PLLs left without a clock take it at once (R336), and spans that waited for
it in DETECT go on. -/
def refclkGood (method : Nat) (s : State) : State :=
  let s := (s.wr R.CLK_STAT_refclk_good 1).wr R.CLK_STAT_judge_used method
  let s := { s with clk := { s.clk with goodSince := some s.clock, holdPassed := false, rejudge := false } }
  let s := armMonitor s
  let s := if clocksStarting s then pllsStart 0 s
    else if s.on R.CLK_STAT_ifo_ready then s
    else pllsWith [2, 3] pllReturn s
  detectAll (suspectSlices (refclkBack s))

/-- REFCLK is no longer judged good: a limit of self-test fails, and the cluster directions follow R29 and R102. -/
def refclkBad (s : State) : State :=
  let s := s.wr R.CLK_STAT_refclk_good 0
  let s := armMonitor { s with clk := { s.clk with goodSince := none, holdPassed := false } }
  refclkLost (limitFails causeRefclk (judgeStart s))

/-- A trip of the monitor (R336) is reported: source 256, one more trip. -/
def tripReport (s : State) : State := ({ s with clk := { s.clk with tripDue := false } }.raise 256).bump R.CLK_CNT_trips

/-- A trip: REFCLK is judged bad. It is reported at once, unless the output of some PLL has stopped: then when that locks to the
IFO. -/
def refclkTrip (s : State) : State :=
  let s := refclkBad s
  if (pllUnits s).any fun u => pllRef s u = 3 then { s with clk := { s.clk with tripDue := true } } else tripReport s

/-- The IFO runs in FULL and the judge works: out of reset, and not in WATCH but for a wake (R332, R333, R351). -/
def clocksAwake (s : State) : Bool := s.dev.waking || match s.dev.phase with
  | .start | .run | .test => true
  | .off | .watch => false

/-- A judgement may pass: REFCLK is not judged good, or is judged again (R131, R332). -/
def judging (s : State) : Bool := clocksAwake s && (!s.on R.CLK_STAT_refclk_good || s.clk.rejudge)

/-- NATIVE_JUDGE_PASS (R330). The native judge runs from power-on whatever judge is in force, and START may calibrate on a
REFCLK that it has passed (R472). -/
def execNativeJudgePass (s : State) : Host.Outcome State Fault Refusal :=
  .next (
    let s := { s with clk := { s.clk with nativeOk := s.clk.nativeOk || s.dev.phase = .start } }
    if judging s && !s.clk.judgeNow then refclkGood 0 s else s)

/-- COMPAT_JUDGE_END (R331): `cycles` IFO cycles over the 4,096 edges, and whether some period lasted too long. A run may follow
a native interval that a dip has ended, once CLK_CFG selects this judge (DEDUCED; log 257); the next judgement is by the judge
then in force. -/
def execCompatJudgeEnd (cycles : Nat) (missed : Bool) (s : State) : Host.Outcome State Fault Refusal :=
  .next (if judging s && (s.clk.judgeNow || judgeCompat s) && s.on R.CLK_STAT_ifo_ready then
    (if 3973 ≤ cycles && cycles ≤ 4219 && !missed then refclkGood 1 s else judgeStart (s.bump R.CLK_CNT_judge_fail))
  else s)

/-! ## The IFO -/

/-- IFO_READY (R333): readiness, the monitor, and the return of the always-on domain (R338). -/
def ifoReady (s : State) : State :=
  let s := (s.wr R.CLK_STAT_ifo_ready 1).wr R.CLK_STAT_ifo_low 0
  let s := armMonitor { s with clk := { s.clk with aoRefclk := false } }
  if clocksStarting s && !s.on R.CLK_STAT_refclk_good then pllsStart 1 s else s

def execIfoReady (s : State) : Host.Outcome State Fault Refusal :=
  .next (if clocksAwake s then ifoReady s else s)

/-- A START failure (R473): recorded once, left only by a reset. -/
def startFails (cause : Nat) (s : State) : State :=
  if s.dev.phase = .start && s.rd R.START_STAT_result = 0 then
    (s.wr R.START_STAT_result 2).wr R.START_STAT_cause cause
  else s

/-- IFO_READY_TIMEOUT (R333, R473): 200 µs after reset release, from which the clock counts. -/
def execIfoReadyTimeout (s : State) : Host.Outcome State Fault Refusal :=
  .next (if s.on R.CLK_STAT_ifo_ready || s.clock < 200000 then s else startFails 2 s)

/-- IFO_MEASURE_END (R334). -/
def execIfoMeasureEnd (ppm : Int) (s : State) : Host.Outcome State Fault Refusal :=
  .next (if s.on R.CLK_STAT_refclk_good && s.on R.CLK_STAT_ifo_ready && !s.on R.CLK_STAT_ifo_low then
    (s.wr R.IFO_CORR_valid 1).wr R.IFO_CORR_ppm (unsigned 16 ppm) else s)

/-- MONITOR_WINDOW_END (R335, R336): `count` REFCLK edges in 1,024 IFO cycles. -/
def execMonitorWindowEnd (count : Nat) (s : State) : Host.Outcome State Fault Refusal :=
  .next (if s.on R.CLK_STAT_mon_armed then
    let s := (s.wr R.MON_LAST_count (min count 2047)).wr R.MON_LAST_valid 1
    if count < 973 || 1075 < count then refclkTrip (pllsWith [0, 2] (fun u s => s.setPllRef u 1) s) else s
  else s)

/-- PLL_HOLDOVER (R336): no reference edge for 25.6 ns. A PLL that could not move to the IFO is stopped. -/
def execPllHoldover (unit : Nat) (s : State) : Host.Outcome State Fault Refusal :=
  onUnit ((pllUnits s).contains unit)
    (if pllRef s unit = 0 then s.setPllRef unit (if s.on R.CLK_STAT_ifo_ready then 2 else 3) else s)

/-- REFCLK_RETURN (R336): edges return before the trip and REFCLK is still judged good. -/
def execRefclkReturn (unit : Nat) (s : State) : Host.Outcome State Fault Refusal :=
  onUnit ((pllUnits s).contains unit)
    (if (pllRef s unit = 2 || pllRef s unit = 3) && s.on R.CLK_STAT_refclk_good then s.setPllRef unit 0 else s)

/-- PLL_IFO_LOCK (R336): the PLL takes the ready IFO and its clock resumes; a holdover that no monitor watched becomes a trip
now. A trip is reported when the last stopped PLL has locked (DEDUCED; log 264). -/
def execPllIfoLock (unit : Nat) (s : State) : Host.Outcome State Fault Refusal :=
  onUnit ((pllUnits s).contains unit)
    (if (pllRef s unit = 2 || pllRef s unit = 3) && s.on R.CLK_STAT_ifo_ready then
      let s := s.setPllRef unit 1
      let s := if s.on R.CLK_STAT_refclk_good then refclkTrip s else s
      if s.clk.tripDue && (pllUnits s).all (fun u => pllRef s u ≠ 3) then tripReport s else s
    else s)

/-- The return of R337: every PLL on the IFO moves to REFCLK. -/
def returnToRefclk (s : State) : State := pllsWith [1] pllReturn s

/-- return_hold in ns; 0 acts as 1 ms (R356). -/
def returnHold (s : State) : Nat := 1000000 * max 1 (s.rd R.CLK_CFG_return_hold)

/-- RETURN_HOLD_EXPIRY (R337). -/
def execReturnHoldExpiry (s : State) : Host.Outcome State Fault Refusal :=
  .next (if s.on R.CLK_STAT_refclk_good && passed s.clk.goodSince (returnHold s) s.clock then
    let s := { s with clk := { s.clk with holdPassed := true } }
    if s.on R.CLK_CFG_auto_return then returnToRefclk s else s
  else s)

/-- The write of CLK_CFG (R332, R337, R356). -/
def writeClkCfg (v : Nat) (s : State) : State :=
  let s := ((s.wr R.CLK_CFG_return_hold (bits v 31 24)).wr R.CLK_CFG_auto_return (bits v 8 8)).wr R.CLK_CFG_judge (bits v 1 0)
  if s.on R.CLK_CFG_auto_return && s.clk.holdPassed && s.on R.CLK_STAT_refclk_good then returnToRefclk s else s

def execClkCfgWrite (v : Nat) (s : State) : Host.Outcome State Fault Refusal := .next (ifOpen 1 s (writeClkCfg v s))

/-- IFO_LOSS (R338, R355): a compatibility run in progress fails. -/
def execIfoLoss (s : State) : Host.Outcome State Fault Refusal :=
  .next (if !s.on R.CLK_STAT_ifo_ready || s.on R.CLK_STAT_ifo_low then s else
    let s := if judging s && s.clk.judgeNow then judgeStart (s.bump R.CLK_CNT_judge_fail) else s
    let s := armMonitor (s.wr R.CLK_STAT_ifo_ready 0)
    if inRun s then
      let s := s.raise 257
      if s.on R.CLK_STAT_refclk_good then pllsWith [1] pllReturn { s with clk := { s.clk with aoRefclk := true } }
      else pllsWith [1] (fun u s => s.setPllRef u 2) s
    else s)

/-- CLOCK_UNUSABLE_FENCE (R338): neither clock usable for 10 ms. -/
def execClockUnusableFence (s : State) : Host.Outcome State Fault Refusal :=
  .next (if noClock s && inRun s then fencePkg fcClock s else s)

/-! ## Core PLLs and P-levels -/

/-- LDO output of a level in 5 mV steps (R340). -/
def levelVout (l : Nat) : Nat := if l = 0 then 160 else if l = 1 then 144 else if l = 2 then 130 else 120

def State.pl (s : State) (d : Nat) : PlSt := Tbl.get {} s.plv d
def State.putPl (s : State) (d : Nat) (v : PlSt) : State := { s with plv := Tbl.put {} d v s.plv }

/-- A P-level change ends at a core PLL unlock (R342): the voltage stays at the higher of the two levels. -/
def plAbort (d : Nat) (s : State) : State :=
  if s.rd (R.PL_STAT_phase d) = 0 then s else
  let hi := min (s.pl d).fromLevel (s.rd (R.PL_STAT_target d))
  (s.wr (R.PL_STAT_phase d) 0).wr (R.PL_STAT_vout d) (levelVout hi)

/-- CORE_PLL_UNLOCK (R339, R342). -/
def execCorePllUnlock (die : Nat) (s : State) : Host.Outcome State Fault Refusal :=
  onUnit (die < diesOf s)
    (if s.on (R.CLK_STAT_core_lock die) then
      let s := (s.bump R.CLK_CNT_core_unlock).wr (R.CLK_STAT_core_lock die) 0
      fenceDie die fcCorePll ((plAbort die s).raise (258 + die))
    else s)

/-- An unlocked PLL may report lock: it has a reference and is not switched off. -/
def mayRelock (u : Nat) (s : State) : Bool := clocksAwake s && pllRef s u ≠ 3

/-- CORE_PLL_RELOCK (R339): the report alone; the fence stays. -/
def execCorePllRelock (die : Nat) (s : State) : Host.Outcome State Fault Refusal :=
  onUnit (die < diesOf s) (if mayRelock die s then s.wr (R.CLK_STAT_core_lock die) 1 else s)

/-- Why a P-level request is refused (R343); 0 when accepted. ABSENT comes first, then the lowest code. -/
def plWhy (die level : Nat) (s : State) : Nat :=
  if diesOf s ≤ die then 7
  else if s.rd (R.PRK_DIE_pneed die) < level then 1
  else if s.rd (R.PL_STAT_phase die) ≠ 0 then 2
  else if !inService s then 3
  else if level < s.rd (R.PL_STAT_level die) && s.on (R.SUP_STAT_warn 0) then 4
  else if dieFenced s die then 5
  else if level = s.rd (R.PL_STAT_level die) then 6
  else 0

/-- PL_CMD go (R341-R343). -/
def plRequest (die level : Nat) (s : State) : State :=
  let why := plWhy die level s
  let s := (((s.wr R.PL_LAST_valid 1).wr R.PL_LAST_why why).wr R.PL_LAST_die die).wr R.PL_LAST_level level
  if why ≠ 0 then ((s.wr R.PL_CMD_refused 1).bump R.PL_CNT_refusals).raise 292
  else
    let cur := s.rd (R.PL_STAT_level die)
    let s := (s.wr R.PL_CMD_refused 0).putPl die { since := s.clock, fromLevel := cur }
    (s.wr (R.PL_STAT_target die) level).wr (R.PL_STAT_phase die) (if level < cur then 1 else 2)

def execPlRequest (die level : Nat) (s : State) : Host.Outcome State Fault Refusal :=
  .next (ifOpen 2 s (plRequest (die % 2) (level % 4) ((s.wr R.PL_CMD_die die).wr R.PL_CMD_level level)))

/-- A change completes (R342): source 291. -/
def plDone (d : Nat) (s : State) : State :=
  let us := (s.clock - (s.pl d).since) / 1000
  (((s.wr (R.PL_STAT_phase d) 0).wr R.PL_LAST_us (min us 65535)).bump R.PL_CNT_changes).raise 291

/-- PL_VOLTAGE_SETTLED (R342): the output, in 5 mV steps, has stayed within 5 mV of the target for 2 µs. -/
def execPlVoltageSettled (die vout : Nat) (s : State) : Host.Outcome State Fault Refusal :=
  onUnit (die < diesOf s)
    (let t := levelVout (s.rd (R.PL_STAT_target die))
     if !coreHeld s die && vout ≤ t + 1 && t ≤ vout + 1 then
       (if s.rd (R.PL_STAT_phase die) = 1 then (s.wr (R.PL_STAT_vout die) vout).wr (R.PL_STAT_phase die) 2
        else if s.rd (R.PL_STAT_phase die) = 3 then plDone die (s.wr (R.PL_STAT_vout die) vout)
        else s)
     else s)

/-- PL_DIVIDER_SWITCHED (R341, R342): the new level is in force; a slice loses its limit at P2 and P3 (R376). -/
def execPlDividerSwitched (die : Nat) (s : State) : Host.Outcome State Fault Refusal :=
  onUnit (die < diesOf s)
    (if s.rd (R.PL_STAT_phase die) = 2 && !coreHeld s die then
      let t := s.rd (R.PL_STAT_target die)
      let s := prkNotice (s.wr (R.PL_STAT_level die) t)
      let s := if 2 ≤ t then slicesEnd die resLimit causePlevel s else suspectSlice die s
      if t < (s.pl die).fromLevel then plDone die s else s.wr (R.PL_STAT_phase die) 3
    else s)

/-! ## Management and seam PLLs (R344) -/

def execMgmtPllUnlock (s : State) : Host.Outcome State Fault Refusal := .next (s.wr R.CLK_STAT_mgmt_lock 0)

def execMgmtPllRelock (s : State) : Host.Outcome State Fault Refusal :=
  .next (if mayRelock 2 s then s.wr R.CLK_STAT_mgmt_lock 1 else s)

def execSeamPllUnlock (s : State) : Host.Outcome State Fault Refusal :=
  onUnit (!isLz4064 s) (if s.on R.CLK_STAT_seam_lock then (seamUp false (s.wr R.CLK_STAT_seam_lock 0)).raise 293 else s)

def execSeamPllRelock (s : State) : Host.Outcome State Fault Refusal :=
  onUnit (!isLz4064 s) (if mayRelock 3 s then seamUp true (s.wr R.CLK_STAT_seam_lock 1) else s)

/-! ## Clock gating (R346, R347) -/

/-- The condition of R347 under which a page may be gated. -/
def mayGate (s : State) (p : Nat) : Bool :=
  let cluster := fun c => !clusterUsed s c &&
    (s.rd (R.BOB_STAT_state c) = bbReady || s.rd (R.BOB_STAT_state c) = bbOut) && bobSliceOf s (clusterDie c) ≠ some c
  match Blk.ofPage p with
  | some (.lnk, k) => modeOf s k = 0 && spanState s k .a = 0 && spanState s k .b = 0
  | some (.clu, c) => cluster c
  | some (.eqa, c) => cluster c
  | some (.rgn, r) => !regionUsed s r
  | some (.sel, _) => true
  | some (.bst, _) => !bankSliceRuns s 0 && !bankSliceRuns s 1 && s.bist.bob0.isNone && s.bist.bob1.isNone && !s.bist.full
  | _ => false

/-- The cluster whose clocks a counter code measures (R349). -/
def fmCluster (code : Nat) : Option Nat :=
  if 8 ≤ code ∧ code < 40 then some ((code - 8) / 2) else if 40 ≤ code ∧ code < 56 then some (code - 40) else none

/-- A counter run ends ABORTED when the page of a selected clock is gated (R349). -/
def fmAbort (s : State) : State :=
  if s.on R.FM_CMD_busy then (s.wr R.FM_CMD_busy 0).wr R.FM_CMD_status 3 else s

/-- The timer of R381 holds while BST is gated, and resumes. -/
def bistHold (s : State) : State :=
  match s.bist.nextAt with
  | some t => { s with bist := { s.bist with nextAt := none, leftAt := t - s.clock } }
  | none => s

def bistResume (s : State) : State :=
  match s.bist.nextAt with
  | some _ => s
  | none => if s.dev.everRun && s.dev.phase = .run then { s with bist := { s.bist with nextAt := some (s.clock + s.bist.leftAt) } } else s

/-- Gate or ungate the pages of one clock. -/
def setGate (p : Nat) (en : Bool) (s : State) : State :=
  let s := if en then ungate p s else (gatePair p).foldl (fun s q => s.wr (R.CLK_EN_en q) 0) s
  let s := if p = 7 then (if en then bistResume s else bistHold s) else s
  let hit := match Blk.ofPage p with
    | some (.clu, c) => fmCluster (s.rd R.FM_SEL_meas_sel) = some c || fmCluster (s.rd R.FM_SEL_ref_sel) = some c
    | some (.eqa, c) => fmCluster (s.rd R.FM_SEL_meas_sel) = some c || fmCluster (s.rd R.FM_SEL_ref_sel) = some c
    | _ => false
  if !en && hit then fmAbort s else s

/-- The write of CLK_EN (R346, R347). -/
def writeClkEn (p v : Nat) (s : State) : State :=
  let s := (gatePair p).foldl (fun s q => s.wr (R.CLK_EN_refused q) 0) s
  if bit v 0 then (if s.rd (R.CLK_EN_en p) = 0 then setGate p true s else s)
  else if s.rd (R.CLK_EN_en p) = 0 then s
  else if gateable p && mayGate s p then setGate p false s
  else (gatePair p).foldl (fun s q => s.wr (R.CLK_EN_refused q) 1) s

/-- CLK_EN_WRITE: the header word answers in a gated page too (R485). -/
def execClkEnWrite (page v : Nat) (s : State) : Host.Outcome State Fault Refusal :=
  .next (if pageExists s page && phaseOpens s page then writeClkEn page v s else s)

/-! ## The frequency counter (R349) -/

/-- FM_CMD go. -/
def fmStart (s : State) : State :=
  if s.on R.FM_CMD_busy then s
  else if 56 ≤ s.rd R.FM_SEL_meas_sel || 56 ≤ s.rd R.FM_SEL_ref_sel then s.wr R.FM_CMD_refused 1
  else (s.wr R.FM_CMD_refused 0).wr R.FM_CMD_busy 1

def execFmStart (s : State) : Host.Outcome State Fault Refusal := .next (ifOpen 1 s (fmStart s))

/-- FM_RUN_END: `how` is 1 DONE, 2 TIMEOUT or 3 ABORTED; a count is kept at DONE. -/
def execFmRunEnd (how count : Nat) (s : State) : Host.Outcome State Fault Refusal :=
  .next (if s.on R.FM_CMD_busy && 1 ≤ how && how ≤ 3 then
    let s := (s.wr R.FM_CMD_busy 0).wr R.FM_CMD_status how
    if how = 1 then s.wr R.FM_COUNT (min count (maxOf 32)) else s
  else s)

end Sys2Proof.Machine
end

