-- ==== Sys2Proof/Machine/Calibration.lean ====
section
/-!
DEFINITION. Calibration commands and events (chapter Calibration and the saffron set, R359-R373), with the temperature
samples that also serve R402.
-/

namespace Sys2Proof.Machine

open Sys2Proof

/-! ## Temperature (R362, R402, R419) -/

/-- CAL_CFG.thresh in quarter degrees, clamped to 2-32 degrees (R373). -/
def calThresh (s : State) (c : Nat) : Nat := 4 * max 2 (min 32 (s.rd (R.CAL_CFG_thresh c)))

/-- The ends that a reading makes due (R362). -/
def tempDue (s : State) (c : Nat) (t : Int) : List Nat :=
  if !s.on (R.CAL_CFG_auto c) then [] else
  (List.range 38).filter fun e =>
    !s.on (R.CAL_DUE c e) && match ((s.calSeq c).endOf e).tcal with
      | some t0 => calThresh s c < (t - t0).natAbs
      | none => false

/-- One cluster's sample. A gated EQA page and WATCH keep the sensor but not the sequencer (R346, R369, R402). -/
def tempOne (c : Nat) (t : Int) (s : State) : State :=
  let s := (s.wr (R.CAL_TEMP_valid c) 1).wr (R.CAL_TEMP_temp c) (unsigned 11 t)
  if s.rd (R.CLK_EN_en (0x20 + c)) = 0 || s.dev.phase = .watch then s else
  let due := tempDue s c t
  if due = [] then s else (due.foldl (fun s e => calDue c 1 e s) s).raise (16 * c + 14)

/-- The lowest-numbered cluster with the highest last sample. -/
def hottest (s : State) : Nat :=
  (List.range (clustersOf s)).foldl (fun b c => if lastTemp s b < lastTemp s c then c else b) 0

/-- TMP_STAT and TMP_PEAK after a sample (R402, R419). -/
def tempStatus (s : State) : State :=
  let h := hottest s
  let m := lastTemp s h
  let s := (s.wr R.TMP_STAT_hot h).wr R.TMP_STAT_max (unsigned 11 m)
  let s := if !s.sup.peakSet || signed 11 (s.rd R.TMP_PEAK_peak) < m then
    { (s.wr R.TMP_PEAK_cluster h).wr R.TMP_PEAK_peak (unsigned 11 m) with sup := { s.sup with peakSet := true } } else s
  let crit := if 440 < m then true else if m ≤ 420 then false else s.on R.TMP_STAT_crit
  (s.wrB R.TMP_STAT_crit crit).setInput 264 crit

/-- The THERMAL fence of R402: one cluster above 120 °C at two consecutive samples. -/
def tempFence (s : State) : State :=
  let now := (List.range (clustersOf s)).filter fun c => 480 < lastTemp s c
  let again := now.any fun c => s.sup.hot.contains c
  let s := { s with sup := { s.sup with hot := now } }
  if again then fencePkg fcThermal (s.wr R.TMP_STAT_shut 1) else s

/-- TEMP_SAMPLE: the readings of clusters 0, 1, … in quarter degrees. -/
def execTempSample (temps : List Int) (s : State) : Host.Outcome State Fault Refusal :=
  .next (if s.dev.phase = .off then s else
    let s := ((List.range (clustersOf s)).zip temps).foldl (fun s p => tempOne p.1 p.2 s) s
    tempFence (tempStatus s))

/-! ## Runs -/

/-- CAL_RUN_START (R361, R363, R364): the end at the head of the queue, skipped ends apart. An RX end that a tracking visit
holds waits for the end of the visit, which starts its run. -/
def execCalRunStart (c : Nat) (s : State) : Host.Outcome State Fault Refusal :=
  onUnit (c < clustersOf s) (if s.dev.phase = .start || inRun s then calRunStart c s else s)

/-- What a run does to its end once it is judged (R366). -/
def calJudge (c e : Nat) (done : Bool) (s : State) : State :=
  let q := s.calSeq c
  let en := q.endOf e
  if done then
    let s := s.putCal c (q.putEnd e { en with tcal := some q.curTemp, disagree := 0 })
    (s.wr (R.CAL_DUE c e) 0).wr (R.CAL_FLT c e) 0
  else
    let s := (s.raise (16 * c + 8)).bump (R.CAL_CNT_disagree c)
    if en.disagree + 1 < 3 then
      s.putCal c ({ q with queue := (q.queue.filter fun x => x ≠ e) ++ [e] }.putEnd e
        { en with disagree := en.disagree + 1, cause := 3 })
    else
      let s := s.putCal c (q.putEnd e { en with tcal := some q.curTemp, disagree := en.disagree + 1 })
      (s.wr (R.CAL_DUE c e) 0).wr (R.CAL_FLT c e) 1

/-- One code toward the accepted value, item by item (R365). -/
def stepToward (corr acc : List Int) : List Int :=
  (corr.zip acc).map fun p => if p.1 < p.2 then p.1 + 1 else if p.2 < p.1 then p.1 - 1 else p.1

/-- One step on an end of a TRANSPARENT link (R365). -/
def calCodeStep (c e : Nat) (s : State) : State :=
  let q := s.calSeq c
  let en := q.endOf e
  let acc := en.accepted.getD (q.corrOf e)
  let corr := stepToward (q.corrOf e) acc
  let s := s.putCal c (q.putEnd e { en with corr := corr })
  if corr = acc then calApply c e s else s

/-- CAL_RUN_END (R361, R365, R366): the two measurements of every item. -/
def calRunEnd (c : Nat) (meas : CalMeasure) (s : State) : State :=
  let q := s.calSeq c
  match q.cur with
  | none => s
  | some e =>
    if sentinelHeld s c e then calStop c 3 s
    else if meas.length ≠ calItems e then s
    else
      let tol := s.rd (R.CAL_CFG_tol c)
      let done := meas.all (calAgree tol)
      let acc := calAccept e tol (q.corrOf e) meas
      let s := calRecord c e (if done then 1 else 2) s
      let s := calJudge c e done s
      let q := s.calSeq c
      let s := s.putCal c ({ q with cur := none, waitStep := some e }.putEnd e { q.endOf e with accepted := some acc })
      if endTransparent s c e then calCodeStep c e s
      else if endCarries s c e then s
      else calApply c e s

def execCalRunEnd (c : Nat) (meas : CalMeasure) (s : State) : Host.Outcome State Fault Refusal :=
  onUnit (c < clustersOf s) (engineNext c (calRunEnd c meas s))

/-- CAL_STEP_APPLY (R365): the next ordered-set boundary of the end. -/
def execCalStepApply (c : Nat) (s : State) : Host.Outcome State Fault Refusal :=
  onUnit (c < clustersOf s) (match (s.calSeq c).waitStep with
    | some e => if endTransparent s c e then s else calApply c e s
    | none => s)

/-- CAL_CODE_STEP (R365). -/
def execCalCodeStep (c : Nat) (s : State) : Host.Outcome State Fault Refusal :=
  onUnit (c < clustersOf s) (match (s.calSeq c).waitStep with
    | some e => if endTransparent s c e then calCodeStep c e s else s
    | none => s)

/-! ## The REXT reference (R359) -/

/-- REXT_FAULT: runs end REXT, source 16c + 8 in every cluster; at the calibration step START fails. -/
def execRextFault (s : State) : Host.Outcome State Fault Refusal :=
  .next (if s.on (R.CAL_STAT_rext_fault 0) || s.dev.phase = .off then s else
    let s := (List.range (clustersOf s)).foldl (fun s c =>
      engineNext c (((calStop c 4 s).wr (R.CAL_STAT_rext_fault c) 1).raise (16 * c + 8))) s
    if s.rd R.START_STAT_step = 3 then startFails 3 s else s)

/-- REXT_FAULT_CLEAR. -/
def execRextFaultClear (s : State) : Host.Outcome State Fault Refusal :=
  .next ((List.range (clustersOf s)).foldl (fun s c => s.wr (R.CAL_STAT_rext_fault c) 0) s)

/-! ## CAL_CMD (R363, R370, R373) -/

/-- May an eye be measured on the end? -/
def eyeAllowed (s : State) (c e : Nat) : Bool :=
  let n := calEndLane c e
  let sd := calEndSide e
  isLocked s n sd || (endTransparent s c e && s.on (leSd n sd))

/-- Is a CAL_CMD refused? -/
def calCmdRefused (s : State) (c op e : Nat) : Bool :=
  37 < e || op = 3 || (op ≠ 2 && s.on (R.CAL_STAT_rext_fault c)) ||
  (op = 2 && (17 < e || (s.calSeq c).eye.isSome || !eyeAllowed s c e))

/-- CAL_CMD go with op and end. -/
def calCmd (c op e : Nat) (s : State) : State :=
  if calCmdRefused s c op e then s.wr (R.CAL_CMD_refused c) 1
  else
    let s := s.wr (R.CAL_CMD_refused c) 0
    if op = 0 then calDue c 2 e s
    else if op = 1 then (List.range 38).foldl (fun s e => calDue c 2 e s) s
    else
      let s := s.putCal c { s.calSeq c with eye := some e }
      ((s.wr (R.EYE_STAT_status c) 1).wr (R.EYE_STAT_end c) e).wr (R.EYE_STAT_rung c) (ckRate s c (calEndDir e))

/-- The fields a CAL_CMD write stores. -/
def calCmdStore (c op e : Nat) (s : State) : State := (s.wr (R.CAL_CMD_end c) e).wr (R.CAL_CMD_op c) op

def execCalEnd (c e : Nat) (s : State) : Host.Outcome State Fault Refusal :=
  .next (ifHas (c < clustersOf s) (0x20 + c) s (calCmd c 0 (e % 64) (calCmdStore c 0 e s)))

def execCalAll (c : Nat) (s : State) : Host.Outcome State Fault Refusal :=
  .next (ifHas (c < clustersOf s) (0x20 + c) s (calCmd c 1 (s.rd (R.CAL_CMD_end c)) (s.wr (R.CAL_CMD_op c) 1)))

def execCalEye (c e : Nat) (s : State) : Host.Outcome State Fault Refusal :=
  .next (ifHas (c < clustersOf s) (0x20 + c) s (calCmd c 2 (e % 64) (calCmdStore c 2 e s)))

/-- Width in mUI and height in mV of one eye (R370). -/
def eyeWidth (x : EyeScan) : Nat := if x.isOpen then (x.earlier + x.later + 1) * 125 / 8 else 0
def eyeHeight (x : EyeScan) : Nat := if x.isOpen then (x.above + x.below + 1) * 2 else 0

/-- The eyes of a rung: one at NRZ rates, three at PAM4 rates. -/
def eyeCount (rung : Nat) : Nat := if rung < 2 then 1 else 3

/-- The figures of a measurement are published together (R370). -/
def eyeDone (c : Nat) (eyes : List EyeScan) (s : State) : State :=
  let n := eyeCount (s.rd (R.EYE_STAT_rung c))
  let s := (s.putCal c { s.calSeq c with eye := none }).wr (R.EYE_STAT_status c) 2
  (List.range 3).foldl (fun s j =>
    let x := eyes.getD j { isOpen := false }
    let on := decide (j < n)
    (s.wr (R.EYE_width c j) (if on then eyeWidth x else 0)).wr (R.EYE_height c j) (if on then eyeHeight x else 0)) s

/-- EYE_END (R370): the measurement is done, or ABORTED. While a visit or a calibration run holds the sentinel it stands at
its current point and does not end (R114, R361). -/
def execEyeEnd (c : Nat) (eyes : List EyeScan) (aborted : Bool) (s : State) : Host.Outcome State Fault Refusal :=
  onUnit (c < clustersOf s) (match (s.calSeq c).eye with
    | none => s
    | some e =>
      if aborted then engineNext c (eyeAbort c e s)
      else if sentinelHeld s c e || (s.calSeq c).cur = some e then s
      else engineNext c (eyeDone c eyes s))

/-! ## CAL_SEL -/

/-- The fields that show an RX end's corrections, in item order (R360, R373). -/
def corrFields (c : Nat) : List (Fld × Nat) :=
  [(R.CORR_H0_h1 c, 0), (R.CORR_H0_h2 c, 1), (R.CORR_H0_h3 c, 2), (R.CORR_H0_h4 c, 3), (R.CORR_H1_h5 c, 4),
   (R.CORR_H1_h6 c, 5), (R.CORR_H1_h7 c, 6), (R.CORR_H1_h8 c, 7), (R.CORR_H2_h9 c, 8), (R.CORR_H2_h10 c, 9),
   (R.CORR_H2_h11 c, 10), (R.CORR_H2_h12 c, 11), (R.CORR_F_f1 c, 12), (R.CORR_F_f2 c, 13), (R.CORR_T_t_low c, 14),
   (R.CORR_T_t_mid c, 15), (R.CORR_T_t_high c, 16), (R.CORR_T_phase c, 17)]

/-- A write of CAL_SEL latches T_cal and the corrections of one end from one cycle; above 37 it latches zeros. -/
def calSelWrite (c e : Nat) (s : State) : State :=
  let q := s.calSeq c
  let s := s.wr (R.CAL_SEL_end c) e
  let corr := if e ≤ 37 then q.corrOf e else []
  let s := s.wr (R.CAL_TCAL_temp c) (if e ≤ 37 then unsigned 11 ((q.endOf e).tcal.getD 0) else 0)
  let s := (corrFields c).foldl (fun s p => s.wr p.1 (if e < 18 then unsigned p.1.width (corr.getD p.2 0) else 0)) s
  let tx := 18 ≤ e && e ≤ 37
  (s.wr (R.CORR_IMP_p c) (if tx then unsigned 6 (corr.getD 0 0) else 0)).wr (R.CORR_IMP_n c)
    (if tx then unsigned 6 (corr.getD 1 0) else 0)

def execCalSelWrite (c e : Nat) (s : State) : Host.Outcome State Fault Refusal :=
  .next (ifHas (c < clustersOf s) (0x20 + c) s (calSelWrite c (e % 64) s))

end Sys2Proof.Machine
end

