-- ==== Sys2Proof/Machine/RingState.lean ====
section
/-!
DEFINITION. Enumeration of the rings as the head runs it and what DONE does everywhere (R431, R449), and the entries that
DELIVER makes at the head (R430, R453).
-/

namespace Sys2Proof.Machine

/-- Every source with target 2 that is active because of a deliver message is pending again, its count unchanged; one whose
target has been changed stays active, and remembered. The head discards its entries and the services of its ring banks (R431). -/
def requeueDelivered (s : State) : State :=
  let s := if isHead s then bankIdle 1 2 (bankIdle 0 2 { s with entries := [] }) else s
  let s := s.ring.resend.foldl (fun s src =>
    if srcTarget s src = 2 && s.on (R.SRC_CFG_active src)
    then (s.wr (R.SRC_CFG_active src) 0).wr (R.SRC_CFG_pend src) 1 else s) s
  { s with ring := { s.ring with resend := s.ring.resend.filter fun src => s.on (R.SRC_CFG_active src) } }

/-- A package that the enumeration has reached on one ring only has no position on the other; one reached by neither keeps its
last positions (R449). -/
def posSync (s : State) : State :=
  let got := s.ring.reached
  if got = [] then s else
  let s := ([0, 1].filter (!got.contains ·)).foldl (fun s r => s.setRingPos r (ownId s) 15) s
  { s with ring := { s.ring with reached := [] } }

/-- DONE at a package (R431, R449). -/
def ringDone (s : State) : State := (requeueDelivered (posSync (s.wr R.PCT_STAT_enum_done 1))).raise 295

/-- The enumeration ends: the head sends DONE on both rings, bit 0 saying whether it found a duplicate. -/
def enumEnd (s : State) : State :=
  let dup := b2n (s.rd R.PCT_STAT_dup ≠ 0)
  let s := { s with ring := { s.ring with enumAt := none, enumOut := [], enumBack := [] } }
  ringDone ((s.broadcast 0x0C [0, dup]).wr R.PCT_CMD_busy 0)

/-- The head enumerates (R449): an ENUM with hop count 0 on each ring whose output hop is up. -/
def enumStart (s : State) : State :=
  let outs := [0, 1].filter (outUp s)
  let s := ((s.bump R.PCT_CNT_enums).wr R.PCT_STAT_present 1).wr R.PCT_STAT_dup 0
  let s := (List.range 8).foldl (fun s i => (s.setRingPos 0 i 15).setRingPos 1 i 15) s
  let s := { s with ring := { s.ring with enumAt := some s.clock, enumOut := outs, enumBack := [] } }
  let s := outs.foldl (fun s r => s.sendOn r (ringBytes 0x02 (ownId s) (ownId s) [0, 0])) (s.wr R.PCT_CMD_busy 1)
  if outs = [] then enumEnd s else s

/-- A DELIVER at the head (R430, R453): ignored when the (ring id, source) has an entry or is being served. -/
def enterDeliver (src count ring : Nat) (fast : Bool) (s : State) : State :=
  let served := [false, true].any fun f =>
    bankServing s f 2 && s.rd (R.BANK_source (cls f) 2) = src && s.rd (R.BANK_ring (cls f) 2) = ring
  if served || s.entries.any (fun e => e.ring = ring && e.src = src) then s
  else { s with entries := s.entries ++ [{ ring := ring, src := src, fast := fast, count := count }] }

end Sys2Proof.Machine
end

