-- ==== Sys2Proof/Machine/SelfTest.lean ====
section
/-!
DEFINITION. Self-test, loops, pattern checking, TEST and JTAG (chapter Self-test, loopbacks and pattern checking,
R374-R395).
-/

namespace Sys2Proof.Machine

open Sys2Proof

/-! ## In-service slices (R376, R381-R383) -/

/-- The rate of the AB loop of a bobbin slice (R383): that of its direction, of its standby PLL, or L1. -/
def sliceRung (s : State) (c : Nat) : Nat :=
  let rate := ckRate s c .ab
  if rate ≠ 7 then rate else if s.on (R.CK_STAT_own_lock c 0) then ckRate s (c ^^^ 1) .ab else 1

/-- A bobbin slice starts on cluster `c` (R383): PLLs that are off start, a pattern-5 generator runs at each TX end, the near-end
loops feed the RX ends (`nearLoop`), whose checkers apply the forced polarity (R388). With a limit that does not hold it ends
LIMIT at once (R374, R376). -/
def bobSliceStart (c : Nat) (enabling : Bool) (s : State) : State :=
  let d := clusterDie c
  let n := 128 + c
  let off := [Dir.ab, Dir.ba].filter fun d => ckRate s c d = 7 && !s.on (R.CK_STAT_own_lock c d.idx)
  let s := testSync s n ((s.setBobSlice d (some c)).putBob c { s.bob c with
    slice := true, enabling := enabling, sliceAt := s.clock, sliceRung := sliceRung s c, started := off.map Dir.idx })
  let s := rxPolApply n .b (rxPolApply n .a s)
  let why := limitCause s d
  if why = 0 then s else bobSliceEnd d resLimit why 0 s

/-- A swap of the cluster has begun in this very cycle. -/
def swapsNow (s : State) (c : Nat) : Bool := s.rd (R.BOB_STAT_state c) = bbSwapping && (s.bob c).since = s.clock

/-- The die's next cluster after the one last tested whose bobbin is READY, cyclically (R381). Where a swap of that bobbin begins
in this cycle the slice does not start (R394). -/
def nextBobbin (s : State) (d : Nat) : Option Nat :=
  let last := if d = 0 then s.bist.last0 else s.bist.last1
  (((List.range 8).map fun i => 8 * d + (last + 1 + i) % 8).find? fun c =>
    s.rd (R.BOB_STAT_state c) = bbReady || swapsNow s c).filter fun c => s.rd (R.BOB_STAT_state c) = bbReady

/-- The bobbin slice of a die's turn. -/
def bobSliceTurn (d : Nat) (s : State) : State :=
  if (bobSliceOf s d).isSome then s else
  match nextBobbin s d with
  | some c => bobSliceStart c false s
  | none => s

/-- BST_CFG.interval in nanoseconds (R381). -/
def bistInterval (s : State) : Nat := max 1 (min 3600 (s.rd R.BST_CFG_interval)) * 1000000000

/-- A turn of R381: every die that is not fenced starts a bank slice and a bobbin slice. -/
def sliceTurn (s : State) : State :=
  (List.range (diesOf s)).foldl (fun s d =>
    if dieFenced s d then s else
    let s := if s.on R.BST_CFG_bank_en && !bankSliceRuns s d then bankSliceTurn d s else s
    if s.on R.BST_CFG_bob_en then bobSliceTurn d s else s) s

/-- SLICE_INTERVAL (R381): a turn that is due; the next falls one interval after it. -/
def execSliceInterval (s : State) : Host.Outcome State Fault Refusal :=
  .next (match s.bist.nextAt with
  | some t =>
    if t ≤ s.clock && inRun s && s.rd (R.CLK_EN_en 7) = 1 then
      sliceTurn { s with bist := { s.bist with nextAt := some (t + bistInterval s) } }
    else s
  | none => s)

/-- BOBBIN_SLICE_END (R374, R383), at the ordered-set boundary at which the result takes effect (R30; log 235): bits checked against the expected 2^26, errors, a checker that did not lock, and what the
replica comparison found. -/
def execBobbinSliceEnd (c bits errors : Nat) (noLock replica : Bool) (s : State) : Host.Outcome State Fault Refusal :=
  onUnit (c < clustersOf s) (if bobSliceOf s (clusterDie c) = some c then
    let r := if noLock then resFail else if bits ≠ 2 ^ 26 then resIncomplete
      else if errors ≠ 0 || replica then resFail else resPass
    bobSliceEnd (clusterDie c) r (if r = resIncomplete then causeStall else 0) errors s
  else s)

/-- BIST_STALL (R376): a run makes no progress for 100 µs. -/
def execBistStall (die : Nat) (s : State) : Host.Outcome State Fault Refusal :=
  onUnit (die < diesOf s) (slicesEnd die resIncomplete causeStall s)

/-! ## BST_CMD -/

def bstRefuse (b : Bool) (s : State) : State := s.wrB R.BST_CMD_refused b

/-- op BOBBIN_NOW (R317, R381): refused unless a slice can start on the cluster. -/
def bobbinNow (c : Nat) (s : State) : State :=
  if c < clustersOf s && (inService s || s.dev.phase = .test) && !dieFenced s (clusterDie c) &&
    s.rd (R.BOB_STAT_state c) = bbReady && (bobSliceOf s (clusterDie c)).isNone
  then bobSliceStart c false (bstRefuse false s) else bstRefuse true s

def execBstBobbinNow (c : Nat) (s : State) : Host.Outcome State Fault Refusal :=
  .next (ifOpen 7 s (bobbinNow c ((s.wr R.BST_CMD_op 0).wr R.BST_CMD_cluster c)))

/-- op ABORT (R384). -/
def bstAbort (s : State) : State :=
  slicesEnd 1 resAborted causeHost (slicesEnd 0 resAborted causeHost (bstRefuse false s))

def execBstAbort (s : State) : Host.Outcome State Fault Refusal := .next (ifOpen 7 s (bstAbort (s.wr R.BST_CMD_op 1)))

/-- Copies, queues and every engine's state are destroyed (R390, R391). -/
def scrub (s : State) : State :=
  let s := dieFree 1 (dieFree 0 s)
  { s with flows := [], trunks := [], sel := { s.sel with queue := [] } }.wr R.SEL_STAT_queued 0

/-- op FULL: TEST only; it destroys the state of every region (R391). -/
def bstFull (s : State) : State :=
  if s.dev.phase = .test then
    let s := scrub (bstRefuse false s)
    { s with bist := { s.bist with full := true, postFrom := s.clock } }
  else bstRefuse true s

def execBstFull (s : State) : Host.Outcome State Fault Refusal := .next (ifOpen 7 s (bstFull (s.wr R.BST_CMD_op 2)))

/-! ## TEST (R390, R391) -/

/-- Step 3 of R390: session keys, and every working register and hash state of the identity and attestation block. The report
already made and the count of reports are neither. -/
def keysZeroed (s : State) : State :=
  let s := { s with sel := { s.sel with keys := [], rsp := [] }, sec := { reports := s.sec.reports } }
  let s := (List.range 8).foldl (fun s i => s.wr (R.ATT_NONCE_nonce i) 0) s
  (List.range 24).foldl (fun s i => s.wr (R.KEY_DATA_data i) 0) s

/-- A START failure, which only a reset leaves (R473): TEST entry does not (DEDUCED: R390 and R476 name no exception; log 279). -/
def startFailed (s : State) : Bool := s.dev.phase = .start && s.rd R.START_STAT_result = 2

/-- Steps 1 to 4 of TEST entry: source 289; spans idle, copies and queues freed; the working key store zeroized; the
fuse key path blocked. A calibration of START ends with it. -/
def testEnter (cause : Nat) (s : State) : State :=
  if s.dev.phase = .off || s.dev.phase = .test || s.dev.testEntry ≠ 0 || startFailed s then s else
  let start : Bool := s.dev.phase = .start
  let s := { s.raise 289 with dev := { s.dev with testEntry := cause } }
  let s := slicesEnd 1 resAborted causeHost (slicesEnd 0 resAborted causeHost s)
  let s := keysZeroed (haltAll (if start then calClocks s else s))
  let s := (s.wr R.KEY_STAT_session 0).wr R.TEST_STAT_keys 1
  ((s.wr R.TEST_STAT_fuse_block 1).wr R.SEC_STAT_fuse_block 1).wr R.ATT_CMD_busy 0

/-- op TEST_ENTER with confirm 0x5A, in SERVICE or GUARD. -/
def bstTestEnter (confirm : Nat) (s : State) : State :=
  if confirm = 0x5A && inRun s then testEnter 1 (bstRefuse false s) else bstRefuse true s

def execBstTestEnter (confirm : Nat) (s : State) : Host.Outcome State Fault Refusal :=
  .next (ifOpen 7 s (bstTestEnter confirm ((s.wr R.BST_CMD_op 3).wr R.BST_CMD_confirm confirm)))

/-- TEST_EN_HIGH (R390). -/
def execTestEnHigh (s : State) : Host.Outcome State Fault Refusal := .next (testEnter 3 s)

/-- TEST_ENTRY_DONE: steps 5 and 6, with the time the scrub took in µs, when every span has sent its EIE (step 2); a save or
restore in progress completes before step 5 (R394). -/
def execTestEntryDone (us : Nat) (s : State) : Host.Outcome State Fault Refusal :=
  .next (if s.dev.testEntry = 0 || eieAwaited s || bankSliceRuns s 0 || bankSliceRuns s 1 then s else
    let cause := s.dev.testEntry
    let s := bistHold (scrub s)
    let s := { s with dev := { s.dev with phase := .test, testEntry := 0, watchEntry := false, waking := false,
                                          stuck := false } }
    let s := ((s.wr R.TEST_STAT_scrubbed 1).wr R.TEST_STAT_scrub_us (min us 65535)).wr R.TEST_STAT_valid 1
    (s.wr R.TEST_STAT_cause cause).wr R.BST_STAT_test 1)

/-! ## BST_CFG (R381) -/

/-- A write of BST_CFG: interval clamps, and its count restarts. -/
def writeBstCfg (v : Nat) (s : State) : State :=
  let s := (s.wr R.BST_CFG_bob_en (bits v 17 17)).wr R.BST_CFG_bank_en (bits v 16 16)
  let s := s.wr R.BST_CFG_interval (max 1 (min 3600 (bits v 11 0)))
  match s.bist.nextAt with
  | some _ => { s with bist := { s.bist with nextAt := some (s.clock + bistInterval s) } }
  | none => { s with bist := { s.bist with leftAt := bistInterval s } }

def execBstCfgWrite (v : Nat) (s : State) : Host.Outcome State Fault Refusal := .next (ifOpen 7 s (writeBstCfg v s))

/-! ## Loops, generators and checkers (R385-R389) -/

/-- Lanes that LANE_SEL can select: the part's lanes, bobbin lanes in TEST only (R395). -/
def laneSelectable (s : State) (n : Nat) : Bool := lanePresent s n && (n < 128 || s.dev.phase = .test)

/-- A side of the lane serves a link, or the lane is a bobbin lane (R386 IN_USE). -/
def laneInUse (s : State) (n : Nat) : Bool := 128 ≤ n || (endUse s n .a).isSome || (endUse s n .b).isSome

/-- The rate an idle direction's PLL cannot leave: that of the direction it is lent to (R98). -/
def lentRate (s : State) (c : Nat) (d : Dir) : Option Nat :=
  if s.on (R.CK_STAT_lent c d.idx) then some (ckRate s (c ^^^ 1) d) else none

/-- The rate a direction of a lane runs at for a loop that asks for `rung`; none when it cannot (R386 RATE). -/
def loopRate (s : State) (c : Nat) (d : Dir) (rung : Nat) : Option Nat :=
  if ckRate s c d ≠ 7 then some (ckRate s c d)
  else if 4 < rung then none
  else match lentRate s c d with
    | some r => if r = rung then some r else none
    | none => some rung

/-- An idle direction would have to be started from a REFCLK that is not judged good (R386 CLOCK). -/
def needsRefclk (s : State) (c : Nat) (d : Dir) : Bool :=
  ckRate s c d = 7 && !s.on (R.CK_STAT_own_lock c d.idx) && !s.on R.CLK_STAT_refclk_good

/-- Why a loop is refused: 0 STATE, 1 IN_USE, 2 RATE, 3 CLOCK; the lowest that applies (R386). -/
def loopWhy (s : State) (n loop dir rung : Nat) : Option Nat :=
  let c := laneCluster n
  if !inRun s && s.dev.phase != .test then some 0
  else if s.dev.phase != .test && laneInUse s n then some 1
  else if (loopDirs loop dir).any fun d => (loopRate s c d rung).isNone then some 2
  else if loop = 3 && loopRate s c .ab rung ≠ loopRate s c .ba rung then some 2
  else if (loopDirs loop dir).any (needsRefclk s c) then some 3
  else none

/-- A refused write of LB_CFG, PRBS_GEN or PRBS_CHK (R386). -/
def loopRefuse (v why : Nat) (s : State) : State := (s.wr (R.LB_CFG_refused v) 1).wr (R.LB_CFG_why v) why

/-- The write of LB_CFG of a lane. -/
def writeLbCfg (n v : Nat) (s : State) : State :=
  if !laneSelectable s n then s else
  let p := lanePage n
  match loopWhy s n (bits v 9 8) (bits v 0 0) (bits v 18 16) with
  | some why => loopRefuse p why s
  | none =>
    let t := (s.wr (R.LB_CFG_refused p) 0).wr (R.LB_CFG_rung p) (bits v 18 16)
    let t := (t.wr (R.LB_CFG_loop p) (bits v 9 8)).wr (R.LB_CFG_dir p) (bits v 0 0)
    testSync s n (t.wrB (R.LB_CFG_active p) (bits v 9 8 ≠ 0))

def execLbCfgWrite (lane v : Nat) (s : State) : Host.Outcome State Fault Refusal := .next (ifOpen 7 s (writeLbCfg lane v s))

/-- Why a generator or checker on the end of direction `d` is refused; on an idle direction it runs at LB_CFG.rung. -/
def patternWhy (s : State) (n : Nat) (d : Dir) : Option Nat :=
  if !inRun s && s.dev.phase != .test then some 0
  else if s.dev.phase != .test && laneInUse s n then some 1
  else if (loopRate s (laneCluster n) d (s.rd (R.LB_CFG_rung (lanePage n)))).isNone then some 2
  else if needsRefclk s (laneCluster n) d then some 3
  else none

/-- The write of PRBS_GEN of a lane; patterns 8-15 are refused (R387). -/
def writePrbsGen (n v : Nat) (s : State) : State :=
  if !laneSelectable s n then s else
  let p := lanePage n
  match patternWhy s n (Side.ofIdx (bits v 4 4)).dirOut with
  | some why => loopRefuse p why s
  | none =>
    if 8 ≤ bits v 3 0 then s.wr (R.LB_CFG_refused p) 1 else
    let t := (s.wr (R.LB_CFG_refused p) 0).wr (R.PRBS_GEN_en p) (bits v 12 12)
    testSync s n ((t.wr (R.PRBS_GEN_side p) (bits v 4 4)).wr (R.PRBS_GEN_pattern p) (bits v 3 0))

def execPrbsGenWrite (lane v : Nat) (s : State) : Host.Outcome State Fault Refusal :=
  .next (ifOpen 7 s (writePrbsGen lane v s))

def State.prbsOf (s : State) (n : Nat) : PrbsSt := Tbl.get {} s.prbs n
def State.putPrbs (s : State) (n : Nat) (v : PrbsSt) : State := { s with prbs := Tbl.put {} n v s.prbs }

/-- An RX end comes under a checker, with its forced polarity, or leaves one (R68, R388); `t` is the state before. -/
def checkSync (t : State) (n : Nat) (s : State) : State :=
  [Side.a, Side.b].foldl (fun s sd => if checked s n sd = checked t n sd then s else rxPolApply n sd s) s

/-- The write of PRBS_CHK of a lane: the checker seeds afresh (R388). -/
def writePrbsChk (n v : Nat) (s : State) : State :=
  if !laneSelectable s n then s else
  let p := lanePage n
  match patternWhy s n (Side.ofIdx (bits v 4 4)).dirIn with
  | some why => loopRefuse p why s
  | none =>
    if 8 ≤ bits v 3 0 then s.wr (R.LB_CFG_refused p) 1 else
    let t := (s.wr (R.LB_CFG_refused p) 0).wr (R.PRBS_CHK_err_thr p) (bits v 31 16)
    let t := (t.wr (R.PRBS_CHK_en p) (bits v 12 12)).wr (R.PRBS_CHK_win p) (bits v 11 8)
    let t := (t.wr (R.PRBS_CHK_side p) (bits v 4 4)).wr (R.PRBS_CHK_pattern p) (bits v 3 0)
    let t := ((t.wr (R.PRBS_STAT_lock p) 0).wr (R.PRBS_STAT_inv p) 0).putPrbs n {}
    checkSync s n (testSync s n t)

def execPrbsChkWrite (lane v : Nat) (s : State) : Host.Outcome State Fault Refusal :=
  .next (ifOpen 7 s (writePrbsChk lane v s))

/-- The rate at which a lane's checker runs: its direction's, or LB_CFG.rung where that is idle (R386). -/
def prbsRate (s : State) (n : Nat) : Nat :=
  let r := ckRate s (laneCluster n) (Side.ofIdx (s.rd (R.PRBS_CHK_side (lanePage n)))).dirIn
  if r ≠ 7 then r else s.rd (R.LB_CFG_rung (lanePage n))

def prbsLocked (s : State) (n : Nat) : Bool := s.on (R.PRBS_CHK_en (lanePage n)) && s.on (R.PRBS_STAT_lock (lanePage n))

/-- PRBS_LOCK (R388): the bits last received, those the checker seeds with and 64 more; for pattern 6 the bits of the decoded data
bytes. 64 bits that match lock it; 64 that all differ lock it with inversion, at an NRZ rate only. -/
def execPrbsLock (lane : Nat) (got : List Bool) (s : State) : Host.Outcome State Fault Refusal :=
  onUnit (lanePresent s lane)
    (if !s.on (R.PRBS_CHK_en (lanePage lane)) || prbsLocked s lane then s else
    match prbsLocks (s.rd (R.PRBS_CHK_pattern (lanePage lane))) (s.rd (R.PRBS_USER_bits (lanePage lane))) got with
    | none => s
    | some inv => if inv && isPam (prbsRate s lane) then s
      else (s.wr (R.PRBS_STAT_lock (lanePage lane)) 1).wrB (R.PRBS_STAT_inv (lanePage lane)) inv)

/-- The bit errors of a checker; for pattern 6 each bad symbol is eight of them (R388). -/
def prbsErrs (s : State) (n errs bad : Nat) : Nat := if s.rd (R.PRBS_CHK_pattern (lanePage n)) = 6 then errs + 8 * bad else errs

/-- Bits checked in lock, with their errors (R388, R389); the first error over the threshold raises 16c + 6 once in its
window. -/
def prbsCount (n bits errs : Nat) (s : State) : State :=
  let p := lanePage n
  let lo := R.PRBS_BITS_LO p
  let s := s.putLive lo (min (s.live lo + bits) (maxOf 64))
  let s := s.countBy (R.PRBS_ERR p) errs
  let st := s.prbsOf n
  let st := { st with winBits := st.winBits + bits, winErrs := st.winErrs + errs }
  if s.rd (R.PRBS_CHK_err_thr p) < st.winErrs && !st.fired then
    (s.putPrbs n { st with fired := true }).raise (16 * laneCluster n + 6)
  else s.putPrbs n st

/-- The length of a checker's error window, in bits (R389). -/
def prbsWindow (s : State) (n : Nat) : Nat := 2 ^ (20 + s.rd (R.PRBS_CHK_win (lanePage n)))

/-- The bits lie in the window that runs, whose end PRBS_ERR_WINDOW_END is: windows follow one another without a gap (R389). -/
def inWindow (s : State) (n bits : Nat) : Bool := (s.prbsOf n).winBits + bits ≤ prbsWindow s n

/-- PRBS_LOCK_LOSS (R388): a window of 1,024 bits with `wnd` errors, more than 64 of which end lock; bits, errors and bad
symbols are those since the checker's last event. -/
def execPrbsLockLoss (lane : Nat) (bits : Nat) (e : BitErrs) (s : State) : Host.Outcome State Fault Refusal :=
  onUnit (lanePresent s lane) (if prbsLocked s lane && 64 < e.wnd && inWindow s lane bits then
    let s := prbsCount lane bits (prbsErrs s lane e.errs e.bad) s
    let s := (s.wr (R.PRBS_STAT_lock (lanePage lane)) 0).wr (R.PRBS_STAT_inv (lanePage lane)) 0
    (s.count (R.PRBS_LOSS (lanePage lane))).putPrbs lane {}
  else s)

/-- PRBS_ERR_THRESHOLD (R389): bits, errors and bad symbols since the checker's last event. -/
def execPrbsErrThreshold (lane : Nat) (bits : Nat) (e : BitErrs) (s : State) : Host.Outcome State Fault Refusal :=
  onUnit (lanePresent s lane) (if prbsLocked s lane && inWindow s lane bits then prbsCount lane bits (prbsErrs s lane e.errs e.bad) s else s)

/-- PRBS_ERR_WINDOW_END (R389): the window has had just its bits, and the count for err_thr restarts. -/
def execPrbsErrWindowEnd (lane : Nat) (bits : Nat) (e : BitErrs) (s : State) : Host.Outcome State Fault Refusal :=
  onUnit (lanePresent s lane)
    (if prbsLocked s lane && (s.prbsOf lane).winBits + bits = prbsWindow s lane then
      (prbsCount lane bits (prbsErrs s lane e.errs e.bad) s).putPrbs lane {} else s)

/-- PRBS_SNAP (R395): the read latches, answers the snapshot number and adds one. -/
def prbsSnap (n : Nat) (s : State) : State :=
  if !laneSelectable s n then s.answerWord 0 else
  let p := lanePage n
  let v := s.rd (R.PRBS_SNAP_snap_no p)
  let s := State.latchAll [R.PRBS_ERR p, R.PRBS_LOSS p, R.LB_EB p] (s.latch64 (R.PRBS_BITS_LO p, R.PRBS_BITS_HI p))
  (s.bumpWrap (R.PRBS_SNAP_snap_no p)).answerWord v

def execPrbsSnap (lane : Nat) (s : State) : Host.Outcome State Fault Refusal :=
  .next (ifOpen 7 (s.answerWord 0) (prbsSnap lane s))

/-- PRBS_CLR (R395). -/
def prbsClr (n : Nat) (s : State) : State :=
  if !laneSelectable s n then s else
  let p := lanePage n
  State.zeroLive [R.PRBS_BITS_LO p, R.PRBS_ERR p, R.PRBS_LOSS p, R.LB_EB p] s

def execPrbsClr (lane : Nat) (s : State) : Host.Outcome State Fault Refusal := .next (ifOpen 7 s (prbsClr lane s))

/-! ## JTAG (R392, R393) -/

/-- The instructions marked TEST. -/
def jtagTest (op : Nat) : Bool :=
  op = 0x00 || op = 0x03 || op = 0x04 || op = 0x09 || op = 0x0A || op = 0x20

/-- Load an instruction; one marked TEST enters TEST, in any state other than OFF. -/
def jtagLoad (op : Nat) (s : State) : State :=
  let s := { s with dev := { s.dev with jtag := op } }
  if jtagTest op then testEnter 2 s else s

/-- The scan chains are enabled: SCAN_ENTRY is loaded and the clearing of R390 has ended. -/
def scanEnabled (s : State) : Bool := s.dev.jtag = 0x20 && s.dev.phase = .test

/-- The boundary cells drive the pins: with every instruction marked TEST, from Update-IR (R393). -/
def pinsDriven (s : State) : Bool := jtagTest s.dev.jtag

/-- Where boundary cells are placed (R393). -/
def boundaryCell : Pad → Option BoundaryCell
  | .tx _ _ | .clockTx _ _ => some .acDriver
  | .rx _ _ | .clockRx _ _ => some .testReceiver
  | .refclk => some .observe
  | .host _ | .flash _ | .status _ | .picot _ => some .dc
  | .rext | .supply _ | .testEn | .tap _ => none

/-- The level that a boundary cell drives at its pad: what it was loaded with; none where no cell drives it, or HIGHZ, which
drives no level, is loaded (PRESUMED, as 1149.1 has it; log 280). -/
def padLevel (s : State) (p : Pad) : Option Bool :=
  if pinsDriven s && s.dev.jtag ≠ 0x04 && (boundaryCell p = some .acDriver || boundaryCell p = some .dc)
  then some (Config.cellValue s.dev.cells p) else none

/-- The identification register (R392). -/
def idcodeWord (s : State) : Nat := s.fuse.rev % 16 * 2 ^ 28 + partCode s * 2 ^ 12 + 0x2C5 * 2 + 1

def execExtest (s : State) : Host.Outcome State Fault Refusal := .next (jtagLoad 0x00 s)
/-- SAMPLE/PRELOAD: the boundary register is loaded, with bits that the command does not name: a free value. -/
def samplePreload (s : State) : State :=
  let (i, s) := (jtagLoad 0x01 s).draw
  { s with dev := { s.dev with cells := i } }

def execSamplePreload (s : State) : Host.Outcome State Fault Refusal := .next (samplePreload s)
/-- IDCODE: the identification register is selected and answers. -/
def execIdcode (s : State) : Host.Outcome State Fault Refusal := .next ((jtagLoad 0x02 s).answerWord (idcodeWord s))
def execClamp (s : State) : Host.Outcome State Fault Refusal := .next (jtagLoad 0x03 s)
def execHighz (s : State) : Host.Outcome State Fault Refusal := .next (jtagLoad 0x04 s)
def execExtestPulse (s : State) : Host.Outcome State Fault Refusal := .next (jtagLoad 0x09 s)
def execExtestTrain (s : State) : Host.Outcome State Fault Refusal := .next (jtagLoad 0x0A s)
def execScanEntry (s : State) : Host.Outcome State Fault Refusal := .next (jtagLoad 0x20 s)
def execBypass (s : State) : Host.Outcome State Fault Refusal := .next (jtagLoad 0xFF s)
/-- JTAG_TRST: the TAP resets and IDCODE is selected; TEST is not left (R391, R392). -/
def execJtagTrst (s : State) : Host.Outcome State Fault Refusal := .next { s with dev := { s.dev with jtag := 0x02 } }

end Sys2Proof.Machine
end

