-- ==== Sys2Proof/Machine/Watch.lean ====
section
/-!
DEFINITION. WATCH and the clove watch (chapter Device clocks, P-levels and the clove watch, R350-R355).
-/

namespace Sys2Proof.Machine

open Sys2Proof

/-- Something of R350 BUSY is in progress. -/
def watchBusy (s : State) : Bool :=
  s.on R.PRK_CMD_busy || (List.range 2).any (fun d => s.rd (R.PL_STAT_phase d) ≠ 0) ||
  bankSliceRuns s 0 || bankSliceRuns s 1 || s.bist.bob0.isSome || s.bist.bob1.isSome ||
  (List.range (clustersOf s)).any (fun c => s.rd (R.BOB_STAT_state c) = bbSwapping || s.rd (R.BOB_STAT_state c) = bbReturning) ||
  s.on R.BT_STAT_loading

/-- Why WATCH entry is refused: 1 STATE, 2 BUSY, 3 CUSTODY; 0 accepted (R350). -/
def watchWhy (s : State) (force : Bool) : Nat :=
  if deviceState s ≠ 2 || !inService s then 1 else if watchBusy s then 2 else if custodyHeld s && !force then 3 else 0

/-- WATCH_CMD op ENTER: steps 1 to 3 of R351 begin at once. -/
def watchEnter (force : Bool) (s : State) : State :=
  let s := (s.wrB R.WATCH_CMD_force force).wr R.WATCH_CMD_op 0
  if s.on R.WATCH_CMD_busy then s else
  let why := watchWhy s force
  let s := s.wr R.WATCH_CMD_why why
  if why ≠ 0 then s.wr R.WATCH_CMD_refused 1 else
  let s := (s.wr R.WATCH_CMD_refused 0).wr R.WATCH_CMD_busy 1
  let s := { s with dev := { s.dev with watchEntry := true } }
  let s := loopStopAll (haltAll s)
  (List.range (clustersOf s)).foldl (fun s c => calAbortAny c s) s

def execWatchEnter (force : Bool) (s : State) : Host.Outcome State Fault Refusal := .next (ifOpen 2 s (watchEnter force s))

/-- The PLLs stop and the core LDOs turn off (R351 step 4). -/
def pllsStop (s : State) : State :=
  let s := (pllUnits s).foldl (fun s u => (s.setPllRef u 3).wr (pllLockFld u) 0) s
  (List.range (diesOf s)).foldl (fun s d => s.wr (R.PL_STAT_vout d) 0) (seamUp false s)

/-- The cluster PLLs stop: every direction is OFF (R351 step 4), exit clock ends are in electrical idle (R79), and entry clock
ends, which are not judged in WATCH, stand in loss and unqualified (R82). -/
def clustersOff (s : State) : State :=
  (List.range (clustersOf s)).foldl (fun s c => [Dir.ab, Dir.ba].foldl (fun s d =>
    let i := d.idx
    let s := s.putCk c d { borrowEn := (s.ck c d).borrowEn, standby := (s.ck c d).standby }
    let s := s.putCkExit c d { s.ckExit c d with idle := true }
    let s := (s.putCkEntry c d { s.ckEntry c d with loss := true }).wr (R.CK_STAT_ckl_ok c i) 0
    let s := ((s.wr (R.CK_STAT_mode c i) 0).wr (R.CK_STAT_pll_lock c i) 0).wr (R.CK_STAT_own_lock c i) 0
    ((s.wr (R.CK_STAT_borrowed c i) 0).wr (R.CK_STAT_lent c i) 0).wr (R.RATE_STAT_rate c i) 7) s) s

/-- WATCH_ENTRY_DONE: steps 4 and 5 of R351, when step 2 is done: every TX end has sent EIE and is idle. -/
def execWatchEntryDone (s : State) : Host.Outcome State Fault Refusal :=
  .next (if s.dev.watchEntry && !s.dev.waking && !eieAwaited s then
    let s := clustersOff (pllsStop (bistHold s))
    let s := dieFree 1 (dieFree 0 s)
    let s := ((s.wr R.CLK_STAT_refclk_good 0).wr R.CLK_STAT_ifo_ready 0).wr R.CLK_STAT_ifo_low 1
    let s := armMonitor { s with clk := { s.clk with goodSince := none, holdPassed := false, tripDue := false } }
    let s := { s with dev := { s.dev with phase := .watch, watchEntry := false } }
    s.wr R.WATCH_CMD_busy 0
  else s)

/-- The package can be woken: it is in WATCH, or on its way there, and not waking already. -/
def canWake (s : State) : Bool := (s.dev.phase = .watch || s.dev.watchEntry) && !s.dev.waking && s.dev.testEntry = 0

/-- A wake begins (R353, R354): the cause is recorded and the IFO leaves LOW. -/
def wakeStart (cause index : Nat) (s : State) : State :=
  let s := ((s.wr R.WATCH_STAT_valid 1).wr R.WATCH_STAT_cause cause).wr R.WATCH_STAT_index index
  let s := { s with dev := { s.dev with waking := true, wakeAt := s.clock, stuck := false } }
  let s := if s.on R.CLK_STAT_ifo_low then (s.wr R.CLK_STAT_ifo_low 0).wr R.CLK_STAT_ifo_ready 0 else s
  judgeStart (s.wr R.WATCH_CMD_busy 1)

/-- WATCH_CMD op WAKE: accepted only in WATCH (R357). -/
def watchWake (s : State) : State :=
  let s := s.wr R.WATCH_CMD_op 1
  if s.on R.WATCH_CMD_busy then s else
  if s.dev.phase = .watch then wakeStart 5 0 (s.wr R.WATCH_CMD_refused 0) else s.wr R.WATCH_CMD_refused 1

def execWatchWake (s : State) : Host.Outcome State Fault Refusal := .next (ifOpen 2 s (watchWake s))

/-- WAKE_N_LOW (R353). -/
def execWakeNLow (s : State) : Host.Outcome State Fault Refusal :=
  .next (if canWake s && s.on R.WATCH_CFG_wake_n_en then wakeStart 3 0 s else s)

/-- WAKE_SIGDET (R353): an RX end of a used side. -/
def execWakeSigdet (n : Nat) (sd : Side) (s : State) : Host.Outcome State Fault Refusal :=
  onUnit (lanePresent s n)
    (if canWake s && s.on R.WATCH_CFG_sd_en && (endUse s n sd).isSome
      then wakeStart 4 (laneCluster n) (s.wr (leSd n sd) 1) else s)

/-- A valid WATCH_LIST entry names the source. -/
def watched (s : State) (src : Nat) : Bool :=
  (List.range 32).any fun i => s.on (R.WATCH_LIST_valid i) && s.rd (R.WATCH_LIST_source i) = src

/-- WAKE_SOURCE (R353): a non-maskable or a watched source that is pending, whether or not it is enabled. -/
def execWakeSource (src : Nat) (s : State) : Host.Outcome State Fault Refusal :=
  onUnit (src < 320) (if canWake s && sourceExists s src && s.on (R.SRC_CFG_pend src) then
    (if isNmi src then wakeStart 1 src s else if watched s src then wakeStart 2 src s else s) else s)

/-- The messages a ring head kept in WATCH are entered at wake (R432). -/
def enterKept (s : State) : State :=
  let kept := s.ring.inWatch
  let s := { s with ring := { s.ring with inWatch := [] } }
  kept.foldl (fun s m =>
    let w := beNat (m.2.take 2)
    enterDeliver (w % 1024) (m.2.getD 2 0) m.1 (32768 ≤ w) s) s

/-- WAKE_COMPLETE (R354, R476): the PLLs are locked and the core has restored its state. A fence that arose in WATCH takes
effect now; the spans of every other link train. -/
def execWakeComplete (s : State) : Host.Outcome State Fault Refusal :=
  .next (if s.dev.waking && (pllUnits s).all (fun u => s.on (pllLockFld u) && pllRef s u ≠ 3) then
    let us := (s.clock - s.dev.wakeAt) / 1000
    let s := (List.range (diesOf s)).foldl (fun s d => s.wr (R.PL_STAT_vout d) (levelVout (s.rd (R.PL_STAT_level d)))) s
    let s : State := { s with dev := { s.dev with phase := .run, waking := false, watchEntry := false } }
    let s := (s.wr R.WATCH_STAT_wake_us (min us 65535)).wr R.WATCH_CMD_busy 0
    suspectSlices (trainAll (haltFenced (enterKept (if s.rd (R.CLK_EN_en 7) = 1 then bistResume s else s))))
  else s)

/-- WAKE_IFO_TIMEOUT (R354), 200 µs after the cause: 257; without a good REFCLK either, the device stays in WATCH with FAULT_N asserted. -/
def execWakeIfoTimeout (s : State) : Host.Outcome State Fault Refusal :=
  .next (if s.dev.waking && s.dev.wakeAt + 200000 ≤ s.clock && !s.on R.CLK_STAT_ifo_ready then
    let s := s.raise 257
    if s.on R.CLK_STAT_refclk_good then { s with clk := { s.clk with aoRefclk := true } }
    else { s with dev := { s.dev with waking := false, stuck := true } }.wr R.WATCH_CMD_busy 0
  else s)

end Sys2Proof.Machine
end

