-- ==== Sys2Proof/Machine/Faults.lean ====
section
/-!
DEFINITION. Supplies and host fences (chapter Faults, survival and the single-fault budget, R399, R400, R408-R410, R418).
-/

namespace Sys2Proof.Machine

open Sys2Proof

/-! ## Supplies -/

/-- Warn and reset threshold of a rail in mV, and the hysteresis of each (R399). -/
def railLevels (rail : Nat) : Nat × Nat :=
  match rail with
  | 0 => (810, 780)
  | 1 => (860, 830)
  | 2 => (1140, 1100)
  | _ => (1710, 1620)
def railHysteresis : Nat := 10

/-- POST pauses while a supply warning is active (R376). -/
def postPause (s : State) : State :=
  if s.dev.phase = .start && s.rd R.START_STAT_step = 5 && s.bist.pauseFrom.isNone && anyWarn s then
    { s with bist := { s.bist with pauseFrom := some s.clock } }
  else s

/-- POST resumes when no warning is left. -/
def postResume (s : State) : State :=
  match s.bist.pauseFrom with
  | some t => if anyWarn s then s else
    { s with bist := { s.bist with pauseFrom := none, paused := s.bist.paused + (s.clock - t) } }
  | none => s

/-- The rail has been below its warn threshold for more than 1 µs (R400). -/
def railWarns (x : RailAt) : Bool := x.mv < (railLevels x.rail).1 && 1000 < x.ns

/-- The rail has been above warn + 10 mV for more than 1 µs (R400). -/
def railClears (x : RailAt) : Bool := (railLevels x.rail).1 + railHysteresis < x.mv && 1000 < x.ns

/-- SUPPLY_WARN_SET (R400): the warning and its source; self-test limits are lost. -/
def execSupplyWarnSet (x : RailAt) (s : State) : Host.Outcome State Fault Refusal :=
  onUnit (x.rail < 4) (if !railWarns x || s.on (R.SUP_STAT_warn x.rail) || s.dev.phase = .off then s else
    let s := ((s.wr (R.SUP_STAT_warn x.rail) 1).bump (R.SUP_CNT_cnt x.rail)).setInput (260 + x.rail) true
    postPause (limitFails causeSupply s))

/-- SUPPLY_WARN_CLEAR (R400). -/
def execSupplyWarnClear (x : RailAt) (s : State) : Host.Outcome State Fault Refusal :=
  onUnit (x.rail < 4) (if railClears x && s.on (R.SUP_STAT_warn x.rail) then
    suspectSlices (postResume ((s.wr (R.SUP_STAT_warn x.rail) 0).setInput (260 + x.rail) false)) else s)

/-- SUPPLY_SAMPLE (R418): the rails in mV, in index order. -/
def execSupplySample (vals : List Nat) (s : State) : Host.Outcome State Fault Refusal :=
  .next (if s.dev.phase = .off then s else
    ((List.range 4).zip vals).foldl (fun s p =>
      let v := min p.2 4095
      (s.wr (R.SUP_V_now p.1) v).wr (R.SUP_V_min p.1) (min v (s.rd (R.SUP_V_min p.1)))) s)

/-! ## FENCE_CMD (R410) -/

/-- The field that holds a unit's fence cause: 0-3 regions, 4-5 dies, 6 the package. -/
def fenceFld (unit : Nat) : Fld :=
  if unit < 4 then R.FENCE_STAT_region unit else if unit < 6 then R.FENCE_STAT_die (unit - 4) else R.FENCE_STAT_pkg

/-- The part has the unit. -/
def fenceUnit (s : State) (unit : Nat) : Bool :=
  if unit < 4 then unit < regionsOf s else if unit < 6 then unit - 4 < diesOf s else unit = 6

/-- The dies a unit lies in or covers. -/
def unitDies (s : State) (unit : Nat) : List Nat :=
  if unit < 4 then [unit / 2] else if unit < 6 then [unit - 4] else List.range (diesOf s)

/-- A cause that keeps a unit from being lifted is present (R410 CAUSE). -/
def liftCause (s : State) (unit : Nat) : Bool :=
  (unitDies s unit).any (fun d => !s.on (R.CLK_STAT_core_lock d) || 16 < retiredBanks s d) || noClock s ||
  (List.range (clustersOf s)).any fun c => 420 < lastTemp s c

/-- The unit's die or the package is fenced (R410 PARENT). -/
def parentFenced (s : State) (unit : Nat) : Bool :=
  if unit < 4 then dieFenced s (unit / 2) || pkgFenced s else if unit < 6 then pkgFenced s else false

/-- Why FENCE_CMD is refused; 0 accepted. INVALID comes first, then the lowest code (R410). -/
def fenceWhy (s : State) (op unit : Nat) : Nat :=
  if 2 ≤ op || !fenceUnit s unit then 7
  else if !inRun s then 1
  else if op = 0 && s.rd (fenceFld unit) ≠ 0 then 2
  else if op = 1 && liftCause s unit then 3
  else if op = 1 && parentFenced s unit then 4
  else if s.on R.PRK_CMD_busy then 5
  else if op = 1 && s.rd (fenceFld unit) = 0 then 6
  else 0

/-- Clear a cause PARENT. -/
def clearParent (f : Fld) (s : State) : State := if s.rd f = fcParent then s.wr f 0 else s

/-- Lift a unit with its PARENT fences (R410). A lifted die starts with every slot FREE, and its pneed is judged afresh. -/
def liftUnit (unit : Nat) (s : State) : State :=
  let liftDie := fun d (s : State) =>
    let s := s.wr (R.PRK_DIE_pneed d) (pNeed provedView s d)
    dieFree d (clearParent (R.FENCE_STAT_region (2 * d)) (clearParent (R.FENCE_STAT_region (2 * d + 1)) s))
  let s := s.wr (fenceFld unit) 0
  if unit < 4 then s
  else if unit < 6 then liftDie (unit - 4) s
  else (List.range (diesOf s)).foldl (fun s d =>
    if s.rd (R.FENCE_STAT_die d) = fcParent then liftDie d (s.wr (R.FENCE_STAT_die d) 0) else s) s

/-- Re-check triggers (R304): 1 a re-measured round trip or UP, 2 a lift, 3 a change of usable slots. -/
def rkLift : Nat := 2

/-- FENCE_CMD go (R409, R410). -/
def fenceCmd (op unit : Nat) (s : State) : State :=
  let why := fenceWhy s op unit
  let s := s.wr R.FENCE_CMD_why why
  if why ≠ 0 then s.wr R.FENCE_CMD_refused 1 else
  let s := s.wr R.FENCE_CMD_refused 0
  if op = 0 then
    (if unit < 4 then fenceRegion unit fcHost s else if unit < 6 then fenceDie (unit - 4) fcHost s else fencePkg fcHost s)
  else
    let before := s
    let s := liftUnit unit s
    let s := (List.range (linksOf s)).foldl (fun s k =>
      if linkFenced before k && !linkFenced s k then linkTrain false k s else s) s
    suspectSlices (startRecheck rkLift s)

/-- The fields a FENCE_CMD write stores; unit 7 is refused and nothing is stored (R410, R493). -/
def fenceStore (op unit : Nat) (s : State) : State :=
  if unit = 7 then s else (s.wr R.FENCE_CMD_op op).wr R.FENCE_CMD_unit unit

def execFenceCmdFence (unit : Nat) (s : State) : Host.Outcome State Fault Refusal :=
  .next (ifOpen 0 s (fenceCmd 0 (unit % 8) (fenceStore 0 (unit % 8) s)))

def execFenceCmdLift (unit : Nat) (s : State) : Host.Outcome State Fault Refusal :=
  .next (ifOpen 0 s (fenceCmd 1 (unit % 8) (fenceStore 1 (unit % 8) s)))

end Sys2Proof.Machine
end

