-- ==== Sys2Proof/Machine/Start.lean ====
section
/-!
DEFINITION. Resets, START and boot (chapter Reset, start-up and device states, R401, R465-R481).
-/

namespace Sys2Proof.Machine

open Sys2Proof

/-! ## Resets (R401, R465, R466, R477) -/

/-- Registers that a pin or brown-out reset keeps (R477): BST_REPAIR (R395), IFO_CORR, BO_LAST and RST_CAUSE.pins. -/
def keptFields : List Fld :=
  [R.BST_REPAIR_burnt, R.BST_REPAIR_log 0, R.BST_REPAIR_log 1, R.BST_REPAIR_overflow, R.BST_REPAIR_fuse_en,
   R.IFO_CORR_valid, R.IFO_CORR_ppm, R.BO_LAST_valid, R.BO_LAST_rail, R.BO_LAST_count, R.RST_CAUSE_pins]

/-- The package held in reset: every register at its reset value but for what R477 keeps; fuses never change. The commands
that wait, the free values still to be drawn and the TAP are not the package's registers. -/
def resetTo (kind : Nat) (s : State) : State :=
  let t := { State.reset with pending := s.pending, freeCtr := s.freeCtr, fuse := s.fuse }
  let t := { t with dev := { t.dev with jtag := s.dev.jtag, cells := s.dev.cells, railLow := kind ≠ 3 || s.dev.railLow } }
  let t := if kind = 1 then t else
    keptFields.foldl (fun t f => t.wr f (s.rd f)) { t with bist := { t.bist with log := s.bist.log } }
  t.wr R.RST_CAUSE_kind kind

/-- POWER_ON_RESET (R465). -/
def execPowerOnReset (s : State) : Host.Outcome State Fault Refusal := .next (resetTo 1 s)

/-- PIN_RESET (R466): one more pin reset. A pin that goes low during another hold does not change its kind (R477). -/
def execPinReset (s : State) : Host.Outcome State Fault Refusal :=
  .next (if s.dev.phase = .off then s.bump R.RST_CAUSE_pins else (resetTo 3 s).bump R.RST_CAUSE_pins)

/-- The rail has been below its reset threshold for more than 100 ns: a dip of at most 100 ns never resets (R401). -/
def railFails (x : RailAt) : Bool := x.mv < (railLevels x.rail).2 && 100 < x.ns

/-- BROWN_OUT_RESET (R401): the rail and the count; a power-on hold stays one (R477). -/
def execBrownOutReset (x : RailAt) (s : State) : Host.Outcome State Fault Refusal :=
  onUnit (x.rail < 4) (if !railFails x || (s.dev.phase = .off && s.rd R.RST_CAUSE_kind = 1) then s else
    (((resetTo 2 s).wr R.BO_LAST_valid 1).wr R.BO_LAST_rail x.rail).bump R.BO_LAST_count)

/-- Every TX end is high impedance, and every RX end and entry clock end presents at least 20 kΩ: from a rail below its reset
threshold until the release that follows its return (R501). -/
def padsHighZ (s : State) : Bool := s.dev.railLow

/-! ## Release -/

/-- Fused rows hold their spare rows (R379, R380). -/
def fusedRows (rows : List Nat) (s : State) : State :=
  rows.foldl (fun s r =>
    (s.bump (R.BANK_STAT_rows (r / 128 / 33) (r / 128 % 33))).wr (R.BANK_STAT_fuse (r / 128 / 33) (r / 128 % 33)) 1) s

/-- The fuse fields as they are loaded at release (R379, R457, R461, R481). -/
def loadFuses (s : State) : State :=
  let s := (s.wr R.PART_part (partCode s)).wr R.PART_rev s.fuse.rev
  let s := (s.wr R.KEY_STAT_enrolled s.fuse.enrolled).wr R.KEY_STAT_revoked s.fuse.revoked
  let s := s.wrB R.CLK_STAT_fuse_judge (bit (s.fuse.saffron.getD 14 0) 0)
  let s := (List.range 24).foldl (fun s i => s.wr (R.ID_PUB_key i) (s.fuse.idPub.getD i 0)) s
  let s := s.bist.log.foldl (fun s r => s.wr (R.BANK_STAT_fuse (r / 128 / 33) (r / 128 % 33)) 1) s
  fusedRows s.fuse.rows s

/-- On the LZ4064 the die 1 fields of shared registers read zero (R356, R357). -/
def clearDie1 (s : State) : State :=
  if isLz4064 s then (s.wr (R.CLK_STAT_core_ref 1) 0).wr (R.PL_STAT_vout 1) 0 else s

/-- The straps as sampled, in the layout of GLB.STRAPS: boot_mode [9:8], ring_id [6:4], addr [2:0] (R467). -/
def latchStraps (v : Nat) (s : State) : State :=
  let s := ((s.wr R.STRAPS_boot_mode (bits v 9 8)).wr R.STRAPS_ring_id (bits v 6 4)).wr R.STRAPS_addr (bits v 2 0)
  let s := (s.wr R.HST_STAT_ring_id (bits v 6 4)).wr R.HST_STAT_smb_addr (bits v 2 0)
  s.wrB R.PCT_STAT_head (bits v 6 4 = 0)

/-- RESET_RELEASE (R472): straps and fuses; fabric time starts; START begins with step SAFFRON. -/
def execResetRelease (straps : Nat) (s : State) : Host.Outcome State Fault Refusal :=
  .next (if s.dev.phase = .off then
    let s := clearDie1 (loadFuses (latchStraps straps s))
    let s := { s with dev := { s.dev with phase := .start, railLow := false }, fab := 0, clock := 0 }
    judgeStart (s.wr R.START_STAT_step 1)
  else s)

/-! ## The steps of START (R472) -/

/-- CRC-32 of IEEE 802.3, one bit and one byte at a time. -/
def crc32Step (c : Nat) : Nat := if c % 2 = 1 then (c / 2) ^^^ 0xEDB88320 else c / 2
def crc32Byte (c b : Nat) : Nat :=
  crc32Step (crc32Step (crc32Step (crc32Step (crc32Step (crc32Step (crc32Step (crc32Step (c ^^^ (b % 256)))))))))
def crc32 (bs : List Nat) : Nat := (bs.foldl crc32Byte 0xFFFFFFFF) ^^^ 0xFFFFFFFF

/-- The saffron image passes: format 0x01 and CRC-32, most significant byte first (R371, R372). -/
def saffronOk (s : State) : Bool :=
  s.fuse.saffron.headD 0 = 1 && s.fuse.saffron.length = 64 && crc32 (s.fuse.saffron.take 60) = beNat (s.fuse.saffron.drop 60)

/-- Store a 48-byte digest in twelve word registers. -/
def putDigest (f : Nat → Fld) (bytes : List Nat) (s : State) : State :=
  ((List.range 12).zip (beWords 12 bytes)).foldl (fun s p => s.wr (f p.1) p.2) s

def startStep (n : Nat) (s : State) : State := { s.wr R.START_STAT_step n with dev := { s.dev with stepAt := s.clock } }

/-- Step CALIBRATE: a REXT fault fails START; every end of every cluster is due, and the cluster PLLs run at L1 (R359, R368). -/
def enterCalibrate (s : State) : State :=
  let s := startStep 3 s
  if s.on (R.CAL_STAT_rext_fault 0) then startFails 3 s else
  (List.range (clustersOf s)).foldl (fun s c =>
    (List.range 38).foldl (fun s e => calDue c 0 e s) (standbySync c s)) s

/-- Step POST; it pauses at once under a supply warning (R376, R377). -/
def enterPost (s : State) : State :=
  postPause { startStep 5 s with bist := { s.bist with postFrom := s.clock } }

/-- Step REPAIR, skipped when nothing is to be fused (R380). -/
def enterRepair (s : State) : State :=
  calClocks (if s.on R.BST_REPAIR_fuse_en && s.bist.log ≠ [] then startStep 4 s else enterPost (s.wr R.BST_REPAIR_burnt 0))

/-- The rows of a log that are fused: with those fused before, four in a bank, which has no more spare rows (R379; DESIGN CHOICE:
R380 has no such limit, log 276). -/
def fuseable : List Nat → List Nat → List Nat
  | _, [] => []
  | fused, r :: rest =>
    if (fused.filter fun x => x / 128 = r / 128).length < 4 then r :: fuseable (r :: fused) rest else fuseable fused rest

/-- The logged rows are burnt and the log is cleared (R380). -/
def burnLog (s : State) : State :=
  let rows := fuseable s.fuse.rows s.bist.log
  let s := { s with fuse := { s.fuse with rows := s.fuse.rows ++ rows }, bist := { s.bist with log := [] } }
  fusedRows rows (((s.wr R.BST_REPAIR_burnt rows.length).wr (R.BST_REPAIR_log 0) 0).wr (R.BST_REPAIR_log 1) 0)

/-! ## What POST finds (R374, R377-R379) -/

/-- The bank runs of a part that reached their expected count, 204,800 operations, and those that did not. -/
def bankCounted (s : State) (x : PostBank) : Bool := x.bank / 33 < diesOf s && x.ops = 204800
def bankShort (s : State) (x : PostBank) : Bool := x.bank / 33 < diesOf s && x.ops ≠ 204800

/-- The signature of a region, and whether its logic run reads PASS: 65,536 patterns applied, and the signature that the ROM
holds. -/
def postSig (r : PostEnd) (i : Nat) : Nat := ((r.logic.find? fun x => x.region = i).map PostLogic.sig).getD (Config.lbistRom i)
def logicCount (r : PostEnd) (i : Nat) : Nat := ((r.logic.find? fun x => x.region = i).map PostLogic.patterns).getD 65536
def logicFails (r : PostEnd) (i : Nat) : Bool := logicCount r i ≠ 65536 || postSig r i ≠ Config.lbistRom i

/-- The other memories of a die: one has not had its count, or one that has it failed. -/
def memShort (r : PostEnd) (d : Nat) : Bool := r.mems.any fun x => x.die = d && !x.full
def memFails (r : PostEnd) (d : Nat) : Bool := r.mems.any fun x => x.die = d && x.full && x.fails

/-- Bits `0..n-1` of a number by a rule. -/
def maskOf (n : Nat) (p : Nat → Bool) : Nat := (List.range n).foldl (fun v i => if p i then v + 2 ^ i else v) 0

/-- A step of POST reads INCOMPLETE: an applied count differs from the expected one. -/
def postShort (s : State) (r : PostEnd) : Bool :=
  (List.range (regionsOf s)).any (fun i => logicCount r i ≠ 65536) || r.banks.any (bankShort s) ||
  (List.range (diesOf s)).any (memShort r)

/-- One bank's memory run in POST: rows repaired while spares are free, the bank retired otherwise (R378-R380). -/
def postBank (d b : Nat) (rows : List Nat) (s : State) : State :=
  if rows.length + s.rd (R.BANK_STAT_rows d b) ≤ 4 then rows.foldl (fun s r => repairRow d b r s) s
  else retireBank d b s

/-- The result of POST as a whole (R374, R378). -/
def postResult (s : State) (r : PostEnd) : Nat :=
  if postShort s r then resIncomplete
  else if (List.range (regionsOf s)).any (logicFails r) || (List.range (diesOf s)).any (memFails r) ||
      (List.range (diesOf s)).any (fun d => 16 < retiredBanks s d) then resFail
  else if r.banks.any (fun x => bankCounted s x && x.rows ≠ []) then resRepaired
  else resPass

/-- The duration of POST so far, in µs (R395). -/
def postTime (s : State) : State := s.wr R.BST_POST_us (min ((s.clock - s.bist.postFrom) / 1000) 65535)

/-- Record a POST (R377-R379, R395). -/
def postRecord (r : PostEnd) (s : State) : State :=
  let s := (List.range (regionsOf s)).foldl (fun s i => s.wr (R.LBIST_SIG_sig i) (postSig r i)) s
  let s := (r.banks.filter (bankCounted s)).foldl (fun s x => postBank (x.bank / 33) (x.bank % 33) (rowsFound x.rows) s) s
  let s := s.wr R.BST_POST_lbist_fail (maskOf (regionsOf s) (logicFails r))
  let s := s.wr R.BST_POST_mem_fail (maskOf (diesOf s) (memFails r))
  (postTime s).wr R.BST_POST_result (postResult s r)

/-- The boot mode in force after the table step (R469): 0 STEPPED, 1 BLIND, 2 HOLD. -/
def bootMode (s : State) : Nat :=
  let m := s.rd R.STRAPS_boot_mode
  if 2 ≤ m || !s.bt.live || s.bt.boot = 1 then 2 else m

/-- Step RING: the head enumerates (R449, R472). -/
def enterRing (s : State) : State :=
  let s := startStep 8 s
  if isHead s then enumStart s else s

/-- After TABLE: REJUDGE when the table selected another method than the judgement made or in progress, used earlier in START
(R131, R472). -/
def afterTable (s : State) : State :=
  let s := s.wr R.STRAPS_boot_eff (bootMode s)
  if s.bt.live && judgeCompat s ≠ s.clk.judgeNow then
    startStep 7 (judgeStart { s with clk := { s.clk with rejudge := true } })
  else enterRing s

/-- REJUDGE ended without a pass: that judgement stands, and REFCLK is not judged good. -/
def rejudgeFailed (s : State) : State :=
  let s := { s with clk := { s.clk with rejudge := false } }
  if s.on R.CLK_STAT_refclk_good then refclkBad (pllsWith [0, 2] (fun u s => s.setPllRef u 1) s) else s

/-- Every end of every cluster has been calibrated: no queue holds an end but such as are skipped, and no step waits (R364, R368). -/
def allCalibrated (s : State) : Bool :=
  (List.range (clustersOf s)).all fun c =>
    !(s.calSeq c).queue.any (calEligible s c) && (s.calSeq c).cur = none && (s.calSeq c).waitStep = none

/-- Runs of the START calibration, in order: each of the end at the head of its cluster's queue (R363, R368). -/
def startRuns (runs : List (Nat × Nat × CalMeasure)) (s : State) : State :=
  runs.foldl (fun s r =>
    if r.1 < clustersOf s && ((s.calSeq r.1).cur = some r.2.1 || calNext s r.1 = some r.2.1)
    then calRunEnd r.1 r.2.2 (calRunStart r.1 s) else s) s

/-- Neither clock is usable for the calibration step (R472): the IFO is not ready and the native judge has not passed. -/
def calNoClock (s : State) : Bool := noClock s && !s.clk.nativeOk

/-- A load of the board table begins with the header of the primary image (R129, R130). -/
def loadBegins (s : State) : State :=
  { (s.wr R.BT_STAT_loading 1).wr R.BT_CMD_busy 1 with bt := { s.bt with reads := [(0x03, false)] } }

/-- The step in progress ends. -/
def startStepEnd (res : StartEnd) (s : State) : State :=
  match s.rd R.START_STAT_step, res with
  | 1, .done =>
    let s := putDigest R.DIG_SAF_digest (Config.sha384 s.fuse.saffron) s
    if !saffronOk s then startFails 1 s else
    if calNoClock s then startStep 2 s else enterCalibrate s
  | 2, .done => if calNoClock s then s else enterCalibrate s
  | 3, .calibrate runs =>
    let s := startRuns runs s
    if allCalibrated s then enterRepair s else s
  | 3, .done => if allCalibrated s then enterRepair s else s
  | 4, .done => enterPost (burnLog s)
  | 5, .post r =>
    if s.bist.pauseFrom.isSome then s else
    let s := postRecord r s
    if s.rd R.BST_POST_result = resPass || s.rd R.BST_POST_result = resRepaired
    then startStep 6 (loadBegins s) else startFails 4 s
  | 6, .done => if s.on R.BT_STAT_loading then s else afterTable s
  | 7, .done => enterRing (if s.clk.rejudge then rejudgeFailed s else s)
  | 8, .done => if s.on R.PCT_STAT_enum_done then startStep 9 s else s
  | _, _ => s

/-- START_STEP_END (R472); in TEST it also ends a FULL run with what it found (R391). -/
def execStartStepEnd (res : StartEnd) (s : State) : Host.Outcome State Fault Refusal :=
  .next (if s.dev.phase = .start && s.rd R.START_STAT_result = 0 && s.dev.testEntry = 0 then startStepEnd res s.freshOut
    else if s.dev.phase = .test && s.bist.full then
      (match res with
       | .post r => let s := postRecord r s
         { s with bist := { s.bist with full := false } }
       | _ => s)
    else s)

/-- RING_WAIT_END (R472): a package that is not the head goes on after 10 ms without DONE. -/
def execRingWaitEnd (s : State) : Host.Outcome State Fault Refusal :=
  .next (if s.dev.phase = .start && s.rd R.START_STAT_result = 0 && s.rd R.START_STAT_step = 8 &&
      s.dev.testEntry = 0 && s.dev.stepAt + 10000000 ≤ s.clock && !isHead s then startStep 9 s
    else s)

/-- How long POST has paused in all, while it pauses. -/
def postPaused (s : State) : Nat := match s.bist.pauseFrom with
  | some t => s.bist.paused + (s.clock - t)
  | none => 0

/-- POST_PAUSE_LIMIT (R376, R378): the pauses of one POST exceed 10 ms. -/
def execPostPauseLimit (s : State) : Host.Outcome State Fault Refusal :=
  .next (if s.dev.phase = .start && s.rd R.START_STAT_step = 5 && 10000000 < postPaused s then
    startFails 4 ((postTime s).wr R.BST_POST_result resIncomplete) else s)

/-- START_COMPLETE (R470, R476): SERVICE, or GUARD where a unit is fenced; READY unless held. -/
def execStartComplete (s : State) : Host.Outcome State Fault Refusal :=
  .next (if s.dev.phase = .start && s.rd R.START_STAT_result = 0 && s.rd R.START_STAT_step = 9 && s.dev.testEntry = 0 then
    let s : State := { s.freshOut with dev := { s.dev with phase := .run, held := s.rd R.STRAPS_boot_eff = 2, everRun := true } }
    let s := (s.wr R.START_STAT_result 1).wr R.START_STAT_us (min (s.clock / 1000) 65535)
    let s := if s.rd (R.CLK_EN_en 7) = 0 then { s with bist := { s.bist with nextAt := none, leftAt := bistInterval s } }
      else { s with bist := { s.bist with nextAt := some (s.clock + bistInterval s) } }
    let s := if s.dev.held then s else s.sendReady
    haltFenced s
  else s)

/-- BOOT_CMD op RELEASE (R470, R480): refused when not held or during a board-table load. -/
def bootRelease (s : State) : State :=
  let s := s.wr R.BOOT_CMD_op 0
  if !s.dev.held || s.on R.BT_STAT_loading then s.wr R.BOOT_CMD_refused 1
  else ({ s with dev := { s.dev with held := false } }.wr R.BOOT_CMD_refused 0).sendReady

def execBootRelease (s : State) : Host.Outcome State Fault Refusal := .next (ifOpen 0 s (bootRelease s.freshOut))

end Sys2Proof.Machine
end

