-- ==== Sys2Proof/Machine/BoardTable.lean ====
section
/-!
DEFINITION. The board table and the flash port (chapter Equalization and the board table, R122-R134; signatures, R461,
R462): checking an image, loading it, and host flash commands.
-/

namespace Sys2Proof.Machine

open Sys2Proof

/-! ## Checking an image (R122-R130, R462) -/

/-- What a check of an image answers: the code of R130, with the section and record of BT_DETAIL. -/
structure BtResult where
  code : Nat := 1
  section_ : Nat := 0
  index : Nat := 0xFFFF
  deriving DecidableEq, Repr

/-- A big-endian number at a place of an image; bytes beyond what was read are erased flash. -/
def btNum (img : List Nat) (at_ n : Nat) : Nat := beNat (((img.drop at_).take n) ++ List.replicate (n - ((img.drop at_).take n).length) 0xFF)
def btByte (img : List Nat) (at_ : Nat) : Nat := img.getD at_ 0xFF
def zerosAt (img : List Nat) (at_ n : Nat) : Bool := (List.range n).all fun i => btByte img (at_ + i) = 0

/-- Body length of a known section type (R123). -/
def sectionLen (type : Nat) : Option Nat :=
  match type with
  | 1 => some 11520 | 2 => some 144 | 3 => some 128 | 4 => some 16 | _ => none

def padded (n : Nat) : Nat := (n + 3) / 4 * 4

/-- The sections of an image as (type, body offset), or the type of the one whose framing is broken (R123). -/
def btSections (img : List Nat) (total : Nat) : Nat → Nat → List (Nat × Nat) → Except Nat (List (Nat × Nat))
  | 0, at_, acc => if at_ = total then .ok acc.reverse else .error 0
  | n + 1, at_, acc =>
    let type := btNum img at_ 2
    let flags := btNum img (at_ + 2) 2
    let len := btNum img (at_ + 4) 4
    let next := at_ + 8 + padded len
    if total < at_ + 8 || total < next || 1 < flags || !zerosAt img (at_ + 8 + len) (padded len - len) ||
        (acc.any fun p => p.1 = type) then .error type
    else match sectionLen type with
    | some l => if len = l then btSections img total n next ((type, at_ + 8) :: acc) else .error type
    | none => if flags = 1 then btSections img total n next ((type, at_ + 8) :: acc) else .error type

/-- A TX preset is valid (R107). -/
def txValid (t : List Nat) : Bool :=
  let v := t.map (signed 8)
  16 ≤ v.getD 2 0 && v.getD 2 0 ≤ 63 && ((List.range 6).all fun i => i = 2 || (-32 ≤ v.getD i 0 && v.getD i 0 ≤ 31)) && tapSum v ≤ 63

/-- A PRESET record is valid (R107, R124). -/
def presetValid (r : List Nat) : Bool :=
  txValid (r.take 6) && txValid ((r.drop 6).take 6) && r.getD 12 0 ≤ 23 && r.getD 13 0 ≤ 15 && r.getD 14 0 ≤ 23 && r.getD 15 0 ≤ 15

def rungOk (v : Nat) : Bool := v ≤ 4 || v = 7

/-- A RATE_PLAN record is valid (R126): a blind rung does not exceed its max rung; code 7 leaves the direction idle. A blind
rung of 0-4 beside max rung code 7 is taken, as 7 is the greater number (DESIGN CHOICE; log 230). -/
def planValid (r : List Nat) : Bool :=
  let pair := fun m b => rungOk m && rungOk b && (b = 7 || b ≤ m)
  pair (r.getD 0 0 % 16) (r.getD 1 0 % 16) && pair (r.getD 0 0 / 16) (r.getD 1 0 / 16) &&
  !bit (r.getD 2 0) 3 && !bit (r.getD 2 0) 7 && (r.drop 3).all (· = 0)

/-- The first byte of a BOOT_OPT body that breaks R127. -/
def bootBad (b : List Nat) : Option Nat :=
  (List.range 16).find? fun i =>
    let v := b.getD i 0
    if i = 0 || i = 1 then 1 < v else if i = 2 then 2 < v
    else if i = 4 then 3600 < beNat ((b.drop 4).take 2) else if i = 5 then false else v ≠ 0

/-- The first record of a section that breaks R124-R128. -/
def sectionBad (s : State) (img : List Nat) (p : Nat × Nat) : Option Nat :=
  let body := img.drop p.2
  match p.1 with
  | 1 => (List.range 720).find? fun i => lanePresent s (i / 5) && !presetValid ((body.drop (16 * i)).take 16)
  | 2 => (List.range 144).find? fun n => 63 < body.getD n 0xFF
  | 3 => (List.range (clustersOf s)).find? fun c => !planValid ((body.drop (8 * c)).take 8)
  | 4 => bootBad (body.take 16)
  | _ => none

/-- The header of R122 but for its part and ring fields. -/
def headerBad (img : List Nat) : Bool :=
  let total := btNum img 8 4
  btNum img 4 2 ≠ 1 || btNum img 6 2 ≠ 64 || total % 4 ≠ 0 || total < 72 || 0x7FF80 < total ||
  1 < btByte img 0xF || btNum img 0x14 2 = 0 || 16 < btNum img 0x14 2 || !zerosAt img 0x16 42

/-- The signature block of R462 over the image's digest. -/
def signatureOk (s : State) (img digest : List Nat) : Bool :=
  let b := img.drop (btNum img 8 4)
  let slot := b.getD 0 0xFF
  let r := beNat ((b.drop 32).take 48)
  let v := beNat ((b.drop 80).take 48)
  slot ≤ 3 && bit s.fuse.enrolled slot && !bit s.fuse.revoked slot && b.getD 1 0 = 1 && ((b.drop 2).take 30).all (· = 0) &&
  128 ≤ b.length && 1 ≤ r && r < Config.p384Order && 1 ≤ v && v < Config.p384Order &&
  Config.ecdsaVerify (((s.fuse.custKeys.find? fun p => p.1 = slot).map Prod.snd).getD []) digest ((b.drop 32).take 96)

/-- The digest of R122. -/
def btDigest (img : List Nat) : List Nat := Config.sha384 (img.take (btNum img 8 4))

/-- The check of R130: the codes in order, the first failure. -/
def btCheck (s : State) (img : List Nat) : BtResult :=
  if btNum img 0 4 ≠ 0x4C5A4254 then { code := 2 }
  else if headerBad img then { code := 3 }
  else match btSections img (btNum img 8 4) (btNum img 0x14 2) 64 [] with
  | .error t => { code := 3, section_ := t }
  | .ok secs =>
    if !(secs.any fun (p : Nat × Nat) => p.1 = 1) || !(secs.any fun (p : Nat × Nat) => p.1 = 3) then { code := 3 }
    else if btNum img 0xC 2 ≠ partCode s then { code := 4 }
    else if btByte img 0xE ≠ 0xFF && btByte img 0xE ≠ ownId s then { code := 5 }
    else match secs.findSome? fun (p : Nat × Nat) => (sectionBad s img p).map fun i => (p.1, i) with
    | some (t, i) => { code := 6, section_ := t, index := i }
    | none => if signatureOk s img (btDigest img) then {} else { code := 7 }

/-! ## A table becomes live (R124-R127, R131, R132) -/

/-- One PRESET record is stored. -/
def putPreset (n rung : Nat) (r : List Nat) (s : State) : State :=
  let v := presetPage (laneCluster n) (lanePos n) rung
  let tx : Nat → Nat → List (Fld × Nat) := fun d o => [(R.PRESET_TX0_pre2 v d, o), (R.PRESET_TX0_pre1 v d, o + 1), (R.PRESET_TX0_main v d, o + 2),
    (R.PRESET_TX0_post1 v d, o + 3), (R.PRESET_TX1_post2 v d, o + 4), (R.PRESET_TX1_post3 v d, o + 5)]
  (tx 0 0 ++ tx 1 6 ++ [(R.PRESET_RX_ctle v 0, 12), (R.PRESET_RX_vga v 0, 13), (R.PRESET_RX_ctle v 1, 14), (R.PRESET_RX_vga v 1, 15)]).foldl
    (fun s (p : Fld × Nat) => s.wr p.1 (r.getD p.2 0)) s

/-- A lane side or a cluster direction in no link takes its settings at once (R132). -/
def clusterFree (s : State) (c : Nat) : Bool := !clusterUsed s c

/-- A rate plan record of a cluster: in force at once, or at the next training of the spans concerned (R132). A span that a max
rung of 7 keeps in IDLE trains again at the next commit, wake or command that starts its link; a reload starts nothing by
itself (DESIGN CHOICE: R137 does not say; log 273). -/
def putPlanRecord (c : Nat) (r : List Nat) (now : Bool) (s : State) : State :=
  let rec4 := r.take 3 ++ [0]
  if now || clusterFree s c then standbySync c (putPlan c rec4 s)
  else { s with bt := { s.bt with newCaps := (s.bt.newCaps.filter fun q => q.1 ≠ c) ++ [(c, rec4)] } }

def putPolarity (n v : Nat) (now : Bool) (s : State) : State :=
  [Side.a, Side.b].foldl (fun s sd =>
    if now || (endUse s n sd).isNone then leCfgSide n sd (putPol n sd v s)
    else { s with bt := { s.bt with polPend := (s.bt.polPend.filter fun q => q.1 ≠ rxKey n sd) ++ [(rxKey n sd, v)] } }) s

/-- BOOT_OPT takes effect for the rest of START; absent, every option is 0 (R123, R127, R131). -/
def putBoot (b : List Nat) (s : State) : State :=
  let s := { s with bt := { s.bt with boot := b.getD 0 0, start := b.getD 1 0 } }
  let s := s.wr R.CLK_CFG_judge (b.getD 2 0)
  let iv := beNat ((b.drop 4).take 2)
  if iv = 0 then s else s.wr R.BST_CFG_interval iv

def putSection (now : Bool) (img : List Nat) (s : State) (p : Nat × Nat) : State :=
  let body := img.drop p.2
  match p.1 with
  | 1 => (List.range 720).foldl (fun s i =>
      if lanePresent s (i / 5) then putPreset (i / 5) (i % 5) ((body.drop (16 * i)).take 16) s else s) s
  | 2 => (List.range 144).foldl (fun s n => if lanePresent s n then putPolarity n (body.getD n 0) now s else s) s
  | 3 => (List.range (clustersOf s)).foldl (fun s c => putPlanRecord c ((body.drop (8 * c)).take 8) now s) s
  | _ => s

def bootBody (img : List Nat) (secs : List (Nat × Nat)) : List Nat :=
  match secs.find? fun p => p.1 = 4 with
  | some p => (img.drop p.2).take 16
  | none => List.replicate 16 0

/-- A passing image becomes the live table: 1 primary, 2 secondary. In SERVICE or GUARD a table without a POLARITY section
leaves the polarity fields as they are (DESIGN CHOICE: R131 gives them reset values in START, R132 says nothing; log 230). -/
def btLive (image : Nat) (img : List Nat) (s : State) : State :=
  let now : Bool := s.dev.phase = .start
  let secs := match btSections img (btNum img 8 4) (btNum img 0x14 2) 64 [] with
    | .ok l => l
    | .error _ => []
  let s := { s with bt := { s.bt with live := true, newCaps := [], polPend := [] } }
  let s := secs.foldl (putSection now img) s
  let s := if now then putBoot (bootBody img secs) s else s
  let s := ((s.wr R.BT_STAT_image image).wr R.BT_SERIAL_serial (btNum img 0x10 4)).wr R.BT_LEN_total_len (btNum img 8 4)
  putDigest R.DIG_BT_digest (btDigest img) s

/-- The record of the last failing image. -/
def btDetail (r : BtResult) (s : State) : State := (s.wr R.BT_DETAIL_section r.section_).wr R.BT_DETAIL_index r.index

/-- The flash reads of one image (R130): the header with 0x03, then what follows up to total_len + 128, in a quad transfer with 0x6B
where the quad flag is set. Where total_len is out of its range nothing follows the header (DEDUCED, log 272). -/
def imageReads (img : List Nat) : List (Nat × Bool) :=
  let quad := bit (btNum img 0xF 1) 0
  let len := btNum img 8 4
  (0x03, false) :: (if 72 ≤ len && len ≤ 0x7FF80 then [(if quad then 0x6B else 0x03, quad)] else [])

/-- A load ends: `primary` and `backup` are the two images as the flash holds them (R130). -/
def btLoadDone (primary backup : List Nat) (s : State) : State :=
  let r1 := btCheck s primary
  let reads := imageReads primary ++ (if r1.code = 1 then [] else imageReads backup)
  let s := { s with bt := { s.bt with reads := reads } }
  let s := (s.wr R.BT_STAT_primary_result r1.code).wr R.BT_STAT_result r1.code
  let s := if r1.code = 1 then btLive 1 primary s else
    let r2 := btCheck s backup
    let s := (btDetail r1 s).wr R.BT_STAT_result r2.code
    if r2.code = 1 then btLive 2 backup s else btDetail r2 s
  ((s.wr R.BT_STAT_loading 0).wr R.BT_CMD_busy 0).raise 294

/-! ## The flash port's pins (R129) -/

/-- The level to which the device drives FIO2 and FIO3 in a transfer: high where it is single-bit; none where they carry data. -/
def xferLevel (quad : Bool) : Option Bool := if quad then none else some true

/-- The levels through the flash reads of a load, one after another. -/
def loadLevels (s : State) : List (Option Bool) := s.bt.reads.map fun r => xferLevel r.2

/-- The level now: through a flash command, or through the read of a load that has begun; none while the port is at rest. -/
def fioLevel (s : State) : Option Bool :=
  if s.on R.FC_CTL_busy then xferLevel (bit s.bt.fc 15)
  else if s.on R.BT_STAT_loading then (s.bt.reads.getLast?.map fun r => xferLevel r.2).getD none
  else none

/-! ## Meanings -/

/-- BT_LOAD (R132, R133): a BT_CMD go. -/
def btLoad (s : State) : State :=
  if s.on R.BT_CMD_busy then s
  else if !inRun s || s.on R.FC_CTL_busy then s.wr R.BT_CMD_refused 1
  else loadBegins (s.wr R.BT_CMD_refused 0)

def execBtLoad (s : State) : Host.Outcome State Fault Refusal := .next (ifOpen 0xE s (btLoad s))

/-- BT_LOAD_DONE (R130-R132). -/
def execBtLoadDone (primary backup : List Nat) (s : State) : Host.Outcome State Fault Refusal :=
  .next (if s.on R.BT_STAT_loading then btLoadDone primary backup s else s)

/-- A length or an address length that FC_CTL refuses, so that nothing of the write is stored (R134, R493). -/
def fcBad (ctl : Nat) : Bool := 64 < bits ctl 22 16 || 2 ≤ bits ctl 9 8

/-- The fields of FC_CTL are stored. -/
def fcStore (ctl : Nat) (s : State) : State :=
  [(R.FC_CTL_len, bits ctl 22 16), (R.FC_CTL_quad, bits ctl 15 15), (R.FC_CTL_dir, bits ctl 14 14),
    (R.FC_CTL_dummy, bits ctl 13 10), (R.FC_CTL_addr_bytes, bits ctl 9 8), (R.FC_CTL_opcode, bits ctl 7 0)].foldl
    (fun s p => s.wr p.1 p.2) s

/-- FC_CTL is written with go (R133). -/
def flashCommand (ctl : Nat) (s : State) : State :=
  if fcBad ctl then (if s.on R.FC_CTL_busy then s else s.wr R.FC_CTL_refused 1) else
  let s := fcStore ctl s
  if s.on R.FC_CTL_busy then s
  else if s.on R.BT_CMD_busy || !inRun s then s.wr R.FC_CTL_refused 1
  else { (s.wr R.FC_CTL_refused 0).wr R.FC_CTL_busy 1 with bt := { s.bt with fc := ctl } }

def execFlashCommand (ctl : Nat) (s : State) : Host.Outcome State Fault Refusal := .next (ifOpen 0xE s (flashCommand ctl s))

/-- Byte `i` of the flash data registers. -/
def putFcByte (i v : Nat) (s : State) : State :=
  let f := R.FC_DATA_data (i / 4)
  let old := beBytes 4 (s.rd f)
  s.wr f (beNat (old.set (i % 4) v))

/-- FLASH_COMMAND_DONE (R133): `reads` is what the flash sent. -/
def execFlashCommandDone (reads : List Nat) (s : State) : Host.Outcome State Fault Refusal :=
  .next (if !s.on R.FC_CTL_busy then s else
    let s1 := s.wr R.FC_CTL_busy 0
    if bit s.bt.fc 14 then s1 else
    (List.range (bits s.bt.fc 22 16)).foldl (fun s i => putFcByte i (reads.getD i 0xFF) s) s1)

end Sys2Proof.Machine
end

