-- ==== Sys2Proof/Machine/Buffer.lean ====
section
/-!
DEFINITION. Buffer commands and events (chapter The flit buffer and descriptor table, R278-R285, R288).
-/

namespace Sys2Proof.Machine

open Sys2Proof

/-- More than 16 retired banks fence the die (R284). -/
def banksFence (d : Nat) (s : State) : State := if 16 < retiredBanks s d then fenceDie d fcBanks s else s

/-- A bank is retired in service: the prickings are checked again against the new count (R284, R304). -/
def retireInService (d b : Nat) (s : State) : State := banksFence d (startRecheck 3 (prkNotice (retireBank d b s)))

/-- The read of one slot that a save, a restore or an evacuation copies, charged to region 2d (R280): the flit of an
uncorrectable slot without a mirror is lost (R277-R279, R287). -/
def copyRead (r : Nat) (e : EccRead) (s : State) : State :=
  match readSlot r (2 * refDie r) e s with
  | (true, s) => s
  | (false, s) => if (s.slot r).mirror then s else loseSlot r e.desc s

/-- The reads of the slots that a copy moves, in address order; a slot that `reads` does not name reads without an error. -/
def copyReads (d l : Nat) (reads : List (Nat × EccRead)) (s : State) : State :=
  (liveSlots s d l).foldl (fun s r =>
    if (s.slot r).state = stLive then copyRead r (((reads.find? fun p => p.1 = refAddr r).map Prod.snd).getD {}) s else s) s

/-- REMIRROR (R278): the partner of a BAD slot is read, for region 2d (R280), and copied to a third bank, or the flit stays
single-copy. With both copies uncorrectable the flit is lost (R279, R287). -/
def remirror (r : Nat) (e : EccRead) (s : State) : State :=
  let d := refDie r
  let x := s.slot r
  match s.partnerOf r with
  | none => s
  | some q =>
    if (s.slot q).state = stBad then loseSlot r false s else
    match readSlot q (2 * d) e s with
    | (false, s) => loseSlot r e.desc s
    | (true, s) =>
    let p := s.slot q
    match allocSlot d [refBank r, refBank q] { p with copy := x.copy, partner := refAddr q, sending := false, dying := false } s with
    | some (n, s) =>
      (relist r n ((s.putSlot q { s.slot q with partner := refAddr n }).putSlot r {})).count (R.REMIRROR_done d)
    | none =>
      let s := s.putSlot q { p with mirror := false, partner := 0xFFFF }
      ((relist r q (s.putSlot r {})).count (R.REMIRROR_single d)).dieEvent d 5

def execRemirror (e : SlotAt) (read : EccRead) (s : State) : Host.Outcome State Fault Refusal :=
  onUnit (e.die < diesOf s && e.addr < 65536)
    (let r := e.die * 65536 + e.addr
     if (s.slot r).state = stBad && !coreHeld s e.die then remirror r read s else s)

/-- The time at which the window of a die ends: 2^ce_win ms after it began, ce_win above 10 acting as 10 (R280, R288). -/
def ceWindowDue (s : State) (d : Nat) : Nat := (s.buf d).ceFrom + 2 ^ min 10 (s.rd (R.BUF_CFG_ce_win d)) * 1000000

/-- CE_WINDOW_END (R280): the next window begins where this one ends. -/
def execCeWindowEnd (die : Nat) (s : State) : Host.Outcome State Fault Refusal :=
  onUnit (die < diesOf s) (if coreHeld s die || s.clock < ceWindowDue s die then s else
    s.putBuf die { s.buf die with ce0 := 0, ce1 := 0, fired0 := false, fired1 := false, ceFrom := ceWindowDue s die })

/-- BAD slots of a bank number are not copied by a save and are freed when unlisted (R287). -/
def dropBad (d l : Nat) (s : State) : State :=
  ((dieRefs s d).filter fun r => refBank r = l && (s.slot r).state = stBad && (s.slot r).partner = 0xFFFF).foldl
    (fun s r => s.putSlot r {}) s

/-- BANK_SAVE_DONE (R281): the stand-in takes the bank's addresses; the test starts, or the bank is retired without one. -/
def saveDone (d : Nat) (reads : List (Nat × EccRead)) (s : State) : State :=
  let bank := s.rd (R.BUF_STAT_test_bank d)
  let l := (numberOf s d bank).getD 63
  let s := copyReads d l reads s
  let b := s.buf d
  let s := dropBad d l (setServes d l b.standIn (s.count (R.MOVES_copies d)))
  let s := (s.wr (R.BANK_STAT_state d b.standIn) bkInService).wr (R.BUF_STAT_standby d) 63
  if b.retireAfter then retireInService d bank (rotIdle d s)
  else
    let s := setRot d 2 bank (s.wr (R.BANK_STAT_state d bank) bkTesting)
    match b.stopped with
    | some (res, cause) => testStopped d res cause 0 0 s
    | none => s

def execBankSaveDone (x : BankReads) (s : State) : Host.Outcome State Fault Refusal :=
  onUnit (x.die < diesOf s) (if rotOf s x.die = 1 && !coreHeld s x.die then saveDone x.die x.reads s else s)

/-- A returned bank becomes the standby and the former standby enters service (R285): under its own number where that is
free, else under the lowest free one. -/
def returnBank (d bank : Nat) (s : State) : State :=
  let s := match standbyOf s d with
    | some old =>
      let free := fun l => bankFor s d l = 63
      let l := if free old && old < 32 then old else ((List.range 33).find? free).getD old
      (setServes d l old s).wr (R.BANK_STAT_state d old) bkInService
    | none => s
  let s := (s.wr (R.BANK_STAT_state d bank) bkStandby).wr (R.BUF_STAT_standby d) bank
  let s := s.wr (R.BUF_STAT_retired d) (retiredBanks s d - 1)
  prkNotice (s.wr (R.BUF_USABLE_usable d) (1024 * (32 - retiredBanks s d)))

/-- BANK_TEST_END (R281, R374, R379): the verdict on a test that reached its count, or INCOMPLETE. The command comes at the
ordered-set boundary at which the result takes effect (R30; DEDUCED, log 235). -/
def testEnd (d : Nat) (t : BankTest) (s : State) : State :=
  let bank := s.rd (R.BUF_STAT_test_bank d)
  match t with
  | .short ops => (testCut d resIncomplete causeStall s).wr (R.BANK_PAT d) ops
  | .counted found slot bitNo desc =>
    let rows := rowsFound found
    let fits := decide (rows.length + s.rd (R.BANK_STAT_rows d bank) ≤ 4)
    let res := if rows = [] then resPass else if fits then resRepaired else resFail
    let s := bankRecord d bank res 0 rows.length 102400 s
    let s := s.wrB (R.BANK_FAIL_valid d) (rows ≠ [])
    let s := if rows = [] then s else
      (((s.wrB (R.BANK_FAIL_desc d) desc).wr (R.BANK_FAIL_bank d) bank).wr (R.BANK_FAIL_slot d) slot).wr (R.BANK_FAIL_bit d) bitNo
    let b := s.buf d
    let s := s.putBuf d { b with lastTested := bank }
    if res = resFail then
      let s := if b.returning then s.wr (R.BANK_STAT_state d bank) bkRetired else s
      let s := rotIdle d s
      suspectSlice d ((if b.returning then s else retireInService d bank s).raise 290)
    else
      let s := rows.foldl (fun s r => repairRow d bank r s) s
      if b.returning then suspectSlice d (((returnBank d bank (suspectClear d bank s)) |> rotIdle d).raise 290)
      else if b.standIn = 63 then
        suspectSlice d ((rotIdle d (inPlaceBack d bank (suspectClear d bank s))).raise 290)
      else setRot d 3 bank ((s.putBuf d { s.buf d with passed := true }).wr (R.BANK_STAT_state d bank) bkRestoring)

def execBankTestEnd (die : Nat) (result : BankTest) (s : State) : Host.Outcome State Fault Refusal :=
  onUnit (die < diesOf s) (if rotOf s die = 2 && !coreHeld s die then testEnd die result s else s)

/-- BANK_RESTORE_DONE (R281, R382): the bank takes back its addresses; source 290. -/
def restoreDone (d : Nat) (reads : List (Nat × EccRead)) (s : State) : State :=
  let bank := s.rd (R.BUF_STAT_test_bank d)
  let l := (numberOf s d (s.buf d).standIn).getD 63
  let s := dropBad d l (copyReads d l reads s)
  let b := s.buf d
  let s := setServes d l bank (s.count (R.MOVES_copies d))
  let s := (s.wr (R.BANK_STAT_state d bank) bkInService).wr (R.BANK_STAT_state d b.standIn) bkStandby
  let s := s.wr (R.BUF_STAT_standby d) b.standIn
  let s := if b.passed then suspectClear d bank s else s
  let s := s.putBuf d { s.buf d with lastTested := bank }
  suspectSlice d ((rotIdle d s).raise 290)

def execBankRestoreDone (x : BankReads) (s : State) : Host.Outcome State Fault Refusal :=
  onUnit (x.die < diesOf s) (if rotOf s x.die = 3 && !coreHeld s x.die then restoreDone x.die x.reads s else s)

/-- One LIVE slot of an evacuating bank moves to a free slot elsewhere; the other copy of its pair keeps another bank. -/
def moveSlot (l r : Nat) (s : State) : State :=
  let x := s.slot r
  let d := refDie r
  match allocSlot d (l :: ((s.partnerOf r).map refBank).toList) x s with
  | none => s
  | some (n, s) =>
    let s := match s.partnerOf n with
      | some q => s.putSlot q { s.slot q with partner := refAddr n }
      | none => s
    (relist r n (s.putSlot r {})).count (R.MOVES_evac d)

/-- EVACUATION_DONE (R281): the LIVE slots have moved; a bank without one becomes STANDBY. -/
def evacuationDone (d : Nat) (reads : List (Nat × EccRead)) (s : State) : State :=
  let bank := s.rd (R.BUF_STAT_test_bank d)
  match numberOf s d bank with
  | none => s
  | some l =>
    let s := copyReads d l reads s
    let s := (liveSlots s d l).foldl (fun s r => moveSlot l r s) s
    if liveSlots s d l ≠ [] then s else
    let s := setServes d l 63 s
    let s := (s.wr (R.BANK_STAT_state d bank) bkStandby).wr (R.BUF_STAT_standby d) bank
    suspectSlice d (rotIdle d s)

def execEvacuationDone (x : BankReads) (s : State) : Host.Outcome State Fault Refusal :=
  onUnit (x.die < diesOf s) (if rotOf s x.die = 4 && !coreHeld s x.die then evacuationDone x.die x.reads s else s)

/-! ## BUF_CMD (R285) -/

/-- Is a BUF_CMD refused? -/
def bufCmdRefused (s : State) (d op bank : Nat) : Bool :=
  rotBusy s d ||
  (op = 0 && (bankState s d bank = bkRetired || 16 ≤ retiredBanks s d || ((standbyOf s d).isNone))) ||
  (op = 1 && bankState s d bank ≠ bkRetired) || (op = 2 && bankState s d bank = bkRetired)

/-- BUF_CMD go. A bank above 32 or an op that does not exist is refused and nothing is stored (R288, R493). -/
def bufCmd (d op bank : Nat) (s : State) : State :=
  if s.on (R.BUF_CMD_busy d) then s else
  if 32 < bank || 3 ≤ op then s.wr (R.BUF_CMD_refused d) 1 else
  let s := (s.wr (R.BUF_CMD_op d) op).wr (R.BUF_CMD_bank d) bank
  if bufCmdRefused s d op bank then s.wr (R.BUF_CMD_refused d) 1 else
  let s := s.wr (R.BUF_CMD_refused d) 0
  if op = 0 then
    (if bankState s d bank = bkStandby then retireInService d bank s
     else sliceBegin d bank true false true (s.wr (R.BUF_CMD_busy d) 1))
  else testBegin d bank (op = 1) true (s.wr (R.BUF_CMD_busy d) 1)

def execBufRetire (die bank : Nat) (s : State) : Host.Outcome State Fault Refusal :=
  .next (ifHas (die < diesOf s) (0x38 + die) s (bufCmd die 0 (bank % 64) s))

def execBufReturn (die bank : Nat) (s : State) : Host.Outcome State Fault Refusal :=
  .next (ifHas (die < diesOf s) (0x38 + die) s (bufCmd die 1 (bank % 64) s))

def execBufTestNow (die bank : Nat) (s : State) : Host.Outcome State Fault Refusal :=
  .next (ifHas (die < diesOf s) (0x38 + die) s (bufCmd die 2 (bank % 64) s))

/-! ## Counters and descriptors (R288) -/

/-- The counters of BUF_SNAP. -/
def bufCounters (d : Nat) : List Fld :=
  [R.CE_r0 d, R.CE_r1 d, R.UE d, R.REMIRROR_done d, R.REMIRROR_single d, R.MOVES_evac d, R.MOVES_copies d, R.LOST_darn d,
   R.LOST_queued d]

def bufSnap (d : Nat) (s : State) : State :=
  let v := s.rd (R.BUF_SNAP_snap_no d)
  let s := State.latchAll (bufCounters d) s
  (s.bumpWrap (R.BUF_SNAP_snap_no d)).answerWord v

def execBufSnap (die : Nat) (s : State) : Host.Outcome State Fault Refusal :=
  .next (ifHas (die < diesOf s) (0x38 + die) (s.answerWord 0) (bufSnap die s))

/-- BUF_CLR: the counters start again from zero, the peak from the slots that are held (R288; DEDUCED, log 238). -/
def bufClr (d : Nat) (s : State) : State :=
  (State.zeroLive (bufCounters d) s).wr (R.BUF_OCC_peak d) (bufLive s d)

def execBufClr (die : Nat) (s : State) : Host.Outcome State Fault Refusal := .next (ifHas (die < diesOf s) (0x38 + die) s (bufClr die s))

/-- A write of DESC_SEL latches the descriptor words from one cycle; a bank above 32 latches zeros. -/
def descSel (d addr : Nat) (s : State) : State :=
  let s := s.wr (R.DESC_SEL_addr d) addr
  let ws := if addr / 1024 ≤ 32 then descWords s (d * 65536 + addr) else [0, 0, 0, 0, 0]
  ((List.range 5).zip ws).foldl (fun s p => s.wr (R.DESC_W_word d p.1) p.2) s

def execDescSelWrite (die addr : Nat) (s : State) : Host.Outcome State Fault Refusal :=
  .next (ifHas (die < diesOf s) (0x38 + die) s (descSel die (addr % 65536) s))

end Sys2Proof.Machine
end

