-- ==== Sys2Proof/Machine/Darning.lean ====
section
/-!
DEFINITION. Darning commands (chapter Darning toward endpoints, R194-R198 and R207). What arrivals and ACK sets do to a
darned direction is in Flows.
-/

namespace Sys2Proof.Machine

open Sys2Proof

/-- The flow is one of the part's: a link direction, or a logical-link direction. -/
def flowPresent (s : State) (f : Nat) : Bool :=
  if flowIsLl f then flowOwner f < llsOf s else flowOwner f < linksOf s

/-- DARN_TIMER_EXPIRY (R194, R198): `f` is the flow, 2 × link + direction, or 4096 + 2 × logical link + direction. A run starts
at the next point between flits. -/
def execDarnTimerExpiry (f : Nat) (s : State) : Host.Outcome State Fault Refusal :=
  onUnit (flowPresent s f) (if darnDue s f then darnExpire f s else s)

def darnCounters (k : Nat) : List Fld :=
  [0, 1].flatMap fun d => [R.RUNS k d, R.REPLAYED k d, R.GIVEUP k d, R.DUPDISC k d, R.REFRESH k d, R.UPGAP k d, R.NOCOPY k d,
    R.RUNDROP k d, R.RESUME k d, R.ACK_ODD k d]
def darnCounters64 (k : Nat) : List (Fld × Fld) := [0, 1].map fun d => (R.COPY_LO k d, R.COPY_HI k d)

/-- DARN_SNAP (R207): the read answers the snapshot number, and zero in a link with no darned direction. -/
def execDarnSnap (k : Nat) (s : State) : Host.Outcome State Fault Refusal :=
  .next (ifHas (k < linksOf s) (0x40 + k) (s.answerWord 0)
    (((State.latchAll64 (darnCounters64 k) (State.latchAll (darnCounters k) s)).bumpWrap (R.DARN_SNAP_snap_no k)).answerWord
      (if linkDarned s k then s.rd (R.DARN_SNAP_snap_no k) else 0)))

/-- DARN_CLR (R207). -/
def execDarnClr (k : Nat) (s : State) : Host.Outcome State Fault Refusal :=
  .next (ifHas (k < linksOf s) (0x40 + k) s
    (State.zeroLive ((darnCounters64 k).map Prod.fst) (State.zeroLive (darnCounters k) s)))

end Sys2Proof.Machine
end

