-- ==== Sys2Proof/Machine/Hearing.lean ====
section
/-!
DEFINITION. What the RX ends of a side hear (chapter Lane ends and the line code, R49-R56 and R61-R66; R87, R92): codes on
the line become symbols under the polarity and the running disparity of the end, bad symbols are counted, and a set is
accepted from its copies.
-/

namespace Sys2Proof.Machine

open Sys2Proof

/-! ## One end (R49-R52, R66, R92) -/

/-- The symbols of a slice or a set with a slip of the elastic buffer in it (R92): at 32 one is dropped, at 0 a code
violation stands in place of a missing one. -/
def slipped : Option (Bool × Nat) → List Sym → List Sym
  | none, l => l
  | some (true, i), l => l.eraseIdx i
  | some (false, i), l => l.take i ++ [.bad false] ++ l.drop i

/-- T0 of a TRN set whose COM and type symbol are good, in its first three symbols. -/
def t0Of : List Sym → Option Nat
  | [.k 0xBC, .k 0x3C, .d v] => some v
  | _ => none

/-- An end at an NRZ rate in auto mode whose polarity is not decided reads T0 (R66). -/
def readsT0 (s : State) (n : Nat) (sd : Side) : Bool :=
  let c := laneCluster n
  ckRate s c sd.dirIn ≤ 1 && polAuto s n sd && (s.rxe n sd).polPend.isNone && !(s.rxe n sd).polDecided

/-- The first three symbols of what an end hears, and the running disparity after them. -/
def lineStart (s : State) (n : Nat) (sd : Side) (codes : List Nat) : List Sym × Bool :=
  decodeAll (s.rxe n sd).rd ((codes.take 3).map (mirrored (isPam (ckRate s (laneCluster n) sd.dirIn)) (s.on (leInv n sd))))

/-- T0 as the end reads it, where it decides the polarity: 0x4A (inverted) or 0xB5. -/
def t0Heard (s : State) (n : Nat) (sd : Side) (codes : List Nat) : Option Nat :=
  if readsT0 s n sd then (t0Of (lineStart s n sd codes).1).filter fun v => v = 0x4A || v = 0xB5 else none

/-- The symbols that an end reads from codes on the line, and the running disparity after them. The polarity turns at the
symbol boundary after a T0 that reads 0x4A. -/
def lineRead (s : State) (n : Nat) (sd : Side) (codes : List Nat) : List Sym × Bool :=
  let a := lineStart s n sd codes
  let inv := s.on (leInv n sd) != decide (t0Heard s n sd codes = some 0x4A)
  let b := decodeAll a.2 ((codes.drop 3).map (mirrored (isPam (ckRate s (laneCluster n) sd.dirIn)) inv))
  (a.1 ++ b.1, b.2)

/-- The symbols of a slice or of a set as they leave the elastic buffer. -/
def lineSyms (s : State) (n : Nat) (sd : Side) (codes : List Nat) : List Sym × Bool :=
  let r := lineRead s n sd codes
  (slipped (s.rxe n sd).slip r.1, r.2)

/-- What a LOCKED end passes on of what it reads, with `b` bad symbols in its window before: up to the bad symbol with which
they reach `limit`, which ends LOCKED (R55, R56). -/
def passedOn (limit : Nat) : Nat → List Sym → List Sym
  | _, [] => []
  | b, .bad e :: t => if limit ≤ b + 1 then [.bad e] else .bad e :: passedOn limit (b + 1) t
  | b, x :: t => x :: passedOn limit b t

/-- The symbols that a LOCKED end passes on. -/
def laneSyms (s : State) (n : Nat) (sd : Side) (codes : List Nat) : List Sym :=
  passedOn (lolBad s (laneCluster n)) (s.rxe n sd).bad (lineSyms s n sd codes).1

/-- The codes of a slice: those before a COM, which ends the slice and starts an ordered set; that set arrives by its own
command, whose copies stand on the lanes that carry it (R62; log 249). -/
def sliceCodes (s : State) (n : Nat) (sd : Side) (codes : List Nat) : List Nat :=
  codes.take ((lineRead s n sd codes).1.findIdx fun x => x = symCOM)

def isCv : Sym → Bool
  | .bad false => true
  | _ => false
def isDe : Sym → Bool
  | .bad true => true
  | _ => false

/-- The bad symbols among those read count as code violations and disparity errors, and toward the loss of lock (R50,
R55). -/
def badSymbols (n : Nat) (sd : Side) (syms : List Sym) (s : State) : State :=
  let cv := (syms.filter isCv).length
  let de := (syms.filter isDe).length
  if cv + de = 0 then s else
  let c := laneCluster n
  let s := (s.countBy (R.CV c (lanePos n) sd.idx) cv).countBy (R.DE c (lanePos n) sd.idx) de
  s.putRx n sd { s.rxe n sd with bad := (s.rxe n sd).bad + cv + de, dwell := (s.rxe n sd).dwell + cv + de }

/-- An end decides its polarity by T0 (R66, R67). -/
def t0Decides (n : Nat) (sd : Side) (t0 : Option Nat) (s : State) : State :=
  match t0 with
  | none => s
  | some v =>
    let s := s.putRx n sd { s.rxe n sd with polDecided := true }
    if v ≠ 0x4A then s else
    let s := s.wrB (leInv n sd) (!s.on (leInv n sd))
    if s.on (leInv n sd) then s.wired 4 sd.idx n (16 * laneCluster n + 13) else s

/-- An end has heard a slice or a set: its running disparity, its polarity and its counters move on. -/
def laneHears (n : Nat) (sd : Side) (codes : List Nat) (s : State) : State :=
  badSymbols n sd (laneSyms s n sd codes) (t0Decides n sd (t0Heard s n sd codes)
    (s.putRx n sd { s.rxe n sd with rd := (lineSyms s n sd codes).2, slip := none }))

/-- The ends leave LOCKED whose bad symbols have reached lol_bad in their window (R55). -/
def lossCheck (ends : List Nat) (sd : Side) (s : State) : State :=
  locksLost (ends.filter fun n => isLocked s n sd && lolBad s (laneCluster n) ≤ (s.rxe n sd).bad) sd s

/-! ## A slice of a flit on every lane (R56, R167) -/

/-- The lane gives symbols to its flit engine: it is LOCKED, and no fault class keeps traffic off it (R56, R75). -/
def laneGives (s : State) (n : Nat) (sd : Side) : Bool := isLocked s n sd && !s.on (leRxOpen n sd)

/-- A slice of a flit as its lane reads it. One in which the elastic buffer slips is bad (R92). -/
def laneSlice (s : State) (n : Nat) (sd : Side) (codes : List Nat) : Slice :=
  if laneGives s n sd then
    { locked := (s.rxe n sd).slip.isNone, syms := laneSyms s n sd (sliceCodes s n sd codes) }
  else { locked := false, syms := [] }

/-- The slices of a flit as the lanes of a side read them, in its receive order. -/
def receivedSlices (s : State) (k : Nat) (sd : Side) (slices : List (List Nat)) : List Slice :=
  let l := ((endLanes s k sd).zip slices).map fun p => laneSlice s p.1 sd p.2
  if rxReversed s k sd then l.reverse else l

/-- The lanes of a side have heard the slices of a flit. -/
def slicesHeard (k : Nat) (sd : Side) (slices : List (List Nat)) (s : State) : State :=
  let ps := ((endLanes s k sd).zip slices).filter fun p => laneGives s p.1 sd
  let s := ps.foldl (fun s p => laneHears p.1 sd (sliceCodes s p.1 sd p.2) s) s
  lossCheck (ps.map Prod.fst) sd s

/-! ## An ordered set from its copies (R56, R61, R62, R87) -/

/-- The copies on the lanes that are LOCKED, with their lanes, in position order. The other lanes contribute none (R56), nor
does a lane on which no copy comes, such as one of a set that a COM inside a slice starts on another (R62). -/
def heardLanes (s : State) (k : Nat) (sd : Side) (heard : List Heard) : List (Nat × Heard) :=
  ((endLanes s k sd).zip heard).filter fun p => isLocked s p.1 sd && p.2.codes ≠ []

/-- The contents of one lane's copy where it is intact; one in which the elastic buffer slips is bad (R92). -/
def heardCopy {α : Type} (read : List Sym → Option α) (s : State) (n : Nat) (sd : Side) (codes : List Nat) : Option α :=
  if (s.rxe n sd).slip.isSome then none else read (laneSyms s n sd codes)

/-- The symbol time of the copy on the lowest position that is intact. -/
def setTime {α : Type} (read : List Sym → Option α) (s : State) (sd : Side) (hs : List (Nat × Heard)) : Nat :=
  ((hs.find? fun p => (heardCopy read s p.1 sd p.2.codes).isSome).map fun p => p.2.time).getD 0

/-- One lane's copy as it is judged: a deskew miss where the lane's skew is known and its COM stands in another symbol time
than `time`. -/
def copyOf {α : Type} (read : List Sym → Option α) (s : State) (n : Nat) (sd : Side) (time : Nat) (h : Heard) : Copy α :=
  match heardCopy read s n sd h.codes with
  | none => .bad
  | some v => if h.time ≠ time && s.on (R.DSKW_valid (laneCluster n) (lanePos n) sd.idx) then .missed else .intact v

/-- The copies of a set on a side. -/
def sideCopies {α : Type} (read : List Sym → Option α) (s : State) (k : Nat) (sd : Side) (heard : List Heard) :
    List (Nat × Copy α) :=
  let hs := heardLanes s k sd heard
  hs.map fun p => (p.1, copyOf read s p.1 sd (setTime read s sd hs) p.2)

/-- One lane's copy of a set on a side: the counters of its lane, and its deskew misses. -/
def copyArrives {α : Type} (n : Nat) (sd : Side) (c : Copy α) (s : State) : State :=
  let cl := laneCluster n
  let x := s.rxe n sd
  match c with
  | .intact _ => if x.misses = 0 then s else s.putRx n sd { x with misses := 0 }
  | .bad => s.count (R.SETREJ cl (lanePos n) sd.idx)
  | .missed =>
    let s := (s.count (R.SETREJ cl (lanePos n) sd.idx)).count (R.DSK_MISS cl sd.idx)
    s.putRx n sd { x with misses := min 4 (x.misses + 1), remeasure := x.remeasure || decide (4 ≤ x.misses + 1) }

/-- An ordered-set boundary of an RX end: a polarity setting that waited for it takes effect (R63, R77). -/
def rxBoundary (n : Nat) (sd : Side) (s : State) : State :=
  match (s.rxe n sd).polPend with
  | some (some v) => (s.putRx n sd { s.rxe n sd with polPend := none }).wrB (leInv n sd) v
  | some none => polRestart n sd (s.putRx n sd { s.rxe n sd with polPend := none })
  | none => s

/-- The contents of an accepted set: those of the intact copy on the lowest position. -/
def acceptedCopy {α : Type} (cs : List (Nat × Copy α)) : Option α := (cs.filterMap fun p => copyContents p.2).head?

/-- Intact copies differ. -/
def copiesDiffer {α : Type} [DecidableEq α] (cs : List (Nat × Copy α)) : Bool :=
  match cs.filterMap fun p => copyContents p.2 with
  | [] => false
  | v :: t => t.any fun u => u ≠ v

/-- What the arrival of an ordered set moves on its lanes: decoders, counters, deskew misses, settings that waited for the
boundary, and losses of lock. -/
def setHeard {α : Type} [DecidableEq α] (read : List Sym → Option α) (k : Nat) (sd : Side) (heard : List Heard) (s : State) :
    State :=
  let hs := heardLanes s k sd heard
  let cs := sideCopies read s k sd heard
  let s1 := hs.foldl (fun s p => laneHears p.1 sd p.2.codes s) s
  let s1 := cs.foldl (fun s p => rxBoundary p.1 sd (copyArrives p.1 sd p.2 s)) s1
  let s1 := if copiesDiffer cs then s1.count (R.CNT_SNAP_set_disagree (sideCluster s k sd)) else s1
  lossCheck (hs.map Prod.fst) sd s1

/-- An ordered set arrives: its contents where one copy at least is intact, the one on the lowest position where intact
copies differ, and the state after it. -/
def setArrives {α : Type} [DecidableEq α] (read : List Sym → Option α) (k : Nat) (sd : Side) (heard : List Heard)
    (s : State) : Option α × State :=
  (acceptedCopy (sideCopies read s k sd heard), setHeard read k sd heard s)

end Sys2Proof.Machine
end

