-- ==== Sys2Proof/Machine/Trunk.lean ====
section
/-!
DEFINITION. Trunk commands (chapter Trunks, custody and proxy flow control, R214-R238): DRN sets received, the timers of a
trunk side, and its counters. A trunk side is named by its link, or by 1024 + its calendar.
-/

namespace Sys2Proof.Machine

open Sys2Proof

/-- The part has the link or the calendar. -/
def trunkPresent (s : State) (t : Nat) : Bool := if t < 1024 then t < linksOf s else t < 1024 + calsOf s

/-- A trunk side that is in use. -/
def trunkLive (s : State) (t : Nat) : Bool :=
  let a := trunkAt s t
  isTrunkSide s a.1 a.2 && trunkKey s a.1 a.2 = t

/-- The trunk side's span is in UP. -/
def trunkUp (s : State) (t : Nat) : Bool := trunkLive s t && (let a := trunkAt s t; spanUp s a.1 a.2)

/-! ## DRN sets received (R214, R222, R226, R227) -/

/-- Bits of D0 that must be zero are not. -/
def drnBad (d : DrnSet) : Bool := bit d.d0 5 || (d.d0 / 64 % 4 ≠ 3 && d.d0 % 32 ≠ 0)

/-- A DRN set arrives on a side: one of kind `kind` takes effect on the trunk of a link in UP. -/
def drnReceive (k : Nat) (sd : Side) (heard : List Heard) (kind : Nat) (act : Nat → DrnSet → State → State) (s : State) : State :=
  if !sideUsed s k sd || modeOf s k = mTransparent then s else
  match setArrives readDrn k sd heard s with
  | (none, s) => s
  | (some d, s) =>
    if !isTrunkSide s k sd then s else
    let t := trunkKey s k sd
    if drnBad d then countTrunk t R.TRK_REFRESH_drn_bad R.CAL_MISC_drn_bad s
    else if d.d0 / 64 % 4 = kind && (spanUp s k sd || spanRetraining s k sd) then act t d s else s

/-- DRN_ACK_RECEIVE (R222). -/
def execDrnAckReceive (k : Nat) (sd : Side) (heard : List Heard) (s : State) : Host.Outcome State Fault Refusal :=
  onUnit (k < linksOf s) (drnReceive k sd heard 0 (fun t d s => drnAck t d.value s) s)

/-- DRN_NAK_RECEIVE (R222); during an interruption it takes effect when that ends (R226). -/
def execDrnNakReceive (k : Nat) (sd : Side) (heard : List Heard) (s : State) : Host.Outcome State Fault Refusal :=
  onUnit (k < linksOf s) (drnReceive k sd heard 1 (fun t d s =>
    let s := countTrunk t R.NAK_rx R.CAL_NAK_rx s
    if (s.trunk t).frozenAt.isSome then s.modTrunk t fun x => { x with pendingNak := some d.value } else drnNak t d.value s) s)

/-- DRN_PROBE_RECEIVE (R227): `turn` is the turnaround of the answer in 8 ns steps. -/
def execDrnProbeReceive (k : Nat) (sd : Side) (heard : List Heard) (turn : Nat) (s : State) : Host.Outcome State Fault Refusal :=
  onUnit (k < linksOf s) (drnReceive k sd heard 2 (fun t d s =>
    s.modTrunk t fun x => { x with drnEcho := some (d.value, min turn 31) }) s)

/-- A sample is taken (R227); one longer than the round trip sets over, which asks for a re-check (R304). -/
def probeSample (t n : Nat) (s : State) : State :=
  let a := trunkAt s t
  let n := min n 0xFFFFF
  let s := s.modTrunk t fun x => { x with probeOut := none, sample := some n }
  let s := if t < 1024 then (s.wr (R.TRK_PROBE_valid t) 1).wr (R.TRK_PROBE_sample t) n else s
  if s.rd (R.RTT_rtt a.1 a.2.idx) < n then startRecheck 2 (s.wr (R.RTT_over a.1 a.2.idx) 1)
  else if n ≤ s.rd (R.PROOF_RTT_rtt a.1 a.2.idx) then s.wr (R.RTT_over a.1 a.2.idx) 0 else s

/-- DRN_ECHO_RECEIVE (R227): `elapsed` is the time from the COM of the PROBE to that of the ECHO, in ns. -/
def execDrnEchoReceive (k : Nat) (sd : Side) (heard : List Heard) (elapsed : Nat) (s : State) :
    Host.Outcome State Fault Refusal :=
  onUnit (k < linksOf s) (drnReceive k sd heard 3 (fun t d s =>
    match (s.trunk t).probeOut with
    | some (tag, _) => if tag = d.value then probeSample t (elapsed - 8 * (d.d0 % 32)) s else s
    | none => s) s)

/-! ## Timers (R220, R223, R225, R227, R230, R233) -/

/-- The span timer has expired: a run from the oldest copy, or at the retry limit a retrain of the span. -/
def spanExpire (t : Nat) (s : State) : State :=
  let x := s.trunk t
  let a := trunkAt s t
  let n := if x.expSince then min 15 (x.consec + 1) else x.consec
  let s := countTrunk t R.TMO_expiries R.CAL_TMO_expiries (s.putTrunk t { x with consec := n, expSince := true, fired := true })
  if x.expSince && trunkRetries s t ≤ n then
    let s := countTrunk t R.TMO_retrains R.CAL_TMO_retrains s
    retrain a.1 a.2 none true (trunkEvent (trunkRegion s t) 1 (trunkIndex s t) s)
  else trunkRun t none s

/-- SPAN_TIMER_EXPIRY (R223). -/
def execSpanTimerExpiry (t : Nat) (s : State) : Host.Outcome State Fault Refusal :=
  onUnit (trunkPresent s t) (if trunkUp s t && spanDue s t then spanExpire t s else s)

/-- DRN_ACK_TIMER (R220): 128 ns since the oldest accepted flit that no sent DRN ACK covers. -/
def execDrnAckTimer (t : Nat) (s : State) : Host.Outcome State Fault Refusal :=
  onUnit (trunkPresent s t) (if trunkUp s t && passed (s.trunk t).accOldest 128 s.fab then postDrnAck t s else s)

/-- PROBE_INTERVAL (R227): a PROBE with the next tag; none where probe_int is 0. -/
def execProbeInterval (t : Nat) (s : State) : Host.Outcome State Fault Refusal :=
  onUnit (trunkPresent s t) (if trunkUp s t && trunkProbeInt s t ≠ 0 then
    s.modTrunk t fun x => { x with probeTag := (x.probeTag + 1) % 65536, drnProbe := some ((x.probeTag + 1) % 65536) } else s)

/-- PROBE_WAIT_EXPIRY (R227): 10 µs after the PROBE. -/
def execProbeWaitExpiry (t : Nat) (s : State) : Host.Outcome State Fault Refusal :=
  onUnit (trunkPresent s t) (if passed ((s.trunk t).probeOut.map (·.2)) 10000 s.fab then s.modTrunk t fun x => { x with probeOut := none } else s)

/-- PROXY_ACK_TIMER (R230): 64 ns since the oldest custody of a flow that no sent proxy ACK set covers. -/
def execProxyAckTimer (f : Nat) (s : State) : Host.Outcome State Fault Refusal :=
  onUnit (flowPresent s f) (if flowCustodial s f && !flowInTrunk s f && passed (s.flow f).custOldest 64 s.fab then postProxy f s else s)

/-- TRUNK_ACK_REFRESH (R233): 1 µs after the last trunk ACK set became pending. -/
def execTrunkAckRefresh (k : Nat) (s : State) : Host.Outcome State Fault Refusal :=
  onUnit (k < linksOf s) (if isTrunkMode (modeOf s k) && spanUp s k (trunkSide s k) && (s.trunk k).ackSetAt + 1000 ≤ s.fab then postTrunkAck k (trunkSide s k) s else s)

/-! ## Counters (R238) -/

def trkCounters (k : Nat) : List Fld :=
  [R.CUST_IN k, R.CUST_TR k, R.TRK_REPLAYED k, R.NAK_rx k, R.NAK_tx k, R.TMO_retrains k, R.TMO_expiries k, R.DUP_span k, R.DUP_xlp k,
   R.NOSLOT_nak_odd k, R.NOSLOT_noslot k, R.CUST_LOSS k, R.TRK_REFRESH_drn_bad k, R.TRK_REFRESH_proxy k]

/-- TRK_SNAP (R238): the read answers the snapshot number, and zero in a link of another mode set. -/
def execTrkSnap (k : Nat) (s : State) : Host.Outcome State Fault Refusal :=
  .next (ifHas (k < linksOf s) (0x40 + k) (s.answerWord 0)
    ((((State.latchAll (trkCounters k) s).latch64 (R.SENT_LO k, R.SENT_HI k)).bumpWrap (R.TRK_SNAP_snap_no k)).answerWord
      (if isTrunkMode (modeOf s k) then s.rd (R.TRK_SNAP_snap_no k) else 0)))

/-- TRK_CLR (R238). -/
def execTrkClr (k : Nat) (s : State) : Host.Outcome State Fault Refusal :=
  .next (ifHas (k < linksOf s) (0x40 + k) s (State.zeroLive (R.SENT_LO k :: trkCounters k) s))

end Sys2Proof.Machine
end

