-- ==== Sys2Proof/Machine/Bundle.lean ====
section
/-!
DEFINITION. Commands of bundles (chapter Bundles of logical links, R249-R267): control flits that fall due, torn windows,
drains and cache refreshes of logical links, and the counters of logical links, calendars and queues.
-/

namespace Sys2Proof.Machine

open Sys2Proof

/-! ## Control flits and logical links (R249, R260, R261) -/

/-- A control flit falls due (R249): eight records are pending, one of an XOFF change has waited 64 ns, or any has waited
1 µs. -/
def controlDue (s : State) (recs : List CtlRec) : Bool :=
  decide (8 ≤ recs.length) || recs.any fun r => decide (r.since + (if r.xoffKind then 64 else 1000) ≤ s.fab)

/-- CONTROL_FLIT_DUE (R249): the pending records have waited; endpoint acks that the 1 µs limit held back join them. -/
def execControlFlitDue (t : Nat) (s : State) : Host.Outcome State Fault Refusal :=
  onUnit (trunkPresent s t) (if t < 1024 || !trunkUp s t then s else
    let s := owedAcks t s
    s.modTrunk t fun x => { x with ctlDue := x.ctlDue || controlDue s x.recs })

/-- LL_TORN_WINDOW_END (R260): every cache has refreshed by then. -/
def execLlTornWindowEnd (l : Nat) (s : State) : Host.Outcome State Fault Refusal :=
  onUnit (l < llsOf s) (if passed (s.ll l).tornUntil 0 s.fab then s.putLl l { s.ll l with tornUntil := none, stale := [] } else s)

/-- A flit of a logical link is still queued or in custody. -/
def llBusy (s : State) (l : Nat) : Bool :=
  s.slots.any fun p => p.2.ll && p.2.owner = l && (p.2.queued || p.2.custody)

/-- LL_DRAIN_END (R261). -/
def execLlDrainEnd (l : Nat) (s : State) : Host.Outcome State Fault Refusal :=
  onUnit (l < llsOf s) (if (s.ll l).state ≠ llDraining || !passed (s.ll l).drainFrom 1000 s.fab || llBusy s l then s else
    let s := dropFlow (llFlow l 1) false (dropFlow (llFlow l 0) false s)
    s.putLl l { s.ll l with state := llInvalid, drainFrom := none, tornUntil := none, stale := [] })

/-- LL_CACHE_REFRESH (R260): caches 0-15 are the clusters', 16 + c that of calendar c. -/
def execLlCacheRefresh (cache : Nat) (s : State) : Host.Outcome State Fault Refusal :=
  onUnit (cache < clustersOf s || (16 ≤ cache && cache < 16 + calsOf s))
    ((Tbl.keys s.lls).foldl (fun s l => s.putLl l { s.ll l with stale := (s.ll l).stale.filter fun x => x.cache ≠ cache }) s)

/-! ## Counters of logical links and calendars (R265, R266) -/

def llCounters (l : Nat) : List Fld :=
  let p := llPage l
  [R.LL_IN0 p, R.LL_IN1 p, R.LL_DROP_inval p, R.LL_DROP_torn p, R.LL_CLOSS p, R.LL_RUNS_runs p, R.LL_RUNS_resume p, R.LL_REPLAYED p]

/-- The logical link that LLT_SEL of page `p` selects. -/
def llSelected (s : State) (p : Nat) : Nat := 128 * p + s.rd (R.LLT_SEL_idx p)

/-- Pages of the logical-link table the part has. -/
def lltPages (s : State) : Nat := llsOf s / 128

/-- LL_SNAP (R265): the read latches the counters of the selected logical link and answers the snapshot number. -/
def execLlSnap (p : Nat) (s : State) : Host.Outcome State Fault Refusal :=
  .next (ifHas (p < lltPages s) (0xC0 + p) (s.answerWord 0)
    (((State.latchAll (llCounters (llSelected s p)) s).bumpWrap (R.LL_SNAP_snap_no p)).answerWord (s.rd (R.LL_SNAP_snap_no p))))

/-- LL_CLR (R265). -/
def execLlClr (p : Nat) (s : State) : Host.Outcome State Fault Refusal :=
  .next (ifHas (p < lltPages s) (0xC0 + p) s (State.zeroLive (llCounters (llSelected s p)) s))

def calCounters (u j : Nat) : List Fld :=
  [R.CAL_FAULT u j, R.CAL_NAK_rx u j, R.CAL_NAK_tx u j, R.CAL_TMO_retrains u j, R.CAL_TMO_expiries u j, R.CAL_DUP_span u j,
   R.CAL_DUP_noslot u j, R.CAL_REPLAYED u j, R.CAL_CTL_rx u j, R.CAL_CTL_tx u j, R.CAL_MISC_drn_bad u j, R.CAL_MISC_rejects u j,
   R.CAL_MISC_unknown u j]

/-- CAL_SNAP (R266). -/
def execCalSnap (cal : Nat) (s : State) : Host.Outcome State Fault Refusal :=
  .next (ifHas (cal < calsOf s) (0xC8 + cal / 2) (s.answerWord 0)
    (((State.latchAll (calCounters (cal / 2) (cal % 2)) s).bumpWrap (R.CAL_SNAP_snap_no (cal / 2) (cal % 2))).answerWord
      (s.rd (R.CAL_SNAP_snap_no (cal / 2) (cal % 2)))))

/-- CAL_CLR (R266). -/
def execCalClr (cal : Nat) (s : State) : Host.Outcome State Fault Refusal :=
  .next (ifHas (cal < calsOf s) (0xC8 + cal / 2) s (State.zeroLive (calCounters (cal / 2) (cal % 2)) s))

/-! ## Queue status (R246, R267) -/

/-- The flow whose flits queues of logical link `l` hold in a direction: the logical link's, or that of the TRUNK-family
link that uses its queues. -/
def queueFlow (s : State) (l d : Nat) : Nat :=
  if llActive s l then llFlow l d else
  match (List.range (linksOf s)).find? fun k => isTrunkMode (modeOf s k) && s.rd (R.TRK_CFG1_LIVE_queue_ll k) = l with
  | some k => linkFlow k (Dir.ofIdx d)
  | none => llFlow l d

/-- QST_SEL is written: the queue's status is latched and the peak starts again from its depth. -/
def qstSelect (d q : Nat) (s : State) : State :=
  let q := q % 32768
  let f := queueFlow s (512 * d + q / 64) (q % 2)
  let v := q % 64 / 2
  let n := min (depthOf s f v) 0xFFFF
  let s := ((s.wr (R.QST_SEL_queue d) q).wrB (R.QST_STAT_xoff_in d) (bit (s.flow f).xoff v)).wrB (R.QST_STAT_xoff_up d) (bit (s.flow f).up v)
  (s.wr (R.QST_STAT_depth d) n).wr (R.QST_PEAK_peak d) n

/-- QST_SEL_WRITE (R267). -/
def execQstSelWrite (die queue : Nat) (s : State) : Host.Outcome State Fault Refusal :=
  .next (ifHas (die < diesOf s) (0xD0 + die) s (qstSelect die queue s))

end Sys2Proof.Machine
end

