-- ==== Sys2Proof/Machine/Clocking.lean ====
section
/-!
DEFINITION. Forwarded clocks and fallback (chapter Forwarded clocks and fallback rate matching, R78-R105): entry clock ends,
switchover, unlocks, borrows, holdover, dense-skip requests and CK_CMD.
-/

namespace Sys2Proof.Machine

open Sys2Proof

def bothDirs : List Dir := [.ab, .ba]

/-- Entry clock ends are judged outside reset and WATCH, with REFCLK judged good or the IFO ready (R82). -/
def clockJudged (s : State) (c : Nat) : Bool :=
  !clusterStopped s c && s.dev.phase ≠ .watch && (refGood s || s.on R.CLK_STAT_ifo_ready)

/-- CLOCK_DUTY_INVERT (R80, R396). The input is inverted once; qualification runs anew with ckl_inv settled (R82). -/
def execClockDutyInvert (c : Nat) (d : Dir) (s : State) : Host.Outcome State Fault Refusal :=
  onUnit (c < clustersOf s) (if s.on (R.CK_STAT_ckl_inv c d.idx) || !clockJudged s c then s else
    (s.wr (R.CK_STAT_ckl_inv c d.idx) 1).wired 5 d.inSide.idx c (16 * c + 13))

/-! ## Losing an entry clock lane (R94-R96, R101) -/

/-- A switchover begins. The other cluster of an x16 side leaves FORWARDED with it (R13; DEDUCED, log 233). -/
def switchStart (c : Nat) (d : Dir) (s : State) : State :=
  ((modeMates s c).filter (steadyForward s d)).foldl (fun s o => switchOne o d s) s

def clockLost (c : Nat) (d : Dir) (s : State) : State :=
  let s := (s.putCkEntry c d { s.ckEntry c d with loss := true }).wr (R.CK_STAT_ckl_ok c d.idx) 0
  if ckMode s c d = ckOff then s else
  let s := s.raise (16 * c + 2 + d.idx)
  if !steadyForward s d c then s
  else if x16Side s c d && mayBorrow s c d then
    let s := borrowStart c d s
    s.putCk c d { s.ck c d with heldFrom := some s.clock }
  else switchStart c d s

/-- The deassert level of ckl_level, in mV peak to peak (R105). -/
def cklLevel (s : State) (c : Nat) : Nat :=
  match s.rd (R.CK_DET_ckl_level c) with
  | 1 => 100
  | 2 => 40
  | _ => 60

/-- The frequency tolerance in ppm: ppm_tol in steps of 10 ppm, or 3 % against the IFO (R81). -/
def ckTolerance (s : State) (c : Nat) : Nat :=
  if refGood s then 10 * max 30 (min 200 (s.rd (R.CK_DET_ppm_tol c))) else 30000

/-- CLOCK_LANE_QUALIFIED (R82): at `mv` mV and within `ppm` of its nominal frequency for `ns` ns, 100 µs at least. Out of loss is
judged by the deassert level of ckl_level; its assert level decides nothing (DESIGN CHOICE; log 261). A span that waited for its
clock in DETECT goes on (R329). -/
def execClockLaneQualified (e : ClockEnd) (x : ClockSensed) (s : State) : Host.Outcome State Fault Refusal :=
  onUnit (e.c < clustersOf s) (if !clockJudged s e.c || x.mv < cklLevel s e.c || ckTolerance s e.c < x.ppm || x.len < 100000 then s else
    detectAll ((s.putCkEntry e.c e.d { s.ckEntry e.c e.d with loss := false }).wr (R.CK_STAT_ckl_ok e.c e.d.idx) 1))

/-- The entry clock end is in loss (R81): below the deassert level, at `mv` mV, for more than 256 nominal cycles, or `ppm` off its
nominal frequency in the last window of 4,096 cycles; and where nothing is there to judge it by (R82). -/
def cklInLoss (s : State) (c mv cycles ppm : Nat) : Bool :=
  (mv < cklLevel s c && 256 < cycles) || ckTolerance s c < ppm || !(refGood s || s.on R.CLK_STAT_ifo_ready)

/-- CLOCK_LANE_LOSS (R81, R82, R94). An end that is not qualified raises nothing; in WATCH no end is judged. -/
def execClockLaneLoss (e : ClockEnd) (x : ClockSensed) (s : State) : Host.Outcome State Fault Refusal :=
  onUnit (e.c < clustersOf s) (
    if clusterStopped s e.c || s.dev.phase = .watch || !cklInLoss s e.c x.mv x.len x.ppm then s
    else if s.on (R.CK_STAT_ckl_ok e.c e.d.idx) then clockLost e.c e.d s
    else s.putCkEntry e.c e.d { s.ckEntry e.c e.d with loss := true })

/-- The limit of a swap in progress has stopped since a clock event began (R416). -/
def swapHeld (c since : Nat) (s : State) : State :=
  let b := s.bob c
  if bobState s c ≠ bbSwapping && bobState s c ≠ bbReturning then s else
  s.putBob c { b with held := b.held + (s.clock - max since b.since) }

/-- The slices pass again: the interruption of the cluster's clock event is over (R94, R98, R101). -/
def slicesPass (c : Nat) (s : State) : State := swapResume c (syncCluster c s)

/-- A switchover is complete (R94, R101, R103): the direction runs in FALLBACK, or in RECOVERED where REFCLK is not good or a
TRANSPARENT link is carried. -/
def switchDone (c : Nat) (d : Dir) (s : State) : State :=
  let s := swapHeld c ((s.ck c d).switchFrom.getD s.clock) s
  let s := s.putCk c d { s.ck c d with switchFrom := none }
  let s := if ckMode s c d ≠ ckForwarded then s
    else if refGood s && !carriesTransparent s c d then
      (s.wr (R.CK_STAT_mode c d.idx) ckFallback).wr (R.CK_STAT_ref c d.idx) refRefclk
    else steerOrHold c d s.clock (s.wr (R.CK_STAT_mode c d.idx) ckRecovered)
  slicesPass c (lendSync c d s)

/-- SWITCHOVER_COMPLETE (R94): in both clusters of an x16 side at once (R13). -/
def execSwitchoverComplete (c : Nat) (d : Dir) (s : State) : Host.Outcome State Fault Refusal :=
  onUnit (c < clustersOf s) (if (s.ck c d).switchFrom.isNone then s else
    ((modeMates s c).filter fun o => (s.ck o d).switchFrom.isSome).foldl (fun s o => switchDone o d s) s)

/-- SWITCHOVER_LOCK_EXPIRY (R101): 8 µs after the loss the PLL has not locked to REFCLK; the direction borrows, or retrains as R97 says. -/
def execSwitchoverLockExpiry (c : Nat) (d : Dir) (s : State) : Host.Outcome State Fault Refusal :=
  onUnit (c < clustersOf s) (if !passed (s.ck c d).switchFrom 8000 s.clock || s.on (R.CK_STAT_pll_lock c d.idx) then s
    else if mayBorrow s c d then borrowStart c d s
    else
      let s := swapHeld c ((s.ck c d).switchFrom.getD s.clock) s
      slicesPass c (clockDemand c d (s.putCk c d { s.ck c d with switchFrom := none })))

/-! ## Losing a cluster PLL (R97-R100) -/

/-- A lent PLL has lost lock: its own direction and the borrower have lost their clock (R100). -/
def lentLost (c : Nat) (d : Dir) (s : State) : State :=
  let o := partner c
  let s := (borrowEnd o d s).wr (R.CK_STAT_pll_lock o d.idx) 0
  let s := (s.wr (R.CK_STAT_pll_lock c d.idx) 0).raise (16 * o + 4 + d.idx)
  clockDemand o d (clockDemand c d s)

/-- A lent PLL has lost lock while its own direction switches over: the borrower alone has lost its clock (R100, R101). -/
def lentLostQuietly (c : Nat) (d : Dir) (s : State) : State :=
  let o := partner c
  clockDemand o d (((borrowEnd o d s).wr (R.CK_STAT_pll_lock o d.idx) 0).raise (16 * o + 4 + d.idx))

/-- A cluster PLL unlocks. One that follows a clock-lane loss within the switchover raises nothing and starts no borrow
(R101). -/
def pllUnlock (c : Nat) (d : Dir) (s : State) : State :=
  let s := (s.wr (R.CK_STAT_own_lock c d.idx) 0).putCk c d { s.ck c d with unlockHeld := true }
  if (s.ck c d).switchFrom.isSome && ckMode s c d = ckForwarded then
    let s := s.wr (R.CK_STAT_pll_lock c d.idx) 0
    if s.on (R.CK_STAT_lent c d.idx) then lentLostQuietly c d s else s
  else
    let s := s.raise (16 * c + 4 + d.idx)
    if s.on (R.CK_STAT_lent c d.idx) then lentLost c d s
    else if s.on (R.CK_STAT_borrowed c d.idx) then s
    else if ckMode s c d = ckOff then s.wr (R.CK_STAT_pll_lock c d.idx) 0
    else if mayBorrow s c d then borrowStart c d s
    else clockDemand c d (s.wr (R.CK_STAT_pll_lock c d.idx) 0)

/-- PLL_UNLOCK (R97, R100, R101). -/
def execPllUnlock (c : Nat) (d : Dir) (s : State) : Host.Outcome State Fault Refusal :=
  onUnit (c < clustersOf s) (if s.on (R.CK_STAT_own_lock c d.idx) then pllUnlock c d s else s)

/-- PLL_RELOCK (R97, R98): own_lock reports it. A direction that runs on its own PLL is clocked again, in the mode it trained in
(DEDUCED; log 53). -/
def execPllRelock (c : Nat) (d : Dir) (s : State) : Host.Outcome State Fault Refusal :=
  onUnit (c < clustersOf s) (if !(s.ck c d).unlockHeld then s else
    let s := s.putCk c d { s.ck c d with unlockHeld := false }
    if ckMode s c d = ckOff then standbySync c s
    else
      let s := s.wr (R.CK_STAT_own_lock c d.idx) 1
      if s.on (R.CK_STAT_borrowed c d.idx) then s else s.wr (R.CK_STAT_pll_lock c d.idx) 1)

/-- BORROW_COMPLETE (R98). Where the borrow answers a clock-lane loss, a swap's limit has stopped since that loss (R416). -/
def execBorrowComplete (c : Nat) (d : Dir) (s : State) : Host.Outcome State Fault Refusal :=
  onUnit (c < clustersOf s) (if (s.ck c d).borrowing then
    let s := match (s.ck c d).heldFrom with
      | some t => swapHeld c t s
      | none => s
    slicesPass c (s.putCk c d { s.ck c d with borrowing := false, heldFrom := none }) else s)

/-- HOLDOVER_EXPIRY (R102): after 10 ms the spans with TX ends in the direction retrain. -/
def execHoldoverExpiry (c : Nat) (d : Dir) (s : State) : Host.Outcome State Fault Refusal :=
  onUnit (c < clustersOf s) (if !passed (s.ck c d).holdover 10000000 s.clock then s else
    ((spansIn s c d).filter fun p => p.2 = d.outSide && modeOf s p.1 ≠ mTransparent).foldl (fun s p =>
      retrain p.1 p.2 (some (spanRung s p.1 p.2)) false s) s)

/-! ## Dense-skip requests (R93) -/

/-- DENSE_REQ_RESEND (R93). -/
def execDenseReqResend (c : Nat) (d : Dir) (s : State) : Host.Outcome State Fault Refusal :=
  onUnit (c < clustersOf s) (
    let x := s.ck c d
    if x.denseOpen = 0 || 16 ≤ x.denseSent then s
    else densePost c d (if x.denseOpen = 1 then trnDENSEREQ else trnDENSEREL) (s.putCk c d { x with denseSent := x.denseSent + 1 }))

/-! ## CK_CMD (R104) -/

/-- CK_CMD is written: `go` takes effect unless an operation is in progress. -/
def ckCmd (c op : Nat) (d : Dir) (refused : Bool) (start : State → State) (s : State) : State :=
  let s := (s.wr (R.CK_CMD_op c) op).wr (R.CK_CMD_dir c) d.idx
  if s.on (R.CK_CMD_busy c) then s
  else if refused then s.wr (R.CK_CMD_refused c) 1
  else start (((s.wr (R.CK_CMD_refused c) 0).wr (R.CK_CMD_busy c) 1).putCk c d { s.ck c d with opFrom := some op, opAt := s.clock })

/-- CK_TO_FORWARDED (R104). -/
def execCkToForwarded (c : Nat) (d : Dir) (s : State) : Host.Outcome State Fault Refusal :=
  .next (ifHas (c < clustersOf s) (0x10 + c) s (ckCmd c 0 d
    ((modeMates s c).any (fun o => !s.on (R.CK_STAT_ckl_ok o d.idx)) || s.on (R.CK_STAT_borrowed c d.idx) || ckMode s c d = ckForwarded) (denseAsk c d false) s))

/-- CK_TO_FALLBACK (R104). -/
def execCkToFallback (c : Nat) (d : Dir) (s : State) : Host.Outcome State Fault Refusal :=
  .next (ifHas (c < clustersOf s) (0x10 + c) s (ckCmd c 1 d
    (!refGood s || (ckMode s c d ≠ ckForwarded && ckMode s c d ≠ ckRecovered) || carriesTransparent s c d) (denseAsk c d true) s))

/-- CK_RETURN_OWN (R104). -/
def execCkReturnOwn (c : Nat) (d : Dir) (s : State) : Host.Outcome State Fault Refusal :=
  .next (ifHas (c < clustersOf s) (0x10 + c) s (ckCmd c 2 d
    (!s.on (R.CK_STAT_borrowed c d.idx) || !s.on (R.CK_STAT_own_lock c d.idx)) id s))

/-- One cluster's move to FORWARDED or to FALLBACK by CK_CMD, without interrupting traffic: elastic buffers that begin are
centred. -/
def ckMoveOne (op : Nat) (d : Dir) (c : Nat) (s : State) : State :=
  let s := s.putCk c d { s.ck c d with steer := none, holdover := none }
  let s := if op = 0 then
      ((s.wr (R.CK_STAT_mode c d.idx) ckForwarded).wr (R.CK_STAT_ref c d.idx) refEntry).wr (R.EB_STAT_fill c d.idx) 0
    else
      let fresh := (clusterLanes c).filter fun n => !endEb s n d.inSide
      let s := if ckMode s c d = ckForwarded then s.wr (R.EB_STAT_fill c d.idx) 16 else s
      let s := (s.wr (R.CK_STAT_mode c d.idx) ckFallback).wr (R.CK_STAT_ref c d.idx) refRefclk
      fresh.foldl (fun s n => s.putRx n d.inSide { s.rxe n d.inSide with fill := 16, recentre := false }) s
  lendSync c d s

/-- The move an operation makes once its steps are done, in both clusters of an x16 side (R13); one whose reference has gone
makes none. After RETURN_OWN the own PLL is on the reference of its mode: the entry clock in FORWARDED, REFCLK otherwise
(DESIGN CHOICE: R104 says only that the mode stays; log 234). -/
def ckMove (c op : Nat) (d : Dir) (s : State) : State :=
  let s := s.putCk c d { s.ck c d with opFrom := none }
  match op with
  | 0 => if (modeMates s c).all fun o => s.on (R.CK_STAT_ckl_ok o d.idx) then
      (modeMates s c).foldl (fun s o => ckMoveOne 0 d o s) s else s
  | 1 => if refGood s then (modeMates s c).foldl (fun s o => ckMoveOne 1 d o s) s else s
  | _ =>
    let s := borrowEnd c d s
    (s.wr (R.CK_STAT_pll_lock c d.idx) 1).wr (R.CK_STAT_ref c d.idx) (if ckMode s c d = ckForwarded then refEntry else refRefclk)

/-- The direction of a cluster whose operation has yet to make its move, with the operation. -/
def ckOpOf (s : State) (c : Nat) : Option (Dir × Nat) := bothDirs.findSome? fun d => (s.ck c d).opFrom.map fun op => (d, op)

/-- FALLBACK_WAIT_EXPIRY (R104): the PLL moves to REFCLK without dense_rx. -/
def execFallbackWaitExpiry (c : Nat) (d : Dir) (s : State) : Host.Outcome State Fault Refusal :=
  onUnit (c < clustersOf s) (if (s.ck c d).opFrom = some 1 && (s.ck c d).opAt + 20000 ≤ s.clock then ckMove c 1 d s else s)

/-- CK_OP_COMPLETE (R104): TO_FALLBACK completes once the PLL has moved, by dense_rx or without it. -/
def execCkOpComplete (c : Nat) (s : State) : Host.Outcome State Fault Refusal :=
  onUnit (c < clustersOf s) (if !s.on (R.CK_CMD_busy c) then s else
    match ckOpOf s c with
    | some (d, op) =>
      if op = 1 && !s.on (R.CK_STAT_dense_rx c d.idx) then s
      else slicesPass c ((ckMove c op d s).wr (R.CK_CMD_busy c) 0)
    | none => slicesPass c (s.wr (R.CK_CMD_busy c) 0))

end Sys2Proof.Machine
end

