-- ==== Sys2Proof/Machine/Training.lean ====
section
/-!
DEFINITION. Training commands (chapter Taking part in training, R138-R160): TRN sets received, the timers of the span
sequencers, and TRN_CMD.
-/

namespace Sys2Proof.Machine

open Sys2Proof

/-! ## A TRN set arrives (R66, R69, R138) -/

/-- T1 of the first accepted TRN copy since the end entered LOCKED (R69, R76). -/
def trnEnd (n : Nat) (sd : Side) (t : TrnSet) (s : State) : State :=
  let c := laneCluster n
  let j := lanePos n
  if s.on (R.LANE_NUM_num_valid c j sd.idx) then s else
  ((s.wr (R.LANE_NUM_num_valid c j sd.idx) 1).wr (R.LANE_NUM_num c j sd.idx) (t.t1 % 16)).putRx n sd
    { s.rxe n sd with t1 := t.t1 }

/-- A copy of a TRN set without what is the lane's own, T1. -/
def readTrnCommon (x : List Sym) : Option TrnSet := (readTrn x).map fun t => { t with t1 := 0 }

/-- What every accepted TRN set records of the neighbour. -/
def trnFields (k : Nat) (sd : Side) (t : TrnSet) (s : State) : State :=
  let d := sd.idx
  let s := ((s.wrB (R.SPAN_STAT_nbr_peer k d) (bit t.flags 0)).wrB (R.SPAN_STAT_nbr_trunk k d) (bit t.flags 1)).wrB
    (R.SPAN_STAT_nbr_blind k d) (bit t.flags 2)
  ((s.wr (R.SPAN_STAT_nbr_max k d) t.max).wr (R.SPAN_STAT_width k d) t.width).modSpan k sd fun x => { x with heard := true }

def trainingNow (s : State) (k : Nat) (sd : Side) : Bool := spAcquire ≤ spanState s k sd && spanState s k sd ≤ spArmed

/-- What an accepted set may set going: QUALIFY, a step of the group, T_up. A neighbour whose max rung is below the rung of
a group it joins takes the link down (R147). -/
def trnAfter (k : Nat) (sd : Side) (s : State) : State :=
  if trainingNow s k sd && groupJoined s k sd && nbrMax s k sd < spanRung s k sd then linkDown k ftGroup false s
  else if trainingNow s k sd then armCheck k (groupStep k sd (qualifyCheck k sd s))
  else s

/-- What the intact copies of a TRN set tell each end. -/
def trnEnds (k : Nat) (sd : Side) (heard : List Heard) (s : State) : State :=
  (sideCopies readTrn s k sd heard).foldl (fun s p =>
    match copyContents p.2 with
    | some t => trnEnd p.1 sd t s
    | none => s) s

/-- The end of a cluster that does not serve a side of a link: the bobbin's, or lane n's while the bobbin stands in. -/
def spareEnd (s : State) (c : Nat) (sd : Side) : Nat := if (s.bob c).inOn sd then bobLane s c else 128 + c

/-- A TRN set that arrives on a spare end, which has no deskew to be judged by. -/
def spareHears (c k : Nat) (sd : Side) (h : Heard) (s : State) : State :=
  let m := spareEnd s c sd
  if !isLocked s m sd then s else
  match copyOf readTrn s m sd h.time h with
  | .intact t =>
    let s := lossCheck [m] sd (trnEnd m sd t (copyArrives m sd (.intact t) (laneHears m sd h.codes s)))
    if t.t0 = 0xB5 && 1 ≤ t.kind && t.kind ≤ 10 then spareCap c k sd t.t1 (t.kind = trnCAP) s else s
  | x => lossCheck [m] sd (copyArrives m sd x (laneHears m sd h.codes s))

/-- The copies that arrive on the spare ends, one for each cluster of the side (R319, R322). -/
def spareCopies (k : Nat) (sd : Side) (spare : List Heard) (s : State) : State :=
  ((sideClusters s k sd).zip spare).foldl (fun s p => spareHears p.1 k sd p.2 s) s

/-- A TRN set of a kind arrives on a side: `act` is what the kind adds. A set whose T0 or kind is not listed is counted and
discarded. -/
def trnReceive (k : Nat) (sd : Side) (heard : List Heard) (kind : Nat) (act : TrnSet → State → State) (s : State) : State :=
  if !hasSequencer s k sd || sideHeld s k sd then s else
  spareCopies k sd (heard.drop (sideWidth s k sd)) <|
  match setArrives readTrnCommon k sd heard (trnEnds k sd heard s) with
  | (none, s) => s
  | (some t, s) =>
    if t.t0 ≠ 0xB5 || t.kind = 0 || 10 < t.kind then s.bump (R.TRN_CNT_bad_kind k)
    else if t.kind ≠ kind || spanState s k sd < spDetect || spUp < spanState s k sd then s
    else trnAfter k sd (act t (trnFields k sd t s))

/-! ## CAP (R141, R143, R322) -/

/-- A CAP is accepted: width and trunk are checked, the election value is taken. Where both mismatch, the fault is WIDTH
(DESIGN CHOICE; log 229). -/
def capAct (k : Nat) (sd : Side) (t : TrnSet) (s : State) : State :=
  if trainingNow s k sd && t.width ≠ s.rd (R.LNK_CFG_LIVE_width k sd.idx) then linkDown k ftWidth false s
  else if trainingNow s k sd && isTrunkSide s k sd && !bit t.flags 1 then trunkFails k sd s
  else
    let v := if bit t.flags 0 then t.elect else 0
    let s := s.modSpan k sd fun x => { x with capAcc := true }
    if v = inElect s k sd then s else electSync (rateGroup s k sd) ((s.modSpan k sd fun x => { x with capFrom := s.clock }).wr (R.SPAN_NBR_in_elect k sd.idx) v)

/-- CAP_RECEIVE (R141): `spare` are the copies on the ends that do not serve the side, in the other commands those that follow
the copies of the side's lanes. -/
def execCapReceive (k : Nat) (sd : Side) (heard spare : List Heard) (s : State) : Host.Outcome State Fault Refusal :=
  onUnit (k < linksOf s) (
    let s1 := trnReceive k sd heard trnCAP (capAct k sd) s
    if hasSequencer s k sd && !sideHeld s k sd then spareCopies k sd spare s1 else s1)

/-! ## RATE and RATE_ACK (R144, R145, R159) -/

/-- The rung of a group is held by a span of it in UP, or by a TRANSPARENT link (R12, R41, R147). -/
def groupHeld (s : State) (k : Nat) (sd : Side) : Bool :=
  (transRung s k sd).isSome || (rateGroup s k sd).any fun p => spanUp s p.1 p.2

/-- The answer to a RATE: 0 accept, 1 not ready, 2 refuse. A group whose rung is held goes to no other (DEDUCED; log 225). -/
def rateResult (s : State) (k : Nat) (sd : Side) (target : Nat) : Nat :=
  let rung := spanRung s k sd
  if groupHeld s k sd then 2
  else if target < rung then 0
  else if spanState s k sd = spStep then 2
  else if target = rung + 1 && thruHolds s k sd then 0
  else if targetRung s (rateGroup s k sd) < target then 2 else 1

/-- A RATE_ACK that already waits to be sent. -/
def ackWaits (s : State) (k : Nat) (sd : Side) (t : TrnSet) : Bool :=
  (s.side k sd).trnDue.any fun u => u.kind = trnRATEACK && u.tag = t.tag && u.target = t.target

/-- A RATE down overtakes a RATE up whose accept has yet to be sent: that one is refused (R159). -/
def refuseUp (k : Nat) (sd : Side) (target : Nat) (s : State) : State :=
  s.putSide k sd { s.side k sd with trnDue := (s.side k sd).trnDue.map fun u =>
    if u.kind = trnRATEACK && target < u.target && u.value = 0 then { u with value := 2 * 2 ^ 24 } else u }

/-- A RATE on a followed span is answered; on accept the group sends the same RATE on every span it leads. A group under blind
or direct start that accepts one steps from then on (DEDUCED; log 226). -/
def rateFollow (k : Nat) (sd : Side) (t : TrnSet) (s : State) : State :=
  if ackWaits s k sd t then s else
  let res := rateResult s k sd t.target
  let s := if res = 0 then refuseUp k sd t.target s else s
  let s := postTrn k sd { mkTrn s k sd trnRATEACK with target := t.target, tag := t.tag, value := res * 2 ^ 24 } s
  if res ≠ 0 then s.modSpan k sd fun x => { x with ackRep := some (t.target, t.tag, res) } else
  let g := rateGroup s k sd
  let s := if g.any fun p => s.on (R.SPAN_STAT_blind p.1 p.2.idx) then blindOver g s else s
  let s := setSpan k sd spStep (s.modSpan k sd fun x => { x with toRung := t.target, rateTarget := none, ackRep := none })
  ((rateGroup s k sd).filter fun p => leads s p.1 p.2 && trainingNow s p.1 p.2).foldl (fun s p => sendRate t.target p.1 p.2 s) s

def rateAct (k : Nat) (sd : Side) (t : TrnSet) (s : State) : State :=
  if leads s k sd then s.bump (R.TRN_CNT_bad_kind k)
  else if follows s k sd && trainingNow s k sd && spanState s k sd ≠ spSwitch then rateFollow k sd t s
  else s

/-- RATE_RECEIVE (R144). -/
def execRateReceive (k : Nat) (sd : Side) (heard : List Heard) (s : State) : Host.Outcome State Fault Refusal :=
  onUnit (k < linksOf s) (trnReceive k sd heard trnRATE (rateAct k sd) s)

/-- An answered RATE is no longer repeated. -/
def dropRates (k : Nat) (sd : Side) (s : State) : State :=
  s.putSide k sd { s.side k sd with trnDue := (s.side k sd).trnDue.filter fun u => u.kind ≠ trnRATE }

/-- The answer to a RATE of this side: SWITCH on accept, READY otherwise (DESIGN CHOICE for not ready and refuse, for which R153
gives no row; log 262). -/
def rateAckAct (k : Nat) (sd : Side) (t : TrnSet) (s : State) : State :=
  let x := s.span k sd
  match x.rateTarget with
  | none => s
  | some r =>
    if spanState s k sd ≠ spStep || !leads s k sd || t.tag ≠ x.rateTag then s
    else if t.value / 2 ^ 24 % 256 = 0 then sideEie k sd (switchTo k sd r (dropRates k sd s))
    else setSpan k sd spReady ((dropRates k sd s).modSpan k sd fun x => { x with rateTarget := none })

/-- RATE_ACK_RECEIVE (R145). -/
def execRateAckReceive (k : Nat) (sd : Side) (heard : List Heard) (s : State) : Host.Outcome State Fault Refusal :=
  onUnit (k < linksOf s) (trnReceive k sd heard trnRATEACK (rateAckAct k sd) s)

/-! ## READY (R142, R146-R148) -/

/-- PASS and THRU of the neighbour at the current rung. A figure that it did not pass ends a blind or direct start, or the
joining of a group that is in UP. -/
def readyAct (k : Nat) (sd : Side) (t : TrnSet) (s : State) : State :=
  if !trainingNow s k sd || t.cur ≠ spanRung s k sd then s else
  let pass := bit t.flags 4
  let s := s.modSpan k sd fun x => { x with passRcvd := pass, thruRcvd := bit t.flags 3 }
  if pass then s
  else if groupJoined s k sd then linkDown k ftGroup false s
  else if s.on (R.SPAN_STAT_blind k sd.idx) then leaveBlind (rateGroup s k sd) s
  else s

/-- READY_RECEIVE (R142). -/
def execReadyReceive (k : Nat) (sd : Side) (heard : List Heard) (s : State) : Host.Outcome State Fault Refusal :=
  onUnit (k < linksOf s) (trnReceive k sd heard trnREADY (readyAct k sd) s)

/-! ## Round trips (R140, R151, R158) -/

/-- An ECHO_REQ is answered; `turn` is the time from its end to the answer, in ns. -/
def echoReqAct (k : Nat) (sd : Side) (turn : Nat) (t : TrnSet) (s : State) : State :=
  if spanUp s k sd || (trainingNow s k sd && spanState s k sd ≠ spSwitch) then
    postTrn k sd { mkTrn s k sd trnECHORSP with tag := t.tag, value := turn % 2 ^ 32 } s
  else s

/-- ECHO_REQ_RECEIVE (R140). -/
def execEchoReqReceive (k : Nat) (sd : Side) (heard : List Heard) (turn : Nat) (s : State) : Host.Outcome State Fault Refusal :=
  onUnit (k < linksOf s) (trnReceive k sd heard trnECHOREQ (echoReqAct k sd turn) s)

/-- The next ECHO_REQ; after 32 the span goes down. -/
def echoNext (k : Nat) (sd : Side) (s : State) : State :=
  let x := s.span k sd
  if 32 ≤ x.requests then linkDown k ftEcho false s else
  let tag := (x.echoTag + 1) % 256
  let s := s.putSpan k sd { x with echoTag := tag, requests := x.requests + 1, echoOut := true, echoAt := s.clock }
  postTrn k sd { mkTrn s k sd trnECHOREQ with tag := tag } s

/-- Eight samples: the round trip is recorded and the span is ARMED. One that exceeds the proved value after a retrain sets
over and asks for a re-check. -/
def rttDone (k : Nat) (sd : Side) (s : State) : State :=
  let d := sd.idx
  let rtt := min ((s.span k sd).samples.foldl max 0) 0xFFFFF
  let longer := s.rd (R.PROOF_RTT_rtt k d) < rtt
  let s := prkNotice ((s.wr (R.RTT_valid k d) 1).wr (R.RTT_rtt k d) rtt)
  let s := setSpan k sd spArmed (s.modSpan k sd fun x => { x with echoOut := false })
  let s := if !longer then s.wr (R.RTT_over k d) 0
    else if spanRetraining s k sd then startRecheck 2 (s.wr (R.RTT_over k d) 1) else s
  armCheck k s

/-- An ECHO_RSP with the tag of the request that is out. -/
def echoRspAct (k : Nat) (sd : Side) (sample : Nat) (t : TrnSet) (s : State) : State :=
  let x := s.span k sd
  if spanState s k sd ≠ spMeasure || !x.echoOut || t.tag ≠ x.echoTag then s else
  let s := s.putSpan k sd { x with echoOut := false, samples := x.samples ++ [sample - t.value] }
  if 8 ≤ x.samples.length + 1 then rttDone k sd s else echoNext k sd s

/-- ECHO_RSP_RECEIVE (R151): `sample` is the time from the COM of the request to the COM of the answer, in ns. -/
def execEchoRspReceive (k : Nat) (sd : Side) (heard : List Heard) (sample : Nat) (s : State) :
    Host.Outcome State Fault Refusal :=
  onUnit (k < linksOf s) (trnReceive k sd heard trnECHORSP (echoRspAct k sd sample) s)

/-- ECHO_WAIT_EXPIRY (R151). -/
def execEchoWaitExpiry (k : Nat) (sd : Side) (s : State) : Host.Outcome State Fault Refusal :=
  onUnit (k < linksOf s) (if spanState s k sd = spMeasure && !sideHeld s k sd && (s.span k sd).echoOut && (s.span k sd).echoAt + 10000 ≤ s.clock then echoNext k sd s else s)

/-! ## RETRAIN and dense-skip requests (R93, R154, R159) -/

/-- RETRAIN_RECEIVE (R154). -/
def execRetrainReceive (k : Nat) (sd : Side) (heard : List Heard) (s : State) : Host.Outcome State Fault Refusal :=
  onUnit (k < linksOf s) (trnReceive k sd heard trnRETRAIN (fun _ s => retrain k sd none true s) s)

/-- DENSE_REQ_RECEIVE (R93). -/
def execDenseReqReceive (k : Nat) (sd : Side) (heard : List Heard) (s : State) : Host.Outcome State Fault Refusal :=
  onUnit (k < linksOf s) (trnReceive k sd heard trnDENSEREQ (fun _ s => if spanUp s k sd then setDense k sd true s else s) s)

/-- DENSE_REL_RECEIVE (R93). -/
def execDenseRelReceive (k : Nat) (sd : Side) (heard : List Heard) (s : State) : Host.Outcome State Fault Refusal :=
  onUnit (k < linksOf s) (trnReceive k sd heard trnDENSEREL (fun _ s => if spanUp s k sd then setDense k sd false s else s) s)

/-! ## Timers (R141, R144-R148, R153) -/

/-- The lengths of the timers, in ns: cap_settle, rung_max, train_max and retrain_max, with the values outside their ranges
taken as R160 says. -/
def capSettleNs (s : State) (k : Nat) : Nat := 1000 * max 1 (s.rd (R.TRN_CFG_cap_settle k))
def rungMaxNs (s : State) (k : Nat) : Nat := 100000 * max 1 (s.rd (R.TRN_TMR_rung_max k))
def trainMaxNs (s : State) (k : Nat) : Nat := 1000000 * max 1 (s.rd (R.TRN_TMR_train_max k))
def retrainMaxNs (s : State) (k : Nat) : Nat := 1000 * max 20 (min 190 (s.rd (R.TRN_TMR_retrain_max k)))

/-- Every value that a group has received has been unchanged for cap_settle (R141). -/
def capSettled (s : State) (k : Nat) (sd : Side) : Bool :=
  (rateGroup s k sd).all fun p => (s.span p.1 p.2).capFrom + capSettleNs s k ≤ s.clock

/-- A collision of the election: the group draws again, and goes down at the eighth in a row. The link whose timer it was
counts it, whatever links the group spans (DESIGN CHOICE; log 229). The settling starts afresh (DEDUCED; log 248). -/
def capSettle (k : Nat) (sd : Side) (s : State) : State :=
  let g := (rateGroup s k sd).filter fun p => spanTraining s p.1 p.2
  let setCount := fun (n : Nat) (s : State) =>
    g.foldl (fun s p => s.modSpan p.1 p.2 fun x => { x with collisions := n, capFrom := s.clock }) s
  if g.any fun p => s.rd (R.SPAN_NBR_adv_elect p.1 p.2.idx) = inElect s p.1 p.2 then
    let n := (s.span k sd).collisions + 1
    let s := setCount n (s.bump (R.TRN_CNT_collisions k))
    if 8 ≤ n then (rateGroup s k sd).foldl (fun s p => linkDown p.1 ftElection false s) s
    else electDraw (rateGroup s k sd) s
  else setCount 0 s

/-- CAP_SETTLE_EXPIRY (R141). -/
def execCapSettleExpiry (k : Nat) (sd : Side) (s : State) : Host.Outcome State Fault Refusal :=
  onUnit (k < linksOf s) (if spanTraining s k sd && hasSequencer s k sd && !sideHeld s k sd && capSettled s k sd then capSettle k sd s else s)

/-- SWITCH_IDLE_END (R145): it runs from the end of the EIE set. -/
def execSwitchIdleEnd (k : Nat) (sd : Side) (s : State) : Host.Outcome State Fault Refusal :=
  onUnit (k < linksOf s) (
    if spanState s k sd = spSwitch && !sideHeld s k sd && !sideSending s k sd && (s.span k sd).idleFrom + 1000 * switchIdle s k ≤ s.clock
    then trainAt k sd (s.span k sd).toRung s else s)

/-- DWELL_END (R146): the dwell ends when its symbols have passed. -/
def execDwellEnd (k : Nat) (sd : Side) (symbols : Nat) (s : State) : Host.Outcome State Fault Refusal :=
  onUnit (k < linksOf s) (if spanState s k sd ≠ spQualify || sideHeld s k sd || symbols < dwellSymbols s k then s
    else if dwellPasses s k sd then figurePasses k sd s else figureFails k sd s)

/-- RUNG_MAX_EXPIRY (R146). -/
def execRungMaxExpiry (k : Nat) (sd : Side) (s : State) : Host.Outcome State Fault Refusal :=
  onUnit (k < linksOf s) (
    if (spanState s k sd = spAcquire || spanState s k sd = spQualify) && !sideHeld s k sd && (s.span k sd).acqFrom + rungMaxNs s k ≤ s.clock
    then figureFails k sd s else s)

/-- TRAIN_MAX_EXPIRY (R153, R160): QUALITY after three failed figures at L0. -/
def execTrainMaxExpiry (k : Nat) (sd : Side) (s : State) : Host.Outcome State Fault Refusal :=
  onUnit (k < linksOf s) (if spanTraining s k sd && !spanRetraining s k sd && !sideHeld s k sd && (s.span k sd).trainFrom + trainMaxNs s k ≤ s.clock then
    linkDown k (if 3 ≤ (s.span k sd).l0Fails then ftQuality else ftTimeout) false s else s)

/-- RETRAIN_MAX_EXPIRY (R153). -/
def execRetrainMaxExpiry (k : Nat) (sd : Side) (s : State) : Host.Outcome State Fault Refusal :=
  onUnit (k < linksOf s) (
    if spanTraining s k sd && spanRetraining s k sd && !sideHeld s k sd && (s.span k sd).trainFrom + retrainMaxNs s k ≤ s.clock
    then linkDown k ftTimeout false s else s)

/-- A RATE is sent again with its tag. -/
def rateAgain (k : Nat) (sd : Side) (s : State) : State :=
  let x := s.span k sd
  match x.rateTarget with
  | none => s
  | some r =>
    if spanState s k sd ≠ spStep || sideHeld s k sd || s.clock < x.rateAt + 2000 then s
    else if 16 ≤ x.rateSends then linkDown k ftTimeout false s
    else postTrn k sd { mkTrn s k sd trnRATE with target := r, tag := x.rateTag }
      (dropRates k sd (s.putSpan k sd { x with rateSends := x.rateSends + 1, rateAt := s.clock }))

/-- RATE_RESEND (R144). -/
def execRateResend (k : Nat) (sd : Side) (s : State) : Host.Outcome State Fault Refusal :=
  onUnit (k < linksOf s) (rateAgain k sd s)

/-- DOWN_HOLD_END (R149, R153): 1 ms after entry to DOWN. -/
def execDownHoldEnd (k : Nat) (sd : Side) (s : State) : Host.Outcome State Fault Refusal :=
  onUnit (k < linksOf s) (if sideHeld s k sd then s else downRestart k sd s)

/-- GO_TIME (R148): the spans that waited in DETECT start. -/
def execGoTime (s : State) : Host.Outcome State Fault Refusal :=
  .next (if goReached s then detectAll s else s)

/-- T_UP_BEGIN (R152). -/
def execTUpBegin (k : Nat) (s : State) : Host.Outcome State Fault Refusal :=
  onUnit (k < linksOf s) (match (s.link k).tUp with
    | some t => if t ≤ s.fab && armed s k && !(usedSides s k).any (sideHeld s k) then linkUp k s else s
    | none => s)

/-! ## TRN_CMD (R160) -/

/-- TRN_CMD is written with go. -/
def trnCmd (k op : Nat) (sd : Side) (rung : Nat) (refused : Bool) (act : State → State) (s : State) : State :=
  let s := ((s.wr (R.TRN_CMD_op k) op).wr (R.TRN_CMD_side k) sd.idx).wr (R.TRN_CMD_rung k) rung
  if refused || modeOf s k = mNone then s.wr (R.TRN_CMD_refused k) 1 else act (s.wr (R.TRN_CMD_refused k) 0)

/-- RETRAIN and STEP are refused on a span that is not in UP, or beside a retrain of the link. -/
def notSteady (s : State) (k : Nat) (sd : Side) : Bool :=
  modeOf s k = mTransparent || !spanUp s k sd || (usedSides s k).any (spanRetraining s k)

/-- TRN_RETRAIN. -/
def execTrnRetrain (k : Nat) (sd : Side) (s : State) : Host.Outcome State Fault Refusal :=
  .next (ifHas (k < linksOf s) (0x40 + k) s (trnCmd k 0 sd (s.rd (R.TRN_CMD_rung k)) (notSteady s k sd) (retrain k sd none false) s))

/-- TRN_STEP. Beside a TRANSPARENT link, which does not step, it is refused (DEDUCED; log 225). -/
def execTrnStep (k : Nat) (sd : Side) (rung : Nat) (s : State) : Host.Outcome State Fault Refusal :=
  .next (ifHas (k < linksOf s) (0x40 + k) s (trnCmd k 1 sd rung
    (notSteady s k sd || rung = spanRung s k sd || targetRung s (rateGroup s k sd) < rung || (transRung s k sd).isSome) (retrain k sd (some rung) false) s))

/-- TRN_DOWN. -/
def execTrnDown (k : Nat) (s : State) : Host.Outcome State Fault Refusal :=
  .next (ifHas (k < linksOf s) (0x40 + k) s (trnCmd k 2 (Side.ofIdx (s.rd (R.TRN_CMD_side k))) (s.rd (R.TRN_CMD_rung k)) false
    (linkDown k ftHost true) s))

/-- A span in DOWN restarts. -/
def restartSpan (k : Nat) (sd : Side) (s : State) : State :=
  if spanState s k sd = spDown && mayTrain s k sd then detectEnter k sd true (blindSystem s) s else s

/-- TRN_RESTART (R149, R153): TRN_CMD.side is not for it (R160), so every span of the link that is in DOWN restarts. -/
def execTrnRestart (k : Nat) (sd : Side) (s : State) : Host.Outcome State Fault Refusal :=
  .next (ifHas (k < linksOf s) (0x40 + k) s (trnCmd k 3 sd (s.rd (R.TRN_CMD_rung k))
    ((usedSides s k).all fun e => spanState s k e ≠ spDown) (fun s => (usedSides s k).foldl (fun s e => restartSpan k e s) s) s))

end Sys2Proof.Machine
end

