-- ==== Sys2Proof/Machine/FlitPath.lean ====
section
/-!
DEFINITION. The flit path (chapters The flit path and folding, R161-R183; Trunks, R218-R219 and R228; Bundles, R245 and
R263): flits and ordered sets received, the scheduler's turn, skip sets and deskew, and the flit-path counters.
-/

namespace Sys2Proof.Machine

open Sys2Proof

/-- A side whose ordered sets and flits the device handles: used, not of a TRANSPARENT link, and not held (R336). -/
def sideLive (s : State) (k : Nat) (sd : Side) : Bool := sideUsed s k sd && modeOf s k ≠ mTransparent && !sideHeld s k sd

/-! ## A flit arrives (R166-R169) -/

/-- An arrival is counted by its class. -/
def countClass (k d cls : Nat) (s : State) : State :=
  match cls with
  | 0 => s
  | 1 => s.count (R.BADSYM k d)
  | 2 => s.count (R.BADIN k d)
  | _ => s.count (R.BADPAR k d)

/-! ## Entry from an endpoint onto a trunk (R218, R228, R247) -/

/-- A leaving trunk side is at a point at which a flit may start in cut-through: nothing of R172 comes before it, no run and
no control flit is due, no idle slot runs, and the window has room. -/
def cutPoint (s : State) (k : Nat) (o : Side) : Bool :=
  let cur := (s.side k o).cur
  let s := itemDone k o s
  let x := s.side k o
  let t := trunkKey s k o
  let y := s.trunk t
  isTrunkSide s k o && spanUp s k o && (cur = .none || cur = .idl) && !x.eieDue && !skpDue s k o && x.trnDue = [] &&
  (drnDue s k o).isNone && (x.pendAck.isNone || x.lastAck) && (x.pendSel = [] || x.selSyms ≠ 0) &&
  !y.stopped && y.runQ = [] && !(y.ctlDue && y.recs ≠ []) && y.idleSlot = 0 && windowRoom s t

/-- The trunk side would send the queued flit `r` of flow `f` next: as the only one that may go, or by its calendar's choice,
with the calendar's state after it. -/
def cutChosen (k : Nat) (o : Side) (f r : Nat) (s : State) : Option (Nat × State) :=
  let t := trunkKey s k o
  if t < 1024 then (if queueHead s f (spanKey k o) = some r then some (r, s) else none)
  else match calChoose (t - 1024) s with
    | (some p, s) => if p = (f, r) then some (r, s) else none
    | (none, _) => none

/-- A flit whose queue is empty becomes its sendable head at its SOF (R218, R247): the slot pair that it takes, where the
trunk side then starts it in cut-through. -/
def cutTakes (f : Nat) (x : Slot) (s : State) : Option (Nat × State) :=
  let k := x.out / 2
  let o := Side.ofIdx (x.out % 2)
  if !cutPoint s k o || depthOf s f x.vc ≠ 0 then none else
  match allocFlow f true x s with
  | none => none
  | some (r, s) =>
    match cutChosen k o f r (itemDone k o (s.modFlow f fun v => { v with queue := v.queue ++ [r] })) with
    | none => none
    | some (r, s) => some (r, s.modFlow f fun v => { v with queue := v.queue.filter (· ≠ r) })

/-- The llid that a flow's flits carry on a trunk (R212). -/
def flowLlid (f : Nat) : Nat := if flowIsLl f then flowOwner f else 0

/-- A flit that is not good leaves poisoned with the number that the next good flit will take (R216). -/
def cutPoisoned (f out : Nat) (fl : Flit) (s : State) : State :=
  let k := out / 2
  let o := Side.ofIdx (out % 2)
  let word := trunkWord false (flowLlid f) (s.trunk (trunkKey s k o)).nextTx
  itemStart k o (.flit (stampWord fl.bytes word) true none none) (countForward f out true s)

/-- A good flit starts in cut-through from its slot pair: it takes a number, and custody unless its sequence is a duplicate
or leaves a gap (R216, R228). -/
def cutGood (f out r : Nat) (fl : Flit) (s : State) : State :=
  let k := out / 2
  let o := Side.ofIdx (out % 2)
  let t := trunkKey s k o
  let q := flitSeq fl.bytes
  let c := entryClass (s.flow f) q
  let i : Item := .flit (stampWord fl.bytes (trunkWord false (flowLlid f) (s.trunk t).nextTx)) false (some r) none
  let s := number t r (markSending r (countForward f out false s))
  let s := itemStart k o (mixedItem s k o i) s
  if c = 0 then proxyCustody f q s else if c = 1 then refreshProxy f s else s

/-- The VC under which a flit that is not good waits for its start in cut-through: one that is under no XOFF, since its own
is not read (R162; DEDUCED, log 223). -/
def openVc (s : State) (f : Nat) : Nat := ((List.range 32).find? fun v => !bit (s.flow f).xoff v && depthOf s f v = 0).getD 0

/-- A flit enters from its endpoint for a trunk side: in cut-through, where `cut` asks for it and the side lets it, or by its
queue. -/
def trunkEnter (f out : Nat) (fl : Flit) (cut : Bool) (s : State) : State :=
  let x := { sideSlot s f out fl with queued := true }
  if fl.cls ≠ 0 then
    match if cut then cutTakes f { x with vc := openVc s f } s else none with
    | some (r, s) => cutPoisoned f out fl (slotFree r s)
    | none => entryQueued f out fl s
  else
    match if cut then cutTakes f { x with custody := entryClass (s.flow f) (flitSeq fl.bytes) = 0 } s else none with
    | some (r, s) => cutGood f out r fl s
    | none => entryQueued f out fl s

/-- A flit of a TRUNK-family link enters from its endpoint; a flit of a VC outside vc_mask is discarded. -/
def trunkEntry (k : Nat) (sd : Side) (fl : Flit) (cut : Bool) (s : State) : State :=
  let f := linkFlow k sd.dirIn
  if fl.cls = 0 && !bit (flowVcMask s f) (flitVc fl.bytes) then s.count (R.DUP_xlp k)
  else trunkEnter f (outKey s f) fl cut s

/-! ## Arrival at an endpoint side (R164, R165, R245, R263) -/

/-- A flit crosses the seam to side `out` where that lies on another die (R179). One that fails both tries counts as BADSYM,
unless it has been counted in a class already. -/
def crossSeam (k : Nat) (sd : Side) (out : Nat) (fail1 fail2 : Bool) (fl : Flit) (s : State) : Flit × State :=
  let r := seamFlit (sideDie s k sd) (sideDie s (out / 2) (Side.ofIdx (out % 2))) fail1 fail2 fl s
  (r.1, if fl.cls = 0 && r.1.cls ≠ 0 then countClass k sd.dirIn.idx 1 r.2 else r.2)

/-- The side on which a flit of logical link `l` that arrives at end `e` leaves, as the cache of the arrival holds the entry
(R246, R260). -/
def cacheOut (s : State) (cache l e : Nat) : Nat := let x := cacheEnd s cache l (1 - e); spanKey x.link x.side

/-- A flit of a logical link enters from an endpoint span: DRAINING, the VC mask, the torn comparison, then the seam and
the trunk. A flit that is not good can only start in cut-through. -/
def bundleEntry (k : Nat) (sd : Side) (fl : Flit) (cut fail1 fail2 : Bool) (s : State) : State :=
  match cacheLlOf s k sd with
  | none => if fl.cls = 0 then s.bump (R.QST_ORPHAN (sideDie s k sd)) else s
  | some (l, e) =>
    let cache := sideCluster s k sd
    let s := if fl.cls = 0 then countIn l e s else s
    if (s.ll l).state = llDraining || (fl.cls = 0 && !bit (cacheWord s cache l 2) (flitVc fl.bytes)) then
      (if fl.cls = 0 then invalDrop l s else s)
    else if torn s cache l e then (if fl.cls = 0 then tornDrop l s else s)
    else
      let out := cacheOut s cache l e
      let r := crossSeam k sd out fail1 fail2 fl s
      trunkEnter (llFlow l e) out r.1 cut r.2

/-- A flit of a link with a transit FIFO: across the seam where the link's sides lie on two dies, discarded while its leaving
span retrains (R156), else on to darning and the FIFO. -/
def fifoEntry (k : Nat) (sd : Side) (fl : Flit) (fail1 fail2 : Bool) (s : State) : State :=
  let r := crossSeam k sd (spanKey k sd.other) fail1 fail2 fl s
  if spanRetraining r.2 k sd.other then r.2.bump (R.TRN_DROP_drop k) else fifoArrive (linkFlow k sd.dirIn) r.1 r.2

def endpointArrive (k : Nat) (sd : Side) (fl : Flit) (cut fail1 fail2 : Bool) (s : State) : State :=
  let d := sd.dirIn.idx
  if fl.cls = 0 && flitType fl.bytes = 15 then s.count (R.TYPEF k d)
  else
    let s := if fl.cls = 0 && flitWord fl.bytes ≠ 0 then s.count (R.LLW_NZ k d) else s
    if modeOf s k = mBundle then bundleEntry k sd fl cut fail1 fail2 s
    else if isTrunkMode (modeOf s k) then
      let r := crossSeam k sd (spanKey k sd.other) fail1 fail2 fl s
      trunkEntry k sd r.1 cut r.2
    else fifoEntry k sd fl fail1 fail2 s

/-! ## Arrival from a trunk (R219, R245, R250, R263) -/

/-- An accepted flit with which the device is done at the trunk. -/
def acceptDone (t : Nat) (s : State) : State := trunkAccepted t (trunkExpect t s)

/-- A good flit in sequence crosses the seam where its leaving side lies on the other die; one that fails is replayed as a
damaged one. -/
def trunkCross (t f out k : Nat) (sd : Side) (fl : Flit) (fail1 fail2 : Bool) (s : State) : State :=
  let r := crossSeam k sd out fail1 fail2 fl s
  if r.1.cls = 0 then arrivalCustody t f out fl r.2 else postNak t r.2

/-- A good flit in sequence on a bundle trunk. -/
def bundleArrive (t k : Nat) (sd : Side) (fl : Flit) (fail1 fail2 : Bool) (s : State) : State :=
  let l := wordLl (flitWord fl.bytes)
  let cache := 16 + (t - 1024)
  match if llActive s l then cacheEndAt s cache l k sd else none with
  | none => acceptDone t (countCal t R.CAL_MISC_unknown s)
  | some e =>
    let s := countIn l e s
    if torn s cache l e then tornDrop l s
    else if (s.ll l).state = llDraining || !bit (cacheWord s cache l 2) (flitVc fl.bytes) then acceptDone t (invalDrop l s)
    else trunkCross t (llFlow l e) (cacheOut s cache l e) k sd fl fail1 fail2 s

/-- A good flit with the number expected. -/
def inSequence (t k : Nat) (sd : Side) (fl : Flit) (fail1 fail2 : Bool) (s : State) : State :=
  if flitType fl.bytes = 15 then
    (if t < 1024 then acceptDone t s else controlFlit t fl.bytes (trunkExpect t s))
  else if 1024 ≤ t then bundleArrive t k sd fl fail1 fail2 s
  else if !bit (flowVcMask s (linkFlow k sd.dirIn)) (flitVc fl.bytes) then acceptDone t (s.count (R.DUP_xlp t))
  else trunkCross t (linkFlow k sd.dirIn) (spanKey k sd.other) k sd fl fail1 fail2 s

/-- The table of R219, row by row. -/
def trunkArrive (k : Nat) (sd : Side) (fl : Flit) (fail1 fail2 : Bool) (s : State) : State :=
  let t := trunkKey s k sd
  let q := wordSpan (flitWord fl.bytes)
  let e := (s.trunk t).expect
  if fl.cls = 2 then s
  else if fl.cls ≠ 0 then postNak t s
  else if q ≠ e && isAhead16 q e then postNak t s
  else if q ≠ e then postDrnAck t (countTrunk t R.DUP_span R.CAL_DUP_span s)
  else inSequence t k sd fl fail1 fail2 s

/-- A side takes the flits it hears: its span is UP, and no clock event of its RX ends' direction is in progress, during which
they are lost (R96). -/
def takesFlits (s : State) (k : Nat) (sd : Side) : Bool :=
  spanUp s k sd && !(sideClusters s k sd).any fun c => let x := s.ck c sd.dirIn; x.switchFrom.isSome || x.borrowing

/-- A flit arrives on a side that carries traffic, in these slices. -/
def flitArrive (k : Nat) (sd : Side) (sl : List Slice) (cut fail1 fail2 : Bool) (s : State) : State :=
  let w := sideWidth s k sd
  let cls := arrivalClass w sl
  let fl : Flit := { bytes := arrivedBytes w sl, cls := if mapMixed s k sd then 1 else cls }
  let s := countClass k sd.dirIn.idx cls s
  if isTrunkSide s k sd then trunkArrive k sd fl fail1 fail2 s else endpointArrive k sd fl cut fail1 fail2 s

/-- The lanes of a side hear the slices of a flit (R167). `act` takes them where a flit starts with them. -/
def flitHeard (k : Nat) (sd : Side) (slices : List (List Nat)) (act : List Slice → State → State) (s : State) : State :=
  let sl := receivedSlices s k sd slices
  let t := slicesHeard k sd slices s
  if takesFlits s k sd && flitStarts sl then act sl t else t

/-- FLIT_RECEIVE (R167). `slices` are the codes of the lanes' slices in the order of the map, `cut` says that the flit starts
in cut-through where R218 and R247 let it, `fail1` and `fail2` that the seam's first and second try fail. -/
def execFlitReceive (k : Nat) (sd : Side) (slices : List (List Nat)) (cut fail1 fail2 : Bool) (s : State) :
    Host.Outcome State Fault Refusal :=
  onUnit (k < linksOf s) (if sideLive s k sd then
    flitHeard k sd slices (fun sl s => flitArrive k sd sl cut fail1 fail2 s) s else s)

/-- CONTROL_FLIT_RECEIVE (R250): a good control flit arrives; R219 judges it first. -/
def execControlFlitReceive (k : Nat) (sd : Side) (slices : List (List Nat)) (s : State) : Host.Outcome State Fault Refusal :=
  onUnit (k < linksOf s) (if sideLive s k sd then
    flitHeard k sd slices (fun sl s =>
      let w := sideWidth s k sd
      if arrivalClass w sl = 0 && flitType (arrivedBytes w sl) = 15 then flitArrive k sd sl false false false s else s) s
    else s)

/-! ## Ordered sets received (R173, R174) -/

/-- The flow that leaves toward an endpoint side learns its ACK set: darning observes it, its XOFF map stops new flits. -/
def ackToFlow (f : Nat) (a : AckSet) (s : State) : State := darnObserve f a (s.modFlow f fun v => { v with xoff := a.map })

/-- An ACK set is passed on to the other side, across the seam where that lies on the other die. -/
def ackForward (k : Nat) (sd : Side) (a : AckSet) (fail1 fail2 : Bool) (s : State) : State :=
  let src := sideDie s k sd
  if src = sideDie s k sd.other then postAck k sd.other a s else
  match seamSend src fail1 fail2 s with
  | (true, s) => postAck k sd.other a s
  | (false, s) => s

/-- An accepted ACK set on a side of a link in UP. -/
def ackArrive (k : Nat) (sd : Side) (a : AckSet) (fail1 fail2 : Bool) (s : State) : State :=
  let f := linkFlow k sd.dirOut
  let m := modeOf s k
  if m = mBundle then
    if isTrunkSide s k sd then countCal (trunkKey s k sd) R.CAL_MISC_rejects s
    else match llOfSpan s k sd with
    | some (l, e) => ackToFlow (llFlow l (1 - e)) a s
    | none => s
  else if isTrunkMode m then
    if isTrunkSide s k sd then (s.modFlow f fun v => { v with xoff := a.map }).wr (R.XOFF_TIN_map k) a.map
    else (ackToFlow f a s).wr (R.XOFF_EP_map k) a.map
  else ackForward k sd a fail1 fail2 (darnObserve f a s)

/-- ACK_SET_RECEIVE (R174). -/
def execAckSetReceive (k : Nat) (sd : Side) (heard : List Heard) (fail1 fail2 : Bool) (s : State) :
    Host.Outcome State Fault Refusal :=
  onUnit (k < linksOf s) (if !sideLive s k sd then s else
    match setArrives readAck k sd heard s with
    | (some a, s) => if spanUp s k sd then ackArrive k sd a fail1 fail2 s else s
    | (none, s) => s)

/-- IDL_RECEIVE (R173). -/
def execIdlReceive (k : Nat) (sd : Side) (heard : List Heard) (s : State) : Host.Outcome State Fault Refusal :=
  onUnit (k < linksOf s) (if sideLive s k sd then (setArrives readIdl k sd heard s).2 else s)

/-- EIE_RECEIVE (R71, R173): the side expects an idle. -/
def execEieReceive (k : Nat) (sd : Side) (heard : List Heard) (s : State) : Host.Outcome State Fault Refusal :=
  onUnit (k < linksOf s) (if !sideLive s k sd then s else
    match setArrives readEie k sd heard s with
    | (some _, s) => s.putSide k sd { s.side k sd with lastEie := some s.clock }
    | (none, s) => s)

/-! ## Skip sets and the elastic buffer (R90-R93) -/

/-- K28.0 to delete and to add in a set of `n` when the reference lane's fill reads `fill` (R91, R92). -/
def ebAdjust (recentre : Bool) (n fill : Nat) : Nat × Nat :=
  if recentre then
    (if 16 < fill then (min (fill - 16) (n - 1), 0) else (0, min (16 - fill) (7 - n)))
  else if 18 ≤ fill then (min (min (fill - 16) 3) (n - 1), 0)
  else if fill ≤ 14 then (0, min (min (16 - fill) 3) (7 - n))
  else (0, 0)

/-- The reference lane of a side: the lowest in-service position. -/
def refLane (s : State) (k : Nat) (sd : Side) : Option Nat := (endLanes s k sd).find? fun n => isLocked s n sd

/-- The elastic buffers of a side take a SKP set of `n`; the number of K28.0 it goes on with. -/
def ebTake (k : Nat) (sd : Side) (n fill : Nat) (s : State) : Nat × State :=
  match refLane s k sd with
  | none => (n, s)
  | some r =>
    let d := sd.dirIn
    let cs := (sideClusters s k sd).filter fun c => hasEb s c d
    if !endEb s r sd then (n, s) else
    let on := (s.rxe r sd).recentre && !(15 ≤ fill && fill ≤ 17)
    let m := ebAdjust on n fill
    let s := (endLanes s k sd).foldl (fun s l =>
      let x := s.rxe l sd
      s.putRx l sd { x with recentre := on, fill := (if l = r then fill else x.fill) + m.2 - m.1 }) s
    let s := cs.foldl (fun s c =>
      ((s.countBy (R.SKP_del c d.idx) m.1).countBy (R.SKP_add c d.idx) m.2).wr (R.EB_STAT_fill c d.idx) (min fill 32)) s
    (n + m.2 - m.1, s)

/-- The answer to dense-skip requests and releases: two intervals in a row of at most, or more than, 1,024 symbols (R93). -/
def denseSeen (k : Nat) (sd : Side) (interval : Nat) (s : State) : State :=
  let x := s.side k sd
  let x := if interval ≤ 1024 then { x with denseRun := min 2 (x.denseRun + 1), sparseRun := 0 }
    else { x with denseRun := 0, sparseRun := min 2 (x.sparseRun + 1) }
  (sideClusters s k sd).foldl (fun s c =>
    let d := sd.dirIn
    let spans := denseSpans s c d
    let dense := spans.all fun p => 2 ≤ (s.side p.1 p.2).denseRun
    let sparse := spans.all fun p => 2 ≤ (s.side p.1 p.2).sparseRun
    let s := s.wrB (R.CK_STAT_dense_rx c d.idx) dense
    let y := s.ck c d
    if (y.denseOpen = 1 && dense) || (y.denseOpen = 2 && sparse) then s.putCk c d { y with denseOpen := 0 } else s)
    (s.putSide k sd x)

/-- An accepted SKP set of `n` K28.0. -/
def skpArrive (k : Nat) (sd : Side) (n fill interval : Nat) (s : State) : State :=
  let r := ebTake k sd n fill s
  let s := denseSeen k sd interval r.2
  let m := modeOf s k
  if isSameLanes m && m ≠ mTransparent && spanUp s k sd && spanUp s k sd.other then
    let x := s.side k sd.other
    s.putSide k sd.other { x with skpFwd := x.skpFwd ++ [{ n := r.1, entered := (s.flow (linkFlow k sd.dirIn)).entered, arr := s.freeCtr }] }
  else s

/-- SKP_RECEIVE (R91): the copies hold the number of K28.0, `fill` is the reading of the reference lane's buffer, `interval`
the symbols since the start of the SKP set before. -/
def execSkpReceive (k : Nat) (sd : Side) (heard : List Heard) (fill interval : Nat) (s : State) :
    Host.Outcome State Fault Refusal :=
  onUnit (k < linksOf s) (if !sideLive s k sd then s else
    match setArrives readSkp k sd heard s with
    | (some n, s) => if 1 ≤ n && n ≤ 7 then skpArrive k sd n fill interval s else s
    | (none, s) => s)

/-- A far-end loop sends back what the end receives, through an elastic buffer (R385). -/
def farLoop (s : State) (n : Nat) (sd : Side) : Bool :=
  s.on (R.LB_CFG_active (lanePage n)) && s.rd (R.LB_CFG_loop (lanePage n)) = 3 && s.rd (R.LB_CFG_dir (lanePage n)) = sd.idx

/-- EB_SLIP (R92): the buffer of an end reaches 32 or 0 at symbol `i` of the slice or set that is passing. Counted; the side
recentres at the SKP sets that follow. -/
def execEbSlip (e : LaneEnd) (full : Bool) (pos : Nat) (s : State) : Host.Outcome State Fault Refusal :=
  onUnit (lanePresent s e.n) (
    let far := farLoop s e.n e.sd
    if clusterStopped s (laneCluster e.n) || (!far && (!endEb s e.n e.sd || !isLocked s e.n e.sd)) then s else
    let s := s.putRx e.n e.sd { s.rxe e.n e.sd with fill := if full then 32 else 0, recentre := true, slip := some (full, pos) }
    let s := s.count (R.EB_ERR (laneCluster e.n) e.sd.dirIn.idx)
    let s := if far then s.count (R.LB_EB (lanePage e.n)) else s
    match endUse s e.n e.sd with
    | some (k, _) => (endLanes s k e.sd).foldl (fun s l => s.putRx l e.sd { s.rxe l e.sd with recentre := true }) s
    | none => s)

/-- SKP_DUE (R88). -/
def execSkpDue (k : Nat) (sd : Side) (s : State) : Host.Outcome State Fault Refusal :=
  onUnit (k < linksOf s) (if sideLive s k sd && (spanUp s k sd || sendsTrn (spanState s k sd)) then
    s.putSide k sd { s.side k sd with skpCount := max (s.side k sd).skpCount (skpN s k sd - 256) } else s)

/-! ## Deskew (R86, R87) -/

/-- The skew of a lane is measured: in training, or for an end that a swap brings in; again after four misses. A skew above
127 in training is a deskew fault; one measured again in service above it is not applied, and the old skew stays (DESIGN
CHOICE: R87 does not say; log 224). -/
def deskew (n : Nat) (sd : Side) (skew : Nat) (s : State) : State :=
  let c := laneCluster n
  let valid := R.DSKW_valid c (lanePos n) sd.idx
  let field := R.DSKW_skew c (lanePos n) sd.idx
  if s.on valid then
    let x := s.rxe n sd
    if !x.remeasure then s else
    let s := s.putRx n sd { x with misses := 0, remeasure := false }
    if 127 < skew then s else s.wr field skew
  else if skew ≤ 127 then
    let s := (s.wr valid 1).wr field skew
    match endUse s n sd with
    | some (k, _) => qualifyCheck k sd s
    | none => s
  else match endUse s n sd with
    | some (k, _) => if spanState s k sd = spAcquire then linkDown k ftDeskew false s else s
    | none => s

/-- DESKEW_REMEASURE (R87). -/
def execDeskewRemeasure (n : Nat) (sd : Side) (skew : Nat) (s : State) : Host.Outcome State Fault Refusal :=
  onUnit (lanePresent s n) (if isLocked s n sd && !clusterStopped s (laneCluster n) then deskew n sd skew s else s)

/-! ## The scheduler's turn (R145, R172) -/

/-- A READY with PASS has been sent at the current rung: the group may move on (R144, R151). -/
def passSends (k : Nat) (sd : Side) (t : TrnSet) (s : State) : State :=
  if t.kind = trnREADY && bit t.flags 4 && trainingNow s k sd && t.cur = spanRung s k sd && (s.span k sd).passes then
    armCheck k (groupStep k sd (s.modSpan k sd fun x => { x with passSent := true }))
  else s

/-- What the end of an item sets going: TX ends go idle after EIE; the accept of a followed step, and the last set before a
SWITCH, are followed by EIE. -/
def itemEnds (k : Nat) (sd : Side) (i : Item) (s : State) : State :=
  match i with
  | .eie => detectCheck k sd (linkClocks k ((sideIdle k sd s).modSpan k sd fun x => { x with idleFrom := s.clock }))
  | .trn t =>
    if spanState s k sd = spStep && t.kind = trnRATEACK && t.value = 0 && t.target = (s.span k sd).toRung && !leads s k sd then
      sideEie k sd (switchTo k sd t.target s)
    else if spanState s k sd = spSwitch && (s.side k sd).trnDue = [] then sideEie k sd s
    else passSends k sd t s
  | _ => s

/-- The lanes that have left a side send their EIE set and fall idle; directions that nothing else uses become idle, and a
span that waits for their ends in DETECT goes on. -/
def leaveSend (k : Nat) (sd : Side) (s : State) : State :=
  let l := (s.side k sd).leaving
  if l = [] then s else
  let s := l.foldl (eieRest sd) (s.putSide k sd { s.side k sd with leaving := [] })
  ((l.map laneCluster).eraseDups).foldl (fun s c =>
    (spansOfCluster s c).foldl (fun s p => detectCheck p.1 p.2 s) (idleClocks c s)) s

/-- The TX ends of a side have been squelched by a borrow. -/
def squelched (s : State) (k : Nat) (sd : Side) : Bool := (endLanes s k sd).any fun n => (s.txe n sd).squelch

/-- Squelched TX ends resume (R98): with COM, an IDL set first where the side carries traffic; flits that were held may follow
(R99). -/
def txResume (k : Nat) (sd : Side) (s : State) : State :=
  syncFreeze k sd ((endLanes s k sd).foldl (fun s n => s.putTx n sd { s.txe n sd with squelch := false }) s)

/-- SEND_NEXT (R172): `r1` and `r2` are what the reads of a slot and of its mirror find. -/
def execSendNext (k : Nat) (sd : Side) (r1 r2 : EccRead) (s : State) : Host.Outcome State Fault Refusal :=
  onUnit (k < linksOf s) (
    if sideHeld s k sd then s else
    let s := leaveSend k sd s
    if !sideUsed s k sd then s else
    let s := itemEnds k sd (s.side k sd).cur (itemDone k sd s)
    if squelched s k sd then
      let s := txResume k sd s
      if spanUp s k sd then itemStart k sd .idl s else chooseItem k sd r1 r2 s
    else chooseItem k sd r1 r2 s)

/-! ## Counters (R182) -/

def fltCounters (k : Nat) : List Fld :=
  [0, 1].flatMap fun d => [R.POISON k d, R.BADSYM k d, R.BADIN k d, R.BADPAR k d, R.OVR k d, R.ACK_SUP k d, R.LLW_NZ k d,
    R.TYPEF k d]
def fltCounters64 (k : Nat) : List (Fld × Fld) := [0, 1].map fun d => (R.GOOD_LO k d, R.GOOD_HI k d)

/-- FLT_SNAP (R182): the read answers the snapshot number. -/
def execFltSnap (k : Nat) (s : State) : Host.Outcome State Fault Refusal :=
  .next (ifHas (k < linksOf s) (0x40 + k) (s.answerWord 0)
    (((State.latchAll64 (fltCounters64 k) (State.latchAll (fltCounters k) s)).bumpWrap (R.FLT_SNAP_snap_no k)).answerWord
      (s.rd (R.FLT_SNAP_snap_no k))))

/-- FLT_CLR (R182). -/
def execFltClr (k : Nat) (s : State) : Host.Outcome State Fault Refusal :=
  .next (ifHas (k < linksOf s) (0x40 + k) s
    (State.zeroLive ((fltCounters64 k).map Prod.fst) (State.zeroLive (fltCounters k) s)))

end Sys2Proof.Machine
end

