-- ==== Sys2Proof/Machine/Pricking.lean ====
section
/-!
DEFINITION. Commands of the pricking unit (chapter Pricking, R290-R307): submissions, the end of a check, what an applied
configuration changes, proof records and re-checks.
-/

namespace Sys2Proof.Machine

open Sys2Proof

/-! ## Staged and live banks (R290) -/

/-- The banked fields of link `k`: staged, live. -/
def linkBank (k : Nat) : List (Fld × Fld) :=
  [(R.LNK_CFG_mode k, R.LNK_CFG_LIVE_mode k), (R.LNK_CFG_shed k, R.LNK_CFG_LIVE_shed k),
   (R.DARN_CFG_retries k, R.DARN_LIVE_retries k), (R.DARN_CFG_guard k, R.DARN_LIVE_guard k),
   (R.DARN_CFG_en k 0, R.DARN_LIVE_en k 0), (R.DARN_CFG_en k 1, R.DARN_LIVE_en k 1),
   (R.TRK_CFG0_probe_int k, R.TRK_CFG0_LIVE_probe_int k), (R.TRK_CFG0_span_retries k, R.TRK_CFG0_LIVE_span_retries k),
   (R.TRK_CFG0_guard k, R.TRK_CFG0_LIVE_guard k), (R.TRK_CFG0_trunk_side k, R.TRK_CFG0_LIVE_trunk_side k),
   (R.TRK_CFG1_window k, R.TRK_CFG1_LIVE_window k), (R.TRK_CFG1_queue_ll k, R.TRK_CFG1_LIVE_queue_ll k),
   (R.TRK_CFG2_hwm k, R.TRK_CFG2_LIVE_hwm k), (R.TRK_CFG2_lwm k, R.TRK_CFG2_LIVE_lwm k),
   (R.TRK_VCS_vc_mask k, R.TRK_VCS_LIVE_vc_mask k)] ++
  [0, 1].flatMap fun d =>
    [(R.LNK_CFG_ep k d, R.LNK_CFG_LIVE_ep k d), (R.LNK_CFG_rung k d, R.LNK_CFG_LIVE_rung k d),
     (R.LNK_CFG_width k d, R.LNK_CFG_LIVE_width k d), (R.EP_rep k d, R.EP_LIVE_rep k d), (R.EP_dead k d, R.EP_LIVE_dead k d),
     (R.EP_headroom k d, R.EP_LIVE_headroom k d), (R.SPAN_ack_lat k d, R.SPAN_LIVE_ack_lat k d),
     (R.SPAN_rtt_decl k d, R.SPAN_LIVE_rtt_decl k d), (R.EXT_ext k d, R.EXT_LIVE_ext k d), (R.BUDGET k d, R.BUDGET_LIVE k d),
     (R.SRC_RATE_rate k d, R.SRC_RATE_LIVE_rate k d)]

/-- The banked words of a logical link. -/
def llBank (l : Nat) : List (Fld × Fld) :=
  (List.range 8).map fun j => (R.LLT_W_word (llStagedPage l) j, R.LLT_W_word (llLivePage l) j)

/-- The banked fields of a calendar. -/
def calBank (c : Nat) : List (Fld × Fld) :=
  let f := fun r : Nat → Fld => (r (calStagedPage c), r (calLivePage c))
  [f R.CAL_BIND_en, f R.CAL_BIND_oversub, f R.CAL_BIND_last, f R.CAL_BIND_side, f R.CAL_BIND_link, f R.CAL_TRK0_probe_int,
   f R.CAL_TRK0_span_retries, f R.CAL_TRK0_guard, f R.CAL_TRK1_window] ++ (List.range 256).map fun e => f (R.CAL_ENTRY · e)

/-- The banked fields of a submission: with package scope all, with link scope those of the link (R291). -/
def bankOf (s : State) (origin link : Nat) : List (Fld × Fld) :=
  if origin = 1 then linkBank link
  else (List.range (linksOf s)).flatMap linkBank ++ (List.range (llsOf s)).flatMap llBank ++
    (List.range (calsOf s)).flatMap calBank ++ [(R.PRK_CAP_pcap, R.PRK_CAP_LIVE_pcap)]

/-- Live takes staged. -/
def goLive (ps : List (Fld × Fld)) (s : State) : State := ps.foldl (fun t p => t.wr p.2 (s.rd p.1)) s

/-- REVERT: staged takes live (R291). -/
def goStaged (ps : List (Fld × Fld)) (s : State) : State := ps.foldl (fun t p => t.wr p.1 (s.rd p.2)) s

/-! ## Submissions (R291, R292) -/

/-- PRK_CMD.go: op 0 COMMIT, 1 CHECK, 2 REVERT. Every go clears wdrop (R309). -/
def prkGo (op : Nat) (s : State) : State :=
  let s := (s.wr R.PRK_CMD_op op).wr R.PRK_STAT_wdrop 0
  if s.on R.PRK_CMD_busy || 3 ≤ op then s.wr R.PRK_CMD_refused 1
  else if op = 2 then goStaged (bankOf s 0 0) (s.wr R.PRK_CMD_refused 0)
  else checkBegin 0 0 (op = 1) (s.wr R.PRK_CMD_refused 0)

def execPrkCommit (s : State) : Host.Outcome State Fault Refusal := .next (ifOpen 0xC s (prkGo 0 s))
def execPrkCheck (s : State) : Host.Outcome State Fault Refusal := .next (ifOpen 0xC s (prkGo 1 s))
def execPrkRevert (s : State) : Host.Outcome State Fault Refusal := .next (ifOpen 0xC s (prkGo 2 s))

/-- LNK[k].COMMIT.go. -/
def linkGo (k : Nat) (checkOnly : Bool) (s : State) : State :=
  let s := (s.wrB (R.COMMIT_check_only k) checkOnly).wr R.PRK_STAT_wdrop 0
  if s.on R.PRK_CMD_busy then s.wr (R.COMMIT_refused k) 1
  else checkBegin 1 k checkOnly (s.wr (R.COMMIT_refused k) 0)

def execLnkCommit (k : Nat) (checkOnly : Bool) (s : State) : Host.Outcome State Fault Refusal :=
  .next (ifHas (k < linksOf s) (0x40 + k) s (linkGo k checkOnly s))

/-! ## Proof records (R303) -/

/-- The links whose proof the submission or re-check renews. -/
def provenLinks (s : State) : List Nat := (List.range (linksOf s)).filter fun k => modeOf s k ≠ 0

/-- The status of a link whose check has passed: proved once every span has reached UP since the link was configured, with
a measured round trip on each side; a proved link stays so while spans retrain or are DOWN (DEDUCED; log 93). -/
def proofStatus (k : Nat) (s : State) : State :=
  let measured := (usedSides s k).all fun sd => s.on (R.RTT_valid k sd.idx)
  let proved := (s.link k).everUp && (s.on (R.LNK_PROOF_proved k) || measured)
  ((s.wrB (R.LNK_PROOF_proved k) proved).wrB (R.LNK_PROOF_provisional k) !proved).wr (R.LNK_PROOF_unproved k) 0

/-- What the proof of a side rests on. -/
def proofSide (s : State) (x : List Nat) : State :=
  let k := x.getD 0 0
  let d := x.getD 1 0
  let s := (s.wr (R.LNK_PROOF_rung k d) (x.getD 2 0)).wr (R.PROOF_RTT_rtt k d) (x.getD 3 0)
  s.putLink k (if d = 0 then { s.link k with peerA := x.getD 4 0 = 0 } else { s.link k with peerB := x.getD 4 0 = 0 })

/-- The records of a side on which no proof rests. -/
def proofNone (k d : Nat) (s : State) : State := (s.wr (R.LNK_PROOF_rung k d) 7).wr (R.PROOF_RTT_rtt k d) 0

/-- The records of a link without a mode. -/
def proofClear (k : Nat) (s : State) : State :=
  let s := ((s.wr (R.LNK_PROOF_proved k) 0).wr (R.LNK_PROOF_provisional k) 0).wr (R.LNK_PROOF_unproved k) 0
  [0, 1].foldl (fun s d => s.wr (R.LNK_LAT k d) 0) s

/-- BUF_RSV and pneed follow an accepted COMMIT, at T_apply only (R286, R301). -/
def applyFigures (s : State) : State :=
  (List.range (diesOf s)).foldl (fun t d =>
    (t.wr (R.BUF_RSV_rsv d) (min (dieRes provedView s d) 0xFFFF)).wr (R.PRK_DIE_pneed d) (pNeed provedView s d)) s

/-- LNK_LAT, LNK_RSV and PRK_PWR of the live configuration as proved. A BUNDLE link has no worst-case latency of its own: that is
its logical links' (R296), and LNK_LAT reads 0 (DESIGN CHOICE; log 268). -/
def proofFigures (s : State) : State :=
  let v := provedView
  let s := (List.range (linksOf s)).foldl (fun t k =>
    let t := (t.wr (R.LNK_RSV_d0 k) (linkRes v s 0 k)).wr (R.LNK_RSV_d1 k) (linkRes v s 1 k)
    if modeOf s k = 0 then t
    else if modeOf s k = mBundle then [0, 1].foldl (fun t d => t.wr (R.LNK_LAT k d) 0) t else
    [Dir.ab, Dir.ba].foldl (fun t d => t.wr (R.LNK_LAT k d.idx) (min (ceilDiv (linkLwc v s k d) 850) 0xFFFF)) t) s
  s.wr R.PRK_PWR_est (min (ceilDiv (powerEst v s) 100) 0xFFFF)

/-- The proof records take the values the check used (R303). -/
def proofWrite (s : State) : State :=
  let s := (List.range (linksOf s)).foldl (fun s k =>
    let s := if modeOf s k = 0 then proofClear k s else s
    [Side.a, Side.b].foldl (fun s sd => if sideUsed s k sd then s else proofNone k sd.idx s) s) s
  let s := s.prk.proofs.foldl proofSide s
  proofFigures ((provenLinks s).foldl (fun s k => proofStatus k s) s)

/-! ## The end of an operation (R307) -/

/-- A submission that the device's state ends (R307). -/
def prkState (s : State) : State := prkEnd [2, 0, 0, 0, stateWord s, 0] false s

/-! ## Re-checks that fail (R304, R305) -/

/-- The links that a verdict names: the link, those of a logical link's ends, a calendar's. -/
def namedLinks (s : State) (kind index : Nat) : List Nat :=
  if kind = 2 then [index]
  else if kind = 3 then [(llEnd s index 0).link, (llEnd s index 1).link].eraseDups
  else if kind = 4 then [s.rd (R.CAL_BIND_link (calLivePage index))] else []

def markUnproved (k : Nat) (s : State) : State :=
  ((s.wr (R.LNK_PROOF_unproved k) 1).wr (R.LNK_PROOF_proved k) 0).wr (R.LNK_PROOF_provisional k) 0

/-- The link has a reservation on a die, of its own or through a logical link. -/
def reservesOn (s : State) (d k : Nat) : Bool :=
  let v : View := checkView 2 0
  0 < linkRes v s d k || (modeOf s k = mBundle && (activeLls s).any fun l =>
    ((llEnd s l 0).link = k || (llEnd s l 1).link = k) && 0 < llRes v s d l)

/-- The order of shedding: descending rank, then descending index. -/
def shedOrder (s : State) (d : Nat) : List Nat :=
  let ks := ((List.range (linksOf s)).filter (reservesOn s d)).reverse
  (List.range 16).reverse.flatMap fun r => ks.filter fun k => s.rd (R.LNK_CFG_LIVE_shed k) = r

/-- A link is fenced by shedding (R305). -/
def shedLink (k : Nat) (s : State) : State :=
  (linkHalt k (s.wr (R.LNK_PROOF_fenced k) 1)).bump R.PRK_RECHK_shed

/-- Links are shed until the die's reservation fits its usable slots. -/
def shedDie (d : Nat) (s : State) : State :=
  (shedOrder s d).foldl (fun s k => if dieRes (checkView 2 0) s d ≤ s.rd (R.BUF_USABLE_usable d) then s else shedLink k s) s

/-- A re-check that fails (R304, R305). -/
def recheckFails (r : List Nat) (s : State) : State :=
  if r.getD 0 0 = 12 then proofFigures (shedDie (r.getD 3 0) s)
  else (namedLinks s (r.getD 1 0) (r.getD 3 0)).foldl (fun s k => markUnproved k s) s

/-! ## CHECK_END (R301, R307) -/

/-- T_apply: the first whole microsecond that begins at least 2 µs after the check ends. -/
def applyTime (fab : Nat) : Nat := (fab + 2999) / 1000 * 1000

/-- The check has ended. -/
def checkEnd (s : State) : State :=
  if !s.prk.busy || s.prk.applyAt.isSome then s else
  let s := s.wr R.PRK_TIME_us (min ((s.clock - s.prk.startedAt) / 1000) 0xFFFF)
  if !inService s then prkState s
  else
    let r := s.prk.verdict
    if s.prk.origin = 2 then
      (if r.getD 0 0 = 1 then prkEnd r false (proofWrite s) else prkEnd r false (recheckFails r s))
    else if r.getD 0 0 ≠ 1 || s.prk.checkOnly then prkEnd r false s
    else { s with prk := { s.prk with applyAt := some (applyTime s.fab) } }

/-- CHECK_END (R301). -/
def execCheckEnd (s : State) : Host.Outcome State Fault Refusal := .next (checkEnd s)

/-! ## Applying (R302) -/

/-- A setting of link `k` whose change takes its spans down (R302). -/
def hardChange (s : State) (k : Nat) : Bool :=
  s.rd (R.LNK_CFG_mode k) ≠ s.rd (R.LNK_CFG_LIVE_mode k) || s.rd (R.TRK_CFG0_trunk_side k) ≠ s.rd (R.TRK_CFG0_LIVE_trunk_side k) ||
  [0, 1].any fun d =>
    s.rd (R.LNK_CFG_width k d) ≠ s.rd (R.LNK_CFG_LIVE_width k d) || s.rd (R.LNK_CFG_rung k d) ≠ s.rd (R.LNK_CFG_LIVE_rung k d) ||
    s.rd (R.LNK_CFG_ep k d) ≠ s.rd (R.LNK_CFG_LIVE_ep k d)

/-- A side gives up its lanes: those that send have yet to send EIE (R65), which SEND_NEXT of the side then does. -/
def sideGiveUp (k : Nat) (sd : Side) (s : State) : State :=
  let s := lanesLeave k sd (endLanes s k sd) s
  s.putSide k sd { leaving := (s.side k sd).leaving }

/-- A link's mode becomes 0: EIE, IDLE, copies and queues freed. -/
def linkRemove (k : Nat) (s : State) : State :=
  let sides := usedSides s k
  sides.foldl (fun s sd => sideGiveUp k sd s) (linkHalt k s)

/-- A configured link changes what it is: its spans enter DOWN with fault HOST, those of a link that leaves TRANSPARENT too; a
side that the new configuration leaves unused, or that becomes or stays TRANSPARENT, which has no sequencer (R135), goes on to
IDLE. -/
def linkRestart (k : Nat) (s : State) : State :=
  let sides := usedSides s k
  let s := linkDown k ftHost false s
  let s := s.putLink k { s.link k with everUp := false }
  let s := if modeOf s k = mTransparent then
      linkClocks k (sides.foldl (fun s sd => spanDown k sd ftHost false s) (s.putLink k { s.link k with running := false }))
    else s
  sides.foldl (fun s sd =>
    let s := if s.rd (R.LNK_CFG_width k sd.idx) = s.rd (R.LNK_CFG_LIVE_width k sd.idx) then s else sideGiveUp k sd s
    if s.rd (R.LNK_CFG_width k sd.idx) = 7 || s.rd (R.LNK_CFG_mode k) = mTransparent then spanHold k sd s else s) s

/-- What happens to link `k` while the old configuration is still live. -/
def linkBefore (k : Nat) (s : State) : State :=
  if modeOf s k = 0 then s
  else if s.rd (R.LNK_CFG_mode k) = 0 then linkRemove k s
  else if hardChange s k then linkRestart k s else s

/-- Is the calendar bound to another side after the change? -/
def rebinds (s : State) (c : Nat) : Bool :=
  let f := fun p => (s.rd (R.CAL_BIND_en p), s.rd (R.CAL_BIND_link p), s.rd (R.CAL_BIND_side p))
  f (calStagedPage c) ≠ f (calLivePage c)

def calBefore (c : Nat) (s : State) : State :=
  if rebinds s c && s.on (R.CAL_BIND_en (calLivePage c)) then
    let a := trunkAt s (1024 + c)
    stopTrunk a.1 a.2 s
  else s

/-- After the change, the trunk of a calendar that is newly bound starts, where its span is UP. -/
def calAfter (c : Nat) (s : State) : State :=
  let a := trunkAt s (1024 + c)
  if s.on (R.CAL_BIND_en (calLivePage c)) && spanUp s a.1 a.2 then startTrunk a.1 a.2 s else s

/-- The caches that hold entry `l` as it was: the clusters of the sides of its ends, the calendars bound to them, and the
calendars whose entries name it (R260). -/
def llCaches (s : State) (l : Nat) : List Nat :=
  let ends := [llEnd s l 0, llEnd s l 1]
  ((ends.map fun x : LlEnd => sideCluster s x.link x.side) ++ (ends.filterMap fun x : LlEnd => calOf s x.link x.side).map (16 + ·) ++
    (((List.range (calsOf s)).filter fun c => s.on (R.CAL_BIND_en (calLivePage c)) &&
      (List.range (calLast s c + 1)).any fun e => entUsed (calEntry s c e) && entLl (calEntry s c e) = l).map (16 + ·))).eraseDups

/-- A COMMIT makes a direction darned while the links of both its sides are in UP, or not darned (R205). -/
def darnCommit (old : State) (f : Nat) (s : State) : State :=
  let o := flowOut s f
  if flowDarned old f && !flowDarned s f && (s.flow f).dstate ≠ dOff then undarnFlow f s
  else if !flowDarned old f && flowDarned s f && spanUp s o.1 o.2 then startDarn f s else s

/-- The directions of a logical link that becomes valid start where the side they leave on is in UP; the others start when its
link enters UP. -/
def llStart (l : Nat) (s : State) : State :=
  [llFlow l 0, llFlow l 1].foldl (fun s f => let o := flowOut s f; if spanUp s o.1 o.2 then startFlow f s else s) s

/-- The directions of a logical link whose ends have moved. -/
def llDarning (old : State) (l : Nat) (s : State) : State :=
  [llFlow l 0, llFlow l 1].foldl (fun s f => darnCommit old f s) s

/-- A DRAINING entry becomes valid again with its mapping as it was: the change reaches every cache at once (R260), and none that
holds that mapping is left with the gen before. -/
def revalid (x : LlSt) : LlSt :=
  let g := (x.gen + 1) % 16
  { x with gen := g, stale := x.stale.map fun y => if y.gen = x.gen then { y with gen := g } else y }

/-- The machine of R261 at a COMMIT; `old` is the state before the live bank changed. A cache that has not refreshed since an
earlier change keeps what it holds. -/
def llCommit (old : State) (l : Nat) (s : State) : State :=
  let x := s.ll l
  let valid := bit (llWord s (llLivePage l) 0) 31
  let w0 := llWord old (llLivePage l) 0
  let w1 := llWord old (llLivePage l) 1
  let moved : Bool := mapFields w0 w1 ≠ mapFields (llWord s (llLivePage l) 0) (llWord s (llLivePage l) 1)
  let words := (List.range 8).map (llWord old (llLivePage l))
  let changed : Bool := words ≠ (List.range 8).map (llWord s (llLivePage l))
  let keep := fun x : LlSt => if !changed then x else
    { x with stale := x.stale ++ (((llCaches old l ++ llCaches s l).eraseDups.filter fun c => !x.stale.any fun y => y.cache = c).map
      fun c => { cache := c, gen := x.gen, words := words : StaleLl }) }
  let tear := fun x : LlSt => { keep x with gen := (x.gen + 1) % 16, tornUntil := some (s.fab + 2000) }
  if x.state = llInvalid then
    if valid then llStart l
      (s.putLl l { x with state := llValid, gen := (x.gen + 1) % 16, stale := [], far0 := none, far1 := none }) else s
  else if x.state = llValid then
    if !valid then s.putLl l (keep { x with state := llDraining, drainFrom := some s.fab })
    else if moved then llDarning old l (s.putLl l (tear x)) else s.putLl l (keep x)
  else if valid then
    let y : LlSt := { x with state := llValid, drainFrom := none }
    if moved then llDarning old l (s.putLl l (tear y)) else s.putLl l (revalid (keep y))
  else s

/-- A direction that becomes darned, or not darned, while its link runs (R205); a formerly fenced or newly configured link
trains (R302, R306). -/
def linkAfter (old : State) (k : Nat) (s : State) : State :=
  let s := if modeOf s k = modeOf old k && !hardChange old k then
      [Dir.ab, Dir.ba].foldl (fun s d =>
        let f := linkFlow k d
        if modeOf s k = mBundle then s else darnCommit old f s) s
    else s
  if modeOf s k = 0 then s.putLink k {} else
  if modeOf s k = mTransparent && modeOf old k = mTransparent && !hardChange old k && !old.on (R.LNK_PROOF_fenced k) then s
  else linkTrain false k s

/-- The live banks switch (R301, R302, R306); gated blocks that they use run again (R348); a bobbin that no side needs any longer is released (R316). -/
def applyConfig (s : State) : State :=
  let ks := if s.prk.origin = 1 then [s.prk.link] else List.range (linksOf s)
  let all := s.prk.origin ≠ 1
  let ls := if all then List.range (llsOf s) else []
  let cs := if all then (List.range (calsOf s)).filter (rebinds s) else []
  let bank := bankOf s s.prk.origin s.prk.link
  let old := s
  let s := ks.foldl (fun s k => linkBefore k s) s
  let s := cs.foldl (fun s c => calBefore c s) s
  let s := loopsUsed (ungateUsed (goLive bank s))
  let s := ls.foldl (fun s l => llCommit old l s) s
  let s := if all then (List.range (calsOf s)).foldl (fun s c => s.modTrunk (1024 + c) fun x =>
      { x with curEnt := if calWord old c x.ptr = calEntry s c x.ptr then none else some (calWord old c x.ptr) }) s else s
  let s := cs.foldl (fun s c => calAfter c s) s
  let freed := (List.range (linksOf s)).filter fun k => s.on (R.LNK_PROOF_fenced k)
  let s := freed.foldl (fun s k => s.wr (R.LNK_PROOF_fenced k) 0) s
  let s := (List.range (clustersOf s)).foldl (fun s c => bobRelease c (bobFinish c s)) s
  (ks ++ freed).eraseDups.foldl (fun s k => linkAfter old k s) s

/-- T_apply has come (R301, R307). -/
def applyNow (s : State) : State :=
  match s.prk.applyAt with
  | none => s
  | some t =>
    if s.fab < t then s
    else if !inService s then prkState s
    else
      let p := s.prk
      let s := applyConfig s
      let s := prkEnd p.verdict true (applyFigures (proofWrite { s with prk := { p with heldRecheck := s.prk.heldRecheck } }))
      { s with sec := { s.sec with digestDue := true, applyStat := rawWord s 0xC 0x44 } }

/-- T_APPLY (R301). -/
def execTApply (s : State) : Host.Outcome State Fault Refusal := .next (applyNow s)

/-- RECHECK_START (R304). -/
def execRecheckStart (trigger : Nat) (s : State) : Host.Outcome State Fault Refusal := .next (startRecheck trigger s)

end Sys2Proof.Machine
end

