-- ==== Sys2Proof/Machine/Identity.lean ====
section
/-!
DEFINITION. Identity and attestation (chapter Host ports, rings, the selvedge channel and identity, R457-R464): key
commands, reports and the pricking digest.
-/

namespace Sys2Proof.Machine

open Sys2Proof

/-! ## Keys (R461, R464) -/

/-- The key bytes of KEY_DATA[0] to KEY_DATA[n - 1]. -/
def keyBytes (s : State) (n : Nat) : List Nat := (List.range n).flatMap fun i => beBytes 4 (s.rd (R.KEY_DATA_data i))

def clearKeyData (s : State) : State := (List.range 24).foldl (fun s i => s.wr (R.KEY_DATA_data i) 0) s

/-- Store a session key, or drop it; both counters of the slot are zeroed when it is loaded (R455). -/
def setSession (slot : Nat) (key : Option (List Nat)) (s : State) : State :=
  let others := s.sel.keys.filter fun p => p.1 ≠ slot
  let old := s.rd R.KEY_STAT_session
  match key with
  | some k =>
    let s := { s with sel := { s.sel with keys := others ++ [(slot, k)], rsp := s.sel.rsp.filter fun p => p.1 ≠ slot } }
    (s.putLive (R.SEL_CTR_LO_ctr slot) 0).wr R.KEY_STAT_session (old ||| 2 ^ slot)
  | none => { s with sel := { s.sel with keys := others } }.wr R.KEY_STAT_session (if bit old slot then old - 2 ^ slot else old)

/-- Why a KEY_CMD go is refused (R464). A frame is checked within one command, so no request is ever under check when LOAD
or CLEAR comes. -/
def keyRefused (s : State) (op slot : Nat) : Bool :=
  let enrolled := s.rd R.KEY_STAT_enrolled
  let revoked := s.rd R.KEY_STAT_revoked
  let held := !inRun s || s.on R.BT_STAT_loading
  match op with
  | 0 | 1 => false
  | 2 => bit enrolled slot || held
  | 3 => !bit enrolled slot || bit revoked slot || held ||
      !(List.range 4).any (fun t => t ≠ slot && bit enrolled t && !bit revoked t)
  | _ => true

/-- ENROLL writes a customer slot once. -/
def enroll (slot : Nat) (s : State) : State :=
  let v := s.fuse.enrolled ||| 2 ^ slot
  { s with fuse := { s.fuse with enrolled := v, custKeys := s.fuse.custKeys ++ [(slot, keyBytes s 24)] } }.wr R.KEY_STAT_enrolled v

/-- REVOKE sets the revoked bit of a slot. -/
def revoke (slot : Nat) (s : State) : State :=
  let v := s.fuse.revoked ||| 2 ^ slot
  { s with fuse := { s.fuse with revoked := v } }.wr R.KEY_STAT_revoked v

/-- A KEY_CMD go; KEY_DATA is cleared after every one. An op that does not exist stores nothing. -/
def keyGo (op slot : Nat) (s : State) : State :=
  let slot := slot % 4
  let s := if op < 4 then (s.wr R.KEY_CMD_op op).wr R.KEY_CMD_slot slot else s
  clearKeyData (if keyRefused s op slot then s.wr R.KEY_CMD_refused 1
  else
    let s := s.wr R.KEY_CMD_refused 0
    match op with
    | 0 => setSession slot (some (keyBytes s 12)) s
    | 1 => setSession slot none s
    | 2 => enroll slot s
    | _ => revoke slot s)

def execKeyLoad (slot : Nat) (s : State) : Host.Outcome State Fault Refusal := .next (ifOpen 8 s (keyGo 0 slot s))
def execKeyClear (slot : Nat) (s : State) : Host.Outcome State Fault Refusal := .next (ifOpen 8 s (keyGo 1 slot s))
def execKeyEnroll (slot : Nat) (s : State) : Host.Outcome State Fault Refusal := .next (ifOpen 8 s (keyGo 2 slot s))
def execKeyRevoke (slot : Nat) (s : State) : Host.Outcome State Fault Refusal := .next (ifOpen 8 s (keyGo 3 slot s))

/-! ## Reports (R457-R460) -/

/-- `n` bytes of a list, with zeros after its end. -/
def exactly (n : Nat) (bs : List Nat) : List Nat := (bs ++ List.replicate n 0).take n

/-- The bytes of the digest words of a register array. -/
def digestBytes (f : Nat → Fld) (s : State) : List Nat := (List.range 12).flatMap fun i => beBytes 4 (s.rd (f i))

/-- Bytes 0x000-0x0CF of a report. -/
def reportBody (nonce : List Nat) (s : State) : List Nat :=
  let flags := b2n s.bt.live + 2 * b2n (deviceState s = 4)
  let stat := if s.sec.digestDue then s.sec.digestStat else rawWord s 0xC 0x44
  beBytes 4 0x4C5A4154 ++ beBytes 2 1 ++ beBytes 2 (partCode s) ++ [ownId s, s.rd R.PART_rev] ++ beBytes 2 flags ++
  beBytes 4 s.sec.reports ++ beBytes 8 s.fab ++ exactly 32 nonce ++ digestBytes R.DIG_SAF_digest s ++
  (if s.bt.live then digestBytes R.DIG_BT_digest s else List.replicate 48 0) ++ digestBytes R.DIG_PRK_digest s ++
  beBytes 4 (s.rd R.BT_SERIAL_serial) ++ beBytes 4 stat

/-- A report is made: body and signature (R458). -/
def makeReport (s : State) : State :=
  let s := { s with sec := { s.sec with reports := (s.sec.reports + 1) % 2 ^ 32 } }
  let body := reportBody s.sec.nonce s
  let report := body ++ exactly 96 (Config.ecdsaSign (Config.sha384 body))
  let s := ((List.range 76).zip (beWords 76 report)).foldl (fun s p => s.wr (R.ATT_REPORT_report p.1) p.2) s
  { s with sec := { s.sec with lastNonce := some s.sec.nonce } }.wr R.SEC_STAT_att_valid 1

/-- A generation starts (R460): ATT_CMD.busy reads 1 while it runs. -/
def startReport (nonce : List Nat) (s : State) : State :=
  { s with sec := { s.sec with nonce := nonce } }.wr R.ATT_CMD_busy 1

/-- ATT_CMD go: refused during a generation and while the fuse key path is blocked (R457, R460). -/
def attGo (s : State) : State :=
  if s.on R.ATT_CMD_busy || s.on R.SEC_STAT_fuse_block then s.wr R.ATT_CMD_refused 1
  else startReport ((List.range 8).flatMap fun i => beBytes 4 (s.rd (R.ATT_NONCE_nonce i))) (s.wr R.ATT_CMD_refused 0)

def execAttGenerate (s : State) : Host.Outcome State Fault Refusal := .next (ifOpen 8 s (attGo s))

/-- ATT_GENERATE_DONE (R458, R460). -/
def execAttGenerateDone (s : State) : Host.Outcome State Fault Refusal :=
  .next (if s.on R.ATT_CMD_busy && s.dev.phase != .off then (makeReport s).wr R.ATT_CMD_busy 0 else s)

/-! ## The pricking digest (R459) -/

/-- The live words of the digest, in its order. -/
def digestWords (s : State) : List Nat :=
  let links := (List.range (linksOf s)).flatMap fun k =>
    ((List.range 8).map fun j => rawWord s (0x40 + k) (0x80 + 4 * j)) ++
      [rawWord s (0x40 + k) 0xA04] ++ (List.range 4).map fun j => rawWord s (0x40 + k) (0xB20 + 4 * j)
  let lls := (List.range (llsOf s)).flatMap fun l => (List.range 8).map fun j => llWord s (llLivePage l) j
  let cals := (List.range (calsOf s)).flatMap fun c =>
    let v := calLivePage c
    [rawWord s v 0x80, rawWord s v 0x84, rawWord s v 0x88] ++ (List.range 256).map fun e => s.rd (R.CAL_ENTRY v e)
  rawWord s 0xC 0x58 :: (links ++ lls ++ cals)

/-- PRICKING_DIGEST_DONE: the digest that a T_apply made due. -/
def execPrickingDigestDone (s : State) : Host.Outcome State Fault Refusal :=
  .next (if s.sec.digestDue then
    let s := putDigest R.DIG_PRK_digest (Config.sha384 ((digestWords s).flatMap (beBytes 4))) s
    { s with sec := { s.sec with digestDue := false, digestStat := s.sec.applyStat } }
  else s)

end Sys2Proof.Machine
end

