-- ==== Sys2Proof/Machine/RegRead.lean ====
section
/-!
DEFINITION. What the registers read (chapter Register map, R482-R494): the header, the stored fields, the words that are
views of other state, and the registers behind windows. Reading here has no effect; reads that have one are in
RegisterFile.
-/

namespace Sys2Proof.Machine

open Sys2Proof

/-! ## The common header (R485-R489) -/

/-- The block code of R484. -/
def blockCode : Blk → Nat
  | .glb => 0x01 | .clk => 0x02 | .pwr => 0x03 | .tmp => 0x04 | .int => 0x05 | .intf => 0x06 | .ints => 0x07 | .bst => 0x08
  | .sec => 0x09 | .hst => 0x0A | .pct => 0x0B | .sel => 0x0C | .prk => 0x0D | .map => 0x0E | .fmc => 0x0F | .clu => 0x10
  | .eqa => 0x11 | .rgn => 0x12 | .die => 0x13 | .lnk => 0x14 | .llt => 0x15 | .cal => 0x16 | .qst => 0x17
  | .vLb | .vPre | .vLlStaged | .vLlLive | .vCalStaged | .vCalLive => 0

/-- PAGE_ID (R486). -/
def pageId (p : Nat) : Nat :=
  match Blk.ofPage p with
  | some (b, i) => blockCode b * 2 ^ 24 + i * 2 ^ 16 + p
  | none => 0

/-- The command registers of a block, as offset and place of the busy bit. -/
def busyBits : Blk → List (Nat × Nat)
  | .glb => [(0x54, 18), (0x104, 18)]
  | .clk => [(0x58, 18)]
  | .pwr => [(0x40, 18), (0x50, 18)]
  | .bst => [(0x44, 18)]
  | .sec => [(0x40, 18), (0x48, 18)]
  | .pct => [(0x44, 18)]
  | .prk => [(0x40, 18)]
  | .map => [(0x48, 18)]
  | .fmc => [(0x48, 17), (0x54, 25)]
  | .clu => [(0x50, 17), (0x308, 18)]
  | .eqa => [(0x48, 18), (0x104, 18)]
  | .die => [(0x54, 18)]
  | .lnk => [(0x60, 18), (0x808, 18)]
  | _ => []

/-! ## Status that is a view -/

/-- BST_STAT.next_s (R381): whole seconds to the next turn, rounded up; 0 in START. -/
def nextTurn (s : State) : Nat :=
  let ns := match s.bist.nextAt with
    | some t => t - s.clock
    | none => s.bist.leftAt
  if s.dev.phase = .start then 0 else min ((ns + 999999999) / 1000000000) 4095

/-- STATUS of a bank block (R434); target 2 reads zero away from the head (R430). -/
def bankStatus (s : State) (c t page : Nat) : Nat :=
  if t = 2 && !isHead s then 0 else rawWord s page (0x48 + 16 * t) + bankWaiting s (c = 1) t * 2 ^ 16

/-- PEND_SUM (R435). -/
def pendSum (s : State) (j : Nat) : Nat :=
  (List.range 32).foldl (fun v i => v + b2n (32 * j + i < 320 && s.on (R.SRC_CFG_pend (32 * j + i))) * 2 ^ i) 0

/-- Flits in all queues of a die (R267): of logical links of that half of the table, and of the links that use their
queues. -/
def queueTotal (s : State) (d : Nat) : Nat :=
  (s.flows.filter fun p =>
    if flowIsLl p.1 then llDie (flowOwner p.1) = d
    else isTrunkMode (modeOf s (flowOwner p.1)) && llDie (s.rd (R.TRK_CFG1_LIVE_queue_ll (flowOwner p.1))) = d).foldl
      (fun n p => n + (waitingOf s p.1).length) 0

/-- A valid sequence value beside its valid bit, in 16 bits. -/
def seqHalf (valid : Bool) (v : Nat) : Nat := b2n valid * 2 ^ 15 + v % 4096
def optHalf (v : Option Nat) : Nat := seqHalf v.isSome (v.getD 0)

/-- DARN_STAT of a direction (R207). -/
def darnStat (v : Flow) : Nat :=
  v.dstate * 2 ^ 28 + b2n v.run * 2 ^ 27 + b2n v.frozenAt.isSome * 2 ^ 26 + v.hbCause * 2 ^ 24 + v.hbEnd % 4096 * 2 ^ 12 +
    min v.copies.length 2047

/-- DARN_SEQ of a direction. -/
def darnSeq (v : Flow) : Nat := optHalf v.expect * 2 ^ 16 + optHalf v.acked

/-- TRK_STAT of a trunk side (R238). -/
def trkStat (x : TrunkSt) : Nat :=
  b2n x.run * 2 ^ 31 + b2n x.frozenAt.isSome * 2 ^ 30 + min x.consec 15 * 2 ^ 26 + min x.held.length 16383

/-- TRK_SEQ of a trunk side. -/
def trkSeq (x : TrunkSt) : Nat := x.nextTx % 65536 * 2 ^ 16 + x.expect % 65536

/-- CUST_SEQ from the flow that enters from the endpoint and the one that arrives from the trunk (R228, R238). -/
def custSeq (proxy xlp : Flow) : Nat := seqHalf proxy.seqValid proxy.seq * 2 ^ 16 + seqHalf xlp.seqValid xlp.seq

/-- The flow of a TRUNK-family link that arrives from the trunk, and the one that enters from the endpoint. -/
def trunkFlow (s : State) (k : Nat) : Flow := s.flow (linkFlow k (trunkSide s k).dirIn)
def endpointFlow (s : State) (k : Nat) : Flow := s.flow (linkFlow k (trunkSide s k).dirOut)

/-- Registers of a link page that are views. The darning registers read zero in a link with no darned direction, the trunk
registers in a link of another mode set than TRUNK and FOLD + TRUNK (R185, R207, R238). -/
def viewLnk (s : State) (k off : Nat) : Nat :=
  let page := 0x40 + k
  let trunk := isTrunkMode (modeOf s k)
  if off = 0x60 then rawWord s page off + (if s.on (R.COMMIT_busy k) then 0 else b2n (s.on R.PRK_CMD_busy) * 2 ^ 18)
  else if 0xA08 ≤ off ∧ off < 0xA60 ∧ !linkDarned s k then 0
  else if 0xB34 ≤ off ∧ off < 0xB88 ∧ !trunk then 0
  else if off = 0xA08 then darnStat (s.flow (linkFlow k .ab))
  else if off = 0xA0C then darnStat (s.flow (linkFlow k .ba))
  else if off = 0xA10 then darnSeq (s.flow (linkFlow k .ab))
  else if off = 0xA14 then darnSeq (s.flow (linkFlow k .ba))
  else if off = 0xB34 then trkStat (s.trunk k)
  else if off = 0xB38 then trkSeq (s.trunk k)
  else if off = 0xB3C then custSeq (endpointFlow s k) (trunkFlow s k)
  else if off = 0xB44 then (trunkFlow s k).upSent
  else if off = 0xB48 then (endpointFlow s k).upSent
  else rawWord s page off

/-- Registers of an LLT page: the window on the selected logical link (R265). -/
def viewLlt (s : State) (p off : Nat) : Nat :=
  let l := llSelected s p
  let x := s.ll l
  let f0 := s.flow (llFlow l 0)
  let f1 := s.flow (llFlow l 1)
  let end1 := flowInTrunk s (llFlow l 0)
  if off = 0x44 then
    x.state * 2 ^ 30 + b2n x.tornUntil.isSome * 2 ^ 29 + x.gen % 16 * 2 ^ 24 + min (f0.queue.length + f1.queue.length) 65535
  else if 0x48 ≤ off ∧ off < 0x68 then rawWord s (if s.on (R.LLT_SEL_bank p) then llLivePage l else llStagedPage l) off
  else if off = 0x68 then optHalf x.far1 * 2 ^ 16 + optHalf x.far0
  else if off = 0x6C then
    let v := if flowOutTrunk s (llFlow l 0) then f1 else f0
    v.dstate * 2 ^ 28 + b2n v.run * 2 ^ 27 + min v.copies.length 4095
  else if off = 0x70 then (if end1 then custSeq f1 f0 else custSeq f0 f1)
  else if 0x7C ≤ off ∧ off < 0x94 then rawWord s (llLivePage l) off
  else rawWord s (0xC0 + p) off

/-- The bank of a calendar that CAL_SEL selects (R266). -/
def calSelPage (s : State) (h j : Nat) : Nat :=
  if s.on (R.CAL_SEL_bank h) then calLivePage (2 * h + j) else calStagedPage (2 * h + j)

/-- Registers of a CAL page (R266). -/
def viewCal (s : State) (h off : Nat) : Nat :=
  let j := (off - 0x80) / 0x40
  let r := (off - 0x80) % 0x40
  let c := 2 * h + j
  let x := s.trunk (1024 + c)
  if off = 0x44 then s.rd (R.CAL_ENTRY (calSelPage s h (s.rd (R.CAL_SEL_j h))) (s.rd (R.CAL_SEL_ent h)))
  else if off < 0x80 ∨ 0x100 ≤ off then rawWord s (0xC8 + h) off
  else if r < 0x0C then rawWord s (calSelPage s h j) (0x80 + r)
  else if r = 0x0C then
    let v := calLivePage c
    let side := Side.ofIdx (s.rd (R.CAL_BIND_side v))
    b2n (s.on (R.CAL_BIND_en v) && spanUp s (s.rd (R.CAL_BIND_link v)) side) * 2 ^ 31 + b2n x.run * 2 ^ 30 +
      b2n x.frozenAt.isSome * 2 ^ 29 + min x.consec 15 * 2 ^ 25 + x.ptr % 256 * 2 ^ 16 + min x.credit 16 * 2 ^ 8
  else if r = 0x10 then trkSeq x
  else if r = 0x14 then min x.held.length 16383
  else rawWord s (0xC8 + h) off

/-- The reference of the PLL that a direction uses (R105): of its lender's while it borrows; in a switchover REFCLK from 0.5 µs
after the loss, where that is judged good (R94). -/
def ckRefNow (s : State) (c : Nat) (d : Dir) : Nat :=
  let o := if s.on (R.CK_STAT_borrowed c d.idx) then partner c else c
  match (s.ck o d).switchFrom with
  | some t =>
    if ckMode s o d = ckForwarded && t + 500 ≤ s.clock && refGood s && !carriesTransparent s o d then refRefclk
    else s.rd (R.CK_STAT_ref o d.idx)
  | none => s.rd (R.CK_STAT_ref o d.idx)

/-- Registers of a cluster page: in CK_STAT the reference and the cadence are views, and EB_STAT reads 0 outside FALLBACK and
RECOVERED (R105). -/
def viewClu (s : State) (c off : Nat) : Nat :=
  let stamp := fun (t : State) (d : Dir) =>
    let eb : Bool := ckMode s c d = ckFallback || ckMode s c d = ckRecovered
    let t := (t.wr (R.CK_STAT_ref c d.idx) (ckRefNow s c d)).wrB (R.CK_STAT_tx_dense c d.idx)
      ((spansOfCluster s c).any fun p => p.2 = d.outSide && (s.side p.1 p.2).dense)
    if eb then t else t.wr (R.EB_STAT_fill c d.idx) 0
  rawWord (if off = 0x304 ∨ off = 0x310 then [Dir.ab, Dir.ba].foldl stamp s else s) (0x10 + c) off

/-- The lane that LANE_SEL selects (R395): a lane of the part; bobbin lanes in TEST only. -/
def selectedLane (s : State) : Option Nat :=
  let n := s.rd R.LANE_SEL_lane
  if n < lanesOf s then some n
  else if 128 ≤ n && n < 128 + clustersOf s && s.dev.phase = .test then some n
  else none

/-- The preset page that PRESET_SEL selects: positions 0-8 and rungs 0-4. -/
def selectedPreset (s : State) (c : Nat) : Option Nat :=
  let pos := s.rd (R.PRESET_SEL_pos c)
  let rung := s.rd (R.PRESET_SEL_rung c)
  if pos ≤ 8 && rung ≤ 4 then some (presetPage c pos rung) else none

/-- Registers of a shared page that belong to something the part lacks: they read as zero and drop writes (R328, R435). -/
def absentReg (s : State) (p off : Nat) : Bool :=
  if p = 0x6 then 0x40 ≤ off && off < 0x540 && !sourceExists s ((off - 0x40) / 4)
  else if p = 0xD then isLz4064 s && ((0x100 ≤ off && off < 0x180) || (0x600 ≤ off && off < 0x800) || 0x900 ≤ off)
  else false

/-- What a register reads, where its page answers (R490). -/
def viewWord (s : State) (p off : Nat) : Nat :=
  if absentReg s p off then 0 else
  match Blk.ofPage p with
  | some (.glb, _) => if off = 0x44 then b2n s.dev.held * 16 + deviceState s else rawWord s p off
  | some (.int, _) =>
    if off = 0x48 ∨ off = 0x58 ∨ off = 0x68 then bankStatus s 0 ((off - 0x48) / 16) p
    else if off = 0x8C then ringOut s else rawWord s p off
  | some (.intf, _) =>
    if off = 0x48 ∨ off = 0x58 ∨ off = 0x68 then bankStatus s 1 ((off - 0x48) / 16) p else rawWord s p off
  | some (.ints, _) => if 0x600 ≤ off ∧ off < 0x628 then pendSum s ((off - 0x600) / 4) else rawWord s p off
  | some (.bst, _) =>
    if off = 0x48 then rawWord s p off + nextTurn s * 2 ^ 16
    else if 0x104 ≤ off ∧ off ≤ 0x130 then
      (match selectedLane s with
      | some n => rawWord s (lanePage n) off
      | none => 0)
    else rawWord s p off
  | some (.hst, _) =>
    if off = 0x44 then rawWord s p off + b2n s.host.smb.remote.isSome * 2 ^ 17 + b2n s.host.spi.remote.isSome * 2 ^ 16
    else rawWord s p off
  | some (.pct, _) =>
    if off = 0x58 then s.fab % 2 ^ 32 else if off = 0x60 then s.live R.PCT_GO_LO_t_go % 2 ^ 32
    else if (off = 0x4C ∨ off = 0x50) ∧ !isHead s then
      rawWord s p off / 16 ^ ownId s % 16 * 16 ^ ownId s
    else rawWord s p off
  | some (.sel, _) =>
    if off = 0x44 then s.sel.queue.length
    else if off = 0x60 ∨ off = 0x68 ∨ off = 0x70 ∨ off = 0x78 then s.live (R.SEL_CTR_LO_ctr ((off - 0x60) / 8)) % 2 ^ 32
    else rawWord s p off
  | some (.clu, c) => viewClu s c off
  | some (.eqa, c) =>
    if 0x60 ≤ off ∧ off ≤ 0x70 then
      (match selectedPreset s c with
      | some v => rawWord s v off
      | none => 0)
    else rawWord s p off
  | some (.die, d) =>
    if off = 0x48 then rawWord s p off + min (bufLive s d) 65535
    else if 0x100 ≤ off ∧ off < 0x184 then rawWord s p off + bankLive s d ((off - 0x100) / 4)
    else if off = 0xE0C then s.live (R.SEAM_XFER_LO d) % 2 ^ 32
    else rawWord s p off
  | some (.lnk, k) => viewLnk s k off
  | some (.llt, q) => viewLlt s q off
  | some (.cal, h) => viewCal s h off
  | some (.qst, d) => if off = 0x4C then min (queueTotal s d) 262143 else rawWord s p off
  | _ => rawWord s p off

/-- STATUS of a page that answers (R488). -/
def pageStatus (s : State) (p : Nat) : Nat :=
  let busy := match Blk.ofPage p with
    | some (b, _) => (busyBits b).any fun q => bit (viewWord s p q.1) q.2
    | none => false
  2 ^ 31 + b2n (pageFenced s p) * 2 ^ 8 + b2n busy * 16 + b2n (s.on (R.SOFT_RESET_busy p))

/-- A read without its side effect (R483, R485): absent and closed pages read zero, a gated one beyond its first three
words. -/
def peek (s : State) (addr : Nat) : Nat :=
  let p := addr / 4096
  let off := addr % 4096
  if !pageExists s p || !phaseOpens s p then 0
  else if off = 0 then pageId p
  else if off = 4 then 0x100
  else if off = 8 then rawWord s p off + (if gateable p then 0 else 2)
  else if pageGated s p then 0
  else if off = 0x10 then pageStatus s p
  else viewWord s p off

end Sys2Proof.Machine
end

