-- ==== Sys2Proof/Machine/Rings.lean ====
section
/-!
DEFINITION. The picot rings (R445-R453): arrival and forwarding of messages, hops, enumeration, fabric time, GO, READY,
BREAK, DELIVER and COMPLETE.
-/

namespace Sys2Proof.Machine

open Sys2Proof

/-! ## Messages as they arrive (R446, R448) -/

/-- Body length of a message type; none for an unknown type. -/
def bodyLen (type : Nat) : Option Nat :=
  match type with
  | 1 => some 6
  | 2 => some 2
  | 3 => some 4
  | 4 => some 10
  | 5 => some 8
  | 6 => some 9
  | 7 => some 6
  | 8 => some 3
  | 9 => some 2
  | 10 => some 2
  | 11 => some 2
  | 12 => some 2
  | _ => none

/-- The bytes of a message of good D symbols. -/
def msgBytes : RingMsg → Option (List Nat)
  | [] => some []
  | .d b :: t => (msgBytes t).map fun bs => b % 256 :: bs
  | _ :: _ => none

/-- A message taken apart. -/
structure Msg where
  type : Nat
  dest : Nat
  src : Nat
  body : List Nat
  deriving DecidableEq, Repr

/-- An intact message (R446): good D symbols, a known type, the right length and a matching CRC. -/
def intactMsg (m : RingMsg) : Option Msg :=
  match msgBytes m with
  | some (type :: a :: rest) =>
    match bodyLen type with
    | some n =>
      if rest.length = n + 1 && crc8 (type :: a :: rest.take n) = rest.getD n 0
      then some ⟨type, bits a 7 5, bits a 4 2, rest.take n⟩ else none
    | none => none
  | _ => none

/-- The rings run: everywhere but in reset (R352, R474). -/
def ringRuns (s : State) : Bool := s.dev.phase != .off

/-- A message that is not intact is dropped and counted (R446); TRAINs are then no longer consecutive (R447). -/
def msgBroken (d : Nat) (s : State) : State :=
  (s.bump R.PCT_CNT_crc).putHop d { s.hop d with trains := 0 }

/-- Hop states of PCT_STAT. -/
def hopUp : Nat := 1
def hopBroken : Nat := 2
def hopCrossed : Nat := 3

/-- A hop has brought an intact message (R447). -/
def hopHeard (d : Nat) (s : State) : State := s.putHop d { s.hop d with heardAt := s.clock }

/-! ### Symbol lock of a ring input (R55, R445)

At 3.125 Gb/s a symbol takes 3.2 ns. The stream is messages and idle pairs, so that an UNLOCKED input finds the commas of four
idle pairs in 25.6 ns, and locks, where no bad symbol comes (DEDUCED; log 282). -/

/-- The fixed settings of R445: acq_commas, lol_bad, and the symbols of a window, 2^8. -/
def ringCommas : Nat := 4
def ringLolBad : Nat := 16
def ringLolWin : Nat := 256

/-- Times in 1/5 ns: a symbol, and four idle pairs. -/
def ringSymTime : Nat := 16
def ringLockTime : Nat := ringCommas * 2 * ringSymTime

/-- The input is LOCKED. -/
def hopLocked (s : State) (d : Nat) : Bool := (s.hop d).lockAt ≤ 5 * s.clock

/-- The input starts to lock anew. -/
def hopUnlock (d : Nat) (s : State) : State :=
  s.putHop d { s.hop d with lockAt := 5 * s.clock + ringLockTime, win := 0, bad := 0 }

def badSyms (m : RingMsg) : Nat := (m.filter fun x => match x with | .bad _ => true | _ => false).length

/-- The bad symbols of a message at a LOCKED input, in the window that runs; the one that reaches lol_bad ends the lock. -/
def hopBad (d : Nat) (m : RingMsg) (s : State) : State :=
  if badSyms m = 0 then s else
  let h := s.hop d
  let w := (5 * s.clock - h.lockAt) / (ringLolWin * ringSymTime)
  let n := (if h.win = w then h.bad else 0) + badSyms m
  if ringLolBad ≤ n then hopUnlock d s else s.putHop d { h with win := w, bad := n }

/-- A message of type `type` arrives on the input of ring `d`; one of another type is not this command's event. A crossed
input has not joined its ring (R398): of what arrives there only TRAINs count (log 215). An input that is not LOCKED takes no
message, and a bad symbol there begins its search anew. -/
def arrive (type d : Nat) (m : RingMsg) (act : Msg → State → State) (s : State) : State :=
  if !ringRuns s then s else
  let s := s.freshOut
  if !hopLocked s d then (if badSyms m = 0 then s else hopUnlock d s) else
  let s := hopBad d m s
  match intactMsg m with
  | none => msgBroken d s
  | some x => if x.type ≠ type || (hopState s d = hopCrossed && type ≠ 1) then s
    else act x (hopHeard d s)

/-- A message from one package to another (R448): consumed at its destination, removed at its source, else forwarded. -/
def routed (d : Nat) (consume : Msg → State → State) (x : Msg) (s : State) : State :=
  if x.dest = ownId s then consume x s
  else if x.src = ownId s then s.bump R.PCT_CNT_dropped
  else s.sendOn d (ringBytes x.type x.dest x.src x.body)

/-- A message that goes around (R446, R448): the source removes it; any other package acts on it and sends it on, with the
body that the package gives it, unless it is the destination. -/
def around (d : Nat) (atSource : State → State) (act : Msg → State → State × List Nat) (x : Msg) (s : State) : State :=
  if x.src = ownId s then atSource s
  else
    let r := act x s
    if x.dest = ownId s then r.1 else r.1.sendOn d (ringBytes x.type x.dest x.src r.2)

/-- A command on ring input `d`, 0 clockwise, 1 counter-clockwise, which takes the state `s` to `t`: nothing while the management
domain is held (R336). -/
def onRing (d : Nat) (s t : State) : Host.Outcome State Fault Refusal := onUnit (d < 2) (if mgmtHeld s then s else t)

/-! ## Hops (R447) -/

def setHopState (d v : Nat) (s : State) : State :=
  if d = 0 then s.wr R.PCT_STAT_cw v else s.wr R.PCT_STAT_ccw v

/-- Each change of a hop between up and not up sends BREAK to the head on the other ring; at the head itself it starts an
enumeration, as a BREAK that the head receives does (DEDUCED; log 201). -/
def sendBreak (d : Nat) (s : State) : State :=
  if isHead s then enumStart s
  else s.sendOn (1 - d) (ringBytes 0x0B 0 (ownId s) [d, ownId s])

/-- The one-way delay of a hop from the tag that came back (R447), in ns. -/
def hopDelay (d tag turn : Nat) (s : State) : State :=
  match (s.hop d).txTags.find? fun p => p.1 = tag with
  | some p =>
    let v := min ((s.clock - p.2 - turn) / 2) 65535
    if d = 0 then s.wr R.PCT_HOP_cw v else s.wr R.PCT_HOP_ccw v
  | none => s

/-- A TRAIN that names the ring of its input. -/
def trainGood (d : Nat) (s : State) : State :=
  let h := s.hop d
  let n := min (h.trains + 1) 8
  if hopState s d ≠ hopUp && n = 8 then
    let s := setHopState d hopUp (s.putHop d { h with trains := n, everUp := true })
    sendBreak d (s.setInput (286 + d) false)
  else s.putHop d { h with trains := n }

/-- A TRAIN that names the other ring: the input is crossed (R398). -/
def trainCrossed (d : Nat) (s : State) : State :=
  let s := s.putHop d { s.hop d with trains := 0 }
  if hopState s d = hopCrossed then s else
  let was := hopState s d = hopUp
  let s := wireFault 8 0 d ((setHopState d hopCrossed s).setInput (286 + d) true)
  if was then sendBreak d s else s

/-- A TRAIN arrives (R447): tag and time, the echo's measurement, and the state of the hop. -/
def trainArrives (d : Nat) (x : Msg) (s : State) : State :=
  let h := s.hop d
  let s := s.putHop d { h with rxTag := x.body.getD 2 0, rxAt := some s.clock }
  let s := hopDelay d (x.body.getD 3 0) (beNat (x.body.drop 4)) s
  if x.body.getD 0 0 = d then trainGood d s else trainCrossed d s

/-- RING_TRAIN_RECEIVE (R447, R398). -/
def execRingTrainReceive (d : Nat) (msg : RingMsg) (s : State) : Host.Outcome State Fault Refusal :=
  onRing d s (arrive 1 d msg (trainArrives d) s)

/-- What a TRAIN echoes: the tag last received on the input from the same neighbour, and the time since; before any such
TRAIN the spec states neither, and both are free values (log 202). -/
def trainEcho (h : HopSt) (s : State) : Nat × Nat × State :=
  match h.rxAt with
  | some t => (h.rxTag, min (s.clock - t) 65535, s)
  | none =>
    let a := s.draw
    let b := a.2.draw
    (Config.freeValue a.1 % 256, Config.freeValue b.1 % 65536, b.2)

/-- The output of ring `r` sends a TRAIN. -/
def trainSend (r : Nat) (s : State) : State :=
  let h := s.hop (1 - r)
  let tag := ((match h.txTags with | p :: _ => p.1 | [] => 0) + 1) % 256
  let e := trainEcho h s
  let s := e.2.2.putHop (1 - r) { h with txTags := (tag, s.clock) :: h.txTags.filter fun p => p.1 ≠ tag }
  s.sendOn r (ringBytes 1 0 (ownId s) ([r, ownId s, tag, e.1] ++ beBytes 2 e.2.1))

/-- RING_TRAIN_SEND (R447): every output. The address byte of a TRAIN names destination 0, which no rule reads (log 203). -/
def execRingTrainSend (s : State) : Host.Outcome State Fault Refusal :=
  .next (if ringRuns s then trainSend 1 (trainSend 0 s.freshOut) else s)

/-- HOP_BROKEN (R447): no intact message for 10 µs on an input that was up. -/
def execHopBroken (d : Nat) (s : State) : Host.Outcome State Fault Refusal :=
  onRing d s (if ringRuns s && hopState s d = hopUp && (s.hop d).heardAt + 10000 ≤ s.clock then
    let s := s.freshOut.putHop d { s.hop d with trains := 0 }
    sendBreak d ((setHopState d hopBroken s).setInput (286 + d) true)
  else s)

/-! ## Enumeration (R449) -/

/-- An ENUM at a package: one more hop is its position on that ring; PRESENT goes to the head on the other ring. -/
def enumArrives (d : Nat) (x : Msg) (s : State) : State × List Nat :=
  let hops := min (x.body.getD 0 0 + 1) 15
  let s := s.setRingPos d (ownId s) hops
  let s := { s with ring := { s.ring with reached := (s.ring.reached.filter (· ≠ d)) ++ [d] } }
  (s.sendOn (1 - d) (ringBytes 3 0 (ownId s) ([d, hops] ++ beBytes 2 (partCode s))), [hops, 0])

/-- An ENUM is back at the head; the enumeration ends when each has returned. -/
def enumReturned (d : Nat) (s : State) : State :=
  if s.ring.enumAt.isNone then s else
  let back := s.ring.enumBack.filter (fun r => r ≠ d) ++ [d]
  let s := { s with ring := { s.ring with enumBack := back } }
  if s.ring.enumOut.all back.contains then enumEnd s else s

/-- RING_ENUM (R449). -/
def execRingEnum (d : Nat) (msg : RingMsg) (s : State) : Host.Outcome State Fault Refusal :=
  onRing d s (arrive 2 d msg (around d (enumReturned d) (enumArrives d)) s)

/-- A PRESENT at the head (R449): a second one of the same ring and id with another position marks the id duplicate. -/
def presentArrives (x : Msg) (s : State) : State :=
  let ring := x.body.getD 0 0
  let pos := x.body.getD 1 0
  let id := x.src
  if 2 ≤ ring then s else
  let had := ringPos s ring id
  let s := s.wr R.PCT_STAT_present (s.rd R.PCT_STAT_present ||| 2 ^ id)
  let s := { s with ring := { s.ring with parts := (id, beNat (x.body.drop 2)) :: s.ring.parts.filter fun p => p.1 ≠ id } }
  if bit (s.rd R.PCT_STAT_dup) id then s
  else if had ≠ 15 && had ≠ pos then
    (s.wr R.PCT_STAT_dup (s.rd R.PCT_STAT_dup ||| 2 ^ id)).setRingPos 0 id 15 |>.setRingPos 1 id 15
  else s.setRingPos ring id (min pos 15)

/-- RING_PRESENT (R449): recorded at the head, and only while it enumerates (log 204). -/
def execRingPresent (d : Nat) (msg : RingMsg) (s : State) : Host.Outcome State Fault Refusal :=
  onRing d s (arrive 3 d msg (routed d fun x s => if isHead s && s.ring.enumAt.isSome then presentArrives x s else s) s)

/-- ENUM_TIMEOUT (R449): 100 µs after the ENUMs. -/
def execEnumTimeout (s : State) : Host.Outcome State Fault Refusal :=
  .next (if ringRuns s && passed s.ring.enumAt 100000 s.clock then enumEnd s.freshOut else s)

/-- RING_DONE (R431, R449). -/
def execRingDone (d : Nat) (msg : RingMsg) (s : State) : Host.Outcome State Fault Refusal :=
  onRing d s (arrive 12 d msg (around d id fun x s => (ringDone s, x.body)) s)

/-- RING_BREAK (R449): at the head it starts an enumeration. -/
def execRingBreak (d : Nat) (msg : RingMsg) (s : State) : Host.Outcome State Fault Refusal :=
  onRing d s (arrive 11 d msg (routed d fun _ s => if isHead s then enumStart s else s) s)

/-- The head runs an enumeration by command: refused elsewhere (R464). -/
def pctCmd (op : Nat) (act : State → State) (s : State) : State :=
  let s := s.wr R.PCT_CMD_op op
  if s.on R.PCT_CMD_busy then s else
  if !isHead s then s.wr R.PCT_CMD_refused 1 else act ((s.wr R.PCT_CMD_refused 0).freshOut)

/-- PCT_ENUMERATE (R449). -/
def execPctEnumerate (s : State) : Host.Outcome State Fault Refusal := .next (ifOpen 0xA s (pctCmd 0 enumStart s))

/-! ## Fabric time (R450) -/

/-- The ring from which the package takes its time: that of its lower position, clockwise when equal. -/
def timeRing (s : State) : Option Nat := routeTo s (ownId s)

/-- Delay of an input hop, ns. -/
def inHop (s : State) (d : Nat) : Nat := if d = 0 then s.rd R.PCT_HOP_cw else s.rd R.PCT_HOP_ccw

/-- Take a fabric time: a later one at once, an earlier one by holding the count until it has been reached. -/
def takeTime (t : Nat) (s : State) : State :=
  if s.fab ≤ t then { s with fab := t, ring := { s.ring with hold := 0 } }
  else { s with ring := { s.ring with hold := s.fab - t } }

/-- The moment at which the last TIME was taken. -/
def timeTaken (s : State) : State := { s with ring := { s.ring with timeAt := s.clock } }

/-- The package's own forwarding delay, up to the 200 ns of R448: a free value (log 205). -/
def forwardDelay (s : State) : Nat × State :=
  let p := s.draw
  (Config.freeValue p.1 % 201, p.2)

/-- A TIME at a package. -/
def timeArrives (d : Nat) (x : Msg) (s : State) : State × List Nat :=
  let t := beNat (x.body.take 8)
  let acc := beNat (x.body.drop 8)
  let s := if timeRing s = some d then timeTaken ((takeTime (t + acc + inHop s d) s).wr R.PCT_STAT_time_ok 1) else s
  let f := forwardDelay s
  (f.2, beBytes 8 t ++ beBytes 2 (min (acc + inHop s d + f.1) 65535))

/-- RING_TIME (R450). -/
def execRingTime (d : Nat) (msg : RingMsg) (s : State) : Host.Outcome State Fault Refusal :=
  onRing d s (arrive 4 d msg (around d id (timeArrives d)) s)

/-- RING_TIME_SEND (R450): the head. -/
def execRingTimeSend (s : State) : Host.Outcome State Fault Refusal :=
  .next (if ringRuns s && isHead s then s.freshOut.broadcast 4 (beBytes 8 s.fab ++ [0, 0]) else s)

/-- TIME_LOSS (R450): 10 µs without a TIME; time runs freely. -/
def execTimeLoss (s : State) : Host.Outcome State Fault Refusal :=
  .next (if ringRuns s && !isHead s && s.ring.timeAt + 10000 ≤ s.clock then s.wr R.PCT_STAT_time_ok 0 else s)

/-! ## GO and READY (R451) -/

/-- The spans that wait for GO. -/
def goWaiting (s : State) : List (Nat × Side) := (activeSpans s).filter fun p => (s.span p.1 p.2).goWait

/-- A GO with T_go `t`: recorded; waiting spans that find it begun start at once. -/
def takeGo (t : Nat) (s : State) : State :=
  let s := s.putLive R.PCT_GO_LO_t_go (t % 2 ^ 64)
  let ws := goWaiting s
  if ws ≠ [] && t ≤ s.fab then
    detectAll (s.wr R.PCT_STAT_late 1)
  else s

/-- RING_GO (R451). -/
def execRingGo (d : Nat) (msg : RingMsg) (s : State) : Host.Outcome State Fault Refusal :=
  onRing d s (arrive 5 d msg (around d id fun x s => (takeGo (beNat x.body) s, x.body)) s)

/-- T_go: the first whole microsecond that begins at least go_lead after now (R451). -/
def goTime (s : State) : Nat := (s.fab + 1000 * max (s.rd R.PCT_CFG_go_lead) 10 + 999) / 1000 * 1000

/-- The head sends GO on both rings, and its own spans start at it too. -/
def sendGo (s : State) : State :=
  let t := goTime s
  takeGo t (s.broadcast 5 (beBytes 8 t))

/-- READY has come from every enumerated package. -/
def allReady (s : State) : Bool :=
  (List.range 8).all fun i => !bit (s.rd R.PCT_STAT_present) i || bit (s.rd R.PCT_STAT_ready) i

/-- GO_AUTO (R451). -/
def execGoAuto (s : State) : Host.Outcome State Fault Refusal :=
  .next (if ringRuns s && isHead s && blindSystem s && s.on R.PCT_STAT_enum_done && s.ring.enumAt.isNone &&
      s.rd R.PCT_STAT_dup = 0 && allReady s then sendGo s.freshOut else s)

/-- PCT_GO (R451): whatever the conditions. -/
def execPctGo (s : State) : Host.Outcome State Fault Refusal := .next (ifOpen 0xA s (pctCmd 1 sendGo s))

/-- RING_READY (R451). -/
def execRingReady (d : Nat) (msg : RingMsg) (s : State) : Host.Outcome State Fault Refusal :=
  onRing d s (arrive 10 d msg (routed d fun x s =>
    if isHead s then s.wr R.PCT_STAT_ready (s.rd R.PCT_STAT_ready ||| 2 ^ x.src) else s) s)

/-! ## Interrupt messages (R430, R432, R453) -/

/-- A DELIVER at the head; a head in WATCH keeps it until wake. -/
def deliverArrives (x : Msg) (s : State) : State :=
  if !isHead s then s
  else if s.dev.phase = .watch then
    { s with ring := { s.ring with inWatch := s.ring.inWatch ++ [(x.src, x.body)] } }
  else
    let w := beNat (x.body.take 2)
    enterDeliver (w % 1024) (x.body.getD 2 0) x.src (32768 ≤ w) s

/-- RING_DELIVER (R453). -/
def execRingDeliver (d : Nat) (msg : RingMsg) (s : State) : Host.Outcome State Fault Refusal :=
  onRing d s (arrive 8 d msg (routed d deliverArrives) s)

/-- RING_COMPLETE (R430): the source is no longer active, if it was. -/
def execRingComplete (d : Nat) (msg : RingMsg) (s : State) : Host.Outcome State Fault Refusal :=
  onRing d s (arrive 9 d msg (routed d fun x s =>
    let src := beNat x.body % 1024
    if sourceExists s src then endService src s else s) s)

end Sys2Proof.Machine
end

