-- ==== Sys2Proof/Machine/Steering.lean ====
section
/-!
DEFINITION. Commands of lane steering (chapter Lane steering and bobbin lanes, R310-R328): writes of the lane map, torn
windows and drains, the steps of a swap, and SWP_CMD.
-/

namespace Sys2Proof.Machine

open Sys2Proof

/-! ## The lane map (R310, R313-R315) -/

/-- MAP_STAT follows the drains and torn windows. -/
def syncMapStat (s : State) : State :=
  (s.wrB R.MAP_STAT_torn (s.maps.any fun p => p.2.tornUntil.isSome)).wrB R.MAP_STAT_drain
    (s.maps.any fun p => p.2.drainUntil.isSome)

/-- The width by which the map words of a side are read: live, or staged while the link has mode 0. -/
def mapWidth (s : State) (k : Nat) (sd : Side) : Nat :=
  if modeOf s k = 0 then widthLanes (s.rd (R.LNK_CFG_width k sd.idx)) else sideWidth s k sd

def mapWords (s : State) (k : Nat) (sd : Side) : List Nat := mapLanes s k sd (mapWidth s k sd)

def genUp (e : Nat) (s : State) : State := s.bumpWrap (R.SIDE_MAP_gen e)

/-- A direct change of side `e` (R314, R315): `force` are the lanes in force, `words` those of the map before the write. -/
def directChange (e : Nat) (force words : List Nat) (s : State) : State :=
  let m := s.map e
  let gen := s.rd (R.SIDE_MAP_gen e)
  let cs := ((force ++ words ++ mapWords s (e / 2) (Side.ofIdx (e % 2))).map laneCluster).eraseDups
  let cs := cs.filter fun c => !m.caches.any fun p => p.1 = c
  (genUp e s).putMap e { m with
    old := some force, tornUntil := some (s.fab + 2000), advance := m.advance + 1, caches := m.caches ++ cs.map fun c => (c, gen) }

/-- The lanes that the map words give a side, with the positions they claim: by the hint, or every LANE_POS that names it,
duplicates and positions beyond the width included. -/
def mapNamed (s : State) (k : Nat) (sd : Side) : List (Nat × Nat) :=
  if s.on (R.SIDE_MAP_hint (sideEntry k sd)) then (mapWords s k sd).zip (List.range 16)
  else ((List.range (lanesOf s)).filter fun n => s.on (R.LANE_POS_valid n sd.idx) && s.rd (R.LANE_POS_link n sd.idx) = k).map
    fun n => (n, s.rd (R.LANE_POS_pos n sd.idx))

/-- What a write that may have changed the lanes of a valid side does; `t` is the state before the write. Whether it was a
direct change. -/
def lanesChanged (t : State) (e : Nat) (s : State) : Bool × State :=
  let k := e / 2
  let sd := Side.ofIdx (e % 2)
  if !s.on (R.SIDE_MAP_valid e) || mapNamed t k sd = mapNamed s k sd then (false, s)
  else if modeOf s k = 0 then (false, genUp e s)
  else (true, directChange e (sideLanes t k sd) (mapWords t k sd) s)

/-- Source 283 and MAP_TORN_LAST for a write that made direct changes; the higher entry is the latest. -/
def tornRaise (es : List Nat) (s : State) : State :=
  match es.getLast? with
  | none => s
  | some e => syncMapStat (((s.wr R.MAP_TORN_LAST_valid 1).wr R.MAP_TORN_LAST_entry e).raise 283)

/-- A bobbin stops standing in for lanes of a side (R313). -/
def bobOffSide (sd : Side) (lanes : List Nat) (s : State) : State :=
  ((lanes.map laneCluster).eraseDups).foldl (fun s c =>
    if (s.bob c).inOn sd && lanes.contains (bobLane s c) then bobRelease c (bobMove c sd false s) else s) s

/-- Break before make (R313): every span of the link goes down, the drain epoch starts, a torn window closes. The lanes of the
side send EIE and are given up. -/
def mapBreak (e : Nat) (s : State) : State :=
  let k := e / 2
  let sd := Side.ofIdx (e % 2)
  let lanes := sideLanes s k sd
  let s := linkDown k ftLanes false s
  let s := if modeOf s k = mTransparent then (usedSides s k).foldl (fun s e => spanHold k e s) s else s
  let s := bobOffSide sd lanes (lanesLeave k sd lanes s)
  let s := s.putSide k sd { s.side k sd with eieDue := false }
  let s := lanes.foldl (fun s n => acqCancel n sd s) s
  s.putMap e { drainUntil := some (s.fab + 1000) }

/-- A write of SIDE_MAP[e]. -/
def sideMapWrite (e v : Nat) (s : State) : State :=
  let k := e / 2
  let was := s.on (R.SIDE_MAP_valid e)
  let now := bit v 31
  let store := fun s : State => ((s.wrB (R.SIDE_MAP_valid e) now).wrB (R.SIDE_MAP_hint e) (bit v 30)).wr (R.SIDE_MAP_base e) (v % 128)
  if was && !now then
    syncMapStat (store (if modeOf s k = 0 then s.putMap e { drainUntil := (s.map e).drainUntil } else mapBreak e s))
  else if !was && now then
    let s := genUp e (store s)
    if modeOf s k = 0 then s
    else (usedSides s k).foldl (fun s sd => downRestart k sd s) (linkTrain false k s)
  else
    let r := lanesChanged s e (store s)
    if r.1 then tornRaise [e] r.2 else r.2

/-- SIDE_MAP_WRITE (R313-R315). -/
def execSideMapWrite (e v : Nat) (s : State) : Host.Outcome State Fault Refusal :=
  .next (ifHas (e < 2 * linksOf s) 0xD s (sideMapWrite e v s))

/-- The link sides that a LANE_POS field of side `d` of lane `n` names. -/
def posNames (s : State) (n d : Nat) : List Nat :=
  if s.on (R.LANE_POS_valid n d) && s.rd (R.LANE_POS_link n d) < linksOf s then [2 * s.rd (R.LANE_POS_link n d) + d] else []

/-- A write of LANE_POS[n]. -/
def lanePosWrite (n v : Nat) (s : State) : State :=
  let t := [0, 1].foldl (fun t d =>
    let w := v / 65536 ^ d
    ((t.wrB (R.LANE_POS_valid n d) (bit w 15)).wr (R.LANE_POS_link n d) (bits w 14 8)).wr (R.LANE_POS_pos n d) (w % 16)) s
  let es := (List.range 256).filter ([0, 1].flatMap fun d => posNames s n d ++ posNames t n d).contains
  let r := es.foldl (fun (r : List Nat × State) e =>
    let x := lanesChanged s e r.2
    (if x.1 then r.1 ++ [e] else r.1, x.2)) ([], t)
  tornRaise r.1 r.2

/-- LANE_POS_WRITE (R314, R315). -/
def execLanePosWrite (lane v : Nat) (s : State) : Host.Outcome State Fault Refusal :=
  .next (ifHas (lane < lanesOf s) 0xD s (lanePosWrite lane v s))

/-- MAP_DRAIN_END (R313): the drain epoch is over. -/
def execMapDrainEnd (e : Nat) (s : State) : Host.Outcome State Fault Refusal :=
  onUnit (e < 2 * linksOf s) (if passed (s.map e).drainUntil 0 s.fab then
    syncMapStat (s.putMap e { s.map e with drainUntil := none }) else s)

/-- A span in UP, or retraining, retrains on new lanes as for a host RETRAIN: the clocks of a cluster that is new to it are
trained, and where other spans hold that at another rung, the span goes to theirs (R12; DEDUCED, log 225). -/
def lanesRetrain (k : Nat) (sd : Side) (s : State) : State :=
  let rung := spanRung s k sd
  let sw := (groupRung s k sd).filter (· ≠ rung)
  let s := if sw.isNone && spanState s k sd ≠ spSwitch then retune k sd rung s else s
  if spanState s k sd = spUp then retrain k sd sw false s else retrainSpan k sd sw s

/-- The torn window of a side closes: it takes its new lanes (R312, R314). A span that stands in DOWN for its map goes on once
that is whole. -/
def mapTornEnd (e : Nat) (s : State) : State :=
  let k := e / 2
  let sd := Side.ofIdx (e % 2)
  let m := s.map e
  if !passed m.tornUntil 0 s.fab then s else
  let old := sideLanes s k sd
  let s := syncMapStat (s.putMap e { drainUntil := m.drainUntil })
  let new := sideLanes s k sd
  let gone := old.filter fun n => !new.contains n
  let s := gone.foldl (fun s n => acqCancel n sd (adaptLeaves n sd s)) (lanesLeave k sd gone s)
  let s := ((old.map laneCluster).eraseDups).foldl (fun s c => bobRelease c (bobFinish c s)) s
  let st := spanState s k sd
  if modeOf s k = mTransparent then linkTrain false k s
  else if st = spIdle then s
  else if st = spDown then downRestart k sd s
  else if liveMapBad s k sd then linkDown k ftLanes false s
  else if st = spUp || spanRetraining s k sd then lanesRetrain k sd s
  else detectEnter k sd true false s

/-- MAP_TORN_END (R314). -/
def execMapTornEnd (e : Nat) (s : State) : Host.Outcome State Fault Refusal :=
  onUnit (e < 2 * linksOf s) (mapTornEnd e s)

/-- MAP_CACHE_REFRESH (R314): a cluster takes the newest map of a side. -/
def execMapCacheRefresh (c e : Nat) (s : State) : Host.Outcome State Fault Refusal :=
  onUnit (c < clustersOf s && e < 2 * linksOf s)
    (s.putMap e { s.map e with caches := (s.map e).caches.filter fun p => p.1 ≠ c })

/-! ## The steps of a swap (R316, R320, R321) -/

/-- BOBBIN_ACQ_LIMIT (R320). -/
def execBobbinAcqLimit (c : Nat) (sd : Side) (s : State) : Host.Outcome State Fault Refusal :=
  onUnit (c < clustersOf s) (bobAcqEnd c sd s)

/-- BOBBIN_SWITCH (R320). -/
def execBobbinSwitch (c : Nat) (sd : Side) (s : State) : Host.Outcome State Fault Refusal :=
  onUnit (c < clustersOf s) (if maySwitch s c sd then bobSwitch c sd s else s)

/-- The limit of a swap or a return is over: 20 µs since the trigger, the time in which it stopped apart (R316, R416). -/
def swapOver (s : State) (c : Nat) : Bool := (s.bob c).since + (s.bob c).held + 20000 ≤ s.clock && !clockBusy s c

/-- SWAP_ABANDON (R316): at the limit, or with a fault class on a bobbin end. -/
def execSwapAbandon (c : Nat) (s : State) : Host.Outcome State Fault Refusal :=
  onUnit (c < clustersOf s) (if swapOver s c || bobFaulty s c then swapAbandon c s else s)

/-- The old TX end of a side falls idle without EIE, 10 µs after its new TX end began the duplicate (R321): lane n's in a swap,
the bobbin's in a return. -/
def oldTxIdle (c : Nat) (s : State) : State :=
  let st := bobState s c
  let old := if st = bbReturning || st = bbReady then 128 + c else bobLane s c
  [Side.a, Side.b].foldl (fun s sd =>
    if !passed ((s.bob c).dup sd) 10000 s.clock || (s.bob c).rested.contains sd.idx then s
    else (s.txRest old sd).putBob c { s.bob c with rested := (s.bob c).rested ++ [sd.idx] }) s

/-- OLD_TX_IDLE (R321). -/
def execOldTxIdle (c : Nat) (s : State) : Host.Outcome State Fault Refusal :=
  onUnit (c < clustersOf s) (oldTxIdle c s)

/-! ## SWP_CMD (R326) -/

/-- A SWP_CMD op on a cluster: refused, or done. -/
def swpOp (op c pos : Nat) (ok : Bool) (f : State → State) (s : State) : State :=
  let s := ((s.wr R.SWP_CMD_op op).wr R.SWP_CMD_cluster c).wr R.SWP_CMD_pos pos
  if ok && c < clustersOf s then f (s.wr R.SWP_CMD_refused 0) else s.wr R.SWP_CMD_refused 1

def swapOk (s : State) (c pos : Nat) : Bool :=
  bobState s c = bbReady && pos < 8 && laneSides s (8 * c + pos) ≠ [] && swappable s c (8 * c + pos)

def execSwpSwap (c pos : Nat) (s : State) : Host.Outcome State Fault Refusal :=
  .next (ifOpen 0xD s (swpOp 0 c pos (swapOk s c pos) (swapBegin c pos swHost 2 2) s))

def returnOk (s : State) (c : Nat) : Bool :=
  bobState s c = bbIn && !endFaulty s (bobLane s c) .a && !endFaulty s (bobLane s c) .b

def execSwpReturn (c : Nat) (s : State) : Host.Outcome State Fault Refusal :=
  .next (ifOpen 0xD s (swpOp 1 c (s.rd R.SWP_CMD_pos) (returnOk s c) (returnBegin c) s))

/-- ENABLE runs the bobbin test slice; another slice of the die ends ABORTED. -/
def bobEnable (c : Nat) (s : State) : State :=
  let d := clusterDie c
  bobSliceStart c true (if (bobSliceOf s d).isSome then bobSliceCut d resAborted causeHost s else s)

def execSwpEnable (c : Nat) (s : State) : Host.Outcome State Fault Refusal :=
  .next (ifOpen 0xD s (swpOp 2 c (s.rd R.SWP_CMD_pos) (bobState s c = bbOut) (bobEnable c) s))

/-- DISABLE: the bobbin's ends are held in electrical idle. -/
def bobDisable (c : Nat) (s : State) : State :=
  let d := clusterDie c
  let s := if (s.bob c).slice then bobSliceCut d resAborted causeHost s else s
  bobRest c ((s.wr (R.BOB_STAT_state c) bbOut).wr (R.BOB_STAT_out_why c) 1)

def execSwpDisable (c : Nat) (s : State) : Host.Outcome State Fault Refusal :=
  .next (ifOpen 0xD s (swpOp 3 c (s.rd R.SWP_CMD_pos) (bobState s c = bbReady) (bobDisable c) s))

end Sys2Proof.Machine
end

