-- ==== Sys2Proof/Machine/RegisterFile.lean ====
section
/-!
DEFINITION. Accesses to the register file (chapter Register map, R482-R497): reads with their side effects, writes field by
field with the clamps of R493 and the command registers, and soft resets (R478, R479, R436, R369).
-/

namespace Sys2Proof.Machine

open Sys2Proof

/-- The state after a command; one that cannot act leaves it. -/
def after (o : Host.Outcome State Fault Refusal) (s : State) : State :=
  match o with
  | .next t => t
  | _ => s

/-! ## Reads with a side effect -/

/-- A read that a row of the table stands for: its word, and the state after it. -/
def rowRead (o : Host.Outcome State Fault Refusal) (s : State) : Nat × State :=
  let t := after o s
  (t.host.answer.headD 0, { t with host := { t.host with answer := s.host.answer } })

/-- The RS registers (R490): snapshots and claims. -/
def rsRead (s : State) (p off : Nat) : Option (Nat × State) :=
  match Blk.ofPage p with
  | some (.clu, c) => if off = 0x54 then some (rowRead (execCntSnap c s) s) else none
  | some (.lnk, k) =>
    if off = 0x900 then some (rowRead (execFltSnap k s) s)
    else if off = 0xA18 then some (rowRead (execDarnSnap k s) s)
    else if off = 0xB54 then some (rowRead (execTrkSnap k s) s) else none
  | some (.llt, q) => if off = 0x74 then some (rowRead (execLlSnap q s) s) else none
  | some (.cal, h) =>
    if off = 0x9C then some (rowRead (execCalSnap (2 * h) s) s)
    else if off = 0xDC then some (rowRead (execCalSnap (2 * h + 1) s) s) else none
  | some (.die, d) => if off = 0x60 then some (rowRead (execBufSnap d s) s) else none
  | some (.bst, _) =>
    if off = 0x118 then (match selectedLane s with
      | some n => some (rowRead (execPrbsSnap n s) s)
      | none => none) else none
  | some (.int, _) =>
    if off = 0x40 ∨ off = 0x50 ∨ off = 0x60 then some (rowRead (execIntClaim false ((off - 0x40) / 16) s) s) else none
  | some (.intf, _) =>
    if off = 0x40 ∨ off = 0x50 ∨ off = 0x60 then some (rowRead (execIntClaim true ((off - 0x40) / 16) s) s) else none
  | _ => none

/-- A read of the LO word of a 64-bit count latches its HI word from the same cycle (R494). -/
def loLatch (p off : Nat) (s : State) : State :=
  match Blk.ofPage p with
  | some (.pct, _) =>
    if off = 0x58 then s.wr R.PCT_TIME_HI_time (s.fab / 2 ^ 32)
    else if off = 0x60 then s.wr R.PCT_GO_HI_t_go (s.live R.PCT_GO_LO_t_go / 2 ^ 32) else s
  | some (.lnk, k) => if off = 0x828 then s.wr (R.UP_TIME_HI_time k) (s.live (R.UP_TIME_HI_time k)) else s
  | some (.die, d) => if off = 0xE0C then s.wr (R.SEAM_XFER_HI d) (s.live (R.SEAM_XFER_LO d) / 2 ^ 32) else s
  | some (.sel, _) =>
    if off = 0x60 ∨ off = 0x68 ∨ off = 0x70 ∨ off = 0x78 then
      let j := (off - 0x60) / 8
      s.wr (R.SEL_CTR_HI_ctr j) (s.live (R.SEL_CTR_LO_ctr j) / 2 ^ 32)
    else s
  | _ => s

/-- A register is read (R482, R483, R490): the word, and the state after the read. An address whose bits 1:0 are not zero reads
nothing. -/
def hostRead (addr : Nat) (s : State) : Nat × State :=
  let p := addr / 4096
  let off := addr % 4096
  if addr % 4 ≠ 0 then (0, s)
  else if pageOpen s p && 0x40 ≤ off then
    (match rsRead s p off with
    | some r => r
    | none => (peek s addr, loLatch p off s))
  else (peek s addr, s)

/-! ## Writes -/

/-- The value a field stores: clamped where its description says so (R493). -/
def clampField (b : Blk) (off lo v : Nat) : Nat :=
  let between := fun l h => max l (min v h)
  match b with
  | .clu => if off = 0x48 then (if lo = 16 then between 2 8 else if lo = 8 then between 6 12 else v)
    else if off = 0x30C ∧ lo = 0 then between 30 200 else v
  | .eqa => if off = 0x40 ∧ lo = 16 then between 14 20 else if off = 0x100 ∧ lo = 8 then between 2 32
    else if off = 0x148 then between 12 20 else v
  | .lnk => if off = 0x800 ∧ lo = 8 then between 4 60 else if off = 0x804 ∧ lo = 16 then between 20 190
    else if off = 0x44 ∨ off = 0x48 then (if lo = 24 then between 1 64 else if lo = 14 then between 1 1023 else v) else v
  | .hst => if off = 0x40 ∧ lo = 8 then between 2 31 else v
  | _ => v

/-- Store a written word in the register at `page`, `off`: RW fields take their bits, W1C fields clear where the bit is 1
(R490, R491). -/
def storeReg (page off v : Nat) (s : State) : State :=
  match Blk.ofPage page with
  | none => s
  | some (b, _) =>
    (regFields b off).foldl (fun s r =>
      let f : Fld := ⟨4096 * page + off, r.lo, r.width⟩
      let w := v / 2 ^ r.lo % 2 ^ r.width
      match r.acc with
      | .rw => s.wr f (clampField b off r.lo w)
      | .w1c => if w ≠ 0 then s.wr f 0 else s
      | _ => s) s

/-- A command register is written: without go its fields are stored; with go the operation runs, unless the command is
busy, where go is ignored. A write that carries a refused value stores nothing, and its go is refused (R493). -/
def cmdWrite (p off v go : Nat) (busy refused : Fld) (op : Option (State → Host.Outcome State Fault Refusal)) (s : State) : State :=
  let acts := bit v go && !s.on busy
  match op with
  | none => if acts then s.wr refused 1 else s
  | some f => let s := storeReg p off v s; if acts then after (f s) s else s

/-- A write to a staged bank (R292): dropped while a submission or re-check runs. -/
def stagedWrite (f : State → State) (s : State) : State :=
  if s.on R.PRK_CMD_busy then s.wr R.PRK_STAT_wdrop 1 else f s

/-- ADAPT_CFG is written (R119). -/
def writeAdaptCfg (c v : Nat) (s : State) : State := adaptEnable c (storeReg (0x20 + c) 0x40 v s)

/-- A clear register: the row that stands for it runs where bit 0 is written 1. -/
def clearWrite (v : Nat) (f : State → Host.Outcome State Fault Refusal) (s : State) : State :=
  if bit v 0 then after (f s) s else s

def writeGlb (off v : Nat) (s : State) : State :=
  if off = 0x54 then cmdWrite 0 off v 17 R.BOOT_CMD_busy R.BOOT_CMD_refused
    (if bits v 1 0 = 0 then some execBootRelease else none) s
  else if off = 0x104 then
    (if 2 ≤ bits v 1 0 || bits v 10 8 = 7 then
      (if bit v 17 && !s.on R.FENCE_CMD_busy then fenceCmd (bits v 1 0) (bits v 10 8) s else s) else
    cmdWrite 0 off v 17 R.FENCE_CMD_busy R.FENCE_CMD_refused
      (some (if bits v 1 0 = 0 then execFenceCmdFence (bits v 10 8) else execFenceCmdLift (bits v 10 8))) s)
  else storeReg 0 off v s

def writeClk (off v : Nat) (s : State) : State :=
  if off = 0x40 then after (execClkCfgWrite v s) s
  else if off = 0x58 then cmdWrite 1 off v 17 R.FM_CMD_busy R.FM_CMD_refused (some execFmStart) s
  else storeReg 1 off v s

/-- SUP_CLR (R418): the minima start again and SUP_CNT is zero. -/
def supClear (s : State) : State :=
  (List.range 4).foldl (fun s i => (s.wr (R.SUP_V_min i) 0xFFF).wr (R.SUP_CNT_cnt i) 0) s

def writePwr (off v : Nat) (s : State) : State :=
  if off = 0x40 then cmdWrite 2 off v 17 R.PL_CMD_busy R.PL_CMD_refused (some (execPlRequest (bits v 16 16) (bits v 1 0))) s
  else if off = 0x50 then cmdWrite 2 off v 17 R.WATCH_CMD_busy R.WATCH_CMD_refused
    (if bits v 1 0 = 0 then some (execWatchEnter (bit v 8)) else if bits v 1 0 = 1 then some execWatchWake else none) s
  else if off = 0x11C then (if bit v 0 then supClear s else s)
  else storeReg 2 off v s

/-- TMP_PEAK starts again (R419). -/
def peakRestart (s : State) : State :=
  { (s.wr R.TMP_PEAK_peak 0).wr R.TMP_PEAK_cluster 0 with sup := { s.sup with peakSet := false } }

def writeTmp (off v : Nat) (s : State) : State :=
  if off = 0x48 then (if bit v 0 then peakRestart s else s) else storeReg 3 off v s

/-- INT and INTF: completions, doorbells (R434). -/
def writeInt (fast : Bool) (off v : Nat) (s : State) : State :=
  if off = 0x44 ∨ off = 0x54 ∨ off = 0x64 then
    after (execIntComplete fast ((off - 0x44) / 16) (bits v 9 0) (bits v 14 12) s) s
  else if off = 0x84 ∧ !fast then after (execDoorbellWrite (bits v 7 0) s) s
  else storeReg (4 + cls fast) off v s

def writeBst (off v : Nat) (s : State) : State :=
  if off = 0x40 then after (execBstCfgWrite v s) s
  else if off = 0x44 then cmdWrite 7 off v 17 R.BST_CMD_busy R.BST_CMD_refused
    (match bits v 2 0 with
    | 0 => some (execBstBobbinNow (bits v 11 8))
    | 1 => some execBstAbort
    | 2 => some execBstFull
    | 3 => some (execBstTestEnter (bits v 31 24))
    | _ => none) s
  else if 0x104 ≤ off ∧ off ≤ 0x130 then
    (match selectedLane s with
    | none => s
    | some n =>
      if off = 0x104 then after (execLbCfgWrite n v s) s
      else if off = 0x108 then after (execPrbsGenWrite n v s) s
      else if off = 0x110 then after (execPrbsChkWrite n v s) s
      else if off = 0x11C then clearWrite v (execPrbsClr n) s
      else storeReg (lanePage n) off v s)
  else storeReg 7 off v s

def writeSec (off v : Nat) (s : State) : State :=
  if off = 0x40 then
    (if !bit v 17 || s.on R.KEY_CMD_busy then (if 4 ≤ bits v 2 0 then s else storeReg 8 off v s) else keyGo (bits v 2 0) (bits v 9 8) s)
  else if off = 0x48 then (if bit v 17 then attGo s else s)
  else if 0xE0 ≤ off ∧ off < 0x140 then s.wr (R.KEY_DATA_data ((off - 0xE0) / 4)) v
  else storeReg 8 off v s

def writePct (off v : Nat) (s : State) : State :=
  if off = 0x44 then cmdWrite 0xA off v 17 R.PCT_CMD_busy R.PCT_CMD_refused
    (if bits v 1 0 = 0 then some execPctEnumerate else if bits v 1 0 = 1 then some execPctGo else none) s
  else storeReg 0xA off v s

/-- PRK_CMD and COMMIT refuse a go while busy (R292). -/
def writePrk (off v : Nat) (s : State) : State :=
  if off = 0x40 then
    (if !bit v 17 then (if bits v 1 0 = 3 then s else storeReg 0xC off v s)
    else match bits v 1 0 with
    | 0 => after (execPrkCommit s) s
    | 1 => after (execPrkCheck s) s
    | 2 => after (execPrkRevert s) s
    | _ => (s.wr R.PRK_STAT_wdrop 0).wr R.PRK_CMD_refused 1)
  else if off = 0x54 then stagedWrite (storeReg 0xC off v) s
  else storeReg 0xC off v s

def writeMap (off v : Nat) (s : State) : State :=
  if off = 0x48 then cmdWrite 0xD off v 17 R.SWP_CMD_busy R.SWP_CMD_refused
    (match bits v 1 0 with
    | 0 => some (execSwpSwap (bits v 11 8) (bits v 6 4))
    | 1 => some (execSwpReturn (bits v 11 8))
    | 2 => some (execSwpEnable (bits v 11 8))
    | _ => some (execSwpDisable (bits v 11 8))) s
  else if 0x400 ≤ off ∧ off < 0x800 then after (execSideMapWrite ((off - 0x400) / 4) v s) s
  else if 0x800 ≤ off ∧ off < 0xA00 then after (execLanePosWrite ((off - 0x800) / 4) v s) s
  else storeReg 0xD off v s

def writeFmc (off v : Nat) (s : State) : State :=
  if off = 0x48 then (if bit v 16 then after (execBtLoad s) s else s)
  else if off = 0x54 then (if bit v 24 then after (execFlashCommand v s) s else if fcBad v then s else storeReg 0xE off v s)
  else storeReg 0xE off v s

def writeClu (c off v : Nat) (s : State) : State :=
  let p := 0x10 + c
  let d := Dir.ofIdx (bits v 16 16)
  if off = 0x50 then cmdWrite p off v 16 (R.TERM_CMD_busy c) (R.TERM_CMD_refused c)
    (some (execTerminationDetect c (bits v 8 0) (bit v 9) (bit v 10))) s
  else if off = 0x58 then clearWrite v (execCntCtlClear c) s
  else if off = 0x308 then cmdWrite p off v 17 (R.CK_CMD_busy c) (R.CK_CMD_refused c)
    (match bits v 1 0 with
    | 0 => some (execCkToForwarded c d)
    | 1 => some (execCkToFallback c d)
    | 2 => some (execCkReturnOwn c d)
    | _ => none) s
  else if off = 0x300 then standbySync c (storeReg p off v s)
  else if 0x80 ≤ off ∧ off < 0x2C0 ∧ (off - 0x80) % 0x40 = 0 then
    after (execLeCfgWrite (laneAt c ((off - 0x80) / 0x40)) v s) s
  else storeReg p off v s

def writeEqa (c off v : Nat) (s : State) : State :=
  let p := 0x20 + c
  let sd := Side.ofIdx (bits v 16 16)
  if off = 0x40 then writeAdaptCfg c v s
  else if off = 0x48 then cmdWrite p off v 17 (R.ADAPT_CMD_busy c) (R.ADAPT_CMD_refused c)
    (if 8 < bits v 11 8 then none else match bits v 1 0 with
    | 0 => some (execAdaptReacquire c sd (bits v 11 8))
    | 1 => some (execAdaptFreeze c sd (bits v 11 8))
    | 2 => some (execAdaptThaw c sd (bits v 11 8))
    | _ => none) s
  else if 0x60 ≤ off ∧ off ≤ 0x70 then
    (match selectedPreset s c with
    | some q => storeReg q off v s
    | none => s)
  else if off = 0x74 then after (execDfeSelWrite c v s) s
  else if off = 0x104 then cmdWrite p off v 17 (R.CAL_CMD_busy c) (R.CAL_CMD_refused c)
    (if 37 < bits v 13 8 then none else match bits v 1 0 with
    | 0 => some (execCalEnd c (bits v 13 8))
    | 1 => some (execCalAll c)
    | 2 => some (execCalEye c (bits v 13 8))
    | _ => none) s
  else if off = 0x128 then after (execCalSelWrite c (bits v 5 0) s) s
  else storeReg p off v s

def writeDie (d off v : Nat) (s : State) : State :=
  let p := 0x38 + d
  if off = 0x54 then cmdWrite p off v 17 (R.BUF_CMD_busy d) (R.BUF_CMD_refused d)
    (if 32 < bits v 13 8 then none else match bits v 1 0 with
    | 0 => some (execBufRetire d (bits v 13 8))
    | 1 => some (execBufReturn d (bits v 13 8))
    | 2 => some (execBufTestNow d (bits v 13 8))
    | _ => none) s
  else if off = 0x50 then ceJudge d (storeReg p off v s)
  else if off = 0x64 then clearWrite v (execBufClr d) s
  else if off = 0x200 then after (execDescSelWrite d (bits v 15 0) s) s
  else storeReg p off v s

def writeLnk (k off v : Nat) (s : State) : State :=
  let p := 0x40 + k
  let sd := Side.ofIdx (bits v 16 16)
  if (0x40 ≤ off ∧ off < 0x60) ∨ off = 0xA00 ∨ (0xB00 ≤ off ∧ off < 0xB10) then stagedWrite (storeReg p off v) s
  else if off = 0x60 then (if bit v 17 then after (execLnkCommit k (bit v 0) s) s else storeReg p off v s)
  else if off = 0x808 then cmdWrite p off v 17 (R.TRN_CMD_busy k) (R.TRN_CMD_refused k)
    (match bits v 2 0 with
    | 0 => some (execTrnRetrain k sd)
    | 1 => some (execTrnStep k sd (bits v 10 8))
    | 2 => some (execTrnDown k)
    | 3 => some (execTrnRestart k sd)
    | _ => none) s
  else if off = 0x904 then clearWrite v (execFltClr k) s
  else if off = 0xA1C then clearWrite v (execDarnClr k) s
  else if off = 0xB58 then clearWrite v (execTrkClr k) s
  else storeReg p off v s

/-- The bits of an entry word that are not reserved (R244). -/
def llWordMask : Nat → Nat
  | 0 => 0xC000037F
  | 1 => 0x0000037F
  | 2 | 5 => 0xFFFFFFFF
  | 3 => 0x0FFF0FFF
  | 4 => 0x00000FFF
  | 6 => 0x0007FF00
  | _ => 0x0000FFFF

/-- The bits of a calendar entry that are not reserved (R253). -/
def calEntryMask : Nat := 0x8F0003FF

/-- An LLT page: the window writes the staged bank; with the live bank selected, writes are dropped (R265). -/
def writeLlt (q off v : Nat) (s : State) : State :=
  if 0x48 ≤ off ∧ off < 0x68 then
    (if s.on (R.LLT_SEL_bank q) then s
    else stagedWrite (fun s => s.wr (R.LLT_W_word (llStagedPage (llSelected s q)) ((off - 0x48) / 4))
      (v &&& llWordMask ((off - 0x48) / 4))) s)
  else if off = 0x78 then clearWrite v (execLlClr q) s
  else storeReg (0xC0 + q) off v s

/-- A CAL page (R266). -/
def writeCal (h off v : Nat) (s : State) : State :=
  let j := (off - 0x80) / 0x40
  let r := (off - 0x80) % 0x40
  if off = 0x44 then
    (if s.on (R.CAL_SEL_bank h) then s
    else stagedWrite (fun s =>
      s.wr (R.CAL_ENTRY (calSelPage s h (s.rd (R.CAL_SEL_j h))) (s.rd (R.CAL_SEL_ent h))) (v &&& calEntryMask)) s)
  else if 0x80 ≤ off ∧ off < 0x100 ∧ r < 0x0C then
    (if s.on (R.CAL_SEL_bank h) then s else stagedWrite (storeReg (calSelPage s h j) (0x80 + r) v) s)
  else if 0x80 ≤ off ∧ off < 0x100 ∧ r = 0x20 then clearWrite v (execCalClr (2 * h + j)) s
  else storeReg (0xC8 + h) off v s

/-- A write to a register of an open page, beyond the header. -/
def writeBlock (p off v : Nat) (s : State) : State :=
  match Blk.ofPage p with
  | some (.glb, _) => writeGlb off v s
  | some (.clk, _) => writeClk off v s
  | some (.pwr, _) => writePwr off v s
  | some (.tmp, _) => writeTmp off v s
  | some (.int, _) => writeInt false off v s
  | some (.intf, _) => writeInt true off v s
  | some (.ints, _) => if 0x40 ≤ off ∧ off < 0x540 then after (execSrcCfgWrite ((off - 0x40) / 4) v s) s else s
  | some (.bst, _) => writeBst off v s
  | some (.sec, _) => writeSec off v s
  | some (.pct, _) => writePct off v s
  | some (.prk, _) => writePrk off v s
  | some (.map, _) => writeMap off v s
  | some (.fmc, _) => writeFmc off v s
  | some (.clu, c) => writeClu c off v s
  | some (.eqa, c) => writeEqa c off v s
  | some (.die, d) => writeDie d off v s
  | some (.lnk, k) => writeLnk k off v s
  | some (.llt, q) => writeLlt q off v s
  | some (.cal, h) => writeCal h off v s
  | some (.qst, d) => if off = 0x40 then after (execQstSelWrite d (bits v 14 0) s) s else s
  | _ => storeReg p off v s

/-! ## Soft resets (R436, R478, R479) -/

/-- The refused bits of a page. -/
def refusedBits : Blk → Nat → List Fld
  | .glb, _ => [R.BOOT_CMD_refused, R.FENCE_CMD_refused]
  | .clk, _ => [R.FM_CMD_refused]
  | .pwr, _ => [R.PL_CMD_refused, R.WATCH_CMD_refused]
  | .bst, _ => R.BST_CMD_refused :: (List.range 144).map fun n => R.LB_CFG_refused (lanePage n)
  | .sec, _ => [R.KEY_CMD_refused, R.ATT_CMD_refused]
  | .pct, _ => [R.PCT_CMD_refused]
  | .prk, _ => [R.PRK_CMD_refused]
  | .map, _ => [R.SWP_CMD_refused]
  | .fmc, _ => [R.BT_CMD_refused, R.FC_CTL_refused]
  | .clu, c => [R.TERM_CMD_refused c, R.CK_CMD_refused c]
  | .eqa, c => [R.ADAPT_CMD_refused c, R.CAL_CMD_refused c]
  | .die, d => [R.BUF_CMD_refused d]
  | .lnk, k => [R.COMMIT_refused k, R.TRN_CMD_refused k]
  | _, _ => []

/-- The counters of a page, their latched values and the snapshot numbers. -/
def pageCounters : Blk → Nat → List Fld
  | .glb, _ => [R.WIRE_CNT]
  | .clk, _ => [R.FM_COUNT, R.MON_LAST_count, R.CLK_CNT_trips, R.CLK_CNT_returns, R.CLK_CNT_judge_fail, R.CLK_CNT_core_unlock]
  | .pwr, _ => [R.PL_CNT_changes, R.PL_CNT_refusals] ++ (List.range 4).map R.SUP_CNT_cnt
  | .int, _ => [R.STRAY_count]
  | .bst, _ => (List.range 144).flatMap fun n =>
      let v := lanePage n
      [R.PRBS_BITS_LO v, R.PRBS_BITS_HI v, R.PRBS_ERR v, R.PRBS_LOSS v, R.LB_EB v, R.PRBS_SNAP_snap_no v]
  | .hst, _ => [R.HST_CNT_spi_crc, R.HST_CNT_bad_op, R.HST_CNT_smb_pec, R.HST_CNT_smb_tmo, R.HST_FRAMES_spi, R.HST_FRAMES_smb]
  | .pct, _ => [R.PCT_CNT_crc, R.PCT_CNT_timeout, R.PCT_CNT_dropped, R.PCT_CNT_enums]
  | .sel, _ => [R.SEL_CNT_rx, R.SEL_CNT_tx, R.SEL_ERR_auth, R.SEL_ERR_malformed, R.SEL_ERR_busy, R.SEL_ERR_denied]
  | .prk, _ => [R.PRK_CNT_accepted, R.PRK_CNT_refused, R.PRK_RECHK_shed, R.PRK_RECHK_failed]
  | .map, _ => (List.range 16).flatMap fun j => [R.BOB_CNT_swaps j, R.BOB_CNT_returns j, R.BOB_CNT_abandons j, R.BOB_CNT_preempts j]
  | .clu, c => R.CNT_SNAP_set_disagree c :: R.CNT_SNAP_snap_no c :: clusterCounters c
  | .eqa, c => [R.ADAPT_CNT_acq_fail c, R.ADAPT_CNT_skipped c, R.CAL_CNT_runs c, R.CAL_CNT_disagree c]
  | .die, d => [R.SEAM_RETRY d, R.SEAM_FAIL d, R.SEAM_XFER_LO d, R.SEAM_XFER_HI d, R.BUF_SNAP_snap_no d] ++ bufCounters d
  | .lnk, k =>
    [R.TRN_CNT_downs k, R.TRN_CNT_retrains k, R.TRN_CNT_fallbacks k, R.TRN_CNT_collisions k, R.TRN_CNT_bad_kind k,
     R.TRN_DROP_drop k, R.FLT_SNAP_snap_no k, R.DARN_SNAP_snap_no k, R.TRK_SNAP_snap_no k, R.SENT_LO k, R.SENT_HI k] ++
    fltCounters k ++ ((fltCounters64 k).flatMap fun q => [q.1, q.2]) ++
    darnCounters k ++ ((darnCounters64 k).flatMap fun q => [q.1, q.2]) ++ trkCounters k
  | .llt, q => R.LL_SNAP_snap_no q :: (List.range 128).flatMap fun i => llCounters (128 * q + i)
  | .cal, h => R.CAL_SNAP_snap_no h 0 :: R.CAL_SNAP_snap_no h 1 :: (calCounters h 0 ++ calCounters h 1)
  | .qst, d => [R.QST_ORPHAN d]
  | _, _ => []

/-- The general effects of R478, which come at once: counters, latched values, snapshot numbers, EVENT_PEND and refused
bits. -/
def softClear (p : Nat) (s : State) : State :=
  match Blk.ofPage p with
  | none => s
  | some (b, i) =>
    let s := State.zeroLive (pageCounters b i) (State.zeroRegs (pageCounters b i) s)
    let s := State.zeroRegs (R.CLK_EN_refused p :: refusedBits b i) s
    let s := State.zeroRegs ((List.range 32).map (R.EVENT_PEND p)) s
    match b with
    | .rgn => s.syncEvents (i / 2)
    | .die => s.syncEvents i
    | _ => s

/-- The services of a class end, and the served source stops being active: that of another package by the complete message that
the head sends for it (R429, R433). -/
def endServices (c : Nat) (s : State) : State :=
  (List.range 3).foldl (fun s t =>
    if s.on (R.BANK_serving c t) then
      let src := s.rd (R.BANK_source c t)
      let ring := s.rd (R.BANK_ring c t)
      let s := bankIdle c t s
      if t = 2 && ring ≠ 0 then s.sendTo ring 9 (beBytes 2 src) else endService src s
    else s) s

/-- A soft reset of INT or INTF (R433, R436). -/
def intSoftReset (fast : Bool) (s : State) : State :=
  let s := endServices (cls fast) s
  if isHead s then { s with entries := s.entries.filter fun e => e.fast ≠ fast } else s

/-- A soft reset of INTS (R436). -/
def intsSoftReset (s : State) : State :=
  let s := (List.range 320).foldl (fun s i =>
    let s := ((s.wr (R.SRC_CFG_pend i) 0).wr (R.SRC_CFG_count i) 0).wr (R.SRC_CFG_active i) 0
    (((s.unset (R.SRC_CFG_target i)).unset (R.SRC_CFG_class i)).unset (R.SRC_CFG_sense i)).unset (R.SRC_CFG_en i)) s
  let s := { s with ring := { s.ring with resend := [] } }
  let s := [0, 1].foldl (fun s c => (List.range 3).foldl (fun s t =>
    if s.on (R.BANK_serving c t) && !(t = 2 && s.rd (R.BANK_ring c t) ≠ 0) then bankIdle c t s else s) s) s
  let s := { s with entries := s.entries.filter fun e => e.ring ≠ 0 }
  (List.range 320).foldl (fun s i => s.relevel i) s

/-- A soft reset of EQA[c] (R369, R479). -/
def eqaSoftReset (c : Nat) (s : State) : State :=
  let s := calAbortAny c (s.wr (R.ADAPT_STAT_preset_fault c) 0)
  let s := s.putCal c { s.calSeq c with queue := [] }
  engineNext c (State.zeroRegs ([R.EQA_CAL_LAST_valid c, R.CAL_LAST_result c, R.CAL_LAST_cause c, R.CAL_LAST_end c, R.CAL_LAST_temp c] ++
    (List.range 38).map (R.CAL_DUE c)) s)

/-- The effects of the table of R479. -/
def softEffects (p : Nat) (s : State) : State :=
  match Blk.ofPage p with
  | some (.glb, _) => State.zeroRegs [R.WIRE_LAST_valid, R.WIRE_LAST_kind, R.WIRE_LAST_side, R.WIRE_LAST_index] s
  | some (.clk, _) => fmAbort s
  | some (.pwr, _) => State.zeroRegs [R.PL_LAST_valid, R.PL_LAST_why, R.PL_LAST_die, R.PL_LAST_level, R.PL_LAST_us] s
  | some (.tmp, _) => peakRestart (s.wr R.TMP_STAT_shut 0)
  | some (.int, _) => intSoftReset false s
  | some (.intf, _) => intSoftReset true s
  | some (.ints, _) => intsSoftReset s
  | some (.sec, _) => clearKeyData s
  | some (.sel, _) => State.zeroRegs [R.SEL_LAST_valid, R.SEL_LAST_cause, R.SEL_LAST_slot, R.SEL_LAST_side, R.SEL_LAST_link] s
  | some (.map, _) => State.zeroRegs [R.MAP_TORN_LAST_valid, R.MAP_TORN_LAST_entry] s
  | some (.eqa, c) => eqaSoftReset c s
  | some (.rgn, r) => State.zeroRegs [R.DARN_LAST_valid r, R.DARN_LAST_event r, R.DARN_LAST_dir r, R.DARN_LAST_index r,
      R.TRK_LAST_valid r, R.TRK_LAST_event r, R.TRK_LAST_index r] s
  | some (.die, d) =>
    State.zeroRegs [R.ECC_CE_LAST_valid d, R.ECC_CE_LAST_word d, R.ECC_CE_LAST_bank d, R.ECC_CE_LAST_slot d, R.ECC_CE_LAST_bit d,
      R.ECC_UE_LAST_valid d, R.ECC_UE_LAST_word d, R.ECC_UE_LAST_bank d, R.ECC_UE_LAST_slot d, R.ECC_UE_LAST_tag d,
      R.ECC_UE_LAST_desc d, R.SEAM_STAT_failed d] (s.wr (R.BUF_OCC_peak d) (bufLive s d))
  | some (.llt, q) => State.zeroRegs [R.TORN_LAST_valid q, R.TORN_LAST_llid q] s
  | some (.cal, h) => if h = 0 then State.zeroRegs [R.CAL_LAST_valid 0, R.CAL_LAST_cal 0] s else s
  | _ => s

/-- SOFT_RESET.go is written: ignored while busy; dropped in a page that does not answer (R346, R478). -/
def softReset (p : Nat) (s : State) : State :=
  if s.on (R.SOFT_RESET_busy p) then s else (softClear p s).wr (R.SOFT_RESET_busy p) 1

def execSoftReset (page : Nat) (s : State) : Host.Outcome State Fault Refusal := .next (ifOpen page s (softReset page s))

/-! ## A write access -/

/-- A register is written (R482, R483, R491). An address whose bits 1:0 are not zero writes nothing. CLK_EN answers in a gated page; the events of a block page follow EVENT_PEND and
EVENT_EN. -/
def hostWrite (addr v : Nat) (s : State) : State :=
  let p := addr / 4096
  let off := addr % 4096
  let v := v % 2 ^ 32
  if addr % 4 ≠ 0 then s
  else if !pageExists s p || !phaseOpens s p then s
  else if off = 8 then after (execClkEnWrite p v s) s
  else if pageGated s p then s
  else if off = 0xC then (if bit v 0 then softReset p s else s)
  else if 0x20 ≤ off && off < 0x40 then s
  else if off < 0x40 then
    let s := storeReg p off v s
    (match Blk.ofPage p with
    | some (.rgn, r) => s.syncEvents (r / 2)
    | some (.die, d) => s.syncEvents d
    | _ => s)
  else if absentReg s p off then s
  else writeBlock p off v s

/-- An access to the page of an address waits for its soft reset (R478). -/
def pageSoftBusy (s : State) (addr : Nat) : Bool := pageOpen s (addr / 4096) && s.on (R.SOFT_RESET_busy (addr / 4096))

/-- A write of SOFT_RESET while the page's busy is 1 is ignored (R478, R497). -/
def goIgnored (s : State) (addr : Nat) : Bool := pageSoftBusy s addr && addr % 4096 = 0xC

/-- An access of a port waits: for the soft reset of its page, or because one of the same port waits before it, for those take
effect in the order received (R345, R478). Ports: 0 SPI, 1 SMBus, 2 the ring, 4 an access without a frame. -/
def mustWait (s : State) (port addr : Nat) : Bool :=
  pageSoftBusy s addr || (port ≠ 2 && s.host.heldAcc.any fun a => a.port = port)

/-- The address breaks R438: bits 1:0, a reserved address bit, or a block across a page boundary. -/
def badRange (addr n : Nat) : Bool := addr % 4 ≠ 0 || 2 ^ 20 ≤ addr || 4096 < addr % 4096 + 4 * n

/-- Keep an access until the soft reset of its page completes. -/
def holdAccess (a : HeldAccess) (s : State) : State := { s with host := { s.host with heldAcc := s.host.heldAcc ++ [a] } }

/-- LO_READ_LATCH (R494): a read of a register; it answers the word. One that ends with RANGE does nothing (R482). -/
def execLoReadLatch (addr : Nat) (s : State) : Host.Outcome State Fault Refusal :=
  .next (if badRange addr 1 then s else if mustWait s 4 addr then holdAccess { port := 4, addr := addr } s else
    let r := hostRead addr s
    r.2.answerWord r.1)

/-- REGISTER_WRITE (R491). One that ends with RANGE does nothing (R482). -/
def execRegisterWrite (addr v : Nat) (s : State) : Host.Outcome State Fault Refusal :=
  .next (if badRange addr 1 || goIgnored s addr then s
    else if mustWait s 4 addr then holdAccess { port := 4, write := true, addr := addr, words := [v] } s else hostWrite addr v s)

end Sys2Proof.Machine
end

