-- ==== Sys2Proof/Machine/HostPorts.lean ====
section
/-!
DEFINITION. The host ports (chapter Host ports, rings, the selvedge channel and identity, R437-R444, R452): SPI frames,
SMBus commands, remote accesses over the rings, and the accesses that wait for a soft reset (R478).
-/

namespace Sys2Proof.Machine

open Sys2Proof

/-! ## Status codes (R438) -/

def stOk : Nat := 0
def stPending : Nat := 1
def stCrc : Nat := 2
def stRange : Nat := 3
def stNoTarget : Nat := 4
def stBusy : Nat := 5
def stTimeout : Nat := 6
def stDenied : Nat := 7
def stNoResult : Nat := 8

/-! ## Ports -/

def State.port (s : State) (p : Nat) : PortSt := if p = 0 then s.host.spi else s.host.smb
def State.putPort (s : State) (p : Nat) (v : PortSt) : State :=
  if p = 0 then { s with host := { s.host with spi := v } } else { s with host := { s.host with smb := v } }

/-- `n` words whose values no rule states: free values (log 207). -/
def freeWords : Nat → State → List Nat × State
  | 0, s => ([], s)
  | n + 1, s =>
    let p := s.draw
    let r := freeWords n p.2
    (Config.freeValue p.1 % 2 ^ 32 :: r.1, r.2)

/-- The ports run: everywhere but in reset (R352, R474), while the management domain runs (R336). -/
def portRuns (s : State) : Bool := s.dev.phase != .off && !mgmtHeld s

/-- An access of the port returns PENDING: FETCH now returns its result, once there is one (R442). -/
def portPending (p len : Nat) (s : State) : State :=
  let v := s.port p
  s.putPort p { v with serial := v.serial + 1, len := len, result := none }

/-- The result of PENDING access number `serial` is there. -/
def portResult (p serial status : Nat) (words : List Nat) (s : State) : State :=
  let v := s.port p
  if v.serial = serial then s.putPort p { v with result := some (status, words) } else s

/-! ## Local accesses (R437, R438) -/

/-- The words of a block are read one after another. -/
def readWords : Nat → Nat → State → List Nat × State
  | 0, _, s => ([], s)
  | n + 1, addr, s =>
    let r := hostRead addr s
    let t := readWords n (addr + 4) r.2
    (r.1 :: t.1, t.2)

/-- The words of a block that a port writes, one after another; those that have to wait are kept (R345, R478). -/
def writeWords (port : Nat) : List Nat → Nat → State → State
  | [], _, s => s
  | w :: t, addr, s =>
    if goIgnored s addr then writeWords port t (addr + 4) s
    else if mustWait s port addr then holdAccess { port := port, write := true, addr := addr, words := w :: t } s
    else writeWords port t (addr + 4) (hostWrite addr w s)

/-! ## Remote accesses (R442, R452) -/

/-- Send the REQ of the first word left. -/
def sendReq (r : Remote) (s : State) : Remote × State :=
  let tag := s.ring.nextTag % 256
  let s := { s with ring := { s.ring with nextTag := (tag + 1) % 256 } }
  let data := if r.write then r.left.headD 0 else 0
  ({ r with tag := tag, sentAt := s.clock }, s.sendTo r.target 6 ([tag, b2n r.write] ++ beBytes 3 r.addr ++ beBytes 4 data))

/-- The ring id is enumerated and has a route (R438, R448). -/
def reachable (s : State) (target : Nat) : Bool := bit (s.rd R.PCT_STAT_present) target && (routeTo s target).isSome

/-- A remote access of a port: its status, and PENDING with the first REQ on its way. -/
def remoteAccess (p target : Nat) (write : Bool) (addr : Nat) (words : List Nat) (s : State) : Nat × State :=
  if (s.port p).remote.isSome then (stBusy, s)
  else if !isHead s || !reachable s target then (stNoTarget, s)
  else
    let s := portPending p words.length s
    let r := sendReq { target := target, write := write, addr := addr, left := words, serial := (s.port p).serial } s
    (stPending, r.2.putPort p { r.2.port p with remote := some r.1 })

/-- A remote access has ended: its result, with free values for the words that no RSP carried. -/
def remoteEnd (p : Nat) (r : Remote) (status : Nat) (s : State) : State :=
  let s := s.putPort p { s.port p with remote := none }
  let got := if r.write then [] else r.got
  let w := freeWords (r.got.length + r.left.length - got.length) s
  portResult p r.serial status (got ++ w.1) w.2

/-- The first status that is not OK. -/
def firstBad (a b : Nat) : Nat := if a ≠ 0 then a else b

/-- The port whose remote access waits for a tag. -/
def portOfTag (s : State) (tag : Nat) : Option (Nat × Remote) :=
  [0, 1].findSome? fun p => match (s.port p).remote with
    | some r => if r.tag = tag then some (p, r) else none
    | none => none

/-- An RSP at the head (R452): the word it answers is done; the next one follows. -/
def rspArrives (x : Msg) (s : State) : State :=
  match portOfTag s (x.body.getD 0 0) with
  | none => s
  | some (p, r) =>
    let r := { r with got := r.got ++ [beNat (x.body.drop 2)], left := r.left.drop 1, addr := r.addr + 4,
                      status := firstBad r.status (x.body.getD 1 0) }
    if r.left = [] then remoteEnd p r r.status s
    else
      let q := sendReq r s
      q.2.putPort p { q.2.port p with remote := some q.1 }

/-- RING_RSP (R452). -/
def execRingRsp (d : Nat) (msg : RingMsg) (s : State) : Host.Outcome State Fault Refusal :=
  onRing d s (arrive 7 d msg (routed d rspArrives) s)

/-- REMOTE_TIMEOUT (R452), 20 µs after the REQ: the later words are not sent. -/
def execRemoteTimeout (tag : Nat) (s : State) : Host.Outcome State Fault Refusal :=
  .next (match portOfTag s tag with
    | some (p, r) => if r.sentAt + 20000 ≤ s.clock then remoteEnd p r (firstBad r.status stTimeout) (s.bump R.PCT_CNT_timeout) else s
    | none => s)

/-! ## Requests from the head (R452) -/

/-- RSP goes back on the ring other than the one that carried the REQ (R448). -/
def sendRsp (d tag status data : Nat) (s : State) : State :=
  s.sendOn (1 - d) (ringBytes 7 0 (ownId s) ([tag, status] ++ beBytes 4 data))

/-- The access of a REQ is done and answered. The data of an RSP to a write is a free value. -/
def ringAccess (d tag : Nat) (write : Bool) (addr data : Nat) (s : State) : State :=
  if write then
    let w := freeWords 1 (hostWrite addr data s)
    sendRsp d tag stOk (w.1.headD 0) w.2
  else
    let r := hostRead addr s
    sendRsp d tag stOk r.1 r.2

/-- A REQ at its destination: only the head's are answered (R452). An op that does not exist is not answered (log 208). -/
def reqArrives (d : Nat) (x : Msg) (s : State) : State :=
  let tag := x.body.getD 0 0
  let op := x.body.getD 1 0
  let addr := beNat ((x.body.drop 2).take 3)
  let data := beNat (x.body.drop 5)
  if x.src ≠ 0 || 2 ≤ op then s
  else if badRange addr 1 then
    let w := freeWords 1 s
    sendRsp d tag stRange (w.1.headD 0) w.2
  else if op = 1 && goIgnored s addr then
    let w := freeWords 1 s
    sendRsp d tag stOk (w.1.headD 0) w.2
  else if mustWait s 2 addr then
    holdAccess { port := 2, write := op = 1, addr := addr, words := [data], tag := tag, ring := d } s
  else ringAccess d tag (op = 1) addr data s

/-- RING_REQ (R452). -/
def execRingReq (d : Nat) (msg : RingMsg) (s : State) : Host.Outcome State Fault Refusal :=
  onRing d s (arrive 6 d msg (routed d (reqArrives d)) s)

/-! ## Accesses of a host port -/

/-- A read of `n` words by a port: the status and the words it answers. A local read that is not ready in time, or that has to
wait, is PENDING, and FETCH returns it (R441, R444, R478). -/
def portRead (p target addr n : Nat) (late : Bool) (s : State) : Nat × List Nat × State :=
  if badRange addr n then
    let w := freeWords n s
    (stRange, w.1, w.2)
  else if target ≠ ownId s then
    let r := remoteAccess p target false addr (List.replicate n 0) s
    let w := freeWords n r.2
    (r.1, w.1, w.2)
  else if mustWait s p addr then
    let s := portPending p n s
    let s := holdAccess { port := p, addr := addr, words := List.replicate n 0, tag := (s.port p).serial } s
    let w := freeWords n s
    (stPending, w.1, w.2)
  else
    let r := readWords n addr s
    if late then
      let s := portPending p n r.2
      let s := portResult p (s.port p).serial stOk r.1 s
      let w := freeWords n s
      (stPending, w.1, w.2)
    else (stOk, r.1, r.2)

/-- A write by a port: the status, and the state after it. -/
def portWrite (p target addr : Nat) (words : List Nat) (s : State) : Nat × State :=
  if badRange addr words.length then (stRange, s)
  else if target ≠ ownId s then remoteAccess p target true addr words s
  else (stOk, writeWords p words addr s)

/-- FETCH (R442, R444): the result of the last PENDING access, PENDING before it is there, NO_RESULT without one. -/
def portFetch (p : Nat) (s : State) : Nat × List Nat × State :=
  let v := s.port p
  if v.serial = 0 then (stNoResult, [0], s)
  else match v.result with
  | some r => (r.1, r.2, s)
  | none =>
    let w := freeWords v.len s
    (stPending, w.1, w.2)

/-! ## SPI frames (R439-R442) -/

/-- The request bytes of a frame. -/
def spiBytes (op : Nat) (quad : Bool) (addr : Nat) (data : List Nat) : List Nat :=
  (op + b2n quad * 128) :: (beBytes 4 addr ++ data.flatMap (beBytes 4))

/-- The device's answer: status, and for frames that read the words and the response CRC (R440). -/
def spiAnswer (reads : Bool) (status : Nat) (words : List Nat) (s : State) : State :=
  let bytes := status :: words.flatMap (beBytes 4)
  { s with host := { s.host with answer := if reads then status :: (words ++ [crc8 bytes]) else [status] } }

/-- A counted frame ends with a status (R441). -/
def spiDone (isStatus reads : Bool) (r : Nat × List Nat × State) : State :=
  let s := spiAnswer reads r.1 r.2.1 (r.2.2.wr R.HST_STAT_spi_last r.1)
  if isStatus then s else s.putPort 0 { s.port 0 with last := some r.1 }

/-- A frame with a known opcode: counted; one whose request CRC fails returns CRC and `n` zero words. -/
def spiFrame (op : Nat) (quad : Bool) (addr : Nat) (data : List Nat) (crc n : Nat) (isStatus reads : Bool)
    (act : State → Nat × List Nat × State) (s : State) : State :=
  if !portRuns s then s else
  let s := (s.bump R.HST_FRAMES_spi).freshOut
  if crc8 (spiBytes op quad addr data) ≠ crc % 256 then
    spiDone isStatus reads (stCrc, List.replicate n 0, s.bump R.HST_CNT_spi_crc)
  else spiDone isStatus reads (act s)

/-- The parts of an address word (R440). -/
def awTarget (a : Nat) : Nat := bits a 31 29
def awLen (a : Nat) : Nat := bits a 28 24
def awAddr (a : Nat) : Nat := bits a 23 0

/-- Run one after the other: a frame that is not a block has zero in [28:24] (R441). -/
def singleOnly (addr n : Nat) (s : State) (r : Nat × List Nat × State) : Nat × List Nat × State :=
  if awLen addr ≠ 0 then
    let w := freeWords n s
    (stRange, w.1, w.2)
  else r

/-- SPI_WRITE (R441). -/
def execSpiWrite (quad : Bool) (addr data crc : Nat) (s : State) : Host.Outcome State Fault Refusal :=
  .next (spiFrame 1 quad addr [data] crc 0 false false (fun s => singleOnly addr 0 s (
    let r := portWrite 0 (awTarget addr) (awAddr addr) [data] s
    (r.1, [], r.2))) s)

/-- SPI_READ (R441). -/
def execSpiRead (quad : Bool) (addr crc : Nat) (late : Bool) (s : State) : Host.Outcome State Fault Refusal :=
  .next (spiFrame 2 quad addr [] crc 1 false true
    (fun s => singleOnly addr 1 s (portRead 0 (awTarget addr) (awAddr addr) 1 late s)) s)

/-- SPI_WRITE_BLOCK (R440): a frame without exactly len words is cut short and does nothing. -/
def execSpiWriteBlock (quad : Bool) (addr : Nat) (data : List Nat) (crc : Nat) (s : State) : Host.Outcome State Fault Refusal :=
  .next (if data.length ≠ awLen addr + 1 then s else
    spiFrame 3 quad addr data crc 0 false false (fun s =>
      let r := portWrite 0 (awTarget addr) (awAddr addr) data s
      (r.1, [], r.2)) s)

/-- SPI_READ_BLOCK (R440). -/
def execSpiReadBlock (quad : Bool) (addr crc : Nat) (late : Bool) (s : State) : Host.Outcome State Fault Refusal :=
  .next (spiFrame 4 quad addr [] crc (awLen addr + 1) false true
    (fun s => portRead 0 (awTarget addr) (awAddr addr) (awLen addr + 1) late s) s)

/-- The words that a FETCH frame carries: those of the last PENDING access, or one. -/
def fetchLen (s : State) (p : Nat) : Nat := if (s.port p).serial = 0 then 1 else (s.port p).len

/-- SPI_FETCH (R440, R442): the address word must be zero. -/
def execSpiFetch (quad : Bool) (addr crc : Nat) (s : State) : Host.Outcome State Fault Refusal :=
  .next (spiFrame 5 quad addr [] crc (fetchLen s 0) false true (fun s =>
    if addr % 2 ^ 32 ≠ 0 then (stRange, List.replicate (fetchLen s 0) 0, s) else portFetch 0 s) s)

/-- SPI_STATUS (R440, R441). -/
def execSpiStatus (quad : Bool) (addr crc : Nat) (s : State) : Host.Outcome State Fault Refusal :=
  .next (spiFrame 6 quad addr [] crc 1 true true (fun s =>
    singleOnly addr 1 s ((s.port 0).last.getD stNoResult, [0], s)) s)

/-- The opcodes of R440. -/
def spiKnown (op : Nat) : Bool := (1 ≤ op && op ≤ 6) || (0x81 ≤ op && op ≤ 0x86)

/-- SPI_BAD_OPCODE (R441): the frame is ignored and counted. -/
def execSpiBadOpcode (op : Nat) (s : State) : Host.Outcome State Fault Refusal :=
  .next (if portRuns s && !spiKnown op then (s.bump R.HST_FRAMES_spi).bump R.HST_CNT_bad_op else s)

/-! ## SMBus (R443, R444) -/

/-- The address byte of the port, for a write; a read adds one. -/
def smbAddr (s : State) : Nat := (0x58 + s.rd R.STRAPS_addr) * 2

/-- An access ends with a status. -/
def smbDone (status : Nat) (s : State) : State :=
  let s := (s.bump R.HST_FRAMES_smb).wr R.HST_STAT_smb_last status
  s.putPort 1 { s.port 1 with last := some status }

/-- A block write of four bytes is taken where its PEC matches, or is absent and not required (R443). -/
def pecOk (s : State) (cmd data : Nat) (pec : Option Nat) : Bool :=
  match pec with
  | some c => crc8 ([smbAddr s, cmd, 4] ++ beBytes 4 data) = c % 256
  | none => !s.on R.HST_CFG_pec_req

/-- A block write: its status is CRC where its PEC does not pass, and it is not executed. -/
def smbBlockWrite (cmd data : Nat) (pec : Option Nat) (act : State → Nat × State) (s : State) : State :=
  if !portRuns s then s else
  let s := s.freshOut
  if pecOk s cmd data pec then
    let r := act s
    smbDone r.1 r.2
  else smbDone stCrc (s.bump R.HST_CNT_smb_pec)

/-- SMB_POINTER (R444). -/
def execSmbPointer (ptr : Nat) (pec : Option Nat) (s : State) : Host.Outcome State Fault Refusal :=
  .next (smbBlockWrite 0x10 ptr pec (fun s =>
    if awLen ptr ≠ 0 || ptr % 4 ≠ 0 then (stRange, s)
    else (stOk, { s with host := { s.host with ptr := ptr % 2 ^ 32 } })) s)

/-- The pointer moves on where smb_inc is 1 and the status is OK (R444). -/
def smbStep (status : Nat) (s : State) : State :=
  if status = stOk && s.on R.HST_CFG_smb_inc then { s with host := { s.host with ptr := (s.host.ptr + 4) % 2 ^ 32 } } else s

/-- SMB_WRITE (R444). -/
def execSmbWrite (data : Nat) (pec : Option Nat) (s : State) : Host.Outcome State Fault Refusal :=
  .next (smbBlockWrite 0x11 data pec (fun s =>
    let inc := s.on R.HST_CFG_smb_inc
    let r := portWrite 1 (awTarget s.host.ptr) (awAddr s.host.ptr) [data % 2 ^ 32] s
    (r.1, if inc && r.1 = stOk then { r.2 with host := { r.2.host with ptr := (s.host.ptr + 4) % 2 ^ 32 } } else r.2)) s)

/-- The answer of a block read: status, word and PEC. -/
def smbAnswer (cmd status word : Nat) (s : State) : State :=
  let a := smbAddr s
  { s with host := { s.host with answer := [status, word, crc8 ([a, cmd, a + 1, 5, status] ++ beBytes 4 word)] } }

/-- SMB_READ (R444). -/
def execSmbRead (late : Bool) (s : State) : Host.Outcome State Fault Refusal :=
  .next (if !portRuns s then s else
    let r := portRead 1 (awTarget s.host.ptr) (awAddr s.host.ptr) 1 late s.freshOut
    smbDone r.1 (smbAnswer 0x12 r.1 (r.2.1.headD 0) (smbStep r.1 r.2.2)))

/-- SMB_FETCH (R442, R444). -/
def execSmbFetch (s : State) : Host.Outcome State Fault Refusal :=
  .next (if !portRuns s then s else
    let r := portFetch 1 s
    smbDone r.1 (smbAnswer 0x13 r.1 (r.2.1.headD 0) r.2.2))

/-- SMB_STATUS (R444): no access of its own (DEDUCED; log 209). -/
def execSmbStatus (s : State) : Host.Outcome State Fault Refusal :=
  .next (if !portRuns s then s else
    let a := smbAddr s
    let st := (s.port 1).last.getD stNoResult
    { s with host := { s.host with answer := [st, crc8 [a, 0x14, a + 1, st]] } })

/-- SMB_BUS_TIMEOUT (R443): the pointer is kept. -/
def execSmbBusTimeout (s : State) : Host.Outcome State Fault Refusal :=
  .next (if portRuns s then s.bump R.HST_CNT_smb_tmo else s)

/-! ## Soft resets complete (R478) -/

/-- An access that waited is completed. -/
def runAccess (s : State) (a : HeldAccess) : State :=
  if mustWait s a.port a.addr then holdAccess a s
  else if a.port = 2 then ringAccess a.ring a.tag a.write a.addr (a.words.headD 0) s
  else if a.write then writeWords a.port a.words a.addr s
  else
    let r := readWords (max a.words.length 1) a.addr s
    if a.port = 4 then r.2.answerWord (r.1.headD 0) else portResult a.port a.tag stOk r.1 r.2

/-- SOFT_RESET_DONE (R478, R479): the page's remaining effects, busy clears, and the accesses that waited are completed in
the order in which they came. -/
def execSoftResetDone (page : Nat) (s : State) : Host.Outcome State Fault Refusal :=
  .next (if s.on (R.SOFT_RESET_busy page) then
    let s := (softEffects page s.freshOut).wr (R.SOFT_RESET_busy page) 0
    s.host.heldAcc.foldl runAccess { s with host := { s.host with heldAcc := [] } }
  else s)

end Sys2Proof.Machine
end

