-- ==== Sys2Proof/Machine/Selvedge.lean ====
section
/-!
DEFINITION. The selvedge channel (chapter Host ports, rings, the selvedge channel and identity, R454-R456, R460): request
frames in SEL sets, their checks, the queue, and the responses.
-/

namespace Sys2Proof.Machine

open Sys2Proof

/-! ## Frames (R454) -/

def selKind (f : List Nat) : Nat := f.getD 0 0
def selN (f : List Nat) : Nat := f.getD 1 0
def selSlot (f : List Nat) : Nat := f.getD 2 0 % 4
def selTag (f : List Nat) : Nat := f.getD 3 0
def selCounter (f : List Nat) : Nat := beNat ((f.drop 4).take 8)
def selPayload (f : List Nat) : List Nat := (f.drop 16).take (selN f)
def selMac (f : List Nat) : List Nat := (f.drop (16 + selN f)).take 16
/-- Byte address and word count of a READ_REQ or a WRITE_REQ. -/
def selAddr (f : List Nat) : Nat := beNat ((selPayload f).take 3)
def selWords (f : List Nat) : Nat := (selPayload f).getD 3 0

/-- The payload has the shape its kind gives it. That another shape is malformed is DEDUCED (log 210). -/
def selShape (f : List Nat) : Bool :=
  let p := selPayload f
  match selKind f with
  | 1 => selN f = 4 && 1 ≤ selWords f && selWords f ≤ 15
  | 2 => selN f = 4 + 4 * selWords f && 1 ≤ selWords f && selWords f ≤ 15
  | 3 => selN f = 36 && p.getD 0 0 ≤ 4 && (p.drop 1).take 3 = [0, 0, 0]
  | _ => false

/-- Step 1 of R455. -/
def selMalformed (f : List Nat) : Bool :=
  f.length < 32 || selN f ≠ f.length - 32 || 4 ≤ f.getD 2 0 || (f.drop 12).take 4 ≠ [0, 0, 0, 0] || !selShape f

/-- The MAC of header and payload (R455); `rsp` is 0 in a request and 1 in a response. -/
def selMacOf (s : State) (key : List Nat) (k sd rsp : Nat) (bytes : List Nat) : List Nat :=
  exactly 16 (Config.hmac384 key (bytes ++ [ownId s, k, sd, rsp]))

def selKey (s : State) (slot : Nat) : Option (List Nat) := (s.sel.keys.find? fun p => p.1 = slot).map Prod.snd

/-- Steps 2 to 4 of R455: the cause, 0 for a frame that passes. -/
def selCause (s : State) (k sd : Nat) (f : List Nat) : Nat :=
  match selKey s (selSlot f) with
  | none => 3
  | some key =>
    if selCounter f ≤ s.live (R.SEL_CTR_LO_ctr (selSlot f)) then 2
    else if selMacOf s key k sd 0 (f.take (16 + selN f)) ≠ selMac f then 1 else 0

/-! ## Requests arrive (R455, R456) -/

/-- A frame fails authentication. -/
def selFail (k sd cause slot : Nat) (s : State) : State :=
  (((((((s.bump R.SEL_ERR_auth).wr R.SEL_LAST_valid 1).wr R.SEL_LAST_cause cause).wr R.SEL_LAST_slot slot).wr
    R.SEL_LAST_side sd).wr R.SEL_LAST_link k).raise 288)

def selSetQueue (q : List SelReq) (s : State) : State :=
  { s with sel := { s.sel with queue := q } }.wr R.SEL_STAT_queued q.length

/-- A request passes its checks: its counter is the last accepted; it is queued where there is room (log 211). -/
def selAccept (k sd : Nat) (f : List Nat) (s : State) : State :=
  let s := (s.putLive (R.SEL_CTR_LO_ctr (selSlot f)) (selCounter f)).bump R.SEL_CNT_rx
  if 4 ≤ s.sel.queue.length then s.bump R.SEL_ERR_busy
  else selSetQueue (s.sel.queue ++ [{ link := k, side := sd, frame := f }]) s

/-- A frame is checked. -/
def selFrame (k sd : Nat) (f : List Nat) (s : State) : State :=
  if selMalformed f then s.bump R.SEL_ERR_malformed
  else
    let c := selCause s k sd f
    if c ≠ 0 then selFail k sd c (selSlot f) s else selAccept k sd f s

/-- A SEL set arrives on a side (R454). One whose kind byte is that of another request belongs to that command. -/
def selReceive (kind k : Nat) (sd : Side) (heard : List Heard) (s : State) : State :=
  if !sideLive s k sd then s else
  match setArrives readSel k sd heard s with
  | (none, s) => s
  | (some f, s) =>
    let other := selKind f ≠ kind && 1 ≤ selKind f && selKind f ≤ 3
    if other || !spanUp s k sd || !s.on R.SEL_CFG_en || !pageOpen s 0xB then s
    else selFrame k sd.idx (f.map (· % 256)) s

/-- SEL_READ_REQ (R455, R456). -/
def execSelReadReq (k : Nat) (sd : Side) (heard : List Heard) (s : State) : Host.Outcome State Fault Refusal :=
  onUnit (k < linksOf s) (selReceive 1 k sd heard s)

/-- SEL_WRITE_REQ (R455, R456). -/
def execSelWriteReq (k : Nat) (sd : Side) (heard : List Heard) (s : State) : Host.Outcome State Fault Refusal :=
  onUnit (k < linksOf s) (selReceive 2 k sd heard s)

/-- SEL_ATTEST_REQ (R455, R460). -/
def execSelAttestReq (k : Nat) (sd : Side) (heard : List Heard) (s : State) : Host.Outcome State Fault Refusal :=
  onUnit (k < linksOf s) (selReceive 3 k sd heard s)

/-! ## Serving (R456, R460) -/

/-- The response counter of a slot. -/
def selRspCounter (s : State) (slot : Nat) : Nat := ((s.sel.rsp.find? fun p => p.1 = slot).map Prod.snd).getD 0

/-- The response to the oldest request is dropped: its link has left UP (R456). -/
def selDropped (q : SelReq) (s : State) : Bool := q.dropped || (s.sel.queue.head?.map SelReq.dropped).getD false

/-- The oldest request is answered with a status and, where that is OK, a payload. Where its slot no longer holds a key, no
rule gives the MAC: it is free (log 212). -/
def selRespond (q : SelReq) (status : Nat) (payload : List Nat) (s : State) : State :=
  let slot := selSlot q.frame
  let gone := selDropped q s
  let payload := if status = stOk then payload else []
  let ctr := (selRspCounter s slot + 1) % 2 ^ 64
  let s := { s with sel := { s.sel with rsp := (slot, ctr) :: s.sel.rsp.filter fun p => p.1 ≠ slot } }
  let s := selSetQueue (s.sel.queue.drop 1) s
  let s := if status = stDenied then s.bump R.SEL_ERR_denied else s
  let bytes := [selKind q.frame + 0x80, payload.length, slot, selTag q.frame] ++ beBytes 8 ctr ++ [status, 0, 0, 0] ++ payload
  let m := match selKey s slot with
    | some key => (selMacOf s key q.link q.side 1 bytes, s)
    | none => let w := freeWords 4 s; (w.1.flatMap (beBytes 4), w.2)
  let sd : Side := if q.side = 0 then .a else .b
  if gone || !sideUsed m.2 q.link sd || !(spanUp m.2 q.link sd || spanRetraining m.2 q.link sd) then m.2
  else
    let x := m.2.side q.link sd
    m.2.putSide q.link sd { x with pendSel := x.pendSel ++ [bytes ++ m.1] }

/-- Pages that a selvedge write may not reach: BST, SEC, SEL, FMC. -/
def selDenied (addr : Nat) : Bool := [0x7, 0x8, 0xB, 0xE].contains (addr / 4096)

/-- The oldest request has come so far. -/
def selProgress (q : SelReq) (s : State) : State :=
  { s with sel := { s.sel with queue := { q with dropped := selDropped q s } :: s.sel.queue.drop 1 } }

/-- The words of a READ_REQ or a WRITE_REQ from word number `done` on, `n` at most; a word whose page is being soft-reset
waits (R478). -/
def selServeWords (write : Bool) : Nat → SelReq → State → State
  | 0, q, s => selRespond q stOk (q.got.flatMap (beBytes 4)) s
  | n + 1, q, s =>
    let addr := selAddr q.frame + 4 * q.done
    if badRange addr 1 then selRespond q stRange [] s
    else if write && selDenied addr then selRespond q stDenied [] s
    else if write && goIgnored s addr then selServeWords write n { q with done := q.done + 1 } s
    else if pageSoftBusy s addr then selProgress q s
    else if write then
      selServeWords write n { q with done := q.done + 1 }
        (hostWrite addr (beNat (((selPayload q.frame).drop (4 + 4 * q.done)).take 4)) s)
    else
      let r := hostRead addr s
      selServeWords write n { q with done := q.done + 1, got := q.got ++ [r.1] } r.2

/-- An ATTEST_REQ: from the last report where the nonce is its own, else after a generation; every request is refused while
the fuse key path is blocked (R457), with a status that no rule gives (log 213). -/
def selServeAttest (q : SelReq) (s : State) : State :=
  let p := selPayload q.frame
  let nonce := p.drop 4
  if s.on R.SEC_STAT_fuse_block then
    let w := freeWords 1 s
    selRespond q (w.1.headD 0 % 8 + 1) [] w.2
  else if s.on R.ATT_CMD_busy then s
  else if s.sec.lastNonce = some nonce then
    let report := (List.range 76).flatMap fun i => beBytes 4 (s.rd (R.ATT_REPORT_report i))
    selRespond q stOk (exactly 64 (report.drop (64 * p.getD 0 0))) s
  else startReport nonce s

/-- SEL_REQUEST_SERVE (R456): the oldest request, while page SEL runs. -/
def execSelRequestServe (s : State) : Host.Outcome State Fault Refusal :=
  .next (if !pageOpen s 0xB then s else
    match s.sel.queue with
    | [] => s
    | q :: _ =>
      match selKind q.frame with
      | 1 => selServeWords false (selWords q.frame - q.done) q s.freshOut
      | 2 => selServeWords true (selWords q.frame - q.done) q s.freshOut
      | _ => selServeAttest q s)

end Sys2Proof.Machine
end

