-- ==== Sys2Proof/Machine/Dispatch.lean ====
section
/-! DEFINITION. The dispatcher: one arm for each command, one direct call of its meaning. -/

namespace Sys2Proof.Machine

open Sys2Proof

def exec (i : Instr) (s : State) : Host.Outcome State Fault Refusal :=
  match i with
  | .signalDetect e x => Sys2Proof.Machine.execSignalDetect e x s
  | .lossOfSignal e x also => Sys2Proof.Machine.execLossOfSignal e x also s
  | .symbolLockAcquired e plus => Sys2Proof.Machine.execSymbolLockAcquired e plus s
  | .lockLoss e also => Sys2Proof.Machine.execLockLoss e also s
  | .balanceWindowEnd n sd counts => Sys2Proof.Machine.execBalanceWindowEnd n sd counts s
  | .terminationDetect c mask a b => Sys2Proof.Machine.execTerminationDetect c mask a b s
  | .terminationDetectDone c absent => Sys2Proof.Machine.execTerminationDetectDone c absent s
  | .txShort n sd cls => Sys2Proof.Machine.execTxShort n sd cls s
  | .rxOpen n sd => Sys2Proof.Machine.execRxOpen n sd s
  | .rxOpenClear n sd => Sys2Proof.Machine.execRxOpenClear n sd s
  | .cntSnap c => Sys2Proof.Machine.execCntSnap c s
  | .cntCtlClear c => Sys2Proof.Machine.execCntCtlClear c s
  | .leCfgWrite n v => Sys2Proof.Machine.execLeCfgWrite n v s
  | .ackSetReceive k sd heard fail1 fail2 => Sys2Proof.Machine.execAckSetReceive k sd heard fail1 fail2 s
  | .idlReceive k sd heard => Sys2Proof.Machine.execIdlReceive k sd heard s
  | .eieReceive k sd heard => Sys2Proof.Machine.execEieReceive k sd heard s
  | .skpReceive k sd heard fill interval => Sys2Proof.Machine.execSkpReceive k sd heard fill interval s
  | .ebSlip e full pos => Sys2Proof.Machine.execEbSlip e full pos s
  | .deskewRemeasure n sd skew => Sys2Proof.Machine.execDeskewRemeasure n sd skew s
  | .skpDue k sd => Sys2Proof.Machine.execSkpDue k sd s
  | .sendNext k sd r1 r2 => Sys2Proof.Machine.execSendNext k sd r1 r2 s
  | .clockDutyInvert c d => Sys2Proof.Machine.execClockDutyInvert c d s
  | .clockLaneQualified e x => Sys2Proof.Machine.execClockLaneQualified e x s
  | .clockLaneLoss e x => Sys2Proof.Machine.execClockLaneLoss e x s
  | .switchoverComplete c d => Sys2Proof.Machine.execSwitchoverComplete c d s
  | .pllUnlock c d => Sys2Proof.Machine.execPllUnlock c d s
  | .pllRelock c d => Sys2Proof.Machine.execPllRelock c d s
  | .borrowComplete c d => Sys2Proof.Machine.execBorrowComplete c d s
  | .holdoverExpiry c d => Sys2Proof.Machine.execHoldoverExpiry c d s
  | .denseReqResend c d => Sys2Proof.Machine.execDenseReqResend c d s
  | .ckToForwarded c d => Sys2Proof.Machine.execCkToForwarded c d s
  | .ckToFallback c d => Sys2Proof.Machine.execCkToFallback c d s
  | .ckReturnOwn c d => Sys2Proof.Machine.execCkReturnOwn c d s
  | .fallbackWaitExpiry c d => Sys2Proof.Machine.execFallbackWaitExpiry c d s
  | .ckOpComplete c => Sys2Proof.Machine.execCkOpComplete c s
  | .acqBlockEnd n sd mse coefs f1pos f2pos => Sys2Proof.Machine.execAcqBlockEnd n sd mse coefs f1pos f2pos s
  | .acqTimeout n sd => Sys2Proof.Machine.execAcqTimeout n sd s
  | .trackVisitEnd n sd mse steps => Sys2Proof.Machine.execTrackVisitEnd n sd mse steps s
  | .trackUpdateApply n sd => Sys2Proof.Machine.execTrackUpdateApply n sd s
  | .adaptReacquire c sd pos => Sys2Proof.Machine.execAdaptReacquire c sd pos s
  | .adaptFreeze c sd pos => Sys2Proof.Machine.execAdaptFreeze c sd pos s
  | .adaptThaw c sd pos => Sys2Proof.Machine.execAdaptThaw c sd pos s
  | .dfeSelWrite c v => Sys2Proof.Machine.execDfeSelWrite c v s
  | .btLoad => Sys2Proof.Machine.execBtLoad s
  | .btLoadDone primary backup => Sys2Proof.Machine.execBtLoadDone primary backup s
  | .flashCommand ctl => Sys2Proof.Machine.execFlashCommand ctl s
  | .flashCommandDone reads => Sys2Proof.Machine.execFlashCommandDone reads s
  | .capReceive k sd heard spare => Sys2Proof.Machine.execCapReceive k sd heard spare s
  | .rateReceive k sd heard => Sys2Proof.Machine.execRateReceive k sd heard s
  | .rateAckReceive k sd heard => Sys2Proof.Machine.execRateAckReceive k sd heard s
  | .readyReceive k sd heard => Sys2Proof.Machine.execReadyReceive k sd heard s
  | .echoReqReceive k sd heard turn => Sys2Proof.Machine.execEchoReqReceive k sd heard turn s
  | .echoRspReceive k sd heard sample => Sys2Proof.Machine.execEchoRspReceive k sd heard sample s
  | .retrainReceive k sd heard => Sys2Proof.Machine.execRetrainReceive k sd heard s
  | .denseReqReceive k sd heard => Sys2Proof.Machine.execDenseReqReceive k sd heard s
  | .denseRelReceive k sd heard => Sys2Proof.Machine.execDenseRelReceive k sd heard s
  | .capSettleExpiry k sd => Sys2Proof.Machine.execCapSettleExpiry k sd s
  | .switchIdleEnd k sd => Sys2Proof.Machine.execSwitchIdleEnd k sd s
  | .dwellEnd k sd symbols => Sys2Proof.Machine.execDwellEnd k sd symbols s
  | .rungMaxExpiry k sd => Sys2Proof.Machine.execRungMaxExpiry k sd s
  | .trainMaxExpiry k sd => Sys2Proof.Machine.execTrainMaxExpiry k sd s
  | .retrainMaxExpiry k sd => Sys2Proof.Machine.execRetrainMaxExpiry k sd s
  | .rateResend k sd => Sys2Proof.Machine.execRateResend k sd s
  | .echoWaitExpiry k sd => Sys2Proof.Machine.execEchoWaitExpiry k sd s
  | .downHoldEnd k sd => Sys2Proof.Machine.execDownHoldEnd k sd s
  | .goTime => Sys2Proof.Machine.execGoTime s
  | .tUpBegin k => Sys2Proof.Machine.execTUpBegin k s
  | .trnRetrain k sd => Sys2Proof.Machine.execTrnRetrain k sd s
  | .trnStep k sd rung => Sys2Proof.Machine.execTrnStep k sd rung s
  | .trnDown k => Sys2Proof.Machine.execTrnDown k s
  | .trnRestart k sd => Sys2Proof.Machine.execTrnRestart k sd s
  | .flitReceive k sd slices cut fail1 fail2 => Sys2Proof.Machine.execFlitReceive k sd slices cut fail1 fail2 s
  | .controlFlitReceive k sd slices => Sys2Proof.Machine.execControlFlitReceive k sd slices s
  | .fltSnap k => Sys2Proof.Machine.execFltSnap k s
  | .fltClr k => Sys2Proof.Machine.execFltClr k s
  | .darnTimerExpiry f => Sys2Proof.Machine.execDarnTimerExpiry f s
  | .darnSnap k => Sys2Proof.Machine.execDarnSnap k s
  | .darnClr k => Sys2Proof.Machine.execDarnClr k s
  | .drnAckReceive k sd heard => Sys2Proof.Machine.execDrnAckReceive k sd heard s
  | .drnNakReceive k sd heard => Sys2Proof.Machine.execDrnNakReceive k sd heard s
  | .drnProbeReceive k sd heard turn => Sys2Proof.Machine.execDrnProbeReceive k sd heard turn s
  | .drnEchoReceive k sd heard elapsed => Sys2Proof.Machine.execDrnEchoReceive k sd heard elapsed s
  | .spanTimerExpiry t => Sys2Proof.Machine.execSpanTimerExpiry t s
  | .drnAckTimer t => Sys2Proof.Machine.execDrnAckTimer t s
  | .probeInterval t => Sys2Proof.Machine.execProbeInterval t s
  | .probeWaitExpiry t => Sys2Proof.Machine.execProbeWaitExpiry t s
  | .proxyAckTimer f => Sys2Proof.Machine.execProxyAckTimer f s
  | .trunkAckRefresh k => Sys2Proof.Machine.execTrunkAckRefresh k s
  | .trkSnap k => Sys2Proof.Machine.execTrkSnap k s
  | .trkClr k => Sys2Proof.Machine.execTrkClr k s
  | .controlFlitDue t => Sys2Proof.Machine.execControlFlitDue t s
  | .llTornWindowEnd l => Sys2Proof.Machine.execLlTornWindowEnd l s
  | .llDrainEnd l => Sys2Proof.Machine.execLlDrainEnd l s
  | .llCacheRefresh cache => Sys2Proof.Machine.execLlCacheRefresh cache s
  | .llSnap p => Sys2Proof.Machine.execLlSnap p s
  | .llClr p => Sys2Proof.Machine.execLlClr p s
  | .calSnap cal => Sys2Proof.Machine.execCalSnap cal s
  | .calClr cal => Sys2Proof.Machine.execCalClr cal s
  | .qstSelWrite die queue => Sys2Proof.Machine.execQstSelWrite die queue s
  | .remirror e read => Sys2Proof.Machine.execRemirror e read s
  | .ceWindowEnd die => Sys2Proof.Machine.execCeWindowEnd die s
  | .bankSaveDone x => Sys2Proof.Machine.execBankSaveDone x s
  | .bankTestEnd die result => Sys2Proof.Machine.execBankTestEnd die result s
  | .bankRestoreDone x => Sys2Proof.Machine.execBankRestoreDone x s
  | .evacuationDone x => Sys2Proof.Machine.execEvacuationDone x s
  | .bufRetire die bank => Sys2Proof.Machine.execBufRetire die bank s
  | .bufReturn die bank => Sys2Proof.Machine.execBufReturn die bank s
  | .bufTestNow die bank => Sys2Proof.Machine.execBufTestNow die bank s
  | .bufSnap die => Sys2Proof.Machine.execBufSnap die s
  | .bufClr die => Sys2Proof.Machine.execBufClr die s
  | .descSelWrite die addr => Sys2Proof.Machine.execDescSelWrite die addr s
  | .prkCommit => Sys2Proof.Machine.execPrkCommit s
  | .prkCheck => Sys2Proof.Machine.execPrkCheck s
  | .prkRevert => Sys2Proof.Machine.execPrkRevert s
  | .lnkCommit k checkOnly => Sys2Proof.Machine.execLnkCommit k checkOnly s
  | .checkEnd => Sys2Proof.Machine.execCheckEnd s
  | .tApply => Sys2Proof.Machine.execTApply s
  | .recheckStart trigger => Sys2Proof.Machine.execRecheckStart trigger s
  | .bobbinAcqLimit c sd => Sys2Proof.Machine.execBobbinAcqLimit c sd s
  | .bobbinSwitch c sd => Sys2Proof.Machine.execBobbinSwitch c sd s
  | .swapAbandon c => Sys2Proof.Machine.execSwapAbandon c s
  | .oldTxIdle c => Sys2Proof.Machine.execOldTxIdle c s
  | .swpSwap c pos => Sys2Proof.Machine.execSwpSwap c pos s
  | .swpReturn c => Sys2Proof.Machine.execSwpReturn c s
  | .swpEnable c => Sys2Proof.Machine.execSwpEnable c s
  | .swpDisable c => Sys2Proof.Machine.execSwpDisable c s
  | .sideMapWrite e v => Sys2Proof.Machine.execSideMapWrite e v s
  | .lanePosWrite n v => Sys2Proof.Machine.execLanePosWrite n v s
  | .mapDrainEnd e => Sys2Proof.Machine.execMapDrainEnd e s
  | .mapTornEnd e => Sys2Proof.Machine.execMapTornEnd e s
  | .mapCacheRefresh c e => Sys2Proof.Machine.execMapCacheRefresh c e s
  | .nativeJudgePass => Sys2Proof.Machine.execNativeJudgePass s
  | .compatJudgeEnd cycles missed => Sys2Proof.Machine.execCompatJudgeEnd cycles missed s
  | .ifoReady => Sys2Proof.Machine.execIfoReady s
  | .ifoReadyTimeout => Sys2Proof.Machine.execIfoReadyTimeout s
  | .ifoMeasureEnd ppm => Sys2Proof.Machine.execIfoMeasureEnd ppm s
  | .monitorWindowEnd count => Sys2Proof.Machine.execMonitorWindowEnd count s
  | .pllHoldover unit => Sys2Proof.Machine.execPllHoldover unit s
  | .refclkReturn unit => Sys2Proof.Machine.execRefclkReturn unit s
  | .pllIfoLock unit => Sys2Proof.Machine.execPllIfoLock unit s
  | .returnHoldExpiry => Sys2Proof.Machine.execReturnHoldExpiry s
  | .clkCfgWrite v => Sys2Proof.Machine.execClkCfgWrite v s
  | .ifoLoss => Sys2Proof.Machine.execIfoLoss s
  | .clockUnusableFence => Sys2Proof.Machine.execClockUnusableFence s
  | .corePllUnlock die => Sys2Proof.Machine.execCorePllUnlock die s
  | .corePllRelock die => Sys2Proof.Machine.execCorePllRelock die s
  | .plRequest die level => Sys2Proof.Machine.execPlRequest die level s
  | .plVoltageSettled die vout => Sys2Proof.Machine.execPlVoltageSettled die vout s
  | .plDividerSwitched die => Sys2Proof.Machine.execPlDividerSwitched die s
  | .mgmtPllUnlock => Sys2Proof.Machine.execMgmtPllUnlock s
  | .seamPllUnlock => Sys2Proof.Machine.execSeamPllUnlock s
  | .clkEnWrite page v => Sys2Proof.Machine.execClkEnWrite page v s
  | .fmStart => Sys2Proof.Machine.execFmStart s
  | .fmRunEnd how count => Sys2Proof.Machine.execFmRunEnd how count s
  | .watchEnter force => Sys2Proof.Machine.execWatchEnter force s
  | .watchEntryDone => Sys2Proof.Machine.execWatchEntryDone s
  | .watchWake => Sys2Proof.Machine.execWatchWake s
  | .wakeNLow => Sys2Proof.Machine.execWakeNLow s
  | .wakeSigdet n sd => Sys2Proof.Machine.execWakeSigdet n sd s
  | .wakeSource src => Sys2Proof.Machine.execWakeSource src s
  | .wakeComplete => Sys2Proof.Machine.execWakeComplete s
  | .wakeIfoTimeout => Sys2Proof.Machine.execWakeIfoTimeout s
  | .tempSample temps => Sys2Proof.Machine.execTempSample temps s
  | .calRunStart c => Sys2Proof.Machine.execCalRunStart c s
  | .calRunEnd c meas => Sys2Proof.Machine.execCalRunEnd c meas s
  | .calStepApply c => Sys2Proof.Machine.execCalStepApply c s
  | .rextFault => Sys2Proof.Machine.execRextFault s
  | .rextFaultClear => Sys2Proof.Machine.execRextFaultClear s
  | .calEnd c e => Sys2Proof.Machine.execCalEnd c e s
  | .calAll c => Sys2Proof.Machine.execCalAll c s
  | .calEye c e => Sys2Proof.Machine.execCalEye c e s
  | .eyeEnd c eyes aborted => Sys2Proof.Machine.execEyeEnd c eyes aborted s
  | .calSelWrite c e => Sys2Proof.Machine.execCalSelWrite c e s
  | .sliceInterval => Sys2Proof.Machine.execSliceInterval s
  | .bobbinSliceEnd c bits errors noLock replica => Sys2Proof.Machine.execBobbinSliceEnd c bits errors noLock replica s
  | .bistStall die => Sys2Proof.Machine.execBistStall die s
  | .bstBobbinNow c => Sys2Proof.Machine.execBstBobbinNow c s
  | .bstAbort => Sys2Proof.Machine.execBstAbort s
  | .bstFull => Sys2Proof.Machine.execBstFull s
  | .bstTestEnter confirm => Sys2Proof.Machine.execBstTestEnter confirm s
  | .bstCfgWrite v => Sys2Proof.Machine.execBstCfgWrite v s
  | .lbCfgWrite lane v => Sys2Proof.Machine.execLbCfgWrite lane v s
  | .prbsGenWrite lane v => Sys2Proof.Machine.execPrbsGenWrite lane v s
  | .prbsChkWrite lane v => Sys2Proof.Machine.execPrbsChkWrite lane v s
  | .prbsLock lane got => Sys2Proof.Machine.execPrbsLock lane got s
  | .prbsLockLoss lane bits e => Sys2Proof.Machine.execPrbsLockLoss lane bits e s
  | .prbsErrThreshold lane bits e => Sys2Proof.Machine.execPrbsErrThreshold lane bits e s
  | .prbsSnap lane => Sys2Proof.Machine.execPrbsSnap lane s
  | .prbsClr lane => Sys2Proof.Machine.execPrbsClr lane s
  | .testEnHigh => Sys2Proof.Machine.execTestEnHigh s
  | .testEntryDone us => Sys2Proof.Machine.execTestEntryDone us s
  | .extest => Sys2Proof.Machine.execExtest s
  | .samplePreload => Sys2Proof.Machine.execSamplePreload s
  | .idcode => Sys2Proof.Machine.execIdcode s
  | .clamp => Sys2Proof.Machine.execClamp s
  | .highz => Sys2Proof.Machine.execHighz s
  | .extestPulse => Sys2Proof.Machine.execExtestPulse s
  | .extestTrain => Sys2Proof.Machine.execExtestTrain s
  | .scanEntry => Sys2Proof.Machine.execScanEntry s
  | .bypass => Sys2Proof.Machine.execBypass s
  | .jtagTrst => Sys2Proof.Machine.execJtagTrst s
  | .supplyWarnSet x => Sys2Proof.Machine.execSupplyWarnSet x s
  | .supplyWarnClear x => Sys2Proof.Machine.execSupplyWarnClear x s
  | .supplySample vals => Sys2Proof.Machine.execSupplySample vals s
  | .brownOutReset x => Sys2Proof.Machine.execBrownOutReset x s
  | .powerOnReset => Sys2Proof.Machine.execPowerOnReset s
  | .pinReset => Sys2Proof.Machine.execPinReset s
  | .resetRelease straps => Sys2Proof.Machine.execResetRelease straps s
  | .startStepEnd res => Sys2Proof.Machine.execStartStepEnd res s
  | .ringWaitEnd => Sys2Proof.Machine.execRingWaitEnd s
  | .startComplete => Sys2Proof.Machine.execStartComplete s
  | .bootRelease => Sys2Proof.Machine.execBootRelease s
  | .fenceCmdFence unit => Sys2Proof.Machine.execFenceCmdFence unit s
  | .fenceCmdLift unit => Sys2Proof.Machine.execFenceCmdLift unit s
  | .softReset page => Sys2Proof.Machine.execSoftReset page s
  | .sourceInput src ev => Sys2Proof.Machine.execSourceInput src ev s
  | .intClaim fast t => Sys2Proof.Machine.execIntClaim fast t s
  | .intComplete fast t src ring => Sys2Proof.Machine.execIntComplete fast t src ring s
  | .doorbellWrite v => Sys2Proof.Machine.execDoorbellWrite v s
  | .srcCfgWrite src v => Sys2Proof.Machine.execSrcCfgWrite src v s
  | .ringDeliverSend src => Sys2Proof.Machine.execRingDeliverSend src s
  | .deliverResend src => Sys2Proof.Machine.execDeliverResend src s
  | .spiWrite quad addr data crc => Sys2Proof.Machine.execSpiWrite quad addr data crc s
  | .spiRead quad addr crc late => Sys2Proof.Machine.execSpiRead quad addr crc late s
  | .spiWriteBlock quad addr data crc => Sys2Proof.Machine.execSpiWriteBlock quad addr data crc s
  | .spiReadBlock quad addr crc late => Sys2Proof.Machine.execSpiReadBlock quad addr crc late s
  | .spiFetch quad addr crc => Sys2Proof.Machine.execSpiFetch quad addr crc s
  | .spiStatus quad addr crc => Sys2Proof.Machine.execSpiStatus quad addr crc s
  | .spiBadOpcode op => Sys2Proof.Machine.execSpiBadOpcode op s
  | .smbPointer ptr pec => Sys2Proof.Machine.execSmbPointer ptr pec s
  | .smbWrite data pec => Sys2Proof.Machine.execSmbWrite data pec s
  | .smbRead late => Sys2Proof.Machine.execSmbRead late s
  | .smbFetch => Sys2Proof.Machine.execSmbFetch s
  | .smbStatus => Sys2Proof.Machine.execSmbStatus s
  | .smbBusTimeout => Sys2Proof.Machine.execSmbBusTimeout s
  | .ringTrainReceive d msg => Sys2Proof.Machine.execRingTrainReceive d msg s
  | .ringTrainSend => Sys2Proof.Machine.execRingTrainSend s
  | .hopBroken d => Sys2Proof.Machine.execHopBroken d s
  | .ringEnum d msg => Sys2Proof.Machine.execRingEnum d msg s
  | .ringPresent d msg => Sys2Proof.Machine.execRingPresent d msg s
  | .enumTimeout => Sys2Proof.Machine.execEnumTimeout s
  | .ringDone d msg => Sys2Proof.Machine.execRingDone d msg s
  | .ringBreak d msg => Sys2Proof.Machine.execRingBreak d msg s
  | .ringTime d msg => Sys2Proof.Machine.execRingTime d msg s
  | .ringTimeSend => Sys2Proof.Machine.execRingTimeSend s
  | .timeLoss => Sys2Proof.Machine.execTimeLoss s
  | .ringGo d msg => Sys2Proof.Machine.execRingGo d msg s
  | .goAuto => Sys2Proof.Machine.execGoAuto s
  | .ringReady d msg => Sys2Proof.Machine.execRingReady d msg s
  | .ringReq d msg => Sys2Proof.Machine.execRingReq d msg s
  | .ringRsp d msg => Sys2Proof.Machine.execRingRsp d msg s
  | .remoteTimeout tag => Sys2Proof.Machine.execRemoteTimeout tag s
  | .ringDeliver d msg => Sys2Proof.Machine.execRingDeliver d msg s
  | .ringComplete d msg => Sys2Proof.Machine.execRingComplete d msg s
  | .pctEnumerate => Sys2Proof.Machine.execPctEnumerate s
  | .pctGo => Sys2Proof.Machine.execPctGo s
  | .selReadReq k sd heard => Sys2Proof.Machine.execSelReadReq k sd heard s
  | .selWriteReq k sd heard => Sys2Proof.Machine.execSelWriteReq k sd heard s
  | .selAttestReq k sd heard => Sys2Proof.Machine.execSelAttestReq k sd heard s
  | .selRequestServe => Sys2Proof.Machine.execSelRequestServe s
  | .keyLoad slot => Sys2Proof.Machine.execKeyLoad slot s
  | .keyClear slot => Sys2Proof.Machine.execKeyClear slot s
  | .keyEnroll slot => Sys2Proof.Machine.execKeyEnroll slot s
  | .keyRevoke slot => Sys2Proof.Machine.execKeyRevoke slot s
  | .attGenerate => Sys2Proof.Machine.execAttGenerate s
  | .attGenerateDone => Sys2Proof.Machine.execAttGenerateDone s
  | .prickingDigestDone => Sys2Proof.Machine.execPrickingDigestDone s
  | .loReadLatch addr => Sys2Proof.Machine.execLoReadLatch addr s
  | .registerWrite addr v => Sys2Proof.Machine.execRegisterWrite addr v s
  | .commaDetect e offset mirror plus => Sys2Proof.Machine.execCommaDetect e offset mirror plus s
  | .aligningBadSymbol n sd => Sys2Proof.Machine.execAligningBadSymbol n sd s
  | .lolWindowEnd n sd => Sys2Proof.Machine.execLolWindowEnd n sd s
  | .switchoverLockExpiry c d => Sys2Proof.Machine.execSwitchoverLockExpiry c d s
  | .mgmtPllRelock => Sys2Proof.Machine.execMgmtPllRelock s
  | .seamPllRelock => Sys2Proof.Machine.execSeamPllRelock s
  | .calCodeStep c => Sys2Proof.Machine.execCalCodeStep c s
  | .postPauseLimit => Sys2Proof.Machine.execPostPauseLimit s
  | .prbsErrWindowEnd lane bits e => Sys2Proof.Machine.execPrbsErrWindowEnd lane bits e s
  | .softResetDone page => Sys2Proof.Machine.execSoftResetDone page s

end Sys2Proof.Machine
end

