-- ==== Sys2Proof/Machine/Time.lean ====
section
/-!
DEFINITION. Time passes: what the package does in a nanosecond in which no command comes (log 10). Fabric time is R450's.
-/

namespace Sys2Proof.Machine

/-- One nanosecond. The time since reset release and fabric time run from reset release on (R450); while fabric time is
held after a correction backwards, its hold runs down instead. A neighbour's switch ends the interruption of its swap (R325), and
pattern generators send (R387). -/
def tick (s : State) : State :=
  if s.dev.phase = .off then s
  else
    let s := genTicks (nbrSwitched { s with clock := s.clock + 1 })
    if s.ring.hold = 0 then { s with fab := s.fab + 1 }
    else { s with ring := { s.ring with hold := s.ring.hold - 1 } }

end Sys2Proof.Machine
end

