-- ==== Sys2Proof/WellFormed.lean ====
section
/-!
DEFINITION. Well-formed commands: every unit number is one the family has (R2, R8, R420), and every word, byte or list that
a command carries has the size its row gives it. A command on a unit that only the larger part has is well formed; the
meanings stop on it (R3).
-/

namespace Sys2Proof

namespace Wf

def below (m v : Nat) : Bool := v < m
/-- A register word (R482). -/
def word (v : Nat) : Bool := v < 2 ^ 32
/-- A read of a slot: bits of its eight code words of 160, at most two in a word, and a tag of 16 bits (R269, R270). -/
def eccOk (e : EccRead) : Bool :=
  e.flips.all (fun p => p.1 < 8 && p.2 < 160 && (e.flips.filter fun q => q.1 = p.1).length ≤ 2 &&
    (e.flips.filter fun q => q = p).length = 1) && (match e.tag with
    | some a => a < 65536
    | none => true)
/-- Lanes: data lanes 0-127, bobbin lanes 128-143 (R8). -/
def laneNo (n : Nat) : Bool := n < 144
def dataLane (n : Nat) : Bool := n < 128
/-- A lane, or the clock lane of cluster n - 144. -/
def laneOrClock (n : Nat) : Bool := n < 160
def clusterNo (c : Nat) : Bool := c < 16
def linkNo (k : Nat) : Bool := k < 128
def dieNo (d : Nat) : Bool := d < 2
/-- A picot ring: 0 clockwise, 1 counter-clockwise. -/
def ringNo (d : Nat) : Bool := d < 2
def llNo (l : Nat) : Bool := l < 1024
/-- A direction of a link (2 x link + direction) or of a logical link (4096 + 2 x logical link + direction). -/
def flowNo (f : Nat) : Bool := f < 256 || (4096 ≤ f && f < 6144)
/-- A trunk link, or a calendar as 1024 + calendar. -/
def trunkNo (t : Nat) : Bool := t < 128 || (1024 ≤ t && t < 1040)
def sourceNo (i : Nat) : Bool := i < 320
/-- One entry for each lane of a side: at most 16 (R13). -/
def width {α : Type} (l : List α) : Bool := l.length ≤ 16
/-- Codes of ten bits (R48), one list for each lane of a side. -/
def laneCodes (l : List (List Nat)) : Bool := width l && l.all fun x => x.all (· < 1024)
def heardOk (l : List Heard) : Bool := laneCodes (l.map Heard.codes)
def octets (l : List Nat) : Bool := l.all (· < 256)
/-- The data of a block frame: 1 to 32 words (R440). -/
def block (l : List Nat) : Bool := 1 ≤ l.length && l.length ≤ 32 && l.all (· < 2 ^ 32)
def pecByte (p : Option Nat) : Bool := p.all (· < 256)

end Wf

open Wf in
/-- The checks of each command. -/
def Instr.wf : Instr → Bool
  | .signalDetect e _ => laneNo e.n
  | .lossOfSignal e _ _ => laneNo e.n
  | .symbolLockAcquired e _ => laneNo e.n
  | .lockLoss e _ => laneNo e.n
  | .balanceWindowEnd n _ counts => laneNo n && below 10 counts.length
  | .terminationDetect c _ _ _ => clusterNo c
  | .terminationDetectDone c absent => clusterNo c && (absent.all fun x => below 20 x)
  | .txShort n _ cls => laneOrClock n && below 4 cls
  | .rxOpen n _ => laneNo n
  | .rxOpenClear n _ => laneNo n
  | .cntSnap c => clusterNo c
  | .cntCtlClear c => clusterNo c
  | .leCfgWrite n v => laneNo n && word v
  | .ackSetReceive k _ heard _ _ => linkNo k && heardOk heard
  | .idlReceive k _ heard => linkNo k && heardOk heard
  | .eieReceive k _ heard => linkNo k && heardOk heard
  | .skpReceive k _ heard _ _ => linkNo k && heardOk heard
  | .ebSlip e _ _ => laneNo e.n
  | .deskewRemeasure n _ _ => laneNo n
  | .skpDue k _ => linkNo k
  | .sendNext k _ r1 r2 => linkNo k && eccOk r1 && eccOk r2
  | .clockDutyInvert c _ => clusterNo c
  | .clockLaneQualified e _ => clusterNo e.c
  | .clockLaneLoss e _ => clusterNo e.c
  | .switchoverComplete c _ => clusterNo c
  | .pllUnlock c _ => clusterNo c
  | .pllRelock c _ => clusterNo c
  | .borrowComplete c _ => clusterNo c
  | .holdoverExpiry c _ => clusterNo c
  | .denseReqResend c _ => clusterNo c
  | .ckToForwarded c _ => clusterNo c
  | .ckToFallback c _ => clusterNo c
  | .ckReturnOwn c _ => clusterNo c
  | .fallbackWaitExpiry c _ => clusterNo c
  | .ckOpComplete c => clusterNo c
  | .acqBlockEnd n _ _ coefs _ _ => laneNo n && below 18 coefs.length
  | .acqTimeout n _ => laneNo n
  | .trackVisitEnd n _ _ steps => laneNo n && below 18 steps.length
  | .trackUpdateApply n _ => laneNo n
  | .adaptReacquire c _ pos => clusterNo c && below 9 pos
  | .adaptFreeze c _ pos => clusterNo c && below 9 pos
  | .adaptThaw c _ pos => clusterNo c && below 9 pos
  | .dfeSelWrite c v => clusterNo c && word v
  | .btLoad => true
  | .btLoadDone primary backup => octets primary && octets backup
  | .flashCommand ctl => word ctl
  | .flashCommandDone reads => octets reads
  | .capReceive k _ heard spare => linkNo k && heardOk heard && heardOk spare
  | .rateReceive k _ heard => linkNo k && heardOk heard
  | .rateAckReceive k _ heard => linkNo k && heardOk heard
  | .readyReceive k _ heard => linkNo k && heardOk heard
  | .echoReqReceive k _ heard _ => linkNo k && heardOk heard
  | .echoRspReceive k _ heard _ => linkNo k && heardOk heard
  | .retrainReceive k _ heard => linkNo k && heardOk heard
  | .denseReqReceive k _ heard => linkNo k && heardOk heard
  | .denseRelReceive k _ heard => linkNo k && heardOk heard
  | .capSettleExpiry k _ => linkNo k
  | .switchIdleEnd k _ => linkNo k
  | .dwellEnd k _ _ => linkNo k
  | .rungMaxExpiry k _ => linkNo k
  | .trainMaxExpiry k _ => linkNo k
  | .retrainMaxExpiry k _ => linkNo k
  | .rateResend k _ => linkNo k
  | .echoWaitExpiry k _ => linkNo k
  | .downHoldEnd k _ => linkNo k
  | .goTime => true
  | .tUpBegin k => linkNo k
  | .trnRetrain k _ => linkNo k
  | .trnStep k _ rung => linkNo k && below 5 rung
  | .trnDown k => linkNo k
  | .trnRestart k _ => linkNo k
  | .flitReceive k _ slices _ _ _ => linkNo k && laneCodes slices
  | .controlFlitReceive k _ slices => linkNo k && laneCodes slices
  | .fltSnap k => linkNo k
  | .fltClr k => linkNo k
  | .darnTimerExpiry f => flowNo f
  | .darnSnap k => linkNo k
  | .darnClr k => linkNo k
  | .drnAckReceive k _ heard => linkNo k && heardOk heard
  | .drnNakReceive k _ heard => linkNo k && heardOk heard
  | .drnProbeReceive k _ heard _ => linkNo k && heardOk heard
  | .drnEchoReceive k _ heard _ => linkNo k && heardOk heard
  | .spanTimerExpiry t => trunkNo t
  | .drnAckTimer t => trunkNo t
  | .probeInterval t => trunkNo t
  | .probeWaitExpiry t => trunkNo t
  | .proxyAckTimer f => flowNo f
  | .trunkAckRefresh k => linkNo k
  | .trkSnap k => linkNo k
  | .trkClr k => linkNo k
  | .controlFlitDue t => trunkNo t
  | .llTornWindowEnd l => llNo l
  | .llDrainEnd l => llNo l
  | .llCacheRefresh cache => below 32 cache
  | .llSnap p => below 8 p
  | .llClr p => below 8 p
  | .calSnap cal => below 16 cal
  | .calClr cal => below 16 cal
  | .qstSelWrite die queue => dieNo die && below 32768 queue
  | .remirror e read => dieNo e.die && below 65536 e.addr && eccOk read
  | .ceWindowEnd die => dieNo die
  | .bankSaveDone x => dieNo x.die && x.reads.all fun p => below 65536 p.1 && eccOk p.2
  | .bankTestEnd die _ => dieNo die
  | .bankRestoreDone x => dieNo x.die && x.reads.all fun p => below 65536 p.1 && eccOk p.2
  | .evacuationDone x => dieNo x.die && x.reads.all fun p => below 65536 p.1 && eccOk p.2
  | .bufRetire die bank => dieNo die && below 33 bank
  | .bufReturn die bank => dieNo die && below 33 bank
  | .bufTestNow die bank => dieNo die && below 33 bank
  | .bufSnap die => dieNo die
  | .bufClr die => dieNo die
  | .descSelWrite die addr => dieNo die && below 65536 addr
  | .prkCommit => true
  | .prkCheck => true
  | .prkRevert => true
  | .lnkCommit k _ => linkNo k
  | .checkEnd => true
  | .tApply => true
  | .recheckStart _ => true
  | .bobbinAcqLimit c _ => clusterNo c
  | .bobbinSwitch c _ => clusterNo c
  | .swapAbandon c => clusterNo c
  | .oldTxIdle c => clusterNo c
  | .swpSwap c pos => clusterNo c && below 9 pos
  | .swpReturn c => clusterNo c
  | .swpEnable c => clusterNo c
  | .swpDisable c => clusterNo c
  | .sideMapWrite e v => below 256 e && word v
  | .lanePosWrite n v => dataLane n && word v
  | .mapDrainEnd e => below 256 e
  | .mapTornEnd e => below 256 e
  | .mapCacheRefresh c e => clusterNo c && below 256 e
  | .nativeJudgePass => true
  | .compatJudgeEnd _ _ => true
  | .ifoReady => true
  | .ifoReadyTimeout => true
  | .ifoMeasureEnd _ => true
  | .monitorWindowEnd _ => true
  | .pllHoldover unit => below 4 unit
  | .refclkReturn unit => below 4 unit
  | .pllIfoLock unit => below 4 unit
  | .returnHoldExpiry => true
  | .clkCfgWrite v => word v
  | .ifoLoss => true
  | .clockUnusableFence => true
  | .corePllUnlock die => dieNo die
  | .corePllRelock die => dieNo die
  | .plRequest die level => dieNo die && below 4 level
  | .plVoltageSettled die _ => dieNo die
  | .plDividerSwitched die => dieNo die
  | .mgmtPllUnlock => true
  | .seamPllUnlock => true
  | .clkEnWrite page v => below 256 page && word v
  | .fmStart => true
  | .fmRunEnd _ _ => true
  | .watchEnter _ => true
  | .watchEntryDone => true
  | .watchWake => true
  | .wakeNLow => true
  | .wakeSigdet n _ => laneNo n
  | .wakeSource src => sourceNo src
  | .wakeComplete => true
  | .wakeIfoTimeout => true
  | .tempSample temps => below 17 temps.length
  | .calRunStart c => clusterNo c
  | .calRunEnd c _ => clusterNo c
  | .calStepApply c => clusterNo c
  | .rextFault => true
  | .rextFaultClear => true
  | .calEnd c e => clusterNo c && below 38 e
  | .calAll c => clusterNo c
  | .calEye c e => clusterNo c && below 38 e
  | .eyeEnd c eyes _ => clusterNo c && below 4 eyes.length
  | .calSelWrite c e => clusterNo c && below 38 e
  | .sliceInterval => true
  | .bobbinSliceEnd c _ _ _ _ => clusterNo c
  | .bistStall die => dieNo die
  | .bstBobbinNow c => clusterNo c
  | .bstAbort => true
  | .bstFull => true
  | .bstTestEnter confirm => word confirm
  | .bstCfgWrite v => word v
  | .lbCfgWrite lane v => laneNo lane && word v
  | .prbsGenWrite lane v => laneNo lane && word v
  | .prbsChkWrite lane v => laneNo lane && word v
  | .prbsLock lane _ => laneNo lane
  | .prbsLockLoss lane _ _ => laneNo lane
  | .prbsErrThreshold lane _ _ => laneNo lane
  | .prbsSnap lane => laneNo lane
  | .prbsClr lane => laneNo lane
  | .testEnHigh => true
  | .testEntryDone _ => true
  | .extest => true
  | .samplePreload => true
  | .idcode => true
  | .clamp => true
  | .highz => true
  | .extestPulse => true
  | .extestTrain => true
  | .scanEntry => true
  | .bypass => true
  | .jtagTrst => true
  | .supplyWarnSet x => below 4 x.rail
  | .supplyWarnClear x => below 4 x.rail
  | .supplySample vals => below 5 vals.length
  | .brownOutReset x => below 4 x.rail
  | .powerOnReset => true
  | .pinReset => true
  | .resetRelease straps => below 1024 straps
  | .startStepEnd _ => true
  | .ringWaitEnd => true
  | .startComplete => true
  | .bootRelease => true
  | .fenceCmdFence unit => below 8 unit
  | .fenceCmdLift unit => below 8 unit
  | .softReset page => below 256 page
  | .sourceInput src _ => sourceNo src
  | .intClaim _ t => below 3 t
  | .intComplete _ t src ring => below 3 t && sourceNo src && below 8 ring
  | .doorbellWrite v => word v
  | .srcCfgWrite src v => sourceNo src && word v
  | .ringDeliverSend src => sourceNo src
  | .deliverResend src => sourceNo src
  | .spiWrite _ addr data crc => word addr && word data && below 256 crc
  | .spiRead _ addr crc _ => word addr && below 256 crc
  | .spiWriteBlock _ addr data crc => word addr && block data && below 256 crc
  | .spiReadBlock _ addr crc _ => word addr && below 256 crc
  | .spiFetch _ addr crc => word addr && below 256 crc
  | .spiStatus _ addr crc => word addr && below 256 crc
  | .spiBadOpcode op => below 256 op
  | .smbPointer ptr pec => word ptr && pecByte pec
  | .smbWrite data pec => word data && pecByte pec
  | .smbRead _ => true
  | .smbFetch => true
  | .smbStatus => true
  | .smbBusTimeout => true
  | .ringTrainReceive d _ => ringNo d
  | .ringTrainSend => true
  | .hopBroken d => ringNo d
  | .ringEnum d _ => ringNo d
  | .ringPresent d _ => ringNo d
  | .enumTimeout => true
  | .ringDone d _ => ringNo d
  | .ringBreak d _ => ringNo d
  | .ringTime d _ => ringNo d
  | .ringTimeSend => true
  | .timeLoss => true
  | .ringGo d _ => ringNo d
  | .goAuto => true
  | .ringReady d _ => ringNo d
  | .ringReq d _ => ringNo d
  | .ringRsp d _ => ringNo d
  | .remoteTimeout tag => below 256 tag
  | .ringDeliver d _ => ringNo d
  | .ringComplete d _ => ringNo d
  | .pctEnumerate => true
  | .pctGo => true
  | .selReadReq k _ heard => linkNo k && heardOk heard
  | .selWriteReq k _ heard => linkNo k && heardOk heard
  | .selAttestReq k _ heard => linkNo k && heardOk heard
  | .selRequestServe => true
  | .keyLoad slot => below 4 slot
  | .keyClear slot => below 4 slot
  | .keyEnroll slot => below 4 slot
  | .keyRevoke slot => below 4 slot
  | .attGenerate => true
  | .attGenerateDone => true
  | .prickingDigestDone => true
  | .loReadLatch addr => word addr
  | .registerWrite addr v => word addr && word v
  | .commaDetect e offset _ _ => laneNo e.n && below 10 offset
  | .aligningBadSymbol n _ => laneNo n
  | .lolWindowEnd n _ => laneNo n
  | .switchoverLockExpiry c _ => clusterNo c
  | .mgmtPllRelock => true
  | .seamPllRelock => true
  | .calCodeStep c => clusterNo c
  | .postPauseLimit => true
  | .prbsErrWindowEnd lane _ _ => laneNo lane
  | .softResetDone page => below 256 page

end Sys2Proof
end

