-- ==== Sys2Proof/Safety.lean ====
section
/-!
DEFINITION. What counts as a safe step, in the terms the claims use: it answers a next state, and it keeps what the spec says
can never be undone.
-/

namespace Sys2Proof.Machine

open Sys2Proof

/-- The outcome is a next state. -/
def Goes (o : Host.Outcome State Fault Refusal) : Prop := ∃ t, o = .next t

/-- Every table of the state stands in the canonical form: keys rising, and no entry at what its key holds by default (the
reset value, for a register field). Equal contents are then equal data. -/
def tablesCanonical (s : State) : Bool :=
  Tbl.wf resetOf s.regs && Tbl.wf (fun _ => 0) s.cnt && Tbl.wf (fun _ => ({} : Slot)) s.slots &&
  Tbl.wf (fun _ => ({} : DieBuf)) s.dies && Tbl.wf (fun _ => ({} : Flow)) s.flows &&
  Tbl.wf (fun _ => ({} : TrunkSt)) s.trunks && Tbl.wf (fun _ => ({} : LlSt)) s.lls &&
  Tbl.wf (fun _ => ({} : SideSt)) s.sides && Tbl.wf (fun _ => ({} : SpanSt)) s.spans &&
  Tbl.wf (fun _ => ({} : LinkSt)) s.links && Tbl.wf (fun _ => ({} : RxSt)) s.rx &&
  Tbl.wf (fun _ => ({} : TxSt)) s.tx && Tbl.wf (fun _ => ({} : CkSt)) s.cks &&
  Tbl.wf (fun _ => ({} : CkEnd)) s.ckEnds && Tbl.wf (fun _ => ({} : Coef)) s.coef &&
  Tbl.wf (fun _ => ({} : AdaptSt)) s.adapt && Tbl.wf (fun _ => ({} : CalSeq)) s.cal &&
  Tbl.wf (fun _ => ({} : MapSt)) s.maps && Tbl.wf (fun _ => ({} : BobSt)) s.bobs &&
  Tbl.wf (fun _ => ({} : PlSt)) s.plv && Tbl.wf (fun _ => ({} : PrbsSt)) s.prbs

/-- What no command can undo or change: the part and revision, the saffron image and the identity key (fuses), the customer
slots enrolled and revoked so far (R461), the keys enrolled and the rows fused so far. `s` is before, `t` after. -/
def fusesKept (s t : State) : Prop :=
  t.fuse.part = s.fuse.part ∧ t.fuse.rev = s.fuse.rev ∧ t.fuse.saffron = s.fuse.saffron ∧ t.fuse.idPub = s.fuse.idPub ∧
  (∀ i, bit s.fuse.enrolled i = true → bit t.fuse.enrolled i = true) ∧
  (∀ i, bit s.fuse.revoked i = true → bit t.fuse.revoked i = true) ∧
  s.fuse.custKeys <+: t.fuse.custKeys ∧ s.fuse.rows <+: t.fuse.rows

/-- The place of a source in the priority order of R425: 256, 257, 276 and 277 first, then the others in ascending number. -/
def claimRank (src : Nat) : Nat :=
  if src = 256 then 0 else if src = 257 then 1 else if src = 276 then 2 else if src = 277 then 3 else src + 4

/-- The source is deliverable to the bank of a class and a host target, but for the bank itself (R424): pending, enabled, not
active, and of that class and target. -/
def offered (s : State) (fast : Bool) (t src : Nat) : Prop :=
  srcWaits s src = true ∧ srcFast s src = fast ∧ srcTarget s src = t

/-- Every part of the state but the register store is the same. -/
def sameButRegs (s t : State) : Prop := { t with regs := s.regs } = s

/-! ## Sets that a side takes -/

/-- A span takes a TRN set (R138): a set of copies is accepted on a side with a span sequencer whose clocks run, its T0 is B5, it is of the
kind asked for, and the span is between DETECT and UP. The set, and the state in which it acts: after the copies have been
judged and the fields of the set stored. -/
def trnTaken (k : Nat) (sd : Side) (heard : List Heard) (kind : Nat) (s : State) : Option (TrnSet × State) :=
  if !hasSequencer s k sd || sideHeld s k sd then none else
  match setArrives readTrnCommon k sd heard (trnEnds k sd heard s) with
  | (none, _) => none
  | (some t, u) =>
    if t.t0 = 0xB5 && t.kind = kind && spDetect ≤ spanState u k sd && spanState u k sd ≤ spUp then
      some (t, trnFields k sd t u) else none

/-- A trunk side takes a DRN set (R214): a set of copies is accepted on it, D0 is in form and of the kind asked for, and the
span is UP or retraining. The trunk, the set, and the state in which it acts. -/
def drnTaken (k : Nat) (sd : Side) (heard : List Heard) (kind : Nat) (s : State) : Option (Nat × DrnSet × State) :=
  if !sideLive s k sd then none else
  match setArrives readDrn k sd heard s with
  | (none, _) => none
  | (some d, u) =>
    if isTrunkSide u k sd && !drnBad d && d.d0 / 64 % 4 = kind && (spanUp u k sd || spanRetraining u k sd) then
      some (trunkKey u k sd, d, u) else none

end Sys2Proof.Machine
end

