-- ==== Sys2Proof/Touched.lean ====
section
/-!
DEFINITION. The parts of the state, and which of them each command may change.
-/

namespace Sys2Proof.Machine

open Sys2Proof

/-- The parts of the state but the queue: its fields, and the phase of the device within the device's own field. -/
inductive StatePart where
  | regs | cnt | freeCtr | fab | clock | fuse | dev | slots | dies | flows | trunks | lls | sides | spans | links | rx | tx
  | cks | ckEnds | coef | adapt | cal | maps | bobs | prk | bt | plv | clk | ring | entries | host | sel | sec | bist | prbs
  | sup | phase
  deriving DecidableEq, Repr

/-- The place of a part in a mask. -/
def StatePart.bit : StatePart → Nat
  | .regs => 0
  | .cnt => 1
  | .freeCtr => 2
  | .fab => 3
  | .clock => 4
  | .fuse => 5
  | .dev => 6
  | .slots => 7
  | .dies => 8
  | .flows => 9
  | .trunks => 10
  | .lls => 11
  | .sides => 12
  | .spans => 13
  | .links => 14
  | .rx => 15
  | .tx => 16
  | .cks => 17
  | .ckEnds => 18
  | .coef => 19
  | .adapt => 20
  | .cal => 21
  | .maps => 22
  | .bobs => 23
  | .prk => 24
  | .bt => 25
  | .plv => 26
  | .clk => 27
  | .ring => 28
  | .entries => 29
  | .host => 30
  | .sel => 31
  | .sec => 32
  | .bist => 33
  | .prbs => 34
  | .sup => 35
  | .phase => 36

/-- The part is the same in the second state as in the first. -/
def samePart (p : StatePart) (s t : State) : Prop :=
  match p with
  | .regs => t.regs = s.regs
  | .cnt => t.cnt = s.cnt
  | .freeCtr => t.freeCtr = s.freeCtr
  | .fab => t.fab = s.fab
  | .clock => t.clock = s.clock
  | .fuse => t.fuse = s.fuse
  | .dev => t.dev = s.dev
  | .slots => t.slots = s.slots
  | .dies => t.dies = s.dies
  | .flows => t.flows = s.flows
  | .trunks => t.trunks = s.trunks
  | .lls => t.lls = s.lls
  | .sides => t.sides = s.sides
  | .spans => t.spans = s.spans
  | .links => t.links = s.links
  | .rx => t.rx = s.rx
  | .tx => t.tx = s.tx
  | .cks => t.cks = s.cks
  | .ckEnds => t.ckEnds = s.ckEnds
  | .coef => t.coef = s.coef
  | .adapt => t.adapt = s.adapt
  | .cal => t.cal = s.cal
  | .maps => t.maps = s.maps
  | .bobs => t.bobs = s.bobs
  | .prk => t.prk = s.prk
  | .bt => t.bt = s.bt
  | .plv => t.plv = s.plv
  | .clk => t.clk = s.clk
  | .ring => t.ring = s.ring
  | .entries => t.entries = s.entries
  | .host => t.host = s.host
  | .sel => t.sel = s.sel
  | .sec => t.sec = s.sec
  | .bist => t.bist = s.bist
  | .prbs => t.prbs = s.prbs
  | .sup => t.sup = s.sup
  | .phase => t.dev.phase = s.dev.phase

/-- The parts that a command may change, whatever the state; it leaves every other part as it is. -/
def touched : Instr → List StatePart
  | .signalDetect _ _ => [.regs, .cnt, .rx, .cks, .coef, .adapt, .cal]
  | .lossOfSignal _ _ _ => [.regs, .cnt, .freeCtr, .slots, .flows, .trunks, .sides, .spans, .links, .rx, .tx, .cks,
      .ckEnds, .coef, .adapt, .cal, .bobs, .bt, .sel, .bist]
  | .symbolLockAcquired _ _ => [.regs, .cnt, .slots, .flows, .trunks, .sides, .spans, .links, .rx, .cks, .ckEnds,
      .coef, .adapt, .cal, .bobs, .sel]
  | .lockLoss _ _ => [.regs, .cnt, .freeCtr, .slots, .flows, .trunks, .sides, .spans, .links, .rx, .tx, .cks, .ckEnds,
      .coef, .adapt, .cal, .bobs, .bt, .sel, .bist]
  | .balanceWindowEnd _ _ _ => [.regs]
  | .terminationDetect _ _ _ _ => [.regs, .tx, .ckEnds]
  | .terminationDetectDone _ _ => [.regs, .cnt, .freeCtr, .slots, .flows, .trunks, .sides, .spans, .links, .rx, .tx,
      .cks, .ckEnds, .coef, .adapt, .cal, .bobs, .bt, .sel, .bist]
  | .txShort _ _ _ => [.regs, .cnt, .freeCtr, .slots, .flows, .trunks, .sides, .spans, .links, .rx, .tx, .cks, .ckEnds,
      .coef, .adapt, .cal, .bobs, .sel, .bist]
  | .rxOpen _ _ => [.regs, .cnt, .freeCtr, .slots, .flows, .trunks, .sides, .spans, .links, .rx, .tx, .cks, .ckEnds,
      .coef, .adapt, .cal, .bobs, .sel, .bist]
  | .rxOpenClear _ _ => [.regs, .cnt, .slots, .flows, .trunks, .sides, .spans, .links, .rx, .tx, .cks, .ckEnds, .coef,
      .adapt, .cal, .bobs, .sel]
  | .cntSnap _ => [.regs, .host]
  | .cntCtlClear _ => [.cnt]
  | .leCfgWrite _ _ => [.regs, .rx, .tx, .ckEnds, .coef, .adapt, .cal]
  | .ackSetReceive _ _ _ _ _ => [.regs, .cnt, .freeCtr, .slots, .flows, .trunks, .sides, .spans, .links, .rx, .tx, .cks,
      .ckEnds, .coef, .adapt, .cal, .bobs, .bt, .sel, .bist]
  | .idlReceive _ _ _ => [.regs, .cnt, .freeCtr, .slots, .flows, .trunks, .sides, .spans, .links, .rx, .tx, .cks,
      .ckEnds, .coef, .adapt, .cal, .bobs, .bt, .sel, .bist]
  | .eieReceive _ _ _ => [.regs, .cnt, .freeCtr, .slots, .flows, .trunks, .sides, .spans, .links, .rx, .tx, .cks,
      .ckEnds, .coef, .adapt, .cal, .bobs, .bt, .sel, .bist]
  | .skpReceive _ _ _ _ _ => [.regs, .cnt, .freeCtr, .slots, .flows, .trunks, .sides, .spans, .links, .rx, .tx, .cks,
      .ckEnds, .coef, .adapt, .cal, .bobs, .bt, .sel, .bist]
  | .ebSlip _ _ _ => [.cnt, .rx]
  | .deskewRemeasure _ _ _ => [.regs, .cnt, .slots, .flows, .trunks, .sides, .spans, .links, .rx, .cks, .ckEnds, .coef,
      .adapt, .cal, .bobs, .sel]
  | .skpDue _ _ => [.sides]
  | .sendNext _ _ _ _ => [.regs, .cnt, .freeCtr, .slots, .dies, .flows, .trunks, .sides, .spans, .links, .rx, .tx, .cks,
      .ckEnds, .coef, .adapt, .cal, .bobs, .bt, .sel]
  | .clockDutyInvert _ _ => [.regs]
  | .clockLaneQualified _ _ => [.regs, .ckEnds]
  | .clockLaneLoss _ _ => [.regs, .cnt, .slots, .flows, .trunks, .sides, .rx, .tx, .cks, .ckEnds, .coef, .adapt, .cal]
  | .switchoverComplete _ _ => [.regs, .cnt, .slots, .flows, .trunks, .sides, .rx, .tx, .cks, .ckEnds, .coef, .adapt,
      .cal, .bobs]
  | .pllUnlock _ _ => [.regs, .cnt, .slots, .flows, .trunks, .sides, .spans, .links, .rx, .tx, .cks, .ckEnds, .coef,
      .adapt, .cal, .bobs, .bt, .sel]
  | .pllRelock _ _ => [.regs, .cks]
  | .borrowComplete _ _ => [.regs, .cnt, .slots, .flows, .trunks, .tx, .cks, .ckEnds, .coef, .adapt, .cal, .bobs]
  | .holdoverExpiry _ _ => [.regs, .cnt, .slots, .flows, .trunks, .sides, .spans, .links, .rx, .tx, .cks, .ckEnds,
      .coef, .adapt, .cal, .bobs, .bt, .sel]
  | .denseReqResend _ _ => [.sides, .cks]
  | .ckToForwarded _ _ => [.regs, .sides, .cks]
  | .ckToFallback _ _ => [.regs, .sides, .cks]
  | .ckReturnOwn _ _ => [.regs, .cks]
  | .fallbackWaitExpiry _ _ => [.regs, .sides, .rx, .cks]
  | .ckOpComplete _ => [.regs, .cnt, .slots, .flows, .trunks, .sides, .rx, .tx, .cks, .ckEnds, .coef, .adapt, .cal, .bobs]
  | .acqBlockEnd _ _ _ _ _ _ => [.regs, .cnt, .freeCtr, .slots, .flows, .trunks, .sides, .spans, .links, .rx, .tx, .cks,
      .ckEnds, .coef, .adapt, .cal, .bobs, .bt, .sel]
  | .acqTimeout _ _ => [.regs, .cnt, .freeCtr, .slots, .flows, .trunks, .sides, .spans, .links, .rx, .tx, .cks, .ckEnds,
      .coef, .adapt, .cal, .bobs, .bt, .sel]
  | .trackVisitEnd _ _ _ _ => [.regs, .coef, .adapt, .cal]
  | .trackUpdateApply _ _ => [.coef]
  | .adaptReacquire _ _ _ => [.regs, .coef, .adapt, .cal]
  | .adaptFreeze _ _ _ => [.regs, .coef, .adapt, .cal]
  | .adaptThaw _ _ _ => [.regs, .adapt, .cal]
  | .dfeSelWrite _ _ => [.regs]
  | .btLoad => [.regs]
  | .btLoadDone _ _ => [.regs, .rx, .tx, .ckEnds, .coef, .adapt, .cal, .bt]
  | .flashCommand _ => [.regs, .bt]
  | .flashCommandDone _ => [.regs]
  | .capReceive _ _ _ _ => [.regs, .cnt, .freeCtr, .slots, .flows, .trunks, .sides, .spans, .links, .rx, .tx, .cks,
      .ckEnds, .coef, .adapt, .cal, .bobs, .bt, .sel, .bist]
  | .rateReceive _ _ _ => [.regs, .cnt, .freeCtr, .slots, .flows, .trunks, .sides, .spans, .links, .rx, .tx, .cks,
      .ckEnds, .coef, .adapt, .cal, .bobs, .bt, .sel, .bist]
  | .rateAckReceive _ _ _ => [.regs, .cnt, .freeCtr, .slots, .flows, .trunks, .sides, .spans, .links, .rx, .tx, .cks,
      .ckEnds, .coef, .adapt, .cal, .bobs, .bt, .sel, .bist]
  | .readyReceive _ _ _ => [.regs, .cnt, .freeCtr, .slots, .flows, .trunks, .sides, .spans, .links, .rx, .tx, .cks,
      .ckEnds, .coef, .adapt, .cal, .bobs, .bt, .sel, .bist]
  | .echoReqReceive _ _ _ _ => [.regs, .cnt, .freeCtr, .slots, .flows, .trunks, .sides, .spans, .links, .rx, .tx, .cks,
      .ckEnds, .coef, .adapt, .cal, .bobs, .bt, .sel, .bist]
  | .echoRspReceive _ _ _ _ => [.regs, .cnt, .freeCtr, .slots, .flows, .trunks, .sides, .spans, .links, .rx, .tx, .cks,
      .ckEnds, .coef, .adapt, .cal, .bobs, .prk, .bt, .sel, .bist]
  | .retrainReceive _ _ _ => [.regs, .cnt, .freeCtr, .slots, .flows, .trunks, .sides, .spans, .links, .rx, .tx, .cks,
      .ckEnds, .coef, .adapt, .cal, .bobs, .bt, .sel, .bist]
  | .denseReqReceive _ _ _ => [.regs, .cnt, .freeCtr, .slots, .flows, .trunks, .sides, .spans, .links, .rx, .tx, .cks,
      .ckEnds, .coef, .adapt, .cal, .bobs, .bt, .sel, .bist]
  | .denseRelReceive _ _ _ => [.regs, .cnt, .freeCtr, .slots, .flows, .trunks, .sides, .spans, .links, .rx, .tx, .cks,
      .ckEnds, .coef, .adapt, .cal, .bobs, .bt, .sel, .bist]
  | .capSettleExpiry _ _ => [.regs, .cnt, .freeCtr, .slots, .flows, .trunks, .sides, .spans, .links, .rx, .cks, .ckEnds,
      .coef, .adapt, .cal, .bobs, .sel]
  | .switchIdleEnd _ _ => [.regs, .cnt, .slots, .flows, .trunks, .sides, .spans, .links, .rx, .tx, .cks, .ckEnds, .coef,
      .adapt, .cal, .bobs, .bt, .sel]
  | .dwellEnd _ _ _ => [.regs, .cnt, .freeCtr, .slots, .flows, .trunks, .sides, .spans, .links, .rx, .tx, .cks, .ckEnds,
      .coef, .adapt, .cal, .bobs, .bt, .sel]
  | .rungMaxExpiry _ _ => [.regs, .cnt, .freeCtr, .slots, .flows, .trunks, .sides, .spans, .links, .rx, .tx, .cks,
      .ckEnds, .coef, .adapt, .cal, .bobs, .bt, .sel]
  | .trainMaxExpiry _ _ => [.regs, .cnt, .slots, .flows, .trunks, .sides, .spans, .links, .rx, .cks, .ckEnds, .coef,
      .adapt, .cal, .bobs, .sel]
  | .retrainMaxExpiry _ _ => [.regs, .cnt, .slots, .flows, .trunks, .sides, .spans, .links, .rx, .cks, .ckEnds, .coef,
      .adapt, .cal, .bobs, .sel]
  | .rateResend _ _ => [.regs, .cnt, .slots, .flows, .trunks, .sides, .spans, .links, .rx, .cks, .ckEnds, .coef, .adapt,
      .cal, .bobs, .sel]
  | .echoWaitExpiry _ _ => [.regs, .cnt, .slots, .flows, .trunks, .sides, .spans, .links, .rx, .cks, .ckEnds, .coef,
      .adapt, .cal, .bobs, .sel]
  | .downHoldEnd _ _ => [.regs, .cnt, .freeCtr, .slots, .flows, .trunks, .sides, .spans, .links, .rx, .tx, .cks,
      .ckEnds, .coef, .adapt, .cal, .bobs, .bt, .sel]
  | .goTime => [.regs, .cnt, .slots, .flows, .trunks, .sides, .spans, .links, .rx, .tx, .cks, .ckEnds, .coef, .adapt,
      .cal, .bobs, .bt, .sel]
  | .tUpBegin _ => [.regs, .cnt, .slots, .flows, .trunks, .sides, .spans, .links, .rx, .tx, .cks, .ckEnds, .coef,
      .adapt, .cal, .bobs, .prk, .bt, .sel]
  | .trnRetrain _ _ => [.regs, .cnt, .slots, .flows, .trunks, .sides, .spans, .links, .rx, .tx, .cks, .ckEnds, .coef,
      .adapt, .cal, .bobs, .bt, .sel]
  | .trnStep _ _ _ => [.regs, .cnt, .slots, .flows, .trunks, .sides, .spans, .links, .rx, .tx, .cks, .ckEnds, .coef,
      .adapt, .cal, .bobs, .bt, .sel]
  | .trnDown _ => [.regs, .cnt, .slots, .flows, .trunks, .sides, .spans, .links, .rx, .cks, .ckEnds, .coef, .adapt,
      .cal, .bobs, .sel]
  | .trnRestart _ _ => [.regs, .cnt, .freeCtr, .slots, .flows, .trunks, .sides, .spans, .links, .rx, .tx, .cks, .ckEnds,
      .coef, .adapt, .cal, .bobs, .bt, .sel]
  | .flitReceive _ _ _ _ _ _ => [.regs, .cnt, .freeCtr, .slots, .flows, .trunks, .lls, .sides, .spans, .links, .rx, .tx,
      .cks, .ckEnds, .coef, .adapt, .cal, .bobs, .bt, .sel, .bist]
  | .controlFlitReceive _ _ _ => [.regs, .cnt, .freeCtr, .slots, .flows, .trunks, .lls, .sides, .spans, .links, .rx,
      .tx, .cks, .ckEnds, .coef, .adapt, .cal, .bobs, .bt, .sel, .bist]
  | .fltSnap _ => [.regs, .host]
  | .fltClr _ => [.cnt]
  | .darnTimerExpiry _ => [.regs, .cnt, .slots, .flows]
  | .darnSnap _ => [.regs, .host]
  | .darnClr _ => [.cnt]
  | .drnAckReceive _ _ _ => [.regs, .cnt, .freeCtr, .slots, .flows, .trunks, .sides, .spans, .links, .rx, .tx, .cks,
      .ckEnds, .coef, .adapt, .cal, .bobs, .bt, .sel, .bist]
  | .drnNakReceive _ _ _ => [.regs, .cnt, .freeCtr, .slots, .flows, .trunks, .sides, .spans, .links, .rx, .tx, .cks,
      .ckEnds, .coef, .adapt, .cal, .bobs, .bt, .sel, .bist]
  | .drnProbeReceive _ _ _ _ => [.regs, .cnt, .freeCtr, .slots, .flows, .trunks, .sides, .spans, .links, .rx, .tx, .cks,
      .ckEnds, .coef, .adapt, .cal, .bobs, .bt, .sel, .bist]
  | .drnEchoReceive _ _ _ _ => [.regs, .cnt, .freeCtr, .slots, .flows, .trunks, .sides, .spans, .links, .rx, .tx, .cks,
      .ckEnds, .coef, .adapt, .cal, .bobs, .prk, .bt, .sel, .bist]
  | .spanTimerExpiry _ => [.regs, .cnt, .slots, .flows, .trunks, .sides, .spans, .links, .rx, .tx, .cks, .ckEnds, .coef,
      .adapt, .cal, .bobs, .bt, .sel]
  | .drnAckTimer _ => [.cnt, .slots, .trunks]
  | .probeInterval _ => [.trunks]
  | .probeWaitExpiry _ => [.trunks]
  | .proxyAckTimer _ => [.cnt, .sides]
  | .trunkAckRefresh _ => [.cnt, .trunks, .sides]
  | .trkSnap _ => [.regs, .host]
  | .trkClr _ => [.cnt]
  | .controlFlitDue _ => [.flows, .trunks]
  | .llTornWindowEnd _ => [.lls]
  | .llDrainEnd _ => [.regs, .cnt, .slots, .flows, .lls]
  | .llCacheRefresh _ => [.lls]
  | .llSnap _ => [.regs, .host]
  | .llClr _ => [.cnt]
  | .calSnap _ => [.regs, .host]
  | .calClr _ => [.cnt]
  | .qstSelWrite _ _ => [.regs]
  | .remirror _ _ => [.regs, .cnt, .freeCtr, .slots, .dies, .flows, .trunks, .sides]
  | .ceWindowEnd _ => [.dies]
  | .bankSaveDone _ => [.regs, .cnt, .freeCtr, .slots, .dies, .flows, .trunks, .sides, .spans, .links, .rx, .tx, .cks,
      .ckEnds, .coef, .adapt, .cal, .bobs, .prk, .sel, .bist]
  | .bankTestEnd _ _ => [.regs, .cnt, .freeCtr, .slots, .dies, .flows, .trunks, .sides, .spans, .links, .rx, .tx, .cks,
      .ckEnds, .coef, .adapt, .cal, .bobs, .prk, .sel, .bist]
  | .bankRestoreDone _ => [.regs, .cnt, .slots, .dies, .flows, .trunks, .sides]
  | .evacuationDone _ => [.regs, .cnt, .freeCtr, .slots, .dies, .flows, .trunks, .sides]
  | .bufRetire _ _ => [.regs, .cnt, .freeCtr, .slots, .dies, .flows, .trunks, .sides, .spans, .links, .rx, .tx, .cks,
      .ckEnds, .coef, .adapt, .cal, .bobs, .prk, .sel, .bist]
  | .bufReturn _ _ => [.regs, .cnt, .freeCtr, .slots, .dies, .flows, .trunks, .sides, .spans, .links, .rx, .tx, .cks,
      .ckEnds, .coef, .adapt, .cal, .bobs, .prk, .sel, .bist]
  | .bufTestNow _ _ => [.regs, .cnt, .freeCtr, .slots, .dies, .flows, .trunks, .sides, .spans, .links, .rx, .tx, .cks,
      .ckEnds, .coef, .adapt, .cal, .bobs, .prk, .sel, .bist]
  | .bufSnap _ => [.regs, .host]
  | .bufClr _ => [.regs, .cnt]
  | .descSelWrite _ _ => [.regs]
  | .prkCommit => [.regs, .prk]
  | .prkCheck => [.regs, .prk]
  | .prkRevert => [.regs, .prk]
  | .lnkCommit _ _ => [.regs, .prk]
  | .checkEnd => [.regs, .cnt, .slots, .flows, .trunks, .sides, .spans, .links, .rx, .cks, .ckEnds, .coef, .adapt, .cal,
      .prk, .sel]
  | .tApply => [.regs, .cnt, .freeCtr, .slots, .dies, .flows, .trunks, .lls, .sides, .spans, .links, .rx, .tx, .cks,
      .ckEnds, .coef, .adapt, .cal, .bobs, .prk, .bt, .sel, .sec]
  | .recheckStart _ => [.regs, .prk]
  | .bobbinAcqLimit _ _ => [.regs, .coef, .adapt, .cal, .bobs]
  | .bobbinSwitch _ _ => [.regs, .cnt, .slots, .flows, .trunks, .sides, .spans, .rx, .tx, .cks, .ckEnds, .coef, .adapt,
      .cal, .bobs, .bt]
  | .swapAbandon _ => [.regs, .cnt, .slots, .flows, .trunks, .sides, .spans, .links, .rx, .tx, .cks, .ckEnds, .coef,
      .adapt, .cal, .bobs, .sel]
  | .oldTxIdle _ => [.regs, .tx, .coef, .adapt, .cal, .bobs]
  | .swpSwap _ _ => [.regs, .cnt, .freeCtr, .slots, .flows, .trunks, .tx, .ckEnds, .coef, .adapt, .cal, .bobs, .bist]
  | .swpReturn _ => [.regs, .cnt, .slots, .flows, .trunks, .tx, .ckEnds, .coef, .adapt, .cal, .bobs]
  | .swpEnable _ => [.regs, .freeCtr, .bobs, .bist]
  | .swpDisable _ => [.regs, .freeCtr, .tx, .coef, .adapt, .cal, .bobs, .bist]
  | .sideMapWrite _ _ => [.regs, .cnt, .freeCtr, .slots, .flows, .trunks, .sides, .spans, .links, .rx, .tx, .cks,
      .ckEnds, .coef, .adapt, .cal, .maps, .bobs, .bt, .sel]
  | .lanePosWrite _ _ => [.regs, .maps]
  | .mapDrainEnd _ => [.regs, .maps]
  | .mapTornEnd _ => [.regs, .cnt, .freeCtr, .slots, .flows, .trunks, .sides, .spans, .links, .rx, .tx, .cks, .ckEnds,
      .coef, .adapt, .cal, .maps, .bobs, .bt, .sel]
  | .mapCacheRefresh _ _ => [.maps]
  | .nativeJudgePass => [.regs, .cnt, .dies, .cks, .clk]
  | .compatJudgeEnd _ _ => [.regs, .cnt, .dies, .cks, .clk]
  | .ifoReady => [.regs, .clk]
  | .ifoReadyTimeout => [.regs]
  | .ifoMeasureEnd _ => [.regs]
  | .monitorWindowEnd _ => [.regs, .cnt, .freeCtr, .slots, .dies, .flows, .trunks, .cks, .adapt, .cal, .bobs, .clk, .bist]
  | .pllHoldover _ => [.regs, .clk]
  | .refclkReturn _ => [.regs, .clk]
  | .pllIfoLock _ => [.regs, .cnt, .freeCtr, .slots, .dies, .flows, .trunks, .cks, .adapt, .cal, .bobs, .clk, .bist]
  | .returnHoldExpiry => [.regs, .clk]
  | .clkCfgWrite _ => [.regs, .clk]
  | .ifoLoss => [.regs, .clk]
  | .clockUnusableFence => [.regs, .cnt, .freeCtr, .slots, .dies, .flows, .trunks, .sides, .spans, .links, .rx, .tx,
      .cks, .ckEnds, .coef, .adapt, .cal, .bobs, .sel, .bist]
  | .corePllUnlock _ => [.regs, .cnt, .freeCtr, .slots, .dies, .flows, .trunks, .sides, .spans, .links, .rx, .tx, .cks,
      .ckEnds, .coef, .adapt, .cal, .bobs, .sel, .bist]
  | .corePllRelock _ => [.regs]
  | .plRequest _ _ => [.regs, .plv]
  | .plVoltageSettled _ _ => [.regs]
  | .plDividerSwitched _ => [.regs, .freeCtr, .dies, .bobs, .bist]
  | .mgmtPllUnlock => [.regs]
  | .seamPllUnlock => [.regs]
  | .clkEnWrite _ _ => [.regs, .dies, .bist]
  | .fmStart => [.regs]
  | .fmRunEnd _ _ => [.regs]
  | .watchEnter _ => [.regs, .cnt, .dev, .slots, .flows, .trunks, .sides, .spans, .links, .rx, .tx, .cks, .ckEnds,
      .coef, .adapt, .cal, .sel]
  | .watchEntryDone => [.regs, .dev, .slots, .cks, .ckEnds, .clk, .bist, .phase]
  | .watchWake => [.regs, .dev]
  | .wakeNLow => [.regs, .dev]
  | .wakeSigdet _ _ => [.regs, .dev]
  | .wakeSource _ => [.regs, .dev]
  | .wakeComplete => [.regs, .cnt, .freeCtr, .dev, .slots, .dies, .flows, .trunks, .sides, .spans, .links, .rx, .tx,
      .cks, .ckEnds, .coef, .adapt, .cal, .bobs, .bt, .ring, .entries, .sel, .bist, .phase]
  | .wakeIfoTimeout => [.regs, .dev, .clk]
  | .tempSample _ => [.regs, .cnt, .freeCtr, .slots, .dies, .flows, .trunks, .sides, .spans, .links, .rx, .tx, .cks,
      .ckEnds, .coef, .adapt, .cal, .bobs, .sel, .bist, .sup]
  | .calRunStart _ => [.regs, .cal]
  | .calRunEnd _ _ => [.regs, .adapt, .cal]
  | .calStepApply _ => [.regs, .cal]
  | .rextFault => [.regs, .adapt, .cal]
  | .rextFaultClear => [.regs]
  | .calEnd _ _ => [.regs, .cal]
  | .calAll _ => [.regs, .cal]
  | .calEye _ _ => [.regs, .cal]
  | .eyeEnd _ _ _ => [.regs, .adapt, .cal]
  | .calSelWrite _ _ => [.regs]
  | .sliceInterval => [.regs, .dies, .bobs, .bist]
  | .bobbinSliceEnd _ _ _ _ _ => [.regs, .bobs, .bist]
  | .bistStall _ => [.regs, .freeCtr, .dies, .bobs, .bist]
  | .bstBobbinNow _ => [.regs, .bobs, .bist]
  | .bstAbort => [.regs, .freeCtr, .dies, .bobs, .bist]
  | .bstFull => [.regs, .slots, .flows, .trunks, .sel, .bist]
  | .bstTestEnter _ => [.regs, .cnt, .freeCtr, .dev, .slots, .dies, .flows, .trunks, .sides, .spans, .links, .rx, .cks,
      .ckEnds, .coef, .adapt, .cal, .bobs, .sel, .sec, .bist]
  | .bstCfgWrite _ => [.regs, .bist]
  | .lbCfgWrite _ _ => [.regs, .tx]
  | .prbsGenWrite _ _ => [.regs, .tx]
  | .prbsChkWrite _ _ => [.regs, .prbs]
  | .prbsLock _ _ => [.regs]
  | .prbsLockLoss _ _ _ => [.regs, .cnt, .prbs]
  | .prbsErrThreshold _ _ _ => [.regs, .cnt, .prbs]
  | .prbsSnap _ => [.regs, .host]
  | .prbsClr _ => [.cnt]
  | .testEnHigh => [.regs, .cnt, .freeCtr, .dev, .slots, .dies, .flows, .trunks, .sides, .spans, .links, .rx, .cks,
      .ckEnds, .coef, .adapt, .cal, .bobs, .sel, .sec, .bist]
  | .testEntryDone _ => [.regs, .dev, .slots, .flows, .trunks, .sel, .bist, .phase]
  | .extest => [.regs, .cnt, .freeCtr, .dev, .slots, .dies, .flows, .trunks, .sides, .spans, .links, .rx, .cks, .ckEnds,
      .coef, .adapt, .cal, .bobs, .sel, .sec, .bist]
  | .samplePreload => [.regs, .cnt, .freeCtr, .dev, .slots, .dies, .flows, .trunks, .sides, .spans, .links, .rx, .cks,
      .ckEnds, .coef, .adapt, .cal, .bobs, .sel, .sec, .bist]
  | .idcode => [.regs, .cnt, .freeCtr, .dev, .slots, .dies, .flows, .trunks, .sides, .spans, .links, .rx, .cks, .ckEnds,
      .coef, .adapt, .cal, .bobs, .host, .sel, .sec, .bist]
  | .clamp => [.regs, .cnt, .freeCtr, .dev, .slots, .dies, .flows, .trunks, .sides, .spans, .links, .rx, .cks, .ckEnds,
      .coef, .adapt, .cal, .bobs, .sel, .sec, .bist]
  | .highz => [.regs, .cnt, .freeCtr, .dev, .slots, .dies, .flows, .trunks, .sides, .spans, .links, .rx, .cks, .ckEnds,
      .coef, .adapt, .cal, .bobs, .sel, .sec, .bist]
  | .extestPulse => [.regs, .cnt, .freeCtr, .dev, .slots, .dies, .flows, .trunks, .sides, .spans, .links, .rx, .cks,
      .ckEnds, .coef, .adapt, .cal, .bobs, .sel, .sec, .bist]
  | .extestTrain => [.regs, .cnt, .freeCtr, .dev, .slots, .dies, .flows, .trunks, .sides, .spans, .links, .rx, .cks,
      .ckEnds, .coef, .adapt, .cal, .bobs, .sel, .sec, .bist]
  | .scanEntry => [.regs, .cnt, .freeCtr, .dev, .slots, .dies, .flows, .trunks, .sides, .spans, .links, .rx, .cks,
      .ckEnds, .coef, .adapt, .cal, .bobs, .sel, .sec, .bist]
  | .bypass => [.regs, .cnt, .freeCtr, .dev, .slots, .dies, .flows, .trunks, .sides, .spans, .links, .rx, .cks, .ckEnds,
      .coef, .adapt, .cal, .bobs, .sel, .sec, .bist]
  | .jtagTrst => [.dev]
  | .supplyWarnSet _ => [.regs, .freeCtr, .dies, .bobs, .bist]
  | .supplyWarnClear _ => [.regs, .dies, .bist]
  | .supplySample _ => [.regs]
  | .brownOutReset _ => [.regs, .cnt, .freeCtr, .fab, .clock, .fuse, .dev, .slots, .dies, .flows, .trunks, .lls, .sides,
      .spans, .links, .rx, .tx, .cks, .ckEnds, .coef, .adapt, .cal, .maps, .bobs, .prk, .bt, .plv, .clk, .ring,
      .entries, .host, .sel, .sec, .bist, .prbs, .sup, .phase]
  | .powerOnReset => [.regs, .cnt, .freeCtr, .fab, .clock, .fuse, .dev, .slots, .dies, .flows, .trunks, .lls, .sides,
      .spans, .links, .rx, .tx, .cks, .ckEnds, .coef, .adapt, .cal, .maps, .bobs, .prk, .bt, .plv, .clk, .ring,
      .entries, .host, .sel, .sec, .bist, .prbs, .sup, .phase]
  | .pinReset => [.regs, .cnt, .freeCtr, .fab, .clock, .fuse, .dev, .slots, .dies, .flows, .trunks, .lls, .sides,
      .spans, .links, .rx, .tx, .cks, .ckEnds, .coef, .adapt, .cal, .maps, .bobs, .prk, .bt, .plv, .clk, .ring,
      .entries, .host, .sel, .sec, .bist, .prbs, .sup, .phase]
  | .resetRelease _ => [.regs, .fab, .clock, .dev, .phase]
  | .startStepEnd _ => [.regs, .cnt, .freeCtr, .fuse, .dev, .slots, .dies, .flows, .trunks, .cks, .adapt, .cal, .bobs,
      .clk, .ring, .entries, .bist]
  | .ringWaitEnd => [.regs, .dev]
  | .startComplete => [.regs, .cnt, .freeCtr, .dev, .slots, .dies, .flows, .trunks, .sides, .spans, .links, .rx, .tx,
      .cks, .ckEnds, .coef, .adapt, .cal, .bobs, .ring, .sel, .bist, .phase]
  | .bootRelease => [.regs, .dev, .ring]
  | .fenceCmdFence _ => [.regs, .cnt, .freeCtr, .slots, .dies, .flows, .trunks, .sides, .spans, .links, .rx, .tx, .cks,
      .ckEnds, .coef, .adapt, .cal, .bobs, .prk, .bt, .sel, .bist]
  | .fenceCmdLift _ => [.regs, .cnt, .freeCtr, .slots, .dies, .flows, .trunks, .sides, .spans, .links, .rx, .tx, .cks,
      .ckEnds, .coef, .adapt, .cal, .bobs, .prk, .bt, .sel, .bist]
  | .softReset _ => [.regs, .cnt]
  | .sourceInput _ _ => [.regs]
  | .intClaim _ _ => [.regs, .entries, .host]
  | .intComplete _ _ _ _ => [.regs, .ring]
  | .doorbellWrite _ => [.regs]
  | .srcCfgWrite _ _ => [.regs]
  | .ringDeliverSend _ => [.regs, .ring, .entries]
  | .deliverResend _ => [.ring]
  | .spiWrite _ _ _ _ => [.regs, .cnt, .freeCtr, .fuse, .dev, .slots, .dies, .flows, .trunks, .sides, .spans, .links,
      .rx, .tx, .cks, .ckEnds, .coef, .adapt, .cal, .maps, .bobs, .prk, .bt, .plv, .clk, .ring, .entries, .host, .sel,
      .sec, .bist, .prbs, .sup]
  | .spiRead _ _ _ _ => [.regs, .freeCtr, .ring, .entries, .host]
  | .spiWriteBlock _ _ _ _ => [.regs, .cnt, .freeCtr, .fuse, .dev, .slots, .dies, .flows, .trunks, .sides, .spans,
      .links, .rx, .tx, .cks, .ckEnds, .coef, .adapt, .cal, .maps, .bobs, .prk, .bt, .plv, .clk, .ring, .entries, .host,
      .sel, .sec, .bist, .prbs, .sup]
  | .spiReadBlock _ _ _ _ => [.regs, .freeCtr, .ring, .entries, .host]
  | .spiFetch _ _ _ => [.regs, .freeCtr, .ring, .host]
  | .spiStatus _ _ _ => [.regs, .ring, .host]
  | .spiBadOpcode _ => [.regs]
  | .smbPointer _ _ => [.regs, .ring, .host]
  | .smbWrite _ _ => [.regs, .cnt, .freeCtr, .fuse, .dev, .slots, .dies, .flows, .trunks, .sides, .spans, .links, .rx,
      .tx, .cks, .ckEnds, .coef, .adapt, .cal, .maps, .bobs, .prk, .bt, .plv, .clk, .ring, .entries, .host, .sel, .sec,
      .bist, .prbs, .sup]
  | .smbRead _ => [.regs, .freeCtr, .ring, .entries, .host]
  | .smbFetch => [.regs, .freeCtr, .host]
  | .smbStatus => [.host]
  | .smbBusTimeout => [.regs]
  | .ringTrainReceive _ _ => [.regs, .ring, .entries]
  | .ringTrainSend => [.freeCtr, .ring]
  | .hopBroken _ => [.regs, .ring, .entries]
  | .ringEnum _ _ => [.regs, .ring, .entries]
  | .ringPresent _ _ => [.regs, .ring]
  | .enumTimeout => [.regs, .ring, .entries]
  | .ringDone _ _ => [.regs, .ring, .entries]
  | .ringBreak _ _ => [.regs, .ring, .entries]
  | .ringTime _ _ => [.regs, .cnt, .freeCtr, .fab, .slots, .flows, .trunks, .sides, .ring]
  | .ringTimeSend => [.ring]
  | .timeLoss => [.regs]
  | .ringGo _ _ => [.regs, .cnt, .slots, .flows, .trunks, .sides, .spans, .links, .rx, .tx, .cks, .ckEnds, .coef,
      .adapt, .cal, .bobs, .bt, .ring, .sel]
  | .goAuto => [.regs, .cnt, .slots, .flows, .trunks, .sides, .spans, .links, .rx, .tx, .cks, .ckEnds, .coef, .adapt,
      .cal, .bobs, .bt, .ring, .sel]
  | .ringReady _ _ => [.regs, .ring]
  | .ringReq _ _ => [.regs, .cnt, .freeCtr, .fuse, .dev, .slots, .dies, .flows, .trunks, .sides, .spans, .links, .rx,
      .tx, .cks, .ckEnds, .coef, .adapt, .cal, .maps, .bobs, .prk, .bt, .plv, .clk, .ring, .entries, .host, .sel, .sec,
      .bist, .prbs, .sup]
  | .ringRsp _ _ => [.regs, .freeCtr, .ring, .host]
  | .remoteTimeout _ => [.regs, .freeCtr, .host]
  | .ringDeliver _ _ => [.regs, .ring, .entries]
  | .ringComplete _ _ => [.regs, .ring]
  | .pctEnumerate => [.regs, .ring, .entries]
  | .pctGo => [.regs, .cnt, .slots, .flows, .trunks, .sides, .spans, .links, .rx, .tx, .cks, .ckEnds, .coef, .adapt,
      .cal, .bobs, .bt, .ring, .sel]
  | .selReadReq _ _ _ => [.regs, .cnt, .freeCtr, .slots, .flows, .trunks, .sides, .spans, .links, .rx, .tx, .cks,
      .ckEnds, .coef, .adapt, .cal, .bobs, .bt, .sel, .bist]
  | .selWriteReq _ _ _ => [.regs, .cnt, .freeCtr, .slots, .flows, .trunks, .sides, .spans, .links, .rx, .tx, .cks,
      .ckEnds, .coef, .adapt, .cal, .bobs, .bt, .sel, .bist]
  | .selAttestReq _ _ _ => [.regs, .cnt, .freeCtr, .slots, .flows, .trunks, .sides, .spans, .links, .rx, .tx, .cks,
      .ckEnds, .coef, .adapt, .cal, .bobs, .bt, .sel, .bist]
  | .selRequestServe => [.regs, .cnt, .freeCtr, .fuse, .dev, .slots, .dies, .flows, .trunks, .sides, .spans, .links,
      .rx, .tx, .cks, .ckEnds, .coef, .adapt, .cal, .maps, .bobs, .prk, .bt, .plv, .clk, .ring, .entries, .host, .sel,
      .sec, .bist, .prbs, .sup]
  | .keyLoad _ => [.regs, .cnt, .fuse, .sel]
  | .keyClear _ => [.regs, .cnt, .fuse, .sel]
  | .keyEnroll _ => [.regs, .cnt, .fuse, .sel]
  | .keyRevoke _ => [.regs, .cnt, .fuse, .sel]
  | .attGenerate => [.regs, .sec]
  | .attGenerateDone => [.regs, .sec]
  | .prickingDigestDone => [.regs, .sec]
  | .loReadLatch _ => [.regs, .entries, .host]
  | .registerWrite _ _ => [.regs, .cnt, .freeCtr, .fuse, .dev, .slots, .dies, .flows, .trunks, .sides, .spans, .links,
      .rx, .tx, .cks, .ckEnds, .coef, .adapt, .cal, .maps, .bobs, .prk, .bt, .plv, .clk, .ring, .entries, .host, .sel,
      .sec, .bist, .prbs, .sup]
  | .commaDetect _ _ _ _ => [.regs, .cnt, .freeCtr, .slots, .flows, .trunks, .sides, .spans, .links, .rx, .tx, .cks,
      .ckEnds, .coef, .adapt, .cal, .bobs, .bt, .sel, .bist]
  | .aligningBadSymbol _ _ => [.regs, .rx]
  | .lolWindowEnd _ _ => [.rx]
  | .switchoverLockExpiry _ _ => [.regs, .cnt, .slots, .flows, .trunks, .sides, .spans, .links, .rx, .tx, .cks, .ckEnds,
      .coef, .adapt, .cal, .bobs, .bt, .sel]
  | .mgmtPllRelock => [.regs]
  | .seamPllRelock => [.regs]
  | .calCodeStep _ => [.regs, .cal]
  | .postPauseLimit => [.regs]
  | .prbsErrWindowEnd _ _ _ => [.regs, .cnt, .prbs]
  | .softResetDone _ => [.regs, .cnt, .freeCtr, .fuse, .dev, .slots, .dies, .flows, .trunks, .sides, .spans, .links,
      .rx, .tx, .cks, .ckEnds, .coef, .adapt, .cal, .maps, .bobs, .prk, .bt, .plv, .clk, .ring, .entries, .host, .sel,
      .sec, .bist, .prbs, .sup]

end Sys2Proof.Machine
end

