-- ==== Sys2Proof/Certificates/Slice0/Obligations.lean ====
section
/-!
DEFINITION. The statements about the model, for the provers: what every command of the table does
(completion, one clause per case), what stops it, the invariants every command keeps, and what each
command leaves alone.  The hypotheses of each clause are about the state and the operands alone.
-/

open Sys2Proof Sys2Proof.Machine

/-- From any state whose sparse tables (registers, live counters, slots, flows, sides, maps and the rest) stand in the
canonical form - keys rising, nothing listed at the value its key has by default - every step that answers a next
state, whatever command is at the front of the queue, leaves them in that form. Equal machines are then equal data,
and a register reads what was last written to it. -/
def Obligations.TablesStayCanonical : Prop :=
  ∀ s t : State, tablesCanonical s = true → step s = .next t → tablesCanonical t = true

/-- Whatever command runs, in any state: the commands that wait stay as they are, and of the fuses the part, the
revision, the saffron image and the identity key stay as they are, a customer key slot once enrolled stays enrolled
with its key, a revoked one stays revoked, and a row once fused stays fused. R461 (ENROLL writes a slot once, REVOKE
sets its revoked bit once) and R477 (fuses are never changed by a reset) are two of the rules this rests on. -/
def Obligations.CommandsKeepQueueAndFuses : Prop :=
  ∀ (c : Instr) (s t : State), exec c s = .next t → t.pending = s.pending ∧ fusesKept s t

/-- For each of the commands of the opcode table the table `touched` names the parts of the state that it may change:
the register store, the live counters, the fabric time, the fuses, the device's own field and its phase, the slots,
flows, trunks, logical links, sides, spans, links, lane ends, clock directions, coefficients, calibration queues,
lane maps, bobbins, and so on. Whatever the state, a command that answers a next state leaves every part outside its
row exactly as it was. The rows come from what the rules say each command does; the queue and the fuses are in
CommandsKeepQueueAndFuses, and the statements of each family say what the named parts become. (The division of the
state into parts is the model's, log 15.) -/
def Obligations.CommandsTouchOnlyTheirParts : Prop :=
  ∀ (c : Instr) (s t : State) (p : StatePart), exec c s = .next t → p ∉ touched c → samePart p s t

/-- Whatever command runs in whatever state, the phase of the device (OFF, START, SERVICE or GUARD, WATCH, TEST; SERVICE
and GUARD differ by the fences that stand) stays as it is, but for these: the release of reset takes OFF to START;
the end of START takes START to SERVICE or GUARD; the end of a WATCH entry that is in progress reaches WATCH; the
completion of a wake that is in progress reaches SERVICE or GUARD; the end of a TEST entry that is in progress
reaches TEST; and a power-on, pin or brown-out reset reaches OFF. -/
def Obligations.DeviceStateMovesOnlyAsItsTableSays : Prop :=
  ∀ (c : Instr) (s t : State), exec c s = .next t → t.dev.phase = s.dev.phase ∨ (∃ v, c = .resetRelease v ∧
    s.dev.phase = .off ∧ t.dev.phase = .start) ∨ (c = .startComplete ∧ s.dev.phase = .start ∧ t.dev.phase = .run) ∨ (c
    = .watchEntryDone ∧ s.dev.watchEntry = true ∧ t.dev.phase = .watch) ∨ (c = .wakeComplete ∧ s.dev.waking = true ∧
    t.dev.phase = .run) ∨ (∃ us, c = .testEntryDone us ∧ s.dev.testEntry ≠ 0 ∧ t.dev.phase = .test) ∨ ((c =
    .powerOnReset ∨ c = .pinReset ∨ ∃ x, c = .brownOutReset x) ∧ t.dev.phase = .off)

/-- The invariant of TablesStayCanonical holds at State.reset. There every register field reads the value the offset
index and the register tables give for reset (R495), every live count is 0, the device state is OFF, FAULT_N is
driven low as in every reset hold (R471), no page answers, and no command, copy, slot or ring entry is there. Where
the spec gives no reset value the table holds the one the log names (log 3 for the fuses, log 40 for the rate plan;
the model's choice). -/
def Obligations.ResetState : Prop :=
  tablesCanonical State.reset = true ∧
  (∀ f : Fld, State.reset.rd f = resetOf f.key) ∧
  (∀ f : Fld, State.reset.live f = 0) ∧
  deviceState State.reset = 0 ∧ faultN State.reset = true ∧
  (∀ p : Nat, pageOpen State.reset p = false) ∧
  State.reset.pending = [] ∧ State.reset.slots = [] ∧ State.reset.flows = [] ∧ State.reset.entries = [] ∧
  State.reset.rd (R.SRC_CFG_en 256) = 1 ∧ State.reset.rd (R.SRC_CFG_en 16) = 0

/-- For every command and every state, a step of the state with that command at the front of its queue is exactly exec
of the command on the state with the queue's rest. The statements about single commands reach a run through this
one. -/
def Obligations.StepRunsFrontCommand : Prop :=
  ∀ (c : Instr) (rest : List Instr) (s : State), step { s with pending := c :: rest } = exec c
    { s with pending := rest }

/-- On an empty queue a step is one nanosecond (DESIGN CHOICE, log 10): outside OFF the local clock counts one, a bobbin
whose neighbour switches at that time lets its frozen timers go (R325), the pattern generators run (R387), and where
there is neither nothing else changes; the fabric time counts one unless a correction holds it back, in which case
the hold counts down; in OFF the state stays as it is. Fabric time counts at 1 ns resolution (R450). The opcode
table gives no row any bits: no word spells a command, and withFetchWord leaves the state (log 11). -/
def Obligations.IdleStepIsOneNanosecond : Prop :=
  (∀ s : State, s.pending = [] → s.dev.phase = .off → step s = .next s) ∧
  (∀ s u : State, u = genTicks (nbrSwitched { s with clock := s.clock + 1 }) → s.pending = [] → s.dev.phase ≠ .off →
    u.ring.hold = 0 → step s = .next { u with fab := u.fab + 1 }) ∧
  (∀ s u : State, u = genTicks (nbrSwitched { s with clock := s.clock + 1 }) → s.pending = [] → s.dev.phase ≠ .off →
    u.ring.hold ≠ 0 → step s = .next { u with ring := { u.ring with hold := u.ring.hold - 1 } }) ∧
  (∀ s : State, (∀ c < 16, (s.bob c).nbrAt = none) → genEnds s = [] → genTicks (nbrSwitched
    { s with clock := s.clock + 1 }) = { s with clock := s.clock + 1 }) ∧
  (∀ nbits w : Nat, decodeTableWord nbits w = none) ∧
  (∀ (s : State) (nbits w : Nat), s.withFetchWord nbits w = s)

/-- What happens at a unit cannot happen at one the part does not have (R2 and R3 say what the LZ4064 lacks): a command
of this table that reports an event at such a lane, cluster, die, rail, PLL, source, link, flow, trunk, logical
link, calendar or ring direction ends in the fault noSuchUnit, the model's name for it (log 13; DESIGN CHOICE,
safe). Register commands are not among these: a register of an absent unit reads as zero and drops writes (R3, R483;
ClosedPagesDropCommands). -/
def Obligations.AbsentUnitsFault : Prop :=
  (∀ (s : State) (e : LaneEnd) (x : Sensed), lanePresent s e.n = false → exec (.signalDetect e x) s = .fault
    .noSuchUnit) ∧
  (∀ (s : State) (e : LaneEnd) (x : Sensed) (also : List Nat), lanePresent s e.n = false → exec (.lossOfSignal e x
    also) s = .fault .noSuchUnit) ∧
  (∀ (s : State) (e : LaneEnd) (plus : Bool), lanePresent s e.n = false → exec (.symbolLockAcquired e plus) s = .fault
    .noSuchUnit) ∧
  (∀ (s : State) (e : LaneEnd) (also : List Nat), lanePresent s e.n = false → exec (.lockLoss e also) s = .fault
    .noSuchUnit) ∧
  (∀ (s : State) (n : Nat) (sd : Side) (counts : List Nat), lanePresent s n = false → exec (.balanceWindowEnd n sd
    counts) s = .fault .noSuchUnit) ∧
  (∀ (s : State) (c : Nat) (absent : List Nat), ¬ (c < clustersOf s) → exec (.terminationDetectDone c absent) s =
    .fault .noSuchUnit) ∧
  (∀ (s : State) (n : Nat) (sd : Side), lanePresent s n = false → exec (.rxOpen n sd) s = .fault .noSuchUnit) ∧
  (∀ (s : State) (n : Nat) (sd : Side), lanePresent s n = false → exec (.rxOpenClear n sd) s = .fault .noSuchUnit) ∧
  (∀ (s : State) (e : LaneEnd) (full : Bool) (pos : Nat), lanePresent s e.n = false → exec (.ebSlip e full pos) s =
    .fault .noSuchUnit) ∧
  (∀ (s : State) (n : Nat) (sd : Side) (skew : Nat), lanePresent s n = false → exec (.deskewRemeasure n sd skew) s =
    .fault .noSuchUnit) ∧
  (∀ (s : State) (c : Nat) (d : Dir), ¬ (c < clustersOf s) → exec (.clockDutyInvert c d) s = .fault .noSuchUnit) ∧
  (∀ (s : State) (c : Nat) (d : Dir), ¬ (c < clustersOf s) → exec (.switchoverComplete c d) s = .fault .noSuchUnit) ∧
  (∀ (s : State) (c : Nat) (d : Dir), ¬ (c < clustersOf s) → exec (.pllUnlock c d) s = .fault .noSuchUnit) ∧
  (∀ (s : State) (c : Nat) (d : Dir), ¬ (c < clustersOf s) → exec (.pllRelock c d) s = .fault .noSuchUnit) ∧
  (∀ (s : State) (c : Nat) (d : Dir), ¬ (c < clustersOf s) → exec (.borrowComplete c d) s = .fault .noSuchUnit) ∧
  (∀ (s : State) (c : Nat) (d : Dir), ¬ (c < clustersOf s) → exec (.holdoverExpiry c d) s = .fault .noSuchUnit) ∧
  (∀ (s : State) (c : Nat) (d : Dir), ¬ (c < clustersOf s) → exec (.denseReqResend c d) s = .fault .noSuchUnit) ∧
  (∀ (s : State) (c : Nat) (d : Dir), ¬ (c < clustersOf s) → exec (.fallbackWaitExpiry c d) s = .fault .noSuchUnit) ∧
  (∀ (s : State) (c : Nat), ¬ (c < clustersOf s) → exec (.ckOpComplete c) s = .fault .noSuchUnit) ∧
  (∀ (s : State) (n : Nat) (sd : Side) (mse : Nat) (coefs : List Int) (f1pos f2pos : Nat), lanePresent s n = false →
    exec (.acqBlockEnd n sd mse coefs f1pos f2pos) s = .fault .noSuchUnit) ∧
  (∀ (s : State) (n : Nat) (sd : Side), lanePresent s n = false → exec (.acqTimeout n sd) s = .fault .noSuchUnit) ∧
  (∀ (s : State) (n : Nat) (sd : Side) (mse : Nat) (steps : List Int), lanePresent s n = false → exec (.trackVisitEnd
    n sd mse steps) s = .fault .noSuchUnit) ∧
  (∀ (s : State) (n : Nat) (sd : Side), lanePresent s n = false → exec (.trackUpdateApply n sd) s = .fault
    .noSuchUnit) ∧
  (∀ (s : State) (c : Nat) (sd : Side), ¬ (c < clustersOf s) → exec (.bobbinAcqLimit c sd) s = .fault .noSuchUnit) ∧
  (∀ (s : State) (c : Nat) (sd : Side), ¬ (c < clustersOf s) → exec (.bobbinSwitch c sd) s = .fault .noSuchUnit) ∧
  (∀ (s : State) (c : Nat), ¬ (c < clustersOf s) → exec (.swapAbandon c) s = .fault .noSuchUnit) ∧
  (∀ (s : State) (c : Nat), ¬ (c < clustersOf s) → exec (.oldTxIdle c) s = .fault .noSuchUnit) ∧
  (∀ (s : State) (unit : Nat), (pllUnits s).contains unit = false → exec (.pllHoldover unit) s = .fault .noSuchUnit) ∧
  (∀ (s : State) (unit : Nat), (pllUnits s).contains unit = false → exec (.refclkReturn unit) s = .fault .noSuchUnit) ∧
  (∀ (s : State) (unit : Nat), (pllUnits s).contains unit = false → exec (.pllIfoLock unit) s = .fault .noSuchUnit) ∧
  (∀ (s : State) (n : Nat) (sd : Side), lanePresent s n = false → exec (.wakeSigdet n sd) s = .fault .noSuchUnit) ∧
  (∀ (s : State) (c : Nat), ¬ (c < clustersOf s) → exec (.calRunStart c) s = .fault .noSuchUnit) ∧
  (∀ (s : State) (c : Nat) (meas : CalMeasure), ¬ (c < clustersOf s) → exec (.calRunEnd c meas) s = .fault
    .noSuchUnit) ∧
  (∀ (s : State) (c : Nat), ¬ (c < clustersOf s) → exec (.calStepApply c) s = .fault .noSuchUnit) ∧
  (∀ (s : State) (c : Nat) (eyes : List EyeScan) (aborted : Bool), ¬ (c < clustersOf s) → exec (.eyeEnd c eyes
    aborted) s = .fault .noSuchUnit) ∧
  (∀ (s : State) (c bits errors : Nat) (noLock replica : Bool), ¬ (c < clustersOf s) → exec (.bobbinSliceEnd c bits
    errors noLock replica) s = .fault .noSuchUnit) ∧
  (∀ (s : State) (lane : Nat) (got : List Bool), lanePresent s lane = false → exec (.prbsLock lane got) s = .fault
    .noSuchUnit) ∧
  (∀ (s : State) (lane : Nat) (bits : Nat) (e : BitErrs), lanePresent s lane = false → exec (.prbsLockLoss lane bits
    e) s = .fault .noSuchUnit) ∧
  (∀ (s : State) (lane : Nat) (bits : Nat) (e : BitErrs), lanePresent s lane = false → exec (.prbsErrThreshold lane
    bits e) s = .fault .noSuchUnit) ∧
  (∀ (s : State) (x : RailAt), ¬ (x.rail < 4) → exec (.supplyWarnSet x) s = .fault .noSuchUnit) ∧
  (∀ (s : State) (x : RailAt), ¬ (x.rail < 4) → exec (.supplyWarnClear x) s = .fault .noSuchUnit) ∧
  (∀ (s : State) (x : RailAt), ¬ (x.rail < 4) → exec (.brownOutReset x) s = .fault .noSuchUnit) ∧
  (∀ (s : State) (e : LaneEnd) (offset : Nat) (mirror : Bool) (plus : Bool), lanePresent s e.n = false → exec
    (.commaDetect e offset mirror plus) s = .fault .noSuchUnit) ∧
  (∀ (s : State) (n : Nat) (sd : Side), lanePresent s n = false → exec (.aligningBadSymbol n sd) s = .fault
    .noSuchUnit) ∧
  (∀ (s : State) (n : Nat) (sd : Side), lanePresent s n = false → exec (.lolWindowEnd n sd) s = .fault .noSuchUnit) ∧
  (∀ (s : State) (c : Nat) (d : Dir), ¬ (c < clustersOf s) → exec (.switchoverLockExpiry c d) s = .fault .noSuchUnit) ∧
  (∀ (s : State) (c : Nat), ¬ (c < clustersOf s) → exec (.calCodeStep c) s = .fault .noSuchUnit) ∧
  (∀ (s : State) (lane : Nat) (bits : Nat) (e : BitErrs), lanePresent s lane = false → exec (.prbsErrWindowEnd lane
    bits e) s = .fault .noSuchUnit) ∧
  (∀ (s : State) (k : Nat) (sd : Side) (heard : List Heard) (fail1 fail2 : Bool), ¬ (k < linksOf s) → exec
    (.ackSetReceive k sd heard fail1 fail2) s = .fault .noSuchUnit) ∧
  (∀ (s : State) (k : Nat) (sd : Side) (heard : List Heard), ¬ (k < linksOf s) → exec (.idlReceive k sd heard) s =
    .fault .noSuchUnit) ∧
  (∀ (s : State) (k : Nat) (sd : Side) (heard : List Heard), ¬ (k < linksOf s) → exec (.eieReceive k sd heard) s =
    .fault .noSuchUnit) ∧
  (∀ (s : State) (k : Nat) (sd : Side) (heard : List Heard) (fill interval : Nat), ¬ (k < linksOf s) → exec
    (.skpReceive k sd heard fill interval) s = .fault .noSuchUnit) ∧
  (∀ (s : State) (k : Nat) (sd : Side), ¬ (k < linksOf s) → exec (.skpDue k sd) s = .fault .noSuchUnit) ∧
  (∀ (s : State) (k : Nat) (sd : Side) (r1 r2 : EccRead), ¬ (k < linksOf s) → exec (.sendNext k sd r1 r2) s = .fault
    .noSuchUnit) ∧
  (∀ (s : State) (e : ClockEnd) (x : ClockSensed), ¬ (e.c < clustersOf s) → exec (.clockLaneQualified e x) s = .fault
    .noSuchUnit) ∧
  (∀ (s : State) (e : ClockEnd) (x : ClockSensed), ¬ (e.c < clustersOf s) → exec (.clockLaneLoss e x) s = .fault
    .noSuchUnit) ∧
  (∀ (s : State) (k : Nat) (sd : Side) (heard spare : List Heard), ¬ (k < linksOf s) → exec (.capReceive k sd heard
    spare) s = .fault .noSuchUnit) ∧
  (∀ (s : State) (k : Nat) (sd : Side) (heard : List Heard), ¬ (k < linksOf s) → exec (.rateReceive k sd heard) s =
    .fault .noSuchUnit) ∧
  (∀ (s : State) (k : Nat) (sd : Side) (heard : List Heard), ¬ (k < linksOf s) → exec (.rateAckReceive k sd heard) s =
    .fault .noSuchUnit) ∧
  (∀ (s : State) (k : Nat) (sd : Side) (heard : List Heard), ¬ (k < linksOf s) → exec (.readyReceive k sd heard) s =
    .fault .noSuchUnit) ∧
  (∀ (s : State) (k : Nat) (sd : Side) (heard : List Heard) (turn : Nat), ¬ (k < linksOf s) → exec (.echoReqReceive k
    sd heard turn) s = .fault .noSuchUnit) ∧
  (∀ (s : State) (k : Nat) (sd : Side) (heard : List Heard) (sample : Nat), ¬ (k < linksOf s) → exec (.echoRspReceive
    k sd heard sample) s = .fault .noSuchUnit) ∧
  (∀ (s : State) (k : Nat) (sd : Side) (heard : List Heard), ¬ (k < linksOf s) → exec (.retrainReceive k sd heard) s =
    .fault .noSuchUnit) ∧
  (∀ (s : State) (k : Nat) (sd : Side) (heard : List Heard), ¬ (k < linksOf s) → exec (.denseReqReceive k sd heard) s
    = .fault .noSuchUnit) ∧
  (∀ (s : State) (k : Nat) (sd : Side) (heard : List Heard), ¬ (k < linksOf s) → exec (.denseRelReceive k sd heard) s
    = .fault .noSuchUnit) ∧
  (∀ (s : State) (k : Nat) (sd : Side), ¬ (k < linksOf s) → exec (.capSettleExpiry k sd) s = .fault .noSuchUnit) ∧
  (∀ (s : State) (k : Nat) (sd : Side), ¬ (k < linksOf s) → exec (.switchIdleEnd k sd) s = .fault .noSuchUnit) ∧
  (∀ (s : State) (k : Nat) (sd : Side) (symbols : Nat), ¬ (k < linksOf s) → exec (.dwellEnd k sd symbols) s = .fault
    .noSuchUnit) ∧
  (∀ (s : State) (k : Nat) (sd : Side), ¬ (k < linksOf s) → exec (.rungMaxExpiry k sd) s = .fault .noSuchUnit) ∧
  (∀ (s : State) (k : Nat) (sd : Side), ¬ (k < linksOf s) → exec (.trainMaxExpiry k sd) s = .fault .noSuchUnit) ∧
  (∀ (s : State) (k : Nat) (sd : Side), ¬ (k < linksOf s) → exec (.retrainMaxExpiry k sd) s = .fault .noSuchUnit) ∧
  (∀ (s : State) (k : Nat) (sd : Side), ¬ (k < linksOf s) → exec (.rateResend k sd) s = .fault .noSuchUnit) ∧
  (∀ (s : State) (k : Nat) (sd : Side), ¬ (k < linksOf s) → exec (.echoWaitExpiry k sd) s = .fault .noSuchUnit) ∧
  (∀ (s : State) (k : Nat) (sd : Side), ¬ (k < linksOf s) → exec (.downHoldEnd k sd) s = .fault .noSuchUnit) ∧
  (∀ (s : State) (k : Nat), ¬ (k < linksOf s) → exec (.tUpBegin k) s = .fault .noSuchUnit) ∧
  (∀ (s : State) (k : Nat) (sd : Side) (slices : List (List Nat)) (cut fail1 fail2 : Bool), ¬ (k < linksOf s) → exec
    (.flitReceive k sd slices cut fail1 fail2) s = .fault .noSuchUnit) ∧
  (∀ (s : State) (k : Nat) (sd : Side) (slices : List (List Nat)), ¬ (k < linksOf s) → exec (.controlFlitReceive k sd
    slices) s = .fault .noSuchUnit) ∧
  (∀ (s : State) (f : Nat), flowPresent s f = false → exec (.darnTimerExpiry f) s = .fault .noSuchUnit) ∧
  (∀ (s : State) (k : Nat) (sd : Side) (heard : List Heard), ¬ (k < linksOf s) → exec (.drnAckReceive k sd heard) s =
    .fault .noSuchUnit) ∧
  (∀ (s : State) (k : Nat) (sd : Side) (heard : List Heard), ¬ (k < linksOf s) → exec (.drnNakReceive k sd heard) s =
    .fault .noSuchUnit) ∧
  (∀ (s : State) (k : Nat) (sd : Side) (heard : List Heard) (turn : Nat), ¬ (k < linksOf s) → exec (.drnProbeReceive k
    sd heard turn) s = .fault .noSuchUnit) ∧
  (∀ (s : State) (k : Nat) (sd : Side) (heard : List Heard) (elapsed : Nat), ¬ (k < linksOf s) → exec (.drnEchoReceive
    k sd heard elapsed) s = .fault .noSuchUnit) ∧
  (∀ (s : State) (t : Nat), trunkPresent s t = false → exec (.spanTimerExpiry t) s = .fault .noSuchUnit) ∧
  (∀ (s : State) (t : Nat), trunkPresent s t = false → exec (.drnAckTimer t) s = .fault .noSuchUnit) ∧
  (∀ (s : State) (t : Nat), trunkPresent s t = false → exec (.probeInterval t) s = .fault .noSuchUnit) ∧
  (∀ (s : State) (t : Nat), trunkPresent s t = false → exec (.probeWaitExpiry t) s = .fault .noSuchUnit) ∧
  (∀ (s : State) (f : Nat), flowPresent s f = false → exec (.proxyAckTimer f) s = .fault .noSuchUnit) ∧
  (∀ (s : State) (k : Nat), ¬ (k < linksOf s) → exec (.trunkAckRefresh k) s = .fault .noSuchUnit) ∧
  (∀ (s : State) (t : Nat), trunkPresent s t = false → exec (.controlFlitDue t) s = .fault .noSuchUnit) ∧
  (∀ (s : State) (l : Nat), ¬ (l < llsOf s) → exec (.llTornWindowEnd l) s = .fault .noSuchUnit) ∧
  (∀ (s : State) (l : Nat), ¬ (l < llsOf s) → exec (.llDrainEnd l) s = .fault .noSuchUnit) ∧
  (∀ (s : State) (cache : Nat), ¬ (cache < clustersOf s || (16 ≤ cache && cache < 16 + calsOf s)) → exec
    (.llCacheRefresh cache) s = .fault .noSuchUnit) ∧
  (∀ (s : State) (e : SlotAt) (read : EccRead), ¬ (e.die < diesOf s && e.addr < 65536) → exec (.remirror e read) s =
    .fault .noSuchUnit) ∧
  (∀ (s : State) (die : Nat), ¬ (die < diesOf s) → exec (.ceWindowEnd die) s = .fault .noSuchUnit) ∧
  (∀ (s : State) (x : BankReads), ¬ (x.die < diesOf s) → exec (.bankSaveDone x) s = .fault .noSuchUnit) ∧
  (∀ (s : State) (die : Nat) (result : BankTest), ¬ (die < diesOf s) → exec (.bankTestEnd die result) s = .fault
    .noSuchUnit) ∧
  (∀ (s : State) (x : BankReads), ¬ (x.die < diesOf s) → exec (.bankRestoreDone x) s = .fault .noSuchUnit) ∧
  (∀ (s : State) (x : BankReads), ¬ (x.die < diesOf s) → exec (.evacuationDone x) s = .fault .noSuchUnit) ∧
  (∀ (s : State) (e : Nat), ¬ (e < 2 * linksOf s) → exec (.mapDrainEnd e) s = .fault .noSuchUnit) ∧
  (∀ (s : State) (e : Nat), ¬ (e < 2 * linksOf s) → exec (.mapTornEnd e) s = .fault .noSuchUnit) ∧
  (∀ (s : State) (c e : Nat), ¬ (c < clustersOf s && e < 2 * linksOf s) → exec (.mapCacheRefresh c e) s = .fault
    .noSuchUnit) ∧
  (∀ (s : State) (die : Nat), ¬ (die < diesOf s) → exec (.corePllUnlock die) s = .fault .noSuchUnit) ∧
  (∀ (s : State) (die : Nat), ¬ (die < diesOf s) → exec (.corePllRelock die) s = .fault .noSuchUnit) ∧
  (∀ (s : State) (die vout : Nat), ¬ (die < diesOf s) → exec (.plVoltageSettled die vout) s = .fault .noSuchUnit) ∧
  (∀ (s : State) (die : Nat), ¬ (die < diesOf s) → exec (.plDividerSwitched die) s = .fault .noSuchUnit) ∧
  (∀ (s : State) , isLz4064 s = true → exec .seamPllUnlock s = .fault .noSuchUnit) ∧
  (∀ (s : State) (src : Nat), ¬ (src < 320) → exec (.wakeSource src) s = .fault .noSuchUnit) ∧
  (∀ (s : State) (die : Nat), ¬ (die < diesOf s) → exec (.bistStall die) s = .fault .noSuchUnit) ∧
  (∀ (s : State) (src : Nat) (ev : InputEvent), ¬ (src < 320) → exec (.sourceInput src ev) s = .fault .noSuchUnit) ∧
  (∀ (s : State) (d : Nat) (msg : RingMsg), ¬ (d < 2) → exec (.ringTrainReceive d msg) s = .fault .noSuchUnit) ∧
  (∀ (s : State) (d : Nat), ¬ (d < 2) → exec (.hopBroken d) s = .fault .noSuchUnit) ∧
  (∀ (s : State) (d : Nat) (msg : RingMsg), ¬ (d < 2) → exec (.ringEnum d msg) s = .fault .noSuchUnit) ∧
  (∀ (s : State) (d : Nat) (msg : RingMsg), ¬ (d < 2) → exec (.ringPresent d msg) s = .fault .noSuchUnit) ∧
  (∀ (s : State) (d : Nat) (msg : RingMsg), ¬ (d < 2) → exec (.ringDone d msg) s = .fault .noSuchUnit) ∧
  (∀ (s : State) (d : Nat) (msg : RingMsg), ¬ (d < 2) → exec (.ringBreak d msg) s = .fault .noSuchUnit) ∧
  (∀ (s : State) (d : Nat) (msg : RingMsg), ¬ (d < 2) → exec (.ringTime d msg) s = .fault .noSuchUnit) ∧
  (∀ (s : State) (d : Nat) (msg : RingMsg), ¬ (d < 2) → exec (.ringGo d msg) s = .fault .noSuchUnit) ∧
  (∀ (s : State) (d : Nat) (msg : RingMsg), ¬ (d < 2) → exec (.ringReady d msg) s = .fault .noSuchUnit) ∧
  (∀ (s : State) (d : Nat) (msg : RingMsg), ¬ (d < 2) → exec (.ringReq d msg) s = .fault .noSuchUnit) ∧
  (∀ (s : State) (d : Nat) (msg : RingMsg), ¬ (d < 2) → exec (.ringRsp d msg) s = .fault .noSuchUnit) ∧
  (∀ (s : State) (d : Nat) (msg : RingMsg), ¬ (d < 2) → exec (.ringDeliver d msg) s = .fault .noSuchUnit) ∧
  (∀ (s : State) (d : Nat) (msg : RingMsg), ¬ (d < 2) → exec (.ringComplete d msg) s = .fault .noSuchUnit) ∧
  (∀ (s : State) (k : Nat) (sd : Side) (heard : List Heard), ¬ (k < linksOf s) → exec (.selReadReq k sd heard) s =
    .fault .noSuchUnit) ∧
  (∀ (s : State) (k : Nat) (sd : Side) (heard : List Heard), ¬ (k < linksOf s) → exec (.selWriteReq k sd heard) s =
    .fault .noSuchUnit) ∧
  (∀ (s : State) (k : Nat) (sd : Side) (heard : List Heard), ¬ (k < linksOf s) → exec (.selAttestReq k sd heard) s =
    .fault .noSuchUnit) ∧
  (∀ (s : State) , isLz4064 s = true → exec .seamPllRelock s = .fault .noSuchUnit)

/-- A page answers where the part has it, the device state leaves it open and its block is not gated. In any other page
a write is dropped and a read gives zero (R346, R352, R474, R483): each command that stands for a write of a
register leaves the state as it is, and each that stands for a read answers 0 and has none of its effect. -/
def Obligations.ClosedPagesDropCommands : Prop :=
  (∀ (s : State) (c mask : Nat) (a b : Bool), (¬ (c < clustersOf s) ∨ pageOpen s (0x10 + c) = false) → exec
    (.terminationDetect c mask a b) s = .next s) ∧
  (∀ (s : State) (c : Nat), (¬ (c < clustersOf s) ∨ pageOpen s (0x10 + c) = false) → exec (.cntSnap c) s = .next
    (s.answerWord 0)) ∧
  (∀ (s : State) (c : Nat), (¬ (c < clustersOf s) ∨ pageOpen s (0x10 + c) = false) → exec (.cntCtlClear c) s = .next
    s) ∧
  (∀ (s : State) (n v : Nat), (¬ (lanePresent s n) ∨ pageOpen s (0x10 + laneCluster n) = false) → exec (.leCfgWrite n
    v) s = .next s) ∧
  (∀ (s : State) (c : Nat) (d : Dir), (¬ (c < clustersOf s) ∨ pageOpen s (0x10 + c) = false) → exec (.ckToForwarded c
    d) s = .next s) ∧
  (∀ (s : State) (c : Nat) (d : Dir), (¬ (c < clustersOf s) ∨ pageOpen s (0x10 + c) = false) → exec (.ckToFallback c
    d) s = .next s) ∧
  (∀ (s : State) (c : Nat) (d : Dir), (¬ (c < clustersOf s) ∨ pageOpen s (0x10 + c) = false) → exec (.ckReturnOwn c d)
    s = .next s) ∧
  (∀ (s : State) (c : Nat) (sd : Side) (pos : Nat), (¬ (c < clustersOf s) ∨ pageOpen s (0x20 + c) = false) → exec
    (.adaptReacquire c sd pos) s = .next s) ∧
  (∀ (s : State) (c : Nat) (sd : Side) (pos : Nat), (¬ (c < clustersOf s) ∨ pageOpen s (0x20 + c) = false) → exec
    (.adaptFreeze c sd pos) s = .next s) ∧
  (∀ (s : State) (c : Nat) (sd : Side) (pos : Nat), (¬ (c < clustersOf s) ∨ pageOpen s (0x20 + c) = false) → exec
    (.adaptThaw c sd pos) s = .next s) ∧
  (∀ (s : State) (c v : Nat), (¬ (c < clustersOf s) ∨ pageOpen s (0x20 + c) = false) → exec (.dfeSelWrite c v) s =
    .next s) ∧
  (∀ (s : State) , pageOpen s 0xE = false → exec .btLoad s = .next s) ∧
  (∀ (s : State) (ctl : Nat), pageOpen s 0xE = false → exec (.flashCommand ctl) s = .next s) ∧
  (∀ (s : State) (k : Nat) (sd : Side), (¬ (k < linksOf s) ∨ pageOpen s (0x40 + k) = false) → exec (.trnRetrain k sd)
    s = .next s) ∧
  (∀ (s : State) (k : Nat) (sd : Side) (rung : Nat), (¬ (k < linksOf s) ∨ pageOpen s (0x40 + k) = false) → exec
    (.trnStep k sd rung) s = .next s) ∧
  (∀ (s : State) (k : Nat), (¬ (k < linksOf s) ∨ pageOpen s (0x40 + k) = false) → exec (.trnDown k) s = .next s) ∧
  (∀ (s : State) (k : Nat) (sd : Side), (¬ (k < linksOf s) ∨ pageOpen s (0x40 + k) = false) → exec (.trnRestart k sd)
    s = .next s) ∧
  (∀ (s : State) (k : Nat), (¬ (k < linksOf s) ∨ pageOpen s (0x40 + k) = false) → exec (.fltSnap k) s = .next
    (s.answerWord 0)) ∧
  (∀ (s : State) (k : Nat), (¬ (k < linksOf s) ∨ pageOpen s (0x40 + k) = false) → exec (.fltClr k) s = .next s) ∧
  (∀ (s : State) (k : Nat), (¬ (k < linksOf s) ∨ pageOpen s (0x40 + k) = false) → exec (.darnSnap k) s = .next
    (s.answerWord 0)) ∧
  (∀ (s : State) (k : Nat), (¬ (k < linksOf s) ∨ pageOpen s (0x40 + k) = false) → exec (.darnClr k) s = .next s) ∧
  (∀ (s : State) (k : Nat), (¬ (k < linksOf s) ∨ pageOpen s (0x40 + k) = false) → exec (.trkSnap k) s = .next
    (s.answerWord 0)) ∧
  (∀ (s : State) (k : Nat), (¬ (k < linksOf s) ∨ pageOpen s (0x40 + k) = false) → exec (.trkClr k) s = .next s) ∧
  (∀ (s : State) (p : Nat), (¬ (p < lltPages s) ∨ pageOpen s (0xC0 + p) = false) → exec (.llSnap p) s = .next
    (s.answerWord 0)) ∧
  (∀ (s : State) (p : Nat), (¬ (p < lltPages s) ∨ pageOpen s (0xC0 + p) = false) → exec (.llClr p) s = .next s) ∧
  (∀ (s : State) (cal : Nat), (¬ (cal < calsOf s) ∨ pageOpen s (0xC8 + cal / 2) = false) → exec (.calSnap cal) s =
    .next (s.answerWord 0)) ∧
  (∀ (s : State) (cal : Nat), (¬ (cal < calsOf s) ∨ pageOpen s (0xC8 + cal / 2) = false) → exec (.calClr cal) s =
    .next s) ∧
  (∀ (s : State) (die queue : Nat), (¬ (die < diesOf s) ∨ pageOpen s (0xD0 + die) = false) → exec (.qstSelWrite die
    queue) s = .next s) ∧
  (∀ (s : State) (die bank : Nat), (¬ (die < diesOf s) ∨ pageOpen s (0x38 + die) = false) → exec (.bufRetire die bank)
    s = .next s) ∧
  (∀ (s : State) (die bank : Nat), (¬ (die < diesOf s) ∨ pageOpen s (0x38 + die) = false) → exec (.bufReturn die bank)
    s = .next s) ∧
  (∀ (s : State) (die bank : Nat), (¬ (die < diesOf s) ∨ pageOpen s (0x38 + die) = false) → exec (.bufTestNow die
    bank) s = .next s) ∧
  (∀ (s : State) (die : Nat), (¬ (die < diesOf s) ∨ pageOpen s (0x38 + die) = false) → exec (.bufSnap die) s = .next
    (s.answerWord 0)) ∧
  (∀ (s : State) (die : Nat), (¬ (die < diesOf s) ∨ pageOpen s (0x38 + die) = false) → exec (.bufClr die) s = .next s) ∧
  (∀ (s : State) (die addr : Nat), (¬ (die < diesOf s) ∨ pageOpen s (0x38 + die) = false) → exec (.descSelWrite die
    addr) s = .next s) ∧
  (∀ (s : State) , pageOpen s 0xC = false → exec .prkCommit s = .next s) ∧
  (∀ (s : State) , pageOpen s 0xC = false → exec .prkCheck s = .next s) ∧
  (∀ (s : State) , pageOpen s 0xC = false → exec .prkRevert s = .next s) ∧
  (∀ (s : State) (k : Nat) (checkOnly : Bool), (¬ (k < linksOf s) ∨ pageOpen s (0x40 + k) = false) → exec (.lnkCommit
    k checkOnly) s = .next s) ∧
  (∀ (s : State) (c pos : Nat), pageOpen s 0xD = false → exec (.swpSwap c pos) s = .next s) ∧
  (∀ (s : State) (c : Nat), pageOpen s 0xD = false → exec (.swpReturn c) s = .next s) ∧
  (∀ (s : State) (c : Nat), pageOpen s 0xD = false → exec (.swpEnable c) s = .next s) ∧
  (∀ (s : State) (c : Nat), pageOpen s 0xD = false → exec (.swpDisable c) s = .next s) ∧
  (∀ (s : State) (e v : Nat), (¬ (e < 2 * linksOf s) ∨ pageOpen s 0xD = false) → exec (.sideMapWrite e v) s = .next s) ∧
  (∀ (s : State) (lane v : Nat), (¬ (lane < lanesOf s) ∨ pageOpen s 0xD = false) → exec (.lanePosWrite lane v) s =
    .next s) ∧
  (∀ (s : State) (v : Nat), pageOpen s 1 = false → exec (.clkCfgWrite v) s = .next s) ∧
  (∀ (s : State) (die level : Nat), pageOpen s 2 = false → exec (.plRequest die level) s = .next s) ∧
  (∀ (s : State) , pageOpen s 1 = false → exec .fmStart s = .next s) ∧
  (∀ (s : State) (force : Bool), pageOpen s 2 = false → exec (.watchEnter force) s = .next s) ∧
  (∀ (s : State) , pageOpen s 2 = false → exec .watchWake s = .next s) ∧
  (∀ (s : State) (c e : Nat), (¬ (c < clustersOf s) ∨ pageOpen s (0x20 + c) = false) → exec (.calEnd c e) s = .next s) ∧
  (∀ (s : State) (c : Nat), (¬ (c < clustersOf s) ∨ pageOpen s (0x20 + c) = false) → exec (.calAll c) s = .next s) ∧
  (∀ (s : State) (c e : Nat), (¬ (c < clustersOf s) ∨ pageOpen s (0x20 + c) = false) → exec (.calEye c e) s = .next s) ∧
  (∀ (s : State) (c e : Nat), (¬ (c < clustersOf s) ∨ pageOpen s (0x20 + c) = false) → exec (.calSelWrite c e) s =
    .next s) ∧
  (∀ (s : State) (c : Nat), pageOpen s 7 = false → exec (.bstBobbinNow c) s = .next s) ∧
  (∀ (s : State) , pageOpen s 7 = false → exec .bstAbort s = .next s) ∧
  (∀ (s : State) , pageOpen s 7 = false → exec .bstFull s = .next s) ∧
  (∀ (s : State) (confirm : Nat), pageOpen s 7 = false → exec (.bstTestEnter confirm) s = .next s) ∧
  (∀ (s : State) (v : Nat), pageOpen s 7 = false → exec (.bstCfgWrite v) s = .next s) ∧
  (∀ (s : State) (lane v : Nat), pageOpen s 7 = false → exec (.lbCfgWrite lane v) s = .next s) ∧
  (∀ (s : State) (lane v : Nat), pageOpen s 7 = false → exec (.prbsGenWrite lane v) s = .next s) ∧
  (∀ (s : State) (lane v : Nat), pageOpen s 7 = false → exec (.prbsChkWrite lane v) s = .next s) ∧
  (∀ (s : State) (lane : Nat), pageOpen s 7 = false → exec (.prbsSnap lane) s = .next (s.answerWord 0)) ∧
  (∀ (s : State) (lane : Nat), pageOpen s 7 = false → exec (.prbsClr lane) s = .next s) ∧
  (∀ (s : State) , pageOpen s 0 = false → exec .bootRelease s = .next s) ∧
  (∀ (s : State) (unit : Nat), pageOpen s 0 = false → exec (.fenceCmdFence unit) s = .next s) ∧
  (∀ (s : State) (unit : Nat), pageOpen s 0 = false → exec (.fenceCmdLift unit) s = .next s) ∧
  (∀ (s : State) (page : Nat), pageOpen s page = false → exec (.softReset page) s = .next s) ∧
  (∀ (s : State) (v : Nat), pageOpen s 4 = false → exec (.doorbellWrite v) s = .next s) ∧
  (∀ (s : State) (src v : Nat), pageOpen s 6 = false → exec (.srcCfgWrite src v) s = .next s) ∧
  (∀ (s : State) , pageOpen s 0xA = false → exec .pctEnumerate s = .next s) ∧
  (∀ (s : State) , pageOpen s 0xA = false → exec .pctGo s = .next s) ∧
  (∀ (s : State) (slot : Nat), pageOpen s 8 = false → exec (.keyLoad slot) s = .next s) ∧
  (∀ (s : State) (slot : Nat), pageOpen s 8 = false → exec (.keyClear slot) s = .next s) ∧
  (∀ (s : State) (slot : Nat), pageOpen s 8 = false → exec (.keyEnroll slot) s = .next s) ∧
  (∀ (s : State) (slot : Nat), pageOpen s 8 = false → exec (.keyRevoke slot) s = .next s) ∧
  (∀ (s : State) , pageOpen s 8 = false → exec .attGenerate s = .next s)

/-- In a state whose tables are canonical: a field of the register store reads what was last stored in it, cut to its
width; every field that stands at another place reads as before; its live count and every other part of the state
stay as they were; and the tables stay canonical. -/
def Obligations.RegistersHoldWhatIsStored : Prop :=
  ∀ (s : State) (f : Fld) (v : Nat), tablesCanonical s = true → (s.wr f v).rd f = v % 2 ^ f.width ∧ (∀ g : Fld, g.key
    ≠ f.key → (s.wr f v).rd g = s.rd g) ∧ { s.wr f v with regs := s.regs } = s ∧ tablesCanonical (s.wr f v) = true

/-- For a source number of the table, a pulse of a source whose table gives it pulses is one raise of it, and a level of
one whose table gives it a level sets its input (R420, R421). A claim of a host target in a bank that serves
nothing, that is not held back by FAST_FIRST and that has a source waiting, answers count, ring 0 and source number
of the first waiting one, has the effect of a claim on it and makes the bank serve it (R425); a claim of target 2 at
the ring head does the same with the first ring entry, which it removes (R430). A completion that names what the
bank of a host target serves makes the bank idle and ends the source's service (R426). A write of DOORBELL raises
the doorbell sources its bits name (R434), and a write of SRC_CFG of a source that can be masked takes target,
sense, class and enable from the word, clearing pending and count first where bit 31 is 1 (R423, R435). -/
def Obligations.InterruptInputsAndClaims : Prop :=
  (∀ (s : State) (src : Nat), src < 320 → levelSource src = false → exec (.sourceInput src .pulse) s = .next (s.raise
    src)) ∧
  (∀ (s : State) (src : Nat) (v : Bool), src < 320 → levelSource src = true → exec (.sourceInput src (.level v)) s =
    .next (s.setInput src v)) ∧
  (∀ (s : State) (fast : Bool) (t : Nat) (src : Nat), pageOpen s (4 + cls fast) = true → t < 2 → bankServing s fast t
    = false → (fast = false → bankReady s true t = false) → firstWaiting s fast t = some src → exec (.intClaim fast t)
    s = .next ((bankServe (cls fast) t 0 src (claimSource src s)).answerWord (claimWord (s.rd (R.SRC_CFG_count src)) 0
    src))) ∧
  (∀ (s : State) (fast : Bool) (e : RingEntry), pageOpen s (4 + cls fast) = true → bankServing s fast 2 = false →
    isHead s = true → firstEntry s fast = some e → exec (.intClaim fast 2) s = .next ((bankServe (cls fast) 2 e.ring
    e.src { s with entries := s.entries.filter fun x => !(x = e) }).answerWord (claimWord e.count e.ring e.src))) ∧
  (∀ (s : State) (fast : Bool) (t : Nat) (src : Nat) (ring : Nat), pageOpen s (4 + cls fast) = true → t < 2 → src <
    1023 → bankServing s fast t = true → s.rd (R.BANK_source (cls fast) t) = src → exec (.intComplete fast t src ring)
    s = .next (endService src (bankIdle (cls fast) t s.freshOut))) ∧
  (∀ (s : State) (v : Nat), pageOpen s 4 = true → exec (.doorbellWrite v) s = .next (ringDoorbells v s)) ∧
  (∀ (s : State) (src : Nat) (v : Nat), pageOpen s 6 = true → sourceExists s src = true → isNmi src = false → bit v 31
    = false → exec (.srcCfgWrite src v) s = .next (((((s.wr (R.SRC_CFG_target src) (bits v 9 8)).wr (R.SRC_CFG_sense
    src) (bits v 3 2)).wr (R.SRC_CFG_class src) (bits v 4 4)).wr (R.SRC_CFG_en src) (bits v 0 0)).relevel src)) ∧
  (∀ (s : State) (src : Nat) (v : Nat), pageOpen s 6 = true → sourceExists s src = true → isNmi src = false → bit v 31
    = true → exec (.srcCfgWrite src v) s = .next (((((((s.wr (R.SRC_CFG_pend src) 0).wr (R.SRC_CFG_count src) 0).wr
    (R.SRC_CFG_target src) (bits v 9 8)).wr (R.SRC_CFG_sense src) (bits v 3 2)).wr (R.SRC_CFG_class src) (bits v 4
    4)).wr (R.SRC_CFG_en src) (bits v 0 0)).relevel src))

/-- In SERVICE or GUARD, a source that waits with target 2 and may be delivered becomes an entry of class, source and
count where the package is the head, and goes to the head as a DELIVER message with class, source and count where it
is not; either way it has the effect of a claim at the source and stays listed for sending again (R429). A source
listed for sending again that is still active goes to the head once more, with count 0 (R429, the resend count:
model's reading, DEDUCED, log 251). -/
def Obligations.RingDeliveryOfSources : Prop :=
  (∀ (s : State) (src : Nat), s.dev.phase = .run → mayDeliver s src = true → isHead s = true → exec (.ringDeliverSend
    src) s = .next (claimSource src
    { s.freshOut with ring := { s.freshOut.ring with resend := s.ring.resend ++ [src] }, entries := s.entries ++ [{ ring := 0, src := src, fast := srcFast s src, count := s.rd (R.SRC_CFG_count src) }] })) ∧
  (∀ (s : State) (src : Nat), s.dev.phase = .run → mayDeliver s src = true → isHead s = false → exec (.ringDeliverSend
    src) s = .next (claimSource src
    (({ s.freshOut with ring := { s.freshOut.ring with resend := s.ring.resend ++ [src] } } : State).sendTo 0 0x08
    (deliverBody (srcFast s src) src (s.rd (R.SRC_CFG_count src)))))) ∧
  (∀ (s : State) (src : Nat), s.ring.resend.contains src = true → s.on (R.SRC_CFG_active src) = true → isHead s =
    false → headReachable s = true → exec (.deliverResend src) s = .next (s.freshOut.sendTo 0 0x08 (deliverBody
    (srcFast s src) src 0)))

/-- On a lane that is present, at an end that hears its pads (cluster clocked, no near-end loop). SIGNAL_DETECT: an
amplitude that stayed above a bound mv no lower than the assert level, for 100 ns or more, sets signal detect,
clears the idle bit and notes the time; an acquisition that waited for it is queued (R71, R115), and an end of a
TRANSPARENT link asks for one at its rung (R135). With a lower bound, or a shorter time, nothing changes.
LOSS_OF_SIGNAL: an amplitude that stayed below a bound no higher than the deassert level for longer than los_time
clears signal detect, gives up alignment, polarity decision and a running acquisition, and raises 16c + 0; begun
within 1 µs after an intact EIE set it sets the idle bit and raises nothing. Ends of a side that lose signal
together do so in one command, and those that were LOCKED are then judged as losses of their spans (rxLost).
COMMA_DETECT: in UNLOCKED the first comma aligns; in ALIGNING one at the same offset counts, the one that completes
acq_commas enters LOCKED as SYMBOL_LOCK_ACQUIRED does (windows start, num_valid and BAL.valid clear, the span's
lanes are judged), and one at another offset returns the end to UNLOCKED, dropping the polarity set in this attempt,
as a bad symbol does; in LOCKED one at the same offset changes nothing, and one elsewhere is a bad symbol, which
loses the lock where it reaches lol_bad. LOCK_LOSS raises 16c + 1 and counts; the span goes on, or retrains where no
LOCKED end is left. The end of a window of 2^lol_win symbols clears its bad symbols (R55). -/
def Obligations.SignalAndLockEvents : Prop :=
  (∀ (s : State) (n : Nat) (sd : Side) (mv : Nat) (ns : Nat) (t : State), t = ((s.wr (leSd n sd) 1).wr (leIdle n sd)
    0).putRx n sd { s.rxe n sd with sdSince := some s.clock, losAt := none } → lanePresent s n = true → rxDeaf s n sd
    = false → s.on (leSd n sd) = false → (sdLevels s (laneCluster n)).1 ≤ mv → 100 ≤ ns → endUse t n sd = none →
    (t.coefs n sd).acqRung = 7 → exec (.signalDetect ⟨n, sd⟩ ⟨mv, ns⟩) s = .next (steerSync (laneCluster n) t)) ∧
  (∀ (s : State) (n : Nat) (sd : Side) (mv : Nat) (ns : Nat) (t : State), t = ((s.wr (leSd n sd) 1).wr (leIdle n sd)
    0).putRx n sd { s.rxe n sd with sdSince := some s.clock, losAt := none } → lanePresent s n = true → rxDeaf s n sd
    = false → s.on (leSd n sd) = false → (sdLevels s (laneCluster n)).1 ≤ mv → 100 ≤ ns → endUse t n sd = none →
    (t.coefs n sd).acqRung ≠ 7 → exec (.signalDetect ⟨n, sd⟩ ⟨mv, ns⟩) s = .next (steerSync (laneCluster n) (acqQueue
    n sd t))) ∧
  (∀ (s : State) (n : Nat) (sd : Side) (mv : Nat) (ns : Nat) (t : State) (k q : Nat), t = ((s.wr (leSd n sd) 1).wr
    (leIdle n sd) 0).putRx n sd { s.rxe n sd with sdSince := some s.clock, losAt := none } → lanePresent s n = true →
    rxDeaf s n sd = false → s.on (leSd n sd) = false → (sdLevels s (laneCluster n)).1 ≤ mv → 100 ≤ ns → endUse t n sd
    = some (k, q) → modeOf t k = mTransparent → exec (.signalDetect ⟨n, sd⟩ ⟨mv, ns⟩) s = .next (steerSync
    (laneCluster n) (acqRequest n sd (t.rd (R.LNK_CFG_LIVE_rung k sd.idx)) t))) ∧
  (∀ (s : State) (n : Nat) (sd : Side) (mv : Nat) (ns : Nat) (t : State) (k q : Nat), t = ((s.wr (leSd n sd) 1).wr
    (leIdle n sd) 0).putRx n sd { s.rxe n sd with sdSince := some s.clock, losAt := none } → lanePresent s n = true →
    rxDeaf s n sd = false → s.on (leSd n sd) = false → (sdLevels s (laneCluster n)).1 ≤ mv → 100 ≤ ns → endUse t n sd
    = some (k, q) → modeOf t k ≠ mTransparent → (t.coefs n sd).acqRung = 7 → exec (.signalDetect ⟨n, sd⟩ ⟨mv, ns⟩) s =
    .next (steerSync (laneCluster n) t)) ∧
  (∀ (s : State) (n : Nat) (sd : Side) (mv : Nat) (ns : Nat) (t : State) (k q : Nat), t = ((s.wr (leSd n sd) 1).wr
    (leIdle n sd) 0).putRx n sd { s.rxe n sd with sdSince := some s.clock, losAt := none } → lanePresent s n = true →
    rxDeaf s n sd = false → s.on (leSd n sd) = false → (sdLevels s (laneCluster n)).1 ≤ mv → 100 ≤ ns → endUse t n sd
    = some (k, q) → modeOf t k ≠ mTransparent → (t.coefs n sd).acqRung ≠ 7 → exec (.signalDetect ⟨n, sd⟩ ⟨mv, ns⟩) s =
    .next (steerSync (laneCluster n) (acqQueue n sd t))) ∧
  (∀ (s : State) (n : Nat) (sd : Side) (mv : Nat) (ns : Nat), lanePresent s n = true → (mv < (sdLevels s (laneCluster
    n)).1 ∨ ns < 100) → exec (.signalDetect ⟨n, sd⟩ ⟨mv, ns⟩) s = .next (s)) ∧
  (∀ (s : State) (n : Nat) (sd : Side) (mv : Nat) (ns : Nat), losesSignal s sd mv ns n = true → isLocked s n sd =
    false → endUse s n sd = none → exec (.lossOfSignal ⟨n, sd⟩ ⟨mv, ns⟩ []) s = .next (acqLost n sd (polDrop n sd
    (unlock n sd ((((s.wr (leSd n sd) 0).wrB (leIdle n sd) false).putRx n sd
    { s.rxe n sd with sdSince := none, losAt := some s.clock }).raise (16 * laneCluster n + 0)))))) ∧
  (∀ (s : State) (n : Nat) (sd : Side) (mv : Nat) (ns : Nat) (k q e0 : Nat), losesSignal s sd mv ns n = true →
    isLocked s n sd = false → endUse s n sd = some (k, q) → (s.side k sd).lastEie = some e0 → e0 + ns ≤ s.clock →
    s.clock ≤ e0 + 1000 + ns → exec (.lossOfSignal ⟨n, sd⟩ ⟨mv, ns⟩ []) s = .next (acqLost n sd (polDrop n sd (unlock
    n sd (((s.wr (leSd n sd) 0).wrB (leIdle n sd) true).putRx n sd
    { s.rxe n sd with sdSince := none, losAt := some s.clock }))))) ∧
  (∀ (s : State) (n : Nat) (sd : Side) (mv : Nat) (ns : Nat), losesSignal s sd mv ns n = true → isLocked s n sd = true
    → endUse s n sd = none → exec (.lossOfSignal ⟨n, sd⟩ ⟨mv, ns⟩ []) s = .next (rxLost n sd swLos (acqLost n sd
    (polDrop n sd (unlock n sd ((((s.wr (leSd n sd) 0).wrB (leIdle n sd) false).putRx n sd
    { s.rxe n sd with sdSince := none, losAt := some s.clock }).raise (16 * laneCluster n + 0))))))) ∧
  (∀ (s : State) (n : Nat) (sd : Side) (mv : Nat) (ns : Nat) (also : List Nat), lanePresent s n = true → exec
    (.lossOfSignal ⟨n, sd⟩ ⟨mv, ns⟩ also) s = .next (rxLostAll (((n :: also).eraseDups.filter (losesSignal s sd mv
    ns)).filter fun m => isLocked s m sd) sd swLos (((n :: also).eraseDups.filter (losesSignal s sd mv ns)).foldl (fun
    s m => signalLost m sd ns s) s))) ∧
  (∀ (s : State) (n : Nat) (sd : Side) (offset : Nat) (mirror : Bool) (plus : Bool), lanePresent s n = true →
    clusterStopped s (laneCluster n) = false → s.on (leSd n sd) = true → decodes s n sd = true → offset < (if isPam
    (ckRate s (laneCluster n) sd.dirIn) then 5 else 10) → s.rd (leLock n sd) = lkUnlocked → exec (.commaDetect ⟨n, sd⟩
    offset mirror plus) s = .next (commaRd n sd plus (alignEnd n sd offset mirror s))) ∧
  (∀ (s : State) (n : Nat) (sd : Side) (offset : Nat) (mirror : Bool) (plus : Bool), lanePresent s n = true →
    clusterStopped s (laneCluster n) = false → s.on (leSd n sd) = true → decodes s n sd = true → offset < (if isPam
    (ckRate s (laneCluster n) sd.dirIn) then 5 else 10) → s.rd (leLock n sd) = lkAligning → offset = (s.rxe n
    sd).offset → (s.rxe n sd).commas + 1 < acqCommas s (laneCluster n) → exec (.commaDetect ⟨n, sd⟩ offset mirror
    plus) s = .next (commaRd n sd plus (s.putRx n sd { s.rxe n sd with commas := (s.rxe n sd).commas + 1 }))) ∧
  (∀ (s : State) (n : Nat) (sd : Side) (offset : Nat) (mirror : Bool) (plus : Bool), lanePresent s n = true →
    clusterStopped s (laneCluster n) = false → s.on (leSd n sd) = true → decodes s n sd = true → offset < (if isPam
    (ckRate s (laneCluster n) sd.dirIn) then 5 else 10) → s.rd (leLock n sd) = lkAligning → offset = (s.rxe n
    sd).offset → acqCommas s (laneCluster n) ≤ (s.rxe n sd).commas + 1 → exec (.commaDetect ⟨n, sd⟩ offset mirror
    plus) s = .next (lockEnd n sd (commaRd n sd plus s))) ∧
  (∀ (s : State) (n : Nat) (sd : Side) (offset : Nat) (mirror : Bool) (plus : Bool), lanePresent s n = true →
    clusterStopped s (laneCluster n) = false → s.on (leSd n sd) = true → decodes s n sd = true → offset < (if isPam
    (ckRate s (laneCluster n) sd.dirIn) then 5 else 10) → s.rd (leLock n sd) = lkAligning → offset ≠ (s.rxe n
    sd).offset → (s.rxe n sd).polSet = false → exec (.commaDetect ⟨n, sd⟩ offset mirror plus) s = .next ((s.wr (leLock
    n sd) lkUnlocked).putRx n sd { s.rxe n sd with commas := 0 })) ∧
  (∀ (s : State) (n : Nat) (sd : Side) (offset : Nat) (mirror : Bool) (plus : Bool), lanePresent s n = true →
    clusterStopped s (laneCluster n) = false → s.on (leSd n sd) = true → decodes s n sd = true → offset < (if isPam
    (ckRate s (laneCluster n) sd.dirIn) then 5 else 10) → s.rd (leLock n sd) = lkAligning → offset ≠ (s.rxe n
    sd).offset → (s.rxe n sd).polSet = true → exec (.commaDetect ⟨n, sd⟩ offset mirror plus) s = .next (((polDrop n sd
    s).wr (leLock n sd) lkUnlocked).putRx n sd { (polDrop n sd s).rxe n sd with commas := 0 })) ∧
  (∀ (s : State) (n : Nat) (sd : Side) (offset : Nat) (mirror : Bool) (plus : Bool), lanePresent s n = true →
    clusterStopped s (laneCluster n) = false → s.on (leSd n sd) = true → decodes s n sd = true → offset < (if isPam
    (ckRate s (laneCluster n) sd.dirIn) then 5 else 10) → s.rd (leLock n sd) = lkLocked → offset = (s.rxe n sd).offset
    → exec (.commaDetect ⟨n, sd⟩ offset mirror plus) s = .next (s)) ∧
  (∀ (s : State) (n : Nat) (sd : Side) (offset : Nat) (mirror : Bool) (plus : Bool), lanePresent s n = true →
    clusterStopped s (laneCluster n) = false → s.on (leSd n sd) = true → decodes s n sd = true → offset < (if isPam
    (ckRate s (laneCluster n) sd.dirIn) then 5 else 10) → s.rd (leLock n sd) = lkLocked → offset ≠ (s.rxe n sd).offset
    → (s.rxe n sd).bad + 1 < lolBad s (laneCluster n) → exec (.commaDetect ⟨n, sd⟩ offset mirror plus) s = .next
    (s.putRx n sd { s.rxe n sd with bad := (s.rxe n sd).bad + 1 })) ∧
  (∀ (s : State) (n : Nat) (sd : Side) (offset : Nat) (mirror : Bool) (plus : Bool), lanePresent s n = true →
    clusterStopped s (laneCluster n) = false → s.on (leSd n sd) = true → decodes s n sd = true → offset < (if isPam
    (ckRate s (laneCluster n) sd.dirIn) then 5 else 10) → s.rd (leLock n sd) = lkLocked → offset ≠ (s.rxe n sd).offset
    → lolBad s (laneCluster n) ≤ (s.rxe n sd).bad + 1 → exec (.commaDetect ⟨n, sd⟩ offset mirror plus) s = .next
    (locksLost [n] sd s)) ∧
  (∀ (s : State) (n : Nat) (sd : Side) (plus : Bool) (t u : State), t = commaRd n sd plus s → u = steerSync
    (laneCluster n) (adaptEnters n sd (ebCentre n sd ((((t.putRx n sd
    { t.rxe n sd with winFrom := 850 * t.clock, commas := 0, bad := 0, misses := 0, balRun := isPam (ckRate t (laneCluster n) sd.dirIn), polSet := false, polDecided := (t.rxe n sd).polDecided || (isPam (ckRate t (laneCluster n) sd.dirIn) && polAuto t n sd) }).wr
    (leLock n sd) lkLocked).wr (R.LANE_NUM_num_valid (laneCluster n) (lanePos n) sd.idx) 0).wr (R.BAL_valid
    (laneCluster n) (lanePos n) sd.idx) 0))) → lanePresent s n = true → clusterStopped s (laneCluster n) = false →
    s.rd (leLock n sd) = lkAligning → acqCommas s (laneCluster n) ≤ (s.rxe n sd).commas + 1 → endUse u n sd = none →
    exec (.symbolLockAcquired ⟨n, sd⟩ plus) s = .next (u)) ∧
  (∀ (s : State) (n : Nat) (sd : Side) (plus : Bool) (t u : State) (k q : Nat), t = commaRd n sd plus s → u =
    steerSync (laneCluster n) (adaptEnters n sd (ebCentre n sd ((((t.putRx n sd
    { t.rxe n sd with winFrom := 850 * t.clock, commas := 0, bad := 0, misses := 0, balRun := isPam (ckRate t (laneCluster n) sd.dirIn), polSet := false, polDecided := (t.rxe n sd).polDecided || (isPam (ckRate t (laneCluster n) sd.dirIn) && polAuto t n sd) }).wr
    (leLock n sd) lkLocked).wr (R.LANE_NUM_num_valid (laneCluster n) (lanePos n) sd.idx) 0).wr (R.BAL_valid
    (laneCluster n) (lanePos n) sd.idx) 0))) → lanePresent s n = true → clusterStopped s (laneCluster n) = false →
    s.rd (leLock n sd) = lkAligning → acqCommas s (laneCluster n) ≤ (s.rxe n sd).commas + 1 → endUse u n sd = some (k,
    q) → exec (.symbolLockAcquired ⟨n, sd⟩ plus) s = .next (qualifyCheck k sd u)) ∧
  (∀ (s : State) (n : Nat) (sd : Side), lanePresent s n = true → clusterStopped s (laneCluster n) = false → s.rd
    (leLock n sd) = lkAligning → (s.rxe n sd).polSet = false → exec (.aligningBadSymbol n sd) s = .next ((s.wr (leLock
    n sd) lkUnlocked).putRx n sd { s.rxe n sd with commas := 0 })) ∧
  (∀ (s : State) (n : Nat) (sd : Side), lanePresent s n = true → clusterStopped s (laneCluster n) = false → s.rd
    (leLock n sd) = lkAligning → (s.rxe n sd).polSet = true → exec (.aligningBadSymbol n sd) s = .next (((polDrop n sd
    s).wr (leLock n sd) lkUnlocked).putRx n sd { (polDrop n sd s).rxe n sd with commas := 0 })) ∧
  (∀ (s : State) (n : Nat) (sd : Side) (t : State), t = unlock n sd ((s.raise (16 * laneCluster n + 1)).count
    (R.LOCKLOSS (laneCluster n) (lanePos n) sd.idx)) → losesLock s sd n = true → bobState t (laneCluster n) ≠
    bbReturning → endUse t n sd = none → exec (.lockLoss ⟨n, sd⟩ []) s = .next (t)) ∧
  (∀ (s : State) (n : Nat) (sd : Side) (t : State) (k q : Nat), t = unlock n sd ((s.raise (16 * laneCluster n +
    1)).count (R.LOCKLOSS (laneCluster n) (lanePos n) sd.idx)) → losesLock s sd n = true → bobState t (laneCluster n)
    ≠ bbReturning → endUse t n sd = some (k, q) → spanUp t k sd = true → (endLanes t k sd).all (fun m => !isLocked t m
    sd) = true → exec (.lockLoss ⟨n, sd⟩ []) s = .next (retrain k sd none false t)) ∧
  (∀ (s : State) (n : Nat) (sd : Side) (also : List Nat), lanePresent s n = true → exec (.lockLoss ⟨n, sd⟩ also) s =
    .next (rxLostAll ((n :: also).eraseDups.filter (losesLock s sd)) sd swLock (((n :: also).eraseDups.filter
    (losesLock s sd)).foldl (fun s m => lockDrop m sd s) s))) ∧
  (∀ (s : State) (n : Nat) (sd : Side), lanePresent s n = true → clusterStopped s (laneCluster n) = false → isLocked s
    n sd = true → (s.rxe n sd).winFrom + lolWindow s n sd ≤ 850 * s.clock → exec (.lolWindowEnd n sd) s = .next
    (s.putRx n sd { s.rxe n sd with bad := 0, winFrom := (s.rxe n sd).winFrom + lolWindow s n sd }))

/-- An RX end without signal for more than 10 ms whose side has signal elsewhere and that is not yet classified is
classified open, is recorded as a wiring fault of kind 3, raises 16c + 12 and fails as R74 and R396 say; with signal
back for 1 ms the class clears, its bobbin may be released and a link that waits for the end goes on (R75). A TX end
short of class 1-3 idles at once, stores the class, is recorded as a wiring fault of kind 1, raises 16c + 12 and
fails (R73, R396); an exit clock end idles, stores the class and raises the source. A commanded termination
detection with none in progress on idle ends stores the selection, becomes busy and marks the ends, and with a side
its exit clock end where that is idle (R72, R80; TERM_CMD testing the clock end: DEDUCED, log 232); on an end that
sends it is refused as a whole. Its end, for a bobbin in no DETECT swap, gives each marked end its result, clears
busy, lets the ends found faulty fail, looks at the spans that wait in DETECT and may release the bobbin. The
balance window of a LOCKED end at a PAM4 rate stores the imbalance and the lowest and highest level (R53). CNT_SNAP
latches the cluster's lane-end and clock counters and adds one to snap_no, answering the disagreements and the
number before (R76; the number before: DEDUCED, log 253); CNT_CTL.clear zeroes the live counters. LE_CFG stores the
six polarity settings of the lane and applies them to side A, then side B: at once, or at the next ordered-set
boundary where the end carries traffic (R77). -/
def Obligations.LaneEndMeasurements : Prop :=
  (∀ (s : State) (n : Nat) (sd : Side), lanePresent s n = true → rxDeaf s n sd = false → s.on (leSd n sd) = false →
    (s.rxe n sd).losAt.getD 0 + 10000000 < s.clock → s.on (leRxOpen n sd) = false → otherSignal s n sd = true → exec
    (.rxOpen n sd) s = .next (endFailed n sd false ((s.wr (leRxOpen n sd) 1).wired 3 sd.idx n (16 * laneCluster n +
    12)))) ∧
  (∀ (s : State) (n : Nat) (sd : Side), lanePresent s n = true → clusterStopped s (laneCluster n) = false → s.on (leSd
    n sd) = true → passed (s.rxe n sd).sdSince 1000000 s.clock = true → s.on (leRxOpen n sd) = true → endUse
    (bobRelease (laneCluster n) (s.wr (leRxOpen n sd) 0)) n sd = none → exec (.rxOpenClear n sd) s = .next (bobRelease
    (laneCluster n) (s.wr (leRxOpen n sd) 0))) ∧
  (∀ (s : State) (n : Nat) (sd : Side) (k q : Nat), lanePresent s n = true → clusterStopped s (laneCluster n) = false
    → s.on (leSd n sd) = true → passed (s.rxe n sd).sdSince 1000000 s.clock = true → s.on (leRxOpen n sd) = true →
    endUse (bobRelease (laneCluster n) (s.wr (leRxOpen n sd) 0)) n sd = some (k, q) → exec (.rxOpenClear n sd) s =
    .next (qualifyCheck k sd (bobRelease (laneCluster n) (s.wr (leRxOpen n sd) 0)))) ∧
  (∀ (s : State) (n : Nat) (sd : Side) (cls : Nat), n < 144 → lanePresent s n = true → (s.txe n sd).idle = false → 1 ≤
    cls → cls ≤ 3 → exec (.txShort n sd cls) s = .next (endFailed n sd true (((s.wr (leTxFault n sd) cls).txRest n
    sd).wired 1 sd.idx n (16 * laneCluster n + 12)))) ∧
  (∀ (s : State) (sd : Side) (cls : Nat) (c : Nat), c < clustersOf s → (s.ckExit c sd.dirOut).idle = false → 1 ≤ cls →
    cls ≤ 3 → exec (.txShort (144 + c) sd cls) s = .next ((s.putCkExit c sd.dirOut
    { s.ckExit c sd.dirOut with idle := true, txFault := cls }).raise (16 * c + 12))) ∧
  (∀ (s : State) (c : Nat) (mask : Nat) (a : Bool) (b : Bool), c < clustersOf s → pageOpen s (0x10 + c) = true → s.on
    (R.TERM_CMD_busy c) = false → (termEnds mask a b).all (fun e => (s.txe (laneAt c e.1) e.2).idle) = true → exec
    (.terminationDetect c mask a b) s = .next ((fun u => if b then termExit c .b u else u) ((fun u => if a then
    termExit c .a u else u) ((termEnds mask a b).foldl (fun s e => s.putTx (laneAt c e.1) e.2
    { s.txe (laneAt c e.1) e.2 with detecting := true, byCmd := true }) (((((s.wr (R.TERM_CMD_lane_mask c) mask).wrB
    (R.TERM_CMD_side_a c) a).wrB (R.TERM_CMD_side_b c) b).wr (R.TERM_CMD_refused c) 0).wr (R.TERM_CMD_busy c) 1))))) ∧
  (∀ (s : State) (c : Nat) (mask : Nat) (a : Bool) (b : Bool), c < clustersOf s → pageOpen s (0x10 + c) = true → s.on
    (R.TERM_CMD_busy c) = false → (termEnds mask a b).any (fun e => !(s.txe (laneAt c e.1) e.2).idle) = true → exec
    (.terminationDetect c mask a b) s = .next ((((s.wr (R.TERM_CMD_lane_mask c) mask).wrB (R.TERM_CMD_side_a c) a).wrB
    (R.TERM_CMD_side_b c) b).wr (R.TERM_CMD_refused c) 1)) ∧
  (∀ (s : State) (c : Nat) (absent : List Nat) (E : List Nat) (t u : State), E = (((List.range 9).flatMap fun j => [j,
    9 + j]).filter fun e => (s.txe (laneAt c (e % 9)) (Side.ofIdx (e / 9))).detecting) → u = (([Dir.ab, Dir.ba].foldl
    (fun s d => termClock c d (absent.contains (18 + d.idx)) s) (E.foldl (fun s e => termResult c (e % 9) (Side.ofIdx
    (e / 9)) (absent.contains e) s) s)).wr (R.TERM_CMD_busy c) 0) → t = (E.foldl (fun s e => termFaulty c (e % 9)
    (Side.ofIdx (e / 9)) s) u) → c < clustersOf s → (s.bob c).detect = false → exec (.terminationDetectDone c absent)
    s = .next (bobRelease c ((spansOfCluster t c).foldl (fun s p => detectCheck p.1 p.2 s) t))) ∧
  (∀ (s : State) (n : Nat) (sd : Side) (counts : List Nat), lanePresent s n = true → clusterStopped s (laneCluster n)
    = false → isLocked s n sd = true → (s.rxe n sd).balRun = true → isPam (ckRate s (laneCluster n) sd.dirIn) = true →
    exec (.balanceWindowEnd n sd counts) s = .next ((((s.wr (R.BAL_valid (laneCluster n) (lanePos n) sd.idx) 1).wr
    (R.BAL_imbalance (laneCluster n) (lanePos n) sd.idx) (maxNat counts - minNat counts)).wr (R.BAL_min_level
    (laneCluster n) (lanePos n) sd.idx) (counts.idxOf (minNat counts))).wr (R.BAL_max_level (laneCluster n) (lanePos
    n) sd.idx) (counts.idxOf (maxNat counts)))) ∧
  (∀ (s : State) (c : Nat), c < clustersOf s → pageOpen s (0x10 + c) = true → exec (.cntSnap c) s = .next
    (((State.latchAll (clusterCounters c) s).bumpWrap (R.CNT_SNAP_snap_no c)).answerWord (s.live
    (R.CNT_SNAP_set_disagree c) * 65536 + s.rd (R.CNT_SNAP_snap_no c)))) ∧
  (∀ (s : State) (c : Nat), c < clustersOf s → pageOpen s (0x10 + c) = true → exec (.cntCtlClear c) s = .next
    ((State.zeroLive (clusterCounters c) s).putLive (R.CNT_SNAP_set_disagree c) 0)) ∧
  (∀ (s : State) (n : Nat) (v : Nat) (t : State), t = (((((s.wrB (R.LE_CFG_tx_pol (laneCluster n) (lanePos n) 0) (bit
    v 2)).wrB (R.LE_CFG_rx_pol_force (laneCluster n) (lanePos n) 0) (bit v 1)).wrB (R.LE_CFG_rx_pol_auto (laneCluster
    n) (lanePos n) 0) (bit v 0)).wrB (R.LE_CFG_tx_pol (laneCluster n) (lanePos n) 1) (bit v 6)).wrB
    (R.LE_CFG_rx_pol_force (laneCluster n) (lanePos n) 1) (bit v 5)).wrB (R.LE_CFG_rx_pol_auto (laneCluster n)
    (lanePos n) 1) (bit v 4) → lanePresent s n = true → pageOpen s (0x10 + laneCluster n) = true → exec (.leCfgWrite n
    v) s = .next (leCfgSide n .b (leCfgSide n .a t)))

/-- In a cluster of the part. Where the clock ends are judged, an inverted duty cycle sets ckl_inv once, is recorded as
a wiring fault of kind 5 and raises 16c + 13 (R80, R396), and an entry clock at its level and tolerance for 100 µs
sets ckl_ok, ends its loss and lets spans in DETECT go on (R82). An entry clock below its level for more than 256
cycles, outside its tolerance, or without a clock to judge it by is lost (R81): one that is not qualified only notes
the loss; a qualified one clears ckl_ok, in a direction that is OFF no more, and else raises 16c + 2 + d (R82); one
that runs FORWARDED on its own PLL in no clock event then borrows, where it is in an x16 side and may (R94), and
otherwise begins its switchover, with the clusters of its x16 side (R94, R13; log 233). A finished switchover of a
FORWARDED direction puts it in FALLBACK on REFCLK where REFCLK is good and no TRANSPARENT link is carried, and
otherwise in RECOVERED, or in holdover with no end to steer by (R94, R101, R103); the time it took is no time of a
swap in progress (R416), and the slices pass again. One whose PLL has not locked 8 µs after the loss borrows where
it may and otherwise its spans retrain (R101). -/
def Obligations.EntryClockEvents : Prop :=
  (∀ (s : State) (c : Nat) (d : Dir), c < clustersOf s → s.on (R.CK_STAT_ckl_inv c d.idx) = false → clockJudged s c =
    true → exec (.clockDutyInvert c d) s = .next ((s.wr (R.CK_STAT_ckl_inv c d.idx) 1).wired 5 d.inSide.idx c (16 * c
    + 13))) ∧
  (∀ (s : State) (c : Nat) (d : Dir) (mv : Nat) (ppm : Nat) (len : Nat), c < clustersOf s → clockJudged s c = true →
    cklLevel s c ≤ mv → ppm ≤ ckTolerance s c → 100000 ≤ len → exec (.clockLaneQualified ⟨c, d⟩ ⟨mv, ppm, len⟩) s =
    .next (detectAll ((s.putCkEntry c d { s.ckEntry c d with loss := false }).wr (R.CK_STAT_ckl_ok c d.idx) 1))) ∧
  (∀ (s : State) (c : Nat) (d : Dir) (mv : Nat) (ppm : Nat) (len : Nat), c < clustersOf s → clusterStopped s c = false
    → s.dev.phase ≠ .watch → cklInLoss s c mv len ppm = true → s.on (R.CK_STAT_ckl_ok c d.idx) = false → exec
    (.clockLaneLoss ⟨c, d⟩ ⟨mv, ppm, len⟩) s = .next (s.putCkEntry c d { s.ckEntry c d with loss := true })) ∧
  (∀ (s : State) (c : Nat) (d : Dir) (mv : Nat) (ppm : Nat) (len : Nat) (t : State), t = (s.putCkEntry c d
    { s.ckEntry c d with loss := true }).wr (R.CK_STAT_ckl_ok c d.idx) 0 → c < clustersOf s → clusterStopped s c =
    false → s.dev.phase ≠ .watch → cklInLoss s c mv len ppm = true → s.on (R.CK_STAT_ckl_ok c d.idx) = true → ckMode t
    c d = ckOff → exec (.clockLaneLoss ⟨c, d⟩ ⟨mv, ppm, len⟩) s = .next (t)) ∧
  (∀ (s : State) (c : Nat) (d : Dir) (mv : Nat) (ppm : Nat) (len : Nat) (t : State), t = (s.putCkEntry c d
    { s.ckEntry c d with loss := true }).wr (R.CK_STAT_ckl_ok c d.idx) 0 → c < clustersOf s → clusterStopped s c =
    false → s.dev.phase ≠ .watch → cklInLoss s c mv len ppm = true → s.on (R.CK_STAT_ckl_ok c d.idx) = true → ckMode t
    c d ≠ ckOff → steadyForward (t.raise (16 * c + 2 + d.idx)) d c = false → exec (.clockLaneLoss ⟨c, d⟩ ⟨mv, ppm,
    len⟩) s = .next (t.raise (16 * c + 2 + d.idx))) ∧
  (∀ (s : State) (c : Nat) (d : Dir) (mv : Nat) (ppm : Nat) (len : Nat) (t : State), t = (s.putCkEntry c d
    { s.ckEntry c d with loss := true }).wr (R.CK_STAT_ckl_ok c d.idx) 0 → c < clustersOf s → clusterStopped s c =
    false → s.dev.phase ≠ .watch → cklInLoss s c mv len ppm = true → s.on (R.CK_STAT_ckl_ok c d.idx) = true → ckMode t
    c d ≠ ckOff → steadyForward (t.raise (16 * c + 2 + d.idx)) d c = true → (x16Side (t.raise (16 * c + 2 + d.idx)) c
    d && mayBorrow (t.raise (16 * c + 2 + d.idx)) c d) = true → exec (.clockLaneLoss ⟨c, d⟩ ⟨mv, ppm, len⟩) s = .next
    ((borrowStart c d (t.raise (16 * c + 2 + d.idx))).putCk c d
    { (borrowStart c d (t.raise (16 * c + 2 + d.idx))).ck c d with heldFrom := some (borrowStart c d (t.raise (16 * c + 2 + d.idx))).clock })) ∧
  (∀ (s : State) (c : Nat) (d : Dir) (mv : Nat) (ppm : Nat) (len : Nat) (t : State), t = (s.putCkEntry c d
    { s.ckEntry c d with loss := true }).wr (R.CK_STAT_ckl_ok c d.idx) 0 → c < clustersOf s → clusterStopped s c =
    false → s.dev.phase ≠ .watch → cklInLoss s c mv len ppm = true → s.on (R.CK_STAT_ckl_ok c d.idx) = true → ckMode t
    c d ≠ ckOff → steadyForward (t.raise (16 * c + 2 + d.idx)) d c = true → (x16Side (t.raise (16 * c + 2 + d.idx)) c
    d && mayBorrow (t.raise (16 * c + 2 + d.idx)) c d) = false → exec (.clockLaneLoss ⟨c, d⟩ ⟨mv, ppm, len⟩) s = .next
    (((modeMates (t.raise (16 * c + 2 + d.idx)) c).filter (steadyForward (t.raise (16 * c + 2 + d.idx)) d)).foldl (fun
    s o => switchOne o d s) (t.raise (16 * c + 2 + d.idx)))) ∧
  (∀ (s t : State) (c : Nat) (d : Dir), t = (swapHeld c ((s.ck c d).switchFrom.getD s.clock) s).putCk c d
    { (swapHeld c ((s.ck c d).switchFrom.getD s.clock) s).ck c d with switchFrom := none } → c < clustersOf s → (s.ck
    c d).switchFrom.isSome = true → modeMates s c = [c] → ckMode t c d = ckForwarded → refGood t = true →
    carriesTransparent t c d = false → exec (.switchoverComplete c d) s = .next (slicesPass c (lendSync c d ((t.wr
    (R.CK_STAT_mode c d.idx) ckFallback).wr (R.CK_STAT_ref c d.idx) refRefclk)))) ∧
  (∀ (s t : State) (c : Nat) (d : Dir), t = (swapHeld c ((s.ck c d).switchFrom.getD s.clock) s).putCk c d
    { (swapHeld c ((s.ck c d).switchFrom.getD s.clock) s).ck c d with switchFrom := none } → c < clustersOf s → (s.ck
    c d).switchFrom.isSome = true → modeMates s c = [c] → ckMode t c d = ckForwarded → (refGood t &&
    !carriesTransparent t c d) = false → exec (.switchoverComplete c d) s = .next (slicesPass c (lendSync c d
    (steerOrHold c d t.clock (t.wr (R.CK_STAT_mode c d.idx) ckRecovered))))) ∧
  (∀ (s : State) (c : Nat) (d : Dir), c < clustersOf s → (s.ck c d).switchFrom.isSome = true → exec
    (.switchoverComplete c d) s = .next (((modeMates s c).filter fun o => (s.ck o d).switchFrom.isSome).foldl (fun s o
    => switchDone o d s) s)) ∧
  (∀ (s : State) (c : Nat) (d : Dir), c < clustersOf s → passed (s.ck c d).switchFrom 8000 s.clock = true → s.on
    (R.CK_STAT_pll_lock c d.idx) = false → mayBorrow s c d = true → exec (.switchoverLockExpiry c d) s = .next
    (borrowStart c d s)) ∧
  (∀ (s : State) (c : Nat) (d : Dir) (t : State), t = (swapHeld c ((s.ck c d).switchFrom.getD s.clock) s).putCk c d
    { (swapHeld c ((s.ck c d).switchFrom.getD s.clock) s).ck c d with switchFrom := none } → c < clustersOf s → passed
    (s.ck c d).switchFrom 8000 s.clock = true → s.on (R.CK_STAT_pll_lock c d.idx) = false → mayBorrow s c d = false →
    exec (.switchoverLockExpiry c d) s = .next (slicesPass c ((spansIn t c d).foldl (fun s p => if modeOf s p.1 =
    mTransparent then s else retrain p.1 p.2 (some (spanRung s p.1 p.2)) false s) t)))

/-- An unlock of a cluster PLL that was locked clears own_lock. Within a switchover of its direction it raises nothing
and clears pll_lock; where that PLL is lent, the borrower alone loses its clock (R101, R100). Otherwise it raises
16c + 4 + d (R97), and: where the PLL is lent, the borrow ends, pll_lock clears in both directions, the borrower's
source is raised too and the spans of both directions retrain, but for TRANSPARENT links (R100); where the direction
borrows, nothing else changes; where it is idle, pll_lock clears; where it may borrow, it begins to borrow its
partner's PLL (R98); else pll_lock clears and its spans retrain. A relock of a PLL that waits for it sets own_lock,
and pll_lock where the direction does not borrow (R97, R98; the clock mode stays: DEDUCED, log 53); in an idle
direction the standby rules say what it shows. The end of a borrow's interruption lets the slices pass; where a
clock-lane loss began it, that time is no time of a swap (R98, R416). The end of holdover, 10 ms after it began,
retrains the spans with TX ends in the direction at their rung (R102). A dense-skip request or release that is
repeated goes out on the direction's UP spans again, with one more sending counted, up to 16 (R93). -/
def Obligations.ClusterPllEvents : Prop :=
  (∀ (s : State) (c : Nat) (d : Dir) (t : State), t = (s.wr (R.CK_STAT_own_lock c d.idx) 0).putCk c d
    { s.ck c d with unlockHeld := true } → c < clustersOf s → s.on (R.CK_STAT_own_lock c d.idx) = true → ((t.ck c
    d).switchFrom.isSome && ckMode t c d = ckForwarded) = true → (t.wr (R.CK_STAT_pll_lock c d.idx) 0).on
    (R.CK_STAT_lent c d.idx) = false → exec (.pllUnlock c d) s = .next (t.wr (R.CK_STAT_pll_lock c d.idx) 0)) ∧
  (∀ (s : State) (c : Nat) (d : Dir) (t u : State), t = (s.wr (R.CK_STAT_own_lock c d.idx) 0).putCk c d
    { s.ck c d with unlockHeld := true } → c < clustersOf s → s.on (R.CK_STAT_own_lock c d.idx) = true → u =
    ((borrowEnd (partner c) d (t.wr (R.CK_STAT_pll_lock c d.idx) 0)).wr (R.CK_STAT_pll_lock (partner c) d.idx)
    0).raise (16 * partner c + 4 + d.idx) → ((t.ck c d).switchFrom.isSome && ckMode t c d = ckForwarded) = true →
    (t.wr (R.CK_STAT_pll_lock c d.idx) 0).on (R.CK_STAT_lent c d.idx) = true → exec (.pllUnlock c d) s = .next
    ((spansIn (u) (partner c) d).foldl (fun s p => if modeOf s p.1 = mTransparent then s else retrain p.1 p.2 (some
    (spanRung s p.1 p.2)) false s) (u))) ∧
  (∀ (s : State) (c : Nat) (d : Dir) (t u v : State), t = (s.wr (R.CK_STAT_own_lock c d.idx) 0).putCk c d
    { s.ck c d with unlockHeld := true } → c < clustersOf s → s.on (R.CK_STAT_own_lock c d.idx) = true → u = t.raise
    (16 * c + 4 + d.idx) → v = (((borrowEnd (partner c) d u).wr (R.CK_STAT_pll_lock (partner c) d.idx) 0).wr
    (R.CK_STAT_pll_lock c d.idx) 0).raise (16 * partner c + 4 + d.idx) → ((t.ck c d).switchFrom.isSome && ckMode t c d
    = ckForwarded) = false → u.on (R.CK_STAT_lent c d.idx) = true → exec (.pllUnlock c d) s = .next (clockDemand
    (partner c) d (clockDemand c d v))) ∧
  (∀ (s : State) (c : Nat) (d : Dir) (t u : State), t = (s.wr (R.CK_STAT_own_lock c d.idx) 0).putCk c d
    { s.ck c d with unlockHeld := true } → c < clustersOf s → s.on (R.CK_STAT_own_lock c d.idx) = true → u = t.raise
    (16 * c + 4 + d.idx) → ((t.ck c d).switchFrom.isSome && ckMode t c d = ckForwarded) = false → u.on (R.CK_STAT_lent
    c d.idx) = false → u.on (R.CK_STAT_borrowed c d.idx) = true → exec (.pllUnlock c d) s = .next (u)) ∧
  (∀ (s : State) (c : Nat) (d : Dir) (t u : State), t = (s.wr (R.CK_STAT_own_lock c d.idx) 0).putCk c d
    { s.ck c d with unlockHeld := true } → c < clustersOf s → s.on (R.CK_STAT_own_lock c d.idx) = true → u = t.raise
    (16 * c + 4 + d.idx) → ((t.ck c d).switchFrom.isSome && ckMode t c d = ckForwarded) = false → u.on (R.CK_STAT_lent
    c d.idx) = false → u.on (R.CK_STAT_borrowed c d.idx) = false → ckMode u c d = ckOff → exec (.pllUnlock c d) s =
    .next (u.wr (R.CK_STAT_pll_lock c d.idx) 0)) ∧
  (∀ (s : State) (c : Nat) (d : Dir) (t u : State), t = (s.wr (R.CK_STAT_own_lock c d.idx) 0).putCk c d
    { s.ck c d with unlockHeld := true } → c < clustersOf s → s.on (R.CK_STAT_own_lock c d.idx) = true → u = t.raise
    (16 * c + 4 + d.idx) → ((t.ck c d).switchFrom.isSome && ckMode t c d = ckForwarded) = false → u.on (R.CK_STAT_lent
    c d.idx) = false → u.on (R.CK_STAT_borrowed c d.idx) = false → ckMode u c d ≠ ckOff → mayBorrow u c d = true →
    exec (.pllUnlock c d) s = .next (borrowStart c d u)) ∧
  (∀ (s : State) (c : Nat) (d : Dir) (t u : State), t = (s.wr (R.CK_STAT_own_lock c d.idx) 0).putCk c d
    { s.ck c d with unlockHeld := true } → c < clustersOf s → s.on (R.CK_STAT_own_lock c d.idx) = true → u = t.raise
    (16 * c + 4 + d.idx) → ((t.ck c d).switchFrom.isSome && ckMode t c d = ckForwarded) = false → u.on (R.CK_STAT_lent
    c d.idx) = false → u.on (R.CK_STAT_borrowed c d.idx) = false → ckMode u c d ≠ ckOff → mayBorrow u c d = false →
    exec (.pllUnlock c d) s = .next ((spansIn (u.wr (R.CK_STAT_pll_lock c d.idx) 0) c d).foldl (fun s p => if modeOf s
    p.1 = mTransparent then s else retrain p.1 p.2 (some (spanRung s p.1 p.2)) false s) (u.wr (R.CK_STAT_pll_lock c
    d.idx) 0))) ∧
  (∀ (s : State) (c : Nat) (d : Dir), c < clustersOf s → (s.ck c d).unlockHeld = true → ckMode s c d = ckOff → exec
    (.pllRelock c d) s = .next (standbySync c (s.putCk c d { s.ck c d with unlockHeld := false }))) ∧
  (∀ (s : State) (c : Nat) (d : Dir) (t : State), t = (s.putCk c d { s.ck c d with unlockHeld := false }).wr
    (R.CK_STAT_own_lock c d.idx) 1 → c < clustersOf s → (s.ck c d).unlockHeld = true → ckMode s c d ≠ ckOff → t.on
    (R.CK_STAT_borrowed c d.idx) = false → exec (.pllRelock c d) s = .next (t.wr (R.CK_STAT_pll_lock c d.idx) 1)) ∧
  (∀ (s : State) (c : Nat) (d : Dir) (t : State), t = (s.putCk c d { s.ck c d with unlockHeld := false }).wr
    (R.CK_STAT_own_lock c d.idx) 1 → c < clustersOf s → (s.ck c d).unlockHeld = true → ckMode s c d ≠ ckOff → t.on
    (R.CK_STAT_borrowed c d.idx) = true → exec (.pllRelock c d) s = .next (t)) ∧
  (∀ (s : State) (c : Nat) (d : Dir), c < clustersOf s → (s.ck c d).borrowing = true → (s.ck c d).heldFrom = none →
    exec (.borrowComplete c d) s = .next (slicesPass c (s.putCk c d
    { s.ck c d with borrowing := false, heldFrom := none }))) ∧
  (∀ (s : State) (c : Nat) (d : Dir) (t : State) (since : Nat), t = swapHeld c since s → c < clustersOf s → (s.ck c
    d).borrowing = true → (s.ck c d).heldFrom = some since → exec (.borrowComplete c d) s = .next (slicesPass c
    (t.putCk c d { t.ck c d with borrowing := false, heldFrom := none }))) ∧
  (∀ (s : State) (c : Nat) (d : Dir), c < clustersOf s → passed (s.ck c d).holdover 10000000 s.clock = true → exec
    (.holdoverExpiry c d) s = .next (((spansIn s c d).filter fun p => p.2 = d.outSide && modeOf s p.1 ≠
    mTransparent).foldl (fun s p => retrain p.1 p.2 (some (spanRung s p.1 p.2)) false s) s)) ∧
  (∀ (s : State) (c : Nat) (d : Dir) (t : State), t = s.putCk c d
    { s.ck c d with denseSent := (s.ck c d).denseSent + 1 } → c < clustersOf s → (s.ck c d).denseOpen = 1 → (s.ck c
    d).denseSent < 16 → exec (.denseReqResend c d) s = .next ((denseSpans t c d).foldl (fun s p => if spanUp s p.1 p.2
    then postTrn p.1 p.2 (mkTrn s p.1 p.2 trnDENSEREQ) s else s) t)) ∧
  (∀ (s : State) (c : Nat) (d : Dir) (t : State), t = s.putCk c d
    { s.ck c d with denseSent := (s.ck c d).denseSent + 1 } → c < clustersOf s → 2 ≤ (s.ck c d).denseOpen → (s.ck c
    d).denseSent < 16 → exec (.denseReqResend c d) s = .next ((denseSpans t c d).foldl (fun s p => if spanUp s p.1 p.2
    then postTrn p.1 p.2 (mkTrn s p.1 p.2 trnDENSEREL) s else s) t))

/-- With the page answering and no operation of CK_CMD in progress: TO_FORWARDED on a direction whose clock lane (both,
for an x16 side) is qualified, that is not borrowed and not FORWARDED, asks for the release of dense SKPs;
TO_FALLBACK on a FORWARDED or RECOVERED direction with REFCLK good and no TRANSPARENT link asks for dense SKPs;
RETURN_OWN on a borrowed direction whose own PLL is locked begins; each stores op and dir, clears refused and
becomes busy. One that does not meet its condition stores op and dir and sets refused; nothing else changes (R104;
that a refusal stores the fields: DEDUCED, log 106). The end of an operation forgets it, clears busy and lets the
slices pass: TO_FORWARDED, while the entry clocks are still qualified, puts the direction (both clusters of an x16
side) in FORWARDED on the entry clock without elastic buffers, and otherwise moves nothing (DEDUCED, log 52);
RETURN_OWN ends the borrow and runs on its own PLL in the mode it has; TO_FALLBACK, at dense_rx, and with REFCLK
good, makes the move to REFCLK of ckMoveOne, in FALLBACK with the elastic buffers centred, as does the end of its
wait 20 µs after the command (R104). -/
def Obligations.ClockCommands : Prop :=
  (∀ (s : State) (c : Nat) (d : Dir), c < clustersOf s → pageOpen s (0x10 + c) = true → s.on (R.CK_CMD_busy c) = false
    → (modeMates s c).any (fun o => !s.on (R.CK_STAT_ckl_ok o d.idx)) = false → s.on (R.CK_STAT_borrowed c d.idx) =
    false → ckMode s c d ≠ ckForwarded → exec (.ckToForwarded c d) s = .next (denseAsk c d false (((((s.wr
    (R.CK_CMD_op c) 0).wr (R.CK_CMD_dir c) d.idx).wr (R.CK_CMD_refused c) 0).wr (R.CK_CMD_busy c) 1).putCk c d
    { s.ck c d with opFrom := some 0, opAt := s.clock }))) ∧
  (∀ (s : State) (c : Nat) (d : Dir), c < clustersOf s → pageOpen s (0x10 + c) = true → s.on (R.CK_CMD_busy c) = false
    → ((modeMates s c).any (fun o => !s.on (R.CK_STAT_ckl_ok o d.idx)) = true ∨ s.on (R.CK_STAT_borrowed c d.idx) =
    true ∨ ckMode s c d = ckForwarded) → exec (.ckToForwarded c d) s = .next (((s.wr (R.CK_CMD_op c) 0).wr
    (R.CK_CMD_dir c) d.idx).wr (R.CK_CMD_refused c) 1)) ∧
  (∀ (s : State) (c : Nat) (d : Dir), c < clustersOf s → pageOpen s (0x10 + c) = true → s.on (R.CK_CMD_busy c) = false
    → refGood s = true → (ckMode s c d = ckForwarded ∨ ckMode s c d = ckRecovered) → carriesTransparent s c d = false
    → exec (.ckToFallback c d) s = .next (denseAsk c d true (((((s.wr (R.CK_CMD_op c) 1).wr (R.CK_CMD_dir c) d.idx).wr
    (R.CK_CMD_refused c) 0).wr (R.CK_CMD_busy c) 1).putCk c d { s.ck c d with opFrom := some 1, opAt := s.clock }))) ∧
  (∀ (s : State) (c : Nat) (d : Dir), c < clustersOf s → pageOpen s (0x10 + c) = true → s.on (R.CK_CMD_busy c) = false
    → (refGood s = false ∨ (ckMode s c d ≠ ckForwarded ∧ ckMode s c d ≠ ckRecovered) ∨ carriesTransparent s c d =
    true) → exec (.ckToFallback c d) s = .next (((s.wr (R.CK_CMD_op c) 1).wr (R.CK_CMD_dir c) d.idx).wr
    (R.CK_CMD_refused c) 1)) ∧
  (∀ (s : State) (c : Nat) (d : Dir), c < clustersOf s → pageOpen s (0x10 + c) = true → s.on (R.CK_CMD_busy c) = false
    → s.on (R.CK_STAT_borrowed c d.idx) = true → s.on (R.CK_STAT_own_lock c d.idx) = true → exec (.ckReturnOwn c d) s
    = .next ((((((s.wr (R.CK_CMD_op c) 2).wr (R.CK_CMD_dir c) d.idx).wr (R.CK_CMD_refused c) 0).wr (R.CK_CMD_busy c)
    1).putCk c d { s.ck c d with opFrom := some 2, opAt := s.clock }))) ∧
  (∀ (s : State) (c : Nat) (d : Dir), c < clustersOf s → pageOpen s (0x10 + c) = true → s.on (R.CK_CMD_busy c) = false
    → (s.on (R.CK_STAT_borrowed c d.idx) = false ∨ s.on (R.CK_STAT_own_lock c d.idx) = false) → exec (.ckReturnOwn c
    d) s = .next (((s.wr (R.CK_CMD_op c) 2).wr (R.CK_CMD_dir c) d.idx).wr (R.CK_CMD_refused c) 1)) ∧
  (∀ (s : State) (c : Nat) (d : Dir) (t : State), t = s.putCk c d { s.ck c d with opFrom := none } → c < clustersOf s
    → (s.ck c d).opFrom = some 1 → (s.ck c d).opAt + 20000 ≤ s.clock → refGood t = true → exec (.fallbackWaitExpiry c
    d) s = .next ((modeMates t c).foldl (fun s o => ckMoveOne 1 d o s) t)) ∧
  (∀ (s : State) (c : Nat) (d : Dir) (t : State), t = s.putCk c d { s.ck c d with opFrom := none } → c < clustersOf s
    → s.on (R.CK_CMD_busy c) = true → ckOpOf s c = some (d, 0) → (modeMates t c).all (fun o => t.on (R.CK_STAT_ckl_ok
    o d.idx)) = true → exec (.ckOpComplete c) s = .next (slicesPass c (((modeMates t c).foldl (fun s o => ckMoveOne 0
    d o s) t).wr (R.CK_CMD_busy c) 0))) ∧
  (∀ (s : State) (c : Nat) (d : Dir) (t : State), t = s.putCk c d { s.ck c d with opFrom := none } → c < clustersOf s
    → s.on (R.CK_CMD_busy c) = true → ckOpOf s c = some (d, 0) → modeMates t c = [c] → t.on (R.CK_STAT_ckl_ok c d.idx)
    = true → exec (.ckOpComplete c) s = .next (slicesPass c ((lendSync c d ((((t.putCk c d
    { t.ck c d with steer := none, holdover := none }).wr (R.CK_STAT_mode c d.idx) ckForwarded).wr (R.CK_STAT_ref c
    d.idx) refEntry).wr (R.EB_STAT_fill c d.idx) 0)).wr (R.CK_CMD_busy c) 0))) ∧
  (∀ (s : State) (c : Nat) (d : Dir) (t : State), t = s.putCk c d { s.ck c d with opFrom := none } → c < clustersOf s
    → s.on (R.CK_CMD_busy c) = true → ckOpOf s c = some (d, 0) → (modeMates t c).all (fun o => t.on (R.CK_STAT_ckl_ok
    o d.idx)) = false → exec (.ckOpComplete c) s = .next (slicesPass c (t.wr (R.CK_CMD_busy c) 0))) ∧
  (∀ (s : State) (c : Nat) (d : Dir) (t : State), t = s.putCk c d { s.ck c d with opFrom := none } → c < clustersOf s
    → s.on (R.CK_CMD_busy c) = true → ckOpOf s c = some (d, 2) → exec (.ckOpComplete c) s = .next (slicesPass c
    ((((borrowEnd c d t).wr (R.CK_STAT_pll_lock c d.idx) 1).wr (R.CK_STAT_ref c d.idx) (if ckMode (borrowEnd c d t) c
    d = ckForwarded then refEntry else refRefclk)).wr (R.CK_CMD_busy c) 0))) ∧
  (∀ (s : State) (c : Nat) (d : Dir) (t : State), t = s.putCk c d { s.ck c d with opFrom := none } → c < clustersOf s
    → s.on (R.CK_CMD_busy c) = true → ckOpOf s c = some (d, 1) → s.on (R.CK_STAT_dense_rx c d.idx) = true → refGood t
    = true → exec (.ckOpComplete c) s = .next (slicesPass c (((modeMates t c).foldl (fun s o => ckMoveOne 1 d o s)
    t).wr (R.CK_CMD_busy c) 0)))

/-- At an end that the engine serves in ACQUIRE, before the limit of 2^acq_max symbols in blocks of 4,096, each block
stores the clamped coefficients, the MSE (saturated at 16 bits) and one more block; the first two blocks store the
floating-tap positions too (R116, R117). A block is good if its MSE is at most mse_limit and differs from the last
block's by at most a sixteenth of its own; the first block is never good (DESIGN CHOICE, log 218). A block that is
not good starts the count of good blocks anew; a good one counts, and the fourth in a row ends the acquisition with
success: the end is in TRACK with its rung recorded, the engine goes on, and the span in training is judged. At the
limit it ends without success, which counts, raises 16c + 7 and is a failed figure for a span in training (R117,
R119). At an end that the engine has visited in TRACK for 2^(12 + visit_len) symbols, the visit judges the range
(judgeRange, R120; before the update of the visit, DESIGN CHOICE, log 218), stores the MSE and gives the engine its
next end; the accumulated update waits for an ordered-set boundary at an end that decodes symbols, and in a
TRANSPARENT link applies at once, by at most one code a coefficient. The boundary applies it, each coefficient by at
most two codes within its limit (R118). -/
def Obligations.AcquisitionAndTracking : Prop :=
  (∀ (s : State) (n : Nat) (sd : Side) (mse : Nat) (coefs : List Int) (f1pos : Nat) (f2pos : Nat), lanePresent s n =
    true → acquiringNow s n sd = true → (s.coefs n sd).blocks < acqLimit s (laneCluster n) → (s.coefs n sd).blocks = 0
    → exec (.acqBlockEnd n sd mse coefs f1pos f2pos) s = .next (s.putCoef n sd
    { coefPositions (coefSet (s.coefs n sd) (coefClamp coefs)) f1pos f2pos with mse := min mse 0xFFFF, valid := true, blocks := (s.coefs n sd).blocks + 1, goodBlocks := 0 })) ∧
  (∀ (s : State) (n : Nat) (sd : Side) (mse : Nat) (coefs : List Int) (f1pos : Nat) (f2pos : Nat), lanePresent s n =
    true → acquiringNow s n sd = true → (s.coefs n sd).blocks < acqLimit s (laneCluster n) → (s.coefs n sd).blocks = 1
    → mseLimit s (laneCluster n) < min mse 0xFFFF → exec (.acqBlockEnd n sd mse coefs f1pos f2pos) s = .next
    (s.putCoef n sd
    { coefPositions (coefSet (s.coefs n sd) (coefClamp coefs)) f1pos f2pos with mse := min mse 0xFFFF, valid := true, blocks := (s.coefs n sd).blocks + 1, goodBlocks := 0 })) ∧
  (∀ (s : State) (n : Nat) (sd : Side) (mse : Nat) (coefs : List Int) (f1pos : Nat) (f2pos : Nat), lanePresent s n =
    true → acquiringNow s n sd = true → (s.coefs n sd).blocks < acqLimit s (laneCluster n) → (s.coefs n sd).blocks = 1
    → min mse 0xFFFF ≤ mseLimit s (laneCluster n) → 16 * (max (min mse 0xFFFF) (s.coefs n sd).mse - min (min mse
    0xFFFF) (s.coefs n sd).mse) ≤ min mse 0xFFFF → (s.coefs n sd).goodBlocks < 3 → exec (.acqBlockEnd n sd mse coefs
    f1pos f2pos) s = .next (s.putCoef n sd
    { coefPositions (coefSet (s.coefs n sd) (coefClamp coefs)) f1pos f2pos with mse := min mse 0xFFFF, valid := true, blocks := (s.coefs n sd).blocks + 1, goodBlocks := (s.coefs n sd).goodBlocks + 1 })) ∧
  (∀ (s : State) (n : Nat) (sd : Side) (mse : Nat) (coefs : List Int) (f1pos : Nat) (f2pos : Nat), lanePresent s n =
    true → acquiringNow s n sd = true → (s.coefs n sd).blocks < acqLimit s (laneCluster n) → 2 ≤ (s.coefs n sd).blocks
    → mseLimit s (laneCluster n) < min mse 0xFFFF → exec (.acqBlockEnd n sd mse coefs f1pos f2pos) s = .next
    (s.putCoef n sd
    { coefSet (s.coefs n sd) (coefClamp coefs) with mse := min mse 0xFFFF, valid := true, blocks := (s.coefs n sd).blocks + 1, goodBlocks := 0 })) ∧
  (∀ (s : State) (n : Nat) (sd : Side) (mse : Nat) (coefs : List Int) (f1pos : Nat) (f2pos : Nat), lanePresent s n =
    true → acquiringNow s n sd = true → (s.coefs n sd).blocks < acqLimit s (laneCluster n) → 2 ≤ (s.coefs n sd).blocks
    → min mse 0xFFFF < 16 * (max (min mse 0xFFFF) (s.coefs n sd).mse - min (min mse 0xFFFF) (s.coefs n sd).mse) → exec
    (.acqBlockEnd n sd mse coefs f1pos f2pos) s = .next (s.putCoef n sd
    { coefSet (s.coefs n sd) (coefClamp coefs) with mse := min mse 0xFFFF, valid := true, blocks := (s.coefs n sd).blocks + 1, goodBlocks := 0 })) ∧
  (∀ (s : State) (n : Nat) (sd : Side) (mse : Nat) (coefs : List Int) (f1pos : Nat) (f2pos : Nat), lanePresent s n =
    true → acquiringNow s n sd = true → (s.coefs n sd).blocks < acqLimit s (laneCluster n) → 2 ≤ (s.coefs n sd).blocks
    → min mse 0xFFFF ≤ mseLimit s (laneCluster n) → 16 * (max (min mse 0xFFFF) (s.coefs n sd).mse - min (min mse
    0xFFFF) (s.coefs n sd).mse) ≤ min mse 0xFFFF → (s.coefs n sd).goodBlocks < 3 → exec (.acqBlockEnd n sd mse coefs
    f1pos f2pos) s = .next (s.putCoef n sd
    { coefSet (s.coefs n sd) (coefClamp coefs) with mse := min mse 0xFFFF, valid := true, blocks := (s.coefs n sd).blocks + 1, goodBlocks := (s.coefs n sd).goodBlocks + 1 })) ∧
  (∀ (s : State) (n : Nat) (sd : Side) (mse : Nat) (coefs : List Int) (f1pos : Nat) (f2pos : Nat) (t v : State), v =
    s.putCoef n sd
    { coefSet (s.coefs n sd) (coefClamp coefs) with mse := min mse 0xFFFF, valid := true, blocks := (s.coefs n sd).blocks + 1, goodBlocks := 4 }
    → t = engineDrop (laneCluster n) (rxIndex n sd) ((v.putCoef n sd
    { v.coefs n sd with rung := (v.coefs n sd).acqRung, acqRung := 7, everAcq := true, blocks := 0, goodBlocks := 0 }).wr
    (estOf n sd) esTrack) → lanePresent s n = true → acquiringNow s n sd = true → (s.coefs n sd).blocks < acqLimit s
    (laneCluster n) → 2 ≤ (s.coefs n sd).blocks → min mse 0xFFFF ≤ mseLimit s (laneCluster n) → 16 * (max (min mse
    0xFFFF) (s.coefs n sd).mse - min (min mse 0xFFFF) (s.coefs n sd).mse) ≤ min mse 0xFFFF → (s.coefs n sd).goodBlocks
    = 3 → trainingSpan (bobAcqEnd (laneCluster n) sd t) n sd = none → exec (.acqBlockEnd n sd mse coefs f1pos f2pos) s
    = .next (bobAcqEnd (laneCluster n) sd t)) ∧
  (∀ (s : State) (n : Nat) (sd : Side) (mse : Nat) (coefs : List Int) (f1pos : Nat) (f2pos : Nat) (t v : State) (k :
    Nat), v = s.putCoef n sd
    { coefSet (s.coefs n sd) (coefClamp coefs) with mse := min mse 0xFFFF, valid := true, blocks := (s.coefs n sd).blocks + 1, goodBlocks := 4 }
    → t = engineDrop (laneCluster n) (rxIndex n sd) ((v.putCoef n sd
    { v.coefs n sd with rung := (v.coefs n sd).acqRung, acqRung := 7, everAcq := true, blocks := 0, goodBlocks := 0 }).wr
    (estOf n sd) esTrack) → lanePresent s n = true → acquiringNow s n sd = true → (s.coefs n sd).blocks < acqLimit s
    (laneCluster n) → 2 ≤ (s.coefs n sd).blocks → min mse 0xFFFF ≤ mseLimit s (laneCluster n) → 16 * (max (min mse
    0xFFFF) (s.coefs n sd).mse - min (min mse 0xFFFF) (s.coefs n sd).mse) ≤ min mse 0xFFFF → (s.coefs n sd).goodBlocks
    = 3 → trainingSpan (bobAcqEnd (laneCluster n) sd t) n sd = some k → exec (.acqBlockEnd n sd mse coefs f1pos f2pos)
    s = .next (qualifyCheck k sd (bobAcqEnd (laneCluster n) sd t))) ∧
  (∀ (s : State) (n : Nat) (sd : Side) (mse : Nat) (coefs : List Int) (f1pos : Nat) (f2pos : Nat) (t u : State), t =
    engineDrop (laneCluster n) (rxIndex n sd) ((s.putCoef n sd
    { s.coefs n sd with rung := (s.coefs n sd).acqRung, acqRung := 7, everAcq := true, blocks := 0, goodBlocks := 0 }).wr
    (estOf n sd) esTrack) → u = bobAcqEnd (laneCluster n) sd ((t.bump (R.ADAPT_CNT_acq_fail (laneCluster n))).raise
    (16 * laneCluster n + 7)) → lanePresent s n = true → acquiringNow s n sd = true → acqLimit s (laneCluster n) ≤
    (s.coefs n sd).blocks → trainingSpan u n sd = none → exec (.acqBlockEnd n sd mse coefs f1pos f2pos) s = .next (u)) ∧
  (∀ (s : State) (n : Nat) (sd : Side) (t u : State), t = engineDrop (laneCluster n) (rxIndex n sd) ((s.putCoef n sd
    { s.coefs n sd with rung := (s.coefs n sd).acqRung, acqRung := 7, everAcq := true, blocks := 0, goodBlocks := 0 }).wr
    (estOf n sd) esTrack) → u = bobAcqEnd (laneCluster n) sd ((t.bump (R.ADAPT_CNT_acq_fail (laneCluster n))).raise
    (16 * laneCluster n + 7)) → lanePresent s n = true → acquiringNow s n sd = true → acqLimit s (laneCluster n) ≤
    (s.coefs n sd).blocks → trainingSpan u n sd = none → exec (.acqTimeout n sd) s = .next (u)) ∧
  (∀ (s : State) (n : Nat) (sd : Side) (t u : State) (k : Nat), t = engineDrop (laneCluster n) (rxIndex n sd)
    ((s.putCoef n sd
    { s.coefs n sd with rung := (s.coefs n sd).acqRung, acqRung := 7, everAcq := true, blocks := 0, goodBlocks := 0 }).wr
    (estOf n sd) esTrack) → u = bobAcqEnd (laneCluster n) sd ((t.bump (R.ADAPT_CNT_acq_fail (laneCluster n))).raise
    (16 * laneCluster n + 7)) → lanePresent s n = true → acquiringNow s n sd = true → acqLimit s (laneCluster n) ≤
    (s.coefs n sd).blocks → trainingSpan u n sd = some k → exec (.acqTimeout n sd) s = .next (figureFails k sd u)) ∧
  (∀ (s : State) (n : Nat) (sd : Side) (mse : Nat) (steps : List Int) (u : State), u = judgeRange n sd (min mse
    0xFFFF) s → lanePresent s n = true → (s.engine (laneCluster n)).cur = some (rxIndex n sd) → (s.engine (laneCluster
    n)).visiting = true → s.rd (estOf n sd) = esTrack → visitDue s n sd ≤ 850 * s.clock → decodes u n sd = true → exec
    (.trackVisitEnd n sd mse steps) s = .next (engineNext (laneCluster n) ((u.putCoef n sd
    { u.coefs n sd with mse := min mse 0xFFFF, valid := true, due := steps }).putEngine (laneCluster n)
    { s.engine (laneCluster n) with cur := none, visiting := false }))) ∧
  (∀ (s : State) (n : Nat) (sd : Side) (mse : Nat) (steps : List Int) (u : State), u = judgeRange n sd (min mse
    0xFFFF) s → lanePresent s n = true → (s.engine (laneCluster n)).cur = some (rxIndex n sd) → (s.engine (laneCluster
    n)).visiting = true → s.rd (estOf n sd) = esTrack → visitDue s n sd ≤ 850 * s.clock → decodes u n sd = false →
    exec (.trackVisitEnd n sd mse steps) s = .next (engineNext (laneCluster n) ((u.putCoef n sd (coefMove 1
    { u.coefs n sd with mse := min mse 0xFFFF, valid := true } steps)).putEngine (laneCluster n)
    { s.engine (laneCluster n) with cur := none, visiting := false }))) ∧
  (∀ (s : State) (n : Nat) (sd : Side), lanePresent s n = true → (s.coefs n sd).due ≠ [] → s.rd (estOf n sd) = esTrack
    → exec (.trackUpdateApply n sd) s = .next (s.putCoef n sd
    { coefMove 2 (s.coefs n sd) (s.coefs n sd).due with due := [] }))

/-- With the page answering, on a position 0-8: REACQUIRE of an end with signal detect stores the command, clears
refused and asks for an acquisition at the rate its cluster direction runs at, or at the recorded rung where the
direction is idle (the rung: DESIGN CHOICE, log 218); FREEZE of an end in TRACK puts it in FROZEN, drops it from the
engine and forgets its pending step; THAW of an end in FROZEN puts it in TRACK and lets the engine take its next end
(R119, R121). REACQUIRE of an end without signal detect, FREEZE of one that is not in TRACK and THAW of one that is
not FROZEN store the command's fields, set refused and change nothing else (that a refusal stores the fields:
DEDUCED, log 106). A command on a position above 8 sets refused and stores nothing. A write of DFE_SEL stores side
and position and latches the coefficients, MSE and flags of the selected end, or zeros for a position above 8, into
DFE_H0 to DFE_MSE (R121). -/
def Obligations.AdaptCommands : Prop :=
  (∀ (s : State) (c : Nat) (sd : Side) (pos : Nat), c < clustersOf s → pageOpen s (0x20 + c) = true → pos ≤ 8 → s.on
    (leSd (laneAt c pos) sd) = true → ckRate s c sd.dirIn ≠ 7 → exec (.adaptReacquire c sd pos) s = .next (acqRequest
    (laneAt c pos) sd (ckRate s c sd.dirIn) ((((s.wr (R.ADAPT_CMD_op c) 0).wr (R.ADAPT_CMD_side c) sd.idx).wr
    (R.ADAPT_CMD_pos c) pos).wr (R.ADAPT_CMD_refused c) 0))) ∧
  (∀ (s : State) (c : Nat) (sd : Side) (pos : Nat), c < clustersOf s → pageOpen s (0x20 + c) = true → pos ≤ 8 → s.on
    (leSd (laneAt c pos) sd) = true → ckRate s c sd.dirIn = 7 → exec (.adaptReacquire c sd pos) s = .next (acqRequest
    (laneAt c pos) sd (s.coefs (laneAt c pos) sd).rung ((((s.wr (R.ADAPT_CMD_op c) 0).wr (R.ADAPT_CMD_side c)
    sd.idx).wr (R.ADAPT_CMD_pos c) pos).wr (R.ADAPT_CMD_refused c) 0))) ∧
  (∀ (s : State) (c : Nat) (sd : Side) (pos : Nat), c < clustersOf s → pageOpen s (0x20 + c) = true → pos ≤ 8 → s.on
    (leSd (laneAt c pos) sd) = false → exec (.adaptReacquire c sd pos) s = .next ((((s.wr (R.ADAPT_CMD_op c) 0).wr
    (R.ADAPT_CMD_side c) sd.idx).wr (R.ADAPT_CMD_pos c) pos).wr (R.ADAPT_CMD_refused c) 1)) ∧
  (∀ (s : State) (c : Nat) (sd : Side) (pos : Nat), c < clustersOf s → pageOpen s (0x20 + c) = true → pos ≤ 8 → s.rd
    (estOf (laneAt c pos) sd) = esTrack → exec (.adaptFreeze c sd pos) s = .next (engineDrop c (rxIndex (laneAt c pos)
    sd) ((((((s.wr (R.ADAPT_CMD_op c) 1).wr (R.ADAPT_CMD_side c) sd.idx).wr (R.ADAPT_CMD_pos c) pos).wr
    (R.ADAPT_CMD_refused c) 0).wr (estOf (laneAt c pos) sd) esFrozen).putCoef (laneAt c pos) sd
    { s.coefs (laneAt c pos) sd with due := [] }))) ∧
  (∀ (s : State) (c : Nat) (sd : Side) (pos : Nat), c < clustersOf s → pageOpen s (0x20 + c) = true → pos ≤ 8 → s.rd
    (estOf (laneAt c pos) sd) ≠ esTrack → exec (.adaptFreeze c sd pos) s = .next ((((s.wr (R.ADAPT_CMD_op c) 1).wr
    (R.ADAPT_CMD_side c) sd.idx).wr (R.ADAPT_CMD_pos c) pos).wr (R.ADAPT_CMD_refused c) 1)) ∧
  (∀ (s : State) (c : Nat) (sd : Side) (pos : Nat), c < clustersOf s → pageOpen s (0x20 + c) = true → pos ≤ 8 → s.rd
    (estOf (laneAt c pos) sd) = esFrozen → exec (.adaptThaw c sd pos) s = .next (engineNext c (((((s.wr
    (R.ADAPT_CMD_op c) 2).wr (R.ADAPT_CMD_side c) sd.idx).wr (R.ADAPT_CMD_pos c) pos).wr (R.ADAPT_CMD_refused c) 0).wr
    (estOf (laneAt c pos) sd) esTrack))) ∧
  (∀ (s : State) (c : Nat) (sd : Side) (pos : Nat), c < clustersOf s → pageOpen s (0x20 + c) = true → pos ≤ 8 → s.rd
    (estOf (laneAt c pos) sd) ≠ esFrozen → exec (.adaptThaw c sd pos) s = .next ((((s.wr (R.ADAPT_CMD_op c) 2).wr
    (R.ADAPT_CMD_side c) sd.idx).wr (R.ADAPT_CMD_pos c) pos).wr (R.ADAPT_CMD_refused c) 1)) ∧
  (∀ (s : State) (c pos : Nat) (sd : Side), c < clustersOf s → pageOpen s (0x20 + c) = true → 8 < pos → exec
    (.adaptReacquire c sd pos) s = .next (s.wr (R.ADAPT_CMD_refused c) 1) ∧ exec (.adaptFreeze c sd pos) s = .next
    (s.wr (R.ADAPT_CMD_refused c) 1) ∧ exec (.adaptThaw c sd pos) s = .next (s.wr (R.ADAPT_CMD_refused c) 1)) ∧
  (∀ (s : State) (c : Nat) (v : Nat) (x : Coef), x = s.coefs (laneAt c (bits v 3 0)) (Side.ofIdx (bits v 8 8)) → c <
    clustersOf s → pageOpen s (0x20 + c) = true → bits v 3 0 ≤ 8 → exec (.dfeSelWrite c v) s = .next ([(R.DFE_H0_tap0
    c, unsigned 8 (x.h.getD 0 0)), (R.DFE_H0_tap1 c, unsigned 8 (x.h.getD 1 0)), (R.DFE_H0_tap2 c, unsigned 8
    (x.h.getD 2 0)), (R.DFE_H0_tap3 c, unsigned 8 (x.h.getD 3 0)), (R.DFE_H1_tap0 c, unsigned 8 (x.h.getD 4 0)),
    (R.DFE_H1_tap1 c, unsigned 8 (x.h.getD 5 0)), (R.DFE_H1_tap2 c, unsigned 8 (x.h.getD 6 0)), (R.DFE_H1_tap3 c,
    unsigned 8 (x.h.getD 7 0)), (R.DFE_H2_tap0 c, unsigned 8 (x.h.getD 8 0)), (R.DFE_H2_tap1 c, unsigned 8 (x.h.getD 9
    0)), (R.DFE_H2_tap2 c, unsigned 8 (x.h.getD 10 0)), (R.DFE_H2_tap3 c, unsigned 8 (x.h.getD 11 0)),
    (R.DFE_FLT_f1_pos c, x.f1pos), (R.DFE_FLT_f1 c, unsigned 8 x.f1), (R.DFE_FLT_f2_pos c, x.f2pos), (R.DFE_FLT_f2 c,
    unsigned 8 x.f2), (R.DFE_THR_t_high c, unsigned 8 x.tHigh), (R.DFE_THR_t_mid c, unsigned 8 x.tMid),
    (R.DFE_THR_t_low c, unsigned 8 x.tLow), (R.DFE_MSE_valid c, b2n x.valid), (R.DFE_MSE_rung c, x.rung),
    (R.DFE_MSE_at_limit c, b2n x.atLimit), (R.DFE_MSE_mse c, x.mse)].foldl (fun s p => s.wr p.1 p.2) ((s.wr
    (R.DFE_SEL_side c) (Side.ofIdx (bits v 8 8)).idx).wr (R.DFE_SEL_pos c) (bits v 3 0)))) ∧
  (∀ (s : State) (c : Nat) (v : Nat), c < clustersOf s → pageOpen s (0x20 + c) = true → 8 < bits v 3 0 → exec
    (.dfeSelWrite c v) s = .next ([(R.DFE_H0_tap0 c, 0), (R.DFE_H0_tap1 c, 0), (R.DFE_H0_tap2 c, 0), (R.DFE_H0_tap3 c,
    0), (R.DFE_H1_tap0 c, 0), (R.DFE_H1_tap1 c, 0), (R.DFE_H1_tap2 c, 0), (R.DFE_H1_tap3 c, 0), (R.DFE_H2_tap0 c, 0),
    (R.DFE_H2_tap1 c, 0), (R.DFE_H2_tap2 c, 0), (R.DFE_H2_tap3 c, 0), (R.DFE_FLT_f1_pos c, 0), (R.DFE_FLT_f1 c, 0),
    (R.DFE_FLT_f2_pos c, 0), (R.DFE_FLT_f2 c, 0), (R.DFE_THR_t_high c, 0), (R.DFE_THR_t_mid c, 0), (R.DFE_THR_t_low c,
    0), (R.DFE_MSE_valid c, 0), (R.DFE_MSE_rung c, 0), (R.DFE_MSE_at_limit c, 0), (R.DFE_MSE_mse c, 0)].foldl (fun s p
    => s.wr p.1 p.2) ((s.wr (R.DFE_SEL_side c) (Side.ofIdx (bits v 8 8)).idx).wr (R.DFE_SEL_pos c) (bits v 3 0))))

/-- Where copies of a TRN set arrive on a side with a span sequencer whose die clocks are not held, and the set is
accepted, its T0 is B5, its kind is the command's and the span is between DETECT and UP, trnTaken is the set with
the state in which its fields have been stored. CAP of a span in training with another width takes the link DOWN
with WIDTH; on a trunk side without TRUNK it fails as a trunk (R143); one with the election value received before
only notes that a CAP came, and one with a new value stores it and the group settles anew (R141). RATE on a span
that the group leads is counted bad; on one that it follows, in training and not in SWITCH, it is answered: nothing
more while an answer with that tag and rung waits to be sent; a refusal or a not ready is remembered; an accept
withdraws an accept of a higher rung not yet sent, ends a blind start of the group, and the span steps to that rung,
as do the led spans of its group (R144). RATE_ACK with the tag of the RATE that is out, on a led span in STEP:
accept enters SWITCH at that rung, anything else returns to READY (DESIGN CHOICE, log 262). READY at the span's rung
in training notes PASS and THRU; without PASS it takes a span of a group that joined another DOWN with GROUP.
ECHO_REQ is answered with its tag and the turn-round time (R140). ECHO_RSP of the request that is out gives a
sample; the eighth completes MEASURE and fewer ask for the next (R151). RETRAIN retrains the span (R154). DENSE_REQ
and DENSE_REL act on a span that is UP (R93). After each, what follows a set and the copies on spare ends; CAP
brings its own spare copies last. -/
def Obligations.TrainingSetsTakeEffect : Prop :=
  (∀ (s : State) (k : Nat) (sd : Side) (heard : List Heard) (spare : List Heard) (t : TrnSet) (s2 : State), k <
    linksOf s → trnTaken k sd heard trnCAP s = some (t, s2) → exec (.capReceive k sd heard spare) s = .next
    (spareCopies k sd spare (spareCopies k sd (heard.drop (sideWidth s k sd)) (trnAfter k sd (capAct k sd t s2))))) ∧
  (∀ (s : State) (k : Nat) (sd : Side) (heard : List Heard) (spare : List Heard) (t : TrnSet) (s2 : State), k <
    linksOf s → trnTaken k sd heard trnCAP s = some (t, s2) → trainingNow s2 k sd = true → t.width ≠ s2.rd
    (R.LNK_CFG_LIVE_width k sd.idx) → exec (.capReceive k sd heard spare) s = .next (spareCopies k sd spare
    (spareCopies k sd (heard.drop (sideWidth s k sd)) (trnAfter k sd (linkDown k ftWidth false s2))))) ∧
  (∀ (s : State) (k : Nat) (sd : Side) (heard : List Heard) (spare : List Heard) (t : TrnSet) (s2 u : State) (v :
    Nat), k < linksOf s → trnTaken k sd heard trnCAP s = some (t, s2) → (trainingNow s2 k sd = true → t.width = s2.rd
    (R.LNK_CFG_LIVE_width k sd.idx)) → (trainingNow s2 k sd && isTrunkSide s2 k sd && !bit t.flags 1) = false → u =
    (s2.modSpan k sd fun x => { x with capAcc := true }) → v = (if bit t.flags 0 then t.elect else 0) → v = inElect u
    k sd → exec (.capReceive k sd heard spare) s = .next (spareCopies k sd spare (spareCopies k sd (heard.drop
    (sideWidth s k sd)) (trnAfter k sd (u))))) ∧
  (∀ (s : State) (k : Nat) (sd : Side) (heard : List Heard) (spare : List Heard) (t : TrnSet) (s2 u : State) (v :
    Nat), k < linksOf s → trnTaken k sd heard trnCAP s = some (t, s2) → (trainingNow s2 k sd = true → t.width = s2.rd
    (R.LNK_CFG_LIVE_width k sd.idx)) → (trainingNow s2 k sd && isTrunkSide s2 k sd && !bit t.flags 1) = false → u =
    (s2.modSpan k sd fun x => { x with capAcc := true }) → v = (if bit t.flags 0 then t.elect else 0) → v ≠ inElect u
    k sd → exec (.capReceive k sd heard spare) s = .next (spareCopies k sd spare (spareCopies k sd (heard.drop
    (sideWidth s k sd)) (trnAfter k sd (electSync (rateGroup u k sd) ((u.modSpan k sd fun x =>
    { x with capFrom := u.clock }).wr (R.SPAN_NBR_in_elect k sd.idx) v)))))) ∧
  (∀ (s : State) (k : Nat) (sd : Side) (heard : List Heard) (t : TrnSet) (s2 : State), k < linksOf s → trnTaken k sd
    heard trnRATE s = some (t, s2) → leads s2 k sd = true → exec (.rateReceive k sd heard) s = .next (spareCopies k sd
    (heard.drop (sideWidth s k sd)) (trnAfter k sd (s2.bump (R.TRN_CNT_bad_kind k))))) ∧
  (∀ (s : State) (k : Nat) (sd : Side) (heard : List Heard) (t : TrnSet) (s2 : State), k < linksOf s → trnTaken k sd
    heard trnRATE s = some (t, s2) → leads s2 k sd = false → follows s2 k sd = true → trainingNow s2 k sd = true →
    spanState s2 k sd ≠ spSwitch → ackWaits s2 k sd t = true → exec (.rateReceive k sd heard) s = .next (spareCopies k
    sd (heard.drop (sideWidth s k sd)) (trnAfter k sd (s2)))) ∧
  (∀ (s : State) (k : Nat) (sd : Side) (heard : List Heard) (t : TrnSet) (s2 : State) (r : Nat) (u : State), r =
    rateResult s2 k sd t.target → u = postTrn k sd
    { mkTrn (if r = 0 then refuseUp k sd t.target s2 else s2) k sd trnRATEACK with target := t.target, tag := t.tag, value := r * 2 ^ 24 }
    (if r = 0 then refuseUp k sd t.target s2 else s2) → k < linksOf s → trnTaken k sd heard trnRATE s = some (t, s2) →
    leads s2 k sd = false → follows s2 k sd = true → trainingNow s2 k sd = true → spanState s2 k sd ≠ spSwitch →
    ackWaits s2 k sd t = false → r ≠ 0 → exec (.rateReceive k sd heard) s = .next (spareCopies k sd (heard.drop
    (sideWidth s k sd)) (trnAfter k sd (u.modSpan k sd fun x => { x with ackRep := some (t.target, t.tag, r) })))) ∧
  (∀ (s : State) (k : Nat) (sd : Side) (heard : List Heard) (t : TrnSet) (s2 : State) (r : Nat) (u v w : State), r =
    rateResult s2 k sd t.target → u = postTrn k sd
    { mkTrn (if r = 0 then refuseUp k sd t.target s2 else s2) k sd trnRATEACK with target := t.target, tag := t.tag, value := r * 2 ^ 24 }
    (if r = 0 then refuseUp k sd t.target s2 else s2) → v = (if (rateGroup u k sd).any fun p => u.on
    (R.SPAN_STAT_blind p.1 p.2.idx) then blindOver (rateGroup u k sd) u else u) → w = (setSpan k sd spStep (v.modSpan
    k sd fun x => { x with toRung := t.target, rateTarget := none, ackRep := none })) → k < linksOf s → trnTaken k sd
    heard trnRATE s = some (t, s2) → leads s2 k sd = false → follows s2 k sd = true → trainingNow s2 k sd = true →
    spanState s2 k sd ≠ spSwitch → ackWaits s2 k sd t = false → r = 0 → exec (.rateReceive k sd heard) s = .next
    (spareCopies k sd (heard.drop (sideWidth s k sd)) (trnAfter k sd (((rateGroup w k sd).filter fun p => leads w p.1
    p.2 && trainingNow w p.1 p.2).foldl (fun s p => sendRate t.target p.1 p.2 s) w)))) ∧
  (∀ (s : State) (k : Nat) (sd : Side) (heard : List Heard) (t : TrnSet) (s2 : State) (r : Nat), k < linksOf s →
    trnTaken k sd heard trnRATEACK s = some (t, s2) → (s2.span k sd).rateTarget = some r → spanState s2 k sd = spStep
    → leads s2 k sd = true → t.tag = (s2.span k sd).rateTag → t.value / 2 ^ 24 % 256 = 0 → exec (.rateAckReceive k sd
    heard) s = .next (spareCopies k sd (heard.drop (sideWidth s k sd)) (trnAfter k sd (sideEie k sd (switchTo k sd r
    (dropRates k sd s2)))))) ∧
  (∀ (s : State) (k : Nat) (sd : Side) (heard : List Heard) (t : TrnSet) (s2 : State) (r : Nat), k < linksOf s →
    trnTaken k sd heard trnRATEACK s = some (t, s2) → (s2.span k sd).rateTarget = some r → spanState s2 k sd = spStep
    → leads s2 k sd = true → t.tag = (s2.span k sd).rateTag → t.value / 2 ^ 24 % 256 ≠ 0 → exec (.rateAckReceive k sd
    heard) s = .next (spareCopies k sd (heard.drop (sideWidth s k sd)) (trnAfter k sd (setSpan k sd spReady
    ((dropRates k sd s2).modSpan k sd fun x => { x with rateTarget := none }))))) ∧
  (∀ (s : State) (k : Nat) (sd : Side) (heard : List Heard) (t : TrnSet) (s2 : State), k < linksOf s → trnTaken k sd
    heard trnREADY s = some (t, s2) → trainingNow s2 k sd = true → t.cur = spanRung s2 k sd → bit t.flags 4 = true →
    exec (.readyReceive k sd heard) s = .next (spareCopies k sd (heard.drop (sideWidth s k sd)) (trnAfter k sd
    (s2.modSpan k sd fun x => { x with passRcvd := true, thruRcvd := bit t.flags 3 })))) ∧
  (∀ (s : State) (k : Nat) (sd : Side) (heard : List Heard) (t : TrnSet) (s2 u : State), k < linksOf s → trnTaken k sd
    heard trnREADY s = some (t, s2) → u = (s2.modSpan k sd fun x =>
    { x with passRcvd := false, thruRcvd := bit t.flags 3 }) → trainingNow s2 k sd = true → t.cur = spanRung s2 k sd →
    bit t.flags 4 = false → groupJoined u k sd = true → exec (.readyReceive k sd heard) s = .next (spareCopies k sd
    (heard.drop (sideWidth s k sd)) (trnAfter k sd (linkDown k ftGroup false u)))) ∧
  (∀ (s : State) (k : Nat) (sd : Side) (heard : List Heard) (t : TrnSet) (s2 u : State), k < linksOf s → trnTaken k sd
    heard trnREADY s = some (t, s2) → u = (s2.modSpan k sd fun x =>
    { x with passRcvd := false, thruRcvd := bit t.flags 3 }) → trainingNow s2 k sd = true → t.cur = spanRung s2 k sd →
    bit t.flags 4 = false → groupJoined u k sd = false → u.on (R.SPAN_STAT_blind k sd.idx) = false → exec
    (.readyReceive k sd heard) s = .next (spareCopies k sd (heard.drop (sideWidth s k sd)) (trnAfter k sd (u)))) ∧
  (∀ (s : State) (k : Nat) (sd : Side) (heard : List Heard) (turn : Nat) (t : TrnSet) (s2 : State), k < linksOf s →
    trnTaken k sd heard trnECHOREQ s = some (t, s2) → (spanUp s2 k sd || (trainingNow s2 k sd && spanState s2 k sd ≠
    spSwitch)) = true → exec (.echoReqReceive k sd heard turn) s = .next (spareCopies k sd (heard.drop (sideWidth s k
    sd)) (trnAfter k sd (postTrn k sd { mkTrn s2 k sd trnECHORSP with tag := t.tag, value := turn % 2 ^ 32 } s2)))) ∧
  (∀ (s : State) (k : Nat) (sd : Side) (heard : List Heard) (sample : Nat) (t : TrnSet) (s2 : State) (u : State), k <
    linksOf s → trnTaken k sd heard trnECHORSP s = some (t, s2) → u = s2.putSpan k sd
    { s2.span k sd with echoOut := false, samples := (s2.span k sd).samples ++ [sample - t.value] } → spanState s2 k
    sd = spMeasure → (s2.span k sd).echoOut = true → t.tag = (s2.span k sd).echoTag → (s2.span k sd).samples.length <
    7 → exec (.echoRspReceive k sd heard sample) s = .next (spareCopies k sd (heard.drop (sideWidth s k sd)) (trnAfter
    k sd (echoNext k sd u)))) ∧
  (∀ (s : State) (k : Nat) (sd : Side) (heard : List Heard) (sample : Nat) (t : TrnSet) (s2 : State) (u : State), k <
    linksOf s → trnTaken k sd heard trnECHORSP s = some (t, s2) → u = s2.putSpan k sd
    { s2.span k sd with echoOut := false, samples := (s2.span k sd).samples ++ [sample - t.value] } → spanState s2 k
    sd = spMeasure → (s2.span k sd).echoOut = true → t.tag = (s2.span k sd).echoTag → 7 ≤ (s2.span k
    sd).samples.length → exec (.echoRspReceive k sd heard sample) s = .next (spareCopies k sd (heard.drop (sideWidth s
    k sd)) (trnAfter k sd (rttDone k sd u)))) ∧
  (∀ (s : State) (k : Nat) (sd : Side) (heard : List Heard) (t : TrnSet) (s2 : State), k < linksOf s → trnTaken k sd
    heard trnRETRAIN s = some (t, s2) → exec (.retrainReceive k sd heard) s = .next (spareCopies k sd (heard.drop
    (sideWidth s k sd)) (trnAfter k sd (retrain k sd none true s2)))) ∧
  (∀ (s : State) (k : Nat) (sd : Side) (heard : List Heard) (t : TrnSet) (s2 : State), k < linksOf s → trnTaken k sd
    heard trnDENSEREQ s = some (t, s2) → spanUp s2 k sd = true → exec (.denseReqReceive k sd heard) s = .next
    (spareCopies k sd (heard.drop (sideWidth s k sd)) (trnAfter k sd (setDense k sd true s2)))) ∧
  (∀ (s : State) (k : Nat) (sd : Side) (heard : List Heard) (t : TrnSet) (s2 : State), k < linksOf s → trnTaken k sd
    heard trnDENSEREL s = some (t, s2) → spanUp s2 k sd = true → exec (.denseRelReceive k sd heard) s = .next
    (spareCopies k sd (heard.drop (sideWidth s k sd)) (trnAfter k sd (setDense k sd false s2))))

/-- On a link of the part whose side is not held by a die without clock, each once its time has passed (the time since
release of reset, but fabric time for the DOWN hold, GO and T_up; before its time a command has no effect: DEDUCED,
log 244). cap_settle without a change of the values received in the group: with an election value equal to one
received, a collision counts and the group draws anew, or at the eighth goes DOWN with ELECTION; else the count of
collisions clears (R141). switch_idle after the EIE in SWITCH trains at the rung the span switches to (R145). A
dwell of 2^(14 + dwell) symbols, dwell at most 6, in which every lane stays qualified with at most q_bad bad symbols
takes the span to READY, judged, and posts READY with PASS; any other fails the figure, as does rung_max in ACQUIRE
or QUALIFY; a shorter dwell changes nothing (R146). A figure that fails in a group joined to another's rung takes
the link DOWN with GROUP, one already judged failed changes nothing, and otherwise figureFails says what R146 asks.
train_max takes the link DOWN, with QUALITY after three failures at L0 and else TIMEOUT, and retrain_max with
TIMEOUT (R153). A RATE pending for 2 µs is sent again, and after the 16th the link goes DOWN with TIMEOUT (R144,
R153). An echo wait of 10 µs asks for the next sample, and after 32 requests goes DOWN with ECHO (R151). The 1 ms
hold of a span DOWN not by command ends in DETECT where it may train (R153). GO lets the spans that wait in DETECT
go on (R148), and T_up with the link armed takes it UP (R152). -/
def Obligations.TrainingTimers : Prop :=
  (∀ (s : State) (k : Nat) (sd : Side) (g : List (Nat × Side)) (m : Nat) (u : State), g = ((rateGroup s k sd).filter
    fun p => spanTraining s p.1 p.2) → k < linksOf s → spanTraining s k sd = true → hasSequencer s k sd = true →
    sideHeld s k sd = false → capSettled s k sd = true → (g.any fun p => s.rd (R.SPAN_NBR_adv_elect p.1 p.2.idx) =
    inElect s p.1 p.2) = true → m = (s.span k sd).collisions + 1 → u = (g.foldl (fun s p => s.modSpan p.1 p.2 fun x =>
    { x with collisions := m, capFrom := s.clock }) (s.bump (R.TRN_CNT_collisions k))) → (s.span k sd).collisions < 7
    → exec (.capSettleExpiry k sd) s = .next (electDraw (rateGroup u k sd) u)) ∧
  (∀ (s : State) (k : Nat) (sd : Side) (g : List (Nat × Side)) (m : Nat) (u : State), g = ((rateGroup s k sd).filter
    fun p => spanTraining s p.1 p.2) → k < linksOf s → spanTraining s k sd = true → hasSequencer s k sd = true →
    sideHeld s k sd = false → capSettled s k sd = true → (g.any fun p => s.rd (R.SPAN_NBR_adv_elect p.1 p.2.idx) =
    inElect s p.1 p.2) = true → m = (s.span k sd).collisions + 1 → u = (g.foldl (fun s p => s.modSpan p.1 p.2 fun x =>
    { x with collisions := m, capFrom := s.clock }) (s.bump (R.TRN_CNT_collisions k))) → 7 ≤ (s.span k sd).collisions
    → exec (.capSettleExpiry k sd) s = .next ((rateGroup u k sd).foldl (fun s p => linkDown p.1 ftElection false s)
    u)) ∧
  (∀ (s : State) (k : Nat) (sd : Side) (g : List (Nat × Side)), g = ((rateGroup s k sd).filter fun p => spanTraining s
    p.1 p.2) → k < linksOf s → spanTraining s k sd = true → hasSequencer s k sd = true → sideHeld s k sd = false →
    capSettled s k sd = true → (g.any fun p => s.rd (R.SPAN_NBR_adv_elect p.1 p.2.idx) = inElect s p.1 p.2) = false →
    exec (.capSettleExpiry k sd) s = .next (g.foldl (fun s p => s.modSpan p.1 p.2 fun x =>
    { x with collisions := 0, capFrom := s.clock }) (s))) ∧
  (∀ (s : State) (k : Nat) (sd : Side), k < linksOf s → spanState s k sd = spSwitch → sideHeld s k sd = false →
    sideSending s k sd = false → (s.span k sd).idleFrom + 1000 * switchIdle s k ≤ s.clock → exec (.switchIdleEnd k sd)
    s = .next (trainAt k sd (s.span k sd).toRung s)) ∧
  (∀ (s : State) (k : Nat) (sd : Side) (symbols : Nat) (u : State), k < linksOf s → spanState s k sd = spQualify →
    sideHeld s k sd = false → dwellSymbols s k ≤ symbols → dwellPasses s k sd = true → u = ((readyEnter k sd
    s).modSpan k sd fun x => { x with judged := true, passes := true }) → exec (.dwellEnd k sd symbols) s = .next
    (postTrn k sd (mkTrn u k sd trnREADY) u)) ∧
  (∀ (s : State) (k : Nat) (sd : Side) (symbols : Nat), k < linksOf s → symbols < dwellSymbols s k → exec (.dwellEnd k
    sd symbols) s = .next (s)) ∧
  (∀ (s : State) (k : Nat) (sd : Side) (symbols : Nat), k < linksOf s → spanState s k sd = spQualify → sideHeld s k sd
    = false → dwellSymbols s k ≤ symbols → dwellPasses s k sd = false → exec (.dwellEnd k sd symbols) s = .next
    (figureFails k sd s)) ∧
  (∀ (s : State) (k : Nat) (sd : Side), k < linksOf s → (spanState s k sd = spAcquire ∨ spanState s k sd = spQualify)
    → sideHeld s k sd = false → (s.span k sd).acqFrom + rungMaxNs s k ≤ s.clock → exec (.rungMaxExpiry k sd) s = .next
    (figureFails k sd s)) ∧
  (∀ (s : State) (k : Nat) (sd : Side), k < linksOf s → (spanState s k sd = spAcquire ∨ spanState s k sd = spQualify)
    → sideHeld s k sd = false → (s.span k sd).acqFrom + rungMaxNs s k ≤ s.clock → ((s.span k sd).judged && !(s.span k
    sd).passes) = false → groupJoined s k sd = true → exec (.rungMaxExpiry k sd) s = .next (linkDown k ftGroup false
    s)) ∧
  (∀ (s : State) (k : Nat) (sd : Side), k < linksOf s → spanTraining s k sd = true → spanRetraining s k sd = false →
    sideHeld s k sd = false → (s.span k sd).trainFrom + trainMaxNs s k ≤ s.clock → exec (.trainMaxExpiry k sd) s =
    .next (linkDown k (if 3 ≤ (s.span k sd).l0Fails then ftQuality else ftTimeout) false s)) ∧
  (∀ (s : State) (k : Nat) (sd : Side), k < linksOf s → spanTraining s k sd = true → spanRetraining s k sd = true →
    sideHeld s k sd = false → (s.span k sd).trainFrom + retrainMaxNs s k ≤ s.clock → exec (.retrainMaxExpiry k sd) s =
    .next (linkDown k ftTimeout false s)) ∧
  (∀ (s : State) (k : Nat) (sd : Side) (r : Nat), k < linksOf s → (s.span k sd).rateTarget = some r → spanState s k sd
    = spStep → sideHeld s k sd = false → (s.span k sd).rateAt + 2000 ≤ s.clock → (s.span k sd).rateSends < 16 → exec
    (.rateResend k sd) s = .next (postTrn k sd { mkTrn s k sd trnRATE with target := r, tag := (s.span k sd).rateTag }
    (dropRates k sd (s.putSpan k sd
    { s.span k sd with rateSends := (s.span k sd).rateSends + 1, rateAt := s.clock })))) ∧
  (∀ (s : State) (k : Nat) (sd : Side) (r : Nat), k < linksOf s → (s.span k sd).rateTarget = some r → spanState s k sd
    = spStep → sideHeld s k sd = false → (s.span k sd).rateAt + 2000 ≤ s.clock → 16 ≤ (s.span k sd).rateSends → exec
    (.rateResend k sd) s = .next (linkDown k ftTimeout false s)) ∧
  (∀ (s : State) (k : Nat) (sd : Side) (u : State), k < linksOf s → spanState s k sd = spMeasure → sideHeld s k sd =
    false → (s.span k sd).echoOut = true → (s.span k sd).echoAt + 10000 ≤ s.clock → (s.span k sd).requests < 32 → u =
    s.putSpan k sd
    { s.span k sd with echoTag := ((s.span k sd).echoTag + 1) % 256, requests := (s.span k sd).requests + 1, echoOut := true, echoAt := s.clock }
    → exec (.echoWaitExpiry k sd) s = .next (postTrn k sd
    { mkTrn u k sd trnECHOREQ with tag := ((s.span k sd).echoTag + 1) % 256 } u)) ∧
  (∀ (s : State) (k : Nat) (sd : Side), k < linksOf s → spanState s k sd = spMeasure → sideHeld s k sd = false →
    (s.span k sd).echoOut = true → (s.span k sd).echoAt + 10000 ≤ s.clock → 32 ≤ (s.span k sd).requests → exec
    (.echoWaitExpiry k sd) s = .next (linkDown k ftEcho false s)) ∧
  (∀ (s : State) (k : Nat) (sd : Side), k < linksOf s → sideHeld s k sd = false → spanState s k sd = spDown → (s.span
    k sd).byCmd = false → (s.span k sd).downAt + 1000000 ≤ s.fab → mayTrain s k sd = true → exec (.downHoldEnd k sd) s
    = .next (detectEnter k sd true (blindSystem s) s)) ∧
  (∀ (s : State), goReached s = true → exec .goTime s = .next ((activeSpans s).foldl (fun s p => detectCheck p.1 p.2
    s) s)) ∧
  (∀ (s : State) (k : Nat) (t : Nat), k < linksOf s → (s.link k).tUp = some t → t ≤ s.fab → armed s k = true →
    (usedSides s k).any (sideHeld s k) = false → exec (.tUpBegin k) s = .next (linkUp k s))

/-- With the page answering and the link configured: RETRAIN of a steady span (UP, of no TRANSPARENT link, with no
retrain of the link in progress) retrains it at its rung; STEP of a steady span to another rung that both ends of
its rate group allow, in a cluster direction that no TRANSPARENT link runs in, retrains it at that rung; DOWN takes
the link DOWN with fault HOST, by command; RESTART of a link with a span DOWN starts the training of each of its
spans that is DOWN and may train; each stores op, side and rung and clears refused. RETRAIN of a span that is not
steady, STEP of one that is not steady, to its own rung, to one above the target of its group or beside a
TRANSPARENT link, RESTART of a link with no span DOWN, and any of the four on a link that is not configured set
refused and, but for storing op, side and rung, change nothing (R160; that a refusal stores the fields: DEDUCED, log
106; the TRANSPARENT link: DEDUCED, log 225). -/
def Obligations.TrainCommands : Prop :=
  (∀ (s : State) (k : Nat) (sd : Side), k < linksOf s → pageOpen s (0x40 + k) = true → notSteady s k sd = false →
    modeOf s k ≠ mNone → exec (.trnRetrain k sd) s = .next (retrain k sd none false ((((s.wr (R.TRN_CMD_op k) 0).wr
    (R.TRN_CMD_side k) sd.idx).wr (R.TRN_CMD_rung k) (s.rd (R.TRN_CMD_rung k))).wr (R.TRN_CMD_refused k) 0))) ∧
  (∀ (s : State) (k : Nat) (sd : Side), k < linksOf s → pageOpen s (0x40 + k) = true → (notSteady s k sd = true ∨
    modeOf s k = mNone) → exec (.trnRetrain k sd) s = .next ((((s.wr (R.TRN_CMD_op k) 0).wr (R.TRN_CMD_side k)
    sd.idx).wr (R.TRN_CMD_rung k) (s.rd (R.TRN_CMD_rung k))).wr (R.TRN_CMD_refused k) 1)) ∧
  (∀ (s : State) (k : Nat) (sd : Side) (rung : Nat), k < linksOf s → pageOpen s (0x40 + k) = true → notSteady s k sd =
    false → modeOf s k ≠ mNone → rung ≠ spanRung s k sd → rung ≤ targetRung s (rateGroup s k sd) → transRung s k sd =
    none → exec (.trnStep k sd rung) s = .next (retrain k sd (some rung) false ((((s.wr (R.TRN_CMD_op k) 1).wr
    (R.TRN_CMD_side k) sd.idx).wr (R.TRN_CMD_rung k) rung).wr (R.TRN_CMD_refused k) 0))) ∧
  (∀ (s : State) (k : Nat) (sd : Side) (rung : Nat), k < linksOf s → pageOpen s (0x40 + k) = true → (notSteady s k sd
    = true ∨ rung = spanRung s k sd ∨ targetRung s (rateGroup s k sd) < rung ∨ (transRung s k sd).isSome = true ∨
    modeOf s k = mNone) → exec (.trnStep k sd rung) s = .next ((((s.wr (R.TRN_CMD_op k) 1).wr (R.TRN_CMD_side k)
    sd.idx).wr (R.TRN_CMD_rung k) rung).wr (R.TRN_CMD_refused k) 1)) ∧
  (∀ (s : State) (k : Nat), k < linksOf s → pageOpen s (0x40 + k) = true → modeOf s k ≠ mNone → exec (.trnDown k) s =
    .next (linkDown k ftHost true ((((s.wr (R.TRN_CMD_op k) 2).wr (R.TRN_CMD_side k) (Side.ofIdx (s.rd (R.TRN_CMD_side
    k))).idx).wr (R.TRN_CMD_rung k) (s.rd (R.TRN_CMD_rung k))).wr (R.TRN_CMD_refused k) 0))) ∧
  (∀ (s : State) (k : Nat), k < linksOf s → pageOpen s (0x40 + k) = true → modeOf s k = mNone → exec (.trnDown k) s =
    .next ((((s.wr (R.TRN_CMD_op k) 2).wr (R.TRN_CMD_side k) (Side.ofIdx (s.rd (R.TRN_CMD_side k))).idx).wr
    (R.TRN_CMD_rung k) (s.rd (R.TRN_CMD_rung k))).wr (R.TRN_CMD_refused k) 1)) ∧
  (∀ (s : State) (k : Nat) (sd : Side), k < linksOf s → pageOpen s (0x40 + k) = true → modeOf s k ≠ mNone → (usedSides
    s k).all (fun e => spanState s k e ≠ spDown) = false → exec (.trnRestart k sd) s = .next ((usedSides (((((s.wr
    (R.TRN_CMD_op k) 3).wr (R.TRN_CMD_side k) sd.idx).wr (R.TRN_CMD_rung k) (s.rd (R.TRN_CMD_rung k))).wr
    (R.TRN_CMD_refused k) 0)) k).foldl (fun s e => if spanState s k e = spDown && mayTrain s k e then detectEnter k e
    true (blindSystem s) s else s) (((((s.wr (R.TRN_CMD_op k) 3).wr (R.TRN_CMD_side k) sd.idx).wr (R.TRN_CMD_rung k)
    (s.rd (R.TRN_CMD_rung k))).wr (R.TRN_CMD_refused k) 0)))) ∧
  (∀ (s : State) (k : Nat) (sd : Side), k < linksOf s → pageOpen s (0x40 + k) = true → ((usedSides s k).all (fun e =>
    spanState s k e ≠ spDown) = true ∨ modeOf s k = mNone) → exec (.trnRestart k sd) s = .next ((((s.wr (R.TRN_CMD_op
    k) 3).wr (R.TRN_CMD_side k) sd.idx).wr (R.TRN_CMD_rung k) (s.rd (R.TRN_CMD_rung k))).wr (R.TRN_CMD_refused k) 1))

/-- On a live side (of a link not TRANSPARENT, its die clocks not held) every lane decodes and counts bad symbols (R50,
R61). A flit is only that unless the span takes flits and a LOCKED lane carries SOF (R167); else its class is
counted, and bad where the map is mixed. On a trunk side: BADIN has no effect, BADSYM and BADPAR post a NAK unless
one has just gone, as does one ahead of the expected; one behind is counted and acknowledged; the expected one is
taken. On an endpoint side: a good one of type 0xF is counted and dropped (R165); any other counts a link word other
than 0, and enters the BUNDLE entry, the TRUNK entry over the seam, or the transit FIFO over the seam, dropped and
counted there while the leaving span retrains. A control flit good and of type 0xF is taken as that flit is; any
other command of it only hears. An accepted ACK set, with the span UP: on a trunk side of a BUNDLE a reject is
counted; on an endpoint side the flow of the logical link takes its XOFF map and darning observes it (R191); on a
trunk side of a TRUNK link the flow and XOFF_TIN take the map, on its endpoint side darning also observes it and
XOFF_EP shows it; in other modes darning observes it and it is posted on the other side, over the seam where it
crosses (R174). An accepted EIE set notes its time (R71). An accepted SKP set of 1 to 7 K28.0 adjusts the elastic
buffer (R91) and the density seen, and is to be forwarded where the link's two sides use the same lanes and both
spans are UP (R90). -/
def Obligations.SetsAndFlitsArrive : Prop :=
  (∀ (s : State) (k : Nat) (sd : Side) (slices : List (List Nat)) (cut : Bool) (fail1 : Bool) (fail2 : Bool) (v :
    State) (L : List Slice) (w : Nat) (fl : Flit) (u : State), v = slicesHeard k sd slices s → L = receivedSlices s k
    sd slices → w = sideWidth v k sd → fl =
    ({ bytes := arrivedBytes w L, cls := if mapMixed v k sd then 1 else arrivalClass w L } : Flit) → u = countClass k
    sd.dirIn.idx (arrivalClass w L) v → k < linksOf s → sideLive s k sd = true → takesFlits s k sd = true → flitStarts
    L = true → isTrunkSide u k sd = true → fl.cls = 2 → exec (.flitReceive k sd slices cut fail1 fail2) s = .next (u)) ∧
  (∀ (s : State) (k : Nat) (sd : Side) (slices : List (List Nat)) (cut : Bool) (fail1 : Bool) (fail2 : Bool) (v :
    State) (L : List Slice) (w : Nat) (fl : Flit) (u : State), v = slicesHeard k sd slices s → L = receivedSlices s k
    sd slices → w = sideWidth v k sd → fl =
    ({ bytes := arrivedBytes w L, cls := if mapMixed v k sd then 1 else arrivalClass w L } : Flit) → u = countClass k
    sd.dirIn.idx (arrivalClass w L) v → k < linksOf s → sideLive s k sd = true → takesFlits s k sd = true → flitStarts
    L = true → isTrunkSide u k sd = true → fl.cls ≠ 0 → fl.cls ≠ 2 → exec (.flitReceive k sd slices cut fail1 fail2) s
    = .next (postNak (trunkKey u k sd) u)) ∧
  (∀ (s : State) (k : Nat) (sd : Side) (slices : List (List Nat)) (cut : Bool) (fail1 : Bool) (fail2 : Bool) (v :
    State) (L : List Slice) (w : Nat) (fl : Flit) (u : State), v = slicesHeard k sd slices s → L = receivedSlices s k
    sd slices → w = sideWidth v k sd → fl =
    ({ bytes := arrivedBytes w L, cls := if mapMixed v k sd then 1 else arrivalClass w L } : Flit) → u = countClass k
    sd.dirIn.idx (arrivalClass w L) v → k < linksOf s → sideLive s k sd = true → takesFlits s k sd = true → flitStarts
    L = true → isTrunkSide u k sd = true → fl.cls = 0 → wordSpan (flitWord fl.bytes) ≠ (u.trunk (trunkKey u k
    sd)).expect → isAhead16 (wordSpan (flitWord fl.bytes)) (u.trunk (trunkKey u k sd)).expect = true → exec
    (.flitReceive k sd slices cut fail1 fail2) s = .next (postNak (trunkKey u k sd) u)) ∧
  (∀ (s : State) (k : Nat) (sd : Side) (slices : List (List Nat)) (cut : Bool) (fail1 : Bool) (fail2 : Bool) (v :
    State) (L : List Slice) (w : Nat) (fl : Flit) (u : State), v = slicesHeard k sd slices s → L = receivedSlices s k
    sd slices → w = sideWidth v k sd → fl =
    ({ bytes := arrivedBytes w L, cls := if mapMixed v k sd then 1 else arrivalClass w L } : Flit) → u = countClass k
    sd.dirIn.idx (arrivalClass w L) v → k < linksOf s → sideLive s k sd = true → takesFlits s k sd = true → flitStarts
    L = true → isTrunkSide u k sd = true → fl.cls = 0 → wordSpan (flitWord fl.bytes) ≠ (u.trunk (trunkKey u k
    sd)).expect → isAhead16 (wordSpan (flitWord fl.bytes)) (u.trunk (trunkKey u k sd)).expect = false → exec
    (.flitReceive k sd slices cut fail1 fail2) s = .next (postDrnAck (trunkKey u k sd) (countTrunk (trunkKey u k sd)
    R.DUP_span R.CAL_DUP_span u))) ∧
  (∀ (s : State) (k : Nat) (sd : Side) (slices : List (List Nat)) (cut : Bool) (fail1 : Bool) (fail2 : Bool) (v :
    State) (L : List Slice) (w : Nat) (fl : Flit) (u : State), v = slicesHeard k sd slices s → L = receivedSlices s k
    sd slices → w = sideWidth v k sd → fl =
    ({ bytes := arrivedBytes w L, cls := if mapMixed v k sd then 1 else arrivalClass w L } : Flit) → u = countClass k
    sd.dirIn.idx (arrivalClass w L) v → k < linksOf s → sideLive s k sd = true → takesFlits s k sd = true → flitStarts
    L = true → isTrunkSide u k sd = true → fl.cls = 0 → wordSpan (flitWord fl.bytes) = (u.trunk (trunkKey u k
    sd)).expect → exec (.flitReceive k sd slices cut fail1 fail2) s = .next (inSequence (trunkKey u k sd) k sd fl
    fail1 fail2 u)) ∧
  (∀ (s : State) (k : Nat) (sd : Side) (slices : List (List Nat)) (cut : Bool) (fail1 : Bool) (fail2 : Bool) (v :
    State) (L : List Slice) (w : Nat) (fl : Flit) (u : State), v = slicesHeard k sd slices s → L = receivedSlices s k
    sd slices → w = sideWidth v k sd → fl =
    ({ bytes := arrivedBytes w L, cls := if mapMixed v k sd then 1 else arrivalClass w L } : Flit) → u = countClass k
    sd.dirIn.idx (arrivalClass w L) v → k < linksOf s → sideLive s k sd = true → takesFlits s k sd = true → flitStarts
    L = true → isTrunkSide u k sd = false → fl.cls = 0 → flitType fl.bytes = 15 → exec (.flitReceive k sd slices cut
    fail1 fail2) s = .next (u.count (R.TYPEF k sd.dirIn.idx))) ∧
  (∀ (s : State) (k : Nat) (sd : Side) (slices : List (List Nat)) (cut : Bool) (fail1 : Bool) (fail2 : Bool) (v :
    State) (L : List Slice) (w : Nat) (fl : Flit) (u : State), v = slicesHeard k sd slices s → L = receivedSlices s k
    sd slices → w = sideWidth v k sd → fl =
    ({ bytes := arrivedBytes w L, cls := if mapMixed v k sd then 1 else arrivalClass w L } : Flit) → u = countClass k
    sd.dirIn.idx (arrivalClass w L) v → k < linksOf s → sideLive s k sd = true → takesFlits s k sd = true → flitStarts
    L = true → isTrunkSide u k sd = false → (fl.cls ≠ 0 ∨ flitType fl.bytes ≠ 15) → modeOf (if fl.cls = 0 && flitWord
    fl.bytes ≠ 0 then u.count (R.LLW_NZ k sd.dirIn.idx) else u) k = mBundle → exec (.flitReceive k sd slices cut fail1
    fail2) s = .next (bundleEntry k sd fl cut fail1 fail2 (if fl.cls = 0 && flitWord fl.bytes ≠ 0 then u.count
    (R.LLW_NZ k sd.dirIn.idx) else u))) ∧
  (∀ (s : State) (k : Nat) (sd : Side) (slices : List (List Nat)) (cut : Bool) (fail1 : Bool) (fail2 : Bool) (v :
    State) (L : List Slice) (w : Nat) (fl : Flit) (u : State), v = slicesHeard k sd slices s → L = receivedSlices s k
    sd slices → w = sideWidth v k sd → fl =
    ({ bytes := arrivedBytes w L, cls := if mapMixed v k sd then 1 else arrivalClass w L } : Flit) → u = countClass k
    sd.dirIn.idx (arrivalClass w L) v → k < linksOf s → sideLive s k sd = true → takesFlits s k sd = true → flitStarts
    L = true → isTrunkSide u k sd = false → (fl.cls ≠ 0 ∨ flitType fl.bytes ≠ 15) → isTrunkMode (modeOf (if fl.cls = 0
    && flitWord fl.bytes ≠ 0 then u.count (R.LLW_NZ k sd.dirIn.idx) else u) k) = true → exec (.flitReceive k sd slices
    cut fail1 fail2) s = .next (trunkEntry k sd (crossSeam k sd (spanKey k sd.other) fail1 fail2 fl (if fl.cls = 0 &&
    flitWord fl.bytes ≠ 0 then u.count (R.LLW_NZ k sd.dirIn.idx) else u)).1 cut (crossSeam k sd (spanKey k sd.other)
    fail1 fail2 fl (if fl.cls = 0 && flitWord fl.bytes ≠ 0 then u.count (R.LLW_NZ k sd.dirIn.idx) else u)).2)) ∧
  (∀ (s : State) (k : Nat) (sd : Side) (slices : List (List Nat)) (cut : Bool) (fail1 : Bool) (fail2 : Bool) (v :
    State) (L : List Slice) (w : Nat) (fl : Flit) (u : State) (r : Flit × State), v = slicesHeard k sd slices s → L =
    receivedSlices s k sd slices → w = sideWidth v k sd → fl =
    ({ bytes := arrivedBytes w L, cls := if mapMixed v k sd then 1 else arrivalClass w L } : Flit) → u = countClass k
    sd.dirIn.idx (arrivalClass w L) v → r = crossSeam k sd (spanKey k sd.other) fail1 fail2 fl (if fl.cls = 0 &&
    flitWord fl.bytes ≠ 0 then u.count (R.LLW_NZ k sd.dirIn.idx) else u) → k < linksOf s → sideLive s k sd = true →
    takesFlits s k sd = true → flitStarts L = true → isTrunkSide u k sd = false → (fl.cls ≠ 0 ∨ flitType fl.bytes ≠
    15) → modeOf (if fl.cls = 0 && flitWord fl.bytes ≠ 0 then u.count (R.LLW_NZ k sd.dirIn.idx) else u) k ≠ mBundle →
    isTrunkMode (modeOf (if fl.cls = 0 && flitWord fl.bytes ≠ 0 then u.count (R.LLW_NZ k sd.dirIn.idx) else u) k) =
    false → exec (.flitReceive k sd slices cut fail1 fail2) s = .next (if spanRetraining r.2 k sd.other then r.2.bump
    (R.TRN_DROP_drop k) else fifoArrive (linkFlow k sd.dirIn) r.1 r.2)) ∧
  (∀ (s : State) (k : Nat) (sd : Side) (slices : List (List Nat)) (cut : Bool) (fail1 : Bool) (fail2 : Bool), k <
    linksOf s → sideLive s k sd = true → (takesFlits s k sd && flitStarts (receivedSlices s k sd slices)) = false →
    exec (.flitReceive k sd slices cut fail1 fail2) s = .next (slicesHeard k sd slices s)) ∧
  (∀ (s : State) (k : Nat) (sd : Side) (slices : List (List Nat)), k < linksOf s → sideLive s k sd = true → takesFlits
    s k sd = true → flitStarts (receivedSlices s k sd slices) = true → arrivalClass (sideWidth (slicesHeard k sd
    slices s) k sd) (receivedSlices s k sd slices) = 0 → flitType (arrivedBytes (sideWidth (slicesHeard k sd slices s)
    k sd) (receivedSlices s k sd slices)) = 15 → exec (.controlFlitReceive k sd slices) s = .next (flitArrive k sd
    (receivedSlices s k sd slices) false false false (slicesHeard k sd slices s))) ∧
  (∀ (s : State) (k : Nat) (sd : Side) (slices : List (List Nat)), k < linksOf s → sideLive s k sd = true → takesFlits
    s k sd = true → flitStarts (receivedSlices s k sd slices) = true → arrivalClass (sideWidth (slicesHeard k sd
    slices s) k sd) (receivedSlices s k sd slices) = 0 → flitType (arrivedBytes (sideWidth (slicesHeard k sd slices s)
    k sd) (receivedSlices s k sd slices)) = 15 → exec (.controlFlitReceive k sd slices) s = exec (.flitReceive k sd
    slices false false false) s) ∧
  (∀ (s : State) (k : Nat) (sd : Side) (slices : List (List Nat)), k < linksOf s → sideLive s k sd = true →
    (takesFlits s k sd && flitStarts (receivedSlices s k sd slices)) = false → exec (.controlFlitReceive k sd slices)
    s = .next (slicesHeard k sd slices s)) ∧
  (∀ (s : State) (k : Nat) (sd : Side) (slices : List (List Nat)), k < linksOf s → sideLive s k sd = true → takesFlits
    s k sd = true → flitStarts (receivedSlices s k sd slices) = true → (arrivalClass (sideWidth (slicesHeard k sd
    slices s) k sd) (receivedSlices s k sd slices) ≠ 0 ∨ flitType (arrivedBytes (sideWidth (slicesHeard k sd slices s)
    k sd) (receivedSlices s k sd slices)) ≠ 15) → exec (.controlFlitReceive k sd slices) s = .next (slicesHeard k sd
    slices s)) ∧
  (∀ (s : State) (k : Nat) (sd : Side) (heard : List Heard) (fail1 : Bool) (fail2 : Bool) (a : AckSet) (s2 : State), k
    < linksOf s → sideLive s k sd = true → setArrives readAck k sd heard s = (some a, s2) → spanUp s2 k sd = true →
    modeOf s2 k = mBundle → isTrunkSide s2 k sd = true → exec (.ackSetReceive k sd heard fail1 fail2) s = .next
    (countCal (trunkKey s2 k sd) R.CAL_MISC_rejects s2)) ∧
  (∀ (s : State) (k : Nat) (sd : Side) (heard : List Heard) (fail1 : Bool) (fail2 : Bool) (a : AckSet) (s2 : State) (l
    e : Nat), k < linksOf s → sideLive s k sd = true → setArrives readAck k sd heard s = (some a, s2) → spanUp s2 k sd
    = true → modeOf s2 k = mBundle → isTrunkSide s2 k sd = false → llOfSpan s2 k sd = some (l, e) → exec
    (.ackSetReceive k sd heard fail1 fail2) s = .next (darnObserve (llFlow l (1 - e)) a (s2.modFlow (llFlow l (1 - e))
    fun v => { v with xoff := a.map }))) ∧
  (∀ (s : State) (k : Nat) (sd : Side) (heard : List Heard) (fail1 : Bool) (fail2 : Bool) (a : AckSet) (s2 : State), k
    < linksOf s → sideLive s k sd = true → setArrives readAck k sd heard s = (some a, s2) → spanUp s2 k sd = true →
    modeOf s2 k = mBundle → isTrunkSide s2 k sd = false → llOfSpan s2 k sd = none → exec (.ackSetReceive k sd heard
    fail1 fail2) s = .next (s2)) ∧
  (∀ (s : State) (k : Nat) (sd : Side) (heard : List Heard) (fail1 : Bool) (fail2 : Bool) (a : AckSet) (s2 : State), k
    < linksOf s → sideLive s k sd = true → setArrives readAck k sd heard s = (some a, s2) → spanUp s2 k sd = true →
    modeOf s2 k ≠ mBundle → isTrunkMode (modeOf s2 k) = true → isTrunkSide s2 k sd = true → exec (.ackSetReceive k sd
    heard fail1 fail2) s = .next ((s2.modFlow (linkFlow k sd.dirOut) fun v => { v with xoff := a.map }).wr
    (R.XOFF_TIN_map k) a.map)) ∧
  (∀ (s : State) (k : Nat) (sd : Side) (heard : List Heard) (fail1 : Bool) (fail2 : Bool) (a : AckSet) (s2 : State), k
    < linksOf s → sideLive s k sd = true → setArrives readAck k sd heard s = (some a, s2) → spanUp s2 k sd = true →
    modeOf s2 k ≠ mBundle → isTrunkMode (modeOf s2 k) = true → isTrunkSide s2 k sd = false → exec (.ackSetReceive k sd
    heard fail1 fail2) s = .next ((darnObserve (linkFlow k sd.dirOut) a (s2.modFlow (linkFlow k sd.dirOut) fun v =>
    { v with xoff := a.map })).wr (R.XOFF_EP_map k) a.map)) ∧
  (∀ (s : State) (k : Nat) (sd : Side) (heard : List Heard) (fail1 : Bool) (fail2 : Bool) (a : AckSet) (s2 : State)
    (ds : State), ds = darnObserve (linkFlow k sd.dirOut) a s2 → k < linksOf s → sideLive s k sd = true → setArrives
    readAck k sd heard s = (some a, s2) → spanUp s2 k sd = true → modeOf s2 k ≠ mBundle → isTrunkMode (modeOf s2 k) =
    false → sideDie ds k sd = sideDie ds k sd.other → exec (.ackSetReceive k sd heard fail1 fail2) s = .next (postAck
    k sd.other a ds)) ∧
  (∀ (s : State) (k : Nat) (sd : Side) (heard : List Heard) (fail1 : Bool) (fail2 : Bool) (a : AckSet) (s2 : State)
    (ds : State), ds = darnObserve (linkFlow k sd.dirOut) a s2 → k < linksOf s → sideLive s k sd = true → setArrives
    readAck k sd heard s = (some a, s2) → spanUp s2 k sd = true → modeOf s2 k ≠ mBundle → isTrunkMode (modeOf s2 k) =
    false → sideDie ds k sd ≠ sideDie ds k sd.other → exec (.ackSetReceive k sd heard fail1 fail2) s = .next (if
    (seamSend (sideDie ds k sd) fail1 fail2 ds).1 then postAck k sd.other a (seamSend (sideDie ds k sd) fail1 fail2
    ds).2 else (seamSend (sideDie ds k sd) fail1 fail2 ds).2)) ∧
  (∀ (s : State) (k : Nat) (sd : Side) (heard : List Heard), k < linksOf s → sideLive s k sd = true → exec
    (.idlReceive k sd heard) s = .next ((setArrives readIdl k sd heard s).2)) ∧
  (∀ (s : State) (k : Nat) (sd : Side) (heard : List Heard) (u : Unit) (s2 : State), k < linksOf s → sideLive s k sd =
    true → setArrives readEie k sd heard s = (some u, s2) → exec (.eieReceive k sd heard) s = .next (s2.putSide k sd
    { s2.side k sd with lastEie := some s2.clock })) ∧
  (∀ (s : State) (k : Nat) (sd : Side) (heard : List Heard) (fill : Nat) (interval : Nat) (m : Nat) (s2 v : State), v
    = denseSeen k sd interval (ebTake k sd m fill s2).2 → k < linksOf s → sideLive s k sd = true → setArrives readSkp
    k sd heard s = (some m, s2) → 1 ≤ m → m ≤ 7 → (isSameLanes (modeOf v k) && modeOf v k ≠ mTransparent && spanUp v k
    sd && spanUp v k sd.other) = true → exec (.skpReceive k sd heard fill interval) s = .next (v.putSide k sd.other
    { v.side k sd.other with skpFwd := (v.side k sd.other).skpFwd ++ [{ n := (ebTake k sd m fill s2).1, entered := (v.flow (linkFlow k sd.dirIn)).entered, arr := v.freeCtr }] })) ∧
  (∀ (s : State) (k : Nat) (sd : Side) (heard : List Heard) (fill : Nat) (interval : Nat) (m : Nat) (s2 v : State), v
    = denseSeen k sd interval (ebTake k sd m fill s2).2 → k < linksOf s → sideLive s k sd = true → setArrives readSkp
    k sd heard s = (some m, s2) → 1 ≤ m → m ≤ 7 → (isSameLanes (modeOf v k) && modeOf v k ≠ mTransparent && spanUp v k
    sd && spanUp v k sd.other) = false → exec (.skpReceive k sd heard fill interval) s = .next (v))

/-- On a used side whose die clocks are not held, SEND_NEXT first puts in idle the lanes that left the side after their
EIE; then the item that was being sent ends with its effect, and the next begins (R172): on a side whose TX ends
were squelched and that is UP, IDL (R98); else an EIE that is due; in UP or sending TRN sets, a SKP set that is due,
a received one with its length or one of 4; a due TRN set, or while it trains the one that fills; in UP a DRN set;
an ACK set, unless one has just gone and a flit is ready; a SEL set after its cadence; a flit; IDL. In SWITCH only
due TRN sets are sent, in any other state nothing. SKP_DUE sets the symbol count to at least N - 256 on a side that
is UP or sends TRN sets (R88). In a cluster with its clock, a slip of the elastic buffer of a LOCKED end that has
one sets its fill to 32 or 0, counts on the direction's live error counter and marks the ends of the side it serves,
if any, for recentring; the symbol slipped at, which is dropped at 32 and missing at 0, is kept for the slice or set
that passes (R92). In a far-end loop it counts in LB_EB too (R385; DEDUCED, log 245). A skew remeasured on a LOCKED
end: the first, of at most 127 UI, makes the measure valid, stores it and lets the lanes of the span be judged, and
a larger one takes a span in ACQUIRE DOWN with DESKEW; a later one counts only where a remeasurement was due, and is
stored if at most 127 (R87). FLT_SNAP latches the flit counters of the link and adds one to snap_no, answering the
number before (R182, R494; the answer: DEDUCED, log 253); FLT_CLR zeroes the live counters. -/
def Obligations.SendingAndBuffers : Prop :=
  (∀ (s : State) (k : Nat) (sd : Side) (r1 : EccRead) (r2 : EccRead) (t u : State), t = leaveSend k sd s → u =
    itemEnds k sd (t.side k sd).cur (itemDone k sd t) → k < linksOf s → sideHeld s k sd = false → sideUsed t k sd =
    true → squelched u k sd = true → spanUp (txResume k sd u) k sd = true → exec (.sendNext k sd r1 r2) s = .next
    (itemStart k sd .idl (txResume k sd u))) ∧
  (∀ (s : State) (k : Nat) (sd : Side) (r1 : EccRead) (r2 : EccRead) (t u v : State), t = leaveSend k sd s → u =
    itemEnds k sd (t.side k sd).cur (itemDone k sd t) → v = (if squelched u k sd then txResume k sd u else u) → k <
    linksOf s → sideHeld s k sd = false → sideUsed t k sd = true → (squelched u k sd && spanUp v k sd) = false →
    (v.side k sd).eieDue = true → exec (.sendNext k sd r1 r2) s = .next (itemStart k sd .eie (v.putSide k sd
    { v.side k sd with eieDue := false }))) ∧
  (∀ (s : State) (k : Nat) (sd : Side) (r1 : EccRead) (r2 : EccRead) (t u v : State), t = leaveSend k sd s → u =
    itemEnds k sd (t.side k sd).cur (itemDone k sd t) → v = (if squelched u k sd then txResume k sd u else u) → k <
    linksOf s → sideHeld s k sd = false → sideUsed t k sd = true → (squelched u k sd && spanUp v k sd) = false →
    (v.side k sd).eieDue = false → (spanUp v k sd || sendsTrn (spanState v k sd)) = true → skpDue v k sd = true →
    skpPlace v k sd = true → exec (.sendNext k sd r1 r2) s = .next (itemStart k sd (.skp (((v.side k
    sd).skpFwd.head?.map SkpFwd.n).getD 4)) (v.putSide k sd
    { v.side k sd with skpFwd := (v.side k sd).skpFwd.drop 1, skpCount := 0 }))) ∧
  (∀ (s : State) (k : Nat) (sd : Side) (r1 : EccRead) (r2 : EccRead) (t u v : State), t = leaveSend k sd s → u =
    itemEnds k sd (t.side k sd).cur (itemDone k sd t) → v = (if squelched u k sd then txResume k sd u else u) → k <
    linksOf s → sideHeld s k sd = false → sideUsed t k sd = true → (squelched u k sd && spanUp v k sd) = false →
    (v.side k sd).eieDue = false → (spanUp v k sd || sendsTrn (spanState v k sd)) = true → skpDue v k sd = true →
    skpPlace v k sd = false → exec (.sendNext k sd r1 r2) s = .next (itemStart k sd (.skp 4) (v.putSide k sd
    { v.side k sd with skpCount := 0 }))) ∧
  (∀ (s : State) (k : Nat) (sd : Side) (r1 : EccRead) (r2 : EccRead) (t u v : State) (p : TrnSet) (rest : List
    TrnSet), t = leaveSend k sd s → u = itemEnds k sd (t.side k sd).cur (itemDone k sd t) → v = (if squelched u k sd
    then txResume k sd u else u) → k < linksOf s → sideHeld s k sd = false → sideUsed t k sd = true → (squelched u k
    sd && spanUp v k sd) = false → (v.side k sd).eieDue = false → (spanUp v k sd || sendsTrn (spanState v k sd)) =
    true → skpDue v k sd = false → (v.side k sd).trnDue = p :: rest → exec (.sendNext k sd r1 r2) s = .next (itemStart
    k sd (.trn p) (v.putSide k sd { v.side k sd with trnDue := rest }))) ∧
  (∀ (s : State) (k : Nat) (sd : Side) (r1 : EccRead) (r2 : EccRead) (t u v : State), t = leaveSend k sd s → u =
    itemEnds k sd (t.side k sd).cur (itemDone k sd t) → v = (if squelched u k sd then txResume k sd u else u) → k <
    linksOf s → sideHeld s k sd = false → sideUsed t k sd = true → (squelched u k sd && spanUp v k sd) = false →
    (v.side k sd).eieDue = false → (spanUp v k sd || sendsTrn (spanState v k sd)) = true → skpDue v k sd = false →
    (v.side k sd).trnDue = [] → spanState v k sd ≠ spUp → exec (.sendNext k sd r1 r2) s = .next (itemStart k sd (.trn
    (trnFill v k sd)) (v.putSpan k sd { v.span k sd with fill := ((v.span k sd).fill + 1) % 4 }))) ∧
  (∀ (s : State) (k : Nat) (sd : Side) (r1 : EccRead) (r2 : EccRead) (t u v : State) (d : DrnSet), t = leaveSend k sd
    s → u = itemEnds k sd (t.side k sd).cur (itemDone k sd t) → v = (if squelched u k sd then txResume k sd u else u)
    → k < linksOf s → sideHeld s k sd = false → sideUsed t k sd = true → (squelched u k sd && spanUp v k sd) = false →
    (v.side k sd).eieDue = false → (spanUp v k sd || sendsTrn (spanState v k sd)) = true → skpDue v k sd = false →
    (v.side k sd).trnDue = [] → spanState v k sd = spUp → drnDue v k sd = some d → exec (.sendNext k sd r1 r2) s =
    .next (itemStart k sd (.drn d) (drnStarts (trunkKey v k sd) d v))) ∧
  (∀ (s : State) (k : Nat) (sd : Side) (r1 : EccRead) (r2 : EccRead) (t u v : State) (a : AckSet), t = leaveSend k sd
    s → u = itemEnds k sd (t.side k sd).cur (itemDone k sd t) → v = (if squelched u k sd then txResume k sd u else u)
    → k < linksOf s → sideHeld s k sd = false → sideUsed t k sd = true → (squelched u k sd && spanUp v k sd) = false →
    (v.side k sd).eieDue = false → (spanUp v k sd || sendsTrn (spanState v k sd)) = true → skpDue v k sd = false →
    (v.side k sd).trnDue = [] → spanState v k sd = spUp → drnDue v k sd = none → ((v.side k sd).lastAck && flitReady v
    k sd) = false → (v.side k sd).pendAck = some a → exec (.sendNext k sd r1 r2) s = .next (itemStart k sd (.ack a)
    (ackStarts k sd a (v.putSide k sd { v.side k sd with pendAck := none })))) ∧
  (∀ (s : State) (k : Nat) (sd : Side) (r1 : EccRead) (r2 : EccRead) (t u v : State) (b : List Nat) (rest : List (List
    Nat)), t = leaveSend k sd s → u = itemEnds k sd (t.side k sd).cur (itemDone k sd t) → v = (if squelched u k sd
    then txResume k sd u else u) → k < linksOf s → sideHeld s k sd = false → sideUsed t k sd = true → (squelched u k
    sd && spanUp v k sd) = false → (v.side k sd).eieDue = false → (spanUp v k sd || sendsTrn (spanState v k sd)) =
    true → skpDue v k sd = false → (v.side k sd).trnDue = [] → spanState v k sd = spUp → drnDue v k sd = none →
    (((v.side k sd).lastAck && flitReady v k sd) = true ∨ (v.side k sd).pendAck = none) → (v.side k sd).selSyms = 0 →
    (v.side k sd).pendSel = b :: rest → exec (.sendNext k sd r1 r2) s = .next (itemStart k sd (.sel b) ((v.bump
    R.SEL_CNT_tx).putSide k sd
    { v.side k sd with pendSel := (v.side k sd).pendSel.drop 1, selSyms := 1024 * sliceLen (sideWidth v k sd) }))) ∧
  (∀ (s : State) (k : Nat) (sd : Side) (r1 : EccRead) (r2 : EccRead) (t u v : State) (i : Item) (w : State), t =
    leaveSend k sd s → u = itemEnds k sd (t.side k sd).cur (itemDone k sd t) → v = (if squelched u k sd then txResume
    k sd u else u) → k < linksOf s → sideHeld s k sd = false → sideUsed t k sd = true → (squelched u k sd && spanUp v
    k sd) = false → (v.side k sd).eieDue = false → (spanUp v k sd || sendsTrn (spanState v k sd)) = true → skpDue v k
    sd = false → (v.side k sd).trnDue = [] → spanState v k sd = spUp → drnDue v k sd = none → (((v.side k sd).lastAck
    && flitReady v k sd) = true ∨ (v.side k sd).pendAck = none) → ((v.side k sd).selSyms ≠ 0 ∨ (v.side k sd).pendSel =
    []) → nextFlit k sd r1 r2 v = (some i, w) → exec (.sendNext k sd r1 r2) s = .next (itemStart k sd (mixedItem w k
    sd i) w)) ∧
  (∀ (s : State) (k : Nat) (sd : Side) (r1 : EccRead) (r2 : EccRead) (t u v : State) (w : State), t = leaveSend k sd s
    → u = itemEnds k sd (t.side k sd).cur (itemDone k sd t) → v = (if squelched u k sd then txResume k sd u else u) →
    k < linksOf s → sideHeld s k sd = false → sideUsed t k sd = true → (squelched u k sd && spanUp v k sd) = false →
    (v.side k sd).eieDue = false → (spanUp v k sd || sendsTrn (spanState v k sd)) = true → skpDue v k sd = false →
    (v.side k sd).trnDue = [] → spanState v k sd = spUp → drnDue v k sd = none → (((v.side k sd).lastAck && flitReady
    v k sd) = true ∨ (v.side k sd).pendAck = none) → ((v.side k sd).selSyms ≠ 0 ∨ (v.side k sd).pendSel = []) →
    nextFlit k sd r1 r2 v = (none, w) → exec (.sendNext k sd r1 r2) s = .next (itemStart k sd .idl w)) ∧
  (∀ (s : State) (k : Nat) (sd : Side) (r1 : EccRead) (r2 : EccRead) (t u v : State) (p : TrnSet) (rest : List
    TrnSet), t = leaveSend k sd s → u = itemEnds k sd (t.side k sd).cur (itemDone k sd t) → v = (if squelched u k sd
    then txResume k sd u else u) → k < linksOf s → sideHeld s k sd = false → sideUsed t k sd = true → (squelched u k
    sd && spanUp v k sd) = false → (v.side k sd).eieDue = false → (spanUp v k sd || sendsTrn (spanState v k sd)) =
    false → spanState v k sd = spSwitch → (v.side k sd).trnDue = p :: rest → exec (.sendNext k sd r1 r2) s = .next
    (itemStart k sd (.trn p) (v.putSide k sd { v.side k sd with trnDue := rest }))) ∧
  (∀ (s : State) (k : Nat) (sd : Side) (r1 : EccRead) (r2 : EccRead) (t u v : State), t = leaveSend k sd s → u =
    itemEnds k sd (t.side k sd).cur (itemDone k sd t) → v = (if squelched u k sd then txResume k sd u else u) → k <
    linksOf s → sideHeld s k sd = false → sideUsed t k sd = true → (squelched u k sd && spanUp v k sd) = false →
    (v.side k sd).eieDue = false → (spanUp v k sd || sendsTrn (spanState v k sd)) = false → (spanState v k sd ≠
    spSwitch ∨ (v.side k sd).trnDue = []) → exec (.sendNext k sd r1 r2) s = .next (v)) ∧
  (∀ (s : State) (k : Nat) (sd : Side), k < linksOf s → sideLive s k sd = true → (spanUp s k sd || sendsTrn (spanState
    s k sd)) = true → exec (.skpDue k sd) s = .next (s.putSide k sd
    { s.side k sd with skpCount := max (s.side k sd).skpCount (skpN s k sd - 256) })) ∧
  (∀ (s : State) (n : Nat) (sd : Side) (full : Bool) (pos : Nat) (t : State), t = (s.putRx n sd
    { s.rxe n sd with fill := if full then 32 else 0, recentre := true, slip := some (full, pos) }).count (R.EB_ERR
    (laneCluster n) sd.dirIn.idx) → lanePresent s n = true → clusterStopped s (laneCluster n) = false → farLoop s n sd
    = false → endEb s n sd = true → isLocked s n sd = true → endUse t n sd = none → exec (.ebSlip ⟨n, sd⟩ full pos) s
    = .next (t)) ∧
  (∀ (s : State) (n : Nat) (sd : Side) (full : Bool) (pos : Nat) (t : State) (k q : Nat), t = (s.putRx n sd
    { s.rxe n sd with fill := if full then 32 else 0, recentre := true, slip := some (full, pos) }).count (R.EB_ERR
    (laneCluster n) sd.dirIn.idx) → lanePresent s n = true → clusterStopped s (laneCluster n) = false → farLoop s n sd
    = false → endEb s n sd = true → isLocked s n sd = true → endUse t n sd = some (k, q) → exec (.ebSlip ⟨n, sd⟩ full
    pos) s = .next ((endLanes (t) k sd).foldl (fun s l => s.putRx l sd { s.rxe l sd with recentre := true }) (t))) ∧
  (∀ (s : State) (n : Nat) (sd : Side) (full : Bool) (pos : Nat) (t : State), t = (s.putRx n sd
    { s.rxe n sd with fill := if full then 32 else 0, recentre := true, slip := some (full, pos) }).count (R.EB_ERR
    (laneCluster n) sd.dirIn.idx) → lanePresent s n = true → clusterStopped s (laneCluster n) = false → farLoop s n sd
    = true → endUse (t.count (R.LB_EB (lanePage n))) n sd = none → exec (.ebSlip ⟨n, sd⟩ full pos) s = .next (t.count
    (R.LB_EB (lanePage n)))) ∧
  (∀ (s : State) (n : Nat) (sd : Side) (full : Bool) (pos : Nat) (t : State) (k q : Nat), t = (s.putRx n sd
    { s.rxe n sd with fill := if full then 32 else 0, recentre := true, slip := some (full, pos) }).count (R.EB_ERR
    (laneCluster n) sd.dirIn.idx) → lanePresent s n = true → clusterStopped s (laneCluster n) = false → farLoop s n sd
    = true → endUse (t.count (R.LB_EB (lanePage n))) n sd = some (k, q) → exec (.ebSlip ⟨n, sd⟩ full pos) s = .next
    ((endLanes (t.count (R.LB_EB (lanePage n))) k sd).foldl (fun s l => s.putRx l sd
    { s.rxe l sd with recentre := true }) (t.count (R.LB_EB (lanePage n))))) ∧
  (∀ (s : State) (n : Nat) (sd : Side) (skew : Nat), lanePresent s n = true → isLocked s n sd = true → clusterStopped
    s (laneCluster n) = false → s.on (R.DSKW_valid (laneCluster n) (lanePos n) sd.idx) = false → skew ≤ 127 → endUse
    ((s.wr (R.DSKW_valid (laneCluster n) (lanePos n) sd.idx) 1).wr (R.DSKW_skew (laneCluster n) (lanePos n) sd.idx)
    skew) n sd = none → exec (.deskewRemeasure n sd skew) s = .next ((s.wr (R.DSKW_valid (laneCluster n) (lanePos n)
    sd.idx) 1).wr (R.DSKW_skew (laneCluster n) (lanePos n) sd.idx) skew)) ∧
  (∀ (s : State) (n : Nat) (sd : Side) (skew : Nat) (k q : Nat), lanePresent s n = true → isLocked s n sd = true →
    clusterStopped s (laneCluster n) = false → s.on (R.DSKW_valid (laneCluster n) (lanePos n) sd.idx) = false → skew ≤
    127 → endUse ((s.wr (R.DSKW_valid (laneCluster n) (lanePos n) sd.idx) 1).wr (R.DSKW_skew (laneCluster n) (lanePos
    n) sd.idx) skew) n sd = some (k, q) → exec (.deskewRemeasure n sd skew) s = .next (qualifyCheck k sd ((s.wr
    (R.DSKW_valid (laneCluster n) (lanePos n) sd.idx) 1).wr (R.DSKW_skew (laneCluster n) (lanePos n) sd.idx) skew))) ∧
  (∀ (s : State) (n : Nat) (sd : Side) (skew : Nat) (k q : Nat), lanePresent s n = true → isLocked s n sd = true →
    clusterStopped s (laneCluster n) = false → s.on (R.DSKW_valid (laneCluster n) (lanePos n) sd.idx) = false → 127 <
    skew → endUse s n sd = some (k, q) → spanState s k sd = spAcquire → exec (.deskewRemeasure n sd skew) s = .next
    (linkDown k ftDeskew false s)) ∧
  (∀ (s : State) (n : Nat) (sd : Side) (skew : Nat), lanePresent s n = true → isLocked s n sd = true → clusterStopped
    s (laneCluster n) = false → s.on (R.DSKW_valid (laneCluster n) (lanePos n) sd.idx) = true → (s.rxe n sd).remeasure
    = true → skew ≤ 127 → exec (.deskewRemeasure n sd skew) s = .next ((s.putRx n sd
    { s.rxe n sd with misses := 0, remeasure := false }).wr (R.DSKW_skew (laneCluster n) (lanePos n) sd.idx) skew)) ∧
  (∀ (s : State) (n : Nat) (sd : Side) (skew : Nat), lanePresent s n = true → isLocked s n sd = true → clusterStopped
    s (laneCluster n) = false → s.on (R.DSKW_valid (laneCluster n) (lanePos n) sd.idx) = true → (s.rxe n sd).remeasure
    = true → 127 < skew → exec (.deskewRemeasure n sd skew) s = .next (s.putRx n sd
    { s.rxe n sd with misses := 0, remeasure := false })) ∧
  (∀ (s : State) (n : Nat) (sd : Side) (skew : Nat), lanePresent s n = true → isLocked s n sd = true → clusterStopped
    s (laneCluster n) = false → s.on (R.DSKW_valid (laneCluster n) (lanePos n) sd.idx) = true → (s.rxe n sd).remeasure
    = false → exec (.deskewRemeasure n sd skew) s = .next (s)) ∧
  (∀ (s : State) (k : Nat), k < linksOf s → pageOpen s (0x40 + k) = true → exec (.fltSnap k) s = .next
    (((State.latchAll64 (fltCounters64 k) (State.latchAll (fltCounters k) s)).bumpWrap (R.FLT_SNAP_snap_no
    k)).answerWord (s.rd (R.FLT_SNAP_snap_no k)))) ∧
  (∀ (s : State) (k : Nat), k < linksOf s → pageOpen s (0x40 + k) = true → exec (.fltClr k) s = .next (State.zeroLive
    ((fltCounters64 k).map Prod.fst) (State.zeroLive (fltCounters k) s)))

/-- On a flow of the part in DARN or HANDBACK that is not frozen and whose timer has not fired, once its oldest
unacknowledged copy has been out for its delay and the darning time in fabric time (before that nothing happens:
DEDUCED, log 244): a copy whose retries are used up and that is in no custody makes the flow give up (R198); any
other marks the flow expired, with the retry of its head to count (R194). DARN_SNAP latches the darning counters of
the link, adds one to snap_no and answers the number before, or 0 where no direction is darned (R207, log 239);
DARN_CLR zeroes the live counters (R207, R494; the number before: DEDUCED, log 253). -/
def Obligations.DarningCommands : Prop :=
  (∀ (s : State) (f : Nat) (r : Nat), flowPresent s f = true → darnDue s f = true → (s.flow f).copies.head? = some r →
    flowRetries s f ≤ (s.slot r).retry → (s.slot r).custody = false → exec (.darnTimerExpiry f) s = .next (handback f
    3 ((s.flow f).expect.getD 0 + 4095) (darnEvent f 0 (countLink f R.GIVEUP (freeCopies f ((s.flow f).copies.filter
    fun r => !(s.slot r).custody) s))))) ∧
  (∀ (s : State) (f : Nat) (r : Nat), flowPresent s f = true → darnDue s f = true → (s.flow f).copies.head? = some r →
    ((s.slot r).retry < flowRetries s f ∨ (s.slot r).custody = true) → exec (.darnTimerExpiry f) s = .next (s.modFlow
    f fun v => { v with expired := true, headCounts := true, fired := true })) ∧
  (∀ (s : State) (f : Nat), flowPresent s f = true → darnDue s f = false → exec (.darnTimerExpiry f) s = .next (s)) ∧
  (∀ (s : State) (k : Nat), k < linksOf s → pageOpen s (0x40 + k) = true → exec (.darnSnap k) s = .next
    (((State.latchAll64 (darnCounters64 k) (State.latchAll (darnCounters k) s)).bumpWrap (R.DARN_SNAP_snap_no
    k)).answerWord (if linkDarned s k then s.rd (R.DARN_SNAP_snap_no k) else 0))) ∧
  (∀ (s : State) (k : Nat), k < linksOf s → pageOpen s (0x40 + k) = true → exec (.darnClr k) s = .next (State.zeroLive
    ((darnCounters64 k).map Prod.fst) (State.zeroLive (darnCounters k) s)))

/-- A DRN set is accepted on a trunk side whose span is UP or retraining, its D0 is in form and its kind is the
command's (t is the trunk, d the set, s2 the state it is taken in). An ACK frees every held number it covers (q),
forgets the expiries that followed one another and counts as an advance; where it covers none and is ahead of the
next number to be sent, a link counts it as odd; otherwise nothing changes (R222). A NAK is counted; while the trunk
is frozen it waits (R226); otherwise it frees what stands before the number it names (q), and where it freed one or
names a held flit, a run starts with the held flits from that number on (R222, R224); where neither holds, one ahead
of the next number is counted as odd. A PROBE leaves its tag and turn-round time to be echoed. An ECHO of the probe
that is out gives a sample, elapsed less 8 ns for each count of the turn-round time (at most 20 bits): it ends the
probe and shows in TRK_PROBE; above the RTT of the side's proof it sets RTT.over and starts a re-check; at or below
that of PROOF_RTT it clears it; in between nothing more (R227). -/
def Obligations.TrunkSetsTakeEffect : Prop :=
  (∀ (s : State) (k : Nat) (sd : Side) (heard : List Heard) (t : Nat) (d : DrnSet) (s2 : State) (q : List Nat), q =
    ((s2.trunk t).held.filter fun r => covers16 d.value (s2.slot r).spanSeq) → k < linksOf s → drnTaken k sd heard 0 s
    = some (t, d, s2) → q ≠ [] → exec (.drnAckReceive k sd heard) s = .next ((q.foldl (fun s r => freeNumber t r s)
    s2).modTrunk t fun x => { x with consec := 0, expSince := false })) ∧
  (∀ (s : State) (k : Nat) (sd : Side) (heard : List Heard) (t : Nat) (d : DrnSet) (s2 : State) (q : List Nat), q =
    ((s2.trunk t).held.filter fun r => covers16 d.value (s2.slot r).spanSeq) → k < linksOf s → drnTaken k sd heard 0 s
    = some (t, d, s2) → q = [] → isAhead16 d.value (s2.trunk t).nextTx = true → t < 1024 → exec (.drnAckReceive k sd
    heard) s = .next (s2.count (R.NOSLOT_nak_odd t))) ∧
  (∀ (s : State) (k : Nat) (sd : Side) (heard : List Heard) (t : Nat) (d : DrnSet) (s2 : State) (q : List Nat), q =
    ((s2.trunk t).held.filter fun r => covers16 d.value (s2.slot r).spanSeq) → k < linksOf s → drnTaken k sd heard 0 s
    = some (t, d, s2) → q = [] → (isAhead16 d.value (s2.trunk t).nextTx = false ∨ 1024 ≤ t) → exec (.drnAckReceive k
    sd heard) s = .next (s2)) ∧
  (∀ (s : State) (k : Nat) (sd : Side) (heard : List Heard) (t : Nat) (d : DrnSet) (s2 : State) (u : State) (q : List
    Nat) (v : State), u = countTrunk t R.NAK_rx R.CAL_NAK_rx s2 → q = ((u.trunk t).held.filter fun r => covers16
    ((d.value + 65535) % 65536) (u.slot r).spanSeq) → v = ((q.foldl (fun s r => freeNumber t r s) u).modTrunk t fun x
    => { x with consec := 0, expSince := false }) → k < linksOf s → drnTaken k sd heard 1 s = some (t, d, s2) →
    (u.trunk t).frozenAt = none → q ≠ [] → exec (.drnNakReceive k sd heard) s = .next (setRun t ((v.trunk
    t).held.filter fun r => covers16 (v.slot r).spanSeq d.value) v)) ∧
  (∀ (s : State) (k : Nat) (sd : Side) (heard : List Heard) (t : Nat) (d : DrnSet) (s2 : State) (u : State) (q : List
    Nat), u = countTrunk t R.NAK_rx R.CAL_NAK_rx s2 → q = ((u.trunk t).held.filter fun r => covers16 ((d.value +
    65535) % 65536) (u.slot r).spanSeq) → k < linksOf s → drnTaken k sd heard 1 s = some (t, d, s2) → (u.trunk
    t).frozenAt = none → q = [] → ((u.trunk t).held.any fun r => (u.slot r).spanSeq = d.value) = true → exec
    (.drnNakReceive k sd heard) s = .next (setRun t ((u.trunk t).held.filter fun r => covers16 (u.slot r).spanSeq
    d.value) u)) ∧
  (∀ (s : State) (k : Nat) (sd : Side) (heard : List Heard) (t : Nat) (d : DrnSet) (s2 : State) (u : State) (q : List
    Nat), u = countTrunk t R.NAK_rx R.CAL_NAK_rx s2 → q = ((u.trunk t).held.filter fun r => covers16 ((d.value +
    65535) % 65536) (u.slot r).spanSeq) → k < linksOf s → drnTaken k sd heard 1 s = some (t, d, s2) → (u.trunk
    t).frozenAt = none → q = [] → ((u.trunk t).held.any fun r => (u.slot r).spanSeq = d.value) = false → isAhead16
    d.value (u.trunk t).nextTx = true → t < 1024 → exec (.drnNakReceive k sd heard) s = .next (u.count
    (R.NOSLOT_nak_odd t))) ∧
  (∀ (s : State) (k : Nat) (sd : Side) (heard : List Heard) (t : Nat) (d : DrnSet) (s2 : State) (u : State) (q : List
    Nat), u = countTrunk t R.NAK_rx R.CAL_NAK_rx s2 → q = ((u.trunk t).held.filter fun r => covers16 ((d.value +
    65535) % 65536) (u.slot r).spanSeq) → k < linksOf s → drnTaken k sd heard 1 s = some (t, d, s2) → (u.trunk
    t).frozenAt = none → q = [] → ((u.trunk t).held.any fun r => (u.slot r).spanSeq = d.value) = false → (isAhead16
    d.value (u.trunk t).nextTx = false ∨ 1024 ≤ t) → exec (.drnNakReceive k sd heard) s = .next (u)) ∧
  (∀ (s : State) (k : Nat) (sd : Side) (heard : List Heard) (t : Nat) (d : DrnSet) (s2 : State) (u : State), u =
    countTrunk t R.NAK_rx R.CAL_NAK_rx s2 → k < linksOf s → drnTaken k sd heard 1 s = some (t, d, s2) → (u.trunk
    t).frozenAt.isSome = true → exec (.drnNakReceive k sd heard) s = .next (u.modTrunk t fun x =>
    { x with pendingNak := some d.value })) ∧
  (∀ (s : State) (k : Nat) (sd : Side) (heard : List Heard) (turn : Nat) (t : Nat) (d : DrnSet) (s2 : State), k <
    linksOf s → drnTaken k sd heard 2 s = some (t, d, s2) → exec (.drnProbeReceive k sd heard turn) s = .next
    (s2.modTrunk t fun x => { x with drnEcho := some (d.value, min turn 31) })) ∧
  (∀ (s : State) (k : Nat) (sd : Side) (heard : List Heard) (elapsed : Nat) (t : Nat) (d : DrnSet) (s2 : State) (a :
    Nat) (p : Nat × Side) (n : Nat) (u v : State), p = trunkAt s2 t → n = min (elapsed - 8 * (d.d0 % 32)) 0xFFFFF → u
    = (s2.modTrunk t fun x => { x with probeOut := none, sample := some n }) → v = (if t < 1024 then (u.wr
    (R.TRK_PROBE_valid t) 1).wr (R.TRK_PROBE_sample t) n else u) → k < linksOf s → drnTaken k sd heard 3 s = some (t,
    d, s2) → (s2.trunk t).probeOut = some (d.value, a) → v.rd (R.RTT_rtt p.1 p.2.idx) < n → exec (.drnEchoReceive k sd
    heard elapsed) s = .next (startRecheck 2 (v.wr (R.RTT_over p.1 p.2.idx) 1))) ∧
  (∀ (s : State) (k : Nat) (sd : Side) (heard : List Heard) (elapsed : Nat) (t : Nat) (d : DrnSet) (s2 : State) (a :
    Nat) (p : Nat × Side) (n : Nat) (u v : State), p = trunkAt s2 t → n = min (elapsed - 8 * (d.d0 % 32)) 0xFFFFF → u
    = (s2.modTrunk t fun x => { x with probeOut := none, sample := some n }) → v = (if t < 1024 then (u.wr
    (R.TRK_PROBE_valid t) 1).wr (R.TRK_PROBE_sample t) n else u) → k < linksOf s → drnTaken k sd heard 3 s = some (t,
    d, s2) → (s2.trunk t).probeOut = some (d.value, a) → n ≤ v.rd (R.RTT_rtt p.1 p.2.idx) → n ≤ v.rd (R.PROOF_RTT_rtt
    p.1 p.2.idx) → exec (.drnEchoReceive k sd heard elapsed) s = .next (v.wr (R.RTT_over p.1 p.2.idx) 0)) ∧
  (∀ (s : State) (k : Nat) (sd : Side) (heard : List Heard) (elapsed : Nat) (t : Nat) (d : DrnSet) (s2 : State) (a :
    Nat) (p : Nat × Side) (n : Nat) (u v : State), p = trunkAt s2 t → n = min (elapsed - 8 * (d.d0 % 32)) 0xFFFFF → u
    = (s2.modTrunk t fun x => { x with probeOut := none, sample := some n }) → v = (if t < 1024 then (u.wr
    (R.TRK_PROBE_valid t) 1).wr (R.TRK_PROBE_sample t) n else u) → k < linksOf s → drnTaken k sd heard 3 s = some (t,
    d, s2) → (s2.trunk t).probeOut = some (d.value, a) → n ≤ v.rd (R.RTT_rtt p.1 p.2.idx) → v.rd (R.PROOF_RTT_rtt p.1
    p.2.idx) < n → exec (.drnEchoReceive k sd heard elapsed) s = .next (v))

/-- On a trunk side that is UP: the span timer of the oldest held flit acts once it is out (R223, R225); an
acknowledgement owed for 128 ns is posted (R220); a probe interval other than 0 makes the next probe tag due (R227).
After 10 µs the probe wait forgets the probe (R227). On a custodial flow that does not enter from a trunk and has
owed an acknowledgement for 64 ns, the proxy acknowledges (R230). A trunk link that is UP refreshes its
acknowledgement on the trunk side 1 µs after the last one (R233). TRK_SNAP latches the trunk counters and adds one
to snap_no, answering the number before, or 0 in a link that is no TRUNK link (R238, log 239); TRK_CLR zeroes the
live counters (R238, R494; the number before: DEDUCED, log 253). -/
def Obligations.TrunkTimers : Prop :=
  (∀ (s : State) (t : Nat) (n : Nat) (u : State), n = (if (s.trunk t).expSince then min 15 ((s.trunk t).consec + 1)
    else (s.trunk t).consec) → u = countTrunk t R.TMO_expiries R.CAL_TMO_expiries (s.putTrunk t
    { s.trunk t with consec := n, expSince := true, fired := true }) → trunkPresent s t = true → trunkUp s t = true →
    spanDue s t = true → ((s.trunk t).expSince && decide (trunkRetries u t ≤ n)) = false → exec (.spanTimerExpiry t) s
    = .next (setRun t (u.trunk t).held u)) ∧
  (∀ (s : State) (t : Nat) (n : Nat) (u v : State), n = (if (s.trunk t).expSince then min 15 ((s.trunk t).consec + 1)
    else (s.trunk t).consec) → u = countTrunk t R.TMO_expiries R.CAL_TMO_expiries (s.putTrunk t
    { s.trunk t with consec := n, expSince := true, fired := true }) → v = countTrunk t R.TMO_retrains
    R.CAL_TMO_retrains u → trunkPresent s t = true → trunkUp s t = true → spanDue s t = true → ((s.trunk t).expSince
    && decide (trunkRetries u t ≤ n)) = true → exec (.spanTimerExpiry t) s = .next (retrain (trunkAt s t).1 (trunkAt s
    t).2 none true (trunkEvent (trunkRegion v t) 1 (trunkIndex v t) v))) ∧
  (∀ (s : State) (t : Nat), trunkPresent s t = true → trunkUp s t = true → passed (s.trunk t).accOldest 128 s.fab =
    true → exec (.drnAckTimer t) s = .next (s.modTrunk t fun x =>
    { x with drnAck := some ((x.expect + 65535) % 65536) })) ∧
  (∀ (s : State) (t : Nat), trunkPresent s t = true → trunkUp s t = true → trunkProbeInt s t ≠ 0 → exec
    (.probeInterval t) s = .next (s.modTrunk t fun x =>
    { x with probeTag := (x.probeTag + 1) % 65536, drnProbe := some ((x.probeTag + 1) % 65536) })) ∧
  (∀ (s : State) (t : Nat), trunkPresent s t = true → passed ((s.trunk t).probeOut.map (·.2)) 10000 s.fab = true →
    exec (.probeWaitExpiry t) s = .next (s.modTrunk t fun x => { x with probeOut := none })) ∧
  (∀ (s : State) (f : Nat), flowPresent s f = true → flowCustodial s f = true → flowInTrunk s f = false → passed
    (s.flow f).custOldest 64 s.fab = true → (s.flow f).seqValid = true → exec (.proxyAckTimer f) s = .next (postAck
    (flowIn s f).1 (flowIn s f).2 { seq := (s.flow f).seq, flags := 0, map := (s.flow f).up } s)) ∧
  (∀ (s : State) (f : Nat), flowPresent s f = true → flowCustodial s f = true → flowInTrunk s f = false → passed
    (s.flow f).custOldest 64 s.fab = true → (s.flow f).seqValid = false → exec (.proxyAckTimer f) s = .next (s)) ∧
  (∀ (s : State) (k : Nat) (u : State), u = s.putTrunk k { s.trunk k with ackSetAt := s.fab } → k < linksOf s →
    isTrunkMode (modeOf s k) = true → spanUp s k (trunkSide s k) = true → (s.trunk k).ackSetAt + 1000 ≤ s.fab → exec
    (.trunkAckRefresh k) s = .next (postAck k (trunkSide u k)
    { seq := 0, flags := 0, map := (u.flow (linkFlow k (trunkSide u k).dirIn)).up } u)) ∧
  (∀ (s : State) (k : Nat), k < linksOf s → pageOpen s (0x40 + k) = true → exec (.trkSnap k) s = .next
    ((((State.latchAll (trkCounters k) s).latch64 (R.SENT_LO k, R.SENT_HI k)).bumpWrap (R.TRK_SNAP_snap_no
    k)).answerWord (if isTrunkMode (modeOf s k) then s.rd (R.TRK_SNAP_snap_no k) else 0))) ∧
  (∀ (s : State) (k : Nat), k < linksOf s → pageOpen s (0x40 + k) = true → exec (.trkClr k) s = .next (State.zeroLive
    (R.SENT_LO k :: trkCounters k) s))

/-- On a calendar-bound trunk side that is UP, the acknowledgements owed are recorded, and a control flit is due, if
none was, where then eight records wait, or one of XOFF has waited 64 ns of fabric time or any other 1 µs (R249).
The end of a torn window, once its time has come, forgets what the caches held (R260); the end of draining, at least
1 µs after it began, of an idle logical link drops its two flows and makes it INVALID (R261); a cache (of a cluster,
or of a calendar: 16 and up) that refreshes holds no stale entry (R260). LL_SNAP and CAL_SNAP latch their counters,
add one to snap_no and answer the number before, LL_CLR and CAL_CLR zero the live counters (R494; the number before:
DEDUCED, log 253). A write of QST_SEL selects a queue of the die, shows its XOFF bits and its depth, and starts its
peak at that depth (R267). -/
def Obligations.BundleCommands : Prop :=
  (∀ (s : State) (t : Nat) (u : State), u = owedAcks t s → trunkPresent s t = true → 1024 ≤ t → trunkUp s t = true →
    exec (.controlFlitDue t) s = .next (u.modTrunk t fun x =>
    { x with ctlDue := x.ctlDue || (decide (8 ≤ x.recs.length) || x.recs.any fun r => decide (r.since + (if r.xoffKind then 64 else 1000) ≤ u.fab)) })) ∧
  (∀ (s : State) (l : Nat), l < llsOf s → passed (s.ll l).tornUntil 0 s.fab = true → exec (.llTornWindowEnd l) s =
    .next (s.putLl l { s.ll l with tornUntil := none, stale := [] })) ∧
  (∀ (s : State) (l : Nat), l < llsOf s → (s.ll l).state = llDraining → passed (s.ll l).drainFrom 1000 s.fab = true →
    llBusy s l = false → exec (.llDrainEnd l) s = .next ((dropFlow (llFlow l 1) false (dropFlow (llFlow l 0) false
    s)).putLl l
    { (dropFlow (llFlow l 1) false (dropFlow (llFlow l 0) false s)).ll l with state := llInvalid, drainFrom := none, tornUntil := none, stale := [] })) ∧
  (∀ (s : State) (cache : Nat), (cache < clustersOf s ∨ (16 ≤ cache ∧ cache < 16 + calsOf s)) → exec (.llCacheRefresh
    cache) s = .next ((Tbl.keys s.lls).foldl (fun s l => s.putLl l
    { s.ll l with stale := (s.ll l).stale.filter fun x => x.cache ≠ cache }) s)) ∧
  (∀ (s : State) (p : Nat), p < lltPages s → pageOpen s (0xC0 + p) = true → exec (.llSnap p) s = .next
    (((State.latchAll (llCounters (llSelected s p)) s).bumpWrap (R.LL_SNAP_snap_no p)).answerWord (s.rd
    (R.LL_SNAP_snap_no p)))) ∧
  (∀ (s : State) (p : Nat), p < lltPages s → pageOpen s (0xC0 + p) = true → exec (.llClr p) s = .next (State.zeroLive
    (llCounters (llSelected s p)) s)) ∧
  (∀ (s : State) (cal : Nat), cal < calsOf s → pageOpen s (0xC8 + cal / 2) = true → exec (.calSnap cal) s = .next
    (((State.latchAll (calCounters (cal / 2) (cal % 2)) s).bumpWrap (R.CAL_SNAP_snap_no (cal / 2) (cal %
    2))).answerWord (s.rd (R.CAL_SNAP_snap_no (cal / 2) (cal % 2))))) ∧
  (∀ (s : State) (cal : Nat), cal < calsOf s → pageOpen s (0xC8 + cal / 2) = true → exec (.calClr cal) s = .next
    (State.zeroLive (calCounters (cal / 2) (cal % 2)) s)) ∧
  (∀ (s : State) (die : Nat) (queue : Nat) (f v : Nat), f = queueFlow s (512 * die + queue % 32768 / 64) (queue %
    32768 % 2) → v = queue % 32768 % 64 / 2 → die < diesOf s → pageOpen s (0xD0 + die) = true → exec (.qstSelWrite die
    queue) s = .next (((((s.wr (R.QST_SEL_queue die) (queue % 32768)).wrB (R.QST_STAT_xoff_in die) (bit (s.flow
    f).xoff v)).wrB (R.QST_STAT_xoff_up die) (bit (s.flow f).up v)).wr (R.QST_STAT_depth die) (min (depthOf s f v)
    0xFFFF)).wr (R.QST_PEAK_peak die) (min (depthOf s f v) 0xFFFF)))

/-- On a die of the part whose core clock runs. A bad mirror slot whose partner is readable gets a new copy, in a bank
of neither, that takes its place in its list, and counts on REMIRROR_done; where no slot is free its partner stays
single, in its place, counted on REMIRROR_single with event SINGLE (R278); where the partner is bad or its read
fails the flit is lost (loseSlot, R232, R279). The error window, once its time has come, zeroes the counts of both
regions, and the next begins where it ended (R280; a late command: DEDUCED, log 240). End of a save: the copies are
read, bad slots dropped, the stand-in serves the bank's addresses and MOVES_copies counts; then the bank is RETIRED
where that was asked, else TESTING, and a test already stopped goes on to its end (R281). End of a test: it records
result, rows and 102,400 operations, or INCOMPLETE with its operations and a free number of rows (DESIGN CHOICE, log
214); a pass or repair with a stand-in moves on to RESTORING; a standby bank is STANDBY again, and a bank that
RETURN tested is STANDBY and counted usable (R285); rows beyond the 4 spares record BANK_FAIL and retire the bank,
its stand-in serving on. Each test without a restore raises 290. End of a restore: copies read, the bank serves its
addresses again IN_SERVICE, the stand-in is STANDBY, SUSPECT clears on a pass, 290 is raised. End of an evacuation:
the copies and moves are made; once no live slot is left the bank is STANDBY, else it goes on (R281, R282, R284). -/
def Obligations.BufferEvents : Prop :=
  (∀ (s : State) (die : Nat) (addr : Nat) (read : EccRead) (r q : Nat) (n : Nat) (u v : State), r = die * 65536 + addr
    → die < diesOf s → coreHeld s die = false → addr < 65536 → (s.slot r).state = stBad → s.partnerOf r = some q →
    (s.slot q).state ≠ stBad → readSlot q (2 * die) read s = (true, u) → allocSlot die [refBank r, refBank q]
    { u.slot q with copy := (s.slot r).copy, partner := refAddr q, sending := false, dying := false } u = some (n, v)
    → exec (.remirror ⟨die, addr⟩ read) s = .next ((relist r n ((v.putSlot q
    { v.slot q with partner := refAddr n }).putSlot r {})).count (R.REMIRROR_done die))) ∧
  (∀ (s : State) (die : Nat) (addr : Nat) (read : EccRead) (r q : Nat) (u : State), r = die * 65536 + addr → die <
    diesOf s → coreHeld s die = false → addr < 65536 → (s.slot r).state = stBad → s.partnerOf r = some q → (s.slot
    q).state ≠ stBad → readSlot q (2 * die) read s = (true, u) → allocSlot die [refBank r, refBank q]
    { u.slot q with copy := (s.slot r).copy, partner := refAddr q, sending := false, dying := false } u = none → exec
    (.remirror ⟨die, addr⟩ read) s = .next (((relist r q ((u.putSlot q
    { u.slot q with mirror := false, partner := 0xFFFF }).putSlot r {})).count (R.REMIRROR_single die)).dieEvent die
    5)) ∧
  (∀ (s : State) (die : Nat) (addr : Nat) (read : EccRead) (r q : Nat) (u : State), r = die * 65536 + addr → die <
    diesOf s → coreHeld s die = false → addr < 65536 → (s.slot r).state = stBad → s.partnerOf r = some q → (s.slot
    q).state ≠ stBad → readSlot q (2 * die) read s = (false, u) → exec (.remirror ⟨die, addr⟩ read) s = .next
    (loseSlot r read.desc u)) ∧
  (∀ (s : State) (die : Nat) (addr : Nat) (read : EccRead) (r q : Nat), r = die * 65536 + addr → die < diesOf s →
    coreHeld s die = false → addr < 65536 → (s.slot r).state = stBad → s.partnerOf r = some q → (s.slot q).state =
    stBad → exec (.remirror ⟨die, addr⟩ read) s = .next (loseSlot r false s)) ∧
  (∀ (s : State) (die : Nat), die < diesOf s → coreHeld s die = false → ceWindowDue s die ≤ s.clock → exec
    (.ceWindowEnd die) s = .next (s.putBuf die
    { s.buf die with ce0 := 0, ce1 := 0, fired0 := false, fired1 := false, ceFrom := ceWindowDue s die })) ∧
  (∀ (s : State) (die : Nat) (reads : List (Nat × EccRead)) (bank l : Nat) (t u v : State), bank = s.rd
    (R.BUF_STAT_test_bank die) → l = (numberOf s die bank).getD 63 → t = copyReads die l reads s → u = dropBad die l
    (setServes die l (t.buf die).standIn (t.count (R.MOVES_copies die))) → v = ((u.wr (R.BANK_STAT_state die (t.buf
    die).standIn) bkInService).wr (R.BUF_STAT_standby die) 63) → die < diesOf s → coreHeld s die = false → rotOf s die
    = 1 → (t.buf die).retireAfter = true → exec (.bankSaveDone ⟨die, reads⟩) s = .next (retireInService die bank
    (rotIdle die v))) ∧
  (∀ (s : State) (die : Nat) (reads : List (Nat × EccRead)) (bank l : Nat) (t u v : State), bank = s.rd
    (R.BUF_STAT_test_bank die) → l = (numberOf s die bank).getD 63 → t = copyReads die l reads s → u = dropBad die l
    (setServes die l (t.buf die).standIn (t.count (R.MOVES_copies die))) → v = ((u.wr (R.BANK_STAT_state die (t.buf
    die).standIn) bkInService).wr (R.BUF_STAT_standby die) 63) → die < diesOf s → coreHeld s die = false → rotOf s die
    = 1 → (t.buf die).retireAfter = false → (t.buf die).stopped = none → exec (.bankSaveDone ⟨die, reads⟩) s = .next
    (setRot die 2 bank (v.wr (R.BANK_STAT_state die bank) bkTesting))) ∧
  (∀ (s : State) (die : Nat) (reads : List (Nat × EccRead)) (bank l : Nat) (t u v : State) (res cause : Nat), bank =
    s.rd (R.BUF_STAT_test_bank die) → l = (numberOf s die bank).getD 63 → t = copyReads die l reads s → u = dropBad
    die l (setServes die l (t.buf die).standIn (t.count (R.MOVES_copies die))) → v = ((u.wr (R.BANK_STAT_state die
    (t.buf die).standIn) bkInService).wr (R.BUF_STAT_standby die) 63) → die < diesOf s → coreHeld s die = false →
    rotOf s die = 1 → (t.buf die).retireAfter = false → (t.buf die).stopped = some (res, cause) → exec (.bankSaveDone
    ⟨die, reads⟩) s = .next (testStopped die res cause 0 0 (setRot die 2 bank (v.wr (R.BANK_STAT_state die bank)
    bkTesting)))) ∧
  (∀ (s : State) (die : Nat) (ops bank i j : Nat) (t u : State), bank = s.rd (R.BUF_STAT_test_bank die) → s.draw = (i,
    t) → t.draw = (j, u) → die < diesOf s → coreHeld s die = false → rotOf s die = 2 → (s.buf die).standIn ≠ 63 → exec
    (.bankTestEnd die (.short ops)) s = .next ((setRot die 3 bank ((bankRecord die bank resIncomplete causeStall
    (Config.freeValue i % 129) (Config.freeValue j % 102401) u).wr (R.BANK_STAT_state die bank) bkRestoring)).wr
    (R.BANK_PAT die) ops)) ∧
  (∀ (s : State) (die : Nat) (found rows : List Nat) (slot bitNo bank : Nat) (desc : Bool) (t u w : State), bank =
    s.rd (R.BUF_STAT_test_bank die) → rows = rowsFound found → t = (bankRecord die bank resPass 0 0 102400 s) → w =
    (t.wrB (R.BANK_FAIL_valid die) false) → u = w.putBuf die { w.buf die with lastTested := bank } → die < diesOf s →
    coreHeld s die = false → rotOf s die = 2 → rows = [] → (s.buf die).returning = false → (s.buf die).standIn ≠ 63 →
    exec (.bankTestEnd die (.counted found slot bitNo desc)) s = .next (setRot die 3 bank ((u.putBuf die
    { u.buf die with passed := true }).wr (R.BANK_STAT_state die bank) bkRestoring))) ∧
  (∀ (s : State) (die : Nat) (found rows : List Nat) (slot bitNo bank : Nat) (desc : Bool) (t u w : State), bank =
    s.rd (R.BUF_STAT_test_bank die) → rows = rowsFound found → t = (bankRecord die bank resPass 0 0 102400 s) → w =
    (t.wrB (R.BANK_FAIL_valid die) false) → u = w.putBuf die { w.buf die with lastTested := bank } → die < diesOf s →
    coreHeld s die = false → rotOf s die = 2 → rows = [] → (s.buf die).returning = false → (s.buf die).standIn = 63 →
    exec (.bankTestEnd die (.counted found slot bitNo desc)) s = .next (suspectSlice die ((rotIdle die (inPlaceBack
    die bank (suspectClear die bank u))).raise 290))) ∧
  (∀ (s : State) (die : Nat) (found rows : List Nat) (slot bitNo bank : Nat) (desc : Bool) (t u w : State), bank =
    s.rd (R.BUF_STAT_test_bank die) → rows = rowsFound found → t = (bankRecord die bank resPass 0 0 102400 s) → w =
    (t.wrB (R.BANK_FAIL_valid die) false) → u = w.putBuf die { w.buf die with lastTested := bank } → die < diesOf s →
    coreHeld s die = false → rotOf s die = 2 → rows = [] → (s.buf die).returning = true → exec (.bankTestEnd die
    (.counted found slot bitNo desc)) s = .next (suspectSlice die ((rotIdle die (returnBank die bank (suspectClear die
    bank u))).raise 290))) ∧
  (∀ (s : State) (die : Nat) (found rows : List Nat) (slot bitNo bank : Nat) (desc : Bool) (t u v w : State), bank =
    s.rd (R.BUF_STAT_test_bank die) → rows = rowsFound found → t = (bankRecord die bank resRepaired 0 rows.length
    102400 s) → w = (((((t.wrB (R.BANK_FAIL_valid die) true).wrB (R.BANK_FAIL_desc die) desc).wr (R.BANK_FAIL_bank
    die) bank).wr (R.BANK_FAIL_slot die) slot).wr (R.BANK_FAIL_bit die) bitNo) → u = w.putBuf die
    { w.buf die with lastTested := bank } → die < diesOf s → coreHeld s die = false → rotOf s die = 2 → rows ≠ [] →
    rows.length + s.rd (R.BANK_STAT_rows die bank) ≤ 4 → (s.buf die).returning = false → (s.buf die).standIn ≠ 63 → v
    = (rows.foldl (fun s r => repairRow die bank r s) u) → exec (.bankTestEnd die (.counted found slot bitNo desc)) s
    = .next (setRot die 3 bank ((v.putBuf die { v.buf die with passed := true }).wr (R.BANK_STAT_state die bank)
    bkRestoring))) ∧
  (∀ (s : State) (die : Nat) (found rows : List Nat) (slot bitNo bank : Nat) (desc : Bool) (t u w : State), bank =
    s.rd (R.BUF_STAT_test_bank die) → rows = rowsFound found → t = (bankRecord die bank resFail 0 rows.length 102400
    s) → w = (((((t.wrB (R.BANK_FAIL_valid die) true).wrB (R.BANK_FAIL_desc die) desc).wr (R.BANK_FAIL_bank die)
    bank).wr (R.BANK_FAIL_slot die) slot).wr (R.BANK_FAIL_bit die) bitNo) → u = w.putBuf die
    { w.buf die with lastTested := bank } → die < diesOf s → coreHeld s die = false → rotOf s die = 2 → rows ≠ [] → 4
    < rows.length + s.rd (R.BANK_STAT_rows die bank) → (s.buf die).returning = false → exec (.bankTestEnd die
    (.counted found slot bitNo desc)) s = .next (suspectSlice die ((retireInService die bank (rotIdle die u)).raise
    290))) ∧
  (∀ (s : State) (die : Nat) (found rows : List Nat) (slot bitNo bank : Nat) (desc : Bool) (t u w : State), bank =
    s.rd (R.BUF_STAT_test_bank die) → rows = rowsFound found → t = (bankRecord die bank resFail 0 rows.length 102400
    s) → w = (((((t.wrB (R.BANK_FAIL_valid die) true).wrB (R.BANK_FAIL_desc die) desc).wr (R.BANK_FAIL_bank die)
    bank).wr (R.BANK_FAIL_slot die) slot).wr (R.BANK_FAIL_bit die) bitNo) → u = w.putBuf die
    { w.buf die with lastTested := bank } → die < diesOf s → coreHeld s die = false → rotOf s die = 2 → rows ≠ [] → 4
    < rows.length + s.rd (R.BANK_STAT_rows die bank) → (s.buf die).returning = true → exec (.bankTestEnd die (.counted
    found slot bitNo desc)) s = .next (suspectSlice die ((rotIdle die (u.wr (R.BANK_STAT_state die bank)
    bkRetired)).raise 290))) ∧
  (∀ (s : State) (die : Nat) (reads : List (Nat × EccRead)) (bank l : Nat) (t u w x : State), bank = s.rd
    (R.BUF_STAT_test_bank die) → l = (numberOf s die (s.buf die).standIn).getD 63 → t = dropBad die l (copyReads die l
    reads s) → u = ((setServes die l bank (t.count (R.MOVES_copies die))).wr (R.BANK_STAT_state die bank) bkInService)
    → w = ((u.wr (R.BANK_STAT_state die (t.buf die).standIn) bkStandby).wr (R.BUF_STAT_standby die) (t.buf
    die).standIn) → x = (if (t.buf die).passed then suspectClear die bank w else w) → die < diesOf s → coreHeld s die
    = false → rotOf s die = 3 → exec (.bankRestoreDone ⟨die, reads⟩) s = .next (suspectSlice die ((rotIdle die
    (x.putBuf die { x.buf die with lastTested := bank })).raise 290))) ∧
  (∀ (s : State) (die : Nat) (reads : List (Nat × EccRead)) (bank l : Nat) (t u : State), bank = s.rd
    (R.BUF_STAT_test_bank die) → t = copyReads die l reads s → u = ((liveSlots t die l).foldl (fun s r => moveSlot l r
    s) t) → die < diesOf s → coreHeld s die = false → rotOf s die = 4 → numberOf s die bank = some l → liveSlots u die
    l = [] → exec (.evacuationDone ⟨die, reads⟩) s = .next (suspectSlice die (rotIdle die (((setServes die l 63 u).wr
    (R.BANK_STAT_state die bank) bkStandby).wr (R.BUF_STAT_standby die) bank)))) ∧
  (∀ (s : State) (die : Nat) (reads : List (Nat × EccRead)) (bank l : Nat) (t u : State), bank = s.rd
    (R.BUF_STAT_test_bank die) → t = copyReads die l reads s → u = ((liveSlots t die l).foldl (fun s r => moveSlot l r
    s) t) → die < diesOf s → coreHeld s die = false → rotOf s die = 4 → numberOf s die bank = some l → liveSlots u die
    l ≠ [] → exec (.evacuationDone ⟨die, reads⟩) s = .next (u))

/-- With the page of a die answering and no BUF_CMD in progress, on a bank 0-32, a command that is not refused stores op
and bank and clears refused. RETIRE of the standby bank retires it at once (retireInService, R284); RETIRE of
another becomes busy and starts its save (SAVING into the standby bank, to be retired after it). RETURN and TEST_NOW
become busy: where a limit of R376 does not hold the test ends at once with LIMIT and its cause, 290 is raised and
busy clears; else the bank of RETURN is TESTING in place; TEST_NOW of an IN_SERVICE bank starts SAVING into the
standby bank, and of the standby bank TESTING in place, with no standby (R281, R285). A refused command stores its
fields and sets refused (that the fields are stored: DEDUCED, log 106). BUF_SNAP latches the counters of the die,
adds one to snap_no and answers the number before (R288, R494; the number before: DEDUCED, log 253); BUF_CLR zeroes
the live counters and sets the peak to the slots live (DEDUCED, log 238). DESC_SEL stores the address and loads the
five descriptor words of the slot, or zeros where the bank is above 32 (R271, R288). -/
def Obligations.BufferCommands : Prop :=
  (∀ (s : State) (die : Nat) (bank : Nat) (t : State), t = (((s.wr (R.BUF_CMD_op die) 0).wr (R.BUF_CMD_bank die) (bank
    % 64)).wr (R.BUF_CMD_refused die) 0) → die < diesOf s → pageOpen s (0x38 + die) = true → s.on (R.BUF_CMD_busy die)
    = false → bank % 64 ≤ 32 → bufCmdRefused ((s.wr (R.BUF_CMD_op die) 0).wr (R.BUF_CMD_bank die) (bank % 64)) die 0
    (bank % 64) = false → bankState t die (bank % 64) = bkStandby → exec (.bufRetire die bank) s = .next
    (retireInService die (bank % 64) t)) ∧
  (∀ (s : State) (die : Nat) (bank : Nat) (t u : State), t = (((s.wr (R.BUF_CMD_op die) 0).wr (R.BUF_CMD_bank die)
    (bank % 64)).wr (R.BUF_CMD_refused die) 0) → u = ((t.wr (R.BUF_CMD_busy die) 1).putBuf die
    { (t.wr (R.BUF_CMD_busy die) 1).buf die with retireAfter := true, returning := false, byCmd := true, stopped := none, passed := false })
    → die < diesOf s → pageOpen s (0x38 + die) = true → s.on (R.BUF_CMD_busy die) = false → bank % 64 ≤ 32 →
    bufCmdRefused ((s.wr (R.BUF_CMD_op die) 0).wr (R.BUF_CMD_bank die) (bank % 64)) die 0 (bank % 64) = false →
    bankState t die (bank % 64) ≠ bkStandby → bankState u die (bank % 64) = bkInService → exec (.bufRetire die bank) s
    = .next (setRot die 1 (bank % 64) ((u.wr (R.BANK_STAT_state die (bank % 64)) bkSaving).putBuf die
    { u.buf die with standIn := (standbyOf u die).getD 63 }))) ∧
  (∀ (s : State) (die : Nat) (bank : Nat) (t v : State), t = (((s.wr (R.BUF_CMD_op die) 1).wr (R.BUF_CMD_bank die)
    (bank % 64)).wr (R.BUF_CMD_refused die) 0) → v = t.wr (R.BUF_CMD_busy die) 1 → die < diesOf s → pageOpen s (0x38 +
    die) = true → s.on (R.BUF_CMD_busy die) = false → bank % 64 ≤ 32 → bufCmdRefused ((s.wr (R.BUF_CMD_op die) 1).wr
    (R.BUF_CMD_bank die) (bank % 64)) die 1 (bank % 64) = false → limitCause v die ≠ 0 → exec (.bufReturn die bank) s
    = .next (((bankRecord die (bank % 64) resLimit (limitCause v die) 0 0 v).raise 290).wr (R.BUF_CMD_busy die) 0)) ∧
  (∀ (s : State) (die : Nat) (bank : Nat) (t u v : State), t = (((s.wr (R.BUF_CMD_op die) 1).wr (R.BUF_CMD_bank die)
    (bank % 64)).wr (R.BUF_CMD_refused die) 0) → v = t.wr (R.BUF_CMD_busy die) 1 → u = ((v).putBuf die
    { (v).buf die with retireAfter := false, returning := true, byCmd := true, stopped := none, passed := false }) →
    die < diesOf s → pageOpen s (0x38 + die) = true → s.on (R.BUF_CMD_busy die) = false → bank % 64 ≤ 32 →
    bufCmdRefused ((s.wr (R.BUF_CMD_op die) 1).wr (R.BUF_CMD_bank die) (bank % 64)) die 1 (bank % 64) = false →
    limitCause v die = 0 → bankState v die (bank % 64) = bkRetired → bankState u die (bank % 64) = bkRetired → exec
    (.bufReturn die bank) s = .next (setRot die 2 (bank % 64) (u.wr (R.BANK_STAT_state die (bank % 64)) bkTesting))) ∧
  (∀ (s : State) (die : Nat) (bank : Nat) (t v : State), t = (((s.wr (R.BUF_CMD_op die) 2).wr (R.BUF_CMD_bank die)
    (bank % 64)).wr (R.BUF_CMD_refused die) 0) → v = t.wr (R.BUF_CMD_busy die) 1 → die < diesOf s → pageOpen s (0x38 +
    die) = true → s.on (R.BUF_CMD_busy die) = false → bank % 64 ≤ 32 → bufCmdRefused ((s.wr (R.BUF_CMD_op die) 2).wr
    (R.BUF_CMD_bank die) (bank % 64)) die 2 (bank % 64) = false → limitCause v die ≠ 0 → exec (.bufTestNow die bank) s
    = .next (((bankRecord die (bank % 64) resLimit (limitCause v die) 0 0 v).raise 290).wr (R.BUF_CMD_busy die) 0)) ∧
  (∀ (s : State) (die : Nat) (bank : Nat) (t u v : State), t = (((s.wr (R.BUF_CMD_op die) 2).wr (R.BUF_CMD_bank die)
    (bank % 64)).wr (R.BUF_CMD_refused die) 0) → v = t.wr (R.BUF_CMD_busy die) 1 → u = ((v).putBuf die
    { (v).buf die with retireAfter := false, returning := false, byCmd := true, stopped := none, passed := false }) →
    die < diesOf s → pageOpen s (0x38 + die) = true → s.on (R.BUF_CMD_busy die) = false → bank % 64 ≤ 32 →
    bufCmdRefused ((s.wr (R.BUF_CMD_op die) 2).wr (R.BUF_CMD_bank die) (bank % 64)) die 2 (bank % 64) = false →
    limitCause v die = 0 → (standbyOf v die).isSome = true → bankState u die (bank % 64) = bkInService → exec
    (.bufTestNow die bank) s = .next (setRot die 1 (bank % 64) ((u.wr (R.BANK_STAT_state die (bank % 64))
    bkSaving).putBuf die { u.buf die with standIn := (standbyOf u die).getD 63 }))) ∧
  (∀ (s : State) (die : Nat) (bank : Nat) (t u v : State), t = (((s.wr (R.BUF_CMD_op die) 2).wr (R.BUF_CMD_bank die)
    (bank % 64)).wr (R.BUF_CMD_refused die) 0) → v = t.wr (R.BUF_CMD_busy die) 1 → u = ((v).putBuf die
    { (v).buf die with retireAfter := false, returning := false, byCmd := true, stopped := none, passed := false }) →
    die < diesOf s → pageOpen s (0x38 + die) = true → s.on (R.BUF_CMD_busy die) = false → bank % 64 ≤ 32 →
    bufCmdRefused ((s.wr (R.BUF_CMD_op die) 2).wr (R.BUF_CMD_bank die) (bank % 64)) die 2 (bank % 64) = false →
    limitCause v die = 0 → bankState v die (bank % 64) = bkStandby → bankState u die (bank % 64) = bkStandby → exec
    (.bufTestNow die bank) s = .next (setRot die 2 (bank % 64) ((u.wr (R.BUF_STAT_standby die) 63).wr
    (R.BANK_STAT_state die (bank % 64)) bkTesting))) ∧
  (∀ (s : State) (die : Nat) (bank : Nat), die < diesOf s → pageOpen s (0x38 + die) = true → s.on (R.BUF_CMD_busy die)
    = false → bank % 64 ≤ 32 → bufCmdRefused ((s.wr (R.BUF_CMD_op die) 0).wr (R.BUF_CMD_bank die) (bank % 64)) die 0
    (bank % 64) = true → exec (.bufRetire die bank) s = .next (((s.wr (R.BUF_CMD_op die) 0).wr (R.BUF_CMD_bank die)
    (bank % 64)).wr (R.BUF_CMD_refused die) 1)) ∧
  (∀ (s : State) (die : Nat) (bank : Nat), die < diesOf s → pageOpen s (0x38 + die) = true → s.on (R.BUF_CMD_busy die)
    = false → bank % 64 ≤ 32 → bufCmdRefused ((s.wr (R.BUF_CMD_op die) 1).wr (R.BUF_CMD_bank die) (bank % 64)) die 1
    (bank % 64) = true → exec (.bufReturn die bank) s = .next (((s.wr (R.BUF_CMD_op die) 1).wr (R.BUF_CMD_bank die)
    (bank % 64)).wr (R.BUF_CMD_refused die) 1)) ∧
  (∀ (s : State) (die : Nat) (bank : Nat), die < diesOf s → pageOpen s (0x38 + die) = true → s.on (R.BUF_CMD_busy die)
    = false → bank % 64 ≤ 32 → bufCmdRefused ((s.wr (R.BUF_CMD_op die) 2).wr (R.BUF_CMD_bank die) (bank % 64)) die 2
    (bank % 64) = true → exec (.bufTestNow die bank) s = .next (((s.wr (R.BUF_CMD_op die) 2).wr (R.BUF_CMD_bank die)
    (bank % 64)).wr (R.BUF_CMD_refused die) 1)) ∧
  (∀ (s : State) (die : Nat), die < diesOf s → pageOpen s (0x38 + die) = true → exec (.bufSnap die) s = .next
    (((State.latchAll (bufCounters die) s).bumpWrap (R.BUF_SNAP_snap_no die)).answerWord (s.rd (R.BUF_SNAP_snap_no
    die)))) ∧
  (∀ (s : State) (die : Nat), die < diesOf s → pageOpen s (0x38 + die) = true → exec (.bufClr die) s = .next
    ((State.zeroLive (bufCounters die) s).wr (R.BUF_OCC_peak die) (bufLive s die))) ∧
  (∀ (s : State) (die : Nat) (addr : Nat) (t : State), t = s.wr (R.DESC_SEL_addr die) (addr % 65536) → die < diesOf s
    → pageOpen s (0x38 + die) = true → addr % 65536 / 1024 ≤ 32 → exec (.descSelWrite die addr) s = .next
    (((List.range 5).zip (descWords t (die * 65536 + addr % 65536))).foldl (fun s p => s.wr (R.DESC_W_word die p.1)
    p.2) t)) ∧
  (∀ (s : State) (die : Nat) (addr : Nat) (t : State), t = s.wr (R.DESC_SEL_addr die) (addr % 65536) → die < diesOf s
    → pageOpen s (0x38 + die) = true → 32 < addr % 65536 / 1024 → exec (.descSelWrite die addr) s = .next
    (((List.range 5).zip [0, 0, 0, 0, 0]).foldl (fun s p => s.wr (R.DESC_W_word die p.1) p.2) t))

/-- With the page answering and no load in progress: LOAD in SERVICE or GUARD with no flash command in progress clears
refused, becomes busy and loading and reads the header of the primary image with 0x03 in a single-bit transfer; else
it sets refused (R132, R133). A flash command stores its fields; with no load and no flash command in progress, in
SERVICE or GUARD, it clears refused, becomes busy and keeps the command; with a load in progress or outside those
states it sets refused (R133, R134; the fields stored with it: DEDUCED, log 106); one with more than 64 data bytes
or addr_bytes 2 or 3 sets refused and stores nothing (R134, R493). The end of a load judges the primary image
(btCheck, R122 to R130). Where it passes, both results read OK and it becomes the live table (btLive). Where it
fails, primary_result and BT_DETAIL tell of it and the backup is judged: one that passes becomes the live table; of
one that fails too result and BT_DETAIL tell. Either way loading and busy clear and 294 is raised (R130 to R132).
The end of a flash command that reads stores the bytes read in FC_DATA in order, as many as its length; that of one
that writes only stops being busy. -/
def Obligations.BoardTableAndFlash : Prop :=
  (∀ (s : State), pageOpen s 0xE = true → s.on R.BT_CMD_busy = false → inRun s = true → s.on R.FC_CTL_busy = false →
    exec .btLoad s = .next
    ({ ((s.wr R.BT_CMD_refused 0).wr R.BT_STAT_loading 1).wr R.BT_CMD_busy 1 with bt := { s.bt with reads := [(0x03, false)] } })) ∧
  (∀ (s : State), pageOpen s 0xE = true → s.on R.BT_CMD_busy = false → (inRun s = false ∨ s.on R.FC_CTL_busy = true) →
    exec .btLoad s = .next (s.wr R.BT_CMD_refused 1)) ∧
  (∀ (s : State) (primary : List Nat) (backup : List Nat) (r q : BtResult) (t u : State), r = btCheck s primary → t =
    (({ s with bt := { s.bt with reads := imageReads primary ++ (if r.code = 1 then [] else imageReads backup) } }.wr
    R.BT_STAT_primary_result r.code).wr R.BT_STAT_result r.code) → q = btCheck t backup → u = ((btDetail r t).wr
    R.BT_STAT_result q.code) → s.on R.BT_STAT_loading = true → exec (.btLoadDone primary backup) s = .next (((((if
    r.code = 1 then btLive 1 primary t else if q.code = 1 then btLive 2 backup u else btDetail q u)).wr
    R.BT_STAT_loading 0).wr R.BT_CMD_busy 0).raise 294)) ∧
  (∀ (s : State) (ctl : Nat) (t : State), t = ([(R.FC_CTL_len, bits ctl 22 16), (R.FC_CTL_quad, bits ctl 15 15),
    (R.FC_CTL_dir, bits ctl 14 14), (R.FC_CTL_dummy, bits ctl 13 10), (R.FC_CTL_addr_bytes, bits ctl 9 8),
    (R.FC_CTL_opcode, bits ctl 7 0)].foldl (fun s p => s.wr p.1 p.2) s) → pageOpen s 0xE = true → bits ctl 22 16 ≤ 64
    → bits ctl 9 8 < 2 → t.on R.FC_CTL_busy = false → t.on R.BT_CMD_busy = false → inRun t = true → exec
    (.flashCommand ctl) s = .next
    ({ (t.wr R.FC_CTL_refused 0).wr R.FC_CTL_busy 1 with bt := { t.bt with fc := ctl } })) ∧
  (∀ (s : State) (ctl : Nat) (t : State), t = ([(R.FC_CTL_len, bits ctl 22 16), (R.FC_CTL_quad, bits ctl 15 15),
    (R.FC_CTL_dir, bits ctl 14 14), (R.FC_CTL_dummy, bits ctl 13 10), (R.FC_CTL_addr_bytes, bits ctl 9 8),
    (R.FC_CTL_opcode, bits ctl 7 0)].foldl (fun s p => s.wr p.1 p.2) s) → pageOpen s 0xE = true → bits ctl 22 16 ≤ 64
    → bits ctl 9 8 < 2 → t.on R.FC_CTL_busy = false → (t.on R.BT_CMD_busy = true ∨ inRun t = false) → exec
    (.flashCommand ctl) s = .next (t.wr R.FC_CTL_refused 1)) ∧
  (∀ (s : State) (ctl : Nat), pageOpen s 0xE = true → (64 < bits ctl 22 16 ∨ 2 ≤ bits ctl 9 8) → s.on R.FC_CTL_busy =
    false → exec (.flashCommand ctl) s = .next (s.wr R.FC_CTL_refused 1)) ∧
  (∀ (s : State) (reads : List Nat), s.on R.FC_CTL_busy = true → bit s.bt.fc 14 = false → exec (.flashCommandDone
    reads) s = .next ((List.range (bits s.bt.fc 22 16)).foldl (fun s i => putFcByte i (reads.getD i 0xFF) s) (s.wr
    R.FC_CTL_busy 0))) ∧
  (∀ (s : State) (reads : List Nat), s.on R.FC_CTL_busy = true → bit s.bt.fc 14 = true → exec (.flashCommandDone
    reads) s = .next (s.wr R.FC_CTL_busy 0))

/-- With the page answering and nothing in progress, each go clears wdrop and refused: COMMIT and CHECK begin a check of
the whole staged bank, a go of one link a check of that link's bank with the rest live, with CHECK and check_only
applying nothing; the unit is busy and the check takes its values now (R291, R293, R307). REVERT gives every staged
field its live value. While busy a go sets refused (R292). The check ends with its time in PRK_TIME (R301). A
submission that passes and applies waits for T_apply, the first whole microsecond 2 µs or more later. One that
fails, or only checks, ends: PRK_STAT, PRK_WHERE, PRK_NEED and PRK_LIMIT take the outcome, PRK_CNT counts it
accepted or refused, busy clears and 282 is raised (R300, R301). A re-check that passes writes the proof records
first; one that fails acts on the links it names (recheckFails, R304, R305) and counts on PRK_RECHK_failed. Outside
SERVICE and GUARD the operation ends with STATE (prkState, R307). A re-check held meanwhile then begins. At T_apply
or after, the staged banks take force (applyConfig, R302), the proof records and figures are renewed, the outcome is
reported as applied, and the configuration digest falls due. RECHECK_START begins a re-check, or is held while an
operation runs; in OFF and START there is none (DEDUCED, log 269). -/
def Obligations.PrickingCommands : Prop :=
  (∀ (s : State), pageOpen s 0xC = true → s.on R.PRK_CMD_busy = false → exec .prkCommit s = .next (checkRun
    ({ (((s.wr R.PRK_CMD_op 0).wr R.PRK_STAT_wdrop 0).wr R.PRK_CMD_refused 0) with prk := { busy := true, origin := 0, link := 0, checkOnly := false, heldRecheck := s.prk.heldRecheck } }.wr
    R.PRK_CMD_busy 1))) ∧
  (∀ (s : State), pageOpen s 0xC = true → s.on R.PRK_CMD_busy = false → exec .prkCheck s = .next (checkRun
    ({ (((s.wr R.PRK_CMD_op 1).wr R.PRK_STAT_wdrop 0).wr R.PRK_CMD_refused 0) with prk := { busy := true, origin := 0, link := 0, checkOnly := true, heldRecheck := s.prk.heldRecheck } }.wr
    R.PRK_CMD_busy 1))) ∧
  (∀ (s : State)  (t : State), t = (((s.wr R.PRK_CMD_op 2).wr R.PRK_STAT_wdrop 0).wr R.PRK_CMD_refused 0) → pageOpen s
    0xC = true → s.on R.PRK_CMD_busy = false → exec .prkRevert s = .next ((bankOf s 0 0).foldl (fun u p => u.wr p.1
    (t.rd p.2)) t)) ∧
  (∀ (s : State) (k : Nat) (checkOnly : Bool), k < linksOf s → pageOpen s (0x40 + k) = true → s.on R.PRK_CMD_busy =
    false → exec (.lnkCommit k checkOnly) s = .next (checkRun
    ({ (((s.wrB (R.COMMIT_check_only k) checkOnly).wr R.PRK_STAT_wdrop 0).wr (R.COMMIT_refused k) 0) with prk := { busy := true, origin := 1, link := k, checkOnly := checkOnly, heldRecheck := s.prk.heldRecheck } }.wr
    R.PRK_CMD_busy 1))) ∧
  (∀ (s : State), pageOpen s 0xC = true → s.on R.PRK_CMD_busy = true → exec .prkCommit s = .next (((s.wr R.PRK_CMD_op
    0).wr R.PRK_STAT_wdrop 0).wr R.PRK_CMD_refused 1)) ∧
  (∀ (s : State), pageOpen s 0xC = true → s.on R.PRK_CMD_busy = true → exec .prkCheck s = .next (((s.wr R.PRK_CMD_op
    1).wr R.PRK_STAT_wdrop 0).wr R.PRK_CMD_refused 1)) ∧
  (∀ (s : State), pageOpen s 0xC = true → s.on R.PRK_CMD_busy = true → exec .prkRevert s = .next (((s.wr R.PRK_CMD_op
    2).wr R.PRK_STAT_wdrop 0).wr R.PRK_CMD_refused 1)) ∧
  (∀ (s : State) (k : Nat) (checkOnly : Bool), k < linksOf s → pageOpen s (0x40 + k) = true → s.on R.PRK_CMD_busy =
    true → exec (.lnkCommit k checkOnly) s = .next (((s.wrB (R.COMMIT_check_only k) checkOnly).wr R.PRK_STAT_wdrop
    0).wr (R.COMMIT_refused k) 1)) ∧
  (∀ (s : State)  (t : State), t = s.wr R.PRK_TIME_us (min ((s.clock - s.prk.startedAt) / 1000) 0xFFFF) → s.prk.busy =
    true → s.prk.applyAt = none → inService s = true → s.prk.origin < 2 → s.prk.verdict.getD 0 0 = 1 → s.prk.checkOnly
    = false → exec .checkEnd s = .next
    ({ t with prk := { t.prk with applyAt := some ((s.fab + 2999) / 1000 * 1000) } })) ∧
  (∀ (s : State)  (t u : State), t = s.wr R.PRK_TIME_us (min ((s.clock - s.prk.startedAt) / 1000) 0xFFFF) → u =
    (prkReport s.prk.verdict false t).bump R.PRK_CNT_refused → s.prk.busy = true → s.prk.applyAt = none → inService s
    = true → s.prk.origin < 2 → s.prk.verdict.getD 0 0 ≠ 1 → s.prk.heldRecheck = false → exec .checkEnd s = .next
    (({ u with prk := {} }.wr R.PRK_CMD_busy 0).raise 282)) ∧
  (∀ (s : State)  (t u : State), t = s.wr R.PRK_TIME_us (min ((s.clock - s.prk.startedAt) / 1000) 0xFFFF) → u =
    (prkReport s.prk.verdict false t).bump R.PRK_CNT_accepted → s.prk.busy = true → s.prk.applyAt = none → inService s
    = true → s.prk.origin < 2 → s.prk.verdict.getD 0 0 = 1 → s.prk.checkOnly = true → s.prk.heldRecheck = false → exec
    .checkEnd s = .next (({ u with prk := {} }.wr R.PRK_CMD_busy 0).raise 282)) ∧
  (∀ (s : State)  (t u : State), t = s.wr R.PRK_TIME_us (min ((s.clock - s.prk.startedAt) / 1000) 0xFFFF) → u =
    prkReport s.prk.verdict false (proofWrite t) → s.prk.busy = true → s.prk.applyAt = none → inService s = true →
    s.prk.origin = 2 → s.prk.verdict.getD 0 0 = 1 → u.prk.origin = 2 → u.prk.heldRecheck = false → exec .checkEnd s =
    .next (({ u with prk := {} }.wr R.PRK_CMD_busy 0).raise 282)) ∧
  (∀ (s : State)  (t u : State), t = s.wr R.PRK_TIME_us (min ((s.clock - s.prk.startedAt) / 1000) 0xFFFF) → u =
    prkReport s.prk.verdict false (recheckFails s.prk.verdict t) → s.prk.busy = true → s.prk.applyAt = none →
    inService s = true → s.prk.origin = 2 → s.prk.verdict.getD 0 0 ≠ 1 → u.prk.origin = 2 → u.prk.heldRecheck = false
    → exec .checkEnd s = .next (({ (u.bump R.PRK_RECHK_failed) with prk := {} }.wr R.PRK_CMD_busy 0).raise 282)) ∧
  (∀ (s : State)  (t u : State), t = s.wr R.PRK_TIME_us (min ((s.clock - s.prk.startedAt) / 1000) 0xFFFF) → u =
    (prkReport s.prk.verdict false t).bump R.PRK_CNT_refused → s.prk.busy = true → s.prk.applyAt = none → inService s
    = true → s.prk.origin < 2 → s.prk.verdict.getD 0 0 ≠ 1 → s.prk.heldRecheck = true → exec .checkEnd s = .next
    (startRecheck 0 (({ u with prk := {} }.wr R.PRK_CMD_busy 0).raise 282))) ∧
  (∀ (s : State)  (t : State), t = s.wr R.PRK_TIME_us (min ((s.clock - s.prk.startedAt) / 1000) 0xFFFF) → s.prk.busy =
    true → s.prk.applyAt = none → inService s = false → exec .checkEnd s = .next (prkEnd [2, 0, 0, 0, stateWord t, 0]
    false t)) ∧
  (∀ (s : State)  (t u : State) (at0 : Nat), t = applyConfig s → u = prkEnd s.prk.verdict true (applyFigures
    (proofWrite { t with prk := { s.prk with heldRecheck := t.prk.heldRecheck } })) → s.prk.applyAt = some at0 → at0 ≤
    s.fab → inService s = true → exec .tApply s = .next
    ({ u with sec := { u.sec with digestDue := true, applyStat := rawWord u 0xC 0x44 } })) ∧
  (∀ (s : State)  (at0 : Nat), s.prk.applyAt = some at0 → at0 ≤ s.fab → inService s = false → exec .tApply s = .next
    (prkEnd [2, 0, 0, 0, stateWord s, 0] false s)) ∧
  (∀ (s : State) (trigger : Nat), s.dev.phase ≠ .off → s.dev.phase ≠ .start → s.prk.busy = false → exec (.recheckStart
    trigger) s = .next (checkRun
    ({ s with prk := { busy := true, origin := 2, link := 0, checkOnly := false, heldRecheck := s.prk.heldRecheck } }.wr
    R.PRK_CMD_busy 1))) ∧
  (∀ (s : State) (trigger : Nat), s.dev.phase ≠ .off → s.dev.phase ≠ .start → s.prk.busy = true → exec (.recheckStart
    trigger) s = .next ({ s with prk := { s.prk with heldRecheck := true } })) ∧
  (∀ (s : State) (trigger : Nat), (s.dev.phase = .off ∨ s.dev.phase = .start) → exec (.recheckStart trigger) s = .next
    (s))

/-- With the MAP page answering, on a map entry or data lane of the part. A write of SIDE_MAP stores valid, hint and
base. Clearing a valid entry of a configured link first takes its spans down with fault LANES, gives its lanes up
and starts the drain of 1 µs (mapBreak, R313); MAP_STAT follows. Making an entry valid takes up a new generation
and, for a configured link, trains it, or lets a span in DOWN go on (R312, R313). A write that leaves valid as it
was and changes the lanes that the words name, of a valid entry of a configured link, is a direct change
(directChange: next generation, the old lanes kept 2 µs while caches refresh) and raises 283 (tornRaise, R314,
R315); with no change it only stores. A write of LANE_POS stores both sides' valid, link and position and changes
each side that it names before or after in the same way, with 283 once (DEDUCED, log 100). Once the drain is over it
ends and MAP_STAT follows. Once the torn window is over, the lanes given up leave the link (lanesLeave) and their
acquisition and tracking, and bobbins that stand in for none are released; then a TRANSPARENT link starts again
(DEDUCED, log 102), an IDLE span stays, one in DOWN may go on, one whose map is bad goes DOWN with LANES, one UP or
retraining retrains on its lanes, and any other enters DETECT (R312, R314). A cluster's refresh drops its cached
entry (R315). The times are fabric times (log 244). -/
def Obligations.MapCommands : Prop :=
  (∀ (s : State) (e : Nat) (v : Nat) (k : Nat) (sd : Side), k = e / 2 → sd = Side.ofIdx (e % 2) → e < 2 * linksOf s →
    pageOpen s 0xD = true → s.on (R.SIDE_MAP_valid e) = true → bit v 31 = false → modeOf s k ≠ 0 → exec (.sideMapWrite
    e v) s = .next (syncMapStat ((((mapBreak e s).wrB (R.SIDE_MAP_valid e) (bit v 31)).wrB (R.SIDE_MAP_hint e) (bit v
    30)).wr (R.SIDE_MAP_base e) (v % 128)))) ∧
  (∀ (s : State) (e : Nat) (v : Nat) (k : Nat) (sd : Side), k = e / 2 → sd = Side.ofIdx (e % 2) → e < 2 * linksOf s →
    pageOpen s 0xD = true → s.on (R.SIDE_MAP_valid e) = true → bit v 31 = false → modeOf s k = 0 → exec (.sideMapWrite
    e v) s = .next (syncMapStat ((((s.putMap e { drainUntil := (s.map e).drainUntil }).wrB (R.SIDE_MAP_valid e) (bit v
    31)).wrB (R.SIDE_MAP_hint e) (bit v 30)).wr (R.SIDE_MAP_base e) (v % 128)))) ∧
  (∀ (s : State) (e : Nat) (v : Nat) (k : Nat) (sd : Side) (t : State), k = e / 2 → sd = Side.ofIdx (e % 2) → t =
    genUp e ((((s).wrB (R.SIDE_MAP_valid e) (bit v 31)).wrB (R.SIDE_MAP_hint e) (bit v 30)).wr (R.SIDE_MAP_base e) (v
    % 128)) → e < 2 * linksOf s → pageOpen s 0xD = true → s.on (R.SIDE_MAP_valid e) = false → bit v 31 = true → modeOf
    t k = 0 → exec (.sideMapWrite e v) s = .next (t)) ∧
  (∀ (s : State) (e : Nat) (v : Nat) (k : Nat) (sd : Side) (t u : State), k = e / 2 → sd = Side.ofIdx (e % 2) → t =
    genUp e ((((s).wrB (R.SIDE_MAP_valid e) (bit v 31)).wrB (R.SIDE_MAP_hint e) (bit v 30)).wr (R.SIDE_MAP_base e) (v
    % 128)) → u = linkTrain false k t → e < 2 * linksOf s → pageOpen s 0xD = true → s.on (R.SIDE_MAP_valid e) = false
    → bit v 31 = true → modeOf t k ≠ 0 → exec (.sideMapWrite e v) s = .next ((usedSides t k).foldl (fun s sd =>
    downRestart k sd s) u)) ∧
  (∀ (s : State) (e : Nat) (v : Nat) (k : Nat) (sd : Side) (t : State), k = e / 2 → sd = Side.ofIdx (e % 2) → t =
    ((((s).wrB (R.SIDE_MAP_valid e) (bit v 31)).wrB (R.SIDE_MAP_hint e) (bit v 30)).wr (R.SIDE_MAP_base e) (v % 128))
    → e < 2 * linksOf s → pageOpen s 0xD = true → s.on (R.SIDE_MAP_valid e) = bit v 31 → (t.on (R.SIDE_MAP_valid e) =
    false ∨ mapNamed s k sd = mapNamed t k sd) → exec (.sideMapWrite e v) s = .next (t)) ∧
  (∀ (s : State) (e : Nat) (v : Nat) (k : Nat) (sd : Side) (t : State), k = e / 2 → sd = Side.ofIdx (e % 2) → t =
    ((((s).wrB (R.SIDE_MAP_valid e) (bit v 31)).wrB (R.SIDE_MAP_hint e) (bit v 30)).wr (R.SIDE_MAP_base e) (v % 128))
    → e < 2 * linksOf s → pageOpen s 0xD = true → s.on (R.SIDE_MAP_valid e) = bit v 31 → t.on (R.SIDE_MAP_valid e) =
    true → mapNamed s k sd ≠ mapNamed t k sd → modeOf t k ≠ 0 → exec (.sideMapWrite e v) s = .next (tornRaise [e]
    (directChange e (sideLanes s k sd) (mapWords s k sd) t))) ∧
  (∀ (s : State) (n : Nat) (v : Nat) (es : List Nat) (r : List Nat × State) (t : State), t = (((((s.wrB
    (R.LANE_POS_valid n 0) (bit v 15)).wr (R.LANE_POS_link n 0) (bits v 14 8)).wr (R.LANE_POS_pos n 0) (v % 16)).wrB
    (R.LANE_POS_valid n 1) (bit (v / 65536) 15)).wr (R.LANE_POS_link n 1) (bits (v / 65536) 14 8)).wr (R.LANE_POS_pos
    n 1) (v / 65536 % 16) → es = (List.range 256).filter (posNames s n 0 ++ posNames t n 0 ++ (posNames s n 1 ++
    posNames t n 1)).contains → r = (es.foldl (fun (a : List Nat × State) e => (if (lanesChanged s e a.2).1 then a.1
    ++ [e] else a.1, (lanesChanged s e a.2).2)) ([], t)) → n < lanesOf s → pageOpen s 0xD = true → exec (.lanePosWrite
    n v) s = .next (tornRaise r.1 r.2)) ∧
  (∀ (s : State) (e : Nat), e < 2 * linksOf s → passed (s.map e).drainUntil 0 s.fab = true → exec (.mapDrainEnd e) s =
    .next (syncMapStat (s.putMap e { s.map e with drainUntil := none }))) ∧
  (∀ (s : State) (e : Nat) (k : Nat) (sd : Side) (old gone : List Nat) (t u w : State), k = e / 2 → sd = Side.ofIdx (e
    % 2) → old = sideLanes s k sd → t = syncMapStat (s.putMap e { drainUntil := (s.map e).drainUntil }) → gone =
    (old.filter (fun n => !(sideLanes t k sd).contains n)) → w = (gone.foldl (fun s n => acqCancel n sd (adaptLeaves n
    sd s)) (lanesLeave k sd gone t)) → u = (((old.map laneCluster).eraseDups).foldl (fun s c => bobRelease c
    (bobFinish c s)) w) → e < 2 * linksOf s → passed (s.map e).tornUntil 0 s.fab = true → modeOf u k = mTransparent →
    exec (.mapTornEnd e) s = .next (linkTrain false k u)) ∧
  (∀ (s : State) (e : Nat) (k : Nat) (sd : Side) (old gone : List Nat) (t u w : State), k = e / 2 → sd = Side.ofIdx (e
    % 2) → old = sideLanes s k sd → t = syncMapStat (s.putMap e { drainUntil := (s.map e).drainUntil }) → gone =
    (old.filter (fun n => !(sideLanes t k sd).contains n)) → w = (gone.foldl (fun s n => acqCancel n sd (adaptLeaves n
    sd s)) (lanesLeave k sd gone t)) → u = (((old.map laneCluster).eraseDups).foldl (fun s c => bobRelease c
    (bobFinish c s)) w) → e < 2 * linksOf s → passed (s.map e).tornUntil 0 s.fab = true → modeOf u k ≠ mTransparent →
    spanState u k sd = spIdle → exec (.mapTornEnd e) s = .next (u)) ∧
  (∀ (s : State) (e : Nat) (k : Nat) (sd : Side) (old gone : List Nat) (t u w : State), k = e / 2 → sd = Side.ofIdx (e
    % 2) → old = sideLanes s k sd → t = syncMapStat (s.putMap e { drainUntil := (s.map e).drainUntil }) → gone =
    (old.filter (fun n => !(sideLanes t k sd).contains n)) → w = (gone.foldl (fun s n => acqCancel n sd (adaptLeaves n
    sd s)) (lanesLeave k sd gone t)) → u = (((old.map laneCluster).eraseDups).foldl (fun s c => bobRelease c
    (bobFinish c s)) w) → e < 2 * linksOf s → passed (s.map e).tornUntil 0 s.fab = true → modeOf u k ≠ mTransparent →
    spanState u k sd = spDown → exec (.mapTornEnd e) s = .next (downRestart k sd u)) ∧
  (∀ (s : State) (e : Nat) (k : Nat) (sd : Side) (old gone : List Nat) (t u w : State), k = e / 2 → sd = Side.ofIdx (e
    % 2) → old = sideLanes s k sd → t = syncMapStat (s.putMap e { drainUntil := (s.map e).drainUntil }) → gone =
    (old.filter (fun n => !(sideLanes t k sd).contains n)) → w = (gone.foldl (fun s n => acqCancel n sd (adaptLeaves n
    sd s)) (lanesLeave k sd gone t)) → u = (((old.map laneCluster).eraseDups).foldl (fun s c => bobRelease c
    (bobFinish c s)) w) → e < 2 * linksOf s → passed (s.map e).tornUntil 0 s.fab = true → modeOf u k ≠ mTransparent →
    spanState u k sd ≠ spIdle → spanState u k sd ≠ spDown → liveMapBad u k sd = true → exec (.mapTornEnd e) s = .next
    (linkDown k ftLanes false u)) ∧
  (∀ (s : State) (e : Nat) (k : Nat) (sd : Side) (old gone : List Nat) (t u w : State), k = e / 2 → sd = Side.ofIdx (e
    % 2) → old = sideLanes s k sd → t = syncMapStat (s.putMap e { drainUntil := (s.map e).drainUntil }) → gone =
    (old.filter (fun n => !(sideLanes t k sd).contains n)) → w = (gone.foldl (fun s n => acqCancel n sd (adaptLeaves n
    sd s)) (lanesLeave k sd gone t)) → u = (((old.map laneCluster).eraseDups).foldl (fun s c => bobRelease c
    (bobFinish c s)) w) → e < 2 * linksOf s → passed (s.map e).tornUntil 0 s.fab = true → modeOf u k ≠ mTransparent →
    spanState u k sd = spUp → liveMapBad u k sd = false → exec (.mapTornEnd e) s = .next (lanesRetrain k sd u)) ∧
  (∀ (s : State) (e : Nat) (k : Nat) (sd : Side) (old gone : List Nat) (t u w : State), k = e / 2 → sd = Side.ofIdx (e
    % 2) → old = sideLanes s k sd → t = syncMapStat (s.putMap e { drainUntil := (s.map e).drainUntil }) → gone =
    (old.filter (fun n => !(sideLanes t k sd).contains n)) → w = (gone.foldl (fun s n => acqCancel n sd (adaptLeaves n
    sd s)) (lanesLeave k sd gone t)) → u = (((old.map laneCluster).eraseDups).foldl (fun s c => bobRelease c
    (bobFinish c s)) w) → e < 2 * linksOf s → passed (s.map e).tornUntil 0 s.fab = true → modeOf u k ≠ mTransparent →
    spanState u k sd ≠ spIdle → spanState u k sd ≠ spDown → liveMapBad u k sd = false → spanState u k sd ≠ spUp →
    spanRetraining u k sd = false → exec (.mapTornEnd e) s = .next (detectEnter k sd true false u)) ∧
  (∀ (s : State) (c : Nat) (e : Nat), c < clustersOf s → e < 2 * linksOf s → exec (.mapCacheRefresh c e) s = .next
    (s.putMap e { s.map e with caches := (s.map e).caches.filter fun p => p.1 ≠ c }))

/-- In a cluster of the part. The limit on the acquisition of an asked side notes it ended, and the next new RX end asks
for its own at the rung of its span (nextAsk, R319, R320). A side whose new end is ready (maySwitch) switches: its
position is taken from the new lane (bobMove), its done bit is set, the interruption of a failed RX end of that side
ends, a span in training restarts ACQUIRE at its rung, and a swap or return with no side left is done (bobFinish,
R316, R320, R325). A swap or return past 20 µs, the time that clock events held it apart (DEDUCED, log 243), or
whose bobbin has a fault class, is abandoned: switched sides go back, the new ends rest and the old ones go on, it
counts and reads ABANDONED, 16c + 11 is raised; a swap leaves the bobbin READY, or OUT when faulty, and the sides of
failed ends go down; a return leaves it IN (R316). A side's old TX end goes idle 10 µs after its new end began the
duplicate (R321). With the MAP page answering SWP_CMD stores op, cluster and position. SWAP of a READY bobbin for a
lane it may stand in for stops loops and calibration runs there, reads SWAPPING from now, and takes its steps
(swapGo; swapDetectGo where every used span is in DETECT, R319). RETURN of one IN with both data ends sound reads
RETURNING and takes its steps. ENABLE of one OUT aborts a running slice of the die with cause HOST and starts its
own (DEDUCED, log 105). DISABLE of a READY one ends its slice and takes it OUT, its ends idle (R326). A command that
its state does not allow sets refused, its fields stored (DEDUCED, log 106). -/
def Obligations.BobbinCommands : Prop :=
  (∀ (s : State) (c : Nat) (sd : Side) (t : State), t = (s.putBob c
    { s.bob c with acqDone := (s.bob c).acqDone ++ [sd.idx] }) → c < clustersOf s → (s.bob c).asked.contains sd.idx =
    true → (s.bob c).acqDone.contains sd.idx = false → nextAsk t c = none → exec (.bobbinAcqLimit c sd) s = .next (t)) ∧
  (∀ (s : State) (c : Nat) (sd : Side) (x : Side) (k : Nat) (t u : State), t = (s.putBob c
    { s.bob c with acqDone := (s.bob c).acqDone ++ [sd.idx] }) → u = t.putBob c
    { t.bob c with asked := (t.bob c).asked ++ [x.idx] } → c < clustersOf s → (s.bob c).asked.contains sd.idx = true →
    (s.bob c).acqDone.contains sd.idx = false → nextAsk t c = some (x, k) → exec (.bobbinAcqLimit c sd) s = .next
    (acqRequest (newLane u c) x (spanRung u k x) u)) ∧
  (∀ (s : State) (c : Nat) (sd : Side) (k q : Nat) (t u : State), t = (syncCluster c (bobMove c sd (bobState s c =
    bbSwapping) s)).wr (R.BOB_STAT_done c sd.idx) 1 → u = (if (bobState s c = bbSwapping) && (t.bob c).intr = sd.idx
    && !(t.bob c).txFail then intrEnd c (some t.clock) t else t) → c < clustersOf s → maySwitch s c sd = true →
    laneUse u (bobLane u c) sd = some (k, q) → (spAcquire ≤ spanState u k sd && spanState u k sd ≤ spArmed &&
    spanState u k sd ≠ spSwitch) = false → exec (.bobbinSwitch c sd) s = .next (bobFinish c u)) ∧
  (∀ (s : State) (c : Nat) (sd : Side) (k q : Nat) (t u : State), t = (syncCluster c (bobMove c sd (bobState s c =
    bbSwapping) s)).wr (R.BOB_STAT_done c sd.idx) 1 → u = (if (bobState s c = bbSwapping) && (t.bob c).intr = sd.idx
    && !(t.bob c).txFail then intrEnd c (some t.clock) t else t) → c < clustersOf s → maySwitch s c sd = true →
    laneUse u (bobLane u c) sd = some (k, q) → (spAcquire ≤ spanState u k sd && spanState u k sd ≤ spArmed &&
    spanState u k sd ≠ spSwitch) = true → exec (.bobbinSwitch c sd) s = .next (bobFinish c ((acquireEnter k sd
    (spanRung u k sd) u).modSpan k sd fun x => { x with acqFrom := (u.span k sd).acqFrom }))) ∧
  (∀ (s : State) (c : Nat) (why : Nat) (t u v w z : State), why = (if bobFaulty s c then owFault else 0) → t =
    ((bobUsed s c).foldl (fun x u => if bobSwitched x c u.1 then bobMove c u.1 false x else x) (intrEnd c none s)) → u
    = spareRest c (newLane s c) (oldWake c (oldLane s c) t) → v = u.putBob c
    { u.bob c with dupA := none, dupB := none, rested := [] } → w = (v.bump (R.BOB_CNT_abandons c)).wr
    (R.BOB_STAT_result c) swAbandoned → c < clustersOf s → (swapOver s c || bobFaulty s c) = true → z = ((w.putBob c
    { w.bob c with dropped := [] }).wr (R.BOB_STAT_state c) (if why = 0 then bbReady else bbOut)) → bobState s c =
    bbSwapping → exec (.swapAbandon c) s = .next ((s.bob c).fails.foldl (fun s i => laneDown (bobLane s c) (Side.ofIdx
    i) s) (syncCluster c ((bobClear c (bobRest c (if why ≠ 0 then z.wr (R.BOB_STAT_out_why c) why else z))).raise (16
    * c + 11))))) ∧
  (∀ (s : State) (c : Nat) (t u v w z : State), t = ((bobUsed s c).foldl (fun x u => if bobSwitched x c u.1 then
    bobMove c u.1 true x else x) (intrEnd c none s)) → u = spareRest c (newLane s c) (oldWake c (oldLane s c) t) → v =
    u.putBob c { u.bob c with dupA := none, dupB := none, rested := [] } → w = (v.bump (R.BOB_CNT_abandons c)).wr
    (R.BOB_STAT_result c) swAbandoned → c < clustersOf s → (swapOver s c || bobFaulty s c) = true → z = ((w.putBob c
    { w.bob c with dropped := [] }).wr (R.BOB_STAT_state c) bbIn) → bobState s c = bbReturning → exec (.swapAbandon c)
    s = .next (syncCluster c ((bobClear c (laneTxIdle (bobLane z c) (laneOut (bobLane z c) .b (laneOut (bobLane z c)
    .a z)))).raise (16 * c + 11)))) ∧
  (∀ (s : State) (c : Nat) (old : Nat) (t : State), old = bobLane s c → t = (s.txRest old .a).putBob c
    { s.bob c with rested := (s.bob c).rested ++ [0] } → c < clustersOf s → bobState s c ≠ bbReturning → bobState s c
    ≠ bbReady → passed ((s.bob c).dup .a) 10000 s.clock = true → (s.bob c).rested.contains 0 = false → passed ((t.bob
    c).dup .b) 10000 t.clock = false → exec (.oldTxIdle c) s = .next (t)) ∧
  (∀ (s : State) (c : Nat) (old : Nat), old = bobLane s c → c < clustersOf s → bobState s c ≠ bbReturning → bobState s
    c ≠ bbReady → passed ((s.bob c).dup .b) 10000 s.clock = true → (s.bob c).rested.contains 1 = false → passed
    ((s.bob c).dup .a) 10000 s.clock = false → exec (.oldTxIdle c) s = .next ((s.txRest old .b).putBob c
    { s.bob c with rested := (s.bob c).rested ++ [1] })) ∧
  (∀ (s : State) (c : Nat) (old : Nat) (t : State), old = 128 + c → t = (s.txRest old .a).putBob c
    { s.bob c with rested := (s.bob c).rested ++ [0] } → c < clustersOf s → (bobState s c = bbReturning ∨ bobState s c
    = bbReady) → passed ((s.bob c).dup .a) 10000 s.clock = true → (s.bob c).rested.contains 0 = false → passed ((t.bob
    c).dup .b) 10000 t.clock = false → exec (.oldTxIdle c) s = .next (t)) ∧
  (∀ (s : State) (c : Nat) (old : Nat), old = 128 + c → c < clustersOf s → (bobState s c = bbReturning ∨ bobState s c
    = bbReady) → passed ((s.bob c).dup .b) 10000 s.clock = true → (s.bob c).rested.contains 1 = false → passed ((s.bob
    c).dup .a) 10000 s.clock = false → exec (.oldTxIdle c) s = .next ((s.txRest old .b).putBob c
    { s.bob c with rested := (s.bob c).rested ++ [1] })) ∧
  (∀ (s : State) (c : Nat) (pos : Nat) (t u v w x : State), t = ((((s.wr R.SWP_CMD_op 0).wr R.SWP_CMD_cluster c).wr
    R.SWP_CMD_pos pos).wr R.SWP_CMD_refused 0) → u = (engineNext c ([8, 17, 26, 35].foldl (fun s e => calAbort c e s)
    (loopStop (laneAt c pos) (bobPreempt (clusterDie c) c t)))) → v = ((((u.wr (R.BOB_STAT_pos c) pos).wr
    (R.BOB_STAT_cause c) swHost).wr (R.BOB_STAT_done c 0) 0).wr (R.BOB_STAT_done c 1) 0).wr (R.BOB_TIME_ns c) 0 → w =
    bobClear c (v.wr (R.BOB_STAT_state c) bbSwapping) → x = w.putBob c
    { w.bob c with since := w.clock, held := 0, failedSide := 2, inA := false, inB := false, dropped := [], dupA := none, dupB := none, rested := [], nbrAt := none, fails := [], intr := 2, txFail := false }
    → c < clustersOf s → pageOpen s 0xD = true → swapOk s c pos = true → (bobUsed x c).find? (fun u => u.1.idx = 2) =
    none → (bobUsed x c).all (fun u => inDetect x u || spanRung x u.2.1 u.1 = 7) = false → exec (.swpSwap c pos) s =
    .next (swapGo c x)) ∧
  (∀ (s : State) (c : Nat) (pos : Nat) (t u v w x : State), t = ((((s.wr R.SWP_CMD_op 0).wr R.SWP_CMD_cluster c).wr
    R.SWP_CMD_pos pos).wr R.SWP_CMD_refused 0) → u = (engineNext c ([8, 17, 26, 35].foldl (fun s e => calAbort c e s)
    (loopStop (laneAt c pos) (bobPreempt (clusterDie c) c t)))) → v = ((((u.wr (R.BOB_STAT_pos c) pos).wr
    (R.BOB_STAT_cause c) swHost).wr (R.BOB_STAT_done c 0) 0).wr (R.BOB_STAT_done c 1) 0).wr (R.BOB_TIME_ns c) 0 → w =
    bobClear c (v.wr (R.BOB_STAT_state c) bbSwapping) → x = w.putBob c
    { w.bob c with since := w.clock, held := 0, failedSide := 2, inA := false, inB := false, dropped := [], dupA := none, dupB := none, rested := [], nbrAt := none, fails := [], intr := 2, txFail := false }
    → c < clustersOf s → pageOpen s 0xD = true → swapOk s c pos = true → (bobUsed x c).find? (fun u => u.1.idx = 2) =
    none → (bobUsed x c).all (fun u => inDetect x u || spanRung x u.2.1 u.1 = 7) = true → exec (.swpSwap c pos) s =
    .next (swapDetectGo c (x.putBob c { x.bob c with detect := true }))) ∧
  (∀ (s : State) (c : Nat) (pos : Nat), c < clustersOf s → pageOpen s 0xD = true → swapOk s c pos = false → exec
    (.swpSwap c pos) s = .next ((((s.wr R.SWP_CMD_op 0).wr R.SWP_CMD_cluster c).wr R.SWP_CMD_pos pos).wr
    R.SWP_CMD_refused 1)) ∧
  (∀ (s : State) (c : Nat) (t u v : State), t = ((((s.wr R.SWP_CMD_op 1).wr R.SWP_CMD_cluster c).wr R.SWP_CMD_pos
    (s.rd R.SWP_CMD_pos)).wr R.SWP_CMD_refused 0) → u = loopStop (bobLane t c) ((t.wr (R.BOB_STAT_done c 0) 0).wr
    (R.BOB_STAT_done c 1) 0) → v = bobClear c (u.wr (R.BOB_STAT_state c) bbReturning) → c < clustersOf s → pageOpen s
    0xD = true → bobState s c = bbIn → endFaulty s (bobLane s c) .a = false → endFaulty s (bobLane s c) .b = false →
    exec (.swpReturn c) s = .next (swapGo c (v.putBob c
    { v.bob c with since := v.clock, held := 0, dropped := [], dupA := none, dupB := none, rested := [] }))) ∧
  (∀ (s : State) (c : Nat), c < clustersOf s → pageOpen s 0xD = true → (bobState s c ≠ bbIn ∨ endFaulty s (bobLane s
    c) .a = true ∨ endFaulty s (bobLane s c) .b = true) → exec (.swpReturn c) s = .next ((((s.wr R.SWP_CMD_op 1).wr
    R.SWP_CMD_cluster c).wr R.SWP_CMD_pos (s.rd R.SWP_CMD_pos)).wr R.SWP_CMD_refused 1)) ∧
  (∀ (s : State) (c : Nat) (t : State), t = ((((s.wr R.SWP_CMD_op 2).wr R.SWP_CMD_cluster c).wr R.SWP_CMD_pos (s.rd
    R.SWP_CMD_pos)).wr R.SWP_CMD_refused 0) → c < clustersOf s → pageOpen s 0xD = true → bobState s c = bbOut → exec
    (.swpEnable c) s = .next (bobSliceStart c true (if (bobSliceOf t (clusterDie c)).isSome then bobSliceCut
    (clusterDie c) resAborted causeHost t else t))) ∧
  (∀ (s : State) (c : Nat), c < clustersOf s → pageOpen s 0xD = true → bobState s c ≠ bbOut → exec (.swpEnable c) s =
    .next ((((s.wr R.SWP_CMD_op 2).wr R.SWP_CMD_cluster c).wr R.SWP_CMD_pos (s.rd R.SWP_CMD_pos)).wr R.SWP_CMD_refused
    1)) ∧
  (∀ (s : State) (c : Nat) (t u : State), t = ((((s.wr R.SWP_CMD_op 3).wr R.SWP_CMD_cluster c).wr R.SWP_CMD_pos (s.rd
    R.SWP_CMD_pos)).wr R.SWP_CMD_refused 0) → u = (if (t.bob c).slice then bobSliceCut (clusterDie c) resAborted
    causeHost t else t) → c < clustersOf s → pageOpen s 0xD = true → bobState s c = bbReady → exec (.swpDisable c) s =
    .next (bobRest c ((u.wr (R.BOB_STAT_state c) bbOut).wr (R.BOB_STAT_out_why c) 1))) ∧
  (∀ (s : State) (c : Nat), c < clustersOf s → pageOpen s 0xD = true → bobState s c ≠ bbReady → exec (.swpDisable c) s
    = .next ((((s.wr R.SWP_CMD_op 3).wr R.SWP_CMD_cluster c).wr R.SWP_CMD_pos (s.rd R.SWP_CMD_pos)).wr
    R.SWP_CMD_refused 1))

/-- While REFCLK is judged, a native pass under the native judge, or a compatibility run with the IFO ready, of 3,973 to
4,219 cycles and no edge missed, makes it good with that method: the hold time runs from now, the monitor arms where
the IFO is ready in FULL; at a first start the PLLs not locked yet lock to it, else with the IFO not ready the
stopped and held-over ones return; the directions, slices and spans that waited go on (R329 to R332, R335, R336). A
compatibility run outside counts a failure and the next judgement is by the judge then in force (R331, R332). The
IFO ready, out of OFF and WATCH, clears ifo_low, arms the monitor and ends the always-on domain's use of REFCLK; at
a first start without a good REFCLK the PLLs not locked yet lock to it (R333, R338). Not ready 200 µs after reset,
START fails with cause 2, once (R333, R473). A measurement stores ppm (R334). The armed monitor stores its count, at
most 2,047; outside 973 to 1,075 the PLLs on REFCLK or in holdover move to the IFO and REFCLK is bad (refclkBad),
with 256 and a trip counted, at once unless a PLL is stopped (R335, R336; log 264). The return hold over,
auto_return returns the PLLs; without it a write of CLK_CFG that sets it does (R337, R356). The IFO lost while ready
and FULL fails a compatibility run in progress, clears ready and, in SERVICE or GUARD, raises 257: with REFCLK good
the PLLs and the always-on domain take that, else the PLLs hold over (R338, R355). -/
def Obligations.ReferenceClocks : Prop :=
  (∀ (s : State)  (t u : State), t =
    { s with clk := { s.clk with nativeOk := s.clk.nativeOk || decide (s.dev.phase = Phase.start) } } → u = armMonitor
    { (t.wr R.CLK_STAT_refclk_good 1).wr R.CLK_STAT_judge_used 0 with clk := { t.clk with goodSince := some t.clock, holdPassed := false, rejudge := false } }
    → judging t = true → t.clk.judgeNow = false → clocksStarting u = true → exec .nativeJudgePass s = .next (detectAll
    (suspectSlices (refclkBack (pllsStart 0 u))))) ∧
  (∀ (s : State)  (t u : State), t =
    { s with clk := { s.clk with nativeOk := s.clk.nativeOk || decide (s.dev.phase = Phase.start) } } → u = armMonitor
    { (t.wr R.CLK_STAT_refclk_good 1).wr R.CLK_STAT_judge_used 0 with clk := { t.clk with goodSince := some t.clock, holdPassed := false, rejudge := false } }
    → judging t = true → t.clk.judgeNow = false → clocksStarting u = false → u.on R.CLK_STAT_ifo_ready = true → exec
    .nativeJudgePass s = .next (detectAll (suspectSlices (refclkBack (u))))) ∧
  (∀ (s : State)  (t u : State), t =
    { s with clk := { s.clk with nativeOk := s.clk.nativeOk || decide (s.dev.phase = Phase.start) } } → u = armMonitor
    { (t.wr R.CLK_STAT_refclk_good 1).wr R.CLK_STAT_judge_used 0 with clk := { t.clk with goodSince := some t.clock, holdPassed := false, rejudge := false } }
    → judging t = true → t.clk.judgeNow = false → clocksStarting u = false → u.on R.CLK_STAT_ifo_ready = false → exec
    .nativeJudgePass s = .next (detectAll (suspectSlices (refclkBack (pllsWith [2, 3] pllReturn u))))) ∧
  (∀ (s : State) (cycles : Nat) (u : State), u = armMonitor
    { (s.wr R.CLK_STAT_refclk_good 1).wr R.CLK_STAT_judge_used 1 with clk := { s.clk with goodSince := some s.clock, holdPassed := false, rejudge := false } }
    → judging s = true → (s.clk.judgeNow || judgeCompat s) = true → s.on R.CLK_STAT_ifo_ready = true → 3973 ≤ cycles →
    cycles ≤ 4219 → clocksStarting u = false → u.on R.CLK_STAT_ifo_ready = true → exec (.compatJudgeEnd cycles false)
    s = .next (detectAll (suspectSlices (refclkBack (u))))) ∧
  (∀ (s : State) (cycles : Nat) (u : State), u = armMonitor
    { (s.wr R.CLK_STAT_refclk_good 1).wr R.CLK_STAT_judge_used 1 with clk := { s.clk with goodSince := some s.clock, holdPassed := false, rejudge := false } }
    → judging s = true → (s.clk.judgeNow || judgeCompat s) = true → s.on R.CLK_STAT_ifo_ready = true → 3973 ≤ cycles →
    cycles ≤ 4219 → clocksStarting u = true → exec (.compatJudgeEnd cycles false) s = .next (detectAll (suspectSlices
    (refclkBack (pllsStart 0 u))))) ∧
  (∀ (s : State) (cycles : Nat) (missed : Bool) (t : State), t = s.bump R.CLK_CNT_judge_fail → judging s = true →
    (s.clk.judgeNow || judgeCompat s) = true → s.on R.CLK_STAT_ifo_ready = true → (cycles < 3973 ∨ 4219 < cycles ∨
    missed = true) → exec (.compatJudgeEnd cycles missed) s = .next
    ({ t with clk := { t.clk with judgeNow := judgeCompat t } })) ∧
  (∀ (s : State)  (t u : State), t = (s.wr R.CLK_STAT_ifo_ready 1).wr R.CLK_STAT_ifo_low 0 → u = armMonitor
    { t with clk := { t.clk with aoRefclk := false } } → clocksAwake s = true → (clocksStarting u = false ∨ u.on
    R.CLK_STAT_refclk_good = true) → exec .ifoReady s = .next (u)) ∧
  (∀ (s : State)  (t u : State), t = (s.wr R.CLK_STAT_ifo_ready 1).wr R.CLK_STAT_ifo_low 0 → u = armMonitor
    { t with clk := { t.clk with aoRefclk := false } } → clocksAwake s = true → clocksStarting u = true → u.on
    R.CLK_STAT_refclk_good = false → exec .ifoReady s = .next (pllsStart 1 u)) ∧
  (∀ (s : State), s.on R.CLK_STAT_ifo_ready = false → 200000 ≤ s.clock → s.dev.phase = .start → s.rd
    R.START_STAT_result = 0 → exec .ifoReadyTimeout s = .next ((s.wr R.START_STAT_result 2).wr R.START_STAT_cause 2)) ∧
  (∀ (s : State) (ppm : Int), s.on R.CLK_STAT_refclk_good = true → s.on R.CLK_STAT_ifo_ready = true → s.on
    R.CLK_STAT_ifo_low = false → exec (.ifoMeasureEnd ppm) s = .next ((s.wr R.IFO_CORR_valid 1).wr R.IFO_CORR_ppm
    (unsigned 16 ppm))) ∧
  (∀ (s : State) (count : Nat), s.on R.CLK_STAT_mon_armed = true → 973 ≤ count → count ≤ 1075 → exec
    (.monitorWindowEnd count) s = .next ((s.wr R.MON_LAST_count (min count 2047)).wr R.MON_LAST_valid 1)) ∧
  (∀ (s : State) (count : Nat) (t u : State), t = (s.wr R.MON_LAST_count (min count 2047)).wr R.MON_LAST_valid 1 → u =
    (refclkBad (pllsWith [0, 2] (fun u s => s.setPllRef u 1) t)) → s.on R.CLK_STAT_mon_armed = true → (count < 973 ∨
    1075 < count) → (pllUnits u).any (fun x => pllRef u x = 3) = false → exec (.monitorWindowEnd count) s = .next
    (({ u with clk := { u.clk with tripDue := false } }.raise 256).bump R.CLK_CNT_trips)) ∧
  (∀ (s : State) (count : Nat) (t u : State), t = (s.wr R.MON_LAST_count (min count 2047)).wr R.MON_LAST_valid 1 → u =
    (refclkBad (pllsWith [0, 2] (fun u s => s.setPllRef u 1) t)) → s.on R.CLK_STAT_mon_armed = true → (count < 973 ∨
    1075 < count) → (pllUnits u).any (fun x => pllRef u x = 3) = true → exec (.monitorWindowEnd count) s = .next
    ({ u with clk := { u.clk with tripDue := true } })) ∧
  (∀ (s : State), s.on R.CLK_STAT_refclk_good = true → passed s.clk.goodSince (1000000 * max 1 (s.rd
    R.CLK_CFG_return_hold)) s.clock = true → s.on R.CLK_CFG_auto_return = false → exec .returnHoldExpiry s = .next
    ({ s with clk := { s.clk with holdPassed := true } })) ∧
  (∀ (s : State), s.on R.CLK_STAT_refclk_good = true → passed s.clk.goodSince (1000000 * max 1 (s.rd
    R.CLK_CFG_return_hold)) s.clock = true → s.on R.CLK_CFG_auto_return = true → exec .returnHoldExpiry s = .next
    (pllsWith [1] pllReturn ({ s with clk := { s.clk with holdPassed := true } }))) ∧
  (∀ (s : State) (v : Nat) (t : State), t = ((s.wr R.CLK_CFG_return_hold (bits v 31 24)).wr R.CLK_CFG_auto_return
    (bits v 8 8)).wr R.CLK_CFG_judge (bits v 1 0) → pageOpen s 1 = true → (t.on R.CLK_CFG_auto_return = false ∨
    t.clk.holdPassed = false ∨ t.on R.CLK_STAT_refclk_good = false) → exec (.clkCfgWrite v) s = .next (t)) ∧
  (∀ (s : State) (v : Nat) (t : State), t = ((s.wr R.CLK_CFG_return_hold (bits v 31 24)).wr R.CLK_CFG_auto_return
    (bits v 8 8)).wr R.CLK_CFG_judge (bits v 1 0) → pageOpen s 1 = true → t.on R.CLK_CFG_auto_return = true →
    t.clk.holdPassed = true → t.on R.CLK_STAT_refclk_good = true → exec (.clkCfgWrite v) s = .next (pllsWith [1]
    pllReturn (t))) ∧
  (∀ (s : State)  (t u : State), t = (if judging s && s.clk.judgeNow then
    { s.bump R.CLK_CNT_judge_fail with clk := { (s.bump R.CLK_CNT_judge_fail).clk with judgeNow := judgeCompat (s.bump R.CLK_CNT_judge_fail) } }
    else s) → u = armMonitor (t.wr R.CLK_STAT_ifo_ready 0) → s.on R.CLK_STAT_ifo_ready = true → s.on
    R.CLK_STAT_ifo_low = false → inRun u = true → (u.raise 257).on R.CLK_STAT_refclk_good = true → exec .ifoLoss s =
    .next (pllsWith [1] pllReturn ({ u.raise 257 with clk := { (u.raise 257).clk with aoRefclk := true } }))) ∧
  (∀ (s : State)  (t u : State), t = (if judging s && s.clk.judgeNow then
    { s.bump R.CLK_CNT_judge_fail with clk := { (s.bump R.CLK_CNT_judge_fail).clk with judgeNow := judgeCompat (s.bump R.CLK_CNT_judge_fail) } }
    else s) → u = armMonitor (t.wr R.CLK_STAT_ifo_ready 0) → s.on R.CLK_STAT_ifo_ready = true → s.on
    R.CLK_STAT_ifo_low = false → inRun u = true → (u.raise 257).on R.CLK_STAT_refclk_good = false → exec .ifoLoss s =
    .next (pllsWith [1] (fun x z => z.setPllRef x 2) (u.raise 257))) ∧
  (∀ (s : State)  (t u : State), t = (if judging s && s.clk.judgeNow then
    { s.bump R.CLK_CNT_judge_fail with clk := { (s.bump R.CLK_CNT_judge_fail).clk with judgeNow := judgeCompat (s.bump R.CLK_CNT_judge_fail) } }
    else s) → u = armMonitor (t.wr R.CLK_STAT_ifo_ready 0) → s.on R.CLK_STAT_ifo_ready = true → s.on
    R.CLK_STAT_ifo_low = false → inRun u = false → exec .ifoLoss s = .next (u))

/-- On a PLL of the part: loss of its reference from REFCLK moves it to holdover on the IFO where that is ready and to
none where not; REFCLK good again returns it from holdover or none (R336). Held over or stopped, with the IFO ready,
it locks to the IFO; with REFCLK still judged good that is a trip: REFCLK is bad (refclkBad), and 256 is raised and
a trip counted, at once or when the last stopped PLL has locked (R336; log 264). A core PLL that loses lock counts,
clears its bit, aborts the die's P-level change at the higher of its two levels (plAbort), raises 258 + die and
fences the die with cause CORE_PLL (R339, R342); its relock, with the clocks awake and a reference, sets the bit and
lifts nothing. The management PLL's bit follows it; the locked seam PLL of the LZ4128, when lost, clears its bit and
SEAM_STAT.up of both dies and raises 293, and its relock sets them (R344). With neither REFCLK nor the IFO usable in
SERVICE or GUARD, the package is fenced with cause CLOCK (R338). -/
def Obligations.PllEvents : Prop :=
  (∀ (s : State) (unit : Nat), (pllUnits s).contains unit = true → pllRef s unit = 0 → exec (.pllHoldover unit) s =
    .next (s.setPllRef unit (if s.on R.CLK_STAT_ifo_ready then 2 else 3))) ∧
  (∀ (s : State) (unit : Nat), (pllUnits s).contains unit = true → (pllRef s unit = 2 ∨ pllRef s unit = 3) → s.on
    R.CLK_STAT_refclk_good = true → exec (.refclkReturn unit) s = .next (s.setPllRef unit 0)) ∧
  (∀ (s : State) (unit : Nat) (t u v : State), t = s.setPllRef unit 1 → u = refclkBad t → v =
    ({ u with clk := { u.clk with tripDue := false } }.raise 256).bump R.CLK_CNT_trips → (pllUnits s).contains unit =
    true → (pllRef s unit = 2 ∨ pllRef s unit = 3) → s.on R.CLK_STAT_ifo_ready = true → t.on R.CLK_STAT_refclk_good =
    true → (pllUnits u).any (fun x => pllRef u x = 3) = false → v.clk.tripDue = false → exec (.pllIfoLock unit) s =
    .next (v)) ∧
  (∀ (s : State) (unit : Nat) (t u v : State), t = s.setPllRef unit 1 → u = refclkBad t → v =
    { u with clk := { u.clk with tripDue := true } } → (pllUnits s).contains unit = true → (pllRef s unit = 2 ∨ pllRef
    s unit = 3) → s.on R.CLK_STAT_ifo_ready = true → t.on R.CLK_STAT_refclk_good = true → (pllUnits u).any (fun x =>
    pllRef u x = 3) = true → (pllUnits v).all (fun x => pllRef v x ≠ 3) = false → exec (.pllIfoLock unit) s = .next
    (v)) ∧
  (∀ (s : State) (unit : Nat) (t : State), t = s.setPllRef unit 1 → (pllUnits s).contains unit = true → (pllRef s unit
    = 2 ∨ pllRef s unit = 3) → s.on R.CLK_STAT_ifo_ready = true → t.on R.CLK_STAT_refclk_good = false → t.clk.tripDue
    = true → (pllUnits t).all (fun x => pllRef t x ≠ 3) = true → exec (.pllIfoLock unit) s = .next
    (({ t with clk := { t.clk with tripDue := false } }.raise 256).bump R.CLK_CNT_trips)) ∧
  (∀ (s : State) (unit : Nat) (t : State), t = s.setPllRef unit 1 → (pllUnits s).contains unit = true → (pllRef s unit
    = 2 ∨ pllRef s unit = 3) → s.on R.CLK_STAT_ifo_ready = true → t.on R.CLK_STAT_refclk_good = false → (t.clk.tripDue
    = false ∨ (pllUnits t).all (fun x => pllRef t x ≠ 3) = false) → exec (.pllIfoLock unit) s = .next (t)) ∧
  (∀ (s : State), noClock s = true → inRun s = true → exec .clockUnusableFence s = .next (fencePkg fcClock s)) ∧
  (∀ (s : State) (die : Nat), die < diesOf s → s.on (R.CLK_STAT_core_lock die) = true → exec (.corePllUnlock die) s =
    .next (fenceDie die fcCorePll ((plAbort die ((s.bump R.CLK_CNT_core_unlock).wr (R.CLK_STAT_core_lock die)
    0)).raise (258 + die)))) ∧
  (∀ (s : State) (die : Nat), die < diesOf s → clocksAwake s = true → pllRef s die ≠ 3 → exec (.corePllRelock die) s =
    .next (s.wr (R.CLK_STAT_core_lock die) 1)) ∧
  (∀ (s : State), exec .mgmtPllUnlock s = .next (s.wr R.CLK_STAT_mgmt_lock 0)) ∧
  (∀ (s : State), clocksAwake s = true → pllRef s 2 ≠ 3 → exec .mgmtPllRelock s = .next (s.wr R.CLK_STAT_mgmt_lock 1)) ∧
  (∀ (s : State), isLz4064 s = false → s.on R.CLK_STAT_seam_lock = true → exec .seamPllUnlock s = .next ((((s.wr
    R.CLK_STAT_seam_lock 0).wrB (R.SEAM_STAT_up 0) false).wrB (R.SEAM_STAT_up 1) false).raise 293)) ∧
  (∀ (s : State), isLz4064 s = false → clocksAwake s = true → pllRef s 3 ≠ 3 → exec .seamPllRelock s = .next (((s.wr
    R.CLK_STAT_seam_lock 1).wrB (R.SEAM_STAT_up 0) true).wrB (R.SEAM_STAT_up 1) true))

/-- With the PWR page answering a P-level request stores die and level and records itself with the reason against it
(plWhy, R343). A refused one sets refused, counts and raises 292 (its fields stored: DEDUCED, log 106). A granted
one clears refused, keeps the time and the level it starts from, sets the target and begins: towards more voltage in
phase 1, else in phase 2 (R342). On a die whose core clock runs, the voltage within one 5 mV step of its target is
stored and moves phase 1 to the divider; in phase 3 it completes the change: phase 0, the time in PL_LAST.us,
counted, 291. The divider switched in phase 2 puts the new level in force, which a check in progress sees
(prkNotice, R307); at level 2 or 3 the slices of the die end LIMIT with cause PLEVEL (R376), else a slice of a
suspect bank may start (R283); then an upward change completes and a downward one goes to phase 3 (R341, R342). A
write of CLK_EN of a page that is there clears refused of the page's pair and opens its gate, or closes it where the
page may be gated; where it may not, it sets refused (R346, R347). START of the meter clears refused and becomes
busy, or sets refused where a selection is out of range; one in progress ends with its status, and with its count,
at most 2^32 - 1, when it ended well (R349). -/
def Obligations.PowerAndGates : Prop :=
  (∀ (s : State) (die : Nat) (level : Nat) (why : Nat) (t : State), why = plWhy (die % 2) (level % 4) ((s.wr
    R.PL_CMD_die die).wr R.PL_CMD_level level) → t = (((((s.wr R.PL_CMD_die die).wr R.PL_CMD_level level).wr
    R.PL_LAST_valid 1).wr R.PL_LAST_why why).wr R.PL_LAST_die (die % 2)).wr R.PL_LAST_level (level % 4) → pageOpen s 2
    = true → why ≠ 0 → exec (.plRequest die level) s = .next (((t.wr R.PL_CMD_refused 1).bump R.PL_CNT_refusals).raise
    292)) ∧
  (∀ (s : State) (die : Nat) (level : Nat) (why cur : Nat) (t u : State), why = plWhy (die % 2) (level % 4) ((s.wr
    R.PL_CMD_die die).wr R.PL_CMD_level level) → t = (((((s.wr R.PL_CMD_die die).wr R.PL_CMD_level level).wr
    R.PL_LAST_valid 1).wr R.PL_LAST_why why).wr R.PL_LAST_die (die % 2)).wr R.PL_LAST_level (level % 4) → cur = t.rd
    (R.PL_STAT_level (die % 2)) → u = (t.wr R.PL_CMD_refused 0).putPl (die % 2) { since := t.clock, fromLevel := cur }
    → pageOpen s 2 = true → why = 0 → level % 4 < cur → exec (.plRequest die level) s = .next ((u.wr (R.PL_STAT_target
    (die % 2)) (level % 4)).wr (R.PL_STAT_phase (die % 2)) 1)) ∧
  (∀ (s : State) (die : Nat) (level : Nat) (why cur : Nat) (t u : State), why = plWhy (die % 2) (level % 4) ((s.wr
    R.PL_CMD_die die).wr R.PL_CMD_level level) → t = (((((s.wr R.PL_CMD_die die).wr R.PL_CMD_level level).wr
    R.PL_LAST_valid 1).wr R.PL_LAST_why why).wr R.PL_LAST_die (die % 2)).wr R.PL_LAST_level (level % 4) → cur = t.rd
    (R.PL_STAT_level (die % 2)) → u = (t.wr R.PL_CMD_refused 0).putPl (die % 2) { since := t.clock, fromLevel := cur }
    → pageOpen s 2 = true → why = 0 → cur ≤ level % 4 → exec (.plRequest die level) s = .next ((u.wr (R.PL_STAT_target
    (die % 2)) (level % 4)).wr (R.PL_STAT_phase (die % 2)) 2)) ∧
  (∀ (s : State) (die : Nat) (vout : Nat), die < diesOf s → coreHeld s die = false → vout ≤ levelVout (s.rd
    (R.PL_STAT_target die)) + 1 → levelVout (s.rd (R.PL_STAT_target die)) ≤ vout + 1 → s.rd (R.PL_STAT_phase die) = 1
    → exec (.plVoltageSettled die vout) s = .next ((s.wr (R.PL_STAT_vout die) vout).wr (R.PL_STAT_phase die) 2)) ∧
  (∀ (s : State) (die : Nat) (vout : Nat) (t : State), t = s.wr (R.PL_STAT_vout die) vout → die < diesOf s → coreHeld
    s die = false → vout ≤ levelVout (s.rd (R.PL_STAT_target die)) + 1 → levelVout (s.rd (R.PL_STAT_target die)) ≤
    vout + 1 → s.rd (R.PL_STAT_phase die) = 3 → exec (.plVoltageSettled die vout) s = .next (((((t).wr
    (R.PL_STAT_phase die) 0).wr R.PL_LAST_us (min (((t).clock - ((t).pl die).since) / 1000) 65535)).bump
    R.PL_CNT_changes).raise 291)) ∧
  (∀ (s : State) (die : Nat) (t u : State), t = prkNotice (s.wr (R.PL_STAT_level die) (s.rd (R.PL_STAT_target die))) →
    u = (if 2 ≤ s.rd (R.PL_STAT_target die) then slicesEnd die resLimit causePlevel t else suspectSlice die t) → die <
    diesOf s → s.rd (R.PL_STAT_phase die) = 2 → coreHeld s die = false → s.rd (R.PL_STAT_target die) < (u.pl
    die).fromLevel → exec (.plDividerSwitched die) s = .next (((((u).wr (R.PL_STAT_phase die) 0).wr R.PL_LAST_us (min
    (((u).clock - ((u).pl die).since) / 1000) 65535)).bump R.PL_CNT_changes).raise 291)) ∧
  (∀ (s : State) (die : Nat) (t u : State), t = prkNotice (s.wr (R.PL_STAT_level die) (s.rd (R.PL_STAT_target die))) →
    u = (if 2 ≤ s.rd (R.PL_STAT_target die) then slicesEnd die resLimit causePlevel t else suspectSlice die t) → die <
    diesOf s → s.rd (R.PL_STAT_phase die) = 2 → coreHeld s die = false → (u.pl die).fromLevel ≤ s.rd (R.PL_STAT_target
    die) → exec (.plDividerSwitched die) s = .next (u.wr (R.PL_STAT_phase die) 3)) ∧
  (∀ (s : State) (page : Nat) (v : Nat) (t : State), t = ((gatePair page).foldl (fun x q => x.wr (R.CLK_EN_refused q)
    0) s) → pageExists s page = true → phaseOpens s page = true → bit v 0 = true → t.rd (R.CLK_EN_en page) = 0 → exec
    (.clkEnWrite page v) s = .next (setGate page true t)) ∧
  (∀ (s : State) (page : Nat) (v : Nat) (t : State), t = ((gatePair page).foldl (fun x q => x.wr (R.CLK_EN_refused q)
    0) s) → pageExists s page = true → phaseOpens s page = true → (bit v 0 = true ↔ t.rd (R.CLK_EN_en page) ≠ 0) →
    exec (.clkEnWrite page v) s = .next (t)) ∧
  (∀ (s : State) (page : Nat) (v : Nat) (t : State), t = ((gatePair page).foldl (fun x q => x.wr (R.CLK_EN_refused q)
    0) s) → pageExists s page = true → phaseOpens s page = true → bit v 0 = false → t.rd (R.CLK_EN_en page) ≠ 0 →
    gateable page = true → mayGate t page = true → exec (.clkEnWrite page v) s = .next (setGate page false t)) ∧
  (∀ (s : State) (page : Nat) (v : Nat) (t : State), t = ((gatePair page).foldl (fun x q => x.wr (R.CLK_EN_refused q)
    0) s) → pageExists s page = true → phaseOpens s page = true → bit v 0 = false → t.rd (R.CLK_EN_en page) ≠ 0 →
    (gateable page = false ∨ mayGate t page = false) → exec (.clkEnWrite page v) s = .next ((gatePair page).foldl (fun
    x q => x.wr (R.CLK_EN_refused q) 1) t)) ∧
  (∀ (s : State), pageOpen s 1 = true → s.on R.FM_CMD_busy = false → s.rd R.FM_SEL_meas_sel < 56 → s.rd
    R.FM_SEL_ref_sel < 56 → exec .fmStart s = .next ((s.wr R.FM_CMD_refused 0).wr R.FM_CMD_busy 1)) ∧
  (∀ (s : State), pageOpen s 1 = true → s.on R.FM_CMD_busy = false → (56 ≤ s.rd R.FM_SEL_meas_sel ∨ 56 ≤ s.rd
    R.FM_SEL_ref_sel) → exec .fmStart s = .next (s.wr R.FM_CMD_refused 1)) ∧
  (∀ (s : State) (count : Nat), s.on R.FM_CMD_busy = true → exec (.fmRunEnd 1 count) s = .next ((((s.wr R.FM_CMD_busy
    0).wr R.FM_CMD_status 1).wr R.FM_COUNT (min count (maxOf 32))))) ∧
  (∀ (s : State) (how : Nat) (count : Nat), s.on R.FM_CMD_busy = true → 2 ≤ how → how ≤ 3 → exec (.fmRunEnd how count)
    s = .next ((s.wr R.FM_CMD_busy 0).wr R.FM_CMD_status how))

/-- With the PWR page answering and no WATCH command in progress: ENTER stores op, force and the reason against it
(R350); with a reason it is refused (that op and force are stored: DEDUCED, log 106), with none refused clears and
it becomes busy, halts the links, stops every loop and ends the calibration runs (R351). WAKE in WATCH starts a wake
with cause 5; elsewhere it stores op and is refused. The end of the entry, once every EIE set has been sent, stops
self-test, PLLs and clusters, frees both dies, judges REFCLK no longer good, puts the IFO in LOW and the package in
WATCH (R351). In WATCH or on the way there, with no wake begun and no TEST entry, a low WAKE_N with its enable wakes
with cause 3; signal on a receive end that serves a link, with its enable, with cause 4 and the cluster; a pending
non-maskable source with cause 1 and its number, a watched one with cause 2 (R353). A wake records valid, cause and
index and the time, takes the IFO out of LOW where it was in it, is busy, and holds the judge method for the
judgement it starts (R332, R354). With every PLL locked and on a reference it completes: the LDOs stand at the
voltage of the level, the package runs with its fences, its self-test timer goes on where BST is clocked, its links
train, slices of suspect banks may start, and the time it took is stored (R354). A wake whose IFO is not ready at
its limit of 200 µs raises 257; with REFCLK good the always-on domain runs on that, and without it the wake stops
and is no longer busy (R354). -/
def Obligations.WatchCommands : Prop :=
  (∀ (s : State) (force : Bool) (t u v : State), t = (s.wrB R.WATCH_CMD_force force).wr R.WATCH_CMD_op 0 → u = ((t.wr
    R.WATCH_CMD_why 0).wr R.WATCH_CMD_refused 0).wr R.WATCH_CMD_busy 1 → v = loopStopAll (haltAll
    { u with dev := { u.dev with watchEntry := true } }) → pageOpen s 2 = true → t.on R.WATCH_CMD_busy = false →
    watchWhy t force = 0 → exec (.watchEnter force) s = .next ((List.range (clustersOf v)).foldl (fun s c =>
    calAbortAny c s) v)) ∧
  (∀ (s : State) (force : Bool) (t : State), t = (s.wrB R.WATCH_CMD_force force).wr R.WATCH_CMD_op 0 → pageOpen s 2 =
    true → t.on R.WATCH_CMD_busy = false → watchWhy t force ≠ 0 → exec (.watchEnter force) s = .next ((t.wr
    R.WATCH_CMD_why (watchWhy t force)).wr R.WATCH_CMD_refused 1)) ∧
  (∀ (s : State)  (t u v : State), t = dieFree 1 (dieFree 0 (clustersOff (pllsStop (bistHold s)))) → u = ((t.wr
    R.CLK_STAT_refclk_good 0).wr R.CLK_STAT_ifo_ready 0).wr R.CLK_STAT_ifo_low 1 → v = armMonitor
    { u with clk := { u.clk with goodSince := none, holdPassed := false, tripDue := false } } → s.dev.watchEntry =
    true → s.dev.waking = false → eieAwaited s = false → exec .watchEntryDone s = .next
    (({ v with dev := { v.dev with phase := .watch, watchEntry := false } } : State).wr R.WATCH_CMD_busy 0)) ∧
  (∀ (s : State)  (w t u v : State), w = (s.wr R.WATCH_CMD_op 1).wr R.WATCH_CMD_refused 0 → t = (((w).wr
    R.WATCH_STAT_valid 1).wr R.WATCH_STAT_cause 5).wr R.WATCH_STAT_index 0 → u =
    ({ t with dev := { t.dev with waking := true, wakeAt := t.clock, stuck := false } } : State) → v = (if u.on
    R.CLK_STAT_ifo_low then (u.wr R.CLK_STAT_ifo_low 0).wr R.CLK_STAT_ifo_ready 0 else u).wr R.WATCH_CMD_busy 1 →
    pageOpen s 2 = true → (s.wr R.WATCH_CMD_op 1).on R.WATCH_CMD_busy = false → s.dev.phase = .watch → exec .watchWake
    s = .next ({ v with clk := { v.clk with judgeNow := judgeCompat v } })) ∧
  (∀ (s : State), pageOpen s 2 = true → (s.wr R.WATCH_CMD_op 1).on R.WATCH_CMD_busy = false → s.dev.phase ≠ .watch →
    exec .watchWake s = .next ((s.wr R.WATCH_CMD_op 1).wr R.WATCH_CMD_refused 1)) ∧
  (∀ (s : State)  (t u v : State), t = (((s).wr R.WATCH_STAT_valid 1).wr R.WATCH_STAT_cause 3).wr R.WATCH_STAT_index 0
    → u = ({ t with dev := { t.dev with waking := true, wakeAt := t.clock, stuck := false } } : State) → v = (if u.on
    R.CLK_STAT_ifo_low then (u.wr R.CLK_STAT_ifo_low 0).wr R.CLK_STAT_ifo_ready 0 else u).wr R.WATCH_CMD_busy 1 →
    canWake s = true → s.on R.WATCH_CFG_wake_n_en = true → exec .wakeNLow s = .next
    ({ v with clk := { v.clk with judgeNow := judgeCompat v } })) ∧
  (∀ (s : State) (n : Nat) (sd : Side) (w t u v : State), w = s.wr (leSd n sd) 1 → t = (((w).wr R.WATCH_STAT_valid
    1).wr R.WATCH_STAT_cause 4).wr R.WATCH_STAT_index (laneCluster n) → u =
    ({ t with dev := { t.dev with waking := true, wakeAt := t.clock, stuck := false } } : State) → v = (if u.on
    R.CLK_STAT_ifo_low then (u.wr R.CLK_STAT_ifo_low 0).wr R.CLK_STAT_ifo_ready 0 else u).wr R.WATCH_CMD_busy 1 →
    lanePresent s n = true → canWake s = true → s.on R.WATCH_CFG_sd_en = true → (endUse s n sd).isSome = true → exec
    (.wakeSigdet n sd) s = .next ({ v with clk := { v.clk with judgeNow := judgeCompat v } })) ∧
  (∀ (s : State) (src : Nat) (t u v : State), t = (((s).wr R.WATCH_STAT_valid 1).wr R.WATCH_STAT_cause 1).wr
    R.WATCH_STAT_index src → u = ({ t with dev := { t.dev with waking := true, wakeAt := t.clock, stuck := false } } :
    State) → v = (if u.on R.CLK_STAT_ifo_low then (u.wr R.CLK_STAT_ifo_low 0).wr R.CLK_STAT_ifo_ready 0 else u).wr
    R.WATCH_CMD_busy 1 → src < 320 → canWake s = true → sourceExists s src = true → s.on (R.SRC_CFG_pend src) = true →
    isNmi src = true → exec (.wakeSource src) s = .next ({ v with clk := { v.clk with judgeNow := judgeCompat v } })) ∧
  (∀ (s : State) (src : Nat) (t u v : State), t = (((s).wr R.WATCH_STAT_valid 1).wr R.WATCH_STAT_cause 2).wr
    R.WATCH_STAT_index src → u = ({ t with dev := { t.dev with waking := true, wakeAt := t.clock, stuck := false } } :
    State) → v = (if u.on R.CLK_STAT_ifo_low then (u.wr R.CLK_STAT_ifo_low 0).wr R.CLK_STAT_ifo_ready 0 else u).wr
    R.WATCH_CMD_busy 1 → src < 320 → canWake s = true → sourceExists s src = true → s.on (R.SRC_CFG_pend src) = true →
    isNmi src = false → watched s src = true → exec (.wakeSource src) s = .next
    ({ v with clk := { v.clk with judgeNow := judgeCompat v } })) ∧
  (∀ (s : State)  (t u v : State), t = ((List.range (diesOf s)).foldl (fun s d => s.wr (R.PL_STAT_vout d) (levelVout
    (s.rd (R.PL_STAT_level d)))) s) → u =
    (({ t with dev := { t.dev with phase := .run, waking := false, watchEntry := false } } : State).wr
    R.WATCH_STAT_wake_us (min ((s.clock - s.dev.wakeAt) / 1000) 65535)).wr R.WATCH_CMD_busy 0 → v = enterKept (if u.rd
    (R.CLK_EN_en 7) = 1 then bistResume u else u) → s.dev.waking = true → (pllUnits s).all (fun u => s.on (pllLockFld
    u) && pllRef s u ≠ 3) = true → exec .wakeComplete s = .next (suspectSlices (trainAll (haltFenced v)))) ∧
  (∀ (s : State), s.dev.waking = true → s.dev.wakeAt + 200000 ≤ s.clock → s.on R.CLK_STAT_ifo_ready = false → (s.raise
    257).on R.CLK_STAT_refclk_good = true → exec .wakeIfoTimeout s = .next
    ({ s.raise 257 with clk := { (s.raise 257).clk with aoRefclk := true } })) ∧
  (∀ (s : State), s.dev.waking = true → s.dev.wakeAt + 200000 ≤ s.clock → s.on R.CLK_STAT_ifo_ready = false → (s.raise
    257).on R.CLK_STAT_refclk_good = false → exec .wakeIfoTimeout s = .next
    (({ s.raise 257 with dev := { (s.raise 257).dev with waking := false, stuck := true } } : State).wr
    R.WATCH_CMD_busy 0))

/-- Outside power-on reset a temperature sample goes to each cluster in order (tempOne: CAL_TEMP and the ends it makes
due, R362); the hottest cluster and its peak are stored, critical and source 264 are judged at 110 °C and 105 °C,
and a second sample above 120 °C of one cluster fences the package with cause THERMAL (R402). In START, SERVICE or
GUARD the sequencer of a cluster begins the run of the next end that may run, with the temperature, or asks for the
sentinel that a visit holds (R361, R363, R364). The end of a run whose sentinel is held ends it ABORTED, last in the
queue (R369; last: DEDUCED, log 121); with another number of measurements than the end has items it stays. All
agreed: DONE, T_cal set, due and CAL_FLT cleared; else PARTIAL: 16c + 8, counted, last in the queue, or at the third
in a row T_cal and CAL_FLT set and no longer due (R366). The accepted values wait for a boundary on an end that
carries traffic, step code by code in a TRANSPARENT link, and else are in force at once (R365). A step that waits is
applied at a boundary, after which an end no longer due leaves the queue, 16c + 9 where it empties (R367); or by one
code, and wholly at the last. The engine of the cluster then goes on to its next end (R114). A REXT fault not yet
known ends every run with REXT, marks each cluster, raises its 16c + 8 and lets its engine go on, and fails START in
its calibration step with cause 3; known or in reset it changes nothing; its end clears the marks (R359). -/
def Obligations.CalibrationEvents : Prop :=
  (∀ (s : State) (temps : List Int) (t u v w : State) (crit : Bool) (now : List Nat), t = (((List.range (clustersOf
    s)).zip temps).foldl (fun s p => tempOne p.1 p.2 s) s) → u = (t.wr R.TMP_STAT_hot (hottest t)).wr R.TMP_STAT_max
    (unsigned 11 (lastTemp t (hottest t))) → v = (if !u.sup.peakSet || signed 11 (u.rd R.TMP_PEAK_peak) < lastTemp t
    (hottest t) then
    { (u.wr R.TMP_PEAK_cluster (hottest t)).wr R.TMP_PEAK_peak (unsigned 11 (lastTemp t (hottest t))) with sup := { u.sup with peakSet := true } }
    else u) → crit = (if 440 < lastTemp t (hottest t) then true else if lastTemp t (hottest t) ≤ 420 then false else
    v.on R.TMP_STAT_crit) → w = (v.wrB R.TMP_STAT_crit crit).setInput 264 crit → now = ((List.range (clustersOf
    w)).filter (fun c => 480 < lastTemp w c)) → s.dev.phase ≠ .off → now.any (fun c => w.sup.hot.contains c) = false →
    exec (.tempSample temps) s = .next ({ w with sup := { w.sup with hot := now } })) ∧
  (∀ (s : State) (temps : List Int) (t u v w : State) (crit : Bool) (now : List Nat), t = (((List.range (clustersOf
    s)).zip temps).foldl (fun s p => tempOne p.1 p.2 s) s) → u = (t.wr R.TMP_STAT_hot (hottest t)).wr R.TMP_STAT_max
    (unsigned 11 (lastTemp t (hottest t))) → v = (if !u.sup.peakSet || signed 11 (u.rd R.TMP_PEAK_peak) < lastTemp t
    (hottest t) then
    { (u.wr R.TMP_PEAK_cluster (hottest t)).wr R.TMP_PEAK_peak (unsigned 11 (lastTemp t (hottest t))) with sup := { u.sup with peakSet := true } }
    else u) → crit = (if 440 < lastTemp t (hottest t) then true else if lastTemp t (hottest t) ≤ 420 then false else
    v.on R.TMP_STAT_crit) → w = (v.wrB R.TMP_STAT_crit crit).setInput 264 crit → now = ((List.range (clustersOf
    w)).filter (fun c => 480 < lastTemp w c)) → s.dev.phase ≠ .off → now.any (fun c => w.sup.hot.contains c) = true →
    exec (.tempSample temps) s = .next (fencePkg fcThermal (({ w with sup := { w.sup with hot := now } } : State).wr
    R.TMP_STAT_shut 1))) ∧
  (∀ (s : State) (temps : List Int), s.dev.phase = .off → exec (.tempSample temps) s = .next (s)) ∧
  (∀ (s : State) (c : Nat), c < clustersOf s → (s.dev.phase = .start ∨ inRun s = true) → calNext s c = none → exec
    (.calRunStart c) s = .next (s)) ∧
  (∀ (s : State) (c : Nat) (e : Nat), c < clustersOf s → (s.dev.phase = .start ∨ inRun s = true) → calNext s c = some
    e → sentinelHeld s c e = true → exec (.calRunStart c) s = .next (s.putCal c { s.calSeq c with asked := true })) ∧
  (∀ (s : State) (c : Nat) (e : Nat), c < clustersOf s → (s.dev.phase = .start ∨ inRun s = true) → calNext s c = some
    e → sentinelHeld s c e = false → exec (.calRunStart c) s = .next (s.putCal c
    { s.calSeq c with cur := some e, curTemp := lastTemp s c, asked := false })) ∧
  (∀ (s : State) (c : Nat) (meas : CalMeasure) (e : Nat), c < clustersOf s → (s.calSeq c).cur = some e → sentinelHeld
    s c e = true → exec (.calRunEnd c meas) s = .next (engineNext c ((calRecord c e 3 s).putCal c
    { s.calSeq c with cur := none, queue := ((s.calSeq c).queue.filter fun x => x ≠ e) ++ [e] }))) ∧
  (∀ (s : State) (c : Nat) (meas : CalMeasure) (e : Nat), c < clustersOf s → (s.calSeq c).cur = some e → sentinelHeld
    s c e = false → meas.length ≠ calItems e → exec (.calRunEnd c meas) s = .next (engineNext c s)) ∧
  (∀ (s : State) (c : Nat) (meas : CalMeasure) (e : Nat) (t u w v : State), t = calRecord c e 1 s → u = t.putCal c
    ((t.calSeq c).putEnd e { (t.calSeq c).endOf e with tcal := some (t.calSeq c).curTemp, disagree := 0 }) → w = (u.wr
    (R.CAL_DUE c e) 0).wr (R.CAL_FLT c e) 0 → v = w.putCal c
    ({ w.calSeq c with cur := none, waitStep := some e }.putEnd e
    { (w.calSeq c).endOf e with accepted := some (calAccept e (s.rd (R.CAL_CFG_tol c)) ((s.calSeq c).corrOf e) meas) })
    → c < clustersOf s → (s.calSeq c).cur = some e → sentinelHeld s c e = false → meas.length = calItems e → meas.all
    (calAgree (s.rd (R.CAL_CFG_tol c))) = true → exec (.calRunEnd c meas) s = .next (engineNext c (if endTransparent v
    c e then calCodeStep c e v else if endCarries v c e then v else calApply c e v))) ∧
  (∀ (s : State) (c : Nat) (meas : CalMeasure) (e : Nat) (t u w v : State), t = calRecord c e 2 s → u = (t.raise (16 *
    c + 8)).bump (R.CAL_CNT_disagree c) → w = (u.putCal c
    ({ t.calSeq c with queue := ((t.calSeq c).queue.filter fun x => x ≠ e) ++ [e] }.putEnd e
    { (t.calSeq c).endOf e with disagree := ((t.calSeq c).endOf e).disagree + 1, cause := 3 })) → v = w.putCal c
    ({ w.calSeq c with cur := none, waitStep := some e }.putEnd e
    { (w.calSeq c).endOf e with accepted := some (calAccept e (s.rd (R.CAL_CFG_tol c)) ((s.calSeq c).corrOf e) meas) })
    → c < clustersOf s → (s.calSeq c).cur = some e → sentinelHeld s c e = false → meas.length = calItems e → meas.all
    (calAgree (s.rd (R.CAL_CFG_tol c))) = false → ((t.calSeq c).endOf e).disagree + 1 < 3 → exec (.calRunEnd c meas) s
    = .next (engineNext c (if endTransparent v c e then calCodeStep c e v else if endCarries v c e then v else
    calApply c e v))) ∧
  (∀ (s : State) (c : Nat) (meas : CalMeasure) (e : Nat) (t u x w v : State), t = calRecord c e 2 s → u = (t.raise (16
    * c + 8)).bump (R.CAL_CNT_disagree c) → x = u.putCal c ((t.calSeq c).putEnd e
    { (t.calSeq c).endOf e with tcal := some (t.calSeq c).curTemp, disagree := ((t.calSeq c).endOf e).disagree + 1 })
    → w = (x.wr (R.CAL_DUE c e) 0).wr (R.CAL_FLT c e) 1 → v = w.putCal c
    ({ w.calSeq c with cur := none, waitStep := some e }.putEnd e
    { (w.calSeq c).endOf e with accepted := some (calAccept e (s.rd (R.CAL_CFG_tol c)) ((s.calSeq c).corrOf e) meas) })
    → c < clustersOf s → (s.calSeq c).cur = some e → sentinelHeld s c e = false → meas.length = calItems e → meas.all
    (calAgree (s.rd (R.CAL_CFG_tol c))) = false → ¬ ((t.calSeq c).endOf e).disagree + 1 < 3 → exec (.calRunEnd c meas)
    s = .next (engineNext c (if endTransparent v c e then calCodeStep c e v else if endCarries v c e then v else
    calApply c e v))) ∧
  (∀ (s : State) (c : Nat) (e : Nat) (t : State), t = s.putCal c
    { (s.calSeq c).putEnd e { (s.calSeq c).endOf e with corr := ((s.calSeq c).endOf e).accepted.getD ((s.calSeq c).corrOf e), accepted := none } with waitStep := none }
    → c < clustersOf s → (s.calSeq c).waitStep = some e → endTransparent s c e = false → t.on (R.CAL_DUE c e) = true →
    exec (.calStepApply c) s = .next (t)) ∧
  (∀ (s : State) (c : Nat) (e : Nat) (t u : State), t = s.putCal c
    { (s.calSeq c).putEnd e { (s.calSeq c).endOf e with corr := ((s.calSeq c).endOf e).accepted.getD ((s.calSeq c).corrOf e), accepted := none } with waitStep := none }
    → u = (t.putCal c { t.calSeq c with queue := (t.calSeq c).queue.filter fun x => x ≠ e }) → c < clustersOf s →
    (s.calSeq c).waitStep = some e → endTransparent s c e = false → t.on (R.CAL_DUE c e) = false → exec (.calStepApply
    c) s = .next (if (u.calSeq c).queue = [] then u.raise (16 * c + 9) else u)) ∧
  (∀ (s : State) (c : Nat) (e : Nat) (acc : List Int) (t : State), acc = ((s.calSeq c).endOf e).accepted.getD
    ((s.calSeq c).corrOf e) → t = s.putCal c ((s.calSeq c).putEnd e
    { (s.calSeq c).endOf e with corr := stepToward ((s.calSeq c).corrOf e) acc }) → c < clustersOf s → (s.calSeq
    c).waitStep = some e → endTransparent s c e = true → exec (.calCodeStep c) s = .next (if stepToward ((s.calSeq
    c).corrOf e) acc = acc then calApply c e t else t)) ∧
  (∀ (s : State)  (t : State), t = ((List.range (clustersOf s)).foldl (fun s c => engineNext c (((calStop c 4 s).wr
    (R.CAL_STAT_rext_fault c) 1).raise (16 * c + 8))) s) → s.on (R.CAL_STAT_rext_fault 0) = false → s.dev.phase ≠ .off
    → t.rd R.START_STAT_step ≠ 3 → exec .rextFault s = .next (t)) ∧
  (∀ (s : State)  (t : State), t = ((List.range (clustersOf s)).foldl (fun s c => engineNext c (((calStop c 4 s).wr
    (R.CAL_STAT_rext_fault c) 1).raise (16 * c + 8))) s) → s.on (R.CAL_STAT_rext_fault 0) = false → s.dev.phase ≠ .off
    → t.rd R.START_STAT_step = 3 → t.dev.phase = .start → t.rd R.START_STAT_result = 0 → exec .rextFault s = .next
    ((t.wr R.START_STAT_result 2).wr R.START_STAT_cause 3)) ∧
  (∀ (s : State), (s.on (R.CAL_STAT_rext_fault 0) = true ∨ s.dev.phase = .off) → exec .rextFault s = .next (s)) ∧
  (∀ (s : State), exec .rextFaultClear s = .next ((List.range (clustersOf s)).foldl (fun s c => s.wr
    (R.CAL_STAT_rext_fault c) 0) s))

/-- With the page of the cluster answering. CAL_CMD stores its op and, for CAL of an end and EYE, the end. Not refused:
refused clears; CAL of an end that is queued or running leaves it due, of another makes it due, last in the queue,
with cause 2 (R363, R369); CAL of all ends does so for each of the 38 in index order; EYE begins the eye measurement
of the end, with its rung and status 1 (R370). Refused (an end that is none, a REXT fault for CAL, for EYE no RX
end, a measurement that runs or an end that has no lock or signal): it sets refused (that the fields are stored:
DEDUCED, log 106). The end of an eye measurement has no effect while a visit or a run holds its sentinel (DEDUCED,
log 236); else it stores status 2 and the width and height of each eye the rung has, zero for the others (R370); an
abort stores status 3; either lets the engine of the cluster go on to its next end (R114). A write of CAL_SEL stores
the end and loads its T_cal and its corrections: the 18 of an RX end, the two impedance codes of a TX or exit clock
end, zeros for an index above 37 (R373). -/
def Obligations.CalibrationCommands : Prop :=
  (∀ (s : State) (c : Nat) (e : Nat) (t u : State), t = ((s.wr (R.CAL_CMD_end c) e).wr (R.CAL_CMD_op c) 0) → u = (t.wr
    (R.CAL_CMD_refused c) 0).wr (R.CAL_DUE c (e % 64)) 1 → c < clustersOf s → pageOpen s (0x20 + c) = true →
    calCmdRefused t c 0 (e % 64) = false → ((u.calSeq c).queue.contains (e % 64) || (u.calSeq c).cur = some (e % 64))
    = true → exec (.calEnd c e) s = .next (u)) ∧
  (∀ (s : State) (c : Nat) (e : Nat) (t u : State), t = ((s.wr (R.CAL_CMD_end c) e).wr (R.CAL_CMD_op c) 0) → u = (t.wr
    (R.CAL_CMD_refused c) 0).wr (R.CAL_DUE c (e % 64)) 1 → c < clustersOf s → pageOpen s (0x20 + c) = true →
    calCmdRefused t c 0 (e % 64) = false → ((u.calSeq c).queue.contains (e % 64) || (u.calSeq c).cur = some (e % 64))
    = false → exec (.calEnd c e) s = .next (u.putCal c
    ({ u.calSeq c with queue := (u.calSeq c).queue ++ [e % 64] }.putEnd (e % 64)
    { (u.calSeq c).endOf (e % 64) with cause := 2 }))) ∧
  (∀ (s : State) (c : Nat) (t : State), t = s.wr (R.CAL_CMD_op c) 1 → c < clustersOf s → pageOpen s (0x20 + c) = true
    → calCmdRefused t c 1 (s.rd (R.CAL_CMD_end c)) = false → exec (.calAll c) s = .next ((List.range 38).foldl (fun s
    e => calDue c 2 e s) (t.wr (R.CAL_CMD_refused c) 0))) ∧
  (∀ (s : State) (c : Nat) (e : Nat) (t u v : State), t = ((s.wr (R.CAL_CMD_end c) e).wr (R.CAL_CMD_op c) 2) → u =
    (t.wr (R.CAL_CMD_refused c) 0) → v = u.putCal c { u.calSeq c with eye := some (e % 64) } → c < clustersOf s →
    pageOpen s (0x20 + c) = true → calCmdRefused t c 2 (e % 64) = false → exec (.calEye c e) s = .next (((v.wr
    (R.EYE_STAT_status c) 1).wr (R.EYE_STAT_end c) (e % 64)).wr (R.EYE_STAT_rung c) (ckRate v c (calEndDir (e %
    64))))) ∧
  (∀ (s : State) (c : Nat) (e : Nat) (t : State), t = ((s.wr (R.CAL_CMD_end c) e).wr (R.CAL_CMD_op c) 0) → c <
    clustersOf s → pageOpen s (0x20 + c) = true → calCmdRefused t c 0 (e % 64) = true → exec (.calEnd c e) s = .next
    (t.wr (R.CAL_CMD_refused c) 1)) ∧
  (∀ (s : State) (c : Nat) (t : State), t = s.wr (R.CAL_CMD_op c) 1 → c < clustersOf s → pageOpen s (0x20 + c) = true
    → calCmdRefused t c 1 (s.rd (R.CAL_CMD_end c)) = true → exec (.calAll c) s = .next (t.wr (R.CAL_CMD_refused c) 1)) ∧
  (∀ (s : State) (c : Nat) (e : Nat) (t : State), t = ((s.wr (R.CAL_CMD_end c) e).wr (R.CAL_CMD_op c) 2) → c <
    clustersOf s → pageOpen s (0x20 + c) = true → calCmdRefused t c 2 (e % 64) = true → exec (.calEye c e) s = .next
    (t.wr (R.CAL_CMD_refused c) 1)) ∧
  (∀ (s : State) (c : Nat) (eyes : List EyeScan) (e r : Nat) (t : State), r = s.rd (R.EYE_STAT_rung c) → t = (s.putCal
    c { s.calSeq c with eye := none }).wr (R.EYE_STAT_status c) 2 → c < clustersOf s → (s.calSeq c).eye = some e →
    sentinelHeld s c e = false → (s.calSeq c).cur ≠ some e → exec (.eyeEnd c eyes false) s = .next (engineNext c
    ((List.range 3).foldl (fun s j => (s.wr (R.EYE_width c j) (if decide (j < eyeCount r) then eyeWidth (eyes.getD j
    { isOpen := false }) else 0)).wr (R.EYE_height c j) (if decide (j < eyeCount r) then eyeHeight (eyes.getD j
    { isOpen := false }) else 0)) t))) ∧
  (∀ (s : State) (c : Nat) (eyes : List EyeScan) (e : Nat), c < clustersOf s → (s.calSeq c).eye = some e →
    (sentinelHeld s c e = true ∨ (s.calSeq c).cur = some e) → exec (.eyeEnd c eyes false) s = .next (s)) ∧
  (∀ (s : State) (c : Nat) (eyes : List EyeScan) (e : Nat), c < clustersOf s → (s.calSeq c).eye = some e → exec
    (.eyeEnd c eyes true) s = .next (engineNext c ((s.putCal c { s.calSeq c with eye := none }).wr (R.EYE_STAT_status
    c) 3))) ∧
  (∀ (s : State) (c : Nat) (e : Nat) (z t u : State), z = s → t = s.wr (R.CAL_SEL_end c) (e % 64) → c < clustersOf s →
    pageOpen s (0x20 + c) = true → e % 64 < 18 → u = t.wr (R.CAL_TCAL_temp c) (unsigned 11 (((s.calSeq c).endOf (e %
    64)).tcal.getD 0)) → exec (.calSelWrite c e) s = .next ((((corrFields c).foldl (fun s p => s.wr p.1 (unsigned
    p.1.width (((z.calSeq c).corrOf (e % 64)).getD p.2 0))) u).wr (R.CORR_IMP_p c) 0).wr (R.CORR_IMP_n c) 0)) ∧
  (∀ (s : State) (c : Nat) (e : Nat) (t u : State), t = s.wr (R.CAL_SEL_end c) (e % 64) → c < clustersOf s → pageOpen
    s (0x20 + c) = true → 18 ≤ e % 64 → e % 64 ≤ 37 → u = t.wr (R.CAL_TCAL_temp c) (unsigned 11 (((s.calSeq c).endOf
    (e % 64)).tcal.getD 0)) → exec (.calSelWrite c e) s = .next ((((corrFields c).foldl (fun s p => s.wr p.1 0) u).wr
    (R.CORR_IMP_p c) (unsigned 6 (((s.calSeq c).corrOf (e % 64)).getD 0 0))).wr (R.CORR_IMP_n c) (unsigned 6
    (((s.calSeq c).corrOf (e % 64)).getD 1 0)))) ∧
  (∀ (s : State) (c : Nat) (e : Nat) (t u : State), t = s.wr (R.CAL_SEL_end c) (e % 64) → c < clustersOf s → pageOpen
    s (0x20 + c) = true → 37 < e % 64 → u = t.wr (R.CAL_TCAL_temp c) 0 → exec (.calSelWrite c e) s = .next
    ((((corrFields c).foldl (fun s p => s.wr p.1 0) u).wr (R.CORR_IMP_p c) 0).wr (R.CORR_IMP_n c) 0))

/-- In SERVICE or GUARD with BST clocked, the interval, once its time has come, sets the next time one interval on and
gives each unfenced die its bank and bobbin turns where they are enabled; else it changes nothing (R381). The end of
the bobbin slice of a die records PASS, FAIL or INCOMPLETE with cause STALL by lock, 2^26 bits, errors and replica,
with errors and rung, notes the bobbin as last tested, stops the slice and raises 16c + 15; PASS of one that is
being enabled makes it READY, FAIL takes it OUT with why 2 (R381, R383, R316). A stall stops the bank slice of a die
and ends its bobbin slice INCOMPLETE, with a free count of errors (R376; DESIGN CHOICE, log 214). With the page
answering, BOBBIN_NOW of a READY bobbin of an unfenced die with no slice begins it, in SERVICE, GUARD or TEST, and
ends it with LIMIT where a limit of R376 does not hold; else refused (DEDUCED, log 130). ABORT ends every slice with
cause HOST (R384). FULL in TEST scrubs and runs; else refused (R391). TEST_ENTER with confirm 0x5A in SERVICE or
GUARD begins TEST entry with cause 1; else refused; TEST_EN begins it with cause 3, but not in power-on reset, TEST,
TEST entry or a START failure (DEDUCED, log 279): 289 is raised, slices end, links halt, keys are zeroed, the fuse
key path is blocked (R390). The end of the entry, once every EIE set is sent and no bank test runs, scrubs, holds
the interval, records and is in TEST (R390, R394). A write of BST_CFG stores its fields clamped and restarts the
interval (R381, R395). -/
def Obligations.BuiltInSelfTest : Prop :=
  (∀ (s : State)  (n : Nat) (t : State), s.bist.nextAt = some n → t =
    ({ s with bist := { s.bist with nextAt := some (n + bistInterval s) } } : State) → n ≤ s.clock → inRun s = true →
    s.rd (R.CLK_EN_en 7) = 1 → exec .sliceInterval s = .next ((List.range (diesOf t)).foldl (fun s d => if dieFenced s
    d then s else (if (if s.on R.BST_CFG_bank_en && !bankSliceRuns s d then bankSliceTurn d s else s).on
    R.BST_CFG_bob_en then bobSliceTurn d (if s.on R.BST_CFG_bank_en && !bankSliceRuns s d then bankSliceTurn d s else
    s) else (if s.on R.BST_CFG_bank_en && !bankSliceRuns s d then bankSliceTurn d s else s))) t)) ∧
  (∀ (s : State)  (n : Nat), s.bist.nextAt = some n → (n ≤ s.clock && inRun s && s.rd (R.CLK_EN_en 7) = 1) = false →
    exec .sliceInterval s = .next (s)) ∧
  (∀ (s : State), s.bist.nextAt = none → exec .sliceInterval s = .next (s)) ∧
  (∀ (s : State) (c : Nat) (bits : Nat) (errors : Nat) (t u : State), t = (((s.wr (R.BOB_RES_result c) resPass).wr
    (R.BOB_RES_cause c) 0).wr (R.BOB_RES_errors c) (min errors 65535)).wr (R.BOB_RES_rung c) (s.bob c).sliceRung → u =
    (bobSliceOff (clusterDie c) c (setLastBobbin (clusterDie c) c t)).raise (16 * c + 15) → c < clustersOf s →
    bobSliceOf s (clusterDie c) = some c → bits = 2 ^ 26 → errors = 0 → (s.bob c).enabling = false → exec
    (.bobbinSliceEnd c bits errors false false) s = .next (u)) ∧
  (∀ (s : State) (c : Nat) (bits : Nat) (errors : Nat) (t u : State), t = (((s.wr (R.BOB_RES_result c) resPass).wr
    (R.BOB_RES_cause c) 0).wr (R.BOB_RES_errors c) (min errors 65535)).wr (R.BOB_RES_rung c) (s.bob c).sliceRung → u =
    (bobSliceOff (clusterDie c) c (setLastBobbin (clusterDie c) c t)).raise (16 * c + 15) → c < clustersOf s →
    bobSliceOf s (clusterDie c) = some c → bits = 2 ^ 26 → errors = 0 → (s.bob c).enabling = true → exec
    (.bobbinSliceEnd c bits errors false false) s = .next ((u.wr (R.BOB_STAT_state c) bbReady).wr (R.BOB_STAT_out_why
    c) 0)) ∧
  (∀ (s : State) (c : Nat) (bits : Nat) (errors : Nat) (replica : Bool) (t u : State), t = (((s.wr (R.BOB_RES_result
    c) resFail).wr (R.BOB_RES_cause c) 0).wr (R.BOB_RES_errors c) (min errors 65535)).wr (R.BOB_RES_rung c) (s.bob
    c).sliceRung → u = (bobSliceOff (clusterDie c) c (setLastBobbin (clusterDie c) c t)).raise (16 * c + 15) → c <
    clustersOf s → bobSliceOf s (clusterDie c) = some c → bits = 2 ^ 26 → (errors ≠ 0 || replica) = true → exec
    (.bobbinSliceEnd c bits errors false replica) s = .next ((u.wr (R.BOB_STAT_state c) bbOut).wr (R.BOB_STAT_out_why
    c) 2)) ∧
  (∀ (s : State) (c : Nat) (bits : Nat) (errors : Nat) (replica : Bool) (t u : State), t = (((s.wr (R.BOB_RES_result
    c) resFail).wr (R.BOB_RES_cause c) 0).wr (R.BOB_RES_errors c) (min errors 65535)).wr (R.BOB_RES_rung c) (s.bob
    c).sliceRung → u = (bobSliceOff (clusterDie c) c (setLastBobbin (clusterDie c) c t)).raise (16 * c + 15) → c <
    clustersOf s → bobSliceOf s (clusterDie c) = some c → exec (.bobbinSliceEnd c bits errors true replica) s = .next
    ((u.wr (R.BOB_STAT_state c) bbOut).wr (R.BOB_STAT_out_why c) 2)) ∧
  (∀ (s : State) (c : Nat) (bits : Nat) (errors : Nat) (replica : Bool) (t u : State), t = (((s.wr (R.BOB_RES_result
    c) resIncomplete).wr (R.BOB_RES_cause c) causeStall).wr (R.BOB_RES_errors c) (min errors 65535)).wr
    (R.BOB_RES_rung c) (s.bob c).sliceRung → u = (bobSliceOff (clusterDie c) c (setLastBobbin (clusterDie c) c
    t)).raise (16 * c + 15) → c < clustersOf s → bobSliceOf s (clusterDie c) = some c → bits ≠ 2 ^ 26 → exec
    (.bobbinSliceEnd c bits errors false replica) s = .next (u)) ∧
  (∀ (s : State) (die : Nat) (t : State), t = bankStop die resIncomplete causeStall s → die < diesOf s → (bobSliceOf t
    die).isNone = true → exec (.bistStall die) s = .next (t)) ∧
  (∀ (s : State) (die : Nat) (t : State) (i : Nat) (u : State), t = bankStop die resIncomplete causeStall s → die <
    diesOf s → (bobSliceOf t die).isNone = false → t.draw = (i, u) → exec (.bistStall die) s = .next (bobSliceEnd die
    resIncomplete causeStall (Config.freeValue i % 65536) u)) ∧
  (∀ (s : State) (c : Nat) (t u v w : State), t = (s.wr R.BST_CMD_op 0).wr R.BST_CMD_cluster c → w = t.wrB
    R.BST_CMD_refused false → u = ((w.setBobSlice (clusterDie c) (some c)).putBob c
    { w.bob c with slice := true, enabling := false, sliceAt := w.clock, sliceRung := sliceRung w c, started := ([Dir.ab, Dir.ba].filter fun d => ckRate w c d = 7 && !w.on (R.CK_STAT_own_lock c d.idx)).map Dir.idx })
    → v = rxPolApply (128 + c) .b (rxPolApply (128 + c) .a (testSync w (128 + c) u)) → pageOpen s 7 = true → (c <
    clustersOf t && (inService t || t.dev.phase = .test) && !dieFenced t (clusterDie c) && t.rd (R.BOB_STAT_state c) =
    bbReady && (bobSliceOf t (clusterDie c)).isNone) = true → limitCause v (clusterDie c) = 0 → exec (.bstBobbinNow c)
    s = .next (v)) ∧
  (∀ (s : State) (c : Nat) (t u v w : State), t = (s.wr R.BST_CMD_op 0).wr R.BST_CMD_cluster c → w = t.wrB
    R.BST_CMD_refused false → u = ((w.setBobSlice (clusterDie c) (some c)).putBob c
    { w.bob c with slice := true, enabling := false, sliceAt := w.clock, sliceRung := sliceRung w c, started := ([Dir.ab, Dir.ba].filter fun d => ckRate w c d = 7 && !w.on (R.CK_STAT_own_lock c d.idx)).map Dir.idx })
    → v = rxPolApply (128 + c) .b (rxPolApply (128 + c) .a (testSync w (128 + c) u)) → pageOpen s 7 = true → (c <
    clustersOf t && (inService t || t.dev.phase = .test) && !dieFenced t (clusterDie c) && t.rd (R.BOB_STAT_state c) =
    bbReady && (bobSliceOf t (clusterDie c)).isNone) = true → limitCause v (clusterDie c) ≠ 0 → exec (.bstBobbinNow c)
    s = .next (bobSliceEnd (clusterDie c) resLimit (limitCause v (clusterDie c)) 0 v)) ∧
  (∀ (s : State) (c : Nat) (t : State), t = (s.wr R.BST_CMD_op 0).wr R.BST_CMD_cluster c → pageOpen s 7 = true → (c <
    clustersOf t && (inService t || t.dev.phase = .test) && !dieFenced t (clusterDie c) && t.rd (R.BOB_STAT_state c) =
    bbReady && (bobSliceOf t (clusterDie c)).isNone) = false → exec (.bstBobbinNow c) s = .next (t.wrB
    R.BST_CMD_refused true)) ∧
  (∀ (s : State), pageOpen s 7 = true → exec .bstAbort s = .next (slicesEnd 1 resAborted causeHost (slicesEnd 0
    resAborted causeHost ((s.wr R.BST_CMD_op 1).wrB R.BST_CMD_refused false)))) ∧
  (∀ (s : State)  (t u : State), t = dieFree 1 (dieFree 0 ((s.wr R.BST_CMD_op 2).wrB R.BST_CMD_refused false)) → u =
    ({ t with flows := [], trunks := [], sel := { t.sel with queue := [] } } : State).wr R.SEL_STAT_queued 0 →
    pageOpen s 7 = true → s.dev.phase = .test → exec .bstFull s = .next
    ({ u with bist := { u.bist with full := true, postFrom := u.clock } })) ∧
  (∀ (s : State), pageOpen s 7 = true → s.dev.phase ≠ .test → exec .bstFull s = .next ((s.wr R.BST_CMD_op 2).wrB
    R.BST_CMD_refused true)) ∧
  (∀ (s : State)  (t u v w : State), t = ((s.wr R.BST_CMD_op 3).wr R.BST_CMD_confirm 0x5A).wrB R.BST_CMD_refused false
    → u = ({ t.raise 289 with dev := { t.dev with testEntry := 1 } } : State) → v = slicesEnd 1 resAborted causeHost
    (slicesEnd 0 resAborted causeHost u) → w = (keysZeroed (haltAll (if t.dev.phase = .start then calClocks v else
    v))).wr R.KEY_STAT_session 0 → pageOpen s 7 = true → inRun s = true → t.dev.phase ≠ .off → t.dev.phase ≠ .test →
    t.dev.testEntry = 0 → startFailed t = false → exec (.bstTestEnter 0x5A) s = .next ((((w.wr R.TEST_STAT_keys 1).wr
    R.TEST_STAT_fuse_block 1).wr R.SEC_STAT_fuse_block 1).wr R.ATT_CMD_busy 0)) ∧
  (∀ (s : State) (confirm : Nat), pageOpen s 7 = true → (confirm = 0x5A && inRun s) = false → exec (.bstTestEnter
    confirm) s = .next (((s.wr R.BST_CMD_op 3).wr R.BST_CMD_confirm confirm).wrB R.BST_CMD_refused true)) ∧
  (∀ (s : State)  (u v w : State), u = ({ s.raise 289 with dev := { s.dev with testEntry := 3 } } : State) → v =
    slicesEnd 1 resAborted causeHost (slicesEnd 0 resAborted causeHost u) → w = (keysZeroed (haltAll (if s.dev.phase =
    .start then calClocks v else v))).wr R.KEY_STAT_session 0 → s.dev.phase ≠ .off → s.dev.phase ≠ .test →
    s.dev.testEntry = 0 → startFailed s = false → exec .testEnHigh s = .next ((((w.wr R.TEST_STAT_keys 1).wr
    R.TEST_STAT_fuse_block 1).wr R.SEC_STAT_fuse_block 1).wr R.ATT_CMD_busy 0)) ∧
  (∀ (s : State), (s.dev.phase = .off || s.dev.phase = .test || s.dev.testEntry ≠ 0 || startFailed s) = true → exec
    .testEnHigh s = .next (s)) ∧
  (∀ (s : State) (us : Nat) (t u : State), t = bistHold (scrub s) → u =
    ({ t with dev := { t.dev with phase := .test, testEntry := 0, watchEntry := false, waking := false, stuck := false } }
    : State) → s.dev.testEntry ≠ 0 → eieAwaited s = false → bankSliceRuns s 0 = false → bankSliceRuns s 1 = false →
    exec (.testEntryDone us) s = .next (((((u.wr R.TEST_STAT_scrubbed 1).wr R.TEST_STAT_scrub_us (min us 65535)).wr
    R.TEST_STAT_valid 1).wr R.TEST_STAT_cause s.dev.testEntry).wr R.BST_STAT_test 1)) ∧
  (∀ (s : State) (v : Nat) (t u : State) (n : Nat), t = (s.wr R.BST_CFG_bob_en (bits v 17 17)).wr R.BST_CFG_bank_en
    (bits v 16 16) → u = t.wr R.BST_CFG_interval (max 1 (min 3600 (bits v 11 0))) → pageOpen s 7 = true →
    u.bist.nextAt = some n → exec (.bstCfgWrite v) s = .next
    ({ u with bist := { u.bist with nextAt := some (u.clock + bistInterval u) } })) ∧
  (∀ (s : State) (v : Nat) (t u : State), t = (s.wr R.BST_CFG_bob_en (bits v 17 17)).wr R.BST_CFG_bank_en (bits v 16
    16) → u = t.wr R.BST_CFG_interval (max 1 (min 3600 (bits v 11 0))) → pageOpen s 7 = true → u.bist.nextAt = none →
    exec (.bstCfgWrite v) s = .next ({ u with bist := { u.bist with leftAt := bistInterval u } }))

/-- With the page answering, on a lane that can be selected: a write of LB_CFG, PRBS_GEN or PRBS_CHK against which R386
has a reason stores refused and the reason and nothing else (that the fields stay: DEDUCED, log 134); a pattern code
above 7 sets refused (R387); else refused clears and the fields are stored, an LB_CFG with a loop is active, and the
directions and pads that the loop, generator or checker uses follow; a new checker setting starts it unlocked with
an empty window, and the receive end takes its forced polarity (R385 to R388). On a lane of the part, a checker that
is on and not locked seeds from the bits given: 64 bits that match lock it, 64 that all differ lock it inverted but
at a PAM4 rate, others leave it (R388). The events of a locked checker, within its window (DEDUCED, logs 131 and
242), add bits and errors, eight for each bad symbol of pattern 6, and the first to bring the window's errors above
err_thr raises 16c + 6; more than 64 errors of a window of 1,024 bits end lock, count the loss and empty the window;
the end of the window, when exactly its 2^(20 + win) bits have passed, starts it anew (R388, R389). PRBS_SNAP
latches the bits, errors, losses and buffer events of a lane, adds one to snap_no and answers the number before;
PRBS_CLR zeroes them; on a lane that cannot be selected they answer 0 and change nothing (R389, R395, R494; the
number before: DEDUCED, log 253). -/
def Obligations.LoopsAndPatterns : Prop :=
  (∀ (s : State) (lane : Nat) (v : Nat) (n : Nat), pageOpen s 7 = true → laneSelectable s lane = true → loopWhy s lane
    (bits v 9 8) (bits v 0 0) (bits v 18 16) = some n → exec (.lbCfgWrite lane v) s = .next ((s.wr (R.LB_CFG_refused
    (lanePage lane)) 1).wr (R.LB_CFG_why (lanePage lane)) n)) ∧
  (∀ (s : State) (lane : Nat) (v : Nat) (n : Nat), pageOpen s 7 = true → laneSelectable s lane = true → patternWhy s
    lane (Side.ofIdx (bits v 4 4)).dirOut = some n → exec (.prbsGenWrite lane v) s = .next ((s.wr (R.LB_CFG_refused
    (lanePage lane)) 1).wr (R.LB_CFG_why (lanePage lane)) n)) ∧
  (∀ (s : State) (lane : Nat) (v : Nat) (n : Nat), pageOpen s 7 = true → laneSelectable s lane = true → patternWhy s
    lane (Side.ofIdx (bits v 4 4)).dirIn = some n → exec (.prbsChkWrite lane v) s = .next ((s.wr (R.LB_CFG_refused
    (lanePage lane)) 1).wr (R.LB_CFG_why (lanePage lane)) n)) ∧
  (∀ (s : State) (lane : Nat) (v : Nat) (t u : State), t = (s.wr (R.LB_CFG_refused (lanePage lane)) 0).wr
    (R.LB_CFG_rung (lanePage lane)) (bits v 18 16) → u = (t.wr (R.LB_CFG_loop (lanePage lane)) (bits v 9 8)).wr
    (R.LB_CFG_dir (lanePage lane)) (bits v 0 0) → pageOpen s 7 = true → laneSelectable s lane = true → loopWhy s lane
    (bits v 9 8) (bits v 0 0) (bits v 18 16) = none → exec (.lbCfgWrite lane v) s = .next (testSync s lane (u.wrB
    (R.LB_CFG_active (lanePage lane)) (decide (bits v 9 8 ≠ 0))))) ∧
  (∀ (s : State) (lane : Nat) (v : Nat), pageOpen s 7 = true → laneSelectable s lane = true → patternWhy s lane
    (Side.ofIdx (bits v 4 4)).dirOut = none → 8 ≤ bits v 3 0 → exec (.prbsGenWrite lane v) s = .next (s.wr
    (R.LB_CFG_refused (lanePage lane)) 1)) ∧
  (∀ (s : State) (lane : Nat) (v : Nat) (t : State), t = (s.wr (R.LB_CFG_refused (lanePage lane)) 0).wr (R.PRBS_GEN_en
    (lanePage lane)) (bits v 12 12) → pageOpen s 7 = true → laneSelectable s lane = true → patternWhy s lane
    (Side.ofIdx (bits v 4 4)).dirOut = none → bits v 3 0 < 8 → exec (.prbsGenWrite lane v) s = .next (testSync s lane
    ((t.wr (R.PRBS_GEN_side (lanePage lane)) (bits v 4 4)).wr (R.PRBS_GEN_pattern (lanePage lane)) (bits v 3 0)))) ∧
  (∀ (s : State) (lane : Nat) (v : Nat), pageOpen s 7 = true → laneSelectable s lane = true → patternWhy s lane
    (Side.ofIdx (bits v 4 4)).dirIn = none → 8 ≤ bits v 3 0 → exec (.prbsChkWrite lane v) s = .next (s.wr
    (R.LB_CFG_refused (lanePage lane)) 1)) ∧
  (∀ (s : State) (lane : Nat) (v : Nat) (t u w x : State), t = (s.wr (R.LB_CFG_refused (lanePage lane)) 0).wr
    (R.PRBS_CHK_err_thr (lanePage lane)) (bits v 31 16) → u = (t.wr (R.PRBS_CHK_en (lanePage lane)) (bits v 12 12)).wr
    (R.PRBS_CHK_win (lanePage lane)) (bits v 11 8) → w = (u.wr (R.PRBS_CHK_side (lanePage lane)) (bits v 4 4)).wr
    (R.PRBS_CHK_pattern (lanePage lane)) (bits v 3 0) → x = ((w.wr (R.PRBS_STAT_lock (lanePage lane)) 0).wr
    (R.PRBS_STAT_inv (lanePage lane)) 0).putPrbs lane {} → pageOpen s 7 = true → laneSelectable s lane = true →
    patternWhy s lane (Side.ofIdx (bits v 4 4)).dirIn = none → bits v 3 0 < 8 → exec (.prbsChkWrite lane v) s = .next
    (checkSync s lane (testSync s lane x))) ∧
  (∀ (s : State) (lane : Nat) (got : List Bool), lanePresent s lane = true → s.on (R.PRBS_CHK_en (lanePage lane)) =
    true → prbsLocked s lane = false → prbsLocks (s.rd (R.PRBS_CHK_pattern (lanePage lane))) (s.rd (R.PRBS_USER_bits
    (lanePage lane))) got = none → exec (.prbsLock lane got) s = .next (s)) ∧
  (∀ (s : State) (lane : Nat) (got : List Bool) (inv : Bool), lanePresent s lane = true → s.on (R.PRBS_CHK_en
    (lanePage lane)) = true → prbsLocked s lane = false → prbsLocks (s.rd (R.PRBS_CHK_pattern (lanePage lane))) (s.rd
    (R.PRBS_USER_bits (lanePage lane))) got = some inv → (inv && isPam (prbsRate s lane)) = false → exec (.prbsLock
    lane got) s = .next ((s.wr (R.PRBS_STAT_lock (lanePage lane)) 1).wrB (R.PRBS_STAT_inv (lanePage lane)) inv)) ∧
  (∀ (s : State) (lane : Nat) (got : List Bool) (inv : Bool), lanePresent s lane = true → s.on (R.PRBS_CHK_en
    (lanePage lane)) = true → prbsLocked s lane = false → prbsLocks (s.rd (R.PRBS_CHK_pattern (lanePage lane))) (s.rd
    (R.PRBS_USER_bits (lanePage lane))) got = some inv → (inv && isPam (prbsRate s lane)) = true → exec (.prbsLock
    lane got) s = .next (s)) ∧
  (∀ (s : State) (lane : Nat) (bits : Nat) (errs : Nat) (bad : Nat) (wnd : Nat) (t : State) (st : PrbsSt) (u : State),
    t = (s.putLive (R.PRBS_BITS_LO (lanePage lane)) (min (s.live (R.PRBS_BITS_LO (lanePage lane)) + bits) (maxOf
    64))).countBy (R.PRBS_ERR (lanePage lane)) (if s.rd (R.PRBS_CHK_pattern (lanePage lane)) = 6 then errs + 8 * bad
    else errs) → st =
    { t.prbsOf lane with winBits := (t.prbsOf lane).winBits + bits, winErrs := (t.prbsOf lane).winErrs + (if s.rd (R.PRBS_CHK_pattern (lanePage lane)) = 6 then errs + 8 * bad else errs) }
    → u = (if t.rd (R.PRBS_CHK_err_thr (lanePage lane)) < st.winErrs && !st.fired then (t.putPrbs lane
    { st with fired := true }).raise (16 * laneCluster lane + 6) else t.putPrbs lane st) → lanePresent s lane = true →
    prbsLocked s lane = true → 64 < wnd → inWindow s lane bits = true → exec (.prbsLockLoss lane bits ⟨errs, bad,
    wnd⟩) s = .next ((((u.wr (R.PRBS_STAT_lock (lanePage lane)) 0).wr (R.PRBS_STAT_inv (lanePage lane)) 0).count
    (R.PRBS_LOSS (lanePage lane))).putPrbs lane {})) ∧
  (∀ (s : State) (lane : Nat) (bits : Nat) (errs : Nat) (bad : Nat) (wnd : Nat) (t : State) (st : PrbsSt) (u : State),
    t = (s.putLive (R.PRBS_BITS_LO (lanePage lane)) (min (s.live (R.PRBS_BITS_LO (lanePage lane)) + bits) (maxOf
    64))).countBy (R.PRBS_ERR (lanePage lane)) (if s.rd (R.PRBS_CHK_pattern (lanePage lane)) = 6 then errs + 8 * bad
    else errs) → st =
    { t.prbsOf lane with winBits := (t.prbsOf lane).winBits + bits, winErrs := (t.prbsOf lane).winErrs + (if s.rd (R.PRBS_CHK_pattern (lanePage lane)) = 6 then errs + 8 * bad else errs) }
    → u = (if t.rd (R.PRBS_CHK_err_thr (lanePage lane)) < st.winErrs && !st.fired then (t.putPrbs lane
    { st with fired := true }).raise (16 * laneCluster lane + 6) else t.putPrbs lane st) → lanePresent s lane = true →
    prbsLocked s lane = true → inWindow s lane bits = true → exec (.prbsErrThreshold lane bits ⟨errs, bad, wnd⟩) s =
    .next (u)) ∧
  (∀ (s : State) (lane : Nat) (bits : Nat) (errs : Nat) (bad : Nat) (wnd : Nat) (t : State) (st : PrbsSt) (u : State),
    t = (s.putLive (R.PRBS_BITS_LO (lanePage lane)) (min (s.live (R.PRBS_BITS_LO (lanePage lane)) + bits) (maxOf
    64))).countBy (R.PRBS_ERR (lanePage lane)) (if s.rd (R.PRBS_CHK_pattern (lanePage lane)) = 6 then errs + 8 * bad
    else errs) → st =
    { t.prbsOf lane with winBits := (t.prbsOf lane).winBits + bits, winErrs := (t.prbsOf lane).winErrs + (if s.rd (R.PRBS_CHK_pattern (lanePage lane)) = 6 then errs + 8 * bad else errs) }
    → u = (if t.rd (R.PRBS_CHK_err_thr (lanePage lane)) < st.winErrs && !st.fired then (t.putPrbs lane
    { st with fired := true }).raise (16 * laneCluster lane + 6) else t.putPrbs lane st) → lanePresent s lane = true →
    prbsLocked s lane = true → (s.prbsOf lane).winBits + bits = prbsWindow s lane → exec (.prbsErrWindowEnd lane bits
    ⟨errs, bad, wnd⟩) s = .next (u.putPrbs lane {})) ∧
  (∀ (s : State) (lane : Nat), pageOpen s 7 = true → laneSelectable s lane = true → exec (.prbsSnap lane) s = .next
    (((State.latchAll [R.PRBS_ERR (lanePage lane), R.PRBS_LOSS (lanePage lane), R.LB_EB (lanePage lane)] (s.latch64
    (R.PRBS_BITS_LO (lanePage lane), R.PRBS_BITS_HI (lanePage lane)))).bumpWrap (R.PRBS_SNAP_snap_no (lanePage
    lane))).answerWord (s.rd (R.PRBS_SNAP_snap_no (lanePage lane))))) ∧
  (∀ (s : State) (lane : Nat), pageOpen s 7 = true → laneSelectable s lane = false → exec (.prbsSnap lane) s = .next
    (s.answerWord 0)) ∧
  (∀ (s : State) (lane : Nat), pageOpen s 7 = true → laneSelectable s lane = true → exec (.prbsClr lane) s = .next
    (State.zeroLive [R.PRBS_BITS_LO (lanePage lane), R.PRBS_ERR (lanePage lane), R.PRBS_LOSS (lanePage lane), R.LB_EB
    (lanePage lane)] s)) ∧
  (∀ (s : State) (lane : Nat), pageOpen s 7 = true → laneSelectable s lane = false → exec (.prbsClr lane) s = .next
    (s))

/-- In every state, the instructions SAMPLE/PRELOAD, IDCODE and BYPASS load their code into the instruction register;
SAMPLE/PRELOAD loads the boundary register with a free value too (PRESUMED, log 280), and IDCODE answers the
identification word of the part: its revision in bits 31 to 28, 0x4128 or 0x4064 in bits 27 to 12, 0x2C5 in bits 11
to 1, bit 0 one (R392). EXTEST, CLAMP, HIGHZ, EXTEST_PULSE, EXTEST_TRAIN and SCAN_ENTRY load theirs; in power-on
reset, in TEST, in TEST entry and after a START failure that is all (DEDUCED, log 279); elsewhere they begin TEST
entry with cause 2: source 289 is raised, every slice ends with cause HOST, the links halt, from START the test
clocks stop, the keys are zeroed, the fuse key path is blocked and an attestation request ends (R390). TRST loads
IDCODE (R392). -/
def Obligations.JtagInstructions : Prop :=
  (∀ (s : State)  (t : State) (i : Nat) (u : State), t = ({ s with dev := { s.dev with jtag := 0x01 } } : State) →
    t.draw = (i, u) → exec .samplePreload s = .next ({ u with dev := { u.dev with cells := i } })) ∧
  (∀ (s : State), exec .idcode s = .next (({ s with dev := { s.dev with jtag := 0x02 } } : State).answerWord
    (s.fuse.rev % 16 * 2 ^ 28 + partCode s * 2 ^ 12 + 0x2C5 * 2 + 1))) ∧
  (∀ (s : State), exec .bypass s = .next (({ s with dev := { s.dev with jtag := 0xFF } } : State))) ∧
  (∀ (s : State), exec .jtagTrst s = .next (({ s with dev := { s.dev with jtag := 0x02 } } : State))) ∧
  (∀ (s : State)  (t u v w : State), t = ({ s with dev := { s.dev with jtag := 0x00 } } : State) → u =
    ({ t.raise 289 with dev := { t.dev with testEntry := 2 } } : State) → v = slicesEnd 1 resAborted causeHost
    (slicesEnd 0 resAborted causeHost u) → w = (keysZeroed (haltAll (if t.dev.phase = .start then calClocks v else
    v))).wr R.KEY_STAT_session 0 → t.dev.phase ≠ .off → t.dev.phase ≠ .test → t.dev.testEntry = 0 → startFailed t =
    false → exec .extest s = .next ((((w.wr R.TEST_STAT_keys 1).wr R.TEST_STAT_fuse_block 1).wr R.SEC_STAT_fuse_block
    1).wr R.ATT_CMD_busy 0)) ∧
  (∀ (s : State)  (t : State), t = ({ s with dev := { s.dev with jtag := 0x00 } } : State) → (t.dev.phase = .off ||
    t.dev.phase = .test || t.dev.testEntry ≠ 0 || startFailed t) = true → exec .extest s = .next (t)) ∧
  (∀ (s : State)  (t u v w : State), t = ({ s with dev := { s.dev with jtag := 0x03 } } : State) → u =
    ({ t.raise 289 with dev := { t.dev with testEntry := 2 } } : State) → v = slicesEnd 1 resAborted causeHost
    (slicesEnd 0 resAborted causeHost u) → w = (keysZeroed (haltAll (if t.dev.phase = .start then calClocks v else
    v))).wr R.KEY_STAT_session 0 → t.dev.phase ≠ .off → t.dev.phase ≠ .test → t.dev.testEntry = 0 → startFailed t =
    false → exec .clamp s = .next ((((w.wr R.TEST_STAT_keys 1).wr R.TEST_STAT_fuse_block 1).wr R.SEC_STAT_fuse_block
    1).wr R.ATT_CMD_busy 0)) ∧
  (∀ (s : State)  (t : State), t = ({ s with dev := { s.dev with jtag := 0x03 } } : State) → (t.dev.phase = .off ||
    t.dev.phase = .test || t.dev.testEntry ≠ 0 || startFailed t) = true → exec .clamp s = .next (t)) ∧
  (∀ (s : State)  (t u v w : State), t = ({ s with dev := { s.dev with jtag := 0x04 } } : State) → u =
    ({ t.raise 289 with dev := { t.dev with testEntry := 2 } } : State) → v = slicesEnd 1 resAborted causeHost
    (slicesEnd 0 resAborted causeHost u) → w = (keysZeroed (haltAll (if t.dev.phase = .start then calClocks v else
    v))).wr R.KEY_STAT_session 0 → t.dev.phase ≠ .off → t.dev.phase ≠ .test → t.dev.testEntry = 0 → startFailed t =
    false → exec .highz s = .next ((((w.wr R.TEST_STAT_keys 1).wr R.TEST_STAT_fuse_block 1).wr R.SEC_STAT_fuse_block
    1).wr R.ATT_CMD_busy 0)) ∧
  (∀ (s : State)  (t : State), t = ({ s with dev := { s.dev with jtag := 0x04 } } : State) → (t.dev.phase = .off ||
    t.dev.phase = .test || t.dev.testEntry ≠ 0 || startFailed t) = true → exec .highz s = .next (t)) ∧
  (∀ (s : State)  (t u v w : State), t = ({ s with dev := { s.dev with jtag := 0x09 } } : State) → u =
    ({ t.raise 289 with dev := { t.dev with testEntry := 2 } } : State) → v = slicesEnd 1 resAborted causeHost
    (slicesEnd 0 resAborted causeHost u) → w = (keysZeroed (haltAll (if t.dev.phase = .start then calClocks v else
    v))).wr R.KEY_STAT_session 0 → t.dev.phase ≠ .off → t.dev.phase ≠ .test → t.dev.testEntry = 0 → startFailed t =
    false → exec .extestPulse s = .next ((((w.wr R.TEST_STAT_keys 1).wr R.TEST_STAT_fuse_block 1).wr
    R.SEC_STAT_fuse_block 1).wr R.ATT_CMD_busy 0)) ∧
  (∀ (s : State)  (t : State), t = ({ s with dev := { s.dev with jtag := 0x09 } } : State) → (t.dev.phase = .off ||
    t.dev.phase = .test || t.dev.testEntry ≠ 0 || startFailed t) = true → exec .extestPulse s = .next (t)) ∧
  (∀ (s : State)  (t u v w : State), t = ({ s with dev := { s.dev with jtag := 0x0A } } : State) → u =
    ({ t.raise 289 with dev := { t.dev with testEntry := 2 } } : State) → v = slicesEnd 1 resAborted causeHost
    (slicesEnd 0 resAborted causeHost u) → w = (keysZeroed (haltAll (if t.dev.phase = .start then calClocks v else
    v))).wr R.KEY_STAT_session 0 → t.dev.phase ≠ .off → t.dev.phase ≠ .test → t.dev.testEntry = 0 → startFailed t =
    false → exec .extestTrain s = .next ((((w.wr R.TEST_STAT_keys 1).wr R.TEST_STAT_fuse_block 1).wr
    R.SEC_STAT_fuse_block 1).wr R.ATT_CMD_busy 0)) ∧
  (∀ (s : State)  (t : State), t = ({ s with dev := { s.dev with jtag := 0x0A } } : State) → (t.dev.phase = .off ||
    t.dev.phase = .test || t.dev.testEntry ≠ 0 || startFailed t) = true → exec .extestTrain s = .next (t)) ∧
  (∀ (s : State)  (t u v w : State), t = ({ s with dev := { s.dev with jtag := 0x20 } } : State) → u =
    ({ t.raise 289 with dev := { t.dev with testEntry := 2 } } : State) → v = slicesEnd 1 resAborted causeHost
    (slicesEnd 0 resAborted causeHost u) → w = (keysZeroed (haltAll (if t.dev.phase = .start then calClocks v else
    v))).wr R.KEY_STAT_session 0 → t.dev.phase ≠ .off → t.dev.phase ≠ .test → t.dev.testEntry = 0 → startFailed t =
    false → exec .scanEntry s = .next ((((w.wr R.TEST_STAT_keys 1).wr R.TEST_STAT_fuse_block 1).wr
    R.SEC_STAT_fuse_block 1).wr R.ATT_CMD_busy 0)) ∧
  (∀ (s : State)  (t : State), t = ({ s with dev := { s.dev with jtag := 0x20 } } : State) → (t.dev.phase = .off ||
    t.dev.phase = .test || t.dev.testEntry ≠ 0 || startFailed t) = true → exec .scanEntry s = .next (t))

/-- On a rail 0-3: below its warn threshold for more than 1 µs, a warning not yet set, outside power-on reset, sets its
bit, counts, sets the input of 260 + rail, ends the slices with LIMIT and cause SUPPLY and pauses a POST that runs;
a level that is not so, a warning already set, or power-on reset changes nothing (R399, R400, R376). Above warn + 10
mV for more than 1 µs, the warning clears with its input; where no warning is left a paused POST goes on, its pause
added to the pauses; slices of suspect banks may start; else nothing (R400, R376). A supply sample stores each
rail's value, clamped to 12 bits, and its minimum, and nothing in power-on reset (R418). With the page answering,
FENCE_CMD on a unit other than 7 stores op and unit; with a reason against it it stores the reason and is refused
(that the fields are stored: DEDUCED, log 106). With none, why and refused clear. A fence records cause HOST in the
region (unit 0-3), in the die (4, 5) with PARENT in its regions, or in the package (6) with PARENT in its dies and
their regions, over no cause or PARENT, and halts what is fenced (R408, R409, R410). A lift clears the region; or
the die and its regions of cause PARENT, frees its slots and judges its pneed afresh; or the package and so each die
of cause PARENT; the links that no fence holds any longer train, a re-check for the lift starts and slices of
suspect banks may start (R410). -/
def Obligations.SuppliesAndFences : Prop :=
  (∀ (s : State) (rail : Nat) (mv : Nat) (ns : Nat) (t u : State), t = ((s.wr (R.SUP_STAT_warn rail) 1).bump
    (R.SUP_CNT_cnt rail)).setInput (260 + rail) true → u = slicesEnd 1 resLimit causeSupply (slicesEnd 0 resLimit
    causeSupply t) → rail < 4 → mv < (railLevels rail).1 → 1000 < ns → s.on (R.SUP_STAT_warn rail) = false →
    s.dev.phase ≠ .off → (u.dev.phase = .start && u.rd R.START_STAT_step = 5 && u.bist.pauseFrom.isNone && anyWarn u)
    = true → exec (.supplyWarnSet ⟨rail, mv, ns⟩) s = .next
    ({ u with bist := { u.bist with pauseFrom := some u.clock } })) ∧
  (∀ (s : State) (rail : Nat) (mv : Nat) (ns : Nat) (t u : State), t = ((s.wr (R.SUP_STAT_warn rail) 1).bump
    (R.SUP_CNT_cnt rail)).setInput (260 + rail) true → u = slicesEnd 1 resLimit causeSupply (slicesEnd 0 resLimit
    causeSupply t) → rail < 4 → mv < (railLevels rail).1 → 1000 < ns → s.on (R.SUP_STAT_warn rail) = false →
    s.dev.phase ≠ .off → (u.dev.phase = .start && u.rd R.START_STAT_step = 5 && u.bist.pauseFrom.isNone && anyWarn u)
    = false → exec (.supplyWarnSet ⟨rail, mv, ns⟩) s = .next (u)) ∧
  (∀ (s : State) (rail : Nat) (mv : Nat) (ns : Nat), rail < 4 → (!railWarns ⟨rail, mv, ns⟩ || s.on (R.SUP_STAT_warn
    rail) || s.dev.phase = .off) = true → exec (.supplyWarnSet ⟨rail, mv, ns⟩) s = .next (s)) ∧
  (∀ (s : State) (rail : Nat) (mv : Nat) (ns : Nat) (t : State), t = (s.wr (R.SUP_STAT_warn rail) 0).setInput (260 +
    rail) false → rail < 4 → (railLevels rail).1 + 10 < mv → 1000 < ns → s.on (R.SUP_STAT_warn rail) = true →
    t.bist.pauseFrom = none → exec (.supplyWarnClear ⟨rail, mv, ns⟩) s = .next (suspectSlices t)) ∧
  (∀ (s : State) (rail : Nat) (mv : Nat) (ns : Nat) (t : State) (n : Nat), t = (s.wr (R.SUP_STAT_warn rail)
    0).setInput (260 + rail) false → rail < 4 → (railLevels rail).1 + 10 < mv → 1000 < ns → s.on (R.SUP_STAT_warn
    rail) = true → t.bist.pauseFrom = some n → anyWarn t = true → exec (.supplyWarnClear ⟨rail, mv, ns⟩) s = .next
    (suspectSlices t)) ∧
  (∀ (s : State) (rail : Nat) (mv : Nat) (ns : Nat) (t : State) (n : Nat), t = (s.wr (R.SUP_STAT_warn rail)
    0).setInput (260 + rail) false → rail < 4 → (railLevels rail).1 + 10 < mv → 1000 < ns → s.on (R.SUP_STAT_warn
    rail) = true → t.bist.pauseFrom = some n → anyWarn t = false → exec (.supplyWarnClear ⟨rail, mv, ns⟩) s = .next
    (suspectSlices { t with bist := { t.bist with pauseFrom := none, paused := t.bist.paused + (t.clock - n) } })) ∧
  (∀ (s : State) (rail : Nat) (mv : Nat) (ns : Nat), rail < 4 → (railClears ⟨rail, mv, ns⟩ && s.on (R.SUP_STAT_warn
    rail)) = false → exec (.supplyWarnClear ⟨rail, mv, ns⟩) s = .next (s)) ∧
  (∀ (s : State) (vals : List Nat), s.dev.phase ≠ .off → exec (.supplySample vals) s = .next (((List.range 4).zip
    vals).foldl (fun s p => (s.wr (R.SUP_V_now p.1) (min p.2 4095)).wr (R.SUP_V_min p.1) (min (min p.2 4095) (s.rd
    (R.SUP_V_min p.1)))) s)) ∧
  (∀ (s : State) (vals : List Nat), s.dev.phase = .off → exec (.supplySample vals) s = .next (s)) ∧
  (∀ (s : State) (unit : Nat) (t u v : State), t = fenceStore 0 (unit % 8) s → u = (t.wr R.FENCE_CMD_why 0).wr
    R.FENCE_CMD_refused 0 → pageOpen s 0 = true → v = (if u.rd (R.FENCE_STAT_region (unit % 8)) = 0 || u.rd
    (R.FENCE_STAT_region (unit % 8)) = fcParent then u.wr (R.FENCE_STAT_region (unit % 8)) fcHost else u) → fenceWhy t
    0 (unit % 8) = 0 → unit % 8 < 4 → exec (.fenceCmdFence unit) s = .next (if inRun v then haltFenced v else v)) ∧
  (∀ (s : State) (unit : Nat) (t u v w : State), t = fenceStore 0 (unit % 8) s → u = (t.wr R.FENCE_CMD_why 0).wr
    R.FENCE_CMD_refused 0 → pageOpen s 0 = true → v = (if u.rd (R.FENCE_STAT_die (unit % 8 - 4)) = 0 || u.rd
    (R.FENCE_STAT_die (unit % 8 - 4)) = fcParent then u.wr (R.FENCE_STAT_die (unit % 8 - 4)) fcHost else u) → w =
    parentDie (unit % 8 - 4) v → fenceWhy t 0 (unit % 8) = 0 → 4 ≤ unit % 8 → unit % 8 < 6 → exec (.fenceCmdFence
    unit) s = .next (if inRun w then haltFenced w else w)) ∧
  (∀ (s : State) (unit : Nat) (t u v w : State), t = fenceStore 0 (unit % 8) s → u = (t.wr R.FENCE_CMD_why 0).wr
    R.FENCE_CMD_refused 0 → pageOpen s 0 = true → v = (if u.rd R.FENCE_STAT_pkg = 0 || u.rd R.FENCE_STAT_pkg =
    fcParent then u.wr R.FENCE_STAT_pkg fcHost else u) → w = ((List.range (diesOf v)).foldl (fun s d => parentDie d
    (if s.rd (R.FENCE_STAT_die d) = 0 then s.wr (R.FENCE_STAT_die d) fcParent else s)) v) → fenceWhy t 0 (unit % 8) =
    0 → 6 ≤ unit % 8 → exec (.fenceCmdFence unit) s = .next (if inRun w then haltFenced w else w)) ∧
  (∀ (s : State) (unit : Nat) (t : State), t = fenceStore 0 (unit % 8) s → pageOpen s 0 = true → fenceWhy t 0 (unit %
    8) ≠ 0 → exec (.fenceCmdFence unit) s = .next ((t.wr R.FENCE_CMD_why (fenceWhy t 0 (unit % 8))).wr
    R.FENCE_CMD_refused 1)) ∧
  (∀ (s : State) (unit : Nat) (t u v w : State), t = fenceStore 1 (unit % 8) s → u = (t.wr R.FENCE_CMD_why 0).wr
    R.FENCE_CMD_refused 0 → pageOpen s 0 = true → v = u.wr (R.FENCE_STAT_region (unit % 8)) 0 → w = ((List.range
    (linksOf v)).foldl (fun s k => if linkFenced u k && !linkFenced s k then linkTrain false k s else s) v) → fenceWhy
    t 1 (unit % 8) = 0 → unit % 8 < 4 → exec (.fenceCmdLift unit) s = .next (suspectSlices (startRecheck rkLift w))) ∧
  (∀ (s : State) (unit : Nat) (t u x y v w : State), t = fenceStore 1 (unit % 8) s → u = (t.wr R.FENCE_CMD_why 0).wr
    R.FENCE_CMD_refused 0 → pageOpen s 0 = true → x = u.wr (R.FENCE_STAT_die (unit % 8 - 4)) 0 → y = x.wr
    (R.PRK_DIE_pneed (unit % 8 - 4)) (pNeed provedView x (unit % 8 - 4)) → v = dieFree (unit % 8 - 4) (clearParent
    (R.FENCE_STAT_region (2 * (unit % 8 - 4))) (clearParent (R.FENCE_STAT_region (2 * (unit % 8 - 4) + 1)) y)) → w =
    ((List.range (linksOf v)).foldl (fun s k => if linkFenced u k && !linkFenced s k then linkTrain false k s else s)
    v) → fenceWhy t 1 (unit % 8) = 0 → 4 ≤ unit % 8 → unit % 8 < 6 → exec (.fenceCmdLift unit) s = .next
    (suspectSlices (startRecheck rkLift w))) ∧
  (∀ (s : State) (unit : Nat) (t u v w : State), t = fenceStore 1 (unit % 8) s → u = (t.wr R.FENCE_CMD_why 0).wr
    R.FENCE_CMD_refused 0 → pageOpen s 0 = true → v = liftUnit 6 u → w = ((List.range (linksOf v)).foldl (fun s k =>
    if linkFenced u k && !linkFenced s k then linkTrain false k s else s) v) → fenceWhy t 1 (unit % 8) = 0 → unit % 8
    = 6 → exec (.fenceCmdLift unit) s = .next (suspectSlices (startRecheck rkLift w))) ∧
  (∀ (s : State) (unit : Nat) (t : State), t = fenceStore 1 (unit % 8) s → pageOpen s 0 = true → fenceWhy t 1 (unit %
    8) ≠ 0 → exec (.fenceCmdLift unit) s = .next ((t.wr R.FENCE_CMD_why (fenceWhy t 1 (unit % 8))).wr
    R.FENCE_CMD_refused 1))

/-- Power-on reset sets every register to its reset value, with kind 1, keeping fuses and, of the model, the commands
that wait; a pin reset does so with kind 3, keeping the repair log and the registers that R477 keeps, counted, and
while reset is held it counts alone (DEDUCED, log 181); a brown-out, on a rail below its reset threshold for more
than 100 ns, with kind 2, records its rail and counts, in a held power-on reset nothing (R399, R401, R477). Release
latches the straps, loads fuses, starts the clocks at zero and the native judge, with the method then in force, and
enters START at step 1 (R332, R467, R472). In START with no result and no TEST entry the end of a step acts: 1
stores the digest and, where the image fails, fails with cause 1, else goes to 3, or waits in 2 with no clock
usable; 3 runs the calibrations given in order and goes on once every end is done, to 4 where rows are to be burnt,
else to 5; 4 burns the log; 5, unless paused, records what POST found and goes to 6 on PASS or REPAIRED, else fails
with cause 4; 6 ends once no load runs; 7 ends the judgement; 8 ends with DONE (R372, R378, R380, R472, R473). In
TEST the end of a FULL run records it (R391). The ring wait of 10 ms at step 8 of a package that is not the head
goes to 9; POST pauses of more than 10 ms record INCOMPLETE and fail START with cause 4 (R376). START at 9 completes
with result 1 and time, starts the self-test timer where BST is clocked, and sends READY unless held (R470, R476).
BOOT_CMD releases a held package that is not loading and sends READY, else it is refused (R470, R481). -/
def Obligations.ResetAndStart : Prop :=
  (∀ (s : State)  (t : State), t =
    ({ State.reset with pending := s.pending, freeCtr := s.freeCtr, fuse := s.fuse, dev := { State.reset.dev with jtag := s.dev.jtag, cells := s.dev.cells, railLow := true } }
    : State) → exec .powerOnReset s = .next (t.wr R.RST_CAUSE_kind 1)) ∧
  (∀ (s : State)  (t : State), t =
    ({ State.reset with pending := s.pending, freeCtr := s.freeCtr, fuse := s.fuse, dev := { State.reset.dev with jtag := s.dev.jtag, cells := s.dev.cells, railLow := s.dev.railLow } }
    : State) → s.dev.phase ≠ .off → exec .pinReset s = .next (((keptFields.foldl (fun (t : State) f => t.wr f (s.rd
    f)) { t with bist := { t.bist with log := s.bist.log } }).wr R.RST_CAUSE_kind 3).bump R.RST_CAUSE_pins)) ∧
  (∀ (s : State), s.dev.phase = .off → exec .pinReset s = .next (s.bump R.RST_CAUSE_pins)) ∧
  (∀ (s : State) (rail : Nat) (mv : Nat) (ns : Nat) (t : State), t =
    ({ State.reset with pending := s.pending, freeCtr := s.freeCtr, fuse := s.fuse, dev := { State.reset.dev with jtag := s.dev.jtag, cells := s.dev.cells, railLow := true } }
    : State) → rail < 4 → mv < (railLevels rail).2 → 100 < ns → (s.dev.phase = .off && s.rd R.RST_CAUSE_kind = 1) =
    false → exec (.brownOutReset ⟨rail, mv, ns⟩) s = .next (((((keptFields.foldl (fun (t : State) f => t.wr f (s.rd
    f)) { t with bist := { t.bist with log := s.bist.log } }).wr R.RST_CAUSE_kind 2).wr R.BO_LAST_valid 1).wr
    R.BO_LAST_rail rail).bump R.BO_LAST_count)) ∧
  (∀ (s : State) (rail : Nat) (mv : Nat) (ns : Nat), rail < 4 → (!railFails ⟨rail, mv, ns⟩ || (s.dev.phase = .off &&
    s.rd R.RST_CAUSE_kind = 1)) = true → exec (.brownOutReset ⟨rail, mv, ns⟩) s = .next (s)) ∧
  (∀ (s : State) (straps : Nat) (t u : State), t = clearDie1 (loadFuses (latchStraps straps s)) → u =
    (({ t with dev := { t.dev with phase := .start, railLow := false }, fab := 0, clock := 0 } : State).wr
    R.START_STAT_step 1) → s.dev.phase = .off → exec (.resetRelease straps) s = .next
    ({ u with clk := { u.clk with judgeNow := judgeCompat u } })) ∧
  (∀ (s : State) (straps : Nat), s.dev.phase ≠ .off → exec (.resetRelease straps) s = .next (s)) ∧
  (∀ (s : State)  (t : State) (u : State), t = s.freshOut → s.dev.phase = .start → s.rd R.START_STAT_result = 0 →
    s.dev.testEntry = 0 → t.rd R.START_STAT_step = 1 → u = putDigest R.DIG_SAF_digest (Config.sha384 t.fuse.saffron) t
    → saffronOk t = false → exec (.startStepEnd .done) s = .next (startFails 1 u)) ∧
  (∀ (s : State)  (t : State) (u : State), t = s.freshOut → s.dev.phase = .start → s.rd R.START_STAT_result = 0 →
    s.dev.testEntry = 0 → t.rd R.START_STAT_step = 1 → u = putDigest R.DIG_SAF_digest (Config.sha384 t.fuse.saffron) t
    → saffronOk t = true → exec (.startStepEnd .done) s = .next (if calNoClock u then startStep 2 u else
    enterCalibrate u)) ∧
  (∀ (s : State)  (t : State), t = s.freshOut → s.dev.phase = .start → s.rd R.START_STAT_result = 0 → s.dev.testEntry
    = 0 → t.rd R.START_STAT_step = 2 → calNoClock t = true → exec (.startStepEnd .done) s = .next (t)) ∧
  (∀ (s : State)  (t : State), t = s.freshOut → s.dev.phase = .start → s.rd R.START_STAT_result = 0 → s.dev.testEntry
    = 0 → t.rd R.START_STAT_step = 2 → calNoClock t = false → exec (.startStepEnd .done) s = .next (enterCalibrate t)) ∧
  (∀ (s : State)  (t : State) (u : State) (runs : List (Nat × Nat × CalMeasure)), t = s.freshOut → s.dev.phase =
    .start → s.rd R.START_STAT_result = 0 → s.dev.testEntry = 0 → t.rd R.START_STAT_step = 3 → u = startRuns runs t →
    allCalibrated u = true → exec (.startStepEnd (.calibrate runs)) s = .next (enterRepair u)) ∧
  (∀ (s : State)  (t : State) (u : State) (runs : List (Nat × Nat × CalMeasure)), t = s.freshOut → s.dev.phase =
    .start → s.rd R.START_STAT_result = 0 → s.dev.testEntry = 0 → t.rd R.START_STAT_step = 3 → u = startRuns runs t →
    allCalibrated u = false → exec (.startStepEnd (.calibrate runs)) s = .next (u)) ∧
  (∀ (s : State)  (t : State), t = s.freshOut → s.dev.phase = .start → s.rd R.START_STAT_result = 0 → s.dev.testEntry
    = 0 → t.rd R.START_STAT_step = 3 → allCalibrated t = true → exec (.startStepEnd .done) s = .next (enterRepair t)) ∧
  (∀ (s : State)  (t : State), t = s.freshOut → s.dev.phase = .start → s.rd R.START_STAT_result = 0 → s.dev.testEntry
    = 0 → t.rd R.START_STAT_step = 3 → allCalibrated t = false → exec (.startStepEnd .done) s = .next (t)) ∧
  (∀ (s : State)  (t : State), t = s.freshOut → s.dev.phase = .start → s.rd R.START_STAT_result = 0 → s.dev.testEntry
    = 0 → t.rd R.START_STAT_step = 4 → exec (.startStepEnd .done) s = .next (enterPost (burnLog t))) ∧
  (∀ (s : State)  (t : State) (r : PostEnd), t = s.freshOut → s.dev.phase = .start → s.rd R.START_STAT_result = 0 →
    s.dev.testEntry = 0 → t.rd R.START_STAT_step = 5 → t.bist.pauseFrom.isSome = true → exec (.startStepEnd (.post r))
    s = .next (t)) ∧
  (∀ (s : State)  (t : State) (u : State) (r : PostEnd), t = s.freshOut → s.dev.phase = .start → s.rd
    R.START_STAT_result = 0 → s.dev.testEntry = 0 → t.rd R.START_STAT_step = 5 → u = postRecord r t →
    t.bist.pauseFrom.isSome = false → exec (.startStepEnd (.post r)) s = .next (if u.rd R.BST_POST_result = resPass ||
    u.rd R.BST_POST_result = resRepaired then startStep 6 (loadBegins u) else startFails 4 u)) ∧
  (∀ (s : State)  (t : State), t = s.freshOut → s.dev.phase = .start → s.rd R.START_STAT_result = 0 → s.dev.testEntry
    = 0 → t.rd R.START_STAT_step = 6 → t.on R.BT_STAT_loading = true → exec (.startStepEnd .done) s = .next (t)) ∧
  (∀ (s : State)  (t : State), t = s.freshOut → s.dev.phase = .start → s.rd R.START_STAT_result = 0 → s.dev.testEntry
    = 0 → t.rd R.START_STAT_step = 6 → t.on R.BT_STAT_loading = false → exec (.startStepEnd .done) s = .next
    (afterTable t)) ∧
  (∀ (s : State)  (t : State), t = s.freshOut → s.dev.phase = .start → s.rd R.START_STAT_result = 0 → s.dev.testEntry
    = 0 → t.rd R.START_STAT_step = 7 → t.clk.rejudge = true → exec (.startStepEnd .done) s = .next (enterRing
    (rejudgeFailed t))) ∧
  (∀ (s : State)  (t : State), t = s.freshOut → s.dev.phase = .start → s.rd R.START_STAT_result = 0 → s.dev.testEntry
    = 0 → t.rd R.START_STAT_step = 7 → t.clk.rejudge = false → exec (.startStepEnd .done) s = .next (enterRing t)) ∧
  (∀ (s : State)  (t : State), t = s.freshOut → s.dev.phase = .start → s.rd R.START_STAT_result = 0 → s.dev.testEntry
    = 0 → t.rd R.START_STAT_step = 8 → t.on R.PCT_STAT_enum_done = true → exec (.startStepEnd .done) s = .next
    (startStep 9 t)) ∧
  (∀ (s : State)  (t : State), t = s.freshOut → s.dev.phase = .start → s.rd R.START_STAT_result = 0 → s.dev.testEntry
    = 0 → t.rd R.START_STAT_step = 8 → t.on R.PCT_STAT_enum_done = false → exec (.startStepEnd .done) s = .next (t)) ∧
  (∀ (s : State)  (t : State) (r : PostEnd), t = postRecord r s → s.dev.phase = .test → s.bist.full = true → exec
    (.startStepEnd (.post r)) s = .next ({ t with bist := { t.bist with full := false } })) ∧
  (∀ (s : State), s.dev.phase = .start → s.rd R.START_STAT_result = 0 → s.rd R.START_STAT_step = 8 → s.dev.testEntry =
    0 → s.dev.stepAt + 10000000 ≤ s.clock → isHead s = false → exec .ringWaitEnd s = .next
    ({ s.wr R.START_STAT_step 9 with dev := { s.dev with stepAt := s.clock } })) ∧
  (∀ (s : State)  (t : State), t = (postTime s).wr R.BST_POST_result resIncomplete → s.dev.phase = .start → s.rd
    R.START_STAT_step = 5 → 10000000 < postPaused s → t.dev.phase = .start → t.rd R.START_STAT_result = 0 → exec
    .postPauseLimit s = .next ((t.wr R.START_STAT_result 2).wr R.START_STAT_cause 4)) ∧
  (∀ (s : State), (s.dev.phase = .start && s.rd R.START_STAT_step = 5 && 10000000 < postPaused s) = false → exec
    .postPauseLimit s = .next (s)) ∧
  (∀ (s : State)  (t u v : State), t =
    (({ s.freshOut with dev := { s.dev with phase := .run, held := s.freshOut.rd R.STRAPS_boot_eff = 2, everRun := true } }
    : State).wr R.START_STAT_result 1) → u = t.wr R.START_STAT_us (min (s.clock / 1000) 65535) → v = (if u.rd
    (R.CLK_EN_en 7) = 0 then { u with bist := { u.bist with nextAt := none, leftAt := bistInterval u } } else
    { u with bist := { u.bist with nextAt := some (u.clock + bistInterval u) } }) → s.dev.phase = .start → s.rd
    R.START_STAT_result = 0 → s.rd R.START_STAT_step = 9 → s.dev.testEntry = 0 → exec .startComplete s = .next
    (haltFenced (if v.dev.held then v else v.sendReady))) ∧
  (∀ (s : State)  (t : State), t = s.freshOut.wr R.BOOT_CMD_op 0 → pageOpen s 0 = true → t.dev.held = true → t.on
    R.BT_STAT_loading = false → exec .bootRelease s = .next ((({ t with dev := { t.dev with held := false } } :
    State).wr R.BOOT_CMD_refused 0).sendReady)) ∧
  (∀ (s : State)  (t : State), t = s.freshOut.wr R.BOOT_CMD_op 0 → pageOpen s 0 = true → (!t.dev.held || t.on
    R.BT_STAT_loading) = true → exec .bootRelease s = .next (t.wr R.BOOT_CMD_refused 1))

/-- Outside power-on reset, the management domain not held, at a LOCKED input, an intact message (R446) of the command's
type, but for TRAIN on an input that is not crossed (DEDUCED, log 215), acts, its hop heard. TRAIN: tag and time are
kept, its echo gives the hop's delay; naming its ring it counts, the eighth in a row bringing the hop up with a
BREAK; naming the other it makes the hop crossed (R398, R447). ENUM of another package: one more hop is the position
here, PRESENT goes out on the other ring and the ENUM on; the head's own ends the enumeration with the last (R449).
PRESENT at the enumerating head is recorded (DEDUCED, log 204), a second position of one id on one ring making it a
duplicate. DONE of another package: R431, and 295. BREAK at the head enumerates. TIME of another package from the
ring of the time is taken, a later one at once, and goes on with the delay of hop and package added, this a free
value up to 200 ns (R450; DESIGN CHOICE, log 205). GO is recorded and starts the spans that wait once it has begun
(R451). READY at the head sets its sender's bit. A REQ of the head for this package is done and answered on the
other ring, or waits for its page; one out of range, or a SOFT_RESET go in one, is answered (R438, R452; words no
rule states are free, DESIGN CHOICE, log 207). An RSP gives its word to the port that waits, and ends its access or
asks for the next word. A DELIVER at the head is entered unless it is there or served, kept in WATCH (R430); a
COMPLETE ends the service of its source (R453). GO, TIME, DONE go on unless for this package alone (R448). -/
def Obligations.RingMessagesArrive : Prop :=
  (∀ (s : State) (d : Nat) (msg : RingMsg) (x : Msg) (t u : State) (n : Nat) (v w z : State), u = hopBad d msg
    s.freshOut → t = hopHeard d u → d < 2 → ringRuns s = true → mgmtHeld s = false → hopLocked s d = true → intactMsg
    msg = some x → x.type = 1 → v = t.putHop d { t.hop d with rxTag := x.body.getD 2 0, rxAt := some t.clock } → w =
    hopDelay d (x.body.getD 3 0) (beNat (x.body.drop 4)) v → n = min ((w.hop d).trains + 1) 8 → x.body.getD 0 0 = d →
    z = (setHopState d hopUp (w.putHop d { w.hop d with trains := n, everUp := true })).setInput (286 + d) false →
    (hopState w d ≠ hopUp && n = 8) = true → exec (.ringTrainReceive d msg) s = .next (if isHead z then enumStart z
    else z.sendOn (1 - d) (ringBytes 0x0B 0 (ownId z) [d, ownId z]))) ∧
  (∀ (s : State) (d : Nat) (msg : RingMsg) (x : Msg) (t u : State) (n : Nat) (v w : State), u = hopBad d msg
    s.freshOut → t = hopHeard d u → d < 2 → ringRuns s = true → mgmtHeld s = false → hopLocked s d = true → intactMsg
    msg = some x → x.type = 1 → v = t.putHop d { t.hop d with rxTag := x.body.getD 2 0, rxAt := some t.clock } → w =
    hopDelay d (x.body.getD 3 0) (beNat (x.body.drop 4)) v → n = min ((w.hop d).trains + 1) 8 → x.body.getD 0 0 = d →
    (hopState w d ≠ hopUp && n = 8) = false → exec (.ringTrainReceive d msg) s = .next (w.putHop d
    { w.hop d with trains := n })) ∧
  (∀ (s : State) (d : Nat) (msg : RingMsg) (x : Msg) (t u : State) (v w y : State), u = hopBad d msg s.freshOut → t =
    hopHeard d u → d < 2 → ringRuns s = true → mgmtHeld s = false → hopLocked s d = true → intactMsg msg = some x →
    x.type = 1 → v = t.putHop d { t.hop d with rxTag := x.body.getD 2 0, rxAt := some t.clock } → w = hopDelay d
    (x.body.getD 3 0) (beNat (x.body.drop 4)) v → y = w.putHop d { w.hop d with trains := 0 } → x.body.getD 0 0 ≠ d →
    hopState y d = hopCrossed → exec (.ringTrainReceive d msg) s = .next (y)) ∧
  (∀ (s : State) (d : Nat) (msg : RingMsg) (x : Msg) (t u : State) (v w y z : State), u = hopBad d msg s.freshOut → t
    = hopHeard d u → d < 2 → ringRuns s = true → mgmtHeld s = false → hopLocked s d = true → intactMsg msg = some x →
    x.type = 1 → v = t.putHop d { t.hop d with rxTag := x.body.getD 2 0, rxAt := some t.clock } → w = hopDelay d
    (x.body.getD 3 0) (beNat (x.body.drop 4)) v → y = w.putHop d { w.hop d with trains := 0 } → x.body.getD 0 0 ≠ d →
    z = wireFault 8 0 d ((setHopState d hopCrossed y).setInput (286 + d) true) → hopState y d = hopUp → exec
    (.ringTrainReceive d msg) s = .next (if isHead z then enumStart z else z.sendOn (1 - d) (ringBytes 0x0B 0 (ownId
    z) [d, ownId z]))) ∧
  (∀ (s : State) (d : Nat) (msg : RingMsg) (x : Msg) (t u : State) (v w y : State), u = hopBad d msg s.freshOut → t =
    hopHeard d u → d < 2 → ringRuns s = true → mgmtHeld s = false → hopLocked s d = true → intactMsg msg = some x →
    x.type = 1 → v = t.putHop d { t.hop d with rxTag := x.body.getD 2 0, rxAt := some t.clock } → w = hopDelay d
    (x.body.getD 3 0) (beNat (x.body.drop 4)) v → y = w.putHop d { w.hop d with trains := 0 } → x.body.getD 0 0 ≠ d →
    hopState y d ≠ hopCrossed → hopState y d ≠ hopUp → exec (.ringTrainReceive d msg) s = .next (wireFault 8 0 d
    ((setHopState d hopCrossed y).setInput (286 + d) true))) ∧
  (∀ (s : State) (d : Nat) (msg : RingMsg) (x : Msg) (t u : State) (v w y : State), u = hopBad d msg s.freshOut → t =
    hopHeard d u → d < 2 → ringRuns s = true → mgmtHeld s = false → hopLocked s d = true → intactMsg msg = some x →
    x.type = 2 → hopState u d ≠ hopCrossed → v = t.setRingPos d (ownId t) (min (x.body.getD 0 0 + 1) 15) → w =
    ({ v with ring := { v.ring with reached := (v.ring.reached.filter (· ≠ d)) ++ [d] } } : State) → y = w.sendOn (1 -
    d) (ringBytes 3 0 (ownId w) ([d, min (x.body.getD 0 0 + 1) 15] ++ beBytes 2 (partCode w))) → x.src ≠ ownId t →
    x.dest ≠ ownId t → exec (.ringEnum d msg) s = .next (y.sendOn d (ringBytes x.type x.dest x.src [min (x.body.getD 0
    0 + 1) 15, 0]))) ∧
  (∀ (s : State) (d : Nat) (msg : RingMsg) (x : Msg) (t u : State) (v w y : State), u = hopBad d msg s.freshOut → t =
    hopHeard d u → d < 2 → ringRuns s = true → mgmtHeld s = false → hopLocked s d = true → intactMsg msg = some x →
    x.type = 2 → hopState u d ≠ hopCrossed → v = t.setRingPos d (ownId t) (min (x.body.getD 0 0 + 1) 15) → w =
    ({ v with ring := { v.ring with reached := (v.ring.reached.filter (· ≠ d)) ++ [d] } } : State) → y = w.sendOn (1 -
    d) (ringBytes 3 0 (ownId w) ([d, min (x.body.getD 0 0 + 1) 15] ++ beBytes 2 (partCode w))) → x.src ≠ ownId t →
    x.dest = ownId t → exec (.ringEnum d msg) s = .next (y)) ∧
  (∀ (s : State) (d : Nat) (msg : RingMsg) (x : Msg) (t u : State), u = hopBad d msg s.freshOut → t = hopHeard d u → d
    < 2 → ringRuns s = true → mgmtHeld s = false → hopLocked s d = true → intactMsg msg = some x → x.type = 2 →
    hopState u d ≠ hopCrossed → x.src = ownId t → t.ring.enumAt.isNone = true → exec (.ringEnum d msg) s = .next (t)) ∧
  (∀ (s : State) (d : Nat) (msg : RingMsg) (x : Msg) (t u : State) (b : List Nat) (v : State), u = hopBad d msg
    s.freshOut → t = hopHeard d u → d < 2 → ringRuns s = true → mgmtHeld s = false → hopLocked s d = true → intactMsg
    msg = some x → x.type = 2 → hopState u d ≠ hopCrossed → b = (t.ring.enumBack.filter (fun r => r ≠ d) ++ [d]) → v =
    ({ t with ring := { t.ring with enumBack := b } } : State) → x.src = ownId t → t.ring.enumAt.isNone = false →
    v.ring.enumOut.all b.contains = true → exec (.ringEnum d msg) s = .next (enumEnd v)) ∧
  (∀ (s : State) (d : Nat) (msg : RingMsg) (x : Msg) (t u : State) (b : List Nat) (v : State), u = hopBad d msg
    s.freshOut → t = hopHeard d u → d < 2 → ringRuns s = true → mgmtHeld s = false → hopLocked s d = true → intactMsg
    msg = some x → x.type = 2 → hopState u d ≠ hopCrossed → b = (t.ring.enumBack.filter (fun r => r ≠ d) ++ [d]) → v =
    ({ t with ring := { t.ring with enumBack := b } } : State) → x.src = ownId t → t.ring.enumAt.isNone = false →
    v.ring.enumOut.all b.contains = false → exec (.ringEnum d msg) s = .next (v)) ∧
  (∀ (s : State) (d : Nat) (msg : RingMsg) (x : Msg) (t u : State) (p : Nat) (v w : State), u = hopBad d msg
    s.freshOut → t = hopHeard d u → d < 2 → ringRuns s = true → mgmtHeld s = false → hopLocked s d = true → intactMsg
    msg = some x → x.type = 3 → hopState u d ≠ hopCrossed → p = x.body.getD 1 0 → v = t.wr R.PCT_STAT_present (t.rd
    R.PCT_STAT_present ||| 2 ^ x.src) → w =
    ({ v with ring := { v.ring with parts := (x.src, beNat (x.body.drop 2)) :: v.ring.parts.filter fun p => p.1 ≠ x.src } }
    : State) → x.dest = ownId t → isHead t = true → t.ring.enumAt.isSome = true → x.body.getD 0 0 < 2 → bit (w.rd
    R.PCT_STAT_dup) x.src = true → exec (.ringPresent d msg) s = .next (w)) ∧
  (∀ (s : State) (d : Nat) (msg : RingMsg) (x : Msg) (t u : State) (p : Nat) (v w : State), u = hopBad d msg
    s.freshOut → t = hopHeard d u → d < 2 → ringRuns s = true → mgmtHeld s = false → hopLocked s d = true → intactMsg
    msg = some x → x.type = 3 → hopState u d ≠ hopCrossed → p = x.body.getD 1 0 → v = t.wr R.PCT_STAT_present (t.rd
    R.PCT_STAT_present ||| 2 ^ x.src) → w =
    ({ v with ring := { v.ring with parts := (x.src, beNat (x.body.drop 2)) :: v.ring.parts.filter fun p => p.1 ≠ x.src } }
    : State) → x.dest = ownId t → isHead t = true → t.ring.enumAt.isSome = true → x.body.getD 0 0 < 2 → bit (w.rd
    R.PCT_STAT_dup) x.src = false → (ringPos t (x.body.getD 0 0) x.src ≠ 15 && ringPos t (x.body.getD 0 0) x.src ≠ p)
    = true → exec (.ringPresent d msg) s = .next (((w.wr R.PCT_STAT_dup (w.rd R.PCT_STAT_dup ||| 2 ^
    x.src)).setRingPos 0 x.src 15).setRingPos 1 x.src 15)) ∧
  (∀ (s : State) (d : Nat) (msg : RingMsg) (x : Msg) (t u : State) (p : Nat) (v w : State), u = hopBad d msg
    s.freshOut → t = hopHeard d u → d < 2 → ringRuns s = true → mgmtHeld s = false → hopLocked s d = true → intactMsg
    msg = some x → x.type = 3 → hopState u d ≠ hopCrossed → p = x.body.getD 1 0 → v = t.wr R.PCT_STAT_present (t.rd
    R.PCT_STAT_present ||| 2 ^ x.src) → w =
    ({ v with ring := { v.ring with parts := (x.src, beNat (x.body.drop 2)) :: v.ring.parts.filter fun p => p.1 ≠ x.src } }
    : State) → x.dest = ownId t → isHead t = true → t.ring.enumAt.isSome = true → x.body.getD 0 0 < 2 → bit (w.rd
    R.PCT_STAT_dup) x.src = false → (ringPos t (x.body.getD 0 0) x.src ≠ 15 && ringPos t (x.body.getD 0 0) x.src ≠ p)
    = false → exec (.ringPresent d msg) s = .next (w.setRingPos (x.body.getD 0 0) x.src (min p 15))) ∧
  (∀ (s : State) (d : Nat) (msg : RingMsg) (x : Msg) (t u : State), u = hopBad d msg s.freshOut → t = hopHeard d u → d
    < 2 → ringRuns s = true → mgmtHeld s = false → hopLocked s d = true → intactMsg msg = some x → x.type = 3 →
    hopState u d ≠ hopCrossed → x.dest = ownId t → (isHead t && t.ring.enumAt.isSome) = false → exec (.ringPresent d
    msg) s = .next (t)) ∧
  (∀ (s : State) (d : Nat) (msg : RingMsg) (x : Msg) (t u : State) (v : State), u = hopBad d msg s.freshOut → t =
    hopHeard d u → d < 2 → ringRuns s = true → mgmtHeld s = false → hopLocked s d = true → intactMsg msg = some x →
    x.type = 12 → hopState u d ≠ hopCrossed → v = (requeueDelivered (posSync (t.wr R.PCT_STAT_enum_done 1))).raise 295
    → x.src ≠ ownId t → x.dest ≠ ownId t → exec (.ringDone d msg) s = .next (v.sendOn d (ringBytes x.type x.dest x.src
    (x.body)))) ∧
  (∀ (s : State) (d : Nat) (msg : RingMsg) (x : Msg) (t u : State) (v : State), u = hopBad d msg s.freshOut → t =
    hopHeard d u → d < 2 → ringRuns s = true → mgmtHeld s = false → hopLocked s d = true → intactMsg msg = some x →
    x.type = 12 → hopState u d ≠ hopCrossed → v = (requeueDelivered (posSync (t.wr R.PCT_STAT_enum_done 1))).raise 295
    → x.src ≠ ownId t → x.dest = ownId t → exec (.ringDone d msg) s = .next (v)) ∧
  (∀ (s : State) (d : Nat) (msg : RingMsg) (x : Msg) (t u : State), u = hopBad d msg s.freshOut → t = hopHeard d u → d
    < 2 → ringRuns s = true → mgmtHeld s = false → hopLocked s d = true → intactMsg msg = some x → x.type = 12 →
    hopState u d ≠ hopCrossed → x.src = ownId t → exec (.ringDone d msg) s = .next (t)) ∧
  (∀ (s : State) (d : Nat) (msg : RingMsg) (x : Msg) (t u : State), u = hopBad d msg s.freshOut → t = hopHeard d u → d
    < 2 → ringRuns s = true → mgmtHeld s = false → hopLocked s d = true → intactMsg msg = some x → x.type = 11 →
    hopState u d ≠ hopCrossed → x.dest = ownId t → isHead t = true → exec (.ringBreak d msg) s = .next (enumStart t)) ∧
  (∀ (s : State) (d : Nat) (msg : RingMsg) (x : Msg) (t u : State), u = hopBad d msg s.freshOut → t = hopHeard d u → d
    < 2 → ringRuns s = true → mgmtHeld s = false → hopLocked s d = true → intactMsg msg = some x → x.type = 11 →
    hopState u d ≠ hopCrossed → x.dest = ownId t → isHead t = false → exec (.ringBreak d msg) s = .next (t)) ∧
  (∀ (s : State) (d : Nat) (msg : RingMsg) (x : Msg) (t u : State) (n a : Nat) (z v : State) (i : Nat) (w : State), u
    = hopBad d msg s.freshOut → t = hopHeard d u → d < 2 → ringRuns s = true → mgmtHeld s = false → hopLocked s d =
    true → intactMsg msg = some x → x.type = 4 → hopState u d ≠ hopCrossed → n = beNat (x.body.take 8) → a = beNat
    (x.body.drop 8) → z = (if t.fab ≤ n + a + inHop t d then
    { t with fab := n + a + inHop t d, ring := { t.ring with hold := 0 } } else
    { t with ring := { t.ring with hold := t.fab - (n + a + inHop t d) } }) → v = timeTaken (z.wr R.PCT_STAT_time_ok
    1) → v.draw = (i, w) → x.src ≠ ownId t → x.dest ≠ ownId t → timeRing t = some d → exec (.ringTime d msg) s = .next
    (w.sendOn d (ringBytes x.type x.dest x.src (beBytes 8 n ++ beBytes 2 (min (a + inHop v d + Config.freeValue i %
    201) 65535))))) ∧
  (∀ (s : State) (d : Nat) (msg : RingMsg) (x : Msg) (t u : State) (n a i : Nat) (w : State), u = hopBad d msg
    s.freshOut → t = hopHeard d u → d < 2 → ringRuns s = true → mgmtHeld s = false → hopLocked s d = true → intactMsg
    msg = some x → x.type = 4 → hopState u d ≠ hopCrossed → n = beNat (x.body.take 8) → a = beNat (x.body.drop 8) →
    t.draw = (i, w) → x.src ≠ ownId t → x.dest ≠ ownId t → timeRing t ≠ some d → exec (.ringTime d msg) s = .next
    (w.sendOn d (ringBytes x.type x.dest x.src (beBytes 8 n ++ beBytes 2 (min (a + inHop t d + Config.freeValue i %
    201) 65535))))) ∧
  (∀ (s : State) (d : Nat) (msg : RingMsg) (x : Msg) (t u : State), u = hopBad d msg s.freshOut → t = hopHeard d u → d
    < 2 → ringRuns s = true → mgmtHeld s = false → hopLocked s d = true → intactMsg msg = some x → x.type = 4 →
    hopState u d ≠ hopCrossed → x.src = ownId t → exec (.ringTime d msg) s = .next (t)) ∧
  (∀ (s : State) (d : Nat) (msg : RingMsg) (x : Msg) (t u : State) (v w : State), u = hopBad d msg s.freshOut → t =
    hopHeard d u → d < 2 → ringRuns s = true → mgmtHeld s = false → hopLocked s d = true → intactMsg msg = some x →
    x.type = 5 → hopState u d ≠ hopCrossed → v = t.putLive R.PCT_GO_LO_t_go (beNat x.body % 2 ^ 64) → w = (if
    goWaiting v ≠ [] && beNat x.body ≤ v.fab then detectAll (v.wr R.PCT_STAT_late 1) else v) → x.src ≠ ownId t →
    x.dest ≠ ownId t → exec (.ringGo d msg) s = .next (w.sendOn d (ringBytes x.type x.dest x.src (x.body)))) ∧
  (∀ (s : State) (d : Nat) (msg : RingMsg) (x : Msg) (t u : State) (v w : State), u = hopBad d msg s.freshOut → t =
    hopHeard d u → d < 2 → ringRuns s = true → mgmtHeld s = false → hopLocked s d = true → intactMsg msg = some x →
    x.type = 5 → hopState u d ≠ hopCrossed → v = t.putLive R.PCT_GO_LO_t_go (beNat x.body % 2 ^ 64) → w = (if
    goWaiting v ≠ [] && beNat x.body ≤ v.fab then detectAll (v.wr R.PCT_STAT_late 1) else v) → x.src ≠ ownId t →
    x.dest = ownId t → exec (.ringGo d msg) s = .next (w)) ∧
  (∀ (s : State) (d : Nat) (msg : RingMsg) (x : Msg) (t u : State), u = hopBad d msg s.freshOut → t = hopHeard d u → d
    < 2 → ringRuns s = true → mgmtHeld s = false → hopLocked s d = true → intactMsg msg = some x → x.type = 5 →
    hopState u d ≠ hopCrossed → x.src = ownId t → exec (.ringGo d msg) s = .next (t)) ∧
  (∀ (s : State) (d : Nat) (msg : RingMsg) (x : Msg) (t u : State), u = hopBad d msg s.freshOut → t = hopHeard d u → d
    < 2 → ringRuns s = true → mgmtHeld s = false → hopLocked s d = true → intactMsg msg = some x → x.type = 10 →
    hopState u d ≠ hopCrossed → x.dest = ownId t → isHead t = true → exec (.ringReady d msg) s = .next (t.wr
    R.PCT_STAT_ready (t.rd R.PCT_STAT_ready ||| 2 ^ x.src))) ∧
  (∀ (s : State) (d : Nat) (msg : RingMsg) (x : Msg) (t u : State), u = hopBad d msg s.freshOut → t = hopHeard d u → d
    < 2 → ringRuns s = true → mgmtHeld s = false → hopLocked s d = true → intactMsg msg = some x → x.type = 10 →
    hopState u d ≠ hopCrossed → x.dest = ownId t → isHead t = false → exec (.ringReady d msg) s = .next (t)) ∧
  (∀ (s : State) (d : Nat) (msg : RingMsg) (x : Msg) (t u : State) (tag op ad da : Nat), u = hopBad d msg s.freshOut →
    t = hopHeard d u → d < 2 → ringRuns s = true → mgmtHeld s = false → hopLocked s d = true → intactMsg msg = some x
    → x.type = 6 → hopState u d ≠ hopCrossed → tag = x.body.getD 0 0 → op = x.body.getD 1 0 → ad = beNat ((x.body.drop
    2).take 3) → da = beNat (x.body.drop 5) → x.dest = ownId t → (x.src ≠ 0 || 2 ≤ op) = true → exec (.ringReq d msg)
    s = .next (t)) ∧
  (∀ (s : State) (d : Nat) (msg : RingMsg) (x : Msg) (t u : State) (tag op ad da : Nat) (i : Nat) (v : State), u =
    hopBad d msg s.freshOut → t = hopHeard d u → d < 2 → ringRuns s = true → mgmtHeld s = false → hopLocked s d = true
    → intactMsg msg = some x → x.type = 6 → hopState u d ≠ hopCrossed → tag = x.body.getD 0 0 → op = x.body.getD 1 0 →
    ad = beNat ((x.body.drop 2).take 3) → da = beNat (x.body.drop 5) → x.dest = ownId t → x.src = 0 → op < 2 →
    badRange ad 1 = true → t.draw = (i, v) → exec (.ringReq d msg) s = .next (v.sendOn (1 - d) (ringBytes 7 0 (ownId
    v) ([tag, stRange] ++ beBytes 4 (Config.freeValue i % 2 ^ 32))))) ∧
  (∀ (s : State) (d : Nat) (msg : RingMsg) (x : Msg) (t u : State) (tag op ad da : Nat) (i : Nat) (v : State), u =
    hopBad d msg s.freshOut → t = hopHeard d u → d < 2 → ringRuns s = true → mgmtHeld s = false → hopLocked s d = true
    → intactMsg msg = some x → x.type = 6 → hopState u d ≠ hopCrossed → tag = x.body.getD 0 0 → op = x.body.getD 1 0 →
    ad = beNat ((x.body.drop 2).take 3) → da = beNat (x.body.drop 5) → x.dest = ownId t → x.src = 0 → op < 2 →
    badRange ad 1 = false → (op = 1 && goIgnored t ad) = true → t.draw = (i, v) → exec (.ringReq d msg) s = .next
    (v.sendOn (1 - d) (ringBytes 7 0 (ownId v) ([tag, stOk] ++ beBytes 4 (Config.freeValue i % 2 ^ 32))))) ∧
  (∀ (s : State) (d : Nat) (msg : RingMsg) (x : Msg) (t u : State) (tag op ad da : Nat), u = hopBad d msg s.freshOut →
    t = hopHeard d u → d < 2 → ringRuns s = true → mgmtHeld s = false → hopLocked s d = true → intactMsg msg = some x
    → x.type = 6 → hopState u d ≠ hopCrossed → tag = x.body.getD 0 0 → op = x.body.getD 1 0 → ad = beNat ((x.body.drop
    2).take 3) → da = beNat (x.body.drop 5) → x.dest = ownId t → x.src = 0 → op < 2 → badRange ad 1 = false → (op = 1
    && goIgnored t ad) = false → mustWait t 2 ad = true → exec (.ringReq d msg) s = .next (holdAccess
    { port := 2, write := op = 1, addr := ad, words := [da], tag := tag, ring := d } t)) ∧
  (∀ (s : State) (d : Nat) (msg : RingMsg) (x : Msg) (t u : State) (tag op ad da : Nat) (y : State) (i : Nat) (v :
    State), u = hopBad d msg s.freshOut → t = hopHeard d u → d < 2 → ringRuns s = true → mgmtHeld s = false →
    hopLocked s d = true → intactMsg msg = some x → x.type = 6 → hopState u d ≠ hopCrossed → tag = x.body.getD 0 0 →
    op = x.body.getD 1 0 → ad = beNat ((x.body.drop 2).take 3) → da = beNat (x.body.drop 5) → x.dest = ownId t → x.src
    = 0 → op < 2 → badRange ad 1 = false → x.body.getD 1 0 = 1 → goIgnored t ad = false → mustWait t 2 ad = false → y
    = hostWrite ad da t → y.draw = (i, v) → exec (.ringReq d msg) s = .next (v.sendOn (1 - d) (ringBytes 7 0 (ownId v)
    ([tag, stOk] ++ beBytes 4 (Config.freeValue i % 2 ^ 32))))) ∧
  (∀ (s : State) (d : Nat) (msg : RingMsg) (x : Msg) (t u : State) (tag op ad da : Nat) (y : Nat × State), u = hopBad
    d msg s.freshOut → t = hopHeard d u → d < 2 → ringRuns s = true → mgmtHeld s = false → hopLocked s d = true →
    intactMsg msg = some x → x.type = 6 → hopState u d ≠ hopCrossed → tag = x.body.getD 0 0 → op = x.body.getD 1 0 →
    ad = beNat ((x.body.drop 2).take 3) → da = beNat (x.body.drop 5) → x.dest = ownId t → x.src = 0 → op < 2 →
    badRange ad 1 = false → op ≠ 1 → mustWait t 2 ad = false → y = hostRead ad t → exec (.ringReq d msg) s = .next
    (y.2.sendOn (1 - d) (ringBytes 7 0 (ownId y.2) ([tag, stOk] ++ beBytes 4 y.1)))) ∧
  (∀ (s : State) (d : Nat) (msg : RingMsg) (x : Msg) (t u : State), u = hopBad d msg s.freshOut → t = hopHeard d u → d
    < 2 → ringRuns s = true → mgmtHeld s = false → hopLocked s d = true → intactMsg msg = some x → x.type = 7 →
    hopState u d ≠ hopCrossed → x.dest = ownId t → portOfTag t (x.body.getD 0 0) = none → exec (.ringRsp d msg) s =
    .next (t)) ∧
  (∀ (s : State) (d : Nat) (msg : RingMsg) (x : Msg) (t u : State) (p : Nat) (r z : Remote), u = hopBad d msg
    s.freshOut → t = hopHeard d u → d < 2 → ringRuns s = true → mgmtHeld s = false → hopLocked s d = true → intactMsg
    msg = some x → x.type = 7 → hopState u d ≠ hopCrossed → portOfTag t (x.body.getD 0 0) = some (p, r) → z =
    ({ r with got := r.got ++ [beNat (x.body.drop 2)], left := r.left.drop 1, addr := r.addr + 4, status := firstBad r.status (x.body.getD 1 0) }
    : Remote) → x.dest = ownId t → z.left = [] → exec (.ringRsp d msg) s = .next (remoteEnd p z z.status t)) ∧
  (∀ (s : State) (d : Nat) (msg : RingMsg) (x : Msg) (t u : State) (p : Nat) (r z : Remote) (q : Remote × State), u =
    hopBad d msg s.freshOut → t = hopHeard d u → d < 2 → ringRuns s = true → mgmtHeld s = false → hopLocked s d = true
    → intactMsg msg = some x → x.type = 7 → hopState u d ≠ hopCrossed → portOfTag t (x.body.getD 0 0) = some (p, r) →
    z =
    ({ r with got := r.got ++ [beNat (x.body.drop 2)], left := r.left.drop 1, addr := r.addr + 4, status := firstBad r.status (x.body.getD 1 0) }
    : Remote) → x.dest = ownId t → z.left ≠ [] → q = sendReq z t → exec (.ringRsp d msg) s = .next (q.2.putPort p
    { q.2.port p with remote := some q.1 })) ∧
  (∀ (s : State) (d : Nat) (msg : RingMsg) (x : Msg) (t u : State), u = hopBad d msg s.freshOut → t = hopHeard d u → d
    < 2 → ringRuns s = true → mgmtHeld s = false → hopLocked s d = true → intactMsg msg = some x → x.type = 8 →
    hopState u d ≠ hopCrossed → x.dest = ownId t → isHead t = false → exec (.ringDeliver d msg) s = .next (t)) ∧
  (∀ (s : State) (d : Nat) (msg : RingMsg) (x : Msg) (t u : State), u = hopBad d msg s.freshOut → t = hopHeard d u → d
    < 2 → ringRuns s = true → mgmtHeld s = false → hopLocked s d = true → intactMsg msg = some x → x.type = 8 →
    hopState u d ≠ hopCrossed → x.dest = ownId t → isHead t = true → t.dev.phase = .watch → exec (.ringDeliver d msg)
    s = .next ({ t with ring := { t.ring with inWatch := t.ring.inWatch ++ [(x.src, x.body)] } })) ∧
  (∀ (s : State) (d : Nat) (msg : RingMsg) (x : Msg) (t u : State), u = hopBad d msg s.freshOut → t = hopHeard d u → d
    < 2 → ringRuns s = true → mgmtHeld s = false → hopLocked s d = true → intactMsg msg = some x → x.type = 8 →
    hopState u d ≠ hopCrossed → x.dest = ownId t → isHead t = true → t.dev.phase ≠ .watch → (([false, true].any fun f
    => bankServing t f 2 && t.rd (R.BANK_source (cls f) 2) = beNat (x.body.take 2) % 1024 && t.rd (R.BANK_ring (cls f)
    2) = x.src) || (t.entries.any fun e => e.ring = x.src && e.src = beNat (x.body.take 2) % 1024)) = true → exec
    (.ringDeliver d msg) s = .next (t)) ∧
  (∀ (s : State) (d : Nat) (msg : RingMsg) (x : Msg) (t u : State), u = hopBad d msg s.freshOut → t = hopHeard d u → d
    < 2 → ringRuns s = true → mgmtHeld s = false → hopLocked s d = true → intactMsg msg = some x → x.type = 8 →
    hopState u d ≠ hopCrossed → x.dest = ownId t → isHead t = true → t.dev.phase ≠ .watch → (([false, true].any fun f
    => bankServing t f 2 && t.rd (R.BANK_source (cls f) 2) = beNat (x.body.take 2) % 1024 && t.rd (R.BANK_ring (cls f)
    2) = x.src) || (t.entries.any fun e => e.ring = x.src && e.src = beNat (x.body.take 2) % 1024)) = false → exec
    (.ringDeliver d msg) s = .next
    ({ t with entries := t.entries ++ [{ ring := x.src, src := beNat (x.body.take 2) % 1024, fast := 32768 ≤ beNat (x.body.take 2), count := x.body.getD 2 0 }] })) ∧
  (∀ (s : State) (d : Nat) (msg : RingMsg) (x : Msg) (t u : State), u = hopBad d msg s.freshOut → t = hopHeard d u → d
    < 2 → ringRuns s = true → mgmtHeld s = false → hopLocked s d = true → intactMsg msg = some x → x.type = 9 →
    hopState u d ≠ hopCrossed → x.dest = ownId t → sourceExists t (beNat x.body % 1024) = true → exec (.ringComplete d
    msg) s = .next
    ({ t.wr (R.SRC_CFG_active (beNat x.body % 1024)) 0 with ring := { t.ring with resend := t.ring.resend.filter fun y => y ≠ beNat x.body % 1024 } })) ∧
  (∀ (s : State) (d : Nat) (msg : RingMsg) (x : Msg) (t u : State), u = hopBad d msg s.freshOut → t = hopHeard d u → d
    < 2 → ringRuns s = true → mgmtHeld s = false → hopLocked s d = true → intactMsg msg = some x → x.type = 9 →
    hopState u d ≠ hopCrossed → x.dest = ownId t → sourceExists t (beNat x.body % 1024) = false → exec (.ringComplete
    d msg) s = .next (t))

/-- Outside power-on reset, the management domain not held, at a LOCKED input that is not crossed: an intact message of
a type that is for one package (PRESENT, BREAK, READY, REQ, RSP, DELIVER, COMPLETE), for another package and not
sent by this one, leaves on the same ring with the same type, addresses and body, and nothing else changes but the
time at which the hop was last heard and the count of bad symbols of its window; one that comes back to its sender
is dropped and counted (R448). Whatever the command's type: a message that is not intact is dropped and counted, and
TRAINs are no longer consecutive (R446, R447); at an input that is not LOCKED no message is taken, and a bad symbol
there begins the search for commas anew (R55, R445; DEDUCED, log 282); in power-on reset, or while the management
domain is held, nothing changes (R336). -/
def Obligations.RingMessagesPassOn : Prop :=
  (∀ (s : State) (d : Nat) (msg : RingMsg) (x : Msg) (t u : State), u = hopBad d msg s.freshOut → t = hopHeard d u → d
    < 2 → ringRuns s = true → mgmtHeld s = false → hopLocked s d = true → intactMsg msg = some x → x.type = 3 →
    hopState u d ≠ hopCrossed → x.dest ≠ ownId t → x.src ≠ ownId t → exec (.ringPresent d msg) s = .next (t.sendOn d
    (ringBytes x.type x.dest x.src (x.body)))) ∧
  (∀ (s : State) (d : Nat) (msg : RingMsg) (x : Msg) (t u : State), u = hopBad d msg s.freshOut → t = hopHeard d u → d
    < 2 → ringRuns s = true → mgmtHeld s = false → hopLocked s d = true → intactMsg msg = some x → x.type = 11 →
    hopState u d ≠ hopCrossed → x.dest ≠ ownId t → x.src ≠ ownId t → exec (.ringBreak d msg) s = .next (t.sendOn d
    (ringBytes x.type x.dest x.src (x.body)))) ∧
  (∀ (s : State) (d : Nat) (msg : RingMsg) (x : Msg) (t u : State), u = hopBad d msg s.freshOut → t = hopHeard d u → d
    < 2 → ringRuns s = true → mgmtHeld s = false → hopLocked s d = true → intactMsg msg = some x → x.type = 10 →
    hopState u d ≠ hopCrossed → x.dest ≠ ownId t → x.src ≠ ownId t → exec (.ringReady d msg) s = .next (t.sendOn d
    (ringBytes x.type x.dest x.src (x.body)))) ∧
  (∀ (s : State) (d : Nat) (msg : RingMsg) (x : Msg) (t u : State), u = hopBad d msg s.freshOut → t = hopHeard d u → d
    < 2 → ringRuns s = true → mgmtHeld s = false → hopLocked s d = true → intactMsg msg = some x → x.type = 6 →
    hopState u d ≠ hopCrossed → x.dest ≠ ownId t → x.src ≠ ownId t → exec (.ringReq d msg) s = .next (t.sendOn d
    (ringBytes x.type x.dest x.src (x.body)))) ∧
  (∀ (s : State) (d : Nat) (msg : RingMsg) (x : Msg) (t u : State), u = hopBad d msg s.freshOut → t = hopHeard d u → d
    < 2 → ringRuns s = true → mgmtHeld s = false → hopLocked s d = true → intactMsg msg = some x → x.type = 7 →
    hopState u d ≠ hopCrossed → x.dest ≠ ownId t → x.src ≠ ownId t → exec (.ringRsp d msg) s = .next (t.sendOn d
    (ringBytes x.type x.dest x.src (x.body)))) ∧
  (∀ (s : State) (d : Nat) (msg : RingMsg) (x : Msg) (t u : State), u = hopBad d msg s.freshOut → t = hopHeard d u → d
    < 2 → ringRuns s = true → mgmtHeld s = false → hopLocked s d = true → intactMsg msg = some x → x.type = 8 →
    hopState u d ≠ hopCrossed → x.dest ≠ ownId t → x.src ≠ ownId t → exec (.ringDeliver d msg) s = .next (t.sendOn d
    (ringBytes x.type x.dest x.src (x.body)))) ∧
  (∀ (s : State) (d : Nat) (msg : RingMsg) (x : Msg) (t u : State), u = hopBad d msg s.freshOut → t = hopHeard d u → d
    < 2 → ringRuns s = true → mgmtHeld s = false → hopLocked s d = true → intactMsg msg = some x → x.type = 9 →
    hopState u d ≠ hopCrossed → x.dest ≠ ownId t → x.src ≠ ownId t → exec (.ringComplete d msg) s = .next (t.sendOn d
    (ringBytes x.type x.dest x.src (x.body)))) ∧
  (∀ (s : State) (d : Nat) (msg : RingMsg) (x : Msg) (t u : State), u = hopBad d msg s.freshOut → t = hopHeard d u → d
    < 2 → ringRuns s = true → mgmtHeld s = false → hopLocked s d = true → intactMsg msg = some x → x.type = 3 →
    hopState u d ≠ hopCrossed → x.dest ≠ ownId t → x.src = ownId t → exec (.ringPresent d msg) s = .next (t.bump
    R.PCT_CNT_dropped)) ∧
  (∀ (s : State) (d : Nat) (msg : RingMsg) (x : Msg) (t u : State), u = hopBad d msg s.freshOut → t = hopHeard d u → d
    < 2 → ringRuns s = true → mgmtHeld s = false → hopLocked s d = true → intactMsg msg = some x → x.type = 11 →
    hopState u d ≠ hopCrossed → x.dest ≠ ownId t → x.src = ownId t → exec (.ringBreak d msg) s = .next (t.bump
    R.PCT_CNT_dropped)) ∧
  (∀ (s : State) (d : Nat) (msg : RingMsg) (x : Msg) (t u : State), u = hopBad d msg s.freshOut → t = hopHeard d u → d
    < 2 → ringRuns s = true → mgmtHeld s = false → hopLocked s d = true → intactMsg msg = some x → x.type = 10 →
    hopState u d ≠ hopCrossed → x.dest ≠ ownId t → x.src = ownId t → exec (.ringReady d msg) s = .next (t.bump
    R.PCT_CNT_dropped)) ∧
  (∀ (s : State) (d : Nat) (msg : RingMsg) (x : Msg) (t u : State), u = hopBad d msg s.freshOut → t = hopHeard d u → d
    < 2 → ringRuns s = true → mgmtHeld s = false → hopLocked s d = true → intactMsg msg = some x → x.type = 6 →
    hopState u d ≠ hopCrossed → x.dest ≠ ownId t → x.src = ownId t → exec (.ringReq d msg) s = .next (t.bump
    R.PCT_CNT_dropped)) ∧
  (∀ (s : State) (d : Nat) (msg : RingMsg) (x : Msg) (t u : State), u = hopBad d msg s.freshOut → t = hopHeard d u → d
    < 2 → ringRuns s = true → mgmtHeld s = false → hopLocked s d = true → intactMsg msg = some x → x.type = 7 →
    hopState u d ≠ hopCrossed → x.dest ≠ ownId t → x.src = ownId t → exec (.ringRsp d msg) s = .next (t.bump
    R.PCT_CNT_dropped)) ∧
  (∀ (s : State) (d : Nat) (msg : RingMsg) (x : Msg) (t u : State), u = hopBad d msg s.freshOut → t = hopHeard d u → d
    < 2 → ringRuns s = true → mgmtHeld s = false → hopLocked s d = true → intactMsg msg = some x → x.type = 8 →
    hopState u d ≠ hopCrossed → x.dest ≠ ownId t → x.src = ownId t → exec (.ringDeliver d msg) s = .next (t.bump
    R.PCT_CNT_dropped)) ∧
  (∀ (s : State) (d : Nat) (msg : RingMsg) (x : Msg) (t u : State), u = hopBad d msg s.freshOut → t = hopHeard d u → d
    < 2 → ringRuns s = true → mgmtHeld s = false → hopLocked s d = true → intactMsg msg = some x → x.type = 9 →
    hopState u d ≠ hopCrossed → x.dest ≠ ownId t → x.src = ownId t → exec (.ringComplete d msg) s = .next (t.bump
    R.PCT_CNT_dropped)) ∧
  (∀ (s u : State) (d : Nat) (msg : RingMsg) (c : Instr), u = hopBad d msg s.freshOut → c ∈ ([.ringTrainReceive d msg,
    .ringEnum d msg, .ringPresent d msg, .ringDone d msg, .ringBreak d msg, .ringTime d msg, .ringGo d msg, .ringReady
    d msg, .ringReq d msg, .ringRsp d msg, .ringDeliver d msg, .ringComplete d msg] : List Instr) → d < 2 → ringRuns s
    = true → mgmtHeld s = false → hopLocked s d = true → intactMsg msg = none → exec c s = .next ((u.bump
    R.PCT_CNT_crc).putHop d { u.hop d with trains := 0 })) ∧
  (∀ (s : State) (d : Nat) (msg : RingMsg) (c : Instr), c ∈ ([.ringTrainReceive d msg, .ringEnum d msg, .ringPresent d
    msg, .ringDone d msg, .ringBreak d msg, .ringTime d msg, .ringGo d msg, .ringReady d msg, .ringReq d msg, .ringRsp
    d msg, .ringDeliver d msg, .ringComplete d msg] : List Instr) → d < 2 → ringRuns s = true → mgmtHeld s = false →
    hopLocked s d = false → exec c s = .next (if badSyms msg = 0 then s.freshOut else s.freshOut.putHop d
    { s.freshOut.hop d with lockAt := 5 * s.clock + 128, win := 0, bad := 0 })) ∧
  (∀ (s : State) (d : Nat) (msg : RingMsg) (c : Instr), c ∈ ([.ringTrainReceive d msg, .ringEnum d msg, .ringPresent d
    msg, .ringDone d msg, .ringBreak d msg, .ringTime d msg, .ringGo d msg, .ringReady d msg, .ringReq d msg, .ringRsp
    d msg, .ringDeliver d msg, .ringComplete d msg] : List Instr) → d < 2 → (ringRuns s = false ∨ mgmtHeld s = true) →
    exec c s = .next s)

/-- Outside power-on reset the node sends TRAIN on both outputs (R447); a hop that is up and has brought nothing for 10
µs forgets its TRAINs, reads BROKEN, sets the input of source 286 + d, and is reported to the head, where an
enumeration starts, by a BREAK on the other ring (R447; DEDUCED, log 201). At the head, an enumeration that has run
for 100 µs ends: DONE goes out on both rings with the duplicate bit, busy clears, and the head acts on DONE as every
package does (R449); the head sends TIME with its fabric time to all (R450); elsewhere 10 µs without TIME clear
time_ok (R450; not at the head: DEDUCED, log 165). ENUMERATE of PCT_CMD at the head, with no command in progress,
clears refused, counts, forgets the positions, becomes busy and sends ENUM on each ring whose output hop is up, and
where there is none the enumeration ends (R449). GO clears refused and sends GO on both rings with T_go, the first
whole microsecond that begins at least go_lead after now, and records it; the head's own spans that wait start once
it has begun (R451). Elsewhere both are refused (R464). In a blind system the enumerated head without duplicates
says GO once all are ready (R451; DEDUCED, log 162). A REQ whose answer does not come within 20 µs ends its access
with TIMEOUT, or the first bad status before it, and is counted (R452). -/
def Obligations.RingTimers : Prop :=
  (∀ (s : State), ringRuns s = true → exec .ringTrainSend s = .next (trainSend 1 (trainSend 0 s.freshOut))) ∧
  (∀ (s : State) (d : Nat) (t u : State), t = s.freshOut.putHop d { s.hop d with trains := 0 } → u = (setHopState d
    hopBroken t).setInput (286 + d) true → d < 2 → ringRuns s = true → mgmtHeld s = false → hopState s d = hopUp →
    (s.hop d).heardAt + 10000 ≤ s.clock → exec (.hopBroken d) s = .next (if isHead u then enumStart u else u.sendOn (1
    - d) (ringBytes 0x0B 0 (ownId u) [d, ownId u]))) ∧
  (∀ (s : State)  (t : State) (b : Nat) (v w : State), t = s.freshOut → b = b2n (t.rd R.PCT_STAT_dup ≠ 0) → v =
    ({ t with ring := { t.ring with enumAt := none, enumOut := [], enumBack := [] } } : State) → w = (v.broadcast 0x0C
    [0, b]).wr R.PCT_CMD_busy 0 → ringRuns s = true → passed s.ring.enumAt 100000 s.clock = true → exec .enumTimeout s
    = .next ((requeueDelivered (posSync (w.wr R.PCT_STAT_enum_done 1))).raise 295)) ∧
  (∀ (s : State), ringRuns s = true → isHead s = true → exec .ringTimeSend s = .next (s.freshOut.broadcast 4 (beBytes
    8 s.fab ++ [0, 0]))) ∧
  (∀ (s : State), ringRuns s = true → isHead s = false → s.ring.timeAt + 10000 ≤ s.clock → exec .timeLoss s = .next
    (s.wr R.PCT_STAT_time_ok 0)) ∧
  (∀ (s : State)  (t : State) (outs : List Nat) (u v w : State), t = ((s.wr R.PCT_CMD_op 0).wr R.PCT_CMD_refused
    0).freshOut → outs = [0, 1].filter (outUp t) → u = ((List.range 8).foldl (fun s i => (s.setRingPos 0 i
    15).setRingPos 1 i 15) (((t.bump R.PCT_CNT_enums).wr R.PCT_STAT_present 1).wr R.PCT_STAT_dup 0)) → v =
    ({ u with ring := { u.ring with enumAt := some u.clock, enumOut := outs, enumBack := [] } } : State).wr
    R.PCT_CMD_busy 1 → w = (outs.foldl (fun s r => s.sendOn r (ringBytes 0x02 (ownId s) (ownId s) [0, 0])) v) →
    pageOpen s 0xA = true → (s.wr R.PCT_CMD_op 0).on R.PCT_CMD_busy = false → isHead (s.wr R.PCT_CMD_op 0) = true →
    exec .pctEnumerate s = .next (if outs = [] then enumEnd w else w)) ∧
  (∀ (s : State), pageOpen s 0xA = true → (s.wr R.PCT_CMD_op 0).on R.PCT_CMD_busy = false → isHead (s.wr R.PCT_CMD_op
    0) = false → exec .pctEnumerate s = .next ((s.wr R.PCT_CMD_op 0).wr R.PCT_CMD_refused 1)) ∧
  (∀ (s : State)  (t : State) (n : Nat) (u : State), t = ((s.wr R.PCT_CMD_op 1).wr R.PCT_CMD_refused 0).freshOut → n =
    (t.fab + 1000 * max (t.rd R.PCT_CFG_go_lead) 10 + 999) / 1000 * 1000 → u = (t.broadcast 5 (beBytes 8 n)).putLive
    R.PCT_GO_LO_t_go (n % 2 ^ 64) → pageOpen s 0xA = true → (s.wr R.PCT_CMD_op 1).on R.PCT_CMD_busy = false → isHead
    (s.wr R.PCT_CMD_op 1) = true → exec .pctGo s = .next (if goWaiting u ≠ [] && n ≤ u.fab then detectAll (u.wr
    R.PCT_STAT_late 1) else u)) ∧
  (∀ (s : State), pageOpen s 0xA = true → (s.wr R.PCT_CMD_op 1).on R.PCT_CMD_busy = false → isHead (s.wr R.PCT_CMD_op
    1) = false → exec .pctGo s = .next ((s.wr R.PCT_CMD_op 1).wr R.PCT_CMD_refused 1)) ∧
  (∀ (s : State)  (t : State) (n : Nat) (u : State), t = s.freshOut → n = (t.fab + 1000 * max (t.rd R.PCT_CFG_go_lead)
    10 + 999) / 1000 * 1000 → u = (t.broadcast 5 (beBytes 8 n)).putLive R.PCT_GO_LO_t_go (n % 2 ^ 64) → ringRuns s =
    true → isHead s = true → blindSystem s = true → s.on R.PCT_STAT_enum_done = true → s.ring.enumAt.isNone = true →
    s.rd R.PCT_STAT_dup = 0 → allReady s = true → exec .goAuto s = .next (if goWaiting u ≠ [] && n ≤ u.fab then
    detectAll (u.wr R.PCT_STAT_late 1) else u)) ∧
  (∀ (s : State) (tag : Nat) (p : Nat) (r : Remote), portOfTag s tag = some (p, r) → r.sentAt + 20000 ≤ s.clock → exec
    (.remoteTimeout tag) s = .next (remoteEnd p r (firstBad r.status stTimeout) (s.bump R.PCT_CNT_timeout))) ∧
  (∀ (s : State) (tag : Nat), portOfTag s tag = none → exec (.remoteTimeout tag) s = .next (s))

/-- While the port runs, a frame with a known opcode is counted; it ends with a status, which HST_STAT.spi_last and, but
for STATUS, the port keep and the frame answers, a frame that reads with its words and their CRC (R438 to R441). One
whose CRC fails does nothing, counts as a CRC error and answers CRC with zero words. WRITE and READ need zero in
[28:24], else RANGE (R441). A write or read out of range answers RANGE and does nothing; one of another target goes
by remoteAccess (BUSY while one is outstanding, NO_TARGET off the head or with no way there, else PENDING with its
first REQ sent, R442, R452); a write here writes its words in order, those that must wait kept (R345, R478), and is
OK. A read here that must wait is PENDING and kept; one not ready in time is done once, PENDING, its result held for
FETCH; else it answers OK and the words (R441). The words of an answer that is RANGE or PENDING are free values
(DESIGN CHOICE, log 207). WRITE_BLOCK and READ_BLOCK do the same with the length of their address word; a
WRITE_BLOCK with another number of words is cut short and does nothing (R441). FETCH of address 0 answers NO_RESULT
with one zero where nothing is held, the held result, or PENDING with that many free words; of another address RANGE
and zeros (R440, R442). STATUS answers the status of the last counted frame and one zero word, NO_RESULT before any;
with [28:24] not zero RANGE. An unknown opcode counts as a frame and as a bad opcode (R441). -/
def Obligations.SpiFramesAct : Prop :=
  (∀ (s : State) (quad : Bool) (addr : Nat) (data : Nat) (crc : Nat) (t : State)  (y z : State), t = (s.bump
    R.HST_FRAMES_spi).freshOut → y = (t).wr R.HST_STAT_spi_last (stRange) → z =
    ({ y with host := { y.host with answer := [stRange] } } : State) → portRuns s = true → crc8 (spiBytes 1 quad addr
    [data]) = crc % 256 → awLen addr = 0 → badRange (awAddr addr) 1 = true → exec (.spiWrite quad addr data crc) s =
    .next (z.putPort 0 { z.port 0 with last := some (stRange) })) ∧
  (∀ (s : State) (quad : Bool) (addr : Nat) (data : Nat) (crc : Nat) (t : State)  (y z : State), t = (s.bump
    R.HST_FRAMES_spi).freshOut → y = (writeWords 0 [data] (awAddr addr) t).wr R.HST_STAT_spi_last (stOk) → z =
    ({ y with host := { y.host with answer := [stOk] } } : State) → portRuns s = true → crc8 (spiBytes 1 quad addr
    [data]) = crc % 256 → awLen addr = 0 → badRange (awAddr addr) 1 = false → awTarget addr = ownId t → exec
    (.spiWrite quad addr data crc) s = .next (z.putPort 0 { z.port 0 with last := some (stOk) })) ∧
  (∀ (s : State) (quad : Bool) (addr : Nat) (data : Nat) (crc : Nat) (t : State) (q : Nat × State) (y z : State), t =
    (s.bump R.HST_FRAMES_spi).freshOut → q = remoteAccess 0 (awTarget addr) true (awAddr addr) [data] t → y = (q.2).wr
    R.HST_STAT_spi_last (q.1) → z = ({ y with host := { y.host with answer := [q.1] } } : State) → portRuns s = true →
    crc8 (spiBytes 1 quad addr [data]) = crc % 256 → awLen addr = 0 → badRange (awAddr addr) 1 = false → awTarget addr
    ≠ ownId t → exec (.spiWrite quad addr data crc) s = .next (z.putPort 0 { z.port 0 with last := some (q.1) })) ∧
  (∀ (s : State) (quad : Bool) (addr : Nat) (data : Nat) (crc : Nat) (t : State)  (y z : State), t = (s.bump
    R.HST_FRAMES_spi).freshOut → y = (t).wr R.HST_STAT_spi_last (stRange) → z =
    ({ y with host := { y.host with answer := [stRange] } } : State) → portRuns s = true → crc8 (spiBytes 1 quad addr
    [data]) = crc % 256 → awLen addr ≠ 0 → exec (.spiWrite quad addr data crc) s = .next (z.putPort 0
    { z.port 0 with last := some (stRange) })) ∧
  (∀ (s : State) (quad : Bool) (addr : Nat) (data : Nat) (crc : Nat) (t : State)  (y z : State), t = (s.bump
    R.HST_FRAMES_spi).freshOut → y = ((t.bump R.HST_CNT_spi_crc)).wr R.HST_STAT_spi_last (stCrc) → z =
    ({ y with host := { y.host with answer := [stCrc] } } : State) → portRuns s = true → crc8 (spiBytes 1 quad addr
    [data]) ≠ crc % 256 → exec (.spiWrite quad addr data crc) s = .next (z.putPort 0
    { z.port 0 with last := some (stCrc) })) ∧
  (∀ (s : State) (quad : Bool) (addr : Nat) (crc : Nat) (late : Bool) (t : State) (f : List Nat × State) (y z :
    State), t = (s.bump R.HST_FRAMES_spi).freshOut → f = freeWords 1 t → y = (f.2).wr R.HST_STAT_spi_last (stRange) →
    z =
    ({ y with host := { y.host with answer := stRange :: (f.1 ++ [crc8 (stRange :: (f.1).flatMap (beBytes 4))]) } } :
    State) → portRuns s = true → crc8 (spiBytes 2 quad addr []) = crc % 256 → awLen addr = 0 → badRange (awAddr addr)
    1 = true → exec (.spiRead quad addr crc late) s = .next (z.putPort 0 { z.port 0 with last := some (stRange) })) ∧
  (∀ (s : State) (quad : Bool) (addr : Nat) (crc : Nat) (late : Bool) (t : State) (q : Nat × State) (f : List Nat ×
    State) (y z : State), t = (s.bump R.HST_FRAMES_spi).freshOut → q = remoteAccess 0 (awTarget addr) false (awAddr
    addr) (List.replicate 1 0) t → f = freeWords 1 q.2 → y = (f.2).wr R.HST_STAT_spi_last (q.1) → z =
    ({ y with host := { y.host with answer := q.1 :: (f.1 ++ [crc8 (q.1 :: (f.1).flatMap (beBytes 4))]) } } : State) →
    portRuns s = true → crc8 (spiBytes 2 quad addr []) = crc % 256 → awLen addr = 0 → badRange (awAddr addr) 1 = false
    → awTarget addr ≠ ownId t → exec (.spiRead quad addr crc late) s = .next (z.putPort 0
    { z.port 0 with last := some (q.1) })) ∧
  (∀ (s : State) (quad : Bool) (addr : Nat) (crc : Nat) (late : Bool) (t : State) (v w : State) (f : List Nat × State)
    (y z : State), t = (s.bump R.HST_FRAMES_spi).freshOut → v = portPending 0 1 t → w = holdAccess
    { port := 0, addr := (awAddr addr), words := List.replicate 1 0, tag := (v.port 0).serial } v → f = freeWords 1 w
    → y = (f.2).wr R.HST_STAT_spi_last (stPending) → z =
    ({ y with host := { y.host with answer := stPending :: (f.1 ++ [crc8 (stPending :: (f.1).flatMap (beBytes 4))]) } }
    : State) → portRuns s = true → crc8 (spiBytes 2 quad addr []) = crc % 256 → awLen addr = 0 → badRange (awAddr
    addr) 1 = false → awTarget addr = ownId t → mustWait t 0 (awAddr addr) = true → exec (.spiRead quad addr crc late)
    s = .next (z.putPort 0 { z.port 0 with last := some (stPending) })) ∧
  (∀ (s : State) (quad : Bool) (addr : Nat) (crc : Nat) (late : Bool) (t : State) (r : List Nat × State) (v w : State)
    (f : List Nat × State) (y z : State), t = (s.bump R.HST_FRAMES_spi).freshOut → r = readWords 1 (awAddr addr) t → v
    = portPending 0 1 r.2 → w = portResult 0 (v.port 0).serial stOk r.1 v → f = freeWords 1 w → y = (f.2).wr
    R.HST_STAT_spi_last (stPending) → z =
    ({ y with host := { y.host with answer := stPending :: (f.1 ++ [crc8 (stPending :: (f.1).flatMap (beBytes 4))]) } }
    : State) → portRuns s = true → crc8 (spiBytes 2 quad addr []) = crc % 256 → awLen addr = 0 → badRange (awAddr
    addr) 1 = false → awTarget addr = ownId t → mustWait t 0 (awAddr addr) = false → late = true → exec (.spiRead quad
    addr crc late) s = .next (z.putPort 0 { z.port 0 with last := some (stPending) })) ∧
  (∀ (s : State) (quad : Bool) (addr : Nat) (crc : Nat) (late : Bool) (t : State) (r : List Nat × State) (y z :
    State), t = (s.bump R.HST_FRAMES_spi).freshOut → r = readWords 1 (awAddr addr) t → y = (r.2).wr
    R.HST_STAT_spi_last (stOk) → z =
    ({ y with host := { y.host with answer := stOk :: (r.1 ++ [crc8 (stOk :: (r.1).flatMap (beBytes 4))]) } } : State)
    → portRuns s = true → crc8 (spiBytes 2 quad addr []) = crc % 256 → awLen addr = 0 → badRange (awAddr addr) 1 =
    false → awTarget addr = ownId t → mustWait t 0 (awAddr addr) = false → late = false → exec (.spiRead quad addr crc
    late) s = .next (z.putPort 0 { z.port 0 with last := some (stOk) })) ∧
  (∀ (s : State) (quad : Bool) (addr : Nat) (crc : Nat) (late : Bool) (t : State) (f : List Nat × State) (y z :
    State), t = (s.bump R.HST_FRAMES_spi).freshOut → f = freeWords 1 t → y = (f.2).wr R.HST_STAT_spi_last (stRange) →
    z =
    ({ y with host := { y.host with answer := stRange :: (f.1 ++ [crc8 (stRange :: (f.1).flatMap (beBytes 4))]) } } :
    State) → portRuns s = true → crc8 (spiBytes 2 quad addr []) = crc % 256 → awLen addr ≠ 0 → exec (.spiRead quad
    addr crc late) s = .next (z.putPort 0 { z.port 0 with last := some (stRange) })) ∧
  (∀ (s : State) (quad : Bool) (addr : Nat) (crc : Nat) (late : Bool) (t : State)  (y z : State), t = (s.bump
    R.HST_FRAMES_spi).freshOut → y = ((t.bump R.HST_CNT_spi_crc)).wr R.HST_STAT_spi_last (stCrc) → z =
    ({ y with host := { y.host with answer := stCrc :: ((List.replicate 1 0) ++ [crc8 (stCrc :: ((List.replicate 1 0)).flatMap (beBytes 4))]) } }
    : State) → portRuns s = true → crc8 (spiBytes 2 quad addr []) ≠ crc % 256 → exec (.spiRead quad addr crc late) s =
    .next (z.putPort 0 { z.port 0 with last := some (stCrc) })) ∧
  (∀ (s : State) (quad : Bool) (addr : Nat) (data : List Nat) (crc : Nat) (t : State)  (y z : State), t = (s.bump
    R.HST_FRAMES_spi).freshOut → y = (t).wr R.HST_STAT_spi_last (stRange) → z =
    ({ y with host := { y.host with answer := [stRange] } } : State) → portRuns s = true → crc8 (spiBytes 3 quad addr
    data) = crc % 256 → data.length = awLen addr + 1 → badRange (awAddr addr) data.length = true → exec
    (.spiWriteBlock quad addr data crc) s = .next (z.putPort 0 { z.port 0 with last := some (stRange) })) ∧
  (∀ (s : State) (quad : Bool) (addr : Nat) (data : List Nat) (crc : Nat) (t : State)  (y z : State), t = (s.bump
    R.HST_FRAMES_spi).freshOut → y = (writeWords 0 data (awAddr addr) t).wr R.HST_STAT_spi_last (stOk) → z =
    ({ y with host := { y.host with answer := [stOk] } } : State) → portRuns s = true → crc8 (spiBytes 3 quad addr
    data) = crc % 256 → data.length = awLen addr + 1 → badRange (awAddr addr) data.length = false → awTarget addr =
    ownId t → exec (.spiWriteBlock quad addr data crc) s = .next (z.putPort 0 { z.port 0 with last := some (stOk) })) ∧
  (∀ (s : State) (quad : Bool) (addr : Nat) (data : List Nat) (crc : Nat) (t : State) (q : Nat × State) (y z : State),
    t = (s.bump R.HST_FRAMES_spi).freshOut → q = remoteAccess 0 (awTarget addr) true (awAddr addr) data t → y =
    (q.2).wr R.HST_STAT_spi_last (q.1) → z = ({ y with host := { y.host with answer := [q.1] } } : State) → portRuns s
    = true → crc8 (spiBytes 3 quad addr data) = crc % 256 → data.length = awLen addr + 1 → badRange (awAddr addr)
    data.length = false → awTarget addr ≠ ownId t → exec (.spiWriteBlock quad addr data crc) s = .next (z.putPort 0
    { z.port 0 with last := some (q.1) })) ∧
  (∀ (s : State) (quad : Bool) (addr : Nat) (data : List Nat) (crc : Nat) (t : State)  (y z : State), t = (s.bump
    R.HST_FRAMES_spi).freshOut → y = ((t.bump R.HST_CNT_spi_crc)).wr R.HST_STAT_spi_last (stCrc) → z =
    ({ y with host := { y.host with answer := [stCrc] } } : State) → portRuns s = true → crc8 (spiBytes 3 quad addr
    data) ≠ crc % 256 → data.length = awLen addr + 1 → exec (.spiWriteBlock quad addr data crc) s = .next (z.putPort 0
    { z.port 0 with last := some (stCrc) })) ∧
  (∀ (s : State) (quad : Bool) (addr : Nat) (data : List Nat) (crc : Nat), data.length ≠ awLen addr + 1 → exec
    (.spiWriteBlock quad addr data crc) s = .next (s)) ∧
  (∀ (s : State) (quad : Bool) (addr : Nat) (crc : Nat) (late : Bool) (t : State) (f : List Nat × State) (y z :
    State), t = (s.bump R.HST_FRAMES_spi).freshOut → f = freeWords (awLen addr + 1) t → y = (f.2).wr
    R.HST_STAT_spi_last (stRange) → z =
    ({ y with host := { y.host with answer := stRange :: (f.1 ++ [crc8 (stRange :: (f.1).flatMap (beBytes 4))]) } } :
    State) → portRuns s = true → crc8 (spiBytes 4 quad addr []) = crc % 256 → badRange (awAddr addr) (awLen addr + 1)
    = true → exec (.spiReadBlock quad addr crc late) s = .next (z.putPort 0 { z.port 0 with last := some (stRange) })) ∧
  (∀ (s : State) (quad : Bool) (addr : Nat) (crc : Nat) (late : Bool) (t : State) (q : Nat × State) (f : List Nat ×
    State) (y z : State), t = (s.bump R.HST_FRAMES_spi).freshOut → q = remoteAccess 0 (awTarget addr) false (awAddr
    addr) (List.replicate (awLen addr + 1) 0) t → f = freeWords (awLen addr + 1) q.2 → y = (f.2).wr
    R.HST_STAT_spi_last (q.1) → z =
    ({ y with host := { y.host with answer := q.1 :: (f.1 ++ [crc8 (q.1 :: (f.1).flatMap (beBytes 4))]) } } : State) →
    portRuns s = true → crc8 (spiBytes 4 quad addr []) = crc % 256 → badRange (awAddr addr) (awLen addr + 1) = false →
    awTarget addr ≠ ownId t → exec (.spiReadBlock quad addr crc late) s = .next (z.putPort 0
    { z.port 0 with last := some (q.1) })) ∧
  (∀ (s : State) (quad : Bool) (addr : Nat) (crc : Nat) (late : Bool) (t : State) (v w : State) (f : List Nat × State)
    (y z : State), t = (s.bump R.HST_FRAMES_spi).freshOut → v = portPending 0 (awLen addr + 1) t → w = holdAccess
    { port := 0, addr := (awAddr addr), words := List.replicate (awLen addr + 1) 0, tag := (v.port 0).serial } v → f =
    freeWords (awLen addr + 1) w → y = (f.2).wr R.HST_STAT_spi_last (stPending) → z =
    ({ y with host := { y.host with answer := stPending :: (f.1 ++ [crc8 (stPending :: (f.1).flatMap (beBytes 4))]) } }
    : State) → portRuns s = true → crc8 (spiBytes 4 quad addr []) = crc % 256 → badRange (awAddr addr) (awLen addr +
    1) = false → awTarget addr = ownId t → mustWait t 0 (awAddr addr) = true → exec (.spiReadBlock quad addr crc late)
    s = .next (z.putPort 0 { z.port 0 with last := some (stPending) })) ∧
  (∀ (s : State) (quad : Bool) (addr : Nat) (crc : Nat) (late : Bool) (t : State) (r : List Nat × State) (v w : State)
    (f : List Nat × State) (y z : State), t = (s.bump R.HST_FRAMES_spi).freshOut → r = readWords (awLen addr + 1)
    (awAddr addr) t → v = portPending 0 (awLen addr + 1) r.2 → w = portResult 0 (v.port 0).serial stOk r.1 v → f =
    freeWords (awLen addr + 1) w → y = (f.2).wr R.HST_STAT_spi_last (stPending) → z =
    ({ y with host := { y.host with answer := stPending :: (f.1 ++ [crc8 (stPending :: (f.1).flatMap (beBytes 4))]) } }
    : State) → portRuns s = true → crc8 (spiBytes 4 quad addr []) = crc % 256 → badRange (awAddr addr) (awLen addr +
    1) = false → awTarget addr = ownId t → mustWait t 0 (awAddr addr) = false → late = true → exec (.spiReadBlock quad
    addr crc late) s = .next (z.putPort 0 { z.port 0 with last := some (stPending) })) ∧
  (∀ (s : State) (quad : Bool) (addr : Nat) (crc : Nat) (late : Bool) (t : State) (r : List Nat × State) (y z :
    State), t = (s.bump R.HST_FRAMES_spi).freshOut → r = readWords (awLen addr + 1) (awAddr addr) t → y = (r.2).wr
    R.HST_STAT_spi_last (stOk) → z =
    ({ y with host := { y.host with answer := stOk :: (r.1 ++ [crc8 (stOk :: (r.1).flatMap (beBytes 4))]) } } : State)
    → portRuns s = true → crc8 (spiBytes 4 quad addr []) = crc % 256 → badRange (awAddr addr) (awLen addr + 1) = false
    → awTarget addr = ownId t → mustWait t 0 (awAddr addr) = false → late = false → exec (.spiReadBlock quad addr crc
    late) s = .next (z.putPort 0 { z.port 0 with last := some (stOk) })) ∧
  (∀ (s : State) (quad : Bool) (addr : Nat) (crc : Nat) (late : Bool) (t : State)  (y z : State), t = (s.bump
    R.HST_FRAMES_spi).freshOut → y = ((t.bump R.HST_CNT_spi_crc)).wr R.HST_STAT_spi_last (stCrc) → z =
    ({ y with host := { y.host with answer := stCrc :: ((List.replicate (awLen addr + 1) 0) ++ [crc8 (stCrc :: ((List.replicate (awLen addr + 1) 0)).flatMap (beBytes 4))]) } }
    : State) → portRuns s = true → crc8 (spiBytes 4 quad addr []) ≠ crc % 256 → exec (.spiReadBlock quad addr crc
    late) s = .next (z.putPort 0 { z.port 0 with last := some (stCrc) })) ∧
  (∀ (s : State) (quad : Bool) (addr : Nat) (crc : Nat) (t : State)  (y z : State), t = (s.bump
    R.HST_FRAMES_spi).freshOut → y = (t).wr R.HST_STAT_spi_last (stNoResult) → z =
    ({ y with host := { y.host with answer := stNoResult :: ([0] ++ [crc8 (stNoResult :: ([0]).flatMap (beBytes 4))]) } }
    : State) → portRuns s = true → crc8 (spiBytes 5 quad addr []) = crc % 256 → (addr % 2 ^ 32 = 0) = true → (t.port
    0).serial = 0 → exec (.spiFetch quad addr crc) s = .next (z.putPort 0
    { z.port 0 with last := some (stNoResult) })) ∧
  (∀ (s : State) (quad : Bool) (addr : Nat) (crc : Nat) (t : State) (r : Nat × List Nat) (y z : State), t = (s.bump
    R.HST_FRAMES_spi).freshOut → y = (t).wr R.HST_STAT_spi_last (r.1) → z =
    ({ y with host := { y.host with answer := r.1 :: (r.2 ++ [crc8 (r.1 :: (r.2).flatMap (beBytes 4))]) } } : State) →
    portRuns s = true → crc8 (spiBytes 5 quad addr []) = crc % 256 → (addr % 2 ^ 32 = 0) = true → (t.port 0).serial ≠
    0 → (t.port 0).result = some r → exec (.spiFetch quad addr crc) s = .next (z.putPort 0
    { z.port 0 with last := some (r.1) })) ∧
  (∀ (s : State) (quad : Bool) (addr : Nat) (crc : Nat) (t : State) (f : List Nat × State) (y z : State), t = (s.bump
    R.HST_FRAMES_spi).freshOut → f = freeWords (t.port 0).len t → y = (f.2).wr R.HST_STAT_spi_last (stPending) → z =
    ({ y with host := { y.host with answer := stPending :: (f.1 ++ [crc8 (stPending :: (f.1).flatMap (beBytes 4))]) } }
    : State) → portRuns s = true → crc8 (spiBytes 5 quad addr []) = crc % 256 → (addr % 2 ^ 32 = 0) = true → (t.port
    0).serial ≠ 0 → (t.port 0).result = none → exec (.spiFetch quad addr crc) s = .next (z.putPort 0
    { z.port 0 with last := some (stPending) })) ∧
  (∀ (s : State) (quad : Bool) (addr : Nat) (crc : Nat) (t : State)  (y z : State), t = (s.bump
    R.HST_FRAMES_spi).freshOut → y = (t).wr R.HST_STAT_spi_last (stRange) → z =
    ({ y with host := { y.host with answer := stRange :: ((List.replicate (fetchLen t 0) 0) ++ [crc8 (stRange :: ((List.replicate (fetchLen t 0) 0)).flatMap (beBytes 4))]) } }
    : State) → portRuns s = true → crc8 (spiBytes 5 quad addr []) = crc % 256 → (addr % 2 ^ 32 = 0) = false → exec
    (.spiFetch quad addr crc) s = .next (z.putPort 0 { z.port 0 with last := some (stRange) })) ∧
  (∀ (s : State) (quad : Bool) (addr : Nat) (crc : Nat) (t : State)  (y z : State), t = (s.bump
    R.HST_FRAMES_spi).freshOut → y = ((t.bump R.HST_CNT_spi_crc)).wr R.HST_STAT_spi_last (stCrc) → z =
    ({ y with host := { y.host with answer := stCrc :: ((List.replicate (fetchLen s 0) 0) ++ [crc8 (stCrc :: ((List.replicate (fetchLen s 0) 0)).flatMap (beBytes 4))]) } }
    : State) → portRuns s = true → crc8 (spiBytes 5 quad addr []) ≠ crc % 256 → exec (.spiFetch quad addr crc) s =
    .next (z.putPort 0 { z.port 0 with last := some (stCrc) })) ∧
  (∀ (s : State) (quad : Bool) (addr : Nat) (crc : Nat) (t : State)  (y z : State), t = (s.bump
    R.HST_FRAMES_spi).freshOut → y = (t).wr R.HST_STAT_spi_last (((t.port 0).last.getD stNoResult)) → z =
    ({ y with host := { y.host with answer := ((t.port 0).last.getD stNoResult) :: ([0] ++ [crc8 (((t.port 0).last.getD stNoResult) :: ([0]).flatMap (beBytes 4))]) } }
    : State) → portRuns s = true → crc8 (spiBytes 6 quad addr []) = crc % 256 → awLen addr = 0 → exec (.spiStatus quad
    addr crc) s = .next (z)) ∧
  (∀ (s : State) (quad : Bool) (addr : Nat) (crc : Nat) (t : State) (f : List Nat × State) (y z : State), t = (s.bump
    R.HST_FRAMES_spi).freshOut → f = freeWords 1 t → y = (f.2).wr R.HST_STAT_spi_last (stRange) → z =
    ({ y with host := { y.host with answer := stRange :: (f.1 ++ [crc8 (stRange :: (f.1).flatMap (beBytes 4))]) } } :
    State) → portRuns s = true → crc8 (spiBytes 6 quad addr []) = crc % 256 → awLen addr ≠ 0 → exec (.spiStatus quad
    addr crc) s = .next (z)) ∧
  (∀ (s : State) (quad : Bool) (addr : Nat) (crc : Nat) (t : State)  (y z : State), t = (s.bump
    R.HST_FRAMES_spi).freshOut → y = ((t.bump R.HST_CNT_spi_crc)).wr R.HST_STAT_spi_last (stCrc) → z =
    ({ y with host := { y.host with answer := stCrc :: ((List.replicate 1 0) ++ [crc8 (stCrc :: ((List.replicate 1 0)).flatMap (beBytes 4))]) } }
    : State) → portRuns s = true → crc8 (spiBytes 6 quad addr []) ≠ crc % 256 → exec (.spiStatus quad addr crc) s =
    .next (z)) ∧
  (∀ (s : State) (op : Nat), portRuns s = true → spiKnown op = false → exec (.spiBadOpcode op) s = .next ((s.bump
    R.HST_FRAMES_spi).bump R.HST_CNT_bad_op)) ∧
  (∀ (s : State) (op : Nat), spiKnown op = true → exec (.spiBadOpcode op) s = .next (s))

/-- While the port runs. A POINTER write with a good check byte, a length of one word and a word address sets the
pointer and ends OK, with another ends RANGE; a WRITE with a good check byte writes the word at the pointer: RANGE
and nothing done for an address out of range, by remoteAccess for another target (as for SPI), else here (kept while
it must wait) with OK, and on OK the pointer moves on by four where smb_inc is 1; a bad check byte, or none where
one is required, does nothing but end with CRC and count (R443). A READ reads one word at the pointer on the same
paths as an SPI READ (range, remote, kept, late, at once), the pointer moving on by four on OK where smb_inc is 1; a
FETCH gives the deferred result, PENDING before it is there with a free word (DESIGN CHOICE, log 207), NO_RESULT
without one; both answer status, word and check byte. Each of these is counted as a frame and its status kept.
STATUS answers the last status, NO_RESULT before any, with its check byte and is no access (DEDUCED, log 209). A bus
timeout is counted (R443, R444). -/
def Obligations.SmbusTransactionsAct : Prop :=
  (∀ (s : State) (ptr : Nat) (pec : Option Nat) (t : State) (y : State), t = s.freshOut → y =
    (({ t with host := { t.host with ptr := ptr % 2 ^ 32 } }).bump R.HST_FRAMES_smb).wr R.HST_STAT_smb_last (stOk) →
    portRuns s = true → pecOk t 0x10 ptr pec = true → (awLen ptr ≠ 0 || ptr % 4 ≠ 0) = false → exec (.smbPointer ptr
    pec) s = .next (y.putPort 1 { y.port 1 with last := some (stOk) })) ∧
  (∀ (s : State) (ptr : Nat) (pec : Option Nat) (t : State) (y : State), t = s.freshOut → y = ((t).bump
    R.HST_FRAMES_smb).wr R.HST_STAT_smb_last (stRange) → portRuns s = true → pecOk t 0x10 ptr pec = true → (awLen ptr
    ≠ 0 || ptr % 4 ≠ 0) = true → exec (.smbPointer ptr pec) s = .next (y.putPort 1
    { y.port 1 with last := some (stRange) })) ∧
  (∀ (s : State) (ptr : Nat) (pec : Option Nat) (t : State) (y : State), t = s.freshOut → y = ((t.bump
    R.HST_CNT_smb_pec).bump R.HST_FRAMES_smb).wr R.HST_STAT_smb_last (stCrc) → portRuns s = true → pecOk t 0x10 ptr
    pec = false → exec (.smbPointer ptr pec) s = .next (y.putPort 1 { y.port 1 with last := some (stCrc) })) ∧
  (∀ (s : State) (data : Nat) (pec : Option Nat) (t : State) (y : State), t = s.freshOut → y = ((t).bump
    R.HST_FRAMES_smb).wr R.HST_STAT_smb_last (stRange) → portRuns s = true → pecOk t 0x11 data pec = true → badRange
    (awAddr t.host.ptr) 1 = true → exec (.smbWrite data pec) s = .next (y.putPort 1
    { y.port 1 with last := some (stRange) })) ∧
  (∀ (s : State) (data : Nat) (pec : Option Nat) (t u : State) (y : State), t = s.freshOut → u = writeWords 1 [data %
    2 ^ 32] (awAddr t.host.ptr) t → y = ((u).bump R.HST_FRAMES_smb).wr R.HST_STAT_smb_last (stOk) → portRuns s = true
    → pecOk t 0x11 data pec = true → badRange (awAddr t.host.ptr) 1 = false → awTarget t.host.ptr = ownId t → t.on
    R.HST_CFG_smb_inc = false → exec (.smbWrite data pec) s = .next (y.putPort 1
    { y.port 1 with last := some (stOk) })) ∧
  (∀ (s : State) (data : Nat) (pec : Option Nat) (t u : State) (y : State), t = s.freshOut → u = writeWords 1 [data %
    2 ^ 32] (awAddr t.host.ptr) t → y = (({ u with host := { u.host with ptr := (t.host.ptr + 4) % 2 ^ 32 } }).bump
    R.HST_FRAMES_smb).wr R.HST_STAT_smb_last (stOk) → portRuns s = true → pecOk t 0x11 data pec = true → badRange
    (awAddr t.host.ptr) 1 = false → awTarget t.host.ptr = ownId t → t.on R.HST_CFG_smb_inc = true → exec (.smbWrite
    data pec) s = .next (y.putPort 1 { y.port 1 with last := some (stOk) })) ∧
  (∀ (s : State) (data : Nat) (pec : Option Nat) (t : State) (q : Nat × State) (u : State) (y : State), t = s.freshOut
    → q = remoteAccess 1 (awTarget t.host.ptr) true (awAddr t.host.ptr) [data % 2 ^ 32] t → u = (if t.on
    R.HST_CFG_smb_inc && q.1 = stOk then { q.2 with host := { q.2.host with ptr := (t.host.ptr + 4) % 2 ^ 32 } } else
    q.2) → y = ((u).bump R.HST_FRAMES_smb).wr R.HST_STAT_smb_last (q.1) → portRuns s = true → pecOk t 0x11 data pec =
    true → badRange (awAddr t.host.ptr) 1 = false → awTarget t.host.ptr ≠ ownId t → exec (.smbWrite data pec) s =
    .next (y.putPort 1 { y.port 1 with last := some (q.1) })) ∧
  (∀ (s : State) (data : Nat) (pec : Option Nat) (t : State) (y : State), t = s.freshOut → y = ((t.bump
    R.HST_CNT_smb_pec).bump R.HST_FRAMES_smb).wr R.HST_STAT_smb_last (stCrc) → portRuns s = true → pecOk t 0x11 data
    pec = false → exec (.smbWrite data pec) s = .next (y.putPort 1 { y.port 1 with last := some (stCrc) })) ∧
  (∀ (s : State) (late : Bool) (t : State) (f : List Nat × State) (x : State) (y : State), t = s.freshOut → f =
    freeWords 1 t → x = (if stRange = stOk && (f.2).on R.HST_CFG_smb_inc then
    { f.2 with host := { (f.2).host with ptr := ((f.2).host.ptr + 4) % 2 ^ 32 } } else f.2) → y =
    ((({ x with host := { x.host with answer := [stRange, (f.1).headD 0, crc8 ([smbAddr x, 0x12, smbAddr x + 1, 5, stRange] ++ beBytes 4 ((f.1).headD 0))] } }
    : State)).bump R.HST_FRAMES_smb).wr R.HST_STAT_smb_last (stRange) → portRuns s = true → badRange (awAddr
    t.host.ptr) 1 = true → exec (.smbRead late) s = .next (y.putPort 1 { y.port 1 with last := some (stRange) })) ∧
  (∀ (s : State) (late : Bool) (t : State) (q : Nat × State) (f : List Nat × State) (x : State) (y : State), t =
    s.freshOut → q = remoteAccess 1 (awTarget t.host.ptr) false (awAddr t.host.ptr) (List.replicate 1 0) t → f =
    freeWords 1 q.2 → x = (if q.1 = stOk && (f.2).on R.HST_CFG_smb_inc then
    { f.2 with host := { (f.2).host with ptr := ((f.2).host.ptr + 4) % 2 ^ 32 } } else f.2) → y =
    ((({ x with host := { x.host with answer := [q.1, (f.1).headD 0, crc8 ([smbAddr x, 0x12, smbAddr x + 1, 5, q.1] ++ beBytes 4 ((f.1).headD 0))] } }
    : State)).bump R.HST_FRAMES_smb).wr R.HST_STAT_smb_last (q.1) → portRuns s = true → badRange (awAddr t.host.ptr) 1
    = false → awTarget t.host.ptr ≠ ownId t → exec (.smbRead late) s = .next (y.putPort 1
    { y.port 1 with last := some (q.1) })) ∧
  (∀ (s : State) (late : Bool) (t : State) (v w : State) (f : List Nat × State) (x : State) (y : State), t =
    s.freshOut → v = portPending 1 1 t → w = holdAccess
    { port := 1, addr := (awAddr t.host.ptr), words := List.replicate 1 0, tag := (v.port 1).serial } v → f =
    freeWords 1 w → x = (if stPending = stOk && (f.2).on R.HST_CFG_smb_inc then
    { f.2 with host := { (f.2).host with ptr := ((f.2).host.ptr + 4) % 2 ^ 32 } } else f.2) → y =
    ((({ x with host := { x.host with answer := [stPending, (f.1).headD 0, crc8 ([smbAddr x, 0x12, smbAddr x + 1, 5, stPending] ++ beBytes 4 ((f.1).headD 0))] } }
    : State)).bump R.HST_FRAMES_smb).wr R.HST_STAT_smb_last (stPending) → portRuns s = true → badRange (awAddr
    t.host.ptr) 1 = false → awTarget t.host.ptr = ownId t → mustWait t 1 (awAddr t.host.ptr) = true → exec (.smbRead
    late) s = .next (y.putPort 1 { y.port 1 with last := some (stPending) })) ∧
  (∀ (s : State) (late : Bool) (t : State) (r : List Nat × State) (v w : State) (f : List Nat × State) (x : State) (y
    : State), t = s.freshOut → r = readWords 1 (awAddr t.host.ptr) t → v = portPending 1 1 r.2 → w = portResult 1
    (v.port 1).serial stOk r.1 v → f = freeWords 1 w → x = (if stPending = stOk && (f.2).on R.HST_CFG_smb_inc then
    { f.2 with host := { (f.2).host with ptr := ((f.2).host.ptr + 4) % 2 ^ 32 } } else f.2) → y =
    ((({ x with host := { x.host with answer := [stPending, (f.1).headD 0, crc8 ([smbAddr x, 0x12, smbAddr x + 1, 5, stPending] ++ beBytes 4 ((f.1).headD 0))] } }
    : State)).bump R.HST_FRAMES_smb).wr R.HST_STAT_smb_last (stPending) → portRuns s = true → badRange (awAddr
    t.host.ptr) 1 = false → awTarget t.host.ptr = ownId t → mustWait t 1 (awAddr t.host.ptr) = false → late = true →
    exec (.smbRead late) s = .next (y.putPort 1 { y.port 1 with last := some (stPending) })) ∧
  (∀ (s : State) (late : Bool) (t : State) (r : List Nat × State) (x : State) (y : State), t = s.freshOut → r =
    readWords 1 (awAddr t.host.ptr) t → x = (if stOk = stOk && (r.2).on R.HST_CFG_smb_inc then
    { r.2 with host := { (r.2).host with ptr := ((r.2).host.ptr + 4) % 2 ^ 32 } } else r.2) → y =
    ((({ x with host := { x.host with answer := [stOk, (r.1).headD 0, crc8 ([smbAddr x, 0x12, smbAddr x + 1, 5, stOk] ++ beBytes 4 ((r.1).headD 0))] } }
    : State)).bump R.HST_FRAMES_smb).wr R.HST_STAT_smb_last (stOk) → portRuns s = true → badRange (awAddr t.host.ptr)
    1 = false → awTarget t.host.ptr = ownId t → mustWait t 1 (awAddr t.host.ptr) = false → late = false → exec
    (.smbRead late) s = .next (y.putPort 1 { y.port 1 with last := some (stOk) })) ∧
  (∀ (s : State)   (y : State), y =
    ((({ s with host := { s.host with answer := [stNoResult, [0].headD 0, crc8 ([smbAddr s, 0x13, smbAddr s + 1, 5, stNoResult] ++ beBytes 4 ([0].headD 0))] } }
    : State)).bump R.HST_FRAMES_smb).wr R.HST_STAT_smb_last (stNoResult) → portRuns s = true → (s.port 1).serial = 0 →
    exec .smbFetch s = .next (y.putPort 1 { y.port 1 with last := some (stNoResult) })) ∧
  (∀ (s : State)  (r : Nat × List Nat) (y : State), y =
    ((({ s with host := { s.host with answer := [r.1, r.2.headD 0, crc8 ([smbAddr s, 0x13, smbAddr s + 1, 5, r.1] ++ beBytes 4 (r.2.headD 0))] } }
    : State)).bump R.HST_FRAMES_smb).wr R.HST_STAT_smb_last (r.1) → portRuns s = true → (s.port 1).serial ≠ 0 →
    (s.port 1).result = some r → exec .smbFetch s = .next (y.putPort 1 { y.port 1 with last := some (r.1) })) ∧
  (∀ (s : State)  (f : List Nat × State) (x : State) (y : State), f = freeWords (s.port 1).len s → x = f.2 → y =
    ((({ x with host := { x.host with answer := [stPending, f.1.headD 0, crc8 ([smbAddr x, 0x13, smbAddr x + 1, 5, stPending] ++ beBytes 4 (f.1.headD 0))] } }
    : State)).bump R.HST_FRAMES_smb).wr R.HST_STAT_smb_last (stPending) → portRuns s = true → (s.port 1).serial ≠ 0 →
    (s.port 1).result = none → exec .smbFetch s = .next (y.putPort 1 { y.port 1 with last := some (stPending) })) ∧
  (∀ (s : State), portRuns s = true → exec .smbStatus s = .next
    ({ s with host := { s.host with answer := [(s.port 1).last.getD stNoResult, crc8 [smbAddr s, 0x14, smbAddr s + 1, (s.port 1).last.getD stNoResult]] } })) ∧
  (∀ (s : State), portRuns s = true → exec .smbBusTimeout s = .next (s.bump R.HST_CNT_smb_tmo))

/-- An access without a frame (by REGISTER_READ or REGISTER_WRITE of the table): one whose address is no word address
below 2^20 does nothing (R438, R482). A read or write of a page that is not being soft-reset, with no such access
waiting before it, is done at once, a read answering the word (R482, R483, R490; hostRead and hostWrite are what a
local access of any port does); while the page is in soft reset, or one waits before it, it is kept, in order (R345,
R478); a write of SOFT_RESET in a page that is in one is ignored (R478, R497). A soft reset of an open page clears
its counters, latched values and refused bits and marks it busy; while busy it is ignored. Its end has the effects
of R479, clears busy and runs the accesses that waited in their order, one that must still wait staying (R345, R478,
R479); with no reset in progress it does nothing. -/
def Obligations.RegisterAccesses : Prop :=
  (∀ (s : State) (addr : Nat), badRange addr 1 = true → exec (.loReadLatch addr) s = .next (s)) ∧
  (∀ (s : State) (addr : Nat) (r : Nat × State), r = hostRead addr s → badRange addr 1 = false → mustWait s 4 addr =
    false → exec (.loReadLatch addr) s = .next (r.2.answerWord r.1)) ∧
  (∀ (s : State) (addr : Nat), badRange addr 1 = false → mustWait s 4 addr = true → exec (.loReadLatch addr) s = .next
    ({ s with host := { s.host with heldAcc := s.host.heldAcc ++ [{ port := 4, addr := addr }] } })) ∧
  (∀ (s : State) (addr : Nat) (v : Nat), (badRange addr 1 || goIgnored s addr) = true → exec (.registerWrite addr v) s
    = .next (s)) ∧
  (∀ (s : State) (addr : Nat) (v : Nat), badRange addr 1 = false → goIgnored s addr = false → mustWait s 4 addr =
    false → exec (.registerWrite addr v) s = .next (hostWrite addr v s)) ∧
  (∀ (s : State) (addr : Nat) (v : Nat), badRange addr 1 = false → goIgnored s addr = false → mustWait s 4 addr = true
    → exec (.registerWrite addr v) s = .next
    ({ s with host := { s.host with heldAcc := s.host.heldAcc ++ [{ port := 4, write := true, addr := addr, words := [v] }] } })) ∧
  (∀ (s : State) (page : Nat), pageOpen s page = true → s.on (R.SOFT_RESET_busy page) = false → exec (.softReset page)
    s = .next ((softClear page s).wr (R.SOFT_RESET_busy page) 1)) ∧
  (∀ (s : State) (page : Nat), pageOpen s page = true → s.on (R.SOFT_RESET_busy page) = true → exec (.softReset page)
    s = .next (s)) ∧
  (∀ (s : State) (page : Nat) (t u : State), t = (softEffects page s.freshOut).wr (R.SOFT_RESET_busy page) 0 → u =
    ({ t with host := { t.host with heldAcc := [] } } : State) → s.on (R.SOFT_RESET_busy page) = true → exec
    (.softResetDone page) s = .next (t.host.heldAcc.foldl runAccess u)) ∧
  (∀ (s : State) (page : Nat), s.on (R.SOFT_RESET_busy page) = false → exec (.softResetDone page) s = .next (s))

/-- With the page answering, on slot 0-3 and not refused: LOAD gives the slot the session key in KEY_DATA, CLEAR takes
it away, ENROLL enrols the key and REVOKE revokes the slot; each clears refused and, as its last effect, KEY_DATA
(R455, R461, R464). A GENERATE with no report in progress and fuses not blocked starts a report over the nonce; its
end makes the report and clears busy (R458, R460). The digest of the pricking configuration, once due, is stored
with the PRK_STAT of its submission (R459). -/
def Obligations.KeysAndReports : Prop :=
  (∀ (s : State) (slot : Nat), pageOpen s 8 = true → keyRefused ((s.wr R.KEY_CMD_op 0).wr R.KEY_CMD_slot (slot % 4)) 0
    (slot % 4) = false → exec (.keyLoad slot) s = .next (clearKeyData (setSession (slot % 4) (some (keyBytes (((s.wr
    R.KEY_CMD_op 0).wr R.KEY_CMD_slot (slot % 4)).wr R.KEY_CMD_refused 0) 12)) (((s.wr R.KEY_CMD_op 0).wr
    R.KEY_CMD_slot (slot % 4)).wr R.KEY_CMD_refused 0)))) ∧
  (∀ (s : State) (slot : Nat), pageOpen s 8 = true → keyRefused ((s.wr R.KEY_CMD_op 1).wr R.KEY_CMD_slot (slot % 4)) 1
    (slot % 4) = false → exec (.keyClear slot) s = .next (clearKeyData (setSession (slot % 4) none (((s.wr
    R.KEY_CMD_op 1).wr R.KEY_CMD_slot (slot % 4)).wr R.KEY_CMD_refused 0)))) ∧
  (∀ (s : State) (slot : Nat), pageOpen s 8 = true → keyRefused ((s.wr R.KEY_CMD_op 2).wr R.KEY_CMD_slot (slot % 4)) 2
    (slot % 4) = false → exec (.keyEnroll slot) s = .next (clearKeyData (enroll (slot % 4) (((s.wr R.KEY_CMD_op 2).wr
    R.KEY_CMD_slot (slot % 4)).wr R.KEY_CMD_refused 0)))) ∧
  (∀ (s : State) (slot : Nat), pageOpen s 8 = true → keyRefused ((s.wr R.KEY_CMD_op 3).wr R.KEY_CMD_slot (slot % 4)) 3
    (slot % 4) = false → exec (.keyRevoke slot) s = .next (clearKeyData (revoke (slot % 4) (((s.wr R.KEY_CMD_op 3).wr
    R.KEY_CMD_slot (slot % 4)).wr R.KEY_CMD_refused 0)))) ∧
  (∀ (s : State), pageOpen s 8 = true → s.on R.ATT_CMD_busy = false → s.on R.SEC_STAT_fuse_block = false → exec
    .attGenerate s = .next (startReport ((List.range 8).flatMap fun i => beBytes 4 (s.rd (R.ATT_NONCE_nonce i))) (s.wr
    R.ATT_CMD_refused 0))) ∧
  (∀ (s : State), s.on R.ATT_CMD_busy = true → s.dev.phase ≠ .off → exec .attGenerateDone s = .next ((makeReport s).wr
    R.ATT_CMD_busy 0)) ∧
  (∀ (s : State), s.sec.digestDue = true → exec .prickingDigestDone s = .next
    ({ putDigest R.DIG_PRK_digest (Config.sha384 ((digestWords s).flatMap (beBytes 4))) s with sec := { (putDigest R.DIG_PRK_digest (Config.sha384 ((digestWords s).flatMap (beBytes 4))) s).sec with digestDue := false, digestStat := s.sec.applyStat } }))

/-- On a live side whose span is UP, with the channel enabled and its page answering, an accepted SEL set that holds a
READ, WRITE or ATTEST request (g: its bytes) is counted where it is malformed, and else accepted, or fails with its
cause: no key, an old counter or a wrong MAC (R455). Serving takes the oldest queued request (R456). A READ or WRITE
whose words are all done answers OK with what it read. Else its next word, at x: an address that is no register of 4
bytes ends it with RANGE; a write to a page that the channel may not write ends it with DENIED; a SOFT_RESET write
of a page in soft reset is ignored; any other access to a page in soft reset waits; and otherwise the word is
written or read and the serving goes on with the words after it. An ATTEST answers one of the failure statuses, a
free value, after a fuse block error (log 2); waits while a report is being signed; answers the slice of the report
it asks for where the report has its nonce; and else starts a report for its nonce. With no request queued, or the
page closed, serving changes nothing. -/
def Obligations.SelvedgeRequests : Prop :=
  (∀ (s : State) (k : Nat) (sd : Side) (heard : List Heard) (f g : List Nat) (s2 : State), g = f.map (· % 256) → k <
    linksOf s → sideLive s k sd = true → setArrives readSel k sd heard s = (some f, s2) → selKind f = 1 → spanUp s2 k
    sd = true → s2.on R.SEL_CFG_en = true → pageOpen s2 0xB = true → selMalformed g = true → exec (.selReadReq k sd
    heard) s = .next (s2.bump R.SEL_ERR_malformed)) ∧
  (∀ (s : State) (k : Nat) (sd : Side) (heard : List Heard) (f g : List Nat) (s2 : State), g = f.map (· % 256) → k <
    linksOf s → sideLive s k sd = true → setArrives readSel k sd heard s = (some f, s2) → selKind f = 1 → spanUp s2 k
    sd = true → s2.on R.SEL_CFG_en = true → pageOpen s2 0xB = true → selMalformed g = false → exec (.selReadReq k sd
    heard) s = .next (if selCause s2 k sd.idx g ≠ 0 then selFail k sd.idx (selCause s2 k sd.idx g) (selSlot g) s2 else
    selAccept k sd.idx g s2)) ∧
  (∀ (s : State) (k : Nat) (sd : Side) (heard : List Heard) (f g : List Nat) (s2 : State), g = f.map (· % 256) → k <
    linksOf s → sideLive s k sd = true → setArrives readSel k sd heard s = (some f, s2) → selKind f = 2 → spanUp s2 k
    sd = true → s2.on R.SEL_CFG_en = true → pageOpen s2 0xB = true → selMalformed g = true → exec (.selWriteReq k sd
    heard) s = .next (s2.bump R.SEL_ERR_malformed)) ∧
  (∀ (s : State) (k : Nat) (sd : Side) (heard : List Heard) (f g : List Nat) (s2 : State), g = f.map (· % 256) → k <
    linksOf s → sideLive s k sd = true → setArrives readSel k sd heard s = (some f, s2) → selKind f = 2 → spanUp s2 k
    sd = true → s2.on R.SEL_CFG_en = true → pageOpen s2 0xB = true → selMalformed g = false → exec (.selWriteReq k sd
    heard) s = .next (if selCause s2 k sd.idx g ≠ 0 then selFail k sd.idx (selCause s2 k sd.idx g) (selSlot g) s2 else
    selAccept k sd.idx g s2)) ∧
  (∀ (s : State) (k : Nat) (sd : Side) (heard : List Heard) (f g : List Nat) (s2 : State), g = f.map (· % 256) → k <
    linksOf s → sideLive s k sd = true → setArrives readSel k sd heard s = (some f, s2) → selKind f = 3 → spanUp s2 k
    sd = true → s2.on R.SEL_CFG_en = true → pageOpen s2 0xB = true → selMalformed g = true → exec (.selAttestReq k sd
    heard) s = .next (s2.bump R.SEL_ERR_malformed)) ∧
  (∀ (s : State) (k : Nat) (sd : Side) (heard : List Heard) (f g : List Nat) (s2 : State), g = f.map (· % 256) → k <
    linksOf s → sideLive s k sd = true → setArrives readSel k sd heard s = (some f, s2) → selKind f = 3 → spanUp s2 k
    sd = true → s2.on R.SEL_CFG_en = true → pageOpen s2 0xB = true → selMalformed g = false → exec (.selAttestReq k sd
    heard) s = .next (if selCause s2 k sd.idx g ≠ 0 then selFail k sd.idx (selCause s2 k sd.idx g) (selSlot g) s2 else
    selAccept k sd.idx g s2)) ∧
  (∀ (s : State)  (q : SelReq) (rest : List SelReq), pageOpen s 0xB = true → s.sel.queue = q :: rest → selKind q.frame
    = 1 → selWords q.frame - q.done = 0 → exec .selRequestServe s = .next (selRespond q stOk (q.got.flatMap (beBytes
    4)) s.freshOut)) ∧
  (∀ (s : State)  (q : SelReq) (rest : List SelReq), pageOpen s 0xB = true → s.sel.queue = q :: rest → selKind q.frame
    = 2 → selWords q.frame - q.done = 0 → exec .selRequestServe s = .next (selRespond q stOk (q.got.flatMap (beBytes
    4)) s.freshOut)) ∧
  (∀ (s : State)  (q : SelReq) (rest : List SelReq) (x n : Nat), x = selAddr q.frame + 4 * q.done → pageOpen s 0xB =
    true → s.sel.queue = q :: rest → selKind q.frame = 1 → selWords q.frame - q.done = n + 1 → badRange x 1 = true →
    exec .selRequestServe s = .next (selRespond q stRange [] s.freshOut)) ∧
  (∀ (s : State)  (q : SelReq) (rest : List SelReq) (x n : Nat), x = selAddr q.frame + 4 * q.done → pageOpen s 0xB =
    true → s.sel.queue = q :: rest → selKind q.frame = 2 → selWords q.frame - q.done = n + 1 → badRange x 1 = true →
    exec .selRequestServe s = .next (selRespond q stRange [] s.freshOut)) ∧
  (∀ (s : State)  (q : SelReq) (rest : List SelReq) (x n : Nat), x = selAddr q.frame + 4 * q.done → pageOpen s 0xB =
    true → s.sel.queue = q :: rest → selKind q.frame = 2 → selWords q.frame - q.done = n + 1 → badRange x 1 = false →
    selDenied x = true → exec .selRequestServe s = .next (selRespond q stDenied [] s.freshOut)) ∧
  (∀ (s : State)  (q : SelReq) (rest : List SelReq) (x n : Nat), x = selAddr q.frame + 4 * q.done → pageOpen s 0xB =
    true → s.sel.queue = q :: rest → selKind q.frame = 2 → selWords q.frame - q.done = n + 1 → badRange x 1 = false →
    selDenied x = false → goIgnored s.freshOut x = true → exec .selRequestServe s = .next (selServeWords true n
    { q with done := q.done + 1 } s.freshOut)) ∧
  (∀ (s : State)  (q : SelReq) (rest : List SelReq) (x n : Nat), x = selAddr q.frame + 4 * q.done → pageOpen s 0xB =
    true → s.sel.queue = q :: rest → selKind q.frame = 2 → selWords q.frame - q.done = n + 1 → badRange x 1 = false →
    selDenied x = false → goIgnored s.freshOut x = false → pageSoftBusy s.freshOut x = true → exec .selRequestServe s
    = .next (selProgress q s.freshOut)) ∧
  (∀ (s : State)  (q : SelReq) (rest : List SelReq) (x n : Nat), x = selAddr q.frame + 4 * q.done → pageOpen s 0xB =
    true → s.sel.queue = q :: rest → selKind q.frame = 2 → selWords q.frame - q.done = n + 1 → badRange x 1 = false →
    selDenied x = false → goIgnored s.freshOut x = false → pageSoftBusy s.freshOut x = false → exec .selRequestServe s
    = .next (selServeWords true n { q with done := q.done + 1 } (hostWrite x (beNat (((selPayload q.frame).drop (4 + 4
    * q.done)).take 4)) s.freshOut))) ∧
  (∀ (s : State)  (q : SelReq) (rest : List SelReq) (x n : Nat), x = selAddr q.frame + 4 * q.done → pageOpen s 0xB =
    true → s.sel.queue = q :: rest → selKind q.frame = 1 → selWords q.frame - q.done = n + 1 → badRange x 1 = false →
    pageSoftBusy s.freshOut x = true → exec .selRequestServe s = .next (selProgress q s.freshOut)) ∧
  (∀ (s : State)  (q : SelReq) (rest : List SelReq) (x n : Nat), x = selAddr q.frame + 4 * q.done → pageOpen s 0xB =
    true → s.sel.queue = q :: rest → selKind q.frame = 1 → selWords q.frame - q.done = n + 1 → badRange x 1 = false →
    pageSoftBusy s.freshOut x = false → exec .selRequestServe s = .next (selServeWords false n
    { q with done := q.done + 1, got := q.got ++ [(hostRead x s.freshOut).1] } (hostRead x s.freshOut).2)) ∧
  (∀ (s : State)  (q : SelReq) (rest : List SelReq), pageOpen s 0xB = true → s.sel.queue = q :: rest → selKind q.frame
    = 3 → s.on R.SEC_STAT_fuse_block = true → exec .selRequestServe s = .next (selRespond q ((freeWords 1 s).1.headD 0
    % 8 + 1) [] (freeWords 1 s).2)) ∧
  (∀ (s : State)  (q : SelReq) (rest : List SelReq), pageOpen s 0xB = true → s.sel.queue = q :: rest → selKind q.frame
    = 3 → s.on R.SEC_STAT_fuse_block = false → s.on R.ATT_CMD_busy = true → exec .selRequestServe s = .next (s)) ∧
  (∀ (s : State)  (q : SelReq) (rest : List SelReq), pageOpen s 0xB = true → s.sel.queue = q :: rest → selKind q.frame
    = 3 → s.on R.SEC_STAT_fuse_block = false → s.on R.ATT_CMD_busy = false → s.sec.lastNonce = some ((selPayload
    q.frame).drop 4) → exec .selRequestServe s = .next (selRespond q stOk (exactly 64 (((List.range 76).flatMap fun i
    => beBytes 4 (s.rd (R.ATT_REPORT_report i))).drop (64 * (selPayload q.frame).getD 0 0))) s)) ∧
  (∀ (s : State)  (q : SelReq) (rest : List SelReq), pageOpen s 0xB = true → s.sel.queue = q :: rest → selKind q.frame
    = 3 → s.on R.SEC_STAT_fuse_block = false → s.on R.ATT_CMD_busy = false → s.sec.lastNonce ≠ some ((selPayload
    q.frame).drop 4) → exec .selRequestServe s = .next
    (({ s with sec := { s.sec with nonce := (selPayload q.frame).drop 4 } } : State).wr R.ATT_CMD_busy 1)) ∧
  (∀ (s : State), (pageOpen s 0xB = false ∨ s.sel.queue = []) → exec .selRequestServe s = .next (s))

/-- In any state with canonical tables and an answering page, for both classes and both host targets. A claim of a bank
that serves a source answers NONE (0x3FF) with none_why SERVING; a claim of the normal bank while the fast bank of
that target has a deliverable source answers NONE with FAST_FIRST; a claim with no deliverable source answers NONE
with EMPTY; none of the three changes anything else. Otherwise the claim answers count and number of the deliverable
source that comes first in the priority order (256, 257, 276, 277, then ascending number); that source is no longer
pending, has count 0 and is active, and the bank serves it; a source whose LEVEL input is still 1 is pending again
with count 0 (R421). No other register field and nothing else in the state but the answered word changes. Claims of
the ring banks: R430, in InterruptInputsAndClaims. -/
def Obligations.ClaimTakesTheFirstDeliverable : Prop :=
  (∀ (s : State) (fast : Bool) (t : Nat), pageOpen s (4 + cls fast) = true → t < 2 → bankServing s fast t = true →
    exec (.intClaim fast t) s = .next ((s.wr (R.BANK_none_why (cls fast) t) 2).answerWord 0x3FF)) ∧
  (∀ (s : State) (t : Nat), pageOpen s 4 = true → t < 2 → bankServing s false t = false → bankServing s true t = false
    → (∃ n, offered s true t n) → exec (.intClaim false t) s = .next ((s.wr (R.BANK_none_why 0 t) 3).answerWord
    0x3FF)) ∧
  (∀ (s : State) (fast : Bool) (t : Nat), pageOpen s (4 + cls fast) = true → t < 2 → bankServing s fast t = false →
    (fast = false → bankServing s true t = true ∨ ∀ n, ¬ offered s true t n) → (∀ n, ¬ offered s fast t n) → exec
    (.intClaim fast t) s = .next ((s.wr (R.BANK_none_why (cls fast) t) 1).answerWord 0x3FF)) ∧
  (∀ (s : State) (fast : Bool) (t src : Nat), tablesCanonical s = true → pageOpen s (4 + cls fast) = true → t < 2 →
    bankServing s fast t = false → (fast = false → bankServing s true t = true ∨ ∀ n, ¬ offered s true t n) → offered
    s fast t src → (∀ n, offered s fast t n → claimRank src ≤ claimRank n) → ∃ u, exec (.intClaim fast t) s = .next u
    ∧ u.host.answer = [s.rd (R.SRC_CFG_count src) * 65536 + src] ∧ u.on (R.SRC_CFG_pend src) = (decide (s.rd
    (R.SRC_CFG_sense src) = 0) && s.on (R.SRC_CFG_input src) && !sourceGated s src) ∧ u.rd (R.SRC_CFG_count src) = 0 ∧
    u.on (R.SRC_CFG_active src) = true ∧ bankServing u fast t = true ∧ u.rd (R.BANK_source (cls fast) t) = src ∧ u.rd
    (R.BANK_ring (cls fast) t) = 0 ∧ u.rd (R.BANK_none_why (cls fast) t) = 0 ∧ (∀ g : Fld, (∀ f ∈ [R.SRC_CFG_pend src,
    R.SRC_CFG_count src, R.SRC_CFG_active src, R.BANK_serving (cls fast) t, R.BANK_source (cls fast) t, R.BANK_ring
    (cls fast) t, R.BANK_none_why (cls fast) t], g.key ≠ f.key) → u.rd g = s.rd g) ∧ sameButRegs s
    { u with host := { u.host with answer := s.host.answer } })

/-- In any state with canonical tables and an answering page. A completion that names 0x3FF changes nothing. One that
names exactly what a bank of a host target serves makes that source not active and the bank idle; whether the source
is pending stays as it was, so that it is deliverable again if it is. Of the ring banks at the head the ring id must
agree too; the end of a service of another package goes to it as a COMPLETE (R430). Any other completion is a stray:
STRAY.count adds one, saturating at 65,535; STRAY records source, ring id, class and target; source 285 is raised;
and no other register field and nothing else changes, no source and no bank. (ring.sent is the model's record of
what one command sends; every completion starts it anew, log 14.) -/
def Obligations.CompletionsEndOrStray : Prop :=
  (∀ (s : State) (fast : Bool) (t ring : Nat), pageOpen s (4 + cls fast) = true → t < 3 → exec (.intComplete fast t
    0x3FF ring) s = .next s.freshOut) ∧
  (∀ (s : State) (fast : Bool) (t src ring : Nat), tablesCanonical s = true → pageOpen s (4 + cls fast) = true → t < 2
    → src < 320 → bankServing s fast t = true → s.rd (R.BANK_source (cls fast) t) = src → ∃ u, exec (.intComplete fast
    t src ring) s = .next u ∧ u.on (R.SRC_CFG_active src) = false ∧ bankServing u fast t = false ∧ u.rd (R.BANK_source
    (cls fast) t) = 0x3FF ∧ u.rd (R.BANK_ring (cls fast) t) = 0 ∧ (∀ g : Fld, (∀ f ∈ [R.SRC_CFG_active src,
    R.BANK_serving (cls fast) t, R.BANK_source (cls fast) t, R.BANK_ring (cls fast) t], g.key ≠ f.key) → u.rd g = s.rd
    g) ∧ u.ring.resend = s.ring.resend.filter (fun x => x ≠ src) ∧ sameButRegs s { u with ring := s.ring }) ∧
  (∀ (s : State) (fast : Bool) (src ring : Nat), tablesCanonical s = true → pageOpen s (4 + cls fast) = true → src <
    320 → 1 ≤ ring → ring < 8 → isHead s = true → bankServing s fast 2 = true → s.rd (R.BANK_source (cls fast) 2) =
    src → s.rd (R.BANK_ring (cls fast) 2) = ring → exec (.intComplete fast 2 src ring) s = .next ((bankIdle (cls fast)
    2 s.freshOut).sendTo ring 0x09 (beBytes 2 src))) ∧
  (∀ (s : State) (fast : Bool) (t src ring : Nat), tablesCanonical s = true → pageOpen s (4 + cls fast) = true → t < 3
    → src < 1023 → ring < 8 → ¬ (bankServing s fast t = true ∧ s.rd (R.BANK_source (cls fast) t) = src ∧ (t = 2 →
    isHead s = true ∧ s.rd (R.BANK_ring (cls fast) t) = ring)) → ∃ u, exec (.intComplete fast t src ring) s = .next u
    ∧ u.rd R.STRAY_count = (if s.rd R.STRAY_count < 65535 then s.rd R.STRAY_count + 1 else s.rd R.STRAY_count) ∧ u.rd
    R.STRAY_source = src ∧ u.rd R.STRAY_ring = ring ∧ u.rd R.STRAY_class = cls fast ∧ u.rd R.STRAY_target = t ∧ u.on
    (R.SRC_CFG_pend 285) = true ∧ u.rd (R.SRC_CFG_count 285) = (if s.rd (R.SRC_CFG_count 285) < 255 then s.rd
    (R.SRC_CFG_count 285) + 1 else s.rd (R.SRC_CFG_count 285)) ∧ (∀ g : Fld, (∀ f ∈ [R.STRAY_count, R.STRAY_source,
    R.STRAY_ring, R.STRAY_class, R.STRAY_target, R.SRC_CFG_pend 285, R.SRC_CFG_count 285], g.key ≠ f.key) → u.rd g =
    s.rd g) ∧ sameButRegs s.freshOut u)

/-- In any state with canonical tables, for a source the part has whose block is not gated, whether or not it is
enabled. A pulse at a pulse input (R420: every source but 260 to 268, 272 to 275, 278 to 281, 286 and 287) sets
pending and adds one to the 8-bit count, saturating at 255, under every sense. A level input takes its value;
pending sets under LEVEL while the input is 1, under RISE at a change from 0 to 1, under FALL from 1 to 0, under
BOTH at each change; the count adds one at the same event, under LEVEL at each change from 0 to 1; pending is never
cleared by an input. No other register field and nothing else changes. An input of a source whose block is gated
sets nothing pending (R346); an input has no event of the other kind, and a source the part lacks ignores every
input (R4, R420). -/
def Obligations.PulsesAndLevelsCountEvents : Prop :=
  (∀ (s : State) (src : Nat), tablesCanonical s = true → sourceExists s src = true → sourceGated s src = false →
    levelSource src = false → ∃ u, exec (.sourceInput src .pulse) s = .next u ∧ u.on (R.SRC_CFG_pend src) = true ∧
    u.rd (R.SRC_CFG_count src) = (if s.rd (R.SRC_CFG_count src) < 255 then s.rd (R.SRC_CFG_count src) + 1 else s.rd
    (R.SRC_CFG_count src)) ∧ (∀ g : Fld, g.key ≠ (R.SRC_CFG_pend src).key → g.key ≠ (R.SRC_CFG_count src).key → u.rd g
    = s.rd g) ∧ sameButRegs s u) ∧
  (∀ (s : State) (src : Nat) (v : Bool), tablesCanonical s = true → sourceExists s src = true → sourceGated s src =
    false → levelSource src = true → ∃ u, exec (.sourceInput src (.level v)) s = .next u ∧ u.on (R.SRC_CFG_input src)
    = v ∧ (s.rd (R.SRC_CFG_sense src) = 0 → u.on (R.SRC_CFG_pend src) = (s.on (R.SRC_CFG_pend src) || v)) ∧ (s.rd
    (R.SRC_CFG_sense src) = 1 → u.on (R.SRC_CFG_pend src) = (s.on (R.SRC_CFG_pend src) || (!s.on (R.SRC_CFG_input src)
    && v))) ∧ (s.rd (R.SRC_CFG_sense src) = 2 → u.on (R.SRC_CFG_pend src) = (s.on (R.SRC_CFG_pend src) || (s.on
    (R.SRC_CFG_input src) && !v))) ∧ (s.rd (R.SRC_CFG_sense src) = 3 → u.on (R.SRC_CFG_pend src) = (s.on
    (R.SRC_CFG_pend src) || (s.on (R.SRC_CFG_input src) != v))) ∧ u.rd (R.SRC_CFG_count src) = (if s.rd
    (R.SRC_CFG_count src) < 255 ∧ s.on (R.SRC_CFG_input src) ≠ v ∧ (s.rd (R.SRC_CFG_sense src) ≤ 1 → v = true) ∧ (s.rd
    (R.SRC_CFG_sense src) = 2 → v = false) then s.rd (R.SRC_CFG_count src) + 1 else s.rd (R.SRC_CFG_count src)) ∧ (∀ g
    : Fld, (∀ f ∈ [R.SRC_CFG_pend src, R.SRC_CFG_count src, R.SRC_CFG_input src], g.key ≠ f.key) → u.rd g = s.rd g) ∧
    sameButRegs s u) ∧
  (∀ (s : State) (src : Nat) (v : Bool), sourceExists s src = true → sourceGated s src = true → exec (.sourceInput src
    .pulse) s = .next s ∧ (levelSource src = true → exec (.sourceInput src (.level v)) s = .next (s.wrB
    (R.SRC_CFG_input src) v))) ∧
  (∀ (s : State) (src : Nat) (v : Bool), src < 320 → (levelSource src = true → exec (.sourceInput src .pulse) s =
    .next s) ∧ (levelSource src = false → exec (.sourceInput src (.level v)) s = .next s)) ∧
  (∀ (s : State) (src : Nat) (ev : InputEvent), src < 320 → sourceExists s src = false → exec (.sourceInput src ev) s
    = .next s)

/-- In any state with canonical tables and an answering page: a read of FLT_SNAP, DARN_SNAP, TRK_SNAP, LL_SNAP, CAL_SNAP
or BUF_SNAP gives every count register of its group the live count of that moment (a 64-bit count in its LO and HI
words), adds one to the snapshot number of the group, and changes no other register field; the live counts and
everything else but the answered word stay as they were (R182, R207, R494). -/
def Obligations.SnapshotsLatchTheirGroup : Prop :=
  (∀ (s : State) (k : Nat), tablesCanonical s = true → k < linksOf s → pageOpen s (0x40 + k) = true → ∃ u, exec
    (.fltSnap k) s = .next u ∧ (∀ f ∈ fltCounters k, u.rd f = s.live f % 2 ^ f.width) ∧ (∀ p ∈ fltCounters64 k, u.rd
    p.1 = s.live p.1 % 2 ^ 32 ∧ u.rd p.2 = s.live p.1 / 2 ^ 32 % 2 ^ 32) ∧ u.rd (R.FLT_SNAP_snap_no k) = (s.rd
    (R.FLT_SNAP_snap_no k) + 1) % 65536 ∧ (∀ g : Fld, (∀ f ∈ fltCounters k, g.key ≠ f.key) → (∀ p ∈ fltCounters64 k,
    g.key ≠ p.1.key ∧ g.key ≠ p.2.key) → g.key ≠ (R.FLT_SNAP_snap_no k).key → u.rd g = s.rd g) ∧ sameButRegs s
    { u with host := { u.host with answer := s.host.answer } }) ∧
  (∀ (s : State) (k : Nat), tablesCanonical s = true → k < linksOf s → pageOpen s (0x40 + k) = true → ∃ u, exec
    (.darnSnap k) s = .next u ∧ (∀ f ∈ darnCounters k, u.rd f = s.live f % 2 ^ f.width) ∧ (∀ p ∈ darnCounters64 k,
    u.rd p.1 = s.live p.1 % 2 ^ 32 ∧ u.rd p.2 = s.live p.1 / 2 ^ 32 % 2 ^ 32) ∧ u.rd (R.DARN_SNAP_snap_no k) = (s.rd
    (R.DARN_SNAP_snap_no k) + 1) % 65536 ∧ (∀ g : Fld, (∀ f ∈ darnCounters k, g.key ≠ f.key) → (∀ p ∈ darnCounters64
    k, g.key ≠ p.1.key ∧ g.key ≠ p.2.key) → g.key ≠ (R.DARN_SNAP_snap_no k).key → u.rd g = s.rd g) ∧ sameButRegs s
    { u with host := { u.host with answer := s.host.answer } }) ∧
  (∀ (s : State) (k : Nat), tablesCanonical s = true → k < linksOf s → pageOpen s (0x40 + k) = true → ∃ u, exec
    (.trkSnap k) s = .next u ∧ (∀ f ∈ trkCounters k, u.rd f = s.live f % 2 ^ f.width) ∧ (∀ p ∈ [(R.SENT_LO k,
    R.SENT_HI k)], u.rd p.1 = s.live p.1 % 2 ^ 32 ∧ u.rd p.2 = s.live p.1 / 2 ^ 32 % 2 ^ 32) ∧ u.rd
    (R.TRK_SNAP_snap_no k) = (s.rd (R.TRK_SNAP_snap_no k) + 1) % 65536 ∧ (∀ g : Fld, (∀ f ∈ trkCounters k, g.key ≠
    f.key) → (∀ p ∈ [(R.SENT_LO k, R.SENT_HI k)], g.key ≠ p.1.key ∧ g.key ≠ p.2.key) → g.key ≠ (R.TRK_SNAP_snap_no
    k).key → u.rd g = s.rd g) ∧ sameButRegs s { u with host := { u.host with answer := s.host.answer } }) ∧
  (∀ (s : State) (p : Nat), tablesCanonical s = true → p < lltPages s → s.rd (R.LLT_SEL_idx p) < 128 → pageOpen s
    (0xC0 + p) = true → ∃ u, exec (.llSnap p) s = .next u ∧ (∀ f ∈ llCounters (llSelected s p), u.rd f = s.live f % 2
    ^ f.width) ∧ u.rd (R.LL_SNAP_snap_no p) = (s.rd (R.LL_SNAP_snap_no p) + 1) % 65536 ∧ (∀ g : Fld, (∀ f ∈ llCounters
    (llSelected s p), g.key ≠ f.key) → g.key ≠ (R.LL_SNAP_snap_no p).key → u.rd g = s.rd g) ∧ sameButRegs s
    { u with host := { u.host with answer := s.host.answer } }) ∧
  (∀ (s : State) (c : Nat), tablesCanonical s = true → c < calsOf s → pageOpen s (0xC8 + c / 2) = true → ∃ u, exec
    (.calSnap c) s = .next u ∧ (∀ f ∈ calCounters (c / 2) (c % 2), u.rd f = s.live f % 2 ^ f.width) ∧ u.rd
    (R.CAL_SNAP_snap_no (c / 2) (c % 2)) = (s.rd (R.CAL_SNAP_snap_no (c / 2) (c % 2)) + 1) % 65536 ∧ (∀ g : Fld, (∀ f
    ∈ calCounters (c / 2) (c % 2), g.key ≠ f.key) → g.key ≠ (R.CAL_SNAP_snap_no (c / 2) (c % 2)).key → u.rd g = s.rd
    g) ∧ sameButRegs s { u with host := { u.host with answer := s.host.answer } }) ∧
  (∀ (s : State) (d : Nat), tablesCanonical s = true → d < diesOf s → pageOpen s (0x38 + d) = true → ∃ u, exec
    (.bufSnap d) s = .next u ∧ (∀ f ∈ bufCounters d, u.rd f = s.live f % 2 ^ f.width) ∧ u.rd (R.BUF_SNAP_snap_no d) =
    (s.rd (R.BUF_SNAP_snap_no d) + 1) % 65536 ∧ (∀ g : Fld, (∀ f ∈ bufCounters d, g.key ≠ f.key) → g.key ≠
    (R.BUF_SNAP_snap_no d).key → u.rd g = s.rd g) ∧ sameButRegs s
    { u with host := { u.host with answer := s.host.answer } })

/-- A power-on reset returns every register field to its reset value but RST_CAUSE.kind, which reads 1. A pin reset
outside another hold does so with kind 3 and one more pin reset, and a brown-out reset with kind 2 and its rail and
count recorded, both keeping the repair log with BST_REPAIR, IFO_CORR and BO_LAST, and a brown-out RST_CAUSE.pins
too. After each the package is held in OFF with fabric time 0, no live count is left, every slot, copy, queue and
ring entry is gone, and the fuses are as they were, and so are the JTAG registers, which only TRST resets (DEDUCED,
log 133). A brown-out is a rail below its reset threshold for more than 100 ns, in any state but a power-on hold
(R399, R401). A pin that goes low during another hold is counted and changes nothing else (DEDUCED, log 181). That
BST_REPAIR.fuse_en is kept too is R395's (log 301). -/
def Obligations.ResetsForgetAllButWhatTheyKeep : Prop :=
  (∀ s : State, ∃ u, exec .powerOnReset s = .next u ∧ u.rd R.RST_CAUSE_kind = 1 ∧ (∀ f : Fld, f.key ≠
    R.RST_CAUSE_kind.key → u.rd f = resetOf f.key) ∧
    { u with regs := [], pending := [], freeCtr := 0, fuse := shippedFuses, dev := { u.dev with jtag := State.reset.dev.jtag, cells := State.reset.dev.cells, railLow := true } }
    = State.reset ∧ u.dev.railLow = true ∧ u.dev.jtag = s.dev.jtag ∧ u.dev.cells = s.dev.cells ∧ u.fuse = s.fuse) ∧
  (∀ s : State, tablesCanonical s = true → s.dev.phase ≠ .off → ∃ u, exec .pinReset s = .next u ∧ u.rd
    R.RST_CAUSE_kind = 3 ∧ (∀ f ∈ keptFields, f ≠ R.RST_CAUSE_pins → u.rd f = s.rd f % 2 ^ f.width) ∧ u.rd
    R.RST_CAUSE_pins = (if s.rd R.RST_CAUSE_pins % 65536 < 65535 then s.rd R.RST_CAUSE_pins % 65536 + 1 else s.rd
    R.RST_CAUSE_pins % 65536) ∧ (∀ f : Fld, (∀ g ∈ R.RST_CAUSE_kind :: keptFields, f.key ≠ g.key) → u.rd f = resetOf
    f.key) ∧
    { u with regs := [], pending := [], freeCtr := 0, fuse := shippedFuses, dev := { u.dev with jtag := State.reset.dev.jtag, cells := State.reset.dev.cells, railLow := true }, bist := { u.bist with log := State.reset.bist.log } }
    = State.reset ∧ u.dev.railLow = s.dev.railLow ∧ u.dev.jtag = s.dev.jtag ∧ u.dev.cells = s.dev.cells ∧ u.fuse =
    s.fuse ∧ u.bist.log = s.bist.log) ∧
  (∀ s : State, s.dev.phase = .off → exec .pinReset s = .next (s.bump R.RST_CAUSE_pins)) ∧
  (∀ (s : State) (rail mv ns : Nat), tablesCanonical s = true → rail < 4 → mv < (railLevels rail).2 → 100 < ns →
    (s.dev.phase ≠ .off ∨ s.rd R.RST_CAUSE_kind ≠ 1) → ∃ u, exec (.brownOutReset ⟨rail, mv, ns⟩) s = .next u ∧ u.rd
    R.RST_CAUSE_kind = 2 ∧ u.rd R.BO_LAST_valid = 1 ∧ u.rd R.BO_LAST_rail = rail ∧ u.rd R.BO_LAST_count = (if s.rd
    R.BO_LAST_count % 65536 < 65535 then s.rd R.BO_LAST_count % 65536 + 1 else s.rd R.BO_LAST_count % 65536) ∧ (∀ f ∈
    keptFields, f ≠ R.BO_LAST_valid → f ≠ R.BO_LAST_rail → f ≠ R.BO_LAST_count → u.rd f = s.rd f % 2 ^ f.width) ∧ (∀ f
    : Fld, (∀ g ∈ R.RST_CAUSE_kind :: keptFields, f.key ≠ g.key) → u.rd f = resetOf f.key) ∧
    { u with regs := [], pending := [], freeCtr := 0, fuse := shippedFuses, dev := { u.dev with jtag := State.reset.dev.jtag, cells := State.reset.dev.cells, railLow := true }, bist := { u.bist with log := State.reset.bist.log } }
    = State.reset ∧ u.dev.railLow = true ∧ u.dev.jtag = s.dev.jtag ∧ u.dev.cells = s.dev.cells ∧ u.fuse = s.fuse ∧
    u.bist.log = s.bist.log)

/-- A read of an unassigned page, of a page the part lacks (R3), of a page closed in the device's state (START under
R474, WATCH under R352), of a gated page beyond its first three words (R346), or of a reserved offset in an
answering page (an offset at which the tables of the page place no field) returns zero and has no effect, and a
write there changes nothing. This is said of a word address below 2^20 with no access waiting for a soft reset; as
an access of a host port in this package both end with status OK. In OFF no page answers. -/
def Obligations.UnansweredAddressesReadZeroAndDropWrites : Prop :=
  (∀ (s : State) (addr v p : Nat), addr % 4 = 0 → addr < 2 ^ 20 → s.host.heldAcc = [] → pageExists s (addr / 4096) =
    false ∨ phaseOpens s (addr / 4096) = false → exec (.loReadLatch addr) s = .next (s.answerWord 0) ∧ exec
    (.registerWrite addr v) s = .next s ∧ portRead p (ownId s) addr 1 false s = (stOk, [0], s) ∧ portWrite p (ownId s)
    addr [v] s = (stOk, s)) ∧
  (∀ (s : State) (addr v p : Nat), addr % 4 = 0 → addr < 2 ^ 20 → s.host.heldAcc = [] → pageGated s (addr / 4096) =
    true → 12 ≤ addr % 4096 → exec (.loReadLatch addr) s = .next (s.answerWord 0) ∧ exec (.registerWrite addr v) s =
    .next s ∧ portRead p (ownId s) addr 1 false s = (stOk, [0], s) ∧ portWrite p (ownId s) addr [v] s = (stOk, s)) ∧
  (∀ (s : State) (addr v p : Nat), addr % 4 = 0 → addr < 2 ^ 20 → s.host.heldAcc = [] → pageOpen s (addr / 4096) =
    true → s.on (R.SOFT_RESET_busy (addr / 4096)) = false → 0x20 ≤ addr % 4096 → fieldsAt (addr / 4096) (addr % 4096)
    = [] → exec (.loReadLatch addr) s = .next (s.answerWord 0) ∧ exec (.registerWrite addr v) s = .next s ∧ portRead p
    (ownId s) addr 1 false s = (stOk, [0], s) ∧ portWrite p (ownId s) addr [v] s = (stOk, s))

/-- FAULT_N is driven low in a reset hold (OFF), throughout START and while a START failure lasts (the device stays in
START), while the package as a whole is fenced, and while the device stays in WATCH because neither clock came; it
is released in every other case. (A fence cause recorded in WATCH takes effect when the wake completes, R409.) Data
lane n lies at position n mod 8 of cluster n / 8, and the bobbin lane of cluster c is lane 128 + c, at position 8. -/
def Obligations.FaultPinAndLaneNumbers : Prop :=
  (∀ s : State, faultN s = true ↔ (s.dev.phase = .off ∨ s.dev.phase = .start ∨ ((s.dev.phase = .run ∨ s.dev.phase =
    .test) ∧ pkgFenced s = true) ∨ (s.dev.phase = .watch ∧ s.dev.stuck = true))) ∧
  (∀ n : Nat, n < 128 → laneCluster n = n / 8 ∧ lanePos n = n % 8 ∧ laneAt (n / 8) (n % 8) = n) ∧
  (∀ c : Nat, c < 16 → laneAt c 8 = 128 + c ∧ laneCluster (128 + c) = c ∧ lanePos (128 + c) = 8)
end

