-- ==== Sys2Proof/Laws/Tables.lean ====
section
/-!
SUPPORT. Sparse tables: what a read finds after a write, and that every operation keeps the canonical form.
-/

namespace Sys2Proof.Machine

variable {α : Type} [DecidableEq α]

/-- No key below the bound of a canonical table is listed. -/
theorem Tbl.get_of_lt {dflt : Nat → α} {d : α} : ∀ {t : Tbl α} {lo k : Nat}, Tbl.wfFrom dflt lo t = true → k < lo →
    Tbl.get d t k = d
  | [], _, _, _, _ => rfl
  | (k', v') :: t, lo, k, h, hk => by
    simp only [Tbl.wfFrom, Bool.and_eq_true, decide_eq_true_eq] at h
    have h1 : k' ≠ k := by omega
    simp only [Tbl.get, if_neg h1]
    exact Tbl.get_of_lt h.2 (by omega)

/-- A read after a write to the same key gives the value written. -/
theorem Tbl.get_put_same {dflt : Nat → α} : ∀ {t : Tbl α} {lo : Nat} (k : Nat) (v : α), Tbl.wfFrom dflt lo t = true →
    Tbl.get (dflt k) (Tbl.put (dflt k) k v t) k = v
  | [], _, k, v, _ => by
    by_cases h : v = dflt k <;> simp [Tbl.put, Tbl.get, h]
  | (k', v') :: t, lo, k, v, h => by
    simp only [Tbl.wfFrom, Bool.and_eq_true, decide_eq_true_eq] at h
    rcases Nat.lt_trichotomy k k' with hlt | heq | hgt
    · by_cases hv : v = dflt k
      · have : k' ≠ k := by omega
        simp only [Tbl.put, hlt, hv, if_true, Tbl.get, if_neg this]
        exact Tbl.get_of_lt h.2 (by omega)
      · simp [Tbl.put, hlt, hv, Tbl.get]
    · subst heq
      by_cases hv : v = dflt k
      · simp only [Tbl.put, Nat.lt_irrefl, if_false, hv, if_true]
        exact Tbl.get_of_lt h.2 (by omega)
      · simp [Tbl.put, hv, Tbl.get]
    · have h1 : ¬ k < k' := by omega
      have h2 : k ≠ k' := by omega
      simp only [Tbl.put, if_neg h1, if_neg h2, Tbl.get, if_neg (Ne.symm h2)]
      exact Tbl.get_put_same k v h.2

/-- A write leaves every other key alone. -/
theorem Tbl.get_put_ne {d d' : α} {j k : Nat} (v : α) (h : j ≠ k) : ∀ t : Tbl α,
    Tbl.get d' (Tbl.put d k v t) j = Tbl.get d' t j
  | [] => by
    by_cases hv : v = d <;> simp [Tbl.put, Tbl.get, hv, h.symm]
  | (k', v') :: t => by
    simp only [Tbl.put]
    split
    · split <;> simp [Tbl.get, h.symm]
    · split
      · rename_i heq
        subst heq
        split <;> simp [Tbl.get, h.symm]
      · simp only [Tbl.get, Tbl.get_put_ne v h t]

/-- A canonical table is canonical above every lower bound. -/
theorem Tbl.wfFrom_mono {dflt : Nat → α} {lo lo' : Nat} : ∀ {t : Tbl α}, Tbl.wfFrom dflt lo t = true → lo' ≤ lo →
    Tbl.wfFrom dflt lo' t = true
  | [], _, _ => rfl
  | (k, v) :: t, h, hl => by
    simp only [Tbl.wfFrom, Bool.and_eq_true, decide_eq_true_eq] at h ⊢
    exact ⟨⟨by omega, h.1.2⟩, h.2⟩

/-- A write keeps the canonical form. -/
theorem Tbl.wfFrom_put {dflt : Nat → α} : ∀ {t : Tbl α} {lo k : Nat} (v : α), Tbl.wfFrom dflt lo t = true → lo ≤ k →
    Tbl.wfFrom dflt lo (Tbl.put (dflt k) k v t) = true
  | [], lo, k, v, _, hk => by
    by_cases hv : v = dflt k <;> simp [Tbl.put, Tbl.wfFrom, hv, hk]
  | (k', v') :: t, lo, k, v, h, hk => by
    simp only [Tbl.wfFrom, Bool.and_eq_true, decide_eq_true_eq] at h
    obtain ⟨⟨h1, h2⟩, h3⟩ := h
    simp only [Tbl.put]
    split
    · split
      · simp only [Tbl.wfFrom, Bool.and_eq_true, decide_eq_true_eq]
        exact ⟨⟨h1, h2⟩, h3⟩
      · simp only [Tbl.wfFrom, Bool.and_eq_true, decide_eq_true_eq]
        exact ⟨⟨hk, by assumption⟩, ⟨by omega, h2⟩, h3⟩
    · split
      · rename_i heq
        subst heq
        split
        · exact Tbl.wfFrom_mono h3 (by omega)
        · simp only [Tbl.wfFrom, Bool.and_eq_true, decide_eq_true_eq]
          exact ⟨⟨hk, by assumption⟩, h3⟩
      · simp only [Tbl.wfFrom, Bool.and_eq_true, decide_eq_true_eq]
        exact ⟨⟨h1, h2⟩, Tbl.wfFrom_put v h3 (by omega)⟩

theorem Tbl.wf_put {dflt : Nat → α} {t : Tbl α} (k : Nat) (v : α) (h : Tbl.wf dflt t = true) :
    Tbl.wf dflt (Tbl.put (dflt k) k v t) = true := Tbl.wfFrom_put v h (Nat.zero_le k)

/-- Dropping entries keeps the canonical form. -/
theorem Tbl.wfFrom_filter {dflt : Nat → α} (p : Nat × α → Bool) : ∀ {t : Tbl α} {lo : Nat}, Tbl.wfFrom dflt lo t = true →
    Tbl.wfFrom dflt lo (t.filter p) = true
  | [], _, _ => rfl
  | (k, v) :: t, lo, h => by
    simp only [Tbl.wfFrom, Bool.and_eq_true, decide_eq_true_eq] at h
    simp only [List.filter]
    split
    · simp only [Tbl.wfFrom, Bool.and_eq_true, decide_eq_true_eq]
      exact ⟨h.1, Tbl.wfFrom_filter p h.2⟩
    · exact Tbl.wfFrom_mono (Tbl.wfFrom_filter p h.2) (by omega)

theorem Tbl.wf_filter {dflt : Nat → α} {t : Tbl α} (p : Nat × α → Bool) (h : Tbl.wf dflt t = true) :
    Tbl.wf dflt (t.filter p) = true := Tbl.wfFrom_filter p h

/-- Changing every value keeps the canonical form. -/
theorem Tbl.wfFrom_mapVals {d : α} (g : α → α) : ∀ {t : Tbl α} {lo : Nat}, Tbl.wfFrom (fun _ => d) lo t = true →
    Tbl.wfFrom (fun _ => d) lo (Tbl.mapVals d g t) = true
  | [], _, _ => rfl
  | (k, v) :: t, lo, h => by
    simp only [Tbl.wfFrom, Bool.and_eq_true, decide_eq_true_eq] at h
    simp only [Tbl.mapVals]
    split
    · exact Tbl.wfFrom_mono (Tbl.wfFrom_mapVals g h.2) (by omega)
    · simp only [Tbl.wfFrom, Bool.and_eq_true, decide_eq_true_eq]
      exact ⟨⟨h.1.1, by assumption⟩, Tbl.wfFrom_mapVals g h.2⟩

theorem Tbl.wf_mapVals {d : α} {t : Tbl α} (g : α → α) (h : Tbl.wf (fun _ => d) t = true) :
    Tbl.wf (fun _ => d) (Tbl.mapVals d g t) = true := Tbl.wfFrom_mapVals g h

/-- What a read finds after a write to any key. -/
theorem Tbl.get_put {dflt : Nat → α} {t : Tbl α} (j k : Nat) (v : α) (h : Tbl.wf dflt t = true) :
    Tbl.get (dflt j) (Tbl.put (dflt k) k v t) j = if j = k then v else Tbl.get (dflt j) t j := by
  split
  · subst j
    exact Tbl.get_put_same k v h
  · exact Tbl.get_put_ne v (by assumption) t

end Sys2Proof.Machine
end

