-- ==== Sys2Proof/Laws/KeptBase.lean ====
section
/-!
SUPPORT. What every operation keeps: the queue, the fuses (`fusesKept`) and the canonical form of the tables. One lemma per
operation, `<operation>_kept`; this file holds the relation and the primitive updates.
-/

namespace Sys2Proof.Machine

/-- From `s0` to `s` the queue is the same, the fuses are kept, and canonical tables stay canonical. -/
structure Kept (s0 s : State) : Prop where
  canon : tablesCanonical s0 = true → tablesCanonical s = true
  fuse : fusesKept s0 s
  pending : s.pending = s0.pending

/-- An outcome that is a next state keeps what `Kept` says. -/
structure KeptO (s0 : State) (o : Host.Outcome State Fault Refusal) : Prop where
  out : ∀ t, o = .next t → Kept s0 t

theorem fusesKept_refl (s : State) : fusesKept s s :=
  ⟨rfl, rfl, rfl, rfl, fun _ h => h, fun _ h => h, List.prefix_refl _, List.prefix_refl _⟩

theorem fusesKept_trans {a b c : State} (h : fusesKept a b) (g : fusesKept b c) : fusesKept a c := by
  obtain ⟨h1, h2, h3, h4, h5, h6, h7, h8⟩ := h
  obtain ⟨g1, g2, g3, g4, g5, g6, g7, g8⟩ := g
  exact ⟨g1.trans h1, g2.trans h2, g3.trans h3, g4.trans h4, fun i h => g5 i (h5 i h), fun i h => g6 i (h6 i h),
    h7.trans g7, h8.trans g8⟩

theorem Kept.rfl {s : State} : Kept s s := ⟨id, fusesKept_refl s, Eq.refl _⟩

theorem Kept.trans {a b c : State} (h : Kept a b) (g : Kept b c) : Kept a c :=
  ⟨fun x => g.canon (h.canon x), fusesKept_trans h.fuse g.fuse, g.pending.trans h.pending⟩

/-- Fuses, queue and tables are the same. -/
theorem Kept.of_same {s0 s t : State} (h : Kept s0 s) (h1 : t.pending = s.pending) (h2 : t.fuse = s.fuse)
    (h3 : tablesCanonical s = true → tablesCanonical t = true) : Kept s0 t := by
  refine h.trans ⟨h3, ?_, h1⟩
  unfold fusesKept
  rw [h2]
  exact fusesKept_refl s

/-- An update of what is neither a table, the fuses nor the queue. -/
theorem kept_mk {s0 s : State} (h : Kept s0 s) {freeCtr' fab' clock' dev' prk' bt' clk' ring' entries' host' sel' sec' bist' sup'} :
    Kept s0 (State.mk s.regs s.cnt s.pending freeCtr' fab' clock' s.fuse dev' s.slots s.dies s.flows s.trunks s.lls s.sides s.spans s.links s.rx s.tx s.cks s.ckEnds s.coef s.adapt s.cal s.maps s.bobs prk' bt' s.plv clk' ring' entries' host' sel' sec' bist' s.prbs sup') :=
  h.of_same (Eq.refl _) (Eq.refl _) fun x => x

theorem kept_mk_iff {s0 s : State} {freeCtr' fab' clock' dev' prk' bt' clk' ring' entries' host' sel' sec' bist' sup'} :
    Kept s0 (State.mk s.regs s.cnt s.pending freeCtr' fab' clock' s.fuse dev' s.slots s.dies s.flows s.trunks s.lls s.sides s.spans s.links s.rx s.tx s.cks s.ckEnds s.coef s.adapt s.cal s.maps s.bobs prk' bt' s.plv clk' ring' entries' host' sel' sec' bist' s.prbs sup') ↔ Kept s0 s :=
  ⟨fun h => h.of_same (Eq.refl _) (Eq.refl _) fun x => x, fun h => kept_mk h⟩

theorem kept_ite {s0 a b : State} {c : Prop} [Decidable c] (ha : Kept s0 a) (hb : Kept s0 b) :
    Kept s0 (if c then a else b) := by
  split
  · exact ha
  · exact hb

theorem kept_ite2 {α : Type} {s0 : State} {a b : α × State} {c : Prop} [Decidable c] (ha : Kept s0 a.2) (hb : Kept s0 b.2) :
    Kept s0 (if c then a else b).2 := by
  split
  · exact ha
  · exact hb

theorem kept_ite3 {α β : Type} {s0 : State} {a b : α × β × State} {c : Prop} [Decidable c] (ha : Kept s0 a.2.2)
    (hb : Kept s0 b.2.2) : Kept s0 (if c then a else b).2.2 := by
  split
  · exact ha
  · exact hb

theorem kept_pair {α : Type} {s0 s : State} {p : α × State} {a : α} (e : p = (a, s)) (h : Kept s0 p.2) : Kept s0 s := by
  subst e
  exact h

theorem kept_triple {α β : Type} {s0 s : State} {p : α × β × State} {a : α} {b : β} (e : p = (a, b, s))
    (h : Kept s0 p.2.2) : Kept s0 s := by
  subst e
  exact h

/-- What an optional result with a state keeps. -/
structure KeptOpt {α : Type} (s0 : State) (o : Option (α × State)) : Prop where
  out : ∀ x t, o = some (x, t) → Kept s0 t

theorem keptOpt_none {α : Type} {s0 : State} : KeptOpt (α := α) s0 none := ⟨fun _ _ h => nomatch h⟩
theorem keptOpt_some {α : Type} {s0 s : State} {a : α} (h : Kept s0 s) : KeptOpt s0 (some (a, s)) := by
  refine ⟨fun x t e => ?_⟩
  cases e
  exact h
theorem keptOpt_someP {α : Type} {s0 : State} {p : α × State} (h : Kept s0 p.2) : KeptOpt s0 (some p) := by
  refine ⟨fun x t e => ?_⟩
  cases e
  exact h
theorem keptOpt_ite {α : Type} {s0 : State} {a b : Option (α × State)} {c : Prop} [Decidable c] (ha : KeptOpt s0 a)
    (hb : KeptOpt s0 b) : KeptOpt s0 (if c then a else b) := by
  split
  · exact ha
  · exact hb
theorem kept_opt {α : Type} {s0 s : State} {p : Option (α × State)} {a : α} (e : p = some (a, s)) (h : KeptOpt s0 p) :
    Kept s0 s := h.out _ _ e
theorem kept_opt_fst {α : Type} {s0 : State} {p : Option (α × State)} {a : α × State} (e : p = some a) (h : KeptOpt s0 p) :
    Kept s0 a.2 := h.out a.1 a.2 e

theorem kept_foldl {α : Type} {s0 : State} {f : State → α → State} (hf : ∀ s a, Kept s0 s → Kept s0 (f s a)) :
    ∀ (l : List α) {s : State}, Kept s0 s → Kept s0 (l.foldl f s)
  | [], _, h => h
  | a :: l, _, h => kept_foldl hf l (hf _ a h)

/-- A fold that carries a value beside the state. -/
theorem kept_foldl2 {α β : Type} {s0 : State} {f : β × State → α → β × State}
    (hf : ∀ p a, Kept s0 p.2 → Kept s0 (f p a).2) : ∀ (l : List α) {p : β × State}, Kept s0 p.2 → Kept s0 (l.foldl f p).2
  | [], _, h => h
  | a :: l, _, h => kept_foldl2 hf l (hf _ a h)

theorem kept_foldl1 {α β : Type} {s0 : State} {f : State × β → α → State × β}
    (hf : ∀ p a, Kept s0 p.1 → Kept s0 (f p a).1) : ∀ (l : List α) {p : State × β}, Kept s0 p.1 → Kept s0 (l.foldl f p).1
  | [], _, h => h
  | a :: l, _, h => kept_foldl1 hf l (hf _ a h)

theorem keptO_next {s0 t : State} (h : Kept s0 t) : KeptO s0 (.next t) := by
  refine ⟨fun u e => ?_⟩
  cases e
  exact h
theorem keptO_fault {s0 : State} {r : Fault} : KeptO s0 (.fault r) := ⟨fun _ e => nomatch e⟩
theorem keptO_ite {s0 : State} {a b : Host.Outcome State Fault Refusal} {c : Prop} [Decidable c] (ha : KeptO s0 a)
    (hb : KeptO s0 b) : KeptO s0 (if c then a else b) := by
  split
  · exact ha
  · exact hb
/-- What an optional operation keeps. -/
structure KeptOp (s0 : State) (o : Option (State → Host.Outcome State Fault Refusal)) : Prop where
  out : ∀ f, o = some f → ∀ s, Kept s0 s → KeptO s0 (f s)

theorem keptOp_none {s0 : State} : KeptOp s0 none := ⟨fun _ h => nomatch h⟩
theorem keptOp_some {s0 : State} {f : State → Host.Outcome State Fault Refusal} (h : ∀ s, Kept s0 s → KeptO s0 (f s)) :
    KeptOp s0 (some f) := by
  refine ⟨fun g e => ?_⟩
  cases e
  exact h
theorem keptOp_ite {s0 : State} {a b : Option (State → Host.Outcome State Fault Refusal)} {c : Prop} [Decidable c]
    (ha : KeptOp s0 a) (hb : KeptOp s0 b) : KeptOp s0 (if c then a else b) := by
  split
  · exact ha
  · exact hb
theorem onUnit_kept {s0 t : State} {p : Bool} (h : Kept s0 t) : KeptO s0 (onUnit p t) := by
  unfold onUnit
  split
  · exact keptO_next h
  · exact keptO_fault

/-! ## The tables -/

theorem tablesCanonical_iff (s : State) : tablesCanonical s = true ↔
    Tbl.wf resetOf s.regs = true ∧ Tbl.wf (fun _ => 0) s.cnt = true ∧ Tbl.wf (fun _ => ({} : Slot)) s.slots = true ∧
    Tbl.wf (fun _ => ({} : DieBuf)) s.dies = true ∧
    Tbl.wf (fun _ => ({} : Flow)) s.flows = true ∧
    Tbl.wf (fun _ => ({} : TrunkSt)) s.trunks = true ∧
    Tbl.wf (fun _ => ({} : LlSt)) s.lls = true ∧
    Tbl.wf (fun _ => ({} : SideSt)) s.sides = true ∧
    Tbl.wf (fun _ => ({} : SpanSt)) s.spans = true ∧
    Tbl.wf (fun _ => ({} : LinkSt)) s.links = true ∧
    Tbl.wf (fun _ => ({} : RxSt)) s.rx = true ∧
    Tbl.wf (fun _ => ({} : TxSt)) s.tx = true ∧
    Tbl.wf (fun _ => ({} : CkSt)) s.cks = true ∧
    Tbl.wf (fun _ => ({} : CkEnd)) s.ckEnds = true ∧
    Tbl.wf (fun _ => ({} : Coef)) s.coef = true ∧
    Tbl.wf (fun _ => ({} : AdaptSt)) s.adapt = true ∧
    Tbl.wf (fun _ => ({} : CalSeq)) s.cal = true ∧
    Tbl.wf (fun _ => ({} : MapSt)) s.maps = true ∧
    Tbl.wf (fun _ => ({} : BobSt)) s.bobs = true ∧
    Tbl.wf (fun _ => ({} : PlSt)) s.plv = true ∧
    Tbl.wf (fun _ => ({} : PrbsSt)) s.prbs = true := by
  simp only [tablesCanonical, Bool.and_eq_true, and_assoc]

theorem kept_regs {s0 s : State} (h : Kept s0 s) {r : Tbl Nat} (hr : Tbl.wf resetOf s.regs = true → Tbl.wf resetOf r = true) :
    Kept s0 { s with regs := r } := by
  refine h.of_same (Eq.refl _) (Eq.refl _) ?_
  simp only [tablesCanonical_iff]
  exact fun x => ⟨hr x.1, x.2⟩

theorem kept_cnt {s0 s : State} (h : Kept s0 s) {r : Tbl Nat} (hr : Tbl.wf (fun _ => 0) s.cnt = true → Tbl.wf (fun _ => 0) r = true) :
    Kept s0 { s with cnt := r } := by
  refine h.of_same (Eq.refl _) (Eq.refl _) ?_
  simp only [tablesCanonical_iff]
  exact fun x => ⟨x.1, hr x.2.1, x.2.2⟩

theorem kept_slots {s0 s : State} (h : Kept s0 s) {r : Tbl Slot}
    (hr : Tbl.wf (fun _ => ({} : Slot)) s.slots = true → Tbl.wf (fun _ => ({} : Slot)) r = true) : Kept s0 { s with slots := r } := by
  refine h.of_same (Eq.refl _) (Eq.refl _) ?_
  simp only [tablesCanonical_iff]
  intro x
  simp only [x, hr, and_self]

theorem kept_put_slots {s0 s : State} (h : Kept s0 s) {k : Nat} {v : Slot} :
    Kept s0 { s with slots := Tbl.put ({} : Slot) k v s.slots } :=
  kept_slots h fun x => Tbl.wf_put (dflt := fun _ => ({} : Slot)) k v x

theorem kept_dies {s0 s : State} (h : Kept s0 s) {r : Tbl DieBuf}
    (hr : Tbl.wf (fun _ => ({} : DieBuf)) s.dies = true → Tbl.wf (fun _ => ({} : DieBuf)) r = true) : Kept s0 { s with dies := r } := by
  refine h.of_same (Eq.refl _) (Eq.refl _) ?_
  simp only [tablesCanonical_iff]
  intro x
  simp only [x, hr, and_self]

theorem kept_put_dies {s0 s : State} (h : Kept s0 s) {k : Nat} {v : DieBuf} :
    Kept s0 { s with dies := Tbl.put ({} : DieBuf) k v s.dies } :=
  kept_dies h fun x => Tbl.wf_put (dflt := fun _ => ({} : DieBuf)) k v x

theorem kept_flows {s0 s : State} (h : Kept s0 s) {r : Tbl Flow}
    (hr : Tbl.wf (fun _ => ({} : Flow)) s.flows = true → Tbl.wf (fun _ => ({} : Flow)) r = true) : Kept s0 { s with flows := r } := by
  refine h.of_same (Eq.refl _) (Eq.refl _) ?_
  simp only [tablesCanonical_iff]
  intro x
  simp only [x, hr, and_self]

theorem kept_put_flows {s0 s : State} (h : Kept s0 s) {k : Nat} {v : Flow} :
    Kept s0 { s with flows := Tbl.put ({} : Flow) k v s.flows } :=
  kept_flows h fun x => Tbl.wf_put (dflt := fun _ => ({} : Flow)) k v x

theorem kept_trunks {s0 s : State} (h : Kept s0 s) {r : Tbl TrunkSt}
    (hr : Tbl.wf (fun _ => ({} : TrunkSt)) s.trunks = true → Tbl.wf (fun _ => ({} : TrunkSt)) r = true) : Kept s0 { s with trunks := r } := by
  refine h.of_same (Eq.refl _) (Eq.refl _) ?_
  simp only [tablesCanonical_iff]
  intro x
  simp only [x, hr, and_self]

theorem kept_put_trunks {s0 s : State} (h : Kept s0 s) {k : Nat} {v : TrunkSt} :
    Kept s0 { s with trunks := Tbl.put ({} : TrunkSt) k v s.trunks } :=
  kept_trunks h fun x => Tbl.wf_put (dflt := fun _ => ({} : TrunkSt)) k v x

theorem kept_lls {s0 s : State} (h : Kept s0 s) {r : Tbl LlSt}
    (hr : Tbl.wf (fun _ => ({} : LlSt)) s.lls = true → Tbl.wf (fun _ => ({} : LlSt)) r = true) : Kept s0 { s with lls := r } := by
  refine h.of_same (Eq.refl _) (Eq.refl _) ?_
  simp only [tablesCanonical_iff]
  intro x
  simp only [x, hr, and_self]

theorem kept_put_lls {s0 s : State} (h : Kept s0 s) {k : Nat} {v : LlSt} :
    Kept s0 { s with lls := Tbl.put ({} : LlSt) k v s.lls } :=
  kept_lls h fun x => Tbl.wf_put (dflt := fun _ => ({} : LlSt)) k v x

theorem kept_sides {s0 s : State} (h : Kept s0 s) {r : Tbl SideSt}
    (hr : Tbl.wf (fun _ => ({} : SideSt)) s.sides = true → Tbl.wf (fun _ => ({} : SideSt)) r = true) : Kept s0 { s with sides := r } := by
  refine h.of_same (Eq.refl _) (Eq.refl _) ?_
  simp only [tablesCanonical_iff]
  intro x
  simp only [x, hr, and_self]

theorem kept_put_sides {s0 s : State} (h : Kept s0 s) {k : Nat} {v : SideSt} :
    Kept s0 { s with sides := Tbl.put ({} : SideSt) k v s.sides } :=
  kept_sides h fun x => Tbl.wf_put (dflt := fun _ => ({} : SideSt)) k v x

theorem kept_spans {s0 s : State} (h : Kept s0 s) {r : Tbl SpanSt}
    (hr : Tbl.wf (fun _ => ({} : SpanSt)) s.spans = true → Tbl.wf (fun _ => ({} : SpanSt)) r = true) : Kept s0 { s with spans := r } := by
  refine h.of_same (Eq.refl _) (Eq.refl _) ?_
  simp only [tablesCanonical_iff]
  intro x
  simp only [x, hr, and_self]

theorem kept_put_spans {s0 s : State} (h : Kept s0 s) {k : Nat} {v : SpanSt} :
    Kept s0 { s with spans := Tbl.put ({} : SpanSt) k v s.spans } :=
  kept_spans h fun x => Tbl.wf_put (dflt := fun _ => ({} : SpanSt)) k v x

theorem kept_links {s0 s : State} (h : Kept s0 s) {r : Tbl LinkSt}
    (hr : Tbl.wf (fun _ => ({} : LinkSt)) s.links = true → Tbl.wf (fun _ => ({} : LinkSt)) r = true) : Kept s0 { s with links := r } := by
  refine h.of_same (Eq.refl _) (Eq.refl _) ?_
  simp only [tablesCanonical_iff]
  intro x
  simp only [x, hr, and_self]

theorem kept_put_links {s0 s : State} (h : Kept s0 s) {k : Nat} {v : LinkSt} :
    Kept s0 { s with links := Tbl.put ({} : LinkSt) k v s.links } :=
  kept_links h fun x => Tbl.wf_put (dflt := fun _ => ({} : LinkSt)) k v x

theorem kept_rx {s0 s : State} (h : Kept s0 s) {r : Tbl RxSt}
    (hr : Tbl.wf (fun _ => ({} : RxSt)) s.rx = true → Tbl.wf (fun _ => ({} : RxSt)) r = true) : Kept s0 { s with rx := r } := by
  refine h.of_same (Eq.refl _) (Eq.refl _) ?_
  simp only [tablesCanonical_iff]
  intro x
  simp only [x, hr, and_self]

theorem kept_put_rx {s0 s : State} (h : Kept s0 s) {k : Nat} {v : RxSt} :
    Kept s0 { s with rx := Tbl.put ({} : RxSt) k v s.rx } :=
  kept_rx h fun x => Tbl.wf_put (dflt := fun _ => ({} : RxSt)) k v x

theorem kept_tx {s0 s : State} (h : Kept s0 s) {r : Tbl TxSt}
    (hr : Tbl.wf (fun _ => ({} : TxSt)) s.tx = true → Tbl.wf (fun _ => ({} : TxSt)) r = true) : Kept s0 { s with tx := r } := by
  refine h.of_same (Eq.refl _) (Eq.refl _) ?_
  simp only [tablesCanonical_iff]
  intro x
  simp only [x, hr, and_self]

theorem kept_put_tx {s0 s : State} (h : Kept s0 s) {k : Nat} {v : TxSt} :
    Kept s0 { s with tx := Tbl.put ({} : TxSt) k v s.tx } :=
  kept_tx h fun x => Tbl.wf_put (dflt := fun _ => ({} : TxSt)) k v x

theorem kept_cks {s0 s : State} (h : Kept s0 s) {r : Tbl CkSt}
    (hr : Tbl.wf (fun _ => ({} : CkSt)) s.cks = true → Tbl.wf (fun _ => ({} : CkSt)) r = true) : Kept s0 { s with cks := r } := by
  refine h.of_same (Eq.refl _) (Eq.refl _) ?_
  simp only [tablesCanonical_iff]
  intro x
  simp only [x, hr, and_self]

theorem kept_put_cks {s0 s : State} (h : Kept s0 s) {k : Nat} {v : CkSt} :
    Kept s0 { s with cks := Tbl.put ({} : CkSt) k v s.cks } :=
  kept_cks h fun x => Tbl.wf_put (dflt := fun _ => ({} : CkSt)) k v x

theorem kept_ckEnds {s0 s : State} (h : Kept s0 s) {r : Tbl CkEnd}
    (hr : Tbl.wf (fun _ => ({} : CkEnd)) s.ckEnds = true → Tbl.wf (fun _ => ({} : CkEnd)) r = true) : Kept s0 { s with ckEnds := r } := by
  refine h.of_same (Eq.refl _) (Eq.refl _) ?_
  simp only [tablesCanonical_iff]
  intro x
  simp only [x, hr, and_self]

theorem kept_put_ckEnds {s0 s : State} (h : Kept s0 s) {k : Nat} {v : CkEnd} :
    Kept s0 { s with ckEnds := Tbl.put ({} : CkEnd) k v s.ckEnds } :=
  kept_ckEnds h fun x => Tbl.wf_put (dflt := fun _ => ({} : CkEnd)) k v x

theorem kept_coef {s0 s : State} (h : Kept s0 s) {r : Tbl Coef}
    (hr : Tbl.wf (fun _ => ({} : Coef)) s.coef = true → Tbl.wf (fun _ => ({} : Coef)) r = true) : Kept s0 { s with coef := r } := by
  refine h.of_same (Eq.refl _) (Eq.refl _) ?_
  simp only [tablesCanonical_iff]
  intro x
  simp only [x, hr, and_self]

theorem kept_put_coef {s0 s : State} (h : Kept s0 s) {k : Nat} {v : Coef} :
    Kept s0 { s with coef := Tbl.put ({} : Coef) k v s.coef } :=
  kept_coef h fun x => Tbl.wf_put (dflt := fun _ => ({} : Coef)) k v x

theorem kept_adapt {s0 s : State} (h : Kept s0 s) {r : Tbl AdaptSt}
    (hr : Tbl.wf (fun _ => ({} : AdaptSt)) s.adapt = true → Tbl.wf (fun _ => ({} : AdaptSt)) r = true) : Kept s0 { s with adapt := r } := by
  refine h.of_same (Eq.refl _) (Eq.refl _) ?_
  simp only [tablesCanonical_iff]
  intro x
  simp only [x, hr, and_self]

theorem kept_put_adapt {s0 s : State} (h : Kept s0 s) {k : Nat} {v : AdaptSt} :
    Kept s0 { s with adapt := Tbl.put ({} : AdaptSt) k v s.adapt } :=
  kept_adapt h fun x => Tbl.wf_put (dflt := fun _ => ({} : AdaptSt)) k v x

theorem kept_cal {s0 s : State} (h : Kept s0 s) {r : Tbl CalSeq}
    (hr : Tbl.wf (fun _ => ({} : CalSeq)) s.cal = true → Tbl.wf (fun _ => ({} : CalSeq)) r = true) : Kept s0 { s with cal := r } := by
  refine h.of_same (Eq.refl _) (Eq.refl _) ?_
  simp only [tablesCanonical_iff]
  intro x
  simp only [x, hr, and_self]

theorem kept_put_cal {s0 s : State} (h : Kept s0 s) {k : Nat} {v : CalSeq} :
    Kept s0 { s with cal := Tbl.put ({} : CalSeq) k v s.cal } :=
  kept_cal h fun x => Tbl.wf_put (dflt := fun _ => ({} : CalSeq)) k v x

theorem kept_maps {s0 s : State} (h : Kept s0 s) {r : Tbl MapSt}
    (hr : Tbl.wf (fun _ => ({} : MapSt)) s.maps = true → Tbl.wf (fun _ => ({} : MapSt)) r = true) : Kept s0 { s with maps := r } := by
  refine h.of_same (Eq.refl _) (Eq.refl _) ?_
  simp only [tablesCanonical_iff]
  intro x
  simp only [x, hr, and_self]

theorem kept_put_maps {s0 s : State} (h : Kept s0 s) {k : Nat} {v : MapSt} :
    Kept s0 { s with maps := Tbl.put ({} : MapSt) k v s.maps } :=
  kept_maps h fun x => Tbl.wf_put (dflt := fun _ => ({} : MapSt)) k v x

theorem kept_bobs {s0 s : State} (h : Kept s0 s) {r : Tbl BobSt}
    (hr : Tbl.wf (fun _ => ({} : BobSt)) s.bobs = true → Tbl.wf (fun _ => ({} : BobSt)) r = true) : Kept s0 { s with bobs := r } := by
  refine h.of_same (Eq.refl _) (Eq.refl _) ?_
  simp only [tablesCanonical_iff]
  intro x
  simp only [x, hr, and_self]

theorem kept_put_bobs {s0 s : State} (h : Kept s0 s) {k : Nat} {v : BobSt} :
    Kept s0 { s with bobs := Tbl.put ({} : BobSt) k v s.bobs } :=
  kept_bobs h fun x => Tbl.wf_put (dflt := fun _ => ({} : BobSt)) k v x

theorem kept_plv {s0 s : State} (h : Kept s0 s) {r : Tbl PlSt}
    (hr : Tbl.wf (fun _ => ({} : PlSt)) s.plv = true → Tbl.wf (fun _ => ({} : PlSt)) r = true) : Kept s0 { s with plv := r } := by
  refine h.of_same (Eq.refl _) (Eq.refl _) ?_
  simp only [tablesCanonical_iff]
  intro x
  simp only [x, hr, and_self]

theorem kept_put_plv {s0 s : State} (h : Kept s0 s) {k : Nat} {v : PlSt} :
    Kept s0 { s with plv := Tbl.put ({} : PlSt) k v s.plv } :=
  kept_plv h fun x => Tbl.wf_put (dflt := fun _ => ({} : PlSt)) k v x

theorem kept_prbs {s0 s : State} (h : Kept s0 s) {r : Tbl PrbsSt}
    (hr : Tbl.wf (fun _ => ({} : PrbsSt)) s.prbs = true → Tbl.wf (fun _ => ({} : PrbsSt)) r = true) : Kept s0 { s with prbs := r } := by
  refine h.of_same (Eq.refl _) (Eq.refl _) ?_
  simp only [tablesCanonical_iff]
  intro x
  simp only [x, hr, and_self]

theorem kept_put_prbs {s0 s : State} (h : Kept s0 s) {k : Nat} {v : PrbsSt} :
    Kept s0 { s with prbs := Tbl.put ({} : PrbsSt) k v s.prbs } :=
  kept_prbs h fun x => Tbl.wf_put (dflt := fun _ => ({} : PrbsSt)) k v x

/-- A bit that is set stays set in an or. -/
theorem bit_or_left {v w i : Nat} (h : bit v i = true) : bit (v ||| w) i = true := by
  have e : ∀ n, bit n i = n.testBit i := fun n => by
    simp [bit, Nat.testBit_eq_decide_div_mod_eq]
  rw [e] at h ⊢
  simp [Nat.testBit_or, h]

/-- The selvedge channel is neither a table nor a fuse. -/
theorem kept_sel {s0 s : State} (h : Kept s0 s) {v : SelSt} : Kept s0 { s with sel := v } := kept_mk h

/-! ## Registers and live counts -/

theorem wr_kept {s0 s : State} (h : Kept s0 s) {f : Fld} {v : Nat} : Kept s0 (s.wr f v) :=
  kept_regs h fun x => Tbl.wf_put f.key _ x
theorem unset_kept {s0 s : State} (h : Kept s0 s) {f : Fld} : Kept s0 (s.unset f) :=
  kept_regs h fun x => Tbl.wf_put f.key _ x
theorem putLive_kept {s0 s : State} (h : Kept s0 s) {f : Fld} {v : Nat} : Kept s0 (s.putLive f v) :=
  kept_cnt h fun x => Tbl.wf_put (dflt := fun _ => 0) f.key _ x

end Sys2Proof.Machine
end

