-- ==== Sys2Proof/Laws/KeptOps.lean ====
section
/-! SUPPORT. What the operations of Machine/Ops.lean keep (`Kept`). -/

namespace Sys2Proof.Machine

theorem wrB_kept {s0 : State} {s : State} {f : Fld} {b : Bool} (hs : Kept s0 s) :
    Kept s0 (State.wrB s f b) := by
  unfold State.wrB
  try dsimp only
  repeat' first
    | with_reducible first
      | assumption | apply wr_kept

theorem bump_kept {s0 : State} {s : State} {f : Fld} (hs : Kept s0 s) :
    Kept s0 (State.bump s f) := by
  unfold State.bump
  try dsimp only
  repeat' first
    | with_reducible first
      | assumption | apply wr_kept | apply kept_ite

theorem bumpBy_kept {s0 : State} {s : State} {f : Fld} {n : Nat} (hs : Kept s0 s) :
    Kept s0 (State.bumpBy s f n) := by
  unfold State.bumpBy
  try dsimp only
  repeat' first
    | with_reducible first
      | assumption | apply wr_kept

theorem bumpWrap_kept {s0 : State} {s : State} {f : Fld} (hs : Kept s0 s) :
    Kept s0 (State.bumpWrap s f) := by
  unfold State.bumpWrap
  try dsimp only
  repeat' first
    | with_reducible first
      | assumption | apply wr_kept

theorem count_kept {s0 : State} {s : State} {f : Fld} (hs : Kept s0 s) :
    Kept s0 (State.count s f) := by
  unfold State.count
  try dsimp only
  repeat' first
    | with_reducible first
      | assumption | apply putLive_kept | apply kept_ite

theorem countBy_kept {s0 : State} {s : State} {f : Fld} {n : Nat} (hs : Kept s0 s) :
    Kept s0 (State.countBy s f n) := by
  unfold State.countBy
  try dsimp only
  repeat' first
    | with_reducible first
      | assumption | apply putLive_kept

theorem count64_kept {s0 : State} {s : State} {lo : Fld} (hs : Kept s0 s) :
    Kept s0 (State.count64 s lo) := by
  unfold State.count64
  try dsimp only
  repeat' first
    | with_reducible first
      | assumption | apply putLive_kept | apply kept_ite

theorem latch_kept {s0 : State} {s : State} {f : Fld} (hs : Kept s0 s) :
    Kept s0 (State.latch s f) := by
  unfold State.latch
  try dsimp only
  repeat' first
    | with_reducible first
      | assumption | apply wr_kept

theorem latch64_kept {s0 : State} {s : State} {p : Fld × Fld} (hs : Kept s0 s) :
    Kept s0 (State.latch64 s p) := by
  unfold State.latch64
  try dsimp only
  repeat' first
    | with_reducible first
      | assumption | apply wr_kept

theorem latchAll_kept {s0 : State} {fs : List Fld} {s : State} (hs : Kept s0 s) :
    Kept s0 (State.latchAll fs s) := by
  unfold State.latchAll
  try dsimp only
  repeat' first
    | intro _
    | with_reducible first
      | assumption | apply latch_kept | apply kept_foldl

theorem latchAll64_kept {s0 : State} {ps : List (Fld × Fld)} {s : State} (hs : Kept s0 s) :
    Kept s0 (State.latchAll64 ps s) := by
  unfold State.latchAll64
  try dsimp only
  repeat' first
    | intro _
    | with_reducible first
      | assumption | apply latch64_kept | apply kept_foldl

theorem zeroLive_kept {s0 : State} {fs : List Fld} {s : State} (hs : Kept s0 s) :
    Kept s0 (State.zeroLive fs s) := by
  unfold State.zeroLive
  try dsimp only
  repeat' first
    | intro _
    | with_reducible first
      | assumption | apply putLive_kept | apply kept_foldl

theorem zeroRegs_kept {s0 : State} {fs : List Fld} {s : State} (hs : Kept s0 s) :
    Kept s0 (State.zeroRegs fs s) := by
  unfold State.zeroRegs
  try dsimp only
  repeat' first
    | intro _
    | with_reducible first
      | assumption | apply wr_kept | apply kept_foldl

theorem setPend_kept {s0 : State} {s : State} {src : Nat} (hs : Kept s0 s) :
    Kept s0 (State.setPend s src) := by
  unfold State.setPend
  try dsimp only
  repeat' first
    | with_reducible first
      | assumption | apply wr_kept

theorem srcEvent_kept {s0 : State} {s : State} {src : Nat} (hs : Kept s0 s) :
    Kept s0 (State.srcEvent s src) := by
  unfold State.srcEvent
  try dsimp only
  repeat' first
    | with_reducible first
      | assumption | apply bump_kept | apply setPend_kept

theorem raise_kept {s0 : State} {s : State} {src : Nat} (hs : Kept s0 s) :
    Kept s0 (State.raise s src) := by
  unfold State.raise
  try dsimp only
  repeat' first
    | with_reducible first
      | assumption | apply srcEvent_kept | apply kept_ite

theorem setInput_kept {s0 : State} {s : State} {src : Nat} {v : Bool} (hs : Kept s0 s) :
    Kept s0 (State.setInput s src v) := by
  unfold State.setInput
  try dsimp only
  repeat' first
    | with_reducible first
      | assumption | apply wrB_kept | apply setPend_kept | apply srcEvent_kept | apply kept_ite
    | simp only [kept_mk_iff]
    | split
    | with_reducible first
      | (apply kept_pair; assumption) | (apply kept_opt; assumption) | (apply kept_triple; assumption)

theorem relevel_kept {s0 : State} {s : State} {src : Nat} (hs : Kept s0 s) :
    Kept s0 (State.relevel s src) := by
  unfold State.relevel
  try dsimp only
  repeat' first
    | with_reducible first
      | assumption | apply setPend_kept | apply kept_ite

theorem wireFault_kept {s0 : State} {kind : Nat} {side : Nat} {index : Nat} {s : State} (hs : Kept s0 s) :
    Kept s0 (wireFault kind side index s) := by
  unfold wireFault
  try dsimp only
  repeat' first
    | with_reducible first
      | assumption | apply wr_kept | apply bump_kept

theorem wired_kept {s0 : State} {s : State} {kind : Nat} {side : Nat} {index : Nat} {src : Nat} (hs : Kept s0 s) :
    Kept s0 (State.wired s kind side index src) := by
  unfold State.wired
  try dsimp only
  repeat' first
    | with_reducible first
      | assumption | apply raise_kept | apply wireFault_kept

theorem syncEvents_kept {s0 : State} {s : State} {d : Nat} (hs : Kept s0 s) :
    Kept s0 (State.syncEvents s d) := by
  unfold State.syncEvents
  try dsimp only
  repeat' first
    | with_reducible first
      | assumption | apply setInput_kept

theorem rgnEvent_kept {s0 : State} {s : State} {r : Nat} {k : Nat} (hs : Kept s0 s) :
    Kept s0 (State.rgnEvent s r k) := by
  unfold State.rgnEvent
  try dsimp only
  repeat' first
    | with_reducible first
      | assumption | apply wr_kept | apply syncEvents_kept

theorem dieEvent_kept {s0 : State} {s : State} {d : Nat} {k : Nat} (hs : Kept s0 s) :
    Kept s0 (State.dieEvent s d k) := by
  unfold State.dieEvent
  try dsimp only
  repeat' first
    | with_reducible first
      | assumption | apply wr_kept | apply syncEvents_kept

theorem draw_kept {s0 : State} {s : State} (hs : Kept s0 s) :
    Kept s0 (State.draw s).2 := by
  unfold State.draw
  try dsimp only
  repeat' first
    | with_reducible first
      | assumption
    | simp only [kept_mk_iff]

end Sys2Proof.Machine
end

