-- ==== Sys2Proof/Laws/KeptOperands.lean ====
section
/-! SUPPORT. What the operations of Machine/Operands.lean keep (`Kept`). -/

namespace Sys2Proof.Machine

theorem putMap_kept {s0 : State} {s : State} {e : Nat} {v : MapSt} (hs : Kept s0 s) :
    Kept s0 (State.putMap s e v) := by
  unfold State.putMap
  try dsimp only
  repeat' first
    | with_reducible first
      | assumption | apply kept_put_maps
    | simp only [kept_mk_iff]

theorem putBob_kept {s0 : State} {s : State} {c : Nat} {v : BobSt} (hs : Kept s0 s) :
    Kept s0 (State.putBob s c v) := by
  unfold State.putBob
  try dsimp only
  repeat' first
    | with_reducible first
      | assumption | apply kept_put_bobs
    | simp only [kept_mk_iff]

theorem putSpan_kept {s0 : State} {s : State} {k : Nat} {sd : Side} {v : SpanSt} (hs : Kept s0 s) :
    Kept s0 (State.putSpan s k sd v) := by
  unfold State.putSpan
  try dsimp only
  repeat' first
    | with_reducible first
      | assumption | apply kept_put_spans
    | simp only [kept_mk_iff]

theorem putSide_kept {s0 : State} {s : State} {k : Nat} {sd : Side} {v : SideSt} (hs : Kept s0 s) :
    Kept s0 (State.putSide s k sd v) := by
  unfold State.putSide
  try dsimp only
  repeat' first
    | with_reducible first
      | assumption | apply kept_put_sides
    | simp only [kept_mk_iff]

theorem putLink_kept {s0 : State} {s : State} {k : Nat} {v : LinkSt} (hs : Kept s0 s) :
    Kept s0 (State.putLink s k v) := by
  unfold State.putLink
  try dsimp only
  repeat' first
    | with_reducible first
      | assumption | apply kept_put_links
    | simp only [kept_mk_iff]

theorem putRx_kept {s0 : State} {s : State} {n : Nat} {sd : Side} {v : RxSt} (hs : Kept s0 s) :
    Kept s0 (State.putRx s n sd v) := by
  unfold State.putRx
  try dsimp only
  repeat' first
    | with_reducible first
      | assumption | apply kept_put_rx
    | simp only [kept_mk_iff]

theorem putTx_kept {s0 : State} {s : State} {n : Nat} {sd : Side} {v : TxSt} (hs : Kept s0 s) :
    Kept s0 (State.putTx s n sd v) := by
  unfold State.putTx
  try dsimp only
  repeat' first
    | with_reducible first
      | assumption | apply kept_put_tx
    | simp only [kept_mk_iff]

theorem putCk_kept {s0 : State} {s : State} {c : Nat} {d : Dir} {v : CkSt} (hs : Kept s0 s) :
    Kept s0 (State.putCk s c d v) := by
  unfold State.putCk
  try dsimp only
  repeat' first
    | with_reducible first
      | assumption | apply kept_put_cks
    | simp only [kept_mk_iff]

theorem putCkEntry_kept {s0 : State} {s : State} {c : Nat} {d : Dir} {v : CkEnd} (hs : Kept s0 s) :
    Kept s0 (State.putCkEntry s c d v) := by
  unfold State.putCkEntry
  try dsimp only
  repeat' first
    | with_reducible first
      | assumption | apply kept_put_ckEnds
    | simp only [kept_mk_iff]

theorem putCkExit_kept {s0 : State} {s : State} {c : Nat} {d : Dir} {v : CkEnd} (hs : Kept s0 s) :
    Kept s0 (State.putCkExit s c d v) := by
  unfold State.putCkExit
  try dsimp only
  repeat' first
    | with_reducible first
      | assumption | apply kept_put_ckEnds
    | simp only [kept_mk_iff]

theorem txRest_kept {s0 : State} {s : State} {n : Nat} {sd : Side} (hs : Kept s0 s) :
    Kept s0 (State.txRest s n sd) := by
  unfold State.txRest
  try dsimp only
  repeat' first
    | with_reducible first
      | assumption | apply putTx_kept
    | simp only [kept_mk_iff]

theorem putLl_kept {s0 : State} {s : State} {l : Nat} {v : LlSt} (hs : Kept s0 s) :
    Kept s0 (State.putLl s l v) := by
  unfold State.putLl
  try dsimp only
  repeat' first
    | with_reducible first
      | assumption | apply kept_put_lls
    | simp only [kept_mk_iff]

theorem putTrunk_kept {s0 : State} {s : State} {t : Nat} {v : TrunkSt} (hs : Kept s0 s) :
    Kept s0 (State.putTrunk s t v) := by
  unfold State.putTrunk
  try dsimp only
  repeat' first
    | with_reducible first
      | assumption | apply kept_put_trunks
    | simp only [kept_mk_iff]

theorem putFlow_kept {s0 : State} {s : State} {f : Nat} {v : Flow} (hs : Kept s0 s) :
    Kept s0 (State.putFlow s f v) := by
  unfold State.putFlow
  try dsimp only
  repeat' first
    | with_reducible first
      | assumption | apply kept_put_flows
    | simp only [kept_mk_iff]

end Sys2Proof.Machine
end

