-- ==== Sys2Proof/Laws/KeptFlags.lean ====
section
/-! SUPPORT. What the operations of Machine/Flags.lean keep (`Kept`). -/

namespace Sys2Proof.Machine

theorem ifOpen_kept {s0 : State} {p : Nat} {s : State} {t : State} (hs : Kept s0 s) (ht : Kept s0 t) :
    Kept s0 (ifOpen p s t) := by
  unfold ifOpen
  try dsimp only
  repeat' first
    | with_reducible first
      | assumption | apply kept_ite

theorem ifHas_kept {s0 : State} {present : Bool} {p : Nat} {s : State} {t : State} (hs : Kept s0 s) (ht : Kept s0 t) :
    Kept s0 (ifHas present p s t) := by
  unfold ifHas
  try dsimp only
  repeat' first
    | with_reducible first
      | assumption | apply kept_ite

end Sys2Proof.Machine
end

