-- ==== Sys2Proof/Laws/KeptRingOps.lean ====
section
/-! SUPPORT. What the operations of Machine/RingOps.lean keep (`Kept`). -/

namespace Sys2Proof.Machine

theorem setRingPos_kept {s0 : State} {s : State} {ring : Nat} {id : Nat} {p : Nat} (hs : Kept s0 s) :
    Kept s0 (State.setRingPos s ring id p) := by
  unfold State.setRingPos
  try dsimp only
  repeat' first
    | intro _
    | with_reducible first
      | assumption | apply wr_kept | apply kept_ite
    | simp only [id_eq]

theorem putHop_kept {s0 : State} {s : State} {ring : Nat} {h : HopSt} (hs : Kept s0 s) :
    Kept s0 (State.putHop s ring h) := by
  unfold State.putHop
  try dsimp only
  repeat' first
    | with_reducible first
      | assumption | apply kept_ite
    | simp only [kept_mk_iff]

theorem freshOut_kept {s0 : State} {s : State} (hs : Kept s0 s) :
    Kept s0 (State.freshOut s) := by
  unfold State.freshOut
  try dsimp only
  repeat' first
    | with_reducible first
      | assumption
    | simp only [kept_mk_iff]

theorem sendOn_kept {s0 : State} {s : State} {ring : Nat} {bytes : List Nat} (hs : Kept s0 s) :
    Kept s0 (State.sendOn s ring bytes) := by
  unfold State.sendOn
  try dsimp only
  repeat' first
    | with_reducible first
      | assumption
    | simp only [kept_mk_iff]

theorem sendTo_kept {s0 : State} {s : State} {t : Nat} {type : Nat} {body : List Nat} (hs : Kept s0 s) :
    Kept s0 (State.sendTo s t type body) := by
  unfold State.sendTo
  try dsimp only
  repeat' first
    | with_reducible first
      | assumption | apply sendOn_kept
    | simp only [kept_mk_iff]
    | split
    | with_reducible first
      | (apply kept_pair; assumption) | (apply kept_opt; assumption) | (apply kept_triple; assumption)

theorem broadcast_kept {s0 : State} {s : State} {type : Nat} {body : List Nat} (hs : Kept s0 s) :
    Kept s0 (State.broadcast s type body) := by
  unfold State.broadcast
  try dsimp only
  repeat' first
    | with_reducible first
      | assumption | apply sendOn_kept

theorem sendReady_kept {s0 : State} {s : State} (hs : Kept s0 s) :
    Kept s0 (State.sendReady s) := by
  unfold State.sendReady
  try dsimp only
  repeat' first
    | with_reducible first
      | assumption | apply wr_kept | apply sendTo_kept | apply kept_ite

end Sys2Proof.Machine
end

