-- ==== Sys2Proof/Laws/KeptInterrupts.lean ====
section
/-! SUPPORT. What the operations of Machine/Interrupts.lean keep (`Kept`). -/

namespace Sys2Proof.Machine

theorem answerWord_kept {s0 : State} {s : State} {v : Nat} (hs : Kept s0 s) :
    Kept s0 (State.answerWord s v) := by
  unfold State.answerWord
  try dsimp only
  repeat' first
    | with_reducible first
      | assumption
    | simp only [kept_mk_iff]

theorem claimSource_kept {s0 : State} {src : Nat} {s : State} (hs : Kept s0 s) :
    Kept s0 (claimSource src s) := by
  unfold claimSource
  try dsimp only
  repeat' first
    | with_reducible first
      | assumption | apply wr_kept | apply relevel_kept

theorem bankServe_kept {s0 : State} {cl : Nat} {t : Nat} {ring : Nat} {src : Nat} {s : State} (hs : Kept s0 s) :
    Kept s0 (bankServe cl t ring src s) := by
  unfold bankServe
  try dsimp only
  repeat' first
    | with_reducible first
      | assumption | apply wr_kept

theorem bankIdle_kept {s0 : State} {cl : Nat} {t : Nat} {s : State} (hs : Kept s0 s) :
    Kept s0 (bankIdle cl t s) := by
  unfold bankIdle
  try dsimp only
  repeat' first
    | with_reducible first
      | assumption | apply wr_kept

theorem claimNone_kept {s0 : State} {cl : Nat} {t : Nat} {why : Nat} {s : State} (hs : Kept s0 s) :
    Kept s0 (claimNone cl t why s).2 := by
  unfold claimNone
  try dsimp only
  repeat' first
    | with_reducible first
      | assumption | apply wr_kept

theorem claim_kept {s0 : State} {fast : Bool} {t : Nat} {s : State} (hs : Kept s0 s) :
    Kept s0 (claim fast t s).2 := by
  unfold claim
  try dsimp only
  repeat' first
    | intro _
    | with_reducible first
      | assumption | apply count_kept | apply claimSource_kept | apply bankServe_kept | apply claimNone_kept
      | apply kept_ite | apply kept_ite2 | exact keptOpt_none | apply keptOpt_ite
    | simp only [kept_mk_iff]
    | split
    | with_reducible first
      | (apply kept_pair; assumption) | (apply kept_opt; assumption) | (apply kept_triple; assumption)

theorem stray_kept {s0 : State} {cl : Nat} {t : Nat} {src : Nat} {ring : Nat} {s : State} (hs : Kept s0 s) :
    Kept s0 (stray cl t src ring s) := by
  unfold stray
  try dsimp only
  repeat' first
    | with_reducible first
      | assumption | apply wr_kept | apply bump_kept | apply raise_kept

theorem endService_kept {s0 : State} {src : Nat} {s : State} (hs : Kept s0 s) :
    Kept s0 (endService src s) := by
  unfold endService
  try dsimp only
  repeat' first
    | intro _
    | with_reducible first
      | assumption | apply wr_kept
    | simp only [kept_mk_iff]

theorem complete_kept {s0 : State} {fast : Bool} {t : Nat} {src : Nat} {ring : Nat} {s : State} (hs : Kept s0 s) :
    Kept s0 (complete fast t src ring s) := by
  unfold complete
  try dsimp only
  repeat' first
    | with_reducible first
      | assumption | apply sendTo_kept | apply bankIdle_kept | apply stray_kept | apply endService_kept
      | apply kept_ite

theorem writeSrcCfg_kept {s0 : State} {src : Nat} {v : Nat} {s : State} (hs : Kept s0 s) :
    Kept s0 (writeSrcCfg src v s) := by
  unfold writeSrcCfg
  try dsimp only
  repeat' first
    | with_reducible first
      | assumption | apply wr_kept | apply relevel_kept | apply kept_ite

theorem ringDoorbells_kept {s0 : State} {v : Nat} {s : State} (hs : Kept s0 s) :
    Kept s0 (ringDoorbells v s) := by
  unfold ringDoorbells
  try dsimp only
  repeat' first
    | intro _
    | with_reducible first
      | assumption | apply raise_kept | apply kept_ite | apply kept_foldl

theorem deliver_kept {s0 : State} {src : Nat} {s : State} (hs : Kept s0 s) :
    Kept s0 (deliver src s) := by
  unfold deliver
  try dsimp only
  repeat' first
    | with_reducible first
      | assumption | apply count_kept | apply sendTo_kept | apply claimSource_kept | apply kept_ite
    | simp only [kept_mk_iff]

theorem execSourceInput_kept {s0 : State} {src : Nat} {ev : InputEvent} {s : State} (hs : Kept s0 s) :
    KeptO s0 (execSourceInput src ev s) := by
  unfold execSourceInput
  try dsimp only
  repeat' first
    | with_reducible first
      | assumption | apply onUnit_kept | apply raise_kept | apply setInput_kept | apply keptO_next
      | apply keptO_ite | exact keptO_fault | apply kept_ite
    | simp only [kept_mk_iff]
    | split
    | with_reducible first
      | (apply kept_pair; assumption) | (apply kept_opt; assumption) | (apply kept_triple; assumption)

theorem execIntClaim_kept {s0 : State} {fast : Bool} {t : Nat} {s : State} (hs : Kept s0 s) :
    KeptO s0 (execIntClaim fast t s) := by
  unfold execIntClaim
  try dsimp only
  repeat' first
    | with_reducible first
      | assumption | apply answerWord_kept | apply claim_kept | apply keptO_next | apply keptO_ite
      | exact keptO_fault | apply kept_ite

theorem execIntComplete_kept {s0 : State} {fast : Bool} {t : Nat} {src : Nat} {ring : Nat} {s : State} (hs : Kept s0 s) :
    KeptO s0 (execIntComplete fast t src ring s) := by
  unfold execIntComplete
  try dsimp only
  repeat' first
    | with_reducible first
      | assumption | apply freshOut_kept | apply complete_kept | apply keptO_next | apply keptO_ite
      | exact keptO_fault | apply kept_ite

theorem execDoorbellWrite_kept {s0 : State} {v : Nat} {s : State} (hs : Kept s0 s) :
    KeptO s0 (execDoorbellWrite v s) := by
  unfold execDoorbellWrite
  try dsimp only
  repeat' first
    | with_reducible first
      | assumption | apply ifOpen_kept | apply ringDoorbells_kept | apply keptO_next | apply keptO_ite
      | exact keptO_fault

theorem execSrcCfgWrite_kept {s0 : State} {src : Nat} {v : Nat} {s : State} (hs : Kept s0 s) :
    KeptO s0 (execSrcCfgWrite src v s) := by
  unfold execSrcCfgWrite
  try dsimp only
  repeat' first
    | with_reducible first
      | assumption | apply ifOpen_kept | apply writeSrcCfg_kept | apply keptO_next | apply keptO_ite
      | exact keptO_fault

theorem execRingDeliverSend_kept {s0 : State} {src : Nat} {s : State} (hs : Kept s0 s) :
    KeptO s0 (execRingDeliverSend src s) := by
  unfold execRingDeliverSend
  try dsimp only
  repeat' first
    | with_reducible first
      | assumption | apply freshOut_kept | apply deliver_kept | apply keptO_next | apply keptO_ite
      | exact keptO_fault | apply kept_ite

theorem execDeliverResend_kept {s0 : State} {src : Nat} {s : State} (hs : Kept s0 s) :
    KeptO s0 (execDeliverResend src s) := by
  unfold execDeliverResend
  try dsimp only
  repeat' first
    | with_reducible first
      | assumption | apply freshOut_kept | apply sendTo_kept | apply keptO_next | apply keptO_ite
      | exact keptO_fault | apply kept_ite

end Sys2Proof.Machine
end

