-- ==== Sys2Proof/Laws/KeptCalOps.lean ====
section
/-! SUPPORT. What the operations of Machine/CalOps.lean keep (`Kept`). -/

namespace Sys2Proof.Machine

theorem putCal_kept {s0 : State} {s : State} {c : Nat} {v : CalSeq} (hs : Kept s0 s) :
    Kept s0 (State.putCal s c v) := by
  unfold State.putCal
  try dsimp only
  repeat' first
    | with_reducible first
      | assumption | apply wr_kept | apply wrB_kept | apply kept_put_cal
    | simp only [kept_mk_iff]

theorem calRunStart_kept {s0 : State} {c : Nat} {s : State} (hs : Kept s0 s) :
    Kept s0 (calRunStart c s) := by
  unfold calRunStart
  try dsimp only
  repeat' first
    | with_reducible first
      | assumption | apply putCal_kept | apply kept_ite | exact keptOpt_none | apply keptOpt_ite
    | simp only [kept_mk_iff]
    | split
    | with_reducible first
      | (apply kept_pair; assumption) | (apply kept_opt; assumption) | (apply kept_triple; assumption)

theorem calResume_kept {s0 : State} {c : Nat} {s : State} (hs : Kept s0 s) :
    Kept s0 (calResume c s) := by
  unfold calResume
  try dsimp only
  repeat' first
    | with_reducible first
      | assumption | apply calRunStart_kept | apply kept_ite

theorem calDue_kept {s0 : State} {c : Nat} {cause : Nat} {e : Nat} {s : State} (hs : Kept s0 s) :
    Kept s0 (calDue c cause e s) := by
  unfold calDue
  try dsimp only
  repeat' first
    | with_reducible first
      | assumption | apply wr_kept | apply putCal_kept | apply kept_ite
    | simp only [kept_mk_iff]

theorem calEmptied_kept {s0 : State} {c : Nat} {s : State} (hs : Kept s0 s) :
    Kept s0 (calEmptied c s) := by
  unfold calEmptied
  try dsimp only
  repeat' first
    | with_reducible first
      | assumption | apply raise_kept | apply kept_ite

theorem calLeave_kept {s0 : State} {c : Nat} {e : Nat} {s : State} (hs : Kept s0 s) :
    Kept s0 (calLeave c e s) := by
  unfold calLeave
  try dsimp only
  repeat' first
    | intro _
    | with_reducible first
      | assumption | apply putCal_kept | apply calEmptied_kept
    | simp only [kept_mk_iff]

theorem calApply_kept {s0 : State} {c : Nat} {e : Nat} {s : State} (hs : Kept s0 s) :
    Kept s0 (calApply c e s) := by
  unfold calApply
  try dsimp only
  repeat' first
    | with_reducible first
      | assumption | apply putCal_kept | apply calLeave_kept | apply kept_ite
    | simp only [kept_mk_iff]

theorem calRecord_kept {s0 : State} {c : Nat} {e : Nat} {result : Nat} {s : State} (hs : Kept s0 s) :
    Kept s0 (calRecord c e result s) := by
  unfold calRecord
  try dsimp only
  repeat' first
    | with_reducible first
      | assumption | apply wr_kept | apply bump_kept

theorem calStop_kept {s0 : State} {c : Nat} {result : Nat} {s : State} (hs : Kept s0 s) :
    Kept s0 (calStop c result s) := by
  unfold calStop
  try dsimp only
  repeat' first
    | intro _
    | with_reducible first
      | assumption | apply putCal_kept | apply calRecord_kept
    | simp only [kept_mk_iff]
    | split
    | with_reducible first
      | (apply kept_pair; assumption) | (apply kept_opt; assumption) | (apply kept_triple; assumption)

theorem calAbort_kept {s0 : State} {c : Nat} {e : Nat} {s : State} (hs : Kept s0 s) :
    Kept s0 (calAbort c e s) := by
  unfold calAbort
  try dsimp only
  repeat' first
    | with_reducible first
      | assumption | apply calStop_kept | apply kept_ite

theorem calAbortAny_kept {s0 : State} {c : Nat} {s : State} (hs : Kept s0 s) :
    Kept s0 (calAbortAny c s) := by
  unfold calAbortAny
  try dsimp only
  repeat' first
    | with_reducible first
      | assumption | apply calStop_kept

theorem calAbortDir_kept {s0 : State} {c : Nat} {d : Dir} {s : State} (hs : Kept s0 s) :
    Kept s0 (calAbortDir c d s) := by
  unfold calAbortDir
  try dsimp only
  repeat' first
    | with_reducible first
      | assumption | apply calStop_kept | apply kept_ite | exact keptOpt_none | apply keptOpt_ite
    | simp only [kept_mk_iff]
    | split
    | with_reducible first
      | (apply kept_pair; assumption) | (apply kept_opt; assumption) | (apply kept_triple; assumption)

theorem eyeAbort_kept {s0 : State} {c : Nat} {e : Nat} {s : State} (hs : Kept s0 s) :
    Kept s0 (eyeAbort c e s) := by
  unfold eyeAbort
  try dsimp only
  repeat' first
    | with_reducible first
      | assumption | apply wr_kept | apply putCal_kept | apply kept_ite
    | simp only [kept_mk_iff]

theorem eyeAbortDir_kept {s0 : State} {c : Nat} {d : Dir} {s : State} (hs : Kept s0 s) :
    Kept s0 (eyeAbortDir c d s) := by
  unfold eyeAbortDir
  try dsimp only
  repeat' first
    | with_reducible first
      | assumption | apply eyeAbort_kept | apply kept_ite | exact keptOpt_none | apply keptOpt_ite
    | simp only [kept_mk_iff]
    | split
    | with_reducible first
      | (apply kept_pair; assumption) | (apply kept_opt; assumption) | (apply kept_triple; assumption)

theorem sentinelTaken_kept {s0 : State} {c : Nat} {e : Nat} {s : State} (hs : Kept s0 s) :
    Kept s0 (sentinelTaken c e s) := by
  unfold sentinelTaken
  try dsimp only
  repeat' first
    | with_reducible first
      | assumption | apply calAbort_kept | apply eyeAbort_kept

end Sys2Proof.Machine
end

