-- ==== Sys2Proof/Laws/KeptTestOps.lean ====
section
/-! SUPPORT. What the operations of Machine/TestOps.lean keep (`Kept`). -/

namespace Sys2Proof.Machine

theorem repairRow_kept {s0 : State} {d : Nat} {b : Nat} {row : Nat} {s : State} (hs : Kept s0 s) :
    Kept s0 (repairRow d b row s) := by
  unfold repairRow
  try dsimp only
  repeat' first
    | with_reducible first
      | assumption | apply wr_kept | apply bump_kept | apply kept_ite
    | simp only [kept_mk_iff]

end Sys2Proof.Machine
end

