-- ==== Sys2Proof/Laws/KeptBufOps.lean ====
section
/-! SUPPORT. What the operations of Machine/BufOps.lean keep (`Kept`). -/

namespace Sys2Proof.Machine

theorem putSlot_kept {s0 : State} {s : State} {r : Nat} {v : Slot} (hs : Kept s0 s) :
    Kept s0 (State.putSlot s r v) := by
  unfold State.putSlot
  try dsimp only
  repeat' first
    | with_reducible first
      | assumption | apply kept_put_slots
    | simp only [kept_mk_iff]

theorem putBuf_kept {s0 : State} {s : State} {d : Nat} {v : DieBuf} (hs : Kept s0 s) :
    Kept s0 (State.putBuf s d v) := by
  unfold State.putBuf
  try dsimp only
  repeat' first
    | with_reducible first
      | assumption | apply kept_put_dies
    | simp only [kept_mk_iff]

theorem setServes_kept {s0 : State} {d : Nat} {l : Nat} {b : Nat} {s : State} (hs : Kept s0 s) :
    Kept s0 (setServes d l b s) := by
  unfold setServes
  try dsimp only
  repeat' first
    | intro _
    | with_reducible first
      | assumption | apply putBuf_kept
    | simp only [kept_mk_iff]

theorem occTaken_kept {s0 : State} {d : Nat} {s : State} (hs : Kept s0 s) :
    Kept s0 (occTaken d s) := by
  unfold occTaken
  try dsimp only
  repeat' first
    | with_reducible first
      | assumption | apply wr_kept | apply dieEvent_kept | apply kept_ite

theorem allocSlot_kept {s0 : State} {d : Nat} {excl : List Nat} {x : Slot} {s : State} (hs : Kept s0 s) :
    KeptOpt s0 (allocSlot d excl x s) := by
  unfold allocSlot
  try dsimp only
  repeat' first
    | with_reducible first
      | assumption | apply draw_kept | apply putSlot_kept | apply occTaken_kept | exact keptOpt_none
      | apply keptOpt_some | apply keptOpt_ite | apply keptOpt_someP
    | simp only [kept_mk_iff]
    | split
    | with_reducible first
      | (apply kept_pair; assumption) | (apply kept_opt; assumption) | (apply kept_triple; assumption)

theorem allocPair_kept {s0 : State} {d : Nat} {x : Slot} {s : State} (hs : Kept s0 s) :
    KeptOpt s0 (allocPair d x s) := by
  unfold allocPair
  try dsimp only
  repeat' first
    | with_reducible first
      | assumption | apply putSlot_kept | apply allocSlot_kept | exact keptOpt_none | apply keptOpt_some
      | apply keptOpt_ite | apply keptOpt_someP
    | simp only [kept_mk_iff]
    | split
    | with_reducible first
      | (apply kept_pair; assumption) | (apply kept_opt; assumption) | (apply kept_triple; assumption)

theorem slotSet_kept {s0 : State} {r : Nat} {x : Slot} {s : State} (hs : Kept s0 s) :
    Kept s0 (slotSet r x s) := by
  unfold slotSet
  try dsimp only
  repeat' first
    | with_reducible first
      | assumption | apply putSlot_kept | apply kept_ite
    | simp only [kept_mk_iff]

theorem pairSet_kept {s0 : State} {r : Nat} {f : Slot → Slot} {s : State} (hs : Kept s0 s) :
    Kept s0 (pairSet r f s) := by
  unfold pairSet
  try dsimp only
  repeat' first
    | with_reducible first
      | assumption | apply slotSet_kept
    | simp only [kept_mk_iff]
    | split
    | with_reducible first
      | (apply kept_pair; assumption) | (apply kept_opt; assumption) | (apply kept_triple; assumption)

theorem sendingEnds_kept {s0 : State} {r : Nat} {s : State} (hs : Kept s0 s) :
    Kept s0 (sendingEnds r s) := by
  unfold sendingEnds
  try dsimp only
  repeat' first
    | with_reducible first
      | assumption | apply putSlot_kept | apply kept_ite
    | simp only [kept_mk_iff]

theorem slotFree_kept {s0 : State} {r : Nat} {s : State} (hs : Kept s0 s) :
    Kept s0 (slotFree r s) := by
  unfold slotFree
  try dsimp only
  repeat' first
    | intro _
    | with_reducible first
      | assumption | apply pairSet_kept
    | simp only [kept_mk_iff]

theorem dieFree_kept {s0 : State} {d : Nat} {s : State} (hs : Kept s0 s) :
    Kept s0 (dieFree d s) := by
  unfold dieFree
  exact kept_slots hs fun x => Tbl.wf_filter _ x

theorem relist_kept {s0 : State} {old : Nat} {new : Nat} {s : State} (hs : Kept s0 s) :
    Kept s0 (relist old new s) := by
  unfold relist
  exact kept_sides (kept_trunks (kept_flows hs fun x => Tbl.wf_mapVals _ x) fun x => Tbl.wf_mapVals _ x)
    fun x => Tbl.wf_mapVals _ x

theorem ceRegion_kept {s0 : State} {d : Nat} {odd : Nat} {s : State} (hs : Kept s0 s) :
    Kept s0 (ceRegion d odd s) := by
  unfold ceRegion
  try dsimp only
  repeat' first
    | with_reducible first
      | assumption | apply dieEvent_kept | apply putBuf_kept | apply kept_ite
    | simp only [kept_mk_iff]

theorem ceJudge_kept {s0 : State} {d : Nat} {s : State} (hs : Kept s0 s) :
    Kept s0 (ceJudge d s) := by
  unfold ceJudge
  try dsimp only
  repeat' first
    | with_reducible first
      | assumption | apply ceRegion_kept

theorem ceRead_kept {s0 : State} {r : Nat} {region : Nat} {word : Nat} {bitNo : Nat} {s : State} (hs : Kept s0 s) :
    Kept s0 (ceRead r region word bitNo s) := by
  unfold ceRead
  try dsimp only
  repeat' first
    | with_reducible first
      | assumption | apply wr_kept | apply count_kept | apply putBuf_kept | apply ceRegion_kept | apply kept_ite
    | simp only [kept_mk_iff]

theorem setRot_kept {s0 : State} {d : Nat} {rot : Nat} {bank : Nat} {s : State} (hs : Kept s0 s) :
    Kept s0 (setRot d rot bank s) := by
  unfold setRot
  try dsimp only
  repeat' first
    | with_reducible first
      | assumption | apply wr_kept | apply wrB_kept

theorem bankRecord_kept {s0 : State} {d : Nat} {bank : Nat} {result : Nat} {cause : Nat} {rows : Nat} {ops : Nat} {s : State} (hs : Kept s0 s) :
    Kept s0 (bankRecord d bank result cause rows ops s) := by
  unfold bankRecord
  try dsimp only
  repeat' first
    | with_reducible first
      | assumption | apply wr_kept

theorem sliceBegin_kept {s0 : State} {d : Nat} {bank : Nat} {retireAfter : Bool} {returning : Bool} {byCmd : Bool} {s : State} (hs : Kept s0 s) :
    Kept s0 (sliceBegin d bank retireAfter returning byCmd s) := by
  unfold sliceBegin
  try dsimp only
  repeat' first
    | with_reducible first
      | assumption | apply wr_kept | apply putBuf_kept | apply setRot_kept | apply kept_ite
    | simp only [kept_mk_iff]

theorem testBegin_kept {s0 : State} {d : Nat} {bank : Nat} {returning : Bool} {byCmd : Bool} {s : State} (hs : Kept s0 s) :
    Kept s0 (testBegin d bank returning byCmd s) := by
  unfold testBegin
  try dsimp only
  repeat' first
    | with_reducible first
      | assumption | apply wr_kept | apply raise_kept | apply bankRecord_kept | apply sliceBegin_kept
      | apply kept_ite

theorem bankSliceTurn_kept {s0 : State} {d : Nat} {s : State} (hs : Kept s0 s) :
    Kept s0 (bankSliceTurn d s) := by
  unfold bankSliceTurn
  try dsimp only
  repeat' first
    | with_reducible first
      | assumption | apply testBegin_kept | apply kept_ite | exact keptOpt_none | apply keptOpt_ite
    | simp only [kept_mk_iff]
    | split
    | with_reducible first
      | (apply kept_pair; assumption) | (apply kept_opt; assumption) | (apply kept_triple; assumption)

theorem suspectSlice_kept {s0 : State} {d : Nat} {s : State} (hs : Kept s0 s) :
    Kept s0 (suspectSlice d s) := by
  unfold suspectSlice
  try dsimp only
  repeat' first
    | intro _
    | with_reducible first
      | assumption | apply sliceBegin_kept | apply testBegin_kept | apply kept_ite | exact keptOpt_none
      | apply keptOpt_ite
    | simp only [kept_mk_iff]
    | split
    | with_reducible first
      | (apply kept_pair; assumption) | (apply kept_opt; assumption) | (apply kept_triple; assumption)

theorem suspectSlices_kept {s0 : State} {s : State} (hs : Kept s0 s) :
    Kept s0 (suspectSlices s) := by
  unfold suspectSlices
  try dsimp only
  repeat' first
    | intro _
    | with_reducible first
      | assumption | apply suspectSlice_kept | apply kept_foldl

theorem suspectClear_kept {s0 : State} {d : Nat} {b : Nat} {s : State} (hs : Kept s0 s) :
    Kept s0 (suspectClear d b s) := by
  unfold suspectClear
  try dsimp only
  repeat' first
    | with_reducible first
      | assumption | apply wr_kept | apply putBuf_kept
    | simp only [kept_mk_iff]

theorem ueRead_kept {s0 : State} {r : Nat} {word : Nat} {tag : Bool} {desc : Bool} {s : State} (hs : Kept s0 s) :
    Kept s0 (ueRead r word tag desc s) := by
  unfold ueRead
  try dsimp only
  repeat' first
    | with_reducible first
      | assumption | apply wr_kept | apply wrB_kept | apply count_kept | apply dieEvent_kept | apply putSlot_kept
      | apply putBuf_kept | apply suspectSlice_kept | apply kept_ite
    | simp only [kept_mk_iff]

theorem readSlot_kept {s0 : State} {r : Nat} {region : Nat} {e : EccRead} {s : State} (hs : Kept s0 s) :
    Kept s0 (readSlot r region e s).2 := by
  unfold readSlot
  try dsimp only
  repeat' first
    | with_reducible first
      | assumption | apply ceRead_kept | apply ueRead_kept | apply kept_ite | apply kept_ite2 | exact keptOpt_none
      | apply keptOpt_ite
    | simp only [kept_mk_iff]
    | split
    | with_reducible first
      | (apply kept_pair; assumption) | (apply kept_opt; assumption) | (apply kept_triple; assumption)

theorem evacuate_kept {s0 : State} {d : Nat} {s : State} (hs : Kept s0 s) :
    Kept s0 (evacuate d s) := by
  unfold evacuate
  try dsimp only
  repeat' first
    | with_reducible first
      | assumption | apply wr_kept | apply setRot_kept | apply kept_ite | exact keptOpt_none | apply keptOpt_ite
    | simp only [kept_mk_iff]
    | split
    | with_reducible first
      | (apply kept_pair; assumption) | (apply kept_opt; assumption) | (apply kept_triple; assumption)

theorem retireBank_kept {s0 : State} {d : Nat} {b : Nat} {s : State} (hs : Kept s0 s) :
    Kept s0 (retireBank d b s) := by
  unfold retireBank
  try dsimp only
  repeat' first
    | with_reducible first
      | assumption | apply wr_kept | apply bump_kept | apply dieEvent_kept | apply putBuf_kept
      | apply setServes_kept | apply evacuate_kept | apply kept_ite | exact keptOpt_none | apply keptOpt_ite
    | simp only [kept_mk_iff]
    | split
    | with_reducible first
      | (apply kept_pair; assumption) | (apply kept_opt; assumption) | (apply kept_triple; assumption)

theorem rotIdle_kept {s0 : State} {d : Nat} {s : State} (hs : Kept s0 s) :
    Kept s0 (rotIdle d s) := by
  unfold rotIdle
  try dsimp only
  repeat' first
    | with_reducible first
      | assumption | apply wr_kept | apply putBuf_kept | apply setRot_kept | apply kept_ite
    | simp only [kept_mk_iff]

theorem inPlaceBack_kept {s0 : State} {d : Nat} {bank : Nat} {s : State} (hs : Kept s0 s) :
    Kept s0 (inPlaceBack d bank s) := by
  unfold inPlaceBack
  try dsimp only
  repeat' first
    | with_reducible first
      | assumption | apply wr_kept | apply kept_ite

theorem testStopped_kept {s0 : State} {d : Nat} {result : Nat} {cause : Nat} {rows : Nat} {ops : Nat} {s : State} (hs : Kept s0 s) :
    Kept s0 (testStopped d result cause rows ops s) := by
  unfold testStopped
  try dsimp only
  repeat' first
    | with_reducible first
      | assumption | apply wr_kept | apply raise_kept | apply putBuf_kept | apply setRot_kept
      | apply bankRecord_kept | apply suspectSlice_kept | apply rotIdle_kept | apply inPlaceBack_kept
      | apply kept_ite
    | simp only [kept_mk_iff]

theorem testCut_kept {s0 : State} {d : Nat} {result : Nat} {cause : Nat} {s : State} (hs : Kept s0 s) :
    Kept s0 (testCut d result cause s) := by
  unfold testCut
  try dsimp only
  repeat' first
    | with_reducible first
      | assumption | apply draw_kept | apply testStopped_kept
    | with_reducible first
      | (apply kept_pair; assumption) | (apply kept_opt; assumption) | (apply kept_triple; assumption)

theorem bankStop_kept {s0 : State} {d : Nat} {result : Nat} {cause : Nat} {s : State} (hs : Kept s0 s) :
    Kept s0 (bankStop d result cause s) := by
  unfold bankStop
  try dsimp only
  repeat' first
    | with_reducible first
      | assumption | apply putBuf_kept | apply testCut_kept | apply kept_ite
    | simp only [kept_mk_iff]

end Sys2Proof.Machine
end

