-- ==== Sys2Proof/Laws/KeptEqOps.lean ====
section
/-! SUPPORT. What the operations of Machine/EqOps.lean keep (`Kept`). -/

namespace Sys2Proof.Machine

theorem exitDrive_kept {s0 : State} {c : Nat} {d : Dir} {taps : List Int} {s : State} (hs : Kept s0 s) :
    Kept s0 (exitDrive c d taps s) := by
  unfold exitDrive
  try dsimp only
  repeat' first
    | with_reducible first
      | assumption | apply putCkExit_kept
    | simp only [kept_mk_iff]

theorem loadTx_kept {s0 : State} {n : Nat} {sd : Side} {rung : Nat} {s : State} (hs : Kept s0 s) :
    Kept s0 (loadTx n sd rung s) := by
  unfold loadTx
  try dsimp only
  repeat' first
    | with_reducible first
      | assumption | apply wr_kept | apply putTx_kept | apply exitDrive_kept | apply kept_ite
    | simp only [kept_mk_iff]

theorem putCoef_kept {s0 : State} {s : State} {n : Nat} {sd : Side} {v : Coef} (hs : Kept s0 s) :
    Kept s0 (State.putCoef s n sd v) := by
  unfold State.putCoef
  try dsimp only
  repeat' first
    | with_reducible first
      | assumption | apply kept_put_coef
    | simp only [kept_mk_iff]

theorem loadRx_kept {s0 : State} {n : Nat} {sd : Side} {rung : Nat} {s : State} (hs : Kept s0 s) :
    Kept s0 (loadRx n sd rung s) := by
  unfold loadRx
  try dsimp only
  repeat' first
    | with_reducible first
      | assumption | apply putCoef_kept
    | simp only [kept_mk_iff]

theorem putEngine_kept {s0 : State} {s : State} {c : Nat} {v : AdaptSt} (hs : Kept s0 s) :
    Kept s0 (State.putEngine s c v) := by
  unfold State.putEngine
  try dsimp only
  repeat' first
    | with_reducible first
      | assumption | apply wr_kept | apply kept_put_adapt | apply kept_ite
    | simp only [kept_mk_iff]

theorem nextVisit_kept {s0 : State} {c : Nat} {x0 : Nat} {x1 : Nat} {x2 : State} (hx2 : Kept s0 x2) :
    Kept s0 (nextVisit c x0 x1 x2).2 := by
  induction x0 generalizing x1 x2 with
  | zero =>
    unfold nextVisit
    try dsimp only
    repeat' first
      | with_reducible first
        | assumption | apply bump_kept | apply kept_ite | apply kept_ite2
      | split
  | succ n ih =>
    unfold nextVisit
    try dsimp only
    repeat' first
      | with_reducible first
        | assumption | apply ih | apply bump_kept | apply kept_ite | apply kept_ite2
      | split

theorem engineNext_kept {s0 : State} {c : Nat} {s : State} (hs : Kept s0 s) :
    Kept s0 (engineNext c s) := by
  unfold engineNext
  try dsimp only
  repeat' first
    | with_reducible first
      | assumption | apply calResume_kept | apply sentinelTaken_kept | apply putEngine_kept | apply nextVisit_kept
      | apply kept_ite | exact keptOpt_none | apply keptOpt_ite
    | simp only [kept_mk_iff]
    | split
    | with_reducible first
      | (apply kept_pair; assumption) | (apply kept_opt; assumption) | (apply kept_triple; assumption)

theorem engineDrop_kept {s0 : State} {c : Nat} {e : Nat} {s : State} (hs : Kept s0 s) :
    Kept s0 (engineDrop c e s) := by
  unfold engineDrop
  try dsimp only
  repeat' first
    | with_reducible first
      | assumption | apply putEngine_kept | apply engineNext_kept | apply kept_ite
    | simp only [kept_mk_iff]

theorem dirAbort_kept {s0 : State} {c : Nat} {d : Dir} {s : State} (hs : Kept s0 s) :
    Kept s0 (dirAbort c d s) := by
  unfold dirAbort
  try dsimp only
  repeat' first
    | with_reducible first
      | assumption | apply calAbortDir_kept | apply engineNext_kept

theorem acqQueue_kept {s0 : State} {n : Nat} {sd : Side} {s : State} (hs : Kept s0 s) :
    Kept s0 (acqQueue n sd s) := by
  unfold acqQueue
  try dsimp only
  repeat' first
    | with_reducible first
      | assumption | apply wr_kept | apply putCoef_kept | apply putEngine_kept | apply engineNext_kept
      | apply kept_ite
    | simp only [kept_mk_iff]

theorem acqRequest_kept {s0 : State} {n : Nat} {sd : Side} {rung : Nat} {s : State} (hs : Kept s0 s) :
    Kept s0 (acqRequest n sd rung s) := by
  unfold acqRequest
  try dsimp only
  repeat' first
    | with_reducible first
      | assumption | apply putCoef_kept | apply acqQueue_kept | apply kept_ite
    | simp only [kept_mk_iff]

theorem acqRemove_kept {s0 : State} {n : Nat} {sd : Side} {s : State} (hs : Kept s0 s) :
    Kept s0 (acqRemove n sd s) := by
  unfold acqRemove
  try dsimp only
  repeat' first
    | with_reducible first
      | assumption | apply wr_kept | apply putCoef_kept | apply engineDrop_kept
    | simp only [kept_mk_iff]

theorem adaptLeaves_kept {s0 : State} {n : Nat} {sd : Side} {s : State} (hs : Kept s0 s) :
    Kept s0 (adaptLeaves n sd s) := by
  unfold adaptLeaves
  try dsimp only
  repeat' first
    | with_reducible first
      | assumption | apply wr_kept | apply eyeAbort_kept | apply putCoef_kept | apply engineDrop_kept
      | apply kept_ite
    | simp only [kept_mk_iff]

theorem adaptEnters_kept {s0 : State} {n : Nat} {sd : Side} {s : State} (hs : Kept s0 s) :
    Kept s0 (adaptEnters n sd s) := by
  unfold adaptEnters
  try dsimp only
  repeat' first
    | with_reducible first
      | assumption | apply wr_kept | apply engineNext_kept | apply kept_ite

theorem acqCancel_kept {s0 : State} {n : Nat} {sd : Side} {s : State} (hs : Kept s0 s) :
    Kept s0 (acqCancel n sd s) := by
  unfold acqCancel
  try dsimp only
  repeat' first
    | with_reducible first
      | assumption | apply putCoef_kept | apply adaptEnters_kept | apply kept_ite
    | simp only [kept_mk_iff]

end Sys2Proof.Machine
end

