-- ==== Sys2Proof/Laws/KeptFlits.lean ====
section
/-! SUPPORT. What the operations of Machine/Flits.lean keep (`Kept`). -/

namespace Sys2Proof.Machine

theorem txBoundary_kept {s0 : State} {n : Nat} {sd : Side} {s : State} (hs : Kept s0 s) :
    Kept s0 (txBoundary n sd s) := by
  unfold txBoundary
  try dsimp only
  repeat' first
    | with_reducible first
      | assumption | apply putTx_kept
    | simp only [kept_mk_iff]
    | split
    | with_reducible first
      | (apply kept_pair; assumption) | (apply kept_opt; assumption) | (apply kept_triple; assumption)

theorem seamSend_kept {s0 : State} {d : Nat} {fail1 : Bool} {fail2 : Bool} {s : State} (hs : Kept s0 s) :
    Kept s0 (seamSend d fail1 fail2 s).2 := by
  unfold seamSend
  try dsimp only
  repeat' first
    | with_reducible first
      | assumption | apply wr_kept | apply bump_kept | apply count64_kept | apply raise_kept | apply kept_ite
      | apply kept_ite2

theorem seamFlit_kept {s0 : State} {src : Nat} {dst : Nat} {fail1 : Bool} {fail2 : Bool} {f : Flit} {s : State} (hs : Kept s0 s) :
    Kept s0 (seamFlit src dst fail1 fail2 f s).2 := by
  unfold seamFlit
  try dsimp only
  repeat' first
    | with_reducible first
      | assumption | apply seamSend_kept | apply kept_ite | apply kept_ite2
    | simp only [kept_mk_iff]
    | split
    | with_reducible first
      | (apply kept_pair; assumption) | (apply kept_opt; assumption) | (apply kept_triple; assumption)

end Sys2Proof.Machine
end

