-- ==== Sys2Proof/Laws/KeptFlows.lean ====
section
/-! SUPPORT. What the operations of Machine/Flows.lean keep (`Kept`). -/

namespace Sys2Proof.Machine

theorem countLink_kept {s0 : State} {f : Nat} {c : Nat → Nat → Fld} {s : State} (hs : Kept s0 s) :
    Kept s0 (countLink f c s) := by
  unfold countLink
  try dsimp only
  repeat' first
    | with_reducible first
      | assumption | apply count_kept | apply kept_ite

theorem modFlow_kept {s0 : State} {s : State} {f : Nat} {g : Flow → Flow} (hs : Kept s0 s) :
    Kept s0 (State.modFlow s f g) := by
  unfold State.modFlow
  try dsimp only
  repeat' first
    | with_reducible first
      | assumption | apply putFlow_kept

theorem darnEvent_kept {s0 : State} {f : Nat} {event : Nat} {s : State} (hs : Kept s0 s) :
    Kept s0 (darnEvent f event s) := by
  unfold darnEvent
  try dsimp only
  repeat' first
    | with_reducible first
      | assumption | apply wr_kept | apply rgnEvent_kept

theorem trunkEvent_kept {s0 : State} {r : Nat} {event : Nat} {index : Nat} {s : State} (hs : Kept s0 s) :
    Kept s0 (trunkEvent r event index s) := by
  unfold trunkEvent
  try dsimp only
  repeat' first
    | with_reducible first
      | assumption | apply wr_kept | apply rgnEvent_kept

theorem postAck_kept {s0 : State} {k : Nat} {sd : Side} {a : AckSet} {s : State} (hs : Kept s0 s) :
    Kept s0 (postAck k sd a s) := by
  unfold postAck
  try dsimp only
  repeat' first
    | with_reducible first
      | assumption | apply count_kept | apply putSide_kept | apply kept_ite
    | simp only [kept_mk_iff]

theorem postProxy_kept {s0 : State} {f : Nat} {s : State} (hs : Kept s0 s) :
    Kept s0 (postProxy f s) := by
  unfold postProxy
  try dsimp only
  repeat' first
    | with_reducible first
      | assumption | apply postAck_kept | apply kept_ite

theorem refreshProxy_kept {s0 : State} {f : Nat} {s : State} (hs : Kept s0 s) :
    Kept s0 (refreshProxy f s) := by
  unfold refreshProxy
  try dsimp only
  repeat' first
    | with_reducible first
      | assumption | apply count_kept | apply postProxy_kept | apply kept_ite

theorem refreshAck_kept {s0 : State} {f : Nat} {s : State} (hs : Kept s0 s) :
    Kept s0 (refreshAck f s) := by
  unfold refreshAck
  try dsimp only
  repeat' first
    | with_reducible first
      | assumption | apply countLink_kept | apply postAck_kept | apply kept_ite | exact keptOpt_none
      | apply keptOpt_ite
    | simp only [kept_mk_iff]
    | split
    | with_reducible first
      | (apply kept_pair; assumption) | (apply kept_opt; assumption) | (apply kept_triple; assumption)

theorem allocFlow_kept {s0 : State} {f : Nat} {pair : Bool} {x : Slot} {s : State} (hs : Kept s0 s) :
    KeptOpt s0 (allocFlow f pair x s) := by
  unfold allocFlow
  try dsimp only
  repeat' first
    | with_reducible first
      | assumption | apply allocSlot_kept | apply allocPair_kept | exact keptOpt_none | apply keptOpt_some
      | apply keptOpt_ite | apply keptOpt_someP | apply kept_ite

theorem writingFreed_kept {s0 : State} {f : Nat} {pair : Bool} {fl : Flit} {s : State} (hs : Kept s0 s) :
    Kept s0 (writingFreed f pair fl s) := by
  unfold writingFreed
  try dsimp only
  repeat' first
    | with_reducible first
      | assumption | apply slotFree_kept | apply allocFlow_kept
    | simp only [kept_mk_iff]
    | split
    | with_reducible first
      | (apply kept_pair; assumption) | (apply kept_opt; assumption) | (apply kept_triple; assumption)

theorem postRec_kept {s0 : State} {t : Nat} {l : Nat} {xoffKind : Bool} {s : State} (hs : Kept s0 s) :
    Kept s0 (postRec t l xoffKind s) := by
  unfold postRec
  try dsimp only
  repeat' first
    | intro _
    | with_reducible first
      | assumption | apply putTrunk_kept | apply kept_ite | exact keptOpt_none | apply keptOpt_ite
    | simp only [kept_mk_iff]
    | split
    | with_reducible first
      | (apply kept_pair; assumption) | (apply kept_opt; assumption) | (apply kept_triple; assumption)

theorem postTrunkAck_kept {s0 : State} {k : Nat} {sd : Side} {s : State} (hs : Kept s0 s) :
    Kept s0 (postTrunkAck k sd s) := by
  unfold postTrunkAck
  try dsimp only
  repeat' first
    | with_reducible first
      | assumption | apply putTrunk_kept | apply postAck_kept
    | simp only [kept_mk_iff]

theorem postUpstream_kept {s0 : State} {f : Nat} {s : State} (hs : Kept s0 s) :
    Kept s0 (postUpstream f s) := by
  unfold postUpstream
  try dsimp only
  repeat' first
    | with_reducible first
      | assumption | apply postProxy_kept | apply postRec_kept | apply postTrunkAck_kept | apply kept_ite

theorem qstPeak_kept {s0 : State} {f : Nat} {v : Nat} {s : State} (hs : Kept s0 s) :
    Kept s0 (qstPeak f v s) := by
  unfold qstPeak
  try dsimp only
  repeat' first
    | with_reducible first
      | assumption | apply wr_kept | apply kept_ite

theorem xoffUpdate_kept {s0 : State} {f : Nat} {s : State} (hs : Kept s0 s) :
    Kept s0 (xoffUpdate f s) := by
  unfold xoffUpdate
  try dsimp only
  repeat' first
    | intro _
    | with_reducible first
      | assumption | apply modFlow_kept | apply postUpstream_kept | apply kept_ite
    | simp only [kept_mk_iff]

theorem enqueue_kept {s0 : State} {f : Nat} {r : Nat} {s : State} (hs : Kept s0 s) :
    Kept s0 (enqueue f r s) := by
  unfold enqueue
  try dsimp only
  repeat' first
    | intro _
    | with_reducible first
      | assumption | apply modFlow_kept | apply qstPeak_kept | apply xoffUpdate_kept
    | simp only [kept_mk_iff]

theorem dequeue_kept {s0 : State} {f : Nat} {r : Nat} {s : State} (hs : Kept s0 s) :
    Kept s0 (dequeue f r s) := by
  unfold dequeue
  try dsimp only
  repeat' first
    | intro _
    | with_reducible first
      | assumption | apply modFlow_kept | apply xoffUpdate_kept
    | simp only [kept_mk_iff]

theorem custLost_kept {s0 : State} {f : Nat} {r : Nat} {s : State} (hs : Kept s0 s) :
    Kept s0 (custLost f r s) := by
  unfold custLost
  try dsimp only
  repeat' first
    | with_reducible first
      | assumption | apply count_kept | apply raise_kept | apply trunkEvent_kept | apply kept_ite

theorem handback_kept {s0 : State} {f : Nat} {cause : Nat} {hbEnd : Nat} {s : State} (hs : Kept s0 s) :
    Kept s0 (handback f cause hbEnd s) := by
  unfold handback
  try dsimp only
  repeat' first
    | with_reducible first
      | assumption | apply putFlow_kept | apply countLink_kept | apply darnEvent_kept | apply kept_ite
    | simp only [kept_mk_iff]

theorem freeCopy_kept {s0 : State} {f : Nat} {r : Nat} {s : State} (hs : Kept s0 s) :
    Kept s0 (freeCopy f r s) := by
  unfold freeCopy
  try dsimp only
  repeat' first
    | intro _
    | with_reducible first
      | assumption | apply pairSet_kept | apply modFlow_kept | apply kept_ite
    | simp only [kept_mk_iff]

theorem freeCopies_kept {s0 : State} {f : Nat} {rs : List Nat} {s : State} (hs : Kept s0 s) :
    Kept s0 (freeCopies f rs s) := by
  unfold freeCopies
  try dsimp only
  repeat' first
    | intro _
    | with_reducible first
      | assumption | apply freeCopy_kept | apply kept_foldl

theorem forward_kept {s0 : State} {f : Nat} {fl : Flit} {slot : Option Nat} {s : State} (hs : Kept s0 s) :
    Kept s0 (forward f fl slot s) := by
  unfold forward
  try dsimp only
  repeat' first
    | intro _
    | with_reducible first
      | assumption | apply putFlow_kept | apply pairSet_kept | apply countLink_kept | apply modFlow_kept
      | apply darnEvent_kept | apply allocFlow_kept | apply kept_ite | exact keptOpt_none | apply keptOpt_ite
    | simp only [kept_mk_iff]
    | split
    | with_reducible first
      | (apply kept_pair; assumption) | (apply kept_opt; assumption) | (apply kept_triple; assumption)

theorem darnNew_kept {s0 : State} {f : Nat} {fl : Flit} {s : State} (hs : Kept s0 s) :
    Kept s0 (darnNew f fl s) := by
  unfold darnNew
  try dsimp only
  repeat' first
    | intro _
    | with_reducible first
      | assumption | apply count64_kept | apply countLink_kept | apply modFlow_kept | apply allocFlow_kept
      | apply handback_kept | apply forward_kept | apply kept_ite | exact keptOpt_none | apply keptOpt_ite
    | simp only [kept_mk_iff]
    | split
    | with_reducible first
      | (apply kept_pair; assumption) | (apply kept_opt; assumption) | (apply kept_triple; assumption)

theorem darnDuplicate_kept {s0 : State} {f : Nat} {fl : Flit} {s : State} (hs : Kept s0 s) :
    Kept s0 (darnDuplicate f fl s) := by
  unfold darnDuplicate
  try dsimp only
  repeat' first
    | intro _
    | with_reducible first
      | assumption | apply countLink_kept | apply refreshAck_kept | apply forward_kept | apply kept_ite
      | exact keptOpt_none | apply keptOpt_ite
    | simp only [kept_mk_iff]
    | split
    | with_reducible first
      | (apply kept_pair; assumption) | (apply kept_opt; assumption) | (apply kept_triple; assumption)

theorem fifoArrive_kept {s0 : State} {f : Nat} {fl : Flit} {s : State} (hs : Kept s0 s) :
    Kept s0 (fifoArrive f fl s) := by
  unfold fifoArrive
  try dsimp only
  repeat' first
    | with_reducible first
      | assumption | apply putFlow_kept | apply countLink_kept | apply writingFreed_kept | apply handback_kept
      | apply forward_kept | apply darnNew_kept | apply darnDuplicate_kept | apply kept_ite
    | simp only [kept_mk_iff]

theorem darnAdvance_kept {s0 : State} {f : Nat} {a : Nat} {s : State} (hs : Kept s0 s) :
    Kept s0 (darnAdvance f a s) := by
  unfold darnAdvance
  try dsimp only
  repeat' first
    | intro _
    | with_reducible first
      | assumption | apply putFlow_kept | apply modFlow_kept | apply xoffUpdate_kept | apply freeCopies_kept
      | apply kept_ite
    | simp only [kept_mk_iff]

theorem ackRecord_kept {s0 : State} {f : Nat} {s : State} (hs : Kept s0 s) :
    Kept s0 (ackRecord f s) := by
  unfold ackRecord
  try dsimp only
  repeat' first
    | intro _
    | with_reducible first
      | assumption | apply putTrunk_kept | apply modFlow_kept | apply postRec_kept | apply kept_ite
      | exact keptOpt_none | apply keptOpt_ite
    | simp only [kept_mk_iff]
    | split
    | with_reducible first
      | (apply kept_pair; assumption) | (apply kept_opt; assumption) | (apply kept_triple; assumption)

theorem darnObserve_kept {s0 : State} {f : Nat} {a : AckSet} {s : State} (hs : Kept s0 s) :
    Kept s0 (darnObserve f a s) := by
  unfold darnObserve
  try dsimp only
  repeat' first
    | with_reducible first
      | assumption | apply putFlow_kept | apply countLink_kept | apply darnAdvance_kept | apply ackRecord_kept
      | apply kept_ite | exact keptOpt_none | apply keptOpt_ite
    | simp only [kept_mk_iff]
    | split
    | with_reducible first
      | (apply kept_pair; assumption) | (apply kept_opt; assumption) | (apply kept_triple; assumption)

theorem darnGiveUp_kept {s0 : State} {f : Nat} {s : State} (hs : Kept s0 s) :
    Kept s0 (darnGiveUp f s) := by
  unfold darnGiveUp
  try dsimp only
  repeat' first
    | intro _
    | with_reducible first
      | assumption | apply countLink_kept | apply darnEvent_kept | apply handback_kept | apply freeCopies_kept

theorem darnExpire_kept {s0 : State} {f : Nat} {s : State} (hs : Kept s0 s) :
    Kept s0 (darnExpire f s) := by
  unfold darnExpire
  try dsimp only
  repeat' first
    | intro _
    | with_reducible first
      | assumption | apply modFlow_kept | apply darnGiveUp_kept | apply kept_ite | exact keptOpt_none
      | apply keptOpt_ite
    | simp only [kept_mk_iff]
    | split
    | with_reducible first
      | (apply kept_pair; assumption) | (apply kept_opt; assumption) | (apply kept_triple; assumption)

theorem startRun_kept {s0 : State} {f : Nat} {s : State} (hs : Kept s0 s) :
    Kept s0 (startRun f s) := by
  unfold startRun
  try dsimp only
  repeat' first
    | intro _
    | with_reducible first
      | assumption | apply count_kept | apply putFlow_kept | apply pairSet_kept | apply countLink_kept
      | apply kept_ite | apply kept_foldl | exact keptOpt_none | apply keptOpt_ite
    | simp only [kept_mk_iff]
    | split
    | with_reducible first
      | (apply kept_pair; assumption) | (apply kept_opt; assumption) | (apply kept_triple; assumption)

theorem endRun_kept {s0 : State} {f : Nat} {s : State} (hs : Kept s0 s) :
    Kept s0 (endRun f s) := by
  unfold endRun
  try dsimp only
  repeat' first
    | intro _
    | with_reducible first
      | assumption | apply putFlow_kept | apply pairSet_kept | apply kept_ite | apply kept_foldl
    | simp only [kept_mk_iff]

theorem freezeFlow_kept {s0 : State} {f : Nat} {txStops : Bool} {s : State} (hs : Kept s0 s) :
    Kept s0 (freezeFlow f txStops s) := by
  unfold freezeFlow
  try dsimp only
  repeat' first
    | intro _
    | with_reducible first
      | assumption | apply modFlow_kept | apply endRun_kept | apply kept_ite | exact keptOpt_none
      | apply keptOpt_ite
    | simp only [kept_mk_iff]
    | split
    | with_reducible first
      | (apply kept_pair; assumption) | (apply kept_opt; assumption) | (apply kept_triple; assumption)

theorem thawFlow_kept {s0 : State} {f : Nat} {s : State} (hs : Kept s0 s) :
    Kept s0 (thawFlow f s) := by
  unfold thawFlow
  try dsimp only
  repeat' first
    | with_reducible first
      | assumption | apply putFlow_kept | apply kept_ite | exact keptOpt_none | apply keptOpt_ite
    | simp only [kept_mk_iff]
    | split
    | with_reducible first
      | (apply kept_pair; assumption) | (apply kept_opt; assumption) | (apply kept_triple; assumption)

theorem dropFlow_kept {s0 : State} {f : Nat} {lost : Bool} {s : State} (hs : Kept s0 s) :
    Kept s0 (dropFlow f lost s) := by
  unfold dropFlow
  try dsimp only
  repeat' first
    | intro _
    | with_reducible first
      | assumption | apply putFlow_kept | apply slotFree_kept | apply custLost_kept | apply kept_ite
      | apply kept_foldl

theorem startSeq_kept {s0 : State} {f : Nat} {s : State} (hs : Kept s0 s) :
    Kept s0 (startSeq f s) := by
  unfold startSeq
  try dsimp only
  repeat' first
    | intro _
    | with_reducible first
      | assumption | apply modFlow_kept
    | simp only [kept_mk_iff]

theorem startDarn_kept {s0 : State} {f : Nat} {s : State} (hs : Kept s0 s) :
    Kept s0 (startDarn f s) := by
  unfold startDarn
  try dsimp only
  repeat' first
    | intro _
    | with_reducible first
      | assumption | apply modFlow_kept | apply kept_ite
    | simp only [kept_mk_iff]

theorem startFlow_kept {s0 : State} {f : Nat} {s : State} (hs : Kept s0 s) :
    Kept s0 (startFlow f s) := by
  unfold startFlow
  try dsimp only
  repeat' first
    | with_reducible first
      | assumption | apply startSeq_kept | apply startDarn_kept

theorem undarnFlow_kept {s0 : State} {f : Nat} {s : State} (hs : Kept s0 s) :
    Kept s0 (undarnFlow f s) := by
  unfold undarnFlow
  try dsimp only
  repeat' first
    | intro _
    | with_reducible first
      | assumption | apply modFlow_kept | apply freeCopies_kept | apply kept_ite
    | simp only [kept_mk_iff]

end Sys2Proof.Machine
end

