-- ==== Sys2Proof/Laws/KeptTrunks.lean ====
section
/-! SUPPORT. What the operations of Machine/Trunks.lean keep (`Kept`). -/

namespace Sys2Proof.Machine

theorem modTrunk_kept {s0 : State} {s : State} {t : Nat} {g : TrunkSt → TrunkSt} (hs : Kept s0 s) :
    Kept s0 (State.modTrunk s t g) := by
  unfold State.modTrunk
  try dsimp only
  repeat' first
    | with_reducible first
      | assumption | apply putTrunk_kept

theorem countTrunk_kept {s0 : State} {t : Nat} {link : Nat → Fld} {cal : Nat → Nat → Fld} {s : State} (hs : Kept s0 s) :
    Kept s0 (countTrunk t link cal s) := by
  unfold countTrunk
  try dsimp only
  repeat' first
    | with_reducible first
      | assumption | apply count_kept | apply kept_ite

theorem countCal_kept {s0 : State} {t : Nat} {c : Nat → Nat → Fld} {s : State} (hs : Kept s0 s) :
    Kept s0 (countCal t c s) := by
  unfold countCal
  try dsimp only
  repeat' first
    | with_reducible first
      | assumption | apply count_kept | apply kept_ite

theorem number_kept {s0 : State} {t : Nat} {r : Nat} {s : State} (hs : Kept s0 s) :
    Kept s0 (number t r s) := by
  unfold number
  try dsimp only
  repeat' first
    | intro _
    | with_reducible first
      | assumption | apply count64_kept | apply putTrunk_kept | apply pairSet_kept | apply kept_ite
    | simp only [kept_mk_iff]

theorem freeNumber_kept {s0 : State} {t : Nat} {r : Nat} {s : State} (hs : Kept s0 s) :
    Kept s0 (freeNumber t r s) := by
  unfold freeNumber
  try dsimp only
  repeat' first
    | intro _
    | with_reducible first
      | assumption | apply pairSet_kept | apply modTrunk_kept | apply kept_ite
    | simp only [kept_mk_iff]

theorem freeCovered_kept {s0 : State} {t : Nat} {a : Nat} {s : State} (hs : Kept s0 s) :
    Kept s0 (freeCovered t a s).2 := by
  unfold freeCovered
  try dsimp only
  repeat' first
    | intro _
    | with_reducible first
      | assumption | apply modTrunk_kept | apply freeNumber_kept | apply kept_ite | apply kept_ite2
      | apply kept_foldl
    | simp only [kept_mk_iff]

theorem setRun_kept {s0 : State} {t : Nat} {q : List Nat} {s : State} (hs : Kept s0 s) :
    Kept s0 (setRun t q s) := by
  unfold setRun
  try dsimp only
  repeat' first
    | intro _
    | with_reducible first
      | assumption | apply pairSet_kept | apply modTrunk_kept | apply kept_foldl
    | simp only [kept_mk_iff]

theorem trunkRun_kept {s0 : State} {t : Nat} {from_ : Option Nat} {s : State} (hs : Kept s0 s) :
    Kept s0 (trunkRun t from_ s) := by
  unfold trunkRun
  try dsimp only
  repeat' first
    | intro _
    | with_reducible first
      | assumption | apply setRun_kept
    | simp only [kept_mk_iff]
    | split
    | with_reducible first
      | (apply kept_pair; assumption) | (apply kept_opt; assumption) | (apply kept_triple; assumption)

theorem drnAck_kept {s0 : State} {t : Nat} {a : Nat} {s : State} (hs : Kept s0 s) :
    Kept s0 (drnAck t a s) := by
  unfold drnAck
  try dsimp only
  repeat' first
    | with_reducible first
      | assumption | apply count_kept | apply freeCovered_kept | apply kept_ite
    | simp only [kept_mk_iff]
    | split
    | with_reducible first
      | (apply kept_pair; assumption) | (apply kept_opt; assumption) | (apply kept_triple; assumption)

theorem drnNak_kept {s0 : State} {t : Nat} {n : Nat} {s : State} (hs : Kept s0 s) :
    Kept s0 (drnNak t n s) := by
  unfold drnNak
  try dsimp only
  repeat' first
    | intro _
    | with_reducible first
      | assumption | apply count_kept | apply freeCovered_kept | apply trunkRun_kept | apply kept_ite
    | simp only [kept_mk_iff]
    | split
    | with_reducible first
      | (apply kept_pair; assumption) | (apply kept_opt; assumption) | (apply kept_triple; assumption)

theorem freezeTrunk_kept {s0 : State} {t : Nat} {txStops : Bool} {s : State} (hs : Kept s0 s) :
    Kept s0 (freezeTrunk t txStops s) := by
  unfold freezeTrunk
  try dsimp only
  repeat' first
    | intro _
    | with_reducible first
      | assumption | apply modTrunk_kept | apply setRun_kept | apply kept_ite
    | simp only [kept_mk_iff]

theorem thawTrunk_kept {s0 : State} {t : Nat} {s : State} (hs : Kept s0 s) :
    Kept s0 (thawTrunk t s) := by
  unfold thawTrunk
  try dsimp only
  repeat' first
    | with_reducible first
      | assumption | apply putTrunk_kept | apply trunkRun_kept | apply drnNak_kept | apply kept_ite
      | exact keptOpt_none | apply keptOpt_ite
    | simp only [kept_mk_iff]
    | split
    | with_reducible first
      | (apply kept_pair; assumption) | (apply kept_opt; assumption) | (apply kept_triple; assumption)

theorem postDrnAck_kept {s0 : State} {t : Nat} {s : State} (hs : Kept s0 s) :
    Kept s0 (postDrnAck t s) := by
  unfold postDrnAck
  try dsimp only
  repeat' first
    | intro _
    | with_reducible first
      | assumption | apply modTrunk_kept | apply drnAck_kept
    | simp only [kept_mk_iff]

theorem trunkAccepted_kept {s0 : State} {t : Nat} {s : State} (hs : Kept s0 s) :
    Kept s0 (trunkAccepted t s) := by
  unfold trunkAccepted
  try dsimp only
  repeat' first
    | with_reducible first
      | assumption | apply putTrunk_kept | apply drnAck_kept | apply postDrnAck_kept | apply kept_ite
      | exact keptOpt_none | apply keptOpt_ite
    | simp only [kept_mk_iff]
    | split
    | with_reducible first
      | (apply kept_pair; assumption) | (apply kept_opt; assumption) | (apply kept_triple; assumption)

theorem trunkExpect_kept {s0 : State} {t : Nat} {s : State} (hs : Kept s0 s) :
    Kept s0 (trunkExpect t s) := by
  unfold trunkExpect
  try dsimp only
  repeat' first
    | intro _
    | with_reducible first
      | assumption | apply modTrunk_kept
    | simp only [kept_mk_iff]

theorem postNak_kept {s0 : State} {t : Nat} {s : State} (hs : Kept s0 s) :
    Kept s0 (postNak t s) := by
  unfold postNak
  try dsimp only
  repeat' first
    | with_reducible first
      | assumption | apply putTrunk_kept | apply drnNak_kept | apply kept_ite | exact keptOpt_none
      | apply keptOpt_ite
    | simp only [kept_mk_iff]
    | split
    | with_reducible first
      | (apply kept_pair; assumption) | (apply kept_opt; assumption) | (apply kept_triple; assumption)

theorem proxyCustody_kept {s0 : State} {f : Nat} {q : Nat} {s : State} (hs : Kept s0 s) :
    Kept s0 (proxyCustody f q s) := by
  unfold proxyCustody
  try dsimp only
  repeat' first
    | with_reducible first
      | assumption | apply count_kept | apply putFlow_kept | apply postProxy_kept | apply kept_ite
      | exact keptOpt_none | apply keptOpt_ite
    | simp only [kept_mk_iff]
    | split
    | with_reducible first
      | (apply kept_pair; assumption) | (apply kept_opt; assumption) | (apply kept_triple; assumption)

theorem hold_kept {s0 : State} {f : Nat} {out : Nat} {fl : Flit} {s : State} (hs : Kept s0 s) :
    KeptOpt s0 (hold f out fl s) := by
  unfold hold
  try dsimp only
  repeat' first
    | intro _
    | with_reducible first
      | assumption | apply count64_kept | apply modFlow_kept | apply allocFlow_kept | apply qstPeak_kept
      | apply xoffUpdate_kept | apply enqueue_kept | exact keptOpt_none | apply keptOpt_some | apply keptOpt_ite
      | apply keptOpt_someP | apply kept_ite
    | simp only [kept_mk_iff]
    | split
    | with_reducible first
      | (apply kept_pair; assumption) | (apply kept_opt; assumption) | (apply kept_triple; assumption)

theorem xlpDiscard_kept {s0 : State} {f : Nat} {s : State} (hs : Kept s0 s) :
    Kept s0 (xlpDiscard f s) := by
  unfold xlpDiscard
  try dsimp only
  repeat' first
    | with_reducible first
      | assumption | apply count_kept | apply kept_ite

theorem entryQueued_kept {s0 : State} {f : Nat} {out : Nat} {fl : Flit} {s : State} (hs : Kept s0 s) :
    Kept s0 (entryQueued f out fl s) := by
  unfold entryQueued
  try dsimp only
  repeat' first
    | with_reducible first
      | assumption | apply refreshProxy_kept | apply writingFreed_kept | apply proxyCustody_kept | apply hold_kept
      | apply xlpDiscard_kept | apply kept_ite | exact keptOpt_none | apply keptOpt_ite
    | simp only [kept_mk_iff]
    | split
    | with_reducible first
      | (apply kept_pair; assumption) | (apply kept_opt; assumption) | (apply kept_triple; assumption)

theorem arrivalCustody_kept {s0 : State} {t : Nat} {f : Nat} {out : Nat} {fl : Flit} {s : State} (hs : Kept s0 s) :
    Kept s0 (arrivalCustody t f out fl s) := by
  unfold arrivalCustody
  try dsimp only
  repeat' first
    | intro _
    | with_reducible first
      | assumption | apply count_kept | apply modFlow_kept | apply trunkEvent_kept | apply countTrunk_kept
      | apply trunkAccepted_kept | apply trunkExpect_kept | apply hold_kept | apply xlpDiscard_kept
      | apply kept_ite | exact keptOpt_none | apply keptOpt_ite
    | simp only [kept_mk_iff]
    | split
    | with_reducible first
      | (apply kept_pair; assumption) | (apply kept_opt; assumption) | (apply kept_triple; assumption)

theorem tornDrop_kept {s0 : State} {l : Nat} {s : State} (hs : Kept s0 s) :
    Kept s0 (tornDrop l s) := by
  unfold tornDrop
  try dsimp only
  repeat' first
    | with_reducible first
      | assumption | apply wr_kept | apply count_kept | apply raise_kept

theorem invalDrop_kept {s0 : State} {l : Nat} {s : State} (hs : Kept s0 s) :
    Kept s0 (invalDrop l s) := by
  unfold invalDrop
  try dsimp only
  repeat' first
    | with_reducible first
      | assumption | apply count_kept

theorem countIn_kept {s0 : State} {l : Nat} {e : Nat} {s : State} (hs : Kept s0 s) :
    Kept s0 (countIn l e s) := by
  unfold countIn
  try dsimp only
  repeat' first
    | with_reducible first
      | assumption | apply count_kept | apply kept_ite

theorem applyRecord_kept {s0 : State} {t : Nat} {b : List Nat} {s : State} {j : Nat} (hs : Kept s0 s) :
    Kept s0 (applyRecord t b s j) := by
  unfold applyRecord
  try dsimp only
  repeat' first
    | intro _
    | with_reducible first
      | assumption | apply putLl_kept | apply modFlow_kept | apply countCal_kept | apply kept_ite
      | exact keptOpt_none | apply keptOpt_ite
    | simp only [kept_mk_iff]
    | split
    | with_reducible first
      | (apply kept_pair; assumption) | (apply kept_opt; assumption) | (apply kept_triple; assumption)

theorem controlFlit_kept {s0 : State} {t : Nat} {b : List Nat} {s : State} (hs : Kept s0 s) :
    Kept s0 (controlFlit t b s) := by
  unfold controlFlit
  try dsimp only
  repeat' first
    | intro _
    | with_reducible first
      | assumption | apply countCal_kept | apply trunkAccepted_kept | apply applyRecord_kept | apply kept_ite
      | apply kept_foldl

theorem owedAcks_kept {s0 : State} {t : Nat} {s : State} (hs : Kept s0 s) :
    Kept s0 (owedAcks t s) := by
  unfold owedAcks
  try dsimp only
  repeat' first
    | intro _
    | with_reducible first
      | assumption | apply ackRecord_kept | apply kept_ite | apply kept_foldl

theorem calAdvance_kept {s0 : State} {c : Nat} {s : State} (hs : Kept s0 s) :
    Kept s0 (calAdvance c s) := by
  unfold calAdvance
  try dsimp only
  repeat' first
    | with_reducible first
      | assumption | apply putTrunk_kept | apply kept_ite
    | simp only [kept_mk_iff]

theorem calFault_kept {s0 : State} {c : Nat} {cause : Nat} {s : State} (hs : Kept s0 s) :
    Kept s0 (calFault c cause s) := by
  unfold calFault
  try dsimp only
  repeat' first
    | with_reducible first
      | assumption | apply wr_kept | apply count_kept | apply raise_kept | apply putTrunk_kept
      | apply calAdvance_kept
    | simp only [kept_mk_iff]

theorem calWalk_kept {s0 : State} {c : Nat} {x0 : Nat} {x1 : State} (hx1 : Kept s0 x1) :
    Kept s0 (calWalk c x0 x1).2 := by
  induction x0 generalizing x1 with
  | zero =>
    unfold calWalk
    try dsimp only
    repeat' first
      | with_reducible first
        | assumption | apply putTrunk_kept | apply calAdvance_kept | apply calFault_kept | apply kept_ite
        | apply kept_ite2 | exact keptOpt_none | apply keptOpt_ite
      | simp only [kept_mk_iff]
      | split
      | with_reducible first
        | (apply kept_pair; assumption) | (apply kept_opt; assumption) | (apply kept_triple; assumption)
  | succ n ih =>
    unfold calWalk
    try dsimp only
    repeat' first
      | with_reducible first
        | assumption | apply ih | apply putTrunk_kept | apply calAdvance_kept | apply calFault_kept | apply kept_ite
        | apply kept_ite2 | exact keptOpt_none | apply keptOpt_ite
      | simp only [kept_mk_iff]
      | split
      | with_reducible first
        | (apply kept_pair; assumption) | (apply kept_opt; assumption) | (apply kept_triple; assumption)

theorem calChoose_kept {s0 : State} {c : Nat} {s : State} (hs : Kept s0 s) :
    Kept s0 (calChoose c s).2 := by
  unfold calChoose
  try dsimp only
  repeat' first
    | with_reducible first
      | assumption | apply calWalk_kept | apply kept_ite | apply kept_ite2

theorem startTrunk_kept {s0 : State} {k : Nat} {sd : Side} {s : State} (hs : Kept s0 s) :
    Kept s0 (startTrunk k sd s) := by
  unfold startTrunk
  try dsimp only
  repeat' first
    | intro _
    | with_reducible first
      | assumption | apply putTrunk_kept | apply postRec_kept | apply postTrunkAck_kept | apply modTrunk_kept
      | apply kept_ite | apply kept_foldl
    | simp only [kept_mk_iff]

theorem stopTrunk_kept {s0 : State} {k : Nat} {sd : Side} {s : State} (hs : Kept s0 s) :
    Kept s0 (stopTrunk k sd s) := by
  unfold stopTrunk
  try dsimp only
  repeat' first
    | intro _
    | with_reducible first
      | assumption | apply wr_kept | apply putTrunk_kept | apply slotFree_kept | apply custLost_kept
      | apply kept_ite | apply kept_foldl

end Sys2Proof.Machine
end

