-- ==== Sys2Proof/Laws/KeptSpanOps.lean ====
section
/-! SUPPORT. What the operations of Machine/SpanOps.lean keep (`Kept`). -/

namespace Sys2Proof.Machine

theorem electSync_kept {s0 : State} {g : List (Nat × Side)} {s : State} (hs : Kept s0 s) :
    Kept s0 (electSync g s) := by
  unfold electSync
  try dsimp only
  repeat' first
    | intro _
    | with_reducible first
      | assumption | apply wr_kept | apply wrB_kept | apply kept_foldl

theorem electDraw_kept {s0 : State} {g : List (Nat × Side)} {s : State} (hs : Kept s0 s) :
    Kept s0 (electDraw g s) := by
  unfold electDraw
  try dsimp only
  repeat' first
    | intro _
    | with_reducible first
      | assumption | apply draw_kept | apply putSpan_kept | apply electSync_kept | apply kept_foldl
    | simp only [kept_mk_iff]
    | with_reducible first
      | (apply kept_pair; assumption) | (apply kept_opt; assumption) | (apply kept_triple; assumption)

theorem postTrn_kept {s0 : State} {k : Nat} {sd : Side} {t : TrnSet} {s : State} (hs : Kept s0 s) :
    Kept s0 (postTrn k sd t s) := by
  unfold postTrn
  try dsimp only
  repeat' first
    | with_reducible first
      | assumption | apply putSide_kept
    | simp only [kept_mk_iff]

end Sys2Proof.Machine
end

