-- ==== Sys2Proof/Laws/KeptSched.lean ====
section
/-! SUPPORT. What the operations of Machine/Sched.lean keep (`Kept`). -/

namespace Sys2Proof.Machine

theorem readPair_kept {s0 : State} {r : Nat} {region : Nat} {r1 : EccRead} {r2 : EccRead} {s : State} (hs : Kept s0 s) :
    Kept s0 (readPair r region r1 r2 s).2 := by
  unfold readPair
  try dsimp only
  repeat' first
    | with_reducible first
      | assumption | apply readSlot_kept | apply kept_ite | apply kept_ite2 | exact keptOpt_none
      | apply keptOpt_ite
    | simp only [kept_mk_iff]
    | split
    | with_reducible first
      | (apply kept_pair; assumption) | (apply kept_opt; assumption) | (apply kept_triple; assumption)

theorem loseFlit_kept {s0 : State} {f : Nat} {r : Nat} {s : State} (hs : Kept s0 s) :
    Kept s0 (loseFlit f r s) := by
  unfold loseFlit
  try dsimp only
  repeat' first
    | with_reducible first
      | assumption | apply count_kept | apply custLost_kept | apply handback_kept | apply freeCopy_kept
      | apply kept_ite

theorem loseFrom_kept {s0 : State} {f : Nat} {r : Nat} {desc : Bool} {s : State} (hs : Kept s0 s) :
    Kept s0 (loseFrom f r desc s) := by
  unfold loseFrom
  try dsimp only
  repeat' first
    | intro _
    | with_reducible first
      | assumption | apply loseFlit_kept | apply kept_ite | apply kept_foldl

theorem slotSent_kept {s0 : State} {r : Nat} {s : State} (hs : Kept s0 s) :
    Kept s0 (slotSent r s) := by
  unfold slotSent
  try dsimp only
  repeat' first
    | intro _
    | with_reducible first
      | assumption | apply putSlot_kept | apply sendingEnds_kept
    | simp only [kept_mk_iff]
    | split
    | with_reducible first
      | (apply kept_pair; assumption) | (apply kept_opt; assumption) | (apply kept_triple; assumption)

theorem timerRestart_kept {s0 : State} {r : Nat} {s : State} (hs : Kept s0 s) :
    Kept s0 (timerRestart r s) := by
  unfold timerRestart
  exact kept_trunks (kept_flows hs fun x => Tbl.wf_mapVals _ x) fun x => Tbl.wf_mapVals _ x

theorem itemDone_kept {s0 : State} {k : Nat} {sd : Side} {s : State} (hs : Kept s0 s) :
    Kept s0 (itemDone k sd s) := by
  unfold itemDone
  try dsimp only
  repeat' first
    | intro _
    | with_reducible first
      | assumption | apply putSide_kept | apply txBoundary_kept | apply modFlow_kept | apply modTrunk_kept
      | apply slotSent_kept | apply timerRestart_kept | apply kept_ite | apply kept_foldl | exact keptOpt_none
      | apply keptOpt_ite
    | simp only [kept_mk_iff]
    | split
    | with_reducible first
      | (apply kept_pair; assumption) | (apply kept_opt; assumption) | (apply kept_triple; assumption)

theorem txSends_kept {s0 : State} {n : Nat} {sd : Side} {syms : List Sym} {s : State} (hs : Kept s0 s) :
    Kept s0 (txSends n sd syms s) := by
  unfold txSends
  try dsimp only
  repeat' first
    | with_reducible first
      | assumption | apply putTx_kept | apply kept_ite
    | simp only [kept_mk_iff]

theorem spareSends_kept {s0 : State} {k : Nat} {sd : Side} {ls : List (List Sym)} {s : State} {c : Nat} (hs : Kept s0 s) :
    Kept s0 (spareSends k sd ls s c) := by
  unfold spareSends
  try dsimp only
  repeat' first
    | with_reducible first
      | assumption | apply putBob_kept | apply txSends_kept | apply kept_ite | exact keptOpt_none
      | apply keptOpt_ite
    | simp only [kept_mk_iff]
    | split
    | with_reducible first
      | (apply kept_pair; assumption) | (apply kept_opt; assumption) | (apply kept_triple; assumption)

theorem itemStart_kept {s0 : State} {k : Nat} {sd : Side} {i : Item} {s : State} (hs : Kept s0 s) :
    Kept s0 (itemStart k sd i s) := by
  unfold itemStart
  try dsimp only
  repeat' first
    | intro _
    | with_reducible first
      | assumption | apply putSide_kept | apply txSends_kept | apply spareSends_kept | apply kept_ite
      | apply kept_foldl
    | simp only [kept_mk_iff]
    | split
    | with_reducible first
      | (apply kept_pair; assumption) | (apply kept_opt; assumption) | (apply kept_triple; assumption)

theorem eieRest_kept {s0 : State} {sd : Side} {s : State} {n : Nat} (hs : Kept s0 s) :
    Kept s0 (eieRest sd s n) := by
  unfold eieRest
  try dsimp only
  repeat' first
    | with_reducible first
      | assumption | apply putTx_kept | apply txSends_kept
    | simp only [kept_mk_iff]

theorem markSending_kept {s0 : State} {r : Nat} {s : State} (hs : Kept s0 s) :
    Kept s0 (markSending r s) := by
  unfold markSending
  try dsimp only
  repeat' first
    | with_reducible first
      | assumption | apply putSlot_kept
    | simp only [kept_mk_iff]

theorem countForward_kept {s0 : State} {f : Nat} {out : Nat} {poison : Bool} {s : State} (hs : Kept s0 s) :
    Kept s0 (countForward f out poison s) := by
  unfold countForward
  try dsimp only
  repeat' first
    | with_reducible first
      | assumption | apply count_kept | apply count64_kept | apply kept_ite

theorem countReplayed_kept {s0 : State} {f : Nat} {s : State} (hs : Kept s0 s) :
    Kept s0 (countReplayed f s) := by
  unfold countReplayed
  try dsimp only
  repeat' first
    | with_reducible first
      | assumption | apply count_kept | apply kept_ite

theorem sendReplay_kept {s0 : State} {f : Nat} {r : Nat} {r1 : EccRead} {r2 : EccRead} {s : State} (hs : Kept s0 s) :
    Kept s0 (sendReplay f r r1 r2 s).2 := by
  unfold sendReplay
  try dsimp only
  repeat' first
    | intro _
    | with_reducible first
      | assumption | apply pairSet_kept | apply modFlow_kept | apply xoffUpdate_kept | apply readPair_kept
      | apply loseFrom_kept | apply markSending_kept | apply countForward_kept | apply countReplayed_kept
      | apply kept_ite | apply kept_ite2 | exact keptOpt_none | apply keptOpt_ite
    | simp only [kept_mk_iff]
    | split
    | with_reducible first
      | (apply kept_pair; assumption) | (apply kept_opt; assumption) | (apply kept_triple; assumption)

theorem sendQueued_kept {s0 : State} {f : Nat} {r : Nat} {word : Nat} {r1 : EccRead} {r2 : EccRead} {s : State} (hs : Kept s0 s) :
    Kept s0 (sendQueued f r word r1 r2 s).2 := by
  unfold sendQueued
  try dsimp only
  repeat' first
    | intro _
    | with_reducible first
      | assumption | apply pairSet_kept | apply xoffUpdate_kept | apply dequeue_kept | apply readPair_kept
      | apply loseFrom_kept | apply markSending_kept | apply countForward_kept
    | simp only [kept_mk_iff]
    | split
    | with_reducible first
      | (apply kept_pair; assumption) | (apply kept_opt; assumption) | (apply kept_triple; assumption)

theorem sendFifo_kept {s0 : State} {f : Nat} {e : FifoEnt} {s : State} (hs : Kept s0 s) :
    Kept s0 (sendFifo f e s).2 := by
  unfold sendFifo
  try dsimp only
  repeat' first
    | with_reducible first
      | assumption | apply markSending_kept | apply countForward_kept
    | simp only [kept_mk_iff]
    | split
    | with_reducible first
      | (apply kept_pair; assumption) | (apply kept_opt; assumption) | (apply kept_triple; assumption)

theorem loseNumbered_kept {s0 : State} {t : Nat} {r : Nat} {desc : Bool} {s : State} (hs : Kept s0 s) :
    Kept s0 (loseNumbered t r desc s) := by
  unfold loseNumbered
  try dsimp only
  repeat' first
    | intro _
    | with_reducible first
      | assumption | apply custLost_kept | apply freeNumber_kept | apply kept_ite | apply kept_foldl

theorem loseSlot_kept {s0 : State} {r : Nat} {desc : Bool} {s : State} (hs : Kept s0 s) :
    Kept s0 (loseSlot r desc s) := by
  unfold loseSlot
  try dsimp only
  repeat' first
    | intro _
    | with_reducible first
      | assumption | apply xoffUpdate_kept | apply loseFrom_kept | apply loseNumbered_kept
    | simp only [kept_mk_iff]
    | split
    | with_reducible first
      | (apply kept_pair; assumption) | (apply kept_opt; assumption) | (apply kept_triple; assumption)

theorem sendRun_kept {s0 : State} {t : Nat} {r : Nat} {r1 : EccRead} {r2 : EccRead} {s : State} (hs : Kept s0 s) :
    Kept s0 (sendRun t r r1 r2 s).2 := by
  unfold sendRun
  try dsimp only
  repeat' first
    | intro _
    | with_reducible first
      | assumption | apply pairSet_kept | apply modTrunk_kept | apply countTrunk_kept | apply readPair_kept
      | apply markSending_kept | apply loseNumbered_kept | apply kept_ite | apply kept_ite2 | exact keptOpt_none
      | apply keptOpt_ite
    | simp only [kept_mk_iff]
    | split
    | with_reducible first
      | (apply kept_pair; assumption) | (apply kept_opt; assumption) | (apply kept_triple; assumption)

theorem sendNumbered_kept {s0 : State} {t : Nat} {f : Nat} {r : Nat} {r1 : EccRead} {r2 : EccRead} {s : State} (hs : Kept s0 s) :
    Kept s0 (sendNumbered t f r r1 r2 s).2 := by
  unfold sendNumbered
  try dsimp only
  repeat' first
    | with_reducible first
      | assumption | apply number_kept | apply sendQueued_kept | apply kept_ite | apply kept_ite2
      | exact keptOpt_none | apply keptOpt_ite
    | simp only [kept_mk_iff]
    | split
    | with_reducible first
      | (apply kept_pair; assumption) | (apply kept_opt; assumption) | (apply kept_triple; assumption)

theorem sendControl_kept {s0 : State} {t : Nat} {s : State} (hs : Kept s0 s) :
    KeptOpt s0 (sendControl t s) := by
  unfold sendControl
  try dsimp only
  repeat' first
    | intro _
    | with_reducible first
      | assumption | apply allocPair_kept | apply modTrunk_kept | apply countCal_kept | apply number_kept
      | apply markSending_kept | exact keptOpt_none | apply keptOpt_some | apply keptOpt_ite | apply keptOpt_someP
      | apply kept_ite
    | simp only [kept_mk_iff]
    | split
    | with_reducible first
      | (apply kept_pair; assumption) | (apply kept_opt; assumption) | (apply kept_triple; assumption)

theorem trunkFlit_kept {s0 : State} {k : Nat} {sd : Side} {r1 : EccRead} {r2 : EccRead} {s : State} (hs : Kept s0 s) :
    Kept s0 (trunkFlit k sd r1 r2 s).2 := by
  unfold trunkFlit
  try dsimp only
  repeat' first
    | with_reducible first
      | assumption | apply calChoose_kept | apply sendRun_kept | apply sendNumbered_kept | apply sendControl_kept
      | apply kept_ite | apply kept_ite2 | exact keptOpt_none | apply keptOpt_ite
    | simp only [kept_mk_iff]
    | split
    | with_reducible first
      | (apply kept_pair; assumption) | (apply kept_opt; assumption) | (apply kept_triple; assumption)

theorem nextFlit_kept {s0 : State} {k : Nat} {sd : Side} {r1 : EccRead} {r2 : EccRead} {s : State} (hs : Kept s0 s) :
    Kept s0 (nextFlit k sd r1 r2 s).2 := by
  unfold nextFlit
  try dsimp only
  repeat' first
    | intro _
    | with_reducible first
      | assumption | apply startRun_kept | apply sendReplay_kept | apply sendQueued_kept | apply sendFifo_kept
      | apply trunkFlit_kept | apply kept_ite | apply kept_ite2 | apply kept_foldl | exact keptOpt_none
      | apply keptOpt_ite
    | simp only [kept_mk_iff]
    | split
    | with_reducible first
      | (apply kept_pair; assumption) | (apply kept_opt; assumption) | (apply kept_triple; assumption)

theorem drnStarts_kept {s0 : State} {t : Nat} {d : DrnSet} {s : State} (hs : Kept s0 s) :
    Kept s0 (drnStarts t d s) := by
  unfold drnStarts
  try dsimp only
  repeat' first
    | intro _
    | with_reducible first
      | assumption | apply modTrunk_kept | apply countTrunk_kept | apply drnAck_kept | apply drnNak_kept
    | simp only [kept_mk_iff]
    | split
    | with_reducible first
      | (apply kept_pair; assumption) | (apply kept_opt; assumption) | (apply kept_triple; assumption)

theorem ackStarts_kept {s0 : State} {k : Nat} {sd : Side} {a : AckSet} {s : State} (hs : Kept s0 s) :
    Kept s0 (ackStarts k sd a s) := by
  unfold ackStarts
  try dsimp only
  repeat' first
    | intro _
    | with_reducible first
      | assumption | apply modFlow_kept | apply kept_ite | apply kept_foldl
    | simp only [kept_mk_iff]

theorem chooseItem_kept {s0 : State} {k : Nat} {sd : Side} {r1 : EccRead} {r2 : EccRead} {s : State} (hs : Kept s0 s) :
    Kept s0 (chooseItem k sd r1 r2 s) := by
  unfold chooseItem
  try dsimp only
  repeat' first
    | with_reducible first
      | assumption | apply bump_kept | apply putSpan_kept | apply putSide_kept | apply itemStart_kept
      | apply nextFlit_kept | apply drnStarts_kept | apply ackStarts_kept | apply kept_ite | exact keptOpt_none
      | apply keptOpt_ite
    | simp only [kept_mk_iff]
    | split
    | with_reducible first
      | (apply kept_pair; assumption) | (apply kept_opt; assumption) | (apply kept_triple; assumption)

theorem syncFreeze_kept {s0 : State} {k : Nat} {sd : Side} {s : State} (hs : Kept s0 s) :
    Kept s0 (syncFreeze k sd s) := by
  unfold syncFreeze
  try dsimp only
  repeat' first
    | intro _
    | with_reducible first
      | assumption | apply freezeFlow_kept | apply thawFlow_kept | apply freezeTrunk_kept | apply thawTrunk_kept
      | apply kept_ite | apply kept_foldl

theorem syncCluster_kept {s0 : State} {c : Nat} {s : State} (hs : Kept s0 s) :
    Kept s0 (syncCluster c s) := by
  unfold syncCluster
  try dsimp only
  repeat' first
    | intro _
    | with_reducible first
      | assumption | apply syncFreeze_kept | apply kept_foldl

theorem intrEnd_kept {s0 : State} {c : Nat} {at_ : Option Nat} {s : State} (hs : Kept s0 s) :
    Kept s0 (intrEnd c at_ s) := by
  unfold intrEnd
  try dsimp only
  repeat' first
    | with_reducible first
      | assumption | apply wr_kept | apply putBob_kept | apply syncCluster_kept | apply kept_ite
      | exact keptOpt_none | apply keptOpt_ite
    | simp only [kept_mk_iff]
    | split
    | with_reducible first
      | (apply kept_pair; assumption) | (apply kept_opt; assumption) | (apply kept_triple; assumption)

theorem nbrSwitched_kept {s0 : State} {s : State} (hs : Kept s0 s) :
    Kept s0 (nbrSwitched s) := by
  unfold nbrSwitched
  try dsimp only
  repeat' first
    | intro _
    | with_reducible first
      | assumption | apply intrEnd_kept | apply kept_ite | apply kept_foldl | exact keptOpt_none
      | apply keptOpt_ite
    | simp only [kept_mk_iff]
    | split
    | with_reducible first
      | (apply kept_pair; assumption) | (apply kept_opt; assumption) | (apply kept_triple; assumption)

theorem linkDropTraffic_kept {s0 : State} {k : Nat} {s : State} (hs : Kept s0 s) :
    Kept s0 (linkDropTraffic k s) := by
  unfold linkDropTraffic
  try dsimp only
  repeat' first
    | intro _
    | with_reducible first
      | assumption | apply putSide_kept | apply dropFlow_kept | apply stopTrunk_kept | apply kept_ite
      | apply kept_foldl
    | simp only [kept_mk_iff]

theorem linkStart_kept {s0 : State} {k : Nat} {s : State} (hs : Kept s0 s) :
    Kept s0 (linkStart k s) := by
  unfold linkStart
  try dsimp only
  repeat' first
    | intro _
    | with_reducible first
      | assumption | apply startSeq_kept | apply startDarn_kept | apply startTrunk_kept | apply kept_ite
      | apply kept_foldl

end Sys2Proof.Machine
end

