-- ==== Sys2Proof/Laws/KeptPatterns.lean ====
section
/-! SUPPORT. What the operations of Machine/Patterns.lean keep (`Kept`). -/

namespace Sys2Proof.Machine

theorem genTick_kept {s0 : State} {s : State} {n : Nat} {sd : Side} (hs : Kept s0 s) :
    Kept s0 (genTick s n sd) := by
  unfold genTick
  try dsimp only
  repeat' first
    | with_reducible first
      | assumption | apply putTx_kept | apply kept_ite | exact keptOpt_none | apply keptOpt_ite
    | simp only [kept_mk_iff]
    | split
    | with_reducible first
      | (apply kept_pair; assumption) | (apply kept_opt; assumption) | (apply kept_triple; assumption)

theorem genTicks_kept {s0 : State} {s : State} (hs : Kept s0 s) :
    Kept s0 (genTicks s) := by
  unfold genTicks
  try dsimp only
  repeat' first
    | intro _
    | with_reducible first
      | assumption | apply genTick_kept | apply kept_foldl

end Sys2Proof.Machine
end

