-- ==== Sys2Proof/Laws/KeptClockOps.lean ====
section
/-! SUPPORT. What the operations of Machine/ClockOps.lean keep (`Kept`). -/

namespace Sys2Proof.Machine

theorem rxAgain_kept {s0 : State} {n : Nat} {sd : Side} {s : State} (hs : Kept s0 s) :
    Kept s0 (rxAgain n sd s) := by
  unfold rxAgain
  try dsimp only
  repeat' first
    | with_reducible first
      | assumption | apply wr_kept | apply putRx_kept | apply adaptLeaves_kept | apply kept_ite
    | simp only [kept_mk_iff]

theorem rxRestart_kept {s0 : State} {c : Nat} {d : Dir} {s : State} (hs : Kept s0 s) :
    Kept s0 (rxRestart c d s) := by
  unfold rxRestart
  try dsimp only
  repeat' first
    | intro _
    | with_reducible first
      | assumption | apply rxAgain_kept | apply kept_foldl

theorem ebReset_kept {s0 : State} {c : Nat} {d : Dir} {s : State} (hs : Kept s0 s) :
    Kept s0 (ebReset c d s) := by
  unfold ebReset
  try dsimp only
  repeat' first
    | with_reducible first
      | assumption | apply wr_kept | apply kept_ite

theorem densePost_kept {s0 : State} {c : Nat} {d : Dir} {kind : Nat} {s : State} (hs : Kept s0 s) :
    Kept s0 (densePost c d kind s) := by
  unfold densePost
  try dsimp only
  repeat' first
    | intro _
    | with_reducible first
      | assumption | apply postTrn_kept | apply kept_ite | apply kept_foldl

theorem denseAsk_kept {s0 : State} {c : Nat} {d : Dir} {request : Bool} {s : State} (hs : Kept s0 s) :
    Kept s0 (denseAsk c d request s) := by
  unfold denseAsk
  try dsimp only
  repeat' first
    | with_reducible first
      | assumption | apply wrB_kept | apply putCk_kept | apply densePost_kept | apply kept_ite
    | simp only [kept_mk_iff]

theorem setDense_kept {s0 : State} {k : Nat} {sd : Side} {on : Bool} {s : State} (hs : Kept s0 s) :
    Kept s0 (setDense k sd on s) := by
  unfold setDense
  try dsimp only
  repeat' first
    | with_reducible first
      | assumption | apply putSide_kept
    | simp only [kept_mk_iff]

theorem denseOver_kept {s0 : State} {k : Nat} {sd : Side} {s : State} (hs : Kept s0 s) :
    Kept s0 (denseOver k sd s) := by
  unfold denseOver
  try dsimp only
  repeat' first
    | intro _
    | with_reducible first
      | assumption | apply wr_kept | apply putCk_kept | apply kept_foldl
    | simp only [kept_mk_iff]

theorem testClock_kept {s0 : State} {c : Nat} {d : Dir} {rung : Nat} {s : State} (hs : Kept s0 s) :
    Kept s0 (testClock c d rung s) := by
  unfold testClock
  try dsimp only
  repeat' first
    | with_reducible first
      | assumption | apply wr_kept | apply wrB_kept | apply kept_ite

theorem standbySync_kept {s0 : State} {c : Nat} {s : State} (hs : Kept s0 s) :
    Kept s0 (standbySync c s) := by
  unfold standbySync
  try dsimp only
  repeat' first
    | intro _
    | with_reducible first
      | assumption | apply wr_kept | apply wrB_kept | apply testClock_kept | apply kept_ite | apply kept_foldl
      | exact keptOpt_none | apply keptOpt_ite
    | simp only [kept_mk_iff]
    | split
    | with_reducible first
      | (apply kept_pair; assumption) | (apply kept_opt; assumption) | (apply kept_triple; assumption)

theorem calClocks_kept {s0 : State} {s : State} (hs : Kept s0 s) :
    Kept s0 (calClocks s) := by
  unfold calClocks
  try dsimp only
  repeat' first
    | intro _
    | with_reducible first
      | assumption | apply standbySync_kept | apply kept_foldl

theorem borrowEnd_kept {s0 : State} {c : Nat} {d : Dir} {s : State} (hs : Kept s0 s) :
    Kept s0 (borrowEnd c d s) := by
  unfold borrowEnd
  try dsimp only
  repeat' first
    | with_reducible first
      | assumption | apply wr_kept | apply putCk_kept | apply standbySync_kept | apply kept_ite
    | simp only [kept_mk_iff]

theorem ebStart_kept {s0 : State} {c : Nat} {d : Dir} {s : State} (hs : Kept s0 s) :
    Kept s0 (ebStart c d s) := by
  unfold ebStart
  try dsimp only
  repeat' first
    | intro _
    | with_reducible first
      | assumption | apply putRx_kept | apply ebReset_kept | apply kept_foldl
    | simp only [kept_mk_iff]

theorem squelchTx_kept {s0 : State} {c : Nat} {d : Dir} {s : State} (hs : Kept s0 s) :
    Kept s0 (squelchTx c d s) := by
  unfold squelchTx
  try dsimp only
  repeat' first
    | intro _
    | with_reducible first
      | assumption | apply putTx_kept | apply kept_ite | apply kept_foldl
    | simp only [kept_mk_iff]

theorem symbolLost_kept {s0 : State} {c : Nat} {d : Dir} {s : State} (hs : Kept s0 s) :
    Kept s0 (symbolLost c d s) := by
  unfold symbolLost
  try dsimp only
  repeat' first
    | intro _
    | with_reducible first
      | assumption | apply putSide_kept | apply modFlow_kept | apply kept_foldl
    | simp only [kept_mk_iff]
    | split
    | with_reducible first
      | (apply kept_pair; assumption) | (apply kept_opt; assumption) | (apply kept_triple; assumption)

theorem borrowStart_kept {s0 : State} {c : Nat} {d : Dir} {s : State} (hs : Kept s0 s) :
    Kept s0 (borrowStart c d s) := by
  unfold borrowStart
  try dsimp only
  repeat' first
    | with_reducible first
      | assumption | apply wr_kept | apply count_kept | apply putCk_kept | apply dirAbort_kept
      | apply syncCluster_kept | apply rxRestart_kept | apply ebReset_kept | apply denseAsk_kept
      | apply squelchTx_kept | apply symbolLost_kept | apply kept_ite
    | simp only [kept_mk_iff]

theorem lendSync_kept {s0 : State} {c : Nat} {d : Dir} {s : State} (hs : Kept s0 s) :
    Kept s0 (lendSync c d s) := by
  unfold lendSync
  try dsimp only
  repeat' first
    | with_reducible first
      | assumption | apply wr_kept | apply denseAsk_kept | apply ebStart_kept | apply kept_ite

theorem steerOrHold_kept {s0 : State} {c : Nat} {d : Dir} {since : Nat} {s : State} (hs : Kept s0 s) :
    Kept s0 (steerOrHold c d since s) := by
  unfold steerOrHold
  try dsimp only
  repeat' first
    | with_reducible first
      | assumption | apply wr_kept | apply putCk_kept
    | simp only [kept_mk_iff]
    | split
    | with_reducible first
      | (apply kept_pair; assumption) | (apply kept_opt; assumption) | (apply kept_triple; assumption)

theorem refclkLost_kept {s0 : State} {s : State} (hs : Kept s0 s) :
    Kept s0 (refclkLost s) := by
  unfold refclkLost
  try dsimp only
  repeat' first
    | intro _
    | with_reducible first
      | assumption | apply wr_kept | apply count_kept | apply putCk_kept | apply dirAbort_kept
      | apply syncCluster_kept | apply standbySync_kept | apply steerOrHold_kept | apply kept_ite
      | apply kept_foldl
    | simp only [kept_mk_iff]

theorem holdoverJudge_kept {s0 : State} {c : Nat} {s : State} (hs : Kept s0 s) :
    Kept s0 (holdoverJudge c s) := by
  unfold holdoverJudge
  try dsimp only
  repeat' first
    | intro _
    | with_reducible first
      | assumption | apply wr_kept | apply count_kept | apply putCk_kept | apply steerOrHold_kept | apply kept_ite
      | apply kept_foldl | exact keptOpt_none | apply keptOpt_ite
    | simp only [kept_mk_iff]
    | split
    | with_reducible first
      | (apply kept_pair; assumption) | (apply kept_opt; assumption) | (apply kept_triple; assumption)

theorem steerSync_kept {s0 : State} {c : Nat} {s : State} (hs : Kept s0 s) :
    Kept s0 (steerSync c s) := by
  unfold steerSync
  try dsimp only
  repeat' first
    | intro _
    | with_reducible first
      | assumption | apply putCk_kept | apply steerOrHold_kept | apply holdoverJudge_kept | apply kept_ite
      | apply kept_foldl | exact keptOpt_none | apply keptOpt_ite
    | simp only [kept_mk_iff]
    | split
    | with_reducible first
      | (apply kept_pair; assumption) | (apply kept_opt; assumption) | (apply kept_triple; assumption)

theorem refclkBack_kept {s0 : State} {s : State} (hs : Kept s0 s) :
    Kept s0 (refclkBack s) := by
  unfold refclkBack
  try dsimp only
  repeat' first
    | intro _
    | with_reducible first
      | assumption | apply standbySync_kept | apply holdoverJudge_kept | apply kept_foldl

theorem idleClocks_kept {s0 : State} {c : Nat} {s : State} (hs : Kept s0 s) :
    Kept s0 (idleClocks c s) := by
  unfold idleClocks
  try dsimp only
  repeat' first
    | intro _
    | with_reducible first
      | assumption | apply wr_kept | apply putCk_kept | apply putCkExit_kept | apply standbySync_kept
      | apply borrowEnd_kept | apply lendSync_kept | apply kept_ite | apply kept_foldl
    | simp only [kept_mk_iff]

theorem trainMode_kept {s0 : State} {ms : List (Nat × Dir)} {c : Nat} {d : Dir} {s : State} (hs : Kept s0 s) :
    Kept s0 (trainMode ms c d s) := by
  unfold trainMode
  try dsimp only
  repeat' first
    | with_reducible first
      | assumption | apply wr_kept | apply steerOrHold_kept | apply kept_ite

theorem ckLoad_kept {s0 : State} {c : Nat} {d : Dir} {rung : Nat} {s : State} (hs : Kept s0 s) :
    Kept s0 (ckLoad c d rung s) := by
  unfold ckLoad
  try dsimp only
  repeat' first
    | intro _
    | with_reducible first
      | assumption | apply wr_kept | apply putCkEntry_kept | apply putCkExit_kept | apply exitDrive_kept
      | apply kept_ite | apply kept_foldl
    | simp only [kept_mk_iff]

theorem ckTrain_kept {s0 : State} {ms : List (Nat × Dir)} {c : Nat} {d : Dir} {rung : Nat} {s : State} (hs : Kept s0 s) :
    Kept s0 (ckTrain ms c d rung s).2 := by
  unfold ckTrain
  try dsimp only
  repeat' first
    | with_reducible first
      | assumption | apply wr_kept | apply raise_kept | apply putCk_kept | apply dirAbort_kept
      | apply ebReset_kept | apply standbySync_kept | apply borrowEnd_kept | apply borrowStart_kept
      | apply lendSync_kept | apply trainMode_kept | apply ckLoad_kept | apply kept_ite | apply kept_ite2

theorem switchOne_kept {s0 : State} {c : Nat} {d : Dir} {s : State} (hs : Kept s0 s) :
    Kept s0 (switchOne c d s) := by
  unfold switchOne
  try dsimp only
  repeat' first
    | with_reducible first
      | assumption | apply wr_kept | apply count_kept | apply putCk_kept | apply dirAbort_kept
      | apply syncCluster_kept | apply rxRestart_kept | apply denseAsk_kept | apply kept_ite
    | simp only [kept_mk_iff]

theorem clockApart_kept {s0 : State} {c : Nat} {d : Dir} {s : State} (hs : Kept s0 s) :
    Kept s0 (clockApart c d s) := by
  unfold clockApart
  try dsimp only
  repeat' first
    | intro _
    | with_reducible first
      | assumption | apply switchOne_kept | apply kept_ite | apply kept_foldl

end Sys2Proof.Machine
end

