-- ==== Sys2Proof/Laws/KeptBobOps.lean ====
section
/-! SUPPORT. What the operations of Machine/BobOps.lean keep (`Kept`). -/

namespace Sys2Proof.Machine

theorem laneOut_kept {s0 : State} {n : Nat} {sd : Side} {s : State} (hs : Kept s0 s) :
    Kept s0 (laneOut n sd s) := by
  unfold laneOut
  try dsimp only
  repeat' first
    | with_reducible first
      | assumption | apply adaptLeaves_kept | apply acqCancel_kept

theorem bobMove_kept {s0 : State} {c : Nat} {sd : Side} {on : Bool} {s : State} (hs : Kept s0 s) :
    Kept s0 (bobMove c sd on s) := by
  unfold bobMove
  try dsimp only
  repeat' first
    | with_reducible first
      | assumption | apply putBob_kept | apply txRest_kept | apply adaptLeaves_kept | apply adaptEnters_kept
      | apply steerSync_kept | apply kept_ite

theorem laneTxIdle_kept {s0 : State} {n : Nat} {s : State} (hs : Kept s0 s) :
    Kept s0 (laneTxIdle n s) := by
  unfold laneTxIdle
  try dsimp only
  repeat' first
    | intro _
    | with_reducible first
      | assumption | apply txRest_kept | apply kept_foldl

theorem bobRest_kept {s0 : State} {c : Nat} {s : State} (hs : Kept s0 s) :
    Kept s0 (bobRest c s) := by
  unfold bobRest
  try dsimp only
  repeat' first
    | with_reducible first
      | assumption | apply laneOut_kept | apply laneTxIdle_kept

theorem bobClear_kept {s0 : State} {c : Nat} {s : State} (hs : Kept s0 s) :
    Kept s0 (bobClear c s) := by
  unfold bobClear
  try dsimp only
  repeat' first
    | with_reducible first
      | assumption | apply putBob_kept
    | simp only [kept_mk_iff]

theorem bobFinish_kept {s0 : State} {c : Nat} {s : State} (hs : Kept s0 s) :
    Kept s0 (bobFinish c s) := by
  unfold bobFinish
  try dsimp only
  repeat' first
    | intro _
    | with_reducible first
      | assumption | apply wr_kept | apply bump_kept | apply raise_kept | apply syncCluster_kept
      | apply bobClear_kept | apply kept_ite

theorem bobRelease_kept {s0 : State} {c : Nat} {s : State} (hs : Kept s0 s) :
    Kept s0 (bobRelease c s) := by
  unfold bobRelease
  try dsimp only
  repeat' first
    | intro _
    | with_reducible first
      | assumption | apply wr_kept | apply putBob_kept | apply bobMove_kept | apply bobRest_kept | apply kept_ite
      | apply kept_foldl
    | simp only [kept_mk_iff]

theorem bobSideDown_kept {s0 : State} {k : Nat} {sd : Side} {s : State} (hs : Kept s0 s) :
    Kept s0 (bobSideDown k sd s) := by
  unfold bobSideDown
  try dsimp only
  repeat' first
    | intro _
    | with_reducible first
      | assumption | apply putBob_kept | apply intrEnd_kept | apply laneOut_kept | apply bobMove_kept
      | apply bobFinish_kept | apply kept_ite | apply kept_foldl
    | simp only [kept_mk_iff]

theorem bobJoin_kept {s0 : State} {k : Nat} {sd : Side} {s : State} (hs : Kept s0 s) :
    Kept s0 (bobJoin k sd s) := by
  unfold bobJoin
  try dsimp only
  repeat' first
    | intro _
    | with_reducible first
      | assumption | apply putBob_kept | apply bobMove_kept | apply kept_ite | apply kept_foldl
    | simp only [kept_mk_iff]

end Sys2Proof.Machine
end

