-- ==== Sys2Proof/Laws/KeptPrkOps.lean ====
section
/-! SUPPORT. What the operations of Machine/PrkOps.lean keep (`Kept`). -/

namespace Sys2Proof.Machine

theorem checkRun_kept {s0 : State} {s : State} (hs : Kept s0 s) :
    Kept s0 (checkRun s) := by
  unfold checkRun
  try dsimp only
  repeat' first
    | with_reducible first
      | assumption
    | simp only [kept_mk_iff]

theorem checkBegin_kept {s0 : State} {origin : Nat} {link : Nat} {checkOnly : Bool} {s : State} (hs : Kept s0 s) :
    Kept s0 (checkBegin origin link checkOnly s) := by
  unfold checkBegin
  try dsimp only
  repeat' first
    | with_reducible first
      | assumption | apply wr_kept | apply checkRun_kept
    | simp only [kept_mk_iff]

theorem startRecheck_kept {s0 : State} {_trigger : Nat} {s : State} (hs : Kept s0 s) :
    Kept s0 (startRecheck _trigger s) := by
  unfold startRecheck
  try dsimp only
  repeat' first
    | with_reducible first
      | assumption | apply checkBegin_kept | apply kept_ite
    | simp only [kept_mk_iff]

theorem prkReport_kept {s0 : State} {r : List Nat} {applied : Bool} {s : State} (hs : Kept s0 s) :
    Kept s0 (prkReport r applied s) := by
  unfold prkReport
  try dsimp only
  repeat' first
    | with_reducible first
      | assumption | apply wr_kept | apply wrB_kept | apply bumpWrap_kept | apply kept_ite

theorem prkEnd_kept {s0 : State} {r : List Nat} {applied : Bool} {s : State} (hs : Kept s0 s) :
    Kept s0 (prkEnd r applied s) := by
  unfold prkEnd
  try dsimp only
  repeat' first
    | with_reducible first
      | assumption | apply wr_kept | apply bump_kept | apply raise_kept | apply startRecheck_kept
      | apply prkReport_kept | apply kept_ite
    | simp only [kept_mk_iff]

theorem prkChanged_kept {s0 : State} {s : State} (hs : Kept s0 s) :
    Kept s0 (prkChanged s) := by
  unfold prkChanged
  try dsimp only
  repeat' first
    | with_reducible first
      | assumption | apply checkRun_kept | apply prkEnd_kept | apply kept_ite
    | simp only [kept_mk_iff]

theorem prkNotice_kept {s0 : State} {s : State} (hs : Kept s0 s) :
    Kept s0 (prkNotice s) := by
  unfold prkNotice
  try dsimp only
  repeat' first
    | with_reducible first
      | assumption | apply prkChanged_kept | apply kept_ite

end Sys2Proof.Machine
end

