-- ==== Sys2Proof/Laws/KeptSpans.lean ====
section
/-! SUPPORT. What the operations of Machine/Spans.lean keep (`Kept`). -/

namespace Sys2Proof.Machine

theorem modSpan_kept {s0 : State} {s : State} {k : Nat} {sd : Side} {g : SpanSt → SpanSt} (hs : Kept s0 s) :
    Kept s0 (State.modSpan s k sd g) := by
  unfold State.modSpan
  try dsimp only
  repeat' first
    | with_reducible first
      | assumption | apply putSpan_kept

theorem setSpan_kept {s0 : State} {k : Nat} {sd : Side} {st : Nat} {s : State} (hs : Kept s0 s) :
    Kept s0 (setSpan k sd st s) := by
  unfold setSpan
  try dsimp only
  repeat' first
    | with_reducible first
      | assumption | apply wr_kept | apply wrB_kept

theorem trnSource_kept {s0 : State} {k : Nat} {sd : Side} {s : State} (hs : Kept s0 s) :
    Kept s0 (trnSource k sd s) := by
  unfold trnSource
  try dsimp only
  repeat' first
    | with_reducible first
      | assumption | apply raise_kept

theorem sideIdle_kept {s0 : State} {k : Nat} {sd : Side} {s : State} (hs : Kept s0 s) :
    Kept s0 (sideIdle k sd s) := by
  unfold sideIdle
  try dsimp only
  repeat' first
    | intro _
    | with_reducible first
      | assumption | apply putCkExit_kept | apply txRest_kept | apply kept_ite | apply kept_foldl
    | simp only [kept_mk_iff]

theorem sideWake_kept {s0 : State} {k : Nat} {sd : Side} {s : State} (hs : Kept s0 s) :
    Kept s0 (sideWake k sd s) := by
  unfold sideWake
  try dsimp only
  repeat' first
    | intro _
    | with_reducible first
      | assumption | apply putTx_kept | apply putCkExit_kept | apply kept_ite | apply kept_foldl
    | simp only [kept_mk_iff]

theorem sideEie_kept {s0 : State} {k : Nat} {sd : Side} {s : State} (hs : Kept s0 s) :
    Kept s0 (sideEie k sd s) := by
  unfold sideEie
  try dsimp only
  repeat' first
    | with_reducible first
      | assumption | apply putSide_kept | apply kept_ite
    | simp only [kept_mk_iff]

theorem lanesLeave_kept {s0 : State} {k : Nat} {sd : Side} {lanes : List Nat} {s : State} (hs : Kept s0 s) :
    Kept s0 (lanesLeave k sd lanes s) := by
  unfold lanesLeave
  try dsimp only
  repeat' first
    | intro _
    | with_reducible first
      | assumption | apply putSide_kept
    | simp only [kept_mk_iff]

theorem putPlan_kept {s0 : State} {c : Nat} {rec : List Nat} {s : State} (hs : Kept s0 s) :
    Kept s0 (putPlan c rec s) := by
  unfold putPlan
  try dsimp only
  repeat' first
    | intro _
    | with_reducible first
      | assumption | apply wrB_kept | apply kept_ite | apply kept_foldl
    | simp only [kept_mk_iff]

theorem applyPlan_kept {s0 : State} {c : Nat} {s : State} (hs : Kept s0 s) :
    Kept s0 (applyPlan c s) := by
  unfold applyPlan
  try dsimp only
  repeat' first
    | intro _
    | with_reducible first
      | assumption | apply putPlan_kept
    | simp only [kept_mk_iff]
    | split
    | with_reducible first
      | (apply kept_pair; assumption) | (apply kept_opt; assumption) | (apply kept_triple; assumption)

theorem applyPlans_kept {s0 : State} {k : Nat} {sd : Side} {s : State} (hs : Kept s0 s) :
    Kept s0 (applyPlans k sd s) := by
  unfold applyPlans
  try dsimp only
  repeat' first
    | intro _
    | with_reducible first
      | assumption | apply applyPlan_kept | apply kept_foldl

theorem putPol_kept {s0 : State} {n : Nat} {sd : Side} {v : Nat} {s : State} (hs : Kept s0 s) :
    Kept s0 (putPol n sd v s) := by
  unfold putPol
  try dsimp only
  repeat' first
    | with_reducible first
      | assumption | apply wrB_kept

theorem waitingPol_kept {s0 : State} {n : Nat} {sd : Side} {s : State} (hs : Kept s0 s) :
    Kept s0 (waitingPol n sd s) := by
  unfold waitingPol
  try dsimp only
  repeat' first
    | intro _
    | with_reducible first
      | assumption | apply putPol_kept
    | simp only [kept_mk_iff]
    | split
    | with_reducible first
      | (apply kept_pair; assumption) | (apply kept_opt; assumption) | (apply kept_triple; assumption)

theorem polRestart_kept {s0 : State} {n : Nat} {sd : Side} {s : State} (hs : Kept s0 s) :
    Kept s0 (polRestart n sd s) := by
  unfold polRestart
  try dsimp only
  repeat' first
    | with_reducible first
      | assumption | apply wr_kept | apply putRx_kept | apply rxAgain_kept | apply kept_ite
    | simp only [kept_mk_iff]

theorem exitPol_kept {s0 : State} {n : Nat} {sd : Side} {s : State} (hs : Kept s0 s) :
    Kept s0 (exitPol n sd s) := by
  unfold exitPol
  try dsimp only
  repeat' first
    | with_reducible first
      | assumption | apply putCkExit_kept | apply kept_ite
    | simp only [kept_mk_iff]

theorem rxPolApply_kept {s0 : State} {n : Nat} {sd : Side} {s : State} (hs : Kept s0 s) :
    Kept s0 (rxPolApply n sd s) := by
  unfold rxPolApply
  try dsimp only
  repeat' first
    | with_reducible first
      | assumption | apply wrB_kept | apply polRestart_kept | apply kept_ite

theorem applyPol_kept {s0 : State} {n : Nat} {sd : Side} {s : State} (hs : Kept s0 s) :
    Kept s0 (applyPol n sd s) := by
  unfold applyPol
  try dsimp only
  repeat' first
    | with_reducible first
      | assumption | apply putTx_kept | apply waitingPol_kept | apply exitPol_kept | apply rxPolApply_kept
    | simp only [kept_mk_iff]

theorem acquireEnter_kept {s0 : State} {k : Nat} {sd : Side} {rung : Nat} {s : State} (hs : Kept s0 s) :
    Kept s0 (acquireEnter k sd rung s) := by
  unfold acquireEnter
  try dsimp only
  repeat' first
    | intro _
    | with_reducible first
      | assumption | apply wr_kept | apply putRx_kept | apply loadTx_kept | apply loadRx_kept
      | apply acqRequest_kept | apply setDense_kept | apply denseOver_kept | apply modSpan_kept
      | apply setSpan_kept | apply sideWake_kept | apply applyPlans_kept | apply applyPol_kept | apply kept_foldl
    | simp only [kept_mk_iff]

theorem spanClear_kept {s0 : State} {k : Nat} {sd : Side} {s : State} (hs : Kept s0 s) :
    Kept s0 (spanClear k sd s) := by
  unfold spanClear
  try dsimp only
  repeat' first
    | intro _
    | with_reducible first
      | assumption | apply wr_kept | apply acqCancel_kept | apply modSpan_kept | apply sideEie_kept
      | apply kept_foldl
    | simp only [kept_mk_iff]

theorem spanDown_kept {s0 : State} {k : Nat} {sd : Side} {fault : Nat} {byCmd : Bool} {s : State} (hs : Kept s0 s) :
    Kept s0 (spanDown k sd fault byCmd s) := by
  unfold spanDown
  try dsimp only
  repeat' first
    | intro _
    | with_reducible first
      | assumption | apply wr_kept | apply bump_kept | apply bobSideDown_kept | apply modSpan_kept
      | apply setSpan_kept | apply trnSource_kept | apply spanClear_kept
    | simp only [kept_mk_iff]

theorem linkClocks_kept {s0 : State} {k : Nat} {s : State} (hs : Kept s0 s) :
    Kept s0 (linkClocks k s) := by
  unfold linkClocks
  try dsimp only
  repeat' first
    | intro _
    | with_reducible first
      | assumption | apply idleClocks_kept | apply kept_foldl

theorem linkDown_kept {s0 : State} {k : Nat} {fault : Nat} {byCmd : Bool} {s : State} (hs : Kept s0 s) :
    Kept s0 (linkDown k fault byCmd s) := by
  unfold linkDown
  try dsimp only
  repeat' first
    | intro _
    | with_reducible first
      | assumption | apply putLink_kept | apply linkDropTraffic_kept | apply spanDown_kept | apply linkClocks_kept
      | apply kept_ite | apply kept_foldl
    | simp only [kept_mk_iff]

theorem spanHold_kept {s0 : State} {k : Nat} {sd : Side} {s : State} (hs : Kept s0 s) :
    Kept s0 (spanHold k sd s) := by
  unfold spanHold
  try dsimp only
  repeat' first
    | with_reducible first
      | assumption | apply wr_kept | apply putLink_kept | apply setSpan_kept | apply spanClear_kept
      | apply linkClocks_kept | apply kept_ite
    | simp only [kept_mk_iff]

theorem spanAbort_kept {s0 : State} {k : Nat} {sd : Side} {s : State} (hs : Kept s0 s) :
    Kept s0 (spanAbort k sd s) := by
  unfold spanAbort
  try dsimp only
  repeat' first
    | intro _
    | with_reducible first
      | assumption | apply eyeAbortDir_kept | apply dirAbort_kept | apply kept_foldl

theorem retrainSpan_kept {s0 : State} {k : Nat} {sd : Side} {sw : Option Nat} {s : State} (hs : Kept s0 s) :
    Kept s0 (retrainSpan k sd sw s) := by
  unfold retrainSpan
  try dsimp only
  repeat' first
    | intro _
    | with_reducible first
      | assumption | apply wr_kept | apply bump_kept | apply postTrn_kept | apply syncFreeze_kept
      | apply modSpan_kept | apply setSpan_kept | apply trnSource_kept | apply applyPlans_kept
      | apply acquireEnter_kept | apply linkDown_kept | apply spanAbort_kept | apply kept_ite | exact keptOpt_none
      | apply keptOpt_ite
    | simp only [kept_mk_iff]
    | split
    | with_reducible first
      | (apply kept_pair; assumption) | (apply kept_opt; assumption) | (apply kept_triple; assumption)

theorem switchTo_kept {s0 : State} {k : Nat} {sd : Side} {rung : Nat} {s : State} (hs : Kept s0 s) :
    Kept s0 (switchTo k sd rung s) := by
  unfold switchTo
  try dsimp only
  repeat' first
    | intro _
    | with_reducible first
      | assumption | apply putSide_kept | apply modSpan_kept | apply setSpan_kept | apply spanAbort_kept
    | simp only [kept_mk_iff]

theorem followRung_kept {s0 : State} {rung : Nat} {k : Nat} {sd : Side} {s : State} (hs : Kept s0 s) :
    Kept s0 (followRung rung k sd s) := by
  unfold followRung
  try dsimp only
  repeat' first
    | intro _
    | with_reducible first
      | assumption | apply modSpan_kept | apply sideEie_kept | apply switchTo_kept | apply kept_ite
    | simp only [kept_mk_iff]

theorem retrain_kept {s0 : State} {k : Nat} {sd : Side} {sw : Option Nat} {received : Bool} {s : State} (hs : Kept s0 s) :
    Kept s0 (retrain k sd sw received s) := by
  unfold retrain
  try dsimp only
  repeat' first
    | intro _
    | with_reducible first
      | assumption | apply postTrn_kept | apply modSpan_kept | apply retrainSpan_kept | apply followRung_kept
      | apply kept_ite | apply kept_foldl | exact keptOpt_none | apply keptOpt_ite
    | simp only [kept_mk_iff]
    | split
    | with_reducible first
      | (apply kept_pair; assumption) | (apply kept_opt; assumption) | (apply kept_triple; assumption)

theorem clockDemand_kept {s0 : State} {c : Nat} {d : Dir} {s : State} (hs : Kept s0 s) :
    Kept s0 (clockDemand c d s) := by
  unfold clockDemand
  try dsimp only
  repeat' first
    | intro _
    | with_reducible first
      | assumption | apply retrain_kept | apply kept_ite | apply kept_foldl

theorem retune_kept {s0 : State} {k : Nat} {sd : Side} {rung : Nat} {s : State} (hs : Kept s0 s) :
    Kept s0 (retune k sd rung s) := by
  unfold retune
  try dsimp only
  repeat' first
    | intro _
    | with_reducible first
      | assumption | apply ckTrain_kept | apply clockApart_kept | apply clockDemand_kept | apply kept_foldl
    | simp only [kept_mk_iff]
    | split
    | with_reducible first
      | (apply kept_pair; assumption) | (apply kept_opt; assumption) | (apply kept_triple; assumption)

theorem trainAt_kept {s0 : State} {k : Nat} {sd : Side} {rung : Nat} {s : State} (hs : Kept s0 s) :
    Kept s0 (trainAt k sd rung s) := by
  unfold trainAt
  try dsimp only
  repeat' first
    | with_reducible first
      | assumption | apply applyPlans_kept | apply acquireEnter_kept | apply retune_kept

theorem detectEnter_kept {s0 : State} {k : Nat} {sd : Side} {fresh : Bool} {direct : Bool} {s : State} (hs : Kept s0 s) :
    Kept s0 (detectEnter k sd fresh direct s) := by
  unfold detectEnter
  try dsimp only
  repeat' first
    | intro _
    | with_reducible first
      | assumption | apply wr_kept | apply wrB_kept | apply putSpan_kept | apply putTx_kept | apply putCkExit_kept
      | apply electDraw_kept | apply bobJoin_kept | apply setSpan_kept | apply applyPlans_kept
      | apply spanDown_kept | apply linkDown_kept | apply spanHold_kept | apply kept_ite | apply kept_foldl
    | simp only [kept_mk_iff]

theorem detectGo_kept {s0 : State} {k : Nat} {sd : Side} {s : State} (hs : Kept s0 s) :
    Kept s0 (detectGo k sd s) := by
  unfold detectGo
  try dsimp only
  repeat' first
    | with_reducible first
      | assumption | apply trainAt_kept | apply kept_ite

theorem detectCheck_kept {s0 : State} {k : Nat} {sd : Side} {s : State} (hs : Kept s0 s) :
    Kept s0 (detectCheck k sd s) := by
  unfold detectCheck
  try dsimp only
  repeat' first
    | intro _
    | with_reducible first
      | assumption | apply detectGo_kept | apply kept_ite

theorem detectAll_kept {s0 : State} {s : State} (hs : Kept s0 s) :
    Kept s0 (detectAll s) := by
  unfold detectAll
  try dsimp only
  repeat' first
    | intro _
    | with_reducible first
      | assumption | apply detectCheck_kept | apply kept_foldl

theorem sendRate_kept {s0 : State} {target : Nat} {k : Nat} {sd : Side} {s : State} (hs : Kept s0 s) :
    Kept s0 (sendRate target k sd s) := by
  unfold sendRate
  try dsimp only
  repeat' first
    | with_reducible first
      | assumption | apply putSpan_kept | apply postTrn_kept | apply setSpan_kept
    | simp only [kept_mk_iff]

theorem toTransRung_kept {s0 : State} {rung : Nat} {k : Nat} {sd : Side} {s : State} (hs : Kept s0 s) :
    Kept s0 (toTransRung rung k sd s) := by
  unfold toTransRung
  try dsimp only
  repeat' first
    | with_reducible first
      | assumption | apply retrainSpan_kept | apply followRung_kept | apply kept_ite

theorem transSide_kept {s0 : State} {k : Nat} {sd : Side} {s : State} (hs : Kept s0 s) :
    Kept s0 (transSide k sd s) := by
  unfold transSide
  try dsimp only
  repeat' first
    | intro _
    | with_reducible first
      | assumption | apply putSide_kept | apply loadTx_kept | apply loadRx_kept | apply acqRequest_kept
      | apply sideWake_kept | apply applyPlans_kept | apply applyPol_kept | apply retune_kept
      | apply toTransRung_kept | apply kept_ite | apply kept_foldl
    | simp only [kept_mk_iff]

theorem transStart_kept {s0 : State} {k : Nat} {s : State} (hs : Kept s0 s) :
    Kept s0 (transStart k s) := by
  unfold transStart
  try dsimp only
  repeat' first
    | intro _
    | with_reducible first
      | assumption | apply wr_kept | apply putLink_kept | apply spanHold_kept | apply transSide_kept
      | apply kept_ite | apply kept_foldl
    | simp only [kept_mk_iff]

theorem linkTrain_kept {s0 : State} {direct : Bool} {k : Nat} {s : State} (hs : Kept s0 s) :
    Kept s0 (linkTrain direct k s) := by
  unfold linkTrain
  try dsimp only
  repeat' first
    | intro _
    | with_reducible first
      | assumption | apply detectEnter_kept | apply transStart_kept | apply kept_ite | apply kept_foldl

theorem downRestart_kept {s0 : State} {k : Nat} {sd : Side} {s : State} (hs : Kept s0 s) :
    Kept s0 (downRestart k sd s) := by
  unfold downRestart
  try dsimp only
  repeat' first
    | with_reducible first
      | assumption | apply detectEnter_kept | apply kept_ite

theorem measureEnter_kept {s0 : State} {k : Nat} {sd : Side} {s : State} (hs : Kept s0 s) :
    Kept s0 (measureEnter k sd s) := by
  unfold measureEnter
  try dsimp only
  repeat' first
    | intro _
    | with_reducible first
      | assumption | apply postTrn_kept | apply modSpan_kept | apply setSpan_kept
    | simp only [kept_mk_iff]

theorem groupStep_kept {s0 : State} {k : Nat} {sd : Side} {s : State} (hs : Kept s0 s) :
    Kept s0 (groupStep k sd s) := by
  unfold groupStep
  try dsimp only
  repeat' first
    | intro _
    | with_reducible first
      | assumption | apply sendRate_kept | apply measureEnter_kept | apply kept_ite | apply kept_foldl

theorem blindOver_kept {s0 : State} {g : List (Nat × Side)} {s : State} (hs : Kept s0 s) :
    Kept s0 (blindOver g s) := by
  unfold blindOver
  try dsimp only
  repeat' first
    | intro _
    | with_reducible first
      | assumption | apply wr_kept | apply modSpan_kept | apply kept_foldl
    | simp only [kept_mk_iff]

theorem leaveBlind_kept {s0 : State} {g : List (Nat × Side)} {s : State} (hs : Kept s0 s) :
    Kept s0 (leaveBlind g s) := by
  unfold leaveBlind
  try dsimp only
  repeat' first
    | intro _
    | with_reducible first
      | assumption | apply sideEie_kept | apply switchTo_kept | apply sendRate_kept | apply blindOver_kept
      | apply kept_ite | apply kept_foldl

theorem sidesSwapped_kept {s0 : State} {k : Nat} {s : State} (hs : Kept s0 s) :
    Kept s0 (sidesSwapped k s) := by
  unfold sidesSwapped
  try dsimp only
  repeat' first
    | with_reducible first
      | assumption | apply wired_kept

theorem readyEnter_kept {s0 : State} {k : Nat} {sd : Side} {s : State} (hs : Kept s0 s) :
    Kept s0 (readyEnter k sd s) := by
  unfold readyEnter
  try dsimp only
  repeat' first
    | intro _
    | with_reducible first
      | assumption | apply modSpan_kept | apply setSpan_kept | apply sidesSwapped_kept | apply kept_ite
      | exact keptOpt_none | apply keptOpt_ite
    | simp only [kept_mk_iff]
    | split
    | with_reducible first
      | (apply kept_pair; assumption) | (apply kept_opt; assumption) | (apply kept_triple; assumption)

theorem trunkFails_kept {s0 : State} {k : Nat} {sd : Side} {s : State} (hs : Kept s0 s) :
    Kept s0 (trunkFails k sd s) := by
  unfold trunkFails
  try dsimp only
  repeat' first
    | with_reducible first
      | assumption | apply linkDown_kept | apply sidesSwapped_kept | apply kept_ite

theorem figureFails_kept {s0 : State} {k : Nat} {sd : Side} {s : State} (hs : Kept s0 s) :
    Kept s0 (figureFails k sd s) := by
  unfold figureFails
  try dsimp only
  repeat' first
    | intro _
    | with_reducible first
      | assumption | apply wr_kept | apply bump_kept | apply acqCancel_kept | apply postTrn_kept
      | apply modSpan_kept | apply trnSource_kept | apply sideEie_kept | apply linkDown_kept
      | apply detectEnter_kept | apply groupStep_kept | apply leaveBlind_kept | apply readyEnter_kept
      | apply kept_ite | apply kept_foldl
    | simp only [kept_mk_iff]

theorem figurePasses_kept {s0 : State} {k : Nat} {sd : Side} {s : State} (hs : Kept s0 s) :
    Kept s0 (figurePasses k sd s) := by
  unfold figurePasses
  try dsimp only
  repeat' first
    | intro _
    | with_reducible first
      | assumption | apply postTrn_kept | apply modSpan_kept | apply readyEnter_kept
    | simp only [kept_mk_iff]

theorem qualifyCheck_kept {s0 : State} {k : Nat} {sd : Side} {s : State} (hs : Kept s0 s) :
    Kept s0 (qualifyCheck k sd s) := by
  unfold qualifyCheck
  try dsimp only
  repeat' first
    | intro _
    | with_reducible first
      | assumption | apply wrB_kept | apply wireFault_kept | apply wired_kept | apply putRx_kept
      | apply setSpan_kept | apply linkDown_kept | apply kept_ite | apply kept_foldl
    | simp only [kept_mk_iff]
    | split
    | with_reducible first
      | (apply kept_pair; assumption) | (apply kept_opt; assumption) | (apply kept_triple; assumption)

theorem armCheck_kept {s0 : State} {k : Nat} {s : State} (hs : Kept s0 s) :
    Kept s0 (armCheck k s) := by
  unfold armCheck
  try dsimp only
  repeat' first
    | with_reducible first
      | assumption | apply putLink_kept | apply kept_ite
    | simp only [kept_mk_iff]

theorem upEnter_kept {s0 : State} {k : Nat} {sd : Side} {s : State} (hs : Kept s0 s) :
    Kept s0 (upEnter k sd s) := by
  unfold upEnter
  try dsimp only
  repeat' first
    | intro _
    | with_reducible first
      | assumption | apply wr_kept | apply postRec_kept | apply modTrunk_kept | apply postTrn_kept
      | apply syncFreeze_kept | apply modSpan_kept | apply setSpan_kept | apply trnSource_kept | apply kept_ite
      | apply kept_foldl
    | simp only [kept_mk_iff]

theorem linkUp_kept {s0 : State} {k : Nat} {s : State} (hs : Kept s0 s) :
    Kept s0 (linkUp k s) := by
  unfold linkUp
  try dsimp only
  repeat' first
    | intro _
    | with_reducible first
      | assumption | apply wr_kept | apply putLive_kept | apply putLink_kept | apply linkStart_kept
      | apply startRecheck_kept | apply prkNotice_kept | apply retrain_kept | apply upEnter_kept | apply kept_ite
      | apply kept_foldl
    | simp only [kept_mk_iff]

end Sys2Proof.Machine
end

