-- ==== Sys2Proof/Laws/KeptLoopOps.lean ====
section
/-! SUPPORT. What the operations of Machine/LoopOps.lean keep (`Kept`). -/

namespace Sys2Proof.Machine

theorem genSync_kept {s0 : State} {t : State} {n : Nat} {sd : Side} {s : State} (ht : Kept s0 t) (hs : Kept s0 s) :
    Kept s0 (genSync t n sd s) := by
  unfold genSync
  try dsimp only
  repeat' first
    | with_reducible first
      | assumption | apply putTx_kept | apply kept_ite
    | simp only [kept_mk_iff]

theorem padWake_kept {s0 : State} {n : Nat} {sd : Side} {s : State} (hs : Kept s0 s) :
    Kept s0 (padWake n sd s) := by
  unfold padWake
  try dsimp only
  repeat' first
    | with_reducible first
      | assumption | apply putTx_kept | apply txSends_kept | apply kept_ite
    | simp only [kept_mk_iff]

theorem padSync_kept {s0 : State} {t : State} {n : Nat} {s : State} (ht : Kept s0 t) (hs : Kept s0 s) :
    Kept s0 (padSync t n s) := by
  unfold padSync
  try dsimp only
  repeat' first
    | intro _
    | with_reducible first
      | assumption | apply eieRest_kept | apply genSync_kept | apply padWake_kept | apply kept_ite
      | apply kept_foldl

theorem testSync_kept {s0 : State} {t : State} {n : Nat} {s : State} (ht : Kept s0 t) (hs : Kept s0 s) :
    Kept s0 (testSync t n s) := by
  unfold testSync
  try dsimp only
  repeat' first
    | with_reducible first
      | assumption | apply standbySync_kept | apply padSync_kept

theorem loopStop_kept {s0 : State} {n : Nat} {s : State} (hs : Kept s0 s) :
    Kept s0 (loopStop n s) := by
  unfold loopStop
  try dsimp only
  repeat' first
    | with_reducible first
      | assumption | apply wr_kept | apply testSync_kept

theorem loopStopAll_kept {s0 : State} {s : State} (hs : Kept s0 s) :
    Kept s0 (loopStopAll s) := by
  unfold loopStopAll
  try dsimp only
  repeat' first
    | intro _
    | with_reducible first
      | assumption | apply loopStop_kept | apply kept_foldl

theorem setBobSlice_kept {s0 : State} {s : State} {d : Nat} {v : Option Nat} (hs : Kept s0 s) :
    Kept s0 (State.setBobSlice s d v) := by
  unfold State.setBobSlice
  try dsimp only
  repeat' first
    | with_reducible first
      | assumption | apply wrB_kept | apply kept_ite
    | simp only [kept_mk_iff]

theorem setLastBobbin_kept {s0 : State} {d : Nat} {c : Nat} {s : State} (hs : Kept s0 s) :
    Kept s0 (setLastBobbin d c s) := by
  unfold setLastBobbin
  try dsimp only
  repeat' first
    | with_reducible first
      | assumption | apply kept_ite
    | simp only [kept_mk_iff]

theorem bobSliceOff_kept {s0 : State} {d : Nat} {c : Nat} {s : State} (hs : Kept s0 s) :
    Kept s0 (bobSliceOff d c s) := by
  unfold bobSliceOff
  try dsimp only
  repeat' first
    | with_reducible first
      | assumption | apply putBob_kept | apply testSync_kept | apply setBobSlice_kept
    | simp only [kept_mk_iff]

theorem bobSliceEnd_kept {s0 : State} {d : Nat} {result : Nat} {cause : Nat} {errors : Nat} {s : State} (hs : Kept s0 s) :
    Kept s0 (bobSliceEnd d result cause errors s) := by
  unfold bobSliceEnd
  try dsimp only
  repeat' first
    | with_reducible first
      | assumption | apply wr_kept | apply raise_kept | apply setLastBobbin_kept | apply bobSliceOff_kept
      | apply kept_ite | exact keptOpt_none | apply keptOpt_ite
    | simp only [kept_mk_iff]
    | split
    | with_reducible first
      | (apply kept_pair; assumption) | (apply kept_opt; assumption) | (apply kept_triple; assumption)

theorem bobSliceCut_kept {s0 : State} {d : Nat} {result : Nat} {cause : Nat} {s : State} (hs : Kept s0 s) :
    Kept s0 (bobSliceCut d result cause s) := by
  unfold bobSliceCut
  try dsimp only
  repeat' first
    | with_reducible first
      | assumption | apply draw_kept | apply bobSliceEnd_kept | apply kept_ite
    | with_reducible first
      | (apply kept_pair; assumption) | (apply kept_opt; assumption) | (apply kept_triple; assumption)

theorem bobPreempt_kept {s0 : State} {d : Nat} {c : Nat} {s : State} (hs : Kept s0 s) :
    Kept s0 (bobPreempt d c s) := by
  unfold bobPreempt
  try dsimp only
  repeat' first
    | with_reducible first
      | assumption | apply bump_kept | apply bobSliceOff_kept | apply bobSliceCut_kept | apply kept_ite

end Sys2Proof.Machine
end

