-- ==== Sys2Proof/Laws/KeptSteerOps.lean ====
section
/-! SUPPORT. What the operations of Machine/SteerOps.lean keep (`Kept`). -/

namespace Sys2Proof.Machine

theorem bobAsk_kept {s0 : State} {c : Nat} {s : State} (hs : Kept s0 s) :
    Kept s0 (bobAsk c s) := by
  unfold bobAsk
  try dsimp only
  repeat' first
    | with_reducible first
      | assumption | apply putBob_kept | apply acqRequest_kept
    | simp only [kept_mk_iff]
    | split
    | with_reducible first
      | (apply kept_pair; assumption) | (apply kept_opt; assumption) | (apply kept_triple; assumption)

theorem bobAcqEnd_kept {s0 : State} {c : Nat} {sd : Side} {s : State} (hs : Kept s0 s) :
    Kept s0 (bobAcqEnd c sd s) := by
  unfold bobAcqEnd
  try dsimp only
  repeat' first
    | with_reducible first
      | assumption | apply putBob_kept | apply bobAsk_kept | apply kept_ite
    | simp only [kept_mk_iff]

theorem swapSteps_kept {s0 : State} {c : Nat} {s : State} (hs : Kept s0 s) :
    Kept s0 (swapSteps c s) := by
  unfold swapSteps
  try dsimp only
  repeat' first
    | intro _
    | with_reducible first
      | assumption | apply wr_kept | apply putBob_kept | apply putTx_kept | apply loadTx_kept | apply putCoef_kept
      | apply loadRx_kept | apply bobFinish_kept | apply bobAsk_kept | apply kept_ite | apply kept_foldl
    | simp only [kept_mk_iff]

theorem swapTest_kept {s0 : State} {c : Nat} {s : State} (hs : Kept s0 s) :
    Kept s0 (swapTest c s) := by
  unfold swapTest
  try dsimp only
  repeat' first
    | intro _
    | with_reducible first
      | assumption | apply putBob_kept | apply putTx_kept | apply kept_foldl
    | simp only [kept_mk_iff]

theorem swapDetectGo_kept {s0 : State} {c : Nat} {s : State} (hs : Kept s0 s) :
    Kept s0 (swapDetectGo c s) := by
  unfold swapDetectGo
  try dsimp only
  repeat' first
    | with_reducible first
      | assumption | apply putBob_kept | apply syncCluster_kept | apply swapTest_kept | apply kept_ite
    | simp only [kept_mk_iff]

theorem swapGo_kept {s0 : State} {c : Nat} {s : State} (hs : Kept s0 s) :
    Kept s0 (swapGo c s) := by
  unfold swapGo
  try dsimp only
  repeat' first
    | with_reducible first
      | assumption | apply putBob_kept | apply syncCluster_kept | apply swapSteps_kept | apply kept_ite
    | simp only [kept_mk_iff]

theorem swapResume_kept {s0 : State} {c : Nat} {s : State} (hs : Kept s0 s) :
    Kept s0 (swapResume c s) := by
  unfold swapResume
  try dsimp only
  repeat' first
    | with_reducible first
      | assumption | apply putBob_kept | apply syncCluster_kept | apply swapSteps_kept | apply swapTest_kept
      | apply kept_ite
    | simp only [kept_mk_iff]

theorem swapBegin_kept {s0 : State} {c : Nat} {p : Nat} {cause : Nat} {failedSide : Nat} {intr : Nat} {s : State} (hs : Kept s0 s) :
    Kept s0 (swapBegin c p cause failedSide intr s) := by
  unfold swapBegin
  try dsimp only
  repeat' first
    | intro _
    | with_reducible first
      | assumption | apply wr_kept | apply putBob_kept | apply calAbort_kept | apply engineNext_kept
      | apply bobClear_kept | apply loopStop_kept | apply bobPreempt_kept | apply swapDetectGo_kept
      | apply swapGo_kept | apply kept_ite | apply kept_foldl | exact keptOpt_none | apply keptOpt_ite
    | simp only [kept_mk_iff]
    | split
    | with_reducible first
      | (apply kept_pair; assumption) | (apply kept_opt; assumption) | (apply kept_triple; assumption)

theorem laneDown_kept {s0 : State} {n : Nat} {sd : Side} {s : State} (hs : Kept s0 s) :
    Kept s0 (laneDown n sd s) := by
  unfold laneDown
  try dsimp only
  repeat' first
    | with_reducible first
      | assumption | apply linkDown_kept
    | simp only [kept_mk_iff]
    | split
    | with_reducible first
      | (apply kept_pair; assumption) | (apply kept_opt; assumption) | (apply kept_triple; assumption)

theorem swapTrigger_kept {s0 : State} {n : Nat} {cause : Nat} {failed : Option Side} {on : Option Side} {s : State} (hs : Kept s0 s) :
    Kept s0 (swapTrigger n cause failed on s) := by
  unfold swapTrigger
  try dsimp only
  repeat' first
    | with_reducible first
      | assumption | apply loopStop_kept | apply swapBegin_kept | apply laneDown_kept | apply kept_ite
      | exact keptOpt_none | apply keptOpt_ite
    | simp only [kept_mk_iff]
    | split
    | with_reducible first
      | (apply kept_pair; assumption) | (apply kept_opt; assumption) | (apply kept_triple; assumption)

theorem autoTrigger_kept {s0 : State} {n : Nat} {cause : Nat} {sd : Side} {s : State} (hs : Kept s0 s) :
    Kept s0 (autoTrigger n cause sd s) := by
  unfold autoTrigger
  try dsimp only
  repeat' first
    | with_reducible first
      | assumption | apply swapTrigger_kept | apply kept_ite

theorem spareRest_kept {s0 : State} {c : Nat} {n : Nat} {s : State} (hs : Kept s0 s) :
    Kept s0 (spareRest c n s) := by
  unfold spareRest
  try dsimp only
  repeat' first
    | intro _
    | with_reducible first
      | assumption | apply eieRest_kept | apply kept_ite | apply kept_foldl

theorem oldWake_kept {s0 : State} {c : Nat} {n : Nat} {s : State} (hs : Kept s0 s) :
    Kept s0 (oldWake c n s) := by
  unfold oldWake
  try dsimp only
  repeat' first
    | intro _
    | with_reducible first
      | assumption | apply putTx_kept | apply kept_ite | apply kept_foldl
    | simp only [kept_mk_iff]

theorem swapAbandonTo_kept {s0 : State} {c : Nat} {why : Nat} {s : State} (hs : Kept s0 s) :
    Kept s0 (swapAbandonTo c why s) := by
  unfold swapAbandonTo
  try dsimp only
  repeat' first
    | intro _
    | with_reducible first
      | assumption | apply wr_kept | apply bump_kept | apply raise_kept | apply putBob_kept
      | apply syncCluster_kept | apply intrEnd_kept | apply laneOut_kept | apply bobMove_kept
      | apply laneTxIdle_kept | apply bobRest_kept | apply bobClear_kept | apply laneDown_kept
      | apply spareRest_kept | apply oldWake_kept | apply kept_ite | apply kept_foldl
    | simp only [kept_mk_iff]

theorem swapAbandon_kept {s0 : State} {c : Nat} {s : State} (hs : Kept s0 s) :
    Kept s0 (swapAbandon c s) := by
  unfold swapAbandon
  try dsimp only
  repeat' first
    | with_reducible first
      | assumption | apply swapAbandonTo_kept | apply kept_ite

theorem bobSwitch_kept {s0 : State} {c : Nat} {sd : Side} {s : State} (hs : Kept s0 s) :
    Kept s0 (bobSwitch c sd s) := by
  unfold bobSwitch
  try dsimp only
  repeat' first
    | intro _
    | with_reducible first
      | assumption | apply wr_kept | apply syncCluster_kept | apply intrEnd_kept | apply bobMove_kept
      | apply bobFinish_kept | apply modSpan_kept | apply acquireEnter_kept | apply kept_ite | exact keptOpt_none
      | apply keptOpt_ite
    | simp only [kept_mk_iff]
    | split
    | with_reducible first
      | (apply kept_pair; assumption) | (apply kept_opt; assumption) | (apply kept_triple; assumption)

theorem detectSwapEnd_kept {s0 : State} {c : Nat} {clean : Bool} {s : State} (hs : Kept s0 s) :
    Kept s0 (detectSwapEnd c clean s) := by
  unfold detectSwapEnd
  try dsimp only
  repeat' first
    | intro _
    | with_reducible first
      | assumption | apply wr_kept | apply putBob_kept | apply intrEnd_kept | apply bobMove_kept
      | apply bobFinish_kept | apply laneDown_kept | apply swapAbandonTo_kept | apply kept_ite | apply kept_foldl
    | simp only [kept_mk_iff]

theorem returnBegin_kept {s0 : State} {c : Nat} {s : State} (hs : Kept s0 s) :
    Kept s0 (returnBegin c s) := by
  unfold returnBegin
  try dsimp only
  repeat' first
    | with_reducible first
      | assumption | apply wr_kept | apply putBob_kept | apply bobClear_kept | apply loopStop_kept
      | apply swapGo_kept
    | simp only [kept_mk_iff]

theorem capHeard_kept {s0 : State} {c : Nat} {sd : Side} {s : State} (hs : Kept s0 s) :
    Kept s0 (capHeard c sd s) := by
  unfold capHeard
  try dsimp only
  repeat' first
    | with_reducible first
      | assumption | apply draw_kept | apply putBob_kept | apply kept_ite
    | simp only [kept_mk_iff]
    | with_reducible first
      | (apply kept_pair; assumption) | (apply kept_opt; assumption) | (apply kept_triple; assumption)

theorem takeFrom_kept {s0 : State} {c : Nat} {k : Nat} {sd : Side} {bobbin : Bool} {s : State} (hs : Kept s0 s) :
    Kept s0 (takeFrom c k sd bobbin s) := by
  unfold takeFrom
  try dsimp only
  repeat' first
    | intro _
    | with_reducible first
      | assumption | apply bobMove_kept | apply bobRelease_kept | apply modSpan_kept | apply acquireEnter_kept
      | apply kept_ite
    | simp only [kept_mk_iff]

theorem spareCap_kept {s0 : State} {c : Nat} {k : Nat} {sd : Side} {q : Nat} {cap : Bool} {s : State} (hs : Kept s0 s) :
    Kept s0 (spareCap c k sd q cap s) := by
  unfold spareCap
  try dsimp only
  repeat' first
    | with_reducible first
      | assumption | apply swapTrigger_kept | apply returnBegin_kept | apply capHeard_kept | apply takeFrom_kept
      | apply kept_ite | exact keptOpt_none | apply keptOpt_ite
    | simp only [kept_mk_iff]
    | split
    | with_reducible first
      | (apply kept_pair; assumption) | (apply kept_opt; assumption) | (apply kept_triple; assumption)

theorem swapFails_kept {s0 : State} {c : Nat} {sd : Side} {s : State} (hs : Kept s0 s) :
    Kept s0 (swapFails c sd s) := by
  unfold swapFails
  try dsimp only
  repeat' first
    | with_reducible first
      | assumption | apply putBob_kept | apply kept_ite
    | simp only [kept_mk_iff]

theorem endFailed_kept {s0 : State} {n : Nat} {sd : Side} {tx : Bool} {s : State} (hs : Kept s0 s) :
    Kept s0 (endFailed n sd tx s) := by
  unfold endFailed
  try dsimp only
  repeat' first
    | with_reducible first
      | assumption | apply bobMove_kept | apply bobRelease_kept | apply laneDown_kept | apply autoTrigger_kept
      | apply swapAbandonTo_kept | apply swapAbandon_kept | apply swapFails_kept | apply kept_ite

theorem rxLost_kept {s0 : State} {n : Nat} {sd : Side} {cause : Nat} {s : State} (hs : Kept s0 s) :
    Kept s0 (rxLost n sd cause s) := by
  unfold rxLost
  try dsimp only
  repeat' first
    | intro _
    | with_reducible first
      | assumption | apply retrain_kept | apply laneDown_kept | apply autoTrigger_kept | apply swapAbandon_kept
      | apply swapFails_kept | apply kept_ite | exact keptOpt_none | apply keptOpt_ite
    | simp only [kept_mk_iff]
    | split
    | with_reducible first
      | (apply kept_pair; assumption) | (apply kept_opt; assumption) | (apply kept_triple; assumption)

end Sys2Proof.Machine
end

