-- ==== Sys2Proof/Laws/KeptLaneEnds.lean ====
section
/-! SUPPORT. What the operations of Machine/LaneEnds.lean keep (`Kept`). -/

namespace Sys2Proof.Machine

theorem polDrop_kept {s0 : State} {n : Nat} {sd : Side} {s : State} (hs : Kept s0 s) :
    Kept s0 (polDrop n sd s) := by
  unfold polDrop
  try dsimp only
  repeat' first
    | with_reducible first
      | assumption | apply wr_kept | apply putRx_kept | apply kept_ite
    | simp only [kept_mk_iff]

theorem unlock_kept {s0 : State} {n : Nat} {sd : Side} {s : State} (hs : Kept s0 s) :
    Kept s0 (unlock n sd s) := by
  unfold unlock
  try dsimp only
  repeat' first
    | with_reducible first
      | assumption | apply wr_kept | apply putRx_kept | apply adaptLeaves_kept | apply steerSync_kept
    | simp only [kept_mk_iff]

theorem execSignalDetect_kept {s0 : State} {e : LaneEnd} {x : Sensed} {s : State} (hs : Kept s0 s) :
    KeptO s0 (execSignalDetect e x s) := by
  unfold execSignalDetect
  try dsimp only
  repeat' first
    | with_reducible first
      | assumption | apply onUnit_kept | apply wr_kept | apply putRx_kept | apply acqQueue_kept
      | apply acqRequest_kept | apply steerSync_kept | apply keptO_next | apply keptO_ite | exact keptO_fault
      | apply kept_ite | exact keptOpt_none | apply keptOpt_ite
    | simp only [kept_mk_iff]
    | split
    | with_reducible first
      | (apply kept_pair; assumption) | (apply kept_opt; assumption) | (apply kept_triple; assumption)

theorem acqLost_kept {s0 : State} {n : Nat} {sd : Side} {s : State} (hs : Kept s0 s) :
    Kept s0 (acqLost n sd s) := by
  unfold acqLost
  try dsimp only
  repeat' first
    | with_reducible first
      | assumption | apply acqRemove_kept | apply figureFails_kept | apply bobAcqEnd_kept | apply kept_ite
      | exact keptOpt_none | apply keptOpt_ite
    | simp only [kept_mk_iff]
    | split
    | with_reducible first
      | (apply kept_pair; assumption) | (apply kept_opt; assumption) | (apply kept_triple; assumption)

theorem rxLostAll_kept {s0 : State} {ends : List Nat} {sd : Side} {cause : Nat} {s : State} (hs : Kept s0 s) :
    Kept s0 (rxLostAll ends sd cause s) := by
  unfold rxLostAll
  try dsimp only
  repeat' first
    | intro _
    | with_reducible first
      | assumption | apply rxLost_kept | apply kept_foldl

theorem signalLost_kept {s0 : State} {n : Nat} {sd : Side} {ns : Nat} {s : State} (hs : Kept s0 s) :
    Kept s0 (signalLost n sd ns s) := by
  unfold signalLost
  try dsimp only
  repeat' first
    | intro _
    | with_reducible first
      | assumption | apply wr_kept | apply wrB_kept | apply raise_kept | apply putRx_kept | apply polDrop_kept
      | apply unlock_kept | apply acqLost_kept | apply kept_ite | exact keptOpt_none | apply keptOpt_ite
    | simp only [kept_mk_iff]
    | split
    | with_reducible first
      | (apply kept_pair; assumption) | (apply kept_opt; assumption) | (apply kept_triple; assumption)

theorem execLossOfSignal_kept {s0 : State} {e : LaneEnd} {x : Sensed} {also : List Nat} {s : State} (hs : Kept s0 s) :
    KeptO s0 (execLossOfSignal e x also s) := by
  unfold execLossOfSignal
  try dsimp only
  repeat' first
    | intro _
    | with_reducible first
      | assumption | apply onUnit_kept | apply rxLostAll_kept | apply signalLost_kept | apply keptO_next
      | apply keptO_ite | exact keptO_fault | apply kept_foldl

theorem execRxOpen_kept {s0 : State} {n : Nat} {sd : Side} {s : State} (hs : Kept s0 s) :
    KeptO s0 (execRxOpen n sd s) := by
  unfold execRxOpen
  try dsimp only
  repeat' first
    | with_reducible first
      | assumption | apply onUnit_kept | apply wr_kept | apply wired_kept | apply endFailed_kept
      | apply keptO_next | apply keptO_ite | exact keptO_fault | apply kept_ite

theorem execRxOpenClear_kept {s0 : State} {n : Nat} {sd : Side} {s : State} (hs : Kept s0 s) :
    KeptO s0 (execRxOpenClear n sd s) := by
  unfold execRxOpenClear
  try dsimp only
  repeat' first
    | with_reducible first
      | assumption | apply onUnit_kept | apply wr_kept | apply bobRelease_kept | apply qualifyCheck_kept
      | apply keptO_next | apply keptO_ite | exact keptO_fault | apply kept_ite | exact keptOpt_none
      | apply keptOpt_ite
    | simp only [kept_mk_iff]
    | split
    | with_reducible first
      | (apply kept_pair; assumption) | (apply kept_opt; assumption) | (apply kept_triple; assumption)

theorem ebCentre_kept {s0 : State} {n : Nat} {sd : Side} {s : State} (hs : Kept s0 s) :
    Kept s0 (ebCentre n sd s) := by
  unfold ebCentre
  try dsimp only
  repeat' first
    | intro _
    | with_reducible first
      | assumption | apply wr_kept | apply putRx_kept | apply kept_ite | exact keptOpt_none | apply keptOpt_ite
    | simp only [kept_mk_iff]
    | split
    | with_reducible first
      | (apply kept_pair; assumption) | (apply kept_opt; assumption) | (apply kept_triple; assumption)

theorem lockEnd_kept {s0 : State} {n : Nat} {sd : Side} {s : State} (hs : Kept s0 s) :
    Kept s0 (lockEnd n sd s) := by
  unfold lockEnd
  try dsimp only
  repeat' first
    | with_reducible first
      | assumption | apply wr_kept | apply putRx_kept | apply adaptEnters_kept | apply steerSync_kept
      | apply qualifyCheck_kept | apply ebCentre_kept
    | simp only [kept_mk_iff]
    | split
    | with_reducible first
      | (apply kept_pair; assumption) | (apply kept_opt; assumption) | (apply kept_triple; assumption)

theorem alignEnd_kept {s0 : State} {n : Nat} {sd : Side} {offset : Nat} {mirror : Bool} {s : State} (hs : Kept s0 s) :
    Kept s0 (alignEnd n sd offset mirror s) := by
  unfold alignEnd
  try dsimp only
  repeat' first
    | with_reducible first
      | assumption | apply wr_kept | apply wired_kept | apply putRx_kept | apply kept_ite
    | simp only [kept_mk_iff]

theorem commaRd_kept {s0 : State} {n : Nat} {sd : Side} {plus : Bool} {s : State} (hs : Kept s0 s) :
    Kept s0 (commaRd n sd plus s) := by
  unfold commaRd
  try dsimp only
  repeat' first
    | with_reducible first
      | assumption | apply putRx_kept
    | simp only [kept_mk_iff]

theorem lockDrop_kept {s0 : State} {n : Nat} {sd : Side} {s : State} (hs : Kept s0 s) :
    Kept s0 (lockDrop n sd s) := by
  unfold lockDrop
  try dsimp only
  repeat' first
    | with_reducible first
      | assumption | apply count_kept | apply raise_kept | apply unlock_kept

theorem locksLost_kept {s0 : State} {ends : List Nat} {sd : Side} {s : State} (hs : Kept s0 s) :
    Kept s0 (locksLost ends sd s) := by
  unfold locksLost
  try dsimp only
  repeat' first
    | intro _
    | with_reducible first
      | assumption | apply rxLostAll_kept | apply lockDrop_kept | apply kept_foldl

theorem oneBad_kept {s0 : State} {n : Nat} {sd : Side} {s : State} (hs : Kept s0 s) :
    Kept s0 (oneBad n sd s) := by
  unfold oneBad
  try dsimp only
  repeat' first
    | with_reducible first
      | assumption | apply putRx_kept | apply locksLost_kept | apply kept_ite
    | simp only [kept_mk_iff]

theorem execCommaDetect_kept {s0 : State} {e : LaneEnd} {offset : Nat} {mirror : Bool} {plus : Bool} {s : State} (hs : Kept s0 s) :
    KeptO s0 (execCommaDetect e offset mirror plus s) := by
  unfold execCommaDetect
  try dsimp only
  repeat' first
    | with_reducible first
      | assumption | apply onUnit_kept | apply wr_kept | apply putRx_kept | apply polDrop_kept
      | apply lockEnd_kept | apply alignEnd_kept | apply commaRd_kept | apply oneBad_kept | apply keptO_next
      | apply keptO_ite | exact keptO_fault | apply kept_ite
    | simp only [kept_mk_iff]

theorem execSymbolLockAcquired_kept {s0 : State} {e : LaneEnd} {plus : Bool} {s : State} (hs : Kept s0 s) :
    KeptO s0 (execSymbolLockAcquired e plus s) := by
  unfold execSymbolLockAcquired
  try dsimp only
  repeat' first
    | with_reducible first
      | assumption | apply onUnit_kept | apply lockEnd_kept | apply commaRd_kept | apply keptO_next
      | apply keptO_ite | exact keptO_fault | apply kept_ite

theorem execAligningBadSymbol_kept {s0 : State} {n : Nat} {sd : Side} {s : State} (hs : Kept s0 s) :
    KeptO s0 (execAligningBadSymbol n sd s) := by
  unfold execAligningBadSymbol
  try dsimp only
  repeat' first
    | with_reducible first
      | assumption | apply onUnit_kept | apply wr_kept | apply putRx_kept | apply polDrop_kept | apply keptO_next
      | apply keptO_ite | exact keptO_fault | apply kept_ite
    | simp only [kept_mk_iff]

theorem execLockLoss_kept {s0 : State} {e : LaneEnd} {also : List Nat} {s : State} (hs : Kept s0 s) :
    KeptO s0 (execLockLoss e also s) := by
  unfold execLockLoss
  try dsimp only
  repeat' first
    | with_reducible first
      | assumption | apply onUnit_kept | apply locksLost_kept | apply keptO_next | apply keptO_ite
      | exact keptO_fault

theorem execLolWindowEnd_kept {s0 : State} {n : Nat} {sd : Side} {s : State} (hs : Kept s0 s) :
    KeptO s0 (execLolWindowEnd n sd s) := by
  unfold execLolWindowEnd
  try dsimp only
  repeat' first
    | with_reducible first
      | assumption | apply onUnit_kept | apply putRx_kept | apply keptO_next | apply keptO_ite | exact keptO_fault
      | apply kept_ite
    | simp only [kept_mk_iff]

theorem execBalanceWindowEnd_kept {s0 : State} {n : Nat} {sd : Side} {counts : List Nat} {s : State} (hs : Kept s0 s) :
    KeptO s0 (execBalanceWindowEnd n sd counts s) := by
  unfold execBalanceWindowEnd
  try dsimp only
  repeat' first
    | with_reducible first
      | assumption | apply onUnit_kept | apply wr_kept | apply keptO_next | apply keptO_ite | exact keptO_fault
      | apply kept_ite

theorem termExit_kept {s0 : State} {c : Nat} {sd : Side} {s : State} (hs : Kept s0 s) :
    Kept s0 (termExit c sd s) := by
  unfold termExit
  try dsimp only
  repeat' first
    | with_reducible first
      | assumption | apply putCkExit_kept | apply kept_ite
    | simp only [kept_mk_iff]

theorem termCmd_kept {s0 : State} {c : Nat} {mask : Nat} {a : Bool} {b : Bool} {s : State} (hs : Kept s0 s) :
    Kept s0 (termCmd c mask a b s) := by
  unfold termCmd
  try dsimp only
  repeat' first
    | intro _
    | with_reducible first
      | assumption | apply wr_kept | apply wrB_kept | apply putTx_kept | apply termExit_kept | apply kept_ite
      | apply kept_foldl
    | simp only [kept_mk_iff]

theorem execTerminationDetect_kept {s0 : State} {c : Nat} {mask : Nat} {a : Bool} {b : Bool} {s : State} (hs : Kept s0 s) :
    KeptO s0 (execTerminationDetect c mask a b s) := by
  unfold execTerminationDetect
  try dsimp only
  repeat' first
    | with_reducible first
      | assumption | apply ifHas_kept | apply termCmd_kept | apply keptO_next | apply keptO_ite
      | exact keptO_fault

theorem termResult_kept {s0 : State} {c : Nat} {j : Nat} {sd : Side} {absent : Bool} {s : State} (hs : Kept s0 s) :
    Kept s0 (termResult c j sd absent s) := by
  unfold termResult
  try dsimp only
  repeat' first
    | with_reducible first
      | assumption | apply wr_kept | apply wrB_kept | apply wired_kept | apply putTx_kept | apply kept_ite
    | simp only [kept_mk_iff]

theorem termClock_kept {s0 : State} {c : Nat} {d : Dir} {absent : Bool} {s : State} (hs : Kept s0 s) :
    Kept s0 (termClock c d absent s) := by
  unfold termClock
  try dsimp only
  repeat' first
    | with_reducible first
      | assumption | apply raise_kept | apply putCkExit_kept | apply kept_ite
    | simp only [kept_mk_iff]

theorem termFaulty_kept {s0 : State} {c : Nat} {j : Nat} {sd : Side} {s : State} (hs : Kept s0 s) :
    Kept s0 (termFaulty c j sd s) := by
  unfold termFaulty
  try dsimp only
  repeat' first
    | with_reducible first
      | assumption | apply swapTrigger_kept | apply endFailed_kept | apply kept_ite | exact keptOpt_none
      | apply keptOpt_ite
    | simp only [kept_mk_iff]
    | split
    | with_reducible first
      | (apply kept_pair; assumption) | (apply kept_opt; assumption) | (apply kept_triple; assumption)

theorem termDone_kept {s0 : State} {c : Nat} {absent : List Nat} {s : State} (hs : Kept s0 s) :
    Kept s0 (termDone c absent s) := by
  unfold termDone
  try dsimp only
  repeat' first
    | intro _
    | with_reducible first
      | assumption | apply wr_kept | apply bobRelease_kept | apply detectCheck_kept | apply detectSwapEnd_kept
      | apply termResult_kept | apply termClock_kept | apply termFaulty_kept | apply kept_ite | apply kept_foldl

theorem execTerminationDetectDone_kept {s0 : State} {c : Nat} {absent : List Nat} {s : State} (hs : Kept s0 s) :
    KeptO s0 (execTerminationDetectDone c absent s) := by
  unfold execTerminationDetectDone
  try dsimp only
  repeat' first
    | with_reducible first
      | assumption | apply onUnit_kept | apply termDone_kept | apply keptO_next | apply keptO_ite
      | exact keptO_fault

theorem execTxShort_kept {s0 : State} {n : Nat} {sd : Side} {cls : Nat} {s : State} (hs : Kept s0 s) :
    KeptO s0 (execTxShort n sd cls s) := by
  unfold execTxShort
  try dsimp only
  repeat' first
    | with_reducible first
      | assumption | apply onUnit_kept | apply wr_kept | apply raise_kept | apply wired_kept
      | apply putCkExit_kept | apply txRest_kept | apply endFailed_kept | apply keptO_next | apply keptO_ite
      | exact keptO_fault | apply kept_ite
    | simp only [kept_mk_iff]

theorem cntSnap_kept {s0 : State} {c : Nat} {s : State} (hs : Kept s0 s) :
    Kept s0 (cntSnap c s) := by
  unfold cntSnap
  try dsimp only
  repeat' first
    | with_reducible first
      | assumption | apply bumpWrap_kept | apply latchAll_kept | apply answerWord_kept

theorem execCntSnap_kept {s0 : State} {c : Nat} {s : State} (hs : Kept s0 s) :
    KeptO s0 (execCntSnap c s) := by
  unfold execCntSnap
  try dsimp only
  repeat' first
    | with_reducible first
      | assumption | apply ifHas_kept | apply answerWord_kept | apply cntSnap_kept | apply keptO_next
      | apply keptO_ite | exact keptO_fault

theorem cntClear_kept {s0 : State} {c : Nat} {s : State} (hs : Kept s0 s) :
    Kept s0 (cntClear c s) := by
  unfold cntClear
  try dsimp only
  repeat' first
    | with_reducible first
      | assumption | apply putLive_kept | apply zeroLive_kept

theorem execCntCtlClear_kept {s0 : State} {c : Nat} {s : State} (hs : Kept s0 s) :
    KeptO s0 (execCntCtlClear c s) := by
  unfold execCntCtlClear
  try dsimp only
  repeat' first
    | with_reducible first
      | assumption | apply ifHas_kept | apply cntClear_kept | apply keptO_next | apply keptO_ite
      | exact keptO_fault

theorem leCfgSide_kept {s0 : State} {n : Nat} {sd : Side} {s : State} (hs : Kept s0 s) :
    Kept s0 (leCfgSide n sd s) := by
  unfold leCfgSide
  try dsimp only
  repeat' first
    | with_reducible first
      | assumption | apply wrB_kept | apply putRx_kept | apply putTx_kept | apply polRestart_kept
      | apply exitPol_kept | apply kept_ite
    | simp only [kept_mk_iff]

theorem leCfgWrite_kept {s0 : State} {n : Nat} {v : Nat} {s : State} (hs : Kept s0 s) :
    Kept s0 (leCfgWrite n v s) := by
  unfold leCfgWrite
  try dsimp only
  repeat' first
    | intro _
    | with_reducible first
      | assumption | apply wrB_kept | apply leCfgSide_kept | apply kept_foldl

theorem execLeCfgWrite_kept {s0 : State} {n : Nat} {v : Nat} {s : State} (hs : Kept s0 s) :
    KeptO s0 (execLeCfgWrite n v s) := by
  unfold execLeCfgWrite
  try dsimp only
  repeat' first
    | with_reducible first
      | assumption | apply ifHas_kept | apply leCfgWrite_kept | apply keptO_next | apply keptO_ite
      | exact keptO_fault

end Sys2Proof.Machine
end

