-- ==== Sys2Proof/Laws/KeptEqualization.lean ====
section
/-! SUPPORT. What the operations of Machine/Equalization.lean keep (`Kept`). -/

namespace Sys2Proof.Machine

theorem acqEnd_kept {s0 : State} {n : Nat} {sd : Side} {ok : Bool} {s : State} (hs : Kept s0 s) :
    Kept s0 (acqEnd n sd ok s) := by
  unfold acqEnd
  try dsimp only
  repeat' first
    | with_reducible first
      | assumption | apply wr_kept | apply bump_kept | apply raise_kept | apply putCoef_kept
      | apply engineDrop_kept | apply figureFails_kept | apply qualifyCheck_kept | apply bobAcqEnd_kept
      | apply kept_ite | exact keptOpt_none | apply keptOpt_ite
    | simp only [kept_mk_iff]
    | split
    | with_reducible first
      | (apply kept_pair; assumption) | (apply kept_opt; assumption) | (apply kept_triple; assumption)

theorem execAcqBlockEnd_kept {s0 : State} {n : Nat} {sd : Side} {mse : Nat} {coefs : List Int} {f1pos : Nat} {f2pos : Nat} {s : State} (hs : Kept s0 s) :
    KeptO s0 (execAcqBlockEnd n sd mse coefs f1pos f2pos s) := by
  unfold execAcqBlockEnd
  try dsimp only
  repeat' first
    | with_reducible first
      | assumption | apply onUnit_kept | apply putCoef_kept | apply acqEnd_kept | apply keptO_next
      | apply keptO_ite | exact keptO_fault | apply kept_ite
    | simp only [kept_mk_iff]

theorem execAcqTimeout_kept {s0 : State} {n : Nat} {sd : Side} {s : State} (hs : Kept s0 s) :
    KeptO s0 (execAcqTimeout n sd s) := by
  unfold execAcqTimeout
  try dsimp only
  repeat' first
    | with_reducible first
      | assumption | apply onUnit_kept | apply acqEnd_kept | apply keptO_next | apply keptO_ite
      | exact keptO_fault | apply kept_ite

theorem judgeRange_kept {s0 : State} {n : Nat} {sd : Side} {mse : Nat} {s : State} (hs : Kept s0 s) :
    Kept s0 (judgeRange n sd mse s) := by
  unfold judgeRange
  try dsimp only
  repeat' first
    | with_reducible first
      | assumption | apply wr_kept | apply raise_kept | apply putCoef_kept | apply kept_ite
    | simp only [kept_mk_iff]

theorem execTrackVisitEnd_kept {s0 : State} {n : Nat} {sd : Side} {mse : Nat} {steps : List Int} {s : State} (hs : Kept s0 s) :
    KeptO s0 (execTrackVisitEnd n sd mse steps s) := by
  unfold execTrackVisitEnd
  try dsimp only
  repeat' first
    | with_reducible first
      | assumption | apply onUnit_kept | apply putCoef_kept | apply putEngine_kept | apply engineNext_kept
      | apply judgeRange_kept | apply keptO_next | apply keptO_ite | exact keptO_fault | apply kept_ite
    | simp only [kept_mk_iff]

theorem execTrackUpdateApply_kept {s0 : State} {n : Nat} {sd : Side} {s : State} (hs : Kept s0 s) :
    KeptO s0 (execTrackUpdateApply n sd s) := by
  unfold execTrackUpdateApply
  try dsimp only
  repeat' first
    | with_reducible first
      | assumption | apply onUnit_kept | apply putCoef_kept | apply keptO_next | apply keptO_ite
      | exact keptO_fault | apply kept_ite
    | simp only [kept_mk_iff]

theorem adaptCmd_kept {s0 : State} {c : Nat} {op : Nat} {sd : Side} {pos : Nat} {refused : Bool} {act : Nat → State → State} {s : State} (hact : ∀ y0 y1, Kept s0 y1 → Kept s0 (act y0 y1)) (hs : Kept s0 s) :
    Kept s0 (adaptCmd c op sd pos refused act s) := by
  unfold adaptCmd
  try dsimp only
  repeat' first
    | intro _
    | with_reducible first
      | assumption | apply wr_kept | apply hact | apply kept_ite

theorem execAdaptReacquire_kept {s0 : State} {c : Nat} {sd : Side} {pos : Nat} {s : State} (hs : Kept s0 s) :
    KeptO s0 (execAdaptReacquire c sd pos s) := by
  unfold execAdaptReacquire
  try dsimp only
  repeat' first
    | intro _
    | with_reducible first
      | assumption | apply ifHas_kept | apply acqRequest_kept | apply adaptCmd_kept | apply keptO_next
      | apply keptO_ite | exact keptO_fault | apply kept_ite

theorem execAdaptFreeze_kept {s0 : State} {c : Nat} {sd : Side} {pos : Nat} {s : State} (hs : Kept s0 s) :
    KeptO s0 (execAdaptFreeze c sd pos s) := by
  unfold execAdaptFreeze
  try dsimp only
  repeat' first
    | intro _
    | with_reducible first
      | assumption | apply wr_kept | apply ifHas_kept | apply putCoef_kept | apply engineDrop_kept
      | apply adaptCmd_kept | apply keptO_next | apply keptO_ite | exact keptO_fault
    | simp only [kept_mk_iff]

theorem execAdaptThaw_kept {s0 : State} {c : Nat} {sd : Side} {pos : Nat} {s : State} (hs : Kept s0 s) :
    KeptO s0 (execAdaptThaw c sd pos s) := by
  unfold execAdaptThaw
  try dsimp only
  repeat' first
    | intro _
    | with_reducible first
      | assumption | apply wr_kept | apply ifHas_kept | apply engineNext_kept | apply adaptCmd_kept
      | apply keptO_next | apply keptO_ite | exact keptO_fault

theorem adaptHold_kept {s0 : State} {c : Nat} {s : State} (hs : Kept s0 s) :
    Kept s0 (adaptHold c s) := by
  unfold adaptHold
  try dsimp only
  repeat' first
    | intro _
    | with_reducible first
      | assumption | apply putCoef_kept | apply putEngine_kept | apply kept_ite | apply kept_foldl
    | simp only [kept_mk_iff]

theorem adaptEnable_kept {s0 : State} {c : Nat} {s : State} (hs : Kept s0 s) :
    Kept s0 (adaptEnable c s) := by
  unfold adaptEnable
  try dsimp only
  repeat' first
    | intro _
    | with_reducible first
      | assumption | apply adaptEnters_kept | apply adaptHold_kept | apply kept_ite | apply kept_foldl

theorem dfeSelWrite_kept {s0 : State} {c : Nat} {v : Nat} {s : State} (hs : Kept s0 s) :
    Kept s0 (dfeSelWrite c v s) := by
  unfold dfeSelWrite
  try dsimp only
  repeat' first
    | intro _
    | with_reducible first
      | assumption | apply wr_kept | apply kept_ite | apply kept_foldl

theorem execDfeSelWrite_kept {s0 : State} {c : Nat} {v : Nat} {s : State} (hs : Kept s0 s) :
    KeptO s0 (execDfeSelWrite c v s) := by
  unfold execDfeSelWrite
  try dsimp only
  repeat' first
    | with_reducible first
      | assumption | apply ifHas_kept | apply dfeSelWrite_kept | apply keptO_next | apply keptO_ite
      | exact keptO_fault

end Sys2Proof.Machine
end

