-- ==== Sys2Proof/Laws/KeptUnits.lean ====
section
/-! SUPPORT. What the operations of Machine/Units.lean keep (`Kept`). -/

namespace Sys2Proof.Machine

theorem slicesEnd_kept {s0 : State} {d : Nat} {result : Nat} {cause : Nat} {s : State} (hs : Kept s0 s) :
    Kept s0 (slicesEnd d result cause s) := by
  unfold slicesEnd
  try dsimp only
  repeat' first
    | with_reducible first
      | assumption | apply bankStop_kept | apply bobSliceCut_kept

theorem limitFails_kept {s0 : State} {cause : Nat} {s : State} (hs : Kept s0 s) :
    Kept s0 (limitFails cause s) := by
  unfold limitFails
  try dsimp only
  repeat' first
    | with_reducible first
      | assumption | apply slicesEnd_kept

theorem recordCause_kept {s0 : State} {f : Fld} {cause : Nat} {s : State} (hs : Kept s0 s) :
    Kept s0 (recordCause f cause s) := by
  unfold recordCause
  try dsimp only
  repeat' first
    | with_reducible first
      | assumption | apply wr_kept | apply kept_ite

theorem recordParent_kept {s0 : State} {f : Fld} {s : State} (hs : Kept s0 s) :
    Kept s0 (recordParent f s) := by
  unfold recordParent
  try dsimp only
  repeat' first
    | with_reducible first
      | assumption | apply wr_kept | apply kept_ite

theorem linkHalt_kept {s0 : State} {k : Nat} {s : State} (hs : Kept s0 s) :
    Kept s0 (linkHalt k s) := by
  unfold linkHalt
  try dsimp only
  repeat' first
    | intro _
    | with_reducible first
      | assumption | apply linkDropTraffic_kept | apply spanHold_kept | apply kept_foldl

theorem haltFenced_kept {s0 : State} {s : State} (hs : Kept s0 s) :
    Kept s0 (haltFenced s) := by
  unfold haltFenced
  try dsimp only
  repeat' first
    | intro _
    | with_reducible first
      | assumption | apply swapAbandon_kept | apply slicesEnd_kept | apply linkHalt_kept | apply kept_ite
      | apply kept_foldl

theorem fenceTakes_kept {s0 : State} {s : State} (hs : Kept s0 s) :
    Kept s0 (fenceTakes s) := by
  unfold fenceTakes
  try dsimp only
  repeat' first
    | with_reducible first
      | assumption | apply haltFenced_kept | apply kept_ite

theorem fenceRegion_kept {s0 : State} {r : Nat} {cause : Nat} {s : State} (hs : Kept s0 s) :
    Kept s0 (fenceRegion r cause s) := by
  unfold fenceRegion
  try dsimp only
  repeat' first
    | with_reducible first
      | assumption | apply recordCause_kept | apply fenceTakes_kept

theorem parentDie_kept {s0 : State} {d : Nat} {s : State} (hs : Kept s0 s) :
    Kept s0 (parentDie d s) := by
  unfold parentDie
  try dsimp only
  repeat' first
    | with_reducible first
      | assumption | apply recordParent_kept

theorem fenceDie_kept {s0 : State} {d : Nat} {cause : Nat} {s : State} (hs : Kept s0 s) :
    Kept s0 (fenceDie d cause s) := by
  unfold fenceDie
  try dsimp only
  repeat' first
    | with_reducible first
      | assumption | apply recordCause_kept | apply fenceTakes_kept | apply parentDie_kept

theorem fencePkg_kept {s0 : State} {cause : Nat} {s : State} (hs : Kept s0 s) :
    Kept s0 (fencePkg cause s) := by
  unfold fencePkg
  try dsimp only
  repeat' first
    | intro _
    | with_reducible first
      | assumption | apply recordCause_kept | apply recordParent_kept | apply fenceTakes_kept
      | apply parentDie_kept | apply kept_foldl

theorem haltAll_kept {s0 : State} {s : State} (hs : Kept s0 s) :
    Kept s0 (haltAll s) := by
  unfold haltAll
  try dsimp only
  repeat' first
    | intro _
    | with_reducible first
      | assumption | apply linkHalt_kept | apply kept_ite | apply kept_foldl

theorem trainAll_kept {s0 : State} {s : State} (hs : Kept s0 s) :
    Kept s0 (trainAll s) := by
  unfold trainAll
  try dsimp only
  repeat' first
    | intro _
    | with_reducible first
      | assumption | apply linkTrain_kept | apply kept_foldl

theorem loopsUsed_kept {s0 : State} {s : State} (hs : Kept s0 s) :
    Kept s0 (loopsUsed s) := by
  unfold loopsUsed
  try dsimp only
  repeat' first
    | intro _
    | with_reducible first
      | assumption | apply loopStop_kept | apply kept_ite | apply kept_foldl

theorem ungate_kept {s0 : State} {p : Nat} {s : State} (hs : Kept s0 s) :
    Kept s0 (ungate p s) := by
  unfold ungate
  try dsimp only
  repeat' first
    | intro _
    | with_reducible first
      | assumption | apply wr_kept | apply relevel_kept | apply suspectSlices_kept | apply kept_ite
      | apply kept_foldl

theorem ungateUsed_kept {s0 : State} {s : State} (hs : Kept s0 s) :
    Kept s0 (ungateUsed s) := by
  unfold ungateUsed
  try dsimp only
  repeat' first
    | intro _
    | with_reducible first
      | assumption | apply ungate_kept | apply kept_ite | apply kept_foldl

end Sys2Proof.Machine
end

