-- ==== Sys2Proof/Laws/KeptDeviceClocks.lean ====
section
/-! SUPPORT. What the operations of Machine/DeviceClocks.lean keep (`Kept`). -/

namespace Sys2Proof.Machine

theorem setPllRef_kept {s0 : State} {s : State} {u : Nat} {v : Nat} (hs : Kept s0 s) :
    Kept s0 (State.setPllRef s u v) := by
  unfold State.setPllRef
  try dsimp only
  repeat' first
    | with_reducible first
      | assumption | apply wr_kept | apply kept_ite
    | simp only [kept_mk_iff]

theorem seamUp_kept {s0 : State} {b : Bool} {s : State} (hs : Kept s0 s) :
    Kept s0 (seamUp b s) := by
  unfold seamUp
  try dsimp only
  repeat' first
    | with_reducible first
      | assumption | apply wrB_kept | apply kept_ite

theorem pllLock_kept {s0 : State} {u : Nat} {ref : Nat} {s : State} (hs : Kept s0 s) :
    Kept s0 (pllLock u ref s) := by
  unfold pllLock
  try dsimp only
  repeat' first
    | with_reducible first
      | assumption | apply wr_kept | apply setPllRef_kept | apply seamUp_kept | apply kept_ite

theorem pllsWith_kept {s0 : State} {refs : List Nat} {f : Nat → State → State} {s : State} (hf : ∀ y0 y1, Kept s0 y1 → Kept s0 (f y0 y1)) (hs : Kept s0 s) :
    Kept s0 (pllsWith refs f s) := by
  unfold pllsWith
  try dsimp only
  repeat' first
    | intro _
    | with_reducible first
      | assumption | apply hf | apply kept_ite | apply kept_foldl

theorem pllsStart_kept {s0 : State} {ref : Nat} {s : State} (hs : Kept s0 s) :
    Kept s0 (pllsStart ref s) := by
  unfold pllsStart
  try dsimp only
  repeat' first
    | intro _
    | with_reducible first
      | assumption | apply pllLock_kept | apply kept_ite | apply kept_foldl

theorem pllReturn_kept {s0 : State} {u : Nat} {s : State} (hs : Kept s0 s) :
    Kept s0 (pllReturn u s) := by
  unfold pllReturn
  try dsimp only
  repeat' first
    | with_reducible first
      | assumption | apply bump_kept | apply setPllRef_kept

theorem judgeStart_kept {s0 : State} {s : State} (hs : Kept s0 s) :
    Kept s0 (judgeStart s) := by
  unfold judgeStart
  try dsimp only
  repeat' first
    | with_reducible first
      | assumption
    | simp only [kept_mk_iff]

theorem armMonitor_kept {s0 : State} {s : State} (hs : Kept s0 s) :
    Kept s0 (armMonitor s) := by
  unfold armMonitor
  try dsimp only
  repeat' first
    | with_reducible first
      | assumption | apply wr_kept | apply kept_ite

theorem refclkGood_kept {s0 : State} {method : Nat} {s : State} (hs : Kept s0 s) :
    Kept s0 (refclkGood method s) := by
  unfold refclkGood
  try dsimp only
  repeat' first
    | with_reducible first
      | assumption | apply wr_kept | apply suspectSlices_kept | apply refclkBack_kept | apply detectAll_kept
      | apply pllsWith_kept | apply pllsStart_kept | apply pllReturn_kept | apply armMonitor_kept | apply kept_ite
    | simp only [kept_mk_iff]

theorem refclkBad_kept {s0 : State} {s : State} (hs : Kept s0 s) :
    Kept s0 (refclkBad s) := by
  unfold refclkBad
  try dsimp only
  repeat' first
    | with_reducible first
      | assumption | apply wr_kept | apply refclkLost_kept | apply limitFails_kept | apply judgeStart_kept
      | apply armMonitor_kept
    | simp only [kept_mk_iff]

theorem tripReport_kept {s0 : State} {s : State} (hs : Kept s0 s) :
    Kept s0 (tripReport s) := by
  unfold tripReport
  try dsimp only
  repeat' first
    | with_reducible first
      | assumption | apply bump_kept | apply raise_kept
    | simp only [kept_mk_iff]

theorem refclkTrip_kept {s0 : State} {s : State} (hs : Kept s0 s) :
    Kept s0 (refclkTrip s) := by
  unfold refclkTrip
  try dsimp only
  repeat' first
    | intro _
    | with_reducible first
      | assumption | apply refclkBad_kept | apply tripReport_kept | apply kept_ite
    | simp only [kept_mk_iff]

theorem execNativeJudgePass_kept {s0 : State} {s : State} (hs : Kept s0 s) :
    KeptO s0 (execNativeJudgePass s) := by
  unfold execNativeJudgePass
  try dsimp only
  repeat' first
    | with_reducible first
      | assumption | apply refclkGood_kept | apply keptO_next | apply keptO_ite | exact keptO_fault
      | apply kept_ite
    | simp only [kept_mk_iff]

theorem execCompatJudgeEnd_kept {s0 : State} {cycles : Nat} {missed : Bool} {s : State} (hs : Kept s0 s) :
    KeptO s0 (execCompatJudgeEnd cycles missed s) := by
  unfold execCompatJudgeEnd
  try dsimp only
  repeat' first
    | with_reducible first
      | assumption | apply bump_kept | apply judgeStart_kept | apply refclkGood_kept | apply keptO_next
      | apply keptO_ite | exact keptO_fault | apply kept_ite

theorem ifoReady_kept {s0 : State} {s : State} (hs : Kept s0 s) :
    Kept s0 (ifoReady s) := by
  unfold ifoReady
  try dsimp only
  repeat' first
    | with_reducible first
      | assumption | apply wr_kept | apply pllsStart_kept | apply armMonitor_kept | apply kept_ite
    | simp only [kept_mk_iff]

theorem execIfoReady_kept {s0 : State} {s : State} (hs : Kept s0 s) :
    KeptO s0 (execIfoReady s) := by
  unfold execIfoReady
  try dsimp only
  repeat' first
    | with_reducible first
      | assumption | apply ifoReady_kept | apply keptO_next | apply keptO_ite | exact keptO_fault | apply kept_ite

theorem startFails_kept {s0 : State} {cause : Nat} {s : State} (hs : Kept s0 s) :
    Kept s0 (startFails cause s) := by
  unfold startFails
  try dsimp only
  repeat' first
    | with_reducible first
      | assumption | apply wr_kept | apply kept_ite

theorem execIfoReadyTimeout_kept {s0 : State} {s : State} (hs : Kept s0 s) :
    KeptO s0 (execIfoReadyTimeout s) := by
  unfold execIfoReadyTimeout
  try dsimp only
  repeat' first
    | with_reducible first
      | assumption | apply startFails_kept | apply keptO_next | apply keptO_ite | exact keptO_fault
      | apply kept_ite

theorem execIfoMeasureEnd_kept {s0 : State} {ppm : Int} {s : State} (hs : Kept s0 s) :
    KeptO s0 (execIfoMeasureEnd ppm s) := by
  unfold execIfoMeasureEnd
  try dsimp only
  repeat' first
    | with_reducible first
      | assumption | apply wr_kept | apply keptO_next | apply keptO_ite | exact keptO_fault | apply kept_ite

theorem execMonitorWindowEnd_kept {s0 : State} {count : Nat} {s : State} (hs : Kept s0 s) :
    KeptO s0 (execMonitorWindowEnd count s) := by
  unfold execMonitorWindowEnd
  try dsimp only
  repeat' first
    | intro _
    | with_reducible first
      | assumption | apply wr_kept | apply count_kept | apply setPllRef_kept | apply pllsWith_kept
      | apply refclkTrip_kept | apply keptO_next | apply keptO_ite | exact keptO_fault | apply kept_ite

theorem execPllHoldover_kept {s0 : State} {unit : Nat} {s : State} (hs : Kept s0 s) :
    KeptO s0 (execPllHoldover unit s) := by
  unfold execPllHoldover
  try dsimp only
  repeat' first
    | with_reducible first
      | assumption | apply onUnit_kept | apply setPllRef_kept | apply keptO_next | apply keptO_ite
      | exact keptO_fault | apply kept_ite

theorem execRefclkReturn_kept {s0 : State} {unit : Nat} {s : State} (hs : Kept s0 s) :
    KeptO s0 (execRefclkReturn unit s) := by
  unfold execRefclkReturn
  try dsimp only
  repeat' first
    | with_reducible first
      | assumption | apply onUnit_kept | apply setPllRef_kept | apply keptO_next | apply keptO_ite
      | exact keptO_fault | apply kept_ite

theorem execPllIfoLock_kept {s0 : State} {unit : Nat} {s : State} (hs : Kept s0 s) :
    KeptO s0 (execPllIfoLock unit s) := by
  unfold execPllIfoLock
  try dsimp only
  repeat' first
    | intro _
    | with_reducible first
      | assumption | apply onUnit_kept | apply setPllRef_kept | apply tripReport_kept | apply refclkTrip_kept
      | apply keptO_next | apply keptO_ite | exact keptO_fault | apply kept_ite

theorem returnToRefclk_kept {s0 : State} {s : State} (hs : Kept s0 s) :
    Kept s0 (returnToRefclk s) := by
  unfold returnToRefclk
  try dsimp only
  repeat' first
    | with_reducible first
      | assumption | apply pllsWith_kept | apply pllReturn_kept

theorem execReturnHoldExpiry_kept {s0 : State} {s : State} (hs : Kept s0 s) :
    KeptO s0 (execReturnHoldExpiry s) := by
  unfold execReturnHoldExpiry
  try dsimp only
  repeat' first
    | with_reducible first
      | assumption | apply returnToRefclk_kept | apply keptO_next | apply keptO_ite | exact keptO_fault
      | apply kept_ite
    | simp only [kept_mk_iff]

theorem writeClkCfg_kept {s0 : State} {v : Nat} {s : State} (hs : Kept s0 s) :
    Kept s0 (writeClkCfg v s) := by
  unfold writeClkCfg
  try dsimp only
  repeat' first
    | with_reducible first
      | assumption | apply wr_kept | apply returnToRefclk_kept | apply kept_ite

theorem execClkCfgWrite_kept {s0 : State} {v : Nat} {s : State} (hs : Kept s0 s) :
    KeptO s0 (execClkCfgWrite v s) := by
  unfold execClkCfgWrite
  try dsimp only
  repeat' first
    | with_reducible first
      | assumption | apply ifOpen_kept | apply writeClkCfg_kept | apply keptO_next | apply keptO_ite
      | exact keptO_fault

theorem execIfoLoss_kept {s0 : State} {s : State} (hs : Kept s0 s) :
    KeptO s0 (execIfoLoss s) := by
  unfold execIfoLoss
  try dsimp only
  repeat' first
    | intro _
    | with_reducible first
      | assumption | apply wr_kept | apply bump_kept | apply raise_kept | apply setPllRef_kept
      | apply pllsWith_kept | apply pllReturn_kept | apply judgeStart_kept | apply armMonitor_kept
      | apply keptO_next | apply keptO_ite | exact keptO_fault | apply kept_ite
    | simp only [kept_mk_iff]

theorem execClockUnusableFence_kept {s0 : State} {s : State} (hs : Kept s0 s) :
    KeptO s0 (execClockUnusableFence s) := by
  unfold execClockUnusableFence
  try dsimp only
  repeat' first
    | with_reducible first
      | assumption | apply fencePkg_kept | apply keptO_next | apply keptO_ite | exact keptO_fault | apply kept_ite

theorem putPl_kept {s0 : State} {s : State} {d : Nat} {v : PlSt} (hs : Kept s0 s) :
    Kept s0 (State.putPl s d v) := by
  unfold State.putPl
  try dsimp only
  repeat' first
    | with_reducible first
      | assumption | apply kept_put_plv
    | simp only [kept_mk_iff]

theorem plAbort_kept {s0 : State} {d : Nat} {s : State} (hs : Kept s0 s) :
    Kept s0 (plAbort d s) := by
  unfold plAbort
  try dsimp only
  repeat' first
    | with_reducible first
      | assumption | apply wr_kept | apply kept_ite

theorem execCorePllUnlock_kept {s0 : State} {die : Nat} {s : State} (hs : Kept s0 s) :
    KeptO s0 (execCorePllUnlock die s) := by
  unfold execCorePllUnlock
  try dsimp only
  repeat' first
    | with_reducible first
      | assumption | apply onUnit_kept | apply wr_kept | apply bump_kept | apply raise_kept | apply fenceDie_kept
      | apply plAbort_kept | apply keptO_next | apply keptO_ite | exact keptO_fault | apply kept_ite

theorem execCorePllRelock_kept {s0 : State} {die : Nat} {s : State} (hs : Kept s0 s) :
    KeptO s0 (execCorePllRelock die s) := by
  unfold execCorePllRelock
  try dsimp only
  repeat' first
    | with_reducible first
      | assumption | apply onUnit_kept | apply wr_kept | apply keptO_next | apply keptO_ite | exact keptO_fault
      | apply kept_ite

theorem plRequest_kept {s0 : State} {die : Nat} {level : Nat} {s : State} (hs : Kept s0 s) :
    Kept s0 (plRequest die level s) := by
  unfold plRequest
  try dsimp only
  repeat' first
    | with_reducible first
      | assumption | apply wr_kept | apply bump_kept | apply raise_kept | apply putPl_kept | apply kept_ite

theorem execPlRequest_kept {s0 : State} {die : Nat} {level : Nat} {s : State} (hs : Kept s0 s) :
    KeptO s0 (execPlRequest die level s) := by
  unfold execPlRequest
  try dsimp only
  repeat' first
    | with_reducible first
      | assumption | apply wr_kept | apply ifOpen_kept | apply plRequest_kept | apply keptO_next | apply keptO_ite
      | exact keptO_fault

theorem plDone_kept {s0 : State} {d : Nat} {s : State} (hs : Kept s0 s) :
    Kept s0 (plDone d s) := by
  unfold plDone
  try dsimp only
  repeat' first
    | with_reducible first
      | assumption | apply wr_kept | apply bump_kept | apply raise_kept

theorem execPlVoltageSettled_kept {s0 : State} {die : Nat} {vout : Nat} {s : State} (hs : Kept s0 s) :
    KeptO s0 (execPlVoltageSettled die vout s) := by
  unfold execPlVoltageSettled
  try dsimp only
  repeat' first
    | with_reducible first
      | assumption | apply onUnit_kept | apply wr_kept | apply plDone_kept | apply keptO_next | apply keptO_ite
      | exact keptO_fault | apply kept_ite

theorem execPlDividerSwitched_kept {s0 : State} {die : Nat} {s : State} (hs : Kept s0 s) :
    KeptO s0 (execPlDividerSwitched die s) := by
  unfold execPlDividerSwitched
  try dsimp only
  repeat' first
    | with_reducible first
      | assumption | apply onUnit_kept | apply wr_kept | apply suspectSlice_kept | apply prkNotice_kept
      | apply slicesEnd_kept | apply plDone_kept | apply keptO_next | apply keptO_ite | exact keptO_fault
      | apply kept_ite

theorem execMgmtPllUnlock_kept {s0 : State} {s : State} (hs : Kept s0 s) :
    KeptO s0 (execMgmtPllUnlock s) := by
  unfold execMgmtPllUnlock
  try dsimp only
  repeat' first
    | with_reducible first
      | assumption | apply wr_kept | apply keptO_next | apply keptO_ite | exact keptO_fault

theorem execMgmtPllRelock_kept {s0 : State} {s : State} (hs : Kept s0 s) :
    KeptO s0 (execMgmtPllRelock s) := by
  unfold execMgmtPllRelock
  try dsimp only
  repeat' first
    | with_reducible first
      | assumption | apply wr_kept | apply keptO_next | apply keptO_ite | exact keptO_fault | apply kept_ite

theorem execSeamPllUnlock_kept {s0 : State} {s : State} (hs : Kept s0 s) :
    KeptO s0 (execSeamPllUnlock s) := by
  unfold execSeamPllUnlock
  try dsimp only
  repeat' first
    | with_reducible first
      | assumption | apply onUnit_kept | apply wr_kept | apply raise_kept | apply seamUp_kept | apply keptO_next
      | apply keptO_ite | exact keptO_fault | apply kept_ite

theorem execSeamPllRelock_kept {s0 : State} {s : State} (hs : Kept s0 s) :
    KeptO s0 (execSeamPllRelock s) := by
  unfold execSeamPllRelock
  try dsimp only
  repeat' first
    | with_reducible first
      | assumption | apply onUnit_kept | apply wr_kept | apply seamUp_kept | apply keptO_next | apply keptO_ite
      | exact keptO_fault | apply kept_ite

theorem fmAbort_kept {s0 : State} {s : State} (hs : Kept s0 s) :
    Kept s0 (fmAbort s) := by
  unfold fmAbort
  try dsimp only
  repeat' first
    | with_reducible first
      | assumption | apply wr_kept | apply kept_ite

theorem bistHold_kept {s0 : State} {s : State} (hs : Kept s0 s) :
    Kept s0 (bistHold s) := by
  unfold bistHold
  try dsimp only
  repeat' first
    | with_reducible first
      | assumption
    | simp only [kept_mk_iff]
    | split
    | with_reducible first
      | (apply kept_pair; assumption) | (apply kept_opt; assumption) | (apply kept_triple; assumption)

theorem bistResume_kept {s0 : State} {s : State} (hs : Kept s0 s) :
    Kept s0 (bistResume s) := by
  unfold bistResume
  try dsimp only
  repeat' first
    | with_reducible first
      | assumption | apply kept_ite | exact keptOpt_none | apply keptOpt_ite
    | simp only [kept_mk_iff]
    | split
    | with_reducible first
      | (apply kept_pair; assumption) | (apply kept_opt; assumption) | (apply kept_triple; assumption)

theorem setGate_kept {s0 : State} {p : Nat} {en : Bool} {s : State} (hs : Kept s0 s) :
    Kept s0 (setGate p en s) := by
  unfold setGate
  try dsimp only
  repeat' first
    | intro _
    | with_reducible first
      | assumption | apply wr_kept | apply ungate_kept | apply fmAbort_kept | apply bistHold_kept
      | apply bistResume_kept | apply kept_ite | apply kept_foldl
    | simp only [kept_mk_iff]
    | split
    | with_reducible first
      | (apply kept_pair; assumption) | (apply kept_opt; assumption) | (apply kept_triple; assumption)

theorem writeClkEn_kept {s0 : State} {p : Nat} {v : Nat} {s : State} (hs : Kept s0 s) :
    Kept s0 (writeClkEn p v s) := by
  unfold writeClkEn
  try dsimp only
  repeat' first
    | intro _
    | with_reducible first
      | assumption | apply wr_kept | apply setGate_kept | apply kept_ite | apply kept_foldl

theorem execClkEnWrite_kept {s0 : State} {page : Nat} {v : Nat} {s : State} (hs : Kept s0 s) :
    KeptO s0 (execClkEnWrite page v s) := by
  unfold execClkEnWrite
  try dsimp only
  repeat' first
    | with_reducible first
      | assumption | apply writeClkEn_kept | apply keptO_next | apply keptO_ite | exact keptO_fault
      | apply kept_ite

theorem fmStart_kept {s0 : State} {s : State} (hs : Kept s0 s) :
    Kept s0 (fmStart s) := by
  unfold fmStart
  try dsimp only
  repeat' first
    | with_reducible first
      | assumption | apply wr_kept | apply kept_ite

theorem execFmStart_kept {s0 : State} {s : State} (hs : Kept s0 s) :
    KeptO s0 (execFmStart s) := by
  unfold execFmStart
  try dsimp only
  repeat' first
    | with_reducible first
      | assumption | apply ifOpen_kept | apply fmStart_kept | apply keptO_next | apply keptO_ite
      | exact keptO_fault

theorem execFmRunEnd_kept {s0 : State} {how : Nat} {count : Nat} {s : State} (hs : Kept s0 s) :
    KeptO s0 (execFmRunEnd how count s) := by
  unfold execFmRunEnd
  try dsimp only
  repeat' first
    | with_reducible first
      | assumption | apply wr_kept | apply count_kept | apply keptO_next | apply keptO_ite | exact keptO_fault
      | apply kept_ite

end Sys2Proof.Machine
end

