-- ==== Sys2Proof/Laws/KeptCalibration.lean ====
section
/-! SUPPORT. What the operations of Machine/Calibration.lean keep (`Kept`). -/

namespace Sys2Proof.Machine

theorem tempOne_kept {s0 : State} {c : Nat} {t : Int} {s : State} (hs : Kept s0 s) :
    Kept s0 (tempOne c t s) := by
  unfold tempOne
  try dsimp only
  repeat' first
    | intro _
    | with_reducible first
      | assumption | apply wr_kept | apply raise_kept | apply calDue_kept | apply kept_ite | apply kept_foldl

theorem tempStatus_kept {s0 : State} {s : State} (hs : Kept s0 s) :
    Kept s0 (tempStatus s) := by
  unfold tempStatus
  try dsimp only
  repeat' first
    | with_reducible first
      | assumption | apply wr_kept | apply wrB_kept | apply setInput_kept | apply kept_ite
    | simp only [kept_mk_iff]

theorem tempFence_kept {s0 : State} {s : State} (hs : Kept s0 s) :
    Kept s0 (tempFence s) := by
  unfold tempFence
  try dsimp only
  repeat' first
    | intro _
    | with_reducible first
      | assumption | apply wr_kept | apply fencePkg_kept | apply kept_ite
    | simp only [kept_mk_iff]

theorem execTempSample_kept {s0 : State} {temps : List Int} {s : State} (hs : Kept s0 s) :
    KeptO s0 (execTempSample temps s) := by
  unfold execTempSample
  try dsimp only
  repeat' first
    | intro _
    | with_reducible first
      | assumption | apply tempOne_kept | apply tempStatus_kept | apply tempFence_kept | apply keptO_next
      | apply keptO_ite | exact keptO_fault | apply kept_ite | apply kept_foldl

theorem execCalRunStart_kept {s0 : State} {c : Nat} {s : State} (hs : Kept s0 s) :
    KeptO s0 (execCalRunStart c s) := by
  unfold execCalRunStart
  try dsimp only
  repeat' first
    | with_reducible first
      | assumption | apply onUnit_kept | apply calRunStart_kept | apply keptO_next | apply keptO_ite
      | exact keptO_fault | apply kept_ite

theorem calJudge_kept {s0 : State} {c : Nat} {e : Nat} {done : Bool} {s : State} (hs : Kept s0 s) :
    Kept s0 (calJudge c e done s) := by
  unfold calJudge
  try dsimp only
  repeat' first
    | intro _
    | with_reducible first
      | assumption | apply wr_kept | apply bump_kept | apply raise_kept | apply putCal_kept | apply kept_ite
    | simp only [kept_mk_iff]

theorem calCodeStep_kept {s0 : State} {c : Nat} {e : Nat} {s : State} (hs : Kept s0 s) :
    Kept s0 (calCodeStep c e s) := by
  unfold calCodeStep
  try dsimp only
  repeat' first
    | with_reducible first
      | assumption | apply putCal_kept | apply calApply_kept | apply kept_ite
    | simp only [kept_mk_iff]

theorem calRunEnd_kept {s0 : State} {c : Nat} {meas : CalMeasure} {s : State} (hs : Kept s0 s) :
    Kept s0 (calRunEnd c meas s) := by
  unfold calRunEnd
  try dsimp only
  repeat' first
    | with_reducible first
      | assumption | apply putCal_kept | apply calApply_kept | apply calRecord_kept | apply calStop_kept
      | apply calJudge_kept | apply calCodeStep_kept | apply kept_ite | exact keptOpt_none | apply keptOpt_ite
    | simp only [kept_mk_iff]
    | split
    | with_reducible first
      | (apply kept_pair; assumption) | (apply kept_opt; assumption) | (apply kept_triple; assumption)

theorem execCalRunEnd_kept {s0 : State} {c : Nat} {meas : CalMeasure} {s : State} (hs : Kept s0 s) :
    KeptO s0 (execCalRunEnd c meas s) := by
  unfold execCalRunEnd
  try dsimp only
  repeat' first
    | with_reducible first
      | assumption | apply onUnit_kept | apply engineNext_kept | apply calRunEnd_kept | apply keptO_next
      | apply keptO_ite | exact keptO_fault

theorem execCalStepApply_kept {s0 : State} {c : Nat} {s : State} (hs : Kept s0 s) :
    KeptO s0 (execCalStepApply c s) := by
  unfold execCalStepApply
  try dsimp only
  repeat' first
    | with_reducible first
      | assumption | apply onUnit_kept | apply calApply_kept | apply keptO_next | apply keptO_ite
      | exact keptO_fault | apply kept_ite | exact keptOpt_none | apply keptOpt_ite
    | simp only [kept_mk_iff]
    | split
    | with_reducible first
      | (apply kept_pair; assumption) | (apply kept_opt; assumption) | (apply kept_triple; assumption)

theorem execCalCodeStep_kept {s0 : State} {c : Nat} {s : State} (hs : Kept s0 s) :
    KeptO s0 (execCalCodeStep c s) := by
  unfold execCalCodeStep
  try dsimp only
  repeat' first
    | with_reducible first
      | assumption | apply onUnit_kept | apply calCodeStep_kept | apply keptO_next | apply keptO_ite
      | exact keptO_fault | apply kept_ite | exact keptOpt_none | apply keptOpt_ite
    | simp only [kept_mk_iff]
    | split
    | with_reducible first
      | (apply kept_pair; assumption) | (apply kept_opt; assumption) | (apply kept_triple; assumption)

theorem execRextFault_kept {s0 : State} {s : State} (hs : Kept s0 s) :
    KeptO s0 (execRextFault s) := by
  unfold execRextFault
  try dsimp only
  repeat' first
    | intro _
    | with_reducible first
      | assumption | apply wr_kept | apply raise_kept | apply calStop_kept | apply engineNext_kept
      | apply startFails_kept | apply keptO_next | apply keptO_ite | exact keptO_fault | apply kept_ite
      | apply kept_foldl

theorem execRextFaultClear_kept {s0 : State} {s : State} (hs : Kept s0 s) :
    KeptO s0 (execRextFaultClear s) := by
  unfold execRextFaultClear
  try dsimp only
  repeat' first
    | intro _
    | with_reducible first
      | assumption | apply wr_kept | apply keptO_next | apply keptO_ite | exact keptO_fault | apply kept_foldl

theorem calCmd_kept {s0 : State} {c : Nat} {op : Nat} {e : Nat} {s : State} (hs : Kept s0 s) :
    Kept s0 (calCmd c op e s) := by
  unfold calCmd
  try dsimp only
  repeat' first
    | intro _
    | with_reducible first
      | assumption | apply wr_kept | apply putCal_kept | apply calDue_kept | apply kept_ite | apply kept_foldl
    | simp only [kept_mk_iff]

theorem calCmdStore_kept {s0 : State} {c : Nat} {op : Nat} {e : Nat} {s : State} (hs : Kept s0 s) :
    Kept s0 (calCmdStore c op e s) := by
  unfold calCmdStore
  try dsimp only
  repeat' first
    | with_reducible first
      | assumption | apply wr_kept

theorem execCalEnd_kept {s0 : State} {c : Nat} {e : Nat} {s : State} (hs : Kept s0 s) :
    KeptO s0 (execCalEnd c e s) := by
  unfold execCalEnd
  try dsimp only
  repeat' first
    | with_reducible first
      | assumption | apply ifHas_kept | apply calCmd_kept | apply calCmdStore_kept | apply keptO_next
      | apply keptO_ite | exact keptO_fault

theorem execCalAll_kept {s0 : State} {c : Nat} {s : State} (hs : Kept s0 s) :
    KeptO s0 (execCalAll c s) := by
  unfold execCalAll
  try dsimp only
  repeat' first
    | with_reducible first
      | assumption | apply wr_kept | apply ifHas_kept | apply calCmd_kept | apply keptO_next | apply keptO_ite
      | exact keptO_fault

theorem execCalEye_kept {s0 : State} {c : Nat} {e : Nat} {s : State} (hs : Kept s0 s) :
    KeptO s0 (execCalEye c e s) := by
  unfold execCalEye
  try dsimp only
  repeat' first
    | with_reducible first
      | assumption | apply ifHas_kept | apply calCmd_kept | apply calCmdStore_kept | apply keptO_next
      | apply keptO_ite | exact keptO_fault

theorem eyeDone_kept {s0 : State} {c : Nat} {eyes : List EyeScan} {s : State} (hs : Kept s0 s) :
    Kept s0 (eyeDone c eyes s) := by
  unfold eyeDone
  try dsimp only
  repeat' first
    | intro _
    | with_reducible first
      | assumption | apply wr_kept | apply putCal_kept | apply kept_ite | apply kept_foldl
    | simp only [kept_mk_iff]

theorem execEyeEnd_kept {s0 : State} {c : Nat} {eyes : List EyeScan} {aborted : Bool} {s : State} (hs : Kept s0 s) :
    KeptO s0 (execEyeEnd c eyes aborted s) := by
  unfold execEyeEnd
  try dsimp only
  repeat' first
    | with_reducible first
      | assumption | apply onUnit_kept | apply eyeAbort_kept | apply engineNext_kept | apply eyeDone_kept
      | apply keptO_next | apply keptO_ite | exact keptO_fault | apply kept_ite | exact keptOpt_none
      | apply keptOpt_ite
    | simp only [kept_mk_iff]
    | split
    | with_reducible first
      | (apply kept_pair; assumption) | (apply kept_opt; assumption) | (apply kept_triple; assumption)

theorem calSelWrite_kept {s0 : State} {c : Nat} {e : Nat} {s : State} (hs : Kept s0 s) :
    Kept s0 (calSelWrite c e s) := by
  unfold calSelWrite
  try dsimp only
  repeat' first
    | intro _
    | with_reducible first
      | assumption | apply wr_kept | apply kept_ite | apply kept_foldl

theorem execCalSelWrite_kept {s0 : State} {c : Nat} {e : Nat} {s : State} (hs : Kept s0 s) :
    KeptO s0 (execCalSelWrite c e s) := by
  unfold execCalSelWrite
  try dsimp only
  repeat' first
    | with_reducible first
      | assumption | apply ifHas_kept | apply calSelWrite_kept | apply keptO_next | apply keptO_ite
      | exact keptO_fault

end Sys2Proof.Machine
end

