-- ==== Sys2Proof/Laws/KeptRingState.lean ====
section
/-! SUPPORT. What the operations of Machine/RingState.lean keep (`Kept`). -/

namespace Sys2Proof.Machine

theorem requeueDelivered_kept {s0 : State} {s : State} (hs : Kept s0 s) :
    Kept s0 (requeueDelivered s) := by
  unfold requeueDelivered
  try dsimp only
  repeat' first
    | intro _
    | with_reducible first
      | assumption | apply wr_kept | apply bankIdle_kept | apply kept_ite | apply kept_foldl
    | simp only [kept_mk_iff]

theorem posSync_kept {s0 : State} {s : State} (hs : Kept s0 s) :
    Kept s0 (posSync s) := by
  unfold posSync
  try dsimp only
  repeat' first
    | intro _
    | with_reducible first
      | assumption | apply setRingPos_kept | apply kept_ite | apply kept_foldl
    | simp only [kept_mk_iff]

theorem ringDone_kept {s0 : State} {s : State} (hs : Kept s0 s) :
    Kept s0 (ringDone s) := by
  unfold ringDone
  try dsimp only
  repeat' first
    | with_reducible first
      | assumption | apply wr_kept | apply raise_kept | apply requeueDelivered_kept | apply posSync_kept

theorem enumEnd_kept {s0 : State} {s : State} (hs : Kept s0 s) :
    Kept s0 (enumEnd s) := by
  unfold enumEnd
  try dsimp only
  repeat' first
    | with_reducible first
      | assumption | apply wr_kept | apply broadcast_kept | apply ringDone_kept
    | simp only [kept_mk_iff]

theorem enumStart_kept {s0 : State} {s : State} (hs : Kept s0 s) :
    Kept s0 (enumStart s) := by
  unfold enumStart
  try dsimp only
  repeat' first
    | intro _
    | with_reducible first
      | assumption | apply wr_kept | apply bump_kept | apply setRingPos_kept | apply sendOn_kept
      | apply enumEnd_kept | apply kept_ite | apply kept_foldl
    | simp only [kept_mk_iff]

theorem enterDeliver_kept {s0 : State} {src : Nat} {count : Nat} {ring : Nat} {fast : Bool} {s : State} (hs : Kept s0 s) :
    Kept s0 (enterDeliver src count ring fast s) := by
  unfold enterDeliver
  try dsimp only
  repeat' first
    | intro _
    | with_reducible first
      | assumption | apply count_kept | apply kept_ite
    | simp only [kept_mk_iff]

end Sys2Proof.Machine
end

