-- ==== Sys2Proof/Laws/KeptSelfTest.lean ====
section
/-! SUPPORT. What the operations of Machine/SelfTest.lean keep (`Kept`). -/

namespace Sys2Proof.Machine

theorem bobSliceStart_kept {s0 : State} {c : Nat} {enabling : Bool} {s : State} (hs : Kept s0 s) :
    Kept s0 (bobSliceStart c enabling s) := by
  unfold bobSliceStart
  try dsimp only
  repeat' first
    | intro _
    | with_reducible first
      | assumption | apply putBob_kept | apply rxPolApply_kept | apply testSync_kept | apply setBobSlice_kept
      | apply bobSliceEnd_kept | apply kept_ite
    | simp only [kept_mk_iff]

theorem bobSliceTurn_kept {s0 : State} {d : Nat} {s : State} (hs : Kept s0 s) :
    Kept s0 (bobSliceTurn d s) := by
  unfold bobSliceTurn
  try dsimp only
  repeat' first
    | with_reducible first
      | assumption | apply bobSliceStart_kept | apply kept_ite | exact keptOpt_none | apply keptOpt_ite
    | simp only [kept_mk_iff]
    | split
    | with_reducible first
      | (apply kept_pair; assumption) | (apply kept_opt; assumption) | (apply kept_triple; assumption)

theorem sliceTurn_kept {s0 : State} {s : State} (hs : Kept s0 s) :
    Kept s0 (sliceTurn s) := by
  unfold sliceTurn
  try dsimp only
  repeat' first
    | intro _
    | with_reducible first
      | assumption | apply bankSliceTurn_kept | apply bobSliceTurn_kept | apply kept_ite | apply kept_foldl

theorem execSliceInterval_kept {s0 : State} {s : State} (hs : Kept s0 s) :
    KeptO s0 (execSliceInterval s) := by
  unfold execSliceInterval
  try dsimp only
  repeat' first
    | with_reducible first
      | assumption | apply sliceTurn_kept | apply keptO_next | apply keptO_ite | exact keptO_fault
      | apply kept_ite | exact keptOpt_none | apply keptOpt_ite
    | simp only [kept_mk_iff]
    | split
    | with_reducible first
      | (apply kept_pair; assumption) | (apply kept_opt; assumption) | (apply kept_triple; assumption)

theorem execBobbinSliceEnd_kept {s0 : State} {c : Nat} {bits : Nat} {errors : Nat} {noLock : Bool} {replica : Bool} {s : State} (hs : Kept s0 s) :
    KeptO s0 (execBobbinSliceEnd c bits errors noLock replica s) := by
  unfold execBobbinSliceEnd
  try dsimp only
  repeat' first
    | with_reducible first
      | assumption | apply onUnit_kept | apply bobSliceEnd_kept | apply keptO_next | apply keptO_ite
      | exact keptO_fault | apply kept_ite

theorem execBistStall_kept {s0 : State} {die : Nat} {s : State} (hs : Kept s0 s) :
    KeptO s0 (execBistStall die s) := by
  unfold execBistStall
  try dsimp only
  repeat' first
    | with_reducible first
      | assumption | apply onUnit_kept | apply slicesEnd_kept | apply keptO_next | apply keptO_ite
      | exact keptO_fault

theorem bstRefuse_kept {s0 : State} {b : Bool} {s : State} (hs : Kept s0 s) :
    Kept s0 (bstRefuse b s) := by
  unfold bstRefuse
  try dsimp only
  repeat' first
    | with_reducible first
      | assumption | apply wrB_kept

theorem bobbinNow_kept {s0 : State} {c : Nat} {s : State} (hs : Kept s0 s) :
    Kept s0 (bobbinNow c s) := by
  unfold bobbinNow
  try dsimp only
  repeat' first
    | with_reducible first
      | assumption | apply bobSliceStart_kept | apply bstRefuse_kept | apply kept_ite

theorem execBstBobbinNow_kept {s0 : State} {c : Nat} {s : State} (hs : Kept s0 s) :
    KeptO s0 (execBstBobbinNow c s) := by
  unfold execBstBobbinNow
  try dsimp only
  repeat' first
    | with_reducible first
      | assumption | apply wr_kept | apply ifOpen_kept | apply bobbinNow_kept | apply keptO_next | apply keptO_ite
      | exact keptO_fault

theorem bstAbort_kept {s0 : State} {s : State} (hs : Kept s0 s) :
    Kept s0 (bstAbort s) := by
  unfold bstAbort
  try dsimp only
  repeat' first
    | with_reducible first
      | assumption | apply slicesEnd_kept | apply bstRefuse_kept

theorem execBstAbort_kept {s0 : State} {s : State} (hs : Kept s0 s) :
    KeptO s0 (execBstAbort s) := by
  unfold execBstAbort
  try dsimp only
  repeat' first
    | with_reducible first
      | assumption | apply wr_kept | apply ifOpen_kept | apply bstAbort_kept | apply keptO_next | apply keptO_ite
      | exact keptO_fault

theorem scrub_kept {s0 : State} {s : State} (hs : Kept s0 s) :
    Kept s0 (scrub s) := by
  unfold scrub
  have h := kept_trunks (r := []) (kept_flows (r := []) (dieFree_kept (d := 1) (dieFree_kept (d := 0) hs)) fun _ => by rfl)
    fun _ => by rfl
  exact wr_kept (kept_sel h)

theorem bstFull_kept {s0 : State} {s : State} (hs : Kept s0 s) :
    Kept s0 (bstFull s) := by
  unfold bstFull
  try dsimp only
  repeat' first
    | with_reducible first
      | assumption | apply bstRefuse_kept | apply scrub_kept | apply kept_ite
    | simp only [kept_mk_iff]

theorem execBstFull_kept {s0 : State} {s : State} (hs : Kept s0 s) :
    KeptO s0 (execBstFull s) := by
  unfold execBstFull
  try dsimp only
  repeat' first
    | with_reducible first
      | assumption | apply wr_kept | apply ifOpen_kept | apply bstFull_kept | apply keptO_next | apply keptO_ite
      | exact keptO_fault

theorem keysZeroed_kept {s0 : State} {s : State} (hs : Kept s0 s) :
    Kept s0 (keysZeroed s) := by
  unfold keysZeroed
  try dsimp only
  repeat' first
    | intro _
    | with_reducible first
      | assumption | apply wr_kept | apply kept_foldl
    | simp only [kept_mk_iff]

theorem testEnter_kept {s0 : State} {cause : Nat} {s : State} (hs : Kept s0 s) :
    Kept s0 (testEnter cause s) := by
  unfold testEnter
  try dsimp only
  repeat' first
    | with_reducible first
      | assumption | apply wr_kept | apply raise_kept | apply calClocks_kept | apply slicesEnd_kept
      | apply haltAll_kept | apply keysZeroed_kept | apply kept_ite
    | simp only [kept_mk_iff]

theorem bstTestEnter_kept {s0 : State} {confirm : Nat} {s : State} (hs : Kept s0 s) :
    Kept s0 (bstTestEnter confirm s) := by
  unfold bstTestEnter
  try dsimp only
  repeat' first
    | with_reducible first
      | assumption | apply bstRefuse_kept | apply testEnter_kept | apply kept_ite

theorem execBstTestEnter_kept {s0 : State} {confirm : Nat} {s : State} (hs : Kept s0 s) :
    KeptO s0 (execBstTestEnter confirm s) := by
  unfold execBstTestEnter
  try dsimp only
  repeat' first
    | with_reducible first
      | assumption | apply wr_kept | apply ifOpen_kept | apply bstTestEnter_kept | apply keptO_next
      | apply keptO_ite | exact keptO_fault

theorem execTestEnHigh_kept {s0 : State} {s : State} (hs : Kept s0 s) :
    KeptO s0 (execTestEnHigh s) := by
  unfold execTestEnHigh
  try dsimp only
  repeat' first
    | with_reducible first
      | assumption | apply testEnter_kept | apply keptO_next | apply keptO_ite | exact keptO_fault

theorem execTestEntryDone_kept {s0 : State} {us : Nat} {s : State} (hs : Kept s0 s) :
    KeptO s0 (execTestEntryDone us s) := by
  unfold execTestEntryDone
  try dsimp only
  repeat' first
    | with_reducible first
      | assumption | apply wr_kept | apply bistHold_kept | apply scrub_kept | apply keptO_next | apply keptO_ite
      | exact keptO_fault | apply kept_ite
    | simp only [kept_mk_iff]

theorem writeBstCfg_kept {s0 : State} {v : Nat} {s : State} (hs : Kept s0 s) :
    Kept s0 (writeBstCfg v s) := by
  unfold writeBstCfg
  try dsimp only
  repeat' first
    | with_reducible first
      | assumption | apply wr_kept
    | simp only [kept_mk_iff]
    | split
    | with_reducible first
      | (apply kept_pair; assumption) | (apply kept_opt; assumption) | (apply kept_triple; assumption)

theorem execBstCfgWrite_kept {s0 : State} {v : Nat} {s : State} (hs : Kept s0 s) :
    KeptO s0 (execBstCfgWrite v s) := by
  unfold execBstCfgWrite
  try dsimp only
  repeat' first
    | with_reducible first
      | assumption | apply ifOpen_kept | apply writeBstCfg_kept | apply keptO_next | apply keptO_ite
      | exact keptO_fault

theorem loopRefuse_kept {s0 : State} {v : Nat} {why : Nat} {s : State} (hs : Kept s0 s) :
    Kept s0 (loopRefuse v why s) := by
  unfold loopRefuse
  try dsimp only
  repeat' first
    | with_reducible first
      | assumption | apply wr_kept

theorem writeLbCfg_kept {s0 : State} {n : Nat} {v : Nat} {s : State} (hs : Kept s0 s) :
    Kept s0 (writeLbCfg n v s) := by
  unfold writeLbCfg
  try dsimp only
  repeat' first
    | with_reducible first
      | assumption | apply wr_kept | apply wrB_kept | apply testSync_kept | apply loopRefuse_kept | apply kept_ite
      | exact keptOpt_none | apply keptOpt_ite
    | simp only [kept_mk_iff]
    | split
    | with_reducible first
      | (apply kept_pair; assumption) | (apply kept_opt; assumption) | (apply kept_triple; assumption)

theorem execLbCfgWrite_kept {s0 : State} {lane : Nat} {v : Nat} {s : State} (hs : Kept s0 s) :
    KeptO s0 (execLbCfgWrite lane v s) := by
  unfold execLbCfgWrite
  try dsimp only
  repeat' first
    | with_reducible first
      | assumption | apply ifOpen_kept | apply writeLbCfg_kept | apply keptO_next | apply keptO_ite
      | exact keptO_fault

theorem writePrbsGen_kept {s0 : State} {n : Nat} {v : Nat} {s : State} (hs : Kept s0 s) :
    Kept s0 (writePrbsGen n v s) := by
  unfold writePrbsGen
  try dsimp only
  repeat' first
    | with_reducible first
      | assumption | apply wr_kept | apply testSync_kept | apply loopRefuse_kept | apply kept_ite
      | exact keptOpt_none | apply keptOpt_ite
    | simp only [kept_mk_iff]
    | split
    | with_reducible first
      | (apply kept_pair; assumption) | (apply kept_opt; assumption) | (apply kept_triple; assumption)

theorem execPrbsGenWrite_kept {s0 : State} {lane : Nat} {v : Nat} {s : State} (hs : Kept s0 s) :
    KeptO s0 (execPrbsGenWrite lane v s) := by
  unfold execPrbsGenWrite
  try dsimp only
  repeat' first
    | with_reducible first
      | assumption | apply ifOpen_kept | apply writePrbsGen_kept | apply keptO_next | apply keptO_ite
      | exact keptO_fault

theorem putPrbs_kept {s0 : State} {s : State} {n : Nat} {v : PrbsSt} (hs : Kept s0 s) :
    Kept s0 (State.putPrbs s n v) := by
  unfold State.putPrbs
  try dsimp only
  repeat' first
    | with_reducible first
      | assumption | apply kept_put_prbs
    | simp only [kept_mk_iff]

theorem checkSync_kept {s0 : State} {t : State} {n : Nat} {s : State} (ht : Kept s0 t) (hs : Kept s0 s) :
    Kept s0 (checkSync t n s) := by
  unfold checkSync
  try dsimp only
  repeat' first
    | intro _
    | with_reducible first
      | assumption | apply rxPolApply_kept | apply kept_ite | apply kept_foldl

theorem writePrbsChk_kept {s0 : State} {n : Nat} {v : Nat} {s : State} (hs : Kept s0 s) :
    Kept s0 (writePrbsChk n v s) := by
  unfold writePrbsChk
  try dsimp only
  repeat' first
    | with_reducible first
      | assumption | apply wr_kept | apply testSync_kept | apply loopRefuse_kept | apply putPrbs_kept
      | apply checkSync_kept | apply kept_ite | exact keptOpt_none | apply keptOpt_ite
    | simp only [kept_mk_iff]
    | split
    | with_reducible first
      | (apply kept_pair; assumption) | (apply kept_opt; assumption) | (apply kept_triple; assumption)

theorem execPrbsChkWrite_kept {s0 : State} {lane : Nat} {v : Nat} {s : State} (hs : Kept s0 s) :
    KeptO s0 (execPrbsChkWrite lane v s) := by
  unfold execPrbsChkWrite
  try dsimp only
  repeat' first
    | with_reducible first
      | assumption | apply ifOpen_kept | apply writePrbsChk_kept | apply keptO_next | apply keptO_ite
      | exact keptO_fault

theorem execPrbsLock_kept {s0 : State} {lane : Nat} {got : List Bool} {s : State} (hs : Kept s0 s) :
    KeptO s0 (execPrbsLock lane got s) := by
  unfold execPrbsLock
  try dsimp only
  repeat' first
    | with_reducible first
      | assumption | apply onUnit_kept | apply wr_kept | apply wrB_kept | apply keptO_next | apply keptO_ite
      | exact keptO_fault | apply kept_ite | exact keptOpt_none | apply keptOpt_ite
    | simp only [kept_mk_iff]
    | split
    | with_reducible first
      | (apply kept_pair; assumption) | (apply kept_opt; assumption) | (apply kept_triple; assumption)

theorem prbsCount_kept {s0 : State} {n : Nat} {bits : Nat} {errs : Nat} {s : State} (hs : Kept s0 s) :
    Kept s0 (prbsCount n bits errs s) := by
  unfold prbsCount
  try dsimp only
  repeat' first
    | with_reducible first
      | assumption | apply putLive_kept | apply countBy_kept | apply raise_kept | apply putPrbs_kept
      | apply kept_ite
    | simp only [kept_mk_iff]

theorem execPrbsLockLoss_kept {s0 : State} {lane : Nat} {bits : Nat} {e : BitErrs} {s : State} (hs : Kept s0 s) :
    KeptO s0 (execPrbsLockLoss lane bits e s) := by
  unfold execPrbsLockLoss
  try dsimp only
  repeat' first
    | with_reducible first
      | assumption | apply onUnit_kept | apply wr_kept | apply count_kept | apply putPrbs_kept
      | apply prbsCount_kept | apply keptO_next | apply keptO_ite | exact keptO_fault | apply kept_ite

theorem execPrbsErrThreshold_kept {s0 : State} {lane : Nat} {bits : Nat} {e : BitErrs} {s : State} (hs : Kept s0 s) :
    KeptO s0 (execPrbsErrThreshold lane bits e s) := by
  unfold execPrbsErrThreshold
  try dsimp only
  repeat' first
    | with_reducible first
      | assumption | apply onUnit_kept | apply prbsCount_kept | apply keptO_next | apply keptO_ite
      | exact keptO_fault | apply kept_ite

theorem execPrbsErrWindowEnd_kept {s0 : State} {lane : Nat} {bits : Nat} {e : BitErrs} {s : State} (hs : Kept s0 s) :
    KeptO s0 (execPrbsErrWindowEnd lane bits e s) := by
  unfold execPrbsErrWindowEnd
  try dsimp only
  repeat' first
    | with_reducible first
      | assumption | apply onUnit_kept | apply putPrbs_kept | apply prbsCount_kept | apply keptO_next
      | apply keptO_ite | exact keptO_fault | apply kept_ite

theorem prbsSnap_kept {s0 : State} {n : Nat} {s : State} (hs : Kept s0 s) :
    Kept s0 (prbsSnap n s) := by
  unfold prbsSnap
  try dsimp only
  repeat' first
    | with_reducible first
      | assumption | apply bumpWrap_kept | apply latch64_kept | apply latchAll_kept | apply answerWord_kept
      | apply kept_ite

theorem execPrbsSnap_kept {s0 : State} {lane : Nat} {s : State} (hs : Kept s0 s) :
    KeptO s0 (execPrbsSnap lane s) := by
  unfold execPrbsSnap
  try dsimp only
  repeat' first
    | with_reducible first
      | assumption | apply ifOpen_kept | apply answerWord_kept | apply prbsSnap_kept | apply keptO_next
      | apply keptO_ite | exact keptO_fault

theorem prbsClr_kept {s0 : State} {n : Nat} {s : State} (hs : Kept s0 s) :
    Kept s0 (prbsClr n s) := by
  unfold prbsClr
  try dsimp only
  repeat' first
    | with_reducible first
      | assumption | apply zeroLive_kept | apply kept_ite

theorem execPrbsClr_kept {s0 : State} {lane : Nat} {s : State} (hs : Kept s0 s) :
    KeptO s0 (execPrbsClr lane s) := by
  unfold execPrbsClr
  try dsimp only
  repeat' first
    | with_reducible first
      | assumption | apply ifOpen_kept | apply prbsClr_kept | apply keptO_next | apply keptO_ite
      | exact keptO_fault

theorem jtagLoad_kept {s0 : State} {op : Nat} {s : State} (hs : Kept s0 s) :
    Kept s0 (jtagLoad op s) := by
  unfold jtagLoad
  try dsimp only
  repeat' first
    | with_reducible first
      | assumption | apply testEnter_kept | apply kept_ite
    | simp only [kept_mk_iff]

theorem execExtest_kept {s0 : State} {s : State} (hs : Kept s0 s) :
    KeptO s0 (execExtest s) := by
  unfold execExtest
  try dsimp only
  repeat' first
    | with_reducible first
      | assumption | apply jtagLoad_kept | apply keptO_next | apply keptO_ite | exact keptO_fault

theorem samplePreload_kept {s0 : State} {s : State} (hs : Kept s0 s) :
    Kept s0 (samplePreload s) := by
  unfold samplePreload
  try dsimp only
  repeat' first
    | with_reducible first
      | assumption | apply draw_kept | apply jtagLoad_kept
    | simp only [kept_mk_iff]
    | with_reducible first
      | (apply kept_pair; assumption) | (apply kept_opt; assumption) | (apply kept_triple; assumption)

theorem execSamplePreload_kept {s0 : State} {s : State} (hs : Kept s0 s) :
    KeptO s0 (execSamplePreload s) := by
  unfold execSamplePreload
  try dsimp only
  repeat' first
    | with_reducible first
      | assumption | apply samplePreload_kept | apply keptO_next | apply keptO_ite | exact keptO_fault

theorem execIdcode_kept {s0 : State} {s : State} (hs : Kept s0 s) :
    KeptO s0 (execIdcode s) := by
  unfold execIdcode
  try dsimp only
  repeat' first
    | with_reducible first
      | assumption | apply answerWord_kept | apply jtagLoad_kept | apply keptO_next | apply keptO_ite
      | exact keptO_fault

theorem execClamp_kept {s0 : State} {s : State} (hs : Kept s0 s) :
    KeptO s0 (execClamp s) := by
  unfold execClamp
  try dsimp only
  repeat' first
    | with_reducible first
      | assumption | apply jtagLoad_kept | apply keptO_next | apply keptO_ite | exact keptO_fault

theorem execHighz_kept {s0 : State} {s : State} (hs : Kept s0 s) :
    KeptO s0 (execHighz s) := by
  unfold execHighz
  try dsimp only
  repeat' first
    | with_reducible first
      | assumption | apply jtagLoad_kept | apply keptO_next | apply keptO_ite | exact keptO_fault

theorem execExtestPulse_kept {s0 : State} {s : State} (hs : Kept s0 s) :
    KeptO s0 (execExtestPulse s) := by
  unfold execExtestPulse
  try dsimp only
  repeat' first
    | with_reducible first
      | assumption | apply jtagLoad_kept | apply keptO_next | apply keptO_ite | exact keptO_fault

theorem execExtestTrain_kept {s0 : State} {s : State} (hs : Kept s0 s) :
    KeptO s0 (execExtestTrain s) := by
  unfold execExtestTrain
  try dsimp only
  repeat' first
    | with_reducible first
      | assumption | apply jtagLoad_kept | apply keptO_next | apply keptO_ite | exact keptO_fault

theorem execScanEntry_kept {s0 : State} {s : State} (hs : Kept s0 s) :
    KeptO s0 (execScanEntry s) := by
  unfold execScanEntry
  try dsimp only
  repeat' first
    | with_reducible first
      | assumption | apply jtagLoad_kept | apply keptO_next | apply keptO_ite | exact keptO_fault

theorem execBypass_kept {s0 : State} {s : State} (hs : Kept s0 s) :
    KeptO s0 (execBypass s) := by
  unfold execBypass
  try dsimp only
  repeat' first
    | with_reducible first
      | assumption | apply jtagLoad_kept | apply keptO_next | apply keptO_ite | exact keptO_fault

theorem execJtagTrst_kept {s0 : State} {s : State} (hs : Kept s0 s) :
    KeptO s0 (execJtagTrst s) := by
  unfold execJtagTrst
  try dsimp only
  repeat' first
    | with_reducible first
      | assumption | apply keptO_next | apply keptO_ite | exact keptO_fault
    | simp only [kept_mk_iff]

end Sys2Proof.Machine
end

