-- ==== Sys2Proof/Laws/KeptWatch.lean ====
section
/-! SUPPORT. What the operations of Machine/Watch.lean keep (`Kept`). -/

namespace Sys2Proof.Machine

theorem watchEnter_kept {s0 : State} {force : Bool} {s : State} (hs : Kept s0 s) :
    Kept s0 (watchEnter force s) := by
  unfold watchEnter
  try dsimp only
  repeat' first
    | intro _
    | with_reducible first
      | assumption | apply wr_kept | apply wrB_kept | apply calAbortAny_kept | apply loopStopAll_kept
      | apply haltAll_kept | apply kept_ite | apply kept_foldl
    | simp only [kept_mk_iff]

theorem execWatchEnter_kept {s0 : State} {force : Bool} {s : State} (hs : Kept s0 s) :
    KeptO s0 (execWatchEnter force s) := by
  unfold execWatchEnter
  try dsimp only
  repeat' first
    | with_reducible first
      | assumption | apply ifOpen_kept | apply watchEnter_kept | apply keptO_next | apply keptO_ite
      | exact keptO_fault

theorem pllsStop_kept {s0 : State} {s : State} (hs : Kept s0 s) :
    Kept s0 (pllsStop s) := by
  unfold pllsStop
  try dsimp only
  repeat' first
    | intro _
    | with_reducible first
      | assumption | apply wr_kept | apply setPllRef_kept | apply seamUp_kept | apply kept_foldl

theorem clustersOff_kept {s0 : State} {s : State} (hs : Kept s0 s) :
    Kept s0 (clustersOff s) := by
  unfold clustersOff
  try dsimp only
  repeat' first
    | intro _
    | with_reducible first
      | assumption | apply wr_kept | apply putCk_kept | apply putCkEntry_kept | apply putCkExit_kept
      | apply kept_foldl
    | simp only [kept_mk_iff]

theorem execWatchEntryDone_kept {s0 : State} {s : State} (hs : Kept s0 s) :
    KeptO s0 (execWatchEntryDone s) := by
  unfold execWatchEntryDone
  try dsimp only
  repeat' first
    | with_reducible first
      | assumption | apply wr_kept | apply dieFree_kept | apply armMonitor_kept | apply bistHold_kept
      | apply pllsStop_kept | apply clustersOff_kept | apply keptO_next | apply keptO_ite | exact keptO_fault
      | apply kept_ite
    | simp only [kept_mk_iff]

theorem wakeStart_kept {s0 : State} {cause : Nat} {index : Nat} {s : State} (hs : Kept s0 s) :
    Kept s0 (wakeStart cause index s) := by
  unfold wakeStart
  try dsimp only
  repeat' first
    | with_reducible first
      | assumption | apply wr_kept | apply judgeStart_kept | apply kept_ite
    | simp only [kept_mk_iff]

theorem watchWake_kept {s0 : State} {s : State} (hs : Kept s0 s) :
    Kept s0 (watchWake s) := by
  unfold watchWake
  try dsimp only
  repeat' first
    | with_reducible first
      | assumption | apply wr_kept | apply wakeStart_kept | apply kept_ite

theorem execWatchWake_kept {s0 : State} {s : State} (hs : Kept s0 s) :
    KeptO s0 (execWatchWake s) := by
  unfold execWatchWake
  try dsimp only
  repeat' first
    | with_reducible first
      | assumption | apply ifOpen_kept | apply watchWake_kept | apply keptO_next | apply keptO_ite
      | exact keptO_fault

theorem execWakeNLow_kept {s0 : State} {s : State} (hs : Kept s0 s) :
    KeptO s0 (execWakeNLow s) := by
  unfold execWakeNLow
  try dsimp only
  repeat' first
    | with_reducible first
      | assumption | apply wakeStart_kept | apply keptO_next | apply keptO_ite | exact keptO_fault
      | apply kept_ite

theorem execWakeSigdet_kept {s0 : State} {n : Nat} {sd : Side} {s : State} (hs : Kept s0 s) :
    KeptO s0 (execWakeSigdet n sd s) := by
  unfold execWakeSigdet
  try dsimp only
  repeat' first
    | with_reducible first
      | assumption | apply onUnit_kept | apply wr_kept | apply wakeStart_kept | apply keptO_next | apply keptO_ite
      | exact keptO_fault | apply kept_ite

theorem execWakeSource_kept {s0 : State} {src : Nat} {s : State} (hs : Kept s0 s) :
    KeptO s0 (execWakeSource src s) := by
  unfold execWakeSource
  try dsimp only
  repeat' first
    | with_reducible first
      | assumption | apply onUnit_kept | apply wakeStart_kept | apply keptO_next | apply keptO_ite
      | exact keptO_fault | apply kept_ite

theorem enterKept_kept {s0 : State} {s : State} (hs : Kept s0 s) :
    Kept s0 (enterKept s) := by
  unfold enterKept
  try dsimp only
  repeat' first
    | intro _
    | with_reducible first
      | assumption | apply enterDeliver_kept | apply kept_foldl
    | simp only [kept_mk_iff]

theorem execWakeComplete_kept {s0 : State} {s : State} (hs : Kept s0 s) :
    KeptO s0 (execWakeComplete s) := by
  unfold execWakeComplete
  try dsimp only
  repeat' first
    | intro _
    | with_reducible first
      | assumption | apply wr_kept | apply suspectSlices_kept | apply haltFenced_kept | apply trainAll_kept
      | apply bistResume_kept | apply enterKept_kept | apply keptO_next | apply keptO_ite | exact keptO_fault
      | apply kept_ite | apply kept_foldl
    | simp only [kept_mk_iff]

theorem execWakeIfoTimeout_kept {s0 : State} {s : State} (hs : Kept s0 s) :
    KeptO s0 (execWakeIfoTimeout s) := by
  unfold execWakeIfoTimeout
  try dsimp only
  repeat' first
    | with_reducible first
      | assumption | apply wr_kept | apply raise_kept | apply keptO_next | apply keptO_ite | exact keptO_fault
      | apply kept_ite
    | simp only [kept_mk_iff]

end Sys2Proof.Machine
end

