-- ==== Sys2Proof/Laws/KeptFaults.lean ====
section
/-! SUPPORT. What the operations of Machine/Faults.lean keep (`Kept`). -/

namespace Sys2Proof.Machine

theorem postPause_kept {s0 : State} {s : State} (hs : Kept s0 s) :
    Kept s0 (postPause s) := by
  unfold postPause
  try dsimp only
  repeat' first
    | with_reducible first
      | assumption | apply kept_ite
    | simp only [kept_mk_iff]

theorem postResume_kept {s0 : State} {s : State} (hs : Kept s0 s) :
    Kept s0 (postResume s) := by
  unfold postResume
  try dsimp only
  repeat' first
    | with_reducible first
      | assumption | apply kept_ite | exact keptOpt_none | apply keptOpt_ite
    | simp only [kept_mk_iff]
    | split
    | with_reducible first
      | (apply kept_pair; assumption) | (apply kept_opt; assumption) | (apply kept_triple; assumption)

theorem execSupplyWarnSet_kept {s0 : State} {x : RailAt} {s : State} (hs : Kept s0 s) :
    KeptO s0 (execSupplyWarnSet x s) := by
  unfold execSupplyWarnSet
  try dsimp only
  repeat' first
    | with_reducible first
      | assumption | apply onUnit_kept | apply wr_kept | apply bump_kept | apply setInput_kept
      | apply limitFails_kept | apply postPause_kept | apply keptO_next | apply keptO_ite | exact keptO_fault
      | apply kept_ite

theorem execSupplyWarnClear_kept {s0 : State} {x : RailAt} {s : State} (hs : Kept s0 s) :
    KeptO s0 (execSupplyWarnClear x s) := by
  unfold execSupplyWarnClear
  try dsimp only
  repeat' first
    | with_reducible first
      | assumption | apply onUnit_kept | apply wr_kept | apply setInput_kept | apply suspectSlices_kept
      | apply postResume_kept | apply keptO_next | apply keptO_ite | exact keptO_fault | apply kept_ite

theorem execSupplySample_kept {s0 : State} {vals : List Nat} {s : State} (hs : Kept s0 s) :
    KeptO s0 (execSupplySample vals s) := by
  unfold execSupplySample
  try dsimp only
  repeat' first
    | intro _
    | with_reducible first
      | assumption | apply wr_kept | apply keptO_next | apply keptO_ite | exact keptO_fault | apply kept_ite
      | apply kept_foldl

theorem clearParent_kept {s0 : State} {f : Fld} {s : State} (hs : Kept s0 s) :
    Kept s0 (clearParent f s) := by
  unfold clearParent
  try dsimp only
  repeat' first
    | with_reducible first
      | assumption | apply wr_kept | apply kept_ite

theorem liftUnit_kept {s0 : State} {unit : Nat} {s : State} (hs : Kept s0 s) :
    Kept s0 (liftUnit unit s) := by
  unfold liftUnit
  try dsimp only
  repeat' first
    | intro _
    | with_reducible first
      | assumption | apply wr_kept | apply dieFree_kept | apply clearParent_kept | apply kept_ite
      | apply kept_foldl

theorem fenceCmd_kept {s0 : State} {op : Nat} {unit : Nat} {s : State} (hs : Kept s0 s) :
    Kept s0 (fenceCmd op unit s) := by
  unfold fenceCmd
  try dsimp only
  repeat' first
    | intro _
    | with_reducible first
      | assumption | apply wr_kept | apply suspectSlices_kept | apply startRecheck_kept | apply linkTrain_kept
      | apply fenceRegion_kept | apply fenceDie_kept | apply fencePkg_kept | apply liftUnit_kept | apply kept_ite
      | apply kept_foldl

theorem fenceStore_kept {s0 : State} {op : Nat} {unit : Nat} {s : State} (hs : Kept s0 s) :
    Kept s0 (fenceStore op unit s) := by
  unfold fenceStore
  try dsimp only
  repeat' first
    | with_reducible first
      | assumption | apply wr_kept | apply kept_ite

theorem execFenceCmdFence_kept {s0 : State} {unit : Nat} {s : State} (hs : Kept s0 s) :
    KeptO s0 (execFenceCmdFence unit s) := by
  unfold execFenceCmdFence
  try dsimp only
  repeat' first
    | with_reducible first
      | assumption | apply ifOpen_kept | apply fenceCmd_kept | apply fenceStore_kept | apply keptO_next
      | apply keptO_ite | exact keptO_fault

theorem execFenceCmdLift_kept {s0 : State} {unit : Nat} {s : State} (hs : Kept s0 s) :
    KeptO s0 (execFenceCmdLift unit s) := by
  unfold execFenceCmdLift
  try dsimp only
  repeat' first
    | with_reducible first
      | assumption | apply ifOpen_kept | apply fenceCmd_kept | apply fenceStore_kept | apply keptO_next
      | apply keptO_ite | exact keptO_fault

end Sys2Proof.Machine
end

