-- ==== Sys2Proof/Laws/KeptStart.lean ====
section
/-! SUPPORT. What the operations of Machine/Start.lean keep (`Kept`). -/

namespace Sys2Proof.Machine

theorem resetTo_kept {s0 : State} {kind : Nat} {s : State} (hs : Kept s0 s) :
    Kept s0 (resetTo kind s) := by
  unfold resetTo
  have h : ∀ j l, Kept s0 { State.reset with pending := s.pending, freeCtr := s.freeCtr, fuse := s.fuse, dev := j, bist := l } := by
    intro j l
    refine hs.trans ⟨fun _ => by rfl, ?_, rfl⟩
    exact fusesKept_refl s
  dsimp only
  repeat' first
    | intro _
    | with_reducible first
      | assumption | apply wr_kept | apply kept_ite | apply kept_foldl
    | simp only [kept_mk_iff]
  · exact h _ _
  · exact h _ _

theorem execPowerOnReset_kept {s0 : State} {s : State} (hs : Kept s0 s) :
    KeptO s0 (execPowerOnReset s) := by
  unfold execPowerOnReset
  try dsimp only
  repeat' first
    | with_reducible first
      | assumption | apply resetTo_kept | apply keptO_next | apply keptO_ite | exact keptO_fault

theorem execPinReset_kept {s0 : State} {s : State} (hs : Kept s0 s) :
    KeptO s0 (execPinReset s) := by
  unfold execPinReset
  try dsimp only
  repeat' first
    | with_reducible first
      | assumption | apply bump_kept | apply resetTo_kept | apply keptO_next | apply keptO_ite | exact keptO_fault
      | apply kept_ite

theorem execBrownOutReset_kept {s0 : State} {x : RailAt} {s : State} (hs : Kept s0 s) :
    KeptO s0 (execBrownOutReset x s) := by
  unfold execBrownOutReset
  try dsimp only
  repeat' first
    | with_reducible first
      | assumption | apply onUnit_kept | apply wr_kept | apply bump_kept | apply resetTo_kept | apply keptO_next
      | apply keptO_ite | exact keptO_fault | apply kept_ite

theorem fusedRows_kept {s0 : State} {rows : List Nat} {s : State} (hs : Kept s0 s) :
    Kept s0 (fusedRows rows s) := by
  unfold fusedRows
  try dsimp only
  repeat' first
    | intro _
    | with_reducible first
      | assumption | apply wr_kept | apply bump_kept | apply kept_foldl

theorem loadFuses_kept {s0 : State} {s : State} (hs : Kept s0 s) :
    Kept s0 (loadFuses s) := by
  unfold loadFuses
  try dsimp only
  repeat' first
    | intro _
    | with_reducible first
      | assumption | apply wr_kept | apply wrB_kept | apply fusedRows_kept | apply kept_foldl

theorem clearDie1_kept {s0 : State} {s : State} (hs : Kept s0 s) :
    Kept s0 (clearDie1 s) := by
  unfold clearDie1
  try dsimp only
  repeat' first
    | with_reducible first
      | assumption | apply wr_kept | apply kept_ite

theorem latchStraps_kept {s0 : State} {v : Nat} {s : State} (hs : Kept s0 s) :
    Kept s0 (latchStraps v s) := by
  unfold latchStraps
  try dsimp only
  repeat' first
    | with_reducible first
      | assumption | apply wr_kept | apply wrB_kept

theorem execResetRelease_kept {s0 : State} {straps : Nat} {s : State} (hs : Kept s0 s) :
    KeptO s0 (execResetRelease straps s) := by
  unfold execResetRelease
  try dsimp only
  repeat' first
    | with_reducible first
      | assumption | apply wr_kept | apply judgeStart_kept | apply loadFuses_kept | apply clearDie1_kept
      | apply latchStraps_kept | apply keptO_next | apply keptO_ite | exact keptO_fault | apply kept_ite
    | simp only [kept_mk_iff]

theorem putDigest_kept {s0 : State} {f : Nat → Fld} {bytes : List Nat} {s : State} (hs : Kept s0 s) :
    Kept s0 (putDigest f bytes s) := by
  unfold putDigest
  try dsimp only
  repeat' first
    | intro _
    | with_reducible first
      | assumption | apply wr_kept | apply kept_foldl

theorem startStep_kept {s0 : State} {n : Nat} {s : State} (hs : Kept s0 s) :
    Kept s0 (startStep n s) := by
  unfold startStep
  try dsimp only
  repeat' first
    | with_reducible first
      | assumption | apply wr_kept
    | simp only [kept_mk_iff]

theorem enterCalibrate_kept {s0 : State} {s : State} (hs : Kept s0 s) :
    Kept s0 (enterCalibrate s) := by
  unfold enterCalibrate
  try dsimp only
  repeat' first
    | intro _
    | with_reducible first
      | assumption | apply calDue_kept | apply standbySync_kept | apply startFails_kept | apply startStep_kept
      | apply kept_ite | apply kept_foldl

theorem enterPost_kept {s0 : State} {s : State} (hs : Kept s0 s) :
    Kept s0 (enterPost s) := by
  unfold enterPost
  try dsimp only
  repeat' first
    | with_reducible first
      | assumption | apply postPause_kept | apply startStep_kept
    | simp only [kept_mk_iff]

theorem enterRepair_kept {s0 : State} {s : State} (hs : Kept s0 s) :
    Kept s0 (enterRepair s) := by
  unfold enterRepair
  try dsimp only
  repeat' first
    | with_reducible first
      | assumption | apply wr_kept | apply calClocks_kept | apply startStep_kept | apply enterPost_kept
      | apply kept_ite

theorem burnLog_kept {s0 : State} {s : State} (hs : Kept s0 s) :
    Kept s0 (burnLog s) := by
  unfold burnLog
  dsimp only
  refine kept_foldl (fun s a h => wr_kept (bump_kept h)) _ (wr_kept (wr_kept (wr_kept ?_)))
  refine hs.trans ⟨fun h => h, ?_, rfl⟩
  exact ⟨rfl, rfl, rfl, rfl, fun _ h => h, fun _ h => h, List.prefix_refl _, List.prefix_append _ _⟩

theorem postBank_kept {s0 : State} {d : Nat} {b : Nat} {rows : List Nat} {s : State} (hs : Kept s0 s) :
    Kept s0 (postBank d b rows s) := by
  unfold postBank
  try dsimp only
  repeat' first
    | intro _
    | with_reducible first
      | assumption | apply repairRow_kept | apply retireBank_kept | apply kept_ite | apply kept_foldl

theorem postTime_kept {s0 : State} {s : State} (hs : Kept s0 s) :
    Kept s0 (postTime s) := by
  unfold postTime
  try dsimp only
  repeat' first
    | with_reducible first
      | assumption | apply wr_kept

theorem postRecord_kept {s0 : State} {r : PostEnd} {s : State} (hs : Kept s0 s) :
    Kept s0 (postRecord r s) := by
  unfold postRecord
  try dsimp only
  repeat' first
    | intro _
    | with_reducible first
      | assumption | apply wr_kept | apply postBank_kept | apply postTime_kept | apply kept_foldl

theorem enterRing_kept {s0 : State} {s : State} (hs : Kept s0 s) :
    Kept s0 (enterRing s) := by
  unfold enterRing
  try dsimp only
  repeat' first
    | with_reducible first
      | assumption | apply enumStart_kept | apply startStep_kept | apply kept_ite

theorem afterTable_kept {s0 : State} {s : State} (hs : Kept s0 s) :
    Kept s0 (afterTable s) := by
  unfold afterTable
  try dsimp only
  repeat' first
    | with_reducible first
      | assumption | apply wr_kept | apply judgeStart_kept | apply startStep_kept | apply enterRing_kept
      | apply kept_ite
    | simp only [kept_mk_iff]

theorem rejudgeFailed_kept {s0 : State} {s : State} (hs : Kept s0 s) :
    Kept s0 (rejudgeFailed s) := by
  unfold rejudgeFailed
  try dsimp only
  repeat' first
    | intro _
    | with_reducible first
      | assumption | apply setPllRef_kept | apply pllsWith_kept | apply refclkBad_kept | apply kept_ite
    | simp only [kept_mk_iff]

theorem startRuns_kept {s0 : State} {runs : List (Nat × Nat × CalMeasure)} {s : State} (hs : Kept s0 s) :
    Kept s0 (startRuns runs s) := by
  unfold startRuns
  try dsimp only
  repeat' first
    | intro _
    | with_reducible first
      | assumption | apply calRunStart_kept | apply calRunEnd_kept | apply kept_ite | apply kept_foldl

theorem loadBegins_kept {s0 : State} {s : State} (hs : Kept s0 s) :
    Kept s0 (loadBegins s) := by
  unfold loadBegins
  try dsimp only
  repeat' first
    | with_reducible first
      | assumption | apply wr_kept
    | simp only [kept_mk_iff]

theorem startStepEnd_kept {s0 : State} {res : StartEnd} {s : State} (hs : Kept s0 s) :
    Kept s0 (startStepEnd res s) := by
  unfold startStepEnd
  try dsimp only
  repeat' first
    | with_reducible first
      | assumption | apply startFails_kept | apply putDigest_kept | apply startStep_kept
      | apply enterCalibrate_kept | apply enterPost_kept | apply enterRepair_kept | apply burnLog_kept
      | apply postRecord_kept | apply enterRing_kept | apply afterTable_kept | apply rejudgeFailed_kept
      | apply startRuns_kept | apply loadBegins_kept | apply kept_ite
    | simp only [kept_mk_iff]
    | split
    | with_reducible first
      | (apply kept_pair; assumption) | (apply kept_opt; assumption) | (apply kept_triple; assumption)

theorem execStartStepEnd_kept {s0 : State} {res : StartEnd} {s : State} (hs : Kept s0 s) :
    KeptO s0 (execStartStepEnd res s) := by
  unfold execStartStepEnd
  try dsimp only
  repeat' first
    | with_reducible first
      | assumption | apply freshOut_kept | apply postRecord_kept | apply startStepEnd_kept | apply keptO_next
      | apply keptO_ite | exact keptO_fault | apply kept_ite
    | simp only [kept_mk_iff]
    | split
    | with_reducible first
      | (apply kept_pair; assumption) | (apply kept_opt; assumption) | (apply kept_triple; assumption)

theorem execRingWaitEnd_kept {s0 : State} {s : State} (hs : Kept s0 s) :
    KeptO s0 (execRingWaitEnd s) := by
  unfold execRingWaitEnd
  try dsimp only
  repeat' first
    | with_reducible first
      | assumption | apply startStep_kept | apply keptO_next | apply keptO_ite | exact keptO_fault
      | apply kept_ite

theorem execPostPauseLimit_kept {s0 : State} {s : State} (hs : Kept s0 s) :
    KeptO s0 (execPostPauseLimit s) := by
  unfold execPostPauseLimit
  try dsimp only
  repeat' first
    | with_reducible first
      | assumption | apply wr_kept | apply startFails_kept | apply postTime_kept | apply keptO_next
      | apply keptO_ite | exact keptO_fault | apply kept_ite

theorem execStartComplete_kept {s0 : State} {s : State} (hs : Kept s0 s) :
    KeptO s0 (execStartComplete s) := by
  unfold execStartComplete
  try dsimp only
  repeat' first
    | with_reducible first
      | assumption | apply wr_kept | apply freshOut_kept | apply sendReady_kept | apply haltFenced_kept
      | apply keptO_next | apply keptO_ite | exact keptO_fault | apply kept_ite
    | simp only [kept_mk_iff]

theorem bootRelease_kept {s0 : State} {s : State} (hs : Kept s0 s) :
    Kept s0 (bootRelease s) := by
  unfold bootRelease
  try dsimp only
  repeat' first
    | with_reducible first
      | assumption | apply wr_kept | apply sendReady_kept | apply kept_ite
    | simp only [kept_mk_iff]

theorem execBootRelease_kept {s0 : State} {s : State} (hs : Kept s0 s) :
    KeptO s0 (execBootRelease s) := by
  unfold execBootRelease
  try dsimp only
  repeat' first
    | with_reducible first
      | assumption | apply ifOpen_kept | apply freshOut_kept | apply bootRelease_kept | apply keptO_next
      | apply keptO_ite | exact keptO_fault

end Sys2Proof.Machine
end

