-- ==== Sys2Proof/Laws/KeptBoardTable.lean ====
section
/-! SUPPORT. What the operations of Machine/BoardTable.lean keep (`Kept`). -/

namespace Sys2Proof.Machine

theorem putPreset_kept {s0 : State} {n : Nat} {rung : Nat} {r : List Nat} {s : State} (hs : Kept s0 s) :
    Kept s0 (putPreset n rung r s) := by
  unfold putPreset
  try dsimp only
  repeat' first
    | intro _
    | with_reducible first
      | assumption | apply wr_kept | apply kept_foldl

theorem putPlanRecord_kept {s0 : State} {c : Nat} {r : List Nat} {now : Bool} {s : State} (hs : Kept s0 s) :
    Kept s0 (putPlanRecord c r now s) := by
  unfold putPlanRecord
  try dsimp only
  repeat' first
    | intro _
    | with_reducible first
      | assumption | apply standbySync_kept | apply putPlan_kept | apply kept_ite
    | simp only [kept_mk_iff]

theorem putPolarity_kept {s0 : State} {n : Nat} {v : Nat} {now : Bool} {s : State} (hs : Kept s0 s) :
    Kept s0 (putPolarity n v now s) := by
  unfold putPolarity
  try dsimp only
  repeat' first
    | intro _
    | with_reducible first
      | assumption | apply putPol_kept | apply leCfgSide_kept | apply kept_ite | apply kept_foldl
    | simp only [kept_mk_iff]

theorem putBoot_kept {s0 : State} {b : List Nat} {s : State} (hs : Kept s0 s) :
    Kept s0 (putBoot b s) := by
  unfold putBoot
  try dsimp only
  repeat' first
    | with_reducible first
      | assumption | apply wr_kept | apply kept_ite
    | simp only [kept_mk_iff]

theorem putSection_kept {s0 : State} {now : Bool} {img : List Nat} {s : State} {p : Nat × Nat} (hs : Kept s0 s) :
    Kept s0 (putSection now img s p) := by
  unfold putSection
  try dsimp only
  repeat' first
    | intro _
    | with_reducible first
      | assumption | apply putPreset_kept | apply putPlanRecord_kept | apply putPolarity_kept | apply kept_ite
      | apply kept_foldl
    | simp only [kept_mk_iff]
    | split
    | with_reducible first
      | (apply kept_pair; assumption) | (apply kept_opt; assumption) | (apply kept_triple; assumption)

theorem btLive_kept {s0 : State} {image : Nat} {img : List Nat} {s : State} (hs : Kept s0 s) :
    Kept s0 (btLive image img s) := by
  unfold btLive
  try dsimp only
  repeat' first
    | intro _
    | with_reducible first
      | assumption | apply wr_kept | apply putDigest_kept | apply putBoot_kept | apply putSection_kept
      | apply kept_ite | apply kept_foldl
    | simp only [kept_mk_iff]
    | split
    | with_reducible first
      | (apply kept_pair; assumption) | (apply kept_opt; assumption) | (apply kept_triple; assumption)

theorem btDetail_kept {s0 : State} {r : BtResult} {s : State} (hs : Kept s0 s) :
    Kept s0 (btDetail r s) := by
  unfold btDetail
  try dsimp only
  repeat' first
    | with_reducible first
      | assumption | apply wr_kept

theorem btLoadDone_kept {s0 : State} {primary : List Nat} {backup : List Nat} {s : State} (hs : Kept s0 s) :
    Kept s0 (btLoadDone primary backup s) := by
  unfold btLoadDone
  try dsimp only
  repeat' first
    | with_reducible first
      | assumption | apply wr_kept | apply raise_kept | apply btLive_kept | apply btDetail_kept | apply kept_ite
    | simp only [kept_mk_iff]

theorem btLoad_kept {s0 : State} {s : State} (hs : Kept s0 s) :
    Kept s0 (btLoad s) := by
  unfold btLoad
  try dsimp only
  repeat' first
    | with_reducible first
      | assumption | apply wr_kept | apply loadBegins_kept | apply kept_ite

theorem execBtLoad_kept {s0 : State} {s : State} (hs : Kept s0 s) :
    KeptO s0 (execBtLoad s) := by
  unfold execBtLoad
  try dsimp only
  repeat' first
    | with_reducible first
      | assumption | apply ifOpen_kept | apply btLoad_kept | apply keptO_next | apply keptO_ite
      | exact keptO_fault

theorem execBtLoadDone_kept {s0 : State} {primary : List Nat} {backup : List Nat} {s : State} (hs : Kept s0 s) :
    KeptO s0 (execBtLoadDone primary backup s) := by
  unfold execBtLoadDone
  try dsimp only
  repeat' first
    | with_reducible first
      | assumption | apply btLoadDone_kept | apply keptO_next | apply keptO_ite | exact keptO_fault
      | apply kept_ite

theorem fcStore_kept {s0 : State} {ctl : Nat} {s : State} (hs : Kept s0 s) :
    Kept s0 (fcStore ctl s) := by
  unfold fcStore
  try dsimp only
  repeat' first
    | intro _
    | with_reducible first
      | assumption | apply wr_kept | apply kept_foldl

theorem flashCommand_kept {s0 : State} {ctl : Nat} {s : State} (hs : Kept s0 s) :
    Kept s0 (flashCommand ctl s) := by
  unfold flashCommand
  try dsimp only
  repeat' first
    | with_reducible first
      | assumption | apply wr_kept | apply fcStore_kept | apply kept_ite
    | simp only [kept_mk_iff]

theorem execFlashCommand_kept {s0 : State} {ctl : Nat} {s : State} (hs : Kept s0 s) :
    KeptO s0 (execFlashCommand ctl s) := by
  unfold execFlashCommand
  try dsimp only
  repeat' first
    | with_reducible first
      | assumption | apply ifOpen_kept | apply flashCommand_kept | apply keptO_next | apply keptO_ite
      | exact keptO_fault

theorem putFcByte_kept {s0 : State} {i : Nat} {v : Nat} {s : State} (hs : Kept s0 s) :
    Kept s0 (putFcByte i v s) := by
  unfold putFcByte
  try dsimp only
  repeat' first
    | with_reducible first
      | assumption | apply wr_kept

theorem execFlashCommandDone_kept {s0 : State} {reads : List Nat} {s : State} (hs : Kept s0 s) :
    KeptO s0 (execFlashCommandDone reads s) := by
  unfold execFlashCommandDone
  try dsimp only
  repeat' first
    | intro _
    | with_reducible first
      | assumption | apply wr_kept | apply putFcByte_kept | apply keptO_next | apply keptO_ite | exact keptO_fault
      | apply kept_ite | apply kept_foldl

end Sys2Proof.Machine
end

