-- ==== Sys2Proof/Laws/KeptBuffer.lean ====
section
/-! SUPPORT. What the operations of Machine/Buffer.lean keep (`Kept`). -/

namespace Sys2Proof.Machine

theorem banksFence_kept {s0 : State} {d : Nat} {s : State} (hs : Kept s0 s) :
    Kept s0 (banksFence d s) := by
  unfold banksFence
  try dsimp only
  repeat' first
    | with_reducible first
      | assumption | apply fenceDie_kept | apply kept_ite

theorem retireInService_kept {s0 : State} {d : Nat} {b : Nat} {s : State} (hs : Kept s0 s) :
    Kept s0 (retireInService d b s) := by
  unfold retireInService
  try dsimp only
  repeat' first
    | with_reducible first
      | assumption | apply retireBank_kept | apply startRecheck_kept | apply prkNotice_kept
      | apply banksFence_kept

theorem copyRead_kept {s0 : State} {r : Nat} {e : EccRead} {s : State} (hs : Kept s0 s) :
    Kept s0 (copyRead r e s) := by
  unfold copyRead
  try dsimp only
  repeat' first
    | with_reducible first
      | assumption | apply readSlot_kept | apply loseSlot_kept | apply kept_ite
    | simp only [kept_mk_iff]
    | split
    | with_reducible first
      | (apply kept_pair; assumption) | (apply kept_opt; assumption) | (apply kept_triple; assumption)

theorem copyReads_kept {s0 : State} {d : Nat} {l : Nat} {reads : List (Nat × EccRead)} {s : State} (hs : Kept s0 s) :
    Kept s0 (copyReads d l reads s) := by
  unfold copyReads
  try dsimp only
  repeat' first
    | intro _
    | with_reducible first
      | assumption | apply copyRead_kept | apply kept_ite | apply kept_foldl

theorem remirror_kept {s0 : State} {r : Nat} {e : EccRead} {s : State} (hs : Kept s0 s) :
    Kept s0 (remirror r e s) := by
  unfold remirror
  try dsimp only
  repeat' first
    | with_reducible first
      | assumption | apply count_kept | apply dieEvent_kept | apply putSlot_kept | apply allocSlot_kept
      | apply relist_kept | apply readSlot_kept | apply loseSlot_kept | apply kept_ite | exact keptOpt_none
      | apply keptOpt_ite
    | simp only [kept_mk_iff]
    | split
    | with_reducible first
      | (apply kept_pair; assumption) | (apply kept_opt; assumption) | (apply kept_triple; assumption)

theorem execRemirror_kept {s0 : State} {e : SlotAt} {read : EccRead} {s : State} (hs : Kept s0 s) :
    KeptO s0 (execRemirror e read s) := by
  unfold execRemirror
  try dsimp only
  repeat' first
    | with_reducible first
      | assumption | apply onUnit_kept | apply remirror_kept | apply keptO_next | apply keptO_ite
      | exact keptO_fault | apply kept_ite

theorem execCeWindowEnd_kept {s0 : State} {die : Nat} {s : State} (hs : Kept s0 s) :
    KeptO s0 (execCeWindowEnd die s) := by
  unfold execCeWindowEnd
  try dsimp only
  repeat' first
    | with_reducible first
      | assumption | apply onUnit_kept | apply putBuf_kept | apply keptO_next | apply keptO_ite
      | exact keptO_fault | apply kept_ite
    | simp only [kept_mk_iff]

theorem dropBad_kept {s0 : State} {d : Nat} {l : Nat} {s : State} (hs : Kept s0 s) :
    Kept s0 (dropBad d l s) := by
  unfold dropBad
  try dsimp only
  repeat' first
    | intro _
    | with_reducible first
      | assumption | apply putSlot_kept | apply kept_foldl

theorem saveDone_kept {s0 : State} {d : Nat} {reads : List (Nat × EccRead)} {s : State} (hs : Kept s0 s) :
    Kept s0 (saveDone d reads s) := by
  unfold saveDone
  try dsimp only
  repeat' first
    | with_reducible first
      | assumption | apply wr_kept | apply count_kept | apply setServes_kept | apply setRot_kept
      | apply rotIdle_kept | apply testStopped_kept | apply retireInService_kept | apply copyReads_kept
      | apply dropBad_kept | apply kept_ite | exact keptOpt_none | apply keptOpt_ite
    | simp only [kept_mk_iff]
    | split
    | with_reducible first
      | (apply kept_pair; assumption) | (apply kept_opt; assumption) | (apply kept_triple; assumption)

theorem execBankSaveDone_kept {s0 : State} {x : BankReads} {s : State} (hs : Kept s0 s) :
    KeptO s0 (execBankSaveDone x s) := by
  unfold execBankSaveDone
  try dsimp only
  repeat' first
    | with_reducible first
      | assumption | apply onUnit_kept | apply saveDone_kept | apply keptO_next | apply keptO_ite
      | exact keptO_fault | apply kept_ite

theorem returnBank_kept {s0 : State} {d : Nat} {bank : Nat} {s : State} (hs : Kept s0 s) :
    Kept s0 (returnBank d bank s) := by
  unfold returnBank
  try dsimp only
  repeat' first
    | intro _
    | with_reducible first
      | assumption | apply wr_kept | apply setServes_kept | apply prkNotice_kept | apply kept_ite
      | exact keptOpt_none | apply keptOpt_ite
    | simp only [kept_mk_iff]
    | split
    | with_reducible first
      | (apply kept_pair; assumption) | (apply kept_opt; assumption) | (apply kept_triple; assumption)

theorem testEnd_kept {s0 : State} {d : Nat} {t : BankTest} {s : State} (hs : Kept s0 s) :
    Kept s0 (testEnd d t s) := by
  unfold testEnd
  try dsimp only
  repeat' first
    | intro _
    | with_reducible first
      | assumption | apply wr_kept | apply wrB_kept | apply raise_kept | apply repairRow_kept | apply putBuf_kept
      | apply setRot_kept | apply bankRecord_kept | apply suspectSlice_kept | apply suspectClear_kept
      | apply rotIdle_kept | apply inPlaceBack_kept | apply testCut_kept | apply retireInService_kept
      | apply returnBank_kept | apply kept_ite | apply kept_foldl
    | simp only [kept_mk_iff]
    | split
    | with_reducible first
      | (apply kept_pair; assumption) | (apply kept_opt; assumption) | (apply kept_triple; assumption)

theorem execBankTestEnd_kept {s0 : State} {die : Nat} {result : BankTest} {s : State} (hs : Kept s0 s) :
    KeptO s0 (execBankTestEnd die result s) := by
  unfold execBankTestEnd
  try dsimp only
  repeat' first
    | with_reducible first
      | assumption | apply onUnit_kept | apply testEnd_kept | apply keptO_next | apply keptO_ite
      | exact keptO_fault | apply kept_ite

theorem restoreDone_kept {s0 : State} {d : Nat} {reads : List (Nat × EccRead)} {s : State} (hs : Kept s0 s) :
    Kept s0 (restoreDone d reads s) := by
  unfold restoreDone
  try dsimp only
  repeat' first
    | with_reducible first
      | assumption | apply wr_kept | apply count_kept | apply raise_kept | apply putBuf_kept
      | apply setServes_kept | apply suspectSlice_kept | apply suspectClear_kept | apply rotIdle_kept
      | apply copyReads_kept | apply dropBad_kept | apply kept_ite
    | simp only [kept_mk_iff]

theorem execBankRestoreDone_kept {s0 : State} {x : BankReads} {s : State} (hs : Kept s0 s) :
    KeptO s0 (execBankRestoreDone x s) := by
  unfold execBankRestoreDone
  try dsimp only
  repeat' first
    | with_reducible first
      | assumption | apply onUnit_kept | apply restoreDone_kept | apply keptO_next | apply keptO_ite
      | exact keptO_fault | apply kept_ite

theorem moveSlot_kept {s0 : State} {l : Nat} {r : Nat} {s : State} (hs : Kept s0 s) :
    Kept s0 (moveSlot l r s) := by
  unfold moveSlot
  try dsimp only
  repeat' first
    | with_reducible first
      | assumption | apply count_kept | apply putSlot_kept | apply allocSlot_kept | apply relist_kept
    | simp only [kept_mk_iff]
    | split
    | with_reducible first
      | (apply kept_pair; assumption) | (apply kept_opt; assumption) | (apply kept_triple; assumption)

theorem evacuationDone_kept {s0 : State} {d : Nat} {reads : List (Nat × EccRead)} {s : State} (hs : Kept s0 s) :
    Kept s0 (evacuationDone d reads s) := by
  unfold evacuationDone
  try dsimp only
  repeat' first
    | intro _
    | with_reducible first
      | assumption | apply wr_kept | apply setServes_kept | apply suspectSlice_kept | apply rotIdle_kept
      | apply copyReads_kept | apply moveSlot_kept | apply kept_ite | apply kept_foldl | exact keptOpt_none
      | apply keptOpt_ite
    | simp only [kept_mk_iff]
    | split
    | with_reducible first
      | (apply kept_pair; assumption) | (apply kept_opt; assumption) | (apply kept_triple; assumption)

theorem execEvacuationDone_kept {s0 : State} {x : BankReads} {s : State} (hs : Kept s0 s) :
    KeptO s0 (execEvacuationDone x s) := by
  unfold execEvacuationDone
  try dsimp only
  repeat' first
    | with_reducible first
      | assumption | apply onUnit_kept | apply evacuationDone_kept | apply keptO_next | apply keptO_ite
      | exact keptO_fault | apply kept_ite

theorem bufCmd_kept {s0 : State} {d : Nat} {op : Nat} {bank : Nat} {s : State} (hs : Kept s0 s) :
    Kept s0 (bufCmd d op bank s) := by
  unfold bufCmd
  try dsimp only
  repeat' first
    | with_reducible first
      | assumption | apply wr_kept | apply sliceBegin_kept | apply testBegin_kept | apply retireInService_kept
      | apply kept_ite

theorem execBufRetire_kept {s0 : State} {die : Nat} {bank : Nat} {s : State} (hs : Kept s0 s) :
    KeptO s0 (execBufRetire die bank s) := by
  unfold execBufRetire
  try dsimp only
  repeat' first
    | with_reducible first
      | assumption | apply ifHas_kept | apply bufCmd_kept | apply keptO_next | apply keptO_ite | exact keptO_fault

theorem execBufReturn_kept {s0 : State} {die : Nat} {bank : Nat} {s : State} (hs : Kept s0 s) :
    KeptO s0 (execBufReturn die bank s) := by
  unfold execBufReturn
  try dsimp only
  repeat' first
    | with_reducible first
      | assumption | apply ifHas_kept | apply bufCmd_kept | apply keptO_next | apply keptO_ite | exact keptO_fault

theorem execBufTestNow_kept {s0 : State} {die : Nat} {bank : Nat} {s : State} (hs : Kept s0 s) :
    KeptO s0 (execBufTestNow die bank s) := by
  unfold execBufTestNow
  try dsimp only
  repeat' first
    | with_reducible first
      | assumption | apply ifHas_kept | apply bufCmd_kept | apply keptO_next | apply keptO_ite | exact keptO_fault

theorem bufSnap_kept {s0 : State} {d : Nat} {s : State} (hs : Kept s0 s) :
    Kept s0 (bufSnap d s) := by
  unfold bufSnap
  try dsimp only
  repeat' first
    | with_reducible first
      | assumption | apply bumpWrap_kept | apply latchAll_kept | apply answerWord_kept

theorem execBufSnap_kept {s0 : State} {die : Nat} {s : State} (hs : Kept s0 s) :
    KeptO s0 (execBufSnap die s) := by
  unfold execBufSnap
  try dsimp only
  repeat' first
    | with_reducible first
      | assumption | apply ifHas_kept | apply answerWord_kept | apply bufSnap_kept | apply keptO_next
      | apply keptO_ite | exact keptO_fault

theorem bufClr_kept {s0 : State} {d : Nat} {s : State} (hs : Kept s0 s) :
    Kept s0 (bufClr d s) := by
  unfold bufClr
  try dsimp only
  repeat' first
    | with_reducible first
      | assumption | apply wr_kept | apply zeroLive_kept

theorem execBufClr_kept {s0 : State} {die : Nat} {s : State} (hs : Kept s0 s) :
    KeptO s0 (execBufClr die s) := by
  unfold execBufClr
  try dsimp only
  repeat' first
    | with_reducible first
      | assumption | apply ifHas_kept | apply bufClr_kept | apply keptO_next | apply keptO_ite | exact keptO_fault

theorem descSel_kept {s0 : State} {d : Nat} {addr : Nat} {s : State} (hs : Kept s0 s) :
    Kept s0 (descSel d addr s) := by
  unfold descSel
  try dsimp only
  repeat' first
    | intro _
    | with_reducible first
      | assumption | apply wr_kept | apply kept_ite | apply kept_foldl

theorem execDescSelWrite_kept {s0 : State} {die : Nat} {addr : Nat} {s : State} (hs : Kept s0 s) :
    KeptO s0 (execDescSelWrite die addr s) := by
  unfold execDescSelWrite
  try dsimp only
  repeat' first
    | with_reducible first
      | assumption | apply ifHas_kept | apply descSel_kept | apply keptO_next | apply keptO_ite
      | exact keptO_fault

end Sys2Proof.Machine
end

