-- ==== Sys2Proof/Laws/KeptDarning.lean ====
section
/-! SUPPORT. What the operations of Machine/Darning.lean keep (`Kept`). -/

namespace Sys2Proof.Machine

theorem execDarnTimerExpiry_kept {s0 : State} {f : Nat} {s : State} (hs : Kept s0 s) :
    KeptO s0 (execDarnTimerExpiry f s) := by
  unfold execDarnTimerExpiry
  try dsimp only
  repeat' first
    | with_reducible first
      | assumption | apply onUnit_kept | apply darnExpire_kept | apply keptO_next | apply keptO_ite
      | exact keptO_fault | apply kept_ite

theorem execDarnSnap_kept {s0 : State} {k : Nat} {s : State} (hs : Kept s0 s) :
    KeptO s0 (execDarnSnap k s) := by
  unfold execDarnSnap
  try dsimp only
  repeat' first
    | with_reducible first
      | assumption | apply bumpWrap_kept | apply latchAll_kept | apply latchAll64_kept | apply ifHas_kept
      | apply answerWord_kept | apply keptO_next | apply keptO_ite | exact keptO_fault | apply kept_ite

theorem execDarnClr_kept {s0 : State} {k : Nat} {s : State} (hs : Kept s0 s) :
    KeptO s0 (execDarnClr k s) := by
  unfold execDarnClr
  try dsimp only
  repeat' first
    | with_reducible first
      | assumption | apply zeroLive_kept | apply ifHas_kept | apply keptO_next | apply keptO_ite
      | exact keptO_fault

end Sys2Proof.Machine
end

