-- ==== Sys2Proof/Laws/KeptHearing.lean ====
section
/-! SUPPORT. What the operations of Machine/Hearing.lean keep (`Kept`). -/

namespace Sys2Proof.Machine

theorem badSymbols_kept {s0 : State} {n : Nat} {sd : Side} {syms : List Sym} {s : State} (hs : Kept s0 s) :
    Kept s0 (badSymbols n sd syms s) := by
  unfold badSymbols
  try dsimp only
  repeat' first
    | with_reducible first
      | assumption | apply countBy_kept | apply putRx_kept | apply kept_ite
    | simp only [kept_mk_iff]

theorem t0Decides_kept {s0 : State} {n : Nat} {sd : Side} {t0 : Option Nat} {s : State} (hs : Kept s0 s) :
    Kept s0 (t0Decides n sd t0 s) := by
  unfold t0Decides
  try dsimp only
  repeat' first
    | with_reducible first
      | assumption | apply wrB_kept | apply wired_kept | apply putRx_kept | apply kept_ite | exact keptOpt_none
      | apply keptOpt_ite
    | simp only [kept_mk_iff]
    | split
    | with_reducible first
      | (apply kept_pair; assumption) | (apply kept_opt; assumption) | (apply kept_triple; assumption)

theorem laneHears_kept {s0 : State} {n : Nat} {sd : Side} {codes : List Nat} {s : State} (hs : Kept s0 s) :
    Kept s0 (laneHears n sd codes s) := by
  unfold laneHears
  try dsimp only
  repeat' first
    | with_reducible first
      | assumption | apply putRx_kept | apply badSymbols_kept | apply t0Decides_kept
    | simp only [kept_mk_iff]

theorem lossCheck_kept {s0 : State} {ends : List Nat} {sd : Side} {s : State} (hs : Kept s0 s) :
    Kept s0 (lossCheck ends sd s) := by
  unfold lossCheck
  try dsimp only
  repeat' first
    | intro _
    | with_reducible first
      | assumption | apply locksLost_kept

theorem slicesHeard_kept {s0 : State} {k : Nat} {sd : Side} {slices : List (List Nat)} {s : State} (hs : Kept s0 s) :
    Kept s0 (slicesHeard k sd slices s) := by
  unfold slicesHeard
  try dsimp only
  repeat' first
    | intro _
    | with_reducible first
      | assumption | apply laneHears_kept | apply lossCheck_kept | apply kept_foldl

theorem copyArrives_kept {s0 : State} {α : Type} {n : Nat} {sd : Side} {c : Copy α} {s : State} (hs : Kept s0 s) :
    Kept s0 (copyArrives n sd c s) := by
  unfold copyArrives
  try dsimp only
  repeat' first
    | with_reducible first
      | assumption | apply count_kept | apply putRx_kept | apply kept_ite
    | simp only [kept_mk_iff]
    | split
    | with_reducible first
      | (apply kept_pair; assumption) | (apply kept_opt; assumption) | (apply kept_triple; assumption)

theorem rxBoundary_kept {s0 : State} {n : Nat} {sd : Side} {s : State} (hs : Kept s0 s) :
    Kept s0 (rxBoundary n sd s) := by
  unfold rxBoundary
  try dsimp only
  repeat' first
    | with_reducible first
      | assumption | apply wrB_kept | apply putRx_kept | apply polRestart_kept
    | simp only [kept_mk_iff]
    | split
    | with_reducible first
      | (apply kept_pair; assumption) | (apply kept_opt; assumption) | (apply kept_triple; assumption)

theorem setHeard_kept {s0 : State} {α : Type} [DecidableEq α] {read : List Sym → Option α} {k : Nat} {sd : Side} {heard : List Heard} {s : State} (hs : Kept s0 s) :
    Kept s0 (setHeard read k sd heard s) := by
  unfold setHeard
  try dsimp only
  repeat' first
    | intro _
    | with_reducible first
      | assumption | apply count_kept | apply laneHears_kept | apply lossCheck_kept | apply copyArrives_kept
      | apply rxBoundary_kept | apply kept_ite | apply kept_foldl

theorem setArrives_kept {s0 : State} {α : Type} [DecidableEq α] {read : List Sym → Option α} {k : Nat} {sd : Side} {heard : List Heard} {s : State} (hs : Kept s0 s) :
    Kept s0 (setArrives read k sd heard s).2 := by
  unfold setArrives
  try dsimp only
  repeat' first
    | with_reducible first
      | assumption | apply setHeard_kept

end Sys2Proof.Machine
end

