-- ==== Sys2Proof/Laws/KeptTrunk.lean ====
section
/-! SUPPORT. What the operations of Machine/Trunk.lean keep (`Kept`). -/

namespace Sys2Proof.Machine

theorem drnReceive_kept {s0 : State} {k : Nat} {sd : Side} {heard : List Heard} {kind : Nat} {act : Nat → DrnSet → State → State} {s : State} (hact : ∀ y0 y1 y2, Kept s0 y2 → Kept s0 (act y0 y1 y2)) (hs : Kept s0 s) :
    Kept s0 (drnReceive k sd heard kind act s) := by
  unfold drnReceive
  try dsimp only
  repeat' first
    | intro _
    | with_reducible first
      | assumption | apply countTrunk_kept | apply setArrives_kept | apply hact | apply kept_ite
      | exact keptOpt_none | apply keptOpt_ite
    | simp only [kept_mk_iff]
    | split
    | with_reducible first
      | (apply kept_pair; assumption) | (apply kept_opt; assumption) | (apply kept_triple; assumption)

theorem execDrnAckReceive_kept {s0 : State} {k : Nat} {sd : Side} {heard : List Heard} {s : State} (hs : Kept s0 s) :
    KeptO s0 (execDrnAckReceive k sd heard s) := by
  unfold execDrnAckReceive
  try dsimp only
  repeat' first
    | intro _
    | with_reducible first
      | assumption | apply onUnit_kept | apply drnAck_kept | apply drnReceive_kept | apply keptO_next
      | apply keptO_ite | exact keptO_fault

theorem execDrnNakReceive_kept {s0 : State} {k : Nat} {sd : Side} {heard : List Heard} {s : State} (hs : Kept s0 s) :
    KeptO s0 (execDrnNakReceive k sd heard s) := by
  unfold execDrnNakReceive
  try dsimp only
  repeat' first
    | intro _
    | with_reducible first
      | assumption | apply onUnit_kept | apply modTrunk_kept | apply countTrunk_kept | apply drnNak_kept
      | apply drnReceive_kept | apply keptO_next | apply keptO_ite | exact keptO_fault | apply kept_ite
    | simp only [kept_mk_iff]

theorem execDrnProbeReceive_kept {s0 : State} {k : Nat} {sd : Side} {heard : List Heard} {turn : Nat} {s : State} (hs : Kept s0 s) :
    KeptO s0 (execDrnProbeReceive k sd heard turn s) := by
  unfold execDrnProbeReceive
  try dsimp only
  repeat' first
    | intro _
    | with_reducible first
      | assumption | apply onUnit_kept | apply modTrunk_kept | apply drnReceive_kept | apply keptO_next
      | apply keptO_ite | exact keptO_fault
    | simp only [kept_mk_iff]

theorem probeSample_kept {s0 : State} {t : Nat} {n : Nat} {s : State} (hs : Kept s0 s) :
    Kept s0 (probeSample t n s) := by
  unfold probeSample
  try dsimp only
  repeat' first
    | intro _
    | with_reducible first
      | assumption | apply wr_kept | apply modTrunk_kept | apply startRecheck_kept | apply kept_ite
    | simp only [kept_mk_iff]

theorem execDrnEchoReceive_kept {s0 : State} {k : Nat} {sd : Side} {heard : List Heard} {elapsed : Nat} {s : State} (hs : Kept s0 s) :
    KeptO s0 (execDrnEchoReceive k sd heard elapsed s) := by
  unfold execDrnEchoReceive
  try dsimp only
  repeat' first
    | intro _
    | with_reducible first
      | assumption | apply onUnit_kept | apply drnReceive_kept | apply probeSample_kept | apply keptO_next
      | apply keptO_ite | exact keptO_fault | apply kept_ite | exact keptOpt_none | apply keptOpt_ite
    | simp only [kept_mk_iff]
    | split
    | with_reducible first
      | (apply kept_pair; assumption) | (apply kept_opt; assumption) | (apply kept_triple; assumption)

theorem spanExpire_kept {s0 : State} {t : Nat} {s : State} (hs : Kept s0 s) :
    Kept s0 (spanExpire t s) := by
  unfold spanExpire
  try dsimp only
  repeat' first
    | with_reducible first
      | assumption | apply putTrunk_kept | apply trunkEvent_kept | apply countTrunk_kept | apply trunkRun_kept
      | apply retrain_kept | apply kept_ite
    | simp only [kept_mk_iff]

theorem execSpanTimerExpiry_kept {s0 : State} {t : Nat} {s : State} (hs : Kept s0 s) :
    KeptO s0 (execSpanTimerExpiry t s) := by
  unfold execSpanTimerExpiry
  try dsimp only
  repeat' first
    | with_reducible first
      | assumption | apply onUnit_kept | apply spanExpire_kept | apply keptO_next | apply keptO_ite
      | exact keptO_fault | apply kept_ite

theorem execDrnAckTimer_kept {s0 : State} {t : Nat} {s : State} (hs : Kept s0 s) :
    KeptO s0 (execDrnAckTimer t s) := by
  unfold execDrnAckTimer
  try dsimp only
  repeat' first
    | with_reducible first
      | assumption | apply onUnit_kept | apply postDrnAck_kept | apply keptO_next | apply keptO_ite
      | exact keptO_fault | apply kept_ite

theorem execProbeInterval_kept {s0 : State} {t : Nat} {s : State} (hs : Kept s0 s) :
    KeptO s0 (execProbeInterval t s) := by
  unfold execProbeInterval
  try dsimp only
  repeat' first
    | intro _
    | with_reducible first
      | assumption | apply onUnit_kept | apply modTrunk_kept | apply keptO_next | apply keptO_ite
      | exact keptO_fault | apply kept_ite
    | simp only [kept_mk_iff]

theorem execProbeWaitExpiry_kept {s0 : State} {t : Nat} {s : State} (hs : Kept s0 s) :
    KeptO s0 (execProbeWaitExpiry t s) := by
  unfold execProbeWaitExpiry
  try dsimp only
  repeat' first
    | intro _
    | with_reducible first
      | assumption | apply onUnit_kept | apply modTrunk_kept | apply keptO_next | apply keptO_ite
      | exact keptO_fault | apply kept_ite
    | simp only [kept_mk_iff]

theorem execProxyAckTimer_kept {s0 : State} {f : Nat} {s : State} (hs : Kept s0 s) :
    KeptO s0 (execProxyAckTimer f s) := by
  unfold execProxyAckTimer
  try dsimp only
  repeat' first
    | with_reducible first
      | assumption | apply onUnit_kept | apply postProxy_kept | apply keptO_next | apply keptO_ite
      | exact keptO_fault | apply kept_ite

theorem execTrunkAckRefresh_kept {s0 : State} {k : Nat} {s : State} (hs : Kept s0 s) :
    KeptO s0 (execTrunkAckRefresh k s) := by
  unfold execTrunkAckRefresh
  try dsimp only
  repeat' first
    | with_reducible first
      | assumption | apply onUnit_kept | apply postTrunkAck_kept | apply keptO_next | apply keptO_ite
      | exact keptO_fault | apply kept_ite

theorem execTrkSnap_kept {s0 : State} {k : Nat} {s : State} (hs : Kept s0 s) :
    KeptO s0 (execTrkSnap k s) := by
  unfold execTrkSnap
  try dsimp only
  repeat' first
    | with_reducible first
      | assumption | apply bumpWrap_kept | apply latch64_kept | apply latchAll_kept | apply ifHas_kept
      | apply answerWord_kept | apply keptO_next | apply keptO_ite | exact keptO_fault | apply kept_ite

theorem execTrkClr_kept {s0 : State} {k : Nat} {s : State} (hs : Kept s0 s) :
    KeptO s0 (execTrkClr k s) := by
  unfold execTrkClr
  try dsimp only
  repeat' first
    | with_reducible first
      | assumption | apply zeroLive_kept | apply ifHas_kept | apply keptO_next | apply keptO_ite
      | exact keptO_fault

end Sys2Proof.Machine
end

