-- ==== Sys2Proof/Laws/KeptBundle.lean ====
section
/-! SUPPORT. What the operations of Machine/Bundle.lean keep (`Kept`). -/

namespace Sys2Proof.Machine

theorem execControlFlitDue_kept {s0 : State} {t : Nat} {s : State} (hs : Kept s0 s) :
    KeptO s0 (execControlFlitDue t s) := by
  unfold execControlFlitDue
  try dsimp only
  repeat' first
    | intro _
    | with_reducible first
      | assumption | apply onUnit_kept | apply modTrunk_kept | apply owedAcks_kept | apply keptO_next
      | apply keptO_ite | exact keptO_fault | apply kept_ite
    | simp only [kept_mk_iff]

theorem execLlTornWindowEnd_kept {s0 : State} {l : Nat} {s : State} (hs : Kept s0 s) :
    KeptO s0 (execLlTornWindowEnd l s) := by
  unfold execLlTornWindowEnd
  try dsimp only
  repeat' first
    | with_reducible first
      | assumption | apply onUnit_kept | apply putLl_kept | apply keptO_next | apply keptO_ite | exact keptO_fault
      | apply kept_ite
    | simp only [kept_mk_iff]

theorem execLlDrainEnd_kept {s0 : State} {l : Nat} {s : State} (hs : Kept s0 s) :
    KeptO s0 (execLlDrainEnd l s) := by
  unfold execLlDrainEnd
  try dsimp only
  repeat' first
    | with_reducible first
      | assumption | apply onUnit_kept | apply putLl_kept | apply dropFlow_kept | apply keptO_next
      | apply keptO_ite | exact keptO_fault | apply kept_ite
    | simp only [kept_mk_iff]

theorem execLlCacheRefresh_kept {s0 : State} {cache : Nat} {s : State} (hs : Kept s0 s) :
    KeptO s0 (execLlCacheRefresh cache s) := by
  unfold execLlCacheRefresh
  try dsimp only
  repeat' first
    | intro _
    | with_reducible first
      | assumption | apply onUnit_kept | apply putLl_kept | apply keptO_next | apply keptO_ite | exact keptO_fault
      | apply kept_foldl
    | simp only [kept_mk_iff]

theorem execLlSnap_kept {s0 : State} {p : Nat} {s : State} (hs : Kept s0 s) :
    KeptO s0 (execLlSnap p s) := by
  unfold execLlSnap
  try dsimp only
  repeat' first
    | with_reducible first
      | assumption | apply bumpWrap_kept | apply latchAll_kept | apply ifHas_kept | apply answerWord_kept
      | apply keptO_next | apply keptO_ite | exact keptO_fault

theorem execLlClr_kept {s0 : State} {p : Nat} {s : State} (hs : Kept s0 s) :
    KeptO s0 (execLlClr p s) := by
  unfold execLlClr
  try dsimp only
  repeat' first
    | with_reducible first
      | assumption | apply zeroLive_kept | apply ifHas_kept | apply keptO_next | apply keptO_ite
      | exact keptO_fault

theorem execCalSnap_kept {s0 : State} {cal : Nat} {s : State} (hs : Kept s0 s) :
    KeptO s0 (execCalSnap cal s) := by
  unfold execCalSnap
  try dsimp only
  repeat' first
    | with_reducible first
      | assumption | apply bumpWrap_kept | apply latchAll_kept | apply ifHas_kept | apply answerWord_kept
      | apply keptO_next | apply keptO_ite | exact keptO_fault

theorem execCalClr_kept {s0 : State} {cal : Nat} {s : State} (hs : Kept s0 s) :
    KeptO s0 (execCalClr cal s) := by
  unfold execCalClr
  try dsimp only
  repeat' first
    | with_reducible first
      | assumption | apply zeroLive_kept | apply ifHas_kept | apply keptO_next | apply keptO_ite
      | exact keptO_fault

theorem qstSelect_kept {s0 : State} {d : Nat} {q : Nat} {s : State} (hs : Kept s0 s) :
    Kept s0 (qstSelect d q s) := by
  unfold qstSelect
  try dsimp only
  repeat' first
    | with_reducible first
      | assumption | apply wr_kept | apply wrB_kept

theorem execQstSelWrite_kept {s0 : State} {die : Nat} {queue : Nat} {s : State} (hs : Kept s0 s) :
    KeptO s0 (execQstSelWrite die queue s) := by
  unfold execQstSelWrite
  try dsimp only
  repeat' first
    | with_reducible first
      | assumption | apply ifHas_kept | apply qstSelect_kept | apply keptO_next | apply keptO_ite
      | exact keptO_fault

end Sys2Proof.Machine
end

