-- ==== Sys2Proof/Laws/KeptClocking.lean ====
section
/-! SUPPORT. What the operations of Machine/Clocking.lean keep (`Kept`). -/

namespace Sys2Proof.Machine

theorem execClockDutyInvert_kept {s0 : State} {c : Nat} {d : Dir} {s : State} (hs : Kept s0 s) :
    KeptO s0 (execClockDutyInvert c d s) := by
  unfold execClockDutyInvert
  try dsimp only
  repeat' first
    | with_reducible first
      | assumption | apply onUnit_kept | apply wr_kept | apply wired_kept | apply keptO_next | apply keptO_ite
      | exact keptO_fault | apply kept_ite

theorem switchStart_kept {s0 : State} {c : Nat} {d : Dir} {s : State} (hs : Kept s0 s) :
    Kept s0 (switchStart c d s) := by
  unfold switchStart
  try dsimp only
  repeat' first
    | intro _
    | with_reducible first
      | assumption | apply switchOne_kept | apply kept_foldl

theorem clockLost_kept {s0 : State} {c : Nat} {d : Dir} {s : State} (hs : Kept s0 s) :
    Kept s0 (clockLost c d s) := by
  unfold clockLost
  try dsimp only
  repeat' first
    | with_reducible first
      | assumption | apply wr_kept | apply raise_kept | apply putCk_kept | apply putCkEntry_kept
      | apply borrowStart_kept | apply switchStart_kept | apply kept_ite
    | simp only [kept_mk_iff]

theorem execClockLaneQualified_kept {s0 : State} {e : ClockEnd} {x : ClockSensed} {s : State} (hs : Kept s0 s) :
    KeptO s0 (execClockLaneQualified e x s) := by
  unfold execClockLaneQualified
  try dsimp only
  repeat' first
    | with_reducible first
      | assumption | apply onUnit_kept | apply wr_kept | apply putCkEntry_kept | apply detectAll_kept
      | apply keptO_next | apply keptO_ite | exact keptO_fault | apply kept_ite
    | simp only [kept_mk_iff]

theorem execClockLaneLoss_kept {s0 : State} {e : ClockEnd} {x : ClockSensed} {s : State} (hs : Kept s0 s) :
    KeptO s0 (execClockLaneLoss e x s) := by
  unfold execClockLaneLoss
  try dsimp only
  repeat' first
    | with_reducible first
      | assumption | apply onUnit_kept | apply putCkEntry_kept | apply clockLost_kept | apply keptO_next
      | apply keptO_ite | exact keptO_fault | apply kept_ite
    | simp only [kept_mk_iff]

theorem swapHeld_kept {s0 : State} {c : Nat} {since : Nat} {s : State} (hs : Kept s0 s) :
    Kept s0 (swapHeld c since s) := by
  unfold swapHeld
  try dsimp only
  repeat' first
    | with_reducible first
      | assumption | apply putBob_kept | apply kept_ite
    | simp only [kept_mk_iff]

theorem slicesPass_kept {s0 : State} {c : Nat} {s : State} (hs : Kept s0 s) :
    Kept s0 (slicesPass c s) := by
  unfold slicesPass
  try dsimp only
  repeat' first
    | with_reducible first
      | assumption | apply syncCluster_kept | apply swapResume_kept

theorem switchDone_kept {s0 : State} {c : Nat} {d : Dir} {s : State} (hs : Kept s0 s) :
    Kept s0 (switchDone c d s) := by
  unfold switchDone
  try dsimp only
  repeat' first
    | with_reducible first
      | assumption | apply wr_kept | apply putCk_kept | apply lendSync_kept | apply steerOrHold_kept
      | apply swapHeld_kept | apply slicesPass_kept | apply kept_ite
    | simp only [kept_mk_iff]

theorem execSwitchoverComplete_kept {s0 : State} {c : Nat} {d : Dir} {s : State} (hs : Kept s0 s) :
    KeptO s0 (execSwitchoverComplete c d s) := by
  unfold execSwitchoverComplete
  try dsimp only
  repeat' first
    | intro _
    | with_reducible first
      | assumption | apply onUnit_kept | apply switchDone_kept | apply keptO_next | apply keptO_ite
      | exact keptO_fault | apply kept_ite | apply kept_foldl

theorem execSwitchoverLockExpiry_kept {s0 : State} {c : Nat} {d : Dir} {s : State} (hs : Kept s0 s) :
    KeptO s0 (execSwitchoverLockExpiry c d s) := by
  unfold execSwitchoverLockExpiry
  try dsimp only
  repeat' first
    | with_reducible first
      | assumption | apply onUnit_kept | apply putCk_kept | apply borrowStart_kept | apply clockDemand_kept
      | apply swapHeld_kept | apply slicesPass_kept | apply keptO_next | apply keptO_ite | exact keptO_fault
      | apply kept_ite
    | simp only [kept_mk_iff]

theorem lentLost_kept {s0 : State} {c : Nat} {d : Dir} {s : State} (hs : Kept s0 s) :
    Kept s0 (lentLost c d s) := by
  unfold lentLost
  try dsimp only
  repeat' first
    | with_reducible first
      | assumption | apply wr_kept | apply raise_kept | apply borrowEnd_kept | apply clockDemand_kept

theorem lentLostQuietly_kept {s0 : State} {c : Nat} {d : Dir} {s : State} (hs : Kept s0 s) :
    Kept s0 (lentLostQuietly c d s) := by
  unfold lentLostQuietly
  try dsimp only
  repeat' first
    | with_reducible first
      | assumption | apply wr_kept | apply raise_kept | apply borrowEnd_kept | apply clockDemand_kept

theorem pllUnlock_kept {s0 : State} {c : Nat} {d : Dir} {s : State} (hs : Kept s0 s) :
    Kept s0 (pllUnlock c d s) := by
  unfold pllUnlock
  try dsimp only
  repeat' first
    | with_reducible first
      | assumption | apply wr_kept | apply raise_kept | apply putCk_kept | apply borrowStart_kept
      | apply clockDemand_kept | apply lentLost_kept | apply lentLostQuietly_kept | apply kept_ite
    | simp only [kept_mk_iff]

theorem execPllUnlock_kept {s0 : State} {c : Nat} {d : Dir} {s : State} (hs : Kept s0 s) :
    KeptO s0 (execPllUnlock c d s) := by
  unfold execPllUnlock
  try dsimp only
  repeat' first
    | with_reducible first
      | assumption | apply onUnit_kept | apply pllUnlock_kept | apply keptO_next | apply keptO_ite
      | exact keptO_fault | apply kept_ite

theorem execPllRelock_kept {s0 : State} {c : Nat} {d : Dir} {s : State} (hs : Kept s0 s) :
    KeptO s0 (execPllRelock c d s) := by
  unfold execPllRelock
  try dsimp only
  repeat' first
    | with_reducible first
      | assumption | apply onUnit_kept | apply wr_kept | apply putCk_kept | apply standbySync_kept
      | apply keptO_next | apply keptO_ite | exact keptO_fault | apply kept_ite
    | simp only [kept_mk_iff]

theorem execBorrowComplete_kept {s0 : State} {c : Nat} {d : Dir} {s : State} (hs : Kept s0 s) :
    KeptO s0 (execBorrowComplete c d s) := by
  unfold execBorrowComplete
  try dsimp only
  repeat' first
    | with_reducible first
      | assumption | apply onUnit_kept | apply putCk_kept | apply swapHeld_kept | apply slicesPass_kept
      | apply keptO_next | apply keptO_ite | exact keptO_fault | apply kept_ite | exact keptOpt_none
      | apply keptOpt_ite
    | simp only [kept_mk_iff]
    | split
    | with_reducible first
      | (apply kept_pair; assumption) | (apply kept_opt; assumption) | (apply kept_triple; assumption)

theorem execHoldoverExpiry_kept {s0 : State} {c : Nat} {d : Dir} {s : State} (hs : Kept s0 s) :
    KeptO s0 (execHoldoverExpiry c d s) := by
  unfold execHoldoverExpiry
  try dsimp only
  repeat' first
    | intro _
    | with_reducible first
      | assumption | apply onUnit_kept | apply retrain_kept | apply keptO_next | apply keptO_ite
      | exact keptO_fault | apply kept_ite | apply kept_foldl

theorem execDenseReqResend_kept {s0 : State} {c : Nat} {d : Dir} {s : State} (hs : Kept s0 s) :
    KeptO s0 (execDenseReqResend c d s) := by
  unfold execDenseReqResend
  try dsimp only
  repeat' first
    | with_reducible first
      | assumption | apply onUnit_kept | apply putCk_kept | apply densePost_kept | apply keptO_next
      | apply keptO_ite | exact keptO_fault | apply kept_ite
    | simp only [kept_mk_iff]

theorem ckCmd_kept {s0 : State} {c : Nat} {op : Nat} {d : Dir} {refused : Bool} {start : State → State} {s : State} (hstart : ∀ y0, Kept s0 y0 → Kept s0 (start y0)) (hs : Kept s0 s) :
    Kept s0 (ckCmd c op d refused start s) := by
  unfold ckCmd
  try dsimp only
  repeat' first
    | intro _
    | with_reducible first
      | assumption | apply wr_kept | apply putCk_kept | apply hstart | apply kept_ite
    | simp only [kept_mk_iff]

theorem execCkToForwarded_kept {s0 : State} {c : Nat} {d : Dir} {s : State} (hs : Kept s0 s) :
    KeptO s0 (execCkToForwarded c d s) := by
  unfold execCkToForwarded
  try dsimp only
  repeat' first
    | intro _
    | with_reducible first
      | assumption | apply ifHas_kept | apply denseAsk_kept | apply ckCmd_kept | apply keptO_next
      | apply keptO_ite | exact keptO_fault

theorem execCkToFallback_kept {s0 : State} {c : Nat} {d : Dir} {s : State} (hs : Kept s0 s) :
    KeptO s0 (execCkToFallback c d s) := by
  unfold execCkToFallback
  try dsimp only
  repeat' first
    | with_reducible first
      | assumption | apply ifHas_kept | apply denseAsk_kept | apply ckCmd_kept | apply keptO_next
      | apply keptO_ite | exact keptO_fault

theorem execCkReturnOwn_kept {s0 : State} {c : Nat} {d : Dir} {s : State} (hs : Kept s0 s) :
    KeptO s0 (execCkReturnOwn c d s) := by
  unfold execCkReturnOwn
  try dsimp only
  repeat' first
    | intro _
    | with_reducible first
      | assumption | apply ifHas_kept | apply ckCmd_kept | apply keptO_next | apply keptO_ite | exact keptO_fault
    | simp only [id_eq]

theorem ckMoveOne_kept {s0 : State} {op : Nat} {d : Dir} {c : Nat} {s : State} (hs : Kept s0 s) :
    Kept s0 (ckMoveOne op d c s) := by
  unfold ckMoveOne
  try dsimp only
  repeat' first
    | intro _
    | with_reducible first
      | assumption | apply wr_kept | apply putRx_kept | apply putCk_kept | apply lendSync_kept | apply kept_ite
      | apply kept_foldl
    | simp only [kept_mk_iff]

theorem ckMove_kept {s0 : State} {c : Nat} {op : Nat} {d : Dir} {s : State} (hs : Kept s0 s) :
    Kept s0 (ckMove c op d s) := by
  unfold ckMove
  try dsimp only
  repeat' first
    | intro _
    | with_reducible first
      | assumption | apply wr_kept | apply putCk_kept | apply borrowEnd_kept | apply ckMoveOne_kept
      | apply kept_ite | apply kept_foldl | exact keptOpt_none | apply keptOpt_ite
    | simp only [kept_mk_iff]
    | split
    | with_reducible first
      | (apply kept_pair; assumption) | (apply kept_opt; assumption) | (apply kept_triple; assumption)

theorem execFallbackWaitExpiry_kept {s0 : State} {c : Nat} {d : Dir} {s : State} (hs : Kept s0 s) :
    KeptO s0 (execFallbackWaitExpiry c d s) := by
  unfold execFallbackWaitExpiry
  try dsimp only
  repeat' first
    | with_reducible first
      | assumption | apply onUnit_kept | apply ckMove_kept | apply keptO_next | apply keptO_ite
      | exact keptO_fault | apply kept_ite

theorem execCkOpComplete_kept {s0 : State} {c : Nat} {s : State} (hs : Kept s0 s) :
    KeptO s0 (execCkOpComplete c s) := by
  unfold execCkOpComplete
  try dsimp only
  repeat' first
    | with_reducible first
      | assumption | apply onUnit_kept | apply wr_kept | apply slicesPass_kept | apply ckMove_kept
      | apply keptO_next | apply keptO_ite | exact keptO_fault | apply kept_ite | exact keptOpt_none
      | apply keptOpt_ite
    | simp only [kept_mk_iff]
    | split
    | with_reducible first
      | (apply kept_pair; assumption) | (apply kept_opt; assumption) | (apply kept_triple; assumption)

end Sys2Proof.Machine
end

