-- ==== Sys2Proof/Laws/KeptTraining.lean ====
section
/-! SUPPORT. What the operations of Machine/Training.lean keep (`Kept`). -/

namespace Sys2Proof.Machine

theorem trnEnd_kept {s0 : State} {n : Nat} {sd : Side} {t : TrnSet} {s : State} (hs : Kept s0 s) :
    Kept s0 (trnEnd n sd t s) := by
  unfold trnEnd
  try dsimp only
  repeat' first
    | with_reducible first
      | assumption | apply wr_kept | apply putRx_kept | apply kept_ite
    | simp only [kept_mk_iff]

theorem trnFields_kept {s0 : State} {k : Nat} {sd : Side} {t : TrnSet} {s : State} (hs : Kept s0 s) :
    Kept s0 (trnFields k sd t s) := by
  unfold trnFields
  try dsimp only
  repeat' first
    | intro _
    | with_reducible first
      | assumption | apply wr_kept | apply wrB_kept | apply modSpan_kept
    | simp only [kept_mk_iff]

theorem trnAfter_kept {s0 : State} {k : Nat} {sd : Side} {s : State} (hs : Kept s0 s) :
    Kept s0 (trnAfter k sd s) := by
  unfold trnAfter
  try dsimp only
  repeat' first
    | with_reducible first
      | assumption | apply linkDown_kept | apply groupStep_kept | apply qualifyCheck_kept | apply armCheck_kept
      | apply kept_ite

theorem trnEnds_kept {s0 : State} {k : Nat} {sd : Side} {heard : List Heard} {s : State} (hs : Kept s0 s) :
    Kept s0 (trnEnds k sd heard s) := by
  unfold trnEnds
  try dsimp only
  repeat' first
    | intro _
    | with_reducible first
      | assumption | apply trnEnd_kept | apply kept_foldl
    | simp only [kept_mk_iff]
    | split
    | with_reducible first
      | (apply kept_pair; assumption) | (apply kept_opt; assumption) | (apply kept_triple; assumption)

theorem spareHears_kept {s0 : State} {c : Nat} {k : Nat} {sd : Side} {h : Heard} {s : State} (hs : Kept s0 s) :
    Kept s0 (spareHears c k sd h s) := by
  unfold spareHears
  try dsimp only
  repeat' first
    | with_reducible first
      | assumption | apply spareCap_kept | apply laneHears_kept | apply lossCheck_kept | apply copyArrives_kept
      | apply trnEnd_kept | apply kept_ite
    | simp only [kept_mk_iff]
    | split
    | with_reducible first
      | (apply kept_pair; assumption) | (apply kept_opt; assumption) | (apply kept_triple; assumption)

theorem spareCopies_kept {s0 : State} {k : Nat} {sd : Side} {spare : List Heard} {s : State} (hs : Kept s0 s) :
    Kept s0 (spareCopies k sd spare s) := by
  unfold spareCopies
  try dsimp only
  repeat' first
    | intro _
    | with_reducible first
      | assumption | apply spareHears_kept | apply kept_foldl

theorem trnReceive_kept {s0 : State} {k : Nat} {sd : Side} {heard : List Heard} {kind : Nat} {act : TrnSet → State → State} {s : State} (hact : ∀ y0 y1, Kept s0 y1 → Kept s0 (act y0 y1)) (hs : Kept s0 s) :
    Kept s0 (trnReceive k sd heard kind act s) := by
  unfold trnReceive
  try dsimp only
  repeat' first
    | intro _
    | with_reducible first
      | assumption | apply bump_kept | apply setArrives_kept | apply trnFields_kept | apply trnAfter_kept
      | apply trnEnds_kept | apply spareCopies_kept | apply hact | apply kept_ite | exact keptOpt_none
      | apply keptOpt_ite
    | simp only [kept_mk_iff]
    | split
    | with_reducible first
      | (apply kept_pair; assumption) | (apply kept_opt; assumption) | (apply kept_triple; assumption)

theorem capAct_kept {s0 : State} {k : Nat} {sd : Side} {t : TrnSet} {s : State} (hs : Kept s0 s) :
    Kept s0 (capAct k sd t s) := by
  unfold capAct
  try dsimp only
  repeat' first
    | intro _
    | with_reducible first
      | assumption | apply wr_kept | apply electSync_kept | apply modSpan_kept | apply linkDown_kept
      | apply trunkFails_kept | apply kept_ite
    | simp only [kept_mk_iff]

theorem execCapReceive_kept {s0 : State} {k : Nat} {sd : Side} {heard : List Heard} {spare : List Heard} {s : State} (hs : Kept s0 s) :
    KeptO s0 (execCapReceive k sd heard spare s) := by
  unfold execCapReceive
  try dsimp only
  repeat' first
    | with_reducible first
      | assumption | apply onUnit_kept | apply spareCopies_kept | apply trnReceive_kept | apply capAct_kept
      | apply keptO_next | apply keptO_ite | exact keptO_fault | apply kept_ite

theorem refuseUp_kept {s0 : State} {k : Nat} {sd : Side} {target : Nat} {s : State} (hs : Kept s0 s) :
    Kept s0 (refuseUp k sd target s) := by
  unfold refuseUp
  try dsimp only
  repeat' first
    | intro _
    | with_reducible first
      | assumption | apply putSide_kept | apply kept_ite
    | simp only [kept_mk_iff]

theorem rateFollow_kept {s0 : State} {k : Nat} {sd : Side} {t : TrnSet} {s : State} (hs : Kept s0 s) :
    Kept s0 (rateFollow k sd t s) := by
  unfold rateFollow
  try dsimp only
  repeat' first
    | intro _
    | with_reducible first
      | assumption | apply postTrn_kept | apply modSpan_kept | apply setSpan_kept | apply sendRate_kept
      | apply blindOver_kept | apply refuseUp_kept | apply kept_ite | apply kept_foldl
    | simp only [kept_mk_iff]

theorem rateAct_kept {s0 : State} {k : Nat} {sd : Side} {t : TrnSet} {s : State} (hs : Kept s0 s) :
    Kept s0 (rateAct k sd t s) := by
  unfold rateAct
  try dsimp only
  repeat' first
    | with_reducible first
      | assumption | apply bump_kept | apply rateFollow_kept | apply kept_ite

theorem execRateReceive_kept {s0 : State} {k : Nat} {sd : Side} {heard : List Heard} {s : State} (hs : Kept s0 s) :
    KeptO s0 (execRateReceive k sd heard s) := by
  unfold execRateReceive
  try dsimp only
  repeat' first
    | with_reducible first
      | assumption | apply onUnit_kept | apply trnReceive_kept | apply rateAct_kept | apply keptO_next
      | apply keptO_ite | exact keptO_fault

theorem dropRates_kept {s0 : State} {k : Nat} {sd : Side} {s : State} (hs : Kept s0 s) :
    Kept s0 (dropRates k sd s) := by
  unfold dropRates
  try dsimp only
  repeat' first
    | intro _
    | with_reducible first
      | assumption | apply putSide_kept
    | simp only [kept_mk_iff]

theorem rateAckAct_kept {s0 : State} {k : Nat} {sd : Side} {t : TrnSet} {s : State} (hs : Kept s0 s) :
    Kept s0 (rateAckAct k sd t s) := by
  unfold rateAckAct
  try dsimp only
  repeat' first
    | intro _
    | with_reducible first
      | assumption | apply modSpan_kept | apply setSpan_kept | apply sideEie_kept | apply switchTo_kept
      | apply dropRates_kept | apply kept_ite | exact keptOpt_none | apply keptOpt_ite
    | simp only [kept_mk_iff]
    | split
    | with_reducible first
      | (apply kept_pair; assumption) | (apply kept_opt; assumption) | (apply kept_triple; assumption)

theorem execRateAckReceive_kept {s0 : State} {k : Nat} {sd : Side} {heard : List Heard} {s : State} (hs : Kept s0 s) :
    KeptO s0 (execRateAckReceive k sd heard s) := by
  unfold execRateAckReceive
  try dsimp only
  repeat' first
    | with_reducible first
      | assumption | apply onUnit_kept | apply trnReceive_kept | apply rateAckAct_kept | apply keptO_next
      | apply keptO_ite | exact keptO_fault

theorem readyAct_kept {s0 : State} {k : Nat} {sd : Side} {t : TrnSet} {s : State} (hs : Kept s0 s) :
    Kept s0 (readyAct k sd t s) := by
  unfold readyAct
  try dsimp only
  repeat' first
    | intro _
    | with_reducible first
      | assumption | apply modSpan_kept | apply linkDown_kept | apply leaveBlind_kept | apply kept_ite
    | simp only [kept_mk_iff]

theorem execReadyReceive_kept {s0 : State} {k : Nat} {sd : Side} {heard : List Heard} {s : State} (hs : Kept s0 s) :
    KeptO s0 (execReadyReceive k sd heard s) := by
  unfold execReadyReceive
  try dsimp only
  repeat' first
    | with_reducible first
      | assumption | apply onUnit_kept | apply trnReceive_kept | apply readyAct_kept | apply keptO_next
      | apply keptO_ite | exact keptO_fault

theorem echoReqAct_kept {s0 : State} {k : Nat} {sd : Side} {turn : Nat} {t : TrnSet} {s : State} (hs : Kept s0 s) :
    Kept s0 (echoReqAct k sd turn t s) := by
  unfold echoReqAct
  try dsimp only
  repeat' first
    | with_reducible first
      | assumption | apply postTrn_kept | apply kept_ite
    | simp only [kept_mk_iff]

theorem execEchoReqReceive_kept {s0 : State} {k : Nat} {sd : Side} {heard : List Heard} {turn : Nat} {s : State} (hs : Kept s0 s) :
    KeptO s0 (execEchoReqReceive k sd heard turn s) := by
  unfold execEchoReqReceive
  try dsimp only
  repeat' first
    | with_reducible first
      | assumption | apply onUnit_kept | apply trnReceive_kept | apply echoReqAct_kept | apply keptO_next
      | apply keptO_ite | exact keptO_fault

theorem echoNext_kept {s0 : State} {k : Nat} {sd : Side} {s : State} (hs : Kept s0 s) :
    Kept s0 (echoNext k sd s) := by
  unfold echoNext
  try dsimp only
  repeat' first
    | with_reducible first
      | assumption | apply putSpan_kept | apply postTrn_kept | apply linkDown_kept | apply kept_ite
    | simp only [kept_mk_iff]

theorem rttDone_kept {s0 : State} {k : Nat} {sd : Side} {s : State} (hs : Kept s0 s) :
    Kept s0 (rttDone k sd s) := by
  unfold rttDone
  try dsimp only
  repeat' first
    | intro _
    | with_reducible first
      | assumption | apply wr_kept | apply startRecheck_kept | apply prkNotice_kept | apply modSpan_kept
      | apply setSpan_kept | apply armCheck_kept | apply kept_ite | apply kept_foldl
    | simp only [kept_mk_iff]

theorem echoRspAct_kept {s0 : State} {k : Nat} {sd : Side} {sample : Nat} {t : TrnSet} {s : State} (hs : Kept s0 s) :
    Kept s0 (echoRspAct k sd sample t s) := by
  unfold echoRspAct
  try dsimp only
  repeat' first
    | with_reducible first
      | assumption | apply putSpan_kept | apply echoNext_kept | apply rttDone_kept | apply kept_ite
    | simp only [kept_mk_iff]

theorem execEchoRspReceive_kept {s0 : State} {k : Nat} {sd : Side} {heard : List Heard} {sample : Nat} {s : State} (hs : Kept s0 s) :
    KeptO s0 (execEchoRspReceive k sd heard sample s) := by
  unfold execEchoRspReceive
  try dsimp only
  repeat' first
    | with_reducible first
      | assumption | apply onUnit_kept | apply trnReceive_kept | apply echoRspAct_kept | apply keptO_next
      | apply keptO_ite | exact keptO_fault

theorem execEchoWaitExpiry_kept {s0 : State} {k : Nat} {sd : Side} {s : State} (hs : Kept s0 s) :
    KeptO s0 (execEchoWaitExpiry k sd s) := by
  unfold execEchoWaitExpiry
  try dsimp only
  repeat' first
    | with_reducible first
      | assumption | apply onUnit_kept | apply echoNext_kept | apply keptO_next | apply keptO_ite
      | exact keptO_fault | apply kept_ite

theorem execRetrainReceive_kept {s0 : State} {k : Nat} {sd : Side} {heard : List Heard} {s : State} (hs : Kept s0 s) :
    KeptO s0 (execRetrainReceive k sd heard s) := by
  unfold execRetrainReceive
  try dsimp only
  repeat' first
    | intro _
    | with_reducible first
      | assumption | apply onUnit_kept | apply retrain_kept | apply trnReceive_kept | apply keptO_next
      | apply keptO_ite | exact keptO_fault

theorem execDenseReqReceive_kept {s0 : State} {k : Nat} {sd : Side} {heard : List Heard} {s : State} (hs : Kept s0 s) :
    KeptO s0 (execDenseReqReceive k sd heard s) := by
  unfold execDenseReqReceive
  try dsimp only
  repeat' first
    | intro _
    | with_reducible first
      | assumption | apply onUnit_kept | apply setDense_kept | apply trnReceive_kept | apply keptO_next
      | apply keptO_ite | exact keptO_fault | apply kept_ite

theorem execDenseRelReceive_kept {s0 : State} {k : Nat} {sd : Side} {heard : List Heard} {s : State} (hs : Kept s0 s) :
    KeptO s0 (execDenseRelReceive k sd heard s) := by
  unfold execDenseRelReceive
  try dsimp only
  repeat' first
    | intro _
    | with_reducible first
      | assumption | apply onUnit_kept | apply setDense_kept | apply trnReceive_kept | apply keptO_next
      | apply keptO_ite | exact keptO_fault | apply kept_ite

theorem capSettle_kept {s0 : State} {k : Nat} {sd : Side} {s : State} (hs : Kept s0 s) :
    Kept s0 (capSettle k sd s) := by
  unfold capSettle
  try dsimp only
  repeat' first
    | intro _
    | with_reducible first
      | assumption | apply bump_kept | apply electDraw_kept | apply modSpan_kept | apply linkDown_kept
      | apply kept_ite | apply kept_foldl
    | simp only [kept_mk_iff]

theorem execCapSettleExpiry_kept {s0 : State} {k : Nat} {sd : Side} {s : State} (hs : Kept s0 s) :
    KeptO s0 (execCapSettleExpiry k sd s) := by
  unfold execCapSettleExpiry
  try dsimp only
  repeat' first
    | with_reducible first
      | assumption | apply onUnit_kept | apply capSettle_kept | apply keptO_next | apply keptO_ite
      | exact keptO_fault | apply kept_ite

theorem execSwitchIdleEnd_kept {s0 : State} {k : Nat} {sd : Side} {s : State} (hs : Kept s0 s) :
    KeptO s0 (execSwitchIdleEnd k sd s) := by
  unfold execSwitchIdleEnd
  try dsimp only
  repeat' first
    | with_reducible first
      | assumption | apply onUnit_kept | apply trainAt_kept | apply keptO_next | apply keptO_ite
      | exact keptO_fault | apply kept_ite

theorem execDwellEnd_kept {s0 : State} {k : Nat} {sd : Side} {symbols : Nat} {s : State} (hs : Kept s0 s) :
    KeptO s0 (execDwellEnd k sd symbols s) := by
  unfold execDwellEnd
  try dsimp only
  repeat' first
    | with_reducible first
      | assumption | apply onUnit_kept | apply figureFails_kept | apply figurePasses_kept | apply keptO_next
      | apply keptO_ite | exact keptO_fault | apply kept_ite

theorem execRungMaxExpiry_kept {s0 : State} {k : Nat} {sd : Side} {s : State} (hs : Kept s0 s) :
    KeptO s0 (execRungMaxExpiry k sd s) := by
  unfold execRungMaxExpiry
  try dsimp only
  repeat' first
    | with_reducible first
      | assumption | apply onUnit_kept | apply figureFails_kept | apply keptO_next | apply keptO_ite
      | exact keptO_fault | apply kept_ite

theorem execTrainMaxExpiry_kept {s0 : State} {k : Nat} {sd : Side} {s : State} (hs : Kept s0 s) :
    KeptO s0 (execTrainMaxExpiry k sd s) := by
  unfold execTrainMaxExpiry
  try dsimp only
  repeat' first
    | with_reducible first
      | assumption | apply onUnit_kept | apply linkDown_kept | apply keptO_next | apply keptO_ite
      | exact keptO_fault | apply kept_ite

theorem execRetrainMaxExpiry_kept {s0 : State} {k : Nat} {sd : Side} {s : State} (hs : Kept s0 s) :
    KeptO s0 (execRetrainMaxExpiry k sd s) := by
  unfold execRetrainMaxExpiry
  try dsimp only
  repeat' first
    | with_reducible first
      | assumption | apply onUnit_kept | apply linkDown_kept | apply keptO_next | apply keptO_ite
      | exact keptO_fault | apply kept_ite

theorem rateAgain_kept {s0 : State} {k : Nat} {sd : Side} {s : State} (hs : Kept s0 s) :
    Kept s0 (rateAgain k sd s) := by
  unfold rateAgain
  try dsimp only
  repeat' first
    | with_reducible first
      | assumption | apply putSpan_kept | apply postTrn_kept | apply linkDown_kept | apply dropRates_kept
      | apply kept_ite | exact keptOpt_none | apply keptOpt_ite
    | simp only [kept_mk_iff]
    | split
    | with_reducible first
      | (apply kept_pair; assumption) | (apply kept_opt; assumption) | (apply kept_triple; assumption)

theorem execRateResend_kept {s0 : State} {k : Nat} {sd : Side} {s : State} (hs : Kept s0 s) :
    KeptO s0 (execRateResend k sd s) := by
  unfold execRateResend
  try dsimp only
  repeat' first
    | with_reducible first
      | assumption | apply onUnit_kept | apply rateAgain_kept | apply keptO_next | apply keptO_ite
      | exact keptO_fault

theorem execDownHoldEnd_kept {s0 : State} {k : Nat} {sd : Side} {s : State} (hs : Kept s0 s) :
    KeptO s0 (execDownHoldEnd k sd s) := by
  unfold execDownHoldEnd
  try dsimp only
  repeat' first
    | with_reducible first
      | assumption | apply onUnit_kept | apply downRestart_kept | apply keptO_next | apply keptO_ite
      | exact keptO_fault | apply kept_ite

theorem execGoTime_kept {s0 : State} {s : State} (hs : Kept s0 s) :
    KeptO s0 (execGoTime s) := by
  unfold execGoTime
  try dsimp only
  repeat' first
    | with_reducible first
      | assumption | apply detectAll_kept | apply keptO_next | apply keptO_ite | exact keptO_fault
      | apply kept_ite

theorem execTUpBegin_kept {s0 : State} {k : Nat} {s : State} (hs : Kept s0 s) :
    KeptO s0 (execTUpBegin k s) := by
  unfold execTUpBegin
  try dsimp only
  repeat' first
    | with_reducible first
      | assumption | apply onUnit_kept | apply linkUp_kept | apply keptO_next | apply keptO_ite
      | exact keptO_fault | apply kept_ite | exact keptOpt_none | apply keptOpt_ite
    | simp only [kept_mk_iff]
    | split
    | with_reducible first
      | (apply kept_pair; assumption) | (apply kept_opt; assumption) | (apply kept_triple; assumption)

theorem trnCmd_kept {s0 : State} {k : Nat} {op : Nat} {sd : Side} {rung : Nat} {refused : Bool} {act : State → State} {s : State} (hact : ∀ y0, Kept s0 y0 → Kept s0 (act y0)) (hs : Kept s0 s) :
    Kept s0 (trnCmd k op sd rung refused act s) := by
  unfold trnCmd
  try dsimp only
  repeat' first
    | intro _
    | with_reducible first
      | assumption | apply wr_kept | apply hact | apply kept_ite

theorem execTrnRetrain_kept {s0 : State} {k : Nat} {sd : Side} {s : State} (hs : Kept s0 s) :
    KeptO s0 (execTrnRetrain k sd s) := by
  unfold execTrnRetrain
  try dsimp only
  repeat' first
    | with_reducible first
      | assumption | apply ifHas_kept | apply retrain_kept | apply trnCmd_kept | apply keptO_next
      | apply keptO_ite | exact keptO_fault

theorem execTrnStep_kept {s0 : State} {k : Nat} {sd : Side} {rung : Nat} {s : State} (hs : Kept s0 s) :
    KeptO s0 (execTrnStep k sd rung s) := by
  unfold execTrnStep
  try dsimp only
  repeat' first
    | with_reducible first
      | assumption | apply ifHas_kept | apply retrain_kept | apply trnCmd_kept | apply keptO_next
      | apply keptO_ite | exact keptO_fault

theorem execTrnDown_kept {s0 : State} {k : Nat} {s : State} (hs : Kept s0 s) :
    KeptO s0 (execTrnDown k s) := by
  unfold execTrnDown
  try dsimp only
  repeat' first
    | with_reducible first
      | assumption | apply ifHas_kept | apply linkDown_kept | apply trnCmd_kept | apply keptO_next
      | apply keptO_ite | exact keptO_fault

theorem restartSpan_kept {s0 : State} {k : Nat} {sd : Side} {s : State} (hs : Kept s0 s) :
    Kept s0 (restartSpan k sd s) := by
  unfold restartSpan
  try dsimp only
  repeat' first
    | with_reducible first
      | assumption | apply detectEnter_kept | apply kept_ite

theorem execTrnRestart_kept {s0 : State} {k : Nat} {sd : Side} {s : State} (hs : Kept s0 s) :
    KeptO s0 (execTrnRestart k sd s) := by
  unfold execTrnRestart
  try dsimp only
  repeat' first
    | intro _
    | with_reducible first
      | assumption | apply ifHas_kept | apply trnCmd_kept | apply restartSpan_kept | apply keptO_next
      | apply keptO_ite | exact keptO_fault | apply kept_foldl

end Sys2Proof.Machine
end

