-- ==== Sys2Proof/Laws/KeptFlitPath.lean ====
section
/-! SUPPORT. What the operations of Machine/FlitPath.lean keep (`Kept`). -/

namespace Sys2Proof.Machine

theorem countClass_kept {s0 : State} {k : Nat} {d : Nat} {cls : Nat} {s : State} (hs : Kept s0 s) :
    Kept s0 (countClass k d cls s) := by
  unfold countClass
  try dsimp only
  repeat' first
    | with_reducible first
      | assumption | apply count_kept
    | simp only [kept_mk_iff]
    | split
    | with_reducible first
      | (apply kept_pair; assumption) | (apply kept_opt; assumption) | (apply kept_triple; assumption)

theorem cutChosen_kept {s0 : State} {k : Nat} {o : Side} {f : Nat} {r : Nat} {s : State} (hs : Kept s0 s) :
    KeptOpt s0 (cutChosen k o f r s) := by
  unfold cutChosen
  try dsimp only
  repeat' first
    | with_reducible first
      | assumption | apply calChoose_kept | exact keptOpt_none | apply keptOpt_some | apply keptOpt_ite
      | apply keptOpt_someP | apply kept_ite
    | simp only [kept_mk_iff]
    | split
    | with_reducible first
      | (apply kept_pair; assumption) | (apply kept_opt; assumption) | (apply kept_triple; assumption)

theorem cutTakes_kept {s0 : State} {f : Nat} {x : Slot} {s : State} (hs : Kept s0 s) :
    KeptOpt s0 (cutTakes f x s) := by
  unfold cutTakes
  try dsimp only
  repeat' first
    | intro _
    | with_reducible first
      | assumption | apply modFlow_kept | apply allocFlow_kept | apply itemDone_kept | apply cutChosen_kept
      | exact keptOpt_none | apply keptOpt_some | apply keptOpt_ite | apply keptOpt_someP | apply kept_ite
    | simp only [kept_mk_iff]
    | split
    | with_reducible first
      | (apply kept_pair; assumption) | (apply kept_opt; assumption) | (apply kept_triple; assumption)

theorem cutPoisoned_kept {s0 : State} {f : Nat} {out : Nat} {fl : Flit} {s : State} (hs : Kept s0 s) :
    Kept s0 (cutPoisoned f out fl s) := by
  unfold cutPoisoned
  try dsimp only
  repeat' first
    | with_reducible first
      | assumption | apply itemStart_kept | apply countForward_kept

theorem cutGood_kept {s0 : State} {f : Nat} {out : Nat} {r : Nat} {fl : Flit} {s : State} (hs : Kept s0 s) :
    Kept s0 (cutGood f out r fl s) := by
  unfold cutGood
  try dsimp only
  repeat' first
    | with_reducible first
      | assumption | apply refreshProxy_kept | apply number_kept | apply proxyCustody_kept | apply itemStart_kept
      | apply markSending_kept | apply countForward_kept | apply kept_ite

theorem trunkEnter_kept {s0 : State} {f : Nat} {out : Nat} {fl : Flit} {cut : Bool} {s : State} (hs : Kept s0 s) :
    Kept s0 (trunkEnter f out fl cut s) := by
  unfold trunkEnter
  try dsimp only
  repeat' first
    | with_reducible first
      | assumption | apply slotFree_kept | apply entryQueued_kept | apply cutTakes_kept | apply cutPoisoned_kept
      | apply cutGood_kept | apply kept_ite | exact keptOpt_none | apply keptOpt_ite
    | simp only [kept_mk_iff]
    | split
    | with_reducible first
      | (apply kept_pair; assumption) | (apply kept_opt; assumption) | (apply kept_triple; assumption)

theorem trunkEntry_kept {s0 : State} {k : Nat} {sd : Side} {fl : Flit} {cut : Bool} {s : State} (hs : Kept s0 s) :
    Kept s0 (trunkEntry k sd fl cut s) := by
  unfold trunkEntry
  try dsimp only
  repeat' first
    | with_reducible first
      | assumption | apply count_kept | apply trunkEnter_kept | apply kept_ite

theorem crossSeam_kept {s0 : State} {k : Nat} {sd : Side} {out : Nat} {fail1 : Bool} {fail2 : Bool} {fl : Flit} {s : State} (hs : Kept s0 s) :
    Kept s0 (crossSeam k sd out fail1 fail2 fl s).2 := by
  unfold crossSeam
  try dsimp only
  repeat' first
    | with_reducible first
      | assumption | apply seamFlit_kept | apply countClass_kept | apply kept_ite | apply kept_ite2

theorem bundleEntry_kept {s0 : State} {k : Nat} {sd : Side} {fl : Flit} {cut : Bool} {fail1 : Bool} {fail2 : Bool} {s : State} (hs : Kept s0 s) :
    Kept s0 (bundleEntry k sd fl cut fail1 fail2 s) := by
  unfold bundleEntry
  try dsimp only
  repeat' first
    | with_reducible first
      | assumption | apply bump_kept | apply tornDrop_kept | apply invalDrop_kept | apply countIn_kept
      | apply trunkEnter_kept | apply crossSeam_kept | apply kept_ite | exact keptOpt_none | apply keptOpt_ite
    | simp only [kept_mk_iff]
    | split
    | with_reducible first
      | (apply kept_pair; assumption) | (apply kept_opt; assumption) | (apply kept_triple; assumption)

theorem fifoEntry_kept {s0 : State} {k : Nat} {sd : Side} {fl : Flit} {fail1 : Bool} {fail2 : Bool} {s : State} (hs : Kept s0 s) :
    Kept s0 (fifoEntry k sd fl fail1 fail2 s) := by
  unfold fifoEntry
  try dsimp only
  repeat' first
    | with_reducible first
      | assumption | apply bump_kept | apply fifoArrive_kept | apply crossSeam_kept | apply kept_ite

theorem endpointArrive_kept {s0 : State} {k : Nat} {sd : Side} {fl : Flit} {cut : Bool} {fail1 : Bool} {fail2 : Bool} {s : State} (hs : Kept s0 s) :
    Kept s0 (endpointArrive k sd fl cut fail1 fail2 s) := by
  unfold endpointArrive
  try dsimp only
  repeat' first
    | with_reducible first
      | assumption | apply count_kept | apply trunkEntry_kept | apply crossSeam_kept | apply bundleEntry_kept
      | apply fifoEntry_kept | apply kept_ite

theorem acceptDone_kept {s0 : State} {t : Nat} {s : State} (hs : Kept s0 s) :
    Kept s0 (acceptDone t s) := by
  unfold acceptDone
  try dsimp only
  repeat' first
    | with_reducible first
      | assumption | apply trunkAccepted_kept | apply trunkExpect_kept

theorem trunkCross_kept {s0 : State} {t : Nat} {f : Nat} {out : Nat} {k : Nat} {sd : Side} {fl : Flit} {fail1 : Bool} {fail2 : Bool} {s : State} (hs : Kept s0 s) :
    Kept s0 (trunkCross t f out k sd fl fail1 fail2 s) := by
  unfold trunkCross
  try dsimp only
  repeat' first
    | with_reducible first
      | assumption | apply postNak_kept | apply arrivalCustody_kept | apply crossSeam_kept | apply kept_ite

theorem bundleArrive_kept {s0 : State} {t : Nat} {k : Nat} {sd : Side} {fl : Flit} {fail1 : Bool} {fail2 : Bool} {s : State} (hs : Kept s0 s) :
    Kept s0 (bundleArrive t k sd fl fail1 fail2 s) := by
  unfold bundleArrive
  try dsimp only
  repeat' first
    | with_reducible first
      | assumption | apply countCal_kept | apply tornDrop_kept | apply invalDrop_kept | apply countIn_kept
      | apply acceptDone_kept | apply trunkCross_kept | apply kept_ite | exact keptOpt_none | apply keptOpt_ite
    | simp only [kept_mk_iff]
    | split
    | with_reducible first
      | (apply kept_pair; assumption) | (apply kept_opt; assumption) | (apply kept_triple; assumption)

theorem inSequence_kept {s0 : State} {t : Nat} {k : Nat} {sd : Side} {fl : Flit} {fail1 : Bool} {fail2 : Bool} {s : State} (hs : Kept s0 s) :
    Kept s0 (inSequence t k sd fl fail1 fail2 s) := by
  unfold inSequence
  try dsimp only
  repeat' first
    | with_reducible first
      | assumption | apply count_kept | apply trunkExpect_kept | apply controlFlit_kept | apply acceptDone_kept
      | apply trunkCross_kept | apply bundleArrive_kept | apply kept_ite

theorem trunkArrive_kept {s0 : State} {k : Nat} {sd : Side} {fl : Flit} {fail1 : Bool} {fail2 : Bool} {s : State} (hs : Kept s0 s) :
    Kept s0 (trunkArrive k sd fl fail1 fail2 s) := by
  unfold trunkArrive
  try dsimp only
  repeat' first
    | with_reducible first
      | assumption | apply countTrunk_kept | apply postDrnAck_kept | apply postNak_kept | apply inSequence_kept
      | apply kept_ite

theorem flitArrive_kept {s0 : State} {k : Nat} {sd : Side} {sl : List Slice} {cut : Bool} {fail1 : Bool} {fail2 : Bool} {s : State} (hs : Kept s0 s) :
    Kept s0 (flitArrive k sd sl cut fail1 fail2 s) := by
  unfold flitArrive
  try dsimp only
  repeat' first
    | with_reducible first
      | assumption | apply countClass_kept | apply endpointArrive_kept | apply trunkArrive_kept | apply kept_ite

theorem flitHeard_kept {s0 : State} {k : Nat} {sd : Side} {slices : List (List Nat)} {act : List Slice → State → State} {s : State} (hact : ∀ y0 y1, Kept s0 y1 → Kept s0 (act y0 y1)) (hs : Kept s0 s) :
    Kept s0 (flitHeard k sd slices act s) := by
  unfold flitHeard
  try dsimp only
  repeat' first
    | intro _
    | with_reducible first
      | assumption | apply slicesHeard_kept | apply hact | apply kept_ite

theorem execFlitReceive_kept {s0 : State} {k : Nat} {sd : Side} {slices : List (List Nat)} {cut : Bool} {fail1 : Bool} {fail2 : Bool} {s : State} (hs : Kept s0 s) :
    KeptO s0 (execFlitReceive k sd slices cut fail1 fail2 s) := by
  unfold execFlitReceive
  try dsimp only
  repeat' first
    | intro _
    | with_reducible first
      | assumption | apply onUnit_kept | apply flitArrive_kept | apply flitHeard_kept | apply keptO_next
      | apply keptO_ite | exact keptO_fault | apply kept_ite

theorem execControlFlitReceive_kept {s0 : State} {k : Nat} {sd : Side} {slices : List (List Nat)} {s : State} (hs : Kept s0 s) :
    KeptO s0 (execControlFlitReceive k sd slices s) := by
  unfold execControlFlitReceive
  try dsimp only
  repeat' first
    | intro _
    | with_reducible first
      | assumption | apply onUnit_kept | apply flitArrive_kept | apply flitHeard_kept | apply keptO_next
      | apply keptO_ite | exact keptO_fault | apply kept_ite

theorem ackToFlow_kept {s0 : State} {f : Nat} {a : AckSet} {s : State} (hs : Kept s0 s) :
    Kept s0 (ackToFlow f a s) := by
  unfold ackToFlow
  try dsimp only
  repeat' first
    | intro _
    | with_reducible first
      | assumption | apply modFlow_kept | apply darnObserve_kept
    | simp only [kept_mk_iff]

theorem ackForward_kept {s0 : State} {k : Nat} {sd : Side} {a : AckSet} {fail1 : Bool} {fail2 : Bool} {s : State} (hs : Kept s0 s) :
    Kept s0 (ackForward k sd a fail1 fail2 s) := by
  unfold ackForward
  try dsimp only
  repeat' first
    | with_reducible first
      | assumption | apply seamSend_kept | apply postAck_kept | apply kept_ite
    | simp only [kept_mk_iff]
    | split
    | with_reducible first
      | (apply kept_pair; assumption) | (apply kept_opt; assumption) | (apply kept_triple; assumption)

theorem ackArrive_kept {s0 : State} {k : Nat} {sd : Side} {a : AckSet} {fail1 : Bool} {fail2 : Bool} {s : State} (hs : Kept s0 s) :
    Kept s0 (ackArrive k sd a fail1 fail2 s) := by
  unfold ackArrive
  try dsimp only
  repeat' first
    | intro _
    | with_reducible first
      | assumption | apply wr_kept | apply modFlow_kept | apply darnObserve_kept | apply countCal_kept
      | apply ackToFlow_kept | apply ackForward_kept | apply kept_ite | exact keptOpt_none | apply keptOpt_ite
    | simp only [kept_mk_iff]
    | split
    | with_reducible first
      | (apply kept_pair; assumption) | (apply kept_opt; assumption) | (apply kept_triple; assumption)

theorem execAckSetReceive_kept {s0 : State} {k : Nat} {sd : Side} {heard : List Heard} {fail1 : Bool} {fail2 : Bool} {s : State} (hs : Kept s0 s) :
    KeptO s0 (execAckSetReceive k sd heard fail1 fail2 s) := by
  unfold execAckSetReceive
  try dsimp only
  repeat' first
    | with_reducible first
      | assumption | apply onUnit_kept | apply setArrives_kept | apply ackArrive_kept | apply keptO_next
      | apply keptO_ite | exact keptO_fault | apply kept_ite | exact keptOpt_none | apply keptOpt_ite
    | simp only [kept_mk_iff]
    | split
    | with_reducible first
      | (apply kept_pair; assumption) | (apply kept_opt; assumption) | (apply kept_triple; assumption)

theorem execIdlReceive_kept {s0 : State} {k : Nat} {sd : Side} {heard : List Heard} {s : State} (hs : Kept s0 s) :
    KeptO s0 (execIdlReceive k sd heard s) := by
  unfold execIdlReceive
  try dsimp only
  repeat' first
    | with_reducible first
      | assumption | apply onUnit_kept | apply setArrives_kept | apply keptO_next | apply keptO_ite
      | exact keptO_fault | apply kept_ite

theorem execEieReceive_kept {s0 : State} {k : Nat} {sd : Side} {heard : List Heard} {s : State} (hs : Kept s0 s) :
    KeptO s0 (execEieReceive k sd heard s) := by
  unfold execEieReceive
  try dsimp only
  repeat' first
    | with_reducible first
      | assumption | apply onUnit_kept | apply putSide_kept | apply setArrives_kept | apply keptO_next
      | apply keptO_ite | exact keptO_fault | apply kept_ite | exact keptOpt_none | apply keptOpt_ite
    | simp only [kept_mk_iff]
    | split
    | with_reducible first
      | (apply kept_pair; assumption) | (apply kept_opt; assumption) | (apply kept_triple; assumption)

theorem ebTake_kept {s0 : State} {k : Nat} {sd : Side} {n : Nat} {fill : Nat} {s : State} (hs : Kept s0 s) :
    Kept s0 (ebTake k sd n fill s).2 := by
  unfold ebTake
  try dsimp only
  repeat' first
    | intro _
    | with_reducible first
      | assumption | apply wr_kept | apply countBy_kept | apply putRx_kept | apply kept_ite | apply kept_ite2
      | apply kept_foldl | exact keptOpt_none | apply keptOpt_ite
    | simp only [kept_mk_iff]
    | split
    | with_reducible first
      | (apply kept_pair; assumption) | (apply kept_opt; assumption) | (apply kept_triple; assumption)

theorem denseSeen_kept {s0 : State} {k : Nat} {sd : Side} {interval : Nat} {s : State} (hs : Kept s0 s) :
    Kept s0 (denseSeen k sd interval s) := by
  unfold denseSeen
  try dsimp only
  repeat' first
    | intro _
    | with_reducible first
      | assumption | apply wrB_kept | apply putSide_kept | apply putCk_kept | apply kept_ite | apply kept_foldl
    | simp only [kept_mk_iff]

theorem skpArrive_kept {s0 : State} {k : Nat} {sd : Side} {n : Nat} {fill : Nat} {interval : Nat} {s : State} (hs : Kept s0 s) :
    Kept s0 (skpArrive k sd n fill interval s) := by
  unfold skpArrive
  try dsimp only
  repeat' first
    | with_reducible first
      | assumption | apply putSide_kept | apply ebTake_kept | apply denseSeen_kept | apply kept_ite
    | simp only [kept_mk_iff]

theorem execSkpReceive_kept {s0 : State} {k : Nat} {sd : Side} {heard : List Heard} {fill : Nat} {interval : Nat} {s : State} (hs : Kept s0 s) :
    KeptO s0 (execSkpReceive k sd heard fill interval s) := by
  unfold execSkpReceive
  try dsimp only
  repeat' first
    | with_reducible first
      | assumption | apply onUnit_kept | apply setArrives_kept | apply skpArrive_kept | apply keptO_next
      | apply keptO_ite | exact keptO_fault | apply kept_ite | exact keptOpt_none | apply keptOpt_ite
    | simp only [kept_mk_iff]
    | split
    | with_reducible first
      | (apply kept_pair; assumption) | (apply kept_opt; assumption) | (apply kept_triple; assumption)

theorem execEbSlip_kept {s0 : State} {e : LaneEnd} {full : Bool} {pos : Nat} {s : State} (hs : Kept s0 s) :
    KeptO s0 (execEbSlip e full pos s) := by
  unfold execEbSlip
  try dsimp only
  repeat' first
    | intro _
    | with_reducible first
      | assumption | apply onUnit_kept | apply count_kept | apply putRx_kept | apply keptO_next | apply keptO_ite
      | exact keptO_fault | apply kept_ite | apply kept_foldl | exact keptOpt_none | apply keptOpt_ite
    | simp only [kept_mk_iff]
    | split
    | with_reducible first
      | (apply kept_pair; assumption) | (apply kept_opt; assumption) | (apply kept_triple; assumption)

theorem execSkpDue_kept {s0 : State} {k : Nat} {sd : Side} {s : State} (hs : Kept s0 s) :
    KeptO s0 (execSkpDue k sd s) := by
  unfold execSkpDue
  try dsimp only
  repeat' first
    | with_reducible first
      | assumption | apply onUnit_kept | apply putSide_kept | apply keptO_next | apply keptO_ite
      | exact keptO_fault | apply kept_ite
    | simp only [kept_mk_iff]

theorem deskew_kept {s0 : State} {n : Nat} {sd : Side} {skew : Nat} {s : State} (hs : Kept s0 s) :
    Kept s0 (deskew n sd skew s) := by
  unfold deskew
  try dsimp only
  repeat' first
    | with_reducible first
      | assumption | apply wr_kept | apply putRx_kept | apply linkDown_kept | apply qualifyCheck_kept
      | apply kept_ite | exact keptOpt_none | apply keptOpt_ite
    | simp only [kept_mk_iff]
    | split
    | with_reducible first
      | (apply kept_pair; assumption) | (apply kept_opt; assumption) | (apply kept_triple; assumption)

theorem execDeskewRemeasure_kept {s0 : State} {n : Nat} {sd : Side} {skew : Nat} {s : State} (hs : Kept s0 s) :
    KeptO s0 (execDeskewRemeasure n sd skew s) := by
  unfold execDeskewRemeasure
  try dsimp only
  repeat' first
    | with_reducible first
      | assumption | apply onUnit_kept | apply deskew_kept | apply keptO_next | apply keptO_ite
      | exact keptO_fault | apply kept_ite

theorem passSends_kept {s0 : State} {k : Nat} {sd : Side} {t : TrnSet} {s : State} (hs : Kept s0 s) :
    Kept s0 (passSends k sd t s) := by
  unfold passSends
  try dsimp only
  repeat' first
    | intro _
    | with_reducible first
      | assumption | apply modSpan_kept | apply groupStep_kept | apply armCheck_kept | apply kept_ite
    | simp only [kept_mk_iff]

theorem itemEnds_kept {s0 : State} {k : Nat} {sd : Side} {i : Item} {s : State} (hs : Kept s0 s) :
    Kept s0 (itemEnds k sd i s) := by
  unfold itemEnds
  try dsimp only
  repeat' first
    | intro _
    | with_reducible first
      | assumption | apply modSpan_kept | apply sideIdle_kept | apply sideEie_kept | apply linkClocks_kept
      | apply switchTo_kept | apply detectCheck_kept | apply passSends_kept | apply kept_ite
    | simp only [kept_mk_iff]
    | split
    | with_reducible first
      | (apply kept_pair; assumption) | (apply kept_opt; assumption) | (apply kept_triple; assumption)

theorem leaveSend_kept {s0 : State} {k : Nat} {sd : Side} {s : State} (hs : Kept s0 s) :
    Kept s0 (leaveSend k sd s) := by
  unfold leaveSend
  try dsimp only
  repeat' first
    | intro _
    | with_reducible first
      | assumption | apply putSide_kept | apply eieRest_kept | apply idleClocks_kept | apply detectCheck_kept
      | apply kept_ite | apply kept_foldl
    | simp only [kept_mk_iff]

theorem txResume_kept {s0 : State} {k : Nat} {sd : Side} {s : State} (hs : Kept s0 s) :
    Kept s0 (txResume k sd s) := by
  unfold txResume
  try dsimp only
  repeat' first
    | intro _
    | with_reducible first
      | assumption | apply putTx_kept | apply syncFreeze_kept | apply kept_foldl
    | simp only [kept_mk_iff]

theorem execSendNext_kept {s0 : State} {k : Nat} {sd : Side} {r1 : EccRead} {r2 : EccRead} {s : State} (hs : Kept s0 s) :
    KeptO s0 (execSendNext k sd r1 r2 s) := by
  unfold execSendNext
  try dsimp only
  repeat' first
    | with_reducible first
      | assumption | apply onUnit_kept | apply itemDone_kept | apply itemStart_kept | apply chooseItem_kept
      | apply itemEnds_kept | apply leaveSend_kept | apply txResume_kept | apply keptO_next | apply keptO_ite
      | exact keptO_fault | apply kept_ite

theorem execFltSnap_kept {s0 : State} {k : Nat} {s : State} (hs : Kept s0 s) :
    KeptO s0 (execFltSnap k s) := by
  unfold execFltSnap
  try dsimp only
  repeat' first
    | with_reducible first
      | assumption | apply bumpWrap_kept | apply latchAll_kept | apply latchAll64_kept | apply ifHas_kept
      | apply answerWord_kept | apply keptO_next | apply keptO_ite | exact keptO_fault

theorem execFltClr_kept {s0 : State} {k : Nat} {s : State} (hs : Kept s0 s) :
    KeptO s0 (execFltClr k s) := by
  unfold execFltClr
  try dsimp only
  repeat' first
    | with_reducible first
      | assumption | apply zeroLive_kept | apply ifHas_kept | apply keptO_next | apply keptO_ite
      | exact keptO_fault

end Sys2Proof.Machine
end

