-- ==== Sys2Proof/Laws/KeptIdentity.lean ====
section
/-! SUPPORT. What the operations of Machine/Identity.lean keep (`Kept`). -/

namespace Sys2Proof.Machine

theorem clearKeyData_kept {s0 : State} {s : State} (hs : Kept s0 s) :
    Kept s0 (clearKeyData s) := by
  unfold clearKeyData
  try dsimp only
  repeat' first
    | intro _
    | with_reducible first
      | assumption | apply wr_kept | apply kept_foldl

theorem setSession_kept {s0 : State} {slot : Nat} {key : Option (List Nat)} {s : State} (hs : Kept s0 s) :
    Kept s0 (setSession slot key s) := by
  unfold setSession
  try dsimp only
  repeat' first
    | intro _
    | with_reducible first
      | assumption | apply wr_kept | apply putLive_kept | apply kept_ite | exact keptOpt_none | apply keptOpt_ite
    | simp only [kept_mk_iff]
    | split
    | with_reducible first
      | (apply kept_pair; assumption) | (apply kept_opt; assumption) | (apply kept_triple; assumption)

theorem enroll_kept {s0 : State} {slot : Nat} {s : State} (hs : Kept s0 s) :
    Kept s0 (enroll slot s) := by
  unfold enroll
  dsimp only
  apply wr_kept
  refine Kept.trans hs ⟨fun h => h, ?_, rfl⟩
  exact ⟨rfl, rfl, rfl, rfl, fun i h => bit_or_left h, fun _ h => h, List.prefix_append _ _, List.prefix_refl _⟩

theorem revoke_kept {s0 : State} {slot : Nat} {s : State} (hs : Kept s0 s) :
    Kept s0 (revoke slot s) := by
  unfold revoke
  dsimp only
  apply wr_kept
  refine Kept.trans hs ⟨fun h => h, ?_, rfl⟩
  exact ⟨rfl, rfl, rfl, rfl, fun _ h => h, fun i h => bit_or_left h, List.prefix_refl _, List.prefix_refl _⟩

theorem keyGo_kept {s0 : State} {op : Nat} {slot : Nat} {s : State} (hs : Kept s0 s) :
    Kept s0 (keyGo op slot s) := by
  unfold keyGo
  try dsimp only
  repeat' first
    | with_reducible first
      | assumption | apply wr_kept | apply clearKeyData_kept | apply setSession_kept | apply enroll_kept
      | apply revoke_kept | apply kept_ite | exact keptOpt_none | apply keptOpt_ite
    | simp only [kept_mk_iff]
    | split
    | with_reducible first
      | (apply kept_pair; assumption) | (apply kept_opt; assumption) | (apply kept_triple; assumption)

theorem execKeyLoad_kept {s0 : State} {slot : Nat} {s : State} (hs : Kept s0 s) :
    KeptO s0 (execKeyLoad slot s) := by
  unfold execKeyLoad
  try dsimp only
  repeat' first
    | with_reducible first
      | assumption | apply ifOpen_kept | apply keyGo_kept | apply keptO_next | apply keptO_ite | exact keptO_fault

theorem execKeyClear_kept {s0 : State} {slot : Nat} {s : State} (hs : Kept s0 s) :
    KeptO s0 (execKeyClear slot s) := by
  unfold execKeyClear
  try dsimp only
  repeat' first
    | with_reducible first
      | assumption | apply ifOpen_kept | apply keyGo_kept | apply keptO_next | apply keptO_ite | exact keptO_fault

theorem execKeyEnroll_kept {s0 : State} {slot : Nat} {s : State} (hs : Kept s0 s) :
    KeptO s0 (execKeyEnroll slot s) := by
  unfold execKeyEnroll
  try dsimp only
  repeat' first
    | with_reducible first
      | assumption | apply ifOpen_kept | apply keyGo_kept | apply keptO_next | apply keptO_ite | exact keptO_fault

theorem execKeyRevoke_kept {s0 : State} {slot : Nat} {s : State} (hs : Kept s0 s) :
    KeptO s0 (execKeyRevoke slot s) := by
  unfold execKeyRevoke
  try dsimp only
  repeat' first
    | with_reducible first
      | assumption | apply ifOpen_kept | apply keyGo_kept | apply keptO_next | apply keptO_ite | exact keptO_fault

theorem makeReport_kept {s0 : State} {s : State} (hs : Kept s0 s) :
    Kept s0 (makeReport s) := by
  unfold makeReport
  try dsimp only
  repeat' first
    | intro _
    | with_reducible first
      | assumption | apply wr_kept | apply kept_foldl
    | simp only [kept_mk_iff]

theorem startReport_kept {s0 : State} {nonce : List Nat} {s : State} (hs : Kept s0 s) :
    Kept s0 (startReport nonce s) := by
  unfold startReport
  try dsimp only
  repeat' first
    | with_reducible first
      | assumption | apply wr_kept
    | simp only [kept_mk_iff]

theorem attGo_kept {s0 : State} {s : State} (hs : Kept s0 s) :
    Kept s0 (attGo s) := by
  unfold attGo
  try dsimp only
  repeat' first
    | intro _
    | with_reducible first
      | assumption | apply wr_kept | apply startReport_kept | apply kept_ite

theorem execAttGenerate_kept {s0 : State} {s : State} (hs : Kept s0 s) :
    KeptO s0 (execAttGenerate s) := by
  unfold execAttGenerate
  try dsimp only
  repeat' first
    | with_reducible first
      | assumption | apply ifOpen_kept | apply attGo_kept | apply keptO_next | apply keptO_ite | exact keptO_fault

theorem execAttGenerateDone_kept {s0 : State} {s : State} (hs : Kept s0 s) :
    KeptO s0 (execAttGenerateDone s) := by
  unfold execAttGenerateDone
  try dsimp only
  repeat' first
    | with_reducible first
      | assumption | apply wr_kept | apply makeReport_kept | apply keptO_next | apply keptO_ite
      | exact keptO_fault | apply kept_ite

theorem execPrickingDigestDone_kept {s0 : State} {s : State} (hs : Kept s0 s) :
    KeptO s0 (execPrickingDigestDone s) := by
  unfold execPrickingDigestDone
  try dsimp only
  repeat' first
    | with_reducible first
      | assumption | apply putDigest_kept | apply keptO_next | apply keptO_ite | exact keptO_fault
      | apply kept_ite
    | simp only [kept_mk_iff]

end Sys2Proof.Machine
end

