-- ==== Sys2Proof/Laws/KeptPricking.lean ====
section
/-! SUPPORT. What the operations of Machine/Pricking.lean keep (`Kept`). -/

namespace Sys2Proof.Machine

theorem goLive_kept {s0 : State} {ps : List (Fld × Fld)} {s : State} (hs : Kept s0 s) :
    Kept s0 (goLive ps s) := by
  unfold goLive
  try dsimp only
  repeat' first
    | intro _
    | with_reducible first
      | assumption | apply wr_kept | apply kept_foldl

theorem goStaged_kept {s0 : State} {ps : List (Fld × Fld)} {s : State} (hs : Kept s0 s) :
    Kept s0 (goStaged ps s) := by
  unfold goStaged
  try dsimp only
  repeat' first
    | intro _
    | with_reducible first
      | assumption | apply wr_kept | apply kept_foldl

theorem prkGo_kept {s0 : State} {op : Nat} {s : State} (hs : Kept s0 s) :
    Kept s0 (prkGo op s) := by
  unfold prkGo
  try dsimp only
  repeat' first
    | with_reducible first
      | assumption | apply wr_kept | apply checkBegin_kept | apply goStaged_kept | apply kept_ite

theorem execPrkCommit_kept {s0 : State} {s : State} (hs : Kept s0 s) :
    KeptO s0 (execPrkCommit s) := by
  unfold execPrkCommit
  try dsimp only
  repeat' first
    | with_reducible first
      | assumption | apply ifOpen_kept | apply prkGo_kept | apply keptO_next | apply keptO_ite | exact keptO_fault

theorem execPrkCheck_kept {s0 : State} {s : State} (hs : Kept s0 s) :
    KeptO s0 (execPrkCheck s) := by
  unfold execPrkCheck
  try dsimp only
  repeat' first
    | with_reducible first
      | assumption | apply ifOpen_kept | apply prkGo_kept | apply keptO_next | apply keptO_ite | exact keptO_fault

theorem execPrkRevert_kept {s0 : State} {s : State} (hs : Kept s0 s) :
    KeptO s0 (execPrkRevert s) := by
  unfold execPrkRevert
  try dsimp only
  repeat' first
    | with_reducible first
      | assumption | apply ifOpen_kept | apply prkGo_kept | apply keptO_next | apply keptO_ite | exact keptO_fault

theorem linkGo_kept {s0 : State} {k : Nat} {checkOnly : Bool} {s : State} (hs : Kept s0 s) :
    Kept s0 (linkGo k checkOnly s) := by
  unfold linkGo
  try dsimp only
  repeat' first
    | with_reducible first
      | assumption | apply wr_kept | apply wrB_kept | apply checkBegin_kept | apply kept_ite

theorem execLnkCommit_kept {s0 : State} {k : Nat} {checkOnly : Bool} {s : State} (hs : Kept s0 s) :
    KeptO s0 (execLnkCommit k checkOnly s) := by
  unfold execLnkCommit
  try dsimp only
  repeat' first
    | with_reducible first
      | assumption | apply ifHas_kept | apply linkGo_kept | apply keptO_next | apply keptO_ite | exact keptO_fault

theorem proofStatus_kept {s0 : State} {k : Nat} {s : State} (hs : Kept s0 s) :
    Kept s0 (proofStatus k s) := by
  unfold proofStatus
  try dsimp only
  repeat' first
    | intro _
    | with_reducible first
      | assumption | apply wr_kept | apply wrB_kept

theorem proofSide_kept {s0 : State} {s : State} {x : List Nat} (hs : Kept s0 s) :
    Kept s0 (proofSide s x) := by
  unfold proofSide
  try dsimp only
  repeat' first
    | with_reducible first
      | assumption | apply wr_kept | apply putLink_kept | apply kept_ite
    | simp only [kept_mk_iff]

theorem proofNone_kept {s0 : State} {k : Nat} {d : Nat} {s : State} (hs : Kept s0 s) :
    Kept s0 (proofNone k d s) := by
  unfold proofNone
  try dsimp only
  repeat' first
    | with_reducible first
      | assumption | apply wr_kept

theorem proofClear_kept {s0 : State} {k : Nat} {s : State} (hs : Kept s0 s) :
    Kept s0 (proofClear k s) := by
  unfold proofClear
  try dsimp only
  repeat' first
    | intro _
    | with_reducible first
      | assumption | apply wr_kept | apply kept_foldl

theorem applyFigures_kept {s0 : State} {s : State} (hs : Kept s0 s) :
    Kept s0 (applyFigures s) := by
  unfold applyFigures
  try dsimp only
  repeat' first
    | intro _
    | with_reducible first
      | assumption | apply wr_kept | apply kept_foldl

theorem proofFigures_kept {s0 : State} {s : State} (hs : Kept s0 s) :
    Kept s0 (proofFigures s) := by
  unfold proofFigures
  try dsimp only
  repeat' first
    | intro _
    | with_reducible first
      | assumption | apply wr_kept | apply kept_ite | apply kept_foldl

theorem proofWrite_kept {s0 : State} {s : State} (hs : Kept s0 s) :
    Kept s0 (proofWrite s) := by
  unfold proofWrite
  try dsimp only
  repeat' first
    | intro _
    | with_reducible first
      | assumption | apply proofStatus_kept | apply proofSide_kept | apply proofNone_kept | apply proofClear_kept
      | apply proofFigures_kept | apply kept_ite | apply kept_foldl

theorem prkState_kept {s0 : State} {s : State} (hs : Kept s0 s) :
    Kept s0 (prkState s) := by
  unfold prkState
  try dsimp only
  repeat' first
    | with_reducible first
      | assumption | apply prkEnd_kept

theorem markUnproved_kept {s0 : State} {k : Nat} {s : State} (hs : Kept s0 s) :
    Kept s0 (markUnproved k s) := by
  unfold markUnproved
  try dsimp only
  repeat' first
    | with_reducible first
      | assumption | apply wr_kept

theorem shedLink_kept {s0 : State} {k : Nat} {s : State} (hs : Kept s0 s) :
    Kept s0 (shedLink k s) := by
  unfold shedLink
  try dsimp only
  repeat' first
    | with_reducible first
      | assumption | apply wr_kept | apply bump_kept | apply linkHalt_kept

theorem shedDie_kept {s0 : State} {d : Nat} {s : State} (hs : Kept s0 s) :
    Kept s0 (shedDie d s) := by
  unfold shedDie
  try dsimp only
  repeat' first
    | intro _
    | with_reducible first
      | assumption | apply shedLink_kept | apply kept_ite | apply kept_foldl

theorem recheckFails_kept {s0 : State} {r : List Nat} {s : State} (hs : Kept s0 s) :
    Kept s0 (recheckFails r s) := by
  unfold recheckFails
  try dsimp only
  repeat' first
    | intro _
    | with_reducible first
      | assumption | apply proofFigures_kept | apply markUnproved_kept | apply shedDie_kept | apply kept_ite
      | apply kept_foldl

theorem checkEnd_kept {s0 : State} {s : State} (hs : Kept s0 s) :
    Kept s0 (checkEnd s) := by
  unfold checkEnd
  try dsimp only
  repeat' first
    | with_reducible first
      | assumption | apply wr_kept | apply prkEnd_kept | apply proofWrite_kept | apply prkState_kept
      | apply recheckFails_kept | apply kept_ite
    | simp only [kept_mk_iff]

theorem execCheckEnd_kept {s0 : State} {s : State} (hs : Kept s0 s) :
    KeptO s0 (execCheckEnd s) := by
  unfold execCheckEnd
  try dsimp only
  repeat' first
    | with_reducible first
      | assumption | apply checkEnd_kept | apply keptO_next | apply keptO_ite | exact keptO_fault

theorem sideGiveUp_kept {s0 : State} {k : Nat} {sd : Side} {s : State} (hs : Kept s0 s) :
    Kept s0 (sideGiveUp k sd s) := by
  unfold sideGiveUp
  try dsimp only
  repeat' first
    | with_reducible first
      | assumption | apply putSide_kept | apply lanesLeave_kept

theorem linkRemove_kept {s0 : State} {k : Nat} {s : State} (hs : Kept s0 s) :
    Kept s0 (linkRemove k s) := by
  unfold linkRemove
  try dsimp only
  repeat' first
    | intro _
    | with_reducible first
      | assumption | apply linkHalt_kept | apply sideGiveUp_kept | apply kept_foldl

theorem linkRestart_kept {s0 : State} {k : Nat} {s : State} (hs : Kept s0 s) :
    Kept s0 (linkRestart k s) := by
  unfold linkRestart
  try dsimp only
  repeat' first
    | intro _
    | with_reducible first
      | assumption | apply putLink_kept | apply spanDown_kept | apply linkClocks_kept | apply linkDown_kept
      | apply spanHold_kept | apply sideGiveUp_kept | apply kept_ite | apply kept_foldl
    | simp only [kept_mk_iff]

theorem linkBefore_kept {s0 : State} {k : Nat} {s : State} (hs : Kept s0 s) :
    Kept s0 (linkBefore k s) := by
  unfold linkBefore
  try dsimp only
  repeat' first
    | with_reducible first
      | assumption | apply linkRemove_kept | apply linkRestart_kept | apply kept_ite

theorem calBefore_kept {s0 : State} {c : Nat} {s : State} (hs : Kept s0 s) :
    Kept s0 (calBefore c s) := by
  unfold calBefore
  try dsimp only
  repeat' first
    | with_reducible first
      | assumption | apply stopTrunk_kept | apply kept_ite

theorem calAfter_kept {s0 : State} {c : Nat} {s : State} (hs : Kept s0 s) :
    Kept s0 (calAfter c s) := by
  unfold calAfter
  try dsimp only
  repeat' first
    | with_reducible first
      | assumption | apply startTrunk_kept | apply kept_ite

theorem darnCommit_kept {s0 : State} {old : State} {f : Nat} {s : State} (hold : Kept s0 old) (hs : Kept s0 s) :
    Kept s0 (darnCommit old f s) := by
  unfold darnCommit
  try dsimp only
  repeat' first
    | with_reducible first
      | assumption | apply startDarn_kept | apply undarnFlow_kept | apply kept_ite

theorem llStart_kept {s0 : State} {l : Nat} {s : State} (hs : Kept s0 s) :
    Kept s0 (llStart l s) := by
  unfold llStart
  try dsimp only
  repeat' first
    | intro _
    | with_reducible first
      | assumption | apply startFlow_kept | apply kept_ite | apply kept_foldl

theorem llDarning_kept {s0 : State} {old : State} {l : Nat} {s : State} (hold : Kept s0 old) (hs : Kept s0 s) :
    Kept s0 (llDarning old l s) := by
  unfold llDarning
  try dsimp only
  repeat' first
    | intro _
    | with_reducible first
      | assumption | apply darnCommit_kept | apply kept_foldl

theorem llCommit_kept {s0 : State} {old : State} {l : Nat} {s : State} (hold : Kept s0 old) (hs : Kept s0 s) :
    Kept s0 (llCommit old l s) := by
  unfold llCommit
  try dsimp only
  repeat' first
    | intro _
    | with_reducible first
      | assumption | apply putLl_kept | apply llStart_kept | apply llDarning_kept | apply kept_ite
    | simp only [kept_mk_iff]

theorem linkAfter_kept {s0 : State} {old : State} {k : Nat} {s : State} (hold : Kept s0 old) (hs : Kept s0 s) :
    Kept s0 (linkAfter old k s) := by
  unfold linkAfter
  try dsimp only
  repeat' first
    | intro _
    | with_reducible first
      | assumption | apply putLink_kept | apply linkTrain_kept | apply darnCommit_kept | apply kept_ite
      | apply kept_foldl

theorem applyConfig_kept {s0 : State} {s : State} (hs : Kept s0 s) :
    Kept s0 (applyConfig s) := by
  unfold applyConfig
  try dsimp only
  repeat' first
    | intro _
    | with_reducible first
      | assumption | apply wr_kept | apply modTrunk_kept | apply bobFinish_kept | apply bobRelease_kept
      | apply loopsUsed_kept | apply ungateUsed_kept | apply goLive_kept | apply linkBefore_kept
      | apply calBefore_kept | apply calAfter_kept | apply llCommit_kept | apply linkAfter_kept | apply kept_ite
      | apply kept_foldl
    | simp only [kept_mk_iff]

theorem applyNow_kept {s0 : State} {s : State} (hs : Kept s0 s) :
    Kept s0 (applyNow s) := by
  unfold applyNow
  try dsimp only
  repeat' first
    | with_reducible first
      | assumption | apply prkEnd_kept | apply applyFigures_kept | apply proofWrite_kept | apply prkState_kept
      | apply applyConfig_kept | apply kept_ite | exact keptOpt_none | apply keptOpt_ite
    | simp only [kept_mk_iff]
    | split
    | with_reducible first
      | (apply kept_pair; assumption) | (apply kept_opt; assumption) | (apply kept_triple; assumption)

theorem execTApply_kept {s0 : State} {s : State} (hs : Kept s0 s) :
    KeptO s0 (execTApply s) := by
  unfold execTApply
  try dsimp only
  repeat' first
    | with_reducible first
      | assumption | apply applyNow_kept | apply keptO_next | apply keptO_ite | exact keptO_fault

theorem execRecheckStart_kept {s0 : State} {trigger : Nat} {s : State} (hs : Kept s0 s) :
    KeptO s0 (execRecheckStart trigger s) := by
  unfold execRecheckStart
  try dsimp only
  repeat' first
    | with_reducible first
      | assumption | apply startRecheck_kept | apply keptO_next | apply keptO_ite | exact keptO_fault

end Sys2Proof.Machine
end

