-- ==== Sys2Proof/Laws/KeptRings.lean ====
section
/-! SUPPORT. What the operations of Machine/Rings.lean keep (`Kept`). -/

namespace Sys2Proof.Machine

theorem msgBroken_kept {s0 : State} {d : Nat} {s : State} (hs : Kept s0 s) :
    Kept s0 (msgBroken d s) := by
  unfold msgBroken
  try dsimp only
  repeat' first
    | with_reducible first
      | assumption | apply bump_kept | apply putHop_kept
    | simp only [kept_mk_iff]

theorem hopHeard_kept {s0 : State} {d : Nat} {s : State} (hs : Kept s0 s) :
    Kept s0 (hopHeard d s) := by
  unfold hopHeard
  try dsimp only
  repeat' first
    | with_reducible first
      | assumption | apply putHop_kept
    | simp only [kept_mk_iff]

theorem hopUnlock_kept {s0 : State} {d : Nat} {s : State} (hs : Kept s0 s) :
    Kept s0 (hopUnlock d s) := by
  unfold hopUnlock
  try dsimp only
  repeat' first
    | with_reducible first
      | assumption | apply putHop_kept
    | simp only [kept_mk_iff]

theorem hopBad_kept {s0 : State} {d : Nat} {m : RingMsg} {s : State} (hs : Kept s0 s) :
    Kept s0 (hopBad d m s) := by
  unfold hopBad
  try dsimp only
  repeat' first
    | with_reducible first
      | assumption | apply putHop_kept | apply hopUnlock_kept | apply kept_ite
    | simp only [kept_mk_iff]

theorem arrive_kept {s0 : State} {type : Nat} {d : Nat} {m : RingMsg} {act : Msg → State → State} {s : State} (hact : ∀ y0 y1, Kept s0 y1 → Kept s0 (act y0 y1)) (hs : Kept s0 s) :
    Kept s0 (arrive type d m act s) := by
  unfold arrive
  try dsimp only
  repeat' first
    | intro _
    | with_reducible first
      | assumption | apply freshOut_kept | apply msgBroken_kept | apply hopHeard_kept | apply hopUnlock_kept
      | apply hopBad_kept | apply hact | apply kept_ite | exact keptOpt_none | apply keptOpt_ite
    | simp only [kept_mk_iff]
    | split
    | with_reducible first
      | (apply kept_pair; assumption) | (apply kept_opt; assumption) | (apply kept_triple; assumption)

theorem routed_kept {s0 : State} {d : Nat} {consume : Msg → State → State} {x : Msg} {s : State} (hconsume : ∀ y0 y1, Kept s0 y1 → Kept s0 (consume y0 y1)) (hs : Kept s0 s) :
    Kept s0 (routed d consume x s) := by
  unfold routed
  try dsimp only
  repeat' first
    | intro _
    | with_reducible first
      | assumption | apply bump_kept | apply sendOn_kept | apply hconsume | apply kept_ite

theorem around_kept {s0 : State} {d : Nat} {atSource : State → State} {act : Msg → State → State × List Nat} {x : Msg} {s : State} (hatSource : ∀ y0, Kept s0 y0 → Kept s0 (atSource y0)) (hact : ∀ y0 y1, Kept s0 y1 → Kept s0 (act y0 y1).1) (hs : Kept s0 s) :
    Kept s0 (around d atSource act x s) := by
  unfold around
  try dsimp only
  repeat' first
    | intro _
    | with_reducible first
      | assumption | apply sendOn_kept | apply hatSource | apply hact | apply kept_ite

theorem onRing_kept {s0 : State} {d : Nat} {s : State} {t : State} (hs : Kept s0 s) (ht : Kept s0 t) :
    KeptO s0 (onRing d s t) := by
  unfold onRing
  try dsimp only
  repeat' first
    | with_reducible first
      | assumption | apply onUnit_kept | apply keptO_next | apply keptO_ite | exact keptO_fault | apply kept_ite

theorem setHopState_kept {s0 : State} {d : Nat} {v : Nat} {s : State} (hs : Kept s0 s) :
    Kept s0 (setHopState d v s) := by
  unfold setHopState
  try dsimp only
  repeat' first
    | with_reducible first
      | assumption | apply wr_kept | apply kept_ite

theorem sendBreak_kept {s0 : State} {d : Nat} {s : State} (hs : Kept s0 s) :
    Kept s0 (sendBreak d s) := by
  unfold sendBreak
  try dsimp only
  repeat' first
    | with_reducible first
      | assumption | apply sendOn_kept | apply enumStart_kept | apply kept_ite

theorem hopDelay_kept {s0 : State} {d : Nat} {tag : Nat} {turn : Nat} {s : State} (hs : Kept s0 s) :
    Kept s0 (hopDelay d tag turn s) := by
  unfold hopDelay
  try dsimp only
  repeat' first
    | intro _
    | with_reducible first
      | assumption | apply wr_kept | apply kept_ite | exact keptOpt_none | apply keptOpt_ite
    | simp only [kept_mk_iff]
    | split
    | with_reducible first
      | (apply kept_pair; assumption) | (apply kept_opt; assumption) | (apply kept_triple; assumption)

theorem trainGood_kept {s0 : State} {d : Nat} {s : State} (hs : Kept s0 s) :
    Kept s0 (trainGood d s) := by
  unfold trainGood
  try dsimp only
  repeat' first
    | with_reducible first
      | assumption | apply setInput_kept | apply putHop_kept | apply setHopState_kept | apply sendBreak_kept
      | apply kept_ite
    | simp only [kept_mk_iff]

theorem trainCrossed_kept {s0 : State} {d : Nat} {s : State} (hs : Kept s0 s) :
    Kept s0 (trainCrossed d s) := by
  unfold trainCrossed
  try dsimp only
  repeat' first
    | with_reducible first
      | assumption | apply setInput_kept | apply wireFault_kept | apply putHop_kept | apply setHopState_kept
      | apply sendBreak_kept | apply kept_ite
    | simp only [kept_mk_iff]

theorem trainArrives_kept {s0 : State} {d : Nat} {x : Msg} {s : State} (hs : Kept s0 s) :
    Kept s0 (trainArrives d x s) := by
  unfold trainArrives
  try dsimp only
  repeat' first
    | with_reducible first
      | assumption | apply putHop_kept | apply hopDelay_kept | apply trainGood_kept | apply trainCrossed_kept
      | apply kept_ite
    | simp only [kept_mk_iff]

theorem execRingTrainReceive_kept {s0 : State} {d : Nat} {msg : RingMsg} {s : State} (hs : Kept s0 s) :
    KeptO s0 (execRingTrainReceive d msg s) := by
  unfold execRingTrainReceive
  try dsimp only
  repeat' first
    | with_reducible first
      | assumption | apply onUnit_kept | apply arrive_kept | apply onRing_kept | apply trainArrives_kept
      | apply keptO_next | apply keptO_ite | exact keptO_fault

theorem trainEcho_kept {s0 : State} {h : HopSt} {s : State} (hs : Kept s0 s) :
    Kept s0 (trainEcho h s).2.2 := by
  unfold trainEcho
  try dsimp only
  repeat' first
    | with_reducible first
      | assumption | apply draw_kept
    | simp only [kept_mk_iff]
    | split
    | with_reducible first
      | (apply kept_pair; assumption) | (apply kept_opt; assumption) | (apply kept_triple; assumption)

theorem trainSend_kept {s0 : State} {r : Nat} {s : State} (hs : Kept s0 s) :
    Kept s0 (trainSend r s) := by
  unfold trainSend
  try dsimp only
  repeat' first
    | intro _
    | with_reducible first
      | assumption | apply putHop_kept | apply sendOn_kept | apply trainEcho_kept
    | simp only [kept_mk_iff]
    | split
    | with_reducible first
      | (apply kept_pair; assumption) | (apply kept_opt; assumption) | (apply kept_triple; assumption)

theorem execRingTrainSend_kept {s0 : State} {s : State} (hs : Kept s0 s) :
    KeptO s0 (execRingTrainSend s) := by
  unfold execRingTrainSend
  try dsimp only
  repeat' first
    | with_reducible first
      | assumption | apply freshOut_kept | apply trainSend_kept | apply keptO_next | apply keptO_ite
      | exact keptO_fault | apply kept_ite

theorem execHopBroken_kept {s0 : State} {d : Nat} {s : State} (hs : Kept s0 s) :
    KeptO s0 (execHopBroken d s) := by
  unfold execHopBroken
  try dsimp only
  repeat' first
    | with_reducible first
      | assumption | apply onUnit_kept | apply setInput_kept | apply putHop_kept | apply freshOut_kept
      | apply onRing_kept | apply setHopState_kept | apply sendBreak_kept | apply keptO_next | apply keptO_ite
      | exact keptO_fault | apply kept_ite
    | simp only [kept_mk_iff]

theorem enumArrives_kept {s0 : State} {d : Nat} {x : Msg} {s : State} (hs : Kept s0 s) :
    Kept s0 (enumArrives d x s).1 := by
  unfold enumArrives
  try dsimp only
  repeat' first
    | with_reducible first
      | assumption | apply setRingPos_kept | apply sendOn_kept
    | simp only [kept_mk_iff]

theorem enumReturned_kept {s0 : State} {d : Nat} {s : State} (hs : Kept s0 s) :
    Kept s0 (enumReturned d s) := by
  unfold enumReturned
  try dsimp only
  repeat' first
    | intro _
    | with_reducible first
      | assumption | apply enumEnd_kept | apply kept_ite
    | simp only [kept_mk_iff]

theorem execRingEnum_kept {s0 : State} {d : Nat} {msg : RingMsg} {s : State} (hs : Kept s0 s) :
    KeptO s0 (execRingEnum d msg s) := by
  unfold execRingEnum
  try dsimp only
  repeat' first
    | intro _
    | with_reducible first
      | assumption | apply onUnit_kept | apply arrive_kept | apply around_kept | apply onRing_kept
      | apply enumArrives_kept | apply enumReturned_kept | apply keptO_next | apply keptO_ite | exact keptO_fault
      | apply kept_ite | apply kept_ite2 | apply kept_ite3 | apply kept_foldl | apply kept_foldl2
      | apply kept_foldl1
    | simp only [kept_mk_iff]
    | split
    | dsimp only
    | with_reducible first
      | (apply kept_pair; assumption) | (apply kept_opt; assumption) | (apply kept_triple; assumption)

theorem presentArrives_kept {s0 : State} {x : Msg} {s : State} (hs : Kept s0 s) :
    Kept s0 (presentArrives x s) := by
  unfold presentArrives
  try dsimp only
  repeat' first
    | intro _
    | with_reducible first
      | assumption | apply wr_kept | apply setRingPos_kept | apply kept_ite
    | simp only [kept_mk_iff]
    | simp only [id_eq]

theorem execRingPresent_kept {s0 : State} {d : Nat} {msg : RingMsg} {s : State} (hs : Kept s0 s) :
    KeptO s0 (execRingPresent d msg s) := by
  unfold execRingPresent
  try dsimp only
  repeat' first
    | intro _
    | with_reducible first
      | assumption | apply onUnit_kept | apply arrive_kept | apply routed_kept | apply onRing_kept
      | apply presentArrives_kept | apply keptO_next | apply keptO_ite | exact keptO_fault | apply kept_ite

theorem execEnumTimeout_kept {s0 : State} {s : State} (hs : Kept s0 s) :
    KeptO s0 (execEnumTimeout s) := by
  unfold execEnumTimeout
  try dsimp only
  repeat' first
    | with_reducible first
      | assumption | apply freshOut_kept | apply enumEnd_kept | apply keptO_next | apply keptO_ite
      | exact keptO_fault | apply kept_ite

theorem execRingDone_kept {s0 : State} {d : Nat} {msg : RingMsg} {s : State} (hs : Kept s0 s) :
    KeptO s0 (execRingDone d msg s) := by
  unfold execRingDone
  try dsimp only
  repeat' first
    | intro _
    | with_reducible first
      | assumption | apply onUnit_kept | apply ringDone_kept | apply arrive_kept | apply around_kept
      | apply onRing_kept | apply keptO_next | apply keptO_ite | exact keptO_fault
    | simp only [id_eq]

theorem execRingBreak_kept {s0 : State} {d : Nat} {msg : RingMsg} {s : State} (hs : Kept s0 s) :
    KeptO s0 (execRingBreak d msg s) := by
  unfold execRingBreak
  try dsimp only
  repeat' first
    | intro _
    | with_reducible first
      | assumption | apply onUnit_kept | apply enumStart_kept | apply arrive_kept | apply routed_kept
      | apply onRing_kept | apply keptO_next | apply keptO_ite | exact keptO_fault | apply kept_ite

theorem pctCmd_kept {s0 : State} {op : Nat} {act : State → State} {s : State} (hact : ∀ y0, Kept s0 y0 → Kept s0 (act y0)) (hs : Kept s0 s) :
    Kept s0 (pctCmd op act s) := by
  unfold pctCmd
  try dsimp only
  repeat' first
    | intro _
    | with_reducible first
      | assumption | apply wr_kept | apply freshOut_kept | apply hact | apply kept_ite

theorem execPctEnumerate_kept {s0 : State} {s : State} (hs : Kept s0 s) :
    KeptO s0 (execPctEnumerate s) := by
  unfold execPctEnumerate
  try dsimp only
  repeat' first
    | with_reducible first
      | assumption | apply ifOpen_kept | apply enumStart_kept | apply pctCmd_kept | apply keptO_next
      | apply keptO_ite | exact keptO_fault

theorem takeTime_kept {s0 : State} {t : Nat} {s : State} (hs : Kept s0 s) :
    Kept s0 (takeTime t s) := by
  unfold takeTime
  try dsimp only
  repeat' first
    | with_reducible first
      | assumption | apply hold_kept | apply kept_ite
    | simp only [kept_mk_iff]

theorem timeTaken_kept {s0 : State} {s : State} (hs : Kept s0 s) :
    Kept s0 (timeTaken s) := by
  unfold timeTaken
  try dsimp only
  repeat' first
    | with_reducible first
      | assumption
    | simp only [kept_mk_iff]

theorem forwardDelay_kept {s0 : State} {s : State} (hs : Kept s0 s) :
    Kept s0 (forwardDelay s).2 := by
  unfold forwardDelay
  try dsimp only
  repeat' first
    | with_reducible first
      | assumption | apply draw_kept

theorem timeArrives_kept {s0 : State} {d : Nat} {x : Msg} {s : State} (hs : Kept s0 s) :
    Kept s0 (timeArrives d x s).1 := by
  unfold timeArrives
  try dsimp only
  repeat' first
    | with_reducible first
      | assumption | apply wr_kept | apply takeTime_kept | apply timeTaken_kept | apply forwardDelay_kept
      | apply kept_ite

theorem execRingTime_kept {s0 : State} {d : Nat} {msg : RingMsg} {s : State} (hs : Kept s0 s) :
    KeptO s0 (execRingTime d msg s) := by
  unfold execRingTime
  try dsimp only
  repeat' first
    | intro _
    | with_reducible first
      | assumption | apply onUnit_kept | apply arrive_kept | apply around_kept | apply onRing_kept
      | apply timeArrives_kept | apply keptO_next | apply keptO_ite | exact keptO_fault
    | simp only [id_eq]

theorem execRingTimeSend_kept {s0 : State} {s : State} (hs : Kept s0 s) :
    KeptO s0 (execRingTimeSend s) := by
  unfold execRingTimeSend
  try dsimp only
  repeat' first
    | with_reducible first
      | assumption | apply freshOut_kept | apply broadcast_kept | apply keptO_next | apply keptO_ite
      | exact keptO_fault | apply kept_ite

theorem execTimeLoss_kept {s0 : State} {s : State} (hs : Kept s0 s) :
    KeptO s0 (execTimeLoss s) := by
  unfold execTimeLoss
  try dsimp only
  repeat' first
    | with_reducible first
      | assumption | apply wr_kept | apply keptO_next | apply keptO_ite | exact keptO_fault | apply kept_ite

theorem takeGo_kept {s0 : State} {t : Nat} {s : State} (hs : Kept s0 s) :
    Kept s0 (takeGo t s) := by
  unfold takeGo
  try dsimp only
  repeat' first
    | with_reducible first
      | assumption | apply wr_kept | apply putLive_kept | apply detectAll_kept | apply kept_ite

theorem execRingGo_kept {s0 : State} {d : Nat} {msg : RingMsg} {s : State} (hs : Kept s0 s) :
    KeptO s0 (execRingGo d msg s) := by
  unfold execRingGo
  try dsimp only
  repeat' first
    | intro _
    | with_reducible first
      | assumption | apply onUnit_kept | apply arrive_kept | apply around_kept | apply onRing_kept
      | apply takeGo_kept | apply keptO_next | apply keptO_ite | exact keptO_fault
    | simp only [id_eq]

theorem sendGo_kept {s0 : State} {s : State} (hs : Kept s0 s) :
    Kept s0 (sendGo s) := by
  unfold sendGo
  try dsimp only
  repeat' first
    | with_reducible first
      | assumption | apply broadcast_kept | apply takeGo_kept

theorem execGoAuto_kept {s0 : State} {s : State} (hs : Kept s0 s) :
    KeptO s0 (execGoAuto s) := by
  unfold execGoAuto
  try dsimp only
  repeat' first
    | with_reducible first
      | assumption | apply freshOut_kept | apply sendGo_kept | apply keptO_next | apply keptO_ite
      | exact keptO_fault | apply kept_ite

theorem execPctGo_kept {s0 : State} {s : State} (hs : Kept s0 s) :
    KeptO s0 (execPctGo s) := by
  unfold execPctGo
  try dsimp only
  repeat' first
    | with_reducible first
      | assumption | apply ifOpen_kept | apply pctCmd_kept | apply sendGo_kept | apply keptO_next
      | apply keptO_ite | exact keptO_fault

theorem execRingReady_kept {s0 : State} {d : Nat} {msg : RingMsg} {s : State} (hs : Kept s0 s) :
    KeptO s0 (execRingReady d msg s) := by
  unfold execRingReady
  try dsimp only
  repeat' first
    | intro _
    | with_reducible first
      | assumption | apply onUnit_kept | apply wr_kept | apply arrive_kept | apply routed_kept | apply onRing_kept
      | apply keptO_next | apply keptO_ite | exact keptO_fault | apply kept_ite

theorem deliverArrives_kept {s0 : State} {x : Msg} {s : State} (hs : Kept s0 s) :
    Kept s0 (deliverArrives x s) := by
  unfold deliverArrives
  try dsimp only
  repeat' first
    | with_reducible first
      | assumption | apply enterDeliver_kept | apply kept_ite
    | simp only [kept_mk_iff]

theorem execRingDeliver_kept {s0 : State} {d : Nat} {msg : RingMsg} {s : State} (hs : Kept s0 s) :
    KeptO s0 (execRingDeliver d msg s) := by
  unfold execRingDeliver
  try dsimp only
  repeat' first
    | intro _
    | with_reducible first
      | assumption | apply onUnit_kept | apply arrive_kept | apply routed_kept | apply onRing_kept
      | apply deliverArrives_kept | apply keptO_next | apply keptO_ite | exact keptO_fault | apply kept_ite
      | apply kept_ite2 | apply kept_ite3 | apply kept_foldl | apply kept_foldl2 | apply kept_foldl1
    | simp only [kept_mk_iff]
    | split
    | dsimp only
    | with_reducible first
      | (apply kept_pair; assumption) | (apply kept_opt; assumption) | (apply kept_triple; assumption)

theorem execRingComplete_kept {s0 : State} {d : Nat} {msg : RingMsg} {s : State} (hs : Kept s0 s) :
    KeptO s0 (execRingComplete d msg s) := by
  unfold execRingComplete
  try dsimp only
  repeat' first
    | intro _
    | with_reducible first
      | assumption | apply onUnit_kept | apply endService_kept | apply arrive_kept | apply routed_kept
      | apply onRing_kept | apply keptO_next | apply keptO_ite | exact keptO_fault | apply kept_ite

end Sys2Proof.Machine
end

