-- ==== Sys2Proof/Laws/KeptSteering.lean ====
section
/-! SUPPORT. What the operations of Machine/Steering.lean keep (`Kept`). -/

namespace Sys2Proof.Machine

theorem syncMapStat_kept {s0 : State} {s : State} (hs : Kept s0 s) :
    Kept s0 (syncMapStat s) := by
  unfold syncMapStat
  try dsimp only
  repeat' first
    | intro _
    | with_reducible first
      | assumption | apply wrB_kept

theorem genUp_kept {s0 : State} {e : Nat} {s : State} (hs : Kept s0 s) :
    Kept s0 (genUp e s) := by
  unfold genUp
  try dsimp only
  repeat' first
    | with_reducible first
      | assumption | apply bumpWrap_kept

theorem directChange_kept {s0 : State} {e : Nat} {force : List Nat} {words : List Nat} {s : State} (hs : Kept s0 s) :
    Kept s0 (directChange e force words s) := by
  unfold directChange
  try dsimp only
  repeat' first
    | intro _
    | with_reducible first
      | assumption | apply putMap_kept | apply genUp_kept
    | simp only [kept_mk_iff]

theorem lanesChanged_kept {s0 : State} {t : State} {e : Nat} {s : State} (ht : Kept s0 t) (hs : Kept s0 s) :
    Kept s0 (lanesChanged t e s).2 := by
  unfold lanesChanged
  try dsimp only
  repeat' first
    | with_reducible first
      | assumption | apply genUp_kept | apply directChange_kept | apply kept_ite | apply kept_ite2

theorem tornRaise_kept {s0 : State} {es : List Nat} {s : State} (hs : Kept s0 s) :
    Kept s0 (tornRaise es s) := by
  unfold tornRaise
  try dsimp only
  repeat' first
    | with_reducible first
      | assumption | apply wr_kept | apply raise_kept | apply syncMapStat_kept
    | simp only [kept_mk_iff]
    | split
    | with_reducible first
      | (apply kept_pair; assumption) | (apply kept_opt; assumption) | (apply kept_triple; assumption)

theorem bobOffSide_kept {s0 : State} {sd : Side} {lanes : List Nat} {s : State} (hs : Kept s0 s) :
    Kept s0 (bobOffSide sd lanes s) := by
  unfold bobOffSide
  try dsimp only
  repeat' first
    | intro _
    | with_reducible first
      | assumption | apply bobMove_kept | apply bobRelease_kept | apply kept_ite | apply kept_foldl

theorem mapBreak_kept {s0 : State} {e : Nat} {s : State} (hs : Kept s0 s) :
    Kept s0 (mapBreak e s) := by
  unfold mapBreak
  try dsimp only
  repeat' first
    | intro _
    | with_reducible first
      | assumption | apply putMap_kept | apply putSide_kept | apply acqCancel_kept | apply lanesLeave_kept
      | apply linkDown_kept | apply spanHold_kept | apply bobOffSide_kept | apply kept_ite | apply kept_foldl
    | simp only [kept_mk_iff]

theorem sideMapWrite_kept {s0 : State} {e : Nat} {v : Nat} {s : State} (hs : Kept s0 s) :
    Kept s0 (sideMapWrite e v s) := by
  unfold sideMapWrite
  try dsimp only
  repeat' first
    | intro _
    | with_reducible first
      | assumption | apply wr_kept | apply wrB_kept | apply putMap_kept | apply linkTrain_kept
      | apply downRestart_kept | apply syncMapStat_kept | apply genUp_kept | apply lanesChanged_kept
      | apply tornRaise_kept | apply mapBreak_kept | apply kept_ite | apply kept_foldl

theorem execSideMapWrite_kept {s0 : State} {e : Nat} {v : Nat} {s : State} (hs : Kept s0 s) :
    KeptO s0 (execSideMapWrite e v s) := by
  unfold execSideMapWrite
  try dsimp only
  repeat' first
    | with_reducible first
      | assumption | apply ifHas_kept | apply sideMapWrite_kept | apply keptO_next | apply keptO_ite
      | exact keptO_fault

theorem lanePosWrite_kept {s0 : State} {n : Nat} {v : Nat} {s : State} (hs : Kept s0 s) :
    Kept s0 (lanePosWrite n v s) := by
  unfold lanePosWrite
  try dsimp only
  repeat' first
    | intro _
    | with_reducible first
      | assumption | apply wr_kept | apply wrB_kept | apply lanesChanged_kept | apply tornRaise_kept
      | apply kept_ite | apply kept_ite2 | apply kept_ite3 | apply kept_foldl | apply kept_foldl2
      | apply kept_foldl1
    | simp only [kept_mk_iff]
    | split
    | dsimp only
    | with_reducible first
      | (apply kept_pair; assumption) | (apply kept_opt; assumption) | (apply kept_triple; assumption)

theorem execLanePosWrite_kept {s0 : State} {lane : Nat} {v : Nat} {s : State} (hs : Kept s0 s) :
    KeptO s0 (execLanePosWrite lane v s) := by
  unfold execLanePosWrite
  try dsimp only
  repeat' first
    | with_reducible first
      | assumption | apply ifHas_kept | apply lanePosWrite_kept | apply keptO_next | apply keptO_ite
      | exact keptO_fault

theorem execMapDrainEnd_kept {s0 : State} {e : Nat} {s : State} (hs : Kept s0 s) :
    KeptO s0 (execMapDrainEnd e s) := by
  unfold execMapDrainEnd
  try dsimp only
  repeat' first
    | with_reducible first
      | assumption | apply onUnit_kept | apply putMap_kept | apply syncMapStat_kept | apply keptO_next
      | apply keptO_ite | exact keptO_fault | apply kept_ite
    | simp only [kept_mk_iff]

theorem lanesRetrain_kept {s0 : State} {k : Nat} {sd : Side} {s : State} (hs : Kept s0 s) :
    Kept s0 (lanesRetrain k sd s) := by
  unfold lanesRetrain
  try dsimp only
  repeat' first
    | with_reducible first
      | assumption | apply retrainSpan_kept | apply retrain_kept | apply retune_kept | apply kept_ite

theorem mapTornEnd_kept {s0 : State} {e : Nat} {s : State} (hs : Kept s0 s) :
    Kept s0 (mapTornEnd e s) := by
  unfold mapTornEnd
  try dsimp only
  repeat' first
    | intro _
    | with_reducible first
      | assumption | apply putMap_kept | apply adaptLeaves_kept | apply acqCancel_kept | apply bobFinish_kept
      | apply bobRelease_kept | apply lanesLeave_kept | apply linkDown_kept | apply detectEnter_kept
      | apply linkTrain_kept | apply downRestart_kept | apply syncMapStat_kept | apply lanesRetrain_kept
      | apply kept_ite | apply kept_foldl

theorem execMapTornEnd_kept {s0 : State} {e : Nat} {s : State} (hs : Kept s0 s) :
    KeptO s0 (execMapTornEnd e s) := by
  unfold execMapTornEnd
  try dsimp only
  repeat' first
    | with_reducible first
      | assumption | apply onUnit_kept | apply mapTornEnd_kept | apply keptO_next | apply keptO_ite
      | exact keptO_fault

theorem execMapCacheRefresh_kept {s0 : State} {c : Nat} {e : Nat} {s : State} (hs : Kept s0 s) :
    KeptO s0 (execMapCacheRefresh c e s) := by
  unfold execMapCacheRefresh
  try dsimp only
  repeat' first
    | intro _
    | with_reducible first
      | assumption | apply onUnit_kept | apply putMap_kept | apply keptO_next | apply keptO_ite
      | exact keptO_fault
    | simp only [kept_mk_iff]

theorem execBobbinAcqLimit_kept {s0 : State} {c : Nat} {sd : Side} {s : State} (hs : Kept s0 s) :
    KeptO s0 (execBobbinAcqLimit c sd s) := by
  unfold execBobbinAcqLimit
  try dsimp only
  repeat' first
    | with_reducible first
      | assumption | apply onUnit_kept | apply bobAcqEnd_kept | apply keptO_next | apply keptO_ite
      | exact keptO_fault

theorem execBobbinSwitch_kept {s0 : State} {c : Nat} {sd : Side} {s : State} (hs : Kept s0 s) :
    KeptO s0 (execBobbinSwitch c sd s) := by
  unfold execBobbinSwitch
  try dsimp only
  repeat' first
    | with_reducible first
      | assumption | apply onUnit_kept | apply bobSwitch_kept | apply keptO_next | apply keptO_ite
      | exact keptO_fault | apply kept_ite

theorem execSwapAbandon_kept {s0 : State} {c : Nat} {s : State} (hs : Kept s0 s) :
    KeptO s0 (execSwapAbandon c s) := by
  unfold execSwapAbandon
  try dsimp only
  repeat' first
    | with_reducible first
      | assumption | apply onUnit_kept | apply swapAbandon_kept | apply keptO_next | apply keptO_ite
      | exact keptO_fault | apply kept_ite

theorem oldTxIdle_kept {s0 : State} {c : Nat} {s : State} (hs : Kept s0 s) :
    Kept s0 (oldTxIdle c s) := by
  unfold oldTxIdle
  try dsimp only
  repeat' first
    | intro _
    | with_reducible first
      | assumption | apply putBob_kept | apply txRest_kept | apply kept_ite | apply kept_foldl
    | simp only [kept_mk_iff]

theorem execOldTxIdle_kept {s0 : State} {c : Nat} {s : State} (hs : Kept s0 s) :
    KeptO s0 (execOldTxIdle c s) := by
  unfold execOldTxIdle
  try dsimp only
  repeat' first
    | with_reducible first
      | assumption | apply onUnit_kept | apply oldTxIdle_kept | apply keptO_next | apply keptO_ite
      | exact keptO_fault

theorem swpOp_kept {s0 : State} {op : Nat} {c : Nat} {pos : Nat} {ok : Bool} {f : State → State} {s : State} (hf : ∀ y0, Kept s0 y0 → Kept s0 (f y0)) (hs : Kept s0 s) :
    Kept s0 (swpOp op c pos ok f s) := by
  unfold swpOp
  try dsimp only
  repeat' first
    | intro _
    | with_reducible first
      | assumption | apply wr_kept | apply hf | apply kept_ite

theorem execSwpSwap_kept {s0 : State} {c : Nat} {pos : Nat} {s : State} (hs : Kept s0 s) :
    KeptO s0 (execSwpSwap c pos s) := by
  unfold execSwpSwap
  try dsimp only
  repeat' first
    | with_reducible first
      | assumption | apply ifOpen_kept | apply swapBegin_kept | apply swpOp_kept | apply keptO_next
      | apply keptO_ite | exact keptO_fault

theorem execSwpReturn_kept {s0 : State} {c : Nat} {s : State} (hs : Kept s0 s) :
    KeptO s0 (execSwpReturn c s) := by
  unfold execSwpReturn
  try dsimp only
  repeat' first
    | with_reducible first
      | assumption | apply ifOpen_kept | apply returnBegin_kept | apply swpOp_kept | apply keptO_next
      | apply keptO_ite | exact keptO_fault

theorem bobEnable_kept {s0 : State} {c : Nat} {s : State} (hs : Kept s0 s) :
    Kept s0 (bobEnable c s) := by
  unfold bobEnable
  try dsimp only
  repeat' first
    | with_reducible first
      | assumption | apply bobSliceCut_kept | apply bobSliceStart_kept | apply kept_ite

theorem execSwpEnable_kept {s0 : State} {c : Nat} {s : State} (hs : Kept s0 s) :
    KeptO s0 (execSwpEnable c s) := by
  unfold execSwpEnable
  try dsimp only
  repeat' first
    | with_reducible first
      | assumption | apply ifOpen_kept | apply swpOp_kept | apply bobEnable_kept | apply keptO_next
      | apply keptO_ite | exact keptO_fault

theorem bobDisable_kept {s0 : State} {c : Nat} {s : State} (hs : Kept s0 s) :
    Kept s0 (bobDisable c s) := by
  unfold bobDisable
  try dsimp only
  repeat' first
    | with_reducible first
      | assumption | apply wr_kept | apply bobRest_kept | apply bobSliceCut_kept | apply kept_ite

theorem execSwpDisable_kept {s0 : State} {c : Nat} {s : State} (hs : Kept s0 s) :
    KeptO s0 (execSwpDisable c s) := by
  unfold execSwpDisable
  try dsimp only
  repeat' first
    | with_reducible first
      | assumption | apply ifOpen_kept | apply swpOp_kept | apply bobDisable_kept | apply keptO_next
      | apply keptO_ite | exact keptO_fault

end Sys2Proof.Machine
end

