-- ==== Sys2Proof/Laws/KeptRegisterFile.lean ====
section
/-! SUPPORT. What the operations of Machine/RegisterFile.lean keep (`Kept`). -/

namespace Sys2Proof.Machine

theorem after_kept {s0 : State} {o : Host.Outcome State Fault Refusal} {s : State} (ho : KeptO s0 o) (hs : Kept s0 s) :
    Kept s0 (after o s) := by
  unfold after
  split
  · exact ho.out _ rfl
  · exact hs

theorem rowRead_kept {s0 : State} {o : Host.Outcome State Fault Refusal} {s : State} (ho : KeptO s0 o) (hs : Kept s0 s) :
    Kept s0 (rowRead o s).2 := by
  unfold rowRead
  try dsimp only
  repeat' first
    | with_reducible first
      | assumption | apply after_kept
    | simp only [kept_mk_iff]

theorem rsRead_kept {s0 : State} {s : State} {p : Nat} {off : Nat} (hs : Kept s0 s) :
    KeptOpt s0 (rsRead s p off) := by
  unfold rsRead
  try dsimp only
  repeat' first
    | with_reducible first
      | assumption | apply execIntClaim_kept | apply execCntSnap_kept | apply execFltSnap_kept
      | apply execDarnSnap_kept | apply execTrkSnap_kept | apply execLlSnap_kept | apply execCalSnap_kept
      | apply execPrbsSnap_kept | apply execBufSnap_kept | apply rowRead_kept | exact keptOpt_none
      | apply keptOpt_some | apply keptOpt_ite | apply keptOpt_someP | apply kept_ite
    | simp only [kept_mk_iff]
    | split
    | with_reducible first
      | (apply kept_pair; assumption) | (apply kept_opt; assumption) | (apply kept_triple; assumption)

theorem loLatch_kept {s0 : State} {p : Nat} {off : Nat} {s : State} (hs : Kept s0 s) :
    Kept s0 (loLatch p off s) := by
  unfold loLatch
  try dsimp only
  repeat' first
    | with_reducible first
      | assumption | apply wr_kept | apply kept_ite
    | simp only [kept_mk_iff]
    | split
    | with_reducible first
      | (apply kept_pair; assumption) | (apply kept_opt; assumption) | (apply kept_triple; assumption)

theorem hostRead_kept {s0 : State} {addr : Nat} {s : State} (hs : Kept s0 s) :
    Kept s0 (hostRead addr s).2 := by
  unfold hostRead
  try dsimp only
  repeat' first
    | with_reducible first
      | assumption | apply rsRead_kept | apply loLatch_kept | apply kept_ite | apply kept_ite2
      | exact keptOpt_none | apply keptOpt_ite
    | simp only [kept_mk_iff]
    | split
    | with_reducible first
      | (apply kept_pair; assumption) | (apply kept_opt; assumption) | (apply kept_triple; assumption)

theorem storeReg_kept {s0 : State} {page : Nat} {off : Nat} {v : Nat} {s : State} (hs : Kept s0 s) :
    Kept s0 (storeReg page off v s) := by
  unfold storeReg
  try dsimp only
  repeat' first
    | intro _
    | with_reducible first
      | assumption | apply wr_kept | apply kept_ite | apply kept_foldl | exact keptOpt_none | apply keptOpt_ite
    | simp only [kept_mk_iff]
    | split
    | with_reducible first
      | (apply kept_pair; assumption) | (apply kept_opt; assumption) | (apply kept_triple; assumption)

theorem cmdWrite_kept {s0 : State} {p : Nat} {off : Nat} {v : Nat} {go : Nat} {busy : Fld} {refused : Fld} {op : Option (State → Host.Outcome State Fault Refusal)} {s : State} (hop : KeptOp s0 op) (hs : Kept s0 s) :
    Kept s0 (cmdWrite p off v go busy refused op s) := by
  unfold cmdWrite
  dsimp only
  split
  · exact kept_ite (wr_kept hs) hs
  · exact kept_ite (after_kept (hop.out _ rfl _ (storeReg_kept hs)) (storeReg_kept hs)) (storeReg_kept hs)

theorem stagedWrite_kept {s0 : State} {f : State → State} {s : State} (hf : ∀ y0, Kept s0 y0 → Kept s0 (f y0)) (hs : Kept s0 s) :
    Kept s0 (stagedWrite f s) := by
  unfold stagedWrite
  try dsimp only
  repeat' first
    | intro _
    | with_reducible first
      | assumption | apply wr_kept | apply hf | apply kept_ite

theorem writeAdaptCfg_kept {s0 : State} {c : Nat} {v : Nat} {s : State} (hs : Kept s0 s) :
    Kept s0 (writeAdaptCfg c v s) := by
  unfold writeAdaptCfg
  try dsimp only
  repeat' first
    | with_reducible first
      | assumption | apply adaptEnable_kept | apply storeReg_kept

theorem clearWrite_kept {s0 : State} {v : Nat} {f : State → Host.Outcome State Fault Refusal} {s : State} (hf : ∀ y0, Kept s0 y0 → KeptO s0 (f y0)) (hs : Kept s0 s) :
    Kept s0 (clearWrite v f s) := by
  unfold clearWrite
  try dsimp only
  repeat' first
    | intro _
    | with_reducible first
      | assumption | apply after_kept | apply hf | apply kept_ite

theorem writeGlb_kept {s0 : State} {off : Nat} {v : Nat} {s : State} (hs : Kept s0 s) :
    Kept s0 (writeGlb off v s) := by
  unfold writeGlb
  try dsimp only
  repeat' first
    | intro _
    | with_reducible first
      | assumption | apply fenceCmd_kept | apply execFenceCmdFence_kept | apply execFenceCmdLift_kept
      | apply execBootRelease_kept | apply storeReg_kept | apply cmdWrite_kept | exact keptOp_none
      | apply keptOp_some | apply keptOp_ite | apply kept_ite | apply kept_ite2 | apply kept_ite3
      | apply kept_foldl | apply kept_foldl2 | apply kept_foldl1
    | simp only [kept_mk_iff]
    | split
    | dsimp only
    | with_reducible first
      | (apply kept_pair; assumption) | (apply kept_opt; assumption) | (apply kept_triple; assumption)

theorem writeClk_kept {s0 : State} {off : Nat} {v : Nat} {s : State} (hs : Kept s0 s) :
    Kept s0 (writeClk off v s) := by
  unfold writeClk
  try dsimp only
  repeat' first
    | with_reducible first
      | assumption | apply execClkCfgWrite_kept | apply execFmStart_kept | apply after_kept | apply storeReg_kept
      | apply cmdWrite_kept | exact keptOp_none | apply keptOp_some | apply keptOp_ite | apply kept_ite

theorem supClear_kept {s0 : State} {s : State} (hs : Kept s0 s) :
    Kept s0 (supClear s) := by
  unfold supClear
  try dsimp only
  repeat' first
    | intro _
    | with_reducible first
      | assumption | apply wr_kept | apply kept_foldl

theorem writePwr_kept {s0 : State} {off : Nat} {v : Nat} {s : State} (hs : Kept s0 s) :
    Kept s0 (writePwr off v s) := by
  unfold writePwr
  try dsimp only
  repeat' first
    | with_reducible first
      | assumption | apply execPlRequest_kept | apply execWatchEnter_kept | apply execWatchWake_kept
      | apply storeReg_kept | apply cmdWrite_kept | apply supClear_kept | exact keptOp_none | apply keptOp_some
      | apply keptOp_ite | apply kept_ite

theorem peakRestart_kept {s0 : State} {s : State} (hs : Kept s0 s) :
    Kept s0 (peakRestart s) := by
  unfold peakRestart
  try dsimp only
  repeat' first
    | with_reducible first
      | assumption | apply wr_kept
    | simp only [kept_mk_iff]

theorem writeTmp_kept {s0 : State} {off : Nat} {v : Nat} {s : State} (hs : Kept s0 s) :
    Kept s0 (writeTmp off v s) := by
  unfold writeTmp
  try dsimp only
  repeat' first
    | with_reducible first
      | assumption | apply storeReg_kept | apply peakRestart_kept | apply kept_ite

theorem writeInt_kept {s0 : State} {fast : Bool} {off : Nat} {v : Nat} {s : State} (hs : Kept s0 s) :
    Kept s0 (writeInt fast off v s) := by
  unfold writeInt
  try dsimp only
  repeat' first
    | with_reducible first
      | assumption | apply execIntComplete_kept | apply execDoorbellWrite_kept | apply after_kept
      | apply storeReg_kept | apply kept_ite

theorem writeBst_kept {s0 : State} {off : Nat} {v : Nat} {s : State} (hs : Kept s0 s) :
    Kept s0 (writeBst off v s) := by
  unfold writeBst
  try dsimp only
  repeat' first
    | with_reducible first
      | assumption | apply execBstBobbinNow_kept | apply execBstAbort_kept | apply execBstFull_kept
      | apply execBstTestEnter_kept | apply execBstCfgWrite_kept | apply execLbCfgWrite_kept
      | apply execPrbsGenWrite_kept | apply execPrbsChkWrite_kept | apply execPrbsClr_kept | apply after_kept
      | apply storeReg_kept | apply cmdWrite_kept | apply clearWrite_kept | exact keptOp_none | apply keptOp_some
      | apply keptOp_ite | apply kept_ite | exact keptOpt_none | apply keptOpt_ite
    | simp only [kept_mk_iff]
    | split
    | with_reducible first
      | (apply kept_pair; assumption) | (apply kept_opt; assumption) | (apply kept_triple; assumption)

theorem writeSec_kept {s0 : State} {off : Nat} {v : Nat} {s : State} (hs : Kept s0 s) :
    Kept s0 (writeSec off v s) := by
  unfold writeSec
  try dsimp only
  repeat' first
    | with_reducible first
      | assumption | apply wr_kept | apply keyGo_kept | apply attGo_kept | apply storeReg_kept | apply kept_ite

theorem writePct_kept {s0 : State} {off : Nat} {v : Nat} {s : State} (hs : Kept s0 s) :
    Kept s0 (writePct off v s) := by
  unfold writePct
  try dsimp only
  repeat' first
    | with_reducible first
      | assumption | apply execPctEnumerate_kept | apply execPctGo_kept | apply storeReg_kept
      | apply cmdWrite_kept | exact keptOp_none | apply keptOp_some | apply keptOp_ite | apply kept_ite

theorem writePrk_kept {s0 : State} {off : Nat} {v : Nat} {s : State} (hs : Kept s0 s) :
    Kept s0 (writePrk off v s) := by
  unfold writePrk
  try dsimp only
  repeat' first
    | with_reducible first
      | assumption | apply wr_kept | apply execPrkCommit_kept | apply execPrkCheck_kept | apply execPrkRevert_kept
      | apply after_kept | apply storeReg_kept | apply stagedWrite_kept | apply kept_ite
    | simp only [kept_mk_iff]
    | split
    | with_reducible first
      | (apply kept_pair; assumption) | (apply kept_opt; assumption) | (apply kept_triple; assumption)

theorem writeMap_kept {s0 : State} {off : Nat} {v : Nat} {s : State} (hs : Kept s0 s) :
    Kept s0 (writeMap off v s) := by
  unfold writeMap
  try dsimp only
  repeat' first
    | with_reducible first
      | assumption | apply execSideMapWrite_kept | apply execLanePosWrite_kept | apply execSwpSwap_kept
      | apply execSwpReturn_kept | apply execSwpEnable_kept | apply execSwpDisable_kept | apply after_kept
      | apply storeReg_kept | apply cmdWrite_kept | exact keptOp_none | apply keptOp_some | apply keptOp_ite
      | apply kept_ite
    | simp only [kept_mk_iff]
    | split
    | with_reducible first
      | (apply kept_pair; assumption) | (apply kept_opt; assumption) | (apply kept_triple; assumption)

theorem writeFmc_kept {s0 : State} {off : Nat} {v : Nat} {s : State} (hs : Kept s0 s) :
    Kept s0 (writeFmc off v s) := by
  unfold writeFmc
  try dsimp only
  repeat' first
    | with_reducible first
      | assumption | apply execBtLoad_kept | apply execFlashCommand_kept | apply after_kept | apply storeReg_kept
      | apply kept_ite

theorem writeClu_kept {s0 : State} {c : Nat} {off : Nat} {v : Nat} {s : State} (hs : Kept s0 s) :
    Kept s0 (writeClu c off v s) := by
  unfold writeClu
  try dsimp only
  repeat' first
    | with_reducible first
      | assumption | apply standbySync_kept | apply execTerminationDetect_kept | apply execCntCtlClear_kept
      | apply execLeCfgWrite_kept | apply execCkToForwarded_kept | apply execCkToFallback_kept
      | apply execCkReturnOwn_kept | apply after_kept | apply storeReg_kept | apply cmdWrite_kept
      | apply clearWrite_kept | exact keptOp_none | apply keptOp_some | apply keptOp_ite | apply kept_ite
      | exact keptOpt_none | apply keptOpt_ite
    | simp only [kept_mk_iff]
    | split
    | with_reducible first
      | (apply kept_pair; assumption) | (apply kept_opt; assumption) | (apply kept_triple; assumption)

theorem writeEqa_kept {s0 : State} {c : Nat} {off : Nat} {v : Nat} {s : State} (hs : Kept s0 s) :
    Kept s0 (writeEqa c off v s) := by
  unfold writeEqa
  try dsimp only
  repeat' first
    | with_reducible first
      | assumption | apply execAdaptReacquire_kept | apply execAdaptFreeze_kept | apply execAdaptThaw_kept
      | apply execDfeSelWrite_kept | apply execCalEnd_kept | apply execCalAll_kept | apply execCalEye_kept
      | apply execCalSelWrite_kept | apply after_kept | apply storeReg_kept | apply cmdWrite_kept
      | apply writeAdaptCfg_kept | exact keptOp_none | apply keptOp_some | apply keptOp_ite | apply kept_ite
      | exact keptOpt_none | apply keptOpt_ite
    | simp only [kept_mk_iff]
    | split
    | with_reducible first
      | (apply kept_pair; assumption) | (apply kept_opt; assumption) | (apply kept_triple; assumption)

theorem writeDie_kept {s0 : State} {d : Nat} {off : Nat} {v : Nat} {s : State} (hs : Kept s0 s) :
    Kept s0 (writeDie d off v s) := by
  unfold writeDie
  try dsimp only
  repeat' first
    | with_reducible first
      | assumption | apply ceJudge_kept | apply execBufRetire_kept | apply execBufReturn_kept
      | apply execBufTestNow_kept | apply execBufClr_kept | apply execDescSelWrite_kept | apply after_kept
      | apply storeReg_kept | apply cmdWrite_kept | apply clearWrite_kept | exact keptOp_none | apply keptOp_some
      | apply keptOp_ite | apply kept_ite | exact keptOpt_none | apply keptOpt_ite
    | simp only [kept_mk_iff]
    | split
    | with_reducible first
      | (apply kept_pair; assumption) | (apply kept_opt; assumption) | (apply kept_triple; assumption)

theorem writeLnk_kept {s0 : State} {k : Nat} {off : Nat} {v : Nat} {s : State} (hs : Kept s0 s) :
    Kept s0 (writeLnk k off v s) := by
  unfold writeLnk
  try dsimp only
  repeat' first
    | with_reducible first
      | assumption | apply execTrnRetrain_kept | apply execTrnStep_kept | apply execTrnDown_kept
      | apply execTrnRestart_kept | apply execFltClr_kept | apply execDarnClr_kept | apply execTrkClr_kept
      | apply execLnkCommit_kept | apply after_kept | apply storeReg_kept | apply cmdWrite_kept
      | apply stagedWrite_kept | apply clearWrite_kept | exact keptOp_none | apply keptOp_some | apply keptOp_ite
      | apply kept_ite | exact keptOpt_none | apply keptOpt_ite
    | simp only [kept_mk_iff]
    | split
    | with_reducible first
      | (apply kept_pair; assumption) | (apply kept_opt; assumption) | (apply kept_triple; assumption)

theorem writeLlt_kept {s0 : State} {q : Nat} {off : Nat} {v : Nat} {s : State} (hs : Kept s0 s) :
    Kept s0 (writeLlt q off v s) := by
  unfold writeLlt
  try dsimp only
  repeat' first
    | intro _
    | with_reducible first
      | assumption | apply wr_kept | apply execLlClr_kept | apply storeReg_kept | apply stagedWrite_kept
      | apply clearWrite_kept | apply kept_ite

theorem writeCal_kept {s0 : State} {h : Nat} {off : Nat} {v : Nat} {s : State} (hs : Kept s0 s) :
    Kept s0 (writeCal h off v s) := by
  unfold writeCal
  try dsimp only
  repeat' first
    | intro _
    | with_reducible first
      | assumption | apply wr_kept | apply execCalClr_kept | apply storeReg_kept | apply stagedWrite_kept
      | apply clearWrite_kept | apply kept_ite

theorem writeBlock_kept {s0 : State} {p : Nat} {off : Nat} {v : Nat} {s : State} (hs : Kept s0 s) :
    Kept s0 (writeBlock p off v s) := by
  unfold writeBlock
  try dsimp only
  repeat' first
    | with_reducible first
      | assumption | apply execSrcCfgWrite_kept | apply execQstSelWrite_kept | apply after_kept
      | apply storeReg_kept | apply writeGlb_kept | apply writeClk_kept | apply writePwr_kept
      | apply writeTmp_kept | apply writeInt_kept | apply writeBst_kept | apply writeSec_kept
      | apply writePct_kept | apply writePrk_kept | apply writeMap_kept | apply writeFmc_kept
      | apply writeClu_kept | apply writeEqa_kept | apply writeDie_kept | apply writeLnk_kept
      | apply writeLlt_kept | apply writeCal_kept | apply kept_ite
    | simp only [kept_mk_iff]
    | split
    | with_reducible first
      | (apply kept_pair; assumption) | (apply kept_opt; assumption) | (apply kept_triple; assumption)

theorem softClear_kept {s0 : State} {p : Nat} {s : State} (hs : Kept s0 s) :
    Kept s0 (softClear p s) := by
  unfold softClear
  try dsimp only
  repeat' first
    | with_reducible first
      | assumption | apply zeroLive_kept | apply zeroRegs_kept | apply syncEvents_kept
    | simp only [kept_mk_iff]
    | split
    | with_reducible first
      | (apply kept_pair; assumption) | (apply kept_opt; assumption) | (apply kept_triple; assumption)

theorem endServices_kept {s0 : State} {c : Nat} {s : State} (hs : Kept s0 s) :
    Kept s0 (endServices c s) := by
  unfold endServices
  try dsimp only
  repeat' first
    | intro _
    | with_reducible first
      | assumption | apply sendTo_kept | apply bankIdle_kept | apply endService_kept | apply kept_ite
      | apply kept_foldl

theorem intSoftReset_kept {s0 : State} {fast : Bool} {s : State} (hs : Kept s0 s) :
    Kept s0 (intSoftReset fast s) := by
  unfold intSoftReset
  try dsimp only
  repeat' first
    | intro _
    | with_reducible first
      | assumption | apply endServices_kept | apply kept_ite
    | simp only [kept_mk_iff]

theorem intsSoftReset_kept {s0 : State} {s : State} (hs : Kept s0 s) :
    Kept s0 (intsSoftReset s) := by
  unfold intsSoftReset
  try dsimp only
  repeat' first
    | intro _
    | with_reducible first
      | assumption | apply wr_kept | apply unset_kept | apply relevel_kept | apply bankIdle_kept | apply kept_ite
      | apply kept_foldl
    | simp only [kept_mk_iff]

theorem eqaSoftReset_kept {s0 : State} {c : Nat} {s : State} (hs : Kept s0 s) :
    Kept s0 (eqaSoftReset c s) := by
  unfold eqaSoftReset
  try dsimp only
  repeat' first
    | with_reducible first
      | assumption | apply wr_kept | apply zeroRegs_kept | apply putCal_kept | apply calAbortAny_kept
      | apply engineNext_kept
    | simp only [kept_mk_iff]

theorem softEffects_kept {s0 : State} {p : Nat} {s : State} (hs : Kept s0 s) :
    Kept s0 (softEffects p s) := by
  unfold softEffects
  try dsimp only
  repeat' first
    | with_reducible first
      | assumption | apply wr_kept | apply zeroRegs_kept | apply fmAbort_kept | apply clearKeyData_kept
      | apply peakRestart_kept | apply intSoftReset_kept | apply intsSoftReset_kept | apply eqaSoftReset_kept
      | apply kept_ite
    | simp only [kept_mk_iff]
    | split
    | with_reducible first
      | (apply kept_pair; assumption) | (apply kept_opt; assumption) | (apply kept_triple; assumption)

theorem softReset_kept {s0 : State} {p : Nat} {s : State} (hs : Kept s0 s) :
    Kept s0 (softReset p s) := by
  unfold softReset
  try dsimp only
  repeat' first
    | with_reducible first
      | assumption | apply wr_kept | apply softClear_kept | apply kept_ite

theorem execSoftReset_kept {s0 : State} {page : Nat} {s : State} (hs : Kept s0 s) :
    KeptO s0 (execSoftReset page s) := by
  unfold execSoftReset
  try dsimp only
  repeat' first
    | with_reducible first
      | assumption | apply ifOpen_kept | apply softReset_kept | apply keptO_next | apply keptO_ite
      | exact keptO_fault

theorem hostWrite_kept {s0 : State} {addr : Nat} {v : Nat} {s : State} (hs : Kept s0 s) :
    Kept s0 (hostWrite addr v s) := by
  unfold hostWrite
  try dsimp only
  repeat' first
    | with_reducible first
      | assumption | apply syncEvents_kept | apply execClkEnWrite_kept | apply after_kept | apply storeReg_kept
      | apply writeBlock_kept | apply softReset_kept | apply kept_ite
    | simp only [kept_mk_iff]
    | split
    | with_reducible first
      | (apply kept_pair; assumption) | (apply kept_opt; assumption) | (apply kept_triple; assumption)

theorem holdAccess_kept {s0 : State} {a : HeldAccess} {s : State} (hs : Kept s0 s) :
    Kept s0 (holdAccess a s) := by
  unfold holdAccess
  try dsimp only
  repeat' first
    | with_reducible first
      | assumption
    | simp only [kept_mk_iff]

theorem execLoReadLatch_kept {s0 : State} {addr : Nat} {s : State} (hs : Kept s0 s) :
    KeptO s0 (execLoReadLatch addr s) := by
  unfold execLoReadLatch
  try dsimp only
  repeat' first
    | with_reducible first
      | assumption | apply answerWord_kept | apply hostRead_kept | apply holdAccess_kept | apply keptO_next
      | apply keptO_ite | exact keptO_fault | apply kept_ite

theorem execRegisterWrite_kept {s0 : State} {addr : Nat} {v : Nat} {s : State} (hs : Kept s0 s) :
    KeptO s0 (execRegisterWrite addr v s) := by
  unfold execRegisterWrite
  try dsimp only
  repeat' first
    | with_reducible first
      | assumption | apply hostWrite_kept | apply holdAccess_kept | apply keptO_next | apply keptO_ite
      | exact keptO_fault | apply kept_ite

end Sys2Proof.Machine
end

