-- ==== Sys2Proof/Laws/KeptHostPorts.lean ====
section
/-! SUPPORT. What the operations of Machine/HostPorts.lean keep (`Kept`). -/

namespace Sys2Proof.Machine

theorem putPort_kept {s0 : State} {s : State} {p : Nat} {v : PortSt} (hs : Kept s0 s) :
    Kept s0 (State.putPort s p v) := by
  unfold State.putPort
  try dsimp only
  repeat' first
    | with_reducible first
      | assumption | apply kept_ite
    | simp only [kept_mk_iff]

theorem freeWords_kept {s0 : State} {x0 : Nat} {x1 : State} (hx1 : Kept s0 x1) :
    Kept s0 (freeWords x0 x1).2 := by
  induction x0 generalizing x1 with
  | zero =>
    unfold freeWords
    try dsimp only
    repeat' first
      | with_reducible first
        | assumption | apply draw_kept
      | split
  | succ n ih =>
    unfold freeWords
    try dsimp only
    repeat' first
      | with_reducible first
        | assumption | apply ih | apply draw_kept
      | split

theorem portPending_kept {s0 : State} {p : Nat} {len : Nat} {s : State} (hs : Kept s0 s) :
    Kept s0 (portPending p len s) := by
  unfold portPending
  try dsimp only
  repeat' first
    | with_reducible first
      | assumption | apply putPort_kept
    | simp only [kept_mk_iff]

theorem portResult_kept {s0 : State} {p : Nat} {serial : Nat} {status : Nat} {words : List Nat} {s : State} (hs : Kept s0 s) :
    Kept s0 (portResult p serial status words s) := by
  unfold portResult
  try dsimp only
  repeat' first
    | with_reducible first
      | assumption | apply putPort_kept | apply kept_ite
    | simp only [kept_mk_iff]

theorem readWords_kept {s0 : State} {x0 : Nat} {x1 : Nat} {x2 : State} (hx2 : Kept s0 x2) :
    Kept s0 (readWords x0 x1 x2).2 := by
  induction x0 generalizing x1 x2 with
  | zero =>
    unfold readWords
    try dsimp only
    repeat' first
      | with_reducible first
        | assumption | apply hostRead_kept
      | split
  | succ n ih =>
    unfold readWords
    try dsimp only
    repeat' first
      | with_reducible first
        | assumption | apply ih | apply hostRead_kept
      | split

theorem writeWords_kept {s0 : State} {port : Nat} {x0 : List Nat} {x1 : Nat} {x2 : State} (hx2 : Kept s0 x2) :
    Kept s0 (writeWords port x0 x1 x2) := by
  induction x0 generalizing x1 x2 with
  | nil =>
    unfold writeWords
    try dsimp only
    repeat' first
      | with_reducible first
        | assumption | apply hostWrite_kept | apply holdAccess_kept | apply kept_ite
      | split
  | cons a l ih =>
    unfold writeWords
    try dsimp only
    repeat' first
      | with_reducible first
        | assumption | apply ih | apply hostWrite_kept | apply holdAccess_kept | apply kept_ite
      | split

theorem sendReq_kept {s0 : State} {r : Remote} {s : State} (hs : Kept s0 s) :
    Kept s0 (sendReq r s).2 := by
  unfold sendReq
  try dsimp only
  repeat' first
    | with_reducible first
      | assumption | apply sendTo_kept | apply kept_ite | apply kept_ite2
    | simp only [kept_mk_iff]

theorem remoteAccess_kept {s0 : State} {p : Nat} {target : Nat} {write : Bool} {addr : Nat} {words : List Nat} {s : State} (hs : Kept s0 s) :
    Kept s0 (remoteAccess p target write addr words s).2 := by
  unfold remoteAccess
  try dsimp only
  repeat' first
    | with_reducible first
      | assumption | apply putPort_kept | apply portPending_kept | apply sendReq_kept | apply kept_ite
      | apply kept_ite2
    | simp only [kept_mk_iff]

theorem remoteEnd_kept {s0 : State} {p : Nat} {r : Remote} {status : Nat} {s : State} (hs : Kept s0 s) :
    Kept s0 (remoteEnd p r status s) := by
  unfold remoteEnd
  try dsimp only
  repeat' first
    | with_reducible first
      | assumption | apply putPort_kept | apply freeWords_kept | apply portResult_kept | apply kept_ite
    | simp only [kept_mk_iff]

theorem rspArrives_kept {s0 : State} {x : Msg} {s : State} (hs : Kept s0 s) :
    Kept s0 (rspArrives x s) := by
  unfold rspArrives
  try dsimp only
  repeat' first
    | with_reducible first
      | assumption | apply putPort_kept | apply sendReq_kept | apply remoteEnd_kept | apply kept_ite
      | exact keptOpt_none | apply keptOpt_ite
    | simp only [kept_mk_iff]
    | split
    | with_reducible first
      | (apply kept_pair; assumption) | (apply kept_opt; assumption) | (apply kept_triple; assumption)

theorem execRingRsp_kept {s0 : State} {d : Nat} {msg : RingMsg} {s : State} (hs : Kept s0 s) :
    KeptO s0 (execRingRsp d msg s) := by
  unfold execRingRsp
  try dsimp only
  repeat' first
    | intro _
    | with_reducible first
      | assumption | apply onUnit_kept | apply arrive_kept | apply routed_kept | apply onRing_kept
      | apply rspArrives_kept | apply keptO_next | apply keptO_ite | exact keptO_fault | apply kept_ite
      | apply kept_ite2 | apply kept_ite3 | apply kept_foldl | apply kept_foldl2 | apply kept_foldl1
    | simp only [kept_mk_iff]
    | split
    | dsimp only
    | with_reducible first
      | (apply kept_pair; assumption) | (apply kept_opt; assumption) | (apply kept_triple; assumption)

theorem execRemoteTimeout_kept {s0 : State} {tag : Nat} {s : State} (hs : Kept s0 s) :
    KeptO s0 (execRemoteTimeout tag s) := by
  unfold execRemoteTimeout
  try dsimp only
  repeat' first
    | with_reducible first
      | assumption | apply bump_kept | apply remoteEnd_kept | apply keptO_next | apply keptO_ite
      | exact keptO_fault | apply kept_ite | exact keptOpt_none | apply keptOpt_ite
    | simp only [kept_mk_iff]
    | split
    | with_reducible first
      | (apply kept_pair; assumption) | (apply kept_opt; assumption) | (apply kept_triple; assumption)

theorem sendRsp_kept {s0 : State} {d : Nat} {tag : Nat} {status : Nat} {data : Nat} {s : State} (hs : Kept s0 s) :
    Kept s0 (sendRsp d tag status data s) := by
  unfold sendRsp
  try dsimp only
  repeat' first
    | with_reducible first
      | assumption | apply sendOn_kept

theorem ringAccess_kept {s0 : State} {d : Nat} {tag : Nat} {write : Bool} {addr : Nat} {data : Nat} {s : State} (hs : Kept s0 s) :
    Kept s0 (ringAccess d tag write addr data s) := by
  unfold ringAccess
  try dsimp only
  repeat' first
    | with_reducible first
      | assumption | apply hostRead_kept | apply hostWrite_kept | apply freeWords_kept | apply sendRsp_kept
      | apply kept_ite

theorem reqArrives_kept {s0 : State} {d : Nat} {x : Msg} {s : State} (hs : Kept s0 s) :
    Kept s0 (reqArrives d x s) := by
  unfold reqArrives
  try dsimp only
  repeat' first
    | with_reducible first
      | assumption | apply holdAccess_kept | apply freeWords_kept | apply sendRsp_kept | apply ringAccess_kept
      | apply kept_ite

theorem execRingReq_kept {s0 : State} {d : Nat} {msg : RingMsg} {s : State} (hs : Kept s0 s) :
    KeptO s0 (execRingReq d msg s) := by
  unfold execRingReq
  try dsimp only
  repeat' first
    | intro _
    | with_reducible first
      | assumption | apply onUnit_kept | apply arrive_kept | apply routed_kept | apply onRing_kept
      | apply reqArrives_kept | apply keptO_next | apply keptO_ite | exact keptO_fault | apply kept_ite
      | apply kept_ite2 | apply kept_ite3 | apply kept_foldl | apply kept_foldl2 | apply kept_foldl1
    | simp only [kept_mk_iff]
    | split
    | dsimp only
    | with_reducible first
      | (apply kept_pair; assumption) | (apply kept_opt; assumption) | (apply kept_triple; assumption)

theorem portRead_kept {s0 : State} {p : Nat} {target : Nat} {addr : Nat} {n : Nat} {late : Bool} {s : State} (hs : Kept s0 s) :
    Kept s0 (portRead p target addr n late s).2.2 := by
  unfold portRead
  try dsimp only
  repeat' first
    | with_reducible first
      | assumption | apply holdAccess_kept | apply freeWords_kept | apply portPending_kept | apply portResult_kept
      | apply readWords_kept | apply remoteAccess_kept | apply kept_ite | apply kept_ite2 | apply kept_ite3

theorem portWrite_kept {s0 : State} {p : Nat} {target : Nat} {addr : Nat} {words : List Nat} {s : State} (hs : Kept s0 s) :
    Kept s0 (portWrite p target addr words s).2 := by
  unfold portWrite
  try dsimp only
  repeat' first
    | with_reducible first
      | assumption | apply writeWords_kept | apply remoteAccess_kept | apply kept_ite | apply kept_ite2

theorem portFetch_kept {s0 : State} {p : Nat} {s : State} (hs : Kept s0 s) :
    Kept s0 (portFetch p s).2.2 := by
  unfold portFetch
  try dsimp only
  repeat' first
    | with_reducible first
      | assumption | apply freeWords_kept | apply kept_ite | apply kept_ite2 | apply kept_ite3
      | exact keptOpt_none | apply keptOpt_ite
    | simp only [kept_mk_iff]
    | split
    | with_reducible first
      | (apply kept_pair; assumption) | (apply kept_opt; assumption) | (apply kept_triple; assumption)

theorem spiAnswer_kept {s0 : State} {reads : Bool} {status : Nat} {words : List Nat} {s : State} (hs : Kept s0 s) :
    Kept s0 (spiAnswer reads status words s) := by
  unfold spiAnswer
  try dsimp only
  repeat' first
    | with_reducible first
      | assumption | apply kept_ite
    | simp only [kept_mk_iff]

theorem spiDone_kept {s0 : State} {isStatus : Bool} {reads : Bool} {r : Nat × List Nat × State} (hr : Kept s0 r.2.2) :
    Kept s0 (spiDone isStatus reads r) := by
  unfold spiDone
  try dsimp only
  repeat' first
    | with_reducible first
      | assumption | apply wr_kept | apply putPort_kept | apply spiAnswer_kept | apply kept_ite
    | simp only [kept_mk_iff]

theorem spiFrame_kept {s0 : State} {op : Nat} {quad : Bool} {addr : Nat} {data : List Nat} {crc : Nat} {n : Nat} {isStatus : Bool} {reads : Bool} {act : State → Nat × List Nat × State} {s : State} (hact : ∀ y0, Kept s0 y0 → Kept s0 (act y0).2.2) (hs : Kept s0 s) :
    Kept s0 (spiFrame op quad addr data crc n isStatus reads act s) := by
  unfold spiFrame
  try dsimp only
  repeat' first
    | intro _
    | with_reducible first
      | assumption | apply bump_kept | apply freshOut_kept | apply spiDone_kept | apply hact | apply kept_ite

theorem singleOnly_kept {s0 : State} {addr : Nat} {n : Nat} {s : State} {r : Nat × List Nat × State} (hs : Kept s0 s) (hr : Kept s0 r.2.2) :
    Kept s0 (singleOnly addr n s r).2.2 := by
  unfold singleOnly
  try dsimp only
  repeat' first
    | with_reducible first
      | assumption | apply freeWords_kept | apply kept_ite | apply kept_ite2 | apply kept_ite3

theorem execSpiWrite_kept {s0 : State} {quad : Bool} {addr : Nat} {data : Nat} {crc : Nat} {s : State} (hs : Kept s0 s) :
    KeptO s0 (execSpiWrite quad addr data crc s) := by
  unfold execSpiWrite
  try dsimp only
  repeat' first
    | intro _
    | with_reducible first
      | assumption | apply portWrite_kept | apply spiFrame_kept | apply singleOnly_kept | apply keptO_next
      | apply keptO_ite | exact keptO_fault

theorem execSpiRead_kept {s0 : State} {quad : Bool} {addr : Nat} {crc : Nat} {late : Bool} {s : State} (hs : Kept s0 s) :
    KeptO s0 (execSpiRead quad addr crc late s) := by
  unfold execSpiRead
  try dsimp only
  repeat' first
    | intro _
    | with_reducible first
      | assumption | apply portRead_kept | apply spiFrame_kept | apply singleOnly_kept | apply keptO_next
      | apply keptO_ite | exact keptO_fault

theorem execSpiWriteBlock_kept {s0 : State} {quad : Bool} {addr : Nat} {data : List Nat} {crc : Nat} {s : State} (hs : Kept s0 s) :
    KeptO s0 (execSpiWriteBlock quad addr data crc s) := by
  unfold execSpiWriteBlock
  try dsimp only
  repeat' first
    | intro _
    | with_reducible first
      | assumption | apply portWrite_kept | apply spiFrame_kept | apply keptO_next | apply keptO_ite
      | exact keptO_fault | apply kept_ite

theorem execSpiReadBlock_kept {s0 : State} {quad : Bool} {addr : Nat} {crc : Nat} {late : Bool} {s : State} (hs : Kept s0 s) :
    KeptO s0 (execSpiReadBlock quad addr crc late s) := by
  unfold execSpiReadBlock
  try dsimp only
  repeat' first
    | intro _
    | with_reducible first
      | assumption | apply portRead_kept | apply spiFrame_kept | apply keptO_next | apply keptO_ite
      | exact keptO_fault

theorem execSpiFetch_kept {s0 : State} {quad : Bool} {addr : Nat} {crc : Nat} {s : State} (hs : Kept s0 s) :
    KeptO s0 (execSpiFetch quad addr crc s) := by
  unfold execSpiFetch
  try dsimp only
  repeat' first
    | intro _
    | with_reducible first
      | assumption | apply portFetch_kept | apply spiFrame_kept | apply keptO_next | apply keptO_ite
      | exact keptO_fault | apply kept_ite | apply kept_ite2 | apply kept_ite3 | apply kept_foldl
      | apply kept_foldl2 | apply kept_foldl1
    | simp only [kept_mk_iff]
    | split
    | dsimp only
    | with_reducible first
      | (apply kept_pair; assumption) | (apply kept_opt; assumption) | (apply kept_triple; assumption)

theorem execSpiStatus_kept {s0 : State} {quad : Bool} {addr : Nat} {crc : Nat} {s : State} (hs : Kept s0 s) :
    KeptO s0 (execSpiStatus quad addr crc s) := by
  unfold execSpiStatus
  try dsimp only
  repeat' first
    | intro _
    | with_reducible first
      | assumption | apply spiFrame_kept | apply singleOnly_kept | apply keptO_next | apply keptO_ite
      | exact keptO_fault

theorem execSpiBadOpcode_kept {s0 : State} {op : Nat} {s : State} (hs : Kept s0 s) :
    KeptO s0 (execSpiBadOpcode op s) := by
  unfold execSpiBadOpcode
  try dsimp only
  repeat' first
    | with_reducible first
      | assumption | apply bump_kept | apply keptO_next | apply keptO_ite | exact keptO_fault | apply kept_ite

theorem smbDone_kept {s0 : State} {status : Nat} {s : State} (hs : Kept s0 s) :
    Kept s0 (smbDone status s) := by
  unfold smbDone
  try dsimp only
  repeat' first
    | with_reducible first
      | assumption | apply wr_kept | apply bump_kept | apply putPort_kept
    | simp only [kept_mk_iff]

theorem smbBlockWrite_kept {s0 : State} {cmd : Nat} {data : Nat} {pec : Option Nat} {act : State → Nat × State} {s : State} (hact : ∀ y0, Kept s0 y0 → Kept s0 (act y0).2) (hs : Kept s0 s) :
    Kept s0 (smbBlockWrite cmd data pec act s) := by
  unfold smbBlockWrite
  try dsimp only
  repeat' first
    | intro _
    | with_reducible first
      | assumption | apply bump_kept | apply freshOut_kept | apply smbDone_kept | apply hact | apply kept_ite

theorem execSmbPointer_kept {s0 : State} {ptr : Nat} {pec : Option Nat} {s : State} (hs : Kept s0 s) :
    KeptO s0 (execSmbPointer ptr pec s) := by
  unfold execSmbPointer
  try dsimp only
  repeat' first
    | intro _
    | with_reducible first
      | assumption | apply smbBlockWrite_kept | apply keptO_next | apply keptO_ite | exact keptO_fault
      | apply kept_ite | apply kept_ite2 | apply kept_ite3 | apply kept_foldl | apply kept_foldl2
      | apply kept_foldl1
    | simp only [kept_mk_iff]
    | split
    | dsimp only
    | with_reducible first
      | (apply kept_pair; assumption) | (apply kept_opt; assumption) | (apply kept_triple; assumption)

theorem smbStep_kept {s0 : State} {status : Nat} {s : State} (hs : Kept s0 s) :
    Kept s0 (smbStep status s) := by
  unfold smbStep
  try dsimp only
  repeat' first
    | with_reducible first
      | assumption | apply kept_ite
    | simp only [kept_mk_iff]

theorem execSmbWrite_kept {s0 : State} {data : Nat} {pec : Option Nat} {s : State} (hs : Kept s0 s) :
    KeptO s0 (execSmbWrite data pec s) := by
  unfold execSmbWrite
  try dsimp only
  repeat' first
    | intro _
    | with_reducible first
      | assumption | apply portWrite_kept | apply smbBlockWrite_kept | apply keptO_next | apply keptO_ite
      | exact keptO_fault | apply kept_ite
    | simp only [kept_mk_iff]

theorem smbAnswer_kept {s0 : State} {cmd : Nat} {status : Nat} {word : Nat} {s : State} (hs : Kept s0 s) :
    Kept s0 (smbAnswer cmd status word s) := by
  unfold smbAnswer
  try dsimp only
  repeat' first
    | with_reducible first
      | assumption
    | simp only [kept_mk_iff]

theorem execSmbRead_kept {s0 : State} {late : Bool} {s : State} (hs : Kept s0 s) :
    KeptO s0 (execSmbRead late s) := by
  unfold execSmbRead
  try dsimp only
  repeat' first
    | with_reducible first
      | assumption | apply freshOut_kept | apply portRead_kept | apply smbDone_kept | apply smbStep_kept
      | apply smbAnswer_kept | apply keptO_next | apply keptO_ite | exact keptO_fault | apply kept_ite

theorem execSmbFetch_kept {s0 : State} {s : State} (hs : Kept s0 s) :
    KeptO s0 (execSmbFetch s) := by
  unfold execSmbFetch
  try dsimp only
  repeat' first
    | with_reducible first
      | assumption | apply portFetch_kept | apply smbDone_kept | apply smbAnswer_kept | apply keptO_next
      | apply keptO_ite | exact keptO_fault | apply kept_ite

theorem execSmbStatus_kept {s0 : State} {s : State} (hs : Kept s0 s) :
    KeptO s0 (execSmbStatus s) := by
  unfold execSmbStatus
  try dsimp only
  repeat' first
    | with_reducible first
      | assumption | apply keptO_next | apply keptO_ite | exact keptO_fault | apply kept_ite
    | simp only [kept_mk_iff]

theorem execSmbBusTimeout_kept {s0 : State} {s : State} (hs : Kept s0 s) :
    KeptO s0 (execSmbBusTimeout s) := by
  unfold execSmbBusTimeout
  try dsimp only
  repeat' first
    | with_reducible first
      | assumption | apply bump_kept | apply keptO_next | apply keptO_ite | exact keptO_fault | apply kept_ite

theorem runAccess_kept {s0 : State} {s : State} {a : HeldAccess} (hs : Kept s0 s) :
    Kept s0 (runAccess s a) := by
  unfold runAccess
  try dsimp only
  repeat' first
    | with_reducible first
      | assumption | apply answerWord_kept | apply holdAccess_kept | apply portResult_kept | apply readWords_kept
      | apply writeWords_kept | apply ringAccess_kept | apply kept_ite

theorem execSoftResetDone_kept {s0 : State} {page : Nat} {s : State} (hs : Kept s0 s) :
    KeptO s0 (execSoftResetDone page s) := by
  unfold execSoftResetDone
  try dsimp only
  repeat' first
    | intro _
    | with_reducible first
      | assumption | apply wr_kept | apply freshOut_kept | apply softEffects_kept | apply runAccess_kept
      | apply keptO_next | apply keptO_ite | exact keptO_fault | apply kept_ite | apply kept_foldl
    | simp only [kept_mk_iff]

end Sys2Proof.Machine
end

