-- ==== Sys2Proof/Laws/KeptSelvedge.lean ====
section
/-! SUPPORT. What the operations of Machine/Selvedge.lean keep (`Kept`). -/

namespace Sys2Proof.Machine

theorem selFail_kept {s0 : State} {k : Nat} {sd : Nat} {cause : Nat} {slot : Nat} {s : State} (hs : Kept s0 s) :
    Kept s0 (selFail k sd cause slot s) := by
  unfold selFail
  try dsimp only
  repeat' first
    | with_reducible first
      | assumption | apply wr_kept | apply bump_kept | apply raise_kept

theorem selSetQueue_kept {s0 : State} {q : List SelReq} {s : State} (hs : Kept s0 s) :
    Kept s0 (selSetQueue q s) := by
  unfold selSetQueue
  try dsimp only
  repeat' first
    | with_reducible first
      | assumption | apply wr_kept
    | simp only [kept_mk_iff]

theorem selAccept_kept {s0 : State} {k : Nat} {sd : Nat} {f : List Nat} {s : State} (hs : Kept s0 s) :
    Kept s0 (selAccept k sd f s) := by
  unfold selAccept
  try dsimp only
  repeat' first
    | with_reducible first
      | assumption | apply bump_kept | apply putLive_kept | apply selSetQueue_kept | apply kept_ite

theorem selFrame_kept {s0 : State} {k : Nat} {sd : Nat} {f : List Nat} {s : State} (hs : Kept s0 s) :
    Kept s0 (selFrame k sd f s) := by
  unfold selFrame
  try dsimp only
  repeat' first
    | with_reducible first
      | assumption | apply bump_kept | apply selFail_kept | apply selAccept_kept | apply kept_ite

theorem selReceive_kept {s0 : State} {kind : Nat} {k : Nat} {sd : Side} {heard : List Heard} {s : State} (hs : Kept s0 s) :
    Kept s0 (selReceive kind k sd heard s) := by
  unfold selReceive
  try dsimp only
  repeat' first
    | with_reducible first
      | assumption | apply setArrives_kept | apply selFrame_kept | apply kept_ite | exact keptOpt_none
      | apply keptOpt_ite
    | simp only [kept_mk_iff]
    | split
    | with_reducible first
      | (apply kept_pair; assumption) | (apply kept_opt; assumption) | (apply kept_triple; assumption)

theorem execSelReadReq_kept {s0 : State} {k : Nat} {sd : Side} {heard : List Heard} {s : State} (hs : Kept s0 s) :
    KeptO s0 (execSelReadReq k sd heard s) := by
  unfold execSelReadReq
  try dsimp only
  repeat' first
    | with_reducible first
      | assumption | apply onUnit_kept | apply selReceive_kept | apply keptO_next | apply keptO_ite
      | exact keptO_fault

theorem execSelWriteReq_kept {s0 : State} {k : Nat} {sd : Side} {heard : List Heard} {s : State} (hs : Kept s0 s) :
    KeptO s0 (execSelWriteReq k sd heard s) := by
  unfold execSelWriteReq
  try dsimp only
  repeat' first
    | with_reducible first
      | assumption | apply onUnit_kept | apply selReceive_kept | apply keptO_next | apply keptO_ite
      | exact keptO_fault

theorem execSelAttestReq_kept {s0 : State} {k : Nat} {sd : Side} {heard : List Heard} {s : State} (hs : Kept s0 s) :
    KeptO s0 (execSelAttestReq k sd heard s) := by
  unfold execSelAttestReq
  try dsimp only
  repeat' first
    | with_reducible first
      | assumption | apply onUnit_kept | apply selReceive_kept | apply keptO_next | apply keptO_ite
      | exact keptO_fault

theorem selRespond_kept {s0 : State} {q : SelReq} {status : Nat} {payload : List Nat} {s : State} (hs : Kept s0 s) :
    Kept s0 (selRespond q status payload s) := by
  unfold selRespond
  try dsimp only
  repeat' first
    | intro _
    | with_reducible first
      | assumption | apply bump_kept | apply putSide_kept | apply freeWords_kept | apply selSetQueue_kept
      | apply kept_ite | exact keptOpt_none | apply keptOpt_ite
    | simp only [kept_mk_iff]
    | split
    | with_reducible first
      | (apply kept_pair; assumption) | (apply kept_opt; assumption) | (apply kept_triple; assumption)

theorem selProgress_kept {s0 : State} {q : SelReq} {s : State} (hs : Kept s0 s) :
    Kept s0 (selProgress q s) := by
  unfold selProgress
  try dsimp only
  repeat' first
    | with_reducible first
      | assumption
    | simp only [kept_mk_iff]

theorem selServeWords_kept {s0 : State} {write : Bool} {x0 : Nat} {x1 : SelReq} {x2 : State} (hx2 : Kept s0 x2) :
    Kept s0 (selServeWords write x0 x1 x2) := by
  induction x0 generalizing x1 x2 with
  | zero =>
    unfold selServeWords
    try dsimp only
    repeat' first
      | with_reducible first
        | assumption | apply hostRead_kept | apply hostWrite_kept | apply selRespond_kept | apply selProgress_kept
        | apply kept_ite
      | simp only [kept_mk_iff]
      | split
  | succ n ih =>
    unfold selServeWords
    try dsimp only
    repeat' first
      | with_reducible first
        | assumption | apply ih | apply hostRead_kept | apply hostWrite_kept | apply selRespond_kept | apply selProgress_kept
        | apply kept_ite
      | simp only [kept_mk_iff]
      | split

theorem selServeAttest_kept {s0 : State} {q : SelReq} {s : State} (hs : Kept s0 s) :
    Kept s0 (selServeAttest q s) := by
  unfold selServeAttest
  try dsimp only
  repeat' first
    | intro _
    | with_reducible first
      | assumption | apply startReport_kept | apply freeWords_kept | apply selRespond_kept | apply kept_ite

theorem execSelRequestServe_kept {s0 : State} {s : State} (hs : Kept s0 s) :
    KeptO s0 (execSelRequestServe s) := by
  unfold execSelRequestServe
  try dsimp only
  repeat' first
    | with_reducible first
      | assumption | apply freshOut_kept | apply selServeWords_kept | apply selServeAttest_kept | apply keptO_next
      | apply keptO_ite | exact keptO_fault | apply kept_ite
    | simp only [kept_mk_iff]
    | split
    | with_reducible first
      | (apply kept_pair; assumption) | (apply kept_opt; assumption) | (apply kept_triple; assumption)

end Sys2Proof.Machine
end

