-- ==== Sys2Proof/Laws/SameBase.lean ====
section
/-!
SUPPORT. What every operation leaves alone. One lemma per operation, `<operation>_same`: it leaves every part of the state as
it is but those of a mask; this file holds the relation and the primitive updates.
-/

namespace Sys2Proof.Machine

/-- Every bit of the first mask is a bit of the second. -/
structure Sub (w m : Nat) : Prop where
  out : ∀ i, w.testBit i = true → m.testBit i = true

theorem Sub.of {w w' m : Nat} (h : Sub w m) (e : w' &&& w = w') : Sub w' m := by
  refine ⟨fun i hi => ?_⟩
  apply h.out
  rw [← e, Nat.testBit_and] at hi
  simp only [Bool.and_eq_true] at hi
  exact hi.2

theorem Sub.bit {w m i : Nat} (h : Sub w m) (e : w.testBit i = true) : m.testBit i = true := h.out i e

/-- From `s0` to `s` every part outside the mask is the same. -/
structure Same (M : Nat) (s0 s : State) : Prop where
  out : ∀ p : StatePart, M.testBit p.bit = false → samePart p s0 s

/-- An outcome that is a next state leaves what `Same` says. -/
structure SameO (M : Nat) (s0 : State) (o : Host.Outcome State Fault Refusal) : Prop where
  out : ∀ t, o = .next t → Same M s0 t

theorem Same.rfl {M : Nat} {s : State} : Same M s s := ⟨fun p _ => by cases p <;> exact Eq.refl _⟩

/-- `Same` of a state that is written out field by field: a name of its own, so that only such states are taken apart. -/
def SameMk (M : Nat) (s0 s : State) : Prop := Same M s0 s

theorem same_mk_iff {M : Nat} {s0 : State} {pending' regs' cnt' freeCtr' fab' clock' fuse' dev' slots' dies' flows' trunks' lls' sides' spans' links' rx' tx' cks' ckEnds' coef' adapt' cal' maps' bobs' prk' bt' plv' clk' ring' entries' host' sel' sec' bist' prbs' sup'} :
    Same M s0 (State.mk regs' cnt' pending' freeCtr' fab' clock' fuse' dev' slots' dies' flows' trunks' lls' sides' spans' links' rx' tx' cks' ckEnds' coef' adapt' cal' maps' bobs' prk' bt' plv' clk' ring' entries' host' sel' sec' bist' prbs' sup') ↔ SameMk M s0 (State.mk regs' cnt' pending' freeCtr' fab' clock' fuse' dev' slots' dies' flows' trunks' lls' sides' spans' links' rx' tx' cks' ckEnds' coef' adapt' cal' maps' bobs' prk' bt' plv' clk' ring' entries' host' sel' sec' bist' prbs' sup') := Iff.rfl

theorem sameMk {M : Nat} {s0 s : State} {regs' cnt' freeCtr' fab' clock' fuse' dev' slots' dies' flows' trunks' lls' sides' spans' links' rx' tx' cks' ckEnds' coef' adapt' cal' maps' bobs' prk' bt' plv' clk' ring' entries' host' sel' sec' bist' prbs' sup'} (h : Same M s0 s)
    (h0 : M.testBit 0 = true ∨ regs' = s.regs)
    (h1 : M.testBit 1 = true ∨ cnt' = s.cnt)
    (h2 : M.testBit 2 = true ∨ freeCtr' = s.freeCtr)
    (h3 : M.testBit 3 = true ∨ fab' = s.fab)
    (h4 : M.testBit 4 = true ∨ clock' = s.clock)
    (h5 : M.testBit 5 = true ∨ fuse' = s.fuse)
    (h6 : M.testBit 6 = true ∨ dev' = s.dev)
    (h7 : M.testBit 7 = true ∨ slots' = s.slots)
    (h8 : M.testBit 8 = true ∨ dies' = s.dies)
    (h9 : M.testBit 9 = true ∨ flows' = s.flows)
    (h10 : M.testBit 10 = true ∨ trunks' = s.trunks)
    (h11 : M.testBit 11 = true ∨ lls' = s.lls)
    (h12 : M.testBit 12 = true ∨ sides' = s.sides)
    (h13 : M.testBit 13 = true ∨ spans' = s.spans)
    (h14 : M.testBit 14 = true ∨ links' = s.links)
    (h15 : M.testBit 15 = true ∨ rx' = s.rx)
    (h16 : M.testBit 16 = true ∨ tx' = s.tx)
    (h17 : M.testBit 17 = true ∨ cks' = s.cks)
    (h18 : M.testBit 18 = true ∨ ckEnds' = s.ckEnds)
    (h19 : M.testBit 19 = true ∨ coef' = s.coef)
    (h20 : M.testBit 20 = true ∨ adapt' = s.adapt)
    (h21 : M.testBit 21 = true ∨ cal' = s.cal)
    (h22 : M.testBit 22 = true ∨ maps' = s.maps)
    (h23 : M.testBit 23 = true ∨ bobs' = s.bobs)
    (h24 : M.testBit 24 = true ∨ prk' = s.prk)
    (h25 : M.testBit 25 = true ∨ bt' = s.bt)
    (h26 : M.testBit 26 = true ∨ plv' = s.plv)
    (h27 : M.testBit 27 = true ∨ clk' = s.clk)
    (h28 : M.testBit 28 = true ∨ ring' = s.ring)
    (h29 : M.testBit 29 = true ∨ entries' = s.entries)
    (h30 : M.testBit 30 = true ∨ host' = s.host)
    (h31 : M.testBit 31 = true ∨ sel' = s.sel)
    (h32 : M.testBit 32 = true ∨ sec' = s.sec)
    (h33 : M.testBit 33 = true ∨ bist' = s.bist)
    (h34 : M.testBit 34 = true ∨ prbs' = s.prbs)
    (h35 : M.testBit 35 = true ∨ sup' = s.sup)
    (h36 : M.testBit 36 = true ∨ dev'.phase = s.dev.phase) :
    SameMk M s0 (State.mk regs' cnt' s.pending freeCtr' fab' clock' fuse' dev' slots' dies' flows' trunks' lls' sides' spans' links' rx' tx' cks' ckEnds' coef' adapt' cal' maps' bobs' prk' bt' plv' clk' ring' entries' host' sel' sec' bist' prbs' sup') := by
  refine ⟨fun p hp => ?_⟩
  have hs := h.out p hp
  have key : ∀ {α : Type} {i : Nat} {a b c : α}, M.testBit i = false → (M.testBit i = true ∨ a = b) → b = c → a = c := by
    intro α i a b c h1 h2 h3
    rcases h2 with h2 | h2
    · rw [h1] at h2; cases h2
    · exact h2.trans h3
  cases p with
  | regs => exact key hp h0 hs
  | cnt => exact key hp h1 hs
  | freeCtr => exact key hp h2 hs
  | fab => exact key hp h3 hs
  | clock => exact key hp h4 hs
  | fuse => exact key hp h5 hs
  | dev => exact key hp h6 hs
  | slots => exact key hp h7 hs
  | dies => exact key hp h8 hs
  | flows => exact key hp h9 hs
  | trunks => exact key hp h10 hs
  | lls => exact key hp h11 hs
  | sides => exact key hp h12 hs
  | spans => exact key hp h13 hs
  | links => exact key hp h14 hs
  | rx => exact key hp h15 hs
  | tx => exact key hp h16 hs
  | cks => exact key hp h17 hs
  | ckEnds => exact key hp h18 hs
  | coef => exact key hp h19 hs
  | adapt => exact key hp h20 hs
  | cal => exact key hp h21 hs
  | maps => exact key hp h22 hs
  | bobs => exact key hp h23 hs
  | prk => exact key hp h24 hs
  | bt => exact key hp h25 hs
  | plv => exact key hp h26 hs
  | clk => exact key hp h27 hs
  | ring => exact key hp h28 hs
  | entries => exact key hp h29 hs
  | host => exact key hp h30 hs
  | sel => exact key hp h31 hs
  | sec => exact key hp h32 hs
  | bist => exact key hp h33 hs
  | prbs => exact key hp h34 hs
  | sup => exact key hp h35 hs
  | phase => exact key hp h36 hs

theorem same_ite {M : Nat} {s0 a b : State} {c : Prop} [Decidable c] (ha : Same M s0 a) (hb : Same M s0 b) :
    Same M s0 (if c then a else b) := by
  split
  · exact ha
  · exact hb

theorem same_ite2 {α : Type} {M : Nat} {s0 : State} {a b : α × State} {c : Prop} [Decidable c] (ha : Same M s0 a.2) (hb : Same M s0 b.2) :
    Same M s0 (if c then a else b).2 := by
  split
  · exact ha
  · exact hb

theorem same_ite3 {α β : Type} {M : Nat} {s0 : State} {a b : α × β × State} {c : Prop} [Decidable c] (ha : Same M s0 a.2.2)
    (hb : Same M s0 b.2.2) : Same M s0 (if c then a else b).2.2 := by
  split
  · exact ha
  · exact hb

theorem same_pair {α : Type} {M : Nat} {s0 s : State} {p : α × State} {a : α} (e : p = (a, s)) (h : Same M s0 p.2) : Same M s0 s := by
  subst e
  exact h

theorem same_triple {α β : Type} {M : Nat} {s0 s : State} {p : α × β × State} {a : α} {b : β} (e : p = (a, b, s))
    (h : Same M s0 p.2.2) : Same M s0 s := by
  subst e
  exact h

/-- What an optional result with a state keeps. -/
structure SameOpt {α : Type} (M : Nat) (s0 : State) (o : Option (α × State)) : Prop where
  out : ∀ x t, o = some (x, t) → Same M s0 t

theorem sameOpt_none {α : Type} {M : Nat} {s0 : State} : SameOpt (α := α) M s0 none := ⟨fun _ _ h => nomatch h⟩
theorem sameOpt_some {α : Type} {M : Nat} {s0 s : State} {a : α} (h : Same M s0 s) : SameOpt M s0 (some (a, s)) := by
  refine ⟨fun x t e => ?_⟩
  cases e
  exact h
theorem sameOpt_someP {α : Type} {M : Nat} {s0 : State} {p : α × State} (h : Same M s0 p.2) : SameOpt M s0 (some p) := by
  refine ⟨fun x t e => ?_⟩
  cases e
  exact h
theorem sameOpt_ite {α : Type} {M : Nat} {s0 : State} {a b : Option (α × State)} {c : Prop} [Decidable c] (ha : SameOpt M s0 a)
    (hb : SameOpt M s0 b) : SameOpt M s0 (if c then a else b) := by
  split
  · exact ha
  · exact hb
theorem same_opt {α : Type} {M : Nat} {s0 s : State} {p : Option (α × State)} {a : α} (e : p = some (a, s)) (h : SameOpt M s0 p) :
    Same M s0 s := h.out _ _ e
theorem same_opt_fst {α : Type} {M : Nat} {s0 : State} {p : Option (α × State)} {a : α × State} (e : p = some a) (h : SameOpt M s0 p) :
    Same M s0 a.2 := h.out a.1 a.2 e

theorem same_foldl {α : Type} {M : Nat} {s0 : State} {f : State → α → State} (hf : ∀ s a, Same M s0 s → Same M s0 (f s a)) :
    ∀ (l : List α) {s : State}, Same M s0 s → Same M s0 (l.foldl f s)
  | [], _, h => h
  | a :: l, _, h => same_foldl hf l (hf _ a h)

/-- A fold that carries a value beside the state. -/
theorem same_foldl2 {α β : Type} {M : Nat} {s0 : State} {f : β × State → α → β × State}
    (hf : ∀ p a, Same M s0 p.2 → Same M s0 (f p a).2) : ∀ (l : List α) {p : β × State}, Same M s0 p.2 → Same M s0 (l.foldl f p).2
  | [], _, h => h
  | a :: l, _, h => same_foldl2 hf l (hf _ a h)

theorem same_foldl1 {α β : Type} {M : Nat} {s0 : State} {f : State × β → α → State × β}
    (hf : ∀ p a, Same M s0 p.1 → Same M s0 (f p a).1) : ∀ (l : List α) {p : State × β}, Same M s0 p.1 → Same M s0 (l.foldl f p).1
  | [], _, h => h
  | a :: l, _, h => same_foldl1 hf l (hf _ a h)

theorem sameO_next {M : Nat} {s0 t : State} (h : Same M s0 t) : SameO M s0 (.next t) := by
  refine ⟨fun u e => ?_⟩
  cases e
  exact h
theorem sameO_fault {M : Nat} {s0 : State} {r : Fault} : SameO M s0 (.fault r) := ⟨fun _ e => nomatch e⟩
theorem sameO_ite {M : Nat} {s0 : State} {a b : Host.Outcome State Fault Refusal} {c : Prop} [Decidable c] (ha : SameO M s0 a)
    (hb : SameO M s0 b) : SameO M s0 (if c then a else b) := by
  split
  · exact ha
  · exact hb
/-- What an optional operation keeps. -/
structure SameOp (M : Nat) (s0 : State) (o : Option (State → Host.Outcome State Fault Refusal)) : Prop where
  out : ∀ f, o = some f → ∀ s, Same M s0 s → SameO M s0 (f s)

theorem sameOp_none {M : Nat} {s0 : State} : SameOp M s0 none := ⟨fun _ h => nomatch h⟩
theorem sameOp_some {M : Nat} {s0 : State} {f : State → Host.Outcome State Fault Refusal} (h : ∀ s, Same M s0 s → SameO M s0 (f s)) :
    SameOp M s0 (some f) := by
  refine ⟨fun g e => ?_⟩
  cases e
  exact h
theorem sameOp_ite {M : Nat} {s0 : State} {a b : Option (State → Host.Outcome State Fault Refusal)} {c : Prop} [Decidable c]
    (ha : SameOp M s0 a) (hb : SameOp M s0 b) : SameOp M s0 (if c then a else b) := by
  split
  · exact ha
  · exact hb
theorem onUnit_same {M : Nat} {s0 t : State} {p : Bool} (_ : Sub 0 M) (h : Same M s0 t) : SameO M s0 (onUnit p t) := by
  unfold onUnit
  split
  · exact sameO_next h
  · exact sameO_fault

theorem wr_same {M : Nat} {s0 s : State} {f : Fld} {v : Nat} (hM : Sub 0x1 M) (h : Same M s0 s) : Same M s0 (s.wr f v) := by
  unfold State.wr
  apply sameMk h <;> first | exact Or.inr rfl | exact Or.inl (hM.bit (by decide))

theorem unset_same {M : Nat} {s0 s : State} {f : Fld} (hM : Sub 0x1 M) (h : Same M s0 s) : Same M s0 (s.unset f) := by
  unfold State.unset
  apply sameMk h <;> first | exact Or.inr rfl | exact Or.inl (hM.bit (by decide))

theorem putLive_same {M : Nat} {s0 s : State} {f : Fld} {v : Nat} (hM : Sub 0x2 M) (h : Same M s0 s) : Same M s0 (s.putLive f v) := by
  unfold State.putLive
  apply sameMk h <;> first | exact Or.inr rfl | exact Or.inl (hM.bit (by decide))

end Sys2Proof.Machine
end

