-- ==== Sys2Proof/Laws/SameOps.lean ====
section
/-! SUPPORT. What the operations of Machine/Ops.lean leave as it is (`Same`). -/

namespace Sys2Proof.Machine

theorem wrB_same {M : Nat} {s0 : State} {s : State} {f : Fld} {b : Bool} (hM : Sub 0x1 M) (hs : Same M s0 s) :
    Same M s0 (State.wrB s f b) := by
  unfold State.wrB
  try dsimp only
  repeat' first
    | intro _
    | with_reducible first
      | assumption | exact hM.of (by decide)
    | with_reducible first
      | apply wr_same

theorem bump_same {M : Nat} {s0 : State} {s : State} {f : Fld} (hM : Sub 0x1 M) (hs : Same M s0 s) :
    Same M s0 (State.bump s f) := by
  unfold State.bump
  try dsimp only
  repeat' first
    | intro _
    | with_reducible first
      | assumption | exact hM.of (by decide)
    | with_reducible first
      | apply wr_same | apply same_ite

theorem bumpBy_same {M : Nat} {s0 : State} {s : State} {f : Fld} {n : Nat} (hM : Sub 0x1 M) (hs : Same M s0 s) :
    Same M s0 (State.bumpBy s f n) := by
  unfold State.bumpBy
  try dsimp only
  repeat' first
    | intro _
    | with_reducible first
      | assumption | exact hM.of (by decide)
    | with_reducible first
      | apply wr_same

theorem bumpWrap_same {M : Nat} {s0 : State} {s : State} {f : Fld} (hM : Sub 0x1 M) (hs : Same M s0 s) :
    Same M s0 (State.bumpWrap s f) := by
  unfold State.bumpWrap
  try dsimp only
  repeat' first
    | intro _
    | with_reducible first
      | assumption | exact hM.of (by decide)
    | with_reducible first
      | apply wr_same

theorem count_same {M : Nat} {s0 : State} {s : State} {f : Fld} (hM : Sub 0x2 M) (hs : Same M s0 s) :
    Same M s0 (State.count s f) := by
  unfold State.count
  try dsimp only
  repeat' first
    | intro _
    | with_reducible first
      | assumption | exact hM.of (by decide)
    | with_reducible first
      | apply putLive_same | apply same_ite

theorem countBy_same {M : Nat} {s0 : State} {s : State} {f : Fld} {n : Nat} (hM : Sub 0x2 M) (hs : Same M s0 s) :
    Same M s0 (State.countBy s f n) := by
  unfold State.countBy
  try dsimp only
  repeat' first
    | intro _
    | with_reducible first
      | assumption | exact hM.of (by decide)
    | with_reducible first
      | apply putLive_same

theorem count64_same {M : Nat} {s0 : State} {s : State} {lo : Fld} (hM : Sub 0x2 M) (hs : Same M s0 s) :
    Same M s0 (State.count64 s lo) := by
  unfold State.count64
  try dsimp only
  repeat' first
    | intro _
    | with_reducible first
      | assumption | exact hM.of (by decide)
    | with_reducible first
      | apply putLive_same | apply same_ite

theorem latch_same {M : Nat} {s0 : State} {s : State} {f : Fld} (hM : Sub 0x1 M) (hs : Same M s0 s) :
    Same M s0 (State.latch s f) := by
  unfold State.latch
  try dsimp only
  repeat' first
    | intro _
    | with_reducible first
      | assumption | exact hM.of (by decide)
    | with_reducible first
      | apply wr_same

theorem latch64_same {M : Nat} {s0 : State} {s : State} {p : Fld × Fld} (hM : Sub 0x1 M) (hs : Same M s0 s) :
    Same M s0 (State.latch64 s p) := by
  unfold State.latch64
  try dsimp only
  repeat' first
    | intro _
    | with_reducible first
      | assumption | exact hM.of (by decide)
    | with_reducible first
      | apply wr_same

theorem latchAll_same {M : Nat} {s0 : State} {fs : List Fld} {s : State} (hM : Sub 0x1 M) (hs : Same M s0 s) :
    Same M s0 (State.latchAll fs s) := by
  unfold State.latchAll
  try dsimp only
  repeat' first
    | intro _
    | with_reducible first
      | assumption | exact hM.of (by decide)
    | with_reducible first
      | apply latch_same | apply same_foldl

theorem latchAll64_same {M : Nat} {s0 : State} {ps : List (Fld × Fld)} {s : State} (hM : Sub 0x1 M) (hs : Same M s0 s) :
    Same M s0 (State.latchAll64 ps s) := by
  unfold State.latchAll64
  try dsimp only
  repeat' first
    | intro _
    | with_reducible first
      | assumption | exact hM.of (by decide)
    | with_reducible first
      | apply latch64_same | apply same_foldl

theorem zeroLive_same {M : Nat} {s0 : State} {fs : List Fld} {s : State} (hM : Sub 0x2 M) (hs : Same M s0 s) :
    Same M s0 (State.zeroLive fs s) := by
  unfold State.zeroLive
  try dsimp only
  repeat' first
    | intro _
    | with_reducible first
      | assumption | exact hM.of (by decide)
    | with_reducible first
      | apply putLive_same | apply same_foldl

theorem zeroRegs_same {M : Nat} {s0 : State} {fs : List Fld} {s : State} (hM : Sub 0x1 M) (hs : Same M s0 s) :
    Same M s0 (State.zeroRegs fs s) := by
  unfold State.zeroRegs
  try dsimp only
  repeat' first
    | intro _
    | with_reducible first
      | assumption | exact hM.of (by decide)
    | with_reducible first
      | apply wr_same | apply same_foldl

theorem setPend_same {M : Nat} {s0 : State} {s : State} {src : Nat} (hM : Sub 0x1 M) (hs : Same M s0 s) :
    Same M s0 (State.setPend s src) := by
  unfold State.setPend
  try dsimp only
  repeat' first
    | intro _
    | with_reducible first
      | assumption | exact hM.of (by decide)
    | with_reducible first
      | apply wr_same

theorem srcEvent_same {M : Nat} {s0 : State} {s : State} {src : Nat} (hM : Sub 0x1 M) (hs : Same M s0 s) :
    Same M s0 (State.srcEvent s src) := by
  unfold State.srcEvent
  try dsimp only
  repeat' first
    | intro _
    | with_reducible first
      | assumption | exact hM.of (by decide)
    | with_reducible first
      | apply bump_same | apply setPend_same

theorem raise_same {M : Nat} {s0 : State} {s : State} {src : Nat} (hM : Sub 0x1 M) (hs : Same M s0 s) :
    Same M s0 (State.raise s src) := by
  unfold State.raise
  try dsimp only
  repeat' first
    | intro _
    | with_reducible first
      | assumption | exact hM.of (by decide)
    | with_reducible first
      | apply srcEvent_same | apply same_ite

theorem setInput_same {M : Nat} {s0 : State} {s : State} {src : Nat} {v : Bool} (hM : Sub 0x1 M) (hs : Same M s0 s) :
    Same M s0 (State.setInput s src v) := by
  unfold State.setInput
  try dsimp only
  repeat' first
    | intro _
    | with_reducible first
      | assumption | exact hM.of (by decide) | apply sameMk | exact Or.inl (hM.bit (by decide)) | exact Or.inr rfl
    | simp only [same_mk_iff]
    | with_reducible first
      | apply wrB_same | apply setPend_same | apply srcEvent_same | apply same_ite
    | split
    | with_reducible first
      | (apply same_pair; assumption) | (apply same_opt; assumption) | (apply same_triple; assumption)

theorem relevel_same {M : Nat} {s0 : State} {s : State} {src : Nat} (hM : Sub 0x1 M) (hs : Same M s0 s) :
    Same M s0 (State.relevel s src) := by
  unfold State.relevel
  try dsimp only
  repeat' first
    | intro _
    | with_reducible first
      | assumption | exact hM.of (by decide)
    | with_reducible first
      | apply setPend_same | apply same_ite

theorem wireFault_same {M : Nat} {s0 : State} {kind : Nat} {side : Nat} {index : Nat} {s : State} (hM : Sub 0x1 M) (hs : Same M s0 s) :
    Same M s0 (wireFault kind side index s) := by
  unfold wireFault
  try dsimp only
  repeat' first
    | intro _
    | with_reducible first
      | assumption | exact hM.of (by decide)
    | with_reducible first
      | apply wr_same | apply bump_same

theorem wired_same {M : Nat} {s0 : State} {s : State} {kind : Nat} {side : Nat} {index : Nat} {src : Nat} (hM : Sub 0x1 M) (hs : Same M s0 s) :
    Same M s0 (State.wired s kind side index src) := by
  unfold State.wired
  try dsimp only
  repeat' first
    | intro _
    | with_reducible first
      | assumption | exact hM.of (by decide)
    | with_reducible first
      | apply raise_same | apply wireFault_same

theorem syncEvents_same {M : Nat} {s0 : State} {s : State} {d : Nat} (hM : Sub 0x1 M) (hs : Same M s0 s) :
    Same M s0 (State.syncEvents s d) := by
  unfold State.syncEvents
  try dsimp only
  repeat' first
    | intro _
    | with_reducible first
      | assumption | exact hM.of (by decide)
    | with_reducible first
      | apply setInput_same

theorem rgnEvent_same {M : Nat} {s0 : State} {s : State} {r : Nat} {k : Nat} (hM : Sub 0x1 M) (hs : Same M s0 s) :
    Same M s0 (State.rgnEvent s r k) := by
  unfold State.rgnEvent
  try dsimp only
  repeat' first
    | intro _
    | with_reducible first
      | assumption | exact hM.of (by decide)
    | with_reducible first
      | apply wr_same | apply syncEvents_same

theorem dieEvent_same {M : Nat} {s0 : State} {s : State} {d : Nat} {k : Nat} (hM : Sub 0x1 M) (hs : Same M s0 s) :
    Same M s0 (State.dieEvent s d k) := by
  unfold State.dieEvent
  try dsimp only
  repeat' first
    | intro _
    | with_reducible first
      | assumption | exact hM.of (by decide)
    | with_reducible first
      | apply wr_same | apply syncEvents_same

theorem draw_same {M : Nat} {s0 : State} {s : State} (hM : Sub 0x4 M) (hs : Same M s0 s) :
    Same M s0 (State.draw s).2 := by
  unfold State.draw
  try dsimp only
  repeat' first
    | intro _
    | with_reducible first
      | assumption | exact hM.of (by decide) | apply sameMk | exact Or.inl (hM.bit (by decide)) | exact Or.inr rfl
    | simp only [same_mk_iff]

end Sys2Proof.Machine
end

