-- ==== Sys2Proof/Laws/SameOperands.lean ====
section
/-! SUPPORT. What the operations of Machine/Operands.lean leave as it is (`Same`). -/

namespace Sys2Proof.Machine

theorem putMap_same {M : Nat} {s0 : State} {s : State} {e : Nat} {v : MapSt} (hM : Sub 0x400000 M) (hs : Same M s0 s) :
    Same M s0 (State.putMap s e v) := by
  unfold State.putMap
  try dsimp only
  repeat' first
    | intro _
    | with_reducible first
      | assumption | exact hM.of (by decide) | apply sameMk | exact Or.inl (hM.bit (by decide)) | exact Or.inr rfl
    | simp only [same_mk_iff]

theorem putBob_same {M : Nat} {s0 : State} {s : State} {c : Nat} {v : BobSt} (hM : Sub 0x800000 M) (hs : Same M s0 s) :
    Same M s0 (State.putBob s c v) := by
  unfold State.putBob
  try dsimp only
  repeat' first
    | intro _
    | with_reducible first
      | assumption | exact hM.of (by decide) | apply sameMk | exact Or.inl (hM.bit (by decide)) | exact Or.inr rfl
    | simp only [same_mk_iff]

theorem putSpan_same {M : Nat} {s0 : State} {s : State} {k : Nat} {sd : Side} {v : SpanSt} (hM : Sub 0x2000 M) (hs : Same M s0 s) :
    Same M s0 (State.putSpan s k sd v) := by
  unfold State.putSpan
  try dsimp only
  repeat' first
    | intro _
    | with_reducible first
      | assumption | exact hM.of (by decide) | apply sameMk | exact Or.inl (hM.bit (by decide)) | exact Or.inr rfl
    | simp only [same_mk_iff]

theorem putSide_same {M : Nat} {s0 : State} {s : State} {k : Nat} {sd : Side} {v : SideSt} (hM : Sub 0x1000 M) (hs : Same M s0 s) :
    Same M s0 (State.putSide s k sd v) := by
  unfold State.putSide
  try dsimp only
  repeat' first
    | intro _
    | with_reducible first
      | assumption | exact hM.of (by decide) | apply sameMk | exact Or.inl (hM.bit (by decide)) | exact Or.inr rfl
    | simp only [same_mk_iff]

theorem putLink_same {M : Nat} {s0 : State} {s : State} {k : Nat} {v : LinkSt} (hM : Sub 0x4000 M) (hs : Same M s0 s) :
    Same M s0 (State.putLink s k v) := by
  unfold State.putLink
  try dsimp only
  repeat' first
    | intro _
    | with_reducible first
      | assumption | exact hM.of (by decide) | apply sameMk | exact Or.inl (hM.bit (by decide)) | exact Or.inr rfl
    | simp only [same_mk_iff]

theorem putRx_same {M : Nat} {s0 : State} {s : State} {n : Nat} {sd : Side} {v : RxSt} (hM : Sub 0x8000 M) (hs : Same M s0 s) :
    Same M s0 (State.putRx s n sd v) := by
  unfold State.putRx
  try dsimp only
  repeat' first
    | intro _
    | with_reducible first
      | assumption | exact hM.of (by decide) | apply sameMk | exact Or.inl (hM.bit (by decide)) | exact Or.inr rfl
    | simp only [same_mk_iff]

theorem putTx_same {M : Nat} {s0 : State} {s : State} {n : Nat} {sd : Side} {v : TxSt} (hM : Sub 0x10000 M) (hs : Same M s0 s) :
    Same M s0 (State.putTx s n sd v) := by
  unfold State.putTx
  try dsimp only
  repeat' first
    | intro _
    | with_reducible first
      | assumption | exact hM.of (by decide) | apply sameMk | exact Or.inl (hM.bit (by decide)) | exact Or.inr rfl
    | simp only [same_mk_iff]

theorem putCk_same {M : Nat} {s0 : State} {s : State} {c : Nat} {d : Dir} {v : CkSt} (hM : Sub 0x20000 M) (hs : Same M s0 s) :
    Same M s0 (State.putCk s c d v) := by
  unfold State.putCk
  try dsimp only
  repeat' first
    | intro _
    | with_reducible first
      | assumption | exact hM.of (by decide) | apply sameMk | exact Or.inl (hM.bit (by decide)) | exact Or.inr rfl
    | simp only [same_mk_iff]

theorem putCkEntry_same {M : Nat} {s0 : State} {s : State} {c : Nat} {d : Dir} {v : CkEnd} (hM : Sub 0x40000 M) (hs : Same M s0 s) :
    Same M s0 (State.putCkEntry s c d v) := by
  unfold State.putCkEntry
  try dsimp only
  repeat' first
    | intro _
    | with_reducible first
      | assumption | exact hM.of (by decide) | apply sameMk | exact Or.inl (hM.bit (by decide)) | exact Or.inr rfl
    | simp only [same_mk_iff]

theorem putCkExit_same {M : Nat} {s0 : State} {s : State} {c : Nat} {d : Dir} {v : CkEnd} (hM : Sub 0x40000 M) (hs : Same M s0 s) :
    Same M s0 (State.putCkExit s c d v) := by
  unfold State.putCkExit
  try dsimp only
  repeat' first
    | intro _
    | with_reducible first
      | assumption | exact hM.of (by decide) | apply sameMk | exact Or.inl (hM.bit (by decide)) | exact Or.inr rfl
    | simp only [same_mk_iff]

theorem txRest_same {M : Nat} {s0 : State} {s : State} {n : Nat} {sd : Side} (hM : Sub 0x10000 M) (hs : Same M s0 s) :
    Same M s0 (State.txRest s n sd) := by
  unfold State.txRest
  try dsimp only
  repeat' first
    | intro _
    | with_reducible first
      | assumption | exact hM.of (by decide) | apply sameMk | exact Or.inl (hM.bit (by decide)) | exact Or.inr rfl
    | simp only [same_mk_iff]
    | with_reducible first
      | apply putTx_same

theorem putLl_same {M : Nat} {s0 : State} {s : State} {l : Nat} {v : LlSt} (hM : Sub 0x800 M) (hs : Same M s0 s) :
    Same M s0 (State.putLl s l v) := by
  unfold State.putLl
  try dsimp only
  repeat' first
    | intro _
    | with_reducible first
      | assumption | exact hM.of (by decide) | apply sameMk | exact Or.inl (hM.bit (by decide)) | exact Or.inr rfl
    | simp only [same_mk_iff]

theorem putTrunk_same {M : Nat} {s0 : State} {s : State} {t : Nat} {v : TrunkSt} (hM : Sub 0x400 M) (hs : Same M s0 s) :
    Same M s0 (State.putTrunk s t v) := by
  unfold State.putTrunk
  try dsimp only
  repeat' first
    | intro _
    | with_reducible first
      | assumption | exact hM.of (by decide) | apply sameMk | exact Or.inl (hM.bit (by decide)) | exact Or.inr rfl
    | simp only [same_mk_iff]

theorem putFlow_same {M : Nat} {s0 : State} {s : State} {f : Nat} {v : Flow} (hM : Sub 0x200 M) (hs : Same M s0 s) :
    Same M s0 (State.putFlow s f v) := by
  unfold State.putFlow
  try dsimp only
  repeat' first
    | intro _
    | with_reducible first
      | assumption | exact hM.of (by decide) | apply sameMk | exact Or.inl (hM.bit (by decide)) | exact Or.inr rfl
    | simp only [same_mk_iff]

end Sys2Proof.Machine
end

