-- ==== Sys2Proof/Laws/SameFlags.lean ====
section
/-! SUPPORT. What the operations of Machine/Flags.lean leave as it is (`Same`). -/

namespace Sys2Proof.Machine

theorem ifOpen_same {M : Nat} {s0 : State} {p : Nat} {s : State} {t : State} (hM : Sub 0x0 M) (hs : Same M s0 s) (ht : Same M s0 t) :
    Same M s0 (ifOpen p s t) := by
  unfold ifOpen
  try dsimp only
  repeat' first
    | intro _
    | with_reducible first
      | assumption | exact hM.of (by decide)
    | with_reducible first
      | apply same_ite

theorem ifHas_same {M : Nat} {s0 : State} {present : Bool} {p : Nat} {s : State} {t : State} (hM : Sub 0x0 M) (hs : Same M s0 s) (ht : Same M s0 t) :
    Same M s0 (ifHas present p s t) := by
  unfold ifHas
  try dsimp only
  repeat' first
    | intro _
    | with_reducible first
      | assumption | exact hM.of (by decide)
    | with_reducible first
      | apply same_ite

end Sys2Proof.Machine
end

