-- ==== Sys2Proof/Laws/SameRingOps.lean ====
section
/-! SUPPORT. What the operations of Machine/RingOps.lean leave as it is (`Same`). -/

namespace Sys2Proof.Machine

theorem setRingPos_same {M : Nat} {s0 : State} {s : State} {ring : Nat} {id : Nat} {p : Nat} (hM : Sub 0x1 M) (hs : Same M s0 s) :
    Same M s0 (State.setRingPos s ring id p) := by
  unfold State.setRingPos
  try dsimp only
  repeat' first
    | intro _
    | with_reducible first
      | assumption | exact hM.of (by decide)
    | with_reducible first
      | apply wr_same | apply same_ite
    | simp only [id_eq]

theorem putHop_same {M : Nat} {s0 : State} {s : State} {ring : Nat} {h : HopSt} (hM : Sub 0x10000000 M) (hs : Same M s0 s) :
    Same M s0 (State.putHop s ring h) := by
  unfold State.putHop
  try dsimp only
  repeat' first
    | intro _
    | with_reducible first
      | assumption | exact hM.of (by decide) | apply sameMk | exact Or.inl (hM.bit (by decide)) | exact Or.inr rfl
    | simp only [same_mk_iff]
    | with_reducible first
      | apply same_ite

theorem freshOut_same {M : Nat} {s0 : State} {s : State} (hM : Sub 0x10000000 M) (hs : Same M s0 s) :
    Same M s0 (State.freshOut s) := by
  unfold State.freshOut
  try dsimp only
  repeat' first
    | intro _
    | with_reducible first
      | assumption | exact hM.of (by decide) | apply sameMk | exact Or.inl (hM.bit (by decide)) | exact Or.inr rfl
    | simp only [same_mk_iff]

theorem sendOn_same {M : Nat} {s0 : State} {s : State} {ring : Nat} {bytes : List Nat} (hM : Sub 0x10000000 M) (hs : Same M s0 s) :
    Same M s0 (State.sendOn s ring bytes) := by
  unfold State.sendOn
  try dsimp only
  repeat' first
    | intro _
    | with_reducible first
      | assumption | exact hM.of (by decide) | apply sameMk | exact Or.inl (hM.bit (by decide)) | exact Or.inr rfl
    | simp only [same_mk_iff]

theorem sendTo_same {M : Nat} {s0 : State} {s : State} {t : Nat} {type : Nat} {body : List Nat} (hM : Sub 0x10000000 M) (hs : Same M s0 s) :
    Same M s0 (State.sendTo s t type body) := by
  unfold State.sendTo
  try dsimp only
  repeat' first
    | intro _
    | with_reducible first
      | assumption | exact hM.of (by decide) | apply sameMk | exact Or.inl (hM.bit (by decide)) | exact Or.inr rfl
    | simp only [same_mk_iff]
    | with_reducible first
      | apply sendOn_same
    | split
    | with_reducible first
      | (apply same_pair; assumption) | (apply same_opt; assumption) | (apply same_triple; assumption)

theorem broadcast_same {M : Nat} {s0 : State} {s : State} {type : Nat} {body : List Nat} (hM : Sub 0x10000000 M) (hs : Same M s0 s) :
    Same M s0 (State.broadcast s type body) := by
  unfold State.broadcast
  try dsimp only
  repeat' first
    | intro _
    | with_reducible first
      | assumption | exact hM.of (by decide)
    | with_reducible first
      | apply sendOn_same

theorem sendReady_same {M : Nat} {s0 : State} {s : State} (hM : Sub 0x10000001 M) (hs : Same M s0 s) :
    Same M s0 (State.sendReady s) := by
  unfold State.sendReady
  try dsimp only
  repeat' first
    | intro _
    | with_reducible first
      | assumption | exact hM.of (by decide)
    | with_reducible first
      | apply wr_same | apply sendTo_same | apply same_ite

end Sys2Proof.Machine
end

