-- ==== Sys2Proof/Laws/SameInterrupts.lean ====
section
/-! SUPPORT. What the operations of Machine/Interrupts.lean leave as it is (`Same`). -/

namespace Sys2Proof.Machine

theorem answerWord_same {M : Nat} {s0 : State} {s : State} {v : Nat} (hM : Sub 0x40000000 M) (hs : Same M s0 s) :
    Same M s0 (State.answerWord s v) := by
  unfold State.answerWord
  try dsimp only
  repeat' first
    | intro _
    | with_reducible first
      | assumption | exact hM.of (by decide) | apply sameMk | exact Or.inl (hM.bit (by decide)) | exact Or.inr rfl
    | simp only [same_mk_iff]

theorem claimSource_same {M : Nat} {s0 : State} {src : Nat} {s : State} (hM : Sub 0x1 M) (hs : Same M s0 s) :
    Same M s0 (claimSource src s) := by
  unfold claimSource
  try dsimp only
  repeat' first
    | intro _
    | with_reducible first
      | assumption | exact hM.of (by decide)
    | with_reducible first
      | apply wr_same | apply relevel_same

theorem bankServe_same {M : Nat} {s0 : State} {cl : Nat} {t : Nat} {ring : Nat} {src : Nat} {s : State} (hM : Sub 0x1 M) (hs : Same M s0 s) :
    Same M s0 (bankServe cl t ring src s) := by
  unfold bankServe
  try dsimp only
  repeat' first
    | intro _
    | with_reducible first
      | assumption | exact hM.of (by decide)
    | with_reducible first
      | apply wr_same

theorem bankIdle_same {M : Nat} {s0 : State} {cl : Nat} {t : Nat} {s : State} (hM : Sub 0x1 M) (hs : Same M s0 s) :
    Same M s0 (bankIdle cl t s) := by
  unfold bankIdle
  try dsimp only
  repeat' first
    | intro _
    | with_reducible first
      | assumption | exact hM.of (by decide)
    | with_reducible first
      | apply wr_same

theorem claimNone_same {M : Nat} {s0 : State} {cl : Nat} {t : Nat} {why : Nat} {s : State} (hM : Sub 0x1 M) (hs : Same M s0 s) :
    Same M s0 (claimNone cl t why s).2 := by
  unfold claimNone
  try dsimp only
  repeat' first
    | intro _
    | with_reducible first
      | assumption | exact hM.of (by decide)
    | with_reducible first
      | apply wr_same

theorem claim_same {M : Nat} {s0 : State} {fast : Bool} {t : Nat} {s : State} (hM : Sub 0x20000001 M) (hs : Same M s0 s) :
    Same M s0 (claim fast t s).2 := by
  unfold claim
  try dsimp only
  repeat' first
    | intro _
    | with_reducible first
      | assumption | exact hM.of (by decide) | apply sameMk | exact Or.inl (hM.bit (by decide)) | exact Or.inr rfl
    | simp only [same_mk_iff]
    | with_reducible first
      | apply count_same | apply claimSource_same | apply bankServe_same | apply claimNone_same | apply same_ite
      | apply same_ite2 | exact sameOpt_none | apply sameOpt_ite
    | split
    | with_reducible first
      | (apply same_pair; assumption) | (apply same_opt; assumption) | (apply same_triple; assumption)

theorem stray_same {M : Nat} {s0 : State} {cl : Nat} {t : Nat} {src : Nat} {ring : Nat} {s : State} (hM : Sub 0x1 M) (hs : Same M s0 s) :
    Same M s0 (stray cl t src ring s) := by
  unfold stray
  try dsimp only
  repeat' first
    | intro _
    | with_reducible first
      | assumption | exact hM.of (by decide)
    | with_reducible first
      | apply wr_same | apply bump_same | apply raise_same

theorem endService_same {M : Nat} {s0 : State} {src : Nat} {s : State} (hM : Sub 0x10000001 M) (hs : Same M s0 s) :
    Same M s0 (endService src s) := by
  unfold endService
  try dsimp only
  repeat' first
    | intro _
    | with_reducible first
      | assumption | exact hM.of (by decide) | apply sameMk | exact Or.inl (hM.bit (by decide)) | exact Or.inr rfl
    | simp only [same_mk_iff]
    | with_reducible first
      | apply wr_same

theorem complete_same {M : Nat} {s0 : State} {fast : Bool} {t : Nat} {src : Nat} {ring : Nat} {s : State} (hM : Sub 0x10000001 M) (hs : Same M s0 s) :
    Same M s0 (complete fast t src ring s) := by
  unfold complete
  try dsimp only
  repeat' first
    | intro _
    | with_reducible first
      | assumption | exact hM.of (by decide)
    | with_reducible first
      | apply sendTo_same | apply bankIdle_same | apply stray_same | apply endService_same | apply same_ite

theorem writeSrcCfg_same {M : Nat} {s0 : State} {src : Nat} {v : Nat} {s : State} (hM : Sub 0x1 M) (hs : Same M s0 s) :
    Same M s0 (writeSrcCfg src v s) := by
  unfold writeSrcCfg
  try dsimp only
  repeat' first
    | intro _
    | with_reducible first
      | assumption | exact hM.of (by decide)
    | with_reducible first
      | apply wr_same | apply relevel_same | apply same_ite

theorem ringDoorbells_same {M : Nat} {s0 : State} {v : Nat} {s : State} (hM : Sub 0x1 M) (hs : Same M s0 s) :
    Same M s0 (ringDoorbells v s) := by
  unfold ringDoorbells
  try dsimp only
  repeat' first
    | intro _
    | with_reducible first
      | assumption | exact hM.of (by decide)
    | with_reducible first
      | apply raise_same | apply same_ite | apply same_foldl

theorem deliver_same {M : Nat} {s0 : State} {src : Nat} {s : State} (hM : Sub 0x30000001 M) (hs : Same M s0 s) :
    Same M s0 (deliver src s) := by
  unfold deliver
  try dsimp only
  repeat' first
    | intro _
    | with_reducible first
      | assumption | exact hM.of (by decide) | apply sameMk | exact Or.inl (hM.bit (by decide)) | exact Or.inr rfl
    | simp only [same_mk_iff]
    | with_reducible first
      | apply count_same | apply sendTo_same | apply claimSource_same | apply same_ite

theorem execSourceInput_same {M : Nat} {s0 : State} {src : Nat} {ev : InputEvent} {s : State} (hM : Sub 0x1 M) (hs : Same M s0 s) :
    SameO M s0 (execSourceInput src ev s) := by
  unfold execSourceInput
  try dsimp only
  repeat' first
    | intro _
    | with_reducible first
      | assumption | exact hM.of (by decide) | apply sameMk | exact Or.inl (hM.bit (by decide)) | exact Or.inr rfl
    | simp only [same_mk_iff]
    | with_reducible first
      | apply onUnit_same | apply raise_same | apply setInput_same | apply sameO_next | apply sameO_ite
      | exact sameO_fault | apply same_ite
    | split
    | with_reducible first
      | (apply same_pair; assumption) | (apply same_opt; assumption) | (apply same_triple; assumption)

theorem execIntClaim_same {M : Nat} {s0 : State} {fast : Bool} {t : Nat} {s : State} (hM : Sub 0x60000001 M) (hs : Same M s0 s) :
    SameO M s0 (execIntClaim fast t s) := by
  unfold execIntClaim
  try dsimp only
  repeat' first
    | intro _
    | with_reducible first
      | assumption | exact hM.of (by decide)
    | with_reducible first
      | apply answerWord_same | apply claim_same | apply sameO_next | apply sameO_ite | exact sameO_fault
      | apply same_ite

theorem execIntComplete_same {M : Nat} {s0 : State} {fast : Bool} {t : Nat} {src : Nat} {ring : Nat} {s : State} (hM : Sub 0x10000001 M) (hs : Same M s0 s) :
    SameO M s0 (execIntComplete fast t src ring s) := by
  unfold execIntComplete
  try dsimp only
  repeat' first
    | intro _
    | with_reducible first
      | assumption | exact hM.of (by decide)
    | with_reducible first
      | apply freshOut_same | apply complete_same | apply sameO_next | apply sameO_ite | exact sameO_fault
      | apply same_ite

theorem execDoorbellWrite_same {M : Nat} {s0 : State} {v : Nat} {s : State} (hM : Sub 0x1 M) (hs : Same M s0 s) :
    SameO M s0 (execDoorbellWrite v s) := by
  unfold execDoorbellWrite
  try dsimp only
  repeat' first
    | intro _
    | with_reducible first
      | assumption | exact hM.of (by decide)
    | with_reducible first
      | apply ifOpen_same | apply ringDoorbells_same | apply sameO_next | apply sameO_ite | exact sameO_fault

theorem execSrcCfgWrite_same {M : Nat} {s0 : State} {src : Nat} {v : Nat} {s : State} (hM : Sub 0x1 M) (hs : Same M s0 s) :
    SameO M s0 (execSrcCfgWrite src v s) := by
  unfold execSrcCfgWrite
  try dsimp only
  repeat' first
    | intro _
    | with_reducible first
      | assumption | exact hM.of (by decide)
    | with_reducible first
      | apply ifOpen_same | apply writeSrcCfg_same | apply sameO_next | apply sameO_ite | exact sameO_fault

theorem execRingDeliverSend_same {M : Nat} {s0 : State} {src : Nat} {s : State} (hM : Sub 0x30000001 M) (hs : Same M s0 s) :
    SameO M s0 (execRingDeliverSend src s) := by
  unfold execRingDeliverSend
  try dsimp only
  repeat' first
    | intro _
    | with_reducible first
      | assumption | exact hM.of (by decide)
    | with_reducible first
      | apply freshOut_same | apply deliver_same | apply sameO_next | apply sameO_ite | exact sameO_fault
      | apply same_ite

theorem execDeliverResend_same {M : Nat} {s0 : State} {src : Nat} {s : State} (hM : Sub 0x10000000 M) (hs : Same M s0 s) :
    SameO M s0 (execDeliverResend src s) := by
  unfold execDeliverResend
  try dsimp only
  repeat' first
    | intro _
    | with_reducible first
      | assumption | exact hM.of (by decide)
    | with_reducible first
      | apply freshOut_same | apply sendTo_same | apply sameO_next | apply sameO_ite | exact sameO_fault
      | apply same_ite

end Sys2Proof.Machine
end

