-- ==== Sys2Proof/Laws/SameCalOps.lean ====
section
/-! SUPPORT. What the operations of Machine/CalOps.lean leave as it is (`Same`). -/

namespace Sys2Proof.Machine

theorem putCal_same {M : Nat} {s0 : State} {s : State} {c : Nat} {v : CalSeq} (hM : Sub 0x200001 M) (hs : Same M s0 s) :
    Same M s0 (State.putCal s c v) := by
  unfold State.putCal
  try dsimp only
  repeat' first
    | intro _
    | with_reducible first
      | assumption | exact hM.of (by decide) | apply sameMk | exact Or.inl (hM.bit (by decide)) | exact Or.inr rfl
    | simp only [same_mk_iff]
    | with_reducible first
      | apply wr_same | apply wrB_same

theorem calRunStart_same {M : Nat} {s0 : State} {c : Nat} {s : State} (hM : Sub 0x200001 M) (hs : Same M s0 s) :
    Same M s0 (calRunStart c s) := by
  unfold calRunStart
  try dsimp only
  repeat' first
    | intro _
    | with_reducible first
      | assumption | exact hM.of (by decide) | apply sameMk | exact Or.inl (hM.bit (by decide)) | exact Or.inr rfl
    | simp only [same_mk_iff]
    | with_reducible first
      | apply putCal_same | apply same_ite | exact sameOpt_none | apply sameOpt_ite
    | split
    | with_reducible first
      | (apply same_pair; assumption) | (apply same_opt; assumption) | (apply same_triple; assumption)

theorem calResume_same {M : Nat} {s0 : State} {c : Nat} {s : State} (hM : Sub 0x200001 M) (hs : Same M s0 s) :
    Same M s0 (calResume c s) := by
  unfold calResume
  try dsimp only
  repeat' first
    | intro _
    | with_reducible first
      | assumption | exact hM.of (by decide)
    | with_reducible first
      | apply calRunStart_same | apply same_ite

theorem calDue_same {M : Nat} {s0 : State} {c : Nat} {cause : Nat} {e : Nat} {s : State} (hM : Sub 0x200001 M) (hs : Same M s0 s) :
    Same M s0 (calDue c cause e s) := by
  unfold calDue
  try dsimp only
  repeat' first
    | intro _
    | with_reducible first
      | assumption | exact hM.of (by decide) | apply sameMk | exact Or.inl (hM.bit (by decide)) | exact Or.inr rfl
    | simp only [same_mk_iff]
    | with_reducible first
      | apply wr_same | apply putCal_same | apply same_ite

theorem calEmptied_same {M : Nat} {s0 : State} {c : Nat} {s : State} (hM : Sub 0x1 M) (hs : Same M s0 s) :
    Same M s0 (calEmptied c s) := by
  unfold calEmptied
  try dsimp only
  repeat' first
    | intro _
    | with_reducible first
      | assumption | exact hM.of (by decide)
    | with_reducible first
      | apply raise_same | apply same_ite

theorem calLeave_same {M : Nat} {s0 : State} {c : Nat} {e : Nat} {s : State} (hM : Sub 0x200001 M) (hs : Same M s0 s) :
    Same M s0 (calLeave c e s) := by
  unfold calLeave
  try dsimp only
  repeat' first
    | intro _
    | with_reducible first
      | assumption | exact hM.of (by decide) | apply sameMk | exact Or.inl (hM.bit (by decide)) | exact Or.inr rfl
    | simp only [same_mk_iff]
    | with_reducible first
      | apply putCal_same | apply calEmptied_same

theorem calApply_same {M : Nat} {s0 : State} {c : Nat} {e : Nat} {s : State} (hM : Sub 0x200001 M) (hs : Same M s0 s) :
    Same M s0 (calApply c e s) := by
  unfold calApply
  try dsimp only
  repeat' first
    | intro _
    | with_reducible first
      | assumption | exact hM.of (by decide) | apply sameMk | exact Or.inl (hM.bit (by decide)) | exact Or.inr rfl
    | simp only [same_mk_iff]
    | with_reducible first
      | apply putCal_same | apply calLeave_same | apply same_ite

theorem calRecord_same {M : Nat} {s0 : State} {c : Nat} {e : Nat} {result : Nat} {s : State} (hM : Sub 0x1 M) (hs : Same M s0 s) :
    Same M s0 (calRecord c e result s) := by
  unfold calRecord
  try dsimp only
  repeat' first
    | intro _
    | with_reducible first
      | assumption | exact hM.of (by decide)
    | with_reducible first
      | apply wr_same | apply bump_same

theorem calStop_same {M : Nat} {s0 : State} {c : Nat} {result : Nat} {s : State} (hM : Sub 0x200001 M) (hs : Same M s0 s) :
    Same M s0 (calStop c result s) := by
  unfold calStop
  try dsimp only
  repeat' first
    | intro _
    | with_reducible first
      | assumption | exact hM.of (by decide) | apply sameMk | exact Or.inl (hM.bit (by decide)) | exact Or.inr rfl
    | simp only [same_mk_iff]
    | with_reducible first
      | apply putCal_same | apply calRecord_same
    | split
    | with_reducible first
      | (apply same_pair; assumption) | (apply same_opt; assumption) | (apply same_triple; assumption)

theorem calAbort_same {M : Nat} {s0 : State} {c : Nat} {e : Nat} {s : State} (hM : Sub 0x200001 M) (hs : Same M s0 s) :
    Same M s0 (calAbort c e s) := by
  unfold calAbort
  try dsimp only
  repeat' first
    | intro _
    | with_reducible first
      | assumption | exact hM.of (by decide)
    | with_reducible first
      | apply calStop_same | apply same_ite

theorem calAbortAny_same {M : Nat} {s0 : State} {c : Nat} {s : State} (hM : Sub 0x200001 M) (hs : Same M s0 s) :
    Same M s0 (calAbortAny c s) := by
  unfold calAbortAny
  try dsimp only
  repeat' first
    | intro _
    | with_reducible first
      | assumption | exact hM.of (by decide)
    | with_reducible first
      | apply calStop_same

theorem calAbortDir_same {M : Nat} {s0 : State} {c : Nat} {d : Dir} {s : State} (hM : Sub 0x200001 M) (hs : Same M s0 s) :
    Same M s0 (calAbortDir c d s) := by
  unfold calAbortDir
  try dsimp only
  repeat' first
    | intro _
    | with_reducible first
      | assumption | exact hM.of (by decide) | apply sameMk | exact Or.inl (hM.bit (by decide)) | exact Or.inr rfl
    | simp only [same_mk_iff]
    | with_reducible first
      | apply calStop_same | apply same_ite | exact sameOpt_none | apply sameOpt_ite
    | split
    | with_reducible first
      | (apply same_pair; assumption) | (apply same_opt; assumption) | (apply same_triple; assumption)

theorem eyeAbort_same {M : Nat} {s0 : State} {c : Nat} {e : Nat} {s : State} (hM : Sub 0x200001 M) (hs : Same M s0 s) :
    Same M s0 (eyeAbort c e s) := by
  unfold eyeAbort
  try dsimp only
  repeat' first
    | intro _
    | with_reducible first
      | assumption | exact hM.of (by decide) | apply sameMk | exact Or.inl (hM.bit (by decide)) | exact Or.inr rfl
    | simp only [same_mk_iff]
    | with_reducible first
      | apply wr_same | apply putCal_same | apply same_ite

theorem eyeAbortDir_same {M : Nat} {s0 : State} {c : Nat} {d : Dir} {s : State} (hM : Sub 0x200001 M) (hs : Same M s0 s) :
    Same M s0 (eyeAbortDir c d s) := by
  unfold eyeAbortDir
  try dsimp only
  repeat' first
    | intro _
    | with_reducible first
      | assumption | exact hM.of (by decide) | apply sameMk | exact Or.inl (hM.bit (by decide)) | exact Or.inr rfl
    | simp only [same_mk_iff]
    | with_reducible first
      | apply eyeAbort_same | apply same_ite | exact sameOpt_none | apply sameOpt_ite
    | split
    | with_reducible first
      | (apply same_pair; assumption) | (apply same_opt; assumption) | (apply same_triple; assumption)

theorem sentinelTaken_same {M : Nat} {s0 : State} {c : Nat} {e : Nat} {s : State} (hM : Sub 0x200001 M) (hs : Same M s0 s) :
    Same M s0 (sentinelTaken c e s) := by
  unfold sentinelTaken
  try dsimp only
  repeat' first
    | intro _
    | with_reducible first
      | assumption | exact hM.of (by decide)
    | with_reducible first
      | apply calAbort_same | apply eyeAbort_same

end Sys2Proof.Machine
end

