-- ==== Sys2Proof/Laws/SameTestOps.lean ====
section
/-! SUPPORT. What the operations of Machine/TestOps.lean leave as it is (`Same`). -/

namespace Sys2Proof.Machine

theorem repairRow_same {M : Nat} {s0 : State} {d : Nat} {b : Nat} {row : Nat} {s : State} (hM : Sub 0x200000001 M) (hs : Same M s0 s) :
    Same M s0 (repairRow d b row s) := by
  unfold repairRow
  try dsimp only
  repeat' first
    | intro _
    | with_reducible first
      | assumption | exact hM.of (by decide) | apply sameMk | exact Or.inl (hM.bit (by decide)) | exact Or.inr rfl
    | simp only [same_mk_iff]
    | with_reducible first
      | apply wr_same | apply bump_same | apply same_ite

end Sys2Proof.Machine
end

