-- ==== Sys2Proof/Laws/SameBufOps.lean ====
section
/-! SUPPORT. What the operations of Machine/BufOps.lean leave as it is (`Same`). -/

namespace Sys2Proof.Machine

theorem putSlot_same {M : Nat} {s0 : State} {s : State} {r : Nat} {v : Slot} (hM : Sub 0x80 M) (hs : Same M s0 s) :
    Same M s0 (State.putSlot s r v) := by
  unfold State.putSlot
  try dsimp only
  repeat' first
    | intro _
    | with_reducible first
      | assumption | exact hM.of (by decide) | apply sameMk | exact Or.inl (hM.bit (by decide)) | exact Or.inr rfl
    | simp only [same_mk_iff]

theorem putBuf_same {M : Nat} {s0 : State} {s : State} {d : Nat} {v : DieBuf} (hM : Sub 0x100 M) (hs : Same M s0 s) :
    Same M s0 (State.putBuf s d v) := by
  unfold State.putBuf
  try dsimp only
  repeat' first
    | intro _
    | with_reducible first
      | assumption | exact hM.of (by decide) | apply sameMk | exact Or.inl (hM.bit (by decide)) | exact Or.inr rfl
    | simp only [same_mk_iff]

theorem setServes_same {M : Nat} {s0 : State} {d : Nat} {l : Nat} {b : Nat} {s : State} (hM : Sub 0x100 M) (hs : Same M s0 s) :
    Same M s0 (setServes d l b s) := by
  unfold setServes
  try dsimp only
  repeat' first
    | intro _
    | with_reducible first
      | assumption | exact hM.of (by decide) | apply sameMk | exact Or.inl (hM.bit (by decide)) | exact Or.inr rfl
    | simp only [same_mk_iff]
    | with_reducible first
      | apply putBuf_same

theorem occTaken_same {M : Nat} {s0 : State} {d : Nat} {s : State} (hM : Sub 0x1 M) (hs : Same M s0 s) :
    Same M s0 (occTaken d s) := by
  unfold occTaken
  try dsimp only
  repeat' first
    | intro _
    | with_reducible first
      | assumption | exact hM.of (by decide)
    | with_reducible first
      | apply wr_same | apply dieEvent_same | apply same_ite

theorem allocSlot_same {M : Nat} {s0 : State} {d : Nat} {excl : List Nat} {x : Slot} {s : State} (hM : Sub 0x85 M) (hs : Same M s0 s) :
    SameOpt M s0 (allocSlot d excl x s) := by
  unfold allocSlot
  try dsimp only
  repeat' first
    | intro _
    | with_reducible first
      | assumption | exact hM.of (by decide) | apply sameMk | exact Or.inl (hM.bit (by decide)) | exact Or.inr rfl
    | simp only [same_mk_iff]
    | with_reducible first
      | apply draw_same | apply putSlot_same | apply occTaken_same | exact sameOpt_none | apply sameOpt_some
      | apply sameOpt_ite | apply sameOpt_someP
    | split
    | with_reducible first
      | (apply same_pair; assumption) | (apply same_opt; assumption) | (apply same_triple; assumption)

theorem allocPair_same {M : Nat} {s0 : State} {d : Nat} {x : Slot} {s : State} (hM : Sub 0x85 M) (hs : Same M s0 s) :
    SameOpt M s0 (allocPair d x s) := by
  unfold allocPair
  try dsimp only
  repeat' first
    | intro _
    | with_reducible first
      | assumption | exact hM.of (by decide) | apply sameMk | exact Or.inl (hM.bit (by decide)) | exact Or.inr rfl
    | simp only [same_mk_iff]
    | with_reducible first
      | apply putSlot_same | apply allocSlot_same | exact sameOpt_none | apply sameOpt_some | apply sameOpt_ite
      | apply sameOpt_someP
    | split
    | with_reducible first
      | (apply same_pair; assumption) | (apply same_opt; assumption) | (apply same_triple; assumption)

theorem slotSet_same {M : Nat} {s0 : State} {r : Nat} {x : Slot} {s : State} (hM : Sub 0x80 M) (hs : Same M s0 s) :
    Same M s0 (slotSet r x s) := by
  unfold slotSet
  try dsimp only
  repeat' first
    | intro _
    | with_reducible first
      | assumption | exact hM.of (by decide) | apply sameMk | exact Or.inl (hM.bit (by decide)) | exact Or.inr rfl
    | simp only [same_mk_iff]
    | with_reducible first
      | apply putSlot_same | apply same_ite

theorem pairSet_same {M : Nat} {s0 : State} {r : Nat} {f : Slot → Slot} {s : State} (hM : Sub 0x80 M) (hs : Same M s0 s) :
    Same M s0 (pairSet r f s) := by
  unfold pairSet
  try dsimp only
  repeat' first
    | intro _
    | with_reducible first
      | assumption | exact hM.of (by decide) | apply sameMk | exact Or.inl (hM.bit (by decide)) | exact Or.inr rfl
    | simp only [same_mk_iff]
    | with_reducible first
      | apply slotSet_same
    | split
    | with_reducible first
      | (apply same_pair; assumption) | (apply same_opt; assumption) | (apply same_triple; assumption)

theorem sendingEnds_same {M : Nat} {s0 : State} {r : Nat} {s : State} (hM : Sub 0x80 M) (hs : Same M s0 s) :
    Same M s0 (sendingEnds r s) := by
  unfold sendingEnds
  try dsimp only
  repeat' first
    | intro _
    | with_reducible first
      | assumption | exact hM.of (by decide) | apply sameMk | exact Or.inl (hM.bit (by decide)) | exact Or.inr rfl
    | simp only [same_mk_iff]
    | with_reducible first
      | apply putSlot_same | apply same_ite

theorem slotFree_same {M : Nat} {s0 : State} {r : Nat} {s : State} (hM : Sub 0x80 M) (hs : Same M s0 s) :
    Same M s0 (slotFree r s) := by
  unfold slotFree
  try dsimp only
  repeat' first
    | intro _
    | with_reducible first
      | assumption | exact hM.of (by decide) | apply sameMk | exact Or.inl (hM.bit (by decide)) | exact Or.inr rfl
    | simp only [same_mk_iff]
    | with_reducible first
      | apply pairSet_same

theorem dieFree_same {M : Nat} {s0 : State} {d : Nat} {s : State} (hM : Sub 0x80 M) (hs : Same M s0 s) :
    Same M s0 (dieFree d s) := by
  unfold dieFree
  try dsimp only
  repeat' first
    | intro _
    | with_reducible first
      | assumption | exact hM.of (by decide) | apply sameMk | exact Or.inl (hM.bit (by decide)) | exact Or.inr rfl
    | simp only [same_mk_iff]

theorem relist_same {M : Nat} {s0 : State} {old : Nat} {new : Nat} {s : State} (hM : Sub 0x1600 M) (hs : Same M s0 s) :
    Same M s0 (relist old new s) := by
  unfold relist
  try dsimp only
  repeat' first
    | intro _
    | with_reducible first
      | assumption | exact hM.of (by decide) | apply sameMk | exact Or.inl (hM.bit (by decide)) | exact Or.inr rfl
    | simp only [same_mk_iff]
    | with_reducible first
      | apply same_ite
    | split
    | with_reducible first
      | (apply same_pair; assumption) | (apply same_opt; assumption) | (apply same_triple; assumption)

theorem ceRegion_same {M : Nat} {s0 : State} {d : Nat} {odd : Nat} {s : State} (hM : Sub 0x101 M) (hs : Same M s0 s) :
    Same M s0 (ceRegion d odd s) := by
  unfold ceRegion
  try dsimp only
  repeat' first
    | intro _
    | with_reducible first
      | assumption | exact hM.of (by decide) | apply sameMk | exact Or.inl (hM.bit (by decide)) | exact Or.inr rfl
    | simp only [same_mk_iff]
    | with_reducible first
      | apply dieEvent_same | apply putBuf_same | apply same_ite

theorem ceJudge_same {M : Nat} {s0 : State} {d : Nat} {s : State} (hM : Sub 0x101 M) (hs : Same M s0 s) :
    Same M s0 (ceJudge d s) := by
  unfold ceJudge
  try dsimp only
  repeat' first
    | intro _
    | with_reducible first
      | assumption | exact hM.of (by decide)
    | with_reducible first
      | apply ceRegion_same

theorem ceRead_same {M : Nat} {s0 : State} {r : Nat} {region : Nat} {word : Nat} {bitNo : Nat} {s : State} (hM : Sub 0x103 M) (hs : Same M s0 s) :
    Same M s0 (ceRead r region word bitNo s) := by
  unfold ceRead
  try dsimp only
  repeat' first
    | intro _
    | with_reducible first
      | assumption | exact hM.of (by decide) | apply sameMk | exact Or.inl (hM.bit (by decide)) | exact Or.inr rfl
    | simp only [same_mk_iff]
    | with_reducible first
      | apply wr_same | apply count_same | apply putBuf_same | apply ceRegion_same | apply same_ite

theorem setRot_same {M : Nat} {s0 : State} {d : Nat} {rot : Nat} {bank : Nat} {s : State} (hM : Sub 0x1 M) (hs : Same M s0 s) :
    Same M s0 (setRot d rot bank s) := by
  unfold setRot
  try dsimp only
  repeat' first
    | intro _
    | with_reducible first
      | assumption | exact hM.of (by decide)
    | with_reducible first
      | apply wr_same | apply wrB_same

theorem bankRecord_same {M : Nat} {s0 : State} {d : Nat} {bank : Nat} {result : Nat} {cause : Nat} {rows : Nat} {ops : Nat} {s : State} (hM : Sub 0x1 M) (hs : Same M s0 s) :
    Same M s0 (bankRecord d bank result cause rows ops s) := by
  unfold bankRecord
  try dsimp only
  repeat' first
    | intro _
    | with_reducible first
      | assumption | exact hM.of (by decide)
    | with_reducible first
      | apply wr_same

theorem sliceBegin_same {M : Nat} {s0 : State} {d : Nat} {bank : Nat} {retireAfter : Bool} {returning : Bool} {byCmd : Bool} {s : State} (hM : Sub 0x101 M) (hs : Same M s0 s) :
    Same M s0 (sliceBegin d bank retireAfter returning byCmd s) := by
  unfold sliceBegin
  try dsimp only
  repeat' first
    | intro _
    | with_reducible first
      | assumption | exact hM.of (by decide) | apply sameMk | exact Or.inl (hM.bit (by decide)) | exact Or.inr rfl
    | simp only [same_mk_iff]
    | with_reducible first
      | apply wr_same | apply putBuf_same | apply setRot_same | apply same_ite

theorem testBegin_same {M : Nat} {s0 : State} {d : Nat} {bank : Nat} {returning : Bool} {byCmd : Bool} {s : State} (hM : Sub 0x101 M) (hs : Same M s0 s) :
    Same M s0 (testBegin d bank returning byCmd s) := by
  unfold testBegin
  try dsimp only
  repeat' first
    | intro _
    | with_reducible first
      | assumption | exact hM.of (by decide)
    | with_reducible first
      | apply wr_same | apply raise_same | apply bankRecord_same | apply sliceBegin_same | apply same_ite

theorem bankSliceTurn_same {M : Nat} {s0 : State} {d : Nat} {s : State} (hM : Sub 0x101 M) (hs : Same M s0 s) :
    Same M s0 (bankSliceTurn d s) := by
  unfold bankSliceTurn
  try dsimp only
  repeat' first
    | intro _
    | with_reducible first
      | assumption | exact hM.of (by decide) | apply sameMk | exact Or.inl (hM.bit (by decide)) | exact Or.inr rfl
    | simp only [same_mk_iff]
    | with_reducible first
      | apply testBegin_same | apply same_ite | exact sameOpt_none | apply sameOpt_ite
    | split
    | with_reducible first
      | (apply same_pair; assumption) | (apply same_opt; assumption) | (apply same_triple; assumption)

theorem suspectSlice_same {M : Nat} {s0 : State} {d : Nat} {s : State} (hM : Sub 0x101 M) (hs : Same M s0 s) :
    Same M s0 (suspectSlice d s) := by
  unfold suspectSlice
  try dsimp only
  repeat' first
    | intro _
    | with_reducible first
      | assumption | exact hM.of (by decide) | apply sameMk | exact Or.inl (hM.bit (by decide)) | exact Or.inr rfl
    | simp only [same_mk_iff]
    | with_reducible first
      | apply sliceBegin_same | apply testBegin_same | apply same_ite | exact sameOpt_none | apply sameOpt_ite
    | split
    | with_reducible first
      | (apply same_pair; assumption) | (apply same_opt; assumption) | (apply same_triple; assumption)

theorem suspectSlices_same {M : Nat} {s0 : State} {s : State} (hM : Sub 0x101 M) (hs : Same M s0 s) :
    Same M s0 (suspectSlices s) := by
  unfold suspectSlices
  try dsimp only
  repeat' first
    | intro _
    | with_reducible first
      | assumption | exact hM.of (by decide)
    | with_reducible first
      | apply suspectSlice_same | apply same_foldl

theorem suspectClear_same {M : Nat} {s0 : State} {d : Nat} {b : Nat} {s : State} (hM : Sub 0x101 M) (hs : Same M s0 s) :
    Same M s0 (suspectClear d b s) := by
  unfold suspectClear
  try dsimp only
  repeat' first
    | intro _
    | with_reducible first
      | assumption | exact hM.of (by decide) | apply sameMk | exact Or.inl (hM.bit (by decide)) | exact Or.inr rfl
    | simp only [same_mk_iff]
    | with_reducible first
      | apply wr_same | apply putBuf_same

theorem ueRead_same {M : Nat} {s0 : State} {r : Nat} {word : Nat} {tag : Bool} {desc : Bool} {s : State} (hM : Sub 0x183 M) (hs : Same M s0 s) :
    Same M s0 (ueRead r word tag desc s) := by
  unfold ueRead
  try dsimp only
  repeat' first
    | intro _
    | with_reducible first
      | assumption | exact hM.of (by decide) | apply sameMk | exact Or.inl (hM.bit (by decide)) | exact Or.inr rfl
    | simp only [same_mk_iff]
    | with_reducible first
      | apply wr_same | apply wrB_same | apply count_same | apply dieEvent_same | apply putSlot_same
      | apply putBuf_same | apply suspectSlice_same | apply same_ite

theorem readSlot_same {M : Nat} {s0 : State} {r : Nat} {region : Nat} {e : EccRead} {s : State} (hM : Sub 0x183 M) (hs : Same M s0 s) :
    Same M s0 (readSlot r region e s).2 := by
  unfold readSlot
  try dsimp only
  repeat' first
    | intro _
    | with_reducible first
      | assumption | exact hM.of (by decide) | apply sameMk | exact Or.inl (hM.bit (by decide)) | exact Or.inr rfl
    | simp only [same_mk_iff]
    | with_reducible first
      | apply ceRead_same | apply ueRead_same | apply same_ite | apply same_ite2 | exact sameOpt_none
      | apply sameOpt_ite
    | split
    | with_reducible first
      | (apply same_pair; assumption) | (apply same_opt; assumption) | (apply same_triple; assumption)

theorem evacuate_same {M : Nat} {s0 : State} {d : Nat} {s : State} (hM : Sub 0x1 M) (hs : Same M s0 s) :
    Same M s0 (evacuate d s) := by
  unfold evacuate
  try dsimp only
  repeat' first
    | intro _
    | with_reducible first
      | assumption | exact hM.of (by decide) | apply sameMk | exact Or.inl (hM.bit (by decide)) | exact Or.inr rfl
    | simp only [same_mk_iff]
    | with_reducible first
      | apply wr_same | apply setRot_same | apply same_ite | exact sameOpt_none | apply sameOpt_ite
    | split
    | with_reducible first
      | (apply same_pair; assumption) | (apply same_opt; assumption) | (apply same_triple; assumption)

theorem retireBank_same {M : Nat} {s0 : State} {d : Nat} {b : Nat} {s : State} (hM : Sub 0x101 M) (hs : Same M s0 s) :
    Same M s0 (retireBank d b s) := by
  unfold retireBank
  try dsimp only
  repeat' first
    | intro _
    | with_reducible first
      | assumption | exact hM.of (by decide) | apply sameMk | exact Or.inl (hM.bit (by decide)) | exact Or.inr rfl
    | simp only [same_mk_iff]
    | with_reducible first
      | apply wr_same | apply bump_same | apply dieEvent_same | apply putBuf_same | apply setServes_same
      | apply evacuate_same | apply same_ite | exact sameOpt_none | apply sameOpt_ite
    | split
    | with_reducible first
      | (apply same_pair; assumption) | (apply same_opt; assumption) | (apply same_triple; assumption)

theorem rotIdle_same {M : Nat} {s0 : State} {d : Nat} {s : State} (hM : Sub 0x101 M) (hs : Same M s0 s) :
    Same M s0 (rotIdle d s) := by
  unfold rotIdle
  try dsimp only
  repeat' first
    | intro _
    | with_reducible first
      | assumption | exact hM.of (by decide) | apply sameMk | exact Or.inl (hM.bit (by decide)) | exact Or.inr rfl
    | simp only [same_mk_iff]
    | with_reducible first
      | apply wr_same | apply putBuf_same | apply setRot_same | apply same_ite

theorem inPlaceBack_same {M : Nat} {s0 : State} {d : Nat} {bank : Nat} {s : State} (hM : Sub 0x1 M) (hs : Same M s0 s) :
    Same M s0 (inPlaceBack d bank s) := by
  unfold inPlaceBack
  try dsimp only
  repeat' first
    | intro _
    | with_reducible first
      | assumption | exact hM.of (by decide)
    | with_reducible first
      | apply wr_same | apply same_ite

theorem testStopped_same {M : Nat} {s0 : State} {d : Nat} {result : Nat} {cause : Nat} {rows : Nat} {ops : Nat} {s : State} (hM : Sub 0x101 M) (hs : Same M s0 s) :
    Same M s0 (testStopped d result cause rows ops s) := by
  unfold testStopped
  try dsimp only
  repeat' first
    | intro _
    | with_reducible first
      | assumption | exact hM.of (by decide) | apply sameMk | exact Or.inl (hM.bit (by decide)) | exact Or.inr rfl
    | simp only [same_mk_iff]
    | with_reducible first
      | apply wr_same | apply raise_same | apply putBuf_same | apply setRot_same | apply bankRecord_same
      | apply suspectSlice_same | apply rotIdle_same | apply inPlaceBack_same | apply same_ite

theorem testCut_same {M : Nat} {s0 : State} {d : Nat} {result : Nat} {cause : Nat} {s : State} (hM : Sub 0x105 M) (hs : Same M s0 s) :
    Same M s0 (testCut d result cause s) := by
  unfold testCut
  try dsimp only
  repeat' first
    | intro _
    | with_reducible first
      | assumption | exact hM.of (by decide)
    | with_reducible first
      | apply draw_same | apply testStopped_same
    | with_reducible first
      | (apply same_pair; assumption) | (apply same_opt; assumption) | (apply same_triple; assumption)

theorem bankStop_same {M : Nat} {s0 : State} {d : Nat} {result : Nat} {cause : Nat} {s : State} (hM : Sub 0x105 M) (hs : Same M s0 s) :
    Same M s0 (bankStop d result cause s) := by
  unfold bankStop
  try dsimp only
  repeat' first
    | intro _
    | with_reducible first
      | assumption | exact hM.of (by decide) | apply sameMk | exact Or.inl (hM.bit (by decide)) | exact Or.inr rfl
    | simp only [same_mk_iff]
    | with_reducible first
      | apply putBuf_same | apply testCut_same | apply same_ite

end Sys2Proof.Machine
end

