-- ==== Sys2Proof/Laws/SameEqOps.lean ====
section
/-! SUPPORT. What the operations of Machine/EqOps.lean leave as it is (`Same`). -/

namespace Sys2Proof.Machine

theorem exitDrive_same {M : Nat} {s0 : State} {c : Nat} {d : Dir} {taps : List Int} {s : State} (hM : Sub 0x40000 M) (hs : Same M s0 s) :
    Same M s0 (exitDrive c d taps s) := by
  unfold exitDrive
  try dsimp only
  repeat' first
    | intro _
    | with_reducible first
      | assumption | exact hM.of (by decide) | apply sameMk | exact Or.inl (hM.bit (by decide)) | exact Or.inr rfl
    | simp only [same_mk_iff]
    | with_reducible first
      | apply putCkExit_same

theorem loadTx_same {M : Nat} {s0 : State} {n : Nat} {sd : Side} {rung : Nat} {s : State} (hM : Sub 0x50001 M) (hs : Same M s0 s) :
    Same M s0 (loadTx n sd rung s) := by
  unfold loadTx
  try dsimp only
  repeat' first
    | intro _
    | with_reducible first
      | assumption | exact hM.of (by decide) | apply sameMk | exact Or.inl (hM.bit (by decide)) | exact Or.inr rfl
    | simp only [same_mk_iff]
    | with_reducible first
      | apply wr_same | apply putTx_same | apply exitDrive_same | apply same_ite

theorem putCoef_same {M : Nat} {s0 : State} {s : State} {n : Nat} {sd : Side} {v : Coef} (hM : Sub 0x80000 M) (hs : Same M s0 s) :
    Same M s0 (State.putCoef s n sd v) := by
  unfold State.putCoef
  try dsimp only
  repeat' first
    | intro _
    | with_reducible first
      | assumption | exact hM.of (by decide) | apply sameMk | exact Or.inl (hM.bit (by decide)) | exact Or.inr rfl
    | simp only [same_mk_iff]

theorem loadRx_same {M : Nat} {s0 : State} {n : Nat} {sd : Side} {rung : Nat} {s : State} (hM : Sub 0x80000 M) (hs : Same M s0 s) :
    Same M s0 (loadRx n sd rung s) := by
  unfold loadRx
  try dsimp only
  repeat' first
    | intro _
    | with_reducible first
      | assumption | exact hM.of (by decide) | apply sameMk | exact Or.inl (hM.bit (by decide)) | exact Or.inr rfl
    | simp only [same_mk_iff]
    | with_reducible first
      | apply putCoef_same

theorem putEngine_same {M : Nat} {s0 : State} {s : State} {c : Nat} {v : AdaptSt} (hM : Sub 0x100001 M) (hs : Same M s0 s) :
    Same M s0 (State.putEngine s c v) := by
  unfold State.putEngine
  try dsimp only
  repeat' first
    | intro _
    | with_reducible first
      | assumption | exact hM.of (by decide) | apply sameMk | exact Or.inl (hM.bit (by decide)) | exact Or.inr rfl
    | simp only [same_mk_iff]
    | with_reducible first
      | apply wr_same | apply same_ite

theorem nextVisit_same {M : Nat} {s0 : State} {c : Nat} {x0 : Nat} {x1 : Nat} {x2 : State} (hM : Sub 0x1 M) (hx2 : Same M s0 x2) :
    Same M s0 (nextVisit c x0 x1 x2).2 := by
  induction x0 generalizing x1 x2 with
  | zero =>
    unfold nextVisit
    try dsimp only
    repeat' first
      | intro _
      | with_reducible first
        | assumption | exact hM.of (by decide)
      | with_reducible first
        | apply bump_same | apply same_ite | apply same_ite2
      | split
  | succ n ih =>
    unfold nextVisit
    try dsimp only
    repeat' first
      | intro _
      | with_reducible first
        | assumption | apply ih | exact hM.of (by decide)
      | with_reducible first
        | apply bump_same | apply same_ite | apply same_ite2
      | split

theorem engineNext_same {M : Nat} {s0 : State} {c : Nat} {s : State} (hM : Sub 0x300001 M) (hs : Same M s0 s) :
    Same M s0 (engineNext c s) := by
  unfold engineNext
  try dsimp only
  repeat' first
    | intro _
    | with_reducible first
      | assumption | exact hM.of (by decide) | apply sameMk | exact Or.inl (hM.bit (by decide)) | exact Or.inr rfl
    | simp only [same_mk_iff]
    | with_reducible first
      | apply calResume_same | apply sentinelTaken_same | apply putEngine_same | apply nextVisit_same
      | apply same_ite | exact sameOpt_none | apply sameOpt_ite
    | split
    | with_reducible first
      | (apply same_pair; assumption) | (apply same_opt; assumption) | (apply same_triple; assumption)

theorem engineDrop_same {M : Nat} {s0 : State} {c : Nat} {e : Nat} {s : State} (hM : Sub 0x300001 M) (hs : Same M s0 s) :
    Same M s0 (engineDrop c e s) := by
  unfold engineDrop
  try dsimp only
  repeat' first
    | intro _
    | with_reducible first
      | assumption | exact hM.of (by decide) | apply sameMk | exact Or.inl (hM.bit (by decide)) | exact Or.inr rfl
    | simp only [same_mk_iff]
    | with_reducible first
      | apply putEngine_same | apply engineNext_same | apply same_ite

theorem dirAbort_same {M : Nat} {s0 : State} {c : Nat} {d : Dir} {s : State} (hM : Sub 0x300001 M) (hs : Same M s0 s) :
    Same M s0 (dirAbort c d s) := by
  unfold dirAbort
  try dsimp only
  repeat' first
    | intro _
    | with_reducible first
      | assumption | exact hM.of (by decide)
    | with_reducible first
      | apply calAbortDir_same | apply engineNext_same

theorem acqQueue_same {M : Nat} {s0 : State} {n : Nat} {sd : Side} {s : State} (hM : Sub 0x380001 M) (hs : Same M s0 s) :
    Same M s0 (acqQueue n sd s) := by
  unfold acqQueue
  try dsimp only
  repeat' first
    | intro _
    | with_reducible first
      | assumption | exact hM.of (by decide) | apply sameMk | exact Or.inl (hM.bit (by decide)) | exact Or.inr rfl
    | simp only [same_mk_iff]
    | with_reducible first
      | apply wr_same | apply putCoef_same | apply putEngine_same | apply engineNext_same | apply same_ite

theorem acqRequest_same {M : Nat} {s0 : State} {n : Nat} {sd : Side} {rung : Nat} {s : State} (hM : Sub 0x380001 M) (hs : Same M s0 s) :
    Same M s0 (acqRequest n sd rung s) := by
  unfold acqRequest
  try dsimp only
  repeat' first
    | intro _
    | with_reducible first
      | assumption | exact hM.of (by decide) | apply sameMk | exact Or.inl (hM.bit (by decide)) | exact Or.inr rfl
    | simp only [same_mk_iff]
    | with_reducible first
      | apply putCoef_same | apply acqQueue_same | apply same_ite

theorem acqRemove_same {M : Nat} {s0 : State} {n : Nat} {sd : Side} {s : State} (hM : Sub 0x380001 M) (hs : Same M s0 s) :
    Same M s0 (acqRemove n sd s) := by
  unfold acqRemove
  try dsimp only
  repeat' first
    | intro _
    | with_reducible first
      | assumption | exact hM.of (by decide) | apply sameMk | exact Or.inl (hM.bit (by decide)) | exact Or.inr rfl
    | simp only [same_mk_iff]
    | with_reducible first
      | apply wr_same | apply putCoef_same | apply engineDrop_same

theorem adaptLeaves_same {M : Nat} {s0 : State} {n : Nat} {sd : Side} {s : State} (hM : Sub 0x380001 M) (hs : Same M s0 s) :
    Same M s0 (adaptLeaves n sd s) := by
  unfold adaptLeaves
  try dsimp only
  repeat' first
    | intro _
    | with_reducible first
      | assumption | exact hM.of (by decide) | apply sameMk | exact Or.inl (hM.bit (by decide)) | exact Or.inr rfl
    | simp only [same_mk_iff]
    | with_reducible first
      | apply wr_same | apply eyeAbort_same | apply putCoef_same | apply engineDrop_same | apply same_ite

theorem adaptEnters_same {M : Nat} {s0 : State} {n : Nat} {sd : Side} {s : State} (hM : Sub 0x300001 M) (hs : Same M s0 s) :
    Same M s0 (adaptEnters n sd s) := by
  unfold adaptEnters
  try dsimp only
  repeat' first
    | intro _
    | with_reducible first
      | assumption | exact hM.of (by decide)
    | with_reducible first
      | apply wr_same | apply engineNext_same | apply same_ite

theorem acqCancel_same {M : Nat} {s0 : State} {n : Nat} {sd : Side} {s : State} (hM : Sub 0x380001 M) (hs : Same M s0 s) :
    Same M s0 (acqCancel n sd s) := by
  unfold acqCancel
  try dsimp only
  repeat' first
    | intro _
    | with_reducible first
      | assumption | exact hM.of (by decide) | apply sameMk | exact Or.inl (hM.bit (by decide)) | exact Or.inr rfl
    | simp only [same_mk_iff]
    | with_reducible first
      | apply putCoef_same | apply adaptEnters_same | apply same_ite

end Sys2Proof.Machine
end

