-- ==== Sys2Proof/Laws/SameFlits.lean ====
section
/-! SUPPORT. What the operations of Machine/Flits.lean leave as it is (`Same`). -/

namespace Sys2Proof.Machine

theorem txBoundary_same {M : Nat} {s0 : State} {n : Nat} {sd : Side} {s : State} (hM : Sub 0x10000 M) (hs : Same M s0 s) :
    Same M s0 (txBoundary n sd s) := by
  unfold txBoundary
  try dsimp only
  repeat' first
    | intro _
    | with_reducible first
      | assumption | exact hM.of (by decide) | apply sameMk | exact Or.inl (hM.bit (by decide)) | exact Or.inr rfl
    | simp only [same_mk_iff]
    | with_reducible first
      | apply putTx_same
    | split
    | with_reducible first
      | (apply same_pair; assumption) | (apply same_opt; assumption) | (apply same_triple; assumption)

theorem seamSend_same {M : Nat} {s0 : State} {d : Nat} {fail1 : Bool} {fail2 : Bool} {s : State} (hM : Sub 0x3 M) (hs : Same M s0 s) :
    Same M s0 (seamSend d fail1 fail2 s).2 := by
  unfold seamSend
  try dsimp only
  repeat' first
    | intro _
    | with_reducible first
      | assumption | exact hM.of (by decide)
    | with_reducible first
      | apply wr_same | apply bump_same | apply count64_same | apply raise_same | apply same_ite | apply same_ite2

theorem seamFlit_same {M : Nat} {s0 : State} {src : Nat} {dst : Nat} {fail1 : Bool} {fail2 : Bool} {f : Flit} {s : State} (hM : Sub 0x3 M) (hs : Same M s0 s) :
    Same M s0 (seamFlit src dst fail1 fail2 f s).2 := by
  unfold seamFlit
  try dsimp only
  repeat' first
    | intro _
    | with_reducible first
      | assumption | exact hM.of (by decide) | apply sameMk | exact Or.inl (hM.bit (by decide)) | exact Or.inr rfl
    | simp only [same_mk_iff]
    | with_reducible first
      | apply seamSend_same | apply same_ite | apply same_ite2
    | split
    | with_reducible first
      | (apply same_pair; assumption) | (apply same_opt; assumption) | (apply same_triple; assumption)

end Sys2Proof.Machine
end

