-- ==== Sys2Proof/Laws/SameFlows.lean ====
section
/-! SUPPORT. What the operations of Machine/Flows.lean leave as it is (`Same`). -/

namespace Sys2Proof.Machine

theorem countLink_same {M : Nat} {s0 : State} {f : Nat} {c : Nat → Nat → Fld} {s : State} (hM : Sub 0x2 M) (hs : Same M s0 s) :
    Same M s0 (countLink f c s) := by
  unfold countLink
  try dsimp only
  repeat' first
    | intro _
    | with_reducible first
      | assumption | exact hM.of (by decide)
    | with_reducible first
      | apply count_same | apply same_ite

theorem modFlow_same {M : Nat} {s0 : State} {s : State} {f : Nat} {g : Flow → Flow} (hM : Sub 0x200 M) (hs : Same M s0 s) :
    Same M s0 (State.modFlow s f g) := by
  unfold State.modFlow
  try dsimp only
  repeat' first
    | intro _
    | with_reducible first
      | assumption | exact hM.of (by decide)
    | with_reducible first
      | apply putFlow_same

theorem darnEvent_same {M : Nat} {s0 : State} {f : Nat} {event : Nat} {s : State} (hM : Sub 0x1 M) (hs : Same M s0 s) :
    Same M s0 (darnEvent f event s) := by
  unfold darnEvent
  try dsimp only
  repeat' first
    | intro _
    | with_reducible first
      | assumption | exact hM.of (by decide)
    | with_reducible first
      | apply wr_same | apply rgnEvent_same

theorem trunkEvent_same {M : Nat} {s0 : State} {r : Nat} {event : Nat} {index : Nat} {s : State} (hM : Sub 0x1 M) (hs : Same M s0 s) :
    Same M s0 (trunkEvent r event index s) := by
  unfold trunkEvent
  try dsimp only
  repeat' first
    | intro _
    | with_reducible first
      | assumption | exact hM.of (by decide)
    | with_reducible first
      | apply wr_same | apply rgnEvent_same

theorem postAck_same {M : Nat} {s0 : State} {k : Nat} {sd : Side} {a : AckSet} {s : State} (hM : Sub 0x1002 M) (hs : Same M s0 s) :
    Same M s0 (postAck k sd a s) := by
  unfold postAck
  try dsimp only
  repeat' first
    | intro _
    | with_reducible first
      | assumption | exact hM.of (by decide) | apply sameMk | exact Or.inl (hM.bit (by decide)) | exact Or.inr rfl
    | simp only [same_mk_iff]
    | with_reducible first
      | apply count_same | apply putSide_same | apply same_ite

theorem postProxy_same {M : Nat} {s0 : State} {f : Nat} {s : State} (hM : Sub 0x1002 M) (hs : Same M s0 s) :
    Same M s0 (postProxy f s) := by
  unfold postProxy
  try dsimp only
  repeat' first
    | intro _
    | with_reducible first
      | assumption | exact hM.of (by decide)
    | with_reducible first
      | apply postAck_same | apply same_ite

theorem refreshProxy_same {M : Nat} {s0 : State} {f : Nat} {s : State} (hM : Sub 0x1002 M) (hs : Same M s0 s) :
    Same M s0 (refreshProxy f s) := by
  unfold refreshProxy
  try dsimp only
  repeat' first
    | intro _
    | with_reducible first
      | assumption | exact hM.of (by decide)
    | with_reducible first
      | apply count_same | apply postProxy_same | apply same_ite

theorem refreshAck_same {M : Nat} {s0 : State} {f : Nat} {s : State} (hM : Sub 0x1002 M) (hs : Same M s0 s) :
    Same M s0 (refreshAck f s) := by
  unfold refreshAck
  try dsimp only
  repeat' first
    | intro _
    | with_reducible first
      | assumption | exact hM.of (by decide) | apply sameMk | exact Or.inl (hM.bit (by decide)) | exact Or.inr rfl
    | simp only [same_mk_iff]
    | with_reducible first
      | apply countLink_same | apply postAck_same | apply same_ite | exact sameOpt_none | apply sameOpt_ite
    | split
    | with_reducible first
      | (apply same_pair; assumption) | (apply same_opt; assumption) | (apply same_triple; assumption)

theorem allocFlow_same {M : Nat} {s0 : State} {f : Nat} {pair : Bool} {x : Slot} {s : State} (hM : Sub 0x85 M) (hs : Same M s0 s) :
    SameOpt M s0 (allocFlow f pair x s) := by
  unfold allocFlow
  try dsimp only
  repeat' first
    | intro _
    | with_reducible first
      | assumption | exact hM.of (by decide)
    | with_reducible first
      | apply allocSlot_same | apply allocPair_same | exact sameOpt_none | apply sameOpt_some | apply sameOpt_ite
      | apply sameOpt_someP | apply same_ite

theorem writingFreed_same {M : Nat} {s0 : State} {f : Nat} {pair : Bool} {fl : Flit} {s : State} (hM : Sub 0x85 M) (hs : Same M s0 s) :
    Same M s0 (writingFreed f pair fl s) := by
  unfold writingFreed
  try dsimp only
  repeat' first
    | intro _
    | with_reducible first
      | assumption | exact hM.of (by decide) | apply sameMk | exact Or.inl (hM.bit (by decide)) | exact Or.inr rfl
    | simp only [same_mk_iff]
    | with_reducible first
      | apply slotFree_same | apply allocFlow_same
    | split
    | with_reducible first
      | (apply same_pair; assumption) | (apply same_opt; assumption) | (apply same_triple; assumption)

theorem postRec_same {M : Nat} {s0 : State} {t : Nat} {l : Nat} {xoffKind : Bool} {s : State} (hM : Sub 0x400 M) (hs : Same M s0 s) :
    Same M s0 (postRec t l xoffKind s) := by
  unfold postRec
  try dsimp only
  repeat' first
    | intro _
    | with_reducible first
      | assumption | exact hM.of (by decide) | apply sameMk | exact Or.inl (hM.bit (by decide)) | exact Or.inr rfl
    | simp only [same_mk_iff]
    | with_reducible first
      | apply putTrunk_same | apply same_ite | exact sameOpt_none | apply sameOpt_ite
    | split
    | with_reducible first
      | (apply same_pair; assumption) | (apply same_opt; assumption) | (apply same_triple; assumption)

theorem postTrunkAck_same {M : Nat} {s0 : State} {k : Nat} {sd : Side} {s : State} (hM : Sub 0x1402 M) (hs : Same M s0 s) :
    Same M s0 (postTrunkAck k sd s) := by
  unfold postTrunkAck
  try dsimp only
  repeat' first
    | intro _
    | with_reducible first
      | assumption | exact hM.of (by decide) | apply sameMk | exact Or.inl (hM.bit (by decide)) | exact Or.inr rfl
    | simp only [same_mk_iff]
    | with_reducible first
      | apply putTrunk_same | apply postAck_same

theorem postUpstream_same {M : Nat} {s0 : State} {f : Nat} {s : State} (hM : Sub 0x1402 M) (hs : Same M s0 s) :
    Same M s0 (postUpstream f s) := by
  unfold postUpstream
  try dsimp only
  repeat' first
    | intro _
    | with_reducible first
      | assumption | exact hM.of (by decide)
    | with_reducible first
      | apply postProxy_same | apply postRec_same | apply postTrunkAck_same | apply same_ite

theorem qstPeak_same {M : Nat} {s0 : State} {f : Nat} {v : Nat} {s : State} (hM : Sub 0x1 M) (hs : Same M s0 s) :
    Same M s0 (qstPeak f v s) := by
  unfold qstPeak
  try dsimp only
  repeat' first
    | intro _
    | with_reducible first
      | assumption | exact hM.of (by decide)
    | with_reducible first
      | apply wr_same | apply same_ite

theorem xoffUpdate_same {M : Nat} {s0 : State} {f : Nat} {s : State} (hM : Sub 0x1602 M) (hs : Same M s0 s) :
    Same M s0 (xoffUpdate f s) := by
  unfold xoffUpdate
  try dsimp only
  repeat' first
    | intro _
    | with_reducible first
      | assumption | exact hM.of (by decide) | apply sameMk | exact Or.inl (hM.bit (by decide)) | exact Or.inr rfl
    | simp only [same_mk_iff]
    | with_reducible first
      | apply modFlow_same | apply postUpstream_same | apply same_ite

theorem enqueue_same {M : Nat} {s0 : State} {f : Nat} {r : Nat} {s : State} (hM : Sub 0x1603 M) (hs : Same M s0 s) :
    Same M s0 (enqueue f r s) := by
  unfold enqueue
  try dsimp only
  repeat' first
    | intro _
    | with_reducible first
      | assumption | exact hM.of (by decide) | apply sameMk | exact Or.inl (hM.bit (by decide)) | exact Or.inr rfl
    | simp only [same_mk_iff]
    | with_reducible first
      | apply modFlow_same | apply qstPeak_same | apply xoffUpdate_same

theorem dequeue_same {M : Nat} {s0 : State} {f : Nat} {r : Nat} {s : State} (hM : Sub 0x1602 M) (hs : Same M s0 s) :
    Same M s0 (dequeue f r s) := by
  unfold dequeue
  try dsimp only
  repeat' first
    | intro _
    | with_reducible first
      | assumption | exact hM.of (by decide) | apply sameMk | exact Or.inl (hM.bit (by decide)) | exact Or.inr rfl
    | simp only [same_mk_iff]
    | with_reducible first
      | apply modFlow_same | apply xoffUpdate_same

theorem custLost_same {M : Nat} {s0 : State} {f : Nat} {r : Nat} {s : State} (hM : Sub 0x3 M) (hs : Same M s0 s) :
    Same M s0 (custLost f r s) := by
  unfold custLost
  try dsimp only
  repeat' first
    | intro _
    | with_reducible first
      | assumption | exact hM.of (by decide)
    | with_reducible first
      | apply count_same | apply raise_same | apply trunkEvent_same | apply same_ite

theorem handback_same {M : Nat} {s0 : State} {f : Nat} {cause : Nat} {hbEnd : Nat} {s : State} (hM : Sub 0x203 M) (hs : Same M s0 s) :
    Same M s0 (handback f cause hbEnd s) := by
  unfold handback
  try dsimp only
  repeat' first
    | intro _
    | with_reducible first
      | assumption | exact hM.of (by decide) | apply sameMk | exact Or.inl (hM.bit (by decide)) | exact Or.inr rfl
    | simp only [same_mk_iff]
    | with_reducible first
      | apply putFlow_same | apply countLink_same | apply darnEvent_same | apply same_ite

theorem freeCopy_same {M : Nat} {s0 : State} {f : Nat} {r : Nat} {s : State} (hM : Sub 0x280 M) (hs : Same M s0 s) :
    Same M s0 (freeCopy f r s) := by
  unfold freeCopy
  try dsimp only
  repeat' first
    | intro _
    | with_reducible first
      | assumption | exact hM.of (by decide) | apply sameMk | exact Or.inl (hM.bit (by decide)) | exact Or.inr rfl
    | simp only [same_mk_iff]
    | with_reducible first
      | apply pairSet_same | apply modFlow_same | apply same_ite

theorem freeCopies_same {M : Nat} {s0 : State} {f : Nat} {rs : List Nat} {s : State} (hM : Sub 0x280 M) (hs : Same M s0 s) :
    Same M s0 (freeCopies f rs s) := by
  unfold freeCopies
  try dsimp only
  repeat' first
    | intro _
    | with_reducible first
      | assumption | exact hM.of (by decide)
    | with_reducible first
      | apply freeCopy_same | apply same_foldl

theorem forward_same {M : Nat} {s0 : State} {f : Nat} {fl : Flit} {slot : Option Nat} {s : State} (hM : Sub 0x287 M) (hs : Same M s0 s) :
    Same M s0 (forward f fl slot s) := by
  unfold forward
  try dsimp only
  repeat' first
    | intro _
    | with_reducible first
      | assumption | exact hM.of (by decide) | apply sameMk | exact Or.inl (hM.bit (by decide)) | exact Or.inr rfl
    | simp only [same_mk_iff]
    | with_reducible first
      | apply putFlow_same | apply pairSet_same | apply countLink_same | apply modFlow_same | apply darnEvent_same
      | apply allocFlow_same | apply same_ite | exact sameOpt_none | apply sameOpt_ite
    | split
    | with_reducible first
      | (apply same_pair; assumption) | (apply same_opt; assumption) | (apply same_triple; assumption)

theorem darnNew_same {M : Nat} {s0 : State} {f : Nat} {fl : Flit} {s : State} (hM : Sub 0x287 M) (hs : Same M s0 s) :
    Same M s0 (darnNew f fl s) := by
  unfold darnNew
  try dsimp only
  repeat' first
    | intro _
    | with_reducible first
      | assumption | exact hM.of (by decide) | apply sameMk | exact Or.inl (hM.bit (by decide)) | exact Or.inr rfl
    | simp only [same_mk_iff]
    | with_reducible first
      | apply count64_same | apply countLink_same | apply modFlow_same | apply allocFlow_same
      | apply handback_same | apply forward_same | apply same_ite | exact sameOpt_none | apply sameOpt_ite
    | split
    | with_reducible first
      | (apply same_pair; assumption) | (apply same_opt; assumption) | (apply same_triple; assumption)

theorem darnDuplicate_same {M : Nat} {s0 : State} {f : Nat} {fl : Flit} {s : State} (hM : Sub 0x1287 M) (hs : Same M s0 s) :
    Same M s0 (darnDuplicate f fl s) := by
  unfold darnDuplicate
  try dsimp only
  repeat' first
    | intro _
    | with_reducible first
      | assumption | exact hM.of (by decide) | apply sameMk | exact Or.inl (hM.bit (by decide)) | exact Or.inr rfl
    | simp only [same_mk_iff]
    | with_reducible first
      | apply countLink_same | apply refreshAck_same | apply forward_same | apply same_ite | exact sameOpt_none
      | apply sameOpt_ite
    | split
    | with_reducible first
      | (apply same_pair; assumption) | (apply same_opt; assumption) | (apply same_triple; assumption)

theorem fifoArrive_same {M : Nat} {s0 : State} {f : Nat} {fl : Flit} {s : State} (hM : Sub 0x1287 M) (hs : Same M s0 s) :
    Same M s0 (fifoArrive f fl s) := by
  unfold fifoArrive
  try dsimp only
  repeat' first
    | intro _
    | with_reducible first
      | assumption | exact hM.of (by decide) | apply sameMk | exact Or.inl (hM.bit (by decide)) | exact Or.inr rfl
    | simp only [same_mk_iff]
    | with_reducible first
      | apply putFlow_same | apply countLink_same | apply writingFreed_same | apply handback_same
      | apply forward_same | apply darnNew_same | apply darnDuplicate_same | apply same_ite

theorem darnAdvance_same {M : Nat} {s0 : State} {f : Nat} {a : Nat} {s : State} (hM : Sub 0x1682 M) (hs : Same M s0 s) :
    Same M s0 (darnAdvance f a s) := by
  unfold darnAdvance
  try dsimp only
  repeat' first
    | intro _
    | with_reducible first
      | assumption | exact hM.of (by decide) | apply sameMk | exact Or.inl (hM.bit (by decide)) | exact Or.inr rfl
    | simp only [same_mk_iff]
    | with_reducible first
      | apply putFlow_same | apply modFlow_same | apply xoffUpdate_same | apply freeCopies_same | apply same_ite

theorem ackRecord_same {M : Nat} {s0 : State} {f : Nat} {s : State} (hM : Sub 0x600 M) (hs : Same M s0 s) :
    Same M s0 (ackRecord f s) := by
  unfold ackRecord
  try dsimp only
  repeat' first
    | intro _
    | with_reducible first
      | assumption | exact hM.of (by decide) | apply sameMk | exact Or.inl (hM.bit (by decide)) | exact Or.inr rfl
    | simp only [same_mk_iff]
    | with_reducible first
      | apply putTrunk_same | apply modFlow_same | apply postRec_same | apply same_ite | exact sameOpt_none
      | apply sameOpt_ite
    | split
    | with_reducible first
      | (apply same_pair; assumption) | (apply same_opt; assumption) | (apply same_triple; assumption)

theorem darnObserve_same {M : Nat} {s0 : State} {f : Nat} {a : AckSet} {s : State} (hM : Sub 0x1682 M) (hs : Same M s0 s) :
    Same M s0 (darnObserve f a s) := by
  unfold darnObserve
  try dsimp only
  repeat' first
    | intro _
    | with_reducible first
      | assumption | exact hM.of (by decide) | apply sameMk | exact Or.inl (hM.bit (by decide)) | exact Or.inr rfl
    | simp only [same_mk_iff]
    | with_reducible first
      | apply putFlow_same | apply countLink_same | apply darnAdvance_same | apply ackRecord_same | apply same_ite
      | exact sameOpt_none | apply sameOpt_ite
    | split
    | with_reducible first
      | (apply same_pair; assumption) | (apply same_opt; assumption) | (apply same_triple; assumption)

theorem darnGiveUp_same {M : Nat} {s0 : State} {f : Nat} {s : State} (hM : Sub 0x283 M) (hs : Same M s0 s) :
    Same M s0 (darnGiveUp f s) := by
  unfold darnGiveUp
  try dsimp only
  repeat' first
    | intro _
    | with_reducible first
      | assumption | exact hM.of (by decide)
    | with_reducible first
      | apply countLink_same | apply darnEvent_same | apply handback_same | apply freeCopies_same

theorem darnExpire_same {M : Nat} {s0 : State} {f : Nat} {s : State} (hM : Sub 0x283 M) (hs : Same M s0 s) :
    Same M s0 (darnExpire f s) := by
  unfold darnExpire
  try dsimp only
  repeat' first
    | intro _
    | with_reducible first
      | assumption | exact hM.of (by decide) | apply sameMk | exact Or.inl (hM.bit (by decide)) | exact Or.inr rfl
    | simp only [same_mk_iff]
    | with_reducible first
      | apply modFlow_same | apply darnGiveUp_same | apply same_ite | exact sameOpt_none | apply sameOpt_ite
    | split
    | with_reducible first
      | (apply same_pair; assumption) | (apply same_opt; assumption) | (apply same_triple; assumption)

theorem startRun_same {M : Nat} {s0 : State} {f : Nat} {s : State} (hM : Sub 0x282 M) (hs : Same M s0 s) :
    Same M s0 (startRun f s) := by
  unfold startRun
  try dsimp only
  repeat' first
    | intro _
    | with_reducible first
      | assumption | exact hM.of (by decide) | apply sameMk | exact Or.inl (hM.bit (by decide)) | exact Or.inr rfl
    | simp only [same_mk_iff]
    | with_reducible first
      | apply count_same | apply putFlow_same | apply pairSet_same | apply countLink_same | apply same_ite
      | apply same_foldl | exact sameOpt_none | apply sameOpt_ite
    | split
    | with_reducible first
      | (apply same_pair; assumption) | (apply same_opt; assumption) | (apply same_triple; assumption)

theorem endRun_same {M : Nat} {s0 : State} {f : Nat} {s : State} (hM : Sub 0x280 M) (hs : Same M s0 s) :
    Same M s0 (endRun f s) := by
  unfold endRun
  try dsimp only
  repeat' first
    | intro _
    | with_reducible first
      | assumption | exact hM.of (by decide) | apply sameMk | exact Or.inl (hM.bit (by decide)) | exact Or.inr rfl
    | simp only [same_mk_iff]
    | with_reducible first
      | apply putFlow_same | apply pairSet_same | apply same_ite | apply same_foldl

theorem freezeFlow_same {M : Nat} {s0 : State} {f : Nat} {txStops : Bool} {s : State} (hM : Sub 0x280 M) (hs : Same M s0 s) :
    Same M s0 (freezeFlow f txStops s) := by
  unfold freezeFlow
  try dsimp only
  repeat' first
    | intro _
    | with_reducible first
      | assumption | exact hM.of (by decide) | apply sameMk | exact Or.inl (hM.bit (by decide)) | exact Or.inr rfl
    | simp only [same_mk_iff]
    | with_reducible first
      | apply modFlow_same | apply endRun_same | apply same_ite | exact sameOpt_none | apply sameOpt_ite
    | split
    | with_reducible first
      | (apply same_pair; assumption) | (apply same_opt; assumption) | (apply same_triple; assumption)

theorem thawFlow_same {M : Nat} {s0 : State} {f : Nat} {s : State} (hM : Sub 0x200 M) (hs : Same M s0 s) :
    Same M s0 (thawFlow f s) := by
  unfold thawFlow
  try dsimp only
  repeat' first
    | intro _
    | with_reducible first
      | assumption | exact hM.of (by decide) | apply sameMk | exact Or.inl (hM.bit (by decide)) | exact Or.inr rfl
    | simp only [same_mk_iff]
    | with_reducible first
      | apply putFlow_same | apply same_ite | exact sameOpt_none | apply sameOpt_ite
    | split
    | with_reducible first
      | (apply same_pair; assumption) | (apply same_opt; assumption) | (apply same_triple; assumption)

theorem dropFlow_same {M : Nat} {s0 : State} {f : Nat} {lost : Bool} {s : State} (hM : Sub 0x283 M) (hs : Same M s0 s) :
    Same M s0 (dropFlow f lost s) := by
  unfold dropFlow
  try dsimp only
  repeat' first
    | intro _
    | with_reducible first
      | assumption | exact hM.of (by decide)
    | with_reducible first
      | apply putFlow_same | apply slotFree_same | apply custLost_same | apply same_ite | apply same_foldl

theorem startSeq_same {M : Nat} {s0 : State} {f : Nat} {s : State} (hM : Sub 0x200 M) (hs : Same M s0 s) :
    Same M s0 (startSeq f s) := by
  unfold startSeq
  try dsimp only
  repeat' first
    | intro _
    | with_reducible first
      | assumption | exact hM.of (by decide) | apply sameMk | exact Or.inl (hM.bit (by decide)) | exact Or.inr rfl
    | simp only [same_mk_iff]
    | with_reducible first
      | apply modFlow_same

theorem startDarn_same {M : Nat} {s0 : State} {f : Nat} {s : State} (hM : Sub 0x200 M) (hs : Same M s0 s) :
    Same M s0 (startDarn f s) := by
  unfold startDarn
  try dsimp only
  repeat' first
    | intro _
    | with_reducible first
      | assumption | exact hM.of (by decide) | apply sameMk | exact Or.inl (hM.bit (by decide)) | exact Or.inr rfl
    | simp only [same_mk_iff]
    | with_reducible first
      | apply modFlow_same | apply same_ite

theorem startFlow_same {M : Nat} {s0 : State} {f : Nat} {s : State} (hM : Sub 0x200 M) (hs : Same M s0 s) :
    Same M s0 (startFlow f s) := by
  unfold startFlow
  try dsimp only
  repeat' first
    | intro _
    | with_reducible first
      | assumption | exact hM.of (by decide)
    | with_reducible first
      | apply startSeq_same | apply startDarn_same

theorem undarnFlow_same {M : Nat} {s0 : State} {f : Nat} {s : State} (hM : Sub 0x280 M) (hs : Same M s0 s) :
    Same M s0 (undarnFlow f s) := by
  unfold undarnFlow
  try dsimp only
  repeat' first
    | intro _
    | with_reducible first
      | assumption | exact hM.of (by decide) | apply sameMk | exact Or.inl (hM.bit (by decide)) | exact Or.inr rfl
    | simp only [same_mk_iff]
    | with_reducible first
      | apply modFlow_same | apply freeCopies_same | apply same_ite

end Sys2Proof.Machine
end

