-- ==== Sys2Proof/Laws/SameTrunks.lean ====
section
/-! SUPPORT. What the operations of Machine/Trunks.lean leave as it is (`Same`). -/

namespace Sys2Proof.Machine

theorem modTrunk_same {M : Nat} {s0 : State} {s : State} {t : Nat} {g : TrunkSt → TrunkSt} (hM : Sub 0x400 M) (hs : Same M s0 s) :
    Same M s0 (State.modTrunk s t g) := by
  unfold State.modTrunk
  try dsimp only
  repeat' first
    | intro _
    | with_reducible first
      | assumption | exact hM.of (by decide)
    | with_reducible first
      | apply putTrunk_same

theorem countTrunk_same {M : Nat} {s0 : State} {t : Nat} {link : Nat → Fld} {cal : Nat → Nat → Fld} {s : State} (hM : Sub 0x2 M) (hs : Same M s0 s) :
    Same M s0 (countTrunk t link cal s) := by
  unfold countTrunk
  try dsimp only
  repeat' first
    | intro _
    | with_reducible first
      | assumption | exact hM.of (by decide)
    | with_reducible first
      | apply count_same | apply same_ite

theorem countCal_same {M : Nat} {s0 : State} {t : Nat} {c : Nat → Nat → Fld} {s : State} (hM : Sub 0x2 M) (hs : Same M s0 s) :
    Same M s0 (countCal t c s) := by
  unfold countCal
  try dsimp only
  repeat' first
    | intro _
    | with_reducible first
      | assumption | exact hM.of (by decide)
    | with_reducible first
      | apply count_same | apply same_ite

theorem number_same {M : Nat} {s0 : State} {t : Nat} {r : Nat} {s : State} (hM : Sub 0x482 M) (hs : Same M s0 s) :
    Same M s0 (number t r s) := by
  unfold number
  try dsimp only
  repeat' first
    | intro _
    | with_reducible first
      | assumption | exact hM.of (by decide) | apply sameMk | exact Or.inl (hM.bit (by decide)) | exact Or.inr rfl
    | simp only [same_mk_iff]
    | with_reducible first
      | apply count64_same | apply putTrunk_same | apply pairSet_same | apply same_ite

theorem freeNumber_same {M : Nat} {s0 : State} {t : Nat} {r : Nat} {s : State} (hM : Sub 0x480 M) (hs : Same M s0 s) :
    Same M s0 (freeNumber t r s) := by
  unfold freeNumber
  try dsimp only
  repeat' first
    | intro _
    | with_reducible first
      | assumption | exact hM.of (by decide) | apply sameMk | exact Or.inl (hM.bit (by decide)) | exact Or.inr rfl
    | simp only [same_mk_iff]
    | with_reducible first
      | apply pairSet_same | apply modTrunk_same | apply same_ite

theorem freeCovered_same {M : Nat} {s0 : State} {t : Nat} {a : Nat} {s : State} (hM : Sub 0x480 M) (hs : Same M s0 s) :
    Same M s0 (freeCovered t a s).2 := by
  unfold freeCovered
  try dsimp only
  repeat' first
    | intro _
    | with_reducible first
      | assumption | exact hM.of (by decide) | apply sameMk | exact Or.inl (hM.bit (by decide)) | exact Or.inr rfl
    | simp only [same_mk_iff]
    | with_reducible first
      | apply modTrunk_same | apply freeNumber_same | apply same_ite | apply same_ite2 | apply same_foldl

theorem setRun_same {M : Nat} {s0 : State} {t : Nat} {q : List Nat} {s : State} (hM : Sub 0x480 M) (hs : Same M s0 s) :
    Same M s0 (setRun t q s) := by
  unfold setRun
  try dsimp only
  repeat' first
    | intro _
    | with_reducible first
      | assumption | exact hM.of (by decide) | apply sameMk | exact Or.inl (hM.bit (by decide)) | exact Or.inr rfl
    | simp only [same_mk_iff]
    | with_reducible first
      | apply pairSet_same | apply modTrunk_same | apply same_foldl

theorem trunkRun_same {M : Nat} {s0 : State} {t : Nat} {from_ : Option Nat} {s : State} (hM : Sub 0x480 M) (hs : Same M s0 s) :
    Same M s0 (trunkRun t from_ s) := by
  unfold trunkRun
  try dsimp only
  repeat' first
    | intro _
    | with_reducible first
      | assumption | exact hM.of (by decide) | apply sameMk | exact Or.inl (hM.bit (by decide)) | exact Or.inr rfl
    | simp only [same_mk_iff]
    | with_reducible first
      | apply setRun_same
    | split
    | with_reducible first
      | (apply same_pair; assumption) | (apply same_opt; assumption) | (apply same_triple; assumption)

theorem drnAck_same {M : Nat} {s0 : State} {t : Nat} {a : Nat} {s : State} (hM : Sub 0x482 M) (hs : Same M s0 s) :
    Same M s0 (drnAck t a s) := by
  unfold drnAck
  try dsimp only
  repeat' first
    | intro _
    | with_reducible first
      | assumption | exact hM.of (by decide) | apply sameMk | exact Or.inl (hM.bit (by decide)) | exact Or.inr rfl
    | simp only [same_mk_iff]
    | with_reducible first
      | apply count_same | apply freeCovered_same | apply same_ite
    | split
    | with_reducible first
      | (apply same_pair; assumption) | (apply same_opt; assumption) | (apply same_triple; assumption)

theorem drnNak_same {M : Nat} {s0 : State} {t : Nat} {n : Nat} {s : State} (hM : Sub 0x482 M) (hs : Same M s0 s) :
    Same M s0 (drnNak t n s) := by
  unfold drnNak
  try dsimp only
  repeat' first
    | intro _
    | with_reducible first
      | assumption | exact hM.of (by decide) | apply sameMk | exact Or.inl (hM.bit (by decide)) | exact Or.inr rfl
    | simp only [same_mk_iff]
    | with_reducible first
      | apply count_same | apply freeCovered_same | apply trunkRun_same | apply same_ite
    | split
    | with_reducible first
      | (apply same_pair; assumption) | (apply same_opt; assumption) | (apply same_triple; assumption)

theorem freezeTrunk_same {M : Nat} {s0 : State} {t : Nat} {txStops : Bool} {s : State} (hM : Sub 0x480 M) (hs : Same M s0 s) :
    Same M s0 (freezeTrunk t txStops s) := by
  unfold freezeTrunk
  try dsimp only
  repeat' first
    | intro _
    | with_reducible first
      | assumption | exact hM.of (by decide) | apply sameMk | exact Or.inl (hM.bit (by decide)) | exact Or.inr rfl
    | simp only [same_mk_iff]
    | with_reducible first
      | apply modTrunk_same | apply setRun_same | apply same_ite

theorem thawTrunk_same {M : Nat} {s0 : State} {t : Nat} {s : State} (hM : Sub 0x482 M) (hs : Same M s0 s) :
    Same M s0 (thawTrunk t s) := by
  unfold thawTrunk
  try dsimp only
  repeat' first
    | intro _
    | with_reducible first
      | assumption | exact hM.of (by decide) | apply sameMk | exact Or.inl (hM.bit (by decide)) | exact Or.inr rfl
    | simp only [same_mk_iff]
    | with_reducible first
      | apply putTrunk_same | apply trunkRun_same | apply drnNak_same | apply same_ite | exact sameOpt_none
      | apply sameOpt_ite
    | split
    | with_reducible first
      | (apply same_pair; assumption) | (apply same_opt; assumption) | (apply same_triple; assumption)

theorem postDrnAck_same {M : Nat} {s0 : State} {t : Nat} {s : State} (hM : Sub 0x482 M) (hs : Same M s0 s) :
    Same M s0 (postDrnAck t s) := by
  unfold postDrnAck
  try dsimp only
  repeat' first
    | intro _
    | with_reducible first
      | assumption | exact hM.of (by decide) | apply sameMk | exact Or.inl (hM.bit (by decide)) | exact Or.inr rfl
    | simp only [same_mk_iff]
    | with_reducible first
      | apply modTrunk_same | apply drnAck_same

theorem trunkAccepted_same {M : Nat} {s0 : State} {t : Nat} {s : State} (hM : Sub 0x482 M) (hs : Same M s0 s) :
    Same M s0 (trunkAccepted t s) := by
  unfold trunkAccepted
  try dsimp only
  repeat' first
    | intro _
    | with_reducible first
      | assumption | exact hM.of (by decide) | apply sameMk | exact Or.inl (hM.bit (by decide)) | exact Or.inr rfl
    | simp only [same_mk_iff]
    | with_reducible first
      | apply putTrunk_same | apply drnAck_same | apply postDrnAck_same | apply same_ite | exact sameOpt_none
      | apply sameOpt_ite
    | split
    | with_reducible first
      | (apply same_pair; assumption) | (apply same_opt; assumption) | (apply same_triple; assumption)

theorem trunkExpect_same {M : Nat} {s0 : State} {t : Nat} {s : State} (hM : Sub 0x400 M) (hs : Same M s0 s) :
    Same M s0 (trunkExpect t s) := by
  unfold trunkExpect
  try dsimp only
  repeat' first
    | intro _
    | with_reducible first
      | assumption | exact hM.of (by decide) | apply sameMk | exact Or.inl (hM.bit (by decide)) | exact Or.inr rfl
    | simp only [same_mk_iff]
    | with_reducible first
      | apply modTrunk_same

theorem postNak_same {M : Nat} {s0 : State} {t : Nat} {s : State} (hM : Sub 0x482 M) (hs : Same M s0 s) :
    Same M s0 (postNak t s) := by
  unfold postNak
  try dsimp only
  repeat' first
    | intro _
    | with_reducible first
      | assumption | exact hM.of (by decide) | apply sameMk | exact Or.inl (hM.bit (by decide)) | exact Or.inr rfl
    | simp only [same_mk_iff]
    | with_reducible first
      | apply putTrunk_same | apply drnNak_same | apply same_ite | exact sameOpt_none | apply sameOpt_ite
    | split
    | with_reducible first
      | (apply same_pair; assumption) | (apply same_opt; assumption) | (apply same_triple; assumption)

theorem proxyCustody_same {M : Nat} {s0 : State} {f : Nat} {q : Nat} {s : State} (hM : Sub 0x1202 M) (hs : Same M s0 s) :
    Same M s0 (proxyCustody f q s) := by
  unfold proxyCustody
  try dsimp only
  repeat' first
    | intro _
    | with_reducible first
      | assumption | exact hM.of (by decide) | apply sameMk | exact Or.inl (hM.bit (by decide)) | exact Or.inr rfl
    | simp only [same_mk_iff]
    | with_reducible first
      | apply count_same | apply putFlow_same | apply postProxy_same | apply same_ite | exact sameOpt_none
      | apply sameOpt_ite
    | split
    | with_reducible first
      | (apply same_pair; assumption) | (apply same_opt; assumption) | (apply same_triple; assumption)

theorem hold_same {M : Nat} {s0 : State} {f : Nat} {out : Nat} {fl : Flit} {s : State} (hM : Sub 0x1687 M) (hs : Same M s0 s) :
    SameOpt M s0 (hold f out fl s) := by
  unfold hold
  try dsimp only
  repeat' first
    | intro _
    | with_reducible first
      | assumption | exact hM.of (by decide) | apply sameMk | exact Or.inl (hM.bit (by decide)) | exact Or.inr rfl
    | simp only [same_mk_iff]
    | with_reducible first
      | apply count64_same | apply modFlow_same | apply allocFlow_same | apply qstPeak_same
      | apply xoffUpdate_same | apply enqueue_same | exact sameOpt_none | apply sameOpt_some | apply sameOpt_ite
      | apply sameOpt_someP | apply same_ite
    | split
    | with_reducible first
      | (apply same_pair; assumption) | (apply same_opt; assumption) | (apply same_triple; assumption)

theorem xlpDiscard_same {M : Nat} {s0 : State} {f : Nat} {s : State} (hM : Sub 0x2 M) (hs : Same M s0 s) :
    Same M s0 (xlpDiscard f s) := by
  unfold xlpDiscard
  try dsimp only
  repeat' first
    | intro _
    | with_reducible first
      | assumption | exact hM.of (by decide)
    | with_reducible first
      | apply count_same | apply same_ite

theorem entryQueued_same {M : Nat} {s0 : State} {f : Nat} {out : Nat} {fl : Flit} {s : State} (hM : Sub 0x1687 M) (hs : Same M s0 s) :
    Same M s0 (entryQueued f out fl s) := by
  unfold entryQueued
  try dsimp only
  repeat' first
    | intro _
    | with_reducible first
      | assumption | exact hM.of (by decide) | apply sameMk | exact Or.inl (hM.bit (by decide)) | exact Or.inr rfl
    | simp only [same_mk_iff]
    | with_reducible first
      | apply refreshProxy_same | apply writingFreed_same | apply proxyCustody_same | apply hold_same
      | apply xlpDiscard_same | apply same_ite | exact sameOpt_none | apply sameOpt_ite
    | split
    | with_reducible first
      | (apply same_pair; assumption) | (apply same_opt; assumption) | (apply same_triple; assumption)

theorem arrivalCustody_same {M : Nat} {s0 : State} {t : Nat} {f : Nat} {out : Nat} {fl : Flit} {s : State} (hM : Sub 0x1687 M) (hs : Same M s0 s) :
    Same M s0 (arrivalCustody t f out fl s) := by
  unfold arrivalCustody
  try dsimp only
  repeat' first
    | intro _
    | with_reducible first
      | assumption | exact hM.of (by decide) | apply sameMk | exact Or.inl (hM.bit (by decide)) | exact Or.inr rfl
    | simp only [same_mk_iff]
    | with_reducible first
      | apply count_same | apply modFlow_same | apply trunkEvent_same | apply countTrunk_same
      | apply trunkAccepted_same | apply trunkExpect_same | apply hold_same | apply xlpDiscard_same
      | apply same_ite | exact sameOpt_none | apply sameOpt_ite
    | split
    | with_reducible first
      | (apply same_pair; assumption) | (apply same_opt; assumption) | (apply same_triple; assumption)

theorem tornDrop_same {M : Nat} {s0 : State} {l : Nat} {s : State} (hM : Sub 0x3 M) (hs : Same M s0 s) :
    Same M s0 (tornDrop l s) := by
  unfold tornDrop
  try dsimp only
  repeat' first
    | intro _
    | with_reducible first
      | assumption | exact hM.of (by decide)
    | with_reducible first
      | apply wr_same | apply count_same | apply raise_same

theorem invalDrop_same {M : Nat} {s0 : State} {l : Nat} {s : State} (hM : Sub 0x2 M) (hs : Same M s0 s) :
    Same M s0 (invalDrop l s) := by
  unfold invalDrop
  try dsimp only
  repeat' first
    | intro _
    | with_reducible first
      | assumption | exact hM.of (by decide)
    | with_reducible first
      | apply count_same

theorem countIn_same {M : Nat} {s0 : State} {l : Nat} {e : Nat} {s : State} (hM : Sub 0x2 M) (hs : Same M s0 s) :
    Same M s0 (countIn l e s) := by
  unfold countIn
  try dsimp only
  repeat' first
    | intro _
    | with_reducible first
      | assumption | exact hM.of (by decide)
    | with_reducible first
      | apply count_same | apply same_ite

theorem applyRecord_same {M : Nat} {s0 : State} {t : Nat} {b : List Nat} {s : State} {j : Nat} (hM : Sub 0xa02 M) (hs : Same M s0 s) :
    Same M s0 (applyRecord t b s j) := by
  unfold applyRecord
  try dsimp only
  repeat' first
    | intro _
    | with_reducible first
      | assumption | exact hM.of (by decide) | apply sameMk | exact Or.inl (hM.bit (by decide)) | exact Or.inr rfl
    | simp only [same_mk_iff]
    | with_reducible first
      | apply putLl_same | apply modFlow_same | apply countCal_same | apply same_ite | exact sameOpt_none
      | apply sameOpt_ite
    | split
    | with_reducible first
      | (apply same_pair; assumption) | (apply same_opt; assumption) | (apply same_triple; assumption)

theorem controlFlit_same {M : Nat} {s0 : State} {t : Nat} {b : List Nat} {s : State} (hM : Sub 0xe82 M) (hs : Same M s0 s) :
    Same M s0 (controlFlit t b s) := by
  unfold controlFlit
  try dsimp only
  repeat' first
    | intro _
    | with_reducible first
      | assumption | exact hM.of (by decide)
    | with_reducible first
      | apply countCal_same | apply trunkAccepted_same | apply applyRecord_same | apply same_ite
      | apply same_foldl

theorem owedAcks_same {M : Nat} {s0 : State} {t : Nat} {s : State} (hM : Sub 0x600 M) (hs : Same M s0 s) :
    Same M s0 (owedAcks t s) := by
  unfold owedAcks
  try dsimp only
  repeat' first
    | intro _
    | with_reducible first
      | assumption | exact hM.of (by decide)
    | with_reducible first
      | apply ackRecord_same | apply same_ite | apply same_foldl

theorem calAdvance_same {M : Nat} {s0 : State} {c : Nat} {s : State} (hM : Sub 0x400 M) (hs : Same M s0 s) :
    Same M s0 (calAdvance c s) := by
  unfold calAdvance
  try dsimp only
  repeat' first
    | intro _
    | with_reducible first
      | assumption | exact hM.of (by decide) | apply sameMk | exact Or.inl (hM.bit (by decide)) | exact Or.inr rfl
    | simp only [same_mk_iff]
    | with_reducible first
      | apply putTrunk_same | apply same_ite

theorem calFault_same {M : Nat} {s0 : State} {c : Nat} {cause : Nat} {s : State} (hM : Sub 0x403 M) (hs : Same M s0 s) :
    Same M s0 (calFault c cause s) := by
  unfold calFault
  try dsimp only
  repeat' first
    | intro _
    | with_reducible first
      | assumption | exact hM.of (by decide) | apply sameMk | exact Or.inl (hM.bit (by decide)) | exact Or.inr rfl
    | simp only [same_mk_iff]
    | with_reducible first
      | apply wr_same | apply count_same | apply raise_same | apply putTrunk_same | apply calAdvance_same

theorem calWalk_same {M : Nat} {s0 : State} {c : Nat} {x0 : Nat} {x1 : State} (hM : Sub 0x403 M) (hx1 : Same M s0 x1) :
    Same M s0 (calWalk c x0 x1).2 := by
  induction x0 generalizing x1 with
  | zero =>
    unfold calWalk
    try dsimp only
    repeat' first
      | intro _
      | with_reducible first
        | assumption | exact hM.of (by decide) | apply sameMk | exact Or.inl (hM.bit (by decide)) | exact Or.inr rfl
      | simp only [same_mk_iff]
      | with_reducible first
        | apply putTrunk_same | apply calAdvance_same | apply calFault_same | apply same_ite | apply same_ite2
        | exact sameOpt_none | apply sameOpt_ite
      | split
      | with_reducible first
        | (apply same_pair; assumption) | (apply same_opt; assumption) | (apply same_triple; assumption)
  | succ n ih =>
    unfold calWalk
    try dsimp only
    repeat' first
      | intro _
      | with_reducible first
        | assumption | apply ih | exact hM.of (by decide) | apply sameMk | exact Or.inl (hM.bit (by decide)) | exact Or.inr rfl
      | simp only [same_mk_iff]
      | with_reducible first
        | apply putTrunk_same | apply calAdvance_same | apply calFault_same | apply same_ite | apply same_ite2
        | exact sameOpt_none | apply sameOpt_ite
      | split
      | with_reducible first
        | (apply same_pair; assumption) | (apply same_opt; assumption) | (apply same_triple; assumption)

theorem calChoose_same {M : Nat} {s0 : State} {c : Nat} {s : State} (hM : Sub 0x403 M) (hs : Same M s0 s) :
    Same M s0 (calChoose c s).2 := by
  unfold calChoose
  try dsimp only
  repeat' first
    | intro _
    | with_reducible first
      | assumption | exact hM.of (by decide)
    | with_reducible first
      | apply calWalk_same | apply same_ite | apply same_ite2

theorem startTrunk_same {M : Nat} {s0 : State} {k : Nat} {sd : Side} {s : State} (hM : Sub 0x1402 M) (hs : Same M s0 s) :
    Same M s0 (startTrunk k sd s) := by
  unfold startTrunk
  try dsimp only
  repeat' first
    | intro _
    | with_reducible first
      | assumption | exact hM.of (by decide) | apply sameMk | exact Or.inl (hM.bit (by decide)) | exact Or.inr rfl
    | simp only [same_mk_iff]
    | with_reducible first
      | apply putTrunk_same | apply postRec_same | apply postTrunkAck_same | apply modTrunk_same | apply same_ite
      | apply same_foldl

theorem stopTrunk_same {M : Nat} {s0 : State} {k : Nat} {sd : Side} {s : State} (hM : Sub 0x483 M) (hs : Same M s0 s) :
    Same M s0 (stopTrunk k sd s) := by
  unfold stopTrunk
  try dsimp only
  repeat' first
    | intro _
    | with_reducible first
      | assumption | exact hM.of (by decide)
    | with_reducible first
      | apply wr_same | apply putTrunk_same | apply slotFree_same | apply custLost_same | apply same_ite
      | apply same_foldl

end Sys2Proof.Machine
end

