-- ==== Sys2Proof/Laws/SameSpanOps.lean ====
section
/-! SUPPORT. What the operations of Machine/SpanOps.lean leave as it is (`Same`). -/

namespace Sys2Proof.Machine

theorem electSync_same {M : Nat} {s0 : State} {g : List (Nat × Side)} {s : State} (hM : Sub 0x5 M) (hs : Same M s0 s) :
    Same M s0 (electSync g s) := by
  unfold electSync
  try dsimp only
  repeat' first
    | intro _
    | with_reducible first
      | assumption | exact hM.of (by decide)
    | with_reducible first
      | apply wr_same | apply wrB_same | apply same_foldl

theorem electDraw_same {M : Nat} {s0 : State} {g : List (Nat × Side)} {s : State} (hM : Sub 0x2005 M) (hs : Same M s0 s) :
    Same M s0 (electDraw g s) := by
  unfold electDraw
  try dsimp only
  repeat' first
    | intro _
    | with_reducible first
      | assumption | exact hM.of (by decide) | apply sameMk | exact Or.inl (hM.bit (by decide)) | exact Or.inr rfl
    | simp only [same_mk_iff]
    | with_reducible first
      | apply draw_same | apply putSpan_same | apply electSync_same | apply same_foldl
    | with_reducible first
      | (apply same_pair; assumption) | (apply same_opt; assumption) | (apply same_triple; assumption)

theorem postTrn_same {M : Nat} {s0 : State} {k : Nat} {sd : Side} {t : TrnSet} {s : State} (hM : Sub 0x1000 M) (hs : Same M s0 s) :
    Same M s0 (postTrn k sd t s) := by
  unfold postTrn
  try dsimp only
  repeat' first
    | intro _
    | with_reducible first
      | assumption | exact hM.of (by decide) | apply sameMk | exact Or.inl (hM.bit (by decide)) | exact Or.inr rfl
    | simp only [same_mk_iff]
    | with_reducible first
      | apply putSide_same

end Sys2Proof.Machine
end

