-- ==== Sys2Proof/Laws/SameSched.lean ====
section
/-! SUPPORT. What the operations of Machine/Sched.lean leave as it is (`Same`). -/

namespace Sys2Proof.Machine

theorem readPair_same {M : Nat} {s0 : State} {r : Nat} {region : Nat} {r1 : EccRead} {r2 : EccRead} {s : State} (hM : Sub 0x183 M) (hs : Same M s0 s) :
    Same M s0 (readPair r region r1 r2 s).2 := by
  unfold readPair
  try dsimp only
  repeat' first
    | intro _
    | with_reducible first
      | assumption | exact hM.of (by decide) | apply sameMk | exact Or.inl (hM.bit (by decide)) | exact Or.inr rfl
    | simp only [same_mk_iff]
    | with_reducible first
      | apply readSlot_same | apply same_ite | apply same_ite2 | exact sameOpt_none | apply sameOpt_ite
    | split
    | with_reducible first
      | (apply same_pair; assumption) | (apply same_opt; assumption) | (apply same_triple; assumption)

theorem loseFlit_same {M : Nat} {s0 : State} {f : Nat} {r : Nat} {s : State} (hM : Sub 0x283 M) (hs : Same M s0 s) :
    Same M s0 (loseFlit f r s) := by
  unfold loseFlit
  try dsimp only
  repeat' first
    | intro _
    | with_reducible first
      | assumption | exact hM.of (by decide)
    | with_reducible first
      | apply count_same | apply custLost_same | apply handback_same | apply freeCopy_same | apply same_ite

theorem loseFrom_same {M : Nat} {s0 : State} {f : Nat} {r : Nat} {desc : Bool} {s : State} (hM : Sub 0x283 M) (hs : Same M s0 s) :
    Same M s0 (loseFrom f r desc s) := by
  unfold loseFrom
  try dsimp only
  repeat' first
    | intro _
    | with_reducible first
      | assumption | exact hM.of (by decide)
    | with_reducible first
      | apply loseFlit_same | apply same_ite | apply same_foldl

theorem slotSent_same {M : Nat} {s0 : State} {r : Nat} {s : State} (hM : Sub 0x80 M) (hs : Same M s0 s) :
    Same M s0 (slotSent r s) := by
  unfold slotSent
  try dsimp only
  repeat' first
    | intro _
    | with_reducible first
      | assumption | exact hM.of (by decide) | apply sameMk | exact Or.inl (hM.bit (by decide)) | exact Or.inr rfl
    | simp only [same_mk_iff]
    | with_reducible first
      | apply putSlot_same | apply sendingEnds_same
    | split
    | with_reducible first
      | (apply same_pair; assumption) | (apply same_opt; assumption) | (apply same_triple; assumption)

theorem timerRestart_same {M : Nat} {s0 : State} {r : Nat} {s : State} (hM : Sub 0x600 M) (hs : Same M s0 s) :
    Same M s0 (timerRestart r s) := by
  unfold timerRestart
  try dsimp only
  repeat' first
    | intro _
    | with_reducible first
      | assumption | exact hM.of (by decide) | apply sameMk | exact Or.inl (hM.bit (by decide)) | exact Or.inr rfl
    | simp only [same_mk_iff]
    | with_reducible first
      | apply same_ite

theorem itemDone_same {M : Nat} {s0 : State} {k : Nat} {sd : Side} {s : State} (hM : Sub 0x11680 M) (hs : Same M s0 s) :
    Same M s0 (itemDone k sd s) := by
  unfold itemDone
  try dsimp only
  repeat' first
    | intro _
    | with_reducible first
      | assumption | exact hM.of (by decide) | apply sameMk | exact Or.inl (hM.bit (by decide)) | exact Or.inr rfl
    | simp only [same_mk_iff]
    | with_reducible first
      | apply putSide_same | apply txBoundary_same | apply modFlow_same | apply modTrunk_same
      | apply slotSent_same | apply timerRestart_same | apply same_ite | apply same_foldl | exact sameOpt_none
      | apply sameOpt_ite
    | split
    | with_reducible first
      | (apply same_pair; assumption) | (apply same_opt; assumption) | (apply same_triple; assumption)

theorem txSends_same {M : Nat} {s0 : State} {n : Nat} {sd : Side} {syms : List Sym} {s : State} (hM : Sub 0x10000 M) (hs : Same M s0 s) :
    Same M s0 (txSends n sd syms s) := by
  unfold txSends
  try dsimp only
  repeat' first
    | intro _
    | with_reducible first
      | assumption | exact hM.of (by decide) | apply sameMk | exact Or.inl (hM.bit (by decide)) | exact Or.inr rfl
    | simp only [same_mk_iff]
    | with_reducible first
      | apply putTx_same | apply same_ite

theorem spareSends_same {M : Nat} {s0 : State} {k : Nat} {sd : Side} {ls : List (List Sym)} {s : State} {c : Nat} (hM : Sub 0x810000 M) (hs : Same M s0 s) :
    Same M s0 (spareSends k sd ls s c) := by
  unfold spareSends
  try dsimp only
  repeat' first
    | intro _
    | with_reducible first
      | assumption | exact hM.of (by decide) | apply sameMk | exact Or.inl (hM.bit (by decide)) | exact Or.inr rfl
    | simp only [same_mk_iff]
    | with_reducible first
      | apply putBob_same | apply txSends_same | apply same_ite | exact sameOpt_none | apply sameOpt_ite
    | split
    | with_reducible first
      | (apply same_pair; assumption) | (apply same_opt; assumption) | (apply same_triple; assumption)

theorem itemStart_same {M : Nat} {s0 : State} {k : Nat} {sd : Side} {i : Item} {s : State} (hM : Sub 0x811000 M) (hs : Same M s0 s) :
    Same M s0 (itemStart k sd i s) := by
  unfold itemStart
  try dsimp only
  repeat' first
    | intro _
    | with_reducible first
      | assumption | exact hM.of (by decide) | apply sameMk | exact Or.inl (hM.bit (by decide)) | exact Or.inr rfl
    | simp only [same_mk_iff]
    | with_reducible first
      | apply putSide_same | apply txSends_same | apply spareSends_same | apply same_ite | apply same_foldl
    | split
    | with_reducible first
      | (apply same_pair; assumption) | (apply same_opt; assumption) | (apply same_triple; assumption)

theorem eieRest_same {M : Nat} {s0 : State} {sd : Side} {s : State} {n : Nat} (hM : Sub 0x10000 M) (hs : Same M s0 s) :
    Same M s0 (eieRest sd s n) := by
  unfold eieRest
  try dsimp only
  repeat' first
    | intro _
    | with_reducible first
      | assumption | exact hM.of (by decide) | apply sameMk | exact Or.inl (hM.bit (by decide)) | exact Or.inr rfl
    | simp only [same_mk_iff]
    | with_reducible first
      | apply putTx_same | apply txSends_same

theorem markSending_same {M : Nat} {s0 : State} {r : Nat} {s : State} (hM : Sub 0x80 M) (hs : Same M s0 s) :
    Same M s0 (markSending r s) := by
  unfold markSending
  try dsimp only
  repeat' first
    | intro _
    | with_reducible first
      | assumption | exact hM.of (by decide) | apply sameMk | exact Or.inl (hM.bit (by decide)) | exact Or.inr rfl
    | simp only [same_mk_iff]
    | with_reducible first
      | apply putSlot_same

theorem countForward_same {M : Nat} {s0 : State} {f : Nat} {out : Nat} {poison : Bool} {s : State} (hM : Sub 0x2 M) (hs : Same M s0 s) :
    Same M s0 (countForward f out poison s) := by
  unfold countForward
  try dsimp only
  repeat' first
    | intro _
    | with_reducible first
      | assumption | exact hM.of (by decide)
    | with_reducible first
      | apply count_same | apply count64_same | apply same_ite

theorem countReplayed_same {M : Nat} {s0 : State} {f : Nat} {s : State} (hM : Sub 0x2 M) (hs : Same M s0 s) :
    Same M s0 (countReplayed f s) := by
  unfold countReplayed
  try dsimp only
  repeat' first
    | intro _
    | with_reducible first
      | assumption | exact hM.of (by decide)
    | with_reducible first
      | apply count_same | apply same_ite

theorem sendReplay_same {M : Nat} {s0 : State} {f : Nat} {r : Nat} {r1 : EccRead} {r2 : EccRead} {s : State} (hM : Sub 0x1783 M) (hs : Same M s0 s) :
    Same M s0 (sendReplay f r r1 r2 s).2 := by
  unfold sendReplay
  try dsimp only
  repeat' first
    | intro _
    | with_reducible first
      | assumption | exact hM.of (by decide) | apply sameMk | exact Or.inl (hM.bit (by decide)) | exact Or.inr rfl
    | simp only [same_mk_iff]
    | with_reducible first
      | apply pairSet_same | apply modFlow_same | apply xoffUpdate_same | apply readPair_same
      | apply loseFrom_same | apply markSending_same | apply countForward_same | apply countReplayed_same
      | apply same_ite | apply same_ite2 | exact sameOpt_none | apply sameOpt_ite
    | split
    | with_reducible first
      | (apply same_pair; assumption) | (apply same_opt; assumption) | (apply same_triple; assumption)

theorem sendQueued_same {M : Nat} {s0 : State} {f : Nat} {r : Nat} {word : Nat} {r1 : EccRead} {r2 : EccRead} {s : State} (hM : Sub 0x1783 M) (hs : Same M s0 s) :
    Same M s0 (sendQueued f r word r1 r2 s).2 := by
  unfold sendQueued
  try dsimp only
  repeat' first
    | intro _
    | with_reducible first
      | assumption | exact hM.of (by decide) | apply sameMk | exact Or.inl (hM.bit (by decide)) | exact Or.inr rfl
    | simp only [same_mk_iff]
    | with_reducible first
      | apply pairSet_same | apply xoffUpdate_same | apply dequeue_same | apply readPair_same
      | apply loseFrom_same | apply markSending_same | apply countForward_same
    | split
    | with_reducible first
      | (apply same_pair; assumption) | (apply same_opt; assumption) | (apply same_triple; assumption)

theorem sendFifo_same {M : Nat} {s0 : State} {f : Nat} {e : FifoEnt} {s : State} (hM : Sub 0x82 M) (hs : Same M s0 s) :
    Same M s0 (sendFifo f e s).2 := by
  unfold sendFifo
  try dsimp only
  repeat' first
    | intro _
    | with_reducible first
      | assumption | exact hM.of (by decide) | apply sameMk | exact Or.inl (hM.bit (by decide)) | exact Or.inr rfl
    | simp only [same_mk_iff]
    | with_reducible first
      | apply markSending_same | apply countForward_same
    | split
    | with_reducible first
      | (apply same_pair; assumption) | (apply same_opt; assumption) | (apply same_triple; assumption)

theorem loseNumbered_same {M : Nat} {s0 : State} {t : Nat} {r : Nat} {desc : Bool} {s : State} (hM : Sub 0x483 M) (hs : Same M s0 s) :
    Same M s0 (loseNumbered t r desc s) := by
  unfold loseNumbered
  try dsimp only
  repeat' first
    | intro _
    | with_reducible first
      | assumption | exact hM.of (by decide)
    | with_reducible first
      | apply custLost_same | apply freeNumber_same | apply same_ite | apply same_foldl

theorem loseSlot_same {M : Nat} {s0 : State} {r : Nat} {desc : Bool} {s : State} (hM : Sub 0x1683 M) (hs : Same M s0 s) :
    Same M s0 (loseSlot r desc s) := by
  unfold loseSlot
  try dsimp only
  repeat' first
    | intro _
    | with_reducible first
      | assumption | exact hM.of (by decide) | apply sameMk | exact Or.inl (hM.bit (by decide)) | exact Or.inr rfl
    | simp only [same_mk_iff]
    | with_reducible first
      | apply xoffUpdate_same | apply loseFrom_same | apply loseNumbered_same
    | split
    | with_reducible first
      | (apply same_pair; assumption) | (apply same_opt; assumption) | (apply same_triple; assumption)

theorem sendRun_same {M : Nat} {s0 : State} {t : Nat} {r : Nat} {r1 : EccRead} {r2 : EccRead} {s : State} (hM : Sub 0x583 M) (hs : Same M s0 s) :
    Same M s0 (sendRun t r r1 r2 s).2 := by
  unfold sendRun
  try dsimp only
  repeat' first
    | intro _
    | with_reducible first
      | assumption | exact hM.of (by decide) | apply sameMk | exact Or.inl (hM.bit (by decide)) | exact Or.inr rfl
    | simp only [same_mk_iff]
    | with_reducible first
      | apply pairSet_same | apply modTrunk_same | apply countTrunk_same | apply readPair_same
      | apply markSending_same | apply loseNumbered_same | apply same_ite | apply same_ite2 | exact sameOpt_none
      | apply sameOpt_ite
    | split
    | with_reducible first
      | (apply same_pair; assumption) | (apply same_opt; assumption) | (apply same_triple; assumption)

theorem sendNumbered_same {M : Nat} {s0 : State} {t : Nat} {f : Nat} {r : Nat} {r1 : EccRead} {r2 : EccRead} {s : State} (hM : Sub 0x1783 M) (hs : Same M s0 s) :
    Same M s0 (sendNumbered t f r r1 r2 s).2 := by
  unfold sendNumbered
  try dsimp only
  repeat' first
    | intro _
    | with_reducible first
      | assumption | exact hM.of (by decide) | apply sameMk | exact Or.inl (hM.bit (by decide)) | exact Or.inr rfl
    | simp only [same_mk_iff]
    | with_reducible first
      | apply number_same | apply sendQueued_same | apply same_ite | apply same_ite2 | exact sameOpt_none
      | apply sameOpt_ite
    | split
    | with_reducible first
      | (apply same_pair; assumption) | (apply same_opt; assumption) | (apply same_triple; assumption)

theorem sendControl_same {M : Nat} {s0 : State} {t : Nat} {s : State} (hM : Sub 0x487 M) (hs : Same M s0 s) :
    SameOpt M s0 (sendControl t s) := by
  unfold sendControl
  try dsimp only
  repeat' first
    | intro _
    | with_reducible first
      | assumption | exact hM.of (by decide) | apply sameMk | exact Or.inl (hM.bit (by decide)) | exact Or.inr rfl
    | simp only [same_mk_iff]
    | with_reducible first
      | apply allocPair_same | apply modTrunk_same | apply countCal_same | apply number_same
      | apply markSending_same | exact sameOpt_none | apply sameOpt_some | apply sameOpt_ite | apply sameOpt_someP
      | apply same_ite
    | split
    | with_reducible first
      | (apply same_pair; assumption) | (apply same_opt; assumption) | (apply same_triple; assumption)

theorem trunkFlit_same {M : Nat} {s0 : State} {k : Nat} {sd : Side} {r1 : EccRead} {r2 : EccRead} {s : State} (hM : Sub 0x1787 M) (hs : Same M s0 s) :
    Same M s0 (trunkFlit k sd r1 r2 s).2 := by
  unfold trunkFlit
  try dsimp only
  repeat' first
    | intro _
    | with_reducible first
      | assumption | exact hM.of (by decide) | apply sameMk | exact Or.inl (hM.bit (by decide)) | exact Or.inr rfl
    | simp only [same_mk_iff]
    | with_reducible first
      | apply calChoose_same | apply sendRun_same | apply sendNumbered_same | apply sendControl_same
      | apply same_ite | apply same_ite2 | exact sameOpt_none | apply sameOpt_ite
    | split
    | with_reducible first
      | (apply same_pair; assumption) | (apply same_opt; assumption) | (apply same_triple; assumption)

theorem nextFlit_same {M : Nat} {s0 : State} {k : Nat} {sd : Side} {r1 : EccRead} {r2 : EccRead} {s : State} (hM : Sub 0x1787 M) (hs : Same M s0 s) :
    Same M s0 (nextFlit k sd r1 r2 s).2 := by
  unfold nextFlit
  try dsimp only
  repeat' first
    | intro _
    | with_reducible first
      | assumption | exact hM.of (by decide) | apply sameMk | exact Or.inl (hM.bit (by decide)) | exact Or.inr rfl
    | simp only [same_mk_iff]
    | with_reducible first
      | apply startRun_same | apply sendReplay_same | apply sendQueued_same | apply sendFifo_same
      | apply trunkFlit_same | apply same_ite | apply same_ite2 | apply same_foldl | exact sameOpt_none
      | apply sameOpt_ite
    | split
    | with_reducible first
      | (apply same_pair; assumption) | (apply same_opt; assumption) | (apply same_triple; assumption)

theorem drnStarts_same {M : Nat} {s0 : State} {t : Nat} {d : DrnSet} {s : State} (hM : Sub 0x482 M) (hs : Same M s0 s) :
    Same M s0 (drnStarts t d s) := by
  unfold drnStarts
  try dsimp only
  repeat' first
    | intro _
    | with_reducible first
      | assumption | exact hM.of (by decide) | apply sameMk | exact Or.inl (hM.bit (by decide)) | exact Or.inr rfl
    | simp only [same_mk_iff]
    | with_reducible first
      | apply modTrunk_same | apply countTrunk_same | apply drnAck_same | apply drnNak_same
    | split
    | with_reducible first
      | (apply same_pair; assumption) | (apply same_opt; assumption) | (apply same_triple; assumption)

theorem ackStarts_same {M : Nat} {s0 : State} {k : Nat} {sd : Side} {a : AckSet} {s : State} (hM : Sub 0x200 M) (hs : Same M s0 s) :
    Same M s0 (ackStarts k sd a s) := by
  unfold ackStarts
  try dsimp only
  repeat' first
    | intro _
    | with_reducible first
      | assumption | exact hM.of (by decide) | apply sameMk | exact Or.inl (hM.bit (by decide)) | exact Or.inr rfl
    | simp only [same_mk_iff]
    | with_reducible first
      | apply modFlow_same | apply same_ite | apply same_foldl

theorem chooseItem_same {M : Nat} {s0 : State} {k : Nat} {sd : Side} {r1 : EccRead} {r2 : EccRead} {s : State} (hM : Sub 0x813787 M) (hs : Same M s0 s) :
    Same M s0 (chooseItem k sd r1 r2 s) := by
  unfold chooseItem
  try dsimp only
  repeat' first
    | intro _
    | with_reducible first
      | assumption | exact hM.of (by decide) | apply sameMk | exact Or.inl (hM.bit (by decide)) | exact Or.inr rfl
    | simp only [same_mk_iff]
    | with_reducible first
      | apply bump_same | apply putSpan_same | apply putSide_same | apply itemStart_same | apply nextFlit_same
      | apply drnStarts_same | apply ackStarts_same | apply same_ite | exact sameOpt_none | apply sameOpt_ite
    | split
    | with_reducible first
      | (apply same_pair; assumption) | (apply same_opt; assumption) | (apply same_triple; assumption)

theorem syncFreeze_same {M : Nat} {s0 : State} {k : Nat} {sd : Side} {s : State} (hM : Sub 0x682 M) (hs : Same M s0 s) :
    Same M s0 (syncFreeze k sd s) := by
  unfold syncFreeze
  try dsimp only
  repeat' first
    | intro _
    | with_reducible first
      | assumption | exact hM.of (by decide)
    | with_reducible first
      | apply freezeFlow_same | apply thawFlow_same | apply freezeTrunk_same | apply thawTrunk_same
      | apply same_ite | apply same_foldl

theorem syncCluster_same {M : Nat} {s0 : State} {c : Nat} {s : State} (hM : Sub 0x682 M) (hs : Same M s0 s) :
    Same M s0 (syncCluster c s) := by
  unfold syncCluster
  try dsimp only
  repeat' first
    | intro _
    | with_reducible first
      | assumption | exact hM.of (by decide)
    | with_reducible first
      | apply syncFreeze_same | apply same_foldl

theorem intrEnd_same {M : Nat} {s0 : State} {c : Nat} {at_ : Option Nat} {s : State} (hM : Sub 0x800683 M) (hs : Same M s0 s) :
    Same M s0 (intrEnd c at_ s) := by
  unfold intrEnd
  try dsimp only
  repeat' first
    | intro _
    | with_reducible first
      | assumption | exact hM.of (by decide) | apply sameMk | exact Or.inl (hM.bit (by decide)) | exact Or.inr rfl
    | simp only [same_mk_iff]
    | with_reducible first
      | apply wr_same | apply putBob_same | apply syncCluster_same | apply same_ite | exact sameOpt_none
      | apply sameOpt_ite
    | split
    | with_reducible first
      | (apply same_pair; assumption) | (apply same_opt; assumption) | (apply same_triple; assumption)

theorem nbrSwitched_same {M : Nat} {s0 : State} {s : State} (hM : Sub 0x800683 M) (hs : Same M s0 s) :
    Same M s0 (nbrSwitched s) := by
  unfold nbrSwitched
  try dsimp only
  repeat' first
    | intro _
    | with_reducible first
      | assumption | exact hM.of (by decide) | apply sameMk | exact Or.inl (hM.bit (by decide)) | exact Or.inr rfl
    | simp only [same_mk_iff]
    | with_reducible first
      | apply intrEnd_same | apply same_ite | apply same_foldl | exact sameOpt_none | apply sameOpt_ite
    | split
    | with_reducible first
      | (apply same_pair; assumption) | (apply same_opt; assumption) | (apply same_triple; assumption)

theorem linkDropTraffic_same {M : Nat} {s0 : State} {k : Nat} {s : State} (hM : Sub 0x80001683 M) (hs : Same M s0 s) :
    Same M s0 (linkDropTraffic k s) := by
  unfold linkDropTraffic
  try dsimp only
  repeat' first
    | intro _
    | with_reducible first
      | assumption | exact hM.of (by decide) | apply sameMk | exact Or.inl (hM.bit (by decide)) | exact Or.inr rfl
    | simp only [same_mk_iff]
    | with_reducible first
      | apply putSide_same | apply dropFlow_same | apply stopTrunk_same | apply same_ite | apply same_foldl

theorem linkStart_same {M : Nat} {s0 : State} {k : Nat} {s : State} (hM : Sub 0x1602 M) (hs : Same M s0 s) :
    Same M s0 (linkStart k s) := by
  unfold linkStart
  try dsimp only
  repeat' first
    | intro _
    | with_reducible first
      | assumption | exact hM.of (by decide)
    | with_reducible first
      | apply startSeq_same | apply startDarn_same | apply startTrunk_same | apply same_ite | apply same_foldl

end Sys2Proof.Machine
end

