-- ==== Sys2Proof/Laws/SamePatterns.lean ====
section
/-! SUPPORT. What the operations of Machine/Patterns.lean leave as it is (`Same`). -/

namespace Sys2Proof.Machine

theorem genTick_same {M : Nat} {s0 : State} {s : State} {n : Nat} {sd : Side} (hM : Sub 0x10000 M) (hs : Same M s0 s) :
    Same M s0 (genTick s n sd) := by
  unfold genTick
  try dsimp only
  repeat' first
    | intro _
    | with_reducible first
      | assumption | exact hM.of (by decide) | apply sameMk | exact Or.inl (hM.bit (by decide)) | exact Or.inr rfl
    | simp only [same_mk_iff]
    | with_reducible first
      | apply putTx_same | apply same_ite | exact sameOpt_none | apply sameOpt_ite
    | split
    | with_reducible first
      | (apply same_pair; assumption) | (apply same_opt; assumption) | (apply same_triple; assumption)

theorem genTicks_same {M : Nat} {s0 : State} {s : State} (hM : Sub 0x10000 M) (hs : Same M s0 s) :
    Same M s0 (genTicks s) := by
  unfold genTicks
  try dsimp only
  repeat' first
    | intro _
    | with_reducible first
      | assumption | exact hM.of (by decide)
    | with_reducible first
      | apply genTick_same | apply same_foldl

end Sys2Proof.Machine
end

