-- ==== Sys2Proof/Laws/SameClockOps.lean ====
section
/-! SUPPORT. What the operations of Machine/ClockOps.lean leave as it is (`Same`). -/

namespace Sys2Proof.Machine

theorem rxAgain_same {M : Nat} {s0 : State} {n : Nat} {sd : Side} {s : State} (hM : Sub 0x388001 M) (hs : Same M s0 s) :
    Same M s0 (rxAgain n sd s) := by
  unfold rxAgain
  try dsimp only
  repeat' first
    | intro _
    | with_reducible first
      | assumption | exact hM.of (by decide) | apply sameMk | exact Or.inl (hM.bit (by decide)) | exact Or.inr rfl
    | simp only [same_mk_iff]
    | with_reducible first
      | apply wr_same | apply putRx_same | apply adaptLeaves_same | apply same_ite

theorem rxRestart_same {M : Nat} {s0 : State} {c : Nat} {d : Dir} {s : State} (hM : Sub 0x388001 M) (hs : Same M s0 s) :
    Same M s0 (rxRestart c d s) := by
  unfold rxRestart
  try dsimp only
  repeat' first
    | intro _
    | with_reducible first
      | assumption | exact hM.of (by decide)
    | with_reducible first
      | apply rxAgain_same | apply same_foldl

theorem ebReset_same {M : Nat} {s0 : State} {c : Nat} {d : Dir} {s : State} (hM : Sub 0x1 M) (hs : Same M s0 s) :
    Same M s0 (ebReset c d s) := by
  unfold ebReset
  try dsimp only
  repeat' first
    | intro _
    | with_reducible first
      | assumption | exact hM.of (by decide)
    | with_reducible first
      | apply wr_same | apply same_ite

theorem densePost_same {M : Nat} {s0 : State} {c : Nat} {d : Dir} {kind : Nat} {s : State} (hM : Sub 0x1000 M) (hs : Same M s0 s) :
    Same M s0 (densePost c d kind s) := by
  unfold densePost
  try dsimp only
  repeat' first
    | intro _
    | with_reducible first
      | assumption | exact hM.of (by decide)
    | with_reducible first
      | apply postTrn_same | apply same_ite | apply same_foldl

theorem denseAsk_same {M : Nat} {s0 : State} {c : Nat} {d : Dir} {request : Bool} {s : State} (hM : Sub 0x21001 M) (hs : Same M s0 s) :
    Same M s0 (denseAsk c d request s) := by
  unfold denseAsk
  try dsimp only
  repeat' first
    | intro _
    | with_reducible first
      | assumption | exact hM.of (by decide) | apply sameMk | exact Or.inl (hM.bit (by decide)) | exact Or.inr rfl
    | simp only [same_mk_iff]
    | with_reducible first
      | apply wrB_same | apply putCk_same | apply densePost_same | apply same_ite

theorem setDense_same {M : Nat} {s0 : State} {k : Nat} {sd : Side} {on : Bool} {s : State} (hM : Sub 0x1000 M) (hs : Same M s0 s) :
    Same M s0 (setDense k sd on s) := by
  unfold setDense
  try dsimp only
  repeat' first
    | intro _
    | with_reducible first
      | assumption | exact hM.of (by decide) | apply sameMk | exact Or.inl (hM.bit (by decide)) | exact Or.inr rfl
    | simp only [same_mk_iff]
    | with_reducible first
      | apply putSide_same

theorem denseOver_same {M : Nat} {s0 : State} {k : Nat} {sd : Side} {s : State} (hM : Sub 0x20001 M) (hs : Same M s0 s) :
    Same M s0 (denseOver k sd s) := by
  unfold denseOver
  try dsimp only
  repeat' first
    | intro _
    | with_reducible first
      | assumption | exact hM.of (by decide) | apply sameMk | exact Or.inl (hM.bit (by decide)) | exact Or.inr rfl
    | simp only [same_mk_iff]
    | with_reducible first
      | apply wr_same | apply putCk_same | apply same_foldl

theorem testClock_same {M : Nat} {s0 : State} {c : Nat} {d : Dir} {rung : Nat} {s : State} (hM : Sub 0x1 M) (hs : Same M s0 s) :
    Same M s0 (testClock c d rung s) := by
  unfold testClock
  try dsimp only
  repeat' first
    | intro _
    | with_reducible first
      | assumption | exact hM.of (by decide)
    | with_reducible first
      | apply wr_same | apply wrB_same | apply same_ite

theorem standbySync_same {M : Nat} {s0 : State} {c : Nat} {s : State} (hM : Sub 0x1 M) (hs : Same M s0 s) :
    Same M s0 (standbySync c s) := by
  unfold standbySync
  try dsimp only
  repeat' first
    | intro _
    | with_reducible first
      | assumption | exact hM.of (by decide) | apply sameMk | exact Or.inl (hM.bit (by decide)) | exact Or.inr rfl
    | simp only [same_mk_iff]
    | with_reducible first
      | apply wr_same | apply wrB_same | apply testClock_same | apply same_ite | apply same_foldl
      | exact sameOpt_none | apply sameOpt_ite
    | split
    | with_reducible first
      | (apply same_pair; assumption) | (apply same_opt; assumption) | (apply same_triple; assumption)

theorem calClocks_same {M : Nat} {s0 : State} {s : State} (hM : Sub 0x1 M) (hs : Same M s0 s) :
    Same M s0 (calClocks s) := by
  unfold calClocks
  try dsimp only
  repeat' first
    | intro _
    | with_reducible first
      | assumption | exact hM.of (by decide)
    | with_reducible first
      | apply standbySync_same | apply same_foldl

theorem borrowEnd_same {M : Nat} {s0 : State} {c : Nat} {d : Dir} {s : State} (hM : Sub 0x20001 M) (hs : Same M s0 s) :
    Same M s0 (borrowEnd c d s) := by
  unfold borrowEnd
  try dsimp only
  repeat' first
    | intro _
    | with_reducible first
      | assumption | exact hM.of (by decide) | apply sameMk | exact Or.inl (hM.bit (by decide)) | exact Or.inr rfl
    | simp only [same_mk_iff]
    | with_reducible first
      | apply wr_same | apply putCk_same | apply standbySync_same | apply same_ite

theorem ebStart_same {M : Nat} {s0 : State} {c : Nat} {d : Dir} {s : State} (hM : Sub 0x8001 M) (hs : Same M s0 s) :
    Same M s0 (ebStart c d s) := by
  unfold ebStart
  try dsimp only
  repeat' first
    | intro _
    | with_reducible first
      | assumption | exact hM.of (by decide) | apply sameMk | exact Or.inl (hM.bit (by decide)) | exact Or.inr rfl
    | simp only [same_mk_iff]
    | with_reducible first
      | apply putRx_same | apply ebReset_same | apply same_foldl

theorem squelchTx_same {M : Nat} {s0 : State} {c : Nat} {d : Dir} {s : State} (hM : Sub 0x10000 M) (hs : Same M s0 s) :
    Same M s0 (squelchTx c d s) := by
  unfold squelchTx
  try dsimp only
  repeat' first
    | intro _
    | with_reducible first
      | assumption | exact hM.of (by decide) | apply sameMk | exact Or.inl (hM.bit (by decide)) | exact Or.inr rfl
    | simp only [same_mk_iff]
    | with_reducible first
      | apply putTx_same | apply same_ite | apply same_foldl

theorem symbolLost_same {M : Nat} {s0 : State} {c : Nat} {d : Dir} {s : State} (hM : Sub 0x1200 M) (hs : Same M s0 s) :
    Same M s0 (symbolLost c d s) := by
  unfold symbolLost
  try dsimp only
  repeat' first
    | intro _
    | with_reducible first
      | assumption | exact hM.of (by decide) | apply sameMk | exact Or.inl (hM.bit (by decide)) | exact Or.inr rfl
    | simp only [same_mk_iff]
    | with_reducible first
      | apply putSide_same | apply modFlow_same | apply same_foldl
    | split
    | with_reducible first
      | (apply same_pair; assumption) | (apply same_opt; assumption) | (apply same_triple; assumption)

theorem borrowStart_same {M : Nat} {s0 : State} {c : Nat} {d : Dir} {s : State} (hM : Sub 0x3b9683 M) (hs : Same M s0 s) :
    Same M s0 (borrowStart c d s) := by
  unfold borrowStart
  try dsimp only
  repeat' first
    | intro _
    | with_reducible first
      | assumption | exact hM.of (by decide) | apply sameMk | exact Or.inl (hM.bit (by decide)) | exact Or.inr rfl
    | simp only [same_mk_iff]
    | with_reducible first
      | apply wr_same | apply count_same | apply putCk_same | apply dirAbort_same | apply syncCluster_same
      | apply rxRestart_same | apply ebReset_same | apply denseAsk_same | apply squelchTx_same
      | apply symbolLost_same | apply same_ite

theorem lendSync_same {M : Nat} {s0 : State} {c : Nat} {d : Dir} {s : State} (hM : Sub 0x29001 M) (hs : Same M s0 s) :
    Same M s0 (lendSync c d s) := by
  unfold lendSync
  try dsimp only
  repeat' first
    | intro _
    | with_reducible first
      | assumption | exact hM.of (by decide)
    | with_reducible first
      | apply wr_same | apply denseAsk_same | apply ebStart_same | apply same_ite

theorem steerOrHold_same {M : Nat} {s0 : State} {c : Nat} {d : Dir} {since : Nat} {s : State} (hM : Sub 0x20001 M) (hs : Same M s0 s) :
    Same M s0 (steerOrHold c d since s) := by
  unfold steerOrHold
  try dsimp only
  repeat' first
    | intro _
    | with_reducible first
      | assumption | exact hM.of (by decide) | apply sameMk | exact Or.inl (hM.bit (by decide)) | exact Or.inr rfl
    | simp only [same_mk_iff]
    | with_reducible first
      | apply wr_same | apply putCk_same
    | split
    | with_reducible first
      | (apply same_pair; assumption) | (apply same_opt; assumption) | (apply same_triple; assumption)

theorem refclkLost_same {M : Nat} {s0 : State} {s : State} (hM : Sub 0x320683 M) (hs : Same M s0 s) :
    Same M s0 (refclkLost s) := by
  unfold refclkLost
  try dsimp only
  repeat' first
    | intro _
    | with_reducible first
      | assumption | exact hM.of (by decide) | apply sameMk | exact Or.inl (hM.bit (by decide)) | exact Or.inr rfl
    | simp only [same_mk_iff]
    | with_reducible first
      | apply wr_same | apply count_same | apply putCk_same | apply dirAbort_same | apply syncCluster_same
      | apply standbySync_same | apply steerOrHold_same | apply same_ite | apply same_foldl

theorem holdoverJudge_same {M : Nat} {s0 : State} {c : Nat} {s : State} (hM : Sub 0x20003 M) (hs : Same M s0 s) :
    Same M s0 (holdoverJudge c s) := by
  unfold holdoverJudge
  try dsimp only
  repeat' first
    | intro _
    | with_reducible first
      | assumption | exact hM.of (by decide) | apply sameMk | exact Or.inl (hM.bit (by decide)) | exact Or.inr rfl
    | simp only [same_mk_iff]
    | with_reducible first
      | apply wr_same | apply count_same | apply putCk_same | apply steerOrHold_same | apply same_ite
      | apply same_foldl | exact sameOpt_none | apply sameOpt_ite
    | split
    | with_reducible first
      | (apply same_pair; assumption) | (apply same_opt; assumption) | (apply same_triple; assumption)

theorem steerSync_same {M : Nat} {s0 : State} {c : Nat} {s : State} (hM : Sub 0x20003 M) (hs : Same M s0 s) :
    Same M s0 (steerSync c s) := by
  unfold steerSync
  try dsimp only
  repeat' first
    | intro _
    | with_reducible first
      | assumption | exact hM.of (by decide) | apply sameMk | exact Or.inl (hM.bit (by decide)) | exact Or.inr rfl
    | simp only [same_mk_iff]
    | with_reducible first
      | apply putCk_same | apply steerOrHold_same | apply holdoverJudge_same | apply same_ite | apply same_foldl
      | exact sameOpt_none | apply sameOpt_ite
    | split
    | with_reducible first
      | (apply same_pair; assumption) | (apply same_opt; assumption) | (apply same_triple; assumption)

theorem refclkBack_same {M : Nat} {s0 : State} {s : State} (hM : Sub 0x20003 M) (hs : Same M s0 s) :
    Same M s0 (refclkBack s) := by
  unfold refclkBack
  try dsimp only
  repeat' first
    | intro _
    | with_reducible first
      | assumption | exact hM.of (by decide)
    | with_reducible first
      | apply standbySync_same | apply holdoverJudge_same | apply same_foldl

theorem idleClocks_same {M : Nat} {s0 : State} {c : Nat} {s : State} (hM : Sub 0x69001 M) (hs : Same M s0 s) :
    Same M s0 (idleClocks c s) := by
  unfold idleClocks
  try dsimp only
  repeat' first
    | intro _
    | with_reducible first
      | assumption | exact hM.of (by decide) | apply sameMk | exact Or.inl (hM.bit (by decide)) | exact Or.inr rfl
    | simp only [same_mk_iff]
    | with_reducible first
      | apply wr_same | apply putCk_same | apply putCkExit_same | apply standbySync_same | apply borrowEnd_same
      | apply lendSync_same | apply same_ite | apply same_foldl

theorem trainMode_same {M : Nat} {s0 : State} {ms : List (Nat × Dir)} {c : Nat} {d : Dir} {s : State} (hM : Sub 0x20001 M) (hs : Same M s0 s) :
    Same M s0 (trainMode ms c d s) := by
  unfold trainMode
  try dsimp only
  repeat' first
    | intro _
    | with_reducible first
      | assumption | exact hM.of (by decide)
    | with_reducible first
      | apply wr_same | apply steerOrHold_same | apply same_ite

theorem ckLoad_same {M : Nat} {s0 : State} {c : Nat} {d : Dir} {rung : Nat} {s : State} (hM : Sub 0x40001 M) (hs : Same M s0 s) :
    Same M s0 (ckLoad c d rung s) := by
  unfold ckLoad
  try dsimp only
  repeat' first
    | intro _
    | with_reducible first
      | assumption | exact hM.of (by decide) | apply sameMk | exact Or.inl (hM.bit (by decide)) | exact Or.inr rfl
    | simp only [same_mk_iff]
    | with_reducible first
      | apply wr_same | apply putCkEntry_same | apply putCkExit_same | apply exitDrive_same | apply same_ite
      | apply same_foldl

theorem ckTrain_same {M : Nat} {s0 : State} {ms : List (Nat × Dir)} {c : Nat} {d : Dir} {rung : Nat} {s : State} (hM : Sub 0x3f9683 M) (hs : Same M s0 s) :
    Same M s0 (ckTrain ms c d rung s).2 := by
  unfold ckTrain
  try dsimp only
  repeat' first
    | intro _
    | with_reducible first
      | assumption | exact hM.of (by decide)
    | with_reducible first
      | apply wr_same | apply raise_same | apply putCk_same | apply dirAbort_same | apply ebReset_same
      | apply standbySync_same | apply borrowEnd_same | apply borrowStart_same | apply lendSync_same
      | apply trainMode_same | apply ckLoad_same | apply same_ite | apply same_ite2

theorem switchOne_same {M : Nat} {s0 : State} {c : Nat} {d : Dir} {s : State} (hM : Sub 0x3a9683 M) (hs : Same M s0 s) :
    Same M s0 (switchOne c d s) := by
  unfold switchOne
  try dsimp only
  repeat' first
    | intro _
    | with_reducible first
      | assumption | exact hM.of (by decide) | apply sameMk | exact Or.inl (hM.bit (by decide)) | exact Or.inr rfl
    | simp only [same_mk_iff]
    | with_reducible first
      | apply wr_same | apply count_same | apply putCk_same | apply dirAbort_same | apply syncCluster_same
      | apply rxRestart_same | apply denseAsk_same | apply same_ite

theorem clockApart_same {M : Nat} {s0 : State} {c : Nat} {d : Dir} {s : State} (hM : Sub 0x3a9683 M) (hs : Same M s0 s) :
    Same M s0 (clockApart c d s) := by
  unfold clockApart
  try dsimp only
  repeat' first
    | intro _
    | with_reducible first
      | assumption | exact hM.of (by decide)
    | with_reducible first
      | apply switchOne_same | apply same_ite | apply same_foldl

end Sys2Proof.Machine
end

