-- ==== Sys2Proof/Laws/SameBobOps.lean ====
section
/-! SUPPORT. What the operations of Machine/BobOps.lean leave as it is (`Same`). -/

namespace Sys2Proof.Machine

theorem laneOut_same {M : Nat} {s0 : State} {n : Nat} {sd : Side} {s : State} (hM : Sub 0x380001 M) (hs : Same M s0 s) :
    Same M s0 (laneOut n sd s) := by
  unfold laneOut
  try dsimp only
  repeat' first
    | intro _
    | with_reducible first
      | assumption | exact hM.of (by decide)
    | with_reducible first
      | apply adaptLeaves_same | apply acqCancel_same

theorem bobMove_same {M : Nat} {s0 : State} {c : Nat} {sd : Side} {on : Bool} {s : State} (hM : Sub 0xbb0003 M) (hs : Same M s0 s) :
    Same M s0 (bobMove c sd on s) := by
  unfold bobMove
  try dsimp only
  repeat' first
    | intro _
    | with_reducible first
      | assumption | exact hM.of (by decide)
    | with_reducible first
      | apply putBob_same | apply txRest_same | apply adaptLeaves_same | apply adaptEnters_same
      | apply steerSync_same | apply same_ite

theorem laneTxIdle_same {M : Nat} {s0 : State} {n : Nat} {s : State} (hM : Sub 0x10000 M) (hs : Same M s0 s) :
    Same M s0 (laneTxIdle n s) := by
  unfold laneTxIdle
  try dsimp only
  repeat' first
    | intro _
    | with_reducible first
      | assumption | exact hM.of (by decide)
    | with_reducible first
      | apply txRest_same | apply same_foldl

theorem bobRest_same {M : Nat} {s0 : State} {c : Nat} {s : State} (hM : Sub 0x390001 M) (hs : Same M s0 s) :
    Same M s0 (bobRest c s) := by
  unfold bobRest
  try dsimp only
  repeat' first
    | intro _
    | with_reducible first
      | assumption | exact hM.of (by decide)
    | with_reducible first
      | apply laneOut_same | apply laneTxIdle_same

theorem bobClear_same {M : Nat} {s0 : State} {c : Nat} {s : State} (hM : Sub 0x800000 M) (hs : Same M s0 s) :
    Same M s0 (bobClear c s) := by
  unfold bobClear
  try dsimp only
  repeat' first
    | intro _
    | with_reducible first
      | assumption | exact hM.of (by decide) | apply sameMk | exact Or.inl (hM.bit (by decide)) | exact Or.inr rfl
    | simp only [same_mk_iff]
    | with_reducible first
      | apply putBob_same

theorem bobFinish_same {M : Nat} {s0 : State} {c : Nat} {s : State} (hM : Sub 0x800683 M) (hs : Same M s0 s) :
    Same M s0 (bobFinish c s) := by
  unfold bobFinish
  try dsimp only
  repeat' first
    | intro _
    | with_reducible first
      | assumption | exact hM.of (by decide)
    | with_reducible first
      | apply wr_same | apply bump_same | apply raise_same | apply syncCluster_same | apply bobClear_same
      | apply same_ite

theorem bobRelease_same {M : Nat} {s0 : State} {c : Nat} {s : State} (hM : Sub 0xbb0003 M) (hs : Same M s0 s) :
    Same M s0 (bobRelease c s) := by
  unfold bobRelease
  try dsimp only
  repeat' first
    | intro _
    | with_reducible first
      | assumption | exact hM.of (by decide) | apply sameMk | exact Or.inl (hM.bit (by decide)) | exact Or.inr rfl
    | simp only [same_mk_iff]
    | with_reducible first
      | apply wr_same | apply putBob_same | apply bobMove_same | apply bobRest_same | apply same_ite
      | apply same_foldl

theorem bobSideDown_same {M : Nat} {s0 : State} {k : Nat} {sd : Side} {s : State} (hM : Sub 0xbb0683 M) (hs : Same M s0 s) :
    Same M s0 (bobSideDown k sd s) := by
  unfold bobSideDown
  try dsimp only
  repeat' first
    | intro _
    | with_reducible first
      | assumption | exact hM.of (by decide) | apply sameMk | exact Or.inl (hM.bit (by decide)) | exact Or.inr rfl
    | simp only [same_mk_iff]
    | with_reducible first
      | apply putBob_same | apply intrEnd_same | apply laneOut_same | apply bobMove_same | apply bobFinish_same
      | apply same_ite | apply same_foldl

theorem bobJoin_same {M : Nat} {s0 : State} {k : Nat} {sd : Side} {s : State} (hM : Sub 0xbb0003 M) (hs : Same M s0 s) :
    Same M s0 (bobJoin k sd s) := by
  unfold bobJoin
  try dsimp only
  repeat' first
    | intro _
    | with_reducible first
      | assumption | exact hM.of (by decide) | apply sameMk | exact Or.inl (hM.bit (by decide)) | exact Or.inr rfl
    | simp only [same_mk_iff]
    | with_reducible first
      | apply putBob_same | apply bobMove_same | apply same_ite | apply same_foldl

end Sys2Proof.Machine
end

