-- ==== Sys2Proof/Laws/SamePrkOps.lean ====
section
/-! SUPPORT. What the operations of Machine/PrkOps.lean leave as it is (`Same`). -/

namespace Sys2Proof.Machine

theorem checkRun_same {M : Nat} {s0 : State} {s : State} (hM : Sub 0x1000000 M) (hs : Same M s0 s) :
    Same M s0 (checkRun s) := by
  unfold checkRun
  try dsimp only
  repeat' first
    | intro _
    | with_reducible first
      | assumption | exact hM.of (by decide) | apply sameMk | exact Or.inl (hM.bit (by decide)) | exact Or.inr rfl
    | simp only [same_mk_iff]

theorem checkBegin_same {M : Nat} {s0 : State} {origin : Nat} {link : Nat} {checkOnly : Bool} {s : State} (hM : Sub 0x1000001 M) (hs : Same M s0 s) :
    Same M s0 (checkBegin origin link checkOnly s) := by
  unfold checkBegin
  try dsimp only
  repeat' first
    | intro _
    | with_reducible first
      | assumption | exact hM.of (by decide) | apply sameMk | exact Or.inl (hM.bit (by decide)) | exact Or.inr rfl
    | simp only [same_mk_iff]
    | with_reducible first
      | apply wr_same | apply checkRun_same

theorem startRecheck_same {M : Nat} {s0 : State} {_trigger : Nat} {s : State} (hM : Sub 0x1000001 M) (hs : Same M s0 s) :
    Same M s0 (startRecheck _trigger s) := by
  unfold startRecheck
  try dsimp only
  repeat' first
    | intro _
    | with_reducible first
      | assumption | exact hM.of (by decide) | apply sameMk | exact Or.inl (hM.bit (by decide)) | exact Or.inr rfl
    | simp only [same_mk_iff]
    | with_reducible first
      | apply checkBegin_same | apply same_ite

theorem prkReport_same {M : Nat} {s0 : State} {r : List Nat} {applied : Bool} {s : State} (hM : Sub 0x1 M) (hs : Same M s0 s) :
    Same M s0 (prkReport r applied s) := by
  unfold prkReport
  try dsimp only
  repeat' first
    | intro _
    | with_reducible first
      | assumption | exact hM.of (by decide)
    | with_reducible first
      | apply wr_same | apply wrB_same | apply bumpWrap_same | apply same_ite

theorem prkEnd_same {M : Nat} {s0 : State} {r : List Nat} {applied : Bool} {s : State} (hM : Sub 0x1000001 M) (hs : Same M s0 s) :
    Same M s0 (prkEnd r applied s) := by
  unfold prkEnd
  try dsimp only
  repeat' first
    | intro _
    | with_reducible first
      | assumption | exact hM.of (by decide) | apply sameMk | exact Or.inl (hM.bit (by decide)) | exact Or.inr rfl
    | simp only [same_mk_iff]
    | with_reducible first
      | apply wr_same | apply bump_same | apply raise_same | apply startRecheck_same | apply prkReport_same
      | apply same_ite

theorem prkChanged_same {M : Nat} {s0 : State} {s : State} (hM : Sub 0x1000001 M) (hs : Same M s0 s) :
    Same M s0 (prkChanged s) := by
  unfold prkChanged
  try dsimp only
  repeat' first
    | intro _
    | with_reducible first
      | assumption | exact hM.of (by decide) | apply sameMk | exact Or.inl (hM.bit (by decide)) | exact Or.inr rfl
    | simp only [same_mk_iff]
    | with_reducible first
      | apply checkRun_same | apply prkEnd_same | apply same_ite

theorem prkNotice_same {M : Nat} {s0 : State} {s : State} (hM : Sub 0x1000001 M) (hs : Same M s0 s) :
    Same M s0 (prkNotice s) := by
  unfold prkNotice
  try dsimp only
  repeat' first
    | intro _
    | with_reducible first
      | assumption | exact hM.of (by decide)
    | with_reducible first
      | apply prkChanged_same | apply same_ite

end Sys2Proof.Machine
end

