-- ==== Sys2Proof/Laws/SameSpans.lean ====
section
/-! SUPPORT. What the operations of Machine/Spans.lean leave as it is (`Same`). -/

namespace Sys2Proof.Machine

theorem modSpan_same {M : Nat} {s0 : State} {s : State} {k : Nat} {sd : Side} {g : SpanSt → SpanSt} (hM : Sub 0x2000 M) (hs : Same M s0 s) :
    Same M s0 (State.modSpan s k sd g) := by
  unfold State.modSpan
  try dsimp only
  repeat' first
    | intro _
    | with_reducible first
      | assumption | exact hM.of (by decide)
    | with_reducible first
      | apply putSpan_same

theorem setSpan_same {M : Nat} {s0 : State} {k : Nat} {sd : Side} {st : Nat} {s : State} (hM : Sub 0x1 M) (hs : Same M s0 s) :
    Same M s0 (setSpan k sd st s) := by
  unfold setSpan
  try dsimp only
  repeat' first
    | intro _
    | with_reducible first
      | assumption | exact hM.of (by decide)
    | with_reducible first
      | apply wr_same | apply wrB_same

theorem trnSource_same {M : Nat} {s0 : State} {k : Nat} {sd : Side} {s : State} (hM : Sub 0x1 M) (hs : Same M s0 s) :
    Same M s0 (trnSource k sd s) := by
  unfold trnSource
  try dsimp only
  repeat' first
    | intro _
    | with_reducible first
      | assumption | exact hM.of (by decide)
    | with_reducible first
      | apply raise_same

theorem sideIdle_same {M : Nat} {s0 : State} {k : Nat} {sd : Side} {s : State} (hM : Sub 0x50000 M) (hs : Same M s0 s) :
    Same M s0 (sideIdle k sd s) := by
  unfold sideIdle
  try dsimp only
  repeat' first
    | intro _
    | with_reducible first
      | assumption | exact hM.of (by decide) | apply sameMk | exact Or.inl (hM.bit (by decide)) | exact Or.inr rfl
    | simp only [same_mk_iff]
    | with_reducible first
      | apply putCkExit_same | apply txRest_same | apply same_ite | apply same_foldl

theorem sideWake_same {M : Nat} {s0 : State} {k : Nat} {sd : Side} {s : State} (hM : Sub 0x50000 M) (hs : Same M s0 s) :
    Same M s0 (sideWake k sd s) := by
  unfold sideWake
  try dsimp only
  repeat' first
    | intro _
    | with_reducible first
      | assumption | exact hM.of (by decide) | apply sameMk | exact Or.inl (hM.bit (by decide)) | exact Or.inr rfl
    | simp only [same_mk_iff]
    | with_reducible first
      | apply putTx_same | apply putCkExit_same | apply same_ite | apply same_foldl

theorem sideEie_same {M : Nat} {s0 : State} {k : Nat} {sd : Side} {s : State} (hM : Sub 0x1000 M) (hs : Same M s0 s) :
    Same M s0 (sideEie k sd s) := by
  unfold sideEie
  try dsimp only
  repeat' first
    | intro _
    | with_reducible first
      | assumption | exact hM.of (by decide) | apply sameMk | exact Or.inl (hM.bit (by decide)) | exact Or.inr rfl
    | simp only [same_mk_iff]
    | with_reducible first
      | apply putSide_same | apply same_ite

theorem lanesLeave_same {M : Nat} {s0 : State} {k : Nat} {sd : Side} {lanes : List Nat} {s : State} (hM : Sub 0x1000 M) (hs : Same M s0 s) :
    Same M s0 (lanesLeave k sd lanes s) := by
  unfold lanesLeave
  try dsimp only
  repeat' first
    | intro _
    | with_reducible first
      | assumption | exact hM.of (by decide) | apply sameMk | exact Or.inl (hM.bit (by decide)) | exact Or.inr rfl
    | simp only [same_mk_iff]
    | with_reducible first
      | apply putSide_same

theorem putPlan_same {M : Nat} {s0 : State} {c : Nat} {rec : List Nat} {s : State} (hM : Sub 0x2000001 M) (hs : Same M s0 s) :
    Same M s0 (putPlan c rec s) := by
  unfold putPlan
  try dsimp only
  repeat' first
    | intro _
    | with_reducible first
      | assumption | exact hM.of (by decide) | apply sameMk | exact Or.inl (hM.bit (by decide)) | exact Or.inr rfl
    | simp only [same_mk_iff]
    | with_reducible first
      | apply wrB_same | apply same_ite | apply same_foldl

theorem applyPlan_same {M : Nat} {s0 : State} {c : Nat} {s : State} (hM : Sub 0x2000001 M) (hs : Same M s0 s) :
    Same M s0 (applyPlan c s) := by
  unfold applyPlan
  try dsimp only
  repeat' first
    | intro _
    | with_reducible first
      | assumption | exact hM.of (by decide) | apply sameMk | exact Or.inl (hM.bit (by decide)) | exact Or.inr rfl
    | simp only [same_mk_iff]
    | with_reducible first
      | apply putPlan_same
    | split
    | with_reducible first
      | (apply same_pair; assumption) | (apply same_opt; assumption) | (apply same_triple; assumption)

theorem applyPlans_same {M : Nat} {s0 : State} {k : Nat} {sd : Side} {s : State} (hM : Sub 0x2000001 M) (hs : Same M s0 s) :
    Same M s0 (applyPlans k sd s) := by
  unfold applyPlans
  try dsimp only
  repeat' first
    | intro _
    | with_reducible first
      | assumption | exact hM.of (by decide)
    | with_reducible first
      | apply applyPlan_same | apply same_foldl

theorem putPol_same {M : Nat} {s0 : State} {n : Nat} {sd : Side} {v : Nat} {s : State} (hM : Sub 0x1 M) (hs : Same M s0 s) :
    Same M s0 (putPol n sd v s) := by
  unfold putPol
  try dsimp only
  repeat' first
    | intro _
    | with_reducible first
      | assumption | exact hM.of (by decide)
    | with_reducible first
      | apply wrB_same

theorem waitingPol_same {M : Nat} {s0 : State} {n : Nat} {sd : Side} {s : State} (hM : Sub 0x2000001 M) (hs : Same M s0 s) :
    Same M s0 (waitingPol n sd s) := by
  unfold waitingPol
  try dsimp only
  repeat' first
    | intro _
    | with_reducible first
      | assumption | exact hM.of (by decide) | apply sameMk | exact Or.inl (hM.bit (by decide)) | exact Or.inr rfl
    | simp only [same_mk_iff]
    | with_reducible first
      | apply putPol_same
    | split
    | with_reducible first
      | (apply same_pair; assumption) | (apply same_opt; assumption) | (apply same_triple; assumption)

theorem polRestart_same {M : Nat} {s0 : State} {n : Nat} {sd : Side} {s : State} (hM : Sub 0x388001 M) (hs : Same M s0 s) :
    Same M s0 (polRestart n sd s) := by
  unfold polRestart
  try dsimp only
  repeat' first
    | intro _
    | with_reducible first
      | assumption | exact hM.of (by decide) | apply sameMk | exact Or.inl (hM.bit (by decide)) | exact Or.inr rfl
    | simp only [same_mk_iff]
    | with_reducible first
      | apply wr_same | apply putRx_same | apply rxAgain_same | apply same_ite

theorem exitPol_same {M : Nat} {s0 : State} {n : Nat} {sd : Side} {s : State} (hM : Sub 0x40000 M) (hs : Same M s0 s) :
    Same M s0 (exitPol n sd s) := by
  unfold exitPol
  try dsimp only
  repeat' first
    | intro _
    | with_reducible first
      | assumption | exact hM.of (by decide) | apply sameMk | exact Or.inl (hM.bit (by decide)) | exact Or.inr rfl
    | simp only [same_mk_iff]
    | with_reducible first
      | apply putCkExit_same | apply same_ite

theorem rxPolApply_same {M : Nat} {s0 : State} {n : Nat} {sd : Side} {s : State} (hM : Sub 0x388001 M) (hs : Same M s0 s) :
    Same M s0 (rxPolApply n sd s) := by
  unfold rxPolApply
  try dsimp only
  repeat' first
    | intro _
    | with_reducible first
      | assumption | exact hM.of (by decide)
    | with_reducible first
      | apply wrB_same | apply polRestart_same | apply same_ite

theorem applyPol_same {M : Nat} {s0 : State} {n : Nat} {sd : Side} {s : State} (hM : Sub 0x23d8001 M) (hs : Same M s0 s) :
    Same M s0 (applyPol n sd s) := by
  unfold applyPol
  try dsimp only
  repeat' first
    | intro _
    | with_reducible first
      | assumption | exact hM.of (by decide) | apply sameMk | exact Or.inl (hM.bit (by decide)) | exact Or.inr rfl
    | simp only [same_mk_iff]
    | with_reducible first
      | apply putTx_same | apply waitingPol_same | apply exitPol_same | apply rxPolApply_same

theorem acquireEnter_same {M : Nat} {s0 : State} {k : Nat} {sd : Side} {rung : Nat} {s : State} (hM : Sub 0x23fb001 M) (hs : Same M s0 s) :
    Same M s0 (acquireEnter k sd rung s) := by
  unfold acquireEnter
  try dsimp only
  repeat' first
    | intro _
    | with_reducible first
      | assumption | exact hM.of (by decide) | apply sameMk | exact Or.inl (hM.bit (by decide)) | exact Or.inr rfl
    | simp only [same_mk_iff]
    | with_reducible first
      | apply wr_same | apply putRx_same | apply loadTx_same | apply loadRx_same | apply acqRequest_same
      | apply setDense_same | apply denseOver_same | apply modSpan_same | apply setSpan_same | apply sideWake_same
      | apply applyPlans_same | apply applyPol_same | apply same_foldl

theorem spanClear_same {M : Nat} {s0 : State} {k : Nat} {sd : Side} {s : State} (hM : Sub 0x383001 M) (hs : Same M s0 s) :
    Same M s0 (spanClear k sd s) := by
  unfold spanClear
  try dsimp only
  repeat' first
    | intro _
    | with_reducible first
      | assumption | exact hM.of (by decide) | apply sameMk | exact Or.inl (hM.bit (by decide)) | exact Or.inr rfl
    | simp only [same_mk_iff]
    | with_reducible first
      | apply wr_same | apply acqCancel_same | apply modSpan_same | apply sideEie_same | apply same_foldl

theorem spanDown_same {M : Nat} {s0 : State} {k : Nat} {sd : Side} {fault : Nat} {byCmd : Bool} {s : State} (hM : Sub 0xbb3683 M) (hs : Same M s0 s) :
    Same M s0 (spanDown k sd fault byCmd s) := by
  unfold spanDown
  try dsimp only
  repeat' first
    | intro _
    | with_reducible first
      | assumption | exact hM.of (by decide) | apply sameMk | exact Or.inl (hM.bit (by decide)) | exact Or.inr rfl
    | simp only [same_mk_iff]
    | with_reducible first
      | apply wr_same | apply bump_same | apply bobSideDown_same | apply modSpan_same | apply setSpan_same
      | apply trnSource_same | apply spanClear_same

theorem linkClocks_same {M : Nat} {s0 : State} {k : Nat} {s : State} (hM : Sub 0x69001 M) (hs : Same M s0 s) :
    Same M s0 (linkClocks k s) := by
  unfold linkClocks
  try dsimp only
  repeat' first
    | intro _
    | with_reducible first
      | assumption | exact hM.of (by decide)
    | with_reducible first
      | apply idleClocks_same | apply same_foldl

theorem linkDown_same {M : Nat} {s0 : State} {k : Nat} {fault : Nat} {byCmd : Bool} {s : State} (hM : Sub 0x80bff683 M) (hs : Same M s0 s) :
    Same M s0 (linkDown k fault byCmd s) := by
  unfold linkDown
  try dsimp only
  repeat' first
    | intro _
    | with_reducible first
      | assumption | exact hM.of (by decide) | apply sameMk | exact Or.inl (hM.bit (by decide)) | exact Or.inr rfl
    | simp only [same_mk_iff]
    | with_reducible first
      | apply putLink_same | apply linkDropTraffic_same | apply spanDown_same | apply linkClocks_same
      | apply same_ite | apply same_foldl

theorem spanHold_same {M : Nat} {s0 : State} {k : Nat} {sd : Side} {s : State} (hM : Sub 0x3ef001 M) (hs : Same M s0 s) :
    Same M s0 (spanHold k sd s) := by
  unfold spanHold
  try dsimp only
  repeat' first
    | intro _
    | with_reducible first
      | assumption | exact hM.of (by decide) | apply sameMk | exact Or.inl (hM.bit (by decide)) | exact Or.inr rfl
    | simp only [same_mk_iff]
    | with_reducible first
      | apply wr_same | apply putLink_same | apply setSpan_same | apply spanClear_same | apply linkClocks_same
      | apply same_ite

theorem spanAbort_same {M : Nat} {s0 : State} {k : Nat} {sd : Side} {s : State} (hM : Sub 0x300001 M) (hs : Same M s0 s) :
    Same M s0 (spanAbort k sd s) := by
  unfold spanAbort
  try dsimp only
  repeat' first
    | intro _
    | with_reducible first
      | assumption | exact hM.of (by decide)
    | with_reducible first
      | apply eyeAbortDir_same | apply dirAbort_same | apply same_foldl

theorem retrainSpan_same {M : Nat} {s0 : State} {k : Nat} {sd : Side} {sw : Option Nat} {s : State} (hM : Sub 0x82bff683 M) (hs : Same M s0 s) :
    Same M s0 (retrainSpan k sd sw s) := by
  unfold retrainSpan
  try dsimp only
  repeat' first
    | intro _
    | with_reducible first
      | assumption | exact hM.of (by decide) | apply sameMk | exact Or.inl (hM.bit (by decide)) | exact Or.inr rfl
    | simp only [same_mk_iff]
    | with_reducible first
      | apply wr_same | apply bump_same | apply postTrn_same | apply syncFreeze_same | apply modSpan_same
      | apply setSpan_same | apply trnSource_same | apply applyPlans_same | apply acquireEnter_same
      | apply linkDown_same | apply spanAbort_same | apply same_ite | exact sameOpt_none | apply sameOpt_ite
    | split
    | with_reducible first
      | (apply same_pair; assumption) | (apply same_opt; assumption) | (apply same_triple; assumption)

theorem switchTo_same {M : Nat} {s0 : State} {k : Nat} {sd : Side} {rung : Nat} {s : State} (hM : Sub 0x303001 M) (hs : Same M s0 s) :
    Same M s0 (switchTo k sd rung s) := by
  unfold switchTo
  try dsimp only
  repeat' first
    | intro _
    | with_reducible first
      | assumption | exact hM.of (by decide) | apply sameMk | exact Or.inl (hM.bit (by decide)) | exact Or.inr rfl
    | simp only [same_mk_iff]
    | with_reducible first
      | apply putSide_same | apply modSpan_same | apply setSpan_same | apply spanAbort_same

theorem followRung_same {M : Nat} {s0 : State} {rung : Nat} {k : Nat} {sd : Side} {s : State} (hM : Sub 0x303001 M) (hs : Same M s0 s) :
    Same M s0 (followRung rung k sd s) := by
  unfold followRung
  try dsimp only
  repeat' first
    | intro _
    | with_reducible first
      | assumption | exact hM.of (by decide) | apply sameMk | exact Or.inl (hM.bit (by decide)) | exact Or.inr rfl
    | simp only [same_mk_iff]
    | with_reducible first
      | apply modSpan_same | apply sideEie_same | apply switchTo_same | apply same_ite

theorem retrain_same {M : Nat} {s0 : State} {k : Nat} {sd : Side} {sw : Option Nat} {received : Bool} {s : State} (hM : Sub 0x82bff683 M) (hs : Same M s0 s) :
    Same M s0 (retrain k sd sw received s) := by
  unfold retrain
  try dsimp only
  repeat' first
    | intro _
    | with_reducible first
      | assumption | exact hM.of (by decide) | apply sameMk | exact Or.inl (hM.bit (by decide)) | exact Or.inr rfl
    | simp only [same_mk_iff]
    | with_reducible first
      | apply postTrn_same | apply modSpan_same | apply retrainSpan_same | apply followRung_same | apply same_ite
      | apply same_foldl | exact sameOpt_none | apply sameOpt_ite
    | split
    | with_reducible first
      | (apply same_pair; assumption) | (apply same_opt; assumption) | (apply same_triple; assumption)

theorem clockDemand_same {M : Nat} {s0 : State} {c : Nat} {d : Dir} {s : State} (hM : Sub 0x82bff683 M) (hs : Same M s0 s) :
    Same M s0 (clockDemand c d s) := by
  unfold clockDemand
  try dsimp only
  repeat' first
    | intro _
    | with_reducible first
      | assumption | exact hM.of (by decide)
    | with_reducible first
      | apply retrain_same | apply same_ite | apply same_foldl

theorem retune_same {M : Nat} {s0 : State} {k : Nat} {sd : Side} {rung : Nat} {s : State} (hM : Sub 0x82bff683 M) (hs : Same M s0 s) :
    Same M s0 (retune k sd rung s) := by
  unfold retune
  try dsimp only
  repeat' first
    | intro _
    | with_reducible first
      | assumption | exact hM.of (by decide) | apply sameMk | exact Or.inl (hM.bit (by decide)) | exact Or.inr rfl
    | simp only [same_mk_iff]
    | with_reducible first
      | apply ckTrain_same | apply clockApart_same | apply clockDemand_same | apply same_foldl
    | split
    | with_reducible first
      | (apply same_pair; assumption) | (apply same_opt; assumption) | (apply same_triple; assumption)

theorem trainAt_same {M : Nat} {s0 : State} {k : Nat} {sd : Side} {rung : Nat} {s : State} (hM : Sub 0x82bff683 M) (hs : Same M s0 s) :
    Same M s0 (trainAt k sd rung s) := by
  unfold trainAt
  try dsimp only
  repeat' first
    | intro _
    | with_reducible first
      | assumption | exact hM.of (by decide)
    | with_reducible first
      | apply applyPlans_same | apply acquireEnter_same | apply retune_same

theorem detectEnter_same {M : Nat} {s0 : State} {k : Nat} {sd : Side} {fresh : Bool} {direct : Bool} {s : State} (hM : Sub 0x82bff687 M) (hs : Same M s0 s) :
    Same M s0 (detectEnter k sd fresh direct s) := by
  unfold detectEnter
  try dsimp only
  repeat' first
    | intro _
    | with_reducible first
      | assumption | exact hM.of (by decide) | apply sameMk | exact Or.inl (hM.bit (by decide)) | exact Or.inr rfl
    | simp only [same_mk_iff]
    | with_reducible first
      | apply wr_same | apply wrB_same | apply putSpan_same | apply putTx_same | apply putCkExit_same
      | apply electDraw_same | apply bobJoin_same | apply setSpan_same | apply applyPlans_same
      | apply spanDown_same | apply linkDown_same | apply spanHold_same | apply same_ite | apply same_foldl

theorem detectGo_same {M : Nat} {s0 : State} {k : Nat} {sd : Side} {s : State} (hM : Sub 0x82bff683 M) (hs : Same M s0 s) :
    Same M s0 (detectGo k sd s) := by
  unfold detectGo
  try dsimp only
  repeat' first
    | intro _
    | with_reducible first
      | assumption | exact hM.of (by decide)
    | with_reducible first
      | apply trainAt_same | apply same_ite

theorem detectCheck_same {M : Nat} {s0 : State} {k : Nat} {sd : Side} {s : State} (hM : Sub 0x82bff683 M) (hs : Same M s0 s) :
    Same M s0 (detectCheck k sd s) := by
  unfold detectCheck
  try dsimp only
  repeat' first
    | intro _
    | with_reducible first
      | assumption | exact hM.of (by decide)
    | with_reducible first
      | apply detectGo_same | apply same_ite

theorem detectAll_same {M : Nat} {s0 : State} {s : State} (hM : Sub 0x82bff683 M) (hs : Same M s0 s) :
    Same M s0 (detectAll s) := by
  unfold detectAll
  try dsimp only
  repeat' first
    | intro _
    | with_reducible first
      | assumption | exact hM.of (by decide)
    | with_reducible first
      | apply detectCheck_same | apply same_foldl

theorem sendRate_same {M : Nat} {s0 : State} {target : Nat} {k : Nat} {sd : Side} {s : State} (hM : Sub 0x3001 M) (hs : Same M s0 s) :
    Same M s0 (sendRate target k sd s) := by
  unfold sendRate
  try dsimp only
  repeat' first
    | intro _
    | with_reducible first
      | assumption | exact hM.of (by decide) | apply sameMk | exact Or.inl (hM.bit (by decide)) | exact Or.inr rfl
    | simp only [same_mk_iff]
    | with_reducible first
      | apply putSpan_same | apply postTrn_same | apply setSpan_same

theorem toTransRung_same {M : Nat} {s0 : State} {rung : Nat} {k : Nat} {sd : Side} {s : State} (hM : Sub 0x82bff683 M) (hs : Same M s0 s) :
    Same M s0 (toTransRung rung k sd s) := by
  unfold toTransRung
  try dsimp only
  repeat' first
    | intro _
    | with_reducible first
      | assumption | exact hM.of (by decide)
    | with_reducible first
      | apply retrainSpan_same | apply followRung_same | apply same_ite

theorem transSide_same {M : Nat} {s0 : State} {k : Nat} {sd : Side} {s : State} (hM : Sub 0x82bff683 M) (hs : Same M s0 s) :
    Same M s0 (transSide k sd s) := by
  unfold transSide
  try dsimp only
  repeat' first
    | intro _
    | with_reducible first
      | assumption | exact hM.of (by decide) | apply sameMk | exact Or.inl (hM.bit (by decide)) | exact Or.inr rfl
    | simp only [same_mk_iff]
    | with_reducible first
      | apply putSide_same | apply loadTx_same | apply loadRx_same | apply acqRequest_same | apply sideWake_same
      | apply applyPlans_same | apply applyPol_same | apply retune_same | apply toTransRung_same | apply same_ite
      | apply same_foldl

theorem transStart_same {M : Nat} {s0 : State} {k : Nat} {s : State} (hM : Sub 0x82bff683 M) (hs : Same M s0 s) :
    Same M s0 (transStart k s) := by
  unfold transStart
  try dsimp only
  repeat' first
    | intro _
    | with_reducible first
      | assumption | exact hM.of (by decide) | apply sameMk | exact Or.inl (hM.bit (by decide)) | exact Or.inr rfl
    | simp only [same_mk_iff]
    | with_reducible first
      | apply wr_same | apply putLink_same | apply spanHold_same | apply transSide_same | apply same_ite
      | apply same_foldl

theorem linkTrain_same {M : Nat} {s0 : State} {direct : Bool} {k : Nat} {s : State} (hM : Sub 0x82bff687 M) (hs : Same M s0 s) :
    Same M s0 (linkTrain direct k s) := by
  unfold linkTrain
  try dsimp only
  repeat' first
    | intro _
    | with_reducible first
      | assumption | exact hM.of (by decide)
    | with_reducible first
      | apply detectEnter_same | apply transStart_same | apply same_ite | apply same_foldl

theorem downRestart_same {M : Nat} {s0 : State} {k : Nat} {sd : Side} {s : State} (hM : Sub 0x82bff687 M) (hs : Same M s0 s) :
    Same M s0 (downRestart k sd s) := by
  unfold downRestart
  try dsimp only
  repeat' first
    | intro _
    | with_reducible first
      | assumption | exact hM.of (by decide)
    | with_reducible first
      | apply detectEnter_same | apply same_ite

theorem measureEnter_same {M : Nat} {s0 : State} {k : Nat} {sd : Side} {s : State} (hM : Sub 0x3001 M) (hs : Same M s0 s) :
    Same M s0 (measureEnter k sd s) := by
  unfold measureEnter
  try dsimp only
  repeat' first
    | intro _
    | with_reducible first
      | assumption | exact hM.of (by decide) | apply sameMk | exact Or.inl (hM.bit (by decide)) | exact Or.inr rfl
    | simp only [same_mk_iff]
    | with_reducible first
      | apply postTrn_same | apply modSpan_same | apply setSpan_same

theorem groupStep_same {M : Nat} {s0 : State} {k : Nat} {sd : Side} {s : State} (hM : Sub 0x3001 M) (hs : Same M s0 s) :
    Same M s0 (groupStep k sd s) := by
  unfold groupStep
  try dsimp only
  repeat' first
    | intro _
    | with_reducible first
      | assumption | exact hM.of (by decide)
    | with_reducible first
      | apply sendRate_same | apply measureEnter_same | apply same_ite | apply same_foldl

theorem blindOver_same {M : Nat} {s0 : State} {g : List (Nat × Side)} {s : State} (hM : Sub 0x2001 M) (hs : Same M s0 s) :
    Same M s0 (blindOver g s) := by
  unfold blindOver
  try dsimp only
  repeat' first
    | intro _
    | with_reducible first
      | assumption | exact hM.of (by decide) | apply sameMk | exact Or.inl (hM.bit (by decide)) | exact Or.inr rfl
    | simp only [same_mk_iff]
    | with_reducible first
      | apply wr_same | apply modSpan_same | apply same_foldl

theorem leaveBlind_same {M : Nat} {s0 : State} {g : List (Nat × Side)} {s : State} (hM : Sub 0x303001 M) (hs : Same M s0 s) :
    Same M s0 (leaveBlind g s) := by
  unfold leaveBlind
  try dsimp only
  repeat' first
    | intro _
    | with_reducible first
      | assumption | exact hM.of (by decide)
    | with_reducible first
      | apply sideEie_same | apply switchTo_same | apply sendRate_same | apply blindOver_same | apply same_ite
      | apply same_foldl

theorem sidesSwapped_same {M : Nat} {s0 : State} {k : Nat} {s : State} (hM : Sub 0x1 M) (hs : Same M s0 s) :
    Same M s0 (sidesSwapped k s) := by
  unfold sidesSwapped
  try dsimp only
  repeat' first
    | intro _
    | with_reducible first
      | assumption | exact hM.of (by decide)
    | with_reducible first
      | apply wired_same

theorem readyEnter_same {M : Nat} {s0 : State} {k : Nat} {sd : Side} {s : State} (hM : Sub 0x2001 M) (hs : Same M s0 s) :
    Same M s0 (readyEnter k sd s) := by
  unfold readyEnter
  try dsimp only
  repeat' first
    | intro _
    | with_reducible first
      | assumption | exact hM.of (by decide) | apply sameMk | exact Or.inl (hM.bit (by decide)) | exact Or.inr rfl
    | simp only [same_mk_iff]
    | with_reducible first
      | apply modSpan_same | apply setSpan_same | apply sidesSwapped_same | apply same_ite | exact sameOpt_none
      | apply sameOpt_ite
    | split
    | with_reducible first
      | (apply same_pair; assumption) | (apply same_opt; assumption) | (apply same_triple; assumption)

theorem trunkFails_same {M : Nat} {s0 : State} {k : Nat} {sd : Side} {s : State} (hM : Sub 0x80bff683 M) (hs : Same M s0 s) :
    Same M s0 (trunkFails k sd s) := by
  unfold trunkFails
  try dsimp only
  repeat' first
    | intro _
    | with_reducible first
      | assumption | exact hM.of (by decide)
    | with_reducible first
      | apply linkDown_same | apply sidesSwapped_same | apply same_ite

theorem figureFails_same {M : Nat} {s0 : State} {k : Nat} {sd : Side} {s : State} (hM : Sub 0x82bff687 M) (hs : Same M s0 s) :
    Same M s0 (figureFails k sd s) := by
  unfold figureFails
  try dsimp only
  repeat' first
    | intro _
    | with_reducible first
      | assumption | exact hM.of (by decide) | apply sameMk | exact Or.inl (hM.bit (by decide)) | exact Or.inr rfl
    | simp only [same_mk_iff]
    | with_reducible first
      | apply wr_same | apply bump_same | apply acqCancel_same | apply postTrn_same | apply modSpan_same
      | apply trnSource_same | apply sideEie_same | apply linkDown_same | apply detectEnter_same
      | apply groupStep_same | apply leaveBlind_same | apply readyEnter_same | apply same_ite | apply same_foldl

theorem figurePasses_same {M : Nat} {s0 : State} {k : Nat} {sd : Side} {s : State} (hM : Sub 0x3001 M) (hs : Same M s0 s) :
    Same M s0 (figurePasses k sd s) := by
  unfold figurePasses
  try dsimp only
  repeat' first
    | intro _
    | with_reducible first
      | assumption | exact hM.of (by decide) | apply sameMk | exact Or.inl (hM.bit (by decide)) | exact Or.inr rfl
    | simp only [same_mk_iff]
    | with_reducible first
      | apply postTrn_same | apply modSpan_same | apply readyEnter_same

theorem qualifyCheck_same {M : Nat} {s0 : State} {k : Nat} {sd : Side} {s : State} (hM : Sub 0x80bff683 M) (hs : Same M s0 s) :
    Same M s0 (qualifyCheck k sd s) := by
  unfold qualifyCheck
  try dsimp only
  repeat' first
    | intro _
    | with_reducible first
      | assumption | exact hM.of (by decide) | apply sameMk | exact Or.inl (hM.bit (by decide)) | exact Or.inr rfl
    | simp only [same_mk_iff]
    | with_reducible first
      | apply wrB_same | apply wireFault_same | apply wired_same | apply putRx_same | apply setSpan_same
      | apply linkDown_same | apply same_ite | apply same_foldl
    | split
    | with_reducible first
      | (apply same_pair; assumption) | (apply same_opt; assumption) | (apply same_triple; assumption)

theorem armCheck_same {M : Nat} {s0 : State} {k : Nat} {s : State} (hM : Sub 0x4000 M) (hs : Same M s0 s) :
    Same M s0 (armCheck k s) := by
  unfold armCheck
  try dsimp only
  repeat' first
    | intro _
    | with_reducible first
      | assumption | exact hM.of (by decide) | apply sameMk | exact Or.inl (hM.bit (by decide)) | exact Or.inr rfl
    | simp only [same_mk_iff]
    | with_reducible first
      | apply putLink_same | apply same_ite

theorem upEnter_same {M : Nat} {s0 : State} {k : Nat} {sd : Side} {s : State} (hM : Sub 0x3683 M) (hs : Same M s0 s) :
    Same M s0 (upEnter k sd s) := by
  unfold upEnter
  try dsimp only
  repeat' first
    | intro _
    | with_reducible first
      | assumption | exact hM.of (by decide) | apply sameMk | exact Or.inl (hM.bit (by decide)) | exact Or.inr rfl
    | simp only [same_mk_iff]
    | with_reducible first
      | apply wr_same | apply postRec_same | apply modTrunk_same | apply postTrn_same | apply syncFreeze_same
      | apply modSpan_same | apply setSpan_same | apply trnSource_same | apply same_ite | apply same_foldl

theorem linkUp_same {M : Nat} {s0 : State} {k : Nat} {s : State} (hM : Sub 0x83bff683 M) (hs : Same M s0 s) :
    Same M s0 (linkUp k s) := by
  unfold linkUp
  try dsimp only
  repeat' first
    | intro _
    | with_reducible first
      | assumption | exact hM.of (by decide) | apply sameMk | exact Or.inl (hM.bit (by decide)) | exact Or.inr rfl
    | simp only [same_mk_iff]
    | with_reducible first
      | apply wr_same | apply putLive_same | apply putLink_same | apply linkStart_same | apply startRecheck_same
      | apply prkNotice_same | apply retrain_same | apply upEnter_same | apply same_ite | apply same_foldl

end Sys2Proof.Machine
end

