-- ==== Sys2Proof/Laws/SameLoopOps.lean ====
section
/-! SUPPORT. What the operations of Machine/LoopOps.lean leave as it is (`Same`). -/

namespace Sys2Proof.Machine

theorem genSync_same {M : Nat} {s0 : State} {t : State} {n : Nat} {sd : Side} {s : State} (hM : Sub 0x10000 M) (ht : Same M s0 t) (hs : Same M s0 s) :
    Same M s0 (genSync t n sd s) := by
  unfold genSync
  try dsimp only
  repeat' first
    | intro _
    | with_reducible first
      | assumption | exact hM.of (by decide) | apply sameMk | exact Or.inl (hM.bit (by decide)) | exact Or.inr rfl
    | simp only [same_mk_iff]
    | with_reducible first
      | apply putTx_same | apply same_ite

theorem padWake_same {M : Nat} {s0 : State} {n : Nat} {sd : Side} {s : State} (hM : Sub 0x10000 M) (hs : Same M s0 s) :
    Same M s0 (padWake n sd s) := by
  unfold padWake
  try dsimp only
  repeat' first
    | intro _
    | with_reducible first
      | assumption | exact hM.of (by decide) | apply sameMk | exact Or.inl (hM.bit (by decide)) | exact Or.inr rfl
    | simp only [same_mk_iff]
    | with_reducible first
      | apply putTx_same | apply txSends_same | apply same_ite

theorem padSync_same {M : Nat} {s0 : State} {t : State} {n : Nat} {s : State} (hM : Sub 0x10000 M) (ht : Same M s0 t) (hs : Same M s0 s) :
    Same M s0 (padSync t n s) := by
  unfold padSync
  try dsimp only
  repeat' first
    | intro _
    | with_reducible first
      | assumption | exact hM.of (by decide)
    | with_reducible first
      | apply eieRest_same | apply genSync_same | apply padWake_same | apply same_ite | apply same_foldl

theorem testSync_same {M : Nat} {s0 : State} {t : State} {n : Nat} {s : State} (hM : Sub 0x10001 M) (ht : Same M s0 t) (hs : Same M s0 s) :
    Same M s0 (testSync t n s) := by
  unfold testSync
  try dsimp only
  repeat' first
    | intro _
    | with_reducible first
      | assumption | exact hM.of (by decide)
    | with_reducible first
      | apply standbySync_same | apply padSync_same

theorem loopStop_same {M : Nat} {s0 : State} {n : Nat} {s : State} (hM : Sub 0x10001 M) (hs : Same M s0 s) :
    Same M s0 (loopStop n s) := by
  unfold loopStop
  try dsimp only
  repeat' first
    | intro _
    | with_reducible first
      | assumption | exact hM.of (by decide)
    | with_reducible first
      | apply wr_same | apply testSync_same

theorem loopStopAll_same {M : Nat} {s0 : State} {s : State} (hM : Sub 0x10001 M) (hs : Same M s0 s) :
    Same M s0 (loopStopAll s) := by
  unfold loopStopAll
  try dsimp only
  repeat' first
    | intro _
    | with_reducible first
      | assumption | exact hM.of (by decide)
    | with_reducible first
      | apply loopStop_same | apply same_foldl

theorem setBobSlice_same {M : Nat} {s0 : State} {s : State} {d : Nat} {v : Option Nat} (hM : Sub 0x200000001 M) (hs : Same M s0 s) :
    Same M s0 (State.setBobSlice s d v) := by
  unfold State.setBobSlice
  try dsimp only
  repeat' first
    | intro _
    | with_reducible first
      | assumption | exact hM.of (by decide) | apply sameMk | exact Or.inl (hM.bit (by decide)) | exact Or.inr rfl
    | simp only [same_mk_iff]
    | with_reducible first
      | apply wrB_same | apply same_ite

theorem setLastBobbin_same {M : Nat} {s0 : State} {d : Nat} {c : Nat} {s : State} (hM : Sub 0x200000000 M) (hs : Same M s0 s) :
    Same M s0 (setLastBobbin d c s) := by
  unfold setLastBobbin
  try dsimp only
  repeat' first
    | intro _
    | with_reducible first
      | assumption | exact hM.of (by decide) | apply sameMk | exact Or.inl (hM.bit (by decide)) | exact Or.inr rfl
    | simp only [same_mk_iff]
    | with_reducible first
      | apply same_ite

theorem bobSliceOff_same {M : Nat} {s0 : State} {d : Nat} {c : Nat} {s : State} (hM : Sub 0x200810001 M) (hs : Same M s0 s) :
    Same M s0 (bobSliceOff d c s) := by
  unfold bobSliceOff
  try dsimp only
  repeat' first
    | intro _
    | with_reducible first
      | assumption | exact hM.of (by decide) | apply sameMk | exact Or.inl (hM.bit (by decide)) | exact Or.inr rfl
    | simp only [same_mk_iff]
    | with_reducible first
      | apply putBob_same | apply testSync_same | apply setBobSlice_same

theorem bobSliceEnd_same {M : Nat} {s0 : State} {d : Nat} {result : Nat} {cause : Nat} {errors : Nat} {s : State} (hM : Sub 0x200810001 M) (hs : Same M s0 s) :
    Same M s0 (bobSliceEnd d result cause errors s) := by
  unfold bobSliceEnd
  try dsimp only
  repeat' first
    | intro _
    | with_reducible first
      | assumption | exact hM.of (by decide) | apply sameMk | exact Or.inl (hM.bit (by decide)) | exact Or.inr rfl
    | simp only [same_mk_iff]
    | with_reducible first
      | apply wr_same | apply raise_same | apply setLastBobbin_same | apply bobSliceOff_same | apply same_ite
      | exact sameOpt_none | apply sameOpt_ite
    | split
    | with_reducible first
      | (apply same_pair; assumption) | (apply same_opt; assumption) | (apply same_triple; assumption)

theorem bobSliceCut_same {M : Nat} {s0 : State} {d : Nat} {result : Nat} {cause : Nat} {s : State} (hM : Sub 0x200810005 M) (hs : Same M s0 s) :
    Same M s0 (bobSliceCut d result cause s) := by
  unfold bobSliceCut
  try dsimp only
  repeat' first
    | intro _
    | with_reducible first
      | assumption | exact hM.of (by decide)
    | with_reducible first
      | apply draw_same | apply bobSliceEnd_same | apply same_ite
    | with_reducible first
      | (apply same_pair; assumption) | (apply same_opt; assumption) | (apply same_triple; assumption)

theorem bobPreempt_same {M : Nat} {s0 : State} {d : Nat} {c : Nat} {s : State} (hM : Sub 0x200810005 M) (hs : Same M s0 s) :
    Same M s0 (bobPreempt d c s) := by
  unfold bobPreempt
  try dsimp only
  repeat' first
    | intro _
    | with_reducible first
      | assumption | exact hM.of (by decide)
    | with_reducible first
      | apply bump_same | apply bobSliceOff_same | apply bobSliceCut_same | apply same_ite

end Sys2Proof.Machine
end

