-- ==== Sys2Proof/Laws/SameSteerOps.lean ====
section
/-! SUPPORT. What the operations of Machine/SteerOps.lean leave as it is (`Same`). -/

namespace Sys2Proof.Machine

theorem bobAsk_same {M : Nat} {s0 : State} {c : Nat} {s : State} (hM : Sub 0xb80001 M) (hs : Same M s0 s) :
    Same M s0 (bobAsk c s) := by
  unfold bobAsk
  try dsimp only
  repeat' first
    | intro _
    | with_reducible first
      | assumption | exact hM.of (by decide) | apply sameMk | exact Or.inl (hM.bit (by decide)) | exact Or.inr rfl
    | simp only [same_mk_iff]
    | with_reducible first
      | apply putBob_same | apply acqRequest_same
    | split
    | with_reducible first
      | (apply same_pair; assumption) | (apply same_opt; assumption) | (apply same_triple; assumption)

theorem bobAcqEnd_same {M : Nat} {s0 : State} {c : Nat} {sd : Side} {s : State} (hM : Sub 0xb80001 M) (hs : Same M s0 s) :
    Same M s0 (bobAcqEnd c sd s) := by
  unfold bobAcqEnd
  try dsimp only
  repeat' first
    | intro _
    | with_reducible first
      | assumption | exact hM.of (by decide) | apply sameMk | exact Or.inl (hM.bit (by decide)) | exact Or.inr rfl
    | simp only [same_mk_iff]
    | with_reducible first
      | apply putBob_same | apply bobAsk_same | apply same_ite

theorem swapSteps_same {M : Nat} {s0 : State} {c : Nat} {s : State} (hM : Sub 0xbd0683 M) (hs : Same M s0 s) :
    Same M s0 (swapSteps c s) := by
  unfold swapSteps
  try dsimp only
  repeat' first
    | intro _
    | with_reducible first
      | assumption | exact hM.of (by decide) | apply sameMk | exact Or.inl (hM.bit (by decide)) | exact Or.inr rfl
    | simp only [same_mk_iff]
    | with_reducible first
      | apply wr_same | apply putBob_same | apply putTx_same | apply loadTx_same | apply putCoef_same
      | apply loadRx_same | apply bobFinish_same | apply bobAsk_same | apply same_ite | apply same_foldl

theorem swapTest_same {M : Nat} {s0 : State} {c : Nat} {s : State} (hM : Sub 0x810000 M) (hs : Same M s0 s) :
    Same M s0 (swapTest c s) := by
  unfold swapTest
  try dsimp only
  repeat' first
    | intro _
    | with_reducible first
      | assumption | exact hM.of (by decide) | apply sameMk | exact Or.inl (hM.bit (by decide)) | exact Or.inr rfl
    | simp only [same_mk_iff]
    | with_reducible first
      | apply putBob_same | apply putTx_same | apply same_foldl

theorem swapDetectGo_same {M : Nat} {s0 : State} {c : Nat} {s : State} (hM : Sub 0x810682 M) (hs : Same M s0 s) :
    Same M s0 (swapDetectGo c s) := by
  unfold swapDetectGo
  try dsimp only
  repeat' first
    | intro _
    | with_reducible first
      | assumption | exact hM.of (by decide) | apply sameMk | exact Or.inl (hM.bit (by decide)) | exact Or.inr rfl
    | simp only [same_mk_iff]
    | with_reducible first
      | apply putBob_same | apply syncCluster_same | apply swapTest_same | apply same_ite

theorem swapGo_same {M : Nat} {s0 : State} {c : Nat} {s : State} (hM : Sub 0xbd0683 M) (hs : Same M s0 s) :
    Same M s0 (swapGo c s) := by
  unfold swapGo
  try dsimp only
  repeat' first
    | intro _
    | with_reducible first
      | assumption | exact hM.of (by decide) | apply sameMk | exact Or.inl (hM.bit (by decide)) | exact Or.inr rfl
    | simp only [same_mk_iff]
    | with_reducible first
      | apply putBob_same | apply syncCluster_same | apply swapSteps_same | apply same_ite

theorem swapResume_same {M : Nat} {s0 : State} {c : Nat} {s : State} (hM : Sub 0xbd0683 M) (hs : Same M s0 s) :
    Same M s0 (swapResume c s) := by
  unfold swapResume
  try dsimp only
  repeat' first
    | intro _
    | with_reducible first
      | assumption | exact hM.of (by decide) | apply sameMk | exact Or.inl (hM.bit (by decide)) | exact Or.inr rfl
    | simp only [same_mk_iff]
    | with_reducible first
      | apply putBob_same | apply syncCluster_same | apply swapSteps_same | apply swapTest_same | apply same_ite

theorem swapBegin_same {M : Nat} {s0 : State} {c : Nat} {p : Nat} {cause : Nat} {failedSide : Nat} {intr : Nat} {s : State} (hM : Sub 0x200bd0687 M) (hs : Same M s0 s) :
    Same M s0 (swapBegin c p cause failedSide intr s) := by
  unfold swapBegin
  try dsimp only
  repeat' first
    | intro _
    | with_reducible first
      | assumption | exact hM.of (by decide) | apply sameMk | exact Or.inl (hM.bit (by decide)) | exact Or.inr rfl
    | simp only [same_mk_iff]
    | with_reducible first
      | apply wr_same | apply putBob_same | apply calAbort_same | apply engineNext_same | apply bobClear_same
      | apply loopStop_same | apply bobPreempt_same | apply swapDetectGo_same | apply swapGo_same | apply same_ite
      | apply same_foldl | exact sameOpt_none | apply sameOpt_ite
    | split
    | with_reducible first
      | (apply same_pair; assumption) | (apply same_opt; assumption) | (apply same_triple; assumption)

theorem laneDown_same {M : Nat} {s0 : State} {n : Nat} {sd : Side} {s : State} (hM : Sub 0x80bff683 M) (hs : Same M s0 s) :
    Same M s0 (laneDown n sd s) := by
  unfold laneDown
  try dsimp only
  repeat' first
    | intro _
    | with_reducible first
      | assumption | exact hM.of (by decide) | apply sameMk | exact Or.inl (hM.bit (by decide)) | exact Or.inr rfl
    | simp only [same_mk_iff]
    | with_reducible first
      | apply linkDown_same
    | split
    | with_reducible first
      | (apply same_pair; assumption) | (apply same_opt; assumption) | (apply same_triple; assumption)

theorem swapTrigger_same {M : Nat} {s0 : State} {n : Nat} {cause : Nat} {failed : Option Side} {on : Option Side} {s : State} (hM : Sub 0x280bff687 M) (hs : Same M s0 s) :
    Same M s0 (swapTrigger n cause failed on s) := by
  unfold swapTrigger
  try dsimp only
  repeat' first
    | intro _
    | with_reducible first
      | assumption | exact hM.of (by decide) | apply sameMk | exact Or.inl (hM.bit (by decide)) | exact Or.inr rfl
    | simp only [same_mk_iff]
    | with_reducible first
      | apply loopStop_same | apply swapBegin_same | apply laneDown_same | apply same_ite | exact sameOpt_none
      | apply sameOpt_ite
    | split
    | with_reducible first
      | (apply same_pair; assumption) | (apply same_opt; assumption) | (apply same_triple; assumption)

theorem autoTrigger_same {M : Nat} {s0 : State} {n : Nat} {cause : Nat} {sd : Side} {s : State} (hM : Sub 0x280bff687 M) (hs : Same M s0 s) :
    Same M s0 (autoTrigger n cause sd s) := by
  unfold autoTrigger
  try dsimp only
  repeat' first
    | intro _
    | with_reducible first
      | assumption | exact hM.of (by decide)
    | with_reducible first
      | apply swapTrigger_same | apply same_ite

theorem spareRest_same {M : Nat} {s0 : State} {c : Nat} {n : Nat} {s : State} (hM : Sub 0x10000 M) (hs : Same M s0 s) :
    Same M s0 (spareRest c n s) := by
  unfold spareRest
  try dsimp only
  repeat' first
    | intro _
    | with_reducible first
      | assumption | exact hM.of (by decide)
    | with_reducible first
      | apply eieRest_same | apply same_ite | apply same_foldl

theorem oldWake_same {M : Nat} {s0 : State} {c : Nat} {n : Nat} {s : State} (hM : Sub 0x10000 M) (hs : Same M s0 s) :
    Same M s0 (oldWake c n s) := by
  unfold oldWake
  try dsimp only
  repeat' first
    | intro _
    | with_reducible first
      | assumption | exact hM.of (by decide) | apply sameMk | exact Or.inl (hM.bit (by decide)) | exact Or.inr rfl
    | simp only [same_mk_iff]
    | with_reducible first
      | apply putTx_same | apply same_ite | apply same_foldl

theorem swapAbandonTo_same {M : Nat} {s0 : State} {c : Nat} {why : Nat} {s : State} (hM : Sub 0x80bff683 M) (hs : Same M s0 s) :
    Same M s0 (swapAbandonTo c why s) := by
  unfold swapAbandonTo
  try dsimp only
  repeat' first
    | intro _
    | with_reducible first
      | assumption | exact hM.of (by decide) | apply sameMk | exact Or.inl (hM.bit (by decide)) | exact Or.inr rfl
    | simp only [same_mk_iff]
    | with_reducible first
      | apply wr_same | apply bump_same | apply raise_same | apply putBob_same | apply syncCluster_same
      | apply intrEnd_same | apply laneOut_same | apply bobMove_same | apply laneTxIdle_same | apply bobRest_same
      | apply bobClear_same | apply laneDown_same | apply spareRest_same | apply oldWake_same | apply same_ite
      | apply same_foldl

theorem swapAbandon_same {M : Nat} {s0 : State} {c : Nat} {s : State} (hM : Sub 0x80bff683 M) (hs : Same M s0 s) :
    Same M s0 (swapAbandon c s) := by
  unfold swapAbandon
  try dsimp only
  repeat' first
    | intro _
    | with_reducible first
      | assumption | exact hM.of (by decide)
    | with_reducible first
      | apply swapAbandonTo_same | apply same_ite

theorem bobSwitch_same {M : Nat} {s0 : State} {c : Nat} {sd : Side} {s : State} (hM : Sub 0x2bfb683 M) (hs : Same M s0 s) :
    Same M s0 (bobSwitch c sd s) := by
  unfold bobSwitch
  try dsimp only
  repeat' first
    | intro _
    | with_reducible first
      | assumption | exact hM.of (by decide) | apply sameMk | exact Or.inl (hM.bit (by decide)) | exact Or.inr rfl
    | simp only [same_mk_iff]
    | with_reducible first
      | apply wr_same | apply syncCluster_same | apply intrEnd_same | apply bobMove_same | apply bobFinish_same
      | apply modSpan_same | apply acquireEnter_same | apply same_ite | exact sameOpt_none | apply sameOpt_ite
    | split
    | with_reducible first
      | (apply same_pair; assumption) | (apply same_opt; assumption) | (apply same_triple; assumption)

theorem detectSwapEnd_same {M : Nat} {s0 : State} {c : Nat} {clean : Bool} {s : State} (hM : Sub 0x80bff683 M) (hs : Same M s0 s) :
    Same M s0 (detectSwapEnd c clean s) := by
  unfold detectSwapEnd
  try dsimp only
  repeat' first
    | intro _
    | with_reducible first
      | assumption | exact hM.of (by decide) | apply sameMk | exact Or.inl (hM.bit (by decide)) | exact Or.inr rfl
    | simp only [same_mk_iff]
    | with_reducible first
      | apply wr_same | apply putBob_same | apply intrEnd_same | apply bobMove_same | apply bobFinish_same
      | apply laneDown_same | apply swapAbandonTo_same | apply same_ite | apply same_foldl

theorem returnBegin_same {M : Nat} {s0 : State} {c : Nat} {s : State} (hM : Sub 0xbd0683 M) (hs : Same M s0 s) :
    Same M s0 (returnBegin c s) := by
  unfold returnBegin
  try dsimp only
  repeat' first
    | intro _
    | with_reducible first
      | assumption | exact hM.of (by decide) | apply sameMk | exact Or.inl (hM.bit (by decide)) | exact Or.inr rfl
    | simp only [same_mk_iff]
    | with_reducible first
      | apply wr_same | apply putBob_same | apply bobClear_same | apply loopStop_same | apply swapGo_same

theorem capHeard_same {M : Nat} {s0 : State} {c : Nat} {sd : Side} {s : State} (hM : Sub 0x800004 M) (hs : Same M s0 s) :
    Same M s0 (capHeard c sd s) := by
  unfold capHeard
  try dsimp only
  repeat' first
    | intro _
    | with_reducible first
      | assumption | exact hM.of (by decide) | apply sameMk | exact Or.inl (hM.bit (by decide)) | exact Or.inr rfl
    | simp only [same_mk_iff]
    | with_reducible first
      | apply draw_same | apply putBob_same | apply same_ite
    | with_reducible first
      | (apply same_pair; assumption) | (apply same_opt; assumption) | (apply same_triple; assumption)

theorem takeFrom_same {M : Nat} {s0 : State} {c : Nat} {k : Nat} {sd : Side} {bobbin : Bool} {s : State} (hM : Sub 0x2bfb003 M) (hs : Same M s0 s) :
    Same M s0 (takeFrom c k sd bobbin s) := by
  unfold takeFrom
  try dsimp only
  repeat' first
    | intro _
    | with_reducible first
      | assumption | exact hM.of (by decide) | apply sameMk | exact Or.inl (hM.bit (by decide)) | exact Or.inr rfl
    | simp only [same_mk_iff]
    | with_reducible first
      | apply bobMove_same | apply bobRelease_same | apply modSpan_same | apply acquireEnter_same | apply same_ite

theorem spareCap_same {M : Nat} {s0 : State} {c : Nat} {k : Nat} {sd : Side} {q : Nat} {cap : Bool} {s : State} (hM : Sub 0x282bff687 M) (hs : Same M s0 s) :
    Same M s0 (spareCap c k sd q cap s) := by
  unfold spareCap
  try dsimp only
  repeat' first
    | intro _
    | with_reducible first
      | assumption | exact hM.of (by decide) | apply sameMk | exact Or.inl (hM.bit (by decide)) | exact Or.inr rfl
    | simp only [same_mk_iff]
    | with_reducible first
      | apply swapTrigger_same | apply returnBegin_same | apply capHeard_same | apply takeFrom_same
      | apply same_ite | exact sameOpt_none | apply sameOpt_ite
    | split
    | with_reducible first
      | (apply same_pair; assumption) | (apply same_opt; assumption) | (apply same_triple; assumption)

theorem swapFails_same {M : Nat} {s0 : State} {c : Nat} {sd : Side} {s : State} (hM : Sub 0x800000 M) (hs : Same M s0 s) :
    Same M s0 (swapFails c sd s) := by
  unfold swapFails
  try dsimp only
  repeat' first
    | intro _
    | with_reducible first
      | assumption | exact hM.of (by decide) | apply sameMk | exact Or.inl (hM.bit (by decide)) | exact Or.inr rfl
    | simp only [same_mk_iff]
    | with_reducible first
      | apply putBob_same | apply same_ite

theorem endFailed_same {M : Nat} {s0 : State} {n : Nat} {sd : Side} {tx : Bool} {s : State} (hM : Sub 0x280bff687 M) (hs : Same M s0 s) :
    Same M s0 (endFailed n sd tx s) := by
  unfold endFailed
  try dsimp only
  repeat' first
    | intro _
    | with_reducible first
      | assumption | exact hM.of (by decide)
    | with_reducible first
      | apply bobMove_same | apply bobRelease_same | apply laneDown_same | apply autoTrigger_same
      | apply swapAbandonTo_same | apply swapAbandon_same | apply swapFails_same | apply same_ite

theorem rxLost_same {M : Nat} {s0 : State} {n : Nat} {sd : Side} {cause : Nat} {s : State} (hM : Sub 0x282bff687 M) (hs : Same M s0 s) :
    Same M s0 (rxLost n sd cause s) := by
  unfold rxLost
  try dsimp only
  repeat' first
    | intro _
    | with_reducible first
      | assumption | exact hM.of (by decide) | apply sameMk | exact Or.inl (hM.bit (by decide)) | exact Or.inr rfl
    | simp only [same_mk_iff]
    | with_reducible first
      | apply retrain_same | apply laneDown_same | apply autoTrigger_same | apply swapAbandon_same
      | apply swapFails_same | apply same_ite | exact sameOpt_none | apply sameOpt_ite
    | split
    | with_reducible first
      | (apply same_pair; assumption) | (apply same_opt; assumption) | (apply same_triple; assumption)

end Sys2Proof.Machine
end

