-- ==== Sys2Proof/Laws/SameLaneEnds.lean ====
section
/-! SUPPORT. What the operations of Machine/LaneEnds.lean leave as it is (`Same`). -/

namespace Sys2Proof.Machine

theorem polDrop_same {M : Nat} {s0 : State} {n : Nat} {sd : Side} {s : State} (hM : Sub 0x8001 M) (hs : Same M s0 s) :
    Same M s0 (polDrop n sd s) := by
  unfold polDrop
  try dsimp only
  repeat' first
    | intro _
    | with_reducible first
      | assumption | exact hM.of (by decide) | apply sameMk | exact Or.inl (hM.bit (by decide)) | exact Or.inr rfl
    | simp only [same_mk_iff]
    | with_reducible first
      | apply wr_same | apply putRx_same | apply same_ite

theorem unlock_same {M : Nat} {s0 : State} {n : Nat} {sd : Side} {s : State} (hM : Sub 0x3a8003 M) (hs : Same M s0 s) :
    Same M s0 (unlock n sd s) := by
  unfold unlock
  try dsimp only
  repeat' first
    | intro _
    | with_reducible first
      | assumption | exact hM.of (by decide) | apply sameMk | exact Or.inl (hM.bit (by decide)) | exact Or.inr rfl
    | simp only [same_mk_iff]
    | with_reducible first
      | apply wr_same | apply putRx_same | apply adaptLeaves_same | apply steerSync_same

theorem execSignalDetect_same {M : Nat} {s0 : State} {e : LaneEnd} {x : Sensed} {s : State} (hM : Sub 0x3a8003 M) (hs : Same M s0 s) :
    SameO M s0 (execSignalDetect e x s) := by
  unfold execSignalDetect
  try dsimp only
  repeat' first
    | intro _
    | with_reducible first
      | assumption | exact hM.of (by decide) | apply sameMk | exact Or.inl (hM.bit (by decide)) | exact Or.inr rfl
    | simp only [same_mk_iff]
    | with_reducible first
      | apply onUnit_same | apply wr_same | apply putRx_same | apply acqQueue_same | apply acqRequest_same
      | apply steerSync_same | apply sameO_next | apply sameO_ite | exact sameO_fault | apply same_ite
      | exact sameOpt_none | apply sameOpt_ite
    | split
    | with_reducible first
      | (apply same_pair; assumption) | (apply same_opt; assumption) | (apply same_triple; assumption)

theorem acqLost_same {M : Nat} {s0 : State} {n : Nat} {sd : Side} {s : State} (hM : Sub 0x82bff687 M) (hs : Same M s0 s) :
    Same M s0 (acqLost n sd s) := by
  unfold acqLost
  try dsimp only
  repeat' first
    | intro _
    | with_reducible first
      | assumption | exact hM.of (by decide) | apply sameMk | exact Or.inl (hM.bit (by decide)) | exact Or.inr rfl
    | simp only [same_mk_iff]
    | with_reducible first
      | apply acqRemove_same | apply figureFails_same | apply bobAcqEnd_same | apply same_ite | exact sameOpt_none
      | apply sameOpt_ite
    | split
    | with_reducible first
      | (apply same_pair; assumption) | (apply same_opt; assumption) | (apply same_triple; assumption)

theorem rxLostAll_same {M : Nat} {s0 : State} {ends : List Nat} {sd : Side} {cause : Nat} {s : State} (hM : Sub 0x282bff687 M) (hs : Same M s0 s) :
    Same M s0 (rxLostAll ends sd cause s) := by
  unfold rxLostAll
  try dsimp only
  repeat' first
    | intro _
    | with_reducible first
      | assumption | exact hM.of (by decide)
    | with_reducible first
      | apply rxLost_same | apply same_foldl

theorem signalLost_same {M : Nat} {s0 : State} {n : Nat} {sd : Side} {ns : Nat} {s : State} (hM : Sub 0x82bff687 M) (hs : Same M s0 s) :
    Same M s0 (signalLost n sd ns s) := by
  unfold signalLost
  try dsimp only
  repeat' first
    | intro _
    | with_reducible first
      | assumption | exact hM.of (by decide) | apply sameMk | exact Or.inl (hM.bit (by decide)) | exact Or.inr rfl
    | simp only [same_mk_iff]
    | with_reducible first
      | apply wr_same | apply wrB_same | apply raise_same | apply putRx_same | apply polDrop_same
      | apply unlock_same | apply acqLost_same | apply same_ite | exact sameOpt_none | apply sameOpt_ite
    | split
    | with_reducible first
      | (apply same_pair; assumption) | (apply same_opt; assumption) | (apply same_triple; assumption)

theorem execLossOfSignal_same {M : Nat} {s0 : State} {e : LaneEnd} {x : Sensed} {also : List Nat} {s : State} (hM : Sub 0x282bff687 M) (hs : Same M s0 s) :
    SameO M s0 (execLossOfSignal e x also s) := by
  unfold execLossOfSignal
  try dsimp only
  repeat' first
    | intro _
    | with_reducible first
      | assumption | exact hM.of (by decide)
    | with_reducible first
      | apply onUnit_same | apply rxLostAll_same | apply signalLost_same | apply sameO_next | apply sameO_ite
      | exact sameO_fault | apply same_foldl

theorem execRxOpen_same {M : Nat} {s0 : State} {n : Nat} {sd : Side} {s : State} (hM : Sub 0x280bff687 M) (hs : Same M s0 s) :
    SameO M s0 (execRxOpen n sd s) := by
  unfold execRxOpen
  try dsimp only
  repeat' first
    | intro _
    | with_reducible first
      | assumption | exact hM.of (by decide)
    | with_reducible first
      | apply onUnit_same | apply wr_same | apply wired_same | apply endFailed_same | apply sameO_next
      | apply sameO_ite | exact sameO_fault | apply same_ite

theorem execRxOpenClear_same {M : Nat} {s0 : State} {n : Nat} {sd : Side} {s : State} (hM : Sub 0x80bff683 M) (hs : Same M s0 s) :
    SameO M s0 (execRxOpenClear n sd s) := by
  unfold execRxOpenClear
  try dsimp only
  repeat' first
    | intro _
    | with_reducible first
      | assumption | exact hM.of (by decide) | apply sameMk | exact Or.inl (hM.bit (by decide)) | exact Or.inr rfl
    | simp only [same_mk_iff]
    | with_reducible first
      | apply onUnit_same | apply wr_same | apply bobRelease_same | apply qualifyCheck_same | apply sameO_next
      | apply sameO_ite | exact sameO_fault | apply same_ite | exact sameOpt_none | apply sameOpt_ite
    | split
    | with_reducible first
      | (apply same_pair; assumption) | (apply same_opt; assumption) | (apply same_triple; assumption)

theorem ebCentre_same {M : Nat} {s0 : State} {n : Nat} {sd : Side} {s : State} (hM : Sub 0x8001 M) (hs : Same M s0 s) :
    Same M s0 (ebCentre n sd s) := by
  unfold ebCentre
  try dsimp only
  repeat' first
    | intro _
    | with_reducible first
      | assumption | exact hM.of (by decide) | apply sameMk | exact Or.inl (hM.bit (by decide)) | exact Or.inr rfl
    | simp only [same_mk_iff]
    | with_reducible first
      | apply wr_same | apply putRx_same | apply same_ite | exact sameOpt_none | apply sameOpt_ite
    | split
    | with_reducible first
      | (apply same_pair; assumption) | (apply same_opt; assumption) | (apply same_triple; assumption)

theorem lockEnd_same {M : Nat} {s0 : State} {n : Nat} {sd : Side} {s : State} (hM : Sub 0x80bff683 M) (hs : Same M s0 s) :
    Same M s0 (lockEnd n sd s) := by
  unfold lockEnd
  try dsimp only
  repeat' first
    | intro _
    | with_reducible first
      | assumption | exact hM.of (by decide) | apply sameMk | exact Or.inl (hM.bit (by decide)) | exact Or.inr rfl
    | simp only [same_mk_iff]
    | with_reducible first
      | apply wr_same | apply putRx_same | apply adaptEnters_same | apply steerSync_same | apply qualifyCheck_same
      | apply ebCentre_same
    | split
    | with_reducible first
      | (apply same_pair; assumption) | (apply same_opt; assumption) | (apply same_triple; assumption)

theorem alignEnd_same {M : Nat} {s0 : State} {n : Nat} {sd : Side} {offset : Nat} {mirror : Bool} {s : State} (hM : Sub 0x8001 M) (hs : Same M s0 s) :
    Same M s0 (alignEnd n sd offset mirror s) := by
  unfold alignEnd
  try dsimp only
  repeat' first
    | intro _
    | with_reducible first
      | assumption | exact hM.of (by decide) | apply sameMk | exact Or.inl (hM.bit (by decide)) | exact Or.inr rfl
    | simp only [same_mk_iff]
    | with_reducible first
      | apply wr_same | apply wired_same | apply putRx_same | apply same_ite

theorem commaRd_same {M : Nat} {s0 : State} {n : Nat} {sd : Side} {plus : Bool} {s : State} (hM : Sub 0x8000 M) (hs : Same M s0 s) :
    Same M s0 (commaRd n sd plus s) := by
  unfold commaRd
  try dsimp only
  repeat' first
    | intro _
    | with_reducible first
      | assumption | exact hM.of (by decide) | apply sameMk | exact Or.inl (hM.bit (by decide)) | exact Or.inr rfl
    | simp only [same_mk_iff]
    | with_reducible first
      | apply putRx_same

theorem lockDrop_same {M : Nat} {s0 : State} {n : Nat} {sd : Side} {s : State} (hM : Sub 0x3a8003 M) (hs : Same M s0 s) :
    Same M s0 (lockDrop n sd s) := by
  unfold lockDrop
  try dsimp only
  repeat' first
    | intro _
    | with_reducible first
      | assumption | exact hM.of (by decide)
    | with_reducible first
      | apply count_same | apply raise_same | apply unlock_same

theorem locksLost_same {M : Nat} {s0 : State} {ends : List Nat} {sd : Side} {s : State} (hM : Sub 0x282bff687 M) (hs : Same M s0 s) :
    Same M s0 (locksLost ends sd s) := by
  unfold locksLost
  try dsimp only
  repeat' first
    | intro _
    | with_reducible first
      | assumption | exact hM.of (by decide)
    | with_reducible first
      | apply rxLostAll_same | apply lockDrop_same | apply same_foldl

theorem oneBad_same {M : Nat} {s0 : State} {n : Nat} {sd : Side} {s : State} (hM : Sub 0x282bff687 M) (hs : Same M s0 s) :
    Same M s0 (oneBad n sd s) := by
  unfold oneBad
  try dsimp only
  repeat' first
    | intro _
    | with_reducible first
      | assumption | exact hM.of (by decide) | apply sameMk | exact Or.inl (hM.bit (by decide)) | exact Or.inr rfl
    | simp only [same_mk_iff]
    | with_reducible first
      | apply putRx_same | apply locksLost_same | apply same_ite

theorem execCommaDetect_same {M : Nat} {s0 : State} {e : LaneEnd} {offset : Nat} {mirror : Bool} {plus : Bool} {s : State} (hM : Sub 0x282bff687 M) (hs : Same M s0 s) :
    SameO M s0 (execCommaDetect e offset mirror plus s) := by
  unfold execCommaDetect
  try dsimp only
  repeat' first
    | intro _
    | with_reducible first
      | assumption | exact hM.of (by decide) | apply sameMk | exact Or.inl (hM.bit (by decide)) | exact Or.inr rfl
    | simp only [same_mk_iff]
    | with_reducible first
      | apply onUnit_same | apply wr_same | apply putRx_same | apply polDrop_same | apply lockEnd_same
      | apply alignEnd_same | apply commaRd_same | apply oneBad_same | apply sameO_next | apply sameO_ite
      | exact sameO_fault | apply same_ite

theorem execSymbolLockAcquired_same {M : Nat} {s0 : State} {e : LaneEnd} {plus : Bool} {s : State} (hM : Sub 0x80bff683 M) (hs : Same M s0 s) :
    SameO M s0 (execSymbolLockAcquired e plus s) := by
  unfold execSymbolLockAcquired
  try dsimp only
  repeat' first
    | intro _
    | with_reducible first
      | assumption | exact hM.of (by decide)
    | with_reducible first
      | apply onUnit_same | apply lockEnd_same | apply commaRd_same | apply sameO_next | apply sameO_ite
      | exact sameO_fault | apply same_ite

theorem execAligningBadSymbol_same {M : Nat} {s0 : State} {n : Nat} {sd : Side} {s : State} (hM : Sub 0x8001 M) (hs : Same M s0 s) :
    SameO M s0 (execAligningBadSymbol n sd s) := by
  unfold execAligningBadSymbol
  try dsimp only
  repeat' first
    | intro _
    | with_reducible first
      | assumption | exact hM.of (by decide) | apply sameMk | exact Or.inl (hM.bit (by decide)) | exact Or.inr rfl
    | simp only [same_mk_iff]
    | with_reducible first
      | apply onUnit_same | apply wr_same | apply putRx_same | apply polDrop_same | apply sameO_next
      | apply sameO_ite | exact sameO_fault | apply same_ite

theorem execLockLoss_same {M : Nat} {s0 : State} {e : LaneEnd} {also : List Nat} {s : State} (hM : Sub 0x282bff687 M) (hs : Same M s0 s) :
    SameO M s0 (execLockLoss e also s) := by
  unfold execLockLoss
  try dsimp only
  repeat' first
    | intro _
    | with_reducible first
      | assumption | exact hM.of (by decide)
    | with_reducible first
      | apply onUnit_same | apply locksLost_same | apply sameO_next | apply sameO_ite | exact sameO_fault

theorem execLolWindowEnd_same {M : Nat} {s0 : State} {n : Nat} {sd : Side} {s : State} (hM : Sub 0x8000 M) (hs : Same M s0 s) :
    SameO M s0 (execLolWindowEnd n sd s) := by
  unfold execLolWindowEnd
  try dsimp only
  repeat' first
    | intro _
    | with_reducible first
      | assumption | exact hM.of (by decide) | apply sameMk | exact Or.inl (hM.bit (by decide)) | exact Or.inr rfl
    | simp only [same_mk_iff]
    | with_reducible first
      | apply onUnit_same | apply putRx_same | apply sameO_next | apply sameO_ite | exact sameO_fault
      | apply same_ite

theorem execBalanceWindowEnd_same {M : Nat} {s0 : State} {n : Nat} {sd : Side} {counts : List Nat} {s : State} (hM : Sub 0x1 M) (hs : Same M s0 s) :
    SameO M s0 (execBalanceWindowEnd n sd counts s) := by
  unfold execBalanceWindowEnd
  try dsimp only
  repeat' first
    | intro _
    | with_reducible first
      | assumption | exact hM.of (by decide)
    | with_reducible first
      | apply onUnit_same | apply wr_same | apply sameO_next | apply sameO_ite | exact sameO_fault
      | apply same_ite

theorem termExit_same {M : Nat} {s0 : State} {c : Nat} {sd : Side} {s : State} (hM : Sub 0x40000 M) (hs : Same M s0 s) :
    Same M s0 (termExit c sd s) := by
  unfold termExit
  try dsimp only
  repeat' first
    | intro _
    | with_reducible first
      | assumption | exact hM.of (by decide) | apply sameMk | exact Or.inl (hM.bit (by decide)) | exact Or.inr rfl
    | simp only [same_mk_iff]
    | with_reducible first
      | apply putCkExit_same | apply same_ite

theorem termCmd_same {M : Nat} {s0 : State} {c : Nat} {mask : Nat} {a : Bool} {b : Bool} {s : State} (hM : Sub 0x50001 M) (hs : Same M s0 s) :
    Same M s0 (termCmd c mask a b s) := by
  unfold termCmd
  try dsimp only
  repeat' first
    | intro _
    | with_reducible first
      | assumption | exact hM.of (by decide) | apply sameMk | exact Or.inl (hM.bit (by decide)) | exact Or.inr rfl
    | simp only [same_mk_iff]
    | with_reducible first
      | apply wr_same | apply wrB_same | apply putTx_same | apply termExit_same | apply same_ite
      | apply same_foldl

theorem execTerminationDetect_same {M : Nat} {s0 : State} {c : Nat} {mask : Nat} {a : Bool} {b : Bool} {s : State} (hM : Sub 0x50001 M) (hs : Same M s0 s) :
    SameO M s0 (execTerminationDetect c mask a b s) := by
  unfold execTerminationDetect
  try dsimp only
  repeat' first
    | intro _
    | with_reducible first
      | assumption | exact hM.of (by decide)
    | with_reducible first
      | apply ifHas_same | apply termCmd_same | apply sameO_next | apply sameO_ite | exact sameO_fault

theorem termResult_same {M : Nat} {s0 : State} {c : Nat} {j : Nat} {sd : Side} {absent : Bool} {s : State} (hM : Sub 0x10001 M) (hs : Same M s0 s) :
    Same M s0 (termResult c j sd absent s) := by
  unfold termResult
  try dsimp only
  repeat' first
    | intro _
    | with_reducible first
      | assumption | exact hM.of (by decide) | apply sameMk | exact Or.inl (hM.bit (by decide)) | exact Or.inr rfl
    | simp only [same_mk_iff]
    | with_reducible first
      | apply wr_same | apply wrB_same | apply wired_same | apply putTx_same | apply same_ite

theorem termClock_same {M : Nat} {s0 : State} {c : Nat} {d : Dir} {absent : Bool} {s : State} (hM : Sub 0x40001 M) (hs : Same M s0 s) :
    Same M s0 (termClock c d absent s) := by
  unfold termClock
  try dsimp only
  repeat' first
    | intro _
    | with_reducible first
      | assumption | exact hM.of (by decide) | apply sameMk | exact Or.inl (hM.bit (by decide)) | exact Or.inr rfl
    | simp only [same_mk_iff]
    | with_reducible first
      | apply raise_same | apply putCkExit_same | apply same_ite

theorem termFaulty_same {M : Nat} {s0 : State} {c : Nat} {j : Nat} {sd : Side} {s : State} (hM : Sub 0x280bff687 M) (hs : Same M s0 s) :
    Same M s0 (termFaulty c j sd s) := by
  unfold termFaulty
  try dsimp only
  repeat' first
    | intro _
    | with_reducible first
      | assumption | exact hM.of (by decide) | apply sameMk | exact Or.inl (hM.bit (by decide)) | exact Or.inr rfl
    | simp only [same_mk_iff]
    | with_reducible first
      | apply swapTrigger_same | apply endFailed_same | apply same_ite | exact sameOpt_none | apply sameOpt_ite
    | split
    | with_reducible first
      | (apply same_pair; assumption) | (apply same_opt; assumption) | (apply same_triple; assumption)

theorem termDone_same {M : Nat} {s0 : State} {c : Nat} {absent : List Nat} {s : State} (hM : Sub 0x282bff687 M) (hs : Same M s0 s) :
    Same M s0 (termDone c absent s) := by
  unfold termDone
  try dsimp only
  repeat' first
    | intro _
    | with_reducible first
      | assumption | exact hM.of (by decide)
    | with_reducible first
      | apply wr_same | apply bobRelease_same | apply detectCheck_same | apply detectSwapEnd_same
      | apply termResult_same | apply termClock_same | apply termFaulty_same | apply same_ite | apply same_foldl

theorem execTerminationDetectDone_same {M : Nat} {s0 : State} {c : Nat} {absent : List Nat} {s : State} (hM : Sub 0x282bff687 M) (hs : Same M s0 s) :
    SameO M s0 (execTerminationDetectDone c absent s) := by
  unfold execTerminationDetectDone
  try dsimp only
  repeat' first
    | intro _
    | with_reducible first
      | assumption | exact hM.of (by decide)
    | with_reducible first
      | apply onUnit_same | apply termDone_same | apply sameO_next | apply sameO_ite | exact sameO_fault

theorem execTxShort_same {M : Nat} {s0 : State} {n : Nat} {sd : Side} {cls : Nat} {s : State} (hM : Sub 0x280bff687 M) (hs : Same M s0 s) :
    SameO M s0 (execTxShort n sd cls s) := by
  unfold execTxShort
  try dsimp only
  repeat' first
    | intro _
    | with_reducible first
      | assumption | exact hM.of (by decide) | apply sameMk | exact Or.inl (hM.bit (by decide)) | exact Or.inr rfl
    | simp only [same_mk_iff]
    | with_reducible first
      | apply onUnit_same | apply wr_same | apply raise_same | apply wired_same | apply putCkExit_same
      | apply txRest_same | apply endFailed_same | apply sameO_next | apply sameO_ite | exact sameO_fault
      | apply same_ite

theorem cntSnap_same {M : Nat} {s0 : State} {c : Nat} {s : State} (hM : Sub 0x40000001 M) (hs : Same M s0 s) :
    Same M s0 (cntSnap c s) := by
  unfold cntSnap
  try dsimp only
  repeat' first
    | intro _
    | with_reducible first
      | assumption | exact hM.of (by decide)
    | with_reducible first
      | apply bumpWrap_same | apply latchAll_same | apply answerWord_same

theorem execCntSnap_same {M : Nat} {s0 : State} {c : Nat} {s : State} (hM : Sub 0x40000001 M) (hs : Same M s0 s) :
    SameO M s0 (execCntSnap c s) := by
  unfold execCntSnap
  try dsimp only
  repeat' first
    | intro _
    | with_reducible first
      | assumption | exact hM.of (by decide)
    | with_reducible first
      | apply ifHas_same | apply answerWord_same | apply cntSnap_same | apply sameO_next | apply sameO_ite
      | exact sameO_fault

theorem cntClear_same {M : Nat} {s0 : State} {c : Nat} {s : State} (hM : Sub 0x2 M) (hs : Same M s0 s) :
    Same M s0 (cntClear c s) := by
  unfold cntClear
  try dsimp only
  repeat' first
    | intro _
    | with_reducible first
      | assumption | exact hM.of (by decide)
    | with_reducible first
      | apply putLive_same | apply zeroLive_same

theorem execCntCtlClear_same {M : Nat} {s0 : State} {c : Nat} {s : State} (hM : Sub 0x2 M) (hs : Same M s0 s) :
    SameO M s0 (execCntCtlClear c s) := by
  unfold execCntCtlClear
  try dsimp only
  repeat' first
    | intro _
    | with_reducible first
      | assumption | exact hM.of (by decide)
    | with_reducible first
      | apply ifHas_same | apply cntClear_same | apply sameO_next | apply sameO_ite | exact sameO_fault

theorem leCfgSide_same {M : Nat} {s0 : State} {n : Nat} {sd : Side} {s : State} (hM : Sub 0x3d8001 M) (hs : Same M s0 s) :
    Same M s0 (leCfgSide n sd s) := by
  unfold leCfgSide
  try dsimp only
  repeat' first
    | intro _
    | with_reducible first
      | assumption | exact hM.of (by decide) | apply sameMk | exact Or.inl (hM.bit (by decide)) | exact Or.inr rfl
    | simp only [same_mk_iff]
    | with_reducible first
      | apply wrB_same | apply putRx_same | apply putTx_same | apply polRestart_same | apply exitPol_same
      | apply same_ite

theorem leCfgWrite_same {M : Nat} {s0 : State} {n : Nat} {v : Nat} {s : State} (hM : Sub 0x3d8001 M) (hs : Same M s0 s) :
    Same M s0 (leCfgWrite n v s) := by
  unfold leCfgWrite
  try dsimp only
  repeat' first
    | intro _
    | with_reducible first
      | assumption | exact hM.of (by decide)
    | with_reducible first
      | apply wrB_same | apply leCfgSide_same | apply same_foldl

theorem execLeCfgWrite_same {M : Nat} {s0 : State} {n : Nat} {v : Nat} {s : State} (hM : Sub 0x3d8001 M) (hs : Same M s0 s) :
    SameO M s0 (execLeCfgWrite n v s) := by
  unfold execLeCfgWrite
  try dsimp only
  repeat' first
    | intro _
    | with_reducible first
      | assumption | exact hM.of (by decide)
    | with_reducible first
      | apply ifHas_same | apply leCfgWrite_same | apply sameO_next | apply sameO_ite | exact sameO_fault

end Sys2Proof.Machine
end

