-- ==== Sys2Proof/Laws/SameEqualization.lean ====
section
/-! SUPPORT. What the operations of Machine/Equalization.lean leave as it is (`Same`). -/

namespace Sys2Proof.Machine

theorem acqEnd_same {M : Nat} {s0 : State} {n : Nat} {sd : Side} {ok : Bool} {s : State} (hM : Sub 0x82bff687 M) (hs : Same M s0 s) :
    Same M s0 (acqEnd n sd ok s) := by
  unfold acqEnd
  try dsimp only
  repeat' first
    | intro _
    | with_reducible first
      | assumption | exact hM.of (by decide) | apply sameMk | exact Or.inl (hM.bit (by decide)) | exact Or.inr rfl
    | simp only [same_mk_iff]
    | with_reducible first
      | apply wr_same | apply bump_same | apply raise_same | apply putCoef_same | apply engineDrop_same
      | apply figureFails_same | apply qualifyCheck_same | apply bobAcqEnd_same | apply same_ite
      | exact sameOpt_none | apply sameOpt_ite
    | split
    | with_reducible first
      | (apply same_pair; assumption) | (apply same_opt; assumption) | (apply same_triple; assumption)

theorem execAcqBlockEnd_same {M : Nat} {s0 : State} {n : Nat} {sd : Side} {mse : Nat} {coefs : List Int} {f1pos : Nat} {f2pos : Nat} {s : State} (hM : Sub 0x82bff687 M) (hs : Same M s0 s) :
    SameO M s0 (execAcqBlockEnd n sd mse coefs f1pos f2pos s) := by
  unfold execAcqBlockEnd
  try dsimp only
  repeat' first
    | intro _
    | with_reducible first
      | assumption | exact hM.of (by decide) | apply sameMk | exact Or.inl (hM.bit (by decide)) | exact Or.inr rfl
    | simp only [same_mk_iff]
    | with_reducible first
      | apply onUnit_same | apply putCoef_same | apply acqEnd_same | apply sameO_next | apply sameO_ite
      | exact sameO_fault | apply same_ite

theorem execAcqTimeout_same {M : Nat} {s0 : State} {n : Nat} {sd : Side} {s : State} (hM : Sub 0x82bff687 M) (hs : Same M s0 s) :
    SameO M s0 (execAcqTimeout n sd s) := by
  unfold execAcqTimeout
  try dsimp only
  repeat' first
    | intro _
    | with_reducible first
      | assumption | exact hM.of (by decide)
    | with_reducible first
      | apply onUnit_same | apply acqEnd_same | apply sameO_next | apply sameO_ite | exact sameO_fault
      | apply same_ite

theorem judgeRange_same {M : Nat} {s0 : State} {n : Nat} {sd : Side} {mse : Nat} {s : State} (hM : Sub 0x80001 M) (hs : Same M s0 s) :
    Same M s0 (judgeRange n sd mse s) := by
  unfold judgeRange
  try dsimp only
  repeat' first
    | intro _
    | with_reducible first
      | assumption | exact hM.of (by decide) | apply sameMk | exact Or.inl (hM.bit (by decide)) | exact Or.inr rfl
    | simp only [same_mk_iff]
    | with_reducible first
      | apply wr_same | apply raise_same | apply putCoef_same | apply same_ite

theorem execTrackVisitEnd_same {M : Nat} {s0 : State} {n : Nat} {sd : Side} {mse : Nat} {steps : List Int} {s : State} (hM : Sub 0x380001 M) (hs : Same M s0 s) :
    SameO M s0 (execTrackVisitEnd n sd mse steps s) := by
  unfold execTrackVisitEnd
  try dsimp only
  repeat' first
    | intro _
    | with_reducible first
      | assumption | exact hM.of (by decide) | apply sameMk | exact Or.inl (hM.bit (by decide)) | exact Or.inr rfl
    | simp only [same_mk_iff]
    | with_reducible first
      | apply onUnit_same | apply putCoef_same | apply putEngine_same | apply engineNext_same
      | apply judgeRange_same | apply sameO_next | apply sameO_ite | exact sameO_fault | apply same_ite

theorem execTrackUpdateApply_same {M : Nat} {s0 : State} {n : Nat} {sd : Side} {s : State} (hM : Sub 0x80000 M) (hs : Same M s0 s) :
    SameO M s0 (execTrackUpdateApply n sd s) := by
  unfold execTrackUpdateApply
  try dsimp only
  repeat' first
    | intro _
    | with_reducible first
      | assumption | exact hM.of (by decide) | apply sameMk | exact Or.inl (hM.bit (by decide)) | exact Or.inr rfl
    | simp only [same_mk_iff]
    | with_reducible first
      | apply onUnit_same | apply putCoef_same | apply sameO_next | apply sameO_ite | exact sameO_fault
      | apply same_ite

theorem adaptCmd_same {M : Nat} {s0 : State} {c : Nat} {op : Nat} {sd : Side} {pos : Nat} {refused : Bool} {act : Nat → State → State} {s : State} (hM : Sub 0x1 M) (hact : ∀ y0 y1, Same M s0 y1 → Same M s0 (act y0 y1)) (hs : Same M s0 s) :
    Same M s0 (adaptCmd c op sd pos refused act s) := by
  unfold adaptCmd
  try dsimp only
  repeat' first
    | intro _
    | with_reducible first
      | assumption | exact hM.of (by decide)
    | with_reducible first
      | apply wr_same | apply hact | apply same_ite

theorem execAdaptReacquire_same {M : Nat} {s0 : State} {c : Nat} {sd : Side} {pos : Nat} {s : State} (hM : Sub 0x380001 M) (hs : Same M s0 s) :
    SameO M s0 (execAdaptReacquire c sd pos s) := by
  unfold execAdaptReacquire
  try dsimp only
  repeat' first
    | intro _
    | with_reducible first
      | assumption | exact hM.of (by decide)
    | with_reducible first
      | apply ifHas_same | apply acqRequest_same | apply adaptCmd_same | apply sameO_next | apply sameO_ite
      | exact sameO_fault | apply same_ite

theorem execAdaptFreeze_same {M : Nat} {s0 : State} {c : Nat} {sd : Side} {pos : Nat} {s : State} (hM : Sub 0x380001 M) (hs : Same M s0 s) :
    SameO M s0 (execAdaptFreeze c sd pos s) := by
  unfold execAdaptFreeze
  try dsimp only
  repeat' first
    | intro _
    | with_reducible first
      | assumption | exact hM.of (by decide) | apply sameMk | exact Or.inl (hM.bit (by decide)) | exact Or.inr rfl
    | simp only [same_mk_iff]
    | with_reducible first
      | apply wr_same | apply ifHas_same | apply putCoef_same | apply engineDrop_same | apply adaptCmd_same
      | apply sameO_next | apply sameO_ite | exact sameO_fault

theorem execAdaptThaw_same {M : Nat} {s0 : State} {c : Nat} {sd : Side} {pos : Nat} {s : State} (hM : Sub 0x300001 M) (hs : Same M s0 s) :
    SameO M s0 (execAdaptThaw c sd pos s) := by
  unfold execAdaptThaw
  try dsimp only
  repeat' first
    | intro _
    | with_reducible first
      | assumption | exact hM.of (by decide)
    | with_reducible first
      | apply wr_same | apply ifHas_same | apply engineNext_same | apply adaptCmd_same | apply sameO_next
      | apply sameO_ite | exact sameO_fault

theorem adaptHold_same {M : Nat} {s0 : State} {c : Nat} {s : State} (hM : Sub 0x180001 M) (hs : Same M s0 s) :
    Same M s0 (adaptHold c s) := by
  unfold adaptHold
  try dsimp only
  repeat' first
    | intro _
    | with_reducible first
      | assumption | exact hM.of (by decide) | apply sameMk | exact Or.inl (hM.bit (by decide)) | exact Or.inr rfl
    | simp only [same_mk_iff]
    | with_reducible first
      | apply putCoef_same | apply putEngine_same | apply same_ite | apply same_foldl

theorem adaptEnable_same {M : Nat} {s0 : State} {c : Nat} {s : State} (hM : Sub 0x380001 M) (hs : Same M s0 s) :
    Same M s0 (adaptEnable c s) := by
  unfold adaptEnable
  try dsimp only
  repeat' first
    | intro _
    | with_reducible first
      | assumption | exact hM.of (by decide)
    | with_reducible first
      | apply adaptEnters_same | apply adaptHold_same | apply same_ite | apply same_foldl

theorem dfeSelWrite_same {M : Nat} {s0 : State} {c : Nat} {v : Nat} {s : State} (hM : Sub 0x1 M) (hs : Same M s0 s) :
    Same M s0 (dfeSelWrite c v s) := by
  unfold dfeSelWrite
  try dsimp only
  repeat' first
    | intro _
    | with_reducible first
      | assumption | exact hM.of (by decide)
    | with_reducible first
      | apply wr_same | apply same_ite | apply same_foldl

theorem execDfeSelWrite_same {M : Nat} {s0 : State} {c : Nat} {v : Nat} {s : State} (hM : Sub 0x1 M) (hs : Same M s0 s) :
    SameO M s0 (execDfeSelWrite c v s) := by
  unfold execDfeSelWrite
  try dsimp only
  repeat' first
    | intro _
    | with_reducible first
      | assumption | exact hM.of (by decide)
    | with_reducible first
      | apply ifHas_same | apply dfeSelWrite_same | apply sameO_next | apply sameO_ite | exact sameO_fault

end Sys2Proof.Machine
end

