-- ==== Sys2Proof/Laws/SameUnits.lean ====
section
/-! SUPPORT. What the operations of Machine/Units.lean leave as it is (`Same`). -/

namespace Sys2Proof.Machine

theorem slicesEnd_same {M : Nat} {s0 : State} {d : Nat} {result : Nat} {cause : Nat} {s : State} (hM : Sub 0x200810105 M) (hs : Same M s0 s) :
    Same M s0 (slicesEnd d result cause s) := by
  unfold slicesEnd
  try dsimp only
  repeat' first
    | intro _
    | with_reducible first
      | assumption | exact hM.of (by decide)
    | with_reducible first
      | apply bankStop_same | apply bobSliceCut_same

theorem limitFails_same {M : Nat} {s0 : State} {cause : Nat} {s : State} (hM : Sub 0x200810105 M) (hs : Same M s0 s) :
    Same M s0 (limitFails cause s) := by
  unfold limitFails
  try dsimp only
  repeat' first
    | intro _
    | with_reducible first
      | assumption | exact hM.of (by decide)
    | with_reducible first
      | apply slicesEnd_same

theorem recordCause_same {M : Nat} {s0 : State} {f : Fld} {cause : Nat} {s : State} (hM : Sub 0x1 M) (hs : Same M s0 s) :
    Same M s0 (recordCause f cause s) := by
  unfold recordCause
  try dsimp only
  repeat' first
    | intro _
    | with_reducible first
      | assumption | exact hM.of (by decide)
    | with_reducible first
      | apply wr_same | apply same_ite

theorem recordParent_same {M : Nat} {s0 : State} {f : Fld} {s : State} (hM : Sub 0x1 M) (hs : Same M s0 s) :
    Same M s0 (recordParent f s) := by
  unfold recordParent
  try dsimp only
  repeat' first
    | intro _
    | with_reducible first
      | assumption | exact hM.of (by decide)
    | with_reducible first
      | apply wr_same | apply same_ite

theorem linkHalt_same {M : Nat} {s0 : State} {k : Nat} {s : State} (hM : Sub 0x803ef683 M) (hs : Same M s0 s) :
    Same M s0 (linkHalt k s) := by
  unfold linkHalt
  try dsimp only
  repeat' first
    | intro _
    | with_reducible first
      | assumption | exact hM.of (by decide)
    | with_reducible first
      | apply linkDropTraffic_same | apply spanHold_same | apply same_foldl

theorem haltFenced_same {M : Nat} {s0 : State} {s : State} (hM : Sub 0x280bff787 M) (hs : Same M s0 s) :
    Same M s0 (haltFenced s) := by
  unfold haltFenced
  try dsimp only
  repeat' first
    | intro _
    | with_reducible first
      | assumption | exact hM.of (by decide)
    | with_reducible first
      | apply swapAbandon_same | apply slicesEnd_same | apply linkHalt_same | apply same_ite | apply same_foldl

theorem fenceTakes_same {M : Nat} {s0 : State} {s : State} (hM : Sub 0x280bff787 M) (hs : Same M s0 s) :
    Same M s0 (fenceTakes s) := by
  unfold fenceTakes
  try dsimp only
  repeat' first
    | intro _
    | with_reducible first
      | assumption | exact hM.of (by decide)
    | with_reducible first
      | apply haltFenced_same | apply same_ite

theorem fenceRegion_same {M : Nat} {s0 : State} {r : Nat} {cause : Nat} {s : State} (hM : Sub 0x280bff787 M) (hs : Same M s0 s) :
    Same M s0 (fenceRegion r cause s) := by
  unfold fenceRegion
  try dsimp only
  repeat' first
    | intro _
    | with_reducible first
      | assumption | exact hM.of (by decide)
    | with_reducible first
      | apply recordCause_same | apply fenceTakes_same

theorem parentDie_same {M : Nat} {s0 : State} {d : Nat} {s : State} (hM : Sub 0x1 M) (hs : Same M s0 s) :
    Same M s0 (parentDie d s) := by
  unfold parentDie
  try dsimp only
  repeat' first
    | intro _
    | with_reducible first
      | assumption | exact hM.of (by decide)
    | with_reducible first
      | apply recordParent_same

theorem fenceDie_same {M : Nat} {s0 : State} {d : Nat} {cause : Nat} {s : State} (hM : Sub 0x280bff787 M) (hs : Same M s0 s) :
    Same M s0 (fenceDie d cause s) := by
  unfold fenceDie
  try dsimp only
  repeat' first
    | intro _
    | with_reducible first
      | assumption | exact hM.of (by decide)
    | with_reducible first
      | apply recordCause_same | apply fenceTakes_same | apply parentDie_same

theorem fencePkg_same {M : Nat} {s0 : State} {cause : Nat} {s : State} (hM : Sub 0x280bff787 M) (hs : Same M s0 s) :
    Same M s0 (fencePkg cause s) := by
  unfold fencePkg
  try dsimp only
  repeat' first
    | intro _
    | with_reducible first
      | assumption | exact hM.of (by decide)
    | with_reducible first
      | apply recordCause_same | apply recordParent_same | apply fenceTakes_same | apply parentDie_same
      | apply same_foldl

theorem haltAll_same {M : Nat} {s0 : State} {s : State} (hM : Sub 0x803ef683 M) (hs : Same M s0 s) :
    Same M s0 (haltAll s) := by
  unfold haltAll
  try dsimp only
  repeat' first
    | intro _
    | with_reducible first
      | assumption | exact hM.of (by decide)
    | with_reducible first
      | apply linkHalt_same | apply same_ite | apply same_foldl

theorem trainAll_same {M : Nat} {s0 : State} {s : State} (hM : Sub 0x82bff687 M) (hs : Same M s0 s) :
    Same M s0 (trainAll s) := by
  unfold trainAll
  try dsimp only
  repeat' first
    | intro _
    | with_reducible first
      | assumption | exact hM.of (by decide)
    | with_reducible first
      | apply linkTrain_same | apply same_foldl

theorem loopsUsed_same {M : Nat} {s0 : State} {s : State} (hM : Sub 0x10001 M) (hs : Same M s0 s) :
    Same M s0 (loopsUsed s) := by
  unfold loopsUsed
  try dsimp only
  repeat' first
    | intro _
    | with_reducible first
      | assumption | exact hM.of (by decide)
    | with_reducible first
      | apply loopStop_same | apply same_ite | apply same_foldl

theorem ungate_same {M : Nat} {s0 : State} {p : Nat} {s : State} (hM : Sub 0x101 M) (hs : Same M s0 s) :
    Same M s0 (ungate p s) := by
  unfold ungate
  try dsimp only
  repeat' first
    | intro _
    | with_reducible first
      | assumption | exact hM.of (by decide)
    | with_reducible first
      | apply wr_same | apply relevel_same | apply suspectSlices_same | apply same_ite | apply same_foldl

theorem ungateUsed_same {M : Nat} {s0 : State} {s : State} (hM : Sub 0x101 M) (hs : Same M s0 s) :
    Same M s0 (ungateUsed s) := by
  unfold ungateUsed
  try dsimp only
  repeat' first
    | intro _
    | with_reducible first
      | assumption | exact hM.of (by decide)
    | with_reducible first
      | apply ungate_same | apply same_ite | apply same_foldl

end Sys2Proof.Machine
end

