-- ==== Sys2Proof/Laws/SameDeviceClocks.lean ====
section
/-! SUPPORT. What the operations of Machine/DeviceClocks.lean leave as it is (`Same`). -/

namespace Sys2Proof.Machine

theorem setPllRef_same {M : Nat} {s0 : State} {s : State} {u : Nat} {v : Nat} (hM : Sub 0x8000001 M) (hs : Same M s0 s) :
    Same M s0 (State.setPllRef s u v) := by
  unfold State.setPllRef
  try dsimp only
  repeat' first
    | intro _
    | with_reducible first
      | assumption | exact hM.of (by decide) | apply sameMk | exact Or.inl (hM.bit (by decide)) | exact Or.inr rfl
    | simp only [same_mk_iff]
    | with_reducible first
      | apply wr_same | apply same_ite

theorem seamUp_same {M : Nat} {s0 : State} {b : Bool} {s : State} (hM : Sub 0x1 M) (hs : Same M s0 s) :
    Same M s0 (seamUp b s) := by
  unfold seamUp
  try dsimp only
  repeat' first
    | intro _
    | with_reducible first
      | assumption | exact hM.of (by decide)
    | with_reducible first
      | apply wrB_same | apply same_ite

theorem pllLock_same {M : Nat} {s0 : State} {u : Nat} {ref : Nat} {s : State} (hM : Sub 0x8000001 M) (hs : Same M s0 s) :
    Same M s0 (pllLock u ref s) := by
  unfold pllLock
  try dsimp only
  repeat' first
    | intro _
    | with_reducible first
      | assumption | exact hM.of (by decide)
    | with_reducible first
      | apply wr_same | apply setPllRef_same | apply seamUp_same | apply same_ite

theorem pllsWith_same {M : Nat} {s0 : State} {refs : List Nat} {f : Nat → State → State} {s : State} (hM : Sub 0x0 M) (hf : ∀ y0 y1, Same M s0 y1 → Same M s0 (f y0 y1)) (hs : Same M s0 s) :
    Same M s0 (pllsWith refs f s) := by
  unfold pllsWith
  try dsimp only
  repeat' first
    | intro _
    | with_reducible first
      | assumption | exact hM.of (by decide)
    | with_reducible first
      | apply hf | apply same_ite | apply same_foldl

theorem pllsStart_same {M : Nat} {s0 : State} {ref : Nat} {s : State} (hM : Sub 0x8000001 M) (hs : Same M s0 s) :
    Same M s0 (pllsStart ref s) := by
  unfold pllsStart
  try dsimp only
  repeat' first
    | intro _
    | with_reducible first
      | assumption | exact hM.of (by decide)
    | with_reducible first
      | apply pllLock_same | apply same_ite | apply same_foldl

theorem pllReturn_same {M : Nat} {s0 : State} {u : Nat} {s : State} (hM : Sub 0x8000001 M) (hs : Same M s0 s) :
    Same M s0 (pllReturn u s) := by
  unfold pllReturn
  try dsimp only
  repeat' first
    | intro _
    | with_reducible first
      | assumption | exact hM.of (by decide)
    | with_reducible first
      | apply bump_same | apply setPllRef_same

theorem judgeStart_same {M : Nat} {s0 : State} {s : State} (hM : Sub 0x8000000 M) (hs : Same M s0 s) :
    Same M s0 (judgeStart s) := by
  unfold judgeStart
  try dsimp only
  repeat' first
    | intro _
    | with_reducible first
      | assumption | exact hM.of (by decide) | apply sameMk | exact Or.inl (hM.bit (by decide)) | exact Or.inr rfl
    | simp only [same_mk_iff]

theorem armMonitor_same {M : Nat} {s0 : State} {s : State} (hM : Sub 0x1 M) (hs : Same M s0 s) :
    Same M s0 (armMonitor s) := by
  unfold armMonitor
  try dsimp only
  repeat' first
    | intro _
    | with_reducible first
      | assumption | exact hM.of (by decide)
    | with_reducible first
      | apply wr_same | apply same_ite

theorem refclkGood_same {M : Nat} {s0 : State} {method : Nat} {s : State} (hM : Sub 0x8abff783 M) (hs : Same M s0 s) :
    Same M s0 (refclkGood method s) := by
  unfold refclkGood
  try dsimp only
  repeat' first
    | intro _
    | with_reducible first
      | assumption | exact hM.of (by decide) | apply sameMk | exact Or.inl (hM.bit (by decide)) | exact Or.inr rfl
    | simp only [same_mk_iff]
    | with_reducible first
      | apply wr_same | apply suspectSlices_same | apply refclkBack_same | apply detectAll_same
      | apply pllsWith_same | apply pllsStart_same | apply pllReturn_same | apply armMonitor_same | apply same_ite

theorem refclkBad_same {M : Nat} {s0 : State} {s : State} (hM : Sub 0x208b30787 M) (hs : Same M s0 s) :
    Same M s0 (refclkBad s) := by
  unfold refclkBad
  try dsimp only
  repeat' first
    | intro _
    | with_reducible first
      | assumption | exact hM.of (by decide) | apply sameMk | exact Or.inl (hM.bit (by decide)) | exact Or.inr rfl
    | simp only [same_mk_iff]
    | with_reducible first
      | apply wr_same | apply refclkLost_same | apply limitFails_same | apply judgeStart_same
      | apply armMonitor_same

theorem tripReport_same {M : Nat} {s0 : State} {s : State} (hM : Sub 0x8000001 M) (hs : Same M s0 s) :
    Same M s0 (tripReport s) := by
  unfold tripReport
  try dsimp only
  repeat' first
    | intro _
    | with_reducible first
      | assumption | exact hM.of (by decide) | apply sameMk | exact Or.inl (hM.bit (by decide)) | exact Or.inr rfl
    | simp only [same_mk_iff]
    | with_reducible first
      | apply bump_same | apply raise_same

theorem refclkTrip_same {M : Nat} {s0 : State} {s : State} (hM : Sub 0x208b30787 M) (hs : Same M s0 s) :
    Same M s0 (refclkTrip s) := by
  unfold refclkTrip
  try dsimp only
  repeat' first
    | intro _
    | with_reducible first
      | assumption | exact hM.of (by decide) | apply sameMk | exact Or.inl (hM.bit (by decide)) | exact Or.inr rfl
    | simp only [same_mk_iff]
    | with_reducible first
      | apply refclkBad_same | apply tripReport_same | apply same_ite

theorem execNativeJudgePass_same {M : Nat} {s0 : State} {s : State} (hM : Sub 0x8abff783 M) (hs : Same M s0 s) :
    SameO M s0 (execNativeJudgePass s) := by
  unfold execNativeJudgePass
  try dsimp only
  repeat' first
    | intro _
    | with_reducible first
      | assumption | exact hM.of (by decide) | apply sameMk | exact Or.inl (hM.bit (by decide)) | exact Or.inr rfl
    | simp only [same_mk_iff]
    | with_reducible first
      | apply refclkGood_same | apply sameO_next | apply sameO_ite | exact sameO_fault | apply same_ite

theorem execCompatJudgeEnd_same {M : Nat} {s0 : State} {cycles : Nat} {missed : Bool} {s : State} (hM : Sub 0x8abff783 M) (hs : Same M s0 s) :
    SameO M s0 (execCompatJudgeEnd cycles missed s) := by
  unfold execCompatJudgeEnd
  try dsimp only
  repeat' first
    | intro _
    | with_reducible first
      | assumption | exact hM.of (by decide)
    | with_reducible first
      | apply bump_same | apply judgeStart_same | apply refclkGood_same | apply sameO_next | apply sameO_ite
      | exact sameO_fault | apply same_ite

theorem ifoReady_same {M : Nat} {s0 : State} {s : State} (hM : Sub 0x8000001 M) (hs : Same M s0 s) :
    Same M s0 (ifoReady s) := by
  unfold ifoReady
  try dsimp only
  repeat' first
    | intro _
    | with_reducible first
      | assumption | exact hM.of (by decide) | apply sameMk | exact Or.inl (hM.bit (by decide)) | exact Or.inr rfl
    | simp only [same_mk_iff]
    | with_reducible first
      | apply wr_same | apply pllsStart_same | apply armMonitor_same | apply same_ite

theorem execIfoReady_same {M : Nat} {s0 : State} {s : State} (hM : Sub 0x8000001 M) (hs : Same M s0 s) :
    SameO M s0 (execIfoReady s) := by
  unfold execIfoReady
  try dsimp only
  repeat' first
    | intro _
    | with_reducible first
      | assumption | exact hM.of (by decide)
    | with_reducible first
      | apply ifoReady_same | apply sameO_next | apply sameO_ite | exact sameO_fault | apply same_ite

theorem startFails_same {M : Nat} {s0 : State} {cause : Nat} {s : State} (hM : Sub 0x1 M) (hs : Same M s0 s) :
    Same M s0 (startFails cause s) := by
  unfold startFails
  try dsimp only
  repeat' first
    | intro _
    | with_reducible first
      | assumption | exact hM.of (by decide)
    | with_reducible first
      | apply wr_same | apply same_ite

theorem execIfoReadyTimeout_same {M : Nat} {s0 : State} {s : State} (hM : Sub 0x1 M) (hs : Same M s0 s) :
    SameO M s0 (execIfoReadyTimeout s) := by
  unfold execIfoReadyTimeout
  try dsimp only
  repeat' first
    | intro _
    | with_reducible first
      | assumption | exact hM.of (by decide)
    | with_reducible first
      | apply startFails_same | apply sameO_next | apply sameO_ite | exact sameO_fault | apply same_ite

theorem execIfoMeasureEnd_same {M : Nat} {s0 : State} {ppm : Int} {s : State} (hM : Sub 0x1 M) (hs : Same M s0 s) :
    SameO M s0 (execIfoMeasureEnd ppm s) := by
  unfold execIfoMeasureEnd
  try dsimp only
  repeat' first
    | intro _
    | with_reducible first
      | assumption | exact hM.of (by decide)
    | with_reducible first
      | apply wr_same | apply sameO_next | apply sameO_ite | exact sameO_fault | apply same_ite

theorem execMonitorWindowEnd_same {M : Nat} {s0 : State} {count : Nat} {s : State} (hM : Sub 0x208b30787 M) (hs : Same M s0 s) :
    SameO M s0 (execMonitorWindowEnd count s) := by
  unfold execMonitorWindowEnd
  try dsimp only
  repeat' first
    | intro _
    | with_reducible first
      | assumption | exact hM.of (by decide)
    | with_reducible first
      | apply wr_same | apply count_same | apply setPllRef_same | apply pllsWith_same | apply refclkTrip_same
      | apply sameO_next | apply sameO_ite | exact sameO_fault | apply same_ite

theorem execPllHoldover_same {M : Nat} {s0 : State} {unit : Nat} {s : State} (hM : Sub 0x8000001 M) (hs : Same M s0 s) :
    SameO M s0 (execPllHoldover unit s) := by
  unfold execPllHoldover
  try dsimp only
  repeat' first
    | intro _
    | with_reducible first
      | assumption | exact hM.of (by decide)
    | with_reducible first
      | apply onUnit_same | apply setPllRef_same | apply sameO_next | apply sameO_ite | exact sameO_fault
      | apply same_ite

theorem execRefclkReturn_same {M : Nat} {s0 : State} {unit : Nat} {s : State} (hM : Sub 0x8000001 M) (hs : Same M s0 s) :
    SameO M s0 (execRefclkReturn unit s) := by
  unfold execRefclkReturn
  try dsimp only
  repeat' first
    | intro _
    | with_reducible first
      | assumption | exact hM.of (by decide)
    | with_reducible first
      | apply onUnit_same | apply setPllRef_same | apply sameO_next | apply sameO_ite | exact sameO_fault
      | apply same_ite

theorem execPllIfoLock_same {M : Nat} {s0 : State} {unit : Nat} {s : State} (hM : Sub 0x208b30787 M) (hs : Same M s0 s) :
    SameO M s0 (execPllIfoLock unit s) := by
  unfold execPllIfoLock
  try dsimp only
  repeat' first
    | intro _
    | with_reducible first
      | assumption | exact hM.of (by decide)
    | with_reducible first
      | apply onUnit_same | apply setPllRef_same | apply tripReport_same | apply refclkTrip_same
      | apply sameO_next | apply sameO_ite | exact sameO_fault | apply same_ite

theorem returnToRefclk_same {M : Nat} {s0 : State} {s : State} (hM : Sub 0x8000001 M) (hs : Same M s0 s) :
    Same M s0 (returnToRefclk s) := by
  unfold returnToRefclk
  try dsimp only
  repeat' first
    | intro _
    | with_reducible first
      | assumption | exact hM.of (by decide)
    | with_reducible first
      | apply pllsWith_same | apply pllReturn_same

theorem execReturnHoldExpiry_same {M : Nat} {s0 : State} {s : State} (hM : Sub 0x8000001 M) (hs : Same M s0 s) :
    SameO M s0 (execReturnHoldExpiry s) := by
  unfold execReturnHoldExpiry
  try dsimp only
  repeat' first
    | intro _
    | with_reducible first
      | assumption | exact hM.of (by decide) | apply sameMk | exact Or.inl (hM.bit (by decide)) | exact Or.inr rfl
    | simp only [same_mk_iff]
    | with_reducible first
      | apply returnToRefclk_same | apply sameO_next | apply sameO_ite | exact sameO_fault | apply same_ite

theorem writeClkCfg_same {M : Nat} {s0 : State} {v : Nat} {s : State} (hM : Sub 0x8000001 M) (hs : Same M s0 s) :
    Same M s0 (writeClkCfg v s) := by
  unfold writeClkCfg
  try dsimp only
  repeat' first
    | intro _
    | with_reducible first
      | assumption | exact hM.of (by decide)
    | with_reducible first
      | apply wr_same | apply returnToRefclk_same | apply same_ite

theorem execClkCfgWrite_same {M : Nat} {s0 : State} {v : Nat} {s : State} (hM : Sub 0x8000001 M) (hs : Same M s0 s) :
    SameO M s0 (execClkCfgWrite v s) := by
  unfold execClkCfgWrite
  try dsimp only
  repeat' first
    | intro _
    | with_reducible first
      | assumption | exact hM.of (by decide)
    | with_reducible first
      | apply ifOpen_same | apply writeClkCfg_same | apply sameO_next | apply sameO_ite | exact sameO_fault

theorem execIfoLoss_same {M : Nat} {s0 : State} {s : State} (hM : Sub 0x8000001 M) (hs : Same M s0 s) :
    SameO M s0 (execIfoLoss s) := by
  unfold execIfoLoss
  try dsimp only
  repeat' first
    | intro _
    | with_reducible first
      | assumption | exact hM.of (by decide) | apply sameMk | exact Or.inl (hM.bit (by decide)) | exact Or.inr rfl
    | simp only [same_mk_iff]
    | with_reducible first
      | apply wr_same | apply bump_same | apply raise_same | apply setPllRef_same | apply pllsWith_same
      | apply pllReturn_same | apply judgeStart_same | apply armMonitor_same | apply sameO_next | apply sameO_ite
      | exact sameO_fault | apply same_ite

theorem execClockUnusableFence_same {M : Nat} {s0 : State} {s : State} (hM : Sub 0x280bff787 M) (hs : Same M s0 s) :
    SameO M s0 (execClockUnusableFence s) := by
  unfold execClockUnusableFence
  try dsimp only
  repeat' first
    | intro _
    | with_reducible first
      | assumption | exact hM.of (by decide)
    | with_reducible first
      | apply fencePkg_same | apply sameO_next | apply sameO_ite | exact sameO_fault | apply same_ite

theorem putPl_same {M : Nat} {s0 : State} {s : State} {d : Nat} {v : PlSt} (hM : Sub 0x4000000 M) (hs : Same M s0 s) :
    Same M s0 (State.putPl s d v) := by
  unfold State.putPl
  try dsimp only
  repeat' first
    | intro _
    | with_reducible first
      | assumption | exact hM.of (by decide) | apply sameMk | exact Or.inl (hM.bit (by decide)) | exact Or.inr rfl
    | simp only [same_mk_iff]

theorem plAbort_same {M : Nat} {s0 : State} {d : Nat} {s : State} (hM : Sub 0x1 M) (hs : Same M s0 s) :
    Same M s0 (plAbort d s) := by
  unfold plAbort
  try dsimp only
  repeat' first
    | intro _
    | with_reducible first
      | assumption | exact hM.of (by decide)
    | with_reducible first
      | apply wr_same | apply same_ite

theorem execCorePllUnlock_same {M : Nat} {s0 : State} {die : Nat} {s : State} (hM : Sub 0x280bff787 M) (hs : Same M s0 s) :
    SameO M s0 (execCorePllUnlock die s) := by
  unfold execCorePllUnlock
  try dsimp only
  repeat' first
    | intro _
    | with_reducible first
      | assumption | exact hM.of (by decide)
    | with_reducible first
      | apply onUnit_same | apply wr_same | apply bump_same | apply raise_same | apply fenceDie_same
      | apply plAbort_same | apply sameO_next | apply sameO_ite | exact sameO_fault | apply same_ite

theorem execCorePllRelock_same {M : Nat} {s0 : State} {die : Nat} {s : State} (hM : Sub 0x1 M) (hs : Same M s0 s) :
    SameO M s0 (execCorePllRelock die s) := by
  unfold execCorePllRelock
  try dsimp only
  repeat' first
    | intro _
    | with_reducible first
      | assumption | exact hM.of (by decide)
    | with_reducible first
      | apply onUnit_same | apply wr_same | apply sameO_next | apply sameO_ite | exact sameO_fault
      | apply same_ite

theorem plRequest_same {M : Nat} {s0 : State} {die : Nat} {level : Nat} {s : State} (hM : Sub 0x4000001 M) (hs : Same M s0 s) :
    Same M s0 (plRequest die level s) := by
  unfold plRequest
  try dsimp only
  repeat' first
    | intro _
    | with_reducible first
      | assumption | exact hM.of (by decide)
    | with_reducible first
      | apply wr_same | apply bump_same | apply raise_same | apply putPl_same | apply same_ite

theorem execPlRequest_same {M : Nat} {s0 : State} {die : Nat} {level : Nat} {s : State} (hM : Sub 0x4000001 M) (hs : Same M s0 s) :
    SameO M s0 (execPlRequest die level s) := by
  unfold execPlRequest
  try dsimp only
  repeat' first
    | intro _
    | with_reducible first
      | assumption | exact hM.of (by decide)
    | with_reducible first
      | apply wr_same | apply ifOpen_same | apply plRequest_same | apply sameO_next | apply sameO_ite
      | exact sameO_fault

theorem plDone_same {M : Nat} {s0 : State} {d : Nat} {s : State} (hM : Sub 0x1 M) (hs : Same M s0 s) :
    Same M s0 (plDone d s) := by
  unfold plDone
  try dsimp only
  repeat' first
    | intro _
    | with_reducible first
      | assumption | exact hM.of (by decide)
    | with_reducible first
      | apply wr_same | apply bump_same | apply raise_same

theorem execPlVoltageSettled_same {M : Nat} {s0 : State} {die : Nat} {vout : Nat} {s : State} (hM : Sub 0x1 M) (hs : Same M s0 s) :
    SameO M s0 (execPlVoltageSettled die vout s) := by
  unfold execPlVoltageSettled
  try dsimp only
  repeat' first
    | intro _
    | with_reducible first
      | assumption | exact hM.of (by decide)
    | with_reducible first
      | apply onUnit_same | apply wr_same | apply plDone_same | apply sameO_next | apply sameO_ite
      | exact sameO_fault | apply same_ite

theorem execPlDividerSwitched_same {M : Nat} {s0 : State} {die : Nat} {s : State} (hM : Sub 0x201810105 M) (hs : Same M s0 s) :
    SameO M s0 (execPlDividerSwitched die s) := by
  unfold execPlDividerSwitched
  try dsimp only
  repeat' first
    | intro _
    | with_reducible first
      | assumption | exact hM.of (by decide)
    | with_reducible first
      | apply onUnit_same | apply wr_same | apply suspectSlice_same | apply prkNotice_same | apply slicesEnd_same
      | apply plDone_same | apply sameO_next | apply sameO_ite | exact sameO_fault | apply same_ite

theorem execMgmtPllUnlock_same {M : Nat} {s0 : State} {s : State} (hM : Sub 0x1 M) (hs : Same M s0 s) :
    SameO M s0 (execMgmtPllUnlock s) := by
  unfold execMgmtPllUnlock
  try dsimp only
  repeat' first
    | intro _
    | with_reducible first
      | assumption | exact hM.of (by decide)
    | with_reducible first
      | apply wr_same | apply sameO_next | apply sameO_ite | exact sameO_fault

theorem execMgmtPllRelock_same {M : Nat} {s0 : State} {s : State} (hM : Sub 0x1 M) (hs : Same M s0 s) :
    SameO M s0 (execMgmtPllRelock s) := by
  unfold execMgmtPllRelock
  try dsimp only
  repeat' first
    | intro _
    | with_reducible first
      | assumption | exact hM.of (by decide)
    | with_reducible first
      | apply wr_same | apply sameO_next | apply sameO_ite | exact sameO_fault | apply same_ite

theorem execSeamPllUnlock_same {M : Nat} {s0 : State} {s : State} (hM : Sub 0x1 M) (hs : Same M s0 s) :
    SameO M s0 (execSeamPllUnlock s) := by
  unfold execSeamPllUnlock
  try dsimp only
  repeat' first
    | intro _
    | with_reducible first
      | assumption | exact hM.of (by decide)
    | with_reducible first
      | apply onUnit_same | apply wr_same | apply raise_same | apply seamUp_same | apply sameO_next
      | apply sameO_ite | exact sameO_fault | apply same_ite

theorem execSeamPllRelock_same {M : Nat} {s0 : State} {s : State} (hM : Sub 0x1 M) (hs : Same M s0 s) :
    SameO M s0 (execSeamPllRelock s) := by
  unfold execSeamPllRelock
  try dsimp only
  repeat' first
    | intro _
    | with_reducible first
      | assumption | exact hM.of (by decide)
    | with_reducible first
      | apply onUnit_same | apply wr_same | apply seamUp_same | apply sameO_next | apply sameO_ite
      | exact sameO_fault | apply same_ite

theorem fmAbort_same {M : Nat} {s0 : State} {s : State} (hM : Sub 0x1 M) (hs : Same M s0 s) :
    Same M s0 (fmAbort s) := by
  unfold fmAbort
  try dsimp only
  repeat' first
    | intro _
    | with_reducible first
      | assumption | exact hM.of (by decide)
    | with_reducible first
      | apply wr_same | apply same_ite

theorem bistHold_same {M : Nat} {s0 : State} {s : State} (hM : Sub 0x200000000 M) (hs : Same M s0 s) :
    Same M s0 (bistHold s) := by
  unfold bistHold
  try dsimp only
  repeat' first
    | intro _
    | with_reducible first
      | assumption | exact hM.of (by decide) | apply sameMk | exact Or.inl (hM.bit (by decide)) | exact Or.inr rfl
    | simp only [same_mk_iff]
    | split
    | with_reducible first
      | (apply same_pair; assumption) | (apply same_opt; assumption) | (apply same_triple; assumption)

theorem bistResume_same {M : Nat} {s0 : State} {s : State} (hM : Sub 0x200000000 M) (hs : Same M s0 s) :
    Same M s0 (bistResume s) := by
  unfold bistResume
  try dsimp only
  repeat' first
    | intro _
    | with_reducible first
      | assumption | exact hM.of (by decide) | apply sameMk | exact Or.inl (hM.bit (by decide)) | exact Or.inr rfl
    | simp only [same_mk_iff]
    | with_reducible first
      | apply same_ite | exact sameOpt_none | apply sameOpt_ite
    | split
    | with_reducible first
      | (apply same_pair; assumption) | (apply same_opt; assumption) | (apply same_triple; assumption)

theorem setGate_same {M : Nat} {s0 : State} {p : Nat} {en : Bool} {s : State} (hM : Sub 0x200000101 M) (hs : Same M s0 s) :
    Same M s0 (setGate p en s) := by
  unfold setGate
  try dsimp only
  repeat' first
    | intro _
    | with_reducible first
      | assumption | exact hM.of (by decide) | apply sameMk | exact Or.inl (hM.bit (by decide)) | exact Or.inr rfl
    | simp only [same_mk_iff]
    | with_reducible first
      | apply wr_same | apply ungate_same | apply fmAbort_same | apply bistHold_same | apply bistResume_same
      | apply same_ite | apply same_foldl
    | split
    | with_reducible first
      | (apply same_pair; assumption) | (apply same_opt; assumption) | (apply same_triple; assumption)

theorem writeClkEn_same {M : Nat} {s0 : State} {p : Nat} {v : Nat} {s : State} (hM : Sub 0x200000101 M) (hs : Same M s0 s) :
    Same M s0 (writeClkEn p v s) := by
  unfold writeClkEn
  try dsimp only
  repeat' first
    | intro _
    | with_reducible first
      | assumption | exact hM.of (by decide)
    | with_reducible first
      | apply wr_same | apply setGate_same | apply same_ite | apply same_foldl

theorem execClkEnWrite_same {M : Nat} {s0 : State} {page : Nat} {v : Nat} {s : State} (hM : Sub 0x200000101 M) (hs : Same M s0 s) :
    SameO M s0 (execClkEnWrite page v s) := by
  unfold execClkEnWrite
  try dsimp only
  repeat' first
    | intro _
    | with_reducible first
      | assumption | exact hM.of (by decide)
    | with_reducible first
      | apply writeClkEn_same | apply sameO_next | apply sameO_ite | exact sameO_fault | apply same_ite

theorem fmStart_same {M : Nat} {s0 : State} {s : State} (hM : Sub 0x1 M) (hs : Same M s0 s) :
    Same M s0 (fmStart s) := by
  unfold fmStart
  try dsimp only
  repeat' first
    | intro _
    | with_reducible first
      | assumption | exact hM.of (by decide)
    | with_reducible first
      | apply wr_same | apply same_ite

theorem execFmStart_same {M : Nat} {s0 : State} {s : State} (hM : Sub 0x1 M) (hs : Same M s0 s) :
    SameO M s0 (execFmStart s) := by
  unfold execFmStart
  try dsimp only
  repeat' first
    | intro _
    | with_reducible first
      | assumption | exact hM.of (by decide)
    | with_reducible first
      | apply ifOpen_same | apply fmStart_same | apply sameO_next | apply sameO_ite | exact sameO_fault

theorem execFmRunEnd_same {M : Nat} {s0 : State} {how : Nat} {count : Nat} {s : State} (hM : Sub 0x1 M) (hs : Same M s0 s) :
    SameO M s0 (execFmRunEnd how count s) := by
  unfold execFmRunEnd
  try dsimp only
  repeat' first
    | intro _
    | with_reducible first
      | assumption | exact hM.of (by decide)
    | with_reducible first
      | apply wr_same | apply count_same | apply sameO_next | apply sameO_ite | exact sameO_fault | apply same_ite

end Sys2Proof.Machine
end

