-- ==== Sys2Proof/Laws/SameCalibration.lean ====
section
/-! SUPPORT. What the operations of Machine/Calibration.lean leave as it is (`Same`). -/

namespace Sys2Proof.Machine

theorem tempOne_same {M : Nat} {s0 : State} {c : Nat} {t : Int} {s : State} (hM : Sub 0x200001 M) (hs : Same M s0 s) :
    Same M s0 (tempOne c t s) := by
  unfold tempOne
  try dsimp only
  repeat' first
    | intro _
    | with_reducible first
      | assumption | exact hM.of (by decide)
    | with_reducible first
      | apply wr_same | apply raise_same | apply calDue_same | apply same_ite | apply same_foldl

theorem tempStatus_same {M : Nat} {s0 : State} {s : State} (hM : Sub 0x800000001 M) (hs : Same M s0 s) :
    Same M s0 (tempStatus s) := by
  unfold tempStatus
  try dsimp only
  repeat' first
    | intro _
    | with_reducible first
      | assumption | exact hM.of (by decide) | apply sameMk | exact Or.inl (hM.bit (by decide)) | exact Or.inr rfl
    | simp only [same_mk_iff]
    | with_reducible first
      | apply wr_same | apply wrB_same | apply setInput_same | apply same_ite

theorem tempFence_same {M : Nat} {s0 : State} {s : State} (hM : Sub 0xa80bff787 M) (hs : Same M s0 s) :
    Same M s0 (tempFence s) := by
  unfold tempFence
  try dsimp only
  repeat' first
    | intro _
    | with_reducible first
      | assumption | exact hM.of (by decide) | apply sameMk | exact Or.inl (hM.bit (by decide)) | exact Or.inr rfl
    | simp only [same_mk_iff]
    | with_reducible first
      | apply wr_same | apply fencePkg_same | apply same_ite

theorem execTempSample_same {M : Nat} {s0 : State} {temps : List Int} {s : State} (hM : Sub 0xa80bff787 M) (hs : Same M s0 s) :
    SameO M s0 (execTempSample temps s) := by
  unfold execTempSample
  try dsimp only
  repeat' first
    | intro _
    | with_reducible first
      | assumption | exact hM.of (by decide)
    | with_reducible first
      | apply tempOne_same | apply tempStatus_same | apply tempFence_same | apply sameO_next | apply sameO_ite
      | exact sameO_fault | apply same_ite | apply same_foldl

theorem execCalRunStart_same {M : Nat} {s0 : State} {c : Nat} {s : State} (hM : Sub 0x200001 M) (hs : Same M s0 s) :
    SameO M s0 (execCalRunStart c s) := by
  unfold execCalRunStart
  try dsimp only
  repeat' first
    | intro _
    | with_reducible first
      | assumption | exact hM.of (by decide)
    | with_reducible first
      | apply onUnit_same | apply calRunStart_same | apply sameO_next | apply sameO_ite | exact sameO_fault
      | apply same_ite

theorem calJudge_same {M : Nat} {s0 : State} {c : Nat} {e : Nat} {done : Bool} {s : State} (hM : Sub 0x200001 M) (hs : Same M s0 s) :
    Same M s0 (calJudge c e done s) := by
  unfold calJudge
  try dsimp only
  repeat' first
    | intro _
    | with_reducible first
      | assumption | exact hM.of (by decide) | apply sameMk | exact Or.inl (hM.bit (by decide)) | exact Or.inr rfl
    | simp only [same_mk_iff]
    | with_reducible first
      | apply wr_same | apply bump_same | apply raise_same | apply putCal_same | apply same_ite

theorem calCodeStep_same {M : Nat} {s0 : State} {c : Nat} {e : Nat} {s : State} (hM : Sub 0x200001 M) (hs : Same M s0 s) :
    Same M s0 (calCodeStep c e s) := by
  unfold calCodeStep
  try dsimp only
  repeat' first
    | intro _
    | with_reducible first
      | assumption | exact hM.of (by decide) | apply sameMk | exact Or.inl (hM.bit (by decide)) | exact Or.inr rfl
    | simp only [same_mk_iff]
    | with_reducible first
      | apply putCal_same | apply calApply_same | apply same_ite

theorem calRunEnd_same {M : Nat} {s0 : State} {c : Nat} {meas : CalMeasure} {s : State} (hM : Sub 0x200001 M) (hs : Same M s0 s) :
    Same M s0 (calRunEnd c meas s) := by
  unfold calRunEnd
  try dsimp only
  repeat' first
    | intro _
    | with_reducible first
      | assumption | exact hM.of (by decide) | apply sameMk | exact Or.inl (hM.bit (by decide)) | exact Or.inr rfl
    | simp only [same_mk_iff]
    | with_reducible first
      | apply putCal_same | apply calApply_same | apply calRecord_same | apply calStop_same | apply calJudge_same
      | apply calCodeStep_same | apply same_ite | exact sameOpt_none | apply sameOpt_ite
    | split
    | with_reducible first
      | (apply same_pair; assumption) | (apply same_opt; assumption) | (apply same_triple; assumption)

theorem execCalRunEnd_same {M : Nat} {s0 : State} {c : Nat} {meas : CalMeasure} {s : State} (hM : Sub 0x300001 M) (hs : Same M s0 s) :
    SameO M s0 (execCalRunEnd c meas s) := by
  unfold execCalRunEnd
  try dsimp only
  repeat' first
    | intro _
    | with_reducible first
      | assumption | exact hM.of (by decide)
    | with_reducible first
      | apply onUnit_same | apply engineNext_same | apply calRunEnd_same | apply sameO_next | apply sameO_ite
      | exact sameO_fault

theorem execCalStepApply_same {M : Nat} {s0 : State} {c : Nat} {s : State} (hM : Sub 0x200001 M) (hs : Same M s0 s) :
    SameO M s0 (execCalStepApply c s) := by
  unfold execCalStepApply
  try dsimp only
  repeat' first
    | intro _
    | with_reducible first
      | assumption | exact hM.of (by decide) | apply sameMk | exact Or.inl (hM.bit (by decide)) | exact Or.inr rfl
    | simp only [same_mk_iff]
    | with_reducible first
      | apply onUnit_same | apply calApply_same | apply sameO_next | apply sameO_ite | exact sameO_fault
      | apply same_ite | exact sameOpt_none | apply sameOpt_ite
    | split
    | with_reducible first
      | (apply same_pair; assumption) | (apply same_opt; assumption) | (apply same_triple; assumption)

theorem execCalCodeStep_same {M : Nat} {s0 : State} {c : Nat} {s : State} (hM : Sub 0x200001 M) (hs : Same M s0 s) :
    SameO M s0 (execCalCodeStep c s) := by
  unfold execCalCodeStep
  try dsimp only
  repeat' first
    | intro _
    | with_reducible first
      | assumption | exact hM.of (by decide) | apply sameMk | exact Or.inl (hM.bit (by decide)) | exact Or.inr rfl
    | simp only [same_mk_iff]
    | with_reducible first
      | apply onUnit_same | apply calCodeStep_same | apply sameO_next | apply sameO_ite | exact sameO_fault
      | apply same_ite | exact sameOpt_none | apply sameOpt_ite
    | split
    | with_reducible first
      | (apply same_pair; assumption) | (apply same_opt; assumption) | (apply same_triple; assumption)

theorem execRextFault_same {M : Nat} {s0 : State} {s : State} (hM : Sub 0x300001 M) (hs : Same M s0 s) :
    SameO M s0 (execRextFault s) := by
  unfold execRextFault
  try dsimp only
  repeat' first
    | intro _
    | with_reducible first
      | assumption | exact hM.of (by decide)
    | with_reducible first
      | apply wr_same | apply raise_same | apply calStop_same | apply engineNext_same | apply startFails_same
      | apply sameO_next | apply sameO_ite | exact sameO_fault | apply same_ite | apply same_foldl

theorem execRextFaultClear_same {M : Nat} {s0 : State} {s : State} (hM : Sub 0x1 M) (hs : Same M s0 s) :
    SameO M s0 (execRextFaultClear s) := by
  unfold execRextFaultClear
  try dsimp only
  repeat' first
    | intro _
    | with_reducible first
      | assumption | exact hM.of (by decide)
    | with_reducible first
      | apply wr_same | apply sameO_next | apply sameO_ite | exact sameO_fault | apply same_foldl

theorem calCmd_same {M : Nat} {s0 : State} {c : Nat} {op : Nat} {e : Nat} {s : State} (hM : Sub 0x200001 M) (hs : Same M s0 s) :
    Same M s0 (calCmd c op e s) := by
  unfold calCmd
  try dsimp only
  repeat' first
    | intro _
    | with_reducible first
      | assumption | exact hM.of (by decide) | apply sameMk | exact Or.inl (hM.bit (by decide)) | exact Or.inr rfl
    | simp only [same_mk_iff]
    | with_reducible first
      | apply wr_same | apply putCal_same | apply calDue_same | apply same_ite | apply same_foldl

theorem calCmdStore_same {M : Nat} {s0 : State} {c : Nat} {op : Nat} {e : Nat} {s : State} (hM : Sub 0x1 M) (hs : Same M s0 s) :
    Same M s0 (calCmdStore c op e s) := by
  unfold calCmdStore
  try dsimp only
  repeat' first
    | intro _
    | with_reducible first
      | assumption | exact hM.of (by decide)
    | with_reducible first
      | apply wr_same

theorem execCalEnd_same {M : Nat} {s0 : State} {c : Nat} {e : Nat} {s : State} (hM : Sub 0x200001 M) (hs : Same M s0 s) :
    SameO M s0 (execCalEnd c e s) := by
  unfold execCalEnd
  try dsimp only
  repeat' first
    | intro _
    | with_reducible first
      | assumption | exact hM.of (by decide)
    | with_reducible first
      | apply ifHas_same | apply calCmd_same | apply calCmdStore_same | apply sameO_next | apply sameO_ite
      | exact sameO_fault

theorem execCalAll_same {M : Nat} {s0 : State} {c : Nat} {s : State} (hM : Sub 0x200001 M) (hs : Same M s0 s) :
    SameO M s0 (execCalAll c s) := by
  unfold execCalAll
  try dsimp only
  repeat' first
    | intro _
    | with_reducible first
      | assumption | exact hM.of (by decide)
    | with_reducible first
      | apply wr_same | apply ifHas_same | apply calCmd_same | apply sameO_next | apply sameO_ite
      | exact sameO_fault

theorem execCalEye_same {M : Nat} {s0 : State} {c : Nat} {e : Nat} {s : State} (hM : Sub 0x200001 M) (hs : Same M s0 s) :
    SameO M s0 (execCalEye c e s) := by
  unfold execCalEye
  try dsimp only
  repeat' first
    | intro _
    | with_reducible first
      | assumption | exact hM.of (by decide)
    | with_reducible first
      | apply ifHas_same | apply calCmd_same | apply calCmdStore_same | apply sameO_next | apply sameO_ite
      | exact sameO_fault

theorem eyeDone_same {M : Nat} {s0 : State} {c : Nat} {eyes : List EyeScan} {s : State} (hM : Sub 0x200001 M) (hs : Same M s0 s) :
    Same M s0 (eyeDone c eyes s) := by
  unfold eyeDone
  try dsimp only
  repeat' first
    | intro _
    | with_reducible first
      | assumption | exact hM.of (by decide) | apply sameMk | exact Or.inl (hM.bit (by decide)) | exact Or.inr rfl
    | simp only [same_mk_iff]
    | with_reducible first
      | apply wr_same | apply putCal_same | apply same_ite | apply same_foldl

theorem execEyeEnd_same {M : Nat} {s0 : State} {c : Nat} {eyes : List EyeScan} {aborted : Bool} {s : State} (hM : Sub 0x300001 M) (hs : Same M s0 s) :
    SameO M s0 (execEyeEnd c eyes aborted s) := by
  unfold execEyeEnd
  try dsimp only
  repeat' first
    | intro _
    | with_reducible first
      | assumption | exact hM.of (by decide) | apply sameMk | exact Or.inl (hM.bit (by decide)) | exact Or.inr rfl
    | simp only [same_mk_iff]
    | with_reducible first
      | apply onUnit_same | apply eyeAbort_same | apply engineNext_same | apply eyeDone_same | apply sameO_next
      | apply sameO_ite | exact sameO_fault | apply same_ite | exact sameOpt_none | apply sameOpt_ite
    | split
    | with_reducible first
      | (apply same_pair; assumption) | (apply same_opt; assumption) | (apply same_triple; assumption)

theorem calSelWrite_same {M : Nat} {s0 : State} {c : Nat} {e : Nat} {s : State} (hM : Sub 0x1 M) (hs : Same M s0 s) :
    Same M s0 (calSelWrite c e s) := by
  unfold calSelWrite
  try dsimp only
  repeat' first
    | intro _
    | with_reducible first
      | assumption | exact hM.of (by decide)
    | with_reducible first
      | apply wr_same | apply same_ite | apply same_foldl

theorem execCalSelWrite_same {M : Nat} {s0 : State} {c : Nat} {e : Nat} {s : State} (hM : Sub 0x1 M) (hs : Same M s0 s) :
    SameO M s0 (execCalSelWrite c e s) := by
  unfold execCalSelWrite
  try dsimp only
  repeat' first
    | intro _
    | with_reducible first
      | assumption | exact hM.of (by decide)
    | with_reducible first
      | apply ifHas_same | apply calSelWrite_same | apply sameO_next | apply sameO_ite | exact sameO_fault

end Sys2Proof.Machine
end

