-- ==== Sys2Proof/Laws/SameRingState.lean ====
section
/-! SUPPORT. What the operations of Machine/RingState.lean leave as it is (`Same`). -/

namespace Sys2Proof.Machine

theorem requeueDelivered_same {M : Nat} {s0 : State} {s : State} (hM : Sub 0x30000001 M) (hs : Same M s0 s) :
    Same M s0 (requeueDelivered s) := by
  unfold requeueDelivered
  try dsimp only
  repeat' first
    | intro _
    | with_reducible first
      | assumption | exact hM.of (by decide) | apply sameMk | exact Or.inl (hM.bit (by decide)) | exact Or.inr rfl
    | simp only [same_mk_iff]
    | with_reducible first
      | apply wr_same | apply bankIdle_same | apply same_ite | apply same_foldl

theorem posSync_same {M : Nat} {s0 : State} {s : State} (hM : Sub 0x10000001 M) (hs : Same M s0 s) :
    Same M s0 (posSync s) := by
  unfold posSync
  try dsimp only
  repeat' first
    | intro _
    | with_reducible first
      | assumption | exact hM.of (by decide) | apply sameMk | exact Or.inl (hM.bit (by decide)) | exact Or.inr rfl
    | simp only [same_mk_iff]
    | with_reducible first
      | apply setRingPos_same | apply same_ite | apply same_foldl

theorem ringDone_same {M : Nat} {s0 : State} {s : State} (hM : Sub 0x30000001 M) (hs : Same M s0 s) :
    Same M s0 (ringDone s) := by
  unfold ringDone
  try dsimp only
  repeat' first
    | intro _
    | with_reducible first
      | assumption | exact hM.of (by decide)
    | with_reducible first
      | apply wr_same | apply raise_same | apply requeueDelivered_same | apply posSync_same

theorem enumEnd_same {M : Nat} {s0 : State} {s : State} (hM : Sub 0x30000001 M) (hs : Same M s0 s) :
    Same M s0 (enumEnd s) := by
  unfold enumEnd
  try dsimp only
  repeat' first
    | intro _
    | with_reducible first
      | assumption | exact hM.of (by decide) | apply sameMk | exact Or.inl (hM.bit (by decide)) | exact Or.inr rfl
    | simp only [same_mk_iff]
    | with_reducible first
      | apply wr_same | apply broadcast_same | apply ringDone_same

theorem enumStart_same {M : Nat} {s0 : State} {s : State} (hM : Sub 0x30000001 M) (hs : Same M s0 s) :
    Same M s0 (enumStart s) := by
  unfold enumStart
  try dsimp only
  repeat' first
    | intro _
    | with_reducible first
      | assumption | exact hM.of (by decide) | apply sameMk | exact Or.inl (hM.bit (by decide)) | exact Or.inr rfl
    | simp only [same_mk_iff]
    | with_reducible first
      | apply wr_same | apply bump_same | apply setRingPos_same | apply sendOn_same | apply enumEnd_same
      | apply same_ite | apply same_foldl

theorem enterDeliver_same {M : Nat} {s0 : State} {src : Nat} {count : Nat} {ring : Nat} {fast : Bool} {s : State} (hM : Sub 0x20000000 M) (hs : Same M s0 s) :
    Same M s0 (enterDeliver src count ring fast s) := by
  unfold enterDeliver
  try dsimp only
  repeat' first
    | intro _
    | with_reducible first
      | assumption | exact hM.of (by decide) | apply sameMk | exact Or.inl (hM.bit (by decide)) | exact Or.inr rfl
    | simp only [same_mk_iff]
    | with_reducible first
      | apply count_same | apply same_ite

end Sys2Proof.Machine
end

