-- ==== Sys2Proof/Laws/SameSelfTest.lean ====
section
/-! SUPPORT. What the operations of Machine/SelfTest.lean leave as it is (`Same`). -/

namespace Sys2Proof.Machine

theorem bobSliceStart_same {M : Nat} {s0 : State} {c : Nat} {enabling : Bool} {s : State} (hM : Sub 0x200b98001 M) (hs : Same M s0 s) :
    Same M s0 (bobSliceStart c enabling s) := by
  unfold bobSliceStart
  try dsimp only
  repeat' first
    | intro _
    | with_reducible first
      | assumption | exact hM.of (by decide) | apply sameMk | exact Or.inl (hM.bit (by decide)) | exact Or.inr rfl
    | simp only [same_mk_iff]
    | with_reducible first
      | apply putBob_same | apply rxPolApply_same | apply testSync_same | apply setBobSlice_same
      | apply bobSliceEnd_same | apply same_ite

theorem bobSliceTurn_same {M : Nat} {s0 : State} {d : Nat} {s : State} (hM : Sub 0x200b98001 M) (hs : Same M s0 s) :
    Same M s0 (bobSliceTurn d s) := by
  unfold bobSliceTurn
  try dsimp only
  repeat' first
    | intro _
    | with_reducible first
      | assumption | exact hM.of (by decide) | apply sameMk | exact Or.inl (hM.bit (by decide)) | exact Or.inr rfl
    | simp only [same_mk_iff]
    | with_reducible first
      | apply bobSliceStart_same | apply same_ite | exact sameOpt_none | apply sameOpt_ite
    | split
    | with_reducible first
      | (apply same_pair; assumption) | (apply same_opt; assumption) | (apply same_triple; assumption)

theorem sliceTurn_same {M : Nat} {s0 : State} {s : State} (hM : Sub 0x200b98101 M) (hs : Same M s0 s) :
    Same M s0 (sliceTurn s) := by
  unfold sliceTurn
  try dsimp only
  repeat' first
    | intro _
    | with_reducible first
      | assumption | exact hM.of (by decide)
    | with_reducible first
      | apply bankSliceTurn_same | apply bobSliceTurn_same | apply same_ite | apply same_foldl

theorem execSliceInterval_same {M : Nat} {s0 : State} {s : State} (hM : Sub 0x200b98101 M) (hs : Same M s0 s) :
    SameO M s0 (execSliceInterval s) := by
  unfold execSliceInterval
  try dsimp only
  repeat' first
    | intro _
    | with_reducible first
      | assumption | exact hM.of (by decide) | apply sameMk | exact Or.inl (hM.bit (by decide)) | exact Or.inr rfl
    | simp only [same_mk_iff]
    | with_reducible first
      | apply sliceTurn_same | apply sameO_next | apply sameO_ite | exact sameO_fault | apply same_ite
      | exact sameOpt_none | apply sameOpt_ite
    | split
    | with_reducible first
      | (apply same_pair; assumption) | (apply same_opt; assumption) | (apply same_triple; assumption)

theorem execBobbinSliceEnd_same {M : Nat} {s0 : State} {c : Nat} {bits : Nat} {errors : Nat} {noLock : Bool} {replica : Bool} {s : State} (hM : Sub 0x200810001 M) (hs : Same M s0 s) :
    SameO M s0 (execBobbinSliceEnd c bits errors noLock replica s) := by
  unfold execBobbinSliceEnd
  try dsimp only
  repeat' first
    | intro _
    | with_reducible first
      | assumption | exact hM.of (by decide)
    | with_reducible first
      | apply onUnit_same | apply bobSliceEnd_same | apply sameO_next | apply sameO_ite | exact sameO_fault
      | apply same_ite

theorem execBistStall_same {M : Nat} {s0 : State} {die : Nat} {s : State} (hM : Sub 0x200810105 M) (hs : Same M s0 s) :
    SameO M s0 (execBistStall die s) := by
  unfold execBistStall
  try dsimp only
  repeat' first
    | intro _
    | with_reducible first
      | assumption | exact hM.of (by decide)
    | with_reducible first
      | apply onUnit_same | apply slicesEnd_same | apply sameO_next | apply sameO_ite | exact sameO_fault

theorem bstRefuse_same {M : Nat} {s0 : State} {b : Bool} {s : State} (hM : Sub 0x1 M) (hs : Same M s0 s) :
    Same M s0 (bstRefuse b s) := by
  unfold bstRefuse
  try dsimp only
  repeat' first
    | intro _
    | with_reducible first
      | assumption | exact hM.of (by decide)
    | with_reducible first
      | apply wrB_same

theorem bobbinNow_same {M : Nat} {s0 : State} {c : Nat} {s : State} (hM : Sub 0x200b98001 M) (hs : Same M s0 s) :
    Same M s0 (bobbinNow c s) := by
  unfold bobbinNow
  try dsimp only
  repeat' first
    | intro _
    | with_reducible first
      | assumption | exact hM.of (by decide)
    | with_reducible first
      | apply bobSliceStart_same | apply bstRefuse_same | apply same_ite

theorem execBstBobbinNow_same {M : Nat} {s0 : State} {c : Nat} {s : State} (hM : Sub 0x200b98001 M) (hs : Same M s0 s) :
    SameO M s0 (execBstBobbinNow c s) := by
  unfold execBstBobbinNow
  try dsimp only
  repeat' first
    | intro _
    | with_reducible first
      | assumption | exact hM.of (by decide)
    | with_reducible first
      | apply wr_same | apply ifOpen_same | apply bobbinNow_same | apply sameO_next | apply sameO_ite
      | exact sameO_fault

theorem bstAbort_same {M : Nat} {s0 : State} {s : State} (hM : Sub 0x200810105 M) (hs : Same M s0 s) :
    Same M s0 (bstAbort s) := by
  unfold bstAbort
  try dsimp only
  repeat' first
    | intro _
    | with_reducible first
      | assumption | exact hM.of (by decide)
    | with_reducible first
      | apply slicesEnd_same | apply bstRefuse_same

theorem execBstAbort_same {M : Nat} {s0 : State} {s : State} (hM : Sub 0x200810105 M) (hs : Same M s0 s) :
    SameO M s0 (execBstAbort s) := by
  unfold execBstAbort
  try dsimp only
  repeat' first
    | intro _
    | with_reducible first
      | assumption | exact hM.of (by decide)
    | with_reducible first
      | apply wr_same | apply ifOpen_same | apply bstAbort_same | apply sameO_next | apply sameO_ite
      | exact sameO_fault

theorem scrub_same {M : Nat} {s0 : State} {s : State} (hM : Sub 0x80000681 M) (hs : Same M s0 s) :
    Same M s0 (scrub s) := by
  unfold scrub
  try dsimp only
  repeat' first
    | intro _
    | with_reducible first
      | assumption | exact hM.of (by decide) | apply sameMk | exact Or.inl (hM.bit (by decide)) | exact Or.inr rfl
    | simp only [same_mk_iff]
    | with_reducible first
      | apply wr_same | apply dieFree_same

theorem bstFull_same {M : Nat} {s0 : State} {s : State} (hM : Sub 0x280000681 M) (hs : Same M s0 s) :
    Same M s0 (bstFull s) := by
  unfold bstFull
  try dsimp only
  repeat' first
    | intro _
    | with_reducible first
      | assumption | exact hM.of (by decide) | apply sameMk | exact Or.inl (hM.bit (by decide)) | exact Or.inr rfl
    | simp only [same_mk_iff]
    | with_reducible first
      | apply bstRefuse_same | apply scrub_same | apply same_ite

theorem execBstFull_same {M : Nat} {s0 : State} {s : State} (hM : Sub 0x280000681 M) (hs : Same M s0 s) :
    SameO M s0 (execBstFull s) := by
  unfold execBstFull
  try dsimp only
  repeat' first
    | intro _
    | with_reducible first
      | assumption | exact hM.of (by decide)
    | with_reducible first
      | apply wr_same | apply ifOpen_same | apply bstFull_same | apply sameO_next | apply sameO_ite
      | exact sameO_fault

theorem keysZeroed_same {M : Nat} {s0 : State} {s : State} (hM : Sub 0x180000001 M) (hs : Same M s0 s) :
    Same M s0 (keysZeroed s) := by
  unfold keysZeroed
  try dsimp only
  repeat' first
    | intro _
    | with_reducible first
      | assumption | exact hM.of (by decide) | apply sameMk | exact Or.inl (hM.bit (by decide)) | exact Or.inr rfl
    | simp only [same_mk_iff]
    | with_reducible first
      | apply wr_same | apply same_foldl

theorem testEnter_same {M : Nat} {s0 : State} {cause : Nat} {s : State} (hM : Sub 0x380bff7c7 M) (hs : Same M s0 s) :
    Same M s0 (testEnter cause s) := by
  unfold testEnter
  dsimp only
  repeat' first
    | intro _
    | with_reducible first
      | assumption | exact hM.of (by decide) | apply sameMk | exact Or.inl (hM.bit (by decide)) | exact Or.inr rfl
    | simp only [same_mk_iff]
    | with_reducible first
      | apply wr_same | apply raise_same | apply calClocks_same | apply slicesEnd_same | apply haltAll_same
      | apply keysZeroed_same | apply same_ite
  all_goals exact Or.inr ((raise_same (M := 1) (s := s) (src := 289) ⟨fun _ h => h⟩ Same.rfl).out .phase rfl).symm

theorem bstTestEnter_same {M : Nat} {s0 : State} {confirm : Nat} {s : State} (hM : Sub 0x380bff7c7 M) (hs : Same M s0 s) :
    Same M s0 (bstTestEnter confirm s) := by
  unfold bstTestEnter
  try dsimp only
  repeat' first
    | intro _
    | with_reducible first
      | assumption | exact hM.of (by decide)
    | with_reducible first
      | apply bstRefuse_same | apply testEnter_same | apply same_ite

theorem execBstTestEnter_same {M : Nat} {s0 : State} {confirm : Nat} {s : State} (hM : Sub 0x380bff7c7 M) (hs : Same M s0 s) :
    SameO M s0 (execBstTestEnter confirm s) := by
  unfold execBstTestEnter
  try dsimp only
  repeat' first
    | intro _
    | with_reducible first
      | assumption | exact hM.of (by decide)
    | with_reducible first
      | apply wr_same | apply ifOpen_same | apply bstTestEnter_same | apply sameO_next | apply sameO_ite
      | exact sameO_fault

theorem execTestEnHigh_same {M : Nat} {s0 : State} {s : State} (hM : Sub 0x380bff7c7 M) (hs : Same M s0 s) :
    SameO M s0 (execTestEnHigh s) := by
  unfold execTestEnHigh
  try dsimp only
  repeat' first
    | intro _
    | with_reducible first
      | assumption | exact hM.of (by decide)
    | with_reducible first
      | apply testEnter_same | apply sameO_next | apply sameO_ite | exact sameO_fault

theorem execTestEntryDone_same {M : Nat} {s0 : State} {us : Nat} {s : State} (hM : Sub 0x12800006c1 M) (hs : Same M s0 s) :
    SameO M s0 (execTestEntryDone us s) := by
  unfold execTestEntryDone
  try dsimp only
  repeat' first
    | intro _
    | with_reducible first
      | assumption | exact hM.of (by decide) | apply sameMk | exact Or.inl (hM.bit (by decide)) | exact Or.inr rfl
    | simp only [same_mk_iff]
    | with_reducible first
      | apply wr_same | apply bistHold_same | apply scrub_same | apply sameO_next | apply sameO_ite
      | exact sameO_fault | apply same_ite

theorem writeBstCfg_same {M : Nat} {s0 : State} {v : Nat} {s : State} (hM : Sub 0x200000001 M) (hs : Same M s0 s) :
    Same M s0 (writeBstCfg v s) := by
  unfold writeBstCfg
  try dsimp only
  repeat' first
    | intro _
    | with_reducible first
      | assumption | exact hM.of (by decide) | apply sameMk | exact Or.inl (hM.bit (by decide)) | exact Or.inr rfl
    | simp only [same_mk_iff]
    | with_reducible first
      | apply wr_same
    | split
    | with_reducible first
      | (apply same_pair; assumption) | (apply same_opt; assumption) | (apply same_triple; assumption)

theorem execBstCfgWrite_same {M : Nat} {s0 : State} {v : Nat} {s : State} (hM : Sub 0x200000001 M) (hs : Same M s0 s) :
    SameO M s0 (execBstCfgWrite v s) := by
  unfold execBstCfgWrite
  try dsimp only
  repeat' first
    | intro _
    | with_reducible first
      | assumption | exact hM.of (by decide)
    | with_reducible first
      | apply ifOpen_same | apply writeBstCfg_same | apply sameO_next | apply sameO_ite | exact sameO_fault

theorem loopRefuse_same {M : Nat} {s0 : State} {v : Nat} {why : Nat} {s : State} (hM : Sub 0x1 M) (hs : Same M s0 s) :
    Same M s0 (loopRefuse v why s) := by
  unfold loopRefuse
  try dsimp only
  repeat' first
    | intro _
    | with_reducible first
      | assumption | exact hM.of (by decide)
    | with_reducible first
      | apply wr_same

theorem writeLbCfg_same {M : Nat} {s0 : State} {n : Nat} {v : Nat} {s : State} (hM : Sub 0x10001 M) (hs : Same M s0 s) :
    Same M s0 (writeLbCfg n v s) := by
  unfold writeLbCfg
  try dsimp only
  repeat' first
    | intro _
    | with_reducible first
      | assumption | exact hM.of (by decide) | apply sameMk | exact Or.inl (hM.bit (by decide)) | exact Or.inr rfl
    | simp only [same_mk_iff]
    | with_reducible first
      | apply wr_same | apply wrB_same | apply testSync_same | apply loopRefuse_same | apply same_ite
      | exact sameOpt_none | apply sameOpt_ite
    | split
    | with_reducible first
      | (apply same_pair; assumption) | (apply same_opt; assumption) | (apply same_triple; assumption)

theorem execLbCfgWrite_same {M : Nat} {s0 : State} {lane : Nat} {v : Nat} {s : State} (hM : Sub 0x10001 M) (hs : Same M s0 s) :
    SameO M s0 (execLbCfgWrite lane v s) := by
  unfold execLbCfgWrite
  try dsimp only
  repeat' first
    | intro _
    | with_reducible first
      | assumption | exact hM.of (by decide)
    | with_reducible first
      | apply ifOpen_same | apply writeLbCfg_same | apply sameO_next | apply sameO_ite | exact sameO_fault

theorem writePrbsGen_same {M : Nat} {s0 : State} {n : Nat} {v : Nat} {s : State} (hM : Sub 0x10001 M) (hs : Same M s0 s) :
    Same M s0 (writePrbsGen n v s) := by
  unfold writePrbsGen
  try dsimp only
  repeat' first
    | intro _
    | with_reducible first
      | assumption | exact hM.of (by decide) | apply sameMk | exact Or.inl (hM.bit (by decide)) | exact Or.inr rfl
    | simp only [same_mk_iff]
    | with_reducible first
      | apply wr_same | apply testSync_same | apply loopRefuse_same | apply same_ite | exact sameOpt_none
      | apply sameOpt_ite
    | split
    | with_reducible first
      | (apply same_pair; assumption) | (apply same_opt; assumption) | (apply same_triple; assumption)

theorem execPrbsGenWrite_same {M : Nat} {s0 : State} {lane : Nat} {v : Nat} {s : State} (hM : Sub 0x10001 M) (hs : Same M s0 s) :
    SameO M s0 (execPrbsGenWrite lane v s) := by
  unfold execPrbsGenWrite
  try dsimp only
  repeat' first
    | intro _
    | with_reducible first
      | assumption | exact hM.of (by decide)
    | with_reducible first
      | apply ifOpen_same | apply writePrbsGen_same | apply sameO_next | apply sameO_ite | exact sameO_fault

theorem putPrbs_same {M : Nat} {s0 : State} {s : State} {n : Nat} {v : PrbsSt} (hM : Sub 0x400000000 M) (hs : Same M s0 s) :
    Same M s0 (State.putPrbs s n v) := by
  unfold State.putPrbs
  try dsimp only
  repeat' first
    | intro _
    | with_reducible first
      | assumption | exact hM.of (by decide) | apply sameMk | exact Or.inl (hM.bit (by decide)) | exact Or.inr rfl
    | simp only [same_mk_iff]

theorem checkSync_same {M : Nat} {s0 : State} {t : State} {n : Nat} {s : State} (hM : Sub 0x388001 M) (ht : Same M s0 t) (hs : Same M s0 s) :
    Same M s0 (checkSync t n s) := by
  unfold checkSync
  try dsimp only
  repeat' first
    | intro _
    | with_reducible first
      | assumption | exact hM.of (by decide)
    | with_reducible first
      | apply rxPolApply_same | apply same_ite | apply same_foldl

theorem writePrbsChk_same {M : Nat} {s0 : State} {n : Nat} {v : Nat} {s : State} (hM : Sub 0x400398001 M) (hs : Same M s0 s) :
    Same M s0 (writePrbsChk n v s) := by
  unfold writePrbsChk
  try dsimp only
  repeat' first
    | intro _
    | with_reducible first
      | assumption | exact hM.of (by decide) | apply sameMk | exact Or.inl (hM.bit (by decide)) | exact Or.inr rfl
    | simp only [same_mk_iff]
    | with_reducible first
      | apply wr_same | apply testSync_same | apply loopRefuse_same | apply putPrbs_same | apply checkSync_same
      | apply same_ite | exact sameOpt_none | apply sameOpt_ite
    | split
    | with_reducible first
      | (apply same_pair; assumption) | (apply same_opt; assumption) | (apply same_triple; assumption)

theorem execPrbsChkWrite_same {M : Nat} {s0 : State} {lane : Nat} {v : Nat} {s : State} (hM : Sub 0x400398001 M) (hs : Same M s0 s) :
    SameO M s0 (execPrbsChkWrite lane v s) := by
  unfold execPrbsChkWrite
  try dsimp only
  repeat' first
    | intro _
    | with_reducible first
      | assumption | exact hM.of (by decide)
    | with_reducible first
      | apply ifOpen_same | apply writePrbsChk_same | apply sameO_next | apply sameO_ite | exact sameO_fault

theorem execPrbsLock_same {M : Nat} {s0 : State} {lane : Nat} {got : List Bool} {s : State} (hM : Sub 0x1 M) (hs : Same M s0 s) :
    SameO M s0 (execPrbsLock lane got s) := by
  unfold execPrbsLock
  try dsimp only
  repeat' first
    | intro _
    | with_reducible first
      | assumption | exact hM.of (by decide) | apply sameMk | exact Or.inl (hM.bit (by decide)) | exact Or.inr rfl
    | simp only [same_mk_iff]
    | with_reducible first
      | apply onUnit_same | apply wr_same | apply wrB_same | apply sameO_next | apply sameO_ite
      | exact sameO_fault | apply same_ite | exact sameOpt_none | apply sameOpt_ite
    | split
    | with_reducible first
      | (apply same_pair; assumption) | (apply same_opt; assumption) | (apply same_triple; assumption)

theorem prbsCount_same {M : Nat} {s0 : State} {n : Nat} {bits : Nat} {errs : Nat} {s : State} (hM : Sub 0x400000003 M) (hs : Same M s0 s) :
    Same M s0 (prbsCount n bits errs s) := by
  unfold prbsCount
  try dsimp only
  repeat' first
    | intro _
    | with_reducible first
      | assumption | exact hM.of (by decide) | apply sameMk | exact Or.inl (hM.bit (by decide)) | exact Or.inr rfl
    | simp only [same_mk_iff]
    | with_reducible first
      | apply putLive_same | apply countBy_same | apply raise_same | apply putPrbs_same | apply same_ite

theorem execPrbsLockLoss_same {M : Nat} {s0 : State} {lane : Nat} {bits : Nat} {e : BitErrs} {s : State} (hM : Sub 0x400000003 M) (hs : Same M s0 s) :
    SameO M s0 (execPrbsLockLoss lane bits e s) := by
  unfold execPrbsLockLoss
  try dsimp only
  repeat' first
    | intro _
    | with_reducible first
      | assumption | exact hM.of (by decide)
    | with_reducible first
      | apply onUnit_same | apply wr_same | apply count_same | apply putPrbs_same | apply prbsCount_same
      | apply sameO_next | apply sameO_ite | exact sameO_fault | apply same_ite

theorem execPrbsErrThreshold_same {M : Nat} {s0 : State} {lane : Nat} {bits : Nat} {e : BitErrs} {s : State} (hM : Sub 0x400000003 M) (hs : Same M s0 s) :
    SameO M s0 (execPrbsErrThreshold lane bits e s) := by
  unfold execPrbsErrThreshold
  try dsimp only
  repeat' first
    | intro _
    | with_reducible first
      | assumption | exact hM.of (by decide)
    | with_reducible first
      | apply onUnit_same | apply prbsCount_same | apply sameO_next | apply sameO_ite | exact sameO_fault
      | apply same_ite

theorem execPrbsErrWindowEnd_same {M : Nat} {s0 : State} {lane : Nat} {bits : Nat} {e : BitErrs} {s : State} (hM : Sub 0x400000003 M) (hs : Same M s0 s) :
    SameO M s0 (execPrbsErrWindowEnd lane bits e s) := by
  unfold execPrbsErrWindowEnd
  try dsimp only
  repeat' first
    | intro _
    | with_reducible first
      | assumption | exact hM.of (by decide)
    | with_reducible first
      | apply onUnit_same | apply putPrbs_same | apply prbsCount_same | apply sameO_next | apply sameO_ite
      | exact sameO_fault | apply same_ite

theorem prbsSnap_same {M : Nat} {s0 : State} {n : Nat} {s : State} (hM : Sub 0x40000001 M) (hs : Same M s0 s) :
    Same M s0 (prbsSnap n s) := by
  unfold prbsSnap
  try dsimp only
  repeat' first
    | intro _
    | with_reducible first
      | assumption | exact hM.of (by decide)
    | with_reducible first
      | apply bumpWrap_same | apply latch64_same | apply latchAll_same | apply answerWord_same | apply same_ite

theorem execPrbsSnap_same {M : Nat} {s0 : State} {lane : Nat} {s : State} (hM : Sub 0x40000001 M) (hs : Same M s0 s) :
    SameO M s0 (execPrbsSnap lane s) := by
  unfold execPrbsSnap
  try dsimp only
  repeat' first
    | intro _
    | with_reducible first
      | assumption | exact hM.of (by decide)
    | with_reducible first
      | apply ifOpen_same | apply answerWord_same | apply prbsSnap_same | apply sameO_next | apply sameO_ite
      | exact sameO_fault

theorem prbsClr_same {M : Nat} {s0 : State} {n : Nat} {s : State} (hM : Sub 0x2 M) (hs : Same M s0 s) :
    Same M s0 (prbsClr n s) := by
  unfold prbsClr
  try dsimp only
  repeat' first
    | intro _
    | with_reducible first
      | assumption | exact hM.of (by decide)
    | with_reducible first
      | apply zeroLive_same | apply same_ite

theorem execPrbsClr_same {M : Nat} {s0 : State} {lane : Nat} {s : State} (hM : Sub 0x2 M) (hs : Same M s0 s) :
    SameO M s0 (execPrbsClr lane s) := by
  unfold execPrbsClr
  try dsimp only
  repeat' first
    | intro _
    | with_reducible first
      | assumption | exact hM.of (by decide)
    | with_reducible first
      | apply ifOpen_same | apply prbsClr_same | apply sameO_next | apply sameO_ite | exact sameO_fault

theorem jtagLoad_same {M : Nat} {s0 : State} {op : Nat} {s : State} (hM : Sub 0x380bff7c7 M) (hs : Same M s0 s) :
    Same M s0 (jtagLoad op s) := by
  unfold jtagLoad
  try dsimp only
  repeat' first
    | intro _
    | with_reducible first
      | assumption | exact hM.of (by decide) | apply sameMk | exact Or.inl (hM.bit (by decide)) | exact Or.inr rfl
    | simp only [same_mk_iff]
    | with_reducible first
      | apply testEnter_same | apply same_ite

theorem execExtest_same {M : Nat} {s0 : State} {s : State} (hM : Sub 0x380bff7c7 M) (hs : Same M s0 s) :
    SameO M s0 (execExtest s) := by
  unfold execExtest
  try dsimp only
  repeat' first
    | intro _
    | with_reducible first
      | assumption | exact hM.of (by decide)
    | with_reducible first
      | apply jtagLoad_same | apply sameO_next | apply sameO_ite | exact sameO_fault

theorem samplePreload_same {M : Nat} {s0 : State} {s : State} (hM : Sub 0x380bff7c7 M) (hs : Same M s0 s) :
    Same M s0 (samplePreload s) := by
  unfold samplePreload
  try dsimp only
  repeat' first
    | intro _
    | with_reducible first
      | assumption | exact hM.of (by decide) | apply sameMk | exact Or.inl (hM.bit (by decide)) | exact Or.inr rfl
    | simp only [same_mk_iff]
    | with_reducible first
      | apply draw_same | apply jtagLoad_same
    | with_reducible first
      | (apply same_pair; assumption) | (apply same_opt; assumption) | (apply same_triple; assumption)

theorem execSamplePreload_same {M : Nat} {s0 : State} {s : State} (hM : Sub 0x380bff7c7 M) (hs : Same M s0 s) :
    SameO M s0 (execSamplePreload s) := by
  unfold execSamplePreload
  try dsimp only
  repeat' first
    | intro _
    | with_reducible first
      | assumption | exact hM.of (by decide)
    | with_reducible first
      | apply samplePreload_same | apply sameO_next | apply sameO_ite | exact sameO_fault

theorem execIdcode_same {M : Nat} {s0 : State} {s : State} (hM : Sub 0x3c0bff7c7 M) (hs : Same M s0 s) :
    SameO M s0 (execIdcode s) := by
  unfold execIdcode
  try dsimp only
  repeat' first
    | intro _
    | with_reducible first
      | assumption | exact hM.of (by decide)
    | with_reducible first
      | apply answerWord_same | apply jtagLoad_same | apply sameO_next | apply sameO_ite | exact sameO_fault

theorem execClamp_same {M : Nat} {s0 : State} {s : State} (hM : Sub 0x380bff7c7 M) (hs : Same M s0 s) :
    SameO M s0 (execClamp s) := by
  unfold execClamp
  try dsimp only
  repeat' first
    | intro _
    | with_reducible first
      | assumption | exact hM.of (by decide)
    | with_reducible first
      | apply jtagLoad_same | apply sameO_next | apply sameO_ite | exact sameO_fault

theorem execHighz_same {M : Nat} {s0 : State} {s : State} (hM : Sub 0x380bff7c7 M) (hs : Same M s0 s) :
    SameO M s0 (execHighz s) := by
  unfold execHighz
  try dsimp only
  repeat' first
    | intro _
    | with_reducible first
      | assumption | exact hM.of (by decide)
    | with_reducible first
      | apply jtagLoad_same | apply sameO_next | apply sameO_ite | exact sameO_fault

theorem execExtestPulse_same {M : Nat} {s0 : State} {s : State} (hM : Sub 0x380bff7c7 M) (hs : Same M s0 s) :
    SameO M s0 (execExtestPulse s) := by
  unfold execExtestPulse
  try dsimp only
  repeat' first
    | intro _
    | with_reducible first
      | assumption | exact hM.of (by decide)
    | with_reducible first
      | apply jtagLoad_same | apply sameO_next | apply sameO_ite | exact sameO_fault

theorem execExtestTrain_same {M : Nat} {s0 : State} {s : State} (hM : Sub 0x380bff7c7 M) (hs : Same M s0 s) :
    SameO M s0 (execExtestTrain s) := by
  unfold execExtestTrain
  try dsimp only
  repeat' first
    | intro _
    | with_reducible first
      | assumption | exact hM.of (by decide)
    | with_reducible first
      | apply jtagLoad_same | apply sameO_next | apply sameO_ite | exact sameO_fault

theorem execScanEntry_same {M : Nat} {s0 : State} {s : State} (hM : Sub 0x380bff7c7 M) (hs : Same M s0 s) :
    SameO M s0 (execScanEntry s) := by
  unfold execScanEntry
  try dsimp only
  repeat' first
    | intro _
    | with_reducible first
      | assumption | exact hM.of (by decide)
    | with_reducible first
      | apply jtagLoad_same | apply sameO_next | apply sameO_ite | exact sameO_fault

theorem execBypass_same {M : Nat} {s0 : State} {s : State} (hM : Sub 0x380bff7c7 M) (hs : Same M s0 s) :
    SameO M s0 (execBypass s) := by
  unfold execBypass
  try dsimp only
  repeat' first
    | intro _
    | with_reducible first
      | assumption | exact hM.of (by decide)
    | with_reducible first
      | apply jtagLoad_same | apply sameO_next | apply sameO_ite | exact sameO_fault

theorem execJtagTrst_same {M : Nat} {s0 : State} {s : State} (hM : Sub 0x40 M) (hs : Same M s0 s) :
    SameO M s0 (execJtagTrst s) := by
  unfold execJtagTrst
  try dsimp only
  repeat' first
    | intro _
    | with_reducible first
      | assumption | exact hM.of (by decide) | apply sameMk | exact Or.inl (hM.bit (by decide)) | exact Or.inr rfl
    | simp only [same_mk_iff]
    | with_reducible first
      | apply sameO_next | apply sameO_ite | exact sameO_fault

end Sys2Proof.Machine
end

