-- ==== Sys2Proof/Laws/SameWatch.lean ====
section
/-! SUPPORT. What the operations of Machine/Watch.lean leave as it is (`Same`). -/

namespace Sys2Proof.Machine

theorem watchEnter_same {M : Nat} {s0 : State} {force : Bool} {s : State} (hM : Sub 0x803ff6c3 M) (hs : Same M s0 s) :
    Same M s0 (watchEnter force s) := by
  unfold watchEnter
  try dsimp only
  repeat' first
    | intro _
    | with_reducible first
      | assumption | exact hM.of (by decide) | apply sameMk | exact Or.inl (hM.bit (by decide)) | exact Or.inr rfl
    | simp only [same_mk_iff]
    | with_reducible first
      | apply wr_same | apply wrB_same | apply calAbortAny_same | apply loopStopAll_same | apply haltAll_same
      | apply same_ite | apply same_foldl

theorem execWatchEnter_same {M : Nat} {s0 : State} {force : Bool} {s : State} (hM : Sub 0x803ff6c3 M) (hs : Same M s0 s) :
    SameO M s0 (execWatchEnter force s) := by
  unfold execWatchEnter
  try dsimp only
  repeat' first
    | intro _
    | with_reducible first
      | assumption | exact hM.of (by decide)
    | with_reducible first
      | apply ifOpen_same | apply watchEnter_same | apply sameO_next | apply sameO_ite | exact sameO_fault

theorem pllsStop_same {M : Nat} {s0 : State} {s : State} (hM : Sub 0x8000001 M) (hs : Same M s0 s) :
    Same M s0 (pllsStop s) := by
  unfold pllsStop
  try dsimp only
  repeat' first
    | intro _
    | with_reducible first
      | assumption | exact hM.of (by decide)
    | with_reducible first
      | apply wr_same | apply setPllRef_same | apply seamUp_same | apply same_foldl

theorem clustersOff_same {M : Nat} {s0 : State} {s : State} (hM : Sub 0x60001 M) (hs : Same M s0 s) :
    Same M s0 (clustersOff s) := by
  unfold clustersOff
  try dsimp only
  repeat' first
    | intro _
    | with_reducible first
      | assumption | exact hM.of (by decide) | apply sameMk | exact Or.inl (hM.bit (by decide)) | exact Or.inr rfl
    | simp only [same_mk_iff]
    | with_reducible first
      | apply wr_same | apply putCk_same | apply putCkEntry_same | apply putCkExit_same | apply same_foldl

theorem execWatchEntryDone_same {M : Nat} {s0 : State} {s : State} (hM : Sub 0x12080600c1 M) (hs : Same M s0 s) :
    SameO M s0 (execWatchEntryDone s) := by
  unfold execWatchEntryDone
  try dsimp only
  repeat' first
    | intro _
    | with_reducible first
      | assumption | exact hM.of (by decide) | apply sameMk | exact Or.inl (hM.bit (by decide)) | exact Or.inr rfl
    | simp only [same_mk_iff]
    | with_reducible first
      | apply wr_same | apply dieFree_same | apply armMonitor_same | apply bistHold_same | apply pllsStop_same
      | apply clustersOff_same | apply sameO_next | apply sameO_ite | exact sameO_fault | apply same_ite

theorem wakeStart_same {M : Nat} {s0 : State} {cause : Nat} {index : Nat} {s : State} (hM : Sub 0x8000041 M) (hs : Same M s0 s) :
    Same M s0 (wakeStart cause index s) := by
  unfold wakeStart
  try dsimp only
  repeat' first
    | intro _
    | with_reducible first
      | assumption | exact hM.of (by decide) | apply sameMk | exact Or.inl (hM.bit (by decide)) | exact Or.inr rfl
    | simp only [same_mk_iff]
    | with_reducible first
      | apply wr_same | apply judgeStart_same | apply same_ite

theorem watchWake_same {M : Nat} {s0 : State} {s : State} (hM : Sub 0x8000041 M) (hs : Same M s0 s) :
    Same M s0 (watchWake s) := by
  unfold watchWake
  try dsimp only
  repeat' first
    | intro _
    | with_reducible first
      | assumption | exact hM.of (by decide)
    | with_reducible first
      | apply wr_same | apply wakeStart_same | apply same_ite

theorem execWatchWake_same {M : Nat} {s0 : State} {s : State} (hM : Sub 0x8000041 M) (hs : Same M s0 s) :
    SameO M s0 (execWatchWake s) := by
  unfold execWatchWake
  try dsimp only
  repeat' first
    | intro _
    | with_reducible first
      | assumption | exact hM.of (by decide)
    | with_reducible first
      | apply ifOpen_same | apply watchWake_same | apply sameO_next | apply sameO_ite | exact sameO_fault

theorem execWakeNLow_same {M : Nat} {s0 : State} {s : State} (hM : Sub 0x8000041 M) (hs : Same M s0 s) :
    SameO M s0 (execWakeNLow s) := by
  unfold execWakeNLow
  try dsimp only
  repeat' first
    | intro _
    | with_reducible first
      | assumption | exact hM.of (by decide)
    | with_reducible first
      | apply wakeStart_same | apply sameO_next | apply sameO_ite | exact sameO_fault | apply same_ite

theorem execWakeSigdet_same {M : Nat} {s0 : State} {n : Nat} {sd : Side} {s : State} (hM : Sub 0x8000041 M) (hs : Same M s0 s) :
    SameO M s0 (execWakeSigdet n sd s) := by
  unfold execWakeSigdet
  try dsimp only
  repeat' first
    | intro _
    | with_reducible first
      | assumption | exact hM.of (by decide)
    | with_reducible first
      | apply onUnit_same | apply wr_same | apply wakeStart_same | apply sameO_next | apply sameO_ite
      | exact sameO_fault | apply same_ite

theorem execWakeSource_same {M : Nat} {s0 : State} {src : Nat} {s : State} (hM : Sub 0x8000041 M) (hs : Same M s0 s) :
    SameO M s0 (execWakeSource src s) := by
  unfold execWakeSource
  try dsimp only
  repeat' first
    | intro _
    | with_reducible first
      | assumption | exact hM.of (by decide)
    | with_reducible first
      | apply onUnit_same | apply wakeStart_same | apply sameO_next | apply sameO_ite | exact sameO_fault
      | apply same_ite

theorem enterKept_same {M : Nat} {s0 : State} {s : State} (hM : Sub 0x30000000 M) (hs : Same M s0 s) :
    Same M s0 (enterKept s) := by
  unfold enterKept
  try dsimp only
  repeat' first
    | intro _
    | with_reducible first
      | assumption | exact hM.of (by decide) | apply sameMk | exact Or.inl (hM.bit (by decide)) | exact Or.inr rfl
    | simp only [same_mk_iff]
    | with_reducible first
      | apply enterDeliver_same | apply same_foldl

theorem execWakeComplete_same {M : Nat} {s0 : State} {s : State} (hM : Sub 0x12b2bff7c7 M) (hs : Same M s0 s) :
    SameO M s0 (execWakeComplete s) := by
  unfold execWakeComplete
  try dsimp only
  repeat' first
    | intro _
    | with_reducible first
      | assumption | exact hM.of (by decide) | apply sameMk | exact Or.inl (hM.bit (by decide)) | exact Or.inr rfl
    | simp only [same_mk_iff]
    | with_reducible first
      | apply wr_same | apply suspectSlices_same | apply haltFenced_same | apply trainAll_same
      | apply bistResume_same | apply enterKept_same | apply sameO_next | apply sameO_ite | exact sameO_fault
      | apply same_ite | apply same_foldl

theorem execWakeIfoTimeout_same {M : Nat} {s0 : State} {s : State} (hM : Sub 0x8000041 M) (hs : Same M s0 s) :
    SameO M s0 (execWakeIfoTimeout s) := by
  unfold execWakeIfoTimeout
  try dsimp only
  repeat' first
    | intro _
    | with_reducible first
      | assumption | exact hM.of (by decide) | apply sameMk | exact Or.inl (hM.bit (by decide)) | exact Or.inr rfl
    | simp only [same_mk_iff]
    | with_reducible first
      | apply wr_same | apply raise_same | apply sameO_next | apply sameO_ite | exact sameO_fault | apply same_ite

end Sys2Proof.Machine
end

