-- ==== Sys2Proof/Laws/SameFaults.lean ====
section
/-! SUPPORT. What the operations of Machine/Faults.lean leave as it is (`Same`). -/

namespace Sys2Proof.Machine

theorem postPause_same {M : Nat} {s0 : State} {s : State} (hM : Sub 0x200000000 M) (hs : Same M s0 s) :
    Same M s0 (postPause s) := by
  unfold postPause
  try dsimp only
  repeat' first
    | intro _
    | with_reducible first
      | assumption | exact hM.of (by decide) | apply sameMk | exact Or.inl (hM.bit (by decide)) | exact Or.inr rfl
    | simp only [same_mk_iff]
    | with_reducible first
      | apply same_ite

theorem postResume_same {M : Nat} {s0 : State} {s : State} (hM : Sub 0x200000000 M) (hs : Same M s0 s) :
    Same M s0 (postResume s) := by
  unfold postResume
  try dsimp only
  repeat' first
    | intro _
    | with_reducible first
      | assumption | exact hM.of (by decide) | apply sameMk | exact Or.inl (hM.bit (by decide)) | exact Or.inr rfl
    | simp only [same_mk_iff]
    | with_reducible first
      | apply same_ite | exact sameOpt_none | apply sameOpt_ite
    | split
    | with_reducible first
      | (apply same_pair; assumption) | (apply same_opt; assumption) | (apply same_triple; assumption)

theorem execSupplyWarnSet_same {M : Nat} {s0 : State} {x : RailAt} {s : State} (hM : Sub 0x200810105 M) (hs : Same M s0 s) :
    SameO M s0 (execSupplyWarnSet x s) := by
  unfold execSupplyWarnSet
  try dsimp only
  repeat' first
    | intro _
    | with_reducible first
      | assumption | exact hM.of (by decide)
    | with_reducible first
      | apply onUnit_same | apply wr_same | apply bump_same | apply setInput_same | apply limitFails_same
      | apply postPause_same | apply sameO_next | apply sameO_ite | exact sameO_fault | apply same_ite

theorem execSupplyWarnClear_same {M : Nat} {s0 : State} {x : RailAt} {s : State} (hM : Sub 0x200000101 M) (hs : Same M s0 s) :
    SameO M s0 (execSupplyWarnClear x s) := by
  unfold execSupplyWarnClear
  try dsimp only
  repeat' first
    | intro _
    | with_reducible first
      | assumption | exact hM.of (by decide)
    | with_reducible first
      | apply onUnit_same | apply wr_same | apply setInput_same | apply suspectSlices_same | apply postResume_same
      | apply sameO_next | apply sameO_ite | exact sameO_fault | apply same_ite

theorem execSupplySample_same {M : Nat} {s0 : State} {vals : List Nat} {s : State} (hM : Sub 0x1 M) (hs : Same M s0 s) :
    SameO M s0 (execSupplySample vals s) := by
  unfold execSupplySample
  try dsimp only
  repeat' first
    | intro _
    | with_reducible first
      | assumption | exact hM.of (by decide)
    | with_reducible first
      | apply wr_same | apply sameO_next | apply sameO_ite | exact sameO_fault | apply same_ite | apply same_foldl

theorem clearParent_same {M : Nat} {s0 : State} {f : Fld} {s : State} (hM : Sub 0x1 M) (hs : Same M s0 s) :
    Same M s0 (clearParent f s) := by
  unfold clearParent
  try dsimp only
  repeat' first
    | intro _
    | with_reducible first
      | assumption | exact hM.of (by decide)
    | with_reducible first
      | apply wr_same | apply same_ite

theorem liftUnit_same {M : Nat} {s0 : State} {unit : Nat} {s : State} (hM : Sub 0x81 M) (hs : Same M s0 s) :
    Same M s0 (liftUnit unit s) := by
  unfold liftUnit
  try dsimp only
  repeat' first
    | intro _
    | with_reducible first
      | assumption | exact hM.of (by decide)
    | with_reducible first
      | apply wr_same | apply dieFree_same | apply clearParent_same | apply same_ite | apply same_foldl

theorem fenceCmd_same {M : Nat} {s0 : State} {op : Nat} {unit : Nat} {s : State} (hM : Sub 0x283bff787 M) (hs : Same M s0 s) :
    Same M s0 (fenceCmd op unit s) := by
  unfold fenceCmd
  try dsimp only
  repeat' first
    | intro _
    | with_reducible first
      | assumption | exact hM.of (by decide)
    | with_reducible first
      | apply wr_same | apply suspectSlices_same | apply startRecheck_same | apply linkTrain_same
      | apply fenceRegion_same | apply fenceDie_same | apply fencePkg_same | apply liftUnit_same | apply same_ite
      | apply same_foldl

theorem fenceStore_same {M : Nat} {s0 : State} {op : Nat} {unit : Nat} {s : State} (hM : Sub 0x1 M) (hs : Same M s0 s) :
    Same M s0 (fenceStore op unit s) := by
  unfold fenceStore
  try dsimp only
  repeat' first
    | intro _
    | with_reducible first
      | assumption | exact hM.of (by decide)
    | with_reducible first
      | apply wr_same | apply same_ite

theorem execFenceCmdFence_same {M : Nat} {s0 : State} {unit : Nat} {s : State} (hM : Sub 0x283bff787 M) (hs : Same M s0 s) :
    SameO M s0 (execFenceCmdFence unit s) := by
  unfold execFenceCmdFence
  try dsimp only
  repeat' first
    | intro _
    | with_reducible first
      | assumption | exact hM.of (by decide)
    | with_reducible first
      | apply ifOpen_same | apply fenceCmd_same | apply fenceStore_same | apply sameO_next | apply sameO_ite
      | exact sameO_fault

theorem execFenceCmdLift_same {M : Nat} {s0 : State} {unit : Nat} {s : State} (hM : Sub 0x283bff787 M) (hs : Same M s0 s) :
    SameO M s0 (execFenceCmdLift unit s) := by
  unfold execFenceCmdLift
  try dsimp only
  repeat' first
    | intro _
    | with_reducible first
      | assumption | exact hM.of (by decide)
    | with_reducible first
      | apply ifOpen_same | apply fenceCmd_same | apply fenceStore_same | apply sameO_next | apply sameO_ite
      | exact sameO_fault

end Sys2Proof.Machine
end

