-- ==== Sys2Proof/Laws/SameStart.lean ====
section
/-! SUPPORT. What the operations of Machine/Start.lean leave as it is (`Same`). -/

namespace Sys2Proof.Machine

theorem resetTo_same {M : Nat} {s0 : State} {kind : Nat} {s : State} (hM : Sub 0x1fffffffff M) (hs : Same M s0 s) :
    Same M s0 (resetTo kind s) := by
  unfold resetTo
  try dsimp only
  repeat' first
    | intro _
    | with_reducible first
      | assumption | exact hM.of (by decide) | apply sameMk | exact Or.inl (hM.bit (by decide)) | exact Or.inr rfl
    | simp only [same_mk_iff]
    | with_reducible first
      | apply wr_same | apply same_ite | apply same_foldl

theorem execPowerOnReset_same {M : Nat} {s0 : State} {s : State} (hM : Sub 0x1fffffffff M) (hs : Same M s0 s) :
    SameO M s0 (execPowerOnReset s) := by
  unfold execPowerOnReset
  try dsimp only
  repeat' first
    | intro _
    | with_reducible first
      | assumption | exact hM.of (by decide)
    | with_reducible first
      | apply resetTo_same | apply sameO_next | apply sameO_ite | exact sameO_fault

theorem execPinReset_same {M : Nat} {s0 : State} {s : State} (hM : Sub 0x1fffffffff M) (hs : Same M s0 s) :
    SameO M s0 (execPinReset s) := by
  unfold execPinReset
  try dsimp only
  repeat' first
    | intro _
    | with_reducible first
      | assumption | exact hM.of (by decide)
    | with_reducible first
      | apply bump_same | apply resetTo_same | apply sameO_next | apply sameO_ite | exact sameO_fault
      | apply same_ite

theorem execBrownOutReset_same {M : Nat} {s0 : State} {x : RailAt} {s : State} (hM : Sub 0x1fffffffff M) (hs : Same M s0 s) :
    SameO M s0 (execBrownOutReset x s) := by
  unfold execBrownOutReset
  try dsimp only
  repeat' first
    | intro _
    | with_reducible first
      | assumption | exact hM.of (by decide)
    | with_reducible first
      | apply onUnit_same | apply wr_same | apply bump_same | apply resetTo_same | apply sameO_next
      | apply sameO_ite | exact sameO_fault | apply same_ite

theorem fusedRows_same {M : Nat} {s0 : State} {rows : List Nat} {s : State} (hM : Sub 0x1 M) (hs : Same M s0 s) :
    Same M s0 (fusedRows rows s) := by
  unfold fusedRows
  try dsimp only
  repeat' first
    | intro _
    | with_reducible first
      | assumption | exact hM.of (by decide)
    | with_reducible first
      | apply wr_same | apply bump_same | apply same_foldl

theorem loadFuses_same {M : Nat} {s0 : State} {s : State} (hM : Sub 0x1 M) (hs : Same M s0 s) :
    Same M s0 (loadFuses s) := by
  unfold loadFuses
  try dsimp only
  repeat' first
    | intro _
    | with_reducible first
      | assumption | exact hM.of (by decide)
    | with_reducible first
      | apply wr_same | apply wrB_same | apply fusedRows_same | apply same_foldl

theorem clearDie1_same {M : Nat} {s0 : State} {s : State} (hM : Sub 0x1 M) (hs : Same M s0 s) :
    Same M s0 (clearDie1 s) := by
  unfold clearDie1
  try dsimp only
  repeat' first
    | intro _
    | with_reducible first
      | assumption | exact hM.of (by decide)
    | with_reducible first
      | apply wr_same | apply same_ite

theorem latchStraps_same {M : Nat} {s0 : State} {v : Nat} {s : State} (hM : Sub 0x1 M) (hs : Same M s0 s) :
    Same M s0 (latchStraps v s) := by
  unfold latchStraps
  try dsimp only
  repeat' first
    | intro _
    | with_reducible first
      | assumption | exact hM.of (by decide)
    | with_reducible first
      | apply wr_same | apply wrB_same

theorem execResetRelease_same {M : Nat} {s0 : State} {straps : Nat} {s : State} (hM : Sub 0x1008000059 M) (hs : Same M s0 s) :
    SameO M s0 (execResetRelease straps s) := by
  unfold execResetRelease
  try dsimp only
  repeat' first
    | intro _
    | with_reducible first
      | assumption | exact hM.of (by decide) | apply sameMk | exact Or.inl (hM.bit (by decide)) | exact Or.inr rfl
    | simp only [same_mk_iff]
    | with_reducible first
      | apply wr_same | apply judgeStart_same | apply loadFuses_same | apply clearDie1_same
      | apply latchStraps_same | apply sameO_next | apply sameO_ite | exact sameO_fault | apply same_ite

theorem putDigest_same {M : Nat} {s0 : State} {f : Nat → Fld} {bytes : List Nat} {s : State} (hM : Sub 0x1 M) (hs : Same M s0 s) :
    Same M s0 (putDigest f bytes s) := by
  unfold putDigest
  try dsimp only
  repeat' first
    | intro _
    | with_reducible first
      | assumption | exact hM.of (by decide)
    | with_reducible first
      | apply wr_same | apply same_foldl

theorem startStep_same {M : Nat} {s0 : State} {n : Nat} {s : State} (hM : Sub 0x41 M) (hs : Same M s0 s) :
    Same M s0 (startStep n s) := by
  unfold startStep
  try dsimp only
  repeat' first
    | intro _
    | with_reducible first
      | assumption | exact hM.of (by decide) | apply sameMk | exact Or.inl (hM.bit (by decide)) | exact Or.inr rfl
    | simp only [same_mk_iff]
    | with_reducible first
      | apply wr_same

theorem enterCalibrate_same {M : Nat} {s0 : State} {s : State} (hM : Sub 0x200041 M) (hs : Same M s0 s) :
    Same M s0 (enterCalibrate s) := by
  unfold enterCalibrate
  try dsimp only
  repeat' first
    | intro _
    | with_reducible first
      | assumption | exact hM.of (by decide)
    | with_reducible first
      | apply calDue_same | apply standbySync_same | apply startFails_same | apply startStep_same | apply same_ite
      | apply same_foldl

theorem enterPost_same {M : Nat} {s0 : State} {s : State} (hM : Sub 0x200000041 M) (hs : Same M s0 s) :
    Same M s0 (enterPost s) := by
  unfold enterPost
  try dsimp only
  repeat' first
    | intro _
    | with_reducible first
      | assumption | exact hM.of (by decide) | apply sameMk | exact Or.inl (hM.bit (by decide)) | exact Or.inr rfl
    | simp only [same_mk_iff]
    | with_reducible first
      | apply postPause_same | apply startStep_same

theorem enterRepair_same {M : Nat} {s0 : State} {s : State} (hM : Sub 0x200000041 M) (hs : Same M s0 s) :
    Same M s0 (enterRepair s) := by
  unfold enterRepair
  try dsimp only
  repeat' first
    | intro _
    | with_reducible first
      | assumption | exact hM.of (by decide)
    | with_reducible first
      | apply wr_same | apply calClocks_same | apply startStep_same | apply enterPost_same | apply same_ite

theorem burnLog_same {M : Nat} {s0 : State} {s : State} (hM : Sub 0x200000021 M) (hs : Same M s0 s) :
    Same M s0 (burnLog s) := by
  unfold burnLog
  try dsimp only
  repeat' first
    | intro _
    | with_reducible first
      | assumption | exact hM.of (by decide) | apply sameMk | exact Or.inl (hM.bit (by decide)) | exact Or.inr rfl
    | simp only [same_mk_iff]
    | with_reducible first
      | apply wr_same | apply fusedRows_same

theorem postBank_same {M : Nat} {s0 : State} {d : Nat} {b : Nat} {rows : List Nat} {s : State} (hM : Sub 0x200000101 M) (hs : Same M s0 s) :
    Same M s0 (postBank d b rows s) := by
  unfold postBank
  try dsimp only
  repeat' first
    | intro _
    | with_reducible first
      | assumption | exact hM.of (by decide)
    | with_reducible first
      | apply repairRow_same | apply retireBank_same | apply same_ite | apply same_foldl

theorem postTime_same {M : Nat} {s0 : State} {s : State} (hM : Sub 0x1 M) (hs : Same M s0 s) :
    Same M s0 (postTime s) := by
  unfold postTime
  try dsimp only
  repeat' first
    | intro _
    | with_reducible first
      | assumption | exact hM.of (by decide)
    | with_reducible first
      | apply wr_same

theorem postRecord_same {M : Nat} {s0 : State} {r : PostEnd} {s : State} (hM : Sub 0x200000101 M) (hs : Same M s0 s) :
    Same M s0 (postRecord r s) := by
  unfold postRecord
  try dsimp only
  repeat' first
    | intro _
    | with_reducible first
      | assumption | exact hM.of (by decide)
    | with_reducible first
      | apply wr_same | apply postBank_same | apply postTime_same | apply same_foldl

theorem enterRing_same {M : Nat} {s0 : State} {s : State} (hM : Sub 0x30000041 M) (hs : Same M s0 s) :
    Same M s0 (enterRing s) := by
  unfold enterRing
  try dsimp only
  repeat' first
    | intro _
    | with_reducible first
      | assumption | exact hM.of (by decide)
    | with_reducible first
      | apply enumStart_same | apply startStep_same | apply same_ite

theorem afterTable_same {M : Nat} {s0 : State} {s : State} (hM : Sub 0x38000041 M) (hs : Same M s0 s) :
    Same M s0 (afterTable s) := by
  unfold afterTable
  try dsimp only
  repeat' first
    | intro _
    | with_reducible first
      | assumption | exact hM.of (by decide) | apply sameMk | exact Or.inl (hM.bit (by decide)) | exact Or.inr rfl
    | simp only [same_mk_iff]
    | with_reducible first
      | apply wr_same | apply judgeStart_same | apply startStep_same | apply enterRing_same | apply same_ite

theorem rejudgeFailed_same {M : Nat} {s0 : State} {s : State} (hM : Sub 0x208b30787 M) (hs : Same M s0 s) :
    Same M s0 (rejudgeFailed s) := by
  unfold rejudgeFailed
  try dsimp only
  repeat' first
    | intro _
    | with_reducible first
      | assumption | exact hM.of (by decide) | apply sameMk | exact Or.inl (hM.bit (by decide)) | exact Or.inr rfl
    | simp only [same_mk_iff]
    | with_reducible first
      | apply setPllRef_same | apply pllsWith_same | apply refclkBad_same | apply same_ite

theorem startRuns_same {M : Nat} {s0 : State} {runs : List (Nat × Nat × CalMeasure)} {s : State} (hM : Sub 0x200001 M) (hs : Same M s0 s) :
    Same M s0 (startRuns runs s) := by
  unfold startRuns
  try dsimp only
  repeat' first
    | intro _
    | with_reducible first
      | assumption | exact hM.of (by decide)
    | with_reducible first
      | apply calRunStart_same | apply calRunEnd_same | apply same_ite | apply same_foldl

theorem loadBegins_same {M : Nat} {s0 : State} {s : State} (hM : Sub 0x2000001 M) (hs : Same M s0 s) :
    Same M s0 (loadBegins s) := by
  unfold loadBegins
  try dsimp only
  repeat' first
    | intro _
    | with_reducible first
      | assumption | exact hM.of (by decide) | apply sameMk | exact Or.inl (hM.bit (by decide)) | exact Or.inr rfl
    | simp only [same_mk_iff]
    | with_reducible first
      | apply wr_same

theorem startStepEnd_same {M : Nat} {s0 : State} {res : StartEnd} {s : State} (hM : Sub 0x23ab307e7 M) (hs : Same M s0 s) :
    Same M s0 (startStepEnd res s) := by
  unfold startStepEnd
  try dsimp only
  repeat' first
    | intro _
    | with_reducible first
      | assumption | exact hM.of (by decide) | apply sameMk | exact Or.inl (hM.bit (by decide)) | exact Or.inr rfl
    | simp only [same_mk_iff]
    | with_reducible first
      | apply startFails_same | apply putDigest_same | apply startStep_same | apply enterCalibrate_same
      | apply enterPost_same | apply enterRepair_same | apply burnLog_same | apply postRecord_same
      | apply enterRing_same | apply afterTable_same | apply rejudgeFailed_same | apply startRuns_same
      | apply loadBegins_same | apply same_ite
    | split
    | with_reducible first
      | (apply same_pair; assumption) | (apply same_opt; assumption) | (apply same_triple; assumption)

theorem execStartStepEnd_same {M : Nat} {s0 : State} {res : StartEnd} {s : State} (hM : Sub 0x23ab307e7 M) (hs : Same M s0 s) :
    SameO M s0 (execStartStepEnd res s) := by
  unfold execStartStepEnd
  try dsimp only
  repeat' first
    | intro _
    | with_reducible first
      | assumption | exact hM.of (by decide) | apply sameMk | exact Or.inl (hM.bit (by decide)) | exact Or.inr rfl
    | simp only [same_mk_iff]
    | with_reducible first
      | apply freshOut_same | apply postRecord_same | apply startStepEnd_same | apply sameO_next | apply sameO_ite
      | exact sameO_fault | apply same_ite
    | split
    | with_reducible first
      | (apply same_pair; assumption) | (apply same_opt; assumption) | (apply same_triple; assumption)

theorem execRingWaitEnd_same {M : Nat} {s0 : State} {s : State} (hM : Sub 0x41 M) (hs : Same M s0 s) :
    SameO M s0 (execRingWaitEnd s) := by
  unfold execRingWaitEnd
  try dsimp only
  repeat' first
    | intro _
    | with_reducible first
      | assumption | exact hM.of (by decide)
    | with_reducible first
      | apply startStep_same | apply sameO_next | apply sameO_ite | exact sameO_fault | apply same_ite

theorem execPostPauseLimit_same {M : Nat} {s0 : State} {s : State} (hM : Sub 0x1 M) (hs : Same M s0 s) :
    SameO M s0 (execPostPauseLimit s) := by
  unfold execPostPauseLimit
  try dsimp only
  repeat' first
    | intro _
    | with_reducible first
      | assumption | exact hM.of (by decide)
    | with_reducible first
      | apply wr_same | apply startFails_same | apply postTime_same | apply sameO_next | apply sameO_ite
      | exact sameO_fault | apply same_ite

theorem execStartComplete_same {M : Nat} {s0 : State} {s : State} (hM : Sub 0x1290bff7c7 M) (hs : Same M s0 s) :
    SameO M s0 (execStartComplete s) := by
  unfold execStartComplete
  try dsimp only
  repeat' first
    | intro _
    | with_reducible first
      | assumption | exact hM.of (by decide) | apply sameMk | exact Or.inl (hM.bit (by decide)) | exact Or.inr rfl
    | simp only [same_mk_iff]
    | with_reducible first
      | apply wr_same | apply freshOut_same | apply sendReady_same | apply haltFenced_same | apply sameO_next
      | apply sameO_ite | exact sameO_fault | apply same_ite

theorem bootRelease_same {M : Nat} {s0 : State} {s : State} (hM : Sub 0x10000041 M) (hs : Same M s0 s) :
    Same M s0 (bootRelease s) := by
  unfold bootRelease
  try dsimp only
  repeat' first
    | intro _
    | with_reducible first
      | assumption | exact hM.of (by decide) | apply sameMk | exact Or.inl (hM.bit (by decide)) | exact Or.inr rfl
    | simp only [same_mk_iff]
    | with_reducible first
      | apply wr_same | apply sendReady_same | apply same_ite

theorem execBootRelease_same {M : Nat} {s0 : State} {s : State} (hM : Sub 0x10000041 M) (hs : Same M s0 s) :
    SameO M s0 (execBootRelease s) := by
  unfold execBootRelease
  try dsimp only
  repeat' first
    | intro _
    | with_reducible first
      | assumption | exact hM.of (by decide)
    | with_reducible first
      | apply ifOpen_same | apply freshOut_same | apply bootRelease_same | apply sameO_next | apply sameO_ite
      | exact sameO_fault

end Sys2Proof.Machine
end

