-- ==== Sys2Proof/Laws/SameBoardTable.lean ====
section
/-! SUPPORT. What the operations of Machine/BoardTable.lean leave as it is (`Same`). -/

namespace Sys2Proof.Machine

theorem putPreset_same {M : Nat} {s0 : State} {n : Nat} {rung : Nat} {r : List Nat} {s : State} (hM : Sub 0x1 M) (hs : Same M s0 s) :
    Same M s0 (putPreset n rung r s) := by
  unfold putPreset
  try dsimp only
  repeat' first
    | intro _
    | with_reducible first
      | assumption | exact hM.of (by decide)
    | with_reducible first
      | apply wr_same | apply same_foldl

theorem putPlanRecord_same {M : Nat} {s0 : State} {c : Nat} {r : List Nat} {now : Bool} {s : State} (hM : Sub 0x2000001 M) (hs : Same M s0 s) :
    Same M s0 (putPlanRecord c r now s) := by
  unfold putPlanRecord
  try dsimp only
  repeat' first
    | intro _
    | with_reducible first
      | assumption | exact hM.of (by decide) | apply sameMk | exact Or.inl (hM.bit (by decide)) | exact Or.inr rfl
    | simp only [same_mk_iff]
    | with_reducible first
      | apply standbySync_same | apply putPlan_same | apply same_ite

theorem putPolarity_same {M : Nat} {s0 : State} {n : Nat} {v : Nat} {now : Bool} {s : State} (hM : Sub 0x23d8001 M) (hs : Same M s0 s) :
    Same M s0 (putPolarity n v now s) := by
  unfold putPolarity
  try dsimp only
  repeat' first
    | intro _
    | with_reducible first
      | assumption | exact hM.of (by decide) | apply sameMk | exact Or.inl (hM.bit (by decide)) | exact Or.inr rfl
    | simp only [same_mk_iff]
    | with_reducible first
      | apply putPol_same | apply leCfgSide_same | apply same_ite | apply same_foldl

theorem putBoot_same {M : Nat} {s0 : State} {b : List Nat} {s : State} (hM : Sub 0x2000001 M) (hs : Same M s0 s) :
    Same M s0 (putBoot b s) := by
  unfold putBoot
  try dsimp only
  repeat' first
    | intro _
    | with_reducible first
      | assumption | exact hM.of (by decide) | apply sameMk | exact Or.inl (hM.bit (by decide)) | exact Or.inr rfl
    | simp only [same_mk_iff]
    | with_reducible first
      | apply wr_same | apply same_ite

theorem putSection_same {M : Nat} {s0 : State} {now : Bool} {img : List Nat} {s : State} {p : Nat × Nat} (hM : Sub 0x23d8001 M) (hs : Same M s0 s) :
    Same M s0 (putSection now img s p) := by
  unfold putSection
  try dsimp only
  repeat' first
    | intro _
    | with_reducible first
      | assumption | exact hM.of (by decide) | apply sameMk | exact Or.inl (hM.bit (by decide)) | exact Or.inr rfl
    | simp only [same_mk_iff]
    | with_reducible first
      | apply putPreset_same | apply putPlanRecord_same | apply putPolarity_same | apply same_ite
      | apply same_foldl
    | split
    | with_reducible first
      | (apply same_pair; assumption) | (apply same_opt; assumption) | (apply same_triple; assumption)

theorem btLive_same {M : Nat} {s0 : State} {image : Nat} {img : List Nat} {s : State} (hM : Sub 0x23d8001 M) (hs : Same M s0 s) :
    Same M s0 (btLive image img s) := by
  unfold btLive
  try dsimp only
  repeat' first
    | intro _
    | with_reducible first
      | assumption | exact hM.of (by decide) | apply sameMk | exact Or.inl (hM.bit (by decide)) | exact Or.inr rfl
    | simp only [same_mk_iff]
    | with_reducible first
      | apply wr_same | apply putDigest_same | apply putBoot_same | apply putSection_same | apply same_ite
      | apply same_foldl
    | split
    | with_reducible first
      | (apply same_pair; assumption) | (apply same_opt; assumption) | (apply same_triple; assumption)

theorem btDetail_same {M : Nat} {s0 : State} {r : BtResult} {s : State} (hM : Sub 0x1 M) (hs : Same M s0 s) :
    Same M s0 (btDetail r s) := by
  unfold btDetail
  try dsimp only
  repeat' first
    | intro _
    | with_reducible first
      | assumption | exact hM.of (by decide)
    | with_reducible first
      | apply wr_same

theorem btLoadDone_same {M : Nat} {s0 : State} {primary : List Nat} {backup : List Nat} {s : State} (hM : Sub 0x23d8001 M) (hs : Same M s0 s) :
    Same M s0 (btLoadDone primary backup s) := by
  unfold btLoadDone
  try dsimp only
  repeat' first
    | intro _
    | with_reducible first
      | assumption | exact hM.of (by decide) | apply sameMk | exact Or.inl (hM.bit (by decide)) | exact Or.inr rfl
    | simp only [same_mk_iff]
    | with_reducible first
      | apply wr_same | apply raise_same | apply btLive_same | apply btDetail_same | apply same_ite

theorem btLoad_same {M : Nat} {s0 : State} {s : State} (hM : Sub 0x2000001 M) (hs : Same M s0 s) :
    Same M s0 (btLoad s) := by
  unfold btLoad
  try dsimp only
  repeat' first
    | intro _
    | with_reducible first
      | assumption | exact hM.of (by decide)
    | with_reducible first
      | apply wr_same | apply loadBegins_same | apply same_ite

theorem execBtLoad_same {M : Nat} {s0 : State} {s : State} (hM : Sub 0x2000001 M) (hs : Same M s0 s) :
    SameO M s0 (execBtLoad s) := by
  unfold execBtLoad
  try dsimp only
  repeat' first
    | intro _
    | with_reducible first
      | assumption | exact hM.of (by decide)
    | with_reducible first
      | apply ifOpen_same | apply btLoad_same | apply sameO_next | apply sameO_ite | exact sameO_fault

theorem execBtLoadDone_same {M : Nat} {s0 : State} {primary : List Nat} {backup : List Nat} {s : State} (hM : Sub 0x23d8001 M) (hs : Same M s0 s) :
    SameO M s0 (execBtLoadDone primary backup s) := by
  unfold execBtLoadDone
  try dsimp only
  repeat' first
    | intro _
    | with_reducible first
      | assumption | exact hM.of (by decide)
    | with_reducible first
      | apply btLoadDone_same | apply sameO_next | apply sameO_ite | exact sameO_fault | apply same_ite

theorem fcStore_same {M : Nat} {s0 : State} {ctl : Nat} {s : State} (hM : Sub 0x1 M) (hs : Same M s0 s) :
    Same M s0 (fcStore ctl s) := by
  unfold fcStore
  try dsimp only
  repeat' first
    | intro _
    | with_reducible first
      | assumption | exact hM.of (by decide)
    | with_reducible first
      | apply wr_same | apply same_foldl

theorem flashCommand_same {M : Nat} {s0 : State} {ctl : Nat} {s : State} (hM : Sub 0x2000001 M) (hs : Same M s0 s) :
    Same M s0 (flashCommand ctl s) := by
  unfold flashCommand
  try dsimp only
  repeat' first
    | intro _
    | with_reducible first
      | assumption | exact hM.of (by decide) | apply sameMk | exact Or.inl (hM.bit (by decide)) | exact Or.inr rfl
    | simp only [same_mk_iff]
    | with_reducible first
      | apply wr_same | apply fcStore_same | apply same_ite

theorem execFlashCommand_same {M : Nat} {s0 : State} {ctl : Nat} {s : State} (hM : Sub 0x2000001 M) (hs : Same M s0 s) :
    SameO M s0 (execFlashCommand ctl s) := by
  unfold execFlashCommand
  try dsimp only
  repeat' first
    | intro _
    | with_reducible first
      | assumption | exact hM.of (by decide)
    | with_reducible first
      | apply ifOpen_same | apply flashCommand_same | apply sameO_next | apply sameO_ite | exact sameO_fault

theorem putFcByte_same {M : Nat} {s0 : State} {i : Nat} {v : Nat} {s : State} (hM : Sub 0x1 M) (hs : Same M s0 s) :
    Same M s0 (putFcByte i v s) := by
  unfold putFcByte
  try dsimp only
  repeat' first
    | intro _
    | with_reducible first
      | assumption | exact hM.of (by decide)
    | with_reducible first
      | apply wr_same

theorem execFlashCommandDone_same {M : Nat} {s0 : State} {reads : List Nat} {s : State} (hM : Sub 0x1 M) (hs : Same M s0 s) :
    SameO M s0 (execFlashCommandDone reads s) := by
  unfold execFlashCommandDone
  try dsimp only
  repeat' first
    | intro _
    | with_reducible first
      | assumption | exact hM.of (by decide)
    | with_reducible first
      | apply wr_same | apply putFcByte_same | apply sameO_next | apply sameO_ite | exact sameO_fault
      | apply same_ite | apply same_foldl

end Sys2Proof.Machine
end

