-- ==== Sys2Proof/Laws/SameBuffer.lean ====
section
/-! SUPPORT. What the operations of Machine/Buffer.lean leave as it is (`Same`). -/

namespace Sys2Proof.Machine

theorem banksFence_same {M : Nat} {s0 : State} {d : Nat} {s : State} (hM : Sub 0x280bff787 M) (hs : Same M s0 s) :
    Same M s0 (banksFence d s) := by
  unfold banksFence
  try dsimp only
  repeat' first
    | intro _
    | with_reducible first
      | assumption | exact hM.of (by decide)
    | with_reducible first
      | apply fenceDie_same | apply same_ite

theorem retireInService_same {M : Nat} {s0 : State} {d : Nat} {b : Nat} {s : State} (hM : Sub 0x281bff787 M) (hs : Same M s0 s) :
    Same M s0 (retireInService d b s) := by
  unfold retireInService
  try dsimp only
  repeat' first
    | intro _
    | with_reducible first
      | assumption | exact hM.of (by decide)
    | with_reducible first
      | apply retireBank_same | apply startRecheck_same | apply prkNotice_same | apply banksFence_same

theorem copyRead_same {M : Nat} {s0 : State} {r : Nat} {e : EccRead} {s : State} (hM : Sub 0x1783 M) (hs : Same M s0 s) :
    Same M s0 (copyRead r e s) := by
  unfold copyRead
  try dsimp only
  repeat' first
    | intro _
    | with_reducible first
      | assumption | exact hM.of (by decide) | apply sameMk | exact Or.inl (hM.bit (by decide)) | exact Or.inr rfl
    | simp only [same_mk_iff]
    | with_reducible first
      | apply readSlot_same | apply loseSlot_same | apply same_ite
    | split
    | with_reducible first
      | (apply same_pair; assumption) | (apply same_opt; assumption) | (apply same_triple; assumption)

theorem copyReads_same {M : Nat} {s0 : State} {d : Nat} {l : Nat} {reads : List (Nat × EccRead)} {s : State} (hM : Sub 0x1783 M) (hs : Same M s0 s) :
    Same M s0 (copyReads d l reads s) := by
  unfold copyReads
  try dsimp only
  repeat' first
    | intro _
    | with_reducible first
      | assumption | exact hM.of (by decide)
    | with_reducible first
      | apply copyRead_same | apply same_ite | apply same_foldl

theorem remirror_same {M : Nat} {s0 : State} {r : Nat} {e : EccRead} {s : State} (hM : Sub 0x1787 M) (hs : Same M s0 s) :
    Same M s0 (remirror r e s) := by
  unfold remirror
  try dsimp only
  repeat' first
    | intro _
    | with_reducible first
      | assumption | exact hM.of (by decide) | apply sameMk | exact Or.inl (hM.bit (by decide)) | exact Or.inr rfl
    | simp only [same_mk_iff]
    | with_reducible first
      | apply count_same | apply dieEvent_same | apply putSlot_same | apply allocSlot_same | apply relist_same
      | apply readSlot_same | apply loseSlot_same | apply same_ite | exact sameOpt_none | apply sameOpt_ite
    | split
    | with_reducible first
      | (apply same_pair; assumption) | (apply same_opt; assumption) | (apply same_triple; assumption)

theorem execRemirror_same {M : Nat} {s0 : State} {e : SlotAt} {read : EccRead} {s : State} (hM : Sub 0x1787 M) (hs : Same M s0 s) :
    SameO M s0 (execRemirror e read s) := by
  unfold execRemirror
  try dsimp only
  repeat' first
    | intro _
    | with_reducible first
      | assumption | exact hM.of (by decide)
    | with_reducible first
      | apply onUnit_same | apply remirror_same | apply sameO_next | apply sameO_ite | exact sameO_fault
      | apply same_ite

theorem execCeWindowEnd_same {M : Nat} {s0 : State} {die : Nat} {s : State} (hM : Sub 0x100 M) (hs : Same M s0 s) :
    SameO M s0 (execCeWindowEnd die s) := by
  unfold execCeWindowEnd
  try dsimp only
  repeat' first
    | intro _
    | with_reducible first
      | assumption | exact hM.of (by decide) | apply sameMk | exact Or.inl (hM.bit (by decide)) | exact Or.inr rfl
    | simp only [same_mk_iff]
    | with_reducible first
      | apply onUnit_same | apply putBuf_same | apply sameO_next | apply sameO_ite | exact sameO_fault
      | apply same_ite

theorem dropBad_same {M : Nat} {s0 : State} {d : Nat} {l : Nat} {s : State} (hM : Sub 0x80 M) (hs : Same M s0 s) :
    Same M s0 (dropBad d l s) := by
  unfold dropBad
  try dsimp only
  repeat' first
    | intro _
    | with_reducible first
      | assumption | exact hM.of (by decide)
    | with_reducible first
      | apply putSlot_same | apply same_foldl

theorem saveDone_same {M : Nat} {s0 : State} {d : Nat} {reads : List (Nat × EccRead)} {s : State} (hM : Sub 0x281bff787 M) (hs : Same M s0 s) :
    Same M s0 (saveDone d reads s) := by
  unfold saveDone
  try dsimp only
  repeat' first
    | intro _
    | with_reducible first
      | assumption | exact hM.of (by decide) | apply sameMk | exact Or.inl (hM.bit (by decide)) | exact Or.inr rfl
    | simp only [same_mk_iff]
    | with_reducible first
      | apply wr_same | apply count_same | apply setServes_same | apply setRot_same | apply rotIdle_same
      | apply testStopped_same | apply retireInService_same | apply copyReads_same | apply dropBad_same
      | apply same_ite | exact sameOpt_none | apply sameOpt_ite
    | split
    | with_reducible first
      | (apply same_pair; assumption) | (apply same_opt; assumption) | (apply same_triple; assumption)

theorem execBankSaveDone_same {M : Nat} {s0 : State} {x : BankReads} {s : State} (hM : Sub 0x281bff787 M) (hs : Same M s0 s) :
    SameO M s0 (execBankSaveDone x s) := by
  unfold execBankSaveDone
  try dsimp only
  repeat' first
    | intro _
    | with_reducible first
      | assumption | exact hM.of (by decide)
    | with_reducible first
      | apply onUnit_same | apply saveDone_same | apply sameO_next | apply sameO_ite | exact sameO_fault
      | apply same_ite

theorem returnBank_same {M : Nat} {s0 : State} {d : Nat} {bank : Nat} {s : State} (hM : Sub 0x1000101 M) (hs : Same M s0 s) :
    Same M s0 (returnBank d bank s) := by
  unfold returnBank
  try dsimp only
  repeat' first
    | intro _
    | with_reducible first
      | assumption | exact hM.of (by decide) | apply sameMk | exact Or.inl (hM.bit (by decide)) | exact Or.inr rfl
    | simp only [same_mk_iff]
    | with_reducible first
      | apply wr_same | apply setServes_same | apply prkNotice_same | apply same_ite | exact sameOpt_none
      | apply sameOpt_ite
    | split
    | with_reducible first
      | (apply same_pair; assumption) | (apply same_opt; assumption) | (apply same_triple; assumption)

theorem testEnd_same {M : Nat} {s0 : State} {d : Nat} {t : BankTest} {s : State} (hM : Sub 0x281bff787 M) (hs : Same M s0 s) :
    Same M s0 (testEnd d t s) := by
  unfold testEnd
  try dsimp only
  repeat' first
    | intro _
    | with_reducible first
      | assumption | exact hM.of (by decide) | apply sameMk | exact Or.inl (hM.bit (by decide)) | exact Or.inr rfl
    | simp only [same_mk_iff]
    | with_reducible first
      | apply wr_same | apply wrB_same | apply raise_same | apply repairRow_same | apply putBuf_same
      | apply setRot_same | apply bankRecord_same | apply suspectSlice_same | apply suspectClear_same
      | apply rotIdle_same | apply inPlaceBack_same | apply testCut_same | apply retireInService_same
      | apply returnBank_same | apply same_ite | apply same_foldl
    | split
    | with_reducible first
      | (apply same_pair; assumption) | (apply same_opt; assumption) | (apply same_triple; assumption)

theorem execBankTestEnd_same {M : Nat} {s0 : State} {die : Nat} {result : BankTest} {s : State} (hM : Sub 0x281bff787 M) (hs : Same M s0 s) :
    SameO M s0 (execBankTestEnd die result s) := by
  unfold execBankTestEnd
  try dsimp only
  repeat' first
    | intro _
    | with_reducible first
      | assumption | exact hM.of (by decide)
    | with_reducible first
      | apply onUnit_same | apply testEnd_same | apply sameO_next | apply sameO_ite | exact sameO_fault
      | apply same_ite

theorem restoreDone_same {M : Nat} {s0 : State} {d : Nat} {reads : List (Nat × EccRead)} {s : State} (hM : Sub 0x1783 M) (hs : Same M s0 s) :
    Same M s0 (restoreDone d reads s) := by
  unfold restoreDone
  try dsimp only
  repeat' first
    | intro _
    | with_reducible first
      | assumption | exact hM.of (by decide) | apply sameMk | exact Or.inl (hM.bit (by decide)) | exact Or.inr rfl
    | simp only [same_mk_iff]
    | with_reducible first
      | apply wr_same | apply count_same | apply raise_same | apply putBuf_same | apply setServes_same
      | apply suspectSlice_same | apply suspectClear_same | apply rotIdle_same | apply copyReads_same
      | apply dropBad_same | apply same_ite

theorem execBankRestoreDone_same {M : Nat} {s0 : State} {x : BankReads} {s : State} (hM : Sub 0x1783 M) (hs : Same M s0 s) :
    SameO M s0 (execBankRestoreDone x s) := by
  unfold execBankRestoreDone
  try dsimp only
  repeat' first
    | intro _
    | with_reducible first
      | assumption | exact hM.of (by decide)
    | with_reducible first
      | apply onUnit_same | apply restoreDone_same | apply sameO_next | apply sameO_ite | exact sameO_fault
      | apply same_ite

theorem moveSlot_same {M : Nat} {s0 : State} {l : Nat} {r : Nat} {s : State} (hM : Sub 0x1687 M) (hs : Same M s0 s) :
    Same M s0 (moveSlot l r s) := by
  unfold moveSlot
  try dsimp only
  repeat' first
    | intro _
    | with_reducible first
      | assumption | exact hM.of (by decide) | apply sameMk | exact Or.inl (hM.bit (by decide)) | exact Or.inr rfl
    | simp only [same_mk_iff]
    | with_reducible first
      | apply count_same | apply putSlot_same | apply allocSlot_same | apply relist_same
    | split
    | with_reducible first
      | (apply same_pair; assumption) | (apply same_opt; assumption) | (apply same_triple; assumption)

theorem evacuationDone_same {M : Nat} {s0 : State} {d : Nat} {reads : List (Nat × EccRead)} {s : State} (hM : Sub 0x1787 M) (hs : Same M s0 s) :
    Same M s0 (evacuationDone d reads s) := by
  unfold evacuationDone
  try dsimp only
  repeat' first
    | intro _
    | with_reducible first
      | assumption | exact hM.of (by decide) | apply sameMk | exact Or.inl (hM.bit (by decide)) | exact Or.inr rfl
    | simp only [same_mk_iff]
    | with_reducible first
      | apply wr_same | apply setServes_same | apply suspectSlice_same | apply rotIdle_same | apply copyReads_same
      | apply moveSlot_same | apply same_ite | apply same_foldl | exact sameOpt_none | apply sameOpt_ite
    | split
    | with_reducible first
      | (apply same_pair; assumption) | (apply same_opt; assumption) | (apply same_triple; assumption)

theorem execEvacuationDone_same {M : Nat} {s0 : State} {x : BankReads} {s : State} (hM : Sub 0x1787 M) (hs : Same M s0 s) :
    SameO M s0 (execEvacuationDone x s) := by
  unfold execEvacuationDone
  try dsimp only
  repeat' first
    | intro _
    | with_reducible first
      | assumption | exact hM.of (by decide)
    | with_reducible first
      | apply onUnit_same | apply evacuationDone_same | apply sameO_next | apply sameO_ite | exact sameO_fault
      | apply same_ite

theorem bufCmd_same {M : Nat} {s0 : State} {d : Nat} {op : Nat} {bank : Nat} {s : State} (hM : Sub 0x281bff787 M) (hs : Same M s0 s) :
    Same M s0 (bufCmd d op bank s) := by
  unfold bufCmd
  try dsimp only
  repeat' first
    | intro _
    | with_reducible first
      | assumption | exact hM.of (by decide)
    | with_reducible first
      | apply wr_same | apply sliceBegin_same | apply testBegin_same | apply retireInService_same | apply same_ite

theorem execBufRetire_same {M : Nat} {s0 : State} {die : Nat} {bank : Nat} {s : State} (hM : Sub 0x281bff787 M) (hs : Same M s0 s) :
    SameO M s0 (execBufRetire die bank s) := by
  unfold execBufRetire
  try dsimp only
  repeat' first
    | intro _
    | with_reducible first
      | assumption | exact hM.of (by decide)
    | with_reducible first
      | apply ifHas_same | apply bufCmd_same | apply sameO_next | apply sameO_ite | exact sameO_fault

theorem execBufReturn_same {M : Nat} {s0 : State} {die : Nat} {bank : Nat} {s : State} (hM : Sub 0x281bff787 M) (hs : Same M s0 s) :
    SameO M s0 (execBufReturn die bank s) := by
  unfold execBufReturn
  try dsimp only
  repeat' first
    | intro _
    | with_reducible first
      | assumption | exact hM.of (by decide)
    | with_reducible first
      | apply ifHas_same | apply bufCmd_same | apply sameO_next | apply sameO_ite | exact sameO_fault

theorem execBufTestNow_same {M : Nat} {s0 : State} {die : Nat} {bank : Nat} {s : State} (hM : Sub 0x281bff787 M) (hs : Same M s0 s) :
    SameO M s0 (execBufTestNow die bank s) := by
  unfold execBufTestNow
  try dsimp only
  repeat' first
    | intro _
    | with_reducible first
      | assumption | exact hM.of (by decide)
    | with_reducible first
      | apply ifHas_same | apply bufCmd_same | apply sameO_next | apply sameO_ite | exact sameO_fault

theorem bufSnap_same {M : Nat} {s0 : State} {d : Nat} {s : State} (hM : Sub 0x40000001 M) (hs : Same M s0 s) :
    Same M s0 (bufSnap d s) := by
  unfold bufSnap
  try dsimp only
  repeat' first
    | intro _
    | with_reducible first
      | assumption | exact hM.of (by decide)
    | with_reducible first
      | apply bumpWrap_same | apply latchAll_same | apply answerWord_same

theorem execBufSnap_same {M : Nat} {s0 : State} {die : Nat} {s : State} (hM : Sub 0x40000001 M) (hs : Same M s0 s) :
    SameO M s0 (execBufSnap die s) := by
  unfold execBufSnap
  try dsimp only
  repeat' first
    | intro _
    | with_reducible first
      | assumption | exact hM.of (by decide)
    | with_reducible first
      | apply ifHas_same | apply answerWord_same | apply bufSnap_same | apply sameO_next | apply sameO_ite
      | exact sameO_fault

theorem bufClr_same {M : Nat} {s0 : State} {d : Nat} {s : State} (hM : Sub 0x3 M) (hs : Same M s0 s) :
    Same M s0 (bufClr d s) := by
  unfold bufClr
  try dsimp only
  repeat' first
    | intro _
    | with_reducible first
      | assumption | exact hM.of (by decide)
    | with_reducible first
      | apply wr_same | apply zeroLive_same

theorem execBufClr_same {M : Nat} {s0 : State} {die : Nat} {s : State} (hM : Sub 0x3 M) (hs : Same M s0 s) :
    SameO M s0 (execBufClr die s) := by
  unfold execBufClr
  try dsimp only
  repeat' first
    | intro _
    | with_reducible first
      | assumption | exact hM.of (by decide)
    | with_reducible first
      | apply ifHas_same | apply bufClr_same | apply sameO_next | apply sameO_ite | exact sameO_fault

theorem descSel_same {M : Nat} {s0 : State} {d : Nat} {addr : Nat} {s : State} (hM : Sub 0x1 M) (hs : Same M s0 s) :
    Same M s0 (descSel d addr s) := by
  unfold descSel
  try dsimp only
  repeat' first
    | intro _
    | with_reducible first
      | assumption | exact hM.of (by decide)
    | with_reducible first
      | apply wr_same | apply same_ite | apply same_foldl

theorem execDescSelWrite_same {M : Nat} {s0 : State} {die : Nat} {addr : Nat} {s : State} (hM : Sub 0x1 M) (hs : Same M s0 s) :
    SameO M s0 (execDescSelWrite die addr s) := by
  unfold execDescSelWrite
  try dsimp only
  repeat' first
    | intro _
    | with_reducible first
      | assumption | exact hM.of (by decide)
    | with_reducible first
      | apply ifHas_same | apply descSel_same | apply sameO_next | apply sameO_ite | exact sameO_fault

end Sys2Proof.Machine
end

