-- ==== Sys2Proof/Laws/SameDarning.lean ====
section
/-! SUPPORT. What the operations of Machine/Darning.lean leave as it is (`Same`). -/

namespace Sys2Proof.Machine

theorem execDarnTimerExpiry_same {M : Nat} {s0 : State} {f : Nat} {s : State} (hM : Sub 0x283 M) (hs : Same M s0 s) :
    SameO M s0 (execDarnTimerExpiry f s) := by
  unfold execDarnTimerExpiry
  try dsimp only
  repeat' first
    | intro _
    | with_reducible first
      | assumption | exact hM.of (by decide)
    | with_reducible first
      | apply onUnit_same | apply darnExpire_same | apply sameO_next | apply sameO_ite | exact sameO_fault
      | apply same_ite

theorem execDarnSnap_same {M : Nat} {s0 : State} {k : Nat} {s : State} (hM : Sub 0x40000001 M) (hs : Same M s0 s) :
    SameO M s0 (execDarnSnap k s) := by
  unfold execDarnSnap
  try dsimp only
  repeat' first
    | intro _
    | with_reducible first
      | assumption | exact hM.of (by decide)
    | with_reducible first
      | apply bumpWrap_same | apply latchAll_same | apply latchAll64_same | apply ifHas_same
      | apply answerWord_same | apply sameO_next | apply sameO_ite | exact sameO_fault | apply same_ite

theorem execDarnClr_same {M : Nat} {s0 : State} {k : Nat} {s : State} (hM : Sub 0x2 M) (hs : Same M s0 s) :
    SameO M s0 (execDarnClr k s) := by
  unfold execDarnClr
  try dsimp only
  repeat' first
    | intro _
    | with_reducible first
      | assumption | exact hM.of (by decide)
    | with_reducible first
      | apply zeroLive_same | apply ifHas_same | apply sameO_next | apply sameO_ite | exact sameO_fault

end Sys2Proof.Machine
end

