-- ==== Sys2Proof/Laws/SameHearing.lean ====
section
/-! SUPPORT. What the operations of Machine/Hearing.lean leave as it is (`Same`). -/

namespace Sys2Proof.Machine

theorem badSymbols_same {M : Nat} {s0 : State} {n : Nat} {sd : Side} {syms : List Sym} {s : State} (hM : Sub 0x8002 M) (hs : Same M s0 s) :
    Same M s0 (badSymbols n sd syms s) := by
  unfold badSymbols
  try dsimp only
  repeat' first
    | intro _
    | with_reducible first
      | assumption | exact hM.of (by decide) | apply sameMk | exact Or.inl (hM.bit (by decide)) | exact Or.inr rfl
    | simp only [same_mk_iff]
    | with_reducible first
      | apply countBy_same | apply putRx_same | apply same_ite

theorem t0Decides_same {M : Nat} {s0 : State} {n : Nat} {sd : Side} {t0 : Option Nat} {s : State} (hM : Sub 0x8001 M) (hs : Same M s0 s) :
    Same M s0 (t0Decides n sd t0 s) := by
  unfold t0Decides
  try dsimp only
  repeat' first
    | intro _
    | with_reducible first
      | assumption | exact hM.of (by decide) | apply sameMk | exact Or.inl (hM.bit (by decide)) | exact Or.inr rfl
    | simp only [same_mk_iff]
    | with_reducible first
      | apply wrB_same | apply wired_same | apply putRx_same | apply same_ite | exact sameOpt_none
      | apply sameOpt_ite
    | split
    | with_reducible first
      | (apply same_pair; assumption) | (apply same_opt; assumption) | (apply same_triple; assumption)

theorem laneHears_same {M : Nat} {s0 : State} {n : Nat} {sd : Side} {codes : List Nat} {s : State} (hM : Sub 0x8003 M) (hs : Same M s0 s) :
    Same M s0 (laneHears n sd codes s) := by
  unfold laneHears
  try dsimp only
  repeat' first
    | intro _
    | with_reducible first
      | assumption | exact hM.of (by decide) | apply sameMk | exact Or.inl (hM.bit (by decide)) | exact Or.inr rfl
    | simp only [same_mk_iff]
    | with_reducible first
      | apply putRx_same | apply badSymbols_same | apply t0Decides_same

theorem lossCheck_same {M : Nat} {s0 : State} {ends : List Nat} {sd : Side} {s : State} (hM : Sub 0x282bff687 M) (hs : Same M s0 s) :
    Same M s0 (lossCheck ends sd s) := by
  unfold lossCheck
  try dsimp only
  repeat' first
    | intro _
    | with_reducible first
      | assumption | exact hM.of (by decide)
    | with_reducible first
      | apply locksLost_same

theorem slicesHeard_same {M : Nat} {s0 : State} {k : Nat} {sd : Side} {slices : List (List Nat)} {s : State} (hM : Sub 0x282bff687 M) (hs : Same M s0 s) :
    Same M s0 (slicesHeard k sd slices s) := by
  unfold slicesHeard
  try dsimp only
  repeat' first
    | intro _
    | with_reducible first
      | assumption | exact hM.of (by decide)
    | with_reducible first
      | apply laneHears_same | apply lossCheck_same | apply same_foldl

theorem copyArrives_same {M : Nat} {s0 : State} {α : Type} {n : Nat} {sd : Side} {c : Copy α} {s : State} (hM : Sub 0x8002 M) (hs : Same M s0 s) :
    Same M s0 (copyArrives n sd c s) := by
  unfold copyArrives
  try dsimp only
  repeat' first
    | intro _
    | with_reducible first
      | assumption | exact hM.of (by decide) | apply sameMk | exact Or.inl (hM.bit (by decide)) | exact Or.inr rfl
    | simp only [same_mk_iff]
    | with_reducible first
      | apply count_same | apply putRx_same | apply same_ite
    | split
    | with_reducible first
      | (apply same_pair; assumption) | (apply same_opt; assumption) | (apply same_triple; assumption)

theorem rxBoundary_same {M : Nat} {s0 : State} {n : Nat} {sd : Side} {s : State} (hM : Sub 0x388001 M) (hs : Same M s0 s) :
    Same M s0 (rxBoundary n sd s) := by
  unfold rxBoundary
  try dsimp only
  repeat' first
    | intro _
    | with_reducible first
      | assumption | exact hM.of (by decide) | apply sameMk | exact Or.inl (hM.bit (by decide)) | exact Or.inr rfl
    | simp only [same_mk_iff]
    | with_reducible first
      | apply wrB_same | apply putRx_same | apply polRestart_same
    | split
    | with_reducible first
      | (apply same_pair; assumption) | (apply same_opt; assumption) | (apply same_triple; assumption)

theorem setHeard_same {M : Nat} {s0 : State} {α : Type} [DecidableEq α] {read : List Sym → Option α} {k : Nat} {sd : Side} {heard : List Heard} {s : State} (hM : Sub 0x282bff687 M) (hs : Same M s0 s) :
    Same M s0 (setHeard read k sd heard s) := by
  unfold setHeard
  try dsimp only
  repeat' first
    | intro _
    | with_reducible first
      | assumption | exact hM.of (by decide)
    | with_reducible first
      | apply count_same | apply laneHears_same | apply lossCheck_same | apply copyArrives_same
      | apply rxBoundary_same | apply same_ite | apply same_foldl

theorem setArrives_same {M : Nat} {s0 : State} {α : Type} [DecidableEq α] {read : List Sym → Option α} {k : Nat} {sd : Side} {heard : List Heard} {s : State} (hM : Sub 0x282bff687 M) (hs : Same M s0 s) :
    Same M s0 (setArrives read k sd heard s).2 := by
  unfold setArrives
  try dsimp only
  repeat' first
    | intro _
    | with_reducible first
      | assumption | exact hM.of (by decide)
    | with_reducible first
      | apply setHeard_same

end Sys2Proof.Machine
end

