-- ==== Sys2Proof/Laws/SameTrunk.lean ====
section
/-! SUPPORT. What the operations of Machine/Trunk.lean leave as it is (`Same`). -/

namespace Sys2Proof.Machine

theorem drnReceive_same {M : Nat} {s0 : State} {k : Nat} {sd : Side} {heard : List Heard} {kind : Nat} {act : Nat → DrnSet → State → State} {s : State} (hM : Sub 0x282bff687 M) (hact : ∀ y0 y1 y2, Same M s0 y2 → Same M s0 (act y0 y1 y2)) (hs : Same M s0 s) :
    Same M s0 (drnReceive k sd heard kind act s) := by
  unfold drnReceive
  try dsimp only
  repeat' first
    | intro _
    | with_reducible first
      | assumption | exact hM.of (by decide) | apply sameMk | exact Or.inl (hM.bit (by decide)) | exact Or.inr rfl
    | simp only [same_mk_iff]
    | with_reducible first
      | apply countTrunk_same | apply setArrives_same | apply hact | apply same_ite | exact sameOpt_none
      | apply sameOpt_ite
    | split
    | with_reducible first
      | (apply same_pair; assumption) | (apply same_opt; assumption) | (apply same_triple; assumption)

theorem execDrnAckReceive_same {M : Nat} {s0 : State} {k : Nat} {sd : Side} {heard : List Heard} {s : State} (hM : Sub 0x282bff687 M) (hs : Same M s0 s) :
    SameO M s0 (execDrnAckReceive k sd heard s) := by
  unfold execDrnAckReceive
  try dsimp only
  repeat' first
    | intro _
    | with_reducible first
      | assumption | exact hM.of (by decide)
    | with_reducible first
      | apply onUnit_same | apply drnAck_same | apply drnReceive_same | apply sameO_next | apply sameO_ite
      | exact sameO_fault

theorem execDrnNakReceive_same {M : Nat} {s0 : State} {k : Nat} {sd : Side} {heard : List Heard} {s : State} (hM : Sub 0x282bff687 M) (hs : Same M s0 s) :
    SameO M s0 (execDrnNakReceive k sd heard s) := by
  unfold execDrnNakReceive
  try dsimp only
  repeat' first
    | intro _
    | with_reducible first
      | assumption | exact hM.of (by decide) | apply sameMk | exact Or.inl (hM.bit (by decide)) | exact Or.inr rfl
    | simp only [same_mk_iff]
    | with_reducible first
      | apply onUnit_same | apply modTrunk_same | apply countTrunk_same | apply drnNak_same
      | apply drnReceive_same | apply sameO_next | apply sameO_ite | exact sameO_fault | apply same_ite

theorem execDrnProbeReceive_same {M : Nat} {s0 : State} {k : Nat} {sd : Side} {heard : List Heard} {turn : Nat} {s : State} (hM : Sub 0x282bff687 M) (hs : Same M s0 s) :
    SameO M s0 (execDrnProbeReceive k sd heard turn s) := by
  unfold execDrnProbeReceive
  try dsimp only
  repeat' first
    | intro _
    | with_reducible first
      | assumption | exact hM.of (by decide) | apply sameMk | exact Or.inl (hM.bit (by decide)) | exact Or.inr rfl
    | simp only [same_mk_iff]
    | with_reducible first
      | apply onUnit_same | apply modTrunk_same | apply drnReceive_same | apply sameO_next | apply sameO_ite
      | exact sameO_fault

theorem probeSample_same {M : Nat} {s0 : State} {t : Nat} {n : Nat} {s : State} (hM : Sub 0x1000401 M) (hs : Same M s0 s) :
    Same M s0 (probeSample t n s) := by
  unfold probeSample
  try dsimp only
  repeat' first
    | intro _
    | with_reducible first
      | assumption | exact hM.of (by decide) | apply sameMk | exact Or.inl (hM.bit (by decide)) | exact Or.inr rfl
    | simp only [same_mk_iff]
    | with_reducible first
      | apply wr_same | apply modTrunk_same | apply startRecheck_same | apply same_ite

theorem execDrnEchoReceive_same {M : Nat} {s0 : State} {k : Nat} {sd : Side} {heard : List Heard} {elapsed : Nat} {s : State} (hM : Sub 0x283bff687 M) (hs : Same M s0 s) :
    SameO M s0 (execDrnEchoReceive k sd heard elapsed s) := by
  unfold execDrnEchoReceive
  try dsimp only
  repeat' first
    | intro _
    | with_reducible first
      | assumption | exact hM.of (by decide) | apply sameMk | exact Or.inl (hM.bit (by decide)) | exact Or.inr rfl
    | simp only [same_mk_iff]
    | with_reducible first
      | apply onUnit_same | apply drnReceive_same | apply probeSample_same | apply sameO_next | apply sameO_ite
      | exact sameO_fault | apply same_ite | exact sameOpt_none | apply sameOpt_ite
    | split
    | with_reducible first
      | (apply same_pair; assumption) | (apply same_opt; assumption) | (apply same_triple; assumption)

theorem spanExpire_same {M : Nat} {s0 : State} {t : Nat} {s : State} (hM : Sub 0x82bff683 M) (hs : Same M s0 s) :
    Same M s0 (spanExpire t s) := by
  unfold spanExpire
  try dsimp only
  repeat' first
    | intro _
    | with_reducible first
      | assumption | exact hM.of (by decide) | apply sameMk | exact Or.inl (hM.bit (by decide)) | exact Or.inr rfl
    | simp only [same_mk_iff]
    | with_reducible first
      | apply putTrunk_same | apply trunkEvent_same | apply countTrunk_same | apply trunkRun_same
      | apply retrain_same | apply same_ite

theorem execSpanTimerExpiry_same {M : Nat} {s0 : State} {t : Nat} {s : State} (hM : Sub 0x82bff683 M) (hs : Same M s0 s) :
    SameO M s0 (execSpanTimerExpiry t s) := by
  unfold execSpanTimerExpiry
  try dsimp only
  repeat' first
    | intro _
    | with_reducible first
      | assumption | exact hM.of (by decide)
    | with_reducible first
      | apply onUnit_same | apply spanExpire_same | apply sameO_next | apply sameO_ite | exact sameO_fault
      | apply same_ite

theorem execDrnAckTimer_same {M : Nat} {s0 : State} {t : Nat} {s : State} (hM : Sub 0x482 M) (hs : Same M s0 s) :
    SameO M s0 (execDrnAckTimer t s) := by
  unfold execDrnAckTimer
  try dsimp only
  repeat' first
    | intro _
    | with_reducible first
      | assumption | exact hM.of (by decide)
    | with_reducible first
      | apply onUnit_same | apply postDrnAck_same | apply sameO_next | apply sameO_ite | exact sameO_fault
      | apply same_ite

theorem execProbeInterval_same {M : Nat} {s0 : State} {t : Nat} {s : State} (hM : Sub 0x400 M) (hs : Same M s0 s) :
    SameO M s0 (execProbeInterval t s) := by
  unfold execProbeInterval
  try dsimp only
  repeat' first
    | intro _
    | with_reducible first
      | assumption | exact hM.of (by decide) | apply sameMk | exact Or.inl (hM.bit (by decide)) | exact Or.inr rfl
    | simp only [same_mk_iff]
    | with_reducible first
      | apply onUnit_same | apply modTrunk_same | apply sameO_next | apply sameO_ite | exact sameO_fault
      | apply same_ite

theorem execProbeWaitExpiry_same {M : Nat} {s0 : State} {t : Nat} {s : State} (hM : Sub 0x400 M) (hs : Same M s0 s) :
    SameO M s0 (execProbeWaitExpiry t s) := by
  unfold execProbeWaitExpiry
  try dsimp only
  repeat' first
    | intro _
    | with_reducible first
      | assumption | exact hM.of (by decide) | apply sameMk | exact Or.inl (hM.bit (by decide)) | exact Or.inr rfl
    | simp only [same_mk_iff]
    | with_reducible first
      | apply onUnit_same | apply modTrunk_same | apply sameO_next | apply sameO_ite | exact sameO_fault
      | apply same_ite

theorem execProxyAckTimer_same {M : Nat} {s0 : State} {f : Nat} {s : State} (hM : Sub 0x1002 M) (hs : Same M s0 s) :
    SameO M s0 (execProxyAckTimer f s) := by
  unfold execProxyAckTimer
  try dsimp only
  repeat' first
    | intro _
    | with_reducible first
      | assumption | exact hM.of (by decide)
    | with_reducible first
      | apply onUnit_same | apply postProxy_same | apply sameO_next | apply sameO_ite | exact sameO_fault
      | apply same_ite

theorem execTrunkAckRefresh_same {M : Nat} {s0 : State} {k : Nat} {s : State} (hM : Sub 0x1402 M) (hs : Same M s0 s) :
    SameO M s0 (execTrunkAckRefresh k s) := by
  unfold execTrunkAckRefresh
  try dsimp only
  repeat' first
    | intro _
    | with_reducible first
      | assumption | exact hM.of (by decide)
    | with_reducible first
      | apply onUnit_same | apply postTrunkAck_same | apply sameO_next | apply sameO_ite | exact sameO_fault
      | apply same_ite

theorem execTrkSnap_same {M : Nat} {s0 : State} {k : Nat} {s : State} (hM : Sub 0x40000001 M) (hs : Same M s0 s) :
    SameO M s0 (execTrkSnap k s) := by
  unfold execTrkSnap
  try dsimp only
  repeat' first
    | intro _
    | with_reducible first
      | assumption | exact hM.of (by decide)
    | with_reducible first
      | apply bumpWrap_same | apply latch64_same | apply latchAll_same | apply ifHas_same | apply answerWord_same
      | apply sameO_next | apply sameO_ite | exact sameO_fault | apply same_ite

theorem execTrkClr_same {M : Nat} {s0 : State} {k : Nat} {s : State} (hM : Sub 0x2 M) (hs : Same M s0 s) :
    SameO M s0 (execTrkClr k s) := by
  unfold execTrkClr
  try dsimp only
  repeat' first
    | intro _
    | with_reducible first
      | assumption | exact hM.of (by decide)
    | with_reducible first
      | apply zeroLive_same | apply ifHas_same | apply sameO_next | apply sameO_ite | exact sameO_fault

end Sys2Proof.Machine
end

