-- ==== Sys2Proof/Laws/SameBundle.lean ====
section
/-! SUPPORT. What the operations of Machine/Bundle.lean leave as it is (`Same`). -/

namespace Sys2Proof.Machine

theorem execControlFlitDue_same {M : Nat} {s0 : State} {t : Nat} {s : State} (hM : Sub 0x600 M) (hs : Same M s0 s) :
    SameO M s0 (execControlFlitDue t s) := by
  unfold execControlFlitDue
  try dsimp only
  repeat' first
    | intro _
    | with_reducible first
      | assumption | exact hM.of (by decide) | apply sameMk | exact Or.inl (hM.bit (by decide)) | exact Or.inr rfl
    | simp only [same_mk_iff]
    | with_reducible first
      | apply onUnit_same | apply modTrunk_same | apply owedAcks_same | apply sameO_next | apply sameO_ite
      | exact sameO_fault | apply same_ite

theorem execLlTornWindowEnd_same {M : Nat} {s0 : State} {l : Nat} {s : State} (hM : Sub 0x800 M) (hs : Same M s0 s) :
    SameO M s0 (execLlTornWindowEnd l s) := by
  unfold execLlTornWindowEnd
  try dsimp only
  repeat' first
    | intro _
    | with_reducible first
      | assumption | exact hM.of (by decide) | apply sameMk | exact Or.inl (hM.bit (by decide)) | exact Or.inr rfl
    | simp only [same_mk_iff]
    | with_reducible first
      | apply onUnit_same | apply putLl_same | apply sameO_next | apply sameO_ite | exact sameO_fault
      | apply same_ite

theorem execLlDrainEnd_same {M : Nat} {s0 : State} {l : Nat} {s : State} (hM : Sub 0xa83 M) (hs : Same M s0 s) :
    SameO M s0 (execLlDrainEnd l s) := by
  unfold execLlDrainEnd
  try dsimp only
  repeat' first
    | intro _
    | with_reducible first
      | assumption | exact hM.of (by decide) | apply sameMk | exact Or.inl (hM.bit (by decide)) | exact Or.inr rfl
    | simp only [same_mk_iff]
    | with_reducible first
      | apply onUnit_same | apply putLl_same | apply dropFlow_same | apply sameO_next | apply sameO_ite
      | exact sameO_fault | apply same_ite

theorem execLlCacheRefresh_same {M : Nat} {s0 : State} {cache : Nat} {s : State} (hM : Sub 0x800 M) (hs : Same M s0 s) :
    SameO M s0 (execLlCacheRefresh cache s) := by
  unfold execLlCacheRefresh
  try dsimp only
  repeat' first
    | intro _
    | with_reducible first
      | assumption | exact hM.of (by decide) | apply sameMk | exact Or.inl (hM.bit (by decide)) | exact Or.inr rfl
    | simp only [same_mk_iff]
    | with_reducible first
      | apply onUnit_same | apply putLl_same | apply sameO_next | apply sameO_ite | exact sameO_fault
      | apply same_foldl

theorem execLlSnap_same {M : Nat} {s0 : State} {p : Nat} {s : State} (hM : Sub 0x40000001 M) (hs : Same M s0 s) :
    SameO M s0 (execLlSnap p s) := by
  unfold execLlSnap
  try dsimp only
  repeat' first
    | intro _
    | with_reducible first
      | assumption | exact hM.of (by decide)
    | with_reducible first
      | apply bumpWrap_same | apply latchAll_same | apply ifHas_same | apply answerWord_same | apply sameO_next
      | apply sameO_ite | exact sameO_fault

theorem execLlClr_same {M : Nat} {s0 : State} {p : Nat} {s : State} (hM : Sub 0x2 M) (hs : Same M s0 s) :
    SameO M s0 (execLlClr p s) := by
  unfold execLlClr
  try dsimp only
  repeat' first
    | intro _
    | with_reducible first
      | assumption | exact hM.of (by decide)
    | with_reducible first
      | apply zeroLive_same | apply ifHas_same | apply sameO_next | apply sameO_ite | exact sameO_fault

theorem execCalSnap_same {M : Nat} {s0 : State} {cal : Nat} {s : State} (hM : Sub 0x40000001 M) (hs : Same M s0 s) :
    SameO M s0 (execCalSnap cal s) := by
  unfold execCalSnap
  try dsimp only
  repeat' first
    | intro _
    | with_reducible first
      | assumption | exact hM.of (by decide)
    | with_reducible first
      | apply bumpWrap_same | apply latchAll_same | apply ifHas_same | apply answerWord_same | apply sameO_next
      | apply sameO_ite | exact sameO_fault

theorem execCalClr_same {M : Nat} {s0 : State} {cal : Nat} {s : State} (hM : Sub 0x2 M) (hs : Same M s0 s) :
    SameO M s0 (execCalClr cal s) := by
  unfold execCalClr
  try dsimp only
  repeat' first
    | intro _
    | with_reducible first
      | assumption | exact hM.of (by decide)
    | with_reducible first
      | apply zeroLive_same | apply ifHas_same | apply sameO_next | apply sameO_ite | exact sameO_fault

theorem qstSelect_same {M : Nat} {s0 : State} {d : Nat} {q : Nat} {s : State} (hM : Sub 0x1 M) (hs : Same M s0 s) :
    Same M s0 (qstSelect d q s) := by
  unfold qstSelect
  try dsimp only
  repeat' first
    | intro _
    | with_reducible first
      | assumption | exact hM.of (by decide)
    | with_reducible first
      | apply wr_same | apply wrB_same

theorem execQstSelWrite_same {M : Nat} {s0 : State} {die : Nat} {queue : Nat} {s : State} (hM : Sub 0x1 M) (hs : Same M s0 s) :
    SameO M s0 (execQstSelWrite die queue s) := by
  unfold execQstSelWrite
  try dsimp only
  repeat' first
    | intro _
    | with_reducible first
      | assumption | exact hM.of (by decide)
    | with_reducible first
      | apply ifHas_same | apply qstSelect_same | apply sameO_next | apply sameO_ite | exact sameO_fault

end Sys2Proof.Machine
end

