-- ==== Sys2Proof/Laws/SameClocking.lean ====
section
/-! SUPPORT. What the operations of Machine/Clocking.lean leave as it is (`Same`). -/

namespace Sys2Proof.Machine

theorem execClockDutyInvert_same {M : Nat} {s0 : State} {c : Nat} {d : Dir} {s : State} (hM : Sub 0x1 M) (hs : Same M s0 s) :
    SameO M s0 (execClockDutyInvert c d s) := by
  unfold execClockDutyInvert
  try dsimp only
  repeat' first
    | intro _
    | with_reducible first
      | assumption | exact hM.of (by decide)
    | with_reducible first
      | apply onUnit_same | apply wr_same | apply wired_same | apply sameO_next | apply sameO_ite
      | exact sameO_fault | apply same_ite

theorem switchStart_same {M : Nat} {s0 : State} {c : Nat} {d : Dir} {s : State} (hM : Sub 0x3a9683 M) (hs : Same M s0 s) :
    Same M s0 (switchStart c d s) := by
  unfold switchStart
  try dsimp only
  repeat' first
    | intro _
    | with_reducible first
      | assumption | exact hM.of (by decide)
    | with_reducible first
      | apply switchOne_same | apply same_foldl

theorem clockLost_same {M : Nat} {s0 : State} {c : Nat} {d : Dir} {s : State} (hM : Sub 0x3f9683 M) (hs : Same M s0 s) :
    Same M s0 (clockLost c d s) := by
  unfold clockLost
  try dsimp only
  repeat' first
    | intro _
    | with_reducible first
      | assumption | exact hM.of (by decide) | apply sameMk | exact Or.inl (hM.bit (by decide)) | exact Or.inr rfl
    | simp only [same_mk_iff]
    | with_reducible first
      | apply wr_same | apply raise_same | apply putCk_same | apply putCkEntry_same | apply borrowStart_same
      | apply switchStart_same | apply same_ite

theorem execClockLaneQualified_same {M : Nat} {s0 : State} {e : ClockEnd} {x : ClockSensed} {s : State} (hM : Sub 0x82bff683 M) (hs : Same M s0 s) :
    SameO M s0 (execClockLaneQualified e x s) := by
  unfold execClockLaneQualified
  try dsimp only
  repeat' first
    | intro _
    | with_reducible first
      | assumption | exact hM.of (by decide) | apply sameMk | exact Or.inl (hM.bit (by decide)) | exact Or.inr rfl
    | simp only [same_mk_iff]
    | with_reducible first
      | apply onUnit_same | apply wr_same | apply putCkEntry_same | apply detectAll_same | apply sameO_next
      | apply sameO_ite | exact sameO_fault | apply same_ite

theorem execClockLaneLoss_same {M : Nat} {s0 : State} {e : ClockEnd} {x : ClockSensed} {s : State} (hM : Sub 0x3f9683 M) (hs : Same M s0 s) :
    SameO M s0 (execClockLaneLoss e x s) := by
  unfold execClockLaneLoss
  try dsimp only
  repeat' first
    | intro _
    | with_reducible first
      | assumption | exact hM.of (by decide) | apply sameMk | exact Or.inl (hM.bit (by decide)) | exact Or.inr rfl
    | simp only [same_mk_iff]
    | with_reducible first
      | apply onUnit_same | apply putCkEntry_same | apply clockLost_same | apply sameO_next | apply sameO_ite
      | exact sameO_fault | apply same_ite

theorem swapHeld_same {M : Nat} {s0 : State} {c : Nat} {since : Nat} {s : State} (hM : Sub 0x800000 M) (hs : Same M s0 s) :
    Same M s0 (swapHeld c since s) := by
  unfold swapHeld
  try dsimp only
  repeat' first
    | intro _
    | with_reducible first
      | assumption | exact hM.of (by decide) | apply sameMk | exact Or.inl (hM.bit (by decide)) | exact Or.inr rfl
    | simp only [same_mk_iff]
    | with_reducible first
      | apply putBob_same | apply same_ite

theorem slicesPass_same {M : Nat} {s0 : State} {c : Nat} {s : State} (hM : Sub 0xbd0683 M) (hs : Same M s0 s) :
    Same M s0 (slicesPass c s) := by
  unfold slicesPass
  try dsimp only
  repeat' first
    | intro _
    | with_reducible first
      | assumption | exact hM.of (by decide)
    | with_reducible first
      | apply syncCluster_same | apply swapResume_same

theorem switchDone_same {M : Nat} {s0 : State} {c : Nat} {d : Dir} {s : State} (hM : Sub 0xbf9683 M) (hs : Same M s0 s) :
    Same M s0 (switchDone c d s) := by
  unfold switchDone
  try dsimp only
  repeat' first
    | intro _
    | with_reducible first
      | assumption | exact hM.of (by decide) | apply sameMk | exact Or.inl (hM.bit (by decide)) | exact Or.inr rfl
    | simp only [same_mk_iff]
    | with_reducible first
      | apply wr_same | apply putCk_same | apply lendSync_same | apply steerOrHold_same | apply swapHeld_same
      | apply slicesPass_same | apply same_ite

theorem execSwitchoverComplete_same {M : Nat} {s0 : State} {c : Nat} {d : Dir} {s : State} (hM : Sub 0xbf9683 M) (hs : Same M s0 s) :
    SameO M s0 (execSwitchoverComplete c d s) := by
  unfold execSwitchoverComplete
  try dsimp only
  repeat' first
    | intro _
    | with_reducible first
      | assumption | exact hM.of (by decide)
    | with_reducible first
      | apply onUnit_same | apply switchDone_same | apply sameO_next | apply sameO_ite | exact sameO_fault
      | apply same_ite | apply same_foldl

theorem execSwitchoverLockExpiry_same {M : Nat} {s0 : State} {c : Nat} {d : Dir} {s : State} (hM : Sub 0x82bff683 M) (hs : Same M s0 s) :
    SameO M s0 (execSwitchoverLockExpiry c d s) := by
  unfold execSwitchoverLockExpiry
  try dsimp only
  repeat' first
    | intro _
    | with_reducible first
      | assumption | exact hM.of (by decide) | apply sameMk | exact Or.inl (hM.bit (by decide)) | exact Or.inr rfl
    | simp only [same_mk_iff]
    | with_reducible first
      | apply onUnit_same | apply putCk_same | apply borrowStart_same | apply clockDemand_same
      | apply swapHeld_same | apply slicesPass_same | apply sameO_next | apply sameO_ite | exact sameO_fault
      | apply same_ite

theorem lentLost_same {M : Nat} {s0 : State} {c : Nat} {d : Dir} {s : State} (hM : Sub 0x82bff683 M) (hs : Same M s0 s) :
    Same M s0 (lentLost c d s) := by
  unfold lentLost
  try dsimp only
  repeat' first
    | intro _
    | with_reducible first
      | assumption | exact hM.of (by decide)
    | with_reducible first
      | apply wr_same | apply raise_same | apply borrowEnd_same | apply clockDemand_same

theorem lentLostQuietly_same {M : Nat} {s0 : State} {c : Nat} {d : Dir} {s : State} (hM : Sub 0x82bff683 M) (hs : Same M s0 s) :
    Same M s0 (lentLostQuietly c d s) := by
  unfold lentLostQuietly
  try dsimp only
  repeat' first
    | intro _
    | with_reducible first
      | assumption | exact hM.of (by decide)
    | with_reducible first
      | apply wr_same | apply raise_same | apply borrowEnd_same | apply clockDemand_same

theorem pllUnlock_same {M : Nat} {s0 : State} {c : Nat} {d : Dir} {s : State} (hM : Sub 0x82bff683 M) (hs : Same M s0 s) :
    Same M s0 (pllUnlock c d s) := by
  unfold pllUnlock
  try dsimp only
  repeat' first
    | intro _
    | with_reducible first
      | assumption | exact hM.of (by decide) | apply sameMk | exact Or.inl (hM.bit (by decide)) | exact Or.inr rfl
    | simp only [same_mk_iff]
    | with_reducible first
      | apply wr_same | apply raise_same | apply putCk_same | apply borrowStart_same | apply clockDemand_same
      | apply lentLost_same | apply lentLostQuietly_same | apply same_ite

theorem execPllUnlock_same {M : Nat} {s0 : State} {c : Nat} {d : Dir} {s : State} (hM : Sub 0x82bff683 M) (hs : Same M s0 s) :
    SameO M s0 (execPllUnlock c d s) := by
  unfold execPllUnlock
  try dsimp only
  repeat' first
    | intro _
    | with_reducible first
      | assumption | exact hM.of (by decide)
    | with_reducible first
      | apply onUnit_same | apply pllUnlock_same | apply sameO_next | apply sameO_ite | exact sameO_fault
      | apply same_ite

theorem execPllRelock_same {M : Nat} {s0 : State} {c : Nat} {d : Dir} {s : State} (hM : Sub 0x20001 M) (hs : Same M s0 s) :
    SameO M s0 (execPllRelock c d s) := by
  unfold execPllRelock
  try dsimp only
  repeat' first
    | intro _
    | with_reducible first
      | assumption | exact hM.of (by decide) | apply sameMk | exact Or.inl (hM.bit (by decide)) | exact Or.inr rfl
    | simp only [same_mk_iff]
    | with_reducible first
      | apply onUnit_same | apply wr_same | apply putCk_same | apply standbySync_same | apply sameO_next
      | apply sameO_ite | exact sameO_fault | apply same_ite

theorem execBorrowComplete_same {M : Nat} {s0 : State} {c : Nat} {d : Dir} {s : State} (hM : Sub 0xbf0683 M) (hs : Same M s0 s) :
    SameO M s0 (execBorrowComplete c d s) := by
  unfold execBorrowComplete
  try dsimp only
  repeat' first
    | intro _
    | with_reducible first
      | assumption | exact hM.of (by decide) | apply sameMk | exact Or.inl (hM.bit (by decide)) | exact Or.inr rfl
    | simp only [same_mk_iff]
    | with_reducible first
      | apply onUnit_same | apply putCk_same | apply swapHeld_same | apply slicesPass_same | apply sameO_next
      | apply sameO_ite | exact sameO_fault | apply same_ite | exact sameOpt_none | apply sameOpt_ite
    | split
    | with_reducible first
      | (apply same_pair; assumption) | (apply same_opt; assumption) | (apply same_triple; assumption)

theorem execHoldoverExpiry_same {M : Nat} {s0 : State} {c : Nat} {d : Dir} {s : State} (hM : Sub 0x82bff683 M) (hs : Same M s0 s) :
    SameO M s0 (execHoldoverExpiry c d s) := by
  unfold execHoldoverExpiry
  try dsimp only
  repeat' first
    | intro _
    | with_reducible first
      | assumption | exact hM.of (by decide)
    | with_reducible first
      | apply onUnit_same | apply retrain_same | apply sameO_next | apply sameO_ite | exact sameO_fault
      | apply same_ite | apply same_foldl

theorem execDenseReqResend_same {M : Nat} {s0 : State} {c : Nat} {d : Dir} {s : State} (hM : Sub 0x21000 M) (hs : Same M s0 s) :
    SameO M s0 (execDenseReqResend c d s) := by
  unfold execDenseReqResend
  try dsimp only
  repeat' first
    | intro _
    | with_reducible first
      | assumption | exact hM.of (by decide) | apply sameMk | exact Or.inl (hM.bit (by decide)) | exact Or.inr rfl
    | simp only [same_mk_iff]
    | with_reducible first
      | apply onUnit_same | apply putCk_same | apply densePost_same | apply sameO_next | apply sameO_ite
      | exact sameO_fault | apply same_ite

theorem ckCmd_same {M : Nat} {s0 : State} {c : Nat} {op : Nat} {d : Dir} {refused : Bool} {start : State → State} {s : State} (hM : Sub 0x20001 M) (hstart : ∀ y0, Same M s0 y0 → Same M s0 (start y0)) (hs : Same M s0 s) :
    Same M s0 (ckCmd c op d refused start s) := by
  unfold ckCmd
  try dsimp only
  repeat' first
    | intro _
    | with_reducible first
      | assumption | exact hM.of (by decide) | apply sameMk | exact Or.inl (hM.bit (by decide)) | exact Or.inr rfl
    | simp only [same_mk_iff]
    | with_reducible first
      | apply wr_same | apply putCk_same | apply hstart | apply same_ite

theorem execCkToForwarded_same {M : Nat} {s0 : State} {c : Nat} {d : Dir} {s : State} (hM : Sub 0x21001 M) (hs : Same M s0 s) :
    SameO M s0 (execCkToForwarded c d s) := by
  unfold execCkToForwarded
  try dsimp only
  repeat' first
    | intro _
    | with_reducible first
      | assumption | exact hM.of (by decide)
    | with_reducible first
      | apply ifHas_same | apply denseAsk_same | apply ckCmd_same | apply sameO_next | apply sameO_ite
      | exact sameO_fault

theorem execCkToFallback_same {M : Nat} {s0 : State} {c : Nat} {d : Dir} {s : State} (hM : Sub 0x21001 M) (hs : Same M s0 s) :
    SameO M s0 (execCkToFallback c d s) := by
  unfold execCkToFallback
  try dsimp only
  repeat' first
    | intro _
    | with_reducible first
      | assumption | exact hM.of (by decide)
    | with_reducible first
      | apply ifHas_same | apply denseAsk_same | apply ckCmd_same | apply sameO_next | apply sameO_ite
      | exact sameO_fault

theorem execCkReturnOwn_same {M : Nat} {s0 : State} {c : Nat} {d : Dir} {s : State} (hM : Sub 0x20001 M) (hs : Same M s0 s) :
    SameO M s0 (execCkReturnOwn c d s) := by
  unfold execCkReturnOwn
  try dsimp only
  repeat' first
    | intro _
    | with_reducible first
      | assumption | exact hM.of (by decide)
    | with_reducible first
      | apply ifHas_same | apply ckCmd_same | apply sameO_next | apply sameO_ite | exact sameO_fault
    | simp only [id_eq]

theorem ckMoveOne_same {M : Nat} {s0 : State} {op : Nat} {d : Dir} {c : Nat} {s : State} (hM : Sub 0x29001 M) (hs : Same M s0 s) :
    Same M s0 (ckMoveOne op d c s) := by
  unfold ckMoveOne
  try dsimp only
  repeat' first
    | intro _
    | with_reducible first
      | assumption | exact hM.of (by decide) | apply sameMk | exact Or.inl (hM.bit (by decide)) | exact Or.inr rfl
    | simp only [same_mk_iff]
    | with_reducible first
      | apply wr_same | apply putRx_same | apply putCk_same | apply lendSync_same | apply same_ite
      | apply same_foldl

theorem ckMove_same {M : Nat} {s0 : State} {c : Nat} {op : Nat} {d : Dir} {s : State} (hM : Sub 0x29001 M) (hs : Same M s0 s) :
    Same M s0 (ckMove c op d s) := by
  unfold ckMove
  try dsimp only
  repeat' first
    | intro _
    | with_reducible first
      | assumption | exact hM.of (by decide) | apply sameMk | exact Or.inl (hM.bit (by decide)) | exact Or.inr rfl
    | simp only [same_mk_iff]
    | with_reducible first
      | apply wr_same | apply putCk_same | apply borrowEnd_same | apply ckMoveOne_same | apply same_ite
      | apply same_foldl | exact sameOpt_none | apply sameOpt_ite
    | split
    | with_reducible first
      | (apply same_pair; assumption) | (apply same_opt; assumption) | (apply same_triple; assumption)

theorem execFallbackWaitExpiry_same {M : Nat} {s0 : State} {c : Nat} {d : Dir} {s : State} (hM : Sub 0x29001 M) (hs : Same M s0 s) :
    SameO M s0 (execFallbackWaitExpiry c d s) := by
  unfold execFallbackWaitExpiry
  try dsimp only
  repeat' first
    | intro _
    | with_reducible first
      | assumption | exact hM.of (by decide)
    | with_reducible first
      | apply onUnit_same | apply ckMove_same | apply sameO_next | apply sameO_ite | exact sameO_fault
      | apply same_ite

theorem execCkOpComplete_same {M : Nat} {s0 : State} {c : Nat} {s : State} (hM : Sub 0xbf9683 M) (hs : Same M s0 s) :
    SameO M s0 (execCkOpComplete c s) := by
  unfold execCkOpComplete
  try dsimp only
  repeat' first
    | intro _
    | with_reducible first
      | assumption | exact hM.of (by decide) | apply sameMk | exact Or.inl (hM.bit (by decide)) | exact Or.inr rfl
    | simp only [same_mk_iff]
    | with_reducible first
      | apply onUnit_same | apply wr_same | apply slicesPass_same | apply ckMove_same | apply sameO_next
      | apply sameO_ite | exact sameO_fault | apply same_ite | exact sameOpt_none | apply sameOpt_ite
    | split
    | with_reducible first
      | (apply same_pair; assumption) | (apply same_opt; assumption) | (apply same_triple; assumption)

end Sys2Proof.Machine
end

