-- ==== Sys2Proof/Laws/SameTraining.lean ====
section
/-! SUPPORT. What the operations of Machine/Training.lean leave as it is (`Same`). -/

namespace Sys2Proof.Machine

theorem trnEnd_same {M : Nat} {s0 : State} {n : Nat} {sd : Side} {t : TrnSet} {s : State} (hM : Sub 0x8001 M) (hs : Same M s0 s) :
    Same M s0 (trnEnd n sd t s) := by
  unfold trnEnd
  try dsimp only
  repeat' first
    | intro _
    | with_reducible first
      | assumption | exact hM.of (by decide) | apply sameMk | exact Or.inl (hM.bit (by decide)) | exact Or.inr rfl
    | simp only [same_mk_iff]
    | with_reducible first
      | apply wr_same | apply putRx_same | apply same_ite

theorem trnFields_same {M : Nat} {s0 : State} {k : Nat} {sd : Side} {t : TrnSet} {s : State} (hM : Sub 0x2001 M) (hs : Same M s0 s) :
    Same M s0 (trnFields k sd t s) := by
  unfold trnFields
  try dsimp only
  repeat' first
    | intro _
    | with_reducible first
      | assumption | exact hM.of (by decide) | apply sameMk | exact Or.inl (hM.bit (by decide)) | exact Or.inr rfl
    | simp only [same_mk_iff]
    | with_reducible first
      | apply wr_same | apply wrB_same | apply modSpan_same

theorem trnAfter_same {M : Nat} {s0 : State} {k : Nat} {sd : Side} {s : State} (hM : Sub 0x80bff683 M) (hs : Same M s0 s) :
    Same M s0 (trnAfter k sd s) := by
  unfold trnAfter
  try dsimp only
  repeat' first
    | intro _
    | with_reducible first
      | assumption | exact hM.of (by decide)
    | with_reducible first
      | apply linkDown_same | apply groupStep_same | apply qualifyCheck_same | apply armCheck_same
      | apply same_ite

theorem trnEnds_same {M : Nat} {s0 : State} {k : Nat} {sd : Side} {heard : List Heard} {s : State} (hM : Sub 0x8001 M) (hs : Same M s0 s) :
    Same M s0 (trnEnds k sd heard s) := by
  unfold trnEnds
  try dsimp only
  repeat' first
    | intro _
    | with_reducible first
      | assumption | exact hM.of (by decide) | apply sameMk | exact Or.inl (hM.bit (by decide)) | exact Or.inr rfl
    | simp only [same_mk_iff]
    | with_reducible first
      | apply trnEnd_same | apply same_foldl
    | split
    | with_reducible first
      | (apply same_pair; assumption) | (apply same_opt; assumption) | (apply same_triple; assumption)

theorem spareHears_same {M : Nat} {s0 : State} {c : Nat} {k : Nat} {sd : Side} {h : Heard} {s : State} (hM : Sub 0x282bff687 M) (hs : Same M s0 s) :
    Same M s0 (spareHears c k sd h s) := by
  unfold spareHears
  try dsimp only
  repeat' first
    | intro _
    | with_reducible first
      | assumption | exact hM.of (by decide) | apply sameMk | exact Or.inl (hM.bit (by decide)) | exact Or.inr rfl
    | simp only [same_mk_iff]
    | with_reducible first
      | apply spareCap_same | apply laneHears_same | apply lossCheck_same | apply copyArrives_same
      | apply trnEnd_same | apply same_ite
    | split
    | with_reducible first
      | (apply same_pair; assumption) | (apply same_opt; assumption) | (apply same_triple; assumption)

theorem spareCopies_same {M : Nat} {s0 : State} {k : Nat} {sd : Side} {spare : List Heard} {s : State} (hM : Sub 0x282bff687 M) (hs : Same M s0 s) :
    Same M s0 (spareCopies k sd spare s) := by
  unfold spareCopies
  try dsimp only
  repeat' first
    | intro _
    | with_reducible first
      | assumption | exact hM.of (by decide)
    | with_reducible first
      | apply spareHears_same | apply same_foldl

theorem trnReceive_same {M : Nat} {s0 : State} {k : Nat} {sd : Side} {heard : List Heard} {kind : Nat} {act : TrnSet → State → State} {s : State} (hM : Sub 0x282bff687 M) (hact : ∀ y0 y1, Same M s0 y1 → Same M s0 (act y0 y1)) (hs : Same M s0 s) :
    Same M s0 (trnReceive k sd heard kind act s) := by
  unfold trnReceive
  try dsimp only
  repeat' first
    | intro _
    | with_reducible first
      | assumption | exact hM.of (by decide) | apply sameMk | exact Or.inl (hM.bit (by decide)) | exact Or.inr rfl
    | simp only [same_mk_iff]
    | with_reducible first
      | apply bump_same | apply setArrives_same | apply trnFields_same | apply trnAfter_same | apply trnEnds_same
      | apply spareCopies_same | apply hact | apply same_ite | exact sameOpt_none | apply sameOpt_ite
    | split
    | with_reducible first
      | (apply same_pair; assumption) | (apply same_opt; assumption) | (apply same_triple; assumption)

theorem capAct_same {M : Nat} {s0 : State} {k : Nat} {sd : Side} {t : TrnSet} {s : State} (hM : Sub 0x80bff687 M) (hs : Same M s0 s) :
    Same M s0 (capAct k sd t s) := by
  unfold capAct
  try dsimp only
  repeat' first
    | intro _
    | with_reducible first
      | assumption | exact hM.of (by decide) | apply sameMk | exact Or.inl (hM.bit (by decide)) | exact Or.inr rfl
    | simp only [same_mk_iff]
    | with_reducible first
      | apply wr_same | apply electSync_same | apply modSpan_same | apply linkDown_same | apply trunkFails_same
      | apply same_ite

theorem execCapReceive_same {M : Nat} {s0 : State} {k : Nat} {sd : Side} {heard : List Heard} {spare : List Heard} {s : State} (hM : Sub 0x282bff687 M) (hs : Same M s0 s) :
    SameO M s0 (execCapReceive k sd heard spare s) := by
  unfold execCapReceive
  try dsimp only
  repeat' first
    | intro _
    | with_reducible first
      | assumption | exact hM.of (by decide)
    | with_reducible first
      | apply onUnit_same | apply spareCopies_same | apply trnReceive_same | apply capAct_same | apply sameO_next
      | apply sameO_ite | exact sameO_fault | apply same_ite

theorem refuseUp_same {M : Nat} {s0 : State} {k : Nat} {sd : Side} {target : Nat} {s : State} (hM : Sub 0x1000 M) (hs : Same M s0 s) :
    Same M s0 (refuseUp k sd target s) := by
  unfold refuseUp
  try dsimp only
  repeat' first
    | intro _
    | with_reducible first
      | assumption | exact hM.of (by decide) | apply sameMk | exact Or.inl (hM.bit (by decide)) | exact Or.inr rfl
    | simp only [same_mk_iff]
    | with_reducible first
      | apply putSide_same | apply same_ite

theorem rateFollow_same {M : Nat} {s0 : State} {k : Nat} {sd : Side} {t : TrnSet} {s : State} (hM : Sub 0x3001 M) (hs : Same M s0 s) :
    Same M s0 (rateFollow k sd t s) := by
  unfold rateFollow
  try dsimp only
  repeat' first
    | intro _
    | with_reducible first
      | assumption | exact hM.of (by decide) | apply sameMk | exact Or.inl (hM.bit (by decide)) | exact Or.inr rfl
    | simp only [same_mk_iff]
    | with_reducible first
      | apply postTrn_same | apply modSpan_same | apply setSpan_same | apply sendRate_same | apply blindOver_same
      | apply refuseUp_same | apply same_ite | apply same_foldl

theorem rateAct_same {M : Nat} {s0 : State} {k : Nat} {sd : Side} {t : TrnSet} {s : State} (hM : Sub 0x3001 M) (hs : Same M s0 s) :
    Same M s0 (rateAct k sd t s) := by
  unfold rateAct
  try dsimp only
  repeat' first
    | intro _
    | with_reducible first
      | assumption | exact hM.of (by decide)
    | with_reducible first
      | apply bump_same | apply rateFollow_same | apply same_ite

theorem execRateReceive_same {M : Nat} {s0 : State} {k : Nat} {sd : Side} {heard : List Heard} {s : State} (hM : Sub 0x282bff687 M) (hs : Same M s0 s) :
    SameO M s0 (execRateReceive k sd heard s) := by
  unfold execRateReceive
  try dsimp only
  repeat' first
    | intro _
    | with_reducible first
      | assumption | exact hM.of (by decide)
    | with_reducible first
      | apply onUnit_same | apply trnReceive_same | apply rateAct_same | apply sameO_next | apply sameO_ite
      | exact sameO_fault

theorem dropRates_same {M : Nat} {s0 : State} {k : Nat} {sd : Side} {s : State} (hM : Sub 0x1000 M) (hs : Same M s0 s) :
    Same M s0 (dropRates k sd s) := by
  unfold dropRates
  try dsimp only
  repeat' first
    | intro _
    | with_reducible first
      | assumption | exact hM.of (by decide) | apply sameMk | exact Or.inl (hM.bit (by decide)) | exact Or.inr rfl
    | simp only [same_mk_iff]
    | with_reducible first
      | apply putSide_same

theorem rateAckAct_same {M : Nat} {s0 : State} {k : Nat} {sd : Side} {t : TrnSet} {s : State} (hM : Sub 0x303001 M) (hs : Same M s0 s) :
    Same M s0 (rateAckAct k sd t s) := by
  unfold rateAckAct
  try dsimp only
  repeat' first
    | intro _
    | with_reducible first
      | assumption | exact hM.of (by decide) | apply sameMk | exact Or.inl (hM.bit (by decide)) | exact Or.inr rfl
    | simp only [same_mk_iff]
    | with_reducible first
      | apply modSpan_same | apply setSpan_same | apply sideEie_same | apply switchTo_same | apply dropRates_same
      | apply same_ite | exact sameOpt_none | apply sameOpt_ite
    | split
    | with_reducible first
      | (apply same_pair; assumption) | (apply same_opt; assumption) | (apply same_triple; assumption)

theorem execRateAckReceive_same {M : Nat} {s0 : State} {k : Nat} {sd : Side} {heard : List Heard} {s : State} (hM : Sub 0x282bff687 M) (hs : Same M s0 s) :
    SameO M s0 (execRateAckReceive k sd heard s) := by
  unfold execRateAckReceive
  try dsimp only
  repeat' first
    | intro _
    | with_reducible first
      | assumption | exact hM.of (by decide)
    | with_reducible first
      | apply onUnit_same | apply trnReceive_same | apply rateAckAct_same | apply sameO_next | apply sameO_ite
      | exact sameO_fault

theorem readyAct_same {M : Nat} {s0 : State} {k : Nat} {sd : Side} {t : TrnSet} {s : State} (hM : Sub 0x80bff683 M) (hs : Same M s0 s) :
    Same M s0 (readyAct k sd t s) := by
  unfold readyAct
  try dsimp only
  repeat' first
    | intro _
    | with_reducible first
      | assumption | exact hM.of (by decide) | apply sameMk | exact Or.inl (hM.bit (by decide)) | exact Or.inr rfl
    | simp only [same_mk_iff]
    | with_reducible first
      | apply modSpan_same | apply linkDown_same | apply leaveBlind_same | apply same_ite

theorem execReadyReceive_same {M : Nat} {s0 : State} {k : Nat} {sd : Side} {heard : List Heard} {s : State} (hM : Sub 0x282bff687 M) (hs : Same M s0 s) :
    SameO M s0 (execReadyReceive k sd heard s) := by
  unfold execReadyReceive
  try dsimp only
  repeat' first
    | intro _
    | with_reducible first
      | assumption | exact hM.of (by decide)
    | with_reducible first
      | apply onUnit_same | apply trnReceive_same | apply readyAct_same | apply sameO_next | apply sameO_ite
      | exact sameO_fault

theorem echoReqAct_same {M : Nat} {s0 : State} {k : Nat} {sd : Side} {turn : Nat} {t : TrnSet} {s : State} (hM : Sub 0x1000 M) (hs : Same M s0 s) :
    Same M s0 (echoReqAct k sd turn t s) := by
  unfold echoReqAct
  try dsimp only
  repeat' first
    | intro _
    | with_reducible first
      | assumption | exact hM.of (by decide) | apply sameMk | exact Or.inl (hM.bit (by decide)) | exact Or.inr rfl
    | simp only [same_mk_iff]
    | with_reducible first
      | apply postTrn_same | apply same_ite

theorem execEchoReqReceive_same {M : Nat} {s0 : State} {k : Nat} {sd : Side} {heard : List Heard} {turn : Nat} {s : State} (hM : Sub 0x282bff687 M) (hs : Same M s0 s) :
    SameO M s0 (execEchoReqReceive k sd heard turn s) := by
  unfold execEchoReqReceive
  try dsimp only
  repeat' first
    | intro _
    | with_reducible first
      | assumption | exact hM.of (by decide)
    | with_reducible first
      | apply onUnit_same | apply trnReceive_same | apply echoReqAct_same | apply sameO_next | apply sameO_ite
      | exact sameO_fault

theorem echoNext_same {M : Nat} {s0 : State} {k : Nat} {sd : Side} {s : State} (hM : Sub 0x80bff683 M) (hs : Same M s0 s) :
    Same M s0 (echoNext k sd s) := by
  unfold echoNext
  try dsimp only
  repeat' first
    | intro _
    | with_reducible first
      | assumption | exact hM.of (by decide) | apply sameMk | exact Or.inl (hM.bit (by decide)) | exact Or.inr rfl
    | simp only [same_mk_iff]
    | with_reducible first
      | apply putSpan_same | apply postTrn_same | apply linkDown_same | apply same_ite

theorem rttDone_same {M : Nat} {s0 : State} {k : Nat} {sd : Side} {s : State} (hM : Sub 0x1006001 M) (hs : Same M s0 s) :
    Same M s0 (rttDone k sd s) := by
  unfold rttDone
  try dsimp only
  repeat' first
    | intro _
    | with_reducible first
      | assumption | exact hM.of (by decide) | apply sameMk | exact Or.inl (hM.bit (by decide)) | exact Or.inr rfl
    | simp only [same_mk_iff]
    | with_reducible first
      | apply wr_same | apply startRecheck_same | apply prkNotice_same | apply modSpan_same | apply setSpan_same
      | apply armCheck_same | apply same_ite | apply same_foldl

theorem echoRspAct_same {M : Nat} {s0 : State} {k : Nat} {sd : Side} {sample : Nat} {t : TrnSet} {s : State} (hM : Sub 0x81bff683 M) (hs : Same M s0 s) :
    Same M s0 (echoRspAct k sd sample t s) := by
  unfold echoRspAct
  try dsimp only
  repeat' first
    | intro _
    | with_reducible first
      | assumption | exact hM.of (by decide) | apply sameMk | exact Or.inl (hM.bit (by decide)) | exact Or.inr rfl
    | simp only [same_mk_iff]
    | with_reducible first
      | apply putSpan_same | apply echoNext_same | apply rttDone_same | apply same_ite

theorem execEchoRspReceive_same {M : Nat} {s0 : State} {k : Nat} {sd : Side} {heard : List Heard} {sample : Nat} {s : State} (hM : Sub 0x283bff687 M) (hs : Same M s0 s) :
    SameO M s0 (execEchoRspReceive k sd heard sample s) := by
  unfold execEchoRspReceive
  try dsimp only
  repeat' first
    | intro _
    | with_reducible first
      | assumption | exact hM.of (by decide)
    | with_reducible first
      | apply onUnit_same | apply trnReceive_same | apply echoRspAct_same | apply sameO_next | apply sameO_ite
      | exact sameO_fault

theorem execEchoWaitExpiry_same {M : Nat} {s0 : State} {k : Nat} {sd : Side} {s : State} (hM : Sub 0x80bff683 M) (hs : Same M s0 s) :
    SameO M s0 (execEchoWaitExpiry k sd s) := by
  unfold execEchoWaitExpiry
  try dsimp only
  repeat' first
    | intro _
    | with_reducible first
      | assumption | exact hM.of (by decide)
    | with_reducible first
      | apply onUnit_same | apply echoNext_same | apply sameO_next | apply sameO_ite | exact sameO_fault
      | apply same_ite

theorem execRetrainReceive_same {M : Nat} {s0 : State} {k : Nat} {sd : Side} {heard : List Heard} {s : State} (hM : Sub 0x282bff687 M) (hs : Same M s0 s) :
    SameO M s0 (execRetrainReceive k sd heard s) := by
  unfold execRetrainReceive
  try dsimp only
  repeat' first
    | intro _
    | with_reducible first
      | assumption | exact hM.of (by decide)
    | with_reducible first
      | apply onUnit_same | apply retrain_same | apply trnReceive_same | apply sameO_next | apply sameO_ite
      | exact sameO_fault

theorem execDenseReqReceive_same {M : Nat} {s0 : State} {k : Nat} {sd : Side} {heard : List Heard} {s : State} (hM : Sub 0x282bff687 M) (hs : Same M s0 s) :
    SameO M s0 (execDenseReqReceive k sd heard s) := by
  unfold execDenseReqReceive
  try dsimp only
  repeat' first
    | intro _
    | with_reducible first
      | assumption | exact hM.of (by decide)
    | with_reducible first
      | apply onUnit_same | apply setDense_same | apply trnReceive_same | apply sameO_next | apply sameO_ite
      | exact sameO_fault | apply same_ite

theorem execDenseRelReceive_same {M : Nat} {s0 : State} {k : Nat} {sd : Side} {heard : List Heard} {s : State} (hM : Sub 0x282bff687 M) (hs : Same M s0 s) :
    SameO M s0 (execDenseRelReceive k sd heard s) := by
  unfold execDenseRelReceive
  try dsimp only
  repeat' first
    | intro _
    | with_reducible first
      | assumption | exact hM.of (by decide)
    | with_reducible first
      | apply onUnit_same | apply setDense_same | apply trnReceive_same | apply sameO_next | apply sameO_ite
      | exact sameO_fault | apply same_ite

theorem capSettle_same {M : Nat} {s0 : State} {k : Nat} {sd : Side} {s : State} (hM : Sub 0x80bff687 M) (hs : Same M s0 s) :
    Same M s0 (capSettle k sd s) := by
  unfold capSettle
  try dsimp only
  repeat' first
    | intro _
    | with_reducible first
      | assumption | exact hM.of (by decide) | apply sameMk | exact Or.inl (hM.bit (by decide)) | exact Or.inr rfl
    | simp only [same_mk_iff]
    | with_reducible first
      | apply bump_same | apply electDraw_same | apply modSpan_same | apply linkDown_same | apply same_ite
      | apply same_foldl

theorem execCapSettleExpiry_same {M : Nat} {s0 : State} {k : Nat} {sd : Side} {s : State} (hM : Sub 0x80bff687 M) (hs : Same M s0 s) :
    SameO M s0 (execCapSettleExpiry k sd s) := by
  unfold execCapSettleExpiry
  try dsimp only
  repeat' first
    | intro _
    | with_reducible first
      | assumption | exact hM.of (by decide)
    | with_reducible first
      | apply onUnit_same | apply capSettle_same | apply sameO_next | apply sameO_ite | exact sameO_fault
      | apply same_ite

theorem execSwitchIdleEnd_same {M : Nat} {s0 : State} {k : Nat} {sd : Side} {s : State} (hM : Sub 0x82bff683 M) (hs : Same M s0 s) :
    SameO M s0 (execSwitchIdleEnd k sd s) := by
  unfold execSwitchIdleEnd
  try dsimp only
  repeat' first
    | intro _
    | with_reducible first
      | assumption | exact hM.of (by decide)
    | with_reducible first
      | apply onUnit_same | apply trainAt_same | apply sameO_next | apply sameO_ite | exact sameO_fault
      | apply same_ite

theorem execDwellEnd_same {M : Nat} {s0 : State} {k : Nat} {sd : Side} {symbols : Nat} {s : State} (hM : Sub 0x82bff687 M) (hs : Same M s0 s) :
    SameO M s0 (execDwellEnd k sd symbols s) := by
  unfold execDwellEnd
  try dsimp only
  repeat' first
    | intro _
    | with_reducible first
      | assumption | exact hM.of (by decide)
    | with_reducible first
      | apply onUnit_same | apply figureFails_same | apply figurePasses_same | apply sameO_next | apply sameO_ite
      | exact sameO_fault | apply same_ite

theorem execRungMaxExpiry_same {M : Nat} {s0 : State} {k : Nat} {sd : Side} {s : State} (hM : Sub 0x82bff687 M) (hs : Same M s0 s) :
    SameO M s0 (execRungMaxExpiry k sd s) := by
  unfold execRungMaxExpiry
  try dsimp only
  repeat' first
    | intro _
    | with_reducible first
      | assumption | exact hM.of (by decide)
    | with_reducible first
      | apply onUnit_same | apply figureFails_same | apply sameO_next | apply sameO_ite | exact sameO_fault
      | apply same_ite

theorem execTrainMaxExpiry_same {M : Nat} {s0 : State} {k : Nat} {sd : Side} {s : State} (hM : Sub 0x80bff683 M) (hs : Same M s0 s) :
    SameO M s0 (execTrainMaxExpiry k sd s) := by
  unfold execTrainMaxExpiry
  try dsimp only
  repeat' first
    | intro _
    | with_reducible first
      | assumption | exact hM.of (by decide)
    | with_reducible first
      | apply onUnit_same | apply linkDown_same | apply sameO_next | apply sameO_ite | exact sameO_fault
      | apply same_ite

theorem execRetrainMaxExpiry_same {M : Nat} {s0 : State} {k : Nat} {sd : Side} {s : State} (hM : Sub 0x80bff683 M) (hs : Same M s0 s) :
    SameO M s0 (execRetrainMaxExpiry k sd s) := by
  unfold execRetrainMaxExpiry
  try dsimp only
  repeat' first
    | intro _
    | with_reducible first
      | assumption | exact hM.of (by decide)
    | with_reducible first
      | apply onUnit_same | apply linkDown_same | apply sameO_next | apply sameO_ite | exact sameO_fault
      | apply same_ite

theorem rateAgain_same {M : Nat} {s0 : State} {k : Nat} {sd : Side} {s : State} (hM : Sub 0x80bff683 M) (hs : Same M s0 s) :
    Same M s0 (rateAgain k sd s) := by
  unfold rateAgain
  try dsimp only
  repeat' first
    | intro _
    | with_reducible first
      | assumption | exact hM.of (by decide) | apply sameMk | exact Or.inl (hM.bit (by decide)) | exact Or.inr rfl
    | simp only [same_mk_iff]
    | with_reducible first
      | apply putSpan_same | apply postTrn_same | apply linkDown_same | apply dropRates_same | apply same_ite
      | exact sameOpt_none | apply sameOpt_ite
    | split
    | with_reducible first
      | (apply same_pair; assumption) | (apply same_opt; assumption) | (apply same_triple; assumption)

theorem execRateResend_same {M : Nat} {s0 : State} {k : Nat} {sd : Side} {s : State} (hM : Sub 0x80bff683 M) (hs : Same M s0 s) :
    SameO M s0 (execRateResend k sd s) := by
  unfold execRateResend
  try dsimp only
  repeat' first
    | intro _
    | with_reducible first
      | assumption | exact hM.of (by decide)
    | with_reducible first
      | apply onUnit_same | apply rateAgain_same | apply sameO_next | apply sameO_ite | exact sameO_fault

theorem execDownHoldEnd_same {M : Nat} {s0 : State} {k : Nat} {sd : Side} {s : State} (hM : Sub 0x82bff687 M) (hs : Same M s0 s) :
    SameO M s0 (execDownHoldEnd k sd s) := by
  unfold execDownHoldEnd
  try dsimp only
  repeat' first
    | intro _
    | with_reducible first
      | assumption | exact hM.of (by decide)
    | with_reducible first
      | apply onUnit_same | apply downRestart_same | apply sameO_next | apply sameO_ite | exact sameO_fault
      | apply same_ite

theorem execGoTime_same {M : Nat} {s0 : State} {s : State} (hM : Sub 0x82bff683 M) (hs : Same M s0 s) :
    SameO M s0 (execGoTime s) := by
  unfold execGoTime
  try dsimp only
  repeat' first
    | intro _
    | with_reducible first
      | assumption | exact hM.of (by decide)
    | with_reducible first
      | apply detectAll_same | apply sameO_next | apply sameO_ite | exact sameO_fault | apply same_ite

theorem execTUpBegin_same {M : Nat} {s0 : State} {k : Nat} {s : State} (hM : Sub 0x83bff683 M) (hs : Same M s0 s) :
    SameO M s0 (execTUpBegin k s) := by
  unfold execTUpBegin
  try dsimp only
  repeat' first
    | intro _
    | with_reducible first
      | assumption | exact hM.of (by decide) | apply sameMk | exact Or.inl (hM.bit (by decide)) | exact Or.inr rfl
    | simp only [same_mk_iff]
    | with_reducible first
      | apply onUnit_same | apply linkUp_same | apply sameO_next | apply sameO_ite | exact sameO_fault
      | apply same_ite | exact sameOpt_none | apply sameOpt_ite
    | split
    | with_reducible first
      | (apply same_pair; assumption) | (apply same_opt; assumption) | (apply same_triple; assumption)

theorem trnCmd_same {M : Nat} {s0 : State} {k : Nat} {op : Nat} {sd : Side} {rung : Nat} {refused : Bool} {act : State → State} {s : State} (hM : Sub 0x1 M) (hact : ∀ y0, Same M s0 y0 → Same M s0 (act y0)) (hs : Same M s0 s) :
    Same M s0 (trnCmd k op sd rung refused act s) := by
  unfold trnCmd
  try dsimp only
  repeat' first
    | intro _
    | with_reducible first
      | assumption | exact hM.of (by decide)
    | with_reducible first
      | apply wr_same | apply hact | apply same_ite

theorem execTrnRetrain_same {M : Nat} {s0 : State} {k : Nat} {sd : Side} {s : State} (hM : Sub 0x82bff683 M) (hs : Same M s0 s) :
    SameO M s0 (execTrnRetrain k sd s) := by
  unfold execTrnRetrain
  try dsimp only
  repeat' first
    | intro _
    | with_reducible first
      | assumption | exact hM.of (by decide)
    | with_reducible first
      | apply ifHas_same | apply retrain_same | apply trnCmd_same | apply sameO_next | apply sameO_ite
      | exact sameO_fault

theorem execTrnStep_same {M : Nat} {s0 : State} {k : Nat} {sd : Side} {rung : Nat} {s : State} (hM : Sub 0x82bff683 M) (hs : Same M s0 s) :
    SameO M s0 (execTrnStep k sd rung s) := by
  unfold execTrnStep
  try dsimp only
  repeat' first
    | intro _
    | with_reducible first
      | assumption | exact hM.of (by decide)
    | with_reducible first
      | apply ifHas_same | apply retrain_same | apply trnCmd_same | apply sameO_next | apply sameO_ite
      | exact sameO_fault

theorem execTrnDown_same {M : Nat} {s0 : State} {k : Nat} {s : State} (hM : Sub 0x80bff683 M) (hs : Same M s0 s) :
    SameO M s0 (execTrnDown k s) := by
  unfold execTrnDown
  try dsimp only
  repeat' first
    | intro _
    | with_reducible first
      | assumption | exact hM.of (by decide)
    | with_reducible first
      | apply ifHas_same | apply linkDown_same | apply trnCmd_same | apply sameO_next | apply sameO_ite
      | exact sameO_fault

theorem restartSpan_same {M : Nat} {s0 : State} {k : Nat} {sd : Side} {s : State} (hM : Sub 0x82bff687 M) (hs : Same M s0 s) :
    Same M s0 (restartSpan k sd s) := by
  unfold restartSpan
  try dsimp only
  repeat' first
    | intro _
    | with_reducible first
      | assumption | exact hM.of (by decide)
    | with_reducible first
      | apply detectEnter_same | apply same_ite

theorem execTrnRestart_same {M : Nat} {s0 : State} {k : Nat} {sd : Side} {s : State} (hM : Sub 0x82bff687 M) (hs : Same M s0 s) :
    SameO M s0 (execTrnRestart k sd s) := by
  unfold execTrnRestart
  try dsimp only
  repeat' first
    | intro _
    | with_reducible first
      | assumption | exact hM.of (by decide)
    | with_reducible first
      | apply ifHas_same | apply trnCmd_same | apply restartSpan_same | apply sameO_next | apply sameO_ite
      | exact sameO_fault | apply same_foldl

end Sys2Proof.Machine
end

