-- ==== Sys2Proof/Laws/SameFlitPath.lean ====
section
/-! SUPPORT. What the operations of Machine/FlitPath.lean leave as it is (`Same`). -/

namespace Sys2Proof.Machine

theorem countClass_same {M : Nat} {s0 : State} {k : Nat} {d : Nat} {cls : Nat} {s : State} (hM : Sub 0x2 M) (hs : Same M s0 s) :
    Same M s0 (countClass k d cls s) := by
  unfold countClass
  try dsimp only
  repeat' first
    | intro _
    | with_reducible first
      | assumption | exact hM.of (by decide) | apply sameMk | exact Or.inl (hM.bit (by decide)) | exact Or.inr rfl
    | simp only [same_mk_iff]
    | with_reducible first
      | apply count_same
    | split
    | with_reducible first
      | (apply same_pair; assumption) | (apply same_opt; assumption) | (apply same_triple; assumption)

theorem cutChosen_same {M : Nat} {s0 : State} {k : Nat} {o : Side} {f : Nat} {r : Nat} {s : State} (hM : Sub 0x403 M) (hs : Same M s0 s) :
    SameOpt M s0 (cutChosen k o f r s) := by
  unfold cutChosen
  try dsimp only
  repeat' first
    | intro _
    | with_reducible first
      | assumption | exact hM.of (by decide) | apply sameMk | exact Or.inl (hM.bit (by decide)) | exact Or.inr rfl
    | simp only [same_mk_iff]
    | with_reducible first
      | apply calChoose_same | exact sameOpt_none | apply sameOpt_some | apply sameOpt_ite | apply sameOpt_someP
      | apply same_ite
    | split
    | with_reducible first
      | (apply same_pair; assumption) | (apply same_opt; assumption) | (apply same_triple; assumption)

theorem cutTakes_same {M : Nat} {s0 : State} {f : Nat} {x : Slot} {s : State} (hM : Sub 0x11687 M) (hs : Same M s0 s) :
    SameOpt M s0 (cutTakes f x s) := by
  unfold cutTakes
  try dsimp only
  repeat' first
    | intro _
    | with_reducible first
      | assumption | exact hM.of (by decide) | apply sameMk | exact Or.inl (hM.bit (by decide)) | exact Or.inr rfl
    | simp only [same_mk_iff]
    | with_reducible first
      | apply modFlow_same | apply allocFlow_same | apply itemDone_same | apply cutChosen_same
      | exact sameOpt_none | apply sameOpt_some | apply sameOpt_ite | apply sameOpt_someP | apply same_ite
    | split
    | with_reducible first
      | (apply same_pair; assumption) | (apply same_opt; assumption) | (apply same_triple; assumption)

theorem cutPoisoned_same {M : Nat} {s0 : State} {f : Nat} {out : Nat} {fl : Flit} {s : State} (hM : Sub 0x811002 M) (hs : Same M s0 s) :
    Same M s0 (cutPoisoned f out fl s) := by
  unfold cutPoisoned
  try dsimp only
  repeat' first
    | intro _
    | with_reducible first
      | assumption | exact hM.of (by decide)
    | with_reducible first
      | apply itemStart_same | apply countForward_same

theorem cutGood_same {M : Nat} {s0 : State} {f : Nat} {out : Nat} {r : Nat} {fl : Flit} {s : State} (hM : Sub 0x811682 M) (hs : Same M s0 s) :
    Same M s0 (cutGood f out r fl s) := by
  unfold cutGood
  try dsimp only
  repeat' first
    | intro _
    | with_reducible first
      | assumption | exact hM.of (by decide)
    | with_reducible first
      | apply refreshProxy_same | apply number_same | apply proxyCustody_same | apply itemStart_same
      | apply markSending_same | apply countForward_same | apply same_ite

theorem trunkEnter_same {M : Nat} {s0 : State} {f : Nat} {out : Nat} {fl : Flit} {cut : Bool} {s : State} (hM : Sub 0x811687 M) (hs : Same M s0 s) :
    Same M s0 (trunkEnter f out fl cut s) := by
  unfold trunkEnter
  try dsimp only
  repeat' first
    | intro _
    | with_reducible first
      | assumption | exact hM.of (by decide) | apply sameMk | exact Or.inl (hM.bit (by decide)) | exact Or.inr rfl
    | simp only [same_mk_iff]
    | with_reducible first
      | apply slotFree_same | apply entryQueued_same | apply cutTakes_same | apply cutPoisoned_same
      | apply cutGood_same | apply same_ite | exact sameOpt_none | apply sameOpt_ite
    | split
    | with_reducible first
      | (apply same_pair; assumption) | (apply same_opt; assumption) | (apply same_triple; assumption)

theorem trunkEntry_same {M : Nat} {s0 : State} {k : Nat} {sd : Side} {fl : Flit} {cut : Bool} {s : State} (hM : Sub 0x811687 M) (hs : Same M s0 s) :
    Same M s0 (trunkEntry k sd fl cut s) := by
  unfold trunkEntry
  try dsimp only
  repeat' first
    | intro _
    | with_reducible first
      | assumption | exact hM.of (by decide)
    | with_reducible first
      | apply count_same | apply trunkEnter_same | apply same_ite

theorem crossSeam_same {M : Nat} {s0 : State} {k : Nat} {sd : Side} {out : Nat} {fail1 : Bool} {fail2 : Bool} {fl : Flit} {s : State} (hM : Sub 0x3 M) (hs : Same M s0 s) :
    Same M s0 (crossSeam k sd out fail1 fail2 fl s).2 := by
  unfold crossSeam
  try dsimp only
  repeat' first
    | intro _
    | with_reducible first
      | assumption | exact hM.of (by decide)
    | with_reducible first
      | apply seamFlit_same | apply countClass_same | apply same_ite | apply same_ite2

theorem bundleEntry_same {M : Nat} {s0 : State} {k : Nat} {sd : Side} {fl : Flit} {cut : Bool} {fail1 : Bool} {fail2 : Bool} {s : State} (hM : Sub 0x811687 M) (hs : Same M s0 s) :
    Same M s0 (bundleEntry k sd fl cut fail1 fail2 s) := by
  unfold bundleEntry
  try dsimp only
  repeat' first
    | intro _
    | with_reducible first
      | assumption | exact hM.of (by decide) | apply sameMk | exact Or.inl (hM.bit (by decide)) | exact Or.inr rfl
    | simp only [same_mk_iff]
    | with_reducible first
      | apply bump_same | apply tornDrop_same | apply invalDrop_same | apply countIn_same | apply trunkEnter_same
      | apply crossSeam_same | apply same_ite | exact sameOpt_none | apply sameOpt_ite
    | split
    | with_reducible first
      | (apply same_pair; assumption) | (apply same_opt; assumption) | (apply same_triple; assumption)

theorem fifoEntry_same {M : Nat} {s0 : State} {k : Nat} {sd : Side} {fl : Flit} {fail1 : Bool} {fail2 : Bool} {s : State} (hM : Sub 0x1287 M) (hs : Same M s0 s) :
    Same M s0 (fifoEntry k sd fl fail1 fail2 s) := by
  unfold fifoEntry
  try dsimp only
  repeat' first
    | intro _
    | with_reducible first
      | assumption | exact hM.of (by decide)
    | with_reducible first
      | apply bump_same | apply fifoArrive_same | apply crossSeam_same | apply same_ite

theorem endpointArrive_same {M : Nat} {s0 : State} {k : Nat} {sd : Side} {fl : Flit} {cut : Bool} {fail1 : Bool} {fail2 : Bool} {s : State} (hM : Sub 0x811687 M) (hs : Same M s0 s) :
    Same M s0 (endpointArrive k sd fl cut fail1 fail2 s) := by
  unfold endpointArrive
  try dsimp only
  repeat' first
    | intro _
    | with_reducible first
      | assumption | exact hM.of (by decide)
    | with_reducible first
      | apply count_same | apply trunkEntry_same | apply crossSeam_same | apply bundleEntry_same
      | apply fifoEntry_same | apply same_ite

theorem acceptDone_same {M : Nat} {s0 : State} {t : Nat} {s : State} (hM : Sub 0x482 M) (hs : Same M s0 s) :
    Same M s0 (acceptDone t s) := by
  unfold acceptDone
  try dsimp only
  repeat' first
    | intro _
    | with_reducible first
      | assumption | exact hM.of (by decide)
    | with_reducible first
      | apply trunkAccepted_same | apply trunkExpect_same

theorem trunkCross_same {M : Nat} {s0 : State} {t : Nat} {f : Nat} {out : Nat} {k : Nat} {sd : Side} {fl : Flit} {fail1 : Bool} {fail2 : Bool} {s : State} (hM : Sub 0x1687 M) (hs : Same M s0 s) :
    Same M s0 (trunkCross t f out k sd fl fail1 fail2 s) := by
  unfold trunkCross
  try dsimp only
  repeat' first
    | intro _
    | with_reducible first
      | assumption | exact hM.of (by decide)
    | with_reducible first
      | apply postNak_same | apply arrivalCustody_same | apply crossSeam_same | apply same_ite

theorem bundleArrive_same {M : Nat} {s0 : State} {t : Nat} {k : Nat} {sd : Side} {fl : Flit} {fail1 : Bool} {fail2 : Bool} {s : State} (hM : Sub 0x1687 M) (hs : Same M s0 s) :
    Same M s0 (bundleArrive t k sd fl fail1 fail2 s) := by
  unfold bundleArrive
  try dsimp only
  repeat' first
    | intro _
    | with_reducible first
      | assumption | exact hM.of (by decide) | apply sameMk | exact Or.inl (hM.bit (by decide)) | exact Or.inr rfl
    | simp only [same_mk_iff]
    | with_reducible first
      | apply countCal_same | apply tornDrop_same | apply invalDrop_same | apply countIn_same
      | apply acceptDone_same | apply trunkCross_same | apply same_ite | exact sameOpt_none | apply sameOpt_ite
    | split
    | with_reducible first
      | (apply same_pair; assumption) | (apply same_opt; assumption) | (apply same_triple; assumption)

theorem inSequence_same {M : Nat} {s0 : State} {t : Nat} {k : Nat} {sd : Side} {fl : Flit} {fail1 : Bool} {fail2 : Bool} {s : State} (hM : Sub 0x1e87 M) (hs : Same M s0 s) :
    Same M s0 (inSequence t k sd fl fail1 fail2 s) := by
  unfold inSequence
  try dsimp only
  repeat' first
    | intro _
    | with_reducible first
      | assumption | exact hM.of (by decide)
    | with_reducible first
      | apply count_same | apply trunkExpect_same | apply controlFlit_same | apply acceptDone_same
      | apply trunkCross_same | apply bundleArrive_same | apply same_ite

theorem trunkArrive_same {M : Nat} {s0 : State} {k : Nat} {sd : Side} {fl : Flit} {fail1 : Bool} {fail2 : Bool} {s : State} (hM : Sub 0x1e87 M) (hs : Same M s0 s) :
    Same M s0 (trunkArrive k sd fl fail1 fail2 s) := by
  unfold trunkArrive
  try dsimp only
  repeat' first
    | intro _
    | with_reducible first
      | assumption | exact hM.of (by decide)
    | with_reducible first
      | apply countTrunk_same | apply postDrnAck_same | apply postNak_same | apply inSequence_same
      | apply same_ite

theorem flitArrive_same {M : Nat} {s0 : State} {k : Nat} {sd : Side} {sl : List Slice} {cut : Bool} {fail1 : Bool} {fail2 : Bool} {s : State} (hM : Sub 0x811e87 M) (hs : Same M s0 s) :
    Same M s0 (flitArrive k sd sl cut fail1 fail2 s) := by
  unfold flitArrive
  try dsimp only
  repeat' first
    | intro _
    | with_reducible first
      | assumption | exact hM.of (by decide)
    | with_reducible first
      | apply countClass_same | apply endpointArrive_same | apply trunkArrive_same | apply same_ite

theorem flitHeard_same {M : Nat} {s0 : State} {k : Nat} {sd : Side} {slices : List (List Nat)} {act : List Slice → State → State} {s : State} (hM : Sub 0x282bff687 M) (hact : ∀ y0 y1, Same M s0 y1 → Same M s0 (act y0 y1)) (hs : Same M s0 s) :
    Same M s0 (flitHeard k sd slices act s) := by
  unfold flitHeard
  try dsimp only
  repeat' first
    | intro _
    | with_reducible first
      | assumption | exact hM.of (by decide)
    | with_reducible first
      | apply slicesHeard_same | apply hact | apply same_ite

theorem execFlitReceive_same {M : Nat} {s0 : State} {k : Nat} {sd : Side} {slices : List (List Nat)} {cut : Bool} {fail1 : Bool} {fail2 : Bool} {s : State} (hM : Sub 0x282bffe87 M) (hs : Same M s0 s) :
    SameO M s0 (execFlitReceive k sd slices cut fail1 fail2 s) := by
  unfold execFlitReceive
  try dsimp only
  repeat' first
    | intro _
    | with_reducible first
      | assumption | exact hM.of (by decide)
    | with_reducible first
      | apply onUnit_same | apply flitArrive_same | apply flitHeard_same | apply sameO_next | apply sameO_ite
      | exact sameO_fault | apply same_ite

theorem execControlFlitReceive_same {M : Nat} {s0 : State} {k : Nat} {sd : Side} {slices : List (List Nat)} {s : State} (hM : Sub 0x282bffe87 M) (hs : Same M s0 s) :
    SameO M s0 (execControlFlitReceive k sd slices s) := by
  unfold execControlFlitReceive
  try dsimp only
  repeat' first
    | intro _
    | with_reducible first
      | assumption | exact hM.of (by decide)
    | with_reducible first
      | apply onUnit_same | apply flitArrive_same | apply flitHeard_same | apply sameO_next | apply sameO_ite
      | exact sameO_fault | apply same_ite

theorem ackToFlow_same {M : Nat} {s0 : State} {f : Nat} {a : AckSet} {s : State} (hM : Sub 0x1682 M) (hs : Same M s0 s) :
    Same M s0 (ackToFlow f a s) := by
  unfold ackToFlow
  try dsimp only
  repeat' first
    | intro _
    | with_reducible first
      | assumption | exact hM.of (by decide) | apply sameMk | exact Or.inl (hM.bit (by decide)) | exact Or.inr rfl
    | simp only [same_mk_iff]
    | with_reducible first
      | apply modFlow_same | apply darnObserve_same

theorem ackForward_same {M : Nat} {s0 : State} {k : Nat} {sd : Side} {a : AckSet} {fail1 : Bool} {fail2 : Bool} {s : State} (hM : Sub 0x1003 M) (hs : Same M s0 s) :
    Same M s0 (ackForward k sd a fail1 fail2 s) := by
  unfold ackForward
  try dsimp only
  repeat' first
    | intro _
    | with_reducible first
      | assumption | exact hM.of (by decide) | apply sameMk | exact Or.inl (hM.bit (by decide)) | exact Or.inr rfl
    | simp only [same_mk_iff]
    | with_reducible first
      | apply seamSend_same | apply postAck_same | apply same_ite
    | split
    | with_reducible first
      | (apply same_pair; assumption) | (apply same_opt; assumption) | (apply same_triple; assumption)

theorem ackArrive_same {M : Nat} {s0 : State} {k : Nat} {sd : Side} {a : AckSet} {fail1 : Bool} {fail2 : Bool} {s : State} (hM : Sub 0x1683 M) (hs : Same M s0 s) :
    Same M s0 (ackArrive k sd a fail1 fail2 s) := by
  unfold ackArrive
  try dsimp only
  repeat' first
    | intro _
    | with_reducible first
      | assumption | exact hM.of (by decide) | apply sameMk | exact Or.inl (hM.bit (by decide)) | exact Or.inr rfl
    | simp only [same_mk_iff]
    | with_reducible first
      | apply wr_same | apply modFlow_same | apply darnObserve_same | apply countCal_same | apply ackToFlow_same
      | apply ackForward_same | apply same_ite | exact sameOpt_none | apply sameOpt_ite
    | split
    | with_reducible first
      | (apply same_pair; assumption) | (apply same_opt; assumption) | (apply same_triple; assumption)

theorem execAckSetReceive_same {M : Nat} {s0 : State} {k : Nat} {sd : Side} {heard : List Heard} {fail1 : Bool} {fail2 : Bool} {s : State} (hM : Sub 0x282bff687 M) (hs : Same M s0 s) :
    SameO M s0 (execAckSetReceive k sd heard fail1 fail2 s) := by
  unfold execAckSetReceive
  try dsimp only
  repeat' first
    | intro _
    | with_reducible first
      | assumption | exact hM.of (by decide) | apply sameMk | exact Or.inl (hM.bit (by decide)) | exact Or.inr rfl
    | simp only [same_mk_iff]
    | with_reducible first
      | apply onUnit_same | apply setArrives_same | apply ackArrive_same | apply sameO_next | apply sameO_ite
      | exact sameO_fault | apply same_ite | exact sameOpt_none | apply sameOpt_ite
    | split
    | with_reducible first
      | (apply same_pair; assumption) | (apply same_opt; assumption) | (apply same_triple; assumption)

theorem execIdlReceive_same {M : Nat} {s0 : State} {k : Nat} {sd : Side} {heard : List Heard} {s : State} (hM : Sub 0x282bff687 M) (hs : Same M s0 s) :
    SameO M s0 (execIdlReceive k sd heard s) := by
  unfold execIdlReceive
  try dsimp only
  repeat' first
    | intro _
    | with_reducible first
      | assumption | exact hM.of (by decide)
    | with_reducible first
      | apply onUnit_same | apply setArrives_same | apply sameO_next | apply sameO_ite | exact sameO_fault
      | apply same_ite

theorem execEieReceive_same {M : Nat} {s0 : State} {k : Nat} {sd : Side} {heard : List Heard} {s : State} (hM : Sub 0x282bff687 M) (hs : Same M s0 s) :
    SameO M s0 (execEieReceive k sd heard s) := by
  unfold execEieReceive
  try dsimp only
  repeat' first
    | intro _
    | with_reducible first
      | assumption | exact hM.of (by decide) | apply sameMk | exact Or.inl (hM.bit (by decide)) | exact Or.inr rfl
    | simp only [same_mk_iff]
    | with_reducible first
      | apply onUnit_same | apply putSide_same | apply setArrives_same | apply sameO_next | apply sameO_ite
      | exact sameO_fault | apply same_ite | exact sameOpt_none | apply sameOpt_ite
    | split
    | with_reducible first
      | (apply same_pair; assumption) | (apply same_opt; assumption) | (apply same_triple; assumption)

theorem ebTake_same {M : Nat} {s0 : State} {k : Nat} {sd : Side} {n : Nat} {fill : Nat} {s : State} (hM : Sub 0x8003 M) (hs : Same M s0 s) :
    Same M s0 (ebTake k sd n fill s).2 := by
  unfold ebTake
  try dsimp only
  repeat' first
    | intro _
    | with_reducible first
      | assumption | exact hM.of (by decide) | apply sameMk | exact Or.inl (hM.bit (by decide)) | exact Or.inr rfl
    | simp only [same_mk_iff]
    | with_reducible first
      | apply wr_same | apply countBy_same | apply putRx_same | apply same_ite | apply same_ite2
      | apply same_foldl | exact sameOpt_none | apply sameOpt_ite
    | split
    | with_reducible first
      | (apply same_pair; assumption) | (apply same_opt; assumption) | (apply same_triple; assumption)

theorem denseSeen_same {M : Nat} {s0 : State} {k : Nat} {sd : Side} {interval : Nat} {s : State} (hM : Sub 0x21001 M) (hs : Same M s0 s) :
    Same M s0 (denseSeen k sd interval s) := by
  unfold denseSeen
  try dsimp only
  repeat' first
    | intro _
    | with_reducible first
      | assumption | exact hM.of (by decide) | apply sameMk | exact Or.inl (hM.bit (by decide)) | exact Or.inr rfl
    | simp only [same_mk_iff]
    | with_reducible first
      | apply wrB_same | apply putSide_same | apply putCk_same | apply same_ite | apply same_foldl

theorem skpArrive_same {M : Nat} {s0 : State} {k : Nat} {sd : Side} {n : Nat} {fill : Nat} {interval : Nat} {s : State} (hM : Sub 0x29003 M) (hs : Same M s0 s) :
    Same M s0 (skpArrive k sd n fill interval s) := by
  unfold skpArrive
  try dsimp only
  repeat' first
    | intro _
    | with_reducible first
      | assumption | exact hM.of (by decide) | apply sameMk | exact Or.inl (hM.bit (by decide)) | exact Or.inr rfl
    | simp only [same_mk_iff]
    | with_reducible first
      | apply putSide_same | apply ebTake_same | apply denseSeen_same | apply same_ite

theorem execSkpReceive_same {M : Nat} {s0 : State} {k : Nat} {sd : Side} {heard : List Heard} {fill : Nat} {interval : Nat} {s : State} (hM : Sub 0x282bff687 M) (hs : Same M s0 s) :
    SameO M s0 (execSkpReceive k sd heard fill interval s) := by
  unfold execSkpReceive
  try dsimp only
  repeat' first
    | intro _
    | with_reducible first
      | assumption | exact hM.of (by decide) | apply sameMk | exact Or.inl (hM.bit (by decide)) | exact Or.inr rfl
    | simp only [same_mk_iff]
    | with_reducible first
      | apply onUnit_same | apply setArrives_same | apply skpArrive_same | apply sameO_next | apply sameO_ite
      | exact sameO_fault | apply same_ite | exact sameOpt_none | apply sameOpt_ite
    | split
    | with_reducible first
      | (apply same_pair; assumption) | (apply same_opt; assumption) | (apply same_triple; assumption)

theorem execEbSlip_same {M : Nat} {s0 : State} {e : LaneEnd} {full : Bool} {pos : Nat} {s : State} (hM : Sub 0x8002 M) (hs : Same M s0 s) :
    SameO M s0 (execEbSlip e full pos s) := by
  unfold execEbSlip
  try dsimp only
  repeat' first
    | intro _
    | with_reducible first
      | assumption | exact hM.of (by decide) | apply sameMk | exact Or.inl (hM.bit (by decide)) | exact Or.inr rfl
    | simp only [same_mk_iff]
    | with_reducible first
      | apply onUnit_same | apply count_same | apply putRx_same | apply sameO_next | apply sameO_ite
      | exact sameO_fault | apply same_ite | apply same_foldl | exact sameOpt_none | apply sameOpt_ite
    | split
    | with_reducible first
      | (apply same_pair; assumption) | (apply same_opt; assumption) | (apply same_triple; assumption)

theorem execSkpDue_same {M : Nat} {s0 : State} {k : Nat} {sd : Side} {s : State} (hM : Sub 0x1000 M) (hs : Same M s0 s) :
    SameO M s0 (execSkpDue k sd s) := by
  unfold execSkpDue
  try dsimp only
  repeat' first
    | intro _
    | with_reducible first
      | assumption | exact hM.of (by decide) | apply sameMk | exact Or.inl (hM.bit (by decide)) | exact Or.inr rfl
    | simp only [same_mk_iff]
    | with_reducible first
      | apply onUnit_same | apply putSide_same | apply sameO_next | apply sameO_ite | exact sameO_fault
      | apply same_ite

theorem deskew_same {M : Nat} {s0 : State} {n : Nat} {sd : Side} {skew : Nat} {s : State} (hM : Sub 0x80bff683 M) (hs : Same M s0 s) :
    Same M s0 (deskew n sd skew s) := by
  unfold deskew
  try dsimp only
  repeat' first
    | intro _
    | with_reducible first
      | assumption | exact hM.of (by decide) | apply sameMk | exact Or.inl (hM.bit (by decide)) | exact Or.inr rfl
    | simp only [same_mk_iff]
    | with_reducible first
      | apply wr_same | apply putRx_same | apply linkDown_same | apply qualifyCheck_same | apply same_ite
      | exact sameOpt_none | apply sameOpt_ite
    | split
    | with_reducible first
      | (apply same_pair; assumption) | (apply same_opt; assumption) | (apply same_triple; assumption)

theorem execDeskewRemeasure_same {M : Nat} {s0 : State} {n : Nat} {sd : Side} {skew : Nat} {s : State} (hM : Sub 0x80bff683 M) (hs : Same M s0 s) :
    SameO M s0 (execDeskewRemeasure n sd skew s) := by
  unfold execDeskewRemeasure
  try dsimp only
  repeat' first
    | intro _
    | with_reducible first
      | assumption | exact hM.of (by decide)
    | with_reducible first
      | apply onUnit_same | apply deskew_same | apply sameO_next | apply sameO_ite | exact sameO_fault
      | apply same_ite

theorem passSends_same {M : Nat} {s0 : State} {k : Nat} {sd : Side} {t : TrnSet} {s : State} (hM : Sub 0x7001 M) (hs : Same M s0 s) :
    Same M s0 (passSends k sd t s) := by
  unfold passSends
  try dsimp only
  repeat' first
    | intro _
    | with_reducible first
      | assumption | exact hM.of (by decide) | apply sameMk | exact Or.inl (hM.bit (by decide)) | exact Or.inr rfl
    | simp only [same_mk_iff]
    | with_reducible first
      | apply modSpan_same | apply groupStep_same | apply armCheck_same | apply same_ite

theorem itemEnds_same {M : Nat} {s0 : State} {k : Nat} {sd : Side} {i : Item} {s : State} (hM : Sub 0x82bff683 M) (hs : Same M s0 s) :
    Same M s0 (itemEnds k sd i s) := by
  unfold itemEnds
  try dsimp only
  repeat' first
    | intro _
    | with_reducible first
      | assumption | exact hM.of (by decide) | apply sameMk | exact Or.inl (hM.bit (by decide)) | exact Or.inr rfl
    | simp only [same_mk_iff]
    | with_reducible first
      | apply modSpan_same | apply sideIdle_same | apply sideEie_same | apply linkClocks_same
      | apply switchTo_same | apply detectCheck_same | apply passSends_same | apply same_ite
    | split
    | with_reducible first
      | (apply same_pair; assumption) | (apply same_opt; assumption) | (apply same_triple; assumption)

theorem leaveSend_same {M : Nat} {s0 : State} {k : Nat} {sd : Side} {s : State} (hM : Sub 0x82bff683 M) (hs : Same M s0 s) :
    Same M s0 (leaveSend k sd s) := by
  unfold leaveSend
  try dsimp only
  repeat' first
    | intro _
    | with_reducible first
      | assumption | exact hM.of (by decide) | apply sameMk | exact Or.inl (hM.bit (by decide)) | exact Or.inr rfl
    | simp only [same_mk_iff]
    | with_reducible first
      | apply putSide_same | apply eieRest_same | apply idleClocks_same | apply detectCheck_same | apply same_ite
      | apply same_foldl

theorem txResume_same {M : Nat} {s0 : State} {k : Nat} {sd : Side} {s : State} (hM : Sub 0x10682 M) (hs : Same M s0 s) :
    Same M s0 (txResume k sd s) := by
  unfold txResume
  try dsimp only
  repeat' first
    | intro _
    | with_reducible first
      | assumption | exact hM.of (by decide) | apply sameMk | exact Or.inl (hM.bit (by decide)) | exact Or.inr rfl
    | simp only [same_mk_iff]
    | with_reducible first
      | apply putTx_same | apply syncFreeze_same | apply same_foldl

theorem execSendNext_same {M : Nat} {s0 : State} {k : Nat} {sd : Side} {r1 : EccRead} {r2 : EccRead} {s : State} (hM : Sub 0x82bff787 M) (hs : Same M s0 s) :
    SameO M s0 (execSendNext k sd r1 r2 s) := by
  unfold execSendNext
  try dsimp only
  repeat' first
    | intro _
    | with_reducible first
      | assumption | exact hM.of (by decide)
    | with_reducible first
      | apply onUnit_same | apply itemDone_same | apply itemStart_same | apply chooseItem_same
      | apply itemEnds_same | apply leaveSend_same | apply txResume_same | apply sameO_next | apply sameO_ite
      | exact sameO_fault | apply same_ite

theorem execFltSnap_same {M : Nat} {s0 : State} {k : Nat} {s : State} (hM : Sub 0x40000001 M) (hs : Same M s0 s) :
    SameO M s0 (execFltSnap k s) := by
  unfold execFltSnap
  try dsimp only
  repeat' first
    | intro _
    | with_reducible first
      | assumption | exact hM.of (by decide)
    | with_reducible first
      | apply bumpWrap_same | apply latchAll_same | apply latchAll64_same | apply ifHas_same
      | apply answerWord_same | apply sameO_next | apply sameO_ite | exact sameO_fault

theorem execFltClr_same {M : Nat} {s0 : State} {k : Nat} {s : State} (hM : Sub 0x2 M) (hs : Same M s0 s) :
    SameO M s0 (execFltClr k s) := by
  unfold execFltClr
  try dsimp only
  repeat' first
    | intro _
    | with_reducible first
      | assumption | exact hM.of (by decide)
    | with_reducible first
      | apply zeroLive_same | apply ifHas_same | apply sameO_next | apply sameO_ite | exact sameO_fault

end Sys2Proof.Machine
end

