-- ==== Sys2Proof/Laws/SameIdentity.lean ====
section
/-! SUPPORT. What the operations of Machine/Identity.lean leave as it is (`Same`). -/

namespace Sys2Proof.Machine

theorem clearKeyData_same {M : Nat} {s0 : State} {s : State} (hM : Sub 0x1 M) (hs : Same M s0 s) :
    Same M s0 (clearKeyData s) := by
  unfold clearKeyData
  try dsimp only
  repeat' first
    | intro _
    | with_reducible first
      | assumption | exact hM.of (by decide)
    | with_reducible first
      | apply wr_same | apply same_foldl

theorem setSession_same {M : Nat} {s0 : State} {slot : Nat} {key : Option (List Nat)} {s : State} (hM : Sub 0x80000003 M) (hs : Same M s0 s) :
    Same M s0 (setSession slot key s) := by
  unfold setSession
  try dsimp only
  repeat' first
    | intro _
    | with_reducible first
      | assumption | exact hM.of (by decide) | apply sameMk | exact Or.inl (hM.bit (by decide)) | exact Or.inr rfl
    | simp only [same_mk_iff]
    | with_reducible first
      | apply wr_same | apply putLive_same | apply same_ite | exact sameOpt_none | apply sameOpt_ite
    | split
    | with_reducible first
      | (apply same_pair; assumption) | (apply same_opt; assumption) | (apply same_triple; assumption)

theorem enroll_same {M : Nat} {s0 : State} {slot : Nat} {s : State} (hM : Sub 0x21 M) (hs : Same M s0 s) :
    Same M s0 (enroll slot s) := by
  unfold enroll
  try dsimp only
  repeat' first
    | intro _
    | with_reducible first
      | assumption | exact hM.of (by decide) | apply sameMk | exact Or.inl (hM.bit (by decide)) | exact Or.inr rfl
    | simp only [same_mk_iff]
    | with_reducible first
      | apply wr_same

theorem revoke_same {M : Nat} {s0 : State} {slot : Nat} {s : State} (hM : Sub 0x21 M) (hs : Same M s0 s) :
    Same M s0 (revoke slot s) := by
  unfold revoke
  try dsimp only
  repeat' first
    | intro _
    | with_reducible first
      | assumption | exact hM.of (by decide) | apply sameMk | exact Or.inl (hM.bit (by decide)) | exact Or.inr rfl
    | simp only [same_mk_iff]
    | with_reducible first
      | apply wr_same

theorem keyGo_same {M : Nat} {s0 : State} {op : Nat} {slot : Nat} {s : State} (hM : Sub 0x80000023 M) (hs : Same M s0 s) :
    Same M s0 (keyGo op slot s) := by
  unfold keyGo
  try dsimp only
  repeat' first
    | intro _
    | with_reducible first
      | assumption | exact hM.of (by decide) | apply sameMk | exact Or.inl (hM.bit (by decide)) | exact Or.inr rfl
    | simp only [same_mk_iff]
    | with_reducible first
      | apply wr_same | apply clearKeyData_same | apply setSession_same | apply enroll_same | apply revoke_same
      | apply same_ite | exact sameOpt_none | apply sameOpt_ite
    | split
    | with_reducible first
      | (apply same_pair; assumption) | (apply same_opt; assumption) | (apply same_triple; assumption)

theorem execKeyLoad_same {M : Nat} {s0 : State} {slot : Nat} {s : State} (hM : Sub 0x80000023 M) (hs : Same M s0 s) :
    SameO M s0 (execKeyLoad slot s) := by
  unfold execKeyLoad
  try dsimp only
  repeat' first
    | intro _
    | with_reducible first
      | assumption | exact hM.of (by decide)
    | with_reducible first
      | apply ifOpen_same | apply keyGo_same | apply sameO_next | apply sameO_ite | exact sameO_fault

theorem execKeyClear_same {M : Nat} {s0 : State} {slot : Nat} {s : State} (hM : Sub 0x80000023 M) (hs : Same M s0 s) :
    SameO M s0 (execKeyClear slot s) := by
  unfold execKeyClear
  try dsimp only
  repeat' first
    | intro _
    | with_reducible first
      | assumption | exact hM.of (by decide)
    | with_reducible first
      | apply ifOpen_same | apply keyGo_same | apply sameO_next | apply sameO_ite | exact sameO_fault

theorem execKeyEnroll_same {M : Nat} {s0 : State} {slot : Nat} {s : State} (hM : Sub 0x80000023 M) (hs : Same M s0 s) :
    SameO M s0 (execKeyEnroll slot s) := by
  unfold execKeyEnroll
  try dsimp only
  repeat' first
    | intro _
    | with_reducible first
      | assumption | exact hM.of (by decide)
    | with_reducible first
      | apply ifOpen_same | apply keyGo_same | apply sameO_next | apply sameO_ite | exact sameO_fault

theorem execKeyRevoke_same {M : Nat} {s0 : State} {slot : Nat} {s : State} (hM : Sub 0x80000023 M) (hs : Same M s0 s) :
    SameO M s0 (execKeyRevoke slot s) := by
  unfold execKeyRevoke
  try dsimp only
  repeat' first
    | intro _
    | with_reducible first
      | assumption | exact hM.of (by decide)
    | with_reducible first
      | apply ifOpen_same | apply keyGo_same | apply sameO_next | apply sameO_ite | exact sameO_fault

theorem makeReport_same {M : Nat} {s0 : State} {s : State} (hM : Sub 0x100000001 M) (hs : Same M s0 s) :
    Same M s0 (makeReport s) := by
  unfold makeReport
  try dsimp only
  repeat' first
    | intro _
    | with_reducible first
      | assumption | exact hM.of (by decide) | apply sameMk | exact Or.inl (hM.bit (by decide)) | exact Or.inr rfl
    | simp only [same_mk_iff]
    | with_reducible first
      | apply wr_same | apply same_foldl

theorem startReport_same {M : Nat} {s0 : State} {nonce : List Nat} {s : State} (hM : Sub 0x100000001 M) (hs : Same M s0 s) :
    Same M s0 (startReport nonce s) := by
  unfold startReport
  try dsimp only
  repeat' first
    | intro _
    | with_reducible first
      | assumption | exact hM.of (by decide) | apply sameMk | exact Or.inl (hM.bit (by decide)) | exact Or.inr rfl
    | simp only [same_mk_iff]
    | with_reducible first
      | apply wr_same

theorem attGo_same {M : Nat} {s0 : State} {s : State} (hM : Sub 0x100000001 M) (hs : Same M s0 s) :
    Same M s0 (attGo s) := by
  unfold attGo
  try dsimp only
  repeat' first
    | intro _
    | with_reducible first
      | assumption | exact hM.of (by decide)
    | with_reducible first
      | apply wr_same | apply startReport_same | apply same_ite

theorem execAttGenerate_same {M : Nat} {s0 : State} {s : State} (hM : Sub 0x100000001 M) (hs : Same M s0 s) :
    SameO M s0 (execAttGenerate s) := by
  unfold execAttGenerate
  try dsimp only
  repeat' first
    | intro _
    | with_reducible first
      | assumption | exact hM.of (by decide)
    | with_reducible first
      | apply ifOpen_same | apply attGo_same | apply sameO_next | apply sameO_ite | exact sameO_fault

theorem execAttGenerateDone_same {M : Nat} {s0 : State} {s : State} (hM : Sub 0x100000001 M) (hs : Same M s0 s) :
    SameO M s0 (execAttGenerateDone s) := by
  unfold execAttGenerateDone
  try dsimp only
  repeat' first
    | intro _
    | with_reducible first
      | assumption | exact hM.of (by decide)
    | with_reducible first
      | apply wr_same | apply makeReport_same | apply sameO_next | apply sameO_ite | exact sameO_fault
      | apply same_ite

theorem execPrickingDigestDone_same {M : Nat} {s0 : State} {s : State} (hM : Sub 0x100000001 M) (hs : Same M s0 s) :
    SameO M s0 (execPrickingDigestDone s) := by
  unfold execPrickingDigestDone
  try dsimp only
  repeat' first
    | intro _
    | with_reducible first
      | assumption | exact hM.of (by decide) | apply sameMk | exact Or.inl (hM.bit (by decide)) | exact Or.inr rfl
    | simp only [same_mk_iff]
    | with_reducible first
      | apply putDigest_same | apply sameO_next | apply sameO_ite | exact sameO_fault | apply same_ite

end Sys2Proof.Machine
end

