-- ==== Sys2Proof/Laws/SamePricking.lean ====
section
/-! SUPPORT. What the operations of Machine/Pricking.lean leave as it is (`Same`). -/

namespace Sys2Proof.Machine

theorem goLive_same {M : Nat} {s0 : State} {ps : List (Fld × Fld)} {s : State} (hM : Sub 0x1 M) (hs : Same M s0 s) :
    Same M s0 (goLive ps s) := by
  unfold goLive
  try dsimp only
  repeat' first
    | intro _
    | with_reducible first
      | assumption | exact hM.of (by decide)
    | with_reducible first
      | apply wr_same | apply same_foldl

theorem goStaged_same {M : Nat} {s0 : State} {ps : List (Fld × Fld)} {s : State} (hM : Sub 0x1 M) (hs : Same M s0 s) :
    Same M s0 (goStaged ps s) := by
  unfold goStaged
  try dsimp only
  repeat' first
    | intro _
    | with_reducible first
      | assumption | exact hM.of (by decide)
    | with_reducible first
      | apply wr_same | apply same_foldl

theorem prkGo_same {M : Nat} {s0 : State} {op : Nat} {s : State} (hM : Sub 0x1000001 M) (hs : Same M s0 s) :
    Same M s0 (prkGo op s) := by
  unfold prkGo
  try dsimp only
  repeat' first
    | intro _
    | with_reducible first
      | assumption | exact hM.of (by decide)
    | with_reducible first
      | apply wr_same | apply checkBegin_same | apply goStaged_same | apply same_ite

theorem execPrkCommit_same {M : Nat} {s0 : State} {s : State} (hM : Sub 0x1000001 M) (hs : Same M s0 s) :
    SameO M s0 (execPrkCommit s) := by
  unfold execPrkCommit
  try dsimp only
  repeat' first
    | intro _
    | with_reducible first
      | assumption | exact hM.of (by decide)
    | with_reducible first
      | apply ifOpen_same | apply prkGo_same | apply sameO_next | apply sameO_ite | exact sameO_fault

theorem execPrkCheck_same {M : Nat} {s0 : State} {s : State} (hM : Sub 0x1000001 M) (hs : Same M s0 s) :
    SameO M s0 (execPrkCheck s) := by
  unfold execPrkCheck
  try dsimp only
  repeat' first
    | intro _
    | with_reducible first
      | assumption | exact hM.of (by decide)
    | with_reducible first
      | apply ifOpen_same | apply prkGo_same | apply sameO_next | apply sameO_ite | exact sameO_fault

theorem execPrkRevert_same {M : Nat} {s0 : State} {s : State} (hM : Sub 0x1000001 M) (hs : Same M s0 s) :
    SameO M s0 (execPrkRevert s) := by
  unfold execPrkRevert
  try dsimp only
  repeat' first
    | intro _
    | with_reducible first
      | assumption | exact hM.of (by decide)
    | with_reducible first
      | apply ifOpen_same | apply prkGo_same | apply sameO_next | apply sameO_ite | exact sameO_fault

theorem linkGo_same {M : Nat} {s0 : State} {k : Nat} {checkOnly : Bool} {s : State} (hM : Sub 0x1000001 M) (hs : Same M s0 s) :
    Same M s0 (linkGo k checkOnly s) := by
  unfold linkGo
  try dsimp only
  repeat' first
    | intro _
    | with_reducible first
      | assumption | exact hM.of (by decide)
    | with_reducible first
      | apply wr_same | apply wrB_same | apply checkBegin_same | apply same_ite

theorem execLnkCommit_same {M : Nat} {s0 : State} {k : Nat} {checkOnly : Bool} {s : State} (hM : Sub 0x1000001 M) (hs : Same M s0 s) :
    SameO M s0 (execLnkCommit k checkOnly s) := by
  unfold execLnkCommit
  try dsimp only
  repeat' first
    | intro _
    | with_reducible first
      | assumption | exact hM.of (by decide)
    | with_reducible first
      | apply ifHas_same | apply linkGo_same | apply sameO_next | apply sameO_ite | exact sameO_fault

theorem proofStatus_same {M : Nat} {s0 : State} {k : Nat} {s : State} (hM : Sub 0x1 M) (hs : Same M s0 s) :
    Same M s0 (proofStatus k s) := by
  unfold proofStatus
  try dsimp only
  repeat' first
    | intro _
    | with_reducible first
      | assumption | exact hM.of (by decide)
    | with_reducible first
      | apply wr_same | apply wrB_same

theorem proofSide_same {M : Nat} {s0 : State} {s : State} {x : List Nat} (hM : Sub 0x4001 M) (hs : Same M s0 s) :
    Same M s0 (proofSide s x) := by
  unfold proofSide
  try dsimp only
  repeat' first
    | intro _
    | with_reducible first
      | assumption | exact hM.of (by decide) | apply sameMk | exact Or.inl (hM.bit (by decide)) | exact Or.inr rfl
    | simp only [same_mk_iff]
    | with_reducible first
      | apply wr_same | apply putLink_same | apply same_ite

theorem proofNone_same {M : Nat} {s0 : State} {k : Nat} {d : Nat} {s : State} (hM : Sub 0x1 M) (hs : Same M s0 s) :
    Same M s0 (proofNone k d s) := by
  unfold proofNone
  try dsimp only
  repeat' first
    | intro _
    | with_reducible first
      | assumption | exact hM.of (by decide)
    | with_reducible first
      | apply wr_same

theorem proofClear_same {M : Nat} {s0 : State} {k : Nat} {s : State} (hM : Sub 0x1 M) (hs : Same M s0 s) :
    Same M s0 (proofClear k s) := by
  unfold proofClear
  try dsimp only
  repeat' first
    | intro _
    | with_reducible first
      | assumption | exact hM.of (by decide)
    | with_reducible first
      | apply wr_same | apply same_foldl

theorem applyFigures_same {M : Nat} {s0 : State} {s : State} (hM : Sub 0x1 M) (hs : Same M s0 s) :
    Same M s0 (applyFigures s) := by
  unfold applyFigures
  try dsimp only
  repeat' first
    | intro _
    | with_reducible first
      | assumption | exact hM.of (by decide)
    | with_reducible first
      | apply wr_same | apply same_foldl

theorem proofFigures_same {M : Nat} {s0 : State} {s : State} (hM : Sub 0x1 M) (hs : Same M s0 s) :
    Same M s0 (proofFigures s) := by
  unfold proofFigures
  try dsimp only
  repeat' first
    | intro _
    | with_reducible first
      | assumption | exact hM.of (by decide)
    | with_reducible first
      | apply wr_same | apply same_ite | apply same_foldl

theorem proofWrite_same {M : Nat} {s0 : State} {s : State} (hM : Sub 0x4001 M) (hs : Same M s0 s) :
    Same M s0 (proofWrite s) := by
  unfold proofWrite
  try dsimp only
  repeat' first
    | intro _
    | with_reducible first
      | assumption | exact hM.of (by decide)
    | with_reducible first
      | apply proofStatus_same | apply proofSide_same | apply proofNone_same | apply proofClear_same
      | apply proofFigures_same | apply same_ite | apply same_foldl

theorem prkState_same {M : Nat} {s0 : State} {s : State} (hM : Sub 0x1000001 M) (hs : Same M s0 s) :
    Same M s0 (prkState s) := by
  unfold prkState
  try dsimp only
  repeat' first
    | intro _
    | with_reducible first
      | assumption | exact hM.of (by decide)
    | with_reducible first
      | apply prkEnd_same

theorem markUnproved_same {M : Nat} {s0 : State} {k : Nat} {s : State} (hM : Sub 0x1 M) (hs : Same M s0 s) :
    Same M s0 (markUnproved k s) := by
  unfold markUnproved
  try dsimp only
  repeat' first
    | intro _
    | with_reducible first
      | assumption | exact hM.of (by decide)
    | with_reducible first
      | apply wr_same

theorem shedLink_same {M : Nat} {s0 : State} {k : Nat} {s : State} (hM : Sub 0x803ef683 M) (hs : Same M s0 s) :
    Same M s0 (shedLink k s) := by
  unfold shedLink
  try dsimp only
  repeat' first
    | intro _
    | with_reducible first
      | assumption | exact hM.of (by decide)
    | with_reducible first
      | apply wr_same | apply bump_same | apply linkHalt_same

theorem shedDie_same {M : Nat} {s0 : State} {d : Nat} {s : State} (hM : Sub 0x803ef683 M) (hs : Same M s0 s) :
    Same M s0 (shedDie d s) := by
  unfold shedDie
  try dsimp only
  repeat' first
    | intro _
    | with_reducible first
      | assumption | exact hM.of (by decide)
    | with_reducible first
      | apply shedLink_same | apply same_ite | apply same_foldl

theorem recheckFails_same {M : Nat} {s0 : State} {r : List Nat} {s : State} (hM : Sub 0x803ef683 M) (hs : Same M s0 s) :
    Same M s0 (recheckFails r s) := by
  unfold recheckFails
  try dsimp only
  repeat' first
    | intro _
    | with_reducible first
      | assumption | exact hM.of (by decide)
    | with_reducible first
      | apply proofFigures_same | apply markUnproved_same | apply shedDie_same | apply same_ite | apply same_foldl

theorem checkEnd_same {M : Nat} {s0 : State} {s : State} (hM : Sub 0x813ef683 M) (hs : Same M s0 s) :
    Same M s0 (checkEnd s) := by
  unfold checkEnd
  try dsimp only
  repeat' first
    | intro _
    | with_reducible first
      | assumption | exact hM.of (by decide) | apply sameMk | exact Or.inl (hM.bit (by decide)) | exact Or.inr rfl
    | simp only [same_mk_iff]
    | with_reducible first
      | apply wr_same | apply prkEnd_same | apply proofWrite_same | apply prkState_same | apply recheckFails_same
      | apply same_ite

theorem execCheckEnd_same {M : Nat} {s0 : State} {s : State} (hM : Sub 0x813ef683 M) (hs : Same M s0 s) :
    SameO M s0 (execCheckEnd s) := by
  unfold execCheckEnd
  try dsimp only
  repeat' first
    | intro _
    | with_reducible first
      | assumption | exact hM.of (by decide)
    | with_reducible first
      | apply checkEnd_same | apply sameO_next | apply sameO_ite | exact sameO_fault

theorem sideGiveUp_same {M : Nat} {s0 : State} {k : Nat} {sd : Side} {s : State} (hM : Sub 0x1000 M) (hs : Same M s0 s) :
    Same M s0 (sideGiveUp k sd s) := by
  unfold sideGiveUp
  try dsimp only
  repeat' first
    | intro _
    | with_reducible first
      | assumption | exact hM.of (by decide)
    | with_reducible first
      | apply putSide_same | apply lanesLeave_same

theorem linkRemove_same {M : Nat} {s0 : State} {k : Nat} {s : State} (hM : Sub 0x803ef683 M) (hs : Same M s0 s) :
    Same M s0 (linkRemove k s) := by
  unfold linkRemove
  try dsimp only
  repeat' first
    | intro _
    | with_reducible first
      | assumption | exact hM.of (by decide)
    | with_reducible first
      | apply linkHalt_same | apply sideGiveUp_same | apply same_foldl

theorem linkRestart_same {M : Nat} {s0 : State} {k : Nat} {s : State} (hM : Sub 0x80bff683 M) (hs : Same M s0 s) :
    Same M s0 (linkRestart k s) := by
  unfold linkRestart
  try dsimp only
  repeat' first
    | intro _
    | with_reducible first
      | assumption | exact hM.of (by decide) | apply sameMk | exact Or.inl (hM.bit (by decide)) | exact Or.inr rfl
    | simp only [same_mk_iff]
    | with_reducible first
      | apply putLink_same | apply spanDown_same | apply linkClocks_same | apply linkDown_same
      | apply spanHold_same | apply sideGiveUp_same | apply same_ite | apply same_foldl

theorem linkBefore_same {M : Nat} {s0 : State} {k : Nat} {s : State} (hM : Sub 0x80bff683 M) (hs : Same M s0 s) :
    Same M s0 (linkBefore k s) := by
  unfold linkBefore
  try dsimp only
  repeat' first
    | intro _
    | with_reducible first
      | assumption | exact hM.of (by decide)
    | with_reducible first
      | apply linkRemove_same | apply linkRestart_same | apply same_ite

theorem calBefore_same {M : Nat} {s0 : State} {c : Nat} {s : State} (hM : Sub 0x483 M) (hs : Same M s0 s) :
    Same M s0 (calBefore c s) := by
  unfold calBefore
  try dsimp only
  repeat' first
    | intro _
    | with_reducible first
      | assumption | exact hM.of (by decide)
    | with_reducible first
      | apply stopTrunk_same | apply same_ite

theorem calAfter_same {M : Nat} {s0 : State} {c : Nat} {s : State} (hM : Sub 0x1402 M) (hs : Same M s0 s) :
    Same M s0 (calAfter c s) := by
  unfold calAfter
  try dsimp only
  repeat' first
    | intro _
    | with_reducible first
      | assumption | exact hM.of (by decide)
    | with_reducible first
      | apply startTrunk_same | apply same_ite

theorem darnCommit_same {M : Nat} {s0 : State} {old : State} {f : Nat} {s : State} (hM : Sub 0x280 M) (hold : Same M s0 old) (hs : Same M s0 s) :
    Same M s0 (darnCommit old f s) := by
  unfold darnCommit
  try dsimp only
  repeat' first
    | intro _
    | with_reducible first
      | assumption | exact hM.of (by decide)
    | with_reducible first
      | apply startDarn_same | apply undarnFlow_same | apply same_ite

theorem llStart_same {M : Nat} {s0 : State} {l : Nat} {s : State} (hM : Sub 0x200 M) (hs : Same M s0 s) :
    Same M s0 (llStart l s) := by
  unfold llStart
  try dsimp only
  repeat' first
    | intro _
    | with_reducible first
      | assumption | exact hM.of (by decide)
    | with_reducible first
      | apply startFlow_same | apply same_ite | apply same_foldl

theorem llDarning_same {M : Nat} {s0 : State} {old : State} {l : Nat} {s : State} (hM : Sub 0x280 M) (hold : Same M s0 old) (hs : Same M s0 s) :
    Same M s0 (llDarning old l s) := by
  unfold llDarning
  try dsimp only
  repeat' first
    | intro _
    | with_reducible first
      | assumption | exact hM.of (by decide)
    | with_reducible first
      | apply darnCommit_same | apply same_foldl

theorem llCommit_same {M : Nat} {s0 : State} {old : State} {l : Nat} {s : State} (hM : Sub 0xa80 M) (hold : Same M s0 old) (hs : Same M s0 s) :
    Same M s0 (llCommit old l s) := by
  unfold llCommit
  try dsimp only
  repeat' first
    | intro _
    | with_reducible first
      | assumption | exact hM.of (by decide) | apply sameMk | exact Or.inl (hM.bit (by decide)) | exact Or.inr rfl
    | simp only [same_mk_iff]
    | with_reducible first
      | apply putLl_same | apply llStart_same | apply llDarning_same | apply same_ite

theorem linkAfter_same {M : Nat} {s0 : State} {old : State} {k : Nat} {s : State} (hM : Sub 0x82bff687 M) (hold : Same M s0 old) (hs : Same M s0 s) :
    Same M s0 (linkAfter old k s) := by
  unfold linkAfter
  try dsimp only
  repeat' first
    | intro _
    | with_reducible first
      | assumption | exact hM.of (by decide)
    | with_reducible first
      | apply putLink_same | apply linkTrain_same | apply darnCommit_same | apply same_ite | apply same_foldl

theorem applyConfig_same {M : Nat} {s0 : State} {s : State} (hM : Sub 0x82bfff87 M) (hs : Same M s0 s) :
    Same M s0 (applyConfig s) := by
  unfold applyConfig
  try dsimp only
  repeat' first
    | intro _
    | with_reducible first
      | assumption | exact hM.of (by decide) | apply sameMk | exact Or.inl (hM.bit (by decide)) | exact Or.inr rfl
    | simp only [same_mk_iff]
    | with_reducible first
      | apply wr_same | apply modTrunk_same | apply bobFinish_same | apply bobRelease_same | apply loopsUsed_same
      | apply ungateUsed_same | apply goLive_same | apply linkBefore_same | apply calBefore_same
      | apply calAfter_same | apply llCommit_same | apply linkAfter_same | apply same_ite | apply same_foldl

theorem applyNow_same {M : Nat} {s0 : State} {s : State} (hM : Sub 0x183bfff87 M) (hs : Same M s0 s) :
    Same M s0 (applyNow s) := by
  unfold applyNow
  try dsimp only
  repeat' first
    | intro _
    | with_reducible first
      | assumption | exact hM.of (by decide) | apply sameMk | exact Or.inl (hM.bit (by decide)) | exact Or.inr rfl
    | simp only [same_mk_iff]
    | with_reducible first
      | apply prkEnd_same | apply applyFigures_same | apply proofWrite_same | apply prkState_same
      | apply applyConfig_same | apply same_ite | exact sameOpt_none | apply sameOpt_ite
    | split
    | with_reducible first
      | (apply same_pair; assumption) | (apply same_opt; assumption) | (apply same_triple; assumption)

theorem execTApply_same {M : Nat} {s0 : State} {s : State} (hM : Sub 0x183bfff87 M) (hs : Same M s0 s) :
    SameO M s0 (execTApply s) := by
  unfold execTApply
  try dsimp only
  repeat' first
    | intro _
    | with_reducible first
      | assumption | exact hM.of (by decide)
    | with_reducible first
      | apply applyNow_same | apply sameO_next | apply sameO_ite | exact sameO_fault

theorem execRecheckStart_same {M : Nat} {s0 : State} {trigger : Nat} {s : State} (hM : Sub 0x1000001 M) (hs : Same M s0 s) :
    SameO M s0 (execRecheckStart trigger s) := by
  unfold execRecheckStart
  try dsimp only
  repeat' first
    | intro _
    | with_reducible first
      | assumption | exact hM.of (by decide)
    | with_reducible first
      | apply startRecheck_same | apply sameO_next | apply sameO_ite | exact sameO_fault

end Sys2Proof.Machine
end

