-- ==== Sys2Proof/Laws/SameRings.lean ====
section
/-! SUPPORT. What the operations of Machine/Rings.lean leave as it is (`Same`). -/

namespace Sys2Proof.Machine

theorem msgBroken_same {M : Nat} {s0 : State} {d : Nat} {s : State} (hM : Sub 0x10000001 M) (hs : Same M s0 s) :
    Same M s0 (msgBroken d s) := by
  unfold msgBroken
  try dsimp only
  repeat' first
    | intro _
    | with_reducible first
      | assumption | exact hM.of (by decide) | apply sameMk | exact Or.inl (hM.bit (by decide)) | exact Or.inr rfl
    | simp only [same_mk_iff]
    | with_reducible first
      | apply bump_same | apply putHop_same

theorem hopHeard_same {M : Nat} {s0 : State} {d : Nat} {s : State} (hM : Sub 0x10000000 M) (hs : Same M s0 s) :
    Same M s0 (hopHeard d s) := by
  unfold hopHeard
  try dsimp only
  repeat' first
    | intro _
    | with_reducible first
      | assumption | exact hM.of (by decide) | apply sameMk | exact Or.inl (hM.bit (by decide)) | exact Or.inr rfl
    | simp only [same_mk_iff]
    | with_reducible first
      | apply putHop_same

theorem hopUnlock_same {M : Nat} {s0 : State} {d : Nat} {s : State} (hM : Sub 0x10000000 M) (hs : Same M s0 s) :
    Same M s0 (hopUnlock d s) := by
  unfold hopUnlock
  try dsimp only
  repeat' first
    | intro _
    | with_reducible first
      | assumption | exact hM.of (by decide) | apply sameMk | exact Or.inl (hM.bit (by decide)) | exact Or.inr rfl
    | simp only [same_mk_iff]
    | with_reducible first
      | apply putHop_same

theorem hopBad_same {M : Nat} {s0 : State} {d : Nat} {m : RingMsg} {s : State} (hM : Sub 0x10000000 M) (hs : Same M s0 s) :
    Same M s0 (hopBad d m s) := by
  unfold hopBad
  try dsimp only
  repeat' first
    | intro _
    | with_reducible first
      | assumption | exact hM.of (by decide) | apply sameMk | exact Or.inl (hM.bit (by decide)) | exact Or.inr rfl
    | simp only [same_mk_iff]
    | with_reducible first
      | apply putHop_same | apply hopUnlock_same | apply same_ite

theorem arrive_same {M : Nat} {s0 : State} {type : Nat} {d : Nat} {m : RingMsg} {act : Msg → State → State} {s : State} (hM : Sub 0x10000001 M) (hact : ∀ y0 y1, Same M s0 y1 → Same M s0 (act y0 y1)) (hs : Same M s0 s) :
    Same M s0 (arrive type d m act s) := by
  unfold arrive
  try dsimp only
  repeat' first
    | intro _
    | with_reducible first
      | assumption | exact hM.of (by decide) | apply sameMk | exact Or.inl (hM.bit (by decide)) | exact Or.inr rfl
    | simp only [same_mk_iff]
    | with_reducible first
      | apply freshOut_same | apply msgBroken_same | apply hopHeard_same | apply hopUnlock_same
      | apply hopBad_same | apply hact | apply same_ite | exact sameOpt_none | apply sameOpt_ite
    | split
    | with_reducible first
      | (apply same_pair; assumption) | (apply same_opt; assumption) | (apply same_triple; assumption)

theorem routed_same {M : Nat} {s0 : State} {d : Nat} {consume : Msg → State → State} {x : Msg} {s : State} (hM : Sub 0x10000001 M) (hconsume : ∀ y0 y1, Same M s0 y1 → Same M s0 (consume y0 y1)) (hs : Same M s0 s) :
    Same M s0 (routed d consume x s) := by
  unfold routed
  try dsimp only
  repeat' first
    | intro _
    | with_reducible first
      | assumption | exact hM.of (by decide)
    | with_reducible first
      | apply bump_same | apply sendOn_same | apply hconsume | apply same_ite

theorem around_same {M : Nat} {s0 : State} {d : Nat} {atSource : State → State} {act : Msg → State → State × List Nat} {x : Msg} {s : State} (hM : Sub 0x10000000 M) (hatSource : ∀ y0, Same M s0 y0 → Same M s0 (atSource y0)) (hact : ∀ y0 y1, Same M s0 y1 → Same M s0 (act y0 y1).1) (hs : Same M s0 s) :
    Same M s0 (around d atSource act x s) := by
  unfold around
  try dsimp only
  repeat' first
    | intro _
    | with_reducible first
      | assumption | exact hM.of (by decide)
    | with_reducible first
      | apply sendOn_same | apply hatSource | apply hact | apply same_ite

theorem onRing_same {M : Nat} {s0 : State} {d : Nat} {s : State} {t : State} (hM : Sub 0x0 M) (hs : Same M s0 s) (ht : Same M s0 t) :
    SameO M s0 (onRing d s t) := by
  unfold onRing
  try dsimp only
  repeat' first
    | intro _
    | with_reducible first
      | assumption | exact hM.of (by decide)
    | with_reducible first
      | apply onUnit_same | apply sameO_next | apply sameO_ite | exact sameO_fault | apply same_ite

theorem setHopState_same {M : Nat} {s0 : State} {d : Nat} {v : Nat} {s : State} (hM : Sub 0x1 M) (hs : Same M s0 s) :
    Same M s0 (setHopState d v s) := by
  unfold setHopState
  try dsimp only
  repeat' first
    | intro _
    | with_reducible first
      | assumption | exact hM.of (by decide)
    | with_reducible first
      | apply wr_same | apply same_ite

theorem sendBreak_same {M : Nat} {s0 : State} {d : Nat} {s : State} (hM : Sub 0x30000001 M) (hs : Same M s0 s) :
    Same M s0 (sendBreak d s) := by
  unfold sendBreak
  try dsimp only
  repeat' first
    | intro _
    | with_reducible first
      | assumption | exact hM.of (by decide)
    | with_reducible first
      | apply sendOn_same | apply enumStart_same | apply same_ite

theorem hopDelay_same {M : Nat} {s0 : State} {d : Nat} {tag : Nat} {turn : Nat} {s : State} (hM : Sub 0x1 M) (hs : Same M s0 s) :
    Same M s0 (hopDelay d tag turn s) := by
  unfold hopDelay
  try dsimp only
  repeat' first
    | intro _
    | with_reducible first
      | assumption | exact hM.of (by decide) | apply sameMk | exact Or.inl (hM.bit (by decide)) | exact Or.inr rfl
    | simp only [same_mk_iff]
    | with_reducible first
      | apply wr_same | apply same_ite | exact sameOpt_none | apply sameOpt_ite
    | split
    | with_reducible first
      | (apply same_pair; assumption) | (apply same_opt; assumption) | (apply same_triple; assumption)

theorem trainGood_same {M : Nat} {s0 : State} {d : Nat} {s : State} (hM : Sub 0x30000001 M) (hs : Same M s0 s) :
    Same M s0 (trainGood d s) := by
  unfold trainGood
  try dsimp only
  repeat' first
    | intro _
    | with_reducible first
      | assumption | exact hM.of (by decide) | apply sameMk | exact Or.inl (hM.bit (by decide)) | exact Or.inr rfl
    | simp only [same_mk_iff]
    | with_reducible first
      | apply setInput_same | apply putHop_same | apply setHopState_same | apply sendBreak_same | apply same_ite

theorem trainCrossed_same {M : Nat} {s0 : State} {d : Nat} {s : State} (hM : Sub 0x30000001 M) (hs : Same M s0 s) :
    Same M s0 (trainCrossed d s) := by
  unfold trainCrossed
  try dsimp only
  repeat' first
    | intro _
    | with_reducible first
      | assumption | exact hM.of (by decide) | apply sameMk | exact Or.inl (hM.bit (by decide)) | exact Or.inr rfl
    | simp only [same_mk_iff]
    | with_reducible first
      | apply setInput_same | apply wireFault_same | apply putHop_same | apply setHopState_same
      | apply sendBreak_same | apply same_ite

theorem trainArrives_same {M : Nat} {s0 : State} {d : Nat} {x : Msg} {s : State} (hM : Sub 0x30000001 M) (hs : Same M s0 s) :
    Same M s0 (trainArrives d x s) := by
  unfold trainArrives
  try dsimp only
  repeat' first
    | intro _
    | with_reducible first
      | assumption | exact hM.of (by decide) | apply sameMk | exact Or.inl (hM.bit (by decide)) | exact Or.inr rfl
    | simp only [same_mk_iff]
    | with_reducible first
      | apply putHop_same | apply hopDelay_same | apply trainGood_same | apply trainCrossed_same | apply same_ite

theorem execRingTrainReceive_same {M : Nat} {s0 : State} {d : Nat} {msg : RingMsg} {s : State} (hM : Sub 0x30000001 M) (hs : Same M s0 s) :
    SameO M s0 (execRingTrainReceive d msg s) := by
  unfold execRingTrainReceive
  try dsimp only
  repeat' first
    | intro _
    | with_reducible first
      | assumption | exact hM.of (by decide)
    | with_reducible first
      | apply onUnit_same | apply arrive_same | apply onRing_same | apply trainArrives_same | apply sameO_next
      | apply sameO_ite | exact sameO_fault

theorem trainEcho_same {M : Nat} {s0 : State} {h : HopSt} {s : State} (hM : Sub 0x4 M) (hs : Same M s0 s) :
    Same M s0 (trainEcho h s).2.2 := by
  unfold trainEcho
  try dsimp only
  repeat' first
    | intro _
    | with_reducible first
      | assumption | exact hM.of (by decide) | apply sameMk | exact Or.inl (hM.bit (by decide)) | exact Or.inr rfl
    | simp only [same_mk_iff]
    | with_reducible first
      | apply draw_same
    | split
    | with_reducible first
      | (apply same_pair; assumption) | (apply same_opt; assumption) | (apply same_triple; assumption)

theorem trainSend_same {M : Nat} {s0 : State} {r : Nat} {s : State} (hM : Sub 0x10000004 M) (hs : Same M s0 s) :
    Same M s0 (trainSend r s) := by
  unfold trainSend
  try dsimp only
  repeat' first
    | intro _
    | with_reducible first
      | assumption | exact hM.of (by decide) | apply sameMk | exact Or.inl (hM.bit (by decide)) | exact Or.inr rfl
    | simp only [same_mk_iff]
    | with_reducible first
      | apply putHop_same | apply sendOn_same | apply trainEcho_same
    | split
    | with_reducible first
      | (apply same_pair; assumption) | (apply same_opt; assumption) | (apply same_triple; assumption)

theorem execRingTrainSend_same {M : Nat} {s0 : State} {s : State} (hM : Sub 0x10000004 M) (hs : Same M s0 s) :
    SameO M s0 (execRingTrainSend s) := by
  unfold execRingTrainSend
  try dsimp only
  repeat' first
    | intro _
    | with_reducible first
      | assumption | exact hM.of (by decide)
    | with_reducible first
      | apply freshOut_same | apply trainSend_same | apply sameO_next | apply sameO_ite | exact sameO_fault
      | apply same_ite

theorem execHopBroken_same {M : Nat} {s0 : State} {d : Nat} {s : State} (hM : Sub 0x30000001 M) (hs : Same M s0 s) :
    SameO M s0 (execHopBroken d s) := by
  unfold execHopBroken
  try dsimp only
  repeat' first
    | intro _
    | with_reducible first
      | assumption | exact hM.of (by decide) | apply sameMk | exact Or.inl (hM.bit (by decide)) | exact Or.inr rfl
    | simp only [same_mk_iff]
    | with_reducible first
      | apply onUnit_same | apply setInput_same | apply putHop_same | apply freshOut_same | apply onRing_same
      | apply setHopState_same | apply sendBreak_same | apply sameO_next | apply sameO_ite | exact sameO_fault
      | apply same_ite

theorem enumArrives_same {M : Nat} {s0 : State} {d : Nat} {x : Msg} {s : State} (hM : Sub 0x10000001 M) (hs : Same M s0 s) :
    Same M s0 (enumArrives d x s).1 := by
  unfold enumArrives
  try dsimp only
  repeat' first
    | intro _
    | with_reducible first
      | assumption | exact hM.of (by decide) | apply sameMk | exact Or.inl (hM.bit (by decide)) | exact Or.inr rfl
    | simp only [same_mk_iff]
    | with_reducible first
      | apply setRingPos_same | apply sendOn_same

theorem enumReturned_same {M : Nat} {s0 : State} {d : Nat} {s : State} (hM : Sub 0x30000001 M) (hs : Same M s0 s) :
    Same M s0 (enumReturned d s) := by
  unfold enumReturned
  try dsimp only
  repeat' first
    | intro _
    | with_reducible first
      | assumption | exact hM.of (by decide) | apply sameMk | exact Or.inl (hM.bit (by decide)) | exact Or.inr rfl
    | simp only [same_mk_iff]
    | with_reducible first
      | apply enumEnd_same | apply same_ite

theorem execRingEnum_same {M : Nat} {s0 : State} {d : Nat} {msg : RingMsg} {s : State} (hM : Sub 0x30000001 M) (hs : Same M s0 s) :
    SameO M s0 (execRingEnum d msg s) := by
  unfold execRingEnum
  try dsimp only
  repeat' first
    | intro _
    | with_reducible first
      | assumption | exact hM.of (by decide)
    | with_reducible first
      | apply onUnit_same | apply arrive_same | apply around_same | apply onRing_same | apply enumArrives_same
      | apply enumReturned_same | apply sameO_next | apply sameO_ite | exact sameO_fault | apply same_ite
      | apply same_ite2 | apply same_ite3 | apply same_foldl | apply same_foldl2 | apply same_foldl1
    | split
    | dsimp only
    | with_reducible first
      | (apply same_pair; assumption) | (apply same_opt; assumption) | (apply same_triple; assumption)

theorem presentArrives_same {M : Nat} {s0 : State} {x : Msg} {s : State} (hM : Sub 0x10000001 M) (hs : Same M s0 s) :
    Same M s0 (presentArrives x s) := by
  unfold presentArrives
  try dsimp only
  repeat' first
    | intro _
    | with_reducible first
      | assumption | exact hM.of (by decide) | apply sameMk | exact Or.inl (hM.bit (by decide)) | exact Or.inr rfl
    | simp only [same_mk_iff]
    | with_reducible first
      | apply wr_same | apply setRingPos_same | apply same_ite
    | simp only [id_eq]

theorem execRingPresent_same {M : Nat} {s0 : State} {d : Nat} {msg : RingMsg} {s : State} (hM : Sub 0x10000001 M) (hs : Same M s0 s) :
    SameO M s0 (execRingPresent d msg s) := by
  unfold execRingPresent
  try dsimp only
  repeat' first
    | intro _
    | with_reducible first
      | assumption | exact hM.of (by decide)
    | with_reducible first
      | apply onUnit_same | apply arrive_same | apply routed_same | apply onRing_same | apply presentArrives_same
      | apply sameO_next | apply sameO_ite | exact sameO_fault | apply same_ite

theorem execEnumTimeout_same {M : Nat} {s0 : State} {s : State} (hM : Sub 0x30000001 M) (hs : Same M s0 s) :
    SameO M s0 (execEnumTimeout s) := by
  unfold execEnumTimeout
  try dsimp only
  repeat' first
    | intro _
    | with_reducible first
      | assumption | exact hM.of (by decide)
    | with_reducible first
      | apply freshOut_same | apply enumEnd_same | apply sameO_next | apply sameO_ite | exact sameO_fault
      | apply same_ite

theorem execRingDone_same {M : Nat} {s0 : State} {d : Nat} {msg : RingMsg} {s : State} (hM : Sub 0x30000001 M) (hs : Same M s0 s) :
    SameO M s0 (execRingDone d msg s) := by
  unfold execRingDone
  try dsimp only
  repeat' first
    | intro _
    | with_reducible first
      | assumption | exact hM.of (by decide)
    | with_reducible first
      | apply onUnit_same | apply ringDone_same | apply arrive_same | apply around_same | apply onRing_same
      | apply sameO_next | apply sameO_ite | exact sameO_fault
    | simp only [id_eq]

theorem execRingBreak_same {M : Nat} {s0 : State} {d : Nat} {msg : RingMsg} {s : State} (hM : Sub 0x30000001 M) (hs : Same M s0 s) :
    SameO M s0 (execRingBreak d msg s) := by
  unfold execRingBreak
  try dsimp only
  repeat' first
    | intro _
    | with_reducible first
      | assumption | exact hM.of (by decide)
    | with_reducible first
      | apply onUnit_same | apply enumStart_same | apply arrive_same | apply routed_same | apply onRing_same
      | apply sameO_next | apply sameO_ite | exact sameO_fault | apply same_ite

theorem pctCmd_same {M : Nat} {s0 : State} {op : Nat} {act : State → State} {s : State} (hM : Sub 0x10000001 M) (hact : ∀ y0, Same M s0 y0 → Same M s0 (act y0)) (hs : Same M s0 s) :
    Same M s0 (pctCmd op act s) := by
  unfold pctCmd
  try dsimp only
  repeat' first
    | intro _
    | with_reducible first
      | assumption | exact hM.of (by decide)
    | with_reducible first
      | apply wr_same | apply freshOut_same | apply hact | apply same_ite

theorem execPctEnumerate_same {M : Nat} {s0 : State} {s : State} (hM : Sub 0x30000001 M) (hs : Same M s0 s) :
    SameO M s0 (execPctEnumerate s) := by
  unfold execPctEnumerate
  try dsimp only
  repeat' first
    | intro _
    | with_reducible first
      | assumption | exact hM.of (by decide)
    | with_reducible first
      | apply ifOpen_same | apply enumStart_same | apply pctCmd_same | apply sameO_next | apply sameO_ite
      | exact sameO_fault

theorem takeTime_same {M : Nat} {s0 : State} {t : Nat} {s : State} (hM : Sub 0x1000168f M) (hs : Same M s0 s) :
    Same M s0 (takeTime t s) := by
  unfold takeTime
  try dsimp only
  repeat' first
    | intro _
    | with_reducible first
      | assumption | exact hM.of (by decide) | apply sameMk | exact Or.inl (hM.bit (by decide)) | exact Or.inr rfl
    | simp only [same_mk_iff]
    | with_reducible first
      | apply hold_same | apply same_ite

theorem timeTaken_same {M : Nat} {s0 : State} {s : State} (hM : Sub 0x10000000 M) (hs : Same M s0 s) :
    Same M s0 (timeTaken s) := by
  unfold timeTaken
  try dsimp only
  repeat' first
    | intro _
    | with_reducible first
      | assumption | exact hM.of (by decide) | apply sameMk | exact Or.inl (hM.bit (by decide)) | exact Or.inr rfl
    | simp only [same_mk_iff]

theorem forwardDelay_same {M : Nat} {s0 : State} {s : State} (hM : Sub 0x4 M) (hs : Same M s0 s) :
    Same M s0 (forwardDelay s).2 := by
  unfold forwardDelay
  try dsimp only
  repeat' first
    | intro _
    | with_reducible first
      | assumption | exact hM.of (by decide)
    | with_reducible first
      | apply draw_same

theorem timeArrives_same {M : Nat} {s0 : State} {d : Nat} {x : Msg} {s : State} (hM : Sub 0x1000168f M) (hs : Same M s0 s) :
    Same M s0 (timeArrives d x s).1 := by
  unfold timeArrives
  try dsimp only
  repeat' first
    | intro _
    | with_reducible first
      | assumption | exact hM.of (by decide)
    | with_reducible first
      | apply wr_same | apply takeTime_same | apply timeTaken_same | apply forwardDelay_same | apply same_ite

theorem execRingTime_same {M : Nat} {s0 : State} {d : Nat} {msg : RingMsg} {s : State} (hM : Sub 0x1000168f M) (hs : Same M s0 s) :
    SameO M s0 (execRingTime d msg s) := by
  unfold execRingTime
  try dsimp only
  repeat' first
    | intro _
    | with_reducible first
      | assumption | exact hM.of (by decide)
    | with_reducible first
      | apply onUnit_same | apply arrive_same | apply around_same | apply onRing_same | apply timeArrives_same
      | apply sameO_next | apply sameO_ite | exact sameO_fault
    | simp only [id_eq]

theorem execRingTimeSend_same {M : Nat} {s0 : State} {s : State} (hM : Sub 0x10000000 M) (hs : Same M s0 s) :
    SameO M s0 (execRingTimeSend s) := by
  unfold execRingTimeSend
  try dsimp only
  repeat' first
    | intro _
    | with_reducible first
      | assumption | exact hM.of (by decide)
    | with_reducible first
      | apply freshOut_same | apply broadcast_same | apply sameO_next | apply sameO_ite | exact sameO_fault
      | apply same_ite

theorem execTimeLoss_same {M : Nat} {s0 : State} {s : State} (hM : Sub 0x1 M) (hs : Same M s0 s) :
    SameO M s0 (execTimeLoss s) := by
  unfold execTimeLoss
  try dsimp only
  repeat' first
    | intro _
    | with_reducible first
      | assumption | exact hM.of (by decide)
    | with_reducible first
      | apply wr_same | apply sameO_next | apply sameO_ite | exact sameO_fault | apply same_ite

theorem takeGo_same {M : Nat} {s0 : State} {t : Nat} {s : State} (hM : Sub 0x82bff683 M) (hs : Same M s0 s) :
    Same M s0 (takeGo t s) := by
  unfold takeGo
  try dsimp only
  repeat' first
    | intro _
    | with_reducible first
      | assumption | exact hM.of (by decide)
    | with_reducible first
      | apply wr_same | apply putLive_same | apply detectAll_same | apply same_ite

theorem execRingGo_same {M : Nat} {s0 : State} {d : Nat} {msg : RingMsg} {s : State} (hM : Sub 0x92bff683 M) (hs : Same M s0 s) :
    SameO M s0 (execRingGo d msg s) := by
  unfold execRingGo
  try dsimp only
  repeat' first
    | intro _
    | with_reducible first
      | assumption | exact hM.of (by decide)
    | with_reducible first
      | apply onUnit_same | apply arrive_same | apply around_same | apply onRing_same | apply takeGo_same
      | apply sameO_next | apply sameO_ite | exact sameO_fault
    | simp only [id_eq]

theorem sendGo_same {M : Nat} {s0 : State} {s : State} (hM : Sub 0x92bff683 M) (hs : Same M s0 s) :
    Same M s0 (sendGo s) := by
  unfold sendGo
  try dsimp only
  repeat' first
    | intro _
    | with_reducible first
      | assumption | exact hM.of (by decide)
    | with_reducible first
      | apply broadcast_same | apply takeGo_same

theorem execGoAuto_same {M : Nat} {s0 : State} {s : State} (hM : Sub 0x92bff683 M) (hs : Same M s0 s) :
    SameO M s0 (execGoAuto s) := by
  unfold execGoAuto
  try dsimp only
  repeat' first
    | intro _
    | with_reducible first
      | assumption | exact hM.of (by decide)
    | with_reducible first
      | apply freshOut_same | apply sendGo_same | apply sameO_next | apply sameO_ite | exact sameO_fault
      | apply same_ite

theorem execPctGo_same {M : Nat} {s0 : State} {s : State} (hM : Sub 0x92bff683 M) (hs : Same M s0 s) :
    SameO M s0 (execPctGo s) := by
  unfold execPctGo
  try dsimp only
  repeat' first
    | intro _
    | with_reducible first
      | assumption | exact hM.of (by decide)
    | with_reducible first
      | apply ifOpen_same | apply pctCmd_same | apply sendGo_same | apply sameO_next | apply sameO_ite
      | exact sameO_fault

theorem execRingReady_same {M : Nat} {s0 : State} {d : Nat} {msg : RingMsg} {s : State} (hM : Sub 0x10000001 M) (hs : Same M s0 s) :
    SameO M s0 (execRingReady d msg s) := by
  unfold execRingReady
  try dsimp only
  repeat' first
    | intro _
    | with_reducible first
      | assumption | exact hM.of (by decide)
    | with_reducible first
      | apply onUnit_same | apply wr_same | apply arrive_same | apply routed_same | apply onRing_same
      | apply sameO_next | apply sameO_ite | exact sameO_fault | apply same_ite

theorem deliverArrives_same {M : Nat} {s0 : State} {x : Msg} {s : State} (hM : Sub 0x30000000 M) (hs : Same M s0 s) :
    Same M s0 (deliverArrives x s) := by
  unfold deliverArrives
  try dsimp only
  repeat' first
    | intro _
    | with_reducible first
      | assumption | exact hM.of (by decide) | apply sameMk | exact Or.inl (hM.bit (by decide)) | exact Or.inr rfl
    | simp only [same_mk_iff]
    | with_reducible first
      | apply enterDeliver_same | apply same_ite

theorem execRingDeliver_same {M : Nat} {s0 : State} {d : Nat} {msg : RingMsg} {s : State} (hM : Sub 0x30000001 M) (hs : Same M s0 s) :
    SameO M s0 (execRingDeliver d msg s) := by
  unfold execRingDeliver
  try dsimp only
  repeat' first
    | intro _
    | with_reducible first
      | assumption | exact hM.of (by decide)
    | with_reducible first
      | apply onUnit_same | apply arrive_same | apply routed_same | apply onRing_same | apply deliverArrives_same
      | apply sameO_next | apply sameO_ite | exact sameO_fault | apply same_ite | apply same_ite2
      | apply same_ite3 | apply same_foldl | apply same_foldl2 | apply same_foldl1
    | split
    | dsimp only
    | with_reducible first
      | (apply same_pair; assumption) | (apply same_opt; assumption) | (apply same_triple; assumption)

theorem execRingComplete_same {M : Nat} {s0 : State} {d : Nat} {msg : RingMsg} {s : State} (hM : Sub 0x10000001 M) (hs : Same M s0 s) :
    SameO M s0 (execRingComplete d msg s) := by
  unfold execRingComplete
  try dsimp only
  repeat' first
    | intro _
    | with_reducible first
      | assumption | exact hM.of (by decide)
    | with_reducible first
      | apply onUnit_same | apply endService_same | apply arrive_same | apply routed_same | apply onRing_same
      | apply sameO_next | apply sameO_ite | exact sameO_fault | apply same_ite

end Sys2Proof.Machine
end

