-- ==== Sys2Proof/Laws/SameSteering.lean ====
section
/-! SUPPORT. What the operations of Machine/Steering.lean leave as it is (`Same`). -/

namespace Sys2Proof.Machine

theorem syncMapStat_same {M : Nat} {s0 : State} {s : State} (hM : Sub 0x1 M) (hs : Same M s0 s) :
    Same M s0 (syncMapStat s) := by
  unfold syncMapStat
  try dsimp only
  repeat' first
    | intro _
    | with_reducible first
      | assumption | exact hM.of (by decide)
    | with_reducible first
      | apply wrB_same

theorem genUp_same {M : Nat} {s0 : State} {e : Nat} {s : State} (hM : Sub 0x1 M) (hs : Same M s0 s) :
    Same M s0 (genUp e s) := by
  unfold genUp
  try dsimp only
  repeat' first
    | intro _
    | with_reducible first
      | assumption | exact hM.of (by decide)
    | with_reducible first
      | apply bumpWrap_same

theorem directChange_same {M : Nat} {s0 : State} {e : Nat} {force : List Nat} {words : List Nat} {s : State} (hM : Sub 0x400001 M) (hs : Same M s0 s) :
    Same M s0 (directChange e force words s) := by
  unfold directChange
  try dsimp only
  repeat' first
    | intro _
    | with_reducible first
      | assumption | exact hM.of (by decide) | apply sameMk | exact Or.inl (hM.bit (by decide)) | exact Or.inr rfl
    | simp only [same_mk_iff]
    | with_reducible first
      | apply putMap_same | apply genUp_same

theorem lanesChanged_same {M : Nat} {s0 : State} {t : State} {e : Nat} {s : State} (hM : Sub 0x400001 M) (ht : Same M s0 t) (hs : Same M s0 s) :
    Same M s0 (lanesChanged t e s).2 := by
  unfold lanesChanged
  try dsimp only
  repeat' first
    | intro _
    | with_reducible first
      | assumption | exact hM.of (by decide)
    | with_reducible first
      | apply genUp_same | apply directChange_same | apply same_ite | apply same_ite2

theorem tornRaise_same {M : Nat} {s0 : State} {es : List Nat} {s : State} (hM : Sub 0x1 M) (hs : Same M s0 s) :
    Same M s0 (tornRaise es s) := by
  unfold tornRaise
  try dsimp only
  repeat' first
    | intro _
    | with_reducible first
      | assumption | exact hM.of (by decide) | apply sameMk | exact Or.inl (hM.bit (by decide)) | exact Or.inr rfl
    | simp only [same_mk_iff]
    | with_reducible first
      | apply wr_same | apply raise_same | apply syncMapStat_same
    | split
    | with_reducible first
      | (apply same_pair; assumption) | (apply same_opt; assumption) | (apply same_triple; assumption)

theorem bobOffSide_same {M : Nat} {s0 : State} {sd : Side} {lanes : List Nat} {s : State} (hM : Sub 0xbb0003 M) (hs : Same M s0 s) :
    Same M s0 (bobOffSide sd lanes s) := by
  unfold bobOffSide
  try dsimp only
  repeat' first
    | intro _
    | with_reducible first
      | assumption | exact hM.of (by decide)
    | with_reducible first
      | apply bobMove_same | apply bobRelease_same | apply same_ite | apply same_foldl

theorem mapBreak_same {M : Nat} {s0 : State} {e : Nat} {s : State} (hM : Sub 0x80fff683 M) (hs : Same M s0 s) :
    Same M s0 (mapBreak e s) := by
  unfold mapBreak
  try dsimp only
  repeat' first
    | intro _
    | with_reducible first
      | assumption | exact hM.of (by decide) | apply sameMk | exact Or.inl (hM.bit (by decide)) | exact Or.inr rfl
    | simp only [same_mk_iff]
    | with_reducible first
      | apply putMap_same | apply putSide_same | apply acqCancel_same | apply lanesLeave_same
      | apply linkDown_same | apply spanHold_same | apply bobOffSide_same | apply same_ite | apply same_foldl

theorem sideMapWrite_same {M : Nat} {s0 : State} {e : Nat} {v : Nat} {s : State} (hM : Sub 0x82fff687 M) (hs : Same M s0 s) :
    Same M s0 (sideMapWrite e v s) := by
  unfold sideMapWrite
  try dsimp only
  repeat' first
    | intro _
    | with_reducible first
      | assumption | exact hM.of (by decide)
    | with_reducible first
      | apply wr_same | apply wrB_same | apply putMap_same | apply linkTrain_same | apply downRestart_same
      | apply syncMapStat_same | apply genUp_same | apply lanesChanged_same | apply tornRaise_same
      | apply mapBreak_same | apply same_ite | apply same_foldl

theorem execSideMapWrite_same {M : Nat} {s0 : State} {e : Nat} {v : Nat} {s : State} (hM : Sub 0x82fff687 M) (hs : Same M s0 s) :
    SameO M s0 (execSideMapWrite e v s) := by
  unfold execSideMapWrite
  try dsimp only
  repeat' first
    | intro _
    | with_reducible first
      | assumption | exact hM.of (by decide)
    | with_reducible first
      | apply ifHas_same | apply sideMapWrite_same | apply sameO_next | apply sameO_ite | exact sameO_fault

theorem lanePosWrite_same {M : Nat} {s0 : State} {n : Nat} {v : Nat} {s : State} (hM : Sub 0x400001 M) (hs : Same M s0 s) :
    Same M s0 (lanePosWrite n v s) := by
  unfold lanePosWrite
  try dsimp only
  repeat' first
    | intro _
    | with_reducible first
      | assumption | exact hM.of (by decide)
    | with_reducible first
      | apply wr_same | apply wrB_same | apply lanesChanged_same | apply tornRaise_same | apply same_ite
      | apply same_ite2 | apply same_ite3 | apply same_foldl | apply same_foldl2 | apply same_foldl1
    | split
    | dsimp only
    | with_reducible first
      | (apply same_pair; assumption) | (apply same_opt; assumption) | (apply same_triple; assumption)

theorem execLanePosWrite_same {M : Nat} {s0 : State} {lane : Nat} {v : Nat} {s : State} (hM : Sub 0x400001 M) (hs : Same M s0 s) :
    SameO M s0 (execLanePosWrite lane v s) := by
  unfold execLanePosWrite
  try dsimp only
  repeat' first
    | intro _
    | with_reducible first
      | assumption | exact hM.of (by decide)
    | with_reducible first
      | apply ifHas_same | apply lanePosWrite_same | apply sameO_next | apply sameO_ite | exact sameO_fault

theorem execMapDrainEnd_same {M : Nat} {s0 : State} {e : Nat} {s : State} (hM : Sub 0x400001 M) (hs : Same M s0 s) :
    SameO M s0 (execMapDrainEnd e s) := by
  unfold execMapDrainEnd
  try dsimp only
  repeat' first
    | intro _
    | with_reducible first
      | assumption | exact hM.of (by decide) | apply sameMk | exact Or.inl (hM.bit (by decide)) | exact Or.inr rfl
    | simp only [same_mk_iff]
    | with_reducible first
      | apply onUnit_same | apply putMap_same | apply syncMapStat_same | apply sameO_next | apply sameO_ite
      | exact sameO_fault | apply same_ite

theorem lanesRetrain_same {M : Nat} {s0 : State} {k : Nat} {sd : Side} {s : State} (hM : Sub 0x82bff683 M) (hs : Same M s0 s) :
    Same M s0 (lanesRetrain k sd s) := by
  unfold lanesRetrain
  try dsimp only
  repeat' first
    | intro _
    | with_reducible first
      | assumption | exact hM.of (by decide)
    | with_reducible first
      | apply retrainSpan_same | apply retrain_same | apply retune_same | apply same_ite

theorem mapTornEnd_same {M : Nat} {s0 : State} {e : Nat} {s : State} (hM : Sub 0x82fff687 M) (hs : Same M s0 s) :
    Same M s0 (mapTornEnd e s) := by
  unfold mapTornEnd
  try dsimp only
  repeat' first
    | intro _
    | with_reducible first
      | assumption | exact hM.of (by decide)
    | with_reducible first
      | apply putMap_same | apply adaptLeaves_same | apply acqCancel_same | apply bobFinish_same
      | apply bobRelease_same | apply lanesLeave_same | apply linkDown_same | apply detectEnter_same
      | apply linkTrain_same | apply downRestart_same | apply syncMapStat_same | apply lanesRetrain_same
      | apply same_ite | apply same_foldl

theorem execMapTornEnd_same {M : Nat} {s0 : State} {e : Nat} {s : State} (hM : Sub 0x82fff687 M) (hs : Same M s0 s) :
    SameO M s0 (execMapTornEnd e s) := by
  unfold execMapTornEnd
  try dsimp only
  repeat' first
    | intro _
    | with_reducible first
      | assumption | exact hM.of (by decide)
    | with_reducible first
      | apply onUnit_same | apply mapTornEnd_same | apply sameO_next | apply sameO_ite | exact sameO_fault

theorem execMapCacheRefresh_same {M : Nat} {s0 : State} {c : Nat} {e : Nat} {s : State} (hM : Sub 0x400000 M) (hs : Same M s0 s) :
    SameO M s0 (execMapCacheRefresh c e s) := by
  unfold execMapCacheRefresh
  try dsimp only
  repeat' first
    | intro _
    | with_reducible first
      | assumption | exact hM.of (by decide) | apply sameMk | exact Or.inl (hM.bit (by decide)) | exact Or.inr rfl
    | simp only [same_mk_iff]
    | with_reducible first
      | apply onUnit_same | apply putMap_same | apply sameO_next | apply sameO_ite | exact sameO_fault

theorem execBobbinAcqLimit_same {M : Nat} {s0 : State} {c : Nat} {sd : Side} {s : State} (hM : Sub 0xb80001 M) (hs : Same M s0 s) :
    SameO M s0 (execBobbinAcqLimit c sd s) := by
  unfold execBobbinAcqLimit
  try dsimp only
  repeat' first
    | intro _
    | with_reducible first
      | assumption | exact hM.of (by decide)
    | with_reducible first
      | apply onUnit_same | apply bobAcqEnd_same | apply sameO_next | apply sameO_ite | exact sameO_fault

theorem execBobbinSwitch_same {M : Nat} {s0 : State} {c : Nat} {sd : Side} {s : State} (hM : Sub 0x2bfb683 M) (hs : Same M s0 s) :
    SameO M s0 (execBobbinSwitch c sd s) := by
  unfold execBobbinSwitch
  try dsimp only
  repeat' first
    | intro _
    | with_reducible first
      | assumption | exact hM.of (by decide)
    | with_reducible first
      | apply onUnit_same | apply bobSwitch_same | apply sameO_next | apply sameO_ite | exact sameO_fault
      | apply same_ite

theorem execSwapAbandon_same {M : Nat} {s0 : State} {c : Nat} {s : State} (hM : Sub 0x80bff683 M) (hs : Same M s0 s) :
    SameO M s0 (execSwapAbandon c s) := by
  unfold execSwapAbandon
  try dsimp only
  repeat' first
    | intro _
    | with_reducible first
      | assumption | exact hM.of (by decide)
    | with_reducible first
      | apply onUnit_same | apply swapAbandon_same | apply sameO_next | apply sameO_ite | exact sameO_fault
      | apply same_ite

theorem oldTxIdle_same {M : Nat} {s0 : State} {c : Nat} {s : State} (hM : Sub 0x810000 M) (hs : Same M s0 s) :
    Same M s0 (oldTxIdle c s) := by
  unfold oldTxIdle
  try dsimp only
  repeat' first
    | intro _
    | with_reducible first
      | assumption | exact hM.of (by decide) | apply sameMk | exact Or.inl (hM.bit (by decide)) | exact Or.inr rfl
    | simp only [same_mk_iff]
    | with_reducible first
      | apply putBob_same | apply txRest_same | apply same_ite | apply same_foldl

theorem execOldTxIdle_same {M : Nat} {s0 : State} {c : Nat} {s : State} (hM : Sub 0x810000 M) (hs : Same M s0 s) :
    SameO M s0 (execOldTxIdle c s) := by
  unfold execOldTxIdle
  try dsimp only
  repeat' first
    | intro _
    | with_reducible first
      | assumption | exact hM.of (by decide)
    | with_reducible first
      | apply onUnit_same | apply oldTxIdle_same | apply sameO_next | apply sameO_ite | exact sameO_fault

theorem swpOp_same {M : Nat} {s0 : State} {op : Nat} {c : Nat} {pos : Nat} {ok : Bool} {f : State → State} {s : State} (hM : Sub 0x1 M) (hf : ∀ y0, Same M s0 y0 → Same M s0 (f y0)) (hs : Same M s0 s) :
    Same M s0 (swpOp op c pos ok f s) := by
  unfold swpOp
  try dsimp only
  repeat' first
    | intro _
    | with_reducible first
      | assumption | exact hM.of (by decide)
    | with_reducible first
      | apply wr_same | apply hf | apply same_ite

theorem execSwpSwap_same {M : Nat} {s0 : State} {c : Nat} {pos : Nat} {s : State} (hM : Sub 0x200bd0687 M) (hs : Same M s0 s) :
    SameO M s0 (execSwpSwap c pos s) := by
  unfold execSwpSwap
  try dsimp only
  repeat' first
    | intro _
    | with_reducible first
      | assumption | exact hM.of (by decide)
    | with_reducible first
      | apply ifOpen_same | apply swapBegin_same | apply swpOp_same | apply sameO_next | apply sameO_ite
      | exact sameO_fault

theorem execSwpReturn_same {M : Nat} {s0 : State} {c : Nat} {s : State} (hM : Sub 0xbd0683 M) (hs : Same M s0 s) :
    SameO M s0 (execSwpReturn c s) := by
  unfold execSwpReturn
  try dsimp only
  repeat' first
    | intro _
    | with_reducible first
      | assumption | exact hM.of (by decide)
    | with_reducible first
      | apply ifOpen_same | apply returnBegin_same | apply swpOp_same | apply sameO_next | apply sameO_ite
      | exact sameO_fault

theorem bobEnable_same {M : Nat} {s0 : State} {c : Nat} {s : State} (hM : Sub 0x200b98005 M) (hs : Same M s0 s) :
    Same M s0 (bobEnable c s) := by
  unfold bobEnable
  try dsimp only
  repeat' first
    | intro _
    | with_reducible first
      | assumption | exact hM.of (by decide)
    | with_reducible first
      | apply bobSliceCut_same | apply bobSliceStart_same | apply same_ite

theorem execSwpEnable_same {M : Nat} {s0 : State} {c : Nat} {s : State} (hM : Sub 0x200b98005 M) (hs : Same M s0 s) :
    SameO M s0 (execSwpEnable c s) := by
  unfold execSwpEnable
  try dsimp only
  repeat' first
    | intro _
    | with_reducible first
      | assumption | exact hM.of (by decide)
    | with_reducible first
      | apply ifOpen_same | apply swpOp_same | apply bobEnable_same | apply sameO_next | apply sameO_ite
      | exact sameO_fault

theorem bobDisable_same {M : Nat} {s0 : State} {c : Nat} {s : State} (hM : Sub 0x200b90005 M) (hs : Same M s0 s) :
    Same M s0 (bobDisable c s) := by
  unfold bobDisable
  try dsimp only
  repeat' first
    | intro _
    | with_reducible first
      | assumption | exact hM.of (by decide)
    | with_reducible first
      | apply wr_same | apply bobRest_same | apply bobSliceCut_same | apply same_ite

theorem execSwpDisable_same {M : Nat} {s0 : State} {c : Nat} {s : State} (hM : Sub 0x200b90005 M) (hs : Same M s0 s) :
    SameO M s0 (execSwpDisable c s) := by
  unfold execSwpDisable
  try dsimp only
  repeat' first
    | intro _
    | with_reducible first
      | assumption | exact hM.of (by decide)
    | with_reducible first
      | apply ifOpen_same | apply swpOp_same | apply bobDisable_same | apply sameO_next | apply sameO_ite
      | exact sameO_fault

end Sys2Proof.Machine
end

