-- ==== Sys2Proof/Laws/SameRegisterFile.lean ====
section
/-! SUPPORT. What the operations of Machine/RegisterFile.lean leave as it is (`Same`). -/

namespace Sys2Proof.Machine

theorem after_same {M : Nat} {s0 : State} {o : Host.Outcome State Fault Refusal} {s : State} (hM : Sub 0x0 M) (ho : SameO M s0 o) (hs : Same M s0 s) :
    Same M s0 (after o s) := by
  unfold after
  split
  · exact ho.out _ rfl
  · exact hs

theorem rowRead_same {M : Nat} {s0 : State} {o : Host.Outcome State Fault Refusal} {s : State} (hM : Sub 0x40000000 M) (ho : SameO M s0 o) (hs : Same M s0 s) :
    Same M s0 (rowRead o s).2 := by
  unfold rowRead
  try dsimp only
  repeat' first
    | intro _
    | with_reducible first
      | assumption | exact hM.of (by decide) | apply sameMk | exact Or.inl (hM.bit (by decide)) | exact Or.inr rfl
    | simp only [same_mk_iff]
    | with_reducible first
      | apply after_same

theorem rsRead_same {M : Nat} {s0 : State} {s : State} {p : Nat} {off : Nat} (hM : Sub 0x60000001 M) (hs : Same M s0 s) :
    SameOpt M s0 (rsRead s p off) := by
  unfold rsRead
  try dsimp only
  repeat' first
    | intro _
    | with_reducible first
      | assumption | exact hM.of (by decide) | apply sameMk | exact Or.inl (hM.bit (by decide)) | exact Or.inr rfl
    | simp only [same_mk_iff]
    | with_reducible first
      | apply execIntClaim_same | apply execCntSnap_same | apply execFltSnap_same | apply execDarnSnap_same
      | apply execTrkSnap_same | apply execLlSnap_same | apply execCalSnap_same | apply execPrbsSnap_same
      | apply execBufSnap_same | apply rowRead_same | exact sameOpt_none | apply sameOpt_some | apply sameOpt_ite
      | apply sameOpt_someP | apply same_ite
    | split
    | with_reducible first
      | (apply same_pair; assumption) | (apply same_opt; assumption) | (apply same_triple; assumption)

theorem loLatch_same {M : Nat} {s0 : State} {p : Nat} {off : Nat} {s : State} (hM : Sub 0x1 M) (hs : Same M s0 s) :
    Same M s0 (loLatch p off s) := by
  unfold loLatch
  try dsimp only
  repeat' first
    | intro _
    | with_reducible first
      | assumption | exact hM.of (by decide) | apply sameMk | exact Or.inl (hM.bit (by decide)) | exact Or.inr rfl
    | simp only [same_mk_iff]
    | with_reducible first
      | apply wr_same | apply same_ite
    | split
    | with_reducible first
      | (apply same_pair; assumption) | (apply same_opt; assumption) | (apply same_triple; assumption)

theorem hostRead_same {M : Nat} {s0 : State} {addr : Nat} {s : State} (hM : Sub 0x60000001 M) (hs : Same M s0 s) :
    Same M s0 (hostRead addr s).2 := by
  unfold hostRead
  try dsimp only
  repeat' first
    | intro _
    | with_reducible first
      | assumption | exact hM.of (by decide) | apply sameMk | exact Or.inl (hM.bit (by decide)) | exact Or.inr rfl
    | simp only [same_mk_iff]
    | with_reducible first
      | apply rsRead_same | apply loLatch_same | apply same_ite | apply same_ite2 | exact sameOpt_none
      | apply sameOpt_ite
    | split
    | with_reducible first
      | (apply same_pair; assumption) | (apply same_opt; assumption) | (apply same_triple; assumption)

theorem storeReg_same {M : Nat} {s0 : State} {page : Nat} {off : Nat} {v : Nat} {s : State} (hM : Sub 0x1 M) (hs : Same M s0 s) :
    Same M s0 (storeReg page off v s) := by
  unfold storeReg
  try dsimp only
  repeat' first
    | intro _
    | with_reducible first
      | assumption | exact hM.of (by decide) | apply sameMk | exact Or.inl (hM.bit (by decide)) | exact Or.inr rfl
    | simp only [same_mk_iff]
    | with_reducible first
      | apply wr_same | apply same_ite | apply same_foldl | exact sameOpt_none | apply sameOpt_ite
    | split
    | with_reducible first
      | (apply same_pair; assumption) | (apply same_opt; assumption) | (apply same_triple; assumption)

theorem cmdWrite_same {M : Nat} {s0 : State} {p : Nat} {off : Nat} {v : Nat} {go : Nat} {busy : Fld} {refused : Fld} {op : Option (State → Host.Outcome State Fault Refusal)} {s : State} (hM : Sub 0x1 M) (hop : SameOp M s0 op) (hs : Same M s0 s) :
    Same M s0 (cmdWrite p off v go busy refused op s) := by
  unfold cmdWrite
  dsimp only
  split
  · exact same_ite (wr_same (hM.of (by decide)) hs) hs
  · exact same_ite (after_same (hM.of (by decide)) (hop.out _ rfl _ (storeReg_same (hM.of (by decide)) hs))
      (storeReg_same (hM.of (by decide)) hs)) (storeReg_same (hM.of (by decide)) hs)

theorem stagedWrite_same {M : Nat} {s0 : State} {f : State → State} {s : State} (hM : Sub 0x1 M) (hf : ∀ y0, Same M s0 y0 → Same M s0 (f y0)) (hs : Same M s0 s) :
    Same M s0 (stagedWrite f s) := by
  unfold stagedWrite
  try dsimp only
  repeat' first
    | intro _
    | with_reducible first
      | assumption | exact hM.of (by decide)
    | with_reducible first
      | apply wr_same | apply hf | apply same_ite

theorem writeAdaptCfg_same {M : Nat} {s0 : State} {c : Nat} {v : Nat} {s : State} (hM : Sub 0x380001 M) (hs : Same M s0 s) :
    Same M s0 (writeAdaptCfg c v s) := by
  unfold writeAdaptCfg
  try dsimp only
  repeat' first
    | intro _
    | with_reducible first
      | assumption | exact hM.of (by decide)
    | with_reducible first
      | apply adaptEnable_same | apply storeReg_same

theorem clearWrite_same {M : Nat} {s0 : State} {v : Nat} {f : State → Host.Outcome State Fault Refusal} {s : State} (hM : Sub 0x0 M) (hf : ∀ y0, Same M s0 y0 → SameO M s0 (f y0)) (hs : Same M s0 s) :
    Same M s0 (clearWrite v f s) := by
  unfold clearWrite
  try dsimp only
  repeat' first
    | intro _
    | with_reducible first
      | assumption | exact hM.of (by decide)
    | with_reducible first
      | apply after_same | apply hf | apply same_ite

theorem writeGlb_same {M : Nat} {s0 : State} {off : Nat} {v : Nat} {s : State} (hM : Sub 0x293bff7c7 M) (hs : Same M s0 s) :
    Same M s0 (writeGlb off v s) := by
  unfold writeGlb
  try dsimp only
  repeat' first
    | intro _
    | with_reducible first
      | assumption | exact hM.of (by decide)
    | with_reducible first
      | apply fenceCmd_same | apply execFenceCmdFence_same | apply execFenceCmdLift_same
      | apply execBootRelease_same | apply storeReg_same | apply cmdWrite_same | exact sameOp_none
      | apply sameOp_some | apply sameOp_ite | apply same_ite | apply same_ite2 | apply same_ite3
      | apply same_foldl | apply same_foldl2 | apply same_foldl1
    | split
    | dsimp only
    | with_reducible first
      | (apply same_pair; assumption) | (apply same_opt; assumption) | (apply same_triple; assumption)

theorem writeClk_same {M : Nat} {s0 : State} {off : Nat} {v : Nat} {s : State} (hM : Sub 0x8000001 M) (hs : Same M s0 s) :
    Same M s0 (writeClk off v s) := by
  unfold writeClk
  try dsimp only
  repeat' first
    | intro _
    | with_reducible first
      | assumption | exact hM.of (by decide)
    | with_reducible first
      | apply execClkCfgWrite_same | apply execFmStart_same | apply after_same | apply storeReg_same
      | apply cmdWrite_same | exact sameOp_none | apply sameOp_some | apply sameOp_ite | apply same_ite

theorem supClear_same {M : Nat} {s0 : State} {s : State} (hM : Sub 0x1 M) (hs : Same M s0 s) :
    Same M s0 (supClear s) := by
  unfold supClear
  try dsimp only
  repeat' first
    | intro _
    | with_reducible first
      | assumption | exact hM.of (by decide)
    | with_reducible first
      | apply wr_same | apply same_foldl

theorem writePwr_same {M : Nat} {s0 : State} {off : Nat} {v : Nat} {s : State} (hM : Sub 0x8c3ff6c3 M) (hs : Same M s0 s) :
    Same M s0 (writePwr off v s) := by
  unfold writePwr
  try dsimp only
  repeat' first
    | intro _
    | with_reducible first
      | assumption | exact hM.of (by decide)
    | with_reducible first
      | apply execPlRequest_same | apply execWatchEnter_same | apply execWatchWake_same | apply storeReg_same
      | apply cmdWrite_same | apply supClear_same | exact sameOp_none | apply sameOp_some | apply sameOp_ite
      | apply same_ite

theorem peakRestart_same {M : Nat} {s0 : State} {s : State} (hM : Sub 0x800000001 M) (hs : Same M s0 s) :
    Same M s0 (peakRestart s) := by
  unfold peakRestart
  try dsimp only
  repeat' first
    | intro _
    | with_reducible first
      | assumption | exact hM.of (by decide) | apply sameMk | exact Or.inl (hM.bit (by decide)) | exact Or.inr rfl
    | simp only [same_mk_iff]
    | with_reducible first
      | apply wr_same

theorem writeTmp_same {M : Nat} {s0 : State} {off : Nat} {v : Nat} {s : State} (hM : Sub 0x800000001 M) (hs : Same M s0 s) :
    Same M s0 (writeTmp off v s) := by
  unfold writeTmp
  try dsimp only
  repeat' first
    | intro _
    | with_reducible first
      | assumption | exact hM.of (by decide)
    | with_reducible first
      | apply storeReg_same | apply peakRestart_same | apply same_ite

theorem writeInt_same {M : Nat} {s0 : State} {fast : Bool} {off : Nat} {v : Nat} {s : State} (hM : Sub 0x10000001 M) (hs : Same M s0 s) :
    Same M s0 (writeInt fast off v s) := by
  unfold writeInt
  try dsimp only
  repeat' first
    | intro _
    | with_reducible first
      | assumption | exact hM.of (by decide)
    | with_reducible first
      | apply execIntComplete_same | apply execDoorbellWrite_same | apply after_same | apply storeReg_same
      | apply same_ite

theorem writeBst_same {M : Nat} {s0 : State} {off : Nat} {v : Nat} {s : State} (hM : Sub 0x780bff7c7 M) (hs : Same M s0 s) :
    Same M s0 (writeBst off v s) := by
  unfold writeBst
  try dsimp only
  repeat' first
    | intro _
    | with_reducible first
      | assumption | exact hM.of (by decide) | apply sameMk | exact Or.inl (hM.bit (by decide)) | exact Or.inr rfl
    | simp only [same_mk_iff]
    | with_reducible first
      | apply execBstBobbinNow_same | apply execBstAbort_same | apply execBstFull_same
      | apply execBstTestEnter_same | apply execBstCfgWrite_same | apply execLbCfgWrite_same
      | apply execPrbsGenWrite_same | apply execPrbsChkWrite_same | apply execPrbsClr_same | apply after_same
      | apply storeReg_same | apply cmdWrite_same | apply clearWrite_same | exact sameOp_none | apply sameOp_some
      | apply sameOp_ite | apply same_ite | exact sameOpt_none | apply sameOpt_ite
    | split
    | with_reducible first
      | (apply same_pair; assumption) | (apply same_opt; assumption) | (apply same_triple; assumption)

theorem writeSec_same {M : Nat} {s0 : State} {off : Nat} {v : Nat} {s : State} (hM : Sub 0x180000023 M) (hs : Same M s0 s) :
    Same M s0 (writeSec off v s) := by
  unfold writeSec
  try dsimp only
  repeat' first
    | intro _
    | with_reducible first
      | assumption | exact hM.of (by decide)
    | with_reducible first
      | apply wr_same | apply keyGo_same | apply attGo_same | apply storeReg_same | apply same_ite

theorem writePct_same {M : Nat} {s0 : State} {off : Nat} {v : Nat} {s : State} (hM : Sub 0xb2bff683 M) (hs : Same M s0 s) :
    Same M s0 (writePct off v s) := by
  unfold writePct
  try dsimp only
  repeat' first
    | intro _
    | with_reducible first
      | assumption | exact hM.of (by decide)
    | with_reducible first
      | apply execPctEnumerate_same | apply execPctGo_same | apply storeReg_same | apply cmdWrite_same
      | exact sameOp_none | apply sameOp_some | apply sameOp_ite | apply same_ite

theorem writePrk_same {M : Nat} {s0 : State} {off : Nat} {v : Nat} {s : State} (hM : Sub 0x1000001 M) (hs : Same M s0 s) :
    Same M s0 (writePrk off v s) := by
  unfold writePrk
  try dsimp only
  repeat' first
    | intro _
    | with_reducible first
      | assumption | exact hM.of (by decide) | apply sameMk | exact Or.inl (hM.bit (by decide)) | exact Or.inr rfl
    | simp only [same_mk_iff]
    | with_reducible first
      | apply wr_same | apply execPrkCommit_same | apply execPrkCheck_same | apply execPrkRevert_same
      | apply after_same | apply storeReg_same | apply stagedWrite_same | apply same_ite
    | split
    | with_reducible first
      | (apply same_pair; assumption) | (apply same_opt; assumption) | (apply same_triple; assumption)

theorem writeMap_same {M : Nat} {s0 : State} {off : Nat} {v : Nat} {s : State} (hM : Sub 0x282fff687 M) (hs : Same M s0 s) :
    Same M s0 (writeMap off v s) := by
  unfold writeMap
  try dsimp only
  repeat' first
    | intro _
    | with_reducible first
      | assumption | exact hM.of (by decide) | apply sameMk | exact Or.inl (hM.bit (by decide)) | exact Or.inr rfl
    | simp only [same_mk_iff]
    | with_reducible first
      | apply execSideMapWrite_same | apply execLanePosWrite_same | apply execSwpSwap_same
      | apply execSwpReturn_same | apply execSwpEnable_same | apply execSwpDisable_same | apply after_same
      | apply storeReg_same | apply cmdWrite_same | exact sameOp_none | apply sameOp_some | apply sameOp_ite
      | apply same_ite
    | split
    | with_reducible first
      | (apply same_pair; assumption) | (apply same_opt; assumption) | (apply same_triple; assumption)

theorem writeFmc_same {M : Nat} {s0 : State} {off : Nat} {v : Nat} {s : State} (hM : Sub 0x2000001 M) (hs : Same M s0 s) :
    Same M s0 (writeFmc off v s) := by
  unfold writeFmc
  try dsimp only
  repeat' first
    | intro _
    | with_reducible first
      | assumption | exact hM.of (by decide)
    | with_reducible first
      | apply execBtLoad_same | apply execFlashCommand_same | apply after_same | apply storeReg_same
      | apply same_ite

theorem writeClu_same {M : Nat} {s0 : State} {c : Nat} {off : Nat} {v : Nat} {s : State} (hM : Sub 0x3f9003 M) (hs : Same M s0 s) :
    Same M s0 (writeClu c off v s) := by
  unfold writeClu
  try dsimp only
  repeat' first
    | intro _
    | with_reducible first
      | assumption | exact hM.of (by decide) | apply sameMk | exact Or.inl (hM.bit (by decide)) | exact Or.inr rfl
    | simp only [same_mk_iff]
    | with_reducible first
      | apply standbySync_same | apply execTerminationDetect_same | apply execCntCtlClear_same
      | apply execLeCfgWrite_same | apply execCkToForwarded_same | apply execCkToFallback_same
      | apply execCkReturnOwn_same | apply after_same | apply storeReg_same | apply cmdWrite_same
      | apply clearWrite_same | exact sameOp_none | apply sameOp_some | apply sameOp_ite | apply same_ite
      | exact sameOpt_none | apply sameOpt_ite
    | split
    | with_reducible first
      | (apply same_pair; assumption) | (apply same_opt; assumption) | (apply same_triple; assumption)

theorem writeEqa_same {M : Nat} {s0 : State} {c : Nat} {off : Nat} {v : Nat} {s : State} (hM : Sub 0x380001 M) (hs : Same M s0 s) :
    Same M s0 (writeEqa c off v s) := by
  unfold writeEqa
  try dsimp only
  repeat' first
    | intro _
    | with_reducible first
      | assumption | exact hM.of (by decide) | apply sameMk | exact Or.inl (hM.bit (by decide)) | exact Or.inr rfl
    | simp only [same_mk_iff]
    | with_reducible first
      | apply execAdaptReacquire_same | apply execAdaptFreeze_same | apply execAdaptThaw_same
      | apply execDfeSelWrite_same | apply execCalEnd_same | apply execCalAll_same | apply execCalEye_same
      | apply execCalSelWrite_same | apply after_same | apply storeReg_same | apply cmdWrite_same
      | apply writeAdaptCfg_same | exact sameOp_none | apply sameOp_some | apply sameOp_ite | apply same_ite
      | exact sameOpt_none | apply sameOpt_ite
    | split
    | with_reducible first
      | (apply same_pair; assumption) | (apply same_opt; assumption) | (apply same_triple; assumption)

theorem writeDie_same {M : Nat} {s0 : State} {d : Nat} {off : Nat} {v : Nat} {s : State} (hM : Sub 0x281bff787 M) (hs : Same M s0 s) :
    Same M s0 (writeDie d off v s) := by
  unfold writeDie
  try dsimp only
  repeat' first
    | intro _
    | with_reducible first
      | assumption | exact hM.of (by decide) | apply sameMk | exact Or.inl (hM.bit (by decide)) | exact Or.inr rfl
    | simp only [same_mk_iff]
    | with_reducible first
      | apply ceJudge_same | apply execBufRetire_same | apply execBufReturn_same | apply execBufTestNow_same
      | apply execBufClr_same | apply execDescSelWrite_same | apply after_same | apply storeReg_same
      | apply cmdWrite_same | apply clearWrite_same | exact sameOp_none | apply sameOp_some | apply sameOp_ite
      | apply same_ite | exact sameOpt_none | apply sameOpt_ite
    | split
    | with_reducible first
      | (apply same_pair; assumption) | (apply same_opt; assumption) | (apply same_triple; assumption)

theorem writeLnk_same {M : Nat} {s0 : State} {k : Nat} {off : Nat} {v : Nat} {s : State} (hM : Sub 0x83bff687 M) (hs : Same M s0 s) :
    Same M s0 (writeLnk k off v s) := by
  unfold writeLnk
  try dsimp only
  repeat' first
    | intro _
    | with_reducible first
      | assumption | exact hM.of (by decide) | apply sameMk | exact Or.inl (hM.bit (by decide)) | exact Or.inr rfl
    | simp only [same_mk_iff]
    | with_reducible first
      | apply execTrnRetrain_same | apply execTrnStep_same | apply execTrnDown_same | apply execTrnRestart_same
      | apply execFltClr_same | apply execDarnClr_same | apply execTrkClr_same | apply execLnkCommit_same
      | apply after_same | apply storeReg_same | apply cmdWrite_same | apply stagedWrite_same
      | apply clearWrite_same | exact sameOp_none | apply sameOp_some | apply sameOp_ite | apply same_ite
      | exact sameOpt_none | apply sameOpt_ite
    | split
    | with_reducible first
      | (apply same_pair; assumption) | (apply same_opt; assumption) | (apply same_triple; assumption)

theorem writeLlt_same {M : Nat} {s0 : State} {q : Nat} {off : Nat} {v : Nat} {s : State} (hM : Sub 0x3 M) (hs : Same M s0 s) :
    Same M s0 (writeLlt q off v s) := by
  unfold writeLlt
  try dsimp only
  repeat' first
    | intro _
    | with_reducible first
      | assumption | exact hM.of (by decide)
    | with_reducible first
      | apply wr_same | apply execLlClr_same | apply storeReg_same | apply stagedWrite_same
      | apply clearWrite_same | apply same_ite

theorem writeCal_same {M : Nat} {s0 : State} {h : Nat} {off : Nat} {v : Nat} {s : State} (hM : Sub 0x3 M) (hs : Same M s0 s) :
    Same M s0 (writeCal h off v s) := by
  unfold writeCal
  try dsimp only
  repeat' first
    | intro _
    | with_reducible first
      | assumption | exact hM.of (by decide)
    | with_reducible first
      | apply wr_same | apply execCalClr_same | apply storeReg_same | apply stagedWrite_same
      | apply clearWrite_same | apply same_ite

theorem writeBlock_same {M : Nat} {s0 : State} {p : Nat} {off : Nat} {v : Nat} {s : State} (hM : Sub 0xfbffff7e7 M) (hs : Same M s0 s) :
    Same M s0 (writeBlock p off v s) := by
  unfold writeBlock
  try dsimp only
  repeat' first
    | intro _
    | with_reducible first
      | assumption | exact hM.of (by decide) | apply sameMk | exact Or.inl (hM.bit (by decide)) | exact Or.inr rfl
    | simp only [same_mk_iff]
    | with_reducible first
      | apply execSrcCfgWrite_same | apply execQstSelWrite_same | apply after_same | apply storeReg_same
      | apply writeGlb_same | apply writeClk_same | apply writePwr_same | apply writeTmp_same
      | apply writeInt_same | apply writeBst_same | apply writeSec_same | apply writePct_same
      | apply writePrk_same | apply writeMap_same | apply writeFmc_same | apply writeClu_same
      | apply writeEqa_same | apply writeDie_same | apply writeLnk_same | apply writeLlt_same
      | apply writeCal_same | apply same_ite
    | split
    | with_reducible first
      | (apply same_pair; assumption) | (apply same_opt; assumption) | (apply same_triple; assumption)

theorem softClear_same {M : Nat} {s0 : State} {p : Nat} {s : State} (hM : Sub 0x3 M) (hs : Same M s0 s) :
    Same M s0 (softClear p s) := by
  unfold softClear
  try dsimp only
  repeat' first
    | intro _
    | with_reducible first
      | assumption | exact hM.of (by decide) | apply sameMk | exact Or.inl (hM.bit (by decide)) | exact Or.inr rfl
    | simp only [same_mk_iff]
    | with_reducible first
      | apply zeroLive_same | apply zeroRegs_same | apply syncEvents_same
    | split
    | with_reducible first
      | (apply same_pair; assumption) | (apply same_opt; assumption) | (apply same_triple; assumption)

theorem endServices_same {M : Nat} {s0 : State} {c : Nat} {s : State} (hM : Sub 0x10000001 M) (hs : Same M s0 s) :
    Same M s0 (endServices c s) := by
  unfold endServices
  try dsimp only
  repeat' first
    | intro _
    | with_reducible first
      | assumption | exact hM.of (by decide)
    | with_reducible first
      | apply sendTo_same | apply bankIdle_same | apply endService_same | apply same_ite | apply same_foldl

theorem intSoftReset_same {M : Nat} {s0 : State} {fast : Bool} {s : State} (hM : Sub 0x30000001 M) (hs : Same M s0 s) :
    Same M s0 (intSoftReset fast s) := by
  unfold intSoftReset
  try dsimp only
  repeat' first
    | intro _
    | with_reducible first
      | assumption | exact hM.of (by decide) | apply sameMk | exact Or.inl (hM.bit (by decide)) | exact Or.inr rfl
    | simp only [same_mk_iff]
    | with_reducible first
      | apply endServices_same | apply same_ite

theorem intsSoftReset_same {M : Nat} {s0 : State} {s : State} (hM : Sub 0x30000001 M) (hs : Same M s0 s) :
    Same M s0 (intsSoftReset s) := by
  unfold intsSoftReset
  try dsimp only
  repeat' first
    | intro _
    | with_reducible first
      | assumption | exact hM.of (by decide) | apply sameMk | exact Or.inl (hM.bit (by decide)) | exact Or.inr rfl
    | simp only [same_mk_iff]
    | with_reducible first
      | apply wr_same | apply unset_same | apply relevel_same | apply bankIdle_same | apply same_ite
      | apply same_foldl

theorem eqaSoftReset_same {M : Nat} {s0 : State} {c : Nat} {s : State} (hM : Sub 0x300001 M) (hs : Same M s0 s) :
    Same M s0 (eqaSoftReset c s) := by
  unfold eqaSoftReset
  try dsimp only
  repeat' first
    | intro _
    | with_reducible first
      | assumption | exact hM.of (by decide) | apply sameMk | exact Or.inl (hM.bit (by decide)) | exact Or.inr rfl
    | simp only [same_mk_iff]
    | with_reducible first
      | apply wr_same | apply zeroRegs_same | apply putCal_same | apply calAbortAny_same | apply engineNext_same

theorem softEffects_same {M : Nat} {s0 : State} {p : Nat} {s : State} (hM : Sub 0x830300001 M) (hs : Same M s0 s) :
    Same M s0 (softEffects p s) := by
  unfold softEffects
  try dsimp only
  repeat' first
    | intro _
    | with_reducible first
      | assumption | exact hM.of (by decide) | apply sameMk | exact Or.inl (hM.bit (by decide)) | exact Or.inr rfl
    | simp only [same_mk_iff]
    | with_reducible first
      | apply wr_same | apply zeroRegs_same | apply fmAbort_same | apply clearKeyData_same
      | apply peakRestart_same | apply intSoftReset_same | apply intsSoftReset_same | apply eqaSoftReset_same
      | apply same_ite
    | split
    | with_reducible first
      | (apply same_pair; assumption) | (apply same_opt; assumption) | (apply same_triple; assumption)

theorem softReset_same {M : Nat} {s0 : State} {p : Nat} {s : State} (hM : Sub 0x3 M) (hs : Same M s0 s) :
    Same M s0 (softReset p s) := by
  unfold softReset
  try dsimp only
  repeat' first
    | intro _
    | with_reducible first
      | assumption | exact hM.of (by decide)
    | with_reducible first
      | apply wr_same | apply softClear_same | apply same_ite

theorem execSoftReset_same {M : Nat} {s0 : State} {page : Nat} {s : State} (hM : Sub 0x3 M) (hs : Same M s0 s) :
    SameO M s0 (execSoftReset page s) := by
  unfold execSoftReset
  try dsimp only
  repeat' first
    | intro _
    | with_reducible first
      | assumption | exact hM.of (by decide)
    | with_reducible first
      | apply ifOpen_same | apply softReset_same | apply sameO_next | apply sameO_ite | exact sameO_fault

theorem hostWrite_same {M : Nat} {s0 : State} {addr : Nat} {v : Nat} {s : State} (hM : Sub 0xfbffff7e7 M) (hs : Same M s0 s) :
    Same M s0 (hostWrite addr v s) := by
  unfold hostWrite
  try dsimp only
  repeat' first
    | intro _
    | with_reducible first
      | assumption | exact hM.of (by decide) | apply sameMk | exact Or.inl (hM.bit (by decide)) | exact Or.inr rfl
    | simp only [same_mk_iff]
    | with_reducible first
      | apply syncEvents_same | apply execClkEnWrite_same | apply after_same | apply storeReg_same
      | apply writeBlock_same | apply softReset_same | apply same_ite
    | split
    | with_reducible first
      | (apply same_pair; assumption) | (apply same_opt; assumption) | (apply same_triple; assumption)

theorem holdAccess_same {M : Nat} {s0 : State} {a : HeldAccess} {s : State} (hM : Sub 0x40000000 M) (hs : Same M s0 s) :
    Same M s0 (holdAccess a s) := by
  unfold holdAccess
  try dsimp only
  repeat' first
    | intro _
    | with_reducible first
      | assumption | exact hM.of (by decide) | apply sameMk | exact Or.inl (hM.bit (by decide)) | exact Or.inr rfl
    | simp only [same_mk_iff]

theorem execLoReadLatch_same {M : Nat} {s0 : State} {addr : Nat} {s : State} (hM : Sub 0x60000001 M) (hs : Same M s0 s) :
    SameO M s0 (execLoReadLatch addr s) := by
  unfold execLoReadLatch
  try dsimp only
  repeat' first
    | intro _
    | with_reducible first
      | assumption | exact hM.of (by decide)
    | with_reducible first
      | apply answerWord_same | apply hostRead_same | apply holdAccess_same | apply sameO_next | apply sameO_ite
      | exact sameO_fault | apply same_ite

theorem execRegisterWrite_same {M : Nat} {s0 : State} {addr : Nat} {v : Nat} {s : State} (hM : Sub 0xffffff7e7 M) (hs : Same M s0 s) :
    SameO M s0 (execRegisterWrite addr v s) := by
  unfold execRegisterWrite
  try dsimp only
  repeat' first
    | intro _
    | with_reducible first
      | assumption | exact hM.of (by decide)
    | with_reducible first
      | apply hostWrite_same | apply holdAccess_same | apply sameO_next | apply sameO_ite | exact sameO_fault
      | apply same_ite

end Sys2Proof.Machine
end

