-- ==== Sys2Proof/Laws/SameHostPorts.lean ====
section
/-! SUPPORT. What the operations of Machine/HostPorts.lean leave as it is (`Same`). -/

namespace Sys2Proof.Machine

theorem putPort_same {M : Nat} {s0 : State} {s : State} {p : Nat} {v : PortSt} (hM : Sub 0x40000000 M) (hs : Same M s0 s) :
    Same M s0 (State.putPort s p v) := by
  unfold State.putPort
  try dsimp only
  repeat' first
    | intro _
    | with_reducible first
      | assumption | exact hM.of (by decide) | apply sameMk | exact Or.inl (hM.bit (by decide)) | exact Or.inr rfl
    | simp only [same_mk_iff]
    | with_reducible first
      | apply same_ite

theorem freeWords_same {M : Nat} {s0 : State} {x0 : Nat} {x1 : State} (hM : Sub 0x4 M) (hx1 : Same M s0 x1) :
    Same M s0 (freeWords x0 x1).2 := by
  induction x0 generalizing x1 with
  | zero =>
    unfold freeWords
    try dsimp only
    repeat' first
      | intro _
      | with_reducible first
        | assumption | exact hM.of (by decide)
      | with_reducible first
        | apply draw_same
      | split
  | succ n ih =>
    unfold freeWords
    try dsimp only
    repeat' first
      | intro _
      | with_reducible first
        | assumption | apply ih | exact hM.of (by decide)
      | with_reducible first
        | apply draw_same
      | split

theorem portPending_same {M : Nat} {s0 : State} {p : Nat} {len : Nat} {s : State} (hM : Sub 0x40000000 M) (hs : Same M s0 s) :
    Same M s0 (portPending p len s) := by
  unfold portPending
  try dsimp only
  repeat' first
    | intro _
    | with_reducible first
      | assumption | exact hM.of (by decide) | apply sameMk | exact Or.inl (hM.bit (by decide)) | exact Or.inr rfl
    | simp only [same_mk_iff]
    | with_reducible first
      | apply putPort_same

theorem portResult_same {M : Nat} {s0 : State} {p : Nat} {serial : Nat} {status : Nat} {words : List Nat} {s : State} (hM : Sub 0x40000000 M) (hs : Same M s0 s) :
    Same M s0 (portResult p serial status words s) := by
  unfold portResult
  try dsimp only
  repeat' first
    | intro _
    | with_reducible first
      | assumption | exact hM.of (by decide) | apply sameMk | exact Or.inl (hM.bit (by decide)) | exact Or.inr rfl
    | simp only [same_mk_iff]
    | with_reducible first
      | apply putPort_same | apply same_ite

theorem readWords_same {M : Nat} {s0 : State} {x0 : Nat} {x1 : Nat} {x2 : State} (hM : Sub 0x60000001 M) (hx2 : Same M s0 x2) :
    Same M s0 (readWords x0 x1 x2).2 := by
  induction x0 generalizing x1 x2 with
  | zero =>
    unfold readWords
    try dsimp only
    repeat' first
      | intro _
      | with_reducible first
        | assumption | exact hM.of (by decide)
      | with_reducible first
        | apply hostRead_same
      | split
  | succ n ih =>
    unfold readWords
    try dsimp only
    repeat' first
      | intro _
      | with_reducible first
        | assumption | apply ih | exact hM.of (by decide)
      | with_reducible first
        | apply hostRead_same
      | split

theorem writeWords_same {M : Nat} {s0 : State} {port : Nat} {x0 : List Nat} {x1 : Nat} {x2 : State} (hM : Sub 0xffffff7e7 M) (hx2 : Same M s0 x2) :
    Same M s0 (writeWords port x0 x1 x2) := by
  induction x0 generalizing x1 x2 with
  | nil =>
    unfold writeWords
    try dsimp only
    repeat' first
      | intro _
      | with_reducible first
        | assumption | exact hM.of (by decide)
      | with_reducible first
        | apply hostWrite_same | apply holdAccess_same | apply same_ite
      | split
  | cons a l ih =>
    unfold writeWords
    try dsimp only
    repeat' first
      | intro _
      | with_reducible first
        | assumption | apply ih | exact hM.of (by decide)
      | with_reducible first
        | apply hostWrite_same | apply holdAccess_same | apply same_ite
      | split

theorem sendReq_same {M : Nat} {s0 : State} {r : Remote} {s : State} (hM : Sub 0x10000000 M) (hs : Same M s0 s) :
    Same M s0 (sendReq r s).2 := by
  unfold sendReq
  try dsimp only
  repeat' first
    | intro _
    | with_reducible first
      | assumption | exact hM.of (by decide) | apply sameMk | exact Or.inl (hM.bit (by decide)) | exact Or.inr rfl
    | simp only [same_mk_iff]
    | with_reducible first
      | apply sendTo_same | apply same_ite | apply same_ite2

theorem remoteAccess_same {M : Nat} {s0 : State} {p : Nat} {target : Nat} {write : Bool} {addr : Nat} {words : List Nat} {s : State} (hM : Sub 0x50000000 M) (hs : Same M s0 s) :
    Same M s0 (remoteAccess p target write addr words s).2 := by
  unfold remoteAccess
  try dsimp only
  repeat' first
    | intro _
    | with_reducible first
      | assumption | exact hM.of (by decide) | apply sameMk | exact Or.inl (hM.bit (by decide)) | exact Or.inr rfl
    | simp only [same_mk_iff]
    | with_reducible first
      | apply putPort_same | apply portPending_same | apply sendReq_same | apply same_ite | apply same_ite2

theorem remoteEnd_same {M : Nat} {s0 : State} {p : Nat} {r : Remote} {status : Nat} {s : State} (hM : Sub 0x40000004 M) (hs : Same M s0 s) :
    Same M s0 (remoteEnd p r status s) := by
  unfold remoteEnd
  try dsimp only
  repeat' first
    | intro _
    | with_reducible first
      | assumption | exact hM.of (by decide) | apply sameMk | exact Or.inl (hM.bit (by decide)) | exact Or.inr rfl
    | simp only [same_mk_iff]
    | with_reducible first
      | apply putPort_same | apply freeWords_same | apply portResult_same | apply same_ite

theorem rspArrives_same {M : Nat} {s0 : State} {x : Msg} {s : State} (hM : Sub 0x50000004 M) (hs : Same M s0 s) :
    Same M s0 (rspArrives x s) := by
  unfold rspArrives
  try dsimp only
  repeat' first
    | intro _
    | with_reducible first
      | assumption | exact hM.of (by decide) | apply sameMk | exact Or.inl (hM.bit (by decide)) | exact Or.inr rfl
    | simp only [same_mk_iff]
    | with_reducible first
      | apply putPort_same | apply sendReq_same | apply remoteEnd_same | apply same_ite | exact sameOpt_none
      | apply sameOpt_ite
    | split
    | with_reducible first
      | (apply same_pair; assumption) | (apply same_opt; assumption) | (apply same_triple; assumption)

theorem execRingRsp_same {M : Nat} {s0 : State} {d : Nat} {msg : RingMsg} {s : State} (hM : Sub 0x50000005 M) (hs : Same M s0 s) :
    SameO M s0 (execRingRsp d msg s) := by
  unfold execRingRsp
  try dsimp only
  repeat' first
    | intro _
    | with_reducible first
      | assumption | exact hM.of (by decide)
    | with_reducible first
      | apply onUnit_same | apply arrive_same | apply routed_same | apply onRing_same | apply rspArrives_same
      | apply sameO_next | apply sameO_ite | exact sameO_fault | apply same_ite | apply same_ite2
      | apply same_ite3 | apply same_foldl | apply same_foldl2 | apply same_foldl1
    | split
    | dsimp only
    | with_reducible first
      | (apply same_pair; assumption) | (apply same_opt; assumption) | (apply same_triple; assumption)

theorem execRemoteTimeout_same {M : Nat} {s0 : State} {tag : Nat} {s : State} (hM : Sub 0x40000005 M) (hs : Same M s0 s) :
    SameO M s0 (execRemoteTimeout tag s) := by
  unfold execRemoteTimeout
  try dsimp only
  repeat' first
    | intro _
    | with_reducible first
      | assumption | exact hM.of (by decide) | apply sameMk | exact Or.inl (hM.bit (by decide)) | exact Or.inr rfl
    | simp only [same_mk_iff]
    | with_reducible first
      | apply bump_same | apply remoteEnd_same | apply sameO_next | apply sameO_ite | exact sameO_fault
      | apply same_ite | exact sameOpt_none | apply sameOpt_ite
    | split
    | with_reducible first
      | (apply same_pair; assumption) | (apply same_opt; assumption) | (apply same_triple; assumption)

theorem sendRsp_same {M : Nat} {s0 : State} {d : Nat} {tag : Nat} {status : Nat} {data : Nat} {s : State} (hM : Sub 0x10000000 M) (hs : Same M s0 s) :
    Same M s0 (sendRsp d tag status data s) := by
  unfold sendRsp
  try dsimp only
  repeat' first
    | intro _
    | with_reducible first
      | assumption | exact hM.of (by decide)
    | with_reducible first
      | apply sendOn_same

theorem ringAccess_same {M : Nat} {s0 : State} {d : Nat} {tag : Nat} {write : Bool} {addr : Nat} {data : Nat} {s : State} (hM : Sub 0xffffff7e7 M) (hs : Same M s0 s) :
    Same M s0 (ringAccess d tag write addr data s) := by
  unfold ringAccess
  try dsimp only
  repeat' first
    | intro _
    | with_reducible first
      | assumption | exact hM.of (by decide)
    | with_reducible first
      | apply hostRead_same | apply hostWrite_same | apply freeWords_same | apply sendRsp_same | apply same_ite

theorem reqArrives_same {M : Nat} {s0 : State} {d : Nat} {x : Msg} {s : State} (hM : Sub 0xffffff7e7 M) (hs : Same M s0 s) :
    Same M s0 (reqArrives d x s) := by
  unfold reqArrives
  try dsimp only
  repeat' first
    | intro _
    | with_reducible first
      | assumption | exact hM.of (by decide)
    | with_reducible first
      | apply holdAccess_same | apply freeWords_same | apply sendRsp_same | apply ringAccess_same | apply same_ite

theorem execRingReq_same {M : Nat} {s0 : State} {d : Nat} {msg : RingMsg} {s : State} (hM : Sub 0xffffff7e7 M) (hs : Same M s0 s) :
    SameO M s0 (execRingReq d msg s) := by
  unfold execRingReq
  try dsimp only
  repeat' first
    | intro _
    | with_reducible first
      | assumption | exact hM.of (by decide)
    | with_reducible first
      | apply onUnit_same | apply arrive_same | apply routed_same | apply onRing_same | apply reqArrives_same
      | apply sameO_next | apply sameO_ite | exact sameO_fault | apply same_ite | apply same_ite2
      | apply same_ite3 | apply same_foldl | apply same_foldl2 | apply same_foldl1
    | split
    | dsimp only
    | with_reducible first
      | (apply same_pair; assumption) | (apply same_opt; assumption) | (apply same_triple; assumption)

theorem portRead_same {M : Nat} {s0 : State} {p : Nat} {target : Nat} {addr : Nat} {n : Nat} {late : Bool} {s : State} (hM : Sub 0x70000005 M) (hs : Same M s0 s) :
    Same M s0 (portRead p target addr n late s).2.2 := by
  unfold portRead
  try dsimp only
  repeat' first
    | intro _
    | with_reducible first
      | assumption | exact hM.of (by decide)
    | with_reducible first
      | apply holdAccess_same | apply freeWords_same | apply portPending_same | apply portResult_same
      | apply readWords_same | apply remoteAccess_same | apply same_ite | apply same_ite2 | apply same_ite3

theorem portWrite_same {M : Nat} {s0 : State} {p : Nat} {target : Nat} {addr : Nat} {words : List Nat} {s : State} (hM : Sub 0xffffff7e7 M) (hs : Same M s0 s) :
    Same M s0 (portWrite p target addr words s).2 := by
  unfold portWrite
  try dsimp only
  repeat' first
    | intro _
    | with_reducible first
      | assumption | exact hM.of (by decide)
    | with_reducible first
      | apply writeWords_same | apply remoteAccess_same | apply same_ite | apply same_ite2

theorem portFetch_same {M : Nat} {s0 : State} {p : Nat} {s : State} (hM : Sub 0x4 M) (hs : Same M s0 s) :
    Same M s0 (portFetch p s).2.2 := by
  unfold portFetch
  try dsimp only
  repeat' first
    | intro _
    | with_reducible first
      | assumption | exact hM.of (by decide) | apply sameMk | exact Or.inl (hM.bit (by decide)) | exact Or.inr rfl
    | simp only [same_mk_iff]
    | with_reducible first
      | apply freeWords_same | apply same_ite | apply same_ite2 | apply same_ite3 | exact sameOpt_none
      | apply sameOpt_ite
    | split
    | with_reducible first
      | (apply same_pair; assumption) | (apply same_opt; assumption) | (apply same_triple; assumption)

theorem spiAnswer_same {M : Nat} {s0 : State} {reads : Bool} {status : Nat} {words : List Nat} {s : State} (hM : Sub 0x40000000 M) (hs : Same M s0 s) :
    Same M s0 (spiAnswer reads status words s) := by
  unfold spiAnswer
  try dsimp only
  repeat' first
    | intro _
    | with_reducible first
      | assumption | exact hM.of (by decide) | apply sameMk | exact Or.inl (hM.bit (by decide)) | exact Or.inr rfl
    | simp only [same_mk_iff]
    | with_reducible first
      | apply same_ite

theorem spiDone_same {M : Nat} {s0 : State} {isStatus : Bool} {reads : Bool} {r : Nat × List Nat × State} (hM : Sub 0x40000001 M) (hr : Same M s0 r.2.2) :
    Same M s0 (spiDone isStatus reads r) := by
  unfold spiDone
  try dsimp only
  repeat' first
    | intro _
    | with_reducible first
      | assumption | exact hM.of (by decide) | apply sameMk | exact Or.inl (hM.bit (by decide)) | exact Or.inr rfl
    | simp only [same_mk_iff]
    | with_reducible first
      | apply wr_same | apply putPort_same | apply spiAnswer_same | apply same_ite

theorem spiFrame_same {M : Nat} {s0 : State} {op : Nat} {quad : Bool} {addr : Nat} {data : List Nat} {crc : Nat} {n : Nat} {isStatus : Bool} {reads : Bool} {act : State → Nat × List Nat × State} {s : State} (hM : Sub 0x50000001 M) (hact : ∀ y0, Same M s0 y0 → Same M s0 (act y0).2.2) (hs : Same M s0 s) :
    Same M s0 (spiFrame op quad addr data crc n isStatus reads act s) := by
  unfold spiFrame
  try dsimp only
  repeat' first
    | intro _
    | with_reducible first
      | assumption | exact hM.of (by decide)
    | with_reducible first
      | apply bump_same | apply freshOut_same | apply spiDone_same | apply hact | apply same_ite

theorem singleOnly_same {M : Nat} {s0 : State} {addr : Nat} {n : Nat} {s : State} {r : Nat × List Nat × State} (hM : Sub 0x4 M) (hs : Same M s0 s) (hr : Same M s0 r.2.2) :
    Same M s0 (singleOnly addr n s r).2.2 := by
  unfold singleOnly
  try dsimp only
  repeat' first
    | intro _
    | with_reducible first
      | assumption | exact hM.of (by decide)
    | with_reducible first
      | apply freeWords_same | apply same_ite | apply same_ite2 | apply same_ite3

theorem execSpiWrite_same {M : Nat} {s0 : State} {quad : Bool} {addr : Nat} {data : Nat} {crc : Nat} {s : State} (hM : Sub 0xffffff7e7 M) (hs : Same M s0 s) :
    SameO M s0 (execSpiWrite quad addr data crc s) := by
  unfold execSpiWrite
  try dsimp only
  repeat' first
    | intro _
    | with_reducible first
      | assumption | exact hM.of (by decide)
    | with_reducible first
      | apply portWrite_same | apply spiFrame_same | apply singleOnly_same | apply sameO_next | apply sameO_ite
      | exact sameO_fault

theorem execSpiRead_same {M : Nat} {s0 : State} {quad : Bool} {addr : Nat} {crc : Nat} {late : Bool} {s : State} (hM : Sub 0x70000005 M) (hs : Same M s0 s) :
    SameO M s0 (execSpiRead quad addr crc late s) := by
  unfold execSpiRead
  try dsimp only
  repeat' first
    | intro _
    | with_reducible first
      | assumption | exact hM.of (by decide)
    | with_reducible first
      | apply portRead_same | apply spiFrame_same | apply singleOnly_same | apply sameO_next | apply sameO_ite
      | exact sameO_fault

theorem execSpiWriteBlock_same {M : Nat} {s0 : State} {quad : Bool} {addr : Nat} {data : List Nat} {crc : Nat} {s : State} (hM : Sub 0xffffff7e7 M) (hs : Same M s0 s) :
    SameO M s0 (execSpiWriteBlock quad addr data crc s) := by
  unfold execSpiWriteBlock
  try dsimp only
  repeat' first
    | intro _
    | with_reducible first
      | assumption | exact hM.of (by decide)
    | with_reducible first
      | apply portWrite_same | apply spiFrame_same | apply sameO_next | apply sameO_ite | exact sameO_fault
      | apply same_ite

theorem execSpiReadBlock_same {M : Nat} {s0 : State} {quad : Bool} {addr : Nat} {crc : Nat} {late : Bool} {s : State} (hM : Sub 0x70000005 M) (hs : Same M s0 s) :
    SameO M s0 (execSpiReadBlock quad addr crc late s) := by
  unfold execSpiReadBlock
  try dsimp only
  repeat' first
    | intro _
    | with_reducible first
      | assumption | exact hM.of (by decide)
    | with_reducible first
      | apply portRead_same | apply spiFrame_same | apply sameO_next | apply sameO_ite | exact sameO_fault

theorem execSpiFetch_same {M : Nat} {s0 : State} {quad : Bool} {addr : Nat} {crc : Nat} {s : State} (hM : Sub 0x50000005 M) (hs : Same M s0 s) :
    SameO M s0 (execSpiFetch quad addr crc s) := by
  unfold execSpiFetch
  try dsimp only
  repeat' first
    | intro _
    | with_reducible first
      | assumption | exact hM.of (by decide)
    | with_reducible first
      | apply portFetch_same | apply spiFrame_same | apply sameO_next | apply sameO_ite | exact sameO_fault
      | apply same_ite | apply same_ite2 | apply same_ite3 | apply same_foldl | apply same_foldl2
      | apply same_foldl1
    | split
    | dsimp only
    | with_reducible first
      | (apply same_pair; assumption) | (apply same_opt; assumption) | (apply same_triple; assumption)

theorem execSpiStatus_same {M : Nat} {s0 : State} {quad : Bool} {addr : Nat} {crc : Nat} {s : State} (hM : Sub 0x50000005 M) (hs : Same M s0 s) :
    SameO M s0 (execSpiStatus quad addr crc s) := by
  unfold execSpiStatus
  try dsimp only
  repeat' first
    | intro _
    | with_reducible first
      | assumption | exact hM.of (by decide)
    | with_reducible first
      | apply spiFrame_same | apply singleOnly_same | apply sameO_next | apply sameO_ite | exact sameO_fault

theorem execSpiBadOpcode_same {M : Nat} {s0 : State} {op : Nat} {s : State} (hM : Sub 0x1 M) (hs : Same M s0 s) :
    SameO M s0 (execSpiBadOpcode op s) := by
  unfold execSpiBadOpcode
  try dsimp only
  repeat' first
    | intro _
    | with_reducible first
      | assumption | exact hM.of (by decide)
    | with_reducible first
      | apply bump_same | apply sameO_next | apply sameO_ite | exact sameO_fault | apply same_ite

theorem smbDone_same {M : Nat} {s0 : State} {status : Nat} {s : State} (hM : Sub 0x40000001 M) (hs : Same M s0 s) :
    Same M s0 (smbDone status s) := by
  unfold smbDone
  try dsimp only
  repeat' first
    | intro _
    | with_reducible first
      | assumption | exact hM.of (by decide) | apply sameMk | exact Or.inl (hM.bit (by decide)) | exact Or.inr rfl
    | simp only [same_mk_iff]
    | with_reducible first
      | apply wr_same | apply bump_same | apply putPort_same

theorem smbBlockWrite_same {M : Nat} {s0 : State} {cmd : Nat} {data : Nat} {pec : Option Nat} {act : State → Nat × State} {s : State} (hM : Sub 0x50000001 M) (hact : ∀ y0, Same M s0 y0 → Same M s0 (act y0).2) (hs : Same M s0 s) :
    Same M s0 (smbBlockWrite cmd data pec act s) := by
  unfold smbBlockWrite
  try dsimp only
  repeat' first
    | intro _
    | with_reducible first
      | assumption | exact hM.of (by decide)
    | with_reducible first
      | apply bump_same | apply freshOut_same | apply smbDone_same | apply hact | apply same_ite

theorem execSmbPointer_same {M : Nat} {s0 : State} {ptr : Nat} {pec : Option Nat} {s : State} (hM : Sub 0x50000001 M) (hs : Same M s0 s) :
    SameO M s0 (execSmbPointer ptr pec s) := by
  unfold execSmbPointer
  try dsimp only
  repeat' first
    | intro _
    | with_reducible first
      | assumption | exact hM.of (by decide) | apply sameMk | exact Or.inl (hM.bit (by decide)) | exact Or.inr rfl
    | simp only [same_mk_iff]
    | with_reducible first
      | apply smbBlockWrite_same | apply sameO_next | apply sameO_ite | exact sameO_fault | apply same_ite
      | apply same_ite2 | apply same_ite3 | apply same_foldl | apply same_foldl2 | apply same_foldl1
    | split
    | dsimp only
    | with_reducible first
      | (apply same_pair; assumption) | (apply same_opt; assumption) | (apply same_triple; assumption)

theorem smbStep_same {M : Nat} {s0 : State} {status : Nat} {s : State} (hM : Sub 0x40000000 M) (hs : Same M s0 s) :
    Same M s0 (smbStep status s) := by
  unfold smbStep
  try dsimp only
  repeat' first
    | intro _
    | with_reducible first
      | assumption | exact hM.of (by decide) | apply sameMk | exact Or.inl (hM.bit (by decide)) | exact Or.inr rfl
    | simp only [same_mk_iff]
    | with_reducible first
      | apply same_ite

theorem execSmbWrite_same {M : Nat} {s0 : State} {data : Nat} {pec : Option Nat} {s : State} (hM : Sub 0xffffff7e7 M) (hs : Same M s0 s) :
    SameO M s0 (execSmbWrite data pec s) := by
  unfold execSmbWrite
  try dsimp only
  repeat' first
    | intro _
    | with_reducible first
      | assumption | exact hM.of (by decide) | apply sameMk | exact Or.inl (hM.bit (by decide)) | exact Or.inr rfl
    | simp only [same_mk_iff]
    | with_reducible first
      | apply portWrite_same | apply smbBlockWrite_same | apply sameO_next | apply sameO_ite | exact sameO_fault
      | apply same_ite

theorem smbAnswer_same {M : Nat} {s0 : State} {cmd : Nat} {status : Nat} {word : Nat} {s : State} (hM : Sub 0x40000000 M) (hs : Same M s0 s) :
    Same M s0 (smbAnswer cmd status word s) := by
  unfold smbAnswer
  try dsimp only
  repeat' first
    | intro _
    | with_reducible first
      | assumption | exact hM.of (by decide) | apply sameMk | exact Or.inl (hM.bit (by decide)) | exact Or.inr rfl
    | simp only [same_mk_iff]

theorem execSmbRead_same {M : Nat} {s0 : State} {late : Bool} {s : State} (hM : Sub 0x70000005 M) (hs : Same M s0 s) :
    SameO M s0 (execSmbRead late s) := by
  unfold execSmbRead
  try dsimp only
  repeat' first
    | intro _
    | with_reducible first
      | assumption | exact hM.of (by decide)
    | with_reducible first
      | apply freshOut_same | apply portRead_same | apply smbDone_same | apply smbStep_same | apply smbAnswer_same
      | apply sameO_next | apply sameO_ite | exact sameO_fault | apply same_ite

theorem execSmbFetch_same {M : Nat} {s0 : State} {s : State} (hM : Sub 0x40000005 M) (hs : Same M s0 s) :
    SameO M s0 (execSmbFetch s) := by
  unfold execSmbFetch
  try dsimp only
  repeat' first
    | intro _
    | with_reducible first
      | assumption | exact hM.of (by decide)
    | with_reducible first
      | apply portFetch_same | apply smbDone_same | apply smbAnswer_same | apply sameO_next | apply sameO_ite
      | exact sameO_fault | apply same_ite

theorem execSmbStatus_same {M : Nat} {s0 : State} {s : State} (hM : Sub 0x40000000 M) (hs : Same M s0 s) :
    SameO M s0 (execSmbStatus s) := by
  unfold execSmbStatus
  try dsimp only
  repeat' first
    | intro _
    | with_reducible first
      | assumption | exact hM.of (by decide) | apply sameMk | exact Or.inl (hM.bit (by decide)) | exact Or.inr rfl
    | simp only [same_mk_iff]
    | with_reducible first
      | apply sameO_next | apply sameO_ite | exact sameO_fault | apply same_ite

theorem execSmbBusTimeout_same {M : Nat} {s0 : State} {s : State} (hM : Sub 0x1 M) (hs : Same M s0 s) :
    SameO M s0 (execSmbBusTimeout s) := by
  unfold execSmbBusTimeout
  try dsimp only
  repeat' first
    | intro _
    | with_reducible first
      | assumption | exact hM.of (by decide)
    | with_reducible first
      | apply bump_same | apply sameO_next | apply sameO_ite | exact sameO_fault | apply same_ite

theorem runAccess_same {M : Nat} {s0 : State} {s : State} {a : HeldAccess} (hM : Sub 0xffffff7e7 M) (hs : Same M s0 s) :
    Same M s0 (runAccess s a) := by
  unfold runAccess
  try dsimp only
  repeat' first
    | intro _
    | with_reducible first
      | assumption | exact hM.of (by decide)
    | with_reducible first
      | apply answerWord_same | apply holdAccess_same | apply portResult_same | apply readWords_same
      | apply writeWords_same | apply ringAccess_same | apply same_ite

theorem execSoftResetDone_same {M : Nat} {s0 : State} {page : Nat} {s : State} (hM : Sub 0xffffff7e7 M) (hs : Same M s0 s) :
    SameO M s0 (execSoftResetDone page s) := by
  unfold execSoftResetDone
  try dsimp only
  repeat' first
    | intro _
    | with_reducible first
      | assumption | exact hM.of (by decide) | apply sameMk | exact Or.inl (hM.bit (by decide)) | exact Or.inr rfl
    | simp only [same_mk_iff]
    | with_reducible first
      | apply wr_same | apply freshOut_same | apply softEffects_same | apply runAccess_same | apply sameO_next
      | apply sameO_ite | exact sameO_fault | apply same_ite | apply same_foldl

end Sys2Proof.Machine
end

