-- ==== Sys2Proof/Laws/SameSelvedge.lean ====
section
/-! SUPPORT. What the operations of Machine/Selvedge.lean leave as it is (`Same`). -/

namespace Sys2Proof.Machine

theorem selFail_same {M : Nat} {s0 : State} {k : Nat} {sd : Nat} {cause : Nat} {slot : Nat} {s : State} (hM : Sub 0x1 M) (hs : Same M s0 s) :
    Same M s0 (selFail k sd cause slot s) := by
  unfold selFail
  try dsimp only
  repeat' first
    | intro _
    | with_reducible first
      | assumption | exact hM.of (by decide)
    | with_reducible first
      | apply wr_same | apply bump_same | apply raise_same

theorem selSetQueue_same {M : Nat} {s0 : State} {q : List SelReq} {s : State} (hM : Sub 0x80000001 M) (hs : Same M s0 s) :
    Same M s0 (selSetQueue q s) := by
  unfold selSetQueue
  try dsimp only
  repeat' first
    | intro _
    | with_reducible first
      | assumption | exact hM.of (by decide) | apply sameMk | exact Or.inl (hM.bit (by decide)) | exact Or.inr rfl
    | simp only [same_mk_iff]
    | with_reducible first
      | apply wr_same

theorem selAccept_same {M : Nat} {s0 : State} {k : Nat} {sd : Nat} {f : List Nat} {s : State} (hM : Sub 0x80000003 M) (hs : Same M s0 s) :
    Same M s0 (selAccept k sd f s) := by
  unfold selAccept
  try dsimp only
  repeat' first
    | intro _
    | with_reducible first
      | assumption | exact hM.of (by decide)
    | with_reducible first
      | apply bump_same | apply putLive_same | apply selSetQueue_same | apply same_ite

theorem selFrame_same {M : Nat} {s0 : State} {k : Nat} {sd : Nat} {f : List Nat} {s : State} (hM : Sub 0x80000003 M) (hs : Same M s0 s) :
    Same M s0 (selFrame k sd f s) := by
  unfold selFrame
  try dsimp only
  repeat' first
    | intro _
    | with_reducible first
      | assumption | exact hM.of (by decide)
    | with_reducible first
      | apply bump_same | apply selFail_same | apply selAccept_same | apply same_ite

theorem selReceive_same {M : Nat} {s0 : State} {kind : Nat} {k : Nat} {sd : Side} {heard : List Heard} {s : State} (hM : Sub 0x282bff687 M) (hs : Same M s0 s) :
    Same M s0 (selReceive kind k sd heard s) := by
  unfold selReceive
  try dsimp only
  repeat' first
    | intro _
    | with_reducible first
      | assumption | exact hM.of (by decide) | apply sameMk | exact Or.inl (hM.bit (by decide)) | exact Or.inr rfl
    | simp only [same_mk_iff]
    | with_reducible first
      | apply setArrives_same | apply selFrame_same | apply same_ite | exact sameOpt_none | apply sameOpt_ite
    | split
    | with_reducible first
      | (apply same_pair; assumption) | (apply same_opt; assumption) | (apply same_triple; assumption)

theorem execSelReadReq_same {M : Nat} {s0 : State} {k : Nat} {sd : Side} {heard : List Heard} {s : State} (hM : Sub 0x282bff687 M) (hs : Same M s0 s) :
    SameO M s0 (execSelReadReq k sd heard s) := by
  unfold execSelReadReq
  try dsimp only
  repeat' first
    | intro _
    | with_reducible first
      | assumption | exact hM.of (by decide)
    | with_reducible first
      | apply onUnit_same | apply selReceive_same | apply sameO_next | apply sameO_ite | exact sameO_fault

theorem execSelWriteReq_same {M : Nat} {s0 : State} {k : Nat} {sd : Side} {heard : List Heard} {s : State} (hM : Sub 0x282bff687 M) (hs : Same M s0 s) :
    SameO M s0 (execSelWriteReq k sd heard s) := by
  unfold execSelWriteReq
  try dsimp only
  repeat' first
    | intro _
    | with_reducible first
      | assumption | exact hM.of (by decide)
    | with_reducible first
      | apply onUnit_same | apply selReceive_same | apply sameO_next | apply sameO_ite | exact sameO_fault

theorem execSelAttestReq_same {M : Nat} {s0 : State} {k : Nat} {sd : Side} {heard : List Heard} {s : State} (hM : Sub 0x282bff687 M) (hs : Same M s0 s) :
    SameO M s0 (execSelAttestReq k sd heard s) := by
  unfold execSelAttestReq
  try dsimp only
  repeat' first
    | intro _
    | with_reducible first
      | assumption | exact hM.of (by decide)
    | with_reducible first
      | apply onUnit_same | apply selReceive_same | apply sameO_next | apply sameO_ite | exact sameO_fault

theorem selRespond_same {M : Nat} {s0 : State} {q : SelReq} {status : Nat} {payload : List Nat} {s : State} (hM : Sub 0x80001005 M) (hs : Same M s0 s) :
    Same M s0 (selRespond q status payload s) := by
  unfold selRespond
  try dsimp only
  repeat' first
    | intro _
    | with_reducible first
      | assumption | exact hM.of (by decide) | apply sameMk | exact Or.inl (hM.bit (by decide)) | exact Or.inr rfl
    | simp only [same_mk_iff]
    | with_reducible first
      | apply bump_same | apply putSide_same | apply freeWords_same | apply selSetQueue_same | apply same_ite
      | exact sameOpt_none | apply sameOpt_ite
    | split
    | with_reducible first
      | (apply same_pair; assumption) | (apply same_opt; assumption) | (apply same_triple; assumption)

theorem selProgress_same {M : Nat} {s0 : State} {q : SelReq} {s : State} (hM : Sub 0x80000000 M) (hs : Same M s0 s) :
    Same M s0 (selProgress q s) := by
  unfold selProgress
  try dsimp only
  repeat' first
    | intro _
    | with_reducible first
      | assumption | exact hM.of (by decide) | apply sameMk | exact Or.inl (hM.bit (by decide)) | exact Or.inr rfl
    | simp only [same_mk_iff]

theorem selServeWords_same {M : Nat} {s0 : State} {write : Bool} {x0 : Nat} {x1 : SelReq} {x2 : State} (hM : Sub 0xffffff7e7 M) (hx2 : Same M s0 x2) :
    Same M s0 (selServeWords write x0 x1 x2) := by
  induction x0 generalizing x1 x2 with
  | zero =>
    unfold selServeWords
    try dsimp only
    repeat' first
      | intro _
      | with_reducible first
        | assumption | exact hM.of (by decide) | apply sameMk | exact Or.inl (hM.bit (by decide)) | exact Or.inr rfl
      | simp only [same_mk_iff]
      | with_reducible first
        | apply hostRead_same | apply hostWrite_same | apply selRespond_same | apply selProgress_same
        | apply same_ite
      | split
  | succ n ih =>
    unfold selServeWords
    try dsimp only
    repeat' first
      | intro _
      | with_reducible first
        | assumption | apply ih | exact hM.of (by decide) | apply sameMk | exact Or.inl (hM.bit (by decide)) | exact Or.inr rfl
      | simp only [same_mk_iff]
      | with_reducible first
        | apply hostRead_same | apply hostWrite_same | apply selRespond_same | apply selProgress_same
        | apply same_ite
      | split

theorem selServeAttest_same {M : Nat} {s0 : State} {q : SelReq} {s : State} (hM : Sub 0x180001005 M) (hs : Same M s0 s) :
    Same M s0 (selServeAttest q s) := by
  unfold selServeAttest
  try dsimp only
  repeat' first
    | intro _
    | with_reducible first
      | assumption | exact hM.of (by decide)
    | with_reducible first
      | apply startReport_same | apply freeWords_same | apply selRespond_same | apply same_ite

theorem execSelRequestServe_same {M : Nat} {s0 : State} {s : State} (hM : Sub 0xffffff7e7 M) (hs : Same M s0 s) :
    SameO M s0 (execSelRequestServe s) := by
  unfold execSelRequestServe
  try dsimp only
  repeat' first
    | intro _
    | with_reducible first
      | assumption | exact hM.of (by decide) | apply sameMk | exact Or.inl (hM.bit (by decide)) | exact Or.inr rfl
    | simp only [same_mk_iff]
    | with_reducible first
      | apply freshOut_same | apply selServeWords_same | apply selServeAttest_same | apply sameO_next
      | apply sameO_ite | exact sameO_fault | apply same_ite
    | split
    | with_reducible first
      | (apply same_pair; assumption) | (apply same_opt; assumption) | (apply same_triple; assumption)

end Sys2Proof.Machine
end

