-- ==== Sys2Proof/Laws/Sets.lean ====
section
/-!
SUPPORT. What the receipt of a set comes to once a side takes it (`trnTaken`, `drnTaken`).
-/

namespace Sys2Proof.Machine

open Sys2Proof

/-- A TRN set that a span takes acts as its kind says, after its fields, and before what follows every set and the
copies on the spare ends. -/
theorem trnReceive_taken {k : Nat} {sd : Side} {heard : List (Heard)} {kind : Nat} {act : TrnSet → State → State}
    {s s2 : State} {t : TrnSet} (h : trnTaken k sd heard kind s = some (t, s2)) (hk : 1 ≤ kind ∧ kind ≤ 10) :
    trnReceive k sd heard kind act s = spareCopies k sd (heard.drop (sideWidth s k sd)) (trnAfter k sd (act t s2)) := by
  unfold trnTaken at h
  unfold trnReceive
  split at h
  · cases h
  rename_i h1
  rw [if_neg h1]
  split at h
  · cases h
  rename_i t' u heq
  try rw [heq]
  try dsimp only
  split at h
  · rename_i h2
    cases h
    simp at h2
    rw [if_neg, if_neg]
    · simp [h2]
    · simp [h2]; omega
  · cases h

/-- A DRN set that a trunk side takes acts as its kind says. -/
theorem drnReceive_taken {k : Nat} {sd : Side} {heard : List (Heard)} {kind : Nat}
    {act : Nat → DrnSet → State → State} {s s2 : State} {t : Nat} {d : DrnSet}
    (h : drnTaken k sd heard kind s = some (t, d, s2)) : drnReceive k sd heard kind act s = act t d s2 := by
  unfold drnTaken at h
  unfold drnReceive
  split at h
  · cases h
  rename_i h1
  simp [sideLive] at h1
  rw [if_neg (by simp [h1])]
  split at h
  · cases h
  rename_i d' u heq
  try rw [heq]
  try dsimp only
  split at h
  · rename_i h2
    cases h
    simp at h2
    rw [if_neg (by simp [h2]), if_neg (by simp [h2]), if_pos (by simp [h2])]
  · cases h

end Sys2Proof.Machine
end

