-- ==== Sys2Proof/Laws/State.lean ====
section
/-!
SUPPORT. What a primitive update leaves alone: for each update, one lemma per field of the state it does not touch, and what
reading a register field or a live counter gives after it.
-/

namespace Sys2Proof.Machine

/-! ## Register fields and live counters -/

theorem rd_wr_ne {s : State} {f g : Fld} {v : Nat} (h : g.key ≠ f.key) : (s.wr f v).rd g = s.rd g :=
  Tbl.get_put_ne _ h _

theorem on_wr_ne {s : State} {f g : Fld} {v : Nat} (h : g.key ≠ f.key) : (s.wr f v).on g = s.on g := by
  simp only [State.on, rd_wr_ne h]

/-- A register field reads as what was last written, cut to its width. -/
theorem rd_wr_same {s : State} {f : Fld} {v : Nat} (h : Tbl.wf resetOf s.regs = true) : (s.wr f v).rd f = v % 2 ^ f.width :=
  Tbl.get_put_same (dflt := resetOf) f.key _ h

theorem on_wr_same {s : State} {f : Fld} {v : Nat} (h : Tbl.wf resetOf s.regs = true) :
    (s.wr f v).on f = decide (v % 2 ^ f.width ≠ 0) := by
  simp only [State.on, rd_wr_same h]

theorem rd_wrB_ne {s : State} {f g : Fld} {b : Bool} (h : g.key ≠ f.key) : (s.wrB f b).rd g = s.rd g := rd_wr_ne h

theorem on_wrB_ne {s : State} {f g : Fld} {b : Bool} (h : g.key ≠ f.key) : (s.wrB f b).on g = s.on g := on_wr_ne h

theorem wr_regs_wf {s : State} {f : Fld} {v : Nat} (h : Tbl.wf resetOf s.regs = true) :
    Tbl.wf resetOf (s.wr f v).regs = true := Tbl.wf_put _ _ h

theorem live_putLive_ne {s : State} {f g : Fld} {v : Nat} (h : g.key ≠ f.key) : (s.putLive f v).live g = s.live g :=
  Tbl.get_put_ne _ h _

theorem live_putLive_same {s : State} {f : Fld} {v : Nat} (h : Tbl.wf (fun _ => 0) s.cnt = true) :
    (s.putLive f v).live f = v :=
  Tbl.get_put_same (dflt := fun _ => 0) f.key _ h

theorem tablesCanonical_regs {s : State} (h : tablesCanonical s = true) : Tbl.wf resetOf s.regs = true := by
  simp only [tablesCanonical, Bool.and_eq_true] at h
  simp only [h]

theorem tablesCanonical_cnt {s : State} (h : tablesCanonical s = true) : Tbl.wf (fun _ => 0) s.cnt = true := by
  simp only [tablesCanonical, Bool.and_eq_true] at h
  simp only [h]

/-! ## Fields an update does not touch -/

@[simp] theorem wr_cnt (s : State) (f : Fld) (v : Nat) : (s.wr f v).cnt = s.cnt := rfl
@[simp] theorem wr_pending (s : State) (f : Fld) (v : Nat) : (s.wr f v).pending = s.pending := rfl
@[simp] theorem wr_freeCtr (s : State) (f : Fld) (v : Nat) : (s.wr f v).freeCtr = s.freeCtr := rfl
@[simp] theorem wr_fab (s : State) (f : Fld) (v : Nat) : (s.wr f v).fab = s.fab := rfl
@[simp] theorem wr_clock (s : State) (f : Fld) (v : Nat) : (s.wr f v).clock = s.clock := rfl
@[simp] theorem wr_fuse (s : State) (f : Fld) (v : Nat) : (s.wr f v).fuse = s.fuse := rfl
@[simp] theorem wr_dev (s : State) (f : Fld) (v : Nat) : (s.wr f v).dev = s.dev := rfl
@[simp] theorem wr_slots (s : State) (f : Fld) (v : Nat) : (s.wr f v).slots = s.slots := rfl
@[simp] theorem wr_dies (s : State) (f : Fld) (v : Nat) : (s.wr f v).dies = s.dies := rfl
@[simp] theorem wr_flows (s : State) (f : Fld) (v : Nat) : (s.wr f v).flows = s.flows := rfl
@[simp] theorem wr_trunks (s : State) (f : Fld) (v : Nat) : (s.wr f v).trunks = s.trunks := rfl
@[simp] theorem wr_lls (s : State) (f : Fld) (v : Nat) : (s.wr f v).lls = s.lls := rfl
@[simp] theorem wr_sides (s : State) (f : Fld) (v : Nat) : (s.wr f v).sides = s.sides := rfl
@[simp] theorem wr_spans (s : State) (f : Fld) (v : Nat) : (s.wr f v).spans = s.spans := rfl
@[simp] theorem wr_links (s : State) (f : Fld) (v : Nat) : (s.wr f v).links = s.links := rfl
@[simp] theorem wr_rx (s : State) (f : Fld) (v : Nat) : (s.wr f v).rx = s.rx := rfl
@[simp] theorem wr_tx (s : State) (f : Fld) (v : Nat) : (s.wr f v).tx = s.tx := rfl
@[simp] theorem wr_cks (s : State) (f : Fld) (v : Nat) : (s.wr f v).cks = s.cks := rfl
@[simp] theorem wr_ckEnds (s : State) (f : Fld) (v : Nat) : (s.wr f v).ckEnds = s.ckEnds := rfl
@[simp] theorem wr_coef (s : State) (f : Fld) (v : Nat) : (s.wr f v).coef = s.coef := rfl
@[simp] theorem wr_adapt (s : State) (f : Fld) (v : Nat) : (s.wr f v).adapt = s.adapt := rfl
@[simp] theorem wr_cal (s : State) (f : Fld) (v : Nat) : (s.wr f v).cal = s.cal := rfl
@[simp] theorem wr_maps (s : State) (f : Fld) (v : Nat) : (s.wr f v).maps = s.maps := rfl
@[simp] theorem wr_bobs (s : State) (f : Fld) (v : Nat) : (s.wr f v).bobs = s.bobs := rfl
@[simp] theorem wr_prk (s : State) (f : Fld) (v : Nat) : (s.wr f v).prk = s.prk := rfl
@[simp] theorem wr_bt (s : State) (f : Fld) (v : Nat) : (s.wr f v).bt = s.bt := rfl
@[simp] theorem wr_plv (s : State) (f : Fld) (v : Nat) : (s.wr f v).plv = s.plv := rfl
@[simp] theorem wr_clk (s : State) (f : Fld) (v : Nat) : (s.wr f v).clk = s.clk := rfl
@[simp] theorem wr_ring (s : State) (f : Fld) (v : Nat) : (s.wr f v).ring = s.ring := rfl
@[simp] theorem wr_entries (s : State) (f : Fld) (v : Nat) : (s.wr f v).entries = s.entries := rfl
@[simp] theorem wr_host (s : State) (f : Fld) (v : Nat) : (s.wr f v).host = s.host := rfl
@[simp] theorem wr_sel (s : State) (f : Fld) (v : Nat) : (s.wr f v).sel = s.sel := rfl
@[simp] theorem wr_sec (s : State) (f : Fld) (v : Nat) : (s.wr f v).sec = s.sec := rfl
@[simp] theorem wr_bist (s : State) (f : Fld) (v : Nat) : (s.wr f v).bist = s.bist := rfl
@[simp] theorem wr_prbs (s : State) (f : Fld) (v : Nat) : (s.wr f v).prbs = s.prbs := rfl
@[simp] theorem wr_sup (s : State) (f : Fld) (v : Nat) : (s.wr f v).sup = s.sup := rfl
@[simp] theorem wr_live (s : State) (f : Fld) (v : Nat) (g : Fld) : (s.wr f v).live g = s.live g := rfl

@[simp] theorem wrB_cnt (s : State) (f : Fld) (b : Bool) : (s.wrB f b).cnt = s.cnt := rfl
@[simp] theorem wrB_pending (s : State) (f : Fld) (b : Bool) : (s.wrB f b).pending = s.pending := rfl
@[simp] theorem wrB_freeCtr (s : State) (f : Fld) (b : Bool) : (s.wrB f b).freeCtr = s.freeCtr := rfl
@[simp] theorem wrB_fab (s : State) (f : Fld) (b : Bool) : (s.wrB f b).fab = s.fab := rfl
@[simp] theorem wrB_clock (s : State) (f : Fld) (b : Bool) : (s.wrB f b).clock = s.clock := rfl
@[simp] theorem wrB_fuse (s : State) (f : Fld) (b : Bool) : (s.wrB f b).fuse = s.fuse := rfl
@[simp] theorem wrB_dev (s : State) (f : Fld) (b : Bool) : (s.wrB f b).dev = s.dev := rfl
@[simp] theorem wrB_slots (s : State) (f : Fld) (b : Bool) : (s.wrB f b).slots = s.slots := rfl
@[simp] theorem wrB_dies (s : State) (f : Fld) (b : Bool) : (s.wrB f b).dies = s.dies := rfl
@[simp] theorem wrB_flows (s : State) (f : Fld) (b : Bool) : (s.wrB f b).flows = s.flows := rfl
@[simp] theorem wrB_trunks (s : State) (f : Fld) (b : Bool) : (s.wrB f b).trunks = s.trunks := rfl
@[simp] theorem wrB_lls (s : State) (f : Fld) (b : Bool) : (s.wrB f b).lls = s.lls := rfl
@[simp] theorem wrB_sides (s : State) (f : Fld) (b : Bool) : (s.wrB f b).sides = s.sides := rfl
@[simp] theorem wrB_spans (s : State) (f : Fld) (b : Bool) : (s.wrB f b).spans = s.spans := rfl
@[simp] theorem wrB_links (s : State) (f : Fld) (b : Bool) : (s.wrB f b).links = s.links := rfl
@[simp] theorem wrB_rx (s : State) (f : Fld) (b : Bool) : (s.wrB f b).rx = s.rx := rfl
@[simp] theorem wrB_tx (s : State) (f : Fld) (b : Bool) : (s.wrB f b).tx = s.tx := rfl
@[simp] theorem wrB_cks (s : State) (f : Fld) (b : Bool) : (s.wrB f b).cks = s.cks := rfl
@[simp] theorem wrB_ckEnds (s : State) (f : Fld) (b : Bool) : (s.wrB f b).ckEnds = s.ckEnds := rfl
@[simp] theorem wrB_coef (s : State) (f : Fld) (b : Bool) : (s.wrB f b).coef = s.coef := rfl
@[simp] theorem wrB_adapt (s : State) (f : Fld) (b : Bool) : (s.wrB f b).adapt = s.adapt := rfl
@[simp] theorem wrB_cal (s : State) (f : Fld) (b : Bool) : (s.wrB f b).cal = s.cal := rfl
@[simp] theorem wrB_maps (s : State) (f : Fld) (b : Bool) : (s.wrB f b).maps = s.maps := rfl
@[simp] theorem wrB_bobs (s : State) (f : Fld) (b : Bool) : (s.wrB f b).bobs = s.bobs := rfl
@[simp] theorem wrB_prk (s : State) (f : Fld) (b : Bool) : (s.wrB f b).prk = s.prk := rfl
@[simp] theorem wrB_bt (s : State) (f : Fld) (b : Bool) : (s.wrB f b).bt = s.bt := rfl
@[simp] theorem wrB_plv (s : State) (f : Fld) (b : Bool) : (s.wrB f b).plv = s.plv := rfl
@[simp] theorem wrB_clk (s : State) (f : Fld) (b : Bool) : (s.wrB f b).clk = s.clk := rfl
@[simp] theorem wrB_ring (s : State) (f : Fld) (b : Bool) : (s.wrB f b).ring = s.ring := rfl
@[simp] theorem wrB_entries (s : State) (f : Fld) (b : Bool) : (s.wrB f b).entries = s.entries := rfl
@[simp] theorem wrB_host (s : State) (f : Fld) (b : Bool) : (s.wrB f b).host = s.host := rfl
@[simp] theorem wrB_sel (s : State) (f : Fld) (b : Bool) : (s.wrB f b).sel = s.sel := rfl
@[simp] theorem wrB_sec (s : State) (f : Fld) (b : Bool) : (s.wrB f b).sec = s.sec := rfl
@[simp] theorem wrB_bist (s : State) (f : Fld) (b : Bool) : (s.wrB f b).bist = s.bist := rfl
@[simp] theorem wrB_prbs (s : State) (f : Fld) (b : Bool) : (s.wrB f b).prbs = s.prbs := rfl
@[simp] theorem wrB_sup (s : State) (f : Fld) (b : Bool) : (s.wrB f b).sup = s.sup := rfl
@[simp] theorem wrB_live (s : State) (f : Fld) (b : Bool) (g : Fld) : (s.wrB f b).live g = s.live g := rfl

@[simp] theorem unset_cnt (s : State) (f : Fld) : (s.unset f).cnt = s.cnt := rfl
@[simp] theorem unset_pending (s : State) (f : Fld) : (s.unset f).pending = s.pending := rfl
@[simp] theorem unset_freeCtr (s : State) (f : Fld) : (s.unset f).freeCtr = s.freeCtr := rfl
@[simp] theorem unset_fab (s : State) (f : Fld) : (s.unset f).fab = s.fab := rfl
@[simp] theorem unset_clock (s : State) (f : Fld) : (s.unset f).clock = s.clock := rfl
@[simp] theorem unset_fuse (s : State) (f : Fld) : (s.unset f).fuse = s.fuse := rfl
@[simp] theorem unset_dev (s : State) (f : Fld) : (s.unset f).dev = s.dev := rfl
@[simp] theorem unset_slots (s : State) (f : Fld) : (s.unset f).slots = s.slots := rfl
@[simp] theorem unset_dies (s : State) (f : Fld) : (s.unset f).dies = s.dies := rfl
@[simp] theorem unset_flows (s : State) (f : Fld) : (s.unset f).flows = s.flows := rfl
@[simp] theorem unset_trunks (s : State) (f : Fld) : (s.unset f).trunks = s.trunks := rfl
@[simp] theorem unset_lls (s : State) (f : Fld) : (s.unset f).lls = s.lls := rfl
@[simp] theorem unset_sides (s : State) (f : Fld) : (s.unset f).sides = s.sides := rfl
@[simp] theorem unset_spans (s : State) (f : Fld) : (s.unset f).spans = s.spans := rfl
@[simp] theorem unset_links (s : State) (f : Fld) : (s.unset f).links = s.links := rfl
@[simp] theorem unset_rx (s : State) (f : Fld) : (s.unset f).rx = s.rx := rfl
@[simp] theorem unset_tx (s : State) (f : Fld) : (s.unset f).tx = s.tx := rfl
@[simp] theorem unset_cks (s : State) (f : Fld) : (s.unset f).cks = s.cks := rfl
@[simp] theorem unset_ckEnds (s : State) (f : Fld) : (s.unset f).ckEnds = s.ckEnds := rfl
@[simp] theorem unset_coef (s : State) (f : Fld) : (s.unset f).coef = s.coef := rfl
@[simp] theorem unset_adapt (s : State) (f : Fld) : (s.unset f).adapt = s.adapt := rfl
@[simp] theorem unset_cal (s : State) (f : Fld) : (s.unset f).cal = s.cal := rfl
@[simp] theorem unset_maps (s : State) (f : Fld) : (s.unset f).maps = s.maps := rfl
@[simp] theorem unset_bobs (s : State) (f : Fld) : (s.unset f).bobs = s.bobs := rfl
@[simp] theorem unset_prk (s : State) (f : Fld) : (s.unset f).prk = s.prk := rfl
@[simp] theorem unset_bt (s : State) (f : Fld) : (s.unset f).bt = s.bt := rfl
@[simp] theorem unset_plv (s : State) (f : Fld) : (s.unset f).plv = s.plv := rfl
@[simp] theorem unset_clk (s : State) (f : Fld) : (s.unset f).clk = s.clk := rfl
@[simp] theorem unset_ring (s : State) (f : Fld) : (s.unset f).ring = s.ring := rfl
@[simp] theorem unset_entries (s : State) (f : Fld) : (s.unset f).entries = s.entries := rfl
@[simp] theorem unset_host (s : State) (f : Fld) : (s.unset f).host = s.host := rfl
@[simp] theorem unset_sel (s : State) (f : Fld) : (s.unset f).sel = s.sel := rfl
@[simp] theorem unset_sec (s : State) (f : Fld) : (s.unset f).sec = s.sec := rfl
@[simp] theorem unset_bist (s : State) (f : Fld) : (s.unset f).bist = s.bist := rfl
@[simp] theorem unset_prbs (s : State) (f : Fld) : (s.unset f).prbs = s.prbs := rfl
@[simp] theorem unset_sup (s : State) (f : Fld) : (s.unset f).sup = s.sup := rfl
@[simp] theorem unset_live (s : State) (f : Fld) (g : Fld) : (s.unset f).live g = s.live g := rfl

@[simp] theorem latch_cnt (s : State) (f : Fld) : (s.latch f).cnt = s.cnt := rfl
@[simp] theorem latch_pending (s : State) (f : Fld) : (s.latch f).pending = s.pending := rfl
@[simp] theorem latch_freeCtr (s : State) (f : Fld) : (s.latch f).freeCtr = s.freeCtr := rfl
@[simp] theorem latch_fab (s : State) (f : Fld) : (s.latch f).fab = s.fab := rfl
@[simp] theorem latch_clock (s : State) (f : Fld) : (s.latch f).clock = s.clock := rfl
@[simp] theorem latch_fuse (s : State) (f : Fld) : (s.latch f).fuse = s.fuse := rfl
@[simp] theorem latch_dev (s : State) (f : Fld) : (s.latch f).dev = s.dev := rfl
@[simp] theorem latch_slots (s : State) (f : Fld) : (s.latch f).slots = s.slots := rfl
@[simp] theorem latch_dies (s : State) (f : Fld) : (s.latch f).dies = s.dies := rfl
@[simp] theorem latch_flows (s : State) (f : Fld) : (s.latch f).flows = s.flows := rfl
@[simp] theorem latch_trunks (s : State) (f : Fld) : (s.latch f).trunks = s.trunks := rfl
@[simp] theorem latch_lls (s : State) (f : Fld) : (s.latch f).lls = s.lls := rfl
@[simp] theorem latch_sides (s : State) (f : Fld) : (s.latch f).sides = s.sides := rfl
@[simp] theorem latch_spans (s : State) (f : Fld) : (s.latch f).spans = s.spans := rfl
@[simp] theorem latch_links (s : State) (f : Fld) : (s.latch f).links = s.links := rfl
@[simp] theorem latch_rx (s : State) (f : Fld) : (s.latch f).rx = s.rx := rfl
@[simp] theorem latch_tx (s : State) (f : Fld) : (s.latch f).tx = s.tx := rfl
@[simp] theorem latch_cks (s : State) (f : Fld) : (s.latch f).cks = s.cks := rfl
@[simp] theorem latch_ckEnds (s : State) (f : Fld) : (s.latch f).ckEnds = s.ckEnds := rfl
@[simp] theorem latch_coef (s : State) (f : Fld) : (s.latch f).coef = s.coef := rfl
@[simp] theorem latch_adapt (s : State) (f : Fld) : (s.latch f).adapt = s.adapt := rfl
@[simp] theorem latch_cal (s : State) (f : Fld) : (s.latch f).cal = s.cal := rfl
@[simp] theorem latch_maps (s : State) (f : Fld) : (s.latch f).maps = s.maps := rfl
@[simp] theorem latch_bobs (s : State) (f : Fld) : (s.latch f).bobs = s.bobs := rfl
@[simp] theorem latch_prk (s : State) (f : Fld) : (s.latch f).prk = s.prk := rfl
@[simp] theorem latch_bt (s : State) (f : Fld) : (s.latch f).bt = s.bt := rfl
@[simp] theorem latch_plv (s : State) (f : Fld) : (s.latch f).plv = s.plv := rfl
@[simp] theorem latch_clk (s : State) (f : Fld) : (s.latch f).clk = s.clk := rfl
@[simp] theorem latch_ring (s : State) (f : Fld) : (s.latch f).ring = s.ring := rfl
@[simp] theorem latch_entries (s : State) (f : Fld) : (s.latch f).entries = s.entries := rfl
@[simp] theorem latch_host (s : State) (f : Fld) : (s.latch f).host = s.host := rfl
@[simp] theorem latch_sel (s : State) (f : Fld) : (s.latch f).sel = s.sel := rfl
@[simp] theorem latch_sec (s : State) (f : Fld) : (s.latch f).sec = s.sec := rfl
@[simp] theorem latch_bist (s : State) (f : Fld) : (s.latch f).bist = s.bist := rfl
@[simp] theorem latch_prbs (s : State) (f : Fld) : (s.latch f).prbs = s.prbs := rfl
@[simp] theorem latch_sup (s : State) (f : Fld) : (s.latch f).sup = s.sup := rfl
@[simp] theorem latch_live (s : State) (f : Fld) (g : Fld) : (s.latch f).live g = s.live g := rfl

@[simp] theorem putLive_regs (s : State) (f : Fld) (v : Nat) : (s.putLive f v).regs = s.regs := rfl
@[simp] theorem putLive_pending (s : State) (f : Fld) (v : Nat) : (s.putLive f v).pending = s.pending := rfl
@[simp] theorem putLive_freeCtr (s : State) (f : Fld) (v : Nat) : (s.putLive f v).freeCtr = s.freeCtr := rfl
@[simp] theorem putLive_fab (s : State) (f : Fld) (v : Nat) : (s.putLive f v).fab = s.fab := rfl
@[simp] theorem putLive_clock (s : State) (f : Fld) (v : Nat) : (s.putLive f v).clock = s.clock := rfl
@[simp] theorem putLive_fuse (s : State) (f : Fld) (v : Nat) : (s.putLive f v).fuse = s.fuse := rfl
@[simp] theorem putLive_dev (s : State) (f : Fld) (v : Nat) : (s.putLive f v).dev = s.dev := rfl
@[simp] theorem putLive_slots (s : State) (f : Fld) (v : Nat) : (s.putLive f v).slots = s.slots := rfl
@[simp] theorem putLive_dies (s : State) (f : Fld) (v : Nat) : (s.putLive f v).dies = s.dies := rfl
@[simp] theorem putLive_flows (s : State) (f : Fld) (v : Nat) : (s.putLive f v).flows = s.flows := rfl
@[simp] theorem putLive_trunks (s : State) (f : Fld) (v : Nat) : (s.putLive f v).trunks = s.trunks := rfl
@[simp] theorem putLive_lls (s : State) (f : Fld) (v : Nat) : (s.putLive f v).lls = s.lls := rfl
@[simp] theorem putLive_sides (s : State) (f : Fld) (v : Nat) : (s.putLive f v).sides = s.sides := rfl
@[simp] theorem putLive_spans (s : State) (f : Fld) (v : Nat) : (s.putLive f v).spans = s.spans := rfl
@[simp] theorem putLive_links (s : State) (f : Fld) (v : Nat) : (s.putLive f v).links = s.links := rfl
@[simp] theorem putLive_rx (s : State) (f : Fld) (v : Nat) : (s.putLive f v).rx = s.rx := rfl
@[simp] theorem putLive_tx (s : State) (f : Fld) (v : Nat) : (s.putLive f v).tx = s.tx := rfl
@[simp] theorem putLive_cks (s : State) (f : Fld) (v : Nat) : (s.putLive f v).cks = s.cks := rfl
@[simp] theorem putLive_ckEnds (s : State) (f : Fld) (v : Nat) : (s.putLive f v).ckEnds = s.ckEnds := rfl
@[simp] theorem putLive_coef (s : State) (f : Fld) (v : Nat) : (s.putLive f v).coef = s.coef := rfl
@[simp] theorem putLive_adapt (s : State) (f : Fld) (v : Nat) : (s.putLive f v).adapt = s.adapt := rfl
@[simp] theorem putLive_cal (s : State) (f : Fld) (v : Nat) : (s.putLive f v).cal = s.cal := rfl
@[simp] theorem putLive_maps (s : State) (f : Fld) (v : Nat) : (s.putLive f v).maps = s.maps := rfl
@[simp] theorem putLive_bobs (s : State) (f : Fld) (v : Nat) : (s.putLive f v).bobs = s.bobs := rfl
@[simp] theorem putLive_prk (s : State) (f : Fld) (v : Nat) : (s.putLive f v).prk = s.prk := rfl
@[simp] theorem putLive_bt (s : State) (f : Fld) (v : Nat) : (s.putLive f v).bt = s.bt := rfl
@[simp] theorem putLive_plv (s : State) (f : Fld) (v : Nat) : (s.putLive f v).plv = s.plv := rfl
@[simp] theorem putLive_clk (s : State) (f : Fld) (v : Nat) : (s.putLive f v).clk = s.clk := rfl
@[simp] theorem putLive_ring (s : State) (f : Fld) (v : Nat) : (s.putLive f v).ring = s.ring := rfl
@[simp] theorem putLive_entries (s : State) (f : Fld) (v : Nat) : (s.putLive f v).entries = s.entries := rfl
@[simp] theorem putLive_host (s : State) (f : Fld) (v : Nat) : (s.putLive f v).host = s.host := rfl
@[simp] theorem putLive_sel (s : State) (f : Fld) (v : Nat) : (s.putLive f v).sel = s.sel := rfl
@[simp] theorem putLive_sec (s : State) (f : Fld) (v : Nat) : (s.putLive f v).sec = s.sec := rfl
@[simp] theorem putLive_bist (s : State) (f : Fld) (v : Nat) : (s.putLive f v).bist = s.bist := rfl
@[simp] theorem putLive_prbs (s : State) (f : Fld) (v : Nat) : (s.putLive f v).prbs = s.prbs := rfl
@[simp] theorem putLive_sup (s : State) (f : Fld) (v : Nat) : (s.putLive f v).sup = s.sup := rfl
@[simp] theorem putLive_rd (s : State) (f : Fld) (v : Nat) (g : Fld) : (s.putLive f v).rd g = s.rd g := rfl
@[simp] theorem putLive_on (s : State) (f : Fld) (v : Nat) (g : Fld) : (s.putLive f v).on g = s.on g := rfl

@[simp] theorem putSlot_regs (s : State) (r : Nat) (v : Slot) : (s.putSlot r v).regs = s.regs := rfl
@[simp] theorem putSlot_cnt (s : State) (r : Nat) (v : Slot) : (s.putSlot r v).cnt = s.cnt := rfl
@[simp] theorem putSlot_pending (s : State) (r : Nat) (v : Slot) : (s.putSlot r v).pending = s.pending := rfl
@[simp] theorem putSlot_freeCtr (s : State) (r : Nat) (v : Slot) : (s.putSlot r v).freeCtr = s.freeCtr := rfl
@[simp] theorem putSlot_fab (s : State) (r : Nat) (v : Slot) : (s.putSlot r v).fab = s.fab := rfl
@[simp] theorem putSlot_clock (s : State) (r : Nat) (v : Slot) : (s.putSlot r v).clock = s.clock := rfl
@[simp] theorem putSlot_fuse (s : State) (r : Nat) (v : Slot) : (s.putSlot r v).fuse = s.fuse := rfl
@[simp] theorem putSlot_dev (s : State) (r : Nat) (v : Slot) : (s.putSlot r v).dev = s.dev := rfl
@[simp] theorem putSlot_dies (s : State) (r : Nat) (v : Slot) : (s.putSlot r v).dies = s.dies := rfl
@[simp] theorem putSlot_flows (s : State) (r : Nat) (v : Slot) : (s.putSlot r v).flows = s.flows := rfl
@[simp] theorem putSlot_trunks (s : State) (r : Nat) (v : Slot) : (s.putSlot r v).trunks = s.trunks := rfl
@[simp] theorem putSlot_lls (s : State) (r : Nat) (v : Slot) : (s.putSlot r v).lls = s.lls := rfl
@[simp] theorem putSlot_sides (s : State) (r : Nat) (v : Slot) : (s.putSlot r v).sides = s.sides := rfl
@[simp] theorem putSlot_spans (s : State) (r : Nat) (v : Slot) : (s.putSlot r v).spans = s.spans := rfl
@[simp] theorem putSlot_links (s : State) (r : Nat) (v : Slot) : (s.putSlot r v).links = s.links := rfl
@[simp] theorem putSlot_rx (s : State) (r : Nat) (v : Slot) : (s.putSlot r v).rx = s.rx := rfl
@[simp] theorem putSlot_tx (s : State) (r : Nat) (v : Slot) : (s.putSlot r v).tx = s.tx := rfl
@[simp] theorem putSlot_cks (s : State) (r : Nat) (v : Slot) : (s.putSlot r v).cks = s.cks := rfl
@[simp] theorem putSlot_ckEnds (s : State) (r : Nat) (v : Slot) : (s.putSlot r v).ckEnds = s.ckEnds := rfl
@[simp] theorem putSlot_coef (s : State) (r : Nat) (v : Slot) : (s.putSlot r v).coef = s.coef := rfl
@[simp] theorem putSlot_adapt (s : State) (r : Nat) (v : Slot) : (s.putSlot r v).adapt = s.adapt := rfl
@[simp] theorem putSlot_cal (s : State) (r : Nat) (v : Slot) : (s.putSlot r v).cal = s.cal := rfl
@[simp] theorem putSlot_maps (s : State) (r : Nat) (v : Slot) : (s.putSlot r v).maps = s.maps := rfl
@[simp] theorem putSlot_bobs (s : State) (r : Nat) (v : Slot) : (s.putSlot r v).bobs = s.bobs := rfl
@[simp] theorem putSlot_prk (s : State) (r : Nat) (v : Slot) : (s.putSlot r v).prk = s.prk := rfl
@[simp] theorem putSlot_bt (s : State) (r : Nat) (v : Slot) : (s.putSlot r v).bt = s.bt := rfl
@[simp] theorem putSlot_plv (s : State) (r : Nat) (v : Slot) : (s.putSlot r v).plv = s.plv := rfl
@[simp] theorem putSlot_clk (s : State) (r : Nat) (v : Slot) : (s.putSlot r v).clk = s.clk := rfl
@[simp] theorem putSlot_ring (s : State) (r : Nat) (v : Slot) : (s.putSlot r v).ring = s.ring := rfl
@[simp] theorem putSlot_entries (s : State) (r : Nat) (v : Slot) : (s.putSlot r v).entries = s.entries := rfl
@[simp] theorem putSlot_host (s : State) (r : Nat) (v : Slot) : (s.putSlot r v).host = s.host := rfl
@[simp] theorem putSlot_sel (s : State) (r : Nat) (v : Slot) : (s.putSlot r v).sel = s.sel := rfl
@[simp] theorem putSlot_sec (s : State) (r : Nat) (v : Slot) : (s.putSlot r v).sec = s.sec := rfl
@[simp] theorem putSlot_bist (s : State) (r : Nat) (v : Slot) : (s.putSlot r v).bist = s.bist := rfl
@[simp] theorem putSlot_prbs (s : State) (r : Nat) (v : Slot) : (s.putSlot r v).prbs = s.prbs := rfl
@[simp] theorem putSlot_sup (s : State) (r : Nat) (v : Slot) : (s.putSlot r v).sup = s.sup := rfl
@[simp] theorem putSlot_rd (s : State) (r : Nat) (v : Slot) (g : Fld) : (s.putSlot r v).rd g = s.rd g := rfl
@[simp] theorem putSlot_on (s : State) (r : Nat) (v : Slot) (g : Fld) : (s.putSlot r v).on g = s.on g := rfl
@[simp] theorem putSlot_live (s : State) (r : Nat) (v : Slot) (g : Fld) : (s.putSlot r v).live g = s.live g := rfl

@[simp] theorem putBuf_regs (s : State) (d : Nat) (v : DieBuf) : (s.putBuf d v).regs = s.regs := rfl
@[simp] theorem putBuf_cnt (s : State) (d : Nat) (v : DieBuf) : (s.putBuf d v).cnt = s.cnt := rfl
@[simp] theorem putBuf_pending (s : State) (d : Nat) (v : DieBuf) : (s.putBuf d v).pending = s.pending := rfl
@[simp] theorem putBuf_freeCtr (s : State) (d : Nat) (v : DieBuf) : (s.putBuf d v).freeCtr = s.freeCtr := rfl
@[simp] theorem putBuf_fab (s : State) (d : Nat) (v : DieBuf) : (s.putBuf d v).fab = s.fab := rfl
@[simp] theorem putBuf_clock (s : State) (d : Nat) (v : DieBuf) : (s.putBuf d v).clock = s.clock := rfl
@[simp] theorem putBuf_fuse (s : State) (d : Nat) (v : DieBuf) : (s.putBuf d v).fuse = s.fuse := rfl
@[simp] theorem putBuf_dev (s : State) (d : Nat) (v : DieBuf) : (s.putBuf d v).dev = s.dev := rfl
@[simp] theorem putBuf_slots (s : State) (d : Nat) (v : DieBuf) : (s.putBuf d v).slots = s.slots := rfl
@[simp] theorem putBuf_flows (s : State) (d : Nat) (v : DieBuf) : (s.putBuf d v).flows = s.flows := rfl
@[simp] theorem putBuf_trunks (s : State) (d : Nat) (v : DieBuf) : (s.putBuf d v).trunks = s.trunks := rfl
@[simp] theorem putBuf_lls (s : State) (d : Nat) (v : DieBuf) : (s.putBuf d v).lls = s.lls := rfl
@[simp] theorem putBuf_sides (s : State) (d : Nat) (v : DieBuf) : (s.putBuf d v).sides = s.sides := rfl
@[simp] theorem putBuf_spans (s : State) (d : Nat) (v : DieBuf) : (s.putBuf d v).spans = s.spans := rfl
@[simp] theorem putBuf_links (s : State) (d : Nat) (v : DieBuf) : (s.putBuf d v).links = s.links := rfl
@[simp] theorem putBuf_rx (s : State) (d : Nat) (v : DieBuf) : (s.putBuf d v).rx = s.rx := rfl
@[simp] theorem putBuf_tx (s : State) (d : Nat) (v : DieBuf) : (s.putBuf d v).tx = s.tx := rfl
@[simp] theorem putBuf_cks (s : State) (d : Nat) (v : DieBuf) : (s.putBuf d v).cks = s.cks := rfl
@[simp] theorem putBuf_ckEnds (s : State) (d : Nat) (v : DieBuf) : (s.putBuf d v).ckEnds = s.ckEnds := rfl
@[simp] theorem putBuf_coef (s : State) (d : Nat) (v : DieBuf) : (s.putBuf d v).coef = s.coef := rfl
@[simp] theorem putBuf_adapt (s : State) (d : Nat) (v : DieBuf) : (s.putBuf d v).adapt = s.adapt := rfl
@[simp] theorem putBuf_cal (s : State) (d : Nat) (v : DieBuf) : (s.putBuf d v).cal = s.cal := rfl
@[simp] theorem putBuf_maps (s : State) (d : Nat) (v : DieBuf) : (s.putBuf d v).maps = s.maps := rfl
@[simp] theorem putBuf_bobs (s : State) (d : Nat) (v : DieBuf) : (s.putBuf d v).bobs = s.bobs := rfl
@[simp] theorem putBuf_prk (s : State) (d : Nat) (v : DieBuf) : (s.putBuf d v).prk = s.prk := rfl
@[simp] theorem putBuf_bt (s : State) (d : Nat) (v : DieBuf) : (s.putBuf d v).bt = s.bt := rfl
@[simp] theorem putBuf_plv (s : State) (d : Nat) (v : DieBuf) : (s.putBuf d v).plv = s.plv := rfl
@[simp] theorem putBuf_clk (s : State) (d : Nat) (v : DieBuf) : (s.putBuf d v).clk = s.clk := rfl
@[simp] theorem putBuf_ring (s : State) (d : Nat) (v : DieBuf) : (s.putBuf d v).ring = s.ring := rfl
@[simp] theorem putBuf_entries (s : State) (d : Nat) (v : DieBuf) : (s.putBuf d v).entries = s.entries := rfl
@[simp] theorem putBuf_host (s : State) (d : Nat) (v : DieBuf) : (s.putBuf d v).host = s.host := rfl
@[simp] theorem putBuf_sel (s : State) (d : Nat) (v : DieBuf) : (s.putBuf d v).sel = s.sel := rfl
@[simp] theorem putBuf_sec (s : State) (d : Nat) (v : DieBuf) : (s.putBuf d v).sec = s.sec := rfl
@[simp] theorem putBuf_bist (s : State) (d : Nat) (v : DieBuf) : (s.putBuf d v).bist = s.bist := rfl
@[simp] theorem putBuf_prbs (s : State) (d : Nat) (v : DieBuf) : (s.putBuf d v).prbs = s.prbs := rfl
@[simp] theorem putBuf_sup (s : State) (d : Nat) (v : DieBuf) : (s.putBuf d v).sup = s.sup := rfl
@[simp] theorem putBuf_rd (s : State) (d : Nat) (v : DieBuf) (g : Fld) : (s.putBuf d v).rd g = s.rd g := rfl
@[simp] theorem putBuf_on (s : State) (d : Nat) (v : DieBuf) (g : Fld) : (s.putBuf d v).on g = s.on g := rfl
@[simp] theorem putBuf_live (s : State) (d : Nat) (v : DieBuf) (g : Fld) : (s.putBuf d v).live g = s.live g := rfl

@[simp] theorem putCal_cnt (s : State) (c : Nat) (v : CalSeq) : (s.putCal c v).cnt = s.cnt := rfl
@[simp] theorem putCal_pending (s : State) (c : Nat) (v : CalSeq) : (s.putCal c v).pending = s.pending := rfl
@[simp] theorem putCal_freeCtr (s : State) (c : Nat) (v : CalSeq) : (s.putCal c v).freeCtr = s.freeCtr := rfl
@[simp] theorem putCal_fab (s : State) (c : Nat) (v : CalSeq) : (s.putCal c v).fab = s.fab := rfl
@[simp] theorem putCal_clock (s : State) (c : Nat) (v : CalSeq) : (s.putCal c v).clock = s.clock := rfl
@[simp] theorem putCal_fuse (s : State) (c : Nat) (v : CalSeq) : (s.putCal c v).fuse = s.fuse := rfl
@[simp] theorem putCal_dev (s : State) (c : Nat) (v : CalSeq) : (s.putCal c v).dev = s.dev := rfl
@[simp] theorem putCal_slots (s : State) (c : Nat) (v : CalSeq) : (s.putCal c v).slots = s.slots := rfl
@[simp] theorem putCal_dies (s : State) (c : Nat) (v : CalSeq) : (s.putCal c v).dies = s.dies := rfl
@[simp] theorem putCal_flows (s : State) (c : Nat) (v : CalSeq) : (s.putCal c v).flows = s.flows := rfl
@[simp] theorem putCal_trunks (s : State) (c : Nat) (v : CalSeq) : (s.putCal c v).trunks = s.trunks := rfl
@[simp] theorem putCal_lls (s : State) (c : Nat) (v : CalSeq) : (s.putCal c v).lls = s.lls := rfl
@[simp] theorem putCal_sides (s : State) (c : Nat) (v : CalSeq) : (s.putCal c v).sides = s.sides := rfl
@[simp] theorem putCal_spans (s : State) (c : Nat) (v : CalSeq) : (s.putCal c v).spans = s.spans := rfl
@[simp] theorem putCal_links (s : State) (c : Nat) (v : CalSeq) : (s.putCal c v).links = s.links := rfl
@[simp] theorem putCal_rx (s : State) (c : Nat) (v : CalSeq) : (s.putCal c v).rx = s.rx := rfl
@[simp] theorem putCal_tx (s : State) (c : Nat) (v : CalSeq) : (s.putCal c v).tx = s.tx := rfl
@[simp] theorem putCal_cks (s : State) (c : Nat) (v : CalSeq) : (s.putCal c v).cks = s.cks := rfl
@[simp] theorem putCal_ckEnds (s : State) (c : Nat) (v : CalSeq) : (s.putCal c v).ckEnds = s.ckEnds := rfl
@[simp] theorem putCal_coef (s : State) (c : Nat) (v : CalSeq) : (s.putCal c v).coef = s.coef := rfl
@[simp] theorem putCal_adapt (s : State) (c : Nat) (v : CalSeq) : (s.putCal c v).adapt = s.adapt := rfl
@[simp] theorem putCal_maps (s : State) (c : Nat) (v : CalSeq) : (s.putCal c v).maps = s.maps := rfl
@[simp] theorem putCal_bobs (s : State) (c : Nat) (v : CalSeq) : (s.putCal c v).bobs = s.bobs := rfl
@[simp] theorem putCal_prk (s : State) (c : Nat) (v : CalSeq) : (s.putCal c v).prk = s.prk := rfl
@[simp] theorem putCal_bt (s : State) (c : Nat) (v : CalSeq) : (s.putCal c v).bt = s.bt := rfl
@[simp] theorem putCal_plv (s : State) (c : Nat) (v : CalSeq) : (s.putCal c v).plv = s.plv := rfl
@[simp] theorem putCal_clk (s : State) (c : Nat) (v : CalSeq) : (s.putCal c v).clk = s.clk := rfl
@[simp] theorem putCal_ring (s : State) (c : Nat) (v : CalSeq) : (s.putCal c v).ring = s.ring := rfl
@[simp] theorem putCal_entries (s : State) (c : Nat) (v : CalSeq) : (s.putCal c v).entries = s.entries := rfl
@[simp] theorem putCal_host (s : State) (c : Nat) (v : CalSeq) : (s.putCal c v).host = s.host := rfl
@[simp] theorem putCal_sel (s : State) (c : Nat) (v : CalSeq) : (s.putCal c v).sel = s.sel := rfl
@[simp] theorem putCal_sec (s : State) (c : Nat) (v : CalSeq) : (s.putCal c v).sec = s.sec := rfl
@[simp] theorem putCal_bist (s : State) (c : Nat) (v : CalSeq) : (s.putCal c v).bist = s.bist := rfl
@[simp] theorem putCal_prbs (s : State) (c : Nat) (v : CalSeq) : (s.putCal c v).prbs = s.prbs := rfl
@[simp] theorem putCal_sup (s : State) (c : Nat) (v : CalSeq) : (s.putCal c v).sup = s.sup := rfl
@[simp] theorem putCal_live (s : State) (c : Nat) (v : CalSeq) (g : Fld) : (s.putCal c v).live g = s.live g := rfl

@[simp] theorem putPl_regs (s : State) (d : Nat) (v : PlSt) : (s.putPl d v).regs = s.regs := rfl
@[simp] theorem putPl_cnt (s : State) (d : Nat) (v : PlSt) : (s.putPl d v).cnt = s.cnt := rfl
@[simp] theorem putPl_pending (s : State) (d : Nat) (v : PlSt) : (s.putPl d v).pending = s.pending := rfl
@[simp] theorem putPl_freeCtr (s : State) (d : Nat) (v : PlSt) : (s.putPl d v).freeCtr = s.freeCtr := rfl
@[simp] theorem putPl_fab (s : State) (d : Nat) (v : PlSt) : (s.putPl d v).fab = s.fab := rfl
@[simp] theorem putPl_clock (s : State) (d : Nat) (v : PlSt) : (s.putPl d v).clock = s.clock := rfl
@[simp] theorem putPl_fuse (s : State) (d : Nat) (v : PlSt) : (s.putPl d v).fuse = s.fuse := rfl
@[simp] theorem putPl_dev (s : State) (d : Nat) (v : PlSt) : (s.putPl d v).dev = s.dev := rfl
@[simp] theorem putPl_slots (s : State) (d : Nat) (v : PlSt) : (s.putPl d v).slots = s.slots := rfl
@[simp] theorem putPl_dies (s : State) (d : Nat) (v : PlSt) : (s.putPl d v).dies = s.dies := rfl
@[simp] theorem putPl_flows (s : State) (d : Nat) (v : PlSt) : (s.putPl d v).flows = s.flows := rfl
@[simp] theorem putPl_trunks (s : State) (d : Nat) (v : PlSt) : (s.putPl d v).trunks = s.trunks := rfl
@[simp] theorem putPl_lls (s : State) (d : Nat) (v : PlSt) : (s.putPl d v).lls = s.lls := rfl
@[simp] theorem putPl_sides (s : State) (d : Nat) (v : PlSt) : (s.putPl d v).sides = s.sides := rfl
@[simp] theorem putPl_spans (s : State) (d : Nat) (v : PlSt) : (s.putPl d v).spans = s.spans := rfl
@[simp] theorem putPl_links (s : State) (d : Nat) (v : PlSt) : (s.putPl d v).links = s.links := rfl
@[simp] theorem putPl_rx (s : State) (d : Nat) (v : PlSt) : (s.putPl d v).rx = s.rx := rfl
@[simp] theorem putPl_tx (s : State) (d : Nat) (v : PlSt) : (s.putPl d v).tx = s.tx := rfl
@[simp] theorem putPl_cks (s : State) (d : Nat) (v : PlSt) : (s.putPl d v).cks = s.cks := rfl
@[simp] theorem putPl_ckEnds (s : State) (d : Nat) (v : PlSt) : (s.putPl d v).ckEnds = s.ckEnds := rfl
@[simp] theorem putPl_coef (s : State) (d : Nat) (v : PlSt) : (s.putPl d v).coef = s.coef := rfl
@[simp] theorem putPl_adapt (s : State) (d : Nat) (v : PlSt) : (s.putPl d v).adapt = s.adapt := rfl
@[simp] theorem putPl_cal (s : State) (d : Nat) (v : PlSt) : (s.putPl d v).cal = s.cal := rfl
@[simp] theorem putPl_maps (s : State) (d : Nat) (v : PlSt) : (s.putPl d v).maps = s.maps := rfl
@[simp] theorem putPl_bobs (s : State) (d : Nat) (v : PlSt) : (s.putPl d v).bobs = s.bobs := rfl
@[simp] theorem putPl_prk (s : State) (d : Nat) (v : PlSt) : (s.putPl d v).prk = s.prk := rfl
@[simp] theorem putPl_bt (s : State) (d : Nat) (v : PlSt) : (s.putPl d v).bt = s.bt := rfl
@[simp] theorem putPl_clk (s : State) (d : Nat) (v : PlSt) : (s.putPl d v).clk = s.clk := rfl
@[simp] theorem putPl_ring (s : State) (d : Nat) (v : PlSt) : (s.putPl d v).ring = s.ring := rfl
@[simp] theorem putPl_entries (s : State) (d : Nat) (v : PlSt) : (s.putPl d v).entries = s.entries := rfl
@[simp] theorem putPl_host (s : State) (d : Nat) (v : PlSt) : (s.putPl d v).host = s.host := rfl
@[simp] theorem putPl_sel (s : State) (d : Nat) (v : PlSt) : (s.putPl d v).sel = s.sel := rfl
@[simp] theorem putPl_sec (s : State) (d : Nat) (v : PlSt) : (s.putPl d v).sec = s.sec := rfl
@[simp] theorem putPl_bist (s : State) (d : Nat) (v : PlSt) : (s.putPl d v).bist = s.bist := rfl
@[simp] theorem putPl_prbs (s : State) (d : Nat) (v : PlSt) : (s.putPl d v).prbs = s.prbs := rfl
@[simp] theorem putPl_sup (s : State) (d : Nat) (v : PlSt) : (s.putPl d v).sup = s.sup := rfl
@[simp] theorem putPl_rd (s : State) (d : Nat) (v : PlSt) (g : Fld) : (s.putPl d v).rd g = s.rd g := rfl
@[simp] theorem putPl_on (s : State) (d : Nat) (v : PlSt) (g : Fld) : (s.putPl d v).on g = s.on g := rfl
@[simp] theorem putPl_live (s : State) (d : Nat) (v : PlSt) (g : Fld) : (s.putPl d v).live g = s.live g := rfl

@[simp] theorem putCoef_regs (s : State) (n : Nat) (sd : Side) (v : Coef) : (s.putCoef n sd v).regs = s.regs := rfl
@[simp] theorem putCoef_cnt (s : State) (n : Nat) (sd : Side) (v : Coef) : (s.putCoef n sd v).cnt = s.cnt := rfl
@[simp] theorem putCoef_pending (s : State) (n : Nat) (sd : Side) (v : Coef) : (s.putCoef n sd v).pending = s.pending := rfl
@[simp] theorem putCoef_freeCtr (s : State) (n : Nat) (sd : Side) (v : Coef) : (s.putCoef n sd v).freeCtr = s.freeCtr := rfl
@[simp] theorem putCoef_fab (s : State) (n : Nat) (sd : Side) (v : Coef) : (s.putCoef n sd v).fab = s.fab := rfl
@[simp] theorem putCoef_clock (s : State) (n : Nat) (sd : Side) (v : Coef) : (s.putCoef n sd v).clock = s.clock := rfl
@[simp] theorem putCoef_fuse (s : State) (n : Nat) (sd : Side) (v : Coef) : (s.putCoef n sd v).fuse = s.fuse := rfl
@[simp] theorem putCoef_dev (s : State) (n : Nat) (sd : Side) (v : Coef) : (s.putCoef n sd v).dev = s.dev := rfl
@[simp] theorem putCoef_slots (s : State) (n : Nat) (sd : Side) (v : Coef) : (s.putCoef n sd v).slots = s.slots := rfl
@[simp] theorem putCoef_dies (s : State) (n : Nat) (sd : Side) (v : Coef) : (s.putCoef n sd v).dies = s.dies := rfl
@[simp] theorem putCoef_flows (s : State) (n : Nat) (sd : Side) (v : Coef) : (s.putCoef n sd v).flows = s.flows := rfl
@[simp] theorem putCoef_trunks (s : State) (n : Nat) (sd : Side) (v : Coef) : (s.putCoef n sd v).trunks = s.trunks := rfl
@[simp] theorem putCoef_lls (s : State) (n : Nat) (sd : Side) (v : Coef) : (s.putCoef n sd v).lls = s.lls := rfl
@[simp] theorem putCoef_sides (s : State) (n : Nat) (sd : Side) (v : Coef) : (s.putCoef n sd v).sides = s.sides := rfl
@[simp] theorem putCoef_spans (s : State) (n : Nat) (sd : Side) (v : Coef) : (s.putCoef n sd v).spans = s.spans := rfl
@[simp] theorem putCoef_links (s : State) (n : Nat) (sd : Side) (v : Coef) : (s.putCoef n sd v).links = s.links := rfl
@[simp] theorem putCoef_rx (s : State) (n : Nat) (sd : Side) (v : Coef) : (s.putCoef n sd v).rx = s.rx := rfl
@[simp] theorem putCoef_tx (s : State) (n : Nat) (sd : Side) (v : Coef) : (s.putCoef n sd v).tx = s.tx := rfl
@[simp] theorem putCoef_cks (s : State) (n : Nat) (sd : Side) (v : Coef) : (s.putCoef n sd v).cks = s.cks := rfl
@[simp] theorem putCoef_ckEnds (s : State) (n : Nat) (sd : Side) (v : Coef) : (s.putCoef n sd v).ckEnds = s.ckEnds := rfl
@[simp] theorem putCoef_adapt (s : State) (n : Nat) (sd : Side) (v : Coef) : (s.putCoef n sd v).adapt = s.adapt := rfl
@[simp] theorem putCoef_cal (s : State) (n : Nat) (sd : Side) (v : Coef) : (s.putCoef n sd v).cal = s.cal := rfl
@[simp] theorem putCoef_maps (s : State) (n : Nat) (sd : Side) (v : Coef) : (s.putCoef n sd v).maps = s.maps := rfl
@[simp] theorem putCoef_bobs (s : State) (n : Nat) (sd : Side) (v : Coef) : (s.putCoef n sd v).bobs = s.bobs := rfl
@[simp] theorem putCoef_prk (s : State) (n : Nat) (sd : Side) (v : Coef) : (s.putCoef n sd v).prk = s.prk := rfl
@[simp] theorem putCoef_bt (s : State) (n : Nat) (sd : Side) (v : Coef) : (s.putCoef n sd v).bt = s.bt := rfl
@[simp] theorem putCoef_plv (s : State) (n : Nat) (sd : Side) (v : Coef) : (s.putCoef n sd v).plv = s.plv := rfl
@[simp] theorem putCoef_clk (s : State) (n : Nat) (sd : Side) (v : Coef) : (s.putCoef n sd v).clk = s.clk := rfl
@[simp] theorem putCoef_ring (s : State) (n : Nat) (sd : Side) (v : Coef) : (s.putCoef n sd v).ring = s.ring := rfl
@[simp] theorem putCoef_entries (s : State) (n : Nat) (sd : Side) (v : Coef) : (s.putCoef n sd v).entries = s.entries := rfl
@[simp] theorem putCoef_host (s : State) (n : Nat) (sd : Side) (v : Coef) : (s.putCoef n sd v).host = s.host := rfl
@[simp] theorem putCoef_sel (s : State) (n : Nat) (sd : Side) (v : Coef) : (s.putCoef n sd v).sel = s.sel := rfl
@[simp] theorem putCoef_sec (s : State) (n : Nat) (sd : Side) (v : Coef) : (s.putCoef n sd v).sec = s.sec := rfl
@[simp] theorem putCoef_bist (s : State) (n : Nat) (sd : Side) (v : Coef) : (s.putCoef n sd v).bist = s.bist := rfl
@[simp] theorem putCoef_prbs (s : State) (n : Nat) (sd : Side) (v : Coef) : (s.putCoef n sd v).prbs = s.prbs := rfl
@[simp] theorem putCoef_sup (s : State) (n : Nat) (sd : Side) (v : Coef) : (s.putCoef n sd v).sup = s.sup := rfl
@[simp] theorem putCoef_rd (s : State) (n : Nat) (sd : Side) (v : Coef) (g : Fld) : (s.putCoef n sd v).rd g = s.rd g := rfl
@[simp] theorem putCoef_on (s : State) (n : Nat) (sd : Side) (v : Coef) (g : Fld) : (s.putCoef n sd v).on g = s.on g := rfl
@[simp] theorem putCoef_live (s : State) (n : Nat) (sd : Side) (v : Coef) (g : Fld) : (s.putCoef n sd v).live g = s.live g := rfl

@[simp] theorem putEngine_cnt (s : State) (c : Nat) (v : AdaptSt) : (s.putEngine c v).cnt = s.cnt := rfl
@[simp] theorem putEngine_pending (s : State) (c : Nat) (v : AdaptSt) : (s.putEngine c v).pending = s.pending := rfl
@[simp] theorem putEngine_freeCtr (s : State) (c : Nat) (v : AdaptSt) : (s.putEngine c v).freeCtr = s.freeCtr := rfl
@[simp] theorem putEngine_fab (s : State) (c : Nat) (v : AdaptSt) : (s.putEngine c v).fab = s.fab := rfl
@[simp] theorem putEngine_clock (s : State) (c : Nat) (v : AdaptSt) : (s.putEngine c v).clock = s.clock := rfl
@[simp] theorem putEngine_fuse (s : State) (c : Nat) (v : AdaptSt) : (s.putEngine c v).fuse = s.fuse := rfl
@[simp] theorem putEngine_dev (s : State) (c : Nat) (v : AdaptSt) : (s.putEngine c v).dev = s.dev := rfl
@[simp] theorem putEngine_slots (s : State) (c : Nat) (v : AdaptSt) : (s.putEngine c v).slots = s.slots := rfl
@[simp] theorem putEngine_dies (s : State) (c : Nat) (v : AdaptSt) : (s.putEngine c v).dies = s.dies := rfl
@[simp] theorem putEngine_flows (s : State) (c : Nat) (v : AdaptSt) : (s.putEngine c v).flows = s.flows := rfl
@[simp] theorem putEngine_trunks (s : State) (c : Nat) (v : AdaptSt) : (s.putEngine c v).trunks = s.trunks := rfl
@[simp] theorem putEngine_lls (s : State) (c : Nat) (v : AdaptSt) : (s.putEngine c v).lls = s.lls := rfl
@[simp] theorem putEngine_sides (s : State) (c : Nat) (v : AdaptSt) : (s.putEngine c v).sides = s.sides := rfl
@[simp] theorem putEngine_spans (s : State) (c : Nat) (v : AdaptSt) : (s.putEngine c v).spans = s.spans := rfl
@[simp] theorem putEngine_links (s : State) (c : Nat) (v : AdaptSt) : (s.putEngine c v).links = s.links := rfl
@[simp] theorem putEngine_rx (s : State) (c : Nat) (v : AdaptSt) : (s.putEngine c v).rx = s.rx := rfl
@[simp] theorem putEngine_tx (s : State) (c : Nat) (v : AdaptSt) : (s.putEngine c v).tx = s.tx := rfl
@[simp] theorem putEngine_cks (s : State) (c : Nat) (v : AdaptSt) : (s.putEngine c v).cks = s.cks := rfl
@[simp] theorem putEngine_ckEnds (s : State) (c : Nat) (v : AdaptSt) : (s.putEngine c v).ckEnds = s.ckEnds := rfl
@[simp] theorem putEngine_coef (s : State) (c : Nat) (v : AdaptSt) : (s.putEngine c v).coef = s.coef := rfl
@[simp] theorem putEngine_cal (s : State) (c : Nat) (v : AdaptSt) : (s.putEngine c v).cal = s.cal := rfl
@[simp] theorem putEngine_maps (s : State) (c : Nat) (v : AdaptSt) : (s.putEngine c v).maps = s.maps := rfl
@[simp] theorem putEngine_bobs (s : State) (c : Nat) (v : AdaptSt) : (s.putEngine c v).bobs = s.bobs := rfl
@[simp] theorem putEngine_prk (s : State) (c : Nat) (v : AdaptSt) : (s.putEngine c v).prk = s.prk := rfl
@[simp] theorem putEngine_bt (s : State) (c : Nat) (v : AdaptSt) : (s.putEngine c v).bt = s.bt := rfl
@[simp] theorem putEngine_plv (s : State) (c : Nat) (v : AdaptSt) : (s.putEngine c v).plv = s.plv := rfl
@[simp] theorem putEngine_clk (s : State) (c : Nat) (v : AdaptSt) : (s.putEngine c v).clk = s.clk := rfl
@[simp] theorem putEngine_ring (s : State) (c : Nat) (v : AdaptSt) : (s.putEngine c v).ring = s.ring := rfl
@[simp] theorem putEngine_entries (s : State) (c : Nat) (v : AdaptSt) : (s.putEngine c v).entries = s.entries := rfl
@[simp] theorem putEngine_host (s : State) (c : Nat) (v : AdaptSt) : (s.putEngine c v).host = s.host := rfl
@[simp] theorem putEngine_sel (s : State) (c : Nat) (v : AdaptSt) : (s.putEngine c v).sel = s.sel := rfl
@[simp] theorem putEngine_sec (s : State) (c : Nat) (v : AdaptSt) : (s.putEngine c v).sec = s.sec := rfl
@[simp] theorem putEngine_bist (s : State) (c : Nat) (v : AdaptSt) : (s.putEngine c v).bist = s.bist := rfl
@[simp] theorem putEngine_prbs (s : State) (c : Nat) (v : AdaptSt) : (s.putEngine c v).prbs = s.prbs := rfl
@[simp] theorem putEngine_sup (s : State) (c : Nat) (v : AdaptSt) : (s.putEngine c v).sup = s.sup := rfl
@[simp] theorem putEngine_live (s : State) (c : Nat) (v : AdaptSt) (g : Fld) : (s.putEngine c v).live g = s.live g := rfl

@[simp] theorem putMap_regs (s : State) (e : Nat) (v : MapSt) : (s.putMap e v).regs = s.regs := rfl
@[simp] theorem putMap_cnt (s : State) (e : Nat) (v : MapSt) : (s.putMap e v).cnt = s.cnt := rfl
@[simp] theorem putMap_pending (s : State) (e : Nat) (v : MapSt) : (s.putMap e v).pending = s.pending := rfl
@[simp] theorem putMap_freeCtr (s : State) (e : Nat) (v : MapSt) : (s.putMap e v).freeCtr = s.freeCtr := rfl
@[simp] theorem putMap_fab (s : State) (e : Nat) (v : MapSt) : (s.putMap e v).fab = s.fab := rfl
@[simp] theorem putMap_clock (s : State) (e : Nat) (v : MapSt) : (s.putMap e v).clock = s.clock := rfl
@[simp] theorem putMap_fuse (s : State) (e : Nat) (v : MapSt) : (s.putMap e v).fuse = s.fuse := rfl
@[simp] theorem putMap_dev (s : State) (e : Nat) (v : MapSt) : (s.putMap e v).dev = s.dev := rfl
@[simp] theorem putMap_slots (s : State) (e : Nat) (v : MapSt) : (s.putMap e v).slots = s.slots := rfl
@[simp] theorem putMap_dies (s : State) (e : Nat) (v : MapSt) : (s.putMap e v).dies = s.dies := rfl
@[simp] theorem putMap_flows (s : State) (e : Nat) (v : MapSt) : (s.putMap e v).flows = s.flows := rfl
@[simp] theorem putMap_trunks (s : State) (e : Nat) (v : MapSt) : (s.putMap e v).trunks = s.trunks := rfl
@[simp] theorem putMap_lls (s : State) (e : Nat) (v : MapSt) : (s.putMap e v).lls = s.lls := rfl
@[simp] theorem putMap_sides (s : State) (e : Nat) (v : MapSt) : (s.putMap e v).sides = s.sides := rfl
@[simp] theorem putMap_spans (s : State) (e : Nat) (v : MapSt) : (s.putMap e v).spans = s.spans := rfl
@[simp] theorem putMap_links (s : State) (e : Nat) (v : MapSt) : (s.putMap e v).links = s.links := rfl
@[simp] theorem putMap_rx (s : State) (e : Nat) (v : MapSt) : (s.putMap e v).rx = s.rx := rfl
@[simp] theorem putMap_tx (s : State) (e : Nat) (v : MapSt) : (s.putMap e v).tx = s.tx := rfl
@[simp] theorem putMap_cks (s : State) (e : Nat) (v : MapSt) : (s.putMap e v).cks = s.cks := rfl
@[simp] theorem putMap_ckEnds (s : State) (e : Nat) (v : MapSt) : (s.putMap e v).ckEnds = s.ckEnds := rfl
@[simp] theorem putMap_coef (s : State) (e : Nat) (v : MapSt) : (s.putMap e v).coef = s.coef := rfl
@[simp] theorem putMap_adapt (s : State) (e : Nat) (v : MapSt) : (s.putMap e v).adapt = s.adapt := rfl
@[simp] theorem putMap_cal (s : State) (e : Nat) (v : MapSt) : (s.putMap e v).cal = s.cal := rfl
@[simp] theorem putMap_bobs (s : State) (e : Nat) (v : MapSt) : (s.putMap e v).bobs = s.bobs := rfl
@[simp] theorem putMap_prk (s : State) (e : Nat) (v : MapSt) : (s.putMap e v).prk = s.prk := rfl
@[simp] theorem putMap_bt (s : State) (e : Nat) (v : MapSt) : (s.putMap e v).bt = s.bt := rfl
@[simp] theorem putMap_plv (s : State) (e : Nat) (v : MapSt) : (s.putMap e v).plv = s.plv := rfl
@[simp] theorem putMap_clk (s : State) (e : Nat) (v : MapSt) : (s.putMap e v).clk = s.clk := rfl
@[simp] theorem putMap_ring (s : State) (e : Nat) (v : MapSt) : (s.putMap e v).ring = s.ring := rfl
@[simp] theorem putMap_entries (s : State) (e : Nat) (v : MapSt) : (s.putMap e v).entries = s.entries := rfl
@[simp] theorem putMap_host (s : State) (e : Nat) (v : MapSt) : (s.putMap e v).host = s.host := rfl
@[simp] theorem putMap_sel (s : State) (e : Nat) (v : MapSt) : (s.putMap e v).sel = s.sel := rfl
@[simp] theorem putMap_sec (s : State) (e : Nat) (v : MapSt) : (s.putMap e v).sec = s.sec := rfl
@[simp] theorem putMap_bist (s : State) (e : Nat) (v : MapSt) : (s.putMap e v).bist = s.bist := rfl
@[simp] theorem putMap_prbs (s : State) (e : Nat) (v : MapSt) : (s.putMap e v).prbs = s.prbs := rfl
@[simp] theorem putMap_sup (s : State) (e : Nat) (v : MapSt) : (s.putMap e v).sup = s.sup := rfl
@[simp] theorem putMap_rd (s : State) (e : Nat) (v : MapSt) (g : Fld) : (s.putMap e v).rd g = s.rd g := rfl
@[simp] theorem putMap_on (s : State) (e : Nat) (v : MapSt) (g : Fld) : (s.putMap e v).on g = s.on g := rfl
@[simp] theorem putMap_live (s : State) (e : Nat) (v : MapSt) (g : Fld) : (s.putMap e v).live g = s.live g := rfl

@[simp] theorem putBob_regs (s : State) (c : Nat) (v : BobSt) : (s.putBob c v).regs = s.regs := rfl
@[simp] theorem putBob_cnt (s : State) (c : Nat) (v : BobSt) : (s.putBob c v).cnt = s.cnt := rfl
@[simp] theorem putBob_pending (s : State) (c : Nat) (v : BobSt) : (s.putBob c v).pending = s.pending := rfl
@[simp] theorem putBob_freeCtr (s : State) (c : Nat) (v : BobSt) : (s.putBob c v).freeCtr = s.freeCtr := rfl
@[simp] theorem putBob_fab (s : State) (c : Nat) (v : BobSt) : (s.putBob c v).fab = s.fab := rfl
@[simp] theorem putBob_clock (s : State) (c : Nat) (v : BobSt) : (s.putBob c v).clock = s.clock := rfl
@[simp] theorem putBob_fuse (s : State) (c : Nat) (v : BobSt) : (s.putBob c v).fuse = s.fuse := rfl
@[simp] theorem putBob_dev (s : State) (c : Nat) (v : BobSt) : (s.putBob c v).dev = s.dev := rfl
@[simp] theorem putBob_slots (s : State) (c : Nat) (v : BobSt) : (s.putBob c v).slots = s.slots := rfl
@[simp] theorem putBob_dies (s : State) (c : Nat) (v : BobSt) : (s.putBob c v).dies = s.dies := rfl
@[simp] theorem putBob_flows (s : State) (c : Nat) (v : BobSt) : (s.putBob c v).flows = s.flows := rfl
@[simp] theorem putBob_trunks (s : State) (c : Nat) (v : BobSt) : (s.putBob c v).trunks = s.trunks := rfl
@[simp] theorem putBob_lls (s : State) (c : Nat) (v : BobSt) : (s.putBob c v).lls = s.lls := rfl
@[simp] theorem putBob_sides (s : State) (c : Nat) (v : BobSt) : (s.putBob c v).sides = s.sides := rfl
@[simp] theorem putBob_spans (s : State) (c : Nat) (v : BobSt) : (s.putBob c v).spans = s.spans := rfl
@[simp] theorem putBob_links (s : State) (c : Nat) (v : BobSt) : (s.putBob c v).links = s.links := rfl
@[simp] theorem putBob_rx (s : State) (c : Nat) (v : BobSt) : (s.putBob c v).rx = s.rx := rfl
@[simp] theorem putBob_tx (s : State) (c : Nat) (v : BobSt) : (s.putBob c v).tx = s.tx := rfl
@[simp] theorem putBob_cks (s : State) (c : Nat) (v : BobSt) : (s.putBob c v).cks = s.cks := rfl
@[simp] theorem putBob_ckEnds (s : State) (c : Nat) (v : BobSt) : (s.putBob c v).ckEnds = s.ckEnds := rfl
@[simp] theorem putBob_coef (s : State) (c : Nat) (v : BobSt) : (s.putBob c v).coef = s.coef := rfl
@[simp] theorem putBob_adapt (s : State) (c : Nat) (v : BobSt) : (s.putBob c v).adapt = s.adapt := rfl
@[simp] theorem putBob_cal (s : State) (c : Nat) (v : BobSt) : (s.putBob c v).cal = s.cal := rfl
@[simp] theorem putBob_maps (s : State) (c : Nat) (v : BobSt) : (s.putBob c v).maps = s.maps := rfl
@[simp] theorem putBob_prk (s : State) (c : Nat) (v : BobSt) : (s.putBob c v).prk = s.prk := rfl
@[simp] theorem putBob_bt (s : State) (c : Nat) (v : BobSt) : (s.putBob c v).bt = s.bt := rfl
@[simp] theorem putBob_plv (s : State) (c : Nat) (v : BobSt) : (s.putBob c v).plv = s.plv := rfl
@[simp] theorem putBob_clk (s : State) (c : Nat) (v : BobSt) : (s.putBob c v).clk = s.clk := rfl
@[simp] theorem putBob_ring (s : State) (c : Nat) (v : BobSt) : (s.putBob c v).ring = s.ring := rfl
@[simp] theorem putBob_entries (s : State) (c : Nat) (v : BobSt) : (s.putBob c v).entries = s.entries := rfl
@[simp] theorem putBob_host (s : State) (c : Nat) (v : BobSt) : (s.putBob c v).host = s.host := rfl
@[simp] theorem putBob_sel (s : State) (c : Nat) (v : BobSt) : (s.putBob c v).sel = s.sel := rfl
@[simp] theorem putBob_sec (s : State) (c : Nat) (v : BobSt) : (s.putBob c v).sec = s.sec := rfl
@[simp] theorem putBob_bist (s : State) (c : Nat) (v : BobSt) : (s.putBob c v).bist = s.bist := rfl
@[simp] theorem putBob_prbs (s : State) (c : Nat) (v : BobSt) : (s.putBob c v).prbs = s.prbs := rfl
@[simp] theorem putBob_sup (s : State) (c : Nat) (v : BobSt) : (s.putBob c v).sup = s.sup := rfl
@[simp] theorem putBob_rd (s : State) (c : Nat) (v : BobSt) (g : Fld) : (s.putBob c v).rd g = s.rd g := rfl
@[simp] theorem putBob_on (s : State) (c : Nat) (v : BobSt) (g : Fld) : (s.putBob c v).on g = s.on g := rfl
@[simp] theorem putBob_live (s : State) (c : Nat) (v : BobSt) (g : Fld) : (s.putBob c v).live g = s.live g := rfl

@[simp] theorem putSpan_regs (s : State) (k : Nat) (sd : Side) (v : SpanSt) : (s.putSpan k sd v).regs = s.regs := rfl
@[simp] theorem putSpan_cnt (s : State) (k : Nat) (sd : Side) (v : SpanSt) : (s.putSpan k sd v).cnt = s.cnt := rfl
@[simp] theorem putSpan_pending (s : State) (k : Nat) (sd : Side) (v : SpanSt) : (s.putSpan k sd v).pending = s.pending := rfl
@[simp] theorem putSpan_freeCtr (s : State) (k : Nat) (sd : Side) (v : SpanSt) : (s.putSpan k sd v).freeCtr = s.freeCtr := rfl
@[simp] theorem putSpan_fab (s : State) (k : Nat) (sd : Side) (v : SpanSt) : (s.putSpan k sd v).fab = s.fab := rfl
@[simp] theorem putSpan_clock (s : State) (k : Nat) (sd : Side) (v : SpanSt) : (s.putSpan k sd v).clock = s.clock := rfl
@[simp] theorem putSpan_fuse (s : State) (k : Nat) (sd : Side) (v : SpanSt) : (s.putSpan k sd v).fuse = s.fuse := rfl
@[simp] theorem putSpan_dev (s : State) (k : Nat) (sd : Side) (v : SpanSt) : (s.putSpan k sd v).dev = s.dev := rfl
@[simp] theorem putSpan_slots (s : State) (k : Nat) (sd : Side) (v : SpanSt) : (s.putSpan k sd v).slots = s.slots := rfl
@[simp] theorem putSpan_dies (s : State) (k : Nat) (sd : Side) (v : SpanSt) : (s.putSpan k sd v).dies = s.dies := rfl
@[simp] theorem putSpan_flows (s : State) (k : Nat) (sd : Side) (v : SpanSt) : (s.putSpan k sd v).flows = s.flows := rfl
@[simp] theorem putSpan_trunks (s : State) (k : Nat) (sd : Side) (v : SpanSt) : (s.putSpan k sd v).trunks = s.trunks := rfl
@[simp] theorem putSpan_lls (s : State) (k : Nat) (sd : Side) (v : SpanSt) : (s.putSpan k sd v).lls = s.lls := rfl
@[simp] theorem putSpan_sides (s : State) (k : Nat) (sd : Side) (v : SpanSt) : (s.putSpan k sd v).sides = s.sides := rfl
@[simp] theorem putSpan_links (s : State) (k : Nat) (sd : Side) (v : SpanSt) : (s.putSpan k sd v).links = s.links := rfl
@[simp] theorem putSpan_rx (s : State) (k : Nat) (sd : Side) (v : SpanSt) : (s.putSpan k sd v).rx = s.rx := rfl
@[simp] theorem putSpan_tx (s : State) (k : Nat) (sd : Side) (v : SpanSt) : (s.putSpan k sd v).tx = s.tx := rfl
@[simp] theorem putSpan_cks (s : State) (k : Nat) (sd : Side) (v : SpanSt) : (s.putSpan k sd v).cks = s.cks := rfl
@[simp] theorem putSpan_ckEnds (s : State) (k : Nat) (sd : Side) (v : SpanSt) : (s.putSpan k sd v).ckEnds = s.ckEnds := rfl
@[simp] theorem putSpan_coef (s : State) (k : Nat) (sd : Side) (v : SpanSt) : (s.putSpan k sd v).coef = s.coef := rfl
@[simp] theorem putSpan_adapt (s : State) (k : Nat) (sd : Side) (v : SpanSt) : (s.putSpan k sd v).adapt = s.adapt := rfl
@[simp] theorem putSpan_cal (s : State) (k : Nat) (sd : Side) (v : SpanSt) : (s.putSpan k sd v).cal = s.cal := rfl
@[simp] theorem putSpan_maps (s : State) (k : Nat) (sd : Side) (v : SpanSt) : (s.putSpan k sd v).maps = s.maps := rfl
@[simp] theorem putSpan_bobs (s : State) (k : Nat) (sd : Side) (v : SpanSt) : (s.putSpan k sd v).bobs = s.bobs := rfl
@[simp] theorem putSpan_prk (s : State) (k : Nat) (sd : Side) (v : SpanSt) : (s.putSpan k sd v).prk = s.prk := rfl
@[simp] theorem putSpan_bt (s : State) (k : Nat) (sd : Side) (v : SpanSt) : (s.putSpan k sd v).bt = s.bt := rfl
@[simp] theorem putSpan_plv (s : State) (k : Nat) (sd : Side) (v : SpanSt) : (s.putSpan k sd v).plv = s.plv := rfl
@[simp] theorem putSpan_clk (s : State) (k : Nat) (sd : Side) (v : SpanSt) : (s.putSpan k sd v).clk = s.clk := rfl
@[simp] theorem putSpan_ring (s : State) (k : Nat) (sd : Side) (v : SpanSt) : (s.putSpan k sd v).ring = s.ring := rfl
@[simp] theorem putSpan_entries (s : State) (k : Nat) (sd : Side) (v : SpanSt) : (s.putSpan k sd v).entries = s.entries := rfl
@[simp] theorem putSpan_host (s : State) (k : Nat) (sd : Side) (v : SpanSt) : (s.putSpan k sd v).host = s.host := rfl
@[simp] theorem putSpan_sel (s : State) (k : Nat) (sd : Side) (v : SpanSt) : (s.putSpan k sd v).sel = s.sel := rfl
@[simp] theorem putSpan_sec (s : State) (k : Nat) (sd : Side) (v : SpanSt) : (s.putSpan k sd v).sec = s.sec := rfl
@[simp] theorem putSpan_bist (s : State) (k : Nat) (sd : Side) (v : SpanSt) : (s.putSpan k sd v).bist = s.bist := rfl
@[simp] theorem putSpan_prbs (s : State) (k : Nat) (sd : Side) (v : SpanSt) : (s.putSpan k sd v).prbs = s.prbs := rfl
@[simp] theorem putSpan_sup (s : State) (k : Nat) (sd : Side) (v : SpanSt) : (s.putSpan k sd v).sup = s.sup := rfl
@[simp] theorem putSpan_rd (s : State) (k : Nat) (sd : Side) (v : SpanSt) (g : Fld) : (s.putSpan k sd v).rd g = s.rd g := rfl
@[simp] theorem putSpan_on (s : State) (k : Nat) (sd : Side) (v : SpanSt) (g : Fld) : (s.putSpan k sd v).on g = s.on g := rfl
@[simp] theorem putSpan_live (s : State) (k : Nat) (sd : Side) (v : SpanSt) (g : Fld) : (s.putSpan k sd v).live g = s.live g := rfl

@[simp] theorem putSide_regs (s : State) (k : Nat) (sd : Side) (v : SideSt) : (s.putSide k sd v).regs = s.regs := rfl
@[simp] theorem putSide_cnt (s : State) (k : Nat) (sd : Side) (v : SideSt) : (s.putSide k sd v).cnt = s.cnt := rfl
@[simp] theorem putSide_pending (s : State) (k : Nat) (sd : Side) (v : SideSt) : (s.putSide k sd v).pending = s.pending := rfl
@[simp] theorem putSide_freeCtr (s : State) (k : Nat) (sd : Side) (v : SideSt) : (s.putSide k sd v).freeCtr = s.freeCtr := rfl
@[simp] theorem putSide_fab (s : State) (k : Nat) (sd : Side) (v : SideSt) : (s.putSide k sd v).fab = s.fab := rfl
@[simp] theorem putSide_clock (s : State) (k : Nat) (sd : Side) (v : SideSt) : (s.putSide k sd v).clock = s.clock := rfl
@[simp] theorem putSide_fuse (s : State) (k : Nat) (sd : Side) (v : SideSt) : (s.putSide k sd v).fuse = s.fuse := rfl
@[simp] theorem putSide_dev (s : State) (k : Nat) (sd : Side) (v : SideSt) : (s.putSide k sd v).dev = s.dev := rfl
@[simp] theorem putSide_slots (s : State) (k : Nat) (sd : Side) (v : SideSt) : (s.putSide k sd v).slots = s.slots := rfl
@[simp] theorem putSide_dies (s : State) (k : Nat) (sd : Side) (v : SideSt) : (s.putSide k sd v).dies = s.dies := rfl
@[simp] theorem putSide_flows (s : State) (k : Nat) (sd : Side) (v : SideSt) : (s.putSide k sd v).flows = s.flows := rfl
@[simp] theorem putSide_trunks (s : State) (k : Nat) (sd : Side) (v : SideSt) : (s.putSide k sd v).trunks = s.trunks := rfl
@[simp] theorem putSide_lls (s : State) (k : Nat) (sd : Side) (v : SideSt) : (s.putSide k sd v).lls = s.lls := rfl
@[simp] theorem putSide_spans (s : State) (k : Nat) (sd : Side) (v : SideSt) : (s.putSide k sd v).spans = s.spans := rfl
@[simp] theorem putSide_links (s : State) (k : Nat) (sd : Side) (v : SideSt) : (s.putSide k sd v).links = s.links := rfl
@[simp] theorem putSide_rx (s : State) (k : Nat) (sd : Side) (v : SideSt) : (s.putSide k sd v).rx = s.rx := rfl
@[simp] theorem putSide_tx (s : State) (k : Nat) (sd : Side) (v : SideSt) : (s.putSide k sd v).tx = s.tx := rfl
@[simp] theorem putSide_cks (s : State) (k : Nat) (sd : Side) (v : SideSt) : (s.putSide k sd v).cks = s.cks := rfl
@[simp] theorem putSide_ckEnds (s : State) (k : Nat) (sd : Side) (v : SideSt) : (s.putSide k sd v).ckEnds = s.ckEnds := rfl
@[simp] theorem putSide_coef (s : State) (k : Nat) (sd : Side) (v : SideSt) : (s.putSide k sd v).coef = s.coef := rfl
@[simp] theorem putSide_adapt (s : State) (k : Nat) (sd : Side) (v : SideSt) : (s.putSide k sd v).adapt = s.adapt := rfl
@[simp] theorem putSide_cal (s : State) (k : Nat) (sd : Side) (v : SideSt) : (s.putSide k sd v).cal = s.cal := rfl
@[simp] theorem putSide_maps (s : State) (k : Nat) (sd : Side) (v : SideSt) : (s.putSide k sd v).maps = s.maps := rfl
@[simp] theorem putSide_bobs (s : State) (k : Nat) (sd : Side) (v : SideSt) : (s.putSide k sd v).bobs = s.bobs := rfl
@[simp] theorem putSide_prk (s : State) (k : Nat) (sd : Side) (v : SideSt) : (s.putSide k sd v).prk = s.prk := rfl
@[simp] theorem putSide_bt (s : State) (k : Nat) (sd : Side) (v : SideSt) : (s.putSide k sd v).bt = s.bt := rfl
@[simp] theorem putSide_plv (s : State) (k : Nat) (sd : Side) (v : SideSt) : (s.putSide k sd v).plv = s.plv := rfl
@[simp] theorem putSide_clk (s : State) (k : Nat) (sd : Side) (v : SideSt) : (s.putSide k sd v).clk = s.clk := rfl
@[simp] theorem putSide_ring (s : State) (k : Nat) (sd : Side) (v : SideSt) : (s.putSide k sd v).ring = s.ring := rfl
@[simp] theorem putSide_entries (s : State) (k : Nat) (sd : Side) (v : SideSt) : (s.putSide k sd v).entries = s.entries := rfl
@[simp] theorem putSide_host (s : State) (k : Nat) (sd : Side) (v : SideSt) : (s.putSide k sd v).host = s.host := rfl
@[simp] theorem putSide_sel (s : State) (k : Nat) (sd : Side) (v : SideSt) : (s.putSide k sd v).sel = s.sel := rfl
@[simp] theorem putSide_sec (s : State) (k : Nat) (sd : Side) (v : SideSt) : (s.putSide k sd v).sec = s.sec := rfl
@[simp] theorem putSide_bist (s : State) (k : Nat) (sd : Side) (v : SideSt) : (s.putSide k sd v).bist = s.bist := rfl
@[simp] theorem putSide_prbs (s : State) (k : Nat) (sd : Side) (v : SideSt) : (s.putSide k sd v).prbs = s.prbs := rfl
@[simp] theorem putSide_sup (s : State) (k : Nat) (sd : Side) (v : SideSt) : (s.putSide k sd v).sup = s.sup := rfl
@[simp] theorem putSide_rd (s : State) (k : Nat) (sd : Side) (v : SideSt) (g : Fld) : (s.putSide k sd v).rd g = s.rd g := rfl
@[simp] theorem putSide_on (s : State) (k : Nat) (sd : Side) (v : SideSt) (g : Fld) : (s.putSide k sd v).on g = s.on g := rfl
@[simp] theorem putSide_live (s : State) (k : Nat) (sd : Side) (v : SideSt) (g : Fld) : (s.putSide k sd v).live g = s.live g := rfl

@[simp] theorem putLink_regs (s : State) (k : Nat) (v : LinkSt) : (s.putLink k v).regs = s.regs := rfl
@[simp] theorem putLink_cnt (s : State) (k : Nat) (v : LinkSt) : (s.putLink k v).cnt = s.cnt := rfl
@[simp] theorem putLink_pending (s : State) (k : Nat) (v : LinkSt) : (s.putLink k v).pending = s.pending := rfl
@[simp] theorem putLink_freeCtr (s : State) (k : Nat) (v : LinkSt) : (s.putLink k v).freeCtr = s.freeCtr := rfl
@[simp] theorem putLink_fab (s : State) (k : Nat) (v : LinkSt) : (s.putLink k v).fab = s.fab := rfl
@[simp] theorem putLink_clock (s : State) (k : Nat) (v : LinkSt) : (s.putLink k v).clock = s.clock := rfl
@[simp] theorem putLink_fuse (s : State) (k : Nat) (v : LinkSt) : (s.putLink k v).fuse = s.fuse := rfl
@[simp] theorem putLink_dev (s : State) (k : Nat) (v : LinkSt) : (s.putLink k v).dev = s.dev := rfl
@[simp] theorem putLink_slots (s : State) (k : Nat) (v : LinkSt) : (s.putLink k v).slots = s.slots := rfl
@[simp] theorem putLink_dies (s : State) (k : Nat) (v : LinkSt) : (s.putLink k v).dies = s.dies := rfl
@[simp] theorem putLink_flows (s : State) (k : Nat) (v : LinkSt) : (s.putLink k v).flows = s.flows := rfl
@[simp] theorem putLink_trunks (s : State) (k : Nat) (v : LinkSt) : (s.putLink k v).trunks = s.trunks := rfl
@[simp] theorem putLink_lls (s : State) (k : Nat) (v : LinkSt) : (s.putLink k v).lls = s.lls := rfl
@[simp] theorem putLink_sides (s : State) (k : Nat) (v : LinkSt) : (s.putLink k v).sides = s.sides := rfl
@[simp] theorem putLink_spans (s : State) (k : Nat) (v : LinkSt) : (s.putLink k v).spans = s.spans := rfl
@[simp] theorem putLink_rx (s : State) (k : Nat) (v : LinkSt) : (s.putLink k v).rx = s.rx := rfl
@[simp] theorem putLink_tx (s : State) (k : Nat) (v : LinkSt) : (s.putLink k v).tx = s.tx := rfl
@[simp] theorem putLink_cks (s : State) (k : Nat) (v : LinkSt) : (s.putLink k v).cks = s.cks := rfl
@[simp] theorem putLink_ckEnds (s : State) (k : Nat) (v : LinkSt) : (s.putLink k v).ckEnds = s.ckEnds := rfl
@[simp] theorem putLink_coef (s : State) (k : Nat) (v : LinkSt) : (s.putLink k v).coef = s.coef := rfl
@[simp] theorem putLink_adapt (s : State) (k : Nat) (v : LinkSt) : (s.putLink k v).adapt = s.adapt := rfl
@[simp] theorem putLink_cal (s : State) (k : Nat) (v : LinkSt) : (s.putLink k v).cal = s.cal := rfl
@[simp] theorem putLink_maps (s : State) (k : Nat) (v : LinkSt) : (s.putLink k v).maps = s.maps := rfl
@[simp] theorem putLink_bobs (s : State) (k : Nat) (v : LinkSt) : (s.putLink k v).bobs = s.bobs := rfl
@[simp] theorem putLink_prk (s : State) (k : Nat) (v : LinkSt) : (s.putLink k v).prk = s.prk := rfl
@[simp] theorem putLink_bt (s : State) (k : Nat) (v : LinkSt) : (s.putLink k v).bt = s.bt := rfl
@[simp] theorem putLink_plv (s : State) (k : Nat) (v : LinkSt) : (s.putLink k v).plv = s.plv := rfl
@[simp] theorem putLink_clk (s : State) (k : Nat) (v : LinkSt) : (s.putLink k v).clk = s.clk := rfl
@[simp] theorem putLink_ring (s : State) (k : Nat) (v : LinkSt) : (s.putLink k v).ring = s.ring := rfl
@[simp] theorem putLink_entries (s : State) (k : Nat) (v : LinkSt) : (s.putLink k v).entries = s.entries := rfl
@[simp] theorem putLink_host (s : State) (k : Nat) (v : LinkSt) : (s.putLink k v).host = s.host := rfl
@[simp] theorem putLink_sel (s : State) (k : Nat) (v : LinkSt) : (s.putLink k v).sel = s.sel := rfl
@[simp] theorem putLink_sec (s : State) (k : Nat) (v : LinkSt) : (s.putLink k v).sec = s.sec := rfl
@[simp] theorem putLink_bist (s : State) (k : Nat) (v : LinkSt) : (s.putLink k v).bist = s.bist := rfl
@[simp] theorem putLink_prbs (s : State) (k : Nat) (v : LinkSt) : (s.putLink k v).prbs = s.prbs := rfl
@[simp] theorem putLink_sup (s : State) (k : Nat) (v : LinkSt) : (s.putLink k v).sup = s.sup := rfl
@[simp] theorem putLink_rd (s : State) (k : Nat) (v : LinkSt) (g : Fld) : (s.putLink k v).rd g = s.rd g := rfl
@[simp] theorem putLink_on (s : State) (k : Nat) (v : LinkSt) (g : Fld) : (s.putLink k v).on g = s.on g := rfl
@[simp] theorem putLink_live (s : State) (k : Nat) (v : LinkSt) (g : Fld) : (s.putLink k v).live g = s.live g := rfl

@[simp] theorem putRx_regs (s : State) (n : Nat) (sd : Side) (v : RxSt) : (s.putRx n sd v).regs = s.regs := rfl
@[simp] theorem putRx_cnt (s : State) (n : Nat) (sd : Side) (v : RxSt) : (s.putRx n sd v).cnt = s.cnt := rfl
@[simp] theorem putRx_pending (s : State) (n : Nat) (sd : Side) (v : RxSt) : (s.putRx n sd v).pending = s.pending := rfl
@[simp] theorem putRx_freeCtr (s : State) (n : Nat) (sd : Side) (v : RxSt) : (s.putRx n sd v).freeCtr = s.freeCtr := rfl
@[simp] theorem putRx_fab (s : State) (n : Nat) (sd : Side) (v : RxSt) : (s.putRx n sd v).fab = s.fab := rfl
@[simp] theorem putRx_clock (s : State) (n : Nat) (sd : Side) (v : RxSt) : (s.putRx n sd v).clock = s.clock := rfl
@[simp] theorem putRx_fuse (s : State) (n : Nat) (sd : Side) (v : RxSt) : (s.putRx n sd v).fuse = s.fuse := rfl
@[simp] theorem putRx_dev (s : State) (n : Nat) (sd : Side) (v : RxSt) : (s.putRx n sd v).dev = s.dev := rfl
@[simp] theorem putRx_slots (s : State) (n : Nat) (sd : Side) (v : RxSt) : (s.putRx n sd v).slots = s.slots := rfl
@[simp] theorem putRx_dies (s : State) (n : Nat) (sd : Side) (v : RxSt) : (s.putRx n sd v).dies = s.dies := rfl
@[simp] theorem putRx_flows (s : State) (n : Nat) (sd : Side) (v : RxSt) : (s.putRx n sd v).flows = s.flows := rfl
@[simp] theorem putRx_trunks (s : State) (n : Nat) (sd : Side) (v : RxSt) : (s.putRx n sd v).trunks = s.trunks := rfl
@[simp] theorem putRx_lls (s : State) (n : Nat) (sd : Side) (v : RxSt) : (s.putRx n sd v).lls = s.lls := rfl
@[simp] theorem putRx_sides (s : State) (n : Nat) (sd : Side) (v : RxSt) : (s.putRx n sd v).sides = s.sides := rfl
@[simp] theorem putRx_spans (s : State) (n : Nat) (sd : Side) (v : RxSt) : (s.putRx n sd v).spans = s.spans := rfl
@[simp] theorem putRx_links (s : State) (n : Nat) (sd : Side) (v : RxSt) : (s.putRx n sd v).links = s.links := rfl
@[simp] theorem putRx_tx (s : State) (n : Nat) (sd : Side) (v : RxSt) : (s.putRx n sd v).tx = s.tx := rfl
@[simp] theorem putRx_cks (s : State) (n : Nat) (sd : Side) (v : RxSt) : (s.putRx n sd v).cks = s.cks := rfl
@[simp] theorem putRx_ckEnds (s : State) (n : Nat) (sd : Side) (v : RxSt) : (s.putRx n sd v).ckEnds = s.ckEnds := rfl
@[simp] theorem putRx_coef (s : State) (n : Nat) (sd : Side) (v : RxSt) : (s.putRx n sd v).coef = s.coef := rfl
@[simp] theorem putRx_adapt (s : State) (n : Nat) (sd : Side) (v : RxSt) : (s.putRx n sd v).adapt = s.adapt := rfl
@[simp] theorem putRx_cal (s : State) (n : Nat) (sd : Side) (v : RxSt) : (s.putRx n sd v).cal = s.cal := rfl
@[simp] theorem putRx_maps (s : State) (n : Nat) (sd : Side) (v : RxSt) : (s.putRx n sd v).maps = s.maps := rfl
@[simp] theorem putRx_bobs (s : State) (n : Nat) (sd : Side) (v : RxSt) : (s.putRx n sd v).bobs = s.bobs := rfl
@[simp] theorem putRx_prk (s : State) (n : Nat) (sd : Side) (v : RxSt) : (s.putRx n sd v).prk = s.prk := rfl
@[simp] theorem putRx_bt (s : State) (n : Nat) (sd : Side) (v : RxSt) : (s.putRx n sd v).bt = s.bt := rfl
@[simp] theorem putRx_plv (s : State) (n : Nat) (sd : Side) (v : RxSt) : (s.putRx n sd v).plv = s.plv := rfl
@[simp] theorem putRx_clk (s : State) (n : Nat) (sd : Side) (v : RxSt) : (s.putRx n sd v).clk = s.clk := rfl
@[simp] theorem putRx_ring (s : State) (n : Nat) (sd : Side) (v : RxSt) : (s.putRx n sd v).ring = s.ring := rfl
@[simp] theorem putRx_entries (s : State) (n : Nat) (sd : Side) (v : RxSt) : (s.putRx n sd v).entries = s.entries := rfl
@[simp] theorem putRx_host (s : State) (n : Nat) (sd : Side) (v : RxSt) : (s.putRx n sd v).host = s.host := rfl
@[simp] theorem putRx_sel (s : State) (n : Nat) (sd : Side) (v : RxSt) : (s.putRx n sd v).sel = s.sel := rfl
@[simp] theorem putRx_sec (s : State) (n : Nat) (sd : Side) (v : RxSt) : (s.putRx n sd v).sec = s.sec := rfl
@[simp] theorem putRx_bist (s : State) (n : Nat) (sd : Side) (v : RxSt) : (s.putRx n sd v).bist = s.bist := rfl
@[simp] theorem putRx_prbs (s : State) (n : Nat) (sd : Side) (v : RxSt) : (s.putRx n sd v).prbs = s.prbs := rfl
@[simp] theorem putRx_sup (s : State) (n : Nat) (sd : Side) (v : RxSt) : (s.putRx n sd v).sup = s.sup := rfl
@[simp] theorem putRx_rd (s : State) (n : Nat) (sd : Side) (v : RxSt) (g : Fld) : (s.putRx n sd v).rd g = s.rd g := rfl
@[simp] theorem putRx_on (s : State) (n : Nat) (sd : Side) (v : RxSt) (g : Fld) : (s.putRx n sd v).on g = s.on g := rfl
@[simp] theorem putRx_live (s : State) (n : Nat) (sd : Side) (v : RxSt) (g : Fld) : (s.putRx n sd v).live g = s.live g := rfl

@[simp] theorem putTx_regs (s : State) (n : Nat) (sd : Side) (v : TxSt) : (s.putTx n sd v).regs = s.regs := rfl
@[simp] theorem putTx_cnt (s : State) (n : Nat) (sd : Side) (v : TxSt) : (s.putTx n sd v).cnt = s.cnt := rfl
@[simp] theorem putTx_pending (s : State) (n : Nat) (sd : Side) (v : TxSt) : (s.putTx n sd v).pending = s.pending := rfl
@[simp] theorem putTx_freeCtr (s : State) (n : Nat) (sd : Side) (v : TxSt) : (s.putTx n sd v).freeCtr = s.freeCtr := rfl
@[simp] theorem putTx_fab (s : State) (n : Nat) (sd : Side) (v : TxSt) : (s.putTx n sd v).fab = s.fab := rfl
@[simp] theorem putTx_clock (s : State) (n : Nat) (sd : Side) (v : TxSt) : (s.putTx n sd v).clock = s.clock := rfl
@[simp] theorem putTx_fuse (s : State) (n : Nat) (sd : Side) (v : TxSt) : (s.putTx n sd v).fuse = s.fuse := rfl
@[simp] theorem putTx_dev (s : State) (n : Nat) (sd : Side) (v : TxSt) : (s.putTx n sd v).dev = s.dev := rfl
@[simp] theorem putTx_slots (s : State) (n : Nat) (sd : Side) (v : TxSt) : (s.putTx n sd v).slots = s.slots := rfl
@[simp] theorem putTx_dies (s : State) (n : Nat) (sd : Side) (v : TxSt) : (s.putTx n sd v).dies = s.dies := rfl
@[simp] theorem putTx_flows (s : State) (n : Nat) (sd : Side) (v : TxSt) : (s.putTx n sd v).flows = s.flows := rfl
@[simp] theorem putTx_trunks (s : State) (n : Nat) (sd : Side) (v : TxSt) : (s.putTx n sd v).trunks = s.trunks := rfl
@[simp] theorem putTx_lls (s : State) (n : Nat) (sd : Side) (v : TxSt) : (s.putTx n sd v).lls = s.lls := rfl
@[simp] theorem putTx_sides (s : State) (n : Nat) (sd : Side) (v : TxSt) : (s.putTx n sd v).sides = s.sides := rfl
@[simp] theorem putTx_spans (s : State) (n : Nat) (sd : Side) (v : TxSt) : (s.putTx n sd v).spans = s.spans := rfl
@[simp] theorem putTx_links (s : State) (n : Nat) (sd : Side) (v : TxSt) : (s.putTx n sd v).links = s.links := rfl
@[simp] theorem putTx_rx (s : State) (n : Nat) (sd : Side) (v : TxSt) : (s.putTx n sd v).rx = s.rx := rfl
@[simp] theorem putTx_cks (s : State) (n : Nat) (sd : Side) (v : TxSt) : (s.putTx n sd v).cks = s.cks := rfl
@[simp] theorem putTx_ckEnds (s : State) (n : Nat) (sd : Side) (v : TxSt) : (s.putTx n sd v).ckEnds = s.ckEnds := rfl
@[simp] theorem putTx_coef (s : State) (n : Nat) (sd : Side) (v : TxSt) : (s.putTx n sd v).coef = s.coef := rfl
@[simp] theorem putTx_adapt (s : State) (n : Nat) (sd : Side) (v : TxSt) : (s.putTx n sd v).adapt = s.adapt := rfl
@[simp] theorem putTx_cal (s : State) (n : Nat) (sd : Side) (v : TxSt) : (s.putTx n sd v).cal = s.cal := rfl
@[simp] theorem putTx_maps (s : State) (n : Nat) (sd : Side) (v : TxSt) : (s.putTx n sd v).maps = s.maps := rfl
@[simp] theorem putTx_bobs (s : State) (n : Nat) (sd : Side) (v : TxSt) : (s.putTx n sd v).bobs = s.bobs := rfl
@[simp] theorem putTx_prk (s : State) (n : Nat) (sd : Side) (v : TxSt) : (s.putTx n sd v).prk = s.prk := rfl
@[simp] theorem putTx_bt (s : State) (n : Nat) (sd : Side) (v : TxSt) : (s.putTx n sd v).bt = s.bt := rfl
@[simp] theorem putTx_plv (s : State) (n : Nat) (sd : Side) (v : TxSt) : (s.putTx n sd v).plv = s.plv := rfl
@[simp] theorem putTx_clk (s : State) (n : Nat) (sd : Side) (v : TxSt) : (s.putTx n sd v).clk = s.clk := rfl
@[simp] theorem putTx_ring (s : State) (n : Nat) (sd : Side) (v : TxSt) : (s.putTx n sd v).ring = s.ring := rfl
@[simp] theorem putTx_entries (s : State) (n : Nat) (sd : Side) (v : TxSt) : (s.putTx n sd v).entries = s.entries := rfl
@[simp] theorem putTx_host (s : State) (n : Nat) (sd : Side) (v : TxSt) : (s.putTx n sd v).host = s.host := rfl
@[simp] theorem putTx_sel (s : State) (n : Nat) (sd : Side) (v : TxSt) : (s.putTx n sd v).sel = s.sel := rfl
@[simp] theorem putTx_sec (s : State) (n : Nat) (sd : Side) (v : TxSt) : (s.putTx n sd v).sec = s.sec := rfl
@[simp] theorem putTx_bist (s : State) (n : Nat) (sd : Side) (v : TxSt) : (s.putTx n sd v).bist = s.bist := rfl
@[simp] theorem putTx_prbs (s : State) (n : Nat) (sd : Side) (v : TxSt) : (s.putTx n sd v).prbs = s.prbs := rfl
@[simp] theorem putTx_sup (s : State) (n : Nat) (sd : Side) (v : TxSt) : (s.putTx n sd v).sup = s.sup := rfl
@[simp] theorem putTx_rd (s : State) (n : Nat) (sd : Side) (v : TxSt) (g : Fld) : (s.putTx n sd v).rd g = s.rd g := rfl
@[simp] theorem putTx_on (s : State) (n : Nat) (sd : Side) (v : TxSt) (g : Fld) : (s.putTx n sd v).on g = s.on g := rfl
@[simp] theorem putTx_live (s : State) (n : Nat) (sd : Side) (v : TxSt) (g : Fld) : (s.putTx n sd v).live g = s.live g := rfl

@[simp] theorem putCk_regs (s : State) (c : Nat) (d : Dir) (v : CkSt) : (s.putCk c d v).regs = s.regs := rfl
@[simp] theorem putCk_cnt (s : State) (c : Nat) (d : Dir) (v : CkSt) : (s.putCk c d v).cnt = s.cnt := rfl
@[simp] theorem putCk_pending (s : State) (c : Nat) (d : Dir) (v : CkSt) : (s.putCk c d v).pending = s.pending := rfl
@[simp] theorem putCk_freeCtr (s : State) (c : Nat) (d : Dir) (v : CkSt) : (s.putCk c d v).freeCtr = s.freeCtr := rfl
@[simp] theorem putCk_fab (s : State) (c : Nat) (d : Dir) (v : CkSt) : (s.putCk c d v).fab = s.fab := rfl
@[simp] theorem putCk_clock (s : State) (c : Nat) (d : Dir) (v : CkSt) : (s.putCk c d v).clock = s.clock := rfl
@[simp] theorem putCk_fuse (s : State) (c : Nat) (d : Dir) (v : CkSt) : (s.putCk c d v).fuse = s.fuse := rfl
@[simp] theorem putCk_dev (s : State) (c : Nat) (d : Dir) (v : CkSt) : (s.putCk c d v).dev = s.dev := rfl
@[simp] theorem putCk_slots (s : State) (c : Nat) (d : Dir) (v : CkSt) : (s.putCk c d v).slots = s.slots := rfl
@[simp] theorem putCk_dies (s : State) (c : Nat) (d : Dir) (v : CkSt) : (s.putCk c d v).dies = s.dies := rfl
@[simp] theorem putCk_flows (s : State) (c : Nat) (d : Dir) (v : CkSt) : (s.putCk c d v).flows = s.flows := rfl
@[simp] theorem putCk_trunks (s : State) (c : Nat) (d : Dir) (v : CkSt) : (s.putCk c d v).trunks = s.trunks := rfl
@[simp] theorem putCk_lls (s : State) (c : Nat) (d : Dir) (v : CkSt) : (s.putCk c d v).lls = s.lls := rfl
@[simp] theorem putCk_sides (s : State) (c : Nat) (d : Dir) (v : CkSt) : (s.putCk c d v).sides = s.sides := rfl
@[simp] theorem putCk_spans (s : State) (c : Nat) (d : Dir) (v : CkSt) : (s.putCk c d v).spans = s.spans := rfl
@[simp] theorem putCk_links (s : State) (c : Nat) (d : Dir) (v : CkSt) : (s.putCk c d v).links = s.links := rfl
@[simp] theorem putCk_rx (s : State) (c : Nat) (d : Dir) (v : CkSt) : (s.putCk c d v).rx = s.rx := rfl
@[simp] theorem putCk_tx (s : State) (c : Nat) (d : Dir) (v : CkSt) : (s.putCk c d v).tx = s.tx := rfl
@[simp] theorem putCk_ckEnds (s : State) (c : Nat) (d : Dir) (v : CkSt) : (s.putCk c d v).ckEnds = s.ckEnds := rfl
@[simp] theorem putCk_coef (s : State) (c : Nat) (d : Dir) (v : CkSt) : (s.putCk c d v).coef = s.coef := rfl
@[simp] theorem putCk_adapt (s : State) (c : Nat) (d : Dir) (v : CkSt) : (s.putCk c d v).adapt = s.adapt := rfl
@[simp] theorem putCk_cal (s : State) (c : Nat) (d : Dir) (v : CkSt) : (s.putCk c d v).cal = s.cal := rfl
@[simp] theorem putCk_maps (s : State) (c : Nat) (d : Dir) (v : CkSt) : (s.putCk c d v).maps = s.maps := rfl
@[simp] theorem putCk_bobs (s : State) (c : Nat) (d : Dir) (v : CkSt) : (s.putCk c d v).bobs = s.bobs := rfl
@[simp] theorem putCk_prk (s : State) (c : Nat) (d : Dir) (v : CkSt) : (s.putCk c d v).prk = s.prk := rfl
@[simp] theorem putCk_bt (s : State) (c : Nat) (d : Dir) (v : CkSt) : (s.putCk c d v).bt = s.bt := rfl
@[simp] theorem putCk_plv (s : State) (c : Nat) (d : Dir) (v : CkSt) : (s.putCk c d v).plv = s.plv := rfl
@[simp] theorem putCk_clk (s : State) (c : Nat) (d : Dir) (v : CkSt) : (s.putCk c d v).clk = s.clk := rfl
@[simp] theorem putCk_ring (s : State) (c : Nat) (d : Dir) (v : CkSt) : (s.putCk c d v).ring = s.ring := rfl
@[simp] theorem putCk_entries (s : State) (c : Nat) (d : Dir) (v : CkSt) : (s.putCk c d v).entries = s.entries := rfl
@[simp] theorem putCk_host (s : State) (c : Nat) (d : Dir) (v : CkSt) : (s.putCk c d v).host = s.host := rfl
@[simp] theorem putCk_sel (s : State) (c : Nat) (d : Dir) (v : CkSt) : (s.putCk c d v).sel = s.sel := rfl
@[simp] theorem putCk_sec (s : State) (c : Nat) (d : Dir) (v : CkSt) : (s.putCk c d v).sec = s.sec := rfl
@[simp] theorem putCk_bist (s : State) (c : Nat) (d : Dir) (v : CkSt) : (s.putCk c d v).bist = s.bist := rfl
@[simp] theorem putCk_prbs (s : State) (c : Nat) (d : Dir) (v : CkSt) : (s.putCk c d v).prbs = s.prbs := rfl
@[simp] theorem putCk_sup (s : State) (c : Nat) (d : Dir) (v : CkSt) : (s.putCk c d v).sup = s.sup := rfl
@[simp] theorem putCk_rd (s : State) (c : Nat) (d : Dir) (v : CkSt) (g : Fld) : (s.putCk c d v).rd g = s.rd g := rfl
@[simp] theorem putCk_on (s : State) (c : Nat) (d : Dir) (v : CkSt) (g : Fld) : (s.putCk c d v).on g = s.on g := rfl
@[simp] theorem putCk_live (s : State) (c : Nat) (d : Dir) (v : CkSt) (g : Fld) : (s.putCk c d v).live g = s.live g := rfl

@[simp] theorem putCkEntry_regs (s : State) (c : Nat) (d : Dir) (v : CkEnd) : (s.putCkEntry c d v).regs = s.regs := rfl
@[simp] theorem putCkEntry_cnt (s : State) (c : Nat) (d : Dir) (v : CkEnd) : (s.putCkEntry c d v).cnt = s.cnt := rfl
@[simp] theorem putCkEntry_pending (s : State) (c : Nat) (d : Dir) (v : CkEnd) : (s.putCkEntry c d v).pending = s.pending := rfl
@[simp] theorem putCkEntry_freeCtr (s : State) (c : Nat) (d : Dir) (v : CkEnd) : (s.putCkEntry c d v).freeCtr = s.freeCtr := rfl
@[simp] theorem putCkEntry_fab (s : State) (c : Nat) (d : Dir) (v : CkEnd) : (s.putCkEntry c d v).fab = s.fab := rfl
@[simp] theorem putCkEntry_clock (s : State) (c : Nat) (d : Dir) (v : CkEnd) : (s.putCkEntry c d v).clock = s.clock := rfl
@[simp] theorem putCkEntry_fuse (s : State) (c : Nat) (d : Dir) (v : CkEnd) : (s.putCkEntry c d v).fuse = s.fuse := rfl
@[simp] theorem putCkEntry_dev (s : State) (c : Nat) (d : Dir) (v : CkEnd) : (s.putCkEntry c d v).dev = s.dev := rfl
@[simp] theorem putCkEntry_slots (s : State) (c : Nat) (d : Dir) (v : CkEnd) : (s.putCkEntry c d v).slots = s.slots := rfl
@[simp] theorem putCkEntry_dies (s : State) (c : Nat) (d : Dir) (v : CkEnd) : (s.putCkEntry c d v).dies = s.dies := rfl
@[simp] theorem putCkEntry_flows (s : State) (c : Nat) (d : Dir) (v : CkEnd) : (s.putCkEntry c d v).flows = s.flows := rfl
@[simp] theorem putCkEntry_trunks (s : State) (c : Nat) (d : Dir) (v : CkEnd) : (s.putCkEntry c d v).trunks = s.trunks := rfl
@[simp] theorem putCkEntry_lls (s : State) (c : Nat) (d : Dir) (v : CkEnd) : (s.putCkEntry c d v).lls = s.lls := rfl
@[simp] theorem putCkEntry_sides (s : State) (c : Nat) (d : Dir) (v : CkEnd) : (s.putCkEntry c d v).sides = s.sides := rfl
@[simp] theorem putCkEntry_spans (s : State) (c : Nat) (d : Dir) (v : CkEnd) : (s.putCkEntry c d v).spans = s.spans := rfl
@[simp] theorem putCkEntry_links (s : State) (c : Nat) (d : Dir) (v : CkEnd) : (s.putCkEntry c d v).links = s.links := rfl
@[simp] theorem putCkEntry_rx (s : State) (c : Nat) (d : Dir) (v : CkEnd) : (s.putCkEntry c d v).rx = s.rx := rfl
@[simp] theorem putCkEntry_tx (s : State) (c : Nat) (d : Dir) (v : CkEnd) : (s.putCkEntry c d v).tx = s.tx := rfl
@[simp] theorem putCkEntry_cks (s : State) (c : Nat) (d : Dir) (v : CkEnd) : (s.putCkEntry c d v).cks = s.cks := rfl
@[simp] theorem putCkEntry_coef (s : State) (c : Nat) (d : Dir) (v : CkEnd) : (s.putCkEntry c d v).coef = s.coef := rfl
@[simp] theorem putCkEntry_adapt (s : State) (c : Nat) (d : Dir) (v : CkEnd) : (s.putCkEntry c d v).adapt = s.adapt := rfl
@[simp] theorem putCkEntry_cal (s : State) (c : Nat) (d : Dir) (v : CkEnd) : (s.putCkEntry c d v).cal = s.cal := rfl
@[simp] theorem putCkEntry_maps (s : State) (c : Nat) (d : Dir) (v : CkEnd) : (s.putCkEntry c d v).maps = s.maps := rfl
@[simp] theorem putCkEntry_bobs (s : State) (c : Nat) (d : Dir) (v : CkEnd) : (s.putCkEntry c d v).bobs = s.bobs := rfl
@[simp] theorem putCkEntry_prk (s : State) (c : Nat) (d : Dir) (v : CkEnd) : (s.putCkEntry c d v).prk = s.prk := rfl
@[simp] theorem putCkEntry_bt (s : State) (c : Nat) (d : Dir) (v : CkEnd) : (s.putCkEntry c d v).bt = s.bt := rfl
@[simp] theorem putCkEntry_plv (s : State) (c : Nat) (d : Dir) (v : CkEnd) : (s.putCkEntry c d v).plv = s.plv := rfl
@[simp] theorem putCkEntry_clk (s : State) (c : Nat) (d : Dir) (v : CkEnd) : (s.putCkEntry c d v).clk = s.clk := rfl
@[simp] theorem putCkEntry_ring (s : State) (c : Nat) (d : Dir) (v : CkEnd) : (s.putCkEntry c d v).ring = s.ring := rfl
@[simp] theorem putCkEntry_entries (s : State) (c : Nat) (d : Dir) (v : CkEnd) : (s.putCkEntry c d v).entries = s.entries := rfl
@[simp] theorem putCkEntry_host (s : State) (c : Nat) (d : Dir) (v : CkEnd) : (s.putCkEntry c d v).host = s.host := rfl
@[simp] theorem putCkEntry_sel (s : State) (c : Nat) (d : Dir) (v : CkEnd) : (s.putCkEntry c d v).sel = s.sel := rfl
@[simp] theorem putCkEntry_sec (s : State) (c : Nat) (d : Dir) (v : CkEnd) : (s.putCkEntry c d v).sec = s.sec := rfl
@[simp] theorem putCkEntry_bist (s : State) (c : Nat) (d : Dir) (v : CkEnd) : (s.putCkEntry c d v).bist = s.bist := rfl
@[simp] theorem putCkEntry_prbs (s : State) (c : Nat) (d : Dir) (v : CkEnd) : (s.putCkEntry c d v).prbs = s.prbs := rfl
@[simp] theorem putCkEntry_sup (s : State) (c : Nat) (d : Dir) (v : CkEnd) : (s.putCkEntry c d v).sup = s.sup := rfl
@[simp] theorem putCkEntry_rd (s : State) (c : Nat) (d : Dir) (v : CkEnd) (g : Fld) : (s.putCkEntry c d v).rd g = s.rd g := rfl
@[simp] theorem putCkEntry_on (s : State) (c : Nat) (d : Dir) (v : CkEnd) (g : Fld) : (s.putCkEntry c d v).on g = s.on g := rfl
@[simp] theorem putCkEntry_live (s : State) (c : Nat) (d : Dir) (v : CkEnd) (g : Fld) : (s.putCkEntry c d v).live g = s.live g := rfl

@[simp] theorem putCkExit_regs (s : State) (c : Nat) (d : Dir) (v : CkEnd) : (s.putCkExit c d v).regs = s.regs := rfl
@[simp] theorem putCkExit_cnt (s : State) (c : Nat) (d : Dir) (v : CkEnd) : (s.putCkExit c d v).cnt = s.cnt := rfl
@[simp] theorem putCkExit_pending (s : State) (c : Nat) (d : Dir) (v : CkEnd) : (s.putCkExit c d v).pending = s.pending := rfl
@[simp] theorem putCkExit_freeCtr (s : State) (c : Nat) (d : Dir) (v : CkEnd) : (s.putCkExit c d v).freeCtr = s.freeCtr := rfl
@[simp] theorem putCkExit_fab (s : State) (c : Nat) (d : Dir) (v : CkEnd) : (s.putCkExit c d v).fab = s.fab := rfl
@[simp] theorem putCkExit_clock (s : State) (c : Nat) (d : Dir) (v : CkEnd) : (s.putCkExit c d v).clock = s.clock := rfl
@[simp] theorem putCkExit_fuse (s : State) (c : Nat) (d : Dir) (v : CkEnd) : (s.putCkExit c d v).fuse = s.fuse := rfl
@[simp] theorem putCkExit_dev (s : State) (c : Nat) (d : Dir) (v : CkEnd) : (s.putCkExit c d v).dev = s.dev := rfl
@[simp] theorem putCkExit_slots (s : State) (c : Nat) (d : Dir) (v : CkEnd) : (s.putCkExit c d v).slots = s.slots := rfl
@[simp] theorem putCkExit_dies (s : State) (c : Nat) (d : Dir) (v : CkEnd) : (s.putCkExit c d v).dies = s.dies := rfl
@[simp] theorem putCkExit_flows (s : State) (c : Nat) (d : Dir) (v : CkEnd) : (s.putCkExit c d v).flows = s.flows := rfl
@[simp] theorem putCkExit_trunks (s : State) (c : Nat) (d : Dir) (v : CkEnd) : (s.putCkExit c d v).trunks = s.trunks := rfl
@[simp] theorem putCkExit_lls (s : State) (c : Nat) (d : Dir) (v : CkEnd) : (s.putCkExit c d v).lls = s.lls := rfl
@[simp] theorem putCkExit_sides (s : State) (c : Nat) (d : Dir) (v : CkEnd) : (s.putCkExit c d v).sides = s.sides := rfl
@[simp] theorem putCkExit_spans (s : State) (c : Nat) (d : Dir) (v : CkEnd) : (s.putCkExit c d v).spans = s.spans := rfl
@[simp] theorem putCkExit_links (s : State) (c : Nat) (d : Dir) (v : CkEnd) : (s.putCkExit c d v).links = s.links := rfl
@[simp] theorem putCkExit_rx (s : State) (c : Nat) (d : Dir) (v : CkEnd) : (s.putCkExit c d v).rx = s.rx := rfl
@[simp] theorem putCkExit_tx (s : State) (c : Nat) (d : Dir) (v : CkEnd) : (s.putCkExit c d v).tx = s.tx := rfl
@[simp] theorem putCkExit_cks (s : State) (c : Nat) (d : Dir) (v : CkEnd) : (s.putCkExit c d v).cks = s.cks := rfl
@[simp] theorem putCkExit_coef (s : State) (c : Nat) (d : Dir) (v : CkEnd) : (s.putCkExit c d v).coef = s.coef := rfl
@[simp] theorem putCkExit_adapt (s : State) (c : Nat) (d : Dir) (v : CkEnd) : (s.putCkExit c d v).adapt = s.adapt := rfl
@[simp] theorem putCkExit_cal (s : State) (c : Nat) (d : Dir) (v : CkEnd) : (s.putCkExit c d v).cal = s.cal := rfl
@[simp] theorem putCkExit_maps (s : State) (c : Nat) (d : Dir) (v : CkEnd) : (s.putCkExit c d v).maps = s.maps := rfl
@[simp] theorem putCkExit_bobs (s : State) (c : Nat) (d : Dir) (v : CkEnd) : (s.putCkExit c d v).bobs = s.bobs := rfl
@[simp] theorem putCkExit_prk (s : State) (c : Nat) (d : Dir) (v : CkEnd) : (s.putCkExit c d v).prk = s.prk := rfl
@[simp] theorem putCkExit_bt (s : State) (c : Nat) (d : Dir) (v : CkEnd) : (s.putCkExit c d v).bt = s.bt := rfl
@[simp] theorem putCkExit_plv (s : State) (c : Nat) (d : Dir) (v : CkEnd) : (s.putCkExit c d v).plv = s.plv := rfl
@[simp] theorem putCkExit_clk (s : State) (c : Nat) (d : Dir) (v : CkEnd) : (s.putCkExit c d v).clk = s.clk := rfl
@[simp] theorem putCkExit_ring (s : State) (c : Nat) (d : Dir) (v : CkEnd) : (s.putCkExit c d v).ring = s.ring := rfl
@[simp] theorem putCkExit_entries (s : State) (c : Nat) (d : Dir) (v : CkEnd) : (s.putCkExit c d v).entries = s.entries := rfl
@[simp] theorem putCkExit_host (s : State) (c : Nat) (d : Dir) (v : CkEnd) : (s.putCkExit c d v).host = s.host := rfl
@[simp] theorem putCkExit_sel (s : State) (c : Nat) (d : Dir) (v : CkEnd) : (s.putCkExit c d v).sel = s.sel := rfl
@[simp] theorem putCkExit_sec (s : State) (c : Nat) (d : Dir) (v : CkEnd) : (s.putCkExit c d v).sec = s.sec := rfl
@[simp] theorem putCkExit_bist (s : State) (c : Nat) (d : Dir) (v : CkEnd) : (s.putCkExit c d v).bist = s.bist := rfl
@[simp] theorem putCkExit_prbs (s : State) (c : Nat) (d : Dir) (v : CkEnd) : (s.putCkExit c d v).prbs = s.prbs := rfl
@[simp] theorem putCkExit_sup (s : State) (c : Nat) (d : Dir) (v : CkEnd) : (s.putCkExit c d v).sup = s.sup := rfl
@[simp] theorem putCkExit_rd (s : State) (c : Nat) (d : Dir) (v : CkEnd) (g : Fld) : (s.putCkExit c d v).rd g = s.rd g := rfl
@[simp] theorem putCkExit_on (s : State) (c : Nat) (d : Dir) (v : CkEnd) (g : Fld) : (s.putCkExit c d v).on g = s.on g := rfl
@[simp] theorem putCkExit_live (s : State) (c : Nat) (d : Dir) (v : CkEnd) (g : Fld) : (s.putCkExit c d v).live g = s.live g := rfl

@[simp] theorem putLl_regs (s : State) (l : Nat) (v : LlSt) : (s.putLl l v).regs = s.regs := rfl
@[simp] theorem putLl_cnt (s : State) (l : Nat) (v : LlSt) : (s.putLl l v).cnt = s.cnt := rfl
@[simp] theorem putLl_pending (s : State) (l : Nat) (v : LlSt) : (s.putLl l v).pending = s.pending := rfl
@[simp] theorem putLl_freeCtr (s : State) (l : Nat) (v : LlSt) : (s.putLl l v).freeCtr = s.freeCtr := rfl
@[simp] theorem putLl_fab (s : State) (l : Nat) (v : LlSt) : (s.putLl l v).fab = s.fab := rfl
@[simp] theorem putLl_clock (s : State) (l : Nat) (v : LlSt) : (s.putLl l v).clock = s.clock := rfl
@[simp] theorem putLl_fuse (s : State) (l : Nat) (v : LlSt) : (s.putLl l v).fuse = s.fuse := rfl
@[simp] theorem putLl_dev (s : State) (l : Nat) (v : LlSt) : (s.putLl l v).dev = s.dev := rfl
@[simp] theorem putLl_slots (s : State) (l : Nat) (v : LlSt) : (s.putLl l v).slots = s.slots := rfl
@[simp] theorem putLl_dies (s : State) (l : Nat) (v : LlSt) : (s.putLl l v).dies = s.dies := rfl
@[simp] theorem putLl_flows (s : State) (l : Nat) (v : LlSt) : (s.putLl l v).flows = s.flows := rfl
@[simp] theorem putLl_trunks (s : State) (l : Nat) (v : LlSt) : (s.putLl l v).trunks = s.trunks := rfl
@[simp] theorem putLl_sides (s : State) (l : Nat) (v : LlSt) : (s.putLl l v).sides = s.sides := rfl
@[simp] theorem putLl_spans (s : State) (l : Nat) (v : LlSt) : (s.putLl l v).spans = s.spans := rfl
@[simp] theorem putLl_links (s : State) (l : Nat) (v : LlSt) : (s.putLl l v).links = s.links := rfl
@[simp] theorem putLl_rx (s : State) (l : Nat) (v : LlSt) : (s.putLl l v).rx = s.rx := rfl
@[simp] theorem putLl_tx (s : State) (l : Nat) (v : LlSt) : (s.putLl l v).tx = s.tx := rfl
@[simp] theorem putLl_cks (s : State) (l : Nat) (v : LlSt) : (s.putLl l v).cks = s.cks := rfl
@[simp] theorem putLl_ckEnds (s : State) (l : Nat) (v : LlSt) : (s.putLl l v).ckEnds = s.ckEnds := rfl
@[simp] theorem putLl_coef (s : State) (l : Nat) (v : LlSt) : (s.putLl l v).coef = s.coef := rfl
@[simp] theorem putLl_adapt (s : State) (l : Nat) (v : LlSt) : (s.putLl l v).adapt = s.adapt := rfl
@[simp] theorem putLl_cal (s : State) (l : Nat) (v : LlSt) : (s.putLl l v).cal = s.cal := rfl
@[simp] theorem putLl_maps (s : State) (l : Nat) (v : LlSt) : (s.putLl l v).maps = s.maps := rfl
@[simp] theorem putLl_bobs (s : State) (l : Nat) (v : LlSt) : (s.putLl l v).bobs = s.bobs := rfl
@[simp] theorem putLl_prk (s : State) (l : Nat) (v : LlSt) : (s.putLl l v).prk = s.prk := rfl
@[simp] theorem putLl_bt (s : State) (l : Nat) (v : LlSt) : (s.putLl l v).bt = s.bt := rfl
@[simp] theorem putLl_plv (s : State) (l : Nat) (v : LlSt) : (s.putLl l v).plv = s.plv := rfl
@[simp] theorem putLl_clk (s : State) (l : Nat) (v : LlSt) : (s.putLl l v).clk = s.clk := rfl
@[simp] theorem putLl_ring (s : State) (l : Nat) (v : LlSt) : (s.putLl l v).ring = s.ring := rfl
@[simp] theorem putLl_entries (s : State) (l : Nat) (v : LlSt) : (s.putLl l v).entries = s.entries := rfl
@[simp] theorem putLl_host (s : State) (l : Nat) (v : LlSt) : (s.putLl l v).host = s.host := rfl
@[simp] theorem putLl_sel (s : State) (l : Nat) (v : LlSt) : (s.putLl l v).sel = s.sel := rfl
@[simp] theorem putLl_sec (s : State) (l : Nat) (v : LlSt) : (s.putLl l v).sec = s.sec := rfl
@[simp] theorem putLl_bist (s : State) (l : Nat) (v : LlSt) : (s.putLl l v).bist = s.bist := rfl
@[simp] theorem putLl_prbs (s : State) (l : Nat) (v : LlSt) : (s.putLl l v).prbs = s.prbs := rfl
@[simp] theorem putLl_sup (s : State) (l : Nat) (v : LlSt) : (s.putLl l v).sup = s.sup := rfl
@[simp] theorem putLl_rd (s : State) (l : Nat) (v : LlSt) (g : Fld) : (s.putLl l v).rd g = s.rd g := rfl
@[simp] theorem putLl_on (s : State) (l : Nat) (v : LlSt) (g : Fld) : (s.putLl l v).on g = s.on g := rfl
@[simp] theorem putLl_live (s : State) (l : Nat) (v : LlSt) (g : Fld) : (s.putLl l v).live g = s.live g := rfl

@[simp] theorem putTrunk_regs (s : State) (t : Nat) (v : TrunkSt) : (s.putTrunk t v).regs = s.regs := rfl
@[simp] theorem putTrunk_cnt (s : State) (t : Nat) (v : TrunkSt) : (s.putTrunk t v).cnt = s.cnt := rfl
@[simp] theorem putTrunk_pending (s : State) (t : Nat) (v : TrunkSt) : (s.putTrunk t v).pending = s.pending := rfl
@[simp] theorem putTrunk_freeCtr (s : State) (t : Nat) (v : TrunkSt) : (s.putTrunk t v).freeCtr = s.freeCtr := rfl
@[simp] theorem putTrunk_fab (s : State) (t : Nat) (v : TrunkSt) : (s.putTrunk t v).fab = s.fab := rfl
@[simp] theorem putTrunk_clock (s : State) (t : Nat) (v : TrunkSt) : (s.putTrunk t v).clock = s.clock := rfl
@[simp] theorem putTrunk_fuse (s : State) (t : Nat) (v : TrunkSt) : (s.putTrunk t v).fuse = s.fuse := rfl
@[simp] theorem putTrunk_dev (s : State) (t : Nat) (v : TrunkSt) : (s.putTrunk t v).dev = s.dev := rfl
@[simp] theorem putTrunk_slots (s : State) (t : Nat) (v : TrunkSt) : (s.putTrunk t v).slots = s.slots := rfl
@[simp] theorem putTrunk_dies (s : State) (t : Nat) (v : TrunkSt) : (s.putTrunk t v).dies = s.dies := rfl
@[simp] theorem putTrunk_flows (s : State) (t : Nat) (v : TrunkSt) : (s.putTrunk t v).flows = s.flows := rfl
@[simp] theorem putTrunk_lls (s : State) (t : Nat) (v : TrunkSt) : (s.putTrunk t v).lls = s.lls := rfl
@[simp] theorem putTrunk_sides (s : State) (t : Nat) (v : TrunkSt) : (s.putTrunk t v).sides = s.sides := rfl
@[simp] theorem putTrunk_spans (s : State) (t : Nat) (v : TrunkSt) : (s.putTrunk t v).spans = s.spans := rfl
@[simp] theorem putTrunk_links (s : State) (t : Nat) (v : TrunkSt) : (s.putTrunk t v).links = s.links := rfl
@[simp] theorem putTrunk_rx (s : State) (t : Nat) (v : TrunkSt) : (s.putTrunk t v).rx = s.rx := rfl
@[simp] theorem putTrunk_tx (s : State) (t : Nat) (v : TrunkSt) : (s.putTrunk t v).tx = s.tx := rfl
@[simp] theorem putTrunk_cks (s : State) (t : Nat) (v : TrunkSt) : (s.putTrunk t v).cks = s.cks := rfl
@[simp] theorem putTrunk_ckEnds (s : State) (t : Nat) (v : TrunkSt) : (s.putTrunk t v).ckEnds = s.ckEnds := rfl
@[simp] theorem putTrunk_coef (s : State) (t : Nat) (v : TrunkSt) : (s.putTrunk t v).coef = s.coef := rfl
@[simp] theorem putTrunk_adapt (s : State) (t : Nat) (v : TrunkSt) : (s.putTrunk t v).adapt = s.adapt := rfl
@[simp] theorem putTrunk_cal (s : State) (t : Nat) (v : TrunkSt) : (s.putTrunk t v).cal = s.cal := rfl
@[simp] theorem putTrunk_maps (s : State) (t : Nat) (v : TrunkSt) : (s.putTrunk t v).maps = s.maps := rfl
@[simp] theorem putTrunk_bobs (s : State) (t : Nat) (v : TrunkSt) : (s.putTrunk t v).bobs = s.bobs := rfl
@[simp] theorem putTrunk_prk (s : State) (t : Nat) (v : TrunkSt) : (s.putTrunk t v).prk = s.prk := rfl
@[simp] theorem putTrunk_bt (s : State) (t : Nat) (v : TrunkSt) : (s.putTrunk t v).bt = s.bt := rfl
@[simp] theorem putTrunk_plv (s : State) (t : Nat) (v : TrunkSt) : (s.putTrunk t v).plv = s.plv := rfl
@[simp] theorem putTrunk_clk (s : State) (t : Nat) (v : TrunkSt) : (s.putTrunk t v).clk = s.clk := rfl
@[simp] theorem putTrunk_ring (s : State) (t : Nat) (v : TrunkSt) : (s.putTrunk t v).ring = s.ring := rfl
@[simp] theorem putTrunk_entries (s : State) (t : Nat) (v : TrunkSt) : (s.putTrunk t v).entries = s.entries := rfl
@[simp] theorem putTrunk_host (s : State) (t : Nat) (v : TrunkSt) : (s.putTrunk t v).host = s.host := rfl
@[simp] theorem putTrunk_sel (s : State) (t : Nat) (v : TrunkSt) : (s.putTrunk t v).sel = s.sel := rfl
@[simp] theorem putTrunk_sec (s : State) (t : Nat) (v : TrunkSt) : (s.putTrunk t v).sec = s.sec := rfl
@[simp] theorem putTrunk_bist (s : State) (t : Nat) (v : TrunkSt) : (s.putTrunk t v).bist = s.bist := rfl
@[simp] theorem putTrunk_prbs (s : State) (t : Nat) (v : TrunkSt) : (s.putTrunk t v).prbs = s.prbs := rfl
@[simp] theorem putTrunk_sup (s : State) (t : Nat) (v : TrunkSt) : (s.putTrunk t v).sup = s.sup := rfl
@[simp] theorem putTrunk_rd (s : State) (t : Nat) (v : TrunkSt) (g : Fld) : (s.putTrunk t v).rd g = s.rd g := rfl
@[simp] theorem putTrunk_on (s : State) (t : Nat) (v : TrunkSt) (g : Fld) : (s.putTrunk t v).on g = s.on g := rfl
@[simp] theorem putTrunk_live (s : State) (t : Nat) (v : TrunkSt) (g : Fld) : (s.putTrunk t v).live g = s.live g := rfl

@[simp] theorem putFlow_regs (s : State) (f : Nat) (v : Flow) : (s.putFlow f v).regs = s.regs := rfl
@[simp] theorem putFlow_cnt (s : State) (f : Nat) (v : Flow) : (s.putFlow f v).cnt = s.cnt := rfl
@[simp] theorem putFlow_pending (s : State) (f : Nat) (v : Flow) : (s.putFlow f v).pending = s.pending := rfl
@[simp] theorem putFlow_freeCtr (s : State) (f : Nat) (v : Flow) : (s.putFlow f v).freeCtr = s.freeCtr := rfl
@[simp] theorem putFlow_fab (s : State) (f : Nat) (v : Flow) : (s.putFlow f v).fab = s.fab := rfl
@[simp] theorem putFlow_clock (s : State) (f : Nat) (v : Flow) : (s.putFlow f v).clock = s.clock := rfl
@[simp] theorem putFlow_fuse (s : State) (f : Nat) (v : Flow) : (s.putFlow f v).fuse = s.fuse := rfl
@[simp] theorem putFlow_dev (s : State) (f : Nat) (v : Flow) : (s.putFlow f v).dev = s.dev := rfl
@[simp] theorem putFlow_slots (s : State) (f : Nat) (v : Flow) : (s.putFlow f v).slots = s.slots := rfl
@[simp] theorem putFlow_dies (s : State) (f : Nat) (v : Flow) : (s.putFlow f v).dies = s.dies := rfl
@[simp] theorem putFlow_trunks (s : State) (f : Nat) (v : Flow) : (s.putFlow f v).trunks = s.trunks := rfl
@[simp] theorem putFlow_lls (s : State) (f : Nat) (v : Flow) : (s.putFlow f v).lls = s.lls := rfl
@[simp] theorem putFlow_sides (s : State) (f : Nat) (v : Flow) : (s.putFlow f v).sides = s.sides := rfl
@[simp] theorem putFlow_spans (s : State) (f : Nat) (v : Flow) : (s.putFlow f v).spans = s.spans := rfl
@[simp] theorem putFlow_links (s : State) (f : Nat) (v : Flow) : (s.putFlow f v).links = s.links := rfl
@[simp] theorem putFlow_rx (s : State) (f : Nat) (v : Flow) : (s.putFlow f v).rx = s.rx := rfl
@[simp] theorem putFlow_tx (s : State) (f : Nat) (v : Flow) : (s.putFlow f v).tx = s.tx := rfl
@[simp] theorem putFlow_cks (s : State) (f : Nat) (v : Flow) : (s.putFlow f v).cks = s.cks := rfl
@[simp] theorem putFlow_ckEnds (s : State) (f : Nat) (v : Flow) : (s.putFlow f v).ckEnds = s.ckEnds := rfl
@[simp] theorem putFlow_coef (s : State) (f : Nat) (v : Flow) : (s.putFlow f v).coef = s.coef := rfl
@[simp] theorem putFlow_adapt (s : State) (f : Nat) (v : Flow) : (s.putFlow f v).adapt = s.adapt := rfl
@[simp] theorem putFlow_cal (s : State) (f : Nat) (v : Flow) : (s.putFlow f v).cal = s.cal := rfl
@[simp] theorem putFlow_maps (s : State) (f : Nat) (v : Flow) : (s.putFlow f v).maps = s.maps := rfl
@[simp] theorem putFlow_bobs (s : State) (f : Nat) (v : Flow) : (s.putFlow f v).bobs = s.bobs := rfl
@[simp] theorem putFlow_prk (s : State) (f : Nat) (v : Flow) : (s.putFlow f v).prk = s.prk := rfl
@[simp] theorem putFlow_bt (s : State) (f : Nat) (v : Flow) : (s.putFlow f v).bt = s.bt := rfl
@[simp] theorem putFlow_plv (s : State) (f : Nat) (v : Flow) : (s.putFlow f v).plv = s.plv := rfl
@[simp] theorem putFlow_clk (s : State) (f : Nat) (v : Flow) : (s.putFlow f v).clk = s.clk := rfl
@[simp] theorem putFlow_ring (s : State) (f : Nat) (v : Flow) : (s.putFlow f v).ring = s.ring := rfl
@[simp] theorem putFlow_entries (s : State) (f : Nat) (v : Flow) : (s.putFlow f v).entries = s.entries := rfl
@[simp] theorem putFlow_host (s : State) (f : Nat) (v : Flow) : (s.putFlow f v).host = s.host := rfl
@[simp] theorem putFlow_sel (s : State) (f : Nat) (v : Flow) : (s.putFlow f v).sel = s.sel := rfl
@[simp] theorem putFlow_sec (s : State) (f : Nat) (v : Flow) : (s.putFlow f v).sec = s.sec := rfl
@[simp] theorem putFlow_bist (s : State) (f : Nat) (v : Flow) : (s.putFlow f v).bist = s.bist := rfl
@[simp] theorem putFlow_prbs (s : State) (f : Nat) (v : Flow) : (s.putFlow f v).prbs = s.prbs := rfl
@[simp] theorem putFlow_sup (s : State) (f : Nat) (v : Flow) : (s.putFlow f v).sup = s.sup := rfl
@[simp] theorem putFlow_rd (s : State) (f : Nat) (v : Flow) (g : Fld) : (s.putFlow f v).rd g = s.rd g := rfl
@[simp] theorem putFlow_on (s : State) (f : Nat) (v : Flow) (g : Fld) : (s.putFlow f v).on g = s.on g := rfl
@[simp] theorem putFlow_live (s : State) (f : Nat) (v : Flow) (g : Fld) : (s.putFlow f v).live g = s.live g := rfl

@[simp] theorem putPrbs_regs (s : State) (n : Nat) (v : PrbsSt) : (s.putPrbs n v).regs = s.regs := rfl
@[simp] theorem putPrbs_cnt (s : State) (n : Nat) (v : PrbsSt) : (s.putPrbs n v).cnt = s.cnt := rfl
@[simp] theorem putPrbs_pending (s : State) (n : Nat) (v : PrbsSt) : (s.putPrbs n v).pending = s.pending := rfl
@[simp] theorem putPrbs_freeCtr (s : State) (n : Nat) (v : PrbsSt) : (s.putPrbs n v).freeCtr = s.freeCtr := rfl
@[simp] theorem putPrbs_fab (s : State) (n : Nat) (v : PrbsSt) : (s.putPrbs n v).fab = s.fab := rfl
@[simp] theorem putPrbs_clock (s : State) (n : Nat) (v : PrbsSt) : (s.putPrbs n v).clock = s.clock := rfl
@[simp] theorem putPrbs_fuse (s : State) (n : Nat) (v : PrbsSt) : (s.putPrbs n v).fuse = s.fuse := rfl
@[simp] theorem putPrbs_dev (s : State) (n : Nat) (v : PrbsSt) : (s.putPrbs n v).dev = s.dev := rfl
@[simp] theorem putPrbs_slots (s : State) (n : Nat) (v : PrbsSt) : (s.putPrbs n v).slots = s.slots := rfl
@[simp] theorem putPrbs_dies (s : State) (n : Nat) (v : PrbsSt) : (s.putPrbs n v).dies = s.dies := rfl
@[simp] theorem putPrbs_flows (s : State) (n : Nat) (v : PrbsSt) : (s.putPrbs n v).flows = s.flows := rfl
@[simp] theorem putPrbs_trunks (s : State) (n : Nat) (v : PrbsSt) : (s.putPrbs n v).trunks = s.trunks := rfl
@[simp] theorem putPrbs_lls (s : State) (n : Nat) (v : PrbsSt) : (s.putPrbs n v).lls = s.lls := rfl
@[simp] theorem putPrbs_sides (s : State) (n : Nat) (v : PrbsSt) : (s.putPrbs n v).sides = s.sides := rfl
@[simp] theorem putPrbs_spans (s : State) (n : Nat) (v : PrbsSt) : (s.putPrbs n v).spans = s.spans := rfl
@[simp] theorem putPrbs_links (s : State) (n : Nat) (v : PrbsSt) : (s.putPrbs n v).links = s.links := rfl
@[simp] theorem putPrbs_rx (s : State) (n : Nat) (v : PrbsSt) : (s.putPrbs n v).rx = s.rx := rfl
@[simp] theorem putPrbs_tx (s : State) (n : Nat) (v : PrbsSt) : (s.putPrbs n v).tx = s.tx := rfl
@[simp] theorem putPrbs_cks (s : State) (n : Nat) (v : PrbsSt) : (s.putPrbs n v).cks = s.cks := rfl
@[simp] theorem putPrbs_ckEnds (s : State) (n : Nat) (v : PrbsSt) : (s.putPrbs n v).ckEnds = s.ckEnds := rfl
@[simp] theorem putPrbs_coef (s : State) (n : Nat) (v : PrbsSt) : (s.putPrbs n v).coef = s.coef := rfl
@[simp] theorem putPrbs_adapt (s : State) (n : Nat) (v : PrbsSt) : (s.putPrbs n v).adapt = s.adapt := rfl
@[simp] theorem putPrbs_cal (s : State) (n : Nat) (v : PrbsSt) : (s.putPrbs n v).cal = s.cal := rfl
@[simp] theorem putPrbs_maps (s : State) (n : Nat) (v : PrbsSt) : (s.putPrbs n v).maps = s.maps := rfl
@[simp] theorem putPrbs_bobs (s : State) (n : Nat) (v : PrbsSt) : (s.putPrbs n v).bobs = s.bobs := rfl
@[simp] theorem putPrbs_prk (s : State) (n : Nat) (v : PrbsSt) : (s.putPrbs n v).prk = s.prk := rfl
@[simp] theorem putPrbs_bt (s : State) (n : Nat) (v : PrbsSt) : (s.putPrbs n v).bt = s.bt := rfl
@[simp] theorem putPrbs_plv (s : State) (n : Nat) (v : PrbsSt) : (s.putPrbs n v).plv = s.plv := rfl
@[simp] theorem putPrbs_clk (s : State) (n : Nat) (v : PrbsSt) : (s.putPrbs n v).clk = s.clk := rfl
@[simp] theorem putPrbs_ring (s : State) (n : Nat) (v : PrbsSt) : (s.putPrbs n v).ring = s.ring := rfl
@[simp] theorem putPrbs_entries (s : State) (n : Nat) (v : PrbsSt) : (s.putPrbs n v).entries = s.entries := rfl
@[simp] theorem putPrbs_host (s : State) (n : Nat) (v : PrbsSt) : (s.putPrbs n v).host = s.host := rfl
@[simp] theorem putPrbs_sel (s : State) (n : Nat) (v : PrbsSt) : (s.putPrbs n v).sel = s.sel := rfl
@[simp] theorem putPrbs_sec (s : State) (n : Nat) (v : PrbsSt) : (s.putPrbs n v).sec = s.sec := rfl
@[simp] theorem putPrbs_bist (s : State) (n : Nat) (v : PrbsSt) : (s.putPrbs n v).bist = s.bist := rfl
@[simp] theorem putPrbs_sup (s : State) (n : Nat) (v : PrbsSt) : (s.putPrbs n v).sup = s.sup := rfl
@[simp] theorem putPrbs_rd (s : State) (n : Nat) (v : PrbsSt) (g : Fld) : (s.putPrbs n v).rd g = s.rd g := rfl
@[simp] theorem putPrbs_on (s : State) (n : Nat) (v : PrbsSt) (g : Fld) : (s.putPrbs n v).on g = s.on g := rfl
@[simp] theorem putPrbs_live (s : State) (n : Nat) (v : PrbsSt) (g : Fld) : (s.putPrbs n v).live g = s.live g := rfl

@[simp] theorem freshOut_regs (s : State) : (s.freshOut).regs = s.regs := rfl
@[simp] theorem freshOut_cnt (s : State) : (s.freshOut).cnt = s.cnt := rfl
@[simp] theorem freshOut_pending (s : State) : (s.freshOut).pending = s.pending := rfl
@[simp] theorem freshOut_freeCtr (s : State) : (s.freshOut).freeCtr = s.freeCtr := rfl
@[simp] theorem freshOut_fab (s : State) : (s.freshOut).fab = s.fab := rfl
@[simp] theorem freshOut_clock (s : State) : (s.freshOut).clock = s.clock := rfl
@[simp] theorem freshOut_fuse (s : State) : (s.freshOut).fuse = s.fuse := rfl
@[simp] theorem freshOut_dev (s : State) : (s.freshOut).dev = s.dev := rfl
@[simp] theorem freshOut_slots (s : State) : (s.freshOut).slots = s.slots := rfl
@[simp] theorem freshOut_dies (s : State) : (s.freshOut).dies = s.dies := rfl
@[simp] theorem freshOut_flows (s : State) : (s.freshOut).flows = s.flows := rfl
@[simp] theorem freshOut_trunks (s : State) : (s.freshOut).trunks = s.trunks := rfl
@[simp] theorem freshOut_lls (s : State) : (s.freshOut).lls = s.lls := rfl
@[simp] theorem freshOut_sides (s : State) : (s.freshOut).sides = s.sides := rfl
@[simp] theorem freshOut_spans (s : State) : (s.freshOut).spans = s.spans := rfl
@[simp] theorem freshOut_links (s : State) : (s.freshOut).links = s.links := rfl
@[simp] theorem freshOut_rx (s : State) : (s.freshOut).rx = s.rx := rfl
@[simp] theorem freshOut_tx (s : State) : (s.freshOut).tx = s.tx := rfl
@[simp] theorem freshOut_cks (s : State) : (s.freshOut).cks = s.cks := rfl
@[simp] theorem freshOut_ckEnds (s : State) : (s.freshOut).ckEnds = s.ckEnds := rfl
@[simp] theorem freshOut_coef (s : State) : (s.freshOut).coef = s.coef := rfl
@[simp] theorem freshOut_adapt (s : State) : (s.freshOut).adapt = s.adapt := rfl
@[simp] theorem freshOut_cal (s : State) : (s.freshOut).cal = s.cal := rfl
@[simp] theorem freshOut_maps (s : State) : (s.freshOut).maps = s.maps := rfl
@[simp] theorem freshOut_bobs (s : State) : (s.freshOut).bobs = s.bobs := rfl
@[simp] theorem freshOut_prk (s : State) : (s.freshOut).prk = s.prk := rfl
@[simp] theorem freshOut_bt (s : State) : (s.freshOut).bt = s.bt := rfl
@[simp] theorem freshOut_plv (s : State) : (s.freshOut).plv = s.plv := rfl
@[simp] theorem freshOut_clk (s : State) : (s.freshOut).clk = s.clk := rfl
@[simp] theorem freshOut_entries (s : State) : (s.freshOut).entries = s.entries := rfl
@[simp] theorem freshOut_host (s : State) : (s.freshOut).host = s.host := rfl
@[simp] theorem freshOut_sel (s : State) : (s.freshOut).sel = s.sel := rfl
@[simp] theorem freshOut_sec (s : State) : (s.freshOut).sec = s.sec := rfl
@[simp] theorem freshOut_bist (s : State) : (s.freshOut).bist = s.bist := rfl
@[simp] theorem freshOut_prbs (s : State) : (s.freshOut).prbs = s.prbs := rfl
@[simp] theorem freshOut_sup (s : State) : (s.freshOut).sup = s.sup := rfl
@[simp] theorem freshOut_rd (s : State) (g : Fld) : (s.freshOut).rd g = s.rd g := rfl
@[simp] theorem freshOut_on (s : State) (g : Fld) : (s.freshOut).on g = s.on g := rfl
@[simp] theorem freshOut_live (s : State) (g : Fld) : (s.freshOut).live g = s.live g := rfl

@[simp] theorem sendOn_regs (s : State) (r : Nat) (b : List Nat) : (s.sendOn r b).regs = s.regs := rfl
@[simp] theorem sendOn_cnt (s : State) (r : Nat) (b : List Nat) : (s.sendOn r b).cnt = s.cnt := rfl
@[simp] theorem sendOn_pending (s : State) (r : Nat) (b : List Nat) : (s.sendOn r b).pending = s.pending := rfl
@[simp] theorem sendOn_freeCtr (s : State) (r : Nat) (b : List Nat) : (s.sendOn r b).freeCtr = s.freeCtr := rfl
@[simp] theorem sendOn_fab (s : State) (r : Nat) (b : List Nat) : (s.sendOn r b).fab = s.fab := rfl
@[simp] theorem sendOn_clock (s : State) (r : Nat) (b : List Nat) : (s.sendOn r b).clock = s.clock := rfl
@[simp] theorem sendOn_fuse (s : State) (r : Nat) (b : List Nat) : (s.sendOn r b).fuse = s.fuse := rfl
@[simp] theorem sendOn_dev (s : State) (r : Nat) (b : List Nat) : (s.sendOn r b).dev = s.dev := rfl
@[simp] theorem sendOn_slots (s : State) (r : Nat) (b : List Nat) : (s.sendOn r b).slots = s.slots := rfl
@[simp] theorem sendOn_dies (s : State) (r : Nat) (b : List Nat) : (s.sendOn r b).dies = s.dies := rfl
@[simp] theorem sendOn_flows (s : State) (r : Nat) (b : List Nat) : (s.sendOn r b).flows = s.flows := rfl
@[simp] theorem sendOn_trunks (s : State) (r : Nat) (b : List Nat) : (s.sendOn r b).trunks = s.trunks := rfl
@[simp] theorem sendOn_lls (s : State) (r : Nat) (b : List Nat) : (s.sendOn r b).lls = s.lls := rfl
@[simp] theorem sendOn_sides (s : State) (r : Nat) (b : List Nat) : (s.sendOn r b).sides = s.sides := rfl
@[simp] theorem sendOn_spans (s : State) (r : Nat) (b : List Nat) : (s.sendOn r b).spans = s.spans := rfl
@[simp] theorem sendOn_links (s : State) (r : Nat) (b : List Nat) : (s.sendOn r b).links = s.links := rfl
@[simp] theorem sendOn_rx (s : State) (r : Nat) (b : List Nat) : (s.sendOn r b).rx = s.rx := rfl
@[simp] theorem sendOn_tx (s : State) (r : Nat) (b : List Nat) : (s.sendOn r b).tx = s.tx := rfl
@[simp] theorem sendOn_cks (s : State) (r : Nat) (b : List Nat) : (s.sendOn r b).cks = s.cks := rfl
@[simp] theorem sendOn_ckEnds (s : State) (r : Nat) (b : List Nat) : (s.sendOn r b).ckEnds = s.ckEnds := rfl
@[simp] theorem sendOn_coef (s : State) (r : Nat) (b : List Nat) : (s.sendOn r b).coef = s.coef := rfl
@[simp] theorem sendOn_adapt (s : State) (r : Nat) (b : List Nat) : (s.sendOn r b).adapt = s.adapt := rfl
@[simp] theorem sendOn_cal (s : State) (r : Nat) (b : List Nat) : (s.sendOn r b).cal = s.cal := rfl
@[simp] theorem sendOn_maps (s : State) (r : Nat) (b : List Nat) : (s.sendOn r b).maps = s.maps := rfl
@[simp] theorem sendOn_bobs (s : State) (r : Nat) (b : List Nat) : (s.sendOn r b).bobs = s.bobs := rfl
@[simp] theorem sendOn_prk (s : State) (r : Nat) (b : List Nat) : (s.sendOn r b).prk = s.prk := rfl
@[simp] theorem sendOn_bt (s : State) (r : Nat) (b : List Nat) : (s.sendOn r b).bt = s.bt := rfl
@[simp] theorem sendOn_plv (s : State) (r : Nat) (b : List Nat) : (s.sendOn r b).plv = s.plv := rfl
@[simp] theorem sendOn_clk (s : State) (r : Nat) (b : List Nat) : (s.sendOn r b).clk = s.clk := rfl
@[simp] theorem sendOn_entries (s : State) (r : Nat) (b : List Nat) : (s.sendOn r b).entries = s.entries := rfl
@[simp] theorem sendOn_host (s : State) (r : Nat) (b : List Nat) : (s.sendOn r b).host = s.host := rfl
@[simp] theorem sendOn_sel (s : State) (r : Nat) (b : List Nat) : (s.sendOn r b).sel = s.sel := rfl
@[simp] theorem sendOn_sec (s : State) (r : Nat) (b : List Nat) : (s.sendOn r b).sec = s.sec := rfl
@[simp] theorem sendOn_bist (s : State) (r : Nat) (b : List Nat) : (s.sendOn r b).bist = s.bist := rfl
@[simp] theorem sendOn_prbs (s : State) (r : Nat) (b : List Nat) : (s.sendOn r b).prbs = s.prbs := rfl
@[simp] theorem sendOn_sup (s : State) (r : Nat) (b : List Nat) : (s.sendOn r b).sup = s.sup := rfl
@[simp] theorem sendOn_rd (s : State) (r : Nat) (b : List Nat) (g : Fld) : (s.sendOn r b).rd g = s.rd g := rfl
@[simp] theorem sendOn_on (s : State) (r : Nat) (b : List Nat) (g : Fld) : (s.sendOn r b).on g = s.on g := rfl
@[simp] theorem sendOn_live (s : State) (r : Nat) (b : List Nat) (g : Fld) : (s.sendOn r b).live g = s.live g := rfl

@[simp] theorem answerWord_regs (s : State) (v : Nat) : (s.answerWord v).regs = s.regs := rfl
@[simp] theorem answerWord_cnt (s : State) (v : Nat) : (s.answerWord v).cnt = s.cnt := rfl
@[simp] theorem answerWord_pending (s : State) (v : Nat) : (s.answerWord v).pending = s.pending := rfl
@[simp] theorem answerWord_freeCtr (s : State) (v : Nat) : (s.answerWord v).freeCtr = s.freeCtr := rfl
@[simp] theorem answerWord_fab (s : State) (v : Nat) : (s.answerWord v).fab = s.fab := rfl
@[simp] theorem answerWord_clock (s : State) (v : Nat) : (s.answerWord v).clock = s.clock := rfl
@[simp] theorem answerWord_fuse (s : State) (v : Nat) : (s.answerWord v).fuse = s.fuse := rfl
@[simp] theorem answerWord_dev (s : State) (v : Nat) : (s.answerWord v).dev = s.dev := rfl
@[simp] theorem answerWord_slots (s : State) (v : Nat) : (s.answerWord v).slots = s.slots := rfl
@[simp] theorem answerWord_dies (s : State) (v : Nat) : (s.answerWord v).dies = s.dies := rfl
@[simp] theorem answerWord_flows (s : State) (v : Nat) : (s.answerWord v).flows = s.flows := rfl
@[simp] theorem answerWord_trunks (s : State) (v : Nat) : (s.answerWord v).trunks = s.trunks := rfl
@[simp] theorem answerWord_lls (s : State) (v : Nat) : (s.answerWord v).lls = s.lls := rfl
@[simp] theorem answerWord_sides (s : State) (v : Nat) : (s.answerWord v).sides = s.sides := rfl
@[simp] theorem answerWord_spans (s : State) (v : Nat) : (s.answerWord v).spans = s.spans := rfl
@[simp] theorem answerWord_links (s : State) (v : Nat) : (s.answerWord v).links = s.links := rfl
@[simp] theorem answerWord_rx (s : State) (v : Nat) : (s.answerWord v).rx = s.rx := rfl
@[simp] theorem answerWord_tx (s : State) (v : Nat) : (s.answerWord v).tx = s.tx := rfl
@[simp] theorem answerWord_cks (s : State) (v : Nat) : (s.answerWord v).cks = s.cks := rfl
@[simp] theorem answerWord_ckEnds (s : State) (v : Nat) : (s.answerWord v).ckEnds = s.ckEnds := rfl
@[simp] theorem answerWord_coef (s : State) (v : Nat) : (s.answerWord v).coef = s.coef := rfl
@[simp] theorem answerWord_adapt (s : State) (v : Nat) : (s.answerWord v).adapt = s.adapt := rfl
@[simp] theorem answerWord_cal (s : State) (v : Nat) : (s.answerWord v).cal = s.cal := rfl
@[simp] theorem answerWord_maps (s : State) (v : Nat) : (s.answerWord v).maps = s.maps := rfl
@[simp] theorem answerWord_bobs (s : State) (v : Nat) : (s.answerWord v).bobs = s.bobs := rfl
@[simp] theorem answerWord_prk (s : State) (v : Nat) : (s.answerWord v).prk = s.prk := rfl
@[simp] theorem answerWord_bt (s : State) (v : Nat) : (s.answerWord v).bt = s.bt := rfl
@[simp] theorem answerWord_plv (s : State) (v : Nat) : (s.answerWord v).plv = s.plv := rfl
@[simp] theorem answerWord_clk (s : State) (v : Nat) : (s.answerWord v).clk = s.clk := rfl
@[simp] theorem answerWord_ring (s : State) (v : Nat) : (s.answerWord v).ring = s.ring := rfl
@[simp] theorem answerWord_entries (s : State) (v : Nat) : (s.answerWord v).entries = s.entries := rfl
@[simp] theorem answerWord_sel (s : State) (v : Nat) : (s.answerWord v).sel = s.sel := rfl
@[simp] theorem answerWord_sec (s : State) (v : Nat) : (s.answerWord v).sec = s.sec := rfl
@[simp] theorem answerWord_bist (s : State) (v : Nat) : (s.answerWord v).bist = s.bist := rfl
@[simp] theorem answerWord_prbs (s : State) (v : Nat) : (s.answerWord v).prbs = s.prbs := rfl
@[simp] theorem answerWord_sup (s : State) (v : Nat) : (s.answerWord v).sup = s.sup := rfl
@[simp] theorem answerWord_rd (s : State) (v : Nat) (g : Fld) : (s.answerWord v).rd g = s.rd g := rfl
@[simp] theorem answerWord_on (s : State) (v : Nat) (g : Fld) : (s.answerWord v).on g = s.on g := rfl
@[simp] theorem answerWord_live (s : State) (v : Nat) (g : Fld) : (s.answerWord v).live g = s.live g := rfl

end Sys2Proof.Machine
end

