-- ==== Sys2Proof/Tests/Slice0.lean ====
section
/-!
SUPPORT. Tests: terms that Instr.wf refuses, for every statement a state that meets its hypotheses, and the effects of
some commands on small states.
-/

namespace Sys2Proof.Tests

set_option Elab.async false

open Sys2Proof Sys2Proof.Machine

/-! ## Ill-formed terms -/

theorem wf_refuses_lane : Instr.wf (.signalDetect ⟨144, .a⟩ ⟨60, 100⟩) = false := by decide
theorem wf_refuses_clock_lane : Instr.wf (.txShort 160 .a 1) = false := by decide
theorem wf_refuses_class : Instr.wf (.txShort 0 .a 4) = false := by decide
theorem wf_refuses_data_lane : Instr.wf (.lanePosWrite 128 0) = false := by decide
theorem wf_refuses_cluster : Instr.wf (.cntSnap 16) = false := by decide
theorem wf_refuses_position : Instr.wf (.adaptFreeze 0 .a 9) = false := by decide
theorem wf_refuses_link : Instr.wf (.fltSnap 128) = false := by decide
theorem wf_refuses_die : Instr.wf (.ceWindowEnd 2) = false := by decide
theorem wf_refuses_bank : Instr.wf (.bufRetire 0 33) = false := by decide
theorem wf_refuses_slot : Instr.wf (.descSelWrite 0 65536) = false := by decide
theorem wf_refuses_logical_link : Instr.wf (.llDrainEnd 1024) = false := by decide
theorem wf_refuses_cache : Instr.wf (.llCacheRefresh 32) = false := by decide
theorem wf_refuses_page : Instr.wf (.llSnap 8) = false := by decide
theorem wf_refuses_calendar : Instr.wf (.calSnap 16) = false := by decide
theorem wf_refuses_flow : Instr.wf (.darnTimerExpiry 256) = false := by decide
theorem wf_refuses_ll_flow : Instr.wf (.darnTimerExpiry 6144) = false := by decide
theorem wf_refuses_trunk : Instr.wf (.drnAckTimer 128) = false := by decide
theorem wf_refuses_trunk_calendar : Instr.wf (.drnAckTimer 1040) = false := by decide
theorem wf_refuses_source : Instr.wf (.sourceInput 320 .pulse) = false := by decide
theorem wf_refuses_ring : Instr.wf (.hopBroken 2) = false := by decide
theorem wf_refuses_pll : Instr.wf (.pllHoldover 4) = false := by decide
theorem wf_refuses_level : Instr.wf (.plRequest 0 4) = false := by decide
theorem wf_refuses_rung : Instr.wf (.trnStep 0 .a 5) = false := by decide
theorem wf_refuses_map_entry : Instr.wf (.sideMapWrite 256 0) = false := by decide
theorem wf_refuses_word : Instr.wf (.leCfgWrite 0 (2 ^ 32)) = false := by decide
theorem wf_refuses_octet : Instr.wf (.flashCommandDone [256]) = false := by decide
theorem wf_refuses_width : Instr.wf (.idlReceive 0 .a (List.replicate 17 {})) = false := by decide
theorem wf_refuses_code : Instr.wf (.controlFlitReceive 0 .a [[1024]]) = false := by decide
theorem wf_refuses_heard_code : Instr.wf (.eieReceive 0 .a [{ codes := [1024] }]) = false := by decide
theorem wf_refuses_read : Instr.wf (.sendNext 0 .a { flips := [(0, 160)] } .ok) = false := by decide
theorem wf_refuses_counts : Instr.wf (.balanceWindowEnd 0 .a (List.replicate 10 0)) = false := by decide
theorem wf_refuses_empty_block : Instr.wf (.spiWriteBlock false 0 [] 0) = false := by decide
theorem wf_refuses_long_block : Instr.wf (.spiWriteBlock false 0 (List.replicate 33 0) 0) = false := by decide
theorem wf_refuses_pec : Instr.wf (.smbPointer 0 (some 256)) = false := by decide
theorem wf_accepts : Instr.wf (.signalDetect ⟨143, .b⟩ ⟨60, 100⟩) = true := by decide

/-! ## States -/

/-- A state with the given register fields written. -/
def put (l : List (Fld × Nat)) (s : State) : State := l.foldl (fun s p => s.wr p.1 p.2) s

/-- The package in SERVICE, otherwise as reset leaves it, both core PLLs locked. -/
def wRun : State :=
  put [(R.CLK_STAT_core_lock 0, 1), (R.CLK_STAT_core_lock 1, 1)]
    { State.reset with dev := { State.reset.dev with phase := .run } }

/-- What signal detect leaves at a receive end. -/
def sdOn (s : State) (n : Nat) (sd : Side) : State :=
  ((s.wr (leSd n sd) 1).wr (leIdle n sd) 0).putRx n sd { s.rxe n sd with sdSince := some s.clock, losAt := none }

/-- The small part of the two, in reset. -/
def wSmall : State := { State.reset with fuse := { State.reset.fuse with part := .lz4064 } }

/-- The same state 1 s after the release of reset. -/
def wLate (s : State) : State := { s with clock := 1000000000, fab := 1000000000 }

/-- The same state with no switchover of a direction in progress. -/
def switched (s : State) (c : Nat) (d : Dir) : State :=
  (swapHeld c ((s.ck c d).switchFrom.getD s.clock) s).putCk c d
    { (swapHeld c ((s.ck c d).switchFrom.getD s.clock) s).ck c d with switchFrom := none }

/-! ### Interrupts -/

def wSrc : State := put [(R.SRC_CFG_pend 16, 1), (R.SRC_CFG_en 16, 1)] wRun
def wSrcFast : State := put [(R.SRC_CFG_class 16, 1)] wSrc
def wServe : State := put [(R.BANK_serving 0 0, 1), (R.BANK_source 0 0, 16)] wRun
def wRingServe : State := put [(R.BANK_serving 0 2, 1), (R.BANK_source 0 2, 16), (R.BANK_ring 0 2, 1)] wRun
def wEntry : State := { wRun with entries := [{ ring := 1, src := 16, count := 2 }] }
def wDlv : State := put [(R.SRC_CFG_target 16, 2)] wSrc
/-- The package at ring position 1, the head two hops away. -/
def wFar : State := put [(R.STRAPS_ring_id, 1), (R.PCT_POS_CW_pos 1, 1), (R.PCT_STAT_time_ok, 1)] wRun
def wDlvFar : State := put [(R.SRC_CFG_target 16, 2), (R.SRC_CFG_pend 16, 1), (R.SRC_CFG_en 16, 1)] wFar
def wResend : State :=
  put [(R.SRC_CFG_active 16, 1)] { wFar with ring := { wFar.ring with resend := [16] } }
def wGated : State := put [(R.CLK_EN_en 0x11, 0)] wRun

/-! ### Lane ends (lane 3, side a, in cluster 0, of no link) -/

def wAcqWait : State := wRun.putCoef 3 .a { wRun.coefs 3 .a with acqRung := 2 }
def wSd : State := put [(leSd 3 .a, 1)] wRun
def wSdRate : State := put [(R.RATE_STAT_rate 0 Side.a.dirIn.idx, 3)] wSd
def wAlign : State := put [(leLock 3 .a, 1)] wSd
def wAlign2 : State := wAlign.putRx 3 .a { wAlign.rxe 3 .a with commas := 8 }
def wLocked : State := put [(leLock 3 .a, 2)] wSd
def wLockedBad : State := wLocked.putRx 3 .a { wLocked.rxe 3 .a with bad := 1000 }
def wLockedEb : State := put [(R.CK_STAT_mode 0 Side.a.dirIn.idx, 2)] wLocked
def wBal : State := (put [(R.RATE_STAT_rate 0 Side.a.dirIn.idx, 3)] wLocked).putRx 3 .a { wLocked.rxe 3 .a with balRun := true }
def wTx : State := wRun.putTx 3 .b { wRun.txe 3 .b with idle := false }
def wCkTx : State := wRun.putCkExit 0 Side.b.dirOut { wRun.ckExit 0 Side.b.dirOut with idle := false }
def wFrozen : State := put [(estOf 3 .a, 3)] wRun
def wTrack : State :=
  (put [(estOf 3 .a, 2)] wLocked).putEngine 0 { cur := some (rxIndex 3 .a), visiting := true }
def wTrackDue : State := (put [(estOf 3 .a, 2)] wRun).putCoef 3 .a { wRun.coefs 3 .a with due := [1] }
def wAcqB : State :=
  ((put [(estOf 3 .a, 1)] wSd).putEngine 0 { cur := some (rxIndex 3 .a), visiting := false }).putCoef 3 .a
    { wRun.coefs 3 .a with blocks := 2, goodBlocks := 3 }
def wAcqMax : State := wAcqB.putCoef 3 .a { wAcqB.coefs 3 .a with blocks := 300 }
def wPrbs : State := put [(R.PRBS_CHK_en (lanePage 3), 1)] wRun
def wPrbsL : State := put [(R.PRBS_STAT_lock (lanePage 3), 1)] wPrbs

/-- A lane whose far-end loop is on. -/
def wFar3 : State := put [(R.LB_CFG_active (lanePage 3), 1), (R.LB_CFG_loop (lanePage 3), 3)] wLockedEb

/-! ### A link: link 0, both sides on lane 0 -/

def wLinkOf (mode width : Nat) : State :=
  put [(R.LNK_CFG_LIVE_mode 0, mode), (R.LNK_CFG_LIVE_width 0 0, width), (R.LNK_CFG_LIVE_width 0 1, width),
    (R.SIDE_MAP_valid 0, 1), (R.SIDE_MAP_hint 0, 1), (R.SIDE_MAP_valid 1, 1), (R.SIDE_MAP_hint 1, 1)] wRun
/-- A receive end of side a with signal for 1 s and the class OPEN. -/
def wOpen (n : Nat) : State :=
  wLate ((put [(leSd n .a, 1), (leRxOpen n .a, 1)] (wLinkOf 2 0)).putRx n .a { wRun.rxe n .a with sdSince := some 0 })

def wTransNoSd : State := wLinkOf 1 0
def wLinkNoSd : State := wLinkOf 2 0
def wLinkAcq : State := wLinkNoSd.putCoef 0 .a { wLinkNoSd.coefs 0 .a with acqRung := 2 }
def wLinkSd : State := put [(leSd 0 .a, 1)] (wLinkOf 2 1)
def wSpan (st : Nat) : State :=
  put [(R.SPAN_STAT_state 0 0, st), (R.SPAN_STAT_state 0 1, st), (leSd 0 .a, 1), (leLock 0 .a, 2), (leSd 0 .b, 1),
    (leLock 0 .b, 2)] wLinkNoSd
def wAcquire : State := wSpan 2
def wQualify : State := wSpan 3
def wQualifyOk : State :=
  put [(R.DSKW_valid 0 0 0, 1), (estOf 0 .a, 2)] (wQualify.putCoef 0 .a { wQualify.coefs 0 .a with everAcq := true })
def wQualifyBad : State := wQualify.putRx 0 .a { wQualify.rxe 0 .a with dwell := 1000 }
def wStep : State := (wSpan 5).modSpan 0 .a fun x => { x with rateTarget := some 3 }
def wSwitchSp : State := wSpan 6
def wMeasure : State := (wSpan 7).modSpan 0 .a fun x => { x with echoOut := true }
def wArmed : State := (wSpan 8).putLink 0 { (wSpan 8).link 0 with tUp := some 0 }
def wUp : State := wSpan 9
def wUpFast : State := put [(R.SPAN_STAT_rung 0 0, 3), (R.SPAN_STAT_rung 0 1, 3)] wUp
def wDown : State := wSpan 10
def wRetrain : State := put [(R.SPAN_STAT_retraining 0 0, 1)] (wSpan 5)
def wTrain : State := wUp
def wUpEb : State := put [(R.CK_STAT_mode 0 Side.a.dirIn.idx, 2)] wUp
def wUpSq : State := wUp.putTx 0 .b { wUp.txe 0 .b with squelch := true }
def wUpTrunk : State := put [(R.LNK_CFG_LIVE_mode 0, 4)] wUp

/-! ### Training and darning sets -/

def trnOf (kind : Nat) : TrnSet := { kind := kind }
/-- What one lane hears of symbols sent to it at negative running disparity. -/
def heardOf (x : List Sym) : List Heard := [{ codes := (encodeAll false x).1 }]
def trnHeard (kind : Nat) : List Heard := heardOf (paritySet 0x3C (trnBytes (trnOf kind) 0))
/-- The state in which a set of a kind is taken. -/
def trnAt (kind : Nat) (s : State) : State := ((trnTaken 0 .a (trnHeard kind) kind s).getD ({}, wRun)).2
def trnHeardOf (t : TrnSet) : List Heard := heardOf (paritySet 0x3C (trnBytes t 0))
def trnAtSet (t : TrnSet) (s : State) : State := ((trnTaken 0 .a (trnHeardOf t) t.kind s).getD ({}, wRun)).2
def drnKey : Nat := 0
def drnOf (kind : Nat) : DrnSet := { d0 := 64 * kind, value := 5 }
def drnHeard (kind : Nat) : List Heard := heardOf (paritySet 0x9C (drnBytes (drnOf kind)))
def ackHeard : List Heard := heardOf (paritySet 0x5C (ackBytes { seq := 1 }))
def eieHeard : List Heard := heardOf [symCOM, .k 0xFD, .k 0xFD, .k 0xFD]
def skpHeard : List Heard := heardOf (symCOM :: List.replicate 3 (.k 0x1C))
/-- The codes of a flit on one lane. -/
def flitCodes (b : List Nat) : List (List Nat) := (stripe 1 b false).map fun x => (encodeAll false x).1
/-- The codes of a poisoned flit on one lane, and of one with a K symbol among its data. -/
def flitCodesIn (b : List Nat) : List (List Nat) := (stripe 1 b true).map fun x => (encodeAll false x).1
def flitCodesBad (b : List Nat) : List (List Nat) :=
  (stripe 1 b false).map fun x => (encodeAll false (x.set 5 (.k symSOF))).1
def drnAt (kind : Nat) (s : State) : State := ((drnTaken 0 .a (drnHeard kind) kind s).getD (0, {}, wRun)).2.2
def drnAtOf (kind : Nat) : State := drnAt kind wUpTrunk
def wTrunkFrozen : State := wUpTrunk.putTrunk 0 { wUpTrunk.trunk 0 with frozenAt := some 0 }
def wProbe : State := wUpTrunk.putTrunk 0 { wUpTrunk.trunk 0 with probeOut := some (5, 0) }
/-- Trunk 0 holds a flit of the span number `n`; the next number to be sent is `m`. -/
def wHeldNo (n m : Nat) : State :=
  (wUpTrunk.putSlot 7 { state := 2, sent := true, spanSeq := n }).putTrunk 0
    { wUpTrunk.trunk 0 with held := [7], nextTx := m }
def wTrunkDue : State :=
  (wUpTrunk.putSlot 7 { state := 2, sent := true }).putTrunk 0 { wUpTrunk.trunk 0 with held := [7] } |> fun s =>
    { s with fab := 10 ^ 9 }
def wTrunkLast : State := wTrunkDue.putTrunk 0 { wTrunkDue.trunk 0 with expSince := true, consec := 14 }
def wTrunkAck : State := wUpTrunk.putTrunk 0 { wUpTrunk.trunk 0 with accOldest := some 0 }
def wProbeInt : State := put [(R.TRK_CFG0_LIVE_probe_int 0, 1)] wUpTrunk
/-- The a-to-b flow of link 0, a TRUNK link whose trunk side is side a, enters at side a; the other enters at side b. -/
def custFlow : Nat := 1
def wCust : State := wUpTrunk.putFlow 1 { wUpTrunk.flow 1 with custOldest := some 0 }
def wCustSeq : State := (wLate wCust).putFlow 1 { wCust.flow 1 with seqValid := true }
def wDarn : State :=
  { (wUp.putSlot 7 { state := 2, sent := true, xlpSeq := 1 }).putFlow 0
      { wUp.flow 0 with dstate := 2, copies := [7], acked := some 0 } with fab := 10 ^ 9 }
def ctlBytes : List Nat := 0xF0 :: List.replicate 143 0
def wCal : State :=
  put [(R.LNK_CFG_LIVE_mode 0, 8), (R.CAL_BIND_en (calLivePage 0), 1), (R.CAL_BIND_link (calLivePage 0), 0),
    (R.CAL_BIND_side (calLivePage 0), 0)] wUp
def wTrunkExp (n : Nat) : State := wUpTrunk.putTrunk 0 { wUpTrunk.trunk 0 with expect := n }
/-- Link 0 with its trunk side b, as a bundle without a logical link, as one end of logical link 0, and over the seam. -/
def wUpTrunk2 : State := put [(R.TRK_CFG0_LIVE_trunk_side 0, 1)] wUpTrunk
def wUpBundle : State := put [(R.LNK_CFG_LIVE_mode 0, 8)] wUp
def wLlUp : State := wUpBundle.putLl 0 { wUpBundle.ll 0 with state := 1 }
def wUpSeam : State := put [(R.SIDE_MAP_base 1, 64)] wUp
def wDrain : State := wRun.putLl 0 { wRun.ll 0 with state := 2, drainFrom := some 0 }
def wTornLl : State := wRun.putLl 0 { wRun.ll 0 with tornUntil := some 0 }

/-! ### Clocks (cluster 1, direction a to b) -/

def wRef : State := put [(R.CLK_STAT_refclk_good, 1)] wRun
def wCkl : State := put [(R.CK_STAT_ckl_ok 1 0, 1)] wRef
def wOwn : State := put [(R.CK_STAT_own_lock 1 0, 1)] wRun
def wBorrowing : State := wRun.putCk 1 .ab { wRun.ck 1 .ab with borrowing := true }
def wHoldover : State := wRun.putCk 1 .ab { wRun.ck 1 .ab with holdover := some 0 }
def wRelockOff : State := wRun.putCk 1 .ab { wRun.ck 1 .ab with unlockHeld := true }
def wRelock : State := put [(R.CK_STAT_mode 1 0, 2)] wRelockOff
def wDense : State := wRun.putCk 1 .ab { wRun.ck 1 .ab with denseOpen := 1 }
def wDenseRel : State := wRun.putCk 1 .ab { wRun.ck 1 .ab with denseOpen := 2 }
def wCkCmd : State := put [(R.CK_STAT_ckl_ok 1 0, 1)] wRun
def wCkFwd : State := put [(R.CK_STAT_mode 1 0, 1)] wRef
def wCkBor : State := put [(R.CK_STAT_borrowed 1 0, 1), (R.CK_STAT_own_lock 1 0, 1)] wRun
def wCkOp : State :=
  (put [(R.CK_CMD_busy 1, 1), (R.CK_STAT_dense_rx 1 0, 1)] wRun).putCk 1 .ab { wRun.ck 1 .ab with opFrom := some 1 }
def wCkOp0 : State := (put [(R.CK_CMD_busy 1, 1)] wRun).putCk 1 .ab { wRun.ck 1 .ab with opFrom := some 0 }
def wSwitch : State := wCkFwd.putCk 1 .ab { wRun.ck 1 .ab with switchFrom := some 1 }
def wSwitchNoRef : State := (put [(R.CK_STAT_mode 1 0, 1)] wRun).putCk 1 .ab { wRun.ck 1 .ab with switchFrom := some 1 }
def wSwitchLend : State :=
  (put [(R.CK_CFG_borrow_en 1 0, 1), (R.CK_STAT_own_lock 0 0, 1)] wRun).putCk 1 .ab
    { wRun.ck 1 .ab with switchFrom := some 1 }
def wBothClk : State := put [(R.CLK_STAT_ifo_ready, 1)] wRef
def wBothClkNoAuto : State := put [(R.CLK_CFG_auto_return, 0)] wBothClk
def wJudge : State := put [(R.CLK_CFG_judge, 1)] wRun
def wJudgeC : State := put [(R.CLK_CFG_judge, 2), (R.CLK_STAT_ifo_ready, 1)] wRun
def wMon : State := put [(R.CLK_STAT_mon_armed, 1)] wBothClk
/-- The same state with REFCLK good for 1 s. -/
def wHeldLong (s : State) : State := wLate { s with clk := { s.clk with goodSince := some 0 } }
def wPllRef : State := put [(R.CLK_STAT_core_ref 0, 0)] wRef
def wPll2 : State := put [(R.CLK_STAT_core_ref 0, 2)] wBothClk
def wFm : State := put [(R.FM_CMD_busy, 1)] wRun

/-! ### Power, phases and reset -/

def wPl1 : State := put [(R.PL_STAT_phase 0, 1)] wRun
def wPl2 : State := (put [(R.PL_STAT_phase 0, 2)] wRun).putPl 0 { fromLevel := 1 }
def wPl2up : State := put [(R.PL_STAT_phase 0, 2), (R.PL_STAT_target 0, 2)] wRun
def wPl3 : State := put [(R.PL_STAT_phase 0, 3)] wRun
def wDev (f : DevSt → DevSt) : State := { wRun with dev := f wRun.dev }
def wEntering : State := wDev fun d => { d with watchEntry := true }
def wWatch : State := put [(R.WATCH_CFG_wake_n_en, 1)] (wDev fun d => { d with phase := .watch })
def wWatchLink : State :=
  put [(R.WATCH_CFG_sd_en, 1)] { wLinkNoSd with dev := { wLinkNoSd.dev with phase := .watch } }
def wWatchNmi : State := put [(R.SRC_CFG_pend 256, 1)] wWatch
def wWatchSrc : State :=
  put [(R.SRC_CFG_pend 260, 1), (R.WATCH_LIST_valid 0, 1), (R.WATCH_LIST_source 0, 260)] wWatch
def wWaking : State :=
  put [(pllLockFld 0, 1), (pllLockFld 1, 1), (pllLockFld 2, 1), (pllLockFld 3, 1)]
    (wDev fun d => { d with phase := .watch, waking := true })
def wWakingRef : State := put [(R.CLK_STAT_refclk_good, 1)] (wDev fun d => { d with phase := .watch, waking := true })
def wStart : State := wDev fun d => { d with phase := .start }
def wStartAt (n : Nat) : State := put [(R.START_STAT_step, n)] wStart
def wStart8 : State := put [(R.STRAPS_ring_id, 1)] (wStartAt 8)
def wStart9 : State := wStartAt 9
def wPause : State := { wStartAt 5 with bist := { wRun.bist with pauseFrom := some 0 } }
def wHeld : State := wDev fun d => { d with held := true }
def wTest : State := wDev fun d => { d with phase := .test }
def wTestEntry : State := wDev fun d => { d with testEntry := 1 }
def wWarn : State := put [(R.SUP_STAT_warn 0, 1)] wRun
def wFenced : State := put [(fenceFld 1, 1)] wRun
def wFencedRef : State := put [(fenceFld 1, 1)] wRef
def wSoft : State := put [(R.SOFT_RESET_busy 0, 1), (R.SOFT_RESET_busy 0x10, 1)] wRun

/-! ### Flit buffer, calibration, self test, pricking, steering -/

def wRot (n : Nat) : State := put [(R.BUF_STAT_rot 0, n)] wRun
def wRot1 : State := (put [(R.BUF_STAT_test_bank 0, 3)] (wRot 1)).putBuf 0 { wRun.buf 0 with standIn := 32 }
def wRot2 : State := (put [(R.BUF_STAT_test_bank 0, 3)] (wRot 2)).putBuf 0 { wRun.buf 0 with standIn := 32 }
def wRot3 : State := (put [(R.BUF_STAT_test_bank 0, 3)] (wRot 3)).putBuf 0 { wRun.buf 0 with standIn := 32 }
def wRot4 : State := put [(R.BUF_STAT_test_bank 0, 3)] (wRot 4)
def wStandby : State := put [(R.BANK_STAT_state 0 32, 1)] wRun
def wRetired : State := put [(R.BANK_STAT_state 0 3, 6)] wRun
def wCal0 : State := wRun
def wCalSeq (q : CalSeq) (s : State) : State := s.putCal 0 q
def wCalHeld : State := (wCalSeq { cur := some 0 } wRun).putEngine 0 { cur := some 0 }
def wCalWait : State := wCalSeq { waitStep := some 0 } wRun
def wCalTrans : State := wCalSeq { waitStep := some 0 } wTransNoSd
def wEye : State := wCalSeq { eye := some 3 } wRun
def wEyeOk : State := wLocked
def wSlice : State := { wRun with bist := { wRun.bist with bob0 := some 0 } }
def wTurn : State := { wRun with bist := { wRun.bist with nextAt := some 0 } }
def wBobReady : State := wRun
def wBob (st : Nat) : State := put [(R.BOB_STAT_state 0, st)] wRun
def wBobIn : State := wBob 2
def wBobOut : State := wBob 4
def wMaySwitch : State :=
  put [(R.BOB_STAT_state 0, 1), (leLock 128 .a, 2), (R.DSKW_valid 0 8 0, 1)]
    (wLinkNoSd.putBob 0 { wLinkNoSd.bob 0 with acqDone := [0] })
def wAsked : State := wRun.putBob 0 { wRun.bob 0 with asked := [0] }
def wOldTx : State := wLate (wRun.putBob 0 { wRun.bob 0 with dupA := some 0 })
def wDraining : State := wRun.putMap 0 { wRun.map 0 with drainUntil := some 0 }
def wTorn : State := wRun.putMap 0 { wRun.map 0 with tornUntil := some 0 }
def wPrk : State :=
  { put [(R.PRK_CMD_busy, 1)] wRun with
    prk := { busy := true, verdict := [1], basis := checkBasis (checkView 0 0) wRun } }
def wApply : State :=
  { put [(R.PRK_CMD_busy, 1)] wRun with
    prk := { busy := true, applyAt := some 0, basis := checkBasis (checkView 0 0) wRun } }
def wGo : State := { wRun.putLive R.PCT_GO_LO_t_go 5 with fab := 10 }

/-! ### Board table, ports and the ring -/

def wLoading : State := put [(R.BT_STAT_loading, 1)] wRun
def wFlash : State := wRun
def wFcBusy : State := put [(R.FC_CTL_busy, 1)] wRun
def wFcWrite : State := { wFcBusy with bt := { wFcBusy.bt with fc := 2 ^ 14 } }
def wEnrolled : State := put [(R.KEY_STAT_enrolled, 3)] wRun
def wAtt : State := put [(R.ATT_CMD_busy, 1)] wRun
def wDigest : State := { wRun with sec := { wRun.sec with digestDue := true } }
def wHop : State := put [(R.PCT_STAT_cw, 1)] wRun
def wEnum : State := { wRun with ring := { wRun.ring with enumAt := some 0 } }
def wHold : State := { wRun with ring := { wRun.ring with hold := 3 } }
def wGoAuto : State :=
  put [(R.STRAPS_boot_eff, 1), (R.PCT_STAT_enum_done, 1), (R.PCT_STAT_dup, 0)] wRun
def wRemote : State := { wRun with host := { wRun.host with spi := { remote := some { target := 1, tag := 5 } } } }
def wNoInc : State := put [(R.HST_CFG_smb_inc, 0)] wRun
def ringMsgOf (type dest src : Nat) (body : List Nat) : RingMsg := (ringBytes type dest src body).map .d
def msgOf (type dest src : Nat) (body : List Nat) : Msg := ⟨type, dest, src, body⟩
def wSel : State := put [(R.SEL_CFG_en, 1)] wUp
def selFrameOf (kind : Nat) : List Nat := kind :: List.replicate 35 0
def selHeard (kind : Nat) : List Heard := heardOf (paritySet 0xF7 ((selFrameOf kind).length :: selFrameOf kind))
/-- A request in form: `n` payload bytes, whose fourth is `words`, the address `a`. -/
def selFrameOk (kind n words a : Nat) : List Nat :=
  [kind, n] ++ List.replicate 14 0 ++ [0, a / 256, a % 256, words] ++ List.replicate (n + 12) 0
def selHeardOk (kind n words : Nat) : List Heard :=
  heardOf (paritySet 0xF7 ((selFrameOk kind n words 0).length :: selFrameOk kind n words 0))
def selOne (kind words a done : Nat) : SelReq := { frame := selFrameOk kind (4 * words) words a, done := done }
def selWith (q : SelReq) (s : State) : State := { s with sel := { s.sel with queue := [q] } }
def wSelSoft : State := put [(R.SOFT_RESET_busy 1, 1)] wRun
def wSelNonce : State := { wRun with sec := { wRun.sec with lastNonce := some (List.replicate 32 0) } }
def selReqOk3 : SelReq := { frame := selFrameOk 3 36 0 0 }
def selReqOf : SelReq := { frame := selFrameOf 1 }
def selReqOf2 : SelReq := { frame := selFrameOf 2 }
def selReqOf3 : SelReq := { frame := selFrameOf 3 }

/-! ### Lane ends and clocks, for outcomes -/

def wEieHeard : State :=
  (put [(leSd 0 .a, 1)] { wLinkNoSd with clock := 5500 }).putSide 0 .a { wLinkNoSd.side 0 .a with lastEie := some 0 }
def wAlignPol : State := wAlign.putRx 3 .a { wAlign.rxe 3 .a with polSet := true }
def wAlignLink : State :=
  (put [(leSd 0 .a, 1), (leLock 0 .a, 1)] wLinkNoSd).putRx 0 .a { wLinkNoSd.rxe 0 .a with commas := 8 }
def lockOf (s : State) : State :=
  let t := commaRd 0 .a true s
  steerSync (laneCluster 0) (adaptEnters 0 .a (ebCentre 0 .a ((((t.putRx 0 .a { t.rxe 0 .a with
    winFrom := 850 * t.clock, commas := 0, bad := 0, misses := 0, balRun := isPam (ckRate t (laneCluster 0) Side.a.dirIn),
    polSet := false, polDecided := (t.rxe 0 .a).polDecided || (isPam (ckRate t (laneCluster 0) Side.a.dirIn) &&
      polAuto t 0 .a) }).wr (leLock 0 .a) lkLocked).wr (R.LANE_NUM_num_valid (laneCluster 0) (lanePos 0) Side.a.idx) 0).wr
        (R.BAL_valid (laneCluster 0) (lanePos 0) Side.a.idx) 0)))
def wUpBad : State := wUp.putRx 0 .a { wUp.rxe 0 .a with bad := 1000 }
def wTermU : State := termDone 1 [] wRun
/-- The six fields of LE_CFG of a lane, stored. -/
def leFields (n v : Nat) (s : State) : State :=
  [0, 1].foldl (fun s d =>
    ((s.wrB (R.LE_CFG_tx_pol (laneCluster n) (lanePos n) d) (bit v (2 + 4 * d))).wrB
      (R.LE_CFG_rx_pol_force (laneCluster n) (lanePos n) d) (bit v (1 + 4 * d))).wrB
        (R.LE_CFG_rx_pol_auto (laneCluster n) (lanePos n) d) (bit v (4 * d))) s
def cklGone (s : State) : State :=
  (s.putCkEntry 1 .ab { s.ckEntry 1 .ab with loss := true }).wr (R.CK_STAT_ckl_ok 1 Dir.ab.idx) 0
def wCklRec : State := put [(R.CK_STAT_mode 1 0, 3)] wCkl
def wCklFwd : State := put [(R.CK_STAT_mode 1 0, 1)] wCkl
/-- An x16 side of link 0 over the clusters 0 and 1, whose cluster 0 may lend its PLL. -/
def wCklX16 : State :=
  put ([(R.LNK_CFG_LIVE_mode 0, 2), (R.LNK_CFG_LIVE_width 0 0, 4), (R.LNK_CFG_LIVE_width 0 1, 4), (R.SIDE_MAP_valid 0, 1),
    (R.SIDE_MAP_hint 0, 1), (R.SIDE_MAP_valid 1, 1), (R.SIDE_MAP_hint 1, 1), (R.CK_CFG_borrow_en 1 0, 1),
    (R.CK_STAT_own_lock 0 0, 1), (R.RATE_STAT_rate 0 0, 2), (R.RATE_STAT_rate 1 0, 2)] ) wCklFwd
def unlocked (s : State) : State :=
  (s.wr (R.CK_STAT_own_lock 1 Dir.ab.idx) 0).putCk 1 .ab { s.ck 1 .ab with unlockHeld := true }
def wOwnSwitch : State := (put [(R.CK_STAT_mode 1 0, 1)] wOwn).putCk 1 .ab { wOwn.ck 1 .ab with switchFrom := some 0 }
def wOwnSwitchLent : State := put [(R.CK_STAT_lent 1 0, 1), (R.CK_STAT_borrowed 0 0, 1)] wOwnSwitch
def wOwnLent : State := put [(R.CK_STAT_lent 1 0, 1), (R.CK_STAT_borrowed 0 0, 1)] wOwn
def wOwnBor : State := put [(R.CK_STAT_borrowed 1 0, 1)] wOwn
def wOwnFall : State := put [(R.CK_STAT_mode 1 0, 2)] wOwn
def wOwnMay : State :=
  put [(R.CK_CFG_borrow_en 1 0, 1), (R.CK_STAT_own_lock 0 0, 1), (R.RATE_STAT_rate 0 0, 2), (R.RATE_STAT_rate 1 0, 2)]
    wOwnFall
def relocked (s : State) : State :=
  (s.putCk 1 .ab { s.ck 1 .ab with unlockHeld := false }).wr (R.CK_STAT_own_lock 1 Dir.ab.idx) 1
def wRelockBor : State := put [(R.CK_STAT_borrowed 1 0, 1)] wRelock
def wBorrowHeld : State := wRun.putCk 1 .ab { wRun.ck 1 .ab with borrowing := true, heldFrom := some 0 }
def denseMore (s : State) : State := s.putCk 1 .ab { s.ck 1 .ab with denseSent := (s.ck 1 .ab).denseSent + 1 }
def opDone (s : State) : State := s.putCk 1 .ab { s.ck 1 .ab with opFrom := none }
def wCkOp0Ok : State := put [(R.CK_STAT_ckl_ok 1 0, 1)] wCkOp0
def wCkOp2 : State := wCkOp0.putCk 1 .ab { wRun.ck 1 .ab with opFrom := some 2 }
def wCkOpRef : State := put [(R.CLK_STAT_refclk_good, 1)] wCkOp

/-! ### Adaptation and training, for outcomes -/

def wAcq0 : State := wAcqB.putCoef 3 .a { wAcqB.coefs 3 .a with blocks := 0, goodBlocks := 0 }
def wAcq1 : State := wAcqB.putCoef 3 .a { wAcqB.coefs 3 .a with blocks := 1, goodBlocks := 0 }
def wAcqG : State := wAcqB.putCoef 3 .a { wAcqB.coefs 3 .a with goodBlocks := 2 }
/-- What the fourth good block stores at an end. -/
def acqFourth (s : State) (n : Nat) : State :=
  s.putCoef n .a { coefSet (s.coefs n .a) (coefClamp [1, 2]) with
    mse := min 0 0xFFFF, valid := true, blocks := (s.coefs n .a).blocks + 1, goodBlocks := 4 }
/-- The end of an acquisition, before its outcome. -/
def acqOut (s : State) (n : Nat) : State :=
  engineDrop (laneCluster n) (rxIndex n .a) ((s.putCoef n .a { s.coefs n .a with
    rung := (s.coefs n .a).acqRung, acqRung := 7, everAcq := true, blocks := 0, goodBlocks := 0 }).wr (estOf n .a) esTrack)
def acqFail (s : State) (n : Nat) : State :=
  bobAcqEnd (laneCluster n) .a ((s.bump (R.ADAPT_CNT_acq_fail (laneCluster n))).raise (16 * laneCluster n + 7))
def wAcqLink : State :=
  ((put [(estOf 0 .a, 1)] wAcquire).putEngine 0 { cur := some (rxIndex 0 .a), visiting := false }).putCoef 0 .a
    { wAcquire.coefs 0 .a with blocks := 2, goodBlocks := 3 }
def wAcqLinkMax : State := wAcqLink.putCoef 0 .a { wAcqLink.coefs 0 .a with blocks := 300 }
def wTrackTrans : State :=
  (put [(estOf 0 .a, 2), (leSd 0 .a, 1)] wTransNoSd).putEngine 0 { cur := some (rxIndex 0 .a), visiting := true }
def wStepLed : State := put [(R.SPAN_STAT_leader 0 0, 1), (R.SPAN_STAT_rung 0 0, 0)] wStep
def wFollow : State := put [(R.SPAN_NBR_in_elect 0 0, 9), (R.SPAN_STAT_rung 0 0, 0)] (wSpan 4)
def rateHigh : TrnSet := { trnOf trnRATE with target := 7 }
def wFollowAck : State :=
  wFollow.putSide 0 .a { wFollow.side 0 .a with trnDue := [trnOf trnRATEACK] }
def wFollow2 : State := put [(R.SPAN_STAT_rung 0 0, 2), (R.SPAN_STAT_rung 0 1, 2)] wFollow
def wElect : State := put [(R.SPAN_NBR_in_elect 0 0, 9)] wUp
def ackNo : TrnSet := { trnOf trnRATEACK with value := 2 * 2 ^ 24 }
def capWide : TrnSet := { trnOf trnCAP with width := 3 }
def readyPass : TrnSet := { trnOf trnREADY with flags := 16 }
def readyNo : TrnSet := { trnOf trnREADY with flags := 0 }
/-- Link 1, a TRANSPARENT link on another lane of the cluster of link 0. -/
def wJoined : State :=
  put [(R.LNK_CFG_LIVE_mode 1, 1), (R.LNK_CFG_LIVE_width 1 0, 0), (R.LNK_CFG_LIVE_width 1 1, 0), (R.SIDE_MAP_valid 2, 1), (R.SIDE_MAP_base 2, 1), (R.SIDE_MAP_base 3, 1), (R.SIDE_MAP_hint 2, 1), (R.SIDE_MAP_valid 3, 1),
    (R.SIDE_MAP_hint 3, 1)] (wStepLed.putLink 1 { wStepLed.link 1 with running := true })
def wJoinedQ : State := put [(R.SPAN_STAT_state 0 0, 3)] wJoined
def capSeen (s : State) : State := s.modSpan 0 .a fun x => { x with capAcc := true }
def readyU (s : State) : State := s.modSpan 0 .a fun x => { x with passRcvd := false, thruRcvd := false }
def echoU (s : State) : State :=
  s.putSpan 0 .a { s.span 0 .a with echoOut := false, samples := (s.span 0 .a).samples ++ [100] }
def wMeasure7 : State := wMeasure.modSpan 0 .a fun x => { x with samples := [1, 2, 3, 4, 5, 6, 7] }
def wMeasure32 : State := wMeasure.modSpan 0 .a fun x => { x with requests := 32 }
def echoMore (s : State) : State :=
  s.putSpan 0 .a { s.span 0 .a with echoTag := 1, requests := 1, echoOut := true, echoAt := s.clock }
def groupOf (s : State) : List (Nat × Side) := (rateGroup s 0 .a).filter fun p => spanTraining s p.1 p.2
def settled (m : Nat) (s : State) : State :=
  (groupOf s).foldl (fun s p => s.modSpan p.1 p.2 fun x => { x with collisions := m, capFrom := s.clock }) s
def wClash7 : State := wAcquire.modSpan 0 .a fun x => { x with collisions := 7 }
def wNoClash : State := put [(R.SPAN_NBR_adv_elect 0 0, 5), (R.SPAN_NBR_adv_elect 0 1, 5)] wAcquire
def readyOk (s : State) : State := (readyEnter 0 .a s).modSpan 0 .a fun x => { x with judged := true, passes := true }
def wStep16 : State := wStep.modSpan 0 .a fun x => { x with rateSends := 16 }
def itemOver (s : State) : State :=
  itemEnds 0 .b ((leaveSend 0 .b s).side 0 .b).cur (itemDone 0 .b (leaveSend 0 .b s))
/-- Side b of link 0 changed; the state in which the item it sends there has ended. -/
def sideWith (f : SideSt → SideSt) (s : State) : State := s.putSide 0 .b (f (s.side 0 .b))
def sentAt (s : State) : State :=
  itemEnds 0 .b ((leaveSend 0 .b s).side 0 .b).cur (itemDone 0 .b (leaveSend 0 .b s))
def wNakDue : State :=
  (put [(R.TRK_CFG0_LIVE_trunk_side 0, 1)] wUpTrunk).putTrunk 0 { wUpTrunk.trunk 0 with drnNak := some 5 }
def wFifoUp : State := wUp.putFlow 0 { wUp.flow 0 with fifo := [{ flit := { bytes := List.replicate 144 0 } }] }
def ebFull (s : State) (n : Nat) : State :=
  (s.putRx n .a { s.rxe n .a with fill := 32, recentre := true, slip := some (true, 5) }).count
    (R.EB_ERR (laneCluster n) Side.a.dirIn.idx)
def wFarUp : State := put [(R.LB_CFG_active (lanePage 0), 1), (R.LB_CFG_loop (lanePage 0), 3)] wUpEb
def wRemeasure : State :=
  (put [(R.DSKW_valid 0 3 0, 1)] wLocked).putRx 3 .a { wLocked.rxe 3 .a with remeasure := true }
def wDarnOut : State := wDarn.putSlot 7 { wDarn.slot 7 with retry := 100 }

/-! ### The buffer's slices -/
/-- A bad slot 5 of bank 0 whose partner, slot 7 of bank 2, is live. -/
def wMirror : State :=
  (wRun.putSlot 5 { state := 3, mirror := true, partner := 2055 }).putSlot 2055 { state := 2, mirror := true, partner := 5 }
def wMirrorBad : State := wMirror.putSlot 2055 { state := 3, mirror := true, partner := 5 }
/-- As wMirror, with every bank but the standby retired, so that no slot is free. -/
def wMirrorFull : State := put ((List.range 33).map fun b => (R.BANK_STAT_state 0 b, 6)) wMirror
def wRotAt (rot bank : Nat) (f : DieBuf → DieBuf) : State :=
  let s := put [(R.BUF_STAT_rot 0, rot), (R.BUF_STAT_test_bank 0, bank)] wRun
  s.putBuf 0 (f (s.buf 0))
def wRot1Ret : State := wRotAt 1 3 fun b => { b with standIn := 32, retireAfter := true }
def wRot1Stop : State := wRotAt 1 3 fun b => { b with standIn := 32, stopped := some (5, 1) }
def wRot2By : State := wRotAt 2 32 fun b => { b with standIn := 63 }
def wRot2Ret : State := wRotAt 2 3 fun b => { b with standIn := 63, returning := true }
def wRot4Full : State := put ((List.range 33).map fun b => (R.BANK_STAT_state 0 b, 6)) ((wRotAt 4 3 id).putSlot (3 * 1024) { state := 2 })
def wStandbyRef : State := put [(R.CLK_STAT_refclk_good, 1)] wStandby
def wRetiredRef : State := put [(R.CLK_STAT_refclk_good, 1)] wRetired

/-! ### Prickings -/
def wPrkBusy : State := put [(R.PRK_CMD_busy, 1)] wRun
def wPrkBad : State := { wPrk with prk := { wPrk.prk with verdict := [12] } }
def wPrkOnly : State := { wPrk with prk := { wPrk.prk with checkOnly := true } }
def wPrkRe : State := { wPrk with prk := { wPrk.prk with origin := 2 } }
def wPrkReBad : State := { wPrkRe with prk := { wPrkRe.prk with verdict := [15, 2, 0, 1] } }
def wPrkBadHeld : State := { wPrkBad with prk := { wPrkBad.prk with heldRecheck := true } }
def wPrkOut : State := { wPrk with dev := { wPrk.dev with phase := .watch } }
def wApplyOut : State := { wApply with dev := { wApply.dev with phase := .watch } }

/-! ### Lane map and bobbins -/
def wTornOf (s : State) : State := wLate (s.putMap 0 { s.map 0 with tornUntil := some 0 })
def wAskedTwo : State := put [(R.BOB_STAT_state 0, 1)] (wUp.putBob 0 { wUp.bob 0 with asked := [0] })
def wMaySwitchTr : State :=
  put [(R.BOB_STAT_state 0, 1), (leLock 128 .a, 2), (R.DSKW_valid 0 8 0, 1)]
    (wAcquire.putBob 0 { wAcquire.bob 0 with acqDone := [0] })
def wSwapDet : State := put [(R.BOB_CFG_en 0 0, 1), (R.BOB_CFG_en 0 1, 1)] (wSpan 1)
def wSwapUp : State := put [(R.BOB_CFG_en 0 0, 1), (R.BOB_CFG_en 0 1, 1)] wUpFast

/-! ### Clocks and power -/
def wJudgeStart : State := put [(R.CLK_CFG_judge, 1)] wStart
def wJudgeIfo : State := put [(R.CLK_STAT_ifo_ready, 1)] wJudge
def wJudgeCStart : State := put [(R.CLK_CFG_judge, 2), (R.CLK_STAT_ifo_ready, 1)] wStart
/-- Every PLL with the same reference. -/
def wPllsAt (r : Nat) (s : State) : State :=
  let s := put [(R.CLK_STAT_core_ref 0, r), (R.CLK_STAT_core_ref 1, r)] s
  { s with clk := { s.clk with mgmtRef := r, seamRef := r } }
def wMonPlls : State := wPllsAt 0 wMon
def wMonStop : State := put [(R.CLK_STAT_core_ref 0, 3)] wMonPlls
def wHoldPassed : State := { wRef with clk := { wRef.clk with holdPassed := true } }
def wStartIfo : State := put [(R.CLK_STAT_ifo_ready, 1)] wStart
def wPll2On : State := put [(R.CLK_STAT_core_ref 0, 2)] (wPllsAt 1 wBothClk)
def wPll2Stop : State := put [(R.CLK_STAT_core_ref 0, 2), (R.CLK_STAT_core_ref 1, 3)] (wPllsAt 1 wBothClk)
def wPll2Bad : State := put [(R.CLK_STAT_refclk_good, 0)] wPll2On
def wPllLast : State := { wPll2Bad with clk := { wPll2Bad.clk with tripDue := true } }
def wPlHigh : State := put [(R.PL_STAT_level 0, 1), (R.PRK_DIE_pneed 0, 3)] wRun
def wPlLow : State := put [(R.PL_STAT_level 0, 0), (R.PRK_DIE_pneed 0, 3)] wRun

/-! ### Calibration -/
def wHot : State := { wRun with sup := { wRun.sup with hot := [0] } }
/-- Both directions of cluster 0 at rung 2. -/
def wCalRate : State := put [(R.RATE_STAT_rate 0 0, 2), (R.RATE_STAT_rate 0 1, 2)] wRun
def wCalQ : State := wCalSeq { queue := [9] } wCalRate
def wCalAsk : State := wCalQ.putEngine 0 { cur := some 9 }
def wCalTx : State := wCalSeq { cur := some 18, queue := [18] } wRun
def wCalTx3 : State := wCalSeq (({ cur := some 18, queue := [18] } : CalSeq).putEnd 18 { disagree := 2 }) wRun
def wCalWaitDue : State := put [(R.CAL_DUE 0 0, 1)] wCalWait
def wRext : State := put [(R.CAL_STAT_rext_fault 0, 1)] wRun
def wEyeHeld : State := wEye.putEngine 0 { cur := some 3 }

/-! ### Self-test -/
def wTurnOut : State := { wStart with bist := { wRun.bist with nextAt := some 0 } }
def wSliceEn : State := wSlice.putBob 0 { wSlice.bob 0 with enabling := true }
def wBist0 : State := wStart
def wBistRate : State := wCalRate
def wPrbs7 : State := put [(R.PRBS_CHK_pattern (lanePage 3), 1)] wPrbs
def wPrbs7Pam : State := put [(R.RATE_STAT_rate 0 0, 3), (R.RATE_STAT_rate 0 1, 3)] wPrbs7

/-! ### Supplies, fences and START -/
def wWarn2 : State := { put [(R.SUP_STAT_warn 1, 1)] wWarn with bist := { wRun.bist with pauseFrom := some 0 } }
def wWarn1 : State := { wWarn with bist := { wRun.bist with pauseFrom := some 0 } }
def wFencedDie : State := put [(R.FENCE_STAT_die 0, 1)] wRef
def wFencedPkg : State := put [(R.FENCE_STAT_pkg, 1)] wRef
def safImage : List Nat :=
  let x := 1 :: List.replicate 59 0
  x ++ [crc32 x / 2 ^ 24, crc32 x / 2 ^ 16 % 256, crc32 x / 2 ^ 8 % 256, crc32 x % 256]
def wSaf (n : Nat) : State := { wStartAt n with fuse := { wRun.fuse with saffron := safImage } }
def wSafRef (n : Nat) : State := put [(R.CLK_STAT_refclk_good, 1)] (wSaf n)
def wStartCal : State := wCalSeq { cur := some 18, queue := [18] } (wStartAt 3)
def wStart6L : State := put [(R.BT_STAT_loading, 1)] (wStartAt 6)
def wRejudge : State := { wStartAt 7 with clk := { wRun.clk with rejudge := true } }
def wEnumDone : State := put [(R.PCT_STAT_enum_done, 1)] (wStartAt 8)
def wTestFull : State := { wTest with bist := { wTest.bist with full := true } }
def wSafBad : State := { wStartAt 1 with fuse := { wRun.fuse with saffron := [] } }

/-! ### Rings -/
def wTrains7 : State := (wLate wRun).putHop 0 { (wLate wRun).hop 0 with trains := 7 }
def wCrossed : State := wLate (put [(R.PCT_STAT_cw, 3)] wRun)
def wEnum2 : State := { wEnum with ring := { wEnum.ring with enumOut := [0, 1] } }
def wEnumDup : State := wLate (put [(R.PCT_STAT_dup, 2)] wEnum)
def wEnumTwo : State := wLate (put [(R.PCT_POS_CW_pos 1, 3)] wEnum)
def wRemote1 : State := wLate { wRun with host := { wRun.host with spi := { remote := some { target := 1, tag := 5, left := [0] } } } }
def wRemote2 : State := wLate { wRun with host := { wRun.host with spi := { remote := some { target := 1, tag := 5, left := [0, 0] } } } }

/-! ### Host ports -/
def wHeldRes : State :=
  let p : PortSt := { serial := 1, len := 1, result := some (0, [5]) }
  { wRun with host := { wRun.host with spi := p, smb := p } }
def wNoRes : State :=
  let p : PortSt := { serial := 1, len := 1 }
  { wRun with host := { wRun.host with spi := p, smb := p } }
def wPtrOdd : State := { wRun with host := { wRun.host with ptr := 1 } }
def wPtrFar : State := { wRun with host := { wRun.host with ptr := 2 ^ 29 } }
def wGatedRgn : State := put [(R.CLK_EN_en 0x30, 0)] wRun

/-! ## Hypotheses that are met: for every statement that has hypotheses, one state and operands per clause -/

/-- The hypotheses of TablesStayCanonical can be met. -/
theorem witness_tablesStayCanonical :
    tablesCanonical wRun = true ∧ (∃ t, step { wRun with pending := [.doorbellWrite 1] } = .next t) := ⟨by decide +kernel, ⟨_, rfl⟩⟩

/-- The hypotheses of CommandsKeepQueueAndFuses can be met. -/
theorem witness_commandsKeepQueueAndFuses :
    (∃ t, exec (.powerOnReset) wRun = .next t) := ⟨_, rfl⟩

/-- The hypotheses of CommandsTouchOnlyTheirParts can be met. -/
theorem witness_commandsTouchOnlyTheirParts :
    (∃ t, exec (.lolWindowEnd 3 .a) wLocked = .next t) ∧ StatePart.regs ∉ touched (.lolWindowEnd 3 .a) := ⟨⟨_, rfl⟩, by decide +kernel⟩

/-- The hypotheses of DeviceStateMovesOnlyAsItsTableSays can be met. -/
theorem witness_deviceStateMovesOnlyAsItsTableSays :
    (∃ t, exec (.resetRelease 0) State.reset = .next t) := ⟨_, rfl⟩

/-- The hypotheses of IdleStepIsOneNanosecond can be met. -/
theorem witness_idleStepIsOneNanosecond :
    (State.reset.pending = [] ∧ State.reset.dev.phase = .off) ∧
    (wRun.pending = [] ∧ wRun.dev.phase ≠ .off ∧ (genTicks (nbrSwitched
      { wRun with clock := wRun.clock + 1 })).ring.hold = 0) ∧
    (wHold.pending = [] ∧ wHold.dev.phase ≠ .off ∧ (genTicks (nbrSwitched
      { wHold with clock := wHold.clock + 1 })).ring.hold ≠ 0) ∧
    ((∀ c < 16, (wRun.bob c).nbrAt = none) ∧ genEnds wRun = []) := by
  refine ⟨?_, ?_, ?_, ?_⟩ <;> decide +kernel

/-- The hypotheses of AbsentUnitsFault can be met. -/
theorem witness_absentUnitsFault :
    (lanePresent State.reset (({ n := 144, sd := .a } : LaneEnd)).n = false) ∧
    (lanePresent State.reset 144 = false) ∧
    (¬ (16 < clustersOf State.reset)) ∧
    ((pllUnits State.reset).contains 4 = false) ∧
    (¬ ((({ rail := 4, mv := 0, ns := 0 } : RailAt)).rail < 4)) ∧
    (¬ (128 < linksOf State.reset)) ∧
    (¬ ((({ c := 16, d := .ab } : ClockEnd)).c < clustersOf State.reset)) ∧
    (flowPresent State.reset 256 = false) ∧
    (trunkPresent State.reset 128 = false) ∧
    (¬ (1024 < llsOf State.reset)) ∧
    (¬ (32 < clustersOf State.reset || (16 ≤ 32 && 32 < 16 + calsOf State.reset))) ∧
    (¬ ((({ die := 2, addr := 0 } : SlotAt)).die < diesOf State.reset && (({ die := 2, addr := 0 } : SlotAt)).addr <
      65536)) ∧
    (¬ (2 < diesOf State.reset)) ∧
    (¬ ((({ die := 2, reads := [] } : BankReads)).die < diesOf State.reset)) ∧
    (¬ (256 < 2 * linksOf State.reset)) ∧
    (¬ (256 < clustersOf State.reset && 256 < 2 * linksOf State.reset)) ∧
    (isLz4064 wSmall = true) ∧
    (¬ (320 < 320)) ∧
    (¬ (2 < 2)) := by
  refine ⟨?_, ?_, ?_, ?_, ?_, ?_, ?_, ?_, ?_, ?_, ?_, ?_, ?_, ?_, ?_, ?_, ?_, ?_, ?_⟩ <;> decide +kernel

/-- The hypotheses of ClosedPagesDropCommands can be met. -/
theorem witness_closedPagesDropCommands :
    ((¬ (16 < clustersOf State.reset) ∨ pageOpen State.reset (0x10 + 16) = false)) ∧
    ((¬ (lanePresent State.reset 144) ∨ pageOpen State.reset (0x10 + laneCluster 144) = false)) ∧
    ((¬ (16 < clustersOf State.reset) ∨ pageOpen State.reset (0x20 + 16) = false)) ∧
    (pageOpen State.reset 0xE = false) ∧
    ((¬ (128 < linksOf State.reset) ∨ pageOpen State.reset (0x40 + 128) = false)) ∧
    ((¬ (8 < lltPages State.reset) ∨ pageOpen State.reset (0xC0 + 8) = false)) ∧
    ((¬ (16 < calsOf State.reset) ∨ pageOpen State.reset (0xC8 + 16 / 2) = false)) ∧
    ((¬ (2 < diesOf State.reset) ∨ pageOpen State.reset (0xD0 + 2) = false)) ∧
    ((¬ (2 < diesOf State.reset) ∨ pageOpen State.reset (0x38 + 2) = false)) ∧
    (pageOpen State.reset 0xC = false) ∧
    (pageOpen State.reset 0xD = false) ∧
    ((¬ (256 < 2 * linksOf State.reset) ∨ pageOpen State.reset 0xD = false)) ∧
    ((¬ (128 < lanesOf State.reset) ∨ pageOpen State.reset 0xD = false)) ∧
    (pageOpen State.reset 1 = false) ∧
    (pageOpen State.reset 2 = false) ∧
    (pageOpen State.reset 7 = false) ∧
    (pageOpen State.reset 0 = false) ∧
    (pageOpen State.reset 5000 = false) ∧
    (pageOpen State.reset 4 = false) ∧
    (pageOpen State.reset 6 = false) ∧
    (pageOpen State.reset 0xA = false) ∧
    (pageOpen State.reset 8 = false) := by
  refine ⟨?_, ?_, ?_, ?_, ?_, ?_, ?_, ?_, ?_, ?_, ?_, ?_, ?_, ?_, ?_, ?_, ?_, ?_, ?_, ?_, ?_, ?_⟩ <;> decide +kernel

/-- The hypotheses of RegistersHoldWhatIsStored can be met. -/
theorem witness_registersHoldWhatIsStored :
    tablesCanonical wRun = true := by decide +kernel

/-- The hypotheses of InterruptInputsAndClaims can be met. -/
theorem witness_interruptInputsAndClaims :
    (16 < 320 ∧ levelSource 16 = false) ∧
    (260 < 320 ∧ levelSource 260 = true) ∧
    (pageOpen wSrc (4 + cls false) = true ∧ 0 < 2 ∧ bankServing wSrc false 0 = false ∧ (false = false → bankReady
      wSrc true 0 = false) ∧ firstWaiting wSrc false 0 = some 16) ∧
    (pageOpen wEntry (4 + cls false) = true ∧ bankServing wEntry false 2 = false ∧ isHead wEntry = true ∧ firstEntry
      wEntry false = some ({ ring := 1, src := 16, count := 2 })) ∧
    (pageOpen wServe (4 + cls false) = true ∧ 0 < 2 ∧ 16 < 1023 ∧ bankServing wServe false 0 = true ∧ wServe.rd
      (R.BANK_source (cls false) 0) = 16) ∧
    (pageOpen wRun 4 = true) ∧
    (pageOpen wRun 6 = true ∧ sourceExists wRun 16 = true ∧ isNmi 16 = false ∧ bit 1 31 = false) ∧
    (pageOpen wRun 6 = true ∧ sourceExists wRun 16 = true ∧ isNmi 16 = false ∧ bit 0x80000001 31 = true) := by
  refine ⟨?_, ?_, ?_, ?_, ?_, ?_, ?_, ?_⟩ <;> decide +kernel

/-- The hypotheses of RingDeliveryOfSources can be met. -/
theorem witness_ringDeliveryOfSources :
    (wDlv.dev.phase = .run ∧ mayDeliver wDlv 16 = true ∧ isHead wDlv = true) ∧
    (wDlvFar.dev.phase = .run ∧ mayDeliver wDlvFar 16 = true ∧ isHead wDlvFar = false) ∧
    (wResend.ring.resend.contains 16 = true ∧ wResend.on (R.SRC_CFG_active 16) = true ∧ isHead wResend = false ∧
      headReachable wResend = true) := by
  refine ⟨?_, ?_, ?_⟩ <;> decide +kernel

/-- The hypotheses of SignalAndLockEvents can be met. -/
theorem witness_signalAndLockEvents :
    ((sdOn wRun 3 .a) = ((wRun.wr (leSd 3 Side.a) 1).wr (leIdle 3 Side.a) 0).putRx 3 Side.a
      { wRun.rxe 3 Side.a with sdSince := some wRun.clock, losAt := none } ∧ lanePresent wRun 3 = true ∧ rxDeaf wRun
      3 Side.a = false ∧ wRun.on (leSd 3 Side.a) = false ∧ (sdLevels wRun (laneCluster 3)).1 ≤ 200 ∧ 100 ≤ 100 ∧
      endUse (sdOn wRun 3 .a) 3 Side.a = none ∧ ((sdOn wRun 3 .a).coefs 3 Side.a).acqRung = 7) ∧
    ((sdOn wAcqWait 3 .a) = ((wAcqWait.wr (leSd 3 Side.a) 1).wr (leIdle 3 Side.a) 0).putRx 3 Side.a
      { wAcqWait.rxe 3 Side.a with sdSince := some wAcqWait.clock, losAt := none } ∧ lanePresent wAcqWait 3 = true ∧
      rxDeaf wAcqWait 3 Side.a = false ∧ wAcqWait.on (leSd 3 Side.a) = false ∧ (sdLevels wAcqWait (laneCluster 3)).1
      ≤ 200 ∧ 100 ≤ 100 ∧ endUse (sdOn wAcqWait 3 .a) 3 Side.a = none ∧ ((sdOn wAcqWait 3 .a).coefs 3
      Side.a).acqRung ≠ 7) ∧
    ((sdOn wTransNoSd 0 .a) = ((wTransNoSd.wr (leSd 0 Side.a) 1).wr (leIdle 0 Side.a) 0).putRx 0 Side.a
      { wTransNoSd.rxe 0 Side.a with sdSince := some wTransNoSd.clock, losAt := none } ∧ lanePresent wTransNoSd 0 =
      true ∧ rxDeaf wTransNoSd 0 Side.a = false ∧ wTransNoSd.on (leSd 0 Side.a) = false ∧ (sdLevels wTransNoSd
      (laneCluster 0)).1 ≤ 200 ∧ 100 ≤ 100 ∧ endUse (sdOn wTransNoSd 0 .a) 0 Side.a = some (0, 0) ∧ modeOf (sdOn
      wTransNoSd 0 .a) 0 = mTransparent) ∧
    ((sdOn wLinkNoSd 0 .a) = ((wLinkNoSd.wr (leSd 0 Side.a) 1).wr (leIdle 0 Side.a) 0).putRx 0 Side.a
      { wLinkNoSd.rxe 0 Side.a with sdSince := some wLinkNoSd.clock, losAt := none } ∧ lanePresent wLinkNoSd 0 =
      true ∧ rxDeaf wLinkNoSd 0 Side.a = false ∧ wLinkNoSd.on (leSd 0 Side.a) = false ∧ (sdLevels wLinkNoSd
      (laneCluster 0)).1 ≤ 200 ∧ 100 ≤ 100 ∧ endUse (sdOn wLinkNoSd 0 .a) 0 Side.a = some (0, 0) ∧ modeOf (sdOn
      wLinkNoSd 0 .a) 0 ≠ mTransparent ∧ ((sdOn wLinkNoSd 0 .a).coefs 0 Side.a).acqRung = 7) ∧
    ((sdOn wLinkAcq 0 .a) = ((wLinkAcq.wr (leSd 0 Side.a) 1).wr (leIdle 0 Side.a) 0).putRx 0 Side.a
      { wLinkAcq.rxe 0 Side.a with sdSince := some wLinkAcq.clock, losAt := none } ∧ lanePresent wLinkAcq 0 = true ∧
      rxDeaf wLinkAcq 0 Side.a = false ∧ wLinkAcq.on (leSd 0 Side.a) = false ∧ (sdLevels wLinkAcq (laneCluster 0)).1
      ≤ 200 ∧ 100 ≤ 100 ∧ endUse (sdOn wLinkAcq 0 .a) 0 Side.a = some (0, 0) ∧ modeOf (sdOn wLinkAcq 0 .a) 0 ≠
      mTransparent ∧ ((sdOn wLinkAcq 0 .a).coefs 0 Side.a).acqRung ≠ 7) ∧
    (lanePresent wRun 3 = true ∧ (20 < (sdLevels wRun (laneCluster 3)).1 ∨ 100 < 100)) ∧
    (losesSignal wSd Side.a 20 5000 3 = true ∧ isLocked wSd 3 Side.a = false ∧ endUse wSd 3 Side.a = none) ∧
    (losesSignal wEieHeard Side.a 20 5000 0 = true ∧ isLocked wEieHeard 0 Side.a = false ∧ endUse wEieHeard 0 Side.a
      = some (0, 0) ∧ (wEieHeard.side 0 Side.a).lastEie = some 0 ∧ 0 + 5000 ≤ wEieHeard.clock ∧ wEieHeard.clock ≤ 0
      + 1000 + 5000) ∧
    (losesSignal wLocked Side.a 20 5000 3 = true ∧ isLocked wLocked 3 Side.a = true ∧ endUse wLocked 3 Side.a =
      none) ∧
    (lanePresent wLocked 3 = true) ∧
    (lanePresent wSd 3 = true ∧ clusterStopped wSd (laneCluster 3) = false ∧ wSd.on (leSd 3 Side.a) = true ∧ decodes
      wSd 3 Side.a = true ∧ 4 < (if isPam (ckRate wSd (laneCluster 3) Side.a.dirIn) then 5 else 10) ∧ wSd.rd (leLock
      3 Side.a) = lkUnlocked) ∧
    (lanePresent wAlign 3 = true ∧ clusterStopped wAlign (laneCluster 3) = false ∧ wAlign.on (leSd 3 Side.a) = true
      ∧ decodes wAlign 3 Side.a = true ∧ 0 < (if isPam (ckRate wAlign (laneCluster 3) Side.a.dirIn) then 5 else 10)
      ∧ wAlign.rd (leLock 3 Side.a) = lkAligning ∧ 0 = (wAlign.rxe 3 Side.a).offset ∧ (wAlign.rxe 3 Side.a).commas +
      1 < acqCommas wAlign (laneCluster 3)) ∧
    (lanePresent wAlign2 3 = true ∧ clusterStopped wAlign2 (laneCluster 3) = false ∧ wAlign2.on (leSd 3 Side.a) =
      true ∧ decodes wAlign2 3 Side.a = true ∧ 0 < (if isPam (ckRate wAlign2 (laneCluster 3) Side.a.dirIn) then 5
      else 10) ∧ wAlign2.rd (leLock 3 Side.a) = lkAligning ∧ 0 = (wAlign2.rxe 3 Side.a).offset ∧ acqCommas wAlign2
      (laneCluster 3) ≤ (wAlign2.rxe 3 Side.a).commas + 1) ∧
    (lanePresent wAlign 3 = true ∧ clusterStopped wAlign (laneCluster 3) = false ∧ wAlign.on (leSd 3 Side.a) = true
      ∧ decodes wAlign 3 Side.a = true ∧ 1 < (if isPam (ckRate wAlign (laneCluster 3) Side.a.dirIn) then 5 else 10)
      ∧ wAlign.rd (leLock 3 Side.a) = lkAligning ∧ 1 ≠ (wAlign.rxe 3 Side.a).offset ∧ (wAlign.rxe 3 Side.a).polSet =
      false) ∧
    (lanePresent wAlignPol 3 = true ∧ clusterStopped wAlignPol (laneCluster 3) = false ∧ wAlignPol.on (leSd 3
      Side.a) = true ∧ decodes wAlignPol 3 Side.a = true ∧ 1 < (if isPam (ckRate wAlignPol (laneCluster 3)
      Side.a.dirIn) then 5 else 10) ∧ wAlignPol.rd (leLock 3 Side.a) = lkAligning ∧ 1 ≠ (wAlignPol.rxe 3
      Side.a).offset ∧ (wAlignPol.rxe 3 Side.a).polSet = true) ∧
    (lanePresent wLocked 3 = true ∧ clusterStopped wLocked (laneCluster 3) = false ∧ wLocked.on (leSd 3 Side.a) =
      true ∧ decodes wLocked 3 Side.a = true ∧ 0 < (if isPam (ckRate wLocked (laneCluster 3) Side.a.dirIn) then 5
      else 10) ∧ wLocked.rd (leLock 3 Side.a) = lkLocked ∧ 0 = (wLocked.rxe 3 Side.a).offset) ∧
    (lanePresent wLocked 3 = true ∧ clusterStopped wLocked (laneCluster 3) = false ∧ wLocked.on (leSd 3 Side.a) =
      true ∧ decodes wLocked 3 Side.a = true ∧ 1 < (if isPam (ckRate wLocked (laneCluster 3) Side.a.dirIn) then 5
      else 10) ∧ wLocked.rd (leLock 3 Side.a) = lkLocked ∧ 1 ≠ (wLocked.rxe 3 Side.a).offset ∧ (wLocked.rxe 3
      Side.a).bad + 1 < lolBad wLocked (laneCluster 3)) ∧
    (lanePresent wLockedBad 3 = true ∧ clusterStopped wLockedBad (laneCluster 3) = false ∧ wLockedBad.on (leSd 3
      Side.a) = true ∧ decodes wLockedBad 3 Side.a = true ∧ 1 < (if isPam (ckRate wLockedBad (laneCluster 3)
      Side.a.dirIn) then 5 else 10) ∧ wLockedBad.rd (leLock 3 Side.a) = lkLocked ∧ 1 ≠ (wLockedBad.rxe 3
      Side.a).offset ∧ lolBad wLockedBad (laneCluster 3) ≤ (wLockedBad.rxe 3 Side.a).bad + 1) ∧
    ((commaRd 3 .a true wAlign2) = commaRd 3 Side.a true wAlign2 ∧ (lockEnd 3 .a (commaRd 3 .a true wAlign2)) =
      steerSync (laneCluster 3) (adaptEnters 3 Side.a (ebCentre 3 Side.a (((((commaRd 3 .a true wAlign2).putRx 3
      Side.a
      { (commaRd 3 .a true wAlign2).rxe 3 Side.a with winFrom := 850 * (commaRd 3 .a true wAlign2).clock, commas := 0, bad := 0, misses := 0, balRun := isPam (ckRate (commaRd 3 .a true wAlign2) (laneCluster 3) Side.a.dirIn), polSet := false, polDecided := ((commaRd 3 .a true wAlign2).rxe 3 Side.a).polDecided || (isPam (ckRate (commaRd 3 .a true wAlign2) (laneCluster 3) Side.a.dirIn) && polAuto (commaRd 3 .a true wAlign2) 3 Side.a) }).wr
      (leLock 3 Side.a) lkLocked).wr (R.LANE_NUM_num_valid (laneCluster 3) (lanePos 3) Side.a.idx) 0).wr
      (R.BAL_valid (laneCluster 3) (lanePos 3) Side.a.idx) 0))) ∧ lanePresent wAlign2 3 = true ∧ clusterStopped
      wAlign2 (laneCluster 3) = false ∧ wAlign2.rd (leLock 3 Side.a) = lkAligning ∧ acqCommas wAlign2 (laneCluster
      3) ≤ (wAlign2.rxe 3 Side.a).commas + 1 ∧ endUse (lockEnd 3 .a (commaRd 3 .a true wAlign2)) 3 Side.a = none) ∧
    ((commaRd 0 .a true wAlignLink) = commaRd 0 Side.a true wAlignLink ∧ (lockOf wAlignLink) = steerSync
      (laneCluster 0) (adaptEnters 0 Side.a (ebCentre 0 Side.a (((((commaRd 0 .a true wAlignLink).putRx 0 Side.a
      { (commaRd 0 .a true wAlignLink).rxe 0 Side.a with winFrom := 850 * (commaRd 0 .a true wAlignLink).clock, commas := 0, bad := 0, misses := 0, balRun := isPam (ckRate (commaRd 0 .a true wAlignLink) (laneCluster 0) Side.a.dirIn), polSet := false, polDecided := ((commaRd 0 .a true wAlignLink).rxe 0 Side.a).polDecided || (isPam (ckRate (commaRd 0 .a true wAlignLink) (laneCluster 0) Side.a.dirIn) && polAuto (commaRd 0 .a true wAlignLink) 0 Side.a) }).wr
      (leLock 0 Side.a) lkLocked).wr (R.LANE_NUM_num_valid (laneCluster 0) (lanePos 0) Side.a.idx) 0).wr
      (R.BAL_valid (laneCluster 0) (lanePos 0) Side.a.idx) 0))) ∧ lanePresent wAlignLink 0 = true ∧ clusterStopped
      wAlignLink (laneCluster 0) = false ∧ wAlignLink.rd (leLock 0 Side.a) = lkAligning ∧ acqCommas wAlignLink
      (laneCluster 0) ≤ (wAlignLink.rxe 0 Side.a).commas + 1 ∧ endUse (lockOf wAlignLink) 0 Side.a = some (0, 0)) ∧
    (lanePresent wAlign 3 = true ∧ clusterStopped wAlign (laneCluster 3) = false ∧ wAlign.rd (leLock 3 Side.a) =
      lkAligning ∧ (wAlign.rxe 3 Side.a).polSet = false) ∧
    (lanePresent wAlignPol 3 = true ∧ clusterStopped wAlignPol (laneCluster 3) = false ∧ wAlignPol.rd (leLock 3
      Side.a) = lkAligning ∧ (wAlignPol.rxe 3 Side.a).polSet = true) ∧
    ((lockDrop 3 .a wLockedBad) = unlock 3 Side.a ((wLockedBad.raise (16 * laneCluster 3 + 1)).count (R.LOCKLOSS
      (laneCluster 3) (lanePos 3) Side.a.idx)) ∧ losesLock wLockedBad Side.a 3 = true ∧ bobState (lockDrop 3 .a
      wLockedBad) (laneCluster 3) ≠ bbReturning ∧ endUse (lockDrop 3 .a wLockedBad) 3 Side.a = none) ∧
    ((lockDrop 0 .a wUpBad) = unlock 0 Side.a ((wUpBad.raise (16 * laneCluster 0 + 1)).count (R.LOCKLOSS
      (laneCluster 0) (lanePos 0) Side.a.idx)) ∧ losesLock wUpBad Side.a 0 = true ∧ bobState (lockDrop 0 .a wUpBad)
      (laneCluster 0) ≠ bbReturning ∧ endUse (lockDrop 0 .a wUpBad) 0 Side.a = some (0, 0) ∧ spanUp (lockDrop 0 .a
      wUpBad) 0 Side.a = true ∧ (endLanes (lockDrop 0 .a wUpBad) 0 Side.a).all (fun m => !isLocked (lockDrop 0 .a
      wUpBad) m Side.a) = true) ∧
    (lanePresent wLockedBad 3 = true) ∧
    (lanePresent (wLate wLocked) 3 = true ∧ clusterStopped (wLate wLocked) (laneCluster 3) = false ∧ isLocked (wLate
      wLocked) 3 Side.a = true ∧ ((wLate wLocked).rxe 3 Side.a).winFrom + lolWindow (wLate wLocked) 3 Side.a ≤ 850 *
      (wLate wLocked).clock) := by
  refine ⟨?_, ?_, ?_, ?_, ?_, ?_, ?_, ?_, ?_, ?_, ?_, ?_, ?_, ?_, ?_, ?_, ?_, ?_, ?_, ?_, ?_, ?_, ?_, ?_, ?_, ?_⟩ <;> decide +kernel

/-- The hypotheses of LaneEndMeasurements can be met. -/
theorem witness_laneEndMeasurements :
    (lanePresent (wLate wLinkSd) 1 = true ∧ rxDeaf (wLate wLinkSd) 1 Side.a = false ∧ (wLate wLinkSd).on (leSd 1
      Side.a) = false ∧ ((wLate wLinkSd).rxe 1 Side.a).losAt.getD 0 + 10000000 < (wLate wLinkSd).clock ∧ (wLate
      wLinkSd).on (leRxOpen 1 Side.a) = false ∧ otherSignal (wLate wLinkSd) 1 Side.a = true) ∧
    (lanePresent (wOpen 3) 3 = true ∧ clusterStopped (wOpen 3) (laneCluster 3) = false ∧ (wOpen 3).on (leSd 3
      Side.a) = true ∧ passed ((wOpen 3).rxe 3 Side.a).sdSince 1000000 (wOpen 3).clock = true ∧ (wOpen 3).on
      (leRxOpen 3 Side.a) = true ∧ endUse (bobRelease (laneCluster 3) ((wOpen 3).wr (leRxOpen 3 Side.a) 0)) 3 Side.a
      = none) ∧
    (lanePresent (wOpen 0) 0 = true ∧ clusterStopped (wOpen 0) (laneCluster 0) = false ∧ (wOpen 0).on (leSd 0
      Side.a) = true ∧ passed ((wOpen 0).rxe 0 Side.a).sdSince 1000000 (wOpen 0).clock = true ∧ (wOpen 0).on
      (leRxOpen 0 Side.a) = true ∧ endUse (bobRelease (laneCluster 0) ((wOpen 0).wr (leRxOpen 0 Side.a) 0)) 0 Side.a
      = some (0, 0)) ∧
    (3 < 144 ∧ lanePresent wTx 3 = true ∧ (wTx.txe 3 Side.b).idle = false ∧ 1 ≤ 2 ∧ 2 ≤ 3) ∧
    (0 < clustersOf wCkTx ∧ (wCkTx.ckExit 0 Side.b.dirOut).idle = false ∧ 1 ≤ 2 ∧ 2 ≤ 3) ∧
    (1 < clustersOf wRun ∧ pageOpen wRun (0x10 + 1) = true ∧ wRun.on (R.TERM_CMD_busy 1) = false ∧ (termEnds 3 true
      false).all (fun e => (wRun.txe (laneAt 1 e.1) e.2).idle) = true) ∧
    (0 < clustersOf wTx ∧ pageOpen wTx (0x10 + 0) = true ∧ wTx.on (R.TERM_CMD_busy 0) = false ∧ (termEnds 8 false
      true).any (fun e => !(wTx.txe (laneAt 0 e.1) e.2).idle) = true) ∧
    (([]) = (((List.range 9).flatMap fun j => [j, 9 + j]).filter fun e => (wRun.txe (laneAt 1 (e % 9)) (Side.ofIdx
      (e / 9))).detecting) ∧ wTermU = (([Dir.ab, Dir.ba].foldl (fun zs d => termClock 1 d (([]).contains (18 +
      d.idx)) zs) (([]).foldl (fun zs e => termResult 1 (e % 9) (Side.ofIdx (e / 9)) (([]).contains e) zs) wRun)).wr
      (R.TERM_CMD_busy 1) 0) ∧ wTermU = (([]).foldl (fun zs e => termFaulty 1 (e % 9) (Side.ofIdx (e / 9)) zs)
      wTermU) ∧ 1 < clustersOf wRun ∧ (wRun.bob 1).detect = false) ∧
    (lanePresent wBal 3 = true ∧ clusterStopped wBal (laneCluster 3) = false ∧ isLocked wBal 3 Side.a = true ∧
      (wBal.rxe 3 Side.a).balRun = true ∧ isPam (ckRate wBal (laneCluster 3) Side.a.dirIn) = true) ∧
    (1 < clustersOf wRun ∧ pageOpen wRun (0x10 + 1) = true) ∧
    (1 < clustersOf wRun ∧ pageOpen wRun (0x10 + 1) = true) ∧
    ((leFields 3 0x11 wRun) = (((((wRun.wrB (R.LE_CFG_tx_pol (laneCluster 3) (lanePos 3) 0) (bit 0x11 2)).wrB
      (R.LE_CFG_rx_pol_force (laneCluster 3) (lanePos 3) 0) (bit 0x11 1)).wrB (R.LE_CFG_rx_pol_auto (laneCluster 3)
      (lanePos 3) 0) (bit 0x11 0)).wrB (R.LE_CFG_tx_pol (laneCluster 3) (lanePos 3) 1) (bit 0x11 6)).wrB
      (R.LE_CFG_rx_pol_force (laneCluster 3) (lanePos 3) 1) (bit 0x11 5)).wrB (R.LE_CFG_rx_pol_auto (laneCluster 3)
      (lanePos 3) 1) (bit 0x11 4) ∧ lanePresent wRun 3 = true ∧ pageOpen wRun (0x10 + laneCluster 3) = true) := by
  refine ⟨?_, ?_, ?_, ?_, ?_, ?_, ?_, ?_, ?_, ?_, ?_, ?_⟩ <;> decide +kernel

/-- The hypotheses of EntryClockEvents can be met. -/
theorem witness_entryClockEvents :
    (1 < clustersOf wRef ∧ wRef.on (R.CK_STAT_ckl_inv 1 Dir.ab.idx) = false ∧ clockJudged wRef 1 = true) ∧
    (1 < clustersOf wRef ∧ clockJudged wRef 1 = true ∧ cklLevel wRef 1 ≤ 100 ∧ 100 ≤ ckTolerance wRef 1 ∧ 100000 ≤
      100000) ∧
    (1 < clustersOf wRef ∧ clusterStopped wRef 1 = false ∧ wRef.dev.phase ≠ .watch ∧ cklInLoss wRef 1 10 257 0 =
      true ∧ wRef.on (R.CK_STAT_ckl_ok 1 Dir.ab.idx) = false) ∧
    ((cklGone wCkl) = (wCkl.putCkEntry 1 Dir.ab { wCkl.ckEntry 1 Dir.ab with loss := true }).wr (R.CK_STAT_ckl_ok 1
      Dir.ab.idx) 0 ∧ 1 < clustersOf wCkl ∧ clusterStopped wCkl 1 = false ∧ wCkl.dev.phase ≠ .watch ∧ cklInLoss wCkl
      1 10 257 0 = true ∧ wCkl.on (R.CK_STAT_ckl_ok 1 Dir.ab.idx) = true ∧ ckMode (cklGone wCkl) 1 Dir.ab = ckOff) ∧
    ((cklGone wCklRec) = (wCklRec.putCkEntry 1 Dir.ab { wCklRec.ckEntry 1 Dir.ab with loss := true }).wr
      (R.CK_STAT_ckl_ok 1 Dir.ab.idx) 0 ∧ 1 < clustersOf wCklRec ∧ clusterStopped wCklRec 1 = false ∧
      wCklRec.dev.phase ≠ .watch ∧ cklInLoss wCklRec 1 10 257 0 = true ∧ wCklRec.on (R.CK_STAT_ckl_ok 1 Dir.ab.idx)
      = true ∧ ckMode (cklGone wCklRec) 1 Dir.ab ≠ ckOff ∧ steadyForward ((cklGone wCklRec).raise (16 * 1 + 2 +
      Dir.ab.idx)) Dir.ab 1 = false) ∧
    ((cklGone wCklX16) = (wCklX16.putCkEntry 1 Dir.ab { wCklX16.ckEntry 1 Dir.ab with loss := true }).wr
      (R.CK_STAT_ckl_ok 1 Dir.ab.idx) 0 ∧ 1 < clustersOf wCklX16 ∧ clusterStopped wCklX16 1 = false ∧
      wCklX16.dev.phase ≠ .watch ∧ cklInLoss wCklX16 1 10 257 0 = true ∧ wCklX16.on (R.CK_STAT_ckl_ok 1 Dir.ab.idx)
      = true ∧ ckMode (cklGone wCklX16) 1 Dir.ab ≠ ckOff ∧ steadyForward ((cklGone wCklX16).raise (16 * 1 + 2 +
      Dir.ab.idx)) Dir.ab 1 = true ∧ (x16Side ((cklGone wCklX16).raise (16 * 1 + 2 + Dir.ab.idx)) 1 Dir.ab &&
      mayBorrow ((cklGone wCklX16).raise (16 * 1 + 2 + Dir.ab.idx)) 1 Dir.ab) = true) ∧
    ((cklGone wCklFwd) = (wCklFwd.putCkEntry 1 Dir.ab { wCklFwd.ckEntry 1 Dir.ab with loss := true }).wr
      (R.CK_STAT_ckl_ok 1 Dir.ab.idx) 0 ∧ 1 < clustersOf wCklFwd ∧ clusterStopped wCklFwd 1 = false ∧
      wCklFwd.dev.phase ≠ .watch ∧ cklInLoss wCklFwd 1 10 257 0 = true ∧ wCklFwd.on (R.CK_STAT_ckl_ok 1 Dir.ab.idx)
      = true ∧ ckMode (cklGone wCklFwd) 1 Dir.ab ≠ ckOff ∧ steadyForward ((cklGone wCklFwd).raise (16 * 1 + 2 +
      Dir.ab.idx)) Dir.ab 1 = true ∧ (x16Side ((cklGone wCklFwd).raise (16 * 1 + 2 + Dir.ab.idx)) 1 Dir.ab &&
      mayBorrow ((cklGone wCklFwd).raise (16 * 1 + 2 + Dir.ab.idx)) 1 Dir.ab) = false) ∧
    ((wSwitch.ck 1 .ab).switchFrom.isSome = true ∧ modeMates wSwitch 1 = [1] ∧ ckMode (switched wSwitch 1 .ab) 1 .ab
      = ckForwarded ∧ refGood (switched wSwitch 1 .ab) = true ∧ carriesTransparent (switched wSwitch 1 .ab) 1 .ab =
      false) ∧
    ((wSwitchNoRef.ck 1 .ab).switchFrom.isSome = true ∧ modeMates wSwitchNoRef 1 = [1] ∧ ckMode (switched
      wSwitchNoRef 1 .ab) 1 .ab = ckForwarded ∧ refGood (switched wSwitchNoRef 1 .ab) = false) ∧
    (1 < clustersOf wSwitch ∧ (wSwitch.ck 1 Dir.ab).switchFrom.isSome = true) ∧
    (1 < clustersOf (wLate wSwitchLend) ∧ passed ((wLate wSwitchLend).ck 1 Dir.ab).switchFrom 8000 (wLate
      wSwitchLend).clock = true ∧ (wLate wSwitchLend).on (R.CK_STAT_pll_lock 1 Dir.ab.idx) = false ∧ mayBorrow
      (wLate wSwitchLend) 1 Dir.ab = true) ∧
    ((switched (wLate wSwitch) 1 .ab) = (swapHeld 1 (((wLate wSwitch).ck 1 Dir.ab).switchFrom.getD (wLate
      wSwitch).clock) (wLate wSwitch)).putCk 1 Dir.ab
      { (swapHeld 1 (((wLate wSwitch).ck 1 Dir.ab).switchFrom.getD (wLate wSwitch).clock) (wLate wSwitch)).ck 1 Dir.ab with switchFrom := none }
      ∧ 1 < clustersOf (wLate wSwitch) ∧ passed ((wLate wSwitch).ck 1 Dir.ab).switchFrom 8000 (wLate wSwitch).clock
      = true ∧ (wLate wSwitch).on (R.CK_STAT_pll_lock 1 Dir.ab.idx) = false ∧ mayBorrow (wLate wSwitch) 1 Dir.ab =
      false) := by
  refine ⟨?_, ?_, ?_, ?_, ?_, ?_, ?_, ?_, ?_, ?_, ?_, ?_⟩ <;> decide +kernel

/-- The hypotheses of ClusterPllEvents can be met. -/
theorem witness_clusterPllEvents :
    ((unlocked wOwnSwitch) = (wOwnSwitch.wr (R.CK_STAT_own_lock 1 Dir.ab.idx) 0).putCk 1 Dir.ab
      { wOwnSwitch.ck 1 Dir.ab with unlockHeld := true } ∧ 1 < clustersOf wOwnSwitch ∧ wOwnSwitch.on
      (R.CK_STAT_own_lock 1 Dir.ab.idx) = true ∧ (((unlocked wOwnSwitch).ck 1 Dir.ab).switchFrom.isSome && ckMode
      (unlocked wOwnSwitch) 1 Dir.ab = ckForwarded) = true ∧ ((unlocked wOwnSwitch).wr (R.CK_STAT_pll_lock 1
      Dir.ab.idx) 0).on (R.CK_STAT_lent 1 Dir.ab.idx) = false) ∧
    ((unlocked wOwnSwitchLent) = (wOwnSwitchLent.wr (R.CK_STAT_own_lock 1 Dir.ab.idx) 0).putCk 1 Dir.ab
      { wOwnSwitchLent.ck 1 Dir.ab with unlockHeld := true } ∧ 1 < clustersOf wOwnSwitchLent ∧ wOwnSwitchLent.on
      (R.CK_STAT_own_lock 1 Dir.ab.idx) = true ∧ (((borrowEnd (partner 1) .ab ((unlocked wOwnSwitchLent).wr
      (R.CK_STAT_pll_lock 1 0) 0)).wr (R.CK_STAT_pll_lock (partner 1) 0) 0).raise 4) = ((borrowEnd (partner 1)
      Dir.ab ((unlocked wOwnSwitchLent).wr (R.CK_STAT_pll_lock 1 Dir.ab.idx) 0)).wr (R.CK_STAT_pll_lock (partner 1)
      Dir.ab.idx) 0).raise (16 * partner 1 + 4 + Dir.ab.idx) ∧ (((unlocked wOwnSwitchLent).ck 1
      Dir.ab).switchFrom.isSome && ckMode (unlocked wOwnSwitchLent) 1 Dir.ab = ckForwarded) = true ∧ ((unlocked
      wOwnSwitchLent).wr (R.CK_STAT_pll_lock 1 Dir.ab.idx) 0).on (R.CK_STAT_lent 1 Dir.ab.idx) = true) ∧
    ((unlocked wOwnLent) = (wOwnLent.wr (R.CK_STAT_own_lock 1 Dir.ab.idx) 0).putCk 1 Dir.ab
      { wOwnLent.ck 1 Dir.ab with unlockHeld := true } ∧ 1 < clustersOf wOwnLent ∧ wOwnLent.on (R.CK_STAT_own_lock 1
      Dir.ab.idx) = true ∧ ((unlocked wOwnLent).raise 20) = (unlocked wOwnLent).raise (16 * 1 + 4 + Dir.ab.idx) ∧
      ((((borrowEnd (partner 1) .ab ((unlocked wOwnLent).raise 20)).wr (R.CK_STAT_pll_lock (partner 1) 0) 0).wr
      (R.CK_STAT_pll_lock 1 0) 0).raise 4) = (((borrowEnd (partner 1) Dir.ab ((unlocked wOwnLent).raise 20)).wr
      (R.CK_STAT_pll_lock (partner 1) Dir.ab.idx) 0).wr (R.CK_STAT_pll_lock 1 Dir.ab.idx) 0).raise (16 * partner 1 +
      4 + Dir.ab.idx) ∧ (((unlocked wOwnLent).ck 1 Dir.ab).switchFrom.isSome && ckMode (unlocked wOwnLent) 1 Dir.ab
      = ckForwarded) = false ∧ ((unlocked wOwnLent).raise 20).on (R.CK_STAT_lent 1 Dir.ab.idx) = true) ∧
    ((unlocked wOwnBor) = (wOwnBor.wr (R.CK_STAT_own_lock 1 Dir.ab.idx) 0).putCk 1 Dir.ab
      { wOwnBor.ck 1 Dir.ab with unlockHeld := true } ∧ 1 < clustersOf wOwnBor ∧ wOwnBor.on (R.CK_STAT_own_lock 1
      Dir.ab.idx) = true ∧ ((unlocked wOwnBor).raise 20) = (unlocked wOwnBor).raise (16 * 1 + 4 + Dir.ab.idx) ∧
      (((unlocked wOwnBor).ck 1 Dir.ab).switchFrom.isSome && ckMode (unlocked wOwnBor) 1 Dir.ab = ckForwarded) =
      false ∧ ((unlocked wOwnBor).raise 20).on (R.CK_STAT_lent 1 Dir.ab.idx) = false ∧ ((unlocked wOwnBor).raise
      20).on (R.CK_STAT_borrowed 1 Dir.ab.idx) = true) ∧
    ((unlocked wOwn) = (wOwn.wr (R.CK_STAT_own_lock 1 Dir.ab.idx) 0).putCk 1 Dir.ab
      { wOwn.ck 1 Dir.ab with unlockHeld := true } ∧ 1 < clustersOf wOwn ∧ wOwn.on (R.CK_STAT_own_lock 1 Dir.ab.idx)
      = true ∧ ((unlocked wOwn).raise 20) = (unlocked wOwn).raise (16 * 1 + 4 + Dir.ab.idx) ∧ (((unlocked wOwn).ck 1
      Dir.ab).switchFrom.isSome && ckMode (unlocked wOwn) 1 Dir.ab = ckForwarded) = false ∧ ((unlocked wOwn).raise
      20).on (R.CK_STAT_lent 1 Dir.ab.idx) = false ∧ ((unlocked wOwn).raise 20).on (R.CK_STAT_borrowed 1 Dir.ab.idx)
      = false ∧ ckMode ((unlocked wOwn).raise 20) 1 Dir.ab = ckOff) ∧
    ((unlocked wOwnMay) = (wOwnMay.wr (R.CK_STAT_own_lock 1 Dir.ab.idx) 0).putCk 1 Dir.ab
      { wOwnMay.ck 1 Dir.ab with unlockHeld := true } ∧ 1 < clustersOf wOwnMay ∧ wOwnMay.on (R.CK_STAT_own_lock 1
      Dir.ab.idx) = true ∧ ((unlocked wOwnMay).raise 20) = (unlocked wOwnMay).raise (16 * 1 + 4 + Dir.ab.idx) ∧
      (((unlocked wOwnMay).ck 1 Dir.ab).switchFrom.isSome && ckMode (unlocked wOwnMay) 1 Dir.ab = ckForwarded) =
      false ∧ ((unlocked wOwnMay).raise 20).on (R.CK_STAT_lent 1 Dir.ab.idx) = false ∧ ((unlocked wOwnMay).raise
      20).on (R.CK_STAT_borrowed 1 Dir.ab.idx) = false ∧ ckMode ((unlocked wOwnMay).raise 20) 1 Dir.ab ≠ ckOff ∧
      mayBorrow ((unlocked wOwnMay).raise 20) 1 Dir.ab = true) ∧
    ((unlocked wOwnFall) = (wOwnFall.wr (R.CK_STAT_own_lock 1 Dir.ab.idx) 0).putCk 1 Dir.ab
      { wOwnFall.ck 1 Dir.ab with unlockHeld := true } ∧ 1 < clustersOf wOwnFall ∧ wOwnFall.on (R.CK_STAT_own_lock 1
      Dir.ab.idx) = true ∧ ((unlocked wOwnFall).raise 20) = (unlocked wOwnFall).raise (16 * 1 + 4 + Dir.ab.idx) ∧
      (((unlocked wOwnFall).ck 1 Dir.ab).switchFrom.isSome && ckMode (unlocked wOwnFall) 1 Dir.ab = ckForwarded) =
      false ∧ ((unlocked wOwnFall).raise 20).on (R.CK_STAT_lent 1 Dir.ab.idx) = false ∧ ((unlocked wOwnFall).raise
      20).on (R.CK_STAT_borrowed 1 Dir.ab.idx) = false ∧ ckMode ((unlocked wOwnFall).raise 20) 1 Dir.ab ≠ ckOff ∧
      mayBorrow ((unlocked wOwnFall).raise 20) 1 Dir.ab = false) ∧
    (1 < clustersOf wRelockOff ∧ (wRelockOff.ck 1 Dir.ab).unlockHeld = true ∧ ckMode wRelockOff 1 Dir.ab = ckOff) ∧
    ((relocked wRelock) = (wRelock.putCk 1 Dir.ab { wRelock.ck 1 Dir.ab with unlockHeld := false }).wr
      (R.CK_STAT_own_lock 1 Dir.ab.idx) 1 ∧ 1 < clustersOf wRelock ∧ (wRelock.ck 1 Dir.ab).unlockHeld = true ∧
      ckMode wRelock 1 Dir.ab ≠ ckOff ∧ (relocked wRelock).on (R.CK_STAT_borrowed 1 Dir.ab.idx) = false) ∧
    ((relocked wRelockBor) = (wRelockBor.putCk 1 Dir.ab { wRelockBor.ck 1 Dir.ab with unlockHeld := false }).wr
      (R.CK_STAT_own_lock 1 Dir.ab.idx) 1 ∧ 1 < clustersOf wRelockBor ∧ (wRelockBor.ck 1 Dir.ab).unlockHeld = true ∧
      ckMode wRelockBor 1 Dir.ab ≠ ckOff ∧ (relocked wRelockBor).on (R.CK_STAT_borrowed 1 Dir.ab.idx) = true) ∧
    (1 < clustersOf wBorrowing ∧ (wBorrowing.ck 1 Dir.ab).borrowing = true ∧ (wBorrowing.ck 1 Dir.ab).heldFrom =
      none) ∧
    (1 < clustersOf wBorrowHeld ∧ (wBorrowHeld.ck 1 Dir.ab).borrowing = true ∧ (wBorrowHeld.ck 1 Dir.ab).heldFrom =
      some 0) ∧
    (1 < clustersOf (wLate wHoldover) ∧ passed ((wLate wHoldover).ck 1 Dir.ab).holdover 10000000 (wLate
      wHoldover).clock = true) ∧
    ((denseMore wDense) = wDense.putCk 1 Dir.ab
      { wDense.ck 1 Dir.ab with denseSent := (wDense.ck 1 Dir.ab).denseSent + 1 } ∧ 1 < clustersOf wDense ∧
      (wDense.ck 1 Dir.ab).denseOpen = 1 ∧ (wDense.ck 1 Dir.ab).denseSent < 16) ∧
    ((denseMore wDenseRel) = wDenseRel.putCk 1 Dir.ab
      { wDenseRel.ck 1 Dir.ab with denseSent := (wDenseRel.ck 1 Dir.ab).denseSent + 1 } ∧ 1 < clustersOf wDenseRel ∧
      2 ≤ (wDenseRel.ck 1 Dir.ab).denseOpen ∧ (wDenseRel.ck 1 Dir.ab).denseSent < 16) := by
  refine ⟨?_, ?_, ?_, ?_, ?_, ?_, ?_, ?_, ?_, ?_, ?_, ?_, ?_, ?_, ?_⟩ <;> decide +kernel

/-- The hypotheses of ClockCommands can be met. -/
theorem witness_clockCommands :
    (1 < clustersOf wCkCmd ∧ pageOpen wCkCmd (0x10 + 1) = true ∧ wCkCmd.on (R.CK_CMD_busy 1) = false ∧ (modeMates
      wCkCmd 1).any (fun o => !wCkCmd.on (R.CK_STAT_ckl_ok o Dir.ab.idx)) = false ∧ wCkCmd.on (R.CK_STAT_borrowed 1
      Dir.ab.idx) = false ∧ ckMode wCkCmd 1 Dir.ab ≠ ckForwarded) ∧
    (1 < clustersOf wRun ∧ pageOpen wRun (0x10 + 1) = true ∧ wRun.on (R.CK_CMD_busy 1) = false ∧ ((modeMates wRun
      1).any (fun o => !wRun.on (R.CK_STAT_ckl_ok o Dir.ab.idx)) = true ∨ wRun.on (R.CK_STAT_borrowed 1 Dir.ab.idx)
      = true ∨ ckMode wRun 1 Dir.ab = ckForwarded)) ∧
    (1 < clustersOf wCkFwd ∧ pageOpen wCkFwd (0x10 + 1) = true ∧ wCkFwd.on (R.CK_CMD_busy 1) = false ∧ refGood
      wCkFwd = true ∧ (ckMode wCkFwd 1 Dir.ab = ckForwarded ∨ ckMode wCkFwd 1 Dir.ab = ckRecovered) ∧
      carriesTransparent wCkFwd 1 Dir.ab = false) ∧
    (1 < clustersOf wRun ∧ pageOpen wRun (0x10 + 1) = true ∧ wRun.on (R.CK_CMD_busy 1) = false ∧ (refGood wRun =
      false ∨ (ckMode wRun 1 Dir.ab ≠ ckForwarded ∧ ckMode wRun 1 Dir.ab ≠ ckRecovered) ∨ carriesTransparent wRun 1
      Dir.ab = true)) ∧
    (1 < clustersOf wCkBor ∧ pageOpen wCkBor (0x10 + 1) = true ∧ wCkBor.on (R.CK_CMD_busy 1) = false ∧ wCkBor.on
      (R.CK_STAT_borrowed 1 Dir.ab.idx) = true ∧ wCkBor.on (R.CK_STAT_own_lock 1 Dir.ab.idx) = true) ∧
    (1 < clustersOf wRun ∧ pageOpen wRun (0x10 + 1) = true ∧ wRun.on (R.CK_CMD_busy 1) = false ∧ (wRun.on
      (R.CK_STAT_borrowed 1 Dir.ab.idx) = false ∨ wRun.on (R.CK_STAT_own_lock 1 Dir.ab.idx) = false)) ∧
    ((opDone (wLate wCkOpRef)) = (wLate wCkOpRef).putCk 1 Dir.ab
      { (wLate wCkOpRef).ck 1 Dir.ab with opFrom := none } ∧ 1 < clustersOf (wLate wCkOpRef) ∧ ((wLate wCkOpRef).ck
      1 Dir.ab).opFrom = some 1 ∧ ((wLate wCkOpRef).ck 1 Dir.ab).opAt + 20000 ≤ (wLate wCkOpRef).clock ∧ refGood
      (opDone (wLate wCkOpRef)) = true) ∧
    ((opDone wCkOp0Ok) = wCkOp0Ok.putCk 1 Dir.ab { wCkOp0Ok.ck 1 Dir.ab with opFrom := none } ∧ 1 < clustersOf
      wCkOp0Ok ∧ wCkOp0Ok.on (R.CK_CMD_busy 1) = true ∧ ckOpOf wCkOp0Ok 1 = some (Dir.ab, 0) ∧ (modeMates (opDone
      wCkOp0Ok) 1).all (fun o => (opDone wCkOp0Ok).on (R.CK_STAT_ckl_ok o Dir.ab.idx)) = true) ∧
    ((opDone wCkOp0Ok) = wCkOp0Ok.putCk 1 Dir.ab { wCkOp0Ok.ck 1 Dir.ab with opFrom := none } ∧ 1 < clustersOf
      wCkOp0Ok ∧ wCkOp0Ok.on (R.CK_CMD_busy 1) = true ∧ ckOpOf wCkOp0Ok 1 = some (Dir.ab, 0) ∧ modeMates (opDone
      wCkOp0Ok) 1 = [1] ∧ (opDone wCkOp0Ok).on (R.CK_STAT_ckl_ok 1 Dir.ab.idx) = true) ∧
    ((opDone wCkOp0) = wCkOp0.putCk 1 Dir.ab { wCkOp0.ck 1 Dir.ab with opFrom := none } ∧ 1 < clustersOf wCkOp0 ∧
      wCkOp0.on (R.CK_CMD_busy 1) = true ∧ ckOpOf wCkOp0 1 = some (Dir.ab, 0) ∧ (modeMates (opDone wCkOp0) 1).all
      (fun o => (opDone wCkOp0).on (R.CK_STAT_ckl_ok o Dir.ab.idx)) = false) ∧
    ((opDone wCkOp2) = wCkOp2.putCk 1 Dir.ab { wCkOp2.ck 1 Dir.ab with opFrom := none } ∧ 1 < clustersOf wCkOp2 ∧
      wCkOp2.on (R.CK_CMD_busy 1) = true ∧ ckOpOf wCkOp2 1 = some (Dir.ab, 2)) ∧
    ((opDone wCkOpRef) = wCkOpRef.putCk 1 Dir.ab { wCkOpRef.ck 1 Dir.ab with opFrom := none } ∧ 1 < clustersOf
      wCkOpRef ∧ wCkOpRef.on (R.CK_CMD_busy 1) = true ∧ ckOpOf wCkOpRef 1 = some (Dir.ab, 1) ∧ wCkOpRef.on
      (R.CK_STAT_dense_rx 1 Dir.ab.idx) = true ∧ refGood (opDone wCkOpRef) = true) := by
  refine ⟨?_, ?_, ?_, ?_, ?_, ?_, ?_, ?_, ?_, ?_, ?_, ?_⟩ <;> decide +kernel

/-- The hypotheses of AcquisitionAndTracking can be met. -/
theorem witness_acquisitionAndTracking :
    (lanePresent wAcq0 3 = true ∧ acquiringNow wAcq0 3 Side.a = true ∧ (wAcq0.coefs 3 Side.a).blocks < acqLimit
      wAcq0 (laneCluster 3) ∧ (wAcq0.coefs 3 Side.a).blocks = 0) ∧
    (lanePresent wAcq1 3 = true ∧ acquiringNow wAcq1 3 Side.a = true ∧ (wAcq1.coefs 3 Side.a).blocks < acqLimit
      wAcq1 (laneCluster 3) ∧ (wAcq1.coefs 3 Side.a).blocks = 1 ∧ mseLimit wAcq1 (laneCluster 3) < min 0xFFFF
      0xFFFF) ∧
    (lanePresent wAcq1 3 = true ∧ acquiringNow wAcq1 3 Side.a = true ∧ (wAcq1.coefs 3 Side.a).blocks < acqLimit
      wAcq1 (laneCluster 3) ∧ (wAcq1.coefs 3 Side.a).blocks = 1 ∧ min 0 0xFFFF ≤ mseLimit wAcq1 (laneCluster 3) ∧ 16
      * (max (min 0 0xFFFF) (wAcq1.coefs 3 Side.a).mse - min (min 0 0xFFFF) (wAcq1.coefs 3 Side.a).mse) ≤ min 0
      0xFFFF ∧ (wAcq1.coefs 3 Side.a).goodBlocks < 3) ∧
    (lanePresent wAcqB 3 = true ∧ acquiringNow wAcqB 3 Side.a = true ∧ (wAcqB.coefs 3 Side.a).blocks < acqLimit
      wAcqB (laneCluster 3) ∧ 2 ≤ (wAcqB.coefs 3 Side.a).blocks ∧ mseLimit wAcqB (laneCluster 3) < min 0xFFFF
      0xFFFF) ∧
    (lanePresent wAcqB 3 = true ∧ acquiringNow wAcqB 3 Side.a = true ∧ (wAcqB.coefs 3 Side.a).blocks < acqLimit
      wAcqB (laneCluster 3) ∧ 2 ≤ (wAcqB.coefs 3 Side.a).blocks ∧ min 1 0xFFFF < 16 * (max (min 1 0xFFFF)
      (wAcqB.coefs 3 Side.a).mse - min (min 1 0xFFFF) (wAcqB.coefs 3 Side.a).mse)) ∧
    (lanePresent wAcqG 3 = true ∧ acquiringNow wAcqG 3 Side.a = true ∧ (wAcqG.coefs 3 Side.a).blocks < acqLimit
      wAcqG (laneCluster 3) ∧ 2 ≤ (wAcqG.coefs 3 Side.a).blocks ∧ min 0 0xFFFF ≤ mseLimit wAcqG (laneCluster 3) ∧ 16
      * (max (min 0 0xFFFF) (wAcqG.coefs 3 Side.a).mse - min (min 0 0xFFFF) (wAcqG.coefs 3 Side.a).mse) ≤ min 0
      0xFFFF ∧ (wAcqG.coefs 3 Side.a).goodBlocks < 3) ∧
    ((acqFourth wAcqB 3) = wAcqB.putCoef 3 Side.a
      { coefSet (wAcqB.coefs 3 Side.a) (coefClamp ([1, 2])) with mse := min 0 0xFFFF, valid := true, blocks := (wAcqB.coefs 3 Side.a).blocks + 1, goodBlocks := 4 }
      ∧ (acqOut (acqFourth wAcqB 3) 3) = engineDrop (laneCluster 3) (rxIndex 3 Side.a) (((acqFourth wAcqB 3).putCoef
      3 Side.a
      { (acqFourth wAcqB 3).coefs 3 Side.a with rung := ((acqFourth wAcqB 3).coefs 3 Side.a).acqRung, acqRung := 7, everAcq := true, blocks := 0, goodBlocks := 0 }).wr
      (estOf 3 Side.a) esTrack) ∧ lanePresent wAcqB 3 = true ∧ acquiringNow wAcqB 3 Side.a = true ∧ (wAcqB.coefs 3
      Side.a).blocks < acqLimit wAcqB (laneCluster 3) ∧ 2 ≤ (wAcqB.coefs 3 Side.a).blocks ∧ min 0 0xFFFF ≤ mseLimit
      wAcqB (laneCluster 3) ∧ 16 * (max (min 0 0xFFFF) (wAcqB.coefs 3 Side.a).mse - min (min 0 0xFFFF) (wAcqB.coefs
      3 Side.a).mse) ≤ min 0 0xFFFF ∧ (wAcqB.coefs 3 Side.a).goodBlocks = 3 ∧ trainingSpan (bobAcqEnd (laneCluster
      3) Side.a (acqOut (acqFourth wAcqB 3) 3)) 3 Side.a = none) ∧
    ((acqFourth wAcqLink 0) = wAcqLink.putCoef 0 Side.a
      { coefSet (wAcqLink.coefs 0 Side.a) (coefClamp ([1, 2])) with mse := min 0 0xFFFF, valid := true, blocks := (wAcqLink.coefs 0 Side.a).blocks + 1, goodBlocks := 4 }
      ∧ (acqOut (acqFourth wAcqLink 0) 0) = engineDrop (laneCluster 0) (rxIndex 0 Side.a) (((acqFourth wAcqLink
      0).putCoef 0 Side.a
      { (acqFourth wAcqLink 0).coefs 0 Side.a with rung := ((acqFourth wAcqLink 0).coefs 0 Side.a).acqRung, acqRung := 7, everAcq := true, blocks := 0, goodBlocks := 0 }).wr
      (estOf 0 Side.a) esTrack) ∧ lanePresent wAcqLink 0 = true ∧ acquiringNow wAcqLink 0 Side.a = true ∧
      (wAcqLink.coefs 0 Side.a).blocks < acqLimit wAcqLink (laneCluster 0) ∧ 2 ≤ (wAcqLink.coefs 0 Side.a).blocks ∧
      min 0 0xFFFF ≤ mseLimit wAcqLink (laneCluster 0) ∧ 16 * (max (min 0 0xFFFF) (wAcqLink.coefs 0 Side.a).mse -
      min (min 0 0xFFFF) (wAcqLink.coefs 0 Side.a).mse) ≤ min 0 0xFFFF ∧ (wAcqLink.coefs 0 Side.a).goodBlocks = 3 ∧
      trainingSpan (bobAcqEnd (laneCluster 0) Side.a (acqOut (acqFourth wAcqLink 0) 0)) 0 Side.a = some 0) ∧
    ((acqOut wAcqMax 3) = engineDrop (laneCluster 3) (rxIndex 3 Side.a) ((wAcqMax.putCoef 3 Side.a
      { wAcqMax.coefs 3 Side.a with rung := (wAcqMax.coefs 3 Side.a).acqRung, acqRung := 7, everAcq := true, blocks := 0, goodBlocks := 0 }).wr
      (estOf 3 Side.a) esTrack) ∧ (acqFail (acqOut wAcqMax 3) 3) = bobAcqEnd (laneCluster 3) Side.a (((acqOut
      wAcqMax 3).bump (R.ADAPT_CNT_acq_fail (laneCluster 3))).raise (16 * laneCluster 3 + 7)) ∧ lanePresent wAcqMax
      3 = true ∧ acquiringNow wAcqMax 3 Side.a = true ∧ acqLimit wAcqMax (laneCluster 3) ≤ (wAcqMax.coefs 3
      Side.a).blocks ∧ trainingSpan (acqFail (acqOut wAcqMax 3) 3) 3 Side.a = none) ∧
    ((acqOut wAcqMax 3) = engineDrop (laneCluster 3) (rxIndex 3 Side.a) ((wAcqMax.putCoef 3 Side.a
      { wAcqMax.coefs 3 Side.a with rung := (wAcqMax.coefs 3 Side.a).acqRung, acqRung := 7, everAcq := true, blocks := 0, goodBlocks := 0 }).wr
      (estOf 3 Side.a) esTrack) ∧ (acqFail (acqOut wAcqMax 3) 3) = bobAcqEnd (laneCluster 3) Side.a (((acqOut
      wAcqMax 3).bump (R.ADAPT_CNT_acq_fail (laneCluster 3))).raise (16 * laneCluster 3 + 7)) ∧ lanePresent wAcqMax
      3 = true ∧ acquiringNow wAcqMax 3 Side.a = true ∧ acqLimit wAcqMax (laneCluster 3) ≤ (wAcqMax.coefs 3
      Side.a).blocks ∧ trainingSpan (acqFail (acqOut wAcqMax 3) 3) 3 Side.a = none) ∧
    ((acqOut wAcqLinkMax 0) = engineDrop (laneCluster 0) (rxIndex 0 Side.a) ((wAcqLinkMax.putCoef 0 Side.a
      { wAcqLinkMax.coefs 0 Side.a with rung := (wAcqLinkMax.coefs 0 Side.a).acqRung, acqRung := 7, everAcq := true, blocks := 0, goodBlocks := 0 }).wr
      (estOf 0 Side.a) esTrack) ∧ (acqFail (acqOut wAcqLinkMax 0) 0) = bobAcqEnd (laneCluster 0) Side.a (((acqOut
      wAcqLinkMax 0).bump (R.ADAPT_CNT_acq_fail (laneCluster 0))).raise (16 * laneCluster 0 + 7)) ∧ lanePresent
      wAcqLinkMax 0 = true ∧ acquiringNow wAcqLinkMax 0 Side.a = true ∧ acqLimit wAcqLinkMax (laneCluster 0) ≤
      (wAcqLinkMax.coefs 0 Side.a).blocks ∧ trainingSpan (acqFail (acqOut wAcqLinkMax 0) 0) 0 Side.a = some 0) ∧
    ((judgeRange 3 .a 5 (wLate wTrack)) = judgeRange 3 Side.a (min 5 0xFFFF) (wLate wTrack) ∧ lanePresent (wLate
      wTrack) 3 = true ∧ ((wLate wTrack).engine (laneCluster 3)).cur = some (rxIndex 3 Side.a) ∧ ((wLate
      wTrack).engine (laneCluster 3)).visiting = true ∧ (wLate wTrack).rd (estOf 3 Side.a) = esTrack ∧ visitDue
      (wLate wTrack) 3 Side.a ≤ 850 * (wLate wTrack).clock ∧ decodes (judgeRange 3 .a 5 (wLate wTrack)) 3 Side.a =
      true) ∧
    ((judgeRange 0 .a 5 (wLate wTrackTrans)) = judgeRange 0 Side.a (min 5 0xFFFF) (wLate wTrackTrans) ∧ lanePresent
      (wLate wTrackTrans) 0 = true ∧ ((wLate wTrackTrans).engine (laneCluster 0)).cur = some (rxIndex 0 Side.a) ∧
      ((wLate wTrackTrans).engine (laneCluster 0)).visiting = true ∧ (wLate wTrackTrans).rd (estOf 0 Side.a) =
      esTrack ∧ visitDue (wLate wTrackTrans) 0 Side.a ≤ 850 * (wLate wTrackTrans).clock ∧ decodes (judgeRange 0 .a 5
      (wLate wTrackTrans)) 0 Side.a = false) ∧
    (lanePresent wTrackDue 3 = true ∧ (wTrackDue.coefs 3 Side.a).due ≠ [] ∧ wTrackDue.rd (estOf 3 Side.a) = esTrack) := by
  refine ⟨?_, ?_, ?_, ?_, ?_, ?_, ?_, ?_, ?_, ?_, ?_, ?_, ?_, ?_⟩ <;> decide +kernel

/-- The hypotheses of AdaptCommands can be met. -/
theorem witness_adaptCommands :
    (0 < clustersOf wSdRate ∧ pageOpen wSdRate (0x20 + 0) = true ∧ 3 ≤ 8 ∧ wSdRate.on (leSd (laneAt 0 3) Side.a) =
      true ∧ ckRate wSdRate 0 Side.a.dirIn ≠ 7) ∧
    (0 < clustersOf wSd ∧ pageOpen wSd (0x20 + 0) = true ∧ 3 ≤ 8 ∧ wSd.on (leSd (laneAt 0 3) Side.a) = true ∧ ckRate
      wSd 0 Side.a.dirIn = 7) ∧
    (0 < clustersOf wRun ∧ pageOpen wRun (0x20 + 0) = true ∧ 3 ≤ 8 ∧ wRun.on (leSd (laneAt 0 3) Side.a) = false) ∧
    (0 < clustersOf wTrack ∧ pageOpen wTrack (0x20 + 0) = true ∧ 3 ≤ 8 ∧ wTrack.rd (estOf (laneAt 0 3) Side.a) =
      esTrack) ∧
    (0 < clustersOf wRun ∧ pageOpen wRun (0x20 + 0) = true ∧ 3 ≤ 8 ∧ wRun.rd (estOf (laneAt 0 3) Side.a) ≠ esTrack)
      ∧
    (0 < clustersOf wFrozen ∧ pageOpen wFrozen (0x20 + 0) = true ∧ 3 ≤ 8 ∧ wFrozen.rd (estOf (laneAt 0 3) Side.a) =
      esFrozen) ∧
    (0 < clustersOf wRun ∧ pageOpen wRun (0x20 + 0) = true ∧ 3 ≤ 8 ∧ wRun.rd (estOf (laneAt 0 3) Side.a) ≠ esFrozen)
      ∧
    (0 < clustersOf wRun ∧ pageOpen wRun 0x20 = true) ∧
    ((wRun.coefs 3 .b) = wRun.coefs (laneAt 0 (bits 0x103 3 0)) (Side.ofIdx (bits 0x103 8 8)) ∧ 0 < clustersOf wRun
      ∧ pageOpen wRun (0x20 + 0) = true ∧ bits 0x103 3 0 ≤ 8) ∧
    (0 < clustersOf wRun ∧ pageOpen wRun (0x20 + 0) = true ∧ 8 < bits 0x10F 3 0) := by
  refine ⟨?_, ?_, ?_, ?_, ?_, ?_, ?_, ?_, ?_, ?_⟩ <;> decide +kernel

/-- The hypotheses of TrainingSetsTakeEffect can be met. -/
theorem witness_trainingSetsTakeEffect :
    (0 < linksOf wTrain ∧ trnTaken 0 Side.a (trnHeard trnCAP) trnCAP wTrain = some ((trnOf trnCAP), (trnAt trnCAP
      wTrain))) ∧
    (0 < linksOf wStepLed ∧ trnTaken 0 Side.a (trnHeardOf capWide) trnCAP wStepLed = some (capWide, (trnAtSet
      capWide wStepLed)) ∧ trainingNow (trnAtSet capWide wStepLed) 0 Side.a = true ∧ capWide.width ≠ (trnAtSet
      capWide wStepLed).rd (R.LNK_CFG_LIVE_width 0 Side.a.idx)) ∧
    (0 < linksOf wTrain ∧ trnTaken 0 Side.a (trnHeard trnCAP) trnCAP wTrain = some ((trnOf trnCAP), (trnAt trnCAP
      wTrain)) ∧ (trainingNow (trnAt trnCAP wTrain) 0 Side.a = true → (trnOf trnCAP).width = (trnAt trnCAP
      wTrain).rd (R.LNK_CFG_LIVE_width 0 Side.a.idx)) ∧ (trainingNow (trnAt trnCAP wTrain) 0 Side.a && isTrunkSide
      (trnAt trnCAP wTrain) 0 Side.a && !bit (trnOf trnCAP).flags 1) = false ∧ (capSeen (trnAt trnCAP wTrain)) =
      ((trnAt trnCAP wTrain).modSpan 0 Side.a fun x => { x with capAcc := true }) ∧ 0 = (if bit (trnOf trnCAP).flags
      0 then (trnOf trnCAP).elect else 0) ∧ 0 = inElect (capSeen (trnAt trnCAP wTrain)) 0 Side.a) ∧
    (0 < linksOf wElect ∧ trnTaken 0 Side.a (trnHeard trnCAP) trnCAP wElect = some ((trnOf trnCAP), (trnAt trnCAP
      wElect)) ∧ (trainingNow (trnAt trnCAP wElect) 0 Side.a = true → (trnOf trnCAP).width = (trnAt trnCAP
      wElect).rd (R.LNK_CFG_LIVE_width 0 Side.a.idx)) ∧ (trainingNow (trnAt trnCAP wElect) 0 Side.a && isTrunkSide
      (trnAt trnCAP wElect) 0 Side.a && !bit (trnOf trnCAP).flags 1) = false ∧ (capSeen (trnAt trnCAP wElect)) =
      ((trnAt trnCAP wElect).modSpan 0 Side.a fun x => { x with capAcc := true }) ∧ 0 = (if bit (trnOf trnCAP).flags
      0 then (trnOf trnCAP).elect else 0) ∧ 0 ≠ inElect (capSeen (trnAt trnCAP wElect)) 0 Side.a) ∧
    (0 < linksOf wStepLed ∧ trnTaken 0 Side.a (trnHeard trnRATE) trnRATE wStepLed = some ((trnOf trnRATE), (trnAt
      trnRATE wStepLed)) ∧ leads (trnAt trnRATE wStepLed) 0 Side.a = true) ∧
    (0 < linksOf wFollowAck ∧ trnTaken 0 Side.a (trnHeardOf (trnOf trnRATE)) trnRATE wFollowAck = some ((trnOf
      trnRATE), (trnAtSet (trnOf trnRATE) wFollowAck)) ∧ leads (trnAtSet (trnOf trnRATE) wFollowAck) 0 Side.a =
      false ∧ follows (trnAtSet (trnOf trnRATE) wFollowAck) 0 Side.a = true ∧ trainingNow (trnAtSet (trnOf trnRATE)
      wFollowAck) 0 Side.a = true ∧ spanState (trnAtSet (trnOf trnRATE) wFollowAck) 0 Side.a ≠ spSwitch ∧ ackWaits
      (trnAtSet (trnOf trnRATE) wFollowAck) 0 Side.a (trnOf trnRATE) = true) ∧
    ((postTrn 0 Side.a
      { mkTrn (if (rateResult (trnAtSet (rateHigh) wFollow) 0 Side.a rateHigh.target) = 0 then refuseUp 0 Side.a rateHigh.target (trnAtSet (rateHigh) wFollow) else (trnAtSet (rateHigh) wFollow)) 0 Side.a trnRATEACK with target := rateHigh.target, tag := rateHigh.tag, value := (rateResult (trnAtSet (rateHigh) wFollow) 0 Side.a rateHigh.target) * 2 ^ 24 }
      (if (rateResult (trnAtSet (rateHigh) wFollow) 0 Side.a rateHigh.target) = 0 then refuseUp 0 Side.a
      rateHigh.target (trnAtSet (rateHigh) wFollow) else (trnAtSet (rateHigh) wFollow))) = postTrn 0 Side.a
      { mkTrn (if (rateResult (trnAtSet (rateHigh) wFollow) 0 Side.a rateHigh.target) = 0 then refuseUp 0 Side.a rateHigh.target (trnAtSet (rateHigh) wFollow) else (trnAtSet (rateHigh) wFollow)) 0 Side.a trnRATEACK with target := rateHigh.target, tag := rateHigh.tag, value := (rateResult (trnAtSet (rateHigh) wFollow) 0 Side.a rateHigh.target) * 2 ^ 24 }
      (if (rateResult (trnAtSet (rateHigh) wFollow) 0 Side.a rateHigh.target) = 0 then refuseUp 0 Side.a
      rateHigh.target (trnAtSet (rateHigh) wFollow) else (trnAtSet (rateHigh) wFollow)) ∧ 0 < linksOf wFollow ∧
      trnTaken 0 Side.a (trnHeardOf (rateHigh)) trnRATE wFollow = some (rateHigh, (trnAtSet (rateHigh) wFollow)) ∧
      leads (trnAtSet (rateHigh) wFollow) 0 Side.a = false ∧ follows (trnAtSet (rateHigh) wFollow) 0 Side.a = true ∧
      trainingNow (trnAtSet (rateHigh) wFollow) 0 Side.a = true ∧ spanState (trnAtSet (rateHigh) wFollow) 0 Side.a ≠
      spSwitch ∧ ackWaits (trnAtSet (rateHigh) wFollow) 0 Side.a rateHigh = false ∧ (rateResult (trnAtSet (rateHigh)
      wFollow) 0 Side.a rateHigh.target) ≠ 0) ∧
    ((postTrn 0 Side.a
      { mkTrn (if (rateResult (trnAtSet (trnOf trnRATE) wFollow2) 0 Side.a (trnOf trnRATE).target) = 0 then refuseUp 0 Side.a (trnOf trnRATE).target (trnAtSet (trnOf trnRATE) wFollow2) else (trnAtSet (trnOf trnRATE) wFollow2)) 0 Side.a trnRATEACK with target := (trnOf trnRATE).target, tag := (trnOf trnRATE).tag, value := (rateResult (trnAtSet (trnOf trnRATE) wFollow2) 0 Side.a (trnOf trnRATE).target) * 2 ^ 24 }
      (if (rateResult (trnAtSet (trnOf trnRATE) wFollow2) 0 Side.a (trnOf trnRATE).target) = 0 then refuseUp 0
      Side.a (trnOf trnRATE).target (trnAtSet (trnOf trnRATE) wFollow2) else (trnAtSet (trnOf trnRATE) wFollow2))) =
      postTrn 0 Side.a
      { mkTrn (if (rateResult (trnAtSet (trnOf trnRATE) wFollow2) 0 Side.a (trnOf trnRATE).target) = 0 then refuseUp 0 Side.a (trnOf trnRATE).target (trnAtSet (trnOf trnRATE) wFollow2) else (trnAtSet (trnOf trnRATE) wFollow2)) 0 Side.a trnRATEACK with target := (trnOf trnRATE).target, tag := (trnOf trnRATE).tag, value := (rateResult (trnAtSet (trnOf trnRATE) wFollow2) 0 Side.a (trnOf trnRATE).target) * 2 ^ 24 }
      (if (rateResult (trnAtSet (trnOf trnRATE) wFollow2) 0 Side.a (trnOf trnRATE).target) = 0 then refuseUp 0
      Side.a (trnOf trnRATE).target (trnAtSet (trnOf trnRATE) wFollow2) else (trnAtSet (trnOf trnRATE) wFollow2)) ∧
      ((if (rateGroup (postTrn 0 Side.a
      { mkTrn (if (rateResult (trnAtSet (trnOf trnRATE) wFollow2) 0 Side.a (trnOf trnRATE).target) = 0 then refuseUp 0 Side.a (trnOf trnRATE).target (trnAtSet (trnOf trnRATE) wFollow2) else (trnAtSet (trnOf trnRATE) wFollow2)) 0 Side.a trnRATEACK with target := (trnOf trnRATE).target, tag := (trnOf trnRATE).tag, value := (rateResult (trnAtSet (trnOf trnRATE) wFollow2) 0 Side.a (trnOf trnRATE).target) * 2 ^ 24 }
      (if (rateResult (trnAtSet (trnOf trnRATE) wFollow2) 0 Side.a (trnOf trnRATE).target) = 0 then refuseUp 0
      Side.a (trnOf trnRATE).target (trnAtSet (trnOf trnRATE) wFollow2) else (trnAtSet (trnOf trnRATE) wFollow2))) 0
      Side.a).any fun p => (postTrn 0 Side.a
      { mkTrn (if (rateResult (trnAtSet (trnOf trnRATE) wFollow2) 0 Side.a (trnOf trnRATE).target) = 0 then refuseUp 0 Side.a (trnOf trnRATE).target (trnAtSet (trnOf trnRATE) wFollow2) else (trnAtSet (trnOf trnRATE) wFollow2)) 0 Side.a trnRATEACK with target := (trnOf trnRATE).target, tag := (trnOf trnRATE).tag, value := (rateResult (trnAtSet (trnOf trnRATE) wFollow2) 0 Side.a (trnOf trnRATE).target) * 2 ^ 24 }
      (if (rateResult (trnAtSet (trnOf trnRATE) wFollow2) 0 Side.a (trnOf trnRATE).target) = 0 then refuseUp 0
      Side.a (trnOf trnRATE).target (trnAtSet (trnOf trnRATE) wFollow2) else (trnAtSet (trnOf trnRATE)
      wFollow2))).on (R.SPAN_STAT_blind p.1 p.2.idx) then blindOver (rateGroup (postTrn 0 Side.a
      { mkTrn (if (rateResult (trnAtSet (trnOf trnRATE) wFollow2) 0 Side.a (trnOf trnRATE).target) = 0 then refuseUp 0 Side.a (trnOf trnRATE).target (trnAtSet (trnOf trnRATE) wFollow2) else (trnAtSet (trnOf trnRATE) wFollow2)) 0 Side.a trnRATEACK with target := (trnOf trnRATE).target, tag := (trnOf trnRATE).tag, value := (rateResult (trnAtSet (trnOf trnRATE) wFollow2) 0 Side.a (trnOf trnRATE).target) * 2 ^ 24 }
      (if (rateResult (trnAtSet (trnOf trnRATE) wFollow2) 0 Side.a (trnOf trnRATE).target) = 0 then refuseUp 0
      Side.a (trnOf trnRATE).target (trnAtSet (trnOf trnRATE) wFollow2) else (trnAtSet (trnOf trnRATE) wFollow2))) 0
      Side.a) (postTrn 0 Side.a
      { mkTrn (if (rateResult (trnAtSet (trnOf trnRATE) wFollow2) 0 Side.a (trnOf trnRATE).target) = 0 then refuseUp 0 Side.a (trnOf trnRATE).target (trnAtSet (trnOf trnRATE) wFollow2) else (trnAtSet (trnOf trnRATE) wFollow2)) 0 Side.a trnRATEACK with target := (trnOf trnRATE).target, tag := (trnOf trnRATE).tag, value := (rateResult (trnAtSet (trnOf trnRATE) wFollow2) 0 Side.a (trnOf trnRATE).target) * 2 ^ 24 }
      (if (rateResult (trnAtSet (trnOf trnRATE) wFollow2) 0 Side.a (trnOf trnRATE).target) = 0 then refuseUp 0
      Side.a (trnOf trnRATE).target (trnAtSet (trnOf trnRATE) wFollow2) else (trnAtSet (trnOf trnRATE) wFollow2)))
      else (postTrn 0 Side.a
      { mkTrn (if (rateResult (trnAtSet (trnOf trnRATE) wFollow2) 0 Side.a (trnOf trnRATE).target) = 0 then refuseUp 0 Side.a (trnOf trnRATE).target (trnAtSet (trnOf trnRATE) wFollow2) else (trnAtSet (trnOf trnRATE) wFollow2)) 0 Side.a trnRATEACK with target := (trnOf trnRATE).target, tag := (trnOf trnRATE).tag, value := (rateResult (trnAtSet (trnOf trnRATE) wFollow2) 0 Side.a (trnOf trnRATE).target) * 2 ^ 24 }
      (if (rateResult (trnAtSet (trnOf trnRATE) wFollow2) 0 Side.a (trnOf trnRATE).target) = 0 then refuseUp 0
      Side.a (trnOf trnRATE).target (trnAtSet (trnOf trnRATE) wFollow2) else (trnAtSet (trnOf trnRATE) wFollow2)))))
      = (if (rateGroup (postTrn 0 Side.a
      { mkTrn (if (rateResult (trnAtSet (trnOf trnRATE) wFollow2) 0 Side.a (trnOf trnRATE).target) = 0 then refuseUp 0 Side.a (trnOf trnRATE).target (trnAtSet (trnOf trnRATE) wFollow2) else (trnAtSet (trnOf trnRATE) wFollow2)) 0 Side.a trnRATEACK with target := (trnOf trnRATE).target, tag := (trnOf trnRATE).tag, value := (rateResult (trnAtSet (trnOf trnRATE) wFollow2) 0 Side.a (trnOf trnRATE).target) * 2 ^ 24 }
      (if (rateResult (trnAtSet (trnOf trnRATE) wFollow2) 0 Side.a (trnOf trnRATE).target) = 0 then refuseUp 0
      Side.a (trnOf trnRATE).target (trnAtSet (trnOf trnRATE) wFollow2) else (trnAtSet (trnOf trnRATE) wFollow2))) 0
      Side.a).any fun p => (postTrn 0 Side.a
      { mkTrn (if (rateResult (trnAtSet (trnOf trnRATE) wFollow2) 0 Side.a (trnOf trnRATE).target) = 0 then refuseUp 0 Side.a (trnOf trnRATE).target (trnAtSet (trnOf trnRATE) wFollow2) else (trnAtSet (trnOf trnRATE) wFollow2)) 0 Side.a trnRATEACK with target := (trnOf trnRATE).target, tag := (trnOf trnRATE).tag, value := (rateResult (trnAtSet (trnOf trnRATE) wFollow2) 0 Side.a (trnOf trnRATE).target) * 2 ^ 24 }
      (if (rateResult (trnAtSet (trnOf trnRATE) wFollow2) 0 Side.a (trnOf trnRATE).target) = 0 then refuseUp 0
      Side.a (trnOf trnRATE).target (trnAtSet (trnOf trnRATE) wFollow2) else (trnAtSet (trnOf trnRATE)
      wFollow2))).on (R.SPAN_STAT_blind p.1 p.2.idx) then blindOver (rateGroup (postTrn 0 Side.a
      { mkTrn (if (rateResult (trnAtSet (trnOf trnRATE) wFollow2) 0 Side.a (trnOf trnRATE).target) = 0 then refuseUp 0 Side.a (trnOf trnRATE).target (trnAtSet (trnOf trnRATE) wFollow2) else (trnAtSet (trnOf trnRATE) wFollow2)) 0 Side.a trnRATEACK with target := (trnOf trnRATE).target, tag := (trnOf trnRATE).tag, value := (rateResult (trnAtSet (trnOf trnRATE) wFollow2) 0 Side.a (trnOf trnRATE).target) * 2 ^ 24 }
      (if (rateResult (trnAtSet (trnOf trnRATE) wFollow2) 0 Side.a (trnOf trnRATE).target) = 0 then refuseUp 0
      Side.a (trnOf trnRATE).target (trnAtSet (trnOf trnRATE) wFollow2) else (trnAtSet (trnOf trnRATE) wFollow2))) 0
      Side.a) (postTrn 0 Side.a
      { mkTrn (if (rateResult (trnAtSet (trnOf trnRATE) wFollow2) 0 Side.a (trnOf trnRATE).target) = 0 then refuseUp 0 Side.a (trnOf trnRATE).target (trnAtSet (trnOf trnRATE) wFollow2) else (trnAtSet (trnOf trnRATE) wFollow2)) 0 Side.a trnRATEACK with target := (trnOf trnRATE).target, tag := (trnOf trnRATE).tag, value := (rateResult (trnAtSet (trnOf trnRATE) wFollow2) 0 Side.a (trnOf trnRATE).target) * 2 ^ 24 }
      (if (rateResult (trnAtSet (trnOf trnRATE) wFollow2) 0 Side.a (trnOf trnRATE).target) = 0 then refuseUp 0
      Side.a (trnOf trnRATE).target (trnAtSet (trnOf trnRATE) wFollow2) else (trnAtSet (trnOf trnRATE) wFollow2)))
      else (postTrn 0 Side.a
      { mkTrn (if (rateResult (trnAtSet (trnOf trnRATE) wFollow2) 0 Side.a (trnOf trnRATE).target) = 0 then refuseUp 0 Side.a (trnOf trnRATE).target (trnAtSet (trnOf trnRATE) wFollow2) else (trnAtSet (trnOf trnRATE) wFollow2)) 0 Side.a trnRATEACK with target := (trnOf trnRATE).target, tag := (trnOf trnRATE).tag, value := (rateResult (trnAtSet (trnOf trnRATE) wFollow2) 0 Side.a (trnOf trnRATE).target) * 2 ^ 24 }
      (if (rateResult (trnAtSet (trnOf trnRATE) wFollow2) 0 Side.a (trnOf trnRATE).target) = 0 then refuseUp 0
      Side.a (trnOf trnRATE).target (trnAtSet (trnOf trnRATE) wFollow2) else (trnAtSet (trnOf trnRATE) wFollow2))))
      ∧ ((setSpan 0 Side.a spStep (((if (rateGroup (postTrn 0 Side.a
      { mkTrn (if (rateResult (trnAtSet (trnOf trnRATE) wFollow2) 0 Side.a (trnOf trnRATE).target) = 0 then refuseUp 0 Side.a (trnOf trnRATE).target (trnAtSet (trnOf trnRATE) wFollow2) else (trnAtSet (trnOf trnRATE) wFollow2)) 0 Side.a trnRATEACK with target := (trnOf trnRATE).target, tag := (trnOf trnRATE).tag, value := (rateResult (trnAtSet (trnOf trnRATE) wFollow2) 0 Side.a (trnOf trnRATE).target) * 2 ^ 24 }
      (if (rateResult (trnAtSet (trnOf trnRATE) wFollow2) 0 Side.a (trnOf trnRATE).target) = 0 then refuseUp 0
      Side.a (trnOf trnRATE).target (trnAtSet (trnOf trnRATE) wFollow2) else (trnAtSet (trnOf trnRATE) wFollow2))) 0
      Side.a).any fun p => (postTrn 0 Side.a
      { mkTrn (if (rateResult (trnAtSet (trnOf trnRATE) wFollow2) 0 Side.a (trnOf trnRATE).target) = 0 then refuseUp 0 Side.a (trnOf trnRATE).target (trnAtSet (trnOf trnRATE) wFollow2) else (trnAtSet (trnOf trnRATE) wFollow2)) 0 Side.a trnRATEACK with target := (trnOf trnRATE).target, tag := (trnOf trnRATE).tag, value := (rateResult (trnAtSet (trnOf trnRATE) wFollow2) 0 Side.a (trnOf trnRATE).target) * 2 ^ 24 }
      (if (rateResult (trnAtSet (trnOf trnRATE) wFollow2) 0 Side.a (trnOf trnRATE).target) = 0 then refuseUp 0
      Side.a (trnOf trnRATE).target (trnAtSet (trnOf trnRATE) wFollow2) else (trnAtSet (trnOf trnRATE)
      wFollow2))).on (R.SPAN_STAT_blind p.1 p.2.idx) then blindOver (rateGroup (postTrn 0 Side.a
      { mkTrn (if (rateResult (trnAtSet (trnOf trnRATE) wFollow2) 0 Side.a (trnOf trnRATE).target) = 0 then refuseUp 0 Side.a (trnOf trnRATE).target (trnAtSet (trnOf trnRATE) wFollow2) else (trnAtSet (trnOf trnRATE) wFollow2)) 0 Side.a trnRATEACK with target := (trnOf trnRATE).target, tag := (trnOf trnRATE).tag, value := (rateResult (trnAtSet (trnOf trnRATE) wFollow2) 0 Side.a (trnOf trnRATE).target) * 2 ^ 24 }
      (if (rateResult (trnAtSet (trnOf trnRATE) wFollow2) 0 Side.a (trnOf trnRATE).target) = 0 then refuseUp 0
      Side.a (trnOf trnRATE).target (trnAtSet (trnOf trnRATE) wFollow2) else (trnAtSet (trnOf trnRATE) wFollow2))) 0
      Side.a) (postTrn 0 Side.a
      { mkTrn (if (rateResult (trnAtSet (trnOf trnRATE) wFollow2) 0 Side.a (trnOf trnRATE).target) = 0 then refuseUp 0 Side.a (trnOf trnRATE).target (trnAtSet (trnOf trnRATE) wFollow2) else (trnAtSet (trnOf trnRATE) wFollow2)) 0 Side.a trnRATEACK with target := (trnOf trnRATE).target, tag := (trnOf trnRATE).tag, value := (rateResult (trnAtSet (trnOf trnRATE) wFollow2) 0 Side.a (trnOf trnRATE).target) * 2 ^ 24 }
      (if (rateResult (trnAtSet (trnOf trnRATE) wFollow2) 0 Side.a (trnOf trnRATE).target) = 0 then refuseUp 0
      Side.a (trnOf trnRATE).target (trnAtSet (trnOf trnRATE) wFollow2) else (trnAtSet (trnOf trnRATE) wFollow2)))
      else (postTrn 0 Side.a
      { mkTrn (if (rateResult (trnAtSet (trnOf trnRATE) wFollow2) 0 Side.a (trnOf trnRATE).target) = 0 then refuseUp 0 Side.a (trnOf trnRATE).target (trnAtSet (trnOf trnRATE) wFollow2) else (trnAtSet (trnOf trnRATE) wFollow2)) 0 Side.a trnRATEACK with target := (trnOf trnRATE).target, tag := (trnOf trnRATE).tag, value := (rateResult (trnAtSet (trnOf trnRATE) wFollow2) 0 Side.a (trnOf trnRATE).target) * 2 ^ 24 }
      (if (rateResult (trnAtSet (trnOf trnRATE) wFollow2) 0 Side.a (trnOf trnRATE).target) = 0 then refuseUp 0
      Side.a (trnOf trnRATE).target (trnAtSet (trnOf trnRATE) wFollow2) else (trnAtSet (trnOf trnRATE)
      wFollow2))))).modSpan 0 Side.a fun x =>
      { x with toRung := (trnOf trnRATE).target, rateTarget := none, ackRep := none }))) = (setSpan 0 Side.a spStep
      (((if (rateGroup (postTrn 0 Side.a
      { mkTrn (if (rateResult (trnAtSet (trnOf trnRATE) wFollow2) 0 Side.a (trnOf trnRATE).target) = 0 then refuseUp 0 Side.a (trnOf trnRATE).target (trnAtSet (trnOf trnRATE) wFollow2) else (trnAtSet (trnOf trnRATE) wFollow2)) 0 Side.a trnRATEACK with target := (trnOf trnRATE).target, tag := (trnOf trnRATE).tag, value := (rateResult (trnAtSet (trnOf trnRATE) wFollow2) 0 Side.a (trnOf trnRATE).target) * 2 ^ 24 }
      (if (rateResult (trnAtSet (trnOf trnRATE) wFollow2) 0 Side.a (trnOf trnRATE).target) = 0 then refuseUp 0
      Side.a (trnOf trnRATE).target (trnAtSet (trnOf trnRATE) wFollow2) else (trnAtSet (trnOf trnRATE) wFollow2))) 0
      Side.a).any fun p => (postTrn 0 Side.a
      { mkTrn (if (rateResult (trnAtSet (trnOf trnRATE) wFollow2) 0 Side.a (trnOf trnRATE).target) = 0 then refuseUp 0 Side.a (trnOf trnRATE).target (trnAtSet (trnOf trnRATE) wFollow2) else (trnAtSet (trnOf trnRATE) wFollow2)) 0 Side.a trnRATEACK with target := (trnOf trnRATE).target, tag := (trnOf trnRATE).tag, value := (rateResult (trnAtSet (trnOf trnRATE) wFollow2) 0 Side.a (trnOf trnRATE).target) * 2 ^ 24 }
      (if (rateResult (trnAtSet (trnOf trnRATE) wFollow2) 0 Side.a (trnOf trnRATE).target) = 0 then refuseUp 0
      Side.a (trnOf trnRATE).target (trnAtSet (trnOf trnRATE) wFollow2) else (trnAtSet (trnOf trnRATE)
      wFollow2))).on (R.SPAN_STAT_blind p.1 p.2.idx) then blindOver (rateGroup (postTrn 0 Side.a
      { mkTrn (if (rateResult (trnAtSet (trnOf trnRATE) wFollow2) 0 Side.a (trnOf trnRATE).target) = 0 then refuseUp 0 Side.a (trnOf trnRATE).target (trnAtSet (trnOf trnRATE) wFollow2) else (trnAtSet (trnOf trnRATE) wFollow2)) 0 Side.a trnRATEACK with target := (trnOf trnRATE).target, tag := (trnOf trnRATE).tag, value := (rateResult (trnAtSet (trnOf trnRATE) wFollow2) 0 Side.a (trnOf trnRATE).target) * 2 ^ 24 }
      (if (rateResult (trnAtSet (trnOf trnRATE) wFollow2) 0 Side.a (trnOf trnRATE).target) = 0 then refuseUp 0
      Side.a (trnOf trnRATE).target (trnAtSet (trnOf trnRATE) wFollow2) else (trnAtSet (trnOf trnRATE) wFollow2))) 0
      Side.a) (postTrn 0 Side.a
      { mkTrn (if (rateResult (trnAtSet (trnOf trnRATE) wFollow2) 0 Side.a (trnOf trnRATE).target) = 0 then refuseUp 0 Side.a (trnOf trnRATE).target (trnAtSet (trnOf trnRATE) wFollow2) else (trnAtSet (trnOf trnRATE) wFollow2)) 0 Side.a trnRATEACK with target := (trnOf trnRATE).target, tag := (trnOf trnRATE).tag, value := (rateResult (trnAtSet (trnOf trnRATE) wFollow2) 0 Side.a (trnOf trnRATE).target) * 2 ^ 24 }
      (if (rateResult (trnAtSet (trnOf trnRATE) wFollow2) 0 Side.a (trnOf trnRATE).target) = 0 then refuseUp 0
      Side.a (trnOf trnRATE).target (trnAtSet (trnOf trnRATE) wFollow2) else (trnAtSet (trnOf trnRATE) wFollow2)))
      else (postTrn 0 Side.a
      { mkTrn (if (rateResult (trnAtSet (trnOf trnRATE) wFollow2) 0 Side.a (trnOf trnRATE).target) = 0 then refuseUp 0 Side.a (trnOf trnRATE).target (trnAtSet (trnOf trnRATE) wFollow2) else (trnAtSet (trnOf trnRATE) wFollow2)) 0 Side.a trnRATEACK with target := (trnOf trnRATE).target, tag := (trnOf trnRATE).tag, value := (rateResult (trnAtSet (trnOf trnRATE) wFollow2) 0 Side.a (trnOf trnRATE).target) * 2 ^ 24 }
      (if (rateResult (trnAtSet (trnOf trnRATE) wFollow2) 0 Side.a (trnOf trnRATE).target) = 0 then refuseUp 0
      Side.a (trnOf trnRATE).target (trnAtSet (trnOf trnRATE) wFollow2) else (trnAtSet (trnOf trnRATE)
      wFollow2))))).modSpan 0 Side.a fun x =>
      { x with toRung := (trnOf trnRATE).target, rateTarget := none, ackRep := none })) ∧ 0 < linksOf wFollow2 ∧
      trnTaken 0 Side.a (trnHeardOf (trnOf trnRATE)) trnRATE wFollow2 = some ((trnOf trnRATE), (trnAtSet (trnOf
      trnRATE) wFollow2)) ∧ leads (trnAtSet (trnOf trnRATE) wFollow2) 0 Side.a = false ∧ follows (trnAtSet (trnOf
      trnRATE) wFollow2) 0 Side.a = true ∧ trainingNow (trnAtSet (trnOf trnRATE) wFollow2) 0 Side.a = true ∧
      spanState (trnAtSet (trnOf trnRATE) wFollow2) 0 Side.a ≠ spSwitch ∧ ackWaits (trnAtSet (trnOf trnRATE)
      wFollow2) 0 Side.a (trnOf trnRATE) = false ∧ (rateResult (trnAtSet (trnOf trnRATE) wFollow2) 0 Side.a (trnOf
      trnRATE).target) = 0) ∧
    (0 < linksOf wStepLed ∧ trnTaken 0 Side.a (trnHeard trnRATEACK) trnRATEACK wStepLed = some ((trnOf trnRATEACK),
      (trnAt trnRATEACK wStepLed)) ∧ ((trnAt trnRATEACK wStepLed).span 0 Side.a).rateTarget = some 3 ∧ spanState
      (trnAt trnRATEACK wStepLed) 0 Side.a = spStep ∧ leads (trnAt trnRATEACK wStepLed) 0 Side.a = true ∧ (trnOf
      trnRATEACK).tag = ((trnAt trnRATEACK wStepLed).span 0 Side.a).rateTag ∧ (trnOf trnRATEACK).value / 2 ^ 24 %
      256 = 0) ∧
    (0 < linksOf wStepLed ∧ trnTaken 0 Side.a (trnHeardOf ackNo) trnRATEACK wStepLed = some (ackNo, (trnAtSet ackNo
      wStepLed)) ∧ ((trnAtSet ackNo wStepLed).span 0 Side.a).rateTarget = some 3 ∧ spanState (trnAtSet ackNo
      wStepLed) 0 Side.a = spStep ∧ leads (trnAtSet ackNo wStepLed) 0 Side.a = true ∧ ackNo.tag = ((trnAtSet ackNo
      wStepLed).span 0 Side.a).rateTag ∧ ackNo.value / 2 ^ 24 % 256 ≠ 0) ∧
    (0 < linksOf wStepLed ∧ trnTaken 0 Side.a (trnHeardOf readyPass) trnREADY wStepLed = some (readyPass, (trnAtSet
      readyPass wStepLed)) ∧ trainingNow (trnAtSet readyPass wStepLed) 0 Side.a = true ∧ readyPass.cur = spanRung
      (trnAtSet readyPass wStepLed) 0 Side.a ∧ bit readyPass.flags 4 = true) ∧
    (0 < linksOf wJoined ∧ trnTaken 0 Side.a (trnHeardOf readyNo) trnREADY wJoined = some (readyNo, (trnAtSet
      readyNo wJoined)) ∧ (readyU (trnAtSet readyNo wJoined)) = ((trnAtSet readyNo wJoined).modSpan 0 Side.a fun x
      => { x with passRcvd := false, thruRcvd := bit readyNo.flags 3 }) ∧ trainingNow (trnAtSet readyNo wJoined) 0
      Side.a = true ∧ readyNo.cur = spanRung (trnAtSet readyNo wJoined) 0 Side.a ∧ bit readyNo.flags 4 = false ∧
      groupJoined (readyU (trnAtSet readyNo wJoined)) 0 Side.a = true) ∧
    (0 < linksOf wStepLed ∧ trnTaken 0 Side.a (trnHeardOf readyNo) trnREADY wStepLed = some (readyNo, (trnAtSet
      readyNo wStepLed)) ∧ (readyU (trnAtSet readyNo wStepLed)) = ((trnAtSet readyNo wStepLed).modSpan 0 Side.a fun
      x => { x with passRcvd := false, thruRcvd := bit readyNo.flags 3 }) ∧ trainingNow (trnAtSet readyNo wStepLed)
      0 Side.a = true ∧ readyNo.cur = spanRung (trnAtSet readyNo wStepLed) 0 Side.a ∧ bit readyNo.flags 4 = false ∧
      groupJoined (readyU (trnAtSet readyNo wStepLed)) 0 Side.a = false ∧ (readyU (trnAtSet readyNo wStepLed)).on
      (R.SPAN_STAT_blind 0 Side.a.idx) = false) ∧
    (0 < linksOf wTrain ∧ trnTaken 0 Side.a (trnHeard trnECHOREQ) trnECHOREQ wTrain = some ((trnOf trnECHOREQ),
      (trnAt trnECHOREQ wTrain)) ∧ (spanUp (trnAt trnECHOREQ wTrain) 0 Side.a || (trainingNow (trnAt trnECHOREQ
      wTrain) 0 Side.a && spanState (trnAt trnECHOREQ wTrain) 0 Side.a ≠ spSwitch)) = true) ∧
    (0 < linksOf wMeasure ∧ trnTaken 0 Side.a (trnHeard trnECHORSP) trnECHORSP wMeasure = some ((trnOf trnECHORSP),
      (trnAt trnECHORSP wMeasure)) ∧ (echoU (trnAt trnECHORSP wMeasure)) = (trnAt trnECHORSP wMeasure).putSpan 0
      Side.a
      { (trnAt trnECHORSP wMeasure).span 0 Side.a with echoOut := false, samples := ((trnAt trnECHORSP wMeasure).span 0 Side.a).samples ++ [100 - (trnOf trnECHORSP).value] }
      ∧ spanState (trnAt trnECHORSP wMeasure) 0 Side.a = spMeasure ∧ ((trnAt trnECHORSP wMeasure).span 0
      Side.a).echoOut = true ∧ (trnOf trnECHORSP).tag = ((trnAt trnECHORSP wMeasure).span 0 Side.a).echoTag ∧
      ((trnAt trnECHORSP wMeasure).span 0 Side.a).samples.length < 7) ∧
    (0 < linksOf wMeasure7 ∧ trnTaken 0 Side.a (trnHeard trnECHORSP) trnECHORSP wMeasure7 = some ((trnOf
      trnECHORSP), (trnAt trnECHORSP wMeasure7)) ∧ (echoU (trnAt trnECHORSP wMeasure7)) = (trnAt trnECHORSP
      wMeasure7).putSpan 0 Side.a
      { (trnAt trnECHORSP wMeasure7).span 0 Side.a with echoOut := false, samples := ((trnAt trnECHORSP wMeasure7).span 0 Side.a).samples ++ [100 - (trnOf trnECHORSP).value] }
      ∧ spanState (trnAt trnECHORSP wMeasure7) 0 Side.a = spMeasure ∧ ((trnAt trnECHORSP wMeasure7).span 0
      Side.a).echoOut = true ∧ (trnOf trnECHORSP).tag = ((trnAt trnECHORSP wMeasure7).span 0 Side.a).echoTag ∧ 7 ≤
      ((trnAt trnECHORSP wMeasure7).span 0 Side.a).samples.length) ∧
    (0 < linksOf wTrain ∧ trnTaken 0 Side.a (trnHeard trnRETRAIN) trnRETRAIN wTrain = some ((trnOf trnRETRAIN),
      (trnAt trnRETRAIN wTrain))) ∧
    (0 < linksOf wTrain ∧ trnTaken 0 Side.a (trnHeard trnDENSEREQ) trnDENSEREQ wTrain = some ((trnOf trnDENSEREQ),
      (trnAt trnDENSEREQ wTrain)) ∧ spanUp (trnAt trnDENSEREQ wTrain) 0 Side.a = true) ∧
    (0 < linksOf wTrain ∧ trnTaken 0 Side.a (trnHeard trnDENSEREL) trnDENSEREL wTrain = some ((trnOf trnDENSEREL),
      (trnAt trnDENSEREL wTrain)) ∧ spanUp (trnAt trnDENSEREL wTrain) 0 Side.a = true) := by
  refine ⟨?_, ?_, ?_, ?_, ?_, ?_, ?_, ?_, ?_, ?_, ?_, ?_, ?_, ?_, ?_, ?_, ?_, ?_, ?_⟩ <;> decide +kernel

/-- The hypotheses of TrainingTimers can be met. -/
theorem witness_trainingTimers :
    ((groupOf (wLate wAcquire)) = ((rateGroup (wLate wAcquire) 0 Side.a).filter fun p => spanTraining (wLate
      wAcquire) p.1 p.2) ∧ 0 < linksOf (wLate wAcquire) ∧ spanTraining (wLate wAcquire) 0 Side.a = true ∧
      hasSequencer (wLate wAcquire) 0 Side.a = true ∧ sideHeld (wLate wAcquire) 0 Side.a = false ∧ capSettled (wLate
      wAcquire) 0 Side.a = true ∧ ((groupOf (wLate wAcquire)).any fun p => (wLate wAcquire).rd (R.SPAN_NBR_adv_elect
      p.1 p.2.idx) = inElect (wLate wAcquire) p.1 p.2) = true ∧ 1 = ((wLate wAcquire).span 0 Side.a).collisions + 1
      ∧ (settled 1 ((wLate wAcquire).bump (R.TRN_CNT_collisions 0))) = ((groupOf (wLate wAcquire)).foldl (fun zs p
      => zs.modSpan p.1 p.2 fun x => { x with collisions := 1, capFrom := zs.clock }) ((wLate wAcquire).bump
      (R.TRN_CNT_collisions 0))) ∧ ((wLate wAcquire).span 0 Side.a).collisions < 7) ∧
    ((groupOf (wLate wClash7)) = ((rateGroup (wLate wClash7) 0 Side.a).filter fun p => spanTraining (wLate wClash7)
      p.1 p.2) ∧ 0 < linksOf (wLate wClash7) ∧ spanTraining (wLate wClash7) 0 Side.a = true ∧ hasSequencer (wLate
      wClash7) 0 Side.a = true ∧ sideHeld (wLate wClash7) 0 Side.a = false ∧ capSettled (wLate wClash7) 0 Side.a =
      true ∧ ((groupOf (wLate wClash7)).any fun p => (wLate wClash7).rd (R.SPAN_NBR_adv_elect p.1 p.2.idx) = inElect
      (wLate wClash7) p.1 p.2) = true ∧ 8 = ((wLate wClash7).span 0 Side.a).collisions + 1 ∧ (settled 8 ((wLate
      wClash7).bump (R.TRN_CNT_collisions 0))) = ((groupOf (wLate wClash7)).foldl (fun zs p => zs.modSpan p.1 p.2
      fun x => { x with collisions := 8, capFrom := zs.clock }) ((wLate wClash7).bump (R.TRN_CNT_collisions 0))) ∧ 7
      ≤ ((wLate wClash7).span 0 Side.a).collisions) ∧
    ((groupOf (wLate wNoClash)) = ((rateGroup (wLate wNoClash) 0 Side.a).filter fun p => spanTraining (wLate
      wNoClash) p.1 p.2) ∧ 0 < linksOf (wLate wNoClash) ∧ spanTraining (wLate wNoClash) 0 Side.a = true ∧
      hasSequencer (wLate wNoClash) 0 Side.a = true ∧ sideHeld (wLate wNoClash) 0 Side.a = false ∧ capSettled (wLate
      wNoClash) 0 Side.a = true ∧ ((groupOf (wLate wNoClash)).any fun p => (wLate wNoClash).rd (R.SPAN_NBR_adv_elect
      p.1 p.2.idx) = inElect (wLate wNoClash) p.1 p.2) = false) ∧
    (0 < linksOf (wLate wSwitchSp) ∧ spanState (wLate wSwitchSp) 0 Side.a = spSwitch ∧ sideHeld (wLate wSwitchSp) 0
      Side.a = false ∧ sideSending (wLate wSwitchSp) 0 Side.a = false ∧ ((wLate wSwitchSp).span 0 Side.a).idleFrom +
      1000 * switchIdle (wLate wSwitchSp) 0 ≤ (wLate wSwitchSp).clock) ∧
    (0 < linksOf wQualifyOk ∧ spanState wQualifyOk 0 Side.a = spQualify ∧ sideHeld wQualifyOk 0 Side.a = false ∧
      dwellSymbols wQualifyOk 0 ≤ (2 ^ 32) ∧ dwellPasses wQualifyOk 0 Side.a = true ∧ (readyOk wQualifyOk) =
      ((readyEnter 0 Side.a wQualifyOk).modSpan 0 Side.a fun x => { x with judged := true, passes := true })) ∧
    (0 < linksOf wQualifyOk ∧ 16383 < dwellSymbols wQualifyOk 0) ∧
    (0 < linksOf wQualifyBad ∧ spanState wQualifyBad 0 Side.a = spQualify ∧ sideHeld wQualifyBad 0 Side.a = false ∧
      dwellSymbols wQualifyBad 0 ≤ (2 ^ 32) ∧ dwellPasses wQualifyBad 0 Side.a = false) ∧
    (0 < linksOf (wLate wQualify) ∧ (spanState (wLate wQualify) 0 Side.a = spAcquire ∨ spanState (wLate wQualify) 0
      Side.a = spQualify) ∧ sideHeld (wLate wQualify) 0 Side.a = false ∧ ((wLate wQualify).span 0 Side.a).acqFrom +
      rungMaxNs (wLate wQualify) 0 ≤ (wLate wQualify).clock) ∧
    (0 < linksOf (wLate wJoinedQ) ∧ (spanState (wLate wJoinedQ) 0 Side.a = spAcquire ∨ spanState (wLate wJoinedQ) 0
      Side.a = spQualify) ∧ sideHeld (wLate wJoinedQ) 0 Side.a = false ∧ ((wLate wJoinedQ).span 0 Side.a).acqFrom +
      rungMaxNs (wLate wJoinedQ) 0 ≤ (wLate wJoinedQ).clock ∧ (((wLate wJoinedQ).span 0 Side.a).judged && !((wLate
      wJoinedQ).span 0 Side.a).passes) = false ∧ groupJoined (wLate wJoinedQ) 0 Side.a = true) ∧
    (0 < linksOf (wLate wQualify) ∧ spanTraining (wLate wQualify) 0 Side.a = true ∧ spanRetraining (wLate wQualify)
      0 Side.a = false ∧ sideHeld (wLate wQualify) 0 Side.a = false ∧ ((wLate wQualify).span 0 Side.a).trainFrom +
      trainMaxNs (wLate wQualify) 0 ≤ (wLate wQualify).clock) ∧
    (0 < linksOf (wLate wRetrain) ∧ spanTraining (wLate wRetrain) 0 Side.a = true ∧ spanRetraining (wLate wRetrain)
      0 Side.a = true ∧ sideHeld (wLate wRetrain) 0 Side.a = false ∧ ((wLate wRetrain).span 0 Side.a).trainFrom +
      retrainMaxNs (wLate wRetrain) 0 ≤ (wLate wRetrain).clock) ∧
    (0 < linksOf (wLate wStep) ∧ ((wLate wStep).span 0 Side.a).rateTarget = some 3 ∧ spanState (wLate wStep) 0
      Side.a = spStep ∧ sideHeld (wLate wStep) 0 Side.a = false ∧ ((wLate wStep).span 0 Side.a).rateAt + 2000 ≤
      (wLate wStep).clock ∧ ((wLate wStep).span 0 Side.a).rateSends < 16) ∧
    (0 < linksOf (wLate wStep16) ∧ ((wLate wStep16).span 0 Side.a).rateTarget = some 3 ∧ spanState (wLate wStep16) 0
      Side.a = spStep ∧ sideHeld (wLate wStep16) 0 Side.a = false ∧ ((wLate wStep16).span 0 Side.a).rateAt + 2000 ≤
      (wLate wStep16).clock ∧ 16 ≤ ((wLate wStep16).span 0 Side.a).rateSends) ∧
    (0 < linksOf (wLate wMeasure) ∧ spanState (wLate wMeasure) 0 Side.a = spMeasure ∧ sideHeld (wLate wMeasure) 0
      Side.a = false ∧ ((wLate wMeasure).span 0 Side.a).echoOut = true ∧ ((wLate wMeasure).span 0 Side.a).echoAt +
      10000 ≤ (wLate wMeasure).clock ∧ ((wLate wMeasure).span 0 Side.a).requests < 32 ∧ (echoMore (wLate wMeasure))
      = (wLate wMeasure).putSpan 0 Side.a
      { (wLate wMeasure).span 0 Side.a with echoTag := (((wLate wMeasure).span 0 Side.a).echoTag + 1) % 256, requests := ((wLate wMeasure).span 0 Side.a).requests + 1, echoOut := true, echoAt := (wLate wMeasure).clock })
      ∧
    (0 < linksOf (wLate wMeasure32) ∧ spanState (wLate wMeasure32) 0 Side.a = spMeasure ∧ sideHeld (wLate
      wMeasure32) 0 Side.a = false ∧ ((wLate wMeasure32).span 0 Side.a).echoOut = true ∧ ((wLate wMeasure32).span 0
      Side.a).echoAt + 10000 ≤ (wLate wMeasure32).clock ∧ 32 ≤ ((wLate wMeasure32).span 0 Side.a).requests) ∧
    (0 < linksOf (wLate wDown) ∧ sideHeld (wLate wDown) 0 Side.a = false ∧ spanState (wLate wDown) 0 Side.a = spDown
      ∧ ((wLate wDown).span 0 Side.a).byCmd = false ∧ ((wLate wDown).span 0 Side.a).downAt + 1000000 ≤ (wLate
      wDown).fab ∧ mayTrain (wLate wDown) 0 Side.a = true) ∧
    (goReached wGo = true) ∧
    (0 < linksOf wArmed ∧ (wArmed.link 0).tUp = some 0 ∧ 0 ≤ wArmed.fab ∧ armed wArmed 0 = true ∧ (usedSides wArmed
      0).any (sideHeld wArmed 0) = false) := by
  refine ⟨?_, ?_, ?_, ?_, ?_, ?_, ?_, ?_, ?_, ?_, ?_, ?_, ?_, ?_, ?_, ?_, ?_, ?_⟩ <;> decide +kernel

/-- The hypotheses of TrainCommands can be met. -/
theorem witness_trainCommands :
    (0 < linksOf wUp ∧ pageOpen wUp (0x40 + 0) = true ∧ notSteady wUp 0 Side.a = false ∧ modeOf wUp 0 ≠ mNone) ∧
    (0 < linksOf wDown ∧ pageOpen wDown (0x40 + 0) = true ∧ (notSteady wDown 0 Side.a = true ∨ modeOf wDown 0 =
      mNone)) ∧
    (0 < linksOf wUpFast ∧ pageOpen wUpFast (0x40 + 0) = true ∧ notSteady wUpFast 0 Side.a = false ∧ modeOf wUpFast
      0 ≠ mNone ∧ 1 ≠ spanRung wUpFast 0 Side.a ∧ 1 ≤ targetRung wUpFast (rateGroup wUpFast 0 Side.a) ∧ transRung
      wUpFast 0 Side.a = none) ∧
    (0 < linksOf wUpFast ∧ pageOpen wUpFast (0x40 + 0) = true ∧ (notSteady wUpFast 0 Side.a = true ∨ 3 = spanRung
      wUpFast 0 Side.a ∨ targetRung wUpFast (rateGroup wUpFast 0 Side.a) < 3 ∨ (transRung wUpFast 0 Side.a).isSome =
      true ∨ modeOf wUpFast 0 = mNone)) ∧
    (0 < linksOf wUp ∧ pageOpen wUp (0x40 + 0) = true ∧ modeOf wUp 0 ≠ mNone) ∧
    (0 < linksOf wRun ∧ pageOpen wRun (0x40 + 0) = true ∧ modeOf wRun 0 = mNone) ∧
    (0 < linksOf wDown ∧ pageOpen wDown (0x40 + 0) = true ∧ modeOf wDown 0 ≠ mNone ∧ (usedSides wDown 0).all (fun e
      => spanState wDown 0 e ≠ spDown) = false) ∧
    (0 < linksOf wUp ∧ pageOpen wUp (0x40 + 0) = true ∧ ((usedSides wUp 0).all (fun e => spanState wUp 0 e ≠ spDown)
      = true ∨ modeOf wUp 0 = mNone)) := by
  refine ⟨?_, ?_, ?_, ?_, ?_, ?_, ?_, ?_⟩ <;> decide +kernel

/-- The hypotheses of SetsAndFlitsArrive can be met. -/
theorem witness_setsAndFlitsArrive :
    (0 < linksOf wUpTrunk ∧ sideLive wUpTrunk 0 Side.a = true ∧ takesFlits wUpTrunk 0 Side.a = true ∧ flitStarts
      (receivedSlices wUpTrunk 0 Side.a (flitCodesIn ctlBytes)) = true ∧ isTrunkSide (countClass 0 Side.a.dirIn.idx
      (arrivalClass (sideWidth (slicesHeard 0 Side.a (flitCodesIn ctlBytes) wUpTrunk) 0 Side.a) (receivedSlices
      wUpTrunk 0 Side.a (flitCodesIn ctlBytes))) (slicesHeard 0 Side.a (flitCodesIn ctlBytes) wUpTrunk)) 0 Side.a =
      true ∧
      (({ bytes := arrivedBytes (sideWidth (slicesHeard 0 Side.a (flitCodesIn ctlBytes) wUpTrunk) 0 Side.a) (receivedSlices wUpTrunk 0 Side.a (flitCodesIn ctlBytes)), cls := if mapMixed (slicesHeard 0 Side.a (flitCodesIn ctlBytes) wUpTrunk) 0 Side.a then 1 else arrivalClass (sideWidth (slicesHeard 0 Side.a (flitCodesIn ctlBytes) wUpTrunk) 0 Side.a) (receivedSlices wUpTrunk 0 Side.a (flitCodesIn ctlBytes)) }
      : Flit)).cls = 2) ∧
    (0 < linksOf wUpTrunk ∧ sideLive wUpTrunk 0 Side.a = true ∧ takesFlits wUpTrunk 0 Side.a = true ∧ flitStarts
      (receivedSlices wUpTrunk 0 Side.a (flitCodesBad ctlBytes)) = true ∧ isTrunkSide (countClass 0 Side.a.dirIn.idx
      (arrivalClass (sideWidth (slicesHeard 0 Side.a (flitCodesBad ctlBytes) wUpTrunk) 0 Side.a) (receivedSlices
      wUpTrunk 0 Side.a (flitCodesBad ctlBytes))) (slicesHeard 0 Side.a (flitCodesBad ctlBytes) wUpTrunk)) 0 Side.a
      = true ∧
      (({ bytes := arrivedBytes (sideWidth (slicesHeard 0 Side.a (flitCodesBad ctlBytes) wUpTrunk) 0 Side.a) (receivedSlices wUpTrunk 0 Side.a (flitCodesBad ctlBytes)), cls := if mapMixed (slicesHeard 0 Side.a (flitCodesBad ctlBytes) wUpTrunk) 0 Side.a then 1 else arrivalClass (sideWidth (slicesHeard 0 Side.a (flitCodesBad ctlBytes) wUpTrunk) 0 Side.a) (receivedSlices wUpTrunk 0 Side.a (flitCodesBad ctlBytes)) }
      : Flit)).cls ≠ 0 ∧
      (({ bytes := arrivedBytes (sideWidth (slicesHeard 0 Side.a (flitCodesBad ctlBytes) wUpTrunk) 0 Side.a) (receivedSlices wUpTrunk 0 Side.a (flitCodesBad ctlBytes)), cls := if mapMixed (slicesHeard 0 Side.a (flitCodesBad ctlBytes) wUpTrunk) 0 Side.a then 1 else arrivalClass (sideWidth (slicesHeard 0 Side.a (flitCodesBad ctlBytes) wUpTrunk) 0 Side.a) (receivedSlices wUpTrunk 0 Side.a (flitCodesBad ctlBytes)) }
      : Flit)).cls ≠ 2) ∧
    (0 < linksOf (wTrunkExp 65530) ∧ sideLive (wTrunkExp 65530) 0 Side.a = true ∧ takesFlits (wTrunkExp 65530) 0
      Side.a = true ∧ flitStarts (receivedSlices (wTrunkExp 65530) 0 Side.a (flitCodes ctlBytes)) = true ∧
      isTrunkSide (countClass 0 Side.a.dirIn.idx (arrivalClass (sideWidth (slicesHeard 0 Side.a (flitCodes ctlBytes)
      (wTrunkExp 65530)) 0 Side.a) (receivedSlices (wTrunkExp 65530) 0 Side.a (flitCodes ctlBytes))) (slicesHeard 0
      Side.a (flitCodes ctlBytes) (wTrunkExp 65530))) 0 Side.a = true ∧
      (({ bytes := arrivedBytes (sideWidth (slicesHeard 0 Side.a (flitCodes ctlBytes) (wTrunkExp 65530)) 0 Side.a) (receivedSlices (wTrunkExp 65530) 0 Side.a (flitCodes ctlBytes)), cls := if mapMixed (slicesHeard 0 Side.a (flitCodes ctlBytes) (wTrunkExp 65530)) 0 Side.a then 1 else arrivalClass (sideWidth (slicesHeard 0 Side.a (flitCodes ctlBytes) (wTrunkExp 65530)) 0 Side.a) (receivedSlices (wTrunkExp 65530) 0 Side.a (flitCodes ctlBytes)) }
      : Flit)).cls = 0 ∧ wordSpan (flitWord
      (({ bytes := arrivedBytes (sideWidth (slicesHeard 0 Side.a (flitCodes ctlBytes) (wTrunkExp 65530)) 0 Side.a) (receivedSlices (wTrunkExp 65530) 0 Side.a (flitCodes ctlBytes)), cls := if mapMixed (slicesHeard 0 Side.a (flitCodes ctlBytes) (wTrunkExp 65530)) 0 Side.a then 1 else arrivalClass (sideWidth (slicesHeard 0 Side.a (flitCodes ctlBytes) (wTrunkExp 65530)) 0 Side.a) (receivedSlices (wTrunkExp 65530) 0 Side.a (flitCodes ctlBytes)) }
      : Flit)).bytes) ≠ ((countClass 0 Side.a.dirIn.idx (arrivalClass (sideWidth (slicesHeard 0 Side.a (flitCodes
      ctlBytes) (wTrunkExp 65530)) 0 Side.a) (receivedSlices (wTrunkExp 65530) 0 Side.a (flitCodes ctlBytes)))
      (slicesHeard 0 Side.a (flitCodes ctlBytes) (wTrunkExp 65530))).trunk (trunkKey (countClass 0 Side.a.dirIn.idx
      (arrivalClass (sideWidth (slicesHeard 0 Side.a (flitCodes ctlBytes) (wTrunkExp 65530)) 0 Side.a)
      (receivedSlices (wTrunkExp 65530) 0 Side.a (flitCodes ctlBytes))) (slicesHeard 0 Side.a (flitCodes ctlBytes)
      (wTrunkExp 65530))) 0 Side.a)).expect ∧ isAhead16 (wordSpan (flitWord
      (({ bytes := arrivedBytes (sideWidth (slicesHeard 0 Side.a (flitCodes ctlBytes) (wTrunkExp 65530)) 0 Side.a) (receivedSlices (wTrunkExp 65530) 0 Side.a (flitCodes ctlBytes)), cls := if mapMixed (slicesHeard 0 Side.a (flitCodes ctlBytes) (wTrunkExp 65530)) 0 Side.a then 1 else arrivalClass (sideWidth (slicesHeard 0 Side.a (flitCodes ctlBytes) (wTrunkExp 65530)) 0 Side.a) (receivedSlices (wTrunkExp 65530) 0 Side.a (flitCodes ctlBytes)) }
      : Flit)).bytes)) ((countClass 0 Side.a.dirIn.idx (arrivalClass (sideWidth (slicesHeard 0 Side.a (flitCodes
      ctlBytes) (wTrunkExp 65530)) 0 Side.a) (receivedSlices (wTrunkExp 65530) 0 Side.a (flitCodes ctlBytes)))
      (slicesHeard 0 Side.a (flitCodes ctlBytes) (wTrunkExp 65530))).trunk (trunkKey (countClass 0 Side.a.dirIn.idx
      (arrivalClass (sideWidth (slicesHeard 0 Side.a (flitCodes ctlBytes) (wTrunkExp 65530)) 0 Side.a)
      (receivedSlices (wTrunkExp 65530) 0 Side.a (flitCodes ctlBytes))) (slicesHeard 0 Side.a (flitCodes ctlBytes)
      (wTrunkExp 65530))) 0 Side.a)).expect = true) ∧
    (0 < linksOf (wTrunkExp 5) ∧ sideLive (wTrunkExp 5) 0 Side.a = true ∧ takesFlits (wTrunkExp 5) 0 Side.a = true ∧
      flitStarts (receivedSlices (wTrunkExp 5) 0 Side.a (flitCodes ctlBytes)) = true ∧ isTrunkSide (countClass 0
      Side.a.dirIn.idx (arrivalClass (sideWidth (slicesHeard 0 Side.a (flitCodes ctlBytes) (wTrunkExp 5)) 0 Side.a)
      (receivedSlices (wTrunkExp 5) 0 Side.a (flitCodes ctlBytes))) (slicesHeard 0 Side.a (flitCodes ctlBytes)
      (wTrunkExp 5))) 0 Side.a = true ∧
      (({ bytes := arrivedBytes (sideWidth (slicesHeard 0 Side.a (flitCodes ctlBytes) (wTrunkExp 5)) 0 Side.a) (receivedSlices (wTrunkExp 5) 0 Side.a (flitCodes ctlBytes)), cls := if mapMixed (slicesHeard 0 Side.a (flitCodes ctlBytes) (wTrunkExp 5)) 0 Side.a then 1 else arrivalClass (sideWidth (slicesHeard 0 Side.a (flitCodes ctlBytes) (wTrunkExp 5)) 0 Side.a) (receivedSlices (wTrunkExp 5) 0 Side.a (flitCodes ctlBytes)) }
      : Flit)).cls = 0 ∧ wordSpan (flitWord
      (({ bytes := arrivedBytes (sideWidth (slicesHeard 0 Side.a (flitCodes ctlBytes) (wTrunkExp 5)) 0 Side.a) (receivedSlices (wTrunkExp 5) 0 Side.a (flitCodes ctlBytes)), cls := if mapMixed (slicesHeard 0 Side.a (flitCodes ctlBytes) (wTrunkExp 5)) 0 Side.a then 1 else arrivalClass (sideWidth (slicesHeard 0 Side.a (flitCodes ctlBytes) (wTrunkExp 5)) 0 Side.a) (receivedSlices (wTrunkExp 5) 0 Side.a (flitCodes ctlBytes)) }
      : Flit)).bytes) ≠ ((countClass 0 Side.a.dirIn.idx (arrivalClass (sideWidth (slicesHeard 0 Side.a (flitCodes
      ctlBytes) (wTrunkExp 5)) 0 Side.a) (receivedSlices (wTrunkExp 5) 0 Side.a (flitCodes ctlBytes))) (slicesHeard
      0 Side.a (flitCodes ctlBytes) (wTrunkExp 5))).trunk (trunkKey (countClass 0 Side.a.dirIn.idx (arrivalClass
      (sideWidth (slicesHeard 0 Side.a (flitCodes ctlBytes) (wTrunkExp 5)) 0 Side.a) (receivedSlices (wTrunkExp 5) 0
      Side.a (flitCodes ctlBytes))) (slicesHeard 0 Side.a (flitCodes ctlBytes) (wTrunkExp 5))) 0 Side.a)).expect ∧
      isAhead16 (wordSpan (flitWord
      (({ bytes := arrivedBytes (sideWidth (slicesHeard 0 Side.a (flitCodes ctlBytes) (wTrunkExp 5)) 0 Side.a) (receivedSlices (wTrunkExp 5) 0 Side.a (flitCodes ctlBytes)), cls := if mapMixed (slicesHeard 0 Side.a (flitCodes ctlBytes) (wTrunkExp 5)) 0 Side.a then 1 else arrivalClass (sideWidth (slicesHeard 0 Side.a (flitCodes ctlBytes) (wTrunkExp 5)) 0 Side.a) (receivedSlices (wTrunkExp 5) 0 Side.a (flitCodes ctlBytes)) }
      : Flit)).bytes)) ((countClass 0 Side.a.dirIn.idx (arrivalClass (sideWidth (slicesHeard 0 Side.a (flitCodes
      ctlBytes) (wTrunkExp 5)) 0 Side.a) (receivedSlices (wTrunkExp 5) 0 Side.a (flitCodes ctlBytes))) (slicesHeard
      0 Side.a (flitCodes ctlBytes) (wTrunkExp 5))).trunk (trunkKey (countClass 0 Side.a.dirIn.idx (arrivalClass
      (sideWidth (slicesHeard 0 Side.a (flitCodes ctlBytes) (wTrunkExp 5)) 0 Side.a) (receivedSlices (wTrunkExp 5) 0
      Side.a (flitCodes ctlBytes))) (slicesHeard 0 Side.a (flitCodes ctlBytes) (wTrunkExp 5))) 0 Side.a)).expect =
      false) ∧
    (0 < linksOf (wTrunkExp 0) ∧ sideLive (wTrunkExp 0) 0 Side.a = true ∧ takesFlits (wTrunkExp 0) 0 Side.a = true ∧
      flitStarts (receivedSlices (wTrunkExp 0) 0 Side.a (flitCodes ctlBytes)) = true ∧ isTrunkSide (countClass 0
      Side.a.dirIn.idx (arrivalClass (sideWidth (slicesHeard 0 Side.a (flitCodes ctlBytes) (wTrunkExp 0)) 0 Side.a)
      (receivedSlices (wTrunkExp 0) 0 Side.a (flitCodes ctlBytes))) (slicesHeard 0 Side.a (flitCodes ctlBytes)
      (wTrunkExp 0))) 0 Side.a = true ∧
      (({ bytes := arrivedBytes (sideWidth (slicesHeard 0 Side.a (flitCodes ctlBytes) (wTrunkExp 0)) 0 Side.a) (receivedSlices (wTrunkExp 0) 0 Side.a (flitCodes ctlBytes)), cls := if mapMixed (slicesHeard 0 Side.a (flitCodes ctlBytes) (wTrunkExp 0)) 0 Side.a then 1 else arrivalClass (sideWidth (slicesHeard 0 Side.a (flitCodes ctlBytes) (wTrunkExp 0)) 0 Side.a) (receivedSlices (wTrunkExp 0) 0 Side.a (flitCodes ctlBytes)) }
      : Flit)).cls = 0 ∧ wordSpan (flitWord
      (({ bytes := arrivedBytes (sideWidth (slicesHeard 0 Side.a (flitCodes ctlBytes) (wTrunkExp 0)) 0 Side.a) (receivedSlices (wTrunkExp 0) 0 Side.a (flitCodes ctlBytes)), cls := if mapMixed (slicesHeard 0 Side.a (flitCodes ctlBytes) (wTrunkExp 0)) 0 Side.a then 1 else arrivalClass (sideWidth (slicesHeard 0 Side.a (flitCodes ctlBytes) (wTrunkExp 0)) 0 Side.a) (receivedSlices (wTrunkExp 0) 0 Side.a (flitCodes ctlBytes)) }
      : Flit)).bytes) = ((countClass 0 Side.a.dirIn.idx (arrivalClass (sideWidth (slicesHeard 0 Side.a (flitCodes
      ctlBytes) (wTrunkExp 0)) 0 Side.a) (receivedSlices (wTrunkExp 0) 0 Side.a (flitCodes ctlBytes))) (slicesHeard
      0 Side.a (flitCodes ctlBytes) (wTrunkExp 0))).trunk (trunkKey (countClass 0 Side.a.dirIn.idx (arrivalClass
      (sideWidth (slicesHeard 0 Side.a (flitCodes ctlBytes) (wTrunkExp 0)) 0 Side.a) (receivedSlices (wTrunkExp 0) 0
      Side.a (flitCodes ctlBytes))) (slicesHeard 0 Side.a (flitCodes ctlBytes) (wTrunkExp 0))) 0 Side.a)).expect) ∧
    (0 < linksOf wUp ∧ sideLive wUp 0 Side.a = true ∧ takesFlits wUp 0 Side.a = true ∧ flitStarts (receivedSlices
      wUp 0 Side.a (flitCodes ctlBytes)) = true ∧ isTrunkSide (countClass 0 Side.a.dirIn.idx (arrivalClass
      (sideWidth (slicesHeard 0 Side.a (flitCodes ctlBytes) wUp) 0 Side.a) (receivedSlices wUp 0 Side.a (flitCodes
      ctlBytes))) (slicesHeard 0 Side.a (flitCodes ctlBytes) wUp)) 0 Side.a = false ∧
      (({ bytes := arrivedBytes (sideWidth (slicesHeard 0 Side.a (flitCodes ctlBytes) wUp) 0 Side.a) (receivedSlices wUp 0 Side.a (flitCodes ctlBytes)), cls := if mapMixed (slicesHeard 0 Side.a (flitCodes ctlBytes) wUp) 0 Side.a then 1 else arrivalClass (sideWidth (slicesHeard 0 Side.a (flitCodes ctlBytes) wUp) 0 Side.a) (receivedSlices wUp 0 Side.a (flitCodes ctlBytes)) }
      : Flit)).cls = 0 ∧ flitType
      (({ bytes := arrivedBytes (sideWidth (slicesHeard 0 Side.a (flitCodes ctlBytes) wUp) 0 Side.a) (receivedSlices wUp 0 Side.a (flitCodes ctlBytes)), cls := if mapMixed (slicesHeard 0 Side.a (flitCodes ctlBytes) wUp) 0 Side.a then 1 else arrivalClass (sideWidth (slicesHeard 0 Side.a (flitCodes ctlBytes) wUp) 0 Side.a) (receivedSlices wUp 0 Side.a (flitCodes ctlBytes)) }
      : Flit)).bytes = 15) ∧
    (0 < linksOf wUpBundle ∧ sideLive wUpBundle 0 Side.a = true ∧ takesFlits wUpBundle 0 Side.a = true ∧ flitStarts
      (receivedSlices wUpBundle 0 Side.a (flitCodes (List.replicate 144 0))) = true ∧ isTrunkSide (countClass 0
      Side.a.dirIn.idx (arrivalClass (sideWidth (slicesHeard 0 Side.a (flitCodes (List.replicate 144 0)) wUpBundle)
      0 Side.a) (receivedSlices wUpBundle 0 Side.a (flitCodes (List.replicate 144 0)))) (slicesHeard 0 Side.a
      (flitCodes (List.replicate 144 0)) wUpBundle)) 0 Side.a = false ∧
      ((({ bytes := arrivedBytes (sideWidth (slicesHeard 0 Side.a (flitCodes (List.replicate 144 0)) wUpBundle) 0 Side.a) (receivedSlices wUpBundle 0 Side.a (flitCodes (List.replicate 144 0))), cls := if mapMixed (slicesHeard 0 Side.a (flitCodes (List.replicate 144 0)) wUpBundle) 0 Side.a then 1 else arrivalClass (sideWidth (slicesHeard 0 Side.a (flitCodes (List.replicate 144 0)) wUpBundle) 0 Side.a) (receivedSlices wUpBundle 0 Side.a (flitCodes (List.replicate 144 0))) }
      : Flit)).cls ≠ 0 ∨ flitType
      (({ bytes := arrivedBytes (sideWidth (slicesHeard 0 Side.a (flitCodes (List.replicate 144 0)) wUpBundle) 0 Side.a) (receivedSlices wUpBundle 0 Side.a (flitCodes (List.replicate 144 0))), cls := if mapMixed (slicesHeard 0 Side.a (flitCodes (List.replicate 144 0)) wUpBundle) 0 Side.a then 1 else arrivalClass (sideWidth (slicesHeard 0 Side.a (flitCodes (List.replicate 144 0)) wUpBundle) 0 Side.a) (receivedSlices wUpBundle 0 Side.a (flitCodes (List.replicate 144 0))) }
      : Flit)).bytes ≠ 15) ∧ modeOf (if
      (({ bytes := arrivedBytes (sideWidth (slicesHeard 0 Side.a (flitCodes (List.replicate 144 0)) wUpBundle) 0 Side.a) (receivedSlices wUpBundle 0 Side.a (flitCodes (List.replicate 144 0))), cls := if mapMixed (slicesHeard 0 Side.a (flitCodes (List.replicate 144 0)) wUpBundle) 0 Side.a then 1 else arrivalClass (sideWidth (slicesHeard 0 Side.a (flitCodes (List.replicate 144 0)) wUpBundle) 0 Side.a) (receivedSlices wUpBundle 0 Side.a (flitCodes (List.replicate 144 0))) }
      : Flit)).cls = 0 && flitWord
      (({ bytes := arrivedBytes (sideWidth (slicesHeard 0 Side.a (flitCodes (List.replicate 144 0)) wUpBundle) 0 Side.a) (receivedSlices wUpBundle 0 Side.a (flitCodes (List.replicate 144 0))), cls := if mapMixed (slicesHeard 0 Side.a (flitCodes (List.replicate 144 0)) wUpBundle) 0 Side.a then 1 else arrivalClass (sideWidth (slicesHeard 0 Side.a (flitCodes (List.replicate 144 0)) wUpBundle) 0 Side.a) (receivedSlices wUpBundle 0 Side.a (flitCodes (List.replicate 144 0))) }
      : Flit)).bytes ≠ 0 then (countClass 0 Side.a.dirIn.idx (arrivalClass (sideWidth (slicesHeard 0 Side.a
      (flitCodes (List.replicate 144 0)) wUpBundle) 0 Side.a) (receivedSlices wUpBundle 0 Side.a (flitCodes
      (List.replicate 144 0)))) (slicesHeard 0 Side.a (flitCodes (List.replicate 144 0)) wUpBundle)).count (R.LLW_NZ
      0 Side.a.dirIn.idx) else (countClass 0 Side.a.dirIn.idx (arrivalClass (sideWidth (slicesHeard 0 Side.a
      (flitCodes (List.replicate 144 0)) wUpBundle) 0 Side.a) (receivedSlices wUpBundle 0 Side.a (flitCodes
      (List.replicate 144 0)))) (slicesHeard 0 Side.a (flitCodes (List.replicate 144 0)) wUpBundle))) 0 = mBundle) ∧
    (0 < linksOf wUpTrunk2 ∧ sideLive wUpTrunk2 0 Side.a = true ∧ takesFlits wUpTrunk2 0 Side.a = true ∧ flitStarts
      (receivedSlices wUpTrunk2 0 Side.a (flitCodes (List.replicate 144 0))) = true ∧ isTrunkSide (countClass 0
      Side.a.dirIn.idx (arrivalClass (sideWidth (slicesHeard 0 Side.a (flitCodes (List.replicate 144 0)) wUpTrunk2)
      0 Side.a) (receivedSlices wUpTrunk2 0 Side.a (flitCodes (List.replicate 144 0)))) (slicesHeard 0 Side.a
      (flitCodes (List.replicate 144 0)) wUpTrunk2)) 0 Side.a = false ∧
      ((({ bytes := arrivedBytes (sideWidth (slicesHeard 0 Side.a (flitCodes (List.replicate 144 0)) wUpTrunk2) 0 Side.a) (receivedSlices wUpTrunk2 0 Side.a (flitCodes (List.replicate 144 0))), cls := if mapMixed (slicesHeard 0 Side.a (flitCodes (List.replicate 144 0)) wUpTrunk2) 0 Side.a then 1 else arrivalClass (sideWidth (slicesHeard 0 Side.a (flitCodes (List.replicate 144 0)) wUpTrunk2) 0 Side.a) (receivedSlices wUpTrunk2 0 Side.a (flitCodes (List.replicate 144 0))) }
      : Flit)).cls ≠ 0 ∨ flitType
      (({ bytes := arrivedBytes (sideWidth (slicesHeard 0 Side.a (flitCodes (List.replicate 144 0)) wUpTrunk2) 0 Side.a) (receivedSlices wUpTrunk2 0 Side.a (flitCodes (List.replicate 144 0))), cls := if mapMixed (slicesHeard 0 Side.a (flitCodes (List.replicate 144 0)) wUpTrunk2) 0 Side.a then 1 else arrivalClass (sideWidth (slicesHeard 0 Side.a (flitCodes (List.replicate 144 0)) wUpTrunk2) 0 Side.a) (receivedSlices wUpTrunk2 0 Side.a (flitCodes (List.replicate 144 0))) }
      : Flit)).bytes ≠ 15) ∧ isTrunkMode (modeOf (if
      (({ bytes := arrivedBytes (sideWidth (slicesHeard 0 Side.a (flitCodes (List.replicate 144 0)) wUpTrunk2) 0 Side.a) (receivedSlices wUpTrunk2 0 Side.a (flitCodes (List.replicate 144 0))), cls := if mapMixed (slicesHeard 0 Side.a (flitCodes (List.replicate 144 0)) wUpTrunk2) 0 Side.a then 1 else arrivalClass (sideWidth (slicesHeard 0 Side.a (flitCodes (List.replicate 144 0)) wUpTrunk2) 0 Side.a) (receivedSlices wUpTrunk2 0 Side.a (flitCodes (List.replicate 144 0))) }
      : Flit)).cls = 0 && flitWord
      (({ bytes := arrivedBytes (sideWidth (slicesHeard 0 Side.a (flitCodes (List.replicate 144 0)) wUpTrunk2) 0 Side.a) (receivedSlices wUpTrunk2 0 Side.a (flitCodes (List.replicate 144 0))), cls := if mapMixed (slicesHeard 0 Side.a (flitCodes (List.replicate 144 0)) wUpTrunk2) 0 Side.a then 1 else arrivalClass (sideWidth (slicesHeard 0 Side.a (flitCodes (List.replicate 144 0)) wUpTrunk2) 0 Side.a) (receivedSlices wUpTrunk2 0 Side.a (flitCodes (List.replicate 144 0))) }
      : Flit)).bytes ≠ 0 then (countClass 0 Side.a.dirIn.idx (arrivalClass (sideWidth (slicesHeard 0 Side.a
      (flitCodes (List.replicate 144 0)) wUpTrunk2) 0 Side.a) (receivedSlices wUpTrunk2 0 Side.a (flitCodes
      (List.replicate 144 0)))) (slicesHeard 0 Side.a (flitCodes (List.replicate 144 0)) wUpTrunk2)).count (R.LLW_NZ
      0 Side.a.dirIn.idx) else (countClass 0 Side.a.dirIn.idx (arrivalClass (sideWidth (slicesHeard 0 Side.a
      (flitCodes (List.replicate 144 0)) wUpTrunk2) 0 Side.a) (receivedSlices wUpTrunk2 0 Side.a (flitCodes
      (List.replicate 144 0)))) (slicesHeard 0 Side.a (flitCodes (List.replicate 144 0)) wUpTrunk2))) 0) = true) ∧
    (0 < linksOf wUp ∧ sideLive wUp 0 Side.a = true ∧ takesFlits wUp 0 Side.a = true ∧ flitStarts (receivedSlices
      wUp 0 Side.a (flitCodes (List.replicate 144 0))) = true ∧ isTrunkSide (countClass 0 Side.a.dirIn.idx
      (arrivalClass (sideWidth (slicesHeard 0 Side.a (flitCodes (List.replicate 144 0)) wUp) 0 Side.a)
      (receivedSlices wUp 0 Side.a (flitCodes (List.replicate 144 0)))) (slicesHeard 0 Side.a (flitCodes
      (List.replicate 144 0)) wUp)) 0 Side.a = false ∧
      ((({ bytes := arrivedBytes (sideWidth (slicesHeard 0 Side.a (flitCodes (List.replicate 144 0)) wUp) 0 Side.a) (receivedSlices wUp 0 Side.a (flitCodes (List.replicate 144 0))), cls := if mapMixed (slicesHeard 0 Side.a (flitCodes (List.replicate 144 0)) wUp) 0 Side.a then 1 else arrivalClass (sideWidth (slicesHeard 0 Side.a (flitCodes (List.replicate 144 0)) wUp) 0 Side.a) (receivedSlices wUp 0 Side.a (flitCodes (List.replicate 144 0))) }
      : Flit)).cls ≠ 0 ∨ flitType
      (({ bytes := arrivedBytes (sideWidth (slicesHeard 0 Side.a (flitCodes (List.replicate 144 0)) wUp) 0 Side.a) (receivedSlices wUp 0 Side.a (flitCodes (List.replicate 144 0))), cls := if mapMixed (slicesHeard 0 Side.a (flitCodes (List.replicate 144 0)) wUp) 0 Side.a then 1 else arrivalClass (sideWidth (slicesHeard 0 Side.a (flitCodes (List.replicate 144 0)) wUp) 0 Side.a) (receivedSlices wUp 0 Side.a (flitCodes (List.replicate 144 0))) }
      : Flit)).bytes ≠ 15) ∧ modeOf (if
      (({ bytes := arrivedBytes (sideWidth (slicesHeard 0 Side.a (flitCodes (List.replicate 144 0)) wUp) 0 Side.a) (receivedSlices wUp 0 Side.a (flitCodes (List.replicate 144 0))), cls := if mapMixed (slicesHeard 0 Side.a (flitCodes (List.replicate 144 0)) wUp) 0 Side.a then 1 else arrivalClass (sideWidth (slicesHeard 0 Side.a (flitCodes (List.replicate 144 0)) wUp) 0 Side.a) (receivedSlices wUp 0 Side.a (flitCodes (List.replicate 144 0))) }
      : Flit)).cls = 0 && flitWord
      (({ bytes := arrivedBytes (sideWidth (slicesHeard 0 Side.a (flitCodes (List.replicate 144 0)) wUp) 0 Side.a) (receivedSlices wUp 0 Side.a (flitCodes (List.replicate 144 0))), cls := if mapMixed (slicesHeard 0 Side.a (flitCodes (List.replicate 144 0)) wUp) 0 Side.a then 1 else arrivalClass (sideWidth (slicesHeard 0 Side.a (flitCodes (List.replicate 144 0)) wUp) 0 Side.a) (receivedSlices wUp 0 Side.a (flitCodes (List.replicate 144 0))) }
      : Flit)).bytes ≠ 0 then (countClass 0 Side.a.dirIn.idx (arrivalClass (sideWidth (slicesHeard 0 Side.a
      (flitCodes (List.replicate 144 0)) wUp) 0 Side.a) (receivedSlices wUp 0 Side.a (flitCodes (List.replicate 144
      0)))) (slicesHeard 0 Side.a (flitCodes (List.replicate 144 0)) wUp)).count (R.LLW_NZ 0 Side.a.dirIn.idx) else
      (countClass 0 Side.a.dirIn.idx (arrivalClass (sideWidth (slicesHeard 0 Side.a (flitCodes (List.replicate 144
      0)) wUp) 0 Side.a) (receivedSlices wUp 0 Side.a (flitCodes (List.replicate 144 0)))) (slicesHeard 0 Side.a
      (flitCodes (List.replicate 144 0)) wUp))) 0 ≠ mBundle ∧ isTrunkMode (modeOf (if
      (({ bytes := arrivedBytes (sideWidth (slicesHeard 0 Side.a (flitCodes (List.replicate 144 0)) wUp) 0 Side.a) (receivedSlices wUp 0 Side.a (flitCodes (List.replicate 144 0))), cls := if mapMixed (slicesHeard 0 Side.a (flitCodes (List.replicate 144 0)) wUp) 0 Side.a then 1 else arrivalClass (sideWidth (slicesHeard 0 Side.a (flitCodes (List.replicate 144 0)) wUp) 0 Side.a) (receivedSlices wUp 0 Side.a (flitCodes (List.replicate 144 0))) }
      : Flit)).cls = 0 && flitWord
      (({ bytes := arrivedBytes (sideWidth (slicesHeard 0 Side.a (flitCodes (List.replicate 144 0)) wUp) 0 Side.a) (receivedSlices wUp 0 Side.a (flitCodes (List.replicate 144 0))), cls := if mapMixed (slicesHeard 0 Side.a (flitCodes (List.replicate 144 0)) wUp) 0 Side.a then 1 else arrivalClass (sideWidth (slicesHeard 0 Side.a (flitCodes (List.replicate 144 0)) wUp) 0 Side.a) (receivedSlices wUp 0 Side.a (flitCodes (List.replicate 144 0))) }
      : Flit)).bytes ≠ 0 then (countClass 0 Side.a.dirIn.idx (arrivalClass (sideWidth (slicesHeard 0 Side.a
      (flitCodes (List.replicate 144 0)) wUp) 0 Side.a) (receivedSlices wUp 0 Side.a (flitCodes (List.replicate 144
      0)))) (slicesHeard 0 Side.a (flitCodes (List.replicate 144 0)) wUp)).count (R.LLW_NZ 0 Side.a.dirIn.idx) else
      (countClass 0 Side.a.dirIn.idx (arrivalClass (sideWidth (slicesHeard 0 Side.a (flitCodes (List.replicate 144
      0)) wUp) 0 Side.a) (receivedSlices wUp 0 Side.a (flitCodes (List.replicate 144 0)))) (slicesHeard 0 Side.a
      (flitCodes (List.replicate 144 0)) wUp))) 0) = false) ∧
    (0 < linksOf wUp ∧ sideLive wUp 0 Side.a = true ∧ (takesFlits wUp 0 Side.a && flitStarts (receivedSlices wUp 0
      Side.a ([[]]))) = false) ∧
    (0 < linksOf wUpTrunk ∧ sideLive wUpTrunk 0 Side.a = true ∧ takesFlits wUpTrunk 0 Side.a = true ∧ flitStarts
      (receivedSlices wUpTrunk 0 Side.a (flitCodes ctlBytes)) = true ∧ arrivalClass (sideWidth (slicesHeard 0 Side.a
      (flitCodes ctlBytes) wUpTrunk) 0 Side.a) (receivedSlices wUpTrunk 0 Side.a (flitCodes ctlBytes)) = 0 ∧
      flitType (arrivedBytes (sideWidth (slicesHeard 0 Side.a (flitCodes ctlBytes) wUpTrunk) 0 Side.a)
      (receivedSlices wUpTrunk 0 Side.a (flitCodes ctlBytes))) = 15) ∧
    (0 < linksOf wUpTrunk ∧ sideLive wUpTrunk 0 .a = true ∧ takesFlits wUpTrunk 0 .a = true ∧ flitStarts
      (receivedSlices wUpTrunk 0 .a (flitCodes ctlBytes)) = true) ∧
    (0 < linksOf wUpTrunk ∧ sideLive wUpTrunk 0 Side.a = true ∧ (takesFlits wUpTrunk 0 Side.a && flitStarts
      (receivedSlices wUpTrunk 0 Side.a ([[]]))) = false) ∧
    (0 < linksOf wUpTrunk ∧ sideLive wUpTrunk 0 Side.a = true ∧ takesFlits wUpTrunk 0 Side.a = true ∧ flitStarts
      (receivedSlices wUpTrunk 0 Side.a (flitCodes (List.replicate 144 0))) = true ∧ (arrivalClass (sideWidth
      (slicesHeard 0 Side.a (flitCodes (List.replicate 144 0)) wUpTrunk) 0 Side.a) (receivedSlices wUpTrunk 0 Side.a
      (flitCodes (List.replicate 144 0))) ≠ 0 ∨ flitType (arrivedBytes (sideWidth (slicesHeard 0 Side.a (flitCodes
      (List.replicate 144 0)) wUpTrunk) 0 Side.a) (receivedSlices wUpTrunk 0 Side.a (flitCodes (List.replicate 144
      0)))) ≠ 15)) ∧
    (0 < linksOf wCal ∧ sideLive wCal 0 Side.a = true ∧ setArrives readAck 0 Side.a ackHeard wCal = (some
      (({ seq := 1 } : AckSet)), ((setArrives readAck 0 .a ackHeard wCal).2)) ∧ spanUp ((setArrives readAck 0 .a
      ackHeard wCal).2) 0 Side.a = true ∧ modeOf ((setArrives readAck 0 .a ackHeard wCal).2) 0 = mBundle ∧
      isTrunkSide ((setArrives readAck 0 .a ackHeard wCal).2) 0 Side.a = true) ∧
    (0 < linksOf wLlUp ∧ sideLive wLlUp 0 Side.a = true ∧ setArrives readAck 0 Side.a ackHeard wLlUp = (some
      (({ seq := 1 } : AckSet)), ((setArrives readAck 0 .a ackHeard wLlUp).2)) ∧ spanUp ((setArrives readAck 0 .a
      ackHeard wLlUp).2) 0 Side.a = true ∧ modeOf ((setArrives readAck 0 .a ackHeard wLlUp).2) 0 = mBundle ∧
      isTrunkSide ((setArrives readAck 0 .a ackHeard wLlUp).2) 0 Side.a = false ∧ llOfSpan ((setArrives readAck 0 .a
      ackHeard wLlUp).2) 0 Side.a = some (0, 0)) ∧
    (0 < linksOf wUpBundle ∧ sideLive wUpBundle 0 Side.a = true ∧ setArrives readAck 0 Side.a ackHeard wUpBundle =
      (some (({ seq := 1 } : AckSet)), ((setArrives readAck 0 .a ackHeard wUpBundle).2)) ∧ spanUp ((setArrives
      readAck 0 .a ackHeard wUpBundle).2) 0 Side.a = true ∧ modeOf ((setArrives readAck 0 .a ackHeard wUpBundle).2)
      0 = mBundle ∧ isTrunkSide ((setArrives readAck 0 .a ackHeard wUpBundle).2) 0 Side.a = false ∧ llOfSpan
      ((setArrives readAck 0 .a ackHeard wUpBundle).2) 0 Side.a = none) ∧
    (0 < linksOf wUpTrunk ∧ sideLive wUpTrunk 0 Side.a = true ∧ setArrives readAck 0 Side.a ackHeard wUpTrunk =
      (some (({ seq := 1 } : AckSet)), ((setArrives readAck 0 .a ackHeard wUpTrunk).2)) ∧ spanUp ((setArrives
      readAck 0 .a ackHeard wUpTrunk).2) 0 Side.a = true ∧ modeOf ((setArrives readAck 0 .a ackHeard wUpTrunk).2) 0
      ≠ mBundle ∧ isTrunkMode (modeOf ((setArrives readAck 0 .a ackHeard wUpTrunk).2) 0) = true ∧ isTrunkSide
      ((setArrives readAck 0 .a ackHeard wUpTrunk).2) 0 Side.a = true) ∧
    (0 < linksOf wUpTrunk2 ∧ sideLive wUpTrunk2 0 Side.a = true ∧ setArrives readAck 0 Side.a ackHeard wUpTrunk2 =
      (some (({ seq := 1 } : AckSet)), ((setArrives readAck 0 .a ackHeard wUpTrunk2).2)) ∧ spanUp ((setArrives
      readAck 0 .a ackHeard wUpTrunk2).2) 0 Side.a = true ∧ modeOf ((setArrives readAck 0 .a ackHeard wUpTrunk2).2)
      0 ≠ mBundle ∧ isTrunkMode (modeOf ((setArrives readAck 0 .a ackHeard wUpTrunk2).2) 0) = true ∧ isTrunkSide
      ((setArrives readAck 0 .a ackHeard wUpTrunk2).2) 0 Side.a = false) ∧
    (0 < linksOf wUp ∧ sideLive wUp 0 Side.a = true ∧ setArrives readAck 0 Side.a ackHeard wUp = (some
      (({ seq := 1 } : AckSet)), ((setArrives readAck 0 .a ackHeard wUp).2)) ∧ spanUp ((setArrives readAck 0 .a
      ackHeard wUp).2) 0 Side.a = true ∧ modeOf ((setArrives readAck 0 .a ackHeard wUp).2) 0 ≠ mBundle ∧ isTrunkMode
      (modeOf ((setArrives readAck 0 .a ackHeard wUp).2) 0) = false ∧ sideDie (darnObserve (linkFlow 0
      Side.a.dirOut) (({ seq := 1 } : AckSet)) ((setArrives readAck 0 .a ackHeard wUp).2)) 0 Side.a = sideDie
      (darnObserve (linkFlow 0 Side.a.dirOut) (({ seq := 1 } : AckSet)) ((setArrives readAck 0 .a ackHeard wUp).2))
      0 Side.a.other) ∧
    (0 < linksOf wUpSeam ∧ sideLive wUpSeam 0 Side.a = true ∧ setArrives readAck 0 Side.a ackHeard wUpSeam = (some
      (({ seq := 1 } : AckSet)), ((setArrives readAck 0 .a ackHeard wUpSeam).2)) ∧ spanUp ((setArrives readAck 0 .a
      ackHeard wUpSeam).2) 0 Side.a = true ∧ modeOf ((setArrives readAck 0 .a ackHeard wUpSeam).2) 0 ≠ mBundle ∧
      isTrunkMode (modeOf ((setArrives readAck 0 .a ackHeard wUpSeam).2) 0) = false ∧ sideDie (darnObserve (linkFlow
      0 Side.a.dirOut) (({ seq := 1 } : AckSet)) ((setArrives readAck 0 .a ackHeard wUpSeam).2)) 0 Side.a ≠ sideDie
      (darnObserve (linkFlow 0 Side.a.dirOut) (({ seq := 1 } : AckSet)) ((setArrives readAck 0 .a ackHeard
      wUpSeam).2)) 0 Side.a.other) ∧
    (0 < linksOf wUp ∧ sideLive wUp 0 Side.a = true) ∧
    (0 < linksOf wUp ∧ sideLive wUp 0 Side.a = true ∧ setArrives readEie 0 Side.a eieHeard wUp = (some (()),
      ((setArrives readEie 0 .a eieHeard wUp).2))) ∧
    (0 < linksOf wUp ∧ sideLive wUp 0 Side.a = true ∧ setArrives readSkp 0 Side.a skpHeard wUp = (some 3,
      ((setArrives readSkp 0 .a skpHeard wUp).2)) ∧ 1 ≤ 3 ∧ 3 ≤ 7 ∧ (isSameLanes (modeOf (denseSeen 0 Side.a 100
      (ebTake 0 Side.a 3 16 ((setArrives readSkp 0 .a skpHeard wUp).2)).2) 0) && modeOf (denseSeen 0 Side.a 100
      (ebTake 0 Side.a 3 16 ((setArrives readSkp 0 .a skpHeard wUp).2)).2) 0 ≠ mTransparent && spanUp (denseSeen 0
      Side.a 100 (ebTake 0 Side.a 3 16 ((setArrives readSkp 0 .a skpHeard wUp).2)).2) 0 Side.a && spanUp (denseSeen
      0 Side.a 100 (ebTake 0 Side.a 3 16 ((setArrives readSkp 0 .a skpHeard wUp).2)).2) 0 Side.a.other) = true) ∧
    (0 < linksOf wUpBundle ∧ sideLive wUpBundle 0 Side.a = true ∧ setArrives readSkp 0 Side.a skpHeard wUpBundle =
      (some 3, ((setArrives readSkp 0 .a skpHeard wUpBundle).2)) ∧ 1 ≤ 3 ∧ 3 ≤ 7 ∧ (isSameLanes (modeOf (denseSeen 0
      Side.a 100 (ebTake 0 Side.a 3 16 ((setArrives readSkp 0 .a skpHeard wUpBundle).2)).2) 0) && modeOf (denseSeen
      0 Side.a 100 (ebTake 0 Side.a 3 16 ((setArrives readSkp 0 .a skpHeard wUpBundle).2)).2) 0 ≠ mTransparent &&
      spanUp (denseSeen 0 Side.a 100 (ebTake 0 Side.a 3 16 ((setArrives readSkp 0 .a skpHeard wUpBundle).2)).2) 0
      Side.a && spanUp (denseSeen 0 Side.a 100 (ebTake 0 Side.a 3 16 ((setArrives readSkp 0 .a skpHeard
      wUpBundle).2)).2) 0 Side.a.other) = false) := by
  refine ⟨?_, ?_, ?_, ?_, ?_, ?_, ?_, ?_, ?_, ?_, ?_, ?_, ?_, ?_, ?_, ?_, ?_, ?_, ?_, ?_, ?_, ?_, ?_, ?_, ?_⟩ <;> decide +kernel

/-- The hypotheses of SendingAndBuffers can be met. -/
theorem witness_sendingAndBuffers :
    ((leaveSend 0 .b wUpSq) = leaveSend 0 Side.b wUpSq ∧ (itemOver wUpSq) = itemEnds 0 Side.b ((leaveSend 0 .b
      wUpSq).side 0 Side.b).cur (itemDone 0 Side.b (leaveSend 0 .b wUpSq)) ∧ 0 < linksOf wUpSq ∧ sideHeld wUpSq 0
      Side.b = false ∧ sideUsed (leaveSend 0 .b wUpSq) 0 Side.b = true ∧ squelched (itemOver wUpSq) 0 Side.b = true
      ∧ spanUp (txResume 0 Side.b (itemOver wUpSq)) 0 Side.b = true) ∧
    (0 < linksOf (sideWith (fun x => { x with eieDue := true }) wUp) ∧ sideHeld (sideWith (fun x =>
      { x with eieDue := true }) wUp) 0 Side.b = false ∧ sideUsed (leaveSend 0 Side.b (sideWith (fun x =>
      { x with eieDue := true }) wUp)) 0 Side.b = true ∧ (squelched (itemEnds 0 Side.b ((leaveSend 0 Side.b
      (sideWith (fun x => { x with eieDue := true }) wUp)).side 0 Side.b).cur (itemDone 0 Side.b (leaveSend 0 Side.b
      (sideWith (fun x => { x with eieDue := true }) wUp)))) 0 Side.b && spanUp ((if squelched (itemEnds 0 Side.b
      ((leaveSend 0 Side.b (sideWith (fun x => { x with eieDue := true }) wUp)).side 0 Side.b).cur (itemDone 0
      Side.b (leaveSend 0 Side.b (sideWith (fun x => { x with eieDue := true }) wUp)))) 0 Side.b then txResume 0
      Side.b (itemEnds 0 Side.b ((leaveSend 0 Side.b (sideWith (fun x => { x with eieDue := true }) wUp)).side 0
      Side.b).cur (itemDone 0 Side.b (leaveSend 0 Side.b (sideWith (fun x => { x with eieDue := true }) wUp)))) else
      (itemEnds 0 Side.b ((leaveSend 0 Side.b (sideWith (fun x => { x with eieDue := true }) wUp)).side 0
      Side.b).cur (itemDone 0 Side.b (leaveSend 0 Side.b (sideWith (fun x => { x with eieDue := true }) wUp)))))) 0
      Side.b) = false ∧ (((if squelched (itemEnds 0 Side.b ((leaveSend 0 Side.b (sideWith (fun x =>
      { x with eieDue := true }) wUp)).side 0 Side.b).cur (itemDone 0 Side.b (leaveSend 0 Side.b (sideWith (fun x =>
      { x with eieDue := true }) wUp)))) 0 Side.b then txResume 0 Side.b (itemEnds 0 Side.b ((leaveSend 0 Side.b
      (sideWith (fun x => { x with eieDue := true }) wUp)).side 0 Side.b).cur (itemDone 0 Side.b (leaveSend 0 Side.b
      (sideWith (fun x => { x with eieDue := true }) wUp)))) else (itemEnds 0 Side.b ((leaveSend 0 Side.b (sideWith
      (fun x => { x with eieDue := true }) wUp)).side 0 Side.b).cur (itemDone 0 Side.b (leaveSend 0 Side.b (sideWith
      (fun x => { x with eieDue := true }) wUp)))))).side 0 Side.b).eieDue = true) ∧
    (0 < linksOf (sideWith (fun x => { x with skpFwd := [{ n := 3 }] }) wUp) ∧ sideHeld (sideWith (fun x =>
      { x with skpFwd := [{ n := 3 }] }) wUp) 0 Side.b = false ∧ sideUsed (leaveSend 0 Side.b (sideWith (fun x =>
      { x with skpFwd := [{ n := 3 }] }) wUp)) 0 Side.b = true ∧ (squelched (itemEnds 0 Side.b ((leaveSend 0 Side.b
      (sideWith (fun x => { x with skpFwd := [{ n := 3 }] }) wUp)).side 0 Side.b).cur (itemDone 0 Side.b (leaveSend
      0 Side.b (sideWith (fun x => { x with skpFwd := [{ n := 3 }] }) wUp)))) 0 Side.b && spanUp ((if squelched
      (itemEnds 0 Side.b ((leaveSend 0 Side.b (sideWith (fun x => { x with skpFwd := [{ n := 3 }] }) wUp)).side 0
      Side.b).cur (itemDone 0 Side.b (leaveSend 0 Side.b (sideWith (fun x => { x with skpFwd := [{ n := 3 }] })
      wUp)))) 0 Side.b then txResume 0 Side.b (itemEnds 0 Side.b ((leaveSend 0 Side.b (sideWith (fun x =>
      { x with skpFwd := [{ n := 3 }] }) wUp)).side 0 Side.b).cur (itemDone 0 Side.b (leaveSend 0 Side.b (sideWith
      (fun x => { x with skpFwd := [{ n := 3 }] }) wUp)))) else (itemEnds 0 Side.b ((leaveSend 0 Side.b (sideWith
      (fun x => { x with skpFwd := [{ n := 3 }] }) wUp)).side 0 Side.b).cur (itemDone 0 Side.b (leaveSend 0 Side.b
      (sideWith (fun x => { x with skpFwd := [{ n := 3 }] }) wUp)))))) 0 Side.b) = false ∧ (((if squelched (itemEnds
      0 Side.b ((leaveSend 0 Side.b (sideWith (fun x => { x with skpFwd := [{ n := 3 }] }) wUp)).side 0 Side.b).cur
      (itemDone 0 Side.b (leaveSend 0 Side.b (sideWith (fun x => { x with skpFwd := [{ n := 3 }] }) wUp)))) 0 Side.b
      then txResume 0 Side.b (itemEnds 0 Side.b ((leaveSend 0 Side.b (sideWith (fun x =>
      { x with skpFwd := [{ n := 3 }] }) wUp)).side 0 Side.b).cur (itemDone 0 Side.b (leaveSend 0 Side.b (sideWith
      (fun x => { x with skpFwd := [{ n := 3 }] }) wUp)))) else (itemEnds 0 Side.b ((leaveSend 0 Side.b (sideWith
      (fun x => { x with skpFwd := [{ n := 3 }] }) wUp)).side 0 Side.b).cur (itemDone 0 Side.b (leaveSend 0 Side.b
      (sideWith (fun x => { x with skpFwd := [{ n := 3 }] }) wUp)))))).side 0 Side.b).eieDue = false ∧ (spanUp ((if
      squelched (itemEnds 0 Side.b ((leaveSend 0 Side.b (sideWith (fun x => { x with skpFwd := [{ n := 3 }] })
      wUp)).side 0 Side.b).cur (itemDone 0 Side.b (leaveSend 0 Side.b (sideWith (fun x =>
      { x with skpFwd := [{ n := 3 }] }) wUp)))) 0 Side.b then txResume 0 Side.b (itemEnds 0 Side.b ((leaveSend 0
      Side.b (sideWith (fun x => { x with skpFwd := [{ n := 3 }] }) wUp)).side 0 Side.b).cur (itemDone 0 Side.b
      (leaveSend 0 Side.b (sideWith (fun x => { x with skpFwd := [{ n := 3 }] }) wUp)))) else (itemEnds 0 Side.b
      ((leaveSend 0 Side.b (sideWith (fun x => { x with skpFwd := [{ n := 3 }] }) wUp)).side 0 Side.b).cur (itemDone
      0 Side.b (leaveSend 0 Side.b (sideWith (fun x => { x with skpFwd := [{ n := 3 }] }) wUp)))))) 0 Side.b ||
      sendsTrn (spanState ((if squelched (itemEnds 0 Side.b ((leaveSend 0 Side.b (sideWith (fun x =>
      { x with skpFwd := [{ n := 3 }] }) wUp)).side 0 Side.b).cur (itemDone 0 Side.b (leaveSend 0 Side.b (sideWith
      (fun x => { x with skpFwd := [{ n := 3 }] }) wUp)))) 0 Side.b then txResume 0 Side.b (itemEnds 0 Side.b
      ((leaveSend 0 Side.b (sideWith (fun x => { x with skpFwd := [{ n := 3 }] }) wUp)).side 0 Side.b).cur (itemDone
      0 Side.b (leaveSend 0 Side.b (sideWith (fun x => { x with skpFwd := [{ n := 3 }] }) wUp)))) else (itemEnds 0
      Side.b ((leaveSend 0 Side.b (sideWith (fun x => { x with skpFwd := [{ n := 3 }] }) wUp)).side 0 Side.b).cur
      (itemDone 0 Side.b (leaveSend 0 Side.b (sideWith (fun x => { x with skpFwd := [{ n := 3 }] }) wUp)))))) 0
      Side.b)) = true ∧ skpDue ((if squelched (itemEnds 0 Side.b ((leaveSend 0 Side.b (sideWith (fun x =>
      { x with skpFwd := [{ n := 3 }] }) wUp)).side 0 Side.b).cur (itemDone 0 Side.b (leaveSend 0 Side.b (sideWith
      (fun x => { x with skpFwd := [{ n := 3 }] }) wUp)))) 0 Side.b then txResume 0 Side.b (itemEnds 0 Side.b
      ((leaveSend 0 Side.b (sideWith (fun x => { x with skpFwd := [{ n := 3 }] }) wUp)).side 0 Side.b).cur (itemDone
      0 Side.b (leaveSend 0 Side.b (sideWith (fun x => { x with skpFwd := [{ n := 3 }] }) wUp)))) else (itemEnds 0
      Side.b ((leaveSend 0 Side.b (sideWith (fun x => { x with skpFwd := [{ n := 3 }] }) wUp)).side 0 Side.b).cur
      (itemDone 0 Side.b (leaveSend 0 Side.b (sideWith (fun x => { x with skpFwd := [{ n := 3 }] }) wUp)))))) 0
      Side.b = true ∧ skpPlace ((if squelched (itemEnds 0 Side.b ((leaveSend 0 Side.b (sideWith (fun x =>
      { x with skpFwd := [{ n := 3 }] }) wUp)).side 0 Side.b).cur (itemDone 0 Side.b (leaveSend 0 Side.b (sideWith
      (fun x => { x with skpFwd := [{ n := 3 }] }) wUp)))) 0 Side.b then txResume 0 Side.b (itemEnds 0 Side.b
      ((leaveSend 0 Side.b (sideWith (fun x => { x with skpFwd := [{ n := 3 }] }) wUp)).side 0 Side.b).cur (itemDone
      0 Side.b (leaveSend 0 Side.b (sideWith (fun x => { x with skpFwd := [{ n := 3 }] }) wUp)))) else (itemEnds 0
      Side.b ((leaveSend 0 Side.b (sideWith (fun x => { x with skpFwd := [{ n := 3 }] }) wUp)).side 0 Side.b).cur
      (itemDone 0 Side.b (leaveSend 0 Side.b (sideWith (fun x => { x with skpFwd := [{ n := 3 }] }) wUp)))))) 0
      Side.b = true) ∧
    (0 < linksOf (sideWith (fun x => { x with skpCount := 100000 }) wUp) ∧ sideHeld (sideWith (fun x =>
      { x with skpCount := 100000 }) wUp) 0 Side.b = false ∧ sideUsed (leaveSend 0 Side.b (sideWith (fun x =>
      { x with skpCount := 100000 }) wUp)) 0 Side.b = true ∧ (squelched (itemEnds 0 Side.b ((leaveSend 0 Side.b
      (sideWith (fun x => { x with skpCount := 100000 }) wUp)).side 0 Side.b).cur (itemDone 0 Side.b (leaveSend 0
      Side.b (sideWith (fun x => { x with skpCount := 100000 }) wUp)))) 0 Side.b && spanUp ((if squelched (itemEnds
      0 Side.b ((leaveSend 0 Side.b (sideWith (fun x => { x with skpCount := 100000 }) wUp)).side 0 Side.b).cur
      (itemDone 0 Side.b (leaveSend 0 Side.b (sideWith (fun x => { x with skpCount := 100000 }) wUp)))) 0 Side.b
      then txResume 0 Side.b (itemEnds 0 Side.b ((leaveSend 0 Side.b (sideWith (fun x =>
      { x with skpCount := 100000 }) wUp)).side 0 Side.b).cur (itemDone 0 Side.b (leaveSend 0 Side.b (sideWith (fun
      x => { x with skpCount := 100000 }) wUp)))) else (itemEnds 0 Side.b ((leaveSend 0 Side.b (sideWith (fun x =>
      { x with skpCount := 100000 }) wUp)).side 0 Side.b).cur (itemDone 0 Side.b (leaveSend 0 Side.b (sideWith (fun
      x => { x with skpCount := 100000 }) wUp)))))) 0 Side.b) = false ∧ (((if squelched (itemEnds 0 Side.b
      ((leaveSend 0 Side.b (sideWith (fun x => { x with skpCount := 100000 }) wUp)).side 0 Side.b).cur (itemDone 0
      Side.b (leaveSend 0 Side.b (sideWith (fun x => { x with skpCount := 100000 }) wUp)))) 0 Side.b then txResume 0
      Side.b (itemEnds 0 Side.b ((leaveSend 0 Side.b (sideWith (fun x => { x with skpCount := 100000 }) wUp)).side 0
      Side.b).cur (itemDone 0 Side.b (leaveSend 0 Side.b (sideWith (fun x => { x with skpCount := 100000 }) wUp))))
      else (itemEnds 0 Side.b ((leaveSend 0 Side.b (sideWith (fun x => { x with skpCount := 100000 }) wUp)).side 0
      Side.b).cur (itemDone 0 Side.b (leaveSend 0 Side.b (sideWith (fun x => { x with skpCount := 100000 })
      wUp)))))).side 0 Side.b).eieDue = false ∧ (spanUp ((if squelched (itemEnds 0 Side.b ((leaveSend 0 Side.b
      (sideWith (fun x => { x with skpCount := 100000 }) wUp)).side 0 Side.b).cur (itemDone 0 Side.b (leaveSend 0
      Side.b (sideWith (fun x => { x with skpCount := 100000 }) wUp)))) 0 Side.b then txResume 0 Side.b (itemEnds 0
      Side.b ((leaveSend 0 Side.b (sideWith (fun x => { x with skpCount := 100000 }) wUp)).side 0 Side.b).cur
      (itemDone 0 Side.b (leaveSend 0 Side.b (sideWith (fun x => { x with skpCount := 100000 }) wUp)))) else
      (itemEnds 0 Side.b ((leaveSend 0 Side.b (sideWith (fun x => { x with skpCount := 100000 }) wUp)).side 0
      Side.b).cur (itemDone 0 Side.b (leaveSend 0 Side.b (sideWith (fun x => { x with skpCount := 100000 })
      wUp)))))) 0 Side.b || sendsTrn (spanState ((if squelched (itemEnds 0 Side.b ((leaveSend 0 Side.b (sideWith
      (fun x => { x with skpCount := 100000 }) wUp)).side 0 Side.b).cur (itemDone 0 Side.b (leaveSend 0 Side.b
      (sideWith (fun x => { x with skpCount := 100000 }) wUp)))) 0 Side.b then txResume 0 Side.b (itemEnds 0 Side.b
      ((leaveSend 0 Side.b (sideWith (fun x => { x with skpCount := 100000 }) wUp)).side 0 Side.b).cur (itemDone 0
      Side.b (leaveSend 0 Side.b (sideWith (fun x => { x with skpCount := 100000 }) wUp)))) else (itemEnds 0 Side.b
      ((leaveSend 0 Side.b (sideWith (fun x => { x with skpCount := 100000 }) wUp)).side 0 Side.b).cur (itemDone 0
      Side.b (leaveSend 0 Side.b (sideWith (fun x => { x with skpCount := 100000 }) wUp)))))) 0 Side.b)) = true ∧
      skpDue ((if squelched (itemEnds 0 Side.b ((leaveSend 0 Side.b (sideWith (fun x =>
      { x with skpCount := 100000 }) wUp)).side 0 Side.b).cur (itemDone 0 Side.b (leaveSend 0 Side.b (sideWith (fun
      x => { x with skpCount := 100000 }) wUp)))) 0 Side.b then txResume 0 Side.b (itemEnds 0 Side.b ((leaveSend 0
      Side.b (sideWith (fun x => { x with skpCount := 100000 }) wUp)).side 0 Side.b).cur (itemDone 0 Side.b
      (leaveSend 0 Side.b (sideWith (fun x => { x with skpCount := 100000 }) wUp)))) else (itemEnds 0 Side.b
      ((leaveSend 0 Side.b (sideWith (fun x => { x with skpCount := 100000 }) wUp)).side 0 Side.b).cur (itemDone 0
      Side.b (leaveSend 0 Side.b (sideWith (fun x => { x with skpCount := 100000 }) wUp)))))) 0 Side.b = true ∧
      skpPlace ((if squelched (itemEnds 0 Side.b ((leaveSend 0 Side.b (sideWith (fun x =>
      { x with skpCount := 100000 }) wUp)).side 0 Side.b).cur (itemDone 0 Side.b (leaveSend 0 Side.b (sideWith (fun
      x => { x with skpCount := 100000 }) wUp)))) 0 Side.b then txResume 0 Side.b (itemEnds 0 Side.b ((leaveSend 0
      Side.b (sideWith (fun x => { x with skpCount := 100000 }) wUp)).side 0 Side.b).cur (itemDone 0 Side.b
      (leaveSend 0 Side.b (sideWith (fun x => { x with skpCount := 100000 }) wUp)))) else (itemEnds 0 Side.b
      ((leaveSend 0 Side.b (sideWith (fun x => { x with skpCount := 100000 }) wUp)).side 0 Side.b).cur (itemDone 0
      Side.b (leaveSend 0 Side.b (sideWith (fun x => { x with skpCount := 100000 }) wUp)))))) 0 Side.b = false) ∧
    (0 < linksOf (sideWith (fun x => { x with trnDue := [trnOf 0] }) wUp) ∧ sideHeld (sideWith (fun x =>
      { x with trnDue := [trnOf 0] }) wUp) 0 Side.b = false ∧ sideUsed (leaveSend 0 Side.b (sideWith (fun x =>
      { x with trnDue := [trnOf 0] }) wUp)) 0 Side.b = true ∧ (squelched (itemEnds 0 Side.b ((leaveSend 0 Side.b
      (sideWith (fun x => { x with trnDue := [trnOf 0] }) wUp)).side 0 Side.b).cur (itemDone 0 Side.b (leaveSend 0
      Side.b (sideWith (fun x => { x with trnDue := [trnOf 0] }) wUp)))) 0 Side.b && spanUp ((if squelched (itemEnds
      0 Side.b ((leaveSend 0 Side.b (sideWith (fun x => { x with trnDue := [trnOf 0] }) wUp)).side 0 Side.b).cur
      (itemDone 0 Side.b (leaveSend 0 Side.b (sideWith (fun x => { x with trnDue := [trnOf 0] }) wUp)))) 0 Side.b
      then txResume 0 Side.b (itemEnds 0 Side.b ((leaveSend 0 Side.b (sideWith (fun x =>
      { x with trnDue := [trnOf 0] }) wUp)).side 0 Side.b).cur (itemDone 0 Side.b (leaveSend 0 Side.b (sideWith (fun
      x => { x with trnDue := [trnOf 0] }) wUp)))) else (itemEnds 0 Side.b ((leaveSend 0 Side.b (sideWith (fun x =>
      { x with trnDue := [trnOf 0] }) wUp)).side 0 Side.b).cur (itemDone 0 Side.b (leaveSend 0 Side.b (sideWith (fun
      x => { x with trnDue := [trnOf 0] }) wUp)))))) 0 Side.b) = false ∧ (((if squelched (itemEnds 0 Side.b
      ((leaveSend 0 Side.b (sideWith (fun x => { x with trnDue := [trnOf 0] }) wUp)).side 0 Side.b).cur (itemDone 0
      Side.b (leaveSend 0 Side.b (sideWith (fun x => { x with trnDue := [trnOf 0] }) wUp)))) 0 Side.b then txResume
      0 Side.b (itemEnds 0 Side.b ((leaveSend 0 Side.b (sideWith (fun x => { x with trnDue := [trnOf 0] })
      wUp)).side 0 Side.b).cur (itemDone 0 Side.b (leaveSend 0 Side.b (sideWith (fun x =>
      { x with trnDue := [trnOf 0] }) wUp)))) else (itemEnds 0 Side.b ((leaveSend 0 Side.b (sideWith (fun x =>
      { x with trnDue := [trnOf 0] }) wUp)).side 0 Side.b).cur (itemDone 0 Side.b (leaveSend 0 Side.b (sideWith (fun
      x => { x with trnDue := [trnOf 0] }) wUp)))))).side 0 Side.b).eieDue = false ∧ (spanUp ((if squelched
      (itemEnds 0 Side.b ((leaveSend 0 Side.b (sideWith (fun x => { x with trnDue := [trnOf 0] }) wUp)).side 0
      Side.b).cur (itemDone 0 Side.b (leaveSend 0 Side.b (sideWith (fun x => { x with trnDue := [trnOf 0] }) wUp))))
      0 Side.b then txResume 0 Side.b (itemEnds 0 Side.b ((leaveSend 0 Side.b (sideWith (fun x =>
      { x with trnDue := [trnOf 0] }) wUp)).side 0 Side.b).cur (itemDone 0 Side.b (leaveSend 0 Side.b (sideWith (fun
      x => { x with trnDue := [trnOf 0] }) wUp)))) else (itemEnds 0 Side.b ((leaveSend 0 Side.b (sideWith (fun x =>
      { x with trnDue := [trnOf 0] }) wUp)).side 0 Side.b).cur (itemDone 0 Side.b (leaveSend 0 Side.b (sideWith (fun
      x => { x with trnDue := [trnOf 0] }) wUp)))))) 0 Side.b || sendsTrn (spanState ((if squelched (itemEnds 0
      Side.b ((leaveSend 0 Side.b (sideWith (fun x => { x with trnDue := [trnOf 0] }) wUp)).side 0 Side.b).cur
      (itemDone 0 Side.b (leaveSend 0 Side.b (sideWith (fun x => { x with trnDue := [trnOf 0] }) wUp)))) 0 Side.b
      then txResume 0 Side.b (itemEnds 0 Side.b ((leaveSend 0 Side.b (sideWith (fun x =>
      { x with trnDue := [trnOf 0] }) wUp)).side 0 Side.b).cur (itemDone 0 Side.b (leaveSend 0 Side.b (sideWith (fun
      x => { x with trnDue := [trnOf 0] }) wUp)))) else (itemEnds 0 Side.b ((leaveSend 0 Side.b (sideWith (fun x =>
      { x with trnDue := [trnOf 0] }) wUp)).side 0 Side.b).cur (itemDone 0 Side.b (leaveSend 0 Side.b (sideWith (fun
      x => { x with trnDue := [trnOf 0] }) wUp)))))) 0 Side.b)) = true ∧ skpDue ((if squelched (itemEnds 0 Side.b
      ((leaveSend 0 Side.b (sideWith (fun x => { x with trnDue := [trnOf 0] }) wUp)).side 0 Side.b).cur (itemDone 0
      Side.b (leaveSend 0 Side.b (sideWith (fun x => { x with trnDue := [trnOf 0] }) wUp)))) 0 Side.b then txResume
      0 Side.b (itemEnds 0 Side.b ((leaveSend 0 Side.b (sideWith (fun x => { x with trnDue := [trnOf 0] })
      wUp)).side 0 Side.b).cur (itemDone 0 Side.b (leaveSend 0 Side.b (sideWith (fun x =>
      { x with trnDue := [trnOf 0] }) wUp)))) else (itemEnds 0 Side.b ((leaveSend 0 Side.b (sideWith (fun x =>
      { x with trnDue := [trnOf 0] }) wUp)).side 0 Side.b).cur (itemDone 0 Side.b (leaveSend 0 Side.b (sideWith (fun
      x => { x with trnDue := [trnOf 0] }) wUp)))))) 0 Side.b = false ∧ (((if squelched (itemEnds 0 Side.b
      ((leaveSend 0 Side.b (sideWith (fun x => { x with trnDue := [trnOf 0] }) wUp)).side 0 Side.b).cur (itemDone 0
      Side.b (leaveSend 0 Side.b (sideWith (fun x => { x with trnDue := [trnOf 0] }) wUp)))) 0 Side.b then txResume
      0 Side.b (itemEnds 0 Side.b ((leaveSend 0 Side.b (sideWith (fun x => { x with trnDue := [trnOf 0] })
      wUp)).side 0 Side.b).cur (itemDone 0 Side.b (leaveSend 0 Side.b (sideWith (fun x =>
      { x with trnDue := [trnOf 0] }) wUp)))) else (itemEnds 0 Side.b ((leaveSend 0 Side.b (sideWith (fun x =>
      { x with trnDue := [trnOf 0] }) wUp)).side 0 Side.b).cur (itemDone 0 Side.b (leaveSend 0 Side.b (sideWith (fun
      x => { x with trnDue := [trnOf 0] }) wUp)))))).side 0 Side.b).trnDue = (trnOf 0) :: ([])) ∧
    (0 < linksOf (sideWith id wAcquire) ∧ sideHeld (sideWith id wAcquire) 0 Side.b = false ∧ sideUsed (leaveSend 0
      Side.b (sideWith id wAcquire)) 0 Side.b = true ∧ (squelched (itemEnds 0 Side.b ((leaveSend 0 Side.b (sideWith
      id wAcquire)).side 0 Side.b).cur (itemDone 0 Side.b (leaveSend 0 Side.b (sideWith id wAcquire)))) 0 Side.b &&
      spanUp ((if squelched (itemEnds 0 Side.b ((leaveSend 0 Side.b (sideWith id wAcquire)).side 0 Side.b).cur
      (itemDone 0 Side.b (leaveSend 0 Side.b (sideWith id wAcquire)))) 0 Side.b then txResume 0 Side.b (itemEnds 0
      Side.b ((leaveSend 0 Side.b (sideWith id wAcquire)).side 0 Side.b).cur (itemDone 0 Side.b (leaveSend 0 Side.b
      (sideWith id wAcquire)))) else (itemEnds 0 Side.b ((leaveSend 0 Side.b (sideWith id wAcquire)).side 0
      Side.b).cur (itemDone 0 Side.b (leaveSend 0 Side.b (sideWith id wAcquire)))))) 0 Side.b) = false ∧ (((if
      squelched (itemEnds 0 Side.b ((leaveSend 0 Side.b (sideWith id wAcquire)).side 0 Side.b).cur (itemDone 0
      Side.b (leaveSend 0 Side.b (sideWith id wAcquire)))) 0 Side.b then txResume 0 Side.b (itemEnds 0 Side.b
      ((leaveSend 0 Side.b (sideWith id wAcquire)).side 0 Side.b).cur (itemDone 0 Side.b (leaveSend 0 Side.b
      (sideWith id wAcquire)))) else (itemEnds 0 Side.b ((leaveSend 0 Side.b (sideWith id wAcquire)).side 0
      Side.b).cur (itemDone 0 Side.b (leaveSend 0 Side.b (sideWith id wAcquire)))))).side 0 Side.b).eieDue = false ∧
      (spanUp ((if squelched (itemEnds 0 Side.b ((leaveSend 0 Side.b (sideWith id wAcquire)).side 0 Side.b).cur
      (itemDone 0 Side.b (leaveSend 0 Side.b (sideWith id wAcquire)))) 0 Side.b then txResume 0 Side.b (itemEnds 0
      Side.b ((leaveSend 0 Side.b (sideWith id wAcquire)).side 0 Side.b).cur (itemDone 0 Side.b (leaveSend 0 Side.b
      (sideWith id wAcquire)))) else (itemEnds 0 Side.b ((leaveSend 0 Side.b (sideWith id wAcquire)).side 0
      Side.b).cur (itemDone 0 Side.b (leaveSend 0 Side.b (sideWith id wAcquire)))))) 0 Side.b || sendsTrn (spanState
      ((if squelched (itemEnds 0 Side.b ((leaveSend 0 Side.b (sideWith id wAcquire)).side 0 Side.b).cur (itemDone 0
      Side.b (leaveSend 0 Side.b (sideWith id wAcquire)))) 0 Side.b then txResume 0 Side.b (itemEnds 0 Side.b
      ((leaveSend 0 Side.b (sideWith id wAcquire)).side 0 Side.b).cur (itemDone 0 Side.b (leaveSend 0 Side.b
      (sideWith id wAcquire)))) else (itemEnds 0 Side.b ((leaveSend 0 Side.b (sideWith id wAcquire)).side 0
      Side.b).cur (itemDone 0 Side.b (leaveSend 0 Side.b (sideWith id wAcquire)))))) 0 Side.b)) = true ∧ skpDue ((if
      squelched (itemEnds 0 Side.b ((leaveSend 0 Side.b (sideWith id wAcquire)).side 0 Side.b).cur (itemDone 0
      Side.b (leaveSend 0 Side.b (sideWith id wAcquire)))) 0 Side.b then txResume 0 Side.b (itemEnds 0 Side.b
      ((leaveSend 0 Side.b (sideWith id wAcquire)).side 0 Side.b).cur (itemDone 0 Side.b (leaveSend 0 Side.b
      (sideWith id wAcquire)))) else (itemEnds 0 Side.b ((leaveSend 0 Side.b (sideWith id wAcquire)).side 0
      Side.b).cur (itemDone 0 Side.b (leaveSend 0 Side.b (sideWith id wAcquire)))))) 0 Side.b = false ∧ (((if
      squelched (itemEnds 0 Side.b ((leaveSend 0 Side.b (sideWith id wAcquire)).side 0 Side.b).cur (itemDone 0
      Side.b (leaveSend 0 Side.b (sideWith id wAcquire)))) 0 Side.b then txResume 0 Side.b (itemEnds 0 Side.b
      ((leaveSend 0 Side.b (sideWith id wAcquire)).side 0 Side.b).cur (itemDone 0 Side.b (leaveSend 0 Side.b
      (sideWith id wAcquire)))) else (itemEnds 0 Side.b ((leaveSend 0 Side.b (sideWith id wAcquire)).side 0
      Side.b).cur (itemDone 0 Side.b (leaveSend 0 Side.b (sideWith id wAcquire)))))).side 0 Side.b).trnDue = [] ∧
      spanState ((if squelched (itemEnds 0 Side.b ((leaveSend 0 Side.b (sideWith id wAcquire)).side 0 Side.b).cur
      (itemDone 0 Side.b (leaveSend 0 Side.b (sideWith id wAcquire)))) 0 Side.b then txResume 0 Side.b (itemEnds 0
      Side.b ((leaveSend 0 Side.b (sideWith id wAcquire)).side 0 Side.b).cur (itemDone 0 Side.b (leaveSend 0 Side.b
      (sideWith id wAcquire)))) else (itemEnds 0 Side.b ((leaveSend 0 Side.b (sideWith id wAcquire)).side 0
      Side.b).cur (itemDone 0 Side.b (leaveSend 0 Side.b (sideWith id wAcquire)))))) 0 Side.b ≠ spUp) ∧
    (0 < linksOf (sideWith id wNakDue) ∧ sideHeld (sideWith id wNakDue) 0 Side.b = false ∧ sideUsed (leaveSend 0
      Side.b (sideWith id wNakDue)) 0 Side.b = true ∧ (squelched (itemEnds 0 Side.b ((leaveSend 0 Side.b (sideWith
      id wNakDue)).side 0 Side.b).cur (itemDone 0 Side.b (leaveSend 0 Side.b (sideWith id wNakDue)))) 0 Side.b &&
      spanUp ((if squelched (itemEnds 0 Side.b ((leaveSend 0 Side.b (sideWith id wNakDue)).side 0 Side.b).cur
      (itemDone 0 Side.b (leaveSend 0 Side.b (sideWith id wNakDue)))) 0 Side.b then txResume 0 Side.b (itemEnds 0
      Side.b ((leaveSend 0 Side.b (sideWith id wNakDue)).side 0 Side.b).cur (itemDone 0 Side.b (leaveSend 0 Side.b
      (sideWith id wNakDue)))) else (itemEnds 0 Side.b ((leaveSend 0 Side.b (sideWith id wNakDue)).side 0
      Side.b).cur (itemDone 0 Side.b (leaveSend 0 Side.b (sideWith id wNakDue)))))) 0 Side.b) = false ∧ (((if
      squelched (itemEnds 0 Side.b ((leaveSend 0 Side.b (sideWith id wNakDue)).side 0 Side.b).cur (itemDone 0 Side.b
      (leaveSend 0 Side.b (sideWith id wNakDue)))) 0 Side.b then txResume 0 Side.b (itemEnds 0 Side.b ((leaveSend 0
      Side.b (sideWith id wNakDue)).side 0 Side.b).cur (itemDone 0 Side.b (leaveSend 0 Side.b (sideWith id
      wNakDue)))) else (itemEnds 0 Side.b ((leaveSend 0 Side.b (sideWith id wNakDue)).side 0 Side.b).cur (itemDone 0
      Side.b (leaveSend 0 Side.b (sideWith id wNakDue)))))).side 0 Side.b).eieDue = false ∧ (spanUp ((if squelched
      (itemEnds 0 Side.b ((leaveSend 0 Side.b (sideWith id wNakDue)).side 0 Side.b).cur (itemDone 0 Side.b
      (leaveSend 0 Side.b (sideWith id wNakDue)))) 0 Side.b then txResume 0 Side.b (itemEnds 0 Side.b ((leaveSend 0
      Side.b (sideWith id wNakDue)).side 0 Side.b).cur (itemDone 0 Side.b (leaveSend 0 Side.b (sideWith id
      wNakDue)))) else (itemEnds 0 Side.b ((leaveSend 0 Side.b (sideWith id wNakDue)).side 0 Side.b).cur (itemDone 0
      Side.b (leaveSend 0 Side.b (sideWith id wNakDue)))))) 0 Side.b || sendsTrn (spanState ((if squelched (itemEnds
      0 Side.b ((leaveSend 0 Side.b (sideWith id wNakDue)).side 0 Side.b).cur (itemDone 0 Side.b (leaveSend 0 Side.b
      (sideWith id wNakDue)))) 0 Side.b then txResume 0 Side.b (itemEnds 0 Side.b ((leaveSend 0 Side.b (sideWith id
      wNakDue)).side 0 Side.b).cur (itemDone 0 Side.b (leaveSend 0 Side.b (sideWith id wNakDue)))) else (itemEnds 0
      Side.b ((leaveSend 0 Side.b (sideWith id wNakDue)).side 0 Side.b).cur (itemDone 0 Side.b (leaveSend 0 Side.b
      (sideWith id wNakDue)))))) 0 Side.b)) = true ∧ skpDue ((if squelched (itemEnds 0 Side.b ((leaveSend 0 Side.b
      (sideWith id wNakDue)).side 0 Side.b).cur (itemDone 0 Side.b (leaveSend 0 Side.b (sideWith id wNakDue)))) 0
      Side.b then txResume 0 Side.b (itemEnds 0 Side.b ((leaveSend 0 Side.b (sideWith id wNakDue)).side 0
      Side.b).cur (itemDone 0 Side.b (leaveSend 0 Side.b (sideWith id wNakDue)))) else (itemEnds 0 Side.b
      ((leaveSend 0 Side.b (sideWith id wNakDue)).side 0 Side.b).cur (itemDone 0 Side.b (leaveSend 0 Side.b
      (sideWith id wNakDue)))))) 0 Side.b = false ∧ (((if squelched (itemEnds 0 Side.b ((leaveSend 0 Side.b
      (sideWith id wNakDue)).side 0 Side.b).cur (itemDone 0 Side.b (leaveSend 0 Side.b (sideWith id wNakDue)))) 0
      Side.b then txResume 0 Side.b (itemEnds 0 Side.b ((leaveSend 0 Side.b (sideWith id wNakDue)).side 0
      Side.b).cur (itemDone 0 Side.b (leaveSend 0 Side.b (sideWith id wNakDue)))) else (itemEnds 0 Side.b
      ((leaveSend 0 Side.b (sideWith id wNakDue)).side 0 Side.b).cur (itemDone 0 Side.b (leaveSend 0 Side.b
      (sideWith id wNakDue)))))).side 0 Side.b).trnDue = [] ∧ spanState ((if squelched (itemEnds 0 Side.b
      ((leaveSend 0 Side.b (sideWith id wNakDue)).side 0 Side.b).cur (itemDone 0 Side.b (leaveSend 0 Side.b
      (sideWith id wNakDue)))) 0 Side.b then txResume 0 Side.b (itemEnds 0 Side.b ((leaveSend 0 Side.b (sideWith id
      wNakDue)).side 0 Side.b).cur (itemDone 0 Side.b (leaveSend 0 Side.b (sideWith id wNakDue)))) else (itemEnds 0
      Side.b ((leaveSend 0 Side.b (sideWith id wNakDue)).side 0 Side.b).cur (itemDone 0 Side.b (leaveSend 0 Side.b
      (sideWith id wNakDue)))))) 0 Side.b = spUp ∧ drnDue ((if squelched (itemEnds 0 Side.b ((leaveSend 0 Side.b
      (sideWith id wNakDue)).side 0 Side.b).cur (itemDone 0 Side.b (leaveSend 0 Side.b (sideWith id wNakDue)))) 0
      Side.b then txResume 0 Side.b (itemEnds 0 Side.b ((leaveSend 0 Side.b (sideWith id wNakDue)).side 0
      Side.b).cur (itemDone 0 Side.b (leaveSend 0 Side.b (sideWith id wNakDue)))) else (itemEnds 0 Side.b
      ((leaveSend 0 Side.b (sideWith id wNakDue)).side 0 Side.b).cur (itemDone 0 Side.b (leaveSend 0 Side.b
      (sideWith id wNakDue)))))) 0 Side.b = some ({ d0 := 64, value := 5 })) ∧
    (0 < linksOf (sideWith (fun x => { x with pendAck := some ({ seq := 1 } : AckSet) }) wUp) ∧ sideHeld (sideWith
      (fun x => { x with pendAck := some ({ seq := 1 } : AckSet) }) wUp) 0 Side.b = false ∧ sideUsed (leaveSend 0
      Side.b (sideWith (fun x => { x with pendAck := some ({ seq := 1 } : AckSet) }) wUp)) 0 Side.b = true ∧
      (squelched (itemEnds 0 Side.b ((leaveSend 0 Side.b (sideWith (fun x =>
      { x with pendAck := some ({ seq := 1 } : AckSet) }) wUp)).side 0 Side.b).cur (itemDone 0 Side.b (leaveSend 0
      Side.b (sideWith (fun x => { x with pendAck := some ({ seq := 1 } : AckSet) }) wUp)))) 0 Side.b && spanUp ((if
      squelched (itemEnds 0 Side.b ((leaveSend 0 Side.b (sideWith (fun x =>
      { x with pendAck := some ({ seq := 1 } : AckSet) }) wUp)).side 0 Side.b).cur (itemDone 0 Side.b (leaveSend 0
      Side.b (sideWith (fun x => { x with pendAck := some ({ seq := 1 } : AckSet) }) wUp)))) 0 Side.b then txResume
      0 Side.b (itemEnds 0 Side.b ((leaveSend 0 Side.b (sideWith (fun x =>
      { x with pendAck := some ({ seq := 1 } : AckSet) }) wUp)).side 0 Side.b).cur (itemDone 0 Side.b (leaveSend 0
      Side.b (sideWith (fun x => { x with pendAck := some ({ seq := 1 } : AckSet) }) wUp)))) else (itemEnds 0 Side.b
      ((leaveSend 0 Side.b (sideWith (fun x => { x with pendAck := some ({ seq := 1 } : AckSet) }) wUp)).side 0
      Side.b).cur (itemDone 0 Side.b (leaveSend 0 Side.b (sideWith (fun x =>
      { x with pendAck := some ({ seq := 1 } : AckSet) }) wUp)))))) 0 Side.b) = false ∧ (((if squelched (itemEnds 0
      Side.b ((leaveSend 0 Side.b (sideWith (fun x => { x with pendAck := some ({ seq := 1 } : AckSet) }) wUp)).side
      0 Side.b).cur (itemDone 0 Side.b (leaveSend 0 Side.b (sideWith (fun x =>
      { x with pendAck := some ({ seq := 1 } : AckSet) }) wUp)))) 0 Side.b then txResume 0 Side.b (itemEnds 0 Side.b
      ((leaveSend 0 Side.b (sideWith (fun x => { x with pendAck := some ({ seq := 1 } : AckSet) }) wUp)).side 0
      Side.b).cur (itemDone 0 Side.b (leaveSend 0 Side.b (sideWith (fun x =>
      { x with pendAck := some ({ seq := 1 } : AckSet) }) wUp)))) else (itemEnds 0 Side.b ((leaveSend 0 Side.b
      (sideWith (fun x => { x with pendAck := some ({ seq := 1 } : AckSet) }) wUp)).side 0 Side.b).cur (itemDone 0
      Side.b (leaveSend 0 Side.b (sideWith (fun x => { x with pendAck := some ({ seq := 1 } : AckSet) })
      wUp)))))).side 0 Side.b).eieDue = false ∧ (spanUp ((if squelched (itemEnds 0 Side.b ((leaveSend 0 Side.b
      (sideWith (fun x => { x with pendAck := some ({ seq := 1 } : AckSet) }) wUp)).side 0 Side.b).cur (itemDone 0
      Side.b (leaveSend 0 Side.b (sideWith (fun x => { x with pendAck := some ({ seq := 1 } : AckSet) }) wUp)))) 0
      Side.b then txResume 0 Side.b (itemEnds 0 Side.b ((leaveSend 0 Side.b (sideWith (fun x =>
      { x with pendAck := some ({ seq := 1 } : AckSet) }) wUp)).side 0 Side.b).cur (itemDone 0 Side.b (leaveSend 0
      Side.b (sideWith (fun x => { x with pendAck := some ({ seq := 1 } : AckSet) }) wUp)))) else (itemEnds 0 Side.b
      ((leaveSend 0 Side.b (sideWith (fun x => { x with pendAck := some ({ seq := 1 } : AckSet) }) wUp)).side 0
      Side.b).cur (itemDone 0 Side.b (leaveSend 0 Side.b (sideWith (fun x =>
      { x with pendAck := some ({ seq := 1 } : AckSet) }) wUp)))))) 0 Side.b || sendsTrn (spanState ((if squelched
      (itemEnds 0 Side.b ((leaveSend 0 Side.b (sideWith (fun x =>
      { x with pendAck := some ({ seq := 1 } : AckSet) }) wUp)).side 0 Side.b).cur (itemDone 0 Side.b (leaveSend 0
      Side.b (sideWith (fun x => { x with pendAck := some ({ seq := 1 } : AckSet) }) wUp)))) 0 Side.b then txResume
      0 Side.b (itemEnds 0 Side.b ((leaveSend 0 Side.b (sideWith (fun x =>
      { x with pendAck := some ({ seq := 1 } : AckSet) }) wUp)).side 0 Side.b).cur (itemDone 0 Side.b (leaveSend 0
      Side.b (sideWith (fun x => { x with pendAck := some ({ seq := 1 } : AckSet) }) wUp)))) else (itemEnds 0 Side.b
      ((leaveSend 0 Side.b (sideWith (fun x => { x with pendAck := some ({ seq := 1 } : AckSet) }) wUp)).side 0
      Side.b).cur (itemDone 0 Side.b (leaveSend 0 Side.b (sideWith (fun x =>
      { x with pendAck := some ({ seq := 1 } : AckSet) }) wUp)))))) 0 Side.b)) = true ∧ skpDue ((if squelched
      (itemEnds 0 Side.b ((leaveSend 0 Side.b (sideWith (fun x =>
      { x with pendAck := some ({ seq := 1 } : AckSet) }) wUp)).side 0 Side.b).cur (itemDone 0 Side.b (leaveSend 0
      Side.b (sideWith (fun x => { x with pendAck := some ({ seq := 1 } : AckSet) }) wUp)))) 0 Side.b then txResume
      0 Side.b (itemEnds 0 Side.b ((leaveSend 0 Side.b (sideWith (fun x =>
      { x with pendAck := some ({ seq := 1 } : AckSet) }) wUp)).side 0 Side.b).cur (itemDone 0 Side.b (leaveSend 0
      Side.b (sideWith (fun x => { x with pendAck := some ({ seq := 1 } : AckSet) }) wUp)))) else (itemEnds 0 Side.b
      ((leaveSend 0 Side.b (sideWith (fun x => { x with pendAck := some ({ seq := 1 } : AckSet) }) wUp)).side 0
      Side.b).cur (itemDone 0 Side.b (leaveSend 0 Side.b (sideWith (fun x =>
      { x with pendAck := some ({ seq := 1 } : AckSet) }) wUp)))))) 0 Side.b = false ∧ (((if squelched (itemEnds 0
      Side.b ((leaveSend 0 Side.b (sideWith (fun x => { x with pendAck := some ({ seq := 1 } : AckSet) }) wUp)).side
      0 Side.b).cur (itemDone 0 Side.b (leaveSend 0 Side.b (sideWith (fun x =>
      { x with pendAck := some ({ seq := 1 } : AckSet) }) wUp)))) 0 Side.b then txResume 0 Side.b (itemEnds 0 Side.b
      ((leaveSend 0 Side.b (sideWith (fun x => { x with pendAck := some ({ seq := 1 } : AckSet) }) wUp)).side 0
      Side.b).cur (itemDone 0 Side.b (leaveSend 0 Side.b (sideWith (fun x =>
      { x with pendAck := some ({ seq := 1 } : AckSet) }) wUp)))) else (itemEnds 0 Side.b ((leaveSend 0 Side.b
      (sideWith (fun x => { x with pendAck := some ({ seq := 1 } : AckSet) }) wUp)).side 0 Side.b).cur (itemDone 0
      Side.b (leaveSend 0 Side.b (sideWith (fun x => { x with pendAck := some ({ seq := 1 } : AckSet) })
      wUp)))))).side 0 Side.b).trnDue = [] ∧ spanState ((if squelched (itemEnds 0 Side.b ((leaveSend 0 Side.b
      (sideWith (fun x => { x with pendAck := some ({ seq := 1 } : AckSet) }) wUp)).side 0 Side.b).cur (itemDone 0
      Side.b (leaveSend 0 Side.b (sideWith (fun x => { x with pendAck := some ({ seq := 1 } : AckSet) }) wUp)))) 0
      Side.b then txResume 0 Side.b (itemEnds 0 Side.b ((leaveSend 0 Side.b (sideWith (fun x =>
      { x with pendAck := some ({ seq := 1 } : AckSet) }) wUp)).side 0 Side.b).cur (itemDone 0 Side.b (leaveSend 0
      Side.b (sideWith (fun x => { x with pendAck := some ({ seq := 1 } : AckSet) }) wUp)))) else (itemEnds 0 Side.b
      ((leaveSend 0 Side.b (sideWith (fun x => { x with pendAck := some ({ seq := 1 } : AckSet) }) wUp)).side 0
      Side.b).cur (itemDone 0 Side.b (leaveSend 0 Side.b (sideWith (fun x =>
      { x with pendAck := some ({ seq := 1 } : AckSet) }) wUp)))))) 0 Side.b = spUp ∧ drnDue ((if squelched
      (itemEnds 0 Side.b ((leaveSend 0 Side.b (sideWith (fun x =>
      { x with pendAck := some ({ seq := 1 } : AckSet) }) wUp)).side 0 Side.b).cur (itemDone 0 Side.b (leaveSend 0
      Side.b (sideWith (fun x => { x with pendAck := some ({ seq := 1 } : AckSet) }) wUp)))) 0 Side.b then txResume
      0 Side.b (itemEnds 0 Side.b ((leaveSend 0 Side.b (sideWith (fun x =>
      { x with pendAck := some ({ seq := 1 } : AckSet) }) wUp)).side 0 Side.b).cur (itemDone 0 Side.b (leaveSend 0
      Side.b (sideWith (fun x => { x with pendAck := some ({ seq := 1 } : AckSet) }) wUp)))) else (itemEnds 0 Side.b
      ((leaveSend 0 Side.b (sideWith (fun x => { x with pendAck := some ({ seq := 1 } : AckSet) }) wUp)).side 0
      Side.b).cur (itemDone 0 Side.b (leaveSend 0 Side.b (sideWith (fun x =>
      { x with pendAck := some ({ seq := 1 } : AckSet) }) wUp)))))) 0 Side.b = none ∧ ((((if squelched (itemEnds 0
      Side.b ((leaveSend 0 Side.b (sideWith (fun x => { x with pendAck := some ({ seq := 1 } : AckSet) }) wUp)).side
      0 Side.b).cur (itemDone 0 Side.b (leaveSend 0 Side.b (sideWith (fun x =>
      { x with pendAck := some ({ seq := 1 } : AckSet) }) wUp)))) 0 Side.b then txResume 0 Side.b (itemEnds 0 Side.b
      ((leaveSend 0 Side.b (sideWith (fun x => { x with pendAck := some ({ seq := 1 } : AckSet) }) wUp)).side 0
      Side.b).cur (itemDone 0 Side.b (leaveSend 0 Side.b (sideWith (fun x =>
      { x with pendAck := some ({ seq := 1 } : AckSet) }) wUp)))) else (itemEnds 0 Side.b ((leaveSend 0 Side.b
      (sideWith (fun x => { x with pendAck := some ({ seq := 1 } : AckSet) }) wUp)).side 0 Side.b).cur (itemDone 0
      Side.b (leaveSend 0 Side.b (sideWith (fun x => { x with pendAck := some ({ seq := 1 } : AckSet) })
      wUp)))))).side 0 Side.b).lastAck && flitReady ((if squelched (itemEnds 0 Side.b ((leaveSend 0 Side.b (sideWith
      (fun x => { x with pendAck := some ({ seq := 1 } : AckSet) }) wUp)).side 0 Side.b).cur (itemDone 0 Side.b
      (leaveSend 0 Side.b (sideWith (fun x => { x with pendAck := some ({ seq := 1 } : AckSet) }) wUp)))) 0 Side.b
      then txResume 0 Side.b (itemEnds 0 Side.b ((leaveSend 0 Side.b (sideWith (fun x =>
      { x with pendAck := some ({ seq := 1 } : AckSet) }) wUp)).side 0 Side.b).cur (itemDone 0 Side.b (leaveSend 0
      Side.b (sideWith (fun x => { x with pendAck := some ({ seq := 1 } : AckSet) }) wUp)))) else (itemEnds 0 Side.b
      ((leaveSend 0 Side.b (sideWith (fun x => { x with pendAck := some ({ seq := 1 } : AckSet) }) wUp)).side 0
      Side.b).cur (itemDone 0 Side.b (leaveSend 0 Side.b (sideWith (fun x =>
      { x with pendAck := some ({ seq := 1 } : AckSet) }) wUp)))))) 0 Side.b) = false ∧ (((if squelched (itemEnds 0
      Side.b ((leaveSend 0 Side.b (sideWith (fun x => { x with pendAck := some ({ seq := 1 } : AckSet) }) wUp)).side
      0 Side.b).cur (itemDone 0 Side.b (leaveSend 0 Side.b (sideWith (fun x =>
      { x with pendAck := some ({ seq := 1 } : AckSet) }) wUp)))) 0 Side.b then txResume 0 Side.b (itemEnds 0 Side.b
      ((leaveSend 0 Side.b (sideWith (fun x => { x with pendAck := some ({ seq := 1 } : AckSet) }) wUp)).side 0
      Side.b).cur (itemDone 0 Side.b (leaveSend 0 Side.b (sideWith (fun x =>
      { x with pendAck := some ({ seq := 1 } : AckSet) }) wUp)))) else (itemEnds 0 Side.b ((leaveSend 0 Side.b
      (sideWith (fun x => { x with pendAck := some ({ seq := 1 } : AckSet) }) wUp)).side 0 Side.b).cur (itemDone 0
      Side.b (leaveSend 0 Side.b (sideWith (fun x => { x with pendAck := some ({ seq := 1 } : AckSet) })
      wUp)))))).side 0 Side.b).pendAck = some (({ seq := 1 } : AckSet))) ∧
    (0 < linksOf (sideWith (fun x => { x with pendSel := [[1]] }) wUp) ∧ sideHeld (sideWith (fun x =>
      { x with pendSel := [[1]] }) wUp) 0 Side.b = false ∧ sideUsed (leaveSend 0 Side.b (sideWith (fun x =>
      { x with pendSel := [[1]] }) wUp)) 0 Side.b = true ∧ (squelched (itemEnds 0 Side.b ((leaveSend 0 Side.b
      (sideWith (fun x => { x with pendSel := [[1]] }) wUp)).side 0 Side.b).cur (itemDone 0 Side.b (leaveSend 0
      Side.b (sideWith (fun x => { x with pendSel := [[1]] }) wUp)))) 0 Side.b && spanUp ((if squelched (itemEnds 0
      Side.b ((leaveSend 0 Side.b (sideWith (fun x => { x with pendSel := [[1]] }) wUp)).side 0 Side.b).cur
      (itemDone 0 Side.b (leaveSend 0 Side.b (sideWith (fun x => { x with pendSel := [[1]] }) wUp)))) 0 Side.b then
      txResume 0 Side.b (itemEnds 0 Side.b ((leaveSend 0 Side.b (sideWith (fun x => { x with pendSel := [[1]] })
      wUp)).side 0 Side.b).cur (itemDone 0 Side.b (leaveSend 0 Side.b (sideWith (fun x =>
      { x with pendSel := [[1]] }) wUp)))) else (itemEnds 0 Side.b ((leaveSend 0 Side.b (sideWith (fun x =>
      { x with pendSel := [[1]] }) wUp)).side 0 Side.b).cur (itemDone 0 Side.b (leaveSend 0 Side.b (sideWith (fun x
      => { x with pendSel := [[1]] }) wUp)))))) 0 Side.b) = false ∧ (((if squelched (itemEnds 0 Side.b ((leaveSend 0
      Side.b (sideWith (fun x => { x with pendSel := [[1]] }) wUp)).side 0 Side.b).cur (itemDone 0 Side.b (leaveSend
      0 Side.b (sideWith (fun x => { x with pendSel := [[1]] }) wUp)))) 0 Side.b then txResume 0 Side.b (itemEnds 0
      Side.b ((leaveSend 0 Side.b (sideWith (fun x => { x with pendSel := [[1]] }) wUp)).side 0 Side.b).cur
      (itemDone 0 Side.b (leaveSend 0 Side.b (sideWith (fun x => { x with pendSel := [[1]] }) wUp)))) else (itemEnds
      0 Side.b ((leaveSend 0 Side.b (sideWith (fun x => { x with pendSel := [[1]] }) wUp)).side 0 Side.b).cur
      (itemDone 0 Side.b (leaveSend 0 Side.b (sideWith (fun x => { x with pendSel := [[1]] }) wUp)))))).side 0
      Side.b).eieDue = false ∧ (spanUp ((if squelched (itemEnds 0 Side.b ((leaveSend 0 Side.b (sideWith (fun x =>
      { x with pendSel := [[1]] }) wUp)).side 0 Side.b).cur (itemDone 0 Side.b (leaveSend 0 Side.b (sideWith (fun x
      => { x with pendSel := [[1]] }) wUp)))) 0 Side.b then txResume 0 Side.b (itemEnds 0 Side.b ((leaveSend 0
      Side.b (sideWith (fun x => { x with pendSel := [[1]] }) wUp)).side 0 Side.b).cur (itemDone 0 Side.b (leaveSend
      0 Side.b (sideWith (fun x => { x with pendSel := [[1]] }) wUp)))) else (itemEnds 0 Side.b ((leaveSend 0 Side.b
      (sideWith (fun x => { x with pendSel := [[1]] }) wUp)).side 0 Side.b).cur (itemDone 0 Side.b (leaveSend 0
      Side.b (sideWith (fun x => { x with pendSel := [[1]] }) wUp)))))) 0 Side.b || sendsTrn (spanState ((if
      squelched (itemEnds 0 Side.b ((leaveSend 0 Side.b (sideWith (fun x => { x with pendSel := [[1]] }) wUp)).side
      0 Side.b).cur (itemDone 0 Side.b (leaveSend 0 Side.b (sideWith (fun x => { x with pendSel := [[1]] }) wUp))))
      0 Side.b then txResume 0 Side.b (itemEnds 0 Side.b ((leaveSend 0 Side.b (sideWith (fun x =>
      { x with pendSel := [[1]] }) wUp)).side 0 Side.b).cur (itemDone 0 Side.b (leaveSend 0 Side.b (sideWith (fun x
      => { x with pendSel := [[1]] }) wUp)))) else (itemEnds 0 Side.b ((leaveSend 0 Side.b (sideWith (fun x =>
      { x with pendSel := [[1]] }) wUp)).side 0 Side.b).cur (itemDone 0 Side.b (leaveSend 0 Side.b (sideWith (fun x
      => { x with pendSel := [[1]] }) wUp)))))) 0 Side.b)) = true ∧ skpDue ((if squelched (itemEnds 0 Side.b
      ((leaveSend 0 Side.b (sideWith (fun x => { x with pendSel := [[1]] }) wUp)).side 0 Side.b).cur (itemDone 0
      Side.b (leaveSend 0 Side.b (sideWith (fun x => { x with pendSel := [[1]] }) wUp)))) 0 Side.b then txResume 0
      Side.b (itemEnds 0 Side.b ((leaveSend 0 Side.b (sideWith (fun x => { x with pendSel := [[1]] }) wUp)).side 0
      Side.b).cur (itemDone 0 Side.b (leaveSend 0 Side.b (sideWith (fun x => { x with pendSel := [[1]] }) wUp))))
      else (itemEnds 0 Side.b ((leaveSend 0 Side.b (sideWith (fun x => { x with pendSel := [[1]] }) wUp)).side 0
      Side.b).cur (itemDone 0 Side.b (leaveSend 0 Side.b (sideWith (fun x => { x with pendSel := [[1]] }) wUp))))))
      0 Side.b = false ∧ (((if squelched (itemEnds 0 Side.b ((leaveSend 0 Side.b (sideWith (fun x =>
      { x with pendSel := [[1]] }) wUp)).side 0 Side.b).cur (itemDone 0 Side.b (leaveSend 0 Side.b (sideWith (fun x
      => { x with pendSel := [[1]] }) wUp)))) 0 Side.b then txResume 0 Side.b (itemEnds 0 Side.b ((leaveSend 0
      Side.b (sideWith (fun x => { x with pendSel := [[1]] }) wUp)).side 0 Side.b).cur (itemDone 0 Side.b (leaveSend
      0 Side.b (sideWith (fun x => { x with pendSel := [[1]] }) wUp)))) else (itemEnds 0 Side.b ((leaveSend 0 Side.b
      (sideWith (fun x => { x with pendSel := [[1]] }) wUp)).side 0 Side.b).cur (itemDone 0 Side.b (leaveSend 0
      Side.b (sideWith (fun x => { x with pendSel := [[1]] }) wUp)))))).side 0 Side.b).trnDue = [] ∧ spanState ((if
      squelched (itemEnds 0 Side.b ((leaveSend 0 Side.b (sideWith (fun x => { x with pendSel := [[1]] }) wUp)).side
      0 Side.b).cur (itemDone 0 Side.b (leaveSend 0 Side.b (sideWith (fun x => { x with pendSel := [[1]] }) wUp))))
      0 Side.b then txResume 0 Side.b (itemEnds 0 Side.b ((leaveSend 0 Side.b (sideWith (fun x =>
      { x with pendSel := [[1]] }) wUp)).side 0 Side.b).cur (itemDone 0 Side.b (leaveSend 0 Side.b (sideWith (fun x
      => { x with pendSel := [[1]] }) wUp)))) else (itemEnds 0 Side.b ((leaveSend 0 Side.b (sideWith (fun x =>
      { x with pendSel := [[1]] }) wUp)).side 0 Side.b).cur (itemDone 0 Side.b (leaveSend 0 Side.b (sideWith (fun x
      => { x with pendSel := [[1]] }) wUp)))))) 0 Side.b = spUp ∧ drnDue ((if squelched (itemEnds 0 Side.b
      ((leaveSend 0 Side.b (sideWith (fun x => { x with pendSel := [[1]] }) wUp)).side 0 Side.b).cur (itemDone 0
      Side.b (leaveSend 0 Side.b (sideWith (fun x => { x with pendSel := [[1]] }) wUp)))) 0 Side.b then txResume 0
      Side.b (itemEnds 0 Side.b ((leaveSend 0 Side.b (sideWith (fun x => { x with pendSel := [[1]] }) wUp)).side 0
      Side.b).cur (itemDone 0 Side.b (leaveSend 0 Side.b (sideWith (fun x => { x with pendSel := [[1]] }) wUp))))
      else (itemEnds 0 Side.b ((leaveSend 0 Side.b (sideWith (fun x => { x with pendSel := [[1]] }) wUp)).side 0
      Side.b).cur (itemDone 0 Side.b (leaveSend 0 Side.b (sideWith (fun x => { x with pendSel := [[1]] }) wUp))))))
      0 Side.b = none ∧ (((((if squelched (itemEnds 0 Side.b ((leaveSend 0 Side.b (sideWith (fun x =>
      { x with pendSel := [[1]] }) wUp)).side 0 Side.b).cur (itemDone 0 Side.b (leaveSend 0 Side.b (sideWith (fun x
      => { x with pendSel := [[1]] }) wUp)))) 0 Side.b then txResume 0 Side.b (itemEnds 0 Side.b ((leaveSend 0
      Side.b (sideWith (fun x => { x with pendSel := [[1]] }) wUp)).side 0 Side.b).cur (itemDone 0 Side.b (leaveSend
      0 Side.b (sideWith (fun x => { x with pendSel := [[1]] }) wUp)))) else (itemEnds 0 Side.b ((leaveSend 0 Side.b
      (sideWith (fun x => { x with pendSel := [[1]] }) wUp)).side 0 Side.b).cur (itemDone 0 Side.b (leaveSend 0
      Side.b (sideWith (fun x => { x with pendSel := [[1]] }) wUp)))))).side 0 Side.b).lastAck && flitReady ((if
      squelched (itemEnds 0 Side.b ((leaveSend 0 Side.b (sideWith (fun x => { x with pendSel := [[1]] }) wUp)).side
      0 Side.b).cur (itemDone 0 Side.b (leaveSend 0 Side.b (sideWith (fun x => { x with pendSel := [[1]] }) wUp))))
      0 Side.b then txResume 0 Side.b (itemEnds 0 Side.b ((leaveSend 0 Side.b (sideWith (fun x =>
      { x with pendSel := [[1]] }) wUp)).side 0 Side.b).cur (itemDone 0 Side.b (leaveSend 0 Side.b (sideWith (fun x
      => { x with pendSel := [[1]] }) wUp)))) else (itemEnds 0 Side.b ((leaveSend 0 Side.b (sideWith (fun x =>
      { x with pendSel := [[1]] }) wUp)).side 0 Side.b).cur (itemDone 0 Side.b (leaveSend 0 Side.b (sideWith (fun x
      => { x with pendSel := [[1]] }) wUp)))))) 0 Side.b) = true ∨ (((if squelched (itemEnds 0 Side.b ((leaveSend 0
      Side.b (sideWith (fun x => { x with pendSel := [[1]] }) wUp)).side 0 Side.b).cur (itemDone 0 Side.b (leaveSend
      0 Side.b (sideWith (fun x => { x with pendSel := [[1]] }) wUp)))) 0 Side.b then txResume 0 Side.b (itemEnds 0
      Side.b ((leaveSend 0 Side.b (sideWith (fun x => { x with pendSel := [[1]] }) wUp)).side 0 Side.b).cur
      (itemDone 0 Side.b (leaveSend 0 Side.b (sideWith (fun x => { x with pendSel := [[1]] }) wUp)))) else (itemEnds
      0 Side.b ((leaveSend 0 Side.b (sideWith (fun x => { x with pendSel := [[1]] }) wUp)).side 0 Side.b).cur
      (itemDone 0 Side.b (leaveSend 0 Side.b (sideWith (fun x => { x with pendSel := [[1]] }) wUp)))))).side 0
      Side.b).pendAck = none) ∧ (((if squelched (itemEnds 0 Side.b ((leaveSend 0 Side.b (sideWith (fun x =>
      { x with pendSel := [[1]] }) wUp)).side 0 Side.b).cur (itemDone 0 Side.b (leaveSend 0 Side.b (sideWith (fun x
      => { x with pendSel := [[1]] }) wUp)))) 0 Side.b then txResume 0 Side.b (itemEnds 0 Side.b ((leaveSend 0
      Side.b (sideWith (fun x => { x with pendSel := [[1]] }) wUp)).side 0 Side.b).cur (itemDone 0 Side.b (leaveSend
      0 Side.b (sideWith (fun x => { x with pendSel := [[1]] }) wUp)))) else (itemEnds 0 Side.b ((leaveSend 0 Side.b
      (sideWith (fun x => { x with pendSel := [[1]] }) wUp)).side 0 Side.b).cur (itemDone 0 Side.b (leaveSend 0
      Side.b (sideWith (fun x => { x with pendSel := [[1]] }) wUp)))))).side 0 Side.b).selSyms = 0 ∧ (((if squelched
      (itemEnds 0 Side.b ((leaveSend 0 Side.b (sideWith (fun x => { x with pendSel := [[1]] }) wUp)).side 0
      Side.b).cur (itemDone 0 Side.b (leaveSend 0 Side.b (sideWith (fun x => { x with pendSel := [[1]] }) wUp)))) 0
      Side.b then txResume 0 Side.b (itemEnds 0 Side.b ((leaveSend 0 Side.b (sideWith (fun x =>
      { x with pendSel := [[1]] }) wUp)).side 0 Side.b).cur (itemDone 0 Side.b (leaveSend 0 Side.b (sideWith (fun x
      => { x with pendSel := [[1]] }) wUp)))) else (itemEnds 0 Side.b ((leaveSend 0 Side.b (sideWith (fun x =>
      { x with pendSel := [[1]] }) wUp)).side 0 Side.b).cur (itemDone 0 Side.b (leaveSend 0 Side.b (sideWith (fun x
      => { x with pendSel := [[1]] }) wUp)))))).side 0 Side.b).pendSel = ([1]) :: ([])) ∧
    (0 < linksOf (sideWith id wFifoUp) ∧ sideHeld (sideWith id wFifoUp) 0 Side.b = false ∧ sideUsed (leaveSend 0
      Side.b (sideWith id wFifoUp)) 0 Side.b = true ∧ (squelched (itemEnds 0 Side.b ((leaveSend 0 Side.b (sideWith
      id wFifoUp)).side 0 Side.b).cur (itemDone 0 Side.b (leaveSend 0 Side.b (sideWith id wFifoUp)))) 0 Side.b &&
      spanUp ((if squelched (itemEnds 0 Side.b ((leaveSend 0 Side.b (sideWith id wFifoUp)).side 0 Side.b).cur
      (itemDone 0 Side.b (leaveSend 0 Side.b (sideWith id wFifoUp)))) 0 Side.b then txResume 0 Side.b (itemEnds 0
      Side.b ((leaveSend 0 Side.b (sideWith id wFifoUp)).side 0 Side.b).cur (itemDone 0 Side.b (leaveSend 0 Side.b
      (sideWith id wFifoUp)))) else (itemEnds 0 Side.b ((leaveSend 0 Side.b (sideWith id wFifoUp)).side 0
      Side.b).cur (itemDone 0 Side.b (leaveSend 0 Side.b (sideWith id wFifoUp)))))) 0 Side.b) = false ∧ (((if
      squelched (itemEnds 0 Side.b ((leaveSend 0 Side.b (sideWith id wFifoUp)).side 0 Side.b).cur (itemDone 0 Side.b
      (leaveSend 0 Side.b (sideWith id wFifoUp)))) 0 Side.b then txResume 0 Side.b (itemEnds 0 Side.b ((leaveSend 0
      Side.b (sideWith id wFifoUp)).side 0 Side.b).cur (itemDone 0 Side.b (leaveSend 0 Side.b (sideWith id
      wFifoUp)))) else (itemEnds 0 Side.b ((leaveSend 0 Side.b (sideWith id wFifoUp)).side 0 Side.b).cur (itemDone 0
      Side.b (leaveSend 0 Side.b (sideWith id wFifoUp)))))).side 0 Side.b).eieDue = false ∧ (spanUp ((if squelched
      (itemEnds 0 Side.b ((leaveSend 0 Side.b (sideWith id wFifoUp)).side 0 Side.b).cur (itemDone 0 Side.b
      (leaveSend 0 Side.b (sideWith id wFifoUp)))) 0 Side.b then txResume 0 Side.b (itemEnds 0 Side.b ((leaveSend 0
      Side.b (sideWith id wFifoUp)).side 0 Side.b).cur (itemDone 0 Side.b (leaveSend 0 Side.b (sideWith id
      wFifoUp)))) else (itemEnds 0 Side.b ((leaveSend 0 Side.b (sideWith id wFifoUp)).side 0 Side.b).cur (itemDone 0
      Side.b (leaveSend 0 Side.b (sideWith id wFifoUp)))))) 0 Side.b || sendsTrn (spanState ((if squelched (itemEnds
      0 Side.b ((leaveSend 0 Side.b (sideWith id wFifoUp)).side 0 Side.b).cur (itemDone 0 Side.b (leaveSend 0 Side.b
      (sideWith id wFifoUp)))) 0 Side.b then txResume 0 Side.b (itemEnds 0 Side.b ((leaveSend 0 Side.b (sideWith id
      wFifoUp)).side 0 Side.b).cur (itemDone 0 Side.b (leaveSend 0 Side.b (sideWith id wFifoUp)))) else (itemEnds 0
      Side.b ((leaveSend 0 Side.b (sideWith id wFifoUp)).side 0 Side.b).cur (itemDone 0 Side.b (leaveSend 0 Side.b
      (sideWith id wFifoUp)))))) 0 Side.b)) = true ∧ skpDue ((if squelched (itemEnds 0 Side.b ((leaveSend 0 Side.b
      (sideWith id wFifoUp)).side 0 Side.b).cur (itemDone 0 Side.b (leaveSend 0 Side.b (sideWith id wFifoUp)))) 0
      Side.b then txResume 0 Side.b (itemEnds 0 Side.b ((leaveSend 0 Side.b (sideWith id wFifoUp)).side 0
      Side.b).cur (itemDone 0 Side.b (leaveSend 0 Side.b (sideWith id wFifoUp)))) else (itemEnds 0 Side.b
      ((leaveSend 0 Side.b (sideWith id wFifoUp)).side 0 Side.b).cur (itemDone 0 Side.b (leaveSend 0 Side.b
      (sideWith id wFifoUp)))))) 0 Side.b = false ∧ (((if squelched (itemEnds 0 Side.b ((leaveSend 0 Side.b
      (sideWith id wFifoUp)).side 0 Side.b).cur (itemDone 0 Side.b (leaveSend 0 Side.b (sideWith id wFifoUp)))) 0
      Side.b then txResume 0 Side.b (itemEnds 0 Side.b ((leaveSend 0 Side.b (sideWith id wFifoUp)).side 0
      Side.b).cur (itemDone 0 Side.b (leaveSend 0 Side.b (sideWith id wFifoUp)))) else (itemEnds 0 Side.b
      ((leaveSend 0 Side.b (sideWith id wFifoUp)).side 0 Side.b).cur (itemDone 0 Side.b (leaveSend 0 Side.b
      (sideWith id wFifoUp)))))).side 0 Side.b).trnDue = [] ∧ spanState ((if squelched (itemEnds 0 Side.b
      ((leaveSend 0 Side.b (sideWith id wFifoUp)).side 0 Side.b).cur (itemDone 0 Side.b (leaveSend 0 Side.b
      (sideWith id wFifoUp)))) 0 Side.b then txResume 0 Side.b (itemEnds 0 Side.b ((leaveSend 0 Side.b (sideWith id
      wFifoUp)).side 0 Side.b).cur (itemDone 0 Side.b (leaveSend 0 Side.b (sideWith id wFifoUp)))) else (itemEnds 0
      Side.b ((leaveSend 0 Side.b (sideWith id wFifoUp)).side 0 Side.b).cur (itemDone 0 Side.b (leaveSend 0 Side.b
      (sideWith id wFifoUp)))))) 0 Side.b = spUp ∧ drnDue ((if squelched (itemEnds 0 Side.b ((leaveSend 0 Side.b
      (sideWith id wFifoUp)).side 0 Side.b).cur (itemDone 0 Side.b (leaveSend 0 Side.b (sideWith id wFifoUp)))) 0
      Side.b then txResume 0 Side.b (itemEnds 0 Side.b ((leaveSend 0 Side.b (sideWith id wFifoUp)).side 0
      Side.b).cur (itemDone 0 Side.b (leaveSend 0 Side.b (sideWith id wFifoUp)))) else (itemEnds 0 Side.b
      ((leaveSend 0 Side.b (sideWith id wFifoUp)).side 0 Side.b).cur (itemDone 0 Side.b (leaveSend 0 Side.b
      (sideWith id wFifoUp)))))) 0 Side.b = none ∧ (((((if squelched (itemEnds 0 Side.b ((leaveSend 0 Side.b
      (sideWith id wFifoUp)).side 0 Side.b).cur (itemDone 0 Side.b (leaveSend 0 Side.b (sideWith id wFifoUp)))) 0
      Side.b then txResume 0 Side.b (itemEnds 0 Side.b ((leaveSend 0 Side.b (sideWith id wFifoUp)).side 0
      Side.b).cur (itemDone 0 Side.b (leaveSend 0 Side.b (sideWith id wFifoUp)))) else (itemEnds 0 Side.b
      ((leaveSend 0 Side.b (sideWith id wFifoUp)).side 0 Side.b).cur (itemDone 0 Side.b (leaveSend 0 Side.b
      (sideWith id wFifoUp)))))).side 0 Side.b).lastAck && flitReady ((if squelched (itemEnds 0 Side.b ((leaveSend 0
      Side.b (sideWith id wFifoUp)).side 0 Side.b).cur (itemDone 0 Side.b (leaveSend 0 Side.b (sideWith id
      wFifoUp)))) 0 Side.b then txResume 0 Side.b (itemEnds 0 Side.b ((leaveSend 0 Side.b (sideWith id
      wFifoUp)).side 0 Side.b).cur (itemDone 0 Side.b (leaveSend 0 Side.b (sideWith id wFifoUp)))) else (itemEnds 0
      Side.b ((leaveSend 0 Side.b (sideWith id wFifoUp)).side 0 Side.b).cur (itemDone 0 Side.b (leaveSend 0 Side.b
      (sideWith id wFifoUp)))))) 0 Side.b) = true ∨ (((if squelched (itemEnds 0 Side.b ((leaveSend 0 Side.b
      (sideWith id wFifoUp)).side 0 Side.b).cur (itemDone 0 Side.b (leaveSend 0 Side.b (sideWith id wFifoUp)))) 0
      Side.b then txResume 0 Side.b (itemEnds 0 Side.b ((leaveSend 0 Side.b (sideWith id wFifoUp)).side 0
      Side.b).cur (itemDone 0 Side.b (leaveSend 0 Side.b (sideWith id wFifoUp)))) else (itemEnds 0 Side.b
      ((leaveSend 0 Side.b (sideWith id wFifoUp)).side 0 Side.b).cur (itemDone 0 Side.b (leaveSend 0 Side.b
      (sideWith id wFifoUp)))))).side 0 Side.b).pendAck = none) ∧ ((((if squelched (itemEnds 0 Side.b ((leaveSend 0
      Side.b (sideWith id wFifoUp)).side 0 Side.b).cur (itemDone 0 Side.b (leaveSend 0 Side.b (sideWith id
      wFifoUp)))) 0 Side.b then txResume 0 Side.b (itemEnds 0 Side.b ((leaveSend 0 Side.b (sideWith id
      wFifoUp)).side 0 Side.b).cur (itemDone 0 Side.b (leaveSend 0 Side.b (sideWith id wFifoUp)))) else (itemEnds 0
      Side.b ((leaveSend 0 Side.b (sideWith id wFifoUp)).side 0 Side.b).cur (itemDone 0 Side.b (leaveSend 0 Side.b
      (sideWith id wFifoUp)))))).side 0 Side.b).selSyms ≠ 0 ∨ (((if squelched (itemEnds 0 Side.b ((leaveSend 0
      Side.b (sideWith id wFifoUp)).side 0 Side.b).cur (itemDone 0 Side.b (leaveSend 0 Side.b (sideWith id
      wFifoUp)))) 0 Side.b then txResume 0 Side.b (itemEnds 0 Side.b ((leaveSend 0 Side.b (sideWith id
      wFifoUp)).side 0 Side.b).cur (itemDone 0 Side.b (leaveSend 0 Side.b (sideWith id wFifoUp)))) else (itemEnds 0
      Side.b ((leaveSend 0 Side.b (sideWith id wFifoUp)).side 0 Side.b).cur (itemDone 0 Side.b (leaveSend 0 Side.b
      (sideWith id wFifoUp)))))).side 0 Side.b).pendSel = []) ∧ nextFlit 0 Side.b (.ok) (.ok) ((if squelched
      (itemEnds 0 Side.b ((leaveSend 0 Side.b (sideWith id wFifoUp)).side 0 Side.b).cur (itemDone 0 Side.b
      (leaveSend 0 Side.b (sideWith id wFifoUp)))) 0 Side.b then txResume 0 Side.b (itemEnds 0 Side.b ((leaveSend 0
      Side.b (sideWith id wFifoUp)).side 0 Side.b).cur (itemDone 0 Side.b (leaveSend 0 Side.b (sideWith id
      wFifoUp)))) else (itemEnds 0 Side.b ((leaveSend 0 Side.b (sideWith id wFifoUp)).side 0 Side.b).cur (itemDone 0
      Side.b (leaveSend 0 Side.b (sideWith id wFifoUp)))))) = (some ((nextFlit 0 .b .ok .ok (sentAt (sideWith id
      wFifoUp))).1.getD .idl), ((nextFlit 0 .b .ok .ok (sentAt (sideWith id wFifoUp))).2))) ∧
    (0 < linksOf (sideWith id wUp) ∧ sideHeld (sideWith id wUp) 0 Side.b = false ∧ sideUsed (leaveSend 0 Side.b
      (sideWith id wUp)) 0 Side.b = true ∧ (squelched (itemEnds 0 Side.b ((leaveSend 0 Side.b (sideWith id
      wUp)).side 0 Side.b).cur (itemDone 0 Side.b (leaveSend 0 Side.b (sideWith id wUp)))) 0 Side.b && spanUp ((if
      squelched (itemEnds 0 Side.b ((leaveSend 0 Side.b (sideWith id wUp)).side 0 Side.b).cur (itemDone 0 Side.b
      (leaveSend 0 Side.b (sideWith id wUp)))) 0 Side.b then txResume 0 Side.b (itemEnds 0 Side.b ((leaveSend 0
      Side.b (sideWith id wUp)).side 0 Side.b).cur (itemDone 0 Side.b (leaveSend 0 Side.b (sideWith id wUp)))) else
      (itemEnds 0 Side.b ((leaveSend 0 Side.b (sideWith id wUp)).side 0 Side.b).cur (itemDone 0 Side.b (leaveSend 0
      Side.b (sideWith id wUp)))))) 0 Side.b) = false ∧ (((if squelched (itemEnds 0 Side.b ((leaveSend 0 Side.b
      (sideWith id wUp)).side 0 Side.b).cur (itemDone 0 Side.b (leaveSend 0 Side.b (sideWith id wUp)))) 0 Side.b
      then txResume 0 Side.b (itemEnds 0 Side.b ((leaveSend 0 Side.b (sideWith id wUp)).side 0 Side.b).cur (itemDone
      0 Side.b (leaveSend 0 Side.b (sideWith id wUp)))) else (itemEnds 0 Side.b ((leaveSend 0 Side.b (sideWith id
      wUp)).side 0 Side.b).cur (itemDone 0 Side.b (leaveSend 0 Side.b (sideWith id wUp)))))).side 0 Side.b).eieDue =
      false ∧ (spanUp ((if squelched (itemEnds 0 Side.b ((leaveSend 0 Side.b (sideWith id wUp)).side 0 Side.b).cur
      (itemDone 0 Side.b (leaveSend 0 Side.b (sideWith id wUp)))) 0 Side.b then txResume 0 Side.b (itemEnds 0 Side.b
      ((leaveSend 0 Side.b (sideWith id wUp)).side 0 Side.b).cur (itemDone 0 Side.b (leaveSend 0 Side.b (sideWith id
      wUp)))) else (itemEnds 0 Side.b ((leaveSend 0 Side.b (sideWith id wUp)).side 0 Side.b).cur (itemDone 0 Side.b
      (leaveSend 0 Side.b (sideWith id wUp)))))) 0 Side.b || sendsTrn (spanState ((if squelched (itemEnds 0 Side.b
      ((leaveSend 0 Side.b (sideWith id wUp)).side 0 Side.b).cur (itemDone 0 Side.b (leaveSend 0 Side.b (sideWith id
      wUp)))) 0 Side.b then txResume 0 Side.b (itemEnds 0 Side.b ((leaveSend 0 Side.b (sideWith id wUp)).side 0
      Side.b).cur (itemDone 0 Side.b (leaveSend 0 Side.b (sideWith id wUp)))) else (itemEnds 0 Side.b ((leaveSend 0
      Side.b (sideWith id wUp)).side 0 Side.b).cur (itemDone 0 Side.b (leaveSend 0 Side.b (sideWith id wUp)))))) 0
      Side.b)) = true ∧ skpDue ((if squelched (itemEnds 0 Side.b ((leaveSend 0 Side.b (sideWith id wUp)).side 0
      Side.b).cur (itemDone 0 Side.b (leaveSend 0 Side.b (sideWith id wUp)))) 0 Side.b then txResume 0 Side.b
      (itemEnds 0 Side.b ((leaveSend 0 Side.b (sideWith id wUp)).side 0 Side.b).cur (itemDone 0 Side.b (leaveSend 0
      Side.b (sideWith id wUp)))) else (itemEnds 0 Side.b ((leaveSend 0 Side.b (sideWith id wUp)).side 0 Side.b).cur
      (itemDone 0 Side.b (leaveSend 0 Side.b (sideWith id wUp)))))) 0 Side.b = false ∧ (((if squelched (itemEnds 0
      Side.b ((leaveSend 0 Side.b (sideWith id wUp)).side 0 Side.b).cur (itemDone 0 Side.b (leaveSend 0 Side.b
      (sideWith id wUp)))) 0 Side.b then txResume 0 Side.b (itemEnds 0 Side.b ((leaveSend 0 Side.b (sideWith id
      wUp)).side 0 Side.b).cur (itemDone 0 Side.b (leaveSend 0 Side.b (sideWith id wUp)))) else (itemEnds 0 Side.b
      ((leaveSend 0 Side.b (sideWith id wUp)).side 0 Side.b).cur (itemDone 0 Side.b (leaveSend 0 Side.b (sideWith id
      wUp)))))).side 0 Side.b).trnDue = [] ∧ spanState ((if squelched (itemEnds 0 Side.b ((leaveSend 0 Side.b
      (sideWith id wUp)).side 0 Side.b).cur (itemDone 0 Side.b (leaveSend 0 Side.b (sideWith id wUp)))) 0 Side.b
      then txResume 0 Side.b (itemEnds 0 Side.b ((leaveSend 0 Side.b (sideWith id wUp)).side 0 Side.b).cur (itemDone
      0 Side.b (leaveSend 0 Side.b (sideWith id wUp)))) else (itemEnds 0 Side.b ((leaveSend 0 Side.b (sideWith id
      wUp)).side 0 Side.b).cur (itemDone 0 Side.b (leaveSend 0 Side.b (sideWith id wUp)))))) 0 Side.b = spUp ∧
      drnDue ((if squelched (itemEnds 0 Side.b ((leaveSend 0 Side.b (sideWith id wUp)).side 0 Side.b).cur (itemDone
      0 Side.b (leaveSend 0 Side.b (sideWith id wUp)))) 0 Side.b then txResume 0 Side.b (itemEnds 0 Side.b
      ((leaveSend 0 Side.b (sideWith id wUp)).side 0 Side.b).cur (itemDone 0 Side.b (leaveSend 0 Side.b (sideWith id
      wUp)))) else (itemEnds 0 Side.b ((leaveSend 0 Side.b (sideWith id wUp)).side 0 Side.b).cur (itemDone 0 Side.b
      (leaveSend 0 Side.b (sideWith id wUp)))))) 0 Side.b = none ∧ (((((if squelched (itemEnds 0 Side.b ((leaveSend
      0 Side.b (sideWith id wUp)).side 0 Side.b).cur (itemDone 0 Side.b (leaveSend 0 Side.b (sideWith id wUp)))) 0
      Side.b then txResume 0 Side.b (itemEnds 0 Side.b ((leaveSend 0 Side.b (sideWith id wUp)).side 0 Side.b).cur
      (itemDone 0 Side.b (leaveSend 0 Side.b (sideWith id wUp)))) else (itemEnds 0 Side.b ((leaveSend 0 Side.b
      (sideWith id wUp)).side 0 Side.b).cur (itemDone 0 Side.b (leaveSend 0 Side.b (sideWith id wUp)))))).side 0
      Side.b).lastAck && flitReady ((if squelched (itemEnds 0 Side.b ((leaveSend 0 Side.b (sideWith id wUp)).side 0
      Side.b).cur (itemDone 0 Side.b (leaveSend 0 Side.b (sideWith id wUp)))) 0 Side.b then txResume 0 Side.b
      (itemEnds 0 Side.b ((leaveSend 0 Side.b (sideWith id wUp)).side 0 Side.b).cur (itemDone 0 Side.b (leaveSend 0
      Side.b (sideWith id wUp)))) else (itemEnds 0 Side.b ((leaveSend 0 Side.b (sideWith id wUp)).side 0 Side.b).cur
      (itemDone 0 Side.b (leaveSend 0 Side.b (sideWith id wUp)))))) 0 Side.b) = true ∨ (((if squelched (itemEnds 0
      Side.b ((leaveSend 0 Side.b (sideWith id wUp)).side 0 Side.b).cur (itemDone 0 Side.b (leaveSend 0 Side.b
      (sideWith id wUp)))) 0 Side.b then txResume 0 Side.b (itemEnds 0 Side.b ((leaveSend 0 Side.b (sideWith id
      wUp)).side 0 Side.b).cur (itemDone 0 Side.b (leaveSend 0 Side.b (sideWith id wUp)))) else (itemEnds 0 Side.b
      ((leaveSend 0 Side.b (sideWith id wUp)).side 0 Side.b).cur (itemDone 0 Side.b (leaveSend 0 Side.b (sideWith id
      wUp)))))).side 0 Side.b).pendAck = none) ∧ ((((if squelched (itemEnds 0 Side.b ((leaveSend 0 Side.b (sideWith
      id wUp)).side 0 Side.b).cur (itemDone 0 Side.b (leaveSend 0 Side.b (sideWith id wUp)))) 0 Side.b then txResume
      0 Side.b (itemEnds 0 Side.b ((leaveSend 0 Side.b (sideWith id wUp)).side 0 Side.b).cur (itemDone 0 Side.b
      (leaveSend 0 Side.b (sideWith id wUp)))) else (itemEnds 0 Side.b ((leaveSend 0 Side.b (sideWith id wUp)).side
      0 Side.b).cur (itemDone 0 Side.b (leaveSend 0 Side.b (sideWith id wUp)))))).side 0 Side.b).selSyms ≠ 0 ∨ (((if
      squelched (itemEnds 0 Side.b ((leaveSend 0 Side.b (sideWith id wUp)).side 0 Side.b).cur (itemDone 0 Side.b
      (leaveSend 0 Side.b (sideWith id wUp)))) 0 Side.b then txResume 0 Side.b (itemEnds 0 Side.b ((leaveSend 0
      Side.b (sideWith id wUp)).side 0 Side.b).cur (itemDone 0 Side.b (leaveSend 0 Side.b (sideWith id wUp)))) else
      (itemEnds 0 Side.b ((leaveSend 0 Side.b (sideWith id wUp)).side 0 Side.b).cur (itemDone 0 Side.b (leaveSend 0
      Side.b (sideWith id wUp)))))).side 0 Side.b).pendSel = []) ∧ nextFlit 0 Side.b (.ok) (.ok) ((if squelched
      (itemEnds 0 Side.b ((leaveSend 0 Side.b (sideWith id wUp)).side 0 Side.b).cur (itemDone 0 Side.b (leaveSend 0
      Side.b (sideWith id wUp)))) 0 Side.b then txResume 0 Side.b (itemEnds 0 Side.b ((leaveSend 0 Side.b (sideWith
      id wUp)).side 0 Side.b).cur (itemDone 0 Side.b (leaveSend 0 Side.b (sideWith id wUp)))) else (itemEnds 0
      Side.b ((leaveSend 0 Side.b (sideWith id wUp)).side 0 Side.b).cur (itemDone 0 Side.b (leaveSend 0 Side.b
      (sideWith id wUp)))))) = (none, ((nextFlit 0 .b .ok .ok (sentAt (sideWith id wUp))).2))) ∧
    (0 < linksOf (sideWith (fun x => { x with trnDue := [trnOf 0] }) wSwitchSp) ∧ sideHeld (sideWith (fun x =>
      { x with trnDue := [trnOf 0] }) wSwitchSp) 0 Side.b = false ∧ sideUsed (leaveSend 0 Side.b (sideWith (fun x =>
      { x with trnDue := [trnOf 0] }) wSwitchSp)) 0 Side.b = true ∧ (squelched (itemEnds 0 Side.b ((leaveSend 0
      Side.b (sideWith (fun x => { x with trnDue := [trnOf 0] }) wSwitchSp)).side 0 Side.b).cur (itemDone 0 Side.b
      (leaveSend 0 Side.b (sideWith (fun x => { x with trnDue := [trnOf 0] }) wSwitchSp)))) 0 Side.b && spanUp ((if
      squelched (itemEnds 0 Side.b ((leaveSend 0 Side.b (sideWith (fun x => { x with trnDue := [trnOf 0] })
      wSwitchSp)).side 0 Side.b).cur (itemDone 0 Side.b (leaveSend 0 Side.b (sideWith (fun x =>
      { x with trnDue := [trnOf 0] }) wSwitchSp)))) 0 Side.b then txResume 0 Side.b (itemEnds 0 Side.b ((leaveSend 0
      Side.b (sideWith (fun x => { x with trnDue := [trnOf 0] }) wSwitchSp)).side 0 Side.b).cur (itemDone 0 Side.b
      (leaveSend 0 Side.b (sideWith (fun x => { x with trnDue := [trnOf 0] }) wSwitchSp)))) else (itemEnds 0 Side.b
      ((leaveSend 0 Side.b (sideWith (fun x => { x with trnDue := [trnOf 0] }) wSwitchSp)).side 0 Side.b).cur
      (itemDone 0 Side.b (leaveSend 0 Side.b (sideWith (fun x => { x with trnDue := [trnOf 0] }) wSwitchSp)))))) 0
      Side.b) = false ∧ (((if squelched (itemEnds 0 Side.b ((leaveSend 0 Side.b (sideWith (fun x =>
      { x with trnDue := [trnOf 0] }) wSwitchSp)).side 0 Side.b).cur (itemDone 0 Side.b (leaveSend 0 Side.b
      (sideWith (fun x => { x with trnDue := [trnOf 0] }) wSwitchSp)))) 0 Side.b then txResume 0 Side.b (itemEnds 0
      Side.b ((leaveSend 0 Side.b (sideWith (fun x => { x with trnDue := [trnOf 0] }) wSwitchSp)).side 0 Side.b).cur
      (itemDone 0 Side.b (leaveSend 0 Side.b (sideWith (fun x => { x with trnDue := [trnOf 0] }) wSwitchSp)))) else
      (itemEnds 0 Side.b ((leaveSend 0 Side.b (sideWith (fun x => { x with trnDue := [trnOf 0] }) wSwitchSp)).side 0
      Side.b).cur (itemDone 0 Side.b (leaveSend 0 Side.b (sideWith (fun x => { x with trnDue := [trnOf 0] })
      wSwitchSp)))))).side 0 Side.b).eieDue = false ∧ (spanUp ((if squelched (itemEnds 0 Side.b ((leaveSend 0 Side.b
      (sideWith (fun x => { x with trnDue := [trnOf 0] }) wSwitchSp)).side 0 Side.b).cur (itemDone 0 Side.b
      (leaveSend 0 Side.b (sideWith (fun x => { x with trnDue := [trnOf 0] }) wSwitchSp)))) 0 Side.b then txResume 0
      Side.b (itemEnds 0 Side.b ((leaveSend 0 Side.b (sideWith (fun x => { x with trnDue := [trnOf 0] })
      wSwitchSp)).side 0 Side.b).cur (itemDone 0 Side.b (leaveSend 0 Side.b (sideWith (fun x =>
      { x with trnDue := [trnOf 0] }) wSwitchSp)))) else (itemEnds 0 Side.b ((leaveSend 0 Side.b (sideWith (fun x =>
      { x with trnDue := [trnOf 0] }) wSwitchSp)).side 0 Side.b).cur (itemDone 0 Side.b (leaveSend 0 Side.b
      (sideWith (fun x => { x with trnDue := [trnOf 0] }) wSwitchSp)))))) 0 Side.b || sendsTrn (spanState ((if
      squelched (itemEnds 0 Side.b ((leaveSend 0 Side.b (sideWith (fun x => { x with trnDue := [trnOf 0] })
      wSwitchSp)).side 0 Side.b).cur (itemDone 0 Side.b (leaveSend 0 Side.b (sideWith (fun x =>
      { x with trnDue := [trnOf 0] }) wSwitchSp)))) 0 Side.b then txResume 0 Side.b (itemEnds 0 Side.b ((leaveSend 0
      Side.b (sideWith (fun x => { x with trnDue := [trnOf 0] }) wSwitchSp)).side 0 Side.b).cur (itemDone 0 Side.b
      (leaveSend 0 Side.b (sideWith (fun x => { x with trnDue := [trnOf 0] }) wSwitchSp)))) else (itemEnds 0 Side.b
      ((leaveSend 0 Side.b (sideWith (fun x => { x with trnDue := [trnOf 0] }) wSwitchSp)).side 0 Side.b).cur
      (itemDone 0 Side.b (leaveSend 0 Side.b (sideWith (fun x => { x with trnDue := [trnOf 0] }) wSwitchSp)))))) 0
      Side.b)) = false ∧ spanState ((if squelched (itemEnds 0 Side.b ((leaveSend 0 Side.b (sideWith (fun x =>
      { x with trnDue := [trnOf 0] }) wSwitchSp)).side 0 Side.b).cur (itemDone 0 Side.b (leaveSend 0 Side.b
      (sideWith (fun x => { x with trnDue := [trnOf 0] }) wSwitchSp)))) 0 Side.b then txResume 0 Side.b (itemEnds 0
      Side.b ((leaveSend 0 Side.b (sideWith (fun x => { x with trnDue := [trnOf 0] }) wSwitchSp)).side 0 Side.b).cur
      (itemDone 0 Side.b (leaveSend 0 Side.b (sideWith (fun x => { x with trnDue := [trnOf 0] }) wSwitchSp)))) else
      (itemEnds 0 Side.b ((leaveSend 0 Side.b (sideWith (fun x => { x with trnDue := [trnOf 0] }) wSwitchSp)).side 0
      Side.b).cur (itemDone 0 Side.b (leaveSend 0 Side.b (sideWith (fun x => { x with trnDue := [trnOf 0] })
      wSwitchSp)))))) 0 Side.b = spSwitch ∧ (((if squelched (itemEnds 0 Side.b ((leaveSend 0 Side.b (sideWith (fun x
      => { x with trnDue := [trnOf 0] }) wSwitchSp)).side 0 Side.b).cur (itemDone 0 Side.b (leaveSend 0 Side.b
      (sideWith (fun x => { x with trnDue := [trnOf 0] }) wSwitchSp)))) 0 Side.b then txResume 0 Side.b (itemEnds 0
      Side.b ((leaveSend 0 Side.b (sideWith (fun x => { x with trnDue := [trnOf 0] }) wSwitchSp)).side 0 Side.b).cur
      (itemDone 0 Side.b (leaveSend 0 Side.b (sideWith (fun x => { x with trnDue := [trnOf 0] }) wSwitchSp)))) else
      (itemEnds 0 Side.b ((leaveSend 0 Side.b (sideWith (fun x => { x with trnDue := [trnOf 0] }) wSwitchSp)).side 0
      Side.b).cur (itemDone 0 Side.b (leaveSend 0 Side.b (sideWith (fun x => { x with trnDue := [trnOf 0] })
      wSwitchSp)))))).side 0 Side.b).trnDue = (trnOf 0) :: ([])) ∧
    (0 < linksOf (sideWith id wSwitchSp) ∧ sideHeld (sideWith id wSwitchSp) 0 Side.b = false ∧ sideUsed (leaveSend 0
      Side.b (sideWith id wSwitchSp)) 0 Side.b = true ∧ (squelched (itemEnds 0 Side.b ((leaveSend 0 Side.b (sideWith
      id wSwitchSp)).side 0 Side.b).cur (itemDone 0 Side.b (leaveSend 0 Side.b (sideWith id wSwitchSp)))) 0 Side.b
      && spanUp ((if squelched (itemEnds 0 Side.b ((leaveSend 0 Side.b (sideWith id wSwitchSp)).side 0 Side.b).cur
      (itemDone 0 Side.b (leaveSend 0 Side.b (sideWith id wSwitchSp)))) 0 Side.b then txResume 0 Side.b (itemEnds 0
      Side.b ((leaveSend 0 Side.b (sideWith id wSwitchSp)).side 0 Side.b).cur (itemDone 0 Side.b (leaveSend 0 Side.b
      (sideWith id wSwitchSp)))) else (itemEnds 0 Side.b ((leaveSend 0 Side.b (sideWith id wSwitchSp)).side 0
      Side.b).cur (itemDone 0 Side.b (leaveSend 0 Side.b (sideWith id wSwitchSp)))))) 0 Side.b) = false ∧ (((if
      squelched (itemEnds 0 Side.b ((leaveSend 0 Side.b (sideWith id wSwitchSp)).side 0 Side.b).cur (itemDone 0
      Side.b (leaveSend 0 Side.b (sideWith id wSwitchSp)))) 0 Side.b then txResume 0 Side.b (itemEnds 0 Side.b
      ((leaveSend 0 Side.b (sideWith id wSwitchSp)).side 0 Side.b).cur (itemDone 0 Side.b (leaveSend 0 Side.b
      (sideWith id wSwitchSp)))) else (itemEnds 0 Side.b ((leaveSend 0 Side.b (sideWith id wSwitchSp)).side 0
      Side.b).cur (itemDone 0 Side.b (leaveSend 0 Side.b (sideWith id wSwitchSp)))))).side 0 Side.b).eieDue = false
      ∧ (spanUp ((if squelched (itemEnds 0 Side.b ((leaveSend 0 Side.b (sideWith id wSwitchSp)).side 0 Side.b).cur
      (itemDone 0 Side.b (leaveSend 0 Side.b (sideWith id wSwitchSp)))) 0 Side.b then txResume 0 Side.b (itemEnds 0
      Side.b ((leaveSend 0 Side.b (sideWith id wSwitchSp)).side 0 Side.b).cur (itemDone 0 Side.b (leaveSend 0 Side.b
      (sideWith id wSwitchSp)))) else (itemEnds 0 Side.b ((leaveSend 0 Side.b (sideWith id wSwitchSp)).side 0
      Side.b).cur (itemDone 0 Side.b (leaveSend 0 Side.b (sideWith id wSwitchSp)))))) 0 Side.b || sendsTrn
      (spanState ((if squelched (itemEnds 0 Side.b ((leaveSend 0 Side.b (sideWith id wSwitchSp)).side 0 Side.b).cur
      (itemDone 0 Side.b (leaveSend 0 Side.b (sideWith id wSwitchSp)))) 0 Side.b then txResume 0 Side.b (itemEnds 0
      Side.b ((leaveSend 0 Side.b (sideWith id wSwitchSp)).side 0 Side.b).cur (itemDone 0 Side.b (leaveSend 0 Side.b
      (sideWith id wSwitchSp)))) else (itemEnds 0 Side.b ((leaveSend 0 Side.b (sideWith id wSwitchSp)).side 0
      Side.b).cur (itemDone 0 Side.b (leaveSend 0 Side.b (sideWith id wSwitchSp)))))) 0 Side.b)) = false ∧
      (spanState ((if squelched (itemEnds 0 Side.b ((leaveSend 0 Side.b (sideWith id wSwitchSp)).side 0 Side.b).cur
      (itemDone 0 Side.b (leaveSend 0 Side.b (sideWith id wSwitchSp)))) 0 Side.b then txResume 0 Side.b (itemEnds 0
      Side.b ((leaveSend 0 Side.b (sideWith id wSwitchSp)).side 0 Side.b).cur (itemDone 0 Side.b (leaveSend 0 Side.b
      (sideWith id wSwitchSp)))) else (itemEnds 0 Side.b ((leaveSend 0 Side.b (sideWith id wSwitchSp)).side 0
      Side.b).cur (itemDone 0 Side.b (leaveSend 0 Side.b (sideWith id wSwitchSp)))))) 0 Side.b ≠ spSwitch ∨ (((if
      squelched (itemEnds 0 Side.b ((leaveSend 0 Side.b (sideWith id wSwitchSp)).side 0 Side.b).cur (itemDone 0
      Side.b (leaveSend 0 Side.b (sideWith id wSwitchSp)))) 0 Side.b then txResume 0 Side.b (itemEnds 0 Side.b
      ((leaveSend 0 Side.b (sideWith id wSwitchSp)).side 0 Side.b).cur (itemDone 0 Side.b (leaveSend 0 Side.b
      (sideWith id wSwitchSp)))) else (itemEnds 0 Side.b ((leaveSend 0 Side.b (sideWith id wSwitchSp)).side 0
      Side.b).cur (itemDone 0 Side.b (leaveSend 0 Side.b (sideWith id wSwitchSp)))))).side 0 Side.b).trnDue = [])) ∧
    (0 < linksOf wUp ∧ sideLive wUp 0 Side.b = true ∧ (spanUp wUp 0 Side.b || sendsTrn (spanState wUp 0 Side.b)) =
      true) ∧
    ((ebFull wLockedEb 3) = (wLockedEb.putRx 3 Side.a
      { wLockedEb.rxe 3 Side.a with fill := if true then 32 else 0, recentre := true, slip := some (true, 5) }).count
      (R.EB_ERR (laneCluster 3) Side.a.dirIn.idx) ∧ lanePresent wLockedEb 3 = true ∧ clusterStopped wLockedEb
      (laneCluster 3) = false ∧ farLoop wLockedEb 3 Side.a = false ∧ endEb wLockedEb 3 Side.a = true ∧ isLocked
      wLockedEb 3 Side.a = true ∧ endUse (ebFull wLockedEb 3) 3 Side.a = none) ∧
    ((ebFull wUpEb 0) = (wUpEb.putRx 0 Side.a
      { wUpEb.rxe 0 Side.a with fill := if true then 32 else 0, recentre := true, slip := some (true, 5) }).count
      (R.EB_ERR (laneCluster 0) Side.a.dirIn.idx) ∧ lanePresent wUpEb 0 = true ∧ clusterStopped wUpEb (laneCluster
      0) = false ∧ farLoop wUpEb 0 Side.a = false ∧ endEb wUpEb 0 Side.a = true ∧ isLocked wUpEb 0 Side.a = true ∧
      endUse (ebFull wUpEb 0) 0 Side.a = some (0, 0)) ∧
    ((ebFull wFar3 3) = (wFar3.putRx 3 Side.a
      { wFar3.rxe 3 Side.a with fill := if true then 32 else 0, recentre := true, slip := some (true, 5) }).count
      (R.EB_ERR (laneCluster 3) Side.a.dirIn.idx) ∧ lanePresent wFar3 3 = true ∧ clusterStopped wFar3 (laneCluster
      3) = false ∧ farLoop wFar3 3 Side.a = true ∧ endUse ((ebFull wFar3 3).count (R.LB_EB (lanePage 3))) 3 Side.a =
      none) ∧
    ((ebFull wFarUp 0) = (wFarUp.putRx 0 Side.a
      { wFarUp.rxe 0 Side.a with fill := if true then 32 else 0, recentre := true, slip := some (true, 5) }).count
      (R.EB_ERR (laneCluster 0) Side.a.dirIn.idx) ∧ lanePresent wFarUp 0 = true ∧ clusterStopped wFarUp (laneCluster
      0) = false ∧ farLoop wFarUp 0 Side.a = true ∧ endUse ((ebFull wFarUp 0).count (R.LB_EB (lanePage 0))) 0 Side.a
      = some (0, 0)) ∧
    (lanePresent wLocked 3 = true ∧ isLocked wLocked 3 Side.a = true ∧ clusterStopped wLocked (laneCluster 3) =
      false ∧ wLocked.on (R.DSKW_valid (laneCluster 3) (lanePos 3) Side.a.idx) = false ∧ 2 ≤ 127 ∧ endUse
      ((wLocked.wr (R.DSKW_valid (laneCluster 3) (lanePos 3) Side.a.idx) 1).wr (R.DSKW_skew (laneCluster 3) (lanePos
      3) Side.a.idx) 2) 3 Side.a = none) ∧
    (lanePresent wAcquire 0 = true ∧ isLocked wAcquire 0 Side.a = true ∧ clusterStopped wAcquire (laneCluster 0) =
      false ∧ wAcquire.on (R.DSKW_valid (laneCluster 0) (lanePos 0) Side.a.idx) = false ∧ 2 ≤ 127 ∧ endUse
      ((wAcquire.wr (R.DSKW_valid (laneCluster 0) (lanePos 0) Side.a.idx) 1).wr (R.DSKW_skew (laneCluster 0)
      (lanePos 0) Side.a.idx) 2) 0 Side.a = some (0, 0)) ∧
    (lanePresent wAcquire 0 = true ∧ isLocked wAcquire 0 Side.a = true ∧ clusterStopped wAcquire (laneCluster 0) =
      false ∧ wAcquire.on (R.DSKW_valid (laneCluster 0) (lanePos 0) Side.a.idx) = false ∧ 127 < 128 ∧ endUse
      wAcquire 0 Side.a = some (0, 0) ∧ spanState wAcquire 0 Side.a = spAcquire) ∧
    (lanePresent wRemeasure 3 = true ∧ isLocked wRemeasure 3 Side.a = true ∧ clusterStopped wRemeasure (laneCluster
      3) = false ∧ wRemeasure.on (R.DSKW_valid (laneCluster 3) (lanePos 3) Side.a.idx) = true ∧ (wRemeasure.rxe 3
      Side.a).remeasure = true ∧ 2 ≤ 127) ∧
    (lanePresent wRemeasure 3 = true ∧ isLocked wRemeasure 3 Side.a = true ∧ clusterStopped wRemeasure (laneCluster
      3) = false ∧ wRemeasure.on (R.DSKW_valid (laneCluster 3) (lanePos 3) Side.a.idx) = true ∧ (wRemeasure.rxe 3
      Side.a).remeasure = true ∧ 127 < 128) ∧
    (lanePresent wQualifyOk 0 = true ∧ isLocked wQualifyOk 0 Side.a = true ∧ clusterStopped wQualifyOk (laneCluster
      0) = false ∧ wQualifyOk.on (R.DSKW_valid (laneCluster 0) (lanePos 0) Side.a.idx) = true ∧ (wQualifyOk.rxe 0
      Side.a).remeasure = false) ∧
    (0 < linksOf wRun ∧ pageOpen wRun (0x40 + 0) = true) ∧
    (0 < linksOf wRun ∧ pageOpen wRun (0x40 + 0) = true) := by
  refine ⟨?_, ?_, ?_, ?_, ?_, ?_, ?_, ?_, ?_, ?_, ?_, ?_, ?_, ?_, ?_, ?_, ?_, ?_, ?_, ?_, ?_, ?_, ?_, ?_, ?_, ?_⟩ <;> decide +kernel

/-- The hypotheses of DarningCommands can be met. -/
theorem witness_darningCommands :
    (flowPresent wDarnOut 0 = true ∧ darnDue wDarnOut 0 = true ∧ (wDarnOut.flow 0).copies.head? = some 7 ∧
      flowRetries wDarnOut 0 ≤ (wDarnOut.slot 7).retry ∧ (wDarnOut.slot 7).custody = false) ∧
    (flowPresent wDarn 0 = true ∧ darnDue wDarn 0 = true ∧ (wDarn.flow 0).copies.head? = some 7 ∧ ((wDarn.slot
      7).retry < flowRetries wDarn 0 ∨ (wDarn.slot 7).custody = true)) ∧
    (flowPresent wRun 0 = true ∧ darnDue wRun 0 = false) ∧
    (0 < linksOf wRun ∧ pageOpen wRun (0x40 + 0) = true) ∧
    (0 < linksOf wRun ∧ pageOpen wRun (0x40 + 0) = true) := by
  refine ⟨?_, ?_, ?_, ?_, ?_⟩ <;> decide +kernel

/-- The hypotheses of TrunkSetsTakeEffect can be met. -/
theorem witness_trunkSetsTakeEffect :
    (0 < linksOf (wHeldNo 5 0) ∧ drnTaken 0 Side.a (drnHeard 0) 0 (wHeldNo 5 0) = some (drnKey, (drnOf 0), (drnAt 0
      (wHeldNo 5 0))) ∧ ((((drnAt 0 (wHeldNo 5 0)).trunk drnKey).held.filter fun r => covers16 (drnOf 0).value
      ((drnAt 0 (wHeldNo 5 0)).slot r).spanSeq)) ≠ []) ∧
    (0 < linksOf wUpTrunk ∧ drnTaken 0 Side.a (drnHeard 0) 0 wUpTrunk = some (drnKey, (drnOf 0), (drnAt 0
      (wUpTrunk))) ∧ ((((drnAt 0 (wUpTrunk)).trunk drnKey).held.filter fun r => covers16 (drnOf 0).value ((drnAt 0
      (wUpTrunk)).slot r).spanSeq)) = [] ∧ isAhead16 (drnOf 0).value ((drnAt 0 (wUpTrunk)).trunk drnKey).nextTx =
      true ∧ drnKey < 1024) ∧
    (0 < linksOf (wHeldNo 9 9) ∧ drnTaken 0 Side.a (drnHeard 0) 0 (wHeldNo 9 9) = some (drnKey, (drnOf 0), (drnAt 0
      (wHeldNo 9 9))) ∧ ((((drnAt 0 (wHeldNo 9 9)).trunk drnKey).held.filter fun r => covers16 (drnOf 0).value
      ((drnAt 0 (wHeldNo 9 9)).slot r).spanSeq)) = [] ∧ (isAhead16 (drnOf 0).value ((drnAt 0 (wHeldNo 9 9)).trunk
      drnKey).nextTx = false ∨ 1024 ≤ drnKey)) ∧
    (0 < linksOf (wHeldNo 4 0) ∧ drnTaken 0 Side.a (drnHeard 1) 1 (wHeldNo 4 0) = some (drnKey, (drnOf 1), (drnAt 1
      (wHeldNo 4 0))) ∧ ((countTrunk drnKey R.NAK_rx R.CAL_NAK_rx (drnAt 1 (wHeldNo 4 0))).trunk drnKey).frozenAt =
      none ∧ ((((countTrunk drnKey R.NAK_rx R.CAL_NAK_rx (drnAt 1 (wHeldNo 4 0))).trunk drnKey).held.filter fun r =>
      covers16 (((drnOf 1).value + 65535) % 65536) ((countTrunk drnKey R.NAK_rx R.CAL_NAK_rx (drnAt 1 (wHeldNo 4
      0))).slot r).spanSeq)) ≠ []) ∧
    (0 < linksOf (wHeldNo 5 5) ∧ drnTaken 0 Side.a (drnHeard 1) 1 (wHeldNo 5 5) = some (drnKey, (drnOf 1), (drnAt 1
      (wHeldNo 5 5))) ∧ ((countTrunk drnKey R.NAK_rx R.CAL_NAK_rx (drnAt 1 (wHeldNo 5 5))).trunk drnKey).frozenAt =
      none ∧ ((((countTrunk drnKey R.NAK_rx R.CAL_NAK_rx (drnAt 1 (wHeldNo 5 5))).trunk drnKey).held.filter fun r =>
      covers16 (((drnOf 1).value + 65535) % 65536) ((countTrunk drnKey R.NAK_rx R.CAL_NAK_rx (drnAt 1 (wHeldNo 5
      5))).slot r).spanSeq)) = [] ∧ (((countTrunk drnKey R.NAK_rx R.CAL_NAK_rx (drnAt 1 (wHeldNo 5 5))).trunk
      drnKey).held.any fun r => ((countTrunk drnKey R.NAK_rx R.CAL_NAK_rx (drnAt 1 (wHeldNo 5 5))).slot r).spanSeq =
      (drnOf 1).value) = true) ∧
    (0 < linksOf wUpTrunk ∧ drnTaken 0 Side.a (drnHeard 1) 1 wUpTrunk = some (drnKey, (drnOf 1), (drnAt 1
      (wUpTrunk))) ∧ ((countTrunk drnKey R.NAK_rx R.CAL_NAK_rx (drnAt 1 (wUpTrunk))).trunk drnKey).frozenAt = none ∧
      ((((countTrunk drnKey R.NAK_rx R.CAL_NAK_rx (drnAt 1 (wUpTrunk))).trunk drnKey).held.filter fun r => covers16
      (((drnOf 1).value + 65535) % 65536) ((countTrunk drnKey R.NAK_rx R.CAL_NAK_rx (drnAt 1 (wUpTrunk))).slot
      r).spanSeq)) = [] ∧ (((countTrunk drnKey R.NAK_rx R.CAL_NAK_rx (drnAt 1 (wUpTrunk))).trunk drnKey).held.any
      fun r => ((countTrunk drnKey R.NAK_rx R.CAL_NAK_rx (drnAt 1 (wUpTrunk))).slot r).spanSeq = (drnOf 1).value) =
      false ∧ isAhead16 (drnOf 1).value ((countTrunk drnKey R.NAK_rx R.CAL_NAK_rx (drnAt 1 (wUpTrunk))).trunk
      drnKey).nextTx = true ∧ drnKey < 1024) ∧
    (0 < linksOf (wHeldNo 9 9) ∧ drnTaken 0 Side.a (drnHeard 1) 1 (wHeldNo 9 9) = some (drnKey, (drnOf 1), (drnAt 1
      (wHeldNo 9 9))) ∧ ((countTrunk drnKey R.NAK_rx R.CAL_NAK_rx (drnAt 1 (wHeldNo 9 9))).trunk drnKey).frozenAt =
      none ∧ ((((countTrunk drnKey R.NAK_rx R.CAL_NAK_rx (drnAt 1 (wHeldNo 9 9))).trunk drnKey).held.filter fun r =>
      covers16 (((drnOf 1).value + 65535) % 65536) ((countTrunk drnKey R.NAK_rx R.CAL_NAK_rx (drnAt 1 (wHeldNo 9
      9))).slot r).spanSeq)) = [] ∧ (((countTrunk drnKey R.NAK_rx R.CAL_NAK_rx (drnAt 1 (wHeldNo 9 9))).trunk
      drnKey).held.any fun r => ((countTrunk drnKey R.NAK_rx R.CAL_NAK_rx (drnAt 1 (wHeldNo 9 9))).slot r).spanSeq =
      (drnOf 1).value) = false ∧ (isAhead16 (drnOf 1).value ((countTrunk drnKey R.NAK_rx R.CAL_NAK_rx (drnAt 1
      (wHeldNo 9 9))).trunk drnKey).nextTx = false ∨ 1024 ≤ drnKey)) ∧
    (0 < linksOf wTrunkFrozen ∧ drnTaken 0 Side.a (drnHeard 1) 1 wTrunkFrozen = some (drnKey, (drnOf 1), (drnAt 1
      (wTrunkFrozen))) ∧ ((countTrunk drnKey R.NAK_rx R.CAL_NAK_rx (drnAt 1 (wTrunkFrozen))).trunk
      drnKey).frozenAt.isSome = true) ∧
    (0 < linksOf wUpTrunk ∧ drnTaken 0 Side.a (drnHeard 2) 2 wUpTrunk = some (drnKey, (drnOf 2), (drnAtOf 2))) ∧
    (0 < linksOf wProbe ∧ drnTaken 0 Side.a (drnHeard 3) 3 wProbe = some (drnKey, (drnOf 3), (drnAt 3 (wProbe))) ∧
      ((drnAt 3 (wProbe)).trunk drnKey).probeOut = some ((drnOf 3).value, 0) ∧ ((if drnKey < 1024 then ((((drnAt 3
      (wProbe)).modTrunk drnKey fun x =>
      { x with probeOut := none, sample := some (min (200 - 8 * ((drnOf 3).d0 % 32)) 0xFFFFF) })).wr
      (R.TRK_PROBE_valid drnKey) 1).wr (R.TRK_PROBE_sample drnKey) (min (200 - 8 * ((drnOf 3).d0 % 32)) 0xFFFFF)
      else (((drnAt 3 (wProbe)).modTrunk drnKey fun x =>
      { x with probeOut := none, sample := some (min (200 - 8 * ((drnOf 3).d0 % 32)) 0xFFFFF) })))).rd (R.RTT_rtt
      (trunkAt (drnAt 3 (wProbe)) drnKey).1 (trunkAt (drnAt 3 (wProbe)) drnKey).2.idx) < (min (200 - 8 * ((drnOf
      3).d0 % 32)) 0xFFFFF)) ∧
    (0 < linksOf wProbe ∧ drnTaken 0 Side.a (drnHeard 3) 3 wProbe = some (drnKey, (drnOf 3), (drnAt 3 (wProbe))) ∧
      ((drnAt 3 (wProbe)).trunk drnKey).probeOut = some ((drnOf 3).value, 0) ∧ (min (0 - 8 * ((drnOf 3).d0 % 32))
      0xFFFFF) ≤ ((if drnKey < 1024 then ((((drnAt 3 (wProbe)).modTrunk drnKey fun x =>
      { x with probeOut := none, sample := some (min (0 - 8 * ((drnOf 3).d0 % 32)) 0xFFFFF) })).wr
      (R.TRK_PROBE_valid drnKey) 1).wr (R.TRK_PROBE_sample drnKey) (min (0 - 8 * ((drnOf 3).d0 % 32)) 0xFFFFF) else
      (((drnAt 3 (wProbe)).modTrunk drnKey fun x =>
      { x with probeOut := none, sample := some (min (0 - 8 * ((drnOf 3).d0 % 32)) 0xFFFFF) })))).rd (R.RTT_rtt
      (trunkAt (drnAt 3 (wProbe)) drnKey).1 (trunkAt (drnAt 3 (wProbe)) drnKey).2.idx) ∧ (min (0 - 8 * ((drnOf 3).d0
      % 32)) 0xFFFFF) ≤ ((if drnKey < 1024 then ((((drnAt 3 (wProbe)).modTrunk drnKey fun x =>
      { x with probeOut := none, sample := some (min (0 - 8 * ((drnOf 3).d0 % 32)) 0xFFFFF) })).wr
      (R.TRK_PROBE_valid drnKey) 1).wr (R.TRK_PROBE_sample drnKey) (min (0 - 8 * ((drnOf 3).d0 % 32)) 0xFFFFF) else
      (((drnAt 3 (wProbe)).modTrunk drnKey fun x =>
      { x with probeOut := none, sample := some (min (0 - 8 * ((drnOf 3).d0 % 32)) 0xFFFFF) })))).rd
      (R.PROOF_RTT_rtt (trunkAt (drnAt 3 (wProbe)) drnKey).1 (trunkAt (drnAt 3 (wProbe)) drnKey).2.idx)) ∧
    (0 < linksOf (put [(R.RTT_rtt 0 0, 300)] wProbe) ∧ drnTaken 0 Side.a (drnHeard 3) 3 (put [(R.RTT_rtt 0 0, 300)]
      wProbe) = some (drnKey, (drnOf 3), (drnAt 3 (put [(R.RTT_rtt 0 0, 300)] wProbe))) ∧ ((drnAt 3 (put [(R.RTT_rtt
      0 0, 300)] wProbe)).trunk drnKey).probeOut = some ((drnOf 3).value, 0) ∧ (min (200 - 8 * ((drnOf 3).d0 % 32))
      0xFFFFF) ≤ ((if drnKey < 1024 then ((((drnAt 3 (put [(R.RTT_rtt 0 0, 300)] wProbe)).modTrunk drnKey fun x =>
      { x with probeOut := none, sample := some (min (200 - 8 * ((drnOf 3).d0 % 32)) 0xFFFFF) })).wr
      (R.TRK_PROBE_valid drnKey) 1).wr (R.TRK_PROBE_sample drnKey) (min (200 - 8 * ((drnOf 3).d0 % 32)) 0xFFFFF)
      else (((drnAt 3 (put [(R.RTT_rtt 0 0, 300)] wProbe)).modTrunk drnKey fun x =>
      { x with probeOut := none, sample := some (min (200 - 8 * ((drnOf 3).d0 % 32)) 0xFFFFF) })))).rd (R.RTT_rtt
      (trunkAt (drnAt 3 (put [(R.RTT_rtt 0 0, 300)] wProbe)) drnKey).1 (trunkAt (drnAt 3 (put [(R.RTT_rtt 0 0, 300)]
      wProbe)) drnKey).2.idx) ∧ ((if drnKey < 1024 then ((((drnAt 3 (put [(R.RTT_rtt 0 0, 300)] wProbe)).modTrunk
      drnKey fun x => { x with probeOut := none, sample := some (min (200 - 8 * ((drnOf 3).d0 % 32)) 0xFFFFF) })).wr
      (R.TRK_PROBE_valid drnKey) 1).wr (R.TRK_PROBE_sample drnKey) (min (200 - 8 * ((drnOf 3).d0 % 32)) 0xFFFFF)
      else (((drnAt 3 (put [(R.RTT_rtt 0 0, 300)] wProbe)).modTrunk drnKey fun x =>
      { x with probeOut := none, sample := some (min (200 - 8 * ((drnOf 3).d0 % 32)) 0xFFFFF) })))).rd
      (R.PROOF_RTT_rtt (trunkAt (drnAt 3 (put [(R.RTT_rtt 0 0, 300)] wProbe)) drnKey).1 (trunkAt (drnAt 3 (put
      [(R.RTT_rtt 0 0, 300)] wProbe)) drnKey).2.idx) < (min (200 - 8 * ((drnOf 3).d0 % 32)) 0xFFFFF)) := by
  refine ⟨?_, ?_, ?_, ?_, ?_, ?_, ?_, ?_, ?_, ?_, ?_, ?_⟩ <;> decide +kernel

/-- The hypotheses of TrunkTimers can be met. -/
theorem witness_trunkTimers :
    (trunkPresent wTrunkDue drnKey = true ∧ trunkUp wTrunkDue drnKey = true ∧ spanDue wTrunkDue drnKey = true ∧
      ((wTrunkDue.trunk drnKey).expSince && decide (trunkRetries (countTrunk drnKey R.TMO_expiries
      R.CAL_TMO_expiries (wTrunkDue.putTrunk drnKey
      { wTrunkDue.trunk drnKey with consec := ((if (wTrunkDue.trunk drnKey).expSince then min 15 ((wTrunkDue.trunk drnKey).consec + 1) else (wTrunkDue.trunk drnKey).consec)), expSince := true, fired := true }))
      drnKey ≤ ((if (wTrunkDue.trunk drnKey).expSince then min 15 ((wTrunkDue.trunk drnKey).consec + 1) else
      (wTrunkDue.trunk drnKey).consec)))) = false) ∧
    (trunkPresent wTrunkLast drnKey = true ∧ trunkUp wTrunkLast drnKey = true ∧ spanDue wTrunkLast drnKey = true ∧
      ((wTrunkLast.trunk drnKey).expSince && decide (trunkRetries (countTrunk drnKey R.TMO_expiries
      R.CAL_TMO_expiries (wTrunkLast.putTrunk drnKey
      { wTrunkLast.trunk drnKey with consec := ((if (wTrunkLast.trunk drnKey).expSince then min 15 ((wTrunkLast.trunk drnKey).consec + 1) else (wTrunkLast.trunk drnKey).consec)), expSince := true, fired := true }))
      drnKey ≤ ((if (wTrunkLast.trunk drnKey).expSince then min 15 ((wTrunkLast.trunk drnKey).consec + 1) else
      (wTrunkLast.trunk drnKey).consec)))) = true) ∧
    (trunkPresent (wLate wTrunkAck) drnKey = true ∧ trunkUp (wLate wTrunkAck) drnKey = true ∧ passed ((wLate
      wTrunkAck).trunk drnKey).accOldest 128 (wLate wTrunkAck).fab = true) ∧
    (trunkPresent wProbeInt drnKey = true ∧ trunkUp wProbeInt drnKey = true ∧ trunkProbeInt wProbeInt drnKey ≠ 0) ∧
    (trunkPresent (wLate wProbe) drnKey = true ∧ passed (((wLate wProbe).trunk drnKey).probeOut.map (·.2)) 10000
      (wLate wProbe).fab = true) ∧
    (flowPresent wCustSeq custFlow = true ∧ flowCustodial wCustSeq custFlow = true ∧ flowInTrunk wCustSeq custFlow =
      false ∧ passed (wCustSeq.flow custFlow).custOldest 64 wCustSeq.fab = true ∧ (wCustSeq.flow custFlow).seqValid
      = true) ∧
    (flowPresent (wLate wCust) custFlow = true ∧ flowCustodial (wLate wCust) custFlow = true ∧ flowInTrunk (wLate
      wCust) custFlow = false ∧ passed ((wLate wCust).flow custFlow).custOldest 64 (wLate wCust).fab = true ∧
      ((wLate wCust).flow custFlow).seqValid = false) ∧
    (0 < linksOf (wLate wUpTrunk) ∧ isTrunkMode (modeOf (wLate wUpTrunk) 0) = true ∧ spanUp (wLate wUpTrunk) 0
      (trunkSide (wLate wUpTrunk) 0) = true ∧ ((wLate wUpTrunk).trunk 0).ackSetAt + 1000 ≤ (wLate wUpTrunk).fab) ∧
    (0 < linksOf wRun ∧ pageOpen wRun (0x40 + 0) = true) ∧
    (0 < linksOf wRun ∧ pageOpen wRun (0x40 + 0) = true) := by
  refine ⟨?_, ?_, ?_, ?_, ?_, ?_, ?_, ?_, ?_, ?_⟩ <;> decide +kernel

/-- The hypotheses of BundleCommands can be met. -/
theorem witness_bundleCommands :
    (trunkPresent wCal 1024 = true ∧ 1024 ≤ 1024 ∧ trunkUp wCal 1024 = true) ∧
    (0 < llsOf (wLate wTornLl) ∧ passed ((wLate wTornLl).ll 0).tornUntil 0 (wLate wTornLl).fab = true) ∧
    (0 < llsOf (wLate wDrain) ∧ ((wLate wDrain).ll 0).state = llDraining ∧ passed ((wLate wDrain).ll 0).drainFrom
      1000 (wLate wDrain).fab = true ∧ llBusy (wLate wDrain) 0 = false) ∧
    ((0 < clustersOf wDrain ∨ (16 ≤ 0 ∧ 0 < 16 + calsOf wDrain))) ∧
    (0 < lltPages wRun ∧ pageOpen wRun (0xC0 + 0) = true) ∧
    (0 < lltPages wRun ∧ pageOpen wRun (0xC0 + 0) = true) ∧
    (0 < calsOf wRun ∧ pageOpen wRun (0xC8 + 0 / 2) = true) ∧
    (0 < calsOf wRun ∧ pageOpen wRun (0xC8 + 0 / 2) = true) ∧
    ((queueFlow wRun 0 0) = queueFlow wRun (512 * 0 + 0 % 32768 / 64) (0 % 32768 % 2) ∧ 0 = 0 % 32768 % 64 / 2 ∧ 0 <
      diesOf wRun ∧ pageOpen wRun (0xD0 + 0) = true) := by
  refine ⟨?_, ?_, ?_, ?_, ?_, ?_, ?_, ?_, ?_⟩ <;> decide +kernel

/-- The hypotheses of BufferEvents can be met. -/
theorem witness_bufferEvents :
    (0 < diesOf wMirror ∧ coreHeld wMirror 0 = false ∧ 5 < 65536 ∧ (wMirror.slot (0 * 65536 + 5)).state = stBad ∧ (∃
      p, wMirror.partnerOf (0 * 65536 + 5) = some p) ∧ (wMirror.slot (((wMirror.partnerOf (0 * 65536 + 5)).getD
      0))).state ≠ stBad ∧ (readSlot (((wMirror.partnerOf (0 * 65536 + 5)).getD 0)) (2 * 0) ({}) wMirror).1 = true ∧
      (∃ p, allocSlot 0 [refBank (0 * 65536 + 5), refBank (((wMirror.partnerOf (0 * 65536 + 5)).getD 0))]
      { ((readSlot (((wMirror.partnerOf (0 * 65536 + 5)).getD 0)) (2 * 0) ({}) wMirror).2).slot (((wMirror.partnerOf (0 * 65536 + 5)).getD 0)) with copy := (wMirror.slot (0 * 65536 + 5)).copy, partner := refAddr (((wMirror.partnerOf (0 * 65536 + 5)).getD 0)), sending := false, dying := false }
      ((readSlot (((wMirror.partnerOf (0 * 65536 + 5)).getD 0)) (2 * 0) ({}) wMirror).2) = some p)) ∧
    (0 < diesOf wMirrorFull ∧ coreHeld wMirrorFull 0 = false ∧ 5 < 65536 ∧ (wMirrorFull.slot (0 * 65536 + 5)).state
      = stBad ∧ (∃ p, wMirrorFull.partnerOf (0 * 65536 + 5) = some p) ∧ (wMirrorFull.slot (((wMirrorFull.partnerOf
      (0 * 65536 + 5)).getD 0))).state ≠ stBad ∧ (readSlot (((wMirrorFull.partnerOf (0 * 65536 + 5)).getD 0)) (2 *
      0) ({}) wMirrorFull).1 = true ∧ allocSlot 0 [refBank (0 * 65536 + 5), refBank (((wMirrorFull.partnerOf (0 *
      65536 + 5)).getD 0))]
      { ((readSlot (((wMirrorFull.partnerOf (0 * 65536 + 5)).getD 0)) (2 * 0) ({}) wMirrorFull).2).slot (((wMirrorFull.partnerOf (0 * 65536 + 5)).getD 0)) with copy := (wMirrorFull.slot (0 * 65536 + 5)).copy, partner := refAddr (((wMirrorFull.partnerOf (0 * 65536 + 5)).getD 0)), sending := false, dying := false }
      ((readSlot (((wMirrorFull.partnerOf (0 * 65536 + 5)).getD 0)) (2 * 0) ({}) wMirrorFull).2) = none) ∧
    (0 < diesOf wMirror ∧ coreHeld wMirror 0 = false ∧ 5 < 65536 ∧ (wMirror.slot (0 * 65536 + 5)).state = stBad ∧ (∃
      p, wMirror.partnerOf (0 * 65536 + 5) = some p) ∧ (wMirror.slot (((wMirror.partnerOf (0 * 65536 + 5)).getD
      0))).state ≠ stBad ∧ (readSlot (((wMirror.partnerOf (0 * 65536 + 5)).getD 0)) (2 * 0) ({ desc := true })
      wMirror).1 = false) ∧
    (0 < diesOf wMirrorBad ∧ coreHeld wMirrorBad 0 = false ∧ 5 < 65536 ∧ (wMirrorBad.slot (0 * 65536 + 5)).state =
      stBad ∧ (∃ p, wMirrorBad.partnerOf (0 * 65536 + 5) = some p) ∧ (wMirrorBad.slot (((wMirrorBad.partnerOf (0 *
      65536 + 5)).getD 0))).state = stBad) ∧
    (0 < diesOf (wLate wRun) ∧ coreHeld (wLate wRun) 0 = false ∧ ceWindowDue (wLate wRun) 0 ≤ (wLate wRun).clock) ∧
    (0 < diesOf wRot1Ret ∧ coreHeld wRot1Ret 0 = false ∧ rotOf wRot1Ret 0 = 1 ∧ ((copyReads 0 ((numberOf wRot1Ret 0
      (wRot1Ret.rd (R.BUF_STAT_test_bank 0))).getD 63) ([]) wRot1Ret).buf 0).retireAfter = true) ∧
    (0 < diesOf wRot1 ∧ coreHeld wRot1 0 = false ∧ rotOf wRot1 0 = 1 ∧ ((copyReads 0 ((numberOf wRot1 0 (wRot1.rd
      (R.BUF_STAT_test_bank 0))).getD 63) ([]) wRot1).buf 0).retireAfter = false ∧ ((copyReads 0 ((numberOf wRot1 0
      (wRot1.rd (R.BUF_STAT_test_bank 0))).getD 63) ([]) wRot1).buf 0).stopped = none) ∧
    (0 < diesOf wRot1Stop ∧ coreHeld wRot1Stop 0 = false ∧ rotOf wRot1Stop 0 = 1 ∧ ((copyReads 0 ((numberOf
      wRot1Stop 0 (wRot1Stop.rd (R.BUF_STAT_test_bank 0))).getD 63) ([]) wRot1Stop).buf 0).retireAfter = false ∧
      ((copyReads 0 ((numberOf wRot1Stop 0 (wRot1Stop.rd (R.BUF_STAT_test_bank 0))).getD 63) ([]) wRot1Stop).buf
      0).stopped = some (5, 1)) ∧
    (wRot2.draw = ((wRot2.draw.1), (wRot2.draw.2)) ∧ (wRot2.draw.2).draw = ((wRot2.draw.2.draw.1),
      (wRot2.draw.2.draw.2)) ∧ 0 < diesOf wRot2 ∧ coreHeld wRot2 0 = false ∧ rotOf wRot2 0 = 2 ∧ (wRot2.buf
      0).standIn ≠ 63) ∧
    (0 < diesOf wRot2 ∧ coreHeld wRot2 0 = false ∧ rotOf wRot2 0 = 2 ∧ (rowsFound ([])) = [] ∧ (wRot2.buf
      0).returning = false ∧ (wRot2.buf 0).standIn ≠ 63) ∧
    (0 < diesOf wRot2By ∧ coreHeld wRot2By 0 = false ∧ rotOf wRot2By 0 = 2 ∧ (rowsFound ([])) = [] ∧ (wRot2By.buf
      0).returning = false ∧ (wRot2By.buf 0).standIn = 63) ∧
    (0 < diesOf wRot2Ret ∧ coreHeld wRot2Ret 0 = false ∧ rotOf wRot2Ret 0 = 2 ∧ (rowsFound ([])) = [] ∧
      (wRot2Ret.buf 0).returning = true) ∧
    (0 < diesOf wRot2 ∧ coreHeld wRot2 0 = false ∧ rotOf wRot2 0 = 2 ∧ (rowsFound ([7])) ≠ [] ∧ (rowsFound
      ([7])).length + wRot2.rd (R.BANK_STAT_rows 0 (wRot2.rd (R.BUF_STAT_test_bank 0))) ≤ 4 ∧ (wRot2.buf
      0).returning = false ∧ (wRot2.buf 0).standIn ≠ 63) ∧
    (0 < diesOf wRot2 ∧ coreHeld wRot2 0 = false ∧ rotOf wRot2 0 = 2 ∧ (rowsFound ([1, 2, 3, 4, 5])) ≠ [] ∧ 4 <
      (rowsFound ([1, 2, 3, 4, 5])).length + wRot2.rd (R.BANK_STAT_rows 0 (wRot2.rd (R.BUF_STAT_test_bank 0))) ∧
      (wRot2.buf 0).returning = false) ∧
    (0 < diesOf wRot2Ret ∧ coreHeld wRot2Ret 0 = false ∧ rotOf wRot2Ret 0 = 2 ∧ (rowsFound ([1, 2, 3, 4, 5])) ≠ [] ∧
      4 < (rowsFound ([1, 2, 3, 4, 5])).length + wRot2Ret.rd (R.BANK_STAT_rows 0 (wRot2Ret.rd (R.BUF_STAT_test_bank
      0))) ∧ (wRot2Ret.buf 0).returning = true) ∧
    (0 < diesOf wRot3 ∧ coreHeld wRot3 0 = false ∧ rotOf wRot3 0 = 3) ∧
    (0 < diesOf wRot4 ∧ coreHeld wRot4 0 = false ∧ rotOf wRot4 0 = 4 ∧ numberOf wRot4 0 (wRot4.rd
      (R.BUF_STAT_test_bank 0)) = some 3 ∧ liveSlots (((liveSlots (copyReads 0 3 ([]) wRot4) 0 3).foldl (fun zs r =>
      moveSlot 3 r zs) (copyReads 0 3 ([]) wRot4))) 0 3 = []) ∧
    (0 < diesOf wRot4Full ∧ coreHeld wRot4Full 0 = false ∧ rotOf wRot4Full 0 = 4 ∧ numberOf wRot4Full 0
      (wRot4Full.rd (R.BUF_STAT_test_bank 0)) = some 3 ∧ liveSlots (((liveSlots (copyReads 0 3 ([]) wRot4Full) 0
      3).foldl (fun zs r => moveSlot 3 r zs) (copyReads 0 3 ([]) wRot4Full))) 0 3 ≠ []) := ⟨⟨by decide +kernel, by decide +kernel, by decide +kernel, by decide +kernel, ⟨_, rfl⟩, by decide +kernel, by decide +kernel, ⟨_, rfl⟩⟩, ⟨by decide +kernel, by decide +kernel, by decide +kernel, by decide +kernel, ⟨_, rfl⟩, by decide +kernel, by decide +kernel, by decide +kernel⟩, ⟨by decide +kernel, by decide +kernel, by decide +kernel, by decide +kernel, ⟨_, rfl⟩, by decide +kernel, by decide +kernel⟩, ⟨by decide +kernel, by decide +kernel, by decide +kernel, by decide +kernel, ⟨_, rfl⟩, by decide +kernel⟩, ⟨by decide +kernel, by decide +kernel, by decide +kernel⟩, ⟨by decide +kernel, by decide +kernel, by decide +kernel, by decide +kernel⟩, ⟨by decide +kernel, by decide +kernel, by decide +kernel, by decide +kernel, by decide +kernel⟩, ⟨by decide +kernel, by decide +kernel, by decide +kernel, by decide +kernel, by decide +kernel⟩, ⟨by decide +kernel, by decide +kernel, by decide +kernel, by decide +kernel, by decide +kernel, by decide +kernel⟩, ⟨by decide +kernel, by decide +kernel, by decide +kernel, by decide +kernel, by decide +kernel, by decide +kernel⟩, ⟨by decide +kernel, by decide +kernel, by decide +kernel, by decide +kernel, by decide +kernel, by decide +kernel⟩, ⟨by decide +kernel, by decide +kernel, by decide +kernel, by decide +kernel, by decide +kernel⟩, ⟨by decide +kernel, by decide +kernel, by decide +kernel, by decide +kernel, by decide +kernel, by decide +kernel, by decide +kernel⟩, ⟨by decide +kernel, by decide +kernel, by decide +kernel, by decide +kernel, by decide +kernel, by decide +kernel⟩, ⟨by decide +kernel, by decide +kernel, by decide +kernel, by decide +kernel, by decide +kernel, by decide +kernel⟩, ⟨by decide +kernel, by decide +kernel, by decide +kernel⟩, ⟨by decide +kernel, by decide +kernel, by decide +kernel, by decide +kernel, by decide +kernel⟩, ⟨by decide +kernel, by decide +kernel, by decide +kernel, by decide +kernel, by decide +kernel⟩⟩

/-- The hypotheses of BufferCommands can be met. -/
theorem witness_bufferCommands :
    (0 < diesOf wStandby ∧ pageOpen wStandby (0x38 + 0) = true ∧ wStandby.on (R.BUF_CMD_busy 0) = false ∧ 32 % 64 ≤
      32 ∧ bufCmdRefused ((wStandby.wr (R.BUF_CMD_op 0) 0).wr (R.BUF_CMD_bank 0) (32 % 64)) 0 0 (32 % 64) = false ∧
      bankState ((((wStandby.wr (R.BUF_CMD_op 0) 0).wr (R.BUF_CMD_bank 0) (32 % 64)).wr (R.BUF_CMD_refused 0) 0)) 0
      (32 % 64) = bkStandby) ∧
    (0 < diesOf wStandby ∧ pageOpen wStandby (0x38 + 0) = true ∧ wStandby.on (R.BUF_CMD_busy 0) = false ∧ 3 % 64 ≤
      32 ∧ bufCmdRefused ((wStandby.wr (R.BUF_CMD_op 0) 0).wr (R.BUF_CMD_bank 0) (3 % 64)) 0 0 (3 % 64) = false ∧
      bankState ((((wStandby.wr (R.BUF_CMD_op 0) 0).wr (R.BUF_CMD_bank 0) (3 % 64)).wr (R.BUF_CMD_refused 0) 0)) 0
      (3 % 64) ≠ bkStandby ∧ bankState (((((((wStandby.wr (R.BUF_CMD_op 0) 0).wr (R.BUF_CMD_bank 0) (3 % 64)).wr
      (R.BUF_CMD_refused 0) 0)).wr (R.BUF_CMD_busy 0) 1).putBuf 0
      { (((((wStandby.wr (R.BUF_CMD_op 0) 0).wr (R.BUF_CMD_bank 0) (3 % 64)).wr (R.BUF_CMD_refused 0) 0)).wr (R.BUF_CMD_busy 0) 1).buf 0 with retireAfter := true, returning := false, byCmd := true, stopped := none, passed := false }))
      0 (3 % 64) = bkInService) ∧
    (0 < diesOf wRetired ∧ pageOpen wRetired (0x38 + 0) = true ∧ wRetired.on (R.BUF_CMD_busy 0) = false ∧ 3 % 64 ≤
      32 ∧ bufCmdRefused ((wRetired.wr (R.BUF_CMD_op 0) 1).wr (R.BUF_CMD_bank 0) (3 % 64)) 0 1 (3 % 64) = false ∧
      limitCause (((((wRetired.wr (R.BUF_CMD_op 0) 1).wr (R.BUF_CMD_bank 0) (3 % 64)).wr (R.BUF_CMD_refused 0)
      0)).wr (R.BUF_CMD_busy 0) 1) 0 ≠ 0) ∧
    (0 < diesOf wRetiredRef ∧ pageOpen wRetiredRef (0x38 + 0) = true ∧ wRetiredRef.on (R.BUF_CMD_busy 0) = false ∧ 3
      % 64 ≤ 32 ∧ bufCmdRefused ((wRetiredRef.wr (R.BUF_CMD_op 0) 1).wr (R.BUF_CMD_bank 0) (3 % 64)) 0 1 (3 % 64) =
      false ∧ limitCause (((((wRetiredRef.wr (R.BUF_CMD_op 0) 1).wr (R.BUF_CMD_bank 0) (3 % 64)).wr
      (R.BUF_CMD_refused 0) 0)).wr (R.BUF_CMD_busy 0) 1) 0 = 0 ∧ bankState (((((wRetiredRef.wr (R.BUF_CMD_op 0)
      1).wr (R.BUF_CMD_bank 0) (3 % 64)).wr (R.BUF_CMD_refused 0) 0)).wr (R.BUF_CMD_busy 0) 1) 0 (3 % 64) =
      bkRetired ∧ bankState ((((((((wRetiredRef.wr (R.BUF_CMD_op 0) 1).wr (R.BUF_CMD_bank 0) (3 % 64)).wr
      (R.BUF_CMD_refused 0) 0)).wr (R.BUF_CMD_busy 0) 1)).putBuf 0
      { ((((((wRetiredRef.wr (R.BUF_CMD_op 0) 1).wr (R.BUF_CMD_bank 0) (3 % 64)).wr (R.BUF_CMD_refused 0) 0)).wr (R.BUF_CMD_busy 0) 1)).buf 0 with retireAfter := false, returning := true, byCmd := true, stopped := none, passed := false }))
      0 (3 % 64) = bkRetired) ∧
    (0 < diesOf wStandby ∧ pageOpen wStandby (0x38 + 0) = true ∧ wStandby.on (R.BUF_CMD_busy 0) = false ∧ 3 % 64 ≤
      32 ∧ bufCmdRefused ((wStandby.wr (R.BUF_CMD_op 0) 2).wr (R.BUF_CMD_bank 0) (3 % 64)) 0 2 (3 % 64) = false ∧
      limitCause (((((wStandby.wr (R.BUF_CMD_op 0) 2).wr (R.BUF_CMD_bank 0) (3 % 64)).wr (R.BUF_CMD_refused 0)
      0)).wr (R.BUF_CMD_busy 0) 1) 0 ≠ 0) ∧
    (0 < diesOf wStandbyRef ∧ pageOpen wStandbyRef (0x38 + 0) = true ∧ wStandbyRef.on (R.BUF_CMD_busy 0) = false ∧ 3
      % 64 ≤ 32 ∧ bufCmdRefused ((wStandbyRef.wr (R.BUF_CMD_op 0) 2).wr (R.BUF_CMD_bank 0) (3 % 64)) 0 2 (3 % 64) =
      false ∧ limitCause (((((wStandbyRef.wr (R.BUF_CMD_op 0) 2).wr (R.BUF_CMD_bank 0) (3 % 64)).wr
      (R.BUF_CMD_refused 0) 0)).wr (R.BUF_CMD_busy 0) 1) 0 = 0 ∧ (standbyOf (((((wStandbyRef.wr (R.BUF_CMD_op 0)
      2).wr (R.BUF_CMD_bank 0) (3 % 64)).wr (R.BUF_CMD_refused 0) 0)).wr (R.BUF_CMD_busy 0) 1) 0).isSome = true ∧
      bankState ((((((((wStandbyRef.wr (R.BUF_CMD_op 0) 2).wr (R.BUF_CMD_bank 0) (3 % 64)).wr (R.BUF_CMD_refused 0)
      0)).wr (R.BUF_CMD_busy 0) 1)).putBuf 0
      { ((((((wStandbyRef.wr (R.BUF_CMD_op 0) 2).wr (R.BUF_CMD_bank 0) (3 % 64)).wr (R.BUF_CMD_refused 0) 0)).wr (R.BUF_CMD_busy 0) 1)).buf 0 with retireAfter := false, returning := false, byCmd := true, stopped := none, passed := false }))
      0 (3 % 64) = bkInService) ∧
    (0 < diesOf wStandbyRef ∧ pageOpen wStandbyRef (0x38 + 0) = true ∧ wStandbyRef.on (R.BUF_CMD_busy 0) = false ∧
      32 % 64 ≤ 32 ∧ bufCmdRefused ((wStandbyRef.wr (R.BUF_CMD_op 0) 2).wr (R.BUF_CMD_bank 0) (32 % 64)) 0 2 (32 %
      64) = false ∧ limitCause (((((wStandbyRef.wr (R.BUF_CMD_op 0) 2).wr (R.BUF_CMD_bank 0) (32 % 64)).wr
      (R.BUF_CMD_refused 0) 0)).wr (R.BUF_CMD_busy 0) 1) 0 = 0 ∧ bankState (((((wStandbyRef.wr (R.BUF_CMD_op 0)
      2).wr (R.BUF_CMD_bank 0) (32 % 64)).wr (R.BUF_CMD_refused 0) 0)).wr (R.BUF_CMD_busy 0) 1) 0 (32 % 64) =
      bkStandby ∧ bankState ((((((((wStandbyRef.wr (R.BUF_CMD_op 0) 2).wr (R.BUF_CMD_bank 0) (32 % 64)).wr
      (R.BUF_CMD_refused 0) 0)).wr (R.BUF_CMD_busy 0) 1)).putBuf 0
      { ((((((wStandbyRef.wr (R.BUF_CMD_op 0) 2).wr (R.BUF_CMD_bank 0) (32 % 64)).wr (R.BUF_CMD_refused 0) 0)).wr (R.BUF_CMD_busy 0) 1)).buf 0 with retireAfter := false, returning := false, byCmd := true, stopped := none, passed := false }))
      0 (32 % 64) = bkStandby) ∧
    (0 < diesOf wRetired ∧ pageOpen wRetired (0x38 + 0) = true ∧ wRetired.on (R.BUF_CMD_busy 0) = false ∧ 3 % 64 ≤
      32 ∧ bufCmdRefused ((wRetired.wr (R.BUF_CMD_op 0) 0).wr (R.BUF_CMD_bank 0) (3 % 64)) 0 0 (3 % 64) = true) ∧
    (0 < diesOf wRun ∧ pageOpen wRun (0x38 + 0) = true ∧ wRun.on (R.BUF_CMD_busy 0) = false ∧ 3 % 64 ≤ 32 ∧
      bufCmdRefused ((wRun.wr (R.BUF_CMD_op 0) 1).wr (R.BUF_CMD_bank 0) (3 % 64)) 0 1 (3 % 64) = true) ∧
    (0 < diesOf wRetired ∧ pageOpen wRetired (0x38 + 0) = true ∧ wRetired.on (R.BUF_CMD_busy 0) = false ∧ 3 % 64 ≤
      32 ∧ bufCmdRefused ((wRetired.wr (R.BUF_CMD_op 0) 2).wr (R.BUF_CMD_bank 0) (3 % 64)) 0 2 (3 % 64) = true) ∧
    (0 < diesOf wRun ∧ pageOpen wRun (0x38 + 0) = true) ∧
    (0 < diesOf wRun ∧ pageOpen wRun (0x38 + 0) = true) ∧
    (0 < diesOf wRun ∧ pageOpen wRun (0x38 + 0) = true ∧ 5 % 65536 / 1024 ≤ 32) ∧
    (0 < diesOf wRun ∧ pageOpen wRun (0x38 + 0) = true ∧ 32 < 65535 % 65536 / 1024) := by
  refine ⟨?_, ?_, ?_, ?_, ?_, ?_, ?_, ?_, ?_, ?_, ?_, ?_, ?_, ?_⟩ <;> decide +kernel

/-- The hypotheses of BoardTableAndFlash can be met. -/
theorem witness_boardTableAndFlash :
    (pageOpen wRun 0xE = true ∧ wRun.on R.BT_CMD_busy = false ∧ inRun wRun = true ∧ wRun.on R.FC_CTL_busy = false) ∧
    (pageOpen wFcBusy 0xE = true ∧ wFcBusy.on R.BT_CMD_busy = false ∧ (inRun wFcBusy = false ∨ wFcBusy.on
      R.FC_CTL_busy = true)) ∧
    (wLoading.on R.BT_STAT_loading = true) ∧
    (pageOpen wFlash 0xE = true ∧ bits 0x4009F 22 16 ≤ 64 ∧ bits 0x4009F 9 8 < 2 ∧ (([(R.FC_CTL_len, bits 0x4009F 22
      16), (R.FC_CTL_quad, bits 0x4009F 15 15), (R.FC_CTL_dir, bits 0x4009F 14 14), (R.FC_CTL_dummy, bits 0x4009F 13
      10), (R.FC_CTL_addr_bytes, bits 0x4009F 9 8), (R.FC_CTL_opcode, bits 0x4009F 7 0)].foldl (fun zs p => zs.wr
      p.1 p.2) wFlash)).on R.FC_CTL_busy = false ∧ (([(R.FC_CTL_len, bits 0x4009F 22 16), (R.FC_CTL_quad, bits
      0x4009F 15 15), (R.FC_CTL_dir, bits 0x4009F 14 14), (R.FC_CTL_dummy, bits 0x4009F 13 10),
      (R.FC_CTL_addr_bytes, bits 0x4009F 9 8), (R.FC_CTL_opcode, bits 0x4009F 7 0)].foldl (fun zs p => zs.wr p.1
      p.2) wFlash)).on R.BT_CMD_busy = false ∧ inRun (([(R.FC_CTL_len, bits 0x4009F 22 16), (R.FC_CTL_quad, bits
      0x4009F 15 15), (R.FC_CTL_dir, bits 0x4009F 14 14), (R.FC_CTL_dummy, bits 0x4009F 13 10),
      (R.FC_CTL_addr_bytes, bits 0x4009F 9 8), (R.FC_CTL_opcode, bits 0x4009F 7 0)].foldl (fun zs p => zs.wr p.1
      p.2) wFlash)) = true) ∧
    (pageOpen (put [(R.BT_CMD_busy, 1)] wFlash) 0xE = true ∧ bits 0x4009F 22 16 ≤ 64 ∧ bits 0x4009F 9 8 < 2 ∧
      (([(R.FC_CTL_len, bits 0x4009F 22 16), (R.FC_CTL_quad, bits 0x4009F 15 15), (R.FC_CTL_dir, bits 0x4009F 14
      14), (R.FC_CTL_dummy, bits 0x4009F 13 10), (R.FC_CTL_addr_bytes, bits 0x4009F 9 8), (R.FC_CTL_opcode, bits
      0x4009F 7 0)].foldl (fun zs p => zs.wr p.1 p.2) (put [(R.BT_CMD_busy, 1)] wFlash))).on R.FC_CTL_busy = false ∧
      ((([(R.FC_CTL_len, bits 0x4009F 22 16), (R.FC_CTL_quad, bits 0x4009F 15 15), (R.FC_CTL_dir, bits 0x4009F 14
      14), (R.FC_CTL_dummy, bits 0x4009F 13 10), (R.FC_CTL_addr_bytes, bits 0x4009F 9 8), (R.FC_CTL_opcode, bits
      0x4009F 7 0)].foldl (fun zs p => zs.wr p.1 p.2) (put [(R.BT_CMD_busy, 1)] wFlash))).on R.BT_CMD_busy = true ∨
      inRun (([(R.FC_CTL_len, bits 0x4009F 22 16), (R.FC_CTL_quad, bits 0x4009F 15 15), (R.FC_CTL_dir, bits 0x4009F
      14 14), (R.FC_CTL_dummy, bits 0x4009F 13 10), (R.FC_CTL_addr_bytes, bits 0x4009F 9 8), (R.FC_CTL_opcode, bits
      0x4009F 7 0)].foldl (fun zs p => zs.wr p.1 p.2) (put [(R.BT_CMD_busy, 1)] wFlash))) = false)) ∧
    (pageOpen wFlash 0xE = true ∧ (64 < bits 0x4029F 22 16 ∨ 2 ≤ bits 0x4029F 9 8) ∧ wFlash.on R.FC_CTL_busy =
      false) ∧
    (wFcBusy.on R.FC_CTL_busy = true ∧ bit wFcBusy.bt.fc 14 = false) ∧
    (wFcWrite.on R.FC_CTL_busy = true ∧ bit wFcWrite.bt.fc 14 = true) := by
  refine ⟨?_, ?_, ?_, ?_, ?_, ?_, ?_, ?_⟩ <;> decide +kernel

/-- The hypotheses of PrickingCommands can be met. -/
theorem witness_prickingCommands :
    (pageOpen wRun 0xC = true ∧ wRun.on R.PRK_CMD_busy = false) ∧
    (pageOpen wRun 0xC = true ∧ wRun.on R.PRK_CMD_busy = false) ∧
    (pageOpen wRun 0xC = true ∧ wRun.on R.PRK_CMD_busy = false) ∧
    (0 < linksOf wRun ∧ pageOpen wRun (0x40 + 0) = true ∧ wRun.on R.PRK_CMD_busy = false) ∧
    (pageOpen wPrkBusy 0xC = true ∧ wPrkBusy.on R.PRK_CMD_busy = true) ∧
    (pageOpen wPrkBusy 0xC = true ∧ wPrkBusy.on R.PRK_CMD_busy = true) ∧
    (pageOpen wPrkBusy 0xC = true ∧ wPrkBusy.on R.PRK_CMD_busy = true) ∧
    (0 < linksOf wPrkBusy ∧ pageOpen wPrkBusy (0x40 + 0) = true ∧ wPrkBusy.on R.PRK_CMD_busy = true) ∧
    (wPrk.prk.busy = true ∧ wPrk.prk.applyAt = none ∧ inService wPrk = true ∧ wPrk.prk.origin < 2 ∧
      wPrk.prk.verdict.getD 0 0 = 1 ∧ wPrk.prk.checkOnly = false) ∧
    (wPrkBad.prk.busy = true ∧ wPrkBad.prk.applyAt = none ∧ inService wPrkBad = true ∧ wPrkBad.prk.origin < 2 ∧
      wPrkBad.prk.verdict.getD 0 0 ≠ 1 ∧ wPrkBad.prk.heldRecheck = false) ∧
    (wPrkOnly.prk.busy = true ∧ wPrkOnly.prk.applyAt = none ∧ inService wPrkOnly = true ∧ wPrkOnly.prk.origin < 2 ∧
      wPrkOnly.prk.verdict.getD 0 0 = 1 ∧ wPrkOnly.prk.checkOnly = true ∧ wPrkOnly.prk.heldRecheck = false) ∧
    (wPrkRe.prk.busy = true ∧ wPrkRe.prk.applyAt = none ∧ inService wPrkRe = true ∧ wPrkRe.prk.origin = 2 ∧
      wPrkRe.prk.verdict.getD 0 0 = 1 ∧ (prkReport wPrkRe.prk.verdict false (proofWrite (wPrkRe.wr R.PRK_TIME_us
      (min ((wPrkRe.clock - wPrkRe.prk.startedAt) / 1000) 0xFFFF)))).prk.origin = 2 ∧ (prkReport wPrkRe.prk.verdict
      false (proofWrite (wPrkRe.wr R.PRK_TIME_us (min ((wPrkRe.clock - wPrkRe.prk.startedAt) / 1000)
      0xFFFF)))).prk.heldRecheck = false) ∧
    (wPrkReBad.prk.busy = true ∧ wPrkReBad.prk.applyAt = none ∧ inService wPrkReBad = true ∧ wPrkReBad.prk.origin =
      2 ∧ wPrkReBad.prk.verdict.getD 0 0 ≠ 1 ∧ (prkReport wPrkReBad.prk.verdict false (recheckFails
      wPrkReBad.prk.verdict (wPrkReBad.wr R.PRK_TIME_us (min ((wPrkReBad.clock - wPrkReBad.prk.startedAt) / 1000)
      0xFFFF)))).prk.origin = 2 ∧ (prkReport wPrkReBad.prk.verdict false (recheckFails wPrkReBad.prk.verdict
      (wPrkReBad.wr R.PRK_TIME_us (min ((wPrkReBad.clock - wPrkReBad.prk.startedAt) / 1000)
      0xFFFF)))).prk.heldRecheck = false) ∧
    (wPrkBadHeld.prk.busy = true ∧ wPrkBadHeld.prk.applyAt = none ∧ inService wPrkBadHeld = true ∧
      wPrkBadHeld.prk.origin < 2 ∧ wPrkBadHeld.prk.verdict.getD 0 0 ≠ 1 ∧ wPrkBadHeld.prk.heldRecheck = true) ∧
    (wPrkOut.prk.busy = true ∧ wPrkOut.prk.applyAt = none ∧ inService wPrkOut = false) ∧
    (wApply.prk.applyAt = some 0 ∧ 0 ≤ wApply.fab ∧ inService wApply = true) ∧
    (wApplyOut.prk.applyAt = some 0 ∧ 0 ≤ wApplyOut.fab ∧ inService wApplyOut = false) ∧
    (wRun.dev.phase ≠ .off ∧ wRun.dev.phase ≠ .start ∧ wRun.prk.busy = false) ∧
    (wPrk.dev.phase ≠ .off ∧ wPrk.dev.phase ≠ .start ∧ wPrk.prk.busy = true) ∧
    ((wStart.dev.phase = .off ∨ wStart.dev.phase = .start)) := by
  refine ⟨?_, ?_, ?_, ?_, ?_, ?_, ?_, ?_, ?_, ?_, ?_, ?_, ?_, ?_, ?_, ?_, ?_, ?_, ?_, ?_⟩ <;> decide +kernel

/-- The hypotheses of MapCommands can be met. -/
theorem witness_mapCommands :
    (0 < 2 * linksOf wUp ∧ pageOpen wUp 0xD = true ∧ wUp.on (R.SIDE_MAP_valid 0) = true ∧ bit 0 31 = false ∧ modeOf
      wUp (0 / 2) ≠ 0) ∧
    (0 < 2 * linksOf (put [(R.SIDE_MAP_valid 0, 1)] wRun) ∧ pageOpen (put [(R.SIDE_MAP_valid 0, 1)] wRun) 0xD = true
      ∧ (put [(R.SIDE_MAP_valid 0, 1)] wRun).on (R.SIDE_MAP_valid 0) = true ∧ bit 0 31 = false ∧ modeOf (put
      [(R.SIDE_MAP_valid 0, 1)] wRun) (0 / 2) = 0) ∧
    (0 < 2 * linksOf wRun ∧ pageOpen wRun 0xD = true ∧ wRun.on (R.SIDE_MAP_valid 0) = false ∧ bit 0xC0000000 31 =
      true ∧ modeOf (genUp 0 ((((wRun).wrB (R.SIDE_MAP_valid 0) (bit 0xC0000000 31)).wrB (R.SIDE_MAP_hint 0) (bit
      0xC0000000 30)).wr (R.SIDE_MAP_base 0) (0xC0000000 % 128))) (0 / 2) = 0) ∧
    (0 < 2 * linksOf (put [(R.SIDE_MAP_valid 0, 0)] wDown) ∧ pageOpen (put [(R.SIDE_MAP_valid 0, 0)] wDown) 0xD =
      true ∧ (put [(R.SIDE_MAP_valid 0, 0)] wDown).on (R.SIDE_MAP_valid 0) = false ∧ bit 0xC0000000 31 = true ∧
      modeOf (genUp 0 (((((put [(R.SIDE_MAP_valid 0, 0)] wDown)).wrB (R.SIDE_MAP_valid 0) (bit 0xC0000000 31)).wrB
      (R.SIDE_MAP_hint 0) (bit 0xC0000000 30)).wr (R.SIDE_MAP_base 0) (0xC0000000 % 128))) (0 / 2) ≠ 0) ∧
    (0 < 2 * linksOf wRun ∧ pageOpen wRun 0xD = true ∧ wRun.on (R.SIDE_MAP_valid 0) = bit 5 31 ∧ ((((((wRun).wrB
      (R.SIDE_MAP_valid 0) (bit 5 31)).wrB (R.SIDE_MAP_hint 0) (bit 5 30)).wr (R.SIDE_MAP_base 0) (5 % 128))).on
      (R.SIDE_MAP_valid 0) = false ∨ mapNamed wRun (0 / 2) (Side.ofIdx (0 % 2)) = mapNamed (((((wRun).wrB
      (R.SIDE_MAP_valid 0) (bit 5 31)).wrB (R.SIDE_MAP_hint 0) (bit 5 30)).wr (R.SIDE_MAP_base 0) (5 % 128))) (0 /
      2) (Side.ofIdx (0 % 2)))) ∧
    (0 < 2 * linksOf wUp ∧ pageOpen wUp 0xD = true ∧ wUp.on (R.SIDE_MAP_valid 0) = bit 0xC0000008 31 ∧ (((((wUp).wrB
      (R.SIDE_MAP_valid 0) (bit 0xC0000008 31)).wrB (R.SIDE_MAP_hint 0) (bit 0xC0000008 30)).wr (R.SIDE_MAP_base 0)
      (0xC0000008 % 128))).on (R.SIDE_MAP_valid 0) = true ∧ mapNamed wUp (0 / 2) (Side.ofIdx (0 % 2)) ≠ mapNamed
      (((((wUp).wrB (R.SIDE_MAP_valid 0) (bit 0xC0000008 31)).wrB (R.SIDE_MAP_hint 0) (bit 0xC0000008 30)).wr
      (R.SIDE_MAP_base 0) (0xC0000008 % 128))) (0 / 2) (Side.ofIdx (0 % 2)) ∧ modeOf (((((wUp).wrB (R.SIDE_MAP_valid
      0) (bit 0xC0000008 31)).wrB (R.SIDE_MAP_hint 0) (bit 0xC0000008 30)).wr (R.SIDE_MAP_base 0) (0xC0000008 %
      128))) (0 / 2) ≠ 0) ∧
    (0 < lanesOf wRun ∧ pageOpen wRun 0xD = true) ∧
    (0 < 2 * linksOf (wLate wDraining) ∧ passed ((wLate wDraining).map 0).drainUntil 0 (wLate wDraining).fab = true)
      ∧
    (0 < 2 * linksOf (wTornOf wTransNoSd) ∧ passed ((wTornOf wTransNoSd).map 0).tornUntil 0 (wTornOf wTransNoSd).fab
      = true ∧ modeOf (((((sideLanes (wTornOf wTransNoSd) (0 / 2) (Side.ofIdx (0 % 2))).map
      laneCluster).eraseDups).foldl (fun zs c => bobRelease c (bobFinish c zs)) (((((sideLanes (wTornOf wTransNoSd)
      (0 / 2) (Side.ofIdx (0 % 2))).filter (fun n => !(sideLanes (syncMapStat ((wTornOf wTransNoSd).putMap 0
      { drainUntil := ((wTornOf wTransNoSd).map 0).drainUntil })) (0 / 2) (Side.ofIdx (0 % 2))).contains n))).foldl
      (fun zs n => acqCancel n (Side.ofIdx (0 % 2)) (adaptLeaves n (Side.ofIdx (0 % 2)) zs)) (lanesLeave (0 / 2)
      (Side.ofIdx (0 % 2)) (((sideLanes (wTornOf wTransNoSd) (0 / 2) (Side.ofIdx (0 % 2))).filter (fun n =>
      !(sideLanes (syncMapStat ((wTornOf wTransNoSd).putMap 0
      { drainUntil := ((wTornOf wTransNoSd).map 0).drainUntil })) (0 / 2) (Side.ofIdx (0 % 2))).contains n)))
      (syncMapStat ((wTornOf wTransNoSd).putMap 0 { drainUntil := ((wTornOf wTransNoSd).map 0).drainUntil })))))))
      (0 / 2) = mTransparent) ∧
    (0 < 2 * linksOf (wLate wTorn) ∧ passed ((wLate wTorn).map 0).tornUntil 0 (wLate wTorn).fab = true ∧ modeOf
      (((((sideLanes (wLate wTorn) (0 / 2) (Side.ofIdx (0 % 2))).map laneCluster).eraseDups).foldl (fun zs c =>
      bobRelease c (bobFinish c zs)) (((((sideLanes (wLate wTorn) (0 / 2) (Side.ofIdx (0 % 2))).filter (fun n =>
      !(sideLanes (syncMapStat ((wLate wTorn).putMap 0 { drainUntil := ((wLate wTorn).map 0).drainUntil })) (0 / 2)
      (Side.ofIdx (0 % 2))).contains n))).foldl (fun zs n => acqCancel n (Side.ofIdx (0 % 2)) (adaptLeaves n
      (Side.ofIdx (0 % 2)) zs)) (lanesLeave (0 / 2) (Side.ofIdx (0 % 2)) (((sideLanes (wLate wTorn) (0 / 2)
      (Side.ofIdx (0 % 2))).filter (fun n => !(sideLanes (syncMapStat ((wLate wTorn).putMap 0
      { drainUntil := ((wLate wTorn).map 0).drainUntil })) (0 / 2) (Side.ofIdx (0 % 2))).contains n))) (syncMapStat
      ((wLate wTorn).putMap 0 { drainUntil := ((wLate wTorn).map 0).drainUntil }))))))) (0 / 2) ≠ mTransparent ∧
      spanState (((((sideLanes (wLate wTorn) (0 / 2) (Side.ofIdx (0 % 2))).map laneCluster).eraseDups).foldl (fun zs
      c => bobRelease c (bobFinish c zs)) (((((sideLanes (wLate wTorn) (0 / 2) (Side.ofIdx (0 % 2))).filter (fun n
      => !(sideLanes (syncMapStat ((wLate wTorn).putMap 0 { drainUntil := ((wLate wTorn).map 0).drainUntil })) (0 /
      2) (Side.ofIdx (0 % 2))).contains n))).foldl (fun zs n => acqCancel n (Side.ofIdx (0 % 2)) (adaptLeaves n
      (Side.ofIdx (0 % 2)) zs)) (lanesLeave (0 / 2) (Side.ofIdx (0 % 2)) (((sideLanes (wLate wTorn) (0 / 2)
      (Side.ofIdx (0 % 2))).filter (fun n => !(sideLanes (syncMapStat ((wLate wTorn).putMap 0
      { drainUntil := ((wLate wTorn).map 0).drainUntil })) (0 / 2) (Side.ofIdx (0 % 2))).contains n))) (syncMapStat
      ((wLate wTorn).putMap 0 { drainUntil := ((wLate wTorn).map 0).drainUntil }))))))) (0 / 2) (Side.ofIdx (0 % 2))
      = spIdle) ∧
    (0 < 2 * linksOf (wTornOf wDown) ∧ passed ((wTornOf wDown).map 0).tornUntil 0 (wTornOf wDown).fab = true ∧
      modeOf (((((sideLanes (wTornOf wDown) (0 / 2) (Side.ofIdx (0 % 2))).map laneCluster).eraseDups).foldl (fun zs
      c => bobRelease c (bobFinish c zs)) (((((sideLanes (wTornOf wDown) (0 / 2) (Side.ofIdx (0 % 2))).filter (fun n
      => !(sideLanes (syncMapStat ((wTornOf wDown).putMap 0 { drainUntil := ((wTornOf wDown).map 0).drainUntil }))
      (0 / 2) (Side.ofIdx (0 % 2))).contains n))).foldl (fun zs n => acqCancel n (Side.ofIdx (0 % 2)) (adaptLeaves n
      (Side.ofIdx (0 % 2)) zs)) (lanesLeave (0 / 2) (Side.ofIdx (0 % 2)) (((sideLanes (wTornOf wDown) (0 / 2)
      (Side.ofIdx (0 % 2))).filter (fun n => !(sideLanes (syncMapStat ((wTornOf wDown).putMap 0
      { drainUntil := ((wTornOf wDown).map 0).drainUntil })) (0 / 2) (Side.ofIdx (0 % 2))).contains n)))
      (syncMapStat ((wTornOf wDown).putMap 0 { drainUntil := ((wTornOf wDown).map 0).drainUntil }))))))) (0 / 2) ≠
      mTransparent ∧ spanState (((((sideLanes (wTornOf wDown) (0 / 2) (Side.ofIdx (0 % 2))).map
      laneCluster).eraseDups).foldl (fun zs c => bobRelease c (bobFinish c zs)) (((((sideLanes (wTornOf wDown) (0 /
      2) (Side.ofIdx (0 % 2))).filter (fun n => !(sideLanes (syncMapStat ((wTornOf wDown).putMap 0
      { drainUntil := ((wTornOf wDown).map 0).drainUntil })) (0 / 2) (Side.ofIdx (0 % 2))).contains n))).foldl (fun
      zs n => acqCancel n (Side.ofIdx (0 % 2)) (adaptLeaves n (Side.ofIdx (0 % 2)) zs)) (lanesLeave (0 / 2)
      (Side.ofIdx (0 % 2)) (((sideLanes (wTornOf wDown) (0 / 2) (Side.ofIdx (0 % 2))).filter (fun n => !(sideLanes
      (syncMapStat ((wTornOf wDown).putMap 0 { drainUntil := ((wTornOf wDown).map 0).drainUntil })) (0 / 2)
      (Side.ofIdx (0 % 2))).contains n))) (syncMapStat ((wTornOf wDown).putMap 0
      { drainUntil := ((wTornOf wDown).map 0).drainUntil }))))))) (0 / 2) (Side.ofIdx (0 % 2)) = spDown) ∧
    (0 < 2 * linksOf (wTornOf (put [(R.LANE_POS_valid 0 0, 0), (R.SIDE_MAP_hint 0, 0)] wUp)) ∧ passed ((wTornOf (put
      [(R.LANE_POS_valid 0 0, 0), (R.SIDE_MAP_hint 0, 0)] wUp)).map 0).tornUntil 0 (wTornOf (put [(R.LANE_POS_valid
      0 0, 0), (R.SIDE_MAP_hint 0, 0)] wUp)).fab = true ∧ modeOf (((((sideLanes (wTornOf (put [(R.LANE_POS_valid 0
      0, 0), (R.SIDE_MAP_hint 0, 0)] wUp)) (0 / 2) (Side.ofIdx (0 % 2))).map laneCluster).eraseDups).foldl (fun zs c
      => bobRelease c (bobFinish c zs)) (((((sideLanes (wTornOf (put [(R.LANE_POS_valid 0 0, 0), (R.SIDE_MAP_hint 0,
      0)] wUp)) (0 / 2) (Side.ofIdx (0 % 2))).filter (fun n => !(sideLanes (syncMapStat ((wTornOf (put
      [(R.LANE_POS_valid 0 0, 0), (R.SIDE_MAP_hint 0, 0)] wUp)).putMap 0
      { drainUntil := ((wTornOf (put [(R.LANE_POS_valid 0 0, 0), (R.SIDE_MAP_hint 0, 0)] wUp)).map 0).drainUntil }))
      (0 / 2) (Side.ofIdx (0 % 2))).contains n))).foldl (fun zs n => acqCancel n (Side.ofIdx (0 % 2)) (adaptLeaves n
      (Side.ofIdx (0 % 2)) zs)) (lanesLeave (0 / 2) (Side.ofIdx (0 % 2)) (((sideLanes (wTornOf (put
      [(R.LANE_POS_valid 0 0, 0), (R.SIDE_MAP_hint 0, 0)] wUp)) (0 / 2) (Side.ofIdx (0 % 2))).filter (fun n =>
      !(sideLanes (syncMapStat ((wTornOf (put [(R.LANE_POS_valid 0 0, 0), (R.SIDE_MAP_hint 0, 0)] wUp)).putMap 0
      { drainUntil := ((wTornOf (put [(R.LANE_POS_valid 0 0, 0), (R.SIDE_MAP_hint 0, 0)] wUp)).map 0).drainUntil }))
      (0 / 2) (Side.ofIdx (0 % 2))).contains n))) (syncMapStat ((wTornOf (put [(R.LANE_POS_valid 0 0, 0),
      (R.SIDE_MAP_hint 0, 0)] wUp)).putMap 0
      { drainUntil := ((wTornOf (put [(R.LANE_POS_valid 0 0, 0), (R.SIDE_MAP_hint 0, 0)] wUp)).map 0).drainUntil })))))))
      (0 / 2) ≠ mTransparent ∧ spanState (((((sideLanes (wTornOf (put [(R.LANE_POS_valid 0 0, 0), (R.SIDE_MAP_hint
      0, 0)] wUp)) (0 / 2) (Side.ofIdx (0 % 2))).map laneCluster).eraseDups).foldl (fun zs c => bobRelease c
      (bobFinish c zs)) (((((sideLanes (wTornOf (put [(R.LANE_POS_valid 0 0, 0), (R.SIDE_MAP_hint 0, 0)] wUp)) (0 /
      2) (Side.ofIdx (0 % 2))).filter (fun n => !(sideLanes (syncMapStat ((wTornOf (put [(R.LANE_POS_valid 0 0, 0),
      (R.SIDE_MAP_hint 0, 0)] wUp)).putMap 0
      { drainUntil := ((wTornOf (put [(R.LANE_POS_valid 0 0, 0), (R.SIDE_MAP_hint 0, 0)] wUp)).map 0).drainUntil }))
      (0 / 2) (Side.ofIdx (0 % 2))).contains n))).foldl (fun zs n => acqCancel n (Side.ofIdx (0 % 2)) (adaptLeaves n
      (Side.ofIdx (0 % 2)) zs)) (lanesLeave (0 / 2) (Side.ofIdx (0 % 2)) (((sideLanes (wTornOf (put
      [(R.LANE_POS_valid 0 0, 0), (R.SIDE_MAP_hint 0, 0)] wUp)) (0 / 2) (Side.ofIdx (0 % 2))).filter (fun n =>
      !(sideLanes (syncMapStat ((wTornOf (put [(R.LANE_POS_valid 0 0, 0), (R.SIDE_MAP_hint 0, 0)] wUp)).putMap 0
      { drainUntil := ((wTornOf (put [(R.LANE_POS_valid 0 0, 0), (R.SIDE_MAP_hint 0, 0)] wUp)).map 0).drainUntil }))
      (0 / 2) (Side.ofIdx (0 % 2))).contains n))) (syncMapStat ((wTornOf (put [(R.LANE_POS_valid 0 0, 0),
      (R.SIDE_MAP_hint 0, 0)] wUp)).putMap 0
      { drainUntil := ((wTornOf (put [(R.LANE_POS_valid 0 0, 0), (R.SIDE_MAP_hint 0, 0)] wUp)).map 0).drainUntil })))))))
      (0 / 2) (Side.ofIdx (0 % 2)) ≠ spIdle ∧ spanState (((((sideLanes (wTornOf (put [(R.LANE_POS_valid 0 0, 0),
      (R.SIDE_MAP_hint 0, 0)] wUp)) (0 / 2) (Side.ofIdx (0 % 2))).map laneCluster).eraseDups).foldl (fun zs c =>
      bobRelease c (bobFinish c zs)) (((((sideLanes (wTornOf (put [(R.LANE_POS_valid 0 0, 0), (R.SIDE_MAP_hint 0,
      0)] wUp)) (0 / 2) (Side.ofIdx (0 % 2))).filter (fun n => !(sideLanes (syncMapStat ((wTornOf (put
      [(R.LANE_POS_valid 0 0, 0), (R.SIDE_MAP_hint 0, 0)] wUp)).putMap 0
      { drainUntil := ((wTornOf (put [(R.LANE_POS_valid 0 0, 0), (R.SIDE_MAP_hint 0, 0)] wUp)).map 0).drainUntil }))
      (0 / 2) (Side.ofIdx (0 % 2))).contains n))).foldl (fun zs n => acqCancel n (Side.ofIdx (0 % 2)) (adaptLeaves n
      (Side.ofIdx (0 % 2)) zs)) (lanesLeave (0 / 2) (Side.ofIdx (0 % 2)) (((sideLanes (wTornOf (put
      [(R.LANE_POS_valid 0 0, 0), (R.SIDE_MAP_hint 0, 0)] wUp)) (0 / 2) (Side.ofIdx (0 % 2))).filter (fun n =>
      !(sideLanes (syncMapStat ((wTornOf (put [(R.LANE_POS_valid 0 0, 0), (R.SIDE_MAP_hint 0, 0)] wUp)).putMap 0
      { drainUntil := ((wTornOf (put [(R.LANE_POS_valid 0 0, 0), (R.SIDE_MAP_hint 0, 0)] wUp)).map 0).drainUntil }))
      (0 / 2) (Side.ofIdx (0 % 2))).contains n))) (syncMapStat ((wTornOf (put [(R.LANE_POS_valid 0 0, 0),
      (R.SIDE_MAP_hint 0, 0)] wUp)).putMap 0
      { drainUntil := ((wTornOf (put [(R.LANE_POS_valid 0 0, 0), (R.SIDE_MAP_hint 0, 0)] wUp)).map 0).drainUntil })))))))
      (0 / 2) (Side.ofIdx (0 % 2)) ≠ spDown ∧ liveMapBad (((((sideLanes (wTornOf (put [(R.LANE_POS_valid 0 0, 0),
      (R.SIDE_MAP_hint 0, 0)] wUp)) (0 / 2) (Side.ofIdx (0 % 2))).map laneCluster).eraseDups).foldl (fun zs c =>
      bobRelease c (bobFinish c zs)) (((((sideLanes (wTornOf (put [(R.LANE_POS_valid 0 0, 0), (R.SIDE_MAP_hint 0,
      0)] wUp)) (0 / 2) (Side.ofIdx (0 % 2))).filter (fun n => !(sideLanes (syncMapStat ((wTornOf (put
      [(R.LANE_POS_valid 0 0, 0), (R.SIDE_MAP_hint 0, 0)] wUp)).putMap 0
      { drainUntil := ((wTornOf (put [(R.LANE_POS_valid 0 0, 0), (R.SIDE_MAP_hint 0, 0)] wUp)).map 0).drainUntil }))
      (0 / 2) (Side.ofIdx (0 % 2))).contains n))).foldl (fun zs n => acqCancel n (Side.ofIdx (0 % 2)) (adaptLeaves n
      (Side.ofIdx (0 % 2)) zs)) (lanesLeave (0 / 2) (Side.ofIdx (0 % 2)) (((sideLanes (wTornOf (put
      [(R.LANE_POS_valid 0 0, 0), (R.SIDE_MAP_hint 0, 0)] wUp)) (0 / 2) (Side.ofIdx (0 % 2))).filter (fun n =>
      !(sideLanes (syncMapStat ((wTornOf (put [(R.LANE_POS_valid 0 0, 0), (R.SIDE_MAP_hint 0, 0)] wUp)).putMap 0
      { drainUntil := ((wTornOf (put [(R.LANE_POS_valid 0 0, 0), (R.SIDE_MAP_hint 0, 0)] wUp)).map 0).drainUntil }))
      (0 / 2) (Side.ofIdx (0 % 2))).contains n))) (syncMapStat ((wTornOf (put [(R.LANE_POS_valid 0 0, 0),
      (R.SIDE_MAP_hint 0, 0)] wUp)).putMap 0
      { drainUntil := ((wTornOf (put [(R.LANE_POS_valid 0 0, 0), (R.SIDE_MAP_hint 0, 0)] wUp)).map 0).drainUntil })))))))
      (0 / 2) (Side.ofIdx (0 % 2)) = true) ∧
    (0 < 2 * linksOf (wTornOf wUp) ∧ passed ((wTornOf wUp).map 0).tornUntil 0 (wTornOf wUp).fab = true ∧ modeOf
      (((((sideLanes (wTornOf wUp) (0 / 2) (Side.ofIdx (0 % 2))).map laneCluster).eraseDups).foldl (fun zs c =>
      bobRelease c (bobFinish c zs)) (((((sideLanes (wTornOf wUp) (0 / 2) (Side.ofIdx (0 % 2))).filter (fun n =>
      !(sideLanes (syncMapStat ((wTornOf wUp).putMap 0 { drainUntil := ((wTornOf wUp).map 0).drainUntil })) (0 / 2)
      (Side.ofIdx (0 % 2))).contains n))).foldl (fun zs n => acqCancel n (Side.ofIdx (0 % 2)) (adaptLeaves n
      (Side.ofIdx (0 % 2)) zs)) (lanesLeave (0 / 2) (Side.ofIdx (0 % 2)) (((sideLanes (wTornOf wUp) (0 / 2)
      (Side.ofIdx (0 % 2))).filter (fun n => !(sideLanes (syncMapStat ((wTornOf wUp).putMap 0
      { drainUntil := ((wTornOf wUp).map 0).drainUntil })) (0 / 2) (Side.ofIdx (0 % 2))).contains n))) (syncMapStat
      ((wTornOf wUp).putMap 0 { drainUntil := ((wTornOf wUp).map 0).drainUntil }))))))) (0 / 2) ≠ mTransparent ∧
      spanState (((((sideLanes (wTornOf wUp) (0 / 2) (Side.ofIdx (0 % 2))).map laneCluster).eraseDups).foldl (fun zs
      c => bobRelease c (bobFinish c zs)) (((((sideLanes (wTornOf wUp) (0 / 2) (Side.ofIdx (0 % 2))).filter (fun n
      => !(sideLanes (syncMapStat ((wTornOf wUp).putMap 0 { drainUntil := ((wTornOf wUp).map 0).drainUntil })) (0 /
      2) (Side.ofIdx (0 % 2))).contains n))).foldl (fun zs n => acqCancel n (Side.ofIdx (0 % 2)) (adaptLeaves n
      (Side.ofIdx (0 % 2)) zs)) (lanesLeave (0 / 2) (Side.ofIdx (0 % 2)) (((sideLanes (wTornOf wUp) (0 / 2)
      (Side.ofIdx (0 % 2))).filter (fun n => !(sideLanes (syncMapStat ((wTornOf wUp).putMap 0
      { drainUntil := ((wTornOf wUp).map 0).drainUntil })) (0 / 2) (Side.ofIdx (0 % 2))).contains n))) (syncMapStat
      ((wTornOf wUp).putMap 0 { drainUntil := ((wTornOf wUp).map 0).drainUntil }))))))) (0 / 2) (Side.ofIdx (0 % 2))
      = spUp ∧ liveMapBad (((((sideLanes (wTornOf wUp) (0 / 2) (Side.ofIdx (0 % 2))).map
      laneCluster).eraseDups).foldl (fun zs c => bobRelease c (bobFinish c zs)) (((((sideLanes (wTornOf wUp) (0 / 2)
      (Side.ofIdx (0 % 2))).filter (fun n => !(sideLanes (syncMapStat ((wTornOf wUp).putMap 0
      { drainUntil := ((wTornOf wUp).map 0).drainUntil })) (0 / 2) (Side.ofIdx (0 % 2))).contains n))).foldl (fun zs
      n => acqCancel n (Side.ofIdx (0 % 2)) (adaptLeaves n (Side.ofIdx (0 % 2)) zs)) (lanesLeave (0 / 2) (Side.ofIdx
      (0 % 2)) (((sideLanes (wTornOf wUp) (0 / 2) (Side.ofIdx (0 % 2))).filter (fun n => !(sideLanes (syncMapStat
      ((wTornOf wUp).putMap 0 { drainUntil := ((wTornOf wUp).map 0).drainUntil })) (0 / 2) (Side.ofIdx (0 %
      2))).contains n))) (syncMapStat ((wTornOf wUp).putMap 0
      { drainUntil := ((wTornOf wUp).map 0).drainUntil }))))))) (0 / 2) (Side.ofIdx (0 % 2)) = false) ∧
    (0 < 2 * linksOf (wTornOf wAcquire) ∧ passed ((wTornOf wAcquire).map 0).tornUntil 0 (wTornOf wAcquire).fab =
      true ∧ modeOf (((((sideLanes (wTornOf wAcquire) (0 / 2) (Side.ofIdx (0 % 2))).map
      laneCluster).eraseDups).foldl (fun zs c => bobRelease c (bobFinish c zs)) (((((sideLanes (wTornOf wAcquire) (0
      / 2) (Side.ofIdx (0 % 2))).filter (fun n => !(sideLanes (syncMapStat ((wTornOf wAcquire).putMap 0
      { drainUntil := ((wTornOf wAcquire).map 0).drainUntil })) (0 / 2) (Side.ofIdx (0 % 2))).contains n))).foldl
      (fun zs n => acqCancel n (Side.ofIdx (0 % 2)) (adaptLeaves n (Side.ofIdx (0 % 2)) zs)) (lanesLeave (0 / 2)
      (Side.ofIdx (0 % 2)) (((sideLanes (wTornOf wAcquire) (0 / 2) (Side.ofIdx (0 % 2))).filter (fun n =>
      !(sideLanes (syncMapStat ((wTornOf wAcquire).putMap 0
      { drainUntil := ((wTornOf wAcquire).map 0).drainUntil })) (0 / 2) (Side.ofIdx (0 % 2))).contains n)))
      (syncMapStat ((wTornOf wAcquire).putMap 0 { drainUntil := ((wTornOf wAcquire).map 0).drainUntil }))))))) (0 /
      2) ≠ mTransparent ∧ spanState (((((sideLanes (wTornOf wAcquire) (0 / 2) (Side.ofIdx (0 % 2))).map
      laneCluster).eraseDups).foldl (fun zs c => bobRelease c (bobFinish c zs)) (((((sideLanes (wTornOf wAcquire) (0
      / 2) (Side.ofIdx (0 % 2))).filter (fun n => !(sideLanes (syncMapStat ((wTornOf wAcquire).putMap 0
      { drainUntil := ((wTornOf wAcquire).map 0).drainUntil })) (0 / 2) (Side.ofIdx (0 % 2))).contains n))).foldl
      (fun zs n => acqCancel n (Side.ofIdx (0 % 2)) (adaptLeaves n (Side.ofIdx (0 % 2)) zs)) (lanesLeave (0 / 2)
      (Side.ofIdx (0 % 2)) (((sideLanes (wTornOf wAcquire) (0 / 2) (Side.ofIdx (0 % 2))).filter (fun n =>
      !(sideLanes (syncMapStat ((wTornOf wAcquire).putMap 0
      { drainUntil := ((wTornOf wAcquire).map 0).drainUntil })) (0 / 2) (Side.ofIdx (0 % 2))).contains n)))
      (syncMapStat ((wTornOf wAcquire).putMap 0 { drainUntil := ((wTornOf wAcquire).map 0).drainUntil }))))))) (0 /
      2) (Side.ofIdx (0 % 2)) ≠ spIdle ∧ spanState (((((sideLanes (wTornOf wAcquire) (0 / 2) (Side.ofIdx (0 %
      2))).map laneCluster).eraseDups).foldl (fun zs c => bobRelease c (bobFinish c zs)) (((((sideLanes (wTornOf
      wAcquire) (0 / 2) (Side.ofIdx (0 % 2))).filter (fun n => !(sideLanes (syncMapStat ((wTornOf wAcquire).putMap 0
      { drainUntil := ((wTornOf wAcquire).map 0).drainUntil })) (0 / 2) (Side.ofIdx (0 % 2))).contains n))).foldl
      (fun zs n => acqCancel n (Side.ofIdx (0 % 2)) (adaptLeaves n (Side.ofIdx (0 % 2)) zs)) (lanesLeave (0 / 2)
      (Side.ofIdx (0 % 2)) (((sideLanes (wTornOf wAcquire) (0 / 2) (Side.ofIdx (0 % 2))).filter (fun n =>
      !(sideLanes (syncMapStat ((wTornOf wAcquire).putMap 0
      { drainUntil := ((wTornOf wAcquire).map 0).drainUntil })) (0 / 2) (Side.ofIdx (0 % 2))).contains n)))
      (syncMapStat ((wTornOf wAcquire).putMap 0 { drainUntil := ((wTornOf wAcquire).map 0).drainUntil }))))))) (0 /
      2) (Side.ofIdx (0 % 2)) ≠ spDown ∧ liveMapBad (((((sideLanes (wTornOf wAcquire) (0 / 2) (Side.ofIdx (0 %
      2))).map laneCluster).eraseDups).foldl (fun zs c => bobRelease c (bobFinish c zs)) (((((sideLanes (wTornOf
      wAcquire) (0 / 2) (Side.ofIdx (0 % 2))).filter (fun n => !(sideLanes (syncMapStat ((wTornOf wAcquire).putMap 0
      { drainUntil := ((wTornOf wAcquire).map 0).drainUntil })) (0 / 2) (Side.ofIdx (0 % 2))).contains n))).foldl
      (fun zs n => acqCancel n (Side.ofIdx (0 % 2)) (adaptLeaves n (Side.ofIdx (0 % 2)) zs)) (lanesLeave (0 / 2)
      (Side.ofIdx (0 % 2)) (((sideLanes (wTornOf wAcquire) (0 / 2) (Side.ofIdx (0 % 2))).filter (fun n =>
      !(sideLanes (syncMapStat ((wTornOf wAcquire).putMap 0
      { drainUntil := ((wTornOf wAcquire).map 0).drainUntil })) (0 / 2) (Side.ofIdx (0 % 2))).contains n)))
      (syncMapStat ((wTornOf wAcquire).putMap 0 { drainUntil := ((wTornOf wAcquire).map 0).drainUntil }))))))) (0 /
      2) (Side.ofIdx (0 % 2)) = false ∧ spanState (((((sideLanes (wTornOf wAcquire) (0 / 2) (Side.ofIdx (0 %
      2))).map laneCluster).eraseDups).foldl (fun zs c => bobRelease c (bobFinish c zs)) (((((sideLanes (wTornOf
      wAcquire) (0 / 2) (Side.ofIdx (0 % 2))).filter (fun n => !(sideLanes (syncMapStat ((wTornOf wAcquire).putMap 0
      { drainUntil := ((wTornOf wAcquire).map 0).drainUntil })) (0 / 2) (Side.ofIdx (0 % 2))).contains n))).foldl
      (fun zs n => acqCancel n (Side.ofIdx (0 % 2)) (adaptLeaves n (Side.ofIdx (0 % 2)) zs)) (lanesLeave (0 / 2)
      (Side.ofIdx (0 % 2)) (((sideLanes (wTornOf wAcquire) (0 / 2) (Side.ofIdx (0 % 2))).filter (fun n =>
      !(sideLanes (syncMapStat ((wTornOf wAcquire).putMap 0
      { drainUntil := ((wTornOf wAcquire).map 0).drainUntil })) (0 / 2) (Side.ofIdx (0 % 2))).contains n)))
      (syncMapStat ((wTornOf wAcquire).putMap 0 { drainUntil := ((wTornOf wAcquire).map 0).drainUntil }))))))) (0 /
      2) (Side.ofIdx (0 % 2)) ≠ spUp ∧ spanRetraining (((((sideLanes (wTornOf wAcquire) (0 / 2) (Side.ofIdx (0 %
      2))).map laneCluster).eraseDups).foldl (fun zs c => bobRelease c (bobFinish c zs)) (((((sideLanes (wTornOf
      wAcquire) (0 / 2) (Side.ofIdx (0 % 2))).filter (fun n => !(sideLanes (syncMapStat ((wTornOf wAcquire).putMap 0
      { drainUntil := ((wTornOf wAcquire).map 0).drainUntil })) (0 / 2) (Side.ofIdx (0 % 2))).contains n))).foldl
      (fun zs n => acqCancel n (Side.ofIdx (0 % 2)) (adaptLeaves n (Side.ofIdx (0 % 2)) zs)) (lanesLeave (0 / 2)
      (Side.ofIdx (0 % 2)) (((sideLanes (wTornOf wAcquire) (0 / 2) (Side.ofIdx (0 % 2))).filter (fun n =>
      !(sideLanes (syncMapStat ((wTornOf wAcquire).putMap 0
      { drainUntil := ((wTornOf wAcquire).map 0).drainUntil })) (0 / 2) (Side.ofIdx (0 % 2))).contains n)))
      (syncMapStat ((wTornOf wAcquire).putMap 0 { drainUntil := ((wTornOf wAcquire).map 0).drainUntil }))))))) (0 /
      2) (Side.ofIdx (0 % 2)) = false) ∧
    (0 < clustersOf wTorn ∧ 0 < 2 * linksOf wTorn) := by
  refine ⟨?_, ?_, ?_, ?_, ?_, ?_, ?_, ?_, ?_, ?_, ?_, ?_, ?_, ?_, ?_⟩ <;> decide +kernel

/-- The hypotheses of BobbinCommands can be met. -/
theorem witness_bobbinCommands :
    (0 < clustersOf wAsked ∧ (wAsked.bob 0).asked.contains Side.a.idx = true ∧ (wAsked.bob 0).acqDone.contains
      Side.a.idx = false ∧ nextAsk ((wAsked.putBob 0
      { wAsked.bob 0 with acqDone := (wAsked.bob 0).acqDone ++ [Side.a.idx] })) 0 = none) ∧
    (0 < clustersOf wAskedTwo ∧ (wAskedTwo.bob 0).asked.contains Side.a.idx = true ∧ (wAskedTwo.bob
      0).acqDone.contains Side.a.idx = false ∧ nextAsk ((wAskedTwo.putBob 0
      { wAskedTwo.bob 0 with acqDone := (wAskedTwo.bob 0).acqDone ++ [Side.a.idx] })) 0 = some (Side.b, 0)) ∧
    (0 < clustersOf wMaySwitch ∧ maySwitch wMaySwitch 0 Side.a = true ∧ laneUse ((if (bobState wMaySwitch 0 =
      bbSwapping) && (((syncCluster 0 (bobMove 0 Side.a (bobState wMaySwitch 0 = bbSwapping) wMaySwitch)).wr
      (R.BOB_STAT_done 0 Side.a.idx) 1).bob 0).intr = Side.a.idx && !(((syncCluster 0 (bobMove 0 Side.a (bobState
      wMaySwitch 0 = bbSwapping) wMaySwitch)).wr (R.BOB_STAT_done 0 Side.a.idx) 1).bob 0).txFail then intrEnd 0
      (some ((syncCluster 0 (bobMove 0 Side.a (bobState wMaySwitch 0 = bbSwapping) wMaySwitch)).wr (R.BOB_STAT_done
      0 Side.a.idx) 1).clock) ((syncCluster 0 (bobMove 0 Side.a (bobState wMaySwitch 0 = bbSwapping) wMaySwitch)).wr
      (R.BOB_STAT_done 0 Side.a.idx) 1) else ((syncCluster 0 (bobMove 0 Side.a (bobState wMaySwitch 0 = bbSwapping)
      wMaySwitch)).wr (R.BOB_STAT_done 0 Side.a.idx) 1))) (bobLane ((if (bobState wMaySwitch 0 = bbSwapping) &&
      (((syncCluster 0 (bobMove 0 Side.a (bobState wMaySwitch 0 = bbSwapping) wMaySwitch)).wr (R.BOB_STAT_done 0
      Side.a.idx) 1).bob 0).intr = Side.a.idx && !(((syncCluster 0 (bobMove 0 Side.a (bobState wMaySwitch 0 =
      bbSwapping) wMaySwitch)).wr (R.BOB_STAT_done 0 Side.a.idx) 1).bob 0).txFail then intrEnd 0 (some ((syncCluster
      0 (bobMove 0 Side.a (bobState wMaySwitch 0 = bbSwapping) wMaySwitch)).wr (R.BOB_STAT_done 0 Side.a.idx)
      1).clock) ((syncCluster 0 (bobMove 0 Side.a (bobState wMaySwitch 0 = bbSwapping) wMaySwitch)).wr
      (R.BOB_STAT_done 0 Side.a.idx) 1) else ((syncCluster 0 (bobMove 0 Side.a (bobState wMaySwitch 0 = bbSwapping)
      wMaySwitch)).wr (R.BOB_STAT_done 0 Side.a.idx) 1))) 0) Side.a = some (0, 0) ∧ (spAcquire ≤ spanState ((if
      (bobState wMaySwitch 0 = bbSwapping) && (((syncCluster 0 (bobMove 0 Side.a (bobState wMaySwitch 0 =
      bbSwapping) wMaySwitch)).wr (R.BOB_STAT_done 0 Side.a.idx) 1).bob 0).intr = Side.a.idx && !(((syncCluster 0
      (bobMove 0 Side.a (bobState wMaySwitch 0 = bbSwapping) wMaySwitch)).wr (R.BOB_STAT_done 0 Side.a.idx) 1).bob
      0).txFail then intrEnd 0 (some ((syncCluster 0 (bobMove 0 Side.a (bobState wMaySwitch 0 = bbSwapping)
      wMaySwitch)).wr (R.BOB_STAT_done 0 Side.a.idx) 1).clock) ((syncCluster 0 (bobMove 0 Side.a (bobState
      wMaySwitch 0 = bbSwapping) wMaySwitch)).wr (R.BOB_STAT_done 0 Side.a.idx) 1) else ((syncCluster 0 (bobMove 0
      Side.a (bobState wMaySwitch 0 = bbSwapping) wMaySwitch)).wr (R.BOB_STAT_done 0 Side.a.idx) 1))) 0 Side.a &&
      spanState ((if (bobState wMaySwitch 0 = bbSwapping) && (((syncCluster 0 (bobMove 0 Side.a (bobState wMaySwitch
      0 = bbSwapping) wMaySwitch)).wr (R.BOB_STAT_done 0 Side.a.idx) 1).bob 0).intr = Side.a.idx && !(((syncCluster
      0 (bobMove 0 Side.a (bobState wMaySwitch 0 = bbSwapping) wMaySwitch)).wr (R.BOB_STAT_done 0 Side.a.idx) 1).bob
      0).txFail then intrEnd 0 (some ((syncCluster 0 (bobMove 0 Side.a (bobState wMaySwitch 0 = bbSwapping)
      wMaySwitch)).wr (R.BOB_STAT_done 0 Side.a.idx) 1).clock) ((syncCluster 0 (bobMove 0 Side.a (bobState
      wMaySwitch 0 = bbSwapping) wMaySwitch)).wr (R.BOB_STAT_done 0 Side.a.idx) 1) else ((syncCluster 0 (bobMove 0
      Side.a (bobState wMaySwitch 0 = bbSwapping) wMaySwitch)).wr (R.BOB_STAT_done 0 Side.a.idx) 1))) 0 Side.a ≤
      spArmed && spanState ((if (bobState wMaySwitch 0 = bbSwapping) && (((syncCluster 0 (bobMove 0 Side.a (bobState
      wMaySwitch 0 = bbSwapping) wMaySwitch)).wr (R.BOB_STAT_done 0 Side.a.idx) 1).bob 0).intr = Side.a.idx &&
      !(((syncCluster 0 (bobMove 0 Side.a (bobState wMaySwitch 0 = bbSwapping) wMaySwitch)).wr (R.BOB_STAT_done 0
      Side.a.idx) 1).bob 0).txFail then intrEnd 0 (some ((syncCluster 0 (bobMove 0 Side.a (bobState wMaySwitch 0 =
      bbSwapping) wMaySwitch)).wr (R.BOB_STAT_done 0 Side.a.idx) 1).clock) ((syncCluster 0 (bobMove 0 Side.a
      (bobState wMaySwitch 0 = bbSwapping) wMaySwitch)).wr (R.BOB_STAT_done 0 Side.a.idx) 1) else ((syncCluster 0
      (bobMove 0 Side.a (bobState wMaySwitch 0 = bbSwapping) wMaySwitch)).wr (R.BOB_STAT_done 0 Side.a.idx) 1))) 0
      Side.a ≠ spSwitch) = false) ∧
    (0 < clustersOf wMaySwitchTr ∧ maySwitch wMaySwitchTr 0 Side.a = true ∧ laneUse ((if (bobState wMaySwitchTr 0 =
      bbSwapping) && (((syncCluster 0 (bobMove 0 Side.a (bobState wMaySwitchTr 0 = bbSwapping) wMaySwitchTr)).wr
      (R.BOB_STAT_done 0 Side.a.idx) 1).bob 0).intr = Side.a.idx && !(((syncCluster 0 (bobMove 0 Side.a (bobState
      wMaySwitchTr 0 = bbSwapping) wMaySwitchTr)).wr (R.BOB_STAT_done 0 Side.a.idx) 1).bob 0).txFail then intrEnd 0
      (some ((syncCluster 0 (bobMove 0 Side.a (bobState wMaySwitchTr 0 = bbSwapping) wMaySwitchTr)).wr
      (R.BOB_STAT_done 0 Side.a.idx) 1).clock) ((syncCluster 0 (bobMove 0 Side.a (bobState wMaySwitchTr 0 =
      bbSwapping) wMaySwitchTr)).wr (R.BOB_STAT_done 0 Side.a.idx) 1) else ((syncCluster 0 (bobMove 0 Side.a
      (bobState wMaySwitchTr 0 = bbSwapping) wMaySwitchTr)).wr (R.BOB_STAT_done 0 Side.a.idx) 1))) (bobLane ((if
      (bobState wMaySwitchTr 0 = bbSwapping) && (((syncCluster 0 (bobMove 0 Side.a (bobState wMaySwitchTr 0 =
      bbSwapping) wMaySwitchTr)).wr (R.BOB_STAT_done 0 Side.a.idx) 1).bob 0).intr = Side.a.idx && !(((syncCluster 0
      (bobMove 0 Side.a (bobState wMaySwitchTr 0 = bbSwapping) wMaySwitchTr)).wr (R.BOB_STAT_done 0 Side.a.idx)
      1).bob 0).txFail then intrEnd 0 (some ((syncCluster 0 (bobMove 0 Side.a (bobState wMaySwitchTr 0 = bbSwapping)
      wMaySwitchTr)).wr (R.BOB_STAT_done 0 Side.a.idx) 1).clock) ((syncCluster 0 (bobMove 0 Side.a (bobState
      wMaySwitchTr 0 = bbSwapping) wMaySwitchTr)).wr (R.BOB_STAT_done 0 Side.a.idx) 1) else ((syncCluster 0 (bobMove
      0 Side.a (bobState wMaySwitchTr 0 = bbSwapping) wMaySwitchTr)).wr (R.BOB_STAT_done 0 Side.a.idx) 1))) 0)
      Side.a = some (0, 0) ∧ (spAcquire ≤ spanState ((if (bobState wMaySwitchTr 0 = bbSwapping) && (((syncCluster 0
      (bobMove 0 Side.a (bobState wMaySwitchTr 0 = bbSwapping) wMaySwitchTr)).wr (R.BOB_STAT_done 0 Side.a.idx)
      1).bob 0).intr = Side.a.idx && !(((syncCluster 0 (bobMove 0 Side.a (bobState wMaySwitchTr 0 = bbSwapping)
      wMaySwitchTr)).wr (R.BOB_STAT_done 0 Side.a.idx) 1).bob 0).txFail then intrEnd 0 (some ((syncCluster 0
      (bobMove 0 Side.a (bobState wMaySwitchTr 0 = bbSwapping) wMaySwitchTr)).wr (R.BOB_STAT_done 0 Side.a.idx)
      1).clock) ((syncCluster 0 (bobMove 0 Side.a (bobState wMaySwitchTr 0 = bbSwapping) wMaySwitchTr)).wr
      (R.BOB_STAT_done 0 Side.a.idx) 1) else ((syncCluster 0 (bobMove 0 Side.a (bobState wMaySwitchTr 0 =
      bbSwapping) wMaySwitchTr)).wr (R.BOB_STAT_done 0 Side.a.idx) 1))) 0 Side.a && spanState ((if (bobState
      wMaySwitchTr 0 = bbSwapping) && (((syncCluster 0 (bobMove 0 Side.a (bobState wMaySwitchTr 0 = bbSwapping)
      wMaySwitchTr)).wr (R.BOB_STAT_done 0 Side.a.idx) 1).bob 0).intr = Side.a.idx && !(((syncCluster 0 (bobMove 0
      Side.a (bobState wMaySwitchTr 0 = bbSwapping) wMaySwitchTr)).wr (R.BOB_STAT_done 0 Side.a.idx) 1).bob
      0).txFail then intrEnd 0 (some ((syncCluster 0 (bobMove 0 Side.a (bobState wMaySwitchTr 0 = bbSwapping)
      wMaySwitchTr)).wr (R.BOB_STAT_done 0 Side.a.idx) 1).clock) ((syncCluster 0 (bobMove 0 Side.a (bobState
      wMaySwitchTr 0 = bbSwapping) wMaySwitchTr)).wr (R.BOB_STAT_done 0 Side.a.idx) 1) else ((syncCluster 0 (bobMove
      0 Side.a (bobState wMaySwitchTr 0 = bbSwapping) wMaySwitchTr)).wr (R.BOB_STAT_done 0 Side.a.idx) 1))) 0 Side.a
      ≤ spArmed && spanState ((if (bobState wMaySwitchTr 0 = bbSwapping) && (((syncCluster 0 (bobMove 0 Side.a
      (bobState wMaySwitchTr 0 = bbSwapping) wMaySwitchTr)).wr (R.BOB_STAT_done 0 Side.a.idx) 1).bob 0).intr =
      Side.a.idx && !(((syncCluster 0 (bobMove 0 Side.a (bobState wMaySwitchTr 0 = bbSwapping) wMaySwitchTr)).wr
      (R.BOB_STAT_done 0 Side.a.idx) 1).bob 0).txFail then intrEnd 0 (some ((syncCluster 0 (bobMove 0 Side.a
      (bobState wMaySwitchTr 0 = bbSwapping) wMaySwitchTr)).wr (R.BOB_STAT_done 0 Side.a.idx) 1).clock)
      ((syncCluster 0 (bobMove 0 Side.a (bobState wMaySwitchTr 0 = bbSwapping) wMaySwitchTr)).wr (R.BOB_STAT_done 0
      Side.a.idx) 1) else ((syncCluster 0 (bobMove 0 Side.a (bobState wMaySwitchTr 0 = bbSwapping) wMaySwitchTr)).wr
      (R.BOB_STAT_done 0 Side.a.idx) 1))) 0 Side.a ≠ spSwitch) = true) ∧
    ((((bobUsed (wLate (wBob 1)) 0).foldl (fun x u => if bobSwitched x 0 u.1 then bobMove 0 u.1 false x else x)
      (intrEnd 0 none (wLate (wBob 1))))) = ((bobUsed (wLate (wBob 1)) 0).foldl (fun x zu => if bobSwitched x 0 zu.1
      then bobMove 0 zu.1 false x else x) (intrEnd 0 none (wLate (wBob 1)))) ∧ 0 < clustersOf (wLate (wBob 1)) ∧
      (swapOver (wLate (wBob 1)) 0 || bobFaulty (wLate (wBob 1)) 0) = true ∧ (((((((spareRest 0 (newLane (wLate
      (wBob 1)) 0) (oldWake 0 (oldLane (wLate (wBob 1)) 0) (((bobUsed (wLate (wBob 1)) 0).foldl (fun x u => if
      bobSwitched x 0 u.1 then bobMove 0 u.1 false x else x) (intrEnd 0 none (wLate (wBob 1))))))).putBob 0
      { (spareRest 0 (newLane (wLate (wBob 1)) 0) (oldWake 0 (oldLane (wLate (wBob 1)) 0) (((bobUsed (wLate (wBob 1)) 0).foldl (fun x u => if bobSwitched x 0 u.1 then bobMove 0 u.1 false x else x) (intrEnd 0 none (wLate (wBob 1))))))).bob 0 with dupA := none, dupB := none, rested := [] }).bump
      (R.BOB_CNT_abandons 0)).wr (R.BOB_STAT_result 0) swAbandoned).putBob 0
      { ((((spareRest 0 (newLane (wLate (wBob 1)) 0) (oldWake 0 (oldLane (wLate (wBob 1)) 0) (((bobUsed (wLate (wBob 1)) 0).foldl (fun x u => if bobSwitched x 0 u.1 then bobMove 0 u.1 false x else x) (intrEnd 0 none (wLate (wBob 1))))))).putBob 0 { (spareRest 0 (newLane (wLate (wBob 1)) 0) (oldWake 0 (oldLane (wLate (wBob 1)) 0) (((bobUsed (wLate (wBob 1)) 0).foldl (fun x u => if bobSwitched x 0 u.1 then bobMove 0 u.1 false x else x) (intrEnd 0 none (wLate (wBob 1))))))).bob 0 with dupA := none, dupB := none, rested := [] }).bump (R.BOB_CNT_abandons 0)).wr (R.BOB_STAT_result 0) swAbandoned).bob 0 with dropped := [] }).wr
      (R.BOB_STAT_state 0) (if ((if bobFaulty (wLate (wBob 1)) 0 then owFault else 0)) = 0 then bbReady else
      bbOut))) = ((((((spareRest 0 (newLane (wLate (wBob 1)) 0) (oldWake 0 (oldLane (wLate (wBob 1)) 0) (((bobUsed
      (wLate (wBob 1)) 0).foldl (fun x u => if bobSwitched x 0 u.1 then bobMove 0 u.1 false x else x) (intrEnd 0
      none (wLate (wBob 1))))))).putBob 0
      { (spareRest 0 (newLane (wLate (wBob 1)) 0) (oldWake 0 (oldLane (wLate (wBob 1)) 0) (((bobUsed (wLate (wBob 1)) 0).foldl (fun x u => if bobSwitched x 0 u.1 then bobMove 0 u.1 false x else x) (intrEnd 0 none (wLate (wBob 1))))))).bob 0 with dupA := none, dupB := none, rested := [] }).bump
      (R.BOB_CNT_abandons 0)).wr (R.BOB_STAT_result 0) swAbandoned).putBob 0
      { ((((spareRest 0 (newLane (wLate (wBob 1)) 0) (oldWake 0 (oldLane (wLate (wBob 1)) 0) (((bobUsed (wLate (wBob 1)) 0).foldl (fun x u => if bobSwitched x 0 u.1 then bobMove 0 u.1 false x else x) (intrEnd 0 none (wLate (wBob 1))))))).putBob 0 { (spareRest 0 (newLane (wLate (wBob 1)) 0) (oldWake 0 (oldLane (wLate (wBob 1)) 0) (((bobUsed (wLate (wBob 1)) 0).foldl (fun x u => if bobSwitched x 0 u.1 then bobMove 0 u.1 false x else x) (intrEnd 0 none (wLate (wBob 1))))))).bob 0 with dupA := none, dupB := none, rested := [] }).bump (R.BOB_CNT_abandons 0)).wr (R.BOB_STAT_result 0) swAbandoned).bob 0 with dropped := [] }).wr
      (R.BOB_STAT_state 0) (if ((if bobFaulty (wLate (wBob 1)) 0 then owFault else 0)) = 0 then bbReady else bbOut))
      ∧ bobState (wLate (wBob 1)) 0 = bbSwapping) ∧
    ((((bobUsed (wLate (wBob 3)) 0).foldl (fun x u => if bobSwitched x 0 u.1 then bobMove 0 u.1 true x else x)
      (intrEnd 0 none (wLate (wBob 3))))) = ((bobUsed (wLate (wBob 3)) 0).foldl (fun x zu => if bobSwitched x 0 zu.1
      then bobMove 0 zu.1 true x else x) (intrEnd 0 none (wLate (wBob 3)))) ∧ 0 < clustersOf (wLate (wBob 3)) ∧
      (swapOver (wLate (wBob 3)) 0 || bobFaulty (wLate (wBob 3)) 0) = true ∧ bobState (wLate (wBob 3)) 0 =
      bbReturning) ∧
    (0 < clustersOf (wLate ((wBob 2).putBob 0 { wRun.bob 0 with dupA := some 0 })) ∧ bobState (wLate ((wBob
      2).putBob 0 { wRun.bob 0 with dupA := some 0 })) 0 ≠ bbReturning ∧ bobState (wLate ((wBob 2).putBob 0
      { wRun.bob 0 with dupA := some 0 })) 0 ≠ bbReady ∧ passed (((wLate ((wBob 2).putBob 0
      { wRun.bob 0 with dupA := some 0 })).bob 0).dup .a) 10000 (wLate ((wBob 2).putBob 0
      { wRun.bob 0 with dupA := some 0 })).clock = true ∧ ((wLate ((wBob 2).putBob 0
      { wRun.bob 0 with dupA := some 0 })).bob 0).rested.contains 0 = false ∧ passed (((((wLate ((wBob 2).putBob 0
      { wRun.bob 0 with dupA := some 0 })).txRest (bobLane (wLate ((wBob 2).putBob 0
      { wRun.bob 0 with dupA := some 0 })) 0) .a).putBob 0
      { (wLate ((wBob 2).putBob 0 { wRun.bob 0 with dupA := some 0 })).bob 0 with rested := ((wLate ((wBob 2).putBob 0 { wRun.bob 0 with dupA := some 0 })).bob 0).rested ++ [0] }).bob
      0).dup .b) 10000 (((wLate ((wBob 2).putBob 0 { wRun.bob 0 with dupA := some 0 })).txRest (bobLane (wLate
      ((wBob 2).putBob 0 { wRun.bob 0 with dupA := some 0 })) 0) .a).putBob 0
      { (wLate ((wBob 2).putBob 0 { wRun.bob 0 with dupA := some 0 })).bob 0 with rested := ((wLate ((wBob 2).putBob 0 { wRun.bob 0 with dupA := some 0 })).bob 0).rested ++ [0] }).clock
      = false) ∧
    (0 < clustersOf (wLate ((wBob 2).putBob 0 { wRun.bob 0 with dupB := some 0 })) ∧ bobState (wLate ((wBob
      2).putBob 0 { wRun.bob 0 with dupB := some 0 })) 0 ≠ bbReturning ∧ bobState (wLate ((wBob 2).putBob 0
      { wRun.bob 0 with dupB := some 0 })) 0 ≠ bbReady ∧ passed (((wLate ((wBob 2).putBob 0
      { wRun.bob 0 with dupB := some 0 })).bob 0).dup .b) 10000 (wLate ((wBob 2).putBob 0
      { wRun.bob 0 with dupB := some 0 })).clock = true ∧ ((wLate ((wBob 2).putBob 0
      { wRun.bob 0 with dupB := some 0 })).bob 0).rested.contains 1 = false ∧ passed (((wLate ((wBob 2).putBob 0
      { wRun.bob 0 with dupB := some 0 })).bob 0).dup .a) 10000 (wLate ((wBob 2).putBob 0
      { wRun.bob 0 with dupB := some 0 })).clock = false) ∧
    (0 < clustersOf wOldTx ∧ (bobState wOldTx 0 = bbReturning ∨ bobState wOldTx 0 = bbReady) ∧ passed ((wOldTx.bob
      0).dup .a) 10000 wOldTx.clock = true ∧ (wOldTx.bob 0).rested.contains 0 = false ∧ passed ((((wOldTx.txRest
      (128 + 0) .a).putBob 0 { wOldTx.bob 0 with rested := (wOldTx.bob 0).rested ++ [0] }).bob 0).dup .b) 10000
      ((wOldTx.txRest (128 + 0) .a).putBob 0 { wOldTx.bob 0 with rested := (wOldTx.bob 0).rested ++ [0] }).clock =
      false) ∧
    (0 < clustersOf (wLate ((wBob 3).putBob 0 { wRun.bob 0 with dupB := some 0 })) ∧ (bobState (wLate ((wBob
      3).putBob 0 { wRun.bob 0 with dupB := some 0 })) 0 = bbReturning ∨ bobState (wLate ((wBob 3).putBob 0
      { wRun.bob 0 with dupB := some 0 })) 0 = bbReady) ∧ passed (((wLate ((wBob 3).putBob 0
      { wRun.bob 0 with dupB := some 0 })).bob 0).dup .b) 10000 (wLate ((wBob 3).putBob 0
      { wRun.bob 0 with dupB := some 0 })).clock = true ∧ ((wLate ((wBob 3).putBob 0
      { wRun.bob 0 with dupB := some 0 })).bob 0).rested.contains 1 = false ∧ passed (((wLate ((wBob 3).putBob 0
      { wRun.bob 0 with dupB := some 0 })).bob 0).dup .a) 10000 (wLate ((wBob 3).putBob 0
      { wRun.bob 0 with dupB := some 0 })).clock = false) ∧
    (0 < clustersOf wSwapUp ∧ pageOpen wSwapUp 0xD = true ∧ swapOk wSwapUp 0 0 = true ∧ (bobUsed ((bobClear 0
      ((((((((engineNext 0 ([8, 17, 26, 35].foldl (fun zs e => calAbort 0 e zs) (loopStop (laneAt 0 0) (bobPreempt
      (clusterDie 0) 0 (((((wSwapUp.wr R.SWP_CMD_op 0).wr R.SWP_CMD_cluster 0).wr R.SWP_CMD_pos 0).wr
      R.SWP_CMD_refused 0))))))).wr (R.BOB_STAT_pos 0) 0).wr (R.BOB_STAT_cause 0) swHost).wr (R.BOB_STAT_done 0 0)
      0).wr (R.BOB_STAT_done 0 1) 0).wr (R.BOB_TIME_ns 0) 0).wr (R.BOB_STAT_state 0) bbSwapping)).putBob 0
      { (bobClear 0 ((((((((engineNext 0 ([8, 17, 26, 35].foldl (fun zs e => calAbort 0 e zs) (loopStop (laneAt 0 0) (bobPreempt (clusterDie 0) 0 (((((wSwapUp.wr R.SWP_CMD_op 0).wr R.SWP_CMD_cluster 0).wr R.SWP_CMD_pos 0).wr R.SWP_CMD_refused 0))))))).wr (R.BOB_STAT_pos 0) 0).wr (R.BOB_STAT_cause 0) swHost).wr (R.BOB_STAT_done 0 0) 0).wr (R.BOB_STAT_done 0 1) 0).wr (R.BOB_TIME_ns 0) 0).wr (R.BOB_STAT_state 0) bbSwapping)).bob 0 with since := (bobClear 0 ((((((((engineNext 0 ([8, 17, 26, 35].foldl (fun zs e => calAbort 0 e zs) (loopStop (laneAt 0 0) (bobPreempt (clusterDie 0) 0 (((((wSwapUp.wr R.SWP_CMD_op 0).wr R.SWP_CMD_cluster 0).wr R.SWP_CMD_pos 0).wr R.SWP_CMD_refused 0))))))).wr (R.BOB_STAT_pos 0) 0).wr (R.BOB_STAT_cause 0) swHost).wr (R.BOB_STAT_done 0 0) 0).wr (R.BOB_STAT_done 0 1) 0).wr (R.BOB_TIME_ns 0) 0).wr (R.BOB_STAT_state 0) bbSwapping)).clock, held := 0, failedSide := 2, inA := false, inB := false, dropped := [], dupA := none, dupB := none, rested := [], nbrAt := none, fails := [], intr := 2, txFail := false })
      0).find? (fun zu => zu.1.idx = 2) = none ∧ (bobUsed ((bobClear 0 ((((((((engineNext 0 ([8, 17, 26, 35].foldl
      (fun zs e => calAbort 0 e zs) (loopStop (laneAt 0 0) (bobPreempt (clusterDie 0) 0 (((((wSwapUp.wr R.SWP_CMD_op
      0).wr R.SWP_CMD_cluster 0).wr R.SWP_CMD_pos 0).wr R.SWP_CMD_refused 0))))))).wr (R.BOB_STAT_pos 0) 0).wr
      (R.BOB_STAT_cause 0) swHost).wr (R.BOB_STAT_done 0 0) 0).wr (R.BOB_STAT_done 0 1) 0).wr (R.BOB_TIME_ns 0)
      0).wr (R.BOB_STAT_state 0) bbSwapping)).putBob 0
      { (bobClear 0 ((((((((engineNext 0 ([8, 17, 26, 35].foldl (fun zs e => calAbort 0 e zs) (loopStop (laneAt 0 0) (bobPreempt (clusterDie 0) 0 (((((wSwapUp.wr R.SWP_CMD_op 0).wr R.SWP_CMD_cluster 0).wr R.SWP_CMD_pos 0).wr R.SWP_CMD_refused 0))))))).wr (R.BOB_STAT_pos 0) 0).wr (R.BOB_STAT_cause 0) swHost).wr (R.BOB_STAT_done 0 0) 0).wr (R.BOB_STAT_done 0 1) 0).wr (R.BOB_TIME_ns 0) 0).wr (R.BOB_STAT_state 0) bbSwapping)).bob 0 with since := (bobClear 0 ((((((((engineNext 0 ([8, 17, 26, 35].foldl (fun zs e => calAbort 0 e zs) (loopStop (laneAt 0 0) (bobPreempt (clusterDie 0) 0 (((((wSwapUp.wr R.SWP_CMD_op 0).wr R.SWP_CMD_cluster 0).wr R.SWP_CMD_pos 0).wr R.SWP_CMD_refused 0))))))).wr (R.BOB_STAT_pos 0) 0).wr (R.BOB_STAT_cause 0) swHost).wr (R.BOB_STAT_done 0 0) 0).wr (R.BOB_STAT_done 0 1) 0).wr (R.BOB_TIME_ns 0) 0).wr (R.BOB_STAT_state 0) bbSwapping)).clock, held := 0, failedSide := 2, inA := false, inB := false, dropped := [], dupA := none, dupB := none, rested := [], nbrAt := none, fails := [], intr := 2, txFail := false })
      0).all (fun zu => inDetect ((bobClear 0 ((((((((engineNext 0 ([8, 17, 26, 35].foldl (fun zs e => calAbort 0 e
      zs) (loopStop (laneAt 0 0) (bobPreempt (clusterDie 0) 0 (((((wSwapUp.wr R.SWP_CMD_op 0).wr R.SWP_CMD_cluster
      0).wr R.SWP_CMD_pos 0).wr R.SWP_CMD_refused 0))))))).wr (R.BOB_STAT_pos 0) 0).wr (R.BOB_STAT_cause 0)
      swHost).wr (R.BOB_STAT_done 0 0) 0).wr (R.BOB_STAT_done 0 1) 0).wr (R.BOB_TIME_ns 0) 0).wr (R.BOB_STAT_state
      0) bbSwapping)).putBob 0
      { (bobClear 0 ((((((((engineNext 0 ([8, 17, 26, 35].foldl (fun zs e => calAbort 0 e zs) (loopStop (laneAt 0 0) (bobPreempt (clusterDie 0) 0 (((((wSwapUp.wr R.SWP_CMD_op 0).wr R.SWP_CMD_cluster 0).wr R.SWP_CMD_pos 0).wr R.SWP_CMD_refused 0))))))).wr (R.BOB_STAT_pos 0) 0).wr (R.BOB_STAT_cause 0) swHost).wr (R.BOB_STAT_done 0 0) 0).wr (R.BOB_STAT_done 0 1) 0).wr (R.BOB_TIME_ns 0) 0).wr (R.BOB_STAT_state 0) bbSwapping)).bob 0 with since := (bobClear 0 ((((((((engineNext 0 ([8, 17, 26, 35].foldl (fun zs e => calAbort 0 e zs) (loopStop (laneAt 0 0) (bobPreempt (clusterDie 0) 0 (((((wSwapUp.wr R.SWP_CMD_op 0).wr R.SWP_CMD_cluster 0).wr R.SWP_CMD_pos 0).wr R.SWP_CMD_refused 0))))))).wr (R.BOB_STAT_pos 0) 0).wr (R.BOB_STAT_cause 0) swHost).wr (R.BOB_STAT_done 0 0) 0).wr (R.BOB_STAT_done 0 1) 0).wr (R.BOB_TIME_ns 0) 0).wr (R.BOB_STAT_state 0) bbSwapping)).clock, held := 0, failedSide := 2, inA := false, inB := false, dropped := [], dupA := none, dupB := none, rested := [], nbrAt := none, fails := [], intr := 2, txFail := false })
      zu || spanRung ((bobClear 0 ((((((((engineNext 0 ([8, 17, 26, 35].foldl (fun zs e => calAbort 0 e zs)
      (loopStop (laneAt 0 0) (bobPreempt (clusterDie 0) 0 (((((wSwapUp.wr R.SWP_CMD_op 0).wr R.SWP_CMD_cluster 0).wr
      R.SWP_CMD_pos 0).wr R.SWP_CMD_refused 0))))))).wr (R.BOB_STAT_pos 0) 0).wr (R.BOB_STAT_cause 0) swHost).wr
      (R.BOB_STAT_done 0 0) 0).wr (R.BOB_STAT_done 0 1) 0).wr (R.BOB_TIME_ns 0) 0).wr (R.BOB_STAT_state 0)
      bbSwapping)).putBob 0
      { (bobClear 0 ((((((((engineNext 0 ([8, 17, 26, 35].foldl (fun zs e => calAbort 0 e zs) (loopStop (laneAt 0 0) (bobPreempt (clusterDie 0) 0 (((((wSwapUp.wr R.SWP_CMD_op 0).wr R.SWP_CMD_cluster 0).wr R.SWP_CMD_pos 0).wr R.SWP_CMD_refused 0))))))).wr (R.BOB_STAT_pos 0) 0).wr (R.BOB_STAT_cause 0) swHost).wr (R.BOB_STAT_done 0 0) 0).wr (R.BOB_STAT_done 0 1) 0).wr (R.BOB_TIME_ns 0) 0).wr (R.BOB_STAT_state 0) bbSwapping)).bob 0 with since := (bobClear 0 ((((((((engineNext 0 ([8, 17, 26, 35].foldl (fun zs e => calAbort 0 e zs) (loopStop (laneAt 0 0) (bobPreempt (clusterDie 0) 0 (((((wSwapUp.wr R.SWP_CMD_op 0).wr R.SWP_CMD_cluster 0).wr R.SWP_CMD_pos 0).wr R.SWP_CMD_refused 0))))))).wr (R.BOB_STAT_pos 0) 0).wr (R.BOB_STAT_cause 0) swHost).wr (R.BOB_STAT_done 0 0) 0).wr (R.BOB_STAT_done 0 1) 0).wr (R.BOB_TIME_ns 0) 0).wr (R.BOB_STAT_state 0) bbSwapping)).clock, held := 0, failedSide := 2, inA := false, inB := false, dropped := [], dupA := none, dupB := none, rested := [], nbrAt := none, fails := [], intr := 2, txFail := false })
      zu.2.1 zu.1 = 7) = false) ∧
    (0 < clustersOf wSwapDet ∧ pageOpen wSwapDet 0xD = true ∧ swapOk wSwapDet 0 0 = true ∧ (bobUsed ((bobClear 0
      ((((((((engineNext 0 ([8, 17, 26, 35].foldl (fun zs e => calAbort 0 e zs) (loopStop (laneAt 0 0) (bobPreempt
      (clusterDie 0) 0 (((((wSwapDet.wr R.SWP_CMD_op 0).wr R.SWP_CMD_cluster 0).wr R.SWP_CMD_pos 0).wr
      R.SWP_CMD_refused 0))))))).wr (R.BOB_STAT_pos 0) 0).wr (R.BOB_STAT_cause 0) swHost).wr (R.BOB_STAT_done 0 0)
      0).wr (R.BOB_STAT_done 0 1) 0).wr (R.BOB_TIME_ns 0) 0).wr (R.BOB_STAT_state 0) bbSwapping)).putBob 0
      { (bobClear 0 ((((((((engineNext 0 ([8, 17, 26, 35].foldl (fun zs e => calAbort 0 e zs) (loopStop (laneAt 0 0) (bobPreempt (clusterDie 0) 0 (((((wSwapDet.wr R.SWP_CMD_op 0).wr R.SWP_CMD_cluster 0).wr R.SWP_CMD_pos 0).wr R.SWP_CMD_refused 0))))))).wr (R.BOB_STAT_pos 0) 0).wr (R.BOB_STAT_cause 0) swHost).wr (R.BOB_STAT_done 0 0) 0).wr (R.BOB_STAT_done 0 1) 0).wr (R.BOB_TIME_ns 0) 0).wr (R.BOB_STAT_state 0) bbSwapping)).bob 0 with since := (bobClear 0 ((((((((engineNext 0 ([8, 17, 26, 35].foldl (fun zs e => calAbort 0 e zs) (loopStop (laneAt 0 0) (bobPreempt (clusterDie 0) 0 (((((wSwapDet.wr R.SWP_CMD_op 0).wr R.SWP_CMD_cluster 0).wr R.SWP_CMD_pos 0).wr R.SWP_CMD_refused 0))))))).wr (R.BOB_STAT_pos 0) 0).wr (R.BOB_STAT_cause 0) swHost).wr (R.BOB_STAT_done 0 0) 0).wr (R.BOB_STAT_done 0 1) 0).wr (R.BOB_TIME_ns 0) 0).wr (R.BOB_STAT_state 0) bbSwapping)).clock, held := 0, failedSide := 2, inA := false, inB := false, dropped := [], dupA := none, dupB := none, rested := [], nbrAt := none, fails := [], intr := 2, txFail := false })
      0).find? (fun zu => zu.1.idx = 2) = none ∧ (bobUsed ((bobClear 0 ((((((((engineNext 0 ([8, 17, 26, 35].foldl
      (fun zs e => calAbort 0 e zs) (loopStop (laneAt 0 0) (bobPreempt (clusterDie 0) 0 (((((wSwapDet.wr
      R.SWP_CMD_op 0).wr R.SWP_CMD_cluster 0).wr R.SWP_CMD_pos 0).wr R.SWP_CMD_refused 0))))))).wr (R.BOB_STAT_pos
      0) 0).wr (R.BOB_STAT_cause 0) swHost).wr (R.BOB_STAT_done 0 0) 0).wr (R.BOB_STAT_done 0 1) 0).wr
      (R.BOB_TIME_ns 0) 0).wr (R.BOB_STAT_state 0) bbSwapping)).putBob 0
      { (bobClear 0 ((((((((engineNext 0 ([8, 17, 26, 35].foldl (fun zs e => calAbort 0 e zs) (loopStop (laneAt 0 0) (bobPreempt (clusterDie 0) 0 (((((wSwapDet.wr R.SWP_CMD_op 0).wr R.SWP_CMD_cluster 0).wr R.SWP_CMD_pos 0).wr R.SWP_CMD_refused 0))))))).wr (R.BOB_STAT_pos 0) 0).wr (R.BOB_STAT_cause 0) swHost).wr (R.BOB_STAT_done 0 0) 0).wr (R.BOB_STAT_done 0 1) 0).wr (R.BOB_TIME_ns 0) 0).wr (R.BOB_STAT_state 0) bbSwapping)).bob 0 with since := (bobClear 0 ((((((((engineNext 0 ([8, 17, 26, 35].foldl (fun zs e => calAbort 0 e zs) (loopStop (laneAt 0 0) (bobPreempt (clusterDie 0) 0 (((((wSwapDet.wr R.SWP_CMD_op 0).wr R.SWP_CMD_cluster 0).wr R.SWP_CMD_pos 0).wr R.SWP_CMD_refused 0))))))).wr (R.BOB_STAT_pos 0) 0).wr (R.BOB_STAT_cause 0) swHost).wr (R.BOB_STAT_done 0 0) 0).wr (R.BOB_STAT_done 0 1) 0).wr (R.BOB_TIME_ns 0) 0).wr (R.BOB_STAT_state 0) bbSwapping)).clock, held := 0, failedSide := 2, inA := false, inB := false, dropped := [], dupA := none, dupB := none, rested := [], nbrAt := none, fails := [], intr := 2, txFail := false })
      0).all (fun zu => inDetect ((bobClear 0 ((((((((engineNext 0 ([8, 17, 26, 35].foldl (fun zs e => calAbort 0 e
      zs) (loopStop (laneAt 0 0) (bobPreempt (clusterDie 0) 0 (((((wSwapDet.wr R.SWP_CMD_op 0).wr R.SWP_CMD_cluster
      0).wr R.SWP_CMD_pos 0).wr R.SWP_CMD_refused 0))))))).wr (R.BOB_STAT_pos 0) 0).wr (R.BOB_STAT_cause 0)
      swHost).wr (R.BOB_STAT_done 0 0) 0).wr (R.BOB_STAT_done 0 1) 0).wr (R.BOB_TIME_ns 0) 0).wr (R.BOB_STAT_state
      0) bbSwapping)).putBob 0
      { (bobClear 0 ((((((((engineNext 0 ([8, 17, 26, 35].foldl (fun zs e => calAbort 0 e zs) (loopStop (laneAt 0 0) (bobPreempt (clusterDie 0) 0 (((((wSwapDet.wr R.SWP_CMD_op 0).wr R.SWP_CMD_cluster 0).wr R.SWP_CMD_pos 0).wr R.SWP_CMD_refused 0))))))).wr (R.BOB_STAT_pos 0) 0).wr (R.BOB_STAT_cause 0) swHost).wr (R.BOB_STAT_done 0 0) 0).wr (R.BOB_STAT_done 0 1) 0).wr (R.BOB_TIME_ns 0) 0).wr (R.BOB_STAT_state 0) bbSwapping)).bob 0 with since := (bobClear 0 ((((((((engineNext 0 ([8, 17, 26, 35].foldl (fun zs e => calAbort 0 e zs) (loopStop (laneAt 0 0) (bobPreempt (clusterDie 0) 0 (((((wSwapDet.wr R.SWP_CMD_op 0).wr R.SWP_CMD_cluster 0).wr R.SWP_CMD_pos 0).wr R.SWP_CMD_refused 0))))))).wr (R.BOB_STAT_pos 0) 0).wr (R.BOB_STAT_cause 0) swHost).wr (R.BOB_STAT_done 0 0) 0).wr (R.BOB_STAT_done 0 1) 0).wr (R.BOB_TIME_ns 0) 0).wr (R.BOB_STAT_state 0) bbSwapping)).clock, held := 0, failedSide := 2, inA := false, inB := false, dropped := [], dupA := none, dupB := none, rested := [], nbrAt := none, fails := [], intr := 2, txFail := false })
      zu || spanRung ((bobClear 0 ((((((((engineNext 0 ([8, 17, 26, 35].foldl (fun zs e => calAbort 0 e zs)
      (loopStop (laneAt 0 0) (bobPreempt (clusterDie 0) 0 (((((wSwapDet.wr R.SWP_CMD_op 0).wr R.SWP_CMD_cluster
      0).wr R.SWP_CMD_pos 0).wr R.SWP_CMD_refused 0))))))).wr (R.BOB_STAT_pos 0) 0).wr (R.BOB_STAT_cause 0)
      swHost).wr (R.BOB_STAT_done 0 0) 0).wr (R.BOB_STAT_done 0 1) 0).wr (R.BOB_TIME_ns 0) 0).wr (R.BOB_STAT_state
      0) bbSwapping)).putBob 0
      { (bobClear 0 ((((((((engineNext 0 ([8, 17, 26, 35].foldl (fun zs e => calAbort 0 e zs) (loopStop (laneAt 0 0) (bobPreempt (clusterDie 0) 0 (((((wSwapDet.wr R.SWP_CMD_op 0).wr R.SWP_CMD_cluster 0).wr R.SWP_CMD_pos 0).wr R.SWP_CMD_refused 0))))))).wr (R.BOB_STAT_pos 0) 0).wr (R.BOB_STAT_cause 0) swHost).wr (R.BOB_STAT_done 0 0) 0).wr (R.BOB_STAT_done 0 1) 0).wr (R.BOB_TIME_ns 0) 0).wr (R.BOB_STAT_state 0) bbSwapping)).bob 0 with since := (bobClear 0 ((((((((engineNext 0 ([8, 17, 26, 35].foldl (fun zs e => calAbort 0 e zs) (loopStop (laneAt 0 0) (bobPreempt (clusterDie 0) 0 (((((wSwapDet.wr R.SWP_CMD_op 0).wr R.SWP_CMD_cluster 0).wr R.SWP_CMD_pos 0).wr R.SWP_CMD_refused 0))))))).wr (R.BOB_STAT_pos 0) 0).wr (R.BOB_STAT_cause 0) swHost).wr (R.BOB_STAT_done 0 0) 0).wr (R.BOB_STAT_done 0 1) 0).wr (R.BOB_TIME_ns 0) 0).wr (R.BOB_STAT_state 0) bbSwapping)).clock, held := 0, failedSide := 2, inA := false, inB := false, dropped := [], dupA := none, dupB := none, rested := [], nbrAt := none, fails := [], intr := 2, txFail := false })
      zu.2.1 zu.1 = 7) = true) ∧
    (0 < clustersOf wRun ∧ pageOpen wRun 0xD = true ∧ swapOk wRun 0 0 = false) ∧
    (0 < clustersOf wBobIn ∧ pageOpen wBobIn 0xD = true ∧ bobState wBobIn 0 = bbIn ∧ endFaulty wBobIn (bobLane
      wBobIn 0) .a = false ∧ endFaulty wBobIn (bobLane wBobIn 0) .b = false) ∧
    (0 < clustersOf wRun ∧ pageOpen wRun 0xD = true ∧ (bobState wRun 0 ≠ bbIn ∨ endFaulty wRun (bobLane wRun 0) .a =
      true ∨ endFaulty wRun (bobLane wRun 0) .b = true)) ∧
    (0 < clustersOf wBobOut ∧ pageOpen wBobOut 0xD = true ∧ bobState wBobOut 0 = bbOut) ∧
    (0 < clustersOf wRun ∧ pageOpen wRun 0xD = true ∧ bobState wRun 0 ≠ bbOut) ∧
    (0 < clustersOf wBobReady ∧ pageOpen wBobReady 0xD = true ∧ bobState wBobReady 0 = bbReady) ∧
    (0 < clustersOf wBobIn ∧ pageOpen wBobIn 0xD = true ∧ bobState wBobIn 0 ≠ bbReady) := by
  refine ⟨?_, ?_, ?_, ?_, ?_, ?_, ?_, ?_, ?_, ?_, ?_, ?_, ?_, ?_, ?_, ?_, ?_, ?_, ?_⟩ <;> decide +kernel

/-- The hypotheses of ReferenceClocks can be met. -/
theorem witness_referenceClocks :
    (judging
      ({ wJudgeStart with clk := { wJudgeStart.clk with nativeOk := wJudgeStart.clk.nativeOk || decide (wJudgeStart.dev.phase = Phase.start) } })
      = true ∧
      ({ wJudgeStart with clk := { wJudgeStart.clk with nativeOk := wJudgeStart.clk.nativeOk || decide (wJudgeStart.dev.phase = Phase.start) } }).clk.judgeNow
      = false ∧ clocksStarting (armMonitor
      { (({ wJudgeStart with clk := { wJudgeStart.clk with nativeOk := wJudgeStart.clk.nativeOk || decide (wJudgeStart.dev.phase = Phase.start) } }).wr R.CLK_STAT_refclk_good 1).wr R.CLK_STAT_judge_used 0 with clk := { ({ wJudgeStart with clk := { wJudgeStart.clk with nativeOk := wJudgeStart.clk.nativeOk || decide (wJudgeStart.dev.phase = Phase.start) } }).clk with goodSince := some ({ wJudgeStart with clk := { wJudgeStart.clk with nativeOk := wJudgeStart.clk.nativeOk || decide (wJudgeStart.dev.phase = Phase.start) } }).clock, holdPassed := false, rejudge := false } })
      = true) ∧
    (judging
      ({ wJudgeIfo with clk := { wJudgeIfo.clk with nativeOk := wJudgeIfo.clk.nativeOk || decide (wJudgeIfo.dev.phase = Phase.start) } })
      = true ∧
      ({ wJudgeIfo with clk := { wJudgeIfo.clk with nativeOk := wJudgeIfo.clk.nativeOk || decide (wJudgeIfo.dev.phase = Phase.start) } }).clk.judgeNow
      = false ∧ clocksStarting (armMonitor
      { (({ wJudgeIfo with clk := { wJudgeIfo.clk with nativeOk := wJudgeIfo.clk.nativeOk || decide (wJudgeIfo.dev.phase = Phase.start) } }).wr R.CLK_STAT_refclk_good 1).wr R.CLK_STAT_judge_used 0 with clk := { ({ wJudgeIfo with clk := { wJudgeIfo.clk with nativeOk := wJudgeIfo.clk.nativeOk || decide (wJudgeIfo.dev.phase = Phase.start) } }).clk with goodSince := some ({ wJudgeIfo with clk := { wJudgeIfo.clk with nativeOk := wJudgeIfo.clk.nativeOk || decide (wJudgeIfo.dev.phase = Phase.start) } }).clock, holdPassed := false, rejudge := false } })
      = false ∧ (armMonitor
      { (({ wJudgeIfo with clk := { wJudgeIfo.clk with nativeOk := wJudgeIfo.clk.nativeOk || decide (wJudgeIfo.dev.phase = Phase.start) } }).wr R.CLK_STAT_refclk_good 1).wr R.CLK_STAT_judge_used 0 with clk := { ({ wJudgeIfo with clk := { wJudgeIfo.clk with nativeOk := wJudgeIfo.clk.nativeOk || decide (wJudgeIfo.dev.phase = Phase.start) } }).clk with goodSince := some ({ wJudgeIfo with clk := { wJudgeIfo.clk with nativeOk := wJudgeIfo.clk.nativeOk || decide (wJudgeIfo.dev.phase = Phase.start) } }).clock, holdPassed := false, rejudge := false } }).on
      R.CLK_STAT_ifo_ready = true) ∧
    (judging
      ({ wJudge with clk := { wJudge.clk with nativeOk := wJudge.clk.nativeOk || decide (wJudge.dev.phase = Phase.start) } })
      = true ∧
      ({ wJudge with clk := { wJudge.clk with nativeOk := wJudge.clk.nativeOk || decide (wJudge.dev.phase = Phase.start) } }).clk.judgeNow
      = false ∧ clocksStarting (armMonitor
      { (({ wJudge with clk := { wJudge.clk with nativeOk := wJudge.clk.nativeOk || decide (wJudge.dev.phase = Phase.start) } }).wr R.CLK_STAT_refclk_good 1).wr R.CLK_STAT_judge_used 0 with clk := { ({ wJudge with clk := { wJudge.clk with nativeOk := wJudge.clk.nativeOk || decide (wJudge.dev.phase = Phase.start) } }).clk with goodSince := some ({ wJudge with clk := { wJudge.clk with nativeOk := wJudge.clk.nativeOk || decide (wJudge.dev.phase = Phase.start) } }).clock, holdPassed := false, rejudge := false } })
      = false ∧ (armMonitor
      { (({ wJudge with clk := { wJudge.clk with nativeOk := wJudge.clk.nativeOk || decide (wJudge.dev.phase = Phase.start) } }).wr R.CLK_STAT_refclk_good 1).wr R.CLK_STAT_judge_used 0 with clk := { ({ wJudge with clk := { wJudge.clk with nativeOk := wJudge.clk.nativeOk || decide (wJudge.dev.phase = Phase.start) } }).clk with goodSince := some ({ wJudge with clk := { wJudge.clk with nativeOk := wJudge.clk.nativeOk || decide (wJudge.dev.phase = Phase.start) } }).clock, holdPassed := false, rejudge := false } }).on
      R.CLK_STAT_ifo_ready = false) ∧
    (judging wJudgeC = true ∧ (wJudgeC.clk.judgeNow || judgeCompat wJudgeC) = true ∧ wJudgeC.on R.CLK_STAT_ifo_ready
      = true ∧ 3973 ≤ 4096 ∧ 4096 ≤ 4219 ∧ clocksStarting (armMonitor
      { (wJudgeC.wr R.CLK_STAT_refclk_good 1).wr R.CLK_STAT_judge_used 1 with clk := { wJudgeC.clk with goodSince := some wJudgeC.clock, holdPassed := false, rejudge := false } })
      = false ∧ (armMonitor
      { (wJudgeC.wr R.CLK_STAT_refclk_good 1).wr R.CLK_STAT_judge_used 1 with clk := { wJudgeC.clk with goodSince := some wJudgeC.clock, holdPassed := false, rejudge := false } }).on
      R.CLK_STAT_ifo_ready = true) ∧
    (judging wJudgeCStart = true ∧ (wJudgeCStart.clk.judgeNow || judgeCompat wJudgeCStart) = true ∧ wJudgeCStart.on
      R.CLK_STAT_ifo_ready = true ∧ 3973 ≤ 4096 ∧ 4096 ≤ 4219 ∧ clocksStarting (armMonitor
      { (wJudgeCStart.wr R.CLK_STAT_refclk_good 1).wr R.CLK_STAT_judge_used 1 with clk := { wJudgeCStart.clk with goodSince := some wJudgeCStart.clock, holdPassed := false, rejudge := false } })
      = true) ∧
    (judging wJudgeC = true ∧ (wJudgeC.clk.judgeNow || judgeCompat wJudgeC) = true ∧ wJudgeC.on R.CLK_STAT_ifo_ready
      = true ∧ (4220 < 3973 ∨ 4219 < 4220 ∨ false = true)) ∧
    (clocksAwake wRun = true ∧ (clocksStarting (armMonitor
      { ((wRun.wr R.CLK_STAT_ifo_ready 1).wr R.CLK_STAT_ifo_low 0) with clk := { ((wRun.wr R.CLK_STAT_ifo_ready 1).wr R.CLK_STAT_ifo_low 0).clk with aoRefclk := false } })
      = false ∨ (armMonitor
      { ((wRun.wr R.CLK_STAT_ifo_ready 1).wr R.CLK_STAT_ifo_low 0) with clk := { ((wRun.wr R.CLK_STAT_ifo_ready 1).wr R.CLK_STAT_ifo_low 0).clk with aoRefclk := false } }).on
      R.CLK_STAT_refclk_good = true)) ∧
    (clocksAwake wStart = true ∧ clocksStarting (armMonitor
      { ((wStart.wr R.CLK_STAT_ifo_ready 1).wr R.CLK_STAT_ifo_low 0) with clk := { ((wStart.wr R.CLK_STAT_ifo_ready 1).wr R.CLK_STAT_ifo_low 0).clk with aoRefclk := false } })
      = true ∧ (armMonitor
      { ((wStart.wr R.CLK_STAT_ifo_ready 1).wr R.CLK_STAT_ifo_low 0) with clk := { ((wStart.wr R.CLK_STAT_ifo_ready 1).wr R.CLK_STAT_ifo_low 0).clk with aoRefclk := false } }).on
      R.CLK_STAT_refclk_good = false) ∧
    ((wLate wStart).on R.CLK_STAT_ifo_ready = false ∧ 200000 ≤ (wLate wStart).clock ∧ (wLate wStart).dev.phase =
      .start ∧ (wLate wStart).rd R.START_STAT_result = 0) ∧
    (wBothClk.on R.CLK_STAT_refclk_good = true ∧ wBothClk.on R.CLK_STAT_ifo_ready = true ∧ wBothClk.on
      R.CLK_STAT_ifo_low = false) ∧
    (wMon.on R.CLK_STAT_mon_armed = true ∧ 973 ≤ 1024 ∧ 1024 ≤ 1075) ∧
    (((refclkBad (pllsWith [0, 2] (fun u zs => zs.setPllRef u 1) ((wMonPlls.wr R.MON_LAST_count (min 972 2047)).wr
      R.MON_LAST_valid 1)))) = (refclkBad (pllsWith [0, 2] (fun zu zs => zs.setPllRef zu 1) ((wMonPlls.wr
      R.MON_LAST_count (min 972 2047)).wr R.MON_LAST_valid 1))) ∧ wMonPlls.on R.CLK_STAT_mon_armed = true ∧ (972 <
      973 ∨ 1075 < 972) ∧ (pllUnits ((refclkBad (pllsWith [0, 2] (fun u zs => zs.setPllRef u 1) ((wMonPlls.wr
      R.MON_LAST_count (min 972 2047)).wr R.MON_LAST_valid 1))))).any (fun x => pllRef ((refclkBad (pllsWith [0, 2]
      (fun u zs => zs.setPllRef u 1) ((wMonPlls.wr R.MON_LAST_count (min 972 2047)).wr R.MON_LAST_valid 1)))) x = 3)
      = false) ∧
    (((refclkBad (pllsWith [0, 2] (fun u zs => zs.setPllRef u 1) ((wMonStop.wr R.MON_LAST_count (min 1076 2047)).wr
      R.MON_LAST_valid 1)))) = (refclkBad (pllsWith [0, 2] (fun zu zs => zs.setPllRef zu 1) ((wMonStop.wr
      R.MON_LAST_count (min 1076 2047)).wr R.MON_LAST_valid 1))) ∧ wMonStop.on R.CLK_STAT_mon_armed = true ∧ (1076 <
      973 ∨ 1075 < 1076) ∧ (pllUnits ((refclkBad (pllsWith [0, 2] (fun u zs => zs.setPllRef u 1) ((wMonStop.wr
      R.MON_LAST_count (min 1076 2047)).wr R.MON_LAST_valid 1))))).any (fun x => pllRef ((refclkBad (pllsWith [0, 2]
      (fun u zs => zs.setPllRef u 1) ((wMonStop.wr R.MON_LAST_count (min 1076 2047)).wr R.MON_LAST_valid 1)))) x =
      3) = true) ∧
    ((wHeldLong wBothClkNoAuto).on R.CLK_STAT_refclk_good = true ∧ passed (wHeldLong wBothClkNoAuto).clk.goodSince
      (1000000 * max 1 ((wHeldLong wBothClkNoAuto).rd R.CLK_CFG_return_hold)) (wHeldLong wBothClkNoAuto).clock =
      true ∧ (wHeldLong wBothClkNoAuto).on R.CLK_CFG_auto_return = false) ∧
    ((wHeldLong wBothClk).on R.CLK_STAT_refclk_good = true ∧ passed (wHeldLong wBothClk).clk.goodSince (1000000 *
      max 1 ((wHeldLong wBothClk).rd R.CLK_CFG_return_hold)) (wHeldLong wBothClk).clock = true ∧ (wHeldLong
      wBothClk).on R.CLK_CFG_auto_return = true) ∧
    (pageOpen wRun 1 = true ∧ ((((wRun.wr R.CLK_CFG_return_hold (bits 0 31 24)).wr R.CLK_CFG_auto_return (bits 0 8
      8)).wr R.CLK_CFG_judge (bits 0 1 0)).on R.CLK_CFG_auto_return = false ∨ (((wRun.wr R.CLK_CFG_return_hold (bits
      0 31 24)).wr R.CLK_CFG_auto_return (bits 0 8 8)).wr R.CLK_CFG_judge (bits 0 1 0)).clk.holdPassed = false ∨
      (((wRun.wr R.CLK_CFG_return_hold (bits 0 31 24)).wr R.CLK_CFG_auto_return (bits 0 8 8)).wr R.CLK_CFG_judge
      (bits 0 1 0)).on R.CLK_STAT_refclk_good = false)) ∧
    (pageOpen wHoldPassed 1 = true ∧ (((wHoldPassed.wr R.CLK_CFG_return_hold (bits 256 31 24)).wr
      R.CLK_CFG_auto_return (bits 256 8 8)).wr R.CLK_CFG_judge (bits 256 1 0)).on R.CLK_CFG_auto_return = true ∧
      (((wHoldPassed.wr R.CLK_CFG_return_hold (bits 256 31 24)).wr R.CLK_CFG_auto_return (bits 256 8 8)).wr
      R.CLK_CFG_judge (bits 256 1 0)).clk.holdPassed = true ∧ (((wHoldPassed.wr R.CLK_CFG_return_hold (bits 256 31
      24)).wr R.CLK_CFG_auto_return (bits 256 8 8)).wr R.CLK_CFG_judge (bits 256 1 0)).on R.CLK_STAT_refclk_good =
      true) ∧
    (wBothClk.on R.CLK_STAT_ifo_ready = true ∧ wBothClk.on R.CLK_STAT_ifo_low = false ∧ inRun (armMonitor (((if
      judging wBothClk && wBothClk.clk.judgeNow then
      { wBothClk.bump R.CLK_CNT_judge_fail with clk := { (wBothClk.bump R.CLK_CNT_judge_fail).clk with judgeNow := judgeCompat (wBothClk.bump R.CLK_CNT_judge_fail) } }
      else wBothClk)).wr R.CLK_STAT_ifo_ready 0)) = true ∧ ((armMonitor (((if judging wBothClk &&
      wBothClk.clk.judgeNow then
      { wBothClk.bump R.CLK_CNT_judge_fail with clk := { (wBothClk.bump R.CLK_CNT_judge_fail).clk with judgeNow := judgeCompat (wBothClk.bump R.CLK_CNT_judge_fail) } }
      else wBothClk)).wr R.CLK_STAT_ifo_ready 0)).raise 257).on R.CLK_STAT_refclk_good = true) ∧
    (wJudgeIfo.on R.CLK_STAT_ifo_ready = true ∧ wJudgeIfo.on R.CLK_STAT_ifo_low = false ∧ inRun (armMonitor (((if
      judging wJudgeIfo && wJudgeIfo.clk.judgeNow then
      { wJudgeIfo.bump R.CLK_CNT_judge_fail with clk := { (wJudgeIfo.bump R.CLK_CNT_judge_fail).clk with judgeNow := judgeCompat (wJudgeIfo.bump R.CLK_CNT_judge_fail) } }
      else wJudgeIfo)).wr R.CLK_STAT_ifo_ready 0)) = true ∧ ((armMonitor (((if judging wJudgeIfo &&
      wJudgeIfo.clk.judgeNow then
      { wJudgeIfo.bump R.CLK_CNT_judge_fail with clk := { (wJudgeIfo.bump R.CLK_CNT_judge_fail).clk with judgeNow := judgeCompat (wJudgeIfo.bump R.CLK_CNT_judge_fail) } }
      else wJudgeIfo)).wr R.CLK_STAT_ifo_ready 0)).raise 257).on R.CLK_STAT_refclk_good = false) ∧
    (wStartIfo.on R.CLK_STAT_ifo_ready = true ∧ wStartIfo.on R.CLK_STAT_ifo_low = false ∧ inRun (armMonitor (((if
      judging wStartIfo && wStartIfo.clk.judgeNow then
      { wStartIfo.bump R.CLK_CNT_judge_fail with clk := { (wStartIfo.bump R.CLK_CNT_judge_fail).clk with judgeNow := judgeCompat (wStartIfo.bump R.CLK_CNT_judge_fail) } }
      else wStartIfo)).wr R.CLK_STAT_ifo_ready 0)) = false) := by
  refine ⟨?_, ?_, ?_, ?_, ?_, ?_, ?_, ?_, ?_, ?_, ?_, ?_, ?_, ?_, ?_, ?_, ?_, ?_, ?_, ?_⟩ <;> decide +kernel

/-- The hypotheses of PllEvents can be met. -/
theorem witness_pllEvents :
    ((pllUnits wPllRef).contains 0 = true ∧ pllRef wPllRef 0 = 0) ∧
    ((pllUnits wPll2).contains 0 = true ∧ (pllRef wPll2 0 = 2 ∨ pllRef wPll2 0 = 3) ∧ wPll2.on
      R.CLK_STAT_refclk_good = true) ∧
    ((pllUnits wPll2On).contains 0 = true ∧ (pllRef wPll2On 0 = 2 ∨ pllRef wPll2On 0 = 3) ∧ wPll2On.on
      R.CLK_STAT_ifo_ready = true ∧ (wPll2On.setPllRef 0 1).on R.CLK_STAT_refclk_good = true ∧ (pllUnits (refclkBad
      (wPll2On.setPllRef 0 1))).any (fun x => pllRef (refclkBad (wPll2On.setPllRef 0 1)) x = 3) = false ∧
      (({ (refclkBad (wPll2On.setPllRef 0 1)) with clk := { (refclkBad (wPll2On.setPllRef 0 1)).clk with tripDue := false } }.raise
      256).bump R.CLK_CNT_trips).clk.tripDue = false) ∧
    ((pllUnits wPll2Stop).contains 0 = true ∧ (pllRef wPll2Stop 0 = 2 ∨ pllRef wPll2Stop 0 = 3) ∧ wPll2Stop.on
      R.CLK_STAT_ifo_ready = true ∧ (wPll2Stop.setPllRef 0 1).on R.CLK_STAT_refclk_good = true ∧ (pllUnits
      (refclkBad (wPll2Stop.setPllRef 0 1))).any (fun x => pllRef (refclkBad (wPll2Stop.setPllRef 0 1)) x = 3) =
      true ∧ (pllUnits
      ({ (refclkBad (wPll2Stop.setPllRef 0 1)) with clk := { (refclkBad (wPll2Stop.setPllRef 0 1)).clk with tripDue := true } })).all
      (fun x => pllRef
      ({ (refclkBad (wPll2Stop.setPllRef 0 1)) with clk := { (refclkBad (wPll2Stop.setPllRef 0 1)).clk with tripDue := true } })
      x ≠ 3) = false) ∧
    ((pllUnits wPllLast).contains 0 = true ∧ (pllRef wPllLast 0 = 2 ∨ pllRef wPllLast 0 = 3) ∧ wPllLast.on
      R.CLK_STAT_ifo_ready = true ∧ (wPllLast.setPllRef 0 1).on R.CLK_STAT_refclk_good = false ∧ (wPllLast.setPllRef
      0 1).clk.tripDue = true ∧ (pllUnits (wPllLast.setPllRef 0 1)).all (fun x => pllRef (wPllLast.setPllRef 0 1) x
      ≠ 3) = true) ∧
    ((pllUnits wPll2Bad).contains 0 = true ∧ (pllRef wPll2Bad 0 = 2 ∨ pllRef wPll2Bad 0 = 3) ∧ wPll2Bad.on
      R.CLK_STAT_ifo_ready = true ∧ (wPll2Bad.setPllRef 0 1).on R.CLK_STAT_refclk_good = false ∧
      ((wPll2Bad.setPllRef 0 1).clk.tripDue = false ∨ (pllUnits (wPll2Bad.setPllRef 0 1)).all (fun x => pllRef
      (wPll2Bad.setPllRef 0 1) x ≠ 3) = false)) ∧
    (noClock wRun = true ∧ inRun wRun = true) ∧
    (0 < diesOf wRun ∧ wRun.on (R.CLK_STAT_core_lock 0) = true) ∧
    (0 < diesOf wRun ∧ clocksAwake wRun = true ∧ pllRef wRun 0 ≠ 3) ∧
    (clocksAwake wRun = true ∧ pllRef wRun 2 ≠ 3) ∧
    (isLz4064 (put [(R.CLK_STAT_seam_lock, 1)] wRun) = false ∧ (put [(R.CLK_STAT_seam_lock, 1)] wRun).on
      R.CLK_STAT_seam_lock = true) ∧
    (isLz4064 wRun = false ∧ clocksAwake wRun = true ∧ pllRef wRun 3 ≠ 3) := by
  refine ⟨?_, ?_, ?_, ?_, ?_, ?_, ?_, ?_, ?_, ?_, ?_, ?_⟩ <;> decide +kernel

/-- The hypotheses of PowerAndGates can be met. -/
theorem witness_powerAndGates :
    (pageOpen wRun 2 = true ∧ (plWhy (0 % 2) (0 % 4) ((wRun.wr R.PL_CMD_die 0).wr R.PL_CMD_level 0)) ≠ 0) ∧
    (pageOpen wPlHigh 2 = true ∧ (plWhy (0 % 2) (0 % 4) ((wPlHigh.wr R.PL_CMD_die 0).wr R.PL_CMD_level 0)) = 0 ∧ 0 %
      4 < (((((((wPlHigh.wr R.PL_CMD_die 0).wr R.PL_CMD_level 0).wr R.PL_LAST_valid 1).wr R.PL_LAST_why (plWhy (0 %
      2) (0 % 4) ((wPlHigh.wr R.PL_CMD_die 0).wr R.PL_CMD_level 0))).wr R.PL_LAST_die (0 % 2)).wr R.PL_LAST_level (0
      % 4)).rd (R.PL_STAT_level (0 % 2)))) ∧
    (pageOpen wPlLow 2 = true ∧ (plWhy (0 % 2) (1 % 4) ((wPlLow.wr R.PL_CMD_die 0).wr R.PL_CMD_level 1)) = 0 ∧
      (((((((wPlLow.wr R.PL_CMD_die 0).wr R.PL_CMD_level 1).wr R.PL_LAST_valid 1).wr R.PL_LAST_why (plWhy (0 % 2) (1
      % 4) ((wPlLow.wr R.PL_CMD_die 0).wr R.PL_CMD_level 1))).wr R.PL_LAST_die (0 % 2)).wr R.PL_LAST_level (1 %
      4)).rd (R.PL_STAT_level (0 % 2))) ≤ 1 % 4) ∧
    (0 < diesOf wPl1 ∧ coreHeld wPl1 0 = false ∧ (levelVout 0) ≤ levelVout (wPl1.rd (R.PL_STAT_target 0)) + 1 ∧
      levelVout (wPl1.rd (R.PL_STAT_target 0)) ≤ (levelVout 0) + 1 ∧ wPl1.rd (R.PL_STAT_phase 0) = 1) ∧
    (0 < diesOf wPl3 ∧ coreHeld wPl3 0 = false ∧ (levelVout 0) ≤ levelVout (wPl3.rd (R.PL_STAT_target 0)) + 1 ∧
      levelVout (wPl3.rd (R.PL_STAT_target 0)) ≤ (levelVout 0) + 1 ∧ wPl3.rd (R.PL_STAT_phase 0) = 3) ∧
    (0 < diesOf wPl2 ∧ wPl2.rd (R.PL_STAT_phase 0) = 2 ∧ coreHeld wPl2 0 = false ∧ wPl2.rd (R.PL_STAT_target 0) <
      (((if 2 ≤ wPl2.rd (R.PL_STAT_target 0) then slicesEnd 0 resLimit causePlevel (prkNotice (wPl2.wr
      (R.PL_STAT_level 0) (wPl2.rd (R.PL_STAT_target 0)))) else suspectSlice 0 (prkNotice (wPl2.wr (R.PL_STAT_level
      0) (wPl2.rd (R.PL_STAT_target 0)))))).pl 0).fromLevel) ∧
    (0 < diesOf wPl2up ∧ wPl2up.rd (R.PL_STAT_phase 0) = 2 ∧ coreHeld wPl2up 0 = false ∧ (((if 2 ≤ wPl2up.rd
      (R.PL_STAT_target 0) then slicesEnd 0 resLimit causePlevel (prkNotice (wPl2up.wr (R.PL_STAT_level 0)
      (wPl2up.rd (R.PL_STAT_target 0)))) else suspectSlice 0 (prkNotice (wPl2up.wr (R.PL_STAT_level 0) (wPl2up.rd
      (R.PL_STAT_target 0)))))).pl 0).fromLevel ≤ wPl2up.rd (R.PL_STAT_target 0)) ∧
    (pageExists (put [(R.CLK_EN_en 0x10, 0)] wRun) 0x10 = true ∧ phaseOpens (put [(R.CLK_EN_en 0x10, 0)] wRun) 0x10
      = true ∧ bit 1 0 = true ∧ (((gatePair 0x10).foldl (fun x q => x.wr (R.CLK_EN_refused q) 0) (put [(R.CLK_EN_en
      0x10, 0)] wRun))).rd (R.CLK_EN_en 0x10) = 0) ∧
    (pageExists wRun 0x10 = true ∧ phaseOpens wRun 0x10 = true ∧ (bit 1 0 = true ↔ (((gatePair 0x10).foldl (fun x q
      => x.wr (R.CLK_EN_refused q) 0) wRun)).rd (R.CLK_EN_en 0x10) ≠ 0)) ∧
    (pageExists wRun 0x10 = true ∧ phaseOpens wRun 0x10 = true ∧ bit 0 0 = false ∧ (((gatePair 0x10).foldl (fun x q
      => x.wr (R.CLK_EN_refused q) 0) wRun)).rd (R.CLK_EN_en 0x10) ≠ 0 ∧ gateable 0x10 = true ∧ mayGate (((gatePair
      0x10).foldl (fun x q => x.wr (R.CLK_EN_refused q) 0) wRun)) 0x10 = true) ∧
    (pageExists wRun 0 = true ∧ phaseOpens wRun 0 = true ∧ bit 0 0 = false ∧ (((gatePair 0).foldl (fun x q => x.wr
      (R.CLK_EN_refused q) 0) wRun)).rd (R.CLK_EN_en 0) ≠ 0 ∧ (gateable 0 = false ∨ mayGate (((gatePair 0).foldl
      (fun x q => x.wr (R.CLK_EN_refused q) 0) wRun)) 0 = false)) ∧
    (pageOpen wRun 1 = true ∧ wRun.on R.FM_CMD_busy = false ∧ wRun.rd R.FM_SEL_meas_sel < 56 ∧ wRun.rd
      R.FM_SEL_ref_sel < 56) ∧
    (pageOpen (put [(R.FM_SEL_meas_sel, 60)] wRun) 1 = true ∧ (put [(R.FM_SEL_meas_sel, 60)] wRun).on R.FM_CMD_busy
      = false ∧ (56 ≤ (put [(R.FM_SEL_meas_sel, 60)] wRun).rd R.FM_SEL_meas_sel ∨ 56 ≤ (put [(R.FM_SEL_meas_sel,
      60)] wRun).rd R.FM_SEL_ref_sel)) ∧
    (wFm.on R.FM_CMD_busy = true) ∧
    (wFm.on R.FM_CMD_busy = true ∧ 2 ≤ 2 ∧ 2 ≤ 3) := by
  refine ⟨?_, ?_, ?_, ?_, ?_, ?_, ?_, ?_, ?_, ?_, ?_, ?_, ?_, ?_, ?_⟩ <;> decide +kernel

/-- The hypotheses of WatchCommands can be met. -/
theorem witness_watchCommands :
    (pageOpen wRun 2 = true ∧ ((wRun.wrB R.WATCH_CMD_force true).wr R.WATCH_CMD_op 0).on R.WATCH_CMD_busy = false ∧
      watchWhy ((wRun.wrB R.WATCH_CMD_force true).wr R.WATCH_CMD_op 0) true = 0) ∧
    (pageOpen wWatch 2 = true ∧ ((wWatch.wrB R.WATCH_CMD_force false).wr R.WATCH_CMD_op 0).on R.WATCH_CMD_busy =
      false ∧ watchWhy ((wWatch.wrB R.WATCH_CMD_force false).wr R.WATCH_CMD_op 0) false ≠ 0) ∧
    (wEntering.dev.watchEntry = true ∧ wEntering.dev.waking = false ∧ eieAwaited wEntering = false) ∧
    (pageOpen wWatch 2 = true ∧ (wWatch.wr R.WATCH_CMD_op 1).on R.WATCH_CMD_busy = false ∧ wWatch.dev.phase =
      .watch) ∧
    (pageOpen wRun 2 = true ∧ (wRun.wr R.WATCH_CMD_op 1).on R.WATCH_CMD_busy = false ∧ wRun.dev.phase ≠ .watch) ∧
    (canWake wWatch = true ∧ wWatch.on R.WATCH_CFG_wake_n_en = true) ∧
    (lanePresent wWatchLink 0 = true ∧ canWake wWatchLink = true ∧ wWatchLink.on R.WATCH_CFG_sd_en = true ∧ (endUse
      wWatchLink 0 Side.a).isSome = true) ∧
    (256 < 320 ∧ canWake wWatchNmi = true ∧ sourceExists wWatchNmi 256 = true ∧ wWatchNmi.on (R.SRC_CFG_pend 256) =
      true ∧ isNmi 256 = true) ∧
    (260 < 320 ∧ canWake wWatchSrc = true ∧ sourceExists wWatchSrc 260 = true ∧ wWatchSrc.on (R.SRC_CFG_pend 260) =
      true ∧ isNmi 260 = false ∧ watched wWatchSrc 260 = true) ∧
    ((enterKept (if
      ((({ (((List.range (diesOf wWaking)).foldl (fun zs d => zs.wr (R.PL_STAT_vout d) (levelVout (zs.rd (R.PL_STAT_level d)))) wWaking)) with dev := { (((List.range (diesOf wWaking)).foldl (fun zs d => zs.wr (R.PL_STAT_vout d) (levelVout (zs.rd (R.PL_STAT_level d)))) wWaking)).dev with phase := .run, waking := false, watchEntry := false } }
      : State).wr R.WATCH_STAT_wake_us (min ((wWaking.clock - wWaking.dev.wakeAt) / 1000) 65535)).wr
      R.WATCH_CMD_busy 0).rd (R.CLK_EN_en 7) = 1 then bistResume
      ((({ (((List.range (diesOf wWaking)).foldl (fun zs d => zs.wr (R.PL_STAT_vout d) (levelVout (zs.rd (R.PL_STAT_level d)))) wWaking)) with dev := { (((List.range (diesOf wWaking)).foldl (fun zs d => zs.wr (R.PL_STAT_vout d) (levelVout (zs.rd (R.PL_STAT_level d)))) wWaking)).dev with phase := .run, waking := false, watchEntry := false } }
      : State).wr R.WATCH_STAT_wake_us (min ((wWaking.clock - wWaking.dev.wakeAt) / 1000) 65535)).wr
      R.WATCH_CMD_busy 0) else
      ((({ (((List.range (diesOf wWaking)).foldl (fun zs d => zs.wr (R.PL_STAT_vout d) (levelVout (zs.rd (R.PL_STAT_level d)))) wWaking)) with dev := { (((List.range (diesOf wWaking)).foldl (fun zs d => zs.wr (R.PL_STAT_vout d) (levelVout (zs.rd (R.PL_STAT_level d)))) wWaking)).dev with phase := .run, waking := false, watchEntry := false } }
      : State).wr R.WATCH_STAT_wake_us (min ((wWaking.clock - wWaking.dev.wakeAt) / 1000) 65535)).wr
      R.WATCH_CMD_busy 0))) = enterKept (if
      ((({ (((List.range (diesOf wWaking)).foldl (fun zs d => zs.wr (R.PL_STAT_vout d) (levelVout (zs.rd (R.PL_STAT_level d)))) wWaking)) with dev := { (((List.range (diesOf wWaking)).foldl (fun zs d => zs.wr (R.PL_STAT_vout d) (levelVout (zs.rd (R.PL_STAT_level d)))) wWaking)).dev with phase := .run, waking := false, watchEntry := false } }
      : State).wr R.WATCH_STAT_wake_us (min ((wWaking.clock - wWaking.dev.wakeAt) / 1000) 65535)).wr
      R.WATCH_CMD_busy 0).rd (R.CLK_EN_en 7) = 1 then bistResume
      ((({ (((List.range (diesOf wWaking)).foldl (fun zs d => zs.wr (R.PL_STAT_vout d) (levelVout (zs.rd (R.PL_STAT_level d)))) wWaking)) with dev := { (((List.range (diesOf wWaking)).foldl (fun zs d => zs.wr (R.PL_STAT_vout d) (levelVout (zs.rd (R.PL_STAT_level d)))) wWaking)).dev with phase := .run, waking := false, watchEntry := false } }
      : State).wr R.WATCH_STAT_wake_us (min ((wWaking.clock - wWaking.dev.wakeAt) / 1000) 65535)).wr
      R.WATCH_CMD_busy 0) else
      ((({ (((List.range (diesOf wWaking)).foldl (fun zs d => zs.wr (R.PL_STAT_vout d) (levelVout (zs.rd (R.PL_STAT_level d)))) wWaking)) with dev := { (((List.range (diesOf wWaking)).foldl (fun zs d => zs.wr (R.PL_STAT_vout d) (levelVout (zs.rd (R.PL_STAT_level d)))) wWaking)).dev with phase := .run, waking := false, watchEntry := false } }
      : State).wr R.WATCH_STAT_wake_us (min ((wWaking.clock - wWaking.dev.wakeAt) / 1000) 65535)).wr
      R.WATCH_CMD_busy 0)) ∧ wWaking.dev.waking = true ∧ (pllUnits wWaking).all (fun zu => wWaking.on (pllLockFld
      zu) && pllRef wWaking zu ≠ 3) = true) ∧
    ((wLate wWakingRef).dev.waking = true ∧ (wLate wWakingRef).dev.wakeAt + 200000 ≤ (wLate wWakingRef).clock ∧
      (wLate wWakingRef).on R.CLK_STAT_ifo_ready = false ∧ ((wLate wWakingRef).raise 257).on R.CLK_STAT_refclk_good
      = true) ∧
    ((wLate wWaking).dev.waking = true ∧ (wLate wWaking).dev.wakeAt + 200000 ≤ (wLate wWaking).clock ∧ (wLate
      wWaking).on R.CLK_STAT_ifo_ready = false ∧ ((wLate wWaking).raise 257).on R.CLK_STAT_refclk_good = false) := by
  refine ⟨?_, ?_, ?_, ?_, ?_, ?_, ?_, ?_, ?_, ?_, ?_, ?_⟩ <;> decide +kernel

/-- The hypotheses of CalibrationEvents can be met. -/
theorem witness_calibrationEvents :
    (wRun.dev.phase ≠ .off ∧ (((List.range (clustersOf ((((if !((((((List.range (clustersOf wRun)).zip
      ([100])).foldl (fun zs p => tempOne p.1 p.2 zs) wRun)).wr R.TMP_STAT_hot (hottest ((((List.range (clustersOf
      wRun)).zip ([100])).foldl (fun zs p => tempOne p.1 p.2 zs) wRun)))).wr R.TMP_STAT_max (unsigned 11 (lastTemp
      ((((List.range (clustersOf wRun)).zip ([100])).foldl (fun zs p => tempOne p.1 p.2 zs) wRun)) (hottest
      ((((List.range (clustersOf wRun)).zip ([100])).foldl (fun zs p => tempOne p.1 p.2 zs) wRun)))))).sup.peakSet
      || signed 11 (((((((List.range (clustersOf wRun)).zip ([100])).foldl (fun zs p => tempOne p.1 p.2 zs)
      wRun)).wr R.TMP_STAT_hot (hottest ((((List.range (clustersOf wRun)).zip ([100])).foldl (fun zs p => tempOne
      p.1 p.2 zs) wRun)))).wr R.TMP_STAT_max (unsigned 11 (lastTemp ((((List.range (clustersOf wRun)).zip
      ([100])).foldl (fun zs p => tempOne p.1 p.2 zs) wRun)) (hottest ((((List.range (clustersOf wRun)).zip
      ([100])).foldl (fun zs p => tempOne p.1 p.2 zs) wRun)))))).rd R.TMP_PEAK_peak) < lastTemp ((((List.range
      (clustersOf wRun)).zip ([100])).foldl (fun zs p => tempOne p.1 p.2 zs) wRun)) (hottest ((((List.range
      (clustersOf wRun)).zip ([100])).foldl (fun zs p => tempOne p.1 p.2 zs) wRun))) then
      { (((((((List.range (clustersOf wRun)).zip ([100])).foldl (fun zs p => tempOne p.1 p.2 zs) wRun)).wr R.TMP_STAT_hot (hottest ((((List.range (clustersOf wRun)).zip ([100])).foldl (fun zs p => tempOne p.1 p.2 zs) wRun)))).wr R.TMP_STAT_max (unsigned 11 (lastTemp ((((List.range (clustersOf wRun)).zip ([100])).foldl (fun zs p => tempOne p.1 p.2 zs) wRun)) (hottest ((((List.range (clustersOf wRun)).zip ([100])).foldl (fun zs p => tempOne p.1 p.2 zs) wRun)))))).wr R.TMP_PEAK_cluster (hottest ((((List.range (clustersOf wRun)).zip ([100])).foldl (fun zs p => tempOne p.1 p.2 zs) wRun)))).wr R.TMP_PEAK_peak (unsigned 11 (lastTemp ((((List.range (clustersOf wRun)).zip ([100])).foldl (fun zs p => tempOne p.1 p.2 zs) wRun)) (hottest ((((List.range (clustersOf wRun)).zip ([100])).foldl (fun zs p => tempOne p.1 p.2 zs) wRun))))) with sup := { ((((((List.range (clustersOf wRun)).zip ([100])).foldl (fun zs p => tempOne p.1 p.2 zs) wRun)).wr R.TMP_STAT_hot (hottest ((((List.range (clustersOf wRun)).zip ([100])).foldl (fun zs p => tempOne p.1 p.2 zs) wRun)))).wr R.TMP_STAT_max (unsigned 11 (lastTemp ((((List.range (clustersOf wRun)).zip ([100])).foldl (fun zs p => tempOne p.1 p.2 zs) wRun)) (hottest ((((List.range (clustersOf wRun)).zip ([100])).foldl (fun zs p => tempOne p.1 p.2 zs) wRun)))))).sup with peakSet := true } }
      else ((((((List.range (clustersOf wRun)).zip ([100])).foldl (fun zs p => tempOne p.1 p.2 zs) wRun)).wr
      R.TMP_STAT_hot (hottest ((((List.range (clustersOf wRun)).zip ([100])).foldl (fun zs p => tempOne p.1 p.2 zs)
      wRun)))).wr R.TMP_STAT_max (unsigned 11 (lastTemp ((((List.range (clustersOf wRun)).zip ([100])).foldl (fun zs
      p => tempOne p.1 p.2 zs) wRun)) (hottest ((((List.range (clustersOf wRun)).zip ([100])).foldl (fun zs p =>
      tempOne p.1 p.2 zs) wRun)))))))).wrB R.TMP_STAT_crit ((if 440 < lastTemp ((((List.range (clustersOf wRun)).zip
      ([100])).foldl (fun zs p => tempOne p.1 p.2 zs) wRun)) (hottest ((((List.range (clustersOf wRun)).zip
      ([100])).foldl (fun zs p => tempOne p.1 p.2 zs) wRun))) then true else if lastTemp ((((List.range (clustersOf
      wRun)).zip ([100])).foldl (fun zs p => tempOne p.1 p.2 zs) wRun)) (hottest ((((List.range (clustersOf
      wRun)).zip ([100])).foldl (fun zs p => tempOne p.1 p.2 zs) wRun))) ≤ 420 then false else ((if
      !((((((List.range (clustersOf wRun)).zip ([100])).foldl (fun zs p => tempOne p.1 p.2 zs) wRun)).wr
      R.TMP_STAT_hot (hottest ((((List.range (clustersOf wRun)).zip ([100])).foldl (fun zs p => tempOne p.1 p.2 zs)
      wRun)))).wr R.TMP_STAT_max (unsigned 11 (lastTemp ((((List.range (clustersOf wRun)).zip ([100])).foldl (fun zs
      p => tempOne p.1 p.2 zs) wRun)) (hottest ((((List.range (clustersOf wRun)).zip ([100])).foldl (fun zs p =>
      tempOne p.1 p.2 zs) wRun)))))).sup.peakSet || signed 11 (((((((List.range (clustersOf wRun)).zip
      ([100])).foldl (fun zs p => tempOne p.1 p.2 zs) wRun)).wr R.TMP_STAT_hot (hottest ((((List.range (clustersOf
      wRun)).zip ([100])).foldl (fun zs p => tempOne p.1 p.2 zs) wRun)))).wr R.TMP_STAT_max (unsigned 11 (lastTemp
      ((((List.range (clustersOf wRun)).zip ([100])).foldl (fun zs p => tempOne p.1 p.2 zs) wRun)) (hottest
      ((((List.range (clustersOf wRun)).zip ([100])).foldl (fun zs p => tempOne p.1 p.2 zs) wRun)))))).rd
      R.TMP_PEAK_peak) < lastTemp ((((List.range (clustersOf wRun)).zip ([100])).foldl (fun zs p => tempOne p.1 p.2
      zs) wRun)) (hottest ((((List.range (clustersOf wRun)).zip ([100])).foldl (fun zs p => tempOne p.1 p.2 zs)
      wRun))) then
      { (((((((List.range (clustersOf wRun)).zip ([100])).foldl (fun zs p => tempOne p.1 p.2 zs) wRun)).wr R.TMP_STAT_hot (hottest ((((List.range (clustersOf wRun)).zip ([100])).foldl (fun zs p => tempOne p.1 p.2 zs) wRun)))).wr R.TMP_STAT_max (unsigned 11 (lastTemp ((((List.range (clustersOf wRun)).zip ([100])).foldl (fun zs p => tempOne p.1 p.2 zs) wRun)) (hottest ((((List.range (clustersOf wRun)).zip ([100])).foldl (fun zs p => tempOne p.1 p.2 zs) wRun)))))).wr R.TMP_PEAK_cluster (hottest ((((List.range (clustersOf wRun)).zip ([100])).foldl (fun zs p => tempOne p.1 p.2 zs) wRun)))).wr R.TMP_PEAK_peak (unsigned 11 (lastTemp ((((List.range (clustersOf wRun)).zip ([100])).foldl (fun zs p => tempOne p.1 p.2 zs) wRun)) (hottest ((((List.range (clustersOf wRun)).zip ([100])).foldl (fun zs p => tempOne p.1 p.2 zs) wRun))))) with sup := { ((((((List.range (clustersOf wRun)).zip ([100])).foldl (fun zs p => tempOne p.1 p.2 zs) wRun)).wr R.TMP_STAT_hot (hottest ((((List.range (clustersOf wRun)).zip ([100])).foldl (fun zs p => tempOne p.1 p.2 zs) wRun)))).wr R.TMP_STAT_max (unsigned 11 (lastTemp ((((List.range (clustersOf wRun)).zip ([100])).foldl (fun zs p => tempOne p.1 p.2 zs) wRun)) (hottest ((((List.range (clustersOf wRun)).zip ([100])).foldl (fun zs p => tempOne p.1 p.2 zs) wRun)))))).sup with peakSet := true } }
      else ((((((List.range (clustersOf wRun)).zip ([100])).foldl (fun zs p => tempOne p.1 p.2 zs) wRun)).wr
      R.TMP_STAT_hot (hottest ((((List.range (clustersOf wRun)).zip ([100])).foldl (fun zs p => tempOne p.1 p.2 zs)
      wRun)))).wr R.TMP_STAT_max (unsigned 11 (lastTemp ((((List.range (clustersOf wRun)).zip ([100])).foldl (fun zs
      p => tempOne p.1 p.2 zs) wRun)) (hottest ((((List.range (clustersOf wRun)).zip ([100])).foldl (fun zs p =>
      tempOne p.1 p.2 zs) wRun)))))))).on R.TMP_STAT_crit))).setInput 264 ((if 440 < lastTemp ((((List.range
      (clustersOf wRun)).zip ([100])).foldl (fun zs p => tempOne p.1 p.2 zs) wRun)) (hottest ((((List.range
      (clustersOf wRun)).zip ([100])).foldl (fun zs p => tempOne p.1 p.2 zs) wRun))) then true else if lastTemp
      ((((List.range (clustersOf wRun)).zip ([100])).foldl (fun zs p => tempOne p.1 p.2 zs) wRun)) (hottest
      ((((List.range (clustersOf wRun)).zip ([100])).foldl (fun zs p => tempOne p.1 p.2 zs) wRun))) ≤ 420 then false
      else ((if !((((((List.range (clustersOf wRun)).zip ([100])).foldl (fun zs p => tempOne p.1 p.2 zs) wRun)).wr
      R.TMP_STAT_hot (hottest ((((List.range (clustersOf wRun)).zip ([100])).foldl (fun zs p => tempOne p.1 p.2 zs)
      wRun)))).wr R.TMP_STAT_max (unsigned 11 (lastTemp ((((List.range (clustersOf wRun)).zip ([100])).foldl (fun zs
      p => tempOne p.1 p.2 zs) wRun)) (hottest ((((List.range (clustersOf wRun)).zip ([100])).foldl (fun zs p =>
      tempOne p.1 p.2 zs) wRun)))))).sup.peakSet || signed 11 (((((((List.range (clustersOf wRun)).zip
      ([100])).foldl (fun zs p => tempOne p.1 p.2 zs) wRun)).wr R.TMP_STAT_hot (hottest ((((List.range (clustersOf
      wRun)).zip ([100])).foldl (fun zs p => tempOne p.1 p.2 zs) wRun)))).wr R.TMP_STAT_max (unsigned 11 (lastTemp
      ((((List.range (clustersOf wRun)).zip ([100])).foldl (fun zs p => tempOne p.1 p.2 zs) wRun)) (hottest
      ((((List.range (clustersOf wRun)).zip ([100])).foldl (fun zs p => tempOne p.1 p.2 zs) wRun)))))).rd
      R.TMP_PEAK_peak) < lastTemp ((((List.range (clustersOf wRun)).zip ([100])).foldl (fun zs p => tempOne p.1 p.2
      zs) wRun)) (hottest ((((List.range (clustersOf wRun)).zip ([100])).foldl (fun zs p => tempOne p.1 p.2 zs)
      wRun))) then
      { (((((((List.range (clustersOf wRun)).zip ([100])).foldl (fun zs p => tempOne p.1 p.2 zs) wRun)).wr R.TMP_STAT_hot (hottest ((((List.range (clustersOf wRun)).zip ([100])).foldl (fun zs p => tempOne p.1 p.2 zs) wRun)))).wr R.TMP_STAT_max (unsigned 11 (lastTemp ((((List.range (clustersOf wRun)).zip ([100])).foldl (fun zs p => tempOne p.1 p.2 zs) wRun)) (hottest ((((List.range (clustersOf wRun)).zip ([100])).foldl (fun zs p => tempOne p.1 p.2 zs) wRun)))))).wr R.TMP_PEAK_cluster (hottest ((((List.range (clustersOf wRun)).zip ([100])).foldl (fun zs p => tempOne p.1 p.2 zs) wRun)))).wr R.TMP_PEAK_peak (unsigned 11 (lastTemp ((((List.range (clustersOf wRun)).zip ([100])).foldl (fun zs p => tempOne p.1 p.2 zs) wRun)) (hottest ((((List.range (clustersOf wRun)).zip ([100])).foldl (fun zs p => tempOne p.1 p.2 zs) wRun))))) with sup := { ((((((List.range (clustersOf wRun)).zip ([100])).foldl (fun zs p => tempOne p.1 p.2 zs) wRun)).wr R.TMP_STAT_hot (hottest ((((List.range (clustersOf wRun)).zip ([100])).foldl (fun zs p => tempOne p.1 p.2 zs) wRun)))).wr R.TMP_STAT_max (unsigned 11 (lastTemp ((((List.range (clustersOf wRun)).zip ([100])).foldl (fun zs p => tempOne p.1 p.2 zs) wRun)) (hottest ((((List.range (clustersOf wRun)).zip ([100])).foldl (fun zs p => tempOne p.1 p.2 zs) wRun)))))).sup with peakSet := true } }
      else ((((((List.range (clustersOf wRun)).zip ([100])).foldl (fun zs p => tempOne p.1 p.2 zs) wRun)).wr
      R.TMP_STAT_hot (hottest ((((List.range (clustersOf wRun)).zip ([100])).foldl (fun zs p => tempOne p.1 p.2 zs)
      wRun)))).wr R.TMP_STAT_max (unsigned 11 (lastTemp ((((List.range (clustersOf wRun)).zip ([100])).foldl (fun zs
      p => tempOne p.1 p.2 zs) wRun)) (hottest ((((List.range (clustersOf wRun)).zip ([100])).foldl (fun zs p =>
      tempOne p.1 p.2 zs) wRun)))))))).on R.TMP_STAT_crit))))).filter (fun c => 480 < lastTemp ((((if
      !((((((List.range (clustersOf wRun)).zip ([100])).foldl (fun zs p => tempOne p.1 p.2 zs) wRun)).wr
      R.TMP_STAT_hot (hottest ((((List.range (clustersOf wRun)).zip ([100])).foldl (fun zs p => tempOne p.1 p.2 zs)
      wRun)))).wr R.TMP_STAT_max (unsigned 11 (lastTemp ((((List.range (clustersOf wRun)).zip ([100])).foldl (fun zs
      p => tempOne p.1 p.2 zs) wRun)) (hottest ((((List.range (clustersOf wRun)).zip ([100])).foldl (fun zs p =>
      tempOne p.1 p.2 zs) wRun)))))).sup.peakSet || signed 11 (((((((List.range (clustersOf wRun)).zip
      ([100])).foldl (fun zs p => tempOne p.1 p.2 zs) wRun)).wr R.TMP_STAT_hot (hottest ((((List.range (clustersOf
      wRun)).zip ([100])).foldl (fun zs p => tempOne p.1 p.2 zs) wRun)))).wr R.TMP_STAT_max (unsigned 11 (lastTemp
      ((((List.range (clustersOf wRun)).zip ([100])).foldl (fun zs p => tempOne p.1 p.2 zs) wRun)) (hottest
      ((((List.range (clustersOf wRun)).zip ([100])).foldl (fun zs p => tempOne p.1 p.2 zs) wRun)))))).rd
      R.TMP_PEAK_peak) < lastTemp ((((List.range (clustersOf wRun)).zip ([100])).foldl (fun zs p => tempOne p.1 p.2
      zs) wRun)) (hottest ((((List.range (clustersOf wRun)).zip ([100])).foldl (fun zs p => tempOne p.1 p.2 zs)
      wRun))) then
      { (((((((List.range (clustersOf wRun)).zip ([100])).foldl (fun zs p => tempOne p.1 p.2 zs) wRun)).wr R.TMP_STAT_hot (hottest ((((List.range (clustersOf wRun)).zip ([100])).foldl (fun zs p => tempOne p.1 p.2 zs) wRun)))).wr R.TMP_STAT_max (unsigned 11 (lastTemp ((((List.range (clustersOf wRun)).zip ([100])).foldl (fun zs p => tempOne p.1 p.2 zs) wRun)) (hottest ((((List.range (clustersOf wRun)).zip ([100])).foldl (fun zs p => tempOne p.1 p.2 zs) wRun)))))).wr R.TMP_PEAK_cluster (hottest ((((List.range (clustersOf wRun)).zip ([100])).foldl (fun zs p => tempOne p.1 p.2 zs) wRun)))).wr R.TMP_PEAK_peak (unsigned 11 (lastTemp ((((List.range (clustersOf wRun)).zip ([100])).foldl (fun zs p => tempOne p.1 p.2 zs) wRun)) (hottest ((((List.range (clustersOf wRun)).zip ([100])).foldl (fun zs p => tempOne p.1 p.2 zs) wRun))))) with sup := { ((((((List.range (clustersOf wRun)).zip ([100])).foldl (fun zs p => tempOne p.1 p.2 zs) wRun)).wr R.TMP_STAT_hot (hottest ((((List.range (clustersOf wRun)).zip ([100])).foldl (fun zs p => tempOne p.1 p.2 zs) wRun)))).wr R.TMP_STAT_max (unsigned 11 (lastTemp ((((List.range (clustersOf wRun)).zip ([100])).foldl (fun zs p => tempOne p.1 p.2 zs) wRun)) (hottest ((((List.range (clustersOf wRun)).zip ([100])).foldl (fun zs p => tempOne p.1 p.2 zs) wRun)))))).sup with peakSet := true } }
      else ((((((List.range (clustersOf wRun)).zip ([100])).foldl (fun zs p => tempOne p.1 p.2 zs) wRun)).wr
      R.TMP_STAT_hot (hottest ((((List.range (clustersOf wRun)).zip ([100])).foldl (fun zs p => tempOne p.1 p.2 zs)
      wRun)))).wr R.TMP_STAT_max (unsigned 11 (lastTemp ((((List.range (clustersOf wRun)).zip ([100])).foldl (fun zs
      p => tempOne p.1 p.2 zs) wRun)) (hottest ((((List.range (clustersOf wRun)).zip ([100])).foldl (fun zs p =>
      tempOne p.1 p.2 zs) wRun)))))))).wrB R.TMP_STAT_crit ((if 440 < lastTemp ((((List.range (clustersOf wRun)).zip
      ([100])).foldl (fun zs p => tempOne p.1 p.2 zs) wRun)) (hottest ((((List.range (clustersOf wRun)).zip
      ([100])).foldl (fun zs p => tempOne p.1 p.2 zs) wRun))) then true else if lastTemp ((((List.range (clustersOf
      wRun)).zip ([100])).foldl (fun zs p => tempOne p.1 p.2 zs) wRun)) (hottest ((((List.range (clustersOf
      wRun)).zip ([100])).foldl (fun zs p => tempOne p.1 p.2 zs) wRun))) ≤ 420 then false else ((if
      !((((((List.range (clustersOf wRun)).zip ([100])).foldl (fun zs p => tempOne p.1 p.2 zs) wRun)).wr
      R.TMP_STAT_hot (hottest ((((List.range (clustersOf wRun)).zip ([100])).foldl (fun zs p => tempOne p.1 p.2 zs)
      wRun)))).wr R.TMP_STAT_max (unsigned 11 (lastTemp ((((List.range (clustersOf wRun)).zip ([100])).foldl (fun zs
      p => tempOne p.1 p.2 zs) wRun)) (hottest ((((List.range (clustersOf wRun)).zip ([100])).foldl (fun zs p =>
      tempOne p.1 p.2 zs) wRun)))))).sup.peakSet || signed 11 (((((((List.range (clustersOf wRun)).zip
      ([100])).foldl (fun zs p => tempOne p.1 p.2 zs) wRun)).wr R.TMP_STAT_hot (hottest ((((List.range (clustersOf
      wRun)).zip ([100])).foldl (fun zs p => tempOne p.1 p.2 zs) wRun)))).wr R.TMP_STAT_max (unsigned 11 (lastTemp
      ((((List.range (clustersOf wRun)).zip ([100])).foldl (fun zs p => tempOne p.1 p.2 zs) wRun)) (hottest
      ((((List.range (clustersOf wRun)).zip ([100])).foldl (fun zs p => tempOne p.1 p.2 zs) wRun)))))).rd
      R.TMP_PEAK_peak) < lastTemp ((((List.range (clustersOf wRun)).zip ([100])).foldl (fun zs p => tempOne p.1 p.2
      zs) wRun)) (hottest ((((List.range (clustersOf wRun)).zip ([100])).foldl (fun zs p => tempOne p.1 p.2 zs)
      wRun))) then
      { (((((((List.range (clustersOf wRun)).zip ([100])).foldl (fun zs p => tempOne p.1 p.2 zs) wRun)).wr R.TMP_STAT_hot (hottest ((((List.range (clustersOf wRun)).zip ([100])).foldl (fun zs p => tempOne p.1 p.2 zs) wRun)))).wr R.TMP_STAT_max (unsigned 11 (lastTemp ((((List.range (clustersOf wRun)).zip ([100])).foldl (fun zs p => tempOne p.1 p.2 zs) wRun)) (hottest ((((List.range (clustersOf wRun)).zip ([100])).foldl (fun zs p => tempOne p.1 p.2 zs) wRun)))))).wr R.TMP_PEAK_cluster (hottest ((((List.range (clustersOf wRun)).zip ([100])).foldl (fun zs p => tempOne p.1 p.2 zs) wRun)))).wr R.TMP_PEAK_peak (unsigned 11 (lastTemp ((((List.range (clustersOf wRun)).zip ([100])).foldl (fun zs p => tempOne p.1 p.2 zs) wRun)) (hottest ((((List.range (clustersOf wRun)).zip ([100])).foldl (fun zs p => tempOne p.1 p.2 zs) wRun))))) with sup := { ((((((List.range (clustersOf wRun)).zip ([100])).foldl (fun zs p => tempOne p.1 p.2 zs) wRun)).wr R.TMP_STAT_hot (hottest ((((List.range (clustersOf wRun)).zip ([100])).foldl (fun zs p => tempOne p.1 p.2 zs) wRun)))).wr R.TMP_STAT_max (unsigned 11 (lastTemp ((((List.range (clustersOf wRun)).zip ([100])).foldl (fun zs p => tempOne p.1 p.2 zs) wRun)) (hottest ((((List.range (clustersOf wRun)).zip ([100])).foldl (fun zs p => tempOne p.1 p.2 zs) wRun)))))).sup with peakSet := true } }
      else ((((((List.range (clustersOf wRun)).zip ([100])).foldl (fun zs p => tempOne p.1 p.2 zs) wRun)).wr
      R.TMP_STAT_hot (hottest ((((List.range (clustersOf wRun)).zip ([100])).foldl (fun zs p => tempOne p.1 p.2 zs)
      wRun)))).wr R.TMP_STAT_max (unsigned 11 (lastTemp ((((List.range (clustersOf wRun)).zip ([100])).foldl (fun zs
      p => tempOne p.1 p.2 zs) wRun)) (hottest ((((List.range (clustersOf wRun)).zip ([100])).foldl (fun zs p =>
      tempOne p.1 p.2 zs) wRun)))))))).on R.TMP_STAT_crit))).setInput 264 ((if 440 < lastTemp ((((List.range
      (clustersOf wRun)).zip ([100])).foldl (fun zs p => tempOne p.1 p.2 zs) wRun)) (hottest ((((List.range
      (clustersOf wRun)).zip ([100])).foldl (fun zs p => tempOne p.1 p.2 zs) wRun))) then true else if lastTemp
      ((((List.range (clustersOf wRun)).zip ([100])).foldl (fun zs p => tempOne p.1 p.2 zs) wRun)) (hottest
      ((((List.range (clustersOf wRun)).zip ([100])).foldl (fun zs p => tempOne p.1 p.2 zs) wRun))) ≤ 420 then false
      else ((if !((((((List.range (clustersOf wRun)).zip ([100])).foldl (fun zs p => tempOne p.1 p.2 zs) wRun)).wr
      R.TMP_STAT_hot (hottest ((((List.range (clustersOf wRun)).zip ([100])).foldl (fun zs p => tempOne p.1 p.2 zs)
      wRun)))).wr R.TMP_STAT_max (unsigned 11 (lastTemp ((((List.range (clustersOf wRun)).zip ([100])).foldl (fun zs
      p => tempOne p.1 p.2 zs) wRun)) (hottest ((((List.range (clustersOf wRun)).zip ([100])).foldl (fun zs p =>
      tempOne p.1 p.2 zs) wRun)))))).sup.peakSet || signed 11 (((((((List.range (clustersOf wRun)).zip
      ([100])).foldl (fun zs p => tempOne p.1 p.2 zs) wRun)).wr R.TMP_STAT_hot (hottest ((((List.range (clustersOf
      wRun)).zip ([100])).foldl (fun zs p => tempOne p.1 p.2 zs) wRun)))).wr R.TMP_STAT_max (unsigned 11 (lastTemp
      ((((List.range (clustersOf wRun)).zip ([100])).foldl (fun zs p => tempOne p.1 p.2 zs) wRun)) (hottest
      ((((List.range (clustersOf wRun)).zip ([100])).foldl (fun zs p => tempOne p.1 p.2 zs) wRun)))))).rd
      R.TMP_PEAK_peak) < lastTemp ((((List.range (clustersOf wRun)).zip ([100])).foldl (fun zs p => tempOne p.1 p.2
      zs) wRun)) (hottest ((((List.range (clustersOf wRun)).zip ([100])).foldl (fun zs p => tempOne p.1 p.2 zs)
      wRun))) then
      { (((((((List.range (clustersOf wRun)).zip ([100])).foldl (fun zs p => tempOne p.1 p.2 zs) wRun)).wr R.TMP_STAT_hot (hottest ((((List.range (clustersOf wRun)).zip ([100])).foldl (fun zs p => tempOne p.1 p.2 zs) wRun)))).wr R.TMP_STAT_max (unsigned 11 (lastTemp ((((List.range (clustersOf wRun)).zip ([100])).foldl (fun zs p => tempOne p.1 p.2 zs) wRun)) (hottest ((((List.range (clustersOf wRun)).zip ([100])).foldl (fun zs p => tempOne p.1 p.2 zs) wRun)))))).wr R.TMP_PEAK_cluster (hottest ((((List.range (clustersOf wRun)).zip ([100])).foldl (fun zs p => tempOne p.1 p.2 zs) wRun)))).wr R.TMP_PEAK_peak (unsigned 11 (lastTemp ((((List.range (clustersOf wRun)).zip ([100])).foldl (fun zs p => tempOne p.1 p.2 zs) wRun)) (hottest ((((List.range (clustersOf wRun)).zip ([100])).foldl (fun zs p => tempOne p.1 p.2 zs) wRun))))) with sup := { ((((((List.range (clustersOf wRun)).zip ([100])).foldl (fun zs p => tempOne p.1 p.2 zs) wRun)).wr R.TMP_STAT_hot (hottest ((((List.range (clustersOf wRun)).zip ([100])).foldl (fun zs p => tempOne p.1 p.2 zs) wRun)))).wr R.TMP_STAT_max (unsigned 11 (lastTemp ((((List.range (clustersOf wRun)).zip ([100])).foldl (fun zs p => tempOne p.1 p.2 zs) wRun)) (hottest ((((List.range (clustersOf wRun)).zip ([100])).foldl (fun zs p => tempOne p.1 p.2 zs) wRun)))))).sup with peakSet := true } }
      else ((((((List.range (clustersOf wRun)).zip ([100])).foldl (fun zs p => tempOne p.1 p.2 zs) wRun)).wr
      R.TMP_STAT_hot (hottest ((((List.range (clustersOf wRun)).zip ([100])).foldl (fun zs p => tempOne p.1 p.2 zs)
      wRun)))).wr R.TMP_STAT_max (unsigned 11 (lastTemp ((((List.range (clustersOf wRun)).zip ([100])).foldl (fun zs
      p => tempOne p.1 p.2 zs) wRun)) (hottest ((((List.range (clustersOf wRun)).zip ([100])).foldl (fun zs p =>
      tempOne p.1 p.2 zs) wRun)))))))).on R.TMP_STAT_crit))) c))).any (fun c => ((((if !((((((List.range (clustersOf
      wRun)).zip ([100])).foldl (fun zs p => tempOne p.1 p.2 zs) wRun)).wr R.TMP_STAT_hot (hottest ((((List.range
      (clustersOf wRun)).zip ([100])).foldl (fun zs p => tempOne p.1 p.2 zs) wRun)))).wr R.TMP_STAT_max (unsigned 11
      (lastTemp ((((List.range (clustersOf wRun)).zip ([100])).foldl (fun zs p => tempOne p.1 p.2 zs) wRun))
      (hottest ((((List.range (clustersOf wRun)).zip ([100])).foldl (fun zs p => tempOne p.1 p.2 zs)
      wRun)))))).sup.peakSet || signed 11 (((((((List.range (clustersOf wRun)).zip ([100])).foldl (fun zs p =>
      tempOne p.1 p.2 zs) wRun)).wr R.TMP_STAT_hot (hottest ((((List.range (clustersOf wRun)).zip ([100])).foldl
      (fun zs p => tempOne p.1 p.2 zs) wRun)))).wr R.TMP_STAT_max (unsigned 11 (lastTemp ((((List.range (clustersOf
      wRun)).zip ([100])).foldl (fun zs p => tempOne p.1 p.2 zs) wRun)) (hottest ((((List.range (clustersOf
      wRun)).zip ([100])).foldl (fun zs p => tempOne p.1 p.2 zs) wRun)))))).rd R.TMP_PEAK_peak) < lastTemp
      ((((List.range (clustersOf wRun)).zip ([100])).foldl (fun zs p => tempOne p.1 p.2 zs) wRun)) (hottest
      ((((List.range (clustersOf wRun)).zip ([100])).foldl (fun zs p => tempOne p.1 p.2 zs) wRun))) then
      { (((((((List.range (clustersOf wRun)).zip ([100])).foldl (fun zs p => tempOne p.1 p.2 zs) wRun)).wr R.TMP_STAT_hot (hottest ((((List.range (clustersOf wRun)).zip ([100])).foldl (fun zs p => tempOne p.1 p.2 zs) wRun)))).wr R.TMP_STAT_max (unsigned 11 (lastTemp ((((List.range (clustersOf wRun)).zip ([100])).foldl (fun zs p => tempOne p.1 p.2 zs) wRun)) (hottest ((((List.range (clustersOf wRun)).zip ([100])).foldl (fun zs p => tempOne p.1 p.2 zs) wRun)))))).wr R.TMP_PEAK_cluster (hottest ((((List.range (clustersOf wRun)).zip ([100])).foldl (fun zs p => tempOne p.1 p.2 zs) wRun)))).wr R.TMP_PEAK_peak (unsigned 11 (lastTemp ((((List.range (clustersOf wRun)).zip ([100])).foldl (fun zs p => tempOne p.1 p.2 zs) wRun)) (hottest ((((List.range (clustersOf wRun)).zip ([100])).foldl (fun zs p => tempOne p.1 p.2 zs) wRun))))) with sup := { ((((((List.range (clustersOf wRun)).zip ([100])).foldl (fun zs p => tempOne p.1 p.2 zs) wRun)).wr R.TMP_STAT_hot (hottest ((((List.range (clustersOf wRun)).zip ([100])).foldl (fun zs p => tempOne p.1 p.2 zs) wRun)))).wr R.TMP_STAT_max (unsigned 11 (lastTemp ((((List.range (clustersOf wRun)).zip ([100])).foldl (fun zs p => tempOne p.1 p.2 zs) wRun)) (hottest ((((List.range (clustersOf wRun)).zip ([100])).foldl (fun zs p => tempOne p.1 p.2 zs) wRun)))))).sup with peakSet := true } }
      else ((((((List.range (clustersOf wRun)).zip ([100])).foldl (fun zs p => tempOne p.1 p.2 zs) wRun)).wr
      R.TMP_STAT_hot (hottest ((((List.range (clustersOf wRun)).zip ([100])).foldl (fun zs p => tempOne p.1 p.2 zs)
      wRun)))).wr R.TMP_STAT_max (unsigned 11 (lastTemp ((((List.range (clustersOf wRun)).zip ([100])).foldl (fun zs
      p => tempOne p.1 p.2 zs) wRun)) (hottest ((((List.range (clustersOf wRun)).zip ([100])).foldl (fun zs p =>
      tempOne p.1 p.2 zs) wRun)))))))).wrB R.TMP_STAT_crit ((if 440 < lastTemp ((((List.range (clustersOf wRun)).zip
      ([100])).foldl (fun zs p => tempOne p.1 p.2 zs) wRun)) (hottest ((((List.range (clustersOf wRun)).zip
      ([100])).foldl (fun zs p => tempOne p.1 p.2 zs) wRun))) then true else if lastTemp ((((List.range (clustersOf
      wRun)).zip ([100])).foldl (fun zs p => tempOne p.1 p.2 zs) wRun)) (hottest ((((List.range (clustersOf
      wRun)).zip ([100])).foldl (fun zs p => tempOne p.1 p.2 zs) wRun))) ≤ 420 then false else ((if
      !((((((List.range (clustersOf wRun)).zip ([100])).foldl (fun zs p => tempOne p.1 p.2 zs) wRun)).wr
      R.TMP_STAT_hot (hottest ((((List.range (clustersOf wRun)).zip ([100])).foldl (fun zs p => tempOne p.1 p.2 zs)
      wRun)))).wr R.TMP_STAT_max (unsigned 11 (lastTemp ((((List.range (clustersOf wRun)).zip ([100])).foldl (fun zs
      p => tempOne p.1 p.2 zs) wRun)) (hottest ((((List.range (clustersOf wRun)).zip ([100])).foldl (fun zs p =>
      tempOne p.1 p.2 zs) wRun)))))).sup.peakSet || signed 11 (((((((List.range (clustersOf wRun)).zip
      ([100])).foldl (fun zs p => tempOne p.1 p.2 zs) wRun)).wr R.TMP_STAT_hot (hottest ((((List.range (clustersOf
      wRun)).zip ([100])).foldl (fun zs p => tempOne p.1 p.2 zs) wRun)))).wr R.TMP_STAT_max (unsigned 11 (lastTemp
      ((((List.range (clustersOf wRun)).zip ([100])).foldl (fun zs p => tempOne p.1 p.2 zs) wRun)) (hottest
      ((((List.range (clustersOf wRun)).zip ([100])).foldl (fun zs p => tempOne p.1 p.2 zs) wRun)))))).rd
      R.TMP_PEAK_peak) < lastTemp ((((List.range (clustersOf wRun)).zip ([100])).foldl (fun zs p => tempOne p.1 p.2
      zs) wRun)) (hottest ((((List.range (clustersOf wRun)).zip ([100])).foldl (fun zs p => tempOne p.1 p.2 zs)
      wRun))) then
      { (((((((List.range (clustersOf wRun)).zip ([100])).foldl (fun zs p => tempOne p.1 p.2 zs) wRun)).wr R.TMP_STAT_hot (hottest ((((List.range (clustersOf wRun)).zip ([100])).foldl (fun zs p => tempOne p.1 p.2 zs) wRun)))).wr R.TMP_STAT_max (unsigned 11 (lastTemp ((((List.range (clustersOf wRun)).zip ([100])).foldl (fun zs p => tempOne p.1 p.2 zs) wRun)) (hottest ((((List.range (clustersOf wRun)).zip ([100])).foldl (fun zs p => tempOne p.1 p.2 zs) wRun)))))).wr R.TMP_PEAK_cluster (hottest ((((List.range (clustersOf wRun)).zip ([100])).foldl (fun zs p => tempOne p.1 p.2 zs) wRun)))).wr R.TMP_PEAK_peak (unsigned 11 (lastTemp ((((List.range (clustersOf wRun)).zip ([100])).foldl (fun zs p => tempOne p.1 p.2 zs) wRun)) (hottest ((((List.range (clustersOf wRun)).zip ([100])).foldl (fun zs p => tempOne p.1 p.2 zs) wRun))))) with sup := { ((((((List.range (clustersOf wRun)).zip ([100])).foldl (fun zs p => tempOne p.1 p.2 zs) wRun)).wr R.TMP_STAT_hot (hottest ((((List.range (clustersOf wRun)).zip ([100])).foldl (fun zs p => tempOne p.1 p.2 zs) wRun)))).wr R.TMP_STAT_max (unsigned 11 (lastTemp ((((List.range (clustersOf wRun)).zip ([100])).foldl (fun zs p => tempOne p.1 p.2 zs) wRun)) (hottest ((((List.range (clustersOf wRun)).zip ([100])).foldl (fun zs p => tempOne p.1 p.2 zs) wRun)))))).sup with peakSet := true } }
      else ((((((List.range (clustersOf wRun)).zip ([100])).foldl (fun zs p => tempOne p.1 p.2 zs) wRun)).wr
      R.TMP_STAT_hot (hottest ((((List.range (clustersOf wRun)).zip ([100])).foldl (fun zs p => tempOne p.1 p.2 zs)
      wRun)))).wr R.TMP_STAT_max (unsigned 11 (lastTemp ((((List.range (clustersOf wRun)).zip ([100])).foldl (fun zs
      p => tempOne p.1 p.2 zs) wRun)) (hottest ((((List.range (clustersOf wRun)).zip ([100])).foldl (fun zs p =>
      tempOne p.1 p.2 zs) wRun)))))))).on R.TMP_STAT_crit))).setInput 264 ((if 440 < lastTemp ((((List.range
      (clustersOf wRun)).zip ([100])).foldl (fun zs p => tempOne p.1 p.2 zs) wRun)) (hottest ((((List.range
      (clustersOf wRun)).zip ([100])).foldl (fun zs p => tempOne p.1 p.2 zs) wRun))) then true else if lastTemp
      ((((List.range (clustersOf wRun)).zip ([100])).foldl (fun zs p => tempOne p.1 p.2 zs) wRun)) (hottest
      ((((List.range (clustersOf wRun)).zip ([100])).foldl (fun zs p => tempOne p.1 p.2 zs) wRun))) ≤ 420 then false
      else ((if !((((((List.range (clustersOf wRun)).zip ([100])).foldl (fun zs p => tempOne p.1 p.2 zs) wRun)).wr
      R.TMP_STAT_hot (hottest ((((List.range (clustersOf wRun)).zip ([100])).foldl (fun zs p => tempOne p.1 p.2 zs)
      wRun)))).wr R.TMP_STAT_max (unsigned 11 (lastTemp ((((List.range (clustersOf wRun)).zip ([100])).foldl (fun zs
      p => tempOne p.1 p.2 zs) wRun)) (hottest ((((List.range (clustersOf wRun)).zip ([100])).foldl (fun zs p =>
      tempOne p.1 p.2 zs) wRun)))))).sup.peakSet || signed 11 (((((((List.range (clustersOf wRun)).zip
      ([100])).foldl (fun zs p => tempOne p.1 p.2 zs) wRun)).wr R.TMP_STAT_hot (hottest ((((List.range (clustersOf
      wRun)).zip ([100])).foldl (fun zs p => tempOne p.1 p.2 zs) wRun)))).wr R.TMP_STAT_max (unsigned 11 (lastTemp
      ((((List.range (clustersOf wRun)).zip ([100])).foldl (fun zs p => tempOne p.1 p.2 zs) wRun)) (hottest
      ((((List.range (clustersOf wRun)).zip ([100])).foldl (fun zs p => tempOne p.1 p.2 zs) wRun)))))).rd
      R.TMP_PEAK_peak) < lastTemp ((((List.range (clustersOf wRun)).zip ([100])).foldl (fun zs p => tempOne p.1 p.2
      zs) wRun)) (hottest ((((List.range (clustersOf wRun)).zip ([100])).foldl (fun zs p => tempOne p.1 p.2 zs)
      wRun))) then
      { (((((((List.range (clustersOf wRun)).zip ([100])).foldl (fun zs p => tempOne p.1 p.2 zs) wRun)).wr R.TMP_STAT_hot (hottest ((((List.range (clustersOf wRun)).zip ([100])).foldl (fun zs p => tempOne p.1 p.2 zs) wRun)))).wr R.TMP_STAT_max (unsigned 11 (lastTemp ((((List.range (clustersOf wRun)).zip ([100])).foldl (fun zs p => tempOne p.1 p.2 zs) wRun)) (hottest ((((List.range (clustersOf wRun)).zip ([100])).foldl (fun zs p => tempOne p.1 p.2 zs) wRun)))))).wr R.TMP_PEAK_cluster (hottest ((((List.range (clustersOf wRun)).zip ([100])).foldl (fun zs p => tempOne p.1 p.2 zs) wRun)))).wr R.TMP_PEAK_peak (unsigned 11 (lastTemp ((((List.range (clustersOf wRun)).zip ([100])).foldl (fun zs p => tempOne p.1 p.2 zs) wRun)) (hottest ((((List.range (clustersOf wRun)).zip ([100])).foldl (fun zs p => tempOne p.1 p.2 zs) wRun))))) with sup := { ((((((List.range (clustersOf wRun)).zip ([100])).foldl (fun zs p => tempOne p.1 p.2 zs) wRun)).wr R.TMP_STAT_hot (hottest ((((List.range (clustersOf wRun)).zip ([100])).foldl (fun zs p => tempOne p.1 p.2 zs) wRun)))).wr R.TMP_STAT_max (unsigned 11 (lastTemp ((((List.range (clustersOf wRun)).zip ([100])).foldl (fun zs p => tempOne p.1 p.2 zs) wRun)) (hottest ((((List.range (clustersOf wRun)).zip ([100])).foldl (fun zs p => tempOne p.1 p.2 zs) wRun)))))).sup with peakSet := true } }
      else ((((((List.range (clustersOf wRun)).zip ([100])).foldl (fun zs p => tempOne p.1 p.2 zs) wRun)).wr
      R.TMP_STAT_hot (hottest ((((List.range (clustersOf wRun)).zip ([100])).foldl (fun zs p => tempOne p.1 p.2 zs)
      wRun)))).wr R.TMP_STAT_max (unsigned 11 (lastTemp ((((List.range (clustersOf wRun)).zip ([100])).foldl (fun zs
      p => tempOne p.1 p.2 zs) wRun)) (hottest ((((List.range (clustersOf wRun)).zip ([100])).foldl (fun zs p =>
      tempOne p.1 p.2 zs) wRun)))))))).on R.TMP_STAT_crit))).sup.hot.contains c) = false) ∧
    (wHot.dev.phase ≠ .off ∧ (((List.range (clustersOf ((((if !((((((List.range (clustersOf wHot)).zip
      ([500])).foldl (fun zs p => tempOne p.1 p.2 zs) wHot)).wr R.TMP_STAT_hot (hottest ((((List.range (clustersOf
      wHot)).zip ([500])).foldl (fun zs p => tempOne p.1 p.2 zs) wHot)))).wr R.TMP_STAT_max (unsigned 11 (lastTemp
      ((((List.range (clustersOf wHot)).zip ([500])).foldl (fun zs p => tempOne p.1 p.2 zs) wHot)) (hottest
      ((((List.range (clustersOf wHot)).zip ([500])).foldl (fun zs p => tempOne p.1 p.2 zs) wHot)))))).sup.peakSet
      || signed 11 (((((((List.range (clustersOf wHot)).zip ([500])).foldl (fun zs p => tempOne p.1 p.2 zs)
      wHot)).wr R.TMP_STAT_hot (hottest ((((List.range (clustersOf wHot)).zip ([500])).foldl (fun zs p => tempOne
      p.1 p.2 zs) wHot)))).wr R.TMP_STAT_max (unsigned 11 (lastTemp ((((List.range (clustersOf wHot)).zip
      ([500])).foldl (fun zs p => tempOne p.1 p.2 zs) wHot)) (hottest ((((List.range (clustersOf wHot)).zip
      ([500])).foldl (fun zs p => tempOne p.1 p.2 zs) wHot)))))).rd R.TMP_PEAK_peak) < lastTemp ((((List.range
      (clustersOf wHot)).zip ([500])).foldl (fun zs p => tempOne p.1 p.2 zs) wHot)) (hottest ((((List.range
      (clustersOf wHot)).zip ([500])).foldl (fun zs p => tempOne p.1 p.2 zs) wHot))) then
      { (((((((List.range (clustersOf wHot)).zip ([500])).foldl (fun zs p => tempOne p.1 p.2 zs) wHot)).wr R.TMP_STAT_hot (hottest ((((List.range (clustersOf wHot)).zip ([500])).foldl (fun zs p => tempOne p.1 p.2 zs) wHot)))).wr R.TMP_STAT_max (unsigned 11 (lastTemp ((((List.range (clustersOf wHot)).zip ([500])).foldl (fun zs p => tempOne p.1 p.2 zs) wHot)) (hottest ((((List.range (clustersOf wHot)).zip ([500])).foldl (fun zs p => tempOne p.1 p.2 zs) wHot)))))).wr R.TMP_PEAK_cluster (hottest ((((List.range (clustersOf wHot)).zip ([500])).foldl (fun zs p => tempOne p.1 p.2 zs) wHot)))).wr R.TMP_PEAK_peak (unsigned 11 (lastTemp ((((List.range (clustersOf wHot)).zip ([500])).foldl (fun zs p => tempOne p.1 p.2 zs) wHot)) (hottest ((((List.range (clustersOf wHot)).zip ([500])).foldl (fun zs p => tempOne p.1 p.2 zs) wHot))))) with sup := { ((((((List.range (clustersOf wHot)).zip ([500])).foldl (fun zs p => tempOne p.1 p.2 zs) wHot)).wr R.TMP_STAT_hot (hottest ((((List.range (clustersOf wHot)).zip ([500])).foldl (fun zs p => tempOne p.1 p.2 zs) wHot)))).wr R.TMP_STAT_max (unsigned 11 (lastTemp ((((List.range (clustersOf wHot)).zip ([500])).foldl (fun zs p => tempOne p.1 p.2 zs) wHot)) (hottest ((((List.range (clustersOf wHot)).zip ([500])).foldl (fun zs p => tempOne p.1 p.2 zs) wHot)))))).sup with peakSet := true } }
      else ((((((List.range (clustersOf wHot)).zip ([500])).foldl (fun zs p => tempOne p.1 p.2 zs) wHot)).wr
      R.TMP_STAT_hot (hottest ((((List.range (clustersOf wHot)).zip ([500])).foldl (fun zs p => tempOne p.1 p.2 zs)
      wHot)))).wr R.TMP_STAT_max (unsigned 11 (lastTemp ((((List.range (clustersOf wHot)).zip ([500])).foldl (fun zs
      p => tempOne p.1 p.2 zs) wHot)) (hottest ((((List.range (clustersOf wHot)).zip ([500])).foldl (fun zs p =>
      tempOne p.1 p.2 zs) wHot)))))))).wrB R.TMP_STAT_crit ((if 440 < lastTemp ((((List.range (clustersOf wHot)).zip
      ([500])).foldl (fun zs p => tempOne p.1 p.2 zs) wHot)) (hottest ((((List.range (clustersOf wHot)).zip
      ([500])).foldl (fun zs p => tempOne p.1 p.2 zs) wHot))) then true else if lastTemp ((((List.range (clustersOf
      wHot)).zip ([500])).foldl (fun zs p => tempOne p.1 p.2 zs) wHot)) (hottest ((((List.range (clustersOf
      wHot)).zip ([500])).foldl (fun zs p => tempOne p.1 p.2 zs) wHot))) ≤ 420 then false else ((if
      !((((((List.range (clustersOf wHot)).zip ([500])).foldl (fun zs p => tempOne p.1 p.2 zs) wHot)).wr
      R.TMP_STAT_hot (hottest ((((List.range (clustersOf wHot)).zip ([500])).foldl (fun zs p => tempOne p.1 p.2 zs)
      wHot)))).wr R.TMP_STAT_max (unsigned 11 (lastTemp ((((List.range (clustersOf wHot)).zip ([500])).foldl (fun zs
      p => tempOne p.1 p.2 zs) wHot)) (hottest ((((List.range (clustersOf wHot)).zip ([500])).foldl (fun zs p =>
      tempOne p.1 p.2 zs) wHot)))))).sup.peakSet || signed 11 (((((((List.range (clustersOf wHot)).zip
      ([500])).foldl (fun zs p => tempOne p.1 p.2 zs) wHot)).wr R.TMP_STAT_hot (hottest ((((List.range (clustersOf
      wHot)).zip ([500])).foldl (fun zs p => tempOne p.1 p.2 zs) wHot)))).wr R.TMP_STAT_max (unsigned 11 (lastTemp
      ((((List.range (clustersOf wHot)).zip ([500])).foldl (fun zs p => tempOne p.1 p.2 zs) wHot)) (hottest
      ((((List.range (clustersOf wHot)).zip ([500])).foldl (fun zs p => tempOne p.1 p.2 zs) wHot)))))).rd
      R.TMP_PEAK_peak) < lastTemp ((((List.range (clustersOf wHot)).zip ([500])).foldl (fun zs p => tempOne p.1 p.2
      zs) wHot)) (hottest ((((List.range (clustersOf wHot)).zip ([500])).foldl (fun zs p => tempOne p.1 p.2 zs)
      wHot))) then
      { (((((((List.range (clustersOf wHot)).zip ([500])).foldl (fun zs p => tempOne p.1 p.2 zs) wHot)).wr R.TMP_STAT_hot (hottest ((((List.range (clustersOf wHot)).zip ([500])).foldl (fun zs p => tempOne p.1 p.2 zs) wHot)))).wr R.TMP_STAT_max (unsigned 11 (lastTemp ((((List.range (clustersOf wHot)).zip ([500])).foldl (fun zs p => tempOne p.1 p.2 zs) wHot)) (hottest ((((List.range (clustersOf wHot)).zip ([500])).foldl (fun zs p => tempOne p.1 p.2 zs) wHot)))))).wr R.TMP_PEAK_cluster (hottest ((((List.range (clustersOf wHot)).zip ([500])).foldl (fun zs p => tempOne p.1 p.2 zs) wHot)))).wr R.TMP_PEAK_peak (unsigned 11 (lastTemp ((((List.range (clustersOf wHot)).zip ([500])).foldl (fun zs p => tempOne p.1 p.2 zs) wHot)) (hottest ((((List.range (clustersOf wHot)).zip ([500])).foldl (fun zs p => tempOne p.1 p.2 zs) wHot))))) with sup := { ((((((List.range (clustersOf wHot)).zip ([500])).foldl (fun zs p => tempOne p.1 p.2 zs) wHot)).wr R.TMP_STAT_hot (hottest ((((List.range (clustersOf wHot)).zip ([500])).foldl (fun zs p => tempOne p.1 p.2 zs) wHot)))).wr R.TMP_STAT_max (unsigned 11 (lastTemp ((((List.range (clustersOf wHot)).zip ([500])).foldl (fun zs p => tempOne p.1 p.2 zs) wHot)) (hottest ((((List.range (clustersOf wHot)).zip ([500])).foldl (fun zs p => tempOne p.1 p.2 zs) wHot)))))).sup with peakSet := true } }
      else ((((((List.range (clustersOf wHot)).zip ([500])).foldl (fun zs p => tempOne p.1 p.2 zs) wHot)).wr
      R.TMP_STAT_hot (hottest ((((List.range (clustersOf wHot)).zip ([500])).foldl (fun zs p => tempOne p.1 p.2 zs)
      wHot)))).wr R.TMP_STAT_max (unsigned 11 (lastTemp ((((List.range (clustersOf wHot)).zip ([500])).foldl (fun zs
      p => tempOne p.1 p.2 zs) wHot)) (hottest ((((List.range (clustersOf wHot)).zip ([500])).foldl (fun zs p =>
      tempOne p.1 p.2 zs) wHot)))))))).on R.TMP_STAT_crit))).setInput 264 ((if 440 < lastTemp ((((List.range
      (clustersOf wHot)).zip ([500])).foldl (fun zs p => tempOne p.1 p.2 zs) wHot)) (hottest ((((List.range
      (clustersOf wHot)).zip ([500])).foldl (fun zs p => tempOne p.1 p.2 zs) wHot))) then true else if lastTemp
      ((((List.range (clustersOf wHot)).zip ([500])).foldl (fun zs p => tempOne p.1 p.2 zs) wHot)) (hottest
      ((((List.range (clustersOf wHot)).zip ([500])).foldl (fun zs p => tempOne p.1 p.2 zs) wHot))) ≤ 420 then false
      else ((if !((((((List.range (clustersOf wHot)).zip ([500])).foldl (fun zs p => tempOne p.1 p.2 zs) wHot)).wr
      R.TMP_STAT_hot (hottest ((((List.range (clustersOf wHot)).zip ([500])).foldl (fun zs p => tempOne p.1 p.2 zs)
      wHot)))).wr R.TMP_STAT_max (unsigned 11 (lastTemp ((((List.range (clustersOf wHot)).zip ([500])).foldl (fun zs
      p => tempOne p.1 p.2 zs) wHot)) (hottest ((((List.range (clustersOf wHot)).zip ([500])).foldl (fun zs p =>
      tempOne p.1 p.2 zs) wHot)))))).sup.peakSet || signed 11 (((((((List.range (clustersOf wHot)).zip
      ([500])).foldl (fun zs p => tempOne p.1 p.2 zs) wHot)).wr R.TMP_STAT_hot (hottest ((((List.range (clustersOf
      wHot)).zip ([500])).foldl (fun zs p => tempOne p.1 p.2 zs) wHot)))).wr R.TMP_STAT_max (unsigned 11 (lastTemp
      ((((List.range (clustersOf wHot)).zip ([500])).foldl (fun zs p => tempOne p.1 p.2 zs) wHot)) (hottest
      ((((List.range (clustersOf wHot)).zip ([500])).foldl (fun zs p => tempOne p.1 p.2 zs) wHot)))))).rd
      R.TMP_PEAK_peak) < lastTemp ((((List.range (clustersOf wHot)).zip ([500])).foldl (fun zs p => tempOne p.1 p.2
      zs) wHot)) (hottest ((((List.range (clustersOf wHot)).zip ([500])).foldl (fun zs p => tempOne p.1 p.2 zs)
      wHot))) then
      { (((((((List.range (clustersOf wHot)).zip ([500])).foldl (fun zs p => tempOne p.1 p.2 zs) wHot)).wr R.TMP_STAT_hot (hottest ((((List.range (clustersOf wHot)).zip ([500])).foldl (fun zs p => tempOne p.1 p.2 zs) wHot)))).wr R.TMP_STAT_max (unsigned 11 (lastTemp ((((List.range (clustersOf wHot)).zip ([500])).foldl (fun zs p => tempOne p.1 p.2 zs) wHot)) (hottest ((((List.range (clustersOf wHot)).zip ([500])).foldl (fun zs p => tempOne p.1 p.2 zs) wHot)))))).wr R.TMP_PEAK_cluster (hottest ((((List.range (clustersOf wHot)).zip ([500])).foldl (fun zs p => tempOne p.1 p.2 zs) wHot)))).wr R.TMP_PEAK_peak (unsigned 11 (lastTemp ((((List.range (clustersOf wHot)).zip ([500])).foldl (fun zs p => tempOne p.1 p.2 zs) wHot)) (hottest ((((List.range (clustersOf wHot)).zip ([500])).foldl (fun zs p => tempOne p.1 p.2 zs) wHot))))) with sup := { ((((((List.range (clustersOf wHot)).zip ([500])).foldl (fun zs p => tempOne p.1 p.2 zs) wHot)).wr R.TMP_STAT_hot (hottest ((((List.range (clustersOf wHot)).zip ([500])).foldl (fun zs p => tempOne p.1 p.2 zs) wHot)))).wr R.TMP_STAT_max (unsigned 11 (lastTemp ((((List.range (clustersOf wHot)).zip ([500])).foldl (fun zs p => tempOne p.1 p.2 zs) wHot)) (hottest ((((List.range (clustersOf wHot)).zip ([500])).foldl (fun zs p => tempOne p.1 p.2 zs) wHot)))))).sup with peakSet := true } }
      else ((((((List.range (clustersOf wHot)).zip ([500])).foldl (fun zs p => tempOne p.1 p.2 zs) wHot)).wr
      R.TMP_STAT_hot (hottest ((((List.range (clustersOf wHot)).zip ([500])).foldl (fun zs p => tempOne p.1 p.2 zs)
      wHot)))).wr R.TMP_STAT_max (unsigned 11 (lastTemp ((((List.range (clustersOf wHot)).zip ([500])).foldl (fun zs
      p => tempOne p.1 p.2 zs) wHot)) (hottest ((((List.range (clustersOf wHot)).zip ([500])).foldl (fun zs p =>
      tempOne p.1 p.2 zs) wHot)))))))).on R.TMP_STAT_crit))))).filter (fun c => 480 < lastTemp ((((if
      !((((((List.range (clustersOf wHot)).zip ([500])).foldl (fun zs p => tempOne p.1 p.2 zs) wHot)).wr
      R.TMP_STAT_hot (hottest ((((List.range (clustersOf wHot)).zip ([500])).foldl (fun zs p => tempOne p.1 p.2 zs)
      wHot)))).wr R.TMP_STAT_max (unsigned 11 (lastTemp ((((List.range (clustersOf wHot)).zip ([500])).foldl (fun zs
      p => tempOne p.1 p.2 zs) wHot)) (hottest ((((List.range (clustersOf wHot)).zip ([500])).foldl (fun zs p =>
      tempOne p.1 p.2 zs) wHot)))))).sup.peakSet || signed 11 (((((((List.range (clustersOf wHot)).zip
      ([500])).foldl (fun zs p => tempOne p.1 p.2 zs) wHot)).wr R.TMP_STAT_hot (hottest ((((List.range (clustersOf
      wHot)).zip ([500])).foldl (fun zs p => tempOne p.1 p.2 zs) wHot)))).wr R.TMP_STAT_max (unsigned 11 (lastTemp
      ((((List.range (clustersOf wHot)).zip ([500])).foldl (fun zs p => tempOne p.1 p.2 zs) wHot)) (hottest
      ((((List.range (clustersOf wHot)).zip ([500])).foldl (fun zs p => tempOne p.1 p.2 zs) wHot)))))).rd
      R.TMP_PEAK_peak) < lastTemp ((((List.range (clustersOf wHot)).zip ([500])).foldl (fun zs p => tempOne p.1 p.2
      zs) wHot)) (hottest ((((List.range (clustersOf wHot)).zip ([500])).foldl (fun zs p => tempOne p.1 p.2 zs)
      wHot))) then
      { (((((((List.range (clustersOf wHot)).zip ([500])).foldl (fun zs p => tempOne p.1 p.2 zs) wHot)).wr R.TMP_STAT_hot (hottest ((((List.range (clustersOf wHot)).zip ([500])).foldl (fun zs p => tempOne p.1 p.2 zs) wHot)))).wr R.TMP_STAT_max (unsigned 11 (lastTemp ((((List.range (clustersOf wHot)).zip ([500])).foldl (fun zs p => tempOne p.1 p.2 zs) wHot)) (hottest ((((List.range (clustersOf wHot)).zip ([500])).foldl (fun zs p => tempOne p.1 p.2 zs) wHot)))))).wr R.TMP_PEAK_cluster (hottest ((((List.range (clustersOf wHot)).zip ([500])).foldl (fun zs p => tempOne p.1 p.2 zs) wHot)))).wr R.TMP_PEAK_peak (unsigned 11 (lastTemp ((((List.range (clustersOf wHot)).zip ([500])).foldl (fun zs p => tempOne p.1 p.2 zs) wHot)) (hottest ((((List.range (clustersOf wHot)).zip ([500])).foldl (fun zs p => tempOne p.1 p.2 zs) wHot))))) with sup := { ((((((List.range (clustersOf wHot)).zip ([500])).foldl (fun zs p => tempOne p.1 p.2 zs) wHot)).wr R.TMP_STAT_hot (hottest ((((List.range (clustersOf wHot)).zip ([500])).foldl (fun zs p => tempOne p.1 p.2 zs) wHot)))).wr R.TMP_STAT_max (unsigned 11 (lastTemp ((((List.range (clustersOf wHot)).zip ([500])).foldl (fun zs p => tempOne p.1 p.2 zs) wHot)) (hottest ((((List.range (clustersOf wHot)).zip ([500])).foldl (fun zs p => tempOne p.1 p.2 zs) wHot)))))).sup with peakSet := true } }
      else ((((((List.range (clustersOf wHot)).zip ([500])).foldl (fun zs p => tempOne p.1 p.2 zs) wHot)).wr
      R.TMP_STAT_hot (hottest ((((List.range (clustersOf wHot)).zip ([500])).foldl (fun zs p => tempOne p.1 p.2 zs)
      wHot)))).wr R.TMP_STAT_max (unsigned 11 (lastTemp ((((List.range (clustersOf wHot)).zip ([500])).foldl (fun zs
      p => tempOne p.1 p.2 zs) wHot)) (hottest ((((List.range (clustersOf wHot)).zip ([500])).foldl (fun zs p =>
      tempOne p.1 p.2 zs) wHot)))))))).wrB R.TMP_STAT_crit ((if 440 < lastTemp ((((List.range (clustersOf wHot)).zip
      ([500])).foldl (fun zs p => tempOne p.1 p.2 zs) wHot)) (hottest ((((List.range (clustersOf wHot)).zip
      ([500])).foldl (fun zs p => tempOne p.1 p.2 zs) wHot))) then true else if lastTemp ((((List.range (clustersOf
      wHot)).zip ([500])).foldl (fun zs p => tempOne p.1 p.2 zs) wHot)) (hottest ((((List.range (clustersOf
      wHot)).zip ([500])).foldl (fun zs p => tempOne p.1 p.2 zs) wHot))) ≤ 420 then false else ((if
      !((((((List.range (clustersOf wHot)).zip ([500])).foldl (fun zs p => tempOne p.1 p.2 zs) wHot)).wr
      R.TMP_STAT_hot (hottest ((((List.range (clustersOf wHot)).zip ([500])).foldl (fun zs p => tempOne p.1 p.2 zs)
      wHot)))).wr R.TMP_STAT_max (unsigned 11 (lastTemp ((((List.range (clustersOf wHot)).zip ([500])).foldl (fun zs
      p => tempOne p.1 p.2 zs) wHot)) (hottest ((((List.range (clustersOf wHot)).zip ([500])).foldl (fun zs p =>
      tempOne p.1 p.2 zs) wHot)))))).sup.peakSet || signed 11 (((((((List.range (clustersOf wHot)).zip
      ([500])).foldl (fun zs p => tempOne p.1 p.2 zs) wHot)).wr R.TMP_STAT_hot (hottest ((((List.range (clustersOf
      wHot)).zip ([500])).foldl (fun zs p => tempOne p.1 p.2 zs) wHot)))).wr R.TMP_STAT_max (unsigned 11 (lastTemp
      ((((List.range (clustersOf wHot)).zip ([500])).foldl (fun zs p => tempOne p.1 p.2 zs) wHot)) (hottest
      ((((List.range (clustersOf wHot)).zip ([500])).foldl (fun zs p => tempOne p.1 p.2 zs) wHot)))))).rd
      R.TMP_PEAK_peak) < lastTemp ((((List.range (clustersOf wHot)).zip ([500])).foldl (fun zs p => tempOne p.1 p.2
      zs) wHot)) (hottest ((((List.range (clustersOf wHot)).zip ([500])).foldl (fun zs p => tempOne p.1 p.2 zs)
      wHot))) then
      { (((((((List.range (clustersOf wHot)).zip ([500])).foldl (fun zs p => tempOne p.1 p.2 zs) wHot)).wr R.TMP_STAT_hot (hottest ((((List.range (clustersOf wHot)).zip ([500])).foldl (fun zs p => tempOne p.1 p.2 zs) wHot)))).wr R.TMP_STAT_max (unsigned 11 (lastTemp ((((List.range (clustersOf wHot)).zip ([500])).foldl (fun zs p => tempOne p.1 p.2 zs) wHot)) (hottest ((((List.range (clustersOf wHot)).zip ([500])).foldl (fun zs p => tempOne p.1 p.2 zs) wHot)))))).wr R.TMP_PEAK_cluster (hottest ((((List.range (clustersOf wHot)).zip ([500])).foldl (fun zs p => tempOne p.1 p.2 zs) wHot)))).wr R.TMP_PEAK_peak (unsigned 11 (lastTemp ((((List.range (clustersOf wHot)).zip ([500])).foldl (fun zs p => tempOne p.1 p.2 zs) wHot)) (hottest ((((List.range (clustersOf wHot)).zip ([500])).foldl (fun zs p => tempOne p.1 p.2 zs) wHot))))) with sup := { ((((((List.range (clustersOf wHot)).zip ([500])).foldl (fun zs p => tempOne p.1 p.2 zs) wHot)).wr R.TMP_STAT_hot (hottest ((((List.range (clustersOf wHot)).zip ([500])).foldl (fun zs p => tempOne p.1 p.2 zs) wHot)))).wr R.TMP_STAT_max (unsigned 11 (lastTemp ((((List.range (clustersOf wHot)).zip ([500])).foldl (fun zs p => tempOne p.1 p.2 zs) wHot)) (hottest ((((List.range (clustersOf wHot)).zip ([500])).foldl (fun zs p => tempOne p.1 p.2 zs) wHot)))))).sup with peakSet := true } }
      else ((((((List.range (clustersOf wHot)).zip ([500])).foldl (fun zs p => tempOne p.1 p.2 zs) wHot)).wr
      R.TMP_STAT_hot (hottest ((((List.range (clustersOf wHot)).zip ([500])).foldl (fun zs p => tempOne p.1 p.2 zs)
      wHot)))).wr R.TMP_STAT_max (unsigned 11 (lastTemp ((((List.range (clustersOf wHot)).zip ([500])).foldl (fun zs
      p => tempOne p.1 p.2 zs) wHot)) (hottest ((((List.range (clustersOf wHot)).zip ([500])).foldl (fun zs p =>
      tempOne p.1 p.2 zs) wHot)))))))).on R.TMP_STAT_crit))).setInput 264 ((if 440 < lastTemp ((((List.range
      (clustersOf wHot)).zip ([500])).foldl (fun zs p => tempOne p.1 p.2 zs) wHot)) (hottest ((((List.range
      (clustersOf wHot)).zip ([500])).foldl (fun zs p => tempOne p.1 p.2 zs) wHot))) then true else if lastTemp
      ((((List.range (clustersOf wHot)).zip ([500])).foldl (fun zs p => tempOne p.1 p.2 zs) wHot)) (hottest
      ((((List.range (clustersOf wHot)).zip ([500])).foldl (fun zs p => tempOne p.1 p.2 zs) wHot))) ≤ 420 then false
      else ((if !((((((List.range (clustersOf wHot)).zip ([500])).foldl (fun zs p => tempOne p.1 p.2 zs) wHot)).wr
      R.TMP_STAT_hot (hottest ((((List.range (clustersOf wHot)).zip ([500])).foldl (fun zs p => tempOne p.1 p.2 zs)
      wHot)))).wr R.TMP_STAT_max (unsigned 11 (lastTemp ((((List.range (clustersOf wHot)).zip ([500])).foldl (fun zs
      p => tempOne p.1 p.2 zs) wHot)) (hottest ((((List.range (clustersOf wHot)).zip ([500])).foldl (fun zs p =>
      tempOne p.1 p.2 zs) wHot)))))).sup.peakSet || signed 11 (((((((List.range (clustersOf wHot)).zip
      ([500])).foldl (fun zs p => tempOne p.1 p.2 zs) wHot)).wr R.TMP_STAT_hot (hottest ((((List.range (clustersOf
      wHot)).zip ([500])).foldl (fun zs p => tempOne p.1 p.2 zs) wHot)))).wr R.TMP_STAT_max (unsigned 11 (lastTemp
      ((((List.range (clustersOf wHot)).zip ([500])).foldl (fun zs p => tempOne p.1 p.2 zs) wHot)) (hottest
      ((((List.range (clustersOf wHot)).zip ([500])).foldl (fun zs p => tempOne p.1 p.2 zs) wHot)))))).rd
      R.TMP_PEAK_peak) < lastTemp ((((List.range (clustersOf wHot)).zip ([500])).foldl (fun zs p => tempOne p.1 p.2
      zs) wHot)) (hottest ((((List.range (clustersOf wHot)).zip ([500])).foldl (fun zs p => tempOne p.1 p.2 zs)
      wHot))) then
      { (((((((List.range (clustersOf wHot)).zip ([500])).foldl (fun zs p => tempOne p.1 p.2 zs) wHot)).wr R.TMP_STAT_hot (hottest ((((List.range (clustersOf wHot)).zip ([500])).foldl (fun zs p => tempOne p.1 p.2 zs) wHot)))).wr R.TMP_STAT_max (unsigned 11 (lastTemp ((((List.range (clustersOf wHot)).zip ([500])).foldl (fun zs p => tempOne p.1 p.2 zs) wHot)) (hottest ((((List.range (clustersOf wHot)).zip ([500])).foldl (fun zs p => tempOne p.1 p.2 zs) wHot)))))).wr R.TMP_PEAK_cluster (hottest ((((List.range (clustersOf wHot)).zip ([500])).foldl (fun zs p => tempOne p.1 p.2 zs) wHot)))).wr R.TMP_PEAK_peak (unsigned 11 (lastTemp ((((List.range (clustersOf wHot)).zip ([500])).foldl (fun zs p => tempOne p.1 p.2 zs) wHot)) (hottest ((((List.range (clustersOf wHot)).zip ([500])).foldl (fun zs p => tempOne p.1 p.2 zs) wHot))))) with sup := { ((((((List.range (clustersOf wHot)).zip ([500])).foldl (fun zs p => tempOne p.1 p.2 zs) wHot)).wr R.TMP_STAT_hot (hottest ((((List.range (clustersOf wHot)).zip ([500])).foldl (fun zs p => tempOne p.1 p.2 zs) wHot)))).wr R.TMP_STAT_max (unsigned 11 (lastTemp ((((List.range (clustersOf wHot)).zip ([500])).foldl (fun zs p => tempOne p.1 p.2 zs) wHot)) (hottest ((((List.range (clustersOf wHot)).zip ([500])).foldl (fun zs p => tempOne p.1 p.2 zs) wHot)))))).sup with peakSet := true } }
      else ((((((List.range (clustersOf wHot)).zip ([500])).foldl (fun zs p => tempOne p.1 p.2 zs) wHot)).wr
      R.TMP_STAT_hot (hottest ((((List.range (clustersOf wHot)).zip ([500])).foldl (fun zs p => tempOne p.1 p.2 zs)
      wHot)))).wr R.TMP_STAT_max (unsigned 11 (lastTemp ((((List.range (clustersOf wHot)).zip ([500])).foldl (fun zs
      p => tempOne p.1 p.2 zs) wHot)) (hottest ((((List.range (clustersOf wHot)).zip ([500])).foldl (fun zs p =>
      tempOne p.1 p.2 zs) wHot)))))))).on R.TMP_STAT_crit))) c))).any (fun c => ((((if !((((((List.range (clustersOf
      wHot)).zip ([500])).foldl (fun zs p => tempOne p.1 p.2 zs) wHot)).wr R.TMP_STAT_hot (hottest ((((List.range
      (clustersOf wHot)).zip ([500])).foldl (fun zs p => tempOne p.1 p.2 zs) wHot)))).wr R.TMP_STAT_max (unsigned 11
      (lastTemp ((((List.range (clustersOf wHot)).zip ([500])).foldl (fun zs p => tempOne p.1 p.2 zs) wHot))
      (hottest ((((List.range (clustersOf wHot)).zip ([500])).foldl (fun zs p => tempOne p.1 p.2 zs)
      wHot)))))).sup.peakSet || signed 11 (((((((List.range (clustersOf wHot)).zip ([500])).foldl (fun zs p =>
      tempOne p.1 p.2 zs) wHot)).wr R.TMP_STAT_hot (hottest ((((List.range (clustersOf wHot)).zip ([500])).foldl
      (fun zs p => tempOne p.1 p.2 zs) wHot)))).wr R.TMP_STAT_max (unsigned 11 (lastTemp ((((List.range (clustersOf
      wHot)).zip ([500])).foldl (fun zs p => tempOne p.1 p.2 zs) wHot)) (hottest ((((List.range (clustersOf
      wHot)).zip ([500])).foldl (fun zs p => tempOne p.1 p.2 zs) wHot)))))).rd R.TMP_PEAK_peak) < lastTemp
      ((((List.range (clustersOf wHot)).zip ([500])).foldl (fun zs p => tempOne p.1 p.2 zs) wHot)) (hottest
      ((((List.range (clustersOf wHot)).zip ([500])).foldl (fun zs p => tempOne p.1 p.2 zs) wHot))) then
      { (((((((List.range (clustersOf wHot)).zip ([500])).foldl (fun zs p => tempOne p.1 p.2 zs) wHot)).wr R.TMP_STAT_hot (hottest ((((List.range (clustersOf wHot)).zip ([500])).foldl (fun zs p => tempOne p.1 p.2 zs) wHot)))).wr R.TMP_STAT_max (unsigned 11 (lastTemp ((((List.range (clustersOf wHot)).zip ([500])).foldl (fun zs p => tempOne p.1 p.2 zs) wHot)) (hottest ((((List.range (clustersOf wHot)).zip ([500])).foldl (fun zs p => tempOne p.1 p.2 zs) wHot)))))).wr R.TMP_PEAK_cluster (hottest ((((List.range (clustersOf wHot)).zip ([500])).foldl (fun zs p => tempOne p.1 p.2 zs) wHot)))).wr R.TMP_PEAK_peak (unsigned 11 (lastTemp ((((List.range (clustersOf wHot)).zip ([500])).foldl (fun zs p => tempOne p.1 p.2 zs) wHot)) (hottest ((((List.range (clustersOf wHot)).zip ([500])).foldl (fun zs p => tempOne p.1 p.2 zs) wHot))))) with sup := { ((((((List.range (clustersOf wHot)).zip ([500])).foldl (fun zs p => tempOne p.1 p.2 zs) wHot)).wr R.TMP_STAT_hot (hottest ((((List.range (clustersOf wHot)).zip ([500])).foldl (fun zs p => tempOne p.1 p.2 zs) wHot)))).wr R.TMP_STAT_max (unsigned 11 (lastTemp ((((List.range (clustersOf wHot)).zip ([500])).foldl (fun zs p => tempOne p.1 p.2 zs) wHot)) (hottest ((((List.range (clustersOf wHot)).zip ([500])).foldl (fun zs p => tempOne p.1 p.2 zs) wHot)))))).sup with peakSet := true } }
      else ((((((List.range (clustersOf wHot)).zip ([500])).foldl (fun zs p => tempOne p.1 p.2 zs) wHot)).wr
      R.TMP_STAT_hot (hottest ((((List.range (clustersOf wHot)).zip ([500])).foldl (fun zs p => tempOne p.1 p.2 zs)
      wHot)))).wr R.TMP_STAT_max (unsigned 11 (lastTemp ((((List.range (clustersOf wHot)).zip ([500])).foldl (fun zs
      p => tempOne p.1 p.2 zs) wHot)) (hottest ((((List.range (clustersOf wHot)).zip ([500])).foldl (fun zs p =>
      tempOne p.1 p.2 zs) wHot)))))))).wrB R.TMP_STAT_crit ((if 440 < lastTemp ((((List.range (clustersOf wHot)).zip
      ([500])).foldl (fun zs p => tempOne p.1 p.2 zs) wHot)) (hottest ((((List.range (clustersOf wHot)).zip
      ([500])).foldl (fun zs p => tempOne p.1 p.2 zs) wHot))) then true else if lastTemp ((((List.range (clustersOf
      wHot)).zip ([500])).foldl (fun zs p => tempOne p.1 p.2 zs) wHot)) (hottest ((((List.range (clustersOf
      wHot)).zip ([500])).foldl (fun zs p => tempOne p.1 p.2 zs) wHot))) ≤ 420 then false else ((if
      !((((((List.range (clustersOf wHot)).zip ([500])).foldl (fun zs p => tempOne p.1 p.2 zs) wHot)).wr
      R.TMP_STAT_hot (hottest ((((List.range (clustersOf wHot)).zip ([500])).foldl (fun zs p => tempOne p.1 p.2 zs)
      wHot)))).wr R.TMP_STAT_max (unsigned 11 (lastTemp ((((List.range (clustersOf wHot)).zip ([500])).foldl (fun zs
      p => tempOne p.1 p.2 zs) wHot)) (hottest ((((List.range (clustersOf wHot)).zip ([500])).foldl (fun zs p =>
      tempOne p.1 p.2 zs) wHot)))))).sup.peakSet || signed 11 (((((((List.range (clustersOf wHot)).zip
      ([500])).foldl (fun zs p => tempOne p.1 p.2 zs) wHot)).wr R.TMP_STAT_hot (hottest ((((List.range (clustersOf
      wHot)).zip ([500])).foldl (fun zs p => tempOne p.1 p.2 zs) wHot)))).wr R.TMP_STAT_max (unsigned 11 (lastTemp
      ((((List.range (clustersOf wHot)).zip ([500])).foldl (fun zs p => tempOne p.1 p.2 zs) wHot)) (hottest
      ((((List.range (clustersOf wHot)).zip ([500])).foldl (fun zs p => tempOne p.1 p.2 zs) wHot)))))).rd
      R.TMP_PEAK_peak) < lastTemp ((((List.range (clustersOf wHot)).zip ([500])).foldl (fun zs p => tempOne p.1 p.2
      zs) wHot)) (hottest ((((List.range (clustersOf wHot)).zip ([500])).foldl (fun zs p => tempOne p.1 p.2 zs)
      wHot))) then
      { (((((((List.range (clustersOf wHot)).zip ([500])).foldl (fun zs p => tempOne p.1 p.2 zs) wHot)).wr R.TMP_STAT_hot (hottest ((((List.range (clustersOf wHot)).zip ([500])).foldl (fun zs p => tempOne p.1 p.2 zs) wHot)))).wr R.TMP_STAT_max (unsigned 11 (lastTemp ((((List.range (clustersOf wHot)).zip ([500])).foldl (fun zs p => tempOne p.1 p.2 zs) wHot)) (hottest ((((List.range (clustersOf wHot)).zip ([500])).foldl (fun zs p => tempOne p.1 p.2 zs) wHot)))))).wr R.TMP_PEAK_cluster (hottest ((((List.range (clustersOf wHot)).zip ([500])).foldl (fun zs p => tempOne p.1 p.2 zs) wHot)))).wr R.TMP_PEAK_peak (unsigned 11 (lastTemp ((((List.range (clustersOf wHot)).zip ([500])).foldl (fun zs p => tempOne p.1 p.2 zs) wHot)) (hottest ((((List.range (clustersOf wHot)).zip ([500])).foldl (fun zs p => tempOne p.1 p.2 zs) wHot))))) with sup := { ((((((List.range (clustersOf wHot)).zip ([500])).foldl (fun zs p => tempOne p.1 p.2 zs) wHot)).wr R.TMP_STAT_hot (hottest ((((List.range (clustersOf wHot)).zip ([500])).foldl (fun zs p => tempOne p.1 p.2 zs) wHot)))).wr R.TMP_STAT_max (unsigned 11 (lastTemp ((((List.range (clustersOf wHot)).zip ([500])).foldl (fun zs p => tempOne p.1 p.2 zs) wHot)) (hottest ((((List.range (clustersOf wHot)).zip ([500])).foldl (fun zs p => tempOne p.1 p.2 zs) wHot)))))).sup with peakSet := true } }
      else ((((((List.range (clustersOf wHot)).zip ([500])).foldl (fun zs p => tempOne p.1 p.2 zs) wHot)).wr
      R.TMP_STAT_hot (hottest ((((List.range (clustersOf wHot)).zip ([500])).foldl (fun zs p => tempOne p.1 p.2 zs)
      wHot)))).wr R.TMP_STAT_max (unsigned 11 (lastTemp ((((List.range (clustersOf wHot)).zip ([500])).foldl (fun zs
      p => tempOne p.1 p.2 zs) wHot)) (hottest ((((List.range (clustersOf wHot)).zip ([500])).foldl (fun zs p =>
      tempOne p.1 p.2 zs) wHot)))))))).on R.TMP_STAT_crit))).setInput 264 ((if 440 < lastTemp ((((List.range
      (clustersOf wHot)).zip ([500])).foldl (fun zs p => tempOne p.1 p.2 zs) wHot)) (hottest ((((List.range
      (clustersOf wHot)).zip ([500])).foldl (fun zs p => tempOne p.1 p.2 zs) wHot))) then true else if lastTemp
      ((((List.range (clustersOf wHot)).zip ([500])).foldl (fun zs p => tempOne p.1 p.2 zs) wHot)) (hottest
      ((((List.range (clustersOf wHot)).zip ([500])).foldl (fun zs p => tempOne p.1 p.2 zs) wHot))) ≤ 420 then false
      else ((if !((((((List.range (clustersOf wHot)).zip ([500])).foldl (fun zs p => tempOne p.1 p.2 zs) wHot)).wr
      R.TMP_STAT_hot (hottest ((((List.range (clustersOf wHot)).zip ([500])).foldl (fun zs p => tempOne p.1 p.2 zs)
      wHot)))).wr R.TMP_STAT_max (unsigned 11 (lastTemp ((((List.range (clustersOf wHot)).zip ([500])).foldl (fun zs
      p => tempOne p.1 p.2 zs) wHot)) (hottest ((((List.range (clustersOf wHot)).zip ([500])).foldl (fun zs p =>
      tempOne p.1 p.2 zs) wHot)))))).sup.peakSet || signed 11 (((((((List.range (clustersOf wHot)).zip
      ([500])).foldl (fun zs p => tempOne p.1 p.2 zs) wHot)).wr R.TMP_STAT_hot (hottest ((((List.range (clustersOf
      wHot)).zip ([500])).foldl (fun zs p => tempOne p.1 p.2 zs) wHot)))).wr R.TMP_STAT_max (unsigned 11 (lastTemp
      ((((List.range (clustersOf wHot)).zip ([500])).foldl (fun zs p => tempOne p.1 p.2 zs) wHot)) (hottest
      ((((List.range (clustersOf wHot)).zip ([500])).foldl (fun zs p => tempOne p.1 p.2 zs) wHot)))))).rd
      R.TMP_PEAK_peak) < lastTemp ((((List.range (clustersOf wHot)).zip ([500])).foldl (fun zs p => tempOne p.1 p.2
      zs) wHot)) (hottest ((((List.range (clustersOf wHot)).zip ([500])).foldl (fun zs p => tempOne p.1 p.2 zs)
      wHot))) then
      { (((((((List.range (clustersOf wHot)).zip ([500])).foldl (fun zs p => tempOne p.1 p.2 zs) wHot)).wr R.TMP_STAT_hot (hottest ((((List.range (clustersOf wHot)).zip ([500])).foldl (fun zs p => tempOne p.1 p.2 zs) wHot)))).wr R.TMP_STAT_max (unsigned 11 (lastTemp ((((List.range (clustersOf wHot)).zip ([500])).foldl (fun zs p => tempOne p.1 p.2 zs) wHot)) (hottest ((((List.range (clustersOf wHot)).zip ([500])).foldl (fun zs p => tempOne p.1 p.2 zs) wHot)))))).wr R.TMP_PEAK_cluster (hottest ((((List.range (clustersOf wHot)).zip ([500])).foldl (fun zs p => tempOne p.1 p.2 zs) wHot)))).wr R.TMP_PEAK_peak (unsigned 11 (lastTemp ((((List.range (clustersOf wHot)).zip ([500])).foldl (fun zs p => tempOne p.1 p.2 zs) wHot)) (hottest ((((List.range (clustersOf wHot)).zip ([500])).foldl (fun zs p => tempOne p.1 p.2 zs) wHot))))) with sup := { ((((((List.range (clustersOf wHot)).zip ([500])).foldl (fun zs p => tempOne p.1 p.2 zs) wHot)).wr R.TMP_STAT_hot (hottest ((((List.range (clustersOf wHot)).zip ([500])).foldl (fun zs p => tempOne p.1 p.2 zs) wHot)))).wr R.TMP_STAT_max (unsigned 11 (lastTemp ((((List.range (clustersOf wHot)).zip ([500])).foldl (fun zs p => tempOne p.1 p.2 zs) wHot)) (hottest ((((List.range (clustersOf wHot)).zip ([500])).foldl (fun zs p => tempOne p.1 p.2 zs) wHot)))))).sup with peakSet := true } }
      else ((((((List.range (clustersOf wHot)).zip ([500])).foldl (fun zs p => tempOne p.1 p.2 zs) wHot)).wr
      R.TMP_STAT_hot (hottest ((((List.range (clustersOf wHot)).zip ([500])).foldl (fun zs p => tempOne p.1 p.2 zs)
      wHot)))).wr R.TMP_STAT_max (unsigned 11 (lastTemp ((((List.range (clustersOf wHot)).zip ([500])).foldl (fun zs
      p => tempOne p.1 p.2 zs) wHot)) (hottest ((((List.range (clustersOf wHot)).zip ([500])).foldl (fun zs p =>
      tempOne p.1 p.2 zs) wHot)))))))).on R.TMP_STAT_crit))).sup.hot.contains c) = true) ∧
    ((State.reset).dev.phase = .off) ∧
    (0 < clustersOf wRun ∧ (wRun.dev.phase = .start ∨ inRun wRun = true) ∧ calNext wRun 0 = none) ∧
    (0 < clustersOf wCalAsk ∧ (wCalAsk.dev.phase = .start ∨ inRun wCalAsk = true) ∧ calNext wCalAsk 0 = some 9 ∧
      sentinelHeld wCalAsk 0 9 = true) ∧
    (0 < clustersOf wCalQ ∧ (wCalQ.dev.phase = .start ∨ inRun wCalQ = true) ∧ calNext wCalQ 0 = some 9 ∧
      sentinelHeld wCalQ 0 9 = false) ∧
    (0 < clustersOf wCalHeld ∧ (wCalHeld.calSeq 0).cur = some 0 ∧ sentinelHeld wCalHeld 0 0 = true) ∧
    (0 < clustersOf wCalTx ∧ (wCalTx.calSeq 0).cur = some 18 ∧ sentinelHeld wCalTx 0 18 = false ∧ ([(1, 1)]).length
      ≠ calItems 18) ∧
    (0 < clustersOf wCalTx ∧ (wCalTx.calSeq 0).cur = some 18 ∧ sentinelHeld wCalTx 0 18 = false ∧ ([(1, 1), (1,
      1)]).length = calItems 18 ∧ ([(1, 1), (1, 1)]).all (calAgree (wCalTx.rd (R.CAL_CFG_tol 0))) = true) ∧
    (0 < clustersOf wCalTx ∧ (wCalTx.calSeq 0).cur = some 18 ∧ sentinelHeld wCalTx 0 18 = false ∧ ([(1, 9), (1,
      1)]).length = calItems 18 ∧ ([(1, 9), (1, 1)]).all (calAgree (wCalTx.rd (R.CAL_CFG_tol 0))) = false ∧
      (((calRecord 0 18 2 wCalTx).calSeq 0).endOf 18).disagree + 1 < 3) ∧
    (0 < clustersOf wCalTx3 ∧ (wCalTx3.calSeq 0).cur = some 18 ∧ sentinelHeld wCalTx3 0 18 = false ∧ ([(1, 9), (1,
      1)]).length = calItems 18 ∧ ([(1, 9), (1, 1)]).all (calAgree (wCalTx3.rd (R.CAL_CFG_tol 0))) = false ∧ ¬
      (((calRecord 0 18 2 wCalTx3).calSeq 0).endOf 18).disagree + 1 < 3) ∧
    (0 < clustersOf wCalWaitDue ∧ (wCalWaitDue.calSeq 0).waitStep = some 0 ∧ endTransparent wCalWaitDue 0 0 = false
      ∧ (wCalWaitDue.putCal 0
      { (wCalWaitDue.calSeq 0).putEnd 0 { (wCalWaitDue.calSeq 0).endOf 0 with corr := ((wCalWaitDue.calSeq 0).endOf 0).accepted.getD ((wCalWaitDue.calSeq 0).corrOf 0), accepted := none } with waitStep := none }).on
      (R.CAL_DUE 0 0) = true) ∧
    (0 < clustersOf wCalWait ∧ (wCalWait.calSeq 0).waitStep = some 0 ∧ endTransparent wCalWait 0 0 = false ∧
      (wCalWait.putCal 0
      { (wCalWait.calSeq 0).putEnd 0 { (wCalWait.calSeq 0).endOf 0 with corr := ((wCalWait.calSeq 0).endOf 0).accepted.getD ((wCalWait.calSeq 0).corrOf 0), accepted := none } with waitStep := none }).on
      (R.CAL_DUE 0 0) = false) ∧
    (0 < clustersOf wCalTrans ∧ (wCalTrans.calSeq 0).waitStep = some 0 ∧ endTransparent wCalTrans 0 0 = true) ∧
    (wRun.on (R.CAL_STAT_rext_fault 0) = false ∧ wRun.dev.phase ≠ .off ∧ (((List.range (clustersOf wRun)).foldl (fun
      zs c => engineNext c (((calStop c 4 zs).wr (R.CAL_STAT_rext_fault c) 1).raise (16 * c + 8))) wRun)).rd
      R.START_STAT_step ≠ 3) ∧
    ((wStartAt 3).on (R.CAL_STAT_rext_fault 0) = false ∧ (wStartAt 3).dev.phase ≠ .off ∧ (((List.range (clustersOf
      (wStartAt 3))).foldl (fun zs c => engineNext c (((calStop c 4 zs).wr (R.CAL_STAT_rext_fault c) 1).raise (16 *
      c + 8))) (wStartAt 3))).rd R.START_STAT_step = 3 ∧ (((List.range (clustersOf (wStartAt 3))).foldl (fun zs c =>
      engineNext c (((calStop c 4 zs).wr (R.CAL_STAT_rext_fault c) 1).raise (16 * c + 8))) (wStartAt 3))).dev.phase
      = .start ∧ (((List.range (clustersOf (wStartAt 3))).foldl (fun zs c => engineNext c (((calStop c 4 zs).wr
      (R.CAL_STAT_rext_fault c) 1).raise (16 * c + 8))) (wStartAt 3))).rd R.START_STAT_result = 0) ∧
    (((State.reset).on (R.CAL_STAT_rext_fault 0) = true ∨ (State.reset).dev.phase = .off)) := by
  refine ⟨?_, ?_, ?_, ?_, ?_, ?_, ?_, ?_, ?_, ?_, ?_, ?_, ?_, ?_, ?_, ?_, ?_⟩ <;> decide +kernel

/-- The hypotheses of CalibrationCommands can be met. -/
theorem witness_calibrationCommands :
    (0 < clustersOf wCalQ ∧ pageOpen wCalQ (0x20 + 0) = true ∧ calCmdRefused (((wCalQ.wr (R.CAL_CMD_end 0) 9).wr
      (R.CAL_CMD_op 0) 0)) 0 0 (9 % 64) = false ∧ (((((((wCalQ.wr (R.CAL_CMD_end 0) 9).wr (R.CAL_CMD_op 0) 0)).wr
      (R.CAL_CMD_refused 0) 0).wr (R.CAL_DUE 0 (9 % 64)) 1).calSeq 0).queue.contains (9 % 64) || ((((((wCalQ.wr
      (R.CAL_CMD_end 0) 9).wr (R.CAL_CMD_op 0) 0)).wr (R.CAL_CMD_refused 0) 0).wr (R.CAL_DUE 0 (9 % 64)) 1).calSeq
      0).cur = some (9 % 64)) = true) ∧
    (0 < clustersOf wCal0 ∧ pageOpen wCal0 (0x20 + 0) = true ∧ calCmdRefused (((wCal0.wr (R.CAL_CMD_end 0) 3).wr
      (R.CAL_CMD_op 0) 0)) 0 0 (3 % 64) = false ∧ (((((((wCal0.wr (R.CAL_CMD_end 0) 3).wr (R.CAL_CMD_op 0) 0)).wr
      (R.CAL_CMD_refused 0) 0).wr (R.CAL_DUE 0 (3 % 64)) 1).calSeq 0).queue.contains (3 % 64) || ((((((wCal0.wr
      (R.CAL_CMD_end 0) 3).wr (R.CAL_CMD_op 0) 0)).wr (R.CAL_CMD_refused 0) 0).wr (R.CAL_DUE 0 (3 % 64)) 1).calSeq
      0).cur = some (3 % 64)) = false) ∧
    (0 < clustersOf wCal0 ∧ pageOpen wCal0 (0x20 + 0) = true ∧ calCmdRefused (wCal0.wr (R.CAL_CMD_op 0) 1) 0 1
      (wCal0.rd (R.CAL_CMD_end 0)) = false) ∧
    (0 < clustersOf wEyeOk ∧ pageOpen wEyeOk (0x20 + 0) = true ∧ calCmdRefused (((wEyeOk.wr (R.CAL_CMD_end 0) 3).wr
      (R.CAL_CMD_op 0) 2)) 0 2 (3 % 64) = false) ∧
    (0 < clustersOf wCal0 ∧ pageOpen wCal0 (0x20 + 0) = true ∧ calCmdRefused (((wCal0.wr (R.CAL_CMD_end 0) 63).wr
      (R.CAL_CMD_op 0) 0)) 0 0 (63 % 64) = true) ∧
    (0 < clustersOf wRext ∧ pageOpen wRext (0x20 + 0) = true ∧ calCmdRefused (wRext.wr (R.CAL_CMD_op 0) 1) 0 1
      (wRext.rd (R.CAL_CMD_end 0)) = true) ∧
    (0 < clustersOf wCal0 ∧ pageOpen wCal0 (0x20 + 0) = true ∧ calCmdRefused (((wCal0.wr (R.CAL_CMD_end 0) 63).wr
      (R.CAL_CMD_op 0) 2)) 0 2 (63 % 64) = true) ∧
    (0 < clustersOf wEye ∧ (wEye.calSeq 0).eye = some 3 ∧ sentinelHeld wEye 0 3 = false ∧ (wEye.calSeq 0).cur ≠ some
      3) ∧
    (0 < clustersOf wEyeHeld ∧ (wEyeHeld.calSeq 0).eye = some 3 ∧ (sentinelHeld wEyeHeld 0 3 = true ∨
      (wEyeHeld.calSeq 0).cur = some 3)) ∧
    (0 < clustersOf wEye ∧ (wEye.calSeq 0).eye = some 3) ∧
    (wRun = wRun ∧ 0 < clustersOf wRun ∧ pageOpen wRun (0x20 + 0) = true ∧ 3 % 64 < 18) ∧
    (0 < clustersOf wRun ∧ pageOpen wRun (0x20 + 0) = true ∧ 18 ≤ 18 % 64 ∧ 18 % 64 ≤ 37) ∧
    (0 < clustersOf wRun ∧ pageOpen wRun (0x20 + 0) = true ∧ 37 < 63 % 64) := by
  refine ⟨?_, ?_, ?_, ?_, ?_, ?_, ?_, ?_, ?_, ?_, ?_, ?_, ?_⟩ <;> decide +kernel

/-- The hypotheses of BuiltInSelfTest can be met. -/
theorem witness_builtInSelfTest :
    (wTurn.bist.nextAt = some 0 ∧ 0 ≤ wTurn.clock ∧ inRun wTurn = true ∧ wTurn.rd (R.CLK_EN_en 7) = 1) ∧
    (wTurnOut.bist.nextAt = some 0 ∧ (0 ≤ wTurnOut.clock && inRun wTurnOut && wTurnOut.rd (R.CLK_EN_en 7) = 1) =
      false) ∧
    (wRun.bist.nextAt = none) ∧
    (0 < clustersOf wSlice ∧ bobSliceOf wSlice (clusterDie 0) = some 0 ∧ 0 = 0 ∧ (wSlice.bob 0).enabling = false) ∧
    (0 < clustersOf wSliceEn ∧ bobSliceOf wSliceEn (clusterDie 0) = some 0 ∧ 0 = 0 ∧ (wSliceEn.bob 0).enabling =
      true) ∧
    (0 < clustersOf wSlice ∧ bobSliceOf wSlice (clusterDie 0) = some 0 ∧ (1 ≠ 0 || false) = true) ∧
    (0 < clustersOf wSlice ∧ bobSliceOf wSlice (clusterDie 0) = some 0) ∧
    (0 < clustersOf wSlice ∧ bobSliceOf wSlice (clusterDie 0) = some 0 ∧ 5 ≠ 2 ^ 26) ∧
    (0 < diesOf wRun ∧ (bobSliceOf (bankStop 0 resIncomplete causeStall wRun) 0).isNone = true) ∧
    (0 < diesOf wSlice ∧ (bobSliceOf (bankStop 0 resIncomplete causeStall wSlice) 0).isNone = false) ∧
    (pageOpen wRef 7 = true ∧ (0 < clustersOf ((wRef.wr R.BST_CMD_op 0).wr R.BST_CMD_cluster 0) && (inService
      ((wRef.wr R.BST_CMD_op 0).wr R.BST_CMD_cluster 0) || ((wRef.wr R.BST_CMD_op 0).wr R.BST_CMD_cluster
      0).dev.phase = .test) && !dieFenced ((wRef.wr R.BST_CMD_op 0).wr R.BST_CMD_cluster 0) (clusterDie 0) &&
      ((wRef.wr R.BST_CMD_op 0).wr R.BST_CMD_cluster 0).rd (R.BOB_STAT_state 0) = bbReady && (bobSliceOf ((wRef.wr
      R.BST_CMD_op 0).wr R.BST_CMD_cluster 0) (clusterDie 0)).isNone) = true ∧ limitCause (rxPolApply (128 + 0) .b
      (rxPolApply (128 + 0) .a (testSync (((wRef.wr R.BST_CMD_op 0).wr R.BST_CMD_cluster 0).wrB R.BST_CMD_refused
      false) (128 + 0) ((((((wRef.wr R.BST_CMD_op 0).wr R.BST_CMD_cluster 0).wrB R.BST_CMD_refused
      false).setBobSlice (clusterDie 0) (some 0)).putBob 0
      { (((wRef.wr R.BST_CMD_op 0).wr R.BST_CMD_cluster 0).wrB R.BST_CMD_refused false).bob 0 with slice := true, enabling := false, sliceAt := (((wRef.wr R.BST_CMD_op 0).wr R.BST_CMD_cluster 0).wrB R.BST_CMD_refused false).clock, sliceRung := sliceRung (((wRef.wr R.BST_CMD_op 0).wr R.BST_CMD_cluster 0).wrB R.BST_CMD_refused false) 0, started := ([Dir.ab, Dir.ba].filter fun d => ckRate (((wRef.wr R.BST_CMD_op 0).wr R.BST_CMD_cluster 0).wrB R.BST_CMD_refused false) 0 d = 7 && !(((wRef.wr R.BST_CMD_op 0).wr R.BST_CMD_cluster 0).wrB R.BST_CMD_refused false).on (R.CK_STAT_own_lock 0 d.idx)).map Dir.idx })))))
      (clusterDie 0) = 0) ∧
    (pageOpen wBobReady 7 = true ∧ (0 < clustersOf ((wBobReady.wr R.BST_CMD_op 0).wr R.BST_CMD_cluster 0) &&
      (inService ((wBobReady.wr R.BST_CMD_op 0).wr R.BST_CMD_cluster 0) || ((wBobReady.wr R.BST_CMD_op 0).wr
      R.BST_CMD_cluster 0).dev.phase = .test) && !dieFenced ((wBobReady.wr R.BST_CMD_op 0).wr R.BST_CMD_cluster 0)
      (clusterDie 0) && ((wBobReady.wr R.BST_CMD_op 0).wr R.BST_CMD_cluster 0).rd (R.BOB_STAT_state 0) = bbReady &&
      (bobSliceOf ((wBobReady.wr R.BST_CMD_op 0).wr R.BST_CMD_cluster 0) (clusterDie 0)).isNone) = true ∧ limitCause
      (rxPolApply (128 + 0) .b (rxPolApply (128 + 0) .a (testSync (((wBobReady.wr R.BST_CMD_op 0).wr
      R.BST_CMD_cluster 0).wrB R.BST_CMD_refused false) (128 + 0) ((((((wBobReady.wr R.BST_CMD_op 0).wr
      R.BST_CMD_cluster 0).wrB R.BST_CMD_refused false).setBobSlice (clusterDie 0) (some 0)).putBob 0
      { (((wBobReady.wr R.BST_CMD_op 0).wr R.BST_CMD_cluster 0).wrB R.BST_CMD_refused false).bob 0 with slice := true, enabling := false, sliceAt := (((wBobReady.wr R.BST_CMD_op 0).wr R.BST_CMD_cluster 0).wrB R.BST_CMD_refused false).clock, sliceRung := sliceRung (((wBobReady.wr R.BST_CMD_op 0).wr R.BST_CMD_cluster 0).wrB R.BST_CMD_refused false) 0, started := ([Dir.ab, Dir.ba].filter fun d => ckRate (((wBobReady.wr R.BST_CMD_op 0).wr R.BST_CMD_cluster 0).wrB R.BST_CMD_refused false) 0 d = 7 && !(((wBobReady.wr R.BST_CMD_op 0).wr R.BST_CMD_cluster 0).wrB R.BST_CMD_refused false).on (R.CK_STAT_own_lock 0 d.idx)).map Dir.idx })))))
      (clusterDie 0) ≠ 0) ∧
    (pageOpen wSlice 7 = true ∧ (0 < clustersOf ((wSlice.wr R.BST_CMD_op 0).wr R.BST_CMD_cluster 0) && (inService
      ((wSlice.wr R.BST_CMD_op 0).wr R.BST_CMD_cluster 0) || ((wSlice.wr R.BST_CMD_op 0).wr R.BST_CMD_cluster
      0).dev.phase = .test) && !dieFenced ((wSlice.wr R.BST_CMD_op 0).wr R.BST_CMD_cluster 0) (clusterDie 0) &&
      ((wSlice.wr R.BST_CMD_op 0).wr R.BST_CMD_cluster 0).rd (R.BOB_STAT_state 0) = bbReady && (bobSliceOf
      ((wSlice.wr R.BST_CMD_op 0).wr R.BST_CMD_cluster 0) (clusterDie 0)).isNone) = false) ∧
    (pageOpen wRun 7 = true) ∧
    (pageOpen wTest 7 = true ∧ wTest.dev.phase = .test) ∧
    (pageOpen wRun 7 = true ∧ wRun.dev.phase ≠ .test) ∧
    (pageOpen wRun 7 = true ∧ inRun wRun = true ∧ (((wRun.wr R.BST_CMD_op 3).wr R.BST_CMD_confirm 0x5A).wrB
      R.BST_CMD_refused false).dev.phase ≠ .off ∧ (((wRun.wr R.BST_CMD_op 3).wr R.BST_CMD_confirm 0x5A).wrB
      R.BST_CMD_refused false).dev.phase ≠ .test ∧ (((wRun.wr R.BST_CMD_op 3).wr R.BST_CMD_confirm 0x5A).wrB
      R.BST_CMD_refused false).dev.testEntry = 0 ∧ startFailed (((wRun.wr R.BST_CMD_op 3).wr R.BST_CMD_confirm
      0x5A).wrB R.BST_CMD_refused false) = false) ∧
    (pageOpen wRun 7 = true ∧ (0 = 0x5A && inRun wRun) = false) ∧
    (wRun.dev.phase ≠ .off ∧ wRun.dev.phase ≠ .test ∧ wRun.dev.testEntry = 0 ∧ startFailed wRun = false) ∧
    ((wTest.dev.phase = .off || wTest.dev.phase = .test || wTest.dev.testEntry ≠ 0 || startFailed wTest) = true) ∧
    (wTestEntry.dev.testEntry ≠ 0 ∧ eieAwaited wTestEntry = false ∧ bankSliceRuns wTestEntry 0 = false ∧
      bankSliceRuns wTestEntry 1 = false) ∧
    (pageOpen wTurn 7 = true ∧ (((wTurn.wr R.BST_CFG_bob_en (bits 0 17 17)).wr R.BST_CFG_bank_en (bits 0 16 16)).wr
      R.BST_CFG_interval (max 1 (min 3600 (bits 0 11 0)))).bist.nextAt = some 0) ∧
    (pageOpen wRun 7 = true ∧ (((wRun.wr R.BST_CFG_bob_en (bits 0 17 17)).wr R.BST_CFG_bank_en (bits 0 16 16)).wr
      R.BST_CFG_interval (max 1 (min 3600 (bits 0 11 0)))).bist.nextAt = none) := by
  refine ⟨?_, ?_, ?_, ?_, ?_, ?_, ?_, ?_, ?_, ?_, ?_, ?_, ?_, ?_, ?_, ?_, ?_, ?_, ?_, ?_, ?_, ?_, ?_⟩ <;> decide +kernel

/-- The hypotheses of LoopsAndPatterns can be met. -/
theorem witness_loopsAndPatterns :
    (pageOpen wBist0 7 = true ∧ laneSelectable wBist0 3 = true ∧ loopWhy wBist0 3 (bits 0 9 8) (bits 0 0 0) (bits 0
      18 16) = some 0) ∧
    (pageOpen wBist0 7 = true ∧ laneSelectable wBist0 3 = true ∧ patternWhy wBist0 3 (Side.ofIdx (bits 0 4
      4)).dirOut = some 0) ∧
    (pageOpen wBist0 7 = true ∧ laneSelectable wBist0 3 = true ∧ patternWhy wBist0 3 (Side.ofIdx (bits 0 4 4)).dirIn
      = some 0) ∧
    (pageOpen wRef 7 = true ∧ laneSelectable wRef 3 = true ∧ loopWhy wRef 3 (bits 0x10100 9 8) (bits 0x10100 0 0)
      (bits 0x10100 18 16) = none) ∧
    (pageOpen wBistRate 7 = true ∧ laneSelectable wBistRate 3 = true ∧ patternWhy wBistRate 3 (Side.ofIdx (bits 8 4
      4)).dirOut = none ∧ 8 ≤ bits 8 3 0) ∧
    (pageOpen wBistRate 7 = true ∧ laneSelectable wBistRate 3 = true ∧ patternWhy wBistRate 3 (Side.ofIdx (bits
      0x1001 4 4)).dirOut = none ∧ bits 0x1001 3 0 < 8) ∧
    (pageOpen wBistRate 7 = true ∧ laneSelectable wBistRate 3 = true ∧ patternWhy wBistRate 3 (Side.ofIdx (bits 8 4
      4)).dirIn = none ∧ 8 ≤ bits 8 3 0) ∧
    (pageOpen wBistRate 7 = true ∧ laneSelectable wBistRate 3 = true ∧ patternWhy wBistRate 3 (Side.ofIdx (bits
      0x1001 4 4)).dirIn = none ∧ bits 0x1001 3 0 < 8) ∧
    (lanePresent wPrbs 3 = true ∧ wPrbs.on (R.PRBS_CHK_en (lanePage 3)) = true ∧ prbsLocked wPrbs 3 = false ∧
      prbsLocks (wPrbs.rd (R.PRBS_CHK_pattern (lanePage 3))) (wPrbs.rd (R.PRBS_USER_bits (lanePage 3))) ([]) = none)
      ∧
    (lanePresent wPrbs7 3 = true ∧ wPrbs7.on (R.PRBS_CHK_en (lanePage 3)) = true ∧ prbsLocked wPrbs7 3 = false ∧
      prbsLocks (wPrbs7.rd (R.PRBS_CHK_pattern (lanePage 3))) (wPrbs7.rd (R.PRBS_USER_bits (lanePage 3)))
      (List.replicate 71 false) = some false ∧ (false && isPam (prbsRate wPrbs7 3)) = false) ∧
    (lanePresent wPrbs7Pam 3 = true ∧ wPrbs7Pam.on (R.PRBS_CHK_en (lanePage 3)) = true ∧ prbsLocked wPrbs7Pam 3 =
      false ∧ prbsLocks (wPrbs7Pam.rd (R.PRBS_CHK_pattern (lanePage 3))) (wPrbs7Pam.rd (R.PRBS_USER_bits (lanePage
      3))) (List.replicate 71 true) = some true ∧ (true && isPam (prbsRate wPrbs7Pam 3)) = true) ∧
    (((wPrbsL.putLive (R.PRBS_BITS_LO (lanePage 3)) (min (wPrbsL.live (R.PRBS_BITS_LO (lanePage 3)) + 10) (maxOf
      64))).countBy (R.PRBS_ERR (lanePage 3)) (if wPrbsL.rd (R.PRBS_CHK_pattern (lanePage 3)) = 6 then 1 + 8 * 0
      else 1)) = (wPrbsL.putLive (R.PRBS_BITS_LO (lanePage 3)) (min (wPrbsL.live (R.PRBS_BITS_LO (lanePage 3)) + 10)
      (maxOf 64))).countBy (R.PRBS_ERR (lanePage 3)) (if wPrbsL.rd (R.PRBS_CHK_pattern (lanePage 3)) = 6 then 1 + 8
      * 0 else 1) ∧
      ({ ((wPrbsL.putLive (R.PRBS_BITS_LO (lanePage 3)) (min (wPrbsL.live (R.PRBS_BITS_LO (lanePage 3)) + 10) (maxOf 64))).countBy (R.PRBS_ERR (lanePage 3)) (if wPrbsL.rd (R.PRBS_CHK_pattern (lanePage 3)) = 6 then 1 + 8 * 0 else 1)).prbsOf 3 with winBits := (((wPrbsL.putLive (R.PRBS_BITS_LO (lanePage 3)) (min (wPrbsL.live (R.PRBS_BITS_LO (lanePage 3)) + 10) (maxOf 64))).countBy (R.PRBS_ERR (lanePage 3)) (if wPrbsL.rd (R.PRBS_CHK_pattern (lanePage 3)) = 6 then 1 + 8 * 0 else 1)).prbsOf 3).winBits + 10, winErrs := (((wPrbsL.putLive (R.PRBS_BITS_LO (lanePage 3)) (min (wPrbsL.live (R.PRBS_BITS_LO (lanePage 3)) + 10) (maxOf 64))).countBy (R.PRBS_ERR (lanePage 3)) (if wPrbsL.rd (R.PRBS_CHK_pattern (lanePage 3)) = 6 then 1 + 8 * 0 else 1)).prbsOf 3).winErrs + (if wPrbsL.rd (R.PRBS_CHK_pattern (lanePage 3)) = 6 then 1 + 8 * 0 else 1) })
      =
      { ((wPrbsL.putLive (R.PRBS_BITS_LO (lanePage 3)) (min (wPrbsL.live (R.PRBS_BITS_LO (lanePage 3)) + 10) (maxOf 64))).countBy (R.PRBS_ERR (lanePage 3)) (if wPrbsL.rd (R.PRBS_CHK_pattern (lanePage 3)) = 6 then 1 + 8 * 0 else 1)).prbsOf 3 with winBits := (((wPrbsL.putLive (R.PRBS_BITS_LO (lanePage 3)) (min (wPrbsL.live (R.PRBS_BITS_LO (lanePage 3)) + 10) (maxOf 64))).countBy (R.PRBS_ERR (lanePage 3)) (if wPrbsL.rd (R.PRBS_CHK_pattern (lanePage 3)) = 6 then 1 + 8 * 0 else 1)).prbsOf 3).winBits + 10, winErrs := (((wPrbsL.putLive (R.PRBS_BITS_LO (lanePage 3)) (min (wPrbsL.live (R.PRBS_BITS_LO (lanePage 3)) + 10) (maxOf 64))).countBy (R.PRBS_ERR (lanePage 3)) (if wPrbsL.rd (R.PRBS_CHK_pattern (lanePage 3)) = 6 then 1 + 8 * 0 else 1)).prbsOf 3).winErrs + (if wPrbsL.rd (R.PRBS_CHK_pattern (lanePage 3)) = 6 then 1 + 8 * 0 else 1) }
      ∧ ((if ((wPrbsL.putLive (R.PRBS_BITS_LO (lanePage 3)) (min (wPrbsL.live (R.PRBS_BITS_LO (lanePage 3)) + 10)
      (maxOf 64))).countBy (R.PRBS_ERR (lanePage 3)) (if wPrbsL.rd (R.PRBS_CHK_pattern (lanePage 3)) = 6 then 1 + 8
      * 0 else 1)).rd (R.PRBS_CHK_err_thr (lanePage 3)) <
      ({ ((wPrbsL.putLive (R.PRBS_BITS_LO (lanePage 3)) (min (wPrbsL.live (R.PRBS_BITS_LO (lanePage 3)) + 10) (maxOf 64))).countBy (R.PRBS_ERR (lanePage 3)) (if wPrbsL.rd (R.PRBS_CHK_pattern (lanePage 3)) = 6 then 1 + 8 * 0 else 1)).prbsOf 3 with winBits := (((wPrbsL.putLive (R.PRBS_BITS_LO (lanePage 3)) (min (wPrbsL.live (R.PRBS_BITS_LO (lanePage 3)) + 10) (maxOf 64))).countBy (R.PRBS_ERR (lanePage 3)) (if wPrbsL.rd (R.PRBS_CHK_pattern (lanePage 3)) = 6 then 1 + 8 * 0 else 1)).prbsOf 3).winBits + 10, winErrs := (((wPrbsL.putLive (R.PRBS_BITS_LO (lanePage 3)) (min (wPrbsL.live (R.PRBS_BITS_LO (lanePage 3)) + 10) (maxOf 64))).countBy (R.PRBS_ERR (lanePage 3)) (if wPrbsL.rd (R.PRBS_CHK_pattern (lanePage 3)) = 6 then 1 + 8 * 0 else 1)).prbsOf 3).winErrs + (if wPrbsL.rd (R.PRBS_CHK_pattern (lanePage 3)) = 6 then 1 + 8 * 0 else 1) }).winErrs
      &&
      !({ ((wPrbsL.putLive (R.PRBS_BITS_LO (lanePage 3)) (min (wPrbsL.live (R.PRBS_BITS_LO (lanePage 3)) + 10) (maxOf 64))).countBy (R.PRBS_ERR (lanePage 3)) (if wPrbsL.rd (R.PRBS_CHK_pattern (lanePage 3)) = 6 then 1 + 8 * 0 else 1)).prbsOf 3 with winBits := (((wPrbsL.putLive (R.PRBS_BITS_LO (lanePage 3)) (min (wPrbsL.live (R.PRBS_BITS_LO (lanePage 3)) + 10) (maxOf 64))).countBy (R.PRBS_ERR (lanePage 3)) (if wPrbsL.rd (R.PRBS_CHK_pattern (lanePage 3)) = 6 then 1 + 8 * 0 else 1)).prbsOf 3).winBits + 10, winErrs := (((wPrbsL.putLive (R.PRBS_BITS_LO (lanePage 3)) (min (wPrbsL.live (R.PRBS_BITS_LO (lanePage 3)) + 10) (maxOf 64))).countBy (R.PRBS_ERR (lanePage 3)) (if wPrbsL.rd (R.PRBS_CHK_pattern (lanePage 3)) = 6 then 1 + 8 * 0 else 1)).prbsOf 3).winErrs + (if wPrbsL.rd (R.PRBS_CHK_pattern (lanePage 3)) = 6 then 1 + 8 * 0 else 1) }).fired
      then (((wPrbsL.putLive (R.PRBS_BITS_LO (lanePage 3)) (min (wPrbsL.live (R.PRBS_BITS_LO (lanePage 3)) + 10)
      (maxOf 64))).countBy (R.PRBS_ERR (lanePage 3)) (if wPrbsL.rd (R.PRBS_CHK_pattern (lanePage 3)) = 6 then 1 + 8
      * 0 else 1)).putPrbs 3
      { ({ ((wPrbsL.putLive (R.PRBS_BITS_LO (lanePage 3)) (min (wPrbsL.live (R.PRBS_BITS_LO (lanePage 3)) + 10) (maxOf 64))).countBy (R.PRBS_ERR (lanePage 3)) (if wPrbsL.rd (R.PRBS_CHK_pattern (lanePage 3)) = 6 then 1 + 8 * 0 else 1)).prbsOf 3 with winBits := (((wPrbsL.putLive (R.PRBS_BITS_LO (lanePage 3)) (min (wPrbsL.live (R.PRBS_BITS_LO (lanePage 3)) + 10) (maxOf 64))).countBy (R.PRBS_ERR (lanePage 3)) (if wPrbsL.rd (R.PRBS_CHK_pattern (lanePage 3)) = 6 then 1 + 8 * 0 else 1)).prbsOf 3).winBits + 10, winErrs := (((wPrbsL.putLive (R.PRBS_BITS_LO (lanePage 3)) (min (wPrbsL.live (R.PRBS_BITS_LO (lanePage 3)) + 10) (maxOf 64))).countBy (R.PRBS_ERR (lanePage 3)) (if wPrbsL.rd (R.PRBS_CHK_pattern (lanePage 3)) = 6 then 1 + 8 * 0 else 1)).prbsOf 3).winErrs + (if wPrbsL.rd (R.PRBS_CHK_pattern (lanePage 3)) = 6 then 1 + 8 * 0 else 1) }) with fired := true }).raise
      (16 * laneCluster 3 + 6) else ((wPrbsL.putLive (R.PRBS_BITS_LO (lanePage 3)) (min (wPrbsL.live (R.PRBS_BITS_LO
      (lanePage 3)) + 10) (maxOf 64))).countBy (R.PRBS_ERR (lanePage 3)) (if wPrbsL.rd (R.PRBS_CHK_pattern (lanePage
      3)) = 6 then 1 + 8 * 0 else 1)).putPrbs 3
      ({ ((wPrbsL.putLive (R.PRBS_BITS_LO (lanePage 3)) (min (wPrbsL.live (R.PRBS_BITS_LO (lanePage 3)) + 10) (maxOf 64))).countBy (R.PRBS_ERR (lanePage 3)) (if wPrbsL.rd (R.PRBS_CHK_pattern (lanePage 3)) = 6 then 1 + 8 * 0 else 1)).prbsOf 3 with winBits := (((wPrbsL.putLive (R.PRBS_BITS_LO (lanePage 3)) (min (wPrbsL.live (R.PRBS_BITS_LO (lanePage 3)) + 10) (maxOf 64))).countBy (R.PRBS_ERR (lanePage 3)) (if wPrbsL.rd (R.PRBS_CHK_pattern (lanePage 3)) = 6 then 1 + 8 * 0 else 1)).prbsOf 3).winBits + 10, winErrs := (((wPrbsL.putLive (R.PRBS_BITS_LO (lanePage 3)) (min (wPrbsL.live (R.PRBS_BITS_LO (lanePage 3)) + 10) (maxOf 64))).countBy (R.PRBS_ERR (lanePage 3)) (if wPrbsL.rd (R.PRBS_CHK_pattern (lanePage 3)) = 6 then 1 + 8 * 0 else 1)).prbsOf 3).winErrs + (if wPrbsL.rd (R.PRBS_CHK_pattern (lanePage 3)) = 6 then 1 + 8 * 0 else 1) })))
      = (if ((wPrbsL.putLive (R.PRBS_BITS_LO (lanePage 3)) (min (wPrbsL.live (R.PRBS_BITS_LO (lanePage 3)) + 10)
      (maxOf 64))).countBy (R.PRBS_ERR (lanePage 3)) (if wPrbsL.rd (R.PRBS_CHK_pattern (lanePage 3)) = 6 then 1 + 8
      * 0 else 1)).rd (R.PRBS_CHK_err_thr (lanePage 3)) <
      ({ ((wPrbsL.putLive (R.PRBS_BITS_LO (lanePage 3)) (min (wPrbsL.live (R.PRBS_BITS_LO (lanePage 3)) + 10) (maxOf 64))).countBy (R.PRBS_ERR (lanePage 3)) (if wPrbsL.rd (R.PRBS_CHK_pattern (lanePage 3)) = 6 then 1 + 8 * 0 else 1)).prbsOf 3 with winBits := (((wPrbsL.putLive (R.PRBS_BITS_LO (lanePage 3)) (min (wPrbsL.live (R.PRBS_BITS_LO (lanePage 3)) + 10) (maxOf 64))).countBy (R.PRBS_ERR (lanePage 3)) (if wPrbsL.rd (R.PRBS_CHK_pattern (lanePage 3)) = 6 then 1 + 8 * 0 else 1)).prbsOf 3).winBits + 10, winErrs := (((wPrbsL.putLive (R.PRBS_BITS_LO (lanePage 3)) (min (wPrbsL.live (R.PRBS_BITS_LO (lanePage 3)) + 10) (maxOf 64))).countBy (R.PRBS_ERR (lanePage 3)) (if wPrbsL.rd (R.PRBS_CHK_pattern (lanePage 3)) = 6 then 1 + 8 * 0 else 1)).prbsOf 3).winErrs + (if wPrbsL.rd (R.PRBS_CHK_pattern (lanePage 3)) = 6 then 1 + 8 * 0 else 1) }).winErrs
      &&
      !({ ((wPrbsL.putLive (R.PRBS_BITS_LO (lanePage 3)) (min (wPrbsL.live (R.PRBS_BITS_LO (lanePage 3)) + 10) (maxOf 64))).countBy (R.PRBS_ERR (lanePage 3)) (if wPrbsL.rd (R.PRBS_CHK_pattern (lanePage 3)) = 6 then 1 + 8 * 0 else 1)).prbsOf 3 with winBits := (((wPrbsL.putLive (R.PRBS_BITS_LO (lanePage 3)) (min (wPrbsL.live (R.PRBS_BITS_LO (lanePage 3)) + 10) (maxOf 64))).countBy (R.PRBS_ERR (lanePage 3)) (if wPrbsL.rd (R.PRBS_CHK_pattern (lanePage 3)) = 6 then 1 + 8 * 0 else 1)).prbsOf 3).winBits + 10, winErrs := (((wPrbsL.putLive (R.PRBS_BITS_LO (lanePage 3)) (min (wPrbsL.live (R.PRBS_BITS_LO (lanePage 3)) + 10) (maxOf 64))).countBy (R.PRBS_ERR (lanePage 3)) (if wPrbsL.rd (R.PRBS_CHK_pattern (lanePage 3)) = 6 then 1 + 8 * 0 else 1)).prbsOf 3).winErrs + (if wPrbsL.rd (R.PRBS_CHK_pattern (lanePage 3)) = 6 then 1 + 8 * 0 else 1) }).fired
      then (((wPrbsL.putLive (R.PRBS_BITS_LO (lanePage 3)) (min (wPrbsL.live (R.PRBS_BITS_LO (lanePage 3)) + 10)
      (maxOf 64))).countBy (R.PRBS_ERR (lanePage 3)) (if wPrbsL.rd (R.PRBS_CHK_pattern (lanePage 3)) = 6 then 1 + 8
      * 0 else 1)).putPrbs 3
      { ({ ((wPrbsL.putLive (R.PRBS_BITS_LO (lanePage 3)) (min (wPrbsL.live (R.PRBS_BITS_LO (lanePage 3)) + 10) (maxOf 64))).countBy (R.PRBS_ERR (lanePage 3)) (if wPrbsL.rd (R.PRBS_CHK_pattern (lanePage 3)) = 6 then 1 + 8 * 0 else 1)).prbsOf 3 with winBits := (((wPrbsL.putLive (R.PRBS_BITS_LO (lanePage 3)) (min (wPrbsL.live (R.PRBS_BITS_LO (lanePage 3)) + 10) (maxOf 64))).countBy (R.PRBS_ERR (lanePage 3)) (if wPrbsL.rd (R.PRBS_CHK_pattern (lanePage 3)) = 6 then 1 + 8 * 0 else 1)).prbsOf 3).winBits + 10, winErrs := (((wPrbsL.putLive (R.PRBS_BITS_LO (lanePage 3)) (min (wPrbsL.live (R.PRBS_BITS_LO (lanePage 3)) + 10) (maxOf 64))).countBy (R.PRBS_ERR (lanePage 3)) (if wPrbsL.rd (R.PRBS_CHK_pattern (lanePage 3)) = 6 then 1 + 8 * 0 else 1)).prbsOf 3).winErrs + (if wPrbsL.rd (R.PRBS_CHK_pattern (lanePage 3)) = 6 then 1 + 8 * 0 else 1) }) with fired := true }).raise
      (16 * laneCluster 3 + 6) else ((wPrbsL.putLive (R.PRBS_BITS_LO (lanePage 3)) (min (wPrbsL.live (R.PRBS_BITS_LO
      (lanePage 3)) + 10) (maxOf 64))).countBy (R.PRBS_ERR (lanePage 3)) (if wPrbsL.rd (R.PRBS_CHK_pattern (lanePage
      3)) = 6 then 1 + 8 * 0 else 1)).putPrbs 3
      ({ ((wPrbsL.putLive (R.PRBS_BITS_LO (lanePage 3)) (min (wPrbsL.live (R.PRBS_BITS_LO (lanePage 3)) + 10) (maxOf 64))).countBy (R.PRBS_ERR (lanePage 3)) (if wPrbsL.rd (R.PRBS_CHK_pattern (lanePage 3)) = 6 then 1 + 8 * 0 else 1)).prbsOf 3 with winBits := (((wPrbsL.putLive (R.PRBS_BITS_LO (lanePage 3)) (min (wPrbsL.live (R.PRBS_BITS_LO (lanePage 3)) + 10) (maxOf 64))).countBy (R.PRBS_ERR (lanePage 3)) (if wPrbsL.rd (R.PRBS_CHK_pattern (lanePage 3)) = 6 then 1 + 8 * 0 else 1)).prbsOf 3).winBits + 10, winErrs := (((wPrbsL.putLive (R.PRBS_BITS_LO (lanePage 3)) (min (wPrbsL.live (R.PRBS_BITS_LO (lanePage 3)) + 10) (maxOf 64))).countBy (R.PRBS_ERR (lanePage 3)) (if wPrbsL.rd (R.PRBS_CHK_pattern (lanePage 3)) = 6 then 1 + 8 * 0 else 1)).prbsOf 3).winErrs + (if wPrbsL.rd (R.PRBS_CHK_pattern (lanePage 3)) = 6 then 1 + 8 * 0 else 1) }))
      ∧ lanePresent wPrbsL 3 = true ∧ prbsLocked wPrbsL 3 = true ∧ 64 < 65 ∧ inWindow wPrbsL 3 10 = true) ∧
    (((wPrbsL.putLive (R.PRBS_BITS_LO (lanePage 3)) (min (wPrbsL.live (R.PRBS_BITS_LO (lanePage 3)) + 10) (maxOf
      64))).countBy (R.PRBS_ERR (lanePage 3)) (if wPrbsL.rd (R.PRBS_CHK_pattern (lanePage 3)) = 6 then 1 + 8 * 0
      else 1)) = (wPrbsL.putLive (R.PRBS_BITS_LO (lanePage 3)) (min (wPrbsL.live (R.PRBS_BITS_LO (lanePage 3)) + 10)
      (maxOf 64))).countBy (R.PRBS_ERR (lanePage 3)) (if wPrbsL.rd (R.PRBS_CHK_pattern (lanePage 3)) = 6 then 1 + 8
      * 0 else 1) ∧
      ({ ((wPrbsL.putLive (R.PRBS_BITS_LO (lanePage 3)) (min (wPrbsL.live (R.PRBS_BITS_LO (lanePage 3)) + 10) (maxOf 64))).countBy (R.PRBS_ERR (lanePage 3)) (if wPrbsL.rd (R.PRBS_CHK_pattern (lanePage 3)) = 6 then 1 + 8 * 0 else 1)).prbsOf 3 with winBits := (((wPrbsL.putLive (R.PRBS_BITS_LO (lanePage 3)) (min (wPrbsL.live (R.PRBS_BITS_LO (lanePage 3)) + 10) (maxOf 64))).countBy (R.PRBS_ERR (lanePage 3)) (if wPrbsL.rd (R.PRBS_CHK_pattern (lanePage 3)) = 6 then 1 + 8 * 0 else 1)).prbsOf 3).winBits + 10, winErrs := (((wPrbsL.putLive (R.PRBS_BITS_LO (lanePage 3)) (min (wPrbsL.live (R.PRBS_BITS_LO (lanePage 3)) + 10) (maxOf 64))).countBy (R.PRBS_ERR (lanePage 3)) (if wPrbsL.rd (R.PRBS_CHK_pattern (lanePage 3)) = 6 then 1 + 8 * 0 else 1)).prbsOf 3).winErrs + (if wPrbsL.rd (R.PRBS_CHK_pattern (lanePage 3)) = 6 then 1 + 8 * 0 else 1) })
      =
      { ((wPrbsL.putLive (R.PRBS_BITS_LO (lanePage 3)) (min (wPrbsL.live (R.PRBS_BITS_LO (lanePage 3)) + 10) (maxOf 64))).countBy (R.PRBS_ERR (lanePage 3)) (if wPrbsL.rd (R.PRBS_CHK_pattern (lanePage 3)) = 6 then 1 + 8 * 0 else 1)).prbsOf 3 with winBits := (((wPrbsL.putLive (R.PRBS_BITS_LO (lanePage 3)) (min (wPrbsL.live (R.PRBS_BITS_LO (lanePage 3)) + 10) (maxOf 64))).countBy (R.PRBS_ERR (lanePage 3)) (if wPrbsL.rd (R.PRBS_CHK_pattern (lanePage 3)) = 6 then 1 + 8 * 0 else 1)).prbsOf 3).winBits + 10, winErrs := (((wPrbsL.putLive (R.PRBS_BITS_LO (lanePage 3)) (min (wPrbsL.live (R.PRBS_BITS_LO (lanePage 3)) + 10) (maxOf 64))).countBy (R.PRBS_ERR (lanePage 3)) (if wPrbsL.rd (R.PRBS_CHK_pattern (lanePage 3)) = 6 then 1 + 8 * 0 else 1)).prbsOf 3).winErrs + (if wPrbsL.rd (R.PRBS_CHK_pattern (lanePage 3)) = 6 then 1 + 8 * 0 else 1) }
      ∧ ((if ((wPrbsL.putLive (R.PRBS_BITS_LO (lanePage 3)) (min (wPrbsL.live (R.PRBS_BITS_LO (lanePage 3)) + 10)
      (maxOf 64))).countBy (R.PRBS_ERR (lanePage 3)) (if wPrbsL.rd (R.PRBS_CHK_pattern (lanePage 3)) = 6 then 1 + 8
      * 0 else 1)).rd (R.PRBS_CHK_err_thr (lanePage 3)) <
      ({ ((wPrbsL.putLive (R.PRBS_BITS_LO (lanePage 3)) (min (wPrbsL.live (R.PRBS_BITS_LO (lanePage 3)) + 10) (maxOf 64))).countBy (R.PRBS_ERR (lanePage 3)) (if wPrbsL.rd (R.PRBS_CHK_pattern (lanePage 3)) = 6 then 1 + 8 * 0 else 1)).prbsOf 3 with winBits := (((wPrbsL.putLive (R.PRBS_BITS_LO (lanePage 3)) (min (wPrbsL.live (R.PRBS_BITS_LO (lanePage 3)) + 10) (maxOf 64))).countBy (R.PRBS_ERR (lanePage 3)) (if wPrbsL.rd (R.PRBS_CHK_pattern (lanePage 3)) = 6 then 1 + 8 * 0 else 1)).prbsOf 3).winBits + 10, winErrs := (((wPrbsL.putLive (R.PRBS_BITS_LO (lanePage 3)) (min (wPrbsL.live (R.PRBS_BITS_LO (lanePage 3)) + 10) (maxOf 64))).countBy (R.PRBS_ERR (lanePage 3)) (if wPrbsL.rd (R.PRBS_CHK_pattern (lanePage 3)) = 6 then 1 + 8 * 0 else 1)).prbsOf 3).winErrs + (if wPrbsL.rd (R.PRBS_CHK_pattern (lanePage 3)) = 6 then 1 + 8 * 0 else 1) }).winErrs
      &&
      !({ ((wPrbsL.putLive (R.PRBS_BITS_LO (lanePage 3)) (min (wPrbsL.live (R.PRBS_BITS_LO (lanePage 3)) + 10) (maxOf 64))).countBy (R.PRBS_ERR (lanePage 3)) (if wPrbsL.rd (R.PRBS_CHK_pattern (lanePage 3)) = 6 then 1 + 8 * 0 else 1)).prbsOf 3 with winBits := (((wPrbsL.putLive (R.PRBS_BITS_LO (lanePage 3)) (min (wPrbsL.live (R.PRBS_BITS_LO (lanePage 3)) + 10) (maxOf 64))).countBy (R.PRBS_ERR (lanePage 3)) (if wPrbsL.rd (R.PRBS_CHK_pattern (lanePage 3)) = 6 then 1 + 8 * 0 else 1)).prbsOf 3).winBits + 10, winErrs := (((wPrbsL.putLive (R.PRBS_BITS_LO (lanePage 3)) (min (wPrbsL.live (R.PRBS_BITS_LO (lanePage 3)) + 10) (maxOf 64))).countBy (R.PRBS_ERR (lanePage 3)) (if wPrbsL.rd (R.PRBS_CHK_pattern (lanePage 3)) = 6 then 1 + 8 * 0 else 1)).prbsOf 3).winErrs + (if wPrbsL.rd (R.PRBS_CHK_pattern (lanePage 3)) = 6 then 1 + 8 * 0 else 1) }).fired
      then (((wPrbsL.putLive (R.PRBS_BITS_LO (lanePage 3)) (min (wPrbsL.live (R.PRBS_BITS_LO (lanePage 3)) + 10)
      (maxOf 64))).countBy (R.PRBS_ERR (lanePage 3)) (if wPrbsL.rd (R.PRBS_CHK_pattern (lanePage 3)) = 6 then 1 + 8
      * 0 else 1)).putPrbs 3
      { ({ ((wPrbsL.putLive (R.PRBS_BITS_LO (lanePage 3)) (min (wPrbsL.live (R.PRBS_BITS_LO (lanePage 3)) + 10) (maxOf 64))).countBy (R.PRBS_ERR (lanePage 3)) (if wPrbsL.rd (R.PRBS_CHK_pattern (lanePage 3)) = 6 then 1 + 8 * 0 else 1)).prbsOf 3 with winBits := (((wPrbsL.putLive (R.PRBS_BITS_LO (lanePage 3)) (min (wPrbsL.live (R.PRBS_BITS_LO (lanePage 3)) + 10) (maxOf 64))).countBy (R.PRBS_ERR (lanePage 3)) (if wPrbsL.rd (R.PRBS_CHK_pattern (lanePage 3)) = 6 then 1 + 8 * 0 else 1)).prbsOf 3).winBits + 10, winErrs := (((wPrbsL.putLive (R.PRBS_BITS_LO (lanePage 3)) (min (wPrbsL.live (R.PRBS_BITS_LO (lanePage 3)) + 10) (maxOf 64))).countBy (R.PRBS_ERR (lanePage 3)) (if wPrbsL.rd (R.PRBS_CHK_pattern (lanePage 3)) = 6 then 1 + 8 * 0 else 1)).prbsOf 3).winErrs + (if wPrbsL.rd (R.PRBS_CHK_pattern (lanePage 3)) = 6 then 1 + 8 * 0 else 1) }) with fired := true }).raise
      (16 * laneCluster 3 + 6) else ((wPrbsL.putLive (R.PRBS_BITS_LO (lanePage 3)) (min (wPrbsL.live (R.PRBS_BITS_LO
      (lanePage 3)) + 10) (maxOf 64))).countBy (R.PRBS_ERR (lanePage 3)) (if wPrbsL.rd (R.PRBS_CHK_pattern (lanePage
      3)) = 6 then 1 + 8 * 0 else 1)).putPrbs 3
      ({ ((wPrbsL.putLive (R.PRBS_BITS_LO (lanePage 3)) (min (wPrbsL.live (R.PRBS_BITS_LO (lanePage 3)) + 10) (maxOf 64))).countBy (R.PRBS_ERR (lanePage 3)) (if wPrbsL.rd (R.PRBS_CHK_pattern (lanePage 3)) = 6 then 1 + 8 * 0 else 1)).prbsOf 3 with winBits := (((wPrbsL.putLive (R.PRBS_BITS_LO (lanePage 3)) (min (wPrbsL.live (R.PRBS_BITS_LO (lanePage 3)) + 10) (maxOf 64))).countBy (R.PRBS_ERR (lanePage 3)) (if wPrbsL.rd (R.PRBS_CHK_pattern (lanePage 3)) = 6 then 1 + 8 * 0 else 1)).prbsOf 3).winBits + 10, winErrs := (((wPrbsL.putLive (R.PRBS_BITS_LO (lanePage 3)) (min (wPrbsL.live (R.PRBS_BITS_LO (lanePage 3)) + 10) (maxOf 64))).countBy (R.PRBS_ERR (lanePage 3)) (if wPrbsL.rd (R.PRBS_CHK_pattern (lanePage 3)) = 6 then 1 + 8 * 0 else 1)).prbsOf 3).winErrs + (if wPrbsL.rd (R.PRBS_CHK_pattern (lanePage 3)) = 6 then 1 + 8 * 0 else 1) })))
      = (if ((wPrbsL.putLive (R.PRBS_BITS_LO (lanePage 3)) (min (wPrbsL.live (R.PRBS_BITS_LO (lanePage 3)) + 10)
      (maxOf 64))).countBy (R.PRBS_ERR (lanePage 3)) (if wPrbsL.rd (R.PRBS_CHK_pattern (lanePage 3)) = 6 then 1 + 8
      * 0 else 1)).rd (R.PRBS_CHK_err_thr (lanePage 3)) <
      ({ ((wPrbsL.putLive (R.PRBS_BITS_LO (lanePage 3)) (min (wPrbsL.live (R.PRBS_BITS_LO (lanePage 3)) + 10) (maxOf 64))).countBy (R.PRBS_ERR (lanePage 3)) (if wPrbsL.rd (R.PRBS_CHK_pattern (lanePage 3)) = 6 then 1 + 8 * 0 else 1)).prbsOf 3 with winBits := (((wPrbsL.putLive (R.PRBS_BITS_LO (lanePage 3)) (min (wPrbsL.live (R.PRBS_BITS_LO (lanePage 3)) + 10) (maxOf 64))).countBy (R.PRBS_ERR (lanePage 3)) (if wPrbsL.rd (R.PRBS_CHK_pattern (lanePage 3)) = 6 then 1 + 8 * 0 else 1)).prbsOf 3).winBits + 10, winErrs := (((wPrbsL.putLive (R.PRBS_BITS_LO (lanePage 3)) (min (wPrbsL.live (R.PRBS_BITS_LO (lanePage 3)) + 10) (maxOf 64))).countBy (R.PRBS_ERR (lanePage 3)) (if wPrbsL.rd (R.PRBS_CHK_pattern (lanePage 3)) = 6 then 1 + 8 * 0 else 1)).prbsOf 3).winErrs + (if wPrbsL.rd (R.PRBS_CHK_pattern (lanePage 3)) = 6 then 1 + 8 * 0 else 1) }).winErrs
      &&
      !({ ((wPrbsL.putLive (R.PRBS_BITS_LO (lanePage 3)) (min (wPrbsL.live (R.PRBS_BITS_LO (lanePage 3)) + 10) (maxOf 64))).countBy (R.PRBS_ERR (lanePage 3)) (if wPrbsL.rd (R.PRBS_CHK_pattern (lanePage 3)) = 6 then 1 + 8 * 0 else 1)).prbsOf 3 with winBits := (((wPrbsL.putLive (R.PRBS_BITS_LO (lanePage 3)) (min (wPrbsL.live (R.PRBS_BITS_LO (lanePage 3)) + 10) (maxOf 64))).countBy (R.PRBS_ERR (lanePage 3)) (if wPrbsL.rd (R.PRBS_CHK_pattern (lanePage 3)) = 6 then 1 + 8 * 0 else 1)).prbsOf 3).winBits + 10, winErrs := (((wPrbsL.putLive (R.PRBS_BITS_LO (lanePage 3)) (min (wPrbsL.live (R.PRBS_BITS_LO (lanePage 3)) + 10) (maxOf 64))).countBy (R.PRBS_ERR (lanePage 3)) (if wPrbsL.rd (R.PRBS_CHK_pattern (lanePage 3)) = 6 then 1 + 8 * 0 else 1)).prbsOf 3).winErrs + (if wPrbsL.rd (R.PRBS_CHK_pattern (lanePage 3)) = 6 then 1 + 8 * 0 else 1) }).fired
      then (((wPrbsL.putLive (R.PRBS_BITS_LO (lanePage 3)) (min (wPrbsL.live (R.PRBS_BITS_LO (lanePage 3)) + 10)
      (maxOf 64))).countBy (R.PRBS_ERR (lanePage 3)) (if wPrbsL.rd (R.PRBS_CHK_pattern (lanePage 3)) = 6 then 1 + 8
      * 0 else 1)).putPrbs 3
      { ({ ((wPrbsL.putLive (R.PRBS_BITS_LO (lanePage 3)) (min (wPrbsL.live (R.PRBS_BITS_LO (lanePage 3)) + 10) (maxOf 64))).countBy (R.PRBS_ERR (lanePage 3)) (if wPrbsL.rd (R.PRBS_CHK_pattern (lanePage 3)) = 6 then 1 + 8 * 0 else 1)).prbsOf 3 with winBits := (((wPrbsL.putLive (R.PRBS_BITS_LO (lanePage 3)) (min (wPrbsL.live (R.PRBS_BITS_LO (lanePage 3)) + 10) (maxOf 64))).countBy (R.PRBS_ERR (lanePage 3)) (if wPrbsL.rd (R.PRBS_CHK_pattern (lanePage 3)) = 6 then 1 + 8 * 0 else 1)).prbsOf 3).winBits + 10, winErrs := (((wPrbsL.putLive (R.PRBS_BITS_LO (lanePage 3)) (min (wPrbsL.live (R.PRBS_BITS_LO (lanePage 3)) + 10) (maxOf 64))).countBy (R.PRBS_ERR (lanePage 3)) (if wPrbsL.rd (R.PRBS_CHK_pattern (lanePage 3)) = 6 then 1 + 8 * 0 else 1)).prbsOf 3).winErrs + (if wPrbsL.rd (R.PRBS_CHK_pattern (lanePage 3)) = 6 then 1 + 8 * 0 else 1) }) with fired := true }).raise
      (16 * laneCluster 3 + 6) else ((wPrbsL.putLive (R.PRBS_BITS_LO (lanePage 3)) (min (wPrbsL.live (R.PRBS_BITS_LO
      (lanePage 3)) + 10) (maxOf 64))).countBy (R.PRBS_ERR (lanePage 3)) (if wPrbsL.rd (R.PRBS_CHK_pattern (lanePage
      3)) = 6 then 1 + 8 * 0 else 1)).putPrbs 3
      ({ ((wPrbsL.putLive (R.PRBS_BITS_LO (lanePage 3)) (min (wPrbsL.live (R.PRBS_BITS_LO (lanePage 3)) + 10) (maxOf 64))).countBy (R.PRBS_ERR (lanePage 3)) (if wPrbsL.rd (R.PRBS_CHK_pattern (lanePage 3)) = 6 then 1 + 8 * 0 else 1)).prbsOf 3 with winBits := (((wPrbsL.putLive (R.PRBS_BITS_LO (lanePage 3)) (min (wPrbsL.live (R.PRBS_BITS_LO (lanePage 3)) + 10) (maxOf 64))).countBy (R.PRBS_ERR (lanePage 3)) (if wPrbsL.rd (R.PRBS_CHK_pattern (lanePage 3)) = 6 then 1 + 8 * 0 else 1)).prbsOf 3).winBits + 10, winErrs := (((wPrbsL.putLive (R.PRBS_BITS_LO (lanePage 3)) (min (wPrbsL.live (R.PRBS_BITS_LO (lanePage 3)) + 10) (maxOf 64))).countBy (R.PRBS_ERR (lanePage 3)) (if wPrbsL.rd (R.PRBS_CHK_pattern (lanePage 3)) = 6 then 1 + 8 * 0 else 1)).prbsOf 3).winErrs + (if wPrbsL.rd (R.PRBS_CHK_pattern (lanePage 3)) = 6 then 1 + 8 * 0 else 1) }))
      ∧ lanePresent wPrbsL 3 = true ∧ prbsLocked wPrbsL 3 = true ∧ inWindow wPrbsL 3 10 = true) ∧
    (((wPrbsL.putLive (R.PRBS_BITS_LO (lanePage 3)) (min (wPrbsL.live (R.PRBS_BITS_LO (lanePage 3)) + (2 ^ 30))
      (maxOf 64))).countBy (R.PRBS_ERR (lanePage 3)) (if wPrbsL.rd (R.PRBS_CHK_pattern (lanePage 3)) = 6 then 1 + 8
      * 0 else 1)) = (wPrbsL.putLive (R.PRBS_BITS_LO (lanePage 3)) (min (wPrbsL.live (R.PRBS_BITS_LO (lanePage 3)) +
      (2 ^ 30)) (maxOf 64))).countBy (R.PRBS_ERR (lanePage 3)) (if wPrbsL.rd (R.PRBS_CHK_pattern (lanePage 3)) = 6
      then 1 + 8 * 0 else 1) ∧
      ({ ((wPrbsL.putLive (R.PRBS_BITS_LO (lanePage 3)) (min (wPrbsL.live (R.PRBS_BITS_LO (lanePage 3)) + (2 ^ 30)) (maxOf 64))).countBy (R.PRBS_ERR (lanePage 3)) (if wPrbsL.rd (R.PRBS_CHK_pattern (lanePage 3)) = 6 then 1 + 8 * 0 else 1)).prbsOf 3 with winBits := (((wPrbsL.putLive (R.PRBS_BITS_LO (lanePage 3)) (min (wPrbsL.live (R.PRBS_BITS_LO (lanePage 3)) + (2 ^ 30)) (maxOf 64))).countBy (R.PRBS_ERR (lanePage 3)) (if wPrbsL.rd (R.PRBS_CHK_pattern (lanePage 3)) = 6 then 1 + 8 * 0 else 1)).prbsOf 3).winBits + (2 ^ 30), winErrs := (((wPrbsL.putLive (R.PRBS_BITS_LO (lanePage 3)) (min (wPrbsL.live (R.PRBS_BITS_LO (lanePage 3)) + (2 ^ 30)) (maxOf 64))).countBy (R.PRBS_ERR (lanePage 3)) (if wPrbsL.rd (R.PRBS_CHK_pattern (lanePage 3)) = 6 then 1 + 8 * 0 else 1)).prbsOf 3).winErrs + (if wPrbsL.rd (R.PRBS_CHK_pattern (lanePage 3)) = 6 then 1 + 8 * 0 else 1) })
      =
      { ((wPrbsL.putLive (R.PRBS_BITS_LO (lanePage 3)) (min (wPrbsL.live (R.PRBS_BITS_LO (lanePage 3)) + (2 ^ 30)) (maxOf 64))).countBy (R.PRBS_ERR (lanePage 3)) (if wPrbsL.rd (R.PRBS_CHK_pattern (lanePage 3)) = 6 then 1 + 8 * 0 else 1)).prbsOf 3 with winBits := (((wPrbsL.putLive (R.PRBS_BITS_LO (lanePage 3)) (min (wPrbsL.live (R.PRBS_BITS_LO (lanePage 3)) + (2 ^ 30)) (maxOf 64))).countBy (R.PRBS_ERR (lanePage 3)) (if wPrbsL.rd (R.PRBS_CHK_pattern (lanePage 3)) = 6 then 1 + 8 * 0 else 1)).prbsOf 3).winBits + (2 ^ 30), winErrs := (((wPrbsL.putLive (R.PRBS_BITS_LO (lanePage 3)) (min (wPrbsL.live (R.PRBS_BITS_LO (lanePage 3)) + (2 ^ 30)) (maxOf 64))).countBy (R.PRBS_ERR (lanePage 3)) (if wPrbsL.rd (R.PRBS_CHK_pattern (lanePage 3)) = 6 then 1 + 8 * 0 else 1)).prbsOf 3).winErrs + (if wPrbsL.rd (R.PRBS_CHK_pattern (lanePage 3)) = 6 then 1 + 8 * 0 else 1) }
      ∧ ((if ((wPrbsL.putLive (R.PRBS_BITS_LO (lanePage 3)) (min (wPrbsL.live (R.PRBS_BITS_LO (lanePage 3)) + (2 ^
      30)) (maxOf 64))).countBy (R.PRBS_ERR (lanePage 3)) (if wPrbsL.rd (R.PRBS_CHK_pattern (lanePage 3)) = 6 then 1
      + 8 * 0 else 1)).rd (R.PRBS_CHK_err_thr (lanePage 3)) <
      ({ ((wPrbsL.putLive (R.PRBS_BITS_LO (lanePage 3)) (min (wPrbsL.live (R.PRBS_BITS_LO (lanePage 3)) + (2 ^ 30)) (maxOf 64))).countBy (R.PRBS_ERR (lanePage 3)) (if wPrbsL.rd (R.PRBS_CHK_pattern (lanePage 3)) = 6 then 1 + 8 * 0 else 1)).prbsOf 3 with winBits := (((wPrbsL.putLive (R.PRBS_BITS_LO (lanePage 3)) (min (wPrbsL.live (R.PRBS_BITS_LO (lanePage 3)) + (2 ^ 30)) (maxOf 64))).countBy (R.PRBS_ERR (lanePage 3)) (if wPrbsL.rd (R.PRBS_CHK_pattern (lanePage 3)) = 6 then 1 + 8 * 0 else 1)).prbsOf 3).winBits + (2 ^ 30), winErrs := (((wPrbsL.putLive (R.PRBS_BITS_LO (lanePage 3)) (min (wPrbsL.live (R.PRBS_BITS_LO (lanePage 3)) + (2 ^ 30)) (maxOf 64))).countBy (R.PRBS_ERR (lanePage 3)) (if wPrbsL.rd (R.PRBS_CHK_pattern (lanePage 3)) = 6 then 1 + 8 * 0 else 1)).prbsOf 3).winErrs + (if wPrbsL.rd (R.PRBS_CHK_pattern (lanePage 3)) = 6 then 1 + 8 * 0 else 1) }).winErrs
      &&
      !({ ((wPrbsL.putLive (R.PRBS_BITS_LO (lanePage 3)) (min (wPrbsL.live (R.PRBS_BITS_LO (lanePage 3)) + (2 ^ 30)) (maxOf 64))).countBy (R.PRBS_ERR (lanePage 3)) (if wPrbsL.rd (R.PRBS_CHK_pattern (lanePage 3)) = 6 then 1 + 8 * 0 else 1)).prbsOf 3 with winBits := (((wPrbsL.putLive (R.PRBS_BITS_LO (lanePage 3)) (min (wPrbsL.live (R.PRBS_BITS_LO (lanePage 3)) + (2 ^ 30)) (maxOf 64))).countBy (R.PRBS_ERR (lanePage 3)) (if wPrbsL.rd (R.PRBS_CHK_pattern (lanePage 3)) = 6 then 1 + 8 * 0 else 1)).prbsOf 3).winBits + (2 ^ 30), winErrs := (((wPrbsL.putLive (R.PRBS_BITS_LO (lanePage 3)) (min (wPrbsL.live (R.PRBS_BITS_LO (lanePage 3)) + (2 ^ 30)) (maxOf 64))).countBy (R.PRBS_ERR (lanePage 3)) (if wPrbsL.rd (R.PRBS_CHK_pattern (lanePage 3)) = 6 then 1 + 8 * 0 else 1)).prbsOf 3).winErrs + (if wPrbsL.rd (R.PRBS_CHK_pattern (lanePage 3)) = 6 then 1 + 8 * 0 else 1) }).fired
      then (((wPrbsL.putLive (R.PRBS_BITS_LO (lanePage 3)) (min (wPrbsL.live (R.PRBS_BITS_LO (lanePage 3)) + (2 ^
      30)) (maxOf 64))).countBy (R.PRBS_ERR (lanePage 3)) (if wPrbsL.rd (R.PRBS_CHK_pattern (lanePage 3)) = 6 then 1
      + 8 * 0 else 1)).putPrbs 3
      { ({ ((wPrbsL.putLive (R.PRBS_BITS_LO (lanePage 3)) (min (wPrbsL.live (R.PRBS_BITS_LO (lanePage 3)) + (2 ^ 30)) (maxOf 64))).countBy (R.PRBS_ERR (lanePage 3)) (if wPrbsL.rd (R.PRBS_CHK_pattern (lanePage 3)) = 6 then 1 + 8 * 0 else 1)).prbsOf 3 with winBits := (((wPrbsL.putLive (R.PRBS_BITS_LO (lanePage 3)) (min (wPrbsL.live (R.PRBS_BITS_LO (lanePage 3)) + (2 ^ 30)) (maxOf 64))).countBy (R.PRBS_ERR (lanePage 3)) (if wPrbsL.rd (R.PRBS_CHK_pattern (lanePage 3)) = 6 then 1 + 8 * 0 else 1)).prbsOf 3).winBits + (2 ^ 30), winErrs := (((wPrbsL.putLive (R.PRBS_BITS_LO (lanePage 3)) (min (wPrbsL.live (R.PRBS_BITS_LO (lanePage 3)) + (2 ^ 30)) (maxOf 64))).countBy (R.PRBS_ERR (lanePage 3)) (if wPrbsL.rd (R.PRBS_CHK_pattern (lanePage 3)) = 6 then 1 + 8 * 0 else 1)).prbsOf 3).winErrs + (if wPrbsL.rd (R.PRBS_CHK_pattern (lanePage 3)) = 6 then 1 + 8 * 0 else 1) }) with fired := true }).raise
      (16 * laneCluster 3 + 6) else ((wPrbsL.putLive (R.PRBS_BITS_LO (lanePage 3)) (min (wPrbsL.live (R.PRBS_BITS_LO
      (lanePage 3)) + (2 ^ 30)) (maxOf 64))).countBy (R.PRBS_ERR (lanePage 3)) (if wPrbsL.rd (R.PRBS_CHK_pattern
      (lanePage 3)) = 6 then 1 + 8 * 0 else 1)).putPrbs 3
      ({ ((wPrbsL.putLive (R.PRBS_BITS_LO (lanePage 3)) (min (wPrbsL.live (R.PRBS_BITS_LO (lanePage 3)) + (2 ^ 30)) (maxOf 64))).countBy (R.PRBS_ERR (lanePage 3)) (if wPrbsL.rd (R.PRBS_CHK_pattern (lanePage 3)) = 6 then 1 + 8 * 0 else 1)).prbsOf 3 with winBits := (((wPrbsL.putLive (R.PRBS_BITS_LO (lanePage 3)) (min (wPrbsL.live (R.PRBS_BITS_LO (lanePage 3)) + (2 ^ 30)) (maxOf 64))).countBy (R.PRBS_ERR (lanePage 3)) (if wPrbsL.rd (R.PRBS_CHK_pattern (lanePage 3)) = 6 then 1 + 8 * 0 else 1)).prbsOf 3).winBits + (2 ^ 30), winErrs := (((wPrbsL.putLive (R.PRBS_BITS_LO (lanePage 3)) (min (wPrbsL.live (R.PRBS_BITS_LO (lanePage 3)) + (2 ^ 30)) (maxOf 64))).countBy (R.PRBS_ERR (lanePage 3)) (if wPrbsL.rd (R.PRBS_CHK_pattern (lanePage 3)) = 6 then 1 + 8 * 0 else 1)).prbsOf 3).winErrs + (if wPrbsL.rd (R.PRBS_CHK_pattern (lanePage 3)) = 6 then 1 + 8 * 0 else 1) })))
      = (if ((wPrbsL.putLive (R.PRBS_BITS_LO (lanePage 3)) (min (wPrbsL.live (R.PRBS_BITS_LO (lanePage 3)) + (2 ^
      30)) (maxOf 64))).countBy (R.PRBS_ERR (lanePage 3)) (if wPrbsL.rd (R.PRBS_CHK_pattern (lanePage 3)) = 6 then 1
      + 8 * 0 else 1)).rd (R.PRBS_CHK_err_thr (lanePage 3)) <
      ({ ((wPrbsL.putLive (R.PRBS_BITS_LO (lanePage 3)) (min (wPrbsL.live (R.PRBS_BITS_LO (lanePage 3)) + (2 ^ 30)) (maxOf 64))).countBy (R.PRBS_ERR (lanePage 3)) (if wPrbsL.rd (R.PRBS_CHK_pattern (lanePage 3)) = 6 then 1 + 8 * 0 else 1)).prbsOf 3 with winBits := (((wPrbsL.putLive (R.PRBS_BITS_LO (lanePage 3)) (min (wPrbsL.live (R.PRBS_BITS_LO (lanePage 3)) + (2 ^ 30)) (maxOf 64))).countBy (R.PRBS_ERR (lanePage 3)) (if wPrbsL.rd (R.PRBS_CHK_pattern (lanePage 3)) = 6 then 1 + 8 * 0 else 1)).prbsOf 3).winBits + (2 ^ 30), winErrs := (((wPrbsL.putLive (R.PRBS_BITS_LO (lanePage 3)) (min (wPrbsL.live (R.PRBS_BITS_LO (lanePage 3)) + (2 ^ 30)) (maxOf 64))).countBy (R.PRBS_ERR (lanePage 3)) (if wPrbsL.rd (R.PRBS_CHK_pattern (lanePage 3)) = 6 then 1 + 8 * 0 else 1)).prbsOf 3).winErrs + (if wPrbsL.rd (R.PRBS_CHK_pattern (lanePage 3)) = 6 then 1 + 8 * 0 else 1) }).winErrs
      &&
      !({ ((wPrbsL.putLive (R.PRBS_BITS_LO (lanePage 3)) (min (wPrbsL.live (R.PRBS_BITS_LO (lanePage 3)) + (2 ^ 30)) (maxOf 64))).countBy (R.PRBS_ERR (lanePage 3)) (if wPrbsL.rd (R.PRBS_CHK_pattern (lanePage 3)) = 6 then 1 + 8 * 0 else 1)).prbsOf 3 with winBits := (((wPrbsL.putLive (R.PRBS_BITS_LO (lanePage 3)) (min (wPrbsL.live (R.PRBS_BITS_LO (lanePage 3)) + (2 ^ 30)) (maxOf 64))).countBy (R.PRBS_ERR (lanePage 3)) (if wPrbsL.rd (R.PRBS_CHK_pattern (lanePage 3)) = 6 then 1 + 8 * 0 else 1)).prbsOf 3).winBits + (2 ^ 30), winErrs := (((wPrbsL.putLive (R.PRBS_BITS_LO (lanePage 3)) (min (wPrbsL.live (R.PRBS_BITS_LO (lanePage 3)) + (2 ^ 30)) (maxOf 64))).countBy (R.PRBS_ERR (lanePage 3)) (if wPrbsL.rd (R.PRBS_CHK_pattern (lanePage 3)) = 6 then 1 + 8 * 0 else 1)).prbsOf 3).winErrs + (if wPrbsL.rd (R.PRBS_CHK_pattern (lanePage 3)) = 6 then 1 + 8 * 0 else 1) }).fired
      then (((wPrbsL.putLive (R.PRBS_BITS_LO (lanePage 3)) (min (wPrbsL.live (R.PRBS_BITS_LO (lanePage 3)) + (2 ^
      30)) (maxOf 64))).countBy (R.PRBS_ERR (lanePage 3)) (if wPrbsL.rd (R.PRBS_CHK_pattern (lanePage 3)) = 6 then 1
      + 8 * 0 else 1)).putPrbs 3
      { ({ ((wPrbsL.putLive (R.PRBS_BITS_LO (lanePage 3)) (min (wPrbsL.live (R.PRBS_BITS_LO (lanePage 3)) + (2 ^ 30)) (maxOf 64))).countBy (R.PRBS_ERR (lanePage 3)) (if wPrbsL.rd (R.PRBS_CHK_pattern (lanePage 3)) = 6 then 1 + 8 * 0 else 1)).prbsOf 3 with winBits := (((wPrbsL.putLive (R.PRBS_BITS_LO (lanePage 3)) (min (wPrbsL.live (R.PRBS_BITS_LO (lanePage 3)) + (2 ^ 30)) (maxOf 64))).countBy (R.PRBS_ERR (lanePage 3)) (if wPrbsL.rd (R.PRBS_CHK_pattern (lanePage 3)) = 6 then 1 + 8 * 0 else 1)).prbsOf 3).winBits + (2 ^ 30), winErrs := (((wPrbsL.putLive (R.PRBS_BITS_LO (lanePage 3)) (min (wPrbsL.live (R.PRBS_BITS_LO (lanePage 3)) + (2 ^ 30)) (maxOf 64))).countBy (R.PRBS_ERR (lanePage 3)) (if wPrbsL.rd (R.PRBS_CHK_pattern (lanePage 3)) = 6 then 1 + 8 * 0 else 1)).prbsOf 3).winErrs + (if wPrbsL.rd (R.PRBS_CHK_pattern (lanePage 3)) = 6 then 1 + 8 * 0 else 1) }) with fired := true }).raise
      (16 * laneCluster 3 + 6) else ((wPrbsL.putLive (R.PRBS_BITS_LO (lanePage 3)) (min (wPrbsL.live (R.PRBS_BITS_LO
      (lanePage 3)) + (2 ^ 30)) (maxOf 64))).countBy (R.PRBS_ERR (lanePage 3)) (if wPrbsL.rd (R.PRBS_CHK_pattern
      (lanePage 3)) = 6 then 1 + 8 * 0 else 1)).putPrbs 3
      ({ ((wPrbsL.putLive (R.PRBS_BITS_LO (lanePage 3)) (min (wPrbsL.live (R.PRBS_BITS_LO (lanePage 3)) + (2 ^ 30)) (maxOf 64))).countBy (R.PRBS_ERR (lanePage 3)) (if wPrbsL.rd (R.PRBS_CHK_pattern (lanePage 3)) = 6 then 1 + 8 * 0 else 1)).prbsOf 3 with winBits := (((wPrbsL.putLive (R.PRBS_BITS_LO (lanePage 3)) (min (wPrbsL.live (R.PRBS_BITS_LO (lanePage 3)) + (2 ^ 30)) (maxOf 64))).countBy (R.PRBS_ERR (lanePage 3)) (if wPrbsL.rd (R.PRBS_CHK_pattern (lanePage 3)) = 6 then 1 + 8 * 0 else 1)).prbsOf 3).winBits + (2 ^ 30), winErrs := (((wPrbsL.putLive (R.PRBS_BITS_LO (lanePage 3)) (min (wPrbsL.live (R.PRBS_BITS_LO (lanePage 3)) + (2 ^ 30)) (maxOf 64))).countBy (R.PRBS_ERR (lanePage 3)) (if wPrbsL.rd (R.PRBS_CHK_pattern (lanePage 3)) = 6 then 1 + 8 * 0 else 1)).prbsOf 3).winErrs + (if wPrbsL.rd (R.PRBS_CHK_pattern (lanePage 3)) = 6 then 1 + 8 * 0 else 1) }))
      ∧ lanePresent wPrbsL 3 = true ∧ prbsLocked wPrbsL 3 = true ∧ (wPrbsL.prbsOf 3).winBits + (2 ^ 30) = prbsWindow
      wPrbsL 3) ∧
    (pageOpen wRun 7 = true ∧ laneSelectable wRun 3 = true) ∧
    (pageOpen wRun 7 = true ∧ laneSelectable wRun 200 = false) ∧
    (pageOpen wRun 7 = true ∧ laneSelectable wRun 3 = true) ∧
    (pageOpen wRun 7 = true ∧ laneSelectable wRun 200 = false) := by
  refine ⟨?_, ?_, ?_, ?_, ?_, ?_, ?_, ?_, ?_, ?_, ?_, ?_, ?_, ?_, ?_, ?_, ?_, ?_⟩ <;> decide +kernel

/-- The hypotheses of JtagInstructions can be met. -/
theorem witness_jtagInstructions :
    ((({ wRun with dev := { wRun.dev with jtag := 0x00 } } : State)).dev.phase ≠ .off ∧
      (({ wRun with dev := { wRun.dev with jtag := 0x00 } } : State)).dev.phase ≠ .test ∧
      (({ wRun with dev := { wRun.dev with jtag := 0x00 } } : State)).dev.testEntry = 0 ∧ startFailed
      (({ wRun with dev := { wRun.dev with jtag := 0x00 } } : State)) = false) ∧
    (((({ wTest with dev := { wTest.dev with jtag := 0x00 } } : State)).dev.phase = .off ||
      (({ wTest with dev := { wTest.dev with jtag := 0x00 } } : State)).dev.phase = .test ||
      (({ wTest with dev := { wTest.dev with jtag := 0x00 } } : State)).dev.testEntry ≠ 0 || startFailed
      (({ wTest with dev := { wTest.dev with jtag := 0x00 } } : State))) = true) ∧
    ((({ wRun with dev := { wRun.dev with jtag := 0x03 } } : State)).dev.phase ≠ .off ∧
      (({ wRun with dev := { wRun.dev with jtag := 0x03 } } : State)).dev.phase ≠ .test ∧
      (({ wRun with dev := { wRun.dev with jtag := 0x03 } } : State)).dev.testEntry = 0 ∧ startFailed
      (({ wRun with dev := { wRun.dev with jtag := 0x03 } } : State)) = false) ∧
    (((({ wTest with dev := { wTest.dev with jtag := 0x03 } } : State)).dev.phase = .off ||
      (({ wTest with dev := { wTest.dev with jtag := 0x03 } } : State)).dev.phase = .test ||
      (({ wTest with dev := { wTest.dev with jtag := 0x03 } } : State)).dev.testEntry ≠ 0 || startFailed
      (({ wTest with dev := { wTest.dev with jtag := 0x03 } } : State))) = true) ∧
    ((({ wRun with dev := { wRun.dev with jtag := 0x04 } } : State)).dev.phase ≠ .off ∧
      (({ wRun with dev := { wRun.dev with jtag := 0x04 } } : State)).dev.phase ≠ .test ∧
      (({ wRun with dev := { wRun.dev with jtag := 0x04 } } : State)).dev.testEntry = 0 ∧ startFailed
      (({ wRun with dev := { wRun.dev with jtag := 0x04 } } : State)) = false) ∧
    (((({ wTest with dev := { wTest.dev with jtag := 0x04 } } : State)).dev.phase = .off ||
      (({ wTest with dev := { wTest.dev with jtag := 0x04 } } : State)).dev.phase = .test ||
      (({ wTest with dev := { wTest.dev with jtag := 0x04 } } : State)).dev.testEntry ≠ 0 || startFailed
      (({ wTest with dev := { wTest.dev with jtag := 0x04 } } : State))) = true) ∧
    ((({ wRun with dev := { wRun.dev with jtag := 0x09 } } : State)).dev.phase ≠ .off ∧
      (({ wRun with dev := { wRun.dev with jtag := 0x09 } } : State)).dev.phase ≠ .test ∧
      (({ wRun with dev := { wRun.dev with jtag := 0x09 } } : State)).dev.testEntry = 0 ∧ startFailed
      (({ wRun with dev := { wRun.dev with jtag := 0x09 } } : State)) = false) ∧
    (((({ wTest with dev := { wTest.dev with jtag := 0x09 } } : State)).dev.phase = .off ||
      (({ wTest with dev := { wTest.dev with jtag := 0x09 } } : State)).dev.phase = .test ||
      (({ wTest with dev := { wTest.dev with jtag := 0x09 } } : State)).dev.testEntry ≠ 0 || startFailed
      (({ wTest with dev := { wTest.dev with jtag := 0x09 } } : State))) = true) ∧
    ((({ wRun with dev := { wRun.dev with jtag := 0x0A } } : State)).dev.phase ≠ .off ∧
      (({ wRun with dev := { wRun.dev with jtag := 0x0A } } : State)).dev.phase ≠ .test ∧
      (({ wRun with dev := { wRun.dev with jtag := 0x0A } } : State)).dev.testEntry = 0 ∧ startFailed
      (({ wRun with dev := { wRun.dev with jtag := 0x0A } } : State)) = false) ∧
    (((({ wTest with dev := { wTest.dev with jtag := 0x0A } } : State)).dev.phase = .off ||
      (({ wTest with dev := { wTest.dev with jtag := 0x0A } } : State)).dev.phase = .test ||
      (({ wTest with dev := { wTest.dev with jtag := 0x0A } } : State)).dev.testEntry ≠ 0 || startFailed
      (({ wTest with dev := { wTest.dev with jtag := 0x0A } } : State))) = true) ∧
    ((({ wRun with dev := { wRun.dev with jtag := 0x20 } } : State)).dev.phase ≠ .off ∧
      (({ wRun with dev := { wRun.dev with jtag := 0x20 } } : State)).dev.phase ≠ .test ∧
      (({ wRun with dev := { wRun.dev with jtag := 0x20 } } : State)).dev.testEntry = 0 ∧ startFailed
      (({ wRun with dev := { wRun.dev with jtag := 0x20 } } : State)) = false) ∧
    (((({ wTest with dev := { wTest.dev with jtag := 0x20 } } : State)).dev.phase = .off ||
      (({ wTest with dev := { wTest.dev with jtag := 0x20 } } : State)).dev.phase = .test ||
      (({ wTest with dev := { wTest.dev with jtag := 0x20 } } : State)).dev.testEntry ≠ 0 || startFailed
      (({ wTest with dev := { wTest.dev with jtag := 0x20 } } : State))) = true) := by
  refine ⟨?_, ?_, ?_, ?_, ?_, ?_, ?_, ?_, ?_, ?_, ?_, ?_⟩ <;> decide +kernel

/-- The hypotheses of SuppliesAndFences can be met. -/
theorem witness_suppliesAndFences :
    (0 < 4 ∧ 800 < (railLevels 0).1 ∧ 1000 < 2000 ∧ (wStartAt 5).on (R.SUP_STAT_warn 0) = false ∧ (wStartAt
      5).dev.phase ≠ .off ∧ ((slicesEnd 1 resLimit causeSupply (slicesEnd 0 resLimit causeSupply ((((wStartAt 5).wr
      (R.SUP_STAT_warn 0) 1).bump (R.SUP_CNT_cnt 0)).setInput (260 + 0) true))).dev.phase = .start && (slicesEnd 1
      resLimit causeSupply (slicesEnd 0 resLimit causeSupply ((((wStartAt 5).wr (R.SUP_STAT_warn 0) 1).bump
      (R.SUP_CNT_cnt 0)).setInput (260 + 0) true))).rd R.START_STAT_step = 5 && (slicesEnd 1 resLimit causeSupply
      (slicesEnd 0 resLimit causeSupply ((((wStartAt 5).wr (R.SUP_STAT_warn 0) 1).bump (R.SUP_CNT_cnt 0)).setInput
      (260 + 0) true))).bist.pauseFrom.isNone && anyWarn (slicesEnd 1 resLimit causeSupply (slicesEnd 0 resLimit
      causeSupply ((((wStartAt 5).wr (R.SUP_STAT_warn 0) 1).bump (R.SUP_CNT_cnt 0)).setInput (260 + 0) true)))) =
      true) ∧
    (0 < 4 ∧ 800 < (railLevels 0).1 ∧ 1000 < 2000 ∧ wRun.on (R.SUP_STAT_warn 0) = false ∧ wRun.dev.phase ≠ .off ∧
      ((slicesEnd 1 resLimit causeSupply (slicesEnd 0 resLimit causeSupply (((wRun.wr (R.SUP_STAT_warn 0) 1).bump
      (R.SUP_CNT_cnt 0)).setInput (260 + 0) true))).dev.phase = .start && (slicesEnd 1 resLimit causeSupply
      (slicesEnd 0 resLimit causeSupply (((wRun.wr (R.SUP_STAT_warn 0) 1).bump (R.SUP_CNT_cnt 0)).setInput (260 + 0)
      true))).rd R.START_STAT_step = 5 && (slicesEnd 1 resLimit causeSupply (slicesEnd 0 resLimit causeSupply
      (((wRun.wr (R.SUP_STAT_warn 0) 1).bump (R.SUP_CNT_cnt 0)).setInput (260 + 0) true))).bist.pauseFrom.isNone &&
      anyWarn (slicesEnd 1 resLimit causeSupply (slicesEnd 0 resLimit causeSupply (((wRun.wr (R.SUP_STAT_warn 0)
      1).bump (R.SUP_CNT_cnt 0)).setInput (260 + 0) true)))) = false) ∧
    (0 < 4 ∧ (!railWarns ⟨0, 850, 2000⟩ || wRun.on (R.SUP_STAT_warn 0) || wRun.dev.phase = .off) = true) ∧
    (0 < 4 ∧ (railLevels 0).1 + 10 < 821 ∧ 1000 < 2000 ∧ wWarn.on (R.SUP_STAT_warn 0) = true ∧ ((wWarn.wr
      (R.SUP_STAT_warn 0) 0).setInput (260 + 0) false).bist.pauseFrom = none) ∧
    (0 < 4 ∧ (railLevels 0).1 + 10 < 821 ∧ 1000 < 2000 ∧ wWarn2.on (R.SUP_STAT_warn 0) = true ∧ ((wWarn2.wr
      (R.SUP_STAT_warn 0) 0).setInput (260 + 0) false).bist.pauseFrom = some 0 ∧ anyWarn ((wWarn2.wr
      (R.SUP_STAT_warn 0) 0).setInput (260 + 0) false) = true) ∧
    (0 < 4 ∧ (railLevels 0).1 + 10 < 821 ∧ 1000 < 2000 ∧ wWarn1.on (R.SUP_STAT_warn 0) = true ∧ ((wWarn1.wr
      (R.SUP_STAT_warn 0) 0).setInput (260 + 0) false).bist.pauseFrom = some 0 ∧ anyWarn ((wWarn1.wr
      (R.SUP_STAT_warn 0) 0).setInput (260 + 0) false) = false) ∧
    (0 < 4 ∧ (railClears ⟨0, 820, 2000⟩ && wWarn.on (R.SUP_STAT_warn 0)) = false) ∧
    (wRun.dev.phase ≠ .off) ∧
    ((State.reset).dev.phase = .off) ∧
    (pageOpen wRun 0 = true ∧ ((if (((fenceStore 0 (1 % 8) wRun).wr R.FENCE_CMD_why 0).wr R.FENCE_CMD_refused 0).rd
      (R.FENCE_STAT_region (1 % 8)) = 0 || (((fenceStore 0 (1 % 8) wRun).wr R.FENCE_CMD_why 0).wr
      R.FENCE_CMD_refused 0).rd (R.FENCE_STAT_region (1 % 8)) = fcParent then (((fenceStore 0 (1 % 8) wRun).wr
      R.FENCE_CMD_why 0).wr R.FENCE_CMD_refused 0).wr (R.FENCE_STAT_region (1 % 8)) fcHost else (((fenceStore 0 (1 %
      8) wRun).wr R.FENCE_CMD_why 0).wr R.FENCE_CMD_refused 0))) = (if (((fenceStore 0 (1 % 8) wRun).wr
      R.FENCE_CMD_why 0).wr R.FENCE_CMD_refused 0).rd (R.FENCE_STAT_region (1 % 8)) = 0 || (((fenceStore 0 (1 % 8)
      wRun).wr R.FENCE_CMD_why 0).wr R.FENCE_CMD_refused 0).rd (R.FENCE_STAT_region (1 % 8)) = fcParent then
      (((fenceStore 0 (1 % 8) wRun).wr R.FENCE_CMD_why 0).wr R.FENCE_CMD_refused 0).wr (R.FENCE_STAT_region (1 % 8))
      fcHost else (((fenceStore 0 (1 % 8) wRun).wr R.FENCE_CMD_why 0).wr R.FENCE_CMD_refused 0)) ∧ fenceWhy
      (fenceStore 0 (1 % 8) wRun) 0 (1 % 8) = 0 ∧ 1 % 8 < 4) ∧
    (pageOpen wRun 0 = true ∧ ((if (((fenceStore 0 (4 % 8) wRun).wr R.FENCE_CMD_why 0).wr R.FENCE_CMD_refused 0).rd
      (R.FENCE_STAT_die (4 % 8 - 4)) = 0 || (((fenceStore 0 (4 % 8) wRun).wr R.FENCE_CMD_why 0).wr
      R.FENCE_CMD_refused 0).rd (R.FENCE_STAT_die (4 % 8 - 4)) = fcParent then (((fenceStore 0 (4 % 8) wRun).wr
      R.FENCE_CMD_why 0).wr R.FENCE_CMD_refused 0).wr (R.FENCE_STAT_die (4 % 8 - 4)) fcHost else (((fenceStore 0 (4
      % 8) wRun).wr R.FENCE_CMD_why 0).wr R.FENCE_CMD_refused 0))) = (if (((fenceStore 0 (4 % 8) wRun).wr
      R.FENCE_CMD_why 0).wr R.FENCE_CMD_refused 0).rd (R.FENCE_STAT_die (4 % 8 - 4)) = 0 || (((fenceStore 0 (4 % 8)
      wRun).wr R.FENCE_CMD_why 0).wr R.FENCE_CMD_refused 0).rd (R.FENCE_STAT_die (4 % 8 - 4)) = fcParent then
      (((fenceStore 0 (4 % 8) wRun).wr R.FENCE_CMD_why 0).wr R.FENCE_CMD_refused 0).wr (R.FENCE_STAT_die (4 % 8 -
      4)) fcHost else (((fenceStore 0 (4 % 8) wRun).wr R.FENCE_CMD_why 0).wr R.FENCE_CMD_refused 0)) ∧ (parentDie (4
      % 8 - 4) ((if (((fenceStore 0 (4 % 8) wRun).wr R.FENCE_CMD_why 0).wr R.FENCE_CMD_refused 0).rd
      (R.FENCE_STAT_die (4 % 8 - 4)) = 0 || (((fenceStore 0 (4 % 8) wRun).wr R.FENCE_CMD_why 0).wr
      R.FENCE_CMD_refused 0).rd (R.FENCE_STAT_die (4 % 8 - 4)) = fcParent then (((fenceStore 0 (4 % 8) wRun).wr
      R.FENCE_CMD_why 0).wr R.FENCE_CMD_refused 0).wr (R.FENCE_STAT_die (4 % 8 - 4)) fcHost else (((fenceStore 0 (4
      % 8) wRun).wr R.FENCE_CMD_why 0).wr R.FENCE_CMD_refused 0)))) = parentDie (4 % 8 - 4) ((if (((fenceStore 0 (4
      % 8) wRun).wr R.FENCE_CMD_why 0).wr R.FENCE_CMD_refused 0).rd (R.FENCE_STAT_die (4 % 8 - 4)) = 0 ||
      (((fenceStore 0 (4 % 8) wRun).wr R.FENCE_CMD_why 0).wr R.FENCE_CMD_refused 0).rd (R.FENCE_STAT_die (4 % 8 -
      4)) = fcParent then (((fenceStore 0 (4 % 8) wRun).wr R.FENCE_CMD_why 0).wr R.FENCE_CMD_refused 0).wr
      (R.FENCE_STAT_die (4 % 8 - 4)) fcHost else (((fenceStore 0 (4 % 8) wRun).wr R.FENCE_CMD_why 0).wr
      R.FENCE_CMD_refused 0))) ∧ fenceWhy (fenceStore 0 (4 % 8) wRun) 0 (4 % 8) = 0 ∧ 4 ≤ 4 % 8 ∧ 4 % 8 < 6) ∧
    (pageOpen wRun 0 = true ∧ (((List.range (diesOf ((if (((fenceStore 0 (6 % 8) wRun).wr R.FENCE_CMD_why 0).wr
      R.FENCE_CMD_refused 0).rd R.FENCE_STAT_pkg = 0 || (((fenceStore 0 (6 % 8) wRun).wr R.FENCE_CMD_why 0).wr
      R.FENCE_CMD_refused 0).rd R.FENCE_STAT_pkg = fcParent then (((fenceStore 0 (6 % 8) wRun).wr R.FENCE_CMD_why
      0).wr R.FENCE_CMD_refused 0).wr R.FENCE_STAT_pkg fcHost else (((fenceStore 0 (6 % 8) wRun).wr R.FENCE_CMD_why
      0).wr R.FENCE_CMD_refused 0))))).foldl (fun zs d => parentDie d (if zs.rd (R.FENCE_STAT_die d) = 0 then zs.wr
      (R.FENCE_STAT_die d) fcParent else zs)) ((if (((fenceStore 0 (6 % 8) wRun).wr R.FENCE_CMD_why 0).wr
      R.FENCE_CMD_refused 0).rd R.FENCE_STAT_pkg = 0 || (((fenceStore 0 (6 % 8) wRun).wr R.FENCE_CMD_why 0).wr
      R.FENCE_CMD_refused 0).rd R.FENCE_STAT_pkg = fcParent then (((fenceStore 0 (6 % 8) wRun).wr R.FENCE_CMD_why
      0).wr R.FENCE_CMD_refused 0).wr R.FENCE_STAT_pkg fcHost else (((fenceStore 0 (6 % 8) wRun).wr R.FENCE_CMD_why
      0).wr R.FENCE_CMD_refused 0))))) = ((List.range (diesOf ((if (((fenceStore 0 (6 % 8) wRun).wr R.FENCE_CMD_why
      0).wr R.FENCE_CMD_refused 0).rd R.FENCE_STAT_pkg = 0 || (((fenceStore 0 (6 % 8) wRun).wr R.FENCE_CMD_why 0).wr
      R.FENCE_CMD_refused 0).rd R.FENCE_STAT_pkg = fcParent then (((fenceStore 0 (6 % 8) wRun).wr R.FENCE_CMD_why
      0).wr R.FENCE_CMD_refused 0).wr R.FENCE_STAT_pkg fcHost else (((fenceStore 0 (6 % 8) wRun).wr R.FENCE_CMD_why
      0).wr R.FENCE_CMD_refused 0))))).foldl (fun zs d => parentDie d (if zs.rd (R.FENCE_STAT_die d) = 0 then zs.wr
      (R.FENCE_STAT_die d) fcParent else zs)) ((if (((fenceStore 0 (6 % 8) wRun).wr R.FENCE_CMD_why 0).wr
      R.FENCE_CMD_refused 0).rd R.FENCE_STAT_pkg = 0 || (((fenceStore 0 (6 % 8) wRun).wr R.FENCE_CMD_why 0).wr
      R.FENCE_CMD_refused 0).rd R.FENCE_STAT_pkg = fcParent then (((fenceStore 0 (6 % 8) wRun).wr R.FENCE_CMD_why
      0).wr R.FENCE_CMD_refused 0).wr R.FENCE_STAT_pkg fcHost else (((fenceStore 0 (6 % 8) wRun).wr R.FENCE_CMD_why
      0).wr R.FENCE_CMD_refused 0)))) ∧ fenceWhy (fenceStore 0 (6 % 8) wRun) 0 (6 % 8) = 0 ∧ 6 ≤ 6 % 8) ∧
    (pageOpen wFenced 0 = true ∧ fenceWhy (fenceStore 0 (1 % 8) wFenced) 0 (1 % 8) ≠ 0) ∧
    (pageOpen wFencedRef 0 = true ∧ fenceWhy (fenceStore 1 (1 % 8) wFencedRef) 1 (1 % 8) = 0 ∧ 1 % 8 < 4) ∧
    (pageOpen wFencedDie 0 = true ∧ fenceWhy (fenceStore 1 (4 % 8) wFencedDie) 1 (4 % 8) = 0 ∧ 4 ≤ 4 % 8 ∧ 4 % 8 <
      6) ∧
    (pageOpen wFencedPkg 0 = true ∧ fenceWhy (fenceStore 1 (6 % 8) wFencedPkg) 1 (6 % 8) = 0 ∧ 6 % 8 = 6) ∧
    (pageOpen wRun 0 = true ∧ fenceWhy (fenceStore 1 (1 % 8) wRun) 1 (1 % 8) ≠ 0) := by
  refine ⟨?_, ?_, ?_, ?_, ?_, ?_, ?_, ?_, ?_, ?_, ?_, ?_, ?_, ?_, ?_, ?_, ?_⟩ <;> decide +kernel

/-- The hypotheses of ResetAndStart can be met. -/
theorem witness_resetAndStart :
    (wRun.dev.phase ≠ .off) ∧
    ((State.reset).dev.phase = .off) ∧
    (2 < 4 ∧ 1000 < (railLevels 2).2 ∧ 100 < 200 ∧ (wRun.dev.phase = .off && wRun.rd R.RST_CAUSE_kind = 1) = false)
      ∧
    (2 < 4 ∧ (!railFails ⟨2, 1000, 100⟩ || (wRun.dev.phase = .off && wRun.rd R.RST_CAUSE_kind = 1)) = true) ∧
    ((State.reset).dev.phase = .off) ∧
    (wRun.dev.phase ≠ .off) ∧
    (wSafBad.dev.phase = .start ∧ wSafBad.rd R.START_STAT_result = 0 ∧ wSafBad.dev.testEntry = 0 ∧
      (wSafBad.freshOut).rd R.START_STAT_step = 1 ∧ saffronOk (wSafBad.freshOut) = false) ∧
    ((wSaf 1).dev.phase = .start ∧ (wSaf 1).rd R.START_STAT_result = 0 ∧ (wSaf 1).dev.testEntry = 0 ∧ ((wSaf
      1).freshOut).rd R.START_STAT_step = 1 ∧ saffronOk ((wSaf 1).freshOut) = true) ∧
    ((wStartAt 2).dev.phase = .start ∧ (wStartAt 2).rd R.START_STAT_result = 0 ∧ (wStartAt 2).dev.testEntry = 0 ∧
      ((wStartAt 2).freshOut).rd R.START_STAT_step = 2 ∧ calNoClock ((wStartAt 2).freshOut) = true) ∧
    ((wSafRef 2).dev.phase = .start ∧ (wSafRef 2).rd R.START_STAT_result = 0 ∧ (wSafRef 2).dev.testEntry = 0 ∧
      ((wSafRef 2).freshOut).rd R.START_STAT_step = 2 ∧ calNoClock ((wSafRef 2).freshOut) = false) ∧
    ((wStartAt 3).dev.phase = .start ∧ (wStartAt 3).rd R.START_STAT_result = 0 ∧ (wStartAt 3).dev.testEntry = 0 ∧
      ((wStartAt 3).freshOut).rd R.START_STAT_step = 3 ∧ allCalibrated (startRuns ([]) ((wStartAt 3).freshOut)) =
      true) ∧
    (wStartCal.dev.phase = .start ∧ wStartCal.rd R.START_STAT_result = 0 ∧ wStartCal.dev.testEntry = 0 ∧
      (wStartCal.freshOut).rd R.START_STAT_step = 3 ∧ allCalibrated (startRuns ([]) (wStartCal.freshOut)) = false) ∧
    ((wStartAt 3).dev.phase = .start ∧ (wStartAt 3).rd R.START_STAT_result = 0 ∧ (wStartAt 3).dev.testEntry = 0 ∧
      ((wStartAt 3).freshOut).rd R.START_STAT_step = 3 ∧ allCalibrated ((wStartAt 3).freshOut) = true) ∧
    (wStartCal.dev.phase = .start ∧ wStartCal.rd R.START_STAT_result = 0 ∧ wStartCal.dev.testEntry = 0 ∧
      (wStartCal.freshOut).rd R.START_STAT_step = 3 ∧ allCalibrated (wStartCal.freshOut) = false) ∧
    ((wStartAt 4).dev.phase = .start ∧ (wStartAt 4).rd R.START_STAT_result = 0 ∧ (wStartAt 4).dev.testEntry = 0 ∧
      ((wStartAt 4).freshOut).rd R.START_STAT_step = 4) ∧
    (wPause.dev.phase = .start ∧ wPause.rd R.START_STAT_result = 0 ∧ wPause.dev.testEntry = 0 ∧ (wPause.freshOut).rd
      R.START_STAT_step = 5 ∧ (wPause.freshOut).bist.pauseFrom.isSome = true) ∧
    ((wStartAt 5).dev.phase = .start ∧ (wStartAt 5).rd R.START_STAT_result = 0 ∧ (wStartAt 5).dev.testEntry = 0 ∧
      ((wStartAt 5).freshOut).rd R.START_STAT_step = 5 ∧ ((wStartAt 5).freshOut).bist.pauseFrom.isSome = false) ∧
    (wStart6L.dev.phase = .start ∧ wStart6L.rd R.START_STAT_result = 0 ∧ wStart6L.dev.testEntry = 0 ∧
      (wStart6L.freshOut).rd R.START_STAT_step = 6 ∧ (wStart6L.freshOut).on R.BT_STAT_loading = true) ∧
    ((wStartAt 6).dev.phase = .start ∧ (wStartAt 6).rd R.START_STAT_result = 0 ∧ (wStartAt 6).dev.testEntry = 0 ∧
      ((wStartAt 6).freshOut).rd R.START_STAT_step = 6 ∧ ((wStartAt 6).freshOut).on R.BT_STAT_loading = false) ∧
    (wRejudge.dev.phase = .start ∧ wRejudge.rd R.START_STAT_result = 0 ∧ wRejudge.dev.testEntry = 0 ∧
      (wRejudge.freshOut).rd R.START_STAT_step = 7 ∧ (wRejudge.freshOut).clk.rejudge = true) ∧
    ((wStartAt 7).dev.phase = .start ∧ (wStartAt 7).rd R.START_STAT_result = 0 ∧ (wStartAt 7).dev.testEntry = 0 ∧
      ((wStartAt 7).freshOut).rd R.START_STAT_step = 7 ∧ ((wStartAt 7).freshOut).clk.rejudge = false) ∧
    (wEnumDone.dev.phase = .start ∧ wEnumDone.rd R.START_STAT_result = 0 ∧ wEnumDone.dev.testEntry = 0 ∧
      (wEnumDone.freshOut).rd R.START_STAT_step = 8 ∧ (wEnumDone.freshOut).on R.PCT_STAT_enum_done = true) ∧
    ((wStartAt 8).dev.phase = .start ∧ (wStartAt 8).rd R.START_STAT_result = 0 ∧ (wStartAt 8).dev.testEntry = 0 ∧
      ((wStartAt 8).freshOut).rd R.START_STAT_step = 8 ∧ ((wStartAt 8).freshOut).on R.PCT_STAT_enum_done = false) ∧
    (wTestFull.dev.phase = .test ∧ wTestFull.bist.full = true) ∧
    ((wLate wStart8).dev.phase = .start ∧ (wLate wStart8).rd R.START_STAT_result = 0 ∧ (wLate wStart8).rd
      R.START_STAT_step = 8 ∧ (wLate wStart8).dev.testEntry = 0 ∧ (wLate wStart8).dev.stepAt + 10000000 ≤ (wLate
      wStart8).clock ∧ isHead (wLate wStart8) = false) ∧
    ((wLate wPause).dev.phase = .start ∧ (wLate wPause).rd R.START_STAT_step = 5 ∧ 10000000 < postPaused (wLate
      wPause) ∧ ((postTime (wLate wPause)).wr R.BST_POST_result resIncomplete).dev.phase = .start ∧ ((postTime
      (wLate wPause)).wr R.BST_POST_result resIncomplete).rd R.START_STAT_result = 0) ∧
    (((wStartAt 5).dev.phase = .start && (wStartAt 5).rd R.START_STAT_step = 5 && 10000000 < postPaused (wStartAt
      5)) = false) ∧
    (((if
      (((({ wStart9.freshOut with dev := { wStart9.dev with phase := .run, held := wStart9.freshOut.rd R.STRAPS_boot_eff = 2, everRun := true } }
      : State).wr R.START_STAT_result 1)).wr R.START_STAT_us (min (wStart9.clock / 1000) 65535)).rd (R.CLK_EN_en 7)
      = 0 then
      { (((({ wStart9.freshOut with dev := { wStart9.dev with phase := .run, held := wStart9.freshOut.rd R.STRAPS_boot_eff = 2, everRun := true } } : State).wr R.START_STAT_result 1)).wr R.START_STAT_us (min (wStart9.clock / 1000) 65535)) with bist := { (((({ wStart9.freshOut with dev := { wStart9.dev with phase := .run, held := wStart9.freshOut.rd R.STRAPS_boot_eff = 2, everRun := true } } : State).wr R.START_STAT_result 1)).wr R.START_STAT_us (min (wStart9.clock / 1000) 65535)).bist with nextAt := none, leftAt := bistInterval (((({ wStart9.freshOut with dev := { wStart9.dev with phase := .run, held := wStart9.freshOut.rd R.STRAPS_boot_eff = 2, everRun := true } } : State).wr R.START_STAT_result 1)).wr R.START_STAT_us (min (wStart9.clock / 1000) 65535)) } }
      else
      { (((({ wStart9.freshOut with dev := { wStart9.dev with phase := .run, held := wStart9.freshOut.rd R.STRAPS_boot_eff = 2, everRun := true } } : State).wr R.START_STAT_result 1)).wr R.START_STAT_us (min (wStart9.clock / 1000) 65535)) with bist := { (((({ wStart9.freshOut with dev := { wStart9.dev with phase := .run, held := wStart9.freshOut.rd R.STRAPS_boot_eff = 2, everRun := true } } : State).wr R.START_STAT_result 1)).wr R.START_STAT_us (min (wStart9.clock / 1000) 65535)).bist with nextAt := some ((((({ wStart9.freshOut with dev := { wStart9.dev with phase := .run, held := wStart9.freshOut.rd R.STRAPS_boot_eff = 2, everRun := true } } : State).wr R.START_STAT_result 1)).wr R.START_STAT_us (min (wStart9.clock / 1000) 65535)).clock + bistInterval (((({ wStart9.freshOut with dev := { wStart9.dev with phase := .run, held := wStart9.freshOut.rd R.STRAPS_boot_eff = 2, everRun := true } } : State).wr R.START_STAT_result 1)).wr R.START_STAT_us (min (wStart9.clock / 1000) 65535))) } }))
      = (if
      (((({ wStart9.freshOut with dev := { wStart9.dev with phase := .run, held := wStart9.freshOut.rd R.STRAPS_boot_eff = 2, everRun := true } }
      : State).wr R.START_STAT_result 1)).wr R.START_STAT_us (min (wStart9.clock / 1000) 65535)).rd (R.CLK_EN_en 7)
      = 0 then
      { (((({ wStart9.freshOut with dev := { wStart9.dev with phase := .run, held := wStart9.freshOut.rd R.STRAPS_boot_eff = 2, everRun := true } } : State).wr R.START_STAT_result 1)).wr R.START_STAT_us (min (wStart9.clock / 1000) 65535)) with bist := { (((({ wStart9.freshOut with dev := { wStart9.dev with phase := .run, held := wStart9.freshOut.rd R.STRAPS_boot_eff = 2, everRun := true } } : State).wr R.START_STAT_result 1)).wr R.START_STAT_us (min (wStart9.clock / 1000) 65535)).bist with nextAt := none, leftAt := bistInterval (((({ wStart9.freshOut with dev := { wStart9.dev with phase := .run, held := wStart9.freshOut.rd R.STRAPS_boot_eff = 2, everRun := true } } : State).wr R.START_STAT_result 1)).wr R.START_STAT_us (min (wStart9.clock / 1000) 65535)) } }
      else
      { (((({ wStart9.freshOut with dev := { wStart9.dev with phase := .run, held := wStart9.freshOut.rd R.STRAPS_boot_eff = 2, everRun := true } } : State).wr R.START_STAT_result 1)).wr R.START_STAT_us (min (wStart9.clock / 1000) 65535)) with bist := { (((({ wStart9.freshOut with dev := { wStart9.dev with phase := .run, held := wStart9.freshOut.rd R.STRAPS_boot_eff = 2, everRun := true } } : State).wr R.START_STAT_result 1)).wr R.START_STAT_us (min (wStart9.clock / 1000) 65535)).bist with nextAt := some ((((({ wStart9.freshOut with dev := { wStart9.dev with phase := .run, held := wStart9.freshOut.rd R.STRAPS_boot_eff = 2, everRun := true } } : State).wr R.START_STAT_result 1)).wr R.START_STAT_us (min (wStart9.clock / 1000) 65535)).clock + bistInterval (((({ wStart9.freshOut with dev := { wStart9.dev with phase := .run, held := wStart9.freshOut.rd R.STRAPS_boot_eff = 2, everRun := true } } : State).wr R.START_STAT_result 1)).wr R.START_STAT_us (min (wStart9.clock / 1000) 65535))) } })
      ∧ wStart9.dev.phase = .start ∧ wStart9.rd R.START_STAT_result = 0 ∧ wStart9.rd R.START_STAT_step = 9 ∧
      wStart9.dev.testEntry = 0) ∧
    (pageOpen wHeld 0 = true ∧ (wHeld.freshOut.wr R.BOOT_CMD_op 0).dev.held = true ∧ (wHeld.freshOut.wr
      R.BOOT_CMD_op 0).on R.BT_STAT_loading = false) ∧
    (pageOpen wRun 0 = true ∧ (!(wRun.freshOut.wr R.BOOT_CMD_op 0).dev.held || (wRun.freshOut.wr R.BOOT_CMD_op 0).on
      R.BT_STAT_loading) = true) := by
  refine ⟨?_, ?_, ?_, ?_, ?_, ?_, ?_, ?_, ?_, ?_, ?_, ?_, ?_, ?_, ?_, ?_, ?_, ?_, ?_, ?_, ?_, ?_, ?_, ?_, ?_, ?_, ?_, ?_, ?_, ?_⟩ <;> decide +kernel

/-- The hypotheses of RingMessagesArrive can be met. -/
theorem witness_ringMessagesArrive :
    (0 < 2 ∧ ringRuns wTrains7 = true ∧ mgmtHeld wTrains7 = false ∧ hopLocked wTrains7 0 = true ∧ intactMsg
      (ringMsgOf 1 0 1 [0, 1, 1, 0, 0, 0]) = some (msgOf 1 0 1 [0, 1, 1, 0, 0, 0]) ∧ (msgOf 1 0 1 [0, 1, 1, 0, 0,
      0]).type = 1 ∧ (msgOf 1 0 1 [0, 1, 1, 0, 0, 0]).body.getD 0 0 = 0 ∧ (hopState (hopDelay 0 ((msgOf 1 0 1 [0, 1,
      1, 0, 0, 0]).body.getD 3 0) (beNat ((msgOf 1 0 1 [0, 1, 1, 0, 0, 0]).body.drop 4)) ((hopHeard 0 (hopBad 0
      (ringMsgOf 1 0 1 [0, 1, 1, 0, 0, 0]) wTrains7.freshOut)).putHop 0
      { (hopHeard 0 (hopBad 0 (ringMsgOf 1 0 1 [0, 1, 1, 0, 0, 0]) wTrains7.freshOut)).hop 0 with rxTag := (msgOf 1 0 1 [0, 1, 1, 0, 0, 0]).body.getD 2 0, rxAt := some (hopHeard 0 (hopBad 0 (ringMsgOf 1 0 1 [0, 1, 1, 0, 0, 0]) wTrains7.freshOut)).clock }))
      0 ≠ hopUp && (min (((hopDelay 0 ((msgOf 1 0 1 [0, 1, 1, 0, 0, 0]).body.getD 3 0) (beNat ((msgOf 1 0 1 [0, 1,
      1, 0, 0, 0]).body.drop 4)) ((hopHeard 0 (hopBad 0 (ringMsgOf 1 0 1 [0, 1, 1, 0, 0, 0])
      wTrains7.freshOut)).putHop 0
      { (hopHeard 0 (hopBad 0 (ringMsgOf 1 0 1 [0, 1, 1, 0, 0, 0]) wTrains7.freshOut)).hop 0 with rxTag := (msgOf 1 0 1 [0, 1, 1, 0, 0, 0]).body.getD 2 0, rxAt := some (hopHeard 0 (hopBad 0 (ringMsgOf 1 0 1 [0, 1, 1, 0, 0, 0]) wTrains7.freshOut)).clock })).hop
      0).trains + 1) 8) = 8) = true) ∧
    (0 < 2 ∧ ringRuns (wLate wRun) = true ∧ mgmtHeld (wLate wRun) = false ∧ hopLocked (wLate wRun) 0 = true ∧
      intactMsg (ringMsgOf 1 0 1 [0, 1, 1, 0, 0, 0]) = some (msgOf 1 0 1 [0, 1, 1, 0, 0, 0]) ∧ (msgOf 1 0 1 [0, 1,
      1, 0, 0, 0]).type = 1 ∧ (msgOf 1 0 1 [0, 1, 1, 0, 0, 0]).body.getD 0 0 = 0 ∧ (hopState (hopDelay 0 ((msgOf 1 0
      1 [0, 1, 1, 0, 0, 0]).body.getD 3 0) (beNat ((msgOf 1 0 1 [0, 1, 1, 0, 0, 0]).body.drop 4)) ((hopHeard 0
      (hopBad 0 (ringMsgOf 1 0 1 [0, 1, 1, 0, 0, 0]) (wLate wRun).freshOut)).putHop 0
      { (hopHeard 0 (hopBad 0 (ringMsgOf 1 0 1 [0, 1, 1, 0, 0, 0]) (wLate wRun).freshOut)).hop 0 with rxTag := (msgOf 1 0 1 [0, 1, 1, 0, 0, 0]).body.getD 2 0, rxAt := some (hopHeard 0 (hopBad 0 (ringMsgOf 1 0 1 [0, 1, 1, 0, 0, 0]) (wLate wRun).freshOut)).clock }))
      0 ≠ hopUp && (min (((hopDelay 0 ((msgOf 1 0 1 [0, 1, 1, 0, 0, 0]).body.getD 3 0) (beNat ((msgOf 1 0 1 [0, 1,
      1, 0, 0, 0]).body.drop 4)) ((hopHeard 0 (hopBad 0 (ringMsgOf 1 0 1 [0, 1, 1, 0, 0, 0]) (wLate
      wRun).freshOut)).putHop 0
      { (hopHeard 0 (hopBad 0 (ringMsgOf 1 0 1 [0, 1, 1, 0, 0, 0]) (wLate wRun).freshOut)).hop 0 with rxTag := (msgOf 1 0 1 [0, 1, 1, 0, 0, 0]).body.getD 2 0, rxAt := some (hopHeard 0 (hopBad 0 (ringMsgOf 1 0 1 [0, 1, 1, 0, 0, 0]) (wLate wRun).freshOut)).clock })).hop
      0).trains + 1) 8) = 8) = false) ∧
    (0 < 2 ∧ ringRuns wCrossed = true ∧ mgmtHeld wCrossed = false ∧ hopLocked wCrossed 0 = true ∧ intactMsg
      (ringMsgOf 1 0 1 [1, 1, 1, 0, 0, 0]) = some (msgOf 1 0 1 [1, 1, 1, 0, 0, 0]) ∧ (msgOf 1 0 1 [1, 1, 1, 0, 0,
      0]).type = 1 ∧ (msgOf 1 0 1 [1, 1, 1, 0, 0, 0]).body.getD 0 0 ≠ 0 ∧ hopState ((hopDelay 0 ((msgOf 1 0 1 [1, 1,
      1, 0, 0, 0]).body.getD 3 0) (beNat ((msgOf 1 0 1 [1, 1, 1, 0, 0, 0]).body.drop 4)) ((hopHeard 0 (hopBad 0
      (ringMsgOf 1 0 1 [1, 1, 1, 0, 0, 0]) wCrossed.freshOut)).putHop 0
      { (hopHeard 0 (hopBad 0 (ringMsgOf 1 0 1 [1, 1, 1, 0, 0, 0]) wCrossed.freshOut)).hop 0 with rxTag := (msgOf 1 0 1 [1, 1, 1, 0, 0, 0]).body.getD 2 0, rxAt := some (hopHeard 0 (hopBad 0 (ringMsgOf 1 0 1 [1, 1, 1, 0, 0, 0]) wCrossed.freshOut)).clock })).putHop
      0
      { (hopDelay 0 ((msgOf 1 0 1 [1, 1, 1, 0, 0, 0]).body.getD 3 0) (beNat ((msgOf 1 0 1 [1, 1, 1, 0, 0, 0]).body.drop 4)) ((hopHeard 0 (hopBad 0 (ringMsgOf 1 0 1 [1, 1, 1, 0, 0, 0]) wCrossed.freshOut)).putHop 0 { (hopHeard 0 (hopBad 0 (ringMsgOf 1 0 1 [1, 1, 1, 0, 0, 0]) wCrossed.freshOut)).hop 0 with rxTag := (msgOf 1 0 1 [1, 1, 1, 0, 0, 0]).body.getD 2 0, rxAt := some (hopHeard 0 (hopBad 0 (ringMsgOf 1 0 1 [1, 1, 1, 0, 0, 0]) wCrossed.freshOut)).clock })).hop 0 with trains := 0 })
      0 = hopCrossed) ∧
    (0 < 2 ∧ ringRuns (wLate wHop) = true ∧ mgmtHeld (wLate wHop) = false ∧ hopLocked (wLate wHop) 0 = true ∧
      intactMsg (ringMsgOf 1 0 1 [1, 1, 1, 0, 0, 0]) = some (msgOf 1 0 1 [1, 1, 1, 0, 0, 0]) ∧ (msgOf 1 0 1 [1, 1,
      1, 0, 0, 0]).type = 1 ∧ (msgOf 1 0 1 [1, 1, 1, 0, 0, 0]).body.getD 0 0 ≠ 0 ∧ hopState ((hopDelay 0 ((msgOf 1 0
      1 [1, 1, 1, 0, 0, 0]).body.getD 3 0) (beNat ((msgOf 1 0 1 [1, 1, 1, 0, 0, 0]).body.drop 4)) ((hopHeard 0
      (hopBad 0 (ringMsgOf 1 0 1 [1, 1, 1, 0, 0, 0]) (wLate wHop).freshOut)).putHop 0
      { (hopHeard 0 (hopBad 0 (ringMsgOf 1 0 1 [1, 1, 1, 0, 0, 0]) (wLate wHop).freshOut)).hop 0 with rxTag := (msgOf 1 0 1 [1, 1, 1, 0, 0, 0]).body.getD 2 0, rxAt := some (hopHeard 0 (hopBad 0 (ringMsgOf 1 0 1 [1, 1, 1, 0, 0, 0]) (wLate wHop).freshOut)).clock })).putHop
      0
      { (hopDelay 0 ((msgOf 1 0 1 [1, 1, 1, 0, 0, 0]).body.getD 3 0) (beNat ((msgOf 1 0 1 [1, 1, 1, 0, 0, 0]).body.drop 4)) ((hopHeard 0 (hopBad 0 (ringMsgOf 1 0 1 [1, 1, 1, 0, 0, 0]) (wLate wHop).freshOut)).putHop 0 { (hopHeard 0 (hopBad 0 (ringMsgOf 1 0 1 [1, 1, 1, 0, 0, 0]) (wLate wHop).freshOut)).hop 0 with rxTag := (msgOf 1 0 1 [1, 1, 1, 0, 0, 0]).body.getD 2 0, rxAt := some (hopHeard 0 (hopBad 0 (ringMsgOf 1 0 1 [1, 1, 1, 0, 0, 0]) (wLate wHop).freshOut)).clock })).hop 0 with trains := 0 })
      0 = hopUp) ∧
    (0 < 2 ∧ ringRuns (wLate wRun) = true ∧ mgmtHeld (wLate wRun) = false ∧ hopLocked (wLate wRun) 0 = true ∧
      intactMsg (ringMsgOf 1 0 1 [1, 1, 1, 0, 0, 0]) = some (msgOf 1 0 1 [1, 1, 1, 0, 0, 0]) ∧ (msgOf 1 0 1 [1, 1,
      1, 0, 0, 0]).type = 1 ∧ (msgOf 1 0 1 [1, 1, 1, 0, 0, 0]).body.getD 0 0 ≠ 0 ∧ hopState ((hopDelay 0 ((msgOf 1 0
      1 [1, 1, 1, 0, 0, 0]).body.getD 3 0) (beNat ((msgOf 1 0 1 [1, 1, 1, 0, 0, 0]).body.drop 4)) ((hopHeard 0
      (hopBad 0 (ringMsgOf 1 0 1 [1, 1, 1, 0, 0, 0]) (wLate wRun).freshOut)).putHop 0
      { (hopHeard 0 (hopBad 0 (ringMsgOf 1 0 1 [1, 1, 1, 0, 0, 0]) (wLate wRun).freshOut)).hop 0 with rxTag := (msgOf 1 0 1 [1, 1, 1, 0, 0, 0]).body.getD 2 0, rxAt := some (hopHeard 0 (hopBad 0 (ringMsgOf 1 0 1 [1, 1, 1, 0, 0, 0]) (wLate wRun).freshOut)).clock })).putHop
      0
      { (hopDelay 0 ((msgOf 1 0 1 [1, 1, 1, 0, 0, 0]).body.getD 3 0) (beNat ((msgOf 1 0 1 [1, 1, 1, 0, 0, 0]).body.drop 4)) ((hopHeard 0 (hopBad 0 (ringMsgOf 1 0 1 [1, 1, 1, 0, 0, 0]) (wLate wRun).freshOut)).putHop 0 { (hopHeard 0 (hopBad 0 (ringMsgOf 1 0 1 [1, 1, 1, 0, 0, 0]) (wLate wRun).freshOut)).hop 0 with rxTag := (msgOf 1 0 1 [1, 1, 1, 0, 0, 0]).body.getD 2 0, rxAt := some (hopHeard 0 (hopBad 0 (ringMsgOf 1 0 1 [1, 1, 1, 0, 0, 0]) (wLate wRun).freshOut)).clock })).hop 0 with trains := 0 })
      0 ≠ hopCrossed ∧ hopState ((hopDelay 0 ((msgOf 1 0 1 [1, 1, 1, 0, 0, 0]).body.getD 3 0) (beNat ((msgOf 1 0 1
      [1, 1, 1, 0, 0, 0]).body.drop 4)) ((hopHeard 0 (hopBad 0 (ringMsgOf 1 0 1 [1, 1, 1, 0, 0, 0]) (wLate
      wRun).freshOut)).putHop 0
      { (hopHeard 0 (hopBad 0 (ringMsgOf 1 0 1 [1, 1, 1, 0, 0, 0]) (wLate wRun).freshOut)).hop 0 with rxTag := (msgOf 1 0 1 [1, 1, 1, 0, 0, 0]).body.getD 2 0, rxAt := some (hopHeard 0 (hopBad 0 (ringMsgOf 1 0 1 [1, 1, 1, 0, 0, 0]) (wLate wRun).freshOut)).clock })).putHop
      0
      { (hopDelay 0 ((msgOf 1 0 1 [1, 1, 1, 0, 0, 0]).body.getD 3 0) (beNat ((msgOf 1 0 1 [1, 1, 1, 0, 0, 0]).body.drop 4)) ((hopHeard 0 (hopBad 0 (ringMsgOf 1 0 1 [1, 1, 1, 0, 0, 0]) (wLate wRun).freshOut)).putHop 0 { (hopHeard 0 (hopBad 0 (ringMsgOf 1 0 1 [1, 1, 1, 0, 0, 0]) (wLate wRun).freshOut)).hop 0 with rxTag := (msgOf 1 0 1 [1, 1, 1, 0, 0, 0]).body.getD 2 0, rxAt := some (hopHeard 0 (hopBad 0 (ringMsgOf 1 0 1 [1, 1, 1, 0, 0, 0]) (wLate wRun).freshOut)).clock })).hop 0 with trains := 0 })
      0 ≠ hopUp) ∧
    (0 < 2 ∧ ringRuns (wLate wRun) = true ∧ mgmtHeld (wLate wRun) = false ∧ hopLocked (wLate wRun) 0 = true ∧
      intactMsg (ringMsgOf 2 1 1 [0, 0]) = some (msgOf 2 1 1 [0, 0]) ∧ (msgOf 2 1 1 [0, 0]).type = 2 ∧ hopState
      (hopBad 0 (ringMsgOf 2 1 1 [0, 0]) (wLate wRun).freshOut) 0 ≠ hopCrossed ∧ (msgOf 2 1 1 [0, 0]).src ≠ ownId
      (hopHeard 0 (hopBad 0 (ringMsgOf 2 1 1 [0, 0]) (wLate wRun).freshOut)) ∧ (msgOf 2 1 1 [0, 0]).dest ≠ ownId
      (hopHeard 0 (hopBad 0 (ringMsgOf 2 1 1 [0, 0]) (wLate wRun).freshOut))) ∧
    (0 < 2 ∧ ringRuns (wLate wRun) = true ∧ mgmtHeld (wLate wRun) = false ∧ hopLocked (wLate wRun) 0 = true ∧
      intactMsg (ringMsgOf 2 0 1 [0, 0]) = some (msgOf 2 0 1 [0, 0]) ∧ (msgOf 2 0 1 [0, 0]).type = 2 ∧ hopState
      (hopBad 0 (ringMsgOf 2 0 1 [0, 0]) (wLate wRun).freshOut) 0 ≠ hopCrossed ∧ (msgOf 2 0 1 [0, 0]).src ≠ ownId
      (hopHeard 0 (hopBad 0 (ringMsgOf 2 0 1 [0, 0]) (wLate wRun).freshOut)) ∧ (msgOf 2 0 1 [0, 0]).dest = ownId
      (hopHeard 0 (hopBad 0 (ringMsgOf 2 0 1 [0, 0]) (wLate wRun).freshOut))) ∧
    (0 < 2 ∧ ringRuns (wLate wRun) = true ∧ mgmtHeld (wLate wRun) = false ∧ hopLocked (wLate wRun) 0 = true ∧
      intactMsg (ringMsgOf 2 0 0 [1, 0]) = some (msgOf 2 0 0 [1, 0]) ∧ (msgOf 2 0 0 [1, 0]).type = 2 ∧ hopState
      (hopBad 0 (ringMsgOf 2 0 0 [1, 0]) (wLate wRun).freshOut) 0 ≠ hopCrossed ∧ (msgOf 2 0 0 [1, 0]).src = ownId
      (hopHeard 0 (hopBad 0 (ringMsgOf 2 0 0 [1, 0]) (wLate wRun).freshOut)) ∧ (hopHeard 0 (hopBad 0 (ringMsgOf 2 0
      0 [1, 0]) (wLate wRun).freshOut)).ring.enumAt.isNone = true) ∧
    (0 < 2 ∧ ringRuns (wLate wEnum) = true ∧ mgmtHeld (wLate wEnum) = false ∧ hopLocked (wLate wEnum) 0 = true ∧
      intactMsg (ringMsgOf 2 0 0 [1, 0]) = some (msgOf 2 0 0 [1, 0]) ∧ (msgOf 2 0 0 [1, 0]).type = 2 ∧ hopState
      (hopBad 0 (ringMsgOf 2 0 0 [1, 0]) (wLate wEnum).freshOut) 0 ≠ hopCrossed ∧ (msgOf 2 0 0 [1, 0]).src = ownId
      (hopHeard 0 (hopBad 0 (ringMsgOf 2 0 0 [1, 0]) (wLate wEnum).freshOut)) ∧ (hopHeard 0 (hopBad 0 (ringMsgOf 2 0
      0 [1, 0]) (wLate wEnum).freshOut)).ring.enumAt.isNone = false ∧
      (({ (hopHeard 0 (hopBad 0 (ringMsgOf 2 0 0 [1, 0]) (wLate wEnum).freshOut)) with ring := { (hopHeard 0 (hopBad 0 (ringMsgOf 2 0 0 [1, 0]) (wLate wEnum).freshOut)).ring with enumBack := (((hopHeard 0 (hopBad 0 (ringMsgOf 2 0 0 [1, 0]) (wLate wEnum).freshOut)).ring.enumBack.filter (fun r => r ≠ 0) ++ [0])) } }
      : State)).ring.enumOut.all (((hopHeard 0 (hopBad 0 (ringMsgOf 2 0 0 [1, 0]) (wLate
      wEnum).freshOut)).ring.enumBack.filter (fun r => r ≠ 0) ++ [0])).contains = true) ∧
    (0 < 2 ∧ ringRuns (wLate wEnum2) = true ∧ mgmtHeld (wLate wEnum2) = false ∧ hopLocked (wLate wEnum2) 0 = true ∧
      intactMsg (ringMsgOf 2 0 0 [1, 0]) = some (msgOf 2 0 0 [1, 0]) ∧ (msgOf 2 0 0 [1, 0]).type = 2 ∧ hopState
      (hopBad 0 (ringMsgOf 2 0 0 [1, 0]) (wLate wEnum2).freshOut) 0 ≠ hopCrossed ∧ (msgOf 2 0 0 [1, 0]).src = ownId
      (hopHeard 0 (hopBad 0 (ringMsgOf 2 0 0 [1, 0]) (wLate wEnum2).freshOut)) ∧ (hopHeard 0 (hopBad 0 (ringMsgOf 2
      0 0 [1, 0]) (wLate wEnum2).freshOut)).ring.enumAt.isNone = false ∧
      (({ (hopHeard 0 (hopBad 0 (ringMsgOf 2 0 0 [1, 0]) (wLate wEnum2).freshOut)) with ring := { (hopHeard 0 (hopBad 0 (ringMsgOf 2 0 0 [1, 0]) (wLate wEnum2).freshOut)).ring with enumBack := (((hopHeard 0 (hopBad 0 (ringMsgOf 2 0 0 [1, 0]) (wLate wEnum2).freshOut)).ring.enumBack.filter (fun r => r ≠ 0) ++ [0])) } }
      : State)).ring.enumOut.all (((hopHeard 0 (hopBad 0 (ringMsgOf 2 0 0 [1, 0]) (wLate
      wEnum2).freshOut)).ring.enumBack.filter (fun r => r ≠ 0) ++ [0])).contains = false) ∧
    (0 < 2 ∧ ringRuns wEnumDup = true ∧ mgmtHeld wEnumDup = false ∧ hopLocked wEnumDup 0 = true ∧ intactMsg
      (ringMsgOf 3 0 1 [0, 1, 0, 0]) = some (msgOf 3 0 1 [0, 1, 0, 0]) ∧ (msgOf 3 0 1 [0, 1, 0, 0]).type = 3 ∧
      hopState (hopBad 0 (ringMsgOf 3 0 1 [0, 1, 0, 0]) wEnumDup.freshOut) 0 ≠ hopCrossed ∧ (msgOf 3 0 1 [0, 1, 0,
      0]).dest = ownId (hopHeard 0 (hopBad 0 (ringMsgOf 3 0 1 [0, 1, 0, 0]) wEnumDup.freshOut)) ∧ isHead (hopHeard 0
      (hopBad 0 (ringMsgOf 3 0 1 [0, 1, 0, 0]) wEnumDup.freshOut)) = true ∧ (hopHeard 0 (hopBad 0 (ringMsgOf 3 0 1
      [0, 1, 0, 0]) wEnumDup.freshOut)).ring.enumAt.isSome = true ∧ (msgOf 3 0 1 [0, 1, 0, 0]).body.getD 0 0 < 2 ∧
      bit
      ((({ ((hopHeard 0 (hopBad 0 (ringMsgOf 3 0 1 [0, 1, 0, 0]) wEnumDup.freshOut)).wr R.PCT_STAT_present ((hopHeard 0 (hopBad 0 (ringMsgOf 3 0 1 [0, 1, 0, 0]) wEnumDup.freshOut)).rd R.PCT_STAT_present ||| 2 ^ (msgOf 3 0 1 [0, 1, 0, 0]).src)) with ring := { ((hopHeard 0 (hopBad 0 (ringMsgOf 3 0 1 [0, 1, 0, 0]) wEnumDup.freshOut)).wr R.PCT_STAT_present ((hopHeard 0 (hopBad 0 (ringMsgOf 3 0 1 [0, 1, 0, 0]) wEnumDup.freshOut)).rd R.PCT_STAT_present ||| 2 ^ (msgOf 3 0 1 [0, 1, 0, 0]).src)).ring with parts := ((msgOf 3 0 1 [0, 1, 0, 0]).src, beNat ((msgOf 3 0 1 [0, 1, 0, 0]).body.drop 2)) :: ((hopHeard 0 (hopBad 0 (ringMsgOf 3 0 1 [0, 1, 0, 0]) wEnumDup.freshOut)).wr R.PCT_STAT_present ((hopHeard 0 (hopBad 0 (ringMsgOf 3 0 1 [0, 1, 0, 0]) wEnumDup.freshOut)).rd R.PCT_STAT_present ||| 2 ^ (msgOf 3 0 1 [0, 1, 0, 0]).src)).ring.parts.filter fun zp => zp.1 ≠ (msgOf 3 0 1 [0, 1, 0, 0]).src } }
      : State)).rd R.PCT_STAT_dup) (msgOf 3 0 1 [0, 1, 0, 0]).src = true) ∧
    (0 < 2 ∧ ringRuns wEnumTwo = true ∧ mgmtHeld wEnumTwo = false ∧ hopLocked wEnumTwo 0 = true ∧ intactMsg
      (ringMsgOf 3 0 1 [0, 1, 0, 0]) = some (msgOf 3 0 1 [0, 1, 0, 0]) ∧ (msgOf 3 0 1 [0, 1, 0, 0]).type = 3 ∧
      hopState (hopBad 0 (ringMsgOf 3 0 1 [0, 1, 0, 0]) wEnumTwo.freshOut) 0 ≠ hopCrossed ∧ (msgOf 3 0 1 [0, 1, 0,
      0]).dest = ownId (hopHeard 0 (hopBad 0 (ringMsgOf 3 0 1 [0, 1, 0, 0]) wEnumTwo.freshOut)) ∧ isHead (hopHeard 0
      (hopBad 0 (ringMsgOf 3 0 1 [0, 1, 0, 0]) wEnumTwo.freshOut)) = true ∧ (hopHeard 0 (hopBad 0 (ringMsgOf 3 0 1
      [0, 1, 0, 0]) wEnumTwo.freshOut)).ring.enumAt.isSome = true ∧ (msgOf 3 0 1 [0, 1, 0, 0]).body.getD 0 0 < 2 ∧
      bit
      ((({ ((hopHeard 0 (hopBad 0 (ringMsgOf 3 0 1 [0, 1, 0, 0]) wEnumTwo.freshOut)).wr R.PCT_STAT_present ((hopHeard 0 (hopBad 0 (ringMsgOf 3 0 1 [0, 1, 0, 0]) wEnumTwo.freshOut)).rd R.PCT_STAT_present ||| 2 ^ (msgOf 3 0 1 [0, 1, 0, 0]).src)) with ring := { ((hopHeard 0 (hopBad 0 (ringMsgOf 3 0 1 [0, 1, 0, 0]) wEnumTwo.freshOut)).wr R.PCT_STAT_present ((hopHeard 0 (hopBad 0 (ringMsgOf 3 0 1 [0, 1, 0, 0]) wEnumTwo.freshOut)).rd R.PCT_STAT_present ||| 2 ^ (msgOf 3 0 1 [0, 1, 0, 0]).src)).ring with parts := ((msgOf 3 0 1 [0, 1, 0, 0]).src, beNat ((msgOf 3 0 1 [0, 1, 0, 0]).body.drop 2)) :: ((hopHeard 0 (hopBad 0 (ringMsgOf 3 0 1 [0, 1, 0, 0]) wEnumTwo.freshOut)).wr R.PCT_STAT_present ((hopHeard 0 (hopBad 0 (ringMsgOf 3 0 1 [0, 1, 0, 0]) wEnumTwo.freshOut)).rd R.PCT_STAT_present ||| 2 ^ (msgOf 3 0 1 [0, 1, 0, 0]).src)).ring.parts.filter fun zp => zp.1 ≠ (msgOf 3 0 1 [0, 1, 0, 0]).src } }
      : State)).rd R.PCT_STAT_dup) (msgOf 3 0 1 [0, 1, 0, 0]).src = false ∧ (ringPos (hopHeard 0 (hopBad 0
      (ringMsgOf 3 0 1 [0, 1, 0, 0]) wEnumTwo.freshOut)) ((msgOf 3 0 1 [0, 1, 0, 0]).body.getD 0 0) (msgOf 3 0 1 [0,
      1, 0, 0]).src ≠ 15 && ringPos (hopHeard 0 (hopBad 0 (ringMsgOf 3 0 1 [0, 1, 0, 0]) wEnumTwo.freshOut)) ((msgOf
      3 0 1 [0, 1, 0, 0]).body.getD 0 0) (msgOf 3 0 1 [0, 1, 0, 0]).src ≠ ((msgOf 3 0 1 [0, 1, 0, 0]).body.getD 1
      0)) = true) ∧
    (0 < 2 ∧ ringRuns (wLate wEnum) = true ∧ mgmtHeld (wLate wEnum) = false ∧ hopLocked (wLate wEnum) 0 = true ∧
      intactMsg (ringMsgOf 3 0 1 [0, 1, 0, 0]) = some (msgOf 3 0 1 [0, 1, 0, 0]) ∧ (msgOf 3 0 1 [0, 1, 0, 0]).type =
      3 ∧ hopState (hopBad 0 (ringMsgOf 3 0 1 [0, 1, 0, 0]) (wLate wEnum).freshOut) 0 ≠ hopCrossed ∧ (msgOf 3 0 1
      [0, 1, 0, 0]).dest = ownId (hopHeard 0 (hopBad 0 (ringMsgOf 3 0 1 [0, 1, 0, 0]) (wLate wEnum).freshOut)) ∧
      isHead (hopHeard 0 (hopBad 0 (ringMsgOf 3 0 1 [0, 1, 0, 0]) (wLate wEnum).freshOut)) = true ∧ (hopHeard 0
      (hopBad 0 (ringMsgOf 3 0 1 [0, 1, 0, 0]) (wLate wEnum).freshOut)).ring.enumAt.isSome = true ∧ (msgOf 3 0 1 [0,
      1, 0, 0]).body.getD 0 0 < 2 ∧ bit
      ((({ ((hopHeard 0 (hopBad 0 (ringMsgOf 3 0 1 [0, 1, 0, 0]) (wLate wEnum).freshOut)).wr R.PCT_STAT_present ((hopHeard 0 (hopBad 0 (ringMsgOf 3 0 1 [0, 1, 0, 0]) (wLate wEnum).freshOut)).rd R.PCT_STAT_present ||| 2 ^ (msgOf 3 0 1 [0, 1, 0, 0]).src)) with ring := { ((hopHeard 0 (hopBad 0 (ringMsgOf 3 0 1 [0, 1, 0, 0]) (wLate wEnum).freshOut)).wr R.PCT_STAT_present ((hopHeard 0 (hopBad 0 (ringMsgOf 3 0 1 [0, 1, 0, 0]) (wLate wEnum).freshOut)).rd R.PCT_STAT_present ||| 2 ^ (msgOf 3 0 1 [0, 1, 0, 0]).src)).ring with parts := ((msgOf 3 0 1 [0, 1, 0, 0]).src, beNat ((msgOf 3 0 1 [0, 1, 0, 0]).body.drop 2)) :: ((hopHeard 0 (hopBad 0 (ringMsgOf 3 0 1 [0, 1, 0, 0]) (wLate wEnum).freshOut)).wr R.PCT_STAT_present ((hopHeard 0 (hopBad 0 (ringMsgOf 3 0 1 [0, 1, 0, 0]) (wLate wEnum).freshOut)).rd R.PCT_STAT_present ||| 2 ^ (msgOf 3 0 1 [0, 1, 0, 0]).src)).ring.parts.filter fun zp => zp.1 ≠ (msgOf 3 0 1 [0, 1, 0, 0]).src } }
      : State)).rd R.PCT_STAT_dup) (msgOf 3 0 1 [0, 1, 0, 0]).src = false ∧ (ringPos (hopHeard 0 (hopBad 0
      (ringMsgOf 3 0 1 [0, 1, 0, 0]) (wLate wEnum).freshOut)) ((msgOf 3 0 1 [0, 1, 0, 0]).body.getD 0 0) (msgOf 3 0
      1 [0, 1, 0, 0]).src ≠ 15 && ringPos (hopHeard 0 (hopBad 0 (ringMsgOf 3 0 1 [0, 1, 0, 0]) (wLate
      wEnum).freshOut)) ((msgOf 3 0 1 [0, 1, 0, 0]).body.getD 0 0) (msgOf 3 0 1 [0, 1, 0, 0]).src ≠ ((msgOf 3 0 1
      [0, 1, 0, 0]).body.getD 1 0)) = false) ∧
    (0 < 2 ∧ ringRuns (wLate wRun) = true ∧ mgmtHeld (wLate wRun) = false ∧ hopLocked (wLate wRun) 0 = true ∧
      intactMsg (ringMsgOf 3 0 1 [0, 1, 0, 0]) = some (msgOf 3 0 1 [0, 1, 0, 0]) ∧ (msgOf 3 0 1 [0, 1, 0, 0]).type =
      3 ∧ hopState (hopBad 0 (ringMsgOf 3 0 1 [0, 1, 0, 0]) (wLate wRun).freshOut) 0 ≠ hopCrossed ∧ (msgOf 3 0 1 [0,
      1, 0, 0]).dest = ownId (hopHeard 0 (hopBad 0 (ringMsgOf 3 0 1 [0, 1, 0, 0]) (wLate wRun).freshOut)) ∧ (isHead
      (hopHeard 0 (hopBad 0 (ringMsgOf 3 0 1 [0, 1, 0, 0]) (wLate wRun).freshOut)) && (hopHeard 0 (hopBad 0
      (ringMsgOf 3 0 1 [0, 1, 0, 0]) (wLate wRun).freshOut)).ring.enumAt.isSome) = false) ∧
    (0 < 2 ∧ ringRuns (wLate wRun) = true ∧ mgmtHeld (wLate wRun) = false ∧ hopLocked (wLate wRun) 0 = true ∧
      intactMsg (ringMsgOf 12 1 1 [0, 0]) = some (msgOf 12 1 1 [0, 0]) ∧ (msgOf 12 1 1 [0, 0]).type = 12 ∧ hopState
      (hopBad 0 (ringMsgOf 12 1 1 [0, 0]) (wLate wRun).freshOut) 0 ≠ hopCrossed ∧ (msgOf 12 1 1 [0, 0]).src ≠ ownId
      (hopHeard 0 (hopBad 0 (ringMsgOf 12 1 1 [0, 0]) (wLate wRun).freshOut)) ∧ (msgOf 12 1 1 [0, 0]).dest ≠ ownId
      (hopHeard 0 (hopBad 0 (ringMsgOf 12 1 1 [0, 0]) (wLate wRun).freshOut))) ∧
    (0 < 2 ∧ ringRuns (wLate wRun) = true ∧ mgmtHeld (wLate wRun) = false ∧ hopLocked (wLate wRun) 0 = true ∧
      intactMsg (ringMsgOf 12 0 1 [0, 0]) = some (msgOf 12 0 1 [0, 0]) ∧ (msgOf 12 0 1 [0, 0]).type = 12 ∧ hopState
      (hopBad 0 (ringMsgOf 12 0 1 [0, 0]) (wLate wRun).freshOut) 0 ≠ hopCrossed ∧ (msgOf 12 0 1 [0, 0]).src ≠ ownId
      (hopHeard 0 (hopBad 0 (ringMsgOf 12 0 1 [0, 0]) (wLate wRun).freshOut)) ∧ (msgOf 12 0 1 [0, 0]).dest = ownId
      (hopHeard 0 (hopBad 0 (ringMsgOf 12 0 1 [0, 0]) (wLate wRun).freshOut))) ∧
    (0 < 2 ∧ ringRuns (wLate wRun) = true ∧ mgmtHeld (wLate wRun) = false ∧ hopLocked (wLate wRun) 0 = true ∧
      intactMsg (ringMsgOf 12 0 0 [0, 0]) = some (msgOf 12 0 0 [0, 0]) ∧ (msgOf 12 0 0 [0, 0]).type = 12 ∧ hopState
      (hopBad 0 (ringMsgOf 12 0 0 [0, 0]) (wLate wRun).freshOut) 0 ≠ hopCrossed ∧ (msgOf 12 0 0 [0, 0]).src = ownId
      (hopHeard 0 (hopBad 0 (ringMsgOf 12 0 0 [0, 0]) (wLate wRun).freshOut))) ∧
    (0 < 2 ∧ ringRuns (wLate wRun) = true ∧ mgmtHeld (wLate wRun) = false ∧ hopLocked (wLate wRun) 0 = true ∧
      intactMsg (ringMsgOf 11 0 1 [0, 0]) = some (msgOf 11 0 1 [0, 0]) ∧ (msgOf 11 0 1 [0, 0]).type = 11 ∧ hopState
      (hopBad 0 (ringMsgOf 11 0 1 [0, 0]) (wLate wRun).freshOut) 0 ≠ hopCrossed ∧ (msgOf 11 0 1 [0, 0]).dest = ownId
      (hopHeard 0 (hopBad 0 (ringMsgOf 11 0 1 [0, 0]) (wLate wRun).freshOut)) ∧ isHead (hopHeard 0 (hopBad 0
      (ringMsgOf 11 0 1 [0, 0]) (wLate wRun).freshOut)) = true) ∧
    (0 < 2 ∧ ringRuns (wLate wFar) = true ∧ mgmtHeld (wLate wFar) = false ∧ hopLocked (wLate wFar) 0 = true ∧
      intactMsg (ringMsgOf 11 1 0 [0, 0]) = some (msgOf 11 1 0 [0, 0]) ∧ (msgOf 11 1 0 [0, 0]).type = 11 ∧ hopState
      (hopBad 0 (ringMsgOf 11 1 0 [0, 0]) (wLate wFar).freshOut) 0 ≠ hopCrossed ∧ (msgOf 11 1 0 [0, 0]).dest = ownId
      (hopHeard 0 (hopBad 0 (ringMsgOf 11 1 0 [0, 0]) (wLate wFar).freshOut)) ∧ isHead (hopHeard 0 (hopBad 0
      (ringMsgOf 11 1 0 [0, 0]) (wLate wFar).freshOut)) = false) ∧
    (0 < 2 ∧ ringRuns (wLate wFar) = true ∧ mgmtHeld (wLate wFar) = false ∧ hopLocked (wLate wFar) 0 = true ∧
      intactMsg (ringMsgOf 4 2 2 [0, 0, 0, 0, 0, 0, 0, 9, 0, 0]) = some (msgOf 4 2 2 [0, 0, 0, 0, 0, 0, 0, 9, 0, 0])
      ∧ (msgOf 4 2 2 [0, 0, 0, 0, 0, 0, 0, 9, 0, 0]).type = 4 ∧ hopState (hopBad 0 (ringMsgOf 4 2 2 [0, 0, 0, 0, 0,
      0, 0, 9, 0, 0]) (wLate wFar).freshOut) 0 ≠ hopCrossed ∧ (msgOf 4 2 2 [0, 0, 0, 0, 0, 0, 0, 9, 0, 0]).src ≠
      ownId (hopHeard 0 (hopBad 0 (ringMsgOf 4 2 2 [0, 0, 0, 0, 0, 0, 0, 9, 0, 0]) (wLate wFar).freshOut)) ∧ (msgOf
      4 2 2 [0, 0, 0, 0, 0, 0, 0, 9, 0, 0]).dest ≠ ownId (hopHeard 0 (hopBad 0 (ringMsgOf 4 2 2 [0, 0, 0, 0, 0, 0,
      0, 9, 0, 0]) (wLate wFar).freshOut)) ∧ timeRing (hopHeard 0 (hopBad 0 (ringMsgOf 4 2 2 [0, 0, 0, 0, 0, 0, 0,
      9, 0, 0]) (wLate wFar).freshOut)) = some 0) ∧
    (0 < 2 ∧ ringRuns (wLate wRun) = true ∧ mgmtHeld (wLate wRun) = false ∧ hopLocked (wLate wRun) 0 = true ∧
      intactMsg (ringMsgOf 4 2 2 [0, 0, 0, 0, 0, 0, 0, 9, 0, 0]) = some (msgOf 4 2 2 [0, 0, 0, 0, 0, 0, 0, 9, 0, 0])
      ∧ (msgOf 4 2 2 [0, 0, 0, 0, 0, 0, 0, 9, 0, 0]).type = 4 ∧ hopState (hopBad 0 (ringMsgOf 4 2 2 [0, 0, 0, 0, 0,
      0, 0, 9, 0, 0]) (wLate wRun).freshOut) 0 ≠ hopCrossed ∧ (msgOf 4 2 2 [0, 0, 0, 0, 0, 0, 0, 9, 0, 0]).src ≠
      ownId (hopHeard 0 (hopBad 0 (ringMsgOf 4 2 2 [0, 0, 0, 0, 0, 0, 0, 9, 0, 0]) (wLate wRun).freshOut)) ∧ (msgOf
      4 2 2 [0, 0, 0, 0, 0, 0, 0, 9, 0, 0]).dest ≠ ownId (hopHeard 0 (hopBad 0 (ringMsgOf 4 2 2 [0, 0, 0, 0, 0, 0,
      0, 9, 0, 0]) (wLate wRun).freshOut)) ∧ timeRing (hopHeard 0 (hopBad 0 (ringMsgOf 4 2 2 [0, 0, 0, 0, 0, 0, 0,
      9, 0, 0]) (wLate wRun).freshOut)) ≠ some 0) ∧
    (0 < 2 ∧ ringRuns (wLate wRun) = true ∧ mgmtHeld (wLate wRun) = false ∧ hopLocked (wLate wRun) 0 = true ∧
      intactMsg (ringMsgOf 4 0 0 [0, 0, 0, 0, 0, 0, 0, 9, 0, 0]) = some (msgOf 4 0 0 [0, 0, 0, 0, 0, 0, 0, 9, 0, 0])
      ∧ (msgOf 4 0 0 [0, 0, 0, 0, 0, 0, 0, 9, 0, 0]).type = 4 ∧ hopState (hopBad 0 (ringMsgOf 4 0 0 [0, 0, 0, 0, 0,
      0, 0, 9, 0, 0]) (wLate wRun).freshOut) 0 ≠ hopCrossed ∧ (msgOf 4 0 0 [0, 0, 0, 0, 0, 0, 0, 9, 0, 0]).src =
      ownId (hopHeard 0 (hopBad 0 (ringMsgOf 4 0 0 [0, 0, 0, 0, 0, 0, 0, 9, 0, 0]) (wLate wRun).freshOut))) ∧
    (0 < 2 ∧ ringRuns (wLate wRun) = true ∧ mgmtHeld (wLate wRun) = false ∧ hopLocked (wLate wRun) 0 = true ∧
      intactMsg (ringMsgOf 5 1 1 [0, 0, 0, 0, 0, 0, 0, 9]) = some (msgOf 5 1 1 [0, 0, 0, 0, 0, 0, 0, 9]) ∧ (msgOf 5
      1 1 [0, 0, 0, 0, 0, 0, 0, 9]).type = 5 ∧ hopState (hopBad 0 (ringMsgOf 5 1 1 [0, 0, 0, 0, 0, 0, 0, 9]) (wLate
      wRun).freshOut) 0 ≠ hopCrossed ∧ (msgOf 5 1 1 [0, 0, 0, 0, 0, 0, 0, 9]).src ≠ ownId (hopHeard 0 (hopBad 0
      (ringMsgOf 5 1 1 [0, 0, 0, 0, 0, 0, 0, 9]) (wLate wRun).freshOut)) ∧ (msgOf 5 1 1 [0, 0, 0, 0, 0, 0, 0,
      9]).dest ≠ ownId (hopHeard 0 (hopBad 0 (ringMsgOf 5 1 1 [0, 0, 0, 0, 0, 0, 0, 9]) (wLate wRun).freshOut))) ∧
    (0 < 2 ∧ ringRuns (wLate wRun) = true ∧ mgmtHeld (wLate wRun) = false ∧ hopLocked (wLate wRun) 0 = true ∧
      intactMsg (ringMsgOf 5 0 1 [0, 0, 0, 0, 0, 0, 0, 9]) = some (msgOf 5 0 1 [0, 0, 0, 0, 0, 0, 0, 9]) ∧ (msgOf 5
      0 1 [0, 0, 0, 0, 0, 0, 0, 9]).type = 5 ∧ hopState (hopBad 0 (ringMsgOf 5 0 1 [0, 0, 0, 0, 0, 0, 0, 9]) (wLate
      wRun).freshOut) 0 ≠ hopCrossed ∧ (msgOf 5 0 1 [0, 0, 0, 0, 0, 0, 0, 9]).src ≠ ownId (hopHeard 0 (hopBad 0
      (ringMsgOf 5 0 1 [0, 0, 0, 0, 0, 0, 0, 9]) (wLate wRun).freshOut)) ∧ (msgOf 5 0 1 [0, 0, 0, 0, 0, 0, 0,
      9]).dest = ownId (hopHeard 0 (hopBad 0 (ringMsgOf 5 0 1 [0, 0, 0, 0, 0, 0, 0, 9]) (wLate wRun).freshOut))) ∧
    (0 < 2 ∧ ringRuns (wLate wRun) = true ∧ mgmtHeld (wLate wRun) = false ∧ hopLocked (wLate wRun) 0 = true ∧
      intactMsg (ringMsgOf 5 0 0 [0, 0, 0, 0, 0, 0, 0, 9]) = some (msgOf 5 0 0 [0, 0, 0, 0, 0, 0, 0, 9]) ∧ (msgOf 5
      0 0 [0, 0, 0, 0, 0, 0, 0, 9]).type = 5 ∧ hopState (hopBad 0 (ringMsgOf 5 0 0 [0, 0, 0, 0, 0, 0, 0, 9]) (wLate
      wRun).freshOut) 0 ≠ hopCrossed ∧ (msgOf 5 0 0 [0, 0, 0, 0, 0, 0, 0, 9]).src = ownId (hopHeard 0 (hopBad 0
      (ringMsgOf 5 0 0 [0, 0, 0, 0, 0, 0, 0, 9]) (wLate wRun).freshOut))) ∧
    (0 < 2 ∧ ringRuns (wLate wRun) = true ∧ mgmtHeld (wLate wRun) = false ∧ hopLocked (wLate wRun) 0 = true ∧
      intactMsg (ringMsgOf 10 0 1 [0, 0]) = some (msgOf 10 0 1 [0, 0]) ∧ (msgOf 10 0 1 [0, 0]).type = 10 ∧ hopState
      (hopBad 0 (ringMsgOf 10 0 1 [0, 0]) (wLate wRun).freshOut) 0 ≠ hopCrossed ∧ (msgOf 10 0 1 [0, 0]).dest = ownId
      (hopHeard 0 (hopBad 0 (ringMsgOf 10 0 1 [0, 0]) (wLate wRun).freshOut)) ∧ isHead (hopHeard 0 (hopBad 0
      (ringMsgOf 10 0 1 [0, 0]) (wLate wRun).freshOut)) = true) ∧
    (0 < 2 ∧ ringRuns (wLate wFar) = true ∧ mgmtHeld (wLate wFar) = false ∧ hopLocked (wLate wFar) 0 = true ∧
      intactMsg (ringMsgOf 10 1 0 [0, 0]) = some (msgOf 10 1 0 [0, 0]) ∧ (msgOf 10 1 0 [0, 0]).type = 10 ∧ hopState
      (hopBad 0 (ringMsgOf 10 1 0 [0, 0]) (wLate wFar).freshOut) 0 ≠ hopCrossed ∧ (msgOf 10 1 0 [0, 0]).dest = ownId
      (hopHeard 0 (hopBad 0 (ringMsgOf 10 1 0 [0, 0]) (wLate wFar).freshOut)) ∧ isHead (hopHeard 0 (hopBad 0
      (ringMsgOf 10 1 0 [0, 0]) (wLate wFar).freshOut)) = false) ∧
    (0 < 2 ∧ ringRuns (wLate wRun) = true ∧ mgmtHeld (wLate wRun) = false ∧ hopLocked (wLate wRun) 0 = true ∧
      intactMsg (ringMsgOf 6 0 1 [1, 0, 0, 0, 0, 0, 0, 0, 0]) = some (msgOf 6 0 1 [1, 0, 0, 0, 0, 0, 0, 0, 0]) ∧
      (msgOf 6 0 1 [1, 0, 0, 0, 0, 0, 0, 0, 0]).type = 6 ∧ hopState (hopBad 0 (ringMsgOf 6 0 1 [1, 0, 0, 0, 0, 0, 0,
      0, 0]) (wLate wRun).freshOut) 0 ≠ hopCrossed ∧ (msgOf 6 0 1 [1, 0, 0, 0, 0, 0, 0, 0, 0]).dest = ownId
      (hopHeard 0 (hopBad 0 (ringMsgOf 6 0 1 [1, 0, 0, 0, 0, 0, 0, 0, 0]) (wLate wRun).freshOut)) ∧ ((msgOf 6 0 1
      [1, 0, 0, 0, 0, 0, 0, 0, 0]).src ≠ 0 || 2 ≤ ((msgOf 6 0 1 [1, 0, 0, 0, 0, 0, 0, 0, 0]).body.getD 1 0)) = true)
      ∧
    (0 < 2 ∧ ringRuns (wLate wRun) = true ∧ mgmtHeld (wLate wRun) = false ∧ hopLocked (wLate wRun) 0 = true ∧
      intactMsg (ringMsgOf 6 0 0 [1, 0, 0, 0, 1, 0, 0, 0, 0]) = some (msgOf 6 0 0 [1, 0, 0, 0, 1, 0, 0, 0, 0]) ∧
      (msgOf 6 0 0 [1, 0, 0, 0, 1, 0, 0, 0, 0]).type = 6 ∧ hopState (hopBad 0 (ringMsgOf 6 0 0 [1, 0, 0, 0, 1, 0, 0,
      0, 0]) (wLate wRun).freshOut) 0 ≠ hopCrossed ∧ (msgOf 6 0 0 [1, 0, 0, 0, 1, 0, 0, 0, 0]).dest = ownId
      (hopHeard 0 (hopBad 0 (ringMsgOf 6 0 0 [1, 0, 0, 0, 1, 0, 0, 0, 0]) (wLate wRun).freshOut)) ∧ (msgOf 6 0 0 [1,
      0, 0, 0, 1, 0, 0, 0, 0]).src = 0 ∧ ((msgOf 6 0 0 [1, 0, 0, 0, 1, 0, 0, 0, 0]).body.getD 1 0) < 2 ∧ badRange
      (beNat (((msgOf 6 0 0 [1, 0, 0, 0, 1, 0, 0, 0, 0]).body.drop 2).take 3)) 1 = true) ∧
    (0 < 2 ∧ ringRuns (wLate wSoft) = true ∧ mgmtHeld (wLate wSoft) = false ∧ hopLocked (wLate wSoft) 0 = true ∧
      intactMsg (ringMsgOf 6 0 0 [1, 1, 0, 0, 12, 0, 0, 0, 1]) = some (msgOf 6 0 0 [1, 1, 0, 0, 12, 0, 0, 0, 1]) ∧
      (msgOf 6 0 0 [1, 1, 0, 0, 12, 0, 0, 0, 1]).type = 6 ∧ hopState (hopBad 0 (ringMsgOf 6 0 0 [1, 1, 0, 0, 12, 0,
      0, 0, 1]) (wLate wSoft).freshOut) 0 ≠ hopCrossed ∧ (msgOf 6 0 0 [1, 1, 0, 0, 12, 0, 0, 0, 1]).dest = ownId
      (hopHeard 0 (hopBad 0 (ringMsgOf 6 0 0 [1, 1, 0, 0, 12, 0, 0, 0, 1]) (wLate wSoft).freshOut)) ∧ (msgOf 6 0 0
      [1, 1, 0, 0, 12, 0, 0, 0, 1]).src = 0 ∧ ((msgOf 6 0 0 [1, 1, 0, 0, 12, 0, 0, 0, 1]).body.getD 1 0) < 2 ∧
      badRange (beNat (((msgOf 6 0 0 [1, 1, 0, 0, 12, 0, 0, 0, 1]).body.drop 2).take 3)) 1 = false ∧ (((msgOf 6 0 0
      [1, 1, 0, 0, 12, 0, 0, 0, 1]).body.getD 1 0) = 1 && goIgnored (hopHeard 0 (hopBad 0 (ringMsgOf 6 0 0 [1, 1, 0,
      0, 12, 0, 0, 0, 1]) (wLate wSoft).freshOut)) (beNat (((msgOf 6 0 0 [1, 1, 0, 0, 12, 0, 0, 0, 1]).body.drop
      2).take 3))) = true) ∧
    (0 < 2 ∧ ringRuns (wLate wSoft) = true ∧ mgmtHeld (wLate wSoft) = false ∧ hopLocked (wLate wSoft) 0 = true ∧
      intactMsg (ringMsgOf 6 0 0 [1, 0, 0, 0, 0, 0, 0, 0, 0]) = some (msgOf 6 0 0 [1, 0, 0, 0, 0, 0, 0, 0, 0]) ∧
      (msgOf 6 0 0 [1, 0, 0, 0, 0, 0, 0, 0, 0]).type = 6 ∧ hopState (hopBad 0 (ringMsgOf 6 0 0 [1, 0, 0, 0, 0, 0, 0,
      0, 0]) (wLate wSoft).freshOut) 0 ≠ hopCrossed ∧ (msgOf 6 0 0 [1, 0, 0, 0, 0, 0, 0, 0, 0]).dest = ownId
      (hopHeard 0 (hopBad 0 (ringMsgOf 6 0 0 [1, 0, 0, 0, 0, 0, 0, 0, 0]) (wLate wSoft).freshOut)) ∧ (msgOf 6 0 0
      [1, 0, 0, 0, 0, 0, 0, 0, 0]).src = 0 ∧ ((msgOf 6 0 0 [1, 0, 0, 0, 0, 0, 0, 0, 0]).body.getD 1 0) < 2 ∧
      badRange (beNat (((msgOf 6 0 0 [1, 0, 0, 0, 0, 0, 0, 0, 0]).body.drop 2).take 3)) 1 = false ∧ (((msgOf 6 0 0
      [1, 0, 0, 0, 0, 0, 0, 0, 0]).body.getD 1 0) = 1 && goIgnored (hopHeard 0 (hopBad 0 (ringMsgOf 6 0 0 [1, 0, 0,
      0, 0, 0, 0, 0, 0]) (wLate wSoft).freshOut)) (beNat (((msgOf 6 0 0 [1, 0, 0, 0, 0, 0, 0, 0, 0]).body.drop
      2).take 3))) = false ∧ mustWait (hopHeard 0 (hopBad 0 (ringMsgOf 6 0 0 [1, 0, 0, 0, 0, 0, 0, 0, 0]) (wLate
      wSoft).freshOut)) 2 (beNat (((msgOf 6 0 0 [1, 0, 0, 0, 0, 0, 0, 0, 0]).body.drop 2).take 3)) = true) ∧
    (0 < 2 ∧ ringRuns (wLate wRun) = true ∧ mgmtHeld (wLate wRun) = false ∧ hopLocked (wLate wRun) 0 = true ∧
      intactMsg (ringMsgOf 6 0 0 [1, 1, 0, 0, 64, 0, 0, 0, 1]) = some (msgOf 6 0 0 [1, 1, 0, 0, 64, 0, 0, 0, 1]) ∧
      (msgOf 6 0 0 [1, 1, 0, 0, 64, 0, 0, 0, 1]).type = 6 ∧ hopState (hopBad 0 (ringMsgOf 6 0 0 [1, 1, 0, 0, 64, 0,
      0, 0, 1]) (wLate wRun).freshOut) 0 ≠ hopCrossed ∧ (msgOf 6 0 0 [1, 1, 0, 0, 64, 0, 0, 0, 1]).dest = ownId
      (hopHeard 0 (hopBad 0 (ringMsgOf 6 0 0 [1, 1, 0, 0, 64, 0, 0, 0, 1]) (wLate wRun).freshOut)) ∧ (msgOf 6 0 0
      [1, 1, 0, 0, 64, 0, 0, 0, 1]).src = 0 ∧ ((msgOf 6 0 0 [1, 1, 0, 0, 64, 0, 0, 0, 1]).body.getD 1 0) < 2 ∧
      badRange (beNat (((msgOf 6 0 0 [1, 1, 0, 0, 64, 0, 0, 0, 1]).body.drop 2).take 3)) 1 = false ∧ (msgOf 6 0 0
      [1, 1, 0, 0, 64, 0, 0, 0, 1]).body.getD 1 0 = 1 ∧ goIgnored (hopHeard 0 (hopBad 0 (ringMsgOf 6 0 0 [1, 1, 0,
      0, 64, 0, 0, 0, 1]) (wLate wRun).freshOut)) (beNat (((msgOf 6 0 0 [1, 1, 0, 0, 64, 0, 0, 0, 1]).body.drop
      2).take 3)) = false ∧ mustWait (hopHeard 0 (hopBad 0 (ringMsgOf 6 0 0 [1, 1, 0, 0, 64, 0, 0, 0, 1]) (wLate
      wRun).freshOut)) 2 (beNat (((msgOf 6 0 0 [1, 1, 0, 0, 64, 0, 0, 0, 1]).body.drop 2).take 3)) = false) ∧
    (0 < 2 ∧ ringRuns (wLate wRun) = true ∧ mgmtHeld (wLate wRun) = false ∧ hopLocked (wLate wRun) 0 = true ∧
      intactMsg (ringMsgOf 6 0 0 [1, 0, 0, 0, 0, 0, 0, 0, 0]) = some (msgOf 6 0 0 [1, 0, 0, 0, 0, 0, 0, 0, 0]) ∧
      (msgOf 6 0 0 [1, 0, 0, 0, 0, 0, 0, 0, 0]).type = 6 ∧ hopState (hopBad 0 (ringMsgOf 6 0 0 [1, 0, 0, 0, 0, 0, 0,
      0, 0]) (wLate wRun).freshOut) 0 ≠ hopCrossed ∧ (msgOf 6 0 0 [1, 0, 0, 0, 0, 0, 0, 0, 0]).dest = ownId
      (hopHeard 0 (hopBad 0 (ringMsgOf 6 0 0 [1, 0, 0, 0, 0, 0, 0, 0, 0]) (wLate wRun).freshOut)) ∧ (msgOf 6 0 0 [1,
      0, 0, 0, 0, 0, 0, 0, 0]).src = 0 ∧ ((msgOf 6 0 0 [1, 0, 0, 0, 0, 0, 0, 0, 0]).body.getD 1 0) < 2 ∧ badRange
      (beNat (((msgOf 6 0 0 [1, 0, 0, 0, 0, 0, 0, 0, 0]).body.drop 2).take 3)) 1 = false ∧ ((msgOf 6 0 0 [1, 0, 0,
      0, 0, 0, 0, 0, 0]).body.getD 1 0) ≠ 1 ∧ mustWait (hopHeard 0 (hopBad 0 (ringMsgOf 6 0 0 [1, 0, 0, 0, 0, 0, 0,
      0, 0]) (wLate wRun).freshOut)) 2 (beNat (((msgOf 6 0 0 [1, 0, 0, 0, 0, 0, 0, 0, 0]).body.drop 2).take 3)) =
      false ∧ (hostRead 0 (hopHeard 0 (hopBad 0 (ringMsgOf 6 0 0 [1, 0, 0, 0, 0, 0, 0, 0, 0]) (wLate
      wRun).freshOut))) = hostRead (beNat (((msgOf 6 0 0 [1, 0, 0, 0, 0, 0, 0, 0, 0]).body.drop 2).take 3))
      (hopHeard 0 (hopBad 0 (ringMsgOf 6 0 0 [1, 0, 0, 0, 0, 0, 0, 0, 0]) (wLate wRun).freshOut))) ∧
    (0 < 2 ∧ ringRuns (wLate wRun) = true ∧ mgmtHeld (wLate wRun) = false ∧ hopLocked (wLate wRun) 0 = true ∧
      intactMsg (ringMsgOf 7 0 1 [1, 0, 0, 0, 0, 0]) = some (msgOf 7 0 1 [1, 0, 0, 0, 0, 0]) ∧ (msgOf 7 0 1 [1, 0,
      0, 0, 0, 0]).type = 7 ∧ hopState (hopBad 0 (ringMsgOf 7 0 1 [1, 0, 0, 0, 0, 0]) (wLate wRun).freshOut) 0 ≠
      hopCrossed ∧ (msgOf 7 0 1 [1, 0, 0, 0, 0, 0]).dest = ownId (hopHeard 0 (hopBad 0 (ringMsgOf 7 0 1 [1, 0, 0, 0,
      0, 0]) (wLate wRun).freshOut)) ∧ portOfTag (hopHeard 0 (hopBad 0 (ringMsgOf 7 0 1 [1, 0, 0, 0, 0, 0]) (wLate
      wRun).freshOut)) ((msgOf 7 0 1 [1, 0, 0, 0, 0, 0]).body.getD 0 0) = none) ∧
    (0 < 2 ∧ ringRuns wRemote1 = true ∧ mgmtHeld wRemote1 = false ∧ hopLocked wRemote1 0 = true ∧ intactMsg
      (ringMsgOf 7 0 1 [5, 0, 0, 0, 0, 7]) = some (msgOf 7 0 1 [5, 0, 0, 0, 0, 7]) ∧ (msgOf 7 0 1 [5, 0, 0, 0, 0,
      7]).type = 7 ∧ hopState (hopBad 0 (ringMsgOf 7 0 1 [5, 0, 0, 0, 0, 7]) wRemote1.freshOut) 0 ≠ hopCrossed ∧
      portOfTag (hopHeard 0 (hopBad 0 (ringMsgOf 7 0 1 [5, 0, 0, 0, 0, 7]) wRemote1.freshOut)) ((msgOf 7 0 1 [5, 0,
      0, 0, 0, 7]).body.getD 0 0) = some (0, (({ target := 1, tag := 5, left := [0] } : Remote))) ∧ (msgOf 7 0 1 [5,
      0, 0, 0, 0, 7]).dest = ownId (hopHeard 0 (hopBad 0 (ringMsgOf 7 0 1 [5, 0, 0, 0, 0, 7]) wRemote1.freshOut)) ∧
      (({ (({ target := 1, tag := 5, left := [0] } : Remote)) with got := (({ target := 1, tag := 5, left := [0] } : Remote)).got ++ [beNat ((msgOf 7 0 1 [5, 0, 0, 0, 0, 7]).body.drop 2)], left := (({ target := 1, tag := 5, left := [0] } : Remote)).left.drop 1, addr := (({ target := 1, tag := 5, left := [0] } : Remote)).addr + 4, status := firstBad (({ target := 1, tag := 5, left := [0] } : Remote)).status ((msgOf 7 0 1 [5, 0, 0, 0, 0, 7]).body.getD 1 0) }
      : Remote)).left = []) ∧
    (0 < 2 ∧ ringRuns wRemote2 = true ∧ mgmtHeld wRemote2 = false ∧ hopLocked wRemote2 0 = true ∧ intactMsg
      (ringMsgOf 7 0 1 [5, 0, 0, 0, 0, 7]) = some (msgOf 7 0 1 [5, 0, 0, 0, 0, 7]) ∧ (msgOf 7 0 1 [5, 0, 0, 0, 0,
      7]).type = 7 ∧ hopState (hopBad 0 (ringMsgOf 7 0 1 [5, 0, 0, 0, 0, 7]) wRemote2.freshOut) 0 ≠ hopCrossed ∧
      portOfTag (hopHeard 0 (hopBad 0 (ringMsgOf 7 0 1 [5, 0, 0, 0, 0, 7]) wRemote2.freshOut)) ((msgOf 7 0 1 [5, 0,
      0, 0, 0, 7]).body.getD 0 0) = some (0, (({ target := 1, tag := 5, left := [0, 0] } : Remote))) ∧ (msgOf 7 0 1
      [5, 0, 0, 0, 0, 7]).dest = ownId (hopHeard 0 (hopBad 0 (ringMsgOf 7 0 1 [5, 0, 0, 0, 0, 7])
      wRemote2.freshOut)) ∧
      (({ (({ target := 1, tag := 5, left := [0, 0] } : Remote)) with got := (({ target := 1, tag := 5, left := [0, 0] } : Remote)).got ++ [beNat ((msgOf 7 0 1 [5, 0, 0, 0, 0, 7]).body.drop 2)], left := (({ target := 1, tag := 5, left := [0, 0] } : Remote)).left.drop 1, addr := (({ target := 1, tag := 5, left := [0, 0] } : Remote)).addr + 4, status := firstBad (({ target := 1, tag := 5, left := [0, 0] } : Remote)).status ((msgOf 7 0 1 [5, 0, 0, 0, 0, 7]).body.getD 1 0) }
      : Remote)).left ≠ []) ∧
    (0 < 2 ∧ ringRuns (wLate wFar) = true ∧ mgmtHeld (wLate wFar) = false ∧ hopLocked (wLate wFar) 0 = true ∧
      intactMsg (ringMsgOf 8 1 0 [0, 16, 1]) = some (msgOf 8 1 0 [0, 16, 1]) ∧ (msgOf 8 1 0 [0, 16, 1]).type = 8 ∧
      hopState (hopBad 0 (ringMsgOf 8 1 0 [0, 16, 1]) (wLate wFar).freshOut) 0 ≠ hopCrossed ∧ (msgOf 8 1 0 [0, 16,
      1]).dest = ownId (hopHeard 0 (hopBad 0 (ringMsgOf 8 1 0 [0, 16, 1]) (wLate wFar).freshOut)) ∧ isHead (hopHeard
      0 (hopBad 0 (ringMsgOf 8 1 0 [0, 16, 1]) (wLate wFar).freshOut)) = false) ∧
    (0 < 2 ∧ ringRuns (wLate wWatch) = true ∧ mgmtHeld (wLate wWatch) = false ∧ hopLocked (wLate wWatch) 0 = true ∧
      intactMsg (ringMsgOf 8 0 1 [0, 16, 1]) = some (msgOf 8 0 1 [0, 16, 1]) ∧ (msgOf 8 0 1 [0, 16, 1]).type = 8 ∧
      hopState (hopBad 0 (ringMsgOf 8 0 1 [0, 16, 1]) (wLate wWatch).freshOut) 0 ≠ hopCrossed ∧ (msgOf 8 0 1 [0, 16,
      1]).dest = ownId (hopHeard 0 (hopBad 0 (ringMsgOf 8 0 1 [0, 16, 1]) (wLate wWatch).freshOut)) ∧ isHead
      (hopHeard 0 (hopBad 0 (ringMsgOf 8 0 1 [0, 16, 1]) (wLate wWatch).freshOut)) = true ∧ (hopHeard 0 (hopBad 0
      (ringMsgOf 8 0 1 [0, 16, 1]) (wLate wWatch).freshOut)).dev.phase = .watch) ∧
    (0 < 2 ∧ ringRuns (wLate wEntry) = true ∧ mgmtHeld (wLate wEntry) = false ∧ hopLocked (wLate wEntry) 0 = true ∧
      intactMsg (ringMsgOf 8 0 1 [0, 16, 1]) = some (msgOf 8 0 1 [0, 16, 1]) ∧ (msgOf 8 0 1 [0, 16, 1]).type = 8 ∧
      hopState (hopBad 0 (ringMsgOf 8 0 1 [0, 16, 1]) (wLate wEntry).freshOut) 0 ≠ hopCrossed ∧ (msgOf 8 0 1 [0, 16,
      1]).dest = ownId (hopHeard 0 (hopBad 0 (ringMsgOf 8 0 1 [0, 16, 1]) (wLate wEntry).freshOut)) ∧ isHead
      (hopHeard 0 (hopBad 0 (ringMsgOf 8 0 1 [0, 16, 1]) (wLate wEntry).freshOut)) = true ∧ (hopHeard 0 (hopBad 0
      (ringMsgOf 8 0 1 [0, 16, 1]) (wLate wEntry).freshOut)).dev.phase ≠ .watch ∧ (([false, true].any fun f =>
      bankServing (hopHeard 0 (hopBad 0 (ringMsgOf 8 0 1 [0, 16, 1]) (wLate wEntry).freshOut)) f 2 && (hopHeard 0
      (hopBad 0 (ringMsgOf 8 0 1 [0, 16, 1]) (wLate wEntry).freshOut)).rd (R.BANK_source (cls f) 2) = beNat ((msgOf
      8 0 1 [0, 16, 1]).body.take 2) % 1024 && (hopHeard 0 (hopBad 0 (ringMsgOf 8 0 1 [0, 16, 1]) (wLate
      wEntry).freshOut)).rd (R.BANK_ring (cls f) 2) = (msgOf 8 0 1 [0, 16, 1]).src) || ((hopHeard 0 (hopBad 0
      (ringMsgOf 8 0 1 [0, 16, 1]) (wLate wEntry).freshOut)).entries.any fun e => e.ring = (msgOf 8 0 1 [0, 16,
      1]).src && e.src = beNat ((msgOf 8 0 1 [0, 16, 1]).body.take 2) % 1024)) = true) ∧
    (0 < 2 ∧ ringRuns (wLate wRun) = true ∧ mgmtHeld (wLate wRun) = false ∧ hopLocked (wLate wRun) 0 = true ∧
      intactMsg (ringMsgOf 8 0 1 [0, 16, 1]) = some (msgOf 8 0 1 [0, 16, 1]) ∧ (msgOf 8 0 1 [0, 16, 1]).type = 8 ∧
      hopState (hopBad 0 (ringMsgOf 8 0 1 [0, 16, 1]) (wLate wRun).freshOut) 0 ≠ hopCrossed ∧ (msgOf 8 0 1 [0, 16,
      1]).dest = ownId (hopHeard 0 (hopBad 0 (ringMsgOf 8 0 1 [0, 16, 1]) (wLate wRun).freshOut)) ∧ isHead (hopHeard
      0 (hopBad 0 (ringMsgOf 8 0 1 [0, 16, 1]) (wLate wRun).freshOut)) = true ∧ (hopHeard 0 (hopBad 0 (ringMsgOf 8 0
      1 [0, 16, 1]) (wLate wRun).freshOut)).dev.phase ≠ .watch ∧ (([false, true].any fun f => bankServing (hopHeard
      0 (hopBad 0 (ringMsgOf 8 0 1 [0, 16, 1]) (wLate wRun).freshOut)) f 2 && (hopHeard 0 (hopBad 0 (ringMsgOf 8 0 1
      [0, 16, 1]) (wLate wRun).freshOut)).rd (R.BANK_source (cls f) 2) = beNat ((msgOf 8 0 1 [0, 16, 1]).body.take
      2) % 1024 && (hopHeard 0 (hopBad 0 (ringMsgOf 8 0 1 [0, 16, 1]) (wLate wRun).freshOut)).rd (R.BANK_ring (cls
      f) 2) = (msgOf 8 0 1 [0, 16, 1]).src) || ((hopHeard 0 (hopBad 0 (ringMsgOf 8 0 1 [0, 16, 1]) (wLate
      wRun).freshOut)).entries.any fun e => e.ring = (msgOf 8 0 1 [0, 16, 1]).src && e.src = beNat ((msgOf 8 0 1 [0,
      16, 1]).body.take 2) % 1024)) = false) ∧
    (0 < 2 ∧ ringRuns (wLate wRun) = true ∧ mgmtHeld (wLate wRun) = false ∧ hopLocked (wLate wRun) 0 = true ∧
      intactMsg (ringMsgOf 9 0 1 [0, 16]) = some (msgOf 9 0 1 [0, 16]) ∧ (msgOf 9 0 1 [0, 16]).type = 9 ∧ hopState
      (hopBad 0 (ringMsgOf 9 0 1 [0, 16]) (wLate wRun).freshOut) 0 ≠ hopCrossed ∧ (msgOf 9 0 1 [0, 16]).dest = ownId
      (hopHeard 0 (hopBad 0 (ringMsgOf 9 0 1 [0, 16]) (wLate wRun).freshOut)) ∧ sourceExists (hopHeard 0 (hopBad 0
      (ringMsgOf 9 0 1 [0, 16]) (wLate wRun).freshOut)) (beNat (msgOf 9 0 1 [0, 16]).body % 1024) = true) ∧
    (0 < 2 ∧ ringRuns (wLate wRun) = true ∧ mgmtHeld (wLate wRun) = false ∧ hopLocked (wLate wRun) 0 = true ∧
      intactMsg (ringMsgOf 9 0 1 [3, 255]) = some (msgOf 9 0 1 [3, 255]) ∧ (msgOf 9 0 1 [3, 255]).type = 9 ∧
      hopState (hopBad 0 (ringMsgOf 9 0 1 [3, 255]) (wLate wRun).freshOut) 0 ≠ hopCrossed ∧ (msgOf 9 0 1 [3,
      255]).dest = ownId (hopHeard 0 (hopBad 0 (ringMsgOf 9 0 1 [3, 255]) (wLate wRun).freshOut)) ∧ sourceExists
      (hopHeard 0 (hopBad 0 (ringMsgOf 9 0 1 [3, 255]) (wLate wRun).freshOut)) (beNat (msgOf 9 0 1 [3, 255]).body %
      1024) = false) := by
  refine ⟨?_, ?_, ?_, ?_, ?_, ?_, ?_, ?_, ?_, ?_, ?_, ?_, ?_, ?_, ?_, ?_, ?_, ?_, ?_, ?_, ?_, ?_, ?_, ?_, ?_, ?_, ?_, ?_, ?_, ?_, ?_, ?_, ?_, ?_, ?_, ?_, ?_, ?_, ?_, ?_, ?_, ?_⟩ <;> decide +kernel

/-- The hypotheses of RingMessagesPassOn can be met. -/
theorem witness_ringMessagesPassOn :
    (0 < 2 ∧ ringRuns (wLate wRun) = true ∧ mgmtHeld (wLate wRun) = false ∧ hopLocked (wLate wRun) 0 = true ∧
      intactMsg (ringMsgOf 3 2 1 [0, 1, 0, 0]) = some (msgOf 3 2 1 [0, 1, 0, 0]) ∧ (msgOf 3 2 1 [0, 1, 0, 0]).type =
      3 ∧ hopState (hopBad 0 (ringMsgOf 3 2 1 [0, 1, 0, 0]) (wLate wRun).freshOut) 0 ≠ hopCrossed ∧ (msgOf 3 2 1 [0,
      1, 0, 0]).dest ≠ ownId (hopHeard 0 (hopBad 0 (ringMsgOf 3 2 1 [0, 1, 0, 0]) (wLate wRun).freshOut)) ∧ (msgOf 3
      2 1 [0, 1, 0, 0]).src ≠ ownId (hopHeard 0 (hopBad 0 (ringMsgOf 3 2 1 [0, 1, 0, 0]) (wLate wRun).freshOut))) ∧
    (0 < 2 ∧ ringRuns (wLate wRun) = true ∧ mgmtHeld (wLate wRun) = false ∧ hopLocked (wLate wRun) 0 = true ∧
      intactMsg (ringMsgOf 11 2 1 [0, 0]) = some (msgOf 11 2 1 [0, 0]) ∧ (msgOf 11 2 1 [0, 0]).type = 11 ∧ hopState
      (hopBad 0 (ringMsgOf 11 2 1 [0, 0]) (wLate wRun).freshOut) 0 ≠ hopCrossed ∧ (msgOf 11 2 1 [0, 0]).dest ≠ ownId
      (hopHeard 0 (hopBad 0 (ringMsgOf 11 2 1 [0, 0]) (wLate wRun).freshOut)) ∧ (msgOf 11 2 1 [0, 0]).src ≠ ownId
      (hopHeard 0 (hopBad 0 (ringMsgOf 11 2 1 [0, 0]) (wLate wRun).freshOut))) ∧
    (0 < 2 ∧ ringRuns (wLate wRun) = true ∧ mgmtHeld (wLate wRun) = false ∧ hopLocked (wLate wRun) 0 = true ∧
      intactMsg (ringMsgOf 10 2 1 [0, 0]) = some (msgOf 10 2 1 [0, 0]) ∧ (msgOf 10 2 1 [0, 0]).type = 10 ∧ hopState
      (hopBad 0 (ringMsgOf 10 2 1 [0, 0]) (wLate wRun).freshOut) 0 ≠ hopCrossed ∧ (msgOf 10 2 1 [0, 0]).dest ≠ ownId
      (hopHeard 0 (hopBad 0 (ringMsgOf 10 2 1 [0, 0]) (wLate wRun).freshOut)) ∧ (msgOf 10 2 1 [0, 0]).src ≠ ownId
      (hopHeard 0 (hopBad 0 (ringMsgOf 10 2 1 [0, 0]) (wLate wRun).freshOut))) ∧
    (0 < 2 ∧ ringRuns (wLate wRun) = true ∧ mgmtHeld (wLate wRun) = false ∧ hopLocked (wLate wRun) 0 = true ∧
      intactMsg (ringMsgOf 6 2 1 [1, 0, 0, 0, 0, 0, 0, 0, 0]) = some (msgOf 6 2 1 [1, 0, 0, 0, 0, 0, 0, 0, 0]) ∧
      (msgOf 6 2 1 [1, 0, 0, 0, 0, 0, 0, 0, 0]).type = 6 ∧ hopState (hopBad 0 (ringMsgOf 6 2 1 [1, 0, 0, 0, 0, 0, 0,
      0, 0]) (wLate wRun).freshOut) 0 ≠ hopCrossed ∧ (msgOf 6 2 1 [1, 0, 0, 0, 0, 0, 0, 0, 0]).dest ≠ ownId
      (hopHeard 0 (hopBad 0 (ringMsgOf 6 2 1 [1, 0, 0, 0, 0, 0, 0, 0, 0]) (wLate wRun).freshOut)) ∧ (msgOf 6 2 1 [1,
      0, 0, 0, 0, 0, 0, 0, 0]).src ≠ ownId (hopHeard 0 (hopBad 0 (ringMsgOf 6 2 1 [1, 0, 0, 0, 0, 0, 0, 0, 0])
      (wLate wRun).freshOut))) ∧
    (0 < 2 ∧ ringRuns (wLate wRun) = true ∧ mgmtHeld (wLate wRun) = false ∧ hopLocked (wLate wRun) 0 = true ∧
      intactMsg (ringMsgOf 7 2 1 [1, 0, 0, 0, 0, 0]) = some (msgOf 7 2 1 [1, 0, 0, 0, 0, 0]) ∧ (msgOf 7 2 1 [1, 0,
      0, 0, 0, 0]).type = 7 ∧ hopState (hopBad 0 (ringMsgOf 7 2 1 [1, 0, 0, 0, 0, 0]) (wLate wRun).freshOut) 0 ≠
      hopCrossed ∧ (msgOf 7 2 1 [1, 0, 0, 0, 0, 0]).dest ≠ ownId (hopHeard 0 (hopBad 0 (ringMsgOf 7 2 1 [1, 0, 0, 0,
      0, 0]) (wLate wRun).freshOut)) ∧ (msgOf 7 2 1 [1, 0, 0, 0, 0, 0]).src ≠ ownId (hopHeard 0 (hopBad 0 (ringMsgOf
      7 2 1 [1, 0, 0, 0, 0, 0]) (wLate wRun).freshOut))) ∧
    (0 < 2 ∧ ringRuns (wLate wRun) = true ∧ mgmtHeld (wLate wRun) = false ∧ hopLocked (wLate wRun) 0 = true ∧
      intactMsg (ringMsgOf 8 2 1 [0, 16, 1]) = some (msgOf 8 2 1 [0, 16, 1]) ∧ (msgOf 8 2 1 [0, 16, 1]).type = 8 ∧
      hopState (hopBad 0 (ringMsgOf 8 2 1 [0, 16, 1]) (wLate wRun).freshOut) 0 ≠ hopCrossed ∧ (msgOf 8 2 1 [0, 16,
      1]).dest ≠ ownId (hopHeard 0 (hopBad 0 (ringMsgOf 8 2 1 [0, 16, 1]) (wLate wRun).freshOut)) ∧ (msgOf 8 2 1 [0,
      16, 1]).src ≠ ownId (hopHeard 0 (hopBad 0 (ringMsgOf 8 2 1 [0, 16, 1]) (wLate wRun).freshOut))) ∧
    (0 < 2 ∧ ringRuns (wLate wRun) = true ∧ mgmtHeld (wLate wRun) = false ∧ hopLocked (wLate wRun) 0 = true ∧
      intactMsg (ringMsgOf 9 2 1 [0, 16]) = some (msgOf 9 2 1 [0, 16]) ∧ (msgOf 9 2 1 [0, 16]).type = 9 ∧ hopState
      (hopBad 0 (ringMsgOf 9 2 1 [0, 16]) (wLate wRun).freshOut) 0 ≠ hopCrossed ∧ (msgOf 9 2 1 [0, 16]).dest ≠ ownId
      (hopHeard 0 (hopBad 0 (ringMsgOf 9 2 1 [0, 16]) (wLate wRun).freshOut)) ∧ (msgOf 9 2 1 [0, 16]).src ≠ ownId
      (hopHeard 0 (hopBad 0 (ringMsgOf 9 2 1 [0, 16]) (wLate wRun).freshOut))) ∧
    (0 < 2 ∧ ringRuns (wLate wRun) = true ∧ mgmtHeld (wLate wRun) = false ∧ hopLocked (wLate wRun) 0 = true ∧
      intactMsg (ringMsgOf 3 2 0 [0, 1, 0, 0]) = some (msgOf 3 2 0 [0, 1, 0, 0]) ∧ (msgOf 3 2 0 [0, 1, 0, 0]).type =
      3 ∧ hopState (hopBad 0 (ringMsgOf 3 2 0 [0, 1, 0, 0]) (wLate wRun).freshOut) 0 ≠ hopCrossed ∧ (msgOf 3 2 0 [0,
      1, 0, 0]).dest ≠ ownId (hopHeard 0 (hopBad 0 (ringMsgOf 3 2 0 [0, 1, 0, 0]) (wLate wRun).freshOut)) ∧ (msgOf 3
      2 0 [0, 1, 0, 0]).src = ownId (hopHeard 0 (hopBad 0 (ringMsgOf 3 2 0 [0, 1, 0, 0]) (wLate wRun).freshOut))) ∧
    (0 < 2 ∧ ringRuns (wLate wRun) = true ∧ mgmtHeld (wLate wRun) = false ∧ hopLocked (wLate wRun) 0 = true ∧
      intactMsg (ringMsgOf 11 2 0 [0, 0]) = some (msgOf 11 2 0 [0, 0]) ∧ (msgOf 11 2 0 [0, 0]).type = 11 ∧ hopState
      (hopBad 0 (ringMsgOf 11 2 0 [0, 0]) (wLate wRun).freshOut) 0 ≠ hopCrossed ∧ (msgOf 11 2 0 [0, 0]).dest ≠ ownId
      (hopHeard 0 (hopBad 0 (ringMsgOf 11 2 0 [0, 0]) (wLate wRun).freshOut)) ∧ (msgOf 11 2 0 [0, 0]).src = ownId
      (hopHeard 0 (hopBad 0 (ringMsgOf 11 2 0 [0, 0]) (wLate wRun).freshOut))) ∧
    (0 < 2 ∧ ringRuns (wLate wRun) = true ∧ mgmtHeld (wLate wRun) = false ∧ hopLocked (wLate wRun) 0 = true ∧
      intactMsg (ringMsgOf 10 2 0 [0, 0]) = some (msgOf 10 2 0 [0, 0]) ∧ (msgOf 10 2 0 [0, 0]).type = 10 ∧ hopState
      (hopBad 0 (ringMsgOf 10 2 0 [0, 0]) (wLate wRun).freshOut) 0 ≠ hopCrossed ∧ (msgOf 10 2 0 [0, 0]).dest ≠ ownId
      (hopHeard 0 (hopBad 0 (ringMsgOf 10 2 0 [0, 0]) (wLate wRun).freshOut)) ∧ (msgOf 10 2 0 [0, 0]).src = ownId
      (hopHeard 0 (hopBad 0 (ringMsgOf 10 2 0 [0, 0]) (wLate wRun).freshOut))) ∧
    (0 < 2 ∧ ringRuns (wLate wRun) = true ∧ mgmtHeld (wLate wRun) = false ∧ hopLocked (wLate wRun) 0 = true ∧
      intactMsg (ringMsgOf 6 2 0 [1, 0, 0, 0, 0, 0, 0, 0, 0]) = some (msgOf 6 2 0 [1, 0, 0, 0, 0, 0, 0, 0, 0]) ∧
      (msgOf 6 2 0 [1, 0, 0, 0, 0, 0, 0, 0, 0]).type = 6 ∧ hopState (hopBad 0 (ringMsgOf 6 2 0 [1, 0, 0, 0, 0, 0, 0,
      0, 0]) (wLate wRun).freshOut) 0 ≠ hopCrossed ∧ (msgOf 6 2 0 [1, 0, 0, 0, 0, 0, 0, 0, 0]).dest ≠ ownId
      (hopHeard 0 (hopBad 0 (ringMsgOf 6 2 0 [1, 0, 0, 0, 0, 0, 0, 0, 0]) (wLate wRun).freshOut)) ∧ (msgOf 6 2 0 [1,
      0, 0, 0, 0, 0, 0, 0, 0]).src = ownId (hopHeard 0 (hopBad 0 (ringMsgOf 6 2 0 [1, 0, 0, 0, 0, 0, 0, 0, 0])
      (wLate wRun).freshOut))) ∧
    (0 < 2 ∧ ringRuns (wLate wRun) = true ∧ mgmtHeld (wLate wRun) = false ∧ hopLocked (wLate wRun) 0 = true ∧
      intactMsg (ringMsgOf 7 2 0 [1, 0, 0, 0, 0, 0]) = some (msgOf 7 2 0 [1, 0, 0, 0, 0, 0]) ∧ (msgOf 7 2 0 [1, 0,
      0, 0, 0, 0]).type = 7 ∧ hopState (hopBad 0 (ringMsgOf 7 2 0 [1, 0, 0, 0, 0, 0]) (wLate wRun).freshOut) 0 ≠
      hopCrossed ∧ (msgOf 7 2 0 [1, 0, 0, 0, 0, 0]).dest ≠ ownId (hopHeard 0 (hopBad 0 (ringMsgOf 7 2 0 [1, 0, 0, 0,
      0, 0]) (wLate wRun).freshOut)) ∧ (msgOf 7 2 0 [1, 0, 0, 0, 0, 0]).src = ownId (hopHeard 0 (hopBad 0 (ringMsgOf
      7 2 0 [1, 0, 0, 0, 0, 0]) (wLate wRun).freshOut))) ∧
    (0 < 2 ∧ ringRuns (wLate wRun) = true ∧ mgmtHeld (wLate wRun) = false ∧ hopLocked (wLate wRun) 0 = true ∧
      intactMsg (ringMsgOf 8 2 0 [0, 16, 1]) = some (msgOf 8 2 0 [0, 16, 1]) ∧ (msgOf 8 2 0 [0, 16, 1]).type = 8 ∧
      hopState (hopBad 0 (ringMsgOf 8 2 0 [0, 16, 1]) (wLate wRun).freshOut) 0 ≠ hopCrossed ∧ (msgOf 8 2 0 [0, 16,
      1]).dest ≠ ownId (hopHeard 0 (hopBad 0 (ringMsgOf 8 2 0 [0, 16, 1]) (wLate wRun).freshOut)) ∧ (msgOf 8 2 0 [0,
      16, 1]).src = ownId (hopHeard 0 (hopBad 0 (ringMsgOf 8 2 0 [0, 16, 1]) (wLate wRun).freshOut))) ∧
    (0 < 2 ∧ ringRuns (wLate wRun) = true ∧ mgmtHeld (wLate wRun) = false ∧ hopLocked (wLate wRun) 0 = true ∧
      intactMsg (ringMsgOf 9 2 0 [0, 16]) = some (msgOf 9 2 0 [0, 16]) ∧ (msgOf 9 2 0 [0, 16]).type = 9 ∧ hopState
      (hopBad 0 (ringMsgOf 9 2 0 [0, 16]) (wLate wRun).freshOut) 0 ≠ hopCrossed ∧ (msgOf 9 2 0 [0, 16]).dest ≠ ownId
      (hopHeard 0 (hopBad 0 (ringMsgOf 9 2 0 [0, 16]) (wLate wRun).freshOut)) ∧ (msgOf 9 2 0 [0, 16]).src = ownId
      (hopHeard 0 (hopBad 0 (ringMsgOf 9 2 0 [0, 16]) (wLate wRun).freshOut))) ∧
    (ringRuns (wLate wRun) = true ∧ mgmtHeld (wLate wRun) = false ∧ hopLocked (wLate wRun) 0 = true ∧ intactMsg [] =
      none) ∧
    (ringRuns wRun = true ∧ mgmtHeld wRun = false ∧ hopLocked wRun 0 = false) ∧
    (ringRuns State.reset = false) := by
  refine ⟨?_, ?_, ?_, ?_, ?_, ?_, ?_, ?_, ?_, ?_, ?_, ?_, ?_, ?_, ?_, ?_, ?_⟩ <;> decide +kernel

/-- The hypotheses of RingTimers can be met. -/
theorem witness_ringTimers :
    (ringRuns wRun = true) ∧
    (0 < 2 ∧ ringRuns (wLate wHop) = true ∧ mgmtHeld (wLate wHop) = false ∧ hopState (wLate wHop) 0 = hopUp ∧
      ((wLate wHop).hop 0).heardAt + 10000 ≤ (wLate wHop).clock) ∧
    (ringRuns (wLate wEnum) = true ∧ passed (wLate wEnum).ring.enumAt 100000 (wLate wEnum).clock = true) ∧
    (ringRuns wRun = true ∧ isHead wRun = true) ∧
    (ringRuns (wLate wFar) = true ∧ isHead (wLate wFar) = false ∧ (wLate wFar).ring.timeAt + 10000 ≤ (wLate
      wFar).clock) ∧
    (pageOpen wRun 0xA = true ∧ (wRun.wr R.PCT_CMD_op 0).on R.PCT_CMD_busy = false ∧ isHead (wRun.wr R.PCT_CMD_op 0)
      = true) ∧
    (pageOpen wFar 0xA = true ∧ (wFar.wr R.PCT_CMD_op 0).on R.PCT_CMD_busy = false ∧ isHead (wFar.wr R.PCT_CMD_op 0)
      = false) ∧
    (pageOpen wRun 0xA = true ∧ (wRun.wr R.PCT_CMD_op 1).on R.PCT_CMD_busy = false ∧ isHead (wRun.wr R.PCT_CMD_op 1)
      = true) ∧
    (pageOpen wFar 0xA = true ∧ (wFar.wr R.PCT_CMD_op 1).on R.PCT_CMD_busy = false ∧ isHead (wFar.wr R.PCT_CMD_op 1)
      = false) ∧
    (ringRuns wGoAuto = true ∧ isHead wGoAuto = true ∧ blindSystem wGoAuto = true ∧ wGoAuto.on R.PCT_STAT_enum_done
      = true ∧ wGoAuto.ring.enumAt.isNone = true ∧ wGoAuto.rd R.PCT_STAT_dup = 0 ∧ allReady wGoAuto = true) ∧
    (portOfTag (wLate wRemote) 5 = some (0, (({ target := 1, tag := 5 } : Remote))) ∧ (({ target := 1, tag := 5 } :
      Remote)).sentAt + 20000 ≤ (wLate wRemote).clock) ∧
    (portOfTag wRun 5 = none) := by
  refine ⟨?_, ?_, ?_, ?_, ?_, ?_, ?_, ?_, ?_, ?_, ?_, ?_⟩ <;> decide +kernel

/-- The hypotheses of SpiFramesAct can be met. -/
theorem witness_spiFramesAct :
    (portRuns wRun = true ∧ crc8 (spiBytes 1 false 1 [7]) = (crc8 (spiBytes 1 false (1) [7])) % 256 ∧ awLen 1 = 0 ∧
      badRange (awAddr 1) 1 = true) ∧
    (portRuns wRun = true ∧ crc8 (spiBytes 1 false 0 [7]) = (crc8 (spiBytes 1 false (0) [7])) % 256 ∧ awLen 0 = 0 ∧
      badRange (awAddr 0) 1 = false ∧ awTarget 0 = ownId ((wRun.bump R.HST_FRAMES_spi).freshOut)) ∧
    (portRuns wRun = true ∧ crc8 (spiBytes 1 false (2 ^ 29) [7]) = (crc8 (spiBytes 1 false (2 ^ 29) [7])) % 256 ∧
      awLen (2 ^ 29) = 0 ∧ badRange (awAddr (2 ^ 29)) 1 = false ∧ awTarget (2 ^ 29) ≠ ownId ((wRun.bump
      R.HST_FRAMES_spi).freshOut)) ∧
    (portRuns wRun = true ∧ crc8 (spiBytes 1 false (2 ^ 24) [7]) = (crc8 (spiBytes 1 false (2 ^ 24) [7])) % 256 ∧
      awLen (2 ^ 24) ≠ 0) ∧
    (portRuns wRun = true ∧ crc8 (spiBytes 1 false 0 [7]) ≠ (crc8 (spiBytes 1 false 0 [7]) + 1) % 256) ∧
    (portRuns wRun = true ∧ crc8 (spiBytes 2 false 1 []) = (crc8 (spiBytes 2 false (1) [])) % 256 ∧ awLen 1 = 0 ∧
      badRange (awAddr 1) 1 = true) ∧
    (portRuns wRun = true ∧ crc8 (spiBytes 2 false (2 ^ 29) []) = (crc8 (spiBytes 2 false (2 ^ 29) [])) % 256 ∧
      awLen (2 ^ 29) = 0 ∧ badRange (awAddr (2 ^ 29)) 1 = false ∧ awTarget (2 ^ 29) ≠ ownId ((wRun.bump
      R.HST_FRAMES_spi).freshOut)) ∧
    (portRuns wSoft = true ∧ crc8 (spiBytes 2 false 0 []) = (crc8 (spiBytes 2 false (0) [])) % 256 ∧ awLen 0 = 0 ∧
      badRange (awAddr 0) 1 = false ∧ awTarget 0 = ownId ((wSoft.bump R.HST_FRAMES_spi).freshOut) ∧ mustWait
      ((wSoft.bump R.HST_FRAMES_spi).freshOut) 0 (awAddr 0) = true) ∧
    (portRuns wRun = true ∧ crc8 (spiBytes 2 false 0 []) = (crc8 (spiBytes 2 false (0) [])) % 256 ∧ awLen 0 = 0 ∧
      badRange (awAddr 0) 1 = false ∧ awTarget 0 = ownId ((wRun.bump R.HST_FRAMES_spi).freshOut) ∧ mustWait
      ((wRun.bump R.HST_FRAMES_spi).freshOut) 0 (awAddr 0) = false ∧ true = true) ∧
    (portRuns wRun = true ∧ crc8 (spiBytes 2 false 0 []) = (crc8 (spiBytes 2 false (0) [])) % 256 ∧ awLen 0 = 0 ∧
      badRange (awAddr 0) 1 = false ∧ awTarget 0 = ownId ((wRun.bump R.HST_FRAMES_spi).freshOut) ∧ mustWait
      ((wRun.bump R.HST_FRAMES_spi).freshOut) 0 (awAddr 0) = false ∧ false = false) ∧
    (portRuns wRun = true ∧ crc8 (spiBytes 2 false (2 ^ 24) []) = (crc8 (spiBytes 2 false (2 ^ 24) [])) % 256 ∧
      awLen (2 ^ 24) ≠ 0) ∧
    (portRuns wRun = true ∧ crc8 (spiBytes 2 false 0 []) ≠ (crc8 (spiBytes 2 false 0 []) + 1) % 256) ∧
    (portRuns wRun = true ∧ crc8 (spiBytes 3 false 1 ([7])) = (crc8 (spiBytes 3 false (1) [7])) % 256 ∧ ([7]).length
      = awLen 1 + 1 ∧ badRange (awAddr 1) ([7]).length = true) ∧
    (portRuns wRun = true ∧ crc8 (spiBytes 3 false 0 ([7])) = (crc8 (spiBytes 3 false (0) [7])) % 256 ∧ ([7]).length
      = awLen 0 + 1 ∧ badRange (awAddr 0) ([7]).length = false ∧ awTarget 0 = ownId ((wRun.bump
      R.HST_FRAMES_spi).freshOut)) ∧
    (portRuns wRun = true ∧ crc8 (spiBytes 3 false (2 ^ 29) ([7])) = (crc8 (spiBytes 3 false (2 ^ 29) [7])) % 256 ∧
      ([7]).length = awLen (2 ^ 29) + 1 ∧ badRange (awAddr (2 ^ 29)) ([7]).length = false ∧ awTarget (2 ^ 29) ≠
      ownId ((wRun.bump R.HST_FRAMES_spi).freshOut)) ∧
    (portRuns wRun = true ∧ crc8 (spiBytes 3 false 0 ([7])) ≠ (crc8 (spiBytes 3 false 0 [7]) + 1) % 256 ∧
      ([7]).length = awLen 0 + 1) ∧
    (([1, 2]).length ≠ awLen 0 + 1) ∧
    (portRuns wRun = true ∧ crc8 (spiBytes 4 false 1 []) = (crc8 (spiBytes 4 false (1) [])) % 256 ∧ badRange (awAddr
      1) (awLen 1 + 1) = true) ∧
    (portRuns wRun = true ∧ crc8 (spiBytes 4 false (2 ^ 29) []) = (crc8 (spiBytes 4 false (2 ^ 29) [])) % 256 ∧
      badRange (awAddr (2 ^ 29)) (awLen (2 ^ 29) + 1) = false ∧ awTarget (2 ^ 29) ≠ ownId ((wRun.bump
      R.HST_FRAMES_spi).freshOut)) ∧
    (portRuns wSoft = true ∧ crc8 (spiBytes 4 false 0 []) = (crc8 (spiBytes 4 false (0) [])) % 256 ∧ badRange
      (awAddr 0) (awLen 0 + 1) = false ∧ awTarget 0 = ownId ((wSoft.bump R.HST_FRAMES_spi).freshOut) ∧ mustWait
      ((wSoft.bump R.HST_FRAMES_spi).freshOut) 0 (awAddr 0) = true) ∧
    (portRuns wRun = true ∧ crc8 (spiBytes 4 false 0 []) = (crc8 (spiBytes 4 false (0) [])) % 256 ∧ badRange (awAddr
      0) (awLen 0 + 1) = false ∧ awTarget 0 = ownId ((wRun.bump R.HST_FRAMES_spi).freshOut) ∧ mustWait ((wRun.bump
      R.HST_FRAMES_spi).freshOut) 0 (awAddr 0) = false ∧ true = true) ∧
    (portRuns wRun = true ∧ crc8 (spiBytes 4 false 0 []) = (crc8 (spiBytes 4 false (0) [])) % 256 ∧ badRange (awAddr
      0) (awLen 0 + 1) = false ∧ awTarget 0 = ownId ((wRun.bump R.HST_FRAMES_spi).freshOut) ∧ mustWait ((wRun.bump
      R.HST_FRAMES_spi).freshOut) 0 (awAddr 0) = false ∧ false = false) ∧
    (portRuns wRun = true ∧ crc8 (spiBytes 4 false 0 []) ≠ (crc8 (spiBytes 4 false 0 []) + 1) % 256) ∧
    (portRuns wRun = true ∧ crc8 (spiBytes 5 false 0 []) = (crc8 (spiBytes 5 false (0) [])) % 256 ∧ (0 % 2 ^ 32 = 0)
      = true ∧ (((wRun.bump R.HST_FRAMES_spi).freshOut).port 0).serial = 0) ∧
    (portRuns wHeldRes = true ∧ crc8 (spiBytes 5 false 0 []) = (crc8 (spiBytes 5 false (0) [])) % 256 ∧ (0 % 2 ^ 32
      = 0) = true ∧ (((wHeldRes.bump R.HST_FRAMES_spi).freshOut).port 0).serial ≠ 0 ∧ (((wHeldRes.bump
      R.HST_FRAMES_spi).freshOut).port 0).result = some ((0, [5]))) ∧
    (portRuns wNoRes = true ∧ crc8 (spiBytes 5 false 0 []) = (crc8 (spiBytes 5 false (0) [])) % 256 ∧ (0 % 2 ^ 32 =
      0) = true ∧ (((wNoRes.bump R.HST_FRAMES_spi).freshOut).port 0).serial ≠ 0 ∧ (((wNoRes.bump
      R.HST_FRAMES_spi).freshOut).port 0).result = none) ∧
    (portRuns wRun = true ∧ crc8 (spiBytes 5 false 4 []) = (crc8 (spiBytes 5 false (4) [])) % 256 ∧ (4 % 2 ^ 32 = 0)
      = false) ∧
    (portRuns wRun = true ∧ crc8 (spiBytes 5 false 0 []) ≠ (crc8 (spiBytes 5 false 0 []) + 1) % 256) ∧
    (portRuns wRun = true ∧ crc8 (spiBytes 6 false 0 []) = (crc8 (spiBytes 6 false (0) [])) % 256 ∧ awLen 0 = 0) ∧
    (portRuns wRun = true ∧ crc8 (spiBytes 6 false (2 ^ 24) []) = (crc8 (spiBytes 6 false (2 ^ 24) [])) % 256 ∧
      awLen (2 ^ 24) ≠ 0) ∧
    (portRuns wRun = true ∧ crc8 (spiBytes 6 false 0 []) ≠ (crc8 (spiBytes 6 false 0 []) + 1) % 256) ∧
    (portRuns wRun = true ∧ spiKnown 9 = false) ∧
    (spiKnown 1 = true) := by
  refine ⟨?_, ?_, ?_, ?_, ?_, ?_, ?_, ?_, ?_, ?_, ?_, ?_, ?_, ?_, ?_, ?_, ?_, ?_, ?_, ?_, ?_, ?_, ?_, ?_, ?_, ?_, ?_, ?_, ?_, ?_, ?_, ?_, ?_⟩ <;> decide +kernel

/-- The hypotheses of SmbusTransactionsAct can be met. -/
theorem witness_smbusTransactionsAct :
    (portRuns wRun = true ∧ pecOk (wRun.freshOut) 0x10 8 none = true ∧ (awLen 8 ≠ 0 || 8 % 4 ≠ 0) = false) ∧
    (portRuns wRun = true ∧ pecOk (wRun.freshOut) 0x10 9 none = true ∧ (awLen 9 ≠ 0 || 9 % 4 ≠ 0) = true) ∧
    (portRuns wRun = true ∧ pecOk (wRun.freshOut) 0x10 8 (some 256) = false) ∧
    (portRuns wPtrOdd = true ∧ pecOk (wPtrOdd.freshOut) 0x11 7 none = true ∧ badRange (awAddr
      (wPtrOdd.freshOut).host.ptr) 1 = true) ∧
    (portRuns wNoInc = true ∧ pecOk (wNoInc.freshOut) 0x11 7 none = true ∧ badRange (awAddr
      (wNoInc.freshOut).host.ptr) 1 = false ∧ awTarget (wNoInc.freshOut).host.ptr = ownId (wNoInc.freshOut) ∧
      (wNoInc.freshOut).on R.HST_CFG_smb_inc = false) ∧
    (portRuns wRun = true ∧ pecOk (wRun.freshOut) 0x11 7 none = true ∧ badRange (awAddr (wRun.freshOut).host.ptr) 1
      = false ∧ awTarget (wRun.freshOut).host.ptr = ownId (wRun.freshOut) ∧ (wRun.freshOut).on R.HST_CFG_smb_inc =
      true) ∧
    (portRuns wPtrFar = true ∧ pecOk (wPtrFar.freshOut) 0x11 7 none = true ∧ badRange (awAddr
      (wPtrFar.freshOut).host.ptr) 1 = false ∧ awTarget (wPtrFar.freshOut).host.ptr ≠ ownId (wPtrFar.freshOut)) ∧
    (portRuns wRun = true ∧ pecOk (wRun.freshOut) 0x11 7 (some 256) = false) ∧
    (portRuns wPtrOdd = true ∧ badRange (awAddr (wPtrOdd.freshOut).host.ptr) 1 = true) ∧
    (portRuns wPtrFar = true ∧ badRange (awAddr (wPtrFar.freshOut).host.ptr) 1 = false ∧ awTarget
      (wPtrFar.freshOut).host.ptr ≠ ownId (wPtrFar.freshOut)) ∧
    (portRuns wSoft = true ∧ badRange (awAddr (wSoft.freshOut).host.ptr) 1 = false ∧ awTarget
      (wSoft.freshOut).host.ptr = ownId (wSoft.freshOut) ∧ mustWait (wSoft.freshOut) 1 (awAddr
      (wSoft.freshOut).host.ptr) = true) ∧
    (portRuns wRun = true ∧ badRange (awAddr (wRun.freshOut).host.ptr) 1 = false ∧ awTarget (wRun.freshOut).host.ptr
      = ownId (wRun.freshOut) ∧ mustWait (wRun.freshOut) 1 (awAddr (wRun.freshOut).host.ptr) = false ∧ true = true)
      ∧
    (portRuns wRun = true ∧ badRange (awAddr (wRun.freshOut).host.ptr) 1 = false ∧ awTarget (wRun.freshOut).host.ptr
      = ownId (wRun.freshOut) ∧ mustWait (wRun.freshOut) 1 (awAddr (wRun.freshOut).host.ptr) = false ∧ false =
      false) ∧
    (portRuns wRun = true ∧ (wRun.port 1).serial = 0) ∧
    (portRuns wHeldRes = true ∧ (wHeldRes.port 1).serial ≠ 0 ∧ (wHeldRes.port 1).result = some ((0, [5]))) ∧
    (portRuns wNoRes = true ∧ (wNoRes.port 1).serial ≠ 0 ∧ (wNoRes.port 1).result = none) ∧
    (portRuns wRun = true) ∧
    (portRuns wRun = true) := by
  refine ⟨?_, ?_, ?_, ?_, ?_, ?_, ?_, ?_, ?_, ?_, ?_, ?_, ?_, ?_, ?_, ?_, ?_, ?_⟩ <;> decide +kernel

/-- The hypotheses of RegisterAccesses can be met. -/
theorem witness_registerAccesses :
    (badRange 1 1 = true) ∧
    (badRange 0 1 = false ∧ mustWait wRun 4 0 = false) ∧
    (badRange 0 1 = false ∧ mustWait wSoft 4 0 = true) ∧
    ((badRange 12 1 || goIgnored wSoft 12) = true) ∧
    (badRange 0x10 1 = false ∧ goIgnored wRun 0x10 = false ∧ mustWait wRun 4 0x10 = false) ∧
    (badRange 0x10 1 = false ∧ goIgnored wSoft 0x10 = false ∧ mustWait wSoft 4 0x10 = true) ∧
    (pageOpen wRun 0 = true ∧ wRun.on (R.SOFT_RESET_busy 0) = false) ∧
    (pageOpen wSoft 0 = true ∧ wSoft.on (R.SOFT_RESET_busy 0) = true) ∧
    (wSoft.on (R.SOFT_RESET_busy 0) = true) ∧
    (wRun.on (R.SOFT_RESET_busy 0) = false) := by
  refine ⟨?_, ?_, ?_, ?_, ?_, ?_, ?_, ?_, ?_, ?_⟩ <;> decide +kernel

/-- The hypotheses of KeysAndReports can be met. -/
theorem witness_keysAndReports :
    (pageOpen wRun 8 = true ∧ keyRefused ((wRun.wr R.KEY_CMD_op 0).wr R.KEY_CMD_slot (1 % 4)) 0 (1 % 4) = false) ∧
    (pageOpen wRun 8 = true ∧ keyRefused ((wRun.wr R.KEY_CMD_op 1).wr R.KEY_CMD_slot (1 % 4)) 1 (1 % 4) = false) ∧
    (pageOpen wRun 8 = true ∧ keyRefused ((wRun.wr R.KEY_CMD_op 2).wr R.KEY_CMD_slot (1 % 4)) 2 (1 % 4) = false) ∧
    (pageOpen wEnrolled 8 = true ∧ keyRefused ((wEnrolled.wr R.KEY_CMD_op 3).wr R.KEY_CMD_slot (1 % 4)) 3 (1 % 4) =
      false) ∧
    (pageOpen wRun 8 = true ∧ wRun.on R.ATT_CMD_busy = false ∧ wRun.on R.SEC_STAT_fuse_block = false) ∧
    (wAtt.on R.ATT_CMD_busy = true ∧ wAtt.dev.phase ≠ .off) ∧
    (wDigest.sec.digestDue = true) := by
  refine ⟨?_, ?_, ?_, ?_, ?_, ?_, ?_⟩ <;> decide +kernel

/-- The hypotheses of SelvedgeRequests can be met. -/
theorem witness_selvedgeRequests :
    (0 < linksOf wSel ∧ sideLive wSel 0 Side.a = true ∧ setArrives readSel 0 Side.a (selHeard 1) wSel = (some
      (selFrameOf 1), ((setArrives readSel 0 .a (selHeard 1) wSel).2)) ∧ selKind (selFrameOf 1) = 1 ∧ spanUp
      ((setArrives readSel 0 .a (selHeard 1) wSel).2) 0 Side.a = true ∧ ((setArrives readSel 0 .a (selHeard 1)
      wSel).2).on R.SEL_CFG_en = true ∧ pageOpen ((setArrives readSel 0 .a (selHeard 1) wSel).2) 0xB = true ∧
      selMalformed ((selFrameOf 1).map (· % 256)) = true) ∧
    (0 < linksOf wSel ∧ sideLive wSel 0 Side.a = true ∧ setArrives readSel 0 Side.a (selHeardOk 1 4 1) wSel = (some
      (selFrameOk 1 4 1 0), ((setArrives readSel 0 .a (selHeardOk 1 4 1) wSel).2)) ∧ selKind (selFrameOk 1 4 1 0) =
      1 ∧ spanUp ((setArrives readSel 0 .a (selHeardOk 1 4 1) wSel).2) 0 Side.a = true ∧ ((setArrives readSel 0 .a
      (selHeardOk 1 4 1) wSel).2).on R.SEL_CFG_en = true ∧ pageOpen ((setArrives readSel 0 .a (selHeardOk 1 4 1)
      wSel).2) 0xB = true ∧ selMalformed ((selFrameOk 1 4 1 0).map (· % 256)) = false) ∧
    (0 < linksOf wSel ∧ sideLive wSel 0 Side.a = true ∧ setArrives readSel 0 Side.a (selHeard 2) wSel = (some
      (selFrameOf 2), ((setArrives readSel 0 .a (selHeard 2) wSel).2)) ∧ selKind (selFrameOf 2) = 2 ∧ spanUp
      ((setArrives readSel 0 .a (selHeard 2) wSel).2) 0 Side.a = true ∧ ((setArrives readSel 0 .a (selHeard 2)
      wSel).2).on R.SEL_CFG_en = true ∧ pageOpen ((setArrives readSel 0 .a (selHeard 2) wSel).2) 0xB = true ∧
      selMalformed ((selFrameOf 2).map (· % 256)) = true) ∧
    (0 < linksOf wSel ∧ sideLive wSel 0 Side.a = true ∧ setArrives readSel 0 Side.a (selHeardOk 2 8 1) wSel = (some
      (selFrameOk 2 8 1 0), ((setArrives readSel 0 .a (selHeardOk 2 8 1) wSel).2)) ∧ selKind (selFrameOk 2 8 1 0) =
      2 ∧ spanUp ((setArrives readSel 0 .a (selHeardOk 2 8 1) wSel).2) 0 Side.a = true ∧ ((setArrives readSel 0 .a
      (selHeardOk 2 8 1) wSel).2).on R.SEL_CFG_en = true ∧ pageOpen ((setArrives readSel 0 .a (selHeardOk 2 8 1)
      wSel).2) 0xB = true ∧ selMalformed ((selFrameOk 2 8 1 0).map (· % 256)) = false) ∧
    (0 < linksOf wSel ∧ sideLive wSel 0 Side.a = true ∧ setArrives readSel 0 Side.a (selHeard 3) wSel = (some
      (selFrameOf 3), ((setArrives readSel 0 .a (selHeard 3) wSel).2)) ∧ selKind (selFrameOf 3) = 3 ∧ spanUp
      ((setArrives readSel 0 .a (selHeard 3) wSel).2) 0 Side.a = true ∧ ((setArrives readSel 0 .a (selHeard 3)
      wSel).2).on R.SEL_CFG_en = true ∧ pageOpen ((setArrives readSel 0 .a (selHeard 3) wSel).2) 0xB = true ∧
      selMalformed ((selFrameOf 3).map (· % 256)) = true) ∧
    (0 < linksOf wSel ∧ sideLive wSel 0 Side.a = true ∧ setArrives readSel 0 Side.a (selHeardOk 3 36 0) wSel = (some
      (selFrameOk 3 36 0 0), ((setArrives readSel 0 .a (selHeardOk 3 36 0) wSel).2)) ∧ selKind (selFrameOk 3 36 0 0)
      = 3 ∧ spanUp ((setArrives readSel 0 .a (selHeardOk 3 36 0) wSel).2) 0 Side.a = true ∧ ((setArrives readSel 0
      .a (selHeardOk 3 36 0) wSel).2).on R.SEL_CFG_en = true ∧ pageOpen ((setArrives readSel 0 .a (selHeardOk 3 36
      0) wSel).2) 0xB = true ∧ selMalformed ((selFrameOk 3 36 0 0).map (· % 256)) = false) ∧
    (pageOpen (selWith (selOne 1 1 0 1) (wRun)) 0xB = true ∧ (selWith (selOne 1 1 0 1) (wRun)).sel.queue = (selOne 1
      1 0 1) :: ([]) ∧ selKind (selOne 1 1 0 1).frame = 1 ∧ selWords (selOne 1 1 0 1).frame - (selOne 1 1 0 1).done
      = 0) ∧
    (pageOpen (selWith (selOne 2 1 0 1) (wRun)) 0xB = true ∧ (selWith (selOne 2 1 0 1) (wRun)).sel.queue = (selOne 2
      1 0 1) :: ([]) ∧ selKind (selOne 2 1 0 1).frame = 2 ∧ selWords (selOne 2 1 0 1).frame - (selOne 2 1 0 1).done
      = 0) ∧
    (pageOpen (selWith (selOne 1 1 2 0) (wRun)) 0xB = true ∧ (selWith (selOne 1 1 2 0) (wRun)).sel.queue = (selOne 1
      1 2 0) :: ([]) ∧ selKind (selOne 1 1 2 0).frame = 1 ∧ selWords (selOne 1 1 2 0).frame - (selOne 1 1 2 0).done
      = 0 + 1 ∧ badRange (selAddr (selOne 1 1 2 0).frame + 4 * (selOne 1 1 2 0).done) 1 = true) ∧
    (pageOpen (selWith (selOne 2 1 2 0) (wRun)) 0xB = true ∧ (selWith (selOne 2 1 2 0) (wRun)).sel.queue = (selOne 2
      1 2 0) :: ([]) ∧ selKind (selOne 2 1 2 0).frame = 2 ∧ selWords (selOne 2 1 2 0).frame - (selOne 2 1 2 0).done
      = 0 + 1 ∧ badRange (selAddr (selOne 2 1 2 0).frame + 4 * (selOne 2 1 2 0).done) 1 = true) ∧
    (pageOpen (selWith (selOne 2 1 0x7000 0) (wRun)) 0xB = true ∧ (selWith (selOne 2 1 0x7000 0) (wRun)).sel.queue =
      (selOne 2 1 0x7000 0) :: ([]) ∧ selKind (selOne 2 1 0x7000 0).frame = 2 ∧ selWords (selOne 2 1 0x7000 0).frame
      - (selOne 2 1 0x7000 0).done = 0 + 1 ∧ badRange (selAddr (selOne 2 1 0x7000 0).frame + 4 * (selOne 2 1 0x7000
      0).done) 1 = false ∧ selDenied (selAddr (selOne 2 1 0x7000 0).frame + 4 * (selOne 2 1 0x7000 0).done) = true)
      ∧
    (pageOpen (selWith (selOne 2 1 0x100C 0) (wSelSoft)) 0xB = true ∧ (selWith (selOne 2 1 0x100C 0)
      (wSelSoft)).sel.queue = (selOne 2 1 0x100C 0) :: ([]) ∧ selKind (selOne 2 1 0x100C 0).frame = 2 ∧ selWords
      (selOne 2 1 0x100C 0).frame - (selOne 2 1 0x100C 0).done = 0 + 1 ∧ badRange (selAddr (selOne 2 1 0x100C
      0).frame + 4 * (selOne 2 1 0x100C 0).done) 1 = false ∧ selDenied (selAddr (selOne 2 1 0x100C 0).frame + 4 *
      (selOne 2 1 0x100C 0).done) = false ∧ goIgnored (selWith (selOne 2 1 0x100C 0) (wSelSoft)).freshOut (selAddr
      (selOne 2 1 0x100C 0).frame + 4 * (selOne 2 1 0x100C 0).done) = true) ∧
    (pageOpen (selWith (selOne 2 1 0x1000 0) (wSelSoft)) 0xB = true ∧ (selWith (selOne 2 1 0x1000 0)
      (wSelSoft)).sel.queue = (selOne 2 1 0x1000 0) :: ([]) ∧ selKind (selOne 2 1 0x1000 0).frame = 2 ∧ selWords
      (selOne 2 1 0x1000 0).frame - (selOne 2 1 0x1000 0).done = 0 + 1 ∧ badRange (selAddr (selOne 2 1 0x1000
      0).frame + 4 * (selOne 2 1 0x1000 0).done) 1 = false ∧ selDenied (selAddr (selOne 2 1 0x1000 0).frame + 4 *
      (selOne 2 1 0x1000 0).done) = false ∧ goIgnored (selWith (selOne 2 1 0x1000 0) (wSelSoft)).freshOut (selAddr
      (selOne 2 1 0x1000 0).frame + 4 * (selOne 2 1 0x1000 0).done) = false ∧ pageSoftBusy (selWith (selOne 2 1
      0x1000 0) (wSelSoft)).freshOut (selAddr (selOne 2 1 0x1000 0).frame + 4 * (selOne 2 1 0x1000 0).done) = true)
      ∧
    (pageOpen (selWith (selOne 2 1 0x1000 0) (wRun)) 0xB = true ∧ (selWith (selOne 2 1 0x1000 0) (wRun)).sel.queue =
      (selOne 2 1 0x1000 0) :: ([]) ∧ selKind (selOne 2 1 0x1000 0).frame = 2 ∧ selWords (selOne 2 1 0x1000 0).frame
      - (selOne 2 1 0x1000 0).done = 0 + 1 ∧ badRange (selAddr (selOne 2 1 0x1000 0).frame + 4 * (selOne 2 1 0x1000
      0).done) 1 = false ∧ selDenied (selAddr (selOne 2 1 0x1000 0).frame + 4 * (selOne 2 1 0x1000 0).done) = false
      ∧ goIgnored (selWith (selOne 2 1 0x1000 0) (wRun)).freshOut (selAddr (selOne 2 1 0x1000 0).frame + 4 * (selOne
      2 1 0x1000 0).done) = false ∧ pageSoftBusy (selWith (selOne 2 1 0x1000 0) (wRun)).freshOut (selAddr (selOne 2
      1 0x1000 0).frame + 4 * (selOne 2 1 0x1000 0).done) = false) ∧
    (pageOpen (selWith (selOne 1 1 0x1000 0) (wSelSoft)) 0xB = true ∧ (selWith (selOne 1 1 0x1000 0)
      (wSelSoft)).sel.queue = (selOne 1 1 0x1000 0) :: ([]) ∧ selKind (selOne 1 1 0x1000 0).frame = 1 ∧ selWords
      (selOne 1 1 0x1000 0).frame - (selOne 1 1 0x1000 0).done = 0 + 1 ∧ badRange (selAddr (selOne 1 1 0x1000
      0).frame + 4 * (selOne 1 1 0x1000 0).done) 1 = false ∧ pageSoftBusy (selWith (selOne 1 1 0x1000 0)
      (wSelSoft)).freshOut (selAddr (selOne 1 1 0x1000 0).frame + 4 * (selOne 1 1 0x1000 0).done) = true) ∧
    (pageOpen (selWith (selOne 1 1 0x1000 0) (wRun)) 0xB = true ∧ (selWith (selOne 1 1 0x1000 0) (wRun)).sel.queue =
      (selOne 1 1 0x1000 0) :: ([]) ∧ selKind (selOne 1 1 0x1000 0).frame = 1 ∧ selWords (selOne 1 1 0x1000 0).frame
      - (selOne 1 1 0x1000 0).done = 0 + 1 ∧ badRange (selAddr (selOne 1 1 0x1000 0).frame + 4 * (selOne 1 1 0x1000
      0).done) 1 = false ∧ pageSoftBusy (selWith (selOne 1 1 0x1000 0) (wRun)).freshOut (selAddr (selOne 1 1 0x1000
      0).frame + 4 * (selOne 1 1 0x1000 0).done) = false) ∧
    (pageOpen (selWith (selReqOf3) (put [(R.SEC_STAT_fuse_block, 1)] wRun)) 0xB = true ∧ (selWith (selReqOf3) (put
      [(R.SEC_STAT_fuse_block, 1)] wRun)).sel.queue = selReqOf3 :: ([]) ∧ selKind selReqOf3.frame = 3 ∧ (selWith
      (selReqOf3) (put [(R.SEC_STAT_fuse_block, 1)] wRun)).on R.SEC_STAT_fuse_block = true) ∧
    (pageOpen (selWith (selReqOf3) (put [(R.ATT_CMD_busy, 1)] wRun)) 0xB = true ∧ (selWith (selReqOf3) (put
      [(R.ATT_CMD_busy, 1)] wRun)).sel.queue = selReqOf3 :: ([]) ∧ selKind selReqOf3.frame = 3 ∧ (selWith
      (selReqOf3) (put [(R.ATT_CMD_busy, 1)] wRun)).on R.SEC_STAT_fuse_block = false ∧ (selWith (selReqOf3) (put
      [(R.ATT_CMD_busy, 1)] wRun)).on R.ATT_CMD_busy = true) ∧
    (pageOpen (selWith (selReqOk3) (wSelNonce)) 0xB = true ∧ (selWith (selReqOk3) (wSelNonce)).sel.queue = selReqOk3
      :: ([]) ∧ selKind selReqOk3.frame = 3 ∧ (selWith (selReqOk3) (wSelNonce)).on R.SEC_STAT_fuse_block = false ∧
      (selWith (selReqOk3) (wSelNonce)).on R.ATT_CMD_busy = false ∧ (selWith (selReqOk3) (wSelNonce)).sec.lastNonce
      = some ((selPayload selReqOk3.frame).drop 4)) ∧
    (pageOpen (selWith (selReqOf3) (wRun)) 0xB = true ∧ (selWith (selReqOf3) (wRun)).sel.queue = selReqOf3 :: ([]) ∧
      selKind selReqOf3.frame = 3 ∧ (selWith (selReqOf3) (wRun)).on R.SEC_STAT_fuse_block = false ∧ (selWith
      (selReqOf3) (wRun)).on R.ATT_CMD_busy = false ∧ (selWith (selReqOf3) (wRun)).sec.lastNonce ≠ some ((selPayload
      selReqOf3.frame).drop 4)) ∧
    ((pageOpen wRun 0xB = false ∨ wRun.sel.queue = [])) := by
  refine ⟨?_, ?_, ?_, ?_, ?_, ?_, ?_, ?_, ?_, ?_, ?_, ?_, ?_, ?_, ?_, ?_, ?_, ?_, ?_, ?_, ?_⟩ <;> decide +kernel

/-- The hypotheses of ClaimTakesTheFirstDeliverable can be met. -/
theorem witness_claimTakesTheFirstDeliverable :
    (pageOpen wServe (4 + cls false) = true ∧ bankServing wServe false 0 = true) ∧
    (pageOpen wSrcFast 4 = true ∧ bankServing wSrcFast false 0 = false ∧ bankServing wSrcFast true 0 = false ∧
      srcWaits wSrcFast 16 = true ∧ srcFast wSrcFast 16 = true ∧ srcTarget wSrcFast 16 = 0) ∧
    (pageOpen wRun 4 = true ∧ bankServing wRun false 1 = false ∧ firstWaiting wRun true 1 = none ∧ firstWaiting wRun
      false 1 = none) ∧
    (tablesCanonical wSrc = true ∧ pageOpen wSrc 4 = true ∧ bankServing wSrc false 0 = false ∧ firstWaiting wSrc
      true 0 = none ∧ srcWaits wSrc 16 = true ∧ srcFast wSrc 16 = false ∧ srcTarget wSrc 16 = 0 ∧ firstWaiting wSrc
      false 0 = some 16) := by
  refine ⟨?_, ?_, ?_, ?_⟩ <;> decide +kernel

/-- The hypotheses of CompletionsEndOrStray can be met. -/
theorem witness_completionsEndOrStray :
    (pageOpen wRun 4 = true) ∧
    (tablesCanonical wServe = true ∧ pageOpen wServe 4 = true ∧ bankServing wServe false 0 = true ∧ wServe.rd
      (R.BANK_source 0 0) = 16) ∧
    (tablesCanonical wRingServe = true ∧ pageOpen wRingServe 4 = true ∧ isHead wRingServe = true ∧ bankServing
      wRingServe false 2 = true ∧ wRingServe.rd (R.BANK_source 0 2) = 16 ∧ wRingServe.rd (R.BANK_ring 0 2) = 1) ∧
    (tablesCanonical wServe = true ∧ pageOpen wServe 4 = true ∧ ¬ (bankServing wServe false 0 = true ∧ wServe.rd
      (R.BANK_source 0 0) = 17)) := by
  refine ⟨?_, ?_, ?_, ?_⟩ <;> decide +kernel

/-- The hypotheses of PulsesAndLevelsCountEvents can be met. -/
theorem witness_pulsesAndLevelsCountEvents :
    (tablesCanonical wRun = true ∧ sourceExists wRun 16 = true ∧ sourceGated wRun 16 = false ∧ levelSource 16 =
      false) ∧
    (tablesCanonical wRun = true ∧ sourceExists wRun 278 = true ∧ sourceGated wRun 278 = false ∧ levelSource 278 =
      true ∧ wRun.rd (R.SRC_CFG_sense 278) = 0) ∧
    (sourceExists wGated 16 = true ∧ sourceGated wGated 16 = true ∧ sourceExists wGatedRgn 265 = true ∧ sourceGated
      wGatedRgn 265 = true ∧ levelSource 265 = true) ∧
    (levelSource 278 = true ∧ levelSource 16 = false) ∧
    (sourceExists wRun 270 = false) := by
  refine ⟨?_, ?_, ?_, ?_, ?_⟩ <;> decide +kernel

/-- The hypotheses of SnapshotsLatchTheirGroup can be met. -/
theorem witness_snapshotsLatchTheirGroup :
    (tablesCanonical wRun = true ∧ 0 < linksOf wRun ∧ pageOpen wRun 0x40 = true) ∧
    (0 < linksOf wRun) ∧
    (0 < linksOf wRun) ∧
    (0 < lltPages wRun ∧ wRun.rd (R.LLT_SEL_idx 0) < 128 ∧ pageOpen wRun 0xC0 = true) ∧
    (0 < calsOf wRun ∧ pageOpen wRun 0xC8 = true) ∧
    (0 < diesOf wRun ∧ pageOpen wRun 0x38 = true) := by
  refine ⟨?_, ?_, ?_, ?_, ?_, ?_⟩ <;> decide +kernel

/-- The hypotheses of ResetsForgetAllButWhatTheyKeep can be met. -/
theorem witness_resetsForgetAllButWhatTheyKeep :
    (tablesCanonical wRun = true ∧ wRun.dev.phase ≠ .off) ∧
    (State.reset.dev.phase = .off) ∧
    (tablesCanonical wRun = true ∧ wRun.dev.phase ≠ .off ∧ 1099 < (railLevels 2).2) := by
  refine ⟨?_, ?_, ?_⟩ <;> decide +kernel

/-- The hypotheses of UnansweredAddressesReadZeroAndDropWrites can be met. -/
theorem witness_unansweredAddressesReadZeroAndDropWrites :
    (wRun.host.heldAcc = [] ∧ pageExists wRun 0xF = false ∧ phaseOpens wWatch 5 = false) ∧
    (wGated.host.heldAcc = [] ∧ pageGated wGated 0x11 = true) ∧
    (wRun.host.heldAcc = [] ∧ pageOpen wRun 0x10 = true ∧ wRun.on (R.SOFT_RESET_busy 0x10) = false ∧ fieldsAt 0x10
      0xFFC = [] ∧ fieldsAt 0x10 0x20 = []) := by
  refine ⟨?_, ?_, ?_⟩ <;> decide +kernel

/-! ## Effects of some commands on small states -/

/-- What a function of the state gives after a command that answers a next state. -/
def after {α : Type} (c : Instr) (s : State) (f : State → α) : Option α :=
  match exec c s with
  | .next t => some (f t)
  | _ => none

/-- The worked example of R432: source 81 with three events, enabled for host 0. -/
def wSrc81 : State := put [(R.SRC_CFG_pend 81, 1), (R.SRC_CFG_en 81, 1), (R.SRC_CFG_count 81, 3)] wRun
/-- CLAIM[0] gives 0x0003_0051, and the bank serves 81 (the example before R433). -/
theorem test_claim_answers_count_and_source :
    after (.intClaim false 0) wSrc81 (fun t => (t.host.answer, t.rd (R.BANK_source 0 0), t.rd (R.SRC_CFG_count 81))) =
      some ([0x00030051], 81, 0) := by decide +kernel
/-- A claim with nothing waiting gives NONE, with none_why EMPTY (R425). -/
theorem test_claim_none : after (.intClaim false 0) wRun (fun t => (t.host.answer, t.rd (R.BANK_none_why 0 0))) =
    some ([0x3FF], 1) := by decide +kernel
/-- A completion of a bank that serves nothing is a stray one of source 81, and raises source 285 (the same example). -/
theorem test_stray_completion : after (.intComplete false 0 0x51 0) wRun
    (fun t => (t.rd R.STRAY_count, t.rd R.STRAY_source, t.rd (R.SRC_CFG_pend 285))) = some (1, 81, 1) := by decide +kernel
/-- An event count stays at 255 (R433). -/
theorem test_count_saturates : after (.sourceInput 81 .pulse) (put [(R.SRC_CFG_count 81, 255)] wRun)
    (fun t => (t.rd (R.SRC_CFG_count 81), t.rd (R.SRC_CFG_pend 81))) = some (255, 1) := by decide +kernel

/-- PAGE_ID of LNK[12] reads 0x140C_004C (the example of R487). -/
theorem test_page_id_of_link_12 : peek wRun 0x4C000 = 0x140C004C := by decide +kernel
/-- DIE[1].BUF_USABLE stands at 0x03_9044, and the LZ4064 has no such page (R3). -/
theorem test_page_of_die_1 : (pageExists wRun (0x39044 / 4096), pageExists wSmall (0x39044 / 4096)) = (true, false) := by
  decide

/-- SIDE_MAP[24] = 0xC000_0008 maps side A of link 12 onto lanes 8 to 15 (the example of the lane map registers). -/
theorem test_side_map_write : after (.sideMapWrite 24 0xC0000008) wRun (fun t => mapLanes t 12 .a 8) =
    some [8, 9, 10, 11, 12, 13, 14, 15] := by decide +kernel

/-- Link `k` live in a mode, both sides x8 at L4 on the lanes from `base`. -/
def wX8 (k mode base : Nat) : State :=
  put [(R.LNK_CFG_LIVE_mode k, mode), (R.LNK_CFG_LIVE_width k 0, 3), (R.LNK_CFG_LIVE_width k 1, 3),
    (R.LNK_CFG_LIVE_rung k 0, 4), (R.LNK_CFG_LIVE_rung k 1, 4), (R.LNK_CFG_LIVE_ep k 0, 1), (R.LNK_CFG_LIVE_ep k 1, 1),
    (R.SIDE_MAP_valid (2 * k), 1), (R.SIDE_MAP_hint (2 * k), 1), (R.SIDE_MAP_base (2 * k), base),
    (R.SIDE_MAP_valid (2 * k + 1), 1), (R.SIDE_MAP_hint (2 * k + 1), 1), (R.SIDE_MAP_base (2 * k + 1), base),
    (R.DARN_LIVE_guard k, 4), (R.DARN_LIVE_retries k, 3), (R.DARN_LIVE_en k 0, 1), (R.DARN_LIVE_en k 1, 1)] wRun
/-- The trunk of the worked round trip: link 40, side B the trunk with RTT 318 ns, side A an endpoint with RTT 40 ns. -/
def wTrunk40 : State :=
  put [(R.TRK_CFG0_LIVE_trunk_side 40, 1), (R.TRK_CFG0_LIVE_guard 40, 16), (R.TRK_CFG1_LIVE_window 40, 610),
    (R.TRK_CFG2_LIVE_hwm 40, 64), (R.TRK_VCS_LIVE_vc_mask 40, 15), (R.EP_LIVE_headroom 40 0, 48), (R.RTT_valid 40 0, 1),
    (R.RTT_rtt 40 0, 40), (R.RTT_valid 40 1, 1), (R.RTT_rtt 40 1, 318)] (wX8 40 4 40)
/-- t_span is 574 ns and the reservation 6,098 slots (the worked round trip of chapter 8). -/
theorem test_trunk_span_time : tSpan wTrunk40 40 = 574 := by decide +kernel
theorem test_trunk_reservation : linkRes { scope := 2 } wTrunk40 0 40 = 6098 := by decide +kernel
/-- A DARNED x8 link at L4 with round trips of 100 ns and guard 4 reserves 350 slots (the example of chapter 11). -/
theorem test_darned_reservation :
    linkRes { scope := 2 } (put [(R.RTT_valid 12 0, 1), (R.RTT_rtt 12 0, 100), (R.RTT_valid 12 1, 1), (R.RTT_rtt 12 1, 100)]
      (wX8 12 3 8)) 0 12 = 350 := by decide +kernel
/-- A check that ends at 5,062,300 ns takes effect at 5,065,000 ns (the example of chapter 11). -/
theorem test_apply_time : applyTime 5062300 = 5065000 := by decide +kernel

/-- The A_RX end of lane 17, calibrated at 41.25 °C and all other ends at the present temperature (chapter 14). -/
def wCal2 : State := put [(leSd 17 .a, 1), (leLock 17 .a, 2)] wRun |>.putCal 2 (({} : CalSeq).putEnd 1 { tcal := some 165 })
/-- 49.25 °C leaves the end as it is, 49.50 °C makes it due (the example of R362). -/
theorem test_calibration_due :
    ((tempOne 2 197 wCal2).rd (R.CAL_DUE 2 1), (tempOne 2 198 wCal2).rd (R.CAL_DUE 2 1)) = (0, 1) := by decide +kernel

/-- Release of reset goes from OFF to START (R476). -/
theorem test_release : after (.resetRelease 0) State.reset (fun t => t.dev.phase) = some .start := by decide +kernel
/-- An SPI frame with a bad CRC counts and ends with CRC (R441). -/
theorem test_spi_bad_crc : after (.spiWrite false 0x0000_6080 7 (crc8 (spiBytes 1 false 0x0000_6080 [7]) + 1)) wRun
    (fun t => (t.rd R.HST_CNT_spi_crc, t.rd R.HST_FRAMES_spi, (t.port 0).last)) = some (1, 1, some stCrc) := by decide +kernel
/-- The same frame with its own CRC writes the word: SRC_CFG[16] takes class 0, sense 1, enable 1. -/
theorem test_spi_write : after (.spiWrite false 0x0000_6080 7 (crc8 (spiBytes 1 false 0x0000_6080 [7]))) wRun
    (fun t => (t.rd (R.SRC_CFG_en 16), t.rd (R.SRC_CFG_sense 16), (t.port 0).last)) = some (1, 1, some stOk) := by decide +kernel
/-- No row of the table has bits, so no word spells a command (log 11). -/
theorem test_no_word : decodeTableWord 8 0x5A = none := rfl

end Sys2Proof.Tests
end

section
/-!
Commands at a unit the part lacks (R2, R3): what a command does there is guarded by the presence of the unit it reports
at, so each proof about such a command needs only which unit that is.
-/

namespace Sys2Proof.Machine

/-- Whether the unit a command reports an event at is there; a command that reports none at a unit passes. -/
def unitThere (s : State) : Instr → Bool
  -- lanes
  | .signalDetect e _ | .lossOfSignal e _ _ | .symbolLockAcquired e _ | .lockLoss e _ | .ebSlip e _ _
  | .commaDetect e _ _ _ => lanePresent s e.n
  | .balanceWindowEnd n _ _ | .rxOpen n _ | .rxOpenClear n _ | .deskewRemeasure n _ _ | .acqBlockEnd n _ _ _ _ _
  | .acqTimeout n _ | .trackVisitEnd n _ _ _ | .trackUpdateApply n _ | .wakeSigdet n _ | .aligningBadSymbol n _
  | .lolWindowEnd n _ | .prbsLock n _ | .prbsLockLoss n _ _ | .prbsErrThreshold n _ _
  | .prbsErrWindowEnd n _ _ => lanePresent s n
  -- clusters
  | .terminationDetectDone c _ | .clockDutyInvert c _ | .switchoverComplete c _ | .pllUnlock c _ | .pllRelock c _
  | .borrowComplete c _ | .holdoverExpiry c _ | .denseReqResend c _ | .fallbackWaitExpiry c _ | .ckOpComplete c
  | .bobbinAcqLimit c _ | .bobbinSwitch c _ | .swapAbandon c | .oldTxIdle c | .calRunStart c | .calRunEnd c _
  | .calStepApply c | .eyeEnd c _ _ | .bobbinSliceEnd c _ _ _ _ | .switchoverLockExpiry c _
  | .calCodeStep c => c < clustersOf s
  | .clockLaneQualified e _ | .clockLaneLoss e _ => e.c < clustersOf s
  -- dies, rails and PLLs
  | .ceWindowEnd die | .bankTestEnd die _ | .corePllUnlock die | .corePllRelock die | .plVoltageSettled die _
  | .plDividerSwitched die | .bistStall die => die < diesOf s
  | .bankSaveDone x | .bankRestoreDone x | .evacuationDone x => x.die < diesOf s
  | .remirror e _ => e.die < diesOf s && e.addr < 65536
  | .supplyWarnSet x | .supplyWarnClear x | .brownOutReset x => x.rail < 4
  | .pllHoldover unit | .refclkReturn unit | .pllIfoLock unit => (pllUnits s).contains unit
  | .seamPllUnlock | .seamPllRelock => !isLz4064 s
  -- interrupt sources
  | .wakeSource src | .sourceInput src _ => src < 320
  -- links and the lane maps of their sides
  | .ackSetReceive k _ _ _ _ | .idlReceive k _ _ | .eieReceive k _ _ | .skpReceive k _ _ _ _ | .skpDue k _
  | .sendNext k _ _ _ | .capReceive k _ _ _ | .rateReceive k _ _ | .rateAckReceive k _ _ | .readyReceive k _ _
  | .echoReqReceive k _ _ _ | .echoRspReceive k _ _ _ | .retrainReceive k _ _ | .denseReqReceive k _ _
  | .denseRelReceive k _ _ | .capSettleExpiry k _ | .switchIdleEnd k _ | .dwellEnd k _ _ | .rungMaxExpiry k _
  | .trainMaxExpiry k _ | .retrainMaxExpiry k _ | .rateResend k _ | .echoWaitExpiry k _ | .downHoldEnd k _
  | .tUpBegin k | .flitReceive k _ _ _ _ _ | .controlFlitReceive k _ _ | .drnAckReceive k _ _
  | .drnNakReceive k _ _ | .drnProbeReceive k _ _ _ | .drnEchoReceive k _ _ _ | .trunkAckRefresh k
  | .selReadReq k _ _ | .selWriteReq k _ _ | .selAttestReq k _ _ => k < linksOf s
  | .mapDrainEnd e | .mapTornEnd e => e < 2 * linksOf s
  | .mapCacheRefresh c e => c < clustersOf s && e < 2 * linksOf s
  -- flows, trunks, logical links and calendars
  | .darnTimerExpiry f | .proxyAckTimer f => flowPresent s f
  | .spanTimerExpiry t | .drnAckTimer t | .probeInterval t | .probeWaitExpiry t
  | .controlFlitDue t => trunkPresent s t
  | .llTornWindowEnd l | .llDrainEnd l => l < llsOf s
  | .llCacheRefresh cache => cache < clustersOf s || (16 ≤ cache && cache < 16 + calsOf s)
  -- ring directions
  | .ringTrainReceive d _ | .hopBroken d | .ringEnum d _ | .ringPresent d _ | .ringDone d _ | .ringBreak d _
  | .ringTime d _ | .ringGo d _ | .ringReady d _ | .ringReq d _ | .ringRsp d _ | .ringDeliver d _
  | .ringComplete d _ => d < 2
  | _ => true

/-- At a unit that is not there `onUnit` answers the fault, whatever the state it would have answered. -/
theorem onUnit_of_absent {present : Bool} {t : State} (h : present = false) :
    onUnit present t = .fault .noSuchUnit := by
  subst h
  rfl

/-- Each command that reports an event at a unit acts through `onUnit` of that unit; a command that reports none has
no unit to be absent. -/
theorem exec_of_unit_absent {s : State} {c : Instr} (h : unitThere s c = false) :
    exec c s = .fault .noSuchUnit := by
  unfold unitThere at h
  split at h
  rotate_right
  · contradiction
  all_goals exact onUnit_of_absent h

/-- Settles O8: in each clause the hypothesis says that the unit of the command, as `unitThere` names it, is absent. -/
theorem absentUnitsFault : Obligations.AbsentUnitsFault := by
  unfold Obligations.AbsentUnitsFault
  and_intros
  all_goals
    intros
    rename_i absent
    exact exec_of_unit_absent (by
      simpa only [unitThere, Bool.not_eq_true, decide_eq_false_iff_not, Bool.not_eq_false'] using absent)

end Sys2Proof.Machine
end

section
/-!
The front of the queue (R34), and the frame rows of `touched` held against a bobbin slice: a slice drives the bobbin lane with
PRBS31 (R383), so the command that starts one touches a TX end, which its row does not list.
-/

namespace Sys2Proof.Machine

/-- Settles O6: on a queue with a command at its front, `step` is by definition `exec` of that command. -/
theorem stepRunsFrontCommand : Obligations.StepRunsFrontCommand := by
  unfold Obligations.StepRunsFrontCommand
  intro c rest s
  rfl

/-- The package in SERVICE with REFCLK judged good, otherwise as reset leaves it: every bobbin is READY, every TX end rests,
and nothing keeps a slice from running. -/
def inServiceOnRefclk : State :=
  { State.reset with dev := { State.reset.dev with phase := .run } }.wr R.CLK_STAT_refclk_good 1

/-- No TX end has a pattern generator yet. -/
theorem inServiceOnRefclk_txe_gen (n : Nat) (sd : Side) : (inServiceOnRefclk.txe n sd).gen = none := rfl

/-- BOBBIN_NOW of cluster 0 starts the slice of its bobbin, lane 128: the TX end on A takes a generator of pattern 5, PRBS31
(R383, R387). -/
theorem bstBobbinNow_starts_generator :
    ∃ t, exec (.bstBobbinNow 0) inServiceOnRefclk = .next t ∧ (t.txe 128 .a).gen = some (genStart 5) :=
  ⟨_, rfl, by decide +kernel⟩

/-- A TX end reads the same in two states that share the part `tx`. -/
theorem txe_eq_of_samePart_tx {s t : State} (h : samePart .tx s t) (n : Nat) (sd : Side) : t.txe n sd = s.txe n sd := by
  have tables : t.tx = s.tx := h
  simp only [State.txe, tables]

/-- Refutes O3: BOBBIN_NOW of cluster 0, in SERVICE with REFCLK good, starts a PRBS31 generator at the bobbin's TX end, and
`tx` is not in the row that `touched` gives the command. -/
theorem not_commandsTouchOnlyTheirParts : ¬ Obligations.CommandsTouchOnlyTheirParts := by
  unfold Obligations.CommandsTouchOnlyTheirParts
  intro frame
  obtain ⟨t, next, started⟩ := bstBobbinNow_starts_generator
  have outside : StatePart.tx ∉ touched (.bstBobbinNow 0) := by decide
  have same : samePart .tx inServiceOnRefclk t := frame _ _ _ _ next outside
  rw [txe_eq_of_samePart_tx same, inServiceOnRefclk_txe_gen] at started
  cases started

end Sys2Proof.Machine
end

section
/-!
Commands at a unit that is there (R2, R3): the guards of events and of register commands give way.
-/

namespace Sys2Proof.Machine

/-- At a unit that is there `onUnit` goes on with the state. -/
theorem onUnit_of_present {present : Bool} {t : State} (there : present = true) : onUnit present t = .next t := by
  subst there
  rfl

/-- A register command of a unit that is there, in a page that answers, takes effect. -/
theorem ifHas_open {present : Bool} {p : Nat} {s t : State} (there : present = true) (answers : pageOpen s p = true) :
    ifHas present p s t = t := by
  simp only [ifHas, there, answers, Bool.and_self, if_true]

end Sys2Proof.Machine
end

section
/-!
Ring messages (R445-R448): what `arrive` does with one, case by case, and what `routed` does with one that is for one
package. Every ring command is `onRing` of an `arrive` with a type and an effect of its own.
-/

namespace Sys2Proof.Machine

theorem onRing_of_mgmt_running {d : Nat} {s t : State} (ring : d < 2) (running : mgmtHeld s = false) :
    onRing d s t = .next t := by
  simp only [onRing, running, onUnit_of_present (decide_eq_true ring), Bool.false_eq_true, if_false]

theorem onRing_of_mgmtHeld {d : Nat} {s t : State} (ring : d < 2) (held : mgmtHeld s = true) :
    onRing d s t = .next s := by
  simp only [onRing, held, onUnit_of_present (decide_eq_true ring), if_true]

section arrive

variable {type d : Nat} {msg : RingMsg} {act : Msg → State → State} {s : State}

theorem arrive_in_reset (off : ringRuns s = false) : arrive type d msg act s = s := by
  simp only [arrive, off, Bool.not_false, if_true]

theorem arrive_unlocked (runs : ringRuns s = true) (unlocked : hopLocked s d = false) :
    arrive type d msg act s = if badSyms msg = 0 then s.freshOut else hopUnlock d s.freshOut := by
  have unlocked' : hopLocked s.freshOut d = false := unlocked
  simp only [arrive, runs, unlocked', Bool.not_true, Bool.not_false, Bool.false_eq_true, if_true, if_false]

theorem arrive_broken (runs : ringRuns s = true) (locked : hopLocked s d = true) (broken : intactMsg msg = none) :
    arrive type d msg act s = msgBroken d (hopBad d msg s.freshOut) := by
  have locked' : hopLocked s.freshOut d = true := locked
  simp only [arrive, runs, locked', broken, Bool.not_true, Bool.false_eq_true, if_false]

theorem arrive_intact {x : Msg} (runs : ringRuns s = true) (locked : hopLocked s d = true)
    (intact : intactMsg msg = some x) (typed : x.type = type)
    (straight : hopState (hopBad d msg s.freshOut) d ≠ hopCrossed) :
    arrive type d msg act s = act x (hopHeard d (hopBad d msg s.freshOut)) := by
  have locked' : hopLocked s.freshOut d = true := locked
  simp only [arrive, runs, locked', intact, typed, straight, Bool.not_true, Bool.false_eq_true, if_false,
    ne_eq, not_true_eq_false, decide_false, Bool.false_and, Bool.or_self]

end arrive

theorem routed_forwards {d : Nat} {consume : Msg → State → State} {x : Msg} {s : State} (elsewhere : x.dest ≠ ownId s)
    (foreign : x.src ≠ ownId s) : routed d consume x s = s.sendOn d (ringBytes x.type x.dest x.src x.body) := by
  simp only [routed, elsewhere, foreign, if_false]

theorem routed_drops_own {d : Nat} {consume : Msg → State → State} {x : Msg} {s : State} (elsewhere : x.dest ≠ ownId s)
    (own : x.src = ownId s) : routed d consume x s = s.bump R.PCT_CNT_dropped := by
  simp only [routed, elsewhere, own, if_true, if_false]

/-- A message of a type for one package, at an input where it counts, for another package and from another. -/
theorem onRing_routed_forwards {type : Nat} {consume : Nat → Msg → State → State} (s : State) (d : Nat) (msg : RingMsg)
    (x : Msg) (t u : State) (counted : u = hopBad d msg s.freshOut) (heard : t = hopHeard d u) (ring : d < 2)
    (runs : ringRuns s = true) (running : mgmtHeld s = false) (locked : hopLocked s d = true)
    (intact : intactMsg msg = some x) (typed : x.type = type) (straight : hopState u d ≠ hopCrossed)
    (elsewhere : x.dest ≠ ownId t) (foreign : x.src ≠ ownId t) :
    onRing d s (arrive type d msg (routed d (consume d)) s) =
      .next (t.sendOn d (ringBytes x.type x.dest x.src x.body)) := by
  subst counted heard
  rw [onRing_of_mgmt_running ring running, arrive_intact runs locked intact typed straight,
    routed_forwards elsewhere foreign]

/-- The same message come back to its sender. -/
theorem onRing_routed_drops_own {type : Nat} {consume : Nat → Msg → State → State} (s : State) (d : Nat) (msg : RingMsg)
    (x : Msg) (t u : State) (counted : u = hopBad d msg s.freshOut) (heard : t = hopHeard d u) (ring : d < 2)
    (runs : ringRuns s = true) (running : mgmtHeld s = false) (locked : hopLocked s d = true)
    (intact : intactMsg msg = some x) (typed : x.type = type) (straight : hopState u d ≠ hopCrossed)
    (elsewhere : x.dest ≠ ownId t) (own : x.src = ownId t) :
    onRing d s (arrive type d msg (routed d (consume d)) s) = .next (t.bump R.PCT_CNT_dropped) := by
  subst counted heard
  rw [onRing_of_mgmt_running ring running, arrive_intact runs locked intact typed straight, routed_drops_own elsewhere own]

/-- The commands by which a message arrives on ring input `d`, in the order of the table. -/
def RingCommand (d : Nat) (msg : RingMsg) (c : Instr) : Prop :=
  c ∈ ([.ringTrainReceive d msg, .ringEnum d msg, .ringPresent d msg, .ringDone d msg, .ringBreak d msg, .ringTime d msg,
    .ringGo d msg, .ringReady d msg, .ringReq d msg, .ringRsp d msg, .ringDeliver d msg,
    .ringComplete d msg] : List Instr)

/-- Each ring command is the arrival of a message of some type, with some effect. -/
theorem exec_ringCommand {d : Nat} {msg : RingMsg} {c : Instr} (h : RingCommand d msg c) :
    ∃ type act, ∀ s, exec c s = onRing d s (arrive type d msg act s) := by
  simp only [RingCommand, List.mem_cons, List.not_mem_nil, or_false] at h
  rcases h with rfl | rfl | rfl | rfl | rfl | rfl | rfl | rfl | rfl | rfl | rfl | rfl
  all_goals exact ⟨_, _, fun _ => rfl⟩

theorem exec_ringCommand_broken (s u : State) (d : Nat) (msg : RingMsg) (c : Instr) (counted : u = hopBad d msg s.freshOut)
    (command : RingCommand d msg c) (ring : d < 2) (runs : ringRuns s = true) (running : mgmtHeld s = false)
    (locked : hopLocked s d = true) (broken : intactMsg msg = none) : exec c s = .next (msgBroken d u) := by
  obtain ⟨type, act, arrival⟩ := exec_ringCommand command
  rw [arrival, onRing_of_mgmt_running ring running, arrive_broken runs locked broken, counted]

theorem exec_ringCommand_unlocked (s : State) (d : Nat) (msg : RingMsg) (c : Instr) (command : RingCommand d msg c)
    (ring : d < 2) (runs : ringRuns s = true) (running : mgmtHeld s = false) (unlocked : hopLocked s d = false) :
    exec c s = .next (if badSyms msg = 0 then s.freshOut else hopUnlock d s.freshOut) := by
  obtain ⟨type, act, arrival⟩ := exec_ringCommand command
  rw [arrival, onRing_of_mgmt_running ring running, arrive_unlocked runs unlocked]

theorem exec_ringCommand_quiet (s : State) (d : Nat) (msg : RingMsg) (c : Instr) (command : RingCommand d msg c)
    (ring : d < 2) (quiet : ringRuns s = false ∨ mgmtHeld s = true) : exec c s = .next s := by
  obtain ⟨type, act, arrival⟩ := exec_ringCommand command
  rw [arrival]
  by_cases held : mgmtHeld s = true
  · exact onRing_of_mgmtHeld ring held
  · rw [onRing_of_mgmt_running ring (Bool.eq_false_iff.mpr held), arrive_in_reset (quiet.resolve_right held)]

/-- Settles O47: the seven types for one package are arrivals with `routed`, which sends on what is for another package and
drops what has come back; broken, unlocked and quiet inputs are the same for every ring command. -/
theorem ringMessagesPassOn : Obligations.RingMessagesPassOn := by
  unfold Obligations.RingMessagesPassOn
  exact ⟨onRing_routed_forwards, onRing_routed_forwards, onRing_routed_forwards, onRing_routed_forwards,
    onRing_routed_forwards, onRing_routed_forwards, onRing_routed_forwards, onRing_routed_drops_own,
    onRing_routed_drops_own, onRing_routed_drops_own, onRing_routed_drops_own, onRing_routed_drops_own,
    onRing_routed_drops_own, onRing_routed_drops_own, exec_ringCommand_broken, exec_ringCommand_unlocked,
    exec_ringCommand_quiet⟩

end Sys2Proof.Machine
end

section
/-!
TRN sets (R138-R154, R93): a command of a set that the span takes is what its kind adds, between what every set does before
and after; then what each kind adds, case by case.
-/

namespace Sys2Proof.Machine

section taken

variable {s s2 : State} {k kind : Nat} {sd : Side} {heard : List Heard} {t : TrnSet} {act : TrnSet → State → State}

/-- A set is taken only on a side with a sequencer whose die clocks run. -/
theorem sequencer_of_trnTaken (taken : trnTaken k sd heard kind s = some (t, s2)) :
    hasSequencer s k sd = true ∧ sideHeld s k sd = false := by
  unfold trnTaken at taken
  split at taken
  · cases taken
  · rename_i running
    simpa using running

/-- A set that is taken acts as its kind says, on the state in which its fields have been stored. -/
theorem trnReceive_of_taken (listed : kind ≠ 0 ∧ kind ≤ 10) (taken : trnTaken k sd heard kind s = some (t, s2)) :
    trnReceive k sd heard kind act s =
      spareCopies k sd (heard.drop (sideWidth s k sd)) (trnAfter k sd (act t s2)) := by
  obtain ⟨sequencer, running⟩ := sequencer_of_trnTaken taken
  unfold trnTaken at taken
  unfold trnReceive
  simp only [sequencer, running, Bool.not_true, Bool.or_self, Bool.false_eq_true, if_false] at taken ⊢
  generalize setArrives readTrnCommon k sd heard (trnEnds k sd heard s) = arrival at taken ⊢
  obtain ⟨_ | set, after⟩ := arrival
  · cases taken
  · simp only [Option.ite_none_right_eq_some, Bool.and_eq_true, decide_eq_true_eq, Option.some.injEq, Prod.mk.injEq]
      at taken
    obtain ⟨⟨⟨⟨good, rfl⟩, begun⟩, up⟩, rfl, rfl⟩ := taken
    simp only [good, listed, begun, up, ne_eq, not_true_eq_false, decide_false, Bool.or_self, Bool.false_eq_true,
      Nat.not_lt.mpr, if_false]

theorem onUnit_trnReceive_of_taken (there : k < linksOf s) (listed : kind ≠ 0 ∧ kind ≤ 10)
    (taken : trnTaken k sd heard kind s = some (t, s2)) :
    onUnit (k < linksOf s) (trnReceive k sd heard kind act s) =
      .next (spareCopies k sd (heard.drop (sideWidth s k sd)) (trnAfter k sd (act t s2))) := by
  rw [onUnit_of_present (decide_eq_true there), trnReceive_of_taken listed taken]

/-- CAP_RECEIVE of a set that the span takes: its own spare copies come last. -/
theorem exec_capReceive_of_taken {spare : List Heard} (there : k < linksOf s)
    (taken : trnTaken k sd heard trnCAP s = some (t, s2)) :
    exec (.capReceive k sd heard spare) s = .next (spareCopies k sd spare (spareCopies k sd
      (heard.drop (sideWidth s k sd)) (trnAfter k sd (capAct k sd t s2)))) := by
  obtain ⟨sequencer, running⟩ := sequencer_of_trnTaken taken
  show onUnit _ _ = _
  simp only [onUnit_of_present (decide_eq_true there), sequencer, running,
    trnReceive_of_taken (kind := trnCAP) (by decide) taken, Bool.not_false, Bool.and_self, if_true]

end taken

/-! ## What each kind adds -/

section kinds

variable {s : State} {k : Nat} {sd : Side} {t : TrnSet}

theorem capAct_width_mismatch (training : trainingNow s k sd = true)
    (mismatch : t.width ≠ s.rd (R.LNK_CFG_LIVE_width k sd.idx)) :
    capAct k sd t s = linkDown k ftWidth false s := by
  simp [capAct, training, mismatch]

/-- A CAP that fits the side is accepted, and settles the group anew where its election value is new. -/
theorem capAct_fits {u : State} {v : Nat}
    (width : trainingNow s k sd = true → t.width = s.rd (R.LNK_CFG_LIVE_width k sd.idx))
    (trunk : (trainingNow s k sd && isTrunkSide s k sd && !bit t.flags 1) = false)
    (accepted : u = s.modSpan k sd fun x => { x with capAcc := true })
    (value : v = if bit t.flags 0 then t.elect else 0) :
    capAct k sd t s = if v = inElect u k sd then u else electSync (rateGroup u k sd)
      ((u.modSpan k sd fun x => { x with capFrom := u.clock }).wr (R.SPAN_NBR_in_elect k sd.idx) v) := by
  have fits : (trainingNow s k sd && decide (t.width ≠ s.rd (R.LNK_CFG_LIVE_width k sd.idx))) = false := by
    simpa using width
  subst accepted value
  simp only [capAct, fits, trunk, Bool.false_eq_true, if_false]

theorem rateAct_of_leads (leading : leads s k sd = true) : rateAct k sd t s = s.bump (R.TRN_CNT_bad_kind k) := by
  simp only [rateAct, leading, if_true]

theorem rateAct_of_follows (led : leads s k sd = false) (following : follows s k sd = true)
    (training : trainingNow s k sd = true) (steady : spanState s k sd ≠ spSwitch) :
    rateAct k sd t s = rateFollow k sd t s := by
  simp [rateAct, led, following, training, steady]

theorem rateFollow_of_ackWaits (waits : ackWaits s k sd t = true) : rateFollow k sd t s = s := by
  simp only [rateFollow, waits, if_true]

/-- A RATE that is not accepted is remembered with its answer. -/
theorem rateFollow_not_accepted {r : Nat} {u : State} (result : r = rateResult s k sd t.target)
    (answered : u = postTrn k sd
      { mkTrn (if r = 0 then refuseUp k sd t.target s else s) k sd trnRATEACK with
        target := t.target, tag := t.tag, value := r * 2 ^ 24 }
      (if r = 0 then refuseUp k sd t.target s else s))
    (fresh : ackWaits s k sd t = false) (other : r ≠ 0) :
    rateFollow k sd t s = u.modSpan k sd fun x => { x with ackRep := some (t.target, t.tag, r) } := by
  subst result answered
  simp only [rateFollow, fresh, other, ne_eq, not_false_eq_true, Bool.false_eq_true, if_true, if_false]

/-- An accepted RATE ends a blind start of the group and steps the span and the spans it leads. -/
theorem rateFollow_accepted {r : Nat} {u v w : State} (result : r = rateResult s k sd t.target)
    (answered : u = postTrn k sd
      { mkTrn (if r = 0 then refuseUp k sd t.target s else s) k sd trnRATEACK with
        target := t.target, tag := t.tag, value := r * 2 ^ 24 }
      (if r = 0 then refuseUp k sd t.target s else s))
    (sighted : v = if (rateGroup u k sd).any fun p => u.on (R.SPAN_STAT_blind p.1 p.2.idx) then
      blindOver (rateGroup u k sd) u else u)
    (stepped : w = setSpan k sd spStep (v.modSpan k sd fun x =>
      { x with toRung := t.target, rateTarget := none, ackRep := none }))
    (fresh : ackWaits s k sd t = false) (accepted : r = 0) :
    rateFollow k sd t s = ((rateGroup w k sd).filter fun p => leads w p.1 p.2 && trainingNow w p.1 p.2).foldl
      (fun s p => sendRate t.target p.1 p.2 s) w := by
  have accepted' : rateResult s k sd t.target = 0 := result ▸ accepted
  subst accepted answered sighted stepped
  simp only [rateFollow, fresh, accepted', ne_eq, not_true_eq_false, Bool.false_eq_true, if_true, if_false]

/-- The answer to the RATE that is out on a led span. -/
theorem rateAckAct_answered {r : Nat} (out : (s.span k sd).rateTarget = some r) (stepping : spanState s k sd = spStep)
    (leading : leads s k sd = true) (tag : t.tag = (s.span k sd).rateTag) :
    rateAckAct k sd t s = if t.value / 2 ^ 24 % 256 = 0 then sideEie k sd (switchTo k sd r (dropRates k sd s))
      else setSpan k sd spReady ((dropRates k sd s).modSpan k sd fun x => { x with rateTarget := none }) := by
  simp [rateAckAct, out, stepping, leading, tag]

/-- READY at the span's rung notes PASS and THRU; without PASS a group joined to another's rung goes down, and a blind
start ends. -/
theorem readyAct_at_rung {u : State} (training : trainingNow s k sd = true) (rung : t.cur = spanRung s k sd)
    (noted : u = s.modSpan k sd fun x => { x with passRcvd := bit t.flags 4, thruRcvd := bit t.flags 3 }) :
    readyAct k sd t s = if bit t.flags 4 then u
      else if groupJoined u k sd then linkDown k ftGroup false u
      else if u.on (R.SPAN_STAT_blind k sd.idx) then leaveBlind (rateGroup u k sd) u
      else u := by
  subst noted
  simp [readyAct, training, rung]

theorem echoReqAct_answers {turn : Nat}
    (answers : (spanUp s k sd || (trainingNow s k sd && spanState s k sd ≠ spSwitch)) = true) :
    echoReqAct k sd turn t s = postTrn k sd { mkTrn s k sd trnECHORSP with tag := t.tag, value := turn % 2 ^ 32 } s := by
  simp only [echoReqAct, answers, if_true]

/-- The answer to the request that is out gives a sample; the eighth completes MEASURE. -/
theorem echoRspAct_sample {sample : Nat} {u : State}
    (sampled : u = s.putSpan k sd
      { s.span k sd with echoOut := false, samples := (s.span k sd).samples ++ [sample - t.value] })
    (measuring : spanState s k sd = spMeasure) (out : (s.span k sd).echoOut = true)
    (tag : t.tag = (s.span k sd).echoTag) :
    echoRspAct k sd sample t s =
      if 8 ≤ (s.span k sd).samples.length + 1 then rttDone k sd u else echoNext k sd u := by
  subst sampled
  simp [echoRspAct, measuring, out, tag]

end kinds

/-- Settles O20: each clause is the arrival of a set that the span takes, with what its kind adds in that case. -/
theorem trainingSetsTakeEffect : Obligations.TrainingSetsTakeEffect := by
  unfold Obligations.TrainingSetsTakeEffect
  refine ⟨?cap, ?capWidth, ?capSame, ?capNew, ?rateLeads, ?rateWaits, ?rateOther, ?rateAccepted, ?ackAccepted, ?ackOther,
    ?readyPass, ?readyJoined, ?readyAlone, ?echoReq, ?echoNext, ?echoDone, ?retrain, ?denseReq, ?denseRel⟩
  case cap =>
    intro s k sd heard spare t s2 there taken
    exact exec_capReceive_of_taken there taken
  case capWidth =>
    intro s k sd heard spare t s2 there taken training mismatch
    rw [exec_capReceive_of_taken there taken, capAct_width_mismatch training mismatch]
  case capSame =>
    intro s k sd heard spare t s2 u v there taken width trunk accepted value same
    rw [exec_capReceive_of_taken there taken, capAct_fits width trunk accepted value, if_pos same]
  case capNew =>
    intro s k sd heard spare t s2 u v there taken width trunk accepted value new
    rw [exec_capReceive_of_taken there taken, capAct_fits width trunk accepted value, if_neg new]
  case rateLeads =>
    intro s k sd heard t s2 there taken leading
    exact (onUnit_trnReceive_of_taken there (by decide) taken).trans (by rw [rateAct_of_leads leading])
  case rateWaits =>
    intro s k sd heard t s2 there taken led following training steady waits
    exact (onUnit_trnReceive_of_taken there (by decide) taken).trans
      (by rw [rateAct_of_follows led following training steady, rateFollow_of_ackWaits waits])
  case rateOther =>
    intro s k sd heard t s2 r u result answered there taken led following training steady fresh other
    exact (onUnit_trnReceive_of_taken there (by decide) taken).trans
      (by rw [rateAct_of_follows led following training steady, rateFollow_not_accepted result answered fresh other])
  case rateAccepted =>
    intro s k sd heard t s2 r u v w result answered sighted stepped there taken led following training steady fresh
      accepted
    exact (onUnit_trnReceive_of_taken there (by decide) taken).trans
      (by rw [rateAct_of_follows led following training steady,
        rateFollow_accepted result answered sighted stepped fresh accepted])
  case ackAccepted =>
    intro s k sd heard t s2 r there taken out stepping leading tag accepted
    exact (onUnit_trnReceive_of_taken there (by decide) taken).trans
      (by rw [rateAckAct_answered out stepping leading tag, if_pos accepted])
  case ackOther =>
    intro s k sd heard t s2 r there taken out stepping leading tag other
    exact (onUnit_trnReceive_of_taken there (by decide) taken).trans
      (by rw [rateAckAct_answered out stepping leading tag, if_neg other])
  case readyPass =>
    intro s k sd heard t s2 there taken training rung pass
    exact (onUnit_trnReceive_of_taken there (by decide) taken).trans
      (by rw [readyAct_at_rung training rung rfl, if_pos pass, pass])
  case readyJoined =>
    intro s k sd heard t s2 u there taken noted training rung fails joined
    exact (onUnit_trnReceive_of_taken there (by decide) taken).trans
      (by rw [readyAct_at_rung training rung (fails ▸ noted), if_neg (ne_true_of_eq_false fails), if_pos joined])
  case readyAlone =>
    intro s k sd heard t s2 u there taken noted training rung fails alone sighted
    exact (onUnit_trnReceive_of_taken there (by decide) taken).trans
      (by rw [readyAct_at_rung training rung (fails ▸ noted), if_neg (ne_true_of_eq_false fails),
        if_neg (ne_true_of_eq_false alone), if_neg (ne_true_of_eq_false sighted)])
  case echoReq =>
    intro s k sd heard turn t s2 there taken answers
    exact (onUnit_trnReceive_of_taken there (by decide) taken).trans (by rw [echoReqAct_answers answers])
  case echoNext =>
    intro s k sd heard sample t s2 u there taken sampled measuring out tag few
    exact (onUnit_trnReceive_of_taken there (by decide) taken).trans
      (by rw [echoRspAct_sample sampled measuring out tag, if_neg (by omega)])
  case echoDone =>
    intro s k sd heard sample t s2 u there taken sampled measuring out tag eighth
    exact (onUnit_trnReceive_of_taken there (by decide) taken).trans
      (by rw [echoRspAct_sample sampled measuring out tag, if_pos (by omega)])
  case retrain =>
    intro s k sd heard t s2 there taken
    exact onUnit_trnReceive_of_taken there (by decide) taken
  case denseReq =>
    intro s k sd heard t s2 there taken up
    exact (onUnit_trnReceive_of_taken there (by decide) taken).trans (by simp only [up, if_true])
  case denseRel =>
    intro s k sd heard t s2 there taken up
    exact (onUnit_trnReceive_of_taken there (by decide) taken).trans (by simp only [up, if_true])

end Sys2Proof.Machine
end

section
/-!
Flits and ordered sets that arrive on a live side (R165-R174, R219, R233, R90, R91): what a command of a live side hears,
then what becomes of a flit on a trunk side and on an endpoint side, and of an ACK, an EIE and a SKP set.
-/

namespace Sys2Proof.Machine

/-! ## Flits -/

/-- A test of two facts fails where one of them does. -/
theorem decide_and_eq_false {p q : Prop} [Decidable p] [Decidable q] (fails : ¬p ∨ ¬q) :
    (decide p && decide q) = false := by
  rcases fails with first | second
  · rw [decide_eq_false first, Bool.false_and]
  · rw [decide_eq_false second, Bool.and_false]

section flitReceive

variable {s : State} {k : Nat} {sd : Side} {slices : List (List Nat)}

theorem flitHeard_taken {act : List Slice → State → State} (takes : takesFlits s k sd = true)
    (starts : flitStarts (receivedSlices s k sd slices) = true) :
    flitHeard k sd slices act s = act (receivedSlices s k sd slices) (slicesHeard k sd slices s) := by
  simp only [flitHeard, takes, starts, Bool.and_self, if_true]

theorem flitHeard_only_heard {act : List Slice → State → State}
    (unheeded : (takesFlits s k sd && flitStarts (receivedSlices s k sd slices)) = false) :
    flitHeard k sd slices act s = slicesHeard k sd slices s := by
  simp only [flitHeard, unheeded, Bool.false_eq_true, if_false]

/-- At a live side of a link of the part the command goes on with what it says. -/
theorem onUnit_of_live {t : State} (there : k < linksOf s) (live : sideLive s k sd = true) :
    onUnit (k < linksOf s) (if sideLive s k sd then t else s) = .next t := by
  rw [onUnit_of_present (decide_eq_true there), if_pos live]

theorem onUnit_unless_dead {t : State} (there : k < linksOf s) (live : sideLive s k sd = true) :
    onUnit (k < linksOf s) (if !sideLive s k sd then s else t) = .next t := by
  rw [onUnit_of_present (decide_eq_true there), if_neg (by simp [live])]

theorem exec_flitReceive_only_heard {cut fail1 fail2 : Bool} (there : k < linksOf s) (live : sideLive s k sd = true)
    (unheeded : (takesFlits s k sd && flitStarts (receivedSlices s k sd slices)) = false) :
    exec (.flitReceive k sd slices cut fail1 fail2) s = .next (slicesHeard k sd slices s) :=
  (onUnit_of_live there live).trans (by rw [flitHeard_only_heard unheeded])

theorem exec_flitReceive_starts {cut fail1 fail2 : Bool} (there : k < linksOf s) (live : sideLive s k sd = true)
    (takes : takesFlits s k sd = true) (starts : flitStarts (receivedSlices s k sd slices) = true) :
    exec (.flitReceive k sd slices cut fail1 fail2) s =
      .next (flitArrive k sd (receivedSlices s k sd slices) cut fail1 fail2 (slicesHeard k sd slices s)) :=
  (onUnit_of_live there live).trans (by rw [flitHeard_taken takes starts])

section judged

variable {cut fail1 fail2 : Bool} {v u : State} {L : List Slice} {w : Nat} {fl : Flit}
  (heard : v = slicesHeard k sd slices s) (read : L = receivedSlices s k sd slices) (width : w = sideWidth v k sd)
  (flit : fl = ({ bytes := arrivedBytes w L, cls := if mapMixed v k sd then 1 else arrivalClass w L } : Flit))
  (counted : u = countClass k sd.dirIn.idx (arrivalClass w L) v) (there : k < linksOf s) (live : sideLive s k sd = true)
  (takes : takesFlits s k sd = true) (starts : flitStarts L = true)

include heard read width flit counted there live takes starts

/-- A flit that starts on a trunk side is judged by the table of R219. -/
theorem exec_flitReceive_trunk (trunk : isTrunkSide u k sd = true) :
    exec (.flitReceive k sd slices cut fail1 fail2) s = .next (trunkArrive k sd fl fail1 fail2 u) := by
  subst heard read width flit counted
  rw [exec_flitReceive_starts there live takes starts]
  simp only [flitArrive, trunk, if_true]

/-- A flit that starts on an endpoint side. -/
theorem exec_flitReceive_endpoint (endpoint : isTrunkSide u k sd = false) :
    exec (.flitReceive k sd slices cut fail1 fail2) s = .next (endpointArrive k sd fl cut fail1 fail2 u) := by
  subst heard read width flit counted
  rw [exec_flitReceive_starts there live takes starts]
  simp only [flitArrive, endpoint, Bool.false_eq_true, if_false]

end judged

/-! ### The control flit command (R250) -/

theorem exec_controlFlitReceive_only_heard (there : k < linksOf s) (live : sideLive s k sd = true)
    (unheeded : (takesFlits s k sd && flitStarts (receivedSlices s k sd slices)) = false) :
    exec (.controlFlitReceive k sd slices) s = .next (slicesHeard k sd slices s) :=
  (onUnit_of_live there live).trans (by rw [flitHeard_only_heard unheeded])

section control

variable (there : k < linksOf s) (live : sideLive s k sd = true) (takes : takesFlits s k sd = true)
  (starts : flitStarts (receivedSlices s k sd slices) = true)

include there live takes starts

theorem exec_controlFlitReceive_control
    (good : arrivalClass (sideWidth (slicesHeard k sd slices s) k sd) (receivedSlices s k sd slices) = 0)
    (control : flitType (arrivedBytes (sideWidth (slicesHeard k sd slices s) k sd) (receivedSlices s k sd slices)) = 15) :
    exec (.controlFlitReceive k sd slices) s =
      .next (flitArrive k sd (receivedSlices s k sd slices) false false false (slicesHeard k sd slices s)) := by
  refine (onUnit_of_live there live).trans ?_
  simp only [flitHeard_taken takes starts, good, control, decide_true, Bool.and_self, if_true]

theorem exec_controlFlitReceive_other
    (other : arrivalClass (sideWidth (slicesHeard k sd slices s) k sd) (receivedSlices s k sd slices) ≠ 0 ∨
      flitType (arrivedBytes (sideWidth (slicesHeard k sd slices s) k sd) (receivedSlices s k sd slices)) ≠ 15) :
    exec (.controlFlitReceive k sd slices) s = .next (slicesHeard k sd slices s) := by
  refine (onUnit_of_live there live).trans ?_
  rw [flitHeard_taken takes starts, if_neg (ne_true_of_eq_false (decide_and_eq_false other))]

end control

end flitReceive

/-! ## The table of R219 -/

section trunkArrive

variable {s : State} {k : Nat} {sd : Side} {fl : Flit} {fail1 fail2 : Bool}

theorem trunkArrive_badIn (badIn : fl.cls = 2) : trunkArrive k sd fl fail1 fail2 s = s := by
  simp only [trunkArrive, badIn, if_true]

theorem trunkArrive_bad (bad : fl.cls ≠ 0) (counted : fl.cls ≠ 2) :
    trunkArrive k sd fl fail1 fail2 s = postNak (trunkKey s k sd) s := by
  simp only [trunkArrive, bad, counted, ne_eq, not_false_eq_true, if_true, if_false]

/-- A good flit with another number than the expected one: ahead of it or behind. -/
theorem trunkArrive_out_of_sequence (good : fl.cls = 0)
    (other : wordSpan (flitWord fl.bytes) ≠ (s.trunk (trunkKey s k sd)).expect) :
    trunkArrive k sd fl fail1 fail2 s =
      if isAhead16 (wordSpan (flitWord fl.bytes)) (s.trunk (trunkKey s k sd)).expect then postNak (trunkKey s k sd) s
      else postDrnAck (trunkKey s k sd) (countTrunk (trunkKey s k sd) R.DUP_span R.CAL_DUP_span s) := by
  simp [trunkArrive, good, other]

theorem trunkArrive_expected (good : fl.cls = 0)
    (expected : wordSpan (flitWord fl.bytes) = (s.trunk (trunkKey s k sd)).expect) :
    trunkArrive k sd fl fail1 fail2 s = inSequence (trunkKey s k sd) k sd fl fail1 fail2 s := by
  simp [trunkArrive, good, expected]

end trunkArrive

/-! ## An endpoint side -/

section endpointArrive

variable {s u : State} {k : Nat} {sd : Side} {fl : Flit} {cut fail1 fail2 : Bool}

theorem endpointArrive_control (good : fl.cls = 0) (control : flitType fl.bytes = 15) :
    endpointArrive k sd fl cut fail1 fail2 s = s.count (R.TYPEF k sd.dirIn.idx) := by
  simp only [endpointArrive, good, control, decide_true, Bool.and_self, if_true]

/-- Any flit but a good one of type 0xF enters by the mode of the link, a link word other than 0 counted. -/
theorem endpointArrive_enters (other : fl.cls ≠ 0 ∨ flitType fl.bytes ≠ 15)
    (counted : u = if fl.cls = 0 && flitWord fl.bytes ≠ 0 then s.count (R.LLW_NZ k sd.dirIn.idx) else s) :
    endpointArrive k sd fl cut fail1 fail2 s =
      if modeOf u k = mBundle then bundleEntry k sd fl cut fail1 fail2 u
      else if isTrunkMode (modeOf u k) then
        trunkEntry k sd (crossSeam k sd (spanKey k sd.other) fail1 fail2 fl u).1 cut
          (crossSeam k sd (spanKey k sd.other) fail1 fail2 fl u).2
      else fifoEntry k sd fl fail1 fail2 u := by
  have entering : (decide (fl.cls = 0) && decide (flitType fl.bytes = 15)) = false := decide_and_eq_false other
  subst counted
  simp only [endpointArrive, entering, Bool.false_eq_true, if_false]

end endpointArrive

/-! ## ACK sets (R174) -/

section ackSets

variable {s s2 : State} {k : Nat} {sd : Side} {heard : List Heard} {a : AckSet} {fail1 fail2 : Bool}

theorem exec_ackSetReceive_up (there : k < linksOf s) (live : sideLive s k sd = true)
    (arrives : setArrives readAck k sd heard s = (some a, s2)) (up : spanUp s2 k sd = true) :
    exec (.ackSetReceive k sd heard fail1 fail2) s = .next (ackArrive k sd a fail1 fail2 s2) := by
  refine (onUnit_unless_dead there live).trans ?_
  simp only [arrives, up, if_true]

theorem ackArrive_bundle_trunk (bundle : modeOf s k = mBundle) (trunk : isTrunkSide s k sd = true) :
    ackArrive k sd a fail1 fail2 s = countCal (trunkKey s k sd) R.CAL_MISC_rejects s := by
  simp only [ackArrive, bundle, trunk, if_true]

theorem ackArrive_bundle_endpoint {l e : Nat} (bundle : modeOf s k = mBundle) (endpoint : isTrunkSide s k sd = false)
    (named : llOfSpan s k sd = some (l, e)) :
    ackArrive k sd a fail1 fail2 s = ackToFlow (llFlow l (1 - e)) a s := by
  simp only [ackArrive, bundle, endpoint, named, Bool.false_eq_true, if_true, if_false]

theorem ackArrive_bundle_unnamed (bundle : modeOf s k = mBundle) (endpoint : isTrunkSide s k sd = false)
    (unnamed : llOfSpan s k sd = none) : ackArrive k sd a fail1 fail2 s = s := by
  simp only [ackArrive, bundle, endpoint, unnamed, Bool.false_eq_true, if_true, if_false]

theorem ackArrive_trunk_link (single : modeOf s k ≠ mBundle) (mode : isTrunkMode (modeOf s k) = true) :
    ackArrive k sd a fail1 fail2 s =
      if isTrunkSide s k sd then
        (s.modFlow (linkFlow k sd.dirOut) fun v => { v with xoff := a.map }).wr (R.XOFF_TIN_map k) a.map
      else (ackToFlow (linkFlow k sd.dirOut) a s).wr (R.XOFF_EP_map k) a.map := by
  simp only [ackArrive, single, mode, if_true, if_false]

theorem ackArrive_other_link (single : modeOf s k ≠ mBundle) (mode : isTrunkMode (modeOf s k) = false) :
    ackArrive k sd a fail1 fail2 s = ackForward k sd a fail1 fail2 (darnObserve (linkFlow k sd.dirOut) a s) := by
  simp only [ackArrive, single, mode, Bool.false_eq_true, if_false]

theorem ackForward_same_die (same : sideDie s k sd = sideDie s k sd.other) :
    ackForward k sd a fail1 fail2 s = postAck k sd.other a s := by
  simp only [ackForward, same, if_true]

theorem ackForward_over_seam (apart : sideDie s k sd ≠ sideDie s k sd.other) :
    ackForward k sd a fail1 fail2 s =
      if (seamSend (sideDie s k sd) fail1 fail2 s).1 then
        postAck k sd.other a (seamSend (sideDie s k sd) fail1 fail2 s).2
      else (seamSend (sideDie s k sd) fail1 fail2 s).2 := by
  simp only [ackForward, apart, if_false]
  obtain ⟨_ | _, _⟩ := seamSend (sideDie s k sd) fail1 fail2 s <;> rfl

end ackSets

/-! ## EIE and SKP sets -/

section otherSets

variable {s s2 : State} {k : Nat} {sd : Side} {heard : List Heard}

theorem exec_eieReceive_accepted {e : Unit} (there : k < linksOf s) (live : sideLive s k sd = true)
    (arrives : setArrives readEie k sd heard s = (some e, s2)) :
    exec (.eieReceive k sd heard) s = .next (s2.putSide k sd { s2.side k sd with lastEie := some s2.clock }) := by
  refine (onUnit_unless_dead there live).trans ?_
  simp only [arrives]

theorem exec_skpReceive_accepted {fill interval m : Nat} (there : k < linksOf s) (live : sideLive s k sd = true)
    (arrives : setArrives readSkp k sd heard s = (some m, s2)) (some_k28 : 1 ≤ m) (at_most : m ≤ 7) :
    exec (.skpReceive k sd heard fill interval) s = .next (skpArrive k sd m fill interval s2) := by
  refine (onUnit_unless_dead there live).trans ?_
  simp only [arrives, some_k28, at_most, decide_true, Bool.and_self, if_true]

/-- A SKP set moves the elastic buffer and the density seen, and is to be forwarded where the sides use the same lanes and
are both UP. -/
theorem skpArrive_eq {fill interval m : Nat} {v : State} (seen : v = denseSeen k sd interval (ebTake k sd m fill s).2) :
    skpArrive k sd m fill interval s =
      if isSameLanes (modeOf v k) && modeOf v k ≠ mTransparent && spanUp v k sd && spanUp v k sd.other then
        v.putSide k sd.other { v.side k sd.other with
          skpFwd := (v.side k sd.other).skpFwd ++
            [{ n := (ebTake k sd m fill s).1, entered := (v.flow (linkFlow k sd.dirIn)).entered, arr := v.freeCtr }] }
      else v := by
  subst seen
  rfl

end otherSets

/-- Settles O23: a flit that starts goes by the table of R219 on a trunk side and by the mode of its link on an endpoint
side; the other clauses are the cases of the control flit command and of the sets. -/
theorem setsAndFlitsArrive : Obligations.SetsAndFlitsArrive := by
  unfold Obligations.SetsAndFlitsArrive
  refine ⟨?trunkBadIn, ?trunkBad, ?trunkAhead, ?trunkBehind, ?trunkExpected, ?endpointControl, ?endpointBundle,
    ?endpointTrunk, ?endpointFifo, ?onlyHeard, ?control, ?controlAsFlit, ?controlUnheeded, ?controlOther,
    ?ackBundleTrunk, ?ackBundleEndpoint, ?ackBundleUnnamed, ?ackTrunkSide, ?ackTrunkLink, ?ackSameDie, ?ackSeam, ?idl,
    ?eie, ?skpForward, ?skpStays⟩
  case trunkBadIn =>
    intro s k sd slices cut fail1 fail2 v L w fl u heard read width flit counted there live takes starts trunk badIn
    rw [exec_flitReceive_trunk heard read width flit counted there live takes starts trunk, trunkArrive_badIn badIn]
  case trunkBad =>
    intro s k sd slices cut fail1 fail2 v L w fl u heard read width flit counted there live takes starts trunk bad notIn
    rw [exec_flitReceive_trunk heard read width flit counted there live takes starts trunk, trunkArrive_bad bad notIn]
  case trunkAhead =>
    intro s k sd slices cut fail1 fail2 v L w fl u heard read width flit counted there live takes starts trunk good other
      ahead
    rw [exec_flitReceive_trunk heard read width flit counted there live takes starts trunk,
      trunkArrive_out_of_sequence good other, if_pos ahead]
  case trunkBehind =>
    intro s k sd slices cut fail1 fail2 v L w fl u heard read width flit counted there live takes starts trunk good other
      behind
    rw [exec_flitReceive_trunk heard read width flit counted there live takes starts trunk,
      trunkArrive_out_of_sequence good other, if_neg (ne_true_of_eq_false behind)]
  case trunkExpected =>
    intro s k sd slices cut fail1 fail2 v L w fl u heard read width flit counted there live takes starts trunk good
      expected
    rw [exec_flitReceive_trunk heard read width flit counted there live takes starts trunk,
      trunkArrive_expected good expected]
  case endpointControl =>
    intro s k sd slices cut fail1 fail2 v L w fl u heard read width flit counted there live takes starts endpoint good
      control
    rw [exec_flitReceive_endpoint heard read width flit counted there live takes starts endpoint,
      endpointArrive_control good control]
  case endpointBundle =>
    intro s k sd slices cut fail1 fail2 v L w fl u heard read width flit counted there live takes starts endpoint other
      bundle
    rw [exec_flitReceive_endpoint heard read width flit counted there live takes starts endpoint,
      endpointArrive_enters other rfl, if_pos bundle]
  case endpointTrunk =>
    intro s k sd slices cut fail1 fail2 v L w fl u heard read width flit counted there live takes starts endpoint other
      mode
    have single : modeOf _ k ≠ mBundle := fun bundle => by rw [bundle] at mode; cases mode
    rw [exec_flitReceive_endpoint heard read width flit counted there live takes starts endpoint,
      endpointArrive_enters other rfl, if_neg single, if_pos mode]
  case endpointFifo =>
    intro s k sd slices cut fail1 fail2 v L w fl u r heard read width flit counted crossed there live takes starts
      endpoint other single mode
    rw [exec_flitReceive_endpoint heard read width flit counted there live takes starts endpoint,
      endpointArrive_enters other rfl, if_neg single, if_neg (ne_true_of_eq_false mode), fifoEntry, crossed]
  case onlyHeard =>
    intro s k sd slices cut fail1 fail2 there live unheeded
    exact exec_flitReceive_only_heard there live unheeded
  case control =>
    intro s k sd slices there live takes starts good control
    exact exec_controlFlitReceive_control there live takes starts good control
  case controlAsFlit =>
    intro s k sd slices there live takes starts good control
    rw [exec_controlFlitReceive_control there live takes starts good control,
      exec_flitReceive_starts there live takes starts]
  case controlUnheeded =>
    intro s k sd slices there live unheeded
    exact exec_controlFlitReceive_only_heard there live unheeded
  case controlOther =>
    intro s k sd slices there live takes starts other
    exact exec_controlFlitReceive_other there live takes starts other
  case ackBundleTrunk =>
    intro s k sd heard fail1 fail2 a s2 there live arrives up bundle trunk
    rw [exec_ackSetReceive_up there live arrives up, ackArrive_bundle_trunk bundle trunk]
  case ackBundleEndpoint =>
    intro s k sd heard fail1 fail2 a s2 l e there live arrives up bundle endpoint named
    rw [exec_ackSetReceive_up there live arrives up, ackArrive_bundle_endpoint bundle endpoint named, ackToFlow]
  case ackBundleUnnamed =>
    intro s k sd heard fail1 fail2 a s2 there live arrives up bundle endpoint unnamed
    rw [exec_ackSetReceive_up there live arrives up, ackArrive_bundle_unnamed bundle endpoint unnamed]
  case ackTrunkSide =>
    intro s k sd heard fail1 fail2 a s2 there live arrives up single mode trunk
    rw [exec_ackSetReceive_up there live arrives up, ackArrive_trunk_link single mode, if_pos trunk]
  case ackTrunkLink =>
    intro s k sd heard fail1 fail2 a s2 there live arrives up single mode endpoint
    rw [exec_ackSetReceive_up there live arrives up, ackArrive_trunk_link single mode,
      if_neg (ne_true_of_eq_false endpoint), ackToFlow]
  case ackSameDie =>
    intro s k sd heard fail1 fail2 a s2 ds observed there live arrives up single mode same
    subst observed
    rw [exec_ackSetReceive_up there live arrives up, ackArrive_other_link single mode, ackForward_same_die same]
  case ackSeam =>
    intro s k sd heard fail1 fail2 a s2 ds observed there live arrives up single mode apart
    subst observed
    rw [exec_ackSetReceive_up there live arrives up, ackArrive_other_link single mode, ackForward_over_seam apart]
  case idl =>
    intro s k sd heard there live
    exact onUnit_of_live there live
  case eie =>
    intro s k sd heard e s2 there live arrives
    exact exec_eieReceive_accepted there live arrives
  case skpForward =>
    intro s k sd heard fill interval m s2 v seen there live arrives some_k28 at_most forwards
    rw [exec_skpReceive_accepted there live arrives some_k28 at_most, skpArrive_eq seen, if_pos forwards]
  case skpStays =>
    intro s k sd heard fill interval m s2 v seen there live arrives some_k28 at_most stays
    rw [exec_skpReceive_accepted there live arrives some_k28 at_most, skpArrive_eq seen,
      if_neg (ne_true_of_eq_false stays)]

end Sys2Proof.Machine
end

section
/-!
The signal and the symbol lock of an RX end (R54, R55, R71): each command on a lane that is present, case by case, in the
order of `LaneEnds`.
-/

namespace Sys2Proof.Machine

/-! ## Ends that leave LOCKED together -/

/-- Lanes are numbered below 144: 128 data lanes and 16 bobbin lanes (R8). -/
theorem lt_of_lanePresent {s : State} {n : Nat} (present : lanePresent s n = true) : n < 144 := by
  cases part : isLz4064 s <;> simp [lanePresent, lanesOf, clustersOf, part] at present <;> omega

theorem rxLostAll_nil {sd : Side} {cause : Nat} {s : State} : rxLostAll [] sd cause s = s := by
  have none : (List.range 144).filter ([] : List Nat).contains = [] := List.filter_eq_nil_iff.mpr (by simp)
  rw [rxLostAll, none, List.foldl_nil]

/-- The range holds each number below its end once. -/
theorem range_filter_singleton {n : Nat} (m : Nat) :
    (List.range m).filter [n].contains = if n < m then [n] else [] := by
  induction m with
  | zero => rfl
  | succ m ih =>
    rw [List.range_succ, List.filter_append, ih, List.filter_cons, List.filter_nil]
    rcases Nat.lt_trichotomy n m with below | rfl | above
    · have other : [n].contains m = false := by simp [Nat.ne_of_gt below]
      rw [if_pos below, if_pos (Nat.lt_succ_of_lt below), other]
      rfl
    · have same : [n].contains n = true := by simp
      rw [if_neg (Nat.lt_irrefl n), if_pos (Nat.lt_succ_self n), same]
      rfl
    · have other : [n].contains m = false := by simp [Nat.ne_of_lt above]
      rw [if_neg (Nat.lt_asymm above), if_neg (Nat.not_lt.mpr above), other]
      rfl

/-- One lane that has left LOCKED is judged alone. -/
theorem rxLostAll_singleton {n : Nat} {sd : Side} {cause : Nat} {s : State} (lane : n < 144) :
    rxLostAll [n] sd cause s = rxLost n sd cause s := by
  rw [rxLostAll, range_filter_singleton, if_pos lane, List.foldl_cons, List.foldl_nil]

/-- The one lane that a command names, where it qualifies. -/
theorem eraseDups_singleton_filter {n : Nat} {p : Nat → Bool} (qualifies : p n = true) :
    (n :: ([] : List Nat)).eraseDups.filter p = [n] := by
  simp [List.eraseDups_cons, qualifies]

section rxLost

variable {n : Nat} {sd : Side} {cause : Nat} {s : State} (steady : bobState s (laneCluster n) ≠ bbReturning)

include steady

theorem rxLost_spare (spare : endUse s n sd = none) : rxLost n sd cause s = s := by
  simp [rxLost, steady, spare]

/-- The last LOCKED end of a side in UP retrains the span (R154). -/
theorem rxLost_last {k q : Nat} (serves : endUse s n sd = some (k, q)) (up : spanUp s k sd = true)
    (last : (endLanes s k sd).all (fun m => !isLocked s m sd) = true) :
    rxLost n sd cause s = retrain k sd none false s := by
  simp only [rxLost, steady, serves, up, last, decide_false, Bool.and_false, Bool.false_and, Bool.not_true,
    Bool.false_eq_true, if_false, if_true]

end rxLost

/-! ## Signal detect (R71, R115, R135) -/

section signalDetect

variable {s t : State} {n : Nat} {sd : Side} {mv ns : Nat}
  (seen : t = ((s.wr (leSd n sd) 1).wr (leIdle n sd) 0).putRx n sd
    { s.rxe n sd with sdSince := some s.clock, losAt := none })
  (present : lanePresent s n = true) (hears : rxDeaf s n sd = false) (silent : s.on (leSd n sd) = false)
  (loud : (sdLevels s (laneCluster n)).1 ≤ mv) (long : 100 ≤ ns)

include seen present hears silent loud long

theorem exec_signalDetect_transparent {k q : Nat} (serves : endUse t n sd = some (k, q))
    (transparent : modeOf t k = mTransparent) :
    exec (.signalDetect ⟨n, sd⟩ ⟨mv, ns⟩) s =
      .next (steerSync (laneCluster n) (acqRequest n sd (t.rd (R.LNK_CFG_LIVE_rung k sd.idx)) t)) := by
  subst seen
  refine (onUnit_of_present present).trans ?_
  simp only [hears, silent, Nat.not_lt.mpr loud, Nat.not_lt.mpr long, serves, transparent, decide_false, Bool.or_self,
    Bool.false_eq_true, if_false, if_true]

/-- An end that decodes queues the acquisition that waited for the signal. -/
theorem exec_signalDetect_decoding
    (decoding : ∀ k q, endUse t n sd = some (k, q) → modeOf t k ≠ mTransparent) :
    exec (.signalDetect ⟨n, sd⟩ ⟨mv, ns⟩) s =
      .next (steerSync (laneCluster n) (if (t.coefs n sd).acqRung ≠ 7 then acqQueue n sd t else t)) := by
  subst seen
  refine (onUnit_of_present present).trans ?_
  simp only [hears, silent, Nat.not_lt.mpr loud, Nat.not_lt.mpr long, decide_false, Bool.or_self, Bool.false_eq_true,
    if_false]
  split
  · rename_i k q serves
    rw [if_neg (decoding k q serves)]
  · rfl

end signalDetect

theorem exec_signalDetect_too_weak {s : State} {n : Nat} {sd : Side} {mv ns : Nat} (present : lanePresent s n = true)
    (weak : mv < (sdLevels s (laneCluster n)).1 ∨ ns < 100) :
    exec (.signalDetect ⟨n, sd⟩ ⟨mv, ns⟩) s = .next s := by
  refine (onUnit_of_present present).trans ?_
  rw [if_pos (by simpa [or_assoc] using .inr (.inr weak))]

/-! ## Loss of signal (R71, R119) -/

theorem lanePresent_of_losesSignal {s : State} {sd : Side} {mv ns n : Nat} (loses : losesSignal s sd mv ns n = true) :
    lanePresent s n = true := by
  simp only [losesSignal, Bool.and_eq_true] at loses
  exact loses.1.1.1.1

/-- One end that loses its signal is judged as a loss of its span where it was LOCKED. -/
theorem exec_lossOfSignal_alone {s : State} {n : Nat} {sd : Side} {mv ns : Nat}
    (loses : losesSignal s sd mv ns n = true) :
    exec (.lossOfSignal ⟨n, sd⟩ ⟨mv, ns⟩ []) s =
      .next (if isLocked s n sd then rxLost n sd swLos (signalLost n sd ns s) else signalLost n sd ns s) := by
  have present := lanePresent_of_losesSignal loses
  refine (onUnit_of_present present).trans ?_
  simp only [eraseDups_singleton_filter loses, List.foldl_cons, List.foldl_nil, List.filter_cons, List.filter_nil]
  split
  · rw [rxLostAll_singleton (lt_of_lanePresent present)]
  · rw [rxLostAll_nil]

section signalLost

variable {s : State} {n : Nat} {sd : Side} {ns : Nat}

theorem signalLost_spare (spare : endUse s n sd = none) :
    signalLost n sd ns s = acqLost n sd (polDrop n sd (unlock n sd ((((s.wr (leSd n sd) 0).wrB (leIdle n sd) false).putRx n
      sd { s.rxe n sd with sdSince := none, losAt := some s.clock }).raise (16 * laneCluster n + 0)))) := by
  simp only [signalLost, spare, Option.bind_none, Bool.false_eq_true, if_false]

theorem signalLost_after_eie {k q e : Nat} (serves : endUse s n sd = some (k, q)) (eie : (s.side k sd).lastEie = some e)
    (begun : e + ns ≤ s.clock) (soon : s.clock ≤ e + 1000 + ns) :
    signalLost n sd ns s = acqLost n sd (polDrop n sd (unlock n sd (((s.wr (leSd n sd) 0).wrB (leIdle n sd) true).putRx n
      sd { s.rxe n sd with sdSince := none, losAt := some s.clock }))) := by
  simp only [signalLost, serves, eie, begun, soon, Option.bind_some, and_self, decide_true, if_true]

end signalLost

/-! ## Commas (R54, R55) -/

/-- The end starts its search anew: it drops the polarity set in this attempt and is UNLOCKED. -/
def searchAnew (n : Nat) (sd : Side) (s : State) : State :=
  let s := if (s.rxe n sd).polSet then polDrop n sd s else s
  (s.wr (leLock n sd) lkUnlocked).putRx n sd { s.rxe n sd with commas := 0 }

theorem searchAnew_keeping {s : State} {n : Nat} {sd : Side} (unset : (s.rxe n sd).polSet = false) :
    searchAnew n sd s = (s.wr (leLock n sd) lkUnlocked).putRx n sd { s.rxe n sd with commas := 0 } := by
  simp only [searchAnew, unset, Bool.false_eq_true, if_false]

theorem searchAnew_dropping {s : State} {n : Nat} {sd : Side} (wasSet : (s.rxe n sd).polSet = true) :
    searchAnew n sd s =
      ((polDrop n sd s).wr (leLock n sd) lkUnlocked).putRx n sd { (polDrop n sd s).rxe n sd with commas := 0 } := by
  simp only [searchAnew, wasSet, if_true]

section commaDetect

variable {s : State} {n : Nat} {sd : Side} {offset : Nat} {mirror plus : Bool} (present : lanePresent s n = true)
  (runs : clusterStopped s (laneCluster n) = false) (signal : s.on (leSd n sd) = true) (decoding : decodes s n sd = true)
  (inRange : offset < (if isPam (ckRate s (laneCluster n) sd.dirIn) then 5 else 10))

include present runs signal decoding inRange

/-- What a comma at an end that hears and decodes does, by the lock state of the end. -/
theorem exec_commaDetect_heard :
    exec (.commaDetect ⟨n, sd⟩ offset mirror plus) s = .next (
      if s.rd (leLock n sd) = lkUnlocked then commaRd n sd plus (alignEnd n sd offset mirror s)
      else if s.rd (leLock n sd) = lkAligning then
        (if offset ≠ (s.rxe n sd).offset then searchAnew n sd s
        else if (s.rxe n sd).commas + 1 < acqCommas s (laneCluster n) then
          commaRd n sd plus (s.putRx n sd { s.rxe n sd with commas := (s.rxe n sd).commas + 1 })
        else lockEnd n sd (commaRd n sd plus s))
      else if offset ≠ (s.rxe n sd).offset then oneBad n sd s else s) := by
  refine (onUnit_of_present present).trans ?_
  simp only [runs, signal, decoding, Nat.not_le.mpr inRange, Bool.not_true, Bool.or_self, Bool.false_eq_true, if_false,
    searchAnew]

theorem exec_commaDetect_unlocked (unlocked : s.rd (leLock n sd) = lkUnlocked) :
    exec (.commaDetect ⟨n, sd⟩ offset mirror plus) s = .next (commaRd n sd plus (alignEnd n sd offset mirror s)) := by
  rw [exec_commaDetect_heard present runs signal decoding inRange, if_pos unlocked]

theorem exec_commaDetect_aligning (aligning : s.rd (leLock n sd) = lkAligning) :
    exec (.commaDetect ⟨n, sd⟩ offset mirror plus) s = .next (
      if offset ≠ (s.rxe n sd).offset then searchAnew n sd s
      else if (s.rxe n sd).commas + 1 < acqCommas s (laneCluster n) then
        commaRd n sd plus (s.putRx n sd { s.rxe n sd with commas := (s.rxe n sd).commas + 1 })
      else lockEnd n sd (commaRd n sd plus s)) := by
  rw [exec_commaDetect_heard present runs signal decoding inRange, if_neg (by rw [aligning]; decide), if_pos aligning]

theorem exec_commaDetect_locked (locked : s.rd (leLock n sd) = lkLocked) :
    exec (.commaDetect ⟨n, sd⟩ offset mirror plus) s =
      .next (if offset ≠ (s.rxe n sd).offset then oneBad n sd s else s) := by
  rw [exec_commaDetect_heard present runs signal decoding inRange, if_neg (by rw [locked]; decide),
    if_neg (by rw [locked]; decide)]

end commaDetect

/-! ## The lock is acquired and lost (R55) -/

/-- The state in which an RX end has entered LOCKED, before the lanes of its span are judged. -/
def lockEntered (n : Nat) (sd : Side) (t : State) : State :=
  steerSync (laneCluster n) (adaptEnters n sd (ebCentre n sd ((((t.putRx n sd
    { t.rxe n sd with
      winFrom := 850 * t.clock, commas := 0, bad := 0, misses := 0, balRun := isPam (ckRate t (laneCluster n) sd.dirIn),
      polSet := false,
      polDecided := (t.rxe n sd).polDecided || (isPam (ckRate t (laneCluster n) sd.dirIn) && polAuto t n sd) }).wr
    (leLock n sd) lkLocked).wr (R.LANE_NUM_num_valid (laneCluster n) (lanePos n) sd.idx) 0).wr
    (R.BAL_valid (laneCluster n) (lanePos n) sd.idx) 0)))

theorem lockEnd_spare {n : Nat} {sd : Side} {t u : State} (entered : u = lockEntered n sd t)
    (spare : endUse u n sd = none) : lockEnd n sd t = u := by
  rw [entered] at spare ⊢
  show (match endUse (lockEntered n sd t) n sd with
    | some (k, _) => qualifyCheck k sd (lockEntered n sd t)
    | none => lockEntered n sd t) = _
  rw [spare]

theorem lockEnd_serving {n k q : Nat} {sd : Side} {t u : State} (entered : u = lockEntered n sd t)
    (serves : endUse u n sd = some (k, q)) : lockEnd n sd t = qualifyCheck k sd u := by
  rw [entered] at serves ⊢
  show (match endUse (lockEntered n sd t) n sd with
    | some (k, _) => qualifyCheck k sd (lockEntered n sd t)
    | none => lockEntered n sd t) = _
  rw [serves]

theorem exec_symbolLockAcquired_complete {s : State} {n : Nat} {sd : Side} {plus : Bool} (present : lanePresent s n = true)
    (runs : clusterStopped s (laneCluster n) = false) (aligning : s.rd (leLock n sd) = lkAligning)
    (complete : acqCommas s (laneCluster n) ≤ (s.rxe n sd).commas + 1) :
    exec (.symbolLockAcquired ⟨n, sd⟩ plus) s = .next (lockEnd n sd (commaRd n sd plus s)) := by
  refine (onUnit_of_present present).trans ?_
  simp only [runs, aligning, complete, decide_true, Bool.not_false, Bool.and_self, if_true]

theorem exec_aligningBadSymbol {s : State} {n : Nat} {sd : Side} (present : lanePresent s n = true)
    (runs : clusterStopped s (laneCluster n) = false) (aligning : s.rd (leLock n sd) = lkAligning) :
    exec (.aligningBadSymbol n sd) s = .next (searchAnew n sd s) := by
  refine (onUnit_of_present present).trans ?_
  simp only [runs, aligning, ne_eq, not_true_eq_false, decide_false, Bool.or_self, Bool.false_eq_true, if_false,
    searchAnew]

/-- One end that loses its lock raises its source, counts, and is judged as a loss of its span. -/
theorem exec_lockLoss_alone {s t : State} {n : Nat} {sd : Side} (dropped : t = lockDrop n sd s)
    (loses : losesLock s sd n = true) : exec (.lockLoss ⟨n, sd⟩ []) s = .next (rxLost n sd swLock t) := by
  have present : lanePresent s n = true := by
    simp only [losesLock, Bool.and_eq_true] at loses
    exact loses.1.1.1
  refine (onUnit_of_present present).trans ?_
  simp only [locksLost, eraseDups_singleton_filter loses, List.foldl_cons, List.foldl_nil,
    rxLostAll_singleton (lt_of_lanePresent present), dropped]

theorem exec_lolWindowEnd_due {s : State} {n : Nat} {sd : Side} (present : lanePresent s n = true)
    (runs : clusterStopped s (laneCluster n) = false) (locked : isLocked s n sd = true)
    (due : (s.rxe n sd).winFrom + lolWindow s n sd ≤ 850 * s.clock) :
    exec (.lolWindowEnd n sd) s =
      .next (s.putRx n sd { s.rxe n sd with bad := 0, winFrom := (s.rxe n sd).winFrom + lolWindow s n sd }) := by
  refine (onUnit_of_present present).trans ?_
  simp only [runs, locked, due, decide_true, Bool.not_false, Bool.and_self, if_true]

/-- Settles O13: signal detect by what the end serves, loss of signal by whether the end was LOCKED and an EIE set came
before it, a comma by the lock state and the offset, and the lock acquired and lost. -/
theorem signalAndLockEvents : Obligations.SignalAndLockEvents := by
  unfold Obligations.SignalAndLockEvents
  refine ⟨?sdSpare, ?sdSpareWaits, ?sdTransparent, ?sdServing, ?sdServingWaits, ?sdWeak, ?losSpare, ?losExpected,
    ?losLocked, ?losTogether, ?commaFirst, ?commaCounts, ?commaCompletes, ?commaElsewhere, ?commaElsewhereSet, ?commaLocked,
    ?commaBad, ?commaLoses, ?lockSpare, ?lockServing, ?badSymbol, ?badSymbolSet, ?lossSpare, ?lossLast, ?lossTogether, ?window⟩
  case sdSpare =>
    intro s n sd mv ns t seen present hears silent loud long spare idle
    rw [exec_signalDetect_decoding seen present hears silent loud long (by simp [spare]), if_neg (not_not_intro idle)]
  case sdSpareWaits =>
    intro s n sd mv ns t seen present hears silent loud long spare waits
    rw [exec_signalDetect_decoding seen present hears silent loud long (by simp [spare]), if_pos waits]
  case sdTransparent =>
    intro s n sd mv ns t k q seen present hears silent loud long serves transparent
    exact exec_signalDetect_transparent seen present hears silent loud long serves transparent
  case sdServing =>
    intro s n sd mv ns t k q seen present hears silent loud long serves decoding idle
    rw [exec_signalDetect_decoding seen present hears silent loud long (by simp [serves, decoding]),
      if_neg (not_not_intro idle)]
  case sdServingWaits =>
    intro s n sd mv ns t k q seen present hears silent loud long serves decoding waits
    rw [exec_signalDetect_decoding seen present hears silent loud long (by simp [serves, decoding]), if_pos waits]
  case sdWeak =>
    intro s n sd mv ns present weak
    exact exec_signalDetect_too_weak present weak
  case losSpare =>
    intro s n sd mv ns loses unlocked spare
    rw [exec_lossOfSignal_alone loses, if_neg (ne_true_of_eq_false unlocked), signalLost_spare spare]
  case losExpected =>
    intro s n sd mv ns k q e loses unlocked serves eie begun soon
    rw [exec_lossOfSignal_alone loses, if_neg (ne_true_of_eq_false unlocked),
      signalLost_after_eie serves eie begun soon]
  case losLocked =>
    intro s n sd mv ns loses locked spare
    rw [exec_lossOfSignal_alone loses, if_pos locked, signalLost_spare spare]
  case losTogether =>
    intro s n sd mv ns also present
    exact onUnit_of_present present
  case commaFirst =>
    intro s n sd offset mirror plus present runs signal decoding inRange unlocked
    exact exec_commaDetect_unlocked present runs signal decoding inRange unlocked
  case commaCounts =>
    intro s n sd offset mirror plus present runs signal decoding inRange aligning same few
    rw [exec_commaDetect_aligning present runs signal decoding inRange aligning, if_neg (not_not_intro same), if_pos few]
  case commaCompletes =>
    intro s n sd offset mirror plus present runs signal decoding inRange aligning same complete
    rw [exec_commaDetect_aligning present runs signal decoding inRange aligning, if_neg (not_not_intro same),
      if_neg (Nat.not_lt.mpr complete)]
  case commaElsewhere =>
    intro s n sd offset mirror plus present runs signal decoding inRange aligning other unset
    rw [exec_commaDetect_aligning present runs signal decoding inRange aligning, if_pos other, searchAnew_keeping unset]
  case commaElsewhereSet =>
    intro s n sd offset mirror plus present runs signal decoding inRange aligning other wasSet
    rw [exec_commaDetect_aligning present runs signal decoding inRange aligning, if_pos other, searchAnew_dropping wasSet]
  case commaLocked =>
    intro s n sd offset mirror plus present runs signal decoding inRange locked same
    rw [exec_commaDetect_locked present runs signal decoding inRange locked, if_neg (not_not_intro same)]
  case commaBad =>
    intro s n sd offset mirror plus present runs signal decoding inRange locked other few
    rw [exec_commaDetect_locked present runs signal decoding inRange locked, if_pos other, oneBad,
      if_neg (Nat.not_le.mpr few)]
  case commaLoses =>
    intro s n sd offset mirror plus present runs signal decoding inRange locked other reached
    rw [exec_commaDetect_locked present runs signal decoding inRange locked, if_pos other, oneBad, if_pos reached]
  case lockSpare =>
    intro s n sd plus t u comma entered present runs aligning complete spare
    rw [exec_symbolLockAcquired_complete present runs aligning complete, ← comma, lockEnd_spare entered spare]
  case lockServing =>
    intro s n sd plus t u k q comma entered present runs aligning complete serves
    rw [exec_symbolLockAcquired_complete present runs aligning complete, ← comma, lockEnd_serving entered serves]
  case badSymbol =>
    intro s n sd present runs aligning unset
    rw [exec_aligningBadSymbol present runs aligning, searchAnew_keeping unset]
  case badSymbolSet =>
    intro s n sd present runs aligning wasSet
    rw [exec_aligningBadSymbol present runs aligning, searchAnew_dropping wasSet]
  case lossSpare =>
    intro s n sd t dropped loses steady spare
    rw [exec_lockLoss_alone dropped loses, rxLost_spare steady spare]
  case lossLast =>
    intro s n sd t k q dropped loses steady serves up last
    rw [exec_lockLoss_alone dropped loses, rxLost_last steady serves up last]
  case lossTogether =>
    intro s n sd also present
    exact onUnit_of_present present
  case window =>
    intro s n sd present runs locked due
    exact exec_lolWindowEnd_due present runs locked due

end Sys2Proof.Machine
end

section
/-!
Lane-end measurements and registers (R53, R72-R77, R80, R494), case by case, in the order of `LaneEnds`.
-/

namespace Sys2Proof.Machine

/-! ## Opens and shorts (R73-R75) -/

theorem exec_rxOpen_classifies {s : State} {n : Nat} {sd : Side} (present : lanePresent s n = true)
    (hears : rxDeaf s n sd = false) (silent : s.on (leSd n sd) = false)
    (long : (s.rxe n sd).losAt.getD 0 + 10000000 < s.clock) (unclassified : s.on (leRxOpen n sd) = false)
    (elsewhere : otherSignal s n sd = true) :
    exec (.rxOpen n sd) s = .next (endFailed n sd false
      ((s.wr (leRxOpen n sd) 1).wired 3 sd.idx n (16 * laneCluster n + 12))) := by
  refine (onUnit_of_present present).trans ?_
  simp only [hears, silent, Nat.not_le.mpr long, unclassified, elsewhere, Bool.not_true, decide_false, Bool.or_self,
    Bool.false_eq_true, if_false]

section rxOpenClear

variable {s t : State} {n : Nat} {sd : Side} (released : t = bobRelease (laneCluster n) (s.wr (leRxOpen n sd) 0))
  (present : lanePresent s n = true) (runs : clusterStopped s (laneCluster n) = false) (signal : s.on (leSd n sd) = true)
  (lasted : passed (s.rxe n sd).sdSince 1000000 s.clock = true) (isOpen : s.on (leRxOpen n sd) = true)

include released present runs signal lasted isOpen

theorem exec_rxOpenClear_spare (spare : endUse t n sd = none) : exec (.rxOpenClear n sd) s = .next t := by
  subst released
  refine (onUnit_of_present present).trans ?_
  simp only [runs, signal, lasted, isOpen, spare, Bool.not_false, Bool.and_self, if_true]

theorem exec_rxOpenClear_serving {k q : Nat} (serves : endUse t n sd = some (k, q)) :
    exec (.rxOpenClear n sd) s = .next (qualifyCheck k sd t) := by
  subst released
  refine (onUnit_of_present present).trans ?_
  simp only [runs, signal, lasted, isOpen, serves, Bool.not_false, Bool.and_self, if_true]

end rxOpenClear

theorem exec_txShort_lane {s : State} {n cls : Nat} {sd : Side} (lane : n < 144) (present : lanePresent s n = true)
    (sends : (s.txe n sd).idle = false) (least : 1 ≤ cls) (most : cls ≤ 3) :
    exec (.txShort n sd cls) s = .next (endFailed n sd true
      (((s.wr (leTxFault n sd) cls).txRest n sd).wired 1 sd.idx n (16 * laneCluster n + 12))) := by
  refine (if_neg (Nat.not_le.mpr lane)).trans ((onUnit_of_present present).trans ?_)
  simp only [sends, Nat.ne_of_gt least, Nat.not_lt.mpr most, decide_false, Bool.or_self, Bool.false_eq_true, if_false]

theorem exec_txShort_exit_clock {s : State} {c cls : Nat} {sd : Side} (there : c < clustersOf s)
    (sends : (s.ckExit c sd.dirOut).idle = false) (least : 1 ≤ cls) (most : cls ≤ 3) :
    exec (.txShort (144 + c) sd cls) s = .next ((s.putCkExit c sd.dirOut
      { s.ckExit c sd.dirOut with idle := true, txFault := cls }).raise (16 * c + 12)) := by
  have cluster : 144 + c - 144 = c := Nat.add_sub_cancel_left 144 c
  refine (if_pos (Nat.le_add_right 144 c)).trans ?_
  simp only [cluster, onUnit_of_present (decide_eq_true there), sends, Nat.ne_of_gt least, Nat.not_lt.mpr most,
    decide_false, Bool.or_self, Bool.false_eq_true, if_false]

/-! ## Termination detection (R72, R80) -/

/-- The selection that a TERM_CMD write stores. -/
def termSelected (c mask : Nat) (a b : Bool) (s : State) : State :=
  ((s.wr (R.TERM_CMD_lane_mask c) mask).wrB (R.TERM_CMD_side_a c) a).wrB (R.TERM_CMD_side_b c) b

theorem termSelected_busy {c mask : Nat} {a b : Bool} {s : State} :
    (termSelected c mask a b s).on (R.TERM_CMD_busy c) = s.on (R.TERM_CMD_busy c) := by
  rw [termSelected, on_wrB_ne (by simp [Fld.key, R.TERM_CMD_busy, R.TERM_CMD_side_b]),
    on_wrB_ne (by simp [Fld.key, R.TERM_CMD_busy, R.TERM_CMD_side_a]),
    on_wr_ne (by simp [Fld.key, R.TERM_CMD_busy, R.TERM_CMD_lane_mask])]

section terminationDetect

variable {s : State} {c mask : Nat} {a b : Bool} (there : c < clustersOf s) (answers : pageOpen s (0x10 + c) = true)
  (ready : s.on (R.TERM_CMD_busy c) = false)

include there answers ready

/-- With a detection in progress on no end, TERM_CMD is refused where a selected end sends, and else marks them all. -/
theorem exec_terminationDetect_ready :
    exec (.terminationDetect c mask a b) s = .next (
      if (termEnds mask a b).any (fun e => !(s.txe (laneAt c e.1) e.2).idle) then
        (termSelected c mask a b s).wr (R.TERM_CMD_refused c) 1
      else (fun u => if b then termExit c .b u else u) ((fun u => if a then termExit c .a u else u)
        ((termEnds mask a b).foldl (fun s e => s.putTx (laneAt c e.1) e.2
            { s.txe (laneAt c e.1) e.2 with detecting := true, byCmd := true })
          (((termSelected c mask a b s).wr (R.TERM_CMD_refused c) 0).wr (R.TERM_CMD_busy c) 1)))) := by
  have ready' : (termSelected c mask a b s).on (R.TERM_CMD_busy c) = false := termSelected_busy.trans ready
  have taken : exec (.terminationDetect c mask a b) s = .next (termCmd c mask a b s) := by
    show Host.Outcome.next (ifHas _ _ s _) = _
    rw [ifHas_open (decide_eq_true there) answers]
  rw [taken]
  exact congrArg _ (if_neg (ne_true_of_eq_false ready'))

end terminationDetect

theorem termDone_no_swap {c : Nat} {absent E : List Nat} {s t u : State}
    (marked : E = (((List.range 9).flatMap fun j => [j, 9 + j]).filter fun e =>
      (s.txe (laneAt c (e % 9)) (Side.ofIdx (e / 9))).detecting))
    (judged : u = ([Dir.ab, Dir.ba].foldl (fun s d => termClock c d (absent.contains (18 + d.idx)) s)
      (E.foldl (fun s e => termResult c (e % 9) (Side.ofIdx (e / 9)) (absent.contains e) s) s)).wr (R.TERM_CMD_busy c) 0)
    (failed : t = E.foldl (fun s e => termFaulty c (e % 9) (Side.ofIdx (e / 9)) s) u)
    (noSwap : (s.bob c).detect = false) :
    termDone c absent s = bobRelease c ((spansOfCluster t c).foldl (fun s p => detectCheck p.1 p.2 s) t) := by
  have all_kept (l : List Nat) : l.filter (fun _ => true) = l := List.filter_eq_self.mpr fun _ _ => rfl
  subst marked judged failed
  simp only [termDone, noSwap, Bool.false_and, Bool.not_false, all_kept, Bool.false_eq_true, if_false]

/-! ## The balance figure and the counters (R53, R76, R494) -/

theorem exec_balanceWindowEnd_runs {s : State} {n : Nat} {sd : Side} {counts : List Nat} (present : lanePresent s n = true)
    (runs : clusterStopped s (laneCluster n) = false) (locked : isLocked s n sd = true)
    (window : (s.rxe n sd).balRun = true) (pam : isPam (ckRate s (laneCluster n) sd.dirIn) = true) :
    exec (.balanceWindowEnd n sd counts) s = .next
      ((((s.wr (R.BAL_valid (laneCluster n) (lanePos n) sd.idx) 1).wr
        (R.BAL_imbalance (laneCluster n) (lanePos n) sd.idx) (maxNat counts - minNat counts)).wr
        (R.BAL_min_level (laneCluster n) (lanePos n) sd.idx) (counts.idxOf (minNat counts))).wr
        (R.BAL_max_level (laneCluster n) (lanePos n) sd.idx) (counts.idxOf (maxNat counts))) := by
  refine (onUnit_of_present present).trans ?_
  simp only [runs, locked, window, pam, Bool.not_true, Bool.or_self, Bool.false_eq_true, if_false]

/-- LE_CFG stores the polarity settings of both sides before either takes effect (R77). -/
theorem leCfgWrite_eq {s t : State} {n v : Nat}
    (stored : t = (((((s.wrB (R.LE_CFG_tx_pol (laneCluster n) (lanePos n) 0) (bit v 2)).wrB
      (R.LE_CFG_rx_pol_force (laneCluster n) (lanePos n) 0) (bit v 1)).wrB
      (R.LE_CFG_rx_pol_auto (laneCluster n) (lanePos n) 0) (bit v 0)).wrB
      (R.LE_CFG_tx_pol (laneCluster n) (lanePos n) 1) (bit v 6)).wrB
      (R.LE_CFG_rx_pol_force (laneCluster n) (lanePos n) 1) (bit v 5)).wrB
      (R.LE_CFG_rx_pol_auto (laneCluster n) (lanePos n) 1) (bit v 4)) :
    leCfgWrite n v s = leCfgSide n .b (leCfgSide n .a t) := by
  rw [leCfgWrite, stored]
  simp only [List.foldl_cons, List.foldl_nil, Nat.mul_zero, Nat.mul_one, Nat.add_zero, Nat.reduceAdd]

/-- Settles O14: each measurement, detection, snapshot and register write is its command with the guard that the clause
grants. -/
theorem laneEndMeasurements : Obligations.LaneEndMeasurements := by
  unfold Obligations.LaneEndMeasurements
  refine ⟨?rxOpen, ?clearSpare, ?clearServing, ?shortLane, ?shortClock, ?detects, ?refuses, ?detectDone, ?balance, ?snap,
    ?clear, ?leCfg⟩
  case rxOpen =>
    intro s n sd present hears silent long unclassified elsewhere
    exact exec_rxOpen_classifies present hears silent long unclassified elsewhere
  case clearSpare =>
    intro s n sd present runs signal lasted isOpen spare
    exact exec_rxOpenClear_spare rfl present runs signal lasted isOpen spare
  case clearServing =>
    intro s n sd k q present runs signal lasted isOpen serves
    exact exec_rxOpenClear_serving rfl present runs signal lasted isOpen serves
  case shortLane =>
    intro s n sd cls lane present sends least most
    exact exec_txShort_lane lane present sends least most
  case shortClock =>
    intro s sd cls c there sends least most
    exact exec_txShort_exit_clock there sends least most
  case detects =>
    intro s c mask a b there answers ready idle
    have none_sends : ¬ (termEnds mask a b).any (fun e => !(s.txe (laneAt c e.1) e.2).idle) = true := by
      simpa using idle
    rw [exec_terminationDetect_ready there answers ready, if_neg none_sends]
    rfl
  case refuses =>
    intro s c mask a b there answers ready sends
    rw [exec_terminationDetect_ready there answers ready, if_pos sends]
    rfl
  case detectDone =>
    intro s c absent E t u marked judged failed there noSwap
    exact (onUnit_of_present (decide_eq_true there)).trans (by rw [termDone_no_swap marked judged failed noSwap])
  case balance =>
    intro s n sd counts present runs locked window pam
    exact exec_balanceWindowEnd_runs present runs locked window pam
  case snap =>
    intro s c there answers
    exact congrArg Host.Outcome.next (ifHas_open (decide_eq_true there) answers)
  case clear =>
    intro s c there answers
    exact congrArg Host.Outcome.next (ifHas_open (decide_eq_true there) answers)
  case leCfg =>
    intro s n v t stored present answers
    rw [← leCfgWrite_eq stored]
    exact congrArg Host.Outcome.next (ifHas_open present answers)

end Sys2Proof.Machine
end

section
/-!
The entry clock ends and the switchover (R80-R82, R94, R101, R103), case by case, in the order of `Clocking`.
-/

namespace Sys2Proof.Machine

/-! ## Clock ends that are judged (R80, R82) -/

theorem exec_clockDutyInvert_judged {s : State} {c : Nat} {d : Dir} (there : c < clustersOf s)
    (upright : s.on (R.CK_STAT_ckl_inv c d.idx) = false) (judged : clockJudged s c = true) :
    exec (.clockDutyInvert c d) s =
      .next ((s.wr (R.CK_STAT_ckl_inv c d.idx) 1).wired 5 d.inSide.idx c (16 * c + 13)) := by
  refine (onUnit_of_present (decide_eq_true there)).trans ?_
  simp only [upright, judged, Bool.not_true, Bool.or_self, Bool.false_eq_true, if_false]

theorem exec_clockLaneQualified_judged {s : State} {c : Nat} {d : Dir} {mv ppm len : Nat} (there : c < clustersOf s)
    (judged : clockJudged s c = true) (level : cklLevel s c ≤ mv) (tolerance : ppm ≤ ckTolerance s c)
    (long : 100000 ≤ len) :
    exec (.clockLaneQualified ⟨c, d⟩ ⟨mv, ppm, len⟩) s =
      .next (detectAll ((s.putCkEntry c d { s.ckEntry c d with loss := false }).wr (R.CK_STAT_ckl_ok c d.idx) 1)) := by
  refine (onUnit_of_present (decide_eq_true there)).trans ?_
  simp only [judged, Nat.not_lt.mpr level, Nat.not_lt.mpr tolerance, Nat.not_lt.mpr long, Bool.not_true, decide_false,
    Bool.or_self, Bool.false_eq_true, if_false]

/-! ## Loss of an entry clock (R81, R82, R94) -/

section clockLaneLoss

variable {s : State} {c : Nat} {d : Dir} {mv ppm len : Nat} (there : c < clustersOf s)
  (runs : clusterStopped s c = false) (awake : s.dev.phase ≠ .watch) (loss : cklInLoss s c mv len ppm = true)

include there runs awake loss

theorem exec_clockLaneLoss_unqualified (unqualified : s.on (R.CK_STAT_ckl_ok c d.idx) = false) :
    exec (.clockLaneLoss ⟨c, d⟩ ⟨mv, ppm, len⟩) s =
      .next (s.putCkEntry c d { s.ckEntry c d with loss := true }) := by
  refine (onUnit_of_present (decide_eq_true there)).trans ?_
  simp only [runs, awake, loss, unqualified, Bool.not_true, decide_false, Bool.or_self, Bool.false_eq_true, if_false]

theorem exec_clockLaneLoss_qualified (qualified : s.on (R.CK_STAT_ckl_ok c d.idx) = true) :
    exec (.clockLaneLoss ⟨c, d⟩ ⟨mv, ppm, len⟩) s = .next (clockLost c d s) := by
  refine (onUnit_of_present (decide_eq_true there)).trans ?_
  simp only [runs, awake, loss, qualified, Bool.not_true, decide_false, Bool.or_self, Bool.false_eq_true, if_false,
    if_true]

end clockLaneLoss

section clockLost

variable {s t : State} {c : Nat} {d : Dir}
  (noted : t = (s.putCkEntry c d { s.ckEntry c d with loss := true }).wr (R.CK_STAT_ckl_ok c d.idx) 0)

include noted

theorem clockLost_off (off : ckMode t c d = ckOff) : clockLost c d s = t := by
  subst noted
  exact if_pos off

/-- What follows a loss in a direction that is not OFF, by whether it runs FORWARDED on its own PLL. -/
theorem clockLost_on {u : State} (clocked : ckMode t c d ≠ ckOff) (raised : u = t.raise (16 * c + 2 + d.idx)) :
    clockLost c d s =
      if !steadyForward u d c then u
      else if x16Side u c d && mayBorrow u c d then
        (borrowStart c d u).putCk c d { (borrowStart c d u).ck c d with heldFrom := some (borrowStart c d u).clock }
      else switchStart c d u := by
  subst noted raised
  exact if_neg clocked

end clockLost

/-! ## The end of a switchover (R94, R101, R103) -/

section switchover

variable {s t : State} {c : Nat} {d : Dir} (there : c < clustersOf s)
  (ended : t = (swapHeld c ((s.ck c d).switchFrom.getD s.clock) s).putCk c d
    { (swapHeld c ((s.ck c d).switchFrom.getD s.clock) s).ck c d with switchFrom := none })

include there

theorem exec_switchoverComplete_switching (switching : (s.ck c d).switchFrom.isSome = true) :
    exec (.switchoverComplete c d) s =
      .next (((modeMates s c).filter fun o => (s.ck o d).switchFrom.isSome).foldl (fun s o => switchDone o d s) s) := by
  refine (onUnit_of_present (decide_eq_true there)).trans ?_
  rw [if_neg (ne_true_of_eq_false (Option.isNone_eq_false_iff.mpr switching))]

/-- A cluster that shares no x16 side ends its switchover alone. -/
theorem exec_switchoverComplete_alone (switching : (s.ck c d).switchFrom.isSome = true) (alone : modeMates s c = [c]) :
    exec (.switchoverComplete c d) s = .next (switchDone c d s) := by
  have only : [c].filter (fun o => (s.ck o d).switchFrom.isSome) = [c] := List.filter_cons_of_pos switching
  rw [exec_switchoverComplete_switching there switching, alone, only, List.foldl_cons, List.foldl_nil]

omit there in
include ended in
/-- A FORWARDED direction goes to REFCLK where it may, and else steers on an end or holds over. -/
theorem switchDone_forwarded (forwarded : ckMode t c d = ckForwarded) :
    switchDone c d s = slicesPass c (lendSync c d (
      if refGood t && !carriesTransparent t c d then
        (t.wr (R.CK_STAT_mode c d.idx) ckFallback).wr (R.CK_STAT_ref c d.idx) refRefclk
      else steerOrHold c d t.clock (t.wr (R.CK_STAT_mode c d.idx) ckRecovered))) := by
  subst ended
  exact congrArg (fun u => slicesPass c (lendSync c d u)) (if_neg (not_not_intro forwarded))

section lockExpiry

variable (late : passed (s.ck c d).switchFrom 8000 s.clock = true) (unlocked : s.on (R.CK_STAT_pll_lock c d.idx) = false)

include late unlocked

theorem exec_switchoverLockExpiry_borrows (may : mayBorrow s c d = true) :
    exec (.switchoverLockExpiry c d) s = .next (borrowStart c d s) := by
  refine (onUnit_of_present (decide_eq_true there)).trans ?_
  simp only [late, unlocked, may, Bool.not_true, Bool.or_self, Bool.false_eq_true, if_false, if_true]

include ended in
theorem exec_switchoverLockExpiry_retrains (mayNot : mayBorrow s c d = false) :
    exec (.switchoverLockExpiry c d) s = .next (slicesPass c (clockDemand c d t)) := by
  subst ended
  refine (onUnit_of_present (decide_eq_true there)).trans ?_
  simp only [late, unlocked, mayNot, Bool.not_true, Bool.or_self, Bool.false_eq_true, if_false]

end lockExpiry

end switchover

/-- Settles O15: a loss by whether the end is qualified, what the direction runs on and whether it may borrow; the end of a
switchover by whether REFCLK serves. -/
theorem entryClockEvents : Obligations.EntryClockEvents := by
  unfold Obligations.EntryClockEvents
  refine ⟨?inverted, ?qualifies, ?unqualified, ?off, ?unsteady, ?borrows, ?switches, ?toRefclk, ?toRecovered, ?together,
    ?expiryBorrows, ?expiryRetrains⟩
  case inverted =>
    intro s c d there upright judged
    exact exec_clockDutyInvert_judged there upright judged
  case qualifies =>
    intro s c d mv ppm len there judged level tolerance long
    exact exec_clockLaneQualified_judged there judged level tolerance long
  case unqualified =>
    intro s c d mv ppm len there runs awake loss unqualified
    exact exec_clockLaneLoss_unqualified there runs awake loss unqualified
  case off =>
    intro s c d mv ppm len t noted there runs awake loss qualified off
    rw [exec_clockLaneLoss_qualified there runs awake loss qualified, clockLost_off noted off]
  case unsteady =>
    intro s c d mv ppm len t noted there runs awake loss qualified clocked unsteady
    rw [exec_clockLaneLoss_qualified there runs awake loss qualified, clockLost_on noted clocked rfl,
      if_pos (by rw [unsteady, Bool.not_false])]
  case borrows =>
    intro s c d mv ppm len t noted there runs awake loss qualified clocked steady borrows
    rw [exec_clockLaneLoss_qualified there runs awake loss qualified, clockLost_on noted clocked rfl,
      if_neg (by simp [steady]), if_pos borrows]
  case switches =>
    intro s c d mv ppm len t noted there runs awake loss qualified clocked steady mayNot
    rw [exec_clockLaneLoss_qualified there runs awake loss qualified, clockLost_on noted clocked rfl,
      if_neg (by simp [steady]), if_neg (ne_true_of_eq_false mayNot), switchStart]
  case toRefclk =>
    intro s t c d ended there switching alone forwarded good plain
    rw [exec_switchoverComplete_alone there switching alone, switchDone_forwarded ended forwarded,
      if_pos (by rw [good, plain, Bool.not_false, Bool.and_self])]
  case toRecovered =>
    intro s t c d ended there switching alone forwarded noRefclk
    rw [exec_switchoverComplete_alone there switching alone, switchDone_forwarded ended forwarded,
      if_neg (ne_true_of_eq_false noRefclk)]
  case together =>
    intro s c d there switching
    exact exec_switchoverComplete_switching there switching
  case expiryBorrows =>
    intro s c d there late unlocked may
    exact exec_switchoverLockExpiry_borrows there late unlocked may
  case expiryRetrains =>
    intro s c d t ended there late unlocked mayNot
    exact exec_switchoverLockExpiry_retrains there ended late unlocked mayNot

end Sys2Proof.Machine
end

section
/-!
The cluster PLLs (R93, R97-R102): unlock, relock, the end of a borrow's interruption and of holdover, and dense-skip
requests that are repeated, case by case, in the order of `Clocking`.
-/

namespace Sys2Proof.Machine

/-! ## An unlock (R97, R98, R100, R101) -/

section pllUnlock

variable {s t u : State} {c : Nat} {d : Dir}

theorem exec_pllUnlock_locked (there : c < clustersOf s) (locked : s.on (R.CK_STAT_own_lock c d.idx) = true) :
    exec (.pllUnlock c d) s = .next (pllUnlock c d s) := by
  refine (onUnit_of_present (decide_eq_true there)).trans ?_
  rw [if_pos locked]

variable (unlocked : t = (s.wr (R.CK_STAT_own_lock c d.idx) 0).putCk c d { s.ck c d with unlockHeld := true })

include unlocked

/-- Within a switchover of its direction. -/
theorem pllUnlock_switching (switching : ((t.ck c d).switchFrom.isSome && ckMode t c d = ckForwarded) = true) :
    pllUnlock c d s =
      if (t.wr (R.CK_STAT_pll_lock c d.idx) 0).on (R.CK_STAT_lent c d.idx) then
        lentLostQuietly c d (t.wr (R.CK_STAT_pll_lock c d.idx) 0)
      else t.wr (R.CK_STAT_pll_lock c d.idx) 0 := by
  subst unlocked
  exact if_pos switching

/-- Outside one: what follows, by who runs on the PLL. -/
theorem pllUnlock_raises (raised : u = t.raise (16 * c + 4 + d.idx))
    (steady : ((t.ck c d).switchFrom.isSome && ckMode t c d = ckForwarded) = false) :
    pllUnlock c d s =
      if u.on (R.CK_STAT_lent c d.idx) then lentLost c d u
      else if u.on (R.CK_STAT_borrowed c d.idx) then u
      else if ckMode u c d = ckOff then u.wr (R.CK_STAT_pll_lock c d.idx) 0
      else if mayBorrow u c d then borrowStart c d u
      else clockDemand c d (u.wr (R.CK_STAT_pll_lock c d.idx) 0) := by
  subst unlocked raised
  exact if_neg (ne_true_of_eq_false steady)

variable (raised : u = t.raise (16 * c + 4 + d.idx))
  (steady : ((t.ck c d).switchFrom.isSome && ckMode t c d = ckForwarded) = false)
  (unlent : u.on (R.CK_STAT_lent c d.idx) = false)

include raised steady unlent

theorem pllUnlock_borrower (borrowed : u.on (R.CK_STAT_borrowed c d.idx) = true) : pllUnlock c d s = u := by
  rw [pllUnlock_raises unlocked raised steady, if_neg (ne_true_of_eq_false unlent), if_pos borrowed]

/-- A PLL that serves its own direction alone. -/
theorem pllUnlock_own (own : u.on (R.CK_STAT_borrowed c d.idx) = false) :
    pllUnlock c d s =
      if ckMode u c d = ckOff then u.wr (R.CK_STAT_pll_lock c d.idx) 0
      else if mayBorrow u c d then borrowStart c d u
      else clockDemand c d (u.wr (R.CK_STAT_pll_lock c d.idx) 0) := by
  rw [pllUnlock_raises unlocked raised steady, if_neg (ne_true_of_eq_false unlent), if_neg (ne_true_of_eq_false own)]

end pllUnlock

/-! ## A relock (R97, R98) -/

section pllRelock

variable {s t : State} {c : Nat} {d : Dir} (there : c < clustersOf s) (waits : (s.ck c d).unlockHeld = true)

include there waits

theorem exec_pllRelock_idle (idle : ckMode s c d = ckOff) :
    exec (.pllRelock c d) s = .next (standbySync c (s.putCk c d { s.ck c d with unlockHeld := false })) := by
  have idle' : ckMode (s.putCk c d { s.ck c d with unlockHeld := false }) c d = ckOff := idle
  refine (onUnit_of_present (decide_eq_true there)).trans ?_
  simp only [waits, idle', Bool.not_true, Bool.false_eq_true, if_false, if_true]

theorem exec_pllRelock_clocked
    (relocked : t = (s.putCk c d { s.ck c d with unlockHeld := false }).wr (R.CK_STAT_own_lock c d.idx) 1)
    (clocked : ckMode s c d ≠ ckOff) :
    exec (.pllRelock c d) s =
      .next (if t.on (R.CK_STAT_borrowed c d.idx) then t else t.wr (R.CK_STAT_pll_lock c d.idx) 1) := by
  subst relocked
  have clocked' : ckMode (s.putCk c d { s.ck c d with unlockHeld := false }) c d ≠ ckOff := clocked
  refine (onUnit_of_present (decide_eq_true there)).trans ?_
  simp only [waits, clocked', Bool.not_true, Bool.false_eq_true, if_false]

end pllRelock

/-! ## The end of a borrow's interruption and of holdover (R98, R102, R416) -/

section borrowComplete

variable {s : State} {c : Nat} {d : Dir} (there : c < clustersOf s) (borrowing : (s.ck c d).borrowing = true)

include there borrowing

theorem exec_borrowComplete_unheld (unheld : (s.ck c d).heldFrom = none) :
    exec (.borrowComplete c d) s =
      .next (slicesPass c (s.putCk c d { s.ck c d with borrowing := false, heldFrom := none })) := by
  refine (onUnit_of_present (decide_eq_true there)).trans ?_
  simp only [borrowing, unheld, if_true]

theorem exec_borrowComplete_held {t : State} {since : Nat} (resumed : t = swapHeld c since s)
    (held : (s.ck c d).heldFrom = some since) :
    exec (.borrowComplete c d) s =
      .next (slicesPass c (t.putCk c d { t.ck c d with borrowing := false, heldFrom := none })) := by
  subst resumed
  refine (onUnit_of_present (decide_eq_true there)).trans ?_
  simp only [borrowing, held, if_true]

end borrowComplete

theorem exec_holdoverExpiry_due {s : State} {c : Nat} {d : Dir} (there : c < clustersOf s)
    (due : passed (s.ck c d).holdover 10000000 s.clock = true) :
    exec (.holdoverExpiry c d) s =
      .next (((spansIn s c d).filter fun p => p.2 = d.outSide && modeOf s p.1 ≠ mTransparent).foldl (fun s p =>
        retrain p.1 p.2 (some (spanRung s p.1 p.2)) false s) s) := by
  refine (onUnit_of_present (decide_eq_true there)).trans ?_
  rw [if_neg (by simp [due])]

/-! ## Dense-skip requests (R93) -/

theorem exec_denseReqResend_open {s t : State} {c : Nat} {d : Dir}
    (counted : t = s.putCk c d { s.ck c d with denseSent := (s.ck c d).denseSent + 1 }) (there : c < clustersOf s)
    (opened : (s.ck c d).denseOpen ≠ 0) (few : (s.ck c d).denseSent < 16) :
    exec (.denseReqResend c d) s =
      .next (densePost c d (if (s.ck c d).denseOpen = 1 then trnDENSEREQ else trnDENSEREL) t) := by
  subst counted
  refine (onUnit_of_present (decide_eq_true there)).trans ?_
  simp only [opened, Nat.not_le.mpr few, decide_false, Bool.or_self, Bool.false_eq_true, if_false]

/-- Settles O16: an unlock by the switchover of its direction and by who runs on the PLL, a relock by the mode of its
direction, and the ends of the interruptions. -/
theorem clusterPllEvents : Obligations.ClusterPllEvents := by
  unfold Obligations.ClusterPllEvents
  refine ⟨?quiet, ?quietLent, ?lent, ?borrower, ?idle, ?borrows, ?retrains, ?relockIdle, ?relockOwn, ?relockBorrower,
    ?borrowDone, ?borrowDoneHeld, ?holdover, ?request, ?release⟩
  case quiet =>
    intro s c d t unlocked there locked switching unlent
    rw [exec_pllUnlock_locked there locked, pllUnlock_switching unlocked switching, if_neg (ne_true_of_eq_false unlent)]
  case quietLent =>
    intro s c d t u unlocked there locked ended switching lent
    rw [exec_pllUnlock_locked there locked, pllUnlock_switching unlocked switching, if_pos lent, lentLostQuietly, ← ended,
      clockDemand]
  case lent =>
    intro s c d t u v unlocked there locked raised ended steady lent
    rw [exec_pllUnlock_locked there locked, pllUnlock_raises unlocked raised steady, if_pos lent, lentLost, ← ended]
  case borrower =>
    intro s c d t u unlocked there locked raised steady unlent borrowed
    rw [exec_pllUnlock_locked there locked, pllUnlock_borrower unlocked raised steady unlent borrowed]
  case idle =>
    intro s c d t u unlocked there locked raised steady unlent own idle
    rw [exec_pllUnlock_locked there locked, pllUnlock_own unlocked raised steady unlent own, if_pos idle]
  case borrows =>
    intro s c d t u unlocked there locked raised steady unlent own clocked may
    rw [exec_pllUnlock_locked there locked, pllUnlock_own unlocked raised steady unlent own, if_neg clocked, if_pos may]
  case retrains =>
    intro s c d t u unlocked there locked raised steady unlent own clocked mayNot
    rw [exec_pllUnlock_locked there locked, pllUnlock_own unlocked raised steady unlent own, if_neg clocked,
      if_neg (ne_true_of_eq_false mayNot), clockDemand]
  case relockIdle =>
    intro s c d there waits idle
    exact exec_pllRelock_idle there waits idle
  case relockOwn =>
    intro s c d t relocked there waits clocked own
    rw [exec_pllRelock_clocked there waits relocked clocked, if_neg (ne_true_of_eq_false own)]
  case relockBorrower =>
    intro s c d t relocked there waits clocked borrowed
    rw [exec_pllRelock_clocked there waits relocked clocked, if_pos borrowed]
  case borrowDone =>
    intro s c d there borrowing unheld
    exact exec_borrowComplete_unheld there borrowing unheld
  case borrowDoneHeld =>
    intro s c d t since resumed there borrowing held
    exact exec_borrowComplete_held there borrowing resumed held
  case holdover =>
    intro s c d there due
    exact exec_holdoverExpiry_due there due
  case request =>
    intro s c d t counted there request few
    rw [exec_denseReqResend_open counted there (by omega) few, if_pos request, densePost]
  case release =>
    intro s c d t counted there release few
    rw [exec_denseReqResend_open counted there (by omega) few, if_neg (by omega), densePost]

end Sys2Proof.Machine
end

section
/-!
CK_CMD (R104): the start or the refusal of an operation, and the move that it makes at its end, in the order of `Clocking`.
-/

namespace Sys2Proof.Machine

/-! ## An operation is written -/

section ckCmd

variable {s : State} {c op : Nat} {d : Dir} {start : State → State}

/-- Storing the operation and its direction leaves the busy bit. -/
theorem ckCmd_stored_busy :
    ((s.wr (R.CK_CMD_op c) op).wr (R.CK_CMD_dir c) d.idx).on (R.CK_CMD_busy c) = s.on (R.CK_CMD_busy c) := by
  rw [on_wr_ne (by simp [Fld.key, R.CK_CMD_busy, R.CK_CMD_dir]), on_wr_ne (by simp [Fld.key, R.CK_CMD_busy, R.CK_CMD_op])]

variable (ready : s.on (R.CK_CMD_busy c) = false)

include ready

theorem ckCmd_refused :
    ckCmd c op d true start s = ((s.wr (R.CK_CMD_op c) op).wr (R.CK_CMD_dir c) d.idx).wr (R.CK_CMD_refused c) 1 :=
  if_neg (ne_true_of_eq_false (ckCmd_stored_busy.trans ready))

theorem ckCmd_starts :
    ckCmd c op d false start s = start (((((s.wr (R.CK_CMD_op c) op).wr (R.CK_CMD_dir c) d.idx).wr (R.CK_CMD_refused c) 0).wr
      (R.CK_CMD_busy c) 1).putCk c d { s.ck c d with opFrom := some op, opAt := s.clock }) :=
  if_neg (ne_true_of_eq_false (ckCmd_stored_busy.trans ready))

end ckCmd

section written

variable {s : State} {c : Nat} {d : Dir} (there : c < clustersOf s) (answers : pageOpen s (0x10 + c) = true)

include there answers

theorem exec_ckToForwarded_open {refused : Bool}
    (judged : ((modeMates s c).any (fun o => !s.on (R.CK_STAT_ckl_ok o d.idx)) || s.on (R.CK_STAT_borrowed c d.idx) ||
      ckMode s c d = ckForwarded) = refused) :
    exec (.ckToForwarded c d) s = .next (ckCmd c 0 d refused (denseAsk c d false) s) := by
  subst judged
  exact congrArg Host.Outcome.next (ifHas_open (decide_eq_true there) answers)

theorem exec_ckToFallback_open {refused : Bool}
    (judged : (!refGood s || (ckMode s c d ≠ ckForwarded && ckMode s c d ≠ ckRecovered) || carriesTransparent s c d) =
      refused) :
    exec (.ckToFallback c d) s = .next (ckCmd c 1 d refused (denseAsk c d true) s) := by
  subst judged
  exact congrArg Host.Outcome.next (ifHas_open (decide_eq_true there) answers)

theorem exec_ckReturnOwn_open {refused : Bool}
    (judged : (!s.on (R.CK_STAT_borrowed c d.idx) || !s.on (R.CK_STAT_own_lock c d.idx)) = refused) :
    exec (.ckReturnOwn c d) s = .next (ckCmd c 2 d refused id s) := by
  subst judged
  exact congrArg Host.Outcome.next (ifHas_open (decide_eq_true there) answers)

end written

/-! ## An operation makes its move -/

/-- To FORWARDED one cluster goes on the entry clock, without elastic buffers. -/
theorem ckMoveOne_toForwarded {s : State} {c : Nat} {d : Dir} :
    ckMoveOne 0 d c s = lendSync c d ((((s.putCk c d { s.ck c d with steer := none, holdover := none }).wr
      (R.CK_STAT_mode c d.idx) ckForwarded).wr (R.CK_STAT_ref c d.idx) refEntry).wr (R.EB_STAT_fill c d.idx) 0) := rfl

section ckMove

variable {s t : State} {c : Nat} {d : Dir} (forgotten : t = s.putCk c d { s.ck c d with opFrom := none })

include forgotten

theorem ckMove_toForwarded :
    ckMove c 0 d s =
      if (modeMates t c).all (fun o => t.on (R.CK_STAT_ckl_ok o d.idx)) then
        (modeMates t c).foldl (fun s o => ckMoveOne 0 d o s) t
      else t := by
  subst forgotten
  rfl

theorem ckMove_toFallback (good : refGood t = true) :
    ckMove c 1 d s = (modeMates t c).foldl (fun s o => ckMoveOne 1 d o s) t := by
  subst forgotten
  exact if_pos good

theorem ckMove_returnOwn :
    ckMove c 2 d s = ((borrowEnd c d t).wr (R.CK_STAT_pll_lock c d.idx) 1).wr (R.CK_STAT_ref c d.idx)
      (if ckMode (borrowEnd c d t) c d = ckForwarded then refEntry else refRefclk) := by
  subst forgotten
  rfl

end ckMove

theorem exec_fallbackWaitExpiry_due {s : State} {c : Nat} {d : Dir} (there : c < clustersOf s)
    (waits : (s.ck c d).opFrom = some 1) (due : (s.ck c d).opAt + 20000 ≤ s.clock) :
    exec (.fallbackWaitExpiry c d) s = .next (ckMove c 1 d s) := by
  refine (onUnit_of_present (decide_eq_true there)).trans ?_
  simp only [waits, due, decide_true, Bool.and_self, if_true]

/-- TO_FALLBACK waits for dense_rx; each operation that need not wait moves, and the slices pass. -/
theorem exec_ckOpComplete_moves {s : State} {c op : Nat} {d : Dir} (there : c < clustersOf s)
    (busy : s.on (R.CK_CMD_busy c) = true) (runs : ckOpOf s c = some (d, op))
    (answered : op = 1 → s.on (R.CK_STAT_dense_rx c d.idx) = true) :
    exec (.ckOpComplete c) s = .next (slicesPass c ((ckMove c op d s).wr (R.CK_CMD_busy c) 0)) := by
  have moves : ¬ (op = 1 && !s.on (R.CK_STAT_dense_rx c d.idx)) = true := by simpa using answered
  refine (onUnit_of_present (decide_eq_true there)).trans ?_
  simp only [busy, runs, if_neg moves, Bool.not_true, Bool.false_eq_true, if_false]

/-- Settles O17: each write by its condition, and each end of an operation by the move that it makes. -/
theorem clockCommands : Obligations.ClockCommands := by
  unfold Obligations.ClockCommands
  refine ⟨?toForwarded, ?toForwardedRefused, ?toFallback, ?toFallbackRefused, ?returnOwn, ?returnOwnRefused, ?waited,
    ?forwards, ?forwardsAlone, ?forwardsNot, ?returns, ?fallsBack⟩
  case toForwarded =>
    intro s c d there answers ready qualified own other
    rw [exec_ckToForwarded_open there answers (refused := false) (by simp [qualified, own, other]), ckCmd_starts ready]
  case toForwardedRefused =>
    intro s c d there answers ready fails
    rw [exec_ckToForwarded_open there answers (refused := true) (by simpa [or_assoc] using fails), ckCmd_refused ready]
  case toFallback =>
    intro s c d there answers ready good mode plain
    rw [exec_ckToFallback_open there answers (refused := false) (by simpa [good, plain] using mode.resolve_left),
      ckCmd_starts ready]
  case toFallbackRefused =>
    intro s c d there answers ready fails
    rw [exec_ckToFallback_open there answers (refused := true) (by simpa [or_assoc] using fails), ckCmd_refused ready]
  case returnOwn =>
    intro s c d there answers ready borrowed locked
    rw [exec_ckReturnOwn_open there answers (refused := false) (by simp [borrowed, locked]), ckCmd_starts ready, id]
  case returnOwnRefused =>
    intro s c d there answers ready fails
    rw [exec_ckReturnOwn_open there answers (refused := true) (by simpa using fails), ckCmd_refused ready]
  case waited =>
    intro s c d t forgotten there waits due good
    rw [exec_fallbackWaitExpiry_due there waits due, ckMove_toFallback forgotten good]
  case forwards =>
    intro s c d t forgotten there busy runs qualified
    rw [exec_ckOpComplete_moves there busy runs (by simp), ckMove_toForwarded forgotten, if_pos qualified]
  case forwardsAlone =>
    intro s c d t forgotten there busy runs alone qualified
    rw [exec_ckOpComplete_moves there busy runs (by simp), ckMove_toForwarded forgotten, alone,
      if_pos (by simpa using qualified), List.foldl_cons, List.foldl_nil, ckMoveOne_toForwarded]
  case forwardsNot =>
    intro s c d t forgotten there busy runs unqualified
    rw [exec_ckOpComplete_moves there busy runs (by simp), ckMove_toForwarded forgotten,
      if_neg (ne_true_of_eq_false unqualified)]
  case returns =>
    intro s c d t forgotten there busy runs
    rw [exec_ckOpComplete_moves there busy runs (by simp), ckMove_returnOwn forgotten]
  case fallsBack =>
    intro s c d t forgotten there busy runs answered good
    rw [exec_ckOpComplete_moves there busy runs (fun _ => answered), ckMove_toFallback forgotten good]

end Sys2Proof.Machine
end

section
/-!
The adaptation engine (R116-R120): the blocks of an acquisition and its end, and the visits of tracking with their updates,
in the order of `Equalization`.
-/

namespace Sys2Proof.Machine

/-! ## The blocks of an acquisition (R116, R117) -/

/-- Whether a block with this MSE counts toward the four of R117, at an end whose coefficients stand as `x`. -/
def goodBlock (limit mse : Nat) (x : Coef) : Bool :=
  mse ≤ limit && (0 < x.blocks && 16 * (max mse x.mse - min mse x.mse) ≤ mse)

theorem goodBlock_iff {limit mse : Nat} {x : Coef} :
    goodBlock limit mse x = true ↔ mse ≤ limit ∧ 0 < x.blocks ∧ 16 * (max mse x.mse - min mse x.mse) ≤ mse := by
  simp only [goodBlock, Bool.and_eq_true, decide_eq_true_eq]

theorem goodBlock_eq_false_iff {limit mse : Nat} {x : Coef} :
    goodBlock limit mse x = false ↔ ¬(mse ≤ limit ∧ 0 < x.blocks ∧ 16 * (max mse x.mse - min mse x.mse) ≤ mse) := by
  rw [← goodBlock_iff, Bool.not_eq_true]

section acqBlockEnd

variable {s : State} {n mse f1pos f2pos : Nat} {sd : Side} {coefs : List Int} {z : Coef}
  (present : lanePresent s n = true) (acquiring : acquiringNow s n sd = true)
  (within : (s.coefs n sd).blocks < acqLimit s (laneCluster n))
  (placed : z = if (s.coefs n sd).blocks < 2 then coefPositions (coefSet (s.coefs n sd) (coefClamp coefs)) f1pos f2pos
    else coefSet (s.coefs n sd) (coefClamp coefs))

include present acquiring within placed

/-- A block within the limit, judged and stored; the fourth good one ends the acquisition. -/
theorem exec_acqBlockEnd_within {good : Bool} {y : Coef}
    (judged : goodBlock (mseLimit s (laneCluster n)) (min mse 0xFFFF) (s.coefs n sd) = good)
    (stored : y = { z with mse := min mse 0xFFFF, valid := true, blocks := (s.coefs n sd).blocks + 1, goodBlocks :=
      if good then (s.coefs n sd).goodBlocks + 1 else 0 }) :
    exec (.acqBlockEnd n sd mse coefs f1pos f2pos) s =
      .next (if 4 ≤ y.goodBlocks then acqEnd n sd true (s.putCoef n sd y) else s.putCoef n sd y) := by
  subst placed judged stored
  refine (onUnit_of_present present).trans ?_
  rw [if_neg (by simp [acquiring]), if_neg (Nat.not_le.mpr within)]
  rfl

theorem exec_acqBlockEnd_bad
    (bad : ¬(min mse 0xFFFF ≤ mseLimit s (laneCluster n) ∧ 0 < (s.coefs n sd).blocks ∧
      16 * (max (min mse 0xFFFF) (s.coefs n sd).mse - min (min mse 0xFFFF) (s.coefs n sd).mse) ≤ min mse 0xFFFF)) :
    exec (.acqBlockEnd n sd mse coefs f1pos f2pos) s = .next (s.putCoef n sd
      { z with mse := min mse 0xFFFF, valid := true, blocks := (s.coefs n sd).blocks + 1, goodBlocks := 0 }) := by
  rw [exec_acqBlockEnd_within present acquiring within placed (goodBlock_eq_false_iff.mpr bad) rfl]
  exact congrArg Host.Outcome.next (if_neg (by simp))

section good

variable (low : min mse 0xFFFF ≤ mseLimit s (laneCluster n)) (later : 0 < (s.coefs n sd).blocks)
  (steady : 16 * (max (min mse 0xFFFF) (s.coefs n sd).mse - min (min mse 0xFFFF) (s.coefs n sd).mse) ≤ min mse 0xFFFF)

include low later steady

theorem exec_acqBlockEnd_good (few : (s.coefs n sd).goodBlocks < 3) :
    exec (.acqBlockEnd n sd mse coefs f1pos f2pos) s = .next (s.putCoef n sd
      { z with mse := min mse 0xFFFF, valid := true, blocks := (s.coefs n sd).blocks + 1, goodBlocks :=
        (s.coefs n sd).goodBlocks + 1 }) := by
  rw [exec_acqBlockEnd_within present acquiring within placed (goodBlock_iff.mpr ⟨low, later, steady⟩) rfl]
  exact congrArg Host.Outcome.next (if_neg (by simp only [if_true]; omega))

theorem exec_acqBlockEnd_fourth (three : (s.coefs n sd).goodBlocks = 3) :
    exec (.acqBlockEnd n sd mse coefs f1pos f2pos) s = .next (acqEnd n sd true (s.putCoef n sd
      { z with mse := min mse 0xFFFF, valid := true, blocks := (s.coefs n sd).blocks + 1, goodBlocks := 4 })) := by
  rw [exec_acqBlockEnd_within present acquiring within placed (goodBlock_iff.mpr ⟨low, later, steady⟩) rfl, three]
  rfl

end good

end acqBlockEnd

/-! ## An acquisition ends (R117, R119) -/

section atLimit

variable {s : State} {n : Nat} {sd : Side} (present : lanePresent s n = true) (acquiring : acquiringNow s n sd = true)
  (reached : acqLimit s (laneCluster n) ≤ (s.coefs n sd).blocks)

include present acquiring reached

theorem exec_acqBlockEnd_at_limit {mse f1pos f2pos : Nat} {coefs : List Int} :
    exec (.acqBlockEnd n sd mse coefs f1pos f2pos) s = .next (acqEnd n sd false s) := by
  refine (onUnit_of_present present).trans ?_
  rw [if_neg (by simp [acquiring]), if_pos reached]

theorem exec_acqTimeout_at_limit : exec (.acqTimeout n sd) s = .next (acqEnd n sd false s) := by
  refine (onUnit_of_present present).trans ?_
  rw [if_pos (by simp [acquiring, reached])]

end atLimit

section acqEnd

variable {s t : State} {n : Nat} {sd : Side}
  (tracked : t = engineDrop (laneCluster n) (rxIndex n sd) ((s.putCoef n sd { s.coefs n sd with
    rung := (s.coefs n sd).acqRung, acqRung := 7, everAcq := true, blocks := 0, goodBlocks := 0 }).wr (estOf n sd) esTrack))

include tracked

theorem acqEnd_success_spare (spare : trainingSpan (bobAcqEnd (laneCluster n) sd t) n sd = none) :
    acqEnd n sd true s = bobAcqEnd (laneCluster n) sd t := by
  subst tracked
  simp only [acqEnd, spare, if_true]

theorem acqEnd_success_training {k : Nat} (training : trainingSpan (bobAcqEnd (laneCluster n) sd t) n sd = some k) :
    acqEnd n sd true s = qualifyCheck k sd (bobAcqEnd (laneCluster n) sd t) := by
  subst tracked
  simp only [acqEnd, training, if_true]

variable {u : State}
  (failed : u = bobAcqEnd (laneCluster n) sd ((t.bump (R.ADAPT_CNT_acq_fail (laneCluster n))).raise (16 * laneCluster n + 7)))

include failed

theorem acqEnd_failure_spare (spare : trainingSpan u n sd = none) : acqEnd n sd false s = u := by
  subst tracked failed
  simp only [acqEnd, spare, Bool.false_eq_true, if_false]

theorem acqEnd_failure_training {k : Nat} (training : trainingSpan u n sd = some k) :
    acqEnd n sd false s = figureFails k sd u := by
  subst tracked failed
  simp only [acqEnd, training, Bool.false_eq_true, if_false]

end acqEnd

/-! ## Tracking (R118, R120) -/

/-- A visit that is over is judged, and gives its update: the coefficients become `y`. -/
theorem exec_trackVisitEnd_over {s u : State} {n mse : Nat} {sd : Side} {steps : List Int}
    (judged : u = judgeRange n sd (min mse 0xFFFF) s) (present : lanePresent s n = true)
    (served : (s.engine (laneCluster n)).cur = some (rxIndex n sd)) (visiting : (s.engine (laneCluster n)).visiting = true)
    (tracked : s.rd (estOf n sd) = esTrack) (elapsed : visitDue s n sd ≤ 850 * s.clock) :
    exec (.trackVisitEnd n sd mse steps) s = .next (engineNext (laneCluster n) ((u.putCoef n sd
      (if decodes u n sd then { u.coefs n sd with mse := min mse 0xFFFF, valid := true, due := steps }
        else coefMove 1 { u.coefs n sd with mse := min mse 0xFFFF, valid := true } steps)).putEngine (laneCluster n)
      { s.engine (laneCluster n) with cur := none, visiting := false })) := by
  subst judged
  refine (onUnit_of_present present).trans ?_
  rw [if_neg (by simp [served, visiting, tracked, Nat.not_lt.mpr elapsed])]

theorem exec_trackUpdateApply_due {s : State} {n : Nat} {sd : Side} (present : lanePresent s n = true)
    (waits : (s.coefs n sd).due ≠ []) (tracked : s.rd (estOf n sd) = esTrack) :
    exec (.trackUpdateApply n sd) s =
      .next (s.putCoef n sd { coefMove 2 (s.coefs n sd) (s.coefs n sd).due with due := [] }) := by
  refine (onUnit_of_present present).trans ?_
  rw [if_neg (by simp [waits, tracked])]

/-- Settles O18: a block by its number and by whether it is good, an acquisition by its success and the span in training,
a visit by whether its end decodes symbols. -/
theorem acquisitionAndTracking : Obligations.AcquisitionAndTracking := by
  unfold Obligations.AcquisitionAndTracking
  refine ⟨?first, ?secondHigh, ?secondGood, ?high, ?unsteady, ?good, ?fourthSpare, ?fourthTraining, ?limitBlock,
    ?limitSpare, ?limitTraining, ?decoding, ?transparent, ?boundary⟩
  case first =>
    intro s n sd mse coefs f1pos f2pos present acquiring within first
    exact exec_acqBlockEnd_bad present acquiring within (if_pos (by omega)).symm (by omega)
  case secondHigh =>
    intro s n sd mse coefs f1pos f2pos present acquiring within second high
    exact exec_acqBlockEnd_bad present acquiring within (if_pos (by omega)).symm (by omega)
  case secondGood =>
    intro s n sd mse coefs f1pos f2pos present acquiring within second low steady few
    exact exec_acqBlockEnd_good present acquiring within (if_pos (by omega)).symm low (by omega) steady few
  case high =>
    intro s n sd mse coefs f1pos f2pos present acquiring within later high
    exact exec_acqBlockEnd_bad present acquiring within (if_neg (by omega)).symm (by omega)
  case unsteady =>
    intro s n sd mse coefs f1pos f2pos present acquiring within later unsteady
    exact exec_acqBlockEnd_bad present acquiring within (if_neg (by omega)).symm (by omega)
  case good =>
    intro s n sd mse coefs f1pos f2pos present acquiring within later low steady few
    exact exec_acqBlockEnd_good present acquiring within (if_neg (by omega)).symm low (by omega) steady few
  case fourthSpare =>
    intro s n sd mse coefs f1pos f2pos t v stored tracked present acquiring within later low steady three spare
    rw [exec_acqBlockEnd_fourth present acquiring within (if_neg (by omega)).symm low (by omega) steady three, ← stored,
      acqEnd_success_spare tracked spare]
  case fourthTraining =>
    intro s n sd mse coefs f1pos f2pos t v k stored tracked present acquiring within later low steady three training
    rw [exec_acqBlockEnd_fourth present acquiring within (if_neg (by omega)).symm low (by omega) steady three, ← stored,
      acqEnd_success_training tracked training]
  case limitBlock =>
    intro s n sd mse coefs f1pos f2pos t u tracked failed present acquiring reached spare
    rw [exec_acqBlockEnd_at_limit present acquiring reached, acqEnd_failure_spare tracked failed spare]
  case limitSpare =>
    intro s n sd t u tracked failed present acquiring reached spare
    rw [exec_acqTimeout_at_limit present acquiring reached, acqEnd_failure_spare tracked failed spare]
  case limitTraining =>
    intro s n sd t u k tracked failed present acquiring reached training
    rw [exec_acqTimeout_at_limit present acquiring reached, acqEnd_failure_training tracked failed training]
  case decoding =>
    intro s n sd mse steps u judged present served visiting tracked elapsed decoding
    rw [exec_trackVisitEnd_over judged present served visiting tracked elapsed, if_pos decoding]
  case transparent =>
    intro s n sd mse steps u judged present served visiting tracked elapsed transparent
    rw [exec_trackVisitEnd_over judged present served visiting tracked elapsed, if_neg (ne_true_of_eq_false transparent)]
  case boundary =>
    intro s n sd present waits tracked
    exact exec_trackUpdateApply_due present waits tracked

end Sys2Proof.Machine
end

section
/-!
ADAPT_CMD and DFE_SEL (R115, R119, R121): the write of each command and its acceptance or refusal, and the latching of an
end's coefficients, in the order of `Equalization`.
-/

namespace Sys2Proof.Machine

/-! ## ADAPT_CMD -/

/-- The fields of ADAPT_CMD as a command on an existing position stores them. -/
def adaptStored (c op : Nat) (sd : Side) (pos : Nat) (s : State) : State :=
  ((s.wr (R.ADAPT_CMD_op c) op).wr (R.ADAPT_CMD_side c) sd.idx).wr (R.ADAPT_CMD_pos c) pos

section adaptCmd

variable {s : State} {c op pos : Nat} {sd : Side} {act : Nat → State → State}

theorem adaptCmd_no_position {refused : Bool} (absent : 8 < pos) :
    adaptCmd c op sd pos refused act s = s.wr (R.ADAPT_CMD_refused c) 1 := if_pos absent

variable (existing : pos ≤ 8)

include existing

theorem adaptCmd_refused :
    adaptCmd c op sd pos true act s = (adaptStored c op sd pos s).wr (R.ADAPT_CMD_refused c) 1 :=
  if_neg (Nat.not_lt.mpr existing)

theorem adaptCmd_accepted :
    adaptCmd c op sd pos false act s = act (laneAt c pos) ((adaptStored c op sd pos s).wr (R.ADAPT_CMD_refused c) 0) :=
  if_neg (Nat.not_lt.mpr existing)

end adaptCmd

/-- A write of ADAPT_CMD leaves the rate code of the cluster's directions. -/
theorem ckRate_adaptAccepted {s : State} {c op pos : Nat} {sd : Side} {d : Dir} :
    ckRate ((adaptStored c op sd pos s).wr (R.ADAPT_CMD_refused c) 0) c d = ckRate s c d := by
  have apart : ∀ {f : Fld} {t : State} {v : Nat}, f.addr = 0x20048 + 4096 * c →
      ckRate (t.wr f v) c d = ckRate t c d := by
    intro f t v address
    refine rd_wr_ne ?_
    simp only [Fld.key, R.RATE_STAT_rate, address]
    cases d <;> simp only [Dir.idx] <;> omega
  rw [apart rfl, adaptStored, apart rfl, apart rfl, apart rfl]

section written

variable {s : State} {c pos : Nat} {sd : Side} (there : c < clustersOf s) (answers : pageOpen s (0x20 + c) = true)

include there answers

theorem exec_adaptReacquire_open {refused : Bool} (judged : (!s.on (leSd (laneAt c pos) sd)) = refused) :
    exec (.adaptReacquire c sd pos) s = .next (adaptCmd c 0 sd pos refused (fun n s =>
      acqRequest n sd (if ckRate s c sd.dirIn = 7 then (s.coefs n sd).rung else ckRate s c sd.dirIn) s) s) := by
  subst judged
  exact congrArg Host.Outcome.next (ifHas_open (decide_eq_true there) answers)

theorem exec_adaptFreeze_open {refused : Bool} (judged : decide (s.rd (estOf (laneAt c pos) sd) ≠ esTrack) = refused) :
    exec (.adaptFreeze c sd pos) s = .next (adaptCmd c 1 sd pos refused (fun n s =>
      engineDrop c (rxIndex n sd) ((s.wr (estOf n sd) esFrozen).putCoef n sd { s.coefs n sd with due := [] })) s) := by
  subst judged
  exact congrArg Host.Outcome.next (ifHas_open (decide_eq_true there) answers)

theorem exec_adaptThaw_open {refused : Bool} (judged : decide (s.rd (estOf (laneAt c pos) sd) ≠ esFrozen) = refused) :
    exec (.adaptThaw c sd pos) s = .next (adaptCmd c 2 sd pos refused (fun n s =>
      engineNext c (s.wr (estOf n sd) esTrack)) s) := by
  subst judged
  exact congrArg Host.Outcome.next (ifHas_open (decide_eq_true there) answers)

/-- An accepted REACQUIRE asks for the rate at which the direction ran before the write. -/
theorem exec_adaptReacquire_accepted (existing : pos ≤ 8) (signal : s.on (leSd (laneAt c pos) sd) = true) :
    exec (.adaptReacquire c sd pos) s = .next (acqRequest (laneAt c pos) sd
      (if ckRate s c sd.dirIn = 7 then (s.coefs (laneAt c pos) sd).rung else ckRate s c sd.dirIn)
      ((adaptStored c 0 sd pos s).wr (R.ADAPT_CMD_refused c) 0)) := by
  rw [exec_adaptReacquire_open there answers (refused := false) (by rw [signal, Bool.not_true]),
    adaptCmd_accepted existing, ckRate_adaptAccepted]
  rfl

end written

/-! ## DFE_SEL -/

theorem exec_dfeSelWrite_open {s : State} {c v : Nat} (there : c < clustersOf s) (answers : pageOpen s (0x20 + c) = true) :
    exec (.dfeSelWrite c v) s = .next (dfeSelWrite c v s) :=
  congrArg Host.Outcome.next (ifHas_open (decide_eq_true there) answers)

/-- Settles O19: each command by its position and by whether its end allows it, and the two cases of DFE_SEL. -/
theorem adaptCommands : Obligations.AdaptCommands := by
  unfold Obligations.AdaptCommands
  refine ⟨?reacquireRate, ?reacquireRung, ?reacquireRefused, ?freeze, ?freezeRefused, ?thaw, ?thawRefused, ?noPosition,
    ?latch, ?latchZeros⟩
  case reacquireRate =>
    intro s c sd pos there answers existing signal runs
    rw [exec_adaptReacquire_accepted there answers existing signal, if_neg runs, adaptStored]
  case reacquireRung =>
    intro s c sd pos there answers existing signal idle
    rw [exec_adaptReacquire_accepted there answers existing signal, if_pos idle, adaptStored]
  case reacquireRefused =>
    intro s c sd pos there answers existing silent
    rw [exec_adaptReacquire_open there answers (refused := true) (by rw [silent, Bool.not_false]),
      adaptCmd_refused existing, adaptStored]
  case freeze =>
    intro s c sd pos there answers existing tracked
    rw [exec_adaptFreeze_open there answers (refused := false) (by simp [tracked]), adaptCmd_accepted existing, adaptStored]
    rfl
  case freezeRefused =>
    intro s c sd pos there answers existing untracked
    rw [exec_adaptFreeze_open there answers (decide_eq_true untracked), adaptCmd_refused existing, adaptStored]
  case thaw =>
    intro s c sd pos there answers existing frozen
    rw [exec_adaptThaw_open there answers (refused := false) (by simp [frozen]), adaptCmd_accepted existing, adaptStored]
  case thawRefused =>
    intro s c sd pos there answers existing unfrozen
    rw [exec_adaptThaw_open there answers (decide_eq_true unfrozen), adaptCmd_refused existing, adaptStored]
  case noPosition =>
    intro s c pos sd there answers absent
    rw [exec_adaptReacquire_open there answers rfl, exec_adaptFreeze_open there answers rfl,
      exec_adaptThaw_open there answers rfl, adaptCmd_no_position absent, adaptCmd_no_position absent,
      adaptCmd_no_position absent]
    exact ⟨rfl, rfl, rfl⟩
  case latch =>
    intro s c v x selected there answers position
    subst selected
    rw [exec_dfeSelWrite_open there answers]
    simp only [dfeSelWrite, if_neg (Nat.not_lt.mpr position)]
    rfl
  case latchZeros =>
    intro s c v there answers noPosition
    rw [exec_dfeSelWrite_open there answers]
    simp only [dfeSelWrite, if_pos noPosition]
    rfl

end Sys2Proof.Machine
end

section
/-!
The board table and the flash port (R129-R134): the beginning, the refusal and the end of a load and of a flash command.
-/

namespace Sys2Proof.Machine

theorem ifOpen_open {p : Nat} {s t : State} (answers : pageOpen s p = true) : ifOpen p s t = t := if_pos answers

/-! ## Loads (R130-R132) -/

section load

variable {s : State} (answers : pageOpen s 0xE = true) (ready : s.on R.BT_CMD_busy = false)

include answers ready

theorem exec_btLoad_ready {refused : Bool} (judged : (!inRun s || s.on R.FC_CTL_busy) = refused) :
    exec .btLoad s = .next (if refused then s.wr R.BT_CMD_refused 1 else loadBegins (s.wr R.BT_CMD_refused 0)) := by
  subst judged
  refine congrArg Host.Outcome.next ((ifOpen_open answers).trans ?_)
  rw [btLoad, if_neg (ne_true_of_eq_false ready)]

end load

/-- The end of a load that is on: the primary image where it passes, else the backup as it is judged. -/
theorem exec_btLoadDone_loading {s t u : State} {primary backup : List Nat} {r q : BtResult} (checked : r = btCheck s primary)
    (recorded : t = (({ s with bt := { s.bt with reads := imageReads primary ++
      (if r.code = 1 then [] else imageReads backup) } }.wr R.BT_STAT_primary_result r.code).wr R.BT_STAT_result r.code))
    (rechecked : q = btCheck t backup) (told : u = (btDetail r t).wr R.BT_STAT_result q.code)
    (loading : s.on R.BT_STAT_loading = true) :
    exec (.btLoadDone primary backup) s = .next ((((if r.code = 1 then btLive 1 primary t
      else if q.code = 1 then btLive 2 backup u else btDetail q u).wr R.BT_STAT_loading 0).wr R.BT_CMD_busy 0).raise 294) := by
  subst checked recorded rechecked told
  exact congrArg Host.Outcome.next (if_pos loading)

/-! ## Flash commands (R133, R134) -/

/-- A length or an address length out of range: one of the two tests of `fcBad` holds. -/
theorem fcBad_iff {ctl : Nat} : fcBad ctl = true ↔ 64 < bits ctl 22 16 ∨ 2 ≤ bits ctl 9 8 := by
  simp only [fcBad, Bool.or_eq_true, decide_eq_true_eq]

section flashCommand

variable {s : State} {ctl : Nat} (answers : pageOpen s 0xE = true)

include answers

theorem exec_flashCommand_out_of_range (outOfRange : 64 < bits ctl 22 16 ∨ 2 ≤ bits ctl 9 8)
    (ready : s.on R.FC_CTL_busy = false) : exec (.flashCommand ctl) s = .next (s.wr R.FC_CTL_refused 1) := by
  refine congrArg Host.Outcome.next ((ifOpen_open answers).trans ?_)
  rw [flashCommand, if_pos (fcBad_iff.mpr outOfRange), if_neg (ne_true_of_eq_false ready)]

/-- A command with lengths in range, at a port with none in progress, is stored and then refused or begun. -/
theorem exec_flashCommand_in_range {t : State} {refused : Bool} (stored : t = fcStore ctl s) (length : bits ctl 22 16 ≤ 64)
    (address : bits ctl 9 8 < 2) (ready : t.on R.FC_CTL_busy = false) (judged : (t.on R.BT_CMD_busy || !inRun t) = refused) :
    exec (.flashCommand ctl) s = .next (if refused then t.wr R.FC_CTL_refused 1
      else { (t.wr R.FC_CTL_refused 0).wr R.FC_CTL_busy 1 with bt := { t.bt with fc := ctl } }) := by
  subst stored judged
  refine congrArg Host.Outcome.next ((ifOpen_open answers).trans ?_)
  have inRange : ¬ fcBad ctl = true := fun bad => by
    rcases fcBad_iff.mp bad with long | wide <;> omega
  rw [flashCommand, if_neg inRange, if_neg (ne_true_of_eq_false ready)]

end flashCommand

theorem exec_flashCommandDone_busy {s : State} {reads : List Nat} (busy : s.on R.FC_CTL_busy = true) :
    exec (.flashCommandDone reads) s = .next (if bit s.bt.fc 14 then s.wr R.FC_CTL_busy 0 else
      (List.range (bits s.bt.fc 22 16)).foldl (fun s i => putFcByte i (reads.getD i 0xFF) s) (s.wr R.FC_CTL_busy 0)) :=
  congrArg Host.Outcome.next (if_neg (by rw [busy, Bool.not_true]; exact Bool.false_ne_true))

/-- Settles O31: LOAD and a flash command by whether they are in range and allowed, a load's end by its two judgements, and
a flash command's end by its direction. -/
theorem boardTableAndFlash : Obligations.BoardTableAndFlash := by
  unfold Obligations.BoardTableAndFlash
  refine ⟨?load, ?loadRefused, ?loadEnds, ?flash, ?flashRefused, ?flashOutOfRange, ?flashReads, ?flashWrites⟩
  case load =>
    intro s answers ready runs idle
    rw [exec_btLoad_ready answers ready (refused := false) (by rw [runs, idle, Bool.not_true, Bool.or_self])]
    rfl
  case loadRefused =>
    intro s answers ready fails
    rw [exec_btLoad_ready answers ready (refused := true) (by simpa using fails), if_pos rfl]
  case loadEnds =>
    intro s primary backup r q t u checked recorded rechecked told loading
    exact exec_btLoadDone_loading checked recorded rechecked told loading
  case flash =>
    intro s ctl t stored answers length address ready noLoad runs
    rw [exec_flashCommand_in_range answers stored length address ready (refused := false)
      (by rw [noLoad, runs, Bool.not_true, Bool.or_self])]
    rfl
  case flashRefused =>
    intro s ctl t stored answers length address ready fails
    rw [exec_flashCommand_in_range answers stored length address ready (refused := true) (by simpa using fails), if_pos rfl]
  case flashOutOfRange =>
    intro s ctl answers outOfRange ready
    exact exec_flashCommand_out_of_range answers outOfRange ready
  case flashReads =>
    intro s reads busy fromFlash
    rw [exec_flashCommandDone_busy busy, if_neg (ne_true_of_eq_false fromFlash)]
  case flashWrites =>
    intro s reads busy toFlash
    rw [exec_flashCommandDone_busy busy, if_pos toFlash]

end Sys2Proof.Machine
end

section
/-!
Temperature samples, calibration runs with their steps, and the REXT reference (R359-R369, R402), in the order of
`Calibration`.
-/

namespace Sys2Proof.Machine

/-! ## A temperature sample (R362, R402) -/

theorem exec_tempSample_sampled {s t : State} {temps : List Int}
    (sampled : t = ((List.range (clustersOf s)).zip temps).foldl (fun s p => tempOne p.1 p.2 s) s)
    (runs : s.dev.phase ≠ .off) : exec (.tempSample temps) s = .next (tempFence (tempStatus t)) := by
  subst sampled
  exact congrArg Host.Outcome.next (if_neg runs)

/-- What a sample records: the hottest cluster, the peak, and whether it is critical. -/
theorem tempStatus_eq {t u v : State} {crit : Bool}
    (hot : u = (t.wr R.TMP_STAT_hot (hottest t)).wr R.TMP_STAT_max (unsigned 11 (lastTemp t (hottest t))))
    (peak : v = if !u.sup.peakSet || signed 11 (u.rd R.TMP_PEAK_peak) < lastTemp t (hottest t) then
      { (u.wr R.TMP_PEAK_cluster (hottest t)).wr R.TMP_PEAK_peak (unsigned 11 (lastTemp t (hottest t))) with
        sup := { u.sup with peakSet := true } } else u)
    (critical : crit = if 440 < lastTemp t (hottest t) then true else if lastTemp t (hottest t) ≤ 420 then false
      else v.on R.TMP_STAT_crit) :
    tempStatus t = (v.wrB R.TMP_STAT_crit crit).setInput 264 crit := by
  subst hot peak critical
  rfl

section tempFence

variable {s : State} {now : List Nat} (above : now = (List.range (clustersOf s)).filter fun c => 480 < lastTemp s c)

include above

theorem tempFence_first (first : now.any (fun c => s.sup.hot.contains c) = false) :
    tempFence s = { s with sup := { s.sup with hot := now } } := by
  subst above
  exact if_neg (ne_true_of_eq_false first)

theorem tempFence_again (again : now.any (fun c => s.sup.hot.contains c) = true) :
    tempFence s =
      fencePkg fcThermal (({ s with sup := { s.sup with hot := now } } : State).wr R.TMP_STAT_shut 1) := by
  subst above
  exact if_pos again

end tempFence

/-! ## A run begins (R361, R363, R364) -/

theorem exec_calRunStart_sequencing {s : State} {c : Nat} (there : c < clustersOf s)
    (runs : s.dev.phase = .start ∨ inRun s = true) : exec (.calRunStart c) s = .next (calRunStart c s) := by
  refine (onUnit_of_present (decide_eq_true there)).trans ?_
  rw [if_pos (by simpa using runs)]

theorem calRunStart_none {s : State} {c : Nat} (nothing : calNext s c = none) : calRunStart c s = s := by
  simp only [calRunStart, nothing]

theorem calRunStart_next {s : State} {c e : Nat} (chosen : calNext s c = some e) :
    calRunStart c s =
      if sentinelHeld s c e then s.putCal c { s.calSeq c with asked := true }
      else s.putCal c { s.calSeq c with cur := some e, curTemp := lastTemp s c, asked := false } := by
  simp only [calRunStart, chosen]

/-! ## A run ends (R361, R365, R366, R369) -/

theorem calStop_running {s : State} {c e result : Nat} (running : (s.calSeq c).cur = some e) :
    calStop c result s = (calRecord c e result s).putCal c
      { s.calSeq c with cur := none, queue := ((s.calSeq c).queue.filter fun x => x ≠ e) ++ [e] } := by
  simp only [calStop, running]

section calJudge

variable {t u w : State} {c e : Nat}

theorem calJudge_done
    (judged : u = t.putCal c ((t.calSeq c).putEnd e
      { (t.calSeq c).endOf e with tcal := some (t.calSeq c).curTemp, disagree := 0 }))
    (settled : w = (u.wr (R.CAL_DUE c e) 0).wr (R.CAL_FLT c e) 0) : calJudge c e true t = w := by
  subst judged settled
  rfl

variable (counted : u = (t.raise (16 * c + 8)).bump (R.CAL_CNT_disagree c))

include counted

theorem calJudge_partial
    (requeued : w = u.putCal c ({ t.calSeq c with queue := ((t.calSeq c).queue.filter fun x => x ≠ e) ++ [e] }.putEnd e
      { (t.calSeq c).endOf e with disagree := ((t.calSeq c).endOf e).disagree + 1, cause := 3 }))
    (again : ((t.calSeq c).endOf e).disagree + 1 < 3) : calJudge c e false t = w := by
  subst counted requeued
  exact if_pos again

theorem calJudge_third {x : State}
    (judged : x = u.putCal c ((t.calSeq c).putEnd e { (t.calSeq c).endOf e with
      tcal := some (t.calSeq c).curTemp, disagree := ((t.calSeq c).endOf e).disagree + 1 }))
    (settled : w = (x.wr (R.CAL_DUE c e) 0).wr (R.CAL_FLT c e) 1)
    (third : ¬ ((t.calSeq c).endOf e).disagree + 1 < 3) : calJudge c e false t = w := by
  subst counted judged settled
  exact if_neg third

end calJudge

section runEnd

variable {s : State} {c e : Nat} {meas : CalMeasure}

theorem exec_calRunEnd_there (there : c < clustersOf s) :
    exec (.calRunEnd c meas) s = .next (engineNext c (calRunEnd c meas s)) := onUnit_of_present (decide_eq_true there)

variable (running : (s.calSeq c).cur = some e)

include running

theorem calRunEnd_held (held : sentinelHeld s c e = true) : calRunEnd c meas s = calStop c 3 s := by
  simp only [calRunEnd, running, held, if_true]

variable (free : sentinelHeld s c e = false)

include free

theorem calRunEnd_other_number (other : meas.length ≠ calItems e) : calRunEnd c meas s = s := by
  simp only [calRunEnd, running, free, other, ne_eq, not_false_eq_true, Bool.false_eq_true, if_true, if_false]

/-- A run with all its measurements is recorded and judged, and its accepted values `v` take effect as the end allows. -/
theorem calRunEnd_judged {t w v : State} {agreed : Bool} (number : meas.length = calItems e)
    (judged : meas.all (calAgree (s.rd (R.CAL_CFG_tol c))) = agreed)
    (recorded : t = calRecord c e (if agreed then 1 else 2) s) (settled : calJudge c e agreed t = w)
    (accepted : v = w.putCal c ({ w.calSeq c with cur := none, waitStep := some e }.putEnd e
      { (w.calSeq c).endOf e with accepted := some (calAccept e (s.rd (R.CAL_CFG_tol c)) ((s.calSeq c).corrOf e) meas) })) :
    calRunEnd c meas s =
      if endTransparent v c e then calCodeStep c e v else if endCarries v c e then v else calApply c e v := by
  subst judged recorded settled accepted
  simp only [calRunEnd, running, free, number, ne_eq, not_true_eq_false, Bool.false_eq_true, if_false]

end runEnd

/-! ## Accepted values take effect (R365, R367) -/

section steps

variable {s t : State} {c e : Nat}

theorem exec_calStepApply_boundary (there : c < clustersOf s) (waits : (s.calSeq c).waitStep = some e)
    (plain : endTransparent s c e = false) : exec (.calStepApply c) s = .next (calApply c e s) := by
  refine (onUnit_of_present (decide_eq_true there)).trans ?_
  simp only [waits, plain, Bool.false_eq_true, if_false]

theorem exec_calCodeStep_transparent (there : c < clustersOf s) (waits : (s.calSeq c).waitStep = some e)
    (transparent : endTransparent s c e = true) : exec (.calCodeStep c) s = .next (calCodeStep c e s) := by
  refine (onUnit_of_present (decide_eq_true there)).trans ?_
  simp only [waits, transparent, if_true]

theorem calCodeStep_eq {acc : List Int} (goal : acc = ((s.calSeq c).endOf e).accepted.getD ((s.calSeq c).corrOf e))
    (stepped : t = s.putCal c ((s.calSeq c).putEnd e
      { (s.calSeq c).endOf e with corr := stepToward ((s.calSeq c).corrOf e) acc })) :
    calCodeStep c e s = if stepToward ((s.calSeq c).corrOf e) acc = acc then calApply c e t else t := by
  subst goal stepped
  rfl

variable (applied : t = s.putCal c { (s.calSeq c).putEnd e { (s.calSeq c).endOf e with
  corr := ((s.calSeq c).endOf e).accepted.getD ((s.calSeq c).corrOf e), accepted := none } with waitStep := none })

include applied

theorem calApply_due (due : t.on (R.CAL_DUE c e) = true) : calApply c e s = t := by
  subst applied
  exact if_pos due

theorem calApply_leaves {u : State}
    (left : u = t.putCal c { t.calSeq c with queue := (t.calSeq c).queue.filter fun x => x ≠ e })
    (settled : t.on (R.CAL_DUE c e) = false) :
    calApply c e s = if (u.calSeq c).queue = [] then u.raise (16 * c + 9) else u := by
  subst applied left
  exact if_neg (ne_true_of_eq_false settled)

end steps

/-! ## The REXT reference (R359) -/

theorem startFails_starting {s : State} {cause : Nat} (starting : s.dev.phase = .start)
    (undecided : s.rd R.START_STAT_result = 0) :
    startFails cause s = (s.wr R.START_STAT_result 2).wr R.START_STAT_cause cause := by
  simp only [startFails, starting, undecided, decide_true, Bool.and_self, if_true]

theorem exec_rextFault_new {s t : State}
    (stopped : t = (List.range (clustersOf s)).foldl (fun s c =>
      engineNext c (((calStop c 4 s).wr (R.CAL_STAT_rext_fault c) 1).raise (16 * c + 8))) s)
    (unknown : s.on (R.CAL_STAT_rext_fault 0) = false) (runs : s.dev.phase ≠ .off) :
    exec .rextFault s = .next (if t.rd R.START_STAT_step = 3 then startFails 3 t else t) := by
  subst stopped
  exact congrArg Host.Outcome.next (if_neg (by simp [unknown, runs]))

/-- Settles O39: a sample by what was hot before, a run by what holds its sentinel and how its measurements agree, a step by
the link of its end, and a REXT fault by what is known and by the step of START. -/
theorem calibrationEvents : Obligations.CalibrationEvents := by
  unfold Obligations.CalibrationEvents
  refine ⟨?sample, ?sampleFences, ?sampleOff, ?startNone, ?startAsks, ?startBegins, ?endHeld, ?endOther, ?endDone,
    ?endPartial, ?endThird, ?applyDue, ?applyLeaves, ?codeStep, ?rext, ?rextStart, ?rextKnown, ?rextClear⟩
  case sample =>
    intro s temps t u v w crit now sampled hot peak critical recorded above runs first
    rw [exec_tempSample_sampled sampled runs, tempStatus_eq hot peak critical, ← recorded, tempFence_first above first]
  case sampleFences =>
    intro s temps t u v w crit now sampled hot peak critical recorded above runs again
    rw [exec_tempSample_sampled sampled runs, tempStatus_eq hot peak critical, ← recorded, tempFence_again above again]
  case sampleOff =>
    intro s temps off
    exact congrArg Host.Outcome.next (if_pos off)
  case startNone =>
    intro s c there runs nothing
    rw [exec_calRunStart_sequencing there runs, calRunStart_none nothing]
  case startAsks =>
    intro s c e there runs chosen held
    rw [exec_calRunStart_sequencing there runs, calRunStart_next chosen, if_pos held]
  case startBegins =>
    intro s c e there runs chosen free
    rw [exec_calRunStart_sequencing there runs, calRunStart_next chosen, if_neg (ne_true_of_eq_false free)]
  case endHeld =>
    intro s c meas e there running held
    rw [exec_calRunEnd_there there, calRunEnd_held running held, calStop_running running]
  case endOther =>
    intro s c meas e there running free other
    rw [exec_calRunEnd_there there, calRunEnd_other_number running free other]
  case endDone =>
    intro s c meas e t u w v recorded judged settled accepted there running free number agreed
    rw [exec_calRunEnd_there there,
      calRunEnd_judged running free number agreed recorded (calJudge_done judged settled) accepted]
  case endPartial =>
    intro s c meas e t u w v recorded counted requeued accepted there running free number disagreed again
    rw [exec_calRunEnd_there there,
      calRunEnd_judged running free number disagreed recorded (calJudge_partial counted requeued again) accepted]
  case endThird =>
    intro s c meas e t u x w v recorded counted judged settled accepted there running free number disagreed third
    rw [exec_calRunEnd_there there,
      calRunEnd_judged running free number disagreed recorded (calJudge_third counted judged settled third) accepted]
  case applyDue =>
    intro s c e t applied there waits plain due
    rw [exec_calStepApply_boundary there waits plain, calApply_due applied due]
  case applyLeaves =>
    intro s c e t u applied left there waits plain settled
    rw [exec_calStepApply_boundary there waits plain, calApply_leaves applied left settled]
  case codeStep =>
    intro s c e acc t goal stepped there waits transparent
    rw [exec_calCodeStep_transparent there waits transparent, calCodeStep_eq goal stepped]
  case rext =>
    intro s t stopped unknown runs elsewhere
    rw [exec_rextFault_new stopped unknown runs, if_neg elsewhere]
  case rextStart =>
    intro s t stopped unknown runs calibrating starting undecided
    rw [exec_rextFault_new stopped unknown runs, if_pos calibrating, startFails_starting starting undecided]
  case rextKnown =>
    intro s knownOrOff
    exact congrArg Host.Outcome.next (if_pos (by simpa using knownOrOff))
  case rextClear =>
    intro s
    rfl

end Sys2Proof.Machine
end

section
/-!
CAL_CMD, eye measurements and CAL_SEL (R363, R369, R370, R373): each command by its acceptance or refusal, and the end of a
measurement, in the order of `Calibration`.
-/

namespace Sys2Proof.Machine

/-! ## An end becomes due (R363) -/

section calDue

variable {s t : State} {c cause e : Nat} (marked : t = s.wr (R.CAL_DUE c e) 1)

include marked

theorem calDue_queued (queued : ((t.calSeq c).queue.contains e || (t.calSeq c).cur = some e) = true) :
    calDue c cause e s = t := by
  subst marked
  exact if_pos queued

theorem calDue_unqueued (unqueued : ((t.calSeq c).queue.contains e || (t.calSeq c).cur = some e) = false) :
    calDue c cause e s = t.putCal c ({ t.calSeq c with queue := (t.calSeq c).queue ++ [e] }.putEnd e
      { (t.calSeq c).endOf e with cause := cause }) := by
  subst marked
  exact if_neg (ne_true_of_eq_false unqueued)

end calDue

/-! ## CAL_CMD -/

section calCmd

variable {s : State} {c op e : Nat}

theorem calCmd_refused (refused : calCmdRefused s c op e = true) : calCmd c op e s = s.wr (R.CAL_CMD_refused c) 1 :=
  if_pos refused

theorem calCmd_end (accepted : calCmdRefused s c 0 e = false) :
    calCmd c 0 e s = calDue c 2 e (s.wr (R.CAL_CMD_refused c) 0) := if_neg (ne_true_of_eq_false accepted)

theorem calCmd_all (accepted : calCmdRefused s c 1 e = false) :
    calCmd c 1 e s = (List.range 38).foldl (fun s e => calDue c 2 e s) (s.wr (R.CAL_CMD_refused c) 0) :=
  if_neg (ne_true_of_eq_false accepted)

theorem calCmd_eye {t u : State} (cleared : t = s.wr (R.CAL_CMD_refused c) 0)
    (begun : u = t.putCal c { t.calSeq c with eye := some e }) (accepted : calCmdRefused s c 2 e = false) :
    calCmd c 2 e s = ((u.wr (R.EYE_STAT_status c) 1).wr (R.EYE_STAT_end c) e).wr (R.EYE_STAT_rung c)
      (ckRate u c (calEndDir e)) := by
  subst cleared begun
  exact if_neg (ne_true_of_eq_false accepted)

end calCmd

section written

variable {s t : State} {c e : Nat} (there : c < clustersOf s) (answers : pageOpen s (0x20 + c) = true)

include there answers

theorem exec_calEnd_open (stored : t = (s.wr (R.CAL_CMD_end c) e).wr (R.CAL_CMD_op c) 0) :
    exec (.calEnd c e) s = .next (calCmd c 0 (e % 64) t) := by
  subst stored
  exact congrArg Host.Outcome.next (ifHas_open (decide_eq_true there) answers)

theorem exec_calAll_open (stored : t = s.wr (R.CAL_CMD_op c) 1) :
    exec (.calAll c) s = .next (calCmd c 1 (s.rd (R.CAL_CMD_end c)) t) := by
  subst stored
  exact congrArg Host.Outcome.next (ifHas_open (decide_eq_true there) answers)

theorem exec_calEye_open (stored : t = (s.wr (R.CAL_CMD_end c) e).wr (R.CAL_CMD_op c) 2) :
    exec (.calEye c e) s = .next (calCmd c 2 (e % 64) t) := by
  subst stored
  exact congrArg Host.Outcome.next (ifHas_open (decide_eq_true there) answers)

theorem exec_calSelWrite_open : exec (.calSelWrite c e) s = .next (calSelWrite c (e % 64) s) :=
  congrArg Host.Outcome.next (ifHas_open (decide_eq_true there) answers)

end written

/-! ## The end of an eye measurement (R114, R361, R370) -/

section eyeEnd

variable {s : State} {c e : Nat} {eyes : List EyeScan} (there : c < clustersOf s) (measured : (s.calSeq c).eye = some e)

include there measured

theorem exec_eyeEnd_aborted :
    exec (.eyeEnd c eyes true) s =
      .next (engineNext c ((s.putCal c { s.calSeq c with eye := none }).wr (R.EYE_STAT_status c) 3)) := by
  refine (onUnit_of_present (decide_eq_true there)).trans ?_
  simp only [measured, eyeAbort, if_true]

theorem exec_eyeEnd_held (held : (sentinelHeld s c e || (s.calSeq c).cur = some e) = true) :
    exec (.eyeEnd c eyes false) s = .next s := by
  refine (onUnit_of_present (decide_eq_true there)).trans ?_
  simp only [measured, held, Bool.false_eq_true, if_false, if_true]

theorem exec_eyeEnd_done (free : (sentinelHeld s c e || (s.calSeq c).cur = some e) = false) :
    exec (.eyeEnd c eyes false) s = .next (engineNext c (eyeDone c eyes s)) := by
  refine (onUnit_of_present (decide_eq_true there)).trans ?_
  simp only [measured, free, Bool.false_eq_true, if_false]

end eyeEnd

/-! ## CAL_SEL (R373) -/

section calSelWrite

variable {s t u : State} {c e : Nat} (selected : t = s.wr (R.CAL_SEL_end c) e)

include selected

theorem calSelWrite_rx (rx : e < 18) (temp : u = t.wr (R.CAL_TCAL_temp c) (unsigned 11 (((s.calSeq c).endOf e).tcal.getD 0))) :
    calSelWrite c e s = (((corrFields c).foldl (fun t p => t.wr p.1 (unsigned p.1.width (((s.calSeq c).corrOf e).getD p.2 0)))
      u).wr (R.CORR_IMP_p c) 0).wr (R.CORR_IMP_n c) 0 := by
  subst selected temp
  have ends : e ≤ 37 := by omega
  have notTx : ¬ 18 ≤ e := by omega
  simp only [calSelWrite, ends, rx, notTx, decide_false, Bool.false_and, Bool.false_eq_true, if_true, if_false]

theorem calSelWrite_tx (tx : 18 ≤ e) (ends : e ≤ 37)
    (temp : u = t.wr (R.CAL_TCAL_temp c) (unsigned 11 (((s.calSeq c).endOf e).tcal.getD 0))) :
    calSelWrite c e s = (((corrFields c).foldl (fun t p => t.wr p.1 0) u).wr (R.CORR_IMP_p c)
      (unsigned 6 (((s.calSeq c).corrOf e).getD 0 0))).wr (R.CORR_IMP_n c) (unsigned 6 (((s.calSeq c).corrOf e).getD 1 0)) := by
  subst selected temp
  have notRx : ¬ e < 18 := by omega
  simp only [calSelWrite, ends, tx, notRx, decide_true, Bool.and_self, if_true, if_false]

theorem calSelWrite_no_end (beyond : 37 < e) (temp : u = t.wr (R.CAL_TCAL_temp c) 0) :
    calSelWrite c e s = (((corrFields c).foldl (fun t p => t.wr p.1 0) u).wr (R.CORR_IMP_p c) 0).wr (R.CORR_IMP_n c) 0 := by
  subst selected temp
  have noEnd : ¬ e ≤ 37 := by omega
  have notRx : ¬ e < 18 := by omega
  simp only [calSelWrite, noEnd, notRx, decide_false, Bool.and_false, Bool.false_eq_true, if_false]

end calSelWrite

/-- Settles O40: each command by its acceptance, a measurement's end by what holds its sentinel, and CAL_SEL by the kind of
end that it selects. -/
theorem calibrationCommands : Obligations.CalibrationCommands := by
  unfold Obligations.CalibrationCommands
  refine ⟨?queued, ?unqueued, ?all, ?eye, ?endRefused, ?allRefused, ?eyeRefused, ?done, ?held, ?aborted, ?rx, ?tx, ?noEnd⟩
  case queued =>
    intro s c e t u stored marked there answers accepted queued
    rw [exec_calEnd_open there answers stored, calCmd_end accepted, calDue_queued marked queued]
  case unqueued =>
    intro s c e t u stored marked there answers accepted unqueued
    rw [exec_calEnd_open there answers stored, calCmd_end accepted, calDue_unqueued marked unqueued]
  case all =>
    intro s c t stored there answers accepted
    rw [exec_calAll_open there answers stored, calCmd_all accepted]
  case eye =>
    intro s c e t u v stored cleared begun there answers accepted
    rw [exec_calEye_open there answers stored, calCmd_eye cleared begun accepted]
  case endRefused =>
    intro s c e t stored there answers refused
    rw [exec_calEnd_open there answers stored, calCmd_refused refused]
  case allRefused =>
    intro s c t stored there answers refused
    rw [exec_calAll_open there answers stored, calCmd_refused refused]
  case eyeRefused =>
    intro s c e t stored there answers refused
    rw [exec_calEye_open there answers stored, calCmd_refused refused]
  case done =>
    intro s c eyes e r t rung stored there measured free idle
    rw [exec_eyeEnd_done there measured (by rw [free, Bool.false_or, decide_eq_false idle]), eyeDone, ← rung, ← stored]
  case held =>
    intro s c eyes e there measured held
    exact exec_eyeEnd_held there measured (by simpa using held)
  case aborted =>
    intro s c eyes e there measured
    exact exec_eyeEnd_aborted there measured
  case rx =>
    intro s c e z t u same selected there answers rx temp
    subst same
    rw [exec_calSelWrite_open there answers, calSelWrite_rx selected rx temp]
  case tx =>
    intro s c e t u selected there answers tx ends temp
    rw [exec_calSelWrite_open there answers, calSelWrite_tx selected tx ends temp]
  case noEnd =>
    intro s c e t u selected there answers beyond temp
    rw [exec_calSelWrite_open there answers, calSelWrite_no_end selected beyond temp]

end Sys2Proof.Machine
end

section
/-!
The timers of the span sequencer (R141, R144-R148, R151-R153): what each does once its time has passed, in the order of
`Training`.
-/

namespace Sys2Proof.Machine

/-! ## The election (R141) -/

section capSettle

variable {s u : State} {k : Nat} {sd : Side} {g : List (Nat × Side)}

theorem exec_capSettleExpiry_settled (there : k < linksOf s) (training : spanTraining s k sd = true)
    (sequencer : hasSequencer s k sd = true) (clocked : sideHeld s k sd = false) (settled : capSettled s k sd = true) :
    exec (.capSettleExpiry k sd) s = .next (capSettle k sd s) := by
  refine (onUnit_of_present (decide_eq_true there)).trans ?_
  simp only [training, sequencer, clocked, settled, Bool.not_false, Bool.and_self, if_true]

variable (group : g = (rateGroup s k sd).filter fun p => spanTraining s p.1 p.2)

include group

/-- An election value equal to one received is a collision, which the group answers by a new draw until the eighth. -/
theorem capSettle_collision {m : Nat}
    (tie : (g.any fun p => s.rd (R.SPAN_NBR_adv_elect p.1 p.2.idx) = inElect s p.1 p.2) = true)
    (count : m = (s.span k sd).collisions + 1)
    (counted : u = g.foldl (fun s p => s.modSpan p.1 p.2 fun x => { x with collisions := m, capFrom := s.clock })
      (s.bump (R.TRN_CNT_collisions k))) :
    capSettle k sd s = if 8 ≤ m then (rateGroup u k sd).foldl (fun s p => linkDown p.1 ftElection false s) u
      else electDraw (rateGroup u k sd) u := by
  subst group count counted
  exact if_pos tie

theorem capSettle_decided
    (distinct : (g.any fun p => s.rd (R.SPAN_NBR_adv_elect p.1 p.2.idx) = inElect s p.1 p.2) = false) :
    capSettle k sd s =
      g.foldl (fun s p => s.modSpan p.1 p.2 fun x => { x with collisions := 0, capFrom := s.clock }) s := by
  subst group
  exact if_neg (ne_true_of_eq_false distinct)

end capSettle

/-! ## SWITCH and the quality figure (R145, R146) -/

section figure

variable {s : State} {k : Nat} {sd : Side} (there : k < linksOf s)

theorem figureFails_joined (unjudged : ((s.span k sd).judged && !(s.span k sd).passes) = false)
    (joined : groupJoined s k sd = true) : figureFails k sd s = linkDown k ftGroup false s := by
  simp only [figureFails, unjudged, joined, Bool.false_eq_true, if_true, if_false]

include there

theorem exec_switchIdleEnd_due (switching : spanState s k sd = spSwitch) (clocked : sideHeld s k sd = false)
    (sent : sideSending s k sd = false) (due : (s.span k sd).idleFrom + 1000 * switchIdle s k ≤ s.clock) :
    exec (.switchIdleEnd k sd) s = .next (trainAt k sd (s.span k sd).toRung s) := by
  refine (onUnit_of_present (decide_eq_true there)).trans ?_
  simp only [switching, clocked, sent, due, decide_true, Bool.not_false, Bool.and_self, if_true]

theorem exec_dwellEnd_early {symbols : Nat} (early : symbols < dwellSymbols s k) :
    exec (.dwellEnd k sd symbols) s = .next s := by
  refine (onUnit_of_present (decide_eq_true there)).trans ?_
  simp only [early, decide_true, Bool.or_true, if_true]

theorem exec_dwellEnd_complete {symbols : Nat} (qualifying : spanState s k sd = spQualify)
    (clocked : sideHeld s k sd = false) (elapsed : dwellSymbols s k ≤ symbols) :
    exec (.dwellEnd k sd symbols) s =
      .next (if dwellPasses s k sd then figurePasses k sd s else figureFails k sd s) := by
  refine (onUnit_of_present (decide_eq_true there)).trans ?_
  simp only [qualifying, clocked, Nat.not_lt.mpr elapsed, ne_eq, not_true_eq_false, decide_false, Bool.or_self,
    Bool.false_eq_true, if_false]

theorem exec_rungMaxExpiry_due (unfinished : spanState s k sd = spAcquire ∨ spanState s k sd = spQualify)
    (clocked : sideHeld s k sd = false) (due : (s.span k sd).acqFrom + rungMaxNs s k ≤ s.clock) :
    exec (.rungMaxExpiry k sd) s = .next (figureFails k sd s) := by
  refine (onUnit_of_present (decide_eq_true there)).trans (congrArg _ (if_pos ?_))
  simpa only [clocked, due, decide_true, Bool.not_false, Bool.and_true, Bool.or_eq_true, decide_eq_true_eq]
    using unfinished

end figure

/-! ## The limits of a training and of a retrain (R153) -/

section limits

variable {s : State} {k : Nat} {sd : Side} (there : k < linksOf s) (training : spanTraining s k sd = true)
  (clocked : sideHeld s k sd = false)

include there training clocked

theorem exec_trainMaxExpiry_due (first : spanRetraining s k sd = false)
    (due : (s.span k sd).trainFrom + trainMaxNs s k ≤ s.clock) :
    exec (.trainMaxExpiry k sd) s =
      .next (linkDown k (if 3 ≤ (s.span k sd).l0Fails then ftQuality else ftTimeout) false s) := by
  refine (onUnit_of_present (decide_eq_true there)).trans (congrArg _ (if_pos ?_))
  simp only [training, first, clocked, due, decide_true, Bool.not_false, Bool.and_self]

theorem exec_retrainMaxExpiry_due (again : spanRetraining s k sd = true)
    (due : (s.span k sd).trainFrom + retrainMaxNs s k ≤ s.clock) :
    exec (.retrainMaxExpiry k sd) s = .next (linkDown k ftTimeout false s) := by
  refine (onUnit_of_present (decide_eq_true there)).trans (congrArg _ (if_pos ?_))
  simp only [training, again, clocked, due, decide_true, Bool.not_false, Bool.and_self]

end limits

/-! ## Sets sent again (R144, R151) -/

section resends

variable {s u : State} {k : Nat} {sd : Side}

theorem exec_rateResend_there (there : k < linksOf s) : exec (.rateResend k sd) s = .next (rateAgain k sd s) :=
  onUnit_of_present (decide_eq_true there)

/-- A RATE that has been pending for 2 µs. -/
theorem rateAgain_due {r : Nat} (pending : (s.span k sd).rateTarget = some r) (stepping : spanState s k sd = spStep)
    (clocked : sideHeld s k sd = false) (due : (s.span k sd).rateAt + 2000 ≤ s.clock) :
    rateAgain k sd s = if 16 ≤ (s.span k sd).rateSends then linkDown k ftTimeout false s
      else postTrn k sd { mkTrn s k sd trnRATE with target := r, tag := (s.span k sd).rateTag }
        (dropRates k sd (s.putSpan k sd
          { s.span k sd with rateSends := (s.span k sd).rateSends + 1, rateAt := s.clock })) := by
  simp only [rateAgain, pending, stepping, clocked, Nat.not_lt.mpr due, ne_eq, not_true_eq_false, decide_false,
    Bool.or_self, Bool.false_eq_true, if_false]

theorem exec_echoWaitExpiry_due (there : k < linksOf s) (measuring : spanState s k sd = spMeasure)
    (clocked : sideHeld s k sd = false) (out : (s.span k sd).echoOut = true)
    (due : (s.span k sd).echoAt + 10000 ≤ s.clock) :
    exec (.echoWaitExpiry k sd) s = .next (echoNext k sd s) := by
  refine (onUnit_of_present (decide_eq_true there)).trans (congrArg _ (if_pos ?_))
  simp only [measuring, clocked, out, due, decide_true, Bool.not_false, Bool.and_self]

theorem echoNext_asks (few : (s.span k sd).requests < 32)
    (asked : u = s.putSpan k sd
      { s.span k sd with
        echoTag := ((s.span k sd).echoTag + 1) % 256, requests := (s.span k sd).requests + 1, echoOut := true,
        echoAt := s.clock }) :
    echoNext k sd s = postTrn k sd { mkTrn u k sd trnECHOREQ with tag := ((s.span k sd).echoTag + 1) % 256 } u := by
  subst asked
  exact if_neg (Nat.not_le.mpr few)

theorem echoNext_gives_up (many : 32 ≤ (s.span k sd).requests) : echoNext k sd s = linkDown k ftEcho false s :=
  if_pos many

end resends

/-! ## Times of the fabric: the DOWN hold, GO and T_up (R148, R152, R153) -/

theorem downRestart_due {s : State} {k : Nat} {sd : Side} (down : spanState s k sd = spDown)
    (free : (s.span k sd).byCmd = false) (due : (s.span k sd).downAt + 1000000 ≤ s.fab)
    (may : mayTrain s k sd = true) : downRestart k sd s = detectEnter k sd true (blindSystem s) s := by
  simp only [downRestart, down, free, due, may, decide_true, Bool.not_false, Bool.and_self, if_true]

theorem exec_downHoldEnd_clocked {s : State} {k : Nat} {sd : Side} (there : k < linksOf s)
    (clocked : sideHeld s k sd = false) : exec (.downHoldEnd k sd) s = .next (downRestart k sd s) :=
  (onUnit_of_present (decide_eq_true there)).trans (congrArg _ (if_neg (ne_true_of_eq_false clocked)))

theorem exec_goTime_reached {s : State} (reached : goReached s = true) : exec .goTime s = .next (detectAll s) :=
  congrArg Host.Outcome.next (if_pos reached)

theorem exec_tUpBegin_armed {s : State} {k t : Nat} (there : k < linksOf s) (taken : (s.link k).tUp = some t)
    (due : t ≤ s.fab) (ready : armed s k = true) (clocked : (usedSides s k).any (sideHeld s k) = false) :
    exec (.tUpBegin k) s = .next (linkUp k s) := by
  refine (onUnit_of_present (decide_eq_true there)).trans ?_
  simp only [taken, due, ready, clocked, decide_true, Bool.not_false, Bool.and_self, if_true]

/-- Settles O21: each timer by its guard, and where it has two outcomes, by the count or the judgement that decides. -/
theorem trainingTimers : Obligations.TrainingTimers := by
  unfold Obligations.TrainingTimers
  refine ⟨?collides, ?collidesEighth, ?distinct, ?switched, ?passes, ?early, ?fails, ?rungMax, ?rungMaxJoined, ?trainMax,
    ?retrainMax, ?rateAgain, ?rateGivesUp, ?echoAgain, ?echoGivesUp, ?downHold, ?go, ?up⟩
  case collides =>
    intro s k sd g m u group there training sequencer clocked settled tie count counted few
    rw [exec_capSettleExpiry_settled there training sequencer clocked settled, capSettle_collision group tie count counted,
      if_neg (by omega)]
  case collidesEighth =>
    intro s k sd g m u group there training sequencer clocked settled tie count counted many
    rw [exec_capSettleExpiry_settled there training sequencer clocked settled, capSettle_collision group tie count counted,
      if_pos (by omega)]
  case distinct =>
    intro s k sd g group there training sequencer clocked settled distinct
    rw [exec_capSettleExpiry_settled there training sequencer clocked settled, capSettle_decided group distinct]
  case switched =>
    intro s k sd there switching clocked sent due
    exact exec_switchIdleEnd_due there switching clocked sent due
  case passes =>
    intro s k sd symbols u there qualifying clocked elapsed passes judged
    rw [exec_dwellEnd_complete there qualifying clocked elapsed, if_pos passes, figurePasses, ← judged]
  case early =>
    intro s k sd symbols there early
    exact exec_dwellEnd_early there early
  case fails =>
    intro s k sd symbols there qualifying clocked elapsed fails
    rw [exec_dwellEnd_complete there qualifying clocked elapsed, if_neg (ne_true_of_eq_false fails)]
  case rungMax =>
    intro s k sd there unfinished clocked due
    exact exec_rungMaxExpiry_due there unfinished clocked due
  case rungMaxJoined =>
    intro s k sd there unfinished clocked due unjudged joined
    rw [exec_rungMaxExpiry_due there unfinished clocked due, figureFails_joined unjudged joined]
  case trainMax =>
    intro s k sd there training first clocked due
    exact exec_trainMaxExpiry_due there training clocked first due
  case retrainMax =>
    intro s k sd there training again clocked due
    exact exec_retrainMaxExpiry_due there training clocked again due
  case rateAgain =>
    intro s k sd r there pending stepping clocked due few
    rw [exec_rateResend_there there, rateAgain_due pending stepping clocked due, if_neg (Nat.not_le.mpr few)]
  case rateGivesUp =>
    intro s k sd r there pending stepping clocked due many
    rw [exec_rateResend_there there, rateAgain_due pending stepping clocked due, if_pos many]
  case echoAgain =>
    intro s k sd u there measuring clocked out due few asked
    rw [exec_echoWaitExpiry_due there measuring clocked out due, echoNext_asks few asked]
  case echoGivesUp =>
    intro s k sd there measuring clocked out due many
    rw [exec_echoWaitExpiry_due there measuring clocked out due, echoNext_gives_up many]
  case downHold =>
    intro s k sd there clocked down free due may
    rw [exec_downHoldEnd_clocked there clocked, downRestart_due down free due may]
  case go =>
    intro s reached
    rw [exec_goTime_reached reached, detectAll]
  case up =>
    intro s k t there taken due ready clocked
    exact exec_tUpBegin_armed there taken due ready clocked

end Sys2Proof.Machine
end

section
/-!
TRN_CMD (R160): what a write of it stores, when it is refused, and the four operations.
-/

namespace Sys2Proof.Machine

/-- The fields of TRN_CMD as every write of it stores them. -/
def trnStored (k op : Nat) (sd : Side) (rung : Nat) (s : State) : State :=
  ((s.wr (R.TRN_CMD_op k) op).wr (R.TRN_CMD_side k) sd.idx).wr (R.TRN_CMD_rung k) rung

section trnCmd

variable {s : State} {k op rung : Nat} {sd : Side} {act : State → State}

/-- A write of TRN_CMD leaves the live mode of its link. -/
theorem modeOf_trnStored : modeOf (trnStored k op sd rung s) k = modeOf s k := by
  rw [modeOf, trnStored, rd_wr_ne, rd_wr_ne, rd_wr_ne, modeOf]
  all_goals
    simp only [Fld.key, R.LNK_CFG_LIVE_mode, R.TRN_CMD_op, R.TRN_CMD_side, R.TRN_CMD_rung]
    omega

/-- TRN_CMD is judged by the mode that the link had before the write. -/
theorem trnCmd_eq {refused : Bool} :
    trnCmd k op sd rung refused act s = if refused || modeOf s k = mNone then
        (trnStored k op sd rung s).wr (R.TRN_CMD_refused k) 1
      else act ((trnStored k op sd rung s).wr (R.TRN_CMD_refused k) 0) := by
  rw [← modeOf_trnStored (s := s) (op := op) (rung := rung) (sd := sd)]
  rfl

theorem trnCmd_refused {refused : Bool} (refuses : refused = true ∨ modeOf s k = mNone) :
    trnCmd k op sd rung refused act s = (trnStored k op sd rung s).wr (R.TRN_CMD_refused k) 1 :=
  trnCmd_eq.trans (if_pos (by simpa using refuses))

theorem trnCmd_accepted (configured : modeOf s k ≠ mNone) :
    trnCmd k op sd rung false act s = act ((trnStored k op sd rung s).wr (R.TRN_CMD_refused k) 0) :=
  trnCmd_eq.trans (if_neg (by simpa using configured))

end trnCmd

section written

variable {s : State} {k : Nat} {sd : Side} (there : k < linksOf s) (answers : pageOpen s (0x40 + k) = true)

include there answers

theorem exec_trnRetrain_open {refused : Bool} (judged : notSteady s k sd = refused) :
    exec (.trnRetrain k sd) s =
      .next (trnCmd k 0 sd (s.rd (R.TRN_CMD_rung k)) refused (retrain k sd none false) s) := by
  subst judged
  exact congrArg Host.Outcome.next (ifHas_open (decide_eq_true there) answers)

theorem exec_trnStep_open {rung : Nat} {refused : Bool}
    (judged : (notSteady s k sd || rung = spanRung s k sd || targetRung s (rateGroup s k sd) < rung ||
      (transRung s k sd).isSome) = refused) :
    exec (.trnStep k sd rung) s = .next (trnCmd k 1 sd rung refused (retrain k sd (some rung) false) s) := by
  subst judged
  exact congrArg Host.Outcome.next (ifHas_open (decide_eq_true there) answers)

theorem exec_trnDown_open :
    exec (.trnDown k) s = .next (trnCmd k 2 (Side.ofIdx (s.rd (R.TRN_CMD_side k))) (s.rd (R.TRN_CMD_rung k)) false
      (linkDown k ftHost true) s) :=
  congrArg Host.Outcome.next (ifHas_open (decide_eq_true there) answers)

theorem exec_trnRestart_open {refused : Bool}
    (judged : ((usedSides s k).all fun e => spanState s k e ≠ spDown) = refused) :
    exec (.trnRestart k sd) s = .next (trnCmd k 3 sd (s.rd (R.TRN_CMD_rung k)) refused
      (fun s => (usedSides s k).foldl (fun s e => restartSpan k e s) s) s) := by
  subst judged
  exact congrArg Host.Outcome.next (ifHas_open (decide_eq_true there) answers)

end written

/-- Settles O22: each operation by what refuses it; a link that is not configured refuses all four. -/
theorem trainCommands : Obligations.TrainCommands := by
  unfold Obligations.TrainCommands
  refine ⟨?retrain, ?retrainRefused, ?step, ?stepRefused, ?down, ?downRefused, ?restart, ?restartRefused⟩
  case retrain =>
    intro s k sd there answers steady configured
    rw [exec_trnRetrain_open there answers steady, trnCmd_accepted configured, trnStored]
  case retrainRefused =>
    intro s k sd there answers refuses
    rw [exec_trnRetrain_open there answers rfl, trnCmd_refused refuses, trnStored]
  case step =>
    intro s k sd rung there answers steady configured other allowed plain
    rw [exec_trnStep_open there answers (refused := false) (by simp [steady, other, allowed, plain]),
      trnCmd_accepted configured, trnStored]
  case stepRefused =>
    intro s k sd rung there answers refuses
    rw [exec_trnStep_open there answers rfl, trnCmd_refused (by simpa [or_assoc] using refuses), trnStored]
  case down =>
    intro s k there answers configured
    rw [exec_trnDown_open there answers, trnCmd_accepted configured, trnStored]
  case downRefused =>
    intro s k there answers unconfigured
    rw [exec_trnDown_open there answers, trnCmd_refused (.inr unconfigured), trnStored]
  case restart =>
    intro s k sd there answers configured down
    rw [exec_trnRestart_open there answers down, trnCmd_accepted configured, trnStored]
    rfl
  case restartRefused =>
    intro s k sd there answers refuses
    rw [exec_trnRestart_open there answers rfl, trnCmd_refused refuses, trnStored]

end Sys2Proof.Machine
end

section
/-!
The scheduler's turn (R172), in the order of its items, and the events of an elastic buffer, of deskew and of the flit
counters (R87, R88, R92, R182).
-/

namespace Sys2Proof.Machine

/-! ## A turn on a side (R98, R172) -/

section turn

variable {s t u : State} {k : Nat} {sd : Side} {r1 r2 : EccRead} (left : t = leaveSend k sd s)
  (ended : u = itemEnds k sd (t.side k sd).cur (itemDone k sd t)) (there : k < linksOf s)
  (clocked : sideHeld s k sd = false) (used : sideUsed t k sd = true)

include left ended there clocked used

/-- On a used side the item that was being sent ends, squelched TX ends resume, and the next item is IDL or the
scheduler's choice. -/
theorem exec_sendNext_used :
    exec (.sendNext k sd r1 r2) s = .next (
      if squelched u k sd then
        if spanUp (txResume k sd u) k sd then itemStart k sd .idl (txResume k sd u)
        else chooseItem k sd r1 r2 (txResume k sd u)
      else chooseItem k sd r1 r2 u) := by
  subst left ended
  refine (onUnit_of_present (decide_eq_true there)).trans (congrArg _ ?_)
  rw [if_neg (ne_true_of_eq_false clocked)]
  exact if_neg (by simp [used])

theorem exec_sendNext_chooses {v : State} (resumed : v = if squelched u k sd then txResume k sd u else u)
    (goesOn : (squelched u k sd && spanUp v k sd) = false) :
    exec (.sendNext k sd r1 r2) s = .next (chooseItem k sd r1 r2 v) := by
  rw [exec_sendNext_used left ended there clocked used]
  cases quiet : squelched u k sd with
  | false =>
    obtain rfl : v = u := resumed.trans (if_neg (ne_true_of_eq_false quiet))
    rfl
  | true =>
    obtain rfl : v = txResume k sd u := resumed.trans (if_pos quiet)
    rw [quiet, Bool.true_and] at goesOn
    rw [if_pos rfl, if_neg (ne_true_of_eq_false goesOn)]

end turn

/-! ## The scheduler's choice (R172): each item where none that goes before it is due -/

section choice

variable {v : State} {k : Nat} {sd : Side} {r1 r2 : EccRead}

theorem chooseItem_eie (due : (v.side k sd).eieDue = true) :
    chooseItem k sd r1 r2 v = itemStart k sd .eie (v.putSide k sd { v.side k sd with eieDue := false }) :=
  if_pos due

variable (noEie : (v.side k sd).eieDue = false)

include noEie

section sending

variable (sends : (spanUp v k sd || sendsTrn (spanState v k sd)) = true)

include sends

/-- A side that is UP or sends TRN sets gives a SKP set that is due the first place after EIE: one received, with its
length, where it has its place, else one of 4. -/
theorem chooseItem_skp (due : skpDue v k sd = true) :
    chooseItem k sd r1 r2 v =
      if skpPlace v k sd then
        itemStart k sd (.skp (((v.side k sd).skpFwd.head?.map SkpFwd.n).getD 4)) (v.putSide k sd
          { v.side k sd with skpFwd := (v.side k sd).skpFwd.drop 1, skpCount := 0 })
      else itemStart k sd (.skp 4) (v.putSide k sd { v.side k sd with skpCount := 0 }) :=
  (if_neg (ne_true_of_eq_false noEie)).trans ((if_pos sends).trans (if_pos due))

variable (noSkp : skpDue v k sd = false)

include noSkp

theorem chooseItem_trn {p : TrnSet} {rest : List TrnSet} (due : (v.side k sd).trnDue = p :: rest) :
    chooseItem k sd r1 r2 v = itemStart k sd (.trn p) (v.putSide k sd { v.side k sd with trnDue := rest }) := by
  refine (if_neg (ne_true_of_eq_false noEie)).trans ((if_pos sends).trans ?_)
  simp only [noSkp, due, Bool.false_eq_true, if_false]

theorem chooseItem_fill (noTrn : (v.side k sd).trnDue = []) (trains : spanState v k sd ≠ spUp) :
    chooseItem k sd r1 r2 v = itemStart k sd (.trn (trnFill v k sd)) (v.putSpan k sd
      { v.span k sd with fill := ((v.span k sd).fill + 1) % 4 }) := by
  refine (if_neg (ne_true_of_eq_false noEie)).trans ((if_pos sends).trans ?_)
  simp only [noSkp, noTrn, trains, ne_eq, not_false_eq_true, Bool.false_eq_true, if_true, if_false]

end sending

section up

variable (noSkp : skpDue v k sd = false) (noTrn : (v.side k sd).trnDue = []) (up : spanState v k sd = spUp)

include noSkp noTrn up

theorem chooseItem_drn {d : DrnSet} (due : drnDue v k sd = some d) :
    chooseItem k sd r1 r2 v = itemStart k sd (.drn d) (drnStarts (trunkKey v k sd) d v) := by
  simp only [chooseItem, noEie, noSkp, noTrn, up, due, decide_true, Bool.true_or, ne_eq, not_true_eq_false,
    Bool.false_eq_true, if_true, if_false]

variable (noDrn : drnDue v k sd = none)

include noDrn

theorem chooseItem_ack {a : AckSet} (turn : ((v.side k sd).lastAck && flitReady v k sd) = false)
    (pending : (v.side k sd).pendAck = some a) :
    chooseItem k sd r1 r2 v =
      itemStart k sd (.ack a) (ackStarts k sd a (v.putSide k sd { v.side k sd with pendAck := none })) := by
  simp only [chooseItem, noEie, noSkp, noTrn, up, noDrn, turn, pending, decide_true, Bool.true_or, ne_eq,
    not_true_eq_false, Bool.false_eq_true, if_true, if_false]

variable (ackWaits : ((v.side k sd).lastAck && flitReady v k sd) = true ∨ (v.side k sd).pendAck = none)

include ackWaits

theorem chooseItem_sel {b : List Nat} {rest : List (List Nat)} (cadence : (v.side k sd).selSyms = 0)
    (pending : (v.side k sd).pendSel = b :: rest) :
    chooseItem k sd r1 r2 v = itemStart k sd (.sel b) ((v.bump R.SEL_CNT_tx).putSide k sd
      { v.side k sd with
        pendSel := (v.side k sd).pendSel.drop 1, selSyms := 1024 * sliceLen (sideWidth v k sd) }) := by
  have noAck := ite_eq_left_iff.mpr ackWaits.resolve_left
  simp only [chooseItem, noEie, noSkp, noTrn, up, noDrn, noAck, cadence, pending, List.head?_cons, decide_true,
    Bool.true_or, ne_eq, not_true_eq_false, Bool.false_eq_true, if_true, if_false]

variable (selWaits : (v.side k sd).selSyms ≠ 0 ∨ (v.side k sd).pendSel = [])

include selWaits

/-- Where no set is to go, the flit that item 7 yields does, or IDL. -/
theorem chooseItem_flit {found : Option Item} {w : State} (next : nextFlit k sd r1 r2 v = (found, w)) :
    chooseItem k sd r1 r2 v = itemStart k sd (found.elim .idl (mixedItem w k sd)) w := by
  have noAck := ite_eq_left_iff.mpr ackWaits.resolve_left
  have noSel : (if (v.side k sd).selSyms = 0 then (v.side k sd).pendSel.head? else none) = none :=
    ite_eq_right_iff.mpr fun cadence => List.head?_eq_none_iff.mpr (selWaits.resolve_left (not_not_intro cadence))
  simp only [chooseItem, noEie, noSkp, noTrn, up, noDrn, noAck, noSel, next, decide_true, Bool.true_or, ne_eq,
    not_true_eq_false, Bool.false_eq_true, if_true, if_false]
  cases found <;> rfl

end up

section quiet

variable (quiet : (spanUp v k sd || sendsTrn (spanState v k sd)) = false)

include quiet

theorem chooseItem_switch {p : TrnSet} {rest : List TrnSet} (switching : spanState v k sd = spSwitch)
    (due : (v.side k sd).trnDue = p :: rest) :
    chooseItem k sd r1 r2 v = itemStart k sd (.trn p) (v.putSide k sd { v.side k sd with trnDue := rest }) := by
  refine (if_neg (ne_true_of_eq_false noEie)).trans ((if_neg (ne_true_of_eq_false quiet)).trans ?_)
  simp only [due, switching, if_true]

theorem chooseItem_nothing (silent : spanState v k sd ≠ spSwitch ∨ (v.side k sd).trnDue = []) :
    chooseItem k sd r1 r2 v = v := by
  refine (if_neg (ne_true_of_eq_false noEie)).trans ((if_neg (ne_true_of_eq_false quiet)).trans ?_)
  cases due : (v.side k sd).trnDue with
  | nil => rfl
  | cons p rest => exact if_neg (silent.resolve_right (by simp [due]))

end quiet

end choice

/-! ## A slip of an elastic buffer (R92, R385) -/

/-- A slip that counts marks for recentring the ends of the side that its end serves. -/
theorem exec_ebSlip_receives {s t u : State} {n pos : Nat} {sd : Side} {full : Bool}
    (slipped : t = (s.putRx n sd
      { s.rxe n sd with fill := if full then 32 else 0, recentre := true, slip := some (full, pos) }).count
        (R.EB_ERR (laneCluster n) sd.dirIn.idx))
    (counted : u = if farLoop s n sd then t.count (R.LB_EB (lanePage n)) else t)
    (present : lanePresent s n = true) (runs : clusterStopped s (laneCluster n) = false)
    (receives : farLoop s n sd = true ∨ endEb s n sd = true ∧ isLocked s n sd = true) :
    exec (.ebSlip ⟨n, sd⟩ full pos) s = .next ((endUse u n sd).elim u fun e =>
      (endLanes u e.1 sd).foldl (fun s l => s.putRx l sd { s.rxe l sd with recentre := true }) u) := by
  subst slipped counted
  refine (onUnit_of_present present).trans (congrArg _ ((if_neg ?guard).trans ?_))
  case guard => simpa [runs] using receives.resolve_left
  dsimp only
  generalize endUse _ n sd = use
  cases use <;> rfl

/-! ## Deskew (R87) -/

section deskew

variable {s t : State} {n skew : Nat} {sd : Side}

theorem exec_deskewRemeasure_locked (present : lanePresent s n = true) (locked : isLocked s n sd = true)
    (runs : clusterStopped s (laneCluster n) = false) :
    exec (.deskewRemeasure n sd skew) s = .next (deskew n sd skew s) :=
  (onUnit_of_present present).trans (congrArg _ (if_pos (by simp [locked, runs])))

section first

variable (unmeasured : s.on (R.DSKW_valid (laneCluster n) (lanePos n) sd.idx) = false)

include unmeasured

/-- A first measure of at most 127 is stored, and the lanes of a span that the end serves are judged. -/
theorem deskew_first_near (near : skew ≤ 127)
    (stored : t = (s.wr (R.DSKW_valid (laneCluster n) (lanePos n) sd.idx) 1).wr
      (R.DSKW_skew (laneCluster n) (lanePos n) sd.idx) skew) :
    deskew n sd skew s = (endUse t n sd).elim t fun e => qualifyCheck e.1 sd t := by
  subst stored
  refine (if_neg (ne_true_of_eq_false unmeasured)).trans ((if_pos near).trans ?_)
  dsimp only
  generalize endUse _ n sd = use
  cases use <;> rfl

theorem deskew_first_far {k q : Nat} (far : 127 < skew) (serves : endUse s n sd = some (k, q))
    (acquires : spanState s k sd = spAcquire) : deskew n sd skew s = linkDown k ftDeskew false s := by
  refine (if_neg (ne_true_of_eq_false unmeasured)).trans ((if_neg (Nat.not_le.mpr far)).trans ?_)
  simp only [serves, acquires, if_true]

end first

section again

variable (measured : s.on (R.DSKW_valid (laneCluster n) (lanePos n) sd.idx) = true)

include measured

/-- A measure taken again where one was due ends the misses that asked for it, and is stored if at most 127. -/
theorem deskew_again_due (due : (s.rxe n sd).remeasure = true)
    (noted : t = s.putRx n sd { s.rxe n sd with misses := 0, remeasure := false }) :
    deskew n sd skew s =
      if 127 < skew then t else t.wr (R.DSKW_skew (laneCluster n) (lanePos n) sd.idx) skew := by
  subst noted
  exact (if_pos measured).trans (if_neg (by simp [due]))

theorem deskew_again_not_due (unasked : (s.rxe n sd).remeasure = false) : deskew n sd skew s = s :=
  (if_pos measured).trans (if_pos (by simp [unasked]))

end again

end deskew

/-! ## The SKP count and the flit counters (R88, R182) -/

section counters

variable {s : State} {k : Nat} {sd : Side}

theorem exec_skpDue_sends (there : k < linksOf s) (live : sideLive s k sd = true)
    (sends : (spanUp s k sd || sendsTrn (spanState s k sd)) = true) :
    exec (.skpDue k sd) s = .next (s.putSide k sd
      { s.side k sd with skpCount := max (s.side k sd).skpCount (skpN s k sd - 256) }) :=
  (onUnit_of_present (decide_eq_true there)).trans (congrArg _ (if_pos (by rw [live, sends, Bool.true_and])))

theorem exec_fltSnap_open (there : k < linksOf s) (answers : pageOpen s (0x40 + k) = true) :
    exec (.fltSnap k) s = .next
      (((State.latchAll64 (fltCounters64 k) (State.latchAll (fltCounters k) s)).bumpWrap
        (R.FLT_SNAP_snap_no k)).answerWord (s.rd (R.FLT_SNAP_snap_no k))) :=
  congrArg Host.Outcome.next (ifHas_open (decide_eq_true there) answers)

theorem exec_fltClr_open (there : k < linksOf s) (answers : pageOpen s (0x40 + k) = true) :
    exec (.fltClr k) s =
      .next (State.zeroLive ((fltCounters64 k).map Prod.fst) (State.zeroLive (fltCounters k) s)) :=
  congrArg Host.Outcome.next (ifHas_open (decide_eq_true there) answers)

end counters

/-- Settles O24: SEND_NEXT by the item that comes first in the order of R172, a slip by its loop and the side it serves,
a skew by whether one is stored and by its size. -/
theorem sendingAndBuffers : Obligations.SendingAndBuffers := by
  unfold Obligations.SendingAndBuffers
  refine ⟨?resumes, ?eie, ?skpPassed, ?skpOwn, ?trn, ?fill, ?drn, ?ack, ?sel, ?flit, ?idl, ?switch, ?nothing, ?skpDue,
    ?slipSpare, ?slipServing, ?slipLoopSpare, ?slipLoopServing, ?skewSpare, ?skewServing, ?skewFault, ?skewAgain,
    ?skewAgainFar, ?skewUnasked, ?snap, ?clear⟩
  case resumes =>
    intro s k sd r1 r2 t u left ended there clocked used quiet up
    rw [exec_sendNext_used left ended there clocked used, if_pos quiet, if_pos up]
  case eie =>
    intro s k sd r1 r2 t u v left ended resumed there clocked used goesOn due
    rw [exec_sendNext_chooses left ended there clocked used resumed goesOn, chooseItem_eie due]
  case skpPassed =>
    intro s k sd r1 r2 t u v left ended resumed there clocked used goesOn noEie sends due placed
    rw [exec_sendNext_chooses left ended there clocked used resumed goesOn, chooseItem_skp noEie sends due,
      if_pos placed]
  case skpOwn =>
    intro s k sd r1 r2 t u v left ended resumed there clocked used goesOn noEie sends due unplaced
    rw [exec_sendNext_chooses left ended there clocked used resumed goesOn, chooseItem_skp noEie sends due,
      if_neg (ne_true_of_eq_false unplaced)]
  case trn =>
    intro s k sd r1 r2 t u v p rest left ended resumed there clocked used goesOn noEie sends noSkp due
    rw [exec_sendNext_chooses left ended there clocked used resumed goesOn, chooseItem_trn noEie sends noSkp due]
  case fill =>
    intro s k sd r1 r2 t u v left ended resumed there clocked used goesOn noEie sends noSkp noTrn trains
    rw [exec_sendNext_chooses left ended there clocked used resumed goesOn,
      chooseItem_fill noEie sends noSkp noTrn trains]
  case drn =>
    intro s k sd r1 r2 t u v d left ended resumed there clocked used goesOn noEie _ noSkp noTrn up due
    rw [exec_sendNext_chooses left ended there clocked used resumed goesOn, chooseItem_drn noEie noSkp noTrn up due]
  case ack =>
    intro s k sd r1 r2 t u v a left ended resumed there clocked used goesOn noEie _ noSkp noTrn up noDrn turn pending
    rw [exec_sendNext_chooses left ended there clocked used resumed goesOn,
      chooseItem_ack noEie noSkp noTrn up noDrn turn pending]
  case sel =>
    intro s k sd r1 r2 t u v b rest left ended resumed there clocked used goesOn noEie _ noSkp noTrn up noDrn ackWaits
      cadence pending
    rw [exec_sendNext_chooses left ended there clocked used resumed goesOn,
      chooseItem_sel noEie noSkp noTrn up noDrn ackWaits cadence pending]
  case flit =>
    intro s k sd r1 r2 t u v i w left ended resumed there clocked used goesOn noEie _ noSkp noTrn up noDrn ackWaits
      selWaits next
    rw [exec_sendNext_chooses left ended there clocked used resumed goesOn,
      chooseItem_flit noEie noSkp noTrn up noDrn ackWaits selWaits next, Option.elim_some]
  case idl =>
    intro s k sd r1 r2 t u v w left ended resumed there clocked used goesOn noEie _ noSkp noTrn up noDrn ackWaits
      selWaits next
    rw [exec_sendNext_chooses left ended there clocked used resumed goesOn,
      chooseItem_flit noEie noSkp noTrn up noDrn ackWaits selWaits next, Option.elim_none]
  case switch =>
    intro s k sd r1 r2 t u v p rest left ended resumed there clocked used goesOn noEie quiet switching due
    rw [exec_sendNext_chooses left ended there clocked used resumed goesOn,
      chooseItem_switch noEie quiet switching due]
  case nothing =>
    intro s k sd r1 r2 t u v left ended resumed there clocked used goesOn noEie quiet silent
    rw [exec_sendNext_chooses left ended there clocked used resumed goesOn, chooseItem_nothing noEie quiet silent]
  case skpDue =>
    intro s k sd there live sends
    exact exec_skpDue_sends there live sends
  case slipSpare =>
    intro s n sd full pos t slipped present runs plain buffered locked spare
    rw [exec_ebSlip_receives slipped (if_neg (ne_true_of_eq_false plain)).symm present runs
      (.inr ⟨buffered, locked⟩), spare, Option.elim_none]
  case slipServing =>
    intro s n sd full pos t k q slipped present runs plain buffered locked serves
    rw [exec_ebSlip_receives slipped (if_neg (ne_true_of_eq_false plain)).symm present runs
      (.inr ⟨buffered, locked⟩), serves, Option.elim_some]
  case slipLoopSpare =>
    intro s n sd full pos t slipped present runs loops spare
    rw [exec_ebSlip_receives slipped (if_pos loops).symm present runs (.inl loops), spare, Option.elim_none]
  case slipLoopServing =>
    intro s n sd full pos t k q slipped present runs loops serves
    rw [exec_ebSlip_receives slipped (if_pos loops).symm present runs (.inl loops), serves, Option.elim_some]
  case skewSpare =>
    intro s n sd skew present locked runs unmeasured near spare
    rw [exec_deskewRemeasure_locked present locked runs, deskew_first_near unmeasured near rfl, spare,
      Option.elim_none]
  case skewServing =>
    intro s n sd skew k q present locked runs unmeasured near serves
    rw [exec_deskewRemeasure_locked present locked runs, deskew_first_near unmeasured near rfl, serves,
      Option.elim_some]
  case skewFault =>
    intro s n sd skew k q present locked runs unmeasured far serves acquires
    rw [exec_deskewRemeasure_locked present locked runs, deskew_first_far unmeasured far serves acquires]
  case skewAgain =>
    intro s n sd skew present locked runs measured due near
    rw [exec_deskewRemeasure_locked present locked runs, deskew_again_due measured due rfl,
      if_neg (Nat.not_lt.mpr near)]
  case skewAgainFar =>
    intro s n sd skew present locked runs measured due far
    rw [exec_deskewRemeasure_locked present locked runs, deskew_again_due measured due rfl, if_pos far]
  case skewUnasked =>
    intro s n sd skew present locked runs measured unasked
    rw [exec_deskewRemeasure_locked present locked runs, deskew_again_not_due measured unasked]
  case snap =>
    intro s k there answers
    exact exec_fltSnap_open there answers
  case clear =>
    intro s k there answers
    exact exec_fltClr_open there answers

end Sys2Proof.Machine
end

section
/-!
The timer of a darned direction (R194, R198) and the snapshot and clear of the darning counters of a link (R207, R494).
-/

namespace Sys2Proof.Machine

/-! What an expired timer does turns on the oldest unacknowledged copy of the flow. -/
section darnExpire
variable {s : State} {f r : Nat}

/-- An oldest copy with its retries used up, and not in custody, makes the flow give up. -/
theorem darnExpire_gives_up (oldest : (s.flow f).copies.head? = some r) (used : flowRetries s f ≤ (s.slot r).retry)
    (loose : (s.slot r).custody = false) : darnExpire f s = darnGiveUp f s := by
  simp [darnExpire, oldest, used, loose]

/-- An oldest copy with a retry left, or in custody, only marks the flow expired. -/
theorem darnExpire_marks (oldest : (s.flow f).copies.head? = some r)
    (kept : (s.slot r).retry < flowRetries s f ∨ (s.slot r).custody = true) :
    darnExpire f s = s.modFlow f fun v => { v with expired := true, headCounts := true, fired := true } := by
  have stays : ¬ (decide (flowRetries s f ≤ (s.slot r).retry) && !(s.slot r).custody) = true := by
    rcases kept with left | custody
    · simp [Nat.not_le.mpr left]
    · simp [custody]
  simp [darnExpire, oldest, stays]

variable (there : flowPresent s f = true)
include there

theorem exec_darnTimerExpiry_due (due : darnDue s f = true) :
    exec (.darnTimerExpiry f) s = .next (darnExpire f s) :=
  (onUnit_of_present there).trans (congrArg _ (if_pos due))

theorem exec_darnTimerExpiry_not_due (early : darnDue s f = false) : exec (.darnTimerExpiry f) s = .next s :=
  (onUnit_of_present there).trans (congrArg _ (if_neg (ne_true_of_eq_false early)))

end darnExpire

/-! The snapshot and the clear, at a page that answers. -/
section counters
variable {s : State} {k : Nat} (there : k < linksOf s) (answers : pageOpen s (0x40 + k) = true)
include there answers

theorem exec_darnSnap_open :
    exec (.darnSnap k) s = .next
      (((State.latchAll64 (darnCounters64 k) (State.latchAll (darnCounters k) s)).bumpWrap
        (R.DARN_SNAP_snap_no k)).answerWord (if linkDarned s k then s.rd (R.DARN_SNAP_snap_no k) else 0)) :=
  congrArg Host.Outcome.next (ifHas_open (decide_eq_true there) answers)

theorem exec_darnClr_open :
    exec (.darnClr k) s =
      .next (State.zeroLive ((darnCounters64 k).map Prod.fst) (State.zeroLive (darnCounters k) s)) :=
  congrArg Host.Outcome.next (ifHas_open (decide_eq_true there) answers)

end counters

/-- Settles O25: an expiry by whether it is due and by the oldest copy, the counters by their page. -/
theorem darningCommands : Obligations.DarningCommands := by
  unfold Obligations.DarningCommands
  refine ⟨?givesUp, ?marks, ?early, ?snap, ?clear⟩
  case givesUp =>
    intro s f r there due oldest used loose
    rw [exec_darnTimerExpiry_due there due, darnExpire_gives_up oldest used loose, darnGiveUp]
  case marks =>
    intro s f r there due oldest kept
    rw [exec_darnTimerExpiry_due there due, darnExpire_marks oldest kept]
  case early =>
    intro s f there early
    exact exec_darnTimerExpiry_not_due there early
  case snap =>
    intro s k there answers
    exact exec_darnSnap_open there answers
  case clear =>
    intro s k there answers
    exact exec_darnClr_open there answers

end Sys2Proof.Machine
end

section
/-!
DRN sets that a trunk side takes (R214, R222, R224, R226, R227): what an acknowledgement frees, what a NAK starts, and
what the echo of a probe shows.
-/

namespace Sys2Proof.Machine

/-! ## ACK and NAK (R222, R224, R226) -/

/-- Only a value ahead of the next number, on the trunk of a link, counts as odd. -/
theorem not_odd {a next t : Nat} {odd s : State} (plain : isAhead16 a next = false ∨ 1024 ≤ t) :
    (if isAhead16 a next then (if t < 1024 then odd else s) else s) = s := by
  rcases plain with behind | calendar
  · exact if_neg (ne_true_of_eq_false behind)
  · rw [if_neg (Nat.not_lt.mpr calendar), ite_self]

section covered

variable {s : State} {t a n : Nat} {q : List Nat}

theorem freeCovered_some (covered : q = (s.trunk t).held.filter fun r => covers16 a (s.slot r).spanSeq)
    (found : q ≠ []) :
    freeCovered t a s = (true, (q.foldl (fun s r => freeNumber t r s) s).modTrunk t fun x =>
      { x with consec := 0, expSince := false }) := by
  subst covered
  exact if_neg found

theorem freeCovered_nothing (covered : q = (s.trunk t).held.filter fun r => covers16 a (s.slot r).spanSeq)
    (nothing : q = []) : freeCovered t a s = (false, s) := by
  have held : ((s.trunk t).held.filter fun r => covers16 a (s.slot r).spanSeq) = [] := covered.symm.trans nothing
  simp only [freeCovered, held, List.foldl_nil, if_true]

theorem drnAck_frees (covered : q = (s.trunk t).held.filter fun r => covers16 a (s.slot r).spanSeq)
    (found : q ≠ []) :
    drnAck t a s = (q.foldl (fun s r => freeNumber t r s) s).modTrunk t fun x =>
      { x with consec := 0, expSince := false } := by
  rw [drnAck, freeCovered_some covered found]

theorem drnAck_frees_nothing (covered : q = (s.trunk t).held.filter fun r => covers16 a (s.slot r).spanSeq)
    (nothing : q = []) :
    drnAck t a s =
      if isAhead16 a (s.trunk t).nextTx then (if t < 1024 then s.count (R.NOSLOT_nak_odd t) else s) else s := by
  rw [drnAck, freeCovered_nothing covered nothing]

/-- A NAK that frees a number starts a run from the one it names. -/
theorem drnNak_frees {v : State}
    (covered : q = (s.trunk t).held.filter fun r => covers16 ((n + 65535) % 65536) (s.slot r).spanSeq)
    (freed : v = (q.foldl (fun s r => freeNumber t r s) s).modTrunk t fun x =>
      { x with consec := 0, expSince := false })
    (found : q ≠ []) : drnNak t n s = trunkRun t (some n) v := by
  rw [drnNak, freeCovered_some covered found, freed]

/-- A NAK that frees nothing still starts a run where it names a held flit (DEDUCED, log 73), and otherwise is odd or not
as an ACK is. -/
theorem drnNak_frees_nothing
    (covered : q = (s.trunk t).held.filter fun r => covers16 ((n + 65535) % 65536) (s.slot r).spanSeq)
    (nothing : q = []) :
    drnNak t n s =
      if ((s.trunk t).held.any fun r => (s.slot r).spanSeq = n) = true then trunkRun t (some n) s
      else if isAhead16 n (s.trunk t).nextTx then (if t < 1024 then s.count (R.NOSLOT_nak_odd t) else s) else s := by
  rw [drnNak, freeCovered_nothing covered nothing]

end covered

/-! ## The four commands, on a trunk side that takes the set -/

section taken

variable {s s2 : State} {k t : Nat} {sd : Side} {heard : List Heard} {d : DrnSet} (there : k < linksOf s)

include there

theorem onUnit_drnReceive_of_taken {kind : Nat} {act : Nat → DrnSet → State → State}
    (taken : drnTaken k sd heard kind s = some (t, d, s2)) :
    onUnit (k < linksOf s) (drnReceive k sd heard kind act s) = .next (act t d s2) := by
  rw [onUnit_of_present (decide_eq_true there), drnReceive_taken taken]

theorem exec_drnAckReceive_of_taken (taken : drnTaken k sd heard 0 s = some (t, d, s2)) :
    exec (.drnAckReceive k sd heard) s = .next (drnAck t d.value s2) :=
  onUnit_drnReceive_of_taken there taken

section nak

variable {u : State} (counted : u = countTrunk t R.NAK_rx R.CAL_NAK_rx s2)
  (taken : drnTaken k sd heard 1 s = some (t, d, s2))

include counted taken

theorem exec_drnNakReceive_runs (unfrozen : (u.trunk t).frozenAt = none) :
    exec (.drnNakReceive k sd heard) s = .next (drnNak t d.value u) := by
  subst counted
  refine (onUnit_drnReceive_of_taken there taken).trans (congrArg _ (if_neg ?_))
  simp only [unfrozen, Option.isSome_none, Bool.false_eq_true, not_false_eq_true]

theorem exec_drnNakReceive_frozen (frozen : (u.trunk t).frozenAt.isSome = true) :
    exec (.drnNakReceive k sd heard) s = .next (u.modTrunk t fun x => { x with pendingNak := some d.value }) := by
  subst counted
  exact (onUnit_drnReceive_of_taken there taken).trans (congrArg _ (if_pos frozen))

end nak

/-! ## The echo of a probe (R227) -/

/-- An echo of the probe that is out gives a sample. -/
theorem exec_drnEchoReceive_sample {elapsed sent : Nat} (taken : drnTaken k sd heard 3 s = some (t, d, s2))
    (out : (s2.trunk t).probeOut = some (d.value, sent)) :
    exec (.drnEchoReceive k sd heard elapsed) s = .next (probeSample t (elapsed - 8 * (d.d0 % 32)) s2) := by
  refine (onUnit_drnReceive_of_taken there taken).trans ?_
  simp only [out, if_true]

end taken

/-- A sample, cut to 20 bits, ends the probe and shows in TRK_PROBE; then it is held against the two round trips. -/
theorem probeSample_eq {s u v : State} {t m n : Nat} {p : Nat × Side} (side : p = trunkAt s t)
    (cut : n = min m 0xFFFFF)
    (ended : u = s.modTrunk t fun x => { x with probeOut := none, sample := some n })
    (shown : v = if t < 1024 then (u.wr (R.TRK_PROBE_valid t) 1).wr (R.TRK_PROBE_sample t) n else u) :
    probeSample t m s =
      if v.rd (R.RTT_rtt p.1 p.2.idx) < n then startRecheck 2 (v.wr (R.RTT_over p.1 p.2.idx) 1)
      else if n ≤ v.rd (R.PROOF_RTT_rtt p.1 p.2.idx) then v.wr (R.RTT_over p.1 p.2.idx) 0 else v := by
  subst side cut ended shown
  rfl

/-- Settles O26: an ACK and a NAK by what they cover, name and run ahead of, an ECHO by its sample's place between the
round trip of the proof and that of the side. -/
theorem trunkSetsTakeEffect : Obligations.TrunkSetsTakeEffect := by
  unfold Obligations.TrunkSetsTakeEffect
  refine ⟨?ackFrees, ?ackOdd, ?ackPlain, ?nakFrees, ?nakNames, ?nakOdd, ?nakPlain, ?nakWaits, ?probe, ?echoOver,
    ?echoUnder, ?echoBetween⟩
  case ackFrees =>
    intro s k sd heard t d s2 q covered there taken found
    rw [exec_drnAckReceive_of_taken there taken, drnAck_frees covered found]
  case ackOdd =>
    intro s k sd heard t d s2 q covered there taken nothing ahead link
    rw [exec_drnAckReceive_of_taken there taken, drnAck_frees_nothing covered nothing, if_pos ahead, if_pos link]
  case ackPlain =>
    intro s k sd heard t d s2 q covered there taken nothing plain
    rw [exec_drnAckReceive_of_taken there taken, drnAck_frees_nothing covered nothing, not_odd plain]
  case nakFrees =>
    intro s k sd heard t d s2 u q v counted covered freed there taken unfrozen found
    rw [exec_drnNakReceive_runs there counted taken unfrozen, drnNak_frees covered freed found, trunkRun]
  case nakNames =>
    intro s k sd heard t d s2 u q counted covered there taken unfrozen nothing named
    rw [exec_drnNakReceive_runs there counted taken unfrozen, drnNak_frees_nothing covered nothing,
      if_pos named, trunkRun]
  case nakOdd =>
    intro s k sd heard t d s2 u q counted covered there taken unfrozen nothing unnamed ahead link
    rw [exec_drnNakReceive_runs there counted taken unfrozen, drnNak_frees_nothing covered nothing,
      if_neg (ne_true_of_eq_false unnamed), if_pos ahead, if_pos link]
  case nakPlain =>
    intro s k sd heard t d s2 u q counted covered there taken unfrozen nothing unnamed plain
    rw [exec_drnNakReceive_runs there counted taken unfrozen, drnNak_frees_nothing covered nothing,
      if_neg (ne_true_of_eq_false unnamed), not_odd plain]
  case nakWaits =>
    intro s k sd heard t d s2 u counted there taken frozen
    exact exec_drnNakReceive_frozen there counted taken frozen
  case probe =>
    intro s k sd heard turn t d s2 there taken
    exact onUnit_drnReceive_of_taken there taken
  case echoOver =>
    intro s k sd heard elapsed t d s2 a p n u v side cut ended shown there taken out exceeds
    rw [exec_drnEchoReceive_sample there taken out, probeSample_eq side cut ended shown, if_pos exceeds]
  case echoUnder =>
    intro s k sd heard elapsed t d s2 a p n u v side cut ended shown there taken out within under
    rw [exec_drnEchoReceive_sample there taken out, probeSample_eq side cut ended shown,
      if_neg (Nat.not_lt.mpr within), if_pos under]
  case echoBetween =>
    intro s k sd heard elapsed t d s2 a p n u v side cut ended shown there taken out within above
    rw [exec_drnEchoReceive_sample there taken out, probeSample_eq side cut ended shown,
      if_neg (Nat.not_lt.mpr within), if_neg (Nat.not_le.mpr above)]

end Sys2Proof.Machine
end

section
/-!
The timers of trunk sides and of the proxies at an entry (R220, R223, R225, R227, R230, R233), and the trunk counters of
a link (R238, R494).
-/

namespace Sys2Proof.Machine

/-! ## The span timer (R223, R225) -/

/-- An expiry counts. One that follows another with no advance between (DEDUCED, log 72) and reaches the retry limit
retrains the span; any other sends what is held again. -/
theorem spanExpire_eq {s u v : State} {t n : Nat}
    (consecutive : n = if (s.trunk t).expSince then min 15 ((s.trunk t).consec + 1) else (s.trunk t).consec)
    (counted : u = countTrunk t R.TMO_expiries R.CAL_TMO_expiries
      (s.putTrunk t { s.trunk t with consec := n, expSince := true, fired := true }))
    (retrained : v = countTrunk t R.TMO_retrains R.CAL_TMO_retrains u) :
    spanExpire t s =
      if ((s.trunk t).expSince && decide (trunkRetries u t ≤ n)) = true then
        retrain (trunkAt s t).1 (trunkAt s t).2 none true (trunkEvent (trunkRegion v t) 1 (trunkIndex v t) v)
      else trunkRun t none u := by
  subst consecutive counted retrained
  rfl

/-! ## The timers of a trunk side -/

section trunkSide

variable {s : State} {t : Nat} (there : trunkPresent s t = true)

include there

section up

variable (up : trunkUp s t = true)

include up

theorem exec_spanTimerExpiry_due (due : spanDue s t = true) : exec (.spanTimerExpiry t) s = .next (spanExpire t s) :=
  (onUnit_of_present there).trans (congrArg _ (if_pos (by rw [up, due, Bool.and_self])))

theorem exec_drnAckTimer_owed (owed : passed (s.trunk t).accOldest 128 s.fab = true) :
    exec (.drnAckTimer t) s = .next (postDrnAck t s) :=
  (onUnit_of_present there).trans (congrArg _ (if_pos (by rw [up, owed, Bool.and_self])))

theorem exec_probeInterval_on (on : trunkProbeInt s t ≠ 0) :
    exec (.probeInterval t) s = .next (s.modTrunk t fun x =>
      { x with probeTag := (x.probeTag + 1) % 65536, drnProbe := some ((x.probeTag + 1) % 65536) }) :=
  (onUnit_of_present there).trans (congrArg _ (if_pos (by rw [up, decide_eq_true on, Bool.and_self])))

end up

theorem exec_probeWaitExpiry_waited (waited : passed ((s.trunk t).probeOut.map (·.2)) 10000 s.fab = true) :
    exec (.probeWaitExpiry t) s = .next (s.modTrunk t fun x => { x with probeOut := none }) :=
  (onUnit_of_present there).trans (congrArg _ (if_pos waited))

end trunkSide

/-! ## The proxies (R230, R233) -/

theorem exec_proxyAckTimer_owed {s : State} {f : Nat} (there : flowPresent s f = true)
    (custodial : flowCustodial s f = true) (entry : flowInTrunk s f = false)
    (owed : passed (s.flow f).custOldest 64 s.fab = true) :
    exec (.proxyAckTimer f) s = .next (postProxy f s) :=
  (onUnit_of_present there).trans (congrArg _ (if_pos (by
    simp only [custodial, entry, owed, Bool.not_false, Bool.and_self])))

theorem exec_trunkAckRefresh_due {s : State} {k : Nat} (there : k < linksOf s)
    (mode : isTrunkMode (modeOf s k) = true) (up : spanUp s k (trunkSide s k) = true)
    (due : (s.trunk k).ackSetAt + 1000 ≤ s.fab) :
    exec (.trunkAckRefresh k) s = .next (postTrunkAck k (trunkSide s k) s) :=
  (onUnit_of_present (decide_eq_true there)).trans (congrArg _ (if_pos (by
    simp only [mode, up, decide_eq_true due, Bool.and_self])))

/-! ## The trunk counters (R238) -/

section counters

variable {s : State} {k : Nat} (there : k < linksOf s) (answers : pageOpen s (0x40 + k) = true)

include there answers

theorem exec_trkSnap_open :
    exec (.trkSnap k) s = .next
      ((((State.latchAll (trkCounters k) s).latch64 (R.SENT_LO k, R.SENT_HI k)).bumpWrap
        (R.TRK_SNAP_snap_no k)).answerWord (if isTrunkMode (modeOf s k) then s.rd (R.TRK_SNAP_snap_no k) else 0)) :=
  congrArg Host.Outcome.next (ifHas_open (decide_eq_true there) answers)

theorem exec_trkClr_open :
    exec (.trkClr k) s = .next (State.zeroLive (R.SENT_LO k :: trkCounters k) s) :=
  congrArg Host.Outcome.next (ifHas_open (decide_eq_true there) answers)

end counters

/-- Settles O27: an expiry of the span timer by the retries left, a proxy acknowledgement by whether the flow's custody
number is valid, the other timers where they are due, the counters by their page. -/
theorem trunkTimers : Obligations.TrunkTimers := by
  unfold Obligations.TrunkTimers
  refine ⟨?runs, ?retrains, ?ack, ?probe, ?probeWait, ?proxy, ?proxyNone, ?refresh, ?snap, ?clear⟩
  case runs =>
    intro s t n u consecutive counted there up due more
    rw [exec_spanTimerExpiry_due there up due, spanExpire_eq consecutive counted rfl,
      if_neg (ne_true_of_eq_false more), trunkRun]
  case retrains =>
    intro s t n u v consecutive counted retrained there up due last
    rw [exec_spanTimerExpiry_due there up due, spanExpire_eq consecutive counted retrained, if_pos last]
  case ack =>
    intro s t there up owed
    rw [exec_drnAckTimer_owed there up owed, postDrnAck]
  case probe =>
    intro s t there up on
    exact exec_probeInterval_on there up on
  case probeWait =>
    intro s t there waited
    exact exec_probeWaitExpiry_waited there waited
  case proxy =>
    intro s f there custodial entry owed valid
    rw [exec_proxyAckTimer_owed there custodial entry owed, postProxy, if_pos valid]
  case proxyNone =>
    intro s f there custodial entry owed invalid
    rw [exec_proxyAckTimer_owed there custodial entry owed, postProxy, if_neg (ne_true_of_eq_false invalid)]
  case refresh =>
    intro s k u stamped there mode up due
    have sameSide : trunkSide u k = trunkSide s k := stamped ▸ rfl
    rw [exec_trunkAckRefresh_due there mode up due, postTrunkAck, sameSide, stamped]
  case snap =>
    intro s k there answers
    exact exec_trkSnap_open there answers
  case clear =>
    intro s k there answers
    exact exec_trkClr_open there answers

end Sys2Proof.Machine
end

section
/-!
Bundles: the control flit that falls due (R249), the timers and caches of logical links (R260, R261), the counters of
logical links and calendars (R265, R266, R494), and the queue that QST_SEL shows (R267).
-/

namespace Sys2Proof.Machine

/-! ## The control flit of a calendar-bound trunk side (R249) -/

/-- On a side that is UP and bound to a calendar, whether the flit is due is judged with the owed acks recorded. -/
theorem exec_controlFlitDue_up {s : State} {t : Nat} (there : trunkPresent s t = true) (calendar : 1024 ≤ t)
    (up : trunkUp s t = true) :
    exec (.controlFlitDue t) s = .next ((owedAcks t s).modTrunk t fun x =>
      { x with ctlDue := x.ctlDue || controlDue (owedAcks t s) x.recs }) :=
  (onUnit_of_present there).trans (congrArg _ (if_neg (by
    simp only [Nat.not_lt.mpr calendar, decide_false, up, Bool.not_true, Bool.or_self, Bool.false_eq_true,
      not_false_eq_true])))

/-! ## The timers and caches of logical links (R260, R261) -/

section logicalLink

variable {s : State} {l : Nat} (there : l < llsOf s)

include there

theorem exec_llTornWindowEnd_passed (elapsed : passed (s.ll l).tornUntil 0 s.fab = true) :
    exec (.llTornWindowEnd l) s = .next (s.putLl l { s.ll l with tornUntil := none, stale := [] }) :=
  (onUnit_of_present (decide_eq_true there)).trans (congrArg _ (if_pos elapsed))

/-- The end of draining drops direction 0, then direction 1, and resets the logical link that this leaves. -/
theorem exec_llDrainEnd_idle {u : State} (draining : (s.ll l).state = llDraining)
    (waited : passed (s.ll l).drainFrom 1000 s.fab = true) (idle : llBusy s l = false)
    (dropped : u = dropFlow (llFlow l 1) false (dropFlow (llFlow l 0) false s)) :
    exec (.llDrainEnd l) s = .next (u.putLl l
      { u.ll l with state := llInvalid, drainFrom := none, tornUntil := none, stale := [] }) := by
  subst dropped
  exact (onUnit_of_present (decide_eq_true there)).trans (congrArg _ (if_neg (by
    simp only [draining, waited, idle, ne_eq, not_true_eq_false, decide_false, Bool.not_true, Bool.or_self,
      Bool.false_eq_true, not_false_eq_true])))

end logicalLink

/-- A cache that the part has, of a cluster or of a calendar, leaves no stale entry of its own in any logical link. -/
theorem exec_llCacheRefresh_present {s : State} {cache : Nat}
    (there : cache < clustersOf s ∨ (16 ≤ cache ∧ cache < 16 + calsOf s)) :
    exec (.llCacheRefresh cache) s = .next ((Tbl.keys s.lls).foldl (fun s l => s.putLl l
      { s.ll l with stale := (s.ll l).stale.filter fun x => x.cache ≠ cache }) s) :=
  onUnit_of_present (by simpa only [Bool.or_eq_true, Bool.and_eq_true, decide_eq_true_eq] using there)

/-! ## The counters of logical links (R265), at a page of the table that answers -/

section llCounters

variable {s : State} {p : Nat} (there : p < lltPages s) (answers : pageOpen s (0xC0 + p) = true)

include there answers

theorem exec_llSnap_open :
    exec (.llSnap p) s = .next
      (((State.latchAll (llCounters (llSelected s p)) s).bumpWrap (R.LL_SNAP_snap_no p)).answerWord
        (s.rd (R.LL_SNAP_snap_no p))) :=
  congrArg Host.Outcome.next (ifHas_open (decide_eq_true there) answers)

theorem exec_llClr_open :
    exec (.llClr p) s = .next (State.zeroLive (llCounters (llSelected s p)) s) :=
  congrArg Host.Outcome.next (ifHas_open (decide_eq_true there) answers)

end llCounters

/-! ## The counters of calendars (R266): two calendars share a page -/

section calCounters

variable {s : State} {cal : Nat} (there : cal < calsOf s) (answers : pageOpen s (0xC8 + cal / 2) = true)

include there answers

theorem exec_calSnap_open :
    exec (.calSnap cal) s = .next
      (((State.latchAll (calCounters (cal / 2) (cal % 2)) s).bumpWrap
        (R.CAL_SNAP_snap_no (cal / 2) (cal % 2))).answerWord (s.rd (R.CAL_SNAP_snap_no (cal / 2) (cal % 2)))) :=
  congrArg Host.Outcome.next (ifHas_open (decide_eq_true there) answers)

theorem exec_calClr_open :
    exec (.calClr cal) s = .next (State.zeroLive (calCounters (cal / 2) (cal % 2)) s) :=
  congrArg Host.Outcome.next (ifHas_open (decide_eq_true there) answers)

end calCounters

/-! ## Queue status (R267) -/

/-- The number in QST_SEL names a logical link of the die, a VC and a direction; status and peak are of that queue. -/
theorem qstSelect_eq {s : State} {die queue f v : Nat}
    (flow : f = queueFlow s (512 * die + queue % 32768 / 64) (queue % 32768 % 2))
    (vc : v = queue % 32768 % 64 / 2) :
    qstSelect die queue s =
      ((((s.wr (R.QST_SEL_queue die) (queue % 32768)).wrB (R.QST_STAT_xoff_in die) (bit (s.flow f).xoff v)).wrB
        (R.QST_STAT_xoff_up die) (bit (s.flow f).up v)).wr (R.QST_STAT_depth die) (min (depthOf s f v) 0xFFFF)).wr
        (R.QST_PEAK_peak die) (min (depthOf s f v) 0xFFFF) := by
  subst flow vc
  rfl

theorem exec_qstSelWrite_open {s : State} {die queue : Nat} (there : die < diesOf s)
    (answers : pageOpen s (0xD0 + die) = true) :
    exec (.qstSelWrite die queue) s = .next (qstSelect die queue s) :=
  congrArg Host.Outcome.next (ifHas_open (decide_eq_true there) answers)

/-- Settles O28: each timer by its guard, a cache's refresh by the unit it is of, the counters and QST_SEL by their
page. -/
theorem bundleCommands : Obligations.BundleCommands := by
  unfold Obligations.BundleCommands
  refine ⟨?control, ?torn, ?drain, ?refresh, ?llSnap, ?llClear, ?calSnap, ?calClear, ?queue⟩
  case control =>
    intro s t u owed there calendar up
    rw [exec_controlFlitDue_up there calendar up, ← owed]
    simp only [controlDue]
  case torn =>
    intro s l there elapsed
    exact exec_llTornWindowEnd_passed there elapsed
  case drain =>
    intro s l there draining waited idle
    exact exec_llDrainEnd_idle there draining waited idle rfl
  case refresh =>
    intro s cache there
    exact exec_llCacheRefresh_present there
  case llSnap =>
    intro s p there answers
    exact exec_llSnap_open there answers
  case llClear =>
    intro s p there answers
    exact exec_llClr_open there answers
  case calSnap =>
    intro s cal there answers
    exact exec_calSnap_open there answers
  case calClear =>
    intro s cal there answers
    exact exec_calClr_open there answers
  case queue =>
    intro s die queue f v flow vc there answers
    rw [exec_qstSelWrite_open there answers, qstSelect_eq flow vc]

end Sys2Proof.Machine
end

section
/-!
The events of the flit buffer: a bad mirror slot (R278, R279), the window of correctable errors (R280), and the phases of
a slice: save, test, restore and evacuation (R281, R282, R284, R285).
-/

namespace Sys2Proof.Machine

/-! ## A bad mirror slot (R278, R279) -/

theorem refDie_of_addr_lt {r die addr : Nat} (slot : r = die * 65536 + addr) (inside : addr < 65536) :
    refDie r = die := by
  rw [slot, refDie]
  omega

section remirror

variable {s u v : State} {r q n : Nat} {read : EccRead} (mate : s.partnerOf r = some q)

include mate

theorem remirror_bothBad (bad : (s.slot q).state = stBad) : remirror r read s = loseSlot r false s := by
  simp only [remirror, mate, bad, if_true]

variable (good : (s.slot q).state ≠ stBad)

include good

theorem remirror_unreadable (failed : readSlot q (2 * refDie r) read s = (false, u)) :
    remirror r read s = loseSlot r read.desc u := by
  simp only [remirror, mate, if_neg good, failed]

variable (readable : readSlot q (2 * refDie r) read s = (true, u))

include readable

theorem remirror_copied
    (place : allocSlot (refDie r) [refBank r, refBank q]
      { u.slot q with copy := (s.slot r).copy, partner := refAddr q, sending := false, dying := false } u = some (n, v)) :
    remirror r read s =
      (relist r n ((v.putSlot q { v.slot q with partner := refAddr n }).putSlot r {})).count
        (R.REMIRROR_done (refDie r)) := by
  simp only [remirror, mate, if_neg good, readable, place]

theorem remirror_single
    (full : allocSlot (refDie r) [refBank r, refBank q]
      { u.slot q with copy := (s.slot r).copy, partner := refAddr q, sending := false, dying := false } u = none) :
    remirror r read s =
      ((relist r q ((u.putSlot q { u.slot q with mirror := false, partner := 0xFFFF }).putSlot r {})).count
        (R.REMIRROR_single (refDie r))).dieEvent (refDie r) 5 := by
  simp only [remirror, mate, if_neg good, readable, full]

end remirror

/-! ## The end of a save (R281) -/

section saveDone

variable {s t u v : State} {die bank l : Nat} {reads : List (Nat × EccRead)}
  (tested : bank = s.rd (R.BUF_STAT_test_bank die)) (number : l = (numberOf s die bank).getD 63)
  (copied : t = copyReads die l reads s)
  (served : u = dropBad die l (setServes die l (t.buf die).standIn (t.count (R.MOVES_copies die))))
  (joined : v = (u.wr (R.BANK_STAT_state die (t.buf die).standIn) bkInService).wr (R.BUF_STAT_standby die) 63)

include tested number copied served joined

theorem saveDone_retires (asked : (t.buf die).retireAfter = true) :
    saveDone die reads s = retireInService die bank (rotIdle die v) := by
  subst joined served copied number tested
  exact if_pos asked

variable (unasked : (t.buf die).retireAfter = false)

include unasked

theorem saveDone_tests (untouched : (t.buf die).stopped = none) :
    saveDone die reads s = setRot die 2 bank (v.wr (R.BANK_STAT_state die bank) bkTesting) := by
  subst joined served copied number tested
  simp only [saveDone, unasked, untouched, Bool.false_eq_true, if_false]

theorem saveDone_stopped {res cause : Nat} (stopped : (t.buf die).stopped = some (res, cause)) :
    saveDone die reads s =
      testStopped die res cause 0 0 (setRot die 2 bank (v.wr (R.BANK_STAT_state die bank) bkTesting)) := by
  subst joined served copied number tested
  simp only [saveDone, unasked, stopped, Bool.false_eq_true, if_false]

end saveDone

/-! ## The end of a test (R281, R285) -/

theorem testStopped_restores {s : State} {die bank result cause rows ops : Nat}
    (tested : bank = s.rd (R.BUF_STAT_test_bank die)) (saved : (s.buf die).standIn ≠ 63) :
    testStopped die result cause rows ops s =
      setRot die 3 bank ((bankRecord die bank result cause rows ops s).wr (R.BANK_STAT_state die bank) bkRestoring) := by
  subst tested
  exact if_neg saved

section draws

variable {s t u : State} {die i j : Nat} (rows : s.draw = (i, t))

include rows

/-- A drawn free value leaves the registers. -/
theorem draw_rd (f : Fld) : t.rd f = s.rd f := congrArg (fun p => p.2.rd f) rows.symm

/-- A drawn free value leaves the dies. -/
theorem draw_buf : t.buf die = s.buf die := congrArg (fun p => p.2.buf die) rows.symm

variable (operations : t.draw = (j, u))

include operations

theorem testCut_eq (result cause : Nat) :
    testCut die result cause s =
      testStopped die result cause (Config.freeValue i % 129) (Config.freeValue j % 102401) u := by
  simp only [testCut, rows, operations]

/-- A test cut short draws its rows and its operations (log 214); its bank is restored from the stand-in. -/
theorem testEnd_short {ops bank : Nat} (tested : bank = s.rd (R.BUF_STAT_test_bank die))
    (saved : (s.buf die).standIn ≠ 63) :
    testEnd die (.short ops) s =
      (setRot die 3 bank ((bankRecord die bank resIncomplete causeStall (Config.freeValue i % 129)
        (Config.freeValue j % 102401) u).wr (R.BANK_STAT_state die bank) bkRestoring)).wr (R.BANK_PAT die) ops := by
  rw [← draw_rd rows, ← draw_rd operations] at tested
  rw [← draw_buf rows, ← draw_buf operations] at saved
  rw [testEnd, testCut_eq rows operations, testStopped_restores tested saved]

end draws

/-- How a slice whose die held `b` goes on after a test that did not fail. -/
def testPassed (d bank : Nat) (b : DieBuf) (s : State) : State :=
  if b.returning then suspectSlice d ((rotIdle d (returnBank d bank (suspectClear d bank s))).raise 290)
  else if b.standIn = 63 then suspectSlice d ((rotIdle d (inPlaceBack d bank (suspectClear d bank s))).raise 290)
  else setRot d 3 bank ((s.putBuf d { s.buf d with passed := true }).wr (R.BANK_STAT_state d bank) bkRestoring)

/-- How a slice whose die held `b` ends after a test that found more failing rows than its bank has spares. -/
def testFailed (d bank : Nat) (b : DieBuf) (s : State) : State :=
  let s := if b.returning then s.wr (R.BANK_STAT_state d bank) bkRetired else s
  let s := rotIdle d s
  suspectSlice d ((if b.returning then s else retireInService d bank s).raise 290)

section verdict

variable {s : State} {die bank : Nat} {b : DieBuf}

theorem testFailed_returns (returned : b.returning = true) :
    testFailed die bank b s =
      suspectSlice die ((rotIdle die (s.wr (R.BANK_STAT_state die bank) bkRetired)).raise 290) := by
  simp only [testFailed, returned, if_true]

theorem testPassed_returns (returned : b.returning = true) :
    testPassed die bank b s =
      suspectSlice die ((rotIdle die (returnBank die bank (suspectClear die bank s))).raise 290) :=
  if_pos returned

variable (notReturning : b.returning = false)

include notReturning

theorem testFailed_retires :
    testFailed die bank b s = suspectSlice die ((retireInService die bank (rotIdle die s)).raise 290) := by
  simp only [testFailed, notReturning, Bool.false_eq_true, if_false]

theorem testPassed_inPlace (alone : b.standIn = 63) :
    testPassed die bank b s =
      suspectSlice die ((rotIdle die (inPlaceBack die bank (suspectClear die bank s))).raise 290) :=
  (if_neg (ne_true_of_eq_false notReturning)).trans (if_pos alone)

theorem testPassed_restores (saved : b.standIn ≠ 63) :
    testPassed die bank b s =
      setRot die 3 bank ((s.putBuf die { s.buf die with passed := true }).wr (R.BANK_STAT_state die bank) bkRestoring) :=
  (if_neg (ne_true_of_eq_false notReturning)).trans (if_neg saved)

end verdict

section counted

variable {s t u w : State} {die slot bitNo bank : Nat} {found rows : List Nat} {desc : Bool}
  (tested : bank = s.rd (R.BUF_STAT_test_bank die)) (failing : rows = rowsFound found)
  (marked : u = w.putBuf die { w.buf die with lastTested := bank })

include tested failing marked

theorem testEnd_clean (recorded : t = bankRecord die bank resPass 0 0 102400 s)
    (noFailure : w = t.wrB (R.BANK_FAIL_valid die) false) (clean : rows = []) :
    testEnd die (.counted found slot bitNo desc) s = testPassed die bank (s.buf die) u := by
  have noRows : rowsFound found = [] := failing.symm.trans clean
  subst marked noFailure recorded tested
  simp only [testEnd, noRows, if_true, List.length_nil, List.foldl_nil, ne_eq, not_true_eq_false, decide_false,
    show resPass ≠ resFail by decide, if_false]
  rfl

variable (failure : w = ((((t.wrB (R.BANK_FAIL_valid die) true).wrB (R.BANK_FAIL_desc die) desc).wr
  (R.BANK_FAIL_bank die) bank).wr (R.BANK_FAIL_slot die) slot).wr (R.BANK_FAIL_bit die) bitNo) (nonempty : rows ≠ [])

include failure nonempty

/-- A test whose failing rows fit in the spares of the bank repairs them and goes on as one that passed. -/
theorem testEnd_repaired (recorded : t = bankRecord die bank resRepaired 0 rows.length 102400 s)
    (fits : rows.length + s.rd (R.BANK_STAT_rows die bank) ≤ 4) :
    testEnd die (.counted found slot bitNo desc) s =
      testPassed die bank (s.buf die) (rows.foldl (fun s r => repairRow die bank r s) u) := by
  subst marked failure recorded failing tested
  simp only [testEnd, nonempty, fits, if_false, ne_eq, not_false_eq_true, decide_true, if_true,
    show resRepaired ≠ resFail by decide]
  rfl

theorem testEnd_failed (recorded : t = bankRecord die bank resFail 0 rows.length 102400 s)
    (exceeds : 4 < rows.length + s.rd (R.BANK_STAT_rows die bank)) :
    testEnd die (.counted found slot bitNo desc) s = testFailed die bank (s.buf die) u := by
  subst marked failure recorded failing tested
  simp only [testEnd, nonempty, Nat.not_le.mpr exceeds, if_false, ne_eq, not_false_eq_true, decide_true, decide_false,
    Bool.false_eq_true, if_true]
  rfl

end counted

/-! ## The end of a restore and of an evacuation (R281, R282, R284) -/

theorem restoreDone_eq {s t u w x : State} {die bank l : Nat} {reads : List (Nat × EccRead)}
    (tested : bank = s.rd (R.BUF_STAT_test_bank die)) (number : l = (numberOf s die (s.buf die).standIn).getD 63)
    (copied : t = dropBad die l (copyReads die l reads s))
    (served : u = (setServes die l bank (t.count (R.MOVES_copies die))).wr (R.BANK_STAT_state die bank) bkInService)
    (freed : w = (u.wr (R.BANK_STAT_state die (t.buf die).standIn) bkStandby).wr (R.BUF_STAT_standby die)
      (t.buf die).standIn)
    (cleared : x = if (t.buf die).passed then suspectClear die bank w else w) :
    restoreDone die reads s =
      suspectSlice die ((rotIdle die (x.putBuf die { x.buf die with lastTested := bank })).raise 290) := by
  subst cleared freed served copied number tested
  rfl

section evacuation

variable {s t u : State} {die bank l : Nat} {reads : List (Nat × EccRead)}
  (tested : bank = s.rd (R.BUF_STAT_test_bank die)) (number : numberOf s die bank = some l)
  (copied : t = copyReads die l reads s) (moved : u = (liveSlots t die l).foldl (fun s r => moveSlot l r s) t)

include tested number copied moved

theorem evacuationDone_empty (empty : liveSlots u die l = []) :
    evacuationDone die reads s =
      suspectSlice die (rotIdle die
        (((setServes die l 63 u).wr (R.BANK_STAT_state die bank) bkStandby).wr (R.BUF_STAT_standby die) bank)) := by
  subst moved copied tested
  simp only [evacuationDone, number, empty, ne_eq, not_true_eq_false, if_false]

theorem evacuationDone_left (left : liveSlots u die l ≠ []) : evacuationDone die reads s = u := by
  subst moved copied tested
  simp only [evacuationDone, number, left, ne_eq, not_false_eq_true, if_true]

end evacuation

/-! ## The commands, on a die whose core clock runs -/

section running

variable {s : State} {die : Nat} (there : die < diesOf s) (runs : coreHeld s die = false)

include there runs

theorem exec_remirror_bad {r addr : Nat} {read : EccRead} (slot : r = die * 65536 + addr) (inside : addr < 65536)
    (bad : (s.slot r).state = stBad) : exec (.remirror ⟨die, addr⟩ read) s = .next (remirror r read s) := by
  subst slot
  exact (onUnit_of_present (by simp only [there, inside, decide_true, Bool.and_self])).trans
    (congrArg _ (if_pos (by simp only [bad, runs, decide_true, Bool.not_false, Bool.and_self])))

theorem exec_ceWindowEnd_due (due : ceWindowDue s die ≤ s.clock) :
    exec (.ceWindowEnd die) s = .next (s.putBuf die
      { s.buf die with ce0 := 0, ce1 := 0, fired0 := false, fired1 := false, ceFrom := ceWindowDue s die }) :=
  (onUnit_of_present (decide_eq_true there)).trans (congrArg _ (if_neg (by
    simp only [runs, Nat.not_lt.mpr due, decide_false, Bool.or_self, Bool.false_eq_true, not_false_eq_true])))

theorem exec_bankSaveDone_saving {reads : List (Nat × EccRead)} (phase : rotOf s die = 1) :
    exec (.bankSaveDone ⟨die, reads⟩) s = .next (saveDone die reads s) :=
  (onUnit_of_present (decide_eq_true there)).trans (congrArg _ (if_pos (by
    simp only [phase, runs, decide_true, Bool.not_false, Bool.and_self])))

theorem exec_bankTestEnd_testing {result : BankTest} (phase : rotOf s die = 2) :
    exec (.bankTestEnd die result) s = .next (testEnd die result s) :=
  (onUnit_of_present (decide_eq_true there)).trans (congrArg _ (if_pos (by
    simp only [phase, runs, decide_true, Bool.not_false, Bool.and_self])))

theorem exec_bankRestoreDone_restoring {reads : List (Nat × EccRead)} (phase : rotOf s die = 3) :
    exec (.bankRestoreDone ⟨die, reads⟩) s = .next (restoreDone die reads s) :=
  (onUnit_of_present (decide_eq_true there)).trans (congrArg _ (if_pos (by
    simp only [phase, runs, decide_true, Bool.not_false, Bool.and_self])))

theorem exec_evacuationDone_evacuating {reads : List (Nat × EccRead)} (phase : rotOf s die = 4) :
    exec (.evacuationDone ⟨die, reads⟩) s = .next (evacuationDone die reads s) :=
  (onUnit_of_present (decide_eq_true there)).trans (congrArg _ (if_pos (by
    simp only [phase, runs, decide_true, Bool.not_false, Bool.and_self])))

end running

/-- Settles O29: a bad slot by its partner and the free slots, a save by what is asked of its bank, a test by the rows
that it found, a restore and an evacuation by the phase of the die. -/
theorem bufferEvents : Obligations.BufferEvents := by
  unfold Obligations.BufferEvents
  refine ⟨?copied, ?single, ?unreadable, ?bothBad, ?window, ?saveRetires, ?saveTests, ?saveStopped, ?short, ?passRestores,
    ?passInPlace, ?passReturns, ?repaired, ?failed, ?failedReturn, ?restored, ?evacuated, ?evacuates⟩
  case copied =>
    intro s die addr read r q n u v slot there runs inside bad mate good readable place
    obtain rfl := refDie_of_addr_lt slot inside
    rw [exec_remirror_bad there runs slot inside bad, remirror_copied mate good readable place]
  case single =>
    intro s die addr read r q u slot there runs inside bad mate good readable full
    obtain rfl := refDie_of_addr_lt slot inside
    rw [exec_remirror_bad there runs slot inside bad, remirror_single mate good readable full]
  case unreadable =>
    intro s die addr read r q u slot there runs inside bad mate good failed
    obtain rfl := refDie_of_addr_lt slot inside
    rw [exec_remirror_bad there runs slot inside bad, remirror_unreadable mate good failed]
  case bothBad =>
    intro s die addr read r q slot there runs inside bad mate partnerBad
    rw [exec_remirror_bad there runs slot inside bad, remirror_bothBad mate partnerBad]
  case window =>
    intro s die there runs due
    exact exec_ceWindowEnd_due there runs due
  case saveRetires =>
    intro s die reads bank l t u v tested number copied served joined there runs phase asked
    rw [exec_bankSaveDone_saving there runs phase, saveDone_retires tested number copied served joined asked]
  case saveTests =>
    intro s die reads bank l t u v tested number copied served joined there runs phase unasked untouched
    rw [exec_bankSaveDone_saving there runs phase,
      saveDone_tests tested number copied served joined unasked untouched]
  case saveStopped =>
    intro s die reads bank l t u v res cause tested number copied served joined there runs phase unasked stopped
    rw [exec_bankSaveDone_saving there runs phase,
      saveDone_stopped tested number copied served joined unasked stopped]
  case short =>
    intro s die ops bank i j t u tested rows operations there runs phase saved
    rw [exec_bankTestEnd_testing there runs phase, testEnd_short rows operations tested saved]
  case passRestores =>
    intro s die found rows slot bitNo bank desc t u w tested failing recorded noFailure marked there runs phase clean
      notReturning saved
    rw [exec_bankTestEnd_testing there runs phase, testEnd_clean tested failing marked recorded noFailure clean,
      testPassed_restores notReturning saved]
  case passInPlace =>
    intro s die found rows slot bitNo bank desc t u w tested failing recorded noFailure marked there runs phase clean
      notReturning alone
    rw [exec_bankTestEnd_testing there runs phase, testEnd_clean tested failing marked recorded noFailure clean,
      testPassed_inPlace notReturning alone]
  case passReturns =>
    intro s die found rows slot bitNo bank desc t u w tested failing recorded noFailure marked there runs phase clean
      returned
    rw [exec_bankTestEnd_testing there runs phase, testEnd_clean tested failing marked recorded noFailure clean,
      testPassed_returns returned]
  case repaired =>
    intro s die found rows slot bitNo bank desc t u v w tested failing recorded failure marked there runs phase nonempty
      fits notReturning saved repaired
    rw [exec_bankTestEnd_testing there runs phase, testEnd_repaired tested failing marked failure nonempty recorded fits,
      ← repaired, testPassed_restores notReturning saved]
  case failed =>
    intro s die found rows slot bitNo bank desc t u w tested failing recorded failure marked there runs phase nonempty
      exceeds notReturning
    rw [exec_bankTestEnd_testing there runs phase, testEnd_failed tested failing marked failure nonempty recorded exceeds,
      testFailed_retires notReturning]
  case failedReturn =>
    intro s die found rows slot bitNo bank desc t u w tested failing recorded failure marked there runs phase nonempty
      exceeds returned
    rw [exec_bankTestEnd_testing there runs phase, testEnd_failed tested failing marked failure nonempty recorded exceeds,
      testFailed_returns returned]
  case restored =>
    intro s die reads bank l t u w x tested number copied served freed cleared there runs phase
    rw [exec_bankRestoreDone_restoring there runs phase, restoreDone_eq tested number copied served freed cleared]
  case evacuated =>
    intro s die reads bank l t u tested copied moved there runs phase number empty
    rw [exec_evacuationDone_evacuating there runs phase, evacuationDone_empty tested number copied moved empty]
  case evacuates =>
    intro s die reads bank l t u tested copied moved there runs phase number left
    rw [exec_evacuationDone_evacuating there runs phase, evacuationDone_left tested number copied moved left]

end Sys2Proof.Machine
end

section
/-!
BUF_CMD (R281, R284, R285), the counters of the flit buffer (R288, R494) and the slot that DESC_SEL shows (R271, R288).
-/

namespace Sys2Proof.Machine

/-! ## A slice begins (R281) -/

section sliceBegin

variable {s u : State} {die bank : Nat} {retireAfter returning byCmd : Bool}
  (asked : u = s.putBuf die { s.buf die with
    retireAfter := retireAfter, returning := returning, byCmd := byCmd, stopped := none, passed := false })

include asked

theorem sliceBegin_inService (state : bankState u die bank = bkInService) :
    sliceBegin die bank retireAfter returning byCmd s =
      setRot die 1 bank ((u.wr (R.BANK_STAT_state die bank) bkSaving).putBuf die
        { u.buf die with standIn := (standbyOf u die).getD 63 }) := by
  subst asked
  exact if_neg (by simp only [state, show ¬ bkInService = bkStandby by decide, show ¬ bkInService = bkRetired by decide,
    decide_false, Bool.or_self, Bool.false_eq_true, not_false_eq_true])

theorem sliceBegin_retired (state : bankState u die bank = bkRetired) :
    sliceBegin die bank retireAfter returning byCmd s =
      setRot die 2 bank (u.wr (R.BANK_STAT_state die bank) bkTesting) := by
  subst asked
  simp only [sliceBegin, state, show ¬ bkRetired = bkStandby by decide, decide_false, decide_true, Bool.false_or,
    if_true, if_false]

theorem sliceBegin_standby (state : bankState u die bank = bkStandby) :
    sliceBegin die bank retireAfter returning byCmd s =
      setRot die 2 bank ((u.wr (R.BUF_STAT_standby die) 63).wr (R.BANK_STAT_state die bank) bkTesting) := by
  subst asked
  simp only [sliceBegin, state, decide_true, Bool.true_or, if_true]

end sliceBegin

/-! ## A test begins within the limits of R376 -/

section testBegin

variable {s : State} {die bank : Nat} {returning byCmd : Bool}

theorem testBegin_limited (limit : limitCause s die ≠ 0) :
    testBegin die bank returning byCmd s =
      ((bankRecord die bank resLimit (limitCause s die) 0 0 s).raise 290).wr (R.BUF_CMD_busy die) 0 :=
  if_pos limit

/-- A bank in service needs a standby to be saved into. -/
theorem testBegin_slice (free : limitCause s die = 0)
    (room : bankState s die bank = bkInService → (standbyOf s die).isSome = true) :
    testBegin die bank returning byCmd s = sliceBegin die bank false returning byCmd s :=
  (if_neg (fun limited => limited free)).trans (if_neg (by simpa [Option.isSome_iff_ne_none] using room))

end testBegin

/-! ## A command is written (R285, R288) -/

section bufCmd

variable {s t : State} {die op bank : Nat} (ready : s.on (R.BUF_CMD_busy die) = false) (inside : bank ≤ 32)

include ready inside

theorem bufCmd_refused (known : op < 3)
    (refuses : bufCmdRefused ((s.wr (R.BUF_CMD_op die) op).wr (R.BUF_CMD_bank die) bank) die op bank = true) :
    bufCmd die op bank s =
      ((s.wr (R.BUF_CMD_op die) op).wr (R.BUF_CMD_bank die) bank).wr (R.BUF_CMD_refused die) 1 := by
  simp only [bufCmd, ready, Nat.not_lt.mpr inside, Nat.not_le.mpr known, refuses, decide_false, Bool.or_self,
    Bool.false_eq_true, if_false, if_true]

variable (stored : t = ((s.wr (R.BUF_CMD_op die) op).wr (R.BUF_CMD_bank die) bank).wr (R.BUF_CMD_refused die) 0)
  (accepted : bufCmdRefused ((s.wr (R.BUF_CMD_op die) op).wr (R.BUF_CMD_bank die) bank) die op bank = false)

include stored accepted

theorem bufCmd_retires (retire : op = 0) :
    bufCmd die op bank s =
      if bankState t die bank = bkStandby then retireInService die bank t
      else sliceBegin die bank true false true (t.wr (R.BUF_CMD_busy die) 1) := by
  subst stored retire
  simp only [bufCmd, ready, Nat.not_lt.mpr inside, accepted, show ¬ 3 ≤ 0 by decide, decide_false, Bool.or_self,
    Bool.false_eq_true, if_false, if_true]

/-- RETURN and TEST_NOW start a test, of a bank that is returning or not. -/
theorem bufCmd_tests {returning : Bool} (test : op = 1 ∧ returning = true ∨ op = 2 ∧ returning = false) :
    bufCmd die op bank s = testBegin die bank returning true (t.wr (R.BUF_CMD_busy die) 1) := by
  subst stored
  obtain ⟨rfl, rfl⟩ | ⟨rfl, rfl⟩ := test
  all_goals simp [bufCmd, ready, Nat.not_lt.mpr inside, accepted]

end bufCmd

/-! ## The descriptor of a slot (R271) -/

section descSel

variable {s t : State} {die addr : Nat} (selected : t = s.wr (R.DESC_SEL_addr die) addr)

include selected

theorem descSel_slot (bank : addr / 1024 ≤ 32) :
    descSel die addr s = ((List.range 5).zip (descWords t (die * 65536 + addr))).foldl
      (fun s p => s.wr (R.DESC_W_word die p.1) p.2) t := by
  subst selected
  simp only [descSel, if_pos bank]

theorem descSel_above (above : 32 < addr / 1024) :
    descSel die addr s = ((List.range 5).zip [0, 0, 0, 0, 0]).foldl (fun s p => s.wr (R.DESC_W_word die p.1) p.2) t := by
  subst selected
  simp only [descSel, if_neg (Nat.not_le.mpr above)]

end descSel

/-! ## The commands, at a page that answers -/

section written

variable {s : State} {die : Nat} (there : die < diesOf s) (answers : pageOpen s (0x38 + die) = true)

include there answers

theorem exec_bufRetire_open {bank : Nat} : exec (.bufRetire die bank) s = .next (bufCmd die 0 (bank % 64) s) :=
  congrArg Host.Outcome.next (ifHas_open (decide_eq_true there) answers)

theorem exec_bufReturn_open {bank : Nat} : exec (.bufReturn die bank) s = .next (bufCmd die 1 (bank % 64) s) :=
  congrArg Host.Outcome.next (ifHas_open (decide_eq_true there) answers)

theorem exec_bufTestNow_open {bank : Nat} : exec (.bufTestNow die bank) s = .next (bufCmd die 2 (bank % 64) s) :=
  congrArg Host.Outcome.next (ifHas_open (decide_eq_true there) answers)

theorem exec_bufSnap_open :
    exec (.bufSnap die) s = .next (((State.latchAll (bufCounters die) s).bumpWrap (R.BUF_SNAP_snap_no die)).answerWord
      (s.rd (R.BUF_SNAP_snap_no die))) :=
  congrArg Host.Outcome.next (ifHas_open (decide_eq_true there) answers)

theorem exec_bufClr_open :
    exec (.bufClr die) s = .next ((State.zeroLive (bufCounters die) s).wr (R.BUF_OCC_peak die) (bufLive s die)) :=
  congrArg Host.Outcome.next (ifHas_open (decide_eq_true there) answers)

theorem exec_descSelWrite_open {addr : Nat} :
    exec (.descSelWrite die addr) s = .next (descSel die (addr % 65536) s) :=
  congrArg Host.Outcome.next (ifHas_open (decide_eq_true there) answers)

end written

/-- Settles O30: a command by its operation, the state of its bank and the limits of a test; the refused ones alike; the
counters by their page and DESC_SEL by the bank of its slot. -/
theorem bufferCommands : Obligations.BufferCommands := by
  unfold Obligations.BufferCommands
  refine ⟨?retireStandby, ?retireInService, ?returnLimited, ?returnTested, ?testLimited, ?testInService, ?testStandby,
    ?retireRefused, ?returnRefused, ?testRefused, ?snap, ?clear, ?slot, ?aboveBanks⟩
  case retireStandby =>
    intro s die bank t stored there answers ready inside accepted state
    rw [exec_bufRetire_open there answers, bufCmd_retires ready inside stored accepted rfl, if_pos state]
  case retireInService =>
    intro s die bank t u stored asked there answers ready inside accepted other state
    rw [exec_bufRetire_open there answers, bufCmd_retires ready inside stored accepted rfl, if_neg other,
      sliceBegin_inService asked state]
  case returnLimited =>
    intro s die bank t v stored busy there answers ready inside accepted limit
    rw [exec_bufReturn_open there answers, bufCmd_tests ready inside stored accepted (.inl ⟨rfl, rfl⟩), ← busy,
      testBegin_limited limit]
  case returnTested =>
    intro s die bank t u v stored busy asked there answers ready inside accepted free retired state
    rw [exec_bufReturn_open there answers, bufCmd_tests ready inside stored accepted (.inl ⟨rfl, rfl⟩), ← busy,
      testBegin_slice free (by simp [retired, bkRetired, bkInService]), sliceBegin_retired asked state]
  case testLimited =>
    intro s die bank t v stored busy there answers ready inside accepted limit
    rw [exec_bufTestNow_open there answers, bufCmd_tests ready inside stored accepted (.inr ⟨rfl, rfl⟩), ← busy,
      testBegin_limited limit]
  case testInService =>
    intro s die bank t u v stored busy asked there answers ready inside accepted free standby state
    rw [exec_bufTestNow_open there answers, bufCmd_tests ready inside stored accepted (.inr ⟨rfl, rfl⟩), ← busy,
      testBegin_slice free (fun _ => standby), sliceBegin_inService asked state]
  case testStandby =>
    intro s die bank t u v stored busy asked there answers ready inside accepted free standby state
    rw [exec_bufTestNow_open there answers, bufCmd_tests ready inside stored accepted (.inr ⟨rfl, rfl⟩), ← busy,
      testBegin_slice free (by simp [standby, bkStandby, bkInService]), sliceBegin_standby asked state]
  case retireRefused =>
    intro s die bank there answers ready inside refuses
    rw [exec_bufRetire_open there answers, bufCmd_refused ready inside (by decide) refuses]
  case returnRefused =>
    intro s die bank there answers ready inside refuses
    rw [exec_bufReturn_open there answers, bufCmd_refused ready inside (by decide) refuses]
  case testRefused =>
    intro s die bank there answers ready inside refuses
    rw [exec_bufTestNow_open there answers, bufCmd_refused ready inside (by decide) refuses]
  case snap =>
    intro s die there answers
    exact exec_bufSnap_open there answers
  case clear =>
    intro s die there answers
    exact exec_bufClr_open there answers
  case slot =>
    intro s die addr t selected there answers bank
    rw [exec_descSelWrite_open there answers, descSel_slot selected bank]
  case aboveBanks =>
    intro s die addr t selected there answers above
    rw [exec_descSelWrite_open there answers, descSel_above selected above]

end Sys2Proof.Machine
end

section
/-!
Every command (R34): one arm of the dispatcher each. What every operation keeps (`Kept`) reaches every command and every step
(O1, O2), and so does what every operation but eight leaves alone (`Same`): the phase of the device (O4).
-/

namespace Sys2Proof.Machine

/-! ## The queue, the fuses and the tables -/

/-- Whatever the command, its outcome keeps what every operation keeps. -/
theorem exec_kept {s : State} : ∀ c : Instr, KeptO s (exec c s)
  | .signalDetect .. => execSignalDetect_kept .rfl
  | .lossOfSignal .. => execLossOfSignal_kept .rfl
  | .symbolLockAcquired .. => execSymbolLockAcquired_kept .rfl
  | .lockLoss .. => execLockLoss_kept .rfl
  | .balanceWindowEnd .. => execBalanceWindowEnd_kept .rfl
  | .terminationDetect .. => execTerminationDetect_kept .rfl
  | .terminationDetectDone .. => execTerminationDetectDone_kept .rfl
  | .txShort .. => execTxShort_kept .rfl
  | .rxOpen .. => execRxOpen_kept .rfl
  | .rxOpenClear .. => execRxOpenClear_kept .rfl
  | .cntSnap .. => execCntSnap_kept .rfl
  | .cntCtlClear .. => execCntCtlClear_kept .rfl
  | .leCfgWrite .. => execLeCfgWrite_kept .rfl
  | .ackSetReceive .. => execAckSetReceive_kept .rfl
  | .idlReceive .. => execIdlReceive_kept .rfl
  | .eieReceive .. => execEieReceive_kept .rfl
  | .skpReceive .. => execSkpReceive_kept .rfl
  | .ebSlip .. => execEbSlip_kept .rfl
  | .deskewRemeasure .. => execDeskewRemeasure_kept .rfl
  | .skpDue .. => execSkpDue_kept .rfl
  | .sendNext .. => execSendNext_kept .rfl
  | .clockDutyInvert .. => execClockDutyInvert_kept .rfl
  | .clockLaneQualified .. => execClockLaneQualified_kept .rfl
  | .clockLaneLoss .. => execClockLaneLoss_kept .rfl
  | .switchoverComplete .. => execSwitchoverComplete_kept .rfl
  | .pllUnlock .. => execPllUnlock_kept .rfl
  | .pllRelock .. => execPllRelock_kept .rfl
  | .borrowComplete .. => execBorrowComplete_kept .rfl
  | .holdoverExpiry .. => execHoldoverExpiry_kept .rfl
  | .denseReqResend .. => execDenseReqResend_kept .rfl
  | .ckToForwarded .. => execCkToForwarded_kept .rfl
  | .ckToFallback .. => execCkToFallback_kept .rfl
  | .ckReturnOwn .. => execCkReturnOwn_kept .rfl
  | .fallbackWaitExpiry .. => execFallbackWaitExpiry_kept .rfl
  | .ckOpComplete .. => execCkOpComplete_kept .rfl
  | .acqBlockEnd .. => execAcqBlockEnd_kept .rfl
  | .acqTimeout .. => execAcqTimeout_kept .rfl
  | .trackVisitEnd .. => execTrackVisitEnd_kept .rfl
  | .trackUpdateApply .. => execTrackUpdateApply_kept .rfl
  | .adaptReacquire .. => execAdaptReacquire_kept .rfl
  | .adaptFreeze .. => execAdaptFreeze_kept .rfl
  | .adaptThaw .. => execAdaptThaw_kept .rfl
  | .dfeSelWrite .. => execDfeSelWrite_kept .rfl
  | .btLoad => execBtLoad_kept .rfl
  | .btLoadDone .. => execBtLoadDone_kept .rfl
  | .flashCommand .. => execFlashCommand_kept .rfl
  | .flashCommandDone .. => execFlashCommandDone_kept .rfl
  | .capReceive .. => execCapReceive_kept .rfl
  | .rateReceive .. => execRateReceive_kept .rfl
  | .rateAckReceive .. => execRateAckReceive_kept .rfl
  | .readyReceive .. => execReadyReceive_kept .rfl
  | .echoReqReceive .. => execEchoReqReceive_kept .rfl
  | .echoRspReceive .. => execEchoRspReceive_kept .rfl
  | .retrainReceive .. => execRetrainReceive_kept .rfl
  | .denseReqReceive .. => execDenseReqReceive_kept .rfl
  | .denseRelReceive .. => execDenseRelReceive_kept .rfl
  | .capSettleExpiry .. => execCapSettleExpiry_kept .rfl
  | .switchIdleEnd .. => execSwitchIdleEnd_kept .rfl
  | .dwellEnd .. => execDwellEnd_kept .rfl
  | .rungMaxExpiry .. => execRungMaxExpiry_kept .rfl
  | .trainMaxExpiry .. => execTrainMaxExpiry_kept .rfl
  | .retrainMaxExpiry .. => execRetrainMaxExpiry_kept .rfl
  | .rateResend .. => execRateResend_kept .rfl
  | .echoWaitExpiry .. => execEchoWaitExpiry_kept .rfl
  | .downHoldEnd .. => execDownHoldEnd_kept .rfl
  | .goTime => execGoTime_kept .rfl
  | .tUpBegin .. => execTUpBegin_kept .rfl
  | .trnRetrain .. => execTrnRetrain_kept .rfl
  | .trnStep .. => execTrnStep_kept .rfl
  | .trnDown .. => execTrnDown_kept .rfl
  | .trnRestart .. => execTrnRestart_kept .rfl
  | .flitReceive .. => execFlitReceive_kept .rfl
  | .controlFlitReceive .. => execControlFlitReceive_kept .rfl
  | .fltSnap .. => execFltSnap_kept .rfl
  | .fltClr .. => execFltClr_kept .rfl
  | .darnTimerExpiry .. => execDarnTimerExpiry_kept .rfl
  | .darnSnap .. => execDarnSnap_kept .rfl
  | .darnClr .. => execDarnClr_kept .rfl
  | .drnAckReceive .. => execDrnAckReceive_kept .rfl
  | .drnNakReceive .. => execDrnNakReceive_kept .rfl
  | .drnProbeReceive .. => execDrnProbeReceive_kept .rfl
  | .drnEchoReceive .. => execDrnEchoReceive_kept .rfl
  | .spanTimerExpiry .. => execSpanTimerExpiry_kept .rfl
  | .drnAckTimer .. => execDrnAckTimer_kept .rfl
  | .probeInterval .. => execProbeInterval_kept .rfl
  | .probeWaitExpiry .. => execProbeWaitExpiry_kept .rfl
  | .proxyAckTimer .. => execProxyAckTimer_kept .rfl
  | .trunkAckRefresh .. => execTrunkAckRefresh_kept .rfl
  | .trkSnap .. => execTrkSnap_kept .rfl
  | .trkClr .. => execTrkClr_kept .rfl
  | .controlFlitDue .. => execControlFlitDue_kept .rfl
  | .llTornWindowEnd .. => execLlTornWindowEnd_kept .rfl
  | .llDrainEnd .. => execLlDrainEnd_kept .rfl
  | .llCacheRefresh .. => execLlCacheRefresh_kept .rfl
  | .llSnap .. => execLlSnap_kept .rfl
  | .llClr .. => execLlClr_kept .rfl
  | .calSnap .. => execCalSnap_kept .rfl
  | .calClr .. => execCalClr_kept .rfl
  | .qstSelWrite .. => execQstSelWrite_kept .rfl
  | .remirror .. => execRemirror_kept .rfl
  | .ceWindowEnd .. => execCeWindowEnd_kept .rfl
  | .bankSaveDone .. => execBankSaveDone_kept .rfl
  | .bankTestEnd .. => execBankTestEnd_kept .rfl
  | .bankRestoreDone .. => execBankRestoreDone_kept .rfl
  | .evacuationDone .. => execEvacuationDone_kept .rfl
  | .bufRetire .. => execBufRetire_kept .rfl
  | .bufReturn .. => execBufReturn_kept .rfl
  | .bufTestNow .. => execBufTestNow_kept .rfl
  | .bufSnap .. => execBufSnap_kept .rfl
  | .bufClr .. => execBufClr_kept .rfl
  | .descSelWrite .. => execDescSelWrite_kept .rfl
  | .prkCommit => execPrkCommit_kept .rfl
  | .prkCheck => execPrkCheck_kept .rfl
  | .prkRevert => execPrkRevert_kept .rfl
  | .lnkCommit .. => execLnkCommit_kept .rfl
  | .checkEnd => execCheckEnd_kept .rfl
  | .tApply => execTApply_kept .rfl
  | .recheckStart .. => execRecheckStart_kept .rfl
  | .bobbinAcqLimit .. => execBobbinAcqLimit_kept .rfl
  | .bobbinSwitch .. => execBobbinSwitch_kept .rfl
  | .swapAbandon .. => execSwapAbandon_kept .rfl
  | .oldTxIdle .. => execOldTxIdle_kept .rfl
  | .swpSwap .. => execSwpSwap_kept .rfl
  | .swpReturn .. => execSwpReturn_kept .rfl
  | .swpEnable .. => execSwpEnable_kept .rfl
  | .swpDisable .. => execSwpDisable_kept .rfl
  | .sideMapWrite .. => execSideMapWrite_kept .rfl
  | .lanePosWrite .. => execLanePosWrite_kept .rfl
  | .mapDrainEnd .. => execMapDrainEnd_kept .rfl
  | .mapTornEnd .. => execMapTornEnd_kept .rfl
  | .mapCacheRefresh .. => execMapCacheRefresh_kept .rfl
  | .nativeJudgePass => execNativeJudgePass_kept .rfl
  | .compatJudgeEnd .. => execCompatJudgeEnd_kept .rfl
  | .ifoReady => execIfoReady_kept .rfl
  | .ifoReadyTimeout => execIfoReadyTimeout_kept .rfl
  | .ifoMeasureEnd .. => execIfoMeasureEnd_kept .rfl
  | .monitorWindowEnd .. => execMonitorWindowEnd_kept .rfl
  | .pllHoldover .. => execPllHoldover_kept .rfl
  | .refclkReturn .. => execRefclkReturn_kept .rfl
  | .pllIfoLock .. => execPllIfoLock_kept .rfl
  | .returnHoldExpiry => execReturnHoldExpiry_kept .rfl
  | .clkCfgWrite .. => execClkCfgWrite_kept .rfl
  | .ifoLoss => execIfoLoss_kept .rfl
  | .clockUnusableFence => execClockUnusableFence_kept .rfl
  | .corePllUnlock .. => execCorePllUnlock_kept .rfl
  | .corePllRelock .. => execCorePllRelock_kept .rfl
  | .plRequest .. => execPlRequest_kept .rfl
  | .plVoltageSettled .. => execPlVoltageSettled_kept .rfl
  | .plDividerSwitched .. => execPlDividerSwitched_kept .rfl
  | .mgmtPllUnlock => execMgmtPllUnlock_kept .rfl
  | .seamPllUnlock => execSeamPllUnlock_kept .rfl
  | .clkEnWrite .. => execClkEnWrite_kept .rfl
  | .fmStart => execFmStart_kept .rfl
  | .fmRunEnd .. => execFmRunEnd_kept .rfl
  | .watchEnter .. => execWatchEnter_kept .rfl
  | .watchEntryDone => execWatchEntryDone_kept .rfl
  | .watchWake => execWatchWake_kept .rfl
  | .wakeNLow => execWakeNLow_kept .rfl
  | .wakeSigdet .. => execWakeSigdet_kept .rfl
  | .wakeSource .. => execWakeSource_kept .rfl
  | .wakeComplete => execWakeComplete_kept .rfl
  | .wakeIfoTimeout => execWakeIfoTimeout_kept .rfl
  | .tempSample .. => execTempSample_kept .rfl
  | .calRunStart .. => execCalRunStart_kept .rfl
  | .calRunEnd .. => execCalRunEnd_kept .rfl
  | .calStepApply .. => execCalStepApply_kept .rfl
  | .rextFault => execRextFault_kept .rfl
  | .rextFaultClear => execRextFaultClear_kept .rfl
  | .calEnd .. => execCalEnd_kept .rfl
  | .calAll .. => execCalAll_kept .rfl
  | .calEye .. => execCalEye_kept .rfl
  | .eyeEnd .. => execEyeEnd_kept .rfl
  | .calSelWrite .. => execCalSelWrite_kept .rfl
  | .sliceInterval => execSliceInterval_kept .rfl
  | .bobbinSliceEnd .. => execBobbinSliceEnd_kept .rfl
  | .bistStall .. => execBistStall_kept .rfl
  | .bstBobbinNow .. => execBstBobbinNow_kept .rfl
  | .bstAbort => execBstAbort_kept .rfl
  | .bstFull => execBstFull_kept .rfl
  | .bstTestEnter .. => execBstTestEnter_kept .rfl
  | .bstCfgWrite .. => execBstCfgWrite_kept .rfl
  | .lbCfgWrite .. => execLbCfgWrite_kept .rfl
  | .prbsGenWrite .. => execPrbsGenWrite_kept .rfl
  | .prbsChkWrite .. => execPrbsChkWrite_kept .rfl
  | .prbsLock .. => execPrbsLock_kept .rfl
  | .prbsLockLoss .. => execPrbsLockLoss_kept .rfl
  | .prbsErrThreshold .. => execPrbsErrThreshold_kept .rfl
  | .prbsSnap .. => execPrbsSnap_kept .rfl
  | .prbsClr .. => execPrbsClr_kept .rfl
  | .testEnHigh => execTestEnHigh_kept .rfl
  | .testEntryDone .. => execTestEntryDone_kept .rfl
  | .extest => execExtest_kept .rfl
  | .samplePreload => execSamplePreload_kept .rfl
  | .idcode => execIdcode_kept .rfl
  | .clamp => execClamp_kept .rfl
  | .highz => execHighz_kept .rfl
  | .extestPulse => execExtestPulse_kept .rfl
  | .extestTrain => execExtestTrain_kept .rfl
  | .scanEntry => execScanEntry_kept .rfl
  | .bypass => execBypass_kept .rfl
  | .jtagTrst => execJtagTrst_kept .rfl
  | .supplyWarnSet .. => execSupplyWarnSet_kept .rfl
  | .supplyWarnClear .. => execSupplyWarnClear_kept .rfl
  | .supplySample .. => execSupplySample_kept .rfl
  | .brownOutReset .. => execBrownOutReset_kept .rfl
  | .powerOnReset => execPowerOnReset_kept .rfl
  | .pinReset => execPinReset_kept .rfl
  | .resetRelease .. => execResetRelease_kept .rfl
  | .startStepEnd .. => execStartStepEnd_kept .rfl
  | .ringWaitEnd => execRingWaitEnd_kept .rfl
  | .startComplete => execStartComplete_kept .rfl
  | .bootRelease => execBootRelease_kept .rfl
  | .fenceCmdFence .. => execFenceCmdFence_kept .rfl
  | .fenceCmdLift .. => execFenceCmdLift_kept .rfl
  | .softReset .. => execSoftReset_kept .rfl
  | .sourceInput .. => execSourceInput_kept .rfl
  | .intClaim .. => execIntClaim_kept .rfl
  | .intComplete .. => execIntComplete_kept .rfl
  | .doorbellWrite .. => execDoorbellWrite_kept .rfl
  | .srcCfgWrite .. => execSrcCfgWrite_kept .rfl
  | .ringDeliverSend .. => execRingDeliverSend_kept .rfl
  | .deliverResend .. => execDeliverResend_kept .rfl
  | .spiWrite .. => execSpiWrite_kept .rfl
  | .spiRead .. => execSpiRead_kept .rfl
  | .spiWriteBlock .. => execSpiWriteBlock_kept .rfl
  | .spiReadBlock .. => execSpiReadBlock_kept .rfl
  | .spiFetch .. => execSpiFetch_kept .rfl
  | .spiStatus .. => execSpiStatus_kept .rfl
  | .spiBadOpcode .. => execSpiBadOpcode_kept .rfl
  | .smbPointer .. => execSmbPointer_kept .rfl
  | .smbWrite .. => execSmbWrite_kept .rfl
  | .smbRead .. => execSmbRead_kept .rfl
  | .smbFetch => execSmbFetch_kept .rfl
  | .smbStatus => execSmbStatus_kept .rfl
  | .smbBusTimeout => execSmbBusTimeout_kept .rfl
  | .ringTrainReceive .. => execRingTrainReceive_kept .rfl
  | .ringTrainSend => execRingTrainSend_kept .rfl
  | .hopBroken .. => execHopBroken_kept .rfl
  | .ringEnum .. => execRingEnum_kept .rfl
  | .ringPresent .. => execRingPresent_kept .rfl
  | .enumTimeout => execEnumTimeout_kept .rfl
  | .ringDone .. => execRingDone_kept .rfl
  | .ringBreak .. => execRingBreak_kept .rfl
  | .ringTime .. => execRingTime_kept .rfl
  | .ringTimeSend => execRingTimeSend_kept .rfl
  | .timeLoss => execTimeLoss_kept .rfl
  | .ringGo .. => execRingGo_kept .rfl
  | .goAuto => execGoAuto_kept .rfl
  | .ringReady .. => execRingReady_kept .rfl
  | .ringReq .. => execRingReq_kept .rfl
  | .ringRsp .. => execRingRsp_kept .rfl
  | .remoteTimeout .. => execRemoteTimeout_kept .rfl
  | .ringDeliver .. => execRingDeliver_kept .rfl
  | .ringComplete .. => execRingComplete_kept .rfl
  | .pctEnumerate => execPctEnumerate_kept .rfl
  | .pctGo => execPctGo_kept .rfl
  | .selReadReq .. => execSelReadReq_kept .rfl
  | .selWriteReq .. => execSelWriteReq_kept .rfl
  | .selAttestReq .. => execSelAttestReq_kept .rfl
  | .selRequestServe => execSelRequestServe_kept .rfl
  | .keyLoad .. => execKeyLoad_kept .rfl
  | .keyClear .. => execKeyClear_kept .rfl
  | .keyEnroll .. => execKeyEnroll_kept .rfl
  | .keyRevoke .. => execKeyRevoke_kept .rfl
  | .attGenerate => execAttGenerate_kept .rfl
  | .attGenerateDone => execAttGenerateDone_kept .rfl
  | .prickingDigestDone => execPrickingDigestDone_kept .rfl
  | .loReadLatch .. => execLoReadLatch_kept .rfl
  | .registerWrite .. => execRegisterWrite_kept .rfl
  | .commaDetect .. => execCommaDetect_kept .rfl
  | .aligningBadSymbol .. => execAligningBadSymbol_kept .rfl
  | .lolWindowEnd .. => execLolWindowEnd_kept .rfl
  | .switchoverLockExpiry .. => execSwitchoverLockExpiry_kept .rfl
  | .mgmtPllRelock => execMgmtPllRelock_kept .rfl
  | .seamPllRelock => execSeamPllRelock_kept .rfl
  | .calCodeStep .. => execCalCodeStep_kept .rfl
  | .postPauseLimit => execPostPauseLimit_kept .rfl
  | .prbsErrWindowEnd .. => execPrbsErrWindowEnd_kept .rfl
  | .softResetDone .. => execSoftResetDone_kept .rfl

/-- Settles O2: the queue and the fuses are two parts of what every command keeps. -/
theorem commandsKeepQueueAndFuses : Obligations.CommandsKeepQueueAndFuses := by
  unfold Obligations.CommandsKeepQueueAndFuses
  intro c s t goes
  have kept : Kept s t := (exec_kept c).out t goes
  exact ⟨kept.pending, kept.fuse⟩

/-- A nanosecond keeps the queue, the fuses and the tables. -/
theorem tick_kept {s : State} : Kept s (tick s) := by
  have ticked : Kept s (genTicks (nbrSwitched { s with clock := s.clock + 1 })) :=
    genTicks_kept (nbrSwitched_kept (kept_mk .rfl))
  unfold tick
  refine kept_ite .rfl ?_
  exact kept_ite (kept_mk ticked) (kept_mk ticked)

/-- The tables of a state are the same without the command at the front of its queue. -/
theorem tablesCanonical_rest {s : State} {rest : List Instr} :
    tablesCanonical { s with pending := rest } = tablesCanonical s := rfl

/-- Settles O1: a step is a nanosecond or the command at the front of the queue, and both keep the tables. -/
theorem tablesStayCanonical : Obligations.TablesStayCanonical := by
  unfold Obligations.TablesStayCanonical
  intro s t canonical goes
  unfold step at goes
  split at goes
  case h_1 =>
    cases goes
    exact tick_kept.canon canonical
  case h_2 c rest _ =>
    exact ((exec_kept c).out t goes).canon (tablesCanonical_rest.trans canonical)

/-! ## The phase of the device (R476) -/

/-- The mask of every part of the state but the phase of the device. -/
def allButPhase : Nat := 0xfffffffff

theorem Sub.refl {m : Nat} : Sub m m := ⟨fun _ h => h⟩

theorem Same.phase {s t : State} (same : Same allButPhase s t) : t.dev.phase = s.dev.phase :=
  same.out .phase (by decide)

/-- The commands that may move the phase: release, the end of START, WATCH entry, wake and TEST entry, and the resets. -/
def movesPhase : Instr → Bool
  | .resetRelease .. | .startComplete | .watchEntryDone | .wakeComplete | .testEntryDone .. | .powerOnReset | .pinReset
  | .brownOutReset .. => true
  | _ => false

/-- Every other command leaves the phase alone. -/
theorem exec_same_phase {s : State} : ∀ c : Instr, movesPhase c = false → SameO allButPhase s (exec c s)
  | .signalDetect .., _ => execSignalDetect_same (.of .refl rfl) .rfl
  | .lossOfSignal .., _ => execLossOfSignal_same (.of .refl rfl) .rfl
  | .symbolLockAcquired .., _ => execSymbolLockAcquired_same (.of .refl rfl) .rfl
  | .lockLoss .., _ => execLockLoss_same (.of .refl rfl) .rfl
  | .balanceWindowEnd .., _ => execBalanceWindowEnd_same (.of .refl rfl) .rfl
  | .terminationDetect .., _ => execTerminationDetect_same (.of .refl rfl) .rfl
  | .terminationDetectDone .., _ => execTerminationDetectDone_same (.of .refl rfl) .rfl
  | .txShort .., _ => execTxShort_same (.of .refl rfl) .rfl
  | .rxOpen .., _ => execRxOpen_same (.of .refl rfl) .rfl
  | .rxOpenClear .., _ => execRxOpenClear_same (.of .refl rfl) .rfl
  | .cntSnap .., _ => execCntSnap_same (.of .refl rfl) .rfl
  | .cntCtlClear .., _ => execCntCtlClear_same (.of .refl rfl) .rfl
  | .leCfgWrite .., _ => execLeCfgWrite_same (.of .refl rfl) .rfl
  | .ackSetReceive .., _ => execAckSetReceive_same (.of .refl rfl) .rfl
  | .idlReceive .., _ => execIdlReceive_same (.of .refl rfl) .rfl
  | .eieReceive .., _ => execEieReceive_same (.of .refl rfl) .rfl
  | .skpReceive .., _ => execSkpReceive_same (.of .refl rfl) .rfl
  | .ebSlip .., _ => execEbSlip_same (.of .refl rfl) .rfl
  | .deskewRemeasure .., _ => execDeskewRemeasure_same (.of .refl rfl) .rfl
  | .skpDue .., _ => execSkpDue_same (.of .refl rfl) .rfl
  | .sendNext .., _ => execSendNext_same (.of .refl rfl) .rfl
  | .clockDutyInvert .., _ => execClockDutyInvert_same (.of .refl rfl) .rfl
  | .clockLaneQualified .., _ => execClockLaneQualified_same (.of .refl rfl) .rfl
  | .clockLaneLoss .., _ => execClockLaneLoss_same (.of .refl rfl) .rfl
  | .switchoverComplete .., _ => execSwitchoverComplete_same (.of .refl rfl) .rfl
  | .pllUnlock .., _ => execPllUnlock_same (.of .refl rfl) .rfl
  | .pllRelock .., _ => execPllRelock_same (.of .refl rfl) .rfl
  | .borrowComplete .., _ => execBorrowComplete_same (.of .refl rfl) .rfl
  | .holdoverExpiry .., _ => execHoldoverExpiry_same (.of .refl rfl) .rfl
  | .denseReqResend .., _ => execDenseReqResend_same (.of .refl rfl) .rfl
  | .ckToForwarded .., _ => execCkToForwarded_same (.of .refl rfl) .rfl
  | .ckToFallback .., _ => execCkToFallback_same (.of .refl rfl) .rfl
  | .ckReturnOwn .., _ => execCkReturnOwn_same (.of .refl rfl) .rfl
  | .fallbackWaitExpiry .., _ => execFallbackWaitExpiry_same (.of .refl rfl) .rfl
  | .ckOpComplete .., _ => execCkOpComplete_same (.of .refl rfl) .rfl
  | .acqBlockEnd .., _ => execAcqBlockEnd_same (.of .refl rfl) .rfl
  | .acqTimeout .., _ => execAcqTimeout_same (.of .refl rfl) .rfl
  | .trackVisitEnd .., _ => execTrackVisitEnd_same (.of .refl rfl) .rfl
  | .trackUpdateApply .., _ => execTrackUpdateApply_same (.of .refl rfl) .rfl
  | .adaptReacquire .., _ => execAdaptReacquire_same (.of .refl rfl) .rfl
  | .adaptFreeze .., _ => execAdaptFreeze_same (.of .refl rfl) .rfl
  | .adaptThaw .., _ => execAdaptThaw_same (.of .refl rfl) .rfl
  | .dfeSelWrite .., _ => execDfeSelWrite_same (.of .refl rfl) .rfl
  | .btLoad, _ => execBtLoad_same (.of .refl rfl) .rfl
  | .btLoadDone .., _ => execBtLoadDone_same (.of .refl rfl) .rfl
  | .flashCommand .., _ => execFlashCommand_same (.of .refl rfl) .rfl
  | .flashCommandDone .., _ => execFlashCommandDone_same (.of .refl rfl) .rfl
  | .capReceive .., _ => execCapReceive_same (.of .refl rfl) .rfl
  | .rateReceive .., _ => execRateReceive_same (.of .refl rfl) .rfl
  | .rateAckReceive .., _ => execRateAckReceive_same (.of .refl rfl) .rfl
  | .readyReceive .., _ => execReadyReceive_same (.of .refl rfl) .rfl
  | .echoReqReceive .., _ => execEchoReqReceive_same (.of .refl rfl) .rfl
  | .echoRspReceive .., _ => execEchoRspReceive_same (.of .refl rfl) .rfl
  | .retrainReceive .., _ => execRetrainReceive_same (.of .refl rfl) .rfl
  | .denseReqReceive .., _ => execDenseReqReceive_same (.of .refl rfl) .rfl
  | .denseRelReceive .., _ => execDenseRelReceive_same (.of .refl rfl) .rfl
  | .capSettleExpiry .., _ => execCapSettleExpiry_same (.of .refl rfl) .rfl
  | .switchIdleEnd .., _ => execSwitchIdleEnd_same (.of .refl rfl) .rfl
  | .dwellEnd .., _ => execDwellEnd_same (.of .refl rfl) .rfl
  | .rungMaxExpiry .., _ => execRungMaxExpiry_same (.of .refl rfl) .rfl
  | .trainMaxExpiry .., _ => execTrainMaxExpiry_same (.of .refl rfl) .rfl
  | .retrainMaxExpiry .., _ => execRetrainMaxExpiry_same (.of .refl rfl) .rfl
  | .rateResend .., _ => execRateResend_same (.of .refl rfl) .rfl
  | .echoWaitExpiry .., _ => execEchoWaitExpiry_same (.of .refl rfl) .rfl
  | .downHoldEnd .., _ => execDownHoldEnd_same (.of .refl rfl) .rfl
  | .goTime, _ => execGoTime_same (.of .refl rfl) .rfl
  | .tUpBegin .., _ => execTUpBegin_same (.of .refl rfl) .rfl
  | .trnRetrain .., _ => execTrnRetrain_same (.of .refl rfl) .rfl
  | .trnStep .., _ => execTrnStep_same (.of .refl rfl) .rfl
  | .trnDown .., _ => execTrnDown_same (.of .refl rfl) .rfl
  | .trnRestart .., _ => execTrnRestart_same (.of .refl rfl) .rfl
  | .flitReceive .., _ => execFlitReceive_same (.of .refl rfl) .rfl
  | .controlFlitReceive .., _ => execControlFlitReceive_same (.of .refl rfl) .rfl
  | .fltSnap .., _ => execFltSnap_same (.of .refl rfl) .rfl
  | .fltClr .., _ => execFltClr_same (.of .refl rfl) .rfl
  | .darnTimerExpiry .., _ => execDarnTimerExpiry_same (.of .refl rfl) .rfl
  | .darnSnap .., _ => execDarnSnap_same (.of .refl rfl) .rfl
  | .darnClr .., _ => execDarnClr_same (.of .refl rfl) .rfl
  | .drnAckReceive .., _ => execDrnAckReceive_same (.of .refl rfl) .rfl
  | .drnNakReceive .., _ => execDrnNakReceive_same (.of .refl rfl) .rfl
  | .drnProbeReceive .., _ => execDrnProbeReceive_same (.of .refl rfl) .rfl
  | .drnEchoReceive .., _ => execDrnEchoReceive_same (.of .refl rfl) .rfl
  | .spanTimerExpiry .., _ => execSpanTimerExpiry_same (.of .refl rfl) .rfl
  | .drnAckTimer .., _ => execDrnAckTimer_same (.of .refl rfl) .rfl
  | .probeInterval .., _ => execProbeInterval_same (.of .refl rfl) .rfl
  | .probeWaitExpiry .., _ => execProbeWaitExpiry_same (.of .refl rfl) .rfl
  | .proxyAckTimer .., _ => execProxyAckTimer_same (.of .refl rfl) .rfl
  | .trunkAckRefresh .., _ => execTrunkAckRefresh_same (.of .refl rfl) .rfl
  | .trkSnap .., _ => execTrkSnap_same (.of .refl rfl) .rfl
  | .trkClr .., _ => execTrkClr_same (.of .refl rfl) .rfl
  | .controlFlitDue .., _ => execControlFlitDue_same (.of .refl rfl) .rfl
  | .llTornWindowEnd .., _ => execLlTornWindowEnd_same (.of .refl rfl) .rfl
  | .llDrainEnd .., _ => execLlDrainEnd_same (.of .refl rfl) .rfl
  | .llCacheRefresh .., _ => execLlCacheRefresh_same (.of .refl rfl) .rfl
  | .llSnap .., _ => execLlSnap_same (.of .refl rfl) .rfl
  | .llClr .., _ => execLlClr_same (.of .refl rfl) .rfl
  | .calSnap .., _ => execCalSnap_same (.of .refl rfl) .rfl
  | .calClr .., _ => execCalClr_same (.of .refl rfl) .rfl
  | .qstSelWrite .., _ => execQstSelWrite_same (.of .refl rfl) .rfl
  | .remirror .., _ => execRemirror_same (.of .refl rfl) .rfl
  | .ceWindowEnd .., _ => execCeWindowEnd_same (.of .refl rfl) .rfl
  | .bankSaveDone .., _ => execBankSaveDone_same (.of .refl rfl) .rfl
  | .bankTestEnd .., _ => execBankTestEnd_same (.of .refl rfl) .rfl
  | .bankRestoreDone .., _ => execBankRestoreDone_same (.of .refl rfl) .rfl
  | .evacuationDone .., _ => execEvacuationDone_same (.of .refl rfl) .rfl
  | .bufRetire .., _ => execBufRetire_same (.of .refl rfl) .rfl
  | .bufReturn .., _ => execBufReturn_same (.of .refl rfl) .rfl
  | .bufTestNow .., _ => execBufTestNow_same (.of .refl rfl) .rfl
  | .bufSnap .., _ => execBufSnap_same (.of .refl rfl) .rfl
  | .bufClr .., _ => execBufClr_same (.of .refl rfl) .rfl
  | .descSelWrite .., _ => execDescSelWrite_same (.of .refl rfl) .rfl
  | .prkCommit, _ => execPrkCommit_same (.of .refl rfl) .rfl
  | .prkCheck, _ => execPrkCheck_same (.of .refl rfl) .rfl
  | .prkRevert, _ => execPrkRevert_same (.of .refl rfl) .rfl
  | .lnkCommit .., _ => execLnkCommit_same (.of .refl rfl) .rfl
  | .checkEnd, _ => execCheckEnd_same (.of .refl rfl) .rfl
  | .tApply, _ => execTApply_same (.of .refl rfl) .rfl
  | .recheckStart .., _ => execRecheckStart_same (.of .refl rfl) .rfl
  | .bobbinAcqLimit .., _ => execBobbinAcqLimit_same (.of .refl rfl) .rfl
  | .bobbinSwitch .., _ => execBobbinSwitch_same (.of .refl rfl) .rfl
  | .swapAbandon .., _ => execSwapAbandon_same (.of .refl rfl) .rfl
  | .oldTxIdle .., _ => execOldTxIdle_same (.of .refl rfl) .rfl
  | .swpSwap .., _ => execSwpSwap_same (.of .refl rfl) .rfl
  | .swpReturn .., _ => execSwpReturn_same (.of .refl rfl) .rfl
  | .swpEnable .., _ => execSwpEnable_same (.of .refl rfl) .rfl
  | .swpDisable .., _ => execSwpDisable_same (.of .refl rfl) .rfl
  | .sideMapWrite .., _ => execSideMapWrite_same (.of .refl rfl) .rfl
  | .lanePosWrite .., _ => execLanePosWrite_same (.of .refl rfl) .rfl
  | .mapDrainEnd .., _ => execMapDrainEnd_same (.of .refl rfl) .rfl
  | .mapTornEnd .., _ => execMapTornEnd_same (.of .refl rfl) .rfl
  | .mapCacheRefresh .., _ => execMapCacheRefresh_same (.of .refl rfl) .rfl
  | .nativeJudgePass, _ => execNativeJudgePass_same (.of .refl rfl) .rfl
  | .compatJudgeEnd .., _ => execCompatJudgeEnd_same (.of .refl rfl) .rfl
  | .ifoReady, _ => execIfoReady_same (.of .refl rfl) .rfl
  | .ifoReadyTimeout, _ => execIfoReadyTimeout_same (.of .refl rfl) .rfl
  | .ifoMeasureEnd .., _ => execIfoMeasureEnd_same (.of .refl rfl) .rfl
  | .monitorWindowEnd .., _ => execMonitorWindowEnd_same (.of .refl rfl) .rfl
  | .pllHoldover .., _ => execPllHoldover_same (.of .refl rfl) .rfl
  | .refclkReturn .., _ => execRefclkReturn_same (.of .refl rfl) .rfl
  | .pllIfoLock .., _ => execPllIfoLock_same (.of .refl rfl) .rfl
  | .returnHoldExpiry, _ => execReturnHoldExpiry_same (.of .refl rfl) .rfl
  | .clkCfgWrite .., _ => execClkCfgWrite_same (.of .refl rfl) .rfl
  | .ifoLoss, _ => execIfoLoss_same (.of .refl rfl) .rfl
  | .clockUnusableFence, _ => execClockUnusableFence_same (.of .refl rfl) .rfl
  | .corePllUnlock .., _ => execCorePllUnlock_same (.of .refl rfl) .rfl
  | .corePllRelock .., _ => execCorePllRelock_same (.of .refl rfl) .rfl
  | .plRequest .., _ => execPlRequest_same (.of .refl rfl) .rfl
  | .plVoltageSettled .., _ => execPlVoltageSettled_same (.of .refl rfl) .rfl
  | .plDividerSwitched .., _ => execPlDividerSwitched_same (.of .refl rfl) .rfl
  | .mgmtPllUnlock, _ => execMgmtPllUnlock_same (.of .refl rfl) .rfl
  | .seamPllUnlock, _ => execSeamPllUnlock_same (.of .refl rfl) .rfl
  | .clkEnWrite .., _ => execClkEnWrite_same (.of .refl rfl) .rfl
  | .fmStart, _ => execFmStart_same (.of .refl rfl) .rfl
  | .fmRunEnd .., _ => execFmRunEnd_same (.of .refl rfl) .rfl
  | .watchEnter .., _ => execWatchEnter_same (.of .refl rfl) .rfl
  | .watchWake, _ => execWatchWake_same (.of .refl rfl) .rfl
  | .wakeNLow, _ => execWakeNLow_same (.of .refl rfl) .rfl
  | .wakeSigdet .., _ => execWakeSigdet_same (.of .refl rfl) .rfl
  | .wakeSource .., _ => execWakeSource_same (.of .refl rfl) .rfl
  | .wakeIfoTimeout, _ => execWakeIfoTimeout_same (.of .refl rfl) .rfl
  | .tempSample .., _ => execTempSample_same (.of .refl rfl) .rfl
  | .calRunStart .., _ => execCalRunStart_same (.of .refl rfl) .rfl
  | .calRunEnd .., _ => execCalRunEnd_same (.of .refl rfl) .rfl
  | .calStepApply .., _ => execCalStepApply_same (.of .refl rfl) .rfl
  | .rextFault, _ => execRextFault_same (.of .refl rfl) .rfl
  | .rextFaultClear, _ => execRextFaultClear_same (.of .refl rfl) .rfl
  | .calEnd .., _ => execCalEnd_same (.of .refl rfl) .rfl
  | .calAll .., _ => execCalAll_same (.of .refl rfl) .rfl
  | .calEye .., _ => execCalEye_same (.of .refl rfl) .rfl
  | .eyeEnd .., _ => execEyeEnd_same (.of .refl rfl) .rfl
  | .calSelWrite .., _ => execCalSelWrite_same (.of .refl rfl) .rfl
  | .sliceInterval, _ => execSliceInterval_same (.of .refl rfl) .rfl
  | .bobbinSliceEnd .., _ => execBobbinSliceEnd_same (.of .refl rfl) .rfl
  | .bistStall .., _ => execBistStall_same (.of .refl rfl) .rfl
  | .bstBobbinNow .., _ => execBstBobbinNow_same (.of .refl rfl) .rfl
  | .bstAbort, _ => execBstAbort_same (.of .refl rfl) .rfl
  | .bstFull, _ => execBstFull_same (.of .refl rfl) .rfl
  | .bstTestEnter .., _ => execBstTestEnter_same (.of .refl rfl) .rfl
  | .bstCfgWrite .., _ => execBstCfgWrite_same (.of .refl rfl) .rfl
  | .lbCfgWrite .., _ => execLbCfgWrite_same (.of .refl rfl) .rfl
  | .prbsGenWrite .., _ => execPrbsGenWrite_same (.of .refl rfl) .rfl
  | .prbsChkWrite .., _ => execPrbsChkWrite_same (.of .refl rfl) .rfl
  | .prbsLock .., _ => execPrbsLock_same (.of .refl rfl) .rfl
  | .prbsLockLoss .., _ => execPrbsLockLoss_same (.of .refl rfl) .rfl
  | .prbsErrThreshold .., _ => execPrbsErrThreshold_same (.of .refl rfl) .rfl
  | .prbsSnap .., _ => execPrbsSnap_same (.of .refl rfl) .rfl
  | .prbsClr .., _ => execPrbsClr_same (.of .refl rfl) .rfl
  | .testEnHigh, _ => execTestEnHigh_same (.of .refl rfl) .rfl
  | .extest, _ => execExtest_same (.of .refl rfl) .rfl
  | .samplePreload, _ => execSamplePreload_same (.of .refl rfl) .rfl
  | .idcode, _ => execIdcode_same (.of .refl rfl) .rfl
  | .clamp, _ => execClamp_same (.of .refl rfl) .rfl
  | .highz, _ => execHighz_same (.of .refl rfl) .rfl
  | .extestPulse, _ => execExtestPulse_same (.of .refl rfl) .rfl
  | .extestTrain, _ => execExtestTrain_same (.of .refl rfl) .rfl
  | .scanEntry, _ => execScanEntry_same (.of .refl rfl) .rfl
  | .bypass, _ => execBypass_same (.of .refl rfl) .rfl
  | .jtagTrst, _ => execJtagTrst_same (.of .refl rfl) .rfl
  | .supplyWarnSet .., _ => execSupplyWarnSet_same (.of .refl rfl) .rfl
  | .supplyWarnClear .., _ => execSupplyWarnClear_same (.of .refl rfl) .rfl
  | .supplySample .., _ => execSupplySample_same (.of .refl rfl) .rfl
  | .startStepEnd .., _ => execStartStepEnd_same (.of .refl rfl) .rfl
  | .ringWaitEnd, _ => execRingWaitEnd_same (.of .refl rfl) .rfl
  | .bootRelease, _ => execBootRelease_same (.of .refl rfl) .rfl
  | .fenceCmdFence .., _ => execFenceCmdFence_same (.of .refl rfl) .rfl
  | .fenceCmdLift .., _ => execFenceCmdLift_same (.of .refl rfl) .rfl
  | .softReset .., _ => execSoftReset_same (.of .refl rfl) .rfl
  | .sourceInput .., _ => execSourceInput_same (.of .refl rfl) .rfl
  | .intClaim .., _ => execIntClaim_same (.of .refl rfl) .rfl
  | .intComplete .., _ => execIntComplete_same (.of .refl rfl) .rfl
  | .doorbellWrite .., _ => execDoorbellWrite_same (.of .refl rfl) .rfl
  | .srcCfgWrite .., _ => execSrcCfgWrite_same (.of .refl rfl) .rfl
  | .ringDeliverSend .., _ => execRingDeliverSend_same (.of .refl rfl) .rfl
  | .deliverResend .., _ => execDeliverResend_same (.of .refl rfl) .rfl
  | .spiWrite .., _ => execSpiWrite_same (.of .refl rfl) .rfl
  | .spiRead .., _ => execSpiRead_same (.of .refl rfl) .rfl
  | .spiWriteBlock .., _ => execSpiWriteBlock_same (.of .refl rfl) .rfl
  | .spiReadBlock .., _ => execSpiReadBlock_same (.of .refl rfl) .rfl
  | .spiFetch .., _ => execSpiFetch_same (.of .refl rfl) .rfl
  | .spiStatus .., _ => execSpiStatus_same (.of .refl rfl) .rfl
  | .spiBadOpcode .., _ => execSpiBadOpcode_same (.of .refl rfl) .rfl
  | .smbPointer .., _ => execSmbPointer_same (.of .refl rfl) .rfl
  | .smbWrite .., _ => execSmbWrite_same (.of .refl rfl) .rfl
  | .smbRead .., _ => execSmbRead_same (.of .refl rfl) .rfl
  | .smbFetch, _ => execSmbFetch_same (.of .refl rfl) .rfl
  | .smbStatus, _ => execSmbStatus_same (.of .refl rfl) .rfl
  | .smbBusTimeout, _ => execSmbBusTimeout_same (.of .refl rfl) .rfl
  | .ringTrainReceive .., _ => execRingTrainReceive_same (.of .refl rfl) .rfl
  | .ringTrainSend, _ => execRingTrainSend_same (.of .refl rfl) .rfl
  | .hopBroken .., _ => execHopBroken_same (.of .refl rfl) .rfl
  | .ringEnum .., _ => execRingEnum_same (.of .refl rfl) .rfl
  | .ringPresent .., _ => execRingPresent_same (.of .refl rfl) .rfl
  | .enumTimeout, _ => execEnumTimeout_same (.of .refl rfl) .rfl
  | .ringDone .., _ => execRingDone_same (.of .refl rfl) .rfl
  | .ringBreak .., _ => execRingBreak_same (.of .refl rfl) .rfl
  | .ringTime .., _ => execRingTime_same (.of .refl rfl) .rfl
  | .ringTimeSend, _ => execRingTimeSend_same (.of .refl rfl) .rfl
  | .timeLoss, _ => execTimeLoss_same (.of .refl rfl) .rfl
  | .ringGo .., _ => execRingGo_same (.of .refl rfl) .rfl
  | .goAuto, _ => execGoAuto_same (.of .refl rfl) .rfl
  | .ringReady .., _ => execRingReady_same (.of .refl rfl) .rfl
  | .ringReq .., _ => execRingReq_same (.of .refl rfl) .rfl
  | .ringRsp .., _ => execRingRsp_same (.of .refl rfl) .rfl
  | .remoteTimeout .., _ => execRemoteTimeout_same (.of .refl rfl) .rfl
  | .ringDeliver .., _ => execRingDeliver_same (.of .refl rfl) .rfl
  | .ringComplete .., _ => execRingComplete_same (.of .refl rfl) .rfl
  | .pctEnumerate, _ => execPctEnumerate_same (.of .refl rfl) .rfl
  | .pctGo, _ => execPctGo_same (.of .refl rfl) .rfl
  | .selReadReq .., _ => execSelReadReq_same (.of .refl rfl) .rfl
  | .selWriteReq .., _ => execSelWriteReq_same (.of .refl rfl) .rfl
  | .selAttestReq .., _ => execSelAttestReq_same (.of .refl rfl) .rfl
  | .selRequestServe, _ => execSelRequestServe_same (.of .refl rfl) .rfl
  | .keyLoad .., _ => execKeyLoad_same (.of .refl rfl) .rfl
  | .keyClear .., _ => execKeyClear_same (.of .refl rfl) .rfl
  | .keyEnroll .., _ => execKeyEnroll_same (.of .refl rfl) .rfl
  | .keyRevoke .., _ => execKeyRevoke_same (.of .refl rfl) .rfl
  | .attGenerate, _ => execAttGenerate_same (.of .refl rfl) .rfl
  | .attGenerateDone, _ => execAttGenerateDone_same (.of .refl rfl) .rfl
  | .prickingDigestDone, _ => execPrickingDigestDone_same (.of .refl rfl) .rfl
  | .loReadLatch .., _ => execLoReadLatch_same (.of .refl rfl) .rfl
  | .registerWrite .., _ => execRegisterWrite_same (.of .refl rfl) .rfl
  | .commaDetect .., _ => execCommaDetect_same (.of .refl rfl) .rfl
  | .aligningBadSymbol .., _ => execAligningBadSymbol_same (.of .refl rfl) .rfl
  | .lolWindowEnd .., _ => execLolWindowEnd_same (.of .refl rfl) .rfl
  | .switchoverLockExpiry .., _ => execSwitchoverLockExpiry_same (.of .refl rfl) .rfl
  | .mgmtPllRelock, _ => execMgmtPllRelock_same (.of .refl rfl) .rfl
  | .seamPllRelock, _ => execSeamPllRelock_same (.of .refl rfl) .rfl
  | .calCodeStep .., _ => execCalCodeStep_same (.of .refl rfl) .rfl
  | .postPauseLimit, _ => execPostPauseLimit_same (.of .refl rfl) .rfl
  | .prbsErrWindowEnd .., _ => execPrbsErrWindowEnd_same (.of .refl rfl) .rfl
  | .softResetDone .., _ => execSoftResetDone_same (.of .refl rfl) .rfl

theorem phase_bump {s : State} {f : Fld} : (s.bump f).dev.phase = s.dev.phase :=
  (bump_same (.of .refl rfl) .rfl).phase

theorem phase_resetTo {kind : Nat} {s : State} : (resetTo kind s).dev.phase = .off := by
  by_cases powerOn : kind = 1
  · simp only [resetTo, powerOn, if_true]
    rfl
  · simp only [resetTo, powerOn, if_false]
    rfl

section moves

variable {s t : State}

theorem powerOnReset_phase (goes : exec .powerOnReset s = .next t) : t.dev.phase = .off := by
  cases goes
  exact phase_resetTo

theorem pinReset_phase (goes : exec .pinReset s = .next t) : t.dev.phase = .off := by
  cases goes
  split
  case isTrue off => exact phase_bump.trans off
  case isFalse => exact phase_bump.trans phase_resetTo

theorem brownOutReset_phase {x : RailAt} (goes : exec (.brownOutReset x) s = .next t) :
    t.dev.phase = s.dev.phase ∨ t.dev.phase = .off := by
  rcases Bool.eq_false_or_eq_true (decide (x.rail < 4)) with there | absent
  · rw [show exec (.brownOutReset x) s = _ from onUnit_of_present there] at goes
    cases goes
    split
    case isTrue => exact .inl rfl
    case isFalse => exact .inr (phase_bump.trans phase_resetTo)
  · rw [show exec (.brownOutReset x) s = _ from onUnit_of_absent absent] at goes
    cases goes

theorem resetRelease_phase {v : Nat} (goes : exec (.resetRelease v) s = .next t) :
    t.dev.phase = s.dev.phase ∨ s.dev.phase = .off ∧ t.dev.phase = .start := by
  cases goes
  split
  case isTrue off => exact .inr ⟨off, (judgeStart_same (.of .refl rfl) .rfl).phase.trans rfl⟩
  case isFalse => exact .inl rfl

theorem phase_sendReady_unless_held : (if s.dev.held then s else s.sendReady).dev.phase = s.dev.phase :=
  (same_ite .rfl (sendReady_same (.of .refl rfl) .rfl)).phase

theorem startComplete_phase (goes : exec .startComplete s = .next t) :
    t.dev.phase = s.dev.phase ∨ s.dev.phase = .start ∧ t.dev.phase = .run := by
  cases goes
  split
  case isTrue ends =>
    simp only [Bool.and_eq_true, decide_eq_true_eq] at ends
    obtain ⟨⟨⟨starting, _⟩, _⟩, _⟩ := ends
    refine .inr ⟨starting, ?_⟩
    dsimp only
    refine (haltFenced_same (.of .refl rfl) .rfl).phase.trans ?_
    split <;> exact phase_sendReady_unless_held.trans rfl
  case isFalse => exact .inl rfl

theorem watchEntryDone_phase (goes : exec .watchEntryDone s = .next t) :
    t.dev.phase = s.dev.phase ∨ s.dev.watchEntry = true ∧ t.dev.phase = .watch := by
  cases goes
  split
  case isTrue ends =>
    simp only [Bool.and_eq_true] at ends
    obtain ⟨⟨entry, _⟩, _⟩ := ends
    exact .inr ⟨entry, rfl⟩
  case isFalse => exact .inl rfl

/-- What follows a wake once the package runs again. -/
theorem phase_serviceResumed :
    (suspectSlices (trainAll (haltFenced (enterKept
      (if s.rd (R.CLK_EN_en 7) = 1 then bistResume s else s))))).dev.phase = s.dev.phase :=
  (suspectSlices_same (.of .refl rfl) (trainAll_same (.of .refl rfl) (haltFenced_same (.of .refl rfl)
    (enterKept_same (.of .refl rfl) (same_ite (bistResume_same (.of .refl rfl) .rfl) .rfl))))).phase

theorem wakeComplete_phase (goes : exec .wakeComplete s = .next t) :
    t.dev.phase = s.dev.phase ∨ s.dev.waking = true ∧ t.dev.phase = .run := by
  cases goes
  split
  case isTrue ends =>
    simp only [Bool.and_eq_true] at ends
    obtain ⟨waking, _⟩ := ends
    refine .inr ⟨waking, ?_⟩
    dsimp only
    rw [phase_serviceResumed]
    rfl
  case isFalse => exact .inl rfl

theorem testEntryDone_phase {us : Nat} (goes : exec (.testEntryDone us) s = .next t) :
    t.dev.phase = s.dev.phase ∨ s.dev.testEntry ≠ 0 ∧ t.dev.phase = .test := by
  cases goes
  split
  case isTrue => exact .inl rfl
  case isFalse goes =>
    simp only [Bool.or_eq_true, not_or, decide_eq_true_eq] at goes
    obtain ⟨⟨⟨entry, _⟩, _⟩, _⟩ := goes
    exact .inr ⟨entry, rfl⟩

end moves

/-- Settles O4: the commands that move the phase, each by what it does to it; every other command leaves it alone. -/
theorem deviceStateMovesOnlyAsItsTableSays : Obligations.DeviceStateMovesOnlyAsItsTableSays := by
  unfold Obligations.DeviceStateMovesOnlyAsItsTableSays
  intro c s t goes
  cases moves : movesPhase c with
  | false => exact .inl ((exec_same_phase c moves).out t goes).phase
  | true =>
    unfold movesPhase at moves
    split at moves
    case h_1 v =>
      obtain same | ⟨off, starts⟩ := resetRelease_phase goes
      · exact .inl same
      · exact .inr (.inl ⟨v, rfl, off, starts⟩)
    case h_2 =>
      obtain same | starts := startComplete_phase goes
      · exact .inl same
      · exact .inr (.inr (.inl ⟨rfl, starts⟩))
    case h_3 =>
      obtain same | enters := watchEntryDone_phase goes
      · exact .inl same
      · exact .inr (.inr (.inr (.inl ⟨rfl, enters⟩)))
    case h_4 =>
      obtain same | wakes := wakeComplete_phase goes
      · exact .inl same
      · exact .inr (.inr (.inr (.inr (.inl ⟨rfl, wakes⟩))))
    case h_5 us =>
      obtain same | enters := testEntryDone_phase goes
      · exact .inl same
      · exact .inr (.inr (.inr (.inr (.inr (.inl ⟨us, rfl, enters⟩)))))
    case h_6 => exact .inr (.inr (.inr (.inr (.inr (.inr ⟨.inl rfl, powerOnReset_phase goes⟩)))))
    case h_7 => exact .inr (.inr (.inr (.inr (.inr (.inr ⟨.inr (.inl rfl), pinReset_phase goes⟩)))))
    case h_8 x =>
      obtain same | resets := brownOutReset_phase goes
      · exact .inl same
      · exact .inr (.inr (.inr (.inr (.inr (.inr ⟨.inr (.inr ⟨x, rfl⟩), resets⟩)))))
    case h_9 => cases moves


end Sys2Proof.Machine
end

section
/-!
Register commands in a page that does not answer (R346, R352, R474, R483): each is guarded by its page, and where it names a unit
by that unit, so a proof about it needs only which page and unit they are.
-/

namespace Sys2Proof.Machine

/-- Whether the page of a register command answers, and the unit it names is there; every other command passes. -/
def registerAnswers (s : State) : Instr → Bool
| .terminationDetect c _ _ _ | .cntSnap c | .cntCtlClear c | .ckToForwarded c _ | .ckToFallback c _
  | .ckReturnOwn c _ => c < clustersOf s && pageOpen s (0x10 + c)
  | .leCfgWrite n _ => lanePresent s n && pageOpen s (0x10 + laneCluster n)
  | .adaptReacquire c _ _ | .adaptFreeze c _ _ | .adaptThaw c _ _ | .dfeSelWrite c _ | .calEnd c _
  | .calAll c | .calEye c _ | .calSelWrite c _ => c < clustersOf s && pageOpen s (0x20 + c)
  | .btLoad | .flashCommand _ => pageOpen s 0xE
  | .trnRetrain k _ | .trnStep k _ _ | .trnDown k | .trnRestart k _ | .fltSnap k | .fltClr k | .darnSnap k
  | .darnClr k | .trkSnap k | .trkClr k | .lnkCommit k _ => k < linksOf s && pageOpen s (0x40 + k)
  | .llSnap p | .llClr p => p < lltPages s && pageOpen s (0xC0 + p)
  | .calSnap cal | .calClr cal => cal < calsOf s && pageOpen s (0xC8 + cal / 2)
  | .qstSelWrite die _ => die < diesOf s && pageOpen s (0xD0 + die)
  | .bufRetire die _ | .bufReturn die _ | .bufTestNow die _ | .bufSnap die | .bufClr die
  | .descSelWrite die _ => die < diesOf s && pageOpen s (0x38 + die)
  | .prkCommit | .prkCheck | .prkRevert => pageOpen s 0xC
  | .swpSwap _ _ | .swpReturn _ | .swpEnable _ | .swpDisable _ => pageOpen s 0xD
  | .sideMapWrite e _ => e < 2 * linksOf s && pageOpen s 0xD
  | .lanePosWrite lane _ => lane < lanesOf s && pageOpen s 0xD
  | .clkCfgWrite _ | .fmStart => pageOpen s 1
  | .plRequest _ _ | .watchEnter _ | .watchWake => pageOpen s 2
  | .bstBobbinNow _ | .bstAbort | .bstFull | .bstTestEnter _ | .bstCfgWrite _ | .lbCfgWrite _ _
  | .prbsGenWrite _ _ | .prbsChkWrite _ _ | .prbsSnap _ | .prbsClr _ => pageOpen s 7
  | .bootRelease | .fenceCmdFence _ | .fenceCmdLift _ => pageOpen s 0
  | .softReset page => pageOpen s page
  | .doorbellWrite _ => pageOpen s 4
  | .srcCfgWrite _ _ => pageOpen s 6
  | .pctEnumerate | .pctGo => pageOpen s 0xA
  | .keyLoad _ | .keyClear _ | .keyEnroll _ | .keyRevoke _ | .attGenerate => pageOpen s 8
  | _ => true

/-- What a register command leaves where its page does not answer: a read answers zero, a write is dropped. -/
def unanswered (s : State) : Instr → State
  | .cntSnap _ | .fltSnap _ | .darnSnap _ | .trkSnap _ | .llSnap _ | .calSnap _ | .bufSnap _ | .prbsSnap _ => s.answerWord 0
  | _ => s

/-- The guard of each register command is the one that `registerAnswers` names. -/
theorem exec_of_unanswered {s : State} {c : Instr} (silent : registerAnswers s c = false) :
    exec c s = .next (unanswered s c) := by
  unfold registerAnswers at silent
  split at silent
  rotate_right
  · contradiction
  all_goals exact congrArg Host.Outcome.next (if_neg (ne_true_of_eq_false silent))

/-- Settles O9: in each clause the hypothesis says that the page of the command, or its unit, is not there. -/
theorem closedPagesDropCommands : Obligations.ClosedPagesDropCommands := by
  unfold Obligations.ClosedPagesDropCommands
  and_intros
  all_goals
    intros
    rename_i closed
    exact exec_of_unanswered (by
      simpa only [registerAnswers, Bool.and_eq_false_iff, decide_eq_false_iff_not, Bool.not_eq_true] using closed)

end Sys2Proof.Machine
end

section
/-!
A step on an empty queue (R325, R387, R450; log 10), the state after reset (R465, R471, R495), the FAULT_N pin and the lane
numbers (R8, R471), and what a stored register field reads (R482, R491).
-/

namespace Sys2Proof.Machine

/-! ## An idle step -/

theorem step_idle {s : State} (idle : s.pending = []) : step s = .next (tick s) := by
  simp only [step, idle]

theorem tick_off {s : State} (off : s.dev.phase = .off) : tick s = s := if_pos off

theorem tick_running {s u : State} (ticked : u = genTicks (nbrSwitched { s with clock := s.clock + 1 }))
    (on : s.dev.phase ≠ .off) :
    tick s = if u.ring.hold = 0 then { u with fab := u.fab + 1 }
      else { u with ring := { u.ring with hold := u.ring.hold - 1 } } := by
  simp only [tick, on, if_false, ← ticked]

/-- A fold whose every step leaves its start alone. -/
theorem foldl_eq_self {α β : Type} {f : α → β → α} {a : α} : ∀ {l : List β}, (∀ b ∈ l, f a b = a) → l.foldl f a = a
  | [], _ => rfl
  | b :: l, same => by
    rw [List.foldl_cons, same b List.mem_cons_self]
    exact foldl_eq_self fun c mem => same c (List.mem_cons_of_mem b mem)

theorem nbrSwitched_none {s : State} (none : ∀ c < 16, (s.bob c).nbrAt = none) : nbrSwitched s = s :=
  foldl_eq_self fun c mem => by simp only [none c (List.mem_range.mp mem)]

theorem genTicks_nil {s : State} (nil : genEnds s = []) : genTicks s = s := by
  simp only [genTicks, nil, List.foldl_nil]

/-- Settles O7: a tick by the phase, the hold and what runs in it. -/
theorem idleStepIsOneNanosecond : Obligations.IdleStepIsOneNanosecond := by
  unfold Obligations.IdleStepIsOneNanosecond
  refine ⟨?off, ?counts, ?held, ?quiet, ?noWord, ?noFetch⟩
  case off =>
    intro s idle off
    rw [step_idle idle, tick_off off]
  case counts =>
    intro s u ticked idle on free
    rw [step_idle idle, tick_running ticked on, if_pos free]
  case held =>
    intro s u ticked idle on held
    rw [step_idle idle, tick_running ticked on, if_neg held]
  case quiet =>
    intro s none nil
    rw [nbrSwitched_none (s := { s with clock := s.clock + 1 }) none, genTicks_nil (s := { s with clock := s.clock + 1 }) nil]
  case noWord => exact fun _ _ => rfl
  case noFetch => exact fun _ _ _ => rfl

/-! ## The state after reset -/

/-- In OFF no page answers. -/
theorem pageOpen_off {s : State} {p : Nat} (off : s.dev.phase = .off) : pageOpen s p = false := by
  simp only [pageOpen, phaseOpens, off, Bool.and_false, Bool.false_and]

/-- Settles O5: the tables are empty and the package is in OFF. -/
theorem resetState : Obligations.ResetState := by
  unfold Obligations.ResetState
  refine ⟨rfl, fun _ => rfl, fun _ => rfl, rfl, rfl, fun _ => pageOpen_off rfl, rfl, rfl, rfl, rfl, ?_, ?_⟩
  · decide
  · decide

/-! ## FAULT_N and the lanes -/

/-- FAULT_N by the phase. -/
theorem faultN_iff {s : State} : faultN s = true ↔ s.dev.phase = .off ∨ s.dev.phase = .start ∨
    ((s.dev.phase = .run ∨ s.dev.phase = .test) ∧ pkgFenced s = true) ∨ (s.dev.phase = .watch ∧ s.dev.stuck = true) := by
  cases phase : s.dev.phase <;> simp [faultN, phase]

theorem laneAt_data {n : Nat} (data : n < 128) : laneCluster n = n / 8 ∧ lanePos n = n % 8 ∧ laneAt (n / 8) (n % 8) = n := by
  have pos : n % 8 < 8 := by omega
  simp only [laneCluster, lanePos, laneAt, data, pos, if_true, true_and]
  omega

theorem laneAt_bobbin {c : Nat} : laneAt c 8 = 128 + c ∧ laneCluster (128 + c) = c ∧ lanePos (128 + c) = 8 := by
  have above : ¬ 128 + c < 128 := by omega
  simp only [laneAt, laneCluster, lanePos, above, if_false, Nat.lt_irrefl, true_and, and_true]
  omega

/-- Settles O60: the pin by the phase, the lanes by division. -/
theorem faultPinAndLaneNumbers : Obligations.FaultPinAndLaneNumbers := by
  unfold Obligations.FaultPinAndLaneNumbers
  exact ⟨fun _ => faultN_iff, fun _ data => laneAt_data data, fun _ _ => laneAt_bobbin⟩

/-! ## The register store -/

/-- Settles O10: what a write leaves in its field, in the others and in the form of the tables. -/
theorem registersHoldWhatIsStored : Obligations.RegistersHoldWhatIsStored := by
  unfold Obligations.RegistersHoldWhatIsStored
  intro s f v canonical
  exact ⟨rd_wr_same (tablesCanonical_regs canonical), fun g other => rd_wr_ne other, rfl,
    (wr_kept .rfl).canon canonical⟩

end Sys2Proof.Machine
end

section
/-!
TEST entry (R390) and the JTAG instructions (R392).
-/

namespace Sys2Proof.Machine

/-! ## TEST entry begins -/

section testEnter

variable {s u v w : State} {cause : Nat}

theorem testEnter_begins (raised : u = { s.raise 289 with dev := { s.dev with testEntry := cause } })
    (stopped : v = slicesEnd 1 resAborted causeHost (slicesEnd 0 resAborted causeHost u))
    (halted : w = (keysZeroed (haltAll (if s.dev.phase = .start then calClocks v else v))).wr R.KEY_STAT_session 0)
    (on : s.dev.phase ≠ .off) (outside : s.dev.phase ≠ .test) (idle : s.dev.testEntry = 0)
    (unfailed : startFailed s = false) :
    testEnter cause s =
      (((w.wr R.TEST_STAT_keys 1).wr R.TEST_STAT_fuse_block 1).wr R.SEC_STAT_fuse_block 1).wr R.ATT_CMD_busy 0 := by
  subst halted stopped raised
  simp only [testEnter, on, outside, idle, unfailed, ne_eq, not_true_eq_false, decide_false, Bool.or_self,
    Bool.false_eq_true, if_false, decide_eq_true_eq]

/-- In power-on reset, in TEST, in its entry and after a START failure nothing begins (log 279). -/
theorem testEnter_ignored
    (ignored : (s.dev.phase = .off || s.dev.phase = .test || s.dev.testEntry ≠ 0 || startFailed s) = true) :
    testEnter cause s = s := if_pos ignored

end testEnter

/-! ## Instructions that need TEST -/

section jtagTest

variable {op : Nat} (test : jtagTest op = true)

include test

theorem jtagLoad_test {s t : State} (loaded : t = { s with dev := { s.dev with jtag := op } }) :
    jtagLoad op s = testEnter 2 t := by
  subst loaded
  exact if_pos test

theorem jtagLoad_begins (s t u v w : State) (loaded : t = { s with dev := { s.dev with jtag := op } })
    (raised : u = { t.raise 289 with dev := { t.dev with testEntry := 2 } })
    (stopped : v = slicesEnd 1 resAborted causeHost (slicesEnd 0 resAborted causeHost u))
    (halted : w = (keysZeroed (haltAll (if t.dev.phase = .start then calClocks v else v))).wr R.KEY_STAT_session 0)
    (on : t.dev.phase ≠ .off) (outside : t.dev.phase ≠ .test) (idle : t.dev.testEntry = 0)
    (unfailed : startFailed t = false) :
    (.next (jtagLoad op s) : Host.Outcome State Fault Refusal) =
      .next ((((w.wr R.TEST_STAT_keys 1).wr R.TEST_STAT_fuse_block 1).wr R.SEC_STAT_fuse_block 1).wr R.ATT_CMD_busy 0) := by
  rw [jtagLoad_test test loaded, testEnter_begins raised stopped halted on outside idle unfailed]

theorem jtagLoad_ignored (s t : State) (loaded : t = { s with dev := { s.dev with jtag := op } })
    (ignored : (t.dev.phase = .off || t.dev.phase = .test || t.dev.testEntry ≠ 0 || startFailed t) = true) :
    (.next (jtagLoad op s) : Host.Outcome State Fault Refusal) = .next t := by
  rw [jtagLoad_test test loaded, testEnter_ignored ignored]

end jtagTest

/-- An instruction that does not need TEST is only loaded. -/
theorem jtagLoad_plain {op : Nat} {s : State} (plain : jtagTest op = false) :
    jtagLoad op s = { s with dev := { s.dev with jtag := op } } := if_neg (ne_true_of_eq_false plain)

theorem samplePreload_eq {s t u : State} {i : Nat} (loaded : t = { s with dev := { s.dev with jtag := 0x01 } })
    (drawn : t.draw = (i, u)) : samplePreload s = { u with dev := { u.dev with cells := i } } := by
  subst loaded
  simp only [samplePreload, jtagLoad_plain (op := 0x01) rfl, drawn]

/-- Settles O43: each instruction loads its code; the six marked TEST begin its entry, or not. -/
theorem jtagInstructions : Obligations.JtagInstructions := by
  unfold Obligations.JtagInstructions
  exact ⟨fun _ _ _ _ loaded drawn => congrArg Host.Outcome.next (samplePreload_eq loaded drawn), fun _ => rfl,
    fun _ => rfl, fun _ => rfl, jtagLoad_begins rfl, jtagLoad_ignored rfl, jtagLoad_begins rfl, jtagLoad_ignored rfl,
    jtagLoad_begins rfl, jtagLoad_ignored rfl, jtagLoad_begins rfl, jtagLoad_ignored rfl, jtagLoad_begins rfl,
    jtagLoad_ignored rfl, jtagLoad_begins rfl, jtagLoad_ignored rfl⟩

end Sys2Proof.Machine
end

section
/-!
The pricking unit (R291-R309): a submission begins or is refused, a check ends in an outcome or a T_apply, and the configuration
takes force.
-/

namespace Sys2Proof.Machine

/-! ## What a command that writes only registers leaves of the unit -/

theorem prkReport_prk {r : List Nat} {applied : Bool} {s : State} : (prkReport r applied s).prk = s.prk :=
  (prkReport_same (M := 0x1) .refl .rfl).out .prk rfl

theorem bump_prk {s : State} {f : Fld} : (s.bump f).prk = s.prk := (bump_same (M := 0x1) .refl .rfl).out .prk rfl

/-! ## Submissions (R291-R293) -/

section submits

variable {s : State} {op : Nat}

/-- Storing op and clearing wdrop leaves busy as it is. -/
theorem prkGo_busy : ((s.wr R.PRK_CMD_op op).wr R.PRK_STAT_wdrop 0).on R.PRK_CMD_busy = s.on R.PRK_CMD_busy := by
  rw [on_wr_ne (by decide), on_wr_ne (by decide)]

theorem prkGo_while_busy (busy : s.on R.PRK_CMD_busy = true) :
    prkGo op s = ((s.wr R.PRK_CMD_op op).wr R.PRK_STAT_wdrop 0).wr R.PRK_CMD_refused 1 := by
  simp only [prkGo, prkGo_busy, busy, Bool.true_or, if_true]

theorem prkGo_checks (ready : s.on R.PRK_CMD_busy = false) (submits : op < 2) :
    prkGo op s =
      checkBegin 0 0 (op = 1) (((s.wr R.PRK_CMD_op op).wr R.PRK_STAT_wdrop 0).wr R.PRK_CMD_refused 0) := by
  have known : ¬ 3 ≤ op := by omega
  have other : op ≠ 2 := by omega
  simp only [prkGo, prkGo_busy, ready, known, other, decide_false, Bool.or_self, Bool.false_eq_true, if_false]

theorem prkGo_reverts (ready : s.on R.PRK_CMD_busy = false) :
    prkGo 2 s = goStaged (bankOf s 0 0) (((s.wr R.PRK_CMD_op 2).wr R.PRK_STAT_wdrop 0).wr R.PRK_CMD_refused 0) := by
  simp only [prkGo, prkGo_busy, ready, show ¬ 3 ≤ 2 by decide, decide_false, Bool.or_self, Bool.false_eq_true, if_false,
    if_true]
  rfl

end submits

section linkSubmits

variable {s : State} {k : Nat} {checkOnly : Bool}

theorem linkGo_busy :
    ((s.wrB (R.COMMIT_check_only k) checkOnly).wr R.PRK_STAT_wdrop 0).on R.PRK_CMD_busy = s.on R.PRK_CMD_busy := by
  rw [on_wr_ne (by decide), on_wrB_ne]
  simp only [Fld.key, R.COMMIT_check_only, R.PRK_CMD_busy]
  omega

theorem linkGo_while_busy (busy : s.on R.PRK_CMD_busy = true) :
    linkGo k checkOnly s =
      ((s.wrB (R.COMMIT_check_only k) checkOnly).wr R.PRK_STAT_wdrop 0).wr (R.COMMIT_refused k) 1 := by
  simp only [linkGo, linkGo_busy, busy, if_true]

theorem linkGo_checks (ready : s.on R.PRK_CMD_busy = false) :
    linkGo k checkOnly s = checkBegin 1 k checkOnly
      (((s.wrB (R.COMMIT_check_only k) checkOnly).wr R.PRK_STAT_wdrop 0).wr (R.COMMIT_refused k) 0) := by
  simp only [linkGo, linkGo_busy, ready, Bool.false_eq_true, if_false]

end linkSubmits

/-! ## The end of an operation (R300, R301, R304) -/

/-- What is left once the outcome is reported and counted: the operation is over, and a re-check held meanwhile begins. -/
def prkOver (held : Bool) (u : State) : State :=
  if held then startRecheck 0 (({ u with prk := {} }.wr R.PRK_CMD_busy 0).raise 282)
  else ({ u with prk := {} }.wr R.PRK_CMD_busy 0).raise 282

section prkEnd

variable {s : State} {r : List Nat} {applied : Bool}

theorem prkEnd_submission {held : Bool} (submission : s.prk.origin ≠ 2) (waits : s.prk.heldRecheck = held) :
    prkEnd r applied s = prkOver held ((prkReport r applied s).bump
      (if r.getD 0 0 = 1 then R.PRK_CNT_accepted else R.PRK_CNT_refused)) := by
  simp only [prkEnd, prkReport_prk, submission, bump_prk, waits, if_false, prkOver]

variable {u : State} (reported : u = prkReport r applied s) (recheck : u.prk.origin = 2)

include reported recheck

theorem prkEnd_recheck_passes (passes : r.getD 0 0 = 1) : prkEnd r applied s = prkOver u.prk.heldRecheck u := by
  simp only [prkEnd, ← reported, recheck, passes, if_true, prkOver]

theorem prkEnd_recheck_fails (fails : r.getD 0 0 ≠ 1) :
    prkEnd r applied s = prkOver u.prk.heldRecheck (u.bump R.PRK_RECHK_failed) := by
  simp only [prkEnd, ← reported, recheck, fails, bump_prk, if_true, if_false, prkOver]

end prkEnd

/-! ## The end of a check (R301, R307) -/

section checkEnd

variable {s t : State} (timed : t = s.wr R.PRK_TIME_us (min ((s.clock - s.prk.startedAt) / 1000) 0xFFFF))
  (checking : s.prk.busy = true) (unapplied : s.prk.applyAt = none)

include timed checking unapplied

theorem checkEnd_outside (outside : inService s = false) :
    checkEnd s = prkEnd [2, 0, 0, 0, stateWord t, 0] false t := by
  subst timed
  have outside' : inService (s.wr R.PRK_TIME_us (min ((s.clock - s.prk.startedAt) / 1000) 0xFFFF)) = false := outside
  simp only [checkEnd, checking, unapplied, outside', prkState, Bool.not_true, Bool.not_false, Option.isSome_none,
    Bool.or_self, Bool.false_eq_true, if_false, if_true]

variable (serving : inService s = true)

include serving

/-- In service the verdict says how the check ends. -/
theorem checkEnd_inService :
    checkEnd s =
      if s.prk.origin = 2 then
        (if s.prk.verdict.getD 0 0 = 1 then prkEnd s.prk.verdict false (proofWrite t)
          else prkEnd s.prk.verdict false (recheckFails s.prk.verdict t))
      else if s.prk.verdict.getD 0 0 ≠ 1 || s.prk.checkOnly then prkEnd s.prk.verdict false t
      else { t with prk := { t.prk with applyAt := some (applyTime t.fab) } } := by
  subst timed
  have serving' : inService (s.wr R.PRK_TIME_us (min ((s.clock - s.prk.startedAt) / 1000) 0xFFFF)) = true := serving
  have checks : (!s.prk.busy || s.prk.applyAt.isSome) = false := by rw [checking, unapplied]; rfl
  simp only [checkEnd, checks, serving', wr_prk, Bool.not_true, Bool.false_eq_true, if_false]
  rfl

theorem checkEnd_waits (submission : s.prk.origin < 2) (passes : s.prk.verdict.getD 0 0 = 1)
    (applies : s.prk.checkOnly = false) :
    checkEnd s = { t with prk := { t.prk with applyAt := some (applyTime t.fab) } } := by
  rw [checkEnd_inService timed checking unapplied serving, if_neg (by omega),
    if_neg (by simp only [passes, applies, ne_eq, not_true_eq_false, decide_false, Bool.or_self, Bool.false_eq_true,
      not_false_eq_true])]

theorem checkEnd_submission (submission : s.prk.origin < 2)
    (ends : s.prk.verdict.getD 0 0 ≠ 1 ∨ s.prk.checkOnly = true) :
    checkEnd s = prkOver s.prk.heldRecheck ((prkReport s.prk.verdict false t).bump
      (if s.prk.verdict.getD 0 0 = 1 then R.PRK_CNT_accepted else R.PRK_CNT_refused)) := by
  have same : t.prk = s.prk := by rw [timed, wr_prk]
  have other : s.prk.origin ≠ 2 := by omega
  rw [checkEnd_inService timed checking unapplied serving, if_neg other,
    if_pos (by simpa only [Bool.or_eq_true, decide_eq_true_eq] using ends),
    prkEnd_submission (same ▸ other) (by rw [same])]

end checkEnd

/-! ## T_apply (R302) -/

section applyNow

variable {s : State} {at0 : Nat} (due : s.prk.applyAt = some at0) (reached : at0 ≤ s.fab)

include due reached

theorem applyNow_outside (outside : inService s = false) :
    applyNow s = prkEnd [2, 0, 0, 0, stateWord s, 0] false s := by
  simp only [applyNow, due, Nat.not_lt.mpr reached, outside, prkState, Bool.not_false, if_false, if_true]

theorem applyNow_inService {t u : State} (taken : t = applyConfig s)
    (ended : u = prkEnd s.prk.verdict true
      (applyFigures (proofWrite { t with prk := { s.prk with heldRecheck := t.prk.heldRecheck } })))
    (serving : inService s = true) :
    applyNow s = { u with sec := { u.sec with digestDue := true, applyStat := rawWord u 0xC 0x44 } } := by
  unfold applyNow
  split
  case h_1 undue =>
    rw [due] at undue
    cases undue
  case h_2 t0 same =>
    obtain rfl : at0 = t0 := Option.some.inj (due.symm.trans same)
    simp only [Nat.not_lt.mpr reached, serving, Bool.not_true, Bool.false_eq_true, if_false, ← taken, ← ended]

end applyNow

/-! ## Re-checks (R304; log 269) -/

section startRecheck

variable {s : State} {trigger : Nat}

theorem startRecheck_none (early : s.dev.phase = .off ∨ s.dev.phase = .start) : startRecheck trigger s = s :=
  if_pos (by simpa only [Bool.or_eq_true, decide_eq_true_eq] using early)

variable (on : s.dev.phase ≠ .off) (started : s.dev.phase ≠ .start)

include on started

theorem startRecheck_begins (ready : s.prk.busy = false) : startRecheck trigger s = checkBegin 2 0 false s := by
  simp only [startRecheck, on, started, ready, decide_false, Bool.or_self, Bool.false_eq_true, if_false]

theorem startRecheck_held (busy : s.prk.busy = true) :
    startRecheck trigger s = { s with prk := { s.prk with heldRecheck := true } } := by
  simp only [startRecheck, on, started, busy, decide_false, Bool.or_self, Bool.false_eq_true, if_false, if_true]

end startRecheck

/-! ## The commands, at a page that answers -/

section written

variable {s : State}

theorem exec_prkCommit_open (answers : pageOpen s 0xC = true) : exec .prkCommit s = .next (prkGo 0 s) :=
  congrArg Host.Outcome.next (ifOpen_open answers)

theorem exec_prkCheck_open (answers : pageOpen s 0xC = true) : exec .prkCheck s = .next (prkGo 1 s) :=
  congrArg Host.Outcome.next (ifOpen_open answers)

theorem exec_prkRevert_open (answers : pageOpen s 0xC = true) : exec .prkRevert s = .next (prkGo 2 s) :=
  congrArg Host.Outcome.next (ifOpen_open answers)

theorem exec_lnkCommit_open {k : Nat} {checkOnly : Bool} (there : k < linksOf s)
    (answers : pageOpen s (0x40 + k) = true) : exec (.lnkCommit k checkOnly) s = .next (linkGo k checkOnly s) :=
  congrArg Host.Outcome.next (ifHas_open (decide_eq_true there) answers)

end written

/-- Settles O32: a submission by its operation and busy, the end of a check by its origin and verdict, T_apply by the device
state, and a re-check by the phase and busy. -/
theorem prickingCommands : Obligations.PrickingCommands := by
  unfold Obligations.PrickingCommands
  refine ⟨?commit, ?check, ?revert, ?link, ?commitBusy, ?checkBusy, ?revertBusy, ?linkBusy, ?waits, ?fails, ?checked,
    ?recheckPasses, ?recheckFails, ?failsHeld, ?checkOutside, ?applies, ?applyOutside, ?recheckBegins, ?recheckHeld,
    ?recheckNone⟩
  case commit =>
    intro s answers ready
    rw [exec_prkCommit_open answers, prkGo_checks ready (by decide)]
    rfl
  case check =>
    intro s answers ready
    rw [exec_prkCheck_open answers, prkGo_checks ready (by decide)]
    rfl
  case revert =>
    intro s t cleared answers ready
    rw [exec_prkRevert_open answers, prkGo_reverts ready, ← cleared]
    rfl
  case link =>
    intro s k checkOnly there answers ready
    rw [exec_lnkCommit_open there answers, linkGo_checks ready]
    rfl
  case commitBusy =>
    intro s answers busy
    rw [exec_prkCommit_open answers, prkGo_while_busy busy]
  case checkBusy =>
    intro s answers busy
    rw [exec_prkCheck_open answers, prkGo_while_busy busy]
  case revertBusy =>
    intro s answers busy
    rw [exec_prkRevert_open answers, prkGo_while_busy busy]
  case linkBusy =>
    intro s k checkOnly there answers busy
    rw [exec_lnkCommit_open there answers, linkGo_while_busy busy]
  case waits =>
    intro s t timed checking unapplied serving submission passes applies
    rw [show exec .checkEnd s = .next (checkEnd s) from rfl,
      checkEnd_waits timed checking unapplied serving submission passes applies, timed]
    rfl
  case fails =>
    intro s t u timed reported checking unapplied serving submission fails waits
    rw [show exec .checkEnd s = .next (checkEnd s) from rfl,
      checkEnd_submission timed checking unapplied serving submission (.inl fails), if_neg fails, ← reported, waits]
    rfl
  case checked =>
    intro s t u timed reported checking unapplied serving submission passes only waits
    rw [show exec .checkEnd s = .next (checkEnd s) from rfl,
      checkEnd_submission timed checking unapplied serving submission (.inr only), if_pos passes, ← reported, waits]
    rfl
  case recheckPasses =>
    intro s t u timed reported checking unapplied serving recheck passes origin waits
    rw [show exec .checkEnd s = .next (checkEnd s) from rfl, checkEnd_inService timed checking unapplied serving,
      if_pos recheck, if_pos passes, prkEnd_recheck_passes reported origin passes, waits]
    rfl
  case recheckFails =>
    intro s t u timed reported checking unapplied serving recheck fails origin waits
    rw [show exec .checkEnd s = .next (checkEnd s) from rfl, checkEnd_inService timed checking unapplied serving,
      if_pos recheck, if_neg fails, prkEnd_recheck_fails reported origin fails, waits]
    rfl
  case failsHeld =>
    intro s t u timed reported checking unapplied serving submission fails waits
    rw [show exec .checkEnd s = .next (checkEnd s) from rfl,
      checkEnd_submission timed checking unapplied serving submission (.inl fails), if_neg fails, ← reported, waits]
    rfl
  case checkOutside =>
    intro s t timed checking unapplied outside
    exact congrArg Host.Outcome.next (checkEnd_outside timed checking unapplied outside)
  case applies =>
    intro s t u at0 taken ended due reached serving
    exact congrArg Host.Outcome.next (applyNow_inService due reached taken ended serving)
  case applyOutside =>
    intro s at0 due reached outside
    exact congrArg Host.Outcome.next (applyNow_outside due reached outside)
  case recheckBegins =>
    intro s trigger on started ready
    exact congrArg Host.Outcome.next (startRecheck_begins on started ready)
  case recheckHeld =>
    intro s trigger on started busy
    exact congrArg Host.Outcome.next (startRecheck_held on started busy)
  case recheckNone =>
    intro s trigger early
    exact congrArg Host.Outcome.next (startRecheck_none early)

end Sys2Proof.Machine
end

section
/-!
The lane map (R310-R315): the writes of SIDE_MAP and LANE_POS, the end of a drain and of a torn window.
-/

namespace Sys2Proof.Machine

/-! ## SIDE_MAP (R313) -/

/-- The fields of a map word, stored. -/
def sideMapStored (e v : Nat) (s : State) : State :=
  ((s.wrB (R.SIDE_MAP_valid e) (bit v 31)).wrB (R.SIDE_MAP_hint e) (bit v 30)).wr (R.SIDE_MAP_base e) (v % 128)

section sideMap

variable {s t : State} {e v k : Nat} (side : k = e / 2)

theorem sideMapWrite_clears (valid : s.on (R.SIDE_MAP_valid e) = true) (clears : bit v 31 = false) :
    sideMapWrite e v s = syncMapStat (sideMapStored e v
      (if modeOf s (e / 2) = 0 then s.putMap e { drainUntil := (s.map e).drainUntil } else mapBreak e s)) :=
  if_pos (by rw [valid, clears]; rfl)

theorem sideMapWrite_makes (made : t = genUp e (sideMapStored e v s)) (invalid : s.on (R.SIDE_MAP_valid e) = false)
    (makes : bit v 31 = true) :
    sideMapWrite e v s =
      if modeOf t (e / 2) = 0 then t
      else (usedSides t (e / 2)).foldl (fun s sd => downRestart (e / 2) sd s) (linkTrain false (e / 2) t) := by
  rw [sideMapStored, makes] at made
  simp only [sideMapWrite, invalid, makes, Bool.not_true, Bool.not_false, Bool.and_self, Bool.false_eq_true, if_false,
    if_true, ← made]

theorem sideMapWrite_keeps (stored : t = sideMapStored e v s) (keeps : s.on (R.SIDE_MAP_valid e) = bit v 31) :
    sideMapWrite e v s =
      if (lanesChanged s e t).1 then tornRaise [e] (lanesChanged s e t).2 else (lanesChanged s e t).2 := by
  subst stored
  simp only [sideMapWrite, keeps, Bool.and_not_self, Bool.not_and_self, Bool.false_eq_true, if_false]
  rfl

end sideMap

section lanesChanged

variable {s t : State} {e : Nat}

theorem lanesChanged_unchanged
    (same : t.on (R.SIDE_MAP_valid e) = false ∨
      mapNamed s (e / 2) (Side.ofIdx (e % 2)) = mapNamed t (e / 2) (Side.ofIdx (e % 2))) :
    lanesChanged s e t = (false, t) :=
  if_pos (by simpa only [Bool.or_eq_true, Bool.not_eq_true', decide_eq_true_eq] using same)

theorem lanesChanged_direct (valid : t.on (R.SIDE_MAP_valid e) = true)
    (changes : mapNamed s (e / 2) (Side.ofIdx (e % 2)) ≠ mapNamed t (e / 2) (Side.ofIdx (e % 2)))
    (configured : modeOf t (e / 2) ≠ 0) :
    lanesChanged s e t = (true, directChange e (sideLanes s (e / 2) (Side.ofIdx (e % 2)))
      (mapWords s (e / 2) (Side.ofIdx (e % 2))) t) := by
  simp only [lanesChanged, valid, changes, configured, Bool.not_true, decide_false, Bool.or_self, Bool.false_eq_true,
    if_false]

end lanesChanged

/-! ## LANE_POS (R314; log 100) -/

theorem lanePosWrite_eq {s t : State} {n v : Nat} {es : List Nat} {r : List Nat × State}
    (stored : t = (((((s.wrB (R.LANE_POS_valid n 0) (bit v 15)).wr (R.LANE_POS_link n 0) (bits v 14 8)).wr
      (R.LANE_POS_pos n 0) (v % 16)).wrB (R.LANE_POS_valid n 1) (bit (v / 65536) 15)).wr (R.LANE_POS_link n 1)
      (bits (v / 65536) 14 8)).wr (R.LANE_POS_pos n 1) (v / 65536 % 16))
    (named : es = (List.range 256).filter
      (posNames s n 0 ++ posNames t n 0 ++ (posNames s n 1 ++ posNames t n 1)).contains)
    (changed : r = es.foldl (fun (a : List Nat × State) e =>
      (if (lanesChanged s e a.2).1 then a.1 ++ [e] else a.1, (lanesChanged s e a.2).2)) ([], t)) :
    lanePosWrite n v s = tornRaise r.1 r.2 := by
  simp only [lanePosWrite, List.foldl_cons, List.foldl_nil, Nat.pow_zero, Nat.pow_one, Nat.div_one, List.flatMap_cons,
    List.flatMap_nil, List.append_nil, ← stored, ← named, ← changed]

/-! ## The end of a torn window (R312, R314) -/

section torn

variable {s t u w : State} {e k : Nat} {sd : Side} {old gone : List Nat} (link : k = e / 2) (side : sd = Side.ofIdx (e % 2))
  (before : old = sideLanes s k sd) (closed : t = syncMapStat (s.putMap e { drainUntil := (s.map e).drainUntil }))
  (left : gone = old.filter fun n => !(sideLanes t k sd).contains n)
  (given : w = gone.foldl (fun s n => acqCancel n sd (adaptLeaves n sd s)) (lanesLeave k sd gone t))
  (released : u = ((old.map laneCluster).eraseDups).foldl (fun s c => bobRelease c (bobFinish c s)) w)
  (there : e < 2 * linksOf s) (ended : passed (s.map e).tornUntil 0 s.fab = true)

include link side before closed left given released there ended

/-- The lanes given up leave the link, and then its span says how it goes on. -/
theorem exec_mapTornEnd_over :
    exec (.mapTornEnd e) s = .next
      (if modeOf u k = mTransparent then linkTrain false k u
      else if spanState u k sd = spIdle then u
      else if spanState u k sd = spDown then downRestart k sd u
      else if liveMapBad u k sd then linkDown k ftLanes false u
      else if spanState u k sd = spUp || spanRetraining u k sd then lanesRetrain k sd u
      else detectEnter k sd true false u) := by
  refine (onUnit_of_present (decide_eq_true there)).trans (congrArg Host.Outcome.next ?_)
  simp only [mapTornEnd, ended, Bool.not_true, Bool.false_eq_true, if_false, ← link, ← side, ← before, ← closed, ← left,
    ← given, ← released]

end torn

/-! ## The commands, at a page that answers -/

theorem exec_sideMapWrite_open {s : State} {e v : Nat} (there : e < 2 * linksOf s) (answers : pageOpen s 0xD = true) :
    exec (.sideMapWrite e v) s = .next (sideMapWrite e v s) :=
  congrArg Host.Outcome.next (ifHas_open (decide_eq_true there) answers)

theorem exec_lanePosWrite_open {s : State} {n v : Nat} (there : n < lanesOf s) (answers : pageOpen s 0xD = true) :
    exec (.lanePosWrite n v) s = .next (lanePosWrite n v s) :=
  congrArg Host.Outcome.next (ifHas_open (decide_eq_true there) answers)

/-- Settles O33: SIDE_MAP by the valid bit before and after, LANE_POS by the sides it names, and the end of a torn window by
the span. -/
theorem mapCommands : Obligations.MapCommands := by
  unfold Obligations.MapCommands
  refine ⟨?breaks, ?clears, ?makes, ?trains, ?stores, ?direct, ?positions, ?drained, ?transparent, ?idle, ?down, ?bad,
    ?up, ?detects, ?refreshed⟩
  case breaks =>
    intro s e v k sd link side there answers valid clears configured
    subst link
    rw [exec_sideMapWrite_open there answers, sideMapWrite_clears valid clears, if_neg configured]
    rfl
  case clears =>
    intro s e v k sd link side there answers valid clears unconfigured
    subst link
    rw [exec_sideMapWrite_open there answers, sideMapWrite_clears valid clears, if_pos unconfigured]
    rfl
  case makes =>
    intro s e v k sd t link side made there answers invalid makes unconfigured
    subst link
    rw [exec_sideMapWrite_open there answers, sideMapWrite_makes made invalid makes, if_pos unconfigured]
  case trains =>
    intro s e v k sd t u link side made trained there answers invalid makes configured
    subst link
    rw [exec_sideMapWrite_open there answers, sideMapWrite_makes made invalid makes, if_neg configured, ← trained]
  case stores =>
    intro s e v k sd t link side stored there answers keeps same
    subst link side
    rw [exec_sideMapWrite_open there answers, sideMapWrite_keeps stored keeps, lanesChanged_unchanged same]
    rfl
  case direct =>
    intro s e v k sd t link side stored there answers keeps valid changes configured
    subst link side
    rw [exec_sideMapWrite_open there answers, sideMapWrite_keeps stored keeps,
      lanesChanged_direct valid changes configured]
    rfl
  case positions =>
    intro s n v es r t stored named changed there answers
    rw [exec_lanePosWrite_open there answers, lanePosWrite_eq stored named changed]
  case drained =>
    intro s e there ended
    exact (onUnit_of_present (decide_eq_true there)).trans (congrArg Host.Outcome.next (if_pos ended))
  case transparent =>
    intro s e k sd old gone t u w link side before closed left given released there ended transparent
    rw [exec_mapTornEnd_over link side before closed left given released there ended, if_pos transparent]
  case idle =>
    intro s e k sd old gone t u w link side before closed left given released there ended other idle
    rw [exec_mapTornEnd_over link side before closed left given released there ended, if_neg other, if_pos idle]
  case down =>
    intro s e k sd old gone t u w link side before closed left given released there ended other down
    rw [exec_mapTornEnd_over link side before closed left given released there ended, if_neg other, down,
      if_neg (by decide), if_pos rfl]
  case bad =>
    intro s e k sd old gone t u w link side before closed left given released there ended other notIdle notDown bad
    rw [exec_mapTornEnd_over link side before closed left given released there ended, if_neg other, if_neg notIdle,
      if_neg notDown, if_pos bad]
  case up =>
    intro s e k sd old gone t u w link side before closed left given released there ended other up whole
    rw [exec_mapTornEnd_over link side before closed left given released there ended, if_neg other, up,
      if_neg (by decide), if_neg (by decide), if_neg (by rw [whole]; decide), decide_eq_true rfl, Bool.true_or, if_pos rfl]
  case detects =>
    intro s e k sd old gone t u w link side before closed left given released there ended other notIdle notDown whole
      notUp first
    rw [exec_mapTornEnd_over link side before closed left given released there ended, if_neg other, if_neg notIdle,
      if_neg notDown, if_neg (by rw [whole]; decide), if_neg (by rw [first]; simpa using notUp)]
  case refreshed =>
    intro s c e cluster there
    exact onUnit_of_present (by rw [decide_eq_true cluster, decide_eq_true there]; rfl)

end Sys2Proof.Machine
end

section
/-!
Bobbins (R316-R326): the asks and switches of a swap or return, its abandonment, the rest of the old TX ends and SWP_CMD.
-/

namespace Sys2Proof.Machine

/-! ## The sides of a swap ask and switch (R319, R320) -/

section asks

variable {s t : State} {c : Nat} {sd : Side}

theorem bobAsk_none (last : nextAsk t c = none) : bobAsk c t = t := by
  simp only [bobAsk, last]

theorem bobAsk_next {x : Side} {k : Nat} (next : nextAsk t c = some (x, k)) {u : State}
    (asked : u = t.putBob c { t.bob c with asked := (t.bob c).asked ++ [x.idx] }) :
    bobAsk c t = acqRequest (newLane u c) x (spanRung u k x) u := by
  simp only [bobAsk, next, ← asked]

theorem exec_bobbinAcqLimit_asked (noted : t = s.putBob c { s.bob c with acqDone := (s.bob c).acqDone ++ [sd.idx] })
    (there : c < clustersOf s) (asked : (s.bob c).asked.contains sd.idx = true)
    (running : (s.bob c).acqDone.contains sd.idx = false) : exec (.bobbinAcqLimit c sd) s = .next (bobAsk c t) := by
  refine (onUnit_of_present (decide_eq_true there)).trans (congrArg Host.Outcome.next ?_)
  rw [noted]
  exact if_pos (by rw [asked, running]; rfl)

end asks

section switches

variable {s t u : State} {c k q : Nat} {sd : Side}

theorem exec_bobbinSwitch_ready
    (moved : t = (syncCluster c (bobMove c sd (bobState s c = bbSwapping) s)).wr (R.BOB_STAT_done c sd.idx) 1)
    (ended : u = if (bobState s c = bbSwapping) && (t.bob c).intr = sd.idx && !(t.bob c).txFail
      then intrEnd c (some t.clock) t else t)
    (there : c < clustersOf s) (ready : maySwitch s c sd = true) (used : laneUse u (bobLane u c) sd = some (k, q)) :
    exec (.bobbinSwitch c sd) s = .next (bobFinish c
      (if spAcquire ≤ spanState u k sd && spanState u k sd ≤ spArmed && spanState u k sd ≠ spSwitch
        then (acquireEnter k sd (spanRung u k sd) u).modSpan k sd fun x => { x with acqFrom := (u.span k sd).acqFrom }
        else u)) := by
  refine (onUnit_of_present (decide_eq_true there)).trans (congrArg Host.Outcome.next ((if_pos ready).trans ?_))
  simp only [bobSwitch, ← moved, ← ended, used]

end switches

/-! ## A swap or return is abandoned (R316) -/

theorem exec_swapAbandon_due {s : State} {c : Nat} (there : c < clustersOf s)
    (due : (swapOver s c || bobFaulty s c) = true) :
    exec (.swapAbandon c) s = .next (swapAbandonTo c (if bobFaulty s c then owFault else 0) s) :=
  (onUnit_of_present (decide_eq_true there)).trans (congrArg Host.Outcome.next (if_pos due))

section abandons

variable {s t u v w z : State} {c why : Nat} (rested : u = spareRest c (newLane s c) (oldWake c (oldLane s c) t))
  (cleared : v = u.putBob c { u.bob c with dupA := none, dupB := none, rested := [] })
  (counted : w = (v.bump (R.BOB_CNT_abandons c)).wr (R.BOB_STAT_result c) swAbandoned)

include rested cleared counted

theorem swapAbandonTo_swapping
    (back : t = (bobUsed s c).foldl (fun x u => if bobSwitched x c u.1 then bobMove c u.1 false x else x)
      (intrEnd c none s))
    (stated : z = (w.putBob c { w.bob c with dropped := [] }).wr (R.BOB_STAT_state c) (if why = 0 then bbReady else bbOut))
    (swapping : bobState s c = bbSwapping) :
    swapAbandonTo c why s = (s.bob c).fails.foldl (fun s i => laneDown (bobLane s c) (Side.ofIdx i) s)
      (syncCluster c ((bobClear c (bobRest c
        (if why ≠ 0 then z.wr (R.BOB_STAT_out_why c) why else z))).raise (16 * c + 11))) := by
  simp only [swapAbandonTo, swapping, ne_eq, not_true_eq_false, decide_false, decide_true, Bool.false_and, Bool.not_true,
    Bool.true_and, Bool.false_eq_true, if_false, if_true, decide_eq_true_eq, ← back, ← rested, ← cleared, ← counted, ← stated]

theorem swapAbandonTo_returning
    (back : t = (bobUsed s c).foldl (fun x u => if bobSwitched x c u.1 then bobMove c u.1 true x else x)
      (intrEnd c none s))
    (stated : z = (w.putBob c { w.bob c with dropped := [] }).wr (R.BOB_STAT_state c) bbIn)
    (returning : bobState s c = bbReturning) :
    swapAbandonTo c why s = syncCluster c ((bobClear c (laneTxIdle (bobLane z c)
      (laneOut (bobLane z c) .b (laneOut (bobLane z c) .a z)))).raise (16 * c + 11)) := by
  simp only [swapAbandonTo, returning, show ¬ bbReturning = bbSwapping by decide, ne_eq, not_true_eq_false,
    not_false_eq_true, decide_false, decide_true, Bool.and_false, Bool.not_false, Bool.false_and, Bool.false_eq_true,
    if_false, if_true, ← back, ← rested, ← cleared, ← counted, ← stated]

end abandons

/-! ## The old TX ends rest (R321) -/

section oldTx

variable {s t : State} {c old : Nat}
  (lane : old = if bobState s c = bbReturning || bobState s c = bbReady then 128 + c else bobLane s c)

include lane

theorem exec_oldTxIdle_a (there : c < clustersOf s)
    (rested : t = (s.txRest old .a).putBob c { s.bob c with rested := (s.bob c).rested ++ [0] })
    (passedA : passed ((s.bob c).dup .a) 10000 s.clock = true) (running : (s.bob c).rested.contains 0 = false)
    (waitsB : passed ((t.bob c).dup .b) 10000 t.clock = false) : exec (.oldTxIdle c) s = .next t := by
  refine (onUnit_of_present (decide_eq_true there)).trans (congrArg Host.Outcome.next ?_)
  simp only [oldTxIdle, List.foldl_cons, List.foldl_nil, passedA, running, Side.idx, Bool.not_true, Bool.or_self,
    Bool.false_eq_true, if_false, ← lane, ← rested, waitsB, Bool.not_false, Bool.true_or, if_true]

theorem exec_oldTxIdle_b (there : c < clustersOf s) (passedB : passed ((s.bob c).dup .b) 10000 s.clock = true)
    (running : (s.bob c).rested.contains 1 = false) (waitsA : passed ((s.bob c).dup .a) 10000 s.clock = false) :
    exec (.oldTxIdle c) s =
      .next ((s.txRest old .b).putBob c { s.bob c with rested := (s.bob c).rested ++ [1] }) := by
  refine (onUnit_of_present (decide_eq_true there)).trans (congrArg Host.Outcome.next ?_)
  simp only [oldTxIdle, List.foldl_cons, List.foldl_nil, waitsA, Bool.not_false, Bool.true_or, if_true, passedB, running,
    Side.idx, Bool.not_true, Bool.or_self, Bool.false_eq_true, if_false, ← lane]

end oldTx

/-! ## SWP_CMD (R326; log 106) -/

section swpOp

variable {s : State} {op c pos : Nat} {ok : Bool} {f : State → State}

theorem swpOp_refused (refused : ok = false) :
    swpOp op c pos ok f s =
      (((s.wr R.SWP_CMD_op op).wr R.SWP_CMD_cluster c).wr R.SWP_CMD_pos pos).wr R.SWP_CMD_refused 1 :=
  if_neg (by rw [refused]; exact Bool.false_ne_true)

theorem swpOp_accepted (accepted : ok = true) (there : c < clustersOf s) :
    swpOp op c pos ok f s =
      f ((((s.wr R.SWP_CMD_op op).wr R.SWP_CMD_cluster c).wr R.SWP_CMD_pos pos).wr R.SWP_CMD_refused 0) :=
  if_pos (by rw [accepted, Bool.true_and]; exact decide_eq_true there)

end swpOp

section swapBegin

variable {t u v w x : State} {c pos cause : Nat}
  (stopped : u = engineNext c ([8, 17, 26, 35].foldl (fun s e => calAbort c e s)
    (loopStop (laneAt c pos) (bobPreempt (clusterDie c) c t))))
  (stored : v = ((((u.wr (R.BOB_STAT_pos c) pos).wr (R.BOB_STAT_cause c) cause).wr (R.BOB_STAT_done c 0) 0).wr
    (R.BOB_STAT_done c 1) 0).wr (R.BOB_TIME_ns c) 0)
  (cleared : w = bobClear c (v.wr (R.BOB_STAT_state c) bbSwapping))
  (noted : x = w.putBob c { w.bob c with
    since := w.clock, held := 0, failedSide := 2, inA := false, inB := false, dropped := [], dupA := none, dupB := none,
    rested := [], nbrAt := none, fails := [], intr := 2, txFail := false })
  (sound : (bobUsed x c).find? (fun u => u.1.idx = 2) = none)

include stopped stored cleared noted sound

/-- A swap that no failed end asked for: the rung of each used side decides between its steps and those of DETECT. -/
theorem swapBegin_sound {detect : Bool}
    (judged : (bobUsed x c).all (fun u => inDetect x u || spanRung x u.2.1 u.1 = 7) = detect) :
    swapBegin c pos cause 2 2 t =
      if detect then swapDetectGo c (x.putBob c { x.bob c with detect := true }) else swapGo c x := by
  simp only [swapBegin, Nat.lt_irrefl, decide_false, Bool.false_and, if_false, ← stopped, ← stored, ← cleared, ← noted,
    sound, judged]

end swapBegin

theorem returnBegin_eq {t u v : State} {c : Nat}
    (stopped : u = loopStop (bobLane t c) ((t.wr (R.BOB_STAT_done c 0) 0).wr (R.BOB_STAT_done c 1) 0))
    (cleared : v = bobClear c (u.wr (R.BOB_STAT_state c) bbReturning)) :
    returnBegin c t = swapGo c (v.putBob c
      { v.bob c with since := v.clock, held := 0, dropped := [], dupA := none, dupB := none, rested := [] }) := by
  simp only [returnBegin, ← stopped, ← cleared]

theorem returnOk_eq_false {s : State} {c : Nat}
    (unfit : bobState s c ≠ bbIn ∨ endFaulty s (bobLane s c) .a = true ∨ endFaulty s (bobLane s c) .b = true) :
    returnOk s c = false := by
  obtain other | faultyA | faultyB := unfit
  · simp only [returnOk, other, decide_false, Bool.false_and]
  · simp only [returnOk, faultyA, Bool.not_true, Bool.and_false, Bool.false_and]
  · simp only [returnOk, faultyB, Bool.not_true, Bool.and_false]

section written

variable {s : State} {c : Nat} (answers : pageOpen s 0xD = true)

include answers

theorem exec_swpSwap_open {pos : Nat} :
    exec (.swpSwap c pos) s = .next (swpOp 0 c pos (swapOk s c pos) (swapBegin c pos swHost 2 2) s) :=
  congrArg Host.Outcome.next (ifOpen_open answers)

theorem exec_swpReturn_open :
    exec (.swpReturn c) s = .next (swpOp 1 c (s.rd R.SWP_CMD_pos) (returnOk s c) (returnBegin c) s) :=
  congrArg Host.Outcome.next (ifOpen_open answers)

theorem exec_swpEnable_open :
    exec (.swpEnable c) s = .next (swpOp 2 c (s.rd R.SWP_CMD_pos) (bobState s c = bbOut) (bobEnable c) s) :=
  congrArg Host.Outcome.next (ifOpen_open answers)

theorem exec_swpDisable_open :
    exec (.swpDisable c) s = .next (swpOp 3 c (s.rd R.SWP_CMD_pos) (bobState s c = bbReady) (bobDisable c) s) :=
  congrArg Host.Outcome.next (ifOpen_open answers)

end written

/-- Settles O34: the asks and switches by the side, the abandonment by swap or return, the old TX ends by side and lane, and
SWP_CMD by its operation. -/
theorem bobbinCommands : Obligations.BobbinCommands := by
  unfold Obligations.BobbinCommands
  refine ⟨?lastAsk, ?nextAsk, ?switches, ?restarts, ?swapAbandoned, ?returnAbandoned, ?restsA, ?restsB, ?bobbinRestsA,
    ?bobbinRestsB, ?swaps, ?swapsInDetect, ?swapRefused, ?returns, ?returnRefused, ?enables, ?enableRefused, ?disables,
    ?disableRefused⟩
  case lastAsk =>
    intro s c sd t noted there asked running last
    rw [exec_bobbinAcqLimit_asked noted there asked running, bobAsk_none last]
  case nextAsk =>
    intro s c sd x k t u noted next there asked running more
    rw [exec_bobbinAcqLimit_asked noted there asked running, bobAsk_next more next]
  case switches =>
    intro s c sd k q t u moved ended there ready used steady
    rw [exec_bobbinSwitch_ready moved ended there ready used, if_neg (ne_true_of_eq_false steady)]
  case restarts =>
    intro s c sd k q t u moved ended there ready used trains
    rw [exec_bobbinSwitch_ready moved ended there ready used, if_pos trains]
  case swapAbandoned =>
    intro s c why t u v w z fault back rested cleared counted there due stated swapping
    rw [exec_swapAbandon_due there due, ← fault,
      swapAbandonTo_swapping rested cleared counted back stated swapping]
  case returnAbandoned =>
    intro s c t u v w z back rested cleared counted there due stated returning
    rw [exec_swapAbandon_due there due, swapAbandonTo_returning rested cleared counted back stated returning]
  case restsA =>
    intro s c old t lane rested there swapping ready passedA running waitsB
    exact exec_oldTxIdle_a (by simpa [swapping, ready] using lane) there rested passedA running waitsB
  case restsB =>
    intro s c old lane there swapping ready passedB running waitsA
    exact exec_oldTxIdle_b (by simpa [swapping, ready] using lane) there passedB running waitsA
  case bobbinRestsA =>
    intro s c old t lane rested there bobbin passedA running waitsB
    exact exec_oldTxIdle_a (lane.trans (if_pos (by simpa using bobbin)).symm) there rested passedA running waitsB
  case bobbinRestsB =>
    intro s c old lane there bobbin passedB running waitsA
    exact exec_oldTxIdle_b (lane.trans (if_pos (by simpa using bobbin)).symm) there passedB running waitsA
  case swaps =>
    intro s c pos t u v w x begun stopped stored cleared noted there answers accepted sound judged
    rw [exec_swpSwap_open answers, swpOp_accepted accepted there, ← begun,
      swapBegin_sound stopped stored cleared noted sound judged, if_neg Bool.false_ne_true]
  case swapsInDetect =>
    intro s c pos t u v w x begun stopped stored cleared noted there answers accepted sound judged
    rw [exec_swpSwap_open answers, swpOp_accepted accepted there, ← begun,
      swapBegin_sound stopped stored cleared noted sound judged, if_pos rfl]
  case swapRefused =>
    intro s c pos there answers refused
    rw [exec_swpSwap_open answers, swpOp_refused refused]
  case returns =>
    intro s c t u v begun stopped cleared there answers standsIn soundA soundB
    have accepted : returnOk s c = true := by simp [returnOk, standsIn, soundA, soundB]
    rw [exec_swpReturn_open answers, swpOp_accepted accepted there, ← begun, returnBegin_eq stopped cleared]
  case returnRefused =>
    intro s c there answers unfit
    rw [exec_swpReturn_open answers, swpOp_refused (returnOk_eq_false unfit)]
  case enables =>
    intro s c t begun there answers out
    rw [exec_swpEnable_open answers, swpOp_accepted (decide_eq_true out) there, ← begun]
    rfl
  case enableRefused =>
    intro s c there answers other
    rw [exec_swpEnable_open answers, swpOp_refused (decide_eq_false other)]
  case disables =>
    intro s c t u begun cut there answers ready
    rw [exec_swpDisable_open answers, swpOp_accepted (decide_eq_true ready) there, ← begun, cut]
    rfl
  case disableRefused =>
    intro s c there answers other
    rw [exec_swpDisable_open answers, swpOp_refused (decide_eq_false other)]

end Sys2Proof.Machine
end

section
/-!
Built-in self-test (R376-R391): the interval and the end of a slice, BST_CMD, TEST entry and BST_CFG.
-/

namespace Sys2Proof.Machine

/-! ## The interval (R381) -/

section interval

variable {s : State}

theorem exec_sliceInterval_none (none : s.bist.nextAt = none) : exec .sliceInterval s = .next s := by
  change execSliceInterval s = _
  simp only [execSliceInterval, none]

variable {n : Nat} (next : s.bist.nextAt = some n)

include next

theorem exec_sliceInterval_early (early : (n ≤ s.clock && inRun s && s.rd (R.CLK_EN_en 7) = 1) = false) :
    exec .sliceInterval s = .next s := by
  change execSliceInterval s = _
  simp only [execSliceInterval, next, early, Bool.false_eq_true, if_false]

theorem exec_sliceInterval_due (due : (n ≤ s.clock && inRun s && s.rd (R.CLK_EN_en 7) = 1) = true) :
    exec .sliceInterval s = .next (sliceTurn { s with bist := { s.bist with nextAt := some (n + bistInterval s) } }) := by
  change execSliceInterval s = _
  simp only [execSliceInterval, next, due, if_true]

end interval

/-! ## The end of a bobbin slice (R376, R383) -/

section sliceEnd

variable {s t u : State} {c result cause errors : Nat}
  (recorded : t = (((s.wr (R.BOB_RES_result c) result).wr (R.BOB_RES_cause c) cause).wr (R.BOB_RES_errors c)
    (min errors 65535)).wr (R.BOB_RES_rung c) (s.bob c).sliceRung)
  (ended : u = (bobSliceOff (clusterDie c) c (setLastBobbin (clusterDie c) c t)).raise (16 * c + 15))
  (there : c < clustersOf s) (runs : bobSliceOf s (clusterDie c) = some c)

include recorded ended runs

theorem bobSliceEnd_eq :
    bobSliceEnd (clusterDie c) result cause errors s =
      if result = resFail then (u.wr (R.BOB_STAT_state c) bbOut).wr (R.BOB_STAT_out_why c) 2
      else if (s.bob c).enabling && result = resPass then
        (u.wr (R.BOB_STAT_state c) bbReady).wr (R.BOB_STAT_out_why c) 0
      else u := by
  rw [ended, recorded]
  simp only [bobSliceEnd, runs]
  rfl

include there

/-- The slice ends with the result that its lock, bits, errors and replica give. -/
theorem exec_bobbinSliceEnd_runs {bits : Nat} {noLock replica : Bool}
    (judged : (if noLock then resFail else if bits ≠ 2 ^ 26 then resIncomplete
      else if errors ≠ 0 || replica then resFail else resPass) = result)
    (caused : (if result = resIncomplete then causeStall else 0) = cause) :
    exec (.bobbinSliceEnd c bits errors noLock replica) s = .next
      (if result = resFail then (u.wr (R.BOB_STAT_state c) bbOut).wr (R.BOB_STAT_out_why c) 2
      else if (s.bob c).enabling && result = resPass then
        (u.wr (R.BOB_STAT_state c) bbReady).wr (R.BOB_STAT_out_why c) 0
      else u) := by
  refine (onUnit_of_present (decide_eq_true there)).trans (congrArg Host.Outcome.next ((if_pos runs).trans ?_))
  simp only [judged, caused]
  exact bobSliceEnd_eq recorded ended runs

end sliceEnd

/-! ## A slice that is cut (R376; log 214) -/

section cut

variable {t : State} {die result cause : Nat}

theorem bobSliceCut_none (none : (bobSliceOf t die).isNone = true) : bobSliceCut die result cause t = t := if_pos none

theorem bobSliceCut_runs {i : Nat} {u : State} (runs : (bobSliceOf t die).isNone = false) (drawn : t.draw = (i, u)) :
    bobSliceCut die result cause t = bobSliceEnd die result cause (Config.freeValue i % 65536) u := by
  simp only [bobSliceCut, runs, Bool.false_eq_true, if_false, drawn]

end cut

theorem exec_bistStall_there {s t : State} {die : Nat} (stopped : t = bankStop die resIncomplete causeStall s)
    (there : die < diesOf s) : exec (.bistStall die) s = .next (bobSliceCut die resIncomplete causeStall t) := by
  rw [stopped]
  exact onUnit_of_present (decide_eq_true there)

/-! ## BST_CMD (R376, R384, R391; log 130) -/

section bobbinNow

variable {t u v w : State} {c : Nat}

theorem bobbinNow_refused
    (unfit : (c < clustersOf t && (inService t || t.dev.phase = .test) && !dieFenced t (clusterDie c) &&
      t.rd (R.BOB_STAT_state c) = bbReady && (bobSliceOf t (clusterDie c)).isNone) = false) :
    bobbinNow c t = t.wrB R.BST_CMD_refused true := if_neg (ne_true_of_eq_false unfit)

variable (accepted : w = t.wrB R.BST_CMD_refused false)
  (begun : u = (w.setBobSlice (clusterDie c) (some c)).putBob c { w.bob c with
    slice := true, enabling := false, sliceAt := w.clock, sliceRung := sliceRung w c,
    started := ([Dir.ab, Dir.ba].filter fun d => ckRate w c d = 7 && !w.on (R.CK_STAT_own_lock c d.idx)).map Dir.idx })
  (followed : v = rxPolApply (128 + c) .b (rxPolApply (128 + c) .a (testSync w (128 + c) u)))
  (fit : (c < clustersOf t && (inService t || t.dev.phase = .test) && !dieFenced t (clusterDie c) &&
    t.rd (R.BOB_STAT_state c) = bbReady && (bobSliceOf t (clusterDie c)).isNone) = true)

include accepted begun followed fit

/-- The slice begins, and goes on where every limit of R376 holds. -/
theorem bobbinNow_begins :
    bobbinNow c t = if limitCause v (clusterDie c) = 0 then v
      else bobSliceEnd (clusterDie c) resLimit (limitCause v (clusterDie c)) 0 v := by
  rw [followed, begun, accepted]
  exact if_pos fit

end bobbinNow

theorem bstFull_scrubs {s t u : State} (freed : t = dieFree 1 (dieFree 0 (s.wrB R.BST_CMD_refused false)))
    (emptied : u = ({ t with flows := [], trunks := [], sel := { t.sel with queue := [] } } : State).wr R.SEL_STAT_queued 0)
    (test : s.dev.phase = .test) :
    bstFull s = { u with bist := { u.bist with full := true, postFrom := u.clock } } := by
  rw [emptied, freed]
  exact if_pos test

theorem bstTestEnter_enters {s : State} (running : inRun s = true) :
    bstTestEnter 0x5A s = testEnter 1 (s.wrB R.BST_CMD_refused false) := if_pos (by rw [running]; rfl)

theorem bstTestEnter_refused {s : State} {confirm : Nat} (unconfirmed : (confirm = 0x5A && inRun s) = false) :
    bstTestEnter confirm s = s.wrB R.BST_CMD_refused true := if_neg (ne_true_of_eq_false unconfirmed)

/-! ## BST_CFG (R381, R395) -/

section bstCfg

variable {s t u : State} {v : Nat}
  (enabled : t = (s.wr R.BST_CFG_bob_en (bits v 17 17)).wr R.BST_CFG_bank_en (bits v 16 16))
  (stored : u = t.wr R.BST_CFG_interval (max 1 (min 3600 (bits v 11 0))))

include enabled stored

theorem writeBstCfg_running {n : Nat} (next : u.bist.nextAt = some n) :
    writeBstCfg v s = { u with bist := { u.bist with nextAt := some (u.clock + bistInterval u) } } := by
  rw [stored, enabled] at next ⊢
  simp only [writeBstCfg, next]

theorem writeBstCfg_held (none : u.bist.nextAt = none) :
    writeBstCfg v s = { u with bist := { u.bist with leftAt := bistInterval u } } := by
  rw [stored, enabled] at none ⊢
  simp only [writeBstCfg, none]

end bstCfg

section written

variable {s : State} (answers : pageOpen s 7 = true)

include answers

theorem exec_bstBobbinNow_open {c : Nat} :
    exec (.bstBobbinNow c) s = .next (bobbinNow c ((s.wr R.BST_CMD_op 0).wr R.BST_CMD_cluster c)) :=
  congrArg Host.Outcome.next (ifOpen_open answers)

theorem exec_bstAbort_open : exec .bstAbort s = .next (bstAbort (s.wr R.BST_CMD_op 1)) :=
  congrArg Host.Outcome.next (ifOpen_open answers)

theorem exec_bstFull_open : exec .bstFull s = .next (bstFull (s.wr R.BST_CMD_op 2)) :=
  congrArg Host.Outcome.next (ifOpen_open answers)

theorem exec_bstTestEnter_open {confirm : Nat} :
    exec (.bstTestEnter confirm) s =
      .next (bstTestEnter confirm ((s.wr R.BST_CMD_op 3).wr R.BST_CMD_confirm confirm)) :=
  congrArg Host.Outcome.next (ifOpen_open answers)

theorem exec_bstCfgWrite_open {v : Nat} : exec (.bstCfgWrite v) s = .next (writeBstCfg v s) :=
  congrArg Host.Outcome.next (ifOpen_open answers)

end written

/-! ## The end of TEST entry (R390, R394) -/

theorem exec_testEntryDone_done {s t u : State} {us : Nat} (scrubbed : t = bistHold (scrub s))
    (entered : u = { t with dev := { t.dev with
      phase := .test, testEntry := 0, watchEntry := false, waking := false, stuck := false } })
    (entering : s.dev.testEntry ≠ 0) (sent : eieAwaited s = false) (done0 : bankSliceRuns s 0 = false)
    (done1 : bankSliceRuns s 1 = false) :
    exec (.testEntryDone us) s = .next (((((u.wr R.TEST_STAT_scrubbed 1).wr R.TEST_STAT_scrub_us (min us 65535)).wr
      R.TEST_STAT_valid 1).wr R.TEST_STAT_cause s.dev.testEntry).wr R.BST_STAT_test 1) := by
  rw [entered, scrubbed]
  refine congrArg Host.Outcome.next (if_neg ?_)
  rw [decide_eq_false entering, sent, done0, done1]
  exact Bool.false_ne_true

/-- Settles O41: the interval by its time, the end of a bobbin slice by its result, a stall by what runs, BST_CMD by its
operation, TEST entry by its cause, and BST_CFG by whether the interval runs. -/
theorem builtInSelfTest : Obligations.BuiltInSelfTest := by
  unfold Obligations.BuiltInSelfTest
  refine ⟨?due, ?early, ?none, ?passes, ?enabled, ?fails, ?noLock, ?short, ?stallAlone, ?stallBobbin, ?begins, ?limited,
    ?unfit, ?abort, ?full, ?fullRefused, ?enters, ?enterRefused, ?pinEnters, ?pinIgnored, ?entered, ?cfgRunning, ?cfgHeld⟩
  case due =>
    intro s n t next turned reached running clocked
    rw [exec_sliceInterval_due next (by rw [decide_eq_true reached, running, decide_eq_true clocked]; rfl), ← turned]
    rfl
  case early =>
    intro s n next early
    exact exec_sliceInterval_early next early
  case none =>
    intro s none
    exact exec_sliceInterval_none none
  case passes =>
    intro s c bits errors t u recorded ended there runs all clean plain
    rw [exec_bobbinSliceEnd_runs (result := resPass) recorded ended there runs (by rw [all, clean]; decide) rfl,
      if_neg (by decide), plain, if_neg (by decide)]
  case enabled =>
    intro s c bits errors t u recorded ended there runs all clean enabling
    rw [exec_bobbinSliceEnd_runs (result := resPass) recorded ended there runs (by rw [all, clean]; decide) rfl,
      if_neg (by decide), enabling, if_pos (by decide)]
  case fails =>
    intro s c bits errors replica t u recorded ended there runs all bad
    rw [exec_bobbinSliceEnd_runs (result := resFail) recorded ended there runs
      ((if_neg Bool.false_ne_true).trans ((if_neg (not_not_intro all)).trans (if_pos bad))) rfl, if_pos rfl]
  case noLock =>
    intro s c bits errors replica t u recorded ended there runs
    rw [exec_bobbinSliceEnd_runs (result := resFail) recorded ended there runs (if_pos rfl) rfl, if_pos rfl]
  case short =>
    intro s c bits errors replica t u recorded ended there runs short
    rw [exec_bobbinSliceEnd_runs (result := resIncomplete) recorded ended there runs
      ((if_neg Bool.false_ne_true).trans (if_pos short)) rfl, if_neg (by decide),
      if_neg (by rw [show decide (resIncomplete = resPass) = false from rfl, Bool.and_false]; exact Bool.false_ne_true)]
  case stallAlone =>
    intro s die t stopped there alone
    rw [exec_bistStall_there stopped there, bobSliceCut_none alone]
  case stallBobbin =>
    intro s die t i u stopped there runs drawn
    rw [exec_bistStall_there stopped there, bobSliceCut_runs runs drawn]
  case begins =>
    intro s c t u v w stored accepted begun followed answers fit free
    rw [exec_bstBobbinNow_open answers, ← stored, bobbinNow_begins accepted begun followed fit, if_pos free]
  case limited =>
    intro s c t u v w stored accepted begun followed answers fit limit
    rw [exec_bstBobbinNow_open answers, ← stored, bobbinNow_begins accepted begun followed fit, if_neg limit]
  case unfit =>
    intro s c t stored answers unfit
    rw [exec_bstBobbinNow_open answers, ← stored, bobbinNow_refused unfit]
  case abort =>
    intro s answers
    exact exec_bstAbort_open answers
  case full =>
    intro s t u freed emptied answers test
    rw [exec_bstFull_open answers, bstFull_scrubs freed emptied test]
  case fullRefused =>
    intro s answers other
    rw [exec_bstFull_open answers]
    exact congrArg Host.Outcome.next (if_neg other)
  case enters =>
    intro s t u v w confirmed raised stopped halted answers running on outside idle unfailed
    rw [exec_bstTestEnter_open answers,
      bstTestEnter_enters (s := (s.wr R.BST_CMD_op 3).wr R.BST_CMD_confirm 0x5A) running, ← confirmed,
      testEnter_begins raised stopped halted on outside idle unfailed]
  case enterRefused =>
    intro s confirm answers unconfirmed
    exact (exec_bstTestEnter_open answers).trans (congrArg Host.Outcome.next (bstTestEnter_refused unconfirmed))
  case pinEnters =>
    intro s u v w raised stopped halted on outside idle unfailed
    exact congrArg Host.Outcome.next (testEnter_begins raised stopped halted on outside idle unfailed)
  case pinIgnored =>
    intro s ignored
    exact congrArg Host.Outcome.next (testEnter_ignored ignored)
  case entered =>
    intro s us t u scrubbed entered entering sent done0 done1
    exact exec_testEntryDone_done scrubbed entered entering sent done0 done1
  case cfgRunning =>
    intro s v t u n enabled stored answers next
    rw [exec_bstCfgWrite_open answers, writeBstCfg_running enabled stored next]
  case cfgHeld =>
    intro s v t u enabled stored answers none
    rw [exec_bstCfgWrite_open answers, writeBstCfg_held enabled stored none]

end Sys2Proof.Machine
end

section
/-!
The reference clocks and the PLLs (R329-R344, R356): judging REFCLK, the IFO, the monitor and its trips, and what each PLL takes.
-/

namespace Sys2Proof.Machine

/-! ## Judging REFCLK (R329-R332) -/

section judge

variable {s t : State}

/-- The state in which REFCLK has just been judged good (R329): the hold time runs, and the monitor arms where it may. -/
def judgedGood (method : Nat) (s : State) : State := armMonitor
  { (s.wr R.CLK_STAT_refclk_good 1).wr R.CLK_STAT_judge_used method with
    clk := { s.clk with goodSince := some s.clock, holdPassed := false, rejudge := false } }

theorem refclkGood_starting {method : Nat} (starting : clocksStarting (judgedGood method s) = true) :
    refclkGood method s = detectAll (suspectSlices (refclkBack (pllsStart 0 (judgedGood method s)))) :=
  congrArg (fun x => detectAll (suspectSlices (refclkBack x))) (if_pos starting)

theorem refclkGood_ready {method : Nat} (later : clocksStarting (judgedGood method s) = false)
    (ready : (judgedGood method s).on R.CLK_STAT_ifo_ready = true) :
    refclkGood method s = detectAll (suspectSlices (refclkBack (judgedGood method s))) :=
  congrArg (fun x => detectAll (suspectSlices (refclkBack x)))
    ((if_neg (ne_true_of_eq_false later)).trans (if_pos ready))

theorem refclkGood_alone {method : Nat} (later : clocksStarting (judgedGood method s) = false)
    (low : (judgedGood method s).on R.CLK_STAT_ifo_ready = false) :
    refclkGood method s = detectAll (suspectSlices (refclkBack (pllsWith [2, 3] pllReturn (judgedGood method s)))) :=
  congrArg (fun x => detectAll (suspectSlices (refclkBack x)))
    ((if_neg (ne_true_of_eq_false later)).trans (if_neg (ne_true_of_eq_false low)))

theorem exec_nativeJudgePass_judging
    (noted : t = { s with clk := { s.clk with nativeOk := s.clk.nativeOk || decide (s.dev.phase = Phase.start) } })
    (judged : judging t = true) (native : t.clk.judgeNow = false) :
    exec .nativeJudgePass s = .next (refclkGood 0 t) := by
  rw [noted] at judged native ⊢
  exact congrArg Host.Outcome.next (if_pos (by rw [judged, native]; rfl))

section compat

variable {cycles : Nat} {missed : Bool}
  (judged : judging s = true) (compat : (s.clk.judgeNow || judgeCompat s) = true) (ready : s.on R.CLK_STAT_ifo_ready = true)

include judged compat ready

theorem exec_compatJudgeEnd_judging :
    exec (.compatJudgeEnd cycles missed) s = .next (if 3973 ≤ cycles && cycles ≤ 4219 && !missed then refclkGood 1 s
      else judgeStart (s.bump R.CLK_CNT_judge_fail)) :=
  congrArg Host.Outcome.next (if_pos (by rw [judged, compat, ready]; rfl))

theorem exec_compatJudgeEnd_inside (low : 3973 ≤ cycles) (high : cycles ≤ 4219) :
    exec (.compatJudgeEnd cycles false) s = .next (refclkGood 1 s) :=
  (exec_compatJudgeEnd_judging judged compat ready).trans (congrArg Host.Outcome.next (if_pos (by simp [low, high])))

theorem exec_compatJudgeEnd_outside (outside : cycles < 3973 ∨ 4219 < cycles ∨ missed = true) :
    exec (.compatJudgeEnd cycles missed) s = .next (judgeStart (s.bump R.CLK_CNT_judge_fail)) :=
  (exec_compatJudgeEnd_judging judged compat ready).trans (congrArg Host.Outcome.next (if_neg (by
    rcases outside with less | more | missed
    · simp [Nat.not_le.mpr less]
    · simp [Nat.not_le.mpr more]
    · simp [missed])))

end compat

end judge

/-! ## The IFO, the monitor and the return to REFCLK (R333-R338) -/

section ifo

variable {s t u : State}

section ready

variable (readied : t = (s.wr R.CLK_STAT_ifo_ready 1).wr R.CLK_STAT_ifo_low 0)
  (armed : u = armMonitor { t with clk := { t.clk with aoRefclk := false } }) (awake : clocksAwake s = true)

include readied armed awake

theorem exec_ifoReady_awake :
    exec .ifoReady s =
      .next (if clocksStarting u && !u.on R.CLK_STAT_refclk_good then pllsStart 1 u else u) := by
  rw [armed, readied]
  exact congrArg Host.Outcome.next (if_pos awake)

theorem exec_ifoReady_first (starting : clocksStarting u = true) (bad : u.on R.CLK_STAT_refclk_good = false) :
    exec .ifoReady s = .next (pllsStart 1 u) :=
  (exec_ifoReady_awake readied armed awake).trans (congrArg _ (if_pos (by rw [starting, bad]; rfl)))

theorem exec_ifoReady_later (later : clocksStarting u = false ∨ u.on R.CLK_STAT_refclk_good = true) :
    exec .ifoReady s = .next u :=
  (exec_ifoReady_awake readied armed awake).trans (congrArg _ (if_neg (by rcases later with h | h <;> simp [h])))

end ready

section monitor

variable {count : Nat}
  (stored : t = (s.wr R.MON_LAST_count (min count 2047)).wr R.MON_LAST_valid 1)
  (armed : s.on R.CLK_STAT_mon_armed = true)

include stored armed

theorem exec_monitorWindowEnd_inside (low : 973 ≤ count) (high : count ≤ 1075) :
    exec (.monitorWindowEnd count) s = .next t := by
  rw [stored]
  exact congrArg Host.Outcome.next ((if_pos armed).trans (if_neg (by simp [low, high])))

theorem exec_monitorWindowEnd_outside (outside : count < 973 ∨ 1075 < count) :
    exec (.monitorWindowEnd count) s = .next (refclkTrip (pllsWith [0, 2] (fun u s => s.setPllRef u 1) t)) := by
  rw [stored]
  exact congrArg Host.Outcome.next ((if_pos armed).trans (if_pos (by simpa using outside)))

end monitor

theorem refclkTrip_reported (bad : u = refclkBad s) (run : (pllUnits u).any (fun x => pllRef u x = 3) = false) :
    refclkTrip s = tripReport u := by
  simp only [refclkTrip, ← bad, run, Bool.false_eq_true, if_false]

theorem refclkTrip_due (bad : u = refclkBad s) (stopped : (pllUnits u).any (fun x => pllRef u x = 3) = true) :
    refclkTrip s = { u with clk := { u.clk with tripDue := true } } := by
  simp only [refclkTrip, ← bad, stopped, if_true]

theorem exec_returnHoldExpiry_passed (good : s.on R.CLK_STAT_refclk_good = true)
    (held : passed s.clk.goodSince (1000000 * max 1 (s.rd R.CLK_CFG_return_hold)) s.clock = true)
    (noted : t = { s with clk := { s.clk with holdPassed := true } }) :
    exec .returnHoldExpiry s = .next (if s.on R.CLK_CFG_auto_return then pllsWith [1] pllReturn t else t) := by
  rw [noted]
  exact congrArg Host.Outcome.next (if_pos (by rw [good, returnHold, held]; rfl))

theorem exec_clkCfgWrite_open {v : Nat} (answers : pageOpen s 1 = true)
    (stored : t = ((s.wr R.CLK_CFG_return_hold (bits v 31 24)).wr R.CLK_CFG_auto_return (bits v 8 8)).wr
      R.CLK_CFG_judge (bits v 1 0)) :
    exec (.clkCfgWrite v) s = .next
      (if t.on R.CLK_CFG_auto_return && t.clk.holdPassed && t.on R.CLK_STAT_refclk_good then pllsWith [1] pllReturn t
      else t) := by
  rw [stored]
  exact congrArg Host.Outcome.next (ifOpen_open answers)

section loss

variable (ended : t = (if judging s && s.clk.judgeNow then
    { s.bump R.CLK_CNT_judge_fail with
      clk := { (s.bump R.CLK_CNT_judge_fail).clk with judgeNow := judgeCompat (s.bump R.CLK_CNT_judge_fail) } } else s))
  (lost : u = armMonitor (t.wr R.CLK_STAT_ifo_ready 0))
  (ready : s.on R.CLK_STAT_ifo_ready = true) (full : s.on R.CLK_STAT_ifo_low = false)

include ended lost ready full

theorem exec_ifoLoss_ready :
    exec .ifoLoss s = .next (if inRun u then
      if (u.raise 257).on R.CLK_STAT_refclk_good then
        pllsWith [1] pllReturn { u.raise 257 with clk := { (u.raise 257).clk with aoRefclk := true } }
      else pllsWith [1] (fun x z => z.setPllRef x 2) (u.raise 257)
      else u) := by
  rw [lost, ended]
  exact congrArg Host.Outcome.next (if_neg (by simp [ready, full]))

end loss

end ifo

/-- Settles O35: each event of the reference clocks, by the judgement, the monitor or the IFO edge it stands for. -/
theorem referenceClocks : Obligations.ReferenceClocks := by
  unfold Obligations.ReferenceClocks
  refine ⟨?nativeStarting, ?nativeReady, ?nativeAlone, ?compatReady, ?compatStarting, ?compatFails, ?ifoLater, ?ifoFirst,
    ?timeout, ?measured, ?windowInside, ?tripNow, ?tripLater, ?holdAlone, ?holdReturns, ?cfgAlone, ?cfgReturns, ?lossGood,
    ?lossBad, ?lossOutside⟩
  case nativeStarting =>
    intro s t u noted armed judged native starting
    have good : u = judgedGood 0 t := armed
    rw [exec_nativeJudgePass_judging noted judged native, good, refclkGood_starting (good ▸ starting)]
  case nativeReady =>
    intro s t u noted armed judged native later ready
    have good : u = judgedGood 0 t := armed
    rw [exec_nativeJudgePass_judging noted judged native, good, refclkGood_ready (good ▸ later) (good ▸ ready)]
  case nativeAlone =>
    intro s t u noted armed judged native later low
    have good : u = judgedGood 0 t := armed
    rw [exec_nativeJudgePass_judging noted judged native, good, refclkGood_alone (good ▸ later) (good ▸ low)]
  case compatReady =>
    intro s cycles u armed judged compat ready low high later still
    have good : u = judgedGood 1 s := armed
    rw [exec_compatJudgeEnd_inside judged compat ready low high, good, refclkGood_ready (good ▸ later) (good ▸ still)]
  case compatStarting =>
    intro s cycles u armed judged compat ready low high starting
    have good : u = judgedGood 1 s := armed
    rw [exec_compatJudgeEnd_inside judged compat ready low high, good, refclkGood_starting (good ▸ starting)]
  case compatFails =>
    intro s cycles missed t counted judged compat ready outside
    rw [counted]
    exact exec_compatJudgeEnd_outside judged compat ready outside
  case ifoLater => exact fun s t u => exec_ifoReady_later
  case ifoFirst => exact fun s t u => exec_ifoReady_first
  case timeout =>
    intro s low late start none
    exact congrArg Host.Outcome.next ((if_neg (by simp [low, late])).trans (startFails_starting start none))
  case measured =>
    intro s ppm good ready full
    exact congrArg Host.Outcome.next (if_pos (by rw [good, ready, full]; rfl))
  case windowInside => exact fun s count => exec_monitorWindowEnd_inside rfl
  case tripNow =>
    intro s count t u stored bad armed outside run
    rw [exec_monitorWindowEnd_outside stored armed outside, refclkTrip_reported bad run]
    rfl
  case tripLater =>
    intro s count t u stored bad armed outside stopped
    rw [exec_monitorWindowEnd_outside stored armed outside, refclkTrip_due bad stopped]
  case holdAlone =>
    intro s good held auto
    rw [exec_returnHoldExpiry_passed good held rfl, if_neg (ne_true_of_eq_false auto)]
  case holdReturns =>
    intro s good held auto
    rw [exec_returnHoldExpiry_passed good held rfl, if_pos auto]
  case cfgAlone =>
    intro s v t stored answers stays
    rw [exec_clkCfgWrite_open answers stored, if_neg (by rcases stays with h | h | h <;> simp [h])]
  case cfgReturns =>
    intro s v t stored answers auto held good
    rw [exec_clkCfgWrite_open answers stored, if_pos (by rw [auto, held, good]; rfl)]
  case lossGood =>
    intro s t u ended lost ready full run good
    rw [exec_ifoLoss_ready ended lost ready full, if_pos run, if_pos good]
  case lossBad =>
    intro s t u ended lost ready full run bad
    rw [exec_ifoLoss_ready ended lost ready full, if_pos run, if_neg (ne_true_of_eq_false bad)]
  case lossOutside =>
    intro s t u ended lost ready full outside
    rw [exec_ifoLoss_ready ended lost ready full, if_neg (ne_true_of_eq_false outside)]

/-! ## PLLs (R336-R344) -/

section pll

variable {s t u v : State} {unit : Nat}

section ifoLock

variable (moved : t = s.setPllRef unit 1) (there : (pllUnits s).contains unit = true)
  (without : pllRef s unit = 2 ∨ pllRef s unit = 3) (ready : s.on R.CLK_STAT_ifo_ready = true)

include moved there without ready

theorem exec_pllIfoLock_moved (tripped : v = if t.on R.CLK_STAT_refclk_good then refclkTrip t else t) :
    exec (.pllIfoLock unit) s = .next
      (if v.clk.tripDue && (pllUnits v).all (fun x => pllRef v x ≠ 3) then tripReport v else v) := by
  rw [tripped, moved]
  exact (onUnit_of_present there).trans (congrArg Host.Outcome.next (if_pos (by
    rcases without with h | h <;> simp [h, ready])))

theorem exec_pllIfoLock_settled (tripped : v = if t.on R.CLK_STAT_refclk_good then refclkTrip t else t)
    (rest : v.clk.tripDue = false ∨ (pllUnits v).all (fun x => pllRef v x ≠ 3) = false) :
    exec (.pllIfoLock unit) s = .next v :=
  (exec_pllIfoLock_moved moved there without ready tripped).trans (congrArg _ (if_neg (by
    rcases rest with h | h
    · simp only [h, Bool.false_and, Bool.false_eq_true, not_false_eq_true]
    · simp only [h, Bool.and_false, Bool.false_eq_true, not_false_eq_true])))

end ifoLock

theorem seamUp_two {b : Bool} {f : Fld} {n : Nat} (two : isLz4064 s = false) :
    seamUp b (s.wr f n) = ((s.wr f n).wrB (R.SEAM_STAT_up 0) b).wrB (R.SEAM_STAT_up 1) b :=
  if_neg (ne_true_of_eq_false two)

end pll

/-- Settles O36: each event of a PLL, on a PLL of the part. -/
theorem pllEvents : Obligations.PllEvents := by
  unfold Obligations.PllEvents
  refine ⟨?holdover, ?back, ?lockReports, ?lockTrips, ?lockLast, ?lockOnly, ?noClock, ?coreUnlock, ?coreRelock, ?mgmtUnlock,
    ?mgmtRelock, ?seamUnlock, ?seamRelock⟩
  case holdover =>
    intro s unit there refclk
    exact (onUnit_of_present there).trans (congrArg _ (if_pos refclk))
  case back =>
    intro s unit there without good
    exact (onUnit_of_present there).trans (congrArg _ (if_pos (by rcases without with h | h <;> simp [h, good])))
  case lockReports =>
    intro s unit t u v moved bad reported there without ready good run done
    have tripped : v = if t.on R.CLK_STAT_refclk_good then refclkTrip t else t := by
      rw [if_pos good, refclkTrip_reported bad run]
      exact reported
    exact exec_pllIfoLock_settled moved there without ready tripped (.inl done)
  case lockTrips =>
    intro s unit t u v moved bad due there without ready good stopped rest
    have tripped : v = if t.on R.CLK_STAT_refclk_good then refclkTrip t else t := by
      rw [if_pos good, refclkTrip_due bad stopped, due]
    exact exec_pllIfoLock_settled moved there without ready tripped (.inr rest)
  case lockLast =>
    intro s unit t moved there without ready bad due run
    rw [exec_pllIfoLock_moved moved there without ready (if_neg (ne_true_of_eq_false bad)).symm, if_pos (by
      rw [due, run]; rfl)]
    rfl
  case lockOnly =>
    intro s unit t moved there without ready bad rest
    exact exec_pllIfoLock_settled moved there without ready (if_neg (ne_true_of_eq_false bad)).symm rest
  case noClock =>
    intro s none run
    exact congrArg Host.Outcome.next (if_pos (by rw [none, run]; rfl))
  case coreUnlock =>
    intro s die there locked
    exact (onUnit_of_present (decide_eq_true there)).trans (congrArg _ (if_pos locked))
  case coreRelock =>
    intro s die there awake referenced
    exact (onUnit_of_present (decide_eq_true there)).trans (congrArg _ (if_pos (by
      simp only [mayRelock, awake, referenced, ne_eq, not_false_eq_true, decide_true, Bool.and_self])))
  case mgmtUnlock => exact fun s => rfl
  case mgmtRelock =>
    intro s awake referenced
    exact congrArg Host.Outcome.next (if_pos (by
      simp only [mayRelock, awake, referenced, ne_eq, not_false_eq_true, decide_true, Bool.and_self]))
  case seamUnlock =>
    intro s two locked
    exact (onUnit_of_present (by rw [two]; rfl)).trans (congrArg _ ((if_pos locked).trans (by rw [seamUp_two two])))
  case seamRelock =>
    intro s two awake referenced
    have relocks : mayRelock 3 s = true := by
      simp only [mayRelock, awake, referenced, ne_eq, not_false_eq_true, decide_true, Bool.and_self]
    exact (onUnit_of_present (by rw [two]; rfl)).trans (congrArg _ ((if_pos relocks).trans (seamUp_two two)))

end Sys2Proof.Machine

end

section
/-!
P-levels, clock gates and the frequency meter (R341-R349).
-/

namespace Sys2Proof.Machine

/-! ## P-levels (R341-R343) -/

section level

variable {s t u : State} {die level vout why cur : Nat}

section request

variable (reason : why = plWhy (die % 2) (level % 4) ((s.wr R.PL_CMD_die die).wr R.PL_CMD_level level))
  (recorded : t = (((((s.wr R.PL_CMD_die die).wr R.PL_CMD_level level).wr R.PL_LAST_valid 1).wr R.PL_LAST_why why).wr
    R.PL_LAST_die (die % 2)).wr R.PL_LAST_level (level % 4))
  (answers : pageOpen s 2 = true)

include reason recorded answers

theorem exec_plRequest_refused (against : why ≠ 0) :
    exec (.plRequest die level) s = .next (((t.wr R.PL_CMD_refused 1).bump R.PL_CNT_refusals).raise 292) := by
  rw [recorded]
  refine congrArg Host.Outcome.next ((ifOpen_open answers).trans ?_)
  simp only [plRequest, ← reason, if_pos against]

theorem exec_plRequest_granted (now : cur = t.rd (R.PL_STAT_level (die % 2)))
    (started : u = (t.wr R.PL_CMD_refused 0).putPl (die % 2) { since := t.clock, fromLevel := cur }) (none : why = 0) :
    exec (.plRequest die level) s = .next ((u.wr (R.PL_STAT_target (die % 2)) (level % 4)).wr
      (R.PL_STAT_phase (die % 2)) (if level % 4 < cur then 1 else 2)) := by
  rw [started, now, recorded]
  refine congrArg Host.Outcome.next ((ifOpen_open answers).trans ?_)
  simp only [plRequest, ← reason, if_neg (not_not_intro none)]

end request

theorem exec_plVoltageSettled_near (there : die < diesOf s) (runs : coreHeld s die = false)
    (low : vout ≤ levelVout (s.rd (R.PL_STAT_target die)) + 1)
    (high : levelVout (s.rd (R.PL_STAT_target die)) ≤ vout + 1) :
    exec (.plVoltageSettled die vout) s = .next
      (if s.rd (R.PL_STAT_phase die) = 1 then (s.wr (R.PL_STAT_vout die) vout).wr (R.PL_STAT_phase die) 2
        else if s.rd (R.PL_STAT_phase die) = 3 then plDone die (s.wr (R.PL_STAT_vout die) vout) else s) :=
  (onUnit_of_present (decide_eq_true there)).trans (congrArg _ (if_pos (by
    rw [runs, decide_eq_true low, decide_eq_true high]; rfl)))

theorem exec_plDividerSwitched_second
    (inForce : t = prkNotice (s.wr (R.PL_STAT_level die) (s.rd (R.PL_STAT_target die))))
    (sliced : u = if 2 ≤ s.rd (R.PL_STAT_target die) then slicesEnd die resLimit causePlevel t else suspectSlice die t)
    (there : die < diesOf s) (second : s.rd (R.PL_STAT_phase die) = 2) (runs : coreHeld s die = false) :
    exec (.plDividerSwitched die) s = .next (if s.rd (R.PL_STAT_target die) < (u.pl die).fromLevel then plDone die u
      else u.wr (R.PL_STAT_phase die) 3) := by
  rw [sliced, inForce]
  exact (onUnit_of_present (decide_eq_true there)).trans (congrArg _ (if_pos (by rw [decide_eq_true second, runs]; rfl)))

end level

/-! ## Clock gates (R346, R347) -/

section gate

variable {s t : State} {page v : Nat}
  (cleared : t = (gatePair page).foldl (fun x q => x.wr (R.CLK_EN_refused q) 0) s)
  (there : pageExists s page = true) (opens : phaseOpens s page = true)

include cleared there opens

theorem exec_clkEnWrite_open :
    exec (.clkEnWrite page v) s = .next
      (if bit v 0 then (if t.rd (R.CLK_EN_en page) = 0 then setGate page true t else t)
      else if t.rd (R.CLK_EN_en page) = 0 then t
      else if gateable page && mayGate t page then setGate page false t
      else (gatePair page).foldl (fun x q => x.wr (R.CLK_EN_refused q) 1) t) := by
  rw [cleared]
  exact congrArg Host.Outcome.next (if_pos (by rw [there, opens]; rfl))

end gate

/-! ## The frequency meter (R349) -/

section meter

variable {s : State}

theorem exec_fmStart_idle (answers : pageOpen s 1 = true) (idle : s.on R.FM_CMD_busy = false) :
    exec .fmStart s = .next (if 56 ≤ s.rd R.FM_SEL_meas_sel || 56 ≤ s.rd R.FM_SEL_ref_sel then s.wr R.FM_CMD_refused 1
      else (s.wr R.FM_CMD_refused 0).wr R.FM_CMD_busy 1) :=
  congrArg Host.Outcome.next ((ifOpen_open answers).trans (if_neg (ne_true_of_eq_false idle)))

theorem exec_fmRunEnd_busy {how count : Nat} (busy : s.on R.FM_CMD_busy = true) (low : 1 ≤ how) (high : how ≤ 3) :
    exec (.fmRunEnd how count) s = .next
      (if how = 1 then ((s.wr R.FM_CMD_busy 0).wr R.FM_CMD_status how).wr R.FM_COUNT (min count (maxOf 32))
      else (s.wr R.FM_CMD_busy 0).wr R.FM_CMD_status how) :=
  congrArg Host.Outcome.next (if_pos (by rw [busy, decide_eq_true low, decide_eq_true high]; rfl))

end meter

/-- Settles O37: P-level requests and their steps, the clock gates and the frequency meter, by the branches of each. -/
theorem powerAndGates : Obligations.PowerAndGates := by
  unfold Obligations.PowerAndGates
  refine ⟨?refused, ?upward, ?downward, ?settledFirst, ?settledThird, ?switchedUp, ?switchedDown, ?gateOpens, ?gateStays,
    ?gateCloses, ?gateRefused, ?meterStarts, ?meterRefused, ?meterDone, ?meterEnds⟩
  case refused => exact fun s die level why t => exec_plRequest_refused
  case upward =>
    intro s die level why cur t u reason recorded now started answers none less
    rw [exec_plRequest_granted reason recorded answers now started none, if_pos less]
  case downward =>
    intro s die level why cur t u reason recorded now started answers none more
    rw [exec_plRequest_granted reason recorded answers now started none, if_neg (Nat.not_lt.mpr more)]
  case settledFirst =>
    intro s die vout there runs low high first
    rw [exec_plVoltageSettled_near there runs low high, if_pos first]
  case settledThird =>
    intro s die vout t stored there runs low high third
    rw [exec_plVoltageSettled_near there runs low high, if_neg (by simp [third]), if_pos third, stored]
    rfl
  case switchedUp =>
    intro s die t u inForce sliced there second runs less
    rw [exec_plDividerSwitched_second inForce sliced there second runs, if_pos less]
    rfl
  case switchedDown =>
    intro s die t u inForce sliced there second runs more
    rw [exec_plDividerSwitched_second inForce sliced there second runs, if_neg (Nat.not_lt.mpr more)]
  case gateOpens =>
    intro s page v t cleared there opens on gated
    rw [exec_clkEnWrite_open cleared there opens, if_pos on, if_pos gated]
  case gateStays =>
    intro s page v t cleared there opens already
    rw [exec_clkEnWrite_open cleared there opens]
    by_cases on : bit v 0 = true
    · rw [if_pos on, if_neg (already.mp on)]
    · rw [if_neg on, if_pos (Decidable.not_not.mp fun gated => on (already.mpr gated))]
  case gateCloses =>
    intro s page v t cleared there opens off clocked may allowed
    rw [exec_clkEnWrite_open cleared there opens, if_neg (ne_true_of_eq_false off), if_neg clocked, if_pos (by
      rw [may, allowed]; rfl)]
  case gateRefused =>
    intro s page v t cleared there opens off clocked bars
    rw [exec_clkEnWrite_open cleared there opens, if_neg (ne_true_of_eq_false off), if_neg clocked, if_neg (by
      rcases bars with h | h <;> simp [h])]
  case meterStarts =>
    intro s answers idle meas ref
    rw [exec_fmStart_idle answers idle, if_neg (by simp [meas, ref])]
  case meterRefused =>
    intro s answers idle range
    rw [exec_fmStart_idle answers idle, if_pos (by simpa using range)]
  case meterDone =>
    intro s count busy
    rw [exec_fmRunEnd_busy busy (Nat.le_refl 1) (by decide), if_pos rfl]
  case meterEnds =>
    intro s how count busy low high
    rw [exec_fmRunEnd_busy busy (Nat.le_of_succ_le low) high, if_neg (Nat.ne_of_gt low)]

end Sys2Proof.Machine

end

section
/-!
WATCH (R350-R355): its entry, the causes that wake the package, and the end of a wake.
-/

namespace Sys2Proof.Machine

section enter

variable {s t : State} {force : Bool}
  (stored : t = (s.wrB R.WATCH_CMD_force force).wr R.WATCH_CMD_op 0) (answers : pageOpen s 2 = true)
  (idle : t.on R.WATCH_CMD_busy = false)

include stored answers idle

theorem exec_watchEnter_granted {u v : State} (none : watchWhy t force = 0)
    (granted : u = ((t.wr R.WATCH_CMD_why 0).wr R.WATCH_CMD_refused 0).wr R.WATCH_CMD_busy 1)
    (halted : v = loopStopAll (haltAll { u with dev := { u.dev with watchEntry := true } })) :
    exec (.watchEnter force) s = .next ((List.range (clustersOf v)).foldl (fun s c => calAbortAny c s) v) := by
  rw [halted, granted]
  refine congrArg Host.Outcome.next ((ifOpen_open answers).trans ?_)
  simp only [watchEnter, ← stored, idle, none, ne_eq, not_true_eq_false, Bool.false_eq_true, if_false]

theorem exec_watchEnter_refused (against : watchWhy t force ≠ 0) :
    exec (.watchEnter force) s = .next ((t.wr R.WATCH_CMD_why (watchWhy t force)).wr R.WATCH_CMD_refused 1) := by
  refine congrArg Host.Outcome.next ((ifOpen_open answers).trans ?_)
  simp only [watchEnter, ← stored, idle, if_pos against, Bool.false_eq_true, if_false]

end enter

theorem exec_watchWake_idle {s : State} (answers : pageOpen s 2 = true)
    (idle : (s.wr R.WATCH_CMD_op 1).on R.WATCH_CMD_busy = false) :
    exec .watchWake s = .next (if s.dev.phase = .watch then
      wakeStart 5 0 ((s.wr R.WATCH_CMD_op 1).wr R.WATCH_CMD_refused 0)
      else (s.wr R.WATCH_CMD_op 1).wr R.WATCH_CMD_refused 1) :=
  congrArg Host.Outcome.next ((ifOpen_open answers).trans (if_neg (ne_true_of_eq_false idle)))

section wake

variable {w t u v : State} {cause index : Nat}

/-- A wake records its cause and time, takes the IFO out of LOW and begins a judgement (R353, R354). -/
theorem wakeStart_eq
    (recorded : t = ((w.wr R.WATCH_STAT_valid 1).wr R.WATCH_STAT_cause cause).wr R.WATCH_STAT_index index)
    (waking : u = { t with dev := { t.dev with waking := true, wakeAt := t.clock, stuck := false } })
    (busy : v = (if u.on R.CLK_STAT_ifo_low then (u.wr R.CLK_STAT_ifo_low 0).wr R.CLK_STAT_ifo_ready 0 else u).wr
      R.WATCH_CMD_busy 1) :
    wakeStart cause index w = { v with clk := { v.clk with judgeNow := judgeCompat v } } := by
  rw [busy, waking, recorded]
  rfl

end wake

section sources

variable {s : State} {src : Nat}

theorem exec_wakeSource_pending (listed : src < 320) (wakes : canWake s = true) (has : sourceExists s src = true)
    (pending : s.on (R.SRC_CFG_pend src) = true) :
    exec (.wakeSource src) s = .next
      (if isNmi src then wakeStart 1 src s else if watched s src then wakeStart 2 src s else s) :=
  (onUnit_of_present (decide_eq_true listed)).trans (congrArg _ (if_pos (by rw [wakes, has, pending]; rfl)))

theorem exec_wakeIfoTimeout_due (waking : s.dev.waking = true) (late : s.dev.wakeAt + 200000 ≤ s.clock)
    (low : s.on R.CLK_STAT_ifo_ready = false) :
    exec .wakeIfoTimeout s = .next (if (s.raise 257).on R.CLK_STAT_refclk_good then
      { s.raise 257 with clk := { (s.raise 257).clk with aoRefclk := true } }
      else ({ s.raise 257 with dev := { (s.raise 257).dev with waking := false, stuck := true } } : State).wr
        R.WATCH_CMD_busy 0) :=
  congrArg Host.Outcome.next (if_pos (by rw [waking, decide_eq_true late, low]; rfl))

end sources

/-- Settles O38: entry, wake and their ends, each by the conditions its rule names. -/
theorem watchCommands : Obligations.WatchCommands := by
  unfold Obligations.WatchCommands
  refine ⟨?enters, ?refused, ?entered, ?wakes, ?wakeRefused, ?pin, ?signal, ?nmi, ?watched, ?completes, ?runsOn,
    ?stuck⟩
  case enters =>
    intro s force t u v stored granted halted answers idle none
    exact exec_watchEnter_granted stored answers idle none granted halted
  case refused => exact fun s force t => exec_watchEnter_refused
  case entered =>
    intro s t u v stopped low disarmed entry asleep sent
    rw [disarmed, low, stopped]
    exact congrArg Host.Outcome.next (if_pos (by rw [entry, asleep, sent]; rfl))
  case wakes =>
    intro s w t u v cleared recorded waking busy answers idle watch
    rw [exec_watchWake_idle answers idle, if_pos watch, ← cleared, wakeStart_eq recorded waking busy]
  case wakeRefused =>
    intro s answers idle elsewhere
    rw [exec_watchWake_idle answers idle, if_neg elsewhere]
  case pin =>
    intro s t u v recorded waking busy can enabled
    exact congrArg Host.Outcome.next
      ((if_pos (by rw [can, enabled]; rfl)).trans (wakeStart_eq recorded waking busy))
  case signal =>
    intro s n sd w t u v seen recorded waking busy there can enabled used
    refine (onUnit_of_present there).trans (congrArg Host.Outcome.next ((if_pos (by rw [can, enabled, used]; rfl)).trans ?_))
    rw [← seen, wakeStart_eq recorded waking busy]
  case nmi =>
    intro s src t u v recorded waking busy listed can has pending nmi
    rw [exec_wakeSource_pending listed can has pending, if_pos nmi, wakeStart_eq recorded waking busy]
  case watched =>
    intro s src t u v recorded waking busy listed can has pending maskable watches
    rw [exec_wakeSource_pending listed can has pending, if_neg (ne_true_of_eq_false maskable), if_pos watches,
      wakeStart_eq recorded waking busy]
  case completes =>
    intro s t u v powered runs kept waking locked
    rw [kept, runs, powered]
    exact congrArg Host.Outcome.next (if_pos (by rw [waking, locked]; rfl))
  case runsOn =>
    intro s waking late low good
    rw [exec_wakeIfoTimeout_due waking late low, if_pos good]
  case stuck =>
    intro s waking late low bad
    rw [exec_wakeIfoTimeout_due waking late low, if_neg (ne_true_of_eq_false bad)]

end Sys2Proof.Machine

end

section
/-!
SUPPORT. Updates of the register store alone: which fields they may change (`OnlyWrites`), and what a field reads after them.
-/

namespace Sys2Proof.Machine

/-! ## Frames of register writes -/

/-- `t` is `s` but for writes of the fields `fs` of the register store. -/
structure OnlyWrites (fs : List Fld) (s t : State) : Prop where
  rest : sameButRegs s t
  wf : Tbl.wf resetOf s.regs = true → Tbl.wf resetOf t.regs = true
  rd_eq : ∀ g : Fld, (∀ f ∈ fs, g.key ≠ f.key) → t.rd g = s.rd g

namespace OnlyWrites

variable {fs hs : List Fld} {s t u : State} {f g : Fld}

theorem refl : OnlyWrites fs s s := ⟨rfl, id, fun _ _ => rfl⟩

theorem wr {v : Nat} (h : OnlyWrites fs s t) (listed : f ∈ fs) : OnlyWrites fs s (t.wr f v) :=
  ⟨h.rest, fun canonical => wr_regs_wf (h.wf canonical), fun g other => (rd_wr_ne (other f listed)).trans (h.rd_eq g other)⟩

theorem wrB {b : Bool} (h : OnlyWrites fs s t) (listed : f ∈ fs) : OnlyWrites fs s (t.wrB f b) := h.wr listed

theorem ite {p : Prop} [Decidable p] (ht : OnlyWrites fs s t) (hu : OnlyWrites fs s u) :
    OnlyWrites fs s (if p then t else u) := by
  split
  · exact ht
  · exact hu

theorem bump (h : OnlyWrites fs s t) (listed : f ∈ fs) : OnlyWrites fs s (t.bump f) := ite (h.wr listed) h

theorem rest_of (h : OnlyWrites fs t u) (rest : sameButRegs s t) : sameButRegs s u := by
  have first : { u with regs := s.regs } = { t with regs := s.regs } :=
    congrArg (fun x : State => { x with regs := s.regs }) h.rest
  rw [sameButRegs, first]
  exact rest

theorem trans (h : OnlyWrites fs s t) (h' : OnlyWrites fs t u) : OnlyWrites fs s u :=
  ⟨h'.rest_of h.rest, fun canonical => h'.wf (h.wf canonical),
    fun g other => (h'.rd_eq g other).trans (h.rd_eq g other)⟩

theorem mono (h : OnlyWrites fs s t) (sub : ∀ f ∈ fs, f ∈ hs) : OnlyWrites hs s t :=
  ⟨h.rest, h.wf, fun g other => h.rd_eq g fun f listed => other f (sub f listed)⟩

/-- A run of updates, one for each element of a list, that each write listed fields alone. -/
theorem foldl {α : Type} {step : State → α → State} {xs : List α}
    (each : ∀ x ∈ xs, ∀ t, OnlyWrites fs t (step t x)) : OnlyWrites fs s (xs.foldl step s) := by
  induction xs generalizing s with
  | nil => exact refl
  | cons x xs ih =>
    exact (each x List.mem_cons_self s).trans (ih fun y listed => each y (List.mem_cons_of_mem x listed))

theorem on_eq (h : OnlyWrites fs s t) (other : ∀ f ∈ fs, g.key ≠ f.key) : t.on g = s.on g := by
  rw [State.on, h.rd_eq g other, State.on]

/-- Everything outside the register store, through any part of the state that does not hold it. -/
theorem part {α : Type} (h : OnlyWrites fs s t) (p : State → α) (out : ∀ x : State, ∀ r, p { x with regs := r } = p x) :
    p t = p s :=
  (out t s.regs).symm.trans (congrArg p h.rest)

end OnlyWrites

/-! ## What a field reads -/

section reads

variable {s : State} {f g : Fld}

theorem rd_bump (canonical : Tbl.wf resetOf s.regs = true) :
    (s.bump f).rd f = if s.rd f < maxOf f.width then s.rd f + 1 else s.rd f := by
  rw [State.bump]
  split
  case isTrue room =>
    have fits : s.rd f + 1 < 2 ^ f.width := by
      rw [maxOf] at room
      exact Nat.add_lt_of_lt_sub room
    rw [rd_wr_same canonical, Nat.mod_eq_of_lt fits]
  case isFalse full => rfl

theorem rd_bump_ne (other : g.key ≠ f.key) : (s.bump f).rd g = s.rd g := by
  rw [State.bump]
  split
  case isTrue => exact rd_wr_ne other
  case isFalse => rfl

theorem on_wrB (canonical : Tbl.wf resetOf s.regs = true) (bit : f.width = 1) {b : Bool} : (s.wrB f b).on f = b := by
  rw [State.wrB, on_wr_same canonical, bit]
  cases b <;> rfl

end reads

/-! ## A run of writes -/

/-- Write each field of a list with its value, in order. -/
def writeAll (ws : List (Fld × Nat)) (s : State) : State := ws.foldl (fun t w => t.wr w.1 w.2) s

theorem onlyWrites_writeAll {ws : List (Fld × Nat)} {s : State} : OnlyWrites (ws.map Prod.fst) s (writeAll ws s) :=
  .foldl fun _ listed _ => OnlyWrites.refl.wr (List.mem_map_of_mem listed)

theorem writeAll_append {ws xs : List (Fld × Nat)} {s : State} : writeAll (ws ++ xs) s = writeAll xs (writeAll ws s) :=
  List.foldl_append

/-- A field of a run of writes at different places reads what it was given, cut to its width. -/
theorem rd_writeAll {ws : List (Fld × Nat)} {s : State} (canonical : Tbl.wf resetOf s.regs = true)
    (apart : ((ws.map Prod.fst).map Fld.key).Nodup) {f : Fld} {v : Nat} (listed : (f, v) ∈ ws) :
    (writeAll ws s).rd f = v % 2 ^ f.width := by
  induction ws generalizing s with
  | nil => exact nomatch listed
  | cons w ws ih =>
    obtain ⟨away, apart⟩ := List.nodup_cons.mp apart
    rcases List.mem_cons.mp listed with rfl | later
    · have kept : OnlyWrites (ws.map Prod.fst) (s.wr f v) (writeAll ws (s.wr f v)) := onlyWrites_writeAll
      exact (kept.rd_eq f fun g written same => away (same ▸ List.mem_map_of_mem written)).trans (rd_wr_same canonical)
    · exact ih (wr_regs_wf canonical) apart later

theorem rd_foldl_wr {v : Fld → Nat} {fs : List Fld} {s : State} (canonical : Tbl.wf resetOf s.regs = true)
    (apart : (fs.map Fld.key).Nodup) {f : Fld} (listed : f ∈ fs) :
    (fs.foldl (fun t f => t.wr f (v f)) s).rd f = v f % 2 ^ f.width := by
  have run : fs.foldl (fun t f => t.wr f (v f)) s = writeAll (fs.map fun f => (f, v f)) s := by
    rw [writeAll, List.foldl_map]
  have names : (fs.map fun f => (f, v f)).map Prod.fst = fs := List.map_map.trans (List.map_id fs)
  rw [run]
  exact rd_writeAll canonical (by rw [names]; exact apart) (List.mem_map_of_mem (f := fun f => (f, v f)) listed)

end Sys2Proof.Machine

end

section
/-!
Resets, release and START (R401, R465-R481): what a reset keeps, and what the end of each step of START does.
-/

namespace Sys2Proof.Machine

/-! ## Resets (R401, R466, R477) -/

section resets

variable {s t : State}

/-- The package held in reset, before the fields that a pin or brown-out reset keeps are put back. -/
def heldInReset (s : State) (railLow : Bool) (log : List Nat) : State :=
  { State.reset with
    pending := s.pending, freeCtr := s.freeCtr, fuse := s.fuse,
    dev := { State.reset.dev with jtag := s.dev.jtag, cells := s.dev.cells, railLow := railLow },
    bist := { State.reset.bist with log := log } }

theorem resetTo_power : resetTo 1 s = (heldInReset s true []).wr R.RST_CAUSE_kind 1 := rfl

theorem resetTo_pin : resetTo 3 s = (keptFields.foldl (fun t f => t.wr f (s.rd f))
    (heldInReset s s.dev.railLow s.bist.log)).wr R.RST_CAUSE_kind 3 := rfl

theorem resetTo_brown : resetTo 2 s = (keptFields.foldl (fun t f => t.wr f (s.rd f))
    (heldInReset s true s.bist.log)).wr R.RST_CAUSE_kind 2 := rfl

theorem exec_pinReset_running (running : s.dev.phase ≠ .off) :
    exec .pinReset s = .next ((resetTo 3 s).bump R.RST_CAUSE_pins) :=
  congrArg Host.Outcome.next (if_neg running)

theorem exec_brownOutReset_fails {rail mv ns : Nat} (there : rail < 4) (below : mv < (railLevels rail).2) (long : 100 < ns)
    (held : (s.dev.phase = .off && s.rd R.RST_CAUSE_kind = 1) = false) :
    exec (.brownOutReset ⟨rail, mv, ns⟩) s =
      .next ((((resetTo 2 s).wr R.BO_LAST_valid 1).wr R.BO_LAST_rail rail).bump R.BO_LAST_count) :=
  (onUnit_of_present (decide_eq_true there)).trans (congrArg _ (if_neg (by
    simp only [railFails, decide_eq_true below, decide_eq_true long, held, Bool.and_true, Bool.not_true, Bool.or_false,
      Bool.false_eq_true, not_false_eq_true])))

/-- In reset a field reads its reset value. -/
theorem rd_heldInReset {railLow : Bool} {log : List Nat} {f : Fld} : (heldInReset s railLow log).rd f = resetOf f.key := rfl

/-- A state that differs from the package in reset in registers alone, but for the bits named, is the reset state. -/
theorem heldInReset_forgotten {railLow : Bool} {log : List Nat} {fs : List Fld}
    (written : OnlyWrites fs (heldInReset s railLow log) t) :
    { t with
      regs := [], pending := [], freeCtr := 0, fuse := shippedFuses,
      dev := { t.dev with jtag := State.reset.dev.jtag, cells := State.reset.dev.cells, railLow := true },
      bist := { t.bist with log := State.reset.bist.log } } = State.reset :=
  (congrArg (fun x : State => { x with
      regs := [], pending := [], freeCtr := 0, fuse := shippedFuses,
      dev := { x.dev with jtag := State.reset.dev.jtag, cells := State.reset.dev.cells, railLow := true },
      bist := { x.bist with log := State.reset.bist.log } }) written.rest : _)

theorem keptFields_apart : (keptFields.map Fld.key).Nodup := by decide

theorem kept_ne_kind : ∀ f ∈ keptFields, f.key ≠ R.RST_CAUSE_kind.key := by decide

theorem key_ne_pins : ∀ f ∈ keptFields, f ≠ R.RST_CAUSE_pins → f.key ≠ R.RST_CAUSE_pins.key := by decide

theorem key_ne_boLast : ∀ f ∈ keptFields, f ≠ R.BO_LAST_valid → f ≠ R.BO_LAST_rail → f ≠ R.BO_LAST_count →
    f.key ≠ R.BO_LAST_valid.key ∧ f.key ≠ R.BO_LAST_rail.key ∧ f.key ≠ R.BO_LAST_count.key := by decide

section putBack

variable {kind : Nat} {railLow : Bool} {log : List Nat} {u : State}
  (putBack : u = (keptFields.foldl (fun t f => t.wr f (s.rd f)) (heldInReset s railLow log)).wr R.RST_CAUSE_kind kind)

include putBack

theorem putBack_writes : OnlyWrites (R.RST_CAUSE_kind :: keptFields) (heldInReset s railLow log) u := by
  rw [putBack]
  exact (OnlyWrites.foldl fun f listed t => OnlyWrites.refl.wr (List.mem_cons_of_mem _ listed)).wr List.mem_cons_self

theorem putBack_wf : Tbl.wf resetOf u.regs = true := (putBack_writes putBack).wf rfl

theorem rd_putBack_kind : u.rd R.RST_CAUSE_kind = kind % 4 := by
  rw [putBack]
  exact rd_wr_same ((OnlyWrites.foldl fun f listed t => OnlyWrites.refl.wr (fs := keptFields) listed).wf rfl)

theorem rd_putBack : ∀ f ∈ keptFields, u.rd f = s.rd f % 2 ^ f.width := by
  intro f listed
  rw [putBack]
  exact (rd_wr_ne (kept_ne_kind f listed)).trans (rd_foldl_wr rfl keptFields_apart listed)

end putBack

end resets

/-- Settles O58: the fields put back are read one by one, and all else is the reset state. -/
theorem resetsForgetAllButWhatTheyKeep : Obligations.ResetsForgetAllButWhatTheyKeep := by
  unfold Obligations.ResetsForgetAllButWhatTheyKeep
  refine ⟨?power, ?pin, ?pinHeld, ?brown⟩
  case power =>
    intro s
    have written : OnlyWrites [R.RST_CAUSE_kind] (heldInReset s true []) ((heldInReset s true []).wr R.RST_CAUSE_kind 1) :=
      OnlyWrites.refl.wr List.mem_cons_self
    refine ⟨(heldInReset s true []).wr R.RST_CAUSE_kind 1, congrArg Host.Outcome.next resetTo_power, rd_wr_same rfl, ?fields,
      heldInReset_forgotten written, rfl, rfl, rfl, rfl⟩
    case fields =>
      intro f other
      exact written.rd_eq f fun g listed => List.mem_singleton.mp listed ▸ other
  case pin =>
    intro s _ running
    have written := putBack_writes (resetTo_pin (s := s))
    have counted := written.bump (f := R.RST_CAUSE_pins) (by decide)
    refine ⟨_, exec_pinReset_running running, ?kind, ?kept, ?pins, ?fields, heldInReset_forgotten counted,
      ?_, ?_, ?_, ?_, ?_⟩
    case kind => exact (rd_bump_ne (by decide)).trans (rd_putBack_kind resetTo_pin)
    case kept =>
      intro f listed other
      exact (rd_bump_ne (key_ne_pins f listed other)).trans (rd_putBack resetTo_pin f listed)
    case pins =>
      rw [rd_bump (putBack_wf resetTo_pin), rd_putBack resetTo_pin _ (by decide)]
      rfl
    case fields => exact fun f other => counted.rd_eq f other
    · exact counted.part (fun x => x.dev.railLow) fun _ _ => rfl
    · exact counted.part (fun x => x.dev.jtag) fun _ _ => rfl
    · exact counted.part (fun x => x.dev.cells) fun _ _ => rfl
    · exact counted.part State.fuse fun _ _ => rfl
    · exact counted.part (fun x => x.bist.log) fun _ _ => rfl
  case pinHeld => exact fun s held => congrArg Host.Outcome.next (if_pos held)
  case brown =>
    intro s rail mv ns _ there below long outside
    have free : (s.dev.phase = .off && s.rd R.RST_CAUSE_kind = 1) = false := by
      rcases outside with h | h <;> simp [h]
    have written := putBack_writes (resetTo_brown (s := s))
    have recorded := (written.wr (f := R.BO_LAST_valid) (v := 1) (by decide)).wr (f := R.BO_LAST_rail) (v := rail) (by decide)
    have counted := recorded.bump (f := R.BO_LAST_count) (by decide)
    refine ⟨_, exec_brownOutReset_fails there below long free, ?kind, ?valid, ?rail, ?count, ?kept, ?fields,
      heldInReset_forgotten counted, ?_, ?_, ?_, ?_, ?_⟩
    case kind =>
      rw [rd_bump_ne (by decide), rd_wr_ne (by decide), rd_wr_ne (by decide), rd_putBack_kind resetTo_brown]
    case valid =>
      rw [rd_bump_ne (by decide), rd_wr_ne (by decide), rd_wr_same (putBack_wf resetTo_brown)]
      rfl
    case rail =>
      rw [rd_bump_ne (by decide), rd_wr_same (wr_regs_wf (putBack_wf resetTo_brown))]
      exact Nat.mod_eq_of_lt there
    case count =>
      rw [rd_bump (recorded.wf rfl), rd_wr_ne (by decide), rd_wr_ne (by decide), rd_putBack resetTo_brown _ (by decide)]
      rfl
    case kept =>
      intro f listed noValid noRail noCount
      obtain ⟨valid, rail, count⟩ := key_ne_boLast f listed noValid noRail noCount
      rw [rd_bump_ne count, rd_wr_ne rail, rd_wr_ne valid, rd_putBack resetTo_brown f listed]
    case fields => exact fun f other => counted.rd_eq f other
    · exact counted.part (fun x => x.dev.railLow) fun _ _ => rfl
    · exact counted.part (fun x => x.dev.jtag) fun _ _ => rfl
    · exact counted.part (fun x => x.dev.cells) fun _ _ => rfl
    · exact counted.part State.fuse fun _ _ => rfl
    · exact counted.part (fun x => x.bist.log) fun _ _ => rfl

end Sys2Proof.Machine

end

section
/-!
START and boot (R378-R391, R467-R481): release, the end of each step, the waits of the ring and of POST, and boot release.
-/

namespace Sys2Proof.Machine

section release

variable {s t u : State} {straps : Nat}

theorem exec_resetRelease_held (loaded : t = clearDie1 (loadFuses (latchStraps straps s)))
    (started : u = ({ t with dev := { t.dev with phase := .start, railLow := false }, fab := 0, clock := 0 } : State).wr
      R.START_STAT_step 1)
    (held : s.dev.phase = .off) : exec (.resetRelease straps) s = .next (judgeStart u) := by
  rw [started, loaded]
  exact congrArg Host.Outcome.next (if_pos held)

end release

/-! ## The end of a step (R372, R378, R380, R472, R473) -/

section stepEnd

variable {s t : State} {res : StartEnd}

theorem exec_startStepEnd_runs (fresh : t = s.freshOut) (start : s.dev.phase = .start) (none : s.rd R.START_STAT_result = 0)
    (calm : s.dev.testEntry = 0) : exec (.startStepEnd res) s = .next (startStepEnd res t) := by
  rw [fresh]
  exact congrArg Host.Outcome.next (if_pos (by
    rw [decide_eq_true start, decide_eq_true none, decide_eq_true calm]; rfl))

theorem startStepEnd_one (step : t.rd R.START_STAT_step = 1) :
    startStepEnd .done t =
      if !saffronOk t then startFails 1 (putDigest R.DIG_SAF_digest (Config.sha384 t.fuse.saffron) t)
      else if calNoClock (putDigest R.DIG_SAF_digest (Config.sha384 t.fuse.saffron) t) then
        startStep 2 (putDigest R.DIG_SAF_digest (Config.sha384 t.fuse.saffron) t)
      else enterCalibrate (putDigest R.DIG_SAF_digest (Config.sha384 t.fuse.saffron) t) := by
  have saffron : saffronOk (putDigest R.DIG_SAF_digest (Config.sha384 t.fuse.saffron) t) = saffronOk t := rfl
  unfold startStepEnd
  rw [step, ← saffron]
  rfl

theorem startStepEnd_two (step : t.rd R.START_STAT_step = 2) :
    startStepEnd .done t = if calNoClock t then t else enterCalibrate t := by
  unfold startStepEnd
  rw [step]
  rfl

theorem startStepEnd_three (step : t.rd R.START_STAT_step = 3) :
    startStepEnd .done t = if allCalibrated t then enterRepair t else t := by
  unfold startStepEnd
  rw [step]
  rfl

theorem startStepEnd_runs {runs : List (Nat × Nat × CalMeasure)} (step : t.rd R.START_STAT_step = 3) :
    startStepEnd (.calibrate runs) t =
      if allCalibrated (startRuns runs t) then enterRepair (startRuns runs t) else startRuns runs t := by
  unfold startStepEnd
  rw [step]
  rfl

theorem startStepEnd_four (step : t.rd R.START_STAT_step = 4) : startStepEnd .done t = enterPost (burnLog t) := by
  unfold startStepEnd
  rw [step]
  rfl

theorem startStepEnd_five {r : PostEnd} (step : t.rd R.START_STAT_step = 5) :
    startStepEnd (.post r) t = if t.bist.pauseFrom.isSome then t
      else if (postRecord r t).rd R.BST_POST_result = resPass || (postRecord r t).rd R.BST_POST_result = resRepaired
      then startStep 6 (loadBegins (postRecord r t)) else startFails 4 (postRecord r t) := by
  unfold startStepEnd
  rw [step]
  rfl

theorem startStepEnd_six (step : t.rd R.START_STAT_step = 6) :
    startStepEnd .done t = if t.on R.BT_STAT_loading then t else afterTable t := by
  unfold startStepEnd
  rw [step]
  rfl

theorem startStepEnd_seven (step : t.rd R.START_STAT_step = 7) :
    startStepEnd .done t = enterRing (if t.clk.rejudge then rejudgeFailed t else t) := by
  unfold startStepEnd
  rw [step]
  rfl

theorem startStepEnd_eight (step : t.rd R.START_STAT_step = 8) :
    startStepEnd .done t = if t.on R.PCT_STAT_enum_done then startStep 9 t else t := by
  unfold startStepEnd
  rw [step]
  rfl

end stepEnd

/-! ## The waits, the end of START and boot release (R376, R470, R476) -/

section ends

variable {s t u v : State}

theorem exec_startComplete_last
    (runs : t = ({ s.freshOut with
      dev := { s.dev with phase := .run, held := s.freshOut.rd R.STRAPS_boot_eff = 2, everRun := true } } : State).wr
      R.START_STAT_result 1)
    (timed : u = t.wr R.START_STAT_us (min (s.clock / 1000) 65535))
    (clocked : v = if u.rd (R.CLK_EN_en 7) = 0
      then { u with bist := { u.bist with nextAt := none, leftAt := bistInterval u } }
      else { u with bist := { u.bist with nextAt := some (u.clock + bistInterval u) } })
    (start : s.dev.phase = .start) (noResult : s.rd R.START_STAT_result = 0) (last : s.rd R.START_STAT_step = 9)
    (calm : s.dev.testEntry = 0) :
    exec .startComplete s = .next (haltFenced (if v.dev.held then v else v.sendReady)) := by
  rw [clocked, timed, runs]
  exact congrArg Host.Outcome.next (if_pos (by
    rw [decide_eq_true start, decide_eq_true noResult, decide_eq_true last, decide_eq_true calm]; rfl))

theorem exec_bootRelease_open (asked : t = s.freshOut.wr R.BOOT_CMD_op 0) (answers : pageOpen s 0 = true) :
    exec .bootRelease s = .next (if !t.dev.held || t.on R.BT_STAT_loading then t.wr R.BOOT_CMD_refused 1
      else (({ t with dev := { t.dev with held := false } } : State).wr R.BOOT_CMD_refused 0).sendReady) := by
  rw [asked]
  exact congrArg Host.Outcome.next (ifOpen_open answers)

end ends

/-- Settles O45: the resets by what they put back, START by the step whose end is reported. -/
theorem resetAndStart : Obligations.ResetAndStart := by
  unfold Obligations.ResetAndStart
  refine ⟨?power, ?pin, ?pinHeld, ?brown, ?brownNot, ?release, ?releaseNot, ?oneFails, ?one, ?twoWaits, ?two, ?runsAll,
    ?runsMore, ?threeAll, ?threeMore, ?four, ?fivePaused, ?five, ?sixLoads, ?six, ?sevenAgain, ?seven, ?eight, ?eightWaits,
    ?test, ?ringWait, ?pauses, ?pausesNot, ?complete, ?boot, ?bootRefused⟩
  case power =>
    intro s t held
    rw [held]
    exact congrArg Host.Outcome.next resetTo_power
  case pin =>
    intro s t held running
    rw [held]
    exact exec_pinReset_running running
  case pinHeld => exact fun s held => congrArg Host.Outcome.next (if_pos held)
  case brown =>
    intro s rail mv ns t held there below long free
    rw [held]
    exact exec_brownOutReset_fails there below long free
  case brownNot =>
    intro s rail mv ns there spared
    exact (onUnit_of_present (decide_eq_true there)).trans (congrArg _ (if_pos spared))
  case release => exact fun s straps t u => exec_resetRelease_held
  case releaseNot => exact fun s straps running => congrArg Host.Outcome.next (if_neg running)
  case oneFails =>
    intro s t u fresh start none calm step digested bad
    rw [exec_startStepEnd_runs fresh start none calm, startStepEnd_one step, ← digested, if_pos (by rw [bad]; rfl)]
  case one =>
    intro s t u fresh start none calm step digested good
    rw [exec_startStepEnd_runs fresh start none calm, startStepEnd_one step, ← digested, if_neg (by simp [good])]
  case twoWaits =>
    intro s t fresh start none calm step stopped
    rw [exec_startStepEnd_runs fresh start none calm, startStepEnd_two step, if_pos stopped]
  case two =>
    intro s t fresh start none calm step clocked
    rw [exec_startStepEnd_runs fresh start none calm, startStepEnd_two step, if_neg (ne_true_of_eq_false clocked)]
  case runsAll =>
    intro s t u runs fresh start none calm step run all
    rw [exec_startStepEnd_runs fresh start none calm, startStepEnd_runs step, ← run, if_pos all]
  case runsMore =>
    intro s t u runs fresh start none calm step run more
    rw [exec_startStepEnd_runs fresh start none calm, startStepEnd_runs step, ← run, if_neg (ne_true_of_eq_false more)]
  case threeAll =>
    intro s t fresh start none calm step all
    rw [exec_startStepEnd_runs fresh start none calm, startStepEnd_three step, if_pos all]
  case threeMore =>
    intro s t fresh start none calm step more
    rw [exec_startStepEnd_runs fresh start none calm, startStepEnd_three step, if_neg (ne_true_of_eq_false more)]
  case four =>
    intro s t fresh start none calm step
    rw [exec_startStepEnd_runs fresh start none calm, startStepEnd_four step]
  case fivePaused =>
    intro s t r fresh start none calm step paused
    rw [exec_startStepEnd_runs fresh start none calm, startStepEnd_five step, if_pos paused]
  case five =>
    intro s t u r fresh start none calm step recorded runs
    rw [exec_startStepEnd_runs fresh start none calm, startStepEnd_five step, if_neg (ne_true_of_eq_false runs), recorded]
  case sixLoads =>
    intro s t fresh start none calm step loads
    rw [exec_startStepEnd_runs fresh start none calm, startStepEnd_six step, if_pos loads]
  case six =>
    intro s t fresh start none calm step loaded
    rw [exec_startStepEnd_runs fresh start none calm, startStepEnd_six step, if_neg (ne_true_of_eq_false loaded)]
  case sevenAgain =>
    intro s t fresh start none calm step again
    rw [exec_startStepEnd_runs fresh start none calm, startStepEnd_seven step, if_pos again]
  case seven =>
    intro s t fresh start none calm step done
    rw [exec_startStepEnd_runs fresh start none calm, startStepEnd_seven step, if_neg (ne_true_of_eq_false done)]
  case eight =>
    intro s t fresh start none calm step done
    rw [exec_startStepEnd_runs fresh start none calm, startStepEnd_eight step, if_pos done]
  case eightWaits =>
    intro s t fresh start none calm step waits
    rw [exec_startStepEnd_runs fresh start none calm, startStepEnd_eight step, if_neg (ne_true_of_eq_false waits)]
  case test =>
    intro s t r recorded test full
    rw [recorded]
    refine congrArg Host.Outcome.next ((if_neg ?_).trans (if_pos ?_))
    · simp [test]
    · rw [decide_eq_true test, full]; rfl
  case ringWait =>
    intro s start none step calm late other
    exact congrArg Host.Outcome.next (if_pos (by
      rw [decide_eq_true start, decide_eq_true none, decide_eq_true step, decide_eq_true calm, decide_eq_true late, other]
      rfl))
  case pauses =>
    intro s t recorded start step late still none
    rw [← startFails_starting still none, recorded]
    exact congrArg Host.Outcome.next (if_pos (by
      rw [decide_eq_true start, decide_eq_true step, decide_eq_true late]; rfl))
  case pausesNot => exact fun s short => congrArg Host.Outcome.next (if_neg (ne_true_of_eq_false short))
  case complete => exact fun s t u v => exec_startComplete_last
  case boot =>
    intro s t asked answers held loaded
    rw [exec_bootRelease_open asked answers, if_neg (by simp [held, loaded])]
  case bootRefused =>
    intro s t asked answers bars
    rw [exec_bootRelease_open asked answers, if_pos bars]

end Sys2Proof.Machine

end

section
/-!
The interrupt controller (R420-R436): inputs, claims and completions of the host banks, doorbells, settings and ring delivery.
-/

namespace Sys2Proof.Machine

/-! ## Places of fields -/

theorem key_ne_of_lo {f g : Fld} (addr : f.addr = g.addr) (lo : f.lo ≠ g.lo) : f.key ≠ g.key := by
  rw [Fld.key, Fld.key, addr]
  omega

theorem key_ne_of_addr {f g : Fld} (addr : f.addr ≠ g.addr) (low : f.lo < 32) (low' : g.lo < 32) : f.key ≠ g.key := by
  rw [Fld.key, Fld.key]
  omega

/-- Two fields of one source's SRC_CFG word. -/
theorem srcCfg_apart {src lo lo' w w' : Nat} (lows : lo ≠ lo') :
    (⟨0x6040 + 4 * src, lo, w⟩ : Fld).key ≠ (⟨0x6040 + 4 * src, lo', w'⟩ : Fld).key := key_ne_of_lo rfl lows

section srcCfg

variable (src : Nat)

theorem pend_ne_count : (R.SRC_CFG_pend src).key ≠ (R.SRC_CFG_count src).key := srcCfg_apart (by decide)

theorem pend_ne_active : (R.SRC_CFG_pend src).key ≠ (R.SRC_CFG_active src).key := srcCfg_apart (by decide)

theorem pend_ne_input : (R.SRC_CFG_pend src).key ≠ (R.SRC_CFG_input src).key := srcCfg_apart (by decide)

theorem count_ne_active : (R.SRC_CFG_count src).key ≠ (R.SRC_CFG_active src).key := srcCfg_apart (by decide)

theorem count_ne_input : (R.SRC_CFG_count src).key ≠ (R.SRC_CFG_input src).key := srcCfg_apart (by decide)

theorem input_ne_active : (R.SRC_CFG_input src).key ≠ (R.SRC_CFG_active src).key := srcCfg_apart (by decide)

theorem sense_ne_pend : (R.SRC_CFG_sense src).key ≠ (R.SRC_CFG_pend src).key := srcCfg_apart (by decide)

theorem sense_ne_count : (R.SRC_CFG_sense src).key ≠ (R.SRC_CFG_count src).key := srcCfg_apart (by decide)

theorem sense_ne_active : (R.SRC_CFG_sense src).key ≠ (R.SRC_CFG_active src).key := srcCfg_apart (by decide)

theorem sense_ne_input : (R.SRC_CFG_sense src).key ≠ (R.SRC_CFG_input src).key := srcCfg_apart (by decide)

end srcCfg

theorem cls_le (fast : Bool) : cls fast ≤ 1 := by cases fast <;> decide

/-! ## Events of a source (R421) -/

section events

variable {s : State} {src : Nat} {fs : List Fld}

theorem onlyWrites_srcEvent (pend : R.SRC_CFG_pend src ∈ fs) (count : R.SRC_CFG_count src ∈ fs) :
    OnlyWrites fs s (s.srcEvent src) := (OnlyWrites.refl.wr pend).bump count

theorem onlyWrites_raise (pend : R.SRC_CFG_pend src ∈ fs) (count : R.SRC_CFG_count src ∈ fs) :
    OnlyWrites fs s (s.raise src) := .ite (onlyWrites_srcEvent pend count) .refl

theorem on_pend_srcEvent (canonical : Tbl.wf resetOf s.regs = true) : (s.srcEvent src).on (R.SRC_CFG_pend src) = true := by
  rw [State.on, State.srcEvent, rd_bump_ne (pend_ne_count src), State.setPend, rd_wr_same canonical]
  rfl

theorem rd_count_srcEvent (canonical : Tbl.wf resetOf s.regs = true) :
    (s.srcEvent src).rd (R.SRC_CFG_count src) =
      if s.rd (R.SRC_CFG_count src) < 255 then s.rd (R.SRC_CFG_count src) + 1 else s.rd (R.SRC_CFG_count src) := by
  rw [State.srcEvent, State.setPend, rd_bump (wr_regs_wf canonical), rd_wr_ne (pend_ne_count src).symm]
  rfl

theorem raise_of_ready (there : sourceExists s src = true) (clocked : sourceGated s src = false) :
    s.raise src = s.srcEvent src := if_pos (by rw [there, clocked]; rfl)

theorem exec_sourceInput {ev : InputEvent} (listed : src < 320) :
    exec (.sourceInput src ev) s = .next (match ev with
      | .pulse => if levelSource src then s else s.raise src
      | .level v => if levelSource src then s.setInput src v else s) :=
  (onUnit_of_present (decide_eq_true listed)).trans (by cases ev <;> rfl)

theorem sourceExists_lt (there : sourceExists s src = true) : src < 304 := by
  simp only [sourceExists, Bool.and_eq_true, decide_eq_true_eq] at there
  exact there.1.1

/-- Whether a source of the table is gated is read from clock enables, which stand in no page of the controller. -/
theorem sourceGated_eq {t : State} (written : OnlyWrites fs s t) (own : ∀ f ∈ fs, 0x6000 ≤ f.addr ∧ f.addr < 0x7000 ∧ f.lo < 32) :
    sourceGated t src = sourceGated s src := by
  have clock (p : Nat) (other : p ≠ 6) : t.rd (R.CLK_EN_en p) = s.rd (R.CLK_EN_en p) :=
    written.rd_eq _ fun f listed => by
      obtain ⟨low, high, bit⟩ := own f listed
      have addr : (R.CLK_EN_en p).addr = 4096 * p + 8 := rfl
      exact key_ne_of_addr (by omega) (show 0 < 32 by decide) bit
  simp only [sourceGated]
  rw [clock _ (by omega), clock _ (by omega), clock _ (by decide), clock _ (by decide)]

end events

/-! ## Levels (R421) -/

section levels

variable {s : State} {src : Nat} {v : Bool}

/-- A level at an input counts as an event, by the sense of the source. -/
def levelEvent (sense : Nat) (old v : Bool) : Bool :=
  if sense ≤ 1 then v && !old else if sense = 2 then !v && old else v != old

theorem sourceGated_input (there : sourceExists s src = true) :
    sourceGated (s.wrB (R.SRC_CFG_input src) v) src = sourceGated s src := by
  refine sourceGated_eq (fs := [R.SRC_CFG_input src]) (OnlyWrites.refl.wrB List.mem_cons_self) fun f listed => ?_
  have range := sourceExists_lt there
  rw [List.mem_singleton.mp listed]
  simp only [R.SRC_CFG_input]
  omega

theorem setInput_ready (there : sourceExists s src = true) (clocked : sourceGated s src = false) :
    s.setInput src v =
      if levelEvent (s.rd (R.SRC_CFG_sense src)) (s.on (R.SRC_CFG_input src)) v then (s.wrB (R.SRC_CFG_input src) v).srcEvent src
      else if s.rd (R.SRC_CFG_sense src) = 0 ∧ v = true then (s.wrB (R.SRC_CFG_input src) v).setPend src
      else s.wrB (R.SRC_CFG_input src) v := by
  have gate := (sourceGated_input (v := v) there).trans clocked
  have sense : (s.wrB (R.SRC_CFG_input src) v).rd (R.SRC_CFG_sense src) = s.rd (R.SRC_CFG_sense src) :=
    rd_wrB_ne (sense_ne_input src)
  simp only [State.setInput, there, gate, sense, Bool.not_true, Bool.false_eq_true, if_false]
  match s.rd (R.SRC_CFG_sense src) with
  | 0 => simp [levelEvent]
  | 1 => simp [levelEvent]
  | 2 => simp [levelEvent]
  | n + 3 => simp [levelEvent]

variable (canonical : Tbl.wf resetOf s.regs = true) (there : sourceExists s src = true)
  (clocked : sourceGated s src = false)

theorem onlyWrites_setInput_ready (there : sourceExists s src = true) (clocked : sourceGated s src = false) :
    OnlyWrites [R.SRC_CFG_pend src, R.SRC_CFG_count src, R.SRC_CFG_input src] s (s.setInput src v) := by
  have stored : OnlyWrites [R.SRC_CFG_pend src, R.SRC_CFG_count src, R.SRC_CFG_input src] s
      (s.wrB (R.SRC_CFG_input src) v) := OnlyWrites.refl.wrB (by simp)
  rw [setInput_ready there clocked]
  exact .ite (stored.trans (onlyWrites_srcEvent (by simp) (by simp))) (.ite (stored.wr (by simp)) stored)

include canonical there clocked

theorem on_input_setInput : (s.setInput src v).on (R.SRC_CFG_input src) = v := by
  have stored : (s.wrB (R.SRC_CFG_input src) v).on (R.SRC_CFG_input src) = v := on_wrB canonical rfl
  rw [setInput_ready there clocked]
  split
  · rw [State.on, State.srcEvent, rd_bump_ne (count_ne_input src).symm, State.setPend, rd_wr_ne (pend_ne_input src).symm]
    exact stored
  · split
    · rw [State.setPend, on_wr_ne (pend_ne_input src).symm, stored]
    · exact stored

theorem on_pend_setInput : (s.setInput src v).on (R.SRC_CFG_pend src) = (s.on (R.SRC_CFG_pend src) ||
    levelEvent (s.rd (R.SRC_CFG_sense src)) (s.on (R.SRC_CFG_input src)) v || (s.rd (R.SRC_CFG_sense src) = 0 && v)) := by
  have stored : Tbl.wf resetOf (s.wrB (R.SRC_CFG_input src) v).regs = true := wr_regs_wf canonical
  rw [setInput_ready there clocked]
  split
  case isTrue event => rw [on_pend_srcEvent stored, event, Bool.or_true, Bool.true_or]
  case isFalse quiet =>
    split
    case isTrue held =>
      obtain ⟨level, high⟩ := held
      rw [State.setPend, on_wr_same stored, high, decide_eq_true level, Bool.and_true, Bool.or_true]
      rfl
    case isFalse low =>
      rw [on_wrB_ne (pend_ne_input src), eq_false_of_ne_true quiet]
      by_cases level : s.rd (R.SRC_CFG_sense src) = 0
      · have off : v = false := eq_false_of_ne_true fun high => low ⟨level, high⟩
        rw [off, Bool.and_false, Bool.or_false, Bool.or_false]
      · rw [decide_eq_false level, Bool.false_and, Bool.or_false, Bool.or_false]

theorem rd_count_setInput : (s.setInput src v).rd (R.SRC_CFG_count src) =
    if s.rd (R.SRC_CFG_count src) < 255 ∧
      levelEvent (s.rd (R.SRC_CFG_sense src)) (s.on (R.SRC_CFG_input src)) v = true
    then s.rd (R.SRC_CFG_count src) + 1 else s.rd (R.SRC_CFG_count src) := by
  have before : (s.wrB (R.SRC_CFG_input src) v).rd (R.SRC_CFG_count src) = s.rd (R.SRC_CFG_count src) :=
    rd_wrB_ne (count_ne_input src)
  rw [setInput_ready there clocked]
  split
  case isTrue event => rw [rd_count_srcEvent (s := s.wrB (R.SRC_CFG_input src) v) (wr_regs_wf canonical), before]; simp [event]
  case isFalse quiet =>
    rw [if_neg fun room => quiet (And.right room)]
    split
    · rw [State.setPend, rd_wr_ne (pend_ne_count src).symm, before]
    · exact before

end levels

/-- When a level is an event, as the rule words it for each sense. -/
theorem levelEvent_iff {sense : Nat} {old v : Bool} :
    levelEvent sense old v = true ↔ old ≠ v ∧ (sense ≤ 1 → v = true) ∧ (sense = 2 → v = false) := by
  rw [levelEvent]
  by_cases low : sense ≤ 1
  · have other : sense ≠ 2 := by omega
    cases old <;> cases v <;> simp [low, other]
  · by_cases two : sense = 2
    · cases old <;> cases v <;> simp [two]
    · cases old <;> cases v <;> simp [low, two]

/-- Settles O56: an event at an input by what `srcEvent` stores, the level inputs by their sense. -/
theorem pulsesAndLevelsCountEvents : Obligations.PulsesAndLevelsCountEvents := by
  unfold Obligations.PulsesAndLevelsCountEvents
  refine ⟨?pulse, ?level, ?gated, ?otherKind, ?absent⟩
  case pulse =>
    intro s src canonical there clocked pulses
    have regs := tablesCanonical_regs canonical
    have listed : src < 320 := Nat.lt_trans (sourceExists_lt there) (by decide)
    have written : OnlyWrites [R.SRC_CFG_pend src, R.SRC_CFG_count src] s (s.srcEvent src) :=
      onlyWrites_srcEvent (by simp) (by simp)
    refine ⟨s.srcEvent src, ?_, on_pend_srcEvent regs, rd_count_srcEvent regs, ?_, written.rest⟩
    · rw [exec_sourceInput listed]
      exact congrArg _ ((if_neg (ne_true_of_eq_false pulses)).trans (raise_of_ready there clocked))
    · intro g pend count
      exact written.rd_eq g (by simp [pend, count])
  case level =>
    intro s src v canonical there clocked level
    have regs := tablesCanonical_regs canonical
    have listed : src < 320 := Nat.lt_trans (sourceExists_lt there) (by decide)
    have written := onlyWrites_setInput_ready (v := v) there clocked
    have pend := on_pend_setInput (v := v) regs there clocked
    refine ⟨s.setInput src v, (exec_sourceInput listed).trans (congrArg _ (if_pos level)),
      on_input_setInput regs there clocked, ?sense0, ?sense1, ?sense2, ?sense3, ?count, written.rd_eq, written.rest⟩
    case sense0 =>
      intro sense
      rw [pend, sense]
      cases s.on (R.SRC_CFG_pend src) <;> cases s.on (R.SRC_CFG_input src) <;> cases v <;> rfl
    case sense1 =>
      intro sense
      rw [pend, sense]
      cases s.on (R.SRC_CFG_pend src) <;> cases s.on (R.SRC_CFG_input src) <;> cases v <;> rfl
    case sense2 =>
      intro sense
      rw [pend, sense]
      cases s.on (R.SRC_CFG_pend src) <;> cases s.on (R.SRC_CFG_input src) <;> cases v <;> rfl
    case sense3 =>
      intro sense
      rw [pend, sense]
      cases s.on (R.SRC_CFG_pend src) <;> cases s.on (R.SRC_CFG_input src) <;> cases v <;> rfl
    case count =>
      rw [rd_count_setInput regs there clocked]
      exact ite_congr (propext (and_congr_right' levelEvent_iff)) (fun _ => rfl) fun _ => rfl
  case gated =>
    intro s src v there gated
    have range := sourceExists_lt there
    have listed : src < 320 := Nat.lt_trans range (by decide)
    refine ⟨?_, fun level => ?_⟩
    · have still : s.raise src = s := if_neg (by rw [gated]; simp)
      refine (exec_sourceInput listed).trans (congrArg _ ?_)
      exact (congrArg _ still).trans (ite_self s)
    · have gate := (sourceGated_input (v := v) there).trans gated
      refine (exec_sourceInput listed).trans (congrArg _ ((if_pos level).trans ?_))
      simp only [State.setInput, there, gate, Bool.not_true, Bool.false_eq_true, if_false, if_true]
  case otherKind =>
    intro s src v listed
    exact ⟨fun level => (exec_sourceInput listed).trans (congrArg _ (if_pos level)),
      fun pulse => (exec_sourceInput listed).trans (congrArg _ (if_neg (ne_true_of_eq_false pulse)))⟩
  case absent =>
    intro s src ev listed absent
    have raised : s.raise src = s := if_neg (by rw [absent]; simp)
    have input (v : Bool) : s.setInput src v = s := if_pos (by rw [absent]; rfl)
    rw [exec_sourceInput listed]
    cases ev with
    | pulse => exact congrArg _ ((congrArg _ raised).trans (ite_self s))
    | level v => exact congrArg _ (by simp only [input, ite_self])

end Sys2Proof.Machine

end

section
/-!
Claims and completions (R424-R426, R430), settings and doorbells (R423, R434), and delivery to the ring head (R429).
-/

namespace Sys2Proof.Machine

/-! ## The priority order (R425) -/

theorem claimRank_of_maskable {src : Nat} (maskable : isNmi src = false) : claimRank src = src + 4 := by
  simp only [isNmi, Bool.or_eq_false_iff, decide_eq_false_iff_not] at maskable
  obtain ⟨⟨⟨a, b⟩, c⟩, d⟩ := maskable
  rw [claimRank, if_neg a, if_neg b, if_neg c, if_neg d]

theorem srcOrder_rising : srcOrder.Pairwise fun a b => claimRank a < claimRank b := by
  refine List.pairwise_append.mpr ⟨by decide, ?others, ?across⟩
  case others =>
    refine (List.pairwise_lt_range (n := 304)).filter _ |>.imp_of_mem fun {a b} ha hb less => ?_
    have maskable {n : Nat} (listed : n ∈ (List.range 304).filter fun n => !isNmi n) : isNmi n = false := by
      simpa using (List.mem_filter.mp listed).2
    rw [claimRank_of_maskable (maskable ha), claimRank_of_maskable (maskable hb)]
    exact Nat.add_lt_add_right less 4
  case across =>
    intro a first b rest
    have maskable : isNmi b = false := by simpa using (List.mem_filter.mp rest).2
    have rank : claimRank a < 4 := (by decide : ∀ a ∈ [256, 257, 276, 277], claimRank a < 4) a first
    rw [claimRank_of_maskable maskable]
    omega

theorem mem_srcOrder {src : Nat} (range : src < 304) : src ∈ srcOrder := by
  by_cases nmi : isNmi src = true
  · refine List.mem_append_left _ ?_
    simpa [isNmi, or_assoc] using nmi
  · exact List.mem_append_right _ (List.mem_filter.mpr ⟨List.mem_range.mpr range, by simpa using nmi⟩)

/-- In a list of rising rank, the element of least rank that has a property is found first. -/
theorem find?_of_least {p : Nat → Bool} {src : Nat} : ∀ {l : List Nat}, (l.Pairwise fun a b => claimRank a < claimRank b) →
    src ∈ l → p src = true → (∀ n, p n = true → claimRank src ≤ claimRank n) → l.find? p = some src
  | [], _, listed, _, _ => nomatch listed
  | a :: l, rising, listed, holds, least => by
    obtain ⟨before, rising⟩ := List.pairwise_cons.mp rising
    rcases List.mem_cons.mp listed with rfl | later
    · exact List.find?_cons_of_pos holds
    · have passes : ¬ p a = true := fun also => Nat.not_lt.mpr (least a also) (before src later)
      rw [List.find?_cons_of_neg passes]
      exact find?_of_least rising later holds least

section offers

variable {s : State} {fast : Bool} {t src : Nat}

theorem offered_iff :
    offered s fast t src ↔ (srcWaits s src && srcFast s src = fast && srcTarget s src = t) = true := by
  simp only [offered, Bool.and_eq_true, decide_eq_true_eq, and_assoc]

theorem sourceExists_of_offered (offer : offered s fast t src) : sourceExists s src = true := by
  have waits := offer.1
  simp only [srcWaits, Bool.and_eq_true] at waits
  exact waits.1.1.1

theorem firstWaiting_none (empty : ∀ n, ¬ offered s fast t n) : firstWaiting s fast t = none :=
  List.find?_eq_none.mpr fun n _ holds => empty n (offered_iff.mpr holds)

theorem firstWaiting_least (offer : offered s fast t src) (least : ∀ n, offered s fast t n → claimRank src ≤ claimRank n) :
    firstWaiting s fast t = some src :=
  find?_of_least srcOrder_rising (mem_srcOrder (sourceExists_lt (sourceExists_of_offered offer))) (offered_iff.mp offer)
    fun n holds => least n (offered_iff.mpr holds)

theorem bankReady_of_offered (host : t < 2) (idle : bankServing s fast t = false) (offer : offered s fast t src) :
    bankReady s fast t = true := by
  have waiting : (firstWaiting s fast t).isSome = true :=
    List.find?_isSome.mpr ⟨src, mem_srcOrder (sourceExists_lt (sourceExists_of_offered offer)), offered_iff.mp offer⟩
  rw [bankReady, bankHas, if_neg (Nat.ne_of_lt host), waiting, idle]
  rfl

theorem bankReady_of_held (host : t < 2) (held : bankServing s fast t = true ∨ ∀ n, ¬ offered s fast t n) :
    bankReady s fast t = false := by
  rw [bankReady, bankHas, if_neg (Nat.ne_of_lt host)]
  rcases held with serving | empty
  · rw [serving, Bool.not_true, Bool.and_false]
  · rw [firstWaiting_none empty]
    rfl

end offers

/-! ## Claims of a host bank (R425) -/

section claims

variable {s : State} {fast : Bool} {t src : Nat}

theorem exec_intClaim_open (answers : pageOpen s (4 + cls fast) = true) (bank : t < 3) :
    exec (.intClaim fast t) s = .next ((claim fast t s).2.answerWord (claim fast t s).1) :=
  congrArg Host.Outcome.next (if_pos (by rw [answers, decide_eq_true bank]; rfl))

theorem claim_serving (host : t < 2) (serving : bankServing s fast t = true) :
    claim fast t s = claimNone (cls fast) t 2 s :=
  (if_pos serving).trans (if_neg (by simp [Nat.ne_of_lt host]))

section idle

variable (host : t < 2) (idle : bankServing s fast t = false)

include host idle

theorem claim_idle :
    claim fast t s = if !fast && bankReady s true t then claimNone (cls fast) t 3 s
      else match firstWaiting s fast t with
        | none => claimNone (cls fast) t 1 s
        | some src =>
          (claimWord (s.rd (R.SRC_CFG_count src)) 0 src, bankServe (cls fast) t 0 src (claimSource src s)) :=
  (if_neg (ne_true_of_eq_false idle)).trans (if_neg (Nat.ne_of_lt host))

theorem claim_fastFirst (ready : bankReady s true t = true) (normal : fast = false) :
    claim fast t s = claimNone (cls fast) t 3 s :=
  (claim_idle host idle).trans (if_pos (by rw [ready, normal]; rfl))

variable (free : fast = false → bankReady s true t = false)

include free

theorem claim_free :
    claim fast t s = match firstWaiting s fast t with
      | none => claimNone (cls fast) t 1 s
      | some src =>
        (claimWord (s.rd (R.SRC_CFG_count src)) 0 src, bankServe (cls fast) t 0 src (claimSource src s)) :=
  (claim_idle host idle).trans (if_neg (by
    cases fast
    · rw [free rfl]
      exact Bool.false_ne_true
    · exact Bool.false_ne_true))

theorem claim_none (empty : firstWaiting s fast t = none) : claim fast t s = claimNone (cls fast) t 1 s := by
  rw [claim_free host idle free, empty]

theorem claim_some (first : firstWaiting s fast t = some src) :
    claim fast t s =
      (claimWord (s.rd (R.SRC_CFG_count src)) 0 src, bankServe (cls fast) t 0 src (claimSource src s)) := by
  rw [claim_free host idle free, first]

end idle

end claims

/-! ## What a claim stores -/

section stored

variable {s : State} {src cl t ring : Nat}

/-- A field of a bank and one of a source's SRC_CFG word. -/
theorem bank_apart {lo lo' w w' : Nat} (class_ : cl ≤ 1) (bank : t < 3) (low : lo < 32) (low' : lo' < 32) :
    (⟨0x4048 + 4096 * cl + 16 * t, lo, w⟩ : Fld).key ≠ (⟨0x6040 + 4 * src, lo', w'⟩ : Fld).key := by
  simp only [Fld.key]
  omega

/-- The fields of a source that a claim writes, and those of a bank. -/
def claimedFields (src : Nat) : List Fld := [R.SRC_CFG_pend src, R.SRC_CFG_count src, R.SRC_CFG_active src]

def bankFields (cl t : Nat) : List Fld := [R.BANK_serving cl t, R.BANK_source cl t, R.BANK_ring cl t, R.BANK_none_why cl t]

theorem bankFields_apart (class_ : cl ≤ 1) (bank : t < 3) :
    ∀ f ∈ bankFields cl t, ∀ g ∈ claimedFields src, f.key ≠ g.key := by
  simp only [bankFields, claimedFields, List.forall_mem_cons, List.not_mem_nil, false_implies, implies_true, and_true]
  refine ⟨⟨?_, ?_, ?_⟩, ⟨?_, ?_, ?_⟩, ⟨?_, ?_, ?_⟩, ⟨?_, ?_, ?_⟩⟩ <;>
    exact bank_apart class_ bank (by decide) (by decide)

theorem onlyWrites_claimSource : OnlyWrites (claimedFields src) s (claimSource src s) := by
  have cleared : OnlyWrites (claimedFields src) s
      (((s.wr (R.SRC_CFG_pend src) 0).wr (R.SRC_CFG_count src) 0).wr (R.SRC_CFG_active src) 1) :=
    ((OnlyWrites.refl.wr (by simp [claimedFields])).wr (by simp [claimedFields])).wr (by simp [claimedFields])
  exact .ite (cleared.wr (by simp [claimedFields])) cleared

theorem onlyWrites_bankServe : OnlyWrites (bankFields cl t) s (bankServe cl t ring src s) :=
  (((OnlyWrites.refl.wr (by simp [bankFields])).wr (by simp [bankFields])).wr (by simp [bankFields])).wr
    (by simp [bankFields])

theorem onlyWrites_bankIdle :
    OnlyWrites [R.BANK_serving cl t, R.BANK_source cl t, R.BANK_ring cl t] s (bankIdle cl t s) :=
  ((OnlyWrites.refl.wr (by simp)).wr (by simp)).wr (by simp)

section canonical

variable (canonical : Tbl.wf resetOf s.regs = true)

include canonical

theorem rd_count_claimSource : (claimSource src s).rd (R.SRC_CFG_count src) = 0 := by
  rw [claimSource, State.relevel]
  split
  · rw [State.setPend, rd_wr_ne (pend_ne_count src).symm, rd_wr_ne (count_ne_active src), rd_wr_same (wr_regs_wf canonical),
      Nat.zero_mod]
  · rw [rd_wr_ne (count_ne_active src), rd_wr_same (wr_regs_wf canonical), Nat.zero_mod]

theorem on_active_claimSource : (claimSource src s).on (R.SRC_CFG_active src) = true := by
  have active : (((s.wr (R.SRC_CFG_pend src) 0).wr (R.SRC_CFG_count src) 0).wr (R.SRC_CFG_active src) 1).on
      (R.SRC_CFG_active src) = true := on_wr_same (wr_regs_wf (wr_regs_wf canonical))
  rw [claimSource, State.relevel]
  split
  · rw [State.setPend, on_wr_ne (pend_ne_active src).symm, active]
  · exact active

/-- Under LEVEL an input that is still 1 makes a claimed source pending again (R421). -/
theorem on_pend_claimSource (there : sourceExists s src = true) :
    (claimSource src s).on (R.SRC_CFG_pend src) =
      (decide (s.rd (R.SRC_CFG_sense src) = 0) && s.on (R.SRC_CFG_input src) && !sourceGated s src) := by
  have range := sourceExists_lt there
  have cleared : OnlyWrites (claimedFields src) s
      (((s.wr (R.SRC_CFG_pend src) 0).wr (R.SRC_CFG_count src) 0).wr (R.SRC_CFG_active src) 1) :=
    ((OnlyWrites.refl.wr (by simp [claimedFields])).wr (by simp [claimedFields])).wr (by simp [claimedFields])
  have sense := cleared.rd_eq (R.SRC_CFG_sense src)
    (by simp [claimedFields, sense_ne_pend, sense_ne_count, sense_ne_active])
  have input := cleared.on_eq (g := R.SRC_CFG_input src)
    (by simp [claimedFields, (pend_ne_input src).symm, (count_ne_input src).symm, input_ne_active])
  have gate : sourceGated _ src = sourceGated s src := sourceGated_eq cleared (by
    simp only [claimedFields, List.forall_mem_cons, R.SRC_CFG_pend, R.SRC_CFG_count, R.SRC_CFG_active, List.not_mem_nil,
      false_implies, implies_true, and_true]
    omega)
  have still : sourceExists (((s.wr (R.SRC_CFG_pend src) 0).wr (R.SRC_CFG_count src) 0).wr (R.SRC_CFG_active src) 1) src =
      true := there
  rw [claimSource, State.relevel, sense, input, gate, still, Bool.and_true]
  split
  case isTrue level =>
    rw [level, State.setPend, on_wr_same (cleared.wf canonical)]
    rfl
  case isFalse quiet =>
    rw [eq_false_of_ne_true quiet, on_wr_ne (pend_ne_active src), on_wr_ne (pend_ne_count src), on_wr_same canonical]
    rfl

theorem bankServe_reads (small : ring < 8) (number : src < 1024) :
    (bankServe cl t ring src s).on (R.BANK_serving cl t) = true ∧ (bankServe cl t ring src s).rd (R.BANK_source cl t) = src ∧
      (bankServe cl t ring src s).rd (R.BANK_ring cl t) = ring ∧ (bankServe cl t ring src s).rd (R.BANK_none_why cl t) = 0 := by
  have apart {lo lo' w w' : Nat} (lows : lo ≠ lo') : (⟨0x4048 + 4096 * cl + 16 * t, lo, w⟩ : Fld).key ≠
      (⟨0x4048 + 4096 * cl + 16 * t, lo', w'⟩ : Fld).key := key_ne_of_lo rfl lows
  have one := wr_regs_wf (f := R.BANK_serving cl t) (v := 1) canonical
  have two := wr_regs_wf (f := R.BANK_none_why cl t) (v := 0) one
  have three := wr_regs_wf (f := R.BANK_ring cl t) (v := ring) two
  refine ⟨?serving, ?source, ?ring, ?why⟩
  case serving =>
    refine (on_wr_ne (apart (by decide))).trans ((on_wr_ne (apart (by decide))).trans
      ((on_wr_ne (apart (by decide))).trans ?_))
    exact on_wr_same canonical
  case source => exact (rd_wr_same three).trans (Nat.mod_eq_of_lt number)
  case ring => exact (rd_wr_ne (apart (by decide))).trans ((rd_wr_same two).trans (Nat.mod_eq_of_lt small))
  case why =>
    exact (rd_wr_ne (apart (by decide))).trans ((rd_wr_ne (apart (by decide))).trans ((rd_wr_same one).trans (Nat.zero_mod _)))

theorem bankIdle_reads :
    (bankIdle cl t s).on (R.BANK_serving cl t) = false ∧ (bankIdle cl t s).rd (R.BANK_source cl t) = 0x3FF ∧
      (bankIdle cl t s).rd (R.BANK_ring cl t) = 0 := by
  have apart {lo lo' w w' : Nat} (lows : lo ≠ lo') : (⟨0x4048 + 4096 * cl + 16 * t, lo, w⟩ : Fld).key ≠
      (⟨0x4048 + 4096 * cl + 16 * t, lo', w'⟩ : Fld).key := key_ne_of_lo rfl lows
  have one := wr_regs_wf (f := R.BANK_serving cl t) (v := 0) canonical
  refine ⟨?serving, rd_wr_same (wr_regs_wf one), ?ring⟩
  case serving =>
    have off : (s.wr (R.BANK_serving cl t) 0).on (R.BANK_serving cl t) = false := by
      rw [on_wr_same canonical, Nat.zero_mod]
      rfl
    exact (on_wr_ne (apart (by decide))).trans ((on_wr_ne (apart (by decide))).trans off)
  case ring => exact (rd_wr_ne (apart (by decide))).trans ((rd_wr_same one).trans (Nat.zero_mod _))

end canonical

end stored

/-- An answered word is the one part of the host state that a read of a register changes. -/
theorem sameButRegs_answerWord {s u : State} {word : Nat} (rest : sameButRegs s u) :
    sameButRegs s { u.answerWord word with host := { (u.answerWord word).host with answer := s.host.answer } } := by
  have back : { u with regs := s.regs } = s := rest
  exact congrArg (fun x : State => { x with host := { x.host with answer := s.host.answer } }) back

/-- Settles O54: a claim that answers NONE by its reason, and the first source offered, in the order of R425. -/
theorem claimTakesTheFirstDeliverable : Obligations.ClaimTakesTheFirstDeliverable := by
  unfold Obligations.ClaimTakesTheFirstDeliverable
  have bankThird {t : Nat} (host : t < 2) : t < 3 := Nat.lt_trans host (by decide)
  have held {s : State} {fast : Bool} {t : Nat} (host : t < 2)
      (free : fast = false → bankServing s true t = true ∨ ∀ n, ¬ offered s true t n) :
      fast = false → bankReady s true t = false := fun normal => bankReady_of_held host (free normal)
  refine ⟨?serving, ?fastFirst, ?empty, ?first⟩
  case serving =>
    intro s fast t answers host serving
    rw [exec_intClaim_open answers (bankThird host), claim_serving host serving]
    rfl
  case fastFirst =>
    intro s t answers host idle fastIdle offers
    obtain ⟨n, offer⟩ := offers
    rw [exec_intClaim_open answers (bankThird host),
      claim_fastFirst host idle (bankReady_of_offered host fastIdle offer) rfl]
    rfl
  case empty =>
    intro s fast t answers host idle free empty
    rw [exec_intClaim_open answers (bankThird host), claim_none host idle (held host free) (firstWaiting_none empty)]
    rfl
  case first =>
    intro s fast t src canonical answers host idle free offer least
    have regs := tablesCanonical_regs canonical
    have there := sourceExists_of_offered offer
    have bank := bankThird host
    have source := onlyWrites_claimSource (src := src) (s := s)
    have serve := onlyWrites_bankServe (cl := cls fast) (t := t) (ring := 0) (src := src) (s := claimSource src s)
    have apart := bankFields_apart (src := src) (cls_le fast) bank
    obtain ⟨serving, number, ring, why⟩ := bankServe_reads (cl := cls fast) (t := t) (ring := 0) (src := src)
      (source.wf regs) (by decide) (Nat.lt_trans (sourceExists_lt there) (by decide))
    have before {g : Fld} (own : g ∈ claimedFields src) :
        (bankServe (cls fast) t 0 src (claimSource src s)).rd g = (claimSource src s).rd g :=
      serve.rd_eq g fun f listed => (apart f listed g own).symm
    have beforeOn {g : Fld} (own : g ∈ claimedFields src) :
        (bankServe (cls fast) t 0 src (claimSource src s)).on g = (claimSource src s).on g :=
      serve.on_eq fun f listed => (apart f listed g own).symm
    have both := (source.mono (hs := claimedFields src ++ bankFields (cls fast) t) fun f own => List.mem_append_left _ own).trans
      (serve.mono fun f own => List.mem_append_right _ own)
    have claimed : exec (.intClaim fast t) s = .next ((bankServe (cls fast) t 0 src (claimSource src s)).answerWord
        (claimWord (s.rd (R.SRC_CFG_count src)) 0 src)) := by
      rw [exec_intClaim_open answers bank, claim_some host idle (held host free) (firstWaiting_least offer least)]
    have count := (before (by simp [claimedFields])).trans (rd_count_claimSource regs)
    have active := (beforeOn (by simp [claimedFields])).trans (on_active_claimSource regs)
    have pend := (beforeOn (by simp [claimedFields])).trans (on_pend_claimSource regs there)
    generalize bankServe (cls fast) t 0 src (claimSource src s) = u at serving number ring why both claimed count active pend
    refine ⟨_, claimed, ?answer, pend, count, active, serving, number, ring, why, ?others, sameButRegs_answerWord both.rest⟩
    case answer =>
      show [claimWord (s.rd (R.SRC_CFG_count src)) 0 src] = _
      rw [claimWord, Nat.zero_mul, Nat.add_zero]
    case others => exact fun g other => both.rd_eq g other

end Sys2Proof.Machine

end

section
/-!
Completions (R426, R430), the commands of the controller as a whole (R421-R435), and delivery to the ring head (R429).
-/

namespace Sys2Proof.Machine

section complete

variable {s : State} {fast : Bool} {t src ring : Nat}

theorem exec_intComplete_open (answers : pageOpen s (4 + cls fast) = true) (bank : t < 3) :
    exec (.intComplete fast t src ring) s = .next (complete fast t (src % 1024) (ring % 8) s.freshOut) :=
  congrArg Host.Outcome.next (if_pos (by rw [answers, decide_eq_true bank]; rfl))

theorem complete_none : complete fast t 0x3FF ring s = s := by rw [complete, if_pos rfl]

/-- The completion of what a bank of a host target serves (R426). -/
theorem complete_host (host : t < 2) (number : src < 1023) (serving : bankServing s fast t = true)
    (names : s.rd (R.BANK_source (cls fast) t) = src) :
    complete fast t src ring s = endService src (bankIdle (cls fast) t s) := by
  have other := Nat.ne_of_lt host
  rw [complete, if_neg (Nat.ne_of_lt number), if_pos (by simp [serving, names, other])]
  exact if_neg (by simp [other])

/-- The completion at the head of what a ring bank serves of another package (R430). -/
theorem complete_ring (number : src < 1023) (remote : ring ≠ 0) (head : isHead s = true)
    (serving : bankServing s fast 2 = true) (names : s.rd (R.BANK_source (cls fast) 2) = src)
    (agrees : s.rd (R.BANK_ring (cls fast) 2) = ring) :
    complete fast 2 src ring s = (bankIdle (cls fast) 2 s).sendTo ring 0x09 (beBytes 2 src) := by
  rw [complete, if_neg (Nat.ne_of_lt number), if_pos (by simp [serving, names, head, agrees])]
  exact if_pos (by simp [remote])

theorem complete_stray (number : src < 1023)
    (strays : ¬ (bankServing s fast t = true ∧ s.rd (R.BANK_source (cls fast) t) = src ∧
      (t = 2 → isHead s = true ∧ s.rd (R.BANK_ring (cls fast) t) = ring))) :
    complete fast t src ring s = stray (cls fast) t src ring s := by
  rw [complete, if_neg (Nat.ne_of_lt number)]
  refine if_neg fun named => strays ?_
  simp only [Bool.and_eq_true, Bool.or_eq_true, decide_eq_true_eq] at named
  obtain ⟨⟨serving, names⟩, which⟩ := named
  exact ⟨serving, names, fun two => which.resolve_left fun other => other two⟩

end complete

/-! ## What an end of service and a stray completion store -/

section stored

variable {s : State} {cl t src ring : Nat}

def strayFields : List Fld := [R.STRAY_count, R.STRAY_source, R.STRAY_ring, R.STRAY_class, R.STRAY_target]

/-- The record of a stray completion, before source 285 is raised. -/
def strayRecord (cl t src ring : Nat) (s : State) : State :=
  ((((s.bump R.STRAY_count).wr R.STRAY_class cl).wr R.STRAY_ring ring).wr R.STRAY_target t).wr R.STRAY_source src

theorem stray_eq : stray cl t src ring s = (strayRecord cl t src ring s).srcEvent 285 :=
  raise_of_ready (by simp [sourceExists]) (by simp [sourceGated])

theorem onlyWrites_strayRecord : OnlyWrites strayFields s (strayRecord cl t src ring s) :=
  ((((OnlyWrites.refl.bump (by decide)).wr (by decide)).wr (by decide)).wr (by decide)).wr (by decide)

theorem strayRecord_reads (canonical : Tbl.wf resetOf s.regs = true) (class_ : cl ≤ 1) (bank : t < 3) (number : src < 1023)
    (small : ring < 8) :
    (strayRecord cl t src ring s).rd R.STRAY_count =
        (if s.rd R.STRAY_count < 65535 then s.rd R.STRAY_count + 1 else s.rd R.STRAY_count) ∧
      (strayRecord cl t src ring s).rd R.STRAY_source = src ∧ (strayRecord cl t src ring s).rd R.STRAY_ring = ring ∧
      (strayRecord cl t src ring s).rd R.STRAY_class = cl ∧ (strayRecord cl t src ring s).rd R.STRAY_target = t := by
  have counted : OnlyWrites strayFields s (s.bump R.STRAY_count) := OnlyWrites.refl.bump (by decide)
  have classed := counted.wr (f := R.STRAY_class) (v := cl) (by decide)
  have ringed := classed.wr (f := R.STRAY_ring) (v := ring) (by decide)
  have targeted := ringed.wr (f := R.STRAY_target) (v := t) (by decide)
  simp only [strayRecord]
  refine ⟨?count, ?source, ?ring, ?class_, ?target⟩
  case count =>
    rw [rd_wr_ne (by decide), rd_wr_ne (by decide), rd_wr_ne (by decide), rd_wr_ne (by decide), rd_bump canonical]
    rfl
  case source =>
    exact (rd_wr_same (targeted.wf canonical)).trans (Nat.mod_eq_of_lt (Nat.lt_trans number (by decide)))
  case ring =>
    rw [rd_wr_ne (by decide), rd_wr_ne (by decide), rd_wr_same (classed.wf canonical)]
    exact Nat.mod_eq_of_lt small
  case class_ =>
    rw [rd_wr_ne (by decide), rd_wr_ne (by decide), rd_wr_ne (by decide), rd_wr_same (counted.wf canonical)]
    exact Nat.mod_eq_of_lt (Nat.lt_succ_of_le class_)
  case target =>
    rw [rd_wr_ne (by decide), rd_wr_same (ringed.wf canonical)]
    exact Nat.mod_eq_of_lt (Nat.lt_trans bank (by decide))

theorem stray_apart : ∀ f ∈ strayFields, ∀ g ∈ [R.SRC_CFG_pend 285, R.SRC_CFG_count 285], f.key ≠ g.key := by decide

end stored

/-- Settles O55: a completion by what it names, its stores read one by one. -/
theorem completionsEndOrStray : Obligations.CompletionsEndOrStray := by
  unfold Obligations.CompletionsEndOrStray
  refine ⟨?none, ?host, ?ring, ?stray⟩
  case none =>
    intro s fast t ring answers bank
    exact (exec_intComplete_open answers bank).trans (congrArg Host.Outcome.next complete_none)
  case host =>
    intro s fast t src ring canonical answers host number serving names
    have regs : Tbl.wf resetOf s.freshOut.regs = true := tablesCanonical_regs canonical
    have ended : exec (.intComplete fast t src ring) s = .next (endService src (bankIdle (cls fast) t s.freshOut)) := by
      rw [exec_intComplete_open answers (Nat.lt_trans host (by decide)),
        Nat.mod_eq_of_lt (Nat.lt_trans number (by decide))]
      exact congrArg _ (complete_host host (Nat.lt_trans number (by decide)) serving names)
    have idle := onlyWrites_bankIdle (cl := cls fast) (t := t) (s := s.freshOut)
    have apart := bankFields_apart (src := src) (cls_le fast) (Nat.lt_trans host (by decide))
    obtain ⟨still, source, ringId⟩ := bankIdle_reads (cl := cls fast) (t := t) regs
    have resend : (bankIdle (cls fast) t s.freshOut).ring = s.freshOut.ring := idle.part State.ring fun _ _ => rfl
    generalize bankIdle (cls fast) t s.freshOut = u at ended idle still source ringId resend
    have other {f : Fld} (own : f ∈ bankFields (cls fast) t) : f.key ≠ (R.SRC_CFG_active src).key :=
      apart f own _ (by simp [claimedFields])
    refine ⟨_, ended, ?active, ?idle, ?source, ?ringId, ?others, ?resend, ?rest⟩
    case active =>
      refine (on_wr_same (idle.wf regs)).trans ?_
      rw [Nat.zero_mod]
      rfl
    case idle => exact (on_wr_ne (other (by simp [bankFields]))).trans still
    case source => exact (rd_wr_ne (other (by simp [bankFields]))).trans source
    case ringId => exact (rd_wr_ne (other (by simp [bankFields]))).trans ringId
    case others =>
      intro g others
      have active : g.key ≠ (R.SRC_CFG_active src).key := others _ (by simp)
      have bank : ∀ f ∈ [R.BANK_serving (cls fast) t, R.BANK_source (cls fast) t, R.BANK_ring (cls fast) t], g.key ≠ f.key :=
        fun f listed => others f (List.mem_cons_of_mem _ listed)
      exact (rd_wr_ne active).trans (idle.rd_eq g bank)
    case resend =>
      show u.ring.resend.filter _ = _
      rw [resend]
      rfl
    case rest =>
      have back : { u with regs := s.freshOut.regs } = s.freshOut := idle.rest
      exact congrArg (fun x : State => { x with ring := s.ring }) back
  case ring =>
    intro s fast src ring canonical answers number remote small head serving names agrees
    rw [exec_intComplete_open answers (by decide), Nat.mod_eq_of_lt (Nat.lt_trans number (by decide)), Nat.mod_eq_of_lt small]
    exact congrArg _ (complete_ring (Nat.lt_trans number (by decide)) (Nat.ne_of_gt remote) head serving names agrees)
  case stray =>
    intro s fast t src ring canonical answers bank number small strays
    have regs : Tbl.wf resetOf s.freshOut.regs = true := tablesCanonical_regs canonical
    have stays : exec (.intComplete fast t src ring) s = .next ((strayRecord (cls fast) t src ring s.freshOut).srcEvent 285) := by
      rw [exec_intComplete_open answers bank, Nat.mod_eq_of_lt (Nat.lt_trans number (by decide)), Nat.mod_eq_of_lt small,
        ← stray_eq]
      exact congrArg _ (complete_stray number strays)
    have record := onlyWrites_strayRecord (cl := cls fast) (t := t) (src := src) (ring := ring) (s := s.freshOut)
    have event : OnlyWrites [R.SRC_CFG_pend 285, R.SRC_CFG_count 285] (strayRecord (cls fast) t src ring s.freshOut)
      ((strayRecord (cls fast) t src ring s.freshOut).srcEvent 285) := onlyWrites_srcEvent (by simp) (by simp)
    have before {f : Fld} (own : f ∈ strayFields) := event.rd_eq f (stray_apart f own)
    obtain ⟨count, source, ringId, class_, target⟩ := strayRecord_reads regs (cls_le fast) bank number small
    have both := (record.mono (hs := strayFields ++ [R.SRC_CFG_pend 285, R.SRC_CFG_count 285])
      fun f own => List.mem_append_left _ own).trans (event.mono fun f own => List.mem_append_right _ own)
    refine ⟨_, stays, (before (by decide)).trans count, (before (by decide)).trans source, (before (by decide)).trans ringId,
      (before (by decide)).trans class_, (before (by decide)).trans target, on_pend_srcEvent (record.wf regs), ?events,
      both.rd_eq, both.rest⟩
    rw [rd_count_srcEvent (record.wf regs), record.rd_eq _ (by decide)]
    rfl

/-- Settles O11: inputs, claims and completions by the lemmas above, settings and doorbells by their writes. -/
theorem interruptInputsAndClaims : Obligations.InterruptInputsAndClaims := by
  unfold Obligations.InterruptInputsAndClaims
  refine ⟨?pulse, ?level, ?claim, ?ringClaim, ?complete, ?doorbell, ?kept, ?cleared⟩
  case pulse =>
    intro s src listed pulses
    exact (exec_sourceInput listed).trans (congrArg _ (if_neg (ne_true_of_eq_false pulses)))
  case level => exact fun s src v listed level => (exec_sourceInput listed).trans (congrArg _ (if_pos level))
  case claim =>
    intro s fast t src answers host idle free first
    rw [exec_intClaim_open answers (Nat.lt_trans host (by decide)), claim_some host idle free first]
  case ringClaim =>
    intro s fast e answers idle head first
    rw [exec_intClaim_open answers (by decide)]
    have taken : claim fast 2 s = (claimWord e.count e.ring e.src,
        bankServe (cls fast) 2 e.ring e.src { s with entries := s.entries.filter fun x => !(x = e) }) := by
      rw [claim, if_neg (ne_true_of_eq_false idle), if_pos rfl, if_neg (by simp [head]), first]
    rw [taken]
  case complete =>
    intro s fast t src ring answers host number serving names
    rw [exec_intComplete_open answers (Nat.lt_trans host (by decide)), Nat.mod_eq_of_lt (Nat.lt_trans number (by decide))]
    exact congrArg _ (complete_host host number serving names)
  case doorbell => exact fun s v answers => congrArg Host.Outcome.next (ifOpen_open answers)
  case kept =>
    intro s src v answers there maskable kept
    refine congrArg Host.Outcome.next ((ifOpen_open answers).trans ?_)
    simp only [writeSrcCfg, there, maskable, kept, Bool.not_true, Bool.false_and, Bool.false_eq_true, if_false]
  case cleared =>
    intro s src v answers there maskable cleared
    refine congrArg Host.Outcome.next ((ifOpen_open answers).trans ?_)
    simp only [writeSrcCfg, there, maskable, cleared, Bool.not_true, Bool.not_false, Bool.and_self, Bool.false_eq_true,
      if_false, if_true]

/-- Settles O12: at the head an entry, elsewhere a DELIVER; a repeat carries count 0. -/
theorem ringDeliveryOfSources : Obligations.RingDeliveryOfSources := by
  unfold Obligations.RingDeliveryOfSources
  refine ⟨?enters, ?sends, ?again⟩
  case enters =>
    intro s src run may head
    refine congrArg Host.Outcome.next ((if_pos (by rw [may, run]; rfl)).trans ?_)
    exact if_pos head
  case sends =>
    intro s src run may other
    refine congrArg Host.Outcome.next ((if_pos (by rw [may, run]; rfl)).trans ?_)
    exact if_neg (ne_true_of_eq_false other)
  case again =>
    intro s src listed active other reaches
    exact congrArg Host.Outcome.next (if_pos (by rw [listed, active, other, reaches]; rfl))

end Sys2Proof.Machine

end

section
/-!
Snapshots (R494): a group of count registers takes the live counts, as one run of writes at different places.
-/

namespace Sys2Proof.Machine

/-! ## A snapshot as a run of writes -/

section snapshot

variable {s : State} {fs : List Fld} {ps : List (Fld × Fld)} {snap : Fld}

/-- What a group of count registers is given: a 64-bit count in its low and its high word. -/
def latchWrites (s : State) (fs : List Fld) (ps : List (Fld × Fld)) : List (Fld × Nat) :=
  (fs.map fun f => (f, s.live f)) ++
    ps.flatMap fun p => [(p.1, s.live p.1 % 2 ^ 32), (p.2, s.live p.1 / 2 ^ 32)]

/-- The fields of a group with its snapshot number. -/
def groupFields (fs : List Fld) (ps : List (Fld × Fld)) (snap : Fld) : List Fld :=
  fs ++ (ps.flatMap fun p => [p.1, p.2]) ++ [snap]

/-- The group latched and its snapshot number counted. -/
def snapshot (fs : List Fld) (ps : List (Fld × Fld)) (snap : Fld) (s : State) : State :=
  (State.latchAll64 ps (State.latchAll fs s)).bumpWrap snap

theorem snapshot_nil : snapshot fs [] snap s = (State.latchAll fs s).bumpWrap snap := rfl

theorem live_writeAll {ws : List (Fld × Nat)} {f : Fld} : (writeAll ws s).live f = s.live f :=
  congrArg (fun cnt => Tbl.get 0 cnt f.key) (onlyWrites_writeAll.part State.cnt fun _ _ => rfl)

theorem latchAll_eq : State.latchAll fs s = writeAll (fs.map fun f => (f, s.live f)) s := by
  induction fs generalizing s with
  | nil => rfl
  | cons f fs ih => exact ih

theorem latchAll64_eq : State.latchAll64 ps s =
    writeAll (ps.flatMap fun p => [(p.1, s.live p.1 % 2 ^ 32), (p.2, s.live p.1 / 2 ^ 32)]) s := by
  induction ps generalizing s with
  | nil => rfl
  | cons p ps ih => exact ih

theorem latch_eq : State.latchAll64 ps (State.latchAll fs s) = writeAll (latchWrites s fs ps) s := by
  rw [latchAll64_eq, latchAll_eq, latchWrites, writeAll_append]
  simp only [live_writeAll]

theorem latchWrites_fst : (latchWrites s fs ps).map Prod.fst ++ [snap] = groupFields fs ps snap := by
  simp only [latchWrites, groupFields, List.map_append, List.map_map, List.map_flatMap, Function.comp_def, List.map_cons,
    List.map_nil, List.map_id']

variable (apart : ((groupFields fs ps snap).map Fld.key).Nodup)

include apart

theorem snapshot_eq : snapshot fs ps snap s = writeAll (latchWrites s fs ps ++ [(snap, s.rd snap + 1)]) s := by
  have number : (writeAll (latchWrites s fs ps) s).rd snap = s.rd snap :=
    onlyWrites_writeAll.rd_eq snap fun f listed same => by
      rw [← latchWrites_fst (s := s), List.map_append] at apart
      obtain ⟨_, _, distinct⟩ := List.nodup_append.mp apart
      exact distinct _ (List.mem_map_of_mem listed) _ List.mem_cons_self same.symm
  rw [snapshot, latch_eq, State.bumpWrap, number, writeAll_append]
  rfl

theorem onlyWrites_snapshot : OnlyWrites (groupFields fs ps snap) s (snapshot fs ps snap s) := by
  have run := onlyWrites_writeAll (ws := latchWrites s fs ps ++ [(snap, s.rd snap + 1)]) (s := s)
  rw [List.map_append] at run
  rw [snapshot_eq apart, ← latchWrites_fst (s := s)]
  exact run

variable (canonical : Tbl.wf resetOf s.regs = true)

include canonical

theorem rd_snapshot {f : Fld} {v : Nat} (listed : (f, v) ∈ latchWrites s fs ps ++ [(snap, s.rd snap + 1)]) :
    (snapshot fs ps snap s).rd f = v % 2 ^ f.width := by
  rw [snapshot_eq apart]
  refine rd_writeAll canonical ?_ listed
  rw [List.map_append]
  exact (latchWrites_fst (s := s)) ▸ apart

theorem rd_snapshot_count : ∀ f ∈ fs, (snapshot fs ps snap s).rd f = s.live f % 2 ^ f.width := fun _ listed =>
  rd_snapshot apart canonical (List.mem_append_left _ (List.mem_append_left _
    (List.mem_map_of_mem (f := fun f => (f, s.live f)) listed)))

theorem rd_snapshot_words (words : ∀ p ∈ ps, p.1.width = 32 ∧ p.2.width = 32) :
    ∀ p ∈ ps, (snapshot fs ps snap s).rd p.1 = s.live p.1 % 2 ^ 32 ∧
      (snapshot fs ps snap s).rd p.2 = s.live p.1 / 2 ^ 32 % 2 ^ 32 := by
  intro p listed
  obtain ⟨low, high⟩ := words p listed
  have written {w : Fld × Nat} (own : w ∈ [(p.1, s.live p.1 % 2 ^ 32), (p.2, s.live p.1 / 2 ^ 32)]) :
      w ∈ latchWrites s fs ps ++ [(snap, s.rd snap + 1)] :=
    List.mem_append_left _ (List.mem_append_right _ (List.mem_flatMap.mpr ⟨p, listed, own⟩))
  constructor
  · rw [rd_snapshot apart canonical (written List.mem_cons_self), low, Nat.mod_mod]
  · rw [rd_snapshot apart canonical (written (List.mem_cons_of_mem _ List.mem_cons_self)), high]

theorem rd_snapshot_number : (snapshot fs ps snap s).rd snap = (s.rd snap + 1) % 2 ^ snap.width :=
  rd_snapshot apart canonical (List.mem_append_right _ List.mem_cons_self)

end snapshot

/-! ## The groups stand at places of their own -/

/-- Fields at the distances of a list of different places stand apart, wherever they begin. -/
theorem keys_apart {fs : List Fld} {places : List Nat} {base : Nat} (placed : fs.map Fld.key = places.map (· + base))
    (apart : places.Nodup) : (fs.map Fld.key).Nodup :=
  placed ▸ List.pairwise_map.mpr (apart.imp fun differ same => differ (Nat.add_right_cancel same))

theorem fltGroup_apart (k : Nat) :
    ((groupFields (fltCounters k) (fltCounters64 k) (R.FLT_SNAP_snap_no k)).map Fld.key).Nodup := by
  refine keys_apart (places := (groupFields (fltCounters 0) (fltCounters64 0) (R.FLT_SNAP_snap_no 0)).map Fld.key)
    (base := 131072 * k) ?_ (by decide)
  simp [groupFields, fltCounters, fltCounters64, Fld.key, R.POISON, R.BADSYM, R.BADIN, R.BADPAR, R.OVR, R.ACK_SUP,
    R.LLW_NZ, R.TYPEF, R.GOOD_LO, R.GOOD_HI, R.FLT_SNAP_snap_no]
  omega

theorem darnGroup_apart (k : Nat) :
    ((groupFields (darnCounters k) (darnCounters64 k) (R.DARN_SNAP_snap_no k)).map Fld.key).Nodup := by
  refine keys_apart (places := (groupFields (darnCounters 0) (darnCounters64 0) (R.DARN_SNAP_snap_no 0)).map Fld.key)
    (base := 131072 * k) ?_ (by decide)
  simp [groupFields, darnCounters, darnCounters64, Fld.key, R.RUNS, R.REPLAYED, R.GIVEUP, R.DUPDISC, R.REFRESH, R.UPGAP,
    R.NOCOPY, R.RUNDROP, R.RESUME, R.ACK_ODD, R.COPY_LO, R.COPY_HI, R.DARN_SNAP_snap_no]
  omega

theorem trkGroup_apart (k : Nat) :
    ((groupFields (trkCounters k) [(R.SENT_LO k, R.SENT_HI k)] (R.TRK_SNAP_snap_no k)).map Fld.key).Nodup := by
  refine keys_apart
    (places := (groupFields (trkCounters 0) [(R.SENT_LO 0, R.SENT_HI 0)] (R.TRK_SNAP_snap_no 0)).map Fld.key)
    (base := 131072 * k) ?_ (by decide)
  simp [groupFields, trkCounters, Fld.key, R.CUST_IN, R.CUST_TR, R.TRK_REPLAYED, R.NAK_rx, R.NAK_tx, R.TMO_retrains,
    R.TMO_expiries, R.DUP_span, R.DUP_xlp, R.NOSLOT_nak_odd, R.NOSLOT_noslot, R.CUST_LOSS, R.TRK_REFRESH_drn_bad,
    R.TRK_REFRESH_proxy, R.SENT_LO, R.SENT_HI, R.TRK_SNAP_snap_no]
  omega

theorem bufGroup_apart (d : Nat) : ((groupFields (bufCounters d) [] (R.BUF_SNAP_snap_no d)).map Fld.key).Nodup := by
  refine keys_apart (places := (groupFields (bufCounters 0) [] (R.BUF_SNAP_snap_no 0)).map Fld.key)
    (base := 131072 * d) ?_ (by decide)
  simp [groupFields, bufCounters, Fld.key, R.CE_r0, R.CE_r1, R.UE, R.REMIRROR_done, R.REMIRROR_single, R.MOVES_evac,
    R.MOVES_copies, R.LOST_darn, R.LOST_queued, R.BUF_SNAP_snap_no]
  omega

theorem calGroup_apart (u j : Nat) :
    ((groupFields (calCounters u j) [] (R.CAL_SNAP_snap_no u j)).map Fld.key).Nodup := by
  refine keys_apart (places := (groupFields (calCounters 0 0) [] (R.CAL_SNAP_snap_no 0 0)).map Fld.key)
    (base := 131072 * u + 2048 * j) ?_ (by decide)
  simp [groupFields, calCounters, Fld.key, R.CAL_FAULT, R.CAL_NAK_rx, R.CAL_NAK_tx, R.CAL_TMO_retrains, R.CAL_TMO_expiries,
    R.CAL_DUP_span, R.CAL_DUP_noslot, R.CAL_REPLAYED, R.CAL_CTL_rx, R.CAL_CTL_tx, R.CAL_MISC_drn_bad, R.CAL_MISC_rejects,
    R.CAL_MISC_unknown, R.CAL_SNAP_snap_no]
  omega

/-- The live counts of the logical links stand on pages of their own, above every page of the package. -/
theorem llGroup_apart {l p : Nat} (_page : p < 8) :
    ((groupFields (llCounters l) [] (R.LL_SNAP_snap_no p)).map Fld.key).Nodup := by
  have above : 8 ≤ llPage l := Nat.le_sub_of_add_le (Nat.le_add_right_of_le (by decide : 8 + 0xC0 ≤ 0x4000))
  simp only [llCounters]
  generalize llPage l = q at above
  simp [groupFields, Fld.key, R.LL_IN0, R.LL_IN1, R.LL_DROP_inval, R.LL_DROP_torn, R.LL_CLOSS, R.LL_RUNS_runs,
    R.LL_RUNS_resume, R.LL_REPLAYED, R.LL_SNAP_snap_no]
  omega

/-! ## A snapshot answers, and changes its group alone -/

section answered

variable {s : State} {fs : List Fld} {ps : List (Fld × Fld)} {snap : Fld} {word : Nat} {u : State}
  (apart : ((groupFields fs ps snap).map Fld.key).Nodup) (answered : u = (snapshot fs ps snap s).answerWord word)

include apart answered

/-- A field outside a group is as before. -/
theorem rd_snapshot_other {g : Fld} (counts : ∀ f ∈ fs, g.key ≠ f.key) (words : ∀ p ∈ ps, g.key ≠ p.1.key ∧ g.key ≠ p.2.key)
    (number : g.key ≠ snap.key) : u.rd g = s.rd g := by
  rw [answered]
  refine (onlyWrites_snapshot apart).rd_eq g fun f listed => ?_
  simp only [groupFields, List.mem_append, List.mem_flatMap, List.mem_cons, List.not_mem_nil, or_false] at listed
  rcases listed with (count | ⟨p, pair, rfl | rfl⟩) | rfl
  · exact counts f count
  · exact (words p pair).1
  · exact (words p pair).2
  · exact number

theorem snapshot_rest : sameButRegs s { u with host := { u.host with answer := s.host.answer } } := by
  rw [answered]
  exact sameButRegs_answerWord (onlyWrites_snapshot apart).rest

variable (canonical : Tbl.wf resetOf s.regs = true)

include canonical

theorem snapshot_latches (number : snap.width = 16) :
    (∀ f ∈ fs, u.rd f = s.live f % 2 ^ f.width) ∧ u.rd snap = (s.rd snap + 1) % 65536 := by
  have counted := rd_snapshot_number apart canonical
  rw [number] at counted
  rw [answered]
  exact ⟨rd_snapshot_count apart canonical, counted⟩

theorem snapshot_latches_words (words : ∀ p ∈ ps, p.1.width = 32 ∧ p.2.width = 32) :
    ∀ p ∈ ps, u.rd p.1 = s.live p.1 % 2 ^ 32 ∧ u.rd p.2 = s.live p.1 / 2 ^ 32 % 2 ^ 32 := by
  rw [answered]
  exact rd_snapshot_words apart canonical words

/-- What O57 asks of a group without 64-bit counts. -/
theorem snapshot_latches_counts (bare : ps = []) (number : snap.width = 16) :
    (∀ f ∈ fs, u.rd f = s.live f % 2 ^ f.width) ∧ u.rd snap = (s.rd snap + 1) % 65536 ∧
      (∀ g : Fld, (∀ f ∈ fs, g.key ≠ f.key) → g.key ≠ snap.key → u.rd g = s.rd g) ∧
      sameButRegs s { u with host := { u.host with answer := s.host.answer } } := by
  obtain ⟨counts, counted⟩ := snapshot_latches apart answered canonical number
  exact ⟨counts, counted, fun g others => rd_snapshot_other apart answered others (by simp [bare]),
    snapshot_rest apart answered⟩

end answered

/-- Settles O57: each snapshot command is `snapshot` of its group, with a word answered. -/
theorem snapshotsLatchTheirGroup : Obligations.SnapshotsLatchTheirGroup := by
  unfold Obligations.SnapshotsLatchTheirGroup
  refine ⟨?flt, ?darn, ?trk, ?ll, ?cal, ?buf⟩
  case flt =>
    intro s k canonical there answers
    have regs := tablesCanonical_regs canonical
    have apart := fltGroup_apart k
    obtain ⟨counts, number⟩ := snapshot_latches (word := s.rd (R.FLT_SNAP_snap_no k)) apart rfl regs rfl
    exact ⟨_, congrArg Host.Outcome.next (ifHas_open (decide_eq_true there) answers), counts,
      snapshot_latches_words apart rfl regs (by simp [fltCounters64, R.GOOD_LO, R.GOOD_HI]), number,
      fun g => rd_snapshot_other apart rfl, snapshot_rest apart rfl⟩
  case darn =>
    intro s k canonical there answers
    have regs := tablesCanonical_regs canonical
    have apart := darnGroup_apart k
    obtain ⟨counts, number⟩ := snapshot_latches
      (word := if linkDarned s k then s.rd (R.DARN_SNAP_snap_no k) else 0) apart rfl regs rfl
    exact ⟨_, congrArg Host.Outcome.next (ifHas_open (decide_eq_true there) answers), counts,
      snapshot_latches_words apart rfl regs (by simp [darnCounters64, R.COPY_LO, R.COPY_HI]), number,
      fun g => rd_snapshot_other apart rfl, snapshot_rest apart rfl⟩
  case trk =>
    intro s k canonical there answers
    have regs := tablesCanonical_regs canonical
    have apart := trkGroup_apart k
    obtain ⟨counts, number⟩ := snapshot_latches
      (word := if isTrunkMode (modeOf s k) then s.rd (R.TRK_SNAP_snap_no k) else 0) apart rfl regs rfl
    exact ⟨_, congrArg Host.Outcome.next (ifHas_open (decide_eq_true there) answers), counts,
      snapshot_latches_words apart rfl regs (by simp [R.SENT_LO, R.SENT_HI]), number,
      fun g => rd_snapshot_other apart rfl, snapshot_rest apart rfl⟩
  case ll =>
    intro s p canonical there _ answers
    have page : p < 8 := Nat.lt_of_lt_of_le there (by unfold lltPages llsOf; split <;> decide)
    have taken : exec (.llSnap p) s = .next ((snapshot (llCounters (llSelected s p)) [] (R.LL_SNAP_snap_no p) s).answerWord
        (s.rd (R.LL_SNAP_snap_no p))) := by
      rw [snapshot_nil]
      exact congrArg Host.Outcome.next (ifHas_open (decide_eq_true there) answers)
    exact ⟨_, taken, snapshot_latches_counts (llGroup_apart page) rfl (tablesCanonical_regs canonical) rfl rfl⟩
  case cal =>
    intro s c canonical there answers
    exact ⟨_, congrArg Host.Outcome.next (ifHas_open (decide_eq_true there) answers),
      snapshot_latches_counts (calGroup_apart _ _) rfl (tablesCanonical_regs canonical) rfl rfl⟩
  case buf =>
    intro s d canonical there answers
    exact ⟨_, congrArg Host.Outcome.next (ifHas_open (decide_eq_true there) answers),
      snapshot_latches_counts (bufGroup_apart d) rfl (tablesCanonical_regs canonical) rfl rfl⟩

end Sys2Proof.Machine

end

section
/-!
Addresses where nothing answers (R483): a page that is closed, and a reserved offset of an open one. Every offset at which an access
of a block has an effect of its own holds a field, so a reserved offset is none of them.
-/

namespace Sys2Proof.Machine

/-! ## Pages and their blocks -/

/-- The first page of a block. -/
def firstPage : Blk → Nat
  | .glb => 0 | .clk => 1 | .pwr => 2 | .tmp => 3 | .int => 4 | .intf => 5 | .ints => 6 | .bst => 7 | .sec => 8 | .hst => 9
  | .pct => 0xA | .sel => 0xB | .prk => 0xC | .map => 0xD | .fmc => 0xE | .clu => 0x10 | .eqa => 0x20 | .rgn => 0x30
  | .die => 0x38 | .lnk => 0x40 | .llt => 0xC0 | .cal => 0xC8 | .qst => 0xD0 | .vLb => 0x1000 | .vPre => 0x2000
  | .vLlStaged => 0x3000 | .vLlLive => 0x4000 | .vCalStaged => 0x5000 | .vCalLive => 0x5800

/-- How many pages a block has. -/
def pageCount : Blk → Nat
  | .clu | .eqa => 16 | .rgn => 4 | .die | .qst => 2 | .lnk => 128 | .llt | .cal => 8
  | .vLb | .vPre | .vLlStaged | .vLlLive => 4096 | .vCalStaged | .vCalLive => 2048
  | _ => 1

theorem some_of_ite {α : Type} {c : Prop} [Decidable c] {a x : α} {rest : Option α}
    (found : (if c then some a else rest) = some x) : (c ∧ a = x) ∨ rest = some x := by
  by_cases holds : c
  · exact .inl ⟨holds, Option.some.inj ((if_pos holds).symm.trans found)⟩
  · exact .inr ((if_neg holds).symm.trans found)

theorem ofPage_eq {p i : Nat} {b : Blk} (block : Blk.ofPage p = some (b, i)) : p = firstPage b + i ∧ i < pageCount b := by
  rw [Blk.ofPage] at block
  iterate 29
    rcases some_of_ite block with ⟨place, names⟩ | block
    · obtain ⟨rfl, rfl⟩ := Prod.mk.inj names
      simp only [firstPage, pageCount]
      omega
  exact nomatch block

/-! ## Reserved offsets -/

section reserved

variable {b : Blk} {off c base n step : Nat} (reserved : regFields b off = [])

include reserved

theorem ne_of_reserved (holds : (regFields b c).isEmpty = false) : off ≠ c := by
  rintro rfl
  rw [reserved] at holds
  exact Bool.noConfusion holds

theorem not_in_run (hold : (List.range n).all (fun i => !(regFields b (base + step * i)).isEmpty) = true) :
    ¬ (base ≤ off ∧ off < base + step * n ∧ (off - base) % step = 0) := by
  rintro ⟨low, high, whole⟩
  have place : off = base + step * ((off - base) / step) := by
    have split := Nat.div_add_mod (off - base) step
    omega
  have inside : (off - base) / step < n := Nat.div_lt_of_lt_mul (by omega)
  have holds := List.all_eq_true.mp hold _ (List.mem_range.mpr inside)
  rw [← place, reserved] at holds
  exact Bool.noConfusion holds

/-- A run of words, each of which holds a field. -/
theorem not_in_words (words : off % 4 = 0 ∧ base % 4 = 0)
    (hold : (List.range n).all (fun i => !(regFields b (base + 4 * i)).isEmpty) = true) :
    ¬ (base ≤ off ∧ off < base + 4 * n) := fun ⟨low, high⟩ =>
  not_in_run reserved hold ⟨low, high, by omega⟩

end reserved

section store

variable {s : State} {p off v i : Nat} {b : Blk}

theorem fieldsAt_of_block (block : Blk.ofPage p = some (b, i)) : fieldsAt p off = regFields b off := by
  rw [fieldsAt, block]

theorem storeReg_reserved (reserved : fieldsAt p off = []) : storeReg p off v s = s := by
  rw [fieldsAt] at reserved
  rw [storeReg]
  split
  case h_1 => rfl
  case h_2 c j block =>
    rw [block] at reserved
    simp only [reserved, List.foldl_nil]

theorem rawWord_reserved (reserved : fieldsAt p off = []) : rawWord s p off = 0 := by
  rw [rawWord, reserved, List.foldl_nil]

/-- The virtual page of a lane, or of a preset, holds the fields of its block, so their reserved offsets are the same. -/
theorem virtual_reserved {virtual : Blk} (reserved : regFields b off = []) (high : 0x40 ≤ off)
    (rows : fieldRows virtual = fieldRows b) (block : Blk.ofPage p = some (virtual, i)) : fieldsAt p off = [] := by
  rw [fieldsAt_of_block block, ← reserved]
  simp only [regFields, if_neg (Nat.not_lt.mpr high), rows]

theorem ofPage_lanePage {n : Nat} (there : n < 144) : Blk.ofPage (lanePage n) = some (.vLb, n) := by
  rw [Blk.ofPage, lanePage]
  iterate 23 rw [if_neg (by omega)]
  rw [if_pos (by omega), Nat.add_sub_cancel_left]

theorem ofPage_presetPage {c pos rung : Nat} (cluster : c < 16) (place : pos ≤ 8) (rate : rung ≤ 4) :
    Blk.ofPage (presetPage c pos rung) = some (.vPre, (c * 9 + pos) * 8 + rung) := by
  rw [Blk.ofPage, presetPage]
  iterate 24 rw [if_neg (by omega)]
  rw [if_pos (by omega), Nat.add_assoc, Nat.add_sub_cancel_left]

theorem lt_of_selectedLane {n : Nat} (selected : selectedLane s = some n) : n < 144 := by
  have lanes : lanesOf s ≤ 128 := by unfold lanesOf; split <;> decide
  have clusters : clustersOf s ≤ 16 := by unfold clustersOf; split <;> decide
  rw [selectedLane] at selected
  rcases some_of_ite selected with ⟨data, rfl⟩ | selected
  · omega
  · rcases some_of_ite selected with ⟨bobbin, rfl⟩ | selected
    · simp only [Bool.and_eq_true, decide_eq_true_eq] at bobbin
      omega
    · exact nomatch selected

theorem ofPage_selectedPreset {c q : Nat} (cluster : c < 16) (selected : selectedPreset s c = some q) :
    ∃ j, Blk.ofPage q = some (.vPre, j) := by
  rw [selectedPreset] at selected
  rcases some_of_ite selected with ⟨inside, rfl⟩ | selected
  · simp only [Bool.and_eq_true, decide_eq_true_eq] at inside
    exact ⟨_, ofPage_presetPage cluster inside.1 inside.2⟩
  · exact nomatch selected

end store

/-! ## Writes at a reserved offset -/

section writes

variable {s : State} {off v : Nat}

theorem writeGlb_reserved (reserved : regFields .glb off = []) : writeGlb off v s = s :=
  (if_neg (ne_of_reserved reserved (by decide))).trans ((if_neg (ne_of_reserved reserved (by decide))).trans
    (storeReg_reserved (p := 0) reserved))

theorem writeClk_reserved (reserved : regFields .clk off = []) : writeClk off v s = s :=
  (if_neg (ne_of_reserved reserved (by decide))).trans ((if_neg (ne_of_reserved reserved (by decide))).trans
    (storeReg_reserved (p := 1) reserved))

theorem writePwr_reserved (reserved : regFields .pwr off = []) : writePwr off v s = s :=
  (if_neg (ne_of_reserved reserved (by decide))).trans ((if_neg (ne_of_reserved reserved (by decide))).trans
    ((if_neg (ne_of_reserved reserved (by decide))).trans (storeReg_reserved (p := 2) reserved)))

theorem writeTmp_reserved (reserved : regFields .tmp off = []) : writeTmp off v s = s :=
  (if_neg (ne_of_reserved reserved (by decide))).trans (storeReg_reserved (p := 3) reserved)

theorem writeInt_reserved (reserved : regFields .int off = []) : writeInt false off v s = s :=
  (if_neg (not_or.mpr ⟨ne_of_reserved reserved (by decide), not_or.mpr ⟨ne_of_reserved reserved (by decide),
    ne_of_reserved reserved (by decide)⟩⟩)).trans
    ((if_neg fun named => ne_of_reserved reserved (by decide) named.1).trans (storeReg_reserved (p := 4) reserved))

theorem writeIntf_reserved (reserved : regFields .intf off = []) : writeInt true off v s = s :=
  (if_neg (not_or.mpr ⟨ne_of_reserved reserved (by decide), not_or.mpr ⟨ne_of_reserved reserved (by decide),
    ne_of_reserved reserved (by decide)⟩⟩)).trans
    ((if_neg fun named => Bool.false_ne_true named.2).trans (storeReg_reserved (p := 5) reserved))

theorem writeBst_reserved (reserved : regFields .bst off = []) (high : 0x40 ≤ off) : writeBst off v s = s := by
  refine (if_neg (ne_of_reserved reserved (by decide))).trans ((if_neg (ne_of_reserved reserved (by decide))).trans ?_)
  split
  · split
    · rfl
    case _ n selected =>
      refine (if_neg (ne_of_reserved reserved (by decide))).trans ((if_neg (ne_of_reserved reserved (by decide))).trans
        ((if_neg (ne_of_reserved reserved (by decide))).trans ((if_neg (ne_of_reserved reserved (by decide))).trans ?_)))
      exact storeReg_reserved (virtual_reserved (virtual := .vLb) reserved high rfl (ofPage_lanePage (lt_of_selectedLane selected)))
  · exact storeReg_reserved (p := 7) reserved

theorem writeSec_reserved (reserved : regFields .sec off = []) (word : off % 4 = 0) : writeSec off v s = s :=
  (if_neg (ne_of_reserved reserved (by decide))).trans ((if_neg (ne_of_reserved reserved (by decide))).trans
    ((if_neg (not_in_words (n := 24) reserved ⟨word, by decide⟩ (by decide))).trans (storeReg_reserved (p := 8) reserved)))

theorem writePct_reserved (reserved : regFields .pct off = []) : writePct off v s = s :=
  (if_neg (ne_of_reserved reserved (by decide))).trans (storeReg_reserved (p := 0xA) reserved)

theorem writePrk_reserved (reserved : regFields .prk off = []) : writePrk off v s = s :=
  (if_neg (ne_of_reserved reserved (by decide))).trans ((if_neg (ne_of_reserved reserved (by decide))).trans
    (storeReg_reserved (p := 0xC) reserved))

theorem writeMap_reserved (reserved : regFields .map off = []) (word : off % 4 = 0) : writeMap off v s = s :=
  (if_neg (ne_of_reserved reserved (by decide))).trans
    ((if_neg (not_in_words (n := 256) reserved ⟨word, by decide⟩ (by decide +kernel))).trans
    ((if_neg (not_in_words (n := 128) reserved ⟨word, by decide⟩ (by decide +kernel))).trans (storeReg_reserved (p := 0xD) reserved)))

theorem writeFmc_reserved (reserved : regFields .fmc off = []) : writeFmc off v s = s :=
  (if_neg (ne_of_reserved reserved (by decide))).trans ((if_neg (ne_of_reserved reserved (by decide))).trans
    (storeReg_reserved (p := 0xE) reserved))

section units

variable {i : Nat}

theorem writeClu_reserved (block : Blk.ofPage (0x10 + i) = some (.clu, i)) (reserved : regFields .clu off = []) :
    writeClu i off v s = s :=
  (if_neg (ne_of_reserved reserved (by decide))).trans ((if_neg (ne_of_reserved reserved (by decide))).trans
    ((if_neg (ne_of_reserved reserved (by decide))).trans ((if_neg (ne_of_reserved reserved (by decide))).trans
    ((if_neg (not_in_run (base := 0x80) (step := 0x40) (n := 9) reserved (by decide))).trans
    (storeReg_reserved ((fieldsAt_of_block block).trans reserved))))))

theorem writeEqa_reserved (block : Blk.ofPage (0x20 + i) = some (.eqa, i)) (cluster : i < 16)
    (reserved : regFields .eqa off = []) (high : 0x40 ≤ off) : writeEqa i off v s = s := by
  refine (if_neg (ne_of_reserved reserved (by decide))).trans ((if_neg (ne_of_reserved reserved (by decide))).trans ?_)
  split
  · split
    case _ q selected =>
      obtain ⟨j, virtual⟩ := ofPage_selectedPreset cluster selected
      exact storeReg_reserved (virtual_reserved (virtual := .vPre) reserved high rfl virtual)
    · rfl
  · exact (if_neg (ne_of_reserved reserved (by decide))).trans ((if_neg (ne_of_reserved reserved (by decide))).trans
      ((if_neg (ne_of_reserved reserved (by decide))).trans (storeReg_reserved ((fieldsAt_of_block block).trans reserved))))

theorem writeDie_reserved (block : Blk.ofPage (0x38 + i) = some (.die, i)) (reserved : regFields .die off = []) :
    writeDie i off v s = s := by
  have store : storeReg (0x38 + i) off v s = s := storeReg_reserved ((fieldsAt_of_block block).trans reserved)
  exact (if_neg (ne_of_reserved reserved (by decide))).trans ((if_neg (ne_of_reserved reserved (by decide))).trans
    ((if_neg (ne_of_reserved reserved (by decide))).trans ((if_neg (ne_of_reserved reserved (by decide))).trans store)))

theorem writeLnk_reserved (block : Blk.ofPage (0x40 + i) = some (.lnk, i)) (reserved : regFields .lnk off = [])
    (word : off % 4 = 0) : writeLnk i off v s = s := by
  have store : storeReg (0x40 + i) off v s = s := storeReg_reserved ((fieldsAt_of_block block).trans reserved)
  have staged : ¬ ((0x40 ≤ off ∧ off < 0x60) ∨ off = 0xA00 ∨ (0xB00 ≤ off ∧ off < 0xB10)) :=
    not_or.mpr ⟨not_in_words (n := 8) reserved ⟨word, by decide⟩ (by decide),
      not_or.mpr ⟨ne_of_reserved reserved (by decide), not_in_words (n := 4) reserved ⟨word, by decide⟩ (by decide)⟩⟩
  exact (if_neg staged).trans ((if_neg (ne_of_reserved reserved (by decide))).trans
    ((if_neg (ne_of_reserved reserved (by decide))).trans ((if_neg (ne_of_reserved reserved (by decide))).trans
    ((if_neg (ne_of_reserved reserved (by decide))).trans ((if_neg (ne_of_reserved reserved (by decide))).trans store)))))

theorem writeLlt_reserved (block : Blk.ofPage (0xC0 + i) = some (.llt, i)) (reserved : regFields .llt off = [])
    (word : off % 4 = 0) : writeLlt i off v s = s :=
  (if_neg (not_in_words (n := 8) reserved ⟨word, by decide⟩ (by decide))).trans
    ((if_neg (ne_of_reserved reserved (by decide))).trans (storeReg_reserved ((fieldsAt_of_block block).trans reserved)))

/-- The bindings of a calendar's window: three words of each of its two entries, and its clear register. -/
theorem cal_window_reserved (reserved : regFields .cal off = []) (word : off % 4 = 0) :
    ¬ (0x80 ≤ off ∧ off < 0x100 ∧ (off - 0x80) % 0x40 < 0x0C) ∧ ¬ (0x80 ≤ off ∧ off < 0x100 ∧ (off - 0x80) % 0x40 = 0x20) := by
  have first := not_in_words (base := 0x80) (n := 3) reserved ⟨word, by decide⟩ (by decide)
  have second := not_in_words (base := 0xC0) (n := 3) reserved ⟨word, by decide⟩ (by decide)
  have clears : off ≠ 0xA0 ∧ off ≠ 0xE0 := ⟨ne_of_reserved reserved (by decide), ne_of_reserved reserved (by decide)⟩
  omega

theorem writeCal_reserved (block : Blk.ofPage (0xC8 + i) = some (.cal, i)) (reserved : regFields .cal off = [])
    (word : off % 4 = 0) : writeCal i off v s = s := by
  obtain ⟨window, clears⟩ := cal_window_reserved reserved word
  exact (if_neg (ne_of_reserved reserved (by decide))).trans ((if_neg window).trans ((if_neg clears).trans
    (storeReg_reserved ((fieldsAt_of_block block).trans reserved))))

end units

end writes

theorem writeBlock_reserved {s : State} {p off v : Nat} (reserved : fieldsAt p off = []) (word : off % 4 = 0)
    (high : 0x40 ≤ off) : writeBlock p off v s = s := by
  rcases found : Blk.ofPage p with _ | ⟨b, i⟩
  · simp only [writeBlock, found]
    exact storeReg_reserved reserved
  · have bare : regFields b off = [] := (fieldsAt_of_block found).symm.trans reserved
    have store : storeReg p off v s = s := storeReg_reserved reserved
    obtain ⟨place, count⟩ := ofPage_eq found
    have unit : Blk.ofPage (firstPage b + i) = some (b, i) := place ▸ found
    simp only [writeBlock, found]
    cases b with
    | glb => exact writeGlb_reserved bare
    | clk => exact writeClk_reserved bare
    | pwr => exact writePwr_reserved bare
    | tmp => exact writeTmp_reserved bare
    | int => exact writeInt_reserved bare
    | intf => exact writeIntf_reserved bare
    | ints => exact if_neg (not_in_words (n := 320) bare ⟨word, by decide⟩ (by decide +kernel))
    | bst => exact writeBst_reserved bare high
    | sec => exact writeSec_reserved bare word
    | pct => exact writePct_reserved bare
    | prk => exact writePrk_reserved bare
    | map => exact writeMap_reserved bare word
    | fmc => exact writeFmc_reserved bare
    | clu => exact writeClu_reserved unit bare
    | eqa => exact writeEqa_reserved unit count bare high
    | die => exact writeDie_reserved unit bare
    | lnk => exact writeLnk_reserved unit bare word
    | llt => exact writeLlt_reserved unit bare word
    | cal => exact writeCal_reserved unit bare word
    | qst => exact if_neg (ne_of_reserved bare (by decide))
    | hst | sel | rgn | vLb | vPre | vLlStaged | vLlLive | vCalStaged | vCalLive => exact store

/-! ## Reads at a reserved offset -/

section reads

variable {s : State} {off : Nat}

theorem viewCal_reserved {i : Nat} (block : Blk.ofPage (0xC8 + i) = some (.cal, i)) (reserved : regFields .cal off = [])
    (word : off % 4 = 0) : viewCal s i off = 0 := by
  have raw : rawWord s (0xC8 + i) off = 0 := rawWord_reserved ((fieldsAt_of_block block).trans reserved)
  have states := not_in_words (base := 0x8C) (n := 3) reserved ⟨word, by decide⟩ (by decide)
  have states' := not_in_words (base := 0xCC) (n := 3) reserved ⟨word, by decide⟩ (by decide)
  have window := (cal_window_reserved reserved word).1
  refine (if_neg (ne_of_reserved reserved (by decide))).trans ?_
  split
  · exact raw
  · refine (if_neg ?_).trans ((if_neg ?_).trans ((if_neg ?_).trans ((if_neg ?_).trans raw))) <;> omega

theorem viewLlt_reserved {i : Nat} (block : Blk.ofPage (0xC0 + i) = some (.llt, i)) (reserved : regFields .llt off = [])
    (word : off % 4 = 0) : viewLlt s i off = 0 := by
  have raw : rawWord s (0xC0 + i) off = 0 := rawWord_reserved ((fieldsAt_of_block block).trans reserved)
  exact (if_neg (ne_of_reserved reserved (by decide))).trans
    ((if_neg (not_in_words (n := 8) reserved ⟨word, by decide⟩ (by decide))).trans
    ((if_neg (ne_of_reserved reserved (by decide))).trans ((if_neg (ne_of_reserved reserved (by decide))).trans
    ((if_neg (ne_of_reserved reserved (by decide))).trans
    ((if_neg (not_in_words (n := 6) reserved ⟨word, by decide⟩ (by decide))).trans raw)))))

theorem viewLnk_reserved {i : Nat} (block : Blk.ofPage (0x40 + i) = some (.lnk, i)) (reserved : regFields .lnk off = []) :
    viewLnk s i off = 0 := by
  have raw : rawWord s (0x40 + i) off = 0 := rawWord_reserved ((fieldsAt_of_block block).trans reserved)
  refine (if_neg (ne_of_reserved reserved (by decide))).trans ?_
  split
  · rfl
  · split
    · rfl
    · exact (if_neg (ne_of_reserved reserved (by decide))).trans ((if_neg (ne_of_reserved reserved (by decide))).trans
        ((if_neg (ne_of_reserved reserved (by decide))).trans ((if_neg (ne_of_reserved reserved (by decide))).trans
        ((if_neg (ne_of_reserved reserved (by decide))).trans ((if_neg (ne_of_reserved reserved (by decide))).trans
        ((if_neg (ne_of_reserved reserved (by decide))).trans ((if_neg (ne_of_reserved reserved (by decide))).trans
        ((if_neg (ne_of_reserved reserved (by decide))).trans raw))))))))

theorem viewWord_reserved {p : Nat} (reserved : fieldsAt p off = []) (word : off % 4 = 0) : viewWord s p off = 0 := by
  have raw : rawWord s p off = 0 := rawWord_reserved reserved
  rw [viewWord]
  split
  · rfl
  · rcases found : Blk.ofPage p with _ | ⟨b, i⟩
    · exact raw
    · have bare : regFields b off = [] := (fieldsAt_of_block found).symm.trans reserved
      obtain ⟨place, count⟩ := ofPage_eq found
      have unit : Blk.ofPage (firstPage b + i) = some (b, i) := place ▸ found
      cases b with
      | glb => exact (if_neg (ne_of_reserved bare (by decide))).trans raw
      | int =>
        exact (if_neg (by simp [ne_of_reserved (c := 0x48) bare (by decide), ne_of_reserved (c := 0x58) bare (by decide),
          ne_of_reserved (c := 0x68) bare (by decide)])).trans ((if_neg (ne_of_reserved bare (by decide))).trans raw)
      | intf =>
        exact (if_neg (by simp [ne_of_reserved (c := 0x48) bare (by decide), ne_of_reserved (c := 0x58) bare (by decide),
          ne_of_reserved (c := 0x68) bare (by decide)])).trans raw
      | ints => exact (if_neg (not_in_words (n := 10) bare ⟨word, by decide⟩ (by decide))).trans raw
      | bst =>
        refine (if_neg (ne_of_reserved bare (by decide))).trans ?_
        split
        case isTrue range =>
          split
          case _ n selected =>
            exact rawWord_reserved (virtual_reserved (virtual := .vLb) bare (by omega) rfl
              (ofPage_lanePage (lt_of_selectedLane selected)))
          · rfl
        · exact raw
      | hst => exact (if_neg (ne_of_reserved bare (by decide))).trans raw
      | pct =>
        exact (if_neg (ne_of_reserved bare (by decide))).trans ((if_neg (ne_of_reserved bare (by decide))).trans
          ((if_neg (by simp [ne_of_reserved (c := 0x4C) bare (by decide), ne_of_reserved (c := 0x50) bare (by decide)])).trans raw))
      | sel =>
        exact (if_neg (ne_of_reserved bare (by decide))).trans ((if_neg (by
          simp [ne_of_reserved (c := 0x60) bare (by decide), ne_of_reserved (c := 0x68) bare (by decide),
            ne_of_reserved (c := 0x70) bare (by decide), ne_of_reserved (c := 0x78) bare (by decide)])).trans raw)
      | clu => exact rawWord_reserved ((fieldsAt_of_block unit).trans bare)
      | eqa =>
        dsimp only
        split
        case isTrue range =>
          split
          case _ q selected =>
            obtain ⟨j, virtual⟩ := ofPage_selectedPreset count selected
            exact rawWord_reserved (virtual_reserved (virtual := .vPre) bare (by omega) rfl virtual)
          · rfl
        · exact raw
      | die =>
        exact (if_neg (ne_of_reserved bare (by decide))).trans
          ((if_neg (not_in_words (n := 33) bare ⟨word, by decide⟩ (by decide))).trans
          ((if_neg (ne_of_reserved bare (by decide))).trans raw))
      | lnk => exact viewLnk_reserved unit bare
      | llt => exact viewLlt_reserved unit bare word
      | cal => exact viewCal_reserved unit bare word
      | qst => exact (if_neg (ne_of_reserved bare (by decide))).trans raw
      | clk | pwr | tmp | sec | prk | map | fmc | rgn | vLb | vPre | vLlStaged | vLlLive | vCalStaged | vCalLive => exact raw

theorem rsRead_reserved {p : Nat} (reserved : fieldsAt p off = []) : rsRead s p off = none := by
  rcases found : Blk.ofPage p with _ | ⟨b, i⟩
  · simp only [rsRead, found]
  · have bare : regFields b off = [] := (fieldsAt_of_block found).symm.trans reserved
    simp only [rsRead, found]
    cases b with
    | clu | llt | die | bst => exact if_neg (ne_of_reserved bare (by decide))
    | lnk =>
      exact (if_neg (ne_of_reserved bare (by decide))).trans ((if_neg (ne_of_reserved bare (by decide))).trans
        (if_neg (ne_of_reserved bare (by decide))))
    | cal => exact (if_neg (ne_of_reserved bare (by decide))).trans (if_neg (ne_of_reserved bare (by decide)))
    | int | intf =>
      exact if_neg (by simp [ne_of_reserved (c := 0x40) bare (by decide), ne_of_reserved (c := 0x50) bare (by decide),
        ne_of_reserved (c := 0x60) bare (by decide)])
    | glb | clk | pwr | tmp | ints | sec | hst | pct | sel | prk | map | fmc | eqa | rgn | qst | vLb | vPre | vLlStaged | vLlLive
    | vCalStaged | vCalLive => rfl

theorem loLatch_reserved {p : Nat} (reserved : fieldsAt p off = []) : loLatch p off s = s := by
  rcases found : Blk.ofPage p with _ | ⟨b, i⟩
  · simp only [loLatch, found]
  · have bare : regFields b off = [] := (fieldsAt_of_block found).symm.trans reserved
    simp only [loLatch, found]
    cases b with
    | pct => exact (if_neg (ne_of_reserved bare (by decide))).trans (if_neg (ne_of_reserved bare (by decide)))
    | lnk | die => exact if_neg (ne_of_reserved bare (by decide))
    | sel =>
      exact if_neg (by simp [ne_of_reserved (c := 0x60) bare (by decide), ne_of_reserved (c := 0x68) bare (by decide),
        ne_of_reserved (c := 0x70) bare (by decide), ne_of_reserved (c := 0x78) bare (by decide)])
    | glb | clk | pwr | tmp | int | intf | ints | bst | sec | hst | prk | map | fmc | clu | eqa | rgn | llt | cal | qst | vLb
    | vPre | vLlStaged | vLlLive | vCalStaged | vCalLive => rfl

end reads

/-! ## Accesses of a word where nothing answers -/

section accesses

variable {s : State} {addr v p : Nat}

/-- What an access of one word makes of an address that reads zero and drops writes. -/
theorem accesses_nothing (word : addr % 4 = 0) (range : addr < 2 ^ 20) (free : s.host.heldAcc = [])
    (calm : pageSoftBusy s addr = false) (reads : hostRead addr s = (0, s)) (writes : hostWrite addr v s = s) :
    exec (.loReadLatch addr) s = .next (s.answerWord 0) ∧ exec (.registerWrite addr v) s = .next s ∧
      portRead p (ownId s) addr 1 false s = (stOk, [0], s) ∧ portWrite p (ownId s) addr [v] s = (stOk, s) := by
  have inside : badRange addr 1 = false := by
    simp only [badRange, Bool.or_eq_false_iff, decide_eq_false_iff_not]
    omega
  have now (port : Nat) : mustWait s port addr = false := by
    rw [mustWait, calm, free, List.any_nil, Bool.and_false, Bool.or_false]
  have acts : goIgnored s addr = false := by rw [goIgnored, calm, Bool.false_and]
  refine ⟨?_, ?_, ?_, ?_⟩
  · change execLoReadLatch addr s = _
    simp only [execLoReadLatch, inside, now, reads, Bool.false_eq_true, if_false]
  · change execRegisterWrite addr v s = _
    simp only [execRegisterWrite, inside, now, acts, writes, Bool.false_eq_true, if_false, Bool.or_self]
  · simp only [portRead, inside, now, readWords, reads, Bool.false_eq_true, if_false, ne_eq, not_true_eq_false]
  · simp only [portWrite, List.length_singleton, inside, writeWords, now, acts, writes, Bool.false_eq_true, if_false, ne_eq,
      not_true_eq_false]

section closed

variable (closed : pageExists s (addr / 4096) = false ∨ phaseOpens s (addr / 4096) = false)

include closed

theorem pageOpen_of_closed : pageOpen s (addr / 4096) = false := by
  rcases closed with absent | shut
  · rw [pageOpen, absent, Bool.false_and, Bool.false_and, Bool.false_and]
  · rw [pageOpen, shut, Bool.and_false, Bool.false_and, Bool.false_and]

theorem closed_guard : (!pageExists s (addr / 4096) || !phaseOpens s (addr / 4096)) = true := by
  rcases closed with absent | shut
  · rw [absent]
    rfl
  · rw [shut, Bool.not_false, Bool.or_true]

end closed

theorem hostRead_unopened (word : addr % 4 = 0) (shut : pageOpen s (addr / 4096) = false) :
    hostRead addr s = (peek s addr, s) := by
  simp only [hostRead, word, shut, Bool.false_and, Bool.false_eq_true, if_false, ne_eq, not_true_eq_false]

theorem pageSoftBusy_unopened (shut : pageOpen s (addr / 4096) = false) : pageSoftBusy s addr = false := by
  rw [pageSoftBusy, shut, Bool.false_and]

end accesses

/-- Settles O59: the page is closed, gated, or holds no field at the offset. -/
theorem unansweredAddressesReadZeroAndDropWrites : Obligations.UnansweredAddressesReadZeroAndDropWrites := by
  unfold Obligations.UnansweredAddressesReadZeroAndDropWrites
  refine ⟨?closed, ?gated, ?reserved⟩
  case closed =>
    intro s addr v p word range free closed
    have shut := pageOpen_of_closed closed
    refine accesses_nothing word range free (pageSoftBusy_unopened shut) ?_ ?_
    · rw [hostRead_unopened word shut]
      exact congrArg (·, s) (if_pos (closed_guard closed))
    · exact (if_neg (not_not_intro word)).trans (if_pos (closed_guard closed))
  case gated =>
    intro s addr v p word range free gated beyond
    have shut : pageOpen s (addr / 4096) = false := by
      rw [pageOpen, gated, Bool.not_true, Bool.and_false, Bool.false_and]
    refine accesses_nothing word range free (pageSoftBusy_unopened shut) ?_ ?_
    · rw [hostRead_unopened word shut]
      refine congrArg (·, s) ?_
      rw [peek]
      split
      · rfl
      · rw [if_neg (by omega), if_neg (by omega), if_neg (by omega)]
    · refine (if_neg (not_not_intro word)).trans ?_
      split
      · rfl
      · rw [if_neg (by omega)]
  case reserved =>
    intro s addr v p word range free answers calm low reserved
    have aligned : addr % 4096 % 4 = 0 := by omega
    have opens := answers
    simp only [pageOpen, Bool.and_eq_true, Bool.not_eq_true'] at opens
    obtain ⟨⟨⟨there, open_⟩, clocked⟩, _⟩ := opens
    have zero : peek s addr = 0 := by
      simp only [peek, there, open_, clocked, Bool.not_true, Bool.or_self, Bool.false_eq_true, if_false]
      exact (if_neg (by omega)).trans ((if_neg (by omega)).trans ((if_neg (by omega)).trans ((if_neg (by omega)).trans
        (viewWord_reserved reserved aligned))))
    refine accesses_nothing word range free (by rw [pageSoftBusy, calm, Bool.and_false]) ?_ ?_
    · simp only [hostRead, word, rsRead_reserved reserved, loLatch_reserved reserved, zero, ne_eq, not_true_eq_false,
        ite_self]
    · simp only [hostWrite, there, open_, clocked, Bool.not_true, Bool.or_self, Bool.false_eq_true, if_false]
      refine (if_neg (not_not_intro word)).trans ((if_neg (by omega)).trans ((if_neg (by omega)).trans ?_))
      split
      · rfl
      case _ header =>
        have high : 0x40 ≤ addr % 4096 := by simpa [low] using header
        refine (if_neg (by omega)).trans ?_
        split
        · rfl
        · exact writeBlock_reserved reserved aligned high

end Sys2Proof.Machine

end

section
/-!
Loops, pattern generators and checkers (R385-R389, R395).
-/

namespace Sys2Proof.Machine

/-! ## Settings (R385-R388) -/

section settings

variable {s t u w x : State} {lane v why : Nat} (answers : pageOpen s 7 = true) (selectable : laneSelectable s lane = true)

include answers selectable

theorem exec_lbCfgWrite_refused (against : loopWhy s lane (bits v 9 8) (bits v 0 0) (bits v 18 16) = some why) :
    exec (.lbCfgWrite lane v) s = .next (loopRefuse (lanePage lane) why s) := by
  refine congrArg Host.Outcome.next ((ifOpen_open answers).trans ?_)
  simp only [writeLbCfg, selectable, against, Bool.not_true, Bool.false_eq_true, if_false]

theorem exec_lbCfgWrite_taken (none : loopWhy s lane (bits v 9 8) (bits v 0 0) (bits v 18 16) = none)
    (cleared : t = (s.wr (R.LB_CFG_refused (lanePage lane)) 0).wr (R.LB_CFG_rung (lanePage lane)) (bits v 18 16))
    (set : u = (t.wr (R.LB_CFG_loop (lanePage lane)) (bits v 9 8)).wr (R.LB_CFG_dir (lanePage lane)) (bits v 0 0)) :
    exec (.lbCfgWrite lane v) s = .next (testSync s lane
      (u.wrB (R.LB_CFG_active (lanePage lane)) (decide (bits v 9 8 ≠ 0)))) := by
  rw [set, cleared]
  refine congrArg Host.Outcome.next ((ifOpen_open answers).trans ?_)
  simp only [writeLbCfg, selectable, none, Bool.not_true, Bool.false_eq_true, if_false]

theorem exec_prbsGenWrite_refused (against : patternWhy s lane (Side.ofIdx (bits v 4 4)).dirOut = some why) :
    exec (.prbsGenWrite lane v) s = .next (loopRefuse (lanePage lane) why s) := by
  refine congrArg Host.Outcome.next ((ifOpen_open answers).trans ?_)
  simp only [writePrbsGen, selectable, against, Bool.not_true, Bool.false_eq_true, if_false]

theorem exec_prbsChkWrite_refused (against : patternWhy s lane (Side.ofIdx (bits v 4 4)).dirIn = some why) :
    exec (.prbsChkWrite lane v) s = .next (loopRefuse (lanePage lane) why s) := by
  refine congrArg Host.Outcome.next ((ifOpen_open answers).trans ?_)
  simp only [writePrbsChk, selectable, against, Bool.not_true, Bool.false_eq_true, if_false]

section generator

variable (none : patternWhy s lane (Side.ofIdx (bits v 4 4)).dirOut = none)

include none

theorem exec_prbsGenWrite_unlisted (pattern : 8 ≤ bits v 3 0) :
    exec (.prbsGenWrite lane v) s = .next (s.wr (R.LB_CFG_refused (lanePage lane)) 1) := by
  refine congrArg Host.Outcome.next ((ifOpen_open answers).trans ?_)
  simp only [writePrbsGen, selectable, none, pattern, Bool.not_true, Bool.false_eq_true, if_false, if_true]

theorem exec_prbsGenWrite_taken (pattern : bits v 3 0 < 8)
    (set : t = (s.wr (R.LB_CFG_refused (lanePage lane)) 0).wr (R.PRBS_GEN_en (lanePage lane)) (bits v 12 12)) :
    exec (.prbsGenWrite lane v) s = .next (testSync s lane ((t.wr (R.PRBS_GEN_side (lanePage lane)) (bits v 4 4)).wr
      (R.PRBS_GEN_pattern (lanePage lane)) (bits v 3 0))) := by
  rw [set]
  refine congrArg Host.Outcome.next ((ifOpen_open answers).trans ?_)
  simp only [writePrbsGen, selectable, none, Nat.not_le.mpr pattern, Bool.not_true, Bool.false_eq_true, if_false]

end generator

section checker

variable (none : patternWhy s lane (Side.ofIdx (bits v 4 4)).dirIn = none)

include none

theorem exec_prbsChkWrite_unlisted (pattern : 8 ≤ bits v 3 0) :
    exec (.prbsChkWrite lane v) s = .next (s.wr (R.LB_CFG_refused (lanePage lane)) 1) := by
  refine congrArg Host.Outcome.next ((ifOpen_open answers).trans ?_)
  simp only [writePrbsChk, selectable, none, pattern, Bool.not_true, Bool.false_eq_true, if_false, if_true]

theorem exec_prbsChkWrite_taken (pattern : bits v 3 0 < 8)
    (cleared : t = (s.wr (R.LB_CFG_refused (lanePage lane)) 0).wr (R.PRBS_CHK_err_thr (lanePage lane)) (bits v 31 16))
    (enabled : u = (t.wr (R.PRBS_CHK_en (lanePage lane)) (bits v 12 12)).wr (R.PRBS_CHK_win (lanePage lane)) (bits v 11 8))
    (set : w = (u.wr (R.PRBS_CHK_side (lanePage lane)) (bits v 4 4)).wr (R.PRBS_CHK_pattern (lanePage lane)) (bits v 3 0))
    (afresh : x = ((w.wr (R.PRBS_STAT_lock (lanePage lane)) 0).wr (R.PRBS_STAT_inv (lanePage lane)) 0).putPrbs lane {}) :
    exec (.prbsChkWrite lane v) s = .next (checkSync s lane (testSync s lane x)) := by
  rw [afresh, set, enabled, cleared]
  refine congrArg Host.Outcome.next ((ifOpen_open answers).trans ?_)
  simp only [writePrbsChk, selectable, none, Nat.not_le.mpr pattern, Bool.not_true, Bool.false_eq_true, if_false]

end checker

end settings

/-! ## The checker's events (R388, R389) -/

section checkers

variable {s : State} {lane : Nat} (there : lanePresent s lane = true)

include there

section lock

variable {got : List Bool} (on : s.on (R.PRBS_CHK_en (lanePage lane)) = true) (unlocked : prbsLocked s lane = false)

include on unlocked

theorem exec_prbsLock_unmatched
    (differ : prbsLocks (s.rd (R.PRBS_CHK_pattern (lanePage lane))) (s.rd (R.PRBS_USER_bits (lanePage lane))) got = none) :
    exec (.prbsLock lane got) s = .next s := by
  refine (onUnit_of_present there).trans ?_
  simp only [on, unlocked, differ, Bool.not_true, Bool.or_self, Bool.false_eq_true, if_false]

theorem exec_prbsLock_matched {inv : Bool}
    (locks : prbsLocks (s.rd (R.PRBS_CHK_pattern (lanePage lane))) (s.rd (R.PRBS_USER_bits (lanePage lane))) got = some inv) :
    exec (.prbsLock lane got) s = .next (if inv && isPam (prbsRate s lane) then s
      else (s.wr (R.PRBS_STAT_lock (lanePage lane)) 1).wrB (R.PRBS_STAT_inv (lanePage lane)) inv) := by
  refine (onUnit_of_present there).trans ?_
  simp only [on, unlocked, locks, Bool.not_true, Bool.or_self, Bool.false_eq_true, if_false]

end lock

section events

variable {t u : State} {count errs bad wnd : Nat} {st : PrbsSt}
  (counted : t = (s.putLive (R.PRBS_BITS_LO (lanePage lane))
      (min (s.live (R.PRBS_BITS_LO (lanePage lane)) + count) (maxOf 64))).countBy (R.PRBS_ERR (lanePage lane))
    (if s.rd (R.PRBS_CHK_pattern (lanePage lane)) = 6 then errs + 8 * bad else errs))
  (window : st = { t.prbsOf lane with
    winBits := (t.prbsOf lane).winBits + count,
    winErrs := (t.prbsOf lane).winErrs + (if s.rd (R.PRBS_CHK_pattern (lanePage lane)) = 6 then errs + 8 * bad else errs) })
  (reported : u = if t.rd (R.PRBS_CHK_err_thr (lanePage lane)) < st.winErrs && !st.fired then
    (t.putPrbs lane { st with fired := true }).raise (16 * laneCluster lane + 6) else t.putPrbs lane st)

include counted window reported

omit there in
theorem prbsCount_eq : prbsCount lane count (prbsErrs s lane errs bad) s = u := by
  rw [reported, window, counted]
  rfl

variable (locked : prbsLocked s lane = true)

include locked

theorem exec_prbsLockLoss_many (many : 64 < wnd) (inside : inWindow s lane count = true) :
    exec (.prbsLockLoss lane count ⟨errs, bad, wnd⟩) s = .next ((((u.wr (R.PRBS_STAT_lock (lanePage lane)) 0).wr
      (R.PRBS_STAT_inv (lanePage lane)) 0).count (R.PRBS_LOSS (lanePage lane))).putPrbs lane {}) := by
  rw [← prbsCount_eq counted window reported]
  exact (onUnit_of_present there).trans (congrArg _ (if_pos (by rw [locked, decide_eq_true many, inside]; rfl)))

theorem exec_prbsErrThreshold_inside (inside : inWindow s lane count = true) :
    exec (.prbsErrThreshold lane count ⟨errs, bad, wnd⟩) s = .next u := by
  rw [← prbsCount_eq counted window reported]
  exact (onUnit_of_present there).trans (congrArg _ (if_pos (by rw [locked, inside]; rfl)))

theorem exec_prbsErrWindowEnd_whole (whole : (s.prbsOf lane).winBits + count = prbsWindow s lane) :
    exec (.prbsErrWindowEnd lane count ⟨errs, bad, wnd⟩) s = .next (u.putPrbs lane {}) := by
  rw [← prbsCount_eq counted window reported]
  exact (onUnit_of_present there).trans (congrArg _ (if_pos (by rw [locked, decide_eq_true whole]; rfl)))

end events

end checkers

/-- Settles O42: each write by its reason, each event of a checker by its lock and window. -/
theorem loopsAndPatterns : Obligations.LoopsAndPatterns := by
  unfold Obligations.LoopsAndPatterns
  refine ⟨?lbRefused, ?genRefused, ?chkRefused, ?lb, ?genUnlisted, ?gen, ?chkUnlisted, ?chk, ?lockNot, ?lock, ?lockPam, ?loss,
    ?threshold, ?windowEnd, ?snap, ?snapNot, ?clr, ?clrNot⟩
  case lbRefused => exact fun s lane v n => exec_lbCfgWrite_refused
  case genRefused => exact fun s lane v n => exec_prbsGenWrite_refused
  case chkRefused => exact fun s lane v n => exec_prbsChkWrite_refused
  case lb =>
    intro s lane v t u cleared set answers selectable none
    exact exec_lbCfgWrite_taken answers selectable none cleared set
  case genUnlisted => exact fun s lane v => exec_prbsGenWrite_unlisted
  case gen =>
    intro s lane v t set answers selectable none pattern
    exact exec_prbsGenWrite_taken answers selectable none pattern set
  case chkUnlisted => exact fun s lane v => exec_prbsChkWrite_unlisted
  case chk =>
    intro s lane v t u w x cleared enabled set afresh answers selectable none pattern
    exact exec_prbsChkWrite_taken answers selectable none pattern cleared enabled set afresh
  case lockNot => exact fun s lane got there => exec_prbsLock_unmatched there
  case lock =>
    intro s lane got inv there on unlocked locks nrz
    rw [exec_prbsLock_matched there on unlocked locks, if_neg (ne_true_of_eq_false nrz)]
  case lockPam =>
    intro s lane got inv there on unlocked locks pam
    rw [exec_prbsLock_matched there on unlocked locks, if_pos pam]
  case loss =>
    intro s lane count errs bad wnd t st u counted window reported there locked many inside
    exact exec_prbsLockLoss_many there counted window reported locked many inside
  case threshold =>
    intro s lane count errs bad wnd t st u counted window reported there locked inside
    exact exec_prbsErrThreshold_inside there counted window reported locked inside
  case windowEnd =>
    intro s lane count errs bad wnd t st u counted window reported there locked whole
    exact exec_prbsErrWindowEnd_whole there counted window reported locked whole
  case snap =>
    intro s lane answers selectable
    exact congrArg Host.Outcome.next ((if_pos answers).trans (if_neg (by simp [selectable])))
  case snapNot =>
    intro s lane answers absent
    exact congrArg Host.Outcome.next ((if_pos answers).trans (if_pos (by rw [absent]; rfl)))
  case clr =>
    intro s lane answers selectable
    exact congrArg Host.Outcome.next ((ifOpen_open answers).trans (if_neg (by simp [selectable])))
  case clrNot =>
    intro s lane answers absent
    exact congrArg Host.Outcome.next ((ifOpen_open answers).trans (if_pos (by rw [absent]; rfl)))

end Sys2Proof.Machine

end

section
/-!
Supplies and host fences (R399, R400, R408-R410, R418).
-/

namespace Sys2Proof.Machine

/-! ## Supply warnings (R399, R400) -/

section rails

variable {s t u : State} {rail mv ns : Nat} (there : rail < 4)

include there

theorem exec_supplyWarnSet_warns
    (warned : t = ((s.wr (R.SUP_STAT_warn rail) 1).bump (R.SUP_CNT_cnt rail)).setInput (260 + rail) true)
    (limited : u = slicesEnd 1 resLimit causeSupply (slicesEnd 0 resLimit causeSupply t))
    (below : mv < (railLevels rail).1) (long : 1000 < ns) (clear : s.on (R.SUP_STAT_warn rail) = false)
    (running : s.dev.phase ≠ .off) : exec (.supplyWarnSet ⟨rail, mv, ns⟩) s = .next (postPause u) := by
  rw [limited, warned]
  exact (onUnit_of_present (decide_eq_true there)).trans (congrArg _ (if_neg (by
    rw [railWarns, decide_eq_true below, decide_eq_true long, clear, decide_eq_false running]
    exact Bool.false_ne_true)))

theorem exec_supplyWarnClear_clears (cleared : t = (s.wr (R.SUP_STAT_warn rail) 0).setInput (260 + rail) false)
    (above : (railLevels rail).1 + 10 < mv) (long : 1000 < ns) (warns : s.on (R.SUP_STAT_warn rail) = true) :
    exec (.supplyWarnClear ⟨rail, mv, ns⟩) s = .next (suspectSlices (postResume t)) := by
  rw [cleared]
  exact (onUnit_of_present (decide_eq_true there)).trans (congrArg _ (if_pos (by
    rw [railClears, railHysteresis, decide_eq_true above, decide_eq_true long, warns]
    rfl)))

end rails

/-- When the last warning ends, the pause of a paused POST is over and is added to its pauses (R376). -/
theorem postResume_eq {t : State} : postResume t = match t.bist.pauseFrom with
    | some n => if anyWarn t then t else
      { t with bist := { t.bist with pauseFrom := none, paused := t.bist.paused + (t.clock - n) } }
    | none => t := by
  unfold postResume
  cases t.bist.pauseFrom <;> rfl

/-! ## Host fences (R408-R410) -/

section fences

variable {s t u v w : State} {op unit : Nat}

theorem fenceCmd_refused (against : fenceWhy t op unit ≠ 0) :
    fenceCmd op unit t = (t.wr R.FENCE_CMD_why (fenceWhy t op unit)).wr R.FENCE_CMD_refused 1 := if_pos against

theorem fenceCmd_fence (cleared : u = (t.wr R.FENCE_CMD_why 0).wr R.FENCE_CMD_refused 0) (none : fenceWhy t 0 unit = 0) :
    fenceCmd 0 unit t = if unit < 4 then fenceRegion unit fcHost u
      else if unit < 6 then fenceDie (unit - 4) fcHost u else fencePkg fcHost u := by
  rw [cleared, fenceCmd, none]
  rfl

/-- The links that no fence holds any longer train. -/
def trainLifted (before s : State) : State :=
  (List.range (linksOf s)).foldl (fun s k => if linkFenced before k && !linkFenced s k then linkTrain false k s else s) s

theorem fenceCmd_lift (cleared : u = (t.wr R.FENCE_CMD_why 0).wr R.FENCE_CMD_refused 0) (none : fenceWhy t 1 unit = 0) :
    fenceCmd 1 unit t = suspectSlices (startRecheck rkLift (trainLifted u (liftUnit unit u))) := by
  rw [cleared, fenceCmd, none]
  rfl

section open_

variable (answers : pageOpen s 0 = true)

include answers

theorem exec_fenceCmdFence_open (stored : t = fenceStore 0 (unit % 8) s) :
    exec (.fenceCmdFence unit) s = .next (fenceCmd 0 (unit % 8) t) := by
  rw [stored]
  exact congrArg Host.Outcome.next (ifOpen_open answers)

theorem exec_fenceCmdLift_open (stored : t = fenceStore 1 (unit % 8) s) :
    exec (.fenceCmdLift unit) s = .next (fenceCmd 1 (unit % 8) t) := by
  rw [stored]
  exact congrArg Host.Outcome.next (ifOpen_open answers)

end open_

theorem liftUnit_region (region : unit < 4) : liftUnit unit u = u.wr (R.FENCE_STAT_region unit) 0 := by
  have fld : fenceFld unit = R.FENCE_STAT_region unit := if_pos region
  rw [liftUnit, if_pos region, fld]

theorem liftUnit_die {x y : State} (upper : 4 ≤ unit) (die : unit < 6) (lifted : x = u.wr (R.FENCE_STAT_die (unit - 4)) 0)
    (judged : y = x.wr (R.PRK_DIE_pneed (unit - 4)) (pNeed provedView x (unit - 4))) :
    liftUnit unit u = dieFree (unit - 4) (clearParent (R.FENCE_STAT_region (2 * (unit - 4)))
      (clearParent (R.FENCE_STAT_region (2 * (unit - 4) + 1)) y)) := by
  have fld : fenceFld unit = R.FENCE_STAT_die (unit - 4) := (if_neg (Nat.not_lt.mpr upper)).trans (if_pos die)
  rw [judged, lifted, liftUnit, if_neg (Nat.not_lt.mpr upper), if_pos die, fld]

end fences

/-- Settles O44: supply events by their level, fence commands by their reason and the unit they name. -/
theorem suppliesAndFences : Obligations.SuppliesAndFences := by
  unfold Obligations.SuppliesAndFences
  refine ⟨?warnPauses, ?warn, ?warnNot, ?clear, ?clearStill, ?clearResumes, ?clearNot, ?sample, ?sampleNot, ?fenceRegion,
    ?fenceDie, ?fencePkg, ?fenceRefused, ?liftRegion, ?liftDie, ?liftPkg, ?liftRefused⟩
  case warnPauses =>
    intro s rail mv ns t u warned limited there below long clear running pauses
    rw [exec_supplyWarnSet_warns there warned limited below long clear running, postPause, if_pos pauses]
  case warn =>
    intro s rail mv ns t u warned limited there below long clear running runs
    rw [exec_supplyWarnSet_warns there warned limited below long clear running, postPause,
      if_neg (ne_true_of_eq_false runs)]
  case warnNot =>
    exact fun s rail mv ns there spared => (onUnit_of_present (decide_eq_true there)).trans (congrArg _ (if_pos spared))
  case clear =>
    intro s rail mv ns t cleared there above long warns runs
    rw [exec_supplyWarnClear_clears there cleared above long warns, postResume_eq, runs]
  case clearStill =>
    intro s rail mv ns t n cleared there above long warns paused still
    rw [exec_supplyWarnClear_clears there cleared above long warns, postResume_eq, paused]
    exact congrArg (fun x => Host.Outcome.next (suspectSlices x)) (if_pos still)
  case clearResumes =>
    intro s rail mv ns t n cleared there above long warns paused last
    rw [exec_supplyWarnClear_clears there cleared above long warns, postResume_eq, paused]
    exact congrArg (fun x => Host.Outcome.next (suspectSlices x)) (if_neg (ne_true_of_eq_false last))
  case clearNot =>
    exact fun s rail mv ns there spared =>
      (onUnit_of_present (decide_eq_true there)).trans (congrArg _ (if_neg (ne_true_of_eq_false spared)))
  case sample => exact fun s vals running => congrArg Host.Outcome.next (if_neg running)
  case sampleNot => exact fun s vals held => congrArg Host.Outcome.next (if_pos held)
  case fenceRegion =>
    intro s unit t u v stored cleared answers fenced none region
    rw [exec_fenceCmdFence_open answers stored, fenceCmd_fence cleared none, if_pos region, fenced]
    rfl
  case fenceDie =>
    intro s unit t u v w stored cleared answers fenced parents none upper die
    rw [exec_fenceCmdFence_open answers stored, fenceCmd_fence cleared none, if_neg (Nat.not_lt.mpr upper), if_pos die,
      parents, fenced]
    rfl
  case fencePkg =>
    intro s unit t u v w stored cleared answers fenced parents none pkg
    rw [exec_fenceCmdFence_open answers stored, fenceCmd_fence cleared none,
      if_neg (Nat.not_lt.mpr (Nat.le_trans (by decide) pkg)), if_neg (Nat.not_lt.mpr pkg), parents, fenced]
    rfl
  case fenceRefused =>
    intro s unit t stored answers against
    rw [exec_fenceCmdFence_open answers stored, fenceCmd_refused against]
  case liftRegion =>
    intro s unit t u v w stored cleared answers lifted trained none region
    rw [exec_fenceCmdLift_open answers stored, fenceCmd_lift cleared none, liftUnit_region region, ← lifted, trained]
    rfl
  case liftDie =>
    intro s unit t u x y v w stored cleared answers lifted judged freed trained none upper die
    rw [exec_fenceCmdLift_open answers stored, fenceCmd_lift cleared none, liftUnit_die upper die lifted judged, ← freed,
      trained]
    rfl
  case liftPkg =>
    intro s unit t u v w stored cleared answers lifted trained none pkg
    rw [exec_fenceCmdLift_open answers stored, fenceCmd_lift cleared none, pkg, ← lifted, trained]
    rfl
  case liftRefused =>
    intro s unit t stored answers against
    rw [exec_fenceCmdLift_open answers stored, fenceCmd_refused against]

end Sys2Proof.Machine

end

section
/-!
The timers of a ring node and the head's commands (R447-R452).
-/

namespace Sys2Proof.Machine

/-! ## Enumeration (R449) -/

section enumeration

variable {t u v w : State} {outs : List Nat}

theorem enumEnd_eq {dup : Nat} (marked : dup = b2n (t.rd R.PCT_STAT_dup ≠ 0))
    (over_ : v = { t with ring := { t.ring with enumAt := none, enumOut := [], enumBack := [] } })
    (done : w = (v.broadcast 0x0C [0, dup]).wr R.PCT_CMD_busy 0) :
    enumEnd t = (requeueDelivered (posSync (w.wr R.PCT_STAT_enum_done 1))).raise 295 := by
  rw [done, over_, marked]
  rfl

theorem enumStart_eq (ups : outs = [0, 1].filter (outUp t))
    (forgotten : u = (List.range 8).foldl (fun s i => (s.setRingPos 0 i 15).setRingPos 1 i 15)
      (((t.bump R.PCT_CNT_enums).wr R.PCT_STAT_present 1).wr R.PCT_STAT_dup 0))
    (begun : v = ({ u with ring := { u.ring with enumAt := some u.clock, enumOut := outs, enumBack := [] } } : State).wr
      R.PCT_CMD_busy 1)
    (sent : w = outs.foldl (fun s r => s.sendOn r (ringBytes 0x02 (ownId s) (ownId s) [0, 0])) v) :
    enumStart t = if outs = [] then enumEnd w else w := by
  rw [sent, begun, forgotten, ups]
  rfl

end enumeration

/-! ## PCT_CMD (R449, R451, R464) -/

section commands

variable {s t u : State} {op n : Nat} {act : State → State}

theorem pctCmd_elsewhere (idle : (s.wr R.PCT_CMD_op op).on R.PCT_CMD_busy = false)
    (elsewhere : isHead (s.wr R.PCT_CMD_op op) = false) :
    pctCmd op act s = (s.wr R.PCT_CMD_op op).wr R.PCT_CMD_refused 1 :=
  (if_neg (ne_true_of_eq_false idle)).trans (if_pos (by rw [elsewhere]; rfl))

theorem pctCmd_head (idle : (s.wr R.PCT_CMD_op op).on R.PCT_CMD_busy = false) (head : isHead (s.wr R.PCT_CMD_op op) = true) :
    pctCmd op act s = act ((s.wr R.PCT_CMD_op op).wr R.PCT_CMD_refused 0).freshOut :=
  (if_neg (ne_true_of_eq_false idle)).trans (if_neg (by simp [head]))

theorem sendGo_eq (moment : n = (t.fab + 1000 * max (t.rd R.PCT_CFG_go_lead) 10 + 999) / 1000 * 1000)
    (recorded : u = (t.broadcast 5 (beBytes 8 n)).putLive R.PCT_GO_LO_t_go (n % 2 ^ 64)) :
    sendGo t = if goWaiting u ≠ [] && n ≤ u.fab then detectAll (u.wr R.PCT_STAT_late 1) else u := by
  rw [recorded, moment]
  rfl

end commands

/-! ## The node's timers (R447, R450, R452) -/

section timers

variable {s t u : State} {d : Nat}

theorem exec_hopBroken_silent (ring : d < 2) (runs : ringRuns s = true) (running : mgmtHeld s = false)
    (up : hopState s d = hopUp) (silent : (s.hop d).heardAt + 10000 ≤ s.clock)
    (forgotten : t = s.freshOut.putHop d { s.hop d with trains := 0 })
    (broken : u = (setHopState d hopBroken t).setInput (286 + d) true) :
    exec (.hopBroken d) s = .next (sendBreak d u) := by
  rw [broken, forgotten]
  exact (onRing_of_mgmt_running ring running).trans (congrArg _ (if_pos (by
    rw [runs, decide_eq_true up, decide_eq_true silent]; rfl)))

end timers

/-- Settles O48: each timer and command of the node by its conditions. -/
theorem ringTimers : Obligations.RingTimers := by
  unfold Obligations.RingTimers
  refine ⟨?train, ?broken, ?enumOver, ?timeSend, ?timeLoss, ?enumerate, ?enumRefused, ?go, ?goRefused, ?goAuto, ?timeout,
    ?timeoutNot⟩
  case train => exact fun s runs => congrArg Host.Outcome.next (if_pos runs)
  case broken =>
    intro s d t u forgotten broken ring runs running up silent
    rw [exec_hopBroken_silent ring runs running up silent forgotten broken]
    rfl
  case enumOver =>
    intro s t dup v w fresh marked ended done runs late
    rw [← enumEnd_eq marked ended done, fresh]
    exact congrArg Host.Outcome.next (if_pos (by rw [runs, late]; rfl))
  case timeSend =>
    exact fun s runs head => congrArg Host.Outcome.next (if_pos (by rw [runs, head]; rfl))
  case timeLoss =>
    exact fun s runs elsewhere late => congrArg Host.Outcome.next (if_pos (by
      rw [runs, elsewhere, decide_eq_true late]; rfl))
  case enumerate =>
    intro s t outs u v w fresh ups forgotten begun sent answers idle head
    rw [← enumStart_eq ups forgotten begun sent, fresh]
    exact congrArg Host.Outcome.next ((ifOpen_open answers).trans (pctCmd_head idle head))
  case enumRefused =>
    intro s answers idle elsewhere
    exact congrArg Host.Outcome.next ((ifOpen_open answers).trans (pctCmd_elsewhere idle elsewhere))
  case go =>
    intro s t n u fresh moment recorded answers idle head
    rw [← sendGo_eq moment recorded, fresh]
    exact congrArg Host.Outcome.next ((ifOpen_open answers).trans (pctCmd_head idle head))
  case goRefused =>
    intro s answers idle elsewhere
    exact congrArg Host.Outcome.next ((ifOpen_open answers).trans (pctCmd_elsewhere idle elsewhere))
  case goAuto =>
    intro s t n u fresh moment recorded runs head blind done calm distinct ready
    rw [← sendGo_eq moment recorded, fresh]
    exact congrArg Host.Outcome.next (if_pos (by
      rw [runs, head, blind, done, calm, decide_eq_true distinct, ready]; rfl))
  case timeout =>
    intro s tag p r waits late
    change execRemoteTimeout tag s = _
    simp only [execRemoteTimeout, waits, if_pos late]
  case timeoutNot =>
    intro s tag none
    change execRemoteTimeout tag s = _
    simp only [execRemoteTimeout, none]

end Sys2Proof.Machine

end

section
/-!
A ring message that arrives intact acts on the package it is for (R445-R453).
-/

namespace Sys2Proof.Machine

/-! ## What an intact message reaches (R446, R448) -/

section taken

variable {s t u : State} {d type : Nat} {msg : RingMsg} {x : Msg} {act : Msg → State → State}

/-- An intact message of the command's type, at an input that has joined its ring. -/
theorem onRing_arrive_acts (counted : u = hopBad d msg s.freshOut) (heard : t = hopHeard d u) (ring : d < 2)
    (runs : ringRuns s = true) (running : mgmtHeld s = false) (locked : hopLocked s d = true)
    (intact : intactMsg msg = some x) (typed : x.type = type) (straight : hopState u d ≠ hopCrossed) :
    onRing d s (arrive type d msg act s) = .next (act x t) := by
  rw [heard, counted] at *
  rw [onRing_of_mgmt_running ring running, arrive_intact runs locked intact typed straight]

/-- A TRAIN counts at a crossed input too (log 215). -/
theorem onRing_arrive_train (counted : u = hopBad d msg s.freshOut) (heard : t = hopHeard d u) (ring : d < 2)
    (runs : ringRuns s = true) (running : mgmtHeld s = false) (locked : hopLocked s d = true)
    (intact : intactMsg msg = some x) (typed : x.type = 1) :
    onRing d s (arrive 1 d msg act s) = .next (act x t) := by
  have open' : hopLocked s.freshOut d = true := locked
  rw [onRing_of_mgmt_running ring running, heard, counted]
  simp only [arrive, runs, open', intact, typed, Bool.not_true, Bool.false_eq_true, if_false, ne_eq, not_true_eq_false,
    decide_false, Bool.and_false, Bool.or_self]

end taken

section routes

variable {d : Nat} {x : Msg} {s : State} {consume : Msg → State → State} {atSource : State → State}
  {act : Msg → State → State × List Nat}

theorem routed_consumes (here : x.dest = ownId s) : routed d consume x s = consume x s := if_pos here

theorem around_returned (own : x.src = ownId s) : around d atSource act x s = atSource s := if_pos own

theorem around_goes_on (foreign : x.src ≠ ownId s) (elsewhere : x.dest ≠ ownId s) :
    around d atSource act x s = (act x s).1.sendOn d (ringBytes x.type x.dest x.src (act x s).2) :=
  (if_neg foreign).trans (if_neg elsewhere)

theorem around_ends (foreign : x.src ≠ ownId s) (here : x.dest = ownId s) :
    around d atSource act x s = (act x s).1 :=
  (if_neg foreign).trans (if_pos here)

end routes

/-! ## TRAIN (R398, R447) -/

section train

variable {d n : Nat} {x : Msg} {t v w y z : State}

/-- What every TRAIN does first: its tag and time are kept, and its echo is measured. -/
theorem trainArrives_eq (tagged : v = t.putHop d { t.hop d with rxTag := x.body.getD 2 0, rxAt := some t.clock })
    (measured : w = hopDelay d (x.body.getD 3 0) (beNat (x.body.drop 4)) v) :
    trainArrives d x t = if x.body.getD 0 0 = d then trainGood d w else trainCrossed d w := by
  rw [measured, tagged]
  rfl

theorem trainGood_up (count : n = min ((w.hop d).trains + 1) 8)
    (up : z = (setHopState d hopUp (w.putHop d { w.hop d with trains := n, everUp := true })).setInput (286 + d) false)
    (eighth : (hopState w d ≠ hopUp && n = 8) = true) : trainGood d w = sendBreak d z := by
  rw [up, count]
  exact if_pos (count ▸ eighth)

theorem trainGood_counts (count : n = min ((w.hop d).trains + 1) 8)
    (spared : (hopState w d ≠ hopUp && n = 8) = false) :
    trainGood d w = w.putHop d { w.hop d with trains := n } := by
  rw [count]
  exact if_neg (ne_true_of_eq_false (count ▸ spared))

theorem trainCrossed_again (none : y = w.putHop d { w.hop d with trains := 0 }) (crossed : hopState y d = hopCrossed) :
    trainCrossed d w = y := by
  rw [none] at crossed ⊢
  exact if_pos crossed

theorem trainCrossed_new (none : y = w.putHop d { w.hop d with trains := 0 }) (straight : hopState y d ≠ hopCrossed)
    (crossed : z = wireFault 8 0 d ((setHopState d hopCrossed y).setInput (286 + d) true)) :
    trainCrossed d w = if hopState y d = hopUp then sendBreak d z else z := by
  rw [none] at straight crossed ⊢
  rw [crossed]
  exact if_neg straight

end train

/-! ## ENUM and PRESENT (R449) -/

section enumeration

variable {d p : Nat} {x : Msg} {t v w y : State} {b : List Nat}

theorem enumArrives_eq (placed : v = t.setRingPos d (ownId t) (min (x.body.getD 0 0 + 1) 15))
    (reached : w = ({ v with ring := { v.ring with reached := (v.ring.reached.filter (· ≠ d)) ++ [d] } } : State))
    (present : y = w.sendOn (1 - d) (ringBytes 3 0 (ownId w)
      ([d, min (x.body.getD 0 0 + 1) 15] ++ beBytes 2 (partCode w)))) :
    enumArrives d x t = (y, [min (x.body.getD 0 0 + 1) 15, 0]) := by
  rw [present, reached, placed]
  rfl

theorem enumReturned_idle (idle : t.ring.enumAt.isNone = true) : enumReturned d t = t := if_pos idle

theorem enumReturned_eq (back : b = t.ring.enumBack.filter (fun r => r ≠ d) ++ [d])
    (noted : v = ({ t with ring := { t.ring with enumBack := b } } : State)) (asked : t.ring.enumAt.isNone = false) :
    enumReturned d t = if v.ring.enumOut.all b.contains then enumEnd v else v := by
  rw [noted, back]
  exact if_neg (ne_true_of_eq_false asked)

/-- A PRESENT on one of the two rings marks its package present and keeps its part; what else it does turns on the duplicate
bit and the position known before. -/
theorem presentArrives_eq (pos : p = x.body.getD 1 0)
    (marked : v = t.wr R.PCT_STAT_present (t.rd R.PCT_STAT_present ||| 2 ^ x.src))
    (parted : w = ({ v with ring := { v.ring with
      parts := (x.src, beNat (x.body.drop 2)) :: v.ring.parts.filter fun p => p.1 ≠ x.src } } : State))
    (ring : x.body.getD 0 0 < 2) :
    presentArrives x t =
      if bit (w.rd R.PCT_STAT_dup) x.src then w
      else if ringPos t (x.body.getD 0 0) x.src ≠ 15 && ringPos t (x.body.getD 0 0) x.src ≠ p then
        ((w.wr R.PCT_STAT_dup (w.rd R.PCT_STAT_dup ||| 2 ^ x.src)).setRingPos 0 x.src 15).setRingPos 1 x.src 15
      else w.setRingPos (x.body.getD 0 0) x.src (min p 15) := by
  rw [parted, marked, pos]
  exact if_neg (Nat.not_le.mpr ring)

end enumeration

/-! ## TIME and GO (R450, R451) -/

section time

variable {d n a i : Nat} {x : Msg} {t v w z : State}

theorem takeTime_eq : takeTime n t =
    if t.fab ≤ n then { t with fab := n, ring := { t.ring with hold := 0 } }
    else { t with ring := { t.ring with hold := t.fab - n } } := rfl

/-- A TIME from the ring of the time is taken and goes on with the delays of hop and package. -/
theorem timeArrives_taken (time : n = beNat (x.body.take 8)) (delay : a = beNat (x.body.drop 8))
    (corrected : z = takeTime (n + a + inHop t d) t) (taken : v = timeTaken (z.wr R.PCT_STAT_time_ok 1))
    (drawn : v.draw = (i, w)) (source : timeRing t = some d) :
    timeArrives d x t =
      (w, beBytes 8 n ++ beBytes 2 (min (a + inHop v d + Config.freeValue i % 201) 65535)) := by
  rw [corrected] at taken
  rw [time, delay] at *
  simp only [timeArrives, source, if_true, ← taken, forwardDelay, drawn]

/-- One from the other ring goes on, too, and is not taken. -/
theorem timeArrives_passed (time : n = beNat (x.body.take 8)) (delay : a = beNat (x.body.drop 8))
    (drawn : t.draw = (i, w)) (other : timeRing t ≠ some d) :
    timeArrives d x t =
      (w, beBytes 8 n ++ beBytes 2 (min (a + inHop t d + Config.freeValue i % 201) 65535)) := by
  simp only [timeArrives, if_neg other, forwardDelay, drawn, time, delay]

theorem takeGo_eq (recorded : v = t.putLive R.PCT_GO_LO_t_go (n % 2 ^ 64)) :
    takeGo n t = if goWaiting v ≠ [] && n ≤ v.fab then detectAll (v.wr R.PCT_STAT_late 1) else v := by
  rw [recorded]
  rfl

end time

/-! ## REQ and RSP (R438, R452) -/

section requests

variable {d tag op ad da i p : Nat} {x : Msg} {t v y : State} {r z : Remote} {q : Remote × State}

theorem freeWords_one (drawn : t.draw = (i, v)) : freeWords 1 t = ([Config.freeValue i % 2 ^ 32], v) := by
  simp only [freeWords, drawn]

/-- The answer to a REQ that reads nothing: a status with a free word. -/
theorem sendRsp_free (drawn : t.draw = (i, v)) (status : Nat) :
    sendRsp d tag status ((freeWords 1 t).1.headD 0) (freeWords 1 t).2 =
      v.sendOn (1 - d) (ringBytes 7 0 (ownId v) ([tag, status] ++ beBytes 4 (Config.freeValue i % 2 ^ 32))) := by
  rw [freeWords_one drawn]
  rfl

/-- A REQ by the parts of its body. -/
theorem reqArrives_eq (tag' : tag = x.body.getD 0 0) (op' : op = x.body.getD 1 0)
    (addr : ad = beNat ((x.body.drop 2).take 3)) (data : da = beNat (x.body.drop 5)) :
    reqArrives d x t =
      if x.src ≠ 0 || 2 ≤ op then t
      else if badRange ad 1 then sendRsp d tag stRange ((freeWords 1 t).1.headD 0) (freeWords 1 t).2
      else if op = 1 && goIgnored t ad then sendRsp d tag stOk ((freeWords 1 t).1.headD 0) (freeWords 1 t).2
      else if mustWait t 2 ad then
        holdAccess { port := 2, write := op = 1, addr := ad, words := [da], tag := tag, ring := d } t
      else ringAccess d tag (op = 1) ad da t := by
  rw [tag', op', addr, data]
  rfl

/-- The head's REQ of a known op. -/
theorem reqArrives_head (tag' : tag = x.body.getD 0 0) (op' : op = x.body.getD 1 0)
    (addr : ad = beNat ((x.body.drop 2).take 3)) (data : da = beNat (x.body.drop 5)) (head : x.src = 0) (known : op < 2) :
    reqArrives d x t =
      if badRange ad 1 then sendRsp d tag stRange ((freeWords 1 t).1.headD 0) (freeWords 1 t).2
      else if op = 1 && goIgnored t ad then sendRsp d tag stOk ((freeWords 1 t).1.headD 0) (freeWords 1 t).2
      else if mustWait t 2 ad then
        holdAccess { port := 2, write := op = 1, addr := ad, words := [da], tag := tag, ring := d } t
      else ringAccess d tag (op = 1) ad da t :=
  (reqArrives_eq tag' op' addr data).trans (if_neg (by simp [head, known]))

theorem ringAccess_write (written : y = hostWrite ad da t) (drawn : y.draw = (i, v)) :
    ringAccess d tag true ad da t =
      v.sendOn (1 - d) (ringBytes 7 0 (ownId v) ([tag, stOk] ++ beBytes 4 (Config.freeValue i % 2 ^ 32))) := by
  rw [written] at drawn
  exact sendRsp_free drawn stOk

theorem rspArrives_stray (unknown : portOfTag t (x.body.getD 0 0) = none) : rspArrives x t = t := by
  simp only [rspArrives, unknown]

theorem rspArrives_eq (waits : portOfTag t (x.body.getD 0 0) = some (p, r))
    (answered : z = ({ r with got := r.got ++ [beNat (x.body.drop 2)], left := r.left.drop 1, addr := r.addr + 4,
                              status := firstBad r.status (x.body.getD 1 0) } : Remote)) :
    rspArrives x t =
      if z.left = [] then remoteEnd p z z.status t
      else (sendReq z t).2.putPort p { (sendReq z t).2.port p with remote := some (sendReq z t).1 } := by
  simp only [rspArrives, waits, answered]

end requests

/-! ## DELIVER and COMPLETE (R430, R453) -/

section deliveries

variable {x : Msg} {t : State}

theorem deliverArrives_elsewhere (elsewhere : isHead t = false) : deliverArrives x t = t :=
  if_pos (by rw [elsewhere]; rfl)

theorem deliverArrives_watch (head : isHead t = true) (watch : t.dev.phase = .watch) :
    deliverArrives x t = { t with ring := { t.ring with inWatch := t.ring.inWatch ++ [(x.src, x.body)] } } :=
  (if_neg (by rw [head]; decide)).trans (if_pos watch)

theorem deliverArrives_enters (head : isHead t = true) (awake : t.dev.phase ≠ .watch) :
    deliverArrives x t =
      enterDeliver (beNat (x.body.take 2) % 1024) (x.body.getD 2 0) x.src (32768 ≤ beNat (x.body.take 2)) t :=
  (if_neg (by rw [head]; decide)).trans (if_neg awake)

end deliveries

/-- Settles O46: each clause is `onRing_arrive_acts` (for a TRAIN `onRing_arrive_train`), the way of the message, and what
its type does. -/
theorem ringMessagesArrive : Obligations.RingMessagesArrive := by
  unfold Obligations.RingMessagesArrive
  refine ⟨?trainUp, ?trainCounts, ?trainCrossedAgain, ?trainCrossedUp, ?trainCrossedNew, ?enumOn, ?enumHere, ?enumIdle,
    ?enumEnds, ?enumWaits, ?presentDup, ?presentSecond, ?presentNew, ?presentIgnored, ?doneOn, ?doneHere, ?doneOwn,
    ?breakHead, ?breakElsewhere, ?timeTaken, ?timePassed, ?timeOwn, ?goOn, ?goHere, ?goOwn, ?readyHead, ?readyElsewhere,
    ?reqIgnored, ?reqRange, ?reqReset, ?reqWaits, ?reqWrites, ?reqReads, ?rspStray, ?rspEnds, ?rspNext,
    ?deliverElsewhere, ?deliverWatch, ?deliverKnown, ?deliverNew, ?complete, ?completeNone⟩
  case trainUp =>
    intro s d msg x t u n v w z counted heard ring runs running locked intact typed tagged measured count named up eighth
    refine (onRing_arrive_train counted heard ring runs running locked intact typed).trans (congrArg _ ?_)
    rw [trainArrives_eq tagged measured, if_pos named, trainGood_up count up eighth]
    rfl
  case trainCounts =>
    intro s d msg x t u n v w counted heard ring runs running locked intact typed tagged measured count named spared
    refine (onRing_arrive_train counted heard ring runs running locked intact typed).trans (congrArg _ ?_)
    rw [trainArrives_eq tagged measured, if_pos named, trainGood_counts count spared]
  case trainCrossedAgain =>
    intro s d msg x t u v w y counted heard ring runs running locked intact typed tagged measured none other crossed
    refine (onRing_arrive_train counted heard ring runs running locked intact typed).trans (congrArg _ ?_)
    rw [trainArrives_eq tagged measured, if_neg other, trainCrossed_again none crossed]
  case trainCrossedUp =>
    intro s d msg x t u v w y z counted heard ring runs running locked intact typed tagged measured none other crossed up
    have straight : hopState y d ≠ hopCrossed := by rw [up]; decide
    refine (onRing_arrive_train counted heard ring runs running locked intact typed).trans (congrArg _ ?_)
    rw [trainArrives_eq tagged measured, if_neg other, trainCrossed_new none straight crossed,
      if_pos up]
    rfl
  case trainCrossedNew =>
    intro s d msg x t u v w y counted heard ring runs running locked intact typed tagged measured none other straight down
    refine (onRing_arrive_train counted heard ring runs running locked intact typed).trans (congrArg _ ?_)
    rw [trainArrives_eq tagged measured, if_neg other, trainCrossed_new none straight rfl,
      if_neg down]
  case enumOn =>
    intro s d msg x t u v w y counted heard ring runs running locked intact typed straight placed reached present foreign
      elsewhere
    refine (onRing_arrive_acts counted heard ring runs running locked intact typed straight).trans (congrArg _ ?_)
    rw [around_goes_on foreign elsewhere, enumArrives_eq placed reached present]
  case enumHere =>
    intro s d msg x t u v w y counted heard ring runs running locked intact typed straight placed reached present foreign
      here
    refine (onRing_arrive_acts counted heard ring runs running locked intact typed straight).trans (congrArg _ ?_)
    rw [around_ends foreign here, enumArrives_eq placed reached present]
  case enumIdle =>
    intro s d msg x t u counted heard ring runs running locked intact typed straight own idle
    refine (onRing_arrive_acts counted heard ring runs running locked intact typed straight).trans (congrArg _ ?_)
    rw [around_returned own, enumReturned_idle idle]
  case enumEnds =>
    intro s d msg x t u b v counted heard ring runs running locked intact typed straight back noted own asked last
    refine (onRing_arrive_acts counted heard ring runs running locked intact typed straight).trans (congrArg _ ?_)
    rw [around_returned own, enumReturned_eq back noted asked, if_pos last]
  case enumWaits =>
    intro s d msg x t u b v counted heard ring runs running locked intact typed straight back noted own asked more
    refine (onRing_arrive_acts counted heard ring runs running locked intact typed straight).trans (congrArg _ ?_)
    rw [around_returned own, enumReturned_eq back noted asked, if_neg (ne_true_of_eq_false more)]
  case presentDup =>
    intro s d msg x t u p v w counted heard ring runs running locked intact typed straight pos marked parted here head
      asked known dup
    refine (onRing_arrive_acts counted heard ring runs running locked intact typed straight).trans (congrArg _ ?_)
    rw [routed_consumes here, head, asked, Bool.and_self, if_pos rfl, presentArrives_eq pos marked parted known,
      if_pos dup]
  case presentSecond =>
    intro s d msg x t u p v w counted heard ring runs running locked intact typed straight pos marked parted here head
      asked known single differs
    refine (onRing_arrive_acts counted heard ring runs running locked intact typed straight).trans (congrArg _ ?_)
    rw [routed_consumes here, head, asked, Bool.and_self, if_pos rfl, presentArrives_eq pos marked parted known,
      if_neg (ne_true_of_eq_false single), if_pos differs]
  case presentNew =>
    intro s d msg x t u p v w counted heard ring runs running locked intact typed straight pos marked parted here head
      asked known single agrees
    refine (onRing_arrive_acts counted heard ring runs running locked intact typed straight).trans (congrArg _ ?_)
    rw [routed_consumes here, head, asked, Bool.and_self, if_pos rfl, presentArrives_eq pos marked parted known,
      if_neg (ne_true_of_eq_false single), if_neg (ne_true_of_eq_false agrees)]
  case presentIgnored =>
    intro s d msg x t u counted heard ring runs running locked intact typed straight here spared
    refine (onRing_arrive_acts counted heard ring runs running locked intact typed straight).trans (congrArg _ ?_)
    rw [routed_consumes here, if_neg (ne_true_of_eq_false spared)]
  case doneOn =>
    intro s d msg x t u v counted heard ring runs running locked intact typed straight done foreign elsewhere
    refine (onRing_arrive_acts counted heard ring runs running locked intact typed straight).trans (congrArg _ ?_)
    rw [around_goes_on foreign elsewhere, done]
    rfl
  case doneHere =>
    intro s d msg x t u v counted heard ring runs running locked intact typed straight done foreign here
    refine (onRing_arrive_acts counted heard ring runs running locked intact typed straight).trans (congrArg _ ?_)
    rw [around_ends foreign here, done]
    rfl
  case doneOwn | timeOwn | goOwn =>
    intro s d msg x t u counted heard ring runs running locked intact typed straight own
    refine (onRing_arrive_acts counted heard ring runs running locked intact typed straight).trans (congrArg _ ?_)
    exact around_returned own
  case breakHead | readyHead =>
    intro s d msg x t u counted heard ring runs running locked intact typed straight here head
    refine (onRing_arrive_acts counted heard ring runs running locked intact typed straight).trans (congrArg _ ?_)
    rw [routed_consumes here, if_pos head]
  case breakElsewhere | readyElsewhere =>
    intro s d msg x t u counted heard ring runs running locked intact typed straight here elsewhere
    refine (onRing_arrive_acts counted heard ring runs running locked intact typed straight).trans (congrArg _ ?_)
    rw [routed_consumes here, if_neg (ne_true_of_eq_false elsewhere)]
  case timeTaken =>
    intro s d msg x t u n a z v i w counted heard ring runs running locked intact typed straight time delay corrected
      taken drawn foreign elsewhere source
    refine (onRing_arrive_acts counted heard ring runs running locked intact typed straight).trans (congrArg _ ?_)
    rw [around_goes_on foreign elsewhere,
      timeArrives_taken time delay (corrected.trans takeTime_eq.symm) taken drawn source]
  case timePassed =>
    intro s d msg x t u n a i w counted heard ring runs running locked intact typed straight time delay drawn foreign
      elsewhere other
    refine (onRing_arrive_acts counted heard ring runs running locked intact typed straight).trans (congrArg _ ?_)
    rw [around_goes_on foreign elsewhere, timeArrives_passed time delay drawn other]
  case goOn =>
    intro s d msg x t u v w counted heard ring runs running locked intact typed straight recorded started foreign elsewhere
    refine (onRing_arrive_acts counted heard ring runs running locked intact typed straight).trans (congrArg _ ?_)
    rw [around_goes_on foreign elsewhere, takeGo_eq recorded, started]
  case goHere =>
    intro s d msg x t u v w counted heard ring runs running locked intact typed straight recorded started foreign here
    refine (onRing_arrive_acts counted heard ring runs running locked intact typed straight).trans (congrArg _ ?_)
    rw [around_ends foreign here, takeGo_eq recorded, started]
  case reqIgnored =>
    intro s d msg x t u tag op ad da counted heard ring runs running locked intact typed straight tag' op' addr data here
      ignored
    refine (onRing_arrive_acts counted heard ring runs running locked intact typed straight).trans (congrArg _ ?_)
    rw [routed_consumes here, reqArrives_eq tag' op' addr data, if_pos ignored]
  case reqRange =>
    intro s d msg x t u tag op ad da i v counted heard ring runs running locked intact typed straight tag' op' addr data
      here head known range drawn
    refine (onRing_arrive_acts counted heard ring runs running locked intact typed straight).trans (congrArg _ ?_)
    rw [routed_consumes here, reqArrives_head tag' op' addr data head known, if_pos range, sendRsp_free drawn]
  case reqReset =>
    intro s d msg x t u tag op ad da i v counted heard ring runs running locked intact typed straight tag' op' addr data
      here head known ranged reset drawn
    refine (onRing_arrive_acts counted heard ring runs running locked intact typed straight).trans (congrArg _ ?_)
    rw [routed_consumes here, reqArrives_head tag' op' addr data head known, if_neg (ne_true_of_eq_false ranged),
      if_pos reset, sendRsp_free drawn]
  case reqWaits =>
    intro s d msg x t u tag op ad da counted heard ring runs running locked intact typed straight tag' op' addr data
      here head known ranged taken waits
    refine (onRing_arrive_acts counted heard ring runs running locked intact typed straight).trans (congrArg _ ?_)
    rw [routed_consumes here, reqArrives_head tag' op' addr data head known, if_neg (ne_true_of_eq_false ranged),
      if_neg (ne_true_of_eq_false taken), if_pos waits]
  case reqWrites =>
    intro s d msg x t u tag op ad da y i v counted heard ring runs running locked intact typed straight tag' op' addr data
      here head known ranged write taken free written drawn
    have one : op = 1 := op'.trans write
    refine (onRing_arrive_acts counted heard ring runs running locked intact typed straight).trans (congrArg _ ?_)
    rw [routed_consumes here, reqArrives_head tag' op' addr data head known, if_neg (ne_true_of_eq_false ranged),
      taken, Bool.and_false, if_neg Bool.false_ne_true, if_neg (ne_true_of_eq_false free), decide_eq_true one,
      ringAccess_write written drawn]
  case reqReads =>
    intro s d msg x t u tag op ad da y counted heard ring runs running locked intact typed straight tag' op' addr data
      here head known ranged read free answered
    refine (onRing_arrive_acts counted heard ring runs running locked intact typed straight).trans (congrArg _ ?_)
    rw [routed_consumes here, reqArrives_head tag' op' addr data head known, if_neg (ne_true_of_eq_false ranged),
      decide_eq_false read, Bool.false_and, if_neg Bool.false_ne_true, if_neg (ne_true_of_eq_false free), answered]
    rfl
  case rspStray =>
    intro s d msg x t u counted heard ring runs running locked intact typed straight here unknown
    refine (onRing_arrive_acts counted heard ring runs running locked intact typed straight).trans (congrArg _ ?_)
    rw [routed_consumes here, rspArrives_stray unknown]
  case rspEnds =>
    intro s d msg x t u p r z counted heard ring runs running locked intact typed straight waits answered here last
    refine (onRing_arrive_acts counted heard ring runs running locked intact typed straight).trans (congrArg _ ?_)
    rw [routed_consumes here, rspArrives_eq waits answered, if_pos last]
  case rspNext =>
    intro s d msg x t u p r z q counted heard ring runs running locked intact typed straight waits answered here more asked
    refine (onRing_arrive_acts counted heard ring runs running locked intact typed straight).trans (congrArg _ ?_)
    rw [routed_consumes here, rspArrives_eq waits answered, if_neg more, asked]
  case deliverElsewhere =>
    intro s d msg x t u counted heard ring runs running locked intact typed straight here elsewhere
    refine (onRing_arrive_acts counted heard ring runs running locked intact typed straight).trans (congrArg _ ?_)
    rw [routed_consumes here, deliverArrives_elsewhere elsewhere]
  case deliverWatch =>
    intro s d msg x t u counted heard ring runs running locked intact typed straight here head watch
    refine (onRing_arrive_acts counted heard ring runs running locked intact typed straight).trans (congrArg _ ?_)
    rw [routed_consumes here, deliverArrives_watch head watch]
  case deliverKnown =>
    intro s d msg x t u counted heard ring runs running locked intact typed straight here head awake known
    refine (onRing_arrive_acts counted heard ring runs running locked intact typed straight).trans (congrArg _ ?_)
    rw [routed_consumes here, deliverArrives_enters head awake]
    exact if_pos known
  case deliverNew =>
    intro s d msg x t u counted heard ring runs running locked intact typed straight here head awake fresh
    refine (onRing_arrive_acts counted heard ring runs running locked intact typed straight).trans (congrArg _ ?_)
    rw [routed_consumes here, deliverArrives_enters head awake]
    exact if_neg (ne_true_of_eq_false fresh)
  case complete =>
    intro s d msg x t u counted heard ring runs running locked intact typed straight here there
    refine (onRing_arrive_acts counted heard ring runs running locked intact typed straight).trans (congrArg _ ?_)
    rw [routed_consumes here]
    exact if_pos there
  case completeNone =>
    intro s d msg x t u counted heard ring runs running locked intact typed straight here absent
    refine (onRing_arrive_acts counted heard ring runs running locked intact typed straight).trans (congrArg _ ?_)
    rw [routed_consumes here]
    exact if_neg (ne_true_of_eq_false absent)

end Sys2Proof.Machine
end

section
/-!
Accesses without a frame, and soft resets (R345, R438, R478, R482).
-/

namespace Sys2Proof.Machine

section accesses

variable {s : State} {addr v : Nat}

theorem exec_loReadLatch_in_range (ranged : badRange addr 1 = false) :
    exec (.loReadLatch addr) s = .next (if mustWait s 4 addr then holdAccess { port := 4, addr := addr } s
      else (hostRead addr s).2.answerWord (hostRead addr s).1) :=
  congrArg Host.Outcome.next (if_neg (ne_true_of_eq_false ranged))

theorem exec_registerWrite_taken (ranged : badRange addr 1 = false) (taken : goIgnored s addr = false) :
    exec (.registerWrite addr v) s = .next (if mustWait s 4 addr
      then holdAccess { port := 4, write := true, addr := addr, words := [v] } s else hostWrite addr v s) :=
  congrArg Host.Outcome.next (if_neg (by rw [ranged, taken]; decide))

end accesses

/-- The end of a soft reset: the effects of the page, busy, then the accesses that waited, taken out of the list first. -/
theorem exec_softResetDone_busy {s t u : State} {page : Nat}
    (effects : t = (softEffects page s.freshOut).wr (R.SOFT_RESET_busy page) 0)
    (emptied : u = ({ t with host := { t.host with heldAcc := [] } } : State))
    (busy : s.on (R.SOFT_RESET_busy page) = true) :
    exec (.softResetDone page) s = .next (t.host.heldAcc.foldl runAccess u) := by
  rw [emptied, effects]
  exact congrArg Host.Outcome.next (if_pos busy)

/-- Settles O51, clause by clause from the guards of the three commands. -/
theorem registerAccesses : Obligations.RegisterAccesses := by
  unfold Obligations.RegisterAccesses
  refine ⟨?readRange, ?readNow, ?readWaits, ?writeNone, ?writeNow, ?writeWaits, ?resetStarts, ?resetBusy, ?resetEnds,
    ?resetNone⟩
  case readRange => exact fun s addr range => congrArg Host.Outcome.next (if_pos range)
  case readNow =>
    intro s addr r answered ranged free
    rw [exec_loReadLatch_in_range ranged, if_neg (ne_true_of_eq_false free), answered]
  case readWaits =>
    intro s addr ranged waits
    rw [exec_loReadLatch_in_range ranged, if_pos waits]
    rfl
  case writeNone => exact fun s addr v none => congrArg Host.Outcome.next (if_pos none)
  case writeNow =>
    intro s addr v ranged taken free
    rw [exec_registerWrite_taken ranged taken, if_neg (ne_true_of_eq_false free)]
  case writeWaits =>
    intro s addr v ranged taken waits
    rw [exec_registerWrite_taken ranged taken, if_pos waits]
    rfl
  case resetStarts =>
    exact fun s page answers idle =>
      congrArg Host.Outcome.next ((ifOpen_open answers).trans (if_neg (ne_true_of_eq_false idle)))
  case resetBusy =>
    exact fun s page answers busy => congrArg Host.Outcome.next ((ifOpen_open answers).trans (if_pos busy))
  case resetEnds => exact fun s page t u effects emptied busy => exec_softResetDone_busy effects emptied busy
  case resetNone => exact fun s page idle => congrArg Host.Outcome.next (if_neg (ne_true_of_eq_false idle))

end Sys2Proof.Machine
end

section
/-!
Keys and reports (R455-R464).
-/

namespace Sys2Proof.Machine

/-- What an accepted KEY_CMD does to its slot, by op. -/
def keyEffect (op slot : Nat) (s : State) : State :=
  match op with
  | 0 => setSession slot (some (keyBytes s 12)) s
  | 1 => setSession slot none s
  | 2 => enroll slot s
  | _ => revoke slot s

/-- A KEY_CMD go of a known op that nothing stands against: its fields are stored, refused clears, its effect comes, and
KEY_DATA is cleared last. -/
theorem keyGo_accepted {op slot : Nat} {s : State} (known : op < 4)
    (allowed : keyRefused ((s.wr R.KEY_CMD_op op).wr R.KEY_CMD_slot (slot % 4)) op (slot % 4) = false) :
    keyGo op slot s = clearKeyData (keyEffect op (slot % 4)
      (((s.wr R.KEY_CMD_op op).wr R.KEY_CMD_slot (slot % 4)).wr R.KEY_CMD_refused 0)) := by
  rw [keyGo, if_pos known]
  exact congrArg clearKeyData (if_neg (ne_true_of_eq_false allowed))

/-- Settles O52: the four key commands by `keyGo_accepted`, the reports and the digest by their guards. -/
theorem keysAndReports : Obligations.KeysAndReports := by
  unfold Obligations.KeysAndReports
  refine ⟨?load, ?clear, ?enrol, ?revoke, ?generate, ?generated, ?digest⟩
  case load | clear | enrol | revoke =>
    exact fun s slot answers allowed =>
      congrArg Host.Outcome.next ((ifOpen_open answers).trans (keyGo_accepted (by decide) allowed))
  case generate =>
    exact fun s answers idle usable =>
      congrArg Host.Outcome.next ((ifOpen_open answers).trans (if_neg (by rw [idle, usable]; decide)))
  case generated =>
    exact fun s busy awake => congrArg Host.Outcome.next (if_pos (by rw [busy, Bool.true_and, bne_iff_ne]; exact awake))
  case digest => exact fun s due => congrArg Host.Outcome.next (if_pos due)

end Sys2Proof.Machine
end

section
/-!
Selvedge requests arrive and are served (R454-R456, R460).
-/

namespace Sys2Proof.Machine

/-! ## Arrival (R454, R455) -/

section arrival

variable {s t : State} {k kind : Nat} {sd : Side} {heard : List Heard} {f g : List Nat}

/-- An accepted set of the command's kind, on a span that is UP with the channel enabled and its page open, is checked. -/
theorem selReceive_checks (live : sideLive s k sd = true) (accepted : setArrives readSel k sd heard s = (some f, t))
    (kinded : selKind f = kind) (up : spanUp t k sd = true) (enabled : t.on R.SEL_CFG_en = true)
    (answers : pageOpen t 0xB = true) :
    selReceive kind k sd heard s = selFrame k sd.idx (f.map (· % 256)) t := by
  simp only [selReceive, live, accepted, kinded, up, enabled, answers, Bool.not_true, Bool.false_eq_true, if_false,
    ne_eq, not_true_eq_false, decide_false, Bool.false_and, Bool.or_self]

/-- The end of the check: a frame that has its kind's shape. -/
theorem selFrame_shaped {i : Nat} (shaped : selMalformed g = false) :
    selFrame k i g t =
      if selCause t k i g ≠ 0 then selFail k i (selCause t k i g) (selSlot g) t else selAccept k i g t :=
  if_neg (ne_true_of_eq_false shaped)

/-- The malformed frames and the well-shaped ones of a request command `c` that receives a kind. -/
theorem exec_selRequest {c : Instr}
    (receives : exec c s = onUnit (k < linksOf s) (selReceive kind k sd heard s)) (bytes : g = f.map (· % 256))
    (there : k < linksOf s) (live : sideLive s k sd = true)
    (accepted : setArrives readSel k sd heard s = (some f, t)) (kinded : selKind f = kind)
    (up : spanUp t k sd = true) (enabled : t.on R.SEL_CFG_en = true) (answers : pageOpen t 0xB = true) :
    exec c s = .next (selFrame k sd.idx g t) := by
  rw [receives, onUnit_of_present (decide_eq_true there), selReceive_checks live accepted kinded up enabled answers, bytes]

end arrival

/-! ## Serving (R456, R460, R478) -/

section serving

variable {s : State} {q : SelReq} {rest : List SelReq} {n x : Nat}

theorem exec_serve_read (answers : pageOpen s 0xB = true) (oldest : s.sel.queue = q :: rest)
    (kind : selKind q.frame = 1) :
    exec .selRequestServe s = .next (selServeWords false (selWords q.frame - q.done) q s.freshOut) := by
  refine congrArg Host.Outcome.next ((if_neg (by rw [answers]; decide)).trans ?_)
  rw [oldest]
  simp only [kind]

theorem exec_serve_write (answers : pageOpen s 0xB = true) (oldest : s.sel.queue = q :: rest)
    (kind : selKind q.frame = 2) :
    exec .selRequestServe s = .next (selServeWords true (selWords q.frame - q.done) q s.freshOut) := by
  refine congrArg Host.Outcome.next ((if_neg (by rw [answers]; decide)).trans ?_)
  rw [oldest]
  simp only [kind]

theorem exec_serve_attest (answers : pageOpen s 0xB = true) (oldest : s.sel.queue = q :: rest)
    (kind : selKind q.frame = 3) : exec .selRequestServe s = .next (selServeAttest q s) := by
  refine congrArg Host.Outcome.next ((if_neg (by rw [answers]; decide)).trans ?_)
  rw [oldest]
  simp only [kind]

/-- The next word of a READ or WRITE, at `x`, in range: what R455 and R478 ask of it, in order. -/
theorem selServeWords_in_range {write : Bool} (next : x = selAddr q.frame + 4 * q.done) (ranged : badRange x 1 = false) :
    selServeWords write (n + 1) q s =
      if write && selDenied x then selRespond q stDenied [] s
      else if write && goIgnored s x then selServeWords write n { q with done := q.done + 1 } s
      else if pageSoftBusy s x then selProgress q s
      else if write then
        selServeWords write n { q with done := q.done + 1 }
          (hostWrite x (beNat (((selPayload q.frame).drop (4 + 4 * q.done)).take 4)) s)
      else
        selServeWords write n { q with done := q.done + 1, got := q.got ++ [(hostRead x s).1] } (hostRead x s).2 := by
  rw [next] at ranged ⊢
  exact if_neg (ne_true_of_eq_false ranged)

theorem selServeWords_out_of_range {write : Bool} (next : x = selAddr q.frame + 4 * q.done) (range : badRange x 1 = true) :
    selServeWords write (n + 1) q s = selRespond q stRange [] s := by
  rw [next] at range
  exact if_pos range

/-- A word of a WRITE that the channel may write. -/
theorem selServeWords_write (next : x = selAddr q.frame + 4 * q.done) (ranged : badRange x 1 = false)
    (allowed : selDenied x = false) :
    selServeWords true (n + 1) q s =
      if goIgnored s x then selServeWords true n { q with done := q.done + 1 } s
      else if pageSoftBusy s x then selProgress q s
      else selServeWords true n { q with done := q.done + 1 }
        (hostWrite x (beNat (((selPayload q.frame).drop (4 + 4 * q.done)).take 4)) s) := by
  simp only [selServeWords_in_range next ranged, allowed, Bool.true_and, Bool.false_eq_true, if_false, if_true]

theorem selServeWords_read (next : x = selAddr q.frame + 4 * q.done) (ranged : badRange x 1 = false) :
    selServeWords false (n + 1) q s =
      if pageSoftBusy s x then selProgress q s
      else selServeWords false n { q with done := q.done + 1, got := q.got ++ [(hostRead x s).1] } (hostRead x s).2 := by
  simp only [selServeWords_in_range next ranged, Bool.false_and, Bool.false_eq_true, if_false]

/-- An ATTEST where the fuse key path is free. -/
theorem selServeAttest_unblocked (usable : s.on R.SEC_STAT_fuse_block = false) :
    selServeAttest q s =
      if s.on R.ATT_CMD_busy then s
      else if s.sec.lastNonce = some ((selPayload q.frame).drop 4) then
        selRespond q stOk (exactly 64 (((List.range 76).flatMap fun i => beBytes 4 (s.rd (R.ATT_REPORT_report i))).drop
          (64 * (selPayload q.frame).getD 0 0))) s
      else startReport ((selPayload q.frame).drop 4) s :=
  if_neg (ne_true_of_eq_false usable)

end serving

/-- Settles O53: requests arrive by `exec_selRequest`; words are served by `selServeWords_read` and `selServeWords_write`. -/
theorem selvedgeRequests : Obligations.SelvedgeRequests := by
  unfold Obligations.SelvedgeRequests
  refine ⟨?readBad, ?readShaped, ?writeBad, ?writeShaped, ?attestBad, ?attestShaped, ?readDone, ?writeDone, ?readRange,
    ?writeRange, ?writeDenied, ?writeReset, ?writeWaits, ?writeWord, ?readWaits, ?readWord, ?attestBlocked, ?attestWaits,
    ?attestSlice, ?attestStarts, ?idle⟩
  case readBad | writeBad | attestBad =>
    intro s k sd heard f g t bytes there live accepted kind up enabled answers malformed
    rw [exec_selRequest rfl bytes there live accepted kind up enabled answers]
    exact congrArg Host.Outcome.next (if_pos malformed)
  case readShaped | writeShaped | attestShaped =>
    intro s k sd heard f g t bytes there live accepted kind up enabled answers shaped
    rw [exec_selRequest rfl bytes there live accepted kind up enabled answers, selFrame_shaped shaped]
  case readDone =>
    intro s q rest answers oldest kind done
    rw [exec_serve_read answers oldest kind, done, selServeWords]
  case writeDone =>
    intro s q rest answers oldest kind done
    rw [exec_serve_write answers oldest kind, done, selServeWords]
  case readRange =>
    intro s q rest x n next answers oldest kind more range
    rw [exec_serve_read answers oldest kind, more, selServeWords_out_of_range next range]
  case writeRange =>
    intro s q rest x n next answers oldest kind more range
    rw [exec_serve_write answers oldest kind, more, selServeWords_out_of_range next range]
  case writeDenied =>
    intro s q rest x n next answers oldest kind more ranged denied
    rw [exec_serve_write answers oldest kind, more, selServeWords_in_range next ranged, Bool.true_and, if_pos denied]
  case writeReset =>
    intro s q rest x n next answers oldest kind more ranged allowed ignored
    rw [exec_serve_write answers oldest kind, more, selServeWords_write next ranged allowed, if_pos ignored]
  case writeWaits =>
    intro s q rest x n next answers oldest kind more ranged allowed taken busy
    rw [exec_serve_write answers oldest kind, more, selServeWords_write next ranged allowed,
      if_neg (ne_true_of_eq_false taken), if_pos busy]
  case writeWord =>
    intro s q rest x n next answers oldest kind more ranged allowed taken free
    rw [exec_serve_write answers oldest kind, more, selServeWords_write next ranged allowed,
      if_neg (ne_true_of_eq_false taken), if_neg (ne_true_of_eq_false free)]
  case readWaits =>
    intro s q rest x n next answers oldest kind more ranged busy
    rw [exec_serve_read answers oldest kind, more, selServeWords_read next ranged, if_pos busy]
  case readWord =>
    intro s q rest x n next answers oldest kind more ranged free
    rw [exec_serve_read answers oldest kind, more, selServeWords_read next ranged, if_neg (ne_true_of_eq_false free)]
  case attestBlocked =>
    intro s q rest answers oldest kind blocked
    exact (exec_serve_attest answers oldest kind).trans (congrArg Host.Outcome.next (if_pos blocked))
  case attestWaits =>
    intro s q rest answers oldest kind usable busy
    rw [exec_serve_attest answers oldest kind, selServeAttest_unblocked usable, if_pos busy]
  case attestSlice =>
    intro s q rest answers oldest kind usable idle made
    rw [exec_serve_attest answers oldest kind, selServeAttest_unblocked usable, if_neg (ne_true_of_eq_false idle),
      if_pos made]
  case attestStarts =>
    intro s q rest answers oldest kind usable idle other
    rw [exec_serve_attest answers oldest kind, selServeAttest_unblocked usable, if_neg (ne_true_of_eq_false idle),
      if_neg other]
    rfl
  case idle =>
    intro s quiet
    refine congrArg Host.Outcome.next (quiet.elim (fun closed => if_pos (by rw [closed]; rfl)) fun empty => ?_)
    rw [empty]
    exact ite_self s

end Sys2Proof.Machine
end

section
/-!
Accesses of a host port (R437-R442, R478): a read, a write and a FETCH, path by path.
-/

namespace Sys2Proof.Machine

section portRead

variable {p target addr n : Nat} {late : Bool} {t v w : State} {q : Nat × State} {r f : List Nat × State}

theorem portRead_range (words : f = freeWords n t) (range : badRange addr n = true) :
    portRead p target addr n late t = (stRange, f.1, f.2) := by
  rw [words]
  exact if_pos range

theorem portRead_remote (asked : q = remoteAccess p target false addr (List.replicate n 0) t)
    (words : f = freeWords n q.2) (ranged : badRange addr n = false) (away : target ≠ ownId t) :
    portRead p target addr n late t = (q.1, f.1, f.2) := by
  rw [words, asked]
  exact (if_neg (ne_true_of_eq_false ranged)).trans (if_pos away)

/-- A read in this package. -/
theorem portRead_here (ranged : badRange addr n = false) (here : target = ownId t) :
    portRead p target addr n late t =
      if mustWait t p addr then
        let s := portPending p n t
        let s := holdAccess { port := p, addr := addr, words := List.replicate n 0, tag := (s.port p).serial } s
        let w := freeWords n s
        (stPending, w.1, w.2)
      else
        let r := readWords n addr t
        if late then
          let s := portPending p n r.2
          let s := portResult p (s.port p).serial stOk r.1 s
          let w := freeWords n s
          (stPending, w.1, w.2)
        else (stOk, r.1, r.2) :=
  (if_neg (ne_true_of_eq_false ranged)).trans (if_neg (not_not_intro here))

theorem portRead_waits (pending : v = portPending p n t)
    (held : w = holdAccess { port := p, addr := addr, words := List.replicate n 0, tag := (v.port p).serial } v)
    (words : f = freeWords n w) (ranged : badRange addr n = false) (here : target = ownId t)
    (waits : mustWait t p addr = true) :
    portRead p target addr n late t = (stPending, f.1, f.2) := by
  rw [portRead_here ranged here, if_pos waits, words, held, pending]

theorem portRead_late (read : r = readWords n addr t) (pending : v = portPending p n r.2)
    (kept : w = portResult p (v.port p).serial stOk r.1 v) (words : f = freeWords n w) (ranged : badRange addr n = false)
    (here : target = ownId t) (free : mustWait t p addr = false) (delayed : late = true) :
    portRead p target addr n late t = (stPending, f.1, f.2) := by
  rw [portRead_here ranged here, if_neg (ne_true_of_eq_false free), words, kept, pending, read]
  exact if_pos delayed

theorem portRead_now (read : r = readWords n addr t) (ranged : badRange addr n = false) (here : target = ownId t)
    (free : mustWait t p addr = false) (prompt : late = false) :
    portRead p target addr n late t = (stOk, r.1, r.2) := by
  rw [portRead_here ranged here, if_neg (ne_true_of_eq_false free), read]
  exact if_neg (ne_true_of_eq_false prompt)

end portRead

section portWrite

variable {p target addr : Nat} {data : List Nat} {t : State}

theorem portWrite_range (range : badRange addr data.length = true) : portWrite p target addr data t = (stRange, t) :=
  if_pos range

theorem portWrite_here (ranged : badRange addr data.length = false) (here : target = ownId t) :
    portWrite p target addr data t = (stOk, writeWords p data addr t) :=
  (if_neg (ne_true_of_eq_false ranged)).trans (if_neg (not_not_intro here))

theorem portWrite_remote (ranged : badRange addr data.length = false) (away : target ≠ ownId t) :
    portWrite p target addr data t = remoteAccess p target true addr data t :=
  (if_neg (ne_true_of_eq_false ranged)).trans (if_pos away)

end portWrite

section portFetch

variable {p : Nat} {t : State} {f : List Nat × State} {r : Nat × List Nat}

theorem portFetch_none (none : (t.port p).serial = 0) : portFetch p t = (stNoResult, [0], t) := if_pos none

theorem portFetch_held (asked : (t.port p).serial ≠ 0) (held : (t.port p).result = some r) :
    portFetch p t = (r.1, r.2, t) := by
  simp only [portFetch, if_neg asked, held]

theorem portFetch_pending (words : f = freeWords (t.port p).len t) (asked : (t.port p).serial ≠ 0)
    (waits : (t.port p).result = none) : portFetch p t = (stPending, f.1, f.2) := by
  simp only [portFetch, if_neg asked, waits, words]

end portFetch

end Sys2Proof.Machine
end

section
/-!
SPI frames (R438-R442).
-/

namespace Sys2Proof.Machine

/-! ## The frame around an access -/

section spiFrame

variable {op addr crc n st : Nat} {quad isStatus reads : Bool} {data words : List Nat} {s t w y z : State}
  {act : State → Nat × List Nat × State}

theorem spiFrame_good (counted : t = (s.bump R.HST_FRAMES_spi).freshOut) (runs : portRuns s = true)
    (good : crc8 (spiBytes op quad addr data) = crc % 256) :
    spiFrame op quad addr data crc n isStatus reads act s = spiDone isStatus reads (act t) := by
  simp only [spiFrame, runs, good, counted, Bool.not_true, Bool.false_eq_true, if_false, ne_eq, not_true_eq_false]

theorem spiFrame_bad (counted : t = (s.bump R.HST_FRAMES_spi).freshOut) (runs : portRuns s = true)
    (bad : crc8 (spiBytes op quad addr data) ≠ crc % 256) :
    spiFrame op quad addr data crc n isStatus reads act s =
      spiDone isStatus reads (stCrc, List.replicate n 0, t.bump R.HST_CNT_spi_crc) := by
  simp only [spiFrame, runs, bad, counted, Bool.not_true, Bool.false_eq_true, if_false, if_true, ne_eq,
    not_false_eq_true]

/-- A frame that writes answers its status alone. -/
theorem spiDone_write (stored : y = w.wr R.HST_STAT_spi_last st)
    (answered : z = ({ y with host := { y.host with answer := [st] } } : State)) :
    spiDone false false (st, words, w) = z.putPort 0 { z.port 0 with last := some st } := by
  rw [answered, stored]
  rfl

/-- A frame that reads answers status, words and their CRC. -/
theorem spiDone_read (stored : y = w.wr R.HST_STAT_spi_last st)
    (answered : z = ({ y with host := { y.host with
      answer := st :: (words ++ [crc8 (st :: words.flatMap (beBytes 4))]) } } : State)) :
    spiDone false true (st, words, w) = z.putPort 0 { z.port 0 with last := some st } := by
  rw [answered, stored]
  rfl

/-- STATUS leaves the port's last status as it is. -/
theorem spiDone_status (stored : y = w.wr R.HST_STAT_spi_last st)
    (answered : z = ({ y with host := { y.host with
      answer := st :: (words ++ [crc8 (st :: words.flatMap (beBytes 4))]) } } : State)) :
    spiDone true true (st, words, w) = z := by
  rw [answered, stored]
  rfl

end spiFrame

theorem singleOnly_single {addr n : Nat} {t : State} {r : Nat × List Nat × State} (single : awLen addr = 0) :
    singleOnly addr n t r = r := if_neg (not_not_intro single)

theorem singleOnly_long {addr n : Nat} {t : State} {r : Nat × List Nat × State} {f : List Nat × State}
    (words : f = freeWords n t) (long : awLen addr ≠ 0) : singleOnly addr n t r = (stRange, f.1, f.2) := by
  rw [words]
  exact if_pos long

/-! ## The commands whose frame is good -/

section commands

variable {quad late : Bool} {addr crc data : Nat} {block : List Nat} {s t : State} {f : List Nat × State}
  {q : Nat × State}

theorem exec_spiWrite_good (counted : t = (s.bump R.HST_FRAMES_spi).freshOut) (runs : portRuns s = true)
    (good : crc8 (spiBytes 1 quad addr [data]) = crc % 256) (single : awLen addr = 0)
    (written : portWrite 0 (awTarget addr) (awAddr addr) [data] t = q) :
    exec (.spiWrite quad addr data crc) s = .next (spiDone false false (q.1, [], q.2)) := by
  refine congrArg Host.Outcome.next ((spiFrame_good counted runs good).trans ?_)
  rw [singleOnly_single single, written]

theorem exec_spiRead_good (counted : t = (s.bump R.HST_FRAMES_spi).freshOut) (runs : portRuns s = true)
    (good : crc8 (spiBytes 2 quad addr []) = crc % 256) (single : awLen addr = 0) :
    exec (.spiRead quad addr crc late) s =
      .next (spiDone false true (portRead 0 (awTarget addr) (awAddr addr) 1 late t)) := by
  refine congrArg Host.Outcome.next ((spiFrame_good counted runs good).trans ?_)
  rw [singleOnly_single single]

theorem exec_spiWriteBlock_whole (whole : block.length = awLen addr + 1) :
    exec (.spiWriteBlock quad addr block crc) s = .next (spiFrame 3 quad addr block crc 0 false false (fun s =>
      ((portWrite 0 (awTarget addr) (awAddr addr) block s).1, [],
        (portWrite 0 (awTarget addr) (awAddr addr) block s).2)) s) :=
  congrArg Host.Outcome.next (if_neg (not_not_intro whole))

theorem exec_spiWriteBlock_good (counted : t = (s.bump R.HST_FRAMES_spi).freshOut) (runs : portRuns s = true)
    (good : crc8 (spiBytes 3 quad addr block) = crc % 256) (whole : block.length = awLen addr + 1)
    (written : portWrite 0 (awTarget addr) (awAddr addr) block t = q) :
    exec (.spiWriteBlock quad addr block crc) s = .next (spiDone false false (q.1, [], q.2)) := by
  rw [exec_spiWriteBlock_whole whole, spiFrame_good counted runs good, written]

theorem exec_spiReadBlock_good (counted : t = (s.bump R.HST_FRAMES_spi).freshOut) (runs : portRuns s = true)
    (good : crc8 (spiBytes 4 quad addr []) = crc % 256) :
    exec (.spiReadBlock quad addr crc late) s =
      .next (spiDone false true (portRead 0 (awTarget addr) (awAddr addr) (awLen addr + 1) late t)) :=
  congrArg Host.Outcome.next (spiFrame_good counted runs good)

theorem exec_spiFetch_good (counted : t = (s.bump R.HST_FRAMES_spi).freshOut) (runs : portRuns s = true)
    (good : crc8 (spiBytes 5 quad addr []) = crc % 256) :
    exec (.spiFetch quad addr crc) s = .next (spiDone false true
      (if addr % 2 ^ 32 ≠ 0 then (stRange, List.replicate (fetchLen t 0) 0, t) else portFetch 0 t)) :=
  congrArg Host.Outcome.next (spiFrame_good counted runs good)

theorem exec_spiFetch_zero (counted : t = (s.bump R.HST_FRAMES_spi).freshOut) (runs : portRuns s = true)
    (good : crc8 (spiBytes 5 quad addr []) = crc % 256) (zero : addr % 2 ^ 32 = 0) :
    exec (.spiFetch quad addr crc) s = .next (spiDone false true (portFetch 0 t)) := by
  rw [exec_spiFetch_good counted runs good, if_neg (not_not_intro zero)]

theorem exec_spiStatus_good (counted : t = (s.bump R.HST_FRAMES_spi).freshOut) (runs : portRuns s = true)
    (good : crc8 (spiBytes 6 quad addr []) = crc % 256) :
    exec (.spiStatus quad addr crc) s =
      .next (spiDone true true (singleOnly addr 1 t ((t.port 0).last.getD stNoResult, [0], t))) :=
  congrArg Host.Outcome.next (spiFrame_good counted runs good)

end commands

/-- Settles O49: each clause is the frame (`spiFrame_good`, `spiFrame_bad`), the access on its path, and the answer. -/
theorem spiFramesAct : Obligations.SpiFramesAct := by
  unfold Obligations.SpiFramesAct
  refine ⟨?writeRange, ?writeHere, ?writeRemote, ?writeLong, ?writeCrc, ?readRange, ?readRemote, ?readWaits, ?readLate,
    ?readNow, ?readLong, ?readCrc, ?blockWriteRange, ?blockWriteHere, ?blockWriteRemote, ?blockWriteCrc, ?blockWriteCut,
    ?blockReadRange, ?blockReadRemote, ?blockReadWaits, ?blockReadLate, ?blockReadNow, ?blockReadCrc, ?fetchNone,
    ?fetchHeld, ?fetchPending, ?fetchRange, ?fetchCrc, ?status, ?statusLong, ?statusCrc, ?badOpcode, ?knownOpcode⟩
  case writeRange =>
    intro s quad addr data crc t y z counted stored answered runs good single range
    rw [exec_spiWrite_good counted runs good single (portWrite_range range), spiDone_write stored answered]
  case writeHere =>
    intro s quad addr data crc t y z counted stored answered runs good single ranged here
    rw [exec_spiWrite_good counted runs good single (portWrite_here ranged here), spiDone_write stored answered]
  case writeRemote =>
    intro s quad addr data crc t q y z counted asked stored answered runs good single ranged away
    rw [exec_spiWrite_good counted runs good single ((portWrite_remote ranged away).trans asked.symm),
      spiDone_write stored answered]
  case writeLong =>
    intro s quad addr data crc t y z counted stored answered runs good long
    refine congrArg Host.Outcome.next ((spiFrame_good counted runs good).trans ?_)
    rw [singleOnly_long rfl long]
    exact spiDone_write stored answered
  case writeCrc =>
    intro s quad addr data crc t y z counted stored answered runs bad
    exact congrArg Host.Outcome.next ((spiFrame_bad counted runs bad).trans (spiDone_write stored answered))
  case readRange =>
    intro s quad addr crc late t f y z counted words stored answered runs good single range
    rw [exec_spiRead_good counted runs good single, portRead_range words range, spiDone_read stored answered]
  case readRemote =>
    intro s quad addr crc late t q f y z counted asked words stored answered runs good single ranged away
    rw [exec_spiRead_good counted runs good single, portRead_remote asked words ranged away,
      spiDone_read stored answered]
  case readWaits =>
    intro s quad addr crc late t v w f y z counted pending held words stored answered runs good single ranged here waits
    rw [exec_spiRead_good counted runs good single, portRead_waits pending held words ranged here waits,
      spiDone_read stored answered]
  case readLate =>
    intro s quad addr crc late t r v w f y z counted read pending kept words stored answered runs good single ranged here
      free delayed
    rw [exec_spiRead_good counted runs good single, portRead_late read pending kept words ranged here free delayed,
      spiDone_read stored answered]
  case readNow =>
    intro s quad addr crc late t r y z counted read stored answered runs good single ranged here free prompt
    rw [exec_spiRead_good counted runs good single, portRead_now read ranged here free prompt,
      spiDone_read stored answered]
  case readLong =>
    intro s quad addr crc late t f y z counted words stored answered runs good long
    refine congrArg Host.Outcome.next ((spiFrame_good counted runs good).trans ?_)
    rw [singleOnly_long words long]
    exact spiDone_read stored answered
  case readCrc | blockReadCrc =>
    intro s quad addr crc late t y z counted stored answered runs bad
    exact congrArg Host.Outcome.next ((spiFrame_bad counted runs bad).trans (spiDone_read stored answered))
  case blockWriteRange =>
    intro s quad addr data crc t y z counted stored answered runs good whole range
    rw [exec_spiWriteBlock_good counted runs good whole (portWrite_range range), spiDone_write stored answered]
  case blockWriteHere =>
    intro s quad addr data crc t y z counted stored answered runs good whole ranged here
    rw [exec_spiWriteBlock_good counted runs good whole (portWrite_here ranged here), spiDone_write stored answered]
  case blockWriteRemote =>
    intro s quad addr data crc t q y z counted asked stored answered runs good whole ranged away
    rw [exec_spiWriteBlock_good counted runs good whole ((portWrite_remote ranged away).trans asked.symm),
      spiDone_write stored answered]
  case blockWriteCrc =>
    intro s quad addr data crc t y z counted stored answered runs bad whole
    rw [exec_spiWriteBlock_whole whole, spiFrame_bad counted runs bad, spiDone_write stored answered]
  case blockWriteCut => exact fun s quad addr data crc cut => congrArg Host.Outcome.next (if_pos cut)
  case blockReadRange =>
    intro s quad addr crc late t f y z counted words stored answered runs good range
    rw [exec_spiReadBlock_good counted runs good, portRead_range words range, spiDone_read stored answered]
  case blockReadRemote =>
    intro s quad addr crc late t q f y z counted asked words stored answered runs good ranged away
    rw [exec_spiReadBlock_good counted runs good, portRead_remote asked words ranged away, spiDone_read stored answered]
  case blockReadWaits =>
    intro s quad addr crc late t v w f y z counted pending held words stored answered runs good ranged here waits
    rw [exec_spiReadBlock_good counted runs good, portRead_waits pending held words ranged here waits,
      spiDone_read stored answered]
  case blockReadLate =>
    intro s quad addr crc late t r v w f y z counted read pending kept words stored answered runs good ranged here free
      delayed
    rw [exec_spiReadBlock_good counted runs good, portRead_late read pending kept words ranged here free delayed,
      spiDone_read stored answered]
  case blockReadNow =>
    intro s quad addr crc late t r y z counted read stored answered runs good ranged here free prompt
    rw [exec_spiReadBlock_good counted runs good, portRead_now read ranged here free prompt,
      spiDone_read stored answered]
  case fetchNone =>
    intro s quad addr crc t y z counted stored answered runs good zero none
    rw [exec_spiFetch_zero counted runs good (zero.mpr rfl), portFetch_none none, spiDone_read stored answered]
  case fetchHeld =>
    intro s quad addr crc t r y z counted stored answered runs good zero asked held
    rw [exec_spiFetch_zero counted runs good (zero.mpr rfl), portFetch_held asked held, spiDone_read stored answered]
  case fetchPending =>
    intro s quad addr crc t f y z counted words stored answered runs good zero asked waits
    rw [exec_spiFetch_zero counted runs good (zero.mpr rfl), portFetch_pending words asked waits, spiDone_read stored answered]
  case fetchRange =>
    intro s quad addr crc t y z counted stored answered runs good other
    rw [exec_spiFetch_good counted runs good, if_pos fun zero => Bool.false_ne_true (other.mp zero), spiDone_read stored answered]
  case fetchCrc =>
    intro s quad addr crc t y z counted stored answered runs bad
    exact congrArg Host.Outcome.next ((spiFrame_bad counted runs bad).trans (spiDone_read stored answered))
  case status =>
    intro s quad addr crc t y z counted stored answered runs good single
    rw [exec_spiStatus_good counted runs good, singleOnly_single single, spiDone_status stored answered]
  case statusLong =>
    intro s quad addr crc t f y z counted words stored answered runs good long
    rw [exec_spiStatus_good counted runs good, singleOnly_long words long, spiDone_status stored answered]
  case statusCrc =>
    intro s quad addr crc t y z counted stored answered runs bad
    exact congrArg Host.Outcome.next ((spiFrame_bad counted runs bad).trans (spiDone_status stored answered))
  case badOpcode => exact fun s op runs unknown => congrArg Host.Outcome.next (if_pos (by rw [runs, unknown]; rfl))
  case knownOpcode =>
    exact fun s op known => congrArg Host.Outcome.next (if_neg (by rw [known, Bool.not_true, Bool.and_false]; decide))

end Sys2Proof.Machine
end

section
/-!
SMBus transactions (R443, R444).
-/

namespace Sys2Proof.Machine

/-! ## The transaction around an access -/

section transactions

variable {cmd data st : Nat} {pec : Option Nat} {act : State → Nat × State} {s t w x y : State} {words : List Nat}
  {q : Nat × State}

theorem smbBlockWrite_taken (fresh : t = s.freshOut) (runs : portRuns s = true) (good : pecOk t cmd data pec = true) :
    smbBlockWrite cmd data pec act s = smbDone (act t).1 (act t).2 := by
  rw [fresh] at good ⊢
  simp only [smbBlockWrite, runs, good, Bool.not_true, Bool.false_eq_true, if_false, if_true]

theorem smbBlockWrite_bad (fresh : t = s.freshOut) (runs : portRuns s = true) (bad : pecOk t cmd data pec = false) :
    smbBlockWrite cmd data pec act s = smbDone stCrc (t.bump R.HST_CNT_smb_pec) := by
  rw [fresh] at bad ⊢
  simp only [smbBlockWrite, runs, bad, Bool.not_true, Bool.false_eq_true, if_false]

theorem smbDone_eq (ended : y = (w.bump R.HST_FRAMES_smb).wr R.HST_STAT_smb_last st) :
    smbDone st w = y.putPort 1 { y.port 1 with last := some st } := by
  rw [ended]
  rfl

theorem smbDone_answer
    (ended : y = ((({ x with host := { x.host with
      answer := [st, words.headD 0, crc8 ([smbAddr x, cmd, smbAddr x + 1, 5, st] ++ beBytes 4 (words.headD 0))] } } :
        State)).bump R.HST_FRAMES_smb).wr R.HST_STAT_smb_last st) :
    smbDone st (smbAnswer cmd st (words.headD 0) x) = y.putPort 1 { y.port 1 with last := some st } := by
  rw [ended]
  rfl

theorem smbStep_eq : smbStep st w =
    if st = stOk && w.on R.HST_CFG_smb_inc then { w with host := { w.host with ptr := (w.host.ptr + 4) % 2 ^ 32 } }
    else w := rfl

theorem exec_smbWrite_good (fresh : t = s.freshOut) (runs : portRuns s = true) (good : pecOk t 0x11 data pec = true)
    (written : portWrite 1 (awTarget t.host.ptr) (awAddr t.host.ptr) [data % 2 ^ 32] t = q) :
    exec (.smbWrite data pec) s = .next (smbDone q.1 (if t.on R.HST_CFG_smb_inc && q.1 = stOk
      then { q.2 with host := { q.2.host with ptr := (t.host.ptr + 4) % 2 ^ 32 } } else q.2)) := by
  refine congrArg Host.Outcome.next ((smbBlockWrite_taken fresh runs good).trans ?_)
  rw [written]

/-- A READ by the status, the words and the state in which its access ends. -/
theorem exec_smbRead {late : Bool} (fresh : t = s.freshOut) (runs : portRuns s = true)
    (access : portRead 1 (awTarget t.host.ptr) (awAddr t.host.ptr) 1 late t = (st, words, w)) :
    exec (.smbRead late) s = .next (smbDone st (smbAnswer 0x12 st (words.headD 0) (smbStep st w))) := by
  have pointer : s.freshOut.host.ptr = s.host.ptr := rfl
  rw [fresh, pointer] at access
  refine congrArg Host.Outcome.next ((if_neg (by rw [runs]; decide)).trans ?_)
  rw [access]

theorem exec_smbFetch (runs : portRuns s = true) (access : portFetch 1 s = (st, words, w)) :
    exec .smbFetch s = .next (smbDone st (smbAnswer 0x13 st (words.headD 0) w)) := by
  refine congrArg Host.Outcome.next ((if_neg (by rw [runs]; decide)).trans ?_)
  rw [access]

end transactions

/-- Settles O50: each clause is the transaction, the access on its path (as for SPI), and the status and answer. -/
theorem smbusTransactionsAct : Obligations.SmbusTransactionsAct := by
  unfold Obligations.SmbusTransactionsAct
  refine ⟨?pointer, ?pointerRange, ?pointerCrc, ?writeRange, ?writeHere, ?writeMoves, ?writeRemote, ?writeCrc, ?readRange,
    ?readRemote, ?readWaits, ?readLate, ?readNow, ?fetchNone, ?fetchHeld, ?fetchPending, ?status, ?timeout⟩
  case pointer =>
    intro s ptr pec t y fresh ended runs good word
    refine congrArg Host.Outcome.next ((smbBlockWrite_taken fresh runs good).trans ?_)
    rw [if_neg (ne_true_of_eq_false word), smbDone_eq ended]
  case pointerRange =>
    intro s ptr pec t y fresh ended runs good range
    refine congrArg Host.Outcome.next ((smbBlockWrite_taken fresh runs good).trans ?_)
    rw [if_pos range, smbDone_eq ended]
  case pointerCrc | writeCrc =>
    intro s data pec t y fresh ended runs bad
    exact congrArg Host.Outcome.next ((smbBlockWrite_bad fresh runs bad).trans (smbDone_eq ended))
  case writeRange =>
    intro s data pec t y fresh ended runs good range
    rw [exec_smbWrite_good fresh runs good (portWrite_range range), if_neg (by simp [stRange, stOk]), smbDone_eq ended]
  case writeHere =>
    intro s data pec t u y fresh written ended runs good ranged here fixed
    rw [exec_smbWrite_good fresh runs good (portWrite_here ranged here), if_neg (by simp [fixed]), ← written,
      smbDone_eq ended]
  case writeMoves =>
    intro s data pec t u y fresh written ended runs good ranged here moves
    rw [exec_smbWrite_good fresh runs good (portWrite_here ranged here), if_pos (by simp [moves]), ← written,
      smbDone_eq ended]
  case writeRemote =>
    intro s data pec t q u y fresh asked moved ended runs good ranged away
    rw [exec_smbWrite_good fresh runs good ((portWrite_remote ranged away).trans asked.symm), ← moved, smbDone_eq ended]
  case readRange =>
    intro s late t f x y fresh words moved ended runs range
    rw [exec_smbRead fresh runs (portRead_range words range), smbStep_eq, ← moved, smbDone_answer ended]
  case readRemote =>
    intro s late t q f x y fresh asked words moved ended runs ranged away
    rw [exec_smbRead fresh runs (portRead_remote asked words ranged away), smbStep_eq, ← moved, smbDone_answer ended]
  case readWaits =>
    intro s late t v w f x y fresh pending held words moved ended runs ranged here waits
    rw [exec_smbRead fresh runs (portRead_waits pending held words ranged here waits), smbStep_eq, ← moved,
      smbDone_answer ended]
  case readLate =>
    intro s late t r v w f x y fresh read pending kept words moved ended runs ranged here free delayed
    rw [exec_smbRead fresh runs (portRead_late read pending kept words ranged here free delayed), smbStep_eq, ← moved,
      smbDone_answer ended]
  case readNow =>
    intro s late t r x y fresh read moved ended runs ranged here free prompt
    rw [exec_smbRead fresh runs (portRead_now read ranged here free prompt), smbStep_eq, ← moved, smbDone_answer ended]
  case fetchNone =>
    intro s y ended runs none
    rw [exec_smbFetch runs (portFetch_none none), smbDone_answer ended]
  case fetchHeld =>
    intro s r y ended runs asked held
    rw [exec_smbFetch runs (portFetch_held asked held), smbDone_answer ended]
  case fetchPending =>
    intro s f x y words left ended runs asked waits
    rw [exec_smbFetch runs (portFetch_pending words asked waits), ← left, smbDone_answer ended]
  case status => exact fun s runs => congrArg Host.Outcome.next (if_neg (by rw [runs]; decide))
  case timeout => exact fun s runs => congrArg Host.Outcome.next (if_pos runs)

end Sys2Proof.Machine
end
